-- ==== Sys2Proof/Word.lean ====
section
/-! DEFINITION. The words of the block: 32-bit registers (R4), bytes, and the plainest arithmetic on them. -/

namespace Sys2Proof

/-- A register word (R4). -/
abbrev Word := BitVec 32

/-- A byte of the central store, of the flash or of a frame. -/
abbrev Byte := BitVec 8

/-- One tick is 2048 core cycles (R15). -/
def tickLen : Nat := 2048

/-- One fine-time unit is 2^-16 core cycle (R73). -/
def fineUnit : Nat := 65536

end Sys2Proof
end

