-- ==== Sys2Proof/Syntax.lean ====
section
/-! DEFINITION. The commands of the block: one constructor per row of spec/opcode_table.json. An operand is what the
outside world or the part's physics supplies (log entry 2). A core cycle operand `a` or `c` is the LCNT at which the
command arrives or to which its words are tagged. -/

namespace Sys2Proof

/-- What a converter die sends for one channel's array in one core cycle: 64 conversion codes, the first four codes of the
array's next word (R35, R38, R39), whether the word failed its die-link ECC, and whether the next one did (R48, R39). -/
structure RawWord where
  x : List Int
  look : List Int
  eccBad : Bool
  lookBad : Bool
  deriving DecidableEq, Repr

/-- An estimate of the trim engine for a spare position (R324, Table 2.5): offset in 2^-6 LSB, gain in 2^-16, skew taps in
2^-16, skew in femtoseconds, one code for the whole interval, and the change against the coefficients in use too large. -/
structure TrimEst where
  off : Int
  gain : Nat
  taps : List Int
  skewFs : Int
  stuck : Bool
  disturbed : Bool
  deriving DecidableEq, Repr

/-- The heartbeat's entry of one group (Table 18.2). -/
structure PeerGrp where
  nextRec : Nat
  nextGap : Nat
  durable : Nat
  rmax : Nat
  deriving DecidableEq, Repr

/-- The payload of a HEARTBEAT or HANDOVER frame (Table 18.2). prefer and ptpId are what R385 compares; no field of Table
18.2 carries them (log entry 11). -/
structure PeerState where
  lcnt : Nat
  sec : Nat
  ns : Nat
  sub : Nat
  epoch : Nat
  role : Nat
  phase : Nat
  image : Nat
  commits : Nat
  node : Nat
  flags : Nat
  armed : Nat
  grps : List PeerGrp
  prefer : Bool
  ptpId : Nat
  deriving DecidableEq, Repr

/-- The ECC result of one store burst (R157, R158). -/
inductive EccResult where
  | good
  | corrected
  | uncorrectable
  deriving DecidableEq, Repr

/-- A part that a self-test finds failed (Table 17.4). -/
inductive FailPart where
  /-- A die by its die code (R2). -/
  | die (k : Nat)
  /-- Reference buffer or comparator bank of region q. -/
  | region (q : Nat)
  /-- PLL of network lane group j, 0-7. -/
  | laneGroup (j : Nat)
  /-- Clamp detector or sampling switch of channel n. -/
  | channel (n : Nat)
  /-- Loopback of port p. -/
  | port (p : Nat)
  /-- Channel group j of stack s. -/
  | stackGroup (s j : Nat)
  /-- Position p of channel n against Table 2.5. -/
  | position (n p : Nat)
  /-- Interpolator i of channel ch. -/
  | interp (ch i : Nat)
  /-- Event interpolator i of input k. -/
  | evtInterp (k i : Nat)
  /-- SerDes lane l, 0-127, in loopback. -/
  | lane (l : Nat)
  /-- A row, or the lane, of global pseudo-channel pc. -/
  | storeRow (pc : Nat)
  | storeLane (pc : Nat)
  /-- Package level. -/
  | package
  deriving DecidableEq, Repr

/-- The result of a foreground run on one channel (R317, R322): new coefficients by position and word (CONV_COEF format),
path delays and level trims of its comparators, input alignment, quality figures (R322 is decided from them). -/
structure ChResult where
  n : Nat
  coef : List (Nat × List Nat)
  acDelay : List Nat
  trims : List Int
  align : Int
  ofsUv : Int
  gainPpm : Int
  spur : Int
  skewFs : Nat
  enob : Nat
  ints : List (Nat × Nat)
  /-- Positions and interpolators that failed their criteria during the run (R47, R81). -/
  badPos : List Nat
  badInt : List Nat
  deriving DecidableEq, Repr

/-- The results of a run on one die, by what was measured (R317). -/
structure DieResult where
  chans : List ChResult
  evtDelay : List Nat
  evtInts : List (Nat × Nat)
  monOff : Int
  monGain : Nat
  dac : List (Int × Nat)
  temp : Int
  /-- CALV measured more than 1 % from the ratio in OTP (R315). -/
  suspect : Bool
  deriving DecidableEq, Repr

/-- The outcome of a background-state check (R378). -/
inductive CheckOutcome where
  | good
  | chanBad (n : Nat)
  | hubBad
  deriving DecidableEq, Repr

/-- What a PTP message other than Sync carries for the model (R274-R280): the standard's own decisions (best master
selection, port states, path delays) come as their results (log entry 2). -/
inductive PtpMsg where
  /-- Announce accepted by the BMCA of the standard: the port states it leads to, the grandmaster identity, the UTC offset. -/
  | announce (states : List (Nat × Nat)) (gm : Nat) (utcValid : Bool) (utc : Int)
  /-- Follow_Up of a two-step Sync: sequenceId, preciseOrigin + correction in 2^-16 ns. -/
  | followUp (seq : Nat) (origin : Int)
  /-- Delay_Resp or Pdelay_Resp exchange completed: new mean path delay in 2^-16 ns. -/
  | pathDelay (mpd : Int)
  /-- Delay_Req or Pdelay_Req to answer: sequenceId, receipt instant in 2^-16 core cycle. -/
  | delayReq (seq : Nat) (t : Nat)
  /-- A message-interval request TLV under 802.1AS: SYNC, DELAY_REQ, ANNOUNCE (log2, two's complement bytes). -/
  | interval (ann sync dly : Nat)
  /-- A management message (counted and dropped). -/
  | management
  deriving DecidableEq, Repr

/-- What SUPPLY_FAULT reports (Table 17.6). -/
inductive FaultRail where
  | vddAna
  | vddSer
  | vhv
  | vddIo
  | vexc
  deriving DecidableEq, Repr

/-- What a configuration request does (R199, R203; log entry 9): nothing that the spec describes, or a mask of the function's
MSI-X vectors, of all or of one. -/
inductive CfgReq where
  | other
  | functionMask (on : Bool)
  | vectorMask (vec : Fin 2048) (on : Bool)
  deriving DecidableEq, Repr

/-- The request of a queue that fails (R221): its descriptor fetch, its oldest read-back, its last completion record. -/
inductive QReq where
  | fetch
  | readBack
  | completion
  deriving DecidableEq, Repr

/-- Where a half of a 64-bit register is read, and whether all 8 bytes are read as one access (R226). -/
structure HalfRead where
  off : Nat
  whole : Bool
  deriving DecidableEq, Repr

/-- A configuration request: the function it goes to and what it does. -/
structure CfgAccess where
  fn : Fin 64
  req : CfgReq
  deriving DecidableEq, Repr

/-- An access to BAR4 of a function: its offset, and whether it writes (R202). -/
structure BarAccess where
  off : Nat
  write : Bool
  deriving DecidableEq, Repr

/-- A request that failed, and the queue that issued it (R221). -/
structure QFail where
  q : Fin 1024
  req : QReq
  deriving DecidableEq, Repr

/-- What the loop saw while it acquired (R253): its fine word, so many consecutive reference cycles, the largest phase error in them and
the last one, in units of 250 fs. -/
structure LockSeen where
  fine : Nat
  cycles : Nat
  worst : Nat
  err : Int
  deriving DecidableEq, Repr

/-- What a locked loop saw (R253): the LCNT of the last good reference edge, so many consecutive reference cycles, the smallest phase
error in them and the last one, and whether the TDC overflowed. -/
structure UnlockSeen where
  lastGood : Nat
  cycles : Nat
  least : Nat
  err : Int
  overflow : Bool
  deriving DecidableEq, Repr

/-- The commands: one constructor per row of spec/opcode_table.json, in the table's order. -/
inductive Instr where
  | tickBoundary (inHigh : Nat)
  | commitReqTick (a : Nat)
  | commitReqRecord (a : Nat) (g : Fin 16)
  | commitReqAt (a : Nat)
  | commitApply (inHigh : Nat)
  | cfgCancel (a : Nat)
  | cfgRevert
  | cfgReload (a : Nat) (slot : Fin 2)
  | flashRead
  | flashProgram
  | flashErase4k
  | flashErase64k
  | flashCommandDone (ok : Bool)
  | registerWrite (fn : Fin 64) (a off : Nat) (v : BitVec 32) (hi : Option (BitVec 32))
  | w1cClear (fn : Fin 64) (off : Nat) (v : BitVec 32)
  | rcCounterRead (fn : Fin 64) (off : Nat)
  | lowHalfRead (fn : Fin 64) (x : HalfRead)
  | halfWrite (fn : Fin 64) (off : Nat) (v : BitVec 32)
  | sampleWordDelivery (q : Fin 12) (c : Nat) (words : List RawWord)
  | clampTrip (n : Fin 48) (c : Nat)
  | clampRelease (n : Fin 48) (c : Nat)
  | rotationStepDue (n : Fin 48)
  | trimEstimate (n : Fin 48) (est : TrimEst)
  | slotMonitorCheck (n : Fin 48)
  | spareTakeover (n : Fin 48)
  | fltDcFreezeWrite (a : Nat) (n : Fin 48) (freeze : Bool)
  | fltBcastWrite (off : Nat) (v : BitVec 32)
  | filterOutput (n : Fin 48)
  | analogCrossing (n : Fin 288) (c : Nat) (rising : Bool)
  | interpolatorMeasurement (ch : Fin 48) (i : Fin 16) (nm n1 n2 : BitVec 12)
  | interpolatorIdleRefresh (c : Nat) (ch : Fin 48) (i : Fin 16) (n1 n2 : BitVec 12)
  | interpolatorSpareSwap (ch : Fin 48) (i : Fin 16)
  | digitalCrossing (m : Fin 192)
  | candidateDecision (g : Fin 16)
  | timeoutExpiry (g : Fin 16)
  | patternDurationReached (g : Fin 16)
  | sequenceAExpiry (g : Fin 16)
  | arm (a : Nat) (g : Fin 16)
  | armTakesEffect (g : Fin 16)
  | stop (a : Nat) (g : Fin 16)
  | stopTakesEffect (g : Fin 16)
  | force (a : Nat) (g : Fin 16)
  | fillComplete (g : Fin 16)
  | recordSpanEnd (g : Fin 16)
  | rearmEnd (g : Fin 16)
  | continuousRecordOpen (g : Fin 16)
  | slotFreed (g : Fin 16)
  | recordRelease (g : Fin 16)
  | finalHeaderWrite (g : Fin 16)
  | abacusTrailerWrite
  | averageAdd (g : Fin 16)
  | talAvgRestart (g : Fin 16)
  | hitWaveformDraw
  | decayDue (d : Fin 8)
  | decaySweepEnd (d : Fin 8)
  | snapshotDue (d : Fin 8)
  | talDbSnap (d : Fin 8)
  | snapshotCopyStart (d : Fin 8)
  | snapshotCopyEnd (d : Fin 8)
  | talDbClear (d : Fin 8)
  | dbClearApply (d : Fin 8)
  | storeReadBurst (cls : Fin 7) (addr : Nat) (crcFails : Nat) (ecc : EccResult)
  | rowRepairSwitch (pc : Fin 128) (row : Nat)
  | laneSpareReplace (pc : Fin 128)
  | stackFailure (s : Fin 4) (c : Nat)
  | portLinkUp (p : Fin 128)
  | portLinkDown (p : Fin 128)
  | fecUncorrectableCodeword (p : Fin 128)
  | fecPortFailure (p : Fin 128) (lane : Fin 64)
  | rxBadFcs (p : Fin 128)
  | rxPauseFrame (a : Nat) (p : Fin 128) (quanta : BitVec 16)
  | rxPfcFrame (a : Nat) (p : Fin 128) (enable : BitVec 8) (times : List Nat)
  | pauseExpiry (p : Fin 128) (prio : Fin 8)
  | pauseLong (p : Fin 128)
  | rxArpRequest (p : Fin 128) (target senderIp senderMac : Nat)
  | rxNeighbourSolicitation (p : Fin 128) (target sender senderMac : Nat)
  | rxFrameDropped (p : Fin 128)
  | timeMarkerDue (q : Fin 1024)
  | streamPacketForm (q : Fin 1024)
  | packetTransmitDone (p : Fin 128)
  | pcieConfigRequest (x : CfgAccess)
  | bar2Read (fn : Fin 64) (off len : Nat)
  | bar2Write (fn : Fin 64) (off : Nat)
  | doorbell (fn : Fin 64) (x : BarAccess)
  | queueStart (fn : Fin 64) (q : Fin 1024)
  | queueResume (fn : Fin 64) (q : Fin 1024)
  | queueAbort (fn : Fin 64) (q : Fin 1024)
  | descriptorFetch (q : Fin 1024) (bytes : List (BitVec 8))
  | descNop (q : Fin 1024)
  | descRead (q : Fin 1024)
  | descCopy (q : Fin 1024)
  | descRecord (q : Fin 1024)
  | descRelease (q : Fin 1024)
  | readbackCompletion (q : Fin 1024)
  | completionTimeout (x : QFail)
  | completionUr (x : QFail)
  | functionLevelReset (f : Fin 64)
  | pcieFunctionReset
  | hotPlug
  | linkTrainingDone (ok : Bool)
  | vblankStart
  | frameDone
  | rasterLineStart (line : Nat)
  | rasterFetchBurst (layer : Fin 8) (row : Fin 1024) (spoiled : BitVec 16)
  | refinLost (c lastGood : Nat)
  | refinRestored (c : Nat)
  | clkbypLost (c : Nat) (uncounted : Fin 11)
  | ocxoRdyFall
  | ocxoRdyRise
  | searchStep (up : Bool)
  | loopLock (x : LockSeen)
  | loopUnlock (c : Nat) (x : UnlockSeen)
  | fabricToBypass
  | fabricReturn
  | oscillatorStop (c : Nat) (uncounted : Fin 11)
  | servoUpdate
  | ptpSyncRx (p : Fin 128) (seq t : Nat) (origin : Int) (twoStep : Bool)
  | ptpMessageRx (p : Fin 128) (msg : PtpMsg)
  | ptpEventTx (p : Fin 128) (typ seq : Nat) (t : Nat)
  | announceReceiptTimeout (p : Fin 128)
  | keeperSecondsLoad
  | timeSnap (a : Nat)
  | stagePeriod (a : Nat)
  | stageOffsetAdd (a : Nat)
  | stageOffsetAbs (a : Nat)
  | stagedTimeApply
  | timeHistRead (fn : Fin 64) (i : Fin 16)
  | txqRead (fn : Fin 64)
  | eventEdge (k : Fin 8) (c : Nat) (rising : Bool)
  | eventStamp (k : Fin 8) (i : Fin 2) (nm : BitVec 14)
  | eventInterpCalRun (k : Fin 8) (i : Fin 2) (n1 n2 : BitVec 14)
  | evtStart (a : Nat) (k : Fin 8)
  | evtMeasurementStart (k : Fin 8) (codes : List Nat)
  | evtStop (k : Fin 8)
  | intervalResult (k : Fin 8)
  | statsResult (k : Fin 8)
  | freqGateEnd (k : Fin 8)
  | evtResRead (fn : Fin 64) (k : Fin 8)
  | calStart
  | calAbort
  | calRunStart (die : Fin 10)
  | calRelease (die : Fin 10) (res : DieResult)
  | calSettleEnd (die : Fin 10)
  | calSaveDone (ok : Bool)
  | driftAdvisorySet (k : Fin 6) (temp : Int)
  | driftAdvisoryClear (k : Fin 6) (temp : Int)
  | driftRunRequest (k : Fin 6)
  | calSchedPeriod
  | svcFrameApply (repeated : Bool)
  | svcSafeEntry
  | svcFence
  | excCompliance (n : Fin 48)
  | excComplianceClear (n : Fin 48)
  | excOpenLoad (n : Fin 48)
  | excShort (n : Fin 48)
  | excRetry (n : Fin 48)
  | excTrip
  | excRestore
  | relayOvercurrent (r : Fin 32)
  | relayOpenLoad (r : Fin 32)
  | rlyOcClear (v : BitVec 32)
  | monitorConversion (reading : Int) (start : Nat)
  | powerOn (keeperGood : Bool)
  | imageLoad (sfdpOk errA errB otpOk : Bool)
  | selfTest (fails : List FailPart)
  | selfTestDone
  | armSectionArming
  | resetNAssert (us : Nat)
  | resetColdCmd (key : BitVec 8)
  | resetWarmCmd (key : BitVec 8)
  | warmReset (cause : BitVec 8)
  | coreLoss
  | coreLossRestart
  | storeRailLoss
  | supplyWarningStart (rail : Fin 7) (c : Nat)
  | supplyWarningEnd (rail : Fin 7) (c : Nat)
  | supplyStateCheck (outcome : CheckOutcome)
  | thermalWarning (die : Fin 14)
  | thermalReset (die : Fin 14)
  | thermalRelease
  | groupReset (mask : BitVec 16)
  | groupResetApply (g : Fin 16)
  | wakeAlarm
  | wakeRelease
  | mirrorFrameRx (frame : List (BitVec 8))
  | heartbeatRx (a : Nat) (p : PeerState)
  | handoverRx (a : Nat) (p : PeerState)
  | echoDue
  | echoRx (a sent : Nat)
  | echoReplyRx (a sent turn : Nat)
  | takeover
  | handover
  | handoverSend
  | firstClr
  | fatalClr (ended : Bool)
  | logClassWrite (off : Nat) (v : BitVec 32)
  | logRdRead (fn : Fin 64)
  | logFirstRead (fn : Fin 64) (last : Bool)
  | smbusBlockWrite (bytes : List (BitVec 8))
  | smbusBlockRead (len : Nat)
  | scanAccess (tms tdi : Bool)
  | supplyFault (rail : FaultRail) (c : Nat)
  | clkbypRestored (c : Nat)
  | dpHpdFall
  | acceptStepWrite
  | ptpAnnounceTx (p : Fin 128)
  deriving DecidableEq, Repr

end Sys2Proof
end

