-- ==== Sys2Proof/Machine/Table.lean ====
section
/-! DEFINITION. Sparse tables (a list of key and value pairs over a default) and byte memories in canonical form. -/

namespace Sys2Proof.Machine

/-- A sparse table: keys with their values; a key that is not listed has the table's default. -/
abbrev Tab (α : Type) := List (Nat × α)

/-- The value at key k, d when k is not listed. -/
def Tab.get {α : Type} (d : α) (t : Tab α) (k : Nat) : α :=
  match t with
  | [] => d
  | p :: rest => if p.1 = k then p.2 else Tab.get d rest k

/-- The table with key k set to v. -/
def Tab.set {α : Type} (t : Tab α) (k : Nat) (v : α) : Tab α :=
  match t with
  | [] => [(k, v)]
  | p :: rest =>
    if k < p.1 then (k, v) :: p :: rest
    else if p.1 = k then (k, v) :: rest
    else p :: Tab.set rest k v

/-- A byte memory: addresses strictly rising, no entry equal to what an unlisted address reads as. -/
abbrev Mem := List Host.Cell

/-- The byte at address a; an unlisted address reads d. -/
def Mem.read (d : Byte) (m : Mem) (a : Nat) : Byte := Tab.get d m a

/-- The memory with byte v at address a. Writing what an unlisted address reads as removes the entry. -/
def Mem.write (d : Byte) (m : Mem) (a : Nat) (v : Byte) : Mem :=
  match m with
  | [] => if v = d then [] else [(a, v)]
  | p :: rest =>
    if a < p.1 then (if v = d then p :: rest else (a, v) :: p :: rest)
    else if p.1 = a then (if v = d then rest else (a, v) :: rest)
    else p :: Mem.write d rest a v

/-- Canonical form above a lower bound on the addresses. -/
def Mem.wfAbove (d : Byte) (lo : Nat) : Mem → Bool
  | [] => true
  | p :: rest => decide (lo ≤ p.1) && decide (p.2 ≠ d) && Mem.wfAbove d (p.1 + 1) rest

/-- The canonical form of a memory. -/
def Mem.wf (d : Byte) (m : Mem) : Bool := Mem.wfAbove d 0 m

/-- Bytes written from address a on. -/
def Mem.writeBytes (d : Byte) (m : Mem) (a : Nat) : List Byte → Mem
  | [] => m
  | b :: bs => Mem.writeBytes d (Mem.write d m a b) (a + 1) bs

/-- n bytes read from address a on. -/
def Mem.readBytes (d : Byte) (m : Mem) (a : Nat) : Nat → List Byte
  | 0 => []
  | n + 1 => Mem.read d m a :: Mem.readBytes d m (a + 1) n

/-- The number whose bytes, least significant first, are the list (R4). -/
def leValue : List Byte → Nat
  | [] => 0
  | b :: bs => b.toNat + 256 * leValue bs

/-- n bytes of a number, least significant first (R4). -/
def leBytes : Nat → Nat → List Byte
  | 0, _ => []
  | n + 1, v => BitVec.ofNat 8 v :: leBytes n (v / 256)

/-- n bytes of a number, most significant first (network order, R180). -/
def beBytes (n v : Nat) : List Byte := (leBytes n v).reverse

/-- The bits of a number, least significant first. -/
def bitsOf : Nat → Nat → List Bool
  | 0, _ => []
  | n + 1, v => (v % 2 == 1) :: bitsOf n (v / 2)

/-- The number whose bits, least significant first, are the list. -/
def ofBits : List Bool → Nat
  | [] => 0
  | b :: bs => (if b then 1 else 0) + 2 * ofBits bs

/-- A signed value as a w-bit two's complement number. -/
def enc (w : Nat) (v : Int) : Nat := (v % (2 ^ w : Int)).toNat

/-- The signed value of a w-bit two's complement number. -/
def sgn (w v : Nat) : Int := if v % 2 ^ w < 2 ^ (w - 1) then (v % 2 ^ w : Nat) else (v % 2 ^ w : Nat) - (2 ^ w : Int)

/-- Nearest integer to n / d (d positive), ties away from zero: the rounding of R38, R56, R79, R82, R415. -/
def roundDiv (n : Int) (d : Nat) : Int :=
  if 0 ≤ n then ((2 * n.toNat + d) / (2 * d) : Nat) else -((2 * (-n).toNat + d) / (2 * d) : Nat)

/-- n / d with any sign of d, ties away from zero. -/
def roundDivI (n d : Int) : Int := if 0 ≤ d then roundDiv n d.toNat else roundDiv (-n) (-d).toNat

/-- ⌈n / d⌉ for naturals. -/
def ceilDiv (n d : Nat) : Nat := (n + d - 1) / d

/-- v limited to lo … hi. -/
def clampI (lo hi v : Int) : Int := if v < lo then lo else if hi < v then hi else v

/-- v rounded up to a multiple of m. -/
def roundUp (v m : Nat) : Nat := ceilDiv v m * m

/-- Bit k of a mask. -/
def bitOf (mask k : Nat) : Bool := mask / 2 ^ k % 2 == 1

/-- The indices below n whose bit is set in the mask, ascending. -/
def bitsSet (n mask : Nat) : List Nat := (List.range n).filter (fun k => bitOf mask k)

/-- A mask from a list of bit indices without repeats. -/
def maskOf (l : List Nat) : Nat := l.foldl (fun m k => if bitOf m k then m else m + 2 ^ k) 0

/-- The mask with bit k cleared. -/
def clrBit (mask k : Nat) : Nat := if bitOf mask k then mask - 2 ^ k else mask

/-- The mask with bit k set. -/
def setBit (mask k : Nat) : Nat := if bitOf mask k then mask else mask + 2 ^ k

/-- CRC-32C of a byte list (R106): polynomial 0x1EDC6F41 reflected, initial value and final XOR 0xFFFFFFFF. -/
def crcBit (c : Nat) : Nat := if c % 2 == 1 then Nat.xor (c / 2) 0x82F63B78 else c / 2

/-- One byte of the CRC of R106. -/
def crcByte (c : Nat) (b : Byte) : Nat :=
  crcBit (crcBit (crcBit (crcBit (crcBit (crcBit (crcBit (crcBit (Nat.xor c b.toNat))))))))

/-- The running CRC register after a byte list, before the final XOR. -/
def crcRun (c : Nat) (bs : List Byte) : Nat := bs.foldl crcByte c

/-- CRC-32C of R106. -/
def crc32c (bs : List Byte) : Nat := Nat.xor (crcRun 0xFFFFFFFF bs) 0xFFFFFFFF

/-- The first boundary at or after core cycle a (boundaries are the multiples of 2048, R15). -/
def boundaryAt (a : Nat) : Nat := roundUp a tickLen

/-- The first boundary after core cycle a. -/
def boundaryAfter (a : Nat) : Nat := (a / tickLen + 1) * tickLen

end Sys2Proof.Machine
end

