-- ==== Sys2Proof/Machine/Binary.lean ====
section
/-! DEFINITION. IEEE 754 arithmetic as R135 asks for it: binary64 operations, each rounded to nearest with ties to even, and
one last rounding to binary32. A finite value is m·2^e, or the negative zero. -/

namespace Sys2Proof.Machine

/-- A binary64 value. -/
inductive Fl where
  | fin (m e : Int)
  | negZero
  | inf (neg : Bool)
  | nan
  deriving DecidableEq, Repr

/-- n / d to the nearest multiple of 1, ties to even. -/
def divEven (n d : Nat) : Nat :=
  let q := n / d
  let r := n % d
  if 2 * r < d then q else if d < 2 * r then q + 1 else if q % 2 = 0 then q else q + 1

/-- 2^e as numerator and denominator. -/
def pow2 (e : Int) : Nat × Nat := if 0 ≤ e then (2 ^ e.toNat, 1) else (1, 2 ^ (-e).toNat)

/-- The magnitude n / d rounded to p bits with least exponent emin: m and e. -/
def roundMag (p : Nat) (emin : Int) (n d : Nat) : Nat × Int :=
  if n = 0 then (0, emin)
  else
    let k : Int := (Nat.log2 n : Int) - (Nat.log2 d : Int)
    let k1 : Int := if n * (pow2 k).2 < d * (pow2 k).1 then k - 1 else k
    let e := max emin (k1 - p + 1)
    (divEven (n * (pow2 e).2) (d * (pow2 e).1), e)

/-- A zero with a sign. -/
def Fl.zero (neg : Bool) : Fl := if neg then .negZero else .fin 0 0

/-- n / d as a binary64 value; a negative value that rounds to zero keeps its sign. -/
def Fl.ofQ (n : Int) (d : Nat) : Fl :=
  let r := roundMag 53 (-1074) n.natAbs d
  if r.1 = 0 then Fl.zero (decide (n < 0))
  else if 1024 < (Nat.log2 r.1 : Int) + r.2 + 1 then .inf (decide (n < 0))
  else .fin (if n < 0 then -(r.1 : Int) else r.1) r.2

def Fl.ofInt (n : Int) : Fl := Fl.ofQ n 1

/-- A finite value as numerator and denominator. -/
def finQ (m e : Int) : Int × Nat := (m * (pow2 e).1, (pow2 e).2)

/-- The same of any value; none unless it is finite. -/
def Fl.q : Fl → Option (Int × Nat)
  | .fin m e => some (finQ m e)
  | .negZero => some (0, 1)
  | _ => none

/-- The sign bit; that of a NaN does not matter. -/
def Fl.sign : Fl → Bool
  | .fin m _ => decide (m < 0)
  | .negZero => true
  | .inf s => s
  | .nan => false

/-- A value is a zero. -/
def Fl.isZero : Fl → Bool
  | .fin m _ => decide (m = 0)
  | .negZero => true
  | _ => false

def Fl.neg : Fl → Fl
  | .fin m e => if m = 0 then .negZero else .fin (-m) e
  | .negZero => .fin 0 0
  | .inf s => .inf (!s)
  | .nan => .nan

def Fl.add (a b : Fl) : Fl :=
  match a.q, b.q with
  | some x, some y => if a = .negZero ∧ b = .negZero then .negZero else Fl.ofQ (x.1 * y.2 + y.1 * x.2) (x.2 * y.2)
  | _, _ =>
    match a, b with
    | .nan, _ => .nan
    | _, .nan => .nan
    | .inf s, .inf s' => if s = s' then .inf s else .nan
    | .inf s, _ => .inf s
    | _, c => c

def Fl.sub (a b : Fl) : Fl := a.add b.neg

def Fl.mul (a b : Fl) : Fl :=
  let sg := a.sign != b.sign
  match a.q, b.q with
  | some x, some y => if x.1 = 0 ∨ y.1 = 0 then Fl.zero sg else Fl.ofQ (x.1 * y.1) (x.2 * y.2)
  | _, _ => if a = .nan ∨ b = .nan ∨ a.isZero ∨ b.isZero then .nan else .inf sg

def Fl.div (a b : Fl) : Fl :=
  let sg := a.sign != b.sign
  match a.q, b.q with
  | some x, some y =>
    if y.1 = 0 then (if x.1 = 0 then .nan else .inf sg)
    else if x.1 = 0 then Fl.zero sg
    else
      let n := x.1 * y.2
      let d := y.1 * x.2
      if d < 0 then Fl.ofQ (-n) d.natAbs else Fl.ofQ n d.natAbs
  | some _, none => if b = .nan then .nan else Fl.zero sg
  | none, some _ => if a = .nan then .nan else .inf sg
  | none, none => .nan

/-- Square root, one rounding: the integer root of the value scaled to at least 2^130 with its sticky bit. -/
def Fl.sqrt : Fl → Fl
  | .fin m e =>
    if m < 0 then .nan
    else
      let q := finQ m e
      let s := 130 + Nat.log2 q.2
      let x := q.1.toNat * 4 ^ s
      let r := Nat.sqrt (x / q.2)
      let sticky := if r * r * q.2 = x then 0 else 1
      Fl.ofQ (2 * r + sticky : Nat) (2 * 2 ^ s)
  | .negZero => .negZero
  | .inf s => if s then .nan else .inf false
  | .nan => .nan

/-- a < b; false when either is a NaN. -/
def Fl.lt (a b : Fl) : Bool :=
  match a.q, b.q with
  | some x, some y => decide (x.1 * y.2 < y.1 * x.2)
  | _, _ =>
    match a, b with
    | .nan, _ => false
    | _, .nan => false
    | .inf s, .inf s' => s && !s'
    | .inf s, _ => s
    | _, .inf s => !s
    | _, _ => false

/-- a ≤ b; false when either is a NaN. -/
def Fl.le (a b : Fl) : Bool := a.lt b || (match a, b with
  | .nan, _ => false
  | _, .nan => false
  | _, _ => !b.lt a)

/-- The binary32 pattern of a value, rounded once (R135). -/
def Fl.to32 : Fl → Nat
  | .nan => 0x7FC00000
  | .negZero => 0x80000000
  | .inf s => if s then 0xFF800000 else 0x7F800000
  | .fin m e =>
    let q := finQ m e
    let r := roundMag 24 (-149) q.1.natAbs q.2
    let sign := if m < 0 then 0x80000000 else 0
    if r.1 = 0 then sign
    else
      -- a carry to 2^24 moves to the next exponent
      let c : Nat × Int := if r.1 = 16777216 then (8388608, r.2 + 1) else r
      if c.1 < 8388608 then sign + c.1
      else
        let ex := c.2 + 150
        if 255 ≤ ex then sign + 0x7F800000 else sign + ex.toNat * 8388608 + (c.1 - 8388608)

/-- The value of a binary32 pattern. -/
def Fl.of32 (w : Nat) : Fl :=
  let neg := decide (2147483648 ≤ w % 4294967296)
  let ex := w / 8388608 % 256
  let fr := w % 8388608
  if ex = 255 then (if fr = 0 then .inf neg else .nan)
  else
    let m : Nat := if ex = 0 then fr else 8388608 + fr
    let e : Int := if ex = 0 then -149 else (ex : Int) - 150
    if m = 0 then Fl.zero neg else .fin (if neg then -(m : Int) else m) e

end Sys2Proof.Machine
end

