-- ==== Sys2Proof/Config.lean ====
section
/-! DEFINITION. What the spec leaves to the part and does not state: free values without a body. -/

namespace Sys2Proof

/-- FLT_HB_COEF: the spec gives each halfband coefficient as "fixed" (R59) and lists no value. Log entry 10. -/
opaque Config.hbCoef : Nat → BitVec 24

/-- The values the spec leaves open at run time: draw number n of State.free. Log entry 5. -/
opaque Config.freeValue : Nat → BitVec 64

/-- OTP: the factory values of the part, byte i of eight blocks laid out as in a user copy (R310, Table 14.2). The spec lists
no value. Log entry 30. -/
opaque Config.otp : Nat → BitVec 8

/-- The length of the scan port's instruction register and the code of IDCODE (R407). Log entry 52. -/
opaque Config.irLength : Nat → BitVec 5
opaque Config.irIdcode : Nat → BitVec 32

end Sys2Proof
end

