-- ==== Sys2Proof/Machine/RegMap.lean ====
section
/-! DEFINITION. The register cards of spec/01 to spec/18 as data: for every register its BAR0 byte offset, its index
steps, and for each of its words which bits carry which access code of Table 0.5 and the reset value (R6, R27). Then the
offset of every register (namespace R) and every field that lies in one word (namespace F). -/

namespace Sys2Proof.Machine

/-- One 32-bit word of a register card: the bits of each access code (RSV bits are in none) and the reset value. -/
structure CardWord where
  ro : Nat
  rw : Nat
  rws : Nat
  w1c : Nat
  rc : Nat
  wo : Nat
  reset : Nat
  deriving DecidableEq, Repr

/-- A register card: first offset, index steps with their counts, and its words in ascending offset. -/
structure Card where
  base : Nat
  dims : List (Nat × Nat)
  words : List CardWord
  deriving DecidableEq, Repr

/-- A field of one register word: the word's BAR0 byte offset and the field's bit range [hi:lo]. -/
structure Fld where
  off : Nat
  hi : Nat
  lo : Nat
  deriving DecidableEq, Repr

/-- Cards of chapter 01: GLOBAL_ID, GLOBAL_STATE. -/
def cards01a : List Card := [
  ⟨0x0, [], [⟨0xFFFFFF00, 0, 0, 0, 0, 0, 0x4832B200⟩]⟩,
  ⟨0x4, [], [⟨0xFF000F7F, 0, 0, 0, 0, 0, 0x0⟩]⟩]

/-- Cards of chapter 02: CONV_MODE, CONV_ROT_CTRL, CONV_ROT_PERIOD, CONV_FENCE_REGION, CONV_FENCE_DIE, CONV_FENCE_CH, CONV_CH_CTRL, CONV_CH_STATUS, CONV_OVR_CNT, CONV_NBR_CNT, CONV_ROT_STEPS, CONV_ROT_FORCED_CNT. -/
def cards02a : List Card := [
  ⟨0x100000, [], [⟨0, 0, 0xFFFFFF, 0, 0, 0, 0x0⟩]⟩,
  ⟨0x100010, [], [⟨0, 0, 0x800000FF, 0, 0, 0, 0x80000010⟩]⟩,
  ⟨0x100014, [], [⟨0, 0, 0xFFFFFFFF, 0, 0, 0, 0x3B9AD⟩]⟩,
  ⟨0x100020, [], [⟨0xFFF, 0, 0, 0, 0, 0, 0x0⟩]⟩,
  ⟨0x100024, [], [⟨0x3F, 0, 0, 0, 0, 0, 0x0⟩]⟩,
  ⟨0x100028, [], [⟨0xFFFFFFFF, 0, 0, 0, 0, 0, 0x0⟩, ⟨0xFFFF, 0, 0, 0, 0, 0, 0x0⟩]⟩,
  ⟨0x101000, [(0x100, 48)], [⟨0, 0, 0x3, 0, 0, 0, 0x0⟩]⟩,
  ⟨0x101004, [(0x100, 48)], [⟨0xFFFF000F, 0, 0, 0xF0, 0, 0, 0x40000001⟩]⟩,
  ⟨0x101008, [(0x100, 48)], [⟨0, 0, 0, 0, 0xFFFFFFFF, 0, 0x0⟩]⟩,
  ⟨0x10100C, [(0x100, 48)], [⟨0, 0, 0, 0, 0xFFFFFFFF, 0, 0x0⟩]⟩,
  ⟨0x101010, [(0x100, 48)], [⟨0xFFFFFFFF, 0, 0, 0, 0, 0, 0x0⟩]⟩,
  ⟨0x101014, [(0x100, 48)], [⟨0, 0, 0, 0, 0xFFFFFFFF, 0, 0x0⟩]⟩]

/-- Cards of chapter 02: CONV_ROT_DUE, CONV_COEF. -/
def cards02b : List Card := [
  ⟨0x101018, [(0x100, 48)], [⟨0xFFFFFFFF, 0, 0, 0, 0, 0, 0x3B9AD00⟩]⟩,
  ⟨0x110000, [(0x2000, 48), (0x40, 65), (0x4, 11)], [⟨0x3FFFF, 0, 0, 0, 0, 0, 0x0⟩]⟩]

/-- Cards of chapter 03: FLT_CH_CFG, FLT_CH_DEC, FLT_CH_TAPS, FLT_CH_EQ_DELAY, FLT_CH_FIR_DELAY, FLT_CH_DC, FLT_CH_DC_INIT, FLT_CH_DC_EST, FLT_CH_DELAY, FLT_CH_SUPPORT, FLT_CH_DTOT, FLT_CH_STATUS. -/
def cards03a : List Card := [
  ⟨0x300000, [(0x1000, 48)], [⟨0, 0, 0x1FEF, 0, 0, 0, 0x202⟩]⟩,
  ⟨0x300004, [(0x1000, 48)], [⟨0, 0, 0xFFF0FFF, 0, 0, 0, 0x0⟩]⟩,
  ⟨0x300008, [(0x1000, 48)], [⟨0, 0, 0x1F007F, 0, 0, 0, 0xC007F⟩]⟩,
  ⟨0x30000C, [(0x1000, 48)], [⟨0, 0, 0x1FFF, 0, 0, 0, 0xF80⟩]⟩,
  ⟨0x300010, [(0x1000, 48)], [⟨0, 0, 0x7FFF, 0, 0, 0, 0x3F80⟩]⟩,
  ⟨0x300014, [(0x1000, 48)], [⟨0, 0x1, 0, 0, 0, 0, 0x0⟩]⟩,
  ⟨0x300018, [(0x1000, 48)], [⟨0, 0, 0xFFFFFFFF, 0, 0, 0, 0x0⟩]⟩,
  ⟨0x30001C, [(0x1000, 48)], [⟨0xFFFFFFFF, 0, 0, 0, 0, 0, 0x0⟩]⟩,
  ⟨0x300020, [(0x1000, 48)], [⟨0xFFFFFFFF, 0, 0, 0, 0, 0, 0x0⟩, ⟨0x1FFF, 0, 0, 0, 0, 0, 0x0⟩]⟩,
  ⟨0x300028, [(0x1000, 48)], [⟨0xFFFFFFFF, 0, 0, 0, 0, 0, 0x0⟩, ⟨0x3F, 0, 0, 0, 0, 0, 0x0⟩]⟩,
  ⟨0x300030, [(0x1000, 48)], [⟨0x3FFFFFFF, 0, 0, 0, 0, 0, 0x0⟩]⟩,
  ⟨0x300034, [(0x1000, 48)], [⟨0x4, 0, 0, 0x3, 0, 0, 0x0⟩]⟩]

/-- Cards of chapter 03: FLT_SAT_CNT, FLT_EQ_COEF, FLT_FIR_COEF, FLT_BCAST_MASK, FLT_BCAST_WIN, FLT_HB_COEF. -/
def cards03b : List Card := [
  ⟨0x300038, [(0x1000, 48)], [⟨0, 0, 0, 0, 0xFFFFFFFF, 0, 0x0⟩]⟩,
  ⟨0x300100, [(0x1000, 48), (0x4, 32)], [⟨0, 0, 0xFFFFF, 0, 0, 0, 0x0⟩]⟩,
  ⟨0x300200, [(0x1000, 48), (0x4, 128)], [⟨0, 0, 0xFFFFFF, 0, 0, 0, 0x0⟩]⟩,
  ⟨0x330000, [], [⟨0, 0xFFFFFFFF, 0, 0, 0, 0, 0x0⟩, ⟨0, 0xFFFF, 0, 0, 0, 0, 0x0⟩]⟩,
  ⟨0x331000, [(0x4, 1024)], [⟨0, 0, 0, 0, 0, 0xFFFFFFFF, 0x0⟩]⟩,
  ⟨0x340000, [(0x4, 15)], [⟨0xFFFFFF, 0, 0, 0, 0, 0, 0x0⟩]⟩]

/-- Cards of chapter 04: TRG_AC_CTRL, TRG_AC_STATUS, TRG_AC_CROSS_CNT, TRG_LEVEL, TRG_AC_DELAY, TRG_DC_CTRL, TRG_DC_LEVEL, TRG_DC_HYST, TRG_GRP_CH, TRG_GRP_CTRL, TRG_GRP_SRC, TRG_GRP_TLO. -/
def cards04a : List Card := [
  ⟨0x400100, [(0x40, 288)], [⟨0, 0, 0xFF01, 0, 0, 0, 0x400⟩]⟩,
  ⟨0x400104, [(0x40, 288)], [⟨0xFF07, 0, 0, 0x8, 0, 0, 0x0⟩]⟩,
  ⟨0x400108, [(0x40, 288)], [⟨0xFFFFFFFF, 0, 0, 0, 0, 0, 0x0⟩]⟩,
  ⟨0x400120, [(0x40, 288)], [⟨0, 0, 0xFFF, 0, 0, 0, 0x0⟩]⟩,
  ⟨0x400124, [(0x40, 288)], [⟨0xFFFF, 0, 0, 0, 0, 0, 0x0⟩]⟩,
  ⟨0x405000, [(0x20, 192)], [⟨0, 0, 0x3, 0, 0, 0, 0x0⟩]⟩,
  ⟨0x405004, [(0x20, 192)], [⟨0, 0, 0xFFFFFF, 0, 0, 0, 0x0⟩]⟩,
  ⟨0x405008, [(0x20, 192)], [⟨0, 0, 0xFFFFFF, 0, 0, 0, 0x2000⟩]⟩,
  ⟨0x408000, [(0x100, 16)], [⟨0, 0, 0xFFFFFFFF, 0, 0, 0, 0x0⟩, ⟨0, 0, 0xFFFF, 0, 0, 0, 0x0⟩]⟩,
  ⟨0x408008, [(0x100, 16)], [⟨0, 0, 0xFFFE000, 0, 0, 0, 0x0⟩]⟩,
  ⟨0x40800C, [(0x100, 16)], [⟨0, 0, 0x3FF03FF, 0, 0, 0, 0x3FF03FF⟩]⟩,
  ⟨0x408010, [(0x100, 16)], [⟨0, 0, 0xFFFFFFFF, 0, 0, 0, 0x0⟩, ⟨0, 0, 0xFFFF, 0, 0, 0, 0x0⟩]⟩]

/-- Cards of chapter 04: TRG_GRP_THI, TRG_GRP_HOLD_TIME, TRG_GRP_HOLD_EVT, TRG_GRP_PSRC, TRG_GRP_PVAL, TRG_GRP_CMD, TRG_GRP_STATUS, TRG_GRP_LATENCY, TRG_GRP_ARM_LCNT, TRG_GRP_LAST_LCNT, TRG_GRP_LAST_FINE, TRG_GRP_ACCEPT_CNT. -/
def cards04b : List Card := [
  ⟨0x408018, [(0x100, 16)], [⟨0, 0, 0xFFFFFFFF, 0, 0, 0, 0x0⟩, ⟨0, 0, 0xFFFF, 0, 0, 0, 0x0⟩]⟩,
  ⟨0x408020, [(0x100, 16)], [⟨0, 0, 0xFFFFFFFF, 0, 0, 0, 0x0⟩, ⟨0, 0, 0xFF, 0, 0, 0, 0x0⟩]⟩,
  ⟨0x408028, [(0x100, 16)], [⟨0, 0, 0xFFFFFF, 0, 0, 0, 0x0⟩]⟩,
  ⟨0x408030, [(0x100, 16), (0x4, 8)], [⟨0, 0, 0x3FF03FF, 0, 0, 0, 0x3FF03FF⟩]⟩,
  ⟨0x408050, [(0x100, 16)], [⟨0, 0, 0xFFFFFFFF, 0, 0, 0, 0x0⟩]⟩,
  ⟨0x408060, [(0x100, 16)], [⟨0, 0, 0, 0, 0, 0x7, 0x0⟩]⟩,
  ⟨0x408064, [(0x100, 16)], [⟨0xF0000003, 0, 0, 0xC, 0, 0, 0x0⟩]⟩,
  ⟨0x408068, [(0x100, 16)], [⟨0xFFFFFFFF, 0, 0, 0, 0, 0, 0x0⟩]⟩,
  ⟨0x408070, [(0x100, 16)], [⟨0xFFFFFFFF, 0, 0, 0, 0, 0, 0x0⟩, ⟨0xFFFFFFFF, 0, 0, 0, 0, 0, 0x0⟩]⟩,
  ⟨0x408078, [(0x100, 16)], [⟨0xFFFFFFFF, 0, 0, 0, 0, 0, 0x0⟩, ⟨0xFFFFFFFF, 0, 0, 0, 0, 0, 0x0⟩]⟩,
  ⟨0x408080, [(0x100, 16)], [⟨0xFFFF, 0, 0, 0, 0, 0, 0x0⟩]⟩,
  ⟨0x408084, [(0x100, 16)], [⟨0xFFFFFFFF, 0, 0, 0, 0, 0, 0x0⟩]⟩]

/-- Cards of chapter 04: TRG_GRP_MISSED_CNT, TRG_GRP_HELD_CNT, TRG_INT_CAL. -/
def cards04c : List Card := [
  ⟨0x408088, [(0x100, 16)], [⟨0, 0, 0, 0, 0xFFFFFFFF, 0, 0x0⟩]⟩,
  ⟨0x40808C, [(0x100, 16)], [⟨0, 0, 0, 0, 0xFFFFFFFF, 0, 0x0⟩]⟩,
  ⟨0x40A000, [(0x40, 48), (0x4, 16)], [⟨0xCFFF0FFF, 0, 0, 0, 0, 0, 0x0⟩]⟩]

/-- Cards of chapter 05: REC_GRP_CTRL, REC_GRP_LEN, REC_GRP_PRE, REC_GRP_LENS, REC_GRP_RING_BASE, REC_GRP_RING_SIZE, REC_GRP_GAP_RING, REC_GRP_FIRST_NUM, REC_GRP_NEXT_NUM, REC_GRP_IMAGE, REC_GRP_OLDEST, REC_GRP_PMAP. -/
def cards05a : List Card := [
  ⟨0x500000, [(0x100, 16)], [⟨0, 0, 0xFFFFFFF3, 0, 0, 0, 0x0⟩]⟩,
  ⟨0x500004, [(0x100, 16)], [⟨0, 0, 0xFFFFFFFF, 0, 0, 0, 0x1000⟩]⟩,
  ⟨0x500008, [(0x100, 16)], [⟨0, 0, 0xFFFFFFFF, 0, 0, 0, 0x400⟩]⟩,
  ⟨0x50000C, [(0x100, 16)], [⟨0, 0, 0xFFFFFFFF, 0, 0, 0, 0x0⟩]⟩,
  ⟨0x500010, [(0x100, 16)], [⟨0, 0, 0x1FFFFF, 0, 0, 0, 0x0⟩]⟩,
  ⟨0x500014, [(0x100, 16)], [⟨0, 0, 0xFF1FFFFF, 0, 0, 0, 0x4000000⟩]⟩,
  ⟨0x500018, [(0x100, 16)], [⟨0, 0, 0xFF1FFFFF, 0, 0, 0, 0x1000000⟩]⟩,
  ⟨0x500020, [(0x100, 16)], [⟨0, 0, 0xFFFFFFFF, 0, 0, 0, 0x0⟩, ⟨0, 0, 0xFFFFFFFF, 0, 0, 0, 0x0⟩]⟩,
  ⟨0x500028, [(0x100, 16)], [⟨0xFFFFFFFF, 0, 0, 0, 0, 0, 0x0⟩, ⟨0xFFFFFFFF, 0, 0, 0, 0, 0, 0x0⟩]⟩,
  ⟨0x500030, [(0x100, 16)], [⟨0x1FFFFF, 0, 0, 0, 0, 0, 0x0⟩]⟩,
  ⟨0x500034, [(0x100, 16)], [⟨0x801FFFFF, 0, 0, 0, 0, 0, 0x80000000⟩]⟩,
  ⟨0x500038, [(0x100, 16)], [⟨0xFFFFFFFF, 0, 0, 0, 0, 0, 0x0⟩]⟩]

/-- Cards of chapter 05: REC_GRP_CMD, REC_GRP_STATUS, REC_GRP_WRAP_CNT, REC_GRP_GAP_OVF_CNT, REC_GRP_GAP_OPEN, REC_GRP_DURABLE. -/
def cards05b : List Card := [
  ⟨0x50003C, [(0x100, 16)], [⟨0, 0, 0, 0, 0, 0x1, 0x0⟩]⟩,
  ⟨0x500040, [(0x100, 16)], [⟨0xFFFF0003, 0, 0, 0x1C, 0, 0, 0x0⟩]⟩,
  ⟨0x500044, [(0x100, 16)], [⟨0, 0, 0, 0, 0xFFFFFFFF, 0, 0x0⟩]⟩,
  ⟨0x500048, [(0x100, 16)], [⟨0, 0, 0, 0, 0xFFFFFFFF, 0, 0x0⟩]⟩,
  ⟨0x500050, [(0x100, 16)], [⟨0xFFFFFFFF, 0, 0, 0, 0, 0, 0xFFFFFFFF⟩, ⟨0xFFFFFFFF, 0, 0, 0, 0, 0, 0xFFFFFFFF⟩]⟩,
  ⟨0x500058, [(0x100, 16)], [⟨0xFFFFFFFF, 0, 0, 0, 0, 0, 0x0⟩, ⟨0xFFFFFFFF, 0, 0, 0, 0, 0, 0x0⟩]⟩]

/-- Cards of chapter 06: ABA_SLOT_CTRL, ABA_SLOT_GSTART, ABA_SLOT_GLEN, ABA_CH_SCALE, ABA_CH_OFFSET, ABA_CH_LEVELS, ABA_GRP_DONE, ABA_GRP_STATUS, ABA_GRP_SKIP_CNT, TAL_AVG_CTRL, TAL_AVG_OFF, TAL_AVG_LEN. -/
def cards06a : List Card := [
  ⟨0x600000, [(0x200, 48), (0x10, 16)], [⟨0, 0, 0x11F, 0, 0, 0, 0x0⟩]⟩,
  ⟨0x600004, [(0x200, 48), (0x10, 16)], [⟨0, 0, 0xFFFFFFFF, 0, 0, 0, 0x0⟩]⟩,
  ⟨0x600008, [(0x200, 48), (0x10, 16)], [⟨0, 0, 0xFFFFFFFF, 0, 0, 0, 0x0⟩]⟩,
  ⟨0x600100, [(0x200, 48)], [⟨0, 0, 0xFFFFFFFF, 0, 0, 0, 0x3A4CCCCD⟩]⟩,
  ⟨0x600104, [(0x200, 48)], [⟨0, 0, 0xFFFFFFFF, 0, 0, 0, 0x0⟩]⟩,
  ⟨0x600108, [(0x200, 48)], [⟨0, 0, 0x3FFFFFFF, 0, 0, 0, 0x3847D064⟩]⟩,
  ⟨0x608000, [(0x40, 16)], [⟨0xFFFFFFFF, 0, 0, 0, 0, 0, 0xFFFFFFFF⟩, ⟨0xFFFFFFFF, 0, 0, 0, 0, 0, 0xFFFFFFFF⟩]⟩,
  ⟨0x608008, [(0x40, 16)], [⟨0x7F01, 0, 0, 0x2, 0, 0, 0x0⟩]⟩,
  ⟨0x60800C, [(0x40, 16)], [⟨0, 0, 0, 0, 0xFFFFFFFF, 0, 0x0⟩]⟩,
  ⟨0x680000, [(0x40, 16)], [⟨0, 0, 0xF0FFFFFF, 0, 0, 0, 0x200003FF⟩]⟩,
  ⟨0x680004, [(0x40, 16)], [⟨0, 0, 0xFFFFFFFF, 0, 0, 0, 0xFFFFFE00⟩]⟩,
  ⟨0x680008, [(0x40, 16)], [⟨0, 0, 0x1FFFFF, 0, 0, 0, 0x400⟩]⟩]

/-- Cards of chapter 06: TAL_AVG_BASE, TAL_AVG_ACC, TAL_AVG_REJ_CNT, TAL_AVG_CMD, TAL_DB_SRC, TAL_DB_X, TAL_DB_XOFF, TAL_DB_DECAY, TAL_DB_DECAY_PER, TAL_DB_SNAP, TAL_DB_CMD, TAL_DB_STATUS. -/
def cards06b : List Card := [
  ⟨0x68000C, [(0x40, 16)], [⟨0, 0, 0x1FFFFF, 0, 0, 0, 0x0⟩]⟩,
  ⟨0x680010, [(0x40, 16)], [⟨0x1FFFFFF, 0, 0, 0, 0, 0, 0x0⟩]⟩,
  ⟨0x680014, [(0x40, 16)], [⟨0, 0, 0, 0, 0xFFFFFFFF, 0, 0x0⟩]⟩,
  ⟨0x680018, [(0x40, 16)], [⟨0, 0, 0, 0, 0, 0x1, 0x0⟩]⟩,
  ⟨0x684000, [(0x40, 8)], [⟨0, 0, 0x800F003F, 0, 0, 0, 0x0⟩]⟩,
  ⟨0x684004, [(0x40, 8)], [⟨0, 0, 0xFFFF, 0, 0, 0, 0x0⟩]⟩,
  ⟨0x684008, [(0x40, 8)], [⟨0, 0, 0xFFFFFFFF, 0, 0, 0, 0xFFFFFC00⟩]⟩,
  ⟨0x68400C, [(0x40, 8)], [⟨0, 0, 0xC000FFFF, 0, 0, 0, 0x1⟩]⟩,
  ⟨0x684010, [(0x40, 8)], [⟨0, 0, 0xFFFFFFFF, 0, 0, 0, 0xFE5⟩]⟩,
  ⟨0x684014, [(0x40, 8)], [⟨0, 0, 0xFFFFFFFF, 0, 0, 0, 0xFE5⟩]⟩,
  ⟨0x684018, [(0x40, 8)], [⟨0, 0, 0, 0, 0, 0x3, 0x0⟩]⟩,
  ⟨0x68401C, [(0x40, 8)], [⟨0x3, 0, 0, 0x4, 0, 0, 0x0⟩]⟩]

/-- Cards of chapter 06: TAL_DB_WFM_CNT, TAL_DB_SKIP_CNT, TAL_RING_BASE, TAL_RING_SIZE, TAL_RING_LAST, TAL_RING_LOST_CNT. -/
def cards06c : List Card := [
  ⟨0x684020, [(0x40, 8)], [⟨0xFFFFFFFF, 0, 0, 0, 0, 0, 0x0⟩]⟩,
  ⟨0x684024, [(0x40, 8)], [⟨0, 0, 0, 0, 0xFFFFFFFF, 0, 0x0⟩]⟩,
  ⟨0x686000, [], [⟨0, 0, 0x1FFFFF, 0, 0, 0, 0x0⟩]⟩,
  ⟨0x686004, [], [⟨0, 0, 0x1FFFFF, 0, 0, 0, 0x0⟩]⟩,
  ⟨0x686008, [], [⟨0x801FFFFF, 0, 0, 0, 0, 0, 0x80000000⟩]⟩,
  ⟨0x68600C, [], [⟨0, 0, 0, 0, 0xFFFFFFFF, 0, 0x0⟩]⟩]

/-- Cards of chapter 07: STO_STATUS, STO_CTICK, STO_BUDGET, STO_DEMAND, STO_SHADOW_DEMAND, STO_ACQ_DEMAND, STO_CAP, STO_DMA_RESERVE, STO_CAL_CAP, STO_GOV_WEIGHT, STO_STAGE, STO_DROP_CNT. -/
def cards07a : List Card := [
  ⟨0x700000, [], [⟨0x8F, 0, 0, 0x70, 0, 0, 0x0⟩]⟩,
  ⟨0x700004, [], [⟨0xFFFFFFFF, 0, 0, 0, 0, 0, 0x1004000⟩]⟩,
  ⟨0x700008, [], [⟨0xFFFFFFFF, 0, 0, 0, 0, 0, 0xEBC000⟩]⟩,
  ⟨0x70000C, [], [⟨0xFFFFFFFF, 0, 0, 0, 0, 0, 0x0⟩]⟩,
  ⟨0x700010, [], [⟨0xFFFFFFFF, 0, 0, 0, 0, 0, 0x0⟩]⟩,
  ⟨0x700014, [], [⟨0xFFFFFFFF, 0, 0, 0, 0, 0, 0x0⟩]⟩,
  ⟨0x700018, [], [⟨0xFF3FFFFF, 0, 0, 0, 0, 0, 0x80200000⟩]⟩,
  ⟨0x700020, [], [⟨0, 0, 0xFFFFFFFF, 0, 0, 0, 0x0⟩]⟩,
  ⟨0x700024, [], [⟨0, 0, 0x3F, 0, 0, 0, 0x8⟩]⟩,
  ⟨0x700028, [], [⟨0, 0, 0x3FFFFFFF, 0, 0, 0, 0x1102108⟩]⟩,
  ⟨0x700030, [], [⟨0xFFFFFFFF, 0, 0, 0, 0, 0, 0x0⟩]⟩,
  ⟨0x700034, [], [⟨0, 0, 0, 0, 0xFFFFFFFF, 0, 0x0⟩]⟩]

/-- Cards of chapter 07: STO_ECC_CE_CNT, STO_ECC_UE_CNT, STO_CRC_RETRY_CNT, STO_ECC_ADDR, STO_SCRUB_POS, STO_SCRUB_PASS_CNT, STO_REPAIR, STO_CLASS_GRANT, STO_CLASS_BACKLOG, STO_CLASS_STATE. -/
def cards07b : List Card := [
  ⟨0x700040, [], [⟨0, 0, 0, 0, 0xFFFFFFFF, 0, 0x0⟩]⟩,
  ⟨0x700044, [], [⟨0, 0, 0, 0, 0xFFFFFFFF, 0, 0x0⟩]⟩,
  ⟨0x700048, [], [⟨0, 0, 0, 0, 0xFFFFFFFF, 0, 0x0⟩]⟩,
  ⟨0x700050, [], [⟨0xFFFFFFFF, 0, 0, 0, 0, 0, 0x0⟩, ⟨0xFF, 0, 0, 0, 0, 0, 0x0⟩]⟩,
  ⟨0x700058, [], [⟨0x1FFFFF, 0, 0, 0, 0, 0, 0x0⟩]⟩,
  ⟨0x70005C, [], [⟨0xFFFFFFFF, 0, 0, 0, 0, 0, 0x0⟩]⟩,
  ⟨0x700060, [(0x4, 4)], [⟨0xFFFF0FFF, 0, 0, 0, 0, 0, 0x200800⟩]⟩,
  ⟨0x700100, [(0x10, 7)], [⟨0xFFFFFFFF, 0, 0, 0, 0, 0, 0x0⟩]⟩,
  ⟨0x700104, [(0x10, 7)], [⟨0xFFFFFFFF, 0, 0, 0, 0, 0, 0x0⟩]⟩,
  ⟨0x700108, [(0x10, 7)], [⟨0xFFFFFFFF, 0, 0, 0, 0, 0, 0x0⟩]⟩]

/-- Cards of chapter 08: STM_LG_MODE, STM_PORT_CTRL, STM_PORT_MAC, STM_PORT_IPV4, STM_PORT_IPV6, STM_PORT_STATUS, STM_PORT_RX_DROP_CNT, STM_PORT_FEC_UNCORR_CNT, STM_PORT_PAUSE_CNT, STM_PORT_TX_FRAMES, STM_Q_CTRL, STM_Q_SEL. -/
def cards08a : List Card := [
  ⟨0x800000, [], [⟨0, 0, 0xFFFF, 0, 0, 0, 0x0⟩]⟩,
  ⟨0x801000, [(0x40, 128)], [⟨0, 0, 0xF9, 0, 0, 0, 0x28⟩]⟩,
  ⟨0x801004, [(0x40, 128)], [⟨0, 0, 0xFFFFFFFF, 0, 0, 0, 0x0⟩, ⟨0, 0, 0xFFFF, 0, 0, 0, 0x0⟩]⟩,
  ⟨0x80100C, [(0x40, 128)], [⟨0, 0, 0xFFFFFFFF, 0, 0, 0, 0x0⟩]⟩,
  ⟨0x801010, [(0x40, 128), (0x4, 4)], [⟨0, 0, 0xFFFFFFFF, 0, 0, 0, 0x0⟩]⟩,
  ⟨0x801020, [(0x40, 128)], [⟨0x33, 0, 0, 0xC, 0, 0, 0x0⟩]⟩,
  ⟨0x801024, [(0x40, 128)], [⟨0, 0, 0, 0, 0xFFFFFFFF, 0, 0x0⟩]⟩,
  ⟨0x801028, [(0x40, 128)], [⟨0, 0, 0, 0, 0xFFFFFFFF, 0, 0x0⟩]⟩,
  ⟨0x80102C, [(0x40, 128)], [⟨0, 0, 0, 0, 0xFFFFFFFF, 0, 0x0⟩]⟩,
  ⟨0x801030, [(0x40, 128)], [⟨0xFFFFFFFF, 0, 0, 0, 0, 0, 0x0⟩, ⟨0xFFFFFFFF, 0, 0, 0, 0, 0, 0x0⟩]⟩,
  ⟨0x810000, [(0x80, 1024)], [⟨0, 0, 0xFFFF000F, 0, 0, 0, 0x83C0000⟩]⟩,
  ⟨0x810004, [(0x80, 1024)], [⟨0, 0, 0xFFFFFFFF, 0, 0, 0, 0x0⟩, ⟨0, 0, 0xFFFF, 0, 0, 0, 0x0⟩]⟩]

/-- Cards of chapter 08: STM_Q_PORTS, STM_Q_DMAC, STM_Q_DIP, STM_Q_UDP, STM_Q_FRAME, STM_Q_TMARK, STM_Q_STATUS, STM_Q_SEQ, STM_Q_BACKLOG, STM_Q_SKIP_CNT, STM_Q_RESENT_CNT, STM_Q_POISON_CNT. -/
def cards08b : List Card := [
  ⟨0x81000C, [(0x80, 1024), (0x4, 4)], [⟨0, 0, 0xFFFFFFFF, 0, 0, 0, 0x0⟩]⟩,
  ⟨0x81001C, [(0x80, 1024)], [⟨0, 0, 0xFFFFFFFF, 0, 0, 0, 0x0⟩, ⟨0, 0, 0xFFFFFFF, 0, 0, 0, 0x0⟩]⟩,
  ⟨0x810024, [(0x80, 1024), (0x4, 4)], [⟨0, 0, 0xFFFFFFFF, 0, 0, 0, 0x0⟩]⟩,
  ⟨0x810034, [(0x80, 1024)], [⟨0, 0, 0xFFFFFFFF, 0, 0, 0, 0xC000C000⟩]⟩,
  ⟨0x810038, [(0x80, 1024)], [⟨0, 0, 0xFF3F3FFF, 0, 0, 0, 0x40002400⟩]⟩,
  ⟨0x81003C, [(0x80, 1024)], [⟨0, 0, 0xFFFFFFFF, 0, 0, 0, 0x3B9AD⟩]⟩,
  ⟨0x810040, [(0x80, 1024)], [⟨0x3, 0, 0, 0xC, 0, 0, 0x0⟩]⟩,
  ⟨0x810044, [(0x80, 1024)], [⟨0xFFFFFFFF, 0, 0, 0, 0, 0, 0x0⟩]⟩,
  ⟨0x810048, [(0x80, 1024)], [⟨0xFFFFFFFF, 0, 0, 0, 0, 0, 0x0⟩]⟩,
  ⟨0x81004C, [(0x80, 1024)], [⟨0, 0, 0, 0, 0xFFFFFFFF, 0, 0x0⟩]⟩,
  ⟨0x810050, [(0x80, 1024)], [⟨0, 0, 0, 0, 0xFFFFFFFF, 0, 0x0⟩]⟩,
  ⟨0x810054, [(0x80, 1024)], [⟨0, 0, 0, 0, 0xFFFFFFFF, 0, 0x0⟩]⟩]

/-- Cards of chapter 09: GLOBAL_MBOX, DMA_CTRL, DMA_CTO, DMA_STATUS, DMA_UR_CNT, DMA_BAR2_BASE, DMA_Q_OWNER, DMA_QC_CTRL, DMA_QC_HEAD, DMA_QC_CMD, DMA_QC_STATUS, DMA_QC_DB_CNT. -/
def cards09a : List Card := [
  ⟨0x1000, [(0x4, 1024)], [⟨0, 0xFFFFFFFF, 0, 0, 0, 0, 0x0⟩]⟩,
  ⟨0x900000, [], [⟨0, 0x1, 0, 0, 0, 0, 0x0⟩]⟩,
  ⟨0x900004, [], [⟨0, 0x1FFFF, 0, 0, 0, 0, 0x2710⟩]⟩,
  ⟨0x900008, [], [⟨0, 0, 0, 0x7, 0, 0, 0x0⟩]⟩,
  ⟨0x90000C, [], [⟨0, 0, 0, 0, 0xFFFFFFFF, 0, 0x0⟩]⟩,
  ⟨0x900100, [(0x4, 64)], [⟨0, 0x7F, 0, 0, 0, 0, 0x0⟩]⟩,
  ⟨0x901000, [(0x4, 1024)], [⟨0, 0, 0x8000003F, 0, 0, 0, 0x0⟩]⟩,
  ⟨0xA00000, [(0x800, 1024)], [⟨0, 0x7CF007FF, 0, 0, 0, 0, 0x30000000⟩]⟩,
  ⟨0xA00008, [(0x800, 1024)], [⟨0, 0xFFFFFFC0, 0, 0, 0, 0, 0x0⟩, ⟨0, 0xFFFFFFFF, 0, 0, 0, 0, 0x0⟩]⟩,
  ⟨0xA00010, [(0x800, 1024)], [⟨0, 0, 0, 0, 0, 0x7, 0x0⟩]⟩,
  ⟨0xA00014, [(0x800, 1024)], [⟨0xF0FF0001, 0, 0, 0xE, 0, 0, 0x0⟩]⟩,
  ⟨0xA00018, [(0x800, 1024)], [⟨0xFFFFFFFF, 0, 0, 0, 0, 0, 0x0⟩]⟩]

/-- Cards of chapter 09: DMA_QC_CUR, DMA_QC_DONE_CNT, DMA_QC_HOLD, DMA_QC_REC, DMA_QC_OFFSET, DMA_QC_HOPS, DMA_QC_SKIP_CNT, DMA_QC_BYTES. -/
def cards09b : List Card := [
  ⟨0xA00020, [(0x800, 1024)], [⟨0xFFFFFFFF, 0, 0, 0, 0, 0, 0x0⟩, ⟨0xFFFFFFFF, 0, 0, 0, 0, 0, 0x0⟩]⟩,
  ⟨0xA00028, [(0x800, 1024)], [⟨0xFFFFFFFF, 0, 0, 0, 0, 0, 0x0⟩]⟩,
  ⟨0xA0002C, [(0x800, 1024)], [⟨0x3FF, 0, 0, 0, 0, 0, 0x0⟩]⟩,
  ⟨0xA00030, [(0x800, 1024)], [⟨0xFFFFFFFF, 0, 0, 0, 0, 0, 0xFFFFFFFF⟩, ⟨0xFFFFFFFF, 0, 0, 0, 0, 0, 0xFFFFFFFF⟩]⟩,
  ⟨0xA00038, [(0x800, 1024)], [⟨0xFFFFFFFF, 0, 0, 0, 0, 0, 0x0⟩]⟩,
  ⟨0xA0003C, [(0x800, 1024)], [⟨0x1FFFFF, 0, 0, 0, 0, 0, 0x0⟩]⟩,
  ⟨0xA00040, [(0x800, 1024)], [⟨0, 0, 0, 0, 0xFFFFFFFF, 0, 0x0⟩]⟩,
  ⟨0xA00048, [(0x800, 1024)], [⟨0xFFFFFFFF, 0, 0, 0, 0, 0, 0x0⟩, ⟨0xFFFFFFFF, 0, 0, 0, 0, 0, 0x0⟩]⟩]

/-- Cards of chapter 10: DISP_CTRL, DISP_PCLK, DISP_H, DISP_HS, DISP_V, DISP_VS, DISP_PLOT_POS, DISP_PLOT_SIZE, DISP_BG, DISP_LAYER, DISP_LUT, DISP_EVT. -/
def cards10a : List Card := [
  ⟨0xE00000, [], [⟨0, 0, 0x3FE3, 0, 0, 0, 0x9C0⟩]⟩,
  ⟨0xE00004, [], [⟨0, 0, 0xFFFFFFFF, 0, 0, 0, 0x5551EB8⟩]⟩,
  ⟨0xE00008, [], [⟨0, 0, 0xFFFFFFFF, 0, 0, 0, 0xFA00F00⟩]⟩,
  ⟨0xE0000C, [], [⟨0, 0, 0xFFFFFFFF, 0, 0, 0, 0x80200F30⟩]⟩,
  ⟨0xE00010, [], [⟨0, 0, 0xFFFFFFFF, 0, 0, 0, 0x8AE0870⟩]⟩,
  ⟨0xE00014, [], [⟨0, 0, 0xFFFFFFFF, 0, 0, 0, 0x50873⟩]⟩,
  ⟨0xE00020, [], [⟨0, 0, 0xFFFFFFFF, 0, 0, 0, 0x0⟩]⟩,
  ⟨0xE00024, [], [⟨0, 0, 0xFFFFFFFF, 0, 0, 0, 0x8700F00⟩]⟩,
  ⟨0xE00028, [], [⟨0, 0, 0xFFFFFF, 0, 0, 0, 0x108080⟩]⟩,
  ⟨0xE00040, [(0x4, 8)], [⟨0, 0, 0xFC07FFFF, 0, 0, 0, 0x40008080⟩]⟩,
  ⟨0xE00100, [(0x4, 64)], [⟨0, 0, 0xFFFFFFFF, 0, 0, 0, 0x0⟩]⟩,
  ⟨0xE00200, [], [⟨0, 0xFFFF07FF, 0, 0, 0, 0, 0x0⟩]⟩]

/-- Cards of chapter 10: DISP_STATUS, DISP_UNDERRUN_CNT, DISP_SIG, DISP_WATCH, DISP_BFRAME, DISP_VBLANK_LCNT, DISP_FRAME_CNT. -/
def cards10b : List Card := [
  ⟨0xE00204, [], [⟨0x3800, 0, 0, 0x7CF, 0, 0, 0x0⟩]⟩,
  ⟨0xE00208, [], [⟨0, 0, 0, 0, 0xFFFFFFFF, 0, 0x0⟩]⟩,
  ⟨0xE0020C, [], [⟨0xFFFFFFFF, 0, 0, 0, 0, 0, 0x0⟩]⟩,
  ⟨0xE00210, [], [⟨0, 0, 0xFFFF00FF, 0, 0, 0, 0x780008⟩]⟩,
  ⟨0xE00214, [], [⟨0xFFFFFFFF, 0, 0, 0, 0, 0, 0x0⟩]⟩,
  ⟨0xE00218, [], [⟨0xFFFFFFFF, 0, 0, 0, 0, 0, 0x0⟩, ⟨0xFFFFFFFF, 0, 0, 0, 0, 0, 0x0⟩]⟩,
  ⟨0xE00220, [], [⟨0xFFFFFFFF, 0, 0, 0, 0, 0, 0x0⟩]⟩]

/-- Cards of chapter 11: CLK_CTRL, CLK_FCW_INT, CLK_FCW_FRAC, CLK_FCW_MOD, CLK_LOCK, CLK_LOCK_N, CLK_STATUS, CLK_BAND, CLK_PHERR, CLK_BYP_RATIO, CLK_LOSS_LCNT, CLK_SWITCH_CNT. -/
def cards11a : List Card := [
  ⟨0x200000, [], [⟨0, 0, 0x3D, 0, 0, 0, 0x2D⟩]⟩,
  ⟨0x200004, [], [⟨0, 0, 0xFFF, 0, 0, 0, 0xA0⟩]⟩,
  ⟨0x200008, [], [⟨0, 0, 0xFFFFFFFF, 0, 0, 0, 0x0⟩]⟩,
  ⟨0x20000C, [], [⟨0, 0, 0xFFFFFFFF, 0, 0, 0, 0x1⟩]⟩,
  ⟨0x200010, [], [⟨0, 0, 0xFFFFFFFF, 0, 0, 0, 0x50040800⟩]⟩,
  ⟨0x200014, [], [⟨0, 0, 0xFFFF, 0, 0, 0, 0x1000⟩]⟩,
  ⟨0x200018, [], [⟨0xF000021F, 0, 0, 0x1E0, 0, 0, 0x1⟩]⟩,
  ⟨0x20001C, [], [⟨0xFFFFFFFF, 0, 0, 0, 0, 0, 0x0⟩]⟩,
  ⟨0x200020, [], [⟨0xFFFF, 0, 0, 0, 0, 0, 0x0⟩]⟩,
  ⟨0x200024, [], [⟨0xFFFFFFFF, 0, 0, 0, 0, 0, 0x5000000⟩]⟩,
  ⟨0x200028, [], [⟨0xFFFFFFFF, 0, 0, 0, 0, 0, 0x0⟩, ⟨0xFFFFFFFF, 0, 0, 0, 0, 0, 0x0⟩]⟩,
  ⟨0x200030, [], [⟨0, 0, 0, 0, 0xFFFFFFFF, 0, 0x0⟩]⟩]

/-- Cards of chapter 11: CLK_SPUR, CLK_BTAB_FCW, CLK_BTAB_FRAC, CLK_BTAB_MOD, CLK_BTAB_BAND, CLK_OUT_CTRL, CLK_OUT_DIV, CLK_OUT_DELAY, CLK_OUT_PULSE. -/
def cards11b : List Card := [
  ⟨0x200040, [(0x4, 4)], [⟨0xFBFFFFFF, 0, 0, 0, 0, 0, 0x0⟩]⟩,
  ⟨0x200100, [(0x10, 16)], [⟨0, 0, 0x80000FFF, 0, 0, 0, 0x0⟩]⟩,
  ⟨0x200104, [(0x10, 16)], [⟨0, 0, 0xFFFFFFFF, 0, 0, 0, 0x0⟩]⟩,
  ⟨0x200108, [(0x10, 16)], [⟨0, 0, 0xFFFFFFFF, 0, 0, 0, 0x1⟩]⟩,
  ⟨0x20010C, [(0x10, 16)], [⟨0, 0, 0xFFFFFFFF, 0, 0, 0, 0x0⟩]⟩,
  ⟨0x200200, [(0x10, 4)], [⟨0, 0, 0xFF, 0, 0, 0, 0x0⟩]⟩,
  ⟨0x200204, [(0x10, 4)], [⟨0, 0, 0x1FFFFF, 0, 0, 0, 0x40⟩]⟩,
  ⟨0x200208, [(0x10, 4)], [⟨0, 0, 0xFFFFF, 0, 0, 0, 0x0⟩]⟩,
  ⟨0x200300, [(0x8, 4)], [⟨0, 0, 0xFFFFFFFF, 0, 0, 0, 0x0⟩, ⟨0, 0, 0xFFFFFFFF, 0, 0, 0, 0x0⟩]⟩]

/-- Cards of chapter 12: TIME_CTRL, TIME_STATUS, TIME_LCNT, TIME_SNAP_CMD, TIME_SNAP, TIME_HIST, TIME_STAGE, TIME_STAGE_CMD, TIME_SERVO, TIME_JUMP_MAX, TIME_EPOCH_MIN, TIME_THETA. -/
def cards12a : List Card := [
  ⟨0xC00000, [], [⟨0, 0x2, 0xD, 0, 0, 0, 0x5⟩]⟩,
  ⟨0xC00004, [], [⟨0xF120FFFF, 0, 0, 0x2D00000, 0, 0, 0x0⟩]⟩,
  ⟨0xC00008, [], [⟨0xFFFFFFFF, 0, 0, 0, 0, 0, 0x0⟩, ⟨0xFFFFFFFF, 0, 0, 0, 0, 0, 0x0⟩]⟩,
  ⟨0xC00040, [], [⟨0, 0, 0, 0, 0, 0x1, 0x0⟩]⟩,
  ⟨0xC00044, [], [⟨0x8000FFFF, 0, 0, 0, 0, 0, 0x0⟩, ⟨0xFFFFFFFF, 0, 0, 0, 0, 0, 0x0⟩, ⟨0xFFFFFFFF, 0, 0, 0, 0, 0, 0x0⟩, ⟨0xFFFFFFFF, 0, 0, 0, 0, 0, 0x0⟩, ⟨0xFFFFFFFF, 0, 0, 0, 0, 0, 0x0⟩, ⟨0xFFFFFFFF, 0, 0, 0, 0, 0, 0x0⟩]⟩,
  ⟨0xC01000, [(0x20, 16)], [⟨0xFFFFFFFF, 0, 0, 0, 0, 0, 0x0⟩, ⟨0xFFFFFFFF, 0, 0, 0, 0, 0, 0x0⟩, ⟨0xFFFFFFFF, 0, 0, 0, 0, 0, 0x0⟩, ⟨0xFFFFFFFF, 0, 0, 0, 0, 0, 0x0⟩, ⟨0xFFFFFFFF, 0, 0, 0, 0, 0, 0x0⟩, ⟨0xFFFFFFFF, 0, 0, 0, 0, 0, 0x0⟩, ⟨0xFFFFFFFF, 0, 0, 0, 0, 0, 0x0⟩, ⟨0xFFFFFFFF, 0, 0, 0, 0, 0, 0x0⟩]⟩,
  ⟨0xC00080, [], [⟨0, 0xFFFFFFFF, 0, 0, 0, 0, 0x0⟩, ⟨0, 0xFFFFFFFF, 0, 0, 0, 0, 0x0⟩, ⟨0, 0xFFFFFFFF, 0, 0, 0, 0, 0x0⟩, ⟨0, 0xFFFFFFFF, 0, 0, 0, 0, 0x0⟩, ⟨0, 0xFFFFFFFF, 0, 0, 0, 0, 0x0⟩, ⟨0, 0xFFFFFFFF, 0, 0, 0, 0, 0x0⟩, ⟨0, 0xFFFFFFFF, 0, 0, 0, 0, 0x0⟩, ⟨0, 0, 0, 0, 0, 0, 0x0⟩, ⟨0, 0xFFFFFFFF, 0, 0, 0, 0, 0x0⟩, ⟨0, 0xFFFFFFFF, 0, 0, 0, 0, 0x0⟩]⟩,
  ⟨0xC000A8, [], [⟨0, 0, 0, 0, 0, 0x7, 0x0⟩]⟩,
  ⟨0xC000C0, [], [⟨0, 0, 0xFF00FFFF, 0, 0, 0, 0x10006214⟩]⟩,
  ⟨0xC000C4, [], [⟨0, 0, 0xFFFFFFFF, 0, 0, 0, 0x3E8⟩]⟩,
  ⟨0xC000C8, [], [⟨0, 0, 0xFFFFFFFF, 0, 0, 0, 0x3B9AD⟩]⟩,
  ⟨0xC000D0, [], [⟨0xFFFFFFFF, 0, 0, 0, 0, 0, 0x0⟩]⟩]

/-- Cards of chapter 12: TIME_RATE, TIME_REFUSED_CNT, TIME_PTP_CTRL, TIME_PTP_INTV, TIME_PTP_ID, TIME_UTC, TIME_PTP_PORT, TIME_TXQ, TIME_TXQ_DROP_CNT. -/
def cards12b : List Card := [
  ⟨0xC000D4, [], [⟨0xFFFFFFFF, 0, 0, 0, 0, 0, 0x0⟩]⟩,
  ⟨0xC000D8, [], [⟨0, 0, 0, 0, 0xFFFFFFFF, 0, 0x0⟩]⟩,
  ⟨0xC00100, [], [⟨0, 0, 0xFFFFFFFF, 0, 0, 0, 0x108080⟩]⟩,
  ⟨0xC00104, [], [⟨0, 0, 0xFFFFFFFF, 0, 0, 0, 0xFD0003⟩]⟩,
  ⟨0xC00108, [], [⟨0, 0, 0xFFFFFFFF, 0, 0, 0, 0x0⟩, ⟨0, 0, 0xFFFFFFFF, 0, 0, 0, 0x0⟩]⟩,
  ⟨0xC00110, [], [⟨0x8000FFFF, 0, 0, 0, 0, 0, 0x0⟩]⟩,
  ⟨0xC00200, [(0x4, 128)], [⟨0xF, 0, 0xC0000000, 0, 0, 0, 0x0⟩]⟩,
  ⟨0xC00400, [], [⟨0xFFFFF0FF, 0, 0, 0, 0, 0, 0x0⟩, ⟨0xFFFF, 0, 0, 0, 0, 0, 0x0⟩, ⟨0xFFFFFFFF, 0, 0, 0, 0, 0, 0x0⟩, ⟨0xFFFFFFFF, 0, 0, 0, 0, 0, 0x0⟩, ⟨0xFFFFFFFF, 0, 0, 0, 0, 0, 0x0⟩]⟩,
  ⟨0xC00418, [], [⟨0, 0, 0, 0, 0xFFFFFFFF, 0, 0x0⟩]⟩]

/-- Cards of chapter 13: EVT_IN_CTRL, EVT_IN_PRESCALE, EVT_IN_SPACE, EVT_IN_GATE, EVT_IN_NSTAT, EVT_IN_CMD, EVT_IN_STATUS, EVT_IN_EDGE_CNT, EVT_IN_LOST_CNT, EVT_IN_OVR_CNT, EVT_DELAY, EVT_INT_CAL. -/
def cards13a : List Card := [
  ⟨0xC80000, [(0x100, 8)], [⟨0, 0, 0xFFFE0000, 0, 0, 0, 0x800000⟩]⟩,
  ⟨0xC80004, [(0x100, 8)], [⟨0, 0, 0xFFFFFF, 0, 0, 0, 0x0⟩]⟩,
  ⟨0xC80008, [(0x100, 8)], [⟨0, 0, 0x1FFFFF, 0, 0, 0, 0xA⟩]⟩,
  ⟨0xC8000C, [(0x100, 8)], [⟨0, 0, 0xFFFFFFFF, 0, 0, 0, 0x7A120⟩, ⟨0, 0, 0xFF, 0, 0, 0, 0x0⟩]⟩,
  ⟨0xC80014, [(0x100, 8)], [⟨0, 0, 0xFFFFFF, 0, 0, 0, 0x3E7⟩]⟩,
  ⟨0xC80018, [(0x100, 8)], [⟨0, 0, 0, 0, 0, 0x3, 0x0⟩]⟩,
  ⟨0xC8001C, [(0x100, 8)], [⟨0x1F, 0, 0, 0xE0, 0, 0, 0x0⟩]⟩,
  ⟨0xC80020, [(0x100, 8)], [⟨0xFFFFFFFF, 0, 0, 0, 0, 0, 0x0⟩, ⟨0xFFFF, 0, 0, 0, 0, 0, 0x0⟩]⟩,
  ⟨0xC80028, [(0x100, 8)], [⟨0, 0, 0, 0, 0xFFFFFFFF, 0, 0x0⟩]⟩,
  ⟨0xC8002C, [(0x100, 8)], [⟨0, 0, 0, 0, 0xFFFFFFFF, 0, 0x0⟩]⟩,
  ⟨0xC80030, [(0x100, 8)], [⟨0xFFFF, 0, 0, 0, 0, 0, 0x0⟩]⟩,
  ⟨0xC80034, [(0x100, 8), (0x4, 2)], [⟨0xBFFF3FFF, 0, 0, 0, 0, 0, 0x0⟩]⟩]

/-- Cards of chapter 13: EVT_IN_RING, EVT_RES. -/
def cards13b : List Card := [
  ⟨0xC8003C, [(0x100, 8)], [⟨0, 0, 0xFF1FFFFF, 0, 0, 0, 0x1000000⟩]⟩,
  ⟨0xC80040, [(0x100, 8)], [⟨0xFFFFFFFF, 0, 0, 0, 0, 0, 0x0⟩, ⟨0xFFFFFFFF, 0, 0, 0, 0, 0, 0x0⟩, ⟨0xFFFFFFFF, 0, 0, 0, 0, 0, 0x0⟩, ⟨0xFFFFFFFF, 0, 0, 0, 0, 0, 0x0⟩, ⟨0xFFFF, 0, 0, 0, 0, 0, 0x0⟩, ⟨0xFFFFFFFF, 0, 0, 0, 0, 0, 0x0⟩, ⟨0xFFFFFFFF, 0, 0, 0, 0, 0, 0x0⟩, ⟨0xFFFFFFFF, 0, 0, 0, 0, 0, 0x0⟩, ⟨0xFFFFFFFF, 0, 0, 0, 0, 0, 0x0⟩, ⟨0xFFFFFFFF, 0, 0, 0, 0, 0, 0x0⟩, ⟨0xFFFFFFFF, 0, 0, 0, 0, 0, 0x0⟩, ⟨0xFFFFFFFF, 0, 0, 0, 0, 0, 0x0⟩, ⟨0xFFFFFFFF, 0, 0, 0, 0, 0, 0x0⟩, ⟨0xFFFFFFFF, 0, 0, 0, 0, 0, 0x0⟩, ⟨0xFFFFFFFF, 0, 0, 0, 0, 0, 0x0⟩, ⟨0xFFFFFFFF, 0, 0, 0, 0, 0, 0x0⟩]⟩]

/-- Cards of chapter 14: CAL_CTRL, CAL_CALV, CAL_FG_MAX_DEFER, CAL_DRIFT, CAL_SCHED, CAL_CAP_BASE, CAL_FG_CH, CAL_FG_PROC, CAL_FG_CMD, CAL_STATUS, CAL_EPOCH, CAL_SEQ. -/
def cards14a : List Card := [
  ⟨0xD00000, [], [⟨0, 0, 0x3, 0, 0, 0, 0x1⟩]⟩,
  ⟨0xD00004, [], [⟨0, 0, 0xFFFFFFFF, 0, 0, 0, 0x0⟩]⟩,
  ⟨0xD00008, [], [⟨0, 0, 0xFFFF, 0, 0, 0, 0x100⟩]⟩,
  ⟨0xD0000C, [], [⟨0, 0, 0xFF, 0, 0, 0, 0xA⟩]⟩,
  ⟨0xD00010, [], [⟨0, 0, 0xFFFFFFFF, 0, 0, 0, 0x80000000⟩]⟩,
  ⟨0xD00014, [], [⟨0, 0, 0x1FFFFF, 0, 0, 0, 0x2⟩]⟩,
  ⟨0xD00020, [], [⟨0, 0xFFFFFFFF, 0, 0, 0, 0, 0x0⟩, ⟨0, 0xFFFF, 0, 0, 0, 0, 0x0⟩]⟩,
  ⟨0xD00028, [], [⟨0, 0x7F, 0, 0, 0, 0, 0x1F⟩]⟩,
  ⟨0xD0002C, [], [⟨0, 0, 0, 0, 0, 0x3, 0x0⟩]⟩,
  ⟨0xD00030, [], [⟨0xFFF000FF, 0, 0, 0x700, 0, 0, 0x0⟩]⟩,
  ⟨0xD00034, [], [⟨0xFFFFFF, 0, 0, 0, 0, 0, 0x0⟩]⟩,
  ⟨0xD00038, [], [⟨0xFFFFFFFF, 0, 0, 0, 0, 0, 0x0⟩]⟩]

/-- Cards of chapter 14: CAL_DIE_SRC, CAL_RUN_LCNT, CAL_DRIFT_STATUS, CAL_TEMP_REF, CAL_CH_STATUS, CAL_Q_OFS, CAL_Q_GAIN, CAL_Q_SPUR, CAL_Q_SKEW, CAL_Q_ENOB, CAL_Q_INT, CAL_Q_EVT. -/
def cards14b : List Card := [
  ⟨0xD0003C, [], [⟨0xFFFF, 0, 0, 0, 0, 0, 0x0⟩]⟩,
  ⟨0xD00040, [], [⟨0xFFFFFFFF, 0, 0, 0, 0, 0, 0x0⟩, ⟨0xFFFFFFFF, 0, 0, 0, 0, 0, 0x0⟩]⟩,
  ⟨0xD00050, [], [⟨0x3F, 0, 0, 0, 0, 0, 0x0⟩]⟩,
  ⟨0xD00054, [(0x4, 6)], [⟨0xFFFF, 0, 0, 0, 0, 0, 0x0⟩]⟩,
  ⟨0xD10000, [(0x40, 48)], [⟨0x9, 0, 0, 0x6, 0, 0, 0x0⟩]⟩,
  ⟨0xD10004, [(0x40, 48)], [⟨0xFFFFFFFF, 0, 0, 0, 0, 0, 0x0⟩]⟩,
  ⟨0xD10008, [(0x40, 48)], [⟨0xFFFFFFFF, 0, 0, 0, 0, 0, 0x0⟩]⟩,
  ⟨0xD1000C, [(0x40, 48)], [⟨0xFFFF, 0, 0, 0, 0, 0, 0x0⟩]⟩,
  ⟨0xD10010, [(0x40, 48)], [⟨0xFFFF, 0, 0, 0, 0, 0, 0x0⟩]⟩,
  ⟨0xD10014, [(0x40, 48)], [⟨0xFFFF, 0, 0, 0, 0, 0, 0x0⟩]⟩,
  ⟨0xD20000, [(0x40, 48), (0x4, 16)], [⟨0xFFFFFFFF, 0, 0, 0, 0, 0, 0x0⟩]⟩,
  ⟨0xD21000, [(0x4, 16)], [⟨0xFFFFFFFF, 0, 0, 0, 0, 0, 0x0⟩]⟩]

/-- Cards of chapter 15: SVC_CTRL, SVC_STATUS, SVC_CMD, SVC_EXC_TOTAL, SVC_MON_TOL, SVC_MON_CYCLE, SVC_MON_LCNT, SVC_MON_DIE, SVC_RLY, SVC_RLY_SAFE, SVC_RLY_OC, SVC_RLY_OPEN. -/
def cards15a : List Card := [
  ⟨0xD80000, [], [⟨0, 0, 0x3, 0, 0, 0, 0x0⟩]⟩,
  ⟨0xD80004, [], [⟨0x1F, 0, 0, 0, 0, 0, 0x2⟩]⟩,
  ⟨0xD80008, [], [⟨0, 0, 0, 0, 0, 0x1, 0x0⟩]⟩,
  ⟨0xD8000C, [], [⟨0x1FFFFF, 0, 0, 0, 0, 0, 0x0⟩]⟩,
  ⟨0xD80010, [], [⟨0, 0, 0xFFFFFFFF, 0, 0, 0, 0x18000A⟩]⟩,
  ⟨0xD80014, [], [⟨0xFFFFFFFF, 0, 0, 0, 0, 0, 0x0⟩]⟩,
  ⟨0xD80018, [], [⟨0xFFFFFFFF, 0, 0, 0, 0, 0, 0x0⟩, ⟨0xFFFFFFFF, 0, 0, 0, 0, 0, 0x0⟩]⟩,
  ⟨0xD80020, [(0x4, 6)], [⟨0xFFFFFFFF, 0, 0, 0, 0, 0, 0x0⟩]⟩,
  ⟨0xD80040, [], [⟨0, 0, 0xFFFFFFFF, 0, 0, 0, 0x0⟩]⟩,
  ⟨0xD80044, [], [⟨0, 0, 0xFFFFFFFF, 0, 0, 0, 0x0⟩]⟩,
  ⟨0xD80048, [], [⟨0, 0, 0, 0xFFFFFFFF, 0, 0, 0x0⟩]⟩,
  ⟨0xD8004C, [], [⟨0, 0, 0, 0xFFFFFFFF, 0, 0, 0x0⟩]⟩]

/-- Cards of chapter 15: SVC_LINK_ERR_CNT, SVC_OFS_CODE, SVC_EXC_CTRL, SVC_OUT_STATUS, SVC_EXC_CMD, SVC_MON_OFS, SVC_MON_EXC_I, SVC_MON_EXC_V. -/
def cards15b : List Card := [
  ⟨0xD80050, [], [⟨0, 0, 0, 0, 0xFFFFFFFF, 0, 0x0⟩]⟩,
  ⟨0xD90000, [(0x40, 48)], [⟨0, 0, 0xFFFF, 0, 0, 0, 0x0⟩]⟩,
  ⟨0xD90004, [(0x40, 48)], [⟨0, 0, 0xE000FFFF, 0, 0, 0, 0x20000000⟩]⟩,
  ⟨0xD90008, [(0x40, 48)], [⟨0x1D, 0, 0, 0xE2, 0, 0, 0x0⟩]⟩,
  ⟨0xD9000C, [(0x40, 48)], [⟨0, 0, 0, 0, 0, 0x1, 0x0⟩]⟩,
  ⟨0xD90010, [(0x40, 48)], [⟨0xFFFFFFFF, 0, 0, 0, 0, 0, 0x0⟩]⟩,
  ⟨0xD90014, [(0x40, 48)], [⟨0xFFFFFFFF, 0, 0, 0, 0, 0, 0x0⟩]⟩,
  ⟨0xD90018, [(0x40, 48)], [⟨0xFFFFFFFF, 0, 0, 0, 0, 0, 0x0⟩]⟩]

/-- Cards of chapter 16: CFG_STATUS, CFG_COMMIT, CFG_CMD, CFG_RESULT, CFG_REASONS, CFG_APPLY_LCNT, CFG_AT_LCNT, CFG_REC_MAX, CFG_VIEW, CFG_POLICY, CFG_SEQ, CFG_WR_IGN_CNT. -/
def cards16a : List Card := [
  ⟨0x10000, [], [⟨0x1, 0, 0, 0xFE, 0, 0, 0x1⟩]⟩,
  ⟨0x10004, [], [⟨0, 0, 0, 0, 0, 0xFD, 0x0⟩]⟩,
  ⟨0x10008, [], [⟨0, 0, 0, 0, 0, 0x17, 0x0⟩]⟩,
  ⟨0x1000C, [], [⟨0xF0003FFF, 0, 0, 0, 0, 0, 0x0⟩]⟩,
  ⟨0x10010, [], [⟨0xFFFFFFFF, 0, 0, 0, 0, 0, 0x0⟩, ⟨0xFFFFFFFF, 0, 0, 0, 0, 0, 0x0⟩]⟩,
  ⟨0x10018, [], [⟨0xFFFFFFFF, 0, 0, 0, 0, 0, 0x0⟩, ⟨0xFFFFFFFF, 0, 0, 0, 0, 0, 0x0⟩]⟩,
  ⟨0x10020, [], [⟨0, 0xFFFFFFFF, 0, 0, 0, 0, 0x0⟩, ⟨0, 0xFFFFFFFF, 0, 0, 0, 0, 0x0⟩]⟩,
  ⟨0x10028, [], [⟨0, 0xFFFFFFFF, 0, 0, 0, 0, 0x100⟩]⟩,
  ⟨0x1002C, [], [⟨0, 0x1, 0, 0, 0, 0, 0x0⟩]⟩,
  ⟨0x10030, [], [⟨0, 0, 0x1, 0, 0, 0, 0x0⟩]⟩,
  ⟨0x10034, [], [⟨0xFFFFFFFF, 0, 0, 0, 0, 0, 0x0⟩]⟩,
  ⟨0x10038, [], [⟨0, 0, 0, 0, 0xFFFFFFFF, 0, 0x0⟩]⟩]

/-- Cards of chapter 16: CFG_VEC, CFG_IMAGE, CFG_FLASH_CTRL, CFG_FLASH_ADDR, CFG_FLASH_CMD, CFG_FLASH_STATUS, CFG_FLASH_BUF. -/
def cards16b : List Card := [
  ⟨0x1003C, [], [⟨0, 0x800007FF, 0, 0, 0, 0, 0x0⟩]⟩,
  ⟨0x10040, [], [⟨0xFFFFFFFF, 0, 0, 0, 0, 0, 0x0⟩]⟩,
  ⟨0x10100, [], [⟨0, 0x1, 0, 0, 0, 0, 0x0⟩]⟩,
  ⟨0x10104, [], [⟨0, 0x7FFFFFF, 0, 0, 0, 0, 0x0⟩]⟩,
  ⟨0x10108, [], [⟨0, 0, 0, 0, 0, 0x3, 0x0⟩]⟩,
  ⟨0x1010C, [], [⟨0x1, 0, 0, 0x6, 0, 0, 0x0⟩]⟩,
  ⟨0x11000, [(0x4, 64)], [⟨0, 0xFFFFFFFF, 0, 0, 0, 0, 0x0⟩]⟩]

/-- Cards of chapter 17: GLOBAL_RESET, GLOBAL_GRP_RESET, GLOBAL_RESET_CAUSE, GLOBAL_PWR_CYCLES, GLOBAL_KEEP_SEC, GLOBAL_WAKE_SEC, GLOBAL_WAKE_CTRL, GLOBAL_SUPPLY, GLOBAL_SUPPLY_WARN_CNT, GLOBAL_SUPPLY_CHECK_CNT, GLOBAL_SELFTEST, GLOBAL_RESUME_LCNT. -/
def cards17a : List Card := [
  ⟨0x100, [], [⟨0, 0, 0, 0, 0, 0xFF03, 0x0⟩]⟩,
  ⟨0x104, [], [⟨0, 0, 0, 0, 0, 0xFFFF, 0x0⟩]⟩,
  ⟨0x108, [], [⟨0x1FFFF, 0, 0, 0, 0, 0, 0x10001⟩]⟩,
  ⟨0x10C, [], [⟨0xFFFFFFFF, 0, 0, 0, 0, 0, 0x1⟩]⟩,
  ⟨0x110, [], [⟨0xFFFFFFFF, 0, 0, 0, 0, 0, 0x0⟩, ⟨0xFFFF, 0, 0, 0, 0, 0, 0x0⟩]⟩,
  ⟨0x118, [], [⟨0, 0xFFFFFFFF, 0, 0, 0, 0, 0x0⟩, ⟨0, 0xFFFF, 0, 0, 0, 0, 0x0⟩]⟩,
  ⟨0x120, [], [⟨0x2, 0x1, 0, 0, 0, 0, 0x0⟩]⟩,
  ⟨0x130, [], [⟨0xFF, 0, 0, 0xFF0000, 0, 0, 0x0⟩]⟩,
  ⟨0x134, [], [⟨0, 0, 0, 0, 0xFFFFFFFF, 0, 0x0⟩]⟩,
  ⟨0x138, [], [⟨0, 0, 0, 0, 0xFFFFFFFF, 0, 0x0⟩]⟩,
  ⟨0x140, [], [⟨0xFFFFFFFF, 0, 0, 0, 0, 0, 0x0⟩]⟩,
  ⟨0x148, [], [⟨0xFFFFFFFF, 0, 0, 0, 0, 0, 0x0⟩, ⟨0xFFFFFFFF, 0, 0, 0, 0, 0, 0x0⟩]⟩]

/-- Cards of chapter 18: LOG_CTRL, LOG_STATUS, LOG_CMD, LOG_WR_SEQ, LOG_OVF_CNT, LOG_SUPPR_CNT, LOG_NEST_CNT, LOG_STORE, LOG_RD_SEQ, LOG_RD, LOG_FIRST, LOG_LAST_ERR. -/
def cards18a : List Card := [
  ⟨0xF00000, [], [⟨0, 0xE00007FF, 0, 0, 0, 0, 0x40000000⟩]⟩,
  ⟨0xF00004, [], [⟨0x13, 0, 0, 0xC, 0, 0, 0x0⟩]⟩,
  ⟨0xF00008, [], [⟨0, 0, 0, 0, 0, 0x3, 0x0⟩]⟩,
  ⟨0xF0000C, [], [⟨0xFFFFFFFF, 0, 0, 0, 0, 0, 0x0⟩]⟩,
  ⟨0xF00010, [], [⟨0, 0, 0, 0, 0xFFFFFFFF, 0, 0x0⟩]⟩,
  ⟨0xF00014, [], [⟨0, 0, 0, 0, 0xFFFFFFFF, 0, 0x0⟩]⟩,
  ⟨0xF00018, [], [⟨0xFFFFFFFF, 0, 0, 0, 0, 0, 0x0⟩]⟩,
  ⟨0xF0001C, [], [⟨0, 0, 0x1FFFFF, 0, 0, 0, 0x0⟩]⟩,
  ⟨0xF00020, [], [⟨0, 0xFFFFFFFF, 0, 0, 0, 0, 0x0⟩]⟩,
  ⟨0xF00040, [], [⟨0xFFFFFFFF, 0, 0, 0, 0, 0, 0x0⟩, ⟨0xFFFFFFFF, 0, 0, 0, 0, 0, 0x0⟩, ⟨0xFFFFFFFF, 0, 0, 0, 0, 0, 0x0⟩, ⟨0xFFFFFFFF, 0, 0, 0, 0, 0, 0x0⟩, ⟨0xFFFFFFFF, 0, 0, 0, 0, 0, 0x0⟩, ⟨0xFFFFFFFF, 0, 0, 0, 0, 0, 0x0⟩, ⟨0xFFFFFFFF, 0, 0, 0, 0, 0, 0x0⟩, ⟨0xFFFFFFFF, 0, 0, 0, 0, 0, 0x0⟩]⟩,
  ⟨0xF00080, [], [⟨0xFFFFFFFF, 0, 0, 0, 0, 0, 0x0⟩, ⟨0xFFFFFFFF, 0, 0, 0, 0, 0, 0x0⟩, ⟨0xFFFFFFFF, 0, 0, 0, 0, 0, 0x0⟩, ⟨0xFFFFFFFF, 0, 0, 0, 0, 0, 0x0⟩, ⟨0xFFFFFFFF, 0, 0, 0, 0, 0, 0x0⟩, ⟨0xFFFFFFFF, 0, 0, 0, 0, 0, 0x0⟩, ⟨0xFFFFFFFF, 0, 0, 0, 0, 0, 0x0⟩, ⟨0xFFFFFFFF, 0, 0, 0, 0, 0, 0x0⟩]⟩,
  ⟨0xF000C0, [], [⟨0xFFFFFFFF, 0, 0, 0, 0, 0, 0x0⟩, ⟨0xFFFFFFFF, 0, 0, 0, 0, 0, 0x0⟩, ⟨0xFFFFFFFF, 0, 0, 0, 0, 0, 0x0⟩, ⟨0xFFFFFFFF, 0, 0, 0, 0, 0, 0x0⟩, ⟨0xFFFFFFFF, 0, 0, 0, 0, 0, 0x0⟩, ⟨0xFFFFFFFF, 0, 0, 0, 0, 0, 0x0⟩, ⟨0xFFFFFFFF, 0, 0, 0, 0, 0, 0x0⟩, ⟨0xFFFFFFFF, 0, 0, 0, 0, 0, 0x0⟩]⟩]

/-- Cards of chapter 18: LOG_CLASS, TWIN_CTRL, TWIN_STATUS, TWIN_PEER, TWIN_LINK_DELAY, TWIN_TAKEOVER_LCNT, TWIN_CMD, TWIN_HB_MISS_CNT, TWIN_CRC_ERR_CNT. -/
def cards18b : List Card := [
  ⟨0xF01000, [(0x40, 256), (0x4, 16)], [⟨0, 0, 0xFFFFFFFF, 0, 0, 0, 0x0⟩]⟩,
  ⟨0xF80000, [], [⟨0, 0, 0xE00000FF, 0, 0, 0, 0x20000004⟩]⟩,
  ⟨0xF80004, [], [⟨0xC0000023, 0, 0, 0x1C, 0, 0, 0x0⟩]⟩,
  ⟨0xF80008, [], [⟨0xFFFFFFFF, 0, 0, 0, 0, 0, 0x0⟩]⟩,
  ⟨0xF8000C, [], [⟨0xFFFFFFFF, 0, 0, 0, 0, 0, 0x0⟩]⟩,
  ⟨0xF80010, [], [⟨0xFFFFFFFF, 0, 0, 0, 0, 0, 0x0⟩, ⟨0xFFFFFFFF, 0, 0, 0, 0, 0, 0x0⟩]⟩,
  ⟨0xF80018, [], [⟨0, 0, 0, 0, 0, 0x1, 0x0⟩]⟩,
  ⟨0xF8001C, [], [⟨0, 0, 0, 0, 0xFFFFFFFF, 0, 0x0⟩]⟩,
  ⟨0xF80020, [], [⟨0, 0, 0, 0, 0xFFFFFFFF, 0, 0x0⟩]⟩]

/-- Every register card of the spec. -/
def cards : List Card :=
  cards01a ++ cards02a ++ cards02b ++ cards03a ++ cards03b ++ cards04a ++ cards04b ++ cards04c ++ cards05a ++ cards05b ++ cards06a ++ cards06b ++ cards06c ++ cards07a ++ cards07b ++ cards08a ++ cards08b ++ cards09a ++ cards09b ++ cards10a ++ cards10b ++ cards11a ++ cards11b ++ cards12a ++ cards12b ++ cards13a ++ cards13b ++ cards14a ++ cards14b ++ cards15a ++ cards15b ++ cards16a ++ cards16b ++ cards17a ++ cards18a ++ cards18b

/-! Offsets. -/

def R.GLOBAL_ID : Nat := 0x0000000
def R.GLOBAL_STATE : Nat := 0x0000004
def R.CONV_MODE : Nat := 0x0100000
def R.CONV_ROT_CTRL : Nat := 0x0100010
def R.CONV_ROT_PERIOD : Nat := 0x0100014
def R.CONV_FENCE_REGION : Nat := 0x0100020
def R.CONV_FENCE_DIE : Nat := 0x0100024
def R.CONV_FENCE_CH : Nat := 0x0100028
def R.CONV_CH_CTRL (n : Nat) : Nat := 0x0101000 + 0x100 * n
def R.CONV_CH_STATUS (n : Nat) : Nat := 0x0101004 + 0x100 * n
def R.CONV_OVR_CNT (n : Nat) : Nat := 0x0101008 + 0x100 * n
def R.CONV_NBR_CNT (n : Nat) : Nat := 0x010100C + 0x100 * n
def R.CONV_ROT_STEPS (n : Nat) : Nat := 0x0101010 + 0x100 * n
def R.CONV_ROT_FORCED_CNT (n : Nat) : Nat := 0x0101014 + 0x100 * n
def R.CONV_ROT_DUE (n : Nat) : Nat := 0x0101018 + 0x100 * n
def R.CONV_COEF (n : Nat) (p : Nat) (i : Nat) : Nat := 0x0110000 + 0x2000 * n + 0x40 * p + 0x4 * i
def R.FLT_CH_CFG (n : Nat) : Nat := 0x0300000 + 0x1000 * n
def R.FLT_CH_DEC (n : Nat) : Nat := 0x0300004 + 0x1000 * n
def R.FLT_CH_TAPS (n : Nat) : Nat := 0x0300008 + 0x1000 * n
def R.FLT_CH_EQ_DELAY (n : Nat) : Nat := 0x030000C + 0x1000 * n
def R.FLT_CH_FIR_DELAY (n : Nat) : Nat := 0x0300010 + 0x1000 * n
def R.FLT_CH_DC (n : Nat) : Nat := 0x0300014 + 0x1000 * n
def R.FLT_CH_DC_INIT (n : Nat) : Nat := 0x0300018 + 0x1000 * n
def R.FLT_CH_DC_EST (n : Nat) : Nat := 0x030001C + 0x1000 * n
def R.FLT_CH_DELAY (n : Nat) : Nat := 0x0300020 + 0x1000 * n
def R.FLT_CH_SUPPORT (n : Nat) : Nat := 0x0300028 + 0x1000 * n
def R.FLT_CH_DTOT (n : Nat) : Nat := 0x0300030 + 0x1000 * n
def R.FLT_CH_STATUS (n : Nat) : Nat := 0x0300034 + 0x1000 * n
def R.FLT_SAT_CNT (n : Nat) : Nat := 0x0300038 + 0x1000 * n
def R.FLT_EQ_COEF (n : Nat) (i : Nat) : Nat := 0x0300100 + 0x1000 * n + 0x4 * i
def R.FLT_FIR_COEF (n : Nat) (i : Nat) : Nat := 0x0300200 + 0x1000 * n + 0x4 * i
def R.FLT_BCAST_MASK : Nat := 0x0330000
def R.FLT_BCAST_WIN (o : Nat) : Nat := 0x0331000 + 0x4 * o
def R.FLT_HB_COEF (i : Nat) : Nat := 0x0340000 + 0x4 * i
def R.TRG_AC_CTRL (n : Nat) : Nat := 0x0400100 + 0x40 * n
def R.TRG_AC_STATUS (n : Nat) : Nat := 0x0400104 + 0x40 * n
def R.TRG_AC_CROSS_CNT (n : Nat) : Nat := 0x0400108 + 0x40 * n
def R.TRG_LEVEL (n : Nat) : Nat := 0x0400120 + 0x40 * n
def R.TRG_AC_DELAY (n : Nat) : Nat := 0x0400124 + 0x40 * n
def R.TRG_DC_CTRL (m : Nat) : Nat := 0x0405000 + 0x20 * m
def R.TRG_DC_LEVEL (m : Nat) : Nat := 0x0405004 + 0x20 * m
def R.TRG_DC_HYST (m : Nat) : Nat := 0x0405008 + 0x20 * m
def R.TRG_GRP_CH (g : Nat) : Nat := 0x0408000 + 0x100 * g
def R.TRG_GRP_CTRL (g : Nat) : Nat := 0x0408008 + 0x100 * g
def R.TRG_GRP_SRC (g : Nat) : Nat := 0x040800C + 0x100 * g
def R.TRG_GRP_TLO (g : Nat) : Nat := 0x0408010 + 0x100 * g
def R.TRG_GRP_THI (g : Nat) : Nat := 0x0408018 + 0x100 * g
def R.TRG_GRP_HOLD_TIME (g : Nat) : Nat := 0x0408020 + 0x100 * g
def R.TRG_GRP_HOLD_EVT (g : Nat) : Nat := 0x0408028 + 0x100 * g
def R.TRG_GRP_PSRC (g : Nat) (i : Nat) : Nat := 0x0408030 + 0x100 * g + 0x4 * i
def R.TRG_GRP_PVAL (g : Nat) : Nat := 0x0408050 + 0x100 * g
def R.TRG_GRP_CMD (g : Nat) : Nat := 0x0408060 + 0x100 * g
def R.TRG_GRP_STATUS (g : Nat) : Nat := 0x0408064 + 0x100 * g
def R.TRG_GRP_LATENCY (g : Nat) : Nat := 0x0408068 + 0x100 * g
def R.TRG_GRP_ARM_LCNT (g : Nat) : Nat := 0x0408070 + 0x100 * g
def R.TRG_GRP_LAST_LCNT (g : Nat) : Nat := 0x0408078 + 0x100 * g
def R.TRG_GRP_LAST_FINE (g : Nat) : Nat := 0x0408080 + 0x100 * g
def R.TRG_GRP_ACCEPT_CNT (g : Nat) : Nat := 0x0408084 + 0x100 * g
def R.TRG_GRP_MISSED_CNT (g : Nat) : Nat := 0x0408088 + 0x100 * g
def R.TRG_GRP_HELD_CNT (g : Nat) : Nat := 0x040808C + 0x100 * g
def R.TRG_INT_CAL (ch : Nat) (i : Nat) : Nat := 0x040A000 + 0x40 * ch + 0x4 * i
def R.REC_GRP_CTRL (g : Nat) : Nat := 0x0500000 + 0x100 * g
def R.REC_GRP_LEN (g : Nat) : Nat := 0x0500004 + 0x100 * g
def R.REC_GRP_PRE (g : Nat) : Nat := 0x0500008 + 0x100 * g
def R.REC_GRP_LENS (g : Nat) : Nat := 0x050000C + 0x100 * g
def R.REC_GRP_RING_BASE (g : Nat) : Nat := 0x0500010 + 0x100 * g
def R.REC_GRP_RING_SIZE (g : Nat) : Nat := 0x0500014 + 0x100 * g
def R.REC_GRP_GAP_RING (g : Nat) : Nat := 0x0500018 + 0x100 * g
def R.REC_GRP_FIRST_NUM (g : Nat) : Nat := 0x0500020 + 0x100 * g
def R.REC_GRP_NEXT_NUM (g : Nat) : Nat := 0x0500028 + 0x100 * g
def R.REC_GRP_IMAGE (g : Nat) : Nat := 0x0500030 + 0x100 * g
def R.REC_GRP_OLDEST (g : Nat) : Nat := 0x0500034 + 0x100 * g
def R.REC_GRP_PMAP (g : Nat) : Nat := 0x0500038 + 0x100 * g
def R.REC_GRP_CMD (g : Nat) : Nat := 0x050003C + 0x100 * g
def R.REC_GRP_STATUS (g : Nat) : Nat := 0x0500040 + 0x100 * g
def R.REC_GRP_WRAP_CNT (g : Nat) : Nat := 0x0500044 + 0x100 * g
def R.REC_GRP_GAP_OVF_CNT (g : Nat) : Nat := 0x0500048 + 0x100 * g
def R.REC_GRP_GAP_OPEN (g : Nat) : Nat := 0x0500050 + 0x100 * g
def R.REC_GRP_DURABLE (g : Nat) : Nat := 0x0500058 + 0x100 * g
def R.ABA_SLOT_CTRL (n : Nat) (s : Nat) : Nat := 0x0600000 + 0x200 * n + 0x10 * s
def R.ABA_SLOT_GSTART (n : Nat) (s : Nat) : Nat := 0x0600004 + 0x200 * n + 0x10 * s
def R.ABA_SLOT_GLEN (n : Nat) (s : Nat) : Nat := 0x0600008 + 0x200 * n + 0x10 * s
def R.ABA_CH_SCALE (n : Nat) : Nat := 0x0600100 + 0x200 * n
def R.ABA_CH_OFFSET (n : Nat) : Nat := 0x0600104 + 0x200 * n
def R.ABA_CH_LEVELS (n : Nat) : Nat := 0x0600108 + 0x200 * n
def R.ABA_GRP_DONE (g : Nat) : Nat := 0x0608000 + 0x40 * g
def R.ABA_GRP_STATUS (g : Nat) : Nat := 0x0608008 + 0x40 * g
def R.ABA_GRP_SKIP_CNT (g : Nat) : Nat := 0x060800C + 0x40 * g
def R.TAL_AVG_CTRL (g : Nat) : Nat := 0x0680000 + 0x40 * g
def R.TAL_AVG_OFF (g : Nat) : Nat := 0x0680004 + 0x40 * g
def R.TAL_AVG_LEN (g : Nat) : Nat := 0x0680008 + 0x40 * g
def R.TAL_AVG_BASE (g : Nat) : Nat := 0x068000C + 0x40 * g
def R.TAL_AVG_ACC (g : Nat) : Nat := 0x0680010 + 0x40 * g
def R.TAL_AVG_REJ_CNT (g : Nat) : Nat := 0x0680014 + 0x40 * g
def R.TAL_AVG_CMD (g : Nat) : Nat := 0x0680018 + 0x40 * g
def R.TAL_DB_SRC (d : Nat) : Nat := 0x0684000 + 0x40 * d
def R.TAL_DB_X (d : Nat) : Nat := 0x0684004 + 0x40 * d
def R.TAL_DB_XOFF (d : Nat) : Nat := 0x0684008 + 0x40 * d
def R.TAL_DB_DECAY (d : Nat) : Nat := 0x068400C + 0x40 * d
def R.TAL_DB_DECAY_PER (d : Nat) : Nat := 0x0684010 + 0x40 * d
def R.TAL_DB_SNAP (d : Nat) : Nat := 0x0684014 + 0x40 * d
def R.TAL_DB_CMD (d : Nat) : Nat := 0x0684018 + 0x40 * d
def R.TAL_DB_STATUS (d : Nat) : Nat := 0x068401C + 0x40 * d
def R.TAL_DB_WFM_CNT (d : Nat) : Nat := 0x0684020 + 0x40 * d
def R.TAL_DB_SKIP_CNT (d : Nat) : Nat := 0x0684024 + 0x40 * d
def R.TAL_RING_BASE : Nat := 0x0686000
def R.TAL_RING_SIZE : Nat := 0x0686004
def R.TAL_RING_LAST : Nat := 0x0686008
def R.TAL_RING_LOST_CNT : Nat := 0x068600C
def R.STO_STATUS : Nat := 0x0700000
def R.STO_CTICK : Nat := 0x0700004
def R.STO_BUDGET : Nat := 0x0700008
def R.STO_DEMAND : Nat := 0x070000C
def R.STO_SHADOW_DEMAND : Nat := 0x0700010
def R.STO_ACQ_DEMAND : Nat := 0x0700014
def R.STO_CAP : Nat := 0x0700018
def R.STO_DMA_RESERVE : Nat := 0x0700020
def R.STO_CAL_CAP : Nat := 0x0700024
def R.STO_GOV_WEIGHT : Nat := 0x0700028
def R.STO_STAGE : Nat := 0x0700030
def R.STO_DROP_CNT : Nat := 0x0700034
def R.STO_ECC_CE_CNT : Nat := 0x0700040
def R.STO_ECC_UE_CNT : Nat := 0x0700044
def R.STO_CRC_RETRY_CNT : Nat := 0x0700048
def R.STO_ECC_ADDR : Nat := 0x0700050
def R.STO_SCRUB_POS : Nat := 0x0700058
def R.STO_SCRUB_PASS_CNT : Nat := 0x070005C
def R.STO_REPAIR (s : Nat) : Nat := 0x0700060 + 0x4 * s
def R.STO_CLASS_GRANT (k : Nat) : Nat := 0x0700100 + 0x10 * k
def R.STO_CLASS_BACKLOG (k : Nat) : Nat := 0x0700104 + 0x10 * k
def R.STO_CLASS_STATE (k : Nat) : Nat := 0x0700108 + 0x10 * k
def R.STM_LG_MODE : Nat := 0x0800000
def R.STM_PORT_CTRL (p : Nat) : Nat := 0x0801000 + 0x40 * p
def R.STM_PORT_MAC (p : Nat) : Nat := 0x0801004 + 0x40 * p
def R.STM_PORT_IPV4 (p : Nat) : Nat := 0x080100C + 0x40 * p
def R.STM_PORT_IPV6 (p : Nat) (i : Nat) : Nat := 0x0801010 + 0x40 * p + 0x4 * i
def R.STM_PORT_STATUS (p : Nat) : Nat := 0x0801020 + 0x40 * p
def R.STM_PORT_RX_DROP_CNT (p : Nat) : Nat := 0x0801024 + 0x40 * p
def R.STM_PORT_FEC_UNCORR_CNT (p : Nat) : Nat := 0x0801028 + 0x40 * p
def R.STM_PORT_PAUSE_CNT (p : Nat) : Nat := 0x080102C + 0x40 * p
def R.STM_PORT_TX_FRAMES (p : Nat) : Nat := 0x0801030 + 0x40 * p
def R.STM_Q_CTRL (q : Nat) : Nat := 0x0810000 + 0x80 * q
def R.STM_Q_SEL (q : Nat) : Nat := 0x0810004 + 0x80 * q
def R.STM_Q_PORTS (q : Nat) (i : Nat) : Nat := 0x081000C + 0x80 * q + 0x4 * i
def R.STM_Q_DMAC (q : Nat) : Nat := 0x081001C + 0x80 * q
def R.STM_Q_DIP (q : Nat) (i : Nat) : Nat := 0x0810024 + 0x80 * q + 0x4 * i
def R.STM_Q_UDP (q : Nat) : Nat := 0x0810034 + 0x80 * q
def R.STM_Q_FRAME (q : Nat) : Nat := 0x0810038 + 0x80 * q
def R.STM_Q_TMARK (q : Nat) : Nat := 0x081003C + 0x80 * q
def R.STM_Q_STATUS (q : Nat) : Nat := 0x0810040 + 0x80 * q
def R.STM_Q_SEQ (q : Nat) : Nat := 0x0810044 + 0x80 * q
def R.STM_Q_BACKLOG (q : Nat) : Nat := 0x0810048 + 0x80 * q
def R.STM_Q_SKIP_CNT (q : Nat) : Nat := 0x081004C + 0x80 * q
def R.STM_Q_RESENT_CNT (q : Nat) : Nat := 0x0810050 + 0x80 * q
def R.STM_Q_POISON_CNT (q : Nat) : Nat := 0x0810054 + 0x80 * q
def R.GLOBAL_MBOX (i : Nat) : Nat := 0x0001000 + 0x4 * i
def R.DMA_CTRL : Nat := 0x0900000
def R.DMA_CTO : Nat := 0x0900004
def R.DMA_STATUS : Nat := 0x0900008
def R.DMA_UR_CNT : Nat := 0x090000C
def R.DMA_BAR2_BASE (f : Nat) : Nat := 0x0900100 + 0x4 * f
def R.DMA_Q_OWNER (q : Nat) : Nat := 0x0901000 + 0x4 * q
def R.DMA_QC_CTRL (q : Nat) : Nat := 0x0A00000 + 0x800 * q
def R.DMA_QC_HEAD (q : Nat) : Nat := 0x0A00008 + 0x800 * q
def R.DMA_QC_CMD (q : Nat) : Nat := 0x0A00010 + 0x800 * q
def R.DMA_QC_STATUS (q : Nat) : Nat := 0x0A00014 + 0x800 * q
def R.DMA_QC_DB_CNT (q : Nat) : Nat := 0x0A00018 + 0x800 * q
def R.DMA_QC_CUR (q : Nat) : Nat := 0x0A00020 + 0x800 * q
def R.DMA_QC_DONE_CNT (q : Nat) : Nat := 0x0A00028 + 0x800 * q
def R.DMA_QC_HOLD (q : Nat) : Nat := 0x0A0002C + 0x800 * q
def R.DMA_QC_REC (q : Nat) : Nat := 0x0A00030 + 0x800 * q
def R.DMA_QC_OFFSET (q : Nat) : Nat := 0x0A00038 + 0x800 * q
def R.DMA_QC_HOPS (q : Nat) : Nat := 0x0A0003C + 0x800 * q
def R.DMA_QC_SKIP_CNT (q : Nat) : Nat := 0x0A00040 + 0x800 * q
def R.DMA_QC_BYTES (q : Nat) : Nat := 0x0A00048 + 0x800 * q
def R.DISP_CTRL : Nat := 0x0E00000
def R.DISP_PCLK : Nat := 0x0E00004
def R.DISP_H : Nat := 0x0E00008
def R.DISP_HS : Nat := 0x0E0000C
def R.DISP_V : Nat := 0x0E00010
def R.DISP_VS : Nat := 0x0E00014
def R.DISP_PLOT_POS : Nat := 0x0E00020
def R.DISP_PLOT_SIZE : Nat := 0x0E00024
def R.DISP_BG : Nat := 0x0E00028
def R.DISP_LAYER (i : Nat) : Nat := 0x0E00040 + 0x4 * i
def R.DISP_LUT (j : Nat) : Nat := 0x0E00100 + 0x4 * j
def R.DISP_EVT : Nat := 0x0E00200
def R.DISP_STATUS : Nat := 0x0E00204
def R.DISP_UNDERRUN_CNT : Nat := 0x0E00208
def R.DISP_SIG : Nat := 0x0E0020C
def R.DISP_WATCH : Nat := 0x0E00210
def R.DISP_BFRAME : Nat := 0x0E00214
def R.DISP_VBLANK_LCNT : Nat := 0x0E00218
def R.DISP_FRAME_CNT : Nat := 0x0E00220
def R.CLK_CTRL : Nat := 0x0200000
def R.CLK_FCW_INT : Nat := 0x0200004
def R.CLK_FCW_FRAC : Nat := 0x0200008
def R.CLK_FCW_MOD : Nat := 0x020000C
def R.CLK_LOCK : Nat := 0x0200010
def R.CLK_LOCK_N : Nat := 0x0200014
def R.CLK_STATUS : Nat := 0x0200018
def R.CLK_BAND : Nat := 0x020001C
def R.CLK_PHERR : Nat := 0x0200020
def R.CLK_BYP_RATIO : Nat := 0x0200024
def R.CLK_LOSS_LCNT : Nat := 0x0200028
def R.CLK_SWITCH_CNT : Nat := 0x0200030
def R.CLK_SPUR (i : Nat) : Nat := 0x0200040 + 0x4 * i
def R.CLK_BTAB_FCW (i : Nat) : Nat := 0x0200100 + 0x10 * i
def R.CLK_BTAB_FRAC (i : Nat) : Nat := 0x0200104 + 0x10 * i
def R.CLK_BTAB_MOD (i : Nat) : Nat := 0x0200108 + 0x10 * i
def R.CLK_BTAB_BAND (i : Nat) : Nat := 0x020010C + 0x10 * i
def R.CLK_OUT_CTRL (k : Nat) : Nat := 0x0200200 + 0x10 * k
def R.CLK_OUT_DIV (k : Nat) : Nat := 0x0200204 + 0x10 * k
def R.CLK_OUT_DELAY (k : Nat) : Nat := 0x0200208 + 0x10 * k
def R.CLK_OUT_PULSE (k : Nat) : Nat := 0x0200300 + 0x8 * k
def R.TIME_CTRL : Nat := 0x0C00000
def R.TIME_STATUS : Nat := 0x0C00004
def R.TIME_LCNT : Nat := 0x0C00008
def R.TIME_SNAP_CMD : Nat := 0x0C00040
def R.TIME_SNAP : Nat := 0x0C00044
def R.TIME_HIST (i : Nat) : Nat := 0x0C01000 + 0x20 * i
def R.TIME_STAGE : Nat := 0x0C00080
def R.TIME_STAGE_CMD : Nat := 0x0C000A8
def R.TIME_SERVO : Nat := 0x0C000C0
def R.TIME_JUMP_MAX : Nat := 0x0C000C4
def R.TIME_EPOCH_MIN : Nat := 0x0C000C8
def R.TIME_THETA : Nat := 0x0C000D0
def R.TIME_RATE : Nat := 0x0C000D4
def R.TIME_REFUSED_CNT : Nat := 0x0C000D8
def R.TIME_PTP_CTRL : Nat := 0x0C00100
def R.TIME_PTP_INTV : Nat := 0x0C00104
def R.TIME_PTP_ID : Nat := 0x0C00108
def R.TIME_UTC : Nat := 0x0C00110
def R.TIME_PTP_PORT (p : Nat) : Nat := 0x0C00200 + 0x4 * p
def R.TIME_TXQ : Nat := 0x0C00400
def R.TIME_TXQ_DROP_CNT : Nat := 0x0C00418
def R.EVT_IN_CTRL (k : Nat) : Nat := 0x0C80000 + 0x100 * k
def R.EVT_IN_PRESCALE (k : Nat) : Nat := 0x0C80004 + 0x100 * k
def R.EVT_IN_SPACE (k : Nat) : Nat := 0x0C80008 + 0x100 * k
def R.EVT_IN_GATE (k : Nat) : Nat := 0x0C8000C + 0x100 * k
def R.EVT_IN_NSTAT (k : Nat) : Nat := 0x0C80014 + 0x100 * k
def R.EVT_IN_CMD (k : Nat) : Nat := 0x0C80018 + 0x100 * k
def R.EVT_IN_STATUS (k : Nat) : Nat := 0x0C8001C + 0x100 * k
def R.EVT_IN_EDGE_CNT (k : Nat) : Nat := 0x0C80020 + 0x100 * k
def R.EVT_IN_LOST_CNT (k : Nat) : Nat := 0x0C80028 + 0x100 * k
def R.EVT_IN_OVR_CNT (k : Nat) : Nat := 0x0C8002C + 0x100 * k
def R.EVT_DELAY (k : Nat) : Nat := 0x0C80030 + 0x100 * k
def R.EVT_INT_CAL (k : Nat) (i : Nat) : Nat := 0x0C80034 + 0x100 * k + 0x4 * i
def R.EVT_IN_RING (k : Nat) : Nat := 0x0C8003C + 0x100 * k
def R.EVT_RES (k : Nat) : Nat := 0x0C80040 + 0x100 * k
def R.CAL_CTRL : Nat := 0x0D00000
def R.CAL_CALV : Nat := 0x0D00004
def R.CAL_FG_MAX_DEFER : Nat := 0x0D00008
def R.CAL_DRIFT : Nat := 0x0D0000C
def R.CAL_SCHED : Nat := 0x0D00010
def R.CAL_CAP_BASE : Nat := 0x0D00014
def R.CAL_FG_CH : Nat := 0x0D00020
def R.CAL_FG_PROC : Nat := 0x0D00028
def R.CAL_FG_CMD : Nat := 0x0D0002C
def R.CAL_STATUS : Nat := 0x0D00030
def R.CAL_EPOCH : Nat := 0x0D00034
def R.CAL_SEQ : Nat := 0x0D00038
def R.CAL_DIE_SRC : Nat := 0x0D0003C
def R.CAL_RUN_LCNT : Nat := 0x0D00040
def R.CAL_DRIFT_STATUS : Nat := 0x0D00050
def R.CAL_TEMP_REF (k : Nat) : Nat := 0x0D00054 + 0x4 * k
def R.CAL_CH_STATUS (n : Nat) : Nat := 0x0D10000 + 0x40 * n
def R.CAL_Q_OFS (n : Nat) : Nat := 0x0D10004 + 0x40 * n
def R.CAL_Q_GAIN (n : Nat) : Nat := 0x0D10008 + 0x40 * n
def R.CAL_Q_SPUR (n : Nat) : Nat := 0x0D1000C + 0x40 * n
def R.CAL_Q_SKEW (n : Nat) : Nat := 0x0D10010 + 0x40 * n
def R.CAL_Q_ENOB (n : Nat) : Nat := 0x0D10014 + 0x40 * n
def R.CAL_Q_INT (ch : Nat) (i : Nat) : Nat := 0x0D20000 + 0x40 * ch + 0x4 * i
def R.CAL_Q_EVT (j : Nat) : Nat := 0x0D21000 + 0x4 * j
def R.SVC_CTRL : Nat := 0x0D80000
def R.SVC_STATUS : Nat := 0x0D80004
def R.SVC_CMD : Nat := 0x0D80008
def R.SVC_EXC_TOTAL : Nat := 0x0D8000C
def R.SVC_MON_TOL : Nat := 0x0D80010
def R.SVC_MON_CYCLE : Nat := 0x0D80014
def R.SVC_MON_LCNT : Nat := 0x0D80018
def R.SVC_MON_DIE (i : Nat) : Nat := 0x0D80020 + 0x4 * i
def R.SVC_RLY : Nat := 0x0D80040
def R.SVC_RLY_SAFE : Nat := 0x0D80044
def R.SVC_RLY_OC : Nat := 0x0D80048
def R.SVC_RLY_OPEN : Nat := 0x0D8004C
def R.SVC_LINK_ERR_CNT : Nat := 0x0D80050
def R.SVC_OFS_CODE (n : Nat) : Nat := 0x0D90000 + 0x40 * n
def R.SVC_EXC_CTRL (n : Nat) : Nat := 0x0D90004 + 0x40 * n
def R.SVC_OUT_STATUS (n : Nat) : Nat := 0x0D90008 + 0x40 * n
def R.SVC_EXC_CMD (n : Nat) : Nat := 0x0D9000C + 0x40 * n
def R.SVC_MON_OFS (n : Nat) : Nat := 0x0D90010 + 0x40 * n
def R.SVC_MON_EXC_I (n : Nat) : Nat := 0x0D90014 + 0x40 * n
def R.SVC_MON_EXC_V (n : Nat) : Nat := 0x0D90018 + 0x40 * n
def R.CFG_STATUS : Nat := 0x0010000
def R.CFG_COMMIT : Nat := 0x0010004
def R.CFG_CMD : Nat := 0x0010008
def R.CFG_RESULT : Nat := 0x001000C
def R.CFG_REASONS : Nat := 0x0010010
def R.CFG_APPLY_LCNT : Nat := 0x0010018
def R.CFG_AT_LCNT : Nat := 0x0010020
def R.CFG_REC_MAX : Nat := 0x0010028
def R.CFG_VIEW : Nat := 0x001002C
def R.CFG_POLICY : Nat := 0x0010030
def R.CFG_SEQ : Nat := 0x0010034
def R.CFG_WR_IGN_CNT : Nat := 0x0010038
def R.CFG_VEC : Nat := 0x001003C
def R.CFG_IMAGE : Nat := 0x0010040
def R.CFG_FLASH_CTRL : Nat := 0x0010100
def R.CFG_FLASH_ADDR : Nat := 0x0010104
def R.CFG_FLASH_CMD : Nat := 0x0010108
def R.CFG_FLASH_STATUS : Nat := 0x001010C
def R.CFG_FLASH_BUF (i : Nat) : Nat := 0x0011000 + 0x4 * i
def R.GLOBAL_RESET : Nat := 0x0000100
def R.GLOBAL_GRP_RESET : Nat := 0x0000104
def R.GLOBAL_RESET_CAUSE : Nat := 0x0000108
def R.GLOBAL_PWR_CYCLES : Nat := 0x000010C
def R.GLOBAL_KEEP_SEC : Nat := 0x0000110
def R.GLOBAL_WAKE_SEC : Nat := 0x0000118
def R.GLOBAL_WAKE_CTRL : Nat := 0x0000120
def R.GLOBAL_SUPPLY : Nat := 0x0000130
def R.GLOBAL_SUPPLY_WARN_CNT : Nat := 0x0000134
def R.GLOBAL_SUPPLY_CHECK_CNT : Nat := 0x0000138
def R.GLOBAL_SELFTEST : Nat := 0x0000140
def R.GLOBAL_RESUME_LCNT : Nat := 0x0000148
def R.LOG_CTRL : Nat := 0x0F00000
def R.LOG_STATUS : Nat := 0x0F00004
def R.LOG_CMD : Nat := 0x0F00008
def R.LOG_WR_SEQ : Nat := 0x0F0000C
def R.LOG_OVF_CNT : Nat := 0x0F00010
def R.LOG_SUPPR_CNT : Nat := 0x0F00014
def R.LOG_NEST_CNT : Nat := 0x0F00018
def R.LOG_STORE : Nat := 0x0F0001C
def R.LOG_RD_SEQ : Nat := 0x0F00020
def R.LOG_RD : Nat := 0x0F00040
def R.LOG_FIRST : Nat := 0x0F00080
def R.LOG_LAST_ERR : Nat := 0x0F000C0
def R.LOG_CLASS (a : Nat) (w : Nat) : Nat := 0x0F01000 + 0x40 * a + 0x4 * w
def R.TWIN_CTRL : Nat := 0x0F80000
def R.TWIN_STATUS : Nat := 0x0F80004
def R.TWIN_PEER : Nat := 0x0F80008
def R.TWIN_LINK_DELAY : Nat := 0x0F8000C
def R.TWIN_TAKEOVER_LCNT : Nat := 0x0F80010
def R.TWIN_CMD : Nat := 0x0F80018
def R.TWIN_HB_MISS_CNT : Nat := 0x0F8001C
def R.TWIN_CRC_ERR_CNT : Nat := 0x0F80020

/-! Fields. -/

def F.GLOBAL_ID_PART : Fld := ⟨0x0000000, 31, 16⟩
def F.GLOBAL_ID_STEPPING : Fld := ⟨0x0000000, 15, 8⟩
def F.GLOBAL_STATE_NODE : Fld := ⟨0x0000004, 31, 24⟩
def F.GLOBAL_STATE_PHASE : Fld := ⟨0x0000004, 11, 8⟩
def F.GLOBAL_STATE_HOST_POLICY : Fld := ⟨0x0000004, 6, 6⟩
def F.GLOBAL_STATE_SHADOW_PENDING : Fld := ⟨0x0000004, 5, 5⟩
def F.GLOBAL_STATE_TWIN_PAIRED : Fld := ⟨0x0000004, 4, 4⟩
def F.GLOBAL_STATE_DEGRADED : Fld := ⟨0x0000004, 3, 3⟩
def F.GLOBAL_STATE_CAL_DEFAULTED : Fld := ⟨0x0000004, 2, 2⟩
def F.GLOBAL_STATE_IMAGE_SLOT : Fld := ⟨0x0000004, 1, 1⟩
def F.GLOBAL_STATE_IMAGE_VALID : Fld := ⟨0x0000004, 0, 0⟩
def F.CONV_MODE_PAIR : Fld := ⟨0x0100000, 23, 0⟩
def F.CONV_ROT_CTRL_EN : Fld := ⟨0x0100010, 31, 31⟩
def F.CONV_ROT_CTRL_MAX_DEFER : Fld := ⟨0x0100010, 7, 0⟩
def F.CONV_ROT_PERIOD_PERIOD : Fld := ⟨0x0100014, 31, 0⟩
def F.CONV_FENCE_REGION_REGION : Fld := ⟨0x0100020, 11, 0⟩
def F.CONV_FENCE_DIE_DIE : Fld := ⟨0x0100024, 5, 0⟩
def F.CONV_CH_CTRL_ROT_HOLD (n : Nat) : Fld := ⟨0x0101000 + 0x100 * n, 1, 1⟩
def F.CONV_CH_CTRL_CORR_OFF (n : Nat) : Fld := ⟨0x0101000 + 0x100 * n, 0, 0⟩
def F.CONV_CH_STATUS_SPARE_POS (n : Nat) : Fld := ⟨0x0101004 + 0x100 * n, 31, 24⟩
def F.CONV_CH_STATUS_NEXT_SLOT (n : Nat) : Fld := ⟨0x0101004 + 0x100 * n, 23, 16⟩
def F.CONV_CH_STATUS_OVLD (n : Nat) : Fld := ⟨0x0101004 + 0x100 * n, 7, 7⟩
def F.CONV_CH_STATUS_NBR_SEEN (n : Nat) : Fld := ⟨0x0101004 + 0x100 * n, 6, 6⟩
def F.CONV_CH_STATUS_OVR_SEEN (n : Nat) : Fld := ⟨0x0101004 + 0x100 * n, 5, 5⟩
def F.CONV_CH_STATUS_ROT_FORCED (n : Nat) : Fld := ⟨0x0101004 + 0x100 * n, 4, 4⟩
def F.CONV_CH_STATUS_NO_SPARE (n : Nat) : Fld := ⟨0x0101004 + 0x100 * n, 3, 3⟩
def F.CONV_CH_STATUS_PAIRED (n : Nat) : Fld := ⟨0x0101004 + 0x100 * n, 2, 2⟩
def F.CONV_CH_STATUS_FENCED (n : Nat) : Fld := ⟨0x0101004 + 0x100 * n, 1, 1⟩
def F.CONV_CH_STATUS_PRESENT (n : Nat) : Fld := ⟨0x0101004 + 0x100 * n, 0, 0⟩
def F.CONV_OVR_CNT_COUNT (n : Nat) : Fld := ⟨0x0101008 + 0x100 * n, 31, 0⟩
def F.CONV_NBR_CNT_COUNT (n : Nat) : Fld := ⟨0x010100C + 0x100 * n, 31, 0⟩
def F.CONV_ROT_STEPS_COUNT (n : Nat) : Fld := ⟨0x0101010 + 0x100 * n, 31, 0⟩
def F.CONV_ROT_FORCED_CNT_COUNT (n : Nat) : Fld := ⟨0x0101014 + 0x100 * n, 31, 0⟩
def F.CONV_ROT_DUE_TICKS (n : Nat) : Fld := ⟨0x0101018 + 0x100 * n, 31, 8⟩
def F.CONV_ROT_DUE_DEFERRED (n : Nat) : Fld := ⟨0x0101018 + 0x100 * n, 7, 0⟩
def F.CONV_COEF_VALUE (n : Nat) (p : Nat) (i : Nat) : Fld := ⟨0x0110000 + 0x2000 * n + 0x40 * p + 0x4 * i, 17, 0⟩
def F.FLT_CH_CFG_HB_STAGES (n : Nat) : Fld := ⟨0x0300000 + 0x1000 * n, 12, 10⟩
def F.FLT_CH_CFG_FREEZE_OVR (n : Nat) : Fld := ⟨0x0300000 + 0x1000 * n, 9, 9⟩
def F.FLT_CH_CFG_DC_EN (n : Nat) : Fld := ⟨0x0300000 + 0x1000 * n, 8, 8⟩
def F.FLT_CH_CFG_FIR_MODE (n : Nat) : Fld := ⟨0x0300000 + 0x1000 * n, 7, 7⟩
def F.FLT_CH_CFG_FIR_EN (n : Nat) : Fld := ⟨0x0300000 + 0x1000 * n, 6, 6⟩
def F.FLT_CH_CFG_EQ_EN (n : Nat) : Fld := ⟨0x0300000 + 0x1000 * n, 5, 5⟩
def F.FLT_CH_CFG_WIDTH (n : Nat) : Fld := ⟨0x0300000 + 0x1000 * n, 3, 2⟩
def F.FLT_CH_CFG_MODE (n : Nat) : Fld := ⟨0x0300000 + 0x1000 * n, 1, 0⟩
def F.FLT_CH_DEC_RB_M1 (n : Nat) : Fld := ⟨0x0300004 + 0x1000 * n, 27, 16⟩
def F.FLT_CH_DEC_RA_M1 (n : Nat) : Fld := ⟨0x0300004 + 0x1000 * n, 11, 0⟩
def F.FLT_CH_TAPS_DC_K (n : Nat) : Fld := ⟨0x0300008 + 0x1000 * n, 20, 16⟩
def F.FLT_CH_TAPS_FIR_LEN (n : Nat) : Fld := ⟨0x0300008 + 0x1000 * n, 6, 0⟩
def F.FLT_CH_EQ_DELAY_DELAY (n : Nat) : Fld := ⟨0x030000C + 0x1000 * n, 12, 0⟩
def F.FLT_CH_FIR_DELAY_DELAY (n : Nat) : Fld := ⟨0x0300010 + 0x1000 * n, 14, 0⟩
def F.FLT_CH_DC_FREEZE (n : Nat) : Fld := ⟨0x0300014 + 0x1000 * n, 0, 0⟩
def F.FLT_CH_DC_INIT_VALUE (n : Nat) : Fld := ⟨0x0300018 + 0x1000 * n, 31, 0⟩
def F.FLT_CH_DC_EST_VALUE (n : Nat) : Fld := ⟨0x030001C + 0x1000 * n, 31, 0⟩
def F.FLT_CH_DTOT_D_M1 (n : Nat) : Fld := ⟨0x0300030 + 0x1000 * n, 29, 0⟩
def F.FLT_CH_STATUS_DC_FROZEN (n : Nat) : Fld := ⟨0x0300034 + 0x1000 * n, 2, 2⟩
def F.FLT_CH_STATUS_SAT_SEEN (n : Nat) : Fld := ⟨0x0300034 + 0x1000 * n, 1, 1⟩
def F.FLT_CH_STATUS_RESTARTED (n : Nat) : Fld := ⟨0x0300034 + 0x1000 * n, 0, 0⟩
def F.FLT_SAT_CNT_COUNT (n : Nat) : Fld := ⟨0x0300038 + 0x1000 * n, 31, 0⟩
def F.FLT_EQ_COEF_VALUE (n : Nat) (i : Nat) : Fld := ⟨0x0300100 + 0x1000 * n + 0x4 * i, 19, 0⟩
def F.FLT_FIR_COEF_VALUE (n : Nat) (i : Nat) : Fld := ⟨0x0300200 + 0x1000 * n + 0x4 * i, 23, 0⟩
def F.FLT_HB_COEF_VALUE (i : Nat) : Fld := ⟨0x0340000 + 0x4 * i, 23, 0⟩
def F.TRG_AC_CTRL_HYST (n : Nat) : Fld := ⟨0x0400100 + 0x40 * n, 15, 8⟩
def F.TRG_AC_CTRL_EN (n : Nat) : Fld := ⟨0x0400100 + 0x40 * n, 0, 0⟩
def F.TRG_AC_STATUS_INT_B (n : Nat) : Fld := ⟨0x0400104 + 0x40 * n, 15, 12⟩
def F.TRG_AC_STATUS_INT_A (n : Nat) : Fld := ⟨0x0400104 + 0x40 * n, 11, 8⟩
def F.TRG_AC_STATUS_COARSE_SEEN (n : Nat) : Fld := ⟨0x0400104 + 0x40 * n, 3, 3⟩
def F.TRG_AC_STATUS_SINGLE (n : Nat) : Fld := ⟨0x0400104 + 0x40 * n, 2, 2⟩
def F.TRG_AC_STATUS_FENCED (n : Nat) : Fld := ⟨0x0400104 + 0x40 * n, 1, 1⟩
def F.TRG_AC_STATUS_STATE (n : Nat) : Fld := ⟨0x0400104 + 0x40 * n, 0, 0⟩
def F.TRG_AC_CROSS_CNT_COUNT (n : Nat) : Fld := ⟨0x0400108 + 0x40 * n, 31, 0⟩
def F.TRG_LEVEL_LEVEL (n : Nat) : Fld := ⟨0x0400120 + 0x40 * n, 11, 0⟩
def F.TRG_AC_DELAY_DELAY (n : Nat) : Fld := ⟨0x0400124 + 0x40 * n, 15, 0⟩
def F.TRG_DC_CTRL_SRC (m : Nat) : Fld := ⟨0x0405000 + 0x20 * m, 1, 1⟩
def F.TRG_DC_CTRL_EN (m : Nat) : Fld := ⟨0x0405000 + 0x20 * m, 0, 0⟩
def F.TRG_DC_LEVEL_LEVEL (m : Nat) : Fld := ⟨0x0405004 + 0x20 * m, 23, 0⟩
def F.TRG_DC_HYST_HYST (m : Nat) : Fld := ⟨0x0405008 + 0x20 * m, 23, 0⟩
def F.TRG_GRP_CTRL_TYPE (g : Nat) : Fld := ⟨0x0408008 + 0x100 * g, 27, 24⟩
def F.TRG_GRP_CTRL_SLOPE_A (g : Nat) : Fld := ⟨0x0408008 + 0x100 * g, 23, 22⟩
def F.TRG_GRP_CTRL_SLOPE_B (g : Nat) : Fld := ⟨0x0408008 + 0x100 * g, 21, 20⟩
def F.TRG_GRP_CTRL_WCOND (g : Nat) : Fld := ⟨0x0408008 + 0x100 * g, 19, 18⟩
def F.TRG_GRP_CTRL_WQUAL (g : Nat) : Fld := ⟨0x0408008 + 0x100 * g, 17, 17⟩
def F.TRG_GRP_CTRL_PCOMB (g : Nat) : Fld := ⟨0x0408008 + 0x100 * g, 16, 16⟩
def F.TRG_GRP_CTRL_HOLD_MODE (g : Nat) : Fld := ⟨0x0408008 + 0x100 * g, 15, 14⟩
def F.TRG_GRP_CTRL_PRE_WAIT (g : Nat) : Fld := ⟨0x0408008 + 0x100 * g, 13, 13⟩
def F.TRG_GRP_SRC_SRC_B (g : Nat) : Fld := ⟨0x040800C + 0x100 * g, 25, 16⟩
def F.TRG_GRP_SRC_SRC_A (g : Nat) : Fld := ⟨0x040800C + 0x100 * g, 9, 0⟩
def F.TRG_GRP_HOLD_EVT_HOLD_EVT (g : Nat) : Fld := ⟨0x0408028 + 0x100 * g, 23, 0⟩
def F.TRG_GRP_PSRC_SLOT_HI (g : Nat) (i : Nat) : Fld := ⟨0x0408030 + 0x100 * g + 0x4 * i, 25, 16⟩
def F.TRG_GRP_PSRC_SLOT_LO (g : Nat) (i : Nat) : Fld := ⟨0x0408030 + 0x100 * g + 0x4 * i, 9, 0⟩
def F.TRG_GRP_PVAL_CARE (g : Nat) : Fld := ⟨0x0408050 + 0x100 * g, 31, 16⟩
def F.TRG_GRP_PVAL_VALUE (g : Nat) : Fld := ⟨0x0408050 + 0x100 * g, 15, 0⟩
def F.TRG_GRP_CMD_FORCE (g : Nat) : Fld := ⟨0x0408060 + 0x100 * g, 2, 2⟩
def F.TRG_GRP_CMD_STOP (g : Nat) : Fld := ⟨0x0408060 + 0x100 * g, 1, 1⟩
def F.TRG_GRP_CMD_ARM (g : Nat) : Fld := ⟨0x0408060 + 0x100 * g, 0, 0⟩
def F.TRG_GRP_STATUS_STATE (g : Nat) : Fld := ⟨0x0408064 + 0x100 * g, 31, 28⟩
def F.TRG_GRP_STATUS_FORCE_LOST (g : Nat) : Fld := ⟨0x0408064 + 0x100 * g, 3, 3⟩
def F.TRG_GRP_STATUS_COARSE_SEEN (g : Nat) : Fld := ⟨0x0408064 + 0x100 * g, 2, 2⟩
def F.TRG_GRP_STATUS_SRC_HELD (g : Nat) : Fld := ⟨0x0408064 + 0x100 * g, 1, 1⟩
def F.TRG_GRP_STATUS_SRC_FENCED (g : Nat) : Fld := ⟨0x0408064 + 0x100 * g, 0, 0⟩
def F.TRG_GRP_LATENCY_L_DEC (g : Nat) : Fld := ⟨0x0408068 + 0x100 * g, 31, 0⟩
def F.TRG_GRP_LAST_FINE_FINE (g : Nat) : Fld := ⟨0x0408080 + 0x100 * g, 15, 0⟩
def F.TRG_GRP_ACCEPT_CNT_COUNT (g : Nat) : Fld := ⟨0x0408084 + 0x100 * g, 31, 0⟩
def F.TRG_GRP_MISSED_CNT_COUNT (g : Nat) : Fld := ⟨0x0408088 + 0x100 * g, 31, 0⟩
def F.TRG_GRP_HELD_CNT_COUNT (g : Nat) : Fld := ⟨0x040808C + 0x100 * g, 31, 0⟩
def F.TRG_INT_CAL_FAILED (ch : Nat) (i : Nat) : Fld := ⟨0x040A000 + 0x40 * ch + 0x4 * i, 31, 31⟩
def F.TRG_INT_CAL_IN_USE (ch : Nat) (i : Nat) : Fld := ⟨0x040A000 + 0x40 * ch + 0x4 * i, 30, 30⟩
def F.TRG_INT_CAL_N2 (ch : Nat) (i : Nat) : Fld := ⟨0x040A000 + 0x40 * ch + 0x4 * i, 27, 16⟩
def F.TRG_INT_CAL_N1 (ch : Nat) (i : Nat) : Fld := ⟨0x040A000 + 0x40 * ch + 0x4 * i, 11, 0⟩
def F.REC_GRP_CTRL_SEG_M1 (g : Nat) : Fld := ⟨0x0500000 + 0x100 * g, 31, 8⟩
def F.REC_GRP_CTRL_POLICY (g : Nat) : Fld := ⟨0x0500000 + 0x100 * g, 7, 6⟩
def F.REC_GRP_CTRL_LENS_EN (g : Nat) : Fld := ⟨0x0500000 + 0x100 * g, 5, 5⟩
def F.REC_GRP_CTRL_RESTART (g : Nat) : Fld := ⟨0x0500000 + 0x100 * g, 4, 4⟩
def F.REC_GRP_CTRL_MODE (g : Nat) : Fld := ⟨0x0500000 + 0x100 * g, 1, 0⟩
def F.REC_GRP_LEN_LEN (g : Nat) : Fld := ⟨0x0500004 + 0x100 * g, 31, 0⟩
def F.REC_GRP_PRE_PRE (g : Nat) : Fld := ⟨0x0500008 + 0x100 * g, 31, 0⟩
def F.REC_GRP_LENS_LENS_OFF (g : Nat) : Fld := ⟨0x050000C + 0x100 * g, 31, 16⟩
def F.REC_GRP_LENS_LENS_LEN_M1 (g : Nat) : Fld := ⟨0x050000C + 0x100 * g, 15, 0⟩
def F.REC_GRP_RING_BASE_PAGE (g : Nat) : Fld := ⟨0x0500010 + 0x100 * g, 20, 0⟩
def F.REC_GRP_RING_SIZE_PIN_MAX (g : Nat) : Fld := ⟨0x0500014 + 0x100 * g, 31, 24⟩
def F.REC_GRP_RING_SIZE_PAGES (g : Nat) : Fld := ⟨0x0500014 + 0x100 * g, 20, 0⟩
def F.REC_GRP_GAP_RING_PAGES (g : Nat) : Fld := ⟨0x0500018 + 0x100 * g, 31, 24⟩
def F.REC_GRP_GAP_RING_PAGE (g : Nat) : Fld := ⟨0x0500018 + 0x100 * g, 20, 0⟩
def F.REC_GRP_IMAGE_IMG_PAGES (g : Nat) : Fld := ⟨0x0500030 + 0x100 * g, 20, 0⟩
def F.REC_GRP_OLDEST_EMPTY (g : Nat) : Fld := ⟨0x0500034 + 0x100 * g, 31, 31⟩
def F.REC_GRP_OLDEST_LPAGE (g : Nat) : Fld := ⟨0x0500034 + 0x100 * g, 20, 0⟩
def F.REC_GRP_PMAP_ADDR (g : Nat) : Fld := ⟨0x0500038 + 0x100 * g, 31, 0⟩
def F.REC_GRP_CMD_RELEASE (g : Nat) : Fld := ⟨0x050003C + 0x100 * g, 0, 0⟩
def F.REC_GRP_STATUS_PINNED (g : Nat) : Fld := ⟨0x0500040 + 0x100 * g, 31, 16⟩
def F.REC_GRP_STATUS_GAP_OVF (g : Nat) : Fld := ⟨0x0500040 + 0x100 * g, 4, 4⟩
def F.REC_GRP_STATUS_STOPPED_FULL (g : Nat) : Fld := ⟨0x0500040 + 0x100 * g, 3, 3⟩
def F.REC_GRP_STATUS_WRAPPED (g : Nat) : Fld := ⟨0x0500040 + 0x100 * g, 2, 2⟩
def F.REC_GRP_STATUS_GAP_OPEN (g : Nat) : Fld := ⟨0x0500040 + 0x100 * g, 1, 1⟩
def F.REC_GRP_STATUS_PRESSURE (g : Nat) : Fld := ⟨0x0500040 + 0x100 * g, 0, 0⟩
def F.REC_GRP_WRAP_CNT_COUNT (g : Nat) : Fld := ⟨0x0500044 + 0x100 * g, 31, 0⟩
def F.REC_GRP_GAP_OVF_CNT_COUNT (g : Nat) : Fld := ⟨0x0500048 + 0x100 * g, 31, 0⟩
def F.ABA_SLOT_CTRL_SRC (n : Nat) (s : Nat) : Fld := ⟨0x0600000 + 0x200 * n + 0x10 * s, 8, 8⟩
def F.ABA_SLOT_CTRL_MEAS (n : Nat) (s : Nat) : Fld := ⟨0x0600000 + 0x200 * n + 0x10 * s, 4, 0⟩
def F.ABA_SLOT_GSTART_START (n : Nat) (s : Nat) : Fld := ⟨0x0600004 + 0x200 * n + 0x10 * s, 31, 0⟩
def F.ABA_SLOT_GLEN_LEN (n : Nat) (s : Nat) : Fld := ⟨0x0600008 + 0x200 * n + 0x10 * s, 31, 0⟩
def F.ABA_CH_SCALE_SCALE (n : Nat) : Fld := ⟨0x0600100 + 0x200 * n, 31, 0⟩
def F.ABA_CH_OFFSET_OFFSET (n : Nat) : Fld := ⟨0x0600104 + 0x200 * n, 31, 0⟩
def F.ABA_CH_LEVELS_HI (n : Nat) : Fld := ⟨0x0600108 + 0x200 * n, 29, 20⟩
def F.ABA_CH_LEVELS_MID (n : Nat) : Fld := ⟨0x0600108 + 0x200 * n, 19, 10⟩
def F.ABA_CH_LEVELS_LO (n : Nat) : Fld := ⟨0x0600108 + 0x200 * n, 9, 0⟩
def F.ABA_GRP_STATUS_PENDING (g : Nat) : Fld := ⟨0x0608008 + 0x40 * g, 14, 8⟩
def F.ABA_GRP_STATUS_SKIPPED (g : Nat) : Fld := ⟨0x0608008 + 0x40 * g, 1, 1⟩
def F.ABA_GRP_STATUS_BUSY (g : Nat) : Fld := ⟨0x0608008 + 0x40 * g, 0, 0⟩
def F.ABA_GRP_SKIP_CNT_COUNT (g : Nat) : Fld := ⟨0x060800C + 0x40 * g, 31, 0⟩
def F.TAL_AVG_CTRL_EN (g : Nat) : Fld := ⟨0x0680000 + 0x40 * g, 31, 31⟩
def F.TAL_AVG_CTRL_REJECT_OVR (g : Nat) : Fld := ⟨0x0680000 + 0x40 * g, 30, 30⟩
def F.TAL_AVG_CTRL_AUTO (g : Nat) : Fld := ⟨0x0680000 + 0x40 * g, 29, 29⟩
def F.TAL_AVG_CTRL_FORMAT (g : Nat) : Fld := ⟨0x0680000 + 0x40 * g, 28, 28⟩
def F.TAL_AVG_CTRL_COUNT_M1 (g : Nat) : Fld := ⟨0x0680000 + 0x40 * g, 23, 0⟩
def F.TAL_AVG_OFF_OFF (g : Nat) : Fld := ⟨0x0680004 + 0x40 * g, 31, 0⟩
def F.TAL_AVG_LEN_LEN (g : Nat) : Fld := ⟨0x0680008 + 0x40 * g, 20, 0⟩
def F.TAL_AVG_BASE_PAGE (g : Nat) : Fld := ⟨0x068000C + 0x40 * g, 20, 0⟩
def F.TAL_AVG_ACC_COUNT (g : Nat) : Fld := ⟨0x0680010 + 0x40 * g, 24, 0⟩
def F.TAL_AVG_REJ_CNT_COUNT (g : Nat) : Fld := ⟨0x0680014 + 0x40 * g, 31, 0⟩
def F.TAL_AVG_CMD_RESTART (g : Nat) : Fld := ⟨0x0680018 + 0x40 * g, 0, 0⟩
def F.TAL_DB_SRC_EN (d : Nat) : Fld := ⟨0x0684000 + 0x40 * d, 31, 31⟩
def F.TAL_DB_SRC_GROUP (d : Nat) : Fld := ⟨0x0684000 + 0x40 * d, 19, 16⟩
def F.TAL_DB_SRC_CH (d : Nat) : Fld := ⟨0x0684000 + 0x40 * d, 5, 0⟩
def F.TAL_DB_X_XDEC_M1 (d : Nat) : Fld := ⟨0x0684004 + 0x40 * d, 15, 0⟩
def F.TAL_DB_XOFF_XOFF (d : Nat) : Fld := ⟨0x0684008 + 0x40 * d, 31, 0⟩
def F.TAL_DB_DECAY_MODE (d : Nat) : Fld := ⟨0x068400C + 0x40 * d, 31, 30⟩
def F.TAL_DB_DECAY_STEP (d : Nat) : Fld := ⟨0x068400C + 0x40 * d, 15, 0⟩
def F.TAL_DB_DECAY_PER_TICKS (d : Nat) : Fld := ⟨0x0684010 + 0x40 * d, 31, 0⟩
def F.TAL_DB_SNAP_TICKS (d : Nat) : Fld := ⟨0x0684014 + 0x40 * d, 31, 0⟩
def F.TAL_DB_CMD_SNAP (d : Nat) : Fld := ⟨0x0684018 + 0x40 * d, 1, 1⟩
def F.TAL_DB_CMD_CLEAR (d : Nat) : Fld := ⟨0x0684018 + 0x40 * d, 0, 0⟩
def F.TAL_DB_STATUS_SAT (d : Nat) : Fld := ⟨0x068401C + 0x40 * d, 2, 2⟩
def F.TAL_DB_STATUS_COPYING (d : Nat) : Fld := ⟨0x068401C + 0x40 * d, 1, 1⟩
def F.TAL_DB_STATUS_DECAYING (d : Nat) : Fld := ⟨0x068401C + 0x40 * d, 0, 0⟩
def F.TAL_DB_WFM_CNT_COUNT (d : Nat) : Fld := ⟨0x0684020 + 0x40 * d, 31, 0⟩
def F.TAL_DB_SKIP_CNT_COUNT (d : Nat) : Fld := ⟨0x0684024 + 0x40 * d, 31, 0⟩
def F.TAL_RING_BASE_PAGE : Fld := ⟨0x0686000, 20, 0⟩
def F.TAL_RING_SIZE_PAGES : Fld := ⟨0x0686004, 20, 0⟩
def F.TAL_RING_LAST_EMPTY : Fld := ⟨0x0686008, 31, 31⟩
def F.TAL_RING_LAST_LPAGE : Fld := ⟨0x0686008, 20, 0⟩
def F.TAL_RING_LOST_CNT_COUNT : Fld := ⟨0x068600C, 31, 0⟩
def F.STO_STATUS_FAIL_PENDING : Fld := ⟨0x0700000, 7, 7⟩
def F.STO_STATUS_DROP_SEEN : Fld := ⟨0x0700000, 6, 6⟩
def F.STO_STATUS_UE_SEEN : Fld := ⟨0x0700000, 5, 5⟩
def F.STO_STATUS_CE_SEEN : Fld := ⟨0x0700000, 4, 4⟩
def F.STO_STATUS_REPAIR_ACTIVE : Fld := ⟨0x0700000, 3, 3⟩
def F.STO_STATUS_SELF_REFRESH : Fld := ⟨0x0700000, 2, 2⟩
def F.STO_STATUS_DRAINING : Fld := ⟨0x0700000, 1, 1⟩
def F.STO_STATUS_READY : Fld := ⟨0x0700000, 0, 0⟩
def F.STO_CTICK_BYTES : Fld := ⟨0x0700004, 31, 0⟩
def F.STO_BUDGET_BYTES : Fld := ⟨0x0700008, 31, 0⟩
def F.STO_DEMAND_BYTES : Fld := ⟨0x070000C, 31, 0⟩
def F.STO_SHADOW_DEMAND_BYTES : Fld := ⟨0x0700010, 31, 0⟩
def F.STO_ACQ_DEMAND_BYTES : Fld := ⟨0x0700014, 31, 0⟩
def F.STO_CAP_P_ACT : Fld := ⟨0x0700018, 31, 24⟩
def F.STO_CAP_PAGES : Fld := ⟨0x0700018, 21, 0⟩
def F.STO_DMA_RESERVE_BYTES : Fld := ⟨0x0700020, 31, 0⟩
def F.STO_CAL_CAP_CH : Fld := ⟨0x0700024, 5, 0⟩
def F.STO_GOV_WEIGHT_SCRUB : Fld := ⟨0x0700028, 29, 24⟩
def F.STO_GOV_WEIGHT_RASTER : Fld := ⟨0x0700028, 23, 18⟩
def F.STO_GOV_WEIGHT_TALLY : Fld := ⟨0x0700028, 17, 12⟩
def F.STO_GOV_WEIGHT_DMA : Fld := ⟨0x0700028, 11, 6⟩
def F.STO_GOV_WEIGHT_STREAM : Fld := ⟨0x0700028, 5, 0⟩
def F.STO_STAGE_FILL_KIB : Fld := ⟨0x0700030, 31, 16⟩
def F.STO_STAGE_DRAIN_KIB : Fld := ⟨0x0700030, 15, 0⟩
def F.STO_DROP_CNT_COUNT : Fld := ⟨0x0700034, 31, 0⟩
def F.STO_ECC_CE_CNT_COUNT : Fld := ⟨0x0700040, 31, 0⟩
def F.STO_ECC_UE_CNT_COUNT : Fld := ⟨0x0700044, 31, 0⟩
def F.STO_CRC_RETRY_CNT_COUNT : Fld := ⟨0x0700048, 31, 0⟩
def F.STO_SCRUB_POS_PAGE : Fld := ⟨0x0700058, 20, 0⟩
def F.STO_SCRUB_PASS_CNT_COUNT : Fld := ⟨0x070005C, 31, 0⟩
def F.STO_REPAIR_FAIL_PENDING (s : Nat) : Fld := ⟨0x0700060 + 0x4 * s, 31, 24⟩
def F.STO_REPAIR_SPARE_LANES (s : Nat) : Fld := ⟨0x0700060 + 0x4 * s, 23, 16⟩
def F.STO_REPAIR_SPARE_ROWS (s : Nat) : Fld := ⟨0x0700060 + 0x4 * s, 11, 0⟩
def F.STO_CLASS_GRANT_BYTES (k : Nat) : Fld := ⟨0x0700100 + 0x10 * k, 31, 0⟩
def F.STO_CLASS_BACKLOG_BYTES (k : Nat) : Fld := ⟨0x0700104 + 0x10 * k, 31, 0⟩
def F.STO_CLASS_STATE_WAIT (k : Nat) : Fld := ⟨0x0700108 + 0x10 * k, 31, 16⟩
def F.STO_CLASS_STATE_WEIGHT (k : Nat) : Fld := ⟨0x0700108 + 0x10 * k, 15, 0⟩
def F.STM_LG_MODE_MODE : Fld := ⟨0x0800000, 15, 0⟩
def F.STM_PORT_CTRL_PHY (p : Nat) : Fld := ⟨0x0801000 + 0x40 * p, 7, 6⟩
def F.STM_PORT_CTRL_AN_EN (p : Nat) : Fld := ⟨0x0801000 + 0x40 * p, 5, 5⟩
def F.STM_PORT_CTRL_PFC_EN (p : Nat) : Fld := ⟨0x0801000 + 0x40 * p, 4, 4⟩
def F.STM_PORT_CTRL_PAUSE_EN (p : Nat) : Fld := ⟨0x0801000 + 0x40 * p, 3, 3⟩
def F.STM_PORT_CTRL_EN (p : Nat) : Fld := ⟨0x0801000 + 0x40 * p, 0, 0⟩
def F.STM_PORT_IPV4_ADDR (p : Nat) : Fld := ⟨0x080100C + 0x40 * p, 31, 0⟩
def F.STM_PORT_IPV6_ADDR (p : Nat) (i : Nat) : Fld := ⟨0x0801010 + 0x40 * p + 0x4 * i, 31, 0⟩
def F.STM_PORT_STATUS_REMOTE_FAULT (p : Nat) : Fld := ⟨0x0801020 + 0x40 * p, 5, 5⟩
def F.STM_PORT_STATUS_LOCAL_FAULT (p : Nat) : Fld := ⟨0x0801020 + 0x40 * p, 4, 4⟩
def F.STM_PORT_STATUS_FEC_UNCORR (p : Nat) : Fld := ⟨0x0801020 + 0x40 * p, 3, 3⟩
def F.STM_PORT_STATUS_PAUSE_LONG (p : Nat) : Fld := ⟨0x0801020 + 0x40 * p, 2, 2⟩
def F.STM_PORT_STATUS_PAUSED (p : Nat) : Fld := ⟨0x0801020 + 0x40 * p, 1, 1⟩
def F.STM_PORT_STATUS_LINK (p : Nat) : Fld := ⟨0x0801020 + 0x40 * p, 0, 0⟩
def F.STM_PORT_RX_DROP_CNT_COUNT (p : Nat) : Fld := ⟨0x0801024 + 0x40 * p, 31, 0⟩
def F.STM_PORT_FEC_UNCORR_CNT_COUNT (p : Nat) : Fld := ⟨0x0801028 + 0x40 * p, 31, 0⟩
def F.STM_PORT_PAUSE_CNT_COUNT (p : Nat) : Fld := ⟨0x080102C + 0x40 * p, 31, 0⟩
def F.STM_Q_CTRL_EN (q : Nat) : Fld := ⟨0x0810000 + 0x80 * q, 31, 31⟩
def F.STM_Q_CTRL_KIND (q : Nat) : Fld := ⟨0x0810000 + 0x80 * q, 30, 29⟩
def F.STM_Q_CTRL_ENCAP (q : Nat) : Fld := ⟨0x0810000 + 0x80 * q, 28, 27⟩
def F.STM_Q_CTRL_VLAN_EN (q : Nat) : Fld := ⟨0x0810000 + 0x80 * q, 26, 26⟩
def F.STM_Q_CTRL_PCP (q : Nat) : Fld := ⟨0x0810000 + 0x80 * q, 25, 23⟩
def F.STM_Q_CTRL_PRIO (q : Nat) : Fld := ⟨0x0810000 + 0x80 * q, 22, 20⟩
def F.STM_Q_CTRL_GAP_EN (q : Nat) : Fld := ⟨0x0810000 + 0x80 * q, 19, 19⟩
def F.STM_Q_CTRL_TMARK_EN (q : Nat) : Fld := ⟨0x0810000 + 0x80 * q, 18, 18⟩
def F.STM_Q_CTRL_MEAS_EN (q : Nat) : Fld := ⟨0x0810000 + 0x80 * q, 17, 17⟩
def F.STM_Q_CTRL_UDP_CSUM4 (q : Nat) : Fld := ⟨0x0810000 + 0x80 * q, 16, 16⟩
def F.STM_Q_CTRL_GROUP (q : Nat) : Fld := ⟨0x0810000 + 0x80 * q, 3, 0⟩
def F.STM_Q_PORTS_PORTS (q : Nat) (i : Nat) : Fld := ⟨0x081000C + 0x80 * q + 0x4 * i, 31, 0⟩
def F.STM_Q_DMAC_VID (q : Nat) : Fld := ⟨0x0810020 + 0x80 * q, 27, 16⟩
def F.STM_Q_DIP_ADDR (q : Nat) (i : Nat) : Fld := ⟨0x0810024 + 0x80 * q + 0x4 * i, 31, 0⟩
def F.STM_Q_UDP_SRC (q : Nat) : Fld := ⟨0x0810034 + 0x80 * q, 31, 16⟩
def F.STM_Q_UDP_DST (q : Nat) : Fld := ⟨0x0810034 + 0x80 * q, 15, 0⟩
def F.STM_Q_FRAME_TTL (q : Nat) : Fld := ⟨0x0810038 + 0x80 * q, 31, 24⟩
def F.STM_Q_FRAME_DSCP (q : Nat) : Fld := ⟨0x0810038 + 0x80 * q, 21, 16⟩
def F.STM_Q_FRAME_FRAME_MAX (q : Nat) : Fld := ⟨0x0810038 + 0x80 * q, 13, 0⟩
def F.STM_Q_TMARK_TICKS (q : Nat) : Fld := ⟨0x081003C + 0x80 * q, 31, 0⟩
def F.STM_Q_STATUS_POISON_SEEN (q : Nat) : Fld := ⟨0x0810040 + 0x80 * q, 3, 3⟩
def F.STM_Q_STATUS_SKIP_SEEN (q : Nat) : Fld := ⟨0x0810040 + 0x80 * q, 2, 2⟩
def F.STM_Q_STATUS_NO_PORT (q : Nat) : Fld := ⟨0x0810040 + 0x80 * q, 1, 1⟩
def F.STM_Q_STATUS_ACTIVE (q : Nat) : Fld := ⟨0x0810040 + 0x80 * q, 0, 0⟩
def F.STM_Q_SEQ_SEQ (q : Nat) : Fld := ⟨0x0810044 + 0x80 * q, 31, 0⟩
def F.STM_Q_BACKLOG_BYTES (q : Nat) : Fld := ⟨0x0810048 + 0x80 * q, 31, 0⟩
def F.STM_Q_SKIP_CNT_COUNT (q : Nat) : Fld := ⟨0x081004C + 0x80 * q, 31, 0⟩
def F.STM_Q_RESENT_CNT_COUNT (q : Nat) : Fld := ⟨0x0810050 + 0x80 * q, 31, 0⟩
def F.STM_Q_POISON_CNT_COUNT (q : Nat) : Fld := ⟨0x0810054 + 0x80 * q, 31, 0⟩
def F.GLOBAL_MBOX_DATA (i : Nat) : Fld := ⟨0x0001000 + 0x4 * i, 31, 0⟩
def F.DMA_CTRL_RO_EN : Fld := ⟨0x0900000, 0, 0⟩
def F.DMA_CTO_US : Fld := ⟨0x0900004, 16, 0⟩
def F.DMA_STATUS_TIMEOUT_SEEN : Fld := ⟨0x0900008, 2, 2⟩
def F.DMA_STATUS_UR_SEEN : Fld := ⟨0x0900008, 1, 1⟩
def F.DMA_STATUS_POISON_SEEN : Fld := ⟨0x0900008, 0, 0⟩
def F.DMA_UR_CNT_COUNT : Fld := ⟨0x090000C, 31, 0⟩
def F.DMA_BAR2_BASE_GIB (f : Nat) : Fld := ⟨0x0900100 + 0x4 * f, 6, 0⟩
def F.DMA_Q_OWNER_VALID (q : Nat) : Fld := ⟨0x0901000 + 0x4 * q, 31, 31⟩
def F.DMA_Q_OWNER_FUNC (q : Nat) : Fld := ⟨0x0901000 + 0x4 * q, 5, 0⟩
def F.DMA_QC_CTRL_PRIO (q : Nat) : Fld := ⟨0x0A00000 + 0x800 * q, 30, 28⟩
def F.DMA_QC_CTRL_BIND (q : Nat) : Fld := ⟨0x0A00000 + 0x800 * q, 27, 27⟩
def F.DMA_QC_CTRL_MEAS (q : Nat) : Fld := ⟨0x0A00000 + 0x800 * q, 26, 26⟩
def F.DMA_QC_CTRL_GROUP (q : Nat) : Fld := ⟨0x0A00000 + 0x800 * q, 23, 20⟩
def F.DMA_QC_CTRL_VEC (q : Nat) : Fld := ⟨0x0A00000 + 0x800 * q, 10, 0⟩
def F.DMA_QC_CMD_ABORT (q : Nat) : Fld := ⟨0x0A00010 + 0x800 * q, 2, 2⟩
def F.DMA_QC_CMD_RESUME (q : Nat) : Fld := ⟨0x0A00010 + 0x800 * q, 1, 1⟩
def F.DMA_QC_CMD_START (q : Nat) : Fld := ⟨0x0A00010 + 0x800 * q, 0, 0⟩
def F.DMA_QC_STATUS_STATE (q : Nat) : Fld := ⟨0x0A00014 + 0x800 * q, 31, 28⟩
def F.DMA_QC_STATUS_ERR (q : Nat) : Fld := ⟨0x0A00014 + 0x800 * q, 23, 16⟩
def F.DMA_QC_STATUS_SKIPPED (q : Nat) : Fld := ⟨0x0A00014 + 0x800 * q, 3, 3⟩
def F.DMA_QC_STATUS_WRAP_CUT (q : Nat) : Fld := ⟨0x0A00014 + 0x800 * q, 2, 2⟩
def F.DMA_QC_STATUS_POISON (q : Nat) : Fld := ⟨0x0A00014 + 0x800 * q, 1, 1⟩
def F.DMA_QC_STATUS_PINNED (q : Nat) : Fld := ⟨0x0A00014 + 0x800 * q, 0, 0⟩
def F.DMA_QC_DB_CNT_COUNT (q : Nat) : Fld := ⟨0x0A00018 + 0x800 * q, 31, 0⟩
def F.DMA_QC_DONE_CNT_COUNT (q : Nat) : Fld := ⟨0x0A00028 + 0x800 * q, 31, 0⟩
def F.DMA_QC_HOLD_BITS (q : Nat) : Fld := ⟨0x0A0002C + 0x800 * q, 9, 0⟩
def F.DMA_QC_OFFSET_BYTES (q : Nat) : Fld := ⟨0x0A00038 + 0x800 * q, 31, 0⟩
def F.DMA_QC_HOPS_HOPS (q : Nat) : Fld := ⟨0x0A0003C + 0x800 * q, 20, 0⟩
def F.DMA_QC_SKIP_CNT_COUNT (q : Nat) : Fld := ⟨0x0A00040 + 0x800 * q, 31, 0⟩
def F.DISP_CTRL_PSR_EN : Fld := ⟨0x0E00000, 13, 13⟩
def F.DISP_CTRL_UNDER : Fld := ⟨0x0E00000, 12, 12⟩
def F.DISP_CTRL_CHROMA : Fld := ⟨0x0E00000, 11, 11⟩
def F.DISP_CTRL_FMT : Fld := ⟨0x0E00000, 10, 10⟩
def F.DISP_CTRL_SSC : Fld := ⟨0x0E00000, 9, 9⟩
def F.DISP_CTRL_RATE : Fld := ⟨0x0E00000, 8, 7⟩
def F.DISP_CTRL_LANES : Fld := ⟨0x0E00000, 6, 5⟩
def F.DISP_CTRL_EDP : Fld := ⟨0x0E00000, 1, 1⟩
def F.DISP_CTRL_EN : Fld := ⟨0x0E00000, 0, 0⟩
def F.DISP_PCLK_RATIO : Fld := ⟨0x0E00004, 31, 0⟩
def F.DISP_H_HTOTAL : Fld := ⟨0x0E00008, 31, 16⟩
def F.DISP_H_HACT : Fld := ⟨0x0E00008, 15, 0⟩
def F.DISP_HS_HPOL : Fld := ⟨0x0E0000C, 31, 31⟩
def F.DISP_HS_HS_WIDTH : Fld := ⟨0x0E0000C, 30, 16⟩
def F.DISP_HS_HS_START : Fld := ⟨0x0E0000C, 15, 0⟩
def F.DISP_V_VTOTAL : Fld := ⟨0x0E00010, 31, 16⟩
def F.DISP_V_VACT : Fld := ⟨0x0E00010, 15, 0⟩
def F.DISP_VS_VPOL : Fld := ⟨0x0E00014, 31, 31⟩
def F.DISP_VS_VS_WIDTH : Fld := ⟨0x0E00014, 30, 16⟩
def F.DISP_VS_VS_START : Fld := ⟨0x0E00014, 15, 0⟩
def F.DISP_PLOT_POS_PLOT_Y : Fld := ⟨0x0E00020, 31, 16⟩
def F.DISP_PLOT_POS_PLOT_X : Fld := ⟨0x0E00020, 15, 0⟩
def F.DISP_PLOT_SIZE_PLOT_H : Fld := ⟨0x0E00024, 31, 16⟩
def F.DISP_PLOT_SIZE_PLOT_W : Fld := ⟨0x0E00024, 15, 0⟩
def F.DISP_BG_BG_Y : Fld := ⟨0x0E00028, 23, 16⟩
def F.DISP_BG_BG_CB : Fld := ⟨0x0E00028, 15, 8⟩
def F.DISP_BG_BG_CR : Fld := ⟨0x0E00028, 7, 0⟩
def F.DISP_LAYER_EN (i : Nat) : Fld := ⟨0x0E00040 + 0x4 * i, 31, 31⟩
def F.DISP_LAYER_MODE (i : Nat) : Fld := ⟨0x0E00040 + 0x4 * i, 30, 30⟩
def F.DISP_LAYER_SHIFT (i : Nat) : Fld := ⟨0x0E00040 + 0x4 * i, 29, 26⟩
def F.DISP_LAYER_DB (i : Nat) : Fld := ⟨0x0E00040 + 0x4 * i, 18, 16⟩
def F.DISP_LAYER_CB (i : Nat) : Fld := ⟨0x0E00040 + 0x4 * i, 15, 8⟩
def F.DISP_LAYER_CR (i : Nat) : Fld := ⟨0x0E00040 + 0x4 * i, 7, 0⟩
def F.DISP_LUT_E3 (j : Nat) : Fld := ⟨0x0E00100 + 0x4 * j, 31, 24⟩
def F.DISP_LUT_E2 (j : Nat) : Fld := ⟨0x0E00100 + 0x4 * j, 23, 16⟩
def F.DISP_LUT_E1 (j : Nat) : Fld := ⟨0x0E00100 + 0x4 * j, 15, 8⟩
def F.DISP_LUT_E0 (j : Nat) : Fld := ⟨0x0E00100 + 0x4 * j, 7, 0⟩
def F.DISP_EVT_EN : Fld := ⟨0x0E00200, 31, 28⟩
def F.DISP_EVT_LINE : Fld := ⟨0x0E00200, 27, 16⟩
def F.DISP_EVT_VEC : Fld := ⟨0x0E00200, 10, 0⟩
def F.DISP_STATUS_LINK : Fld := ⟨0x0E00204, 13, 13⟩
def F.DISP_STATUS_PSR : Fld := ⟨0x0E00204, 12, 12⟩
def F.DISP_STATUS_DISP_PENDING : Fld := ⟨0x0E00204, 11, 11⟩
def F.DISP_STATUS_FREEZE : Fld := ⟨0x0E00204, 10, 10⟩
def F.DISP_STATUS_DISP_LATE : Fld := ⟨0x0E00204, 9, 9⟩
def F.DISP_STATUS_POISON_SEEN : Fld := ⟨0x0E00204, 8, 8⟩
def F.DISP_STATUS_NO_SNAP : Fld := ⟨0x0E00204, 7, 7⟩
def F.DISP_STATUS_PREFILL_SHORT : Fld := ⟨0x0E00204, 6, 6⟩
def F.DISP_STATUS_UNDERRUN : Fld := ⟨0x0E00204, 3, 3⟩
def F.DISP_STATUS_LINE_MATCH : Fld := ⟨0x0E00204, 2, 2⟩
def F.DISP_STATUS_VBLANK_START : Fld := ⟨0x0E00204, 1, 1⟩
def F.DISP_STATUS_FRAME_DONE : Fld := ⟨0x0E00204, 0, 0⟩
def F.DISP_UNDERRUN_CNT_COUNT : Fld := ⟨0x0E00208, 31, 0⟩
def F.DISP_SIG_CRC : Fld := ⟨0x0E0020C, 31, 0⟩
def F.DISP_WATCH_FREEZE_N : Fld := ⟨0x0E00210, 31, 16⟩
def F.DISP_WATCH_PSR_ENTRY : Fld := ⟨0x0E00210, 7, 0⟩
def F.DISP_BFRAME_BYTES : Fld := ⟨0x0E00214, 31, 0⟩
def F.DISP_FRAME_CNT_COUNT : Fld := ⟨0x0E00220, 31, 0⟩
def F.CLK_CTRL_LEARN : Fld := ⟨0x0200000, 5, 5⟩
def F.CLK_CTRL_PROFILE : Fld := ⟨0x0200000, 4, 3⟩
def F.CLK_CTRL_OCXO_WAIT : Fld := ⟨0x0200000, 2, 2⟩
def F.CLK_CTRL_REF_SEL : Fld := ⟨0x0200000, 0, 0⟩
def F.CLK_FCW_INT_INT : Fld := ⟨0x0200004, 11, 0⟩
def F.CLK_FCW_FRAC_FRAC : Fld := ⟨0x0200008, 31, 0⟩
def F.CLK_FCW_MOD_MOD : Fld := ⟨0x020000C, 31, 0⟩
def F.CLK_LOCK_UNLOCK_WIN : Fld := ⟨0x0200010, 31, 24⟩
def F.CLK_LOCK_UNLOCK_N : Fld := ⟨0x0200010, 23, 16⟩
def F.CLK_LOCK_LOCK_WIN : Fld := ⟨0x0200010, 15, 8⟩
def F.CLK_LOCK_LOCK_N_DIV16 : Fld := ⟨0x0200010, 7, 0⟩
def F.CLK_LOCK_N_LOCK_N : Fld := ⟨0x0200014, 15, 0⟩
def F.CLK_STATUS_LOOP : Fld := ⟨0x0200018, 31, 28⟩
def F.CLK_STATUS_BAND_HIT : Fld := ⟨0x0200018, 9, 9⟩
def F.CLK_STATUS_NTO_STOP : Fld := ⟨0x0200018, 8, 8⟩
def F.CLK_STATUS_REF_LOST : Fld := ⟨0x0200018, 7, 7⟩
def F.CLK_STATUS_LOCK_LOST : Fld := ⟨0x0200018, 6, 6⟩
def F.CLK_STATUS_OCXO_COLD : Fld := ⟨0x0200018, 5, 5⟩
def F.CLK_STATUS_OCXO_RDY : Fld := ⟨0x0200018, 4, 4⟩
def F.CLK_STATUS_BYP_OK : Fld := ⟨0x0200018, 3, 3⟩
def F.CLK_STATUS_REF_OK : Fld := ⟨0x0200018, 2, 2⟩
def F.CLK_STATUS_HOLDOVER : Fld := ⟨0x0200018, 1, 1⟩
def F.CLK_STATUS_FABRIC_BYP : Fld := ⟨0x0200018, 0, 0⟩
def F.CLK_BAND_BAND : Fld := ⟨0x020001C, 31, 24⟩
def F.CLK_BAND_FINE : Fld := ⟨0x020001C, 23, 0⟩
def F.CLK_PHERR_ERR : Fld := ⟨0x0200020, 15, 0⟩
def F.CLK_BYP_RATIO_RATIO : Fld := ⟨0x0200024, 31, 0⟩
def F.CLK_SWITCH_CNT_COUNT : Fld := ⟨0x0200030, 31, 0⟩
def F.CLK_SPUR_K (i : Nat) : Fld := ⟨0x0200040 + 0x4 * i, 31, 27⟩
def F.CLK_SPUR_OFFSET (i : Nat) : Fld := ⟨0x0200040 + 0x4 * i, 25, 0⟩
def F.CLK_BTAB_FCW_VALID (i : Nat) : Fld := ⟨0x0200100 + 0x10 * i, 31, 31⟩
def F.CLK_BTAB_FCW_INT (i : Nat) : Fld := ⟨0x0200100 + 0x10 * i, 11, 0⟩
def F.CLK_BTAB_FRAC_FRAC (i : Nat) : Fld := ⟨0x0200104 + 0x10 * i, 31, 0⟩
def F.CLK_BTAB_MOD_MOD (i : Nat) : Fld := ⟨0x0200108 + 0x10 * i, 31, 0⟩
def F.CLK_BTAB_BAND_BAND (i : Nat) : Fld := ⟨0x020010C + 0x10 * i, 31, 24⟩
def F.CLK_BTAB_BAND_FINE (i : Nat) : Fld := ⟨0x020010C + 0x10 * i, 23, 0⟩
def F.CLK_OUT_CTRL_FINE (k : Nat) : Fld := ⟨0x0200200 + 0x10 * k, 7, 2⟩
def F.CLK_OUT_CTRL_MODE (k : Nat) : Fld := ⟨0x0200200 + 0x10 * k, 1, 0⟩
def F.CLK_OUT_DIV_DIV (k : Nat) : Fld := ⟨0x0200204 + 0x10 * k, 20, 0⟩
def F.CLK_OUT_DELAY_DELAY (k : Nat) : Fld := ⟨0x0200208 + 0x10 * k, 19, 0⟩
def F.TIME_CTRL_TXQ_EN : Fld := ⟨0x0C00000, 3, 3⟩
def F.TIME_CTRL_FIRST_FREE : Fld := ⟨0x0C00000, 2, 2⟩
def F.TIME_CTRL_ACCEPT_STEP : Fld := ⟨0x0C00000, 1, 1⟩
def F.TIME_CTRL_SERVO_EN : Fld := ⟨0x0C00000, 0, 0⟩
def F.TIME_STATUS_SERVO : Fld := ⟨0x0C00004, 31, 28⟩
def F.TIME_STATUS_STAGE_IGN : Fld := ⟨0x0C00004, 25, 25⟩
def F.TIME_STATUS_STAGE_PENDING : Fld := ⟨0x0C00004, 24, 24⟩
def F.TIME_STATUS_RATE_LIMIT : Fld := ⟨0x0C00004, 23, 23⟩
def F.TIME_STATUS_TXQ_OVF : Fld := ⟨0x0C00004, 22, 22⟩
def F.TIME_STATUS_JUMP_HOLD : Fld := ⟨0x0C00004, 21, 21⟩
def F.TIME_STATUS_JUMP_REFUSED : Fld := ⟨0x0C00004, 20, 20⟩
def F.TIME_STATUS_EPOCH : Fld := ⟨0x0C00004, 15, 0⟩
def F.TIME_SNAP_CMD_SNAP : Fld := ⟨0x0C00040, 0, 0⟩
def F.TIME_SNAP_NS : Fld := ⟨0x0C00058, 31, 0⟩
def F.TIME_SNAP_SUBNS : Fld := ⟨0x0C00054, 31, 16⟩
def F.TIME_SNAP_VALID : Fld := ⟨0x0C00044, 31, 31⟩
def F.TIME_SNAP_EPOCH : Fld := ⟨0x0C00044, 15, 0⟩
def F.TIME_HIST_NS (i : Nat) : Fld := ⟨0x0C0101C + 0x20 * i, 31, 0⟩
def F.TIME_HIST_SUBNS (i : Nat) : Fld := ⟨0x0C01018 + 0x20 * i, 31, 16⟩
def F.TIME_HIST_CAUSE (i : Nat) : Fld := ⟨0x0C01000 + 0x20 * i, 31, 16⟩
def F.TIME_HIST_EPOCH (i : Nat) : Fld := ⟨0x0C01000 + 0x20 * i, 15, 0⟩
def F.TIME_STAGE_SUBNS : Fld := ⟨0x0C00080, 15, 0⟩
def F.TIME_STAGE_CMD_PERIOD : Fld := ⟨0x0C000A8, 2, 2⟩
def F.TIME_STAGE_CMD_OFFSET_ADD : Fld := ⟨0x0C000A8, 1, 1⟩
def F.TIME_STAGE_CMD_OFFSET_ABS : Fld := ⟨0x0C000A8, 0, 0⟩
def F.TIME_SERVO_JUMP_N : Fld := ⟨0x0C000C0, 31, 24⟩
def F.TIME_SERVO_KI_SH : Fld := ⟨0x0C000C0, 15, 12⟩
def F.TIME_SERVO_KP_SH : Fld := ⟨0x0C000C0, 11, 8⟩
def F.TIME_SERVO_SLEW_MAX : Fld := ⟨0x0C000C0, 7, 0⟩
def F.TIME_JUMP_MAX_NS : Fld := ⟨0x0C000C4, 31, 0⟩
def F.TIME_EPOCH_MIN_TICKS : Fld := ⟨0x0C000C8, 31, 0⟩
def F.TIME_THETA_THETA : Fld := ⟨0x0C000D0, 31, 0⟩
def F.TIME_RATE_Y : Fld := ⟨0x0C000D4, 31, 0⟩
def F.TIME_REFUSED_CNT_COUNT : Fld := ⟨0x0C000D8, 31, 0⟩
def F.TIME_PTP_CTRL_DOMAIN : Fld := ⟨0x0C00100, 31, 24⟩
def F.TIME_PTP_CTRL_PROFILE : Fld := ⟨0x0C00100, 23, 22⟩
def F.TIME_PTP_CTRL_TYPE : Fld := ⟨0x0C00100, 21, 20⟩
def F.TIME_PTP_CTRL_DELAY : Fld := ⟨0x0C00100, 19, 19⟩
def F.TIME_PTP_CTRL_ONE_STEP : Fld := ⟨0x0C00100, 18, 18⟩
def F.TIME_PTP_CTRL_TRANSPORT : Fld := ⟨0x0C00100, 17, 16⟩
def F.TIME_PTP_CTRL_PRIORITY1 : Fld := ⟨0x0C00100, 15, 8⟩
def F.TIME_PTP_CTRL_PRIORITY2 : Fld := ⟨0x0C00100, 7, 0⟩
def F.TIME_PTP_INTV_ANNOUNCE : Fld := ⟨0x0C00104, 31, 24⟩
def F.TIME_PTP_INTV_SYNC : Fld := ⟨0x0C00104, 23, 16⟩
def F.TIME_PTP_INTV_DELAY_REQ : Fld := ⟨0x0C00104, 15, 8⟩
def F.TIME_PTP_INTV_ANN_TIMEOUT : Fld := ⟨0x0C00104, 7, 0⟩
def F.TIME_UTC_VALID : Fld := ⟨0x0C00110, 31, 31⟩
def F.TIME_UTC_OFFSET : Fld := ⟨0x0C00110, 15, 0⟩
def F.TIME_PTP_PORT_EN (p : Nat) : Fld := ⟨0x0C00200 + 0x4 * p, 31, 31⟩
def F.TIME_PTP_PORT_TC (p : Nat) : Fld := ⟨0x0C00200 + 0x4 * p, 30, 30⟩
def F.TIME_PTP_PORT_STATE (p : Nat) : Fld := ⟨0x0C00200 + 0x4 * p, 3, 0⟩
def F.TIME_TXQ_NS : Fld := ⟨0x0C00410, 31, 0⟩
def F.TIME_TXQ_SUBNS : Fld := ⟨0x0C0040C, 31, 16⟩
def F.TIME_TXQ_EPOCH : Fld := ⟨0x0C00404, 15, 0⟩
def F.TIME_TXQ_ID : Fld := ⟨0x0C00400, 31, 16⟩
def F.TIME_TXQ_TYPE : Fld := ⟨0x0C00400, 15, 12⟩
def F.TIME_TXQ_VALID : Fld := ⟨0x0C00400, 7, 7⟩
def F.TIME_TXQ_PORT : Fld := ⟨0x0C00400, 6, 0⟩
def F.TIME_TXQ_DROP_CNT_COUNT : Fld := ⟨0x0C00418, 31, 0⟩
def F.EVT_IN_CTRL_EN (k : Nat) : Fld := ⟨0x0C80000 + 0x100 * k, 31, 31⟩
def F.EVT_IN_CTRL_FUNC (k : Nat) : Fld := ⟨0x0C80000 + 0x100 * k, 30, 28⟩
def F.EVT_IN_CTRL_SLOPE (k : Nat) : Fld := ⟨0x0C80000 + 0x100 * k, 27, 26⟩
def F.EVT_IN_CTRL_SEL (k : Nat) : Fld := ⟨0x0C80000 + 0x100 * k, 25, 24⟩
def F.EVT_IN_CTRL_CONT (k : Nat) : Fld := ⟨0x0C80000 + 0x100 * k, 23, 23⟩
def F.EVT_IN_CTRL_SCALE (k : Nat) : Fld := ⟨0x0C80000 + 0x100 * k, 22, 22⟩
def F.EVT_IN_CTRL_STOP_IN (k : Nat) : Fld := ⟨0x0C80000 + 0x100 * k, 21, 19⟩
def F.EVT_IN_CTRL_STOP_SLOPE (k : Nat) : Fld := ⟨0x0C80000 + 0x100 * k, 18, 17⟩
def F.EVT_IN_PRESCALE_P_M1 (k : Nat) : Fld := ⟨0x0C80004 + 0x100 * k, 23, 0⟩
def F.EVT_IN_SPACE_SPACE (k : Nat) : Fld := ⟨0x0C80008 + 0x100 * k, 20, 0⟩
def F.EVT_IN_NSTAT_N_M1 (k : Nat) : Fld := ⟨0x0C80014 + 0x100 * k, 23, 0⟩
def F.EVT_IN_CMD_STOP (k : Nat) : Fld := ⟨0x0C80018 + 0x100 * k, 1, 1⟩
def F.EVT_IN_CMD_START (k : Nat) : Fld := ⟨0x0C80018 + 0x100 * k, 0, 0⟩
def F.EVT_IN_STATUS_BYP_SEEN (k : Nat) : Fld := ⟨0x0C8001C + 0x100 * k, 7, 7⟩
def F.EVT_IN_STATUS_OVERRUN (k : Nat) : Fld := ⟨0x0C8001C + 0x100 * k, 6, 6⟩
def F.EVT_IN_STATUS_LOST_SEEN (k : Nat) : Fld := ⟨0x0C8001C + 0x100 * k, 5, 5⟩
def F.EVT_IN_STATUS_SINGLE (k : Nat) : Fld := ⟨0x0C8001C + 0x100 * k, 4, 4⟩
def F.EVT_IN_STATUS_FENCED (k : Nat) : Fld := ⟨0x0C8001C + 0x100 * k, 3, 3⟩
def F.EVT_IN_STATUS_READY (k : Nat) : Fld := ⟨0x0C8001C + 0x100 * k, 2, 2⟩
def F.EVT_IN_STATUS_RUN (k : Nat) : Fld := ⟨0x0C8001C + 0x100 * k, 1, 1⟩
def F.EVT_IN_STATUS_LEVEL (k : Nat) : Fld := ⟨0x0C8001C + 0x100 * k, 0, 0⟩
def F.EVT_IN_LOST_CNT_COUNT (k : Nat) : Fld := ⟨0x0C80028 + 0x100 * k, 31, 0⟩
def F.EVT_IN_OVR_CNT_COUNT (k : Nat) : Fld := ⟨0x0C8002C + 0x100 * k, 31, 0⟩
def F.EVT_DELAY_DELAY (k : Nat) : Fld := ⟨0x0C80030 + 0x100 * k, 15, 0⟩
def F.EVT_INT_CAL_FAILED (k : Nat) (i : Nat) : Fld := ⟨0x0C80034 + 0x100 * k + 0x4 * i, 31, 31⟩
def F.EVT_INT_CAL_N2 (k : Nat) (i : Nat) : Fld := ⟨0x0C80034 + 0x100 * k + 0x4 * i, 29, 16⟩
def F.EVT_INT_CAL_N1 (k : Nat) (i : Nat) : Fld := ⟨0x0C80034 + 0x100 * k + 0x4 * i, 13, 0⟩
def F.EVT_IN_RING_PAGES (k : Nat) : Fld := ⟨0x0C8003C + 0x100 * k, 31, 24⟩
def F.EVT_IN_RING_PAGE (k : Nat) : Fld := ⟨0x0C8003C + 0x100 * k, 20, 0⟩
def F.EVT_RES_COUNT (k : Nat) : Fld := ⟨0x0C80054 + 0x100 * k, 31, 0⟩
def F.EVT_RES_START_FINE (k : Nat) : Fld := ⟨0x0C80050 + 0x100 * k, 15, 0⟩
def F.EVT_RES_STATUS (k : Nat) : Fld := ⟨0x0C80044 + 0x100 * k, 31, 24⟩
def F.EVT_RES_FUNC (k : Nat) : Fld := ⟨0x0C80044 + 0x100 * k, 23, 16⟩
def F.EVT_RES_EPOCH (k : Nat) : Fld := ⟨0x0C80044 + 0x100 * k, 15, 0⟩
def F.EVT_RES_SEQ (k : Nat) : Fld := ⟨0x0C80040 + 0x100 * k, 31, 0⟩
def F.CAL_CTRL_ARMED : Fld := ⟨0x0D00000, 1, 1⟩
def F.CAL_CTRL_SAVE : Fld := ⟨0x0D00000, 0, 0⟩
def F.CAL_CALV_UV : Fld := ⟨0x0D00004, 31, 0⟩
def F.CAL_FG_MAX_DEFER_TICKS : Fld := ⟨0x0D00008, 15, 0⟩
def F.CAL_DRIFT_DRIFT_DT : Fld := ⟨0x0D0000C, 7, 0⟩
def F.CAL_SCHED_AUTO_DRIFT : Fld := ⟨0x0D00010, 31, 31⟩
def F.CAL_SCHED_PERIOD : Fld := ⟨0x0D00010, 30, 0⟩
def F.CAL_CAP_BASE_PAGE : Fld := ⟨0x0D00014, 20, 0⟩
def F.CAL_FG_PROC_PROC : Fld := ⟨0x0D00028, 6, 0⟩
def F.CAL_FG_CMD_ABORT : Fld := ⟨0x0D0002C, 1, 1⟩
def F.CAL_FG_CMD_START : Fld := ⟨0x0D0002C, 0, 0⟩
def F.CAL_STATUS_DEF_DIES : Fld := ⟨0x0D00030, 31, 24⟩
def F.CAL_STATUS_ERR : Fld := ⟨0x0D00030, 23, 20⟩
def F.CAL_STATUS_EVT_SKIPPED : Fld := ⟨0x0D00030, 10, 10⟩
def F.CAL_STATUS_FG_FORCED : Fld := ⟨0x0D00030, 9, 9⟩
def F.CAL_STATUS_SAVE_FAIL : Fld := ⟨0x0D00030, 8, 8⟩
def F.CAL_STATUS_SAVING : Fld := ⟨0x0D00030, 7, 7⟩
def F.CAL_STATUS_MIXED : Fld := ⟨0x0D00030, 6, 6⟩
def F.CAL_STATUS_OTP_BAD : Fld := ⟨0x0D00030, 5, 5⟩
def F.CAL_STATUS_COPY_B_OK : Fld := ⟨0x0D00030, 4, 4⟩
def F.CAL_STATUS_COPY_A_OK : Fld := ⟨0x0D00030, 3, 3⟩
def F.CAL_STATUS_WAITING : Fld := ⟨0x0D00030, 2, 2⟩
def F.CAL_STATUS_BUSY : Fld := ⟨0x0D00030, 1, 1⟩
def F.CAL_STATUS_LOADED : Fld := ⟨0x0D00030, 0, 0⟩
def F.CAL_EPOCH_SOURCE : Fld := ⟨0x0D00034, 23, 16⟩
def F.CAL_EPOCH_EPOCH : Fld := ⟨0x0D00034, 15, 0⟩
def F.CAL_SEQ_SEQ : Fld := ⟨0x0D00038, 31, 0⟩
def F.CAL_DIE_SRC_SRC : Fld := ⟨0x0D0003C, 15, 0⟩
def F.CAL_DRIFT_STATUS_DRIFT : Fld := ⟨0x0D00050, 5, 0⟩
def F.CAL_TEMP_REF_NOW (k : Nat) : Fld := ⟨0x0D00054 + 0x4 * k, 15, 8⟩
def F.CAL_TEMP_REF_REF (k : Nat) : Fld := ⟨0x0D00054 + 0x4 * k, 7, 0⟩
def F.CAL_CH_STATUS_TRIM_STALE (n : Nat) : Fld := ⟨0x0D10000 + 0x40 * n, 3, 3⟩
def F.CAL_CH_STATUS_SKIPPED (n : Nat) : Fld := ⟨0x0D10000 + 0x40 * n, 2, 2⟩
def F.CAL_CH_STATUS_FG_FAIL (n : Nat) : Fld := ⟨0x0D10000 + 0x40 * n, 1, 1⟩
def F.CAL_CH_STATUS_HELD (n : Nat) : Fld := ⟨0x0D10000 + 0x40 * n, 0, 0⟩
def F.CAL_Q_OFS_UV (n : Nat) : Fld := ⟨0x0D10004 + 0x40 * n, 31, 0⟩
def F.CAL_Q_GAIN_PPM (n : Nat) : Fld := ⟨0x0D10008 + 0x40 * n, 31, 0⟩
def F.CAL_Q_SPUR_DBC (n : Nat) : Fld := ⟨0x0D1000C + 0x40 * n, 15, 0⟩
def F.CAL_Q_SKEW_FS (n : Nat) : Fld := ⟨0x0D10010 + 0x40 * n, 15, 0⟩
def F.CAL_Q_ENOB_CBIT (n : Nat) : Fld := ⟨0x0D10014 + 0x40 * n, 15, 0⟩
def F.CAL_Q_INT_DNL (ch : Nat) (i : Nat) : Fld := ⟨0x0D20000 + 0x40 * ch + 0x4 * i, 31, 16⟩
def F.CAL_Q_INT_INL (ch : Nat) (i : Nat) : Fld := ⟨0x0D20000 + 0x40 * ch + 0x4 * i, 15, 0⟩
def F.CAL_Q_EVT_DNL (j : Nat) : Fld := ⟨0x0D21000 + 0x4 * j, 31, 16⟩
def F.CAL_Q_EVT_INL (j : Nat) : Fld := ⟨0x0D21000 + 0x4 * j, 15, 0⟩
def F.SVC_CTRL_SAFE_RLY : Fld := ⟨0x0D80000, 1, 1⟩
def F.SVC_CTRL_SAFE_EXC : Fld := ⟨0x0D80000, 0, 0⟩
def F.SVC_STATUS_MON_HELD : Fld := ⟨0x0D80004, 4, 4⟩
def F.SVC_STATUS_EXC_TRIP : Fld := ⟨0x0D80004, 3, 3⟩
def F.SVC_STATUS_FENCED : Fld := ⟨0x0D80004, 2, 2⟩
def F.SVC_STATUS_SAFE : Fld := ⟨0x0D80004, 1, 1⟩
def F.SVC_STATUS_LINK_OK : Fld := ⟨0x0D80004, 0, 0⟩
def F.SVC_CMD_EXC_RESTORE : Fld := ⟨0x0D80008, 0, 0⟩
def F.SVC_EXC_TOTAL_SUM : Fld := ⟨0x0D8000C, 20, 0⟩
def F.SVC_MON_TOL_TOL_I : Fld := ⟨0x0D80010, 31, 16⟩
def F.SVC_MON_TOL_TOL_V : Fld := ⟨0x0D80010, 15, 0⟩
def F.SVC_MON_CYCLE_COUNT : Fld := ⟨0x0D80014, 31, 0⟩
def F.SVC_MON_DIE_VALUE (i : Nat) : Fld := ⟨0x0D80020 + 0x4 * i, 31, 0⟩
def F.SVC_RLY_ON : Fld := ⟨0x0D80040, 31, 0⟩
def F.SVC_RLY_SAFE_ON : Fld := ⟨0x0D80044, 31, 0⟩
def F.SVC_RLY_OC_OC : Fld := ⟨0x0D80048, 31, 0⟩
def F.SVC_RLY_OPEN_OPEN : Fld := ⟨0x0D8004C, 31, 0⟩
def F.SVC_LINK_ERR_CNT_COUNT : Fld := ⟨0x0D80050, 31, 0⟩
def F.SVC_OFS_CODE_CODE (n : Nat) : Fld := ⟨0x0D90000 + 0x40 * n, 15, 0⟩
def F.SVC_EXC_CTRL_EN (n : Nat) : Fld := ⟨0x0D90004 + 0x40 * n, 31, 31⟩
def F.SVC_EXC_CTRL_FOLD_EN (n : Nat) : Fld := ⟨0x0D90004 + 0x40 * n, 30, 30⟩
def F.SVC_EXC_CTRL_SHORT_EN (n : Nat) : Fld := ⟨0x0D90004 + 0x40 * n, 29, 29⟩
def F.SVC_EXC_CTRL_CODE (n : Nat) : Fld := ⟨0x0D90004 + 0x40 * n, 15, 0⟩
def F.SVC_OUT_STATUS_EXC_MISMATCH (n : Nat) : Fld := ⟨0x0D90008 + 0x40 * n, 7, 7⟩
def F.SVC_OUT_STATUS_OFS_MISMATCH (n : Nat) : Fld := ⟨0x0D90008 + 0x40 * n, 6, 6⟩
def F.SVC_OUT_STATUS_OFS_CLAMP (n : Nat) : Fld := ⟨0x0D90008 + 0x40 * n, 5, 5⟩
def F.SVC_OUT_STATUS_FOLDED (n : Nat) : Fld := ⟨0x0D90008 + 0x40 * n, 4, 4⟩
def F.SVC_OUT_STATUS_SHORT (n : Nat) : Fld := ⟨0x0D90008 + 0x40 * n, 3, 3⟩
def F.SVC_OUT_STATUS_OPEN (n : Nat) : Fld := ⟨0x0D90008 + 0x40 * n, 2, 2⟩
def F.SVC_OUT_STATUS_COMPL_SEEN (n : Nat) : Fld := ⟨0x0D90008 + 0x40 * n, 1, 1⟩
def F.SVC_OUT_STATUS_COMPLIANCE (n : Nat) : Fld := ⟨0x0D90008 + 0x40 * n, 0, 0⟩
def F.SVC_EXC_CMD_RETRY (n : Nat) : Fld := ⟨0x0D9000C + 0x40 * n, 0, 0⟩
def F.SVC_MON_OFS_UV (n : Nat) : Fld := ⟨0x0D90010 + 0x40 * n, 31, 0⟩
def F.SVC_MON_EXC_I_NA (n : Nat) : Fld := ⟨0x0D90014 + 0x40 * n, 31, 0⟩
def F.SVC_MON_EXC_V_UV (n : Nat) : Fld := ⟨0x0D90018 + 0x40 * n, 31, 0⟩
def F.CFG_STATUS_BUDGET_DIFF : Fld := ⟨0x0010000, 7, 7⟩
def F.CFG_STATUS_CANCEL_LATE : Fld := ⟨0x0010000, 6, 6⟩
def F.CFG_STATUS_REQ_IGNORED : Fld := ⟨0x0010000, 5, 5⟩
def F.CFG_STATUS_WR_IGNORED : Fld := ⟨0x0010000, 4, 4⟩
def F.CFG_STATUS_AT_MISSED : Fld := ⟨0x0010000, 3, 3⟩
def F.CFG_STATUS_REC_FORCED : Fld := ⟨0x0010000, 2, 2⟩
def F.CFG_STATUS_CFG_LATE : Fld := ⟨0x0010000, 1, 1⟩
def F.CFG_STATUS_LOADING : Fld := ⟨0x0010000, 0, 0⟩
def F.CFG_COMMIT_GROUP : Fld := ⟨0x0010004, 7, 4⟩
def F.CFG_COMMIT_WHEN : Fld := ⟨0x0010004, 3, 2⟩
def F.CFG_COMMIT_REQ : Fld := ⟨0x0010004, 0, 0⟩
def F.CFG_CMD_SLOT : Fld := ⟨0x0010008, 4, 4⟩
def F.CFG_CMD_RELOAD : Fld := ⟨0x0010008, 2, 2⟩
def F.CFG_CMD_REVERT : Fld := ⟨0x0010008, 1, 1⟩
def F.CFG_CMD_CANCEL : Fld := ⟨0x0010008, 0, 0⟩
def F.CFG_RESULT_OUTCOME : Fld := ⟨0x001000C, 31, 28⟩
def F.CFG_RESULT_NFAIL : Fld := ⟨0x001000C, 13, 8⟩
def F.CFG_RESULT_REASON : Fld := ⟨0x001000C, 7, 0⟩
def F.CFG_REC_MAX_TICKS : Fld := ⟨0x0010028, 31, 0⟩
def F.CFG_VIEW_ACTIVE : Fld := ⟨0x001002C, 0, 0⟩
def F.CFG_POLICY_HOST_POLICY : Fld := ⟨0x0010030, 0, 0⟩
def F.CFG_SEQ_COUNT : Fld := ⟨0x0010034, 31, 0⟩
def F.CFG_WR_IGN_CNT_COUNT : Fld := ⟨0x0010038, 31, 0⟩
def F.CFG_VEC_EN : Fld := ⟨0x001003C, 31, 31⟩
def F.CFG_VEC_VEC : Fld := ⟨0x001003C, 10, 0⟩
def F.CFG_IMAGE_SEQ : Fld := ⟨0x0010040, 31, 0⟩
def F.CFG_FLASH_CTRL_UNLOCK : Fld := ⟨0x0010100, 0, 0⟩
def F.CFG_FLASH_ADDR_ADDR : Fld := ⟨0x0010104, 26, 0⟩
def F.CFG_FLASH_CMD_OP : Fld := ⟨0x0010108, 1, 0⟩
def F.CFG_FLASH_STATUS_DENIED : Fld := ⟨0x001010C, 2, 2⟩
def F.CFG_FLASH_STATUS_ERR : Fld := ⟨0x001010C, 1, 1⟩
def F.CFG_FLASH_STATUS_BUSY : Fld := ⟨0x001010C, 0, 0⟩
def F.CFG_FLASH_BUF_DATA (i : Nat) : Fld := ⟨0x0011000 + 0x4 * i, 31, 0⟩
def F.GLOBAL_RESET_KEY : Fld := ⟨0x0000100, 15, 8⟩
def F.GLOBAL_RESET_COLD : Fld := ⟨0x0000100, 1, 1⟩
def F.GLOBAL_RESET_WARM : Fld := ⟨0x0000100, 0, 0⟩
def F.GLOBAL_GRP_RESET_GRP : Fld := ⟨0x0000104, 15, 0⟩
def F.GLOBAL_RESET_CAUSE_KEEP_LOST : Fld := ⟨0x0000108, 16, 16⟩
def F.GLOBAL_RESET_CAUSE_PREV : Fld := ⟨0x0000108, 15, 8⟩
def F.GLOBAL_RESET_CAUSE_CAUSE : Fld := ⟨0x0000108, 7, 0⟩
def F.GLOBAL_PWR_CYCLES_COUNT : Fld := ⟨0x000010C, 31, 0⟩
def F.GLOBAL_WAKE_CTRL_ASSERTED : Fld := ⟨0x0000120, 1, 1⟩
def F.GLOBAL_WAKE_CTRL_EN : Fld := ⟨0x0000120, 0, 0⟩
def F.GLOBAL_SUPPLY_SEEN : Fld := ⟨0x0000130, 23, 16⟩
def F.GLOBAL_SUPPLY_NOW : Fld := ⟨0x0000130, 7, 0⟩
def F.GLOBAL_SUPPLY_WARN_CNT_COUNT : Fld := ⟨0x0000134, 31, 0⟩
def F.GLOBAL_SUPPLY_CHECK_CNT_BAD : Fld := ⟨0x0000138, 31, 16⟩
def F.GLOBAL_SUPPLY_CHECK_CNT_RUN : Fld := ⟨0x0000138, 15, 0⟩
def F.GLOBAL_SELFTEST_DONE : Fld := ⟨0x0000140, 31, 31⟩
def F.GLOBAL_SELFTEST_PKG_FAIL : Fld := ⟨0x0000140, 30, 30⟩
def F.GLOBAL_SELFTEST_DIES : Fld := ⟨0x0000140, 29, 16⟩
def F.GLOBAL_SELFTEST_SPARES : Fld := ⟨0x0000140, 15, 0⟩
def F.LOG_CTRL_IRQ_EN : Fld := ⟨0x0F00000, 31, 31⟩
def F.LOG_CTRL_IRQ_CLASS : Fld := ⟨0x0F00000, 30, 29⟩
def F.LOG_CTRL_VEC : Fld := ⟨0x0F00000, 10, 0⟩
def F.LOG_STATUS_ERR_N : Fld := ⟨0x0F00004, 4, 4⟩
def F.LOG_STATUS_OVF : Fld := ⟨0x0F00004, 3, 3⟩
def F.LOG_STATUS_WARN_SEEN : Fld := ⟨0x0F00004, 2, 2⟩
def F.LOG_STATUS_FATAL : Fld := ⟨0x0F00004, 1, 1⟩
def F.LOG_STATUS_FIRST_VALID : Fld := ⟨0x0F00004, 0, 0⟩
def F.LOG_CMD_FATAL_CLR : Fld := ⟨0x0F00008, 1, 1⟩
def F.LOG_CMD_FIRST_CLR : Fld := ⟨0x0F00008, 0, 0⟩
def F.LOG_WR_SEQ_SEQ : Fld := ⟨0x0F0000C, 31, 0⟩
def F.LOG_OVF_CNT_COUNT : Fld := ⟨0x0F00010, 31, 0⟩
def F.LOG_SUPPR_CNT_COUNT : Fld := ⟨0x0F00014, 31, 0⟩
def F.LOG_NEST_CNT_COUNT : Fld := ⟨0x0F00018, 31, 0⟩
def F.LOG_STORE_PAGE : Fld := ⟨0x0F0001C, 20, 0⟩
def F.LOG_RD_SEQ_SEQ : Fld := ⟨0x0F00020, 31, 0⟩
def F.LOG_CLASS_CLASS_0 (a : Nat) (w : Nat) : Fld := ⟨0x0F01000 + 0x40 * a + 0x4 * w, 1, 0⟩
def F.LOG_CLASS_CLASS_1 (a : Nat) (w : Nat) : Fld := ⟨0x0F01000 + 0x40 * a + 0x4 * w, 3, 2⟩
def F.LOG_CLASS_CLASS_2 (a : Nat) (w : Nat) : Fld := ⟨0x0F01000 + 0x40 * a + 0x4 * w, 5, 4⟩
def F.LOG_CLASS_CLASS_3 (a : Nat) (w : Nat) : Fld := ⟨0x0F01000 + 0x40 * a + 0x4 * w, 7, 6⟩
def F.LOG_CLASS_CLASS_4 (a : Nat) (w : Nat) : Fld := ⟨0x0F01000 + 0x40 * a + 0x4 * w, 9, 8⟩
def F.LOG_CLASS_CLASS_5 (a : Nat) (w : Nat) : Fld := ⟨0x0F01000 + 0x40 * a + 0x4 * w, 11, 10⟩
def F.LOG_CLASS_CLASS_6 (a : Nat) (w : Nat) : Fld := ⟨0x0F01000 + 0x40 * a + 0x4 * w, 13, 12⟩
def F.LOG_CLASS_CLASS_7 (a : Nat) (w : Nat) : Fld := ⟨0x0F01000 + 0x40 * a + 0x4 * w, 15, 14⟩
def F.LOG_CLASS_CLASS_8 (a : Nat) (w : Nat) : Fld := ⟨0x0F01000 + 0x40 * a + 0x4 * w, 17, 16⟩
def F.LOG_CLASS_CLASS_9 (a : Nat) (w : Nat) : Fld := ⟨0x0F01000 + 0x40 * a + 0x4 * w, 19, 18⟩
def F.LOG_CLASS_CLASS_10 (a : Nat) (w : Nat) : Fld := ⟨0x0F01000 + 0x40 * a + 0x4 * w, 21, 20⟩
def F.LOG_CLASS_CLASS_11 (a : Nat) (w : Nat) : Fld := ⟨0x0F01000 + 0x40 * a + 0x4 * w, 23, 22⟩
def F.LOG_CLASS_CLASS_12 (a : Nat) (w : Nat) : Fld := ⟨0x0F01000 + 0x40 * a + 0x4 * w, 25, 24⟩
def F.LOG_CLASS_CLASS_13 (a : Nat) (w : Nat) : Fld := ⟨0x0F01000 + 0x40 * a + 0x4 * w, 27, 26⟩
def F.LOG_CLASS_CLASS_14 (a : Nat) (w : Nat) : Fld := ⟨0x0F01000 + 0x40 * a + 0x4 * w, 29, 28⟩
def F.LOG_CLASS_CLASS_15 (a : Nat) (w : Nat) : Fld := ⟨0x0F01000 + 0x40 * a + 0x4 * w, 31, 30⟩
def F.TWIN_CTRL_EN : Fld := ⟨0x0F80000, 31, 31⟩
def F.TWIN_CTRL_PREFER : Fld := ⟨0x0F80000, 30, 30⟩
def F.TWIN_CTRL_LOSS_TAKEOVER : Fld := ⟨0x0F80000, 29, 29⟩
def F.TWIN_CTRL_HB_MISS : Fld := ⟨0x0F80000, 7, 0⟩
def F.TWIN_STATUS_ROLE : Fld := ⟨0x0F80004, 31, 30⟩
def F.TWIN_STATUS_BY_TAKEOVER : Fld := ⟨0x0F80004, 5, 5⟩
def F.TWIN_STATUS_CFG_DIFF : Fld := ⟨0x0F80004, 4, 4⟩
def F.TWIN_STATUS_DUAL_SEEN : Fld := ⟨0x0F80004, 3, 3⟩
def F.TWIN_STATUS_TAKEOVER_SEEN : Fld := ⟨0x0F80004, 2, 2⟩
def F.TWIN_STATUS_HB_OK : Fld := ⟨0x0F80004, 1, 1⟩
def F.TWIN_STATUS_ALIGNED : Fld := ⟨0x0F80004, 0, 0⟩
def F.TWIN_PEER_NODE : Fld := ⟨0x0F80008, 31, 24⟩
def F.TWIN_PEER_ROLE : Fld := ⟨0x0F80008, 23, 16⟩
def F.TWIN_PEER_PHASE : Fld := ⟨0x0F80008, 15, 8⟩
def F.TWIN_PEER_FLAGS : Fld := ⟨0x0F80008, 7, 0⟩
def F.TWIN_LINK_DELAY_CYCLES : Fld := ⟨0x0F8000C, 31, 0⟩
def F.TWIN_CMD_HANDOVER : Fld := ⟨0x0F80018, 0, 0⟩
def F.TWIN_HB_MISS_CNT_COUNT : Fld := ⟨0x0F8001C, 31, 0⟩
def F.TWIN_CRC_ERR_CNT_COUNT : Fld := ⟨0x0F80020, 31, 0⟩

end Sys2Proof.Machine
end

