-- ==== Sys2Proof/Machine/Regs.lean ====
section
/-! DEFINITION. Register words: finding a BAR0 offset's card, reset values, fields, and the access codes of Table 0.5. -/

namespace Sys2Proof.Machine

/-- A set of register words, keyed by BAR0 byte offset; an unlisted word has its reset value. -/
abbrev RegTab := Tab Word

/-- The place of byte offset rem inside a card: which word, when the offset lies on one. -/
def Card.place (dims : List (Nat × Nat)) (nwords rem : Nat) : Option Nat :=
  match dims with
  | [] => if rem % 4 = 0 ∧ rem / 4 < nwords then some (rem / 4) else none
  | d :: ds => if rem / d.1 < d.2 then Card.place ds nwords (rem % d.1) else none

/-- The word of a card at a BAR0 offset. -/
def Card.wordAt (c : Card) (off : Nat) : Option CardWord :=
  if off < c.base then none
  else match Card.place c.dims c.words.length (off - c.base) with
    | some i => c.words[i]?
    | none => none

/-- The register word at a BAR0 offset, none where no register stands (R8). -/
def wordAtIn (cs : List Card) (off : Nat) : Option CardWord :=
  match cs with
  | [] => none
  | c :: rest => match c.wordAt off with
    | some w => some w
    | none => wordAtIn rest off

/-- The register word at a BAR0 offset of the physical function (R27); none where no register stands (R8). -/
def wordAt (off : Nat) : Option CardWord := wordAtIn cards off

/-- The luma ramp that DISP_LUT holds at reset: LUT[n] = 64 + ⌊191·n/255⌋. -/
def lutReset (n : Nat) : Nat := 64 + 191 * n / 255

/-- Reset classes of Table 18.4 that are not INFO: (code, class), class 1 WARN, 2 ERROR, 3 FATAL. -/
def logResetClasses : List (Nat × Nat) := [
  (0x0102, 1), (0x0104, 2), (0x0105, 2), (0x0106, 3), (0x0107, 2), (0x0108, 3), (0x0109, 1), (0x010A, 2),
  (0x0201, 1), (0x0203, 1), (0x0204, 2), (0x0205, 1),
  (0x0301, 2), (0x0302, 1), (0x0303, 2), (0x0304, 2),
  (0x0503, 1), (0x0504, 1), (0x0601, 1),
  (0x0801, 2), (0x0802, 3), (0x0803, 1),
  (0x0901, 2), (0x0902, 1), (0x0A01, 2), (0x0B02, 2),
  (0x0C03, 1), (0x0C04, 1), (0x0D03, 1), (0x0D05, 1)] ++ [
  (0x0E03, 1), (0x0E04, 1), (0x0E05, 1), (0x0E06, 2), (0x0E07, 2),
  (0x0F02, 1), (0x0F04, 1), (0x0F05, 1), (0x0F06, 1),
  (0x1001, 1), (0x1102, 1), (0x1103, 2), (0x1104, 2), (0x1105, 1)]

/-- The reset class of a log code: 0 INFO, 1 WARN, 2 ERROR, 3 FATAL (R392, Table 18.4). -/
def logResetClass (code : Nat) : Nat := Tab.get 0 logResetClasses code

/-- The classes of a list of events as one register word, two bits each from bit 0 up. -/
def classWord : List Nat → Nat
  | [] => 0
  | c :: cs => logResetClass c + 4 * classWord cs

/-- The reset value of LOG_CLASS word w of area a. -/
def logClassReset (a w : Nat) : Nat := classWord ((List.range 16).map (fun j => 0x100 * a + 16 * w + j))

/-- Reset values that the cards state as a rule instead of a number: identity coefficients (chapters 02 and 03), the free
value of FLT_HB_COEF (log entry 10), INT_A and INT_B, IN_USE, DISP_LAYER.DB, the DISP_LUT ramp and LOG_CLASS. -/
def specialReset (off : Nat) : Option Nat :=
  if 0x110000 ≤ off ∧ off < 0x110000 + 0x2000 * 48 then
    (let i := (off - 0x110000) % 0x40 / 4
     if i = 1 ∨ i = 6 then some 0x10000 else some 0)
  else if 0x300000 ≤ off ∧ off < 0x330000 ∧ off % 0x1000 = 0x100 then some 0x10000
  else if 0x300000 ≤ off ∧ off < 0x330000 ∧ off % 0x1000 = 0x200 then some 0x400000
  else if 0x340000 ≤ off ∧ off < 0x340000 + 4 * 15 then some (Config.hbCoef ((off - 0x340000) / 4)).toNat
  else if 0x400104 ≤ off ∧ off < 0x400104 + 0x40 * 288 ∧ (off - 0x400104) % 0x40 = 0 then
    (let c := (off - 0x400104) / 0x40 % 6
     some (2 * c * 256 + (2 * c + 1) * 4096))
  else if 0x40A000 ≤ off ∧ off < 0x40A000 + 0x40 * 48 ∧ off % 4 = 0 then
    (if (off - 0x40A000) % 0x40 / 4 < 12 then some 0x40000000 else some 0)
  else if 0xE00040 ≤ off ∧ off < 0xE00040 + 4 * 8 then
    some (0x40008080 + 0x10000 * ((off - 0xE00040) / 4))
  else if 0xE00100 ≤ off ∧ off < 0xE00100 + 4 * 64 then
    (let j := (off - 0xE00100) / 4
     some (lutReset (4 * j) + 256 * lutReset (4 * j + 1) + 65536 * lutReset (4 * j + 2) + 16777216 * lutReset (4 * j + 3)))
  else if 0xF01000 ≤ off ∧ off < 0xF01000 + 0x40 * 256 then
    some (logClassReset ((off - 0xF01000) / 0x40) ((off - 0xF01000) % 0x40 / 4))
  else none

/-- The reset value of the register word at a BAR0 offset (R9); 0 where no register stands (R8). -/
def resetWord (off : Nat) : Word :=
  match specialReset off with
  | some v => BitVec.ofNat 32 v
  | none => match wordAt off with
    | some w => BitVec.ofNat 32 w.reset
    | none => 0

/-- The register word at an offset of a register set. -/
def RegTab.word (r : RegTab) (off : Nat) : Word := Tab.get (resetWord off) r off

/-- A field's width in bits. -/
def Fld.width (f : Fld) : Nat := f.hi - f.lo + 1

/-- A field lies inside its word. -/
def Fld.ok (f : Fld) : Prop := f.lo ≤ f.hi ∧ f.hi < 32

/-- Two fields share no bit. -/
def Fld.apart (f g : Fld) : Prop := f.off ≠ g.off ∨ f.hi < g.lo ∨ g.hi < f.lo

/-- A field's value inside its register word. -/
def fldGet (w : Word) (f : Fld) : Nat := w.toNat / 2 ^ f.lo % 2 ^ f.width

/-- A register word with one field replaced, modulo the field's width. -/
def fldSet (w : Word) (f : Fld) (v : Nat) : Word :=
  BitVec.ofNat 32 (w.toNat % 2 ^ f.lo + v % 2 ^ f.width * 2 ^ f.lo + w.toNat / 2 ^ (f.hi + 1) * 2 ^ (f.hi + 1))

/-- A field of a register set. -/
def RegTab.fld (r : RegTab) (f : Fld) : Nat := fldGet (r.word f.off) f

/-- A one-bit field of a register set. -/
def RegTab.bit (r : RegTab) (f : Fld) : Bool := r.fld f == 1

/-- A field of a register set read as a two's complement number. -/
def RegTab.sfld (r : RegTab) (f : Fld) : Int := sgn f.width (r.fld f)

/-- n consecutive register words from an offset on, the first least significant (R4). -/
def RegTab.wide (r : RegTab) (off : Nat) : Nat → Nat
  | 0 => 0
  | n + 1 => (r.word off).toNat + 4294967296 * RegTab.wide r (off + 4) n

/-- A register set with one field replaced. -/
def RegTab.setFld (r : RegTab) (f : Fld) (v : Nat) : RegTab := Tab.set r f.off (fldSet (r.word f.off) f v)

/-- A register set with n consecutive words replaced, the first least significant. -/
def RegTab.setWide (r : RegTab) (off : Nat) : Nat → Nat → RegTab
  | 0, _ => r
  | n + 1, v => RegTab.setWide (Tab.set r off (BitVec.ofNat 32 v)) (off + 4) n (v / 4294967296)

/-- The access masks of the word at an offset, all zero where no register stands. -/
def masksAt (off : Nat) : CardWord := (wordAt off).getD ⟨0, 0, 0, 0, 0, 0, 0⟩

/-- w with the bits of a mask taken from v. -/
def mixWord (mask : Nat) (w v : Word) : Word :=
  let m := BitVec.ofNat 32 mask
  (w &&& ~~~m) ||| (v &&& m)

/-- The register set in force overlaid with the RWS bits of a shadow set: the configuration a commit checks (R358). -/
def overlay (regs shadow : RegTab) : RegTab :=
  shadow.foldl (fun r p => Tab.set r p.1 (mixWord (masksAt p.1).rws (r.word p.1) p.2)) regs

/-- The offsets of a block that a reset reinitialises, removed from a register set: every word reads its reset value again (R9). -/
def RegTab.clearRange (r : RegTab) (lo hi : Nat) : RegTab := r.filter (fun p => p.1 < lo || hi ≤ p.1)

end Sys2Proof.Machine
end

