-- ==== Sys2Proof/Machine/State.lean ====
section
/-! DEFINITION. The state of the block, what leaves it, and the reasons a command can stop. -/

namespace Sys2Proof.Machine

/-- Why a command stops with a fault. -/
inductive Fault where
  /-- Raised by exec when a command's operand lists have not the lengths Sys2Proof.wellFormed asks for: no outside event
  has such a shape. Safe: the machine stops where no hardware behaviour exists. -/
  | illFormed (what : String)
  deriving DecidableEq, Repr

/-- Why a command has no meaning. -/
inductive Refusal where
  /-- Raised by exec for a command whose meaning is not written yet. Safe: no effect is claimed. -/
  | notModelled (mnemonic : String)
  deriving DecidableEq, Repr

/-! ### What leaves the block -/

/-- What has left the block. -/
inductive Out where
  /-- MSI-X message of a function's vector (R203). -/
  | msix (fn vec : Nat)
  /-- The answer of a register read by a function: offset, words (R5, R6). -/
  | read (fn off : Nat) (words : List Word)
  /-- An Ethernet frame queued on port p. -/
  | packet (p : Nat) (bytes : List Byte)
  /-- Bytes written to host memory (posted write), with Relaxed Ordering or without (R199). -/
  | hostWrite (relaxed : Bool) (addr : Nat) (bytes : List Byte)
  /-- A read request to host memory. -/
  | hostRead (addr len : Nat)
  /-- An error that a function reports through AER (R199): 0 Unsupported Request, 1 completion timeout. -/
  | aer (fn kind : Nat)
  /-- A completion of a BAR read: status 0 success, 1 Unsupported Request, 2 Configuration Request Retry; EP bit; data. -/
  | completion (fn status : Nat) (poisoned : Bool) (bytes : List Byte)
  /-- A mirror-link frame (Table 18.1). -/
  | mirror (frame : List Byte)
  /-- A link frame to the service die (R330). -/
  | svcFrame (t0 : Nat)
  /-- A PTP message: port, messageType, sequenceId, its content bytes or correction as numbers. -/
  | ptp (p typ seq : Nat) (fields : List Int)
  /-- A DisplayPort line or frame event: kind, values. -/
  | video (kind : Nat) (vals : List Nat)
  /-- A pin change: pin name code (0 ERR_N, 1 WAKE_N, 2 TDO), level. -/
  | pin (name : Nat) (level : Bool)
  /-- SMBus bytes. -/
  | smbus (bytes : List Byte)
  deriving DecidableEq, Repr

/-! ### Ethernet streams (spec/08) -/

/-- An item that record streams of a group send, in order of eligibility (R186): 0 final header, 1 measurement trailer,
2 gap descriptor; its record or gap number, the tick in which it was staged, and for a gap its slot, mask and start. -/
structure StmItem where
  ord : Nat
  kind : Nat
  num : Nat
  tick : Nat
  slot : Nat
  mask : Nat
  start : Nat
  deriving DecidableEq, Repr

/-- What a stream releases when a packet has left (R189): a record of a group, or a tally frame. -/
inductive Release where
  | none
  | record (g num : Nat)
  | frame (pub : Nat)
  deriving DecidableEq, Repr

/-- A formed packet: its stream, type, sequence, and what its headers are built from (R178, R198). -/
structure Pkt where
  q : Nat
  typ : Nat
  seq : Nat
  prio : Nat
  encap : Nat
  /-- Tag control information when a tag is sent. -/
  vlan : Option Nat
  dmac : Nat
  dip : Nat
  udp : Nat
  ttl : Nat
  dscp : Nat
  csum : Bool
  /-- Stream header and payload. -/
  body : List Byte
  payload : Nat
  rel : Release
  deriving DecidableEq, Repr

/-- An image a stream has begun (R184): release target, type, the compact time's LCNT, low half of the number, physical
pages, and the ranges left: offset, length. -/
structure StItem where
  rel : Release
  typ : Nat
  lcnt : Nat
  num : Nat
  pages : List Nat
  ranges : List (Nat × Nat)
  deriving DecidableEq, Repr

/-- A stream beside its registers. -/
structure Strm where
  cur : Option StItem
  /-- Next item: place in the group's order, order of publication of a tally frame, or log sequence. -/
  next : Nat
  /-- Packet types whose next packet carries SKIPPED (R193). -/
  skip : List Nat
  /-- Packets taken back while no port of the set is up (R192). -/
  back : List Pkt
  /-- Boundary of the last time marker (R183). -/
  marker : Option Nat
  deriving DecidableEq, Repr

def Strm.init : Strm where
  cur := none
  next := 0
  skip := []
  back := []
  marker := none

/-- A port beside its registers: packets waiting, the frame it has started (R190), which stays in its queue until it has left,
pause (R190, R191), uncorrectable codewords (R176), and the deficit round-robin of R188: deficits by stream, the stream whose turn
it is. -/
structure Port where
  queue : List Pkt
  started : Option Pkt
  /-- PTP messages and answers to received frames that a pause holds, oldest first (R190, R191). -/
  ctl : List Out
  /-- The continuous pause has been reported (R191). -/
  longSeen : Bool
  pauseFrom : Option Nat
  pauseTo : Option Nat
  /-- End of each priority's PFC pause. -/
  pfc : Tab Nat
  fecTick : Nat
  fecRun : Nat
  deficit : Tab Nat
  turn : Nat
  deriving DecidableEq, Repr

def Port.init : Port where
  queue := []
  started := none
  ctl := []
  longSeen := false
  pauseFrom := none
  pauseTo := none
  pfc := []
  fecTick := 0
  fecRun := 0
  deficit := []
  turn := 0

/-! ### Host queues (spec/09) -/

/-- A descriptor as fetched (R207), with its address and whether R209 refuses it. -/
structure Desc where
  addr : Nat
  op : Nat
  ctl : Nat
  len : Nat
  src : Nat
  dst : Nat
  next : Nat
  mask : Nat
  status : Nat
  tag : Nat
  bad : Bool
  deriving DecidableEq, Repr

/-- Where the elements of a stored record lie (R110-R112), read from its header. -/
structure ImgFmt where
  mask : Nat
  payload : Nat
  stride : Nat
  w : Nat
  nw : Nat
  v : Nat
  b : Nat
  e : Nat
  offWin : Nat
  offLin : Nat
  k0 : Nat
  orec : Nat
  deriving DecidableEq, Repr

/-- A record that a queue has begun (R210, R214): group, number, physical pages, where its elements lie, pages left to it after
WRAP reclaimed the slot (R224). -/
structure QRec where
  g : Nat
  num : Nat
  pages : List Nat
  fmt : ImgFmt
  cut : Option (List Nat)
  deriving DecidableEq, Repr

/-- A queue's record state at a descriptor's start, which a halt there restores (R222): record in progress, output offset, the
holding register (bits, their value, poisoned), pages pinned. -/
structure QMark where
  recd : Option QRec
  off : Nat
  bits : Nat
  held : Nat
  heldBad : Bool
  pins : List Nat
  deriving DecidableEq, Repr

def QMark.init : QMark where
  recd := none
  off := 0
  bits := 0
  held := 0
  heldBad := false
  pins := []

/-- A descriptor whose data is done and whose completion is still to come (R216): status, flags, bytes, record number,
whether a read-back is awaited and since which core cycle, the doorbell count latched at a fetch with END, and the record state at
its start. -/
structure Comp where
  d : Desc
  status : Nat
  flags : Nat
  bytes : Nat
  num : Option Nat
  wait : Bool
  since : Nat
  latch : Option Nat
  mark : QMark
  /-- A record released when this completes (R210). -/
  rel : Option (Nat × Nat)
  deriving DecidableEq, Repr

/-- A host queue beside its registers. -/
structure HostQ where
  /-- A descriptor read in flight: address, and whether it re-fetches the tail (R219). -/
  fetch : Option (Nat × Bool)
  /-- Core cycle of that read. -/
  fetchAt : Nat
  /-- The descriptor running and the doorbell count latched when it was fetched with END. -/
  cur : Option (Desc × Option Nat)
  /-- Bytes that the running descriptor has moved (R206), and whether any was poisoned. -/
  pos : Nat
  bad : Bool
  /-- Bytes to its credit in the deficit round-robin of R206. -/
  deficit : Nat
  pend : List Comp
  /-- The last descriptor whose completion record was written (log entry 86). -/
  wrote : Option Comp
  recd : Option QRec
  /-- The holding register (R213): the bits of the value that straddles the output offset, and whether they are poisoned. -/
  held : Nat
  heldBad : Bool
  /-- Record state at the start of the running descriptor (R222). -/
  mark : QMark
  /-- Records were skipped since the last completion (R224). -/
  skipped : Bool
  /-- The last descriptor with END completed and parked here. -/
  tail : Nat
  /-- Doorbells that came while a re-fetch was in flight: each causes one more (R219). -/
  owed : Nat
  deriving DecidableEq, Repr

def HostQ.init : HostQ where
  fetch := none
  fetchAt := 0
  cur := none
  pos := 0
  bad := false
  deficit := 0
  pend := []
  wrote := none
  recd := none
  held := 0
  heldBad := false
  mark := QMark.init
  skipped := false
  tail := 0
  owed := 0

/-- The MSI-X state of the functions (R199, R203; log entry 9): functions and vectors that are masked, vectors pending. -/
structure Msix where
  fns : List Nat
  vecs : List (Nat × Nat)
  pba : List (Nat × Nat)
  deriving DecidableEq, Repr

def Msix.init : Msix where
  fns := []
  vecs := []
  pba := []

/-! ### Converter array (spec/02) -/

/-- Side-band bits of a word or output: OVR, NBR, ROT (Table 2.3), and ABSENT of the flag maps (R113). -/
structure Marks where
  ovr : Bool
  nbr : Bool
  rot : Bool
  deriving DecidableEq, Repr

/-- One converter array: the channel's own, or the odd array of a pair (R36). -/
structure Chan where
  /-- Position serving each slot; an unlisted slot j is served by position j (R33, R44). -/
  slots : Tab Nat
  /-- The same before the latest step, for words tagged before it. -/
  slotsPrev : Tab Nat
  /-- Boundary of the latest step or unit replacement (R44, R47). -/
  stepAt : Option Nat
  /-- Positions parked after a failure (R47). -/
  parked : List Nat
  /-- The spare's position; none while NO_SPARE is set. -/
  spare : Option Nat
  /-- Slot whose serving position failed and waits for the spare (R47). -/
  takeover : Option Nat
  /-- First boundary at which the next step is due (R45); none before the first commit. -/
  due : Option Nat
  /-- A due step not taken yet (R45, R46). -/
  stepPending : Bool
  /-- Last four corrected inputs u[m], newest first, in units of 2^-22 LSB (skew filter, R38). -/
  uHist : List Int
  /-- The word before held a clip code (R39). -/
  clipPrev : Bool
  /-- c_trip while the clamp detector is tripped (R41). -/
  clamp : Option Nat
  /-- Word tags that carry OVR after releases: first and last (R41). -/
  clampOvr : List (Nat × Nat)
  /-- Tag of the latest word that carried OVR (R40, R42). -/
  lastOvr : Option Nat
  /-- Tick index and number of words of that tick that failed their die-link ECC (R48). -/
  ecc : Nat × Nat
  /-- Fencing LCNT c_f (R50). -/
  fencedAt : Option Nat
  /-- Slot-monitor sums of the tick: code sum and sum of squares per slot, and words summed (R47). -/
  monSum : Tab Int
  monSq : Tab Int
  monWords : Nat
  /-- Consecutive ticks each slot missed a criterion of Table 2.5: mean, mean square. -/
  monBad : Tab (Nat × Nat)
  /-- Boundary at which the rotation of this array was last decided (R46). -/
  rotAt : Option Nat
  /-- Positions in service whose last estimate was discarded (R324). -/
  stale : List Nat
  deriving DecidableEq, Repr

/-- A converter array after a reset that reinitialises CONV: P0-P63 serve S0-S63, P64 is the spare. -/
def Chan.init : Chan where
  slots := []
  slotsPrev := []
  stepAt := none
  parked := []
  spare := some 64
  takeover := none
  due := none
  stepPending := false
  uHist := []
  clipPrev := false
  clamp := none
  clampOvr := []
  lastOvr := none
  ecc := (0, 0)
  fencedAt := none
  monSum := []
  monSq := []
  monWords := 0
  monBad := []
  rotAt := none
  stale := []

/-! ### Filter chain (spec/03) -/

/-- Outputs of one element waiting to reach the store writer (R63, R111): the element's index (the core cycle when D = 1), the
place of the first of these outputs in it, their stored values, the filtered values with their output index for the digital
comparators (R75), their marks, and the core cycle they are due. -/
structure FltOut where
  k : Nat
  sub : Nat
  vals : List Int
  ys : List (Nat × Int)
  marks : Marks
  due : Nat
  deriving DecidableEq, Repr

/-- A filter chain's registers (R56-R61). -/
structure Chain where
  active : Bool
  /-- First full-rate index of the committing tick of the latest restart (R71). -/
  start : Nat
  /-- Boundary of a restart whose first word has not come yet. -/
  restartAt : Option Nat
  /-- EQ inputs, newest first. -/
  eq : List Int
  /-- Integrators and combs of CIC-A and CIC-B, modulo 2^64 (R57). -/
  aInt : List Nat
  aComb : List Nat
  bInt : List Nat
  bComb : List Nat
  /-- Inputs of each halfband stage, newest first (R59). -/
  hb : Tab (List Int)
  /-- DC estimate d in units of 2^-(13+DC_K) LSB (R60). -/
  dc : Int
  /-- First word tag governed by the FREEZE bit now in its register, and the value before (R60). -/
  frz : Option (Nat × Bool)
  /-- Final FIR inputs, newest first (R61). -/
  fir : List Int
  /-- The block B_k being taken, and blocks complete and waiting: (k, min, max) (R65). -/
  blk : Option (Nat × Int × Int)
  blks : List (Nat × Int × Int)
  /-- Filtered values waiting for their block in envelope+filtered mode: (k, y). -/
  ys : List (Nat × Int)
  /-- Words with a side-band bit, newest first: word m / 64 of its full-rate samples, marks (R69). -/
  marks : List (Nat × Marks)
  /-- Values that saturated in a stage: the index m of the value's newest sample, and the largest m_k of an output that the
  later stages compute from it (R68). -/
  satTo : List (Nat × Nat)
  /-- Output samples not delivered yet, oldest first (R63). -/
  outs : List FltOut
  deriving DecidableEq, Repr

/-- An idle chain holds no state (R13, R71). -/
def Chain.init : Chain where
  active := false
  start := 0
  restartAt := none
  eq := []
  aInt := [0, 0, 0, 0]
  aComb := [0, 0, 0, 0]
  bInt := [0, 0, 0]
  bComb := [0, 0, 0]
  hb := []
  dc := 0
  frz := none
  fir := []
  blk := none
  blks := []
  ys := []
  marks := []
  satTo := []
  outs := []

/-! ### Trigger (spec/04) -/

/-- An analogue comparator beside its registers: positions lost (R81), and which position takes the next crossing. -/
structure Ac where
  lostA : Bool
  lostB : Bool
  nextB : Bool
  deriving DecidableEq, Repr

def Ac.init : Ac where
  lostA := false
  lostB := false
  nextB := false

/-- A digital comparator: its state, the crossing rules' ready flag, the last value, and values not yet scanned (R75, R82). -/
structure Dc where
  /-- Boundaries after which no value compares with one before, oldest first: an enabling with the state taken there (R74), or
  the end of a calibration hold, which keeps the state (R96). -/
  breaks : List (Nat × Option Bool)
  high : Bool
  ready : Bool
  prev : Option (Nat × Int)
  vals : List (Nat × Int)
  deriving DecidableEq, Repr

def Dc.init : Dc where
  breaks := []
  high := false
  ready := false
  prev := none
  vals := []

/-- A charge interpolator: ready from a core cycle on, the crossing it measures (cycle, comparator, rising), and the
start of its idle timer (R78). -/
structure Ip where
  readyAt : Nat
  meas : Option (Nat × Nat × Bool)
  idleFrom : Nat
  deriving DecidableEq, Repr

def Ip.init : Ip where
  readyAt := 0
  meas := none
  idleFrom := 0

/-- What an event in a group's queue is. -/
inductive EvKind where
  /-- A crossing of a source: code, rising, placed coarse. -/
  | cross (src : Nat) (rising coarse : Bool)
  /-- FORCE (R93). -/
  | force
  /-- TIMEOUT reached (R84). -/
  | timeout
  /-- PATTERN duration reached under WCOND = 1 (R84). -/
  | patDur
  deriving DecidableEq, Repr

/-- An event waiting for its decision at (t >> 16) + L_dec (R94). -/
structure TrgEv where
  t : Nat
  kind : EvKind
  deriving DecidableEq, Repr

/-- A group's partial trigger conditions (Table 4.4). -/
structure Part where
  /-- Rising-side first instant: a pulse begun, a RUNT or SLEW first crossing. -/
  p1 : Option Nat
  /-- The same for the falling side. -/
  p2 : Option Nat
  /-- Pending SEQUENCE A crossings. -/
  pend : List Nat
  /-- PATTERN is true; the start of its duration when it counts (R84). -/
  pat : Bool
  patFrom : Option Nat
  /-- Start of the TIMEOUT timer. -/
  toFrom : Option Nat
  deriving DecidableEq, Repr

def Part.init : Part where
  p1 := none
  p2 := none
  pend := []
  pat := false
  patFrom := none
  toFrom := none

/-! ### Records (spec/05) -/

/-- The layout a commit fixes for a group's images (R110-R112). -/
structure Layout where
  n : Nat
  d : Nat
  e : Nat
  v : Nat
  b : Nat
  w : Nat
  olin : Nat
  offWin : Nat
  offLin : Nat
  offMap : Nat
  offLensMap : Nat
  stride : Nat
  payload : Nat
  pages : Nat
  meas : Nat
  deriving DecidableEq, Repr

/-- A slot of a group's ring: the record's number, its first logical page and page count, and the readers that have not
released it (R122). -/
structure Slot where
  num : Nat
  lpage : Nat
  pages : Nat
  /-- Bound readers still to release it: queues q as q, streams q as 1024 + q. -/
  readers : List Nat
  /-- Span of the record, once closed, and its final header's cycle. -/
  span : Option (Nat × Nat)
  ready : Bool
  /-- A release requested before the trailer (R137). -/
  relReq : Bool
  /-- The measurement block is complete (R136). -/
  measured : Bool
  /-- Samples per core cycle of its traces. -/
  n : Nat
  deriving DecidableEq, Repr

/-- A fence entry of a record header (R114): channel mask and valid cycles. -/
structure FenceEnt where
  mask : Nat
  valid : Nat
  deriving DecidableEq, Repr

/-- An open record, or one whose final header is still to be written (R101, R109). -/
structure Rec where
  num : Nat
  kind : Nat
  t : Nat
  s : Nat
  e : Nat
  /-- First decision point d of R112 in core cycles (c_t + L_dec). -/
  dec : Nat
  shortfall : Nat
  /-- First core cycle after the previous record's span, or the arming LCNT (R121). -/
  since : Nat
  dead : Nat
  missed : Nat
  held : Nat
  mask : Nat
  lpage : Nat
  lay : Layout
  len : Nat
  pre : Nat
  redCode : Nat
  lens : Option (Int × Nat)
  epoch : Nat
  fences : List FenceEnt
  flags : Nat
  warnRails : Nat
  drift : Nat
  tempMax : Int
  tempHub : Int
  gaps : Nat
  gapSamples : Nat
  deriving DecidableEq, Repr

/-- Core cycles that a cause takes from channels of a group (R118): the first, and the first after them once known. -/
structure Loss where
  cause : Nat
  mask : Nat
  first : Nat
  stop : Option Nat
  deriving DecidableEq, Repr

/-- Why an acquisition stops (R92, R103, R123): a STOP command, its count complete, or the STOP policy. -/
inductive StopWhy where
  | command
  | count
  | pressure
  deriving DecidableEq, Repr

/-- An open gap of a group (R118, R119). -/
structure OpenGap where
  start : Nat
  cause : Nat
  mask : Nat
  deriving DecidableEq, Repr

/-- An acquisition group beside its registers. -/
structure Grp where
  /-- An ARM write waits for the next boundary (R89). -/
  armReq : Option Nat
  armed : Bool
  armLcnt : Nat
  /-- A stop: its a, and why (R92, R103, R123). -/
  stopReq : Option (Nat × StopWhy)
  /-- Events not decided yet, by instant (R94). -/
  events : List TrgEv
  /-- States of the sources in the order of decided instants: a code listed is high. -/
  high : List Nat
  part : Part
  /-- Instant of the latest event evaluated (R97). -/
  evAt : Nat
  /-- Boundaries of definition changes whose partial conditions are still to be discarded, oldest first (R414). -/
  defAt : List Nat
  /-- Last accepted instant t_p of this acquisition and the candidates counted since (R87). -/
  tp : Option Nat
  candSince : Nat
  /-- Instant of the latest of them and how many had it (R87 counts those before an instant). -/
  candAt : Nat × Nat
  /-- Missed and held counts since the previous record's trigger (R88). -/
  missed : Nat
  held : Nat
  /-- First core cycle whose instants can be accepted; none while not accepting (R91). -/
  readyFrom : Option Nat
  /-- Region start r (R101). -/
  region : Nat
  /-- Claimed slot: first logical page; the channels that have a block in its window. -/
  claim : Option Nat
  winMask : Nat
  /-- The record whose slot may hold elements of the next record's window: those that came before its decision (R112). -/
  winFrom : Option Rec
  /-- The open record. -/
  cur : Option Rec
  /-- Records whose span ended and whose final header is due, oldest first. -/
  closing : List Rec
  /-- Span end of the previous record of this acquisition. -/
  ePrev : Option Nat
  /-- Records whose span ended, newest first: number, span; and the number of the newest one no longer listed, for gap
  descriptors (R117, R119). -/
  pastRecs : List (Nat × Nat × Nat)
  lastNum : Option Nat
  /-- Records of this acquisition (R99). -/
  segs : Nat
  /-- Grid index of the continuous record (R102). -/
  grid : Nat
  /-- Records not released, oldest first. -/
  slots : List Slot
  /-- Physical page of a logical page; unlisted logical page l is RING_BASE + l (R122). -/
  pmap : Tab Nat
  /-- Free reserve pages, and pages pinned outside the ring. -/
  reserve : List Nat
  /-- Pinned physical pages with their reader (R124). -/
  pins : List (Nat × Nat)
  /-- HOLD waits for a slot (R123). -/
  hold : Bool
  /-- WRAP could not exchange a pinned page (R123). -/
  wrapHold : Bool
  /-- Cycles lost to a cause; the first core cycle not yet put into gaps, and the gaps open there (R118, R119). -/
  losses : List Loss
  gapPos : Nat
  gaps : List OpenGap
  /-- The last loss is a STORE_BUDGET run that the next words can extend: the first core cycle not decided yet (R162). -/
  drop : Option Nat
  nextGap : Nat
  gapIdx : Nat
  /-- Descriptors in the gap ring, and descriptors overwritten (R120). -/
  gapHeld : Nat
  gapOvf : Nat
  /-- Descriptors that later records can still need: first cycle, first cycle after, channel mask (R19, R21, R121). -/
  recentGaps : List (Nat × Nat × Nat)
  /-- Side-band entries of elements, and of lens cycles: element or core cycle, channel, flag nibble (R107, R113). -/
  flagged : List (Nat × Nat × Nat)
  lensFlags : List (Nat × Nat × Nat)
  /-- Next logical page to claim. -/
  head : Nat
  /-- A record was opened since the last cold reset; FIRST_NUM as the latest commit left it, none before the first (R105). -/
  opened : Bool
  firstNum : Option Nat
  /-- Ring base, ring pages, reserve pages, gap-ring page and pages for which the slots and maps stand (R120, R122). -/
  geom : Nat × Nat × Nat × Nat × Nat
  /-- Core cycles of which some outputs are still to be offered to the staging half: 2·cycle (2·cycle + 1 for its lens words),
  whether its words fit, outputs left (R162). -/
  fit : List (Nat × Bool × Nat)
  /-- Last core cycle whose data is in the store, as of the latest boundary (R120, R163). -/
  durable : Nat
  /-- Items for record streams in order of eligibility, and the next place (R186). -/
  items : List StmItem
  itemOrd : Nat
  deriving DecidableEq, Repr

def Grp.init : Grp where
  armReq := none
  armed := false
  armLcnt := 0
  stopReq := none
  events := []
  high := []
  part := Part.init
  evAt := 0
  defAt := []
  tp := none
  candSince := 0
  candAt := (0, 0)
  missed := 0
  held := 0
  readyFrom := none
  region := 0
  claim := none
  winMask := 0
  winFrom := none
  cur := none
  closing := []
  ePrev := none
  pastRecs := []
  lastNum := none
  segs := 0
  grid := 0
  slots := []
  pmap := []
  reserve := []
  pins := []
  hold := false
  wrapHold := false
  losses := []
  gapPos := 0
  gaps := []
  drop := none
  nextGap := 0
  gapIdx := 1
  gapHeld := 0
  gapOvf := 0
  recentGaps := []
  flagged := []
  lensFlags := []
  head := 0
  opened := false
  firstNum := none
  geom := (0, 0, 0, 0, 1)
  fit := []
  durable := 0
  items := []
  itemOrd := 0

/-! ### Central store (spec/07) -/

/-- A write waiting in a staging half: n bits at a bit address of the store, the group whose data it is (16 for none),
the core cycle of the data, and its size in bits when it takes space of the part that can run full (R161, R162). -/
structure StW where
  addr : Nat
  n : Nat
  v : Nat
  grp : Nat
  tag : Nat
  cost : Nat
  deriving DecidableEq, Repr

/-- A read that waits for capacity (R164): its class, who asks, the bytes still to serve, and the tick it was made in. -/
structure Req where
  cls : Nat
  key : Nat
  bytes : Nat
  since : Nat
  deriving DecidableEq, Repr

/-- The store controller beside its registers. -/
structure Sto where
  /-- Active pseudo-channels' complement: those fenced by a cold self-test (R155, R156). -/
  fenced : List Nat
  /-- Stacks failed at run time (R173). -/
  failed : List Nat
  /-- Uncorrectable errors of the tick: (tick, stack, channel group) (R173). -/
  ueTick : List (Nat × Nat)
  /-- Corrected errors per row of this scrub pass: row key to count (R160). -/
  rowCe : Tab Nat
  /-- Rows being copied: (pseudo-channel, row) (R160). -/
  copies : List (Nat × Nat)
  /-- CRC errors of the tick per pseudo-channel (R160). -/
  laneCrc : Tab Nat
  /-- Spares used: rows and lane per pseudo-channel. -/
  rowsUsed : Tab Nat
  laneUsed : List Nat
  /-- Bursts queued for scrub write-back (R158, R159). -/
  scrubQ : List Nat
  /-- Bursts that read poisoned: uncorrectable until written again, and those a link failure spoiled in this tick (R157, R158). -/
  bad : List Nat
  badLink : List Nat
  /-- Pseudo-channels whose lane is replaced at the next boundary (R160). -/
  laneDue : List Nat
  /-- Reads that wait for capacity (R164), and the bytes granted to each class and served to it in this tick (R165). -/
  reqs : List Req
  granted : Tab Nat
  served : Tab Nat
  /-- Pseudo-channels whose failure has been logged and that await fencing (R156). -/
  pendPc : List Nat
  /-- Bursts of the page being scrubbed that the scrubber has read (R159). -/
  scrubSeen : List Nat
  deriving DecidableEq, Repr

def Sto.init : Sto where
  fenced := []
  failed := []
  ueTick := []
  rowCe := []
  copies := []
  laneCrc := []
  rowsUsed := []
  laneUsed := []
  scrubQ := []
  bad := []
  badLink := []
  laneDue := []
  reqs := []
  granted := []
  served := []
  pendPc := []
  scrubSeen := []

/-! ### Time (spec/12) -/

/-- A parameter epoch (R268): number, LCNT_EPOCH, OFFSET, PERIOD in 2^-40 ns, cause bits (Table 12.1). -/
structure Epoch where
  num : Nat
  lcnt : Nat
  sec : Nat
  ns : Nat
  sub : Nat
  period : Nat
  cause : Nat
  deriving DecidableEq, Repr

/-- A full stamp (R272). -/
structure Stamp where
  sec : Nat
  ns : Nat
  sub : Nat
  deriving DecidableEq, Repr

/-- The servo (R278-R281). y in units of 2^-40 exactly as TIME_RATE shows it is rounded; here it is a fraction num / den. -/
structure Servo where
  yNum : Int
  yDen : Nat
  /-- Sum in 2^-16 ns and number of the accepted offsets since the last update, and that update's boundary. -/
  sum : Int
  cnt : Nat
  last : Nat
  /-- Consecutive updates within 100 ns, and consecutive refused updates. -/
  good : Nat
  refused : Nat
  /-- The next update is the first after start (FIRST_FREE, R281). -/
  first : Bool
  /-- Identity of the grandmaster in use. -/
  gm : Nat
  deriving DecidableEq, Repr

def Servo.init : Servo where
  yNum := 0
  yDen := 1
  sum := 0
  cnt := 0
  last := 0
  good := 0
  refused := 0
  first := true
  gm := 0

/-- A staged write of time (R285): TIME_STAGE_CMD bits and the boundary it is due at. -/
structure Staged where
  period : Bool
  add : Bool
  abs : Bool
  due : Nat
  deriving DecidableEq, Repr

/-- What is due at the next time publication (Table 12.1). -/
inductive TimeCause where
  /-- Fs step or bypass transition: bit, nominal period as numerator and denominator (R415). -/
  | nominal (bit num den : Nat)
  /-- NTO_STOP (R263). -/
  | ntoStop
  /-- SERVO_RATE: PERIOD as a multiple num / den of p_nom. -/
  | rate (num den : Int)
  /-- SERVO_STEP: step in 2^-16 ns. -/
  | step (d : Int)
  deriving DecidableEq, Repr

/-- An entry of the transmit stamp queue (R283). -/
structure TxStamp where
  st : Stamp
  epoch : Nat
  id : Nat
  typ : Nat
  port : Nat
  deriving DecidableEq, Repr

/-- A PTP port beside TIME_PTP_PORT: mean path delay in 2^-16 ns, Syncs awaiting their Follow_Up (sequenceId, receipt
time), announce sequence number (R274-R278). -/
structure PtpPort where
  mpd : Int
  syncs : List (Nat × Int)
  annSeq : Nat
  /-- Residence times of two-step Syncs sent on, for their Follow_Ups (R276): sequenceId, 2^-16 ns. -/
  resid : List (Nat × Int)
  /-- Pdelay_Reqs to answer: sequenceId, receipt time. -/
  reqs : List (Nat × Int)
  /-- Intervals a peer has asked for under 802.1AS (R274): Announce, Sync, Pdelay_Req. -/
  intv : Option (Nat × Nat × Nat)
  deriving DecidableEq, Repr

def PtpPort.init : PtpPort where
  mpd := 0
  syncs := []
  annSeq := 0
  resid := []
  reqs := []
  intv := none

/-! ### Power, keeper (spec/17) -/

/-- The keeper domain (R367) beside its registers. -/
structure Keeper where
  valid : Bool
  lcntSave : Nat
  seqSave : Nat
  epochSave : Option Epoch
  deriving DecidableEq, Repr

/-- Supplies, pins and resets in progress (R370-R379). -/
structure Pwr where
  pwrOk : Bool
  /-- Episodes running: rail bit, start LCNT. -/
  episodes : List (Nat × Nat)
  /-- Episodes ended: rail bit, start LCNT, end LCNT (record flag SUPPLY_WARN). -/
  past : List (Nat × Nat × Nat)
  /-- A long core or analogue episode waits for its state check: start LCNT, end LCNT (R378). -/
  check : Option (Nat × Nat)
  /-- SUPPLY gaps whose end is known and still to come: channels, first core cycle after (R378). -/
  supply : List (Nat × Nat)
  /-- VDD_ANA below its fault level since (Table 17.6). -/
  anaFault : Option Nat
  /-- A thermal reset is held (R379). -/
  thermalHold : Bool
  /-- A warm reset with cause CORE_LOSS waits for the supply (R370). -/
  coreLoss : Bool
  /-- Groups whose reset waits for the next boundary (R374). -/
  grpReset : Nat
  /-- Network lane groups that self-test fenced (Table 17.4). -/
  laneFence : Nat
  deriving DecidableEq, Repr

def Pwr.init : Pwr where
  pwrOk := true
  episodes := []
  past := []
  check := none
  supply := []
  anaFault := none
  thermalHold := false
  coreLoss := false
  grpReset := 0
  laneFence := 0

/-! ### Twin and log (spec/18) -/

/-- The mirror link beside its registers (R382-R389). -/
structure Twin where
  /-- Consecutive good frames while searching, consecutive bad frames while aligned (R382). -/
  good : Nat
  bad : Nat
  /-- The last heartbeat or handover received (Table 18.2). -/
  peer : Option PeerState
  /-- LCNT at which the last heartbeat or handover arrived. -/
  peerAt : Nat
  /-- A heartbeat arrived since the last boundary, and boundaries missed in a row (R387). -/
  hbSince : Bool
  misses : Nat
  /-- A HANDOVER arrived; HANDOVER is to be sent; the link aligned and roles are to be settled. -/
  handoverRx : Bool
  handoverTx : Bool
  fresh : Bool
  /-- LCNT from which the next ECHO is due (R384). -/
  echoAt : Nat
  /-- The peer's last heartbeat showed another image sequence or CFG_SEQ (R385). -/
  differ : Bool
  /-- A takeover was made since the last standby role or cold reset (R388). -/
  source : Bool
  /-- A HANDOVER was sent and the peer has not shown itself primary yet. -/
  yielded : Bool
  deriving DecidableEq, Repr

def Twin.init : Twin where
  good := 0
  bad := 0
  peer := none
  peerAt := 0
  hbSince := false
  misses := 0
  handoverRx := false
  handoverTx := false
  fresh := false
  echoAt := 0
  differ := false
  source := false
  yielded := false

/-- A log entry (Table 18.3). data is the 96-bit data field as a number. -/
structure LogEnt where
  lcnt : Nat
  epoch : Nat
  code : Nat
  locus : Nat
  data : Nat
  seq : Nat
  deriving DecidableEq, Repr

/-- The log beside its registers (R391-R397). -/
structure Log where
  /-- The ring, newest first, at most 4096 entries. -/
  ring : List LogEnt
  /-- Entries not copied into the store copy yet: how many of the newest (R391). -/
  uncopied : Nat
  /-- Recent boundaries at which entries were copied: boundary, sequence after the last one copied. -/
  copied : List (Nat × Nat)
  /-- Codes and loci written in the current tick (R394). -/
  seen : List (Nat × Nat)
  /-- The vector was signalled in this tick (R397). -/
  signalled : Bool
  /-- Core cycle of the latest writes, and how many of the newest entries were written in it (R391, same-cycle order). -/
  cyc : Nat
  cycN : Nat
  /-- The condition of a FATAL entry still lasts (R396). -/
  fatalCond : Bool
  deriving DecidableEq, Repr

def Log.init : Log where
  ring := []
  uncopied := 0
  copied := []
  seen := []
  signalled := false
  cyc := 0
  cycN := 0
  fatalCond := false

/-! ### Abacus and tally (spec/06) -/

/-- A record in the abacus queue (R136): its group, the record, the core cycle F of its final header, and the register set under
which it was laid out, whose slots measure it (R127). -/
structure AbaJob where
  grp : Nat
  rcd : Rec
  fin : Nat
  cfg : RegTab
  deriving DecidableEq, Repr

/-- The settings under which a record is averaged (R139-R142): samples, offset from j_t, samples per core cycle, the frame's
format, REJECT_OVR, COUNT, AUTO, the area's first page, and the group's channels, whose places the area has. -/
structure AvgCfg where
  len : Nat
  off : Int
  n : Nat
  fmt : Nat
  ovr : Bool
  count : Nat
  auto : Bool
  base : Nat
  chs : List Nat
  deriving DecidableEq, Repr

def AvgCfg.init : AvgCfg where
  len := 0
  off := 0
  n := 64
  fmt := 0
  ovr := false
  count := 1
  auto := true
  base := 0
  chs := []

/-- An offered or landed record of an averaging set (R139-R141): its number, instant, channel mask, the first sample's
full-rate index, the tag of the word with the last sample, its landing slot, and whether the set closes after it because the
group has stopped (R142). -/
structure AvgJob where
  num : Nat
  t : Nat
  /-- First core cycle of the record's span. -/
  s : Nat
  mask : Nat
  j0 : Int
  endTag : Nat
  slot : Nat
  marks : Marks
  cut : Bool
  cfg : AvgCfg
  deriving DecidableEq, Repr

/-- A group's averaging set (R139-R142). -/
structure Avg where
  /-- The accumulator buffer of the open set (R142), and the settings of its first record. -/
  buf : Nat
  cfg : AvgCfg
  count : Nat
  mask : Nat
  rej : Nat
  firstCt : Nat
  lastCt : Nat
  marks : Marks
  paused : Bool
  /-- Offered records whose samples have not all passed, and landed records, oldest first (at most two). -/
  offered : List AvgJob
  landed : List AvgJob
  frame : Nat
  deriving DecidableEq, Repr

def Avg.init : Avg where
  buf := 0
  cfg := AvgCfg.init
  count := 0
  mask := 0
  rej := 0
  firstCt := 0
  lastCt := 0
  marks := ⟨false, false, false⟩
  paused := false
  offered := []
  landed := []
  frame := 0

/-- A record whose waveform a database waits for (R143): its group, instant and span start. -/
structure HitWait where
  g : Nat
  t : Nat
  s : Nat
  deriving DecidableEq, Repr

/-- A running snapshot copy (R146): start LCNT, waveforms drawn and skipped before it, the cells it carries, the frame's number,
its first ring page unless the frame is lost, and the settings its header shows (Table 6.5). -/
structure DbCopy where
  start : Nat
  drawn : Nat
  skipped : Nat
  cells : Tab Nat
  num : Nat
  page : Option Nat
  xoff : Nat
  ch : Nat
  xdec : Nat
  deriving DecidableEq, Repr

/-- A hit database (R143-R147). -/
structure Db where
  /-- Count of column i, row r at key 2048·r + i. -/
  cells : Tab Nat
  /-- Records whose last column has not passed, oldest first. -/
  waiting : List HitWait
  drawn : Nat
  skipped : Nat
  snapReq : Bool
  clearReq : Bool
  decayReq : Bool
  copy : Option DbCopy
  /-- A running sweep: start LCNT, and cells that an update reached after the sweep did (R145). -/
  sweep : Option (Nat × List Nat)
  /-- Ticks of the last decay and snapshot due. -/
  lastDecay : Nat
  lastSnap : Nat
  frame : Nat
  deriving DecidableEq, Repr

def Db.init : Db where
  cells := []
  waiting := []
  drawn := 0
  skipped := 0
  snapReq := false
  clearReq := false
  decayReq := false
  copy := none
  sweep := none
  lastDecay := 0
  lastSnap := 0
  frame := 0

/-- A waveform in the hit engine's queue: database, channel, core cycle of entry, updates (cell keys) (R144). -/
structure HitJob where
  d : Nat
  ch : Nat
  at_ : Nat
  cells : List Nat
  deriving DecidableEq, Repr

/-- A frame in the tally ring (R149): first ring page, pages, type, source index, frame number, readers still sending it. -/
structure Frame where
  page : Nat
  pages : Nat
  typ : Nat
  src : Nat
  num : Nat
  /-- Place in the order of publication. -/
  pub : Nat
  pins : Nat
  /-- Tick of its publication, and frame LCNT (Table 6.5). -/
  tick : Nat
  lcnt : Nat
  /-- Bytes of the image. -/
  len : Nat
  deriving DecidableEq, Repr

/-! ### Calibration (spec/14) -/

/-- A foreground run on one die (R317): channel mask (event inputs for the hub), procedures, the core cycle of the request,
b0 and b_rel once started, and whether the hold's 64 words after b_rel are still to pass. -/
structure CalRun where
  die : Nat
  mask : Nat
  proc : Nat
  reqAt : Nat
  start : Option (Nat × Nat)
  settling : Bool
  /-- The hold has ended; kept until its last words have passed. -/
  ended : Bool
  deriving DecidableEq, Repr

/-- Calibration beside its registers. -/
structure Cal where
  runs : List CalRun
  /-- Unfinished dies release at the next boundary: ERR code, and the boundary where it is known already (R320). -/
  abort : Option (Nat × Option Nat)
  /-- Dies whose captures of this tick did not fit the staging half (R162). -/
  lost : List Nat
  /-- A save being written (R323): slot, sequence, the copy's bytes. -/
  saving : Option (Nat × Nat × List (BitVec 8))
  saveDue : Bool
  /-- Sequence and slot of the newest copy; and of both copies where valid. -/
  seqA : Option Nat
  seqB : Option Nat
  /-- Epoch and LCNT of the run that measured each die's set (Table 14.2). -/
  dieEpoch : Tab (Nat × Nat)
  /-- Level trims per comparator, input alignments per channel (R310). -/
  trims : Tab Int
  align : Tab Int
  /-- Temperature reports of the converter dies, newest first: die, core cycle, °C; and their drift advisories: die, first core
  cycle, first after it (R108). -/
  temps : List (Nat × Nat × Int)
  advs : List (Nat × Nat × Option Nat)
  /-- Core cycle since which each die's advisory is set, until its run is requested (R326). -/
  since : Tab Nat
  /-- The boundary from which the host schedule's next period counts (R326). -/
  schedAt : Nat
  /-- A run ended with results since the last save. -/
  results : Bool
  deriving DecidableEq, Repr

def Cal.init : Cal where
  runs := []
  abort := none
  lost := []
  saving := none
  saveDue := false
  seqA := none
  seqB := none
  dieEpoch := []
  trims := []
  align := []
  temps := []
  advs := []
  since := []
  schedAt := 0
  results := false

/-! ### Image and commits (spec/16) -/

/-- An image as the loader reads it (R348-R350): sequence, flash mode, node, write records in order, ARM section
(mask, wait, timeout), BUDGET section (W, W_acq + W_cal), section count. -/
structure Image where
  seq : Nat
  mode : Nat
  node : Nat
  writes : List (Nat × List Nat)
  arm : Option (Nat × Nat × Nat)
  budget : Option (Nat × Nat)
  secs : Nat
  deriving DecidableEq, Repr

/-- Who requested a commit: the host, the loader at start-up, a RELOAD of a slot (R352, R363). -/
inductive Origin where
  | host
  | loader
  | reload (slot : Nat) (img : Image)
  deriving DecidableEq, Repr

/-- A pending commit (R356): WHEN, GROUP, request cycle, the TICK boundary, the target LCNT, boundaries passed without a
record boundary, origin. -/
structure Commit where
  kind : Nat
  grp : Nat
  a : Nat
  due : Nat
  at_ : Nat
  waited : Nat
  origin : Origin
  deriving DecidableEq, Repr

/-- The loader (R352): slots read, valid images, the slot whose sections stand in the shadow set, slots tried. -/
structure Loader where
  imgA : Option Image
  imgB : Option Image
  slot : Option Nat
  tried : List Nat
  img : Option Image
  /-- The fallback image stands in the shadow set and its commit is still to be requested (R352). -/
  waiting : Bool
  /-- The flash part answered SFDP and is large enough (R346). -/
  part : Bool
  deriving DecidableEq, Repr

def Loader.init : Loader where
  imgA := none
  imgB := none
  slot := none
  tried := []
  img := none
  waiting := false
  part := true

/-- Groups an ARM section still has to arm (R354): mask, wait mode, deadline boundary. -/
structure ArmPlan where
  mask : Nat
  wait : Nat
  deadline : Nat
  deriving DecidableEq, Repr

/-- A flash command running or waiting (R362): operation, address. -/
structure FlashOp where
  op : Nat
  addr : Nat
  buf : List (BitVec 8)
  deriving DecidableEq, Repr

/-! ### Sample clock (spec/11) -/

/-- The sample loop beside its registers (R253-R263). -/
structure Clk where
  /-- FCW (INT, FRAC, MOD) and REF_SEL the loop works toward, and FCW at which the current band was chosen (R257). -/
  band : Nat × Nat × Nat
  /-- Binary search of the coarse band: bounds and steps left (R255). -/
  lo : Nat
  hi : Nat
  steps : Nat
  /-- The acquisition in progress went through SEARCH. -/
  searched : Bool
  /-- Band table entries, most recently used first (R255). -/
  used : List Nat
  /-- Switch to bypass waiting for its boundary: c_d (R259). -/
  toBypass : Option Nat
  /-- LOCKED was declared in this core cycle and the fabric has not returned (R262). -/
  toReturn : Option Nat
  /-- The latest PLL_BYPASS gap: its first core cycle, and the first valid one after it, t_r + 64, once known (R261, R262). -/
  gap : Nat × Option Nat
  /-- The fabric runs on the held oscillator after CLKBYP was lost (R263). -/
  held : Bool
  /-- Core cycles run on the CLKBYP-derived clock: first, and first after, newest first (record flag BYPASS). -/
  bypass : List (Nat × Option Nat)
  /-- CLK words of the image that the loader handed to the loop before its first commit (R377). -/
  hand : RegTab
  deriving DecidableEq, Repr

def Clk.init : Clk where
  band := (0xA0, 0, 1)
  lo := 0
  hi := 255
  steps := 0
  searched := false
  used := []
  toBypass := none
  toReturn := none
  gap := (0, none)
  held := false
  bypass := [(0, none)]
  hand := []

/-! ### Event inputs (spec/13) -/

/-- A stamp: instant, rising, edge counter, taken on the CLKBYP-derived clock (Table 13.4). -/
structure EvStamp where
  t : Nat
  rising : Bool
  cnt : Nat
  byp : Bool
  deriving DecidableEq, Repr

/-- An event interpolator: ready from a core cycle on, the edge it measures (cycle, rising, count, selected for stamping). -/
structure EvIp where
  readyAt : Nat
  meas : Option (Nat × Bool × Nat)
  deriving DecidableEq, Repr

/-- An event input beside its registers (R287-R308). -/
structure Ev where
  ip0 : EvIp
  ip1 : EvIp
  /-- FIFO entries as 16-byte values, oldest first (R297), and the run of lost edges: first detection cycle and count. -/
  fifo : List (List (BitVec 8))
  lost : Option (Nat × Nat)
  /-- Next slot of the ring, whether every slot has been written, and the overflow count (R298). -/
  ringIdx : Nat
  ringFull : Bool
  ringOvf : Nat
  /-- EVT_IN_RING for which the ring stands. -/
  ringGeom : Word
  startReq : Option Nat
  /-- Measurement start b, and gate index (R304). -/
  b : Nat
  gate : Nat
  /-- Next sampling instant's index (R294). -/
  sample : Nat
  /-- INTERVAL or STATS: start stamp waiting for its stop, first instant a new one may have; sums, minimum, maximum and
  number of the intervals measured, in 2^-16 core cycle, or 2^-16 ns under SCALE = 1 (R301-R303). -/
  open_ : Option EvStamp
  after : Nat
  sum : Int
  sumSq : Int
  mn : Int
  mx : Int
  n : Nat
  first : Option EvStamp
  /-- Stamps of the gates not published yet (FREQ), oldest first. -/
  stamps : List EvStamp
  /-- Detection cycles of selected edges lost while a gate ran (FREQ). -/
  lostAt : List Nat
  /-- Latest stamps with their detection cycles, oldest first (R301). -/
  recent : List (Nat × EvStamp)
  /-- Coarse instants of edges of STOP_IN lost since the open start (R301). -/
  lostStop : List Int
  /-- Qualifiers gathered: LOST, BYPASS, STEPPED, SINGLE (Table 13.5). -/
  qual : Nat
  /-- Results waiting for their publication: core cycle and block without SEQ (R306). -/
  results : List (Nat × Nat)
  /-- CONT is 0 and the last result only waits for its publication. -/
  ready : Bool
  deriving DecidableEq, Repr

def Ev.init : Ev where
  ip0 := ⟨0, none⟩
  ip1 := ⟨0, none⟩
  fifo := []
  lost := none
  ringIdx := 4
  ringFull := false
  ringOvf := 0
  ringGeom := 0x01000000
  startReq := none
  b := 0
  gate := 0
  sample := 0
  open_ := none
  after := 0
  sum := 0
  sumSq := 0
  mn := 0
  mx := 0
  n := 0
  first := none
  stamps := []
  lostAt := []
  recent := []
  lostStop := []
  qual := 0
  results := []
  ready := false

/-- What a warm reset keeps of an input: where its ring in the store stands (R298, Table 17.3). -/
def Ev.kept (e : Ev) : Ev :=
  { Ev.init with ringIdx := e.ringIdx, ringFull := e.ringFull, ringOvf := e.ringOvf, ringGeom := e.ringGeom }

/-! ### Service die (spec/15) -/

/-- A link frame sent and not applied (R330): boundary, changed offset, excitation and relay masks, and whether it carries
every code (the first frame after the safe state). -/
structure SvcFrame where
  t0 : Nat
  ofs : Nat
  exc : Nat
  rly : Nat
  full : Bool
  deriving DecidableEq, Repr

/-- The service die beside its registers (R330-R344). Per output n: offset DAC n at key n, excitation source n at 48 + n. -/
structure Svc where
  frame : Option SvcFrame
  /-- Codes c' at the outputs, sources enabled, relays on. -/
  outs : Tab Int
  enabled : Nat
  relays : Nat
  /-- Codes of the last frame applied or sent: written codes. -/
  sent : Tab Nat
  sentRly : Nat
  /-- SAFE_EXC, SAFE_RLY and SVC_RLY_SAFE as the die holds them. -/
  safeExc : Bool
  safeRly : Bool
  rlySafe : Nat
  /-- Corrections: offset, gain per output; monitor offset and gain (Table 14.2). -/
  corr : Tab (Int × Nat)
  monOff : Int
  monGain : Nat
  /-- Faults logged since the last strobe or clear, per source; RETRY since. -/
  logged : Nat
  /-- Monitor: index of the point being converted, cycle start, out-of-tolerance readings per output, last strobe per output. -/
  point : Nat
  cycleStart : Nat
  bad : Tab Nat
  strobe : Tab Nat
  /-- LCNT of the last good frame; entry into the safe state. -/
  goodAt : Nat
  safeAt : Nat
  powered : Bool
  deriving DecidableEq, Repr

def Svc.init : Svc where
  frame := none
  outs := []
  enabled := 0
  relays := 0
  sent := []
  sentRly := 0
  safeExc := false
  safeRly := false
  rlySafe := 0
  corr := []
  monOff := 0
  monGain := 1073741824
  logged := 0
  point := 0
  cycleStart := 0
  bad := []
  strobe := []
  goodAt := 0
  safeAt := 0
  powered := false

/-! ### Raster scan-out (spec/10) -/

/-- A layer's latched snapshot (R233): layer, database, order of publication and cell address when one exists, and
whether it pins that snapshot's pages now. -/
structure Latch where
  layer : Nat
  db : Nat
  snap : Option (Nat × Nat)
  pinned : Bool
  deriving DecidableEq, Repr

/-- The scan-out beside its registers. -/
structure Disp where
  /-- DP_HPD level; the link is trained; it sends from the next VBLANK_START on. -/
  hpd : Bool
  trained : Bool
  sendNext : Bool
  /-- EN went to 0: output stops at the next VBLANK_START (R244). -/
  stopNext : Bool
  /-- Frame fields waiting (R243): words, and VBLANK_STARTs still to pass before they apply. -/
  pend : List (RegTab × Nat)
  /-- Line of the latest line start. -/
  line : Nat
  latches : List Latch
  /-- Rows in the line buffer: layer, row, poisoned bursts (R239, R241). -/
  rows : List (Nat × Nat × List Nat)
  /-- Rows of the frame that a layer has still to fetch, the next of them row left − 1; an unlisted layer has all 1024 (R239). -/
  left : Tab Nat
  /-- Running signature of the frame; the even line kept for 4:2:0; the last complete pixel (Y, Cb, Cr). -/
  crc : Nat
  even : List (Nat × Nat × Nat)
  last : Nat × Nat × Nat
  /-- A new snapshot was latched, or a CLEAR or display commit took effect in this frame (R246). -/
  fresh : Bool
  /-- Waveform counts of the databases at the latest VBLANK_START. -/
  wfm : List Nat
  /-- Consecutive data-free frames; consecutive frames with one signature and changing counts. -/
  free : Nat
  same : Nat
  deriving DecidableEq, Repr

def Disp.init : Disp where
  hpd := false
  trained := false
  sendNext := false
  stopNext := false
  pend := []
  line := 0
  latches := []
  rows := []
  left := []
  crc := 4294967295
  even := []
  last := (16, 128, 128)
  fresh := true
  wfm := []
  free := 0
  same := 0

/-! ### Scan port (spec/19) -/

/-- The test access port of IEEE 1149.1 (R407): controller state 0-15, instruction, shift registers, oldest bit first. -/
structure Tap where
  st : Nat
  ir : List Bool
  irSh : List Bool
  drSh : List Bool
  deriving DecidableEq, Repr

def Tap.init : Tap where
  st := 0
  ir := []
  irSh := []
  drSh := []

/-! ### The state -/

/-- The whole state. Registers have one home: regs holds every register word's value in force (for RWS fields the active
value), shadow the shadow values (R355). The other fields hold what no register shows. -/
structure State where
  pending : List Instr
  out : List Out
  /-- Free values drawn so far (log entry 5). -/
  free : Nat
  lcnt : Nat
  /-- The last tick boundary whose actions of R15 ran. -/
  tick : Nat
  regs : RegTab
  /-- Register sets that commits replaced, newest first: the boundary, and the set in force before it. Words and instants before
  the boundary still use it. -/
  hist : List (Nat × RegTab)
  shadow : RegTab
  /-- Latched words of half and block reads: key 2^24·function + offset (R5, R226, R271, R283, R308, R391, R395). -/
  latch : Tab Word
  /-- Held low halves of 64-bit writes, same key (R226). -/
  held : Tab (Option Word)
  commit : Option Commit
  loader : Loader
  armPlan : Option ArmPlan
  flash : Mem
  flashOps : List FlashOp
  chans : Tab Chan
  /-- Corrected words delivered and still needed by lens, averages and hits: per channel, newest first: full-rate index / 64, 64 codes, marks. -/
  words : Tab (List (Nat × List Int × Marks))
  chains : Tab Chain
  acs : Tab Ac
  dcs : Tab Dc
  ints : Tab Ip
  /-- Interpolators to be replaced at the next boundary (R81). -/
  intSwaps : List (Nat × Nat)
  grps : Tab Grp
  store : Mem
  stageFill : List StW
  stageDrain : List StW
  fillData : Nat
  drainData : Nat
  sto : Sto
  abaQ : List AbaJob
  /-- Skipped records whose blocks of NOT_RUN entries are still to be written (R137). -/
  abaSkip : List AbaJob
  abaEnd : Nat
  avgs : Tab Avg
  dbs : Tab Db
  hitQ : List HitJob
  hitEnd : Nat
  tallyPage : Nat
  /-- Tally ring base and pages for which the frames stand. -/
  tallyGeom : Nat × Nat
  frames : List Frame
  /-- Frames published so far (R187). -/
  framePub : Nat
  ports : Tab Port
  strms : Tab Strm
  hostqs : Tab HostQ
  /-- The queue whose turn it is at each priority level (R206). -/
  dmaTurn : Tab Nat
  msix : Msix
  disp : Disp
  tap : Tap
  /-- The loader has read both image slots (R199). -/
  cfgReady : Bool
  clk : Clk
  epochs : List Epoch
  timeDue : List TimeCause
  /-- Nominal period p_nom in force, in 2^-40 ns, as numerator and denominator (R415). -/
  pnom : Nat × Nat
  servo : Servo
  stage : Option Staged
  txq : List TxStamp
  ptp : Tab PtpPort
  evs : Tab Ev
  cal : Cal
  svc : Svc
  keeper : Keeper
  pwr : Pwr
  twin : Twin
  log : Log
  /-- SMBus: register offset selected (R398). -/
  smb : Nat
  deriving DecidableEq, Repr

/-- Epoch 0 of State.reset: START at LCNT 0 with keeper seconds 0 and the bypass clock's nominal period (R371, R281, R415):
2^40·10^9/F_b with F_b = 500 MHz. -/
def Epoch.zero : Epoch where
  num := 0
  lcnt := 0
  sec := 0
  ns := 0
  sub := 0
  period := 2199023255552
  cause := 1

/-- The block right after the cold reset of a first power-up (R368, R371, R373). -/
def State.reset : State where
  pending := []
  out := []
  free := 0
  lcnt := 0
  tick := 0
  regs := []
  hist := []
  shadow := []
  latch := []
  held := []
  commit := none
  loader := Loader.init
  armPlan := none
  flash := []
  flashOps := []
  chans := []
  words := []
  chains := []
  acs := []
  dcs := []
  ints := []
  intSwaps := []
  grps := []
  store := []
  stageFill := []
  stageDrain := []
  fillData := 0
  drainData := 0
  sto := Sto.init
  abaQ := []
  abaSkip := []
  abaEnd := 0
  avgs := []
  dbs := []
  hitQ := []
  hitEnd := 0
  tallyPage := 0
  tallyGeom := (0, 0)
  frames := []
  framePub := 0
  ports := []
  strms := []
  hostqs := []
  dmaTurn := []
  msix := Msix.init
  disp := Disp.init
  tap := Tap.init
  cfgReady := false
  clk := Clk.init
  epochs := [Epoch.zero]
  timeDue := []
  pnom := (2199023255552, 1)
  servo := Servo.init
  stage := none
  txq := []
  ptp := []
  evs := []
  cal := Cal.init
  svc := Svc.init
  keeper := ⟨true, 0, 0, some Epoch.zero⟩
  pwr := Pwr.init
  twin := Twin.init
  log := Log.init
  smb := 0

end Sys2Proof.Machine
end

