-- ==== Sys2Proof/Machine/Ops.lean ====
section
/-! DEFINITION. The named operations every command uses: registers and their fields, the parts of the state by index,
time and network time (R269), the log (R390-R397), store bytes and staging (R153-R161), interrupts and pins. -/

namespace Sys2Proof.Machine

/-! ### Registers -/

/-- A register word in force. -/
def State.word (s : State) (off : Nat) : Word := s.regs.word off

/-- A register field in force. -/
def State.get (s : State) (f : Fld) : Nat := s.regs.fld f

/-- A register field in force, two's complement. -/
def State.sget (s : State) (f : Fld) : Int := s.regs.sfld f

/-- A one-bit register field in force. -/
def State.flag (s : State) (f : Fld) : Bool := s.regs.bit f

/-- The device writes a register field. -/
def State.put (s : State) (f : Fld) (v : Nat) : State := { s with regs := s.regs.setFld f v }

/-- The device writes a signed value into a register field. -/
def State.sput (s : State) (f : Fld) (v : Int) : State := s.put f (enc f.width v)

/-- The device sets or clears a one-bit field. -/
def State.setF (s : State) (f : Fld) : State := s.put f 1
def State.clrF (s : State) (f : Fld) : State := s.put f 0
def State.putB (s : State) (f : Fld) (b : Bool) : State := s.put f (if b then 1 else 0)

/-- The shadow value of a register word: an unlisted word's shadow equals the active value (R355). -/
def State.shadowWord (s : State) (off : Nat) : Word := Tab.get (s.word off) s.shadow off

/-- A register of n words, least significant word first (R4). -/
def State.getN (s : State) (off n : Nat) : Nat := s.regs.wide off n
def State.putN (s : State) (off n v : Nat) : State := { s with regs := s.regs.setWide off n v }

/-- A counter that saturates at its largest value. -/
def State.addSat (s : State) (f : Fld) (k : Nat) : State := s.put f (min (s.get f + k) (2 ^ f.width - 1))
def State.incSat (s : State) (f : Fld) : State := s.addSat f 1

/-- A counter that wraps. -/
def State.incWrap (s : State) (f : Fld) : State := s.put f (s.get f + 1)

/-- The register set in force at core cycle c: the one that the earliest commit after c replaced. -/
def cfgIn (now : RegTab) (c : Nat) : List (Nat × RegTab) → RegTab
  | [] => now
  | p :: rest => if c < p.1 then cfgIn p.2 c rest else now

/-- The registers that govern words and instants of core cycle c. -/
def State.cfgAt (s : State) (c : Nat) : RegTab := cfgIn s.regs c s.hist

/-- A commit at boundary b replaces a register set; sets that no word or instant can need any more are left out. -/
def histPush (b keep : Nat) (old : RegTab) (h : List (Nat × RegTab)) : List (Nat × RegTab) :=
  (b, old) :: h.filter (fun p => decide (b ≤ p.1 + keep))

/-- Queues enabled as Ethernet streams (STM_Q_CTRL.EN). -/
def State.streams (s : State) : List Nat :=
  s.regs.filterMap (fun p =>
    if 0x810000 ≤ p.1 ∧ p.1 < 0x830000 ∧ p.1 % 0x80 = 0 ∧ s.flag (F.STM_Q_CTRL_EN ((p.1 - 0x810000) / 0x80)) then
      some ((p.1 - 0x810000) / 0x80)
    else none)

/-! ### Parts by index -/

def State.chan (s : State) (n : Nat) : Chan := Tab.get Chan.init s.chans n
def State.setChan (s : State) (n : Nat) (v : Chan) : State := { s with chans := Tab.set s.chans n v }
def State.chain (s : State) (n : Nat) : Chain := Tab.get Chain.init s.chains n
def State.setChain (s : State) (n : Nat) (v : Chain) : State := { s with chains := Tab.set s.chains n v }
def State.ac (s : State) (n : Nat) : Ac := Tab.get Ac.init s.acs n
def State.setAc (s : State) (n : Nat) (v : Ac) : State := { s with acs := Tab.set s.acs n v }
def State.dc (s : State) (m : Nat) : Dc := Tab.get Dc.init s.dcs m
def State.setDc (s : State) (m : Nat) (v : Dc) : State := { s with dcs := Tab.set s.dcs m v }
def State.ip (s : State) (k : Nat) : Ip := Tab.get Ip.init s.ints k
def State.setIp (s : State) (k : Nat) (v : Ip) : State := { s with ints := Tab.set s.ints k v }
def State.grp (s : State) (g : Nat) : Grp := Tab.get Grp.init s.grps g
def State.setGrp (s : State) (g : Nat) (v : Grp) : State := { s with grps := Tab.set s.grps g v }
def State.avg (s : State) (g : Nat) : Avg := Tab.get Avg.init s.avgs g
def State.setAvg (s : State) (g : Nat) (v : Avg) : State := { s with avgs := Tab.set s.avgs g v }
def State.db (s : State) (d : Nat) : Db := Tab.get Db.init s.dbs d
def State.setDb (s : State) (d : Nat) (v : Db) : State := { s with dbs := Tab.set s.dbs d v }
def State.ev (s : State) (k : Nat) : Ev := Tab.get Ev.init s.evs k
def State.setEv (s : State) (k : Nat) (v : Ev) : State := { s with evs := Tab.set s.evs k v }
def State.port (s : State) (p : Nat) : Port := Tab.get Port.init s.ports p
def State.setPort (s : State) (p : Nat) (v : Port) : State := { s with ports := Tab.set s.ports p v }
def State.strm (s : State) (q : Nat) : Strm := Tab.get Strm.init s.strms q
def State.setStrm (s : State) (q : Nat) (v : Strm) : State := { s with strms := Tab.set s.strms q v }
def State.hostq (s : State) (q : Nat) : HostQ := Tab.get HostQ.init s.hostqs q
def State.setHostq (s : State) (q : Nat) (v : HostQ) : State := { s with hostqs := Tab.set s.hostqs q v }
def State.ptpPort (s : State) (p : Nat) : PtpPort := Tab.get PtpPort.init s.ptp p
def State.setPtpPort (s : State) (p : Nat) (v : PtpPort) : State := { s with ptp := Tab.set s.ptp p v }

/-! ### Time -/

/-- The fabric has counted at least to core cycle a. -/
def State.at_ (s : State) (a : Nat) : State := { s with lcnt := max s.lcnt a }

/-- With no command waiting the fabric counts one core cycle (log entry 1). -/
def State.idle (s : State) : State := { s with lcnt := s.lcnt + 1 }

/-- What leaves the block. -/
def State.emit (s : State) (o : Out) : State := { s with out := o :: s.out }

/-- A value of w bits that the spec leaves open, and the state that has drawn it (log entry 5). -/
def State.draw (s : State) (w : Nat) : Nat × State :=
  ((Config.freeValue s.free).toNat % 2 ^ w, { s with free := s.free + 1 })

/-- The epoch in force at core cycle l (R268): the newest whose LCNT_EPOCH is not above l. -/
def epochIn (es : List Epoch) (l : Nat) : Epoch :=
  match es with
  | [] => Epoch.zero
  | e :: rest => if e.lcnt ≤ l then e else epochIn rest l

def State.epochAt (s : State) (l : Nat) : Epoch := epochIn s.epochs l

/-- Network time of the instant t (units of 2^-16 core cycle) under one epoch (R269). -/
def netTimeIn (e : Epoch) (t : Nat) : Stamp :=
  let x := (t - 65536 * e.lcnt) * e.period / 65536 + e.sub * 16777216
  let ns' := e.ns + x / 1099511627776
  ⟨e.sec + ns' / 1000000000, ns' % 1000000000, x % 1099511627776 / 16777216⟩

/-- Network time of an instant (R269). -/
def State.netTime (s : State) (t : Nat) : Stamp := netTimeIn (s.epochAt (t / 65536)) t

/-- A stamp as a number of 2^-16 ns. -/
def Stamp.val (st : Stamp) : Nat := (st.sec * 1000000000 + st.ns) * 65536 + st.sub

/-- The stamp of a number of 2^-16 ns. -/
def Stamp.ofVal (v : Nat) : Stamp := ⟨v / 65536 / 1000000000, v / 65536 % 1000000000, v % 65536⟩

/-- The 12 bytes of a full stamp: seconds 48, ns 32, sub-ns 16 (R272). -/
def Stamp.bytes (st : Stamp) : List Byte := leBytes 6 st.sec ++ leBytes 4 st.ns ++ leBytes 2 st.sub

/-- Nominal sample rate of a configuration as numerator and denominator in Hz (R251). -/
def fsOf (r : RegTab) : Nat × Nat :=
  let md := r.fld F.CLK_FCW_MOD_MOD
  let fref := if r.bit F.CLK_CTRL_REF_SEL then 100000000 else 10000000
  (2 * fref * (r.fld F.CLK_FCW_INT_INT * md + r.fld F.CLK_FCW_FRAC_FRAC), md)

/-- Full-rate samples per core cycle of channel n: 128 in pair mode, otherwise 64 (R36, R54). -/
def nOf (r : RegTab) (n : Nat) : Nat := if bitOf (r.fld F.CONV_MODE_PAIR) (n / 2) then 128 else 64

/-- The channel's pair bit is set. -/
def paired (r : RegTab) (n : Nat) : Bool := bitOf (r.fld F.CONV_MODE_PAIR) (n / 2)

/-! ### Interrupts, pins, log -/

/-- A vector of a function is masked, by itself or with its function (R203; log entry 9). -/
def Msix.masked (x : Msix) (fn vec : Nat) : Bool := x.fns.contains fn || x.vecs.contains (fn, vec)

/-- An MSI-X vector of a function is signalled; a masked one sets its Pending Bit (R203). -/
def State.signal (s : State) (fn vec : Nat) : State :=
  if s.msix.masked fn vec then
    (if s.msix.pba.contains (fn, vec) then s else { s with msix := { s.msix with pba := s.msix.pba ++ [(fn, vec)] } })
  else s.emit (.msix fn vec)

/-- Pending vectors that are masked no more are sent and their Pending Bits clear (R203). -/
def State.sendPending (s : State) : State :=
  let go := s.msix.pba.filter (fun p => !s.msix.masked p.1 p.2)
  go.foldl (fun (t : State) p => t.emit (.msix p.1 p.2))
    { s with msix := { s.msix with pba := s.msix.pba.filter (fun p => s.msix.masked p.1 p.2) } }

/-- Masks and Pending Bits of the functions that ok names return to their reset values (R230, R375). -/
def State.msixReset (s : State) (ok : Nat → Bool) : State :=
  { s with msix := { s.msix with
    fns := s.msix.fns.filter (fun f => !ok f)
    vecs := s.msix.vecs.filter (fun p => !ok p.1)
    pba := s.msix.pba.filter (fun p => !ok p.1) } }

/-- The locus of R2. -/
def State.locus (s : State) (die region cluster unit : Nat) : Nat :=
  s.get F.GLOBAL_STATE_NODE * 16777216 + die * 1048576 + region * 65536 + cluster * 256 + unit

/-- The locus of a unit of converter channel n (Table 0.4). -/
def State.locusCh (s : State) (n unit : Nat) : Nat := s.locus (n / 8) (n / 4) n unit

/-- The package's locus. -/
def State.locusPkg (s : State) : Nat := s.locus 15 15 255 255

/-- The locus of a group (HUB). -/
def State.locusGrp (s : State) (g : Nat) : Nat := s.locus 6 15 (0x80 + g) 255

/-- The class in force for a log code: 0 INFO, 1 WARN, 2 ERROR, 3 FATAL (R392). -/
def State.logClass (s : State) (code : Nat) : Nat :=
  s.get ⟨R.LOG_CLASS (code / 256) (code % 256 / 16), 2 * (code % 16) + 1, 2 * (code % 16)⟩

/-- The 256 bits of an entry (Table 18.3). -/
def LogEnt.val (e : LogEnt) : Nat :=
  e.lcnt % 2 ^ 64 + e.epoch % 2 ^ 16 * 2 ^ 64 + e.code % 2 ^ 16 * 2 ^ 80 + e.locus % 2 ^ 32 * 2 ^ 96
    + e.data % 2 ^ 96 * 2 ^ 128 + e.seq % 2 ^ 32 * 2 ^ 224

/-- Order of entries with the same LCNT (R391): by locus, then by code. -/
def LogEnt.key (e : LogEnt) : Nat := e.locus * 65536 + e.code

/-- A new entry among the newest n entries of the ring, which were written in the same core cycle (R391). -/
def logInsert : Nat → LogEnt → List LogEnt → List LogEnt
  | n + 1, e, h :: rest =>
    if h.lcnt = e.lcnt ∧ e.key < h.key then { h with seq := e.seq } :: logInsert n { e with seq := h.seq } rest
    else e :: h :: rest
  | _, e, l => e :: l

/-- ERR_N follows FIRST_VALID, FATAL and the package-level self-test (R396, Table 17.4). -/
def State.errN (s : State) : State :=
  let low := s.flag F.LOG_STATUS_FIRST_VALID || s.flag F.LOG_STATUS_FATAL || s.flag F.GLOBAL_SELFTEST_PKG_FAIL
  if low = s.flag F.LOG_STATUS_ERR_N then s
  else (s.putB F.LOG_STATUS_ERR_N low).emit (.pin 0 (!low))

/-- ERROR or FATAL entry: the capture of R395. -/
def State.capture (s : State) (e : LogEnt) : State :=
  if s.flag F.LOG_STATUS_FIRST_VALID then
    (let old := s.getN R.LOG_FIRST 8
     let s1 := s.incSat F.LOG_NEST_CNT_COUNT
     if old % 2 ^ 64 = e.lcnt ∧ s.log.cyc = s.lcnt ∧ e.key < old / 2 ^ 96 % 2 ^ 32 * 65536 + old / 2 ^ 80 % 2 ^ 16 then
       (s1.putN R.LOG_FIRST 8 e.val).putN R.LOG_LAST_ERR 8 old
     else s1.putN R.LOG_LAST_ERR 8 e.val)
  else (s.putN R.LOG_FIRST 8 e.val).setF F.LOG_STATUS_FIRST_VALID

/-- What an entry of a class does beyond the ring (R393, R396, R397). -/
def State.logAct (s : State) (cls : Nat) (e : LogEnt) : State :=
  let s1 := if cls = 1 then s.setF F.LOG_STATUS_WARN_SEEN else s
  let s2 := if 2 ≤ cls then s1.capture e else s1
  let s3 := if cls = 3 then
      (let t := s2.setF F.LOG_STATUS_FATAL
       let t := { t with log := { t.log with fatalCond := true } }
       if t.get F.TWIN_STATUS_ROLE = 1 ∧ t.flag F.GLOBAL_STATE_TWIN_PAIRED then
         { t with twin := { t.twin with handoverTx := true } } else t)
    else s2
  let s4 := s3.errN
  if s4.flag F.LOG_CTRL_IRQ_EN ∧ s4.get F.LOG_CTRL_IRQ_CLASS ≤ cls ∧ s4.log.signalled = false then
    { (s4.signal 0 (s4.get F.LOG_CTRL_VEC)) with log := { s4.log with signalled := true } }
  else s4

/-- A log entry is written, or suppressed as a repeat within the tick (R390, R391, R394). The layout
of the data field of each code that names its contents without places is that of log entry 8. -/
def State.post (s : State) (lc code locus data : Nat) : State :=
  if code ≠ 0x0C01 ∧ code ≠ 0x0C02 ∧ (code, locus) ∈ s.log.seen then s.incSat F.LOG_SUPPR_CNT_COUNT
  else
    let e : LogEnt := ⟨lc, (s.epochAt lc).num, code, locus, data % 2 ^ 96, s.get F.LOG_WR_SEQ_SEQ⟩
    let n := if s.log.cyc = s.lcnt then s.log.cycN else 0
    let ring := logInsert n e s.log.ring
    let placed := (ring.find? (fun h => h.key = e.key ∧ h.lcnt = e.lcnt)).getD e
    let full := 4096 < ring.length
    let s1 := s.incWrap F.LOG_WR_SEQ_SEQ
    let s2 := if full then (s1.incSat F.LOG_OVF_CNT_COUNT).setF F.LOG_STATUS_OVF else s1
    let s3 := s2.logAct (s.logClass code) placed
    { s3 with log := { s3.log with
        ring := ring.take 4096
        uncopied := max s.log.uncopied (if placed.seq = e.seq then 0 else n) + 1
        seen := (code, locus) :: s.log.seen
        cyc := s.lcnt
        cycN := n + 1 } }

/-! ### Store -/

/-- Active pseudo-channels in ascending order (R155). -/
def State.activePcs (s : State) : List Nat := (List.range 128).filter (fun k => !(s.sto.fenced.contains k))

/-- The global pseudo-channel that holds a burst address (R154, R155). -/
def State.pcOf (s : State) (addr : Nat) : Nat :=
  let p := s.activePcs
  if p.length = 128 then Nat.xor (addr / 256 % 128) (addr / 65536 % 128)
  else (p[addr / 256 % p.length]?).getD 0

/-- The stack of a global pseudo-channel. -/
def stackOf (pc : Nat) : Nat := pc / 32

/-- Store capacity in pages (R155). -/
def State.capPages (s : State) : Nat := s.get F.STO_CAP_PAGES

/-- An address whose burst lies on a failed stack (R173). -/
def State.dead (s : State) (addr : Nat) : Bool := s.sto.failed.contains (stackOf (s.pcOf addr))

/-- One byte of the store; what nothing has written reads 0x00 (log entry 3). -/
def State.sread (s : State) (a : Nat) : Byte := Mem.read 0 s.store a

/-- Bytes of the store. -/
def State.sreads (s : State) (a n : Nat) : List Byte := Mem.readBytes 0 s.store a n

/-- A burst that is read poisoned: on a failed stack, uncorrectable, or spoiled on the link in this tick (R157, R158, R173). -/
def State.poisoned (s : State) (a : Nat) : Bool :=
  s.dead a || s.sto.bad.contains (a / 256) || s.sto.badLink.contains (a / 256)

/-- A byte written to the store; a failed stack's byte is discarded (R173). A burst written again is no longer uncorrectable, and
its write-back by the scrubber is cancelled (R159, R171). -/
def State.swrite (s : State) (a : Nat) (v : Byte) : State :=
  if s.dead a then s
  else { s with
    store := Mem.write 0 s.store a v
    sto := if s.sto.bad = [] ∧ s.sto.scrubQ = [] then s.sto else { s.sto with
      bad := s.sto.bad.filter (fun x => x != a / 256)
      scrubQ := s.sto.scrubQ.filter (fun x => x != a / 256) } }

/-- Bytes written to the store. -/
def State.swrites (s : State) (a : Nat) : List Byte → State
  | [] => s
  | b :: bs => (s.swrite a b).swrites (a + 1) bs

/-- What the abacus and the tally unit read of the bytes from a on: the spec does not say what they make of a burst that reads
poisoned, so its bytes are free values (log entry 83). -/
def State.freeBursts (s : State) (a len : Nat) : State :=
  if s.sto.failed = [] ∧ s.sto.bad = [] ∧ s.sto.badLink = [] then s
  else
    (((List.range (ceilDiv (a % 256 + len) 256)).map (fun i => a / 256 + i)).filter (fun b => s.poisoned (256 * b))).foldl (fun t b =>
      (List.range 256).foldl (fun (u : State) i =>
        let v := u.draw 8
        { v.2 with store := Mem.write 0 v.2.store (256 * b + i) (BitVec.ofNat 8 v.1) }) t) s

/-- n bits at a bit address of the store replaced by v (little-endian bit string, R111). -/
def State.swriteBits (s : State) (addr n v : Nat) : State :=
  let first := addr / 8
  let len := (addr % 8 + n + 7) / 8
  let old := leValue (s.sreads first len)
  let lo := addr % 8
  let new := old % 2 ^ lo + v % 2 ^ n * 2 ^ lo + old / 2 ^ (lo + n) * 2 ^ (lo + n)
  s.swrites first (leBytes len new)

/-- n bits at a bit address of the store. -/
def State.sreadBits (s : State) (addr n : Nat) : Nat :=
  leValue (s.sreads (addr / 8) ((addr % 8 + n + 7) / 8)) / 2 ^ (addr % 8) % 2 ^ n

/-- A write enters the filling half (R161). Its space was taken by State.takeSpace. -/
def State.stageW (s : State) (w : StW) : State := { s with stageFill := w :: s.stageFill }

/-- Bits of the part that can run full, taken in the filling half (R161). -/
def State.takeSpace (s : State) (bits : Nat) : State := { s with fillData := s.fillData + bits }

/-- Bytes of the reserved part: headers, gap descriptors, control blocks, the log copy (R161). They are never dropped. -/
def State.stageBytes (s : State) (g tag addr : Nat) (bs : List Byte) : State :=
  s.stageW ⟨8 * addr, 8 * bs.length, leValue bs, g, tag, 0⟩

/-! ### The store scheduler (R164, R165) -/

/-- Bits of staged writes: what took space of the part that can run full, and the reserved part's items. -/
def halfBits (data : Nat) (ws : List StW) : Nat := data + ((ws.filter (fun w => w.cost == 0)).map (fun w => w.n)).sum

/-- Bytes served to a class in this tick. -/
def State.served (s : State) (k n : Nat) : State :=
  { s with sto := { s.sto with served := Tab.set s.sto.served k (Tab.get 0 s.sto.served k + n) } }

/-- Bytes of a class that wait. -/
def State.classBacklog (s : State) (k : Nat) : Nat := ((s.sto.reqs.filter (fun q => q.cls == k)).map (fun q => q.bytes)).sum

/-- STO_CLASS_BACKLOG of a class follows its waiting reads. -/
def State.showBacklog (s : State) (k : Nat) : State := s.put (F.STO_CLASS_BACKLOG_BYTES k) (min (s.classBacklog k) 0xFFFFFFFF)

/-- W_scrub (Table 7.3). -/
def State.wScrub (s : State) : Nat := (s.get F.STO_CTICK_BYTES + 255) / 256

/-- What stands to a class's credit in this tick: its grant as far as it has reads that wait; SCRUB always has (R165). -/
def State.creditOf (s : State) (k : Nat) : Nat :=
  if k = 4 then s.wScrub - Tab.get 0 s.sto.served 4 else min (s.classBacklog k) (Tab.get 0 s.sto.granted k - Tab.get 0 s.sto.served k)

/-- Bytes that class k can have now: the tick's capacity without what ACQ writes, what was served, and the other classes'
credit; REPAIR takes from all of them (R165). Grants that nothing asks for are part of it at once; which class is served first
within a tick is the order of the commands (log entry 74). -/
def State.availFor (s : State) (k : Nat) : Nat :=
  let acq := halfBits s.drainData s.stageDrain / 8
  let done := ((List.range 7).map (fun j => if j = 5 then 0 else Tab.get 0 s.sto.served j)).sum
  let held := ((List.range 5).map (fun j => if j = k then 0 else s.creditOf j)).sum
  s.get F.STO_CTICK_BYTES - (if k = 6 then done else acq + done + held)

/-- A requester asks for n bytes of a class. What the tick can give is served; the rest waits as the class's backlog, and the
command that asked takes its effect when it comes again and finds all of it served (log entry 74). -/
def State.ask (s : State) (k key n : Nat) : Bool × State :=
  let mine := fun q : Req => q.cls == k && q.key == key
  let need := ((s.sto.reqs.find? mine).map (fun q => q.bytes)).getD n
  let since := ((s.sto.reqs.find? mine).map (fun q => q.since)).getD (s.lcnt / tickLen)
  let t := min need (s.availFor k)
  let rest := s.sto.reqs.filter (fun q => !mine q)
  let reqs := if t = need then rest else rest ++ [(⟨k, key, need - t, since⟩ : Req)]
  (t == need, (({ s with sto := { s.sto with reqs := reqs } } : State).served k t).showBacklog k)

/-- A requester no longer wants what it asked for. -/
def State.unask (s : State) (k key : Nat) : State :=
  if s.sto.reqs.any (fun q => q.cls == k && q.key == key) then
    ({ s with sto := { s.sto with reqs := s.sto.reqs.filter (fun q => !(q.cls == k && q.key == key)) } } : State).showBacklog k
  else s

/-- The oldest staged writes first, each put into the store. -/
def State.drainAll (s : State) (ws : List StW) : State := ws.foldr (fun w t => t.swriteBits w.addr w.n w.v) s

/-- The store as it will be once everything staged is written: what the abacus and a rewrite of a claimed slot read. -/
def State.settled (s : State) : State := (s.drainAll s.stageDrain).drainAll s.stageFill

end Sys2Proof.Machine
end

