-- ==== Sys2Proof/Machine/Operands.lean ====
section
/-! DEFINITION. What a configuration's operand fields mean: chain parameters (R54-R66), trigger sources and decision
latency (R73, R94), record layout (R110-R112), window and channel sets. Every function takes the register set it reads, so
that a commit can ask it of the set being committed. -/

namespace Sys2Proof.Machine

/-! ### Filter chain -/

/-- A chain's settings (R53-R66). -/
structure ChainCfg where
  mode : Nat
  width : Nat
  ra : Nat
  h : Nat
  rb : Nat
  d : Nat
  taps : Nat
  eq : Bool
  fir : Bool
  dcEn : Bool
  minPhase : Bool
  frzOvr : Bool
  dcK : Nat
  /-- τ in 2^-8 full-rate samples, ⌈τ⌉, S_sup (R62). -/
  tau : Nat
  ctau : Nat
  sup : Nat
  /-- Full-rate samples per core cycle. -/
  n : Nat
  deriving DecidableEq, Repr

/-- The settings of channel c's chain in a register set. -/
def chainCfg (r : RegTab) (c : Nat) : ChainCfg :=
  let ra := r.fld (F.FLT_CH_DEC_RA_M1 c) + 1
  let rb := r.fld (F.FLT_CH_DEC_RB_M1 c) + 1
  let h := min 6 (r.fld (F.FLT_CH_CFG_HB_STAGES c))
  let d := ra * 2 ^ h * rb
  let taps := r.fld (F.FLT_CH_TAPS_FIR_LEN c) + 1
  let eq := r.bit (F.FLT_CH_CFG_EQ_EN c)
  let fir := r.bit (F.FLT_CH_CFG_FIR_EN c)
  let mp := r.bit (F.FLT_CH_CFG_FIR_MODE c)
  let tEq := if eq then min (r.fld (F.FLT_CH_EQ_DELAY_DELAY c)) (31 * 256) else 0
  let tF := if fir then (if mp then min (r.fld (F.FLT_CH_FIR_DELAY_DELAY c)) (256 * (taps - 1)) else 128 * (taps - 1)) else 0
  let tau := tEq + 512 * (ra - 1) + 256 * 29 * ra * (2 ^ h - 1) + 384 * (rb - 1) * ra * 2 ^ h + tF * d
  let sup := (if eq then 31 else 0) + 4 * (ra - 1) + 58 * ra * (2 ^ h - 1) + 3 * (rb - 1) * ra * 2 ^ h
    + (if fir then (taps - 1) * d else 0)
  { mode := r.fld (F.FLT_CH_CFG_MODE c), width := r.fld (F.FLT_CH_CFG_WIDTH c), ra := ra, h := h, rb := rb, d := d,
    taps := taps, eq := eq, fir := fir, dcEn := r.bit (F.FLT_CH_CFG_DC_EN c), minPhase := mp,
    frzOvr := r.bit (F.FLT_CH_CFG_FREEZE_OVR c), dcK := r.fld (F.FLT_CH_TAPS_DC_K c), tau := tau,
    ctau := ceilDiv tau 256, sup := sup, n := nOf r c }

/-- The newest full-rate sample that output k needs (m_last of R63). -/
def ChainCfg.mLast (f : ChainCfg) (k : Nat) : Nat :=
  let env := k * f.d + (f.d + 1) / 2 - 1
  let flt := k * f.d + f.ctau
  match f.mode with
  | 0 => k * f.d
  | 1 => env
  | 2 => flt
  | _ => max flt env

/-- The oldest full-rate sample that contributes to output k (R69), which lies before index 0 for the first outputs. -/
def ChainCfg.mFirst (f : ChainCfg) (k : Nat) : Int :=
  let env : Int := (k * f.d : Nat) - (f.d / 2 : Nat)
  let flt : Int := (k * f.d + f.ctau : Nat) - (f.sup : Nat)
  match f.mode with
  | 0 => (k * f.d : Nat)
  | 1 => env
  | 2 => flt
  | _ => min flt env

/-- Plain mode without decimation: no stage runs and values travel with their word (R63). -/
def ChainCfg.direct (f : ChainCfg) : Bool := f.mode == 0 && f.d == 1

/-- Values per output and bits per value (R65, R67, R111). -/
def ChainCfg.v (f : ChainCfg) : Nat := if f.mode = 1 then 2 else if f.mode = 3 then 3 else 1
def ChainCfg.b (f : ChainCfg) : Nat := if f.width = 0 then 10 else if f.width = 1 then 16 else 24

/-- The instant of filtered output k in units of 2^-16 core cycle: (65536/N)·(k·D + ε) (R62, R82). -/
def ChainCfg.instant (f : ChainCfg) (k : Nat) : Nat :=
  65536 / f.n * (k * f.d) + 256 / f.n * (256 * f.ctau - f.tau)

/-! ### Groups and trigger sources -/

/-- TRG_GRP_CH of a group. -/
def chMask (r : RegTab) (g : Nat) : Nat := r.wide (R.TRG_GRP_CH g) 2 % 2 ^ 48

/-- The group that holds channel n, none when no group does. -/
def groupOf (r : RegTab) (n : Nat) : Option Nat := (List.range 16).find? (fun g => bitOf (chMask r g) n)

/-- Samples per core cycle of a group: 128 for a pair-mode group (chapter 05). -/
def grpN (r : RegTab) (g : Nat) : Nat :=
  if (bitsSet 48 (chMask r g)).any (fun n => paired r n) then 128 else 64

/-- A group's first channel; 0 for an empty group. -/
def grpFirst (r : RegTab) (g : Nat) : Nat := (bitsSet 48 (chMask r g)).headD 0

/-- The source of pattern slot i (TRG_GRP_PSRC). -/
def patSrc (r : RegTab) (g i : Nat) : Nat :=
  if i % 2 = 0 then r.fld (F.TRG_GRP_PSRC_SLOT_LO g (i / 2)) else r.fld (F.TRG_GRP_PSRC_SLOT_HI g (i / 2))

/-- Pattern slots with their CARE bit set. -/
def patSlots (r : RegTab) (g : Nat) : List Nat := bitsSet 16 (r.fld (F.TRG_GRP_PVAL_CARE g))

/-- The sources a group's trigger type uses (Table 4.4, log entry 12). -/
def srcsOf (r : RegTab) (g : Nat) : List Nat :=
  let a := r.fld (F.TRG_GRP_SRC_SRC_A g)
  let b := r.fld (F.TRG_GRP_SRC_SRC_B g)
  let l := match r.fld (F.TRG_GRP_CTRL_TYPE g) with
    | 0 => [a]
    | 1 => [a]
    | 7 => [a]
    | 5 => (patSlots r g).map (patSrc r g)
    | _ => [a, b]
  l.filter (fun c => c != 0x3FF)

/-- The channel of a comparator source, none for event inputs. -/
def srcCh (c : Nat) : Option Nat :=
  if c < 0x120 then some (c / 6) else if c < 0x1E0 then some ((c - 0x120) / 4) else none

/-- Latency of one source (Table 4.6). -/
def srcLat (r : RegTab) (c : Nat) : Nat :=
  if 0x120 ≤ c ∧ c < 0x1E0 then
    (let m := c - 0x120
     if r.bit (F.TRG_DC_CTRL_SRC m) then
       (let f := chainCfg r (m / 4)
        (f.d + f.ctau) / f.n + 75)
     else 51)
  else 17

/-- The decision latency of a group (R94). -/
def lDec (r : RegTab) (g : Nat) : Nat := (srcsOf r g).foldl (fun l c => max l (srcLat r c)) 0

/-- Channel c's chain is needed: its channel is in a group, or one of its digital comparators takes it (R13). -/
def chainNeeded (r : RegTab) (c : Nat) : Bool :=
  ((groupOf r c).isSome || (List.range 4).any (fun d => r.bit (F.TRG_DC_CTRL_EN (4 * c + d)) && r.bit (F.TRG_DC_CTRL_SRC (4 * c + d))))
    && !(c % 2 == 1 && paired r c)

/-! ### Records -/

/-- Slots of a channel that measure, in ascending order (R127). -/
def abaSlots (r : RegTab) (n : Nat) : List Nat :=
  (List.range 16).filter (fun i => r.fld (F.ABA_SLOT_CTRL_MEAS n i) != 0)

/-- The measurement entries of a group in order: channel, slot (R127). -/
def abaEntries (r : RegTab) (g : Nat) : List (Nat × Nat) :=
  (bitsSet 48 (chMask r g)).flatMap (fun n => (abaSlots r n).map (fun i => (n, i)))

/-- Lens length in core cycles, 0 without lens (R115). -/
def lensLen (r : RegTab) (g : Nat) : Nat :=
  if r.bit (F.REC_GRP_CTRL_LENS_EN g) then r.fld (F.REC_GRP_LENS_LENS_LEN_M1 g) + 1 else 0

/-- A continuous group. -/
def isCont (r : RegTab) (g : Nat) : Bool := r.fld (F.REC_GRP_CTRL_MODE g) == 2

/-- The image layout of a group (R110-R112). -/
def layoutOf (r : RegTab) (g : Nat) : Layout :=
  let f := chainCfg r (grpFirst r g)
  let n := grpN r g
  let e := if f.d = 1 then n else 1
  let len := r.fld (F.REC_GRP_LEN_LEN g)
  let pre := r.fld (F.REC_GRP_PRE_PRE g)
  let w := if isCont r g then 0 else roundUp (ceilDiv (pre + n * lDec r g) (f.d * e) + 1) 4
  let olin := ceilDiv len (f.d * e)
  let offWin := roundUp (ceilDiv (lensLen r g * n * 10) 8) 8
  let offLin := offWin + roundUp (ceilDiv (w * e * f.v * f.b) 8) 8
  let offMap := offLin + roundUp (ceilDiv (olin * e * f.v * f.b) 8) 8
  let offLens := offMap + roundUp (ceilDiv ((w + olin) * 4) 8) 8
  let stride := roundUp (offLens + ceilDiv (lensLen r g * 4) 8) 64
  let meas := (abaEntries r g).length
  let payload := roundUp (0x100 + (if meas = 0 then 0 else 16 * meas + 16)) 64
  { n := n, d := f.d, e := e, v := f.v, b := f.b, w := w, olin := olin, offWin := offWin, offLin := offLin,
    offMap := offMap, offLensMap := offLens, stride := stride, payload := payload,
    pages := ceilDiv (payload + (bitsSet 48 (chMask r g)).length * stride) 65536, meas := meas }

/-- Ring pages, reserve pages, gap-ring pages of a group (R120, R122). -/
def ringPages (r : RegTab) (g : Nat) : Nat := r.fld (F.REC_GRP_RING_SIZE_PAGES g)
def pinMax (r : RegTab) (g : Nat) : Nat := r.fld (F.REC_GRP_RING_SIZE_PIN_MAX g)
def gapPages (r : RegTab) (g : Nat) : Nat := max 1 (r.fld (F.REC_GRP_GAP_RING_PAGES g))

/-- Records of one acquisition: 1 in single mode, SEG_COUNT in segmented mode (R99). -/
def segCount (r : RegTab) (g : Nat) : Nat :=
  if r.fld (F.REC_GRP_CTRL_MODE g) = 1 then r.fld (F.REC_GRP_CTRL_SEG_M1 g) + 1 else 1

/-- Core cycles of the pre-trigger and post-trigger counts (R101). -/
def preCyc (r : RegTab) (g : Nat) : Nat := r.fld (F.REC_GRP_PRE_PRE g) / grpN r g
def postCyc (r : RegTab) (g : Nat) : Nat := (r.fld (F.REC_GRP_LEN_LEN g) - r.fld (F.REC_GRP_PRE_PRE g)) / grpN r g

/-- r_max of a group: records per tick in the worst case (Table 7.3). -/
def rMax (r : RegTab) (g : Nat) : Nat :=
  ceilDiv 2048 (r.fld (F.REC_GRP_LEN_LEN g) / grpN r g + (if isCont r g then 0 else 8))

/-- O_g of a group (Table 7.3). -/
def oGrp (r : RegTab) (g : Nat) : Nat := 512 * (rMax r g + 1) + 256

/-- Groups with a non-empty channel mask. -/
def usedGrps (r : RegTab) : List Nat := (List.range 16).filter (fun g => chMask r g != 0)

/-- Σ O_g over the groups in use, and the reserved part R_res of a staging half (R168). -/
def oSum (r : RegTab) : Nat := ((usedGrps r).map (oGrp r)).sum
def rRes (r : RegTab) : Nat := max 65536 (roundUp (oSum r + 8192) 64)

/-! ### Packing -/

/-- Bytes of a list of fields, each given by its width in bytes and its value, least significant byte first (R4). -/
def packLE (l : List (Nat × Nat)) : List Byte := l.flatMap (fun p => leBytes p.1 p.2)

/-- The same, most significant byte first (R180). -/
def packBE (l : List (Nat × Nat)) : List Byte := l.flatMap (fun p => beBytes p.1 p.2)

/-- A bit string of w-bit values, value i in bits [w·i + w − 1 : w·i] (R111). -/
def packBits (w : Nat) : List Int → Nat
  | [] => 0
  | v :: vs => enc w v + 2 ^ w * packBits w vs

/-- The w-bit values of a bit string. -/
def unpackBits (w : Nat) : Nat → Nat → List Int
  | 0, _ => []
  | n + 1, x => sgn w x :: unpackBits w n (x / 2 ^ w)

end Sys2Proof.Machine
end

