-- ==== Sys2Proof/Machine/Flags.lean ====
section
/-! DEFINITION. Flags: side-band marks and their nibble in a flag map (R113), record flags (Table 5.3), gap precedence
(Table 5.7). -/

namespace Sys2Proof.Machine

/-- No mark. -/
def Marks.none_ : Marks := ⟨false, false, false⟩

/-- The marks of either (R69). -/
def Marks.or (a b : Marks) : Marks := ⟨a.ovr || b.ovr, a.nbr || b.nbr, a.rot || b.rot⟩

/-- The flag-map entry (R113): OVR 0, NBR 1, ROT 2; ABSENT is 8. -/
def Marks.nib (m : Marks) : Nat := (if m.ovr then 1 else 0) + (if m.nbr then 2 else 0) + (if m.rot then 4 else 0)

/-- The marks of a flag-map entry. -/
def Marks.ofNib (x : Nat) : Marks := ⟨bitOf x 0, bitOf x 1, bitOf x 2⟩

/-- ABSENT in a flag-map entry (R113). -/
def absentNib : Nat := 8

/-- The entry of two parts of one element. -/
def nibOr (a b : Nat) : Nat := ((Marks.ofNib a).or (Marks.ofNib b)).nib

/-- Record flag bits (Table 5.3). -/
def flagTorn : Nat := 0
def flagSupply : Nat := 1
def flagRot : Nat := 2
def flagBypass : Nat := 3
def flagNbr : Nat := 4
def flagOvr : Nat := 5
def flagLens : Nat := 6
def flagCalDef : Nat := 7
def flagTwin : Nat := 8
def flagCoarse : Nat := 9
def flagShort : Nat := 10
def flagGap : Nat := 11
def flagFence : Nat := 12
def flagMerged : Nat := 13
def flagCut : Nat := 14

/-- A flag word with the flags of a flag-map entry added (R107). -/
def flagsOfNib (flags nib : Nat) : Nat :=
  let f1 := if bitOf nib 0 then setBit flags flagOvr else flags
  let f2 := if bitOf nib 1 then setBit f1 flagNbr else f1
  if bitOf nib 2 then setBit f2 flagRot else f2

/-- A flag set when a condition holds. -/
def setIf (c : Bool) (flags bit : Nat) : Nat := if c then setBit flags bit else flags

/-- Gap causes by precedence, the first taking a cycle that two claim (R118, Table 5.7). -/
def gapOrder : List Nat := [8, 7, 4, 6, 5, 1, 2, 3]

/-- The most negative value of a width, the payload of an ABSENT element (R113). -/
def absentVal (b : Nat) : Int := -(2 ^ (b - 1) : Nat)

/-- The cause and its channels for each cause in force, every channel under its first cause (R118). -/
def gapSplitMask (of_ : Nat → Nat) (mask : Nat) : List Nat → List (Nat × Nat)
  | [] => []
  | c :: cs =>
    let m := Nat.land mask (of_ c)
    if m = 0 then gapSplitMask of_ mask cs else (c, m) :: gapSplitMask of_ (mask - m) cs

/-- A number inserted into a rising list without repeats. -/
def insertNat (x : Nat) : List Nat → List Nat
  | [] => [x]
  | y :: ys => if x < y then x :: y :: ys else if x = y then y :: ys else y :: insertNat x ys

/-- The rising list of a list's numbers, without repeats. -/
def sortNat (l : List Nat) : List Nat := l.foldl (fun a x => insertNat x a) []

/-- The cut points of [lo, hi) as consecutive parts. -/
def partsOf (lo hi : Nat) (cuts : List Nat) : List (Nat × Nat) :=
  let c := sortNat ((lo :: hi :: cuts).filter (fun x => lo ≤ x && x ≤ hi))
  c.zip (c.drop 1)

/-- Length of the part of [lo, hi) that a list of intervals covers. -/
def covered (lo hi : Nat) (l : List (Nat × Nat)) : Nat :=
  (partsOf lo hi (l.flatMap (fun p => [p.1, p.2]))).foldl
    (fun n p => if l.any (fun q => q.1 ≤ p.1 && p.2 ≤ q.2) then n + (p.2 - p.1) else n) 0

end Sys2Proof.Machine
end

