-- ==== Sys2Proof/Machine/Time.lean ====
section
/-! DEFINITION. Time keeping (spec/12): epochs, the servo, staged writes, snapshots, the transmit stamp queue, PTP. -/

namespace Sys2Proof.Machine

/-- The hub's locus. -/
def State.locusHub (s : State) : Nat := s.locus 6 15 255 255

/-- The core clock in Hz, as numerator and denominator (R251, R260). -/
def State.coreHz (s : State) : Nat × Nat :=
  if s.flag F.CLK_STATUS_FABRIC_BYP then (100000000 * s.get F.CLK_BYP_RATIO_RATIO, 16777216)
  else ((fsOf s.regs).1, 64 * (fsOf s.regs).2)

/-- Core cycles of n / d seconds, rounded up. -/
def State.cyclesOf (s : State) (n d : Nat) : Nat := ceilDiv (n * s.coreHz.1) (max 1 (d * s.coreHz.2))

/-- p_nom on the sample clock of a configuration: 2^40·10^9·64/Fs_nom (R415). -/
def pnomSample (r : RegTab) : Nat × Nat :=
  let fs := fsOf r
  (1099511627776 * 1000000000 * 64 * fs.2, fs.1)

/-- p_nom on the CLKBYP-derived clock: 2^40·10^9/F_b with F_b = 100 MHz·BYP_RATIO/2^24 (R260, R415). -/
def pnomBypass (ratio : Nat) : Nat × Nat := (1099511627776 * 10 * 16777216, ratio)

/-- A TIME_HIST block of one epoch. -/
def Epoch.hist (e : Epoch) : Nat :=
  e.num % 2 ^ 16 + e.cause % 2 ^ 16 * 2 ^ 16 + e.lcnt % 2 ^ 64 * 2 ^ 32 + e.period % 2 ^ 64 * 2 ^ 96
    + e.sec % 2 ^ 48 * 2 ^ 160 + e.sub % 2 ^ 16 * 2 ^ 208 + e.ns % 2 ^ 32 * 2 ^ 224

/-- TIME_HIST entries from index i on. -/
def State.writeHist (s : State) (i : Nat) : List Epoch → State
  | [] => s
  | e :: es => (s.putN (R.TIME_HIST i) 8 e.hist).writeHist (i + 1) es

/-- The two log entries of an epoch (R271). -/
def State.logEpoch (s : State) (e : Epoch) : State :=
  (s.post e.lcnt 0x0C01 s.locusHub (e.sec % 2 ^ 48 + e.ns % 2 ^ 32 * 2 ^ 48 + e.sub % 2 ^ 16 * 2 ^ 80)).post
    e.lcnt 0x0C02 s.locusHub (e.period % 2 ^ 64 + e.cause % 2 ^ 16 * 2 ^ 64)

/-- An epoch opens: TIME_HIST, TIME_STATUS, the keeper's save, its log entries (R270, R271, R367). -/
def State.openEpoch (s : State) (e : Epoch) : State :=
  let s1 := { s with epochs := e :: s.epochs, keeper := { s.keeper with epochSave := some e } }
  ((s1.writeHist 0 (s1.epochs.take 16)).put F.TIME_STATUS_EPOCH e.num).logEpoch e

/-- The bit of Table 12.1 and the order in which a cause applies. -/
def TimeCause.bit : TimeCause → Nat
  | .nominal b _ _ => b
  | .ntoStop => 8
  | .rate _ _ => 1
  | .step _ => 2

/-- Everything an opening epoch is computed from: OFFSET in 2^-16 ns, PERIOD, p_nom, cause bits. -/
structure NewEpoch where
  ofs : Int
  period : Nat
  pnom : Nat × Nat
  cause : Nat
  deriving DecidableEq, Repr

/-- One due change applied (Table 12.1, R415). -/
def NewEpoch.apply (n : NewEpoch) (c : TimeCause) : NewEpoch :=
  let n := { n with cause := setBit n.cause c.bit }
  match c with
  | .nominal _ num den =>
    { n with period := (roundDiv (n.period * num * n.pnom.2) (den * n.pnom.1)).toNat, pnom := (num, den) }
  | .ntoStop => n
  | .rate num den => { n with period := (roundDivI (n.pnom.1 * num) (n.pnom.2 * den)).toNat }
  | .step d => { n with ofs := n.ofs + d }

/-- The due causes with one bit. -/
def causesOf (b : Nat) (l : List TimeCause) : List TimeCause := l.filter (fun c => c.bit == b)

/-- The staged writes due at boundary b applied to the opening epoch: PERIOD, then OFFSET (R285). -/
def State.applyStage (s : State) (b : Nat) (st : Staged) (n : NewEpoch) : NewEpoch :=
  let blk := s.getN R.TIME_STAGE 10
  let n1 := if st.period then { n with period := blk / 2 ^ 256 % 2 ^ 64, cause := setBit n.cause 4 } else n
  if st.abs then
    let target := blk / 2 ^ 96 % 2 ^ 64
    let e : Epoch := ⟨0, target, blk / 2 ^ 48 % 2 ^ 48, blk / 2 ^ 16 % 2 ^ 32, blk % 2 ^ 16, n1.period, 0⟩
    { n1 with ofs := (netTimeIn e (65536 * b)).val, cause := setBit n1.cause 3 }
  else if st.add then { n1 with ofs := n1.ofs + sgn 64 (blk / 2 ^ 160), cause := setBit n1.cause 3 }
  else n1

/-- The moduli of an OFFSET in 2^-16 ns: seconds have 48 bits (R272). -/
def stampSpan : Int := 18446744073709551616000000000

/-- TIME_SNAP holds LCNT l, the epoch in force at it and its network time (R284). -/
def State.holdSnap (s : State) (l : Nat) : State :=
  let st := s.netTime (65536 * l)
  s.putN R.TIME_SNAP 6
    ((s.epochAt l).num % 2 ^ 16 + 2 ^ 31 + l % 2 ^ 64 * 2 ^ 32 + st.sec % 2 ^ 48 * 2 ^ 96 + st.sub * 2 ^ 144 + st.ns * 2 ^ 160)

/-- A snapshot of the last four core cycles before boundary b whose LCNT lies at or after b takes the epoch that opens there. -/
def State.snapAgain (s : State) (b : Nat) : State :=
  let l := s.getN R.TIME_SNAP 6 / 2 ^ 32 % 2 ^ 64
  if s.flag F.TIME_SNAP_VALID ∧ b ≤ l ∧ l < b + 4 then s.holdSnap l else s

/-- Step 4 of R15 at boundary b: at most one new epoch with every due change, in the order of Table 12.1 (R270). -/
def State.publishTime (s : State) (b : Nat) : State :=
  let cur := s.epochAt b
  let st := s.stage.filter (fun x => x.due ≤ b)
  if (s.timeDue = [] ∧ st = none) ∨ b ≤ cur.lcnt then s
  else
    let n0 : NewEpoch := ⟨(netTimeIn cur (65536 * b)).val, cur.period, s.pnom, 0⟩
    let n1 := [5, 6, 7, 8, 1].foldl (fun n k => (causesOf k s.timeDue).foldl NewEpoch.apply n) n0
    let n2 := match st with
      | some x => s.applyStage b x n1
      | none => n1
    let n3 := (causesOf 2 s.timeDue).foldl NewEpoch.apply n2
    let t := Stamp.ofVal (n3.ofs % stampSpan).toNat
    let s1 := { s with timeDue := [], pnom := n3.pnom, stage := if st = none then s.stage else none }
    let s2 := if st = none then s1 else s1.clrF F.TIME_STATUS_STAGE_PENDING
    let s3 := (s2.openEpoch ⟨(cur.num + 1) % 65536, b, t.sec, t.ns, t.sub, n3.period, n3.cause⟩).snapAgain b
    match st with
    | some x => if x.abs ∧ x.add then s3.post b 0x0C04 s.locusHub 0 else s3
    | none => s3

/-! ### The servo -/

/-- JUMP_MAX in 2^-16 ns. -/
def State.jumpMax (s : State) : Int := s.get F.TIME_JUMP_MAX_NS * 65536

/-- EPOCH_MIN in core cycles. -/
def State.epochMin (s : State) : Nat := max 16 (s.get F.TIME_EPOCH_MIN_TICKS) * tickLen

/-- HOLDOVER begins: s is 0 from now on, so PERIOD follows y alone at the next boundary that opens an epoch (R279; log entry 89). -/
def State.enterHoldover (s : State) : State :=
  let y := s.servo
  let num : Int := y.yDen + y.yNum
  let now := roundDivI (s.pnom.1 * num) (s.pnom.2 * y.yDen)
  let s1 := s.put F.TIME_STATUS_SERVO 3
  if now = ((s.epochAt s.lcnt).period : Int) then s1 else { s1 with timeDue := s1.timeDue ++ [.rate num y.yDen] }

/-- HOLDOVER after JUMP_N refusals (R280). -/
def State.refuseJump (s : State) (b : Nat) (theta : Int) : State :=
  let k := s.servo.refused + 1
  let s1 := ((s.setF F.TIME_STATUS_JUMP_REFUSED).incSat F.TIME_REFUSED_CNT_COUNT).post b 0x0C03 s.locusHub (enc 96 theta)
  let s2 := { s1 with servo := { s1.servo with refused := k, good := 0, first := false } }
  if max 1 (s.get F.TIME_SERVO_JUMP_N) ≤ k then s2.enterHoldover.setF F.TIME_STATUS_JUMP_HOLD else s2

/-- The rate update of R278 with mean offset theta = sum / cnt over T, all in 2^-16 ns. -/
def State.slew (s : State) (sum : Int) (cnt : Nat) (tEl : Int) : State :=
  let ki := 2 ^ s.get F.TIME_SERVO_KI_SH
  let kp := 2 ^ s.get F.TIME_SERVO_KP_SH
  let den : Int := cnt * tEl
  -- y - sum / (cnt·T·2^KI), held within ±500 ppm
  let yn := s.servo.yNum * (den * ki) - sum * s.servo.yDen
  let yd : Int := s.servo.yDen * (den * ki)
  let lim := decide (500 * yd < 1000000 * yn) || decide (1000000 * yn < -(500 * yd))
  let y : Int × Int := if 500 * yd < 1000000 * yn then (500, 1000000)
    else if 1000000 * yn < -(500 * yd) then (-500, 1000000) else (yn, yd)
  -- s = clamp(-sum / (cnt·T·2^KP), ±SLEW_MAX ppm)
  let sd : Int := den * kp
  let sl : Int := s.get F.TIME_SERVO_SLEW_MAX
  let sv : Int × Int := if sl * sd < 1000000 * (-sum) then (sl, 1000000)
    else if 1000000 * (-sum) < -(sl * sd) then (-sl, 1000000) else (-sum, sd)
  let g := Int.gcd y.1 y.2
  let s1 := if lim then s.setF F.TIME_STATUS_RATE_LIMIT else s
  let s2 := s1.sput F.TIME_RATE_Y (roundDivI (y.1 * 1099511627776) y.2)
  { s2 with
    timeDue := s2.timeDue ++ [.rate (y.2 * sv.2 + y.1 * sv.2 + sv.1 * y.2) (y.2 * sv.2)]
    servo := { s2.servo with yNum := y.1 / g, yDen := (y.2 / g).toNat, refused := 0 } }

/-- The servo update at boundary b (R278-R281), when one is due. One without an accepted offset opens no epoch. Network time that
has not moved since the last update counts as 2^-16 ns (log entry 89). -/
def State.servoUpdate (s : State) (b : Nat) : State :=
  let v := s.servo
  let st := s.get F.TIME_STATUS_SERVO
  if b < v.last + s.epochMin ∨ s.flag F.TIME_CTRL_SERVO_EN = false ∨ (st ≠ 1 ∧ st ≠ 2) then s
  else if v.cnt = 0 then { s with servo := { v with last := b } }
  else
    let theta := roundDiv v.sum v.cnt
    let s1 := (s.sput F.TIME_THETA_THETA (clampI (-2147483648) 2147483647 theta))
    let s1 := { s1 with servo := { v with sum := 0, cnt := 0, last := b } }
    if s.jumpMax * v.cnt < v.sum ∨ v.sum < -(s.jumpMax * v.cnt) then
      if s.flag F.TIME_CTRL_ACCEPT_STEP ∨ (v.first ∧ s.flag F.TIME_CTRL_FIRST_FREE) then
        let s2 := if s.flag F.TIME_CTRL_ACCEPT_STEP then s1.clrF F.TIME_CTRL_ACCEPT_STEP else s1
        { s2 with timeDue := s2.timeDue ++ [.step (-theta)], servo := { s2.servo with first := false, refused := 0, good := 0 } }
      else s1.refuseJump b theta
    else
      let good := if v.sum ≤ 6553600 * v.cnt ∧ -(6553600 * v.cnt) ≤ v.sum then v.good + 1 else 0
      let tEl : Int := (s.netTime (65536 * b)).val - (s.netTime (65536 * v.last)).val
      let s2 := s1.slew v.sum v.cnt (max 1 tEl)
      let s3 := { s2 with servo := { s2.servo with good := good } }
      if st = 1 ∧ 8 ≤ good then s3.put F.TIME_STATUS_SERVO 2 else s3

/-! ### Messages on a port (R190, R191) -/

/-- A pause or PFC pause holds frames of a priority on port p (R190). -/
def State.heldPrio (s : State) (p prio : Nat) : Bool :=
  let x := s.port p
  if s.flag (F.STM_PORT_CTRL_PFC_EN p) then decide (s.lcnt < Tab.get 0 x.pfc prio)
  else match x.pauseTo with
    | some e => decide (s.lcnt < e)
    | none => false

/-- One frame transmitted is counted. -/
def State.txCount (s : State) (p : Nat) : State :=
  s.putN (R.STM_PORT_TX_FRAMES p) 2 ((s.getN (R.STM_PORT_TX_FRAMES p) 2 + 1) % 2 ^ 64)

/-- Messages that no pause holds any more leave, in order. -/
def State.flushCtl (s : State) (p : Nat) : State :=
  let x := s.port p
  if x.ctl = [] ∨ s.heldPrio p 0 then s
  else x.ctl.foldl (fun t o => (t.emit o).txCount p) (s.setPort p { x with ctl := [] })

/-- A PTP message, or the answer to a received frame, leaves on port p; a pause of priority 0 delays it (R190, R191). -/
def State.sendCtl (s : State) (p : Nat) (o : Out) : State :=
  (s.setPort p { s.port p with ctl := (s.port p).ctl ++ [o] }).flushCtl p

/-- An accepted offset measurement θ of the slave port (R278). -/
def State.addTheta (s : State) (theta : Int) : State :=
  let st := s.get F.TIME_STATUS_SERVO
  if s.flag F.TIME_CTRL_SERVO_EN ∧ (st = 1 ∨ st = 2) then
    { s with servo := { s.servo with sum := s.servo.sum + theta, cnt := s.servo.cnt + 1 } }
  else s

/-- The servo follows its ports (Table 12.4): a port in SLAVE starts ACQUIRE from FREE, or from HOLDOVER with JUMP_HOLD
clear; with no port in SLAVE it goes to HOLDOVER. -/
def State.servoPorts (s : State) : State :=
  let slave := (List.range 128).any (fun p => s.get (F.TIME_PTP_PORT_STATE p) == 9)
  let st := s.get F.TIME_STATUS_SERVO
  if s.flag F.TIME_CTRL_SERVO_EN = false then s.put F.TIME_STATUS_SERVO 0
  else if slave then
    (if st = 0 ∨ (st = 3 ∧ s.flag F.TIME_STATUS_JUMP_HOLD = false) then
      { (s.put F.TIME_STATUS_SERVO 1) with servo := { s.servo with sum := 0, cnt := 0, last := s.lcnt, good := 0 } } else s)
  else (if st = 1 ∨ st = 2 then s.enterHoldover else s)

/-- PTP ports change their state; a new grandmaster clears JUMP_HOLD (R279, R280). -/
def State.portStates (s : State) (l : List (Nat × Nat)) (gm : Nat) : State :=
  let s1 := l.foldl (fun t p => if t.get (F.TIME_PTP_PORT_STATE p.1) ≠ 0 then t.put (F.TIME_PTP_PORT_STATE p.1) p.2 else t) s
  let s2 := if gm = s.servo.gm then s1 else
    { (s1.clrF F.TIME_STATUS_JUMP_HOLD) with servo := { s1.servo with gm := gm, refused := 0 } }
  s2.servoPorts

/-! ### The commands -/

/-- SERVO_UPDATE: at the next boundary at least EPOCH_MIN ticks after the last update (R278). -/
def execServoUpdate (s : State) : Host.Outcome State Fault Refusal :=
  let b := max (s.tick + tickLen) (boundaryAt (s.servo.last + s.epochMin))
  .next (((s.at_ b).servoUpdate b).publishTime b)

/-- A stamp enters the transmit queue, or is dropped (R283). -/
def State.pushTx (s : State) (x : TxStamp) : State :=
  if s.flag F.TIME_CTRL_TXQ_EN = false then s
  else if s.txq.length < 64 then { s with txq := s.txq ++ [x] }
  else (s.incSat F.TIME_TXQ_DROP_CNT_COUNT).setF F.TIME_STATUS_TXQ_OVF

/-- A PTP message of the 4832 on port p, with its clockIdentity and portNumber p + 1 (R275). -/
def State.ownMsg (s : State) (p typ seq : Nat) (fields : List Int) : Out := .ptp p typ seq ((s.getN R.TIME_PTP_ID 2 : Int) :: (p + 1 : Nat) :: fields)

/-- The transparent clock (R276). -/
def State.isTc (s : State) (p : Nat) : Bool := s.get F.TIME_PTP_CTRL_TYPE == 2 && s.flag (F.TIME_PTP_PORT_TC p)

/-- The other ports that a message received on port p is sent on (R276). -/
def State.tcPorts (s : State) (p : Nat) : List Nat := (List.range 128).filter (fun q => q != p && s.flag (F.TIME_PTP_PORT_TC q))

/-- An event message received at instant t is sent on port q. It leaves a free time later, which is physical; its residence time is the
difference of the two stamps in the current epoch. It enters the correction, or waits for the Follow_Up of a two-step Sync; the
transmit stamp enters the queue (R276, R283; log entry 5). -/
def State.tcEvent (s : State) (q typ seq t : Nat) (corr : Int) (twoStep : Bool) : State :=
  let d := s.draw 32
  let tx := t + d.1
  let e := s.epochAt s.lcnt
  let res : Int := (netTimeIn e tx).val - (netTimeIn e t).val
  let s1 := d.2.pushTx ⟨d.2.netTime tx, (d.2.epochAt (tx / 65536)).num, seq, typ, q⟩
  if twoStep then
    (s1.setPtpPort q { s1.ptpPort q with resid := (seq, res) :: (s1.ptpPort q).resid }).sendCtl q (.ptp q typ seq [corr])
  else s1.sendCtl q (.ptp q typ seq [corr + res])

/-- A Follow_Up is sent on port q with the residence time of its Sync (R276). -/
def State.tcFollowUp (s : State) (q seq : Nat) (corr : Int) : State :=
  let pp := s.ptpPort q
  let res := ((pp.resid.find? (fun x => x.1 == seq)).map (fun x => x.2)).getD 0
  (s.setPtpPort q { pp with resid := pp.resid.filter (fun x => x.1 != seq) }).sendCtl q (.ptp q 8 seq [corr + res])

/-- What the transparent clock sends on of a message that is no Sync (R276). Management messages are not sent on (Table 12.2). -/
def State.tcForward (s : State) (p : Nat) (msg : PtpMsg) : State :=
  if s.isTc p = false then s
  else (s.tcPorts p).foldl (fun t q => match msg with
    | .announce _ gm _ u => t.sendCtl q (.ptp q 11 0 [(gm : Int), u])
    | .followUp seq origin => t.tcFollowUp q seq origin
    | .pathDelay mpd => t.sendCtl q (.ptp q 9 0 [mpd])
    | .delayReq seq rx => t.tcEvent q 1 seq rx 0 false
    | .interval a b c => t.sendCtl q (.ptp q 12 0 [(a : Int), b, c])
    | .management => t) s

/-- PTP_SYNC_RX: the offset of a Sync, or the first half of a two-step Sync (R276, R278). The transparent clock sends it on and takes
its offset from it. -/
def execPtpSyncRx (p : Fin 128) (seq t : Nat) (origin : Int) (twoStep : Bool) (s : State) : Host.Outcome State Fault Refusal :=
  let rx : Int := (s.netTime t).val
  let s1 := if s.isTc p then (s.tcPorts p).foldl (fun u q => u.tcEvent q 0 seq t origin twoStep) s else s
  .next (if s.get (F.TIME_PTP_PORT_STATE p) ≠ 9 ∧ s.isTc p = false then s1
    else if twoStep then s1.setPtpPort p { s1.ptpPort p with syncs := (seq, rx) :: (s1.ptpPort p).syncs }
    else s1.addTheta (rx - origin - (s1.ptpPort p).mpd))

/-- A delay request: a master answers a Delay_Req with its receipt time, a P2P port a Pdelay_Req when its response leaves (R274). -/
def State.answerDelay (s : State) (p seq t : Nat) : State :=
  let rx : Int := (s.netTime t).val
  if s.flag F.TIME_PTP_CTRL_DELAY then
    (if s.get (F.TIME_PTP_PORT_STATE p) = 0 then s
     else s.setPtpPort p { s.ptpPort p with reqs := (seq, rx) :: (s.ptpPort p).reqs })
  else if s.get (F.TIME_PTP_PORT_STATE p) = 6 then s.sendCtl p (s.ownMsg p 9 seq [rx])
  else s

/-- PTP_MESSAGE_RX: any other PTP message (R274-R280). A management message is counted and dropped. -/
def execPtpMessageRx (p : Fin 128) (msg : PtpMsg) (s : State) : Host.Outcome State Fault Refusal :=
  let s0 := s.tcForward p msg
  let pp := s0.ptpPort p
  .next (match msg with
    | .announce states gm uv u =>
      ((s0.portStates states gm).putB F.TIME_UTC_VALID uv).sput F.TIME_UTC_OFFSET u
    | .followUp seq origin =>
      (match pp.syncs.find? (fun x => x.1 == seq) with
       | some x => (s0.setPtpPort p { pp with syncs := pp.syncs.filter (fun y => y.1 != seq) }).addTheta (x.2 - origin - pp.mpd)
       | none => s0)
    | .pathDelay mpd => s0.setPtpPort p { pp with mpd := mpd }
    | .delayReq seq t => s0.answerDelay p seq t
    | .interval ann sync dly =>
      if s.get F.TIME_PTP_CTRL_PROFILE = 1 then s0.setPtpPort p { pp with intv := some (ann, sync, dly) } else s0
    | .management => s0.incSat (F.STM_PORT_RX_DROP_CNT_COUNT p))

/-- PTP_EVENT_TX: an event message leaves at instant t; its stamp enters the queue. A Pdelay_Resp carries the receipt time of its
request, or with one step the turnaround; a two-step Sync or Pdelay_Resp is followed by its Follow_Up (R274, R283). -/
def execPtpEventTx (p : Fin 128) (typ seq t : Nat) (s : State) : Host.Outcome State Fault Refusal :=
  let st := s.netTime t
  let pp := s.ptpPort p
  let one := s.flag F.TIME_PTP_CTRL_ONE_STEP
  let rx : Int := ((pp.reqs.find? (fun x => x.1 == seq)).map (fun x => x.2)).getD st.val
  let s0 := if typ = 3 then s.setPtpPort p { pp with reqs := pp.reqs.filter (fun x => x.1 != seq) } else s
  let body : List Int := if typ = 3 then (if one then [(st.val : Int) - rx] else [rx]) else [st.val]
  let s1 := ((s0.emit (s.ownMsg p typ seq body)).txCount p).pushTx ⟨st, (s.epochAt (t / 65536)).num, seq, typ, p⟩
  .next (if one = false ∧ (typ = 0 ∨ typ = 3) then
      s1.sendCtl p (s.ownMsg p (if typ = 0 then 8 else 10) seq [st.val]) else s1)

/-- ANNOUNCE_RECEIPT_TIMEOUT: a slave port is lost and the servo enters HOLDOVER (R279). -/
def execAnnounceReceiptTimeout (p : Fin 128) (s : State) : Host.Outcome State Fault Refusal :=
  .next (if s.get (F.TIME_PTP_PORT_STATE p) = 9 then (s.put (F.TIME_PTP_PORT_STATE p) 6).servoPorts else s)

/-- KEEPER_SECONDS_LOAD: while LOCKED, at a network second that is a multiple of 1024 (R281). -/
def execKeeperSecondsLoad (s : State) : Host.Outcome State Fault Refusal :=
  let sec := (s.netTime (65536 * s.lcnt)).sec
  .next (if s.get F.TIME_STATUS_SERVO = 2 ∧ sec % 1024 = 0 then s.putN R.GLOBAL_KEEP_SEC 2 (sec % 2 ^ 48) else s)

/-- TIME_SNAP (R284): LCNT = a + 4, its epoch and its network time. -/
def State.timeSnap (s : State) (a : Nat) : State :=
  (s.at_ a).holdSnap (a + 4)

def execTimeSnap (a : Nat) (s : State) : Host.Outcome State Fault Refusal := .next (s.timeSnap a)

/-- TIME_STAGE_CMD arriving in core cycle a (R285 step 1). -/
def State.stageTime (s : State) (a : Nat) (period add abs : Bool) : State :=
  let s1 := s.at_ a
  if s.flag F.TIME_STATUS_STAGE_PENDING then (s1.setF F.TIME_STATUS_STAGE_IGN).post a 0x0C04 s.locusHub 1
  else
    let target := if abs then s.getN R.TIME_STAGE 10 / 2 ^ 96 % 2 ^ 64 else 0
    { (s1.setF F.TIME_STATUS_STAGE_PENDING) with stage := some ⟨period, add, abs, boundaryAt (max (a + 16) target)⟩ }

def execStagePeriod (a : Nat) (s : State) : Host.Outcome State Fault Refusal := .next (s.stageTime a true false false)
def execStageOffsetAdd (a : Nat) (s : State) : Host.Outcome State Fault Refusal := .next (s.stageTime a false true false)
def execStageOffsetAbs (a : Nat) (s : State) : Host.Outcome State Fault Refusal := .next (s.stageTime a false false true)

/-- STAGED_TIME_APPLY: the staged change applies in a new epoch at its boundary (R270, R285). -/
def execStagedTimeApply (s : State) : Host.Outcome State Fault Refusal :=
  .next (match s.stage with
    | some st => (s.at_ st.due).publishTime st.due
    | none => s)

/-- The key of a latched word: function and offset. -/
def latchKey (fn off : Nat) : Nat := fn * 16777216 + off

/-- Words of a block latched for a function, from an offset on. -/
def State.latchWords (s : State) (fn off : Nat) : Nat → Nat → State
  | 0, _ => s
  | n + 1, v =>
    ({ s with latch := Tab.set s.latch (latchKey fn off) (BitVec.ofNat 32 v) }).latchWords fn (off + 4) n (v / 4294967296)

/-- A read of TIME_HIST: word 0 is answered, words 1-7 are latched for the function (R271). -/
def State.histRd (s : State) (fn i : Nat) : State := s.latchWords fn (R.TIME_HIST i + 4) 7 (s.getN (R.TIME_HIST i) 8 / 4294967296)

/-- The five words of a transmit stamp (TIME_TXQ). -/
def TxStamp.val (x : TxStamp) : Nat :=
  x.port % 2 ^ 7 + 2 ^ 7 + x.typ % 2 ^ 4 * 2 ^ 12 + x.id % 2 ^ 16 * 2 ^ 16 + x.epoch % 2 ^ 16 * 2 ^ 32
    + x.st.sec % 2 ^ 48 * 2 ^ 64 + x.st.sub * 2 ^ 112 + x.st.ns * 2 ^ 128

/-- A read of TIME_TXQ word 0: the head entry is removed and latched; an empty queue answers VALID = 0 (R283). -/
def State.txqRd (s : State) (fn : Nat) : Word × State :=
  let v := match s.txq with
    | x :: _ => x.val
    | [] => 0
  (BitVec.ofNat 32 v, { s with txq := s.txq.drop 1 }.latchWords fn (R.TIME_TXQ + 4) 4 (v / 4294967296))

/-- TIME_CTRL.ACCEPT_STEP written 1: the next step is accepted, JUMP_HOLD clears, a servo in HOLDOVER goes to ACQUIRE (R279,
R280). -/
def State.acceptStep (s : State) : State :=
  let s1 := (s.setF F.TIME_CTRL_ACCEPT_STEP).clrF F.TIME_STATUS_JUMP_HOLD
  let s2 := { s1 with servo := { s1.servo with refused := 0 } }
  if s.get F.TIME_STATUS_SERVO = 3 then
    { (s2.put F.TIME_STATUS_SERVO 1) with servo := { s2.servo with sum := 0, cnt := 0, last := s.lcnt, good := 0 } } else s2

/-- ACCEPT_STEP_WRITE (R280). -/
def execAcceptStepWrite (s : State) : Host.Outcome State Fault Refusal := .next s.acceptStep

/-- PTP_ANNOUNCE_TX (R275): a port in MASTER announces; as grandmaster with clockClass 248 and clockAccuracy 0xFE. -/
def execPtpAnnounceTx (p : Fin 128) (s : State) : Host.Outcome State Fault Refusal :=
  let pp := s.ptpPort p
  let gm := (List.range 128).all (fun q => s.get (F.TIME_PTP_PORT_STATE q) != 9)
  .next (if s.get (F.TIME_PTP_PORT_STATE p) = 6 then
      (s.setPtpPort p { pp with annSeq := (pp.annSeq + 1) % 65536 }).sendCtl p
        (s.ownMsg p 11 pp.annSeq (if gm then [248, 0xFE, s.get F.TIME_PTP_CTRL_PRIORITY1, s.get F.TIME_PTP_CTRL_PRIORITY2, s.getN R.TIME_PTP_ID 2]
          else [s.get F.TIME_PTP_CTRL_PRIORITY1, s.get F.TIME_PTP_CTRL_PRIORITY2, s.servo.gm]))
    else s)

end Sys2Proof.Machine
end

