-- ==== Sys2Proof/Machine/SvcDie.lean ====
section
/-! DEFINITION. The front-end service die (spec/15): link frames and strobes, the safe state, excitation faults, relays,
the monitor converter. -/

namespace Sys2Proof.Machine

/-- The service die as a whole. -/
def State.locusSvc (s : State) : Nat := s.locus 9 15 255 255

/-- An output of the service die (Table 0.4): unit 0 offset DAC, 1 excitation source. -/
def State.locusOut (s : State) (n unit : Nat) : Nat := s.locus 9 (n / 4) n unit

/-- c' = round(c·G/2^15) + O (R334). -/
def corrected (c : Int) (corr : Int × Nat) : Int := roundDiv (c * corr.2) 32768 + corr.1

/-- The correction of output i (offset DAC n at n, excitation source n at 48 + n); identity until loaded. -/
def State.corr (s : State) (i : Nat) : Int × Nat := Tab.get (0, 32768) s.svc.corr i

/-- The offset code c' that DAC n receives from the active set, and whether it was limited (R334). -/
def State.ofsCode (s : State) (n : Nat) : Int × Bool :=
  let v := corrected (s.sget (F.SVC_OFS_CODE_CODE n)) (s.corr n)
  (clampI (-32768) 32767 v, decide (clampI (-32768) 32767 v ≠ v))

/-- The excitation code c' of source n (R336). -/
def State.excCode (s : State) (n : Nat) : Int :=
  clampI 0 65535 (corrected (s.get (F.SVC_EXC_CTRL_CODE n)) (s.corr (48 + n)))

/-- Sources that the active set enables. -/
def State.excEnabled (s : State) : Nat := maskOf ((List.range 48).filter (fun n => s.flag (F.SVC_EXC_CTRL_EN n)))

/-- What the link sends for output i: the offset code, or the excitation code with its enable. -/
def State.svcWritten (s : State) (i : Nat) : Nat :=
  if i < 48 then s.get (F.SVC_OFS_CODE_CODE i)
  else s.get (F.SVC_EXC_CTRL_CODE (i - 48)) + 65536 * s.get (F.SVC_EXC_CTRL_EN (i - 48))

/-- Outputs of a range whose written codes differ from those sent last. -/
def State.svcChanged (s : State) (base : Nat) : Nat :=
  maskOf ((List.range 48).filter (fun n => Tab.get 0 s.svc.sent (base + n) != s.svcWritten (base + n)))

/-- The link frame of a tick boundary (R330): every code the commit changed, or every code after the safe state (R331). A
frame that was not applied is merged into the next. -/
def State.svcSend (s : State) (b : Nat) : State :=
  let old : SvcFrame := s.svc.frame.getD ⟨b, 0, 0, 0, false⟩
  let f : SvcFrame := ⟨b, Nat.lor old.ofs (s.svcChanged 0), Nat.lor old.exc (s.svcChanged 48),
    Nat.lor old.rly (Nat.xor s.svc.sentRly (s.getN R.SVC_RLY 1)), s.flag F.SVC_STATUS_SAFE⟩
  { (s.emit (.svcFrame b)) with svc := { s.svc with
      frame := some f
      sent := (List.range 96).map (fun i => (i, s.svcWritten i))
      sentRly := s.getN R.SVC_RLY 1 } }

/-- A source's fault bits and fold end, and its detectors start afresh (R339). -/
def State.excFresh (s : State) (n : Nat) : State :=
  let s1 := (((s.clrF (F.SVC_OUT_STATUS_FOLDED n)).clrF (F.SVC_OUT_STATUS_SHORT n)).clrF (F.SVC_OUT_STATUS_OPEN n)).clrF
    (F.SVC_OUT_STATUS_COMPLIANCE n)
  { s1 with svc := { s1.svc with logged := clrBit s1.svc.logged n } }

/-- Offset DAC n takes its code at a strobe in core cycle x. -/
def State.applyOfs1 (s : State) (x n : Nat) : State :=
  let c := s.ofsCode n
  let s1 := if c.2 then s.setF (F.SVC_OUT_STATUS_OFS_CLAMP n) else s
  { s1 with svc := { s1.svc with outs := Tab.set s1.svc.outs n c.1, strobe := Tab.set s1.svc.strobe n x } }

/-- Offset DACs take their codes at a strobe. -/
def State.applyOfs (s : State) (x : Nat) (l : List Nat) : State := l.foldl (fun t n => t.applyOfs1 x n) s

/-- Excitation sources take their codes and enables at a strobe; a tripped supply keeps them disabled (R336, R340). -/
def State.applyExc (s : State) (x : Nat) : List Nat → State
  | [] => s
  | n :: ns =>
    let s1 := s.excFresh n
    let on := s.flag (F.SVC_EXC_CTRL_EN n) && !s.flag F.SVC_STATUS_EXC_TRIP
    ({ s1 with svc := { s1.svc with
        outs := Tab.set s1.svc.outs (48 + n) (s.excCode n)
        enabled := if on then setBit s1.svc.enabled n else clrBit s1.svc.enabled n
        strobe := Tab.set s1.svc.strobe (48 + n) x } }).applyExc x ns

/-- Relay drivers take the active pattern; a driver switched off for over-current stays off (R341). -/
def State.relayPattern (s : State) : Nat :=
  maskOf ((bitsSet 32 (s.getN R.SVC_RLY 1)).filter (fun r => !bitOf (s.getN R.SVC_RLY_OC 1) r))

/-- What a good frame does beside its outputs (R330, R331): relays, safe-state settings, link status. -/
def State.svcGood (s : State) (x rly : Nat) : State :=
  let s1 : State := { s with svc := { s.svc with
    frame := none
    relays := if rly = 0 then s.svc.relays else s.relayPattern
    safeExc := s.flag F.SVC_CTRL_SAFE_EXC
    safeRly := s.flag F.SVC_CTRL_SAFE_RLY
    rlySafe := s.getN R.SVC_RLY_SAFE 1
    goodAt := x
    powered := true } }
  (s1.setF F.SVC_STATUS_LINK_OK).clrF F.SVC_STATUS_SAFE

/-- The log entries of an applied frame: outputs, then relays. -/
def State.svcNote (s : State) (x outs rly : Nat) : State :=
  let s1 := if outs = 0 ∧ rly = 0 then s else s.post x 0x0E01 s.locusSvc outs
  if rly = 0 then s1 else s1.post x 0x0E02 s1.locusSvc rly

/-- Outputs a frame changes: its own after a commit, every output that differs after the safe state (R331). -/
def State.frameOfs (s : State) (f : SvcFrame) : List Nat :=
  if f.full then (List.range 48).filter (fun n => Tab.get 0 s.svc.outs n != (s.ofsCode n).1) else bitsSet 48 f.ofs

def State.frameExc (s : State) (f : SvcFrame) : List Nat :=
  if f.full then (List.range 48).filter (fun n => Tab.get 0 s.svc.outs (48 + n) != s.excCode n ||
      bitOf s.svc.enabled n != s.flag (F.SVC_EXC_CTRL_EN n)) else bitsSet 48 f.exc

def State.frameRly (s : State) (f : SvcFrame) : Nat := if f.full then Nat.xor s.svc.relays s.relayPattern else f.rly

/-- A frame's outputs change in core cycle x; the first after the safe state carries every code (R331). -/
def State.svcApply (s : State) (f0 : SvcFrame) (x : Nat) : State :=
  let f := { f0 with full := f0.full || s.flag F.SVC_STATUS_SAFE }
  let ofs := s.frameOfs f
  let exc := s.frameExc f
  let rly := s.frameRly f
  ((((s.applyOfs x ofs).applyExc x exc).svcGood x rly).svcNote x (maskOf ofs + maskOf exc * 2 ^ 48) rly)

/-- SVC_FRAME_APPLY (R330, R331): the frame's outputs change at t0 + 40, or t0 + 80 after a repeat. -/
def execSvcFrameApply (repeated : Bool) (s : State) : Host.Outcome State Fault Refusal :=
  .next (match s.svc.frame with
    | none => s
    | some f =>
      if s.flag F.SVC_STATUS_FENCED then s
      else
        let x := f.t0 + (if repeated then 80 else 40)
        let s1 := if repeated then (s.at_ x).incSat F.SVC_LINK_ERR_CNT_COUNT else s.at_ x
        s1.svcApply f x)

/-- The service die's safe state (R331): last offset codes; currents and relays as SAFE_EXC and SAFE_RLY say. A driver switched off for
over-current stays off (R341). -/
def State.svcSafe (s : State) : State :=
  { s with svc := { s.svc with
      outs := if s.svc.safeExc then s.svc.outs.filter (fun p => p.1 < 48) else s.svc.outs
      relays := if s.svc.safeRly then
          maskOf ((bitsSet 32 s.svc.rlySafe).filter (fun r => !bitOf (s.getN R.SVC_RLY_OC 1) r))
        else s.svc.relays } }

/-- The core cycle in which a time of n / d seconds from t on has passed; the count stands still while VDD_CORE is absent. -/
def State.afterTime (s : State) (t n d : Nat) : State := if s.pwr.coreLoss then s else s.at_ (t + s.cyclesOf n d)

/-- SVC_SAFE_ENTRY: no good frame for 1 ms (R331). -/
def execSvcSafeEntry (s : State) : Host.Outcome State Fault Refusal :=
  .next (if s.flag F.SVC_STATUS_SAFE then s
    else
      let s0 := s.afterTime s.svc.goodAt 1 1000
      let s1 := ((s0.svcSafe.setF F.SVC_STATUS_SAFE).clrF F.SVC_STATUS_LINK_OK).incSat F.SVC_LINK_ERR_CNT_COUNT
      { s1 with svc := { s1.svc with safeAt := s1.lcnt } })

/-- The service die is fenced (R332). -/
def State.svcFenced (s : State) : State :=
  ((s.setF F.SVC_STATUS_FENCED).setF F.GLOBAL_STATE_DEGRADED).post s.lcnt 0x0104 s.locusSvc 0

/-- SVC_FENCE: the link is absent 1000 ms after safe entry (R332). -/
def execSvcFence (s : State) : Host.Outcome State Fault Refusal :=
  .next (if s.flag F.SVC_STATUS_SAFE ∧ s.flag F.SVC_STATUS_FENCED = false then (s.afterTime s.svc.safeAt 1000 1000).svcFenced else s)

/-- The first fault of a source after a strobe or clear writes a log entry (R338). -/
def State.excLog (s : State) (n : Nat) : State :=
  if bitOf s.svc.logged n then s
  else
    let s1 := s.post s.lcnt 0x0E03 (s.locusOut n 1) 0
    { s1 with svc := { s1.svc with logged := setBit s1.svc.logged n } }

/-- A source that sets OPEN or SHORT folds to min(c', 5461) while FOLD_EN is 1 (R339). -/
def State.fold (s : State) (n : Nat) : State :=
  if s.flag (F.SVC_EXC_CTRL_FOLD_EN n) then
    { (s.setF (F.SVC_OUT_STATUS_FOLDED n)) with svc := { s.svc with
        outs := Tab.set s.svc.outs (48 + n) (min (Tab.get 0 s.svc.outs (48 + n)) 5461) } }
  else s

/-- EXC_COMPLIANCE (R338): detectors of a disabled source are idle (R336). -/
def execExcCompliance (n : Fin 48) (s : State) : Host.Outcome State Fault Refusal :=
  .next (if bitOf s.svc.enabled n then
      ((s.setF (F.SVC_OUT_STATUS_COMPLIANCE n)).setF (F.SVC_OUT_STATUS_COMPL_SEEN n)).excLog n else s)

/-- The next fault of source n writes a log entry again: after a strobe, and after COMPLIANCE or COMPL_SEEN clears (R338; log entry
90). -/
def State.excRelog (s : State) (n : Nat) : State := { s with svc := { s.svc with logged := clrBit s.svc.logged n } }

/-- EXC_COMPLIANCE_CLEAR (R338). -/
def execExcComplianceClear (n : Fin 48) (s : State) : Host.Outcome State Fault Refusal :=
  .next ((s.clrF (F.SVC_OUT_STATUS_COMPLIANCE n)).excRelog n)

/-- EXC_OPEN_LOAD (R338, R339). -/
def execExcOpenLoad (n : Fin 48) (s : State) : Host.Outcome State Fault Refusal :=
  .next (if bitOf s.svc.enabled n then
      (((((s.setF (F.SVC_OUT_STATUS_OPEN n)).setF (F.SVC_OUT_STATUS_COMPLIANCE n)).setF (F.SVC_OUT_STATUS_COMPL_SEEN n)).excLog n).fold n)
    else s)

/-- EXC_SHORT (R338, R339): with SHORT_EN and a code of at least 2731. -/
def execExcShort (n : Fin 48) (s : State) : Host.Outcome State Fault Refusal :=
  .next (if bitOf s.svc.enabled n ∧ s.flag (F.SVC_EXC_CTRL_SHORT_EN n) ∧ 2731 ≤ s.get (F.SVC_EXC_CTRL_CODE n) then
      ((s.setF (F.SVC_OUT_STATUS_SHORT n)).excLog n).fold n
    else s)

/-- SVC_EXC_CMD.RETRY (R339): a folded source returns to its code. -/
def State.excRetry (s : State) (n : Nat) : State :=
  if s.flag (F.SVC_OUT_STATUS_FOLDED n) then
    (let s1 := s.excFresh n
     { s1 with svc := { s1.svc with outs := Tab.set s1.svc.outs (48 + n) (s.excCode n) } })
  else s

def execExcRetry (n : Fin 48) (s : State) : Host.Outcome State Fault Refusal := .next (s.excRetry n)

/-- EXC_TRIP (R340): every source is disabled. -/
def execExcTrip (s : State) : Host.Outcome State Fault Refusal :=
  .next (({ (s.setF F.SVC_STATUS_EXC_TRIP) with svc := { s.svc with enabled := 0 } }).post s.lcnt 0x0E06 (s.locus 9 15 255 253) 0)

/-- SVC_CMD.EXC_RESTORE (R340): the sources return to the active set's codes. -/
def State.excRestore (s : State) : State :=
  if s.flag F.SVC_STATUS_EXC_TRIP then
    (let s1 := (bitsSet 48 s.excEnabled).foldl (fun t n => t.excFresh n) (s.clrF F.SVC_STATUS_EXC_TRIP)
     { s1 with svc := { s1.svc with
        enabled := s1.excEnabled
        outs := (bitsSet 48 s1.excEnabled).foldl (fun o n => Tab.set o (48 + n) (s1.excCode n)) s1.svc.outs } })
  else s

def execExcRestore (s : State) : Host.Outcome State Fault Refusal := .next s.excRestore

/-- RELAY_OVERCURRENT (R341). -/
def execRelayOvercurrent (r : Fin 32) (s : State) : Host.Outcome State Fault Refusal :=
  .next (if bitOf s.svc.relays r then
      (let s1 := s.putN R.SVC_RLY_OC 1 (setBit (s.getN R.SVC_RLY_OC 1) r)
       ({ s1 with svc := { s1.svc with relays := clrBit s1.svc.relays r } }).post s.lcnt 0x0E04 (s.locus 9 15 255 (0x10 + r)) 0)
    else s)

/-- RELAY_OPEN_LOAD (R341). -/
def execRelayOpenLoad (r : Fin 32) (s : State) : Host.Outcome State Fault Refusal :=
  .next (if bitOf s.svc.relays r ∨ bitOf (s.getN R.SVC_RLY_OPEN 1) r then s
    else (s.putN R.SVC_RLY_OPEN 1 (setBit (s.getN R.SVC_RLY_OPEN 1) r)).post s.lcnt 0x0E04 (s.locus 9 15 255 (0x10 + r)) 0)

/-- Clearing SVC_RLY_OC bits re-enables their drivers (R341). -/
def State.rlyOcClear (s : State) (v : Nat) : State :=
  let oc := s.getN R.SVC_RLY_OC 1
  let back := (bitsSet 32 v).filter (fun r => bitOf oc r)
  let s1 := s.putN R.SVC_RLY_OC 1 (back.foldl clrBit oc)
  let on := back.foldl (fun m r => if bitOf (s.getN R.SVC_RLY 1) r then setBit m r else m) s1.svc.relays
  { s1 with svc := { s1.svc with relays := on } }

def execRlyOcClear (v : BitVec 32) (s : State) : Host.Outcome State Fault Refusal := .next (s.rlyOcClear v.toNat)

/-! ### Monitor converter -/

/-- A point of the monitor cycle (R342). -/
inductive MonPoint where
  | ofs (n : Nat)
  | excI (n : Nat)
  | excV (n : Nat)
  | die (i : Nat)
  deriving DecidableEq, Repr

/-- The points in the order of R342: outputs, then VHVP, VHVN, VEXC, total current, temperature, CALV. -/
def State.monPoints (s : State) : List MonPoint :=
  (List.range 48).map .ofs ++ (bitsSet 48 s.svc.enabled).flatMap (fun n => [.excI n, .excV n]) ++ (List.range 6).map .die

/-- The output whose strobe spoils a point's conversion (R343). -/
def MonPoint.output : MonPoint → Option Nat
  | .ofs n => some n
  | .excI n => some (48 + n)
  | .excV n => some (48 + n)
  | .die _ => none

/-- A corrected reading is published (R342). -/
def State.monPublish (s : State) (p : MonPoint) (v : Int) : State :=
  match p with
  | .ofs n => s.sput (F.SVC_MON_OFS_UV n) v
  | .excI n => s.sput (F.SVC_MON_EXC_I_NA n) v
  | .excV n => s.sput (F.SVC_MON_EXC_V_UV n) v
  | .die i => s.sput (F.SVC_MON_DIE_VALUE i) v

/-- Whether a published reading lies outside the tolerance of R344. -/
def State.monOff (s : State) (p : MonPoint) (v : Int) : Bool :=
  match p with
  | .ofs n =>
    let d := v * 1000 - s.sget (F.SVC_OFS_CODE_CODE n) * 305176
    let tol : Int := s.get F.SVC_MON_TOL_TOL_V * 1000000
    decide (tol < d) || decide (d < -tol)
  | .excI n =>
    let d := v * 100 - (s.get (F.SVC_EXC_CTRL_CODE n) : Int) * 36621
    let tol : Int := s.get F.SVC_MON_TOL_TOL_I * 100000
    let skip := s.flag (F.SVC_OUT_STATUS_COMPLIANCE n) || s.flag (F.SVC_OUT_STATUS_OPEN n) ||
      s.flag (F.SVC_OUT_STATUS_SHORT n) || s.flag (F.SVC_OUT_STATUS_FOLDED n)
    (decide (tol < d) || decide (d < -tol)) && !skip
  | _ => false

/-- Two consecutive readings outside the tolerance set the mismatch bit and log (R344); a mismatch that lasts sets and logs again once
its bit has been cleared. -/
def State.monCheck (s : State) (p : MonPoint) (v : Int) : State :=
  match p.output with
  | none => s
  | some i =>
    match p with
    | .excV _ => s
    | _ =>
      let k := if s.monOff p v then Tab.get 0 s.svc.bad i + 1 else 0
      let s1 := { s with svc := { s.svc with bad := Tab.set s.svc.bad i k } }
      let f := if i < 48 then F.SVC_OUT_STATUS_OFS_MISMATCH i else F.SVC_OUT_STATUS_EXC_MISMATCH (i - 48)
      if k < 2 then s1
      else if k = 2 ∨ s.flag f = false then (s1.setF f).post s.lcnt 0x0E05 (s.locusOut (i % 48) (i / 48)) 0
      else s1

/-- Point i's reading, unless a strobe of its output spoiled it, is corrected, published and checked (R342-R344). -/
def State.monTake (s : State) (p : MonPoint) (reading : Int) (start : Nat) : State :=
  let spoiled := match p.output with
    | some o =>
      let x := Tab.get 0 s.svc.strobe o
      decide (start ≤ x) && decide (0 < x) && decide (x < start + s.cyclesOf 1 2000)
    | none => false
  let v := roundDiv (reading * s.svc.monGain) 1073741824 + s.svc.monOff
  if spoiled then s else (s.monPublish p v).monCheck p v

/-- The monitor goes on after point i of n; the first point's start is the cycle's (R342). -/
def State.monNext (s : State) (i n start : Nat) : State :=
  let s1 : State := if i = 0 then { s with svc := { s.svc with cycleStart := start } } else s
  if i + 1 < n then { s1 with svc := { s1.svc with point := i + 1 } }
  else
    let s2 := (s1.incWrap F.SVC_MON_CYCLE_COUNT).putN R.SVC_MON_LCNT 2 s1.svc.cycleStart
    { s2 with svc := { s2.svc with point := 0 } }

/-- MONITOR_CONVERSION (R342-R344): the reading of the next point, converted since core cycle start. -/
def execMonitorConversion (reading : Int) (start : Nat) (s : State) : Host.Outcome State Fault Refusal :=
  let pts := s.monPoints
  let i := if s.svc.point < pts.length then s.svc.point else 0
  .next (if s.flag F.SVC_STATUS_MON_HELD then s
    else ((s.afterTime start 1 2000).monTake ((pts[i]?).getD (.die 5)) reading start).monNext i pts.length start)

end Sys2Proof.Machine
end

