-- ==== Sys2Proof/Machine/Records.lean ====
section
/-! DEFINITION. Records, gaps and store pressure (spec/05): element places, gap descriptors, the ring's slots, headers. -/

namespace Sys2Proof.Machine

/-! ### Channels, pages, places -/

/-- Fenced channels (CONV_FENCE_CH). -/
def State.fenceMask (s : State) : Nat := s.getN R.CONV_FENCE_CH 2 % 2 ^ 48

/-- A group's channels that are not fenced (R50). -/
def State.grpMask (s : State) (g : Nat) : Nat :=
  let m := chMask s.regs g
  m - Nat.land m s.fenceMask

/-- The physical page of a group's logical page (R122). -/
def State.physPage (s : State) (g l : Nat) : Nat :=
  Tab.get (s.get (F.REC_GRP_RING_BASE_PAGE g) + l) (s.grp g).pmap l

/-- The store address of a byte of an image that starts at a logical page. -/
def State.lpAddr (s : State) (g lpage off : Nat) : Nat := s.physPage g (lpage + off / 65536) * 65536 + off % 65536

/-- Bits of an image staged; bits that cross a page edge go in two writes. paid: they took space of the part that can run
full (R161). -/
def State.stageBits (s : State) (paid : Bool) (g tag lpage bit n v : Nat) : State :=
  let room := 524288 - bit % 524288
  let a := 8 * s.lpAddr g lpage (bit / 8) + bit % 8
  let cost := fun k : Nat => if paid then k else 0
  if n ≤ room then s.stageW ⟨a, n, v, g, tag, cost n⟩
  else (s.stageW ⟨a, room, v % 2 ^ room, g, tag, cost room⟩).stageW
    ⟨8 * s.lpAddr g lpage ((bit + room) / 8), n - room, v / 2 ^ room, g, tag, cost (n - room)⟩

/-- n bits of an image in the store; bits that cross a page edge come from two pages. -/
def State.imageBits (s : State) (g lpage bit n : Nat) : Nat :=
  let room := 524288 - bit % 524288
  let a := 8 * s.lpAddr g lpage (bit / 8) + bit % 8
  if n ≤ room then s.sreadBits a n
  else s.sreadBits a room + 2 ^ room * s.sreadBits (8 * s.lpAddr g lpage ((bit + room) / 8)) (n - room)

/-- n bits of one image copied to a place of another, as they stand in t; a copy takes no space (log entry 41). -/
def State.copyBits (s t : State) (g from_ bitFrom to_ bitTo n : Nat) : State :=
  s.stageBits false g s.lcnt to_ bitTo n (t.imageBits g from_ bitFrom n)

/-- Bits of one element's payload. -/
def Layout.elemBits (l : Layout) : Nat := l.e * l.v * l.b

/-- The core cycle that holds element k's instant. -/
def Layout.cyc (l : Layout) (k : Nat) : Nat := if l.d = 1 then k else k * l.d / l.n

/-- First element of core cycle c, or the first after it (R112). -/
def Layout.elemOf (l : Layout) (c : Nat) : Nat := if l.d = 1 then c else ceilDiv (c * l.n) l.d

/-- First element, first element after the span, decision point (R112). -/
def Rec.k0 (r : Rec) : Nat := r.lay.elemOf r.s
def Rec.kEnd (r : Rec) : Nat := r.lay.elemOf (r.e + 1)
def Rec.kd (r : Rec) : Nat := r.lay.elemOf r.dec

/-- Elements of the record held in the window (R112). -/
def Rec.nWin (r : Rec) : Nat := min (r.kd - r.k0) (r.kEnd - r.k0)

/-- Element k's bit offset in a channel block and its flag-map position (R112), given the decision point once known. -/
def Layout.place (l : Layout) (kd : Option Nat) (k : Nat) : Nat × Nat :=
  match kd with
  | some d =>
    if k < d then (8 * l.offWin + k % l.w * l.elemBits, k % l.w)
    else (8 * l.offLin + (k - d) * l.elemBits, l.w + (k - d))
  | none => (8 * l.offWin + k % l.w * l.elemBits, k % l.w)

/-- A channel's place among the set bits of a mask. -/
def rankIn (mask n : Nat) : Nat := (bitsSet n mask).length

/-- Bit offset of channel block idx in an image. -/
def Layout.blockBit (l : Layout) (idx : Nat) : Nat := 8 * (l.payload + idx * l.stride)

/-- cnt outputs of element k, from its output `sub` on, staged in a channel block with the element's flag nibble. -/
def State.stageElem (s : State) (paid : Bool) (g lpage : Nat) (l : Layout) (idx : Nat) (kd : Option Nat) (k sub cnt v nib : Nat) :
    State :=
  let base := l.blockBit idx
  let p := l.place kd k
  (s.stageBits paid g (l.cyc k) lpage (base + p.1 + sub * (l.v * l.b)) (cnt * (l.v * l.b)) v).stageBits paid g (l.cyc k) lpage
    (base + 8 * l.offMap + 4 * p.2) 4 nib

/-- Lens cycle i of a channel block staged with its flag nibble (R115). -/
def State.stageLens (s : State) (paid : Bool) (g : Nat) (r : Rec) (n from_ i v nib : Nat) : State :=
  let l := r.lay
  let base := l.blockBit (rankIn r.mask n)
  let w := 10 * l.n
  (s.stageBits paid g (from_ + i) r.lpage (base + i * w) w v).stageBits paid g (from_ + i) r.lpage
    (base + 8 * l.offLensMap + 4 * i) 4 nib

/-- Channel blocks of an image move when channels leave or join it: from the places of one mask and layout to those of
another, channel by channel (R50, R114; log entry 41). -/
def State.moveBlocks (s : State) (g lpage : Nat) (l0 : Layout) (m0 : Nat) (l1 : Layout) (m1 : Nat) : State :=
  let t := s.settled
  (bitsSet 48 (Nat.land m0 m1)).foldl (fun u n =>
    let a := l0.blockBit (rankIn m0 n)
    let b := l1.blockBit (rankIn m1 n)
    if a = b then u
    else (List.range (l0.stride / 8)).foldl (fun v i => v.copyBits t g lpage (a + 64 * i) lpage (b + 64 * i) 64) u) s

/-- First lens cycle of a record, when it has a lens (R115). -/
def Rec.lensFrom (r : Rec) : Option (Nat × Nat) :=
  match r.lens with
  | some (o, n) => some ((((r.t / 65536 : Nat) : Int) + o).toNat, n)
  | none => none

/-! ### Spans -/

/-- Spans of a group's records that are open or closing. -/
def Grp.spans (gr : Grp) : List Rec := gr.closing ++ gr.cur.toList

/-- The number of the last record whose span ends before core cycle c (Table 5.6). -/
def Grp.prevNum (gr : Grp) (c : Nat) : Option Nat :=
  match gr.pastRecs.find? (fun r => decide (r.2.2 < c)) with
  | some r => some r.1
  | none => gr.lastNum

/-- The core cycles at which a record span begins, or has just ended (R119). -/
def Grp.edges (gr : Grp) : List Nat := gr.pastRecs.flatMap (fun r => [r.2.1, r.2.2 + 1]) ++ gr.cur.toList.flatMap (fun r => [r.s, r.e + 1])

/-- First core cycle that the next record's account begins with: after the latest span, or the arming LCNT (R101, R121). -/
def Grp.sinceNext (gr : Grp) : Nat :=
  match gr.ePrev with
  | some e => e + 1
  | none => gr.armLcnt

/-- Core cycles of one continuous record. -/
def State.gridLen (s : State) (g : Nat) : Nat := max 1 (s.get (F.REC_GRP_LEN_LEN g) / grpN s.regs g)

/-- The boundary at which a group's stop takes effect (R92, R102). -/
def State.stopAt (s : State) (g a : Nat) : Nat :=
  let gr := s.grp g
  let x := a + lDec s.regs g
  boundaryAt (if isCont s.regs g then x else match gr.ePrev with
    | some e => max x (e + 1)
    | none => x)

/-! ### Losses -/

/-- Channel n is fenced at core cycle c (R50). -/
def State.fencedBy (s : State) (n c : Nat) : Bool :=
  match (s.chan n).fencedAt with
  | some f => decide (f ≤ c)
  | none => bitOf s.fenceMask n

/-- The channels of a group at core cycle c (R12, R50). -/
def State.memberAt (s : State) (g c : Nat) : Nat :=
  maskOf ((bitsSet 48 (chMask (s.cfgAt c) g)).filter (fun n => !s.fencedBy n c))

/-- The loss covers core cycle c. -/
def Loss.at_ (l : Loss) (c : Nat) : Bool := decide (l.first ≤ c) && (match l.stop with
  | some x => decide (c < x)
  | none => true)

/-- The loss meets core cycles a to b. -/
def Loss.meets (l : Loss) (a b : Nat) : Bool := decide (l.first ≤ b) && (match l.stop with
  | some x => decide (a < x)
  | none => true)

/-- Channels that a cause takes core cycle c from. -/
def lossIn (ls : List Loss) (c cause : Nat) : Nat :=
  ls.foldl (fun m l => if l.cause = cause ∧ l.at_ c then Nat.lor m l.mask else m) 0

/-- Core cycle c of channel n is lost. -/
def Grp.lostAt (gr : Grp) (n c : Nat) : Bool := gr.losses.any (fun l => bitOf l.mask n && l.at_ c)

/-- A core cycle of a to b is lost for a channel of the mask. -/
def Grp.lostIn (gr : Grp) (mask a b : Nat) : Bool := gr.losses.any (fun l => Nat.land l.mask mask != 0 && l.meets a b)

/-- What was known from core cycle x on is put into gaps again. -/
def Grp.reopen (gr : Grp) (x : Nat) : Grp :=
  if gr.gapPos ≤ x then gr else { gr with gapPos := x, gaps := gr.gaps.filter (fun o => decide (o.start < x)) }

/-! ### Gaps (R117-R120) -/

/-- Channels whose core cycle c lies in a descriptor already. -/
def Grp.described (gr : Grp) (c : Nat) : Nat :=
  gr.recentGaps.foldl (fun m q => if q.1 ≤ c ∧ c < q.2.1 then Nat.lor m q.2.2 else m) 0

/-- The gaps that hold core cycle c: each cause with its channels, every channel under its first cause (R118). -/
def State.piecesAt (s : State) (g c : Nat) : List (Nat × Nat) :=
  let gr := s.grp g
  let m := s.memberAt g c
  gapSplitMask (lossIn gr.losses c) (m - Nat.land m (gr.described c)) gapOrder

/-- The cycles at which the gaps of a group can change. -/
def State.gapCuts (s : State) (g : Nat) : List Nat :=
  let gr := s.grp g
  gr.losses.flatMap (fun l => l.first :: l.stop.toList) ++ gr.edges ++ gr.recentGaps.flatMap (fun q => [q.1, q.2.1])
    ++ (List.range 48).filterMap (fun n => (s.chan n).fencedAt) ++ s.hist.map (fun p => p.1)

/-- Gaps on the way: those that ended, with the cycle after each, and those open. -/
structure GapWalk where
  done : List (OpenGap × Nat)
  runs : List OpenGap
  deriving DecidableEq, Repr

/-- A gap is one of these pieces. -/
def OpenGap.among (o : OpenGap) (pcs : List (Nat × Nat)) : Bool := pcs.any (fun p => p.1 == o.cause && p.2 == o.mask)

/-- At core cycle x gaps end whose cause or channels change, or where a span begins or ends (R119). -/
def GapWalk.close (w : GapWalk) (x : Nat) (edge : Bool) (pcs : List (Nat × Nat)) : GapWalk where
  done := w.done ++ (w.runs.filter (fun o => edge || !o.among pcs)).map (fun o => (o, x))
  runs := w.runs.filter (fun o => !edge && o.among pcs)

/-- At core cycle x gaps begin. -/
def GapWalk.begin_ (w : GapWalk) (x : Nat) (pcs : List (Nat × Nat)) : GapWalk :=
  { w with runs := w.runs ++ (pcs.filter (fun p => !w.runs.any (fun o => p.1 == o.cause && p.2 == o.mask))).map (fun p => ⟨x, p.1, p.2⟩) }

/-- The gaps of a group from its place to core cycle `upto`. -/
def State.walkGaps (s : State) (g upto : Nat) : GapWalk :=
  let gr := s.grp g
  let edge := fun x => gr.edges.contains x
  let w := (partsOf gr.gapPos upto (s.gapCuts g)).foldl (fun (w : GapWalk) p =>
    let pcs := s.piecesAt g p.1
    (w.close p.1 (edge p.1) pcs).begin_ p.1 pcs) ⟨[], gr.gaps⟩
  w.close upto (edge upto) (s.piecesAt g upto)

/-- REC_GRP_GAP_OPEN and STATUS.GAP_OPEN follow the gaps open at the present core cycle (R119). -/
def State.showGaps (s : State) (g : Nat) : State :=
  let w := (s.walkGaps g s.lcnt).begin_ s.lcnt (s.piecesAt g s.lcnt)
  match w.runs.map (fun o => o.start) with
  | [] => (s.putN (R.REC_GRP_GAP_OPEN g) 2 (2 ^ 64 - 1)).clrF (F.REC_GRP_STATUS_GAP_OPEN g)
  | x :: xs => (s.putN (R.REC_GRP_GAP_OPEN g) 2 (xs.foldl min x)).setF (F.REC_GRP_STATUS_GAP_OPEN g)

/-- The bytes of a gap descriptor (Table 5.6). -/
def State.gapBytes (s : State) (g cause a b mask num prev : Nat) : List Byte :=
  let e := s.epochAt a
  let t := netTimeIn e (65536 * a)
  let body := packLE [(1, 1), (1, g), (1, cause), (1, 0), (2, e.num), (2, 0), (8, a), (8, grpN (s.cfgAt a) g * (b - a)),
    (6, mask), (2, 0), (8, num), (8, prev), (6, t.sec), (4, t.ns), (2, t.sub)]
  body ++ leBytes 4 (crc32c body)

/-- An item joins those that record streams of the group send; items every stream has passed are dropped (R186). -/
def State.addItem (s : State) (g kind num slot mask start : Nat) : State :=
  let gr := s.grp g
  let rd := s.streams.filter (fun q => s.get (F.STM_Q_CTRL_KIND q) == 0 && s.get (F.STM_Q_CTRL_GROUP q) == g)
  let low := rd.foldl (fun m q => min m (s.strm q).next) gr.itemOrd
  if rd = [] then s.setGrp g { gr with items := [] }
  else s.setGrp g { gr with
    items := gr.items.filter (fun x => low ≤ x.ord) ++ [(⟨gr.itemOrd, kind, num, s.lcnt / tickLen, slot, mask, start⟩ : StmItem)]
    itemOrd := gr.itemOrd + 1 }

/-- A gap descriptor for core cycles a to b - 1 enters the gap ring (R117, R119, R120). -/
def State.gapDesc (s : State) (g cause a b mask : Nat) : State :=
  let gr := s.grp g
  let cap := 1024 * gapPages s.regs g
  let prev := match gr.prevNum a with
    | some n => n
    | none => 2 ^ 64 - 1
  let full := decide (cap ≤ gr.gapHeld + 1)
  let s1 := s.stageBytes g (b - 1) (65536 * s.get (F.REC_GRP_GAP_RING_PAGE g) + 64 * gr.gapIdx)
    (s.gapBytes g cause a b mask (gr.nextGap % 2 ^ 64) prev)
  let s2 := if full then (s1.setF (F.REC_GRP_STATUS_GAP_OVF g)).incSat (F.REC_GRP_GAP_OVF_CNT_COUNT g) else s1
  (s2.setGrp g { gr with
    nextGap := gr.nextGap + 1
    gapIdx := if gr.gapIdx + 1 < cap then gr.gapIdx + 1 else 1
    gapHeld := if full then gr.gapHeld else gr.gapHeld + 1
    gapOvf := if full then gr.gapOvf + 1 else gr.gapOvf
    recentGaps := (a, b, mask) :: gr.recentGaps }).addItem g 2 gr.nextGap gr.gapIdx mask a

/-- The gaps of a group up to core cycle `upto`: those that ended get their descriptors. -/
def State.gapTo (s : State) (g upto : Nat) : State :=
  let gr := s.grp g
  if upto < gr.gapPos then s
  else
    let w := s.walkGaps g upto
    w.done.foldl (fun t p => t.gapDesc g p.1.cause p.1.start p.2 p.1.mask) (s.setGrp g { gr with gapPos := upto, gaps := w.runs })

/-- The first core cycle at which a record span that is not known yet can still begin: a descriptor is formed only for cycles
before it, since it must lie wholly inside or wholly outside every span (R119, log entry 68). -/
def State.spanHorizon (s : State) (g : Nat) : Nat :=
  let gr := s.grp g
  let now := s.lcnt
  if gr.armed = false then now
  else match gr.cur with
    | some r => if isCont s.regs g then min now (r.e + 1) else min now (r.e + 9)
    | none =>
      if isCont s.regs g then
        (let per := s.gridLen g
         let next := gr.region + gr.grid * per
         if gr.hold then gr.region + (now - gr.region) / per * per else min now next)
      else
        let base := match gr.ePrev with
          | some e => max gr.region (e + 9)
          | none => gr.region
        let early := gr.events.foldl (fun m e => min m (e.t / 65536)) (now - lDec s.regs g)
        min now (max base (early - preCyc s.regs g))

/-- The core cycle up to which a group's gaps are settled: spans, words still to be decided, and a stop bound it. -/
def State.gapHorizon (s : State) (g : Nat) : Nat :=
  let gr := s.grp g
  let h := s.spanHorizon g
  let h1 := match gr.drop with
    | some x => min h x
    | none => h
  match gr.stopReq with
  | some p => min h1 (s.stopAt g p.1)
  | none => h1

/-- A group's gaps as far as they are settled, and what its registers show of them. -/
def State.gapSync (s : State) (g : Nat) : State := (s.gapTo g (s.gapHorizon g)).showGaps g

/-- Every group that has losses follows its gaps. -/
def State.gapSyncAll (s : State) : State :=
  (List.range 16).foldl (fun t g => if (t.grp g).losses = [] then t else t.gapSync g) s

/-- A loss joins those of a group. -/
def State.addLoss (s : State) (g : Nat) (l : Loss) : State :=
  let gr := s.grp g
  s.setGrp g ({ gr with losses := gr.losses ++ [l] }.reopen l.first)

/-- The losses of a cause that are still open end: x is the first core cycle after them. -/
def State.endLoss (s : State) (g cause x : Nat) : State :=
  let gr := s.grp g
  s.setGrp g ({ gr with
    losses := gr.losses.map (fun l : Loss => if l.cause = cause ∧ l.stop = none then { l with stop := some (max x l.first) } else l) }.reopen x)

/-- From core cycle x on a cause covers these channels of an armed group (0: it lifts). -/
def State.setLoss (s : State) (g x cause mask : Nat) : State :=
  if (s.grp g).armed = false then s
  else
    let s1 := s.endLoss g cause x
    (if mask = 0 then s1 else s1.addLoss g ⟨cause, mask, x, none⟩).gapSync g

/-- Every channel: a cause that takes whole core cycles from a group, whichever channels it has then. -/
def allChans : Nat := 2 ^ 48 - 1

/-- The same for every group. -/
def State.setLossAll (s : State) (x cause mask : Nat) : State :=
  (List.range 16).foldl (fun t g => t.setLoss g x cause mask) s

/-- Every loss of a group ends at core cycle x with its acquisition, and its gaps are written (R119); a STORE_BUDGET gap that
words still to come can extend stays open. -/
def State.gapEnd (s : State) (g x : Nat) (late : Option Nat) : State :=
  let gr := s.grp g
  let ls := (gr.losses.filter (fun l => decide (l.first < x))).map (fun l : Loss =>
    { l with stop := some (match l.stop with
      | some y => min x y
      | none => x) })
  let s1 := s.setGrp g ({ gr with losses := ls, drop := late }.reopen x)
  (match late with
   | none => s1.gapTo g x
   | some y => s1.gapTo g y).showGaps g

/-! ### Words that do not fit the staging half (R162) -/

/-- A group's words of one core cycle are offered: `need` bits in all, `own` of `total` outputs now. The first offer decides for
every channel and takes the space. Answers whether they fit, and whether this was the first offer. -/
def State.offerFit (s : State) (g key need own total : Nat) : Bool × Bool × State :=
  let gr := s.grp g
  match gr.fit.find? (fun p => p.1 == key) with
  | some p =>
    let rest := gr.fit.filter (fun q => q.1 != key)
    (p.2.1, false, s.setGrp g { gr with fit := if p.2.2 ≤ own then rest else (key, p.2.1, p.2.2 - own) :: rest })
  | none =>
    let ok := decide (s.fillData + need ≤ 8 * (16777216 - rRes s.regs))
    let s1 := if total ≤ own then s else s.setGrp g { gr with fit := (key, ok, total - own) :: gr.fit }
    (ok, true, if ok then s1.takeSpace need else s1)

/-- A group-cycle is dropped and counted. -/
def State.countDrop (s : State) : State := (s.incSat F.STO_DROP_CNT_COUNT).setF F.STO_STATUS_DROP_SEEN

/-- Core cycle c is dropped for every channel of the group; the next words are those of core cycle `next`. -/
def State.dropAt (s : State) (g c next : Nat) : State :=
  let s1 := s.countDrop
  let gr := s1.grp g
  let s2 := match gr.drop with
    | some x => s1.setGrp g ({ gr with
        losses := gr.losses.map (fun l : Loss => if l.cause = 1 ∧ l.stop = some x then { l with stop := some next } else l) }.reopen x)
    | none => s1.addLoss g ⟨1, s1.memberAt g c, c, some next⟩
  (s2.setGrp g { s2.grp g with drop := some next }).gapSync g

/-- Words fit, or there is nothing to store: the STORE_BUDGET gap has ended. -/
def State.dropEnd (s : State) (g : Nat) : State :=
  let gr := s.grp g
  if gr.drop.isSome then (s.setGrp g { gr with drop := none }).gapSync g else s

/-- No word after core cycle c - 1 is stored: a STORE_BUDGET gap ends there at the latest. -/
def State.dropClip (s : State) (g c : Nat) : State :=
  let gr := s.grp g
  match gr.drop with
  | some x =>
    s.setGrp g ({ gr with
      losses := gr.losses.map (fun l : Loss => if l.cause = 1 ∧ l.stop = some x then { l with stop := some (max l.first (min x c)) } else l)
      drop := none }.reopen c)
  | none => s

/-! ### Elements and lens cycles arriving -/

/-- The records with one replaced by number. -/
def Grp.updRec (gr : Grp) (r : Rec) : Grp :=
  { gr with
    closing := gr.closing.map (fun x : Rec => if x.num = r.num then r else x)
    cur := gr.cur.map (fun x : Rec => if x.num = r.num then r else x) }

/-- The flag nibble kept for an entry. -/
def nibOf (l : List (Nat × Nat × Nat)) (k n : Nat) : Nat :=
  match l.find? (fun q => q.1 == k && q.2.1 == n) with
  | some q => q.2.2
  | none => 0

/-- An entry with more marks. -/
def nibAdd (l : List (Nat × Nat × Nat)) (k n nib : Nat) : List (Nat × Nat × Nat) :=
  if nib = 0 then l
  else (k, n, nibOr nib (nibOf l k n)) :: l.filter (fun q => !(q.1 == k && q.2.1 == n))

/-- Bits of the lens words of core cycle c for a whole group, over the lenses that hold it (R115, R161). -/
def Grp.lensBits (gr : Grp) (c : Nat) : Nat :=
  (gr.spans.map (fun r => match r.lensFrom with
    | some (f, len) => if f ≤ c ∧ c < f + len ∧ r.s ≤ c then (bitsSet 48 r.mask).length * (10 * r.lay.n + 4) else 0
    | none => 0)).sum

/-- The channel's values travel with their word, so that its lens words are offered together with them (R63). -/
def State.together (s : State) (g : Nat) : Bool := (chainCfg s.regs (grpFirst s.regs g)).direct

/-- Bits that core cycle c takes for a whole group: elements of every channel with their flag nibbles, and lens words that
come with them (R162). -/
def State.cycleBits (s : State) (g : Nat) (l : Layout) (c : Nat) : Nat :=
  let per := if l.d = 1 then 1 else l.elemOf (c + 1) - l.elemOf c
  (bitsSet 48 (s.memberAt g c)).length * per * (l.elemBits + 4) + (if s.together g then (s.grp g).lensBits c else 0)

/-- cnt outputs of element k of channel n, from its output `sub` on, reach the store writer (R112, R113, R161, R162). -/
def State.element (s0 : State) (g n k sub cnt v nib : Nat) : State :=
  let s := s0.setGrp g { s0.grp g with flagged := nibAdd (s0.grp g).flagged k n nib }
  let gr := s.grp g
  let lay := match gr.spans.head? with
    | some r => r.lay
    | none => layoutOf s.regs g
  let c := lay.cyc k
  let all := nibOf gr.flagged k n
  let put := fun (lpage : Nat) (l : Layout) (idx : Nat) (kd : Option Nat) =>
    let outs := (bitsSet 48 (s.memberAt g c)).length * (if l.d = 1 then l.n else l.elemOf (c + 1) - l.elemOf c)
    let f := s.offerFit g (2 * c) (s.cycleBits g l c) cnt outs
    if f.1 then
      (let t := if f.2.1 then f.2.2.dropEnd g else f.2.2
       t.stageElem true g lpage l idx kd k sub cnt v all)
    else if f.2.1 then f.2.2.dropAt g c (if l.d = 1 then c + 1 else l.cyc (l.elemOf (c + 1)))
    else f.2.2
  if gr.lostAt n c then s
  else match gr.spans.find? (fun r => r.k0 ≤ k && k < r.kEnd && bitOf r.mask n) with
    | some r => put r.lpage r.lay (rankIn r.mask n) (some r.kd)
    | none =>
      match gr.claim, gr.cur with
      | some lp, none =>
        if gr.region ≤ c ∧ lay.w ≠ 0 ∧ bitOf gr.winMask n then put lp (layoutOf s.regs g) (rankIn gr.winMask n) none
        else s.dropEnd g
      | _, _ => s.dropEnd g

/-- A lens cycle of channel n: codes of core cycle c into each record whose lens holds it (R115). A lens word that comes without
its element is offered on its own; where it does not fit, its core cycle alone is dropped (R162). -/
def State.lensCycle (s : State) (live : Bool) (g n c : Nat) (codes : List Int) (nib : Nat) : List Rec → State
  | [] => s
  | r :: rs =>
    let s1 := match r.lensFrom with
      | some (f, len) =>
        if f ≤ c ∧ c < f + len ∧ r.s ≤ c ∧ bitOf r.mask n then
          (let t := s.setGrp g { s.grp g with lensFlags := nibAdd (s.grp g).lensFlags c n nib }
           if (t.grp g).lostAt n c then t
           else
             let chs := (bitsSet 48 r.mask).length
             let o := if live ∧ t.together g then (true, false, t)
               else t.offerFit g (2 * c + 1) (chs * (10 * r.lay.n + 4)) 1 chs
             if o.1 then o.2.2.stageLens true g r n f (c - f) (packBits 10 codes) (nibOf (t.grp g).lensFlags c n)
             else if o.2.1 then (o.2.2.countDrop.addLoss g ⟨1, t.memberAt g c, c, some (c + 1)⟩).gapSync g
             else o.2.2)
        else s
      | none => s
    s1.lensCycle live g n c codes nib rs

/-! ### Slots -/

/-- The readers bound to a group (R122): host queues with BIND = 1 as q, enabled record streams as 1024 + q. -/
def State.boundReaders (s : State) (g : Nat) : List Nat :=
  s.regs.filterMap (fun p =>
    let o := p.1
    if 0xA00000 ≤ o ∧ o < 0xC00000 ∧ o % 0x800 = 0 then
      (let q := (o - 0xA00000) / 0x800
       if s.flag (F.DMA_QC_CTRL_BIND q) ∧ s.get (F.DMA_QC_CTRL_GROUP q) = g then some q else none)
    else if 0x810000 ≤ o ∧ o < 0x830000 ∧ o % 0x80 = 0 then
      (let q := (o - 0x810000) / 0x80
       if s.flag (F.STM_Q_CTRL_EN q) ∧ s.get (F.STM_Q_CTRL_KIND q) = 0 ∧ s.get (F.STM_Q_CTRL_GROUP q) = g then some (1024 + q)
       else none)
    else none)

/-- REC_GRP_OLDEST follows the oldest unreleased record. -/
def State.showOldest (s : State) (g : Nat) : State :=
  match (s.grp g).slots with
  | [] => s.put (F.REC_GRP_OLDEST_EMPTY g) 1
  | x :: _ => (s.put (F.REC_GRP_OLDEST_EMPTY g) 0).put (F.REC_GRP_OLDEST_LPAGE g) x.lpage

/-- The logical page the next image starts at (R122). -/
def State.nextLpage (s : State) (g pages : Nat) : Nat :=
  let h := (s.grp g).head
  if ringPages s.regs g < h + pages then 0 else h

/-- The slot of `pages` pages from logical page l is free. -/
def Grp.slotFree (gr : Grp) (l pages : Nat) : Bool :=
  gr.slots.all (fun x => x.lpage + x.pages ≤ l || l + pages ≤ x.lpage)

/-- A queue's next completion reports a skipped record (R224). -/
def State.skipHost (s : State) (q : Nat) : State :=
  ((s.setHostq q { s.hostq q with skipped := true }).incSat (F.DMA_QC_SKIP_CNT_COUNT q)).setF (F.DMA_QC_STATUS_SKIPPED q)

/-- Pinned pages of a slot are exchanged with reserve pages (R124); none when the reserve runs out. -/
def State.exchange (s : State) (g : Nat) : List Nat → Option State
  | [] => some s
  | l :: ls =>
    let gr := s.grp g
    let p := s.physPage g l
    if gr.pins.any (fun x => x.1 == p) then
      match gr.reserve with
      | r :: rest => (s.setGrp g { gr with pmap := Tab.set gr.pmap l r, reserve := rest }).exchange g ls
      | [] => none
    else s.exchange g ls

/-- The key under which stream q pins the pages of record num of its group (R124). -/
def pinKey (q num : Nat) : Nat := 1024 + q + 2048 * (num + 1)

/-- The record state keeps these pages only of a record that was discarded (R224). -/
def QRec.left (pages : List Nat) (g num : Nat) : Option QRec → Option QRec
  | some y => if y.g = g ∧ y.num = num ∧ y.cut = none then some { y with cut := some pages } else some y
  | none => none

/-- A queue has begun record num of group g: it is in progress now or at the start of a descriptor that a halt returns to, or its
release waits for a read-back. -/
def HostQ.begun (x : HostQ) (g num : Nat) : Bool :=
  let is := fun o : Option QRec => match o with
    | some y => y.g == g && y.num == num
    | none => false
  is x.recd || is x.mark.recd || x.pend.any (fun c => is c.mark.recd || c.rel == some (g, num))

/-- A queue that has begun a discarded record keeps its pinned pages only. -/
def HostQ.reclaim (x : HostQ) (pages : List Nat) (g num : Nat) : HostQ :=
  { x with
    recd := QRec.left pages g num x.recd
    mark := { x.mark with recd := QRec.left pages g num x.mark.recd }
    pend := x.pend.map (fun c => { c with mark := { c.mark with recd := QRec.left pages g num c.mark.recd } }) }

/-- A discarded record is skipped by the readers that have not begun it (R193, R224); a queue that has begun it keeps its
pinned pages only. -/
def State.discard (s : State) (g num : Nat) : List Nat → State
  | [] => s
  | r :: rs =>
    let s1 :=
      if 1024 ≤ r then
        (let q := r - 1024
         let x := s.strm q
         if (s.grp g).pins.any (fun p => p.2 == pinKey q num) then s
         else ((s.setStrm q { x with skip := 1 :: x.skip }).incSat (F.STM_Q_SKIP_CNT_COUNT q)).setF (F.STM_Q_STATUS_SKIP_SEEN q))
      else
        (let x := s.hostq r
         if x.begun g num then s.setHostq r (x.reclaim (((s.grp g).pins.filter (fun p => p.2 == r)).map (fun p => p.1)) g num)
         else s.skipHost r)
    s1.discard g num rs

/-- STATUS.PRESSURE follows whether the next slot is free. -/
def State.showPressure (s : State) (g : Nat) : State :=
  let pages := (layoutOf s.regs g).pages
  s.putB (F.REC_GRP_STATUS_PRESSURE g) (!(s.grp g).slotFree (s.nextLpage g pages) pages)

/-- ABA_GRP_STATUS follows the queue: PENDING of group g, and BUSY, which the group of the record at its head has (R136). -/
def State.showPending (s : State) (g : Nat) : State :=
  let s1 := (s.put (F.ABA_GRP_STATUS_PENDING g) ((s.abaQ.filter (fun j => j.grp == g)).length)).clrF (F.ABA_GRP_STATUS_BUSY g)
  match s1.abaQ with
  | j :: _ => s1.setF (F.ABA_GRP_STATUS_BUSY j.grp)
  | [] => s1

/-- The abacus asks for the tally class under this key. -/
def abaKey : Nat := 32

/-- Records of group g leave the abacus queue without a block (R137). -/
def State.abaDrop (s : State) (g : Nat) (p : AbaJob → Bool) : State :=
  let gone := fun j : AbaJob => j.grp == g && p j
  let s1 := match s.abaQ with
    | j :: _ => if gone j then s.unask 2 abaKey else s
    | [] => s
  ({ s1 with
    abaQ := s1.abaQ.filter (fun j => !gone j)
    abaSkip := s1.abaSkip.filter (fun j => !gone j) } : State).showPending g

/-- WRAP discards the oldest unreleased records until the slot is free; false when a pinned page cannot be exchanged, which
leaves the discards made before it (R123). -/
def State.wrap (s : State) (g l pages : Nat) : Nat → Bool × State
  | 0 => (true, s)
  | fuel + 1 =>
    let gr := s.grp g
    if gr.slotFree l pages then (true, s)
    else match gr.slots with
      | [] => (true, s)
      | x :: rest =>
        match s.exchange g ((List.range x.pages).map (fun i => x.lpage + i)) with
        | none => (false, s)
        | some s1 =>
          let gr1 := s1.grp g
          let s2 := (s1.setGrp g { gr1 with slots := rest, closing := gr1.closing.filter (fun r => r.num != x.num) }).discard g x.num
            (if x.ready then x.readers else s.boundReaders g)
          let s3 := s2.abaDrop g (fun j => j.rcd.num == x.num)
          (((s3.incSat (F.REC_GRP_WRAP_CNT_COUNT g)).setF (F.REC_GRP_STATUS_WRAPPED g)).showOldest g).wrap g l pages fuel

/-- The cause of a HOLD gap (R123): STREAM_STALL when a stream holds the oldest unreleased record, else HOST_STALL. A record
that is not ready yet is held by the readers bound to the group; a record that a queue and a stream hold is counted to the
stream (log entry 69). -/
def State.holdCause (s : State) (g : Nat) : Nat :=
  match (s.grp g).slots with
  | x :: _ => if (if x.ready then x.readers else s.boundReaders g).any (fun r => 1024 ≤ r) then 3 else 2
  | [] => 2

/-- A HOLD gap takes its cause from the reader that holds the oldest unreleased record now (R119, R123). -/
def State.holdWatch (s : State) (g : Nat) : State :=
  let gr := s.grp g
  let cause := s.holdCause g
  if gr.hold = false ∨ gr.losses.any (fun l => l.cause == cause && l.stop == none) then s
  else ((s.endLoss g (5 - cause) s.lcnt).addLoss g ⟨cause, allChans, s.lcnt, none⟩).gapSync g

/-- The group is not accepting until a slot frees; the cycles from x on are a gap (R123). -/
def State.holdFrom (s : State) (g x : Nat) (byPin : Bool) : State :=
  let s1 := s.dropEnd g
  (s1.setGrp g { s1.grp g with hold := true, wrapHold := byPin, claim := none, readyFrom := none }).setLoss g x (s1.holdCause g)
    allChans

/-- The slot from logical page l is claimed for the channels that the group has now. -/
def State.takeClaim (s : State) (g l : Nat) : State :=
  (s.setGrp g { s.grp g with claim := some l, winMask := s.grpMask g }).showPressure g

/-- The slot for the region that starts at x is claimed, or the pressure policy acts (R122, R123). -/
def State.claim (s : State) (g x : Nat) : State :=
  let pages := (layoutOf s.regs g).pages
  let l := s.nextLpage g pages
  let gr := s.grp g
  if gr.slotFree l pages then s.takeClaim g l
  else
    let s1 := s.setF (F.REC_GRP_STATUS_PRESSURE g)
    match s.get (F.REC_GRP_CTRL_POLICY g) with
    | 1 =>
      let w := s1.wrap g l pages (gr.slots.length + 1)
      if w.1 then w.2.takeClaim g l else w.2.holdFrom g x true
    | 2 => s1.holdFrom g x false
    | _ =>
      ((s1.setGrp g { gr with stopReq := some (x, .pressure), claim := none, readyFrom := none }).setF
        (F.REC_GRP_STATUS_STOPPED_FULL g)).post s.lcnt 0x0601 (s.locusGrp g) 0

/-- A record's slot leaves the ring (R122). -/
def State.freeSlot (s : State) (g num : Nat) : State :=
  let gr := s.grp g
  (((s.setGrp g { gr with slots := gr.slots.filter (fun x => x.num != num) }).showOldest g).showPressure g).holdWatch g

/-- A release of a record by everything that holds it: at once, or at the trailer write when entries are still to come (R137). -/
def State.releaseSlot (s : State) (g num : Nat) : State :=
  let gr := s.grp g
  match gr.slots.find? (fun x => x.num == num) with
  | some x =>
    if x.measured then s.freeSlot g num
    else s.setGrp g { gr with slots := gr.slots.map (fun y => if y.num = num then { y with relReq := true } else y) }
  | none => s

/-- A bound reader releases a record; the slot is freed when every bound reader has (R122). -/
def State.readerDone (s : State) (g num reader : Nat) : State :=
  let gr := s.grp g
  match gr.slots.find? (fun x => x.num == num) with
  | some x =>
    if x.readers.contains reader then
      (let left := x.readers.filter (fun r => r != reader)
       let s1 := s.setGrp g { gr with slots := gr.slots.map (fun y => if y.num = num then { y with readers := left } else y) }
       if left = [] then s1.releaseSlot g num else s1.holdWatch g)
    else s
  | none => s

/-- A reader pins exactly these physical pages of the group; pages it no longer pins join the reserve when they were
exchanged out of the ring (R124). -/
def State.setPins (s : State) (g reader : Nat) (pages : List Nat) : State :=
  let gr := s.grp g
  let old := gr.pins.filter (fun p => p.2 == reader && !pages.contains p.1)
  let rest := gr.pins.filter (fun p => p.2 != reader)
  let pins := rest ++ pages.map (fun p => (p, reader))
  let base := s.get (F.REC_GRP_RING_BASE_PAGE g)
  let inRing := fun p => (List.range (ringPages s.regs g)).any (fun l => Tab.get (base + l) gr.pmap l == p)
  let back := (old.map (fun p => p.1)).filter (fun p => !pins.any (fun x => x.1 == p) && !inRing p && !gr.reserve.contains p)
  (s.setGrp g { gr with pins := pins, reserve := gr.reserve ++ back }).put (F.REC_GRP_STATUS_PINNED g)
    (pins.map (fun p => p.1)).dedup.length

/-! ### Headers -/

/-- The temperatures that hold over core cycles a to b, from reports newest first: those made in it, and the last before. -/
def tempsIn (a b : Nat) : List (Nat × Int) → List Int
  | [] => [0]
  | p :: rest => if b < p.1 then tempsIn a b rest else if p.1 ≤ a then [p.2] else p.2 :: tempsIn a b rest

/-- Highest converter-die temperature reported over core cycles a to b (R108); a die that has not reported counts as 0 °C (log
entry 70). -/
def State.tempMaxIn (s : State) (a b : Nat) : Int :=
  let of_ := fun k => tempsIn a b ((s.cal.temps.filter (fun p => p.1 == k)).map (fun p => p.2))
  ((List.range 6).flatMap of_).foldl max ((of_ 0).headD 0)

/-- Converter dies with a temperature-drift advisory during core cycles a to b (R108). -/
def State.driftIn (s : State) (a b : Nat) : Nat :=
  (s.cal.advs.filter (fun p => decide (p.2.1 ≤ b) && (match p.2.2 with
    | some e => decide (a < e)
    | none => true))).foldl (fun m p => setBit m p.1) 0

/-- Rails whose warning episodes overlapped core cycles a to b (R108). -/
def State.warnIn (s : State) (a b : Nat) : Nat :=
  let l := (s.pwr.episodes.filter (fun p => p.2 ≤ b)).map (fun p => p.1)
    ++ (s.pwr.past.filter (fun p => p.2.1 ≤ b && a ≤ p.2.2)).map (fun p => p.1)
  l.foldl setBit 0

/-- Any core cycle of a to b ran on the CLKBYP-derived clock. -/
def State.bypassIn (s : State) (a b : Nat) : Bool :=
  s.clk.bypass.any (fun p => p.1 ≤ b && (match p.2 with
    | some e => decide (a < e)
    | none => true))

/-- The gap fields and the dead time of a record from the gaps written so far (R21, R121). -/
def State.recAccount (s : State) (g : Nat) (r : Rec) : Rec :=
  let gs := (s.grp g).recentGaps
  let mine := gs.filter (fun q => r.since ≤ q.2.1 - 1 && q.2.1 - 1 ≤ r.e)
  let touch := gs.filter (fun q => Nat.land q.2.2 r.mask != 0)
  { r with
    gaps := mine.length
    gapSamples := (mine.map (fun q => r.lay.n * (q.2.1 - q.1))).sum
    dead := r.s - r.since - covered r.since r.s (touch.map (fun q => (q.1, q.2.1))) }

/-- The trigger LCNT of a header (Table 5.2). -/
def Rec.lcnt (r : Rec) : Nat := if r.kind = 3 then r.s else r.t / 65536

/-- The 256 header bytes of a record (Table 5.2). -/
def State.headerBytes (s : State) (g : Nat) (r : Rec) : List Byte :=
  let t := if r.kind = 3 then 65536 * r.s else r.t
  let st := netTimeIn (epochIn s.epochs (t / 65536)) t
  let word := r.warnRails * 2 ^ 40 + r.drift * 2 ^ 32 + enc 8 r.tempMax * 2 ^ 24 + enc 8 r.tempHub * 2 ^ 16
    + s.get F.CAL_EPOCH_EPOCH % 2 ^ 16
  let l := r.lay
  let fences : List FenceEnt := (r.fences ++ List.replicate 8 (⟨0, 0⟩ : FenceEnt)).take 8
  let body := packLE ([(2, 1), (1, r.kind), (1, g), (4, r.flags), (8, r.num), (8, r.lcnt),
      (2, if r.kind = 1 then r.t else 0), (2, r.epoch), (4, min r.shortfall 0xFFFFFFFF), (6, st.sec), (4, st.ns), (2, st.sub),
      (4, min r.dead 0xFFFFFFFF), (4, min r.missed 0xFFFFFFFF), (4, min r.held 0xFFFFFFFF), (4, r.len), (4, r.pre),
      (6, r.mask), (2, r.redCode),
      (4, match r.lens with | some x => enc 32 x.1 | none => 0), (4, match r.lens with | some x => x.2 | none => 0),
      (4, r.gaps), (8, r.gapSamples), (4, 0), (4, 0x100), (4, l.meas), (8, word), (4, l.payload), (4, l.stride),
      (4, l.w), (4, r.nWin), (4, l.olin), (4, l.d - 1), (4, l.offWin), (4, l.offLin), (4, l.offMap), (4, l.offLensMap)]
    ++ fences.flatMap (fun f : FenceEnt => [(6, f.mask), (2, 0), (4, f.valid)]))
  body ++ leBytes 4 (crc32c body) ++ leBytes 4 0

/-- A header is staged into the reserved part (R109, R161). -/
def State.writeHeader (s : State) (g : Nat) (r : Rec) : State :=
  s.stageBytes g r.e (s.lpAddr g r.lpage 0) (s.headerBytes g r)

/-- The channel has left the group by core cycle c, by a fencing or by a commit (R50, log entry 41). -/
def State.leftBy (s : State) (g n c : Nat) : Bool := s.fencedBy n c || !bitOf (chMask (s.cfgAt c) g) n

/-- The register set under which a record was laid out: the one in force when it was decided. -/
def State.recCfg (s : State) (r : Rec) : RegTab := s.cfgAt r.dec

/-- Whether element k of channel n holds no valid acquired data (R113). -/
def State.elemAbsent (s : State) (g n : Nat) (r : Rec) (k : Nat) : Bool :=
  let f := chainCfg (s.recCfg r) n
  let lo := if r.lay.d = 1 then k else (f.mFirst k).toNat / r.lay.n
  let hi := if r.lay.d = 1 then k else f.mLast k / r.lay.n
  (s.grp g).lostIn (2 ^ n) lo hi || s.fencedBy n hi || s.leftBy g n (r.lay.cyc k)

/-- Whether lens cycle c of channel n is ABSENT (R113, R115). -/
def State.lensAbsent (s : State) (g n : Nat) (r : Rec) (c : Nat) : Bool :=
  decide (c < r.s) || (s.grp g).lostAt n c || s.leftBy g n c

/-- The payload of an ABSENT element. -/
def Layout.absent (l : Layout) : Nat := packBits l.b (List.replicate (l.e * l.v) (absentVal l.b))

/-- ABSENT elements and lens cycles of one channel of a record are written (R113). -/
def State.writeAbsent (s : State) (g : Nat) (r : Rec) (n : Nat) : State :=
  let gr := s.grp g
  let ks := ((List.range (r.kEnd - r.k0)).map (fun i => r.k0 + i)).filter (s.elemAbsent g n r)
  let s1 := ks.foldl (fun t k => t.stageElem false g r.lpage r.lay (rankIn r.mask n) (some r.kd) k 0 r.lay.e r.lay.absent
    (absentNib + nibOf gr.flagged k n)) s
  match r.lensFrom with
  | some (f, len) =>
    let cs := (List.range len).filter (fun i => s.lensAbsent g n r (f + i))
    cs.foldl (fun t i => t.stageLens false g r n f i (packBits 10 (List.replicate r.lay.n (absentVal 10)))
      (absentNib + nibOf gr.lensFlags (f + i) n)) s1
  | none => s1

/-- The flags of a record's flag-map entries (R107): its elements, and its lens cycles. -/
def Grp.markFlags (gr : Grp) (r : Rec) : Nat :=
  let f1 := (gr.flagged.filter (fun q => decide (r.k0 ≤ q.1) && decide (q.1 < r.kEnd) && bitOf r.mask q.2.1)).foldl
    (fun x q => flagsOfNib x q.2.2) r.flags
  match r.lensFrom with
  | some (f, len) =>
    (gr.lensFlags.filter (fun q => decide (f ≤ q.1) && decide (q.1 < f + len) && bitOf r.mask q.2.1)).foldl
      (fun x q => flagsOfNib x q.2.2) f1
  | none => f1

/-- The core cycle of a record's final header: 8 after the last word or output (R109). -/
def State.finalAt (s : State) (r : Rec) : Nat :=
  let last := (bitsSet 48 r.mask).foldl (fun m n =>
    let f := chainCfg (s.recCfg r) n
    max m (if f.direct then r.e + 40 else f.mLast (r.kEnd - 1) / f.n + 64)) (r.e + 40)
  last + 8

/-- The entries and the trailer of a measurement block (R127, R128). -/
def blockBytes (num : Nat) (entries : List (List Byte)) : List Byte :=
  let body := entries.flatten ++ packLE [(8, num), (4, entries.length)]
  body ++ leBytes 4 (crc32c body)

/-- A measurement entry (Table 6.1). -/
def entryBytes (result meas status ch slot points pos : Nat) : List Byte :=
  packLE [(4, result), (1, meas), (1, status), (1, ch), (1, slot), (4, points), (4, pos)]

/-- A measurement block is written and its trailer with it, as traffic of the tally class (R164); a release that waited acts now
(R137). -/
def State.writeBlock (s : State) (g lpage num : Nat) (entries : List (List Byte)) : State :=
  let bytes := blockBytes num entries
  let s1 := (s.swrites (s.lpAddr g lpage 0x100) bytes).served 2 bytes.length
  let gr := s1.grp g
  let rel := gr.slots.any (fun x => x.num == num && x.relReq)
  let s2 := (s1.setGrp g { gr with slots := gr.slots.map (fun x => if x.num = num then { x with measured := true } else x) }).addItem
    g 1 num 0 0 0
  if rel then s2.freeSlot g num else s2

/-- A record enters the abacus queue; where the queue is full it is skipped and counted (R136, R137). -/
def State.abaEnter (s : State) (g : Nat) (r : Rec) (fin : Nat) : State :=
  let j : AbaJob := ⟨g, r, fin, s.recCfg r⟩
  if r.lay.meas = 0 then s
  else if s.abaQ.length < 64 then ({ s with abaQ := s.abaQ ++ [j] }).showPending g
  else (({ s with abaSkip := s.abaSkip ++ [j] } : State).incSat (F.ABA_GRP_SKIP_CNT_COUNT g)).setF (F.ABA_GRP_STATUS_SKIPPED g)

/-- A record's block is written with every entry NOT_RUN (R137). -/
def State.notRun (s : State) (j : AbaJob) : State :=
  let es := (abaEntries j.cfg j.grp).map (fun p =>
    entryBytes 0x7FC00000 (j.cfg.fld (F.ABA_SLOT_CTRL_MEAS p.1 p.2)) 5 p.1 p.2 0 0xFFFFFFFF)
  (s.writeBlock j.grp j.rcd.lpage j.rcd.num es).putN (R.ABA_GRP_DONE j.grp) 2 j.rcd.num

/-- Blocks of skipped records that are due, 8 core cycles after their final headers, are written (R137). -/
def State.skipsDue (s : State) : State :=
  let due := s.abaSkip.filter (fun j => decide (j.fin + 8 ≤ s.lcnt))
  due.foldl State.notRun { s with abaSkip := s.abaSkip.filter (fun j => decide (s.lcnt < j.fin + 8)) }

/-- Marks that no record can need any more are left out (R107). -/
def State.pruneMarks (s : State) (g : Nat) : State :=
  let gr := s.grp g
  let lay := layoutOf s.regs g
  let first := gr.spans.foldl (fun m r => min m r.s) (if gr.armed then min (s.spanHorizon g) gr.sinceNext else s.lcnt)
  s.setGrp g { gr with
    flagged := gr.flagged.filter (fun q => decide (lay.elemOf first ≤ q.1))
    lensFlags := gr.lensFlags.filter (fun q => decide (first ≤ q.1)) }

/-- The gaps of a record's span are written before its final header: every word of it has been decided (R119, R121). -/
def State.spanGaps (s : State) (g : Nat) (r : Rec) : State :=
  let gr := s.grp g
  ((if gr.armed then s else s.dropClip g (r.e + 1)).gapTo g (r.e + 1)).gapSync g

/-- A record's final header at core cycle `fin` (R109): ABSENT elements, then the header with TORN clear; the record becomes
ready for its readers (R122) and enters the abacus queue. cut closes it early (R102, R125). -/
def State.finalHeader (s0 : State) (g : Nat) (r : Rec) (fin : Nat) : State :=
  let s := s0.spanGaps g r
  let s1 := (bitsSet 48 r.mask).foldl (fun t n => t.writeAbsent g r n) s
  let r1 := s1.recAccount g r
  let warn := s1.warnIn r.s r.e
  let inside := (s1.grp g).recentGaps.any (fun q => r.s < q.2.1 && q.1 ≤ r.e)
  let f1 := clrBit ((s1.grp g).markFlags r1) flagTorn
  let f2 := setIf (warn != 0) f1 flagSupply
  let f3 := setIf (s1.bypassIn r.s r.e) f2 flagBypass
  let f4 := setIf (s1.flag F.GLOBAL_STATE_CAL_DEFAULTED) f3 flagCalDef
  let f5 := setIf inside f4 flagGap
  let r2 := { r1 with flags := f5, warnRails := warn, drift := s1.driftIn r.s r.e, tempMax := s1.tempMaxIn r.s r.e }
  let s2 := s1.writeHeader g r2
  let gr := s2.grp g
  let rd := s2.boundReaders g
  let s3 := (s2.setGrp g { gr with
    closing := gr.closing.filter (fun x => x.num != r.num)
    slots := gr.slots.map (fun x => if x.num = r.num then
      { x with ready := true, readers := rd, span := some (r.s, r.e), measured := r.lay.meas == 0 } else x) }).pruneMarks g
  let s4 := s3.addItem g 0 r.num 0 0 0
  let s5 := if r.lay.meas = 0 then s4.addItem g 1 r.num 0 0 0 else s4
  s5.abaEnter g r2 fin

/-- FINAL_HEADER_WRITE: the oldest closing record's final header (R109). -/
def execFinalHeaderWrite (g : Fin 16) (s : State) : Host.Outcome State Fault Refusal :=
  .next (match (s.grp g).closing with
    | [] => s
    | r :: _ =>
      let fin := s.finalAt r
      (s.at_ fin).skipsDue.finalHeader g r fin)

/-- A record opens: its slot, the count, the gaps before it, its provisional header (R101, R105, R109, R119). -/
def State.openRec (s : State) (g : Nat) (r : Rec) : State :=
  let gr := s.grp g
  let s1 := (s.setGrp g { gr with
    cur := some r
    claim := none
    readyFrom := none
    opened := true
    head := r.lpage + r.lay.pages
    slots := gr.slots ++ [(⟨r.num, r.lpage, r.lay.pages, [], none, false, false, false, r.lay.n⟩ : Slot)]
    missed := 0
    held := 0 }).putN (R.REC_GRP_NEXT_NUM g) 2 (r.num + 1)
  let s2 := ((s1.showOldest g).showPressure g).gapSync g
  let r1 := s2.recAccount g r
  (s2.setGrp g ((s2.grp g).updRec r1)).writeHeader g { r1 with flags := (s2.grp g).markFlags r1 }

/-- A fencing of channel n at core cycle c: a record that begins later omits the channel; inside the span it takes a fence
entry (R50, R114). -/
def Rec.fence (r : Rec) (n c : Nat) : Rec :=
  if bitOf r.mask n = false ∨ r.e < c then r
  else if c < r.s then { r with mask := clrBit r.mask n }
  else
    let v := c - r.s
    let f1 := setBit r.flags flagFence
    if r.fences.any (fun x => x.valid == v) then
      { r with flags := f1, fences := r.fences.map (fun x => if x.valid = v then { x with mask := setBit x.mask n } else x) }
    else if r.fences.length < 8 then { r with flags := f1, fences := r.fences ++ [⟨2 ^ n, v⟩] }
    else
      { r with
        flags := setBit f1 flagMerged
        fences := r.fences.take 7 ++ (r.fences.drop 7).map (fun x => ⟨setBit x.mask n, min x.valid v⟩) }

/-- A record of kind k around the instant t with span s0 to e, its flags apart from what is added later (R101, R106-R108). -/
def State.newRec (s : State) (g kind t s0 e dec short lpage flags : Nat) : Rec × State :=
  let gr := s.grp g
  let d := s.draw 8
  let f := chainCfg s.regs (grpFirst s.regs g)
  let chs := bitsSet 48 gr.winMask
  let cut := fun n => match (s.chan n).fencedAt with
    | some c => some c
    | none => if bitOf s.fenceMask n then some 0 else none
  let mask := maskOf (chs.filter (fun n => !(cut n).any (fun c => decide (c < s0))))
  let lay := layoutOf s.regs g
  let pre := setBit flags flagTorn
  let lens := if lensLen s.regs g = 0 ∨ kind = 3 then none else some (s.sget (F.REC_GRP_LENS_LENS_OFF g), lensLen s.regs g)
  let fl := setIf (short != 0) (setIf lens.isSome (setIf s.twin.source pre flagTwin) flagLens) flagShort
  let r : Rec :=
    { num := s.getN (R.REC_GRP_NEXT_NUM g) 2, kind := kind, t := t, s := s0, e := e, dec := dec,
      shortfall := short, since := gr.sinceNext, dead := 0,
      missed := gr.missed, held := gr.held, mask := mask, lpage := lpage, lay := lay,
      len := s.get (F.REC_GRP_LEN_LEN g), pre := s.get (F.REC_GRP_PRE_PRE g), redCode := f.mode + 4 * f.width, lens := lens,
      epoch := (s.epochAt ((if kind = 3 then s0 else t / 65536))).num, fences := [], flags := fl, warnRails := 0,
      drift := s.driftIn s0 s.lcnt, tempMax := s.tempMaxIn s0 s.lcnt, tempHub := sgn 8 d.1, gaps := 0, gapSamples := 0 }
  (chs.foldl (fun x n => match cut n with
    | some c => x.fence n c
    | none => x) r, d.2)

/-- The words of a lens that arrived before the record was decided (R115, R116). -/
def State.lensBacklog (s : State) (g : Nat) (r : Rec) : State :=
  match r.lensFrom with
  | none => s
  | some (f, len) =>
    (bitsSet 48 r.mask).foldl (fun t n =>
      let ws := Tab.get [] t.words n
      let k := r.lay.n / 64
      (List.range len).foldl (fun u i =>
        let row := (List.range k).filterMap (fun j => ws.find? (fun w => w.1 == k * (f + i) + j))
        if row.length = k then
          u.lensCycle false g n (f + i) (row.flatMap (fun w => w.2.1)) (row.foldl (fun m w => m.or w.2.2) Marks.none_).nib [r]
        else u) t) s

/-- The span of the open record ends with core cycle e: REARM, or the end of the acquisition (R91, R92, R99). -/
def State.spanEnd (s : State) (g : Nat) : State :=
  let gr := s.grp g
  match gr.cur with
  | none => s
  | some r =>
    let s1 := s.at_ (r.e + 1)
    let gr1 := s1.grp g
    let last := decide (segCount s.regs g ≤ gr1.segs + 1) && !isCont s.regs g
    let stop := match gr1.stopReq with
      | some x => some x
      | none => if last then some (r.e + 1, .count) else none
    let s2 := s1.setGrp g { gr1 with
      cur := none
      closing := gr1.closing ++ [r]
      ePrev := some r.e
      pastRecs := (r.num, r.s, r.e) :: gr1.pastRecs
      winFrom := some r
      segs := gr1.segs + 1
      grid := gr1.grid + 1
      stopReq := stop }
    if isCont s.regs g then s2
    else s2.put (F.TRG_GRP_STATUS_STATE g) (if stop = none then 4 else 5)

/-- RECORD_SPAN_END (R91, R92). -/
def execRecordSpanEnd (g : Fin 16) (s : State) : Host.Outcome State Fault Refusal := .next (s.spanEnd g)

/-- Elements of the next record's window that came before the latest record was decided stand in that record's slot; they
move to the new one (R112). -/
def State.copyWindow (s : State) (g lp x : Nat) : State :=
  let gr := s.grp g
  let s0 := s.setGrp g { gr with winFrom := none }
  match gr.winFrom with
  | none => s0
  | some r =>
    let lay := layoutOf s.regs g
    let t := s.settled
    let first := lay.elemOf x
    let ks := (List.range (r.kd - first)).map (fun i => first + i)
    (bitsSet 48 (Nat.land r.mask gr.winMask)).foldl (fun u n =>
      let a := r.lay.blockBit (rankIn r.mask n)
      let b := lay.blockBit (rankIn gr.winMask n)
      ks.foldl (fun v k =>
        let p := r.lay.place none k
        let q := lay.place none k
        (v.copyBits t g r.lpage (a + p.1) lp (b + q.1) lay.elemBits).copyBits t g r.lpage (a + 8 * r.lay.offMap + 4 * p.2) lp
          (b + 8 * lay.offMap + 4 * q.2) 4) u) s0

/-- The group accepts, or fills, with its slot claimed: from core cycle x on at the earliest (R90). -/
def State.beginAccept (s : State) (g x : Nat) : State :=
  let gr := s.grp g
  let fill := s.flag (F.TRG_GRP_CTRL_PRE_WAIT g) && decide (x < gr.region + preCyc s.regs g)
  match gr.claim, gr.stopReq with
  | some _, none =>
    if fill then s.put (F.TRG_GRP_STATUS_STATE g) 1
    else (s.setGrp g { gr with readyFrom := some x }).put (F.TRG_GRP_STATUS_STATE g) 2
  | some _, some p =>
    (if p.2 = .command ∧ fill = false then s.setGrp g { gr with readyFrom := some x } else s).put (F.TRG_GRP_STATUS_STATE g) 5
  | none, some _ => s.put (F.TRG_GRP_STATUS_STATE g) 5
  | none, none => s.put (F.TRG_GRP_STATUS_STATE g) 2

/-- The region that starts at x: its slot is claimed or the policy acts, and the group begins to accept (R90, R101, R122). A
group in HOLD reads READY and accepts nothing (log entry 69). -/
def State.startRegion (s : State) (g x : Nat) : State :=
  let s1 := (s.setGrp g { s.grp g with region := x }).claim g x
  (match (s1.grp g).claim with
   | some lp => s1.copyWindow g lp x
   | none => s1).beginAccept g x

/-- REARM_END: eight cycles after the span end the next slot is claimed (R91, R122, R123). After a STOP command the group
stays STOPPING, and a candidate before that command's cycle is still accepted (R92). -/
def execRearmEnd (g : Fin 16) (s0 : State) : Host.Outcome State Fault Refusal :=
  let s := s0.skipsDue
  let gr := s.grp g
  .next (match gr.ePrev with
    | some e =>
      if gr.armed ∧ gr.cur = none ∧ gr.claim = none ∧ gr.hold = false ∧ isCont s.regs g = false ∧ gr.region ≤ e then
        (match gr.stopReq with
         | some (a, .command) => if e + 9 < a then (s.at_ (e + 9)).startRegion g (e + 9)
           else (s.at_ (e + 9)).put (F.TRG_GRP_STATUS_STATE g) 5
         | some _ => (s.at_ (e + 9)).put (F.TRG_GRP_STATUS_STATE g) 5
         | none => (s.at_ (e + 9)).startRegion g (e + 9))
      else s
    | none => s)

/-- FILL_COMPLETE: the pre-trigger region is full and the group accepts (R90). -/
def execFillComplete (g : Fin 16) (s : State) : Host.Outcome State Fault Refusal :=
  let gr := s.grp g
  .next (if s.flag (F.TRG_GRP_CTRL_PRE_WAIT g) ∧ gr.claim.isSome ∧ gr.cur = none ∧ gr.readyFrom = none ∧ isCont s.regs g = false then
      (let f := gr.region + preCyc s.regs g
       let s1 := (s.at_ f).setGrp g { gr with readyFrom := some f }
       if gr.stopReq = none then s1.put (F.TRG_GRP_STATUS_STATE g) 2 else s1)
    else s)

/-- A continuous record with its grid span opens (R102, R109). -/
def State.openCont (s : State) (g : Nat) : State :=
  let gr := s.grp g
  let per := s.gridLen g
  let s0 := gr.region + gr.grid * per
  match gr.claim with
  | some lp =>
    let r := s.newRec g 3 (65536 * s0) s0 (s0 + per - 1) s0 0 lp 0
    r.2.openRec g r.1
  | none => s

/-- Grid records still open at core cycle x: no stop, or a STOP command that takes effect later (R102). -/
def State.contOpens (s : State) (g x : Nat) : Bool :=
  match (s.grp g).stopReq with
  | none => true
  | some (a, .command) => decide (x < s.stopAt g a)
  | some _ => false

/-- CONTINUOUS_RECORD_OPEN: the next grid record's slot is claimed and the record opens, or the policy acts (R102, R123). -/
def execContinuousRecordOpen (g : Fin 16) (s : State) : Host.Outcome State Fault Refusal :=
  let gr := s.grp g
  let x := gr.region + gr.grid * s.gridLen g
  .next (if isCont s.regs g ∧ gr.armed ∧ gr.cur = none ∧ gr.hold = false ∧ s.contOpens g x then
      ((s.at_ x).claim g x).openCont g
    else s)

/-- A slot can be had now: it is free, or WRAP can free it (R123). -/
def State.slotNow (s : State) (g : Nat) : Bool :=
  let gr := s.grp g
  let pages := (layoutOf s.regs g).pages
  let l := s.nextLpage g pages
  gr.slotFree l pages || (gr.wrapHold && (s.wrap g l pages (gr.slots.length + 1)).1)

/-- SLOT_FREED: a slot frees under HOLD in core cycle f, the gap ends (R119, R123). The region still starts at r (R101). -/
def execSlotFreed (g : Fin 16) (s : State) : Host.Outcome State Fault Refusal :=
  let gr := s.grp g
  let f := s.lcnt
  .next (if gr.hold ∧ gr.armed ∧ s.contOpens g f ∧ s.slotNow g then
      (let s1 := (s.endLoss g 2 f).endLoss g 3 f
       let s2 := s1.setGrp g { s1.grp g with hold := false, wrapHold := false }
       if isCont s.regs g then
         ((s2.setGrp g { s2.grp g with grid := (f - gr.region) / s.gridLen g }).claim g f).openCont g
       else ((s2.claim g f).beginAccept g f).gapSync g)
    else s)

/-- RECORD_RELEASE: REC_GRP_CMD.RELEASE frees the oldest unreleased record (R122, R137). -/
def State.release (s : State) (g : Nat) : State :=
  match (s.grp g).slots.find? (fun x => x.ready) with
  | some x => s.releaseSlot g x.num
  | none => s

def execRecordRelease (g : Fin 16) (s : State) : Host.Outcome State Fault Refusal := .next (s.skipsDue.release g)

/-- The window of a claimed slot follows the channels of a group that a commit changes (log entry 41). -/
def State.moveWindow (s : State) (old : RegTab) (g : Nat) : State :=
  let gr := s.grp g
  match gr.claim, gr.cur with
  | some lp, none =>
    let m := s.grpMask g
    (s.moveBlocks g lp (layoutOf old g) gr.winMask (layoutOf s.regs g) m).setGrp g { gr with winMask := m }
  | _, _ => s

/-! ### What no later cycle needs -/

/-- The first core cycle whose losses, descriptors and spans a later descriptor or header can still need. -/
def State.gapKeep (s : State) (g : Nat) : Nat :=
  let gr := s.grp g
  let f := chainCfg s.regs (grpFirst s.regs g)
  let sup := (f.sup + 2 * f.d) / f.n + 1
  let a := gr.spans.foldl (fun m r => min m (min r.since (r.s - sup))) (min gr.gapPos gr.durable)
  let b := if gr.armed then min a (gr.sinceNext - sup) else a
  (s.pwr.episodes.map (fun p => p.2) ++ s.pwr.check.toList.map (fun p => p.1)).foldl min b

/-- Losses, descriptors, spans and offers of a group that nothing can need any more are left out. -/
def State.pruneGaps (s : State) (g : Nat) : State :=
  let gr := s.grp g
  let keep := s.gapKeep g
  let old := gr.pastRecs.filter (fun r => decide (r.2.2 < keep))
  s.setGrp g { gr with
    losses := gr.losses.filter (fun l => l.stop.all (fun x => decide (keep < x)))
    recentGaps := gr.recentGaps.filter (fun q => decide (keep < q.2.1))
    fit := gr.fit.filter (fun p => decide (keep ≤ p.1 / 2))
    pastRecs := gr.pastRecs.filter (fun r => decide (keep ≤ r.2.2))
    lastNum := match old with
      | r :: _ => some r.1
      | [] => gr.lastNum }

end Sys2Proof.Machine
end

