-- ==== Sys2Proof/Machine/Abacus.lean ====
section
/-! DEFINITION. The abacus unit (spec/06): points of a source, levels, edges, the measurements of Table 6.4, the block. -/

namespace Sys2Proof.Machine

/-- A point: index, primary, largest and smallest value in units of 2^-14 LSB, its flag-map entry (R130, R131). -/
structure Pt where
  p : Nat
  x : Int
  mx : Int
  mn : Int
  nib : Nat
  deriving DecidableEq, Repr

/-- A stored value in units of 2^-14 LSB (R131). -/
def toUnit (b : Nat) (v : Int) : Int := if b = 10 then v * 16384 else if b = 16 then v * 512 else v * 2

/-- A point from its stored values in a reduction mode (R131, Table 3.3). -/
def Pt.make (mode b p nib : Nat) (vs : List Int) : Pt :=
  let a := toUnit b (vs.headD 0)
  let c := toUnit b ((vs[1]?).getD 0)
  let d := toUnit b ((vs[2]?).getD 0)
  if mode = 1 then ⟨p, (a + c) / 2, c, a, nib⟩
  else if mode = 3 then ⟨p, a, d, c, nib⟩
  else ⟨p, a, a, a, nib⟩

/-- The points of an element: its values, cut by output. -/
def elemPts (mode b v : Nat) (nib : Nat) : Nat → Nat → Nat → List Pt
  | _, 0, _ => []
  | p, n + 1, x => Pt.make mode b p nib (unpackBits b v x) :: elemPts mode b v nib (p + 1) n (x / 2 ^ (b * v))

/-- The main-trace points of channel n of a record as the store holds them (R130). -/
def State.mainPts (s : State) (g : Nat) (r : Rec) (n mode : Nat) : List Pt :=
  let l := r.lay
  let base := 8 * (l.payload + rankIn r.mask n * l.stride)
  let rd := s.imageBits g r.lpage
  (List.range (r.kEnd - r.k0)).flatMap (fun j =>
    let pl := l.place (some r.kd) (r.k0 + j)
    elemPts mode l.b l.v (rd (base + 8 * l.offMap + 4 * pl.2) 4) (j * l.e) l.e (rd (base + pl.1) l.elemBits))

/-- The lens points of channel n of a record (R130). -/
def State.lensPts (s : State) (g : Nat) (r : Rec) (n : Nat) : List Pt :=
  let l := r.lay
  let base := 8 * (l.payload + rankIn r.mask n * l.stride)
  let rd := s.imageBits g r.lpage
  match r.lens with
  | none => []
  | some (_, len) => (List.range len).flatMap (fun i =>
      elemPts 0 10 1 (rd (base + 8 * l.offLensMap + 4 * i) 4) (i * l.n) l.n (rd (base + i * 10 * l.n) (10 * l.n)))

/-- Instants of points: u_p - t for point p in units of 2^-16 core cycle (R130, R131). -/
def ptTime (f : ChainCfg) (r : Rec) (lens : Bool) (p : Nat) : Int :=
  let n := r.lay.n
  let t : Int := if r.kind = 3 then 65536 * (r.s : Int) else r.t
  if lens then
    let c : Int := (((r.lensFrom.getD (0, 0)).1 : Nat) : Int)
    (65536 / n : Nat) * (n * c + p) - t
  else
    let k : Nat := if r.lay.d = 1 then n * r.s + p else r.k0 + p
    let eps : Nat := if f.mode = 2 ∨ f.mode = 3 then 256 / n * (256 * f.ctau - f.tau) else 0
    ((65536 / n * (k * r.lay.d) + eps : Nat) : Int) - t

/-- A value in LSB. -/
def lsb (x : Int) : Fl := Fl.ofQ x 16384

/-- Levels of a gate (R132), in LSB. -/
structure Levels where
  top : Fl
  base : Fl
  lo : Fl
  mid : Fl
  hi : Fl
  deriving DecidableEq, Repr

/-- Count and sum of the histogram bin of each primary value (R132). -/
def bins (ps : List Pt) : Tab (Nat × Int) :=
  ps.foldl (fun t q =>
    let b := (clampI (-512) 511 (q.x / 16384) + 512).toNat
    let o := Tab.get (0, 0) t b
    Tab.set t b (o.1 + 1, o.2 + q.x)) []

/-- The most populated of some bins; on a tie the later in the list. -/
def fullest (l : List (Nat × (Nat × Int))) : Nat × Int :=
  (l.foldl (fun (a : Nat × Int) q => if a.1 ≤ q.2.1 then q.2 else a) (0, 0))

/-- Top, base and reference levels of the valid points of a gate; none when all primary values are equal (R132). -/
def levelsOf (ps : List Pt) (lo mid hi : Nat) : Option Levels :=
  match ps with
  | [] => none
  | q :: _ =>
    let h := ps.foldl (fun m x => max m x.x) q.x
    let l := ps.foldl (fun m x => min m x.x) q.x
    if h = l then none
    else
      let need := ceilDiv ps.length 32
      let t := bins ps
      let isUp := fun (b : Nat × (Nat × Int)) => decide (h + l ≤ 2 * 16384 * ((b.1 : Int) - 512))
      let u := fullest (t.filter isUp)
      let d := fullest ((t.filter (fun b => !isUp b)).reverse)
      let top := if u.1 < need then lsb h else Fl.ofQ u.2 (16384 * u.1)
      let base := if d.1 < need then lsb l else Fl.ofQ d.2 (16384 * d.1)
      let a := top.sub base
      let ref := fun k : Nat => base.add ((a.mul (Fl.ofInt k)).div (Fl.ofInt 1000))
      some ⟨top, base, ref lo, ref mid, ref hi⟩

/-- An edge (R133): direction, t_lo, t_mid, t_hi in seconds, the point before its L_mid crossing. -/
structure Edge where
  rising : Bool
  tlo : Fl
  tmid : Fl
  thi : Fl
  pos : Nat
  deriving DecidableEq, Repr

/-- The edge finder's state (R133): 0 NONE, 1 LOW, 2 HIGH; the last first-level and middle crossings of each direction, and
whether an ABSENT point came since the first-level crossing. -/
structure Finder where
  st : Nat
  up : Option (Fl × Bool)
  upMid : Option (Fl × Nat)
  dn : Option (Fl × Bool)
  dnMid : Option (Fl × Nat)
  edges : List Edge
  deriving DecidableEq, Repr

/-- Time of the crossing of level L between points a and b (R133). -/
def crossTime (tm : Nat → Fl) (a b : Pt) (lv : Fl) : Fl :=
  let d := (lsb b.x).sub (lsb a.x)
  (tm a.p).add (((lv.sub (lsb a.x)).mul ((tm b.p).sub (tm a.p))).div d)

/-- A rising pair of points goes through the three levels. -/
def Finder.rise (fd : Finder) (tm : Nat → Fl) (lv : Levels) (a b : Pt) : Finder :=
  let cr := fun l : Fl => (lsb a.x).lt l && l.le (lsb b.x)
  let f1 := if cr lv.lo then { fd with up := some (crossTime tm a b lv.lo, false) } else fd
  let f2 := if cr lv.mid then { f1 with upMid := some (crossTime tm a b lv.mid, a.p) } else f1
  if cr lv.hi then
    let thi := crossTime tm a b lv.hi
    if f2.st = 1 then
      (match f2.up with
       | some (tlo, false) =>
         (let m := f2.upMid.getD (thi, a.p)
          { f2 with st := 2, edges := f2.edges ++ [⟨true, tlo, m.1, thi, m.2⟩] })
       | _ => { f2 with st := 2 })
    else { f2 with st := 2 }
  else f2

/-- A falling pair of points goes through the three levels. -/
def Finder.fall (fd : Finder) (tm : Nat → Fl) (lv : Levels) (a b : Pt) : Finder :=
  let cr := fun l : Fl => l.lt (lsb a.x) && (lsb b.x).le l
  let f1 := if cr lv.hi then { fd with dn := some (crossTime tm a b lv.hi, false) } else fd
  let f2 := if cr lv.mid then { f1 with dnMid := some (crossTime tm a b lv.mid, a.p) } else f1
  if cr lv.lo then
    let tlo := crossTime tm a b lv.lo
    if f2.st = 2 then
      (match f2.dn with
       | some (thi, false) =>
         (let m := f2.dnMid.getD (tlo, a.p)
          { f2 with st := 1, edges := f2.edges ++ [⟨false, tlo, m.1, thi, m.2⟩] })
       | _ => { f2 with st := 1 })
    else { f2 with st := 1 }
  else f2

/-- An ABSENT point ends adjacency and spoils an edge in progress (R133). -/
def Finder.absent (fd : Finder) : Finder :=
  { fd with up := fd.up.map (fun x => (x.1, true)), dn := fd.dn.map (fun x => (x.1, true)) }

/-- The points of the gate in order. -/
def Finder.run (fd : Finder) (tm : Nat → Fl) (lv : Levels) : Option Pt → List Pt → Finder
  | _, [] => fd
  | prev, q :: qs =>
    if bitOf q.nib 3 then (fd.absent).run tm lv none qs
    else match prev with
      | none => fd.run tm lv (some q) qs
      | some a =>
        (if a.x < q.x then fd.rise tm lv a q else if q.x < a.x then fd.fall tm lv a q else fd).run tm lv (some q) qs

/-- The edges of a gate (R133). -/
def edgesOf (tm : Nat → Fl) (lv : Levels) (gate : List Pt) : List Edge :=
  let st := match gate.find? (fun q => !bitOf q.nib 3) with
    | some q => if (lsb q.x).lt lv.lo then 1 else if lv.hi.lt (lsb q.x) then 2 else 0
    | none => 0
  (Finder.run ⟨st, none, none, none, none, []⟩ tm lv none gate).edges

/-- A measurement's result and position, or the code of Table 6.3 that says why there is none. -/
inductive Meas where
  | res (v : Fl) (pos : Nat)
  | no (code : Nat)
  deriving DecidableEq, Repr

/-- Position where none applies. -/
def noPos : Nat := 0xFFFFFFFF

/-- The edge measurements of Table 6.4. -/
def edgeMeas (code : Nat) (es : List Edge) : Meas :=
  let ups := es.filter (fun e => e.rising)
  let dns := es.filter (fun e => !e.rising)
  let afterUp := ((es.dropWhile (fun e => !e.rising)).filter (fun e => !e.rising)).head?
  let afterDn := ((es.dropWhile (fun e => e.rising)).filter (fun e => e.rising)).head?
  match code with
  | 0x0B => (match ups.head? with
    | some e => .res (e.thi.sub e.tlo) e.pos
    | none => .no 2)
  | 0x0C => (match dns.head? with
    | some e => .res (e.tlo.sub e.thi) e.pos
    | none => .no 2)
  | 0x0D => (match ups, ups.getLast? with
    | a :: _ :: _, some z => .res ((z.tmid.sub a.tmid).div (Fl.ofInt (ups.length - 1))) a.pos
    | _, _ => .no 2)
  | 0x0E => (match ups, ups.getLast? with
    | a :: _ :: _, some z => .res ((Fl.ofInt (ups.length - 1)).div (z.tmid.sub a.tmid)) a.pos
    | _, _ => .no 2)
  | 0x0F => (match ups.head?, afterUp with
    | some a, some b => .res (b.tmid.sub a.tmid) a.pos
    | _, _ => .no 2)
  | 0x10 => (match dns.head?, afterDn with
    | some a, some b => .res (b.tmid.sub a.tmid) a.pos
    | _, _ => .no 2)
  | 0x11 => (match ups, afterUp with
    | a :: b :: _, some f => if f.tmid.lt b.tmid then .res ((f.tmid.sub a.tmid).div (b.tmid.sub a.tmid)) a.pos else .no 2
    | _, _ => .no 2)
  | 0x12 => .res (Fl.ofInt es.length) noPos
  | 0x13 => (match es.head? with
    | some e => .res e.tmid e.pos
    | none => .no 2)
  | _ => .no 2

/-- √(Σ V(x)²/M) over values x in units of 2^-14 LSB (code 0x08): the sum is exact where scale and offset are finite. -/
def rmsOf (scale offset : Fl) (xs : List Int) : Fl :=
  match scale.q, offset.q with
  | some a, some b =>
    let num := (xs.map (fun x => (a.1 * x * b.2 + b.1 * (16384 * a.2 : Nat)) ^ 2)).sum
    ((Fl.ofQ num ((16384 * a.2 * b.2) ^ 2)).div (Fl.ofInt xs.length)).sqrt
  | _, _ =>
    let v := fun x : Int => (scale.mul (lsb x)).add offset
    ((xs.foldl (fun t x => t.add ((v x).mul (v x))) (Fl.ofInt 0)).div (Fl.ofInt xs.length)).sqrt

/-- One measurement over a gate (R130-R134); the order of its binary64 operations is that of log entry 20. delta is the point
spacing in seconds. -/
def measure (code : Nat) (gate : List Pt) (scale offset : Fl) (lo mid hi : Nat) (tm : Nat → Fl) (delta : Fl) : Meas :=
  let ps := gate.filter (fun q => !bitOf q.nib 3)
  match ps with
  | [] => .no 4
  | q0 :: _ =>
    let v := fun x : Fl => (scale.mul x).add offset
    let m := ps.length
    let sum := (ps.map (fun q => q.x)).sum
    let sq := (ps.map (fun q => q.x * q.x)).sum
    let mx := ps.foldl (fun a q => max a q.mx) q0.mx
    let mn := ps.foldl (fun a q => min a q.mn) q0.mn
    let first := fun (c : Pt → Bool) => ((ps.find? c).map (fun q => q.p)).getD noPos
    match code with
    | 0x04 => .res (v (lsb mx)) (first (fun q => q.mx == mx))
    | 0x05 => .res (v (lsb mn)) (first (fun q => q.mn == mn))
    | 0x06 => .res (scale.mul (lsb (mx - mn))) noPos
    | 0x07 => .res (v (Fl.ofQ sum (16384 * m))) noPos
    | 0x08 => .res (rmsOf scale offset (ps.map (fun q => q.x))) noPos
    | 0x09 => .res (scale.mul (Fl.ofQ (m * sq - sum * sum) (268435456 * m * m)).sqrt) noPos
    | 0x0A => .res ((((scale.mul (Fl.ofQ sum 16384)).add ((Fl.ofInt m).mul offset))).mul delta) noPos
    | _ =>
      (match levelsOf ps lo mid hi with
       | none => .no 3
       | some lv =>
         (match code with
          | 0x01 => .res (v lv.top) noPos
          | 0x02 => .res (v lv.base) noPos
          | 0x03 => .res (scale.mul (lv.top.sub lv.base)) noPos
          | c => edgeMeas c (edgesOf tm lv gate)))

/-- The entry of one slot of a record (R127-R134). -/
def State.slotEntry (s : State) (j : AbaJob) (n i : Nat) : List Byte :=
  let g := j.grp
  let r := j.rcd
  let get := fun x : Fld => j.cfg.fld x
  let code := get (F.ABA_SLOT_CTRL_MEAS n i)
  let lens := j.cfg.bit (F.ABA_SLOT_CTRL_SRC n i)
  let f := chainCfg j.cfg n
  let pts := if bitOf r.mask n then (if lens then s.lensPts g r n else s.mainPts g r n f.mode) else []
  let st := get (F.ABA_SLOT_GSTART_START n i)
  let len := get (F.ABA_SLOT_GLEN_LEN n i)
  let gate := pts.filter (fun q => st ≤ q.p && (len == 0 || q.p < st + len))
  let ok := gate.filter (fun q => !bitOf q.nib 3)
  let fs := fsOf j.cfg
  let tm := fun p => Fl.ofQ (ptTime f r lens p * fs.2) (1024 * fs.1)
  let dd := if lens then 1 else r.lay.d
  let delta := Fl.ofQ ((64 * dd * fs.2 : Nat) : Int) (r.lay.n * fs.1)
  let m := measure code gate (Fl.of32 (get (F.ABA_CH_SCALE_SCALE n))) (Fl.of32 (get (F.ABA_CH_OFFSET_OFFSET n)))
    (get (F.ABA_CH_LEVELS_LO n)) (get (F.ABA_CH_LEVELS_MID n)) (get (F.ABA_CH_LEVELS_HI n)) tm delta
  let any := fun b => ok.any (fun q => bitOf q.nib b)
  let q := (if any 1 then 16 else 0) + (if any 2 then 32 else 0) + (if gate.length = ok.length then 0 else 64)
    + (if bitOf r.flags flagCoarse && code == 0x13 then 128 else 0)
  match m with
  | .res v p => entryBytes v.to32 code ((if any 0 then 1 else 0) + q) n i ok.length p
  | .no c => entryBytes 0x7FC00000 code (c + q) n i ok.length noPos

/-- Points of one source of a record (R136). -/
def srcPts (r : Rec) (lens : Bool) : Nat :=
  if lens then (match r.lens with
    | some (_, l) => l * r.lay.n
    | none => 0)
  else (r.kEnd - r.k0) * r.lay.e

/-- Store bytes of one source of a record, with its flag map. -/
def srcBytes (r : Rec) (lens : Bool) : Nat :=
  if lens then (match r.lens with
    | some (_, l) => ceilDiv (l * (10 * r.lay.n + 4)) 8
    | none => 0)
  else ceilDiv ((r.kEnd - r.k0) * (r.lay.elemBits + 4)) 8

/-- The work on a record: passes, points per pass, and the bytes it reads and writes (R136). -/
structure AbaWork where
  passes : Nat
  points : Nat
  bytes : Nat
  deriving DecidableEq, Repr

def AbaJob.work (j : AbaJob) : AbaWork :=
  let es := abaEntries j.cfg j.grp
  let p := if es.any (fun p => 0x0B ≤ j.cfg.fld (F.ABA_SLOT_CTRL_MEAS p.1 p.2)) then 2 else 1
  let srcs := ((es.filter (fun q => bitOf j.rcd.mask q.1)).map (fun q => (q.1, j.cfg.bit (F.ABA_SLOT_CTRL_SRC q.1 q.2)))).dedup
  { passes := p
    points := (srcs.map (fun q => srcPts j.rcd q.2)).sum
    bytes := p * (srcs.map (fun q => srcBytes j.rcd q.2)).sum }

/-- What the abacus reads of a record: the store once everything staged is written, in which a poisoned burst of the image holds
free bytes. -/
def State.abaView (s : State) (j : AbaJob) : State :=
  (List.range j.rcd.lay.pages).foldl (fun t i => t.freeBursts (t.lpAddr j.grp j.rcd.lpage (65536 * i)) 65536) s.settled

/-- The free values that a view of the state drew are used up. -/
def State.drawnIn (s v : State) : State := { s with free := v.free }

/-- The head of the queue is measured, its block written, and a release that waited for it acts. -/
def State.measureHead (s : State) (j : AbaJob) (rest : List AbaJob) (fin : Nat) : State :=
  let v := s.abaView j
  let bytes := (abaEntries j.cfg j.grp).map (fun p => v.slotEntry j p.1 p.2)
  let s1 := s.drawnIn v
  let s2 := s1.writeBlock j.grp j.rcd.lpage j.rcd.num bytes
  (({ s2 with abaQ := rest, abaEnd := fin }).putN (R.ABA_GRP_DONE j.grp) 2 j.rcd.num).showPending j.grp

/-- ABACUS_TRAILER_WRITE: the head of the queue is measured; its trailer comes at F′ + 32 + P·⌈V/512⌉, later where the tally class
is not granted its reads in full (R136). -/
def execAbacusTrailerWrite (s0 : State) : Host.Outcome State Fault Refusal :=
  let s := s0.skipsDue
  .next (match s.abaQ with
    | [] => s
    | j :: rest =>
      let w := j.work
      let fin := max j.fin s.abaEnd + 32 + w.passes * ceilDiv w.points 512
      let late := s.sto.reqs.any (fun q => q.cls == 2 && q.key == abaKey)
      let a := (s.at_ fin).ask 2 abaKey w.bytes
      if a.1 then a.2.measureHead j rest (if late then a.2.lcnt else fin) else a.2)

end Sys2Proof.Machine
end

