-- ==== Sys2Proof/Machine/Alloc.lean ====
section
/-! DEFINITION. Store allocations in use (R361): page ranges of a register set. -/

namespace Sys2Proof.Machine

/-- Ranges of pages: first page, pages. -/
abbrev Pages := Nat × Nat

/-- Two page ranges share a page. -/
def Pages.meets (a b : Pages) : Bool := decide (a.1 < b.1 + b.2) && decide (b.1 < a.1 + a.2)

/-- Pages of a group's averaging area: ⌈14.5·AVG_LEN·channels/65 536⌉ (R141). -/
def avgPages (r : RegTab) (g : Nat) : Nat := ceilDiv (29 * r.fld (F.TAL_AVG_LEN_LEN g) * (bitsSet 48 (chMask r g)).length) 131072

/-- Rings, reserves and gap rings of the groups in use. -/
def allocGrps (r : RegTab) : List Pages :=
  (usedGrps r).flatMap (fun g =>
    [(r.fld (F.REC_GRP_RING_BASE_PAGE g), ringPages r g + pinMax r g), (r.fld (F.REC_GRP_GAP_RING_PAGE g), gapPages r g)])

/-- Averaging areas in use. -/
def allocAvg (r : RegTab) : List Pages :=
  ((List.range 16).filter (fun g => r.bit (F.TAL_AVG_CTRL_EN g))).map (fun g => (r.fld (F.TAL_AVG_BASE_PAGE g), avgPages r g))

/-- The tally ring is in use while a database or an averaging set is enabled. -/
def tallyUsed (r : RegTab) : Bool :=
  (List.range 8).any (fun d => r.bit (F.TAL_DB_SRC_EN d)) || (List.range 16).any (fun g => r.bit (F.TAL_AVG_CTRL_EN g))

def allocTally (r : RegTab) : List Pages :=
  if tallyUsed r then [(r.fld F.TAL_RING_BASE_PAGE, r.fld F.TAL_RING_SIZE_PAGES)] else []

/-- Stamp rings of event inputs whose FUNC is STREAM. -/
def allocEvt (r : RegTab) : List Pages :=
  ((List.range 8).filter (fun k => r.fld (F.EVT_IN_CTRL_FUNC k) == 1)).map (fun k =>
    (r.fld (F.EVT_IN_RING_PAGE k), max 1 (r.fld (F.EVT_IN_RING_PAGES k))))

/-- The log copy, and the calibration capture area. -/
def allocLog (r : RegTab) : Pages := (r.fld F.LOG_STORE_PAGE, 2)
def allocCal (r : RegTab) : Pages := (r.fld F.CAL_CAP_BASE_PAGE, 192)

/-- A range meets another of a list. -/
def Pages.meetsAny (a : Pages) (l : List Pages) : Bool := l.any a.meets

/-- Two ranges of a list meet. -/
def overlapIn : List Pages → Bool
  | [] => false
  | a :: rest => a.meetsAny rest || overlapIn rest

end Sys2Proof.Machine
end

