-- ==== Sys2Proof/Machine/Tally.lean ====
section
/-! DEFINITION. The tally unit (spec/06): the tally ring, averaging sets, hit databases, decay and snapshots. -/

namespace Sys2Proof.Machine

/-! ### The tally ring (R149) -/

/-- The ring page a frame of some pages starts at: page 0 when it would cross the ring's end. -/
def State.framePage (s : State) (pages : Nat) : Nat :=
  if s.get F.TAL_RING_SIZE_PAGES < s.tallyPage + pages then 0 else s.tallyPage

/-- A frame overlaps the pages. -/
def Frame.meets (f : Frame) (page pages : Nat) : Bool := decide (f.page < page + pages) && decide (page < f.page + f.pages)

/-- A tally stream sends the frames of its databases and averaging groups (R187). -/
def State.carries (s : State) (q : Nat) (f : Frame) : Bool :=
  let sel := s.getN (R.STM_Q_SEL q) 2
  s.get (F.STM_Q_CTRL_KIND q) == 1 && (if f.typ = 0x11 then bitOf sel f.src else bitOf sel (16 + f.src))

/-- A frame overwritten before a stream began it is counted there (R193). -/
def State.frameLost (s : State) (f : Frame) : List Nat → State
  | [] => s
  | q :: qs =>
    let x := s.strm q
    let s1 := if s.carries q f ∧ x.next ≤ f.pub then
        ((s.setStrm q { x with skip := 5 :: x.skip }).incSat (F.STM_Q_SKIP_CNT_COUNT q)).setF (F.STM_Q_STATUS_SKIP_SEEN q)
      else s
    s1.frameLost f qs

/-- A copy in progress whose frame a new one overwrites is lost (log entry 82). -/
def State.copyLost (s : State) (page pages : Nat) : State :=
  (List.range 8).foldl (fun t d =>
    match (t.db d).copy with
    | some c =>
      (match c.page with
       | some p => if p < page + pages ∧ page < p + 65 then
           (t.setDb d { t.db d with copy := some { c with page := none } }).incSat F.TAL_RING_LOST_CNT_COUNT
         else t
       | none => t)
    | none => t) s

/-- The pages for a new frame; none when a pinned page is among them (R149, R189). -/
def State.frameAlloc (s : State) (pages : Nat) : Option (Nat × State) :=
  let p := s.framePage pages
  if s.frames.any (fun f => f.meets p pages && f.pins != 0) ∨ s.get F.TAL_RING_SIZE_PAGES < pages then none
  else
    let s1 := ((s.frames.filter (fun f => f.meets p pages)).foldl (fun t f => t.frameLost f t.streams) s).copyLost p pages
    some (p, { s1 with tallyPage := p + pages, frames := s.frames.filter (fun f => !f.meets p pages) })

/-- The store address of a ring page. -/
def State.frameAddr (s : State) (page : Nat) : Nat := 65536 * (s.get F.TAL_RING_BASE_PAGE + page)

/-- A frame is published (R149). -/
def State.publishFrame (s : State) (page pages typ src num lcnt len : Nat) : State :=
  let f : Frame := ⟨page, pages, typ, src, num, s.framePub, 0, s.lcnt / tickLen, lcnt, len⟩
  (({ s with frames := s.frames ++ [f], framePub := s.framePub + 1 }).put F.TAL_RING_LAST_EMPTY 0).put F.TAL_RING_LAST_LPAGE page

/-- The 256 header bytes of a tally frame (Tables 5.2 and 6.5). -/
def State.frameHeader (s : State) (typ src flags num lcnt f2c f30 f38 f3c mask f46 f54 stride : Nat) : List Byte :=
  let e := s.epochAt lcnt
  let st := netTimeIn e (65536 * lcnt)
  let body := packLE ([(2, 1), (1, typ), (1, src), (4, flags), (8, num), (8, lcnt), (2, 0), (2, e.num), (4, 0), (6, st.sec),
    (4, st.ns), (2, st.sub), (4, f2c), (4, f30), (4, 0), (4, f38), (4, f3c), (6, mask), (2, f46), (4, 0), (4, 0), (4, 0),
    (8, f54), (4, 0), (4, 0), (4, 0), (8, 0), (4, 0x100), (4, stride)] ++ List.replicate 32 (4, 0))
  body ++ leBytes 4 (crc32c body) ++ leBytes 4 0

/-! ### Averaging (R139-R142) -/

/-- The settings of group g's averaging. -/
def State.avgCfg (s : State) (g : Nat) : AvgCfg where
  len := s.get (F.TAL_AVG_LEN_LEN g)
  off := s.sget (F.TAL_AVG_OFF_OFF g)
  n := grpN s.regs g
  fmt := s.get (F.TAL_AVG_CTRL_FORMAT g)
  ovr := s.flag (F.TAL_AVG_CTRL_REJECT_OVR g)
  count := s.get (F.TAL_AVG_CTRL_COUNT_M1 g) + 1
  auto := s.flag (F.TAL_AVG_CTRL_AUTO g)
  base := s.get (F.TAL_AVG_BASE_PAGE g)
  chs := bitsSet 48 (chMask s.regs g)

/-- Where the accumulators of channel n in a buffer begin: the area holds the two buffers and then the two landing slots, and in
each the group's channels in ascending order (R141, log entry 81). -/
def AvgCfg.accAddr (c : AvgCfg) (buf n : Nat) : Nat := 65536 * c.base + 6 * c.len * (buf * c.chs.length + c.chs.idxOf n)

/-- Where the codes of channel n in a landing slot begin. -/
def AvgCfg.slotAddr (c : AvgCfg) (slot n : Nat) : Nat :=
  65536 * c.base + 12 * c.len * c.chs.length + 5 * c.len / 4 * (slot * c.chs.length + c.chs.idxOf n)

/-- Bytes of the area (R141). -/
def AvgCfg.bytes (c : AvgCfg) : Nat := 29 * c.len * c.chs.length / 2

/-- j_t = round(N·t/65536), ties upward (R139). -/
def sampleOf (n t : Nat) : Nat := (2 * n * t + 65536) / 131072

/-- The codes of channel n from sample j on, as its words hold them; none when a word is missing. -/
def State.codesFrom (s : State) (n : Nat) (j : Int) (len : Nat) : Option (List Int × Marks) :=
  let ws := Tab.get [] s.words n
  let c0 := (j / 64).toNat
  let c1 := ((j + len - 1) / 64).toNat
  let rows := (List.range (c1 + 1 - c0)).map (fun i => ws.find? (fun w => w.1 == c0 + i))
  if rows.all Option.isSome ∧ 0 ≤ j then
    let all := (rows.flatMap (fun w => match w with
      | some x => x.2.1
      | none => []))
    let mk := rows.foldl (fun m w => match w with
      | some x => m.or x.2.2
      | none => m) Marks.none_
    some (((all.drop (j - 64 * c0).toNat).take len), mk)
  else none

/-- A record is left out of a set (R126, R140). -/
def State.avgReject (s : State) (g : Nat) : State :=
  (s.setAvg g { s.avg g with rej := (s.avg g).rej + 1 }).incSat (F.TAL_AVG_REJ_CNT_COUNT g)

/-- A record is offered to its group's set (R139). While averaging pauses there is no set, and no record is offered (log entry 81). -/
def State.avgOffer (s : State) (g : Nat) (r : Rec) : State :=
  let a := s.avg g
  let all := a.landed ++ a.offered
  if s.flag (F.TAL_AVG_CTRL_EN g) = false ∨ a.paused ∨ r.kind = 3 then s
  else if 2 ≤ all.length then s.avgReject g
  else
    let c := s.avgCfg g
    let j0 : Int := (sampleOf c.n r.t : Nat) + c.off
    let fin := ((j0 + c.len - 1) / c.n).toNat
    let slot := if all.any (fun j => j.slot == 0) then 1 else 0
    s.setAvg g { a with offered := a.offered ++ [(⟨r.num, r.t, r.s, r.mask, j0, fin, slot, Marks.none_, false, c⟩ : AvgJob)] }

/-- Whether a core cycle of [a, b] lies in a gap of some channel of a mask. -/
def State.gapIn (s : State) (g mask a b : Nat) : Bool :=
  (s.grp g).lostIn mask a b

/-- The bytes of one channel of an average frame (R142, R148). -/
def State.avgBlock (s : State) (a : Avg) (n : Nat) : List Byte :=
  let c := a.cfg
  let bs := (List.range c.len).flatMap (fun i =>
    let v := sgn 48 (leValue (s.sreads (c.accAddr a.buf n + 6 * i) 6))
    if c.fmt = 0 then leBytes 6 (enc 48 v) else leBytes 2 (enc 16 (roundDiv (32 * v) a.count)))
  bs ++ List.replicate (roundUp bs.length 64 - bs.length) (0 : Byte)

/-- The open set is published as an average frame; the next one opens in the other buffer (R142, R148). Its provisional header and
its final one are written in one command (log entry 82). -/
def State.avgPublish (s : State) (g : Nat) (cut : Bool) : State :=
  let a := s.avg g
  let c := a.cfg
  let stride := roundUp (c.len * (if c.fmt = 0 then 6 else 2)) 64
  let mask := a.mask - Nat.land a.mask s.fenceMask
  let chs := bitsSet 48 mask
  let len := 256 + chs.length * stride
  let pages := ceilDiv len 65536
  let flags := flagsOfNib (if cut then setBit 0 flagCut else 0) a.marks.nib
  let next : Avg := { Avg.init with
    frame := a.frame + 1
    buf := 1 - a.buf
    offered := a.offered
    landed := a.landed
    paused := !c.auto }
  let s1 := match s.frameAlloc pages with
    | none => s.incSat F.TAL_RING_LOST_CNT_COUNT
    | some (p, t) =>
      let head := fun (u : State) (f last : Nat) =>
        u.swrites (u.frameAddr p) (u.frameHeader 0x10 g f a.frame a.firstCt a.count a.rej c.len (enc 32 c.off) mask c.fmt last stride)
      let t1 := head t (setBit flags flagTorn) 0
      let v := t1.freeBursts (65536 * c.base) c.bytes
      let t2 := (t1.drawnIn v).swrites (t1.frameAddr p + 256) (chs.flatMap (fun n => v.avgBlock a n))
      (head t2 flags a.lastCt).publishFrame p pages 0x10 g a.frame a.firstCt len
  (s1.setAvg g next).put (F.TAL_AVG_ACC_COUNT g) 0

/-- The group stops: an open set with at least one record is published with CUT, after the records still on their way to it (R142,
log entry 81). -/
def State.avgStop (s : State) (g : Nat) : State :=
  let a := s.avg g
  match a.offered.reverse, a.landed.reverse with
  | j :: js, _ => s.setAvg g { a with offered := js.reverse ++ [{ j with cut := true }] }
  | [], j :: js => s.setAvg g { a with landed := js.reverse ++ [{ j with cut := true }] }
  | [], [] => if 0 < a.count then s.avgPublish g true else s

/-- A record is done with; when the group has stopped and it was the last, the set closes. -/
def State.avgDone (s : State) (g : Nat) (j : AvgJob) : State := if j.cut then s.avgStop g else s

/-- Offered records whose samples have all passed land in their slots, or are rejected (R140, R141). -/
def State.avgLand (s : State) (g c : Nat) : State :=
  let a := s.avg g
  match a.offered with
  | [] => s
  | j :: rest =>
    if c < j.endTag then s
    else
      let k := j.cfg
      let live := j.mask - Nat.land j.mask s.fenceMask
      let got := (bitsSet 48 live).map (fun n => (n, s.codesFrom n j.j0 k.len))
      let c0 := (j.j0 / k.n).toNat
      let mk := got.foldl (fun m q => match q.2 with
        | some x => m.or x.2
        | none => m) Marks.none_
      let bad := decide (j.j0 < (k.n * j.s : Nat)) || s.gapIn g live c0 j.endTag || got.any (fun q => q.2.isNone) || (k.ovr && mk.ovr)
      if bad then ((s.setAvg g { a with offered := rest }).avgReject g).avgDone g j
      else
        let put := fun (t : State) (q : Nat × Option (List Int × Marks)) => match q.2 with
          | some x => t.swrites (k.slotAddr j.slot q.1) (leBytes (5 * k.len / 4) (packBits 10 x.1))
          | none => t
        ((got.foldl put s).served 2 (5 * k.len / 4 * got.length)).setAvg g { a with
          offered := rest
          landed := a.landed ++ [{ j with marks := mk, mask := live }] }

/-- One landed record's codes of channel n added to the accumulators of the open set, in their wrapping 48 bits; the first record
of a set starts them (R139, R141). v is what the tally unit reads. -/
def State.avgAddCh (s v : State) (a : Avg) (j : AvgJob) (n : Nat) : State :=
  let k := j.cfg
  (List.range k.len).foldl (fun t i =>
    let x := sgn 10 (v.sreadBits (8 * k.slotAddr j.slot n + 10 * i) 10)
    let at_ := k.accAddr a.buf n + 6 * i
    let old := if a.count = 0 then 0 else sgn 48 (leValue (v.sreads at_ 6))
    t.swrites at_ (leBytes 6 (enc 48 (old + x)))) s

/-- A landed record joins the open set; a full set closes (R141, R142). -/
def State.avgJoin (s : State) (g : Nat) (j : AvgJob) (rest : List AvgJob) : State :=
  let a := s.avg g
  let v := s.freeBursts (65536 * j.cfg.base) j.cfg.bytes
  let s1 := (bitsSet 48 j.mask).foldl (fun t n => t.avgAddCh v a j n) (s.drawnIn v)
  let ct := j.t / 65536
  let a1 : Avg := { a with
    cfg := j.cfg
    count := a.count + 1
    mask := if a.count = 0 then j.mask else Nat.land a.mask j.mask
    firstCt := if a.count = 0 then ct else a.firstCt
    lastCt := ct
    marks := a.marks.or j.marks
    landed := rest }
  let s2 := (s1.setAvg g a1).put (F.TAL_AVG_ACC_COUNT g) a1.count
  (if j.cfg.count ≤ a1.count then s2.avgPublish g false else s2).avgDone g j

/-- AVERAGE_ADD: once the tally class is granted the landing slot and the accumulators, the oldest landed record is added and its
slot freed (R141). A record that landed before averaging paused is left out and counted (R126, log entry 81). -/
def execAverageAdd (g : Fin 16) (s : State) : Host.Outcome State Fault Refusal :=
  let a := s.avg g
  .next (match a.landed with
    | [] => s
    | j :: rest =>
      if a.paused then ((s.setAvg g { a with landed := rest }).avgReject g).avgDone g j
      else
        let q := s.ask 2 g ((5 * j.cfg.len / 4 + 12 * j.cfg.len) * (bitsSet 48 j.mask).length)
        if q.1 then q.2.avgJoin g j rest else q.2)

/-- TAL_AVG_CMD.RESTART: an open set is discarded, a pause ends; records on their way go to the next set (R142, log entry 81). -/
def State.avgRestart (s : State) (g : Nat) : State :=
  let a := s.avg g
  (s.setAvg g { Avg.init with
    frame := a.frame
    buf := a.buf
    offered := a.offered
    landed := a.landed }).put (F.TAL_AVG_ACC_COUNT g) 0

def execTalAvgRestart (g : Fin 16) (s : State) : Host.Outcome State Fault Refusal := .next (s.avgRestart g)

/-- A reset discards the open set and the records on their way to it (R151). -/
def State.avgDiscard (s : State) (g : Nat) : State :=
  let a := s.avg g
  if a.count = 0 ∧ a.offered = [] ∧ a.landed = [] then s
  else ((s.unask 2 g).setAvg g { Avg.init with frame := a.frame }).put (F.TAL_AVG_ACC_COUNT g) 0

/-! ### Hit databases (R143-R147) -/

/-- Databases enabled on a group. -/
def dbsOf (r : RegTab) (g : Nat) : List Nat :=
  (List.range 8).filter (fun d => r.bit (F.TAL_DB_SRC_EN d) && r.fld (F.TAL_DB_SRC_GROUP d) == g)

/-- A waveform is left out of database d (R126, R144). -/
def State.dbSkip (s : State) (d : Nat) : State :=
  (s.setDb d { s.db d with skipped := (s.db d).skipped + 1 }).incSat (F.TAL_DB_SKIP_CNT_COUNT d)

/-- The database's channel is fenced (R150). -/
def State.dbFenced (s : State) (d : Nat) : Bool := bitOf s.fenceMask (s.get (F.TAL_DB_SRC_CH d))

/-- A record is offered to the databases of its group (R143, R150). -/
def State.hitOffer (s : State) (g : Nat) (r : Rec) : List Nat → State
  | [] => s
  | d :: ds =>
    let s1 :=
      if r.kind = 3 then s
      else if s.dbFenced d then s.dbSkip d
      else s.setDb d { s.db d with waiting := (s.db d).waiting ++ [(⟨g, r.t, r.s⟩ : HitWait)] }
    s1.hitOffer g r ds

/-- A record is offered to the tally unit (R139, R143). -/
def State.tallyOffer (s : State) (g : Nat) (r : Rec) : State := (s.avgOffer g r).hitOffer g r (dbsOf s.regs g)

/-- The sample at full-rate index j of channel n of a record, none when it is ABSENT, before the span as in a gap, or no word
holds it (R113, R143). -/
def State.sampleAt (s : State) (w : HitWait) (n nn : Nat) (j : Int) : Option Int :=
  let c := (j / nn).toNat
  if j < (nn * w.s : Nat) ∨ s.gapIn w.g (2 ^ n) c c then none
  else match (Tab.get [] s.words n).find? (fun w => w.1 == j.toNat / 64) with
    | some w => w.2.1[j.toNat % 64]?
    | none => none

/-- The updates of one column (R143). -/
def columnCells (i : Nat) (l : List Int) : List Nat :=
  match l with
  | [] => []
  | x :: xs =>
    let mn := xs.foldl min x
    let mx := xs.foldl max x
    let k := fun v : Int => 2048 * (v + 512).toNat + i
    if mn = mx then [k mn] else [k mn, k mx]

/-- The first column of a record's waveform and the tag of the word with its last sample, under the database's settings (R143). -/
def State.hitSpan (s : State) (d : Nat) (w : HitWait) : Int × Nat :=
  let n := nOf s.regs (s.get (F.TAL_DB_SRC_CH d))
  let j0 : Int := (sampleOf n w.t : Nat) + s.sget (F.TAL_DB_XOFF_XOFF d)
  (j0, ((j0 + 2048 * (s.get (F.TAL_DB_X_XDEC_M1 d) + 1) - 1) / n).toNat)

/-- The updates of a waveform (R143). -/
def State.waveCells (s : State) (d : Nat) (w : HitWait) : List Nat :=
  let n := s.get (F.TAL_DB_SRC_CH d)
  let nn := nOf s.regs n
  let x := s.get (F.TAL_DB_X_XDEC_M1 d) + 1
  let j0 := (s.hitSpan d w).1
  (List.range 2048).flatMap (fun i =>
    columnCells i ((List.range x).filterMap (fun q => s.sampleAt w n nn (j0 + (i * x + q : Nat)))))

/-- HIT_WAVEFORM_QUEUE: a waveform whose last column has passed enters the queue under the settings now in force, or is skipped
(R144, R150). A record of a group that the database no longer takes is skipped too (R126, log entry 82). -/
def State.hitEnter (s : State) (c : Nat) : List Nat → State
  | [] => s
  | d :: ds =>
    let db := s.db d
    let s1 := match db.waiting with
      | [] => s
      | w :: rest =>
        let s0 := s.setDb d { db with waiting := rest }
        let takes := s.flag (F.TAL_DB_SRC_EN d) && s.get (F.TAL_DB_SRC_GROUP d) == w.g && !s.dbFenced d
        if takes = false then s0.dbSkip d
        else if c < (s.hitSpan d w).2 then s
        else if s.hitQ.length < 8 then
          { s0 with hitQ := s.hitQ ++ [(⟨d, s.get (F.TAL_DB_SRC_CH d), c + 40, s.waveCells d w⟩ : HitJob)] }
        else s0.dbSkip d
    s1.hitEnter c ds

/-- Decay of one count (R145). -/
def decayOf (mode step c : Nat) : Nat := match mode with
  | 1 => c / 2
  | 2 => c - step
  | 3 => 0
  | _ => c

/-- The sweep reaches cell i in core cycle start + i/64 (R145). -/
def sweptBy (start i t : Nat) : Bool := decide (start + i / 64 ≤ t)

/-- One update of a cell in core cycle t (R143, R145, R146), and whether the cell was at its limit. -/
def Db.update (db : Db) (mode step t i : Nat) : Db × Bool :=
  let due := match db.sweep with
    | some (st, done) => sweptBy st i t && !done.contains i
    | none => false
  let c0 := Tab.get 0 db.cells i
  let c1 := if due then decayOf mode step c0 else c0
  let sweep := if due then db.sweep.map (fun p => (p.1, i :: p.2)) else db.sweep
  let copy := db.copy.map (fun p : DbCopy => if t < p.start + 4 * (i / 2048) then
    { p with cells := Tab.set p.cells i (min 0xFFFF (Tab.get 0 p.cells i + 1)) } else p)
  ({ db with
    cells := Tab.set db.cells i (min 0xFFFF (c1 + 1))
    sweep := sweep
    copy := copy }, c1 == 0xFFFF)

/-- The updates of a waveform, 32 in each core cycle from t on, and whether a cell saturated: was at 0xFFFF, so that the update
could not count (R143, R144, log entry 82). -/
def Db.drawAll (db : Db) (mode step t : Nat) : Nat → List Nat → Db × Bool
  | _, [] => (db, false)
  | k, i :: is =>
    let d1 := db.update mode step (t + k / 32) i
    let r := d1.1.drawAll mode step t (k + 1) is
    (r.1, r.2 || d1.2)

/-- The core cycle in which the engine starts on a waveform (R144). -/
def State.hitStart (s : State) (j : HitJob) : Nat := max j.at_ s.hitEnd

/-- The engine finishes the waveform at the head of its queue (R144). A waveform whose channel has been fenced is left out (R150). -/
def State.hitDraw (s : State) : State :=
  match s.hitQ with
  | [] => s
  | j :: rest =>
    if bitOf s.fenceMask j.ch then ({ s with hitQ := rest } : State).dbSkip j.d
    else
      let st := s.hitStart j
      let fin := st + max 125 (ceilDiv j.cells.length 32)
      let r := (s.db j.d).drawAll (s.get (F.TAL_DB_DECAY_MODE j.d)) (s.get (F.TAL_DB_DECAY_STEP j.d)) st 0 j.cells
      let s1 : State := { s.at_ fin with
        hitQ := rest
        hitEnd := fin }
      let s2 := (s1.setDb j.d { r.1 with drawn := r.1.drawn + 1 }).incWrap (F.TAL_DB_WFM_CNT_COUNT j.d)
      if r.2 then s2.setF (F.TAL_DB_STATUS_SAT j.d) else s2

/-- HIT_WAVEFORM_DRAW (R144). -/
def execHitWaveformDraw (s : State) : Host.Outcome State Fault Refusal := .next s.hitDraw

/-- The running sweep ends: every cell that no update reached after it is decayed (R145). -/
def State.sweepEnd (s : State) (d : Nat) : State :=
  let db := s.db d
  match db.sweep with
  | none => s
  | some (st, done) =>
    let mode := s.get (F.TAL_DB_DECAY_MODE d)
    let step := s.get (F.TAL_DB_DECAY_STEP d)
    let cells := (db.cells.map (fun p => (p.1, if done.contains p.1 then p.2 else decayOf mode step p.2))).filter (fun p => p.2 != 0)
    ((s.at_ (st + 32768)).setDb d { db with
      cells := cells
      sweep := none }).clrF (F.TAL_DB_STATUS_DECAYING d)

/-- A sweep starts at boundary b (R145). -/
def State.sweepStart (s : State) (d b : Nat) : State :=
  if s.get (F.TAL_DB_DECAY_MODE d) = 0 then s.setDb d { s.db d with decayReq := false }
  else (s.setDb d { s.db d with sweep := some (b, []), decayReq := false }).setF (F.TAL_DB_STATUS_DECAYING d)

/-- A sweep that is due at boundary b starts, or waits for a copy to end (R146) or for the sweep that a copy has delayed, since a
database has one sweep (R145, log entry 82). -/
def State.sweepDue (s : State) (d b : Nat) : State :=
  let s1 := match (s.db d).sweep with
    | some (st, _) => if st + 32768 ≤ b then s.sweepEnd d else s
    | none => s
  if (s1.db d).copy.isSome ∨ (s1.db d).sweep.isSome then s1.setDb d { s1.db d with decayReq := true } else s1.sweepStart d b

/-- The tick in which a periodic event falls due: the latest up to now, else the next (log entry 82). -/
def dueTick (last per now : Nat) : Nat := if now ≤ last + per then last + per else last + (now - last) / per * per

/-- DECAY_DUE: a sweep falls due every DECAY_PER ticks (R145). -/
def execDecayDue (d : Fin 8) (s : State) : Host.Outcome State Fault Refusal :=
  let k := dueTick (s.db d).lastDecay (max 16 (s.get (F.TAL_DB_DECAY_PER_TICKS d))) (s.lcnt / tickLen)
  .next (((s.at_ (tickLen * k)).setDb d { s.db d with lastDecay := k }).sweepDue d (tickLen * k))

/-- DECAY_SWEEP_END: the running sweep ends, and one that waited for it starts (R145). -/
def execDecaySweepEnd (d : Fin 8) (s : State) : Host.Outcome State Fault Refusal :=
  .next (match (s.db d).sweep with
    | none => s
    | some (st, _) =>
      let s1 := s.sweepEnd d
      if (s1.db d).decayReq ∧ (s1.db d).copy = none then s1.sweepStart d (st + 32768) else s1)

/-- SNAPSHOT_DUE: periodic snapshots (R146). -/
def execSnapshotDue (d : Fin 8) (s : State) : Host.Outcome State Fault Refusal :=
  let db := s.db d
  let per := s.get (F.TAL_DB_SNAP_TICKS d)
  let k := dueTick db.lastSnap per (s.lcnt / tickLen)
  .next (if per = 0 then s else (s.at_ (tickLen * k)).setDb d { db with lastSnap := k, snapReq := true })

/-- TAL_DB_CMD.SNAP: a snapshot is requested; further requests merge (R146). -/
def State.dbSnap (s : State) (d : Nat) : State := s.setDb d { s.db d with snapReq := true }
def execTalDbSnap (d : Fin 8) (s : State) : Host.Outcome State Fault Refusal := .next (s.dbSnap d)

/-- The cells a copy that starts at b carries: a running sweep has reached some of them when their row is copied (R146). -/
def Db.copyCells (db : Db) (mode step b : Nat) : Tab Nat :=
  match db.sweep with
  | none => db.cells
  | some (st, done) => db.cells.map (fun p =>
      (p.1, if sweptBy st p.1 (b + 4 * (p.1 / 2048)) && !done.contains p.1 then decayOf mode step p.2 else p.2))

/-- The header of a snapshot frame (Table 6.5). -/
def State.snapHeader (s : State) (d p : Nat) (c : DbCopy) (flags fin : Nat) : State :=
  s.swrites (s.frameAddr p) (s.frameHeader 0x11 d flags c.num c.start c.drawn c.skipped 2048 c.xoff (2 ^ c.ch) c.xdec fin 4194304)

/-- The tally class is asked for a copy's bytes of one tick under this key (R164). -/
def snapKey (d : Nat) : Nat := 16 + d

/-- A copy of database d starts at boundary b: its frame takes its pages and gets its provisional header (R146, R148, R149). -/
def State.copyBegin (s : State) (d b : Nat) : State :=
  let db := s.db d
  let cells := db.copyCells (s.get (F.TAL_DB_DECAY_MODE d)) (s.get (F.TAL_DB_DECAY_STEP d)) b
  let c : DbCopy := ⟨b, db.drawn, db.skipped, cells, db.frame, none, s.get (F.TAL_DB_XOFF_XOFF d), s.get (F.TAL_DB_SRC_CH d),
    s.get (F.TAL_DB_X_XDEC_M1 d)⟩
  let s1 := match s.frameAlloc 65 with
    | none => s.incSat F.TAL_RING_LOST_CNT_COUNT
    | some (p, t) => t.snapHeader d p c (setBit 0 flagTorn) 0
  let page := (s.frameAlloc 65).map (fun q => q.1)
  (s1.setDb d { s1.db d with
    snapReq := false
    drawn := 0
    skipped := 0
    frame := db.frame + 1
    copy := some { c with page := page } }).setF (F.TAL_DB_STATUS_COPYING d)

/-- SNAPSHOT_COPY_START: at a boundary with no copy running anywhere, a requested copy starts once the tally class is granted its
first tick (R146, R169, R170). -/
def execSnapshotCopyStart (d : Fin 8) (s : State) : Host.Outcome State Fault Refusal :=
  let b := boundaryAt s.lcnt
  .next (if (s.db d).snapReq = false ∨ (List.range 8).any (fun k => (s.db k).copy.isSome) then s
    else
      let a := (s.at_ b).ask 2 (snapKey d) 2097152
      if a.1 then a.2.copyBegin d b else a.2)

/-- Rows of cells in the store: the range reads zero but for the counts listed (R148). -/
def State.writeCells (s : State) (a : Nat) (cells : Tab Nat) : State :=
  let s1 : State := { s with
    store := s.store.filter (fun p => p.1 < a || a + 4194304 ≤ p.1 || s.dead p.1)
    sto := { s.sto with bad := s.sto.bad.filter (fun b => b < a / 256 || (a + 4194304) / 256 ≤ b) } }
  cells.foldl (fun t p => t.swrites (a + 2 * p.1) (leBytes 2 p.2)) s1

/-- SNAPSHOT_COPY_END: the frame gets its final header; a decay that waited starts (R146, R148, R149). -/
def execSnapshotCopyEnd (d : Fin 8) (s : State) : Host.Outcome State Fault Refusal :=
  .next (match (s.db d).copy with
    | none => s
    | some c =>
      let fin := c.start + 4096
      let flags := if c.cells.any (fun p => p.2 == 0xFFFF) then setBit 0 flagOvr else 0
      let s0 := ((s.at_ fin).setDb d { s.db d with copy := none }).clrF (F.TAL_DB_STATUS_COPYING d)
      let s1 := match c.page with
        | none => s0
        | some p =>
          ((s0.writeCells (s0.frameAddr p + 256) c.cells).snapHeader d p c flags fin).publishFrame p 65 0x11 d c.num c.start 4194560
      if (s1.db d).decayReq then s1.sweepDue d fin else s1)

/-- TAL_DB_CMD.CLEAR: pending until the next boundary without a copy (R147). -/
def State.dbClear (s : State) (d : Nat) : State := s.setDb d { s.db d with clearReq := true }
def execTalDbClear (d : Fin 8) (s : State) : Host.Outcome State Fault Refusal := .next (s.dbClear d)

/-- DB_CLEAR_APPLY: at a boundary at which no copy of the database runs the engine completes the waveform it is drawing, zeroes
every cell in one core cycle, and goes on with its queue (R147). -/
def execDbClearApply (d : Fin 8) (s : State) : Host.Outcome State Fault Refusal :=
  let b := boundaryAt s.lcnt
  .next (if (s.db d).clearReq ∧ (s.db d).copy = none then
      (let s0 := s.at_ b
       let s1 := match s0.hitQ with
         | j :: _ => if s0.hitStart j < b then s0.hitDraw else s0
         | [] => s0
       let x := max b s1.hitEnd
       let s2 := (s1.at_ x).setDb d { s1.db d with cells := [], clearReq := false }
       { s2 with
         hitEnd := x + 1
         disp := { s2.disp with fresh := true } })
    else s)

/-- Words of channel n that the lens, an average or a database can still need (R116, R139, R143). -/
def State.keepWords (s : State) (n c : Nat) : Nat :=
  match groupOf s.regs n with
  | none => c - 4096
  | some g =>
    let extra := if s.flag (F.TAL_AVG_CTRL_EN g) ∨ dbsOf s.regs g ≠ [] then lDec s.regs g + preCyc s.regs g else 0
    let nn := grpN s.regs g
    let l1 := (s.avg g).offered.foldl (fun (m : Nat) j => min m (Int.toNat (j.j0 / (nn : Int)))) (c - (4096 + extra))
    (dbsOf s.regs g).foldl (fun (m : Nat) d => (s.db d).waiting.foldl (fun (x : Nat) w => min x w.s) m) l1

/-- Delivered words of core cycle c join the history of their channel, from full-rate word index w on (R10). -/
def State.pushWord (s : State) (n c w : Nat) (codes : List Int) : List Marks → State
  | [] => s
  | m :: ms =>
    let k := nOf s.regs n / 64 * s.keepWords n c
    ({ s with words := Tab.set s.words n ((w, codes.take 64, m) :: (Tab.get [] s.words n).filter (fun x => k ≤ x.1)) }).pushWord
      n c (w + 1) (codes.drop 64) ms

end Sys2Proof.Machine
end

