-- ==== Sys2Proof/Machine/Filter.lean ====
section
/-! DEFINITION. The filter chain (spec/03): every stage sample by sample, output timing, reduction modes, width conversion,
FILTER_OUTPUT and the write of FREEZE. -/

namespace Sys2Proof.Machine

/-- A value limited to a signed w-bit range, and whether it was. -/
def sat (w : Nat) (v : Int) : Int × Bool :=
  let c := clampI (-(2 ^ (w - 1) : Nat)) ((2 ^ (w - 1) : Nat) - 1) v
  (c, decide (c ≠ v))

/-- EQ coefficient q[i] and the EQ output in units of 2^-5 LSB (R56). -/
def eqOut (r : RegTab) (n : Nat) (xs : List Int) : Int × Bool :=
  let sum := (((xs.take 32).zipIdx).map (fun p => p.1 * r.sfld (F.FLT_EQ_COEF_VALUE n p.2))).sum
  sat 16 (roundDiv sum 2048)

/-- Integrators of a CIC stage, each adding the one before (R57), modulo 2^64. -/
def integrate (x : Nat) : List Nat → List Nat
  | [] => []
  | a :: as =>
    let y := (a + x) % 2 ^ 64
    y :: integrate y as

/-- Combs of a CIC stage: their outputs' last and the new registers (R57). -/
def combs (x : Nat) : List Nat → Nat × List Nat
  | [] => (x, [])
  | a :: as =>
    let r := combs ((x + (2 ^ 64 - a)) % 2 ^ 64) as
    (r.1, x :: r.2)

/-- S = ⌈log2(R^N)⌉ (R58). -/
def cicS (rn : Nat) : Nat := Nat.clog 2 rn

/-- The output of a CIC stage from its last comb (R58). -/
def cicOut (rn f a : Nat) : Int × Bool :=
  let s := cicS rn
  let k := roundDiv (2 ^ (s + 17) : Nat) rn
  sat 24 (roundDiv (sgn 64 a * k) (2 ^ (s + 17 - f)))

/-- A halfband output from the last 59 inputs, newest first (R59). -/
def hbOut (r : RegTab) (xs : List Int) : Int × Bool :=
  let at_ := fun i => (xs[i]?).getD 0
  let side := ((List.range 15).map (fun i =>
    r.sfld (F.FLT_HB_COEF_VALUE i) * (at_ (29 - (2 * i + 1)) + at_ (29 + (2 * i + 1))))).sum
  sat 24 (roundDiv (side + 4194304 * at_ 29) 8388608)

/-- Final FIR coefficient p[i] (R61). -/
def firCoef (r : RegTab) (n : Nat) (f : ChainCfg) (i : Nat) : Int :=
  if f.minPhase then r.sfld (F.FLT_FIR_COEF_VALUE n i)
  else r.sfld (F.FLT_FIR_COEF_VALUE n (min i (f.taps - 1 - i)))

/-- A final FIR output from its inputs, newest first (R61). -/
def firOut (r : RegTab) (n : Nat) (f : ChainCfg) (xs : List Int) : Int × Bool :=
  let sum := (((xs.take f.taps).zipIdx).map (fun p => p.1 * firCoef r n f p.2)).sum
  sat 24 (roundDiv sum 4194304)

/-- A sample on its way through the chain: the chain, saturations met, whether the last DC update was skipped. -/
structure Flow where
  ch : Chain
  sats : Nat
  skipped : Option Bool
  deriving DecidableEq, Repr

/-- Full-rate samples that the final FIR adds to the support (R62). -/
def ChainCfg.supF (f : ChainCfg) : Nat := if f.fir then (f.taps - 1) * f.d else 0

/-- Full-rate samples that the stages after halfband stage j, the DC block left out, add to the support (R62); j = 0 is CIC-A. -/
def ChainCfg.supFrom (f : ChainCfg) (j : Nat) : Nat :=
  58 * f.ra * (2 ^ f.h - 2 ^ j) + 3 * (f.rb - 1) * f.ra * 2 ^ f.h + f.supF

/-- A value computed at full-rate index m saturates: it is counted, and every output that the later stages, of support `sup`,
compute from it carries OVR (R68, log entry 21). -/
def Flow.satIf (fl : Flow) (b : Bool) (m sup : Nat) : Flow :=
  if b then { fl with sats := fl.sats + 1, ch := { fl.ch with satTo := (m, m + sup) :: fl.ch.satTo } } else fl

/-- An output whose newest sample is m carries a saturated value; `less` leaves out support of stages after the one asked for. -/
def Chain.satAt (ch : Chain) (m less : Nat) : Bool := ch.satTo.any (fun p => decide (p.1 ≤ m) && decide (m + less ≤ p.2))

/-- The stage that takes one input in `every` fires at full-rate index m (R62). -/
def fires (f : ChainCfg) (m every : Nat) : Bool := decide (f.ctau ≤ m) && (m - f.ctau) % every == 0

/-- EQ and CIC-A (R56-R58): the 24-bit value when CIC-A fires. -/
def stageA (r : RegTab) (n : Nat) (f : ChainCfg) (m : Nat) (x : Int) (fl : Flow) : Option Int × Flow :=
  let c := fl.ch
  let xs := x :: c.eq
  let e := if f.eq then eqOut r n xs else (32 * x, false)
  let fl1 := { fl with ch := { c with eq := if f.eq then xs.take 31 else [] } }.satIf e.2 m (4 * (f.ra - 1) + f.supFrom 0)
  if f.ra = 1 then (some (256 * e.1), fl1)
  else
    let ints := integrate (enc 64 e.1) c.aInt
    let fl2 := { fl1 with ch := { fl1.ch with aInt := ints } }
    -- before index ⌈τ⌉ the stage fires on the same grid
    if (m + f.ra * (f.ctau / f.ra + 1) - f.ctau) % f.ra = 0 then
      let cb := combs (ints.getLast?.getD 0) c.aComb
      let y := cicOut (f.ra ^ 4) 8 cb.1
      (some y.1, { fl2 with ch := { fl2.ch with aComb := cb.2 } }.satIf y.2 m (f.supFrom 0))
    else (none, fl2)

/-- Halfband stages from stage j on, `left` of them (R59). -/
def stageH (r : RegTab) (f : ChainCfg) (m : Nat) : Nat → Nat → Int → Flow → Option Int × Flow
  | _, 0, x, fl => (some x, fl)
  | j, left + 1, x, fl =>
    let xs := (x :: Tab.get [] fl.ch.hb j).take 59
    let fl1 := { fl with ch := { fl.ch with hb := Tab.set fl.ch.hb j xs } }
    let every := f.ra * 2 ^ j
    if (m + every * (f.ctau / every + 1) - f.ctau) % every = 0 then
      let y := hbOut r xs
      stageH r f m (j + 1) left y.1 (fl1.satIf y.2 m (f.supFrom j))
    else (none, fl1)

/-- CIC-B (R57, R58). -/
def stageB (f : ChainCfg) (m : Nat) (x : Int) (fl : Flow) : Option Int × Flow :=
  if f.rb = 1 then (some x, fl)
  else
    let ints := integrate (enc 64 x) fl.ch.bInt
    let c := { fl.ch with bInt := ints }
    if (m + f.d * (f.ctau / f.d + 1) - f.ctau) % f.d = 0 then
      let cb := combs (ints.getLast?.getD 0) c.bComb
      let y := cicOut (f.rb ^ 3) 0 cb.1
      (some y.1, { fl with ch := { c with bComb := cb.2 } }.satIf y.2 m f.supF)
    else (none, { fl with ch := c })

/-- The marks of the words with tags a to b (R69). -/
def marksIn (l : List (Nat × Marks)) (a b : Nat) : Marks :=
  (l.filter (fun p => a ≤ p.1 && p.1 ≤ b)).foldl (fun m p => m.or p.2) Marks.none_

/-- Full-rate samples behind the DC block's input: the support without the final FIR (R60, R71). -/
def ChainCfg.supDc (f : ChainCfg) : Nat := f.sup - f.supF

/-- The DC block (R60). Its input carries OVR of its words and of saturations in the stages before it (R68). -/
def stageDc (f : ChainCfg) (m : Nat) (freeze : Bool) (x : Int) (fl : Flow) : Int × Flow :=
  if f.dcEn = false then (x, fl)
  else
    let k : Nat := 2 ^ f.dcK
    let d := fl.ch.dc
    let y := sat 24 (roundDiv (x * k - d) k)
    let lo : Int := (m : Int) - f.supDc
    let mk := marksIn fl.ch.marks (lo.toNat / 64) (m / 64)
    let skip := freeze || (f.frzOvr && (mk.ovr || mk.nbr || fl.ch.satAt m f.supF)) || decide (lo < fl.ch.start)
    let d1 := if skip then d else d + (x * k - d) / k
    (y.1, { fl with ch := { fl.ch with dc := d1 }, skipped := some skip }.satIf y.2 m f.supF)

/-- The final FIR (R61); r holds the coefficients for this output (R70). -/
def stageF (r : RegTab) (n : Nat) (f : ChainCfg) (m : Nat) (x : Int) (fl : Flow) : Int × Flow :=
  if f.fir = false then (x, fl)
  else
    let xs := (x :: fl.ch.fir).take f.taps
    let y := firOut r n f xs
    (y.1, { fl with ch := { fl.ch with fir := xs } }.satIf y.2 m 0)

/-- One full-rate sample through every stage: y[k] when the chain gives an output (R53, R62). -/
def chainSample (r : RegTab) (n : Nat) (f : ChainCfg) (freeze : Bool) (m : Nat) (x : Int) (fl : Flow) : Option (Nat × Int) × Flow :=
  match stageA r n f m x fl with
  | (none, fl1) => (none, fl1)
  | (some a, fl1) =>
    match stageH r f m 1 f.h a fl1 with
    | (none, fl2) => (none, fl2)
    | (some h, fl2) =>
      match stageB f m h fl2 with
      | (none, fl3) => (none, fl3)
      | (some b, fl3) =>
        let p := stageDc f m freeze b fl3
        let q := stageF r n f m p.1 p.2
        (if fires f m f.d then some ((m - f.ctau) / f.d, q.1) else none, q.2)

/-- A chain value in a stored width (R67), and whether it saturated. -/
def toWidth (b : Nat) (y : Int) : Int × Bool :=
  if b = 10 then
    let v := roundDiv y 8192
    let c := clampI (-511) 510 v
    (c, decide (c ≠ v))
  else if b = 16 then sat 16 (roundDiv y 256)
  else (y, false)

/-- A corrected code in a stored width (R67). -/
def codeWidth (b : Nat) (x : Int) : Int := if b = 10 then x else if b = 16 then 32 * x else 8192 * x

/-- The stored values of output k (Table 3.3), and whether one saturated. -/
def outVals (f : ChainCfg) (y : Option Int) (x : Int) (blk : Option (Int × Int)) : List Int × Bool :=
  let b := f.b
  let e := blk.getD (x, x)
  let w := toWidth b (y.getD 0)
  match f.mode with
  | 0 => ([codeWidth b x], false)
  | 1 => ([codeWidth b e.1, codeWidth b e.2], false)
  | 2 => ([w.1], w.2)
  | _ => ([w.1, codeWidth b e.1, codeWidth b e.2], w.2)

/-- An output joins those of its element that are due in the same core cycle, or waits on its own (R63, R111). -/
def joinOut (o : FltOut) : List FltOut → List FltOut
  | [] => [o]
  | [p] =>
    if p.k = o.k ∧ p.due = o.due then
      [{ p with vals := p.vals ++ o.vals, ys := p.ys ++ o.ys, marks := p.marks.or o.marks }]
    else [p, o]
  | p :: rest => p :: joinOut o rest

/-- Output k joins the outputs waiting for delivery, when it may be delivered (R63, R68, R69, R71, R111). -/
def Flow.output (fl : Flow) (f : ChainCfg) (k : Nat) (y : Option Int) (x : Int) (blk : Option (Int × Int)) : Flow :=
  let first := f.mFirst k
  if first < fl.ch.start then fl
  else
    let v := outVals f y x blk
    let mk0 := marksIn fl.ch.marks (first.toNat / 64) (f.mLast k / 64)
    let mk : Marks := { mk0 with ovr := mk0.ovr || v.2 || (y.isSome && fl.ch.satAt (k * f.d + f.ctau) 0) }
    let o : FltOut :=
      { k := if f.d = 1 then k / f.n else k, sub := if f.d = 1 then k % f.n else 0, vals := v.1,
        ys := (match y with | some z => [(k, z)] | none => []), marks := mk, due := f.mLast k / f.n + 64 }
    { fl with sats := if v.2 then fl.sats + 1 else fl.sats, ch := { fl.ch with outs := joinOut o fl.ch.outs } }

/-- Outputs of the envelope+filtered mode whose filtered value and block are both there (R65). -/
def Flow.pairUp (fl : Flow) (f : ChainCfg) : Flow :=
  match fl.ch.ys, fl.ch.blks with
  | (k, y) :: ys, (j, mn, mx) :: bs =>
    if k = j then ({ fl with ch := { fl.ch with ys := ys, blks := bs } }).output f k (some y) 0 (some (mn, mx))
    else if k < j then { fl with ch := { fl.ch with ys := ys } }
    else { fl with ch := { fl.ch with blks := bs } }
  | _, _ => fl

/-- The block B_k takes a sample; complete blocks are returned (R65). A block whose last samples never came is left (log entry
65). -/
def Flow.block (fl : Flow) (f : ChainCfg) (m : Nat) (x : Int) : Option (Nat × Int × Int) × Flow :=
  let k := (m + f.d / 2) / f.d
  let b := match fl.ch.blk with
    | some (j, a, z) => if j = k then (min a x, max z x) else (x, x)
    | none => (x, x)
  if m + 1 = k * f.d + (f.d + 1) / 2 then (some (k, b.1, b.2), { fl with ch := { fl.ch with blk := none } })
  else (none, { fl with ch := { fl.ch with blk := some (k, b) } })

/-- One sample of a word into the chain (R53, R65). In min/max mode no stage runs either: no value of that mode needs one (log
entry 66). -/
def Flow.sample (fl : Flow) (r : RegTab) (n : Nat) (f : ChainCfg) (freeze : Bool) (m : Nat) (x : Int) : Flow :=
  match f.mode with
  | 0 => if m % f.d = 0 then fl.output f (m / f.d) none x none else fl
  | 1 => (match fl.block f m x with
    | (some (k, a, z), fl1) => fl1.output f k none x (some (a, z))
    | (none, fl1) => fl1)
  | 2 => (match chainSample r n f freeze m x fl with
    | (some (k, y), fl1) => fl1.output f k (some y) x none
    | (none, fl1) => fl1)
  | _ =>
    let p := fl.block f m x
    let fl1 := match p.1 with
      | some b => { p.2 with ch := { p.2.ch with blks := p.2.ch.blks ++ [b] } }
      | none => p.2
    let q := chainSample r n f freeze m x fl1
    let fl2 := match q.1 with
      | some y => { q.2 with ch := { q.2.ch with ys := q.2.ch.ys ++ [y] } }
      | none => q.2
    (fl2.pairUp f).pairUp f

/-- The samples of a word, from full-rate index m on. -/
def Flow.word (fl : Flow) (r : RegTab) (n : Nat) (f : ChainCfg) (freeze : Bool) : Nat → List Int → Flow
  | _, [] => fl
  | m, x :: xs => (fl.sample r n f freeze m x).word r n f freeze (m + 1) xs

/-- FLT_CH_DC_INIT in the resolution of the estimate (R60). -/
def dcInit (r : RegTab) (n k : Nat) : Int :=
  let v := r.sfld (F.FLT_CH_DC_INIT_VALUE n)
  if 8 ≤ k then v * (2 ^ (k - 8) : Nat) else v / (2 ^ (8 - k) : Nat)

/-- The estimate in units of 2^-21 LSB (FLT_CH_DC_EST). -/
def dcShow (d : Int) (k : Nat) : Int := if 8 ≤ k then d / (2 ^ (k - 8) : Nat) else d * (2 ^ (8 - k) : Nat)

/-- A chain that restarts at boundary t0 (R71): registers cleared, the estimate loaded. Outputs that still wait are those of
samples before t0 that were not due before the first word after it: they are dropped (log entry 67). -/
def chainFresh (r : RegTab) (n t0 : Nat) (frz : Option (Nat × Bool)) : Chain :=
  { Chain.init with active := true, start := nOf r n * t0, dc := dcInit r n (r.fld (F.FLT_CH_TAPS_DC_K n)), frz := frz }

/-- The first word at or after a restart's boundary finds the chain fresh, its estimate loaded (R71). -/
def State.chainBegin (s : State) (n c : Nat) : State :=
  let ch := s.chain n
  match ch.restartAt with
  | some t0 =>
    if t0 ≤ c then
      (let r := s.cfgAt c
       let fresh := chainFresh r n t0 ch.frz
       (s.setChain n fresh).sput (F.FLT_CH_DC_EST_VALUE n) (dcShow fresh.dc (r.fld (F.FLT_CH_TAPS_DC_K n))))
    else s
  | none => s

/-- The codes of core cycle c into channel n's chain, with the marks of its words (one, or A and B of a pair) (R53, R69, R71). -/
def State.chainWord (s0 : State) (n c : Nat) (codes : List Int) (mks : List Marks) : State :=
  let s := s0.chainBegin n c
  let r := s.cfgAt c
  let ch1 := s.chain n
  let f := chainCfg r n
  if ch1.active = false ∨ f.direct ∨ chainNeeded r n = false then s
  else
    let reg := s.flag (F.FLT_CH_DC_FREEZE n)
    let freeze := match ch1.frz with
      | some (t, old) => if c < t then old else reg
      | none => reg
    let keep := (f.n * c - (f.sup + 2 * f.d)) / 64 - 2
    let new := (mks.zipIdx.map (fun p : Marks × Nat => (f.n / 64 * c + p.2, p.1))).filter (fun p => p.2 != Marks.none_)
    let ch2 := { ch1 with
      marks := new ++ ch1.marks.filter (fun p => keep ≤ p.1)
      satTo := ch1.satTo.filter (fun p => f.n * c ≤ p.2 + f.d) }
    let fl := (Flow.mk ch2 0 none).word r n f freeze (f.n * c) codes
    let s1 := (s.setChain n fl.ch).addSat (F.FLT_SAT_CNT_COUNT n) fl.sats
    let s2 := if fl.sats = 0 then s1 else s1.setF (F.FLT_CH_STATUS_SAT_SEEN n)
    match fl.skipped with
    | some b => (s2.putB (F.FLT_CH_STATUS_DC_FROZEN n) b).sput (F.FLT_CH_DC_EST_VALUE n) (dcShow fl.ch.dc f.dcK)
    | none => s2

/-- Values reach the digital comparators of channel n that take a stream at the values' instants (R75, R414). -/
def State.dcPush (s : State) (n : Nat) (src : Bool) (vs : List (Nat × Int)) : State :=
  (List.range 4).foldl (fun t d =>
    let m := 4 * n + d
    let mine := vs.filter (fun p =>
      let r := t.cfgAt (p.1 / 65536)
      r.bit (F.TRG_DC_CTRL_EN m) && r.bit (F.TRG_DC_CTRL_SRC m) == src)
    if mine = [] then t else t.setDc m { t.dc m with vals := (t.dc m).vals ++ mine }) s

/-- Outputs of channel n reach the store writer, when the channel's group takes them (R13, R112, R318): those of element k from
place `sub` on. -/
def State.toStore (s : State) (n k sub : Nat) (vals : List Int) (mk : Marks) : State :=
  let f := chainCfg s.regs n
  let c := if f.d = 1 then k else k * f.d / f.n
  match groupOf (s.cfgAt c) n with
  | none => s
  | some g =>
    let gr := s.grp g
    if gr.armed = false ∧ gr.closing = [] then s
    else s.element g n k sub (vals.length / f.v) (packBits f.b vals) mk.nib

/-- FILTER_OUTPUT: the chain's next outputs reach the store writer and the digital comparators (R63). -/
def execFilterOutput (n : Fin 48) (s : State) : Host.Outcome State Fault Refusal :=
  let ch := s.chain n
  .next (match ch.outs with
    | [] => s
    | o :: rest =>
      let f := chainCfg s.regs n
      let s1 := (s.at_ o.due).setChain n { ch with outs := rest }
      (s1.dcPush n true (o.ys.map (fun p => (f.instant p.1, p.2)))).toStore n o.k o.sub o.vals o.marks)

/-- FLT_CH_DC.FREEZE written in core cycle a: words tagged a − 39 or later follow it (R60). -/
def State.freezeWrite (s : State) (a n : Nat) (v : Bool) : State :=
  let old := s.flag (F.FLT_CH_DC_FREEZE n)
  let ch := s.chain n
  ((s.at_ a).setChain n { ch with frz := some (a - 39, old) }).putB (F.FLT_CH_DC_FREEZE n) v

def execFltDcFreezeWrite (a : Nat) (n : Fin 48) (freeze : Bool) (s : State) : Host.Outcome State Fault Refusal :=
  .next (s.freezeWrite a n freeze)

end Sys2Proof.Machine
end

