-- ==== Sys2Proof/Machine/Trigger.lean ====
section
/-! DEFINITION. The trigger (spec/04): comparators and their interpolators, the event queues of the groups, the trigger
types, holdoff, acceptance, arming and stopping. -/

namespace Sys2Proof.Machine

/-! ### Sources -/

/-- Masks of the runs that have started and meet a condition. -/
def State.runMask (s : State) (p : CalRun → Bool) : Nat :=
  s.cal.runs.foldl (fun m r => if decide (r.die < 6) && r.start.isSome && p r then Nat.lor m r.mask else m) 0

/-- Channels that foreground calibration holds, up to and with the word tagged b_rel + 63 (R317, R318, R321). -/
def State.calMask (s : State) : Nat := s.runMask (fun r => !r.ended)

/-- The word of channel n tagged c goes to the calibration engine or is discarded (R317). -/
def State.calHeldAt (s : State) (n c : Nat) : Bool :=
  s.cal.runs.any (fun r => decide (r.die < 6) && bitOf r.mask n && (match r.start with
    | some (b, e) => decide (b ≤ c) && ((!r.settling && !r.ended) || decide (c < e + 64))
    | none => false))

/-- The channel gives no valid words: fenced, or held by calibration. -/
def State.chOff (s : State) (n : Nat) : Bool := bitOf s.fenceMask n || bitOf s.calMask n

/-- The state of a source now (R73): high or low. -/
def State.srcHigh (s : State) (c : Nat) : Bool :=
  if c < 0x120 then s.flag (F.TRG_AC_STATUS_STATE c)
  else if c < 0x1E0 then
    (let d := s.dc (c - 0x120)
     d.breaks.foldl (fun h p => p.2.getD h) d.high)
  else if c < 0x1E8 then s.flag (F.EVT_IN_STATUS_LEVEL (c - 0x1E0))
  else false

/-- A source's comparator or channel is fenced (R77). -/
def State.srcFenced (s : State) (c : Nat) : Bool :=
  if c < 0x120 then s.flag (F.TRG_AC_STATUS_FENCED c) || bitOf s.fenceMask (c / 6)
  else match srcCh c with
    | some n => bitOf s.fenceMask n
    | none => false

/-- SRC_FENCED and SRC_HELD of every group (R77, R96). -/
def State.showSrc (s : State) : State :=
  (List.range 16).foldl (fun t g =>
    let l := srcsOf s.regs g
    let held := l.any (fun c => match srcCh c with
      | some n => bitOf s.calMask n
      | none => false)
    (t.putB (F.TRG_GRP_STATUS_SRC_FENCED g) (l.any s.srcFenced)).putB (F.TRG_GRP_STATUS_SRC_HELD g) held) s

/-- The fabric runs from CLKBYP, or a PLL_BYPASS gap is open, or its settling words pass at core cycle c (R97, R261). -/
def State.pllOut (s : State) (c : Nat) : Bool :=
  match s.clk.gap.2 with
  | none => true
  | some e => decide (c < e)

/-- Core cycle c lies in a PLL_BYPASS gap: its words are discarded (R261, R262). -/
def State.pllGapAt (s : State) (c : Nat) : Bool := decide (s.clk.gap.1 ≤ c) && s.pllOut c

/-! ### Event queues -/

/-- Order of events with one instant: timer expiries, then crossings by source code, then FORCE (log entry 22). -/
def EvKind.rank : EvKind → Nat
  | .timeout => 0
  | .patDur => 1
  | .cross c _ _ => 2 + c
  | .force => 4096

/-- One event comes before another. -/
def TrgEv.before (a b : TrgEv) : Bool := decide (a.t < b.t) || (a.t == b.t && decide (a.kind.rank < b.kind.rank))

/-- An event put into a queue in order of instant (R94). -/
def insertEv (e : TrgEv) : List TrgEv → List TrgEv
  | [] => [e]
  | x :: xs => if e.before x then e :: x :: xs else x :: insertEv e xs

/-- An event waits for a group's decision. -/
def State.queueEv (s : State) (g : Nat) (e : TrgEv) : State :=
  let gr := s.grp g
  s.setGrp g { gr with events := insertEv e gr.events }

/-- A crossing of a source is offered to every armed group that names it, under the definition of its instant or the one in
force (R73, R414). -/
def State.offer (s : State) (src t : Nat) (rising coarse : Bool) : State :=
  (List.range 16).foldl (fun u g =>
    if (u.grp g).armed ∧ (src ∈ srcsOf (u.cfgAt (t / 65536)) g ∨ src ∈ srcsOf u.regs g) then
      u.queueEv g ⟨t, .cross src rising coarse⟩ else u) s

/-! ### Analogue comparators and interpolators -/

/-- The interpolator in a comparator's first or second position. -/
def State.intAt (s : State) (n : Nat) (second : Bool) : Nat :=
  if second then s.get (F.TRG_AC_STATUS_INT_B n) else s.get (F.TRG_AC_STATUS_INT_A n)

/-- The interpolator of a position can start at core cycle c (R78, R81, R97). -/
def State.intReady (s : State) (n : Nat) (second : Bool) (c : Nat) : Bool :=
  let i := s.intAt n second
  let k := 16 * (n / 6) + i
  let x := s.ac n
  let lost := if second then x.lostB else x.lostA
  !lost && !s.flag (F.TRG_INT_CAL_FAILED (n / 6) i) && decide ((s.ip k).readyAt ≤ c)
    && (match s.clk.gap.2 with
      | none => false
      | some e => decide (e + 11 ≤ c))

/-- An analogue crossing can happen: enabled, not fenced or held, from the opposite state (R74, R77, R96). -/
def State.acOpen (s : State) (n c : Nat) (rising : Bool) : Bool :=
  (s.cfgAt c).bit (F.TRG_AC_CTRL_EN n) && !s.srcFenced n && !bitOf s.calMask (n / 6)
    && (s.flag (F.TRG_AC_STATUS_STATE n) != rising) && !((n / 6) % 2 == 1 && paired s.regs (n / 6))

/-- The interpolator of a position measures the crossing (R78). -/
def State.startMeas (s : State) (n c : Nat) (rising second : Bool) : State :=
  let k := 16 * (n / 6) + s.intAt n second
  (s.setIp k { s.ip k with readyAt := c + 16, meas := some (c, n, rising), idleFrom := c }).setAc n
    { s.ac n with nextB := !second }

/-- A coarse crossing (R80). -/
def State.coarse (s : State) (n c : Nat) (rising : Bool) : State :=
  (s.setF (F.TRG_AC_STATUS_COARSE_SEEN n)).offer n (65536 * c + 32768 - s.get (F.TRG_AC_DELAY_DELAY n)) rising true

/-- ANALOG_CROSSING: comparator n crosses in core cycle c (R74, R78, R80). -/
def execAnalogCrossing (n : Fin 288) (c : Nat) (rising : Bool) (s : State) : Host.Outcome State Fault Refusal :=
  let s0 := s.at_ c
  .next (if s0.acOpen n c rising then
      (let s1 := (s0.putB (F.TRG_AC_STATUS_STATE n) rising).incWrap (F.TRG_AC_CROSS_CNT_COUNT n)
       let b := (s1.ac n).nextB
       if s1.intReady n b c then s1.startMeas n c rising b
       else if s1.intReady n (!b) c then s1.startMeas n c rising (!b)
       else s1.coarse n c rising)
    else s0)

/-- The round term of R79; a free value when N_2 = N_1, which the formula does not cover (log entry 23). -/
def State.fineTerm (s : State) (nm n1 n2 : Nat) : Int × State :=
  if n1 = n2 then
    let d := s.draw 17
    ((d.1 : Nat), d.2)
  else (roundDivI (65536 * ((nm : Int) - n1)) ((n2 : Int) - n1), s)

/-- The codes of R81 that fail an interpolator. -/
def intBad (n1 n2 : Nat) : Bool :=
  decide (n1 + 150 < 2000) || decide (2150 < n1) || decide (n2 < n1 + 1850) || decide (n1 + 2150 < n2) || n2 == 4095

/-- The comparator of a channel that an interpolator serves, and whether in the second position. -/
def State.servedBy (s : State) (ch i : Nat) : Option (Nat × Bool) :=
  (List.range 6).findSome? (fun c =>
    let n := 6 * ch + c
    if s.intAt n false = i then some (n, false) else if s.intAt n true = i then some (n, true) else none)

/-- Free spares of a channel (R81). -/
def State.freeSpares (s : State) (ch : Nat) : List Nat :=
  (List.range 16).filter (fun i => 12 ≤ i && !s.flag (F.TRG_INT_CAL_IN_USE ch i) && !s.flag (F.TRG_INT_CAL_FAILED ch i))

/-- An interpolator's place is lost: one left sets SINGLE, none fences the comparator (R81). -/
def State.intLost (s : State) (ch i : Nat) : State :=
  match s.servedBy ch i with
  | none => s
  | some (n, second) =>
    let x := s.ac n
    let y : Ac := if second then { x with lostB := true } else { x with lostA := true }
    let s1 := (s.setAc n y).put (F.TRG_INT_CAL_IN_USE ch i) 0
    if y.lostA ∧ y.lostB then ((s1.setF (F.TRG_AC_STATUS_FENCED n)).clrF (F.TRG_AC_STATUS_SINGLE n)).showSrc
    else s1.setF (F.TRG_AC_STATUS_SINGLE n)

/-- An interpolator fails R81: a free spare will take its place at the next boundary, or the place is lost; logged. -/
def State.intFail (s : State) (ch i : Nat) : State :=
  if s.flag (F.TRG_INT_CAL_FAILED ch i) then s
  else
    let s1 := (s.setF (F.TRG_INT_CAL_FAILED ch i)).post s.lcnt 0x0504 (s.locusCh ch (0x80 + i)) 0
    if s1.flag (F.TRG_INT_CAL_IN_USE ch i) = false then s1
    else if (s1.intSwaps.filter (fun p => p.1 == ch)).length < (s1.freeSpares ch).length then
      { s1 with intSwaps := s1.intSwaps ++ [(ch, i)] }
    else s1.intLost ch i

/-- The other interpolator of the comparator that interpolator i of a channel serves, and whether i is in the second position. -/
def State.partner (s : State) (ch i : Nat) : Option (Nat × Bool) :=
  match s.servedBy ch i with
  | some (n, second) => some (16 * ch + s.intAt n (!second), second)
  | none => none

/-- An interpolator's idle refresh runs from core cycle c on (R78): 4096 core cycles after its last measurement or refresh, once
it and the other interpolator of its comparator are ready; or at the end of a PLL_BYPASS gap, where every one refreshes (R97). -/
def State.refreshDue (s : State) (c ch i : Nat) : Bool :=
  let x := s.ip (16 * ch + i)
  let free := match s.partner ch i with
    | some p => decide ((s.ip p.1).readyAt ≤ c)
    | none => true
  decide (x.readyAt ≤ c) && (match s.clk.gap.2 with
    | some e => decide (c = e) || (decide (e + 11 ≤ c) && decide (x.idleFrom + 4096 ≤ c) && free)
    | none => false)

/-- The idle timers of a comparator's interpolators start at core cycle c, the second 2048 core cycles later (R78). -/
def State.startTimers (s : State) (n c : Nat) : State :=
  let a := 16 * (n / 6) + s.intAt n false
  let b := 16 * (n / 6) + s.intAt n true
  let s1 := s.setIp a { s.ip a with idleFrom := c }
  s1.setIp b { s1.ip b with idleFrom := c + 2048 }

/-- New reference codes of an interpolator, checked under R81. -/
def State.intRefs (s : State) (ch i n1 n2 : Nat) : State :=
  let s1 := (s.put (F.TRG_INT_CAL_N1 ch i) n1).put (F.TRG_INT_CAL_N2 ch i) n2
  if intBad n1 n2 then s1.intFail ch i else s1

/-- INTERPOLATOR_MEASUREMENT: the cycle of R78 ends. The crossing gets its instant from N_m and the reference codes that the
interpolator held before, made by its last cycle (R79); the cycle's own reference codes are held from now on. -/
def execInterpolatorMeasurement (ch : Fin 48) (i : Fin 16) (nm n1 n2 : BitVec 12) (s : State) :
    Host.Outcome State Fault Refusal :=
  let k := 16 * ch.val + i
  .next (match (s.ip k).meas with
    | none => s
    | some (c, n, rising) =>
      let f := (s.at_ (c + 16)).fineTerm nm.toNat (s.get (F.TRG_INT_CAL_N1 ch i)) (s.get (F.TRG_INT_CAL_N2 ch i))
      let t : Int := 65536 * ((c + 2 : Nat) : Int) - (65536 + f.1) - s.get (F.TRG_AC_DELAY_DELAY n)
      (((f.2.setIp k { s.ip k with meas := none }).intRefs ch i n1.toNat n2.toNat).offer n t.toNat rising false))

/-- INTERPOLATOR_IDLE_REFRESH: steps c + 5 to c + 16 of R78 again, from core cycle c on, for 11 core cycles, when a refresh is
due. -/
def execInterpolatorIdleRefresh (c : Nat) (ch : Fin 48) (i : Fin 16) (n1 n2 : BitVec 12) (s : State) :
    Host.Outcome State Fault Refusal :=
  let k := 16 * ch.val + i
  let s0 := s.at_ c
  .next (if s0.flag (F.TRG_INT_CAL_IN_USE ch i) ∧ s0.flag (F.TRG_INT_CAL_FAILED ch i) = false ∧ s0.refreshDue c ch i then
      (s0.setIp k { s0.ip k with readyAt := c + 11, idleFrom := max c (s0.ip k).idleFrom }).intRefs ch i n1.toNat n2.toNat
    else s0)

/-- The lowest free spare takes a failed interpolator's place at boundary b (R81). -/
def State.intSwap (s : State) (b ch i : Nat) : State :=
  match s.freeSpares ch, s.servedBy ch i with
  | k :: _, some (n, second) =>
    let s1 := (s.put (F.TRG_INT_CAL_IN_USE ch i) 0).put (F.TRG_INT_CAL_IN_USE ch k) 1
    let s2 := s1.put (if second then F.TRG_AC_STATUS_INT_B n else F.TRG_AC_STATUS_INT_A n) k
    s2.setIp (16 * ch + k) { Ip.init with readyAt := b, idleFrom := b }
  | _, _ => s.intLost ch i

/-- INTERPOLATOR_SPARE_SWAP (R81). -/
def execInterpolatorSpareSwap (ch : Fin 48) (i : Fin 16) (s : State) : Host.Outcome State Fault Refusal :=
  let b := boundaryAt s.lcnt
  .next (if (ch.val, i.val) ∈ s.intSwaps then
      { s.at_ b with intSwaps := s.intSwaps.filter (fun p => p != (ch.val, i.val)) }.intSwap b ch i
    else s)

/-! ### Digital comparators -/

/-- What scanning a comparator's values finds: a crossing, and the comparator with the values after it. -/
structure DcScan where
  dc : Dc
  found : Option (Nat × Bool)
  deriving DecidableEq, Repr

/-- The instant of a crossing between (s0, v0) and (s1, v1) (R82). -/
def crossAt (l : Int) (s0 : Nat) (v0 : Int) (s1 : Nat) (v1 : Int) : Nat :=
  ((s0 : Int) + roundDivI ((l - v0) * ((s1 : Int) - s0)) (v1 - v0)).toNat

/-- A break at or before instant t has come: the next value compares with none before it, from the state taken there. -/
def Dc.pass (d : Dc) (t : Nat) : Dc :=
  (d.breaks.filter (fun p => decide (65536 * p.1 ≤ t))).foldl (fun x p => match p.2 with
    | some h => { x with prev := none, high := h, ready := false }
    | none => { x with prev := none }) { d with breaks := d.breaks.filter (fun p => !decide (65536 * p.1 ≤ t)) }

/-- Values in order until the first crossing (R74, R75, R82). The first value after a break crosses nothing and keeps the state
(log entry 24); the values on either side of discarded words count as consecutive (log entry 71). -/
def Dc.scan (cfg : Nat → Int × Int) (d0 : Dc) : List (Nat × Int) → DcScan
  | [] => ⟨{ d0 with vals := [] }, none⟩
  | (t, v) :: rest =>
    let d := d0.pass t
    let lh := cfg (t / 65536)
    let l := lh.1
    let h := lh.2
    match d.prev with
    | none =>
      Dc.scan cfg { d with prev := some (t, v), ready := d.ready || (if d.high then decide (l + h < v) else decide (v < l - h)) } rest
    | some (t0, v0) =>
      let d1 := { d with prev := some (t, v) }
      if d.high then
        (if d.ready ∧ l < v0 ∧ v ≤ l then
          ⟨{ d1 with high := false, ready := decide (v < l - h), vals := rest }, some (crossAt l t0 v0 t v, false)⟩
         else Dc.scan cfg { d1 with ready := d.ready || decide (l + h < v) } rest)
      else
        (if d.ready ∧ v0 < l ∧ l ≤ v then
          ⟨{ d1 with high := true, ready := decide (l + h < v), vals := rest }, some (crossAt l t0 v0 t v, true)⟩
         else Dc.scan cfg { d1 with ready := d.ready || decide (v < l - h) } rest)

/-- Level and hysteresis of digital comparator m in a register set. -/
def dcLevels (r : RegTab) (m : Nat) : Int × Int := (r.sfld (F.TRG_DC_LEVEL_LEVEL m), r.fld (F.TRG_DC_HYST_HYST m))

/-- DIGITAL_CROSSING: the comparator's next crossing among the values that reached it (R75, R82). -/
def execDigitalCrossing (m : Fin 192) (s : State) : Host.Outcome State Fault Refusal :=
  let d := s.dc m
  let r := d.scan (fun c => dcLevels (s.cfgAt c) m) d.vals
  let s1 := s.setDc m r.dc
  .next (match r.found with
    | some (t, rising) => s1.offer (0x120 + m) t rising false
    | none => s1)

/-! ### Trigger types (Table 4.4) -/

/-- A group's trigger definition. -/
structure TrgDef where
  typ : Nat
  slopeA : Nat
  slopeB : Nat
  wcond : Nat
  wqual : Bool
  pcomb : Bool
  a : Nat
  b : Nat
  tlo : Nat
  thi : Nat
  /-- Cared slots: source and required state. -/
  slots : List (Nat × Bool)
  deriving DecidableEq, Repr

/-- The definition that a register set gives group g. -/
def trgDef (r : RegTab) (g : Nat) : TrgDef where
  typ := r.fld (F.TRG_GRP_CTRL_TYPE g)
  slopeA := r.fld (F.TRG_GRP_CTRL_SLOPE_A g)
  slopeB := r.fld (F.TRG_GRP_CTRL_SLOPE_B g)
  wcond := r.fld (F.TRG_GRP_CTRL_WCOND g)
  wqual := r.bit (F.TRG_GRP_CTRL_WQUAL g)
  pcomb := r.bit (F.TRG_GRP_CTRL_PCOMB g)
  a := r.fld (F.TRG_GRP_SRC_SRC_A g)
  b := r.fld (F.TRG_GRP_SRC_SRC_B g)
  tlo := r.wide (R.TRG_GRP_TLO g) 2 % 2 ^ 48
  thi := r.wide (R.TRG_GRP_THI g) 2 % 2 ^ 48
  slots := (patSlots r g).map (fun i => (patSrc r g i, bitOf (r.fld (F.TRG_GRP_PVAL_VALUE g)) i))

/-- A crossing matches a slope code: 0 rising, 1 falling, 2 either (R84). -/
def slopeIs (code : Nat) (rising : Bool) : Bool := code == 2 || (code == 0 && rising) || (code == 1 && !rising)

/-- A slope code asks for rising, for falling (either asks for both). -/
def wantsRise (code : Nat) : Bool := code == 0 || code == 2
def wantsFall (code : Nat) : Bool := code == 1 || code == 2

/-- The width condition (R84). -/
def TrgDef.width (d : TrgDef) (x : Nat) : Bool :=
  match d.wcond with
  | 0 => decide (x < d.thi)
  | 1 => decide (d.tlo < x)
  | 2 => decide (d.tlo ≤ x) && decide (x ≤ d.thi)
  | _ => decide (x < d.tlo) || decide (d.thi < x)

/-- The pattern under the sources' states (PCOMB, Table 4.4). -/
def TrgDef.pattern (d : TrgDef) (high : List Nat) : Bool :=
  let ok := fun p : Nat × Bool => high.contains p.1 == p.2
  if d.pcomb then d.slots.any ok else d.slots.all ok

/-- The state of WINDOW: A high and B low. -/
def TrgDef.window (d : TrgDef) (high : List Nat) : Bool := high.contains d.a && !high.contains d.b

/-- An interval that ends at t, when one is open: whether its length passes. -/
def endsAt (p : Option Nat) (t : Nat) (ok : Nat → Bool) : Bool :=
  match p with
  | some x => ok (t - x)
  | none => false

/-- WIDTH: the crossing ends one pulse and may start another. -/
def TrgDef.stepWidth (d : TrgDef) (p : Part) (t : Nat) (rising : Bool) : Part × Bool :=
  if rising then ({ p with p1 := if wantsRise d.slopeA then some t else none, p2 := none }, endsAt p.p2 t d.width)
  else ({ p with p1 := none, p2 := if wantsFall d.slopeA then some t else none }, endsAt p.p1 t d.width)

/-- RUNT. p1 is an A rise with no B rise since, p2 a B fall with no A fall since. -/
def TrgDef.stepRunt (d : TrgDef) (p : Part) (t src : Nat) (rising : Bool) : Part × Bool :=
  let ok := fun x => !d.wqual || d.width x
  if rising then
    let hit := src == d.b && endsAt p.p2 t ok
    let p1 := if src = d.b then none else if wantsRise d.slopeA then some t else none
    ({ p with p1 := p1, p2 := if src = d.b then none else p.p2 }, hit)
  else
    let hit := src == d.a && endsAt p.p1 t ok
    let p2 := if src = d.a then none else if wantsFall d.slopeA then some t else none
    ({ p with p1 := if src = d.a then none else p.p1, p2 := p2 }, hit)

/-- SLEW. p1 is an A rise with no A fall since, p2 a B fall with no B rise since. -/
def TrgDef.stepSlew (d : TrgDef) (p : Part) (t src : Nat) (rising : Bool) : Part × Bool :=
  if rising then
    if src = d.b then ({ p with p2 := none }, endsAt p.p1 t d.width)
    else ({ p with p1 := if wantsRise d.slopeA then some t else none }, false)
  else
    if src = d.a then ({ p with p1 := none }, endsAt p.p2 t d.width)
    else ({ p with p2 := if wantsFall d.slopeA then some t else none }, false)

/-- PATTERN under the states after the crossing. -/
def TrgDef.stepPattern (d : TrgDef) (p : Part) (t : Nat) (high : List Nat) : Part × Bool :=
  let now := d.pattern high
  if now = p.pat then (p, false)
  else if now then ({ p with pat := true, patFrom := if d.wqual then some t else none }, !d.wqual)
  else ({ p with pat := false, patFrom := none }, d.wqual && d.wcond != 1 && endsAt p.patFrom t d.width)

/-- Pending A crossings still within THI at instant t (SEQUENCE). -/
def TrgDef.alive (d : TrgDef) (t : Nat) (l : List Nat) : List Nat := l.filter (fun x => d.thi == 0 || decide (t ≤ x + d.thi))

/-- SEQUENCE: B completes an A crossing at least TLO old, then the same crossing may be an A crossing. -/
def TrgDef.stepSequence (d : TrgDef) (p : Part) (t src : Nat) (rising : Bool) : Part × Bool :=
  let l := d.alive t p.pend
  let hit := src == d.b && slopeIs d.slopeB rising && l.any (fun x => d.tlo ≤ t - x)
  let l1 := if hit then [] else l
  ({ p with pend := if src = d.a ∧ slopeIs d.slopeA rising then l1 ++ [t] else l1 }, hit)

/-- One crossing under a definition, with the states before and after it: the new partial conditions, and whether it is a
candidate (Table 4.4). -/
def TrgDef.cross (d : TrgDef) (p : Part) (t src : Nat) (rising : Bool) (old new : List Nat) : Part × Bool :=
  match d.typ with
  | 0 => (p, src == d.a && slopeIs d.slopeA rising)
  | 1 => if src = d.a then d.stepWidth p t rising else (p, false)
  | 2 => d.stepRunt p t src rising
  | 3 =>
    let a := d.window old
    let b := d.window new
    (p, (!a && b && wantsRise d.slopeA) || (a && !b && wantsFall d.slopeA))
  | 4 => d.stepSlew p t src rising
  | 5 => d.stepPattern p t new
  | 6 => d.stepSequence p t src rising
  | 7 => (if src = d.a ∧ slopeIs d.slopeA rising then { p with toFrom := some t } else p, false)
  | _ => (p, false)

/-- The partial conditions of a group at an arming LCNT, or at the boundary of a definition change: a pattern that is true
and a TIMEOUT timer start there (Table 4.4, R414). -/
def TrgDef.start (d : TrgDef) (b : Nat) (high : List Nat) : Part :=
  let pat := d.typ == 5 && d.pattern high
  { Part.init with
    pat := pat
    patFrom := if pat ∧ d.wqual then some (65536 * b) else none
    toFrom := if d.typ = 7 then some (65536 * b) else none }

/-- The states of the sources that a register set names for group g, as they stand now (R74). -/
def State.highNow (s : State) (r : RegTab) (g : Nat) : List Nat := (srcsOf r g).filter s.srcHigh

/-! ### Candidates -/

/-- Holdoff is met for an instant (R87). -/
def State.eligible (s : State) (g t : Nat) : Bool :=
  let gr := s.grp g
  match gr.tp with
  | none => true
  | some p =>
    let time := decide (65536 * (s.getN (R.TRG_GRP_HOLD_TIME g) 2 % 2 ^ 40) ≤ t - p)
    let n := gr.candSince - (if gr.candAt.1 = t then gr.candAt.2 else 0)
    let evt := decide (s.get (F.TRG_GRP_HOLD_EVT_HOLD_EVT g) ≤ n)
    match s.get (F.TRG_GRP_CTRL_HOLD_MODE g) with
    | 0 => true
    | 1 => time
    | 2 => evt
    | _ => time && evt

/-- The group accepts an instant (R90, R91, R97, R123). -/
def State.accepting (s : State) (g t : Nat) : Bool :=
  let gr := s.grp g
  match gr.readyFrom with
  | some x => decide (x ≤ t / 65536) && gr.cur == none && gr.claim.isSome && !s.pllOut (t / 65536)
  | none => false

/-- The instant lies inside the acquisition: at or after arming, before a stop (R88, R92). "The stop" of R88 is taken as the STOP
write's cycle a, so that a candidate from a on is counted nowhere (log entry 72). -/
def Grp.inside (gr : Grp) (t : Nat) : Bool :=
  gr.armed && decide (65536 * gr.armLcnt ≤ t) && (match gr.stopReq with
    | some x => decide (t < 65536 * x.1)
    | none => true)

/-- A candidate after t_p counts towards HOLD_EVT (R87). -/
def State.countCand (s : State) (g t : Nat) : State :=
  let gr := s.grp g
  match gr.tp with
  | none => s
  | some p =>
    if t ≤ p then s
    else s.setGrp g { gr with candSince := gr.candSince + 1, candAt := (t, if gr.candAt.1 = t then gr.candAt.2 + 1 else 1) }

/-- An instant is accepted: the record is laid out around it (R91, R95, R101, R109). -/
def State.accept (s : State) (g t kind : Nat) (coarse : Bool) : State :=
  let gr := s.grp g
  let ct := t / 65536
  let want : Int := (ct : Int) - preCyc s.regs g
  let s0 := max want gr.region |>.toNat
  let short := grpN s.regs g * ((s0 : Int) - want).toNat
  let e := ct + postCyc s.regs g - 1
  match gr.claim with
  | none => s
  | some lp =>
    let r := s.newRec g kind t s0 e (ct + lDec s.regs g) short lp (if coarse then setBit 0 flagCoarse else 0)
    let s1 := if r.1.mask = gr.winMask then r.2 else r.2.moveBlocks g lp r.1.lay gr.winMask r.1.lay r.1.mask
    let s2 := ((s1.openRec g r.1).lensBacklog g r.1).tallyOffer g r.1
    let gr2 := s2.grp g
    let s3 := s2.setGrp g { gr2 with tp := some t, candSince := 0, candAt := (0, 0) }
    let s4 := ((s3.incWrap (F.TRG_GRP_ACCEPT_CNT_COUNT g)).putN (R.TRG_GRP_LAST_LCNT g) 2 ct).put
      (F.TRG_GRP_LAST_FINE_FINE g) (t % 65536)
    let s5 := if gr.stopReq = none then s4.put (F.TRG_GRP_STATUS_STATE g) 3 else s4
    if coarse then s5.setF (F.TRG_GRP_STATUS_COARSE_SEEN g) else s5

/-- A candidate is decided (R87, R88). -/
def State.candidate (s : State) (g t : Nat) (coarse : Bool) : State :=
  if (s.grp g).inside t = false then s
  else if s.eligible g t then
    (if s.accepting g t then s.accept g t 1 coarse
     else
       let s1 := (s.countCand g t).incSat (F.TRG_GRP_MISSED_CNT_COUNT g)
       let gr := s1.grp g
       s1.setGrp g { gr with missed := min (gr.missed + 1) 0xFFFFFFFF })
  else
    let s1 := (s.countCand g t).incSat (F.TRG_GRP_HELD_CNT_COUNT g)
    let gr := s1.grp g
    s1.setGrp g { gr with held := min (gr.held + 1) 0xFFFFFFFF }

/-- A FORCE candidate is decided (R93). -/
def State.forced (s : State) (g t : Nat) : State :=
  if (s.grp g).inside t ∧ s.accepting g t then s.accept g t 2 false
  else (s.countCand g t).setF (F.TRG_GRP_STATUS_FORCE_LOST g)

/-- The states after a crossing. -/
def highAfter (high : List Nat) (src : Nat) (rising : Bool) : List Nat :=
  if rising then (if high.contains src then high else src :: high) else high.filter (fun c => c != src)

/-- Partial conditions start afresh at the latest definition change at or before an event's instant (R414). -/
def State.freshDef (s : State) (g t : Nat) : State :=
  let gr := s.grp g
  match (gr.defAt.filter (fun b => decide (65536 * b ≤ t))).getLast? with
  | some b => s.setGrp g { gr with
      defAt := gr.defAt.filter (fun x => !decide (65536 * x ≤ t))
      part := (trgDef (s.cfgAt b) g).start b gr.high }
  | none => s

/-- Pending SEQUENCE A crossings and a PATTERN duration are discarded when the fabric ran from the CLKBYP-derived clock in a core
cycle from instant t0 to instant t (R97). -/
def State.dropBypass (s : State) (g t0 t : Nat) : State :=
  let gr := s.grp g
  if s.bypassIn (t0 / 65536) (t / 65536) then s.setGrp g { gr with part := { gr.part with pend := [], patFrom := none } } else s

/-- The event at the head of a group's queue is evaluated (R84, R94). -/
def State.evalEv (s : State) (g : Nat) (e : TrgEv) : State :=
  let s0 := (s.freshDef g e.t).dropBypass g (s.grp g).evAt e.t
  let gr := s0.grp g
  let d := trgDef (s0.cfgAt (e.t / 65536)) g
  match e.kind with
  | .force => s0.forced g e.t
  | .timeout =>
    if d.typ = 7 ∧ gr.part.toFrom.map (fun x => x + d.thi) = some e.t then
      (s0.setGrp g { gr with part := { gr.part with toFrom := none } }).candidate g e.t false
    else s0
  | .patDur =>
    if d.typ = 5 ∧ d.wqual ∧ d.wcond = 1 ∧ gr.part.patFrom.map (fun x => x + d.tlo) = some e.t then
      (s0.setGrp g { gr with part := { gr.part with patFrom := none } }).candidate g e.t false
    else s0
  | .cross src rising coarse =>
    let new := highAfter gr.high src rising
    if e.t < 65536 * gr.armLcnt then
      s0.setGrp g { gr with high := new, part := (trgDef (s0.cfgAt gr.armLcnt) g).start gr.armLcnt new }
    else
      let used := (srcsOf (s0.cfgAt (e.t / 65536)) g).contains src
      let r := if used then d.cross gr.part e.t src rising gr.high new else (gr.part, false)
      let s1 := s0.setGrp g { gr with high := new, part := r.1 }
      if r.2 then s1.candidate g e.t coarse else s1

/-- The event is evaluated; what it leaves pending in a bypass cycle is discarded at once (R97). -/
def State.decide_ (s : State) (g : Nat) (e : TrgEv) : State :=
  let s1 := (s.evalEv g e).dropBypass g e.t e.t
  s1.setGrp g { s1.grp g with evAt := max (s1.grp g).evAt e.t }

/-- CANDIDATE_DECISION: the group's earliest event is evaluated at (t >> 16) + L_dec (R94). -/
def execCandidateDecision (g : Fin 16) (s : State) : Host.Outcome State Fault Refusal :=
  let gr := s.grp g
  .next (match gr.events with
    | [] => s
    | e :: rest => ((s.at_ (e.t / 65536 + lDec s.regs g)).setGrp g { gr with events := rest }).decide_ g e)

/-- The instant from which a TIMEOUT runs, the crossings not decided yet included (R84). -/
def State.timerFrom (s : State) (g : Nat) : Option Nat :=
  let d := trgDef s.regs g
  let gr := s.grp g
  let base := match gr.defAt.getLast? with
    | some b => some (65536 * b)
    | none => gr.part.toFrom
  gr.events.foldl (fun m e => match e.kind with
    | .cross c r _ => if c = d.a ∧ slopeIs d.slopeA r ∧ m.getD 0 ≤ e.t then some e.t else m
    | _ => m) base

/-- TIMEOUT_EXPIRY: THI has passed since A's last crossing; the candidate takes its place among the events (R84). A held
source's timer is stopped (R96). -/
def execTimeoutExpiry (g : Fin 16) (s : State) : Host.Outcome State Fault Refusal :=
  let d := trgDef s.regs g
  .next (match s.timerFrom g with
    | some x =>
      let e : TrgEv := ⟨x + d.thi, .timeout⟩
      let held := match srcCh d.a with
        | some n => bitOf s.calMask n
        | none => false
      if d.typ = 7 ∧ held = false ∧ (s.grp g).armed ∧ (s.grp g).events.contains e = false then (s.at_ (e.t / 65536)).queueEv g e else s
    | none => s)

/-- PATTERN_DURATION_REACHED: a pattern that holds reaches TLO under WCOND = 1 (R84). -/
def execPatternDurationReached (g : Fin 16) (s0 : State) : Host.Outcome State Fault Refusal :=
  let s := s0.freshDef g (65536 * s0.lcnt)
  let d := trgDef s.regs g
  .next (match (s.grp g).part.patFrom with
    | some x =>
      let e : TrgEv := ⟨x + d.tlo, .patDur⟩
      if d.typ = 5 ∧ d.wqual ∧ d.wcond = 1 ∧ (s.grp g).armed ∧ (s.grp g).events.contains e = false then
        (s.at_ (e.t / 65536)).queueEv g e else s
    | none => s)

/-- SEQUENCE_A_EXPIRY: the oldest pending A crossing is dropped once THI has passed and no earlier event waits (R84). -/
def execSequenceAExpiry (g : Fin 16) (s : State) : Host.Outcome State Fault Refusal :=
  let gr := s.grp g
  let d := trgDef s.regs g
  .next (match gr.part.pend with
    | x :: rest =>
      if d.typ = 6 ∧ d.thi ≠ 0 ∧ gr.events.all (fun e => x + d.thi < e.t) then
        (s.at_ ((x + d.thi) / 65536 + 1)).setGrp g { gr with part := { gr.part with pend := rest } }
      else s
    | [] => s)

/-! ### Arming and stopping -/

/-- TRG_GRP_CMD.ARM written in core cycle a (R89). A second write before the boundary that applies the first is one request with
it, and is not logged (log entry 73). -/
def State.armWrite (s : State) (a g : Nat) : State :=
  let s0 := s.at_ a
  let gr := s0.grp g
  s0.setGrp g { gr with armReq := some (gr.armReq.getD a) }

def execArm (a : Nat) (g : Fin 16) (s : State) : Host.Outcome State Fault Refusal := .next (s.armWrite a g)

/-- The losses that hold for a group at core cycle b: bypass, calibration, a supply gap (R261, R321, R378). -/
def State.lossesNow (s : State) (b : Nat) : List Loss :=
  ((if s.pllOut b then [(⟨4, allChans, b, s.clk.gap.2⟩ : Loss)] else []) ++ [(⟨5, s.calMask, b, none⟩ : Loss)]
    ++ (if s.pwr.anaFault.isSome then [(⟨7, allChans, b, none⟩ : Loss)] else [])
    ++ (s.pwr.supply.filter (fun p : Nat × Nat => decide (b < p.2))).map
      (fun p : Nat × Nat => (⟨7, p.1, b, some p.2⟩ : Loss))).filter (fun l : Loss => l.mask != 0)

/-- A group arms at boundary b (R89, R90, R101, R102). -/
def State.armAt (s : State) (g b : Nat) : State :=
  let gr := s.grp g
  let high := s.highNow s.regs g
  -- records of the acquisition before may still be closing: what their last words need stays
  let g0 : Grp := if gr.closing = [] then
      { gr with losses := [], gapPos := b, gaps := [], drop := none, flagged := [], lensFlags := [], fit := [] } else gr
  let g1 : Grp := { g0 with
    armReq := none, armed := true, armLcnt := b, stopReq := none, events := [], high := high, evAt := 65536 * b,
    part := (trgDef s.regs g).start b high, defAt := [], tp := none, candSince := 0, candAt := (0, 0), missed := 0,
    held := 0, readyFrom := none, region := b, claim := none, winFrom := none, cur := none, ePrev := none, segs := 0, grid := 0,
    hold := false, wrapHold := false, losses := g0.losses ++ s.lossesNow b }
  let s1 := ((s.setGrp g g1).putN (R.TRG_GRP_ARM_LCNT g) 2 b).post b 0x0501 (s.locusGrp g) 0
  let s2 := s1.gapSync g
  if isCont s.regs g then s2.put (F.TRG_GRP_STATUS_STATE g) 3 else s2.startRegion g b

/-- The request to arm takes effect at boundary b, or is ignored and logged (R89, R386). -/
def State.armApply (s : State) (g b : Nat) : State :=
  let gr := s.grp g
  match gr.armReq with
  | none => s
  | some a =>
    if b ≤ a then s
    else if gr.armed ∨ chMask s.regs g = 0 ∨ s.get F.TWIN_STATUS_ROLE = 2 then
      (s.setGrp g { gr with armReq := none }).post b 0x0503 (s.locusGrp g) 0
    else s.armAt g b

/-- ARM_TAKES_EFFECT: at the first boundary after the write (R89). -/
def execArmTakesEffect (g : Fin 16) (s : State) : Host.Outcome State Fault Refusal :=
  .next (match (s.grp g).armReq with
    | some a => (s.at_ (boundaryAfter a)).armApply g (boundaryAfter a)
    | none => s)

/-- TRG_GRP_CMD.STOP written in core cycle a (R92). -/
def State.stopWrite (s : State) (a g : Nat) : State :=
  let s0 := s.at_ a
  let gr := s0.grp g
  if gr.armed ∧ gr.stopReq = none then
    (let s1 := s0.setGrp g { gr with stopReq := some (a, .command) }
     if isCont s.regs g then s1 else s1.put (F.TRG_GRP_STATUS_STATE g) 5)
  else s0

def execStop (a : Nat) (g : Fin 16) (s : State) : Host.Outcome State Fault Refusal := .next (s.stopWrite a g)

/-- The acquisition ends with stopping LCNT b: open gaps end, the stop is logged with the trailing dead time (R19, R92, R119,
R142). A STORE_BUDGET gap whose next words belong to a record that is still closing stays open for them (R162). A FORCE that
still waits for its decision is lost (R93). -/
def State.endAcq (s : State) (g b : Nat) : State :=
  let late := (s.grp g).drop.filter (fun x => (s.grp g).closing.any (fun r => decide (x ≤ r.e)))
  let s1 := (s.gapEnd g b late).avgStop g
  let gr := s1.grp g
  let from_ := gr.sinceNext
  let m := chMask s1.regs g
  let gapsAfter := (gr.losses.filter (fun l => Nat.land l.mask m != 0)).map (fun l => (l.first, l.stop.getD b))
  let dead := b - from_ - covered from_ b gapsAfter
  let s2 := s1.setGrp g { gr with
    armed := false, stopReq := none, readyFrom := none, claim := none, events := [], hold := false, wrapHold := false }
  let s3 := if gr.events.any (fun e => e.kind == .force) then s2.setF (F.TRG_GRP_STATUS_FORCE_LOST g) else s2
  (s3.put (F.TRG_GRP_STATUS_STATE g) 6).post b 0x0502 (s.locusGrp g) (dead % 2 ^ 64)

/-- The open continuous record is closed with its span ending at b − 1 and CUT (R102). -/
def State.cutCont (s : State) (g b : Nat) : State :=
  let gr := s.grp g
  match gr.cur with
  | some r =>
    if r.e < b then s.spanEnd g
    else (s.setGrp g { gr with cur := some { r with e := b - 1, flags := setBit r.flags flagCut } }).spanEnd g
  | none => s

/-- The stop takes effect at boundary b; a completed count re-arms when RESTART is set (R92, R102, R103). -/
def State.stopApply (s : State) (g b : Nat) : State :=
  match (s.grp g).stopReq with
  | none => s
  | some (_, why) =>
    let s1 := (if isCont s.regs g then s.cutCont g b else s).endAcq g b
    if why = .count ∧ s.flag (F.REC_GRP_CTRL_RESTART g) then
      (if s.get F.TWIN_STATUS_ROLE = 2 then s1.post b 0x0503 (s.locusGrp g) 0 else s1.armAt g b)
    else s1

/-- STOP_TAKES_EFFECT (R92). -/
def execStopTakesEffect (g : Fin 16) (s : State) : Host.Outcome State Fault Refusal :=
  let gr := s.grp g
  .next (match gr.stopReq with
    | some (a, _) =>
      if gr.armed ∧ (gr.cur = none ∨ isCont s.regs g) then (s.at_ (s.stopAt g a)).stopApply g (s.stopAt g a) else s
    | none => s)

/-- TRG_GRP_CMD.FORCE written in core cycle a (R93). -/
def State.forceWrite (s : State) (a g : Nat) : State :=
  let s0 := s.at_ a
  if (s0.grp g).armed then s0.queueEv g ⟨65536 * a, .force⟩ else s0.setF (F.TRG_GRP_STATUS_FORCE_LOST g)

def execForce (a : Nat) (g : Fin 16) (s : State) : Host.Outcome State Fault Refusal := .next (s.forceWrite a g)

end Sys2Proof.Machine
end

