-- ==== Sys2Proof/WellFormed.lean ====
section
/-! DEFINITION. Which commands have the shape of an outside event: lists of the lengths that the spec gives them. Every other
operand's bound is in its type. -/

namespace Sys2Proof

/-- A sample is a 10-bit two's-complement code (R31). -/
def codeOk (x : Int) : Bool := decide (-512 ≤ x) && decide (x ≤ 511)

/-- A die sends 64 conversions, and the first four of the next word, per array and core cycle (R31, R35, R38). -/
def RawWord.wf (w : RawWord) : Bool := w.x.length == 64 && w.look.length == 4 && w.x.all codeOk && w.look.all codeOk

/-- The command can come from outside: a region sends four words (R10), a PFC frame holds eight times (R190), a descriptor has
64 bytes (R207), two event interpolators take two references each (R290). -/
def wellFormed : Instr → Bool
  | .sampleWordDelivery _ _ words => words.length == 4 && words.all RawWord.wf
  | .rxPfcFrame _ _ _ times => times.length == 8
  | .descriptorFetch _ bytes => bytes.length == 64
  | .evtMeasurementStart _ codes => codes.length == 4
  | _ => true

end Sys2Proof
end

