-- ==== Sys2Proof/Machine/Converter.lean ====
section
/-! DEFINITION. The converter array (spec/02): interleave correction, over-range marks, delivery of words to every consumer
at c + 40, the rotating spare, the slot monitor, and fencing. -/

namespace Sys2Proof.Machine

/-! ### Fencing (R49, R50) -/

/-- The open and closing records of a group under a fencing: a record that begins after c omits the channel, and its other
blocks move together (R50). -/
def State.fenceRecs (s : State) (g n c : Nat) (l : List Rec) : State :=
  l.foldl (fun t r =>
    let r' := r.fence n c
    let u := t.setGrp g ((t.grp g).updRec r')
    if r'.mask = r.mask then u else u.moveBlocks g r.lpage r.lay r.mask r.lay r'.mask) s

/-- One channel leaves its group at core cycle c (R50). -/
def State.fenceGroup (s : State) (n c g : Nat) : State :=
  let s1 := s.fenceRecs g n c (s.grp g).spans
  (s1.setGrp g ((s1.grp g).reopen c)).gapSync g

/-- Channel n is fenced from core cycle c on (R50). -/
def State.fenceOne (s : State) (n c : Nat) : State :=
  if bitOf s.fenceMask n then s
  else
    let g := groupOf s.regs n
    let s1 := (s.putN R.CONV_FENCE_CH 2 (setBit s.fenceMask n)).setChan n { s.chan n with fencedAt := some c, stepPending := false }
    let s2 := ((s1.setF (F.CONV_CH_STATUS_FENCED n)).clrF (F.CONV_CH_STATUS_PRESENT n)).setF F.GLOBAL_STATE_DEGRADED
    let s3 := (List.range 6).foldl (fun t k => t.setF (F.TRG_AC_STATUS_FENCED (6 * n + k))) s2
    let s4 := { s3 with cal := { s3.cal with runs := s3.cal.runs.map (fun r : CalRun => if r.die < 6 then { r with mask := clrBit r.mask n } else r) } }
    let s5 := match g with
      | some k => s4.fenceGroup n c k
      | none => s4
    s5.showSrc

/-- Channels fenced together: the members of a pair with each other (R49). -/
def State.fenceChs (s : State) (c : Nat) (l : List Nat) : State :=
  let all := sortNat (l.flatMap (fun n => if paired s.regs n then [n / 2 * 2, n / 2 * 2 + 1] else [n]))
  all.foldl (fun t n => t.fenceOne n c) s

/-- A cluster is fenced, with its log entry (R49, R50). -/
def State.fenceCluster (s : State) (n c : Nat) : State :=
  if bitOf s.fenceMask n then s else (s.fenceChs c [n]).post c 0x0104 (s.locusCh n 0xFF) 0

/-- A region is fenced with its four channels (R49). -/
def State.fenceRegion (s : State) (q c : Nat) : State :=
  ((s.put F.CONV_FENCE_REGION_REGION (setBit (s.get F.CONV_FENCE_REGION_REGION) q)).fenceChs c
    ((List.range 4).map (fun i => 4 * q + i))).post c 0x0104 (s.locus (q / 2) q 0xFF 0xFF) 0

/-- A converter die is fenced with its eight channels (R49). -/
def State.fenceDie (s : State) (k c : Nat) : State :=
  ((s.put F.CONV_FENCE_DIE_DIE (setBit (s.get F.CONV_FENCE_DIE_DIE) k)).fenceChs c
    ((List.range 8).map (fun i => 8 * k + i))).post c 0x0104 (s.locus k 15 0xFF 0xFF) 0

/-! ### Correction (R38) -/

/-- A conversion of one array: the code, the array and the position that took it. -/
structure Conv where
  x : Int
  arr : Nat
  pos : Nat
  deriving DecidableEq, Repr

/-- The slots of an array in core cycle c (R44). -/
def Chan.slotsAt (ch : Chan) (c : Nat) : Tab Nat :=
  match ch.stepAt with
  | some t => if t ≤ c then ch.slots else ch.slotsPrev
  | none => ch.slots

/-- The conversions of an array in core cycle c, from slot j on. -/
def Chan.convs (ch : Chan) (a c : Nat) : Nat → List Int → List Conv
  | _, [] => []
  | j, x :: xs => ⟨x, a, Tab.get j (ch.slotsAt c) j⟩ :: ch.convs a c (j + 1) xs

/-- Two arrays' conversions in time order (R36). -/
def interleave : List Conv → List Conv → List Conv
  | a :: as, b :: bs => a :: b :: interleave as bs
  | as, bs => as ++ bs

/-- u = g·(x − o) in units of 2^-22 LSB. -/
def Conv.u (r : RegTab) (v : Conv) : Int :=
  (r.fld (F.CONV_COEF_VALUE v.arr v.pos 1) : Int) * (64 * v.x - sgn 16 (r.fld (F.CONV_COEF_VALUE v.arr v.pos 0)))

/-- A code is a clip code (R31). -/
def isClip (x : Int) : Bool := x == 511 || x == -512

/-- y of R38 in units of 2^-38 LSB from nine neighbours u[m − 4] … u[m + 4]. -/
def Conv.filtered (r : RegTab) (v : Conv) (w : List Int) : Int :=
  ((w.zipIdx).map (fun p => p.1 * r.sfld (F.CONV_COEF_VALUE v.arr v.pos (10 - p.2)))).sum

/-- Corrected codes (R38); `ext` starts four samples before the first conversion. -/
def correct (r : RegTab) (off : Bool) : List Conv → List Int → List Int
  | [], _ => []
  | v :: vs, ext =>
    (if isClip v.x || off then v.x else clampI (-511) 510 (roundDiv (v.filtered r (ext.take 9)) 274877906944))
      :: correct r off vs (ext.drop 1)

/-! ### Words and their marks -/

/-- What a channel, or a pair, delivers for one core cycle: its words of 64 corrected codes, their OVR bits, and whether
the words are kept from the consumers. -/
structure Unit_ where
  n : Nat
  arrs : List Nat
  words : List (List Int)
  ovr : List Bool
  bad : List Bool
  drop : Bool
  deriving DecidableEq, Repr

/-- Codes cut into words of 64. -/
def words64 : Nat → List Int → List (List Int)
  | 0, _ => []
  | k + 1, l => l.take 64 :: words64 k (l.drop 64)

/-- The clamp detector covers core cycle c (R41). -/
def Chan.clampAt (ch : Chan) (c : Nat) : Bool :=
  ch.clampOvr.any (fun p => p.1 ≤ c && c ≤ p.2) || (match ch.clamp with
    | some a => decide (a ≤ c)
    | none => false)

/-- OVR of consecutive words (R39, R41, R48): the word's own clip codes, those of the word before, and a clip code in
samples 0–3 of the word after (look: what the first samples of the next core cycle's first word will be). -/
def ovrOf (clamp : Bool) (prev : Bool) : List (List Int) → List Int → List Bool
  | [], _ => []
  | w :: ws, look =>
    let next := match ws with
      | v :: _ => v.take 4
      | [] => look
    (clamp || prev || w.any isClip || next.any isClip) :: ovrOf clamp (w.any isClip) ws look

/-- Slot sums of an array from its corrected codes (R47). -/
def Chan.monitor (ch : Chan) (codes : List Int) : Chan :=
  { ch with
    monSum := codes.zipIdx.foldl (fun t p => Tab.set t p.2 (Tab.get 0 t p.2 + p.1)) ch.monSum
    monSq := codes.zipIdx.foldl (fun t p => Tab.set t p.2 (Tab.get 0 t p.2 + p.1 * p.1)) ch.monSq
    monWords := ch.monWords + 1 }

/-- Every second element, from the first on. -/
def evens : List Int → List Int
  | a :: _ :: rest => a :: evens rest
  | l => l

/-- The first samples of the next core cycle's first word as they will be delivered: all −512 where that word fails its
die-link ECC (R39, R48). -/
def lookCodes (raw : List RawWord) (look : List Conv) : List Int :=
  if raw.head?.any (fun w => w.lookBad) then look.map (fun _ => -512) else look.map (fun v => v.x)

/-- The correction of one unit, and the arrays' registers after it. Two points that R48 leaves open (log entry 61): in pair
mode the even array's failed word spoils word A and the odd array's word B, and a failed word's conversions still enter the
skew filter of the words beside it and the slot monitor's sums. -/
def State.unitWords (s : State) (c n : Nat) (arrs : List Nat) (raw : List RawWord) : Unit_ × State :=
  let r := s.cfgAt c
  let ch := s.chan n
  let conv := fun cyc (sel : RawWord → List Int) =>
    match arrs, raw with
    | [a], w :: _ => (s.chan a).convs a cyc 0 (sel w)
    | [a, b], w :: v :: _ => interleave ((s.chan a).convs a cyc 0 (sel w)) ((s.chan b).convs b cyc 0 (sel v))
    | _, _ => []
  let now := conv c (fun w => w.x)
  let look := (conv (c + 1) (fun w => w.look)).take 4
  let us := now.map (Conv.u r)
  let ext := (ch.uHist ++ [0, 0, 0, 0]).take 4 |>.reverse
  let codes := correct r (r.bit (F.CONV_CH_CTRL_CORR_OFF n)) now (ext ++ us ++ look.map (Conv.u r))
  let bad := raw.map (fun w => w.eccBad)
  let ws := (words64 arrs.length codes).zip bad |>.map (fun p => if p.2 then List.replicate 64 (-512) else p.1)
  let drop := s.pllGapAt c || s.calHeldAt n c || s.fencedBy n c
  let ovr := ovrOf (ch.clampAt c) ch.clipPrev ws (lookCodes raw look)
  let s1 := s.setChan n { ch with
    uHist := us.reverse.take 4
    clipPrev := (ws.getLast?.getD []).any isClip
    lastOvr := if !drop && ovr.any id then some c else ch.lastOvr
    clampOvr := ch.clampOvr.filter (fun p => c ≤ p.2) }
  let s2 := if drop then s1 else
    match arrs with
    | [a] => s1.setChan a ((s1.chan a).monitor codes)
    | [a, b] => (s1.setChan a ((s1.chan a).monitor (evens codes))).setChan b ((s1.chan b).monitor (evens (codes.drop 1)))
    | _ => s1
  (⟨n, arrs, ws, ovr, bad, drop⟩, s2)

/-- The units of a region in core cycle c: channel, its arrays, their places among the region's four (R36). -/
def unitsOf (r : RegTab) (q : Nat) : List (Nat × List Nat × List Nat) :=
  [0, 1].flatMap (fun k =>
    let e := 4 * q + 2 * k
    if paired r e then [(e, [e, e + 1], [2 * k, 2 * k + 1])] else [(e, [e], [2 * k]), (e + 1, [e + 1], [2 * k + 1])])

/-- Every unit of a region corrected. -/
def State.regionWords (s : State) (c : Nat) (raw : List RawWord) : List (Nat × List Nat × List Nat) → List Unit_ × State
  | [] => ([], s)
  | u :: us =>
    let a := s.unitWords c u.1 u.2.1 (u.2.2.filterMap (fun i => raw[i]?))
    let rest := a.2.regionWords c raw us
    (a.1 :: rest.1, rest.2)

/-- The unit carries NBR at core cycle c: an adjacent unit of its region, not fenced at c, carried OVR from c − 32 on (R42, log
entry 26). -/
def State.nbrAt (s : State) (c : Nat) (u : Unit_) (all : List Unit_) : Bool :=
  all.any (fun v => v.n != u.n && v.arrs.any (fun a => u.arrs.any (fun b => a == b + 1 || b == a + 1))
    && (match (s.chan v.n).lastOvr with
      | some t => decide (c ≤ t + 32)
      | none => false)
    && !s.fencedBy v.n c)

/-- The unit carries ROT at core cycle c (R44, R47). -/
def State.rotAt (s : State) (c : Nat) (u : Unit_) : Bool :=
  u.arrs.any (fun a => match (s.chan a).stepAt with
    | some t => decide (t ≤ c + 1) && decide (c ≤ t + 15)
    | none => false)

/-! ### Delivery -/

/-- The clamp's status and log entry when the word of its trip reaches the router (R41). -/
def State.ovldAt (s : State) (n c : Nat) : State :=
  let ch := s.chan n
  if ch.clamp = some c ∨ ch.clampOvr.any (fun p => p.1 == c) then
    (s.setF (F.CONV_CH_STATUS_OVLD n)).post c 0x0201 (s.locusCh n 0xFF) 0
  else s

/-- Counters and seen bits of the words' marks (R43). -/
def State.countMarks (s : State) (n : Nat) (mks : List Marks) : State :=
  let o := (mks.filter (fun m => m.ovr)).length
  let b := (mks.filter (fun m => m.nbr)).length
  let s1 := (s.addSat (F.CONV_OVR_CNT_COUNT n) o).addSat (F.CONV_NBR_CNT_COUNT n) b
  let s2 := if o = 0 then s1 else s1.setF (F.CONV_CH_STATUS_OVR_SEEN n)
  if b = 0 then s2 else s2.setF (F.CONV_CH_STATUS_NBR_SEEN n)

/-- The raw values of a core cycle with their instants, for the digital comparators (R73, R75, R82). -/
def rawValues (n c : Nat) (codes : List Int) : List (Nat × Int) :=
  codes.zipIdx.map (fun p => (65536 * c + 65536 / n * p.2, 8192 * p.1))

/-- A core cycle's words of channel n reach every enabled consumer (R10). -/
def State.deliver (s : State) (n c : Nat) (codes : List Int) (mks : List Marks) : State :=
  let r := s.cfgAt c
  let f := chainCfg r n
  let mk := mks.foldl Marks.or Marks.none_
  let s1 := s.chainWord n c codes mks
  let s2 := if f.direct then s1.toStore n c 0 (codes.map (codeWidth f.b)) mk else s1
  let s3 := s2.dcPush n false (rawValues f.n c codes)
  let s4 := match groupOf r n with
    | some g => s3.lensCycle true g n c codes mk.nib (s3.grp g).spans
    | none => s3
  s4.pushWord n c (f.n / 64 * c) codes mks

/-- One unit: its marks, its counters, its delivery. A word that no consumer gets (a calibration hold, the words of a bypass
gap) reaches no chain: R62 is silent on the m-grid over it, and here every stage keeps its registers and takes the next
delivered word as it comes (log entry 65). -/
def State.deliverUnit (s : State) (c : Nat) (all : List Unit_) (u : Unit_) : State :=
  if bitOf s.fenceMask u.n ∧ u.drop then s
  else
    let s0 := s.ovldAt u.n c
    if u.drop then s0
    else
      let nbr := s0.nbrAt c u all
      let rot := s0.rotAt c u
      let mks := u.ovr.map (fun o => (⟨o, nbr, rot⟩ : Marks))
      ((s0.countMarks u.n mks).deliver u.n c u.words.flatten mks)

/-- Die-link errors of a unit: each is logged, the third of a tick fences the channel from the next word on
(R48; the errors of both arrays of a pair count together, log entry 25). -/
def State.eccUnit (s : State) (c : Nat) (u : Unit_) : State :=
  let k := (u.bad.filter id).length
  if k = 0 ∨ u.drop then s
  else
    let ch := s.chan u.n
    let n := (if ch.ecc.1 = c / tickLen then ch.ecc.2 else 0) + k
    let s1 := (s.setChan u.n { ch with ecc := (c / tickLen, n) }).post c 0x0204 (s.locusCh u.n 0xFF) 0
    if 3 ≤ n then s1.fenceCluster u.n (c + 1) else s1

/-- The newest core cycle whose words of channel n stand in its history. -/
def State.newest (s : State) (n : Nat) : Nat :=
  match Tab.get [] s.words n with
  | w :: _ => w.1 * 64 / nOf s.regs n
  | [] => 0

/-- Averages and hit waveforms whose last sample has passed (R140, R144). -/
def State.tallyWord (s : State) (q c : Nat) : State :=
  let chs := (List.range 4).map (fun i => 4 * q + i)
  let gs := (List.range 16).filter (fun g => chs.any (fun n => bitOf (chMask s.regs g) n))
  let s1 := gs.foldl (fun t g =>
    if (bitsSet 48 (t.grpMask g)).all (fun n => t.calHeldAt n c || decide (c ≤ t.newest n)) then t.avgLand g c else t) s
  s1.hitEnter c ((List.range 8).filter (fun d => chs.contains (s1.get (F.TAL_DB_SRC_CH d))))

/-- A region's words tagged c reach the router. -/
def State.regionWord (s : State) (q c : Nat) (raw : List RawWord) : State :=
  let s0 := (s.at_ (c + 40)).gapSyncAll
  let r := s0.regionWords c raw (unitsOf (s0.cfgAt c) q)
  let s1 := r.1.foldl (fun t u => t.deliverUnit c r.1 u) r.2
  let s2 := r.1.foldl (fun t u => t.eccUnit c u) s1
  s2.tallyWord q c

/-- SAMPLE_WORD_DELIVERY: the words of region q tagged c reach the prism router at c + 40 (R10, R35). -/
def execSampleWordDelivery (q : Fin 12) (c : Nat) (words : List RawWord) (s : State) : Host.Outcome State Fault Refusal :=
  if words.length = 4 ∧ words.all RawWord.wf then .next (s.regionWord q c words)
  else .fault (.illFormed "SAMPLE_WORD_DELIVERY")

/-- CLAMP_TRIP: the input exceeds ±1.2 V from core cycle c on; OVLD and the log entry follow with the word tagged c (R41).
The odd input of a pair is ignored (R36). -/
def execClampTrip (n : Fin 48) (c : Nat) (s : State) : Host.Outcome State Fault Refusal :=
  let ch := s.chan n
  .next (if ch.clamp = none ∧ !(n.val % 2 == 1 && paired (s.cfgAt c) n) then (s.at_ c).setChan n { ch with clamp := some c }
    else s.at_ c)

/-- CLAMP_RELEASE: OVR continues through the word tagged c + 64 (R41). -/
def execClampRelease (n : Fin 48) (c : Nat) (s : State) : Host.Outcome State Fault Refusal :=
  let ch := s.chan n
  .next (match ch.clamp with
    | some a => (s.at_ c).setChan n { ch with clamp := none, clampOvr := (a, c + 64) :: ch.clampOvr }
    | none => s.at_ c)

/-! ### The rotating spare (R44-R46) -/

/-- CONV_ROT_PERIOD in core cycles. -/
def State.rotPeriod (s : State) : Nat := tickLen * max 256 (s.get F.CONV_ROT_PERIOD_PERIOD)

/-- A post-trigger window of a group containing the channel includes a word from b − 1 to b + 15 (R46). A trigger before b that
is decided only after b opens no window yet (log entry 62). -/
def State.windowMeets (s : State) (n b : Nat) : Bool :=
  (List.range 16).any (fun g => bitOf (chMask s.regs g) n && (s.grp g).spans.any (fun r =>
    let from_ := if r.kind = 3 then r.s else r.t / 65536
    decide (from_ ≤ b + 15) && decide (b ≤ r.e + 1)))

/-- Position p takes over slot j at boundary b; the position that served it is returned with the new slots. The monitor's run
of misses of the slot starts again with its new position (log entry 63). -/
def Chan.swap (ch : Chan) (j p b : Nat) : Nat × Chan :=
  let old := Tab.get j ch.slots j
  (old, { ch with
    slots := Tab.set ch.slots j p
    slotsPrev := ch.slots
    stepAt := some b
    monBad := ch.monBad.filter (fun x => x.1 != j) })

/-- The figures that every rotation step updates: interleave spur, skew residual and ENOB come from the analogue mismatch of
the serving positions, which only the array knows: free values (R327, log entry 77). -/
def State.stepFigures (s : State) (n : Nat) : State :=
  let a := s.draw 16
  let b := a.2.draw 16
  let c := b.2.draw 16
  ((c.2.put (F.CAL_Q_SPUR_DBC n) a.1).put (F.CAL_Q_SKEW_FS n) b.1).put (F.CAL_Q_ENOB_CBIT n) c.1

/-- A step of one array at boundary b (R44). -/
def State.stepArray (s : State) (b a : Nat) : State :=
  let ch := s.chan a
  match ch.spare with
  | none => s
  | some p =>
    let j := s.get (F.CONV_CH_STATUS_NEXT_SLOT a)
    let r := ch.swap j p b
    let s1 := s.setChan a { r.2 with spare := some r.1 }
    (((s1.put (F.CONV_CH_STATUS_NEXT_SLOT a) ((j + 1) % 64)).put (F.CONV_CH_STATUS_SPARE_POS a) r.1).incWrap
      (F.CONV_ROT_STEPS_COUNT a)).stepFigures a

/-- The arrays that step with channel n. -/
def State.arrays (s : State) (n : Nat) : List Nat := if paired s.regs n then [n / 2 * 2, n / 2 * 2 + 1] else [n]

/-- The pending step of channel n is taken: every array of a pair steps, and the deferral count restarts (R44-R46). -/
def State.rotTake (s : State) (n b : Nat) : State :=
  let s1 := (s.arrays n).foldl (fun t a =>
    (let u := t.stepArray b a
     u.setChan a { u.chan a with stepPending := false })) s
  s1.put (F.CONV_ROT_DUE_DEFERRED n) 0

/-- A pending step at boundary b is decided (R46). -/
def State.rotDecide (s : State) (n b : Nat) : State :=
  let d := s.get (F.CONV_ROT_DUE_DEFERRED n)
  if s.flag F.CONV_ROT_CTRL_EN = false ∨ s.flag (F.CONV_CH_CTRL_ROT_HOLD n) ∨ bitOf s.calMask n then s
  else if s.windowMeets n b = false then s.rotTake n b
  else if d < s.get F.CONV_ROT_CTRL_MAX_DEFER then s.put (F.CONV_ROT_DUE_DEFERRED n) (d + 1)
  else
    let s1 := s.rotTake n b
    ((s1.setF (F.CONV_CH_STATUS_ROT_FORCED n)).incSat (F.CONV_ROT_FORCED_CNT_COUNT n)).post b 0x0202 (s.locusCh n 0xFF) 0

/-- Ticks to the next due boundary, as CONV_ROT_DUE shows them (saturating). -/
def State.showDue (s : State) (n b : Nat) : State :=
  match (s.chan n).due with
  | some d => s.put (F.CONV_ROT_DUE_TICKS n) (min ((d - b) / tickLen) 0xFFFFFF)
  | none => s

/-! ### Failing positions (R47) -/

/-- No working spare is left in array a. A pair's due step stays pending while its other array still has one. -/
def State.noSpare (s : State) (a : Nat) : State :=
  let s1 := ((s.setChan a { s.chan a with spare := none }).setF (F.CONV_CH_STATUS_NO_SPARE a)).put (F.CONV_CH_STATUS_SPARE_POS a) 0xFF
  if (s1.arrays a).any (fun b => (s1.chan b).spare.isSome) then s1
  else (s1.arrays a).foldl (fun t b => t.setChan b { t.chan b with stepPending := false }) s1

/-- The spare position of array a fails and is parked (R47). Where it was to take over a failed position's slot, that position
serves with no spare left, and the channel is fenced (log entry 64). -/
def State.spareFail (s : State) (a : Nat) : State :=
  let ch := s.chan a
  match ch.spare with
  | none => s
  | some p =>
    let s1 := ((s.setChan a { ch with parked := p :: ch.parked, takeover := none }).noSpare a).post s.lcnt 0x0203 (s.locusCh a p) 0
    if ch.takeover.isSome then s1.fenceCluster a s.lcnt else s1

/-- The position serving slot j of array a fails: the spare will take the slot, or the channel is fenced (R47). The one spare
is spoken for while a takeover waits, so a second position that fails before it fences the channel at once (log entry 64). -/
def State.serveFail (s : State) (a j : Nat) : State :=
  let ch := s.chan a
  let p := Tab.get j ch.slots j
  let s1 := s.post s.lcnt 0x0203 (s.locusCh a p) 0
  if ch.spare.isSome ∧ ch.takeover = none then s1.setChan a { ch with takeover := some j }
  else s1.fenceCluster a s.lcnt

/-- A position of an array fails, serving or spare (R47, Table 2.5). -/
def State.posFail (s : State) (a p : Nat) : State :=
  let ch := s.chan a
  if ch.spare = some p then s.spareFail a
  else match (List.range 64).find? (fun j => Tab.get j ch.slots j == p) with
    | some j => s.serveFail a j
    | none => s

/-- The spare takes the failed position's slot at boundary b; rotation of the array stops (R47). -/
def State.takeSlot (s : State) (a b : Nat) : State :=
  let ch := s.chan a
  match ch.takeover, ch.spare with
  | some j, some p =>
    let r := ch.swap j p b
    (s.setChan a { r.2 with takeover := none, parked := r.1 :: ch.parked }).noSpare a
  | _, _ => s

/-- The schedule of channel n at boundary b: each due boundary one period after the one before (R45). -/
def State.schedule (s : State) (n b : Nat) : State :=
  let ch := s.chan n
  match ch.due with
  | some d =>
    if d ≤ b then s.setChan n { ch with due := some (d + s.rotPeriod), stepPending := ch.stepPending || ch.spare.isSome } else s
  | none => s

/-- Step 5 of R15 for channel n at boundary b, once per boundary: a waiting takeover (R47), the schedule, and the pending step
(R45, R46). The arrays of a pair keep their own schedules and step together. -/
def State.rotate (s : State) (n b : Nat) : State :=
  if (s.chan n).rotAt = some b ∨ bitOf s.fenceMask n then s
  else
    let arrs := if n % 2 = 1 then [n] else s.arrays n
    let s2 := arrs.foldl (fun t a => (t.takeSlot a b).schedule a b) (s.setChan n { s.chan n with rotAt := some b })
    if n % 2 = 1 ∧ paired s.regs n then s2.showDue n b
    else
      let can := arrs.any (fun a => (s2.chan a).spare.isSome)
      let s3 := if arrs.any (fun a => (s2.chan a).stepPending) ∧ can then s2.rotDecide n b else s2
      s3.showDue n b

/-- The next tick boundary whose actions are still to run. -/
def State.nextTick (s : State) : Nat := s.tick + tickLen

/-- ROTATION_STEP_DUE: the step of channel n at the next boundary (R46). -/
def execRotationStepDue (n : Fin 48) (s : State) : Host.Outcome State Fault Refusal :=
  .next ((s.at_ s.nextTick).rotate n s.nextTick)

/-- The first commit since a reset of the CONV block schedules the first due boundary (R45). -/
def State.rotStart (s : State) (b : Nat) : State :=
  (List.range 48).foldl (fun t n =>
    if (t.chan n).due = none then (t.setChan n { t.chan n with due := some (b + t.rotPeriod) }).showDue n b else t) s

/-! ### Checks of positions (R47) -/

/-- SPARE_TAKEOVER, at the next boundary (R47). -/
def execSpareTakeover (n : Fin 48) (s : State) : Host.Outcome State Fault Refusal :=
  .next (if (s.chan n).takeover.isSome then (s.at_ s.nextTick).takeSlot n s.nextTick else s)

/-- Criteria of Table 2.5 on an estimate of the spare: |o| > 32 LSB, g outside 0.95 to 1.05, |skew| > 1.5 ps, one code. -/
def estBad (e : TrimEst) : Bool :=
  e.stuck || decide (2048 < e.off) || decide (e.off < -2048) || decide (100 * e.gain < 95 * 65536)
    || decide (105 * 65536 < 100 * e.gain) || decide (1500 < e.skewFs) || decide (e.skewFs < -1500)

/-- New coefficients of a position, from word i on. -/
def State.loadCoef (s : State) (a p : Nat) : Nat → List Nat → State
  | _, [] => s
  | i, v :: vs => (s.put (F.CONV_COEF_VALUE a p i) v).loadCoef a p (i + 1) vs

/-- TRIM_ESTIMATE: the estimate of array n's spare (R47, R324). -/
def execTrimEstimate (n : Fin 48) (est : TrimEst) (s : State) : Host.Outcome State Fault Refusal :=
  let ch := s.chan n
  .next (match ch.spare with
    | none => s
    | some p =>
      if s.flag F.CONV_ROT_CTRL_EN = false then s
      else if est.disturbed then
        (s.setChan n { ch with stale := p :: ch.stale.filter (fun x => x != p) }).setF (F.CAL_CH_STATUS_TRIM_STALE n)
      else if estBad est then s.spareFail n
      else
        let left := ch.stale.filter (fun x => x != p)
        let s1 := (s.setChan n { ch with stale := left }).loadCoef n p 0
          (enc 16 est.off :: est.gain % 2 ^ 18 :: est.taps.map (enc 18))
        if left = [] then s1.clrF (F.CAL_CH_STATUS_TRIM_STALE n) else s1)

/-- The misses of slot j in a row since its position took it, for the mean and for the mean square (Table 2.5, log entry 63). -/
def Chan.missesOf (ch : Chan) (j : Nat) : Nat × Nat :=
  let w : Int := ch.monWords
  let all := ((List.range 64).map (fun i => Tab.get 0 ch.monSum i)).sum
  let sq := ((List.range 64).map (fun i => Tab.get 0 ch.monSq i)).sum
  let d := 64 * Tab.get 0 ch.monSum j - all
  let e := 64 * Tab.get 0 ch.monSq j - sq
  let old := Tab.get (0, 0) ch.monBad j
  (if 1024 * w < d ∨ d < -(1024 * w) then old.1 + 1 else 0, if sq < 4 * e ∨ 4 * e < -sq then old.2 + 1 else 0)

/-- The slot monitor at the end of a tick (R47, Table 2.5). -/
def State.monitorCheck (s : State) (a : Nat) : State :=
  let ch := s.chan a
  if ch.monWords = 0 then s
  else
    let bad := (List.range 64).map (fun j => (j, ch.missesOf j))
    let s1 := s.setChan a { ch with monSum := [], monSq := [], monWords := 0, monBad := bad.filter (fun p => p.2 != (0, 0)) }
    (bad.filter (fun p => ch.takeover != some p.1 && (2 ≤ p.2.1 || 2 ≤ p.2.2))).foldl (fun t p => t.serveFail a p.1) s1

/-- SLOT_MONITOR_CHECK (R47). -/
def execSlotMonitorCheck (n : Fin 48) (s : State) : Host.Outcome State Fault Refusal := .next (s.monitorCheck n)

end Sys2Proof.Machine
end

