-- ==== Sys2Proof/Machine/Store.lean ====
section
/-! DEFINITION. The central store's integrity rows (spec/07): read bursts, row and lane repair, stack failure. -/

namespace Sys2Proof.Machine

/-- The locus of a pseudo-channel (Table 7.1). -/
def State.locusPc (s : State) (pc : Nat) : Nat := s.locus (10 + pc / 32) 15 (pc / 4 % 8) (pc % 4)

/-- The row of a pseudo-channel that holds a burst address (R160). -/
def State.rowOf (s : State) (addr : Nat) : Nat := addr / 256 / (max 1 s.activePcs.length) / 8

/-- The key of a row in the corrected-error counts. -/
def rowKey (pc row : Nat) : Nat := row * 128 + pc

/-- The channel group of a pseudo-channel awaits fencing at the next cold reset (R156). -/
def State.failPending (s : State) (pc : Nat) : State :=
  let f := F.STO_REPAIR_FAIL_PENDING (pc / 32)
  if s.sto.pendPc.contains pc then s
  else
    let s1 := { (s.put f (setBit (s.get f) (pc / 4 % 8))).setF F.STO_STATUS_FAIL_PENDING with
      sto := { s.sto with pendPc := pc :: s.sto.pendPc } }
    s1.post s.lcnt 0x0803 (s.locusPc pc) 0

/-- A whole channel group of stack k awaits fencing at the next cold reset (R156); no unit applies in its locus (R2). -/
def State.groupPending (s : State) (k g : Nat) : State :=
  let f := F.STO_REPAIR_FAIL_PENDING k
  ((s.put f (setBit (s.get f) g)).setF F.STO_STATUS_FAIL_PENDING).post s.lcnt 0x0803 (s.locus (10 + k) 15 g 0xFF) 0

/-- A whole stack awaits fencing at the next cold reset (R156). -/
def State.stackPending (s : State) (k : Nat) : State :=
  ((s.put (F.STO_REPAIR_FAIL_PENDING k) 255).setF F.STO_STATUS_FAIL_PENDING).post s.lcnt 0x0803 (s.locus (10 + k) 15 0xFF 0xFF) 0

/-- A row is to be replaced: its copy starts, or no spare is left (R160). -/
def State.rowRepair (s : State) (pc row : Nat) : State :=
  if s.sto.copies.any (fun c => c.1 == pc && c.2 == row) then s
  else
    let used := Tab.get 0 s.sto.rowsUsed pc + (s.sto.copies.filter (fun c => c.1 == pc)).length
    if used < 64 then
      { (s.setF F.STO_STATUS_REPAIR_ACTIVE) with sto := { s.sto with copies := s.sto.copies ++ [(pc, row)] } }
    else s.failPending pc

/-- A stack fails at core cycle c: the group's account to the failure (R173 steps 1 and 2). -/
def State.stackStop (s : State) (g c : Nat) : State :=
  let gr := s.grp g
  if gr.armed = false then s
  else
    let from_ := max (gr.durable + 1) gr.armLcnt
    let torn := gr.cur.toList.map (fun r => (r.num, r.s, min r.e (c - 1)))
    let s1 := s.setGrp g { gr with
      cur := none
      pastRecs := torn ++ gr.pastRecs
      ePrev := match torn with
        | p :: _ => some p.2.2
        | [] => gr.ePrev }
    (if from_ < c then s1.addLoss g ⟨1, allChans, from_, some c⟩ else s1).endAcq g c

/-- Stack k fails in core cycle c (R173). -/
def State.stackFail (s : State) (k c : Nat) : State :=
  if s.sto.failed.contains k then s
  else
    let s1 := (List.range 16).foldl (fun t g => t.stackStop g c) s
    let s2 := { s1 with sto := { s1.sto with failed := k :: s1.sto.failed } }
    ((s2.put (F.STO_REPAIR_FAIL_PENDING k) 255).setF F.STO_STATUS_FAIL_PENDING).post c 0x0802 (s.locus (10 + k) 15 0xFF 0xFF) 0

/-- An uncorrectable error of a burst (R158, R160, R173). -/
def State.storeUe (s : State) (addr : Nat) (link : Bool) : State :=
  let pc := s.pcOf addr
  let b := addr / 256
  let s1 := if s.flag F.STO_STATUS_UE_SEEN then s else s.putN R.STO_ECC_ADDR 2 (256 * b)
  let s2 := ((s1.setF F.STO_STATUS_UE_SEEN).incSat F.STO_ECC_UE_CNT_COUNT).post s.lcnt 0x0801 (s.locusPc pc) 0
  let now := s.lcnt / tickLen
  let ue := if s.sto.ueTick.any (fun p => p.1 == now) then s.sto.ueTick else []
  let s3 := { s2 with sto := { s2.sto with
    ueTick := (now, pc / 4) :: ue
    bad := if link then s2.sto.bad else b :: s2.sto.bad
    badLink := if link then b :: s2.sto.badLink else s2.sto.badLink } }
  let s4 := s3.rowRepair pc (s.rowOf addr)
  if ue.any (fun p => p.2 / 8 == pc / 32 && p.2 != pc / 4) then s4.stackFail (pc / 32) s.lcnt else s4

/-- A corrected error of a burst (R158, R160). -/
def State.storeCe (s : State) (addr : Nat) : State :=
  let pc := s.pcOf addr
  let k := rowKey pc (s.rowOf addr)
  let n := Tab.get 0 s.sto.rowCe k + 1
  let s1 := (s.setF F.STO_STATUS_CE_SEEN).incSat F.STO_ECC_CE_CNT_COUNT
  let s2 := { s1 with sto := { s1.sto with rowCe := Tab.set s1.sto.rowCe k n, scrubQ := s1.sto.scrubQ ++ [addr / 256] } }
  if 2 ≤ n then s2.rowRepair pc (s.rowOf addr) else s2

/-- Link retries of a burst: they are served in class REPAIR (R157, R164), and count to the lane (R160). The CRC covers a burst
over all lanes of its pseudo-channel, so every failure counts to the one lane that the spare would replace (log entry 75). -/
def State.storeCrc (s : State) (addr n : Nat) : State :=
  if n = 0 then s
  else
    let pc := s.pcOf addr
    let k := Tab.get 0 s.sto.laneCrc pc + n
    let s1 := (s.addSat F.STO_CRC_RETRY_CNT_COUNT (min n 4)).served 6 (256 * min n 4)
    { s1 with sto := { s1.sto with
      laneCrc := Tab.set s1.sto.laneCrc pc k
      laneDue := if 16 < k ∧ !(s1.sto.laneDue.contains pc) then s1.sto.laneDue ++ [pc] else s1.sto.laneDue } }

/-- The scrubber can read the burst next: it lies in the page at the scrub position and has not been read in it (R159; the
order within a page is not stated), or it waits for its write-back's read. -/
def State.scrubs (s : State) (b : Nat) : Bool :=
  (b / 256 == s.get F.STO_SCRUB_POS_PAGE && !s.sto.scrubSeen.contains b) || s.sto.scrubQ.contains b

/-- The scrubber has read burst b: pages follow in ascending order, page 0 after the last (R159, R160). -/
def State.scrubbed (s : State) (b : Nat) : State :=
  let page := s.get F.STO_SCRUB_POS_PAGE
  if b / 256 ≠ page ∨ s.sto.scrubSeen.contains b then s
  else if s.sto.scrubSeen.length + 1 < 256 then { s with sto := { s.sto with scrubSeen := b :: s.sto.scrubSeen } }
  else
    let s1 : State := { s with sto := { s.sto with scrubSeen := [] } }
    if page + 1 < s.capPages then s1.put F.STO_SCRUB_POS_PAGE (page + 1)
    else
      let s2 := (s1.put F.STO_SCRUB_POS_PAGE 0).incWrap F.STO_SCRUB_PASS_CNT_COUNT
      { s2 with sto := { s2.sto with rowCe := [] } }

/-- A burst is read over the link: CRC failures, then the ECC result (R157, R158). -/
def State.burstRead (s : State) (addr crcFails : Nat) (ecc : EccResult) : State :=
  let s1 := s.storeCrc addr crcFails
  if 5 ≤ crcFails then s1.storeUe addr true
  else match ecc with
    | .good => s1
    | .corrected => s1.storeCe addr
    | .uncorrectable => s1.storeUe addr false

/-- STORE_READ_BURST: a burst of a class's read, with its link CRC failures and its ECC result. An address outside the store
reads nothing (R153). The scrubber reads in its own order and with its own capacity (R159, R165); the bytes of another class's
read are asked for by the command that reads them. -/
def execStoreReadBurst (cls : Fin 7) (addr crcFails : Nat) (ecc : EccResult) (s : State) : Host.Outcome State Fault Refusal :=
  .next (if s.capPages * 65536 ≤ addr then s
    else if cls = 4 then
      (let q := s.ask 4 (addr / 256) 256
       if s.scrubs (addr / 256) = false then s
       else if q.1 then (q.2.burstRead addr crcFails ecc).scrubbed (addr / 256)
       else q.2)
    else s.burstRead addr crcFails ecc)

/-- The spare row serves from boundary b on: its errors are its own (R160). -/
def State.rowSwitch (s : State) (pc row b : Nat) : State :=
  let left := s.sto.copies.filter (fun c => !(c.1 == pc && c.2 == row))
  let f := F.STO_REPAIR_SPARE_ROWS (pc / 32)
  let s1 := (s.at_ b).put f (s.get f - 1)
  let s2 : State := { s1 with sto := { s1.sto with
    copies := left
    rowCe := Tab.set s1.sto.rowCe (rowKey pc row) 0
    rowsUsed := Tab.set s1.sto.rowsUsed pc (Tab.get 0 s1.sto.rowsUsed pc + 1) } }
  s2.putB F.STO_STATUS_REPAIR_ACTIVE (left != [])

/-- ROW_REPAIR_SWITCH: the copy, 4096 bytes of class REPAIR, is done, and the spare row serves from the next boundary on (R160);
a copy that finds no capacity waits, and the row is served with ECC (Table 7.4). -/
def execRowRepairSwitch (pc : Fin 128) (row : Nat) (s : State) : Host.Outcome State Fault Refusal :=
  .next (if s.sto.copies.any (fun c => c.1 == pc.val && c.2 == row) then
      (let q := s.ask 6 (rowKey pc row) 4096
       if q.1 then q.2.rowSwitch pc row (boundaryAt s.lcnt) else q.2)
    else s)

/-- LANE_SPARE_REPLACE: at the next boundary the spare lane takes over, or no spare is left (R160). -/
def execLaneSpareReplace (pc : Fin 128) (s : State) : Host.Outcome State Fault Refusal :=
  .next (if s.sto.laneDue.contains pc.val then
      (let b := boundaryAt s.lcnt
       let s0 := s.at_ b
       let s1 := { s0 with sto := { s0.sto with laneDue := s0.sto.laneDue.filter (fun x => x != pc.val) } }
       if s1.sto.laneUsed.contains pc.val then s1.failPending pc
       else
         let f := F.STO_REPAIR_SPARE_LANES (pc / 32)
         { (s1.put f (s1.get f - 1)) with sto := { s1.sto with laneUsed := pc.val :: s1.sto.laneUsed } })
    else s)

/-- STACK_FAILURE: a stack's link is lost in core cycle c (R173). -/
def execStackFailure (k : Fin 4) (c : Nat) (s : State) : Host.Outcome State Fault Refusal := .next ((s.at_ c).stackFail k c)

end Sys2Proof.Machine
end

