-- ==== Sys2Proof/Machine/Ethernet.lean ====
section
/-! DEFINITION. Ethernet streams (spec/08): ports, frames, packet forming and transmission, pause, received frames. -/

namespace Sys2Proof.Machine

/-! ### Ports (R174) -/

/-- Lanes per port in lane group k. -/
def lanesIn (r : RegTab) (k : Nat) : Nat := 2 ^ (r.fld F.STM_LG_MODE_MODE / 4 ^ k % 4)

/-- Lane p is the lowest lane of a port. -/
def isPort (r : RegTab) (p : Nat) : Bool := p % lanesIn r (p / 16) == 0

/-- The lane that a register of ports belongs to (Tables 8.11 and 12.5). -/
def portOff (off : Nat) : Option Nat :=
  if 0x801000 ≤ off ∧ off < 0x803000 then some ((off - 0x801000) / 0x40)
  else if 0xC00200 ≤ off ∧ off < 0xC00400 then some ((off - 0xC00200) / 4)
  else none

/-- The register exists under these lane group modes: registers of a lane that is not a port's lowest do not (R174; log entry 84). -/
def portHere (r : RegTab) (off : Nat) : Bool := match portOff off with
  | some p => isPort r p
  | none => true

/-- The lane group modes as the shadow set holds them: those under which the staged fields of port registers exist (log entry 84). -/
def State.stagedModes (s : State) : RegTab := [(R.STM_LG_MODE, s.shadowWord R.STM_LG_MODE)]

/-- A port's locus, with the failing lane as unit; all ones where no lane fails (R2, R174). -/
def State.locusPort (s : State) (p : Nat) (lane : Option Nat) : Nat :=
  s.locus (7 + p / 64) (p / 16 % 4) (p % 64 / lanesIn s.regs (p / 16)) (match lane with
    | some l => l % 64
    | none => 255)

/-- The link of a port is up. -/
def State.linkUp (s : State) (p : Nat) : Bool := s.flag (F.STM_PORT_STATUS_LINK p)

/-- The ports of a stream's set. -/
def State.portSet (s : State) (q : Nat) : List Nat :=
  (List.range 128).filter (fun p => bitOf (s.get (F.STM_Q_PORTS_PORTS q (p / 32))) (p % 32))

/-- Bytes of a packet's frame from the destination address through the FCS (Table 8.3). -/
def overhead (encap : Nat) (tag : Bool) : Nat :=
  (if encap = 0 then 50 else if encap = 1 then 78 else 98) + (if tag then 4 else 0)

def Pkt.size (x : Pkt) : Nat := overhead x.encap x.vlan.isSome + x.payload

/-- Bytes waiting on a port. -/
def Port.waiting (x : Port) : Nat := (x.queue.map Pkt.size).sum

/-- The port a packet goes to: the one of the set with the fewest bytes waiting, the lowest of equals (R188, R192). -/
def State.pickPort (s : State) (q : Nat) : Option Nat :=
  ((s.portSet q).filter s.linkUp).foldl (fun b p => match b with
    | none => some p
    | some x => if (s.port p).waiting < (s.port x).waiting then some p else some x) none

/-- A stream's largest fragment (R179). -/
def State.fragment (s : State) (q : Nat) : Nat :=
  (s.get (F.STM_Q_FRAME_FRAME_MAX q) - overhead (s.get (F.STM_Q_CTRL_ENCAP q)) (s.flag (F.STM_Q_CTRL_VLAN_EN q))) / 64 * 64

/-! ### Frames (R178) -/

/-- The sum of 16-bit words of a byte list, most significant byte first. -/
def sum16 : List Byte → Nat
  | [] => 0
  | [a] => a.toNat * 256
  | a :: b :: rest => a.toNat * 256 + b.toNat + sum16 rest

/-- The one's complement checksum of a sum. -/
def checksum (x : Nat) : Nat :=
  let a := x / 65536 + x % 65536
  let b := a / 65536 + a % 65536
  65535 - (b / 65536 + b % 65536)

/-- Four words of an IPv6 address in transmission order. -/
def State.ipv6Of (s : State) (p : Nat) : List Byte :=
  (List.range 4).flatMap (fun i => beBytes 4 (s.get (F.STM_PORT_IPV6_ADDR p i)))

/-- The UDP datagram of a packet with the pseudo header it is checked over. -/
def udpBytes (src dst : Nat) (csum : Bool) (pseudo body : List Byte) : List Byte :=
  let len := 8 + body.length
  let hdr := packBE [(2, src), (2, dst), (2, len)]
  let c := checksum (sum16 (pseudo ++ packBE [(4, len), (4, 17)]) + sum16 hdr + sum16 body)
  hdr ++ beBytes 2 (if csum then (if c = 0 then 65535 else c) else 0) ++ body

/-- The bytes of a packet's frame on port p, without the FCS, which the MAC adds (log entry 27). -/
def State.frameBytes (s : State) (p : Nat) (x : Pkt) : List Byte :=
  let eth := beBytes 6 x.dmac ++ beBytes 6 (s.getN (R.STM_PORT_MAC p) 2) ++ (match x.vlan with
    | some t => packBE [(2, 0x8100), (2, t)]
    | none => [])
  let src := x.udp / 65536
  let dst := x.udp % 65536
  match x.encap with
  | 0 => eth ++ beBytes 2 0x88B5 ++ x.body
  | 1 =>
    let a := beBytes 4 (s.get (F.STM_PORT_IPV4_ADDR p))
    let b := beBytes 4 (x.dip / 2 ^ 96)
    let u := udpBytes src dst x.csum (a ++ b) x.body
    let h := packBE [(1, 0x45), (1, 4 * x.dscp), (2, 20 + u.length), (2, 0), (2, 0x4000), (1, x.ttl), (1, 17)]
    eth ++ beBytes 2 0x0800 ++ h ++ beBytes 2 (checksum (sum16 h + sum16 a + sum16 b)) ++ a ++ b ++ u
  | _ =>
    let a := s.ipv6Of p
    let b := beBytes 16 x.dip
    let u := udpBytes src dst true (a ++ b) x.body
    eth ++ beBytes 2 0x86DD ++ packBE [(4, 0x60000000 + x.dscp * 4194304), (2, u.length), (1, 17), (1, x.ttl)] ++ a ++ b ++ u

/-! ### Streams -/

/-- Eligible bytes of a stream not transmitted yet (STM_Q_BACKLOG). -/
def State.backlogOf (s : State) (q : Nat) : Nat :=
  let x := s.strm q
  let now := s.tick / tickLen
  let begun := match x.cur with
    | some i => (i.ranges.map (fun r => r.2)).sum
    | none => 0
  let queued := ((List.range 128).map (fun p => (((s.port p).queue.filter (fun k => k.q == q && k.typ != 3)).map
    (fun k => k.payload)).sum)).sum + (x.back.map (fun k => k.payload)).sum
  let waiting := match s.get (F.STM_Q_CTRL_KIND q) with
    | 0 =>
      let g := s.get (F.STM_Q_CTRL_GROUP q)
      let gr := s.grp g
      let sel := s.getN (R.STM_Q_SEL q) 2 % 2 ^ 48
      let l := layoutOf s.regs g
      ((gr.items.filter (fun i => x.next ≤ i.ord && i.tick + 2 ≤ now)).map (fun i =>
        if i.kind = 2 then (if s.flag (F.STM_Q_CTRL_GAP_EN q) && Nat.land i.mask sel != 0 then 64 else 0)
        else if (i.kind == 1) = s.flag (F.STM_Q_CTRL_MEAS_EN q) then
          (if s.flag (F.STM_Q_CTRL_MEAS_EN q) then l.payload else 256)
            + (bitsSet 48 (Nat.land sel (s.grpMask g))).length * l.stride
        else 0)).sum
    | 1 => ((s.frames.filter (fun f => x.next ≤ f.pub && s.carries q f)).map (fun f => f.len)).sum
    | _ => 32 * ((s.get F.LOG_WR_SEQ_SEQ + 2 ^ 32 - x.next) % 2 ^ 32)
  begun + queued + waiting

/-- A stream's status registers: ACTIVE, NO_PORT, BACKLOG. -/
def State.showStrm (s : State) (q : Nat) : State :=
  ((s.putB (F.STM_Q_STATUS_ACTIVE q) (s.strm q).cur.isSome).putB (F.STM_Q_STATUS_NO_PORT q)
    (((s.portSet q).filter s.linkUp).isEmpty)).put (F.STM_Q_BACKLOG_BYTES q) (min (s.backlogOf q) 0xFFFFFFFF)

/-- The 802.1Q priority of a packet; untagged frames count as 0 (R190). -/
def Pkt.pcp (x : Pkt) : Nat := match x.vlan with
  | some t => t / 8192
  | none => 0

/-- The first packet of each stream waiting on a port that may start. -/
def heads (ok : Pkt → Bool) : List Nat → List Pkt → List Pkt
  | _, [] => []
  | seen, x :: xs =>
    if seen.contains x.q then heads ok seen xs
    else if ok x then x :: heads ok (x.q :: seen) xs else heads ok (x.q :: seen) xs

/-- The packet that the stream at turn may send within its deficit. -/
def Port.serve (x : Port) (c : List Pkt) : Option (Pkt × Port) :=
  match c.find? (fun k => k.q == x.turn) with
  | some k =>
    let d := Tab.get 0 x.deficit k.q
    if k.payload ≤ d then some (k, { x with deficit := Tab.set x.deficit k.q (d - k.payload) }) else none
  | none => none

/-- The turn passes to the next stream, which gains a quantum; a stream with nothing waiting keeps no deficit. -/
def Port.nextTurn (x : Port) (quantum : Nat → Nat) (c : List Pkt) : Port :=
  let qs := sortNat (c.map (fun k => k.q))
  let def_ := x.deficit.filter (fun p => x.queue.any (fun k => k.q == p.1))
  match (qs.find? (fun q => x.turn < q)).orElse (fun _ => qs.head?) with
  | some q => { x with turn := q, deficit := Tab.set def_ q (Tab.get 0 def_ q + quantum q) }
  | none => x

/-- Deficit round-robin over the streams of one level (R188): the packet sent and the port's state after. -/
def Port.drr (x : Port) (quantum : Nat → Nat) (c : List Pkt) : Nat → Option (Pkt × Port)
  | 0 => none
  | fuel + 1 => match x.serve c with
    | some r => some r
    | none => Port.drr (x.nextTurn quantum c) quantum c fuel

/-- The next packet a port sends: time markers first, then the lowest PRIO level by deficit round-robin (R188, R190). -/
def State.nextPkt (s : State) (p : Nat) : Option (Pkt × Port) :=
  let x := s.port p
  let free := heads (fun k => !s.heldPrio p k.pcp) [] (x.queue.filter (fun k => k.typ == 3))
  match free.head? with
  | some k => some (k, x)
  | none =>
    let c := heads (fun k => !s.heldPrio p k.pcp) [] (x.queue.filter (fun k => k.typ != 3))
    let lvl := c.foldl (fun m k => min m k.prio) 8
    let cl := c.filter (fun k => k.prio == lvl)
    let longest := cl.foldl (fun m k => max m k.payload) 0
    x.drr (fun q => max 64 (s.fragment q)) cl (cl.length * (longest / 64 + 2) + 2)

/-- An idle port starts its next frame (R190). -/
def State.startFrame (s : State) (p : Nat) : State :=
  if s.linkUp p = false ∨ (s.port p).started.isSome then s
  else match s.nextPkt p with
    | none => s
    | some r => s.setPort p { r.2 with started := some r.1 }

/-- A formed packet waits on a port, or with its stream when no port is up. -/
def State.sendPkt (s : State) (x : Pkt) : State :=
  match s.pickPort x.q with
  | some p => (s.setPort p { s.port p with queue := (s.port p).queue ++ [x] }).startFrame p
  | none => s.setStrm x.q { s.strm x.q with back := (s.strm x.q).back ++ [x] }

/-- A packet is formed with the next sequence (R180, R185, R198). Skipped records show on the first fragment of the next record, other
skipped items on the next packet of their type (R193). -/
def State.formPkt (s : State) (q typ num off lcnt : Nat) (payload : List Byte) (first last poison : Bool) (rel : Release) :
    State :=
  let x := s.strm q
  let seq := s.get (F.STM_Q_SEQ_SEQ q)
  let st := netTimeIn (s.epochAt lcnt) (65536 * lcnt)
  let skipped := x.skip.contains typ && (typ != 1 || first)
  let flags := (if first then 1 else 0) + (if last then 2 else 0) + (if poison then 4 else 0) + (if skipped then 8 else 0)
  let hdr := packBE [(1, 1), (1, typ), (2, q), (4, seq), (4, st.sec * 1000000000 + st.ns), (4, num), (4, off / 64),
    (2, payload.length), (2, flags)]
  let tci := s.get (F.STM_Q_CTRL_PCP q) * 8192 + s.get (F.STM_Q_DMAC_VID q)
  let dip := (List.range 4).foldl (fun a i => a * 2 ^ 32 + s.get (F.STM_Q_DIP_ADDR q i)) 0
  let k : Pkt :=
    { q := q, typ := typ, seq := seq, prio := s.get (F.STM_Q_CTRL_PRIO q), encap := s.get (F.STM_Q_CTRL_ENCAP q),
      vlan := if s.flag (F.STM_Q_CTRL_VLAN_EN q) then some tci else none, dmac := s.getN (R.STM_Q_DMAC q) 2 % 2 ^ 48,
      dip := dip, udp := (s.word (R.STM_Q_UDP q)).toNat, ttl := s.get (F.STM_Q_FRAME_TTL q),
      dscp := s.get (F.STM_Q_FRAME_DSCP q), csum := s.flag (F.STM_Q_CTRL_UDP_CSUM4 q),
      body := hdr ++ beBytes 4 (crc32c hdr) ++ beBytes 4 0 ++ payload, payload := payload.length, rel := rel }
  let s1 := (s.setStrm q { x with skip := if skipped then x.skip.filter (fun t => t != typ) else x.skip }).incWrap (F.STM_Q_SEQ_SEQ q)
  s1.sendPkt k

/-- The store addresses of an image's 64-byte units. -/
def unitAddrs (pages : List Nat) (off len : Nat) : List Nat :=
  (List.range (len / 64)).map (fun i =>
    let o := off + 64 * i
    65536 * ((pages[o / 65536]?).getD 0) + o % 65536)

/-- Bytes of an image, poisoned bursts as zeros, and the bursts that were poisoned (R194, R223). -/
def State.imageBytes (s : State) (pages : List Nat) (off len : Nat) : List Byte × List Nat :=
  let as := unitAddrs pages off len
  (as.flatMap (fun a => if s.poisoned a then List.replicate 64 (0 : Byte) else s.sreads a 64),
   ((as.filter s.poisoned).map (fun a => a / 256)).dedup)

/-- Little-endian fields of a stored header. -/
def State.hdrField (s : State) (pages : List Nat) (off n : Nat) : Nat :=
  leValue (s.sreads (65536 * (pages.headD 0) + off) n)

/-- Runs of consecutive channels as ranges of the image: offset and length (R184). -/
def chanRanges (payload stride mask : Nat) : Option (Nat × Nat × Nat) → List Nat → List (Nat × Nat)
  | none, [] => []
  | some (o, l, _), [] => [(o, l)]
  | none, n :: ns => chanRanges payload stride mask (some (payload + rankIn mask n * stride, stride, n)) ns
  | some (o, l, k), n :: ns =>
    if n = k + 1 then chanRanges payload stride mask (some (o, l + stride, n)) ns
    else (o, l) :: chanRanges payload stride mask (some (payload + rankIn mask n * stride, stride, n)) ns

/-- The ranges of a record that a stream sends (R184). -/
def State.recordRanges (s : State) (pages : List Nat) (sel : Nat) (meas : Bool) : List (Nat × Nat) :=
  let payload := s.hdrField pages 0x70 4
  let mask := s.hdrField pages 0x40 6
  (0, if meas then payload else 256) ::
    chanRanges payload (s.hdrField pages 0x74 4) mask none (bitsSet 48 (Nat.land mask sel))

/-- Data for these pages is staged and not yet written. -/
def State.pagesStaged (s : State) (pages : List Nat) : Bool :=
  (s.stageFill ++ s.stageDrain).any (fun w => pages.contains (w.addr / 524288))

/-- A record stream begins the next eligible item of its group; gap descriptors go out at once (R184, R186, R193). -/
def State.nextItem (s : State) (q g : Nat) : List StmItem → State
  | [] => s
  | i :: rest =>
    let x := s.strm q
    let meas := s.flag (F.STM_Q_CTRL_MEAS_EN q)
    let sel := s.getN (R.STM_Q_SEL q) 2 % 2 ^ 48
    let pass := s.setStrm q { x with next := i.ord + 1 }
    if i.ord < x.next then s.nextItem q g rest
    else if i.kind = 2 ∧ (s.flag (F.STM_Q_CTRL_GAP_EN q) = false ∨ Nat.land i.mask sel = 0) then pass.nextItem q g rest
    else if i.kind ≠ 2 ∧ (i.kind == 1) ≠ meas then pass.nextItem q g rest
    else if s.tick / tickLen < i.tick + 2 then s
    else if i.kind = 2 then
      (let cap := 1024 * gapPages s.regs g
       if i.num + cap ≤ (s.grp g).nextGap then
         (((pass.setStrm q { x with next := i.ord + 1, skip := 2 :: x.skip }).incSat (F.STM_Q_SKIP_CNT_COUNT q)).setF
           (F.STM_Q_STATUS_SKIP_SEEN q)).nextItem q g rest
       else
         let a := 65536 * s.get (F.REC_GRP_GAP_RING_PAGE g) + 64 * i.slot
         let bad := s.poisoned a
         let s1 := if bad then (pass.incSat (F.STM_Q_POISON_CNT_COUNT q)).setF (F.STM_Q_STATUS_POISON_SEEN q) else pass
         s1.formPkt q 2 i.num 0 i.start (if bad then List.replicate 64 (0 : Byte) else s.sreads a 64) true true bad .none)
    else match (s.grp g).slots.find? (fun y => y.num == i.num) with
      | none => pass.nextItem q g rest
      | some y =>
        let pages := (List.range y.pages).map (fun k => s.physPage g (y.lpage + k))
        let item : StItem := ⟨.record g i.num, 1, s.hdrField pages 0x10 8, i.num, pages, s.recordRanges pages sel meas⟩
        if s.pagesStaged pages then s else (s.setStrm q { x with next := i.ord + 1, cur := some item }).setPins g (pinKey q i.num) pages

/-- A tally stream begins the next frame (R187). -/
def State.nextFrame (s : State) (q : Nat) : List Frame → State
  | [] => s
  | f :: rest =>
    let x := s.strm q
    if f.pub < x.next then s.nextFrame q rest
    else if s.carries q f = false then (s.setStrm q { x with next := f.pub + 1 }).nextFrame q rest
    else if s.tick / tickLen < f.tick + 1 then s
    else
      let pages := (List.range f.pages).map (fun k => s.get F.TAL_RING_BASE_PAGE + f.page + k)
      { (s.setStrm q { x with next := f.pub + 1, cur := some ⟨.frame f.pub, 5, f.lcnt, f.num, pages, [(0, f.len)]⟩ }) with
        frames := s.frames.map (fun y => if y.pub = f.pub then { y with pins := y.pins + 1 } else y) }

/-- The sequence after the last log entry that the store copy holds (R188, R391). -/
def State.logStored (s : State) : Option Nat :=
  (s.log.copied.find? (fun p => p.1 + 2 * tickLen ≤ s.tick)).map (fun p => p.2)

/-- Entries of the log ring and of its store copy (R391). -/
def logSlots : Nat := 4096

/-- A log stream sends its next entry; entries overwritten in the copy are skipped (R187, R193). -/
def State.nextLog (s : State) (q upto : Nat) : Nat → State
  | 0 => s
  | fuel + 1 =>
    let x := s.strm q
    let left := (upto + 2 ^ 32 - x.next) % 2 ^ 32
    if left = 0 ∨ 2 ^ 31 ≤ left then s
    else
      let a := 65536 * s.get F.LOG_STORE_PAGE + 32 * (x.next % 4096)
      let bs := s.sreads a 32
      let pass := s.setStrm q { x with next := (x.next + 1) % 2 ^ 32 }
      if s.poisoned a then
        ((pass.incSat (F.STM_Q_POISON_CNT_COUNT q)).setF (F.STM_Q_STATUS_POISON_SEEN q)).formPkt q 4 x.next 0 s.tick
          (List.replicate 32 (0 : Byte)) true true true .none
      else if leValue (bs.drop 28) = x.next then pass.formPkt q 4 x.next 0 (leValue (bs.take 8)) bs true true false .none
      else
        (((pass.setStrm q { x with next := (x.next + 1) % 2 ^ 32, skip := 4 :: x.skip }).incSat (F.STM_Q_SKIP_CNT_COUNT q)).setF
          (F.STM_Q_STATUS_SKIP_SEEN q)).nextLog q upto fuel

/-- The next fragment of the image in progress (R184). -/
def State.nextFragment (s : State) (q : Nat) (i : StItem) : State :=
  match i.ranges with
  | [] => s.setStrm q { s.strm q with cur := none }
  | (off, len) :: rest =>
    let n := min len (max 64 (s.fragment q))
    let left := if n < len then (off + n, len - n) :: rest else rest
    let b := s.imageBytes i.pages off n
    let last := left == []
    let s1 := s.setStrm q { s.strm q with cur := if last then none else some { i with ranges := left } }
    let s2 := if b.2 = [] then s1 else
      (s1.addSat (F.STM_Q_POISON_CNT_COUNT q) b.2.length).setF (F.STM_Q_STATUS_POISON_SEEN q)
    s2.formPkt q i.typ i.num off i.lcnt b.1 (off == 0) last (b.2 != []) (if last then i.rel else .none)

/-- A stream with nothing in progress begins what its kind sends next (R186, R187). -/
def State.beginItem (s : State) (q : Nat) : State :=
  match s.get (F.STM_Q_CTRL_KIND q) with
  | 0 => s.nextItem q (s.get (F.STM_Q_CTRL_GROUP q)) (s.grp (s.get (F.STM_Q_CTRL_GROUP q))).items
  | 1 => s.nextFrame q s.frames
  | _ => match s.logStored with
    | some u => s.nextLog q u logSlots
    | none => s

/-- An item is in progress, or the stream begins one. -/
def State.startQueued (s : State) (q : Nat) : State :=
  match (s.strm q).cur with
  | some _ => s
  | none => s.beginItem q

/-- Store bytes that the stream's next packet reads: a fragment, or an item that is one packet. -/
def State.formBytes (s : State) (q : Nat) : Nat :=
  let s1 := s.startQueued q
  match (s1.strm q).cur with
  | some i => (match i.ranges with
    | (_, len) :: _ => min len (max 64 (s.fragment q))
    | [] => 0)
  | none =>
    if s1.get (F.STM_Q_SEQ_SEQ q) = s.get (F.STM_Q_SEQ_SEQ q) then 0
    else if s.get (F.STM_Q_CTRL_KIND q) = 0 then 64 else 32

/-- The stream forms its next packet from the store, once the STREAM class is granted its bytes (R184, R186-R188). -/
def State.formNext (s : State) (q : Nat) : State :=
  if s.flag (F.STM_Q_CTRL_EN q) = false ∨ ((s.portSet q).filter s.linkUp).isEmpty then s
  else
    let a := s.ask 0 q (s.formBytes q)
    if a.1 then
      (let s1 := a.2.startQueued q
       match (s1.strm q).cur with
       | some i => s1.nextFragment q i
       | none => s1)
    else a.2

/-- STREAM_PACKET_FORM: a standby's streams send nothing (R386). -/
def execStreamPacketForm (q : Fin 1024) (s : State) : Host.Outcome State Fault Refusal :=
  .next (if s.get F.TWIN_STATUS_ROLE = 2 then s else (s.formNext q).showStrm q)

/-- TIME_MARKER_DUE: the marker of the latest boundary, when one is due (R183). -/
def execTimeMarkerDue (q : Fin 1024) (s : State) : Host.Outcome State Fault Refusal :=
  let b := s.tick
  let e := s.epochAt b
  let due := b % (tickLen * max 1 (s.get (F.STM_Q_TMARK_TICKS q))) = 0 ∨ e.lcnt = b
  .next (if s.get F.TWIN_STATUS_ROLE ≠ 2 ∧ s.flag (F.STM_Q_CTRL_EN q) ∧ s.flag (F.STM_Q_CTRL_TMARK_EN q) ∧ due ∧ (s.strm q).marker ≠ some b
      ∧ ((s.portSet q).filter s.linkUp).isEmpty = false then
      (let st := netTimeIn e (65536 * b)
       let clk := (if s.get F.TIME_STATUS_SERVO = 2 then 1 else 0) + (if s.flag F.CLK_STATUS_FABRIC_BYP then 2 else 0)
         + (if s.get F.TIME_STATUS_SERVO = 3 then 4 else 0)
       let bs := packLE [(8, b), (2, e.num), (2, clk), (6, st.sec), (4, st.ns), (2, st.sub), (8, e.period)]
       ((s.setStrm q { s.strm q with marker := some b }).formPkt q 3 0 0 b bs true true false .none).showStrm q)
    else s)

/-! ### Transmission (R188-R192) -/

/-- What the MAC's transmission of an item's last fragment releases (R189). -/
def State.releaseItem (s : State) (q : Nat) : Release → State
  | .none => s
  | .record g num => (s.setPins g (pinKey q num) []).readerDone g num (1024 + q)
  | .frame pub => { s with frames := s.frames.map (fun f => if f.pub = pub then { f with pins := f.pins - 1 } else f) }

/-- PACKET_TRANSMIT_DONE: the frame that the port has started is completed, whatever pause came since, and the next one starts
(R188-R190). -/
def execPacketTransmitDone (p : Fin 128) (s : State) : Host.Outcome State Fault Refusal :=
  let s0 := s.startFrame p
  .next (match (s0.port p).started with
    | none => s0
    | some k =>
      let x := s0.port p
      let y : Port := { x with
        queue := x.queue.filter (fun j => !(j.q == k.q && j.seq == k.seq))
        started := none }
      (((((s0.setPort p y).emit (.packet p (s0.frameBytes p k))).txCount p).releaseItem k.q k.rel).startFrame p).showStrm k.q)

/-! ### Links (R192) -/

/-- Streams' statuses after a port's link changed. -/
def State.showSet (s : State) (p : Nat) : State :=
  s.streams.foldl (fun t q => if (t.portSet q).contains p then t.showStrm q else t) s

/-- A packet taken back is sent again with its sequence, when a port of its set is up (R192). -/
def State.resend (s : State) : List Pkt → State
  | [] => s
  | x :: xs =>
    let s1 := s.sendPkt x
    (if (s.pickPort x.q).isSome then s1.incSat (F.STM_Q_RESENT_CNT_COUNT x.q) else s1).resend xs

/-- A port loses its link (R192). -/
def State.linkDown (s : State) (p : Nat) : State :=
  if s.linkUp p then
    (let x := s.port p
     let s1 := (((s.clrF (F.STM_PORT_STATUS_LINK p)).setF (F.STM_PORT_STATUS_LOCAL_FAULT p)).clrF
       (F.STM_PORT_STATUS_PAUSED p)).setPort p { Port.init with fecTick := x.fecTick, fecRun := x.fecRun }
     (s1.resend x.queue).showSet p)
  else s

/-- PORT_LINK_DOWN (R192). -/
def execPortLinkDown (p : Fin 128) (s : State) : Host.Outcome State Fault Refusal := .next (s.linkDown p)

/-- PORT_LINK_UP: the port rejoins its sets (R192); a disabled port, a lane that is no port (R174) and a fenced lane group
(Table 17.4) have no link. -/
def execPortLinkUp (p : Fin 128) (s : State) : Host.Outcome State Fault Refusal :=
  .next (if isPort s.regs p ∧ s.flag (F.STM_PORT_CTRL_EN p) ∧ bitOf s.pwr.laneFence (p / 16) = false then
      (let s1 := (((s.setF (F.STM_PORT_STATUS_LINK p)).clrF (F.STM_PORT_STATUS_LOCAL_FAULT p)).flushCtl p).startFrame p
       (s1.streams.foldl (fun t q =>
         if (t.portSet q).contains p then
           (let x := t.strm q
            (t.setStrm q { x with back := [] }).resend x.back)
         else t) s1).showSet p)
    else s)

/-! ### FEC and received frames (R176, R190, R191, R197) -/

/-- FEC_UNCORRECTABLE_CODEWORD (R176). -/
def execFecUncorrectableCodeword (p : Fin 128) (s : State) : Host.Outcome State Fault Refusal :=
  let x := s.port p
  let t := s.lcnt / tickLen
  let run := if x.fecRun = 0 then 1 else if t = x.fecTick then x.fecRun else if t = x.fecTick + 1 then x.fecRun + 1 else 1
  .next (if isPort s.regs p then
      ((s.incSat (F.STM_PORT_FEC_UNCORR_CNT_COUNT p)).setF (F.STM_PORT_STATUS_FEC_UNCORR p)).setPort p
        { x with fecTick := t, fecRun := run }
    else s)

/-- FEC_PORT_FAILURE: a cluster failure is logged; the port stays enabled (R176). -/
def execFecPortFailure (p : Fin 128) (lane : Fin 64) (s : State) : Host.Outcome State Fault Refusal :=
  .next (if 1024 < (s.port p).fecRun then s.post s.lcnt 0x0901 (s.locusPort p (some lane)) 0 else s)

/-- A received frame is counted and dropped. -/
def State.rxDrop (s : State) (p : Nat) : State :=
  if isPort s.regs p then s.incSat (F.STM_PORT_RX_DROP_CNT_COUNT p) else s

def execRxBadFcs (p : Fin 128) (s : State) : Host.Outcome State Fault Refusal := .next (s.rxDrop p)
def execRxFrameDropped (p : Fin 128) (s : State) : Host.Outcome State Fault Refusal := .next (s.rxDrop p)

/-- Core cycles of a pause of that many quanta of 512 bit times on port p. -/
def State.pauseCycles (s : State) (p quanta : Nat) : Nat := s.cyclesOf (quanta * 512) (lanesIn s.regs (p / 16) * 100000000000)

/-- PAUSED follows the pauses in force; a continuous pause keeps its beginning (R191). Frames that nothing holds any more start. -/
def State.showPause (s : State) (p a : Nat) : State :=
  let x := s.port p
  let on := (List.range 8).any (s.heldPrio p)
  (((s.setPort p { x with
    pauseFrom := if on then some (x.pauseFrom.getD a) else none
    longSeen := on && x.longSeen }).putB (F.STM_PORT_STATUS_PAUSED p) on).flushCtl p).startFrame p

/-- RX_PAUSE_FRAME (R190). -/
def execRxPauseFrame (a : Nat) (p : Fin 128) (quanta : BitVec 16) (s : State) : Host.Outcome State Fault Refusal :=
  let s1 := ((s.at_ a).showPause p a).incSat (F.STM_PORT_PAUSE_CNT_COUNT p)
  .next (if isPort s.regs p = false then s.at_ a
    else if s.flag (F.STM_PORT_CTRL_PAUSE_EN p) ∧ s.flag (F.STM_PORT_CTRL_PFC_EN p) = false then
      (let e := if quanta.toNat = 0 then none else some (a + s.pauseCycles p quanta.toNat)
       (s1.setPort p { s1.port p with pauseTo := e }).showPause p a)
    else s1)

/-- The times of a PFC frame for the priorities it names. -/
def pfcTimes (s : State) (p a enable : Nat) (t : Tab Nat) : Nat → List Nat → Tab Nat
  | _, [] => t
  | i, q :: qs => pfcTimes s p a enable (if bitOf enable i then Tab.set t i (a + s.pauseCycles p q) else t) (i + 1) qs

/-- RX_PFC_FRAME (R190): eight times, one per priority. -/
def execRxPfcFrame (a : Nat) (p : Fin 128) (enable : BitVec 8) (times : List Nat) (s : State) :
    Host.Outcome State Fault Refusal :=
  if times.length ≠ 8 then .fault (.illFormed "RX_PFC_FRAME")
  else
    let s1 := ((s.at_ a).showPause p a).incSat (F.STM_PORT_PAUSE_CNT_COUNT p)
    .next (if isPort s.regs p = false then s.at_ a
      else if s.flag (F.STM_PORT_CTRL_PFC_EN p) then
        (s1.setPort p { s1.port p with pfc := pfcTimes s p a enable.toNat (s.port p).pfc 0 times }).showPause p a
      else s1)

/-- PAUSE_EXPIRY: the pause of the port, or of one of its priorities, has ended (R190). -/
def execPauseExpiry (p : Fin 128) (prio : Fin 8) (s : State) : Host.Outcome State Fault Refusal :=
  let x := s.port p
  let pfcOn := s.flag (F.STM_PORT_CTRL_PFC_EN p)
  let e := if pfcOn then some (Tab.get 0 x.pfc prio) else x.pauseTo
  .next (match e with
    | some t => ((s.at_ t).setPort p (if pfcOn then { x with pfc := x.pfc.filter (fun y => y.1 != prio) }
        else { x with pauseTo := none })).showPause p t
    | none => s)

/-- PAUSE_LONG: 100 ms of continuous pause are reported, once for each such pause; the pause goes on (R191). -/
def execPauseLong (p : Fin 128) (s : State) : Host.Outcome State Fault Refusal :=
  .next (match (s.port p).pauseFrom with
    | some f =>
      let t := f + s.cyclesOf 1 10
      let s1 := s.at_ t
      if (List.range 8).any (s1.heldPrio p) ∧ (s.port p).longSeen = false then
        ((s1.setPort p { s1.port p with longSeen := true }).setF (F.STM_PORT_STATUS_PAUSE_LONG p)).post s1.lcnt 0x0902
          (s.locusPort p none) 0
      else s1
    | none => s)

/-- An Ethernet frame that answers a request, padded to 60 bytes before the FCS. -/
def State.reply (s : State) (p dmac typ : Nat) (body : List Byte) : State :=
  let f := beBytes 6 dmac ++ beBytes 6 (s.getN (R.STM_PORT_MAC p) 2) ++ beBytes 2 typ ++ body
  s.sendCtl p (.packet p (f ++ List.replicate (60 - f.length) (0 : Byte)))

/-- RX_ARP_REQUEST: a request for the port's address is answered from the port's MAC; another is dropped (R197). -/
def execRxArpRequest (p : Fin 128) (target senderIp senderMac : Nat) (s : State) : Host.Outcome State Fault Refusal :=
  let ip := s.get (F.STM_PORT_IPV4_ADDR p)
  .next (if isPort s.regs p ∧ ip ≠ 0 ∧ target = ip then
      s.reply p senderMac 0x0806 (packBE [(2, 1), (2, 0x0800), (1, 6), (1, 4), (2, 2), (6, s.getN (R.STM_PORT_MAC p) 2), (4, ip),
        (6, senderMac), (4, senderIp)])
    else s.rxDrop p)

/-- RX_NEIGHBOUR_SOLICITATION: answered by an advertisement with the solicited flag (R197, log entry 27). -/
def execRxNeighbourSolicitation (p : Fin 128) (target sender senderMac : Nat) (s : State) : Host.Outcome State Fault Refusal :=
  let ip := s.ipv6Of p
  .next (if isPort s.regs p ∧ ip ≠ List.replicate 16 (0 : Byte) ∧ beBytes 16 target = ip ∧ target < 2 ^ 128 then
      (let dst := beBytes 16 sender
       let opt := packBE [(1, 2), (1, 1), (6, s.getN (R.STM_PORT_MAC p) 2)]
       let tail := beBytes 4 0x40000000 ++ ip ++ opt
       let sum := sum16 (ip ++ dst ++ packBE [(4, 4 + tail.length), (4, 58)]) + sum16 (packBE [(1, 136), (1, 0)]) + sum16 tail
       let icmp := packBE [(1, 136), (1, 0), (2, checksum sum)] ++ tail
       s.reply p senderMac 0x86DD (packBE [(4, 0x60000000), (2, icmp.length), (1, 58), (1, 255)] ++ ip ++ dst ++ icmp))
    else s.rxDrop p)

end Sys2Proof.Machine
end

