-- ==== Sys2Proof/Machine/Raster.lean ====
section
/-! DEFINITION. The raster scan-out (spec/10): hot plug, snapshot latch, line buffer, composing, signature, freeze, PSR. -/

namespace Sys2Proof.Machine

/-- The timing generator runs (R232, R244). -/
def State.dispOn (s : State) : Bool := s.flag F.DISP_CTRL_EN || s.disp.stopNext

/-- A display event is latched and signalled when enabled (R238): 0 FRAME_DONE, 1 VBLANK_START, 2 LINE_MATCH, 3 UNDERRUN. -/
def State.dispEvent (s : State) (k : Nat) : State :=
  let s1 := s.setF ⟨R.DISP_STATUS, k, k⟩
  if bitOf (s.get F.DISP_EVT_EN) k then s1.signal 0 (s.get F.DISP_EVT_VEC) else s1

/-- Layers enabled, ascending. -/
def dispLayers (r : RegTab) : List Nat := (List.range 8).filter (fun i => r.bit (F.DISP_LAYER_EN i))

/-- B_frame of a register set (R242). -/
def bFrame (r : RegTab) : Nat := 4194304 * (dispLayers r).length

/-- HOT_PLUG: DP_HPD rises, link training begins, the event is logged (R232). -/
def execHotPlug (s : State) : Host.Outcome State Fault Refusal :=
  .next ({ s with disp := { s.disp with hpd := true, trained := false } }.post s.lcnt 0x0B01 s.locusHub 0)

/-- LINK_TRAINING_DONE: sending starts at the next VBLANK_START of the timing generator, or the failure is logged (R232). -/
def execLinkTrainingDone (ok : Bool) (s : State) : Host.Outcome State Fault Refusal :=
  .next (if s.disp.hpd = false then s
    else if ok then { s with disp := { s.disp with trained := true, sendNext := s.dispOn } }
    else ({ s with disp := { s.disp with trained := false, sendNext := false } }.clrF F.DISP_STATUS_LINK).post
      s.lcnt 0x0B01 s.locusHub 0)

/-- DP_HPD_FALL: nothing is sent on the main link; fetching and composing go on (R232). -/
def execDpHpdFall (s : State) : Host.Outcome State Fault Refusal :=
  .next (({ s with disp := { s.disp with hpd := false, trained := false, sendNext := false } }.clrF F.DISP_STATUS_LINK).post
    s.lcnt 0x0B01 s.locusHub 0)

/-! ### The latch (R233) -/

/-- The pins of latched snapshots are released. -/
def State.unpinLatches (s : State) : State :=
  { s with
    frames := (s.disp.latches.filter (fun l => l.pinned)).foldl (fun fs l => match l.snap with
      | some x => fs.map (fun f : Frame => if f.pub = x.1 then { f with pins := f.pins - 1 } else f)
      | none => fs) s.frames
    disp := { s.disp with latches := s.disp.latches.map (fun l => { l with pinned := false }) } }

/-- The newest snapshot of a database in the tally ring: order of publication and address of its cells. -/
def State.newestSnap (s : State) (d : Nat) : Option (Nat × Nat) :=
  (s.frames.filter (fun f => f.typ == 0x11 && f.src == d)).getLast?.map (fun f => (f.pub, s.frameAddr f.page + 256))

/-- Every enabled layer latches its database's newest snapshot and pins it. -/
def State.latchSnaps (s : State) : State :=
  let new := (dispLayers s.regs).map (fun i =>
    (⟨i, s.get (F.DISP_LAYER_DB i), s.newestSnap (s.get (F.DISP_LAYER_DB i)), true⟩ : Latch))
  let pinned := new.foldl (fun fs l => match l.snap with
    | some x => fs.map (fun f : Frame => if f.pub = x.1 then { f with pins := f.pins + 1 } else f)
    | none => fs) s.frames
  let fresh := new.any (fun l => l.snap.isSome && !(s.disp.latches.any (fun o => o.db == l.db && o.snap == l.snap)))
  let s1 := { s with frames := pinned, disp := { s.disp with latches := new, fresh := s.disp.fresh || fresh, rows := [], left := [] } }
  if new.any (fun l => l.snap.isNone) then s1.setF F.DISP_STATUS_NO_SNAP else s1

/-- Waveform counts of the eight databases. -/
def State.wfmCounts (s : State) : List Nat := (List.range 8).map (fun d => s.get (F.TAL_DB_WFM_CNT_COUNT d))

/-- Waiting frame fields take effect (R243). -/
def State.applyDisp (s : State) : State :=
  let now := s.disp.pend.filter (fun w => w.2 == 0)
  let left := (s.disp.pend.filter (fun w => w.2 != 0)).map (fun w => (w.1, w.2 - 1))
  let s1 := { s with
    regs := now.foldl (fun (r : RegTab) (w : RegTab × Nat) => w.1.foldl (fun (u : RegTab) (p : Nat × Word) =>
      Tab.set u p.1 (if p.1 = R.DISP_CTRL then mixWord 0x1800 (u.word p.1) p.2 else p.2)) r) s.regs
    disp := { s.disp with pend := left, fresh := s.disp.fresh || now != [] } }
  (s1.putB F.DISP_STATUS_DISP_PENDING (left != [])).put F.DISP_BFRAME_BYTES (bFrame s1.regs)

/-- Self-refresh is entered at a VBLANK_START after enough data-free frames (R246). -/
def State.psrEnter (s : State) : State :=
  if s.flag F.DISP_CTRL_EDP ∧ s.flag F.DISP_CTRL_PSR_EN ∧ max 2 (s.get F.DISP_WATCH_PSR_ENTRY) ≤ s.disp.free
      ∧ s.flag F.DISP_STATUS_PSR = false ∧ s.flag F.DISP_STATUS_LINK then
    ((s.setF F.DISP_STATUS_PSR).clrF F.DISP_STATUS_LINK).emit (.video 2 [])
  else s

/-- The timing generator stops at the end of its frame (R244). -/
def State.rasterStop (s : State) : State :=
  let s1 := (s.unpinLatches.applyDisp.applyDisp.clrF F.DISP_STATUS_LINK).clrF F.DISP_STATUS_PSR
  { s1 with disp := { s1.disp with
    stopNext := false
    sendNext := false
    trained := false
    latches := []
    rows := []
    left := []
    crc := 4294967295
    even := []
    free := 0
    same := 0 } }

/-- At each frame that is sent with FMT 1 the MSA signals BT.709 (R237). -/
def State.sendMsa (s : State) : State :=
  if s.flag F.DISP_STATUS_LINK ∧ s.flag F.DISP_STATUS_PSR = false ∧ s.flag F.DISP_CTRL_FMT then s.emit (.video 4 [709]) else s

/-- A frame begins: waiting fields, the latch, sending, self-refresh (R232, R233, R243, R246). -/
def State.rasterFrame (s : State) : State :=
  let s1 : State := { s.unpinLatches with disp := { s.unpinLatches.disp with
    fresh := false, line := s.get F.DISP_V_VACT, crc := 4294967295, even := [] } }
  let s2 : State := s1.applyDisp.latchSnaps
  let s3 : State := if s2.disp.sendNext ∧ s2.disp.hpd ∧ s2.flag F.DISP_STATUS_PSR = false then
      { (s2.setF F.DISP_STATUS_LINK) with disp := { s2.disp with sendNext := false } } else s2
  ({ s3 with disp := { s3.disp with wfm := s3.wfmCounts } }).psrEnter.sendMsa

/-- VBLANK_START, the start of line VACT: LINE_MATCH follows it when it is that line (R233, R238, R243, R244). -/
def execVblankStart (s : State) : Host.Outcome State Fault Refusal :=
  .next (if s.dispOn = false then s
    else
      let s0 := (s.putN R.DISP_VBLANK_LCNT 2 (s.lcnt % 2 ^ 64)).dispEvent 1
      let s1 := if s0.get F.DISP_EVT_LINE = s0.get F.DISP_V_VACT then s0.dispEvent 2 else s0
      if s1.disp.stopNext ∧ s1.flag F.DISP_CTRL_EN = false then s1.rasterStop else s1.rasterFrame)

/-- Whether a displayed database has taken waveforms since the frame's latch (R246, R247). -/
def State.dataMoved (s : State) : Bool :=
  (s.disp.latches.map (fun l => l.db)).any (fun d => (s.disp.wfm[d]?).getD 0 != s.get (F.TAL_DB_WFM_CNT_COUNT d))

/-- Self-refresh ends when data moves again; pixels are sent again where the link is trained (R232, R246). -/
def State.psrLeave (s : State) (dataFree : Bool) : State :=
  if !dataFree && s.flag F.DISP_STATUS_PSR then
    (let up := s.disp.hpd && s.disp.trained
     let s1 := s.clrF F.DISP_STATUS_PSR
     { (if up then s1.emit (.video 3 []) else s1) with disp := { s.disp with sendNext := up } })
  else s

/-- A picture that stays the same under moving data is frozen (R247). -/
def State.freezeWatch (s : State) (same : Nat) : State :=
  let n := s.get F.DISP_WATCH_FREEZE_N
  if n = 0 ∨ same < n then s
  else if same = n ∨ s.flag F.DISP_STATUS_FREEZE = false then (s.setF F.DISP_STATUS_FREEZE).post s.lcnt 0x0B02 s.locusHub 0
  else s

/-- FRAME_DONE (R238, R246, R247). -/
def execFrameDone (s : State) : Host.Outcome State Fault Refusal :=
  .next (if s.dispOn = false then s
    else
      let sig := Nat.xor s.disp.crc 4294967295
      let same := if sig = s.get F.DISP_SIG_CRC ∧ s.dataMoved then s.disp.same + 1 else 0
      let dataFree : Bool := !s.disp.fresh && !s.dataMoved
      let s1 := (s.unpinLatches.incWrap F.DISP_FRAME_CNT_COUNT).put F.DISP_SIG_CRC sig
      let s2 := { s1 with disp := { s1.disp with same := same, free := if dataFree then s.disp.free + 1 else 0 } }
      ((s2.psrLeave dataFree).freezeWatch same).dispEvent 0)

/-! ### Geometry and intensity (R234, R235) -/

/-- Columns of plot pixel u: first, last. -/
def plotCols (w u : Nat) : Nat × Nat :=
  let a := u * 2048 / max 1 w
  (a, max a (ceilDiv ((u + 1) * 2048) (max 1 w) - 1))

/-- Rows of plot line v as r_a, r_b: the pixel covers database rows 1023 − r_b to 1023 − r_a. -/
def plotRows (h v : Nat) : Nat × Nat :=
  let a := v * 1024 / max 1 h
  (a, max a (ceilDiv ((v + 1) * 1024) (max 1 h) - 1))

/-- The index of a count (R235). -/
def countIndex (log : Bool) (shift c : Nat) : Nat :=
  if log then
    (let e := Nat.log2 c
     let m := if 4 ≤ e then c / 2 ^ (e - 4) % 16 else c * 2 ^ (4 - e) % 16
     16 * e + m)
  else min 255 (c / 2 ^ shift)

/-- Entry n of the luma table. -/
def State.lut (s : State) (n : Nat) : Nat := (s.word (R.DISP_LUT (n / 4))).toNat / 256 ^ (n % 4) % 256

/-- Rows of the line buffer a line needs; none outside the plot. -/
def State.needRows (s : State) (y : Nat) : List Nat :=
  let py := s.get F.DISP_PLOT_POS_PLOT_Y
  let h := s.get F.DISP_PLOT_SIZE_PLOT_H
  if py ≤ y ∧ y < py + h then
    (let r := plotRows h (y - py)
     (List.range (r.2 + 1 - r.1)).map (fun i => 1023 - r.2 + i))
  else []

/-- A row is in the line buffer, or is not fetched at all during self-refresh (R246). -/
def State.rowHere (s : State) (layer row : Nat) : Bool :=
  s.flag F.DISP_STATUS_PSR || s.disp.rows.any (fun x => x.1 == layer && x.2.1 == row)

/-- The count of one cell of a latched layer; cells of a burst that was fetched poisoned read 0 (R241). -/
def State.cellCount (s : State) (l : Latch) (row col : Nat) : Nat :=
  match l.snap with
  | none => 0
  | some (_, a) =>
    let bad := match s.disp.rows.find? (fun x => x.1 == l.layer && x.2.1 == row) with
      | some x => x.2.2.contains (col / 128)
      | none => s.poisoned (a + 2 * (2048 * row + col))
    if bad then 0 else leValue (s.sreads (a + 2 * (2048 * row + col)) 2)

/-- A layer's luma at a pixel whose column range and rows are given; none when it has no value there. -/
def State.layerLuma (s : State) (l : Latch) (rows : List Nat) (c : Nat × Nat) : Option Nat :=
  let m := rows.foldl (fun m r => (List.range (c.2 + 1 - c.1)).foldl (fun k i => max k (s.cellCount l r (c.1 + i))) m) 0
  if m = 0 then none
  else some (s.lut (countIndex (s.flag (F.DISP_LAYER_MODE l.layer)) (s.get (F.DISP_LAYER_SHIFT l.layer)) m))

/-- The background pixel. -/
def State.bgPix (s : State) : Nat × Nat × Nat := (s.get F.DISP_BG_BG_Y, s.get F.DISP_BG_BG_CB, s.get F.DISP_BG_BG_CR)

/-- One pixel before chroma is shared (R236). -/
def State.pixel (s : State) (rows : List Nat) (u : Nat) : Nat × Nat × Nat :=
  let c := plotCols (s.get F.DISP_PLOT_SIZE_PLOT_W) u
  let best := s.disp.latches.foldl (fun b l => match s.layerLuma l rows c, b with
    | some y, some (y0, i) => if y0 < y then some (y, l.layer) else some (y0, i)
    | some y, none => some (y, l.layer)
    | none, x => x) (none : Option (Nat × Nat))
  match best with
  | some (y, i) => (y, s.get (F.DISP_LAYER_CB i), s.get (F.DISP_LAYER_CR i))
  | none => s.bgPix

/-! ### A line (R236, R237, R239, R240) -/

/-- A line's pixels from x on, with the underrun's outcome: n pixels are left; prev is the last complete pixel. -/
def State.linePix (s : State) (y : Nat) (rows : List Nat) (under : Bool) : Nat → Nat → Nat × Nat × Nat → List (Nat × Nat × Nat)
  | 0, _, _ => []
  | n + 1, x, prev =>
    let px := s.get F.DISP_PLOT_POS_PLOT_X
    let inPlot := decide (px ≤ x) && decide (x < px + s.get F.DISP_PLOT_SIZE_PLOT_W) && rows != []
    if inPlot ∧ under then List.replicate (n + 1) (if s.flag F.DISP_CTRL_UNDER then s.bgPix else prev)
    else
      let p := if inPlot then s.pixel rows (x - px) else s.bgPix
      p :: s.linePix y rows under n (x + 1) p

/-- The chroma of the member with the largest luma, the first of equals. -/
def chromaOf : List (Nat × Nat × Nat) → Nat × Nat
  | [] => (128, 128)
  | p :: ps => (ps.foldl (fun (b : Nat × Nat × Nat) (q : Nat × Nat × Nat) => if b.1 < q.1 then q else b) p).2

/-- Blocks of two columns of a line, or of a line pair. -/
def shareChroma : List (Nat × Nat × Nat) → List (Nat × Nat × Nat) → List (Nat × Nat)
  | a :: b :: as, c :: d :: cs => chromaOf [a, b, c, d] :: shareChroma as cs
  | [a], [c] => [chromaOf [a, c]]
  | a :: b :: as, [] => chromaOf [a, b] :: shareChroma as []
  | [a], _ => [chromaOf [a]]
  | _, _ => []

/-- A component of R237's conversion, in ten-thousandths, rounded and limited. -/
def rgbOf (v : Int) : Nat := (clampI 0 255 (roundDiv v 10000)).toNat

/-- The values sent for a line: RGB, or luma with the shared chroma at every even pixel (R237). -/
def sendLine (rgb : Bool) (ys : List (Nat × Nat × Nat)) (ch : List (Nat × Nat)) : List Nat :=
  (List.range ys.length).flatMap (fun x =>
    let y : Int := (((ys[x]?).getD (0, 0, 0)).1 : Nat)
    let c : Nat × Nat := (ch[x / 2]?).getD (128, 128)
    let cb : Int := (c.1 : Int) - 128
    let cr : Int := (c.2 : Int) - 128
    if rgb then [rgbOf (10000 * y + 15748 * cr), rgbOf (10000 * y - 1873 * cb - 4681 * cr), rgbOf (10000 * y + 18556 * cb)]
    else if x % 2 = 0 then [y.toNat, c.1, c.2] else [y.toNat])

/-- The signature's values of a line: each pixel's luma, and the chroma of a block at its first pixel (R247). -/
def sigLine (ys : List (Nat × Nat × Nat)) (ch : Option (List (Nat × Nat))) : List Byte :=
  (List.range ys.length).flatMap (fun x =>
    let y := BitVec.ofNat 8 ((ys[x]?).getD (0, 0, 0)).1
    match ch with
    | some l => if x % 2 = 0 then
        (let c : Nat × Nat := (l[x / 2]?).getD (128, 128)
         [y, BitVec.ofNat 8 c.1, BitVec.ofNat 8 c.2]) else [y]
    | none => [y])

/-- A composed line joins the signature and is sent (R236, R237, R247). With 4:2:0 the even line waits for its pair. -/
def State.outLine (s : State) (y : Nat) (ps : List (Nat × Nat × Nat)) : State :=
  let rgb := !s.flag F.DISP_CTRL_FMT
  let send := fun (t : State) (k : Nat) (l : List (Nat × Nat × Nat)) (ch : List (Nat × Nat)) =>
    if t.flag F.DISP_STATUS_LINK && !t.flag F.DISP_STATUS_PSR then t.emit (.video 1 (k :: sendLine rgb l ch)) else t
  if s.flag F.DISP_CTRL_CHROMA then
    (let ch := shareChroma ps []
     send { s with disp := { s.disp with crc := crcRun s.disp.crc (sigLine ps (some ch)) } } y ps ch)
  else if y % 2 = 0 then { s with disp := { s.disp with even := ps } }
  else
    let ch := shareChroma s.disp.even ps
    let crc := crcRun (crcRun s.disp.crc (sigLine s.disp.even (some ch))) (sigLine ps none)
    send (send { s with disp := { s.disp with crc := crc, even := [] } } (y - 1) s.disp.even ch) y ps ch

/-- Rows no later line needs leave the buffer (R239). -/
def State.freeRows (s : State) (y : Nat) : State :=
  let py := s.get F.DISP_PLOT_POS_PLOT_Y
  let h := s.get F.DISP_PLOT_SIZE_PLOT_H
  let keep : Nat → Bool := fun r =>
    if y + 1 < py then true else if py + h ≤ y + 1 then false else decide (r + (plotRows h (y + 1 - py)).1 ≤ 1023)
  { s with disp := { s.disp with rows := s.disp.rows.filter (fun x => keep x.2.1) } }

/-- The line buffer is full, or holds every row of the plot, for each latched layer with a snapshot (R239). -/
def State.prefilled (s : State) : Bool :=
  s.flag F.DISP_STATUS_PSR || s.disp.latches.all (fun l => l.snap.isNone || decide (16 ≤ (s.disp.rows.filter (fun x => x.1 == l.layer)).length))

/-- RASTER_LINE_START (R238-R240): LINE_MATCH at any line but VACT, whose start is VBLANK_START; an active line is composed from the line buffer. -/
def execRasterLineStart (line : Nat) (s : State) : Host.Outcome State Fault Refusal :=
  .next (if s.dispOn = false then s
    else
      let s0 := { s with disp := { s.disp with line := line } }
      let s1 := if line = s.get F.DISP_EVT_LINE ∧ line ≠ s.get F.DISP_V_VACT then s0.dispEvent 2 else s0
      if s.get F.DISP_V_VACT ≤ line then s1
      else
        let s2 := if line = 0 ∧ s1.prefilled = false then s1.setF F.DISP_STATUS_PREFILL_SHORT else s1
        let rows := s2.needRows line
        let under := s2.disp.latches.any (fun l => l.snap.isSome && rows.any (fun r => !s2.rowHere l.layer r))
        let ps := s2.linePix line rows under (s2.get F.DISP_H_HACT) 0 s2.disp.last
        let s3 := if under && decide (s2.get F.DISP_PLOT_POS_PLOT_X < s2.get F.DISP_H_HACT) then
            (s2.incSat F.DISP_UNDERRUN_CNT_COUNT).dispEvent 3 else s2
        ({ s3 with disp := { s3.disp with last := ps.getLastD s3.disp.last } }.outLine line ps).freeRows line)

/-- RASTER_FETCH_BURST: the next database row of a layer arrives in the line buffer while it has room: from VBLANK_START on row 1023
first, then downwards; no other row is fetched (R239). Bursts that the store holds poisoned, and those that the link spoiled in
this fetch, read poisoned (R158, R241). The read is granted in the RASTER class. -/
def execRasterFetchBurst (layer : Fin 8) (row : Fin 1024) (spoiled : BitVec 16) (s : State) : Host.Outcome State Fault Refusal :=
  let left := Tab.get 1024 s.disp.left layer
  let full := decide (16 ≤ (s.disp.rows.filter (fun x => x.1 == layer.val)).length)
  .next (match s.disp.latches.find? (fun l => l.layer == layer.val && l.snap.isSome) with
    | some l =>
      if s.dispOn = false ∨ s.flag F.DISP_STATUS_PSR ∨ full ∨ left ≠ row.val + 1 then s
      else
        (let k := s.ask 3 layer 4096
         let a := ((l.snap.map (fun x => x.2)).getD 0) + 4096 * row.val
         let bad := (List.range 16).filter (fun i => s.poisoned (a + 256 * i) || spoiled.getLsbD i)
         if k.1 = false then k.2
         else
           (let s1 : State := { k.2 with disp := { k.2.disp with
              rows := k.2.disp.rows ++ [(layer.val, row.val, bad)]
              left := Tab.set k.2.disp.left layer row.val } }
            if bad = [] then s1 else s1.setF F.DISP_STATUS_POISON_SEEN))
    | none => s)

end Sys2Proof.Machine
end

