-- ==== Sys2Proof/Machine/Demand.lean ====
section
/-! DEFINITION. The worst-case demand of a configuration (R155, R167, R168, Table 7.3, R196, R242). Every function takes the
register set it asks about; the set has the fenced channels already left out (R51). -/

namespace Sys2Proof.Machine

/-- Queues named by a listed word of a register array: base, stride. A queue with no listed word has its reset settings. -/
def queuesIn (r : RegTab) (base stride : Nat) : List Nat :=
  (r.filterMap (fun p => if base ≤ p.1 ∧ p.1 < base + 1024 * stride then some ((p.1 - base) / stride) else none)).dedup

/-- Streams that a register set enables (R198). -/
def streamsIn (r : RegTab) : List Nat := (queuesIn r (R.STM_Q_CTRL 0) 0x80).filter (fun q => r.bit (F.STM_Q_CTRL_EN q))

/-- C_tick of a register set with P_act active pseudo-channels (R155); none when the set gives no sample rate. -/
def cTick (r : RegTab) (pAct : Nat) : Option Nat :=
  let fs := fsOf r
  if fs.1 = 0 ∨ fs.2 = 0 then none else some (4100000000000 * pAct * 131072 * fs.2 / (128 * fs.1))

/-- A_ch of channel n in group g. -/
def aCh (r : RegTab) (g n : Nat) : Nat :=
  let f := chainCfg r n
  let nn := grpN r g
  let e := if f.d = 1 then 2048 else ceilDiv (131072 * nn) (64 * f.d)
  64 * ceilDiv (e * ((if f.d = 1 then nn else 1) * f.v * f.b + 4)) 512

/-- L_ch of a channel of group g. -/
def lCh (r : RegTab) (g : Nat) : Nat :=
  let l := lensLen r g
  if l = 0 then 0 else rMax r g * (64 * ceilDiv (l * (10 * grpN r g + 4)) 512)

/-- The channels of a group. -/
def chansOf (r : RegTab) (g : Nat) : List Nat := bitsSet 48 (chMask r g)

/-- W_acq. -/
def wAcq (r : RegTab) : Nat :=
  ((usedGrps r).map (fun g => ((chansOf r g).map (fun n => aCh r g n + lCh r g)).sum + oGrp r g)).sum

/-- W_cal: present channels in no group, up to STO_CAL_CAP (48 at most). -/
def wCal (r : RegTab) (fenced : Nat) : Nat :=
  let free := ((List.range 48).map (fun n =>
    if bitOf fenced n ∨ (groupOf r n).isSome ∨ (n % 2 = 1 ∧ paired r n) then 0 else if paired r n then 2 else 1)).sum
  163840 * min (min 48 (r.fld F.STO_CAL_CAP_CH)) free

/-- Bytes of the measurement blocks of a group per tick. -/
def measBytes (r : RegTab) (g : Nat) : Nat := (16 * (abaEntries r g).length + 16) * (rMax r g + 1)

/-- One stream's term (R196). -/
def wStream (r : RegTab) (fenced q : Nat) : Nat :=
  let sel := r.wide (R.STM_Q_SEL q) 2
  match r.fld (F.STM_Q_CTRL_KIND q) with
  | 0 =>
    let g := r.fld (F.STM_Q_CTRL_GROUP q)
    let chs := (bitsSet 48 sel).filter (fun n => !bitOf fenced n)
    (chs.map (fun n => aCh r g n + lCh r g)).sum + oGrp r g + (if r.bit (F.STM_Q_CTRL_MEAS_EN q) then measBytes r g else 0)
  | 1 =>
    (if sel % 256 = 0 then 0 else 2097152) + ((bitsSet 16 (sel / 65536 % 65536)).map (fun g =>
      let s := if r.bit (F.TAL_AVG_CTRL_FORMAT g) then 2 else 6
      ceilDiv (rMax r g * (256 + (chansOf r g).length * (64 * ceilDiv (r.fld (F.TAL_AVG_LEN_LEN g) * s) 64)))
        (r.fld (F.TAL_AVG_CTRL_COUNT_M1 g) + 1))).sum
  | 2 => 2048
  | _ => 0

/-- W_stm. -/
def wStm (r : RegTab) (fenced : Nat) : Nat := ((streamsIn r).map (wStream r fenced)).sum

/-- W_aba. -/
def wAba (r : RegTab) : Nat :=
  ((usedGrps r).map (fun g =>
    if abaEntries r g = [] then 0
    else
      let uses := fun n (lens : Bool) => (abaSlots r n).any (fun i => r.bit (F.ABA_SLOT_CTRL_SRC n i) == lens)
      ((chansOf r g).map (fun n => (if uses n false then 2 * aCh r g n else 0) + (if uses n true then 2 * lCh r g else 0))).sum
        + measBytes r g)).sum

/-- Twice W_avg, which counts halves of a byte. -/
def wAvg2 (r : RegTab) : Nat :=
  (((List.range 16).filter (fun g => r.bit (F.TAL_AVG_CTRL_EN g))).map (fun g =>
    29 * r.fld (F.TAL_AVG_LEN_LEN g) * (chansOf r g).length * rMax r g)).sum

/-- W_snap. -/
def wSnap (r : RegTab) : Nat := if (List.range 8).any (fun d => r.bit (F.TAL_DB_SRC_EN d)) then 2097152 else 0

/-- W_ras (R242): 2⌈B_frame·T_tick/T_frame⌉ with f_pclk = 100 MHz·RATIO/2^24. -/
def wRas (r : RegTab) : Nat :=
  let fs := fsOf r
  if r.bit F.DISP_CTRL_EN then
    2 * ceilDiv (bFrame r * 131072 * fs.2 * 100000000 * r.fld F.DISP_PCLK_RATIO)
      (fs.1 * 16777216 * r.fld F.DISP_H_HTOTAL * r.fld F.DISP_V_VTOTAL)
  else 0

/-- The formulas of Table 7.3 have a value for the set: a sample rate, a positive record period in every group they use, and a
frame time while scan-out runs. A set that fails this is refused under its own code (CLK_RANGE, REC_LENGTH, DISP_CONFIG). -/
def demandStated (r : RegTab) : Bool :=
  decide (0 < (fsOf r).1) && decide (0 < (fsOf r).2)
    && (List.range 16).all (fun g => !isCont r g || decide (grpN r g ≤ r.fld (F.REC_GRP_LEN_LEN g)))
    && (!r.bit F.DISP_CTRL_EN || decide (0 < r.fld F.DISP_H_HTOTAL * r.fld F.DISP_V_VTOTAL))

/-- What a commit needs of the demand: W, W_acq + W_cal, the staged trace bytes, R_res, C_tick. -/
structure Demand where
  w : Nat
  acq : Nat
  staged : Nat
  res : Nat
  ct : Nat
  deriving DecidableEq, Repr

/-- The demand of a set (R167). -/
def demandOf (r : RegTab) (fenced ct : Nat) : Demand :=
  let acq := wAcq r
  let cal := wCal r fenced
  { w := acq + cal + wStm r fenced + wAba r + ceilDiv (wAvg2 r) 2 + wSnap r + wRas r + r.fld F.STO_DMA_RESERVE_BYTES + ceilDiv ct 256
    acq := acq + cal
    staged := acq - oSum r + cal
    res := rRes r
    ct := ct }

/-- The demand of a set on this device; every figure is free where Table 7.3 states none (log entry 31). -/
def State.demand (s : State) (r : RegTab) : Demand × State :=
  match cTick r (s.get F.STO_CAP_P_ACT), demandStated r with
  | some ct, true => (demandOf r s.fenceMask ct, s)
  | _, _ =>
    let a := s.draw 32
    let b := a.2.draw 32
    let c := b.2.draw 32
    let d := c.2.draw 32
    (⟨a.1, b.1, c.1, rRes r, d.1⟩, d.2)

/-- W as its registers and log entries show it; a sum beyond their 32 bits, always refused, shows a free value (log entry 31). -/
def State.wShown (s : State) (d : Demand) : Nat × State := if d.w < 2 ^ 32 then (d.w, s) else s.draw 32

/-- W > ⌊0.92·C_tick⌋ (R168). -/
def Demand.overBudget (d : Demand) : Bool := decide (92 * d.ct / 100 < d.w)

/-- W_acq − ΣO_g + W_cal > 16 777 216 − R_res (R168). -/
def Demand.overStaging (d : Demand) : Bool := decide (16777216 < d.staged + d.res)

end Sys2Proof.Machine
end

