-- ==== Sys2Proof/Machine/Clock.lean ====
section
/-! DEFINITION. The sample clock (spec/11): reference monitors, the loop, bypass and return, frequency changes, outputs. -/

namespace Sys2Proof.Machine

/-- The frequency word of a register set as a fraction (R251). -/
def fcwOf (r : RegTab) : Nat × Nat :=
  (r.fld F.CLK_FCW_INT_INT * r.fld F.CLK_FCW_MOD_MOD + r.fld F.CLK_FCW_FRAC_FRAC, r.fld F.CLK_FCW_MOD_MOD)

/-- The frequency word's fields. -/
def fcwKey (r : RegTab) : Nat × Nat × Nat := (r.fld F.CLK_FCW_INT_INT, r.fld F.CLK_FCW_FRAC_FRAC, r.fld F.CLK_FCW_MOD_MOD)

/-- Two fractions differ by at most a number of ppm of the second. -/
def within (a b : Nat × Nat) (ppm : Nat) : Bool :=
  let x := a.1 * b.2
  let y := b.1 * a.2
  decide (1000000 * (max x y - min x y) ≤ ppm * y)

/-- FCW or REF_SEL changes. -/
def clkChange (old new : RegTab) : Bool :=
  let a := fcwOf old
  let b := fcwOf new
  a.1 * b.2 != b.1 * a.2 || old.fld F.CLK_CTRL_REF_SEL != new.fld F.CLK_CTRL_REF_SEL

/-- A change is a small step (R257): locked, REF_SEL unchanged, within 300 ppm of the active FCW and 700 ppm of the band's. -/
def State.clkSmall (s : State) (old new : RegTab) : Bool :=
  let b := s.clk.band
  s.get F.CLK_STATUS_LOOP == 3 && old.fld F.CLK_CTRL_REF_SEL == new.fld F.CLK_CTRL_REF_SEL
    && within (fcwOf new) (fcwOf old) 300 && within (fcwOf new) (b.1 * b.2.2 + b.2.1, b.2.2) 700

/-- The CLK settings the loop works with: those handed over by the loader until its first commit, else the active set (R377). -/
def State.loopRegs (s : State) : RegTab := s.clk.hand.foldl (fun (r : RegTab) (p : Nat × Word) => Tab.set r p.1 p.2) s.regs

/-- The loop's state. -/
def State.setLoop (s : State) (k : Nat) : State := (s.put F.CLK_STATUS_LOOP k).putB F.CLK_STATUS_HOLDOVER (k == 4)

/-! ### Bypass -/

/-- The fabric moves to the CLKBYP-derived clock at core cycle b (R259, R260, R263); calibration runs end (Table 14.5). -/
def State.enterBypass (s : State) (b : Nat) : State :=
  let s1 := (s.setF F.CLK_STATUS_FABRIC_BYP).incSat F.CLK_SWITCH_CNT_COUNT
  let pn := pnomBypass (s.get F.CLK_BYP_RATIO_RATIO)
  { s1 with
    clk := { s1.clk with bypass := (b, none) :: s1.clk.bypass, held := false }
    timeDue := s1.timeDue ++ [.nominal 6 pn.1 pn.2]
    cal := if s1.cal.runs = [] then s1.cal else { s1.cal with abort := some (5, if b % tickLen = 0 then some b else none) } }

/-- The fabric leaves the CLKBYP-derived clock at core cycle b. -/
def State.leaveBypass (s : State) (b : Nat) : State :=
  let pn := pnomSample s.loopRegs
  { (s.clrF F.CLK_STATUS_FABRIC_BYP) with
    clk := { s.clk with bypass := s.clk.bypass.map (fun p => if p.2 = none then (p.1, some b) else p) }
    timeDue := s.timeDue ++ [.nominal 7 pn.1 pn.2] }

/-- The PLL_BYPASS gap opens at core cycle c, or goes on when it has not ended (R261). -/
def State.openPllGap (s : State) (c : Nat) : State :=
  let from_ := if s.pllOut c then s.clk.gap.1 else c
  ({ s with clk := { s.clk with gap := (from_, none) } }).setLossAll c 4 allChans

/-! ### Acquisition (R254, R255) -/

/-- The band table's entry for a frequency word. -/
def bandHit (r : RegTab) (k : Nat × Nat × Nat) : Option Nat :=
  (List.range 16).find? (fun i => r.bit (F.CLK_BTAB_FCW_VALID i) && r.fld (F.CLK_BTAB_FCW_INT i) == k.1
    && r.fld (F.CLK_BTAB_FRAC_FRAC i) == k.2.1 && r.fld (F.CLK_BTAB_MOD_MOD i) == k.2.2)

/-- Acquisition toward the active FCW starts: from the band table on a hit, otherwise through SEARCH (R255). -/
def State.startAcq (s : State) : State :=
  let r := s.loopRegs
  let k := fcwKey r
  match bandHit r k with
  | some i =>
    let s1 := (((s.setLoop 2).setF F.CLK_STATUS_BAND_HIT).put F.CLK_BAND_BAND (r.fld (F.CLK_BTAB_BAND_BAND i))).put
      F.CLK_BAND_FINE (r.fld (F.CLK_BTAB_BAND_FINE i))
    { s1 with clk := { s1.clk with searched := false, band := k, used := i :: s1.clk.used.filter (fun x => x != i) } }
  | none =>
    let s1 := ((s.setLoop 1).clrF F.CLK_STATUS_BAND_HIT).put F.CLK_BAND_BAND 127
    { s1 with clk := { s1.clk with lo := 0, hi := 255, steps := 8, searched := true } }

/-- WAIT_REF is left when the reference allows it (Table 11.3) and the loader has handed over the CLK fields (R377). -/
def State.leaveWait (s : State) : State :=
  if s.cfgReady ∧ s.get F.CLK_STATUS_LOOP = 0 ∧ s.flag F.CLK_STATUS_REF_OK ∧ (s.flag F.CLK_STATUS_OCXO_RDY ∨ s.loopRegs.bit F.CLK_CTRL_OCXO_WAIT = false) then
    s.startAcq else s

/-- HOLDOVER is left once the fabric has moved, from the held band and word (R262); that acquisition did not start from the
band table. -/
def State.leaveHold (s : State) : State :=
  if s.get F.CLK_STATUS_LOOP = 4 ∧ s.flag F.CLK_STATUS_REF_OK ∧ s.clk.toBypass = none then
    { ((s.setLoop 2).clrF F.CLK_STATUS_BAND_HIT) with clk := { s.clk with searched := false } } else s

/-- SEARCH_STEP: the oscillator at the band tried is too slow (up) or fast enough (R255). -/
def execSearchStep (up : Bool) (s : State) : Host.Outcome State Fault Refusal :=
  let k := s.clk
  .next (if s.get F.CLK_STATUS_LOOP = 1 ∧ 0 < k.steps then
      (let mid := (k.lo + k.hi) / 2
       let lo := if up then min 255 (mid + 1) else k.lo
       let hi := if up then max lo k.hi else mid
       if k.steps = 1 then
         { ((s.setLoop 2).put F.CLK_BAND_BAND lo) with clk := { k with lo := lo, hi := hi, steps := 0, band := fcwKey s.loopRegs } }
       else { (s.put F.CLK_BAND_BAND ((lo + hi) / 2)) with clk := { k with lo := lo, hi := hi, steps := k.steps - 1 } })
    else s)

/-- A device write of an RWS field: the active and the shadow value (log entry 28). -/
def State.putBoth (s : State) (f : Fld) (v : Nat) : State :=
  { s.put f v with shadow := Tab.set s.shadow f.off (fldSet (s.shadowWord f.off) f v) }

/-- The band table learns the band and fine word of a lock reached through SEARCH (R255). -/
def State.learn (s : State) : State :=
  if s.clk.searched = false ∨ s.loopRegs.bit F.CLK_CTRL_LEARN = false then s
  else
    let i := ((List.range 16).find? (fun j => !s.clk.used.contains j)).getD (s.clk.used.getLastD 0)
    let k := fcwKey s.loopRegs
    let s1 := ((((s.putBoth (F.CLK_BTAB_FCW_VALID i) 1).putBoth (F.CLK_BTAB_FCW_INT i) k.1).putBoth (F.CLK_BTAB_FRAC_FRAC i) k.2.1).putBoth
      (F.CLK_BTAB_MOD_MOD i) k.2.2)
    let s2 := (s1.putBoth (F.CLK_BTAB_BAND_BAND i) (s.get F.CLK_BAND_BAND)).putBoth (F.CLK_BTAB_BAND_FINE i) (s.get F.CLK_BAND_FINE)
    { s2 with clk := { s2.clk with used := i :: s2.clk.used.filter (fun x => x != i) } }

/-- The criteria of R253 from CLK_LOCK and CLK_LOCK_N: reference cycles, and windows in units of 250 fs. -/
def lockN (r : RegTab) : Nat :=
  let n := r.fld F.CLK_LOCK_N_LOCK_N
  if n = 0 then 16 * (r.fld F.CLK_LOCK_LOCK_N_DIV16 + 1) else max 16 n
def lockWin (r : RegTab) : Nat := max 1 (r.fld F.CLK_LOCK_LOCK_WIN)
def unlockN (r : RegTab) : Nat := max 1 (r.fld F.CLK_LOCK_UNLOCK_N)
def unlockWin (r : RegTab) : Nat := max 1 (r.fld F.CLK_LOCK_UNLOCK_WIN)

/-- CLK_PHERR shows the phase error of the last reference cycle, held to its 16 bits. -/
def State.showErr (s : State) (e : Int) : State := s.sput F.CLK_PHERR_ERR (max (-32768) (min 32767 e))

/-- LOOP_LOCK: over so many consecutive reference cycles the largest phase error was `worst`, the last one `err`. With the
criterion met the loop is LOCKED, and the fabric returns at the next boundary (R253, R258, R262). -/
def execLoopLock (x : LockSeen) (s : State) : Host.Outcome State Fault Refusal :=
  let r := s.loopRegs
  .next (if s.get F.CLK_STATUS_LOOP = 2 then
      (let s0 := s.showErr x.err
       if lockN r ≤ x.cycles ∧ x.worst ≤ lockWin r ∧ x.err.natAbs ≤ x.worst then
         (let s1 := ((s0.setLoop 3).put F.CLK_BAND_FINE x.fine).learn
          { s1 with clk := { s1.clk with toReturn := some s.lcnt, searched := false } })
       else s0)
    else s)

/-! ### Loss (R259, R263) -/

/-- The loop loses its lock or its reference in core cycle c (R259); the last good reference edge's LCNT is given. The fine word
freezes at its mean over the last 1024 reference cycles (R254), which only the loop knows: a free value (log entry 76). -/
def State.loopLoss (s : State) (c lastGood cause : Nat) : State :=
  let d := s.draw 24
  let s1 := (((d.2.setLoop 4).put F.CLK_BAND_FINE d.1).setF
    (if cause = 0 then F.CLK_STATUS_LOCK_LOST else F.CLK_STATUS_REF_LOST)).putN R.CLK_LOSS_LCNT 2 (lastGood % 2 ^ 64)
  let s2 := { s1 with clk := { s1.clk with toBypass := some c, toReturn := none } }
  (s2.post c 0x0301 s.locusHub (boundaryAfter c % 2 ^ 64 + min (c - lastGood) 0xFFFFFF * 2 ^ 64
    + (if s.flag F.CLK_STATUS_BYP_OK then 2 ^ 88 else 0) + cause * 2 ^ 89)).openPllGap c

/-- REFIN_LOST (R250, R254, R259). -/
def execRefinLost (c lastGood : Nat) (s : State) : Host.Outcome State Fault Refusal :=
  let s1 := (s.at_ c).clrF F.CLK_STATUS_REF_OK
  .next (match s.get F.CLK_STATUS_LOOP with
    | 3 => s1.loopLoss c lastGood 1
    | 1 => s1.setLoop 0
    | 2 => s1.setLoop 0
    | _ => s1)

/-- REFIN_RESTORED (R250, R254, R262). -/
def execRefinRestored (c : Nat) (s : State) : Host.Outcome State Fault Refusal :=
  .next ((((s.at_ c).setF F.CLK_STATUS_REF_OK).leaveWait).leaveHold)

/-- LOOP_UNLOCK: over so many consecutive reference cycles the smallest phase error was `least`, the last one `err`, or the TDC
overflowed (R253, R259). -/
def execLoopUnlock (c : Nat) (x : UnlockSeen) (s : State) : Host.Outcome State Fault Refusal :=
  let r := s.loopRegs
  .next (if s.get F.CLK_STATUS_LOOP = 3 then
      (let s0 := (s.at_ c).showErr x.err
       if x.overflow ∨ (unlockN r ≤ x.cycles ∧ unlockWin r < x.least) then s0.loopLoss c x.lastGood 0 else s0)
    else s.at_ c)

/-- FABRIC_TO_BYPASS at b_s, the first boundary after the loss (R259); without CLKBYP the fabric stays on the held
oscillator (R263). -/
def execFabricToBypass (s : State) : Host.Outcome State Fault Refusal :=
  .next (match s.clk.toBypass with
    | some c =>
      let b := boundaryAfter c
      let s1 := s.at_ b
      let s2 := { s1 with clk := { s1.clk with toBypass := none } }
      (if s.flag F.CLK_STATUS_BYP_OK then (s2.enterBypass b).publishTime b
       else { s2 with clk := { s2.clk with held := true } }).leaveHold
    | none => s)

/-- The fabric returns to the sample clock at boundary t: the PLL_BYPASS gap ends at t + 64, and the comparators' idle timers
start there (R78, R261, R262). -/
def State.fabricBack (s : State) (t : Nat) : State :=
  let s1 := if s.flag F.CLK_STATUS_FABRIC_BYP ∨ s.clk.held then (s.leaveBypass t).publishTime t else s
  let s2 : State := { s1 with clk := { s1.clk with toReturn := none, held := false, gap := (s1.clk.gap.1, some (t + 64)) } }
  let s3 := (List.range 16).foldl (fun u g => u.endLoss g 4 (t + 64)) s2
  ((List.range 288).filter (fun n => s3.regs.bit (F.TRG_AC_CTRL_EN n))).foldl (fun u n => u.startTimers n (t + 64)) s3.gapSyncAll

/-- FABRIC_RETURN at t_r, the first boundary after LOCKED: words through t_r + 63 are discarded (R262). -/
def execFabricReturn (s : State) : Host.Outcome State Fault Refusal :=
  .next (match s.clk.toReturn with
    | some c => if s.get F.CLK_STATUS_LOOP = 3 then (s.at_ (boundaryAfter c)).fabricBack (boundaryAfter c) else s
    | none => s)

/-- Fabric cycles that LCNT may leave uncounted at an oscillator stop, as 0x0303 and 0x0304 report them (R263). -/
def uncountedMax : Nat := 10

/-- OSCILLATOR_STOP: the fabric is on CLKBYP at once, the loop in WAIT_REF (R263). The cycles that went uncounted, at most 10, are
in no register: LCNT goes on at c, and the entry carries the bound. -/
def execOscillatorStop (c : Nat) (_uncounted : Fin 11) (s : State) : Host.Outcome State Fault Refusal :=
  let s1 := ((s.at_ c).setF F.CLK_STATUS_NTO_STOP).setF F.CLK_STATUS_LOCK_LOST
  let s2 : State := if s.flag F.CLK_STATUS_FABRIC_BYP then s1 else s1.enterBypass c
  let s3 := { s2 with timeDue := s2.timeDue ++ [TimeCause.ntoStop], clk := { s2.clk with toBypass := none, toReturn := none } }
  .next ((((s3.setLoop 0).post c 0x0303 s.locusHub uncountedMax).openPllGap c).leaveWait)

/-- CLKBYP_LOST: a fabric running on it returns to the held oscillator, with the same bound on uncounted cycles (R263). -/
def execClkbypLost (c : Nat) (_uncounted : Fin 11) (s : State) : Host.Outcome State Fault Refusal :=
  let s1 := (s.at_ c).clrF F.CLK_STATUS_BYP_OK
  .next (if s.flag F.CLK_STATUS_FABRIC_BYP then
      (let s2 : State := s1.leaveBypass c
       { s2 with timeDue := s2.timeDue ++ [TimeCause.ntoStop], clk := { s2.clk with held := true } }.post c 0x0304 s.locusHub uncountedMax)
    else s1)

/-- CLKBYP_RESTORED (R250). -/
def execClkbypRestored (c : Nat) (s : State) : Host.Outcome State Fault Refusal := .next ((s.at_ c).setF F.CLK_STATUS_BYP_OK)

/-- OCXO_RDY_FALL (R249). -/
def execOcxoRdyFall (s : State) : Host.Outcome State Fault Refusal :=
  let s1 := s.clrF F.CLK_STATUS_OCXO_RDY
  .next (if s.get F.CLK_STATUS_LOOP = 3 ∧ s.loopRegs.bit F.CLK_CTRL_OCXO_WAIT then
      (s1.setF F.CLK_STATUS_OCXO_COLD).post s.lcnt 0x0302 s.locusHub 0 else s1)

/-- OCXO_RDY_RISE (R254). -/
def execOcxoRdyRise (s : State) : Host.Outcome State Fault Refusal := .next ((s.setF F.CLK_STATUS_OCXO_RDY).leaveWait)

/-! ### Commits (R257, R258, R260, R266) -/

/-- BYP_RATIO of a register set (R260). -/
def bypRatio (r : RegTab) : Nat := (roundDiv ((fsOf r).1 * 16777216 : Nat) (max 1 ((fsOf r).2 * 6400000000))).toNat

/-- A list of (order, value) with one pair inserted by value, equal values by order. -/
def insertSpur (x : Nat × Nat) : List (Nat × Nat) → List (Nat × Nat)
  | [] => [x]
  | y :: ys => if x.2 < y.2 then x :: y :: ys else y :: insertSpur x ys

/-- The four smallest predicted spurs as (k, kFRAC distance) (R266). -/
def spurs (r : RegTab) : List (Nat × Nat) :=
  let f := r.fld F.CLK_FCW_FRAC_FRAC
  let m := r.fld F.CLK_FCW_MOD_MOD
  if f = 0 then []
  else (((List.range 16).map (fun i => (i + 1, min ((i + 1) * f % m) (m - (i + 1) * f % m)))).foldl
    (fun l x => insertSpur x l) []).take 4

/-- CLK_SPUR of a commit. -/
def State.showSpurs (s : State) : State :=
  let fref := if s.flag F.CLK_CTRL_REF_SEL then 100000000 else 10000000
  let l := spurs s.regs
  (List.range 4).foldl (fun t i => match l[i]? with
    | some x => (t.put (F.CLK_SPUR_K i) x.1).put (F.CLK_SPUR_OFFSET i)
        (roundDiv (fref * x.2 : Nat) (max 1 (s.get F.CLK_FCW_MOD_MOD))).toNat
    | none => (t.put (F.CLK_SPUR_K i) 0).put (F.CLK_SPUR_OFFSET i) 0) s

/-- The sample clock after a commit at boundary b, whose register set before was `old`: a small step, or a relock. A
small step is added to the fine word (R257), whose unit no rule states: a free value (log entry 76). -/
def State.clkCommit (s : State) (b : Nat) (old : RegTab) : State :=
  let s1 := (s.put F.CLK_BYP_RATIO_RATIO (bypRatio s.regs)).showSpurs
  if clkChange old s1.regs = false then s1.leaveWait
  else if s.clkSmall old s1.regs then
    (let d := s1.draw 24
     let pn := if s.flag F.CLK_STATUS_FABRIC_BYP then pnomBypass (s1.get F.CLK_BYP_RATIO_RATIO) else pnomSample s1.regs
     { d.2.put F.CLK_BAND_FINE d.1 with timeDue := s1.timeDue ++ [.nominal 5 pn.1 pn.2] })
  else
    let s2 := if s1.flag F.CLK_STATUS_FABRIC_BYP then
        (let pn := pnomBypass (s1.get F.CLK_BYP_RATIO_RATIO)
         { s1 with timeDue := s1.timeDue ++ [.nominal 6 pn.1 pn.2] })
      else if s1.flag F.CLK_STATUS_BYP_OK then s1.enterBypass b
      else { s1 with clk := { s1.clk with held := true } }
    let s3 := { s2 with clk := { s2.clk with toBypass := none, toReturn := none } }
    ((if s3.get F.CLK_STATUS_LOOP = 0 then s3 else s3.setLoop 0).openPllGap b).leaveWait

/-! ### Clock outputs (R264, R265) -/

/-- Output k is high at full-rate sample instant m, when it was enabled at boundary t0 (R264, R265). -/
def State.clkOutHigh (s : State) (k t0 m : Nat) : Bool :=
  let div := max 16 (s.get (F.CLK_OUT_DIV_DIV k))
  let dly := s.get (F.CLK_OUT_DELAY_DELAY k)
  if s.pllOut (m / 64) then false
  else match s.get (F.CLK_OUT_CTRL_MODE k) with
    | 1 =>
      let phase := (m + div - dly % div) % div
      decide (phase < div / 2) && decide (64 * t0 + phase ≤ m)
    | 2 =>
      let p := s.getN (R.CLK_OUT_PULSE k) 2
      let at0 := 64 * p + dly
      decide (t0 ≤ p) && decide (at0 ≤ m) && decide (m < at0 + div / 2)
    | _ => false

end Sys2Proof.Machine
end

