-- ==== Sys2Proof/Machine/Event.lean ====
section
/-! DEFINITION. Event inputs (spec/13): edges, interpolators, stamps, the stamp ring, intervals, statistics, frequency. -/

namespace Sys2Proof.Machine

/-- The binary64 pattern of a value (R302, R305). -/
def Fl.to64 : Fl → Nat
  | .nan => 0x7FF8000000000000
  | .negZero => 2 ^ 63
  | .inf s => if s then 0xFFF0000000000000 else 0x7FF0000000000000
  | .fin m e =>
    let q := finQ m e
    let r := roundMag 53 (-1074) q.1.natAbs q.2
    let sign := if m < 0 then 2 ^ 63 else 0
    if r.1 = 0 then sign
    else
      let c : Nat × Int := if r.1 = 2 ^ 53 then (2 ^ 52, r.2 + 1) else r
      if c.1 < 2 ^ 52 then sign + c.1
      else
        let ex := c.2 + 1075
        if 2047 ≤ ex then sign + 0x7FF0000000000000 else sign + ex.toNat * 2 ^ 52 + (c.1 - 2 ^ 52)

/-! ### Interpolators (R288-R291) -/

def Ev.ip (e : Ev) (i : Nat) : EvIp := if i = 0 then e.ip0 else e.ip1
def Ev.setIp (e : Ev) (i : Nat) (x : EvIp) : Ev := if i = 0 then { e with ip0 := x } else { e with ip1 := x }

/-- The EVT procedure holds input k (Table 14.4). -/
def State.evHeld (s : State) (k : Nat) : Bool :=
  s.cal.runs.any (fun r => r.die == 6 && r.start.isSome && !r.ended && bitOf r.mask k)

/-- Interpolator i of input k can take an edge in core cycle c (R288, R291, R293). -/
def State.evReady (s : State) (k i c : Nat) : Bool :=
  !s.flag (F.EVT_INT_CAL_FAILED k i) && !s.evHeld k && decide (((s.ev k).ip i).readyAt ≤ c)
    && (match s.clk.gap.2 with
      | some e => !(decide (e ≤ c) && decide (c < e + 10))
      | none => true)

/-- The interpolator that takes an edge: the one that has been ready longer (R288). -/
def State.evTaker (s : State) (k c : Nat) : Option Nat :=
  let a := s.evReady k 0 c
  let b := s.evReady k 1 c
  let e := s.ev k
  if a && b then some (if e.ip1.readyAt < e.ip0.readyAt then 1 else 0) else if a then some 0 else if b then some 1 else none

/-- An event interpolator fails: one left sets SINGLE, none fences the input (R291). -/
def State.evIntFail (s : State) (k i : Nat) : State :=
  if s.flag (F.EVT_INT_CAL_FAILED k i) then s
  else
    let s2 := (s.setF (F.EVT_INT_CAL_FAILED k i)).post s.lcnt 0x1001 (s.locus 6 15 255 (0xE0 + 2 * k + i)) 0
    let s3 := s2.setEv k { s2.ev k with qual := Nat.lor (s2.ev k).qual 8 }
    if s3.flag (F.EVT_INT_CAL_FAILED k (1 - i)) then
      ((s3.clrF (F.EVT_IN_STATUS_SINGLE k)).setF (F.EVT_IN_STATUS_FENCED k)).post s.lcnt 0x0104 (s.locus 6 15 255 (0xF0 + k)) 0
    else s3.setF (F.EVT_IN_STATUS_SINGLE k)

/-- Reference codes of an interpolator, checked under R291. -/
def State.evRefs (s : State) (k i n1 n2 : Nat) : State :=
  let s1 := (s.put (F.EVT_INT_CAL_N1 k i) n1).put (F.EVT_INT_CAL_N2 k i) n2
  let bad := decide (n1 + 450 < 6000) || decide (6450 < n1) || decide (n2 < n1 + 5550) || decide (n1 + 6450 < n2) || n2 == 16383
  if bad then s1.evIntFail k i else s1

/-- EVENT_INTERP_CAL_RUN: at the next boundary, or boundary + 1024 for the second interpolator, or t_r + 64 after a return
to the sample clock (R290, R291, R293); the interpolator takes no edge for 10 core cycles. -/
def execEventInterpCalRun (k : Fin 8) (i : Fin 2) (n1 n2 : BitVec 14) (s : State) : Host.Outcome State Fault Refusal :=
  let ofs := if i.val = 0 then 0 else 1024
  let grid := if s.lcnt ≤ ofs then ofs else roundUp (s.lcnt - ofs) tickLen + ofs
  let c := match s.clk.gap.2 with
    | some e => if s.lcnt ≤ e ∧ e < grid then e else grid
    | none => grid
  let s1 := s.at_ c
  let e := s1.ev k
  .next ((s1.setEv k (e.setIp i { e.ip i with readyAt := max (e.ip i).readyAt (c + 10) })).evRefs k i n1.toNat n2.toNat)

/-! ### Edges (R287, R292, R294) -/

/-- An edge of either direction matches a slope code: 0 rising, 1 falling, 2 either. -/
def slopeOk (code : Nat) (rising : Bool) : Bool := code == 2 || (code == 0 && rising) || (code == 1 && !rising)

/-- EVT_IN_EDGE_CNT. -/
def State.edgeCnt (s : State) (k : Nat) : Nat := s.getN (R.EVT_IN_EDGE_CNT k) 2 % 2 ^ 48

/-- The edge is selected for stamping, with the next sampling instant's index after it (Table 13.2). -/
def State.evSelected (s : State) (k c : Nat) : Bool × Nat :=
  let e := s.ev k
  match s.get (F.EVT_IN_CTRL_SEL k) with
  | 0 => (true, e.sample)
  | 1 => (s.edgeCnt k % (s.get (F.EVT_IN_PRESCALE_P_M1 k) + 1) == 0, e.sample)
  | _ =>
    let g0 := e.b + 16
    let sp := max 1 (s.get (F.EVT_IN_SPACE_SPACE k))
    if s.flag (F.EVT_IN_STATUS_RUN k) ∧ g0 + e.sample * sp ≤ c then (true, (c - g0) / sp + 1) else (false, e.sample)

/-- FUNC and RUN of an input. -/
def State.evRuns (s : State) (k func : Nat) : Bool := s.flag (F.EVT_IN_STATUS_RUN k) && s.get (F.EVT_IN_CTRL_FUNC k) == func

/-- An edge of input k is lost: the intervals that stop there keep its coarse instant (R301). -/
def State.lostStop (s : State) (k c : Nat) : State :=
  (List.range 8).foldl (fun t j =>
    let e := t.ev j
    if (t.evRuns j 2 || t.evRuns j 3) ∧ t.get (F.EVT_IN_CTRL_STOP_IN j) = k then
      t.setEv j { e with lostStop := e.lostStop ++ [65536 * (c : Int) + 32768 - t.get (F.EVT_DELAY_DELAY k)] } else t) s

/-- A selected edge without a stamp (R292, R297). -/
def State.evLost (s : State) (k c : Nat) : State :=
  let s1 := (s.incSat (F.EVT_IN_LOST_CNT_COUNT k)).setF (F.EVT_IN_STATUS_LOST_SEEN k)
  let e := s1.ev k
  let run := match e.lost with
    | some x => some (x.1, x.2 + 1)
    | none => some (c, 1)
  let s2 := if s.evRuns k 1 then s1.setEv k { e with lost := run }
    else if s.evRuns k 4 then s1.setEv k { e with lostAt := e.lostAt ++ [c] } else s1
  s2.lostStop k c

/-- EVENT_EDGE (R287, R288, R292): counted, offered to the trigger when it gets no stamp, taken by an interpolator. -/
def execEventEdge (k : Fin 8) (c : Nat) (rising : Bool) (s : State) : Host.Outcome State Fault Refusal :=
  let s0 := (s.at_ c).putB (F.EVT_IN_STATUS_LEVEL k) rising
  let coarse : State → State := fun t => t.offer (0x1E0 + k) (65536 * c + 32768 - s.get (F.EVT_DELAY_DELAY k)) rising true
  .next (if s.flag (F.EVT_IN_CTRL_EN k) = false then s0
    else if slopeOk (s.get (F.EVT_IN_CTRL_SLOPE k)) rising = false then coarse s0
    else
      let s1 := s0.putN (R.EVT_IN_EDGE_CNT k) 2 ((s0.edgeCnt k + 1) % 2 ^ 48)
      let sel := s1.evSelected k c
      let s2 := s1.setEv k { s1.ev k with sample := sel.2 }
      if sel.1 = false then coarse s2
      else match s2.evTaker k c with
        | some i => s2.setEv k ((s2.ev k).setIp i ⟨c + 5, some (c, rising, s2.edgeCnt k)⟩)
        | none => coarse (s2.evLost k c))

/-! ### Streams (R296-R298) -/

/-- A 16-byte entry (Table 13.4). -/
def State.evEntry (s : State) (cyc fine flags cnt : Nat) : List Byte :=
  packLE [(8, cyc), (2, fine), (2, (s.epochAt cyc).num), (1, flags), (3, cnt)]

/-- A stamp enters the FIFO, a pending loss marker ahead of it; the last slot is the marker's (R297). -/
def State.evPush (s : State) (k c : Nat) (x : EvStamp) : State :=
  let e := s.ev k
  let mark := match e.lost with
    | some l => [s.evEntry l.1 0 (k + 16) (min l.2 0xFFFFFF)]
    | none => []
  if e.fifo.length < 4095 then
    s.setEv k { e with
      fifo := e.fifo ++ mark ++ [s.evEntry (x.t / 65536) (x.t % 65536)
        (k + (if x.rising then 8 else 0) + (if x.byp then 32 else 0)) (x.cnt % 2 ^ 24)]
      lost := none }
  else s.setEv k { e with lost := match e.lost with
    | some l => some (l.1, l.2 + 1)
    | none => some (c, 1) }

/-- Slots of an input's ring (R298). -/
def State.evSlots (s : State) (k : Nat) : Nat := 4096 * max 1 (s.get (F.EVT_IN_RING_PAGES k))

/-- FIFO entries written into the ring. -/
def State.evWrite (s : State) (k : Nat) : List (List Byte) → State
  | [] => s
  | b :: bs =>
    let e := s.ev k
    let s1 := s.swrites (65536 * s.get (F.EVT_IN_RING_PAGE k) + 16 * e.ringIdx) b
    let wrap := decide (s.evSlots k ≤ e.ringIdx + 1)
    (s1.setEv k { e with
      ringIdx := if wrap then 4 else e.ringIdx + 1
      ringFull := e.ringFull || wrap
      ringOvf := if e.ringFull then e.ringOvf + 1 else e.ringOvf }).evWrite k bs

/-- What a stream writes at a tick boundary, in the DMA class: at most 820 entries, then the control block (R297-R299). -/
def State.evTick (s : State) (k : Nat) : State :=
  if s.get (F.EVT_IN_CTRL_FUNC k) ≠ 1 then s
  else
    let e := s.ev k
    let s1 := (s.setEv k { e with fifo := e.fifo.drop 820 }).evWrite k (e.fifo.take 820)
    let body := packLE [(4, (s1.ev k).ringIdx), (4, (s1.ev k).ringOvf)] ++ List.replicate 52 (0 : Byte)
    (s1.swrites (65536 * s.get (F.EVT_IN_RING_PAGE k)) (body ++ leBytes 4 (crc32c body))).served 1 (16 * min 820 e.fifo.length + 64)

/-! ### Results (R303, R306-R308) -/

/-- The value of an instant that differences are taken of: 2^-16 core cycle, or 2^-16 ns under SCALE = 1 (R303). -/
def State.evVal (s : State) (k t : Nat) : Int := if s.flag (F.EVT_IN_CTRL_SCALE k) then (s.netTime t).val else t

/-- Seconds of a difference (R303). -/
def State.evSecs (s : State) (k : Nat) (x : Fl) : Fl :=
  if s.flag (F.EVT_IN_CTRL_SCALE k) then x.div (Fl.ofInt 65536000000000)
  else (x.mul (Fl.ofInt 64)).div ((Fl.ofInt 65536).mul (Fl.ofQ (fsOf s.regs).1 (fsOf s.regs).2))

/-- Femtoseconds of a difference, rounded to nearest (R302). -/
def State.evFs (s : State) (k : Nat) (x : Int) : Int :=
  if s.flag (F.EVT_IN_CTRL_SCALE k) then roundDiv (x * 1000000) 65536
  else roundDiv (x * (64 * 1000000000000000 * (fsOf s.regs).2 : Nat)) (65536 * (fsOf s.regs).1)

/-- An epoch with cause START, SERVO_STEP or HOST_OFFSET opened between two instants (R303). -/
def State.stepped (s : State) (k t0 t1 : Nat) : Bool :=
  s.flag (F.EVT_IN_CTRL_SCALE k) && s.epochs.any (fun e =>
    decide (t0 < 65536 * e.lcnt) && decide (65536 * e.lcnt ≤ t1) && (bitOf e.cause 0 || bitOf e.cause 2 || bitOf e.cause 3))

/-- A result block without its SEQ (EVT_RES). -/
def State.evBlock (s : State) (k code qual cnt : Nat) (raw : Int) (start : Option EvStamp) (va vb : Nat) (mn mx : Int) : Nat × State :=
  let st : Nat × State := match start with
    | some x => (x.t / 65536 % 2 ^ 64 * 2 ^ 64 + x.t % 65536 * 2 ^ 128 + (s.epochAt (x.t / 65536)).num % 2 ^ 16 * 2 ^ 32, s)
    | none => let d := s.draw 64
      (d.1 * 2 ^ 64, d.2)
  (st.1 + s.get (F.EVT_IN_CTRL_FUNC k) * 2 ^ 48 + (code + 16 * qual) * 2 ^ 56 + cnt * 2 ^ 160 + enc 64 raw * 2 ^ 192
    + va % 2 ^ 64 * 2 ^ 256 + vb % 2 ^ 64 * 2 ^ 320 + enc 64 mn * 2 ^ 384 + enc 64 mx * 2 ^ 448, st.2)

/-- A block is published (R308). -/
def State.evPublish (s : State) (k v : Nat) : State :=
  let seq := (s.get (F.EVT_RES_SEQ k) + 1) % 2 ^ 32
  let s1 := if s.flag (F.EVT_IN_STATUS_READY k) then (s.incSat (F.EVT_IN_OVR_CNT_COUNT k)).setF (F.EVT_IN_STATUS_OVERRUN k) else s
  (s1.putN (R.EVT_RES k) 16 (v + seq)).setF (F.EVT_IN_STATUS_READY k)

/-- The qualifiers a new result starts with. -/
def State.evQual0 (s : State) (k : Nat) : Nat :=
  if s.flag (F.EVT_INT_CAL_FAILED k 0) || s.flag (F.EVT_INT_CAL_FAILED k 1) then 8 else 0

/-- The statistics block of the intervals measured so far (R302). Values without an interval are free (log entry 29). -/
def State.statBlock (s : State) (k code : Nat) : Nat × State :=
  let e := s.ev k
  if e.n = 0 then
    let a := s.draw 64
    let b := a.2.draw 64
    let c := b.2.draw 64
    let d := c.2.draw 64
    d.2.evBlock k code e.qual 0 0 e.first a.1 b.1 (sgn 64 c.1) (sgn 64 d.1)
  else
    let mean := (Fl.ofInt e.sum).div (Fl.ofInt e.n)
    let sdev := if e.n = 1 then Fl.ofInt 0
      else ((Fl.ofInt (e.n * e.sumSq - e.sum * e.sum)).div (Fl.ofInt (e.n * (e.n - 1)))).sqrt
    s.evBlock k code e.qual e.n 0 e.first (s.evSecs k mean).to64 (s.evSecs k sdev).to64 (s.evFs k e.mn) (s.evFs k e.mx)

/-- Least-squares slope of stamps (R305): numerator and denominator. -/
def State.slope (s : State) (k : Nat) (l : List EvStamp) : Int × Int :=
  match l with
  | [] => (0, 0)
  | f :: _ =>
    let ns := l.map (fun x => (((x.cnt + 2 ^ 48 - f.cnt) % 2 ^ 48 : Nat) : Int))
    let us := l.map (fun x => s.evVal k x.t - s.evVal k f.t)
    let kk : Int := l.length
    let nu := ((ns.zip us).map (fun p => p.1 * p.2)).sum
    let nn := (ns.map (fun x => x * x)).sum
    (kk * nu - ns.sum * us.sum, kk * nn - ns.sum * ns.sum)

/-- The frequency block of a gate's stamps (R305). Without a slope the two values are free (log entry 29). -/
def State.freqBlock (s : State) (k code qual : Nat) (l : List EvStamp) : Nat × State :=
  let sl := s.slope k l
  let byp := if l.any (fun x => x.byp) then 2 else 0
  let st := match l.head?, l.getLast? with
    | some a, some b => if s.stepped k a.t b.t then 4 else 0
    | _, _ => 0
  let q := Nat.lor (Nat.lor qual byp) st
  let raw : Int := match l.head?, l.getLast? with
    | some a, some b => (b.t : Int) - a.t
    | _, _ => 0
  if l.length < 2 ∨ sl.2 = 0 then
    let a := s.draw 64
    let b := a.2.draw 64
    let r := b.2.draw 64
    if l = [] then r.2.evBlock k (if code = 0 then 1 else code) q 0 (sgn 64 r.1) none a.1 b.1 0 0
    else b.2.evBlock k (if code = 0 then 1 else code) q l.length raw l.head? a.1 b.1 0 0
  else
    let b := s.evSecs k ((Fl.ofInt sl.1).div (Fl.ofInt sl.2))
    s.evBlock k code q l.length raw l.head? ((Fl.ofInt 1).div b).to64 b.to64 0 0

/-! ### Intervals (R301, R302) -/

/-- A stamp detected in core cycle c ends the open interval of input j (R301, R302, R306). An interval in which an edge of STOP_IN was
lost is discarded, and the result block's LOST qualifier is set. -/
def State.stopInterval (s : State) (j c : Nat) (x : EvStamp) : State :=
  let e := s.ev j
  match e.open_ with
  | none => s
  | some st =>
    if e.lostStop.any (fun z => decide ((st.t : Int) < z) && decide (z < x.t)) then
      s.setEv j { e with
        open_ := none
        after := x.t
        lostStop := e.lostStop.filter (fun z => decide ((x.t : Int) ≤ z))
        first := if e.n = 0 then none else e.first
        qual := Nat.lor e.qual 1 }
    else
      let dv := s.evVal j x.t - s.evVal j st.t
      let q := Nat.lor (Nat.lor e.qual (if st.byp || x.byp then 2 else 0))
        (if s.stepped j ((e.first.getD st).t) x.t then 4 else 0)
      let cont := s.flag (F.EVT_IN_CTRL_CONT j)
      if s.get (F.EVT_IN_CTRL_FUNC j) = 2 then
        (let b := s.evBlock j 0 q 1 ((x.t : Int) - st.t) (some st) (s.evSecs j (Fl.ofInt dv)).to64 0 0 0
         b.2.setEv j { e with
           open_ := none, after := x.t, qual := s.evQual0 j, first := none, results := e.results ++ [(c + 16, b.1)], ready := !cont })
      else
        let e1 : Ev := { e with
          open_ := none, after := x.t, qual := q, sum := e.sum + dv, sumSq := e.sumSq + dv * dv
          mn := if e.n = 0 then dv else min e.mn dv
          mx := if e.n = 0 then dv else max e.mx dv
          n := e.n + 1 }
        if e1.n ≤ s.get (F.EVT_IN_NSTAT_N_M1 j) then s.setEv j e1
        else
          let b := (s.setEv j e1).statBlock j 0
          b.2.setEv j { e1 with
            sum := 0, sumSq := 0, n := 0, first := none, qual := s.evQual0 j, results := e.results ++ [(c + 32, b.1)], ready := !cont }

/-- The earliest of the latest stamps of input k that p accepts. -/
def State.earliest (s : State) (k : Nat) (p : EvStamp → Bool) : Option (Nat × EvStamp) :=
  ((s.ev k).recent.filter (fun r => p r.2)).foldl (fun (m : Option (Nat × EvStamp)) r => match m with
    | none => some r
    | some y => if r.2.t < y.2.t then some r else some y) none

/-- The next start or stop of input j's intervals (R301): stamps that reached the unit in another order than their instants count in
the order of these. -/
def State.settleInt (s : State) (j : Nat) : Nat → State
  | 0 => s
  | fuel + 1 =>
    let e := s.ev j
    match e.open_ with
    | none =>
      if e.ready then s
      else match s.earliest j (fun x => decide (e.after ≤ x.t)) with
        | some x => (s.setEv j { e with
            open_ := some x.2
            first := some (e.first.getD x.2)
            lostStop := e.lostStop.filter (fun z => decide ((x.2.t : Int) < z)) }).settleInt j fuel
        | none => s
    | some st =>
      match s.earliest (s.get (F.EVT_IN_CTRL_STOP_IN j)) (fun x =>
        decide (st.t < x.t) && slopeOk (s.get (F.EVT_IN_CTRL_STOP_SLOPE j)) x.rising) with
      | some x => (s.stopInterval j x.1 x.2).settleInt j fuel
      | none => s

/-- A stamp reaches what uses it (R296, R301, R304). -/
def State.useStamp (s : State) (k c : Nat) (x : EvStamp) : State :=
  let s1 := if s.evRuns k 1 then s.evPush k c x else s
  let s2 := if s.evRuns k 4 then s1.setEv k { s1.ev k with stamps := (s1.ev k).stamps ++ [x] } else s1
  let e := s2.ev k
  let s3 := s2.setEv k { e with recent := (e.recent ++ [(c, x)]).drop (e.recent.length - 15) }
  (List.range 8).foldl (fun t j =>
    if (t.evRuns j 2 || t.evRuns j 3) ∧ (j = k ∨ t.get (F.EVT_IN_CTRL_STOP_IN j) = k) then t.settleInt j 4 else t) s3

/-- EVENT_STAMP: the interpolator's code gives the edge its instant (R289, R292). -/
def execEventStamp (k : Fin 8) (i : Fin 2) (nm : BitVec 14) (s : State) : Host.Outcome State Fault Refusal :=
  let e := s.ev k
  .next (match (e.ip i).meas with
    | none => s
    | some (c, rising, cnt) =>
      let s0 := (s.at_ (c + 4)).setEv k (e.setIp i { e.ip i with meas := none })
      let f := s0.fineTerm nm.toNat (s.get (F.EVT_INT_CAL_N1 k i)) (s.get (F.EVT_INT_CAL_N2 k i))
      let t : Int := 65536 * ((c + 2 : Nat) : Int) - (65536 + f.1) - s.get (F.EVT_DELAY_DELAY k)
      let x : EvStamp := ⟨t.toNat, rising, cnt, s.bypassIn c c⟩
      let s1 := if x.byp then f.2.setF (F.EVT_IN_STATUS_BYP_SEEN k) else f.2
      (s1.offer (0x1E0 + k) x.t rising false).useStamp k c x)

/-! ### Commands (R306) -/

/-- EVT_START (R306): at the first boundary after a. -/
def State.evStart (s : State) (a k : Nat) : State := (s.at_ a).setEv k { s.ev k with startReq := some a }

def execEvtStart (a : Nat) (k : Fin 8) (s : State) : Host.Outcome State Fault Refusal := .next (s.evStart a k)

/-- EVT_MEASUREMENT_START: both interpolators take fresh references N_1, N_2 of each at the boundary (R290, R306). -/
def execEvtMeasurementStart (k : Fin 8) (codes : List Nat) (s : State) : Host.Outcome State Fault Refusal :=
  match codes with
  | [a1, a2, b1, b2] =>
    .next (match (s.ev k).startReq with
      | none => s
      | some a =>
        let b := boundaryAfter a
        let s0 := s.at_ b
        let e := s.ev k
        let s1 := s0.setEv k { e with
          ip0 := { e.ip0 with readyAt := max e.ip0.readyAt (b + 10) }
          ip1 := { e.ip1 with readyAt := max e.ip1.readyAt (b + 10) }
          startReq := none, b := b, gate := 0, sample := 0, open_ := none, after := 65536 * b, sum := 0, sumSq := 0, n := 0
          first := none, stamps := [], lostAt := [], lostStop := [], qual := s.evQual0 k, ready := false }
        let s2 := (s1.evRefs k 0 (a1 % 16384) (a2 % 16384)).evRefs k 1 (b1 % 16384) (b2 % 16384)
        if s.flag (F.EVT_IN_CTRL_EN k) ∧ s.get (F.EVT_IN_CTRL_FUNC k) ≠ 0 then s2.setF (F.EVT_IN_STATUS_RUN k) else s2)
  | _ => .fault (.illFormed "EVT_MEASUREMENT_START")

/-- EVT_STOP: the measurement ends at once; a running STATS or FREQ result is published as ABORTED (R306). Of FREQ it is that of the
gate that runs then; one that has ended and is not published yet is given up (log entry 29). -/
def State.evStop (s : State) (k : Nat) : State :=
  let e := s.ev k
  let s0 := s.setEv k { e with startReq := none }
  if s.flag (F.EVT_IN_STATUS_RUN k) = false then s0
  else
    let s1 := s0.clrF (F.EVT_IN_STATUS_RUN k)
    match s.get (F.EVT_IN_CTRL_FUNC k) with
    | 3 => let b := s1.statBlock k 2
      b.2.evPublish k b.1
    | 4 =>
      let len := max 1 (s.getN (R.EVT_IN_GATE k) 2 % 2 ^ 40)
      let g0 := e.b + 16 + max e.gate ((s.lcnt - (e.b + 16)) / len) * len
      let b := s1.freqBlock k 2 (Nat.lor e.qual (if e.lostAt.any (fun c => decide (g0 ≤ c)) then 1 else 0))
        (e.stamps.filter (fun x => decide (g0 ≤ x.t / 65536)))
      b.2.evPublish k b.1
    | _ => s1

def execEvtStop (k : Fin 8) (s : State) : Host.Outcome State Fault Refusal := .next (s.evStop k)

/-- The oldest result waiting is published at its core cycle. -/
def State.evResult (s : State) (k : Nat) : State :=
  let e := s.ev k
  match e.results with
  | [] => s
  | r :: rest =>
    let s1 := ((s.at_ r.1).setEv k { e with results := rest }).evPublish k r.2
    if e.ready ∧ rest = [] then s1.clrF (F.EVT_IN_STATUS_RUN k) else s1

/-- INTERVAL_RESULT (R301, R306). -/
def execIntervalResult (k : Fin 8) (s : State) : Host.Outcome State Fault Refusal :=
  .next (if s.get (F.EVT_IN_CTRL_FUNC k) = 2 then s.evResult k else s)

/-- STATS_RESULT (R302, R306). -/
def execStatsResult (k : Fin 8) (s : State) : Host.Outcome State Fault Refusal :=
  .next (if s.get (F.EVT_IN_CTRL_FUNC k) = 3 then s.evResult k else s)

/-- FREQ_GATE_END: 64 core cycles after the gate's last one (R304-R306). -/
def execFreqGateEnd (k : Fin 8) (s : State) : Host.Outcome State Fault Refusal :=
  .next (if s.evRuns k 4 then
      (let e := s.ev k
       let len := s.getN (R.EVT_IN_GATE k) 2 % 2 ^ 40
       let g0 := e.b + 16 + e.gate * len
       let g1 := g0 + len
       let s0 := s.at_ (g1 - 1 + 64)
       let mine := e.stamps.filter (fun x => g0 ≤ x.t / 65536 && x.t / 65536 < g1)
       let lost := e.lostAt.any (fun c => decide (c < g1))
       let b := s0.freqBlock k 0 (Nat.lor e.qual (if lost then 1 else 0)) mine
       let s1 := (b.2.setEv k { b.2.ev k with
         gate := e.gate + 1, stamps := e.stamps.filter (fun x => g1 ≤ x.t / 65536), lostAt := e.lostAt.filter (fun c => g1 ≤ c)
         qual := s.evQual0 k }).evPublish k b.1
       if s.flag (F.EVT_IN_CTRL_CONT k) then s1 else s1.clrF (F.EVT_IN_STATUS_RUN k))
    else s)

/-- A read of EVT_RES (R308): SEQ is answered, words 1-15 are latched for the function, READY clears. -/
def State.evRead (s : State) (fn k : Nat) : State :=
  let v := s.getN (R.EVT_RES k) 16
  (s.latchWords fn (R.EVT_RES k + 4) 15 (v / 4294967296)).clrF (F.EVT_IN_STATUS_READY k)

end Sys2Proof.Machine
end

