-- ==== Sys2Proof/Machine/HostQueue.lean ====
section
/-! DEFINITION. The PCIe host interface (spec/09): BAR2, doorbells, readout queues, descriptors and their completions. -/

namespace Sys2Proof.Machine

/-! ### Who reaches a queue -/

/-- Function fn reaches queue q's context and doorbell (R204). -/
def State.reaches (s : State) (fn q : Nat) : Bool :=
  fn == 0 || (s.flag (F.DMA_Q_OWNER_VALID q) && s.get (F.DMA_Q_OWNER_FUNC q) == fn)

/-- Queue q is a host queue: it has an owner and is no stream (R204). -/
def State.isHostQ (s : State) (q : Nat) : Bool := s.flag (F.DMA_Q_OWNER_VALID q) && !s.flag (F.STM_Q_CTRL_EN q)

/-- The locus of a readout queue (Table 0.4). -/
def State.locusQ (s : State) (q : Nat) : Nat := s.locus 6 15 (0xC0 + q / 256) (q % 256)

/-- The queue's vector is signalled (R203). -/
def State.signalQ (s : State) (q : Nat) : State := s.signal (s.get (F.DMA_Q_OWNER_FUNC q)) (s.get (F.DMA_QC_CTRL_VEC q))

/-! ### Store bytes for readers -/

/-- The byte of a group's page map at a store address (R122), none outside the map. -/
def State.mapByte (s : State) (a g : Nat) : Option Byte :=
  let base := 256 * s.get (F.REC_GRP_PMAP_ADDR g)
  let n := ringPages s.regs g
  if base ≤ a ∧ a < base + 4 * n ∧ base ≠ 0 then
    (leBytes 4 (s.physPage g ((a - base) / 4)))[(a - base) % 4]?
  else none

/-- A byte as a reader of the store sees it: page maps, then the store. -/
def State.readByte (s : State) (a : Nat) : Byte :=
  ((usedGrps s.regs).findSome? (s.mapByte a)).getD (s.sread a)

/-- n bytes from address a, poisoned bursts as zeros, and whether any was poisoned (R223). -/
def State.readBytes (s : State) (a n : Nat) : List Byte × Bool :=
  ((List.range n).map (fun i => if s.poisoned (a + i) then (0 : Byte) else s.readByte (a + i)),
   (List.range (n / 256 + 2)).any (fun i => decide (256 * (a / 256 + i) < a + n) && s.poisoned (256 * (a / 256 + i))))

/-- Free bytes. -/
def State.drawBytes (s : State) : Nat → List Byte × State
  | 0 => ([], s)
  | n + 1 =>
    let d := s.draw 8
    let r := d.2.drawBytes n
    (BitVec.ofNat 8 d.1 :: r.1, r.2)

/-- Store capacity in bytes (R155). -/
def State.capBytes (s : State) : Nat := 65536 * s.capPages

/-! ### BARs and configuration -/

/-- What a configuration request does to the masks of its function's vectors. -/
def State.msixSet (s : State) (fn : Nat) : CfgReq → State
  | .other => s
  | .functionMask on =>
    let rest := s.msix.fns.filter (fun f => f != fn)
    ({ s with msix := { s.msix with fns := if on then fn :: rest else rest } } : State).sendPending
  | .vectorMask vec on =>
    let rest := s.msix.vecs.filter (fun p => p != (fn, vec.val))
    ({ s with msix := { s.msix with vecs := if on then (fn, vec.val) :: rest else rest } } : State).sendPending

/-- PCIE_CONFIG_REQUEST: Retry Status until both image slots are read (R24, R199). -/
def execPcieConfigRequest (x : CfgAccess) (s : State) : Host.Outcome State Fault Refusal :=
  .next (if s.cfgReady then (s.msixSet x.fn x.req).emit (.completion x.fn 0 false []) else s.emit (.completion x.fn 2 false []))

/-- An Unsupported Request of a function is reported through AER (R199, R201, R221). -/
def State.reportUr (s : State) (fn : Nat) : State := s.emit (.aer fn 0)

/-- BAR2_READ (R201), granted in the DMA class. -/
def execBar2Read (fn : Fin 64) (off len : Nat) (s : State) : Host.Outcome State Fault Refusal :=
  let a := 2 ^ 30 * min 64 (s.get (F.DMA_BAR2_BASE_GIB fn)) + off
  .next (if s.capBytes < a + len then
      (((s.setF F.DMA_STATUS_UR_SEEN).incSat F.DMA_UR_CNT_COUNT).reportUr fn).emit (.completion fn 1 false [])
    else
      (let k := s.ask 1 (2048 + fn) len
       let r := s.readBytes a len
       if k.1 = false then k.2
       else if r.2 then (let d := k.2.drawBytes len
        d.2.emit (.completion fn 0 true d.1))
       else k.2.emit (.completion fn 0 false r.1)))

/-- BAR2_WRITE: an Unsupported Request, ignored (R201). -/
def execBar2Write (fn : Fin 64) (off : Nat) (s : State) : Host.Outcome State Fault Refusal :=
  let _ := off
  .next ((s.incSat F.DMA_UR_CNT_COUNT).reportUr fn)

/-! ### Formatted output (R211-R213) -/

/-- A piece of a record's output: width in bits, value, poisoned, the physical pages it comes from, and its channel, 48 where it
belongs to no one channel. -/
structure OutItem where
  w : Nat
  v : Nat
  bad : Bool
  pages : List Nat
  ch : Nat
  deriving DecidableEq, Repr

/-- A stored header read as a layout. The span is the slot's, or follows from the header (R101, R112), where D > 1 with n samples
per core cycle; a header does not tell n then (log entry 87). -/
def State.imgFmt (s : State) (pages : List Nat) (span : Option (Nat × Nat)) (n : Nat) : ImgFmt :=
  let h := s.hdrField pages
  let red := h 0x46 2
  let d := h 0x84 4 + 1
  let mode := red % 4
  let width := red / 4 % 4
  let olin := h 0x80 4
  let n := if d = 1 ∧ h 0x38 4 ≠ 0 then h 0x38 4 / max 1 olin else n
  let s0 := if h 0x02 1 = 3 then h 0x10 8 else h 0x10 8 - (h 0x3C 4 - h 0x1C 4) / max 1 n
  let e0 := if h 0x02 1 = 3 then s0 + h 0x38 4 / max 1 n - 1 else h 0x10 8 + (h 0x38 4 - h 0x3C 4) / max 1 n - 1
  let sp := span.getD (s0, e0)
  let k := fun c => if d = 1 then c else ceilDiv (c * n) d
  { mask := h 0x40 6, payload := h 0x70 4, stride := h 0x74 4, w := h 0x78 4, nw := h 0x7C 4,
    v := if mode = 1 then 2 else if mode = 3 then 3 else 1, b := if width = 0 then 10 else if width = 1 then 16 else 24,
    e := if d = 1 then n else 1, offWin := h 0x88 4, offLin := h 0x8C 4, k0 := k sp.1, orec := k (sp.2 + 1) - k sp.1 }

/-- The bit offset in the image of value i of element j of channel n. -/
def ImgFmt.bit (f : ImgFmt) (n j i : Nat) : Nat :=
  let eb := f.e * f.v * f.b
  8 * (f.payload + rankIn f.mask n * f.stride) + f.b * i
    + (if j < f.nw then 8 * f.offWin + (f.k0 + j) % max 1 f.w * eb else 8 * f.offLin + (j - f.nw) * eb)

/-- The store address of an image byte. -/
def imgAddr (pages : List Nat) (o : Nat) : Nat := 65536 * ((pages[o / 65536]?).getD 0) + o % 65536

/-- A stored value as an output item of ow bits (R212); its bits that come from a poisoned burst are 0 (R223). -/
def State.valItem (s : State) (pages : List Nat) (f : ImgFmt) (ow n j i : Nat) : OutItem :=
  let bit := f.bit n j i
  let first := bit / 8
  let len := (bit % 8 + f.b + 7) / 8
  let as := (List.range len).map (fun k => imgAddr pages (first + k))
  let raw := leValue (as.map (fun a => if s.poisoned a then (0 : Byte) else s.sread a)) / 2 ^ (bit % 8) % 2 ^ f.b
  ⟨ow, enc ow (sgn f.b raw), as.any s.poisoned, (as.map (fun a => a / 65536)).dedup, n⟩

/-- A 64-byte unit of the stored image as an output item. -/
def State.unitItem (s : State) (pages : List Nat) (o : Nat) : OutItem :=
  let a := imgAddr pages o
  let bad := s.poisoned a
  ⟨512, if bad then 0 else leValue (s.sreads a 64), bad, [a / 65536], 48⟩

/-- Zero bits that complete the register. -/
def padItem (bits : Nat) : List OutItem := if bits % 512 = 0 then [] else [⟨512 - bits % 512, 0, false, [], 48⟩]

def itemBits (l : List OutItem) : Nat := (l.map (fun x => x.w)).sum

/-- Blocks of 512 values, the last completed with zero values. -/
def blocks512 : Nat → List OutItem → List (List OutItem)
  | 0, _ => []
  | fuel + 1, l => if l = [] then [] else
      (l.take 512 ++ List.replicate (512 - l.length) ⟨0, 0, false, [], 48⟩) :: blocks512 fuel (l.drop 512)

/-- The planes of a block, the highest bit first (FMT 0b11). -/
def planes (b : Nat) (blk : List OutItem) : List OutItem :=
  (List.range b).map (fun i =>
    ⟨512, ofBits (blk.map (fun x => bitOf x.v (b - 1 - i))), blk.any (fun x => x.bad), (blk.flatMap (fun x => x.pages)).dedup, (blk.headD ⟨0, 0, false, [], 48⟩).ch⟩)

/-- All values of one channel in record element order. -/
def State.chanItems (s : State) (pages : List Nat) (f : ImgFmt) (ow n : Nat) : List OutItem :=
  (List.range f.orec).flatMap (fun j => (List.range (f.e * f.v)).map (fun i => s.valItem pages f ow n j i))

/-- The whole output of a record in a format (R211, R213). meas includes the measurement block in FMT 0b00. -/
def State.outItems (s : State) (pages : List Nat) (f : ImgFmt) (fmt ow sel : Nat) (meas : Bool) : List OutItem :=
  let chs := bitsSet 48 (Nat.land f.mask sel)
  let hdr := (List.range (if meas && fmt == 0 then f.payload / 64 else 4)).map (fun i => s.unitItem pages (64 * i))
  match fmt with
  | 0 => hdr ++ chs.flatMap (fun n => (List.range (f.stride / 64)).map (fun i =>
      s.unitItem pages (f.payload + rankIn f.mask n * f.stride + 64 * i)))
  | 1 => hdr ++ chs.flatMap (fun n => (let l := s.chanItems pages f ow n
      l ++ padItem (itemBits l)))
  | 2 =>
    let l := (List.range f.orec).flatMap (fun j => (List.range f.e).flatMap (fun k => chs.flatMap (fun n =>
      (List.range f.v).map (fun i => s.valItem pages f ow n j (k * f.v + i)))))
    hdr ++ l ++ padItem (itemBits l)
  | _ => hdr ++ chs.flatMap (fun n => (let l := s.chanItems pages f f.b n
      (blocks512 l.length l).flatMap (planes f.b)))

/-- Width of a delivered value; none where R212 gives QERR_FORMAT. -/
def outWidth (fmt ow b : Nat) : Option Nat :=
  if ow = 3 ∨ ((fmt = 0 ∨ fmt = 3) ∧ ow ≠ 0) then none
  else if ow = 0 then some b
  else if 16 * ow < b then none else some (16 * ow)

/-- A WRAP-reclaimed record ends at the first value past the kept offset whose source lies outside the pinned pages (R224). -/
def cutItems (cut : List Nat) (kept : Nat) : Nat → List OutItem → List OutItem
  | _, [] => []
  | pos, x :: xs => if kept < pos + x.w ∧ kept ≤ pos ∧ !(x.pages.all cut.contains) then [] else x :: cutItems cut kept (pos + x.w) xs

/-- Items as one number, the first in the lowest bits, with the poisoned bits as a second number. -/
def packItems : List OutItem → Nat × Nat
  | [] => (0, 0)
  | x :: xs =>
    let r := packItems xs
    (x.v % 2 ^ x.w + 2 ^ x.w * r.1, (if x.bad then 2 ^ x.w - 1 else 0) + 2 ^ x.w * r.2)

/-- The output from a bit position on; the item that straddles it gives its remaining bits, and whether there is one (R213). -/
def tailAt (target : Nat) : Nat → List OutItem → Bool × List OutItem
  | _, [] => (false, [])
  | pos, x :: xs =>
    if pos + x.w ≤ target then tailAt target (pos + x.w) xs
    else if pos < target then (true, { x with w := pos + x.w - target, v := x.v / 2 ^ (target - pos) } :: xs)
    else (false, x :: xs)

/-- Bits of the item that straddles. -/
def heldBits (l : Bool × List OutItem) : Nat := if l.1 then ((l.2.head?).map (fun x : OutItem => x.w)).getD 0 else 0

/-! ### Queue bookkeeping -/

/-- Pinned pages of a queue's record in progress (R224). -/
def State.pinQ (s : State) (q g : Nat) (pages : List Nat) : State :=
  (s.setPins g q pages).putB (F.DMA_QC_STATUS_PINNED q) (pages != [])

/-- The queue's record in progress ends: nothing is pinned, its offset returns to 0. -/
def State.dropRec (s : State) (q : Nat) : State :=
  let x := s.hostq q
  let s1 := match x.recd with
    | some r => s.pinQ q r.g []
    | none => s
  ((s1.setHostq q { s1.hostq q with recd := none, held := 0, heldBad := false }).put (F.DMA_QC_OFFSET_BYTES q) 0).put (F.DMA_QC_HOLD_BITS q) 0

/-- The 32-byte completion record (Table 9.7). -/
def compBytes (lcnt epoch status flags bytes num tag : Nat) : List Byte :=
  let body := packLE [(8, lcnt), (2, epoch), (1, status), (1, flags), (4, bytes), (8, num), (4, tag)]
  body ++ leBytes 4 (crc32c body)

/-- A fetch of a descriptor (R219): counted in HOPS, read from host memory. -/
def State.issueFetch (s : State) (q addr : Nat) (again : Bool) : State :=
  let s1 := (s.incWrap (F.DMA_QC_HOPS_HOPS q)).setHostq q { s.hostq q with fetch := some (addr, again), fetchAt := s.lcnt }
  (s1.putN (R.DMA_QC_CUR q) 2 addr).emit (.hostRead addr 64)

/-- A queue's record state now (R222). -/
def State.markOf (s : State) (q : Nat) : QMark :=
  let x := s.hostq q
  { recd := x.recd
    off := s.get (F.DMA_QC_OFFSET_BYTES q)
    bits := s.get (F.DMA_QC_HOLD_BITS q)
    held := x.held
    heldBad := x.heldBad
    pins := match x.recd with
      | some r => ((s.grp r.g).pins.filter (fun p => p.2 == q)).map (fun p => p.1)
      | none => [] }

/-- The state a halt restores: of a record that WRAP reclaimed only the pages still pinned are left (R222, R224). -/
def State.markNow (s : State) (q : Nat) (m : QMark) : QMark :=
  match m.recd with
  | some r =>
    (match r.cut with
     | some ps =>
       let left := ps.filter (fun p => (s.grp r.g).pins.contains (p, q))
       { m with recd := some { r with cut := some left }, pins := m.pins.filter left.contains }
     | none => m)
  | none => { m with pins := [] }

/-- The record state of a queue becomes m. -/
def State.restore (s : State) (q : Nat) (m : QMark) : State :=
  let x := s.hostq q
  let s1 := match x.recd, m.recd with
    | some r, some r0 => if r.g = r0.g then s.pinQ q r.g m.pins else (s.pinQ q r.g []).pinQ q r0.g m.pins
    | some r, none => s.pinQ q r.g []
    | none, some r0 => s.pinQ q r0.g m.pins
    | none, none => s
  ((s1.setHostq q { s1.hostq q with recd := m.recd, held := m.held, heldBad := m.heldBad }).put (F.DMA_QC_OFFSET_BYTES q) m.off).put
    (F.DMA_QC_HOLD_BITS q) m.bits

/-- A descriptor's completion record is written (R216). -/
def State.compWrite (s : State) (q : Nat) (skipped : Bool) (c : Comp) : State :=
  if bitOf c.d.ctl 2 then
    (s.setHostq q { s.hostq q with wrote := some { c with since := s.lcnt } }).emit (.hostWrite false c.d.status
      (compBytes s.lcnt (s.epochAt s.lcnt).num c.status (c.flags + (if skipped then 16 else 0)) c.bytes (c.num.getD (2 ^ 64 - 1)) c.d.tag))
  else s

/-- A queue halts at a descriptor (R217, R222): later work is dropped, the record state returns to that descriptor's start. No
record is written where the status address itself has failed. -/
def State.haltQ (s : State) (q : Nat) (c : Comp) (record : Bool) : State :=
  let x := s.hostq q
  let s1 := (s.restore q (s.markNow q c.mark)).unask 1 q
  let s2 := (s1.setHostq q { s1.hostq q with
    fetch := none
    cur := none
    pos := 0
    bad := false
    deficit := 0
    wrote := none
    pend := [] }).putN (R.DMA_QC_CUR q) 2 c.d.addr
  let s3 := (s2.put (F.DMA_QC_STATUS_STATE q) 3).put (F.DMA_QC_STATUS_ERR q) c.status
  let s4 := if record then s3.compWrite q x.skipped c else s3
  (s4.signalQ q).post s.lcnt 0x0A01 (s.locusQ q) 0

/-- Step 3 to 5 of R216 for a descriptor whose data is visible; the tail parks or is fetched again (R219). -/
def State.completeQ (s : State) (q : Nat) (c : Comp) : State :=
  let x := s.hostq q
  let s1 := (s.setHostq q { x with skipped := false }).incWrap (F.DMA_QC_DONE_CNT_COUNT q)
  let s2 := match c.rel with
    | some r => s1.readerDone r.1 r.2 q
    | none => s1
  let s3 := s2.compWrite q x.skipped c
  let s4 := if bitOf c.d.ctl 1 then s3.signalQ q else s3
  match c.latch with
  | none => s4
  | some n =>
    if s4.get (F.DMA_QC_DB_CNT_COUNT q) = n then
      ((s4.setHostq q { s4.hostq q with tail := c.d.addr }).put (F.DMA_QC_STATUS_STATE q) 2).putN (R.DMA_QC_CUR q) 2 c.d.addr
    else if s4.get (F.DMA_QC_HOPS_HOPS q) = 1048576 then s4.haltQ q { c with status := 2, mark := s.markOf q } true
    else (s4.setHostq q { s4.hostq q with tail := c.d.addr }).issueFetch q c.d.addr true

/-- Completions in descriptor order: those at the front that wait for nothing (R216). -/
def State.drainQ (s : State) (q : Nat) : Nat → State
  | 0 => s
  | fuel + 1 =>
    let x := s.hostq q
    match x.pend with
    | c :: rest =>
      if c.wait then s
      else if 1 ≤ c.status ∧ c.status ≤ 4 then s.haltQ q c true
      else ((s.setHostq q { x with pend := rest }).completeQ q c).drainQ q fuel
    | [] => s

/-- A completion joins the queue's completions. -/
def State.finishQ (s : State) (q : Nat) (c : Comp) : State :=
  let x := s.hostq q
  ((s.setHostq q { x with cur := none, pos := 0, bad := false, deficit := 0, pend := x.pend ++ [c] }).unask 1 q).drainQ q (x.pend.length + 1)

/-- A completion of a queue at an address where no descriptor was read. -/
def State.compAt (s : State) (q addr status : Nat) : Comp :=
  ⟨⟨addr, 0, 0, 0, 0, 0, 0, 0, 0, 0, false⟩, status, 0, 0, none, false, s.lcnt, none, s.markOf q, none⟩

/-- The descriptor at an address is fetched, or the queue halts with QERR_LOOP there (R220). -/
def State.nextDesc (s : State) (q addr : Nat) : State :=
  if s.get (F.DMA_QC_HOPS_HOPS q) = 1048576 then
    s.finishQ q (s.compAt q addr 2)
  else s.issueFetch q addr false

/-- A descriptor's data is done: its completion, and the next descriptor when the chain goes on (R216, R219). -/
def State.doneQ (s : State) (q : Nat) (c : Comp) : State :=
  let s1 := s.finishQ q c
  if c.latch = none ∧ s1.get (F.DMA_QC_STATUS_STATE q) = 1 then s1.nextDesc q c.d.next else s1

/-- A completion of the descriptor at work that wrote nothing. -/
def State.compOf (s : State) (q : Nat) (d : Desc) (latch : Option Nat) (status : Nat) : Comp :=
  ⟨d, status, 0, 0, none, false, s.lcnt, latch, (s.hostq q).mark, none⟩

/-- The queue stops and forgets its work; its pages are unpinned and its record stays unreleased (R222). -/
def State.abortQ (s : State) (q : Nat) : State :=
  if s.get (F.DMA_QC_STATUS_STATE q) = 0 then s
  else
    let s1 := (s.dropRec q).unask 1 q
    (s1.setHostq q { HostQ.init with skipped := (s1.hostq q).skipped }).put (F.DMA_QC_STATUS_STATE q) 0

/-- Records a queue binds to when BIND is set: those of its group that are still in the ring (R210). -/
def State.bindQ (s : State) (q g : Nat) : State :=
  let gr := s.grp g
  s.setGrp g { gr with slots := gr.slots.map (fun x => if x.ready ∧ !(x.readers.contains q) then { x with readers := x.readers ++ [q] } else x) }

/-- A queue is no reader any more; records that only it held are free when another bound reader released them (R122). -/
def State.unbindQ (s : State) (q g : Nat) : State :=
  let gr := s.grp g
  let left := (s.boundReaders g).filter (fun r => r != q)
  if left = [] then s.setGrp g { gr with slots := gr.slots.map (fun x => { x with readers := x.readers.filter (fun r => r != q) }) }
  else gr.slots.foldl (fun t x => if x.readers.contains q then t.readerDone g x.num q else t) s

/-! ### The commands -/

/-- DOORBELL (R202, R219). -/
def State.doorbell (s : State) (fn q : Nat) : State :=
  if s.reaches fn q = false then s
  else
    let s1 := (s.incWrap (F.DMA_QC_DB_CNT_COUNT q)).put (F.DMA_QC_HOPS_HOPS q) 0
    let x := s1.hostq q
    match x.fetch with
    | some (_, true) => s1.setHostq q { x with owed := x.owed + 1 }
    | _ => if s.get (F.DMA_QC_STATUS_STATE q) = 2 then s1.issueFetch q x.tail true else s1

/-- DOORBELL: an access to BAR4. A write to a queue's doorbell rings it, every read is answered with zeros (R202, R8). -/
def execDoorbell (fn : Fin 64) (x : BarAccess) (s : State) : Host.Outcome State Fault Refusal :=
  .next (if x.write = false then s.emit (.completion fn 0 false [0, 0, 0, 0])
    else if x.off % 4096 = 0 ∧ x.off < 4194304 then s.doorbell fn (x.off / 4096) else s)

/-- QUEUE_START (R205). -/
def State.startQ (s : State) (fn q : Nat) : State :=
  if s.reaches fn q ∧ s.isHostQ q ∧ s.get (F.DMA_QC_STATUS_STATE q) = 0 then
    ((s.put (F.DMA_QC_STATUS_STATE q) 1).put (F.DMA_QC_HOPS_HOPS q) 0).nextDesc q (s.getN (R.DMA_QC_HEAD q) 2 / 64 * 64)
  else s

def execQueueStart (fn : Fin 64) (q : Fin 1024) (s : State) : Host.Outcome State Fault Refusal := .next (s.startQ fn q)

/-- QUEUE_RESUME: the descriptor at CUR runs again from its beginning (R222). -/
def State.resumeQ (s : State) (fn q : Nat) : State :=
  if s.reaches fn q ∧ s.isHostQ q ∧ s.get (F.DMA_QC_STATUS_STATE q) = 3 then
    (s.put (F.DMA_QC_STATUS_STATE q) 1).nextDesc q (s.getN (R.DMA_QC_CUR q) 2)
  else s

def execQueueResume (fn : Fin 64) (q : Fin 1024) (s : State) : Host.Outcome State Fault Refusal := .next (s.resumeQ fn q)

/-- QUEUE_ABORT (R222). -/
def State.abortCmd (s : State) (fn q : Nat) : State := if s.reaches fn q then s.abortQ q else s

def execQueueAbort (fn : Fin 64) (q : Fin 1024) (s : State) : Host.Outcome State Fault Refusal := .next (s.abortCmd fn q)

/-- A descriptor's fields (Table 9.4) and whether R209 refuses it. -/
def parseDesc (addr : Nat) (bs : List Byte) : Desc :=
  let h := fun o n => leValue ((bs.drop o).take n)
  let op := h 1 1
  let ctl := h 2 2
  let bad := h 0 1 != 1 || decide (4 < op) || ctl / 128 != 0 || h 0x26 2 != 0 || h 0x34 12 != 0
    || h 4 4 % 64 != 0 || h 4 4 == 0 || h 8 8 % 64 != 0 || h 0x10 8 % 64 != 0
    || (ctl % 2 == 0 && h 0x18 8 % 64 != 0) || h 0x28 8 % 32 != 0
    || (h 8 8 != 0 && op != 1 && op != 2) || (h 0x10 8 != 0 && (op == 0 || op == 4))
  ⟨addr, op, ctl, h 4 4, h 8 8, h 0x10 8, h 0x18 8, h 0x20 6, h 0x28 8, h 0x30 4, bad⟩

/-- A fetched descriptor arrives: checked, followed, latched or parked (R209, R219). -/
def State.fetched (s : State) (q : Nat) (bs : List Byte) : State :=
  let x := s.hostq q
  match x.fetch with
  | none => s
  | some (addr, again) =>
    let d := parseDesc addr bs
    let s1 := s.setHostq q { x with fetch := none }
    if again then
      (if d.ctl % 2 = 0 then
        ((s1.setHostq q { s1.hostq q with owed := 0 }).put (F.DMA_QC_STATUS_STATE q) 1).nextDesc q d.next
      else if 0 < x.owed then (s1.setHostq q { s1.hostq q with owed := x.owed - 1 }).issueFetch q addr true
      else s1.put (F.DMA_QC_STATUS_STATE q) 2)
    else
      let latch := if d.ctl % 2 = 1 then some (s.get (F.DMA_QC_DB_CNT_COUNT q)) else none
      let s2 := s1.setHostq q { s1.hostq q with cur := some (d, latch), pos := 0, bad := false, mark := s.markOf q }
      if d.bad then s2.finishQ q (s2.compOf q d latch 1) else s2

/-- DESCRIPTOR_FETCH: the 64 bytes that the host's memory answers. -/
def execDescriptorFetch (q : Fin 1024) (bytes : List (BitVec 8)) (s : State) : Host.Outcome State Fault Refusal :=
  if bytes.length ≠ 64 then .fault (.illFormed "DESCRIPTOR_FETCH") else .next (s.fetched q bytes)

/-- The descriptor at work on a running queue, when its operation is op. -/
def State.work (s : State) (q op : Nat) : Option (Desc × Option Nat) :=
  match (s.hostq q).cur with
  | some c => if s.get (F.DMA_QC_STATUS_STATE q) = 1 ∧ c.1.op = op ∧ c.1.bad = false then some c else none
  | none => none

/-- Bytes written to a destination are counted; poison is reported (R223). -/
def State.moved (s : State) (q n : Nat) (bad : Bool) : State :=
  let s1 := s.putN (R.DMA_QC_BYTES q) 2 ((s.getN (R.DMA_QC_BYTES q) 2 + n) % 2 ^ 64)
  if bad then (s1.setF (F.DMA_QC_STATUS_POISON q)).setF F.DMA_STATUS_POISON_SEEN else s1

/-- A store range meets what R215 protects: rings, reserves, gap rings, page maps, averaging areas, the tally ring. -/
def State.protected_ (s : State) (dst len : Nat) : Bool :=
  let pg : Pages := (dst / 65536, (dst + len - 1) / 65536 + 1 - dst / 65536)
  pg.meetsAny (allocGrps s.regs) || pg.meetsAny (allocAvg s.regs) || pg.meetsAny (allocTally s.regs)
    || (usedGrps s.regs).any (fun g =>
      let base := 256 * s.get (F.REC_GRP_PMAP_ADDR g)
      base != 0 && decide (dst < base + 4 * ringPages s.regs g) && decide (base < dst + len))

/-- The slot of a record whose image begins on a page, while it is in a ring. -/
def State.slotAt (s : State) (page num : Nat) : Option Slot :=
  (List.range 16).findSome? (fun g => (s.grp g).slots.find? (fun x => s.physPage g x.lpage == page && x.num == num))

/-- Samples per core cycle of the record that an image holds: its slot's; for one in no ring those of its lowest channel as set
now (log entry 87). -/
def State.imgN (s : State) (pages : List Nat) : Nat :=
  match s.slotAt (pages.headD 0) (s.hdrField pages 8 8) with
  | some x => x.n
  | none => nOf s.regs ((bitsSet 48 (s.hdrField pages 0x40 6)).headD 0)

/-- The queue's current record (R210): in progress, or the oldest of its group that it holds, once it is eligible and nothing of its
image is left in the staging SRAM. -/
def State.currentRec (s : State) (q : Nat) : Option QRec :=
  let x := s.hostq q
  match x.recd with
  | some r => some r
  | none =>
    let g := s.get (F.DMA_QC_CTRL_GROUP q)
    let rel := x.pend.filterMap (fun c => c.rel)
    match (s.grp g).slots.find? (fun y => y.ready && y.readers.contains q && !(rel.contains (g, y.num))) with
    | some y =>
      let pages := (List.range y.pages).map (fun k => s.physPage g (y.lpage + k))
      if (s.flag (F.DMA_QC_CTRL_MEAS q) && !y.measured) || s.pagesStaged pages then none
      else some ⟨g, y.num, pages, s.imgFmt pages y.span y.n, none⟩
    | none => none

/-! ### Bursts (R206) -/

/-- Bytes from an address up to the next multiple of m, and down to the last multiple below it. -/
def upTo (m a : Nat) : Nat := m - a % m
def downTo (m a : Nat) : Nat := (a - 1) % m + 1

/-- What the descriptor at work on a queue does next: it waits, completes with a status and a record number, or moves a burst. -/
inductive Plan where
  | wait
  | done (status : Nat) (num : Option Nat)
  | burst (n : Nat)
  deriving DecidableEq, Repr

/-- The next burst of a READ from position p on (R206). -/
def readBurst (d : Desc) (p : Nat) : Nat := min (d.len - p) (min (upTo 4096 (d.dst + p)) (upTo 65536 (d.src + p)))

/-- A plain COPY whose destination overlaps its source from above moves from its end (R215). -/
def copyDown (d : Desc) : Bool := decide (d.src < d.dst) && decide (d.dst < d.src + d.len)

/-- The next burst of a plain COPY after p bytes: where it begins and its length (R206, R215). -/
def copyBurst (d : Desc) (p : Nat) : Nat × Nat :=
  if copyDown d then
    (let e := d.len - p
     let n := min e (min 4096 (min (downTo 65536 (d.src + e)) (downTo 65536 (d.dst + e))))
     (e - n, n))
  else (p, min (d.len - p) (min 4096 (min (upTo 65536 (d.src + p)) (upTo 65536 (d.dst + p)))))

/-- Channels of a descriptor (R211). -/
def Desc.sel (d : Desc) : Nat := if d.mask = 0 then 2 ^ 48 - 1 else d.mask

/-- The pages of an image at a COPY's source. -/
def State.srcPages (s : State) (d : Desc) : List Nat := (List.range (s.capPages - d.src / 65536)).map (fun i => d.src / 65536 + i)

/-- The format of a COPY's source image. -/
def State.srcFmt (s : State) (d : Desc) : ImgFmt :=
  let pages := s.srcPages d
  s.imgFmt pages ((s.slotAt (pages.headD 0) (s.hdrField pages 8 8)).bind (fun x => x.span)) (s.imgN pages)

/-- The output of a formatted COPY (R215). -/
def State.copyOut (s : State) (d : Desc) : List OutItem :=
  let f := s.srcFmt d
  let fmt := d.ctl / 8 % 4
  s.outItems (s.srcPages d) f fmt ((outWidth fmt (d.ctl / 32 % 4) f.b).getD f.b) d.sel false

/-- What a COPY does after p bytes (R215). -/
def State.copyPlan (s : State) (d : Desc) (p : Nat) : Plan :=
  let fmt := d.ctl / 8 % 4
  let f := s.srcFmt d
  let size := if fmt = 0 then d.len else f.payload + (bitsSet 48 f.mask).length * f.stride
  if outWidth fmt (d.ctl / 32 % 4) f.b = none then .done 7 none
  else if fmt ≠ 0 ∧ d.src < d.dst + d.len ∧ d.dst < d.src + size then .done 5 none
  else if s.capBytes < d.src + size ∨ s.capBytes < d.dst + d.len ∨ s.protected_ d.dst d.len then .done 6 none
  else if fmt = 0 then .burst (copyBurst d p).2
  else .burst (min (min d.len (itemBits (s.copyOut d) / 8) - p) (min 4096 (upTo 65536 (d.dst + p))))

/-- What a RECORD descriptor delivers of a record (R211-R213, R224): the output with its completing zero bits, and whether WRAP cuts
it; none where R212 gives QERR_FORMAT. -/
def State.recOut (s : State) (q : Nat) (d : Desc) (r : QRec) : Option (List OutItem × Bool) :=
  let fmt := d.ctl / 8 % 4
  match outWidth fmt (d.ctl / 32 % 4) r.fmt.b with
  | none => none
  | some w =>
    let all := s.outItems r.pages r.fmt fmt w d.sel (s.flag (F.DMA_QC_CTRL_MEAS q))
    let kept := match r.cut with
      | some c => cutItems c (8 * s.get (F.DMA_QC_OFFSET_BYTES q)) 0 all
      | none => all
    some (kept ++ padItem (itemBits kept), decide (kept.length < all.length))

/-- The output from the queue's offset on; the bits that the holding register keeps are those read before (R213). -/
def State.recRest (s : State) (q : Nat) (items : List OutItem) : Bool × List OutItem :=
  let x := s.hostq q
  let t := tailAt (8 * s.get (F.DMA_QC_OFFSET_BYTES q)) 0 items
  match t.2 with
  | y :: ys => if t.1 ∧ y.w = s.get (F.DMA_QC_HOLD_BITS q) then (true, { y with v := x.held, bad := x.heldBad } :: ys) else t
  | [] => t

/-- Bytes of an image's output up to the first unit of another page. -/
def pageRun : List OutItem → Nat
  | [] => 0
  | x :: xs => 64 * (1 + (xs.takeWhile (fun y => y.pages == x.pages)).length)

/-- The next burst of a RECORD descriptor after p bytes (R206; log entry 85). -/
def State.recBurst (s : State) (q : Nat) (d : Desc) (p : Nat) (items : List OutItem) : Nat :=
  let n := min (min (d.len - p) (itemBits items / 8 - s.get (F.DMA_QC_OFFSET_BYTES q))) (upTo 4096 (d.dst + p))
  if d.ctl / 8 % 4 = 0 then min n (pageRun (s.recRest q items).2) else n

/-- What a RECORD descriptor does after p bytes: it waits until the current record is eligible (R210). -/
def State.recPlan (s : State) (q : Nat) (d : Desc) (p : Nat) : Plan :=
  if s.flag (F.DMA_QC_CTRL_BIND q) = false then .done 8 none
  else match s.currentRec q with
    | none => .wait
    | some r => match s.recOut q d r with
      | none => .done 7 (some r.num)
      | some o => .burst (s.recBurst q d p o.1)

/-- What the descriptor at work on a queue does next. -/
def State.plan (s : State) (q : Nat) : Plan :=
  let x := s.hostq q
  match x.cur with
  | none => .wait
  | some (d, _) =>
    if s.get (F.DMA_QC_STATUS_STATE q) ≠ 1 ∨ d.bad then .wait
    else match d.op with
      | 0 => .done 0 none
      | 1 => if s.capBytes < d.src + d.len then .done 6 none else .burst (readBurst d x.pos)
      | 2 => s.copyPlan d x.pos
      | 3 => s.recPlan q d x.pos
      | _ => .wait

/-- Bytes of the store that the next burst of a queue reads and writes. -/
def State.burstCost (s : State) (q : Nat) : Nat := match s.plan q, (s.hostq q).cur with
  | .burst n, some (d, _) => if d.op = 2 then 2 * n else n
  | _, _ => 0

/-- Bytes of a burst go to host memory (R199). -/
def State.toHost (s : State) (dst : Nat) (bs : List Byte) : State :=
  if bs = [] then s else s.emit (.hostWrite (s.flag F.DMA_CTRL_RO_EN) dst bs)

/-- The read of the last 4 bytes that a descriptor wrote (R216). -/
def State.readBack (s : State) (d : Desc) (total : Nat) : State :=
  if total = 0 then s else s.emit (.hostRead (d.dst + total - 4) 4)

/-- A burst is done: the descriptor goes on, or its data is done and it completes as c says. -/
def State.burstDone (s : State) (q n : Nat) (bad last : Bool) (c : Comp) : State :=
  let x := s.hostq q
  let poison := x.bad || bad
  if last then s.doneQ q { c with flags := c.flags + (if poison then 4 else 0), bytes := x.pos + n }
  else s.setHostq q { x with pos := x.pos + n, bad := poison }

/-- A burst of a READ. -/
def State.moveRead (s : State) (q : Nat) (d : Desc) (l : Option Nat) : State :=
  let p := (s.hostq q).pos
  let n := readBurst d p
  let r := s.readBytes (d.src + p) n
  let s1 := (s.moved q n r.2).toHost (d.dst + p) r.1
  let last := decide (d.len ≤ p + n)
  (if last then s1.readBack d d.len else s1).burstDone q n r.2 last { s1.compOf q d l 0 with wait := true }

/-- A burst of a COPY. -/
def State.moveCopy (s : State) (q : Nat) (d : Desc) (l : Option Nat) (n : Nat) : State :=
  let p := (s.hostq q).pos
  let c := s.compOf q d l 0
  if d.ctl / 8 % 4 = 0 then
    (let at_ := (copyBurst d p).1
     let r := s.readBytes (d.src + at_) n
     ((s.swrites (d.dst + at_) r.1).moved q n r.2).burstDone q n r.2 (decide (d.len ≤ p + n)) c)
  else
    (let items := s.copyOut d
     let k := packItems (tailAt (8 * p) 0 items).2
     let bad := k.2 % 2 ^ (8 * n) != 0
     ((s.swrites (d.dst + p) (leBytes n k.1)).moved q n bad).burstDone q n bad
       (decide (min d.len (itemBits items / 8) ≤ p + n)) c)

/-- Physical pages that a queue keeps pinned (R224): the one of the next unread piece, and in FMT 0b10 the one of each channel's next
unread value. -/
def aheadPages (fmt : Nat) (chs : List Nat) (next : List OutItem) : List Nat :=
  ((next.take 1).flatMap (fun x : OutItem => x.pages) ++ (if fmt = 2 then
    chs.flatMap (fun n => ((next.find? (fun x : OutItem => x.ch == n)).map (fun x : OutItem => x.pages)).getD []) else [])).dedup

/-- A burst of a RECORD descriptor (R211-R214, R223, R224). -/
def State.moveRec (s : State) (q : Nat) (d : Desc) (l : Option Nat) (n : Nat) (r : QRec) (o : List OutItem × Bool) : State :=
  let p := (s.hostq q).pos
  let off := s.get (F.DMA_QC_OFFSET_BYTES q)
  let rest := (s.recRest q o.1).2
  let k := packItems rest
  let bad := k.2 % 2 ^ (8 * n) != 0
  let ends := decide (itemBits o.1 / 8 ≤ off + n)
  let s1 := ((s.toHost (d.dst + p) (leBytes n k.1)).moved q n bad).putN (R.DMA_QC_REC q) 2 r.num
  let s2 := if o.2 && ends then s1.setF (F.DMA_QC_STATUS_WRAP_CUT q) else s1
  let next := tailAt (8 * n) 0 rest
  let held := if next.1 then next.2.head? else none
  let unread := if next.1 then next.2.drop 1 else next.2
  let s3 := if ends then s2.dropRec q
    else (((s2.setHostq q { s2.hostq q with
        recd := some r
        held := (held.map (fun x : OutItem => x.v)).getD 0
        heldBad := (held.map (fun x : OutItem => x.bad)).getD false }).put (F.DMA_QC_OFFSET_BYTES q) (off + n)).put
      (F.DMA_QC_HOLD_BITS q) (heldBits next)).pinQ q r.g (aheadPages (d.ctl / 8 % 4) (bitsSet 48 (Nat.land r.fmt.mask d.sel)) unread)
  let last := ends || decide (d.len ≤ p + n)
  (if last then s3.readBack d (p + n) else s3).burstDone q n bad last { s3.compOf q d l 0 with
    flags := (if ends then 1 else 2) + (if o.2 && ends then 8 else 0)
    num := some r.num
    wait := decide (0 < p + n)
    rel := if ends then some (r.g, r.num) else none }

/-- The next burst of a queue. -/
def State.moveBurst (s : State) (q : Nat) : State :=
  match s.plan q, (s.hostq q).cur with
  | .burst n, some (d, l) =>
    if d.op = 1 then s.moveRead q d l
    else if d.op = 2 then s.moveCopy q d l n
    else (match s.currentRec q with
      | some r => (match s.recOut q d r with
        | some o => s.moveRec q d l n r o
        | none => s)
      | none => s)
  | _, _ => s

/-- Queue q has a burst to move. -/
def State.hasBurst (s : State) (q : Nat) : Bool := match s.plan q with
  | .burst _ => true
  | _ => false

/-- The queue that the engine picks (R206): the lowest PRIO wins, within a level the queue whose turn it is while its deficit lasts,
then the next one. Queues of the list have no store data granted. -/
def State.dmaPick (s : State) (no : List Nat) : Option Nat :=
  let c := (s.hostqs.map (fun p => p.1)).filter (fun q => !no.contains q && s.hasBurst q)
  let lvl := c.foldl (fun m q => min m (s.get (F.DMA_QC_CTRL_PRIO q))) 8
  let cl := c.filter (fun q => s.get (F.DMA_QC_CTRL_PRIO q) == lvl)
  let turn := Tab.get 0 s.dmaTurn lvl
  if cl.contains turn ∧ s.burstCost turn ≤ (s.hostq turn).deficit then some turn
  else (cl.find? (fun q => turn < q)).orElse (fun _ => cl.head?)

/-- The turn of queue q: its deficit pays the burst, after a quantum of 4096 bytes where it did not last. -/
def State.turnTo (s : State) (q : Nat) : State :=
  let x := s.hostq q
  let n := match s.plan q with
    | .burst n => n
    | _ => 0
  let d := if n ≤ x.deficit then x.deficit else x.deficit + 4096
  ({ s with dmaTurn := Tab.set s.dmaTurn (s.get (F.DMA_QC_CTRL_PRIO q)) q } : State).setHostq q { x with deficit := d - n }

/-- The engine moves bursts, each of the queue that R206 picks, until queue q's descriptor has moved all or waits for its grant
(log entry 85). -/
def State.dmaRun (s : State) (q : Nat) : List Nat → Nat → State
  | _, 0 => s
  | no, fuel + 1 =>
    if s.hasBurst q = false ∨ no.contains q then s
    else match s.dmaPick no with
      | none => s
      | some p =>
        let a := s.ask 1 p (s.burstCost p)
        if a.1 then ((a.2.turnTo p).moveBurst p).dmaRun q no fuel else a.2.dmaRun q (p :: no) fuel

/-- More bursts than the descriptors at work have. -/
def State.dmaFuel (s : State) : Nat := (s.hostqs.map (fun p => match p.2.cur with
  | some c => c.1.len / 64 + 2
  | none => 0)).sum

/-- The descriptor at work on queue q runs, when its operation is op. -/
def State.runDesc (s : State) (q op : Nat) : State :=
  match s.work q op with
  | none => s
  | some (d, l) => match s.plan q with
    | .wait => s
    | .done st num => s.doneQ q { s.compOf q d l st with num := num }
    | .burst _ => s.dmaRun q [] s.dmaFuel

/-- DESC_NOP (R208). -/
def execDescNop (q : Fin 1024) (s : State) : Host.Outcome State Fault Refusal := .next (s.runDesc q 0)

/-- DESC_READ (R208, R217). -/
def execDescRead (q : Fin 1024) (s : State) : Host.Outcome State Fault Refusal := .next (s.runDesc q 1)

/-- DESC_COPY (R215). -/
def execDescCopy (q : Fin 1024) (s : State) : Host.Outcome State Fault Refusal := .next (s.runDesc q 2)

/-- DESC_RECORD (R210-R214). -/
def execDescRecord (q : Fin 1024) (s : State) : Host.Outcome State Fault Refusal := .next (s.runDesc q 3)

/-- DESC_RELEASE: the current record is released without being delivered (R210). -/
def execDescRelease (q : Fin 1024) (s : State) : Host.Outcome State Fault Refusal :=
  .next (match s.work q 4 with
    | some (d, l) =>
      if s.flag (F.DMA_QC_CTRL_BIND q) = false then s.doneQ q (s.compOf q d l 8)
      else (match s.currentRec q with
        | some r => ((s.dropRec q).putN (R.DMA_QC_REC q) 2 r.num).doneQ q
            { s.compOf q d l 0 with num := some r.num, rel := some (r.g, r.num) }
        | none => s)
    | none => s)

/-- READBACK_COMPLETION: the oldest read-back returns (R216). -/
def execReadbackCompletion (q : Fin 1024) (s : State) : Host.Outcome State Fault Refusal :=
  let x := s.hostq q
  .next (match x.pend with
    | c :: rest => if c.wait then (s.setHostq q { x with pend := { c with wait := false } :: rest }).drainQ q (rest.length + 1) else s
    | [] => s)

/-! ### Memory that does not answer (R221) -/

/-- The core cycle in which a request of a queue that still waits for its answer was issued. -/
def State.reqSince (s : State) (q : Nat) : QReq → Option Nat
  | .fetch => (s.hostq q).fetch.map (fun _ => (s.hostq q).fetchAt)
  | .readBack => match (s.hostq q).pend with
    | c :: _ => if c.wait then some c.since else none
    | [] => none
  | .completion => (s.hostq q).wrote.map (fun c => c.since)

/-- A request of a queue fails and the queue halts at its descriptor: at once, or when the completions before it have come. A record
that the descriptor has released is not restored (log entry 86). -/
def State.failQ (s : State) (q status : Nat) (req : QReq) : State :=
  let x := s.hostq q
  match req with
  | .fetch => match x.fetch with
    | some (addr, _) => (s.setHostq q { x with fetch := none }).finishQ q (s.compAt q addr status)
    | none => s
  | .readBack => match x.pend with
    | c :: _ => s.haltQ q { c with status := status } true
    | [] => s
  | .completion => match x.wrote with
    | some c => s.haltQ q { c with status := status, mark := if c.rel.isSome then QMark.init else c.mark } false
    | none => s

/-- DMA_CTO in core cycles: 50 to 64 000 µs, values outside act as the nearer limit. -/
def State.ctoCycles (s : State) : Nat := s.cyclesOf (max 50 (min 64000 (s.get F.DMA_CTO_US))) 1000000

/-- COMPLETION_TIMEOUT: a request has had no answer within DMA_CTO (R221). -/
def execCompletionTimeout (x : QFail) (s : State) : Host.Outcome State Fault Refusal :=
  .next (match s.reqSince x.q x.req with
    | some t => (((s.at_ (t + s.ctoCycles)).setF F.DMA_STATUS_TIMEOUT_SEEN).failQ x.q 3 x.req).emit
        (.aer (s.get (F.DMA_Q_OWNER_FUNC x.q)) 1)
    | none => s)

/-- COMPLETION_UR: a request got Unsupported Request or Completer Abort (R221). -/
def execCompletionUr (x : QFail) (s : State) : Host.Outcome State Fault Refusal :=
  .next (match s.reqSince x.q x.req with
    | some _ => ((s.setF F.DMA_STATUS_UR_SEEN).failQ x.q 4 x.req).reportUr (s.get (F.DMA_Q_OWNER_FUNC x.q))
    | none => s)

/-! ### Function resets (R230, R375) -/

/-- A queue aborts and its function's reset makes it no reader any more; the records stay (R230; log entry 88). -/
def State.dropCtx (s : State) (q : Nat) : State :=
  let s1 := s.abortQ q
  if s1.flag (F.DMA_QC_CTRL_BIND q) then
    (let g := s1.get (F.DMA_QC_CTRL_GROUP q)
     let gr := s1.grp g
     s1.setGrp g { gr with slots := gr.slots.map (fun x => { x with readers := x.readers.filter (fun r => r != q) }) })
  else s1

/-- The contexts of the queues that ok names are reinitialised (Table 17.3). -/
def State.resetCtxs (s : State) (ok : Nat → Bool) : State :=
  let s1 := ((List.range 1024).filter ok).foldl (fun t q => t.dropCtx q) s
  { s1 with
    regs := s1.regs.filter (fun p => p.1 < 0xA00000 || 0xC00000 ≤ p.1 || !ok ((p.1 - 0xA00000) / 0x800))
    hostqs := s1.hostqs.filter (fun p => !ok p.1) }

/-- A reset of the physical function reinitialises the mailbox words and its CFG_VIEW (Table 17.3). -/
def State.pfReset (s : State) : State :=
  { s with regs := (s.regs.clearRange 0x1000 0x2000).clearRange R.CFG_VIEW (R.CFG_VIEW + 4) }

/-- FUNCTION_LEVEL_RESET (R230, Table 17.3). -/
def execFunctionLevelReset (f : Fin 64) (s : State) : Host.Outcome State Fault Refusal :=
  let s1 := ((s.resetCtxs (fun q => s.flag (F.DMA_Q_OWNER_VALID q) && s.get (F.DMA_Q_OWNER_FUNC q) == f)).put
    (F.DMA_BAR2_BASE_GIB f) 0).msixReset (fun x => x == f)
  .next (if f.val = 0 then s1.pfReset else s1)

/-- The PCIe controller's reset (R375): every queue IDLE, every MSI-X table and BAR2 base, the mailbox and CFG_VIEW reinitialised. -/
def State.pcieReset (s : State) : State :=
  let s1 := (s.resetCtxs (fun _ => true)).msixReset (fun _ => true)
  ({ s1 with regs := s1.regs.clearRange 0x900100 0x900200 }).pfReset

/-- PCIE_FUNCTION_RESET (R375). -/
def execPcieFunctionReset (s : State) : Host.Outcome State Fault Refusal := .next s.pcieReset

end Sys2Proof.Machine
end

