-- ==== Sys2Proof/Machine/Cal.lean ====
section
/-! DEFINITION. Calibration (spec/14): user copies, loading, foreground runs, their precedence and release, saves, drift. -/

namespace Sys2Proof.Machine

/-! ### The user copy (R311, Tables 14.1 to 14.3) -/

/-- Die codes in the order of the copy's blocks. -/
def calDies : List Nat := [0, 1, 2, 3, 4, 5, 6, 9]

/-- The place of a die code among the blocks. -/
def calIdx (die : Nat) : Nat := if die = 9 then 7 else min die 6

/-- Data bytes of block i (Table 14.2). -/
def calLen (i : Nat) : Nat := if i < 6 then 24576 else if i = 6 then 64 else 392

/-- First byte of block i: blocks are padded to multiples of 64 bytes. -/
def calOff (i : Nat) : Nat := 64 + ((List.range i).map (fun j => roundUp (20 + calLen j) 64)).sum

/-- n bytes from offset o of a reader, least significant byte first. -/
def rdN (rd : Nat → Byte) (o n : Nat) : Nat := leValue ((List.range n).map (fun i => rd (o + i)))

/-- Bytes from offset o of a reader. -/
def rdBytes (rd : Nat → Byte) (o n : Nat) : List Byte := (List.range n).map (fun i => rd (o + i))

/-- Flash bytes of calibration copy A (0) or B (1) (Table 16.1). -/
def copyBase (slot : Nat) : Nat := 0x800000 + 0x40000 * slot
def State.copyRd (s : State) (slot : Nat) : Nat → Byte := fun i => Mem.read 0xFF s.flash (copyBase slot + i)

/-- A copy header is valid (R312). -/
def copyOk (rd : Nat → Byte) : Bool :=
  rdN rd 0 4 == 0x5343414C && rdN rd 4 2 == 1 && rdN rd 0x0E 2 == 0x4832 && rdN rd 0x3C 4 == crc32c (rdBytes rd 0 0x3C)

/-- Block i of a copy is valid (R312). -/
def blockOk (rd : Nat → Byte) (i : Nat) : Bool :=
  copyOk rd && rdN rd (calOff i + 4) 4 == calLen i
    && rdN rd (calOff i + 16 + calLen i) 4 == crc32c (rdBytes rd (calOff i) (16 + calLen i))

/-- Sequence a is newer than b: (int32_t)(a − b) > 0 (R312). -/
def seqNewer (a b : Nat) : Bool := decide (0 < sgn 32 (a + 2 ^ 32 - b % 2 ^ 32))

/-- A channel's record (Table 14.3). -/
def State.chanRecord (s : State) (n : Nat) : List Byte :=
  (List.range 65).flatMap (fun p => (List.range 11).flatMap (fun i => leBytes 4 (s.get (F.CONV_COEF_VALUE n p i))))
    ++ (List.range 6).flatMap (fun c => leBytes 2 (s.get (F.TRG_AC_DELAY_DELAY (6 * n + c))))
    ++ (List.range 6).flatMap (fun c => leBytes 2 (enc 16 (Tab.get 0 s.cal.trims (6 * n + c))))
    ++ leBytes 4 (enc 32 (Tab.get 0 s.cal.align n))
    ++ (List.range 5).flatMap (fun i => leBytes 4 (s.word (R.CAL_Q_OFS n + 4 * i)).toNat)
    ++ List.replicate 164 0

/-- The data of block i as in force (R311). -/
def State.blockData (s : State) (i : Nat) : List Byte :=
  if i < 6 then (List.range 8).flatMap (fun j => s.chanRecord (8 * i + j))
  else if i = 6 then (List.range 8).flatMap (fun k => leBytes 2 (s.get (F.EVT_DELAY_DELAY k))) ++ List.replicate 48 0
  else leBytes 4 (enc 32 s.svc.monOff) ++ leBytes 4 s.svc.monGain
    ++ (List.range 96).flatMap (fun o => leBytes 2 (enc 16 (s.corr o).1) ++ leBytes 2 (s.corr o).2)

/-- Block i with its header, CRC and padding (Table 14.2). -/
def State.calBlock (s : State) (i : Nat) : List Byte :=
  let e := Tab.get (0, 0) s.cal.dieEpoch i
  let typ := if i < 6 then 1 else i - 4
  let body := packLE [(1, typ), (1, (calDies[i]?).getD 0), (2, e.1), (4, calLen i), (8, e.2)] ++ s.blockData i
  let all := body ++ leBytes 4 (crc32c body)
  all ++ List.replicate (roundUp all.length 64 - all.length) 0

/-- The user copy of the set in force (R311, R323). -/
def State.calCopy (s : State) (seq : Nat) : List Byte :=
  let h := packLE ([(4, 0x5343414C), (2, 1), (2, 8), (4, seq), (2, s.get F.CAL_EPOCH_EPOCH), (2, 0x4832),
    (8, s.getN R.CAL_RUN_LCNT 2), (6, s.getN R.GLOBAL_KEEP_SEC 2), (2, 0), (4, s.get F.CAL_CALV_UV)]
    ++ (List.range 6).map (fun k => (1, s.get (F.CAL_TEMP_REF_REF k))) ++ [(2, 0), (16, 0)])
  h ++ leBytes 4 (crc32c h) ++ (List.range 8).flatMap s.calBlock

/-! ### Loading (R312-R314) -/

/-- The record of channel n, at offset o of a reader, becomes the set in force. -/
def State.loadChan (s : State) (rd : Nat → Byte) (o n : Nat) : State :=
  let s1 := (List.range 715).foldl (fun t j =>
    t.put (F.CONV_COEF_VALUE n (j / 11) (j % 11)) (rdN rd (o + 4 * j) 4 % (if j % 11 = 0 then 65536 else 262144))) s
  let s2 := (List.range 6).foldl (fun t c => t.put (F.TRG_AC_DELAY_DELAY (6 * n + c)) (rdN rd (o + 0xB2C + 2 * c) 2)) s1
  let s3 := (List.range 5).foldl (fun t i => t.putN (R.CAL_Q_OFS n + 4 * i) 1 (rdN rd (o + 0xB48 + 4 * i) 4)) s2
  { s3 with cal := { s3.cal with
      trims := (List.range 6).foldl (fun t c => Tab.set t (6 * n + c) (sgn 16 (rdN rd (o + 0xB38 + 2 * c) 2))) s3.cal.trims
      align := Tab.set s3.cal.align n (sgn 32 (rdN rd (o + 0xB44) 4)) } }

/-- The data of block i, at offset o of a reader, becomes the set in force. -/
def State.loadBlock (s : State) (rd : Nat → Byte) (o i : Nat) : State :=
  if i < 6 then (List.range 8).foldl (fun t j => t.loadChan rd (o + 3072 * j) (8 * i + j)) s
  else if i = 6 then (List.range 8).foldl (fun t k => t.put (F.EVT_DELAY_DELAY k) (rdN rd (o + 2 * k) 2)) s
  else { s with svc := { s.svc with
    monOff := sgn 32 (rdN rd o 4)
    monGain := rdN rd (o + 4) 4
    corr := (List.range 96).map (fun x => (x, (sgn 16 (rdN rd (o + 8 + 4 * x) 2), rdN rd (o + 10 + 4 * x) 2))) } }

/-- The source of a die's set: 0 factory, 1 user copy, 2 foreground run, 3 reset values (R310). -/
def State.setSrc (s : State) (i v : Nat) : State := s.put ⟨R.CAL_DIE_SRC, 2 * i + 1, 2 * i⟩ v
def State.srcOf (s : State) (i : Nat) : Nat := s.get ⟨R.CAL_DIE_SRC, 2 * i + 1, 2 * i⟩

/-- CAL_STATUS.DEF_DIES bit i. -/
def State.defDie (s : State) (i : Nat) (b : Bool) : State := s.putB ⟨R.CAL_STATUS, 24 + i, 24 + i⟩ b

/-- Die block i is loaded from a user copy. -/
def State.loadUser (s : State) (rd : Nat → Byte) (i : Nat) : State :=
  let o := calOff i
  let s1 := (s.loadBlock rd (o + 16) i).setSrc i 1
  let s2 := { s1 with cal := { s1.cal with dieEpoch := Tab.set s1.cal.dieEpoch i (rdN rd (o + 2) 2, rdN rd (o + 8) 8) } }
  if i < 6 then s2.put (F.CAL_TEMP_REF_REF i) (rdN rd (0x24 + i) 1) else s2

/-- Die block i has no valid user block: factory values, or reset values when OTP is bad (R312, R313). -/
def State.loadDef (s : State) (otpOk : Bool) (i : Nat) : State :=
  let s1 := { (s.defDie i true) with cal := { s.cal with dieEpoch := Tab.set s.cal.dieEpoch i (0, 0) } }
  if otpOk then
    (let s2 := ((s1.loadBlock (fun j => Config.otp (calOff i + 16 + j)) 0 i).setSrc i 0).setF F.GLOBAL_STATE_CAL_DEFAULTED
     if i < 6 then s2.put (F.CAL_TEMP_REF_REF i) 25 else s2)
  else s1.setSrc i 3

/-- One die at the start: the copy with the newer sequence, then the older, then the default (R312). -/
def State.loadDie (s : State) (order : List Nat) (otpOk : Bool) (i : Nat) : State :=
  match order.filter (fun c => blockOk (s.copyRd c) i) with
  | c :: _ =>
    let s1 := s.loadUser (s.copyRd c) i
    if order.head? = some c then s1 else s1.setF F.CAL_STATUS_MIXED
  | [] => s.loadDef otpOk i

/-- The newest of the loaded user blocks' epochs, modulo 2^16 (R314). -/
def State.newestEpoch (s : State) : Nat :=
  let l := ((List.range 8).filter (fun i => s.srcOf i == 1)).map (fun i => (Tab.get (0, 0) s.cal.dieEpoch i).1)
  match l with
  | [] => 0
  | e :: es => es.foldl (fun m x => if 0 < sgn 16 (x + 65536 - m % 65536) then x else m) e

/-- The calibration epoch takes a value at core cycle a (R314); data: epoch, source, die mask. -/
def State.setCalEpoch (s : State) (a e src mask : Nat) : State :=
  ((s.put F.CAL_EPOCH_EPOCH e).put F.CAL_EPOCH_SOURCE src).post a 0x0D01 s.locusHub (e % 2 ^ 16 + src * 2 ^ 16 + mask * 2 ^ 24)

/-- CALIBRATION_LOAD (R312-R314): at every start that reloads calibration. -/
def State.loadCal (s : State) (otpOk : Bool) : State :=
  let a := s.copyRd 0
  let b := s.copyRd 1
  let okA := copyOk a
  let okB := copyOk b
  let order := if okA && okB then (if seqNewer (rdN b 8 4) (rdN a 8 4) then [1, 0] else [0, 1])
    else if okA then [0] else if okB then [1] else []
  let s1 := (((s.putB F.CAL_STATUS_COPY_A_OK okA).putB F.CAL_STATUS_COPY_B_OK okB).putB F.CAL_STATUS_OTP_BAD (!otpOk)).clrF
    F.CAL_STATUS_MIXED
  let s2 := (List.range 8).foldl (fun t i => t.loadDie order otpOk i) s1
  let s3 := (s2.setF F.CAL_STATUS_LOADED).put F.CAL_SEQ_SEQ (match order with
    | c :: _ => rdN (s.copyRd c) 8 4
    | [] => 0)
  let s4 := { s3 with cal := { s3.cal with
    seqA := if okA then some (rdN a 8 4) else none
    seqB := if okB then some (rdN b 8 4) else none } }
  let src := if (List.range 8).any (fun i => s4.srcOf i == 1) then 1 else if otpOk then 0 else 3
  s4.setCalEpoch s4.lcnt s4.newestEpoch src
    (maskOf (((List.range 8).filter (fun i => s4.srcOf i == src)).map (fun i => (calDies[i]?).getD 0)))

/-! ### Saving (R323) -/

/-- The slot a save writes: the one R312 would not choose. -/
def Cal.target (c : Cal) : Nat :=
  match c.seqA, c.seqB with
  | some a, some b => if seqNewer b a then 0 else 1
  | some _, none => 1
  | _, _ => 0

/-- A save starts to write. -/
def State.startSave (s : State) : State :=
  let seq := (s.get F.CAL_SEQ_SEQ + 1) % 2 ^ 32
  { (s.setF F.CAL_STATUS_SAVING) with cal := { s.cal with
    saveDue := false
    saving := some (s.cal.target, seq, s.calCopy seq) } }

/-- A save falls due: it waits for one in progress and for a flash command that runs (R323, R362). -/
def State.saveNow (s : State) : State :=
  if s.cal.saving.isSome ∨ s.flashOps ≠ [] then { s with cal := { s.cal with saveDue := true } } else s.startSave

/-- Bytes of a calibration copy in the flash (R311). -/
def copyLen : Nat := 148480

/-- The copy is in its slot, read back (R323). -/
def State.saveWritten (s : State) (slot seq : Nat) (bytes : List Byte) : State :=
  { (s.put F.CAL_SEQ_SEQ seq) with
    flash := Mem.writeBytes 0xFF s.flash (copyBase slot) bytes
    cal := { s.cal with
      seqA := if slot = 0 then some seq else s.cal.seqA
      seqB := if slot = 0 then s.cal.seqB else some seq } }

/-- The save failed: what its slot holds is open (R323). -/
def State.saveFailed (s : State) (slot : Nat) : State :=
  let d := s.drawBytes copyLen
  { (d.2.setF F.CAL_STATUS_SAVE_FAIL) with
    flash := Mem.writeBytes 0xFF s.flash (copyBase slot) d.1
    cal := { s.cal with
      seqA := if slot = 0 then none else s.cal.seqA
      seqB := if slot = 0 then s.cal.seqB else none } }

/-- A save that fell due during the last one starts, unless a flash command runs. -/
def State.saveNext (s : State) : State := if s.cal.saveDue ∧ s.flashOps = [] then s.startSave else s

/-- CAL_SAVE_DONE: the copy is written and read back, or SAVE_FAIL is set and the target's bytes are open (R323). -/
def execCalSaveDone (ok : Bool) (s : State) : Host.Outcome State Fault Refusal :=
  .next (match s.cal.saving with
    | none => s
    | some (slot, seq, bytes) =>
      let s1 : State := { (s.clrF F.CAL_STATUS_SAVING) with cal := { s.cal with saving := none } }
      (if ok then s1.saveWritten slot seq bytes else s1.saveFailed slot).saveNext)

/-! ### Runs (R315-R322) -/

/-- Ticks of procedure p (Table 14.4). -/
def procTicks (p : Nat) : Nat := ([4883, 29297, 39063, 14649, 12207, 2442, 9766][p]?).getD 0

/-- The procedures of a run that run on a die: bits 0-4 on a converter die, EVT on the hub, SVC on the service die. -/
def dieProcs (die proc : Nat) : Nat :=
  if die < 6 then proc % 32 else if die = 6 then Nat.land proc 32 else if die = 9 then Nat.land proc 64 else 0

/-- Ticks of a die's procedures. -/
def CalRun.ticks (r : CalRun) : Nat := ((bitsSet 7 r.proc).map procTicks).sum

/-- A die holds its channels and has not released them. -/
def CalRun.holding (r : CalRun) : Bool := r.start.isSome && !r.settling && !r.ended

/-- A die has not finished: it waits or holds. -/
def CalRun.unfinished (r : CalRun) : Bool := !r.settling && !r.ended

/-- The channels of a converter die. -/
def dieMask (k : Nat) : Nat := 255 * 2 ^ (8 * k)

/-- A channel mask with the other member of each pair (R317). -/
def pairMask (r : RegTab) (m : Nat) : Nat :=
  maskOf ((List.range 48).filter (fun n => bitOf m n || (paired r n && (bitOf m (n / 2 * 2) || bitOf m (n / 2 * 2 + 1)))))

/-- Channels of armed groups. -/
def State.armedChans (s : State) : Nat :=
  (List.range 16).foldl (fun m g => if (s.grp g).armed then Nat.lor m (chMask s.regs g) else m) 0

/-- CAL_STATUS.BUSY and WAITING, HELD of every channel, MON_HELD, and what the trigger shows (R96, R317, R343). -/
def State.calShow (s : State) : State :=
  let l := s.cal.runs
  let s1 := (s.putB F.CAL_STATUS_BUSY (l.any (fun r => r.start.isSome && !r.ended))).putB F.CAL_STATUS_WAITING
    (l.any (fun r => r.start.isNone && !r.ended))
  let s2 := s1.putB F.SVC_STATUS_MON_HELD (l.any (fun r => r.die == 9 && r.holding))
  let m := s2.calMask
  ((List.range 48).foldl (fun t n => if t.flag (F.CAL_CH_STATUS_HELD n) = bitOf m n then t
    else t.putB (F.CAL_CH_STATUS_HELD n) (bitOf m n)) s2).showSrc

/-- The CAL_FOREGROUND gaps follow the channels held at core cycle x (R321). -/
def State.calGaps (s : State) (x : Nat) : State := s.setLossAll x 5 s.calMask

/-- Once every die has ended, a run with results is saved when SAVE is 1 (R323). -/
def State.calFinish (s : State) : State :=
  if s.cal.runs.all (fun r => r.ended) ∧ s.cal.results then
    (let s1 := { s with cal := { s.cal with results := false } }
     if s.flag F.CAL_CTRL_SAVE then s1.saveNow else s1)
  else s

/-- A foreground run is requested in core cycle a (R315, R317, R319, Table 14.5). -/
def State.calRequest (s : State) (a mask proc : Nat) : State :=
  if s.cal.runs.any (fun r => !r.ended) then s.put F.CAL_STATUS_ERR 1
  else if s.flag F.CLK_STATUS_FABRIC_BYP then s.put F.CAL_STATUS_ERR 2
  else
    let want := pairMask s.regs mask
    let sel := want - Nat.land want s.fenceMask
    let skip := if s.flag F.CAL_CTRL_ARMED then Nat.land sel (pairMask s.regs s.armedChans) else 0
    let chs := sel - skip
    let noRef := decide (s.get F.CAL_CALV_UV = 0)
    let range := noRef && (bitOf proc 1 || bitOf proc 6)
    let pr := if noRef then clrBit (clrBit proc 1) 6 else proc
    let dies := (List.range 6).filter (fun k => Nat.land chs (dieMask k) != 0 && dieProcs k pr != 0)
    let others := [6, 9].filter (fun d => dieProcs d pr != 0)
    let runs := dies.map (fun k => (⟨k, Nat.land chs (dieMask k), dieProcs k pr, a, none, false, false⟩ : CalRun))
      ++ others.map (fun d => (⟨d, if d = 6 then 255 else 0, dieProcs d pr, a, none, false, false⟩ : CalRun))
    let err := if chs = 0 ∧ others = [] then 7 else if range then 3 else 0
    let s1 := (bitsSet 48 skip).foldl (fun t n => t.setF (F.CAL_CH_STATUS_SKIPPED n)) (s.put F.CAL_STATUS_ERR err)
    { s1 with cal := { s1.cal with runs := s1.cal.runs ++ runs, results := false, abort := none } }.calShow

/-- CAL_START: CAL_FG_CMD.START takes its channels from CAL_FG_CH and its procedures from CAL_FG_PROC (R317). -/
def State.calStart (s : State) : State :=
  s.calRequest s.lcnt (s.getN R.CAL_FG_CH 2 % 2 ^ 48) (s.get F.CAL_FG_PROC_PROC)

def execCalStart (s : State) : Host.Outcome State Fault Refusal := .next s.calStart

/-- CAL_ABORT: at the next boundary every unfinished die releases its channels (Table 14.5). -/
def State.calAbort (s : State) : State :=
  if s.cal.runs.any CalRun.unfinished then { s with cal := { s.cal with abort := some (s.cal.abort.getD (6, none)) } } else s

def execCalAbort (s : State) : Host.Outcome State Fault Refusal := .next s.calAbort

/-- Capture slots that a die's ungrouped channels need (R318). -/
def State.slotsNeeded (s : State) (r : CalRun) : Nat :=
  if 6 ≤ r.die then 0
  else ((bitsSet 48 r.mask).map (fun n =>
    if paired s.regs n then (if n % 2 = 1 ∨ (groupOf s.regs n).isSome then 0 else 2)
    else if (groupOf s.regs n).isSome then 0 else 1)).sum

/-- Slots in use, and slots there are (R318). -/
def State.slotsUsed (s : State) : Nat := ((s.cal.runs.filter CalRun.holding).map s.slotsNeeded).sum
def State.slotsMax (s : State) : Nat := min 48 (s.get F.STO_CAL_CAP_CH)

/-- The run to which a die's part belongs has begun. -/
def State.begun (s : State) (r : CalRun) : Bool := s.cal.runs.any (fun x => x.reqAt == r.reqAt && x.start.isSome)

/-- A group that contains a selected channel is in POST (R319). -/
def State.inPost (s : State) (r : CalRun) : Bool :=
  let sel := (s.cal.runs.filter (fun x => x.die < 6 && x.reqAt == r.reqAt)).foldl (fun m x => Nat.lor m x.mask) 0
  !s.flag F.CAL_CTRL_ARMED && (List.range 16).any (fun g =>
    s.get (F.TRG_GRP_STATUS_STATE g) == 3 && Nat.land (pairMask s.regs (chMask s.regs g)) sel != 0)

/-- The deferral is used up at boundary b (R319). -/
def State.deferDone (s : State) (r : CalRun) (b : Nat) : Bool :=
  decide (s.get F.CAL_FG_MAX_DEFER_TICKS ≤ (b - boundaryAt r.reqAt) / tickLen)

/-- A die of the run can start at boundary b: after the deferral, in ascending order, with enough free slots (R318, R319). -/
def State.canStart (s : State) (r : CalRun) (b : Nat) : Bool :=
  s.cal.abort.isNone && !s.flag F.CLK_STATUS_FABRIC_BYP && decide (r.reqAt ≤ b)
    && (s.begun r || !s.inPost r || s.deferDone r b)
    && (decide (6 ≤ r.die) || (!s.cal.runs.any (fun x => x.start.isNone && decide (x.die < r.die))
      && decide (s.slotsNeeded r + s.slotsUsed ≤ s.slotsMax)))

/-- Inputs whose EVT procedure is skipped: RUN is 1, or an armed group names them (Table 14.5). -/
def State.evtBusy (s : State) (k : Nat) : Bool :=
  s.flag (F.EVT_IN_STATUS_RUN k) || (List.range 16).any (fun g => (s.grp g).armed && (srcsOf s.regs g).contains (0x1E0 + k))

/-- A die's entry is replaced. -/
def State.setRun (s : State) (r : CalRun) : State :=
  { s with cal := { s.cal with runs := s.cal.runs.map (fun x : CalRun => if x.die = r.die ∧ x.reqAt = r.reqAt then r else x) } }

/-! ### Calibration captures (R161, R162, R318) -/

/-- Bytes of a held channel's capture in one tick: its own A_ch in a group, 163 840 for each capture slot otherwise; the odd member
of a pair needs none. -/
def captureBytes (r : RegTab) (n : Nat) : Nat :=
  if n % 2 = 1 ∧ paired r n then 0
  else match groupOf r n with
    | some g => aCh r g n
    | none => if paired r n then 327680 else 163840

/-- A channel's capture of the tick from boundary b on is staged for its slot; what it holds only the engine knows: free values
(log entry 77). -/
def State.captureChan (s : State) (b n : Nat) : State :=
  let bits := 8 * captureBytes s.regs n
  let d := s.draw bits
  if bits = 0 then s
  else d.2.stageW ⟨8 * 65536 * (s.get F.CAL_CAP_BASE_PAGE + 4 * n), bits, d.1, 16, b, bits⟩

/-- The captures of one die take their space before any group's words, or do not fit and end its run (R162, Table 14.5). -/
def State.captureDie (s : State) (b : Nat) (r : CalRun) : State :=
  let chs := bitsSet 48 r.mask
  let bits := 8 * (chs.map (captureBytes s.regs)).sum
  if s.fillData + bits ≤ 8 * (16777216 - rRes s.regs) then (chs.foldl (fun t n => t.captureChan b n) s).takeSpace bits
  else { s with cal := { s.cal with lost := s.cal.lost ++ [r.die] } }

/-- The captures of the tick that opens at boundary b, die by die. -/
def State.captures (s : State) (b : Nat) : State :=
  (List.range 6).foldl (fun t k =>
    match t.cal.runs.find? (fun r => r.die == k && r.holding) with
    | some r => t.captureDie b r
    | none => t) s

/-- A die's run starts at boundary b and holds its channels (R317 step 1, R321). -/
def State.calStartDie (s : State) (r : CalRun) (b : Nat) : State :=
  let force := !s.begun r && s.inPost r
  let s1 := if force then (s.setF F.CAL_STATUS_FG_FORCED).post b 0x0D02 s.locusHub 0 else s
  let busy := if r.die = 6 then (bitsSet 8 r.mask).filter s.evtBusy else []
  let s2 := if busy = [] then s1 else s1.setF F.CAL_STATUS_EVT_SKIPPED
  let m := r.mask - maskOf busy
  let none_ := decide (r.die ≤ 6) && m == 0
  let s3 := s2.setRun { r with mask := m, start := some (b, b + tickLen * r.ticks), ended := none_ }
  let s4 := ((s3.calGaps b).calShow).calFinish
  -- a boundary that has been run already has staged no capture for this die
  if s.tick = b ∧ r.die < 6 ∧ none_ = false then s4.captureDie b { r with mask := m } else s4

/-- CAL_RUN_START: at a tick boundary from the request on (R318, R319). -/
def execCalRunStart (die : Fin 10) (s : State) : Host.Outcome State Fault Refusal :=
  .next (match s.cal.runs.find? (fun r => r.die == die.val && r.start.isNone) with
    | some r =>
      let b := boundaryAt (max s.lcnt r.reqAt)
      if s.canStart r b then (s.at_ b).calStartDie r b else s
    | none => s)

/-- Channels let go at core cycle b: comparators go on from their states, and a TIMEOUT whose source A was held restarts
there (R96). -/
def State.calLetGo (s : State) (mask b : Nat) : State :=
  let s1 := (bitsSet 48 mask).foldl (fun t n => (List.range 4).foldl (fun u d =>
    u.setDc (4 * n + d) { u.dc (4 * n + d) with breaks := (u.dc (4 * n + d)).breaks ++ [(b, none)] }) t) s
  (List.range 16).foldl (fun t g =>
    let d := trgDef t.regs g
    let gr := t.grp g
    match srcCh d.a with
    | some n => if d.typ = 7 ∧ gr.armed ∧ bitOf mask n then
        t.setGrp g { gr with part := { gr.part with toFrom := some (65536 * b) } } else t
    | none => t) s1

/-- Dies that have not finished release at boundary b with no result and an ERR code (Table 14.5). -/
def State.calRelDies (s : State) (b err : Nat) (p : CalRun → Bool) : State :=
  let hit := s.cal.runs.filter (fun r => p r && r.unfinished)
  if hit = [] then s
  else
    let m := hit.foldl (fun x r => if r.die < 6 ∧ r.start.isSome then Nat.lor x r.mask else x) 0
    let runs := s.cal.runs.filterMap (fun r : CalRun =>
      if p r && r.unfinished then
        (match r.start with
         | some (b0, _) => some { r with start := some (b0, b - 64), ended := true }
         | none => none)
      else some r)
    let s1 := { (s.put F.CAL_STATUS_ERR err) with cal := { s.cal with runs := runs } }
    (((s1.calLetGo m b).calGaps b).calShow).calFinish

/-- A pending ABORT or bypass acts at boundary b, and so do captures that did not fit (Table 14.5). -/
def State.calAbortAt (s : State) (b : Nat) : State :=
  let s1 : State := { s with cal := { s.cal with abort := none, lost := [] } }
  let s2 := match s.cal.abort with
    | some e => s1.calRelDies (e.2.getD b) e.1 (fun _ => true)
    | none => s1
  if s.cal.lost = [] then s2 else s2.calRelDies b 8 (fun r => s.cal.lost.contains r.die)

/-- New correction words of a position, of the kinds measured: offset by OFS, gain by GAIN, taps by SKEW. -/
def State.coefWords (s : State) (proc n p : Nat) : Nat → List Nat → State
  | _, [] => s
  | i, v :: vs =>
    let on := bitOf proc (if i = 0 then 0 else if i = 1 then 1 else 2)
    (if on then s.put (F.CONV_COEF_VALUE n p i) (v % (if i = 0 then 65536 else 262144)) else s).coefWords proc n p (i + 1) vs

/-- Values written in turn, value i by the function of its index. -/
def putList (f : State → Nat → Nat → State) (s : State) : Nat → List Nat → State
  | _, [] => s
  | i, v :: vs => putList f (f s i v) (i + 1) vs

/-- The quality figures that a run's procedures update for a channel (R327). -/
def State.calFigures (s : State) (proc : Nat) (c : ChResult) : State :=
  let n := c.n
  let s1 := if bitOf proc 0 then (s.sput (F.CAL_Q_OFS_UV n) c.ofsUv).put (F.CAL_Q_ENOB_CBIT n) c.enob else s
  let s2 := if bitOf proc 1 then s1.sput (F.CAL_Q_GAIN_PPM n) c.gainPpm else s1
  let s3 := if bitOf proc 2 then s2.put (F.CAL_Q_SKEW_FS n) c.skewFs else s2
  let s4 := if proc % 8 = 0 then s3 else s3.sput (F.CAL_Q_SPUR_DBC n) c.spur
  if bitOf proc 3 then
    (c.ints.zipIdx).foldl (fun t p => (t.put (F.CAL_Q_INT_DNL n p.2) p.1.1).put (F.CAL_Q_INT_INL n p.2) p.1.2) s4
  else s4

/-- A channel's result is rejected: after correction an offset above 2 mV, a gain error above 5 % or a skew residual above
500 fs (R322). -/
def chRejected (c : ChResult) (proc : Nat) : Bool :=
  (bitOf proc 0 && decide (2000 < c.ofsUv.natAbs)) || (bitOf proc 1 && decide (50000 < c.gainPpm.natAbs))
    || (bitOf proc 2 && decide (500 < c.skewFs))

/-- Positions and interpolators of a channel that failed during the run (R322, R47, R81). -/
def State.calParts (s : State) (c : ChResult) : State :=
  c.badInt.foldl (fun t i => t.intFail c.n i) (c.badPos.foldl (fun t p => t.posFail c.n p) s)

/-- One channel's results take effect, or are rejected and logged (R317, R322); a rejected channel keeps its figures too (log
entry 77). -/
def State.calChannel (s : State) (proc br : Nat) (c : ChResult) : State :=
  if chRejected c proc then (s.setF (F.CAL_CH_STATUS_FG_FAIL c.n)).post br 0x0D03 (s.locusCh c.n 0xFF) 0
  else
    let s1 := c.coef.foldl (fun t p => t.coefWords proc c.n p.1 0 p.2) s
    let s2 := if bitOf proc 3 then
        (let t := putList (fun t i v => t.put (F.TRG_AC_DELAY_DELAY (6 * c.n + i)) v) s1 0 (c.acDelay.take 6)
         { t with cal := { t.cal with trims := ((c.trims.take 6).zipIdx).foldl (fun u p => Tab.set u (6 * c.n + p.2) p.1) t.cal.trims } })
      else s1
    let s3 := if bitOf proc 4 then { s2 with cal := { s2.cal with align := Tab.set s2.cal.align c.n c.align } } else s2
    s3.calFigures proc c

/-- The hub's results: d_k and interpolator figures of the inputs measured. -/
def State.calHub (s : State) (mask : Nat) (res : DieResult) : State :=
  let s1 := putList (fun t k v => if bitOf mask k then t.put (F.EVT_DELAY_DELAY k) v else t) s 0 (res.evtDelay.take 8)
  ((res.evtInts.take 16).zipIdx).foldl (fun t p => if bitOf mask (p.2 / 2) then
    (t.put (F.CAL_Q_EVT_DNL p.2) p.1.1).put (F.CAL_Q_EVT_INL p.2) p.1.2 else t) s1

/-- The service die's results; a suspect reference leaves the gains as they were (R315). -/
def State.calSvc (s : State) (gain : Bool) (res : DieResult) : State :=
  { s with svc := { s.svc with
    monOff := res.monOff
    monGain := if gain then res.monGain else s.svc.monGain
    corr := ((res.dac.take 96).zipIdx).foldl (fun t p =>
      Tab.set t p.2 (p.1.1, if gain then p.1.2 else (Tab.get (0, 32768) t p.2).2)) s.svc.corr } }

/-- The calibration epoch increases once at a boundary where results take effect; 0 is skipped (R314). -/
def State.calStep (s : State) (br : Nat) : State :=
  if (List.range 8).any (fun i => Tab.get (0, 0) s.cal.dieEpoch i == (s.get F.CAL_EPOCH_EPOCH, br)) then s
  else
    let e := (s.get F.CAL_EPOCH_EPOCH + 1) % 65536
    let mask := maskOf ((s.cal.runs.filter (fun r => r.start.any (fun p => p.2 == br))).map (fun r => r.die))
    s.setCalEpoch br (if e = 0 then 1 else e) 2 mask

/-- A temperature in the 8 bits that its registers give it. -/
def tempCode (temp : Int) : Int := max (-128) (min 127 temp)

/-- A converter die's temperature is reported in core cycle a. -/
def State.tempNow (s : State) (k a : Nat) (temp : Int) : State :=
  let s1 := s.sput (F.CAL_TEMP_REF_NOW k) (tempCode temp)
  { s1 with cal := { s1.cal with temps := (k, a, tempCode temp) :: s1.cal.temps } }

/-- The advisory of a die clears in core cycle a (R325). -/
def State.advClear (s : State) (k a : Nat) : State :=
  let s1 := s.put F.CAL_DRIFT_STATUS_DRIFT (clrBit (s.get F.CAL_DRIFT_STATUS_DRIFT) k)
  { s1 with cal := { s1.cal with
    since := s1.cal.since.filter (fun p => p.1 != k)
    advs := s1.cal.advs.map (fun p => if p.1 = k ∧ p.2.2 = none then (p.1, p.2.1, some a) else p) } }

/-- A die's set now comes from a foreground run (R310, R325). -/
def State.calTaken (s : State) (r : CalRun) (br : Nat) (res : DieResult) : State :=
  let i := calIdx r.die
  let s1 := (s.calStep br).setSrc i 2
  let s2 := s1.defDie i false
  let s3 := if s2.get F.CAL_STATUS_DEF_DIES = 0 then s2.clrF F.GLOBAL_STATE_CAL_DEFAULTED else s2
  let s4 := { s3 with cal := { s3.cal with
    results := true
    dieEpoch := Tab.set s3.cal.dieEpoch i (s3.get F.CAL_EPOCH_EPOCH, br) } }
  if r.die < 6 then
    ((s4.sput (F.CAL_TEMP_REF_REF r.die) (tempCode res.temp)).tempNow r.die br res.temp).advClear r.die br
  else s4

/-- A die's results take effect at b_rel (R315, R317, R322). -/
def State.calRelease (s : State) (r : CalRun) (br : Nat) (res : DieResult) : State :=
  let susp := s.get F.CAL_STATUS_ERR == 4 || (res.suspect && bitOf r.proc 1 && !s.flag F.CAL_STATUS_OTP_BAD)
  let s0 := if susp then s.put F.CAL_STATUS_ERR 4 else s
  let proc := if susp then clrBit r.proc 1 else r.proc
  let mine := res.chans.filter (fun c => bitOf r.mask c.n)
  let s1 := if r.die < 6 then mine.foldl (fun t c => t.calChannel proc br c) s0
    else if r.die = 6 then s0.calHub r.mask res else s0.calSvc (!susp) res
  let takes := if r.die < 6 then proc != 0 && mine.any (fun c => !chRejected c proc) else true
  let s2 := (if takes then s1.calTaken r br res else s1).putN R.CAL_RUN_LCNT 2 br
  let s3 := s2.setRun { r with settling := decide (r.die < 6), ended := decide (6 ≤ r.die) }
  ((if r.die < 6 then mine.foldl (fun t c => t.calParts c) s3 else s3).calShow).calFinish

/-- CAL_RELEASE: at b_rel = b0 + 2048·T (R317). -/
def execCalRelease (die : Fin 10) (res : DieResult) (s : State) : Host.Outcome State Fault Refusal :=
  .next (match s.cal.runs.find? (fun r => r.die == die.val && r.holding) with
    | some r =>
      (match r.start with
       | some (_, br) => if s.cal.abort.isNone then (s.at_ br).calRelease r br res else s
       | none => s)
    | none => s)

/-- CAL_SETTLE_END: the words through b_rel + 63 have been discarded and the hold ends (R317). -/
def execCalSettleEnd (die : Fin 10) (s : State) : Host.Outcome State Fault Refusal :=
  .next (match s.cal.runs.find? (fun r => r.die == die.val && r.settling) with
    | some r =>
      (match r.start with
       | some (_, br) =>
         (((((s.at_ (br + 64)).setRun { r with settling := false, ended := true }).calLetGo r.mask (br + 64)).calGaps
           (br + 64)).calShow).calFinish
       | none => s)
    | none => s)

/-- The entries of a run leave the list once every die of it has ended and its last held words have arrived. -/
def State.calPurge (s : State) (b : Nat) : State :=
  let l := s.cal.runs
  let gone := fun r : CalRun => l.all (fun x => x.reqAt != r.reqAt || x.ended) && r.start.all (fun p => decide (p.2 + 104 ≤ b))
  { s with cal := { s.cal with runs := l.filter (fun r => !gone r) } }

/-! ### Drift and schedule (R325, R326) -/

/-- DRIFT_DT; values below 3 act as 3. -/
def State.driftDt (s : State) : Int := (max 3 (s.get F.CAL_DRIFT_DRIFT_DT) : Nat)

/-- The distance of a die's temperature from CAL_TEMP_REF. -/
def State.driftOf (s : State) (k : Nat) (temp : Int) : Int :=
  let d := temp - s.sget (F.CAL_TEMP_REF_REF k)
  if d < 0 then -d else d

/-- DRIFT_ADVISORY_SET (R325). -/
def execDriftAdvisorySet (k : Fin 6) (temp : Int) (s : State) : Host.Outcome State Fault Refusal :=
  let s1 := s.tempNow k s.lcnt temp
  let m := s.get F.CAL_DRIFT_STATUS_DRIFT
  .next (if s.driftDt < s.driftOf k temp ∧ bitOf m k = false then
      (let s2 := s1.put F.CAL_DRIFT_STATUS_DRIFT (setBit m k)
       { s2 with cal := { s2.cal with
         since := Tab.set s2.cal.since k s.lcnt
         advs := (k.val, s.lcnt, none) :: s2.cal.advs } }.post s.lcnt 0x0D04 (s.locus k 15 255 255) 0)
    else s1)

/-- DRIFT_ADVISORY_CLEAR (R325). -/
def execDriftAdvisoryClear (k : Fin 6) (temp : Int) (s : State) : Host.Outcome State Fault Refusal :=
  let s1 := s.tempNow k s.lcnt temp
  .next (if s.driftOf k temp ≤ s.driftDt - 2 then s1.advClear k s.lcnt else s1)

/-- DRIFT_RUN_REQUEST: an advisory set for 2^24 ticks requests bits 0–4 on every present channel of its die, unless the host
policy leaves AUTO_DRIFT 0 (R326). -/
def execDriftRunRequest (k : Fin 6) (s : State) : Host.Outcome State Fault Refusal :=
  .next (match s.cal.since.find? (fun p => p.1 == k.val) with
    | some (_, a) =>
      if bitOf (s.get F.CAL_DRIFT_STATUS_DRIFT) k ∧ (s.flag F.GLOBAL_STATE_HOST_POLICY = false ∨ s.flag F.CAL_SCHED_AUTO_DRIFT) then
        (let b := boundaryAt (a + 16777216 * tickLen)
         let t := (s.at_ b).calRequest (max s.lcnt b) (dieMask k) 31
         if t.cal.runs = s.cal.runs then t
         else { t with cal := { t.cal with since := t.cal.since.filter (fun p => p.1 != k.val) } })
      else s
    | none => s)

/-- CAL_SCHED_PERIOD: under host policy a run of all dies every PERIOD ticks (R326). A self-started run that finds another active
is dropped as a START is, and its next period counts from its own boundary (log entry 77). -/
def execCalSchedPeriod (s : State) : Host.Outcome State Fault Refusal :=
  .next (if s.flag F.GLOBAL_STATE_HOST_POLICY ∧ s.get F.CAL_SCHED_PERIOD ≠ 0 then
      (let b := boundaryAt (max s.lcnt (s.cal.schedAt + tickLen * s.get F.CAL_SCHED_PERIOD))
       let t := (s.at_ b).calRequest b (2 ^ 48 - 1) 31
       { t with cal := { t.cal with schedAt := b } })
    else s)

end Sys2Proof.Machine
end

