-- ==== Sys2Proof/Machine/Checks.lean ====
section
/-! DEFINITION. The admission checks of a commit: one test for each reason code of Table 16.4. A check compares the set in
force with the set that the commit would make active (fenced channels left out, R51). -/

namespace Sys2Proof.Machine

/-! ### The set a commit names and the set it makes active (R51, R358) -/

/-- The set that the shadow set names. -/
def State.named (s : State) : RegTab := overlay s.regs s.shadow

/-- A register set with two words replaced by a 64-bit value, when they differ. -/
def RegTab.setMask (r : RegTab) (off v : Nat) : RegTab := if r.wide off 2 = v then r else r.setWide off 2 v

/-- Fenced channels that a set names, in a group or as a member of a pair (R51). -/
def omitted (r : RegTab) (fenced : Nat) : List Nat :=
  (bitsSet 48 fenced).filter (fun n => (groupOf r n).isSome || paired r n)

/-- The set with fenced channels left out of every group and their pairs left in single mode (R51). -/
def leaveOut (r : RegTab) (fenced : Nat) : RegTab :=
  let r1 := (List.range 16).foldl (fun (u : RegTab) g =>
    let m := chMask r g
    u.setMask (R.TRG_GRP_CH g) (m - Nat.land m fenced)) r
  let pairs := r.fld F.CONV_MODE_PAIR
  let keep := maskOf ((bitsSet 24 pairs).filter (fun k => !bitOf fenced (2 * k) && !bitOf fenced (2 * k + 1)))
  if keep = pairs then r1 else r1.setFld F.CONV_MODE_PAIR keep

/-- A stop request of group g is due by boundary b (R92, R358). -/
def State.stopDue (s : State) (g b : Nat) : Bool :=
  let gr := s.grp g
  match gr.stopReq with
  | some (a, _) => gr.armed && (gr.cur == none || isCont s.regs g) && decide (s.stopAt g a ≤ b)
  | none => false

/-- The groups that count as armed in the checks of a commit at boundary b (R358). -/
def State.armedAt (s : State) (b : Nat) : List Nat :=
  (List.range 16).filter (fun g => (s.grp g).armed && !s.stopDue g b && !bitOf s.pwr.grpReset g)

/-- A word of the range lo to hi − 1 differs between two sets. Words that differ are listed in the new set. -/
def changedIn (old new : RegTab) (lo hi : Nat) : Bool :=
  new.any (fun p => decide (lo ≤ p.1) && decide (p.1 < hi) && (old.word p.1 != p.2))

/-- Indices of words of an array that a set lists: base, stride, count. -/
def listedIn (r : RegTab) (base stride count : Nat) : List Nat :=
  (r.filterMap (fun p => if base ≤ p.1 ∧ p.1 < base + stride * count ∧ (p.1 - base) % stride = 0 then some ((p.1 - base) / stride)
    else none)).dedup

/-- A channel of a list of groups under a set. -/
def inGroups (r : RegTab) (gs : List Nat) (n : Nat) : Bool := gs.any (fun g => bitOf (chMask r g) n)

/-! ### Chains (R13, R70, R71) -/

/-- Words of a chain that are structural: all but the coefficients. -/
def chainWords (old new : RegTab) (n : Nat) : Bool := changedIn old new (R.FLT_CH_CFG n) (R.FLT_CH_DC_INIT n + 4)

/-- The chain of channel n restarts: it becomes active, or its settings or its pair's mode change (R71). The registers of the
odd channel of a pair govern nothing (R55). -/
def restarts (old new : RegTab) (n : Nat) : Bool :=
  !(n % 2 == 1 && paired new n)
    && ((chainNeeded new n && !chainNeeded old n) || chainWords old new n || (paired old n != paired new n))

/-! ### The checks -/

/-- GRP_OVERLAP (R12, R14). -/
def badOverlap (n : RegTab) : Bool :=
  (List.range 48).any (fun c =>
    let k := ((List.range 16).filter (fun g => bitOf (chMask n g) c)).length
    decide (1 < k) || (c % 2 == 1 && paired n c && decide (0 < k)))

/-- CONV_ARMED (R37). A pair left in single mode because it is fenced (R51) is no change of an armed group's mode. -/
def badPairs (old n : RegTab) (armed : List Nat) (fenced : Nat) : Bool :=
  (List.range 24).any (fun k => !bitOf fenced (2 * k) && !bitOf fenced (2 * k + 1) && (paired old (2 * k) != paired n (2 * k)) && (inGroups old armed (2 * k) || inGroups old armed (2 * k + 1)))

/-- CLK_RANGE (R251, R252). -/
def badClock (n : RegTab) : Bool :=
  let fs := fsOf n
  let md := n.fld F.CLK_FCW_MOD_MOD
  decide (md = 0) || decide (md ≤ n.fld F.CLK_FCW_FRAC_FRAC) || decide (fs.1 < 20000000000 * fs.2) || decide (32800000000 * fs.2 < fs.1)
    || (decide (2 ≤ n.fld F.CLK_CTRL_PROFILE) && !n.bit F.CLK_CTRL_REF_SEL)

/-- FLT_RATE (R55, first two cases). -/
def badRate (n : RegTab) : Bool :=
  (List.range 48).any (fun c =>
    if c % 2 = 1 ∧ paired n c then false
    else
      let f := chainCfg n c
      (decide (1 ≤ f.h) && decide (f.ra < f.n / 8)) || ((f.dcEn || f.fir) && decide (f.d < f.n)))

/-- FLT_FORMAT (R55, third case). The odd channel of a pair is left out: its registers govern nothing. -/
def badFormat (n : RegTab) : Bool :=
  (List.range 48).any (fun c =>
    let k := n.fld (F.FLT_CH_TAPS_DC_K c)
    !(c % 2 == 1 && paired n c) && (n.fld (F.FLT_CH_CFG_WIDTH c) == 3 || decide (k < 4) || decide (30 < k)))

/-- FLT_GROUP (R66). -/
def badGroup (n : RegTab) : Bool :=
  (List.range 16).any (fun g =>
    let key := fun c => (n.fld (F.FLT_CH_CFG_MODE c), n.fld (F.FLT_CH_CFG_WIDTH c), (chainCfg n c).d)
    (bitsSet 48 (chMask n g)).any (fun c => key c != key (grpFirst n g)))

/-- FLT_ARMED (R71). -/
def badChain (old n : RegTab) (armed : List Nat) : Bool :=
  (List.range 48).any (fun c =>
    (chainWords old n c || (chainNeeded n c && !chainNeeded old c)) && (inGroups n armed c || armed.any (fun g => (srcsOf n g).any (fun x =>
      decide (0x120 ≤ x) && decide (x < 0x1E0) && (x - 0x120) / 4 == c && n.bit (F.TRG_DC_CTRL_SRC (x - 0x120))))))

/-- The input that RUNT, WINDOW and SLEW ask two sources to share (R86): kind and channel; none for any other source. -/
def srcInput (n : RegTab) (c : Nat) : Option (Nat × Nat) :=
  if c < 0x120 then some (0, c / 6)
  else if c < 0x1E0 then some (1 + n.fld (F.TRG_DC_CTRL_SRC (c - 0x120)), (c - 0x120) / 4)
  else none

/-- TRG_SOURCE for one group (R77, R84, R86). -/
def badTrigger (n : RegTab) (g : Nat) : Bool :=
  let typ := n.fld (F.TRG_GRP_CTRL_TYPE g)
  let a := srcInput n (n.fld (F.TRG_GRP_SRC_SRC_A g))
  decide (8 ≤ typ) || n.fld (F.TRG_GRP_CTRL_SLOPE_A g) == 3 || n.fld (F.TRG_GRP_CTRL_SLOPE_B g) == 3
    || (srcsOf n g).any (fun c => decide (0x1E8 ≤ c) || (match srcCh c with
      | some ch => ch % 2 == 1 && paired n ch
      | none => false))
    || (patSlots n g).any (fun i => patSrc n g i == 0x3FF)
    || (decide (2 ≤ typ) && decide (typ ≤ 4) && (a == none || a != srcInput n (n.fld (F.TRG_GRP_SRC_SRC_B g))))

/-- TRG_SOURCE (R77): also SRC = 1 on a channel whose MODE is plain or min/max. -/
def badSources (n : RegTab) : Bool :=
  (List.range 16).any (badTrigger n)
    || (listedIn n (R.TRG_DC_CTRL 0) 0x20 192).any (fun m =>
      !(m / 4 % 2 == 1 && paired n (m / 4)) && n.bit (F.TRG_DC_CTRL_SRC m) && decide (n.fld (F.FLT_CH_CFG_MODE (m / 4)) < 2))

/-- REC_LENGTH (R100). -/
def badLength (n : RegTab) : Bool :=
  (List.range 16).any (fun g =>
    let nn := grpN n g
    let len := n.fld (F.REC_GRP_LEN_LEN g)
    let pre := n.fld (F.REC_GRP_PRE_PRE g)
    n.fld (F.REC_GRP_CTRL_MODE g) == 3 || len % nn != 0 || pre % nn != 0 || decide (len < nn) || decide (2 ^ 32 - nn < len)
      || decide (len < pre) || (isCont n g && pre != 0))

/-- REC_ARMED (R104). -/
def badRec (old n : RegTab) (armed : List Nat) : Bool :=
  armed.any (fun g => changedIn old n (R.REC_GRP_CTRL g) (R.REC_GRP_FIRST_NUM g + 8))

/-- REC_LENS (R116). -/
def badLens (n : RegTab) : Bool :=
  (List.range 16).any (fun g => n.bit (F.REC_GRP_CTRL_LENS_EN g) && (
    let off := n.sfld (F.REC_GRP_LENS_LENS_OFF g)
    let nn := grpN n g
    let pre := n.fld (F.REC_GRP_PRE_PRE g)
    let last : Int := (n.fld (F.REC_GRP_LEN_LEN g) : Int) / nn - (pre / nn : Nat) - 1
    isCont n g || decide (4096 < (lDec n g : Int) - off) || decide (off < -((pre / nn : Nat) : Int))
      || decide (last < off + lensLen n g - 1)))

/-- The allocations in use (R361). -/
def allocRest (n : RegTab) : List Pages := allocGrps n ++ allocEvt n ++ [allocLog n]

/-- REC_SPACE (R122). -/
def badSpace (n : RegTab) : Bool :=
  (usedGrps n).any (fun g => decide (ringPages n g < (layoutOf n g).pages))
    || overlapIn (allocRest n ++ allocAvg n ++ allocTally n ++ [allocCal n])

/-- ABA_ARMED (R138). -/
def badAbaArmed (old n : RegTab) (armed : List Nat) : Bool :=
  (List.range 48).any (fun c => inGroups old armed c && changedIn old n (R.ABA_SLOT_CTRL c 0) (R.ABA_CH_LEVELS c + 4))

/-- ABA_CONFIG (R138). -/
def badAba (n : RegTab) : Bool :=
  (List.range 48).any (fun c =>
    let lens := match groupOf n c with
      | some g => n.bit (F.REC_GRP_CTRL_LENS_EN g)
      | none => true
    let lo := n.fld (F.ABA_CH_LEVELS_LO c)
    let mid := n.fld (F.ABA_CH_LEVELS_MID c)
    let hi := n.fld (F.ABA_CH_LEVELS_HI c)
    (List.range 16).any (fun i => decide (0x14 ≤ n.fld (F.ABA_SLOT_CTRL_MEAS c i)) || (!lens && n.bit (F.ABA_SLOT_CTRL_SRC c i)))
      || decide (mid ≤ lo) || decide (hi ≤ mid) || decide (1000 < hi))

/-- The samples off … off + len − 1 from N·c_t lie in every record of group g (R150). -/
def inRecord (n : RegTab) (g : Nat) (off : Int) (len : Nat) : Bool :=
  let pre := n.fld (F.REC_GRP_PRE_PRE g)
  decide (-(pre : Int) ≤ off) && decide (off + len ≤ (n.fld (F.REC_GRP_LEN_LEN g) : Int) - pre - grpN n g)

/-- TAL_SPAN (R150); membership is asked of the set named, since a fenced channel draws nothing. -/
def badSpan (r n : RegTab) : Bool :=
  (List.range 8).any (fun d => n.bit (F.TAL_DB_SRC_EN d) && (
    let g := n.fld (F.TAL_DB_SRC_GROUP d)
    let c := n.fld (F.TAL_DB_SRC_CH d)
    !inRecord n g (n.sfld (F.TAL_DB_XOFF_XOFF d)) (2048 * (n.fld (F.TAL_DB_X_XDEC_M1 d) + 1))
      || !(bitOf (chMask r g) c) || (c % 2 == 1 && paired n c)))
  || (List.range 16).any (fun g => n.bit (F.TAL_AVG_CTRL_EN g)
    && !inRecord n g (n.sfld (F.TAL_AVG_OFF_OFF g)) (n.fld (F.TAL_AVG_LEN_LEN g)))

/-- Pages of the largest frame of a set (R142, R146): a snapshot, or an averaging frame. -/
def frameMax (n : RegTab) : Nat :=
  let snap := if (List.range 8).any (fun d => n.bit (F.TAL_DB_SRC_EN d)) then 65 else 0
  (List.range 16).foldl (fun m g =>
    if n.bit (F.TAL_AVG_CTRL_EN g) then
      max m (ceilDiv (256 + (bitsSet 48 (chMask n g)).length
        * (64 * ceilDiv (n.fld (F.TAL_AVG_LEN_LEN g) * (if n.bit (F.TAL_AVG_CTRL_FORMAT g) then 2 else 6)) 64)) 65536)
    else m) snap

/-- TAL_SPACE (R150). -/
def badTally (n : RegTab) : Bool :=
  let mine := allocAvg n ++ allocTally n
  overlapIn mine || mine.any (fun a => a.meetsAny (allocCal n :: allocRest n))
    || (tallyUsed n && decide (n.fld F.TAL_RING_SIZE_PAGES < frameMax n))

/-- TAL_ARMED (R150). -/
def badAvgArmed (old n : RegTab) (armed : List Nat) : Bool :=
  armed.any (fun g => changedIn old n (R.TAL_AVG_CTRL g) (R.TAL_AVG_BASE g + 4))

/-- Streams that a set enables and another did not (R198). -/
def newStreams (old n : RegTab) : List Nat := (streamsIn n).filter (fun q => !old.bit (F.STM_Q_CTRL_EN q))

/-- STM_QUEUE (R198). -/
def badQueue (old n : RegTab) : Bool := (newStreams old n).any (fun q => n.bit (F.DMA_Q_OWNER_VALID q))

/-- The port set of a stream under a set. -/
def portsIn (r : RegTab) (q : Nat) : List Nat := bitsSet 128 (r.wide (R.STM_Q_PORTS q 0) 4)

/-- STM_PORT (R198). -/
def badPorts (old n : RegTab) : Bool :=
  (streamsIn n).any (fun q => (portsIn n q).isEmpty || (portsIn n q).any (fun p => !isPort n p))
    || (List.range 8).any (fun k => lanesIn old k != lanesIn n k
      && (streamsIn old).any (fun q => (portsIn old q).any (fun p => p / 16 == k)))

/-- STM_CONFIG (R179, R198); membership is asked of the set named. -/
def badStream (r n : RegTab) : Bool :=
  (queuesIn n (R.STM_Q_CTRL 0) 0x80).any (fun q =>
    let fm := n.fld (F.STM_Q_FRAME_FRAME_MAX q)
    n.fld (F.STM_Q_CTRL_KIND q) == 3 || n.fld (F.STM_Q_CTRL_ENCAP q) == 3 || decide (fm < 256) || decide (9216 < fm)
      || (n.bit (F.STM_Q_CTRL_EN q) && n.fld (F.STM_Q_CTRL_KIND q) == 0 && (
        let sel := n.wide (R.STM_Q_SEL q) 2 % 2 ^ 48
        Nat.land sel (chMask r (n.fld (F.STM_Q_CTRL_GROUP q))) != sel)))

/-- What STM_ARMED protects of a stream (R198). -/
def streamKey (r : RegTab) (q : Nat) : List Nat :=
  [r.fld (F.STM_Q_CTRL_KIND q), r.fld (F.STM_Q_CTRL_GROUP q), r.wide (R.STM_Q_SEL q) 2, r.fld (F.STM_Q_CTRL_MEAS_EN q),
   r.fld (F.STM_Q_CTRL_GAP_EN q)]

/-- STM_ARMED (R198). -/
def badStreamArmed (old n : RegTab) (armed : List Nat) : Bool :=
  (streamsIn old).any (fun q => old.fld (F.STM_Q_CTRL_KIND q) == 0 && armed.contains (old.fld (F.STM_Q_CTRL_GROUP q))
    && streamKey old q != streamKey n q)

/-- DMA_OWNER (R204). -/
def badOwner (old n : RegTab) : Bool :=
  (listedIn n (R.DMA_Q_OWNER 0) 4 1024).any (fun q =>
    old.word (R.DMA_Q_OWNER q) != n.word (R.DMA_Q_OWNER q)
      && (old.fld (F.DMA_QC_STATUS_STATE q) != 0
        || (n.bit (F.DMA_Q_OWNER_VALID q) && n.bit (F.STM_Q_CTRL_EN q))))

/-- The mode fields of the display: DISP_CTRL but CHROMA and UNDER, and the timing words (R244). -/
def dispMode (r : RegTab) : List Word :=
  (r.word R.DISP_CTRL &&& ~~~0x1800#32) :: [R.DISP_PCLK, R.DISP_H, R.DISP_HS, R.DISP_V, R.DISP_VS].map r.word

/-- DISP_MODE (R244). -/
def badMode (old n : RegTab) : Bool := old.bit F.DISP_CTRL_EN && n.bit F.DISP_CTRL_EN && dispMode old != dispMode n

/-- Link rate in Mbit/s of a RATE code, and lanes of a LANES code (Table 10.1). -/
def rateMbps (k : Nat) : Nat := match k with
  | 0 => 1620
  | 1 => 2700
  | 2 => 5400
  | _ => 8100

/-- DISP_CONFIG (R245). -/
def badDisplay (n : RegTab) : Bool :=
  let ratio := n.fld F.DISP_PCLK_RATIO
  let lanes := n.fld F.DISP_CTRL_LANES
  let bpp := if n.bit F.DISP_CTRL_FMT then 16 else 24
  let hact := n.fld F.DISP_H_HACT
  let vact := n.fld F.DISP_V_VACT
  let px := n.fld F.DISP_PLOT_POS_PLOT_X
  let py := n.fld F.DISP_PLOT_POS_PLOT_Y
  let pw := n.fld F.DISP_PLOT_SIZE_PLOT_W
  let ph := n.fld F.DISP_PLOT_SIZE_PLOT_H
  let hs := n.fld F.DISP_HS_HS_START
  let vs := n.fld F.DISP_VS_VS_START
  decide (100 * ratio < 25 * 16777216) || decide (600 * 16777216 < 100 * ratio)
    || decide (776 * 2 ^ lanes * rateMbps (n.fld F.DISP_CTRL_RATE) * 16777216 < 100000 * ratio * bpp)
    || decide (hact < px + pw) || decide (vact < py + ph) || pw == 0 || ph == 0
    || (n.bit F.DISP_CTRL_CHROMA && (hact % 2 == 1 || px % 2 == 1))
    || (!n.bit F.DISP_CTRL_CHROMA && (vact % 2 == 1 || py % 2 == 1))
    || decide (hs < hact) || decide (n.fld F.DISP_H_HTOTAL < hs + n.fld F.DISP_HS_HS_WIDTH)
    || decide (vs < vact) || decide (n.fld F.DISP_V_VTOTAL < vs + n.fld F.DISP_VS_VS_WIDTH)
    || decide (n.fld F.DISP_V_VTOTAL < vact + 16)
    || (n.bit F.DISP_CTRL_PSR_EN && !n.bit F.DISP_CTRL_EDP) || lanes == 3

/-- Port p is a PTP port of a set (R275). -/
def isPtpPort (r : RegTab) (p : Nat) : Bool := isPort r p && r.bit (F.STM_PORT_CTRL_EN p) && r.bit (F.TIME_PTP_PORT_EN p)

/-- TIME_CONFIG (R275). -/
def badTime (n : RegTab) : Bool :=
  let prof := n.fld F.TIME_PTP_CTRL_PROFILE
  let typ := n.fld F.TIME_PTP_CTRL_TYPE
  let p2p := n.bit F.TIME_PTP_CTRL_DELAY
  let tr := n.fld F.TIME_PTP_CTRL_TRANSPORT
  prof == 3 || typ == 3 || (prof != 0 && (!p2p || tr == 1 || tr == 2))
    || (typ == 0 && ((List.range 128).filter (isPtpPort n)).length != 1) || (typ == 2 && p2p)

/-- EVT_CONFIG (R304, R309). -/
def badEvent (n : RegTab) : Bool :=
  let fs := fsOf n
  (List.range 8).any (fun k =>
    let func := n.fld (F.EVT_IN_CTRL_FUNC k)
    let sel := n.fld (F.EVT_IN_CTRL_SEL k)
    let gate := n.wide (R.EVT_IN_GATE k) 2 % 2 ^ 40
    decide (5 ≤ func) || sel == 3 || (func == 4 && (sel != 2 || n.fld (F.EVT_IN_CTRL_SLOPE k) == 2))
      || ((func == 2 || func == 3) && (sel != 0 || !n.bit (F.EVT_IN_CTRL_EN (n.fld (F.EVT_IN_CTRL_STOP_IN k)))))
      || decide (gate * 64000000 * fs.2 < fs.1) || decide (1000 * fs.1 < gate * 64 * fs.2)
      || decide (n.fld (F.EVT_IN_SPACE_SPACE k) < 3))
    || overlapIn (allocEvt n)
    || (allocEvt n).any (fun a => a.meetsAny (allocGrps n ++ allocAvg n ++ allocTally n ++ [allocLog n, allocCal n]))

/-- EVT_BUDGET (R299). -/
def badEventBudget (n : RegTab) : Bool := decide (n.fld F.STO_DMA_RESERVE_BYTES < 13184 * (allocEvt n).length)

/-- EVT_BUSY (R309). -/
def badEventBusy (old n : RegTab) : Bool :=
  (List.range 8).any (fun k => old.bit (F.EVT_IN_STATUS_RUN k) && changedIn old n (R.EVT_IN_CTRL k) (R.EVT_IN_CTRL k + 0x100))

/-- CAL_CONFIG (R315). -/
def badCal (n : RegTab) : Bool :=
  let v := n.sfld F.CAL_CALV_UV
  decide (v ≠ 0) && (decide (v < 100000) || decide (390000 < v))

/-- CAL_SPACE (R328). -/
def badCapture (n : RegTab) (cap : Nat) : Bool :=
  (allocCal n).meetsAny (allocRest n ++ allocAvg n ++ allocTally n) || decide (cap < (allocCal n).1 + (allocCal n).2)

/-- The written codes of the sources a set enables, summed (R337). -/
def excTotal (n : RegTab) : Nat :=
  ((List.range 48).map (fun c => if n.bit (F.SVC_EXC_CTRL_EN c) then n.fld (F.SVC_EXC_CTRL_CODE c) else 0)).sum

/-- TRG_ARMED (R414). -/
def badLatency (old n : RegTab) (armed : List Nat) : Bool := armed.any (fun g => lDec old g != lDec n g)

/-- Every check of Table 16.4, in the order of the codes (R360): the codes that fail. -/
def State.failing (s : State) (b : Nat) (r n : RegTab) (d : Demand) : List Nat :=
  let old := s.regs
  let armed := s.armedAt b
  let l : List (Nat × Bool) := [
    (0x01, badOverlap n),
    (0x02, badPairs old n armed s.fenceMask),
    (0x03, badClock n),
    (0x04, clkChange s.loopRegs n && !s.clkSmall s.loopRegs n && !armed.isEmpty),
    (0x05, badRate n),
    (0x06, badFormat n),
    (0x07, badGroup n),
    (0x08, badChain old n armed),
    (0x09, badSources n),
    (0x0A, badLength n),
    (0x0B, badRec old n armed),
    (0x0C, badLens n)] ++ [
    (0x0D, badSpace n),
    (0x0E, badAbaArmed old n armed),
    (0x0F, badAba n),
    (0x10, badSpan r n),
    (0x11, badTally n),
    (0x12, badAvgArmed old n armed),
    (0x13, d.overBudget),
    (0x14, d.overStaging),
    (0x15, badQueue old n),
    (0x16, badPorts old n),
    (0x17, badStream r n),
    (0x18, badStreamArmed old n armed)] ++ [
    (0x19, badOwner old n),
    (0x1A, badMode old n),
    (0x1B, badDisplay n),
    (0x1C, badTime n),
    (0x1D, badEvent n),
    (0x1E, badEventBudget n),
    (0x1F, badEventBusy old n),
    (0x20, badCal n),
    (0x21, badCapture n s.capPages),
    (0x22, decide (1310720 < excTotal n)),
    (0x23, badLatency old n armed)]
  (l.filter (fun p => p.2)).map (fun p => p.1)

end Sys2Proof.Machine
end

