-- ==== Sys2Proof/Machine/Commit.lean ====
section
/-! DEFINITION. Commits (spec/16): requests, the boundary that applies one, what an applied commit does to every engine, and
outcomes (R355-R360). What the loader adds is in Image.lean. -/

namespace Sys2Proof.Machine

/-! ### Groups -/

/-- Stops due at the commit's boundary take effect; a completed count that restarts waits to arm after the commit (R92, R103,
R358). -/
def State.stopNow (s : State) (b g : Nat) : State :=
  if s.stopDue g b then
    (let again := (match (s.grp g).stopReq with
       | some (_, why) => decide (why = .count)
       | none => false) && s.flag (F.REC_GRP_CTRL_RESTART g)
     let s1 := (if isCont s.regs g then s.cutCont g b else s).endAcq g b
     if again then s1.setGrp g { s1.grp g with armReq := some (b - 1) } else s1)
  else s

/-- The group's open averaging set is discarded by a reset, and that is logged (R151). -/
def State.dropSet (s : State) (b g : Nat) : State :=
  (if (s.avg g).count = 0 then s else s.post b 0x0701 (s.locusGrp g) 0).avgDiscard g

/-- A reset ends the acquisition with stopping LCNT b: the open record is cut, the open averaging set is discarded (R125, R151,
R374). -/
def State.resetAcq (s : State) (b g : Nat) : State := if (s.grp g).armed then ((s.cutCont g b).dropSet b g).endAcq g b else s

/-- A group reset due at boundary b (R374, steps 1, 2 and 4). -/
def State.resetStop (s : State) (b g : Nat) : State :=
  if bitOf s.pwr.grpReset g then (s.resetAcq b g).dropSet b g else s

/-- The record count under R105. -/
def State.firstNum (s : State) (b g : Nat) : State :=
  let v := s.getN (R.REC_GRP_FIRST_NUM g) 2
  let gr := s.grp g
  if gr.firstNum = some v then s
  else
    let s1 := s.setGrp g { gr with firstNum := some v }
    if gr.firstNum.isSome ∧ gr.opened then s1.post b 0x0602 (s.locusGrp g) (v + g * 2 ^ 64)
    else if gr.opened then s1 else s1.putN (R.REC_GRP_NEXT_NUM g) 2 v

/-- A ring or gap ring that a commit moves or resizes starts empty; the page map's address is the device's (log entries 7, 40). -/
def State.ringGeom (s : State) (g : Nat) : State :=
  let r := s.regs
  let base := r.fld (F.REC_GRP_RING_BASE_PAGE g)
  let pages := ringPages r g
  let pin := pinMax r g
  let gap := (r.fld (F.REC_GRP_GAP_RING_PAGE g), gapPages r g)
  let gr := s.grp g
  let old := gr.geom
  if chMask r g = 0 ∨ old = (base, pages, pin, gap) then s
  else
    let s1 : State := if (old.1, old.2.1, old.2.2.1) = (base, pages, pin) then s
      else
        let a := s.draw 32
        (((a.2.setGrp g { gr with
            slots := []
            pmap := []
            pins := []
            reserve := (List.range pin).map (fun i => base + pages + i)
            head := 0 }).put (F.REC_GRP_PMAP_ADDR g) a.1).put (F.REC_GRP_STATUS_PINNED g) 0).showOldest g
    let same := decide (old.2.2.2 = gap)
    s1.setGrp g { s1.grp g with
      geom := (base, pages, pin, gap)
      gapIdx := if same then gr.gapIdx else 1
      gapHeld := if same then gr.gapHeld else 0 }

/-- The words of a group's trigger definition, or of a comparator it names, differ (R414). -/
def trgChanged (old new : RegTab) (g : Nat) : Bool :=
  changedIn old new (R.TRG_GRP_CTRL g) (R.TRG_GRP_PVAL g + 4) || (srcsOf new g).any (fun c =>
    if c < 0x120 then changedIn old new (R.TRG_AC_CTRL c) (R.TRG_AC_CTRL c + 4) || changedIn old new (R.TRG_LEVEL c) (R.TRG_LEVEL c + 4)
    else if c < 0x1E0 then changedIn old new (R.TRG_DC_CTRL (c - 0x120)) (R.TRG_DC_HYST (c - 0x120) + 4)
    else false)

/-- A comparator begins at this commit: it is enabled now and was not, or takes another stream (R74, R75). -/
def srcBegins (old new : RegTab) (c : Nat) : Bool :=
  if c < 0x120 then new.bit (F.TRG_AC_CTRL_EN c) && !old.bit (F.TRG_AC_CTRL_EN c)
  else if c < 0x1E0 then
    (let m := c - 0x120
     new.bit (F.TRG_DC_CTRL_EN m) && (!old.bit (F.TRG_DC_CTRL_EN m) || old.bit (F.TRG_DC_CTRL_SRC m) != new.bit (F.TRG_DC_CTRL_SRC m)))
  else false

/-- The states that a group knows of its sources after a commit: those it did not name, or that began, are taken now. -/
def State.highSeen (s : State) (old : RegTab) (g : Nat) : List Nat :=
  let was := (s.grp g).high
  let now := srcsOf s.regs g
  let fresh := now.filter (fun c => !(srcsOf old g).contains c || srcBegins old s.regs c)
  (was.filter (fun c => !fresh.contains c)) ++ fresh.filter s.srcHigh

/-- An armed group under the new set (R414; channels, log entry 41). The definition changes at b for the crossings from b on. -/
def State.armedCommit (s : State) (old : RegTab) (b g : Nat) : State :=
  if (s.grp g).armed = false then s
  else
    let s1 := if chMask old g = chMask s.regs g then s else
      ((s.moveWindow old g).setGrp g ((s.moveWindow old g).grp g |>.reopen b)).gapSync g
    if trgChanged old s.regs g then
      s1.setGrp g { s1.grp g with defAt := (s1.grp g).defAt ++ [b], high := s1.highSeen old g }
    else s1

/-- Group g after an applied commit: figures, count, ring, trigger definition. -/
def State.grpCommit (s : State) (old : RegTab) (b g : Nat) : State :=
  let used := chMask s.regs g != 0
  let s1 := (s.put (F.TRG_GRP_LATENCY_L_DEC g) (lDec s.regs g)).put (F.REC_GRP_IMAGE_IMG_PAGES g)
    (if used then (layoutOf s.regs g).pages else 0)
  ((s1.firstNum b g).ringGeom g).armedCommit old b g

/-! ### Comparators and chains -/

/-- Comparators that begin take their state from their input at the boundary (R74); inHigh holds 288 analogue, then 192
digital comparators. -/
def State.srcCommit (s : State) (old : RegTab) (b inHigh : Nat) : State :=
  let acs := (listedIn s.regs (R.TRG_AC_CTRL 0) 0x40 288).filter (srcBegins old s.regs)
  let dcs := (listedIn s.regs (R.TRG_DC_CTRL 0) 0x20 192).filter (fun m => srcBegins old s.regs (0x120 + m))
  let s1 := acs.foldl (fun t n => (t.putB (F.TRG_AC_STATUS_STATE n) (bitOf inHigh n)).startTimers n b) s
  dcs.foldl (fun t m => t.setDc m { t.dc m with breaks := (t.dc m).breaks ++ [(b, some (bitOf inHigh (288 + m)))] }) s1

/-- A chain after an applied commit: its figures (R62), a restart (R71). -/
def State.chainCommit (s : State) (old : RegTab) (b n : Nat) : State :=
  let f := chainCfg s.regs n
  let s1 := ((s.putN (R.FLT_CH_DELAY n) 2 f.tau).putN (R.FLT_CH_SUPPORT n) 2 f.sup).put (F.FLT_CH_DTOT_D_M1 n) (f.d - 1)
  if restarts old s.regs n then
    (s1.setChain n { s1.chain n with restartAt := some b }).setF (F.FLT_CH_STATUS_RESTARTED n)
  else s1

/-! ### Streams (R185, R187, R189) -/

/-- Where a stream that begins starts: the group's next item, the next frame, the next log entry. -/
def State.strmNext (s : State) (q : Nat) : Nat :=
  match s.get (F.STM_Q_CTRL_KIND q) with
  | 0 => (s.grp (s.get (F.STM_Q_CTRL_GROUP q))).itemOrd
  | 1 => s.framePub
  | _ => s.get F.LOG_WR_SEQ_SEQ

/-- A stream leaves the item it has begun, and the records of its group (R189; log entry 42). -/
def State.strmDrop (s : State) (old : RegTab) (q : Nat) : State :=
  let x := s.strm q
  let s1 := match x.cur with
    | some i => match i.rel with
      | .record g num => s.setPins g (pinKey q num) []
      | r => s.releaseItem q r
    | none => s
  let s2 := (s1.unask 0 q).setStrm q { x with cur := none, skip := [] }
  if old.fld (F.STM_Q_CTRL_KIND q) = 0 then s2.unbindQ (1024 + q) (old.fld (F.STM_Q_CTRL_GROUP q)) else s2

/-- Stream q after an applied commit. -/
def State.strmCommit (s : State) (old : RegTab) (q : Nat) : State :=
  let was := old.bit (F.STM_Q_CTRL_EN q)
  let is := s.flag (F.STM_Q_CTRL_EN q)
  let moved := old.fld (F.STM_Q_CTRL_KIND q) != s.get (F.STM_Q_CTRL_KIND q) || old.fld (F.STM_Q_CTRL_GROUP q) != s.get (F.STM_Q_CTRL_GROUP q)
  let s1 := if was && (!is || moved) then s.strmDrop old q else s
  let s2 := if is && (!was || moved) then s1.setStrm q { s1.strm q with next := s1.strmNext q } else s1
  let s3 := if is && !was then (s2.put (F.STM_Q_SEQ_SEQ q) 0).setStrm q { s2.strm q with marker := none } else s2
  if is then s3.showStrm q else s3

/-- Streams and ports after an applied commit: a port that is no longer enabled, or no longer a port, loses its link. -/
def State.stmCommit (s : State) (old : RegTab) : State :=
  let s1 := ((streamsIn old ++ streamsIn s.regs).dedup).foldl (fun t q => t.strmCommit old q) s
  (List.range 128).foldl (fun t p =>
    if t.flag (F.STM_PORT_CTRL_EN p) ∧ isPort t.regs p ∧ lanesIn old (p / 16) = lanesIn t.regs (p / 16) then t else t.linkDown p) s1

/-! ### Time, events, display, store -/

/-- PTP ports after an applied commit (R275, R278). -/
def State.ptpCommit (s : State) (old : RegTab) : State :=
  let all := changedIn old s.regs R.TIME_PTP_CTRL (R.TIME_PTP_INTV + 4)
  let s1 := (List.range 128).foldl (fun t p =>
    let is := isPtpPort t.regs p
    if is && (all || !isPtpPort old p) then (t.put (F.TIME_PTP_PORT_STATE p) 1).setPtpPort p PtpPort.init
    else if !is && t.get (F.TIME_PTP_PORT_STATE p) != 0 then t.put (F.TIME_PTP_PORT_STATE p) 0
    else t) s
  s1.servoPorts

/-- A stamp ring that a commit moves or resizes starts empty (log entry 40). -/
def State.evtCommit (s : State) : State :=
  (List.range 8).foldl (fun t k =>
    let w := t.word (R.EVT_IN_RING k)
    if (t.ev k).ringGeom = w then t
    else t.setEv k { t.ev k with ringIdx := 4, ringFull := false, ringGeom := w }) s

/-- The tally ring after an applied commit (log entry 40). -/
def State.tallyCommit (s : State) : State :=
  let geom := (s.get F.TAL_RING_BASE_PAGE, s.get F.TAL_RING_SIZE_PAGES)
  if s.tallyGeom = geom then s
  else { s.put F.TAL_RING_LAST_EMPTY 1 with
    tallyGeom := geom
    tallyPage := 0
    frames := [] }

/-- A frame field's word: DISP_CTRL (CHROMA, UNDER), plot, background, layers, luma, thresholds (R243). -/
def isFrameWord (off : Nat) : Bool :=
  off == R.DISP_CTRL || (decide (R.DISP_PLOT_POS ≤ off) && decide (off < R.DISP_EVT)) || off == R.DISP_WATCH

/-- The bits of a frame word that are frame fields: of DISP_CTRL only CHROMA and UNDER. -/
def frameBits (off : Nat) : Nat := if off = R.DISP_CTRL then 0x1800 else 0xFFFFFFFF

/-- The display frame words in which a new set differs from another, or that some list holds. -/
def frameWords (old new : RegTab) (pend : List (RegTab × Nat)) : RegTab :=
  new.filter (fun p => isFrameWord p.1 && (pend.any (fun q => q.1.any (fun x => x.1 == p.1))
    || decide (mixWord (frameBits p.1) 0 (old.word p.1) ≠ mixWord (frameBits p.1) 0 p.2)))

/-- The set in force as it will be once every waiting frame field has taken effect. -/
def afterPend (old : RegTab) (pend : List (RegTab × Nat)) : RegTab :=
  pend.foldl (fun (r : RegTab) q => q.1.foldl (fun (u : RegTab) (p : Nat × Word) =>
    Tab.set u p.1 (mixWord (frameBits p.1) (u.word p.1) p.2)) r) old

/-- A register set whose waiting display frame words are those of another. -/
def holdFrame (old new words : RegTab) : RegTab :=
  words.foldl (fun (r : RegTab) (p : Nat × Word) =>
    Tab.set r p.1 (mixWord (frameBits p.1) p.2 (old.word p.1))) new

/-- The timing generator runs on under a new set: frame fields wait for VBLANK_START (R243, R244). -/
def State.dispRuns (s : State) (old new : RegTab) : Bool := old.bit F.DISP_CTRL_EN || (s.disp.stopNext && !new.bit F.DISP_CTRL_EN)

/-- The display after an applied commit (R243, R244): while the timing generator runs on, changed frame words wait for VBLANK_START.
Setting EN while a stop still waits stops at once and starts anew. -/
def State.dispCommit (s : State) (old : RegTab) (runs : Bool) (words : RegTab) : State :=
  let was := old.bit F.DISP_CTRL_EN
  let is := s.flag F.DISP_CTRL_EN
  let vact := s.get F.DISP_V_VACT
  let line := s.disp.line
  let late := decide (vact ≤ line + 8) && decide (line < vact)
  let s1 : State := if runs && words != [] then
      (let t := s.setF F.DISP_STATUS_DISP_PENDING
       let u := if late then t.setF F.DISP_STATUS_DISP_LATE else t
       { u with disp := { u.disp with pend := u.disp.pend ++ [(words, if late then 1 else 0)] } })
    else if runs then s
    else { s.clrF F.DISP_STATUS_DISP_PENDING with disp := { s.disp with pend := [] } }
  let s2 : State := if is && !was then
      (let t := if s1.disp.stopNext then s1.rasterStop else s1
       { t with disp := { t.disp with line := 0, stopNext := false, crc := 4294967295, even := [] } })
    else if was && !is then { s1 with disp := { s1.disp with stopNext := true } }
    else s1
  s2.put F.DISP_BFRAME_BYTES (bFrame s2.regs)

/-- Store figures of the set now active (R155, R168). -/
def State.stoCommit (s : State) (d : Demand) (w : Nat) : State :=
  (((s.put F.STO_CTICK_BYTES d.ct).put F.STO_BUDGET_BYTES (92 * d.ct / 100)).put F.STO_DEMAND_BYTES w).put F.STO_ACQ_DEMAND_BYTES d.acq

/-! ### The applied commit -/

/-- A new schedule period counts from the commit's boundary (R326, log entry 77). -/
def State.schedFrom (s : State) (old : RegTab) (b : Nat) : State :=
  if old.fld F.CAL_SCHED_PERIOD = s.get F.CAL_SCHED_PERIOD then s else { s with cal := { s.cal with schedAt := b } }

/-- How far back a register set can still be needed: for words on their way, and for records not closed. -/
def State.histKeep (s : State) (old n : RegTab) (b : Nat) : Nat :=
  let late := (List.range 16).foldl (fun m g => max m (max (lDec old g) (lDec n g))) 0
  let first := s.grps.foldl (fun (m : Nat) (p : Nat × Grp) => p.2.spans.foldl (fun x r => min x r.dec) m) b
  max (4096 + late) (b - first)

/-- The engines after the new set n becomes active at boundary b. -/
def State.activate (s : State) (b inHigh : Nat) (n : RegTab) (d : Demand) (w : Nat) : State :=
  let old := s.regs
  let loop := s.loopRegs
  let runs := s.dispRuns old n
  let fresh := if runs then frameWords (afterPend old s.disp.pend) n [] else []
  let wait := if runs then frameWords old n s.disp.pend else []
  let s1 : State := { s with
    regs := holdFrame old n wait
    hist := histPush b (s.histKeep old n b) old s.hist
    shadow := wait
    clk := { s.clk with hand := [] } }
  let s2 := (s1.stoCommit d w).clkCommit b loop
  let s3 := ((s2.schedFrom old b).putB F.GLOBAL_STATE_HOST_POLICY (s2.flag F.CFG_POLICY_HOST_POLICY)).put F.SVC_EXC_TOTAL_SUM (excTotal s2.regs)
  let s4 := (List.range 24).foldl (fun t k => t.putB (F.CONV_CH_STATUS_PAIRED (2 * k + 1)) (paired t.regs (2 * k))) s3
  let s5 := (List.range 48).foldl (fun t c => t.chainCommit old b c) ((s4.rotStart b).srcCommit old b inHigh)
  let s6 := (List.range 16).foldl (fun t g => t.grpCommit old b g) s5
  ((((((s6.showSrc.tallyCommit).evtCommit).stmCommit old).ptpCommit old).dispCommit old runs fresh))

/-! ### Requests (R356) -/

/-- The first boundary that satisfies TICK for a request in core cycle a. -/
def tickDue (a : Nat) : Nat := boundaryAt (a + 64)

/-- A commit is pending from core cycle a on (R356, R357). -/
def State.request (s : State) (kind grp a due target : Nat) (origin : Origin) : State :=
  { s.setF F.GLOBAL_STATE_SHADOW_PENDING with commit := some ⟨kind, grp, a, due, target, 0, origin⟩ }

/-- A host's request: ignored while one is pending, or of kind 3 (R356, R357). -/
def State.hostRequest (s0 : State) (kind grp a : Nat) : State :=
  let s := s0.at_ a
  if s.commit.isSome ∨ 3 ≤ kind then s.setF F.CFG_STATUS_REQ_IGNORED
  else
    let first := tickDue a
    let t := s.getN R.CFG_AT_LCNT 2
    s.request kind grp a (if kind = 2 then max first (boundaryAt t) else first) t .host

/-- A record boundary of group g (R356): of the spans decided by then. A group that stops at b is not armed (R358). -/
def State.recBoundary (s : State) (g b : Nat) : Bool :=
  let gr := s.grp g
  !gr.armed || s.stopDue g b || !(gr.closing ++ gr.cur.toList).any (fun r => decide (r.s < b) && decide (b ≤ r.e))

/-! ### Outcomes (R359, R360) -/

/-- CFG_RESULT of a commit. -/
def State.result (s : State) (outcome : Nat) (codes : List Nat) : State :=
  (((s.put F.CFG_RESULT_OUTCOME outcome).put F.CFG_RESULT_NFAIL codes.length).put F.CFG_RESULT_REASON (codes.headD 0)).putN
    R.CFG_REASONS 2 (maskOf codes)

/-- The request ends: nothing is pending, and an outcome is signalled. -/
def State.settleReq (s : State) : State :=
  let s1 : State := { s.clrF F.GLOBAL_STATE_SHADOW_PENDING with commit := none }
  if s1.flag F.CFG_VEC_EN then s1.signal 0 (s1.get F.CFG_VEC_VEC) else s1

/-- What an applied commit shows (R359, R51). -/
def State.applied (s : State) (b kind w : Nat) (left : List Nat) : State :=
  let s1 := (s.incWrap F.CFG_SEQ_COUNT).putN R.CFG_APPLY_LCNT 2 (b % 2 ^ 64)
  let s2 := left.foldl (fun t n => t.post b 0x0205 (t.locusCh n 255) 0) s1
  ((s2.post b 0x0F01 s2.locusHub (s1.get F.CFG_SEQ_COUNT + kind * 2 ^ 32 + w * 2 ^ 40)).result 1 []).settleReq

/-- What a refused commit shows (R359, R360). -/
def State.refused (s : State) (b w : Nat) (codes : List Nat) : State :=
  ((s.post b 0x0F02 s.locusHub (maskOf codes + w * 2 ^ 64)).result 2 codes).settleReq

/-- The flags that say when a commit was decided (R356). -/
def State.commitFlags (s : State) (c : Commit) (forced : Bool) : State :=
  let s1 := if tickDue c.a = boundaryAfter c.a then s else s.setF F.CFG_STATUS_CFG_LATE
  let s2 := if forced then s1.setF F.CFG_STATUS_REC_FORCED else s1
  if c.kind = 2 ∧ c.at_ < tickDue c.a then s2.setF F.CFG_STATUS_AT_MISSED else s2

/-- An image's BUDGET section is compared with the device's own sums (R364). -/
def State.budgetDiff (s : State) (b : Nat) (img : Option Image) (d : Demand) (w : Nat) : State :=
  match img.bind (fun i => i.budget) with
  | some x =>
    if x = (d.w, d.acq) then s
    else (s.setF F.CFG_STATUS_BUDGET_DIFF).post b 0x0F06 s.locusHub (w + x.1 * 2 ^ 32)
  | none => s

end Sys2Proof.Machine
end

