-- ==== Sys2Proof/Machine/RegWrite.lean ====
section
/-! DEFINITION. What a written register word does: its RW bits in force at once, its RWS bits in the shadow set (R6, R355,
R393). The host's access (RegAccess.lean) and an image's records (Image.lean) both end here. -/

namespace Sys2Proof.Machine

/-- WAKE_N is released (R369). -/
def State.wakeRelease (s : State) : State :=
  if s.flag F.GLOBAL_WAKE_CTRL_ASSERTED then (s.clrF F.GLOBAL_WAKE_CTRL_ASSERTED).emit (.pin 1 true) else s

/-- DMA_QC_CTRL of queue q: BIND, GROUP and MEAS change only in IDLE (R210). -/
def State.qcCtrl (s : State) (q : Nat) (v : Word) : State :=
  let idle := s.get (F.DMA_QC_STATUS_STATE q) == 0
  let was := (s.flag (F.DMA_QC_CTRL_BIND q), s.get (F.DMA_QC_CTRL_GROUP q))
  let mask := if idle then 0x7CF007FF else 0x700007FF
  let s1 : State := { s with regs := Tab.set s.regs (R.DMA_QC_CTRL q) (mixWord mask (s.word (R.DMA_QC_CTRL q)) v) }
  let now := (s1.flag (F.DMA_QC_CTRL_BIND q), s1.get (F.DMA_QC_CTRL_GROUP q))
  if was = now then s1
  else
    let s2 := if was.1 then s1.unbindQ q was.2 else s1
    if now.1 then s2.bindQ q now.2 else s2

/-- A word's RW bits take effect at once (R6); a write arrives in core cycle a. TIME_STAGE takes none while a change is staged (R285). -/
def State.rwWord (s : State) (a off : Nat) (v : Word) : State :=
  let m := (masksAt off).rw
  if m = 0 ∨ portHere s.regs off = false then s
  else if 0x300000 ≤ off ∧ off < 0x330000 ∧ off % 0x1000 = 0x14 then
    s.freezeWrite a ((off - 0x300000) / 0x1000) (v.toNat % 2 == 1)
  else if R.TIME_STAGE ≤ off ∧ off < R.TIME_STAGE_CMD ∧ s.flag F.TIME_STATUS_STAGE_PENDING then s
  else if 0xA00000 ≤ off ∧ off < 0xC00000 ∧ off % 0x800 = 0 then s.qcCtrl ((off - 0xA00000) / 0x800) v
  else
    let s1 : State := { s with regs := Tab.set s.regs off (mixWord m (s.word off) v) }
    if off = R.TIME_CTRL then (if s1.flag F.TIME_CTRL_ACCEPT_STEP then s1.acceptStep else s1)
    else if off = R.GLOBAL_WAKE_CTRL then (if s1.flag F.GLOBAL_WAKE_CTRL_EN then s1 else s1.wakeRelease)
    else s1

/-- The classes a LOG_CLASS word may take: sixteen fields, the code of the first (R393). -/
def classMix (code : Nat) (old v : Nat) : Nat → Nat
  | 0 => 0
  | n + 1 =>
    let x := v % 4
    let f := if logResetClass code = 3 then 3 else if x = 3 then old % 4 else x
    f + 4 * classMix (code + 1) (old / 4) (v / 4) n

/-- The value that a write puts into an RWS word: LOG_CLASS keeps FATAL where it stands and takes it nowhere else (R393). -/
def rwsValue (off : Nat) (old v : Word) : Word :=
  if 0xF01000 ≤ off ∧ off < 0xF05000 then
    BitVec.ofNat 32 (classMix (0x100 * ((off - 0xF01000) / 0x40) + 16 * ((off - 0xF01000) % 0x40 / 4)) old.toNat v.toNat 16)
  else v

/-- A word's RWS bits enter the shadow set (R6, R355). -/
def State.rwsWord (s : State) (off : Nat) (v : Word) : State :=
  let m := (masksAt off).rws
  if m = 0 ∨ portHere s.stagedModes off = false then s
  else
    let old := s.shadowWord off
    { s with shadow := Tab.set s.shadow off (mixWord m old (rwsValue off old v)) }

end Sys2Proof.Machine
end

