-- ==== Sys2Proof/Machine/Image.lean ====
section
/-! DEFINITION. The image and its loader, the boundary that decides a commit, arming by an image, the flash (spec/16). -/

namespace Sys2Proof.Machine

/-! ### Reading an image (R348-R351) -/

/-- A register word that an image may write: one with RW or RWS bits (R350). -/
def imageWrites (off : Nat) : Bool :=
  match wordAt off with
  | some w => w.rw != 0 || w.rws != 0
  | none => false

/-- The write records of a REGS section: the words left in it, from byte o on (R350); none for an invalid section. -/
def parseRecords (rd : Nat → Byte) : Nat → Nat → Nat → Option (List (Nat × List Nat))
  | _, 0, _ => some []
  | 0, _, _ => none
  | fuel + 1, left + 1, o =>
    let h := rdN rd o 4
    let cnt := h / 16777216 + 1
    let off := h % 16777216
    if left < cnt ∨ !(List.range cnt).all (fun i => imageWrites (off + 4 * i)) then none
    else (parseRecords rd fuel (left - cnt) (o + 4 + 4 * cnt)).map (fun l =>
      (off, (List.range cnt).map (fun i => rdN rd (o + 4 + 4 * i) 4)) :: l)

/-- A section's part of the image (Table 16.3); none when it makes the image invalid. `ident`: an IDENT came before. -/
def parseSection (rd : Nat → Byte) (o typ flags len : Nat) (ident : Bool) (img : Image) : Option (Image × Bool) :=
  match typ with
  | 1 => if len = 36 ∧ ident = false then some ({ img with node := rdN rd o 1 }, true) else none
  | 2 => if 4 ≤ len ∧ len ≤ 4194304 then
      (parseRecords rd (len / 4) (len / 4) o).map (fun l => ({ img with writes := img.writes ++ l }, ident)) else none
  | 3 => if len = 8 ∧ img.arm = none ∧ rdN rd (o + 2) 1 ≤ 2 then
      some ({ img with arm := some (rdN rd o 2, rdN rd (o + 2) 1, rdN rd (o + 4) 4) }, ident) else none
  | 4 => if len = 16 ∧ img.budget = none then
      some ({ img with budget := some (rdN rd o 4, rdN rd (o + 4) 4) }, ident) else none
  | _ => if flags % 2 = 1 then some (img, ident) else none

/-- The sections left, from the end `o` of the one before (R349). -/
def parseSections (rd : Nat → Byte) (len : Nat) : Nat → Nat → Bool → Image → Option Image
  | 0, o, _, img => if o = len then some img else none
  | n + 1, o, ident, img =>
    let h := roundUp o 16
    let l := rdN rd (h + 4) 4
    if len < h + 16 ∨ l % 4 ≠ 0 ∨ len < h + 16 + l ∨ rdN rd (h + 12) 4 ≠ crc32c (rdBytes rd (h + 16) l) then none
    else (parseSection rd (h + 16) (rdN rd h 2) (rdN rd (h + 2) 2) l ident img).bind (fun r =>
      parseSections rd len n (h + 16 + l) r.2 r.1)

/-- The image that a reader holds, when it is valid for a stepping (R351). -/
def parseImage (rd : Nat → Byte) (stepping : Nat) : Option Image :=
  let cnt := rdN rd 6 2
  let len := rdN rd 0x10 4
  if rdN rd 0 4 = 0x53494D47 ∧ rdN rd 4 2 = 1 ∧ 1 ≤ cnt ∧ cnt ≤ 1024 ∧ rdN rd 0x0C 2 = 0x4832 ∧ rdN rd 0x0E 1 ≤ stepping
      ∧ 0x40 ≤ len ∧ len ≤ 4194304 then
    (if rdN rd 0x3C 4 = crc32c (rdBytes rd 0 0x3C) ∧ rdN rd 0x14 4 = crc32c (rdBytes rd 0x40 (len - 0x40)) then
      parseSections rd len cnt 0x40 false ⟨rdN rd 8 4, rdN rd 0x0F 1, 0, [], none, none, cnt⟩
    else none)
  else none

/-- The image in flash slot A (0) or B (1) (Table 16.1); a part without SFDP, or too small, has none (R346). -/
def State.slotImage (s : State) (slot : Nat) : Option Image :=
  if s.loader.part then parseImage (fun i => Mem.read 0xFF s.flash (0x400000 * slot + i)) (s.get F.GLOBAL_ID_STEPPING) else none

/-! ### Loading (R350, R352, R363) -/

/-- The shadow set at reset values. -/
def State.shadowReset (s : State) : State :=
  { s with shadow := (s.regs.filter (fun p => (masksAt p.1).rws != 0)).map (fun p => (p.1, resetWord p.1)) }

/-- One word of a write record; RW bits act only at start-up. -/
def State.loadWord (s : State) (rw : Bool) (off v : Nat) : State :=
  let w := BitVec.ofNat 32 v
  (if rw then s.rwWord s.lcnt off w else s).rwsWord off w

/-- The words of a record, from an offset on. -/
def State.loadWords (s : State) (rw : Bool) (off : Nat) : List Nat → State
  | [] => s
  | v :: vs => (s.loadWord rw off v).loadWords rw (off + 4) vs

/-- A record that a RELOAD skips, at least in part (R363). -/
def rwRecord (p : Nat × List Nat) : Bool := (List.range p.2.length).any (fun i => (masksAt (p.1 + 4 * i)).rw != 0)

/-- The shadow set becomes reset values with an image's writes. -/
def State.loadWrites (s : State) (rw : Bool) (img : Image) : State :=
  img.writes.foldl (fun (t : State) (p : Nat × List Nat) => t.loadWords rw p.1 p.2) s.shadowReset

/-- The causes of a cold reset (Table 17.2). -/
def coldCause (c : Nat) : Bool := [1, 2, 3, 5, 8].contains c

/-- The loader puts the sections of slot k's image in place (R352, step 3; R353); the node number changes only after a cold
reset (R363). -/
def State.loadSlot (s : State) (k : Nat) (img : Image) : State :=
  let s1 := (if coldCause (s.get F.GLOBAL_RESET_CAUSE_CAUSE) then s.put F.GLOBAL_STATE_NODE img.node else s).loadWrites true img
  { s1 with loader := { s1.loader with slot := some k, img := some img, tried := k :: s1.loader.tried } }

/-- PHASE changes; WAKE_N is released when it reaches 0x2 (R369). -/
def State.setPhase (s : State) (p : Nat) : State :=
  let s1 := s.put F.GLOBAL_STATE_PHASE p
  if p = 2 then s1.wakeRelease else s1

/-- The loader's slot (R352, step 2). -/
def chooseSlot (a b : Option Image) : Option (Nat × Image) :=
  match a, b with
  | some x, some y => if seqNewer y.seq x.seq then some (1, y) else some (0, x)
  | some x, none => some (0, x)
  | none, some y => some (1, y)
  | none, none => none

/-- The loop works with the CLK words handed over (R377); after a warm reset it goes on when they ask for the same rate. -/
def State.handClk (s : State) : State :=
  let old := s.loopRegs
  let n := s.named
  let s1 : State := { s with clk := { s.clk with hand := n.filter (fun p => decide (0x200000 ≤ p.1) && decide (p.1 < 0x200400)) } }
  if s1.get F.CLK_STATUS_LOOP ≠ 0 ∧ clkChange old s1.loopRegs then ((s1.setLoop 0).openPllGap (boundaryAt s.lcnt)).leaveWait
  else s1.leaveWait

/-- IMAGE_LOAD: both slots and both calibration copies are read (R346, R352, R377), once no reset is held any more (R370,
R379). -/
def execImageLoad (sfdpOk errA errB otpOk : Bool) (s : State) : Host.Outcome State Fault Refusal :=
  .next (if s.cfgReady ∨ s.pwr.coreLoss ∨ s.pwr.thermalHold then s
    else
      let t : State := { s with loader := { Loader.init with part := sfdpOk } }
      let a := if errA then none else t.slotImage 0
      let b := if errB then none else t.slotImage 1
      let s0 : State := { t with loader := { t.loader with imgA := a, imgB := b } }
      let s1 := ((s0.loadCal otpOk).clrF F.CFG_STATUS_LOADING).setPhase 1
      let s2 : State := { s1 with cfgReady := true }
      match chooseSlot a b with
      | some (k, img) =>
        ((s2.loadSlot k img).post s.lcnt 0x0F03 s.locusHub (k + img.seq * 2 ^ 8 + img.secs * 2 ^ 40)).handClk
      | none => s2.handClk)

/-! ### Arming by an image (R354) -/

/-- Groups of the ARM section arm when their wait is over at boundary b (R354). -/
def State.armSection (s : State) (b : Nat) : State :=
  match s.armPlan with
  | none => s
  | some p =>
    let locked := s.get F.TIME_STATUS_SERVO == 2
    if p.wait = 0 ∨ locked ∨ (p.wait = 1 ∧ p.deadline ≤ b) then
      (let s1 := if p.wait = 1 ∧ locked = false then s.post b 0x0F05 s.locusHub 0 else s
       (bitsSet 16 p.mask).foldl (fun t g =>
         if (t.grp g).armed then t else (t.setGrp g { t.grp g with armReq := some (b - 1) }).armApply g b) { s1 with armPlan := none })
    else s

/-- An applied commit's ARM section: its waits count from that boundary, the first at which they can be over. -/
def State.planArms (s : State) (b : Nat) (img : Image) : State :=
  match img.arm with
  | none => { s with armPlan := none }
  | some (mask, wait, ticks) =>
    ({ s with armPlan := some ⟨mask, wait, b + ticks * tickLen⟩ } : State).armSection b

/-- ARM_SECTION_ARMING (R354). -/
def execArmSectionArming (s : State) : Host.Outcome State Fault Refusal :=
  let b := boundaryAt s.lcnt
  .next (if s.armPlan.isSome then (s.at_ b).armSection b else s)

/-! ### The decision (R358) -/

/-- What an image's applied commit adds (R352, R363). -/
def State.imageApplied (s : State) (b : Nat) (slot : Nat) (img : Image) (phase : Nat) : State :=
  let s1 := (((s.put F.GLOBAL_STATE_IMAGE_SLOT slot).setF F.GLOBAL_STATE_IMAGE_VALID).put F.CFG_IMAGE_SEQ img.seq).setPhase phase
  s1.planArms b img

/-- After a refusal the loader falls back to the other slot, or halts (R352, steps 5 and 6). -/
def State.fallback (s : State) : State :=
  let l := s.loader
  let next := [(0, l.imgA), (1, l.imgB)].find? (fun p => p.2.isSome && !l.tried.contains p.1)
  match next with
  | some (k, some img) =>
    let s1 := (s.post s.lcnt 0x0F04 s.locusHub 0).loadSlot k img
    { s1 with loader := { s1.loader with waiting := true } }
  | _ => s.setPhase 4

/-- The image whose commit is decided. -/
def State.commitImage (s : State) (c : Commit) : Option Image :=
  match c.origin with
  | .host => none
  | .loader => s.loader.img
  | .reload _ img => some img

/-- The commit c is decided at boundary b: every check is made on the frozen set, and it is applied or refused whole (R358). -/
def State.decideCommit (s : State) (b inHigh : Nat) (c : Commit) (forced : Bool) : State :=
  let s0 := (List.range 16).foldl (fun t g => (t.resetStop b g).stopNow b g) s
  let back := (List.range 16).filter (fun g => s.stopDue g b && (s0.grp g).armReq == some (b - 1))
  let named := s0.named
  let n := leaveOut named s0.fenceMask
  let dm := s0.demand n
  let w := dm.2.wShown dm.1
  let codes := s0.failing b named n dm.1
  let img := s.commitImage c
  let done := fun (t : State) => (((t.put F.STO_SHADOW_DEMAND_BYTES w.1).commitFlags c forced).budgetDiff b img dm.1 w.1)
  let arm := fun (t : State) => back.foldl (fun u g => u.armApply g b) t
  if codes = [] then
    (let t := arm ((done (w.2.activate b inHigh n dm.1 w.1)).applied b c.kind w.1 (omitted named s0.fenceMask))
     match c.origin, img with
     | .loader, some i => t.imageApplied b (s.loader.slot.getD 0) i 2
     | .reload k i, _ => t.imageApplied b k i (if t.get F.GLOBAL_STATE_PHASE = 4 then 2 else t.get F.GLOBAL_STATE_PHASE)
     | _, _ => t)
  else
    let t := arm ((done w.2).refused b w.1 codes)
    if c.origin = .loader then t.fallback else t

/-- A pending commit at boundary b: decided there, or held for a record boundary (R356). -/
def State.commitAtB (s : State) (b inHigh : Nat) : State :=
  match s.commit with
  | none => s
  | some c =>
    if b < c.due then s
    else
      let free := c.kind != 1 || s.recBoundary c.grp b
      if free ∨ s.get F.CFG_REC_MAX_TICKS ≤ c.waited then s.decideCommit b inHigh c (!free)
      else { s with commit := some { c with waited := c.waited + 1, due := b + tickLen } }

/-- COMMIT_APPLY: the pending commit's boundary (R356, R358). -/
def execCommitApply (inHigh : Nat) (s : State) : Host.Outcome State Fault Refusal :=
  .next (match s.commit with
    | none => s
    | some c => (s.at_ c.due).commitAtB c.due inHigh)

/-! ### Requests and commands (R352, R355-R357, R363) -/

/-- COMMIT_REQ_TICK: the host's request, or the loader's for a fallback image (R352, R356; log entry 43). -/
def State.reqTick (s : State) (a : Nat) : State :=
  if s.loader.waiting ∧ s.commit = none then
    (let s1 : State := { s.at_ a with loader := { s.loader with waiting := false } }
     s1.request 0 0 a (tickDue a) 0 .loader)
  else s.hostRequest 0 0 a

def execCommitReqTick (a : Nat) (s : State) : Host.Outcome State Fault Refusal := .next (s.reqTick a)

/-- COMMIT_REQ_RECORD (R356). -/
def execCommitReqRecord (a : Nat) (g : Fin 16) (s : State) : Host.Outcome State Fault Refusal := .next (s.hostRequest 1 g a)

/-- COMMIT_REQ_AT (R356). -/
def execCommitReqAt (a : Nat) (s : State) : Host.Outcome State Fault Refusal := .next (s.hostRequest 2 0 a)

/-- CFG_CMD.CANCEL in core cycle a (R357). -/
def State.cancel (s0 : State) (a : Nat) : State :=
  let s := s0.at_ a
  match s.commit with
  | none => s
  | some c =>
    if a + 64 ≤ c.due then { ((s.result 3 []).clrF F.GLOBAL_STATE_SHADOW_PENDING) with commit := none }
    else s.setF F.CFG_STATUS_CANCEL_LATE

def execCfgCancel (a : Nat) (s : State) : Host.Outcome State Fault Refusal := .next (s.cancel a)

/-- CFG_CMD.REVERT (R355); display frame fields that wait are part of the active set already. -/
def State.revert (s : State) : State :=
  if s.flag F.GLOBAL_STATE_SHADOW_PENDING then s
  else { s with shadow := s.disp.pend.foldl (fun (r : RegTab) (q : RegTab × Nat) =>
    q.1.foldl (fun (u : RegTab) (p : Nat × Word) => Tab.set u p.1 p.2) r) [] }

def execCfgRevert (s : State) : Host.Outcome State Fault Refusal := .next s.revert

/-- CFG_CMD.RELOAD of a slot in core cycle a (R363). -/
def State.reload (s0 : State) (a slot : Nat) : State :=
  let s := s0.at_ a
  if s.commit.isSome then s.setF F.CFG_STATUS_REQ_IGNORED
  else match s.slotImage slot with
    | none => s.result 4 []
    | some img =>
      let s1 := (s.loadWrites false img).addSat F.CFG_WR_IGN_CNT_COUNT (img.writes.filter rwRecord).length
      s1.request 0 0 a (tickDue a) 0 (.reload slot img)

def execCfgReload (a : Nat) (slot : Fin 2) (s : State) : Host.Outcome State Fault Refusal := .next (s.reload a slot)

/-! ### The flash (R347, R362) -/

/-- Bytes that a command covers. -/
def flashSize (op : Nat) : Nat := if op = 2 then 4096 else if op = 3 then 65536 else 256

/-- A range meets the loaded slot or a calibration copy (R362). -/
def State.flashHeld (s : State) (addr size : Nat) : Bool :=
  let lo := 0x400000 * s.get F.GLOBAL_STATE_IMAGE_SLOT
  Pages.meets (addr, size) (lo, 0x400000) || Pages.meets (addr, size) (0x800000, 0x80000)

/-- A flash command is written: denied, or queued behind those that run or wait (R362). -/
def State.flashCmd (s : State) (op : Nat) : State :=
  let size := flashSize op
  let addr := s.get F.CFG_FLASH_ADDR_ADDR / size * size
  let s1 := s.clrF F.CFG_FLASH_CTRL_UNLOCK
  if s.flashHeld addr size ∧ s.flag F.CFG_FLASH_CTRL_UNLOCK = false then s1.setF F.CFG_FLASH_STATUS_DENIED
  else { (s1.setF F.CFG_FLASH_STATUS_BUSY) with
    flashOps := s.flashOps ++ [⟨op, addr, (List.range 64).flatMap (fun i => leBytes 4 (s.get (F.CFG_FLASH_BUF_DATA i)))⟩] }

def execFlashRead (s : State) : Host.Outcome State Fault Refusal := .next (s.flashCmd 0)
def execFlashProgram (s : State) : Host.Outcome State Fault Refusal := .next (s.flashCmd 1)
def execFlashErase4k (s : State) : Host.Outcome State Fault Refusal := .next (s.flashCmd 2)
def execFlashErase64k (s : State) : Host.Outcome State Fault Refusal := .next (s.flashCmd 3)

/-- What a command that completes does to the flash or the buffer; a failed program or erase leaves open bytes. -/
def State.flashDo (s : State) (o : FlashOp) (ok : Bool) : State :=
  let n := flashSize o.op
  if o.op = 0 then
    (List.range 64).foldl (fun t i =>
      t.put (F.CFG_FLASH_BUF_DATA i) (leValue (Mem.readBytes 0xFF s.flash (o.addr + 4 * i) 4))) s
  else if ok then
    { s with
      flash := Mem.writeBytes 0xFF s.flash o.addr
        (if o.op = 1 then (o.buf.zip (Mem.readBytes 0xFF s.flash o.addr n)).map (fun p => p.1 &&& p.2) else List.replicate n 0xFF#8) }
  else
    let d := s.drawBytes n
    { (d.2.setF F.CFG_FLASH_STATUS_ERR) with flash := Mem.writeBytes 0xFF d.2.flash o.addr d.1 }

/-- FLASH_COMMAND_DONE (R362): a command waits for a save that is being written; a save that fell due starts now. -/
def execFlashCommandDone (ok : Bool) (s : State) : Host.Outcome State Fault Refusal :=
  .next (match s.flashOps, s.cal.saving with
    | o :: rest, none =>
      let s1 := s.flashDo o ok
      let s2 : State := { s1 with flashOps := rest }
      if rest = [] then
        (let s3 := s2.clrF F.CFG_FLASH_STATUS_BUSY
         if s3.cal.saveDue then s3.startSave else s3)
      else s2
    | _, _ => s)

end Sys2Proof.Machine
end

