-- ==== Sys2Proof/Machine/Twin.lean ====
section
/-! DEFINITION. Twin pairing (spec/18): the mirror link, heartbeats, roles, takeover and handover; the log's commands. -/

namespace Sys2Proof.Machine

/-! ### The mirror link (R381-R384) -/

/-- A received 1024-byte frame carries the sync word; it passes its CRC (Table 18.1). -/
def frameSync (f : List Byte) : Bool := f.length == 1024 && leValue (f.take 8) == 0xC3A596E10F78B42D
def frameCrc (f : List Byte) : Bool := f.length == 1024 && leValue (f.drop 1020) == crc32c (f.take 1020)

/-- A frame of a type with its payload (Table 18.1). The frame counter counts the IDLE frames between too, which no command
shows: it is free (log entry 92). -/
def State.mirror (s : State) (typ : Nat) (payload : List Byte) : State :=
  let d := s.draw 8
  let body := packLE [(8, 0xC3A596E10F78B42D), (1, typ), (1, d.1), (2, payload.length), (4, 0)] ++ payload
    ++ List.replicate (1004 - payload.length) 0
  d.2.emit (.mirror (body ++ leBytes 4 (crc32c body)))

/-- The link loses its alignment (R382). -/
def State.linkLost (s : State) : State :=
  let s1 : State := { s.clrF F.TWIN_STATUS_ALIGNED with twin := { s.twin with good := 0, bad := 0, fresh := false, differ := false } }
  (s1.clrF F.GLOBAL_STATE_TWIN_PAIRED).post s.lcnt 0x1102 s.locusPkg 0

/-- MIRROR_FRAME_RX: a frame where the receiver looks for one (R382). What its payload does is in the typed rows. -/
def execMirrorFrameRx (frame : List (BitVec 8)) (s : State) : Host.Outcome State Fault Refusal :=
  let ok := frameSync frame && frameCrc frame
  .next (if s.flag F.TWIN_CTRL_EN = false then s
    else if s.flag F.TWIN_STATUS_ALIGNED then
      (if ok then { s with twin := { s.twin with bad := 0 } }
       else
         let s1 := if frameCrc frame then s else s.incSat F.TWIN_CRC_ERR_CNT_COUNT
         if s.twin.bad + 1 < 4 then { s1 with twin := { s1.twin with bad := s.twin.bad + 1 } } else s1.linkLost)
    else if ok = false then { s with twin := { s.twin with good := 0 } }
    else if s.twin.good + 1 < 4 then { s with twin := { s.twin with good := s.twin.good + 1 } }
    else { s.setF F.TWIN_STATUS_ALIGNED with twin := { s.twin with good := 0, bad := 0, fresh := true, hbSince := false, echoAt := s.lcnt } })

/-- The peer's state is shown (TWIN_PEER). -/
def State.showPeer (s : State) (p : PeerState) : State :=
  (((s.put F.TWIN_PEER_NODE p.node).put F.TWIN_PEER_ROLE p.role).put F.TWIN_PEER_PHASE p.phase).put F.TWIN_PEER_FLAGS p.flags

/-- A frame with the peer's state arrives in core cycle a over an aligned link. -/
def State.peerRx (s : State) (a : Nat) (p : PeerState) : State :=
  let s1 := (s.at_ a).showPeer p
  { s1 with twin := { s1.twin with peer := some p, peerAt := a } }

/-- The link is in use. -/
def State.linkOn (s : State) : Bool := s.flag F.TWIN_CTRL_EN && s.flag F.TWIN_STATUS_ALIGNED

/-- HEARTBEAT_RX (R383). -/
def execHeartbeatRx (a : Nat) (p : PeerState) (s : State) : Host.Outcome State Fault Refusal :=
  .next (if s.linkOn then
      (let s1 := (s.peerRx a p).setF F.GLOBAL_STATE_TWIN_PAIRED
       { s1 with twin := { s1.twin with hbSince := true } })
    else s)

/-- HANDOVER_RX (R387): a standby takes over at the next boundary. -/
def execHandoverRx (a : Nat) (p : PeerState) (s : State) : Host.Outcome State Fault Refusal :=
  .next (if s.linkOn then
      (let s1 := s.peerRx a p
       { s1 with twin := { s1.twin with handoverRx := s1.get F.TWIN_STATUS_ROLE == 2 } })
    else s)

/-- ECHO_DUE (R384): on gaining alignment and every 2^20 ticks after that; the frame carries the LCNT of its transmission. -/
def execEchoDue (s : State) : Host.Outcome State Fault Refusal :=
  .next (if s.linkOn then
      (let s1 := s.at_ s.twin.echoAt
       ({ s1 with twin := { s1.twin with echoAt := s.twin.echoAt + 2 ^ 20 * tickLen } } : State).mirror 4 (leBytes 8 s1.lcnt))
    else s)

/-- ECHO_RX (R384): the answer carries the value and this package's turnaround, which is physical and free. -/
def execEchoRx (a sent : Nat) (s : State) : Host.Outcome State Fault Refusal :=
  .next (if s.linkOn then
      (let d := (s.at_ a).draw 64
       d.2.mirror 5 (leBytes 8 sent ++ leBytes 8 d.1))
    else s)

/-- ECHO_REPLY_RX (R384). -/
def execEchoReplyRx (a sent turn : Nat) (s : State) : Host.Outcome State Fault Refusal :=
  .next (if s.linkOn then (s.at_ a).put F.TWIN_LINK_DELAY_CYCLES (min ((a - sent - turn) / 2) 0xFFFFFFFF) else s)

/-- The payload of a HEARTBEAT or HANDOVER frame at boundary b (Table 18.2). -/
def State.hbBytes (s : State) (b : Nat) : List Byte :=
  let t := s.netTime (65536 * b)
  let armed := maskOf ((List.range 16).filter (fun g => (s.grp g).armed))
  let flags := s.get F.LOG_STATUS_FATAL + 2 * s.get F.TWIN_STATUS_BY_TAKEOVER
  packLE [(8, b), (6, t.sec), (4, t.ns), (2, t.sub), (2, (s.epochAt b).num), (1, s.get F.TWIN_STATUS_ROLE),
    (1, s.get F.GLOBAL_STATE_PHASE), (4, s.get F.CFG_IMAGE_SEQ), (4, s.get F.CFG_SEQ_COUNT), (1, s.get F.GLOBAL_STATE_NODE),
    (1, flags), (2, armed), (4, 0)]
    ++ (List.range 16).flatMap (fun g => packLE [(8, s.getN (R.REC_GRP_NEXT_NUM g) 2), (8, (s.grp g).nextGap),
      (8, (s.grp g).durable), (2, rMax s.regs g), (6, 0)])

/-- The heartbeat of step 6 of R15 (R383). -/
def State.heartbeat (s : State) (b : Nat) : State := if s.flag F.TWIN_CTRL_EN then s.mirror 2 (s.hbBytes b) else s

/-! ### Roles (R385, R386, R389) -/

/-- This package wins by PREFER, then by the lower node, then by the lower TIME_PTP_ID (R385, rules 2 to 4). -/
def State.preferred (s : State) (p : PeerState) : Bool :=
  let mine := s.flag F.TWIN_CTRL_PREFER
  let node := s.get F.GLOBAL_STATE_NODE
  if mine ≠ p.prefer then mine
  else if node ≠ p.node then decide (node < p.node)
  else decide (s.getN R.TIME_PTP_ID 2 < p.ptpId)

/-- The package becomes primary: PHASE leaves 0x3. -/
def State.toPrimary (s : State) : State :=
  let s1 := s.put F.TWIN_STATUS_ROLE 1
  if s1.get F.GLOBAL_STATE_PHASE = 3 then s1.setPhase 2 else s1

/-- The package becomes standby: PHASE 0x3, and its records carry TWIN_SOURCE no longer (R386, R388). -/
def State.toStandby (s : State) : State :=
  let s1 := ((s.put F.TWIN_STATUS_ROLE 2).clrF F.TWIN_STATUS_BY_TAKEOVER).setPhase 3
  { s1 with twin := { s1.twin with source := false, misses := 0, handoverRx := false } }

/-- Every armed group stops under R92 with a = b. -/
def State.stopAll (s : State) (b : Nat) : State := (List.range 16).foldl (fun t g => t.stopWrite b g) s

/-- The peers' image sequences or CFG_SEQ differ: shown and logged when heartbeats begin to show it (R385). -/
def State.cfgDiff (s : State) (b : Nat) (p : PeerState) : State :=
  let differ := p.image != s.get F.CFG_IMAGE_SEQ || p.commits != s.get F.CFG_SEQ_COUNT
  let s1 : State := { s with twin := { s.twin with differ := differ } }
  if differ && !s.twin.differ then (s1.setF F.TWIN_STATUS_CFG_DIFF).post b 0x1105 s1.locusPkg 0 else s1

/-- The roles with a peer heard over the aligned link at boundary b (R385, R389). -/
def State.settle (s : State) (b : Nat) (p : PeerState) : State :=
  let role := s.get F.TWIN_STATUS_ROLE
  let done : State := { s with twin := { s.twin with fresh := false, yielded := s.twin.yielded && p.role != 1 } }
  if role = 1 ∧ p.role = 1 ∧ s.twin.fresh then
    (let mine := s.flag F.TWIN_STATUS_BY_TAKEOVER
     let his := bitOf p.flags 1
     let s1 := done.setF F.TWIN_STATUS_DUAL_SEEN
     if (if mine ≠ his then mine else s.preferred p) then s1
     else ((s1.stopAll b).toStandby).post b 0x1104 s1.locusPkg 0)
  else if role = 1 then done
  else if role = 2 ∧ (p.role = 1 ∨ s.twin.yielded) then done
  else if p.role = 1 ∨ s.preferred p = false then
    (if role = 2 then done else (done.toStandby).post b 0x1101 done.locusPkg 0)
  else done.toPrimary

/-- A peer that is not heard: a package acts as primary once its first commit is applied (R386). -/
def State.alone (s : State) : State :=
  if s.get F.TWIN_STATUS_ROLE = 0 ∧ s.twin.peer = none ∧ 0 < s.get F.CFG_SEQ_COUNT then s.toPrimary else s

/-- Heartbeats are counted at boundary b (R387). -/
def State.countHb (s : State) : State :=
  if s.twin.hbSince then
    { s.setF F.TWIN_STATUS_HB_OK with twin := { s.twin with hbSince := false, misses := 0 } }
  else
    let s1 := ((s.clrF F.TWIN_STATUS_HB_OK).clrF F.GLOBAL_STATE_TWIN_PAIRED).incSat F.TWIN_HB_MISS_CNT_COUNT
    { s1 with twin := { s1.twin with misses := s1.twin.misses + 1 } }

/-! ### Takeover and handover (R387, R388) -/

/-- HB_MISS; values below 2 act as 2. -/
def State.hbMiss (s : State) : Nat := max 2 (s.get F.TWIN_CTRL_HB_MISS)

/-- Arming LCNT a_g from the peer's frame (R388, steps 1 and 2). -/
def State.takeLcnt (s : State) (p : PeerState) (q : PeerGrp) : Nat :=
  ((s.twin.peerAt : Int) - s.get F.TWIN_LINK_DELAY_CYCLES + ((q.durable : Int) - p.lcnt) + 1).toNat

/-- The new primary arms group g at boundary b (R388, steps 2 to 5). -/
def State.takeGroup (s : State) (b g : Nat) (p : PeerState) (q : PeerGrp) : State :=
  if chMask s.regs g = 0 ∨ (s.grp g).armed then s
  else
    let a := s.takeLcnt p q
    let s1 := (s.setGrp g { s.grp g with nextGap := q.nextGap + 65536 }).putN (R.REC_GRP_NEXT_NUM g) 2 (q.nextRec + (s.hbMiss + 1) * q.rmax)
    let s2 := (s1.armAt g b).putN (R.TRG_GRP_ARM_LCNT g) 2 a
    ((s2.setGrp g { s2.grp g with armLcnt := a }).addLoss g ⟨6, allChans, min a b, some b⟩).gapSync g

/-- The standby takes over at boundary b for a reason: 1 heartbeat loss, 2 handover (R388). -/
def State.takeoverAt (s : State) (b reason : Nat) (p : PeerState) : State :=
  let gs := (bitsSet 16 p.armed).filterMap (fun g => (p.grps[g]?).map (fun q => (g, q)))
  let low := gs.foldl (fun m x => min m (s.takeLcnt p x.2)) (match gs with
    | x :: _ => s.takeLcnt p x.2
    | [] => 0)
  let s1 := (((s.toPrimary.setF F.TWIN_STATUS_BY_TAKEOVER).setF F.TWIN_STATUS_TAKEOVER_SEEN).putN R.TWIN_TAKEOVER_LCNT 2 b)
  let s2 : State := { s1 with twin := { s1.twin with source := true, handoverRx := false, misses := 0, yielded := false } }
  (gs.foldl (fun t x => t.takeGroup b x.1 p x.2) s2).post b 0x1103 s.locusPkg (low % 2 ^ 64 + p.armed % 2 ^ 16 * 2 ^ 64 + reason * 2 ^ 80)

/-- A takeover that is due at boundary b is made (R387). -/
def State.takeoverDue (s : State) (b : Nat) : State :=
  match s.twin.peer with
  | none => s
  | some p =>
    if s.get F.TWIN_STATUS_ROLE ≠ 2 then s
    else if s.twin.handoverRx then s.takeoverAt b 2 p
    else if s.hbMiss ≤ s.twin.misses ∧ s.flag F.TWIN_CTRL_LOSS_TAKEOVER then s.takeoverAt b 1 p
    else s

/-- A primary that is to hand over does so at boundary b (R387). -/
def State.handoverAt (s : State) (b : Nat) : State :=
  if s.twin.handoverTx ∧ s.get F.TWIN_STATUS_ROLE = 1 then
    (let s1 : State := { s.mirror 3 (s.hbBytes b) with twin := { s.twin with handoverTx := false, yielded := true } }
     ((s1.stopAll b).toStandby).post b 0x1106 s1.locusPkg 0)
  else s

/-- What pairing does at boundary b before the heartbeat. -/
def State.twinTick (s : State) (b : Nat) : State :=
  if s.flag F.TWIN_CTRL_EN = false then
    (if s.get F.TWIN_STATUS_ROLE = 0 ∧ s.flag F.TWIN_STATUS_ALIGNED = false then s
     else
       let s1 := (((s.put F.TWIN_STATUS_ROLE 0).clrF F.TWIN_STATUS_ALIGNED).clrF F.GLOBAL_STATE_TWIN_PAIRED).clrF F.TWIN_STATUS_HB_OK
       let s2 := if s1.get F.GLOBAL_STATE_PHASE = 3 then s1.setPhase 2 else s1
       { s2 with twin := { Twin.init with source := s.twin.source } })
  else
    let heard := s.twin.hbSince && s.flag F.TWIN_STATUS_ALIGNED
    let s1 := (s.countHb.handoverAt b).takeoverDue b
    match s1.twin.peer with
    | some p => if heard then (s1.settle b p).cfgDiff b p else s1
    | none => s1.alone

/-- TAKEOVER: at the boundary, when one is due (R387, R388). -/
def execTakeover (s : State) : Host.Outcome State Fault Refusal :=
  let b := boundaryAt s.lcnt
  .next ((s.at_ b).takeoverDue b)

/-- TWIN_CMD.HANDOVER: ignored unless primary and aligned (R387). -/
def State.handoverCmd (s : State) : State :=
  if s.get F.TWIN_STATUS_ROLE = 1 ∧ s.flag F.TWIN_STATUS_ALIGNED then { s with twin := { s.twin with handoverTx := true } } else s

def execHandover (s : State) : Host.Outcome State Fault Refusal := .next s.handoverCmd

/-- HANDOVER_SEND: the boundary after the command or the FATAL entry (R387). -/
def execHandoverSend (s : State) : Host.Outcome State Fault Refusal :=
  let b := boundaryAt s.lcnt
  .next ((s.at_ b).handoverAt b)

/-! ### The log's commands (R391, R395, R396) -/

/-- LOG_CMD.FIRST_CLR (R395). -/
def State.firstClear (s : State) : State := ((s.clrF F.LOG_STATUS_FIRST_VALID).put F.LOG_NEST_CNT_COUNT 0).errN

def execFirstClr (s : State) : Host.Outcome State Fault Refusal := .next s.firstClear

/-- LOG_CMD.FATAL_CLR (R396): FATAL clears while the condition that caused it has ended. -/
def State.fatalClear (s : State) : State := if s.log.fatalCond then s else (s.clrF F.LOG_STATUS_FATAL).errN

def execFatalClr (ended : Bool) (s : State) : Host.Outcome State Fault Refusal :=
  .next (if ended then ({ s with log := { s.log with fatalCond := false } } : State).fatalClear else s.fatalClear)

/-- The entry with a sequence; zero when it is overwritten or not yet written. -/
def State.logAt (s : State) (seq : Nat) : Nat :=
  match s.log.ring.find? (fun e => e.seq == seq) with
  | some e => e.val
  | none => 0

/-- A read of LOG_RD word 0: the words latched, the sequence advanced (LOG_RD). -/
def State.logRd (s : State) (fn : Nat) : Word × State :=
  let v := s.logAt (s.get F.LOG_RD_SEQ_SEQ)
  (BitVec.ofNat 32 v, (s.latchWords fn (R.LOG_RD + 4) 7 (v / 4294967296)).incWrap F.LOG_RD_SEQ_SEQ)

/-- A read of word 0 of an eight-word capture latches words 1 to 7 (R395). -/
def State.captureRd (s : State) (fn off : Nat) : Word × State :=
  let v := s.getN off 8
  (BitVec.ofNat 32 v, s.latchWords fn (off + 4) 7 (v / 4294967296))

end Sys2Proof.Machine
end

