-- ==== Sys2Proof/Machine/Power.lean ====
section
/-! DEFINITION. Power, resets and self-test (spec/17): the keeper, cold and warm resets, core loss and its rebuild, self-test
and fencing, supply episodes, thermal and group resets. -/

namespace Sys2Proof.Machine

/-! ### What a reset keeps (Table 17.3) -/

/-- Keeper registers (R367). -/
def keeperWord (off : Nat) : Bool := decide (0x108 ≤ off) && decide (off < 0x124)

/-- Ring state of a group: NEXT_NUM, OLDEST, PMAP (Table 17.3: numbers continue, rings and page maps are kept). -/
def ringWord (off : Nat) : Bool :=
  decide (0x500000 ≤ off) && decide (off < 0x501000) && [0x28, 0x2C, 0x34, 0x38].contains (off % 0x100)

/-- Registers that every warm reset keeps: keeper, rings, STO_CAP and STO_REPAIR (R156), TAL_RING_LAST. -/
def keptCore (off : Nat) : Bool :=
  keeperWord off || ringWord off || off == R.STO_CAP || (decide (0x700060 ≤ off) && decide (off < 0x700070)) || off == R.TAL_RING_LAST

/-- Registers that a warm reset with VDD_CORE held keeps: also TIME, LOG and what the running loop shows (R371, R373). -/
def keptWarm (off : Nat) : Bool :=
  keptCore off || (decide (0xC00000 ≤ off) && decide (off < 0xC80000)) || (decide (0xF00000 ≤ off) && decide (off < 0xF80000))
    || [R.CLK_STATUS, R.CLK_BAND, R.CLK_PHERR].contains off

/-- The keeper records the cause of a reset (R367). -/
def State.setCauseReg (s : State) (c : Nat) : State :=
  (s.put F.GLOBAL_RESET_CAUSE_PREV (s.get F.GLOBAL_RESET_CAUSE_CAUSE)).put F.GLOBAL_RESET_CAUSE_CAUSE c

/-- Keeper seconds now: the crystal's count is no state of the model, so it is a free value (R367). -/
def State.keepSec (s : State) : Nat × State :=
  let d := s.draw 48
  (d.1, d.2.putN R.GLOBAL_KEEP_SEC 2 d.1)

/-- A group after a reset that reinitialises REC and TRG: its ring, its records, its numbers are kept; no reader is bound, and
no trailer is still to come (log entry 50). -/
def Grp.kept (gr : Grp) : Grp :=
  { Grp.init with
    slots := gr.slots.map (fun x => { x with readers := [], relReq := false, measured := true })
    pmap := gr.pmap
    reserve := gr.reserve
    pins := gr.pins
    pastRecs := gr.pastRecs
    lastNum := gr.lastNum
    head := gr.head
    opened := gr.opened
    firstNum := gr.firstNum
    geom := gr.geom
    nextGap := gr.nextGap
    gapIdx := gr.gapIdx
    gapHeld := gr.gapHeld
    gapOvf := gr.gapOvf
    durable := gr.durable }

/-- Every pin of group g is lifted; pages outside the ring return to the reserve (R124). -/
def State.unpinAll (s : State) (g : Nat) : State :=
  ((s.grp g).pins.map (fun p => p.2)).dedup.foldl (fun t r => t.setPins g r []) s

/-- The parts of the store controller that a warm reset keeps: mapping, failed parts, spares used (R156, R172). -/
def Sto.kept (x : Sto) : Sto :=
  { Sto.init with
    fenced := x.fenced
    failed := x.failed
    rowsUsed := x.rowsUsed
    laneUsed := x.laneUsed
    pendPc := x.pendPc
    bad := x.bad }

/-- The service die goes on while its link is down; the hub's side of the link starts afresh (R331). -/
def Svc.kept (x : Svc) : Svc :=
  { x with
    frame := none
    sent := []
    sentRly := 0
    logged := 0
    point := 0
    cycleStart := 0
    bad := [] }

/-- Frame numbers continue; sets and databases are empty, and decays and snapshots fall due from the present tick on (R151, log entry
82). -/
def keptAvgs (t : Tab Avg) : Tab Avg := t.map (fun p : Nat × Avg => (p.1, { Avg.init with frame := p.2.frame }))
def keptDbs (now : Nat) (t : Tab Db) : Tab Db :=
  (List.range 8).map (fun d => (d, { Db.init with
    frame := (Tab.get Db.init t d).frame
    lastDecay := now
    lastSnap := now }))

/-- C_tick and the admission limit of the set in force with the pseudo-channels that are active (R155, R168). -/
def State.showTick (s : State) : State :=
  match cTick s.regs (s.get F.STO_CAP_P_ACT) with
  | some ct => (s.put F.STO_CTICK_BYTES ct).put F.STO_BUDGET_BYTES (92 * ct / 100)
  | none => s

/-- The hub after a warm reset: every block of Table 17.3 is reinitialised but for the registers kept and the store. -/
def State.hubReset (s0 : State) (keep : Nat → Bool) : State :=
  let s := (List.range 16).foldl State.unpinAll ((List.range 16).foldl (fun t g => t.dropSet t.lcnt g) s0)
  let r := s.regs.filter (fun p => keep p.1)
  let t : State := { State.reset with
    pending := s.pending
    out := s.out
    free := s.free
    lcnt := s.lcnt
    tick := s.tick
    regs := r
    flash := s.flash
    grps := s.grps.map (fun p : Nat × Grp => (p.1, p.2.kept))
    store := s.store
    stageFill := s.stageFill
    stageDrain := s.stageDrain
    sto := s.sto.kept
    avgs := keptAvgs s.avgs
    dbs := keptDbs (s.lcnt / tickLen) s.dbs
    tallyPage := s.tallyPage
    tallyGeom := s.tallyGeom
    frames := s.frames.map (fun f => { f with pins := 0 })
    framePub := s.framePub
    disp := { Disp.init with hpd := s.disp.hpd }
    tap := s.tap
    clk := s.clk
    epochs := s.epochs
    timeDue := s.timeDue
    pnom := s.pnom
    servo := s.servo
    stage := s.stage
    txq := s.txq
    svc := s.svc.kept
    keeper := s.keeper
    pwr := { s.pwr with check := none, grpReset := 0, laneFence := 0 }
    evs := s.evs.map (fun p : Nat × Ev => (p.1, p.2.kept))
    twin := { Twin.init with source := s.twin.source }
    log := s.log }
  let t1 := (t.put F.GLOBAL_STATE_NODE (s.get F.GLOBAL_STATE_NODE)).put F.GLOBAL_SUPPLY_NOW
    (maskOf (s.pwr.episodes.map (fun p => p.1)))
  let t2 := (t1.putB F.CLK_STATUS_OCXO_RDY (s.flag F.CLK_STATUS_OCXO_RDY)).putB F.STO_STATUS_FAIL_PENDING
    (s.flag F.STO_STATUS_FAIL_PENDING)
  ((if s.sto.fenced = [] then t2 else t2.showTick).setF F.STO_STATUS_SELF_REFRESH).post t2.lcnt 0x0701 t2.locusHub 0

/-! ### Cold reset (R368, R371, R373) -/

/-- A cold reset with a cause of Table 17.2; without a good keeper every keeper value restarts from 0. FAIL_PENDING marks
survive as long as VDD_CORE does (log entry 51). -/
def State.coldReset (s0 : State) (cause : Nat) (keeperGood : Bool) : State :=
  let off := cause = 1 ∨ cause = 2
  let prev := if keeperGood then s0.get F.GLOBAL_RESET_CAUSE_CAUSE else 0
  let s := if keeperGood then (s0.setCauseReg cause).keepSec.2 else s0
  let low := s0.flag F.LOG_STATUS_ERR_N
  let t : State := { State.reset with
    pending := s.pending
    out := s.out
    free := s.free
    regs := if keeperGood then s.regs.filter (fun p => keeperWord p.1) else []
    flash := s.flash
    tap := if off then Tap.init else s.tap
    disp := { Disp.init with hpd := s.disp.hpd }
    epochs := []
    keeper := ⟨true, 0, 0, none⟩
    pwr := { Pwr.init with episodes := s.pwr.episodes.map (fun p => (p.1, 0)), thermalHold := s.pwr.thermalHold } }
  let t1 := (t.put F.GLOBAL_SUPPLY_NOW (maskOf (s.pwr.episodes.map (fun p => p.1)))).putB F.CLK_STATUS_OCXO_RDY
    (s.flag F.CLK_STATUS_OCXO_RDY)
  let t2 := if off then t1 else (List.range 4).foldl (fun u k =>
    u.put (F.STO_REPAIR_FAIL_PENDING k) (s.get (F.STO_REPAIR_FAIL_PENDING k))) t1
  let t3 := if low then t2.emit (.pin 0 true) else t2
  let t4 := t3.openEpoch { Epoch.zero with sec := t3.getN R.GLOBAL_KEEP_SEC 2 % 2 ^ 48 }
  let t5 := (t4.post 0 0x0101 t4.locusPkg (cause + prev * 256)).post 0 0x0701 t4.locusHub 0
  if keeperGood then t5 else t5.post 0 0x0109 t5.locusPkg 0

/-- POWER_ON: PWR_OK rises (R367, R368, R370). -/
def execPowerOn (keeperGood : Bool) (s : State) : Host.Outcome State Fault Refusal :=
  .next (if keeperGood then (s.incSat F.GLOBAL_PWR_CYCLES_COUNT).coldReset 2 true
    else if s.flag F.GLOBAL_WAKE_CTRL_ASSERTED then (s.wakeRelease).coldReset 1 false
    else s.coldReset 1 false)

/-- STORE_RAIL_LOSS (R370): the store keeps nothing. -/
def execStoreRailLoss (s : State) : Host.Outcome State Fault Refusal := .next (s.coldReset 8 true)

/-! ### Warm reset (R125, R370-R373) -/

/-- The final headers of every record whose span has ended, oldest first. -/
def State.finalAll (s : State) (g fin : Nat) : State :=
  (s.grp g).closing.foldl (fun t r => t.finalHeader g r fin) s

/-- An element or a lens cycle of channel n whose words had not all arrived when a reset came in core cycle c. -/
def State.underWay (s : State) (c n : Nat) (r : Rec) (k : Nat) : Bool :=
  let f := chainCfg s.regs n
  if f.direct then decide (s.newest n < r.lay.cyc k)
  else decide (s.newest n < f.mLast k / f.n) || decide (c < f.mLast k / f.n + 64)

/-- What a record keeps of the words that a warm reset met on their way (R125): the spec does not say whether they still reach
it, so their values and their marks are free values (log entry 78). -/
def State.freeElems (s : State) (c g : Nat) (r : Rec) (n : Nat) : State :=
  let idx := rankIn r.mask n
  let ks := ((List.range (r.kEnd - r.k0)).map (fun i => r.k0 + i)).filter (s.underWay c n r)
  let s1 := ks.foldl (fun t k =>
    let v := t.draw r.lay.elemBits
    let m := v.2.draw 4
    let u := m.2.setGrp g { m.2.grp g with flagged := nibAdd (m.2.grp g).flagged k n (m.1 % 8) }
    u.stageElem false g r.lpage r.lay idx (some r.kd) k 0 r.lay.e v.1 m.1) s
  match r.lensFrom with
  | some (f, len) =>
    ((List.range len).filter (fun i => decide (s.newest n < f + i))).foldl (fun t i =>
      let v := t.draw (10 * r.lay.n)
      let m := v.2.draw 4
      let u := m.2.setGrp g { m.2.grp g with lensFlags := nibAdd (m.2.grp g).lensFlags (f + i) n (m.1 % 8) }
      u.stageLens false g r n f i v.1 m.1) s1
  | none => s1

/-- Every record whose span has ended keeps what is free of it. -/
def State.freeAll (s : State) (c g : Nat) : State :=
  (s.grp g).closing.foldl (fun t r => (bitsSet 48 r.mask).foldl (fun u n => u.freeElems c g r n) t) s

/-- Everything staged reaches the store (R125, step 1). -/
def State.drainStage (s : State) : State :=
  { s.settled with
    stageFill := []
    stageDrain := []
    fillData := 0
    drainData := 0 }

/-- The loop's CLK words, held until the loader hands over those of the image (R377). -/
def State.holdClk (s : State) : State :=
  { s with clk := { s.clk with hand := s.loopRegs.filter (fun p => decide (0x200000 ≤ p.1) && decide (p.1 < 0x200400)) } }

/-- A warm reset in this core cycle with VDD_CORE held (none while VDD_CORE has failed: there is nothing to hold): groups stop,
staging drains, then the hub restarts; LCNT, the time keeper and the loop go on (R125, R371). -/
def State.warmReset (s : State) (cause : Nat) : State :=
  if s.pwr.coreLoss then s else
  let c := s.lcnt
  let prev := s.get F.GLOBAL_RESET_CAUSE_CAUSE
  let s1 := (List.range 16).foldl (fun t g => ((t.resetAcq c g).freeAll c g).finalAll g c) s
  let s2 := (s1.drainStage.setCauseReg cause).holdClk.hubReset keptWarm
  let s3 := (List.range 128).foldl (fun t p =>
    if t.get (F.TIME_PTP_PORT_STATE p) = 0 then t else t.put (F.TIME_PTP_PORT_STATE p) 1) s2
  let s4 := ((((s3.put F.TIME_STATUS_SERVO 3).clrF F.CLK_STATUS_OCXO_COLD).clrF F.CLK_STATUS_LOCK_LOST).clrF
    F.CLK_STATUS_REF_LOST).clrF F.CLK_STATUS_NTO_STOP
  let s5 : State := { s4 with servo := { s4.servo with sum := 0, cnt := 0, good := 0 } }
  (s5.errN).post c 0x0101 s5.locusPkg (cause + prev * 256)

/-! ### Core loss (R125, R370-R372) -/

/-- CORE_LOSS: staging is lost with the hub; open records keep their provisional headers. What the rebuild reads from the store
and the keeper stays: the registers are those under which the store was written until the restart. -/
def State.coreLoss (s : State) : State :=
  let t : State := { s.setCauseReg 7 with
    stageFill := []
    stageDrain := []
    fillData := 0
    drainData := 0
    grps := s.grps.map (fun p : Nat × Grp => (p.1, { p.2 with
      closing := p.2.spans
      pastRecs := p.2.cur.toList.map (fun r => (r.num, r.s, r.e)) ++ p.2.pastRecs
      cur := none
      winFrom := none
      armed := false
      claim := none
      stopReq := none
      armReq := none
      readyFrom := none
      events := [] }))
    commit := none
    armPlan := none
    cfgReady := false
    pwr := { s.pwr with coreLoss := true } }
  t.put F.GLOBAL_STATE_PHASE 0

/-- CORE_LOSS row (R370). -/
def execCoreLoss (s : State) : Host.Outcome State Fault Refusal := .next s.coreLoss

/-- The store holds record num at a logical page: its header's flags. -/
def State.headerAt (s : State) (g lpage num : Nat) : Option Nat :=
  let a := s.lpAddr g lpage 0
  if leValue (s.sreads a 2) = 1 ∧ leValue (s.sreads (a + 8) 8) = num % 2 ^ 64 then some (leValue (s.sreads (a + 4) 4)) else none

/-- The span of a slot's record: once closed in the slot, before that in the record. -/
def Grp.spanOf (gr : Grp) (x : Slot) : Option (Nat × Nat) :=
  match x.span with
  | some p => some p
  | none => (gr.closing.find? (fun r => r.num == x.num)).map (fun r => (r.s, r.e))

/-- The slots whose records the store holds; torn ones become eligible with their provisional headers (spec/09, R216). -/
def State.slotsFound (s : State) (g : Nat) : List Slot :=
  let gr := s.grp g
  gr.slots.filterMap (fun x =>
    if (s.headerAt g x.lpage x.num).isSome then some { x with ready := true, span := gr.spanOf x, readers := [], measured := true, relReq := false }
    else none)

/-- The latest span end of the group's torn records. -/
def State.tornEnd (s : State) (g : Nat) (l : List Slot) : Nat :=
  (l.filter (fun x => match s.headerAt g x.lpage x.num with
    | some f => bitOf f flagTorn
    | none => false)).foldl (fun m x => max m ((x.span.getD (0, 0)).2)) 0

/-- A group after a core loss: numbers and gap ring from its control block, torn records, the RESET gap and the stop of R125. S is
the keeper's LCNT save. -/
def State.coreGroup (s : State) (S g : Nat) : State :=
  let gr := s.grp g
  let a := 65536 * gr.geom.2.2.2.1
  let block := s.sreads a 64
  if chMask s.regs g = 0 ∨ leValue (block.drop 60) ≠ crc32c (block.take 60) then s
  else
    let rd := fun o n => leValue ((block.drop o).take n)
    let found := s.slotsFound g
    let cap := 1024 * gapPages s.regs g
    let s1 := s.setGrp g { gr with
      slots := found
      pastRecs := gr.pastRecs.filter (fun r =>
        !gr.closing.any (fun x => x.num == r.1) || found.any (fun x => x.num == r.1))
      closing := []
      gaps := []
      losses := []
      recentGaps := []
      nextGap := rd 0x18 8 + 65536
      gapIdx := rd 0 4
      gapHeld := if rd 4 4 = 0 ∧ rd 0 4 ≠ 1 then rd 0 4 - 1 else if rd 4 4 = 0 then gr.gapHeld else cap - 1
      gapOvf := rd 4 4
      durable := rd 8 8 }
    let ex := max (s1.tornEnd g found) (S + 2047)
    let edges := found.flatMap (fun x => match x.span with
      | some p => [p.1, p.2 + 1]
      | none => [])
    let s2 := if rd 0x20 4 % 2 = 1 then
        ((partsOf (rd 8 8 + 1) (ex + 1) edges).foldl (fun t p => t.gapDesc g 8 p.1 p.2 (s1.grpMask g)) s1).post (ex + 1) 0x0502
          (s.locusGrp g) 0
      else s1
    (s2.putN (R.REC_GRP_NEXT_NUM g) 2 (rd 0x10 8 + 65536)).showOldest g

/-- Log entries found in the store copy, newest first: those whose slot holds their own sequence (R372, R391). -/
def State.logCopy (s : State) (page next : Nat) : Nat → List LogEnt
  | 0 => []
  | n + 1 =>
    let seq := (next + 2 ^ 32 - (4096 - n)) % 2 ^ 32
    let v := leValue (s.sreads (65536 * page + 32 * (seq % 4096)) 32)
    let rest := s.logCopy page next n
    if v / 2 ^ 224 = seq ∧ v / 2 ^ 80 % 2 ^ 16 ≠ 0 then
      (⟨v % 2 ^ 64, v / 2 ^ 64 % 2 ^ 16, v / 2 ^ 80 % 2 ^ 16, v / 2 ^ 96 % 2 ^ 32, v / 2 ^ 128 % 2 ^ 96, seq⟩ : LogEnt) :: rest
    else rest

/-- The next frame number of a source: that of its newest frame in the ring plus 2^16 (R372). -/
def State.frameNum (s : State) (typ src : Nat) : Nat :=
  (s.frames.filter (fun f => f.typ == typ && f.src == src)).foldl (fun m f => max m f.num) 0 + 65536

/-- The keeper's epoch is logged again, and the START epoch opens at the resume value (R371, R372). -/
def State.rebuildTime (s : State) (lc : Nat) : State :=
  let k := s.keepSec
  let e0 := s.keeper.epochSave.getD { Epoch.zero with num := 65535 }
  let pn := pnomBypass (s.get F.CLK_BYP_RATIO_RATIO)
  let t : State := { k.2 with
    epochs := [e0]
    timeDue := []
    pnom := pn
    servo := Servo.init
    stage := none
    txq := [] }
  (t.logEpoch e0).openEpoch ⟨(e0.num + 1) % 65536, lc, k.1, 0, 0, (roundDiv pn.1 pn.2).toNat, 1⟩

/-- CORE_LOSS_RESTART (R371, R372): LCNT resumes at S + 2^32 and the hub's state is rebuilt. -/
def execCoreLossRestart (s : State) : Host.Outcome State Fault Refusal :=
  .next (if s.pwr.coreLoss ∧ s.pwr.pwrOk then
      (let S := s.keeper.lcntSave
       let lc := S + 2 ^ 32
       let seq := s.keeper.seqSave
       let low := s.flag F.LOG_STATUS_ERR_N
       let page := s.get F.LOG_STORE_PAGE
       let prev := s.get F.GLOBAL_RESET_CAUSE_PREV
       let s0 : State := { s with
         lcnt := lc
         tick := lc
         regs := s.regs.filter (fun p => !(decide (0xF00000 ≤ p.1) && decide (p.1 < 0xF80000)))
         log := { Log.init with ring := s.logCopy page seq 4096 }
         avgs := (List.range 16).map (fun g => (g, { Avg.init with frame := s.frameNum 0x10 g }))
         dbs := (List.range 8).map (fun d => (d, { Db.init with frame := s.frameNum 0x11 d }))
         clk := { Clk.init with bypass := (lc, none) :: s.clk.bypass }
         keeper := { s.keeper with lcntSave := lc }
         pwr := { s.pwr with coreLoss := false } }
       let s1 := s0.put F.LOG_WR_SEQ_SEQ ((seq + 65536) % 2 ^ 32)
       let s2 := if low then s1.emit (.pin 0 true) else s1
       let s3 := (List.range 16).foldl (fun t g => t.coreGroup S g) s2
       let s4 := s3.hubReset (fun off => keptCore off || (decide (0xF00000 ≤ off) && decide (off < 0xF80000)))
       let s5 := s4.rebuildTime lc
       let s6 := (s5.putN R.GLOBAL_RESUME_LCNT 2 lc).post lc 0x010A s5.locusPkg (lc % 2 ^ 64 + seq % 2 ^ 32 * 2 ^ 64)
       s6.post lc 0x0101 s6.locusPkg (7 + prev * 256))
    else s)

/-! ### Reset commands and pins (Table 17.2) -/

/-- WARM_RESET with a cause of Table 17.2; 7 is a core loss, any other value no warm reset. -/
def execWarmReset (cause : BitVec 8) (s : State) : Host.Outcome State Fault Refusal :=
  .next (if [4, 6, 9, 10].contains cause.toNat then s.warmReset cause.toNat else if cause = 7 then s.coreLoss else s)

/-- RESET_N_ASSERT: RESET_N low for so many microseconds (R370). -/
def execResetNAssert (us : Nat) (s : State) : Host.Outcome State Fault Refusal :=
  .next (if 10000 ≤ us then s.coldReset 3 true else if 1 ≤ us then s.warmReset 4 else s)

/-- A write of GLOBAL_RESET: with the key, COLD is the wider of two bits (R370). -/
def State.resetCmd (s : State) (key : Nat) (cold warm : Bool) : State :=
  if key ≠ 0xA5 then s else if cold then s.coldReset 5 true else if warm then s.warmReset 6 else s

def execResetColdCmd (key : BitVec 8) (s : State) : Host.Outcome State Fault Refusal := .next (s.resetCmd key.toNat true false)
def execResetWarmCmd (key : BitVec 8) (s : State) : Host.Outcome State Fault Refusal := .next (s.resetCmd key.toNat false true)

/-! ### Group reset (R374) -/

/-- A write of GLOBAL_GRP_RESET. -/
def State.groupResetWrite (s : State) (mask : Nat) : State := { s with pwr := { s.pwr with grpReset := Nat.lor s.pwr.grpReset mask } }

def execGroupReset (mask : BitVec 16) (s : State) : Host.Outcome State Fault Refusal := .next (s.groupResetWrite mask.toNat)

/-- The group's words that a group reset returns to reset values (Table 17.3): TRG_GRP, TAL_AVG, ABA_GRP, and of REC the status
and the counters. -/
def grpWord (g off : Nat) : Bool :=
  (decide (R.TRG_GRP_CH g ≤ off) && decide (off < R.TRG_GRP_CH g + 0x100)) || (decide (R.TAL_AVG_CTRL g ≤ off) && decide (off < R.TAL_AVG_CTRL g + 0x40))
    || (decide (R.ABA_GRP_DONE g ≤ off) && decide (off < R.ABA_GRP_DONE g + 0x40))
    || [R.REC_GRP_STATUS g, R.REC_GRP_WRAP_CNT g, R.REC_GRP_GAP_OVF_CNT g].contains off

/-- Group g is reset at boundary b (R374). -/
def State.groupResetAt (s : State) (b g : Nat) : State :=
  if bitOf s.pwr.grpReset g = false then s
  else
    let s1 := s.resetStop b g
    let s2 := ((s1.abaQ ++ s1.abaSkip).filter (fun j => j.grp == g)).foldl State.notRun (s1.abaDrop g (fun _ => true))
    let gr := s2.grp g
    let s3 : State := { s2 with
      regs := s2.regs.filter (fun p => !grpWord g p.1)
      shadow := s2.shadow.filter (fun p => !grpWord g p.1)
      avgs := Tab.set s2.avgs g { Avg.init with frame := (s2.avg g).frame }
      pwr := { s2.pwr with grpReset := clrBit s2.pwr.grpReset g } }
    ((s3.setGrp g { gr with armReq := none, stopReq := none, part := Part.init, high := [] }).put
      (F.REC_GRP_STATUS_PINNED g) (gr.pins.map (fun p => p.1)).dedup.length).showSrc

/-- GROUP_RESET_APPLY: the first boundary after the write (R374). -/
def execGroupResetApply (g : Fin 16) (s : State) : Host.Outcome State Fault Refusal :=
  let b := boundaryAt s.lcnt
  .next (if bitOf s.pwr.grpReset g then (s.at_ b).groupResetAt b g else s)

/-! ### Supplies (R378) -/

/-- SUPPLY_WARNING_START: a rail (bit of WARN_RAILS) was below its warning level from core cycle c on. -/
def execSupplyWarningStart (rail : Fin 7) (c : Nat) (s : State) : Host.Outcome State Fault Refusal :=
  .next (if s.pwr.episodes.any (fun p => p.1 == rail.val) then s
    else
      let s1 := (((s.at_ c).incSat F.GLOBAL_SUPPLY_WARN_CNT_COUNT).put F.GLOBAL_SUPPLY_NOW (setBit (s.get F.GLOBAL_SUPPLY_NOW) rail)).put
        F.GLOBAL_SUPPLY_SEEN (setBit (s.get F.GLOBAL_SUPPLY_SEEN) rail)
      { s1 with pwr := { s1.pwr with episodes := s1.pwr.episodes ++ [(rail.val, c)] } })

/-- More than 2 µs of core cycles. -/
def State.longEpisode (s : State) (n : Nat) : Bool := decide (2 * s.coreHz.1 < n * s.coreHz.2 * 1000000)

/-- The SUPPLY gap of a VDD_ANA fault ends at core cycle x (Table 17.6). -/
def State.anaEnd (s : State) (x : Nat) : State :=
  if s.pwr.anaFault.isSome then
    ((List.range 16).foldl (fun t g => t.endLoss g 7 x) ({ s with pwr := { s.pwr with anaFault := none } } : State)).gapSyncAll
  else s

/-- SUPPLY_WARNING_END: the rail has recovered; a long core or analogue episode is checked in the next whole tick. -/
def execSupplyWarningEnd (rail : Fin 7) (c : Nat) (s : State) : Host.Outcome State Fault Refusal :=
  .next (match s.pwr.episodes.find? (fun p => p.1 == rail.val) with
    | none => s
    | some (_, st) =>
      let s1 := (s.at_ c).put F.GLOBAL_SUPPLY_NOW (clrBit (s.get F.GLOBAL_SUPPLY_NOW) rail)
      let long := decide (rail.val ≤ 1) && s.longEpisode (c - st)
      let s2 : State := { s1 with pwr := { s1.pwr with
        episodes := s1.pwr.episodes.filter (fun p => p.1 != rail.val)
        past := (rail.val, st, c) :: s1.pwr.past
        check := if long then some (match s1.pwr.check with
          | some k => (min k.1 st, c)
          | none => (st, c)) else s1.pwr.check } }
      let s3 := s2.post c 0x0102 s2.locusPkg (rail.val + st % 2 ^ 64 * 2 ^ 8 + (c - st) % 2 ^ 24 * 2 ^ 72)
      if rail.val = 1 ∧ long = false then s3.anaEnd c else s3)

/-- A SUPPLY gap over core cycles a to b − 1 of channel n in an armed group that holds it (R118, R378). -/
def State.supplyGap (s : State) (n a b g : Nat) : State :=
  let gr := s.grp g
  if gr.armed = false ∨ bitOf (s.grpMask g) n = false then s
  else (s.addLoss g ⟨7, 2 ^ n, max a gr.armLcnt, some b⟩).gapSync g

/-- A channel's chain and corrections start again at boundary b after a bad check, and its words are lost from st on (R378). -/
def State.chanRestart (s : State) (n st b : Nat) : State :=
  let s1 := (s.setChain n { s.chain n with restartAt := some b }).setF (F.FLT_CH_STATUS_RESTARTED n)
  let s2 : State := { s1 with pwr := { s1.pwr with
    supply := (2 ^ n, b + 64) :: s1.pwr.supply.filter (fun p => decide (b < p.2)) } }
  (List.range 16).foldl (fun t g => t.supplyGap n st (b + 64) g) s2

/-- SUPPLY_STATE_CHECK: the check's outcome at the end of its tick (R378). The locus of a bad channel is that of the converter
die's channel: R3 also gives the hub a locus for its per-channel blocks, and R378 does not say which (log entry 79). -/
def execSupplyStateCheck (outcome : CheckOutcome) (s : State) : Host.Outcome State Fault Refusal :=
  .next (match s.pwr.check with
    | none => s
    | some (st, en) =>
      let b := (en / tickLen + 2) * tickLen
      let s1 := ((s.at_ b).incSat F.GLOBAL_SUPPLY_CHECK_CNT_RUN).anaEnd b
      let s2 : State := { s1 with pwr := { s1.pwr with check := none } }
      match outcome with
      | .good => s2.post b 0x0103 s2.locusPkg 0
      | .chanBad n =>
        ((s2.incSat F.GLOBAL_SUPPLY_CHECK_CNT_BAD).post b 0x0105 (s2.locusCh n 0xFF) 0).chanRestart n st b
      | .hubBad => ((s2.incSat F.GLOBAL_SUPPLY_CHECK_CNT_BAD).post b 0x0105 s2.locusPkg 0).warmReset 9)

/-- SUPPLY_FAULT: a rail is below its reset or fault level from core cycle c on (Table 17.6). -/
def execSupplyFault (rail : FaultRail) (c : Nat) (s : State) : Host.Outcome State Fault Refusal :=
  let s1 := s.at_ c
  .next (match rail with
    | .vddAna =>
      if s1.pwr.anaFault.isSome then s1
      else ({ s1 with pwr := { s1.pwr with anaFault := some c } } : State).setLossAll c 7 allChans
    | .vddSer => (List.range 128).foldl State.linkDown s1
    | .vhv => s1.svcSafe.post c 0x0E07 s1.locusSvc 0
    | .vddIo => s1.warmReset 4
    | .vexc => s1)

/-! ### Thermal (R379) -/

/-- The locus of a die as a whole. -/
def State.locusDie (s : State) (die : Nat) : Nat := s.locus die 15 255 255

/-- THERMAL_WARNING (R379): the entry's class drives ERR_N. -/
def execThermalWarning (die : Fin 14) (s : State) : Host.Outcome State Fault Refusal :=
  .next (s.post s.lcnt 0x0107 (s.locusDie die) 0)

/-- THERMAL_RESET (R379): a warm reset, held until the release; a primary hands over first (R387). -/
def execThermalReset (die : Fin 14) (s : State) : Host.Outcome State Fault Refusal :=
  .next (if s.pwr.thermalHold then s
    else
      let s0 := s.post s.lcnt 0x0108 (s.locusDie die) 0
      let b := boundaryAfter s0.lcnt
      let s1 := (if s0.twin.handoverTx then (s0.at_ b).handoverAt b else s0).warmReset 10
      { s1 with pwr := { s1.pwr with thermalHold := true } })

/-- THERMAL_RELEASE: every die is below 100 °C (R379). -/
def execThermalRelease (s : State) : Host.Outcome State Fault Refusal :=
  .next (if s.pwr.thermalHold then
      { s with
        pwr := { s.pwr with thermalHold := false }
        log := { s.log with fatalCond := false } }
    else s)

/-! ### Wake (R369) -/

/-- WAKE_ALARM: keeper seconds reach GLOBAL_WAKE_SEC. -/
def execWakeAlarm (s : State) : Host.Outcome State Fault Refusal :=
  .next (if s.flag F.GLOBAL_WAKE_CTRL_EN ∧ s.flag F.GLOBAL_WAKE_CTRL_ASSERTED = false then
      ((s.putN R.GLOBAL_KEEP_SEC 2 (s.getN R.GLOBAL_WAKE_SEC 2)).setF F.GLOBAL_WAKE_CTRL_ASSERTED).emit (.pin 1 false)
    else s)

/-- WAKE_RELEASE: PHASE has reached 0x2, or EN was written 0 (R369). -/
def execWakeRelease (s : State) : Host.Outcome State Fault Refusal :=
  .next (if s.get F.GLOBAL_STATE_PHASE = 2 ∨ s.flag F.GLOBAL_WAKE_CTRL_EN = false then s.wakeRelease else s)

/-! ### Self-test (R376, R377) -/

/-- A die, a region, a channel or a stack channel group is among the failed parts, itself or by a higher level (R376). -/
def failDie (l : List FailPart) (k : Nat) : Bool := l.contains (.die k)
def failReg (l : List FailPart) (q : Nat) : Bool := l.contains (.region q) || failDie l (q / 2)
def failCh (l : List FailPart) (n : Nat) : Bool := l.contains (.channel n) || failReg l (n / 4)

/-- A unit spare is taken. -/
def State.spareUsed (s : State) : State := s.incSat F.GLOBAL_SELFTEST_SPARES

/-- A fencing outside the converter dies, with its log entry (R376). -/
def State.fenceLog (s : State) (locus : Nat) : State := (s.setF F.GLOBAL_STATE_DEGRADED).post s.lcnt 0x0104 locus 0

/-- A fenced die shows in GLOBAL_SELFTEST.DIES. -/
def State.dieFenced (s : State) (k : Nat) : State := s.put F.GLOBAL_SELFTEST_DIES (setBit (s.get F.GLOBAL_SELFTEST_DIES) k)

/-- Network lane groups are disabled. -/
def State.lanesOff (s : State) (mask : Nat) : State := { s with pwr := { s.pwr with laneFence := Nat.lor s.pwr.laneFence mask } }

/-- Pseudo-channels are fenced by a cold self-test: the mapping and the capacity follow (R155, R156). -/
def State.fencePcs (s : State) (l : List Nat) : State :=
  let f := sortNat (s.sto.fenced ++ l).dedup
  ((({ s with sto := { s.sto with fenced := f } } : State).put F.STO_CAP_P_ACT (128 - f.length)).put F.STO_CAP_PAGES
    ((128 - f.length) * 2097152 / 128)).showTick

/-- The pseudo-channels of channel group j of stack k. -/
def groupPcs (k j : Nat) : List Nat := (List.range 4).map (fun i => 32 * k + 4 * j + i)

/-- A stack's channel group failed: fenced on a cold reset, otherwise marked (R156). -/
def State.stackGroupFail (s : State) (cold : Bool) (k j : Nat) : State :=
  if cold then (s.fencePcs (groupPcs k j)).fenceLog (s.locus (10 + k) 15 j 255) else s.groupPending k j

/-- One failed part of Table 17.4; parts inside a failed part of a higher level are not tested. A SerDes lane is replaced by a
spare (Table 0.2); how many spares a network die has is not stated, and every failing lane finds one (log entry 80). The hub
has no channels or lanes of its own to lose: its failure is reported (log entry 80). -/
def State.selfPart (s : State) (cold : Bool) (l : List FailPart) : FailPart → State
  | .die k =>
    if k < 6 then (s.fenceDie k s.lcnt).dieFenced k
    else if k = 7 ∨ k = 8 then ((s.lanesOff (15 * 2 ^ (4 * (k - 7)))).dieFenced k).fenceLog (s.locusDie k)
    else if k = 9 then s.svcFenced.dieFenced 9
    else if 10 ≤ k ∧ k ≤ 13 then
      (if cold then ((s.fencePcs ((List.range 32).map (fun i => 32 * (k - 10) + i))).dieFenced k).fenceLog (s.locusDie k)
       else s.stackPending (k - 10))
    else (s.dieFenced k).fenceLog (s.locusDie k)
  | .region q => if failDie l (q / 2) then s else s.fenceRegion q s.lcnt
  | .laneGroup j => if failDie l (7 + j / 4) then s else (s.lanesOff (2 ^ j)).fenceLog (s.locus (7 + j / 4) (j % 4) 255 255)
  | .channel n => if failReg l (n / 4) then s else s.fenceCluster n s.lcnt
  | .port p =>
    if failDie l (7 + p / 64) ∨ l.contains (.laneGroup (p / 16)) then s
    else s.post s.lcnt 0x0901 (s.locus (7 + p / 64) (p / 16 % 4) (p % 64 / max 1 (lanesIn s.named (p / 16))) 255) 0
  | .stackGroup k j => if failDie l (10 + k) then s else s.stackGroupFail cold k j
  | .position n p =>
    if failCh l n then s
    else
      let had := (s.chan n).spare.isSome
      let s1 := (s.posFail n p).takeSlot n (boundaryAt s.lcnt)
      if had ∧ (s.chan n).spare ≠ some p then s1.spareUsed else s1
  | .interp ch i =>
    if failCh l ch then s
    else
      let s1 := s.intFail ch i
      if (ch, i) ∈ s1.intSwaps then
        (({ s1 with intSwaps := s1.intSwaps.filter (fun p => p != (ch, i)) } : State).intSwap s1.lcnt ch i).spareUsed
      else s1
  | .evtInterp k i => s.evIntFail k i
  | .lane x => if failDie l (7 + x / 64) ∨ l.contains (.laneGroup (x / 16)) then s else s.spareUsed
  | .storeRow pc =>
    if cold = false ∨ failDie l (10 + pc / 32) ∨ l.contains (.stackGroup (pc / 32) (pc / 4 % 8)) then s
    else if Tab.get 0 s.sto.rowsUsed pc < 64 then
      (let f := F.STO_REPAIR_SPARE_ROWS (pc / 32)
       ({ s with sto := { s.sto with rowsUsed := Tab.set s.sto.rowsUsed pc (Tab.get 0 s.sto.rowsUsed pc + 1) } } : State).put f (s.get f - 1)).spareUsed
    else (s.fencePcs [pc]).fenceLog (s.locusPc pc)
  | .storeLane pc =>
    if cold = false ∨ failDie l (10 + pc / 32) ∨ l.contains (.stackGroup (pc / 32) (pc / 4 % 8)) then s
    else if s.sto.laneUsed.contains pc then (s.fencePcs [pc]).fenceLog (s.locusPc pc)
    else
      let f := F.STO_REPAIR_SPARE_LANES (pc / 32)
      (({ s with sto := { s.sto with laneUsed := pc :: s.sto.laneUsed } } : State).put f (s.get f - 1)).spareUsed
  | .package => s

/-- The level of a part: 0 die, 1 region, 2 cluster, 3 unit, 4 package (Table 17.4). -/
def failLevel : FailPart → Nat
  | .die _ => 0
  | .region _ => 1
  | .laneGroup _ => 1
  | .channel _ => 2
  | .port _ => 2
  | .stackGroup _ _ => 2
  | .package => 4
  | _ => 3

/-- Store parts marked FAIL_PENDING before a cold reset are fenced by its self-test (R156). -/
def State.fenceMarked (s : State) : State :=
  let s1 := (List.range 4).foldl (fun t k =>
    ((bitsSet 8 (s.get (F.STO_REPAIR_FAIL_PENDING k))).foldl (fun u j => u.stackGroupFail true k j) t).put
      (F.STO_REPAIR_FAIL_PENDING k) 0) s
  s1.clrF F.STO_STATUS_FAIL_PENDING

/-- Dies without factory values get a full foreground run when the image declares CALV (R313). -/
def State.selfCal (s : State) : State :=
  let dies := (List.range 8).filter (fun i => s.srcOf i == 3)
  if dies = [] ∨ s.named.fld F.CAL_CALV_UV = 0 ∨ s.get F.CLK_STATUS_LOOP ≠ 3 then s
  else
    let runs := dies.map (fun i =>
      let d := (calDies[i]?).getD 0
      let m := if d < 6 then dieMask d - Nat.land (dieMask d) s.fenceMask else if d = 6 then 255 else 0
      (⟨d, m, dieProcs d 127, s.lcnt, none, false, false⟩ : CalRun))
    ({ s with cal := { s.cal with runs := s.cal.runs ++ runs, results := false, abort := none } } : State).calShow

/-- SELF_TEST: the tests end, with the parts that failed (R376, Table 17.4). Converter tests need the sample clock. -/
def execSelfTest (fails : List FailPart) (s : State) : Host.Outcome State Fault Refusal :=
  let cold := coldCause (s.get F.GLOBAL_RESET_CAUSE_CAUSE)
  .next (if s.get F.GLOBAL_STATE_PHASE ≠ 1 ∨ s.flag F.GLOBAL_SELFTEST_DONE then s
    else if fails.contains .package then
      (let s1 := ((s.setF F.GLOBAL_SELFTEST_DONE).setF F.GLOBAL_SELFTEST_PKG_FAIL).post s.lcnt 0x0106 s.locusPkg 0
       s1.errN)
    else if s.get F.CLK_STATUS_LOOP ≠ 3 then s
    else
      let s1 := (if cold then s.fenceMarked else s).setF F.GLOBAL_SELFTEST_DONE
      let s2 := (List.range 4).foldl (fun t v =>
        (fails.filter (fun p => failLevel p == v)).foldl (fun u p => u.selfPart cold fails p) t) s1
      ((s2.setF F.STO_STATUS_READY).clrF F.STO_STATUS_SELF_REFRESH).selfCal)

/-- A die that still has reset values leaves calibration defaulted (R313). -/
def State.calFallback (s : State) : State :=
  let dies := (List.range 8).filter (fun i => s.srcOf i == 3)
  if dies = [] ∨ s.flag F.GLOBAL_STATE_CAL_DEFAULTED then s
  else (s.setF F.GLOBAL_STATE_CAL_DEFAULTED).post s.lcnt 0x0D05 s.locusHub (maskOf (dies.map (fun i => (calDies[i]?).getD 0)))

/-- SELF_TEST_DONE: with the loop locked and no run of R313 left, the loader requests the first commit (R352, R377). -/
def execSelfTestDone (s : State) : Host.Outcome State Fault Refusal :=
  .next (if s.get F.GLOBAL_STATE_PHASE = 1 ∧ s.flag F.GLOBAL_SELFTEST_DONE ∧ s.flag F.GLOBAL_SELFTEST_PKG_FAIL = false
        ∧ s.get F.CLK_STATUS_LOOP = 3 ∧ s.commit = none ∧ s.cal.runs.all (fun r => r.ended) then
      (let s1 := s.calFallback
       match s1.loader.slot with
       | some _ => ({ s1 with loader := { s1.loader with waiting := false } } : State).request 0 0 s1.lcnt (tickDue s1.lcnt) 0 .loader
       | none => s1.setPhase 4)
    else s)

end Sys2Proof.Machine
end

