-- ==== Sys2Proof/Machine/RegAccess.lean ====
section
/-! DEFINITION. Accesses to BAR0 (spec/00, spec/01): what a function reaches, reads with their side effects, writes by access
code, half accesses, the broadcast window, commands; the SMBus target (R398). -/

namespace Sys2Proof.Machine

/-! ### What a function reaches (R27, R28, R204, R398) -/

/-- The SMBus target is a function of its own (R398). -/
def smbusFn : Nat := 64

/-- Queue contexts: the queue of an offset. -/
def ctxQ (off : Nat) : Option Nat := if 0xA00000 ≤ off ∧ off < 0xC00000 then some ((off - 0xA00000) / 0x800) else none

/-- A function reads the word at an offset: the physical function all, the SMBus target GLOBAL, LOG, TWIN and STO_STATUS, a
virtual function GLOBAL_ID, GLOBAL_STATE and its queue contexts. -/
def State.sees (s : State) (fn off : Nat) : Bool :=
  if fn = 0 then true
  else if fn = smbusFn then
    decide (off < 0x10000) || decide (0xF00000 ≤ off) || off == R.STO_STATUS
  else off == R.GLOBAL_ID || off == R.GLOBAL_STATE || (match ctxQ off with
    | some q => s.reaches fn q
    | none => false)

/-- A function writes the word at an offset. -/
def State.mayWrite (s : State) (fn off : Nat) : Bool :=
  fn == 0 || (match ctxQ off with
    | some q => decide (fn < 64) && s.reaches fn q
    | none => false)

/-! ### 64-bit registers (R5, R226) -/

/-- The word of a card that an offset names, and how many words the card has. -/
def Card.spot (c : Card) (off : Nat) : Option (Nat × Nat) :=
  if off < c.base then none
  else (Card.place c.dims c.words.length (off - c.base)).map (fun i => (i, c.words.length))

/-- Word index and word count of the register at an offset. -/
def spotAt (off : Nat) : Option (Nat × Nat) := cards.findSome? (fun c => c.spot off)

/-- The offset is the low half, or the high half, of a 64-bit register. -/
def isLow (off : Nat) : Bool := spotAt off == some (0, 2)
def isHigh (off : Nat) : Bool := spotAt off == some (1, 2)

/-! ### Reads (Table 0.5) -/

/-- STO_STAGE: whole KiB in the filling half and still to write from the draining half. -/
def State.stageWord (s : State) : Word :=
  BitVec.ofNat 32 (halfBits s.fillData s.stageFill / 8192 * 65536 + halfBits s.drainData s.stageDrain / 8192)

/-- The value of a word as a function sees it: RWS bits from the shadow set unless the active-set view is on (R355). LCNT and
the staging occupancy are live. A register of a lane that is no port reads 0 (R174; log entry 84). -/
def State.seen (s : State) (off : Nat) : Word :=
  let m := masksAt off
  if off = R.TIME_LCNT then BitVec.ofNat 32 s.lcnt
  else if off = R.STO_STAGE then s.stageWord
  else if off = R.TIME_LCNT + 4 then BitVec.ofNat 32 (s.lcnt / 4294967296)
  else
    let now := if portHere s.regs off then s.word off else 0
    if m.rws = 0 ∨ s.flag F.CFG_VIEW_ACTIVE then now
    else mixWord m.rws now (if portHere s.stagedModes off then s.shadowWord off else 0)

/-- RC bits clear after their read. -/
def State.readClear (s : State) (off : Nat) : State :=
  let m := (masksAt off).rc
  if m = 0 ∨ portHere s.regs off = false then s else { s with regs := Tab.set s.regs off (mixWord m (s.word off) 0) }

/-- A latched word for a function, when there is one. -/
def State.latched (s : State) (fn off : Nat) : Option Word := (s.latch.find? (fun p => p.1 == latchKey fn off)).map (fun p => p.2)

/-- One 32-bit read by a function: its answer, and what the read does. -/
def State.readWord (s : State) (fn off : Nat) : Word × State :=
  if s.sees fn off = false then (0, s)
  else if off = R.TIME_TXQ then s.txqRd fn
  else if off = R.LOG_RD then s.logRd fn
  else if off = R.LOG_FIRST ∨ off = R.LOG_LAST_ERR then s.captureRd fn off
  else match spotAt off with
    | some (0, 8) => (s.word off, s.histRd fn ((off - R.TIME_HIST 0) / 0x20))
    | some (0, 16) => (s.word off, s.evRead fn ((off - R.EVT_RES 0) / 0x100))
    | some (0, 2) =>
      (s.seen off, ({ s with latch := Tab.set s.latch (latchKey fn (off + 4)) (s.seen (off + 4)) } : State).readClear off)
    | some (1, 2) =>
      (match s.latched fn off with
       | some v => (v, ({ s with latch := s.latch.filter (fun p => p.1 != latchKey fn off) } : State).readClear off)
       | none => (s.seen off, s.readClear off))
    | some (_, 1) => (s.seen off, s.readClear off)
    | some _ => ((s.latched fn off).getD (s.word off), s)
    | none => (0, s)

/-- A read that is answered to the function. -/
def State.answer (s : State) (fn off : Nat) : State :=
  let r := s.readWord fn off
  r.2.emit (.read fn off [r.1])

/-- RC_COUNTER_READ (Table 0.5): the counter is answered and cleared. -/
def execRcCounterRead (fn : Fin 64) (off : Nat) (s : State) : Host.Outcome State Fault Refusal := .next (s.answer fn off)

/-- A read of 8 bytes: of a 64-bit register as one access, which leaves every latch as it is; otherwise of two words (R226). -/
def State.answer8 (s : State) (fn off : Nat) : State :=
  if isLow off then
    (if s.sees fn off then ((s.readClear off).readClear (off + 4)).emit (.read fn off [s.seen off, s.seen (off + 4)])
     else s.emit (.read fn off [0, 0]))
  else
    let a := s.readWord fn off
    let b := a.2.readWord fn (off + 4)
    b.2.emit (.read fn off [a.1, b.1])

/-- LOW_HALF_READ (R5, R226): the low half is answered, the high half latched for the function; or 8 bytes as one access. -/
def execLowHalfRead (fn : Fin 64) (x : HalfRead) (s : State) : Host.Outcome State Fault Refusal :=
  .next (if x.whole then s.answer8 fn x.off else if isLow x.off then s.answer fn x.off else s)

/-- TIME_HIST_READ (R271). -/
def execTimeHistRead (fn : Fin 64) (i : Fin 16) (s : State) : Host.Outcome State Fault Refusal := .next (s.answer fn (R.TIME_HIST i))

/-- TXQ_READ (R283). -/
def execTxqRead (fn : Fin 64) (s : State) : Host.Outcome State Fault Refusal := .next (s.answer fn R.TIME_TXQ)

/-- EVT_RES_READ (R308). -/
def execEvtResRead (fn : Fin 64) (k : Fin 8) (s : State) : Host.Outcome State Fault Refusal := .next (s.answer fn (R.EVT_RES k))

/-- LOG_RD_READ. -/
def execLogRdRead (fn : Fin 64) (s : State) : Host.Outcome State Fault Refusal := .next (s.answer fn R.LOG_RD)

/-- LOG_FIRST_READ: of LOG_FIRST, or of LOG_LAST_ERR. -/
def execLogFirstRead (fn : Fin 64) (last : Bool) (s : State) : Host.Outcome State Fault Refusal :=
  .next (s.answer fn (if last then R.LOG_LAST_ERR else R.LOG_FIRST))

/-! ### Commands: WO fields -/

/-- Bit i of a written word. -/
def wbit (v : Word) (i : Nat) : Bool := bitOf v.toNat i

/-- Apply f when c holds. -/
def State.onIf (s : State) (c : Bool) (f : State → State) : State := if c then f s else s

/-- A group's command words (R89, R92, R93, R122, R142). -/
def State.grpCommand (s : State) (a off : Nat) (v : Word) : State :=
  if 0x408000 ≤ off ∧ off < 0x409000 ∧ off % 0x100 = 0x60 then
    (let g := (off - 0x408000) / 0x100
     ((s.onIf (wbit v 0) (fun t => t.armWrite a g)).onIf (wbit v 1) (fun t => t.stopWrite a g)).onIf (wbit v 2)
       (fun t => t.forceWrite a g))
  else if 0x500000 ≤ off ∧ off < 0x501000 ∧ off % 0x100 = 0x3C then
    s.onIf (wbit v 0) (fun t => t.release ((off - 0x500000) / 0x100))
  else if 0x680000 ≤ off ∧ off < 0x680400 ∧ off % 0x40 = 0x18 then
    s.onIf (wbit v 0) (fun t => t.avgRestart ((off - 0x680000) / 0x40))
  else if 0x684000 ≤ off ∧ off < 0x684200 ∧ off % 0x40 = 0x18 then
    (let d := (off - 0x684000) / 0x40
     (s.onIf (wbit v 0) (fun t => t.dbClear d)).onIf (wbit v 1) (fun t => t.dbSnap d))
  else if 0xC80000 ≤ off ∧ off < 0xC80800 ∧ off % 0x100 = 0x18 then
    (let k := (off - 0xC80000) / 0x100
     (s.onIf (wbit v 1) (fun t => t.evStop k)).onIf (wbit v 0) (fun t => t.evStart a k))
  else if 0xD90000 ≤ off ∧ off < 0xD90C00 ∧ off % 0x40 = 0x0C then
    s.onIf (wbit v 0) (fun t => t.excRetry ((off - 0xD90000) / 0x40))
  else s

/-- Configuration commands (R355-R357, R362, R363). -/
def State.cfgCommand (s : State) (a off : Nat) (v : Word) : State :=
  let w := v.toNat
  if off = R.CFG_COMMIT then
    s.onIf (wbit v 0) (fun t => if w / 4 % 4 = 0 then t.reqTick a else t.hostRequest (w / 4 % 4) (w / 16 % 16) a)
  else if off = R.CFG_CMD then
    ((s.onIf (wbit v 0) (fun t => t.cancel a)).onIf (wbit v 1) State.revert).onIf (wbit v 2) (fun t => t.reload a (w / 16 % 2))
  else if off = R.CFG_FLASH_CMD then s.flashCmd (w % 4)
  else s

/-- Package commands: resets, log, twin, calibration, time, service die. -/
def State.pkgCommand (s : State) (a off : Nat) (v : Word) : State :=
  let w := v.toNat
  if off = R.GLOBAL_RESET then s.resetCmd (w / 256 % 256) (wbit v 1) (wbit v 0)
  else if off = R.GLOBAL_GRP_RESET then s.groupResetWrite (w % 65536)
  else if off = R.LOG_CMD then (s.onIf (wbit v 0) State.firstClear).onIf (wbit v 1) State.fatalClear
  else if off = R.TWIN_CMD then s.onIf (wbit v 0) State.handoverCmd
  else if off = R.CAL_FG_CMD then (s.onIf (wbit v 1) State.calAbort).onIf (wbit v 0) State.calStart
  else if off = R.TIME_SNAP_CMD then s.onIf (wbit v 0) (fun t => t.timeSnap a)
  else if off = R.TIME_STAGE_CMD then s.onIf (decide (w % 8 ≠ 0)) (fun t => t.stageTime a (wbit v 2) (wbit v 1) (wbit v 0))
  else if off = R.SVC_CMD then s.onIf (wbit v 0) State.excRestore
  else s

/-- The commands of a word with WO fields. A write to DMA_QC_CMD acts for the function that writes it (R222). -/
def State.command (s : State) (fn a off : Nat) (v : Word) : State :=
  match ctxQ off with
  | some q =>
    if off % 0x800 = 0x10 then
      ((s.onIf (wbit v 2) (fun t => t.abortCmd fn q)).onIf (wbit v 1) (fun t => t.resumeQ fn q)).onIf (wbit v 0) (fun t => t.startQ fn q)
    else s
  | none => ((s.grpCommand a off v).cfgCommand a off v).pkgCommand a off v

/-! ### Writes (Table 0.5) -/

/-- Bits written as 1 clear (W1C); relay drivers come back with theirs (R341). -/
def State.w1cWord (s : State) (off : Nat) (v : Word) : State :=
  let m := (masksAt off).w1c
  if m = 0 ∨ portHere s.regs off = false then s
  else if off = R.SVC_RLY_OC then s.rlyOcClear v.toNat
  else if 0xD90000 ≤ off ∧ off < 0xD90C00 ∧ off % 0x40 = 8 ∧ bitOf v.toNat 1 then
    ({ s with regs := Tab.set s.regs off (s.word off &&& ~~~(v &&& BitVec.ofNat 32 m)) } : State).excRelog ((off - 0xD90000) / 0x40)
  else { s with regs := Tab.set s.regs off (s.word off &&& ~~~(v &&& BitVec.ofNat 32 m)) }

/-- The shadow set takes writes: no commit is pending and the active-set view is off (R355, R357). -/
def State.shadowOpen (s : State) : Bool := s.commit.isNone && !s.flag F.CFG_VIEW_ACTIVE

/-- A write to RWS fields that is ignored (R355, R357). -/
def State.wrIgnored (s : State) : State :=
  let s1 := s.incSat F.CFG_WR_IGN_CNT_COUNT
  if s.commit.isSome then s1.setF F.CFG_STATUS_WR_IGNORED else s1

/-- The RWS bits of the words of one write. -/
def State.rwsWrite (s : State) (l : List (Nat × Word)) : State :=
  if l.all (fun p => (masksAt p.1).rws == 0) then s
  else if s.shadowOpen then l.foldl (fun t p => t.rwsWord p.1 p.2) s
  else s.wrIgnored

/-- One write by a function in core cycle a, as words with their values. -/
def State.writeWords (s0 : State) (fn a : Nat) (l0 : List (Nat × Word)) : State :=
  let s := s0.at_ a
  let l := l0.filter (fun p => s.mayWrite fn p.1)
  let s1 := l.foldl (fun t p => (t.rwWord a p.1 p.2).w1cWord p.1 p.2) s
  let s2 := s1.rwsWrite l
  l.foldl (fun t p => if (masksAt p.1).wo = 0 then t else t.command fn a p.1 p.2) s2

/-- A write into the broadcast window goes to the same offset of every masked channel's block (R72). -/
def State.bcast (s : State) (off : Nat) : List Nat :=
  (bitsSet 48 (s.getN R.FLT_BCAST_MASK 2)).map (fun n => 0x300000 + 0x1000 * n + (off - 0x331000))

/-- The offset lies in the broadcast window. -/
def inBcast (off : Nat) : Bool := decide (0x331000 ≤ off) && decide (off < 0x332000)

/-- FLT_BCAST_WRITE (R72). -/
def execFltBcastWrite (off : Nat) (v : BitVec 32) (s : State) : Host.Outcome State Fault Refusal :=
  .next (if inBcast off then s.writeWords 0 s.lcnt ((s.bcast off).map (fun o => (o, v))) else s)

/-- The low half that a function's earlier write left held. -/
def State.heldLow (s : State) (fn off : Nat) : Option Word := Tab.get none s.held (latchKey fn off)
def State.setHeld (s : State) (fn off : Nat) (v : Option Word) : State := { s with held := Tab.set s.held (latchKey fn off) v }

/-- The register at an offset has RW or RWS bits. -/
def hasRw (off : Nat) : Bool := (masksAt off).rw != 0 || (masksAt off).rws != 0

/-- A 4-byte write: of a whole register, or of a half of a 64-bit RW or RWS register (R226). -/
def State.write4 (s : State) (fn a off : Nat) (v : Word) : State :=
  if fn = 0 ∧ inBcast off then s.writeWords fn a ((s.bcast off).map (fun o => (o, v)))
  else if s.mayWrite fn off = false then s
  else if isLow off ∧ (hasRw off ∨ hasRw (off + 4)) then s.setHeld fn off (some v)
  else if isHigh off ∧ (hasRw (off - 4) ∨ hasRw off) then
    (match s.heldLow fn (off - 4) with
     | some l => (s.setHeld fn (off - 4) none).writeWords fn a [(off - 4, l), (off, v)]
     | none => s.writeWords fn a [(off, v)])
  else s.writeWords fn a [(off, v)]

/-- An 8-byte write: of a 64-bit register as one access, otherwise of two words (R226). -/
def State.write8 (s : State) (fn a off : Nat) (v hi : Word) : State :=
  if isLow off then (s.setHeld fn off none).writeWords fn a [(off, v), (off + 4, hi)]
  else (s.write4 fn a off v).write4 fn a (off + 4) hi

/-- REGISTER_WRITE (R6, Table 0.5): of 4 bytes, or of 8 bytes with the upper word. -/
def execRegisterWrite (fn : Fin 64) (a off : Nat) (v : BitVec 32) (hi : Option (BitVec 32)) (s : State) :
    Host.Outcome State Fault Refusal :=
  .next (match hi with
    | none => s.write4 fn a off v
    | some h => s.write8 fn a off v h)

/-- HALF_WRITE (R226): a half of a 64-bit RW or RWS register. -/
def execHalfWrite (fn : Fin 64) (off : Nat) (v : BitVec 32) (s : State) : Host.Outcome State Fault Refusal :=
  .next (if isLow off ∨ isHigh off then s.write4 fn s.lcnt off v else s)

/-- W1C_CLEAR (Table 0.5). -/
def execW1cClear (fn : Fin 64) (off : Nat) (v : BitVec 32) (s : State) : Host.Outcome State Fault Refusal :=
  .next (if s.mayWrite fn off then s.w1cWord off v else s)

/-- LOG_CLASS_WRITE (R393, R355, R357). -/
def execLogClassWrite (off : Nat) (v : BitVec 32) (s : State) : Host.Outcome State Fault Refusal :=
  .next (if 0xF01000 ≤ off ∧ off < 0xF05000 then s.rwsWrite [(off, v)] else s)

/-! ### SMBus (R398) -/

/-- SMBUS_BLOCK_WRITE: four bytes select an offset; four more write LOG_CMD there (log entry 6). -/
def execSmbusBlockWrite (bytes : List (BitVec 8)) (s : State) : Host.Outcome State Fault Refusal :=
  let off := leValue (bytes.take 4)
  let s1 : State := { s with smb := off }
  .next (if bytes.length = 4 then s1
    else if bytes.length = 8 then
      (if off = R.LOG_CMD then s1.pkgCommand s.lcnt off (BitVec.ofNat 32 (leValue (bytes.drop 4))) else s1)
    else s)

/-- Words read one after the other by the SMBus target. -/
def State.smbusWords (s : State) (off : Nat) : Nat → List Byte × State
  | 0 => ([], s)
  | n + 1 =>
    let r := s.readWord smbusFn off
    let t := r.2.smbusWords (off + 4) n
    (leBytes 4 r.1.toNat ++ t.1, t.2)

/-- SMBUS_BLOCK_READ: up to 32 bytes from the selected offset. -/
def execSmbusBlockRead (len : Nat) (s : State) : Host.Outcome State Fault Refusal :=
  let n := min len 32
  let r := s.smbusWords s.smb ((n + 3) / 4)
  .next (r.2.emit (.smbus (r.1.take n)))

end Sys2Proof.Machine
end

