-- ==== Sys2Proof/Machine/Boundary.lean ====
section
/-! DEFINITION. The tick boundary (R15): the staging half of the ended tick reaches the store, then commit, budget reset, store
scheduling, time publication, rotation and heartbeat, with what the other chapters do at every boundary. -/

namespace Sys2Proof.Machine

/-! ### The ended tick (R161-R163) -/

/-- Staged writes, oldest first, put into the store while so many bits of capacity are left; those left over. -/
def State.drainSome (s : State) : Nat → List StW → State × List StW
  | _, [] => (s, [])
  | cap, w :: ws => if w.n ≤ cap then (s.swriteBits w.addr w.n w.v).drainSome (cap - w.n) ws else (s, w :: ws)

/-- Bits of writes that take space of the part that can run full. -/
def costBits (ws : List StW) : Nat := (ws.map (fun w => w.cost)).sum

/-- Bytes that ACQ can have in a tick: everything but what REPAIR was served, which takes from ACQ last (R165). -/
def State.acqCap (s : State) : Nat := s.get F.STO_CTICK_BYTES - Tab.get 0 s.sto.served 6

/-- At boundary b the draining half has been written as far as the capacity went, and the halves change their parts: what is
left of it stands in the half that fills next (R161, R162). -/
def State.swapHalves (s : State) : State :=
  let caps := s.drainData - costBits s.stageDrain
  let room := 8 * s.acqCap - caps
  let d := s.drainSome room s.stageDrain.reverse
  let left := d.2.reverse
  let bits := halfBits s.drainData s.stageDrain - halfBits (costBits left) left
  { d.1 with
    stageFill := left
    fillData := costBits left
    stageDrain := s.stageFill
    drainData := s.fillData
    sto := { d.1.sto with served := Tab.set d.1.sto.served 5 (bits / 8) } }

/-- The last core cycle whose elements of channel n have been written at boundary b under a register set (R163): words that
arrived up to b - 2049, elements of a chain 24 core cycles later (R63). -/
def durableCh (r : RegTab) (n b : Nat) : Nat :=
  let f := chainCfg r n
  if f.direct then b - 2089
  else
    let m : Int := (f.n * (b - 2112) : Nat) - 1 - (f.mLast 0 : Nat)
    ((m / (f.d : Nat) + 1) * (f.d : Nat) / (f.n : Nat) - 1).toNat

/-- The durable mark of group g at boundary b: data that is staged and not yet written holds it back, be it left over or of
the tick just ended (R163). -/
def State.durableAt (s : State) (g b : Nat) : Nat :=
  let r := s.cfgAt (b - 2089)
  let l := (bitsSet 48 (chMask r g)).foldl (fun m n => min m (durableCh r n b)) (b - 2089)
  ((s.stageFill ++ s.stageDrain).filter (fun w => w.grp == g && w.cost != 0)).foldl (fun m w => min m (w.tag - 1)) l

/-- Durable marks advance at boundary b (R120, R163). -/
def State.markDurable (s : State) (b : Nat) : State :=
  (List.range 16).foldl (fun t g =>
    if chMask (t.cfgAt (b - 2089)) g = 0 then t
    else
      let m := max (t.grp g).durable (t.durableAt g b)
      ((t.setGrp g { t.grp g with durable := m }).putN (R.REC_GRP_DURABLE g) 2 m).pruneGaps g) s

/-- The tick that ends at boundary b: staged bytes, durable marks; what counts per tick in the log starts again (R394, R397). -/
def State.endTick (s : State) (b : Nat) : State :=
  let s1 := s.swapHalves.gapSyncAll.markDurable b
  { s1 with log := { s1.log with seen := [], signalled := false } }

/-! ### Steps 2 and 3 of R15 -/

/-- Budget reset: the grants of the ended tick are shown, per-tick counts restart. The scrubber's write-backs that wait are the
first that its W_scrub bytes of the new tick serve (R158, R165), and a running snapshot copy takes its 1024 bytes per core cycle
of the tally class (R146, R169). -/
def State.budgetReset (s : State) : State :=
  let s1 := (List.range 7).foldl (fun t k => t.put (F.STO_CLASS_GRANT_BYTES k) (Tab.get 0 s.sto.served k)) s
  let n := min s.sto.scrubQ.length (s.wScrub / 256)
  let copies := 2097152 * ((List.range 8).filter (fun d => match (s.db d).copy with
    | some c => decide (c.start < s.tick) && decide (s.tick < c.start + 4096)
    | none => false)).length
  { s1 with sto := { s1.sto with
    served := (if copies = 0 then [] else [(2, copies)]) ++ (if n = 0 then [] else [(4, 256 * n)])
    scrubQ := s.sto.scrubQ.drop n
    laneCrc := []
    badLink := [] } }

/-- Base weight of a class (R166). -/
def baseWeight : Nat → Nat
  | 0 => 8
  | 1 => 4
  | 2 => 2
  | 3 => 4
  | 4 => 1
  | _ => 0

/-- The committed term of a class in the set in force (Table 7.3). -/
def State.term (s : State) : Nat → Nat
  | 0 => wStm s.regs s.fenceMask
  | 1 => s.get F.STO_DMA_RESERVE_BYTES
  | 2 => wAba s.regs + ceilDiv (wAvg2 s.regs) 2 + wSnap s.regs
  | 3 => wRas s.regs
  | 4 => s.wScrub
  | _ => 0

/-- a_k: ticks that the oldest read of a class has waited at boundary b (R166). -/
def State.waited (s : State) (b k : Nat) : Nat :=
  (s.sto.reqs.filter (fun q => q.cls == k)).foldl (fun m q => max m (b / tickLen - q.since)) 0

/-- w_k at boundary b (R166). -/
def State.weight (s : State) (b k : Nat) : Nat :=
  if s.flag F.GLOBAL_STATE_HOST_POLICY then s.get ⟨R.STO_GOV_WEIGHT, 6 * k + 5, 6 * k⟩
  else baseWeight k * (1 + min 15 (s.waited b k))

/-- Step 3 of R165: the smaller of backlog and committed term; SCRUB always has backlog. -/
def State.commits (s : State) (k : Nat) : Nat := if k = 4 then s.wScrub else min (s.classBacklog k) (s.term k)

/-- What is left of the new tick after ACQ and REPAIR (R165, steps 1 and 2). -/
def State.afterRepair (s : State) : Nat :=
  s.get F.STO_CTICK_BYTES - (halfBits s.drainData s.stageDrain / 8 + s.classBacklog 6)

/-- The grant of a class (R165, steps 3 and 4). Where REPAIR has taken so much that the committed terms no longer fit, every
class loses in proportion (log entry 74). -/
def State.grantOf (s : State) (b k : Nat) : Nat :=
  let all := ((List.range 5).map s.commits).sum
  let room := s.afterRepair
  if room < all then s.commits k * room / all
  else
    let hungry := fun j => j == 4 || decide (s.commits j < s.classBacklog j)
    let ws := ((List.range 5).map (fun j => if hungry j then s.weight b j else 0)).sum
    s.commits k + (if hungry k ∧ ws ≠ 0 then (room - all) * s.weight b k / ws else 0)

/-- Store scheduling at boundary b: weights, waits and the grants of the new tick (R165, R166). SCRUB's backlog is the rest of
its pass. -/
def State.governor (s : State) (b : Nat) : State :=
  let s1 := (List.range 5).foldl (fun t k =>
    (t.put (F.STO_CLASS_STATE_WEIGHT k) (s.weight b k)).put (F.STO_CLASS_STATE_WAIT k) (min (s.waited b k) 0xFFFF)) s
  let rest := 256 * ((s.capPages - s.get F.STO_SCRUB_POS_PAGE) * 256 - s.sto.scrubSeen.length + s.sto.scrubQ.length)
  { s1.put (F.STO_CLASS_BACKLOG_BYTES 4) (min rest 0xFFFFFFFF) with
    sto := { s.sto with granted := (List.range 5).map (fun k => (k, s.grantOf b k)) } }

/-! ### What the boundary writes -/

/-- Entries of the log into the store copy, in sequence order (R391). -/
def State.copyEntries (s : State) (b : Nat) : List LogEnt → State
  | [] => s
  | e :: es => (s.stageBytes 16 b (65536 * s.get F.LOG_STORE_PAGE + 32 * (e.seq % 4096)) (leBytes 32 e.val)).copyEntries b es

/-- Up to 256 entries not yet copied are copied at boundary b (R391). -/
def State.logCopyOut (s : State) (b : Nat) : State :=
  let batch := (s.log.ring.take s.log.uncopied).reverse.take 256
  match batch.getLast? with
  | none => s
  | some e =>
    let s1 := s.copyEntries b batch
    { s1 with log := { s1.log with
      uncopied := min s.log.uncopied s.log.ring.length - batch.length
      copied := (b, (e.seq + 1) % 2 ^ 32) :: s1.log.copied.take 7 } }

/-- The control block of a gap ring (R120). -/
def State.gapBlock (s : State) (g : Nat) : List Byte :=
  let gr := s.grp g
  let body := packLE [(4, gr.gapIdx), (4, gr.gapOvf), (8, gr.durable), (8, s.getN (R.REC_GRP_NEXT_NUM g) 2), (8, gr.nextGap),
    (4, if gr.armed then 1 else 0)] ++ List.replicate 24 (0 : Byte)
  body ++ leBytes 4 (crc32c body)

/-- Every gap ring's control block is rewritten (R120). -/
def State.gapBlocks (s : State) (b : Nat) : State :=
  (usedGrps s.regs).foldl (fun t g =>
    t.stageBytes g b (65536 * t.get (F.REC_GRP_GAP_RING_PAGE g)) (t.gapBlock g)) s

/-- Stamp rings (R297, R298). -/
def State.stampRings (s : State) : State := (List.range 8).foldl (fun t k => t.evTick k) s

/-- The keeper saves LCNT and the next log sequence (R367). -/
def State.keeperSave (s : State) (b : Nat) : State :=
  { s with keeper := { s.keeper with lcntSave := b, seqSave := s.get F.LOG_WR_SEQ_SEQ } }

/-! ### The boundary -/

/-- Steps 1 to 4 of R15 at boundary b, and the log's store copy after them. -/
def State.tickOpen (s : State) (b inHigh : Nat) : State :=
  let s1 := ((((s.endTick b).calAbortAt b).commitAtB b inHigh).budgetReset.governor b).captures b
  ((s1.servoUpdate b).publishTime b).logCopyOut b

/-- Step 5 of R15, the service die's frame, arming by an image, pairing, and step 6. -/
def State.tickClose (s : State) (b : Nat) : State :=
  let s1 := (List.range 48).foldl (fun t n => t.rotate n b) s
  let s2 := ((((s1.svcSend b).armSection b).twinTick b).stampRings).gapBlocks b
  let s3 := s2.streams.foldl (fun t q => t.showStrm q) (s2.calPurge b)
  (s3.keeperSave b).heartbeat b

/-- The fabric counts: no reset is held and VDD_CORE is present. -/
def State.running (s : State) : Bool := !s.pwr.coreLoss && !s.pwr.thermalHold

/-- The next tick boundary. -/
def State.boundary (s : State) (inHigh : Nat) : State :=
  let b := s.nextTick
  let s0 : State := { s.at_ b with tick := b }
  (s0.skipsDue.tickOpen b inHigh).tickClose b

/-- TICK_BOUNDARY (R15). inHigh holds the comparator inputs above their levels at the boundary: 288 analogue, then 192 digital
(R74, R75). -/
def execTickBoundary (inHigh : Nat) (s : State) : Host.Outcome State Fault Refusal :=
  .next (if s.running then s.boundary inHigh else s)

end Sys2Proof.Machine
end

