-- ==== Sys2Proof/Machine/Scan.lean ====
section
/-! DEFINITION. The scan port (spec/19, R407): the controller of IEEE 1149.1, IDCODE and BYPASS. -/

namespace Sys2Proof.Machine

/-- The controller's next state: 0 Test-Logic-Reset, 1 Run-Test/Idle, 2-8 the data column, 9-15 the instruction column. -/
def tapNext (st : Nat) (tms : Bool) : Nat :=
  match st with
  | 0 => if tms then 0 else 1
  | 1 => if tms then 2 else 1
  | 2 => if tms then 9 else 3
  | 3 => if tms then 5 else 4
  | 4 => if tms then 5 else 4
  | 5 => if tms then 8 else 6
  | 6 => if tms then 7 else 6
  | 7 => if tms then 8 else 4
  | 8 => if tms then 2 else 1
  | 9 => if tms then 0 else 10
  | 10 => if tms then 12 else 11
  | 11 => if tms then 12 else 11
  | 12 => if tms then 15 else 13
  | 13 => if tms then 14 else 13
  | 14 => if tms then 15 else 11
  | _ => if tms then 2 else 1

/-- The instruction register's length and the IDCODE instruction: the spec lists neither (log entry 52). -/
def irLen : Nat := max 2 (Config.irLength 0).toNat
def irIdcode : List Bool := bitsOf irLen (Config.irIdcode 0).toNat

/-- The data register that a capture loads: IDCODE, the bypass bit, or a register whose content is open. -/
def dataReg (ir : List Bool) : Option (List Bool) :=
  if ir = irIdcode then some (bitsOf 32 0x248322A5)
  else if ir.all (fun b => b) then some [false]
  else none

/-- A shift register moves by one: the bit that leaves and the rest with tdi behind. -/
def shiftBit (l : List Bool) (tdi : Bool) : Option (Bool × List Bool) :=
  match l with
  | b :: rest => some (b, rest ++ [tdi])
  | [] => none

/-- A bit leaves on TDO. -/
def State.tdo (s : State) (b : Bool) : State := s.emit (.pin 2 b)

/-- What the controller does in its state at a rising edge of TCK. -/
def State.tapAct (s : State) (tdi : Bool) : State :=
  let t := s.tap
  match t.st with
  | 0 => { s with tap := { t with ir := irIdcode } }
  | 3 => { s with tap := { t with drSh := (dataReg t.ir).getD [] } }
  | 4 => (match shiftBit t.drSh tdi with
    | some (b, l) => ({ s with tap := { t with drSh := l } } : State).tdo b
    | none =>
      let d := s.draw 1
      d.2.tdo (d.1 == 1))
  | 10 => (let d := s.draw 64
    { d.2 with tap := { t with irSh := true :: false :: bitsOf (irLen - 2) d.1 } })
  | 11 => (match shiftBit t.irSh tdi with
    | some (b, l) => ({ s with tap := { t with irSh := l } } : State).tdo b
    | none => s)
  | 15 => { s with tap := { t with ir := t.irSh } }
  | _ => s

/-- SCAN_ACCESS: one cycle of TCK. -/
def execScanAccess (tms tdi : Bool) (s : State) : Host.Outcome State Fault Refusal :=
  let s1 := s.tapAct tdi
  .next { s1 with tap := { s1.tap with st := tapNext s.tap.st tms } }

end Sys2Proof.Machine
end

