-- ==== Sys2Proof/Machine/Dispatch.lean ====
section
/-! DEFINITION. Which meaning each command has: one arm per constructor of Instr. -/

namespace Sys2Proof.Machine

def exec (i : Instr) (s : State) : Host.Outcome State Fault Refusal :=
  match i with
  | .tickBoundary inHigh => Sys2Proof.Machine.execTickBoundary inHigh s
  | .commitReqTick a => Sys2Proof.Machine.execCommitReqTick a s
  | .commitReqRecord a g => Sys2Proof.Machine.execCommitReqRecord a g s
  | .commitReqAt a => Sys2Proof.Machine.execCommitReqAt a s
  | .commitApply inHigh => Sys2Proof.Machine.execCommitApply inHigh s
  | .cfgCancel a => Sys2Proof.Machine.execCfgCancel a s
  | .cfgRevert => Sys2Proof.Machine.execCfgRevert s
  | .cfgReload a slot => Sys2Proof.Machine.execCfgReload a slot s
  | .flashRead => Sys2Proof.Machine.execFlashRead s
  | .flashProgram => Sys2Proof.Machine.execFlashProgram s
  | .flashErase4k => Sys2Proof.Machine.execFlashErase4k s
  | .flashErase64k => Sys2Proof.Machine.execFlashErase64k s
  | .flashCommandDone ok => Sys2Proof.Machine.execFlashCommandDone ok s
  | .registerWrite fn a off v hi => Sys2Proof.Machine.execRegisterWrite fn a off v hi s
  | .w1cClear fn off v => Sys2Proof.Machine.execW1cClear fn off v s
  | .rcCounterRead fn off => Sys2Proof.Machine.execRcCounterRead fn off s
  | .lowHalfRead fn x => Sys2Proof.Machine.execLowHalfRead fn x s
  | .halfWrite fn off v => Sys2Proof.Machine.execHalfWrite fn off v s
  | .sampleWordDelivery q c words => Sys2Proof.Machine.execSampleWordDelivery q c words s
  | .clampTrip n c => Sys2Proof.Machine.execClampTrip n c s
  | .clampRelease n c => Sys2Proof.Machine.execClampRelease n c s
  | .rotationStepDue n => Sys2Proof.Machine.execRotationStepDue n s
  | .trimEstimate n est => Sys2Proof.Machine.execTrimEstimate n est s
  | .slotMonitorCheck n => Sys2Proof.Machine.execSlotMonitorCheck n s
  | .spareTakeover n => Sys2Proof.Machine.execSpareTakeover n s
  | .fltDcFreezeWrite a n freeze => Sys2Proof.Machine.execFltDcFreezeWrite a n freeze s
  | .fltBcastWrite off v => Sys2Proof.Machine.execFltBcastWrite off v s
  | .filterOutput n => Sys2Proof.Machine.execFilterOutput n s
  | .analogCrossing n c rising => Sys2Proof.Machine.execAnalogCrossing n c rising s
  | .interpolatorMeasurement ch idx nm n1 n2 => Sys2Proof.Machine.execInterpolatorMeasurement ch idx nm n1 n2 s
  | .interpolatorIdleRefresh c ch idx n1 n2 => Sys2Proof.Machine.execInterpolatorIdleRefresh c ch idx n1 n2 s
  | .interpolatorSpareSwap ch idx => Sys2Proof.Machine.execInterpolatorSpareSwap ch idx s
  | .digitalCrossing m => Sys2Proof.Machine.execDigitalCrossing m s
  | .candidateDecision g => Sys2Proof.Machine.execCandidateDecision g s
  | .timeoutExpiry g => Sys2Proof.Machine.execTimeoutExpiry g s
  | .patternDurationReached g => Sys2Proof.Machine.execPatternDurationReached g s
  | .sequenceAExpiry g => Sys2Proof.Machine.execSequenceAExpiry g s
  | .arm a g => Sys2Proof.Machine.execArm a g s
  | .armTakesEffect g => Sys2Proof.Machine.execArmTakesEffect g s
  | .stop a g => Sys2Proof.Machine.execStop a g s
  | .stopTakesEffect g => Sys2Proof.Machine.execStopTakesEffect g s
  | .force a g => Sys2Proof.Machine.execForce a g s
  | .fillComplete g => Sys2Proof.Machine.execFillComplete g s
  | .recordSpanEnd g => Sys2Proof.Machine.execRecordSpanEnd g s
  | .rearmEnd g => Sys2Proof.Machine.execRearmEnd g s
  | .continuousRecordOpen g => Sys2Proof.Machine.execContinuousRecordOpen g s
  | .slotFreed g => Sys2Proof.Machine.execSlotFreed g s
  | .recordRelease g => Sys2Proof.Machine.execRecordRelease g s
  | .finalHeaderWrite g => Sys2Proof.Machine.execFinalHeaderWrite g s
  | .abacusTrailerWrite => Sys2Proof.Machine.execAbacusTrailerWrite s
  | .averageAdd g => Sys2Proof.Machine.execAverageAdd g s
  | .talAvgRestart g => Sys2Proof.Machine.execTalAvgRestart g s
  | .hitWaveformDraw => Sys2Proof.Machine.execHitWaveformDraw s
  | .decayDue d => Sys2Proof.Machine.execDecayDue d s
  | .decaySweepEnd d => Sys2Proof.Machine.execDecaySweepEnd d s
  | .snapshotDue d => Sys2Proof.Machine.execSnapshotDue d s
  | .talDbSnap d => Sys2Proof.Machine.execTalDbSnap d s
  | .snapshotCopyStart d => Sys2Proof.Machine.execSnapshotCopyStart d s
  | .snapshotCopyEnd d => Sys2Proof.Machine.execSnapshotCopyEnd d s
  | .talDbClear d => Sys2Proof.Machine.execTalDbClear d s
  | .dbClearApply d => Sys2Proof.Machine.execDbClearApply d s
  | .storeReadBurst cls addr crcFails ecc => Sys2Proof.Machine.execStoreReadBurst cls addr crcFails ecc s
  | .rowRepairSwitch pc row => Sys2Proof.Machine.execRowRepairSwitch pc row s
  | .laneSpareReplace pc => Sys2Proof.Machine.execLaneSpareReplace pc s
  | .stackFailure stk c => Sys2Proof.Machine.execStackFailure stk c s
  | .portLinkUp p => Sys2Proof.Machine.execPortLinkUp p s
  | .portLinkDown p => Sys2Proof.Machine.execPortLinkDown p s
  | .fecUncorrectableCodeword p => Sys2Proof.Machine.execFecUncorrectableCodeword p s
  | .fecPortFailure p lane => Sys2Proof.Machine.execFecPortFailure p lane s
  | .rxBadFcs p => Sys2Proof.Machine.execRxBadFcs p s
  | .rxPauseFrame a p quanta => Sys2Proof.Machine.execRxPauseFrame a p quanta s
  | .rxPfcFrame a p enable times => Sys2Proof.Machine.execRxPfcFrame a p enable times s
  | .pauseExpiry p prio => Sys2Proof.Machine.execPauseExpiry p prio s
  | .pauseLong p => Sys2Proof.Machine.execPauseLong p s
  | .rxArpRequest p target senderIp senderMac => Sys2Proof.Machine.execRxArpRequest p target senderIp senderMac s
  | .rxNeighbourSolicitation p target sender senderMac => Sys2Proof.Machine.execRxNeighbourSolicitation p target sender senderMac s
  | .rxFrameDropped p => Sys2Proof.Machine.execRxFrameDropped p s
  | .timeMarkerDue q => Sys2Proof.Machine.execTimeMarkerDue q s
  | .streamPacketForm q => Sys2Proof.Machine.execStreamPacketForm q s
  | .packetTransmitDone p => Sys2Proof.Machine.execPacketTransmitDone p s
  | .pcieConfigRequest x => Sys2Proof.Machine.execPcieConfigRequest x s
  | .bar2Read fn off len => Sys2Proof.Machine.execBar2Read fn off len s
  | .bar2Write fn off => Sys2Proof.Machine.execBar2Write fn off s
  | .doorbell fn x => Sys2Proof.Machine.execDoorbell fn x s
  | .queueStart fn q => Sys2Proof.Machine.execQueueStart fn q s
  | .queueResume fn q => Sys2Proof.Machine.execQueueResume fn q s
  | .queueAbort fn q => Sys2Proof.Machine.execQueueAbort fn q s
  | .descriptorFetch q bytes => Sys2Proof.Machine.execDescriptorFetch q bytes s
  | .descNop q => Sys2Proof.Machine.execDescNop q s
  | .descRead q => Sys2Proof.Machine.execDescRead q s
  | .descCopy q => Sys2Proof.Machine.execDescCopy q s
  | .descRecord q => Sys2Proof.Machine.execDescRecord q s
  | .descRelease q => Sys2Proof.Machine.execDescRelease q s
  | .readbackCompletion q => Sys2Proof.Machine.execReadbackCompletion q s
  | .completionTimeout x => Sys2Proof.Machine.execCompletionTimeout x s
  | .completionUr x => Sys2Proof.Machine.execCompletionUr x s
  | .functionLevelReset f => Sys2Proof.Machine.execFunctionLevelReset f s
  | .pcieFunctionReset => Sys2Proof.Machine.execPcieFunctionReset s
  | .hotPlug => Sys2Proof.Machine.execHotPlug s
  | .linkTrainingDone ok => Sys2Proof.Machine.execLinkTrainingDone ok s
  | .vblankStart => Sys2Proof.Machine.execVblankStart s
  | .frameDone => Sys2Proof.Machine.execFrameDone s
  | .rasterLineStart line => Sys2Proof.Machine.execRasterLineStart line s
  | .rasterFetchBurst layer row spoiled => Sys2Proof.Machine.execRasterFetchBurst layer row spoiled s
  | .refinLost c lastGood => Sys2Proof.Machine.execRefinLost c lastGood s
  | .refinRestored c => Sys2Proof.Machine.execRefinRestored c s
  | .clkbypLost c uncounted => Sys2Proof.Machine.execClkbypLost c uncounted s
  | .ocxoRdyFall => Sys2Proof.Machine.execOcxoRdyFall s
  | .ocxoRdyRise => Sys2Proof.Machine.execOcxoRdyRise s
  | .searchStep up => Sys2Proof.Machine.execSearchStep up s
  | .loopLock x => Sys2Proof.Machine.execLoopLock x s
  | .loopUnlock c x => Sys2Proof.Machine.execLoopUnlock c x s
  | .fabricToBypass => Sys2Proof.Machine.execFabricToBypass s
  | .fabricReturn => Sys2Proof.Machine.execFabricReturn s
  | .oscillatorStop c uncounted => Sys2Proof.Machine.execOscillatorStop c uncounted s
  | .servoUpdate => Sys2Proof.Machine.execServoUpdate s
  | .ptpSyncRx p seq t origin twoStep => Sys2Proof.Machine.execPtpSyncRx p seq t origin twoStep s
  | .ptpMessageRx p msg => Sys2Proof.Machine.execPtpMessageRx p msg s
  | .ptpEventTx p typ seq t => Sys2Proof.Machine.execPtpEventTx p typ seq t s
  | .announceReceiptTimeout p => Sys2Proof.Machine.execAnnounceReceiptTimeout p s
  | .keeperSecondsLoad => Sys2Proof.Machine.execKeeperSecondsLoad s
  | .timeSnap a => Sys2Proof.Machine.execTimeSnap a s
  | .stagePeriod a => Sys2Proof.Machine.execStagePeriod a s
  | .stageOffsetAdd a => Sys2Proof.Machine.execStageOffsetAdd a s
  | .stageOffsetAbs a => Sys2Proof.Machine.execStageOffsetAbs a s
  | .stagedTimeApply => Sys2Proof.Machine.execStagedTimeApply s
  | .timeHistRead fn idx => Sys2Proof.Machine.execTimeHistRead fn idx s
  | .txqRead fn => Sys2Proof.Machine.execTxqRead fn s
  | .eventEdge k c rising => Sys2Proof.Machine.execEventEdge k c rising s
  | .eventStamp k idx nm => Sys2Proof.Machine.execEventStamp k idx nm s
  | .eventInterpCalRun k idx n1 n2 => Sys2Proof.Machine.execEventInterpCalRun k idx n1 n2 s
  | .evtStart a k => Sys2Proof.Machine.execEvtStart a k s
  | .evtMeasurementStart k codes => Sys2Proof.Machine.execEvtMeasurementStart k codes s
  | .evtStop k => Sys2Proof.Machine.execEvtStop k s
  | .intervalResult k => Sys2Proof.Machine.execIntervalResult k s
  | .statsResult k => Sys2Proof.Machine.execStatsResult k s
  | .freqGateEnd k => Sys2Proof.Machine.execFreqGateEnd k s
  | .evtResRead fn k => Sys2Proof.Machine.execEvtResRead fn k s
  | .calStart => Sys2Proof.Machine.execCalStart s
  | .calAbort => Sys2Proof.Machine.execCalAbort s
  | .calRunStart die => Sys2Proof.Machine.execCalRunStart die s
  | .calRelease die res => Sys2Proof.Machine.execCalRelease die res s
  | .calSettleEnd die => Sys2Proof.Machine.execCalSettleEnd die s
  | .calSaveDone ok => Sys2Proof.Machine.execCalSaveDone ok s
  | .driftAdvisorySet k temp => Sys2Proof.Machine.execDriftAdvisorySet k temp s
  | .driftAdvisoryClear k temp => Sys2Proof.Machine.execDriftAdvisoryClear k temp s
  | .driftRunRequest k => Sys2Proof.Machine.execDriftRunRequest k s
  | .calSchedPeriod => Sys2Proof.Machine.execCalSchedPeriod s
  | .svcFrameApply repeated => Sys2Proof.Machine.execSvcFrameApply repeated s
  | .svcSafeEntry => Sys2Proof.Machine.execSvcSafeEntry s
  | .svcFence => Sys2Proof.Machine.execSvcFence s
  | .excCompliance n => Sys2Proof.Machine.execExcCompliance n s
  | .excComplianceClear n => Sys2Proof.Machine.execExcComplianceClear n s
  | .excOpenLoad n => Sys2Proof.Machine.execExcOpenLoad n s
  | .excShort n => Sys2Proof.Machine.execExcShort n s
  | .excRetry n => Sys2Proof.Machine.execExcRetry n s
  | .excTrip => Sys2Proof.Machine.execExcTrip s
  | .excRestore => Sys2Proof.Machine.execExcRestore s
  | .relayOvercurrent r => Sys2Proof.Machine.execRelayOvercurrent r s
  | .relayOpenLoad r => Sys2Proof.Machine.execRelayOpenLoad r s
  | .rlyOcClear v => Sys2Proof.Machine.execRlyOcClear v s
  | .monitorConversion reading start => Sys2Proof.Machine.execMonitorConversion reading start s
  | .powerOn keeperGood => Sys2Proof.Machine.execPowerOn keeperGood s
  | .imageLoad sfdpOk errA errB otpOk => Sys2Proof.Machine.execImageLoad sfdpOk errA errB otpOk s
  | .selfTest fails => Sys2Proof.Machine.execSelfTest fails s
  | .selfTestDone => Sys2Proof.Machine.execSelfTestDone s
  | .armSectionArming => Sys2Proof.Machine.execArmSectionArming s
  | .resetNAssert us => Sys2Proof.Machine.execResetNAssert us s
  | .resetColdCmd key => Sys2Proof.Machine.execResetColdCmd key s
  | .resetWarmCmd key => Sys2Proof.Machine.execResetWarmCmd key s
  | .warmReset cause => Sys2Proof.Machine.execWarmReset cause s
  | .coreLoss => Sys2Proof.Machine.execCoreLoss s
  | .coreLossRestart => Sys2Proof.Machine.execCoreLossRestart s
  | .storeRailLoss => Sys2Proof.Machine.execStoreRailLoss s
  | .supplyWarningStart rail c => Sys2Proof.Machine.execSupplyWarningStart rail c s
  | .supplyWarningEnd rail c => Sys2Proof.Machine.execSupplyWarningEnd rail c s
  | .supplyStateCheck outcome => Sys2Proof.Machine.execSupplyStateCheck outcome s
  | .thermalWarning die => Sys2Proof.Machine.execThermalWarning die s
  | .thermalReset die => Sys2Proof.Machine.execThermalReset die s
  | .thermalRelease => Sys2Proof.Machine.execThermalRelease s
  | .groupReset mask => Sys2Proof.Machine.execGroupReset mask s
  | .groupResetApply g => Sys2Proof.Machine.execGroupResetApply g s
  | .wakeAlarm => Sys2Proof.Machine.execWakeAlarm s
  | .wakeRelease => Sys2Proof.Machine.execWakeRelease s
  | .mirrorFrameRx frame => Sys2Proof.Machine.execMirrorFrameRx frame s
  | .heartbeatRx a p => Sys2Proof.Machine.execHeartbeatRx a p s
  | .handoverRx a p => Sys2Proof.Machine.execHandoverRx a p s
  | .echoDue => Sys2Proof.Machine.execEchoDue s
  | .echoRx a sent => Sys2Proof.Machine.execEchoRx a sent s
  | .echoReplyRx a sent turn => Sys2Proof.Machine.execEchoReplyRx a sent turn s
  | .takeover => Sys2Proof.Machine.execTakeover s
  | .handover => Sys2Proof.Machine.execHandover s
  | .handoverSend => Sys2Proof.Machine.execHandoverSend s
  | .firstClr => Sys2Proof.Machine.execFirstClr s
  | .fatalClr ended => Sys2Proof.Machine.execFatalClr ended s
  | .logClassWrite off v => Sys2Proof.Machine.execLogClassWrite off v s
  | .logRdRead fn => Sys2Proof.Machine.execLogRdRead fn s
  | .logFirstRead fn last => Sys2Proof.Machine.execLogFirstRead fn last s
  | .smbusBlockWrite bytes => Sys2Proof.Machine.execSmbusBlockWrite bytes s
  | .smbusBlockRead len => Sys2Proof.Machine.execSmbusBlockRead len s
  | .scanAccess tms tdi => Sys2Proof.Machine.execScanAccess tms tdi s
  | .supplyFault rail c => Sys2Proof.Machine.execSupplyFault rail c s
  | .clkbypRestored c => Sys2Proof.Machine.execClkbypRestored c s
  | .dpHpdFall => Sys2Proof.Machine.execDpHpdFall s
  | .acceptStepWrite => Sys2Proof.Machine.execAcceptStepWrite s
  | .ptpAnnounceTx p => Sys2Proof.Machine.execPtpAnnounceTx p s

end Sys2Proof.Machine
end

