-- ==== Sys2Proof/Safety.lean ====
section
/-! DEFINITION. What a safe run is: every command that waits is well formed, and a step that is taken answers a state. -/

namespace Sys2Proof.Safety

open Sys2Proof.Machine

/-- Every waiting command is well formed. -/
def queueOk (s : State) : Bool := s.pending.all wellFormed

/-- A step answers a state: neither fault nor refusal. -/
def goes (o : Host.Outcome State Fault Refusal) : Prop := ∃ t, o = .next t

/-- The step from s answers a state. -/
def stepGoes (s : State) : Prop := goes (step s)

/-- n steps from s answer a state each. -/
def runGoes : Nat → State → Prop
  | 0, _ => True
  | n + 1, s => ∃ t, step s = .next t ∧ runGoes n t

/-! ### What a command leaves alone -/

/-- A whole register word as a field. -/
def wordFld (off : Nat) : Fld := ⟨off, 31, 0⟩

/-- n register words from an offset on. -/
def wideFlds (off n : Nat) : List Fld := (List.range n).map (fun i => wordFld (off + 4 * i))

/-- Every register field that shares no bit with the fields of a list reads the same in both states. -/
def onlyFields (fs : List Fld) (s t : State) : Prop := ∀ g : Fld, g.ok → (∀ f ∈ fs, f.apart g) → t.get g = s.get g

/-- The registers a log entry may change (R391, R394-R396). -/
def logFlds : List Fld :=
  wordFld R.LOG_STATUS :: wordFld R.LOG_WR_SEQ :: wordFld R.LOG_OVF_CNT :: wordFld R.LOG_NEST_CNT ::
    wordFld R.LOG_SUPPR_CNT :: (wideFlds R.LOG_FIRST 8 ++ wideFlds R.LOG_LAST_ERR 8)

/-- Of everything but the log's registers, only the log's own state, what leaves the block (or pends in the MSI-X table) and the
handover that a FATAL entry asks for may differ. -/
def onlyLog (s t : State) : Prop :=
  onlyFields logFlds s t ∧ t = { s with regs := t.regs, log := t.log, out := t.out, twin := t.twin, msix := t.msix }

/-- The registers a gap descriptor of group g and its open gaps may change (R119, R120). -/
def gapFlds (g : Nat) : List Fld :=
  [F.REC_GRP_STATUS_GAP_OVF g, F.REC_GRP_GAP_OVF_CNT_COUNT g, F.REC_GRP_STATUS_GAP_OPEN g] ++ wideFlds (R.REC_GRP_GAP_OPEN g) 2

/-- The registers that follow the slots of group g (R122, R123). -/
def ringFlds (g : Nat) : List Fld :=
  [F.REC_GRP_STATUS_PRESSURE g, F.REC_GRP_OLDEST_EMPTY g, F.REC_GRP_OLDEST_LPAGE g]

/-- Every byte of the store reads the same in both states. -/
def storeSame (s t : State) : Prop := ∀ a, t.sread a = s.sread a

/-- Every byte of the flash reads the same in both states. -/
def flashSame (s t : State) : Prop := ∀ a, Mem.read 0xFF t.flash a = Mem.read 0xFF s.flash a

/-- Both memories read the same. -/
def memSame (s t : State) : Prop := storeSame s t ∧ flashSame s t

/-- The registers change in the listed fields only; no byte of memory and no waiting command changes. -/
def changesOnly (fs : List Fld) (s t : State) : Prop := onlyFields fs s t ∧ memSame s t ∧ t.pending = s.pending

/-- The two memories are in canonical form and every waiting command is well formed. -/
def Inv (s : State) : Prop := Mem.wf 0 s.store = true ∧ Mem.wf 0xFF s.flash = true ∧ queueOk s = true

end Sys2Proof.Safety
end

