-- ==== Sys2Proof/Certificates/Slice0/Obligations.lean ====
section
/-! DEFINITION. The statements of this model, for the provers. Each says of its commands when they complete and with what effect, and
what they leave alone. -/

open Sys2Proof Sys2Proof.Machine Sys2Proof.Safety

/-! ### The block as a whole -/

/-- A step takes the command at the front of the queue and runs it with the rest waiting; with none waiting the fabric counts one core
cycle (log entry 1, the model's choice), and no word spells a command (log entry 4, the model's choice). -/
def Obligations.StepRunsTheFrontCommand : Prop :=
  (∀ (c : Instr) (s : State), step { s with pending := c :: s.pending } = exec c s) ∧
  (∀ (c : Instr) (rest : List Instr) (s : State), s.pending = c :: rest → step s = exec c { s with pending := rest }) ∧
  (∀ s : State, s.pending = [] → step s = .next { s with lcnt := s.lcnt + 1 }) ∧
  (∀ (n w : Nat) (s : State), s.withFetchWord n w = s)

/-- Every command of the table answers a next state when its operand lists have the lengths, and its samples the ten bits, that the spec
gives them, whatever the state; a command of another shape is the one fault; nothing is refused; no command adds to the queue or takes from it, so that commands are
served first in, first out; and a run over a well-formed queue never stops, however long it is and from whatever state it starts. -/
def Obligations.WellFormedRunsNeverStop : Prop :=
  (∀ (c : Instr) (s : State), wellFormed c = true → goes (exec c s)) ∧
  (∀ (c : Instr) (s : State), wellFormed c = false → ∃ what, exec c s = .fault (.illFormed what)) ∧
  (∀ (c : Instr) (s : State) (r : Refusal), exec c s ≠ .refused r) ∧
  (∀ (c : Instr) (s t : State), exec c s = .next t → t.pending = s.pending) ∧
  (∀ s t : State, queueOk s = true → step s = .next t → queueOk t = true ∧ t.pending = s.pending.drop 1) ∧
  (∀ (n : Nat) (s : State), queueOk s = true → runGoes n s)

/-- Right after reset every register reads its reset value and none has another, LCNT and the queue stand at their start, no group is
armed, nothing waits, and both memories are in canonical form with nothing listed (R9, R371). What an unlisted byte reads as is the
model's choice (log entry 3). -/
def Obligations.ResetLeavesResetValues : Prop :=
  (∀ off, State.reset.word off = resetWord off ∧ State.reset.shadowWord off = resetWord off) ∧
  State.reset.lcnt = 0 ∧ State.reset.pending = [] ∧ State.reset.commit = none ∧ State.reset.cfgReady = false ∧
  (∀ g, (State.reset.grp g).armed = false) ∧ State.reset.get F.GLOBAL_STATE_PHASE = 0 ∧
  State.reset.get F.GLOBAL_RESET_CAUSE_CAUSE = 1 ∧ State.reset.get F.GLOBAL_PWR_CYCLES_COUNT = 1 ∧
  (∀ a, State.reset.sread a = 0 ∧ Mem.read 0xFF State.reset.flash a = 0xFF) ∧ Inv State.reset

/-- Only the commands that carry samples, a moved window, measured blocks, copies, drained staging or a reset into the store may change
one of its bytes, and only the completion of a flash command or of a calibration save may change one of the flash (R347). -/
def Obligations.FewCommandsWriteTheMemories : Prop :=
  ∀ (c : Instr) (s t : State), exec c s = .next t →
    (match c with
      | .abacusTrailerWrite .. | .averageAdd .. | .snapshotCopyStart .. | .snapshotCopyEnd .. | .armTakesEffect .. | .armSectionArming
      | .takeover .. | .candidateDecision .. | .rearmEnd .. | .finalHeaderWrite .. | .recordRelease .. | .stopTakesEffect ..
      | .sampleWordDelivery .. | .slotMonitorCheck .. | .trimEstimate .. | .calRelease .. | .storeReadBurst .. | .stackFailure ..
      | .descNop .. | .descRead .. | .descRecord .. | .descCopy .. | .commitApply .. | .powerOn .. | .storeRailLoss
      | .warmReset .. | .resetNAssert .. | .resetColdCmd .. | .resetWarmCmd .. | .groupResetApply .. | .supplyStateCheck ..
      | .supplyFault .. | .thermalReset .. | .selfTest .. | .registerWrite .. | .halfWrite .. | .fltBcastWrite ..
      | .smbusBlockWrite .. | .tickBoundary .. => True
      | _ => storeSame s t) ∧
    (match c with
      | .calSaveDone .. | .flashCommandDone .. => True
      | _ => flashSame s t)

/-- From every state whose memories are in canonical form and whose waiting commands are well formed, a step leads to such a state. -/
def Obligations.StepKeepsTheMemoriesCanonical : Prop :=
  ∀ s t : State, Inv s → step s = .next t → Inv t

/-! ### Register accesses (R5, R6, R8, R72, R226, R355, R357, Table 0.5) -/

/-- REGISTER_WRITE, HALF_WRITE, W1C_CLEAR, FLT_BCAST_WRITE (R6, R8, R27, R72, R226, R355, R357): a write to RW bits acts at once, one to
RWS bits stays in the shadow set until a commit and is counted and ignored while one is pending, a 1 clears a W1C bit, and a write
where the function reaches nothing, no bit is writable or the lane has no port (R174, log entry 84) changes no register. -/
def Obligations.WritesActByAccessCode : Prop :=
  (∀ (fn : Fin 64) (a off : Nat) (v : BitVec 32) (s : State), fn ≠ 0 → s.mayWrite fn off = false →
    exec (.registerWrite fn a off v none) s = .next s ∧ exec (.w1cClear fn off v) s = .next s ∧ exec (.halfWrite fn off v) s = .next s) ∧
  (∀ (a off : Nat) (v : BitVec 32) (s : State) (m : CardWord), masksAt off = m → isLow off = false → isHigh off = false →
    inBcast off = false →
    (m.rw = 0 → m.rws = 0 → m.w1c = 0 → m.wo = 0 → exec (.registerWrite 0 a off v none) s = .next (s.at_ a)) ∧
    (m.rw = 0 → m.rws ≠ 0 → m.w1c = 0 → m.wo = 0 →
      (s.commit = none → s.flag F.CFG_VIEW_ACTIVE = false → portHere s.stagedModes off = true → ∃ t,
        exec (.registerWrite 0 a off v none) s = .next t ∧
        t.shadowWord off = mixWord m.rws (s.shadowWord off) (rwsValue off (s.shadowWord off) v) ∧ t.regs = s.regs ∧
        (∀ j, j ≠ off → t.shadowWord j = s.shadowWord j) ∧ t = { s with lcnt := max s.lcnt a, shadow := t.shadow }) ∧
      (s.commit = none → s.flag F.CFG_VIEW_ACTIVE = false → portHere s.stagedModes off = false →
        exec (.registerWrite 0 a off v none) s = .next (s.at_ a)) ∧
      (s.commit.isSome = true → ∃ t, exec (.registerWrite 0 a off v none) s = .next t ∧ t.flag F.CFG_STATUS_WR_IGNORED = true ∧
        t.get F.CFG_WR_IGN_CNT_COUNT = min (s.get F.CFG_WR_IGN_CNT_COUNT + 1) (2 ^ 32 - 1) ∧
        changesOnly [F.CFG_STATUS_WR_IGNORED, F.CFG_WR_IGN_CNT_COUNT] s t ∧ t = { s with lcnt := max s.lcnt a, regs := t.regs }) ∧
      (s.commit = none → s.flag F.CFG_VIEW_ACTIVE = true → ∃ t, exec (.registerWrite 0 a off v none) s = .next t ∧
        t.get F.CFG_WR_IGN_CNT_COUNT = min (s.get F.CFG_WR_IGN_CNT_COUNT + 1) (2 ^ 32 - 1) ∧
        changesOnly [F.CFG_WR_IGN_CNT_COUNT] s t ∧ t = { s with lcnt := max s.lcnt a, regs := t.regs })) ∧
    (m.rw ≠ 0 → m.rws = 0 → m.w1c = 0 → m.wo = 0 → portHere s.regs off = true → off ≠ R.TIME_CTRL → off ≠ R.GLOBAL_WAKE_CTRL →
      (off < 0x300000 ∨ 0x330000 ≤ off) → (off < 0xA00000 ∨ 0xC00000 ≤ off) → (off < R.TIME_STAGE ∨ R.TIME_STAGE_CMD ≤ off) → ∃ t,
        exec (.registerWrite 0 a off v none) s = .next t ∧ t.word off = mixWord m.rw (s.word off) v ∧
        (∀ j, j ≠ off → t.word j = s.word j) ∧ t = { s with lcnt := max s.lcnt a, regs := t.regs })) ∧
  (∀ (off : Nat) (v : BitVec 32) (s : State), off ≠ R.SVC_RLY_OC → (off < 0xD90000 ∨ 0xD90C00 ≤ off ∨ v.toNat / 2 % 2 = 0) →
    ((masksAt off).w1c = 0 ∨ portHere s.regs off = false → exec (.w1cClear 0 off v) s = .next s) ∧
    ((masksAt off).w1c ≠ 0 → portHere s.regs off = true → ∃ t, exec (.w1cClear 0 off v) s = .next t ∧
      t.word off = s.word off &&& ~~~(v &&& BitVec.ofNat 32 (masksAt off).w1c) ∧ (∀ j, j ≠ off → t.word j = s.word j) ∧
      t = { s with regs := t.regs })) ∧
  (∀ (off : Nat) (v : BitVec 32) (s : State), isLow off = false → isHigh off = false → exec (.halfWrite 0 off v) s = .next s) ∧
  (∀ (off : Nat) (v w : BitVec 32) (s : State), isLow off = true → isHigh (off + 4) = true → isLow (off + 4) = false →
    inBcast off = false → inBcast (off + 4) = false → ctxQ off = none →
    (∀ o ∈ [off, off + 4], (masksAt o).rw = 0 ∧ (masksAt o).rws ≠ 0 ∧ (masksAt o).w1c = 0 ∧ (masksAt o).wo = 0) →
    portHere s.stagedModes off = true → portHere s.stagedModes (off + 4) = true →
    s.commit = none → s.flag F.CFG_VIEW_ACTIVE = false → ∃ t u, exec (.halfWrite 0 off v) s = .next t ∧
      t = { s with held := t.held } ∧ exec (.halfWrite 0 (off + 4) w) t = .next u ∧
      u.shadowWord off = mixWord (masksAt off).rws (s.shadowWord off) (rwsValue off (s.shadowWord off) v) ∧
      u.shadowWord (off + 4) =
        mixWord (masksAt (off + 4)).rws (s.shadowWord (off + 4)) (rwsValue (off + 4) (s.shadowWord (off + 4)) w) ∧
      u = { s with held := u.held, shadow := u.shadow }) ∧
  (∀ (off : Nat) (v : BitVec 32) (s : State),
    (inBcast off = false → exec (.fltBcastWrite off v) s = .next s) ∧
    (inBcast off = true → s.getN R.FLT_BCAST_MASK 2 % 2 ^ 48 = 0 → exec (.fltBcastWrite off v) s = .next s) ∧
    (inBcast off = true → s.commit = none → s.flag F.CFG_VIEW_ACTIVE = false →
      (∀ n < 48, ∀ m, m = masksAt (off - 0x31000 + 0x1000 * n) → m.rw = 0 ∧ m.rws ≠ 0 ∧ m.w1c = 0 ∧ m.wo = 0) → ∃ t,
        exec (.fltBcastWrite off v) s = .next t ∧
        (∀ n < 48, bitOf (s.getN R.FLT_BCAST_MASK 2) n = true → t.shadowWord (off - 0x31000 + 0x1000 * n) =
          mixWord (masksAt (off - 0x31000 + 0x1000 * n)).rws (s.shadowWord (off - 0x31000 + 0x1000 * n)) v) ∧
        (∀ j, (∀ n < 48, bitOf (s.getN R.FLT_BCAST_MASK 2) n = true → j ≠ off - 0x31000 + 0x1000 * n) →
          t.shadowWord j = s.shadowWord j) ∧ t = { s with shadow := t.shadow }))

/-- RC_COUNTER_READ, LOW_HALF_READ: where no register stands a read answers zero and a write does nothing (R8); the low half of a 64-bit
register is answered with its high half held for the reader, the next read of the high half by the same function answers what is held,
and a read of all 8 bytes answers both halves and holds nothing (R5, R226); a read answers what the function sees and clears RC bits
(R6); the registers of a lane that is no port read zero (R174, log entry 84). -/
def Obligations.ReadsAnswerClearAndHold : Prop :=
  (∀ (fn : Fin 64) (a off : Nat) (v : BitVec 32) (s : State), wordAt off = none → inBcast off = false →
    exec (.rcCounterRead fn off) s = .next (s.emit (.read fn off [0])) ∧
    (∃ t, exec (.registerWrite fn a off v none) s = .next t ∧ (t = s ∨ t = s.at_ a)) ∧
    exec (.halfWrite fn off v) s = .next s ∧ exec (.w1cClear fn off v) s = .next s ∧ exec (.lowHalfRead fn ⟨off, false⟩) s = .next s) ∧
  (∀ (fn : Fin 64) (off : Nat) (s : State), isLow off = true → s.sees fn off = true → ∃ t,
    exec (.lowHalfRead fn ⟨off, false⟩) s = .next t ∧ t.out = .read fn off [s.seen off] :: s.out ∧
    t.latched fn (off + 4) = some (s.seen (off + 4)) ∧
    t.word off = (if (masksAt off).rc = 0 ∨ portHere s.regs off = false then s.word off
      else mixWord (masksAt off).rc (s.word off) 0) ∧
    (∀ j, j ≠ off → t.word j = s.word j) ∧ t = { s with out := t.out, regs := t.regs, latch := t.latch }) ∧
  (∀ (fn : Fin 64) (off : Nat) (s : State), isLow off = true → s.sees fn off = true → ∃ t,
    exec (.lowHalfRead fn ⟨off, true⟩) s = .next t ∧ t.out = .read fn off [s.seen off, s.seen (off + 4)] :: s.out ∧
    ((masksAt off).rc = 0 → (masksAt (off + 4)).rc = 0 → t.regs = s.regs) ∧ t = { s with out := t.out, regs := t.regs }) ∧
  (∀ (fn : Fin 64) (off : Nat) (v : BitVec 32) (s : State), isHigh off = true → s.sees fn off = true →
    s.latched fn off = some v → ∃ t, exec (.rcCounterRead fn off) s = .next t ∧ t.out = .read fn off [v] :: s.out ∧
      t.latched fn off = none ∧ t = { s with out := t.out, regs := t.regs, latch := t.latch }) ∧
  (∀ (fn : Fin 64) (off : Nat) (s : State), s.sees fn off = false →
    exec (.rcCounterRead fn off) s = .next (s.emit (.read fn off [0])) ∧
    (isLow off = true → exec (.lowHalfRead fn ⟨off, false⟩) s = .next (s.emit (.read fn off [0])) ∧
      exec (.lowHalfRead fn ⟨off, true⟩) s = .next (s.emit (.read fn off [0, 0])))) ∧
  (∀ (fn : Fin 64) (off k : Nat) (s : State), s.sees fn off = true → spotAt off = some (k, 1) → ∃ t,
    exec (.rcCounterRead fn off) s = .next t ∧ t.out = .read fn off [s.seen off] :: s.out ∧
    t.word off = (if (masksAt off).rc = 0 ∨ portHere s.regs off = false then s.word off
      else mixWord (masksAt off).rc (s.word off) 0) ∧
    (∀ j, j ≠ off → t.word j = s.word j) ∧ t = { s with out := t.out, regs := t.regs }) ∧
  (∀ (fn : Fin 64) (off : Nat) (s : State), isLow off = false → exec (.lowHalfRead fn ⟨off, false⟩) s = .next s) ∧
  (∀ (off : Nat) (s : State), off ≠ R.TIME_LCNT → off ≠ R.TIME_LCNT + 4 → off ≠ R.STO_STAGE →
    (portHere s.regs off = true → portHere s.stagedModes off = true →
      s.seen off = (if (masksAt off).rws = 0 ∨ s.flag F.CFG_VIEW_ACTIVE = true then s.word off
        else mixWord (masksAt off).rws (s.word off) (s.shadowWord off))) ∧
    (portHere s.regs off = false → portHere s.stagedModes off = false → s.seen off = 0))

/-! ### Management ports (R398, R407) -/

/-- SMBUS_BLOCK_WRITE, SMBUS_BLOCK_READ, SCAN_ACCESS (R398, R407): the SMBus target selects an offset, reads from it in blocks, and
writes LOG_CMD alone; every cycle of TCK moves the scan controller along the diagram of IEEE 1149.1, five cycles with TMS high reach
Test-Logic-Reset from any state, the next one selects IDCODE, whose 32 bits 0x248322A5 a capture loads, and a shift moves one bit a
cycle from TDI to TDO. The instruction register's length and the code of IDCODE are open (log entry 52). -/
def Obligations.ManagementPortsServe : Prop :=
  (∀ (bytes : List (BitVec 8)) (s : State),
    (bytes.length = 4 → exec (.smbusBlockWrite bytes) s = .next { s with smb := leValue bytes }) ∧
    (bytes.length ≠ 4 → bytes.length ≠ 8 → exec (.smbusBlockWrite bytes) s = .next s) ∧
    (bytes.length = 8 → leValue (bytes.take 4) ≠ R.LOG_CMD →
      exec (.smbusBlockWrite bytes) s = .next { s with smb := leValue (bytes.take 4) }) ∧
    (bytes.length = 8 → leValue (bytes.take 4) = R.LOG_CMD → ∃ t, exec (.smbusBlockWrite bytes) s = .next t ∧ t.smb = R.LOG_CMD ∧
      (leValue (bytes.drop 4) % 2 = 1 → t.flag F.LOG_STATUS_FIRST_VALID = false ∧ t.get F.LOG_NEST_CNT_COUNT = 0) ∧
      (leValue (bytes.drop 4) % 2 = 0 → t.flag F.LOG_STATUS_FIRST_VALID = s.flag F.LOG_STATUS_FIRST_VALID) ∧
      (leValue (bytes.drop 4) / 2 % 2 = 1 → s.log.fatalCond = false → t.flag F.LOG_STATUS_FATAL = false) ∧
      changesOnly [F.LOG_STATUS_FIRST_VALID, F.LOG_NEST_CNT_COUNT, F.LOG_STATUS_FATAL, F.LOG_STATUS_ERR_N] s t ∧
      t = { s with out := t.out, regs := t.regs, smb := t.smb })) ∧
  (∀ (len : Nat) (s : State), ∃ t bytes, exec (.smbusBlockRead len) s = .next t ∧ t.out = .smbus bytes :: s.out ∧
    bytes.length = min len 32 ∧ t.smb = s.smb ∧ memSame s t ∧ t.pending = s.pending ∧
    (4 ≤ len → bytes.take 4 = leBytes 4 (s.readWord smbusFn s.smb).1.toNat)) ∧
  (∀ (tms tdi : Bool) (s : State), ∃ t, exec (.scanAccess tms tdi) s = .next t ∧ t.tap.st = tapNext s.tap.st tms ∧
    t = { s with out := t.out, free := t.free, tap := t.tap }) ∧
  (∀ (d : Bool) (s : State), ∃ t1 t2 t3 t4 t5 t6, exec (.scanAccess true d) s = .next t1 ∧ exec (.scanAccess true d) t1 = .next t2 ∧
    exec (.scanAccess true d) t2 = .next t3 ∧ exec (.scanAccess true d) t3 = .next t4 ∧ exec (.scanAccess true d) t4 = .next t5 ∧
    exec (.scanAccess true d) t5 = .next t6 ∧ t5.tap.st = 0 ∧ t6.tap.st = 0 ∧ t6.tap.ir = irIdcode) ∧
  (∀ (tms d : Bool) (s : State), s.tap.st = 3 →
    (s.tap.ir = irIdcode → ∃ t, exec (.scanAccess tms d) s = .next t ∧ t.tap.drSh = bitsOf 32 0x248322A5) ∧
    (s.tap.ir ≠ irIdcode → s.tap.ir.all (fun b => b) = true → ∃ t, exec (.scanAccess tms d) s = .next t ∧ t.tap.drSh = [false])) ∧
  (∀ (tms d b : Bool) (rest : List Bool) (s : State),
    (s.tap.st = 4 → s.tap.drSh = b :: rest → ∃ t, exec (.scanAccess tms d) s = .next t ∧ t.tap.drSh = rest ++ [d] ∧
      t.out = .pin 2 b :: s.out ∧ t.tap.ir = s.tap.ir) ∧
    (s.tap.st = 11 → s.tap.irSh = b :: rest → ∃ t, exec (.scanAccess tms d) s = .next t ∧ t.tap.irSh = rest ++ [d] ∧
      t.out = .pin 2 b :: s.out ∧ t.tap.ir = s.tap.ir) ∧
    (s.tap.st = 15 → ∃ t, exec (.scanAccess tms d) s = .next t ∧ t.tap.ir = s.tap.irSh))

/-! ### The tick boundary (R15, R161, R356, R367) -/

/-- TICK_BOUNDARY (R15, R161, R356, R367, Table 14.5): while the fabric counts, the next boundary is taken: the staging halves
change their parts (where no NOT_RUN block is due, which is staged first), a commit that is due is decided, an abort acts, the keeper saves LCNT and the next log sequence; while a reset holds the
fabric nothing happens. -/
def Obligations.BoundariesMoveTheDeviceOn : Prop :=
  (∀ (h : Nat) (s : State), s.pwr.coreLoss = true ∨ s.pwr.thermalHold = true → exec (.tickBoundary h) s = .next s) ∧
  (∀ (h : Nat) (s : State), s.pwr.coreLoss = false → s.pwr.thermalHold = false → ∃ t, exec (.tickBoundary h) s = .next t ∧
    t.tick = s.tick + 2048 ∧ t.keeper.lcntSave = s.tick + 2048 ∧ t.keeper.seqSave = t.get F.LOG_WR_SEQ_SEQ ∧
    (s.abaSkip = [] → t.stageDrain = s.stageFill ∧ t.drainData = s.fillData) ∧ t.cal.abort = none ∧
    (∀ c, s.commit = some c → s.tick + 2048 < c.due → t.commit = s.commit ∧ t.shadow = s.shadow) ∧
    (∀ c, s.commit = some c → c.due ≤ s.tick + 2048 → c.kind ≠ 1 → t.commit = none) ∧
    (s.commit = none → t.commit = none ∧ t.shadow = s.shadow) ∧ flashSame s t ∧ t.pending = s.pending)

/-! ### Commits, the image, the flash (R344-R364) -/

/-- COMMIT_REQ_TICK, COMMIT_REQ_RECORD, COMMIT_REQ_AT, CFG_CANCEL, CFG_REVERT, CFG_RELOAD, COMMIT_APPLY: one request is pending at a
time and waits for its boundary; while it is pending the shadow set is frozen against every form of write, a second request and a
reload are ignored, and a CANCEL withdraws it until 64 core cycles before the boundary (R357); REVERT and RELOAD act on
the shadow set alone; at its boundary a request is applied or refused, which ends it, or waits for a record boundary. What the result shows is stated
for a host's request while no group is armed or resetting. -/
def Obligations.CommitsPendAndAreDecided : Prop :=
  (∀ (a : Nat) (g : Fin 16) (s : State), s.commit.isSome = true →
    ∀ c ∈ [Instr.commitReqTick a, .commitReqRecord a g, .commitReqAt a],
      exec c s = .next ((s.at_ a).setF F.CFG_STATUS_REQ_IGNORED)) ∧
  (∀ (a off : Nat) (v : BitVec 32) (hi : Option (BitVec 32)) (s : State), s.commit.isSome = true → inBcast off = false →
    (∀ o ∈ (if isHigh off then [off - 4, off] else if hi.isSome then [off, off + 4] else [off]),
      (masksAt o).rws ≠ 0 ∧ (masksAt o).rw = 0 ∧ (masksAt o).w1c = 0 ∧ (masksAt o).wo = 0) →
    isLow off = hi.isSome → (isHigh off = true → hi = none) → ∃ t,
      exec (.registerWrite 0 a off v hi) s = .next t ∧ t.shadow = s.shadow ∧ t.commit = s.commit ∧
      t.flag F.CFG_STATUS_WR_IGNORED = true ∧
      t.get F.CFG_WR_IGN_CNT_COUNT = min (s.get F.CFG_WR_IGN_CNT_COUNT + 1) (2 ^ 32 - 1)) ∧
  (∀ (a : Nat) (g : Fin 16) (s : State), s.commit = none → s.loader.waiting = false →
    ∀ p ∈ [(Instr.commitReqTick a, 0, 0, tickDue a), (.commitReqRecord a g, 1, g.val, tickDue a),
        (.commitReqAt a, 2, 0, max (tickDue a) (boundaryAt (s.getN R.CFG_AT_LCNT 2)))],
      ∃ t, exec p.1 s = .next t ∧ t.flag F.GLOBAL_STATE_SHADOW_PENDING = true ∧
        t.commit = some ⟨p.2.1, p.2.2.1, a, p.2.2.2, s.getN R.CFG_AT_LCNT 2, 0, .host⟩ ∧
        changesOnly [F.GLOBAL_STATE_SHADOW_PENDING] s t ∧
        t = { s with lcnt := max s.lcnt a, regs := t.regs, commit := t.commit }) ∧
  (∀ (a : Nat) (s : State), s.commit = none → s.loader.waiting = true → ∃ t, exec (.commitReqTick a) s = .next t ∧
    t.commit = some ⟨0, 0, a, tickDue a, 0, 0, .loader⟩ ∧ t.loader.waiting = false ∧
    changesOnly [F.GLOBAL_STATE_SHADOW_PENDING] s t) ∧
  (∀ (a : Nat) (s : State),
    (s.commit = none → exec (.cfgCancel a) s = .next (s.at_ a)) ∧
    (∀ c, s.commit = some c → a + 64 ≤ c.due → ∃ t, exec (.cfgCancel a) s = .next t ∧ t.commit = none ∧
      t.get F.CFG_RESULT_OUTCOME = 3 ∧ t.flag F.GLOBAL_STATE_SHADOW_PENDING = false ∧
      changesOnly ([F.CFG_RESULT_OUTCOME, F.CFG_RESULT_NFAIL, F.CFG_RESULT_REASON, F.GLOBAL_STATE_SHADOW_PENDING] ++
        wideFlds R.CFG_REASONS 2) s t ∧ t = { s with lcnt := t.lcnt, regs := t.regs, commit := t.commit }) ∧
    (∀ c, s.commit = some c → c.due < a + 64 → exec (.cfgCancel a) s = .next ((s.at_ a).setF F.CFG_STATUS_CANCEL_LATE))) ∧
  (∀ s : State,
    (s.flag F.GLOBAL_STATE_SHADOW_PENDING = true → exec .cfgRevert s = .next s) ∧
    (s.flag F.GLOBAL_STATE_SHADOW_PENDING = false → s.disp.pend = [] → exec .cfgRevert s = .next { s with shadow := [] })) ∧
  (∀ (a : Nat) (slot : Fin 2) (s : State),
    (s.commit.isSome = true → exec (.cfgReload a slot) s = .next ((s.at_ a).setF F.CFG_STATUS_REQ_IGNORED)) ∧
    (s.commit = none → s.slotImage slot = none → ∃ t, exec (.cfgReload a slot) s = .next t ∧ t.get F.CFG_RESULT_OUTCOME = 4 ∧
      changesOnly ([F.CFG_RESULT_OUTCOME, F.CFG_RESULT_NFAIL, F.CFG_RESULT_REASON] ++ wideFlds R.CFG_REASONS 2) s t ∧
      t = { s with lcnt := t.lcnt, regs := t.regs }) ∧
    (∀ img, s.commit = none → s.slotImage slot = some img → ∃ t, exec (.cfgReload a slot) s = .next t ∧
      t.commit = some ⟨0, 0, a, tickDue a, 0, 0, .reload slot img⟩ ∧ t.flag F.GLOBAL_STATE_SHADOW_PENDING = true ∧
      changesOnly [F.CFG_WR_IGN_CNT_COUNT, F.GLOBAL_STATE_SHADOW_PENDING] s t ∧
      t = { s with lcnt := t.lcnt, regs := t.regs, shadow := t.shadow, commit := t.commit })) ∧
  (∀ (h : Nat) (s : State), s.commit = none → exec (.commitApply h) s = .next s) ∧
  (∀ (h : Nat) (s : State) (c : Commit), s.commit = some c →
    (c.kind = 1 → s.recBoundary c.grp c.due = false → c.waited < s.get F.CFG_REC_MAX_TICKS →
      exec (.commitApply h) s =
        .next { s.at_ c.due with commit := some { c with waited := c.waited + 1, due := c.due + 2048 } }) ∧
    (c.kind ≠ 1 ∨ s.recBoundary c.grp c.due = true ∨ s.get F.CFG_REC_MAX_TICKS ≤ c.waited → ∃ t,
      exec (.commitApply h) s = .next t ∧ t.commit = none ∧ t.pending = s.pending ∧ flashSame s t) ∧
    (c.origin = .host → s.pwr.grpReset = 0 → (∀ g, (s.grp g).armed = false) → ∃ t, exec (.commitApply h) s = .next t ∧ t.commit = none ∧
      t.flag F.GLOBAL_STATE_SHADOW_PENDING = false ∧ t.lcnt = max s.lcnt c.due ∧
      ((t.get F.CFG_RESULT_OUTCOME = 1 ∧ t.get F.CFG_RESULT_NFAIL = 0 ∧ t.getN R.CFG_APPLY_LCNT 2 = c.due % 2 ^ 64) ∨
       (t.get F.CFG_RESULT_OUTCOME = 2 ∧ t.shadow = s.shadow ∧ t.getN R.CFG_REASONS 2 ≠ 0 ∧
        changesOnly ([F.STO_SHADOW_DEMAND_BYTES, F.CFG_STATUS_CFG_LATE, F.CFG_STATUS_REC_FORCED, F.CFG_STATUS_AT_MISSED,
          F.CFG_RESULT_OUTCOME, F.CFG_RESULT_NFAIL, F.CFG_RESULT_REASON, F.GLOBAL_STATE_SHADOW_PENDING] ++
          wideFlds R.CFG_REASONS 2 ++ logFlds) s t))))

/-- IMAGE_LOAD, ARM_SECTION_ARMING, FLASH_READ, FLASH_PROGRAM, FLASH_ERASE_4K, FLASH_ERASE_64K, FLASH_COMMAND_DONE (R312, R347, R352,
R354, R362, R377): the loader reads both slots once and takes the newer valid image; an ARM section waits for its condition; a flash
command inside a held range without UNLOCK is denied and any other waits its turn; a program only clears bits, an erase sets all, and
nothing outside the command's block changes. What a failed program or erase leaves in its block is open. -/
def Obligations.ImagesLoadAndFlashCommandsRun : Prop :=
  (∀ (q errA errB otp : Bool) (s u : State), u = { s with loader := { Loader.init with part := q } } →
    (s.cfgReady = true ∨ s.pwr.coreLoss = true ∨ s.pwr.thermalHold = true → exec (.imageLoad q errA errB otp) s = .next s) ∧
    (s.cfgReady = false → s.pwr.coreLoss = false → s.pwr.thermalHold = false → ∃ t,
      exec (.imageLoad q errA errB otp) s = .next t ∧ t.cfgReady = true ∧ memSame s t ∧ t.pending = s.pending ∧
      (∀ k img, chooseSlot (if errA then none else u.slotImage 0) (if errB then none else u.slotImage 1) = some (k, img) →
        t.loader.slot = some k ∧ t.loader.img = some img ∧ t.loader.tried = [k] ∧ (0x0F03, s.locusHub) ∈ t.log.seen) ∧
      (chooseSlot (if errA then none else u.slotImage 0) (if errB then none else u.slotImage 1) = none →
        t.loader.slot = none ∧ t.loader.img = none ∧ t.get F.GLOBAL_STATE_PHASE = 1 ∧ t.flag F.CFG_STATUS_LOADING = false ∧
        t.flag F.CAL_STATUS_LOADED = true))) ∧
  (∀ s : State, s.armPlan = none → exec .armSectionArming s = .next s) ∧
  (∀ (s : State) (p : ArmPlan), s.armPlan = some p →
    (p.wait ≠ 0 → s.get F.TIME_STATUS_SERVO ≠ 2 → p.wait = 1 → boundaryAt s.lcnt < p.deadline →
      exec .armSectionArming s = .next (s.at_ (boundaryAt s.lcnt))) ∧
    (p.wait ≠ 0 → p.wait ≠ 1 → s.get F.TIME_STATUS_SERVO ≠ 2 →
      exec .armSectionArming s = .next (s.at_ (boundaryAt s.lcnt))) ∧
    (p.wait = 0 ∨ s.get F.TIME_STATUS_SERVO = 2 ∨ (p.wait = 1 ∧ p.deadline ≤ boundaryAt s.lcnt) → ∃ t,
      exec .armSectionArming s = .next t ∧ t.armPlan = none ∧ t.lcnt = max s.lcnt (boundaryAt s.lcnt) ∧
      (p.wait = 1 → s.get F.TIME_STATUS_SERVO ≠ 2 → (0x0F05, s.locusHub) ∈ t.log.seen) ∧ flashSame s t ∧ t.pending = s.pending)) ∧
  (∀ (s : State) (c : Instr) (op addr size : Nat),
    (c, op) ∈ [(Instr.flashRead, 0), (.flashProgram, 1), (.flashErase4k, 2), (.flashErase64k, 3)] → size = flashSize op →
    addr = s.get F.CFG_FLASH_ADDR_ADDR / size * size →
    (s.flashHeld addr size = true → s.flag F.CFG_FLASH_CTRL_UNLOCK = false → ∃ t, exec c s = .next t ∧
      t.flag F.CFG_FLASH_STATUS_DENIED = true ∧ changesOnly [F.CFG_FLASH_STATUS_DENIED, F.CFG_FLASH_CTRL_UNLOCK] s t ∧
      t = { s with regs := t.regs }) ∧
    (s.flashHeld addr size = false ∨ s.flag F.CFG_FLASH_CTRL_UNLOCK = true → ∃ t o, exec c s = .next t ∧
      t.flag F.CFG_FLASH_STATUS_BUSY = true ∧ t.flag F.CFG_FLASH_CTRL_UNLOCK = false ∧ o.op = op ∧ o.addr = addr ∧
      o.buf.length = 256 ∧ t.flashOps = s.flashOps ++ [o] ∧
      changesOnly [F.CFG_FLASH_STATUS_BUSY, F.CFG_FLASH_CTRL_UNLOCK] s t ∧ t = { s with regs := t.regs, flashOps := t.flashOps })) ∧
  (∀ (ok : Bool) (s : State), s.flashOps = [] ∨ s.cal.saving ≠ none → exec (.flashCommandDone ok) s = .next s) ∧
  (∀ (ok : Bool) (s : State) (o : FlashOp) (rest : List FlashOp), s.flashOps = o :: rest → s.cal.saving = none → ∃ t,
    exec (.flashCommandDone ok) s = .next t ∧ t.flashOps = rest ∧ storeSame s t ∧ t.pending = s.pending ∧
    (∀ a, (a < o.addr ∨ o.addr + flashSize o.op ≤ a) → Mem.read 0xFF t.flash a = Mem.read 0xFF s.flash a) ∧
    (o.op = 0 → t.flash = s.flash ∧ ∀ i < 64, t.get (F.CFG_FLASH_BUF_DATA i) =
      leValue (Mem.readBytes 0xFF s.flash (o.addr + 4 * i) 4) % 2 ^ 32) ∧
    (o.op ≠ 0 → ok = false → t.flag F.CFG_FLASH_STATUS_ERR = true) ∧
    (o.op ≠ 0 → ok = true → rest ≠ [] → t.regs = s.regs) ∧
    (Mem.wf 0xFF s.flash = true → ok = true → 2 ≤ o.op → ∀ i < flashSize o.op, Mem.read 0xFF t.flash (o.addr + i) = 0xFF) ∧
    (Mem.wf 0xFF s.flash = true → ok = true → o.op = 1 → ∀ i < o.buf.length, o.buf.length ≤ 256 →
      Mem.read 0xFF t.flash (o.addr + i) = o.buf.getD i 0 &&& Mem.read 0xFF s.flash (o.addr + i)) ∧
    (rest = [] → t.flag F.CFG_FLASH_STATUS_BUSY = false ∧ (s.cal.saveDue = true → t.cal.saving ≠ none)))

/-! ### Triggers (R73-R99) -/

/-- ANALOG_CROSSING (R74, R78, R80): a crossing in core cycle c sets the comparator's state and counts; the interpolator whose
turn it is, or else the other, measures it for 16 cycles; with neither ready the crossing is coarse. -/
def Obligations.AnalogCrossingsAreMeasured : Prop :=
  ∀ (n : Fin 288) (c : Nat) (rising b : Bool) (s : State), b = (s.ac n).nextB →
    (s.acOpen n c rising = false → exec (.analogCrossing n c rising) s = .next (s.at_ c)) ∧
    (s.acOpen n c rising = true → ∃ t, exec (.analogCrossing n c rising) s = .next t ∧ t.lcnt = max s.lcnt c ∧
      t.flag (F.TRG_AC_STATUS_STATE n) = rising ∧
      t.get (F.TRG_AC_CROSS_CNT_COUNT n) = (s.get (F.TRG_AC_CROSS_CNT_COUNT n) + 1) % 2 ^ 32 ∧
      (s.intReady n b c = true → (t.ip (16 * (n / 6) + s.intAt n b)).meas = some (c, n.val, rising) ∧
        (t.ip (16 * (n / 6) + s.intAt n b)).readyAt = c + 16 ∧ (t.ac n).nextB = !b ∧ t.grps = s.grps) ∧
      (s.intReady n b c = false → s.intReady n (!b) c = true →
        (t.ip (16 * (n / 6) + s.intAt n (!b))).meas = some (c, n.val, rising) ∧ (t.ac n).nextB = b ∧ t.grps = s.grps) ∧
      (s.intReady n b c = false → s.intReady n (!b) c = false → t.flag (F.TRG_AC_STATUS_COARSE_SEEN n) = true ∧
        t.ints = s.ints ∧ t.acs = s.acs) ∧
      changesOnly [F.TRG_AC_STATUS_STATE n, F.TRG_AC_CROSS_CNT_COUNT n, F.TRG_AC_STATUS_COARSE_SEEN n] s t ∧
      t = { s with lcnt := t.lcnt, regs := t.regs, acs := t.acs, ints := t.ints, grps := t.grps })

/-- INTERPOLATOR_MEASUREMENT, INTERPOLATOR_IDLE_REFRESH, INTERPOLATOR_SPARE_SWAP (R78, R79, R81): a measurement ends 16 cycles
after its crossing, gives the crossing its instant from the reference codes held before, holds its own from then on and queues the
crossing with every armed group that names the comparator; an idle interpolator whose refresh is due is refreshed for 11 cycles; a
failed one gives its place to the lowest free spare. -/
def Obligations.InterpolatorsMeasureAndSwap : Prop :=
  (∀ (ch : Fin 48) (i : Fin 16) (nm n1 n2 : BitVec 12) (c n x r1 r2 : Nat) (rising : Bool) (s : State),
    (s.ip (16 * ch + i)).meas = some (c, n, rising) → intBad n1.toNat n2.toNat = false →
    r1 = s.get (F.TRG_INT_CAL_N1 ch i) → r2 = s.get (F.TRG_INT_CAL_N2 ch i) → r1 ≠ r2 →
    x = (65536 * ((c + 2 : Nat) : Int) - (65536 + roundDivI (65536 * ((nm.toNat : Int) - r1)) ((r2 : Int) - r1)) -
      s.get (F.TRG_AC_DELAY_DELAY n)).toNat →
    ∃ t, exec (.interpolatorMeasurement ch i nm n1 n2) s = .next t ∧ t.lcnt = max s.lcnt (c + 16) ∧
      (t.ip (16 * ch + i)).meas = none ∧ t.get (F.TRG_INT_CAL_N1 ch i) = n1.toNat ∧ t.get (F.TRG_INT_CAL_N2 ch i) = n2.toNat ∧
      (∀ g : Fin 16, (s.grp g).armed = true → n ∈ srcsOf s.regs g →
        (t.grp g).events = insertEv ⟨x, .cross n rising false⟩ (s.grp g).events) ∧
      (∀ g : Fin 16, (s.grp g).armed = false → t.grp g = s.grp g) ∧
      changesOnly [F.TRG_INT_CAL_N1 ch i, F.TRG_INT_CAL_N2 ch i] s t ∧
      t = { s with lcnt := t.lcnt, regs := t.regs, ints := t.ints, grps := t.grps }) ∧
  (∀ (ch : Fin 48) (i : Fin 16) (nm n1 n2 : BitVec 12) (s : State), (s.ip (16 * ch + i)).meas = none →
    exec (.interpolatorMeasurement ch i nm n1 n2) s = .next s) ∧
  (∀ (c : Nat) (ch : Fin 48) (i : Fin 16) (n1 n2 : BitVec 12) (s : State), s.flag (F.TRG_INT_CAL_IN_USE ch i) = true →
    s.refreshDue c ch i = true → s.flag (F.TRG_INT_CAL_FAILED ch i) = false →
    ∃ t, exec (.interpolatorIdleRefresh c ch i n1 n2) s = .next t ∧ t.lcnt = max s.lcnt c ∧
      (t.ip (16 * ch + i)).readyAt = c + 11 ∧ t.get (F.TRG_INT_CAL_N1 ch i) = n1.toNat ∧
      t.get (F.TRG_INT_CAL_N2 ch i) = n2.toNat ∧
      (intBad n1.toNat n2.toNat = false → changesOnly [F.TRG_INT_CAL_N1 ch i, F.TRG_INT_CAL_N2 ch i] s t ∧
        t = { s with lcnt := t.lcnt, regs := t.regs, ints := t.ints }) ∧
      (intBad n1.toNat n2.toNat = true → t.flag (F.TRG_INT_CAL_FAILED ch i) = true ∧
        (0x0504, s.locusCh ch (0x80 + i)) ∈ t.log.seen ∧ memSame s t)) ∧
  (∀ (c : Nat) (ch : Fin 48) (i : Fin 16) (n1 n2 : BitVec 12) (s : State), s.flag (F.TRG_INT_CAL_IN_USE ch i) = false ∨
    s.flag (F.TRG_INT_CAL_FAILED ch i) = true ∨ s.refreshDue c ch i = false →
    exec (.interpolatorIdleRefresh c ch i n1 n2) s = .next (s.at_ c)) ∧
  (∀ (ch : Fin 48) (i : Fin 16) (k n : Nat) (second : Bool) (s : State), (ch.val, i.val) ∈ s.intSwaps →
    s.flag (F.TRG_INT_CAL_FAILED ch i) = true → (s.freeSpares ch).head? = some k → s.servedBy ch i = some (n, second) →
    ∃ t, exec (.interpolatorSpareSwap ch i) s = .next t ∧ t.lcnt = max s.lcnt (boundaryAt s.lcnt) ∧ t.intAt n second = k ∧
      t.flag (F.TRG_INT_CAL_IN_USE ch i) = false ∧ t.flag (F.TRG_INT_CAL_IN_USE ch k) = true ∧
      (t.ip (16 * ch + k)).readyAt = boundaryAt s.lcnt ∧ t.intSwaps = s.intSwaps.filter (fun p => p != (ch.val, i.val)) ∧
      changesOnly [F.TRG_INT_CAL_IN_USE ch i, F.TRG_INT_CAL_IN_USE ch k,
        if second then F.TRG_AC_STATUS_INT_B n else F.TRG_AC_STATUS_INT_A n] s t ∧
      t = { s with lcnt := t.lcnt, regs := t.regs, ints := t.ints, intSwaps := t.intSwaps }) ∧
  (∀ (ch : Fin 48) (i : Fin 16) (s : State), (ch.val, i.val) ∉ s.intSwaps → exec (.interpolatorSpareSwap ch i) s = .next s)

/-- DIGITAL_CROSSING (R75, R82), TIMEOUT_EXPIRY, PATTERN_DURATION_REACHED, SEQUENCE_A_EXPIRY (R84): a comparator's next crossing is
queued with every armed group that names it; the expiry of a timer and a pattern that has held long enough take their place among
the group's events; the oldest pending A crossing lapses. -/
def Obligations.CrossingsAndTimersQueue : Prop :=
  (∀ (m : Fin 192) (r : DcScan) (s : State), r = (s.dc m).scan (fun c => dcLevels (s.cfgAt c) m) (s.dc m).vals →
    (r.found = none → exec (.digitalCrossing m) s = .next (s.setDc m r.dc)) ∧
    (∀ x rising, r.found = some (x, rising) → ∃ t, exec (.digitalCrossing m) s = .next t ∧ t.dc m = r.dc ∧
      (∀ g : Fin 16, (s.grp g).armed = true → 0x120 + m.val ∈ srcsOf s.regs g →
        (t.grp g).events = insertEv ⟨x, .cross (0x120 + m) rising false⟩ (s.grp g).events) ∧
      (∀ g : Fin 16, (s.grp g).armed = false → t.grp g = s.grp g) ∧
      (∀ k : Nat, k ≠ m → t.dc k = s.dc k) ∧ t = { s with dcs := t.dcs, grps := t.grps })) ∧
  (∀ (g : Fin 16) (x : Nat) (e : TrgEv) (s : State), s.timerFrom g = some x → e = ⟨x + (trgDef s.regs g).thi, .timeout⟩ →
    (trgDef s.regs g).typ = 7 → (∀ n, srcCh (trgDef s.regs g).a = some n → bitOf s.calMask n = false) →
    (s.grp g).armed = true → e ∉ (s.grp g).events → ∃ t, exec (.timeoutExpiry g) s = .next t ∧
      (t.grp g).events = insertEv e (s.grp g).events ∧ t.lcnt = max s.lcnt (e.t / 65536) ∧
      (∀ k : Nat, k ≠ g → t.grp k = s.grp k) ∧ t = { s with lcnt := t.lcnt, grps := t.grps }) ∧
  (∀ (g : Fin 16) (s : State), s.timerFrom g = none → exec (.timeoutExpiry g) s = .next s) ∧
  (∀ (g : Fin 16) (x : Nat) (e : TrgEv) (s : State), (s.grp g).defAt = [] → (s.grp g).part.patFrom = some x →
    e = ⟨x + (trgDef s.regs g).tlo, .patDur⟩ → (trgDef s.regs g).typ = 5 → (trgDef s.regs g).wqual = true →
    (trgDef s.regs g).wcond = 1 → (s.grp g).armed = true → e ∉ (s.grp g).events →
    ∃ t, exec (.patternDurationReached g) s = .next t ∧ (t.grp g).events = insertEv e (s.grp g).events ∧
      t.lcnt = max s.lcnt (e.t / 65536) ∧ (∀ k : Nat, k ≠ g → t.grp k = s.grp k) ∧ t = { s with lcnt := t.lcnt, grps := t.grps }) ∧
  (∀ (g : Fin 16) (s : State), (s.grp g).defAt = [] → (s.grp g).part.patFrom = none →
    exec (.patternDurationReached g) s = .next s) ∧
  (∀ (g : Fin 16) (x : Nat) (rest : List Nat) (s : State), (s.grp g).part.pend = x :: rest → (trgDef s.regs g).typ = 6 →
    (trgDef s.regs g).thi ≠ 0 → (∀ e ∈ (s.grp g).events, x + (trgDef s.regs g).thi < e.t) →
    ∃ t, exec (.sequenceAExpiry g) s = .next t ∧ (t.grp g).part.pend = rest ∧ (t.grp g).events = (s.grp g).events ∧
      t.lcnt = max s.lcnt ((x + (trgDef s.regs g).thi) / 65536 + 1) ∧ (∀ k : Nat, k ≠ g → t.grp k = s.grp k) ∧
      t = { s with lcnt := t.lcnt, grps := t.grps }) ∧
  (∀ (g : Fin 16) (s : State), (s.grp g).part.pend = [] → exec (.sequenceAExpiry g) s = .next s)

/-- CANDIDATE_DECISION (R84, R87, R88, R91, R93-R95, R101): the earliest event leaves the queue at (t >> 16) + L_dec; the crossing an
edge trigger asks for is accepted when holdoff is met and the group accepts, which opens the record around it, and is counted as
missed or held otherwise; a FORCE that cannot be accepted is lost. -/
def Obligations.CandidatesAreDecided : Prop :=
  (∀ (g : Fin 16) (e : TrgEv) (rest : List TrgEv) (s : State), (s.grp g).events = e :: rest →
    ∃ t, exec (.candidateDecision g) s = .next t ∧ (t.grp g).events = rest ∧
      t.lcnt = max s.lcnt (e.t / 65536 + lDec s.regs g) ∧ (∀ k : Nat, k ≠ g → t.grp k = s.grp k) ∧ flashSame s t) ∧
  (∀ (g : Fin 16) (s : State), (s.grp g).events = [] → exec (.candidateDecision g) s = .next s) ∧
  (∀ (g : Fin 16) (x src : Nat) (rising coarse : Bool) (rest : List TrgEv) (d : TrgDef) (s : State),
    (s.grp g).events = ⟨x, .cross src rising coarse⟩ :: rest → (s.grp g).defAt = [] →
    d = trgDef (s.cfgAt (x / 65536)) g → d.typ = 0 → src = d.a → src ∈ srcsOf (s.cfgAt (x / 65536)) g →
    slopeIs d.slopeA rising = true → (s.grp g).inside x = true →
    (s.eligible g x = true → s.accepting g x = true → ∃ t r, exec (.candidateDecision g) s = .next t ∧
      (t.grp g).cur = some r ∧ ((s.grp g).closing = [] → r.kind = 1 ∧ r.t = x ∧
        r.s = (max ((x / 65536 : Nat) - (preCyc s.regs g : Int)) (s.grp g).region).toNat ∧
        r.e = x / 65536 + postCyc s.regs g - 1) ∧ (t.grp g).tp = some x ∧
      t.get (F.TRG_GRP_ACCEPT_CNT_COUNT g) = (s.get (F.TRG_GRP_ACCEPT_CNT_COUNT g) + 1) % 2 ^ 32 ∧
      t.getN (R.TRG_GRP_LAST_LCNT g) 2 = x / 65536 % 2 ^ 64 ∧ t.get (F.TRG_GRP_LAST_FINE_FINE g) = x % 65536 ∧
      ((s.grp g).stopReq = none → t.get (F.TRG_GRP_STATUS_STATE g) = 3) ∧
      t = { s with
        free := t.free, lcnt := t.lcnt, regs := t.regs, grps := t.grps, store := t.store, stageFill := t.stageFill,
        fillData := t.fillData, sto := t.sto, avgs := t.avgs, dbs := t.dbs }) ∧
    (s.eligible g x = true → s.accepting g x = false → ∃ t, exec (.candidateDecision g) s = .next t ∧
      t.get (F.TRG_GRP_MISSED_CNT_COUNT g) = min (s.get (F.TRG_GRP_MISSED_CNT_COUNT g) + 1) (2 ^ 32 - 1) ∧
      (t.grp g).missed = min ((s.grp g).missed + 1) 0xFFFFFFFF ∧ (t.grp g).cur = (s.grp g).cur ∧
      changesOnly [F.TRG_GRP_MISSED_CNT_COUNT g] s t ∧ t = { s with lcnt := t.lcnt, regs := t.regs, grps := t.grps }) ∧
    (s.eligible g x = false → ∃ t, exec (.candidateDecision g) s = .next t ∧
      t.get (F.TRG_GRP_HELD_CNT_COUNT g) = min (s.get (F.TRG_GRP_HELD_CNT_COUNT g) + 1) (2 ^ 32 - 1) ∧
      (t.grp g).held = min ((s.grp g).held + 1) 0xFFFFFFFF ∧ (t.grp g).cur = (s.grp g).cur ∧
      changesOnly [F.TRG_GRP_HELD_CNT_COUNT g] s t ∧ t = { s with lcnt := t.lcnt, regs := t.regs, grps := t.grps })) ∧
  (∀ (g : Fin 16) (x : Nat) (rest : List TrgEv) (s : State), (s.grp g).events = ⟨x, .force⟩ :: rest → (s.grp g).defAt = [] →
    s.accepting g x = false → ∃ t, exec (.candidateDecision g) s = .next t ∧ t.flag (F.TRG_GRP_STATUS_FORCE_LOST g) = true ∧
      (t.grp g).cur = (s.grp g).cur ∧ changesOnly [F.TRG_GRP_STATUS_FORCE_LOST g] s t ∧
      t = { s with lcnt := t.lcnt, regs := t.regs, grps := t.grps })

/-- TRG_GRP_CMD.ARM, ARM_TAKES_EFFECT, TRG_GRP_CMD.STOP, STOP_TAKES_EFFECT, TRG_GRP_CMD.FORCE (R89, R92, R93): an ARM takes effect at
the first boundary after its write, is logged and names the arming LCNT; an armed group ignores it; a STOP ends the acquisition at
a boundary; a FORCE is an event of its own instant in an armed group, lost otherwise. -/
def Obligations.GroupsArmStopAndForce : Prop :=
  (∀ (a : Nat) (g : Fin 16) (s : State), ∃ t, exec (.arm a g) s = .next t ∧ (t.grp g).armReq = some ((s.grp g).armReq.getD a) ∧
    t.lcnt = max s.lcnt a ∧ (∀ k : Nat, k ≠ g → t.grp k = s.grp k) ∧ t = { s with lcnt := t.lcnt, grps := t.grps }) ∧
  (∀ (a : Nat) (g : Fin 16) (s : State), (s.grp g).armReq = some a →
    ((s.grp g).armed = false → chMask s.regs g ≠ 0 → s.get F.TWIN_STATUS_ROLE ≠ 2 → ∃ t, exec (.armTakesEffect g) s = .next t ∧
      (t.grp g).armed = true ∧ (t.grp g).armReq = none ∧ (t.grp g).armLcnt = boundaryAfter a ∧ (t.grp g).segs = 0 ∧
      t.getN (R.TRG_GRP_ARM_LCNT g) 2 = boundaryAfter a % 2 ^ 64 ∧ t.lcnt = max s.lcnt (boundaryAfter a) ∧
      (isCont s.regs g = true → t.get (F.TRG_GRP_STATUS_STATE g) = 3) ∧
      (0x0501, s.locusGrp g) ∈ t.log.seen ∧ (∀ k : Nat, k ≠ g → t.grp k = s.grp k) ∧ flashSame s t) ∧
    ((s.grp g).armed = true → ∃ t, exec (.armTakesEffect g) s = .next t ∧ (t.grp g) = { s.grp g with armReq := none } ∧
      (0x0503, s.locusGrp g) ∈ t.log.seen ∧ (∀ k : Nat, k ≠ g → t.grp k = s.grp k) ∧ changesOnly logFlds s t)) ∧
  (∀ (g : Fin 16) (s : State), (s.grp g).armReq = none → exec (.armTakesEffect g) s = .next s) ∧
  (∀ (a : Nat) (g : Fin 16) (s : State), (s.grp g).armed = true → (s.grp g).stopReq = none → ∃ t, exec (.stop a g) s = .next t ∧
    (t.grp g).stopReq = some (a, .command) ∧ (isCont s.regs g = false → t.get (F.TRG_GRP_STATUS_STATE g) = 5) ∧
    t.lcnt = max s.lcnt a ∧ (∀ k : Nat, k ≠ g → t.grp k = s.grp k) ∧ changesOnly [F.TRG_GRP_STATUS_STATE g] s t ∧
    t = { s with lcnt := t.lcnt, regs := t.regs, grps := t.grps }) ∧
  (∀ (a : Nat) (g : Fin 16) (s : State), (s.grp g).armed = false → exec (.stop a g) s = .next (s.at_ a)) ∧
  (∀ (a : Nat) (g : Fin 16) (s : State), (s.grp g).stopReq = some (a, .command) → (s.grp g).armed = true → (s.grp g).cur = none →
    isCont s.regs g = false → ∃ t, exec (.stopTakesEffect g) s = .next t ∧ (t.grp g).armed = false ∧
      (t.grp g).stopReq = none ∧ (t.grp g).events = [] ∧ ((s.grp g).drop = none → (t.grp g).gaps = []) ∧ t.get (F.TRG_GRP_STATUS_STATE g) = 6 ∧
      t.lcnt = max s.lcnt (s.stopAt g a) ∧ (0x0502, s.locusGrp g) ∈ t.log.seen ∧
      (∀ k : Nat, k ≠ g → t.grp k = s.grp k) ∧ flashSame s t) ∧
  (∀ (g : Fin 16) (s : State), (s.grp g).stopReq = none → exec (.stopTakesEffect g) s = .next s) ∧
  (∀ (a : Nat) (g : Fin 16) (s : State),
    ((s.grp g).armed = true → ∃ t, exec (.force a g) s = .next t ∧
      (t.grp g).events = insertEv ⟨65536 * a, .force⟩ (s.grp g).events ∧ (∀ k : Nat, k ≠ g → t.grp k = s.grp k) ∧
      t.lcnt = max s.lcnt a ∧ t = { s with lcnt := t.lcnt, grps := t.grps }) ∧
    ((s.grp g).armed = false → ∃ t, exec (.force a g) s = .next t ∧ t.flag (F.TRG_GRP_STATUS_FORCE_LOST g) = true ∧
      t.lcnt = max s.lcnt a ∧ changesOnly [F.TRG_GRP_STATUS_FORCE_LOST g] s t ∧ t = { s with lcnt := t.lcnt, regs := t.regs }))

/-! ### The converter array (R31-R50) -/

/-- SAMPLE_WORD_DELIVERY (R10, R35, R38): the four words of a region tagged c reach the router at c + 40; with its correction off a
single channel's word enters the channel's history as the codes the die sent; a delivery of another shape is turned away. -/
def Obligations.WordsReachTheRouter : Prop :=
  (∀ (q : Fin 12) (c : Nat) (words : List RawWord) (s : State), words.length = 4 → words.all RawWord.wf = true →
    ∃ t, exec (.sampleWordDelivery q c words) s = .next t ∧ t.lcnt = max s.lcnt (c + 40) ∧ flashSame s t ∧
      t = { s with
        out := t.out, free := t.free, lcnt := t.lcnt, regs := t.regs, chans := t.chans, words := t.words, chains := t.chains,
        dcs := t.dcs, grps := t.grps, store := t.store, stageFill := t.stageFill, fillData := t.fillData, sto := t.sto,
        avgs := t.avgs, dbs := t.dbs, hitQ := t.hitQ, tallyPage := t.tallyPage, frames := t.frames, framePub := t.framePub,
        strms := t.strms, msix := t.msix, cal := t.cal, twin := t.twin, log := t.log }) ∧
  (∀ (q : Fin 12) (c : Nat) (words : List RawWord) (i : Fin 4) (n : Nat) (w : RawWord) (s : State), words.length = 4 →
    words.all RawWord.wf = true → n = 4 * q + i → words[i.val]? = some w → w.eccBad = false → paired (s.cfgAt c) n = false →
    (s.cfgAt c).bit (F.CONV_CH_CTRL_CORR_OFF n) = true → bitOf s.fenceMask n = false → (s.chan n).fencedAt = none →
    s.pllGapAt c = false → s.calHeldAt n c = false →
    ∃ t, exec (.sampleWordDelivery q c words) s = .next t ∧ ∃ m, (Tab.get [] t.words n).head? = some (c, w.x, m)) ∧
  (∀ (q : Fin 12) (c : Nat) (words : List RawWord) (s : State), words.length ≠ 4 →
    exec (.sampleWordDelivery q c words) s = .fault (.illFormed "SAMPLE_WORD_DELIVERY"))

/-- CLAMP_TRIP, CLAMP_RELEASE (R41), SPARE_TAKEOVER, ROTATION_STEP_DUE (R44-R47): the clamp holds from its trip on and marks
words up to 64 cycles after its release; a failed position's slot goes to the spare at the boundary; a step due lets the spare
take the next slot and the position it replaces become the spare, or is deferred while a window needs the words. -/
def Obligations.ClampsAndTheRotatingSpare : Prop :=
  (∀ (n : Fin 48) (c : Nat) (s : State),
    ((s.chan n).clamp = none → paired (s.cfgAt c) n = false →
      exec (.clampTrip n c) s = .next ((s.at_ c).setChan n { s.chan n with clamp := some c })) ∧
    ((s.chan n).clamp ≠ none → exec (.clampTrip n c) s = .next (s.at_ c)) ∧
    (∀ a, (s.chan n).clamp = some a → exec (.clampRelease n c) s = .next ((s.at_ c).setChan n { s.chan n with
      clamp := none, clampOvr := (a, c + 64) :: (s.chan n).clampOvr })) ∧
    ((s.chan n).clamp = none → exec (.clampRelease n c) s = .next (s.at_ c))) ∧
  (∀ (n : Fin 48) (j p : Nat) (s : State), (s.chan n).takeover = some j → (s.chan n).spare = some p →
    ∃ t, exec (.spareTakeover n) s = .next t ∧ (t.chan n).slots = Tab.set (s.chan n).slots j p ∧
      (t.chan n).parked = Tab.get j (s.chan n).slots j :: (s.chan n).parked ∧ (t.chan n).takeover = none ∧
      (t.chan n).spare = none ∧ (t.chan n).stepAt = some s.nextTick ∧ t.flag (F.CONV_CH_STATUS_NO_SPARE n) = true ∧
      t.get (F.CONV_CH_STATUS_SPARE_POS n) = 0xFF ∧ (∀ k ∉ s.arrays n, t.chan k = s.chan k) ∧
      changesOnly [F.CONV_CH_STATUS_NO_SPARE n, F.CONV_CH_STATUS_SPARE_POS n] s t ∧
      t = { s with lcnt := t.lcnt, regs := t.regs, chans := t.chans }) ∧
  (∀ (n : Fin 48) (s : State), (s.chan n).takeover ≠ none → (s.chan n).spare = none →
    exec (.spareTakeover n) s = .next (s.at_ s.nextTick)) ∧
  (∀ (n : Fin 48) (s : State), (s.chan n).takeover = none → exec (.spareTakeover n) s = .next s) ∧
  (∀ (n : Fin 48) (b j p d : Nat) (s : State), b = s.nextTick → j = s.get (F.CONV_CH_STATUS_NEXT_SLOT n) →
    (s.chan n).spare = some p → (s.chan n).due = some d → d ≤ b → (s.chan n).rotAt ≠ some b → bitOf s.fenceMask n = false →
    paired s.regs n = false → s.flag F.CONV_ROT_CTRL_EN = true → s.flag (F.CONV_CH_CTRL_ROT_HOLD n) = false →
    bitOf s.calMask n = false → (s.chan n).takeover = none →
    (s.windowMeets n b = false → ∃ t, exec (.rotationStepDue n) s = .next t ∧ t.lcnt = max s.lcnt b ∧
      (t.chan n).slots = Tab.set (s.chan n).slots j p ∧ (t.chan n).spare = some (Tab.get j (s.chan n).slots j) ∧
      (t.chan n).stepAt = some b ∧ (t.chan n).due = some (d + s.rotPeriod) ∧ (t.chan n).stepPending = false ∧
      t.get (F.CONV_CH_STATUS_NEXT_SLOT n) = (j + 1) % 64 ∧
      t.get (F.CONV_CH_STATUS_SPARE_POS n) = Tab.get j (s.chan n).slots j % 256 ∧
      t.get (F.CONV_ROT_STEPS_COUNT n) = (s.get (F.CONV_ROT_STEPS_COUNT n) + 1) % 2 ^ 32 ∧
      t.get (F.CONV_ROT_DUE_DEFERRED n) = 0 ∧ (∀ k : Nat, k ≠ n → t.chan k = s.chan k) ∧
      changesOnly [F.CONV_CH_STATUS_NEXT_SLOT n, F.CONV_CH_STATUS_SPARE_POS n, F.CONV_ROT_STEPS_COUNT n,
        F.CONV_ROT_DUE_DEFERRED n, F.CONV_ROT_DUE_TICKS n, F.CAL_Q_SPUR_DBC n, F.CAL_Q_SKEW_FS n, F.CAL_Q_ENOB_CBIT n] s t ∧
      t = { s with free := t.free, lcnt := t.lcnt, regs := t.regs, chans := t.chans }) ∧
    (s.windowMeets n b = true → s.get (F.CONV_ROT_DUE_DEFERRED n) < s.get F.CONV_ROT_CTRL_MAX_DEFER →
      ∃ t, exec (.rotationStepDue n) s = .next t ∧ (t.chan n).slots = (s.chan n).slots ∧ (t.chan n).stepPending = true ∧
        t.get (F.CONV_ROT_DUE_DEFERRED n) = s.get (F.CONV_ROT_DUE_DEFERRED n) + 1 ∧
        (∀ k : Nat, k ≠ n → t.chan k = s.chan k) ∧
        changesOnly [F.CONV_ROT_DUE_DEFERRED n, F.CONV_ROT_DUE_TICKS n] s t ∧
        t = { s with lcnt := t.lcnt, regs := t.regs, chans := t.chans }))

/-- TRIM_ESTIMATE, SLOT_MONITOR_CHECK (R47, R324): an estimate within Table 2.5 loads the spare's coefficients, a disturbed one
leaves it stale, one outside parks the spare; a slot that misses its criterion twice in a row hands its slot to the spare. -/
def Obligations.EstimatesAndTheSlotMonitor : Prop :=
  (∀ (n : Fin 48) (p : Nat) (e : TrimEst) (s : State), (s.chan n).spare = some p → p < 65 → (s.chan n).takeover = none →
    s.flag F.CONV_ROT_CTRL_EN = true →
    (e.disturbed = true → ∃ t, exec (.trimEstimate n e) s = .next t ∧ p ∈ (t.chan n).stale ∧
      t.flag (F.CAL_CH_STATUS_TRIM_STALE n) = true ∧ (∀ k : Nat, k ≠ n → t.chan k = s.chan k) ∧
      changesOnly [F.CAL_CH_STATUS_TRIM_STALE n] s t ∧ t = { s with regs := t.regs, chans := t.chans }) ∧
    (e.disturbed = false → estBad e = true → ∃ t, exec (.trimEstimate n e) s = .next t ∧ (t.chan n).spare = none ∧
      (t.chan n).parked = p :: (s.chan n).parked ∧ t.flag (F.CONV_CH_STATUS_NO_SPARE n) = true ∧
      t.get (F.CONV_CH_STATUS_SPARE_POS n) = 0xFF ∧ (0x0203, s.locusCh n p) ∈ t.log.seen ∧
      (∀ k ∉ s.arrays n, t.chan k = s.chan k) ∧
      changesOnly ([F.CONV_CH_STATUS_NO_SPARE n, F.CONV_CH_STATUS_SPARE_POS n] ++ logFlds) s t) ∧
    (e.disturbed = false → estBad e = false → e.taps.length = 9 → ∃ t, exec (.trimEstimate n e) s = .next t ∧
      t.get (F.CONV_COEF_VALUE n p 0) = enc 16 e.off ∧ t.get (F.CONV_COEF_VALUE n p 1) = e.gain % 2 ^ 18 ∧
      (∀ (i : Fin 9) (x : Int), e.taps[i.val]? = some x → t.get (F.CONV_COEF_VALUE n p (2 + i)) = enc 18 x) ∧
      p ∉ (t.chan n).stale ∧ (∀ k : Nat, k ≠ n → t.chan k = s.chan k) ∧
      changesOnly (F.CAL_CH_STATUS_TRIM_STALE n :: (List.range 11).map (F.CONV_COEF_VALUE n p)) s t ∧
      t = { s with regs := t.regs, chans := t.chans })) ∧
  (∀ (n : Fin 48) (e : TrimEst) (s : State), (s.chan n).spare = none ∨ s.flag F.CONV_ROT_CTRL_EN = false → exec (.trimEstimate n e) s = .next s) ∧
  (∀ (n : Fin 48) (s : State), (s.chan n).monWords = 0 → exec (.slotMonitorCheck n) s = .next s) ∧
  (∀ (n : Fin 48) (s : State), (s.chan n).monWords ≠ 0 →
    ((∀ j : Fin 64, ((s.chan n).missesOf j).1 < 2 ∧ ((s.chan n).missesOf j).2 < 2) → ∃ t, exec (.slotMonitorCheck n) s = .next t ∧
      (t.chan n).monSum = [] ∧ (t.chan n).monSq = [] ∧ (t.chan n).monWords = 0 ∧ (t.chan n).slots = (s.chan n).slots ∧
      (∀ k : Nat, k ≠ n → t.chan k = s.chan k) ∧ t = { s with chans := t.chans }) ∧
    (∀ j : Fin 64, (∀ i : Fin 64, (2 ≤ ((s.chan n).missesOf i).1 ∨ 2 ≤ ((s.chan n).missesOf i).2) ↔ i = j) →
      (s.chan n).spare ≠ none → (s.chan n).takeover = none → ∃ t, exec (.slotMonitorCheck n) s = .next t ∧
        (t.chan n).takeover = some j.val ∧ (t.chan n).monWords = 0 ∧
        (0x0203, s.locusCh n (Tab.get j.val (s.chan n).slots j)) ∈ t.log.seen ∧ changesOnly logFlds s t))

/-! ### Records, gaps and slots (R90-R125) -/

/-- FILL_COMPLETE, RECORD_SPAN_END, REARM_END (R90-R92, R101): a filling group accepts from r plus its pre-trigger cycles on; at
the end of its span the open record waits for its final header and the group goes to REARM, or to its end after the last
segment; eight cycles later the next region starts in a free slot, to which the elements that came before the last decision move.
REARM_END is stated with no NOT_RUN block due. -/
def Obligations.GroupsFillRecordAndRearm : Prop :=
  (∀ (g : Fin 16) (f : Nat) (s : State), s.flag (F.TRG_GRP_CTRL_PRE_WAIT g) = true → (s.grp g).claim ≠ none →
    (s.grp g).cur = none → (s.grp g).readyFrom = none → isCont s.regs g = false → f = (s.grp g).region + preCyc s.regs g →
    ∃ t, exec (.fillComplete g) s = .next t ∧ (t.grp g) = { s.grp g with readyFrom := some f } ∧ t.lcnt = max s.lcnt f ∧
      t.get (F.TRG_GRP_STATUS_STATE g) = (if (s.grp g).stopReq = none then 2 else s.get (F.TRG_GRP_STATUS_STATE g)) ∧
      (∀ k : Nat, k ≠ g → t.grp k = s.grp k) ∧
      changesOnly [F.TRG_GRP_STATUS_STATE g] s t ∧ t = { s with lcnt := t.lcnt, regs := t.regs, grps := t.grps }) ∧
  (∀ (g : Fin 16) (s : State), s.flag (F.TRG_GRP_CTRL_PRE_WAIT g) = false ∨ (s.grp g).claim = none ∨ (s.grp g).cur ≠ none ∨
    (s.grp g).readyFrom ≠ none ∨ isCont s.regs g = true → exec (.fillComplete g) s = .next s) ∧
  (∀ (g : Fin 16) (r : Rec) (s : State), (s.grp g).cur = some r → ∃ t, exec (.recordSpanEnd g) s = .next t ∧
      (isCont s.regs g = true → t.regs = s.regs) ∧
      (isCont s.regs g = false → t.get (F.TRG_GRP_STATUS_STATE g) =
        (if (s.grp g).stopReq ≠ none ∨ segCount s.regs g ≤ (s.grp g).segs + 1 then 5 else 4)) ∧
      (t.grp g).cur = none ∧ (t.grp g).closing = (s.grp g).closing ++ [r] ∧ (t.grp g).ePrev = some r.e ∧
      (t.grp g).pastRecs = (r.num, r.s, r.e) :: (s.grp g).pastRecs ∧ (t.grp g).segs = (s.grp g).segs + 1 ∧
      t.lcnt = max s.lcnt (r.e + 1) ∧ (∀ k : Nat, k ≠ g → t.grp k = s.grp k) ∧
      changesOnly [F.TRG_GRP_STATUS_STATE g] s t ∧ t = { s with lcnt := t.lcnt, regs := t.regs, grps := t.grps }) ∧
  (∀ (g : Fin 16) (s : State), (s.grp g).cur = none → exec (.recordSpanEnd g) s = .next s) ∧
  (∀ (g : Fin 16) (e l : Nat) (s : State), s.abaSkip = [] → (s.grp g).armed = true → (s.grp g).cur = none →
    (s.grp g).claim = none → (s.grp g).hold = false → isCont s.regs g = false → (s.grp g).ePrev = some e → (s.grp g).region ≤ e →
    (s.grp g).stopReq = none → l = s.nextLpage g (layoutOf s.regs g).pages →
    (s.grp g).slotFree l (layoutOf s.regs g).pages = true → ∃ t, exec (.rearmEnd g) s = .next t ∧
      t.get (F.TRG_GRP_STATUS_STATE g) = (if s.flag (F.TRG_GRP_CTRL_PRE_WAIT g) = true ∧ preCyc s.regs g ≠ 0 then 1 else 2) ∧
      (t.grp g).region = e + 9 ∧ (t.grp g).claim = some l ∧ t.flag (F.REC_GRP_STATUS_PRESSURE g) = false ∧
      t.lcnt = max s.lcnt (e + 9) ∧ (∀ k : Nat, k ≠ g → t.grp k = s.grp k) ∧
      onlyFields [F.TRG_GRP_STATUS_STATE g, F.REC_GRP_STATUS_PRESSURE g] s t ∧ ((s.grp g).winFrom = none → t.store = s.store) ∧
      t = { s with lcnt := t.lcnt, regs := t.regs, grps := t.grps, store := t.store, sto := t.sto }) ∧
  (∀ (g : Fin 16) (s : State), s.abaSkip = [] → (s.grp g).ePrev = none ∨ (s.grp g).armed = false ∨ (s.grp g).cur ≠ none ∨
    (s.grp g).claim ≠ none ∨ (s.grp g).hold = true ∨ isCont s.regs g = true → exec (.rearmEnd g) s = .next s)

/-- CONTINUOUS_RECORD_OPEN, FINAL_HEADER_WRITE (R102, R105, R109, R122, R136): the next grid record opens in a free slot with the
number of REC_GRP_NEXT_NUM, which counts on; the oldest closing record's final header is staged, the record leaves the closing
ones and enters the abacus queue when it has entries, or waits for its NOT_RUN block when that queue is full (R137). -/
def Obligations.RecordsOpenAndClose : Prop :=
  (∀ (g : Fin 16) (per x l : Nat) (s : State), isCont s.regs g = true → (s.grp g).armed = true → (s.grp g).cur = none →
    (s.grp g).hold = false → (s.grp g).stopReq = none → per = s.gridLen g →
    x = (s.grp g).region + (s.grp g).grid * per → l = s.nextLpage g (layoutOf s.regs g).pages →
    (s.grp g).slotFree l (layoutOf s.regs g).pages = true →
    ∃ t r, exec (.continuousRecordOpen g) s = .next t ∧ (t.grp g).cur = some r ∧ r.kind = 3 ∧ r.s = x ∧ r.e = x + per - 1 ∧
      r.lpage = l ∧ r.num = s.getN (R.REC_GRP_NEXT_NUM g) 2 ∧
      t.getN (R.REC_GRP_NEXT_NUM g) 2 = (s.getN (R.REC_GRP_NEXT_NUM g) 2 + 1) % 2 ^ 64 ∧
      (t.grp g).slots.length = (s.grp g).slots.length + 1 ∧ t.lcnt = max s.lcnt x ∧
      (∀ k : Nat, k ≠ g → t.grp k = s.grp k) ∧
      changesOnly (gapFlds g ++ ringFlds g ++ wideFlds (R.REC_GRP_NEXT_NUM g) 2) s t ∧
      t = { s with free := t.free, lcnt := t.lcnt, regs := t.regs, grps := t.grps, stageFill := t.stageFill }) ∧
  (∀ (g : Fin 16) (s : State), isCont s.regs g = false ∨ (s.grp g).armed = false ∨ (s.grp g).cur ≠ none ∨ (s.grp g).hold = true →
    exec (.continuousRecordOpen g) s = .next s) ∧
  (∀ (g : Fin 16) (r : Rec) (rest : List Rec) (s : State), (s.grp g).closing = r :: rest → s.abaSkip = [] →
    ∃ t, exec (.finalHeaderWrite g) s = .next t ∧ t.lcnt = max s.lcnt (s.finalAt r) ∧
      (t.grp g).closing = (r :: rest).filter (fun x => x.num != r.num) ∧ (t.grp g).cur = (s.grp g).cur ∧
      (r.lay.meas = 0 → t.abaQ = s.abaQ ∧ t.abaSkip = []) ∧
      (r.lay.meas ≠ 0 → s.abaQ.length < 64 → t.abaQ.length = s.abaQ.length + 1 ∧ t.abaSkip = []) ∧
      (r.lay.meas ≠ 0 → 64 ≤ s.abaQ.length → t.abaQ = s.abaQ ∧ t.abaSkip.length = 1 ∧
        t.flag (F.ABA_GRP_STATUS_SKIPPED g) = true) ∧
      (∀ k : Nat, k ≠ g → t.grp k = s.grp k) ∧
      changesOnly (F.ABA_GRP_STATUS_PENDING g :: F.ABA_GRP_SKIP_CNT_COUNT g :: F.ABA_GRP_STATUS_SKIPPED g :: F.ABA_GRP_STATUS_BUSY g ::
        (gapFlds g ++ s.abaQ.map (fun j => F.ABA_GRP_STATUS_BUSY j.grp))) s t ∧
      t = { s with
        lcnt := t.lcnt, regs := t.regs, grps := t.grps, stageFill := t.stageFill, abaQ := t.abaQ, abaSkip := t.abaSkip }) ∧
  (∀ (g : Fin 16) (s : State), (s.grp g).closing = [] → exec (.finalHeaderWrite g) s = .next s)

/-- SLOT_FREED, RECORD_RELEASE (R122, R123, R137): a group held by a full ring goes on when a slot is free, its region unchanged; a
release frees the slot of the oldest record that is ready, or waits for its trailer when entries are still to come. RECORD_RELEASE
is stated with no NOT_RUN block due. -/
def Obligations.SlotsFreeAndRelease : Prop :=
  (∀ (g : Fin 16) (l : Nat) (s : State), (s.grp g).hold = true → (s.grp g).armed = true → (s.grp g).stopReq = none →
    isCont s.regs g = false → l = s.nextLpage g (layoutOf s.regs g).pages →
    (s.grp g).slotFree l (layoutOf s.regs g).pages = true → ∃ t, exec (.slotFreed g) s = .next t ∧
      (t.grp g).hold = false ∧ (t.grp g).region = (s.grp g).region ∧ (t.grp g).claim = some l ∧
      t.get (F.TRG_GRP_STATUS_STATE g) =
        (if s.flag (F.TRG_GRP_CTRL_PRE_WAIT g) = true ∧ s.lcnt < (s.grp g).region + preCyc s.regs g then 1 else 2) ∧
      t.flag (F.REC_GRP_STATUS_PRESSURE g) = false ∧ (∀ k : Nat, k ≠ g → t.grp k = s.grp k) ∧
      changesOnly ([F.TRG_GRP_STATUS_STATE g, F.REC_GRP_STATUS_PRESSURE g] ++ gapFlds g) s t ∧
      t = { s with regs := t.regs, grps := t.grps, stageFill := t.stageFill }) ∧
  (∀ (g : Fin 16) (s : State), (s.grp g).hold = false ∨ (s.grp g).armed = false → exec (.slotFreed g) s = .next s) ∧
  (∀ (g : Fin 16) (x : Slot) (s : State), s.abaSkip = [] → (s.grp g).slots.find? (fun y => y.ready) = some x →
    (s.grp g).slots.find? (fun y => y.num == x.num) = some x →
    (x.measured = true → ∃ t, exec (.recordRelease g) s = .next t ∧
      (t.grp g).slots = (s.grp g).slots.filter (fun y => y.num != x.num) ∧ (∀ k : Nat, k ≠ g → t.grp k = s.grp k) ∧
      changesOnly (ringFlds g ++ gapFlds g) s t ∧ t = { s with regs := t.regs, grps := t.grps, stageFill := t.stageFill }) ∧
    (x.measured = false → ∃ t, exec (.recordRelease g) s = .next t ∧
      (t.grp g).slots = (s.grp g).slots.map (fun y => if y.num = x.num then { y with relReq := true } else y) ∧
      (∀ k : Nat, k ≠ g → t.grp k = s.grp k) ∧ t = { s with grps := t.grps })) ∧
  (∀ (g : Fin 16) (s : State), s.abaSkip = [] → (s.grp g).slots.find? (fun y => y.ready) = none →
    exec (.recordRelease g) s = .next s)

/-! ### Measurements (R127-R137) -/

/-- ABACUS_TRAILER_WRITE (R128, R136, R137, R164): the record at the head of the queue is measured; its block, entries and trailer,
is written at offset 100H of its image 32 cycles after the later of its own end and the engine's, plus its points at 512 a cycle
and pass, once the tally class has been granted its reads, and nothing else is written; ABA_GRP_DONE takes its number. Stated with
no NOT_RUN block due and no failed stack. -/
def Obligations.AbacusMeasuresTheHead : Prop :=
  (∀ (j : AbaJob) (rest : List AbaJob) (fin A : Nat) (q : Bool × State) (bs : List Byte) (s : State), s.abaQ = j :: rest →
    s.abaSkip = [] → fin = max j.fin s.abaEnd + 32 + j.work.passes * ceilDiv j.work.points 512 →
    q = (s.at_ fin).ask 2 abaKey j.work.bytes → A = s.lpAddr j.grp j.rcd.lpage 0x100 →
    bs = blockBytes j.rcd.num ((abaEntries j.cfg j.grp).map (fun p => (q.2.abaView j).slotEntry j p.1 p.2)) →
    (q.1 = false → exec .abacusTrailerWrite s = .next q.2) ∧
    (q.1 = true → ∃ t, exec .abacusTrailerWrite s = .next t ∧ t.abaQ = rest ∧ t.lcnt = max s.lcnt fin ∧
      (s.sto.reqs.any (fun r => r.cls == 2 && r.key == abaKey) = false → t.abaEnd = fin) ∧
      (Mem.wf 0 s.store = true → s.sto.failed = [] →
        (∀ i (h : i < bs.length), t.sread (A + i) = bs[i]) ∧ ∀ a, a < A ∨ A + bs.length ≤ a → t.sread a = s.sread a) ∧
      t.getN (R.ABA_GRP_DONE j.grp) 2 = j.rcd.num % 2 ^ 64 ∧
      t.get (F.ABA_GRP_STATUS_PENDING j.grp) = (rest.filter (fun x => x.grp == j.grp)).length % 128 ∧
      (∀ k : Nat, k ≠ j.grp → t.grp k = s.grp k) ∧
      onlyFields (F.ABA_GRP_STATUS_PENDING j.grp :: F.STO_CLASS_BACKLOG_BYTES 2 :: (ringFlds j.grp ++ gapFlds j.grp ++
        s.abaQ.map (fun x => F.ABA_GRP_STATUS_BUSY x.grp) ++ wideFlds (R.ABA_GRP_DONE j.grp) 2)) s t ∧
      t = { s with
        free := t.free, lcnt := t.lcnt, regs := t.regs, grps := t.grps, store := t.store, stageFill := t.stageFill,
        sto := t.sto, abaQ := t.abaQ, abaEnd := t.abaEnd })) ∧
  (∀ s : State, s.abaQ = [] → s.abaSkip = [] → exec .abacusTrailerWrite s = .next s)

/-! ### The tally unit (R138-R151) -/

/-- AVERAGE_ADD, TAL_AVG_CMD.RESTART (R126, R139, R141, R142, R164): once the tally class has been granted its bytes, the oldest landed
record is added to the accumulators of the open set and counted; the record that completes the set publishes it in the tally ring,
and the next set is empty; a paused unit leaves the record out and counts it; RESTART discards the open set and ends a pause. -/
def Obligations.AveragesTakeLandedRecords : Prop :=
  (∀ (g : Fin 16) (j : AvgJob) (rest : List AvgJob) (q : Bool × State) (s : State), (s.avg g).landed = j :: rest →
    (s.avg g).paused = false → j.cut = false →
    q = s.ask 2 g ((5 * j.cfg.len / 4 + 12 * j.cfg.len) * (bitsSet 48 j.mask).length) →
    (q.1 = false → exec (.averageAdd g) s = .next q.2) ∧
    (q.1 = true → (s.avg g).count + 1 < j.cfg.count → ∃ t, exec (.averageAdd g) s = .next t ∧
      (t.avg g).count = (s.avg g).count + 1 ∧ (t.avg g).landed = rest ∧ (t.avg g).cfg = j.cfg ∧
      t.get (F.TAL_AVG_ACC_COUNT g) = ((s.avg g).count + 1) % 2 ^ 25 ∧ (t.avg g).lastCt = j.t / 65536 ∧
      (t.avg g).mask = (if (s.avg g).count = 0 then j.mask else Nat.land (s.avg g).mask j.mask) ∧
      (∀ k : Nat, k ≠ g → t.avg k = s.avg k) ∧ onlyFields [F.TAL_AVG_ACC_COUNT g, F.STO_CLASS_BACKLOG_BYTES 2] s t ∧
      (Mem.wf 0 s.store = true → ∀ a, (∀ n ∈ bitsSet 48 j.mask, ∀ i < j.cfg.len,
        a < j.cfg.accAddr (s.avg g).buf n + 6 * i ∨ j.cfg.accAddr (s.avg g).buf n + 6 * i + 6 ≤ a) → t.sread a = s.sread a) ∧
      t = { s with free := t.free, regs := t.regs, store := t.store, sto := t.sto, avgs := t.avgs }) ∧
    (q.1 = true → j.cfg.count ≤ (s.avg g).count + 1 → ∃ t, exec (.averageAdd g) s = .next t ∧
      (t.avg g).count = 0 ∧ (t.avg g).landed = rest ∧ (t.avg g).frame = (s.avg g).frame + 1 ∧ (t.avg g).buf = 1 - (s.avg g).buf ∧
      (t.avg g).paused = !j.cfg.auto ∧ t.get (F.TAL_AVG_ACC_COUNT g) = 0 ∧ flashSame s t ∧ t.pending = s.pending ∧
      (∀ k : Nat, k ≠ g → t.avg k = s.avg k) ∧
      (Mem.wf 0 s.store = true → ∀ a, (∀ n ∈ bitsSet 48 j.mask, ∀ i < j.cfg.len,
        a < j.cfg.accAddr (s.avg g).buf n + 6 * i ∨ j.cfg.accAddr (s.avg g).buf n + 6 * i + 6 ≤ a) →
        a < s.frameAddr 0 ∨ s.frameAddr (s.get F.TAL_RING_SIZE_PAGES) ≤ a → t.sread a = s.sread a))) ∧
  (∀ (g : Fin 16) (j : AvgJob) (rest : List AvgJob) (s : State), (s.avg g).landed = j :: rest → (s.avg g).paused = true →
    j.cut = false → ∃ t, exec (.averageAdd g) s = .next t ∧
      t.avg g = { s.avg g with landed := rest, rej := (s.avg g).rej + 1 } ∧
      t.get (F.TAL_AVG_REJ_CNT_COUNT g) = min (s.get (F.TAL_AVG_REJ_CNT_COUNT g) + 1) (2 ^ 32 - 1) ∧
      (∀ k : Nat, k ≠ g → t.avg k = s.avg k) ∧
      changesOnly [F.TAL_AVG_REJ_CNT_COUNT g] s t ∧ t = { s with regs := t.regs, avgs := t.avgs }) ∧
  (∀ (g : Fin 16) (s : State), (s.avg g).landed = [] → exec (.averageAdd g) s = .next s) ∧
  (∀ (g : Fin 16) (s : State), ∃ t, exec (.talAvgRestart g) s = .next t ∧ (t.avg g).count = 0 ∧
    (t.avg g).landed = (s.avg g).landed ∧ (t.avg g).offered = (s.avg g).offered ∧ (t.avg g).frame = (s.avg g).frame ∧
    (t.avg g).paused = false ∧ t.get (F.TAL_AVG_ACC_COUNT g) = 0 ∧ (∀ k : Nat, k ≠ g → t.avg k = s.avg k) ∧
    changesOnly [F.TAL_AVG_ACC_COUNT g] s t ∧ t = { s with regs := t.regs, avgs := t.avgs })

/-- HIT_WAVEFORM_DRAW, DECAY_DUE, DECAY_SWEEP_END (R143-R146, R150): the waveform at the head of the queue is drawn at 32 updates a
cycle, 125 cycles at least, and counted, or left out and counted when its channel has been fenced; a sweep falls due every
DECAY_PER ticks and waits for a running copy; at its end every cell that no update reached first is decayed, and a sweep that
waited starts. -/
def Obligations.HitDatabasesDrawAndDecay : Prop :=
  (∀ (j : HitJob) (rest : List HitJob) (st : Nat) (s : State), s.hitQ = j :: rest → st = max j.at_ s.hitEnd →
    (bitOf s.fenceMask j.ch = true → ∃ t, exec .hitWaveformDraw s = .next t ∧ t.hitQ = rest ∧
      (t.db j.d).cells = (s.db j.d).cells ∧ (t.db j.d).skipped = (s.db j.d).skipped + 1 ∧
      t.get (F.TAL_DB_SKIP_CNT_COUNT j.d) = min (s.get (F.TAL_DB_SKIP_CNT_COUNT j.d) + 1) (2 ^ 32 - 1) ∧
      changesOnly [F.TAL_DB_SKIP_CNT_COUNT j.d] s t ∧ t = { s with regs := t.regs, dbs := t.dbs, hitQ := t.hitQ }) ∧
    (bitOf s.fenceMask j.ch = false → ∃ t, exec .hitWaveformDraw s = .next t ∧ t.hitQ = rest ∧
      t.hitEnd = st + max 125 (ceilDiv j.cells.length 32) ∧
      t.lcnt = max s.lcnt (st + max 125 (ceilDiv j.cells.length 32)) ∧
      (t.db j.d).cells = ((s.db j.d).drawAll (s.get (F.TAL_DB_DECAY_MODE j.d)) (s.get (F.TAL_DB_DECAY_STEP j.d)) st 0 j.cells).1.cells ∧
      t.flag (F.TAL_DB_STATUS_SAT j.d) = (s.flag (F.TAL_DB_STATUS_SAT j.d) ||
        ((s.db j.d).drawAll (s.get (F.TAL_DB_DECAY_MODE j.d)) (s.get (F.TAL_DB_DECAY_STEP j.d)) st 0 j.cells).2) ∧
      (t.db j.d).drawn = (s.db j.d).drawn + 1 ∧
      t.get (F.TAL_DB_WFM_CNT_COUNT j.d) = (s.get (F.TAL_DB_WFM_CNT_COUNT j.d) + 1) % 2 ^ 32 ∧
      (∀ k : Nat, k ≠ j.d → t.db k = s.db k) ∧
      changesOnly [F.TAL_DB_WFM_CNT_COUNT j.d, F.TAL_DB_STATUS_SAT j.d] s t ∧
      t = { s with lcnt := t.lcnt, regs := t.regs, dbs := t.dbs, hitQ := t.hitQ, hitEnd := t.hitEnd })) ∧
  (∀ s : State, s.hitQ = [] → exec .hitWaveformDraw s = .next s) ∧
  (∀ (d : Fin 8) (k : Nat) (s : State),
    k = dueTick (s.db d).lastDecay (max 16 (s.get (F.TAL_DB_DECAY_PER_TICKS d))) (s.lcnt / 2048) →
    ∃ t, exec (.decayDue d) s = .next t ∧ t.lcnt = max s.lcnt (2048 * k) ∧ (t.db d).lastDecay = k ∧
      ((s.db d).sweep = none → (t.db d).cells = (s.db d).cells) ∧
      ((s.db d).sweep = none → (s.db d).copy = none → s.get (F.TAL_DB_DECAY_MODE d) ≠ 0 →
        (t.db d).sweep = some (2048 * k, []) ∧ t.flag (F.TAL_DB_STATUS_DECAYING d) = true) ∧
      ((s.db d).sweep = none → (s.db d).copy ≠ none → (t.db d).decayReq = true ∧ (t.db d).sweep = none ∧ t.regs = s.regs) ∧
      (∀ i : Nat, i ≠ d → t.db i = s.db i) ∧
      changesOnly [F.TAL_DB_STATUS_DECAYING d] s t ∧ t = { s with lcnt := t.lcnt, regs := t.regs, dbs := t.dbs }) ∧
  (∀ (d : Fin 8) (st : Nat) (done : List Nat) (s : State), (s.db d).sweep = some (st, done) →
    ∃ t, exec (.decaySweepEnd d) s = .next t ∧ t.lcnt = max s.lcnt (st + 32768) ∧
      ((s.db d).decayReq = false ∨ (s.db d).copy ≠ none →
        (t.db d).sweep = none ∧ t.flag (F.TAL_DB_STATUS_DECAYING d) = false) ∧
      ((s.db d).decayReq = true → (s.db d).copy = none → s.get (F.TAL_DB_DECAY_MODE d) ≠ 0 →
        (t.db d).sweep = some (st + 32768, []) ∧ t.flag (F.TAL_DB_STATUS_DECAYING d) = true) ∧
      (∀ i v, v = (if i ∈ done then Tab.get 0 (s.db d).cells i
        else decayOf (s.get (F.TAL_DB_DECAY_MODE d)) (s.get (F.TAL_DB_DECAY_STEP d)) (Tab.get 0 (s.db d).cells i)) → v ≠ 0 →
        Tab.get 0 (t.db d).cells i = v) ∧
      (∀ i : Nat, i ≠ d → t.db i = s.db i) ∧
      changesOnly [F.TAL_DB_STATUS_DECAYING d] s t ∧ t = { s with lcnt := t.lcnt, regs := t.regs, dbs := t.dbs }) ∧
  (∀ (d : Fin 8) (s : State), (s.db d).sweep = none → exec (.decaySweepEnd d) s = .next s)

/-- SNAPSHOT_DUE, TAL_DB_CMD.SNAP, SNAPSHOT_COPY_START, SNAPSHOT_COPY_END, TAL_DB_CMD.CLEAR, DB_CLEAR_APPLY (R146-R149, R164): a request
waits for a boundary at which no copy runs anywhere and the tally class is granted the first tick of the copy, which takes its 65
pages of the ring, or counts one lost when pinned pages leave no room, and ends 4096 cycles later with the frame published; a
clear waits for the database's own copy, completes a waveform that is being drawn, and empties every cell. -/
def Obligations.HitDatabasesSnapAndClear : Prop :=
  (∀ (d : Fin 8) (k : Nat) (s : State), k = dueTick (s.db d).lastSnap (s.get (F.TAL_DB_SNAP_TICKS d)) (s.lcnt / 2048) →
    (s.get (F.TAL_DB_SNAP_TICKS d) ≠ 0 →
      exec (.snapshotDue d) s = .next ((s.at_ (2048 * k)).setDb d { s.db d with lastSnap := k, snapReq := true })) ∧
    (s.get (F.TAL_DB_SNAP_TICKS d) = 0 → exec (.snapshotDue d) s = .next s) ∧
    exec (.talDbSnap d) s = .next (s.setDb d { s.db d with snapReq := true }) ∧
    exec (.talDbClear d) s = .next (s.setDb d { s.db d with clearReq := true })) ∧
  (∀ (d : Fin 8) (q : Bool × State) (s : State), (s.db d).snapReq = true → (∀ k : Nat, k < 8 → (s.db k).copy = none) →
    q = (s.at_ (boundaryAt s.lcnt)).ask 2 (snapKey d) 2097152 →
    (q.1 = false → exec (.snapshotCopyStart d) s = .next q.2) ∧
    (q.1 = true → ∃ t c, exec (.snapshotCopyStart d) s = .next t ∧ (t.db d).copy = some c ∧
      t.flag (F.TAL_DB_STATUS_COPYING d) = true ∧ c.start = boundaryAt s.lcnt ∧ c.drawn = (s.db d).drawn ∧ c.skipped = (s.db d).skipped ∧
      c.num = (s.db d).frame ∧ ((s.db d).sweep = none → c.cells = (s.db d).cells) ∧ (t.db d).snapReq = false ∧
      (t.db d).drawn = 0 ∧ (t.db d).skipped = 0 ∧ (t.db d).frame = (s.db d).frame + 1 ∧ (t.db d).cells = (s.db d).cells ∧
      (c.page = none → t.store = s.store ∧ t.frames = s.frames ∧
        t.get F.TAL_RING_LOST_CNT_COUNT = min (s.get F.TAL_RING_LOST_CNT_COUNT + 1) (2 ^ 32 - 1)) ∧
      (s.frames = [] → 65 ≤ s.get F.TAL_RING_SIZE_PAGES → c.page = some (s.framePage 65)) ∧
      (Mem.wf 0 s.store = true → ∀ a, a < s.frameAddr 0 ∨ s.frameAddr (s.get F.TAL_RING_SIZE_PAGES) ≤ a → t.sread a = s.sread a) ∧
      (∀ i : Nat, i ≠ d → t.db i = s.db i) ∧
      t = { s with
        lcnt := t.lcnt, regs := t.regs, store := t.store, sto := t.sto, dbs := t.dbs, tallyPage := t.tallyPage,
        frames := t.frames, strms := t.strms })) ∧
  (∀ (d k : Fin 8) (s : State), (s.db k).copy ≠ none ∨ (s.db d).snapReq = false → exec (.snapshotCopyStart d) s = .next s) ∧
  (∀ (d : Fin 8) (c : DbCopy) (s : State), (s.db d).copy = some c →
    ∃ t, exec (.snapshotCopyEnd d) s = .next t ∧ (t.db d).copy = none ∧ (t.db d).frame = (s.db d).frame ∧
      t.flag (F.TAL_DB_STATUS_COPYING d) = false ∧ t.lcnt = max s.lcnt (c.start + 4096) ∧
      (c.page = none → t.store = s.store ∧ t.frames = s.frames ∧ t.framePub = s.framePub) ∧
      (∀ p, c.page = some p →
        t.frames = s.frames ++ [⟨p, 65, 0x11, d, c.num, s.framePub, 0, t.lcnt / 2048, c.start, 4194560⟩] ∧
        t.flag F.TAL_RING_LAST_EMPTY = false ∧ t.framePub = s.framePub + 1 ∧
        (Mem.wf 0 s.store = true → ∀ a, a < s.frameAddr p ∨ s.frameAddr p + 65 * 65536 ≤ a → t.sread a = s.sread a)) ∧
      (∀ i : Nat, i ≠ d → t.db i = s.db i) ∧
      onlyFields [F.TAL_DB_STATUS_COPYING d, F.TAL_DB_STATUS_DECAYING d, F.TAL_RING_LAST_EMPTY, F.TAL_RING_LAST_LPAGE] s t ∧
      t = { s with
        lcnt := t.lcnt, regs := t.regs, store := t.store, sto := t.sto, dbs := t.dbs, frames := t.frames,
        framePub := t.framePub }) ∧
  (∀ (d : Fin 8) (s : State), (s.db d).copy = none → exec (.snapshotCopyEnd d) s = .next s) ∧
  (∀ (d : Fin 8) (s : State), (s.db d).clearReq = true → (s.db d).copy = none → ∃ t, exec (.dbClearApply d) s = .next t ∧
    (t.db d).cells = [] ∧ (t.db d).clearReq = false ∧ t.disp.fresh = true ∧ memSame s t ∧ t.pending = s.pending ∧
    ((∀ j ∈ s.hitQ.head?, boundaryAt s.lcnt ≤ s.hitStart j) →
      t.hitEnd = max (boundaryAt s.lcnt) s.hitEnd + 1 ∧ t.lcnt = max s.lcnt (max (boundaryAt s.lcnt) s.hitEnd) ∧
      (∀ i : Nat, i ≠ d → t.db i = s.db i) ∧
      t = { s with lcnt := t.lcnt, dbs := t.dbs, hitEnd := t.hitEnd, disp := { s.disp with fresh := true } }) ∧
    (∀ j rest, s.hitQ = j :: rest → s.hitStart j < boundaryAt s.lcnt → t.hitQ = rest)) ∧
  (∀ (d : Fin 8) (s : State), (s.db d).copy ≠ none ∨ (s.db d).clearReq = false → exec (.dbClearApply d) s = .next s)

/-! ### Filter chains (R53-R71) -/

/-- FILTER_OUTPUT, FLT_CH_DC.FREEZE (R60, R63): an element a chain has computed leaves it in its order and time; a write of
FREEZE in core cycle a governs the words tagged a - 39 and later. -/
def Obligations.FilterChainsDeliver : Prop :=
  (∀ (n : Fin 48) (o : FltOut) (rest : List FltOut) (c : Nat) (f : ChainCfg) (s : State), (s.chain n).outs = o :: rest →
    f = chainCfg s.regs n → c = (if f.d = 1 then o.k else o.k * f.d / f.n) →
    ∃ t, exec (.filterOutput n) s = .next t ∧ t.chain n = { s.chain n with outs := rest } ∧ t.lcnt = max s.lcnt o.due ∧
      (∀ k : Nat, k ≠ n → t.chain k = s.chain k) ∧ memSame s t ∧
      (groupOf (s.cfgAt c) n = none → t.regs = s.regs) ∧
      (∀ g, groupOf (s.cfgAt c) n = some g → onlyFields ([F.STO_DROP_CNT_COUNT, F.STO_STATUS_DROP_SEEN] ++ gapFlds g) s t) ∧
      t = { s with
        lcnt := t.lcnt, regs := t.regs, chains := t.chains, dcs := t.dcs, grps := t.grps,
        stageFill := t.stageFill, fillData := t.fillData }) ∧
  (∀ (n : Fin 48) (s : State), (s.chain n).outs = [] → exec (.filterOutput n) s = .next s) ∧
  (∀ (a : Nat) (n : Fin 48) (v : Bool) (s : State), ∃ t, exec (.fltDcFreezeWrite a n v) s = .next t ∧
    t.flag (F.FLT_CH_DC_FREEZE n) = v ∧ t.chain n = { s.chain n with frz := some (a - 39, s.flag (F.FLT_CH_DC_FREEZE n)) } ∧
    t.lcnt = max s.lcnt a ∧ (∀ k : Nat, k ≠ n → t.chain k = s.chain k) ∧
    changesOnly [F.FLT_CH_DC_FREEZE n] s t ∧ t = { s with lcnt := t.lcnt, regs := t.regs, chains := t.chains })

/-! ### The central store (R153-R173) -/

/-- STORE_READ_BURST (R153, R157-R160, R164, R165): an address beyond the store reads nothing; a corrected error counts and waits for
its write-back, an uncorrectable one counts, records its address, is logged and leaves the burst poisoned, a link that fails five times
poisons it too; retries are counted and served in class REPAIR; the scrubber reads page after page within its own class. -/
def Obligations.StoreReadsCountTheirErrors : Prop :=
  ∀ (cls : Fin 7) (addr : Nat) (s : State),
    (s.capPages * 65536 ≤ addr → ∀ fails ecc, exec (.storeReadBurst cls addr fails ecc) s = .next s) ∧
    (addr < s.capPages * 65536 → cls ≠ 4 →
      exec (.storeReadBurst cls addr 0 .good) s = .next s ∧
      (∀ fails, 0 < fails → fails < 5 → ∃ t, exec (.storeReadBurst cls addr fails .good) s = .next t ∧
        t.get F.STO_CRC_RETRY_CNT_COUNT = min (s.get F.STO_CRC_RETRY_CNT_COUNT + fails) (2 ^ 32 - 1) ∧
        Tab.get 0 t.sto.laneCrc (s.pcOf addr) = Tab.get 0 s.sto.laneCrc (s.pcOf addr) + fails ∧
        (16 < Tab.get 0 s.sto.laneCrc (s.pcOf addr) + fails → s.pcOf addr ∈ t.sto.laneDue) ∧
        Tab.get 0 t.sto.served 6 = Tab.get 0 s.sto.served 6 + 256 * fails ∧
        changesOnly [F.STO_CRC_RETRY_CNT_COUNT] s t ∧ t = { s with regs := t.regs, sto := t.sto }) ∧
      (∃ t, exec (.storeReadBurst cls addr 0 .corrected) s = .next t ∧ t.flag F.STO_STATUS_CE_SEEN = true ∧
        t.get F.STO_ECC_CE_CNT_COUNT = min (s.get F.STO_ECC_CE_CNT_COUNT + 1) (2 ^ 32 - 1) ∧
        addr / 256 ∈ t.sto.scrubQ ∧ memSame s t ∧
        (Tab.get 0 s.sto.rowCe (rowKey (s.pcOf addr) (s.rowOf addr)) = 0 →
          changesOnly [F.STO_STATUS_CE_SEEN, F.STO_ECC_CE_CNT_COUNT] s t ∧ t = { s with regs := t.regs, sto := t.sto }) ∧
        (1 ≤ Tab.get 0 s.sto.rowCe (rowKey (s.pcOf addr) (s.rowOf addr)) → s.sto.copies = [] →
          Tab.get 0 s.sto.rowsUsed (s.pcOf addr) < 64 →
          t.sto.copies = [(s.pcOf addr, s.rowOf addr)] ∧ t.flag F.STO_STATUS_REPAIR_ACTIVE = true)) ∧
      (s.sto.ueTick = [] → ∃ t, exec (.storeReadBurst cls addr 0 .uncorrectable) s = .next t ∧ t.flag F.STO_STATUS_UE_SEEN = true ∧
        t.get F.STO_ECC_UE_CNT_COUNT = min (s.get F.STO_ECC_UE_CNT_COUNT + 1) (2 ^ 32 - 1) ∧
        (s.flag F.STO_STATUS_UE_SEEN = false → t.getN R.STO_ECC_ADDR 2 = 256 * (addr / 256) % 2 ^ 64) ∧
        (s.flag F.STO_STATUS_UE_SEEN = true → t.getN R.STO_ECC_ADDR 2 = s.getN R.STO_ECC_ADDR 2) ∧
        t.poisoned addr = true ∧ (0x0801, s.locusPc (s.pcOf addr)) ∈ t.log.seen ∧ memSame s t) ∧
      (∀ fails, 5 ≤ fails → s.sto.ueTick = [] → ∃ t, exec (.storeReadBurst cls addr fails .good) s = .next t ∧
        t.poisoned addr = true ∧ t.get F.STO_ECC_UE_CNT_COUNT = min (s.get F.STO_ECC_UE_CNT_COUNT + 1) (2 ^ 32 - 1) ∧
        t.get F.STO_CRC_RETRY_CNT_COUNT = min (s.get F.STO_CRC_RETRY_CNT_COUNT + 4) (2 ^ 32 - 1) ∧ memSame s t)) ∧
    (addr < s.capPages * 65536 →
      (s.scrubs (addr / 256) = false → ∀ fails ecc, exec (.storeReadBurst 4 addr fails ecc) s = .next s) ∧
      (s.scrubs (addr / 256) = true → (s.ask 4 (addr / 256) 256).1 = false → ∀ fails ecc,
        exec (.storeReadBurst 4 addr fails ecc) s = .next (s.ask 4 (addr / 256) 256).2) ∧
      (addr / 65536 = s.get F.STO_SCRUB_POS_PAGE → addr / 256 ∉ s.sto.scrubSeen → (s.ask 4 (addr / 256) 256).1 = true →
        ∃ t, exec (.storeReadBurst 4 addr 0 .good) s = .next t ∧
          (s.sto.scrubSeen.length + 1 < 256 → addr / 256 ∈ t.sto.scrubSeen ∧
            t.get F.STO_SCRUB_POS_PAGE = s.get F.STO_SCRUB_POS_PAGE) ∧
          (256 ≤ s.sto.scrubSeen.length + 1 → t.sto.scrubSeen = [] ∧ t.get F.STO_SCRUB_POS_PAGE =
            (if s.get F.STO_SCRUB_POS_PAGE + 1 < s.capPages then s.get F.STO_SCRUB_POS_PAGE + 1 else 0) % 2 ^ 21) ∧
          (256 ≤ s.sto.scrubSeen.length + 1 → s.capPages ≤ s.get F.STO_SCRUB_POS_PAGE + 1 → t.sto.rowCe = [] ∧
            t.get F.STO_SCRUB_PASS_CNT_COUNT = (s.get F.STO_SCRUB_PASS_CNT_COUNT + 1) % 2 ^ 32) ∧
          changesOnly [F.STO_SCRUB_POS_PAGE, F.STO_SCRUB_PASS_CNT_COUNT, F.STO_CLASS_BACKLOG_BYTES 4] s t ∧
          t = { s with regs := t.regs, sto := t.sto }))

/-- ROW_REPAIR_SWITCH, LANE_SPARE_REPLACE, STACK_FAILURE (R160, R164, R173): a row's copy, granted in class REPAIR, ends with one spare
row less, a failing lane takes the pseudo-channel's spare lane once and fails its channel group after that; a failed stack ends every
acquisition and is logged. -/
def Obligations.StoreSparesAndStackFailure : Prop :=
  (∀ (pc : Fin 128) (row : Nat) (s : State), s.sto.copies.any (fun c => c.1 == pc.val && c.2 == row) = true →
    ((s.ask 6 (rowKey pc row) 4096).1 = true → ∃ t, exec (.rowRepairSwitch pc row) s = .next t ∧
      t.lcnt = max s.lcnt (boundaryAt s.lcnt) ∧
      t.sto.copies = s.sto.copies.filter (fun c => !(c.1 == pc.val && c.2 == row)) ∧
      Tab.get 0 t.sto.rowsUsed pc = Tab.get 0 s.sto.rowsUsed pc + 1 ∧ Tab.get 0 t.sto.rowCe (rowKey pc row) = 0 ∧
      t.get (F.STO_REPAIR_SPARE_ROWS (pc / 32)) = s.get (F.STO_REPAIR_SPARE_ROWS (pc / 32)) - 1 ∧
      t.flag F.STO_STATUS_REPAIR_ACTIVE = (t.sto.copies != []) ∧
      changesOnly [F.STO_REPAIR_SPARE_ROWS (pc / 32), F.STO_STATUS_REPAIR_ACTIVE, F.STO_CLASS_BACKLOG_BYTES 6] s t ∧
      t = { s with lcnt := t.lcnt, regs := t.regs, sto := t.sto }) ∧
    ((s.ask 6 (rowKey pc row) 4096).1 = false → exec (.rowRepairSwitch pc row) s = .next (s.ask 6 (rowKey pc row) 4096).2)) ∧
  (∀ (pc : Fin 128) (row : Nat) (s : State), s.sto.copies = [] → exec (.rowRepairSwitch pc row) s = .next s) ∧
  (∀ (pc : Fin 128) (s : State), pc.val ∈ s.sto.laneDue →
    (pc.val ∉ s.sto.laneUsed → ∃ t, exec (.laneSpareReplace pc) s = .next t ∧ pc.val ∈ t.sto.laneUsed ∧ pc.val ∉ t.sto.laneDue ∧
      t.get (F.STO_REPAIR_SPARE_LANES (pc / 32)) = s.get (F.STO_REPAIR_SPARE_LANES (pc / 32)) - 1 ∧
      changesOnly [F.STO_REPAIR_SPARE_LANES (pc / 32)] s t ∧ t = { s with lcnt := t.lcnt, regs := t.regs, sto := t.sto }) ∧
    (pc.val ∈ s.sto.laneUsed → pc.val ∉ s.sto.pendPc → ∃ t, exec (.laneSpareReplace pc) s = .next t ∧ pc.val ∉ t.sto.laneDue ∧
      bitOf (t.get (F.STO_REPAIR_FAIL_PENDING (pc / 32))) (pc / 4 % 8) = true ∧ t.flag F.STO_STATUS_FAIL_PENDING = true ∧
      (0x0803, s.locusPc pc) ∈ t.log.seen ∧
      changesOnly ([F.STO_REPAIR_FAIL_PENDING (pc / 32), F.STO_STATUS_FAIL_PENDING] ++ logFlds) s t)) ∧
  (∀ (pc : Fin 128) (s : State), pc.val ∉ s.sto.laneDue → exec (.laneSpareReplace pc) s = .next s) ∧
  (∀ (k : Fin 4) (c : Nat) (s : State), k.val ∉ s.sto.failed → ∃ t, exec (.stackFailure k c) s = .next t ∧ k.val ∈ t.sto.failed ∧
    t.get (F.STO_REPAIR_FAIL_PENDING k) = 255 ∧ t.flag F.STO_STATUS_FAIL_PENDING = true ∧
    (∀ g : Fin 16, (t.grp g).armed = false ∧ ((s.grp g).armed = true → t.get (F.TRG_GRP_STATUS_STATE g) = 6)) ∧
    (0x0802, s.locus (10 + k) 15 0xFF 0xFF) ∈ t.log.seen ∧ t.lcnt = max s.lcnt c ∧ flashSame s t) ∧
  (∀ (k : Fin 4) (c : Nat) (s : State), k.val ∈ s.sto.failed → exec (.stackFailure k c) s = .next (s.at_ c))

/-! ### Ethernet streams (R174-R198) -/

/-- PORT_LINK_UP, PORT_LINK_DOWN, FEC_UNCORRECTABLE_CODEWORD, FEC_PORT_FAILURE, RX_BAD_FCS, RX_FRAME_DROPPED (R174, R176, R190, R192,
R197): only an enabled port of an unfenced lane group has a link; a port that loses it keeps no packet; errors and dropped frames
are counted on ports only. -/
def Obligations.PortsLinkAndCount : Prop :=
  (∀ (p : Fin 128) (s : State),
    (isPort s.regs p = true → s.flag (F.STM_PORT_CTRL_EN p) = true → bitOf s.pwr.laneFence (p / 16) = false →
      ∃ t, exec (.portLinkUp p) s = .next t ∧ t.flag (F.STM_PORT_STATUS_LINK p) = true ∧
        t.flag (F.STM_PORT_STATUS_LOCAL_FAULT p) = false ∧ memSame s t ∧
        t = { s with out := t.out, regs := t.regs, ports := t.ports, strms := t.strms }) ∧
    (isPort s.regs p = false → exec (.portLinkUp p) s = .next s) ∧
    (s.flag (F.STM_PORT_CTRL_EN p) = false → exec (.portLinkUp p) s = .next s) ∧
    (bitOf s.pwr.laneFence (p / 16) = true → exec (.portLinkUp p) s = .next s) ∧
    (s.linkUp p = true → ∃ t, exec (.portLinkDown p) s = .next t ∧ t.flag (F.STM_PORT_STATUS_LINK p) = false ∧
      t.flag (F.STM_PORT_STATUS_LOCAL_FAULT p) = true ∧ t.flag (F.STM_PORT_STATUS_PAUSED p) = false ∧
      t.port p = { Port.init with
        fecTick := (s.port p).fecTick
        fecRun := (s.port p).fecRun } ∧ memSame s t ∧
      t = { s with regs := t.regs, ports := t.ports, strms := t.strms }) ∧
    (s.linkUp p = false → exec (.portLinkDown p) s = .next s)) ∧
  (∀ (p : Fin 128) (s : State), isPort s.regs p = true →
    (∃ t, exec (.fecUncorrectableCodeword p) s = .next t ∧
      t.get (F.STM_PORT_FEC_UNCORR_CNT_COUNT p) = min (s.get (F.STM_PORT_FEC_UNCORR_CNT_COUNT p) + 1) (2 ^ 32 - 1) ∧
      t.flag (F.STM_PORT_STATUS_FEC_UNCORR p) = true ∧ (t.port p).fecTick = s.lcnt / tickLen ∧
      ((s.port p).fecRun ≠ 0 → s.lcnt / tickLen = (s.port p).fecTick + 1 → (t.port p).fecRun = (s.port p).fecRun + 1) ∧
      (∀ k : Nat, k ≠ p → t.port k = s.port k) ∧
      changesOnly [F.STM_PORT_FEC_UNCORR_CNT_COUNT p, F.STM_PORT_STATUS_FEC_UNCORR p] s t ∧
      t = { s with regs := t.regs, ports := t.ports }) ∧
    (∀ c ∈ [Instr.rxBadFcs p, .rxFrameDropped p], ∃ t, exec c s = .next t ∧
      t.get (F.STM_PORT_RX_DROP_CNT_COUNT p) = min (s.get (F.STM_PORT_RX_DROP_CNT_COUNT p) + 1) (2 ^ 32 - 1) ∧
      changesOnly [F.STM_PORT_RX_DROP_CNT_COUNT p] s t ∧ t = { s with regs := t.regs })) ∧
  (∀ (p : Fin 128) (s : State), isPort s.regs p = false →
    ∀ c ∈ [Instr.fecUncorrectableCodeword p, .rxBadFcs p, .rxFrameDropped p], exec c s = .next s) ∧
  (∀ (p : Fin 128) (lane : Fin 64) (s : State),
    (1024 < (s.port p).fecRun → ∃ t, exec (.fecPortFailure p lane) s = .next t ∧
      (0x0901, s.locusPort p (some lane)) ∈ t.log.seen ∧ changesOnly logFlds s t) ∧
    ((s.port p).fecRun ≤ 1024 → exec (.fecPortFailure p lane) s = .next s))

/-- RX_PAUSE_FRAME, RX_PFC_FRAME, PAUSE_EXPIRY, PAUSE_LONG (R190, R191): a pause frame holds the port, or under PFC the priorities it
names, for its quanta of 512 bit times, 0 ending it; a frame that the port does not heed is counted; PAUSED follows, and messages that
the pause held leave when it ends; 100 ms of continuous pause are reported once. -/
def Obligations.PausesHoldAndExpire : Prop :=
  (∀ (a : Nat) (p : Fin 128) (q : BitVec 16) (s : State), isPort s.regs p = true →
    ∃ t, exec (.rxPauseFrame a p q) s = .next t ∧ t.lcnt = max s.lcnt a ∧
      t.get (F.STM_PORT_PAUSE_CNT_COUNT p) = min (s.get (F.STM_PORT_PAUSE_CNT_COUNT p) + 1) (2 ^ 32 - 1) ∧
      (t.port p).queue = (s.port p).queue ∧
      (s.flag (F.STM_PORT_CTRL_PAUSE_EN p) = true → s.flag (F.STM_PORT_CTRL_PFC_EN p) = false →
        (t.port p).pauseTo = (if q = 0 then none else some (a + s.pauseCycles p q.toNat)) ∧
        t.flag (F.STM_PORT_STATUS_PAUSED p) = (q != 0 && decide (max s.lcnt a < a + s.pauseCycles p q.toNat))) ∧
      (s.flag (F.STM_PORT_CTRL_PAUSE_EN p) = false ∨ s.flag (F.STM_PORT_CTRL_PFC_EN p) = true →
        (t.port p).pauseTo = (s.port p).pauseTo ∧ (t.port p).pfc = (s.port p).pfc) ∧
      (∀ k : Nat, k ≠ p → t.port k = s.port k) ∧
      changesOnly (F.STM_PORT_PAUSE_CNT_COUNT p :: F.STM_PORT_STATUS_PAUSED p :: wideFlds (R.STM_PORT_TX_FRAMES p) 2) s t ∧
      t = { s with lcnt := t.lcnt, out := t.out, regs := t.regs, ports := t.ports }) ∧
  (∀ (a : Nat) (p : Fin 128) (en : BitVec 8) (times : List Nat) (s : State), times.length = 8 → isPort s.regs p = true →
    ∃ t, exec (.rxPfcFrame a p en times) s = .next t ∧ t.lcnt = max s.lcnt a ∧
      (s.flag (F.STM_PORT_CTRL_PFC_EN p) = true → ∀ (i : Fin 8) (x : Nat), times[i.val]? = some x →
        Tab.get 0 (t.port p).pfc i = if bitOf en.toNat i then a + s.pauseCycles p x else Tab.get 0 (s.port p).pfc i) ∧
      (s.flag (F.STM_PORT_CTRL_PFC_EN p) = false → (t.port p).pfc = (s.port p).pfc ∧ (t.port p).pauseTo = (s.port p).pauseTo) ∧
      t.get (F.STM_PORT_PAUSE_CNT_COUNT p) = min (s.get (F.STM_PORT_PAUSE_CNT_COUNT p) + 1) (2 ^ 32 - 1) ∧
      (∀ k : Nat, k ≠ p → t.port k = s.port k) ∧
      changesOnly (F.STM_PORT_PAUSE_CNT_COUNT p :: F.STM_PORT_STATUS_PAUSED p :: wideFlds (R.STM_PORT_TX_FRAMES p) 2) s t ∧
      t = { s with lcnt := t.lcnt, out := t.out, regs := t.regs, ports := t.ports }) ∧
  (∀ (a : Nat) (p : Fin 128) (en : BitVec 8) (times : List Nat) (s : State),
    (times.length ≠ 8 → exec (.rxPfcFrame a p en times) s = .fault (.illFormed "RX_PFC_FRAME")) ∧
    (times.length = 8 → isPort s.regs p = false → exec (.rxPfcFrame a p en times) s = .next (s.at_ a)) ∧
    (isPort s.regs p = false → ∀ q, exec (.rxPauseFrame a p q) s = .next (s.at_ a))) ∧
  (∀ (p : Fin 128) (prio : Fin 8) (s : State), s.flag (F.STM_PORT_CTRL_PFC_EN p) = false →
    ((s.port p).pauseTo = none → exec (.pauseExpiry p prio) s = .next s) ∧
    (∀ e, (s.port p).pauseTo = some e → ∃ t, exec (.pauseExpiry p prio) s = .next t ∧ t.lcnt = max s.lcnt e ∧
      (t.port p).pauseTo = none ∧ (t.port p).pauseFrom = none ∧ t.flag (F.STM_PORT_STATUS_PAUSED p) = false ∧ (t.port p).ctl = [] ∧
      t.out = (s.port p).ctl.reverse ++ s.out ∧
      (∀ k : Nat, k ≠ p → t.port k = s.port k) ∧
      changesOnly (F.STM_PORT_STATUS_PAUSED p :: wideFlds (R.STM_PORT_TX_FRAMES p) 2) s t ∧
      t = { s with lcnt := t.lcnt, out := t.out, regs := t.regs, ports := t.ports })) ∧
  (∀ (p : Fin 128) (prio : Fin 8) (s : State), s.flag (F.STM_PORT_CTRL_PFC_EN p) = true →
    ∃ t, exec (.pauseExpiry p prio) s = .next t ∧ t.lcnt = max s.lcnt (Tab.get 0 (s.port p).pfc prio) ∧
      (t.port p).pfc = (s.port p).pfc.filter (fun y => y.1 != prio.val) ∧
      changesOnly (F.STM_PORT_STATUS_PAUSED p :: wideFlds (R.STM_PORT_TX_FRAMES p) 2) s t) ∧
  (∀ (p : Fin 128) (f : Nat) (i : Fin 8) (s : State), (s.port p).pauseFrom = some f →
    (s.at_ (f + s.cyclesOf 1 10)).heldPrio p i = true →
    ((s.port p).longSeen = false → ∃ t, exec (.pauseLong p) s = .next t ∧ t.lcnt = max s.lcnt (f + s.cyclesOf 1 10) ∧
      t.flag (F.STM_PORT_STATUS_PAUSE_LONG p) = true ∧ (0x0902, s.locusPort p none) ∈ t.log.seen ∧
      (t.port p).longSeen = true ∧ (t.port p).pauseFrom = some f ∧ (∀ k : Nat, k ≠ p → t.port k = s.port k) ∧
      changesOnly (F.STM_PORT_STATUS_PAUSE_LONG p :: logFlds) s t) ∧
    ((s.port p).longSeen = true → exec (.pauseLong p) s = .next (s.at_ (f + s.cyclesOf 1 10)))) ∧
  (∀ (p : Fin 128) (s : State), (s.port p).pauseFrom = none → exec (.pauseLong p) s = .next s)

/-- STREAM_PACKET_FORM, TIME_MARKER_DUE, PACKET_TRANSMIT_DONE (R180, R183, R184, R188, R189, R386), RX_ARP_REQUEST,
RX_NEIGHBOUR_SOLICITATION (R190, R197): an enabled stream with a port up forms packets under its next sequence once the STREAM class
grants their bytes; they wait on a port of its set; a port completes the packet it has started and counts it; requests for the port's
own address are answered to their sender, after any pause. -/
def Obligations.StreamsFormAndPortsSend : Prop :=
  (∀ (q : Fin 1024) (s : State),
    (s.get F.TWIN_STATUS_ROLE = 2 → exec (.streamPacketForm q) s = .next s ∧ exec (.timeMarkerDue q) s = .next s) ∧
    (s.get F.TWIN_STATUS_ROLE ≠ 2 → s.flag (F.STM_Q_CTRL_EN q) = false →
      exec (.streamPacketForm q) s = .next (s.showStrm q) ∧ exec (.timeMarkerDue q) s = .next s) ∧
    (s.get F.TWIN_STATUS_ROLE ≠ 2 → (s.portSet q).filter s.linkUp = [] →
      exec (.streamPacketForm q) s = .next (s.showStrm q) ∧ exec (.timeMarkerDue q) s = .next s) ∧
    (s.get F.TWIN_STATUS_ROLE ≠ 2 → s.flag (F.STM_Q_CTRL_EN q) = true → (s.portSet q).filter s.linkUp ≠ [] →
      (s.ask 0 q (s.formBytes q)).1 = false → exec (.streamPacketForm q) s = .next ((s.ask 0 q (s.formBytes q)).2.showStrm q)) ∧
    (∀ (p off len : Nat) (rest : List (Nat × Nat)) (i : StItem), s.get F.TWIN_STATUS_ROLE ≠ 2 →
      s.flag (F.STM_Q_CTRL_EN q) = true → s.pickPort q = some p → (s.strm q).cur = some i → i.ranges = (off, len) :: rest →
      (s.ask 0 q (s.formBytes q)).1 = true →
      ∃ t k, exec (.streamPacketForm q) s = .next t ∧ t.get (F.STM_Q_SEQ_SEQ q) = (s.get (F.STM_Q_SEQ_SEQ q) + 1) % 2 ^ 32 ∧
        (t.port p).queue = (s.port p).queue ++ [k] ∧ k.q = q.val ∧ k.typ = i.typ ∧ k.seq = s.get (F.STM_Q_SEQ_SEQ q) ∧
        (rest = [] → len ≤ s.fragment q → (t.strm q).cur = none ∧ k.rel = i.rel) ∧
        (∀ j : Nat, j ≠ p → t.port j = s.port j) ∧ memSame s t ∧
        t = { s with regs := t.regs, sto := t.sto, ports := t.ports, strms := t.strms }) ∧
    (∀ (p : Nat), s.get F.TWIN_STATUS_ROLE ≠ 2 → s.flag (F.STM_Q_CTRL_EN q) = true → s.flag (F.STM_Q_CTRL_TMARK_EN q) = true →
      s.tick % (tickLen * max 1 (s.get (F.STM_Q_TMARK_TICKS q))) = 0 → (s.strm q).marker ≠ some s.tick → s.pickPort q = some p →
      ∃ t k, exec (.timeMarkerDue q) s = .next t ∧ t.get (F.STM_Q_SEQ_SEQ q) = (s.get (F.STM_Q_SEQ_SEQ q) + 1) % 2 ^ 32 ∧
        (t.port p).queue = (s.port p).queue ++ [k] ∧ k.q = q.val ∧ k.typ = 3 ∧ k.payload = 32 ∧
        (t.strm q).marker = some s.tick ∧ memSame s t ∧ t = { s with regs := t.regs, ports := t.ports, strms := t.strms })) ∧
  (∀ (p : Fin 128) (s : State),
    ((s.port p).started = none → s.linkUp p = false ∨ s.nextPkt p = none → exec (.packetTransmitDone p) s = .next s) ∧
    (∀ k : Pkt, (s.port p).started = some k ∨
        ((s.port p).started = none ∧ s.linkUp p = true ∧ ∃ y, s.nextPkt p = some (k, y)) →
      ∃ t, exec (.packetTransmitDone p) s = .next t ∧
        t.out = .packet p (s.frameBytes p k) :: s.out ∧
        (t.port p).queue = (s.port p).queue.filter (fun x => !(x.q == k.q && x.seq == k.seq)) ∧
        ((∀ g num, k.rel = .record g num → g < 16) →
          t.getN (R.STM_PORT_TX_FRAMES p) 2 = (s.getN (R.STM_PORT_TX_FRAMES p) 2 + 1) % 2 ^ 64) ∧
        (∀ j : Nat, j ≠ p → t.port j = s.port j) ∧ memSame s t ∧
        t = { s with out := t.out, regs := t.regs, grps := t.grps, stageFill := t.stageFill, frames := t.frames, ports := t.ports })) ∧
  (∀ (p : Fin 128) (target ip mac : Nat) (s : State), isPort s.regs p = true →
    (s.get (F.STM_PORT_IPV4_ADDR p) ≠ 0 → target = s.get (F.STM_PORT_IPV4_ADDR p) → (s.port p).ctl = [] →
      ∃ t bs, exec (.rxArpRequest p target ip mac) s = .next t ∧ bs.take 6 = beBytes 6 mac ∧ 60 ≤ bs.length ∧
        (s.heldPrio p 0 = false → t.out = .packet p bs :: s.out ∧ (t.port p).ctl = [] ∧
          t.getN (R.STM_PORT_TX_FRAMES p) 2 = (s.getN (R.STM_PORT_TX_FRAMES p) 2 + 1) % 2 ^ 64) ∧
        (s.heldPrio p 0 = true → t.out = s.out ∧ (t.port p).ctl = [.packet p bs]) ∧
        (∀ j : Nat, j ≠ p → t.port j = s.port j) ∧
        changesOnly (wideFlds (R.STM_PORT_TX_FRAMES p) 2) s t ∧ t = { s with out := t.out, regs := t.regs, ports := t.ports }) ∧
    (target ≠ s.get (F.STM_PORT_IPV4_ADDR p) → ∃ t, exec (.rxArpRequest p target ip mac) s = .next t ∧
      t.get (F.STM_PORT_RX_DROP_CNT_COUNT p) = min (s.get (F.STM_PORT_RX_DROP_CNT_COUNT p) + 1) (2 ^ 32 - 1) ∧ t.out = s.out ∧
      changesOnly [F.STM_PORT_RX_DROP_CNT_COUNT p] s t) ∧
    (s.ipv6Of p ≠ List.replicate 16 (0 : Byte) → beBytes 16 target = s.ipv6Of p → target < 2 ^ 128 → (s.port p).ctl = [] →
      ∃ t bs, exec (.rxNeighbourSolicitation p target ip mac) s = .next t ∧ bs.take 6 = beBytes 6 mac ∧ 60 ≤ bs.length ∧
        (s.heldPrio p 0 = false → t.out = .packet p bs :: s.out ∧ (t.port p).ctl = [] ∧
          t.getN (R.STM_PORT_TX_FRAMES p) 2 = (s.getN (R.STM_PORT_TX_FRAMES p) 2 + 1) % 2 ^ 64) ∧
        (s.heldPrio p 0 = true → t.out = s.out ∧ (t.port p).ctl = [.packet p bs]) ∧
        (∀ j : Nat, j ≠ p → t.port j = s.port j) ∧
        changesOnly (wideFlds (R.STM_PORT_TX_FRAMES p) 2) s t ∧ t = { s with out := t.out, regs := t.regs, ports := t.ports }) ∧
    (beBytes 16 target ≠ s.ipv6Of p → ∃ t, exec (.rxNeighbourSolicitation p target ip mac) s = .next t ∧
      t.get (F.STM_PORT_RX_DROP_CNT_COUNT p) = min (s.get (F.STM_PORT_RX_DROP_CNT_COUNT p) + 1) (2 ^ 32 - 1) ∧ t.out = s.out ∧
      changesOnly [F.STM_PORT_RX_DROP_CNT_COUNT p] s t))

/-! ### The PCIe host interface (R199-R230) -/

/-- PCIE_CONFIG_REQUEST, BAR2_READ, BAR2_WRITE, FUNCTION_LEVEL_RESET, PCIE_FUNCTION_RESET (R24): configuration requests are answered
with Retry Status until the loader has read both image slots, and normally from then on, whatever the slots hold. Beside R24: a
function's mask holds its vectors; BAR2 reads the store through the function's base once the DMA class grants it, beyond the capacity it
is unsupported and reported; writes are ignored and counted; a reset of functions returns their queues, their vectors' masks and their
base to reset. The mask's command is log entry 9. -/
def Obligations.FunctionsReadAndReset : Prop :=
  (∀ (fn : Fin 64) (req : CfgReq) (s : State),
    (s.cfgReady = false → exec (.pcieConfigRequest ⟨fn, req⟩) s = .next (s.emit (.completion fn 2 false []))) ∧
    (s.cfgReady = true → ∃ t, exec (.pcieConfigRequest ⟨fn, req⟩) s = .next t ∧ t.out.head? = some (.completion fn 0 false []) ∧
      (req = .other → t = s.emit (.completion fn 0 false [])) ∧
      (req = .functionMask true → ∀ v, t.msix.masked fn v = true) ∧
      (∀ v, req = .vectorMask v false → fn.val ∉ s.msix.fns → t.msix.masked fn v = false ∧ (fn.val, v.val) ∉ t.msix.pba) ∧
      t = { s with out := t.out, msix := t.msix })) ∧
  (∀ (a b c d : Bool) (s : State), s.pwr.coreLoss = false → s.pwr.thermalHold = false →
    ∃ t, exec (.imageLoad a b c d) s = .next t ∧ t.cfgReady = true) ∧
  (∀ (fn : Fin 64) (off len a : Nat) (s : State), a = 2 ^ 30 * min 64 (s.get (F.DMA_BAR2_BASE_GIB fn)) + off →
    (a + len ≤ s.capBytes → (s.ask 1 (2048 + fn) len).1 = true →
      ((s.readBytes a len).2 = false → exec (.bar2Read fn off len) s =
        .next ((s.ask 1 (2048 + fn) len).2.emit (.completion fn 0 false (s.readBytes a len).1))) ∧
      ((s.readBytes a len).2 = true → ∃ t bs, exec (.bar2Read fn off len) s = .next t ∧ bs.length = len ∧
        t.out = .completion fn 0 true bs :: s.out ∧ t = { s with out := t.out, free := t.free, regs := t.regs, sto := t.sto })) ∧
    (a + len ≤ s.capBytes → (s.ask 1 (2048 + fn) len).1 = false →
      exec (.bar2Read fn off len) s = .next (s.ask 1 (2048 + fn) len).2) ∧
    (s.capBytes < a + len → ∃ t, exec (.bar2Read fn off len) s = .next t ∧ t.out = .completion fn 1 false [] :: .aer fn 0 :: s.out ∧
      t.flag F.DMA_STATUS_UR_SEEN = true ∧ t.get F.DMA_UR_CNT_COUNT = min (s.get F.DMA_UR_CNT_COUNT + 1) (2 ^ 32 - 1) ∧
      changesOnly [F.DMA_STATUS_UR_SEEN, F.DMA_UR_CNT_COUNT] s t ∧ t = { s with out := t.out, regs := t.regs })) ∧
  (∀ (fn : Fin 64) (off : Nat) (s : State), ∃ t, exec (.bar2Write fn off) s = .next t ∧ t.out = .aer fn 0 :: s.out ∧
    t.get F.DMA_UR_CNT_COUNT = min (s.get F.DMA_UR_CNT_COUNT + 1) (2 ^ 32 - 1) ∧ changesOnly [F.DMA_UR_CNT_COUNT] s t ∧
    t = { s with out := t.out, regs := t.regs }) ∧
  (∀ (f : Fin 64) (s : State), ∃ t, exec (.functionLevelReset f) s = .next t ∧ t.get (F.DMA_BAR2_BASE_GIB f) = 0 ∧
    (∀ q : Fin 1024, s.flag (F.DMA_Q_OWNER_VALID q) = false ∨ s.get (F.DMA_Q_OWNER_FUNC q) ≠ f → t.hostq q = s.hostq q) ∧
    (∀ q : Fin 1024, s.flag (F.DMA_Q_OWNER_VALID q) = true → s.get (F.DMA_Q_OWNER_FUNC q) = f →
      t.hostq q = HostQ.init ∧ t.get (F.DMA_QC_STATUS_STATE q) = 0) ∧
    (∀ v, t.msix.masked f v = false ∧ (f.val, v) ∉ t.msix.pba) ∧ memSame s t ∧
    t = { s with regs := t.regs, grps := t.grps, sto := t.sto, hostqs := t.hostqs, msix := t.msix }) ∧
  (∀ s : State, ∃ t, exec .pcieFunctionReset s = .next t ∧ (∀ f : Fin 64, t.get (F.DMA_BAR2_BASE_GIB f) = 0) ∧
    (∀ q : Fin 1024, t.hostq q = HostQ.init ∧ t.get (F.DMA_QC_STATUS_STATE q) = 0) ∧ t.msix.pba = [] ∧ memSame s t ∧
    t = { s with regs := t.regs, grps := t.grps, sto := t.sto, hostqs := t.hostqs, msix := t.msix })

/-- QUEUE_START, DOORBELL, QUEUE_RESUME, QUEUE_ABORT (R202, R204, R205, R219, R220, R222): only function 0 and the queue's owner
reach it; START fetches the head, RESUME the descriptor at CUR, a doorbell on a parked queue the tail again; ABORT returns the
queue to IDLE and forgets its work; BAR4 reads as zero. -/
def Obligations.QueuesStartRingAndAbort : Prop :=
  (∀ (fn : Fin 64) (off : Nat) (s : State),
    exec (.doorbell fn ⟨off, false⟩) s = .next (s.emit (.completion fn 0 false [0, 0, 0, 0])) ∧
    (off % 4096 ≠ 0 ∨ 4194304 ≤ off → exec (.doorbell fn ⟨off, true⟩) s = .next s)) ∧
  (∀ (fn : Fin 64) (q : Fin 1024) (s : State),
    (s.reaches fn q = false → ∀ c ∈ [Instr.doorbell fn ⟨4096 * q, true⟩, .queueStart fn q, .queueResume fn q, .queueAbort fn q],
      exec c s = .next s) ∧
    (s.reaches fn q = true → s.isHostQ q = true →
      (∀ h, s.get (F.DMA_QC_STATUS_STATE q) = 0 → h = s.getN (R.DMA_QC_HEAD q) 2 / 64 * 64 →
        ∃ t, exec (.queueStart fn q) s = .next t ∧ t.get (F.DMA_QC_STATUS_STATE q) = 1 ∧ t.get (F.DMA_QC_HOPS_HOPS q) = 1 ∧
          t.getN (R.DMA_QC_CUR q) 2 = h ∧ t.out = .hostRead h 64 :: s.out ∧
          t.hostq q = { s.hostq q with
            fetch := some (h, false)
            fetchAt := s.lcnt } ∧ (∀ k : Nat, k ≠ q → t.hostq k = s.hostq k) ∧
          changesOnly ([F.DMA_QC_STATUS_STATE q, F.DMA_QC_HOPS_HOPS q] ++ wideFlds (R.DMA_QC_CUR q) 2) s t ∧
          t = { s with out := t.out, regs := t.regs, hostqs := t.hostqs }) ∧
      (s.get (F.DMA_QC_STATUS_STATE q) ≠ 0 → exec (.queueStart fn q) s = .next s) ∧
      (s.get (F.DMA_QC_STATUS_STATE q) = 3 → s.get (F.DMA_QC_HOPS_HOPS q) ≠ 1048576 →
        ∃ t, exec (.queueResume fn q) s = .next t ∧ t.get (F.DMA_QC_STATUS_STATE q) = 1 ∧
          t.getN (R.DMA_QC_CUR q) 2 = s.getN (R.DMA_QC_CUR q) 2 ∧ t.out = .hostRead (s.getN (R.DMA_QC_CUR q) 2) 64 :: s.out ∧
          t.hostq q = { s.hostq q with
            fetch := some (s.getN (R.DMA_QC_CUR q) 2, false)
            fetchAt := s.lcnt } ∧
          changesOnly ([F.DMA_QC_STATUS_STATE q, F.DMA_QC_HOPS_HOPS q] ++ wideFlds (R.DMA_QC_CUR q) 2) s t ∧
          t = { s with out := t.out, regs := t.regs, hostqs := t.hostqs }) ∧
      (s.get (F.DMA_QC_STATUS_STATE q) ≠ 3 → exec (.queueResume fn q) s = .next s)) ∧
    (s.reaches fn q = true →
      (s.get (F.DMA_QC_STATUS_STATE q) ≠ 0 → ∃ t, exec (.queueAbort fn q) s = .next t ∧ t.get (F.DMA_QC_STATUS_STATE q) = 0 ∧
        t.get (F.DMA_QC_OFFSET_BYTES q) = 0 ∧ t.hostq q = { HostQ.init with skipped := (s.hostq q).skipped } ∧
        (∀ k : Nat, k ≠ q → t.hostq k = s.hostq k) ∧ memSame s t ∧
        t = { s with regs := t.regs, grps := t.grps, sto := t.sto, hostqs := t.hostqs }) ∧
      (s.get (F.DMA_QC_STATUS_STATE q) = 0 → exec (.queueAbort fn q) s = .next s) ∧
      (s.get (F.DMA_QC_STATUS_STATE q) = 2 → (s.hostq q).fetch = none → ∃ t, exec (.doorbell fn ⟨4096 * q, true⟩) s = .next t ∧
        t.get (F.DMA_QC_DB_CNT_COUNT q) = (s.get (F.DMA_QC_DB_CNT_COUNT q) + 1) % 2 ^ 32 ∧ t.get (F.DMA_QC_HOPS_HOPS q) = 1 ∧
        t.out = .hostRead (s.hostq q).tail 64 :: s.out ∧ (t.hostq q).fetch = some ((s.hostq q).tail, true) ∧
        changesOnly ([F.DMA_QC_DB_CNT_COUNT q, F.DMA_QC_HOPS_HOPS q] ++ wideFlds (R.DMA_QC_CUR q) 2) s t ∧
        t = { s with out := t.out, regs := t.regs, hostqs := t.hostqs }) ∧
      (s.get (F.DMA_QC_STATUS_STATE q) ≠ 2 → (s.hostq q).fetch = none → ∃ t, exec (.doorbell fn ⟨4096 * q, true⟩) s = .next t ∧
        t.get (F.DMA_QC_DB_CNT_COUNT q) = (s.get (F.DMA_QC_DB_CNT_COUNT q) + 1) % 2 ^ 32 ∧ t.get (F.DMA_QC_HOPS_HOPS q) = 0 ∧
        changesOnly [F.DMA_QC_DB_CNT_COUNT q, F.DMA_QC_HOPS_HOPS q] s t ∧ t = { s with regs := t.regs }) ∧
      (∀ a, (s.hostq q).fetch = some (a, true) → ∃ t, exec (.doorbell fn ⟨4096 * q, true⟩) s = .next t ∧
        t.hostq q = { s.hostq q with owed := (s.hostq q).owed + 1 } ∧ t.out = s.out ∧
        changesOnly [F.DMA_QC_DB_CNT_COUNT q, F.DMA_QC_HOPS_HOPS q] s t)))

/-- DESCRIPTOR_FETCH, DESC_NOP, DESC_READ, DESC_COPY (R206, R208, R209, R215-R217, R219, R223): a fetched descriptor goes to work, one
that R209 refuses halts the queue; NOP completes and the chain goes on; READ writes the store's bytes to host memory and waits for the
read-back; COPY writes len bytes from its destination on and no others; a burst without its DMA-class grant waits. -/
def Obligations.DescriptorsFetchReadAndCopy : Prop :=
  (∀ (q : Fin 1024) (bs : List (BitVec 8)) (s : State),
    (bs.length ≠ 64 → exec (.descriptorFetch q bs) s = .fault (.illFormed "DESCRIPTOR_FETCH")) ∧
    (bs.length = 64 → (s.hostq q).fetch = none → exec (.descriptorFetch q bs) s = .next s) ∧
    (∀ a, bs.length = 64 → (s.hostq q).fetch = some (a, false) → (parseDesc a bs).bad = false →
      ∃ t, exec (.descriptorFetch q bs) s = .next t ∧ t.hostq q = { s.hostq q with
        fetch := none
        cur := some (parseDesc a bs, if (parseDesc a bs).ctl % 2 = 1 then some (s.get (F.DMA_QC_DB_CNT_COUNT q)) else none)
        pos := 0
        bad := false
        mark := s.markOf q } ∧
        (∀ k : Nat, k ≠ q → t.hostq k = s.hostq k) ∧ t = { s with hostqs := t.hostqs }) ∧
    (∀ a, bs.length = 64 → (s.hostq q).fetch = some (a, false) → (parseDesc a bs).bad = true → (s.hostq q).pend = [] →
      (s.hostq q).recd = none → ∃ t, exec (.descriptorFetch q bs) s = .next t ∧ t.get (F.DMA_QC_STATUS_STATE q) = 3 ∧
        t.get (F.DMA_QC_STATUS_ERR q) = 1 ∧ t.getN (R.DMA_QC_CUR q) 2 = a % 2 ^ 64 ∧ (0x0A01, s.locusQ q) ∈ t.log.seen ∧
        memSame s t)) ∧
  (∀ (q : Fin 1024) (s : State),
    (s.work q 0 = none → exec (.descNop q) s = .next s) ∧ (s.work q 1 = none → exec (.descRead q) s = .next s) ∧
    (s.work q 2 = none → exec (.descCopy q) s = .next s) ∧
    (∀ d, s.work q 0 = some (d, none) → (s.hostq q).pend = [] → s.get (F.DMA_QC_HOPS_HOPS q) ≠ 1048576 →
      ∃ t, exec (.descNop q) s = .next t ∧ t.get (F.DMA_QC_DONE_CNT_COUNT q) = (s.get (F.DMA_QC_DONE_CNT_COUNT q) + 1) % 2 ^ 32 ∧
        (t.hostq q).cur = none ∧ (t.hostq q).pend = [] ∧ (t.hostq q).fetch = some (d.next, false) ∧
        t.getN (R.DMA_QC_CUR q) 2 = d.next % 2 ^ 64 ∧ .hostRead d.next 64 ∈ t.out ∧
        (bitOf d.ctl 2 = true → ∃ rec : List Byte, rec.length = 32 ∧ .hostWrite false d.status rec ∈ t.out) ∧
        changesOnly ([F.DMA_QC_DONE_CNT_COUNT q, F.DMA_QC_HOPS_HOPS q, F.STO_CLASS_BACKLOG_BYTES 1] ++
          wideFlds (R.DMA_QC_CUR q) 2) s t ∧
        t = { s with out := t.out, regs := t.regs, sto := t.sto, hostqs := t.hostqs, msix := t.msix }) ∧
    (s.dmaPick [] = some q.val → (s.ask 1 q (s.burstCost q)).1 = false →
      (s.work q 1 ≠ none → exec (.descRead q) s = .next (s.ask 1 q (s.burstCost q)).2) ∧
      (s.work q 2 ≠ none → exec (.descCopy q) s = .next (s.ask 1 q (s.burstCost q)).2)) ∧
    (∀ d l, s.work q 1 = some (d, l) → (s.hostq q).pend = [] → (s.hostq q).pos = 0 → (s.hostq q).bad = false →
      d.src + d.len ≤ s.capBytes → 0 < d.len → readBurst d 0 = d.len → s.dmaPick [] = some q.val → (s.ask 1 q d.len).1 = true →
      ∃ t c, exec (.descRead q) s = .next t ∧
        .hostWrite (s.flag F.DMA_CTRL_RO_EN) d.dst (s.readBytes d.src d.len).1 ∈ t.out ∧
        .hostRead (d.dst + d.len - 4) 4 ∈ t.out ∧ (t.hostq q).pend.head? = some c ∧ c.wait = true ∧ c.bytes = d.len ∧
        c.status = 0 ∧ c.flags = (if (s.readBytes d.src d.len).2 then 4 else 0) ∧
        t.getN (R.DMA_QC_BYTES q) 2 = (s.getN (R.DMA_QC_BYTES q) 2 + d.len) % 2 ^ 64 ∧ memSame s t) ∧
    (∀ d l, s.work q 2 = some (d, l) → (∀ k, k ≠ q.val → (s.hostq k).cur = none) → Mem.wf 0 s.store = true →
      (∃ t, exec (.descCopy q) s = .next t ∧ (∀ a, a < d.dst ∨ d.dst + d.len ≤ a → t.sread a = s.sread a) ∧ flashSame s t) ∧
      (d.ctl / 8 % 4 = 0 → d.ctl / 32 % 4 = 0 → d.src + d.len ≤ s.capBytes → d.dst + d.len ≤ s.capBytes → 0 < d.len →
        s.protected_ d.dst d.len = false → (s.hostq q).pend = [] → (s.hostq q).pos = 0 → copyBurst d 0 = (0, d.len) → (s.ask 1 q (2 * d.len)).1 = true →
        ∃ t, exec (.descCopy q) s = .next t ∧
          (∀ i x, (s.readBytes d.src d.len).1[i]? = some x → s.dead (d.dst + i) = false → t.sread (d.dst + i) = x) ∧
          t.getN (R.DMA_QC_BYTES q) 2 = (s.getN (R.DMA_QC_BYTES q) 2 + d.len) % 2 ^ 64)))

/-- DESC_RECORD, DESC_RELEASE, READBACK_COMPLETION, COMPLETION_TIMEOUT, COMPLETION_UR (R206, R210, R216, R217, R221): a bound queue
waits until its current record is eligible, RELEASE gives it up undelivered; a completion comes when the read-back has returned; a
request that fails halts the queue with its error and is reported, one that waits for nothing changes nothing. -/
def Obligations.RecordsReleaseAndErrorsHalt : Prop :=
  (∀ (q : Fin 1024) (s : State),
    (s.work q 3 = none → exec (.descRecord q) s = .next s) ∧ (s.work q 4 = none → exec (.descRelease q) s = .next s) ∧
    (s.flag (F.DMA_QC_CTRL_BIND q) = true → s.currentRec q = none →
      exec (.descRecord q) s = .next s ∧ exec (.descRelease q) s = .next s) ∧
    (s.work q 3 ≠ none → s.dmaPick [] = some q.val → (s.ask 1 q (s.burstCost q)).1 = false →
      exec (.descRecord q) s = .next (s.ask 1 q (s.burstCost q)).2) ∧
    (∀ d l r, s.work q 3 = some (d, l) → s.flag (F.DMA_QC_CTRL_BIND q) = true → s.currentRec q = some r → r.g < 16 →
      (s.hostq q).pend = [] → (∀ k, k ≠ q.val → (s.hostq k).cur = none) → s.recOut q d r ≠ none → (s.ask 1 q (s.burstCost q)).1 = true →
      ∃ t, exec (.descRecord q) s = .next t ∧ t.getN (R.DMA_QC_REC q) 2 = r.num % 2 ^ 64 ∧
        (∀ k : Nat, k ≠ q → t.hostq k = s.hostq k) ∧ memSame s t ∧
        t = { s with out := t.out, regs := t.regs, grps := t.grps, stageFill := t.stageFill, sto := t.sto, hostqs := t.hostqs,
                     dmaTurn := t.dmaTurn, msix := t.msix, twin := t.twin, log := t.log }) ∧
    (∀ d r, s.work q 4 = some (d, none) → s.flag (F.DMA_QC_CTRL_BIND q) = true → s.currentRec q = some r → r.g < 16 →
      (s.hostq q).pend = [] → s.get (F.DMA_QC_HOPS_HOPS q) ≠ 1048576 → ∃ t, exec (.descRelease q) s = .next t ∧
        t.getN (R.DMA_QC_REC q) 2 = r.num % 2 ^ 64 ∧ t.get (F.DMA_QC_OFFSET_BYTES q) = 0 ∧ (t.hostq q).recd = none ∧
        t.get (F.DMA_QC_DONE_CNT_COUNT q) = (s.get (F.DMA_QC_DONE_CNT_COUNT q) + 1) % 2 ^ 32 ∧
        (t.hostq q).fetch = some (d.next, false) ∧ (∀ k : Nat, k ≠ q → t.hostq k = s.hostq k) ∧ memSame s t)) ∧
  (∀ (q : Fin 1024) (c : Comp) (s : State),
    ((s.hostq q).pend = [] → exec (.readbackCompletion q) s = .next s) ∧
    ((s.hostq q).pend = [c] → c.wait = true → c.status = 0 → c.rel = none → c.latch = none →
      ∃ t, exec (.readbackCompletion q) s = .next t ∧ (t.hostq q).pend = [] ∧
        t.get (F.DMA_QC_DONE_CNT_COUNT q) = (s.get (F.DMA_QC_DONE_CNT_COUNT q) + 1) % 2 ^ 32 ∧
        (bitOf c.d.ctl 2 = true → ∃ rec : List Byte, rec.length = 32 ∧ .hostWrite false c.d.status rec ∈ t.out) ∧
        changesOnly [F.DMA_QC_DONE_CNT_COUNT q] s t ∧
        t = { s with out := t.out, regs := t.regs, hostqs := t.hostqs, msix := t.msix })) ∧
  (∀ (q : Fin 1024) (req : QReq) (s : State),
    (s.reqSince q req = none → exec (.completionTimeout ⟨q, req⟩) s = .next s ∧ exec (.completionUr ⟨q, req⟩) s = .next s) ∧
    (∀ b a again, s.reqSince q req = some b → (req = .fetch → (s.hostq q).fetch = some (a, again) ∧ (s.hostq q).pend = []) →
      (∀ r, (s.hostq q).recd = some r → r.g < 16) →
      (∀ c rest, req = .readBack → (s.hostq q).pend = c :: rest → c.d.addr = a ∧ ∀ r, c.mark.recd = some r → r.g < 16) →
      (∀ c, req = .completion → (s.hostq q).wrote = some c → c.d.addr = a ∧ ∀ r, c.mark.recd = some r → r.g < 16) →
      (∃ t, exec (.completionTimeout ⟨q, req⟩) s = .next t ∧ t.get (F.DMA_QC_STATUS_STATE q) = 3 ∧
        t.get (F.DMA_QC_STATUS_ERR q) = 3 ∧ t.flag F.DMA_STATUS_TIMEOUT_SEEN = true ∧ t.lcnt = max s.lcnt (b + s.ctoCycles) ∧
        t.getN (R.DMA_QC_CUR q) 2 = a % 2 ^ 64 ∧ (0x0A01, s.locusQ q) ∈ t.log.seen ∧ (t.hostq q).fetch = none ∧
        t.out.head? = some (.aer (s.get (F.DMA_Q_OWNER_FUNC q)) 1) ∧ memSame s t) ∧
      (∃ t, exec (.completionUr ⟨q, req⟩) s = .next t ∧ t.get (F.DMA_QC_STATUS_STATE q) = 3 ∧ t.get (F.DMA_QC_STATUS_ERR q) = 4 ∧
        t.flag F.DMA_STATUS_UR_SEEN = true ∧ t.lcnt = s.lcnt ∧
        t.getN (R.DMA_QC_CUR q) 2 = a % 2 ^ 64 ∧ (0x0A01, s.locusQ q) ∈ t.log.seen ∧ (t.hostq q).fetch = none ∧
        t.out.head? = some (.aer (s.get (F.DMA_Q_OWNER_FUNC q)) 0) ∧ memSame s t)) ∧
    (∀ a again b, s.reqSince q .fetch = some b → (s.hostq q).fetch = some (a, again) → (s.hostq q).pend = [] →
      (s.hostq q).recd = none → ∃ t, exec (.completionTimeout ⟨q, .fetch⟩) s = .next t ∧
        changesOnly ([F.DMA_STATUS_TIMEOUT_SEEN, F.DMA_QC_STATUS_STATE q, F.DMA_QC_STATUS_ERR q, F.STO_CLASS_BACKLOG_BYTES 1] ++
          wideFlds (R.DMA_QC_CUR q) 2 ++ logFlds) s t))

/-! ### The raster scan-out (R231-R247) -/

/-- HOT_PLUG, LINK_TRAINING_DONE, DP_HPD_FALL, VBLANK_START (R232, R233, R238, R243, R244): a plug is logged and starts training, whose
success lets the next frame be sent; without DP_HPD nothing is sent; a frame starts at VBLANK_START with an empty line buffer and a
fresh signature, and a disabled generator stops there. -/
def Obligations.DisplayPlugsAndStartsFrames : Prop :=
  (∀ s : State, ∃ t, exec .hotPlug s = .next t ∧ t.disp = { s.disp with hpd := true, trained := false } ∧
    (0x0B01, s.locusHub) ∈ t.log.seen ∧ changesOnly logFlds s t) ∧
  (∀ s : State, ∃ t, exec .dpHpdFall s = .next t ∧ t.disp = { s.disp with hpd := false, trained := false, sendNext := false } ∧
    t.flag F.DISP_STATUS_LINK = false ∧ (0x0B01, s.locusHub) ∈ t.log.seen ∧
    changesOnly (F.DISP_STATUS_LINK :: logFlds) s t) ∧
  (∀ s : State, s.disp.hpd = true →
    exec (.linkTrainingDone true) s = .next { s with disp := { s.disp with trained := true, sendNext := s.dispOn } } ∧
    ∃ t, exec (.linkTrainingDone false) s = .next t ∧ t.disp = { s.disp with trained := false, sendNext := false } ∧
      t.flag F.DISP_STATUS_LINK = false ∧ (0x0B01, s.locusHub) ∈ t.log.seen ∧
      changesOnly (F.DISP_STATUS_LINK :: logFlds) s t) ∧
  (∀ (ok : Bool) (s : State), s.disp.hpd = false → exec (.linkTrainingDone ok) s = .next s) ∧
  (∀ s : State, s.dispOn = false → ∀ c ∈ [Instr.vblankStart, .frameDone], exec c s = .next s) ∧
  (∀ s : State, s.flag F.DISP_CTRL_EN = false → s.disp.stopNext = true → ∃ t, exec .vblankStart s = .next t ∧
    t.flag F.DISP_STATUS_LINK = false ∧ t.flag F.DISP_STATUS_PSR = false ∧ t.disp.stopNext = false ∧
    t.disp.trained = false ∧ t.disp.latches = [] ∧ t.disp.rows = [] ∧ memSame s t ∧
    t = { s with out := t.out, regs := t.regs, frames := t.frames, disp := t.disp, msix := t.msix }) ∧
  (∀ s : State, s.flag F.DISP_CTRL_EN = true → ∃ t, exec .vblankStart s = .next t ∧ t.disp.line = s.get F.DISP_V_VACT ∧
    t.disp.rows = [] ∧ t.disp.left = [] ∧ t.disp.even = [] ∧ t.disp.crc = 4294967295 ∧
    (s.disp.pend = [] → t.getN R.DISP_VBLANK_LCNT 2 = s.lcnt % 2 ^ 64 ∧
      (s.get F.DISP_EVT_LINE = s.get F.DISP_V_VACT → t.flag ⟨R.DISP_STATUS, 2, 2⟩ = true) ∧
      (s.disp.sendNext = true → s.disp.hpd = true → s.flag F.DISP_CTRL_EDP = false → s.flag F.DISP_STATUS_PSR = false →
        t.flag F.DISP_STATUS_LINK = true) ∧
      changesOnly ([⟨R.DISP_STATUS, 1, 1⟩, ⟨R.DISP_STATUS, 2, 2⟩, F.DISP_STATUS_LINK, F.DISP_STATUS_PSR, F.DISP_STATUS_NO_SNAP,
        F.DISP_STATUS_DISP_PENDING, F.DISP_BFRAME_BYTES] ++ wideFlds R.DISP_VBLANK_LCNT 2) s t) ∧ memSame s t ∧
    t = { s with out := t.out, regs := t.regs, frames := t.frames, disp := t.disp, msix := t.msix })

/-- FRAME_DONE, RASTER_LINE_START, RASTER_FETCH_BURST (R238-R241, R246, R247): a frame done counts and publishes its signature; a line
signals LINE_MATCH at EVT_LINE and an active one leaves the line buffer; the next database row of a latched layer, granted in
the RASTER class, joins the buffer while it has room. -/
def Obligations.RasterCountsFramesAndFetches : Prop :=
  (∀ s : State, s.dispOn = true → ∃ t, exec .frameDone s = .next t ∧
    t.get F.DISP_FRAME_CNT_COUNT = (s.get F.DISP_FRAME_CNT_COUNT + 1) % 2 ^ 32 ∧
    t.get F.DISP_SIG_CRC = Nat.xor s.disp.crc 4294967295 % 2 ^ 32 ∧ t.flag ⟨R.DISP_STATUS, 0, 0⟩ = true ∧
    t.disp.same = (if Nat.xor s.disp.crc 4294967295 = s.get F.DISP_SIG_CRC ∧ s.dataMoved = true then s.disp.same + 1 else 0) ∧
    (s.disp.fresh = true ∨ s.dataMoved = true → t.flag F.DISP_STATUS_PSR = false ∧ t.disp.free = 0) ∧
    (s.disp.fresh = false → s.dataMoved = false → t.disp.free = s.disp.free + 1) ∧
    changesOnly ([F.DISP_FRAME_CNT_COUNT, F.DISP_SIG_CRC, F.DISP_STATUS_PSR, F.DISP_STATUS_FREEZE, ⟨R.DISP_STATUS, 0, 0⟩] ++
      logFlds) s t) ∧
  (∀ (line : Nat) (s : State), s.dispOn = true → ∃ t, exec (.rasterLineStart line) s = .next t ∧ t.disp.line = line ∧
    (line = s.get F.DISP_EVT_LINE → line ≠ s.get F.DISP_V_VACT → t.flag ⟨R.DISP_STATUS, 2, 2⟩ = true) ∧
    (s.get F.DISP_V_VACT ≤ line → t.disp = { s.disp with line := line }) ∧
    (line = 0 → line < s.get F.DISP_V_VACT → s.prefilled = false → t.flag F.DISP_STATUS_PREFILL_SHORT = true) ∧
    changesOnly [⟨R.DISP_STATUS, 2, 2⟩, ⟨R.DISP_STATUS, 3, 3⟩, F.DISP_STATUS_PREFILL_SHORT, F.DISP_UNDERRUN_CNT_COUNT] s t ∧
    t = { s with out := t.out, regs := t.regs, disp := t.disp, msix := t.msix }) ∧
  (∀ (line : Nat) (s : State), s.dispOn = false → exec (.rasterLineStart line) s = .next s) ∧
  (∀ (layer : Fin 8) (row : Fin 1024) (spoiled : BitVec 16) (l : Latch) (pub a : Nat) (s : State), s.dispOn = true → s.flag F.DISP_STATUS_PSR = false →
    (s.disp.rows.filter (fun x => x.1 == layer.val)).length < 16 →
    s.disp.latches.find? (fun y => y.layer == layer.val && y.snap.isSome) = some l → l.snap = some (pub, a) →
    Tab.get 1024 s.disp.left layer = row.val + 1 →
    ((s.ask 3 layer 4096).1 = true → ∃ t bad, exec (.rasterFetchBurst layer row spoiled) s = .next t ∧
      (∀ i, i ∈ bad ↔ i < 16 ∧ (s.poisoned (a + 4096 * row.val + 256 * i) = true ∨ spoiled.getLsbD i = true)) ∧
      t.disp = { s.disp with
        rows := s.disp.rows ++ [(layer.val, row.val, bad)]
        left := Tab.set s.disp.left layer row.val } ∧
      (bad ≠ [] → t.flag F.DISP_STATUS_POISON_SEEN = true) ∧
      changesOnly [F.DISP_STATUS_POISON_SEEN, F.STO_CLASS_BACKLOG_BYTES 3] s t ∧
      t = { s with regs := t.regs, sto := t.sto, disp := t.disp }) ∧
    ((s.ask 3 layer 4096).1 = false → exec (.rasterFetchBurst layer row spoiled) s = .next (s.ask 3 layer 4096).2)) ∧
  (∀ (layer : Fin 8) (row : Fin 1024) (spoiled : BitVec 16) (s : State), s.dispOn = false ∨ s.flag F.DISP_STATUS_PSR = true ∨
    Tab.get 1024 s.disp.left layer ≠ row.val + 1 ∨
    16 ≤ (s.disp.rows.filter (fun x => x.1 == layer.val)).length ∨ s.disp.latches = [] → exec (.rasterFetchBurst layer row spoiled) s = .next s)

/-! ### The sample clock (R248-R266) -/

/-- REFIN_LOST, LOOP_UNLOCK, REFIN_RESTORED, OSCILLATOR_STOP (R250, R253, R254, R259, R261-R263): a locked loop that loses its reference
or its lock goes to HOLDOVER, leaves the switch to bypass for the next boundary, opens the gap and is logged; an acquiring loop waits
for the reference again; a stopped oscillator puts the fabric on CLKBYP at once. -/
def Obligations.LoopLossesAndReturns : Prop :=
  (∀ (c good : Nat) (s : State), s.get F.CLK_STATUS_LOOP = 3 →
    (∃ t, exec (.refinLost c good) s = .next t ∧ t.flag F.CLK_STATUS_REF_OK = false ∧ t.get F.CLK_STATUS_LOOP = 4 ∧
      t.flag F.CLK_STATUS_HOLDOVER = true ∧ t.flag F.CLK_STATUS_REF_LOST = true ∧ t.clk.toBypass = some c ∧
      t.clk.toReturn = none ∧ t.clk.gap.2 = none ∧ t.getN R.CLK_LOSS_LCNT 2 = good % 2 ^ 64 ∧ t.lcnt = max s.lcnt c ∧
      (0x0301, s.locusHub) ∈ t.log.seen ∧ memSame s t) ∧
    (∀ (n least : Nat) (err : Int) (ovf : Bool),
      (ovf = true ∨ (unlockN s.loopRegs ≤ n ∧ unlockWin s.loopRegs < least) →
        ∃ t, exec (.loopUnlock c ⟨good, n, least, err, ovf⟩) s = .next t ∧ t.get F.CLK_STATUS_LOOP = 4 ∧
          t.flag F.CLK_STATUS_HOLDOVER = true ∧ t.flag F.CLK_STATUS_LOCK_LOST = true ∧ t.clk.toBypass = some c ∧
          t.clk.toReturn = none ∧ t.clk.gap.2 = none ∧ t.getN R.CLK_LOSS_LCNT 2 = good % 2 ^ 64 ∧ t.lcnt = max s.lcnt c ∧
          t.sget F.CLK_PHERR_ERR = max (-32768) (min 32767 err) ∧ (0x0301, s.locusHub) ∈ t.log.seen ∧ memSame s t) ∧
      (ovf = false → n < unlockN s.loopRegs ∨ least ≤ unlockWin s.loopRegs →
        exec (.loopUnlock c ⟨good, n, least, err, ovf⟩) s = .next ((s.at_ c).showErr err)))) ∧
  (∀ (c good : Nat) (s : State), s.get F.CLK_STATUS_LOOP = 1 ∨ s.get F.CLK_STATUS_LOOP = 2 → ∃ t,
    exec (.refinLost c good) s = .next t ∧ t.flag F.CLK_STATUS_REF_OK = false ∧ t.get F.CLK_STATUS_LOOP = 0 ∧
    t.lcnt = max s.lcnt c ∧ changesOnly [F.CLK_STATUS_REF_OK, F.CLK_STATUS_LOOP, F.CLK_STATUS_HOLDOVER] s t ∧
    t = { s with lcnt := t.lcnt, regs := t.regs }) ∧
  (∀ (c good : Nat) (s : State), s.get F.CLK_STATUS_LOOP = 0 ∨ s.get F.CLK_STATUS_LOOP = 4 →
    exec (.refinLost c good) s = .next ((s.at_ c).clrF F.CLK_STATUS_REF_OK)) ∧
  (∀ (c good n least : Nat) (err : Int) (ovf : Bool) (s : State), s.get F.CLK_STATUS_LOOP ≠ 3 →
    exec (.loopUnlock c ⟨good, n, least, err, ovf⟩) s = .next (s.at_ c)) ∧
  (∀ (c : Nat) (s : State),
    (s.get F.CLK_STATUS_LOOP = 0 → s.cfgReady = true → s.flag F.CLK_STATUS_OCXO_RDY = true → ∃ t,
      exec (.refinRestored c) s = .next t ∧ t.flag F.CLK_STATUS_REF_OK = true ∧
      t.get F.CLK_STATUS_LOOP = (if (bandHit s.loopRegs (fcwKey s.loopRegs)).isSome then 2 else 1) ∧
      changesOnly [F.CLK_STATUS_REF_OK, F.CLK_STATUS_LOOP, F.CLK_STATUS_HOLDOVER, F.CLK_STATUS_BAND_HIT, F.CLK_BAND_BAND,
        F.CLK_BAND_FINE] s t ∧ t = { s with lcnt := t.lcnt, regs := t.regs, clk := t.clk }) ∧
    (s.get F.CLK_STATUS_LOOP = 4 → s.clk.toBypass = none → ∃ t, exec (.refinRestored c) s = .next t ∧
      t.flag F.CLK_STATUS_REF_OK = true ∧ t.get F.CLK_STATUS_LOOP = 2 ∧ t.flag F.CLK_STATUS_HOLDOVER = false ∧
      t.clk.searched = false ∧ t.flag F.CLK_STATUS_BAND_HIT = false ∧
      changesOnly [F.CLK_STATUS_REF_OK, F.CLK_STATUS_LOOP, F.CLK_STATUS_HOLDOVER, F.CLK_STATUS_BAND_HIT] s t) ∧
    (s.get F.CLK_STATUS_LOOP = 3 → exec (.refinRestored c) s = .next ((s.at_ c).setF F.CLK_STATUS_REF_OK))) ∧
  (∀ (c : Nat) (k : Fin 11) (s : State), ∃ t, exec (.oscillatorStop c k) s = .next t ∧ t.flag F.CLK_STATUS_NTO_STOP = true ∧
    t.flag F.CLK_STATUS_LOCK_LOST = true ∧ t.flag F.CLK_STATUS_FABRIC_BYP = true ∧ t.get F.CLK_STATUS_LOOP < 3 ∧
    t.clk.toBypass = none ∧ t.clk.gap.2 = none ∧ (0x0303, s.locusHub) ∈ t.log.seen ∧ t.lcnt = max s.lcnt c ∧ memSame s t)

/-- FABRIC_TO_BYPASS, FABRIC_RETURN, CLKBYP_LOST, CLKBYP_RESTORED, OCXO_RDY_FALL, OCXO_RDY_RISE (R249, R250, R259, R260, R262, R263): the
fabric moves to CLKBYP at the boundary after the loss and back at the boundary after LOCKED, words through t_r + 63 discarded; a lost
CLKBYP leaves it on the held oscillator. -/
def Obligations.FabricBypassAndReturn : Prop :=
  (∀ (c : Nat) (s : State), s.clk.toBypass = some c →
    (s.flag F.CLK_STATUS_BYP_OK = true → ∃ t, exec .fabricToBypass s = .next t ∧ t.flag F.CLK_STATUS_FABRIC_BYP = true ∧
      t.get F.CLK_SWITCH_CNT_COUNT = min (s.get F.CLK_SWITCH_CNT_COUNT + 1) (2 ^ 32 - 1) ∧ t.clk.toBypass = none ∧
      t.clk.held = false ∧ t.clk.bypass = (boundaryAfter c, none) :: s.clk.bypass ∧ memSame s t) ∧
    (s.flag F.CLK_STATUS_BYP_OK = false → ∃ t, exec .fabricToBypass s = .next t ∧ t.clk.held = true ∧ t.clk.toBypass = none ∧
      t.lcnt = max s.lcnt (boundaryAfter c) ∧
      changesOnly [F.CLK_STATUS_LOOP, F.CLK_STATUS_HOLDOVER, F.CLK_STATUS_BAND_HIT] s t ∧
      t = { s with lcnt := t.lcnt, regs := t.regs, clk := t.clk })) ∧
  (∀ s : State, s.clk.toBypass = none → exec .fabricToBypass s = .next s) ∧
  (∀ (c : Nat) (s : State), s.clk.toReturn = some c → s.get F.CLK_STATUS_LOOP = 3 → ∃ t, exec .fabricReturn s = .next t ∧
    t.flag F.CLK_STATUS_FABRIC_BYP = false ∧ t.clk.toReturn = none ∧ t.clk.held = false ∧ t.lcnt = max s.lcnt (boundaryAfter c) ∧
    t.clk.gap = (s.clk.gap.1, some (boundaryAfter c + 64)) ∧ memSame s t) ∧
  (∀ s : State, s.clk.toReturn = none ∨ s.get F.CLK_STATUS_LOOP ≠ 3 → exec .fabricReturn s = .next s) ∧
  (∀ (c : Nat) (k : Fin 11) (s : State),
    (s.flag F.CLK_STATUS_FABRIC_BYP = true → ∃ t, exec (.clkbypLost c k) s = .next t ∧ t.flag F.CLK_STATUS_BYP_OK = false ∧
      t.flag F.CLK_STATUS_FABRIC_BYP = false ∧ t.clk.held = true ∧ (0x0304, s.locusHub) ∈ t.log.seen ∧
      changesOnly ([F.CLK_STATUS_BYP_OK, F.CLK_STATUS_FABRIC_BYP] ++ logFlds) s t) ∧
    (s.flag F.CLK_STATUS_FABRIC_BYP = false → exec (.clkbypLost c k) s = .next ((s.at_ c).clrF F.CLK_STATUS_BYP_OK)) ∧
    exec (.clkbypRestored c) s = .next ((s.at_ c).setF F.CLK_STATUS_BYP_OK)) ∧
  (∀ s : State,
    (s.get F.CLK_STATUS_LOOP = 3 → s.loopRegs.bit F.CLK_CTRL_OCXO_WAIT = true → ∃ t, exec .ocxoRdyFall s = .next t ∧
      t.flag F.CLK_STATUS_OCXO_RDY = false ∧ t.flag F.CLK_STATUS_OCXO_COLD = true ∧ (0x0302, s.locusHub) ∈ t.log.seen ∧
      changesOnly ([F.CLK_STATUS_OCXO_RDY, F.CLK_STATUS_OCXO_COLD] ++ logFlds) s t) ∧
    (s.get F.CLK_STATUS_LOOP ≠ 3 → exec .ocxoRdyFall s = .next (s.clrF F.CLK_STATUS_OCXO_RDY)) ∧
    (s.get F.CLK_STATUS_LOOP ≠ 0 → exec .ocxoRdyRise s = .next (s.setF F.CLK_STATUS_OCXO_RDY)) ∧
    (s.get F.CLK_STATUS_LOOP = 0 → s.cfgReady = true → s.flag F.CLK_STATUS_REF_OK = true → ∃ t, exec .ocxoRdyRise s = .next t ∧
      t.flag F.CLK_STATUS_OCXO_RDY = true ∧ t.get F.CLK_STATUS_LOOP = (if (bandHit s.loopRegs (fcwKey s.loopRegs)).isSome then 2 else 1)))

/-- SEARCH_STEP, LOOP_LOCK (R253, R255, R258): a step halves the bands left and the last one starts the fine acquisition; the lock
criterion ends the acquisition, publishes the fine word and asks for the fabric's return; a lock reached through SEARCH may be learnt. -/
def Obligations.LoopSearchesAndLocks : Prop :=
  (∀ (up : Bool) (mid lo hi : Nat) (s : State), s.get F.CLK_STATUS_LOOP = 1 → mid = (s.clk.lo + s.clk.hi) / 2 →
    lo = (if up then min 255 (mid + 1) else s.clk.lo) → hi = (if up then max lo s.clk.hi else mid) →
    (1 < s.clk.steps → ∃ t, exec (.searchStep up) s = .next t ∧ t.clk = { s.clk with lo := lo, hi := hi, steps := s.clk.steps - 1 } ∧
      t.get F.CLK_BAND_BAND = (lo + hi) / 2 % 256 ∧ changesOnly [F.CLK_BAND_BAND] s t ∧ t = { s with regs := t.regs, clk := t.clk }) ∧
    (s.clk.steps = 1 → ∃ t, exec (.searchStep up) s = .next t ∧ t.get F.CLK_STATUS_LOOP = 2 ∧ t.clk.steps = 0 ∧
      t.get F.CLK_BAND_BAND = lo % 256 ∧ changesOnly [F.CLK_STATUS_LOOP, F.CLK_STATUS_HOLDOVER, F.CLK_BAND_BAND] s t ∧
      t = { s with regs := t.regs, clk := t.clk })) ∧
  (∀ (up : Bool) (s : State), s.get F.CLK_STATUS_LOOP ≠ 1 → exec (.searchStep up) s = .next s) ∧
  (∀ (fine n worst : Nat) (err : Int) (s : State), s.get F.CLK_STATUS_LOOP = 2 → lockN s.loopRegs ≤ n → worst ≤ lockWin s.loopRegs →
    err.natAbs ≤ worst → ∃ t, exec (.loopLock ⟨fine, n, worst, err⟩) s = .next t ∧
    t.get F.CLK_STATUS_LOOP = 3 ∧ t.flag F.CLK_STATUS_HOLDOVER = false ∧ t.get F.CLK_BAND_FINE = fine % 2 ^ 24 ∧
    t.clk.toReturn = some s.lcnt ∧ t.clk.searched = false ∧ t.sget F.CLK_PHERR_ERR = max (-32768) (min 32767 err) ∧
    (s.clk.searched = false → changesOnly [F.CLK_PHERR_ERR, F.CLK_STATUS_LOOP, F.CLK_STATUS_HOLDOVER, F.CLK_BAND_FINE] s t ∧
      t.shadow = s.shadow ∧ t.clk.used = s.clk.used) ∧
    (s.clk.searched = true → s.loopRegs.bit F.CLK_CTRL_LEARN = true → ∃ i, t.clk.used.head? = some i ∧
      t.flag (F.CLK_BTAB_FCW_VALID i) = true ∧ t.get (F.CLK_BTAB_BAND_BAND i) = s.get F.CLK_BAND_BAND) ∧
    memSame s t ∧ t = { s with regs := t.regs, shadow := t.shadow, clk := t.clk }) ∧
  (∀ (fine n worst : Nat) (err : Int) (s : State),
    (s.get F.CLK_STATUS_LOOP ≠ 2 → exec (.loopLock ⟨fine, n, worst, err⟩) s = .next s) ∧
    (s.get F.CLK_STATUS_LOOP = 2 → n < lockN s.loopRegs ∨ lockWin s.loopRegs < worst →
      exec (.loopLock ⟨fine, n, worst, err⟩) s = .next (s.showErr err)))

/-! ### Event inputs (R287-R308) -/

/-- EVENT_EDGE, EVENT_STAMP, EVENT_INTERP_CAL_RUN (R287-R293, R296, R297, R304): an edge of the chosen slope on an enabled input is
counted and taken by a ready interpolator, or lost and counted as such; its code gives the edge its instant, which a stream queues
and a frequency measurement keeps; a calibration run publishes new reference codes. -/
def Obligations.EventEdgesGetTheirStamps : Prop :=
  (∀ (k : Fin 8) (c : Nat) (rising : Bool) (s : State),
    (s.flag (F.EVT_IN_CTRL_EN k) = false → exec (.eventEdge k c rising) s = .next ((s.at_ c).putB (F.EVT_IN_STATUS_LEVEL k) rising)) ∧
    (s.flag (F.EVT_IN_CTRL_EN k) = true → slopeOk (s.get (F.EVT_IN_CTRL_SLOPE k)) rising = true → s.get (F.EVT_IN_CTRL_SEL k) = 0 →
      ∃ t, exec (.eventEdge k c rising) s = .next t ∧ t.flag (F.EVT_IN_STATUS_LEVEL k) = rising ∧
        t.edgeCnt k = (s.edgeCnt k + 1) % 2 ^ 48 ∧ t.lcnt = max s.lcnt c ∧
        (∀ i, s.evTaker k c = some i → t.ev k = (s.ev k).setIp i ⟨c + 5, some (c, rising, t.edgeCnt k)⟩ ∧ t.grps = s.grps) ∧
        (s.evTaker k c = none → t.flag (F.EVT_IN_STATUS_LOST_SEEN k) = true ∧
          t.get (F.EVT_IN_LOST_CNT_COUNT k) = min (s.get (F.EVT_IN_LOST_CNT_COUNT k) + 1) (2 ^ 32 - 1)) ∧
        changesOnly ([F.EVT_IN_STATUS_LEVEL k, F.EVT_IN_LOST_CNT_COUNT k, F.EVT_IN_STATUS_LOST_SEEN k] ++
          wideFlds (R.EVT_IN_EDGE_CNT k) 2) s t ∧
        t = { s with lcnt := t.lcnt, regs := t.regs, grps := t.grps, evs := t.evs }) ∧
    (s.flag (F.EVT_IN_CTRL_EN k) = true → slopeOk (s.get (F.EVT_IN_CTRL_SLOPE k)) rising = false →
      ∃ t, exec (.eventEdge k c rising) s = .next t ∧ t.flag (F.EVT_IN_STATUS_LEVEL k) = rising ∧
        changesOnly [F.EVT_IN_STATUS_LEVEL k] s t ∧ t = { s with lcnt := t.lcnt, regs := t.regs, grps := t.grps })) ∧
  (∀ (k : Fin 8) (i : Fin 2) (nm : BitVec 14) (s : State),
    (((s.ev k).ip i).meas = none → exec (.eventStamp k i nm) s = .next s) ∧
    (∀ c rising cnt, ((s.ev k).ip i).meas = some (c, rising, cnt) → ∃ t, exec (.eventStamp k i nm) s = .next t ∧
      t.lcnt = max s.lcnt (c + 4) ∧ ((t.ev k).ip i).meas = none ∧
      (s.evRuns k 1 = true → (s.ev k).lost = none → (s.ev k).fifo.length < 4095 →
        (t.ev k).fifo.length = (s.ev k).fifo.length + 1) ∧
      (s.evRuns k 4 = true → s.get (F.EVT_INT_CAL_N1 k i) ≠ s.get (F.EVT_INT_CAL_N2 k i) → ∃ x : EvStamp,
        (t.ev k).stamps = (s.ev k).stamps ++ [x] ∧ x.rising = rising ∧ x.cnt = cnt ∧
        x.t = (65536 * ((c + 2 : Nat) : Int) - (65536 + roundDivI (65536 * ((nm.toNat : Int) - s.get (F.EVT_INT_CAL_N1 k i)))
          ((s.get (F.EVT_INT_CAL_N2 k i) : Int) - s.get (F.EVT_INT_CAL_N1 k i))) - s.get (F.EVT_DELAY_DELAY k)).toNat) ∧
      changesOnly [F.EVT_IN_STATUS_BYP_SEEN k] s t ∧
      t = { s with free := t.free, lcnt := t.lcnt, regs := t.regs, grps := t.grps, evs := t.evs })) ∧
  (∀ (k : Fin 8) (i : Fin 2) (n1 n2 : BitVec 14) (s : State), ∃ t, exec (.eventInterpCalRun k i n1 n2) s = .next t ∧
    t.get (F.EVT_INT_CAL_N1 k i) = n1.toNat ∧ t.get (F.EVT_INT_CAL_N2 k i) = n2.toNat ∧ s.lcnt ≤ t.lcnt ∧
    (6000 ≤ n1.toNat + 450 → n1.toNat ≤ 6450 → n1.toNat + 5550 ≤ n2.toNat → n2.toNat ≤ n1.toNat + 6450 → n2.toNat ≠ 16383 →
      changesOnly [F.EVT_INT_CAL_N1 k i, F.EVT_INT_CAL_N2 k i] s t ∧ t = { s with lcnt := t.lcnt, regs := t.regs, evs := t.evs }) ∧
    (n2.toNat = 16383 → t.flag (F.EVT_INT_CAL_FAILED k i) = true) ∧ memSame s t)

/-- EVT_CMD.START, EVT_MEASUREMENT_START, EVT_CMD.STOP (R290, R306): a START takes effect at the first boundary after its write, with
fresh references and everything from before discarded; a STOP ends the measurement at once and publishes what a STATS or FREQ
measurement has so far. -/
def Obligations.EventMeasurementsStartAndStop : Prop :=
  (∀ (a : Nat) (k : Fin 8) (s : State), exec (.evtStart a k) s = .next ((s.at_ a).setEv k { s.ev k with startReq := some a })) ∧
  (∀ (k : Fin 8) (codes : List Nat) (s : State), codes.length ≠ 4 →
    exec (.evtMeasurementStart k codes) s = .fault (.illFormed "EVT_MEASUREMENT_START")) ∧
  (∀ (k : Fin 8) (codes : List Nat) (s : State), codes.length = 4 → (s.ev k).startReq = none →
    exec (.evtMeasurementStart k codes) s = .next s) ∧
  (∀ (k : Fin 8) (codes : List Nat) (a : Nat) (s : State), codes.length = 4 → (s.ev k).startReq = some a →
    s.flag (F.EVT_IN_CTRL_EN k) = true → s.get (F.EVT_IN_CTRL_FUNC k) ≠ 0 → ∃ t, exec (.evtMeasurementStart k codes) s = .next t ∧
      t.flag (F.EVT_IN_STATUS_RUN k) = true ∧ t.lcnt = max s.lcnt (boundaryAfter a) ∧ (t.ev k).startReq = none ∧
      (t.ev k).b = boundaryAfter a ∧ (t.ev k).n = 0 ∧ (t.ev k).stamps = [] ∧ (t.ev k).open_ = none ∧
      (∀ j : Nat, j ≠ k → t.ev j = s.ev j) ∧ memSame s t) ∧
  (∀ (k : Fin 8) (s : State), s.flag (F.EVT_IN_STATUS_RUN k) = false →
    exec (.evtStop k) s = .next (s.setEv k { s.ev k with startReq := none })) ∧
  (∀ (k : Fin 8) (s : State), s.flag (F.EVT_IN_STATUS_RUN k) = true → ∃ t, exec (.evtStop k) s = .next t ∧
    t.flag (F.EVT_IN_STATUS_RUN k) = false ∧ (t.ev k).startReq = none ∧
    (s.get (F.EVT_IN_CTRL_FUNC k) = 3 ∨ s.get (F.EVT_IN_CTRL_FUNC k) = 4 → t.flag (F.EVT_IN_STATUS_READY k) = true) ∧
    (s.get (F.EVT_IN_CTRL_FUNC k) ≠ 3 → s.get (F.EVT_IN_CTRL_FUNC k) ≠ 4 → changesOnly [F.EVT_IN_STATUS_RUN k] s t) ∧
    changesOnly ([F.EVT_IN_STATUS_RUN k, F.EVT_IN_STATUS_READY k, F.EVT_IN_OVR_CNT_COUNT k, F.EVT_IN_STATUS_OVERRUN k] ++
      wideFlds (R.EVT_RES k) 16) s t ∧ t = { s with free := t.free, regs := t.regs, evs := t.evs })

/-- INTERVAL_RESULT, STATS_RESULT, FREQ_GATE_END, EVT_RES_READ (R301, R302, R304-R306, R308): the oldest result waiting is published
with the next sequence number, an unread one is overrun and counted; a frequency gate's end publishes its result and goes on only
with CONT; reading a result answers its first word, latches the others and clears READY. -/
def Obligations.EventResultsArePublishedAndRead : Prop :=
  (∀ (k : Fin 8) (c : Instr) (r : Nat × Nat) (rest : List (Nat × Nat)) (s : State),
    (c = .intervalResult k ∧ s.get (F.EVT_IN_CTRL_FUNC k) = 2) ∨ (c = .statsResult k ∧ s.get (F.EVT_IN_CTRL_FUNC k) = 3) →
    (s.ev k).results = r :: rest → ∃ t, exec c s = .next t ∧ (t.ev k).results = rest ∧ t.lcnt = max s.lcnt r.1 ∧
      t.getN (R.EVT_RES k) 16 = (r.2 + (s.get (F.EVT_RES_SEQ k) + 1) % 2 ^ 32) % 2 ^ 512 ∧
      t.flag (F.EVT_IN_STATUS_READY k) = true ∧
      (s.flag (F.EVT_IN_STATUS_READY k) = true → t.flag (F.EVT_IN_STATUS_OVERRUN k) = true ∧
        t.get (F.EVT_IN_OVR_CNT_COUNT k) = min (s.get (F.EVT_IN_OVR_CNT_COUNT k) + 1) (2 ^ 32 - 1)) ∧
      ((s.ev k).ready = true → rest = [] → t.flag (F.EVT_IN_STATUS_RUN k) = false) ∧
      changesOnly ([F.EVT_IN_STATUS_RUN k, F.EVT_IN_STATUS_READY k, F.EVT_IN_OVR_CNT_COUNT k, F.EVT_IN_STATUS_OVERRUN k] ++
        wideFlds (R.EVT_RES k) 16) s t ∧ t = { s with lcnt := t.lcnt, regs := t.regs, evs := t.evs }) ∧
  (∀ (k : Fin 8) (s : State), (s.ev k).results = [] → exec (.intervalResult k) s = .next s ∧ exec (.statsResult k) s = .next s) ∧
  (∀ (k : Fin 8) (g1 : Nat) (s : State), s.evRuns k 4 = true →
    g1 = (s.ev k).b + 16 + (s.ev k).gate * (s.getN (R.EVT_IN_GATE k) 2 % 2 ^ 40) + s.getN (R.EVT_IN_GATE k) 2 % 2 ^ 40 →
    ∃ t, exec (.freqGateEnd k) s = .next t ∧ t.lcnt = max s.lcnt (g1 - 1 + 64) ∧ (t.ev k).gate = (s.ev k).gate + 1 ∧
      (t.ev k).stamps = (s.ev k).stamps.filter (fun x => decide (g1 ≤ x.t / 65536)) ∧
      t.flag (F.EVT_IN_STATUS_READY k) = true ∧ t.flag (F.EVT_IN_STATUS_RUN k) = s.flag (F.EVT_IN_CTRL_CONT k) ∧
      (∀ j : Nat, j ≠ k → t.ev j = s.ev j) ∧
      changesOnly ([F.EVT_IN_STATUS_RUN k, F.EVT_IN_STATUS_READY k, F.EVT_IN_OVR_CNT_COUNT k, F.EVT_IN_STATUS_OVERRUN k] ++
        wideFlds (R.EVT_RES k) 16) s t ∧ t = { s with free := t.free, lcnt := t.lcnt, regs := t.regs, evs := t.evs }) ∧
  (∀ (k : Fin 8) (s : State), s.evRuns k 4 = false → exec (.freqGateEnd k) s = .next s) ∧
  (∀ (fn : Fin 64) (k : Fin 8) (s : State), fn ≠ 0 →
    exec (.evtResRead fn k) s = .next (s.emit (.read fn (R.EVT_RES k) [0]))) ∧
  (∀ (fn : Fin 64) (k : Fin 8) (s : State), fn = 0 → ∃ t, exec (.evtResRead fn k) s = .next t ∧
    t.out = .read fn (R.EVT_RES k) [s.word (R.EVT_RES k)] :: s.out ∧ t.flag (F.EVT_IN_STATUS_READY k) = false ∧
    (∀ i : Fin 15, Tab.get 0 t.latch (latchKey fn (R.EVT_RES k + 4 * (i + 1))) = s.word (R.EVT_RES k + 4 * (i + 1))) ∧
    changesOnly [F.EVT_IN_STATUS_READY k] s t ∧ t = { s with out := t.out, regs := t.regs, latch := t.latch })

/-! ### Network time and PTP (R267-R286) -/

/-- PTP_SYNC_RX (R276, R278): on a slave port whose servo runs in ACQUIRE or LOCKED a one-step Sync adds its offset to the servo's
sum, and a two-step Sync waits for its Follow_Up; a port in another state measures nothing. A transparent clock sends it on every
other transparent port that no pause holds. -/
def Obligations.SyncOffsetsReachTheServo : Prop :=
  ∀ (p : Fin 128) (seq t : Nat) (origin : Int) (s : State),
    (s.isTc p = false → s.get (F.TIME_PTP_PORT_STATE p) = 9 → s.flag F.TIME_CTRL_SERVO_EN = true →
      (s.get F.TIME_STATUS_SERVO = 1 ∨ s.get F.TIME_STATUS_SERVO = 2) →
      exec (.ptpSyncRx p seq t origin false) s = .next { s with servo := { s.servo with
        sum := s.servo.sum + ((s.netTime t).val - origin - (s.ptpPort p).mpd), cnt := s.servo.cnt + 1 } }) ∧
    (s.isTc p = false → s.get (F.TIME_PTP_PORT_STATE p) = 9 →
      ∃ u, exec (.ptpSyncRx p seq t origin true) s = .next u ∧
        u.ptpPort p = { s.ptpPort p with syncs := (seq, ((s.netTime t).val : Int)) :: (s.ptpPort p).syncs } ∧
        (∀ q : Fin 128, q ≠ p → u.ptpPort q = s.ptpPort q) ∧ u = { s with ptp := u.ptp }) ∧
    (s.isTc p = false → s.get (F.TIME_PTP_PORT_STATE p) ≠ 9 →
      ∀ two, exec (.ptpSyncRx p seq t origin two) s = .next s) ∧
    (s.isTc p = true → (∀ q, s.heldPrio q 0 = false ∧ (s.port q).ctl = []) → ∀ two,
      ∃ u, exec (.ptpSyncRx p seq t origin two) s = .next u ∧ u.out.length = s.out.length + (s.tcPorts p).length ∧
        (∀ q ∈ s.tcPorts p, u.getN (R.STM_PORT_TX_FRAMES q) 2 = (s.getN (R.STM_PORT_TX_FRAMES q) 2 + 1) % 2 ^ 64) ∧
        u = { s with out := u.out, free := u.free, regs := u.regs, txq := u.txq, ports := u.ports, servo := u.servo, ptp := u.ptp })

/-- PTP_MESSAGE_RX (R274-R280) outside a transparent port: an Announce brings the UTC offset, a Follow_Up completes its Sync, a
delay exchange gives the mean path delay, a master answers a Delay_Req on a port that no pause holds, an interval request is obeyed
under 802.1AS only, a management message is counted and dropped. -/
def Obligations.PtpMessagesTakeEffect : Prop :=
  ∀ (p : Fin 128) (s : State), s.isTc p = false →
    (∀ states gm uv u, ∃ t, exec (.ptpMessageRx p (.announce states gm uv u)) s = .next t ∧
      t.flag F.TIME_UTC_VALID = uv ∧ t.get F.TIME_UTC_OFFSET = enc 16 u ∧ memSame s t) ∧
    (∀ seq origin x, (s.ptpPort p).syncs.find? (fun y => y.1 == seq) = some x → s.flag F.TIME_CTRL_SERVO_EN = true →
      (s.get F.TIME_STATUS_SERVO = 1 ∨ s.get F.TIME_STATUS_SERVO = 2) →
      ∃ t, exec (.ptpMessageRx p (.followUp seq origin)) s = .next t ∧
        t.servo = { s.servo with sum := s.servo.sum + (x.2 - origin - (s.ptpPort p).mpd), cnt := s.servo.cnt + 1 } ∧
        t = { s with ptp := t.ptp, servo := t.servo }) ∧
    (∀ mpd, ∃ t, exec (.ptpMessageRx p (.pathDelay mpd)) s = .next t ∧ t.ptpPort p = { s.ptpPort p with mpd := mpd } ∧
      t = { s with ptp := t.ptp }) ∧
    (∀ seq x, s.flag F.TIME_PTP_CTRL_DELAY = false →
      (s.get (F.TIME_PTP_PORT_STATE p) = 6 → s.heldPrio p 0 = false → (s.port p).ctl = [] →
        ∃ t, exec (.ptpMessageRx p (.delayReq seq x)) s = .next t ∧
          t.out = s.ownMsg p 9 seq [(s.netTime x).val] :: s.out ∧
          t.getN (R.STM_PORT_TX_FRAMES p) 2 = (s.getN (R.STM_PORT_TX_FRAMES p) 2 + 1) % 2 ^ 64 ∧
          changesOnly (wideFlds (R.STM_PORT_TX_FRAMES p) 2) s t ∧ t = { s with out := t.out, regs := t.regs, ports := t.ports }) ∧
      (s.get (F.TIME_PTP_PORT_STATE p) ≠ 6 → exec (.ptpMessageRx p (.delayReq seq x)) s = .next s)) ∧
    (∀ seq x, s.flag F.TIME_PTP_CTRL_DELAY = true → s.get (F.TIME_PTP_PORT_STATE p) ≠ 0 →
      ∃ t, exec (.ptpMessageRx p (.delayReq seq x)) s = .next t ∧
        t.ptpPort p = { s.ptpPort p with reqs := (seq, ((s.netTime x).val : Int)) :: (s.ptpPort p).reqs } ∧ t = { s with ptp := t.ptp }) ∧
    (∀ ann sync dly, s.get F.TIME_PTP_CTRL_PROFILE = 1 → ∃ t, exec (.ptpMessageRx p (.interval ann sync dly)) s = .next t ∧
      t.ptpPort p = { s.ptpPort p with intv := some (ann, sync, dly) } ∧ t = { s with ptp := t.ptp }) ∧
    (∀ ann sync dly, s.get F.TIME_PTP_CTRL_PROFILE ≠ 1 → exec (.ptpMessageRx p (.interval ann sync dly)) s = .next s) ∧
    (∃ t, exec (.ptpMessageRx p .management) s = .next t ∧
      t.get (F.STM_PORT_RX_DROP_CNT_COUNT p) = min (s.get (F.STM_PORT_RX_DROP_CNT_COUNT p) + 1) (2 ^ 32 - 1) ∧
      changesOnly [F.STM_PORT_RX_DROP_CNT_COUNT p] s t ∧ t = { s with regs := t.regs })

/-- PTP_EVENT_TX, PTP_ANNOUNCE_TX, ANNOUNCE_RECEIPT_TIMEOUT (R191, R274, R275, R279, R283): an event message leaves and is counted; its
stamp enters the transmit queue while there is room and is dropped and counted when the queue is full; a port in MASTER announces
under its next sequence, after any pause; the loss of the only slave port sends a servo in ACQUIRE or LOCKED to HOLDOVER. -/
def Obligations.PtpMessagesLeave : Prop :=
  (∀ (p : Fin 128) (typ seq t : Nat) (s : State), s.flag F.TIME_PTP_CTRL_ONE_STEP = true → typ ≠ 3 →
    ∃ u, exec (.ptpEventTx p typ seq t) s = .next u ∧ u.out = s.ownMsg p typ seq [(s.netTime t).val] :: s.out ∧
      u.getN (R.STM_PORT_TX_FRAMES p) 2 = (s.getN (R.STM_PORT_TX_FRAMES p) 2 + 1) % 2 ^ 64 ∧
      (s.flag F.TIME_CTRL_TXQ_EN = false → u.txq = s.txq) ∧
      (s.flag F.TIME_CTRL_TXQ_EN = true → s.txq.length < 64 →
        u.txq = s.txq ++ [⟨s.netTime t, (s.epochAt (t / 65536)).num, seq, typ, p⟩]) ∧
      (s.flag F.TIME_CTRL_TXQ_EN = true → 64 ≤ s.txq.length → u.txq = s.txq ∧
        u.get F.TIME_TXQ_DROP_CNT_COUNT = min (s.get F.TIME_TXQ_DROP_CNT_COUNT + 1) (2 ^ 32 - 1) ∧
        u.flag F.TIME_STATUS_TXQ_OVF = true) ∧
      changesOnly ([F.TIME_TXQ_DROP_CNT_COUNT, F.TIME_STATUS_TXQ_OVF] ++ wideFlds (R.STM_PORT_TX_FRAMES p) 2) s u ∧
      u = { s with out := u.out, regs := u.regs, txq := u.txq }) ∧
  (∀ (p : Fin 128) (seq t rx : Nat) (s : State), (s.ptpPort p).reqs.find? (fun x => x.1 == seq) = some (seq, (rx : Int)) →
    s.flag F.TIME_PTP_CTRL_ONE_STEP = true → ∃ u, exec (.ptpEventTx p 3 seq t) s = .next u ∧
      u.out = s.ownMsg p 3 seq [((s.netTime t).val : Int) - rx] :: s.out ∧ (∀ x ∈ (u.ptpPort p).reqs, x.1 ≠ seq)) ∧
  (∀ (p : Fin 128) (seq t : Nat) (s : State), s.flag F.TIME_PTP_CTRL_ONE_STEP = false → s.heldPrio p 0 = false → (s.port p).ctl = [] →
    ∃ u, exec (.ptpEventTx p 0 seq t) s = .next u ∧ u.out =
      s.ownMsg p 8 seq [(s.netTime t).val] :: s.ownMsg p 0 seq [(s.netTime t).val] :: s.out) ∧
  (∀ (p : Fin 128) (s : State), s.get (F.TIME_PTP_PORT_STATE p) = 6 → (s.port p).ctl = [] →
    ∃ u m, exec (.ptpAnnounceTx p) s = .next u ∧
      u.ptpPort p = { s.ptpPort p with annSeq := ((s.ptpPort p).annSeq + 1) % 65536 } ∧
      (s.heldPrio p 0 = false → u.out = m :: s.out ∧ (u.port p).ctl = []) ∧
      (s.heldPrio p 0 = true → u.out = s.out ∧ (u.port p).ctl = [m]) ∧
      u = { s with out := u.out, regs := u.regs, ports := u.ports, ptp := u.ptp }) ∧
  (∀ (p : Fin 128) (s : State),
    (s.get (F.TIME_PTP_PORT_STATE p) ≠ 6 → exec (.ptpAnnounceTx p) s = .next s) ∧
    (s.get (F.TIME_PTP_PORT_STATE p) ≠ 9 → exec (.announceReceiptTimeout p) s = .next s)) ∧
  (∀ (p : Fin 128) (s : State), s.get (F.TIME_PTP_PORT_STATE p) = 9 →
    (∀ q : Fin 128, q ≠ p → s.get (F.TIME_PTP_PORT_STATE q) ≠ 9) → s.flag F.TIME_CTRL_SERVO_EN = true →
    (s.get F.TIME_STATUS_SERVO = 1 ∨ s.get F.TIME_STATUS_SERVO = 2) →
    ∃ u, exec (.announceReceiptTimeout p) s = .next u ∧ u.get (F.TIME_PTP_PORT_STATE p) = 6 ∧ u.get F.TIME_STATUS_SERVO = 3 ∧
      changesOnly [F.TIME_PTP_PORT_STATE p, F.TIME_STATUS_SERVO] s u ∧ u = { s with regs := u.regs, timeDue := u.timeDue })

/-- TIME_SNAP, TIME_HIST_READ, TXQ_READ (R271, R283, R284): a snapshot holds LCNT = a + 4, its epoch and its network time; a
read of a history entry answers word 0 and latches the others; a read of the transmit queue takes its head, an empty queue
answering VALID = 0. -/
def Obligations.TimeReadsAndSnapshots : Prop :=
  (∀ (a : Nat) (s : State), ∃ t, exec (.timeSnap a) s = .next t ∧ t.lcnt = max s.lcnt a ∧ t.flag F.TIME_SNAP_VALID = true ∧
    t.getN (R.TIME_SNAP + 4) 2 = (a + 4) % 2 ^ 64 ∧
    t.get F.TIME_SNAP_EPOCH = (s.epochAt (a + 4)).num % 2 ^ 16 ∧
    t.get F.TIME_SNAP_NS = (s.netTime (65536 * (a + 4))).ns ∧
    changesOnly (wideFlds R.TIME_SNAP 6) s t ∧ t = { s with regs := t.regs, lcnt := t.lcnt }) ∧
  (∀ (fn : Fin 64) (i : Fin 16) (s : State), fn ≠ 0 →
    exec (.timeHistRead fn i) s = .next (s.emit (.read fn (R.TIME_HIST i) [0])) ∧
    exec (.txqRead fn) s = .next (s.emit (.read fn R.TIME_TXQ [0]))) ∧
  (∀ (fn : Fin 64) (i : Fin 16) (s : State), fn = 0 → ∃ t, exec (.timeHistRead fn i) s = .next t ∧
    t.out = .read fn (R.TIME_HIST i) [s.word (R.TIME_HIST i)] :: s.out ∧
    (∀ k : Fin 7, Tab.get 0 t.latch (latchKey fn (R.TIME_HIST i + 4 * (k + 1))) = s.word (R.TIME_HIST i + 4 * (k + 1))) ∧
    t = { s with latch := t.latch, out := t.out }) ∧
  (∀ (fn : Fin 64) (x : TxStamp) (rest : List TxStamp) (s : State), fn = 0 → s.txq = x :: rest → ∃ t, exec (.txqRead fn) s = .next t ∧
    t.txq = rest ∧ t.out = .read fn R.TIME_TXQ [BitVec.ofNat 32 x.val] :: s.out ∧
    t = { s with txq := t.txq, latch := t.latch, out := t.out }) ∧
  (∀ (fn : Fin 64) (s : State), fn = 0 → s.txq = [] → ∃ t, exec (.txqRead fn) s = .next t ∧
    t.out = .read fn R.TIME_TXQ [0] :: s.out ∧ t = { s with latch := t.latch, out := t.out })

/-- STAGE_PERIOD, STAGE_OFFSET_ADD, STAGE_OFFSET_ABS, STAGED_TIME_APPLY (R270, R285): a staged write is taken when none is
pending, for the first boundary at least 16 cycles later or, with an absolute offset, not before its target; a second one is
ignored and logged; at its boundary it opens the next epoch. -/
def Obligations.StagedTimeAppliesInAnEpoch : Prop :=
  (∀ (a : Nat) (s : State), s.flag F.TIME_STATUS_STAGE_PENDING = false →
    (∃ t, exec (.stagePeriod a) s = .next t ∧ t.stage = some ⟨true, false, false, boundaryAt (a + 16)⟩ ∧
      t.flag F.TIME_STATUS_STAGE_PENDING = true ∧ changesOnly [F.TIME_STATUS_STAGE_PENDING] s t) ∧
    (∃ t, exec (.stageOffsetAdd a) s = .next t ∧ t.stage = some ⟨false, true, false, boundaryAt (a + 16)⟩ ∧
      t.flag F.TIME_STATUS_STAGE_PENDING = true ∧ changesOnly [F.TIME_STATUS_STAGE_PENDING] s t) ∧
    (∃ t, exec (.stageOffsetAbs a) s = .next t ∧
      t.stage = some ⟨false, false, true, boundaryAt (max (a + 16) (s.getN R.TIME_STAGE 10 / 2 ^ 96 % 2 ^ 64))⟩ ∧
      t.flag F.TIME_STATUS_STAGE_PENDING = true ∧ changesOnly [F.TIME_STATUS_STAGE_PENDING] s t)) ∧
  (∀ (a : Nat) (s : State) (c : Instr), c ∈ [Instr.stagePeriod a, .stageOffsetAdd a, .stageOffsetAbs a] →
    s.flag F.TIME_STATUS_STAGE_PENDING = true → ∃ t, exec c s = .next t ∧ t.stage = s.stage ∧
      t.flag F.TIME_STATUS_STAGE_IGN = true ∧ (0x0C04, s.locusHub) ∈ t.log.seen ∧
      changesOnly (F.TIME_STATUS_STAGE_IGN :: logFlds) s t) ∧
  (∀ s : State, s.stage = none → exec .stagedTimeApply s = .next s) ∧
  (∀ (s : State) (st : Staged), s.stage = some st → (s.epochAt st.due).lcnt < st.due → st.abs && st.add = false →
    ∃ t e, exec .stagedTimeApply s = .next t ∧ t.epochs = e :: s.epochs ∧ e.lcnt = st.due ∧
      e.num = ((s.epochAt st.due).num + 1) % 65536 ∧ t.stage = none ∧ t.get F.TIME_STATUS_EPOCH = e.num ∧
      t.flag F.TIME_STATUS_STAGE_PENDING = false ∧
      (0x0C01, s.locusHub) ∈ t.log.seen ∧ (0x0C02, s.locusHub) ∈ t.log.seen ∧ memSame s t)

/-- SERVO_UPDATE, ACCEPT_STEP_WRITE, KEEPER_SECONDS_LOAD (R278-R281): with offsets taken an update publishes their mean and
starts anew; ACCEPT_STEP lets a servo held in HOLDOVER acquire again; in LOCKED the keeper takes the seconds every 1024 s. -/
def Obligations.ServoFollowsItsOffsets : Prop :=
  (∀ (s : State) (b : Nat), b = max (s.tick + tickLen) (boundaryAt (s.servo.last + s.epochMin)) → s.servo.cnt ≠ 0 →
    s.flag F.TIME_CTRL_SERVO_EN = true → (s.get F.TIME_STATUS_SERVO = 1 ∨ s.get F.TIME_STATUS_SERVO = 2) →
    ∃ t, exec .servoUpdate s = .next t ∧
      t.get F.TIME_THETA_THETA = enc 32 (clampI (-2147483648) 2147483647 (roundDiv s.servo.sum s.servo.cnt)) ∧
      t.servo.sum = 0 ∧ t.servo.cnt = 0 ∧ t.servo.last = b ∧ t.lcnt = max s.lcnt b ∧ memSame s t) ∧
  (∀ s : State, s.get F.TIME_STATUS_SERVO = 3 → ∃ t, exec .acceptStepWrite s = .next t ∧ t.flag F.TIME_CTRL_ACCEPT_STEP = true ∧
    t.flag F.TIME_STATUS_JUMP_HOLD = false ∧ t.get F.TIME_STATUS_SERVO = 1 ∧ t.servo.refused = 0 ∧
    changesOnly [F.TIME_CTRL_ACCEPT_STEP, F.TIME_STATUS_JUMP_HOLD, F.TIME_STATUS_SERVO] s t ∧
    t = { s with regs := t.regs, servo := t.servo }) ∧
  (∀ s : State, s.get F.TIME_STATUS_SERVO ≠ 2 ∨ (s.netTime (65536 * s.lcnt)).sec % 1024 ≠ 0 →
    exec .keeperSecondsLoad s = .next s) ∧
  (∀ s : State, s.get F.TIME_STATUS_SERVO = 2 → (s.netTime (65536 * s.lcnt)).sec % 1024 = 0 →
    ∃ t, exec .keeperSecondsLoad s = .next t ∧
      t.getN R.GLOBAL_KEEP_SEC 2 = (s.netTime (65536 * s.lcnt)).sec % 2 ^ 48 ∧
      changesOnly (wideFlds R.GLOBAL_KEEP_SEC 2) s t ∧ t = { s with regs := t.regs })

/-! ### The front-end service (R330-R344) -/

/-- SVC_FRAME_APPLY, SVC_SAFE_ENTRY, SVC_FENCE (R330-R332): a good frame's outputs apply 40 cycles after it was sent, 80 after a
repeat, and end the safe state; after 1 ms without a frame the safe state holds the offsets and drives currents and relays as SAFE_EXC
and SAFE_RLY say (a driver off for over-current stays off); a link that stays away for 1 s more fences the service die; a fenced die
takes no frame. -/
def Obligations.ServiceLinkAndSafeState : Prop :=
  (∀ (repeated : Bool) (s : State), s.svc.frame = none ∨ s.flag F.SVC_STATUS_FENCED = true →
    exec (.svcFrameApply repeated) s = .next s) ∧
  (∀ (repeated : Bool) (f : SvcFrame) (s : State), s.svc.frame = some f → s.flag F.SVC_STATUS_FENCED = false →
    ∃ t, exec (.svcFrameApply repeated) s = .next t ∧ t.svc.frame = none ∧
      t.svc.goodAt = f.t0 + (if repeated then 80 else 40) ∧ t.svc.powered = true ∧
      t.flag F.SVC_STATUS_LINK_OK = true ∧ t.flag F.SVC_STATUS_SAFE = false ∧ memSame s t ∧
      t.lcnt = max s.lcnt t.svc.goodAt ∧ t.get F.SVC_LINK_ERR_CNT_COUNT =
        (if repeated then min (s.get F.SVC_LINK_ERR_CNT_COUNT + 1) (2 ^ 32 - 1) else s.get F.SVC_LINK_ERR_CNT_COUNT) ∧
      (f.full = false → s.flag F.SVC_STATUS_SAFE = false → ∀ n : Fin 48,
        (Tab.get 0 t.svc.outs n = if bitOf f.ofs n then (s.ofsCode n).1 else Tab.get 0 s.svc.outs n) ∧
        (Tab.get 0 t.svc.outs (48 + n) = if bitOf f.exc n then s.excCode n else Tab.get 0 s.svc.outs (48 + n)) ∧
        (bitOf f.ofs n = true → Tab.get 0 t.svc.strobe n = t.svc.goodAt))) ∧
  (∀ s : State, s.flag F.SVC_STATUS_SAFE = true → exec .svcSafeEntry s = .next s) ∧
  (∀ s : State, s.flag F.SVC_STATUS_SAFE = false → ∃ t, exec .svcSafeEntry s = .next t ∧ t.flag F.SVC_STATUS_SAFE = true ∧ t.flag F.SVC_STATUS_LINK_OK = false ∧
    t.get F.SVC_LINK_ERR_CNT_COUNT = min (s.get F.SVC_LINK_ERR_CNT_COUNT + 1) (2 ^ 32 - 1) ∧ t.svc.safeAt = t.lcnt ∧
    t.lcnt = (if s.pwr.coreLoss then s.lcnt else max s.lcnt (s.svc.goodAt + s.cyclesOf 1 1000)) ∧
    t.svc.relays = (if s.svc.safeRly then
      maskOf ((bitsSet 32 s.svc.rlySafe).filter (fun r => !bitOf (s.getN R.SVC_RLY_OC 1) r)) else s.svc.relays) ∧
    (∀ n : Fin 48, Tab.get 0 t.svc.outs n = Tab.get 0 s.svc.outs n) ∧
    (∀ n : Fin 48, Tab.get 0 t.svc.outs (48 + n) = if s.svc.safeExc then 0 else Tab.get 0 s.svc.outs (48 + n)) ∧
    changesOnly [F.SVC_STATUS_SAFE, F.SVC_STATUS_LINK_OK, F.SVC_LINK_ERR_CNT_COUNT] s t) ∧
  (∀ s : State, s.flag F.SVC_STATUS_SAFE = true → s.flag F.SVC_STATUS_FENCED = false → ∃ t, exec .svcFence s = .next t ∧ t.flag F.SVC_STATUS_FENCED = true ∧
    t.flag F.GLOBAL_STATE_DEGRADED = true ∧ (0x0104, s.locusSvc) ∈ t.log.seen ∧
    changesOnly ([F.SVC_STATUS_FENCED, F.GLOBAL_STATE_DEGRADED] ++ logFlds) s t) ∧
  (∀ s : State, s.flag F.SVC_STATUS_SAFE = false ∨ s.flag F.SVC_STATUS_FENCED = true → exec .svcFence s = .next s)

/-- EXC_COMPLIANCE, EXC_COMPLIANCE_CLEAR, EXC_OPEN_LOAD, EXC_SHORT, EXC_RETRY (R336, R338, R339): an enabled source sets its
status bits; an open or shorted one with FOLD_EN folds back to code 5461 at most, and a retry returns it to its code; a disabled
source has no detectors. -/
def Obligations.ExcitationFaultsFoldAndRetry : Prop :=
  (∀ (n : Fin 48) (s : State), bitOf s.svc.enabled n = true → ∃ t, exec (.excCompliance n) s = .next t ∧
    t.flag (F.SVC_OUT_STATUS_COMPLIANCE n) = true ∧ t.flag (F.SVC_OUT_STATUS_COMPL_SEEN n) = true ∧
    changesOnly ([F.SVC_OUT_STATUS_COMPLIANCE n, F.SVC_OUT_STATUS_COMPL_SEEN n] ++ logFlds) s t) ∧
  (∀ (n : Fin 48) (s : State), ∃ t, exec (.excComplianceClear n) s = .next t ∧ t.flag (F.SVC_OUT_STATUS_COMPLIANCE n) = false ∧
    changesOnly [F.SVC_OUT_STATUS_COMPLIANCE n] s t ∧
    t = { s with regs := t.regs, svc := { s.svc with logged := clrBit s.svc.logged n } }) ∧
  (∀ (n : Fin 48) (s : State), bitOf s.svc.enabled n = true → s.flag (F.SVC_EXC_CTRL_FOLD_EN n) = true →
    ∃ t, exec (.excOpenLoad n) s = .next t ∧ t.flag (F.SVC_OUT_STATUS_OPEN n) = true ∧
      t.flag (F.SVC_OUT_STATUS_COMPLIANCE n) = true ∧ t.flag (F.SVC_OUT_STATUS_FOLDED n) = true ∧
      Tab.get 0 t.svc.outs (48 + n) = min (Tab.get 0 s.svc.outs (48 + n)) 5461 ∧
      changesOnly ([F.SVC_OUT_STATUS_OPEN n, F.SVC_OUT_STATUS_COMPLIANCE n, F.SVC_OUT_STATUS_COMPL_SEEN n,
        F.SVC_OUT_STATUS_FOLDED n] ++ logFlds) s t) ∧
  (∀ (n : Fin 48) (s : State), bitOf s.svc.enabled n = true → s.flag (F.SVC_EXC_CTRL_SHORT_EN n) = true →
    2731 ≤ s.get (F.SVC_EXC_CTRL_CODE n) → s.flag (F.SVC_EXC_CTRL_FOLD_EN n) = true →
    ∃ t, exec (.excShort n) s = .next t ∧ t.flag (F.SVC_OUT_STATUS_SHORT n) = true ∧
      t.flag (F.SVC_OUT_STATUS_FOLDED n) = true ∧
      Tab.get 0 t.svc.outs (48 + n) = min (Tab.get 0 s.svc.outs (48 + n)) 5461 ∧
      changesOnly ([F.SVC_OUT_STATUS_SHORT n, F.SVC_OUT_STATUS_FOLDED n] ++ logFlds) s t) ∧
  (∀ (n : Fin 48) (s : State), s.flag (F.SVC_OUT_STATUS_FOLDED n) = true → ∃ t, exec (.excRetry n) s = .next t ∧
    t.flag (F.SVC_OUT_STATUS_FOLDED n) = false ∧ t.flag (F.SVC_OUT_STATUS_SHORT n) = false ∧
    t.flag (F.SVC_OUT_STATUS_OPEN n) = false ∧ t.flag (F.SVC_OUT_STATUS_COMPLIANCE n) = false ∧
    Tab.get 0 t.svc.outs (48 + n) = s.excCode n ∧
    changesOnly [F.SVC_OUT_STATUS_FOLDED n, F.SVC_OUT_STATUS_SHORT n, F.SVC_OUT_STATUS_OPEN n,
      F.SVC_OUT_STATUS_COMPLIANCE n] s t ∧ t = { s with regs := t.regs, svc := t.svc }) ∧
  (∀ (n : Fin 48) (s : State) (c : Instr), c ∈ [Instr.excCompliance n, .excOpenLoad n, .excShort n] →
    bitOf s.svc.enabled n = false → exec c s = .next s) ∧
  (∀ (n : Fin 48) (s : State), s.flag (F.SVC_OUT_STATUS_FOLDED n) = false → exec (.excRetry n) s = .next s)

/-- EXC_TRIP, EXC_RESTORE, RELAY_OVERCURRENT, RELAY_OPEN_LOAD, RLY_OC_CLEAR (R340, R341): a trip of the excitation supply
disables every source until it is restored; a driver's over-current switches its relay off and stands in SVC_RLY_OC until it is
cleared; an open load is reported for a relay that is off. -/
def Obligations.SupplyTripAndRelays : Prop :=
  (∀ s : State, ∃ t, exec .excTrip s = .next t ∧ t.flag F.SVC_STATUS_EXC_TRIP = true ∧ t.svc.enabled = 0 ∧
    (0x0E06, s.locus 9 15 255 253) ∈ t.log.seen ∧ changesOnly (F.SVC_STATUS_EXC_TRIP :: logFlds) s t) ∧
  (∀ s : State, s.flag F.SVC_STATUS_EXC_TRIP = true → ∃ t, exec .excRestore s = .next t ∧
    t.flag F.SVC_STATUS_EXC_TRIP = false ∧ t.svc.enabled = t.excEnabled ∧ changesOnly [F.SVC_STATUS_EXC_TRIP] s t ∧
    t = { s with regs := t.regs, svc := t.svc }) ∧
  (∀ (r : Fin 32) (s : State), bitOf s.svc.relays r = true → ∃ t, exec (.relayOvercurrent r) s = .next t ∧
    t.getN R.SVC_RLY_OC 1 = setBit (s.getN R.SVC_RLY_OC 1) r % 2 ^ 32 ∧ t.svc.relays = clrBit s.svc.relays r ∧
    changesOnly (F.SVC_RLY_OC_OC :: logFlds) s t) ∧
  (∀ (r : Fin 32) (s : State), bitOf s.svc.relays r = true ∨ bitOf (s.getN R.SVC_RLY_OPEN 1) r = true →
    exec (.relayOpenLoad r) s = .next s) ∧
  (∀ (r : Fin 32) (s : State), bitOf s.svc.relays r = false → exec (.relayOvercurrent r) s = .next s) ∧
  (∀ s : State, s.flag F.SVC_STATUS_EXC_TRIP = false → exec .excRestore s = .next s) ∧
  (∀ (r : Fin 32) (s : State), bitOf s.svc.relays r = false → bitOf (s.getN R.SVC_RLY_OPEN 1) r = false → ∃ t,
    exec (.relayOpenLoad r) s = .next t ∧
    t.getN R.SVC_RLY_OPEN 1 = setBit (s.getN R.SVC_RLY_OPEN 1) r % 2 ^ 32 ∧ t.svc = s.svc ∧
    changesOnly (F.SVC_RLY_OPEN_OPEN :: logFlds) s t) ∧
  (∀ (v : BitVec 32) (s : State), ∃ t, exec (.rlyOcClear v) s = .next t ∧
    t.getN R.SVC_RLY_OC 1 = ((bitsSet 32 v.toNat).filter (fun r => bitOf (s.getN R.SVC_RLY_OC 1) r)).foldl clrBit
      (s.getN R.SVC_RLY_OC 1) % 2 ^ 32 ∧
    changesOnly [F.SVC_RLY_OC_OC] s t ∧ t = { s with regs := t.regs, svc := t.svc })

/-- MONITOR_CONVERSION (R342, R343): the reading of offset output n is corrected and published unless a strobe came within its 0.5 ms,
and the cycle goes on to the next point; the last point closes the cycle, which is counted with the core cycle of its start; a held
monitor publishes nothing. -/
def Obligations.MonitorPublishesItsPoints : Prop :=
  (∀ (reading : Int) (start : Nat) (s : State), s.flag F.SVC_STATUS_MON_HELD = true →
    exec (.monitorConversion reading start) s = .next s) ∧
  (∀ (reading : Int) (start : Nat) (n : Fin 48) (s : State), s.flag F.SVC_STATUS_MON_HELD = false → s.svc.point = n →
    ∃ t, exec (.monitorConversion reading start) s = .next t ∧
      (Tab.get 0 s.svc.strobe n < start ∨ start + s.cyclesOf 1 2000 ≤ Tab.get 0 s.svc.strobe n →
        t.get (F.SVC_MON_OFS_UV n) = enc 32 (roundDiv (reading * s.svc.monGain) 1073741824 + s.svc.monOff)) ∧
      (start ≤ Tab.get 0 s.svc.strobe n → 0 < Tab.get 0 s.svc.strobe n →
        Tab.get 0 s.svc.strobe n < start + s.cyclesOf 1 2000 → t.regs = s.regs) ∧
      t.svc.point = n + 1 ∧ t.svc.outs = s.svc.outs ∧ memSame s t) ∧
  (∀ (reading : Int) (start : Nat) (s : State), s.flag F.SVC_STATUS_MON_HELD = false →
    s.svc.point + 1 = s.monPoints.length → ∃ t, exec (.monitorConversion reading start) s = .next t ∧
      t.get (F.SVC_MON_DIE_VALUE 5) = enc 32 (roundDiv (reading * s.svc.monGain) 1073741824 + s.svc.monOff) ∧
      t.get F.SVC_MON_CYCLE_COUNT = (s.get F.SVC_MON_CYCLE_COUNT + 1) % 2 ^ F.SVC_MON_CYCLE_COUNT.width ∧
      t.getN R.SVC_MON_LCNT 2 = s.svc.cycleStart % 2 ^ 64 ∧ t.svc.point = 0 ∧ memSame s t)

/-! ### Calibration (R309-R327) -/

/-- CAL_START, CAL_ABORT, CAL_RUN_START, CAL_RELEASE, CAL_SETTLE_END (R315, R317-R319, R321, Table 14.5): a request waits as one entry a
die or is turned away with its ERR code; a die that may start at a boundary holds its channels from there; its results take effect
at b0 + 2048·T, and a converter die lets its channels go 64 core cycles later. -/
def Obligations.CalibrationRunsStartAndRelease : Prop :=
  (∀ s : State, (∃ r ∈ s.cal.runs, r.ended = false) → exec .calStart s = .next (s.put F.CAL_STATUS_ERR 1)) ∧
  (∀ s : State, (∀ r ∈ s.cal.runs, r.ended = true) →
    (s.flag F.CLK_STATUS_FABRIC_BYP = true → exec .calStart s = .next (s.put F.CAL_STATUS_ERR 2)) ∧
    (s.flag F.CLK_STATUS_FABRIC_BYP = false → ∃ t, exec .calStart s = .next t ∧ t.cal.abort = none ∧ t.cal.results = false ∧
      t.cal.runs.take s.cal.runs.length = s.cal.runs ∧
      (∀ r ∈ t.cal.runs.drop s.cal.runs.length, r.reqAt = s.lcnt ∧ r.start = none ∧ r.settling = false ∧ r.ended = false) ∧
      (t.cal.runs ≠ s.cal.runs → t.flag F.CAL_STATUS_WAITING = true) ∧
      (s.getN R.CAL_FG_CH 2 % 2 ^ 48 = 0 → s.get F.CAL_FG_PROC_PROC < 32 →
        t.cal.runs = s.cal.runs ∧ t.get F.CAL_STATUS_ERR = 7) ∧
      (s.getN R.CAL_FG_CH 2 % 2 ^ 48 = 0 → s.get F.CAL_FG_PROC_PROC = 32 →
        t.cal.runs = s.cal.runs ++ [⟨6, 255, 32, s.lcnt, none, false, false⟩] ∧ t.get F.CAL_STATUS_ERR = 0) ∧
      memSame s t ∧ t = { s with regs := t.regs, cal := t.cal })) ∧
  (∀ s : State,
    ((∃ r ∈ s.cal.runs, r.settling = false ∧ r.ended = false) →
      exec .calAbort s = .next { s with cal := { s.cal with abort := some (s.cal.abort.getD (6, none)) } }) ∧
    ((∀ r ∈ s.cal.runs, r.settling = true ∨ r.ended = true) → exec .calAbort s = .next s)) ∧
  (∀ (die : Fin 10) (s : State) (r : CalRun) (b : Nat),
    s.cal.runs.find? (fun x => x.die == die.val && x.start.isNone) = some r → b = boundaryAt (max s.lcnt r.reqAt) →
    (s.canStart r b = false → exec (.calRunStart die) s = .next s) ∧
    (s.canStart r b = true → ∃ t, exec (.calRunStart die) s = .next t ∧ t.lcnt = max s.lcnt b ∧
      (∃ x ∈ t.cal.runs, x.die = r.die ∧ x.reqAt = r.reqAt ∧ x.start = some (b, b + 2048 * r.ticks)) ∧
      (r.die < 6 → r.mask ≠ 0 → t.flag F.CAL_STATUS_BUSY = true) ∧
      (r.die = 9 → r.settling = false → r.ended = false → t.flag F.CAL_STATUS_BUSY = true ∧ t.flag F.SVC_STATUS_MON_HELD = true) ∧
      memSame s t ∧ t = { s with
        out := t.out, free := t.free, lcnt := t.lcnt, regs := t.regs, grps := t.grps, stageFill := t.stageFill,
        fillData := t.fillData, msix := t.msix, cal := t.cal, twin := t.twin, log := t.log })) ∧
  (∀ (die : Fin 10) (s : State), (∀ x ∈ s.cal.runs, x.die = die.val → x.start.isSome = true) →
    exec (.calRunStart die) s = .next s) ∧
  (∀ (die : Fin 10) (res : DieResult) (s : State) (r : CalRun) (b0 br : Nat),
    s.cal.runs.find? (fun x => x.die == die.val && x.holding) = some r → r.start = some (b0, br) →
    (s.cal.abort ≠ none → exec (.calRelease die res) s = .next s) ∧
    (s.cal.abort = none → r.mask < 2 ^ 48 → (∀ c ∈ res.chans, ∀ i ∈ c.badInt, i < 16) → ∃ t, exec (.calRelease die res) s = .next t ∧ t.lcnt = max s.lcnt br ∧
      t.getN R.CAL_RUN_LCNT 2 = br % 2 ^ 64 ∧
      (∃ x ∈ t.cal.runs, x.die = r.die ∧ x.start = r.start ∧ x.settling = decide (r.die < 6) ∧ x.ended = decide (6 ≤ r.die)) ∧
      (r.die = 9 → t.srcOf 7 = 2 ∧ t.svc.monOff = res.monOff) ∧
      (r.die < 6 → (∃ c ∈ res.chans, bitOf r.mask c.n = true ∧ chRejected c r.proc = false) → r.proc ≠ 0 → res.suspect = false →
        s.get F.CAL_STATUS_ERR ≠ 4 → t.srcOf r.die = 2) ∧
      ((∀ c ∈ res.chans, c.badPos = []) → storeSame s t) ∧
      flashSame s t ∧ t = { s with
        out := t.out, lcnt := t.lcnt, regs := t.regs, chans := t.chans, acs := t.acs, intSwaps := t.intSwaps, grps := t.grps,
        store := t.store, stageFill := t.stageFill, sto := t.sto, msix := t.msix, cal := t.cal, svc := t.svc, twin := t.twin,
        log := t.log })) ∧
  (∀ (die : Fin 10) (res : DieResult) (s : State), (∀ x ∈ s.cal.runs, x.die = die.val → x.holding = false) →
    exec (.calRelease die res) s = .next s) ∧
  (∀ (die : Fin 10) (s : State) (r : CalRun) (b0 br : Nat),
    s.cal.runs.find? (fun x => x.die == die.val && x.settling) = some r → r.start = some (b0, br) →
    ∃ t, exec (.calSettleEnd die) s = .next t ∧ t.lcnt = max s.lcnt (br + 64) ∧
      (∃ x ∈ t.cal.runs, x.die = r.die ∧ x.start = r.start ∧ x.settling = false ∧ x.ended = true) ∧ memSame s t ∧
      t = { s with lcnt := t.lcnt, regs := t.regs, dcs := t.dcs, grps := t.grps, stageFill := t.stageFill, cal := t.cal }) ∧
  (∀ (die : Fin 10) (s : State), (∀ x ∈ s.cal.runs, x.die = die.val → x.settling = false) →
    exec (.calSettleEnd die) s = .next s)

/-- CAL_SAVE_DONE, DRIFT_ADVISORY_SET, DRIFT_ADVISORY_CLEAR, DRIFT_RUN_REQUEST, CAL_SCHED_PERIOD (R323, R325, R326): a save that has
succeeded stands in its slot with its sequence and one that failed is marked; a die's advisory is set and logged beyond DRIFT_DT and
clears two degrees below it; an advisory that lasts and the period request runs. What a failed save leaves in its slot is open. -/
def Obligations.CalibrationSavesAndDrifts : Prop :=
  (∀ (s : State) (slot seq : Nat) (bytes : List (BitVec 8)), s.cal.saving = some (slot, seq, bytes) → s.cal.saveDue = false →
    Mem.wf 0xFF s.flash = true →
    (∃ t, exec (.calSaveDone true) s = .next t ∧ t.flag F.CAL_STATUS_SAVING = false ∧ t.get F.CAL_SEQ_SEQ = seq % 2 ^ 32 ∧
      t.cal.saving = none ∧ t.flash = Mem.writeBytes 0xFF s.flash (copyBase slot) bytes ∧
      (∀ a, (a < copyBase slot ∨ copyBase slot + bytes.length ≤ a) → Mem.read 0xFF t.flash a = Mem.read 0xFF s.flash a) ∧
      onlyFields [F.CAL_STATUS_SAVING, F.CAL_SEQ_SEQ] s t ∧ storeSame s t ∧
      t = { s with regs := t.regs, flash := t.flash, cal := t.cal }) ∧
    (∃ t, exec (.calSaveDone false) s = .next t ∧ t.flag F.CAL_STATUS_SAVING = false ∧ t.flag F.CAL_STATUS_SAVE_FAIL = true ∧
      t.cal.saving = none ∧
      (∀ a, (a < copyBase slot ∨ copyBase slot + 148480 ≤ a) → Mem.read 0xFF t.flash a = Mem.read 0xFF s.flash a) ∧
      onlyFields [F.CAL_STATUS_SAVING, F.CAL_STATUS_SAVE_FAIL] s t ∧ storeSame s t ∧
      t = { s with free := t.free, regs := t.regs, flash := t.flash, cal := t.cal })) ∧
  (∀ (ok : Bool) (s : State), s.cal.saving = none → exec (.calSaveDone ok) s = .next s) ∧
  (∀ (k : Fin 6) (temp : Int) (s : State),
    (s.driftDt < s.driftOf k temp → bitOf (s.get F.CAL_DRIFT_STATUS_DRIFT) k = false → ∃ t,
      exec (.driftAdvisorySet k temp) s = .next t ∧ bitOf (t.get F.CAL_DRIFT_STATUS_DRIFT) k = true ∧
      t.get (F.CAL_TEMP_REF_NOW k) = enc 8 (tempCode temp) ∧ t.cal.since = Tab.set s.cal.since k.val s.lcnt ∧
      (0x0D04, s.locus k 15 255 255) ∈ t.log.seen ∧
      changesOnly (F.CAL_DRIFT_STATUS_DRIFT :: F.CAL_TEMP_REF_NOW k :: logFlds) s t ∧
      t = { s with out := t.out, regs := t.regs, cal := t.cal, msix := t.msix, twin := t.twin, log := t.log }) ∧
    (s.driftOf k temp ≤ s.driftDt ∨ bitOf (s.get F.CAL_DRIFT_STATUS_DRIFT) k = true →
      exec (.driftAdvisorySet k temp) s = .next (s.tempNow k s.lcnt temp)) ∧
    (s.driftOf k temp ≤ s.driftDt - 2 → ∃ t, exec (.driftAdvisoryClear k temp) s = .next t ∧
      bitOf (t.get F.CAL_DRIFT_STATUS_DRIFT) k = false ∧ t.get (F.CAL_TEMP_REF_NOW k) = enc 8 (tempCode temp) ∧
      (∀ p ∈ t.cal.since, p.1 ≠ k.val) ∧
      changesOnly [F.CAL_DRIFT_STATUS_DRIFT, F.CAL_TEMP_REF_NOW k] s t ∧ t = { s with regs := t.regs, cal := t.cal }) ∧
    (s.driftDt - 2 < s.driftOf k temp →
      exec (.driftAdvisoryClear k temp) s = .next (s.tempNow k s.lcnt temp))) ∧
  (∀ (k : Fin 6) (s : State) (a : Nat), s.cal.since.find? (fun p => p.1 == k.val) = some (k.val, a) →
    bitOf (s.get F.CAL_DRIFT_STATUS_DRIFT) k = true →
    (s.flag F.GLOBAL_STATE_HOST_POLICY = true → s.flag F.CAL_SCHED_AUTO_DRIFT = false → exec (.driftRunRequest k) s = .next s) ∧
    (s.flag F.GLOBAL_STATE_HOST_POLICY = false ∨ s.flag F.CAL_SCHED_AUTO_DRIFT = true → ∃ t,
      exec (.driftRunRequest k) s = .next t ∧ t.lcnt = max s.lcnt (boundaryAt (a + 2 ^ 24 * 2048)) ∧
      ((∃ r ∈ s.cal.runs, r.ended = false) → t.cal = s.cal ∧ t.get F.CAL_STATUS_ERR = 1) ∧
      ((∀ r ∈ s.cal.runs, r.ended = true) → s.flag F.CLK_STATUS_FABRIC_BYP = true → t.cal = s.cal ∧ t.get F.CAL_STATUS_ERR = 2) ∧
      (t.cal.runs ≠ s.cal.runs → ∀ p ∈ t.cal.since, p.1 ≠ k.val) ∧
      (∀ r ∈ t.cal.runs.drop s.cal.runs.length, r.die < 6 ∧ r.start = none ∧
        r.reqAt = max s.lcnt (boundaryAt (a + 2 ^ 24 * 2048))) ∧
      memSame s t ∧ t = { s with lcnt := t.lcnt, regs := t.regs, cal := t.cal })) ∧
  (∀ (k : Fin 6) (s : State), (∀ p ∈ s.cal.since, p.1 ≠ k.val) ∨ bitOf (s.get F.CAL_DRIFT_STATUS_DRIFT) k = false →
    exec (.driftRunRequest k) s = .next s) ∧
  (∀ s : State,
    (s.flag F.GLOBAL_STATE_HOST_POLICY = false ∨ s.get F.CAL_SCHED_PERIOD = 0 → exec .calSchedPeriod s = .next s) ∧
    (∀ b, s.flag F.GLOBAL_STATE_HOST_POLICY = true → s.get F.CAL_SCHED_PERIOD ≠ 0 →
      b = boundaryAt (max s.lcnt (s.cal.schedAt + 2048 * s.get F.CAL_SCHED_PERIOD)) → ∃ t,
      exec .calSchedPeriod s = .next t ∧ t.lcnt = max s.lcnt b ∧ t.cal.schedAt = b ∧
      ((∃ r ∈ s.cal.runs, r.ended = false) → t.cal = { s.cal with schedAt := b } ∧ t.get F.CAL_STATUS_ERR = 1) ∧
      (∀ r ∈ t.cal.runs.drop s.cal.runs.length, r.die < 6 ∧ r.start = none ∧ r.reqAt = b) ∧
      memSame s t ∧ t = { s with lcnt := t.lcnt, regs := t.regs, cal := t.cal }))

/-! ### Power and resets (R365-R379) -/

/-- POWER_ON, STORE_RAIL_LOSS, RESET_N_ASSERT, RESET_COLD_CMD, RESET_WARM_CMD, WARM_RESET, CORE_LOSS, CORE_LOSS_RESTART, GROUP_RESET,
GROUP_RESET_APPLY, WAKE_ALARM, WAKE_RELEASE (R125, R367-R374): a cold reset restarts LCNT and keeps the keeper and the flash; a warm
reset keeps LCNT, the epochs and the store; the keeper holds the last two causes and the reset is logged; after a core loss LCNT
resumes at its save + 2^32; a group reset waits for its boundary and returns the group's trigger registers to reset values. While VDD_CORE
is absent a warm reset finds nothing to hold. -/
def Obligations.ResetsKeepAndClear : Prop :=
  (∀ (us : Nat) (s : State), 10000 ≤ us →
    ∀ p ∈ [(Instr.storeRailLoss, 8), (.resetNAssert us, 3), (.resetColdCmd 0xA5, 5), (.powerOn true, 2)], ∃ t,
      exec p.1 s = .next t ∧ t.get F.GLOBAL_RESET_CAUSE_CAUSE = p.2 ∧
      t.get F.GLOBAL_RESET_CAUSE_PREV = s.get F.GLOBAL_RESET_CAUSE_CAUSE ∧ t.lcnt = 0 ∧ t.get F.GLOBAL_STATE_PHASE = 0 ∧
      t.shadow = [] ∧ t.commit = none ∧ t.grps = [] ∧ t.flash = s.flash ∧ (0x0101, t.locusPkg) ∈ t.log.seen ∧
      t.pending = s.pending) ∧
  (∀ s : State,
    (∃ t, exec (.powerOn true) s = .next t ∧
      t.get F.GLOBAL_PWR_CYCLES_COUNT = min (s.get F.GLOBAL_PWR_CYCLES_COUNT + 1) (2 ^ 32 - 1)) ∧
    (∃ t, exec (.powerOn false) s = .next t ∧ t.get F.GLOBAL_RESET_CAUSE_CAUSE = 1 ∧ t.get F.GLOBAL_RESET_CAUSE_PREV = 0 ∧
      t.flag F.GLOBAL_RESET_CAUSE_KEEP_LOST = true ∧ t.get F.GLOBAL_PWR_CYCLES_COUNT = 1 ∧ t.lcnt = 0 ∧ t.flash = s.flash ∧
      (0x0101, t.locusPkg) ∈ t.log.seen ∧ (0x0109, t.locusPkg) ∈ t.log.seen ∧ t.pending = s.pending)) ∧
  (∀ (us : Nat) (s : State), 1 ≤ us → us < 10000 → s.pwr.coreLoss = true →
    ∀ c ∈ [Instr.resetNAssert us, .resetWarmCmd 0xA5, .warmReset 4, .warmReset 6, .warmReset 9, .warmReset 10],
      exec c s = .next s) ∧
  (∀ (us : Nat) (s : State), 1 ≤ us → us < 10000 → s.pwr.coreLoss = false →
    ∀ p ∈ [(Instr.resetNAssert us, 4), (.resetWarmCmd 0xA5, 6), (.warmReset 4, 4), (.warmReset 6, 6), (.warmReset 9, 9),
      (.warmReset 10, 10)], ∃ t,
      exec p.1 s = .next t ∧ t.get F.GLOBAL_RESET_CAUSE_CAUSE = p.2 ∧ t.get F.GLOBAL_STATE_PHASE = 0 ∧ t.shadow = [] ∧
      t.commit = none ∧ t.cfgReady = false ∧ (∀ g, (t.grp g).armed = false) ∧ t.stageFill = [] ∧ t.stageDrain = [] ∧
      t.flash = s.flash ∧ t.epochs = s.epochs ∧ t.flag F.STO_STATUS_SELF_REFRESH = true ∧ t.get F.TIME_STATUS_SERVO = 3 ∧
      t.pending = s.pending ∧
      ((∀ g < 16, (s.grp g).armed = false ∧ (s.grp g).closing = []) → t.lcnt = s.lcnt ∧
        t.get F.GLOBAL_RESET_CAUSE_PREV = s.get F.GLOBAL_RESET_CAUSE_CAUSE ∧ (0x0101, s.locusPkg) ∈ t.log.seen ∧
        (s.stageFill = [] → s.stageDrain = [] → t.store = s.store))) ∧
  (∀ (key cause : BitVec 8) (s : State),
    (key ≠ 0xA5 → exec (.resetColdCmd key) s = .next s ∧ exec (.resetWarmCmd key) s = .next s) ∧
    exec (.resetNAssert 0) s = .next s ∧
    (cause ≠ 4 → cause ≠ 6 → cause ≠ 7 → cause ≠ 9 → cause ≠ 10 → exec (.warmReset cause) s = .next s)) ∧
  (∀ s : State, ∀ c ∈ [Instr.coreLoss, .warmReset 7], ∃ t, exec c s = .next t ∧ t.get F.GLOBAL_RESET_CAUSE_CAUSE = 7 ∧
    t.get F.GLOBAL_RESET_CAUSE_PREV = s.get F.GLOBAL_RESET_CAUSE_CAUSE ∧ t.get F.GLOBAL_STATE_PHASE = 0 ∧
    t.pwr = { s.pwr with coreLoss := true } ∧ t.stageFill = [] ∧ t.stageDrain = [] ∧ t.commit = none ∧ t.armPlan = none ∧
    t.cfgReady = false ∧ (∀ g, (t.grp g).armed = false) ∧ t.keeper = s.keeper ∧
    changesOnly [F.GLOBAL_RESET_CAUSE_CAUSE, F.GLOBAL_RESET_CAUSE_PREV, F.GLOBAL_STATE_PHASE] s t) ∧
  (∀ s : State,
    (s.pwr.coreLoss = false ∨ s.pwr.pwrOk = false → exec .coreLossRestart s = .next s) ∧
    (s.pwr.coreLoss = true → s.pwr.pwrOk = true → ∃ t, exec .coreLossRestart s = .next t ∧ t.lcnt = s.keeper.lcntSave + 2 ^ 32 ∧
      t.getN R.GLOBAL_RESUME_LCNT 2 = (s.keeper.lcntSave + 2 ^ 32) % 2 ^ 64 ∧ t.pwr.coreLoss = false ∧
      (∀ g, (t.grp g).armed = false) ∧ (0x010A, t.locusPkg) ∈ t.log.seen ∧ (0x0101, t.locusPkg) ∈ t.log.seen ∧
      t.get F.GLOBAL_STATE_PHASE = 0 ∧ memSame s t ∧ t.pending = s.pending)) ∧
  (∀ (mask : BitVec 16) (s : State), exec (.groupReset mask) s =
    .next { s with pwr := { s.pwr with grpReset := Nat.lor s.pwr.grpReset mask.toNat } }) ∧
  (∀ (g : Fin 16) (s : State),
    (bitOf s.pwr.grpReset g = false → exec (.groupResetApply g) s = .next s) ∧
    (bitOf s.pwr.grpReset g = true → ∃ t, exec (.groupResetApply g) s = .next t ∧ bitOf t.pwr.grpReset g = false ∧
      (t.grp g).armed = false ∧ (t.grp g).armReq = none ∧ (t.grp g).stopReq = none ∧
      (∀ off, R.TRG_GRP_CH g ≤ off → off < R.TRG_GRP_CH g + 0x100 → off ≠ R.TRG_GRP_STATUS g →
        t.word off = resetWord off) ∧ t.get (F.TRG_GRP_STATUS_STATE g) = 0 ∧
      t.flag (F.TRG_GRP_STATUS_FORCE_LOST g) = false ∧ t.flag (F.TRG_GRP_STATUS_COARSE_SEEN g) = false ∧
      (∀ j ∈ t.abaQ, j.grp ≠ g.val) ∧ flashSame s t ∧ t.pending = s.pending)) ∧
  (∀ s : State,
    (s.flag F.GLOBAL_WAKE_CTRL_EN = true → s.flag F.GLOBAL_WAKE_CTRL_ASSERTED = false → ∃ t, exec .wakeAlarm s = .next t ∧
      t.flag F.GLOBAL_WAKE_CTRL_ASSERTED = true ∧ t.out = .pin 1 false :: s.out ∧
      t.getN R.GLOBAL_KEEP_SEC 2 = s.getN R.GLOBAL_WAKE_SEC 2 ∧
      changesOnly (F.GLOBAL_WAKE_CTRL_ASSERTED :: wideFlds R.GLOBAL_KEEP_SEC 2) s t ∧ t = { s with out := t.out, regs := t.regs }) ∧
    (s.flag F.GLOBAL_WAKE_CTRL_EN = false ∨ s.flag F.GLOBAL_WAKE_CTRL_ASSERTED = true → exec .wakeAlarm s = .next s) ∧
    (s.get F.GLOBAL_STATE_PHASE = 2 ∨ s.flag F.GLOBAL_WAKE_CTRL_EN = false → s.flag F.GLOBAL_WAKE_CTRL_ASSERTED = true → ∃ t,
      exec .wakeRelease s = .next t ∧ t.flag F.GLOBAL_WAKE_CTRL_ASSERTED = false ∧ t.out = .pin 1 true :: s.out ∧
      changesOnly [F.GLOBAL_WAKE_CTRL_ASSERTED] s t ∧ t = { s with out := t.out, regs := t.regs }) ∧
    ((s.get F.GLOBAL_STATE_PHASE ≠ 2 ∧ s.flag F.GLOBAL_WAKE_CTRL_EN = true) ∨ s.flag F.GLOBAL_WAKE_CTRL_ASSERTED = false →
      exec .wakeRelease s = .next s))

/-- SUPPLY_WARNING_START, SUPPLY_WARNING_END, SUPPLY_STATE_CHECK, SUPPLY_FAULT, THERMAL_WARNING, THERMAL_RESET, THERMAL_RELEASE,
SELF_TEST, SELF_TEST_DONE (R352, R376-R379, Table 17.6): a supply episode is counted, shown and logged, and a long one is followed by
a check of the state (the locus of a bad channel is the model's choice, log entry 79); a thermal limit resets and holds the device until
it has cooled; self-test ends with the store ready, with the parts that failed fenced, marked or replaced, and lets the loader ask for
its first commit. -/
def Obligations.SuppliesThermalAndSelfTest : Prop :=
  (∀ (rail : Fin 7) (c : Nat) (s : State),
    (s.pwr.episodes.any (fun p => p.1 == rail.val) = true → exec (.supplyWarningStart rail c) s = .next s) ∧
    (s.pwr.episodes.any (fun p => p.1 == rail.val) = false → ∃ t, exec (.supplyWarningStart rail c) s = .next t ∧
      t.get F.GLOBAL_SUPPLY_WARN_CNT_COUNT =
        min (s.get F.GLOBAL_SUPPLY_WARN_CNT_COUNT + 1) (2 ^ F.GLOBAL_SUPPLY_WARN_CNT_COUNT.width - 1) ∧
      bitOf (t.get F.GLOBAL_SUPPLY_NOW) rail = true ∧ bitOf (t.get F.GLOBAL_SUPPLY_SEEN) rail = true ∧
      t.pwr = { s.pwr with episodes := s.pwr.episodes ++ [(rail.val, c)] } ∧
      changesOnly [F.GLOBAL_SUPPLY_WARN_CNT_COUNT, F.GLOBAL_SUPPLY_NOW, F.GLOBAL_SUPPLY_SEEN] s t ∧
      t = { s with lcnt := max s.lcnt c, regs := t.regs, pwr := t.pwr }) ∧
    (s.pwr.episodes.any (fun p => p.1 == rail.val) = false → exec (.supplyWarningEnd rail c) s = .next s) ∧
    (∀ st, s.pwr.episodes.find? (fun p => p.1 == rail.val) = some (rail.val, st) → ∃ t,
      exec (.supplyWarningEnd rail c) s = .next t ∧ bitOf (t.get F.GLOBAL_SUPPLY_NOW) rail = false ∧
      t.pwr.episodes = s.pwr.episodes.filter (fun p => p.1 != rail.val) ∧ t.pwr.past = (rail.val, st, c) :: s.pwr.past ∧
      (0x0102, s.locusPkg) ∈ t.log.seen ∧
      (rail.val ≤ 1 → s.longEpisode (c - st) = true → s.pwr.check = none → t.pwr.check = some (st, c)) ∧
      (1 < rail.val → t.pwr.check = s.pwr.check ∧ changesOnly (F.GLOBAL_SUPPLY_NOW :: logFlds) s t) ∧ memSame s t ∧
      t = { s with
        out := t.out, lcnt := max s.lcnt c, regs := t.regs, grps := t.grps, stageFill := t.stageFill, msix := t.msix,
        pwr := t.pwr, twin := t.twin, log := t.log })) ∧
  (∀ (o : CheckOutcome) (s : State), s.pwr.check = none → exec (.supplyStateCheck o) s = .next s) ∧
  (∀ (s : State) (st en b : Nat), s.pwr.check = some (st, en) → b = (en / 2048 + 2) * 2048 →
    (∃ t, exec (.supplyStateCheck .good) s = .next t ∧ t.pwr.check = none ∧ t.lcnt = max s.lcnt b ∧
      t.get F.GLOBAL_SUPPLY_CHECK_CNT_RUN =
        min (s.get F.GLOBAL_SUPPLY_CHECK_CNT_RUN + 1) (2 ^ F.GLOBAL_SUPPLY_CHECK_CNT_RUN.width - 1) ∧
      t.get F.GLOBAL_SUPPLY_CHECK_CNT_BAD = s.get F.GLOBAL_SUPPLY_CHECK_CNT_BAD ∧ (0x0103, s.locusPkg) ∈ t.log.seen ∧
      memSame s t ∧ t.pending = s.pending) ∧
    (∀ n < 48, ∃ t, exec (.supplyStateCheck (.chanBad n)) s = .next t ∧ t.pwr.check = none ∧ t.lcnt = max s.lcnt b ∧
      t.get F.GLOBAL_SUPPLY_CHECK_CNT_BAD =
        min (s.get F.GLOBAL_SUPPLY_CHECK_CNT_BAD + 1) (2 ^ F.GLOBAL_SUPPLY_CHECK_CNT_BAD.width - 1) ∧
      (t.chain n).restartAt = some b ∧ t.flag (F.FLT_CH_STATUS_RESTARTED n) = true ∧ (0x0105, s.locusCh n 0xFF) ∈ t.log.seen ∧
      memSame s t ∧ t.pending = s.pending) ∧
    (s.pwr.coreLoss = false → ∃ t, exec (.supplyStateCheck .hubBad) s = .next t ∧ t.get F.GLOBAL_RESET_CAUSE_CAUSE = 9 ∧ t.pwr.check = none ∧
      (∀ g, (t.grp g).armed = false) ∧ t.flash = s.flash ∧ t.pending = s.pending)) ∧
  (∀ (c : Nat) (s : State),
    (s.pwr.anaFault = none → ∃ t, exec (.supplyFault .vddAna c) s = .next t ∧ t.pwr = { s.pwr with anaFault := some c } ∧
      memSame s t ∧ t = { s with lcnt := max s.lcnt c, regs := t.regs, grps := t.grps, stageFill := t.stageFill, pwr := t.pwr }) ∧
    (s.pwr.anaFault.isSome = true → exec (.supplyFault .vddAna c) s = .next (s.at_ c)) ∧
    (∃ t, exec (.supplyFault .vddSer c) s = .next t ∧ memSame s t ∧
      ((∀ p < 128, s.linkUp p = false) → t = s.at_ c) ∧
      t = { s with lcnt := max s.lcnt c, regs := t.regs, ports := t.ports, strms := t.strms }) ∧
    (∃ t, exec (.supplyFault .vhv c) s = .next t ∧ t.svc = s.svcSafe.svc ∧ (0x0E07, s.locusSvc) ∈ t.log.seen ∧
      changesOnly logFlds s t ∧
      t = { s with
        out := t.out, lcnt := max s.lcnt c, regs := t.regs, svc := t.svc, msix := t.msix, twin := t.twin, log := t.log }) ∧
    (s.pwr.coreLoss = true → exec (.supplyFault .vddIo c) s = .next (s.at_ c)) ∧
    (s.pwr.coreLoss = false → ∃ t, exec (.supplyFault .vddIo c) s = .next t ∧ t.get F.GLOBAL_RESET_CAUSE_CAUSE = 4 ∧ t.get F.GLOBAL_STATE_PHASE = 0 ∧
      (∀ g, (t.grp g).armed = false) ∧ t.flash = s.flash ∧ t.pending = s.pending) ∧
    exec (.supplyFault .vexc c) s = .next (s.at_ c)) ∧
  (∀ (die : Fin 14) (s : State),
    (∃ t, exec (.thermalWarning die) s = .next t ∧ (0x0107, s.locus die 15 255 255) ∈ t.log.seen ∧ changesOnly logFlds s t ∧
      onlyLog s t) ∧
    (s.pwr.thermalHold = true → exec (.thermalReset die) s = .next s ∧
      exec .thermalRelease s = .next { s with
        pwr := { s.pwr with thermalHold := false }, log := { s.log with fatalCond := false } }) ∧
    (s.pwr.thermalHold = false → exec .thermalRelease s = .next s) ∧
    (s.pwr.thermalHold = false → s.pwr.coreLoss = false → ∃ t, exec (.thermalReset die) s = .next t ∧
      t.pwr.thermalHold = true ∧ t.get F.GLOBAL_RESET_CAUSE_CAUSE = 10 ∧ t.get F.GLOBAL_STATE_PHASE = 0 ∧
      (∀ g, (t.grp g).armed = false) ∧ t.flash = s.flash ∧ t.pending = s.pending)) ∧
  (∀ (fails : List FailPart) (s : State),
    (s.get F.GLOBAL_STATE_PHASE ≠ 1 ∨ s.flag F.GLOBAL_SELFTEST_DONE = true → exec (.selfTest fails) s = .next s) ∧
    (s.get F.GLOBAL_STATE_PHASE = 1 → s.flag F.GLOBAL_SELFTEST_DONE = false →
      (fails.contains .package = true → ∃ t, exec (.selfTest fails) s = .next t ∧ t.flag F.GLOBAL_SELFTEST_PKG_FAIL = true ∧
        t.flag F.GLOBAL_SELFTEST_DONE = true ∧ (0x0106, s.locusPkg) ∈ t.log.seen ∧ t.flag F.LOG_STATUS_ERR_N = true ∧
        changesOnly (F.GLOBAL_SELFTEST_PKG_FAIL :: F.GLOBAL_SELFTEST_DONE :: logFlds) s t) ∧
      (fails.contains .package = false → s.get F.CLK_STATUS_LOOP ≠ 3 → exec (.selfTest fails) s = .next s) ∧
      (fails.contains .package = false → s.get F.CLK_STATUS_LOOP = 3 → ∃ t, exec (.selfTest fails) s = .next t ∧
        t.flag F.STO_STATUS_READY = true ∧ t.flag F.STO_STATUS_SELF_REFRESH = false ∧ flashSame s t ∧ t.pending = s.pending ∧
        (fails = [] → t.flag F.GLOBAL_SELFTEST_DONE = true ∧ storeSame s t) ∧
        (∀ k < 10, fails = [.die k] → bitOf (t.get F.GLOBAL_SELFTEST_DIES) k = true) ∧
        (∀ k < 4, ∀ j < 8, fails = [.stackGroup k j] →
          (coldCause (s.get F.GLOBAL_RESET_CAUSE_CAUSE) = true →
            (∀ i < 4, 32 * k + 4 * j + i ∈ t.sto.fenced) ∧ t.get F.STO_CAP_P_ACT = 128 - t.sto.fenced.length ∧
              t.flag F.GLOBAL_STATE_DEGRADED = true) ∧
          (coldCause (s.get F.GLOBAL_RESET_CAUSE_CAUSE) = false →
            bitOf (t.get (F.STO_REPAIR_FAIL_PENDING k)) j = true ∧ t.sto.fenced = s.sto.fenced)) ∧
        (∀ x : Nat, fails = [.lane x] → t.get F.GLOBAL_SELFTEST_SPARES =
          min (s.get F.GLOBAL_SELFTEST_SPARES + 1) (2 ^ F.GLOBAL_SELFTEST_SPARES.width - 1))))) ∧
  (∀ s : State,
    (s.get F.GLOBAL_STATE_PHASE ≠ 1 ∨ s.flag F.GLOBAL_SELFTEST_DONE = false ∨ s.flag F.GLOBAL_SELFTEST_PKG_FAIL = true ∨
      s.get F.CLK_STATUS_LOOP ≠ 3 ∨ s.commit.isSome = true ∨ (∃ r ∈ s.cal.runs, r.ended = false) →
      exec .selfTestDone s = .next s) ∧
    (s.get F.GLOBAL_STATE_PHASE = 1 → s.flag F.GLOBAL_SELFTEST_DONE = true → s.flag F.GLOBAL_SELFTEST_PKG_FAIL = false →
      s.get F.CLK_STATUS_LOOP = 3 → s.commit = none → (∀ r ∈ s.cal.runs, r.ended = true) → ∃ t, exec .selfTestDone s = .next t ∧
        (s.loader.slot = none → t.get F.GLOBAL_STATE_PHASE = 4 ∧ t.commit = none) ∧
        (s.loader.slot ≠ none → t.commit = some ⟨0, 0, s.lcnt, tickDue s.lcnt, 0, 0, .loader⟩ ∧ t.loader.waiting = false ∧
          t.flag F.GLOBAL_STATE_SHADOW_PENDING = true) ∧
        changesOnly (F.GLOBAL_STATE_PHASE :: F.GLOBAL_STATE_SHADOW_PENDING :: F.GLOBAL_STATE_CAL_DEFAULTED ::
          F.GLOBAL_WAKE_CTRL_ASSERTED :: logFlds) s t))

/-! ### Pairing (R380-R389) -/

/-- MIRROR_FRAME_RX, HEARTBEAT_RX, HANDOVER_RX, ECHO_DUE, ECHO_RX, ECHO_REPLY_RX, TAKEOVER, HANDOVER, HANDOVER_SEND (R382-R388): four
good frames in a row align the link and four bad ones lose it; a heartbeat pairs the packages and shows the peer; ECHO frames measure
the link; a standby takes over for a handover or for missed heartbeats; a primary hands over at the boundary and becomes standby. -/
def Obligations.TwinsAlignPairAndTakeOver : Prop :=
  (∀ (f : List (BitVec 8)) (s : State),
    (s.flag F.TWIN_CTRL_EN = false → exec (.mirrorFrameRx f) s = .next s) ∧
    (s.flag F.TWIN_CTRL_EN = true → s.flag F.TWIN_STATUS_ALIGNED = false →
      ((frameSync f && frameCrc f) = false → exec (.mirrorFrameRx f) s = .next { s with twin := { s.twin with good := 0 } }) ∧
      ((frameSync f && frameCrc f) = true → s.twin.good < 3 →
        exec (.mirrorFrameRx f) s = .next { s with twin := { s.twin with good := s.twin.good + 1 } }) ∧
      ((frameSync f && frameCrc f) = true → s.twin.good = 3 → ∃ t, exec (.mirrorFrameRx f) s = .next t ∧
        t.flag F.TWIN_STATUS_ALIGNED = true ∧ t.twin = { s.twin with good := 0, bad := 0, fresh := true, hbSince := false, echoAt := s.lcnt } ∧
        changesOnly [F.TWIN_STATUS_ALIGNED] s t ∧ t = { s with regs := t.regs, twin := t.twin })) ∧
    (s.flag F.TWIN_CTRL_EN = true → s.flag F.TWIN_STATUS_ALIGNED = true →
      ((frameSync f && frameCrc f) = true → exec (.mirrorFrameRx f) s = .next { s with twin := { s.twin with bad := 0 } }) ∧
      (frameCrc f = false → s.twin.bad < 3 → ∃ t, exec (.mirrorFrameRx f) s = .next t ∧
        t.get F.TWIN_CRC_ERR_CNT_COUNT = min (s.get F.TWIN_CRC_ERR_CNT_COUNT + 1) (2 ^ 32 - 1) ∧
        t.twin = { s.twin with bad := s.twin.bad + 1 } ∧ changesOnly [F.TWIN_CRC_ERR_CNT_COUNT] s t ∧
        t = { s with regs := t.regs, twin := t.twin }) ∧
      (frameSync f = false → frameCrc f = true → s.twin.bad < 3 →
        exec (.mirrorFrameRx f) s = .next { s with twin := { s.twin with bad := s.twin.bad + 1 } }) ∧
      ((frameSync f && frameCrc f) = false → 3 ≤ s.twin.bad → ∃ t, exec (.mirrorFrameRx f) s = .next t ∧
        t.flag F.TWIN_STATUS_ALIGNED = false ∧ t.flag F.GLOBAL_STATE_TWIN_PAIRED = false ∧ t.twin.good = 0 ∧ t.twin.bad = 0 ∧
        (0x1102, s.locusPkg) ∈ t.log.seen ∧
        changesOnly (F.TWIN_CRC_ERR_CNT_COUNT :: F.TWIN_STATUS_ALIGNED :: F.GLOBAL_STATE_TWIN_PAIRED :: logFlds) s t ∧
        t = { s with out := t.out, regs := t.regs, msix := t.msix, twin := t.twin, log := t.log }))) ∧
  (∀ (a : Nat) (p : PeerState) (s : State),
    (s.linkOn = false → ∀ c ∈ [Instr.heartbeatRx a p, .handoverRx a p, .echoDue], exec c s = .next s) ∧
    (s.linkOn = true →
      (∃ t, exec (.heartbeatRx a p) s = .next t ∧ t.flag F.GLOBAL_STATE_TWIN_PAIRED = true ∧
        t.twin = { s.twin with peer := some p, peerAt := a, hbSince := true } ∧ t.lcnt = max s.lcnt a ∧
        t.get F.TWIN_PEER_ROLE = p.role % 2 ^ F.TWIN_PEER_ROLE.width ∧ t.get F.TWIN_PEER_NODE = p.node % 2 ^ F.TWIN_PEER_NODE.width ∧
        changesOnly [F.GLOBAL_STATE_TWIN_PAIRED, F.TWIN_PEER_NODE, F.TWIN_PEER_ROLE, F.TWIN_PEER_PHASE, F.TWIN_PEER_FLAGS] s t ∧
        t = { s with lcnt := t.lcnt, regs := t.regs, twin := t.twin }) ∧
      (∃ t, exec (.handoverRx a p) s = .next t ∧ t.twin =
          { s.twin with peer := some p, peerAt := a, handoverRx := s.get F.TWIN_STATUS_ROLE == 2 } ∧
        changesOnly [F.TWIN_PEER_NODE, F.TWIN_PEER_ROLE, F.TWIN_PEER_PHASE, F.TWIN_PEER_FLAGS] s t ∧
        t = { s with lcnt := max s.lcnt a, regs := t.regs, twin := t.twin }) ∧
      ∃ t f, exec .echoDue s = .next t ∧ t.out = .mirror f :: s.out ∧ frameSync f = true ∧ frameCrc f = true ∧ f[8]? = some 4 ∧
        (f.drop 16).take 8 = leBytes 8 t.lcnt ∧ t.lcnt = max s.lcnt s.twin.echoAt ∧
        t.twin = { s.twin with echoAt := s.twin.echoAt + 2 ^ 20 * 2048 } ∧
        t = { s with out := t.out, free := t.free, lcnt := t.lcnt, twin := t.twin })) ∧
  (∀ (a sent turn : Nat) (s : State),
    (s.linkOn = false → exec (.echoRx a sent) s = .next s ∧ exec (.echoReplyRx a sent turn) s = .next s) ∧
    (s.linkOn = true →
      (∃ t f, exec (.echoRx a sent) s = .next t ∧ t.out = .mirror f :: s.out ∧ frameSync f = true ∧ frameCrc f = true ∧
        f[8]? = some 5 ∧ (f.drop 16).take 8 = leBytes 8 sent ∧
        t = { s with out := t.out, free := t.free, lcnt := max s.lcnt a }) ∧
      ∃ t, exec (.echoReplyRx a sent turn) s = .next t ∧
        t.get F.TWIN_LINK_DELAY_CYCLES = min ((a - sent - turn) / 2) (2 ^ 32 - 1) ∧ changesOnly [F.TWIN_LINK_DELAY_CYCLES] s t ∧
        t = { s with lcnt := max s.lcnt a, regs := t.regs })) ∧
  (∀ (s : State) (p : PeerState) (b : Nat), b = boundaryAt s.lcnt → s.twin.peer = some p → s.get F.TWIN_STATUS_ROLE = 2 →
    (s.twin.handoverRx = true ∨ (s.hbMiss ≤ s.twin.misses ∧ s.flag F.TWIN_CTRL_LOSS_TAKEOVER = true) → ∃ t,
      exec .takeover s = .next t ∧ t.twin.source = true ∧ t.twin.handoverRx = false ∧ t.twin.misses = 0 ∧
      (0x1103, s.locusPkg) ∈ t.log.seen ∧ t.lcnt = max s.lcnt b ∧ flashSame s t ∧ t.pending = s.pending ∧
      (p.armed = 0 → memSame s t ∧ t.get F.TWIN_STATUS_ROLE = 1 ∧ t.flag F.TWIN_STATUS_BY_TAKEOVER = true ∧
        t.flag F.TWIN_STATUS_TAKEOVER_SEEN = true ∧ t.getN R.TWIN_TAKEOVER_LCNT 2 = b % 2 ^ 64 ∧
        (s.get F.GLOBAL_STATE_PHASE = 3 → t.get F.GLOBAL_STATE_PHASE = 2))) ∧
    (s.twin.handoverRx = false → s.twin.misses < s.hbMiss ∨ s.flag F.TWIN_CTRL_LOSS_TAKEOVER = false →
      exec .takeover s = .next (s.at_ b))) ∧
  (∀ s : State, s.twin.peer = none ∨ s.get F.TWIN_STATUS_ROLE ≠ 2 → exec .takeover s = .next (s.at_ (boundaryAt s.lcnt))) ∧
  (∀ s : State,
    (s.get F.TWIN_STATUS_ROLE = 1 → s.flag F.TWIN_STATUS_ALIGNED = true →
      exec .handover s = .next { s with twin := { s.twin with handoverTx := true } }) ∧
    (s.get F.TWIN_STATUS_ROLE ≠ 1 ∨ s.flag F.TWIN_STATUS_ALIGNED = false → exec .handover s = .next s) ∧
    (s.twin.handoverTx = true → s.get F.TWIN_STATUS_ROLE = 1 → ∃ t, exec .handoverSend s = .next t ∧
      t.get F.TWIN_STATUS_ROLE = 2 ∧ t.flag F.TWIN_STATUS_BY_TAKEOVER = false ∧ t.get F.GLOBAL_STATE_PHASE = 3 ∧
      t.twin.source = false ∧ t.twin.yielded = true ∧ t.twin.misses = 0 ∧ (0x1106, s.locusPkg) ∈ t.log.seen ∧
      (∃ f : List Byte, Out.mirror f ∈ t.out ∧ f[8]? = some 3 ∧
        (f.drop 16).take 552 = (s.at_ (boundaryAt s.lcnt)).hbBytes (boundaryAt s.lcnt)) ∧ memSame s t ∧
      t = { s with out := t.out, free := t.free, lcnt := t.lcnt, regs := t.regs, grps := t.grps, msix := t.msix, twin := t.twin,
                   log := t.log }) ∧
    (s.twin.handoverTx = false ∨ s.get F.TWIN_STATUS_ROLE ≠ 1 →
      exec .handoverSend s = .next (s.at_ (boundaryAt s.lcnt))))

/-! ### The log's commands (R391-R397) -/

/-- Writing a log entry, FIRST_CLR, FATAL_CLR, LOG_CLASS_WRITE, LOG_RD_READ, LOG_FIRST_READ: an event already logged in the tick is
counted and not logged again, but for the epoch entries (R394); an entry of a class that interrupts signals its vector once a tick
(R397); clearing the first-error capture or a
FATAL whose condition has ended releases ERR_N when nothing else holds it low; a class change stays in the shadow set; reading word 0
of an entry or a capture answers it, latches the other seven words for the reader, and LOG_RD moves on by one entry. -/
def Obligations.LogEntriesAreWrittenClearedAndRead : Prop :=
  (∀ (s : State) (lc code locus data : Nat),
    ((code, locus) ∈ s.log.seen → code ≠ 0x0C01 → code ≠ 0x0C02 → ∃ t, s.post lc code locus data = t ∧
      t.get F.LOG_SUPPR_CNT_COUNT = min (s.get F.LOG_SUPPR_CNT_COUNT + 1) (2 ^ 32 - 1) ∧
      changesOnly [F.LOG_SUPPR_CNT_COUNT] s t ∧ t = { s with regs := t.regs }) ∧
    ((code, locus) ∉ s.log.seen ∨ code = 0x0C01 ∨ code = 0x0C02 → ∃ t e, s.post lc code locus data = t ∧
      t.get F.LOG_WR_SEQ_SEQ = (s.get F.LOG_WR_SEQ_SEQ + 1) % 2 ^ 32 ∧ t.log.seen = (code, locus) :: s.log.seen ∧
      (s.log.ring.length < 4096 ∨ s.log.cyc ≠ s.lcnt → e ∈ t.log.ring ∧ e.lcnt = lc ∧ e.code = code ∧ e.locus = locus ∧
        e.data = data % 2 ^ 96) ∧
      t.get F.LOG_SUPPR_CNT_COUNT = s.get F.LOG_SUPPR_CNT_COUNT ∧ changesOnly logFlds s t ∧
      (s.flag F.LOG_CTRL_IRQ_EN = true → s.get F.LOG_CTRL_IRQ_CLASS ≤ s.logClass code → s.log.signalled = false →
        t.log.signalled = true ∧
        (s.msix.masked 0 (s.get F.LOG_CTRL_VEC) = false → t.out.head? = some (.msix 0 (s.get F.LOG_CTRL_VEC))) ∧
        (s.msix.masked 0 (s.get F.LOG_CTRL_VEC) = true → (0, s.get F.LOG_CTRL_VEC) ∈ t.msix.pba)) ∧
      (s.flag F.LOG_CTRL_IRQ_EN = false ∨ s.logClass code < s.get F.LOG_CTRL_IRQ_CLASS ∨ s.log.signalled = true →
        (∀ fn vec, t.out.count (.msix fn vec) = s.out.count (.msix fn vec)) ∧ t.log.signalled = s.log.signalled))) ∧
  (∀ s : State,
    (∃ t, exec .firstClr s = .next t ∧ t.flag F.LOG_STATUS_FIRST_VALID = false ∧ t.get F.LOG_NEST_CNT_COUNT = 0 ∧
      t.flag F.LOG_STATUS_ERR_N = (s.flag F.LOG_STATUS_FATAL || s.flag F.GLOBAL_SELFTEST_PKG_FAIL) ∧
      changesOnly [F.LOG_STATUS_FIRST_VALID, F.LOG_NEST_CNT_COUNT, F.LOG_STATUS_ERR_N] s t ∧
      t = { s with out := t.out, regs := t.regs }) ∧
    (∃ t, exec (.fatalClr true) s = .next t ∧ t.flag F.LOG_STATUS_FATAL = false ∧ t.log = { s.log with fatalCond := false } ∧
      t.flag F.LOG_STATUS_ERR_N = (s.flag F.LOG_STATUS_FIRST_VALID || s.flag F.GLOBAL_SELFTEST_PKG_FAIL) ∧
      changesOnly [F.LOG_STATUS_FATAL, F.LOG_STATUS_ERR_N] s t ∧ t = { s with out := t.out, regs := t.regs, log := t.log }) ∧
    (s.log.fatalCond = true → exec (.fatalClr false) s = .next s)) ∧
  (∀ (off : Nat) (v : BitVec 32) (s : State), off < 0xF01000 ∨ 0xF05000 ≤ off → exec (.logClassWrite off v) s = .next s) ∧
  (∀ (i : Nat) (v : BitVec 32) (s : State), i < 4096 →
    (s.commit = none → s.flag F.CFG_VIEW_ACTIVE = false → ∃ t, exec (.logClassWrite (0xF01000 + 4 * i) v) s = .next t ∧
      (∀ j x old new, j < 16 → x = v.toNat / 4 ^ j % 4 → old = (s.shadowWord (0xF01000 + 4 * i)).toNat / 4 ^ j % 4 →
        new = (t.shadowWord (0xF01000 + 4 * i)).toNat / 4 ^ j % 4 →
        new = (if logResetClass (16 * i + j) = 3 then 3 else if x = 3 then old else x)) ∧
      (∀ j, j ≠ 0xF01000 + 4 * i → t.shadowWord j = s.shadowWord j) ∧ t = { s with shadow := t.shadow }) ∧
    (s.commit.isSome = true → ∃ t, exec (.logClassWrite (0xF01000 + 4 * i) v) s = .next t ∧ t.flag F.CFG_STATUS_WR_IGNORED = true ∧
      t.get F.CFG_WR_IGN_CNT_COUNT = min (s.get F.CFG_WR_IGN_CNT_COUNT + 1) (2 ^ 32 - 1) ∧
      changesOnly [F.CFG_STATUS_WR_IGNORED, F.CFG_WR_IGN_CNT_COUNT] s t ∧ t = { s with regs := t.regs })) ∧
  (∀ (fn : Fin 64) (last : Bool) (s : State), fn ≠ 0 →
    exec (.logRdRead fn) s = .next (s.emit (.read fn R.LOG_RD [0])) ∧
    exec (.logFirstRead fn last) s = .next (s.emit (.read fn (if last then R.LOG_LAST_ERR else R.LOG_FIRST) [0]))) ∧
  (∀ (fn : Fin 64) (s : State) (v : Nat), fn = 0 → v = s.logAt (s.get F.LOG_RD_SEQ_SEQ) → ∃ t, exec (.logRdRead fn) s = .next t ∧
    t.out = .read fn R.LOG_RD [BitVec.ofNat 32 v] :: s.out ∧ t.get F.LOG_RD_SEQ_SEQ = (s.get F.LOG_RD_SEQ_SEQ + 1) % 2 ^ 32 ∧
    (∀ i < 7, t.latched fn (R.LOG_RD + 4 + 4 * i) = some (BitVec.ofNat 32 (v / 2 ^ (32 * (i + 1))))) ∧
    changesOnly [F.LOG_RD_SEQ_SEQ] s t ∧ t = { s with out := t.out, regs := t.regs, latch := t.latch }) ∧
  (∀ (fn : Fin 64) (last : Bool) (s : State) (off : Nat), fn = 0 → off = (if last then R.LOG_LAST_ERR else R.LOG_FIRST) → ∃ t,
    exec (.logFirstRead fn last) s = .next t ∧ t.out = .read fn off [s.word off] :: s.out ∧
    (∀ i < 7, t.latched fn (off + 4 + 4 * i) = some (s.word (off + 4 + 4 * i))) ∧
    t = { s with out := t.out, latch := t.latch })
end

