-- ==== Sys2Proof/Laws/Table.lean ====
section
/-! SUPPORT. Laws of sparse tables and of byte memories: read after write, canonical form kept. -/

namespace Sys2Proof.Machine

@[simp] theorem Tab.get_set_same {α : Type} (d v : α) (t : Tab α) (k : Nat) : Tab.get d (Tab.set t k v) k = v := by
  induction t with
  | nil => simp [Tab.set, Tab.get]
  | cons p rest ih =>
    by_cases h1 : k < p.1
    · simp [Tab.set, Tab.get, h1]
    · by_cases h2 : p.1 = k
      · simp [Tab.set, Tab.get, h2]
      · simp [Tab.set, Tab.get, h1, h2, ih]

theorem Tab.get_set_other {α : Type} (d v : α) (t : Tab α) (k j : Nat) (h : j ≠ k) :
    Tab.get d (Tab.set t k v) j = Tab.get d t j := by
  have hk : ¬k = j := fun e => h e.symm
  induction t with
  | nil => simp [Tab.set, Tab.get, hk]
  | cons p rest ih =>
    by_cases h1 : k < p.1
    · simp [Tab.set, Tab.get, h1, hk]
    · by_cases h2 : p.1 = k
      · simp [Tab.set, Tab.get, h2, hk]
      · rw [Tab.set, if_neg h1, if_neg h2]
        simp only [Tab.get, ih]

theorem Tab.get_set {α : Type} (d v : α) (t : Tab α) (k j : Nat) :
    Tab.get d (Tab.set t k v) j = if j = k then v else Tab.get d t j := by
  by_cases h : j = k
  · simp [h]
  · simp [h, Tab.get_set_other d v t k j h]

/-! ### Memories -/

/-- Addresses below every entry read what nothing has written. -/
theorem Mem.wfAbove_mono (d : Byte) (m : Mem) (a b : Nat) (h : a ≤ b) (w : Mem.wfAbove d b m = true) : Mem.wfAbove d a m = true := by
  cases m with
  | nil => rfl
  | cons p rest =>
    simp only [Mem.wfAbove, Bool.and_eq_true, decide_eq_true_eq] at w ⊢
    exact ⟨⟨Nat.le_trans h w.1.1, w.1.2⟩, w.2⟩

theorem Mem.wfAbove_write (d : Byte) (v : Byte) (m : Mem) : ∀ (lo a : Nat), lo ≤ a → Mem.wfAbove d lo m = true →
    Mem.wfAbove d lo (Mem.write d m a v) = true := by
  induction m with
  | nil =>
    intro lo a ha _
    by_cases hv : v = d
    · simp [Mem.write, hv, Mem.wfAbove]
    · simp [Mem.write, hv, Mem.wfAbove, ha]
  | cons p rest ih =>
    intro lo a ha w
    simp only [Mem.wfAbove, Bool.and_eq_true, decide_eq_true_eq] at w
    by_cases h1 : a < p.1
    · by_cases hv : v = d
      · simp [Mem.write, h1, hv, Mem.wfAbove, w]
      · have : a + 1 ≤ p.1 := h1
        simp [Mem.write, h1, hv, Mem.wfAbove, w, ha, this]
    · by_cases h2 : p.1 = a
      · by_cases hv : v = d
        · rw [Mem.write, if_neg h1, if_pos h2, if_pos hv]
          exact Mem.wfAbove_mono d rest lo (p.1 + 1) (by omega) w.2
        · rw [Mem.write, if_neg h1, if_pos h2, if_neg hv]
          simp only [Mem.wfAbove, Bool.and_eq_true, decide_eq_true_eq]
          exact ⟨⟨ha, hv⟩, by rw [← h2]; exact w.2⟩
      · rw [Mem.write, if_neg h1, if_neg h2]
        simp only [Mem.wfAbove, Bool.and_eq_true, decide_eq_true_eq]
        exact ⟨w.1, ih (p.1 + 1) a (by omega) w.2⟩

/-- A write keeps the canonical form. -/
theorem Mem.wf_write (d : Byte) (m : Mem) (a : Nat) (v : Byte) (w : Mem.wf d m = true) : Mem.wf d (Mem.write d m a v) = true :=
  Mem.wfAbove_write d v m 0 a (Nat.zero_le a) w

theorem Mem.wf_nil (d : Byte) : Mem.wf d [] = true := rfl

/-- Writes of several bytes keep the canonical form. -/
theorem Mem.wf_writeBytes (d : Byte) (bs : List Byte) : ∀ (m : Mem) (a : Nat), Mem.wf d m = true →
    Mem.wf d (Mem.writeBytes d m a bs) = true := by
  induction bs with
  | nil => intro m a w; exact w
  | cons b bs ih => intro m a w; exact ih _ _ (Mem.wf_write d m a b w)

/-- Below its lower bound a memory lists nothing. -/
theorem Mem.read_below (d : Byte) (m : Mem) : ∀ (lo a : Nat), a < lo → Mem.wfAbove d lo m = true → Mem.read d m a = d := by
  induction m with
  | nil => intro lo a _ _; rfl
  | cons p rest ih =>
    intro lo a h w
    simp only [Mem.wfAbove, Bool.and_eq_true, decide_eq_true_eq] at w
    have hp : ¬p.1 = a := by omega
    have := ih (p.1 + 1) a (by omega) w.2
    simp only [Mem.read] at this ⊢
    simp [Tab.get, hp, this]

theorem Mem.read_writeAbove (d : Byte) (v : Byte) (m : Mem) : ∀ (lo a b : Nat), Mem.wfAbove d lo m = true →
    Mem.read d (Mem.write d m a v) b = if b = a then v else Mem.read d m b := by
  induction m with
  | nil =>
    intro lo a b _
    by_cases hv : v = d
    · simp [Mem.write, Mem.read, Tab.get, hv]
    · by_cases hb : b = a
      · simp [Mem.write, Mem.read, Tab.get, hv, hb]
      · have : ¬a = b := fun e => hb e.symm
        simp [Mem.write, Mem.read, Tab.get, hv, hb, this]
  | cons p rest ih =>
    intro lo a b w
    simp only [Mem.wfAbove, Bool.and_eq_true, decide_eq_true_eq] at w
    by_cases h1 : a < p.1
    · by_cases hv : v = d
      · by_cases hb : b = a
        · have := Mem.read_below d (p :: rest) p.1 a h1 (by simp [Mem.wfAbove, w.1.2, w.2])
          simp [Mem.write, h1, hv, hb, this]
        · simp [Mem.write, h1, hv, hb]
      · by_cases hb : b = a
        · simp [Mem.write, h1, hv, hb, Mem.read, Tab.get]
        · have : ¬a = b := fun e => hb e.symm
          simp [Mem.write, h1, hv, hb, Mem.read, Tab.get, this]
    · by_cases h2 : p.1 = a
      · by_cases hv : v = d
        · by_cases hb : b = a
          · have := Mem.read_below d rest (p.1 + 1) a (by omega) w.2
            simp [Mem.write, h2, hv, hb, this]
          · have : ¬a = b := fun e => hb e.symm
            have hp : ¬p.1 = b := by rw [h2]; exact this
            simp [Mem.write, h2, hv, hb, Mem.read, Tab.get, this]
        · by_cases hb : b = a
          · simp [Mem.write, h2, hv, hb, Mem.read, Tab.get]
          · have : ¬a = b := fun e => hb e.symm
            have hp : ¬p.1 = b := by rw [h2]; exact this
            simp [Mem.write, h2, hv, hb, Mem.read, Tab.get, this]
      · have step := ih (p.1 + 1) a b w.2
        simp only [Mem.read] at step ⊢
        rw [Mem.write, if_neg h1, if_neg h2]
        simp only [Tab.get, step]
        by_cases hpb : p.1 = b
        · have hba : ¬b = a := by omega
          rw [if_pos hpb, if_neg hba, if_pos hpb]
        · simp only [if_neg hpb]

/-- Read after write. -/
theorem Mem.read_write (d : Byte) (m : Mem) (a b : Nat) (v : Byte) (w : Mem.wf d m = true) :
    Mem.read d (Mem.write d m a v) b = if b = a then v else Mem.read d m b :=
  Mem.read_writeAbove d v m 0 a b w

end Sys2Proof.Machine
end

