-- ==== Sys2Proof/Laws/State.lean ====
section
/-! SUPPORT. What each named update of State leaves alone, field by field, and what reading a part after setting it gives. -/

namespace Sys2Proof.Machine

@[simp] theorem State.put_frame (s : State) (f : Fld) (v : Nat) :
    (s.put f v).pending = s.pending ∧ (s.put f v).out = s.out ∧ (s.put f v).free = s.free ∧ (s.put f v).lcnt = s.lcnt ∧
    (s.put f v).tick = s.tick ∧ (s.put f v).hist = s.hist ∧ (s.put f v).shadow = s.shadow ∧ (s.put f v).latch = s.latch ∧
    (s.put f v).held = s.held ∧ (s.put f v).commit = s.commit ∧ (s.put f v).loader = s.loader ∧
    (s.put f v).armPlan = s.armPlan ∧ (s.put f v).flash = s.flash ∧ (s.put f v).flashOps = s.flashOps ∧
    (s.put f v).chans = s.chans ∧ (s.put f v).words = s.words ∧ (s.put f v).chains = s.chains ∧ (s.put f v).acs = s.acs ∧
    (s.put f v).dcs = s.dcs ∧ (s.put f v).ints = s.ints ∧ (s.put f v).intSwaps = s.intSwaps ∧ (s.put f v).grps = s.grps ∧
    (s.put f v).store = s.store ∧ (s.put f v).stageFill = s.stageFill ∧ (s.put f v).stageDrain = s.stageDrain ∧
    (s.put f v).fillData = s.fillData ∧ (s.put f v).drainData = s.drainData ∧ (s.put f v).sto = s.sto ∧
    (s.put f v).abaQ = s.abaQ ∧ (s.put f v).abaSkip = s.abaSkip ∧ (s.put f v).abaEnd = s.abaEnd ∧
    (s.put f v).avgs = s.avgs ∧ (s.put f v).dbs = s.dbs ∧ (s.put f v).hitQ = s.hitQ ∧ (s.put f v).hitEnd = s.hitEnd ∧
    (s.put f v).tallyPage = s.tallyPage ∧ (s.put f v).tallyGeom = s.tallyGeom ∧ (s.put f v).frames = s.frames ∧
    (s.put f v).framePub = s.framePub ∧ (s.put f v).ports = s.ports ∧ (s.put f v).strms = s.strms ∧
    (s.put f v).hostqs = s.hostqs ∧ (s.put f v).dmaTurn = s.dmaTurn ∧ (s.put f v).msix = s.msix ∧
    (s.put f v).disp = s.disp ∧ (s.put f v).tap = s.tap ∧ (s.put f v).cfgReady = s.cfgReady ∧ (s.put f v).clk = s.clk ∧
    (s.put f v).epochs = s.epochs ∧ (s.put f v).timeDue = s.timeDue ∧ (s.put f v).pnom = s.pnom ∧
    (s.put f v).servo = s.servo ∧ (s.put f v).stage = s.stage ∧ (s.put f v).txq = s.txq ∧ (s.put f v).ptp = s.ptp ∧
    (s.put f v).evs = s.evs ∧ (s.put f v).cal = s.cal ∧ (s.put f v).svc = s.svc ∧ (s.put f v).keeper = s.keeper ∧
    (s.put f v).pwr = s.pwr ∧ (s.put f v).twin = s.twin ∧ (s.put f v).log = s.log ∧ (s.put f v).smb = s.smb :=
  by and_intros <;> rfl

@[simp] theorem State.putN_frame (s : State) (off n v : Nat) :
    (s.putN off n v).pending = s.pending ∧ (s.putN off n v).out = s.out ∧ (s.putN off n v).free = s.free ∧
    (s.putN off n v).lcnt = s.lcnt ∧ (s.putN off n v).tick = s.tick ∧ (s.putN off n v).hist = s.hist ∧
    (s.putN off n v).shadow = s.shadow ∧ (s.putN off n v).latch = s.latch ∧ (s.putN off n v).held = s.held ∧
    (s.putN off n v).commit = s.commit ∧ (s.putN off n v).loader = s.loader ∧ (s.putN off n v).armPlan = s.armPlan ∧
    (s.putN off n v).flash = s.flash ∧ (s.putN off n v).flashOps = s.flashOps ∧ (s.putN off n v).chans = s.chans ∧
    (s.putN off n v).words = s.words ∧ (s.putN off n v).chains = s.chains ∧ (s.putN off n v).acs = s.acs ∧
    (s.putN off n v).dcs = s.dcs ∧ (s.putN off n v).ints = s.ints ∧ (s.putN off n v).intSwaps = s.intSwaps ∧
    (s.putN off n v).grps = s.grps ∧ (s.putN off n v).store = s.store ∧ (s.putN off n v).stageFill = s.stageFill ∧
    (s.putN off n v).stageDrain = s.stageDrain ∧ (s.putN off n v).fillData = s.fillData ∧
    (s.putN off n v).drainData = s.drainData ∧ (s.putN off n v).sto = s.sto ∧ (s.putN off n v).abaQ = s.abaQ ∧
    (s.putN off n v).abaSkip = s.abaSkip ∧ (s.putN off n v).abaEnd = s.abaEnd ∧ (s.putN off n v).avgs = s.avgs ∧
    (s.putN off n v).dbs = s.dbs ∧ (s.putN off n v).hitQ = s.hitQ ∧ (s.putN off n v).hitEnd = s.hitEnd ∧
    (s.putN off n v).tallyPage = s.tallyPage ∧ (s.putN off n v).tallyGeom = s.tallyGeom ∧
    (s.putN off n v).frames = s.frames ∧ (s.putN off n v).framePub = s.framePub ∧ (s.putN off n v).ports = s.ports ∧
    (s.putN off n v).strms = s.strms ∧ (s.putN off n v).hostqs = s.hostqs ∧ (s.putN off n v).dmaTurn = s.dmaTurn ∧
    (s.putN off n v).msix = s.msix ∧ (s.putN off n v).disp = s.disp ∧ (s.putN off n v).tap = s.tap ∧
    (s.putN off n v).cfgReady = s.cfgReady ∧ (s.putN off n v).clk = s.clk ∧ (s.putN off n v).epochs = s.epochs ∧
    (s.putN off n v).timeDue = s.timeDue ∧ (s.putN off n v).pnom = s.pnom ∧ (s.putN off n v).servo = s.servo ∧
    (s.putN off n v).stage = s.stage ∧ (s.putN off n v).txq = s.txq ∧ (s.putN off n v).ptp = s.ptp ∧
    (s.putN off n v).evs = s.evs ∧ (s.putN off n v).cal = s.cal ∧ (s.putN off n v).svc = s.svc ∧
    (s.putN off n v).keeper = s.keeper ∧ (s.putN off n v).pwr = s.pwr ∧ (s.putN off n v).twin = s.twin ∧
    (s.putN off n v).log = s.log ∧ (s.putN off n v).smb = s.smb :=
  by and_intros <;> rfl

@[simp] theorem State.atCycle_frame (s : State) (a : Nat) :
    (s.at_ a).pending = s.pending ∧ (s.at_ a).out = s.out ∧ (s.at_ a).free = s.free ∧ (s.at_ a).tick = s.tick ∧
    (s.at_ a).regs = s.regs ∧ (s.at_ a).hist = s.hist ∧ (s.at_ a).shadow = s.shadow ∧ (s.at_ a).latch = s.latch ∧
    (s.at_ a).held = s.held ∧ (s.at_ a).commit = s.commit ∧ (s.at_ a).loader = s.loader ∧ (s.at_ a).armPlan = s.armPlan ∧
    (s.at_ a).flash = s.flash ∧ (s.at_ a).flashOps = s.flashOps ∧ (s.at_ a).chans = s.chans ∧ (s.at_ a).words = s.words ∧
    (s.at_ a).chains = s.chains ∧ (s.at_ a).acs = s.acs ∧ (s.at_ a).dcs = s.dcs ∧ (s.at_ a).ints = s.ints ∧
    (s.at_ a).intSwaps = s.intSwaps ∧ (s.at_ a).grps = s.grps ∧ (s.at_ a).store = s.store ∧
    (s.at_ a).stageFill = s.stageFill ∧ (s.at_ a).stageDrain = s.stageDrain ∧ (s.at_ a).fillData = s.fillData ∧
    (s.at_ a).drainData = s.drainData ∧ (s.at_ a).sto = s.sto ∧ (s.at_ a).abaQ = s.abaQ ∧ (s.at_ a).abaSkip = s.abaSkip ∧
    (s.at_ a).abaEnd = s.abaEnd ∧ (s.at_ a).avgs = s.avgs ∧ (s.at_ a).dbs = s.dbs ∧ (s.at_ a).hitQ = s.hitQ ∧
    (s.at_ a).hitEnd = s.hitEnd ∧ (s.at_ a).tallyPage = s.tallyPage ∧ (s.at_ a).tallyGeom = s.tallyGeom ∧
    (s.at_ a).frames = s.frames ∧ (s.at_ a).framePub = s.framePub ∧ (s.at_ a).ports = s.ports ∧
    (s.at_ a).strms = s.strms ∧ (s.at_ a).hostqs = s.hostqs ∧ (s.at_ a).dmaTurn = s.dmaTurn ∧ (s.at_ a).msix = s.msix ∧
    (s.at_ a).disp = s.disp ∧ (s.at_ a).tap = s.tap ∧ (s.at_ a).cfgReady = s.cfgReady ∧ (s.at_ a).clk = s.clk ∧
    (s.at_ a).epochs = s.epochs ∧ (s.at_ a).timeDue = s.timeDue ∧ (s.at_ a).pnom = s.pnom ∧ (s.at_ a).servo = s.servo ∧
    (s.at_ a).stage = s.stage ∧ (s.at_ a).txq = s.txq ∧ (s.at_ a).ptp = s.ptp ∧ (s.at_ a).evs = s.evs ∧
    (s.at_ a).cal = s.cal ∧ (s.at_ a).svc = s.svc ∧ (s.at_ a).keeper = s.keeper ∧ (s.at_ a).pwr = s.pwr ∧
    (s.at_ a).twin = s.twin ∧ (s.at_ a).log = s.log ∧ (s.at_ a).smb = s.smb :=
  by and_intros <;> rfl

@[simp] theorem State.emit_frame (s : State) (o : Out) :
    (s.emit o).pending = s.pending ∧ (s.emit o).free = s.free ∧ (s.emit o).lcnt = s.lcnt ∧ (s.emit o).tick = s.tick ∧
    (s.emit o).regs = s.regs ∧ (s.emit o).hist = s.hist ∧ (s.emit o).shadow = s.shadow ∧ (s.emit o).latch = s.latch ∧
    (s.emit o).held = s.held ∧ (s.emit o).commit = s.commit ∧ (s.emit o).loader = s.loader ∧
    (s.emit o).armPlan = s.armPlan ∧ (s.emit o).flash = s.flash ∧ (s.emit o).flashOps = s.flashOps ∧
    (s.emit o).chans = s.chans ∧ (s.emit o).words = s.words ∧ (s.emit o).chains = s.chains ∧ (s.emit o).acs = s.acs ∧
    (s.emit o).dcs = s.dcs ∧ (s.emit o).ints = s.ints ∧ (s.emit o).intSwaps = s.intSwaps ∧ (s.emit o).grps = s.grps ∧
    (s.emit o).store = s.store ∧ (s.emit o).stageFill = s.stageFill ∧ (s.emit o).stageDrain = s.stageDrain ∧
    (s.emit o).fillData = s.fillData ∧ (s.emit o).drainData = s.drainData ∧ (s.emit o).sto = s.sto ∧
    (s.emit o).abaQ = s.abaQ ∧ (s.emit o).abaSkip = s.abaSkip ∧ (s.emit o).abaEnd = s.abaEnd ∧ (s.emit o).avgs = s.avgs ∧
    (s.emit o).dbs = s.dbs ∧ (s.emit o).hitQ = s.hitQ ∧ (s.emit o).hitEnd = s.hitEnd ∧
    (s.emit o).tallyPage = s.tallyPage ∧ (s.emit o).tallyGeom = s.tallyGeom ∧ (s.emit o).frames = s.frames ∧
    (s.emit o).framePub = s.framePub ∧ (s.emit o).ports = s.ports ∧ (s.emit o).strms = s.strms ∧
    (s.emit o).hostqs = s.hostqs ∧ (s.emit o).dmaTurn = s.dmaTurn ∧ (s.emit o).msix = s.msix ∧ (s.emit o).disp = s.disp ∧
    (s.emit o).tap = s.tap ∧ (s.emit o).cfgReady = s.cfgReady ∧ (s.emit o).clk = s.clk ∧ (s.emit o).epochs = s.epochs ∧
    (s.emit o).timeDue = s.timeDue ∧ (s.emit o).pnom = s.pnom ∧ (s.emit o).servo = s.servo ∧ (s.emit o).stage = s.stage ∧
    (s.emit o).txq = s.txq ∧ (s.emit o).ptp = s.ptp ∧ (s.emit o).evs = s.evs ∧ (s.emit o).cal = s.cal ∧
    (s.emit o).svc = s.svc ∧ (s.emit o).keeper = s.keeper ∧ (s.emit o).pwr = s.pwr ∧ (s.emit o).twin = s.twin ∧
    (s.emit o).log = s.log ∧ (s.emit o).smb = s.smb :=
  by and_intros <;> rfl

@[simp] theorem State.stageW_frame (s : State) (w : StW) :
    (s.stageW w).pending = s.pending ∧ (s.stageW w).out = s.out ∧ (s.stageW w).free = s.free ∧
    (s.stageW w).lcnt = s.lcnt ∧ (s.stageW w).tick = s.tick ∧ (s.stageW w).regs = s.regs ∧ (s.stageW w).hist = s.hist ∧
    (s.stageW w).shadow = s.shadow ∧ (s.stageW w).latch = s.latch ∧ (s.stageW w).held = s.held ∧
    (s.stageW w).commit = s.commit ∧ (s.stageW w).loader = s.loader ∧ (s.stageW w).armPlan = s.armPlan ∧
    (s.stageW w).flash = s.flash ∧ (s.stageW w).flashOps = s.flashOps ∧ (s.stageW w).chans = s.chans ∧
    (s.stageW w).words = s.words ∧ (s.stageW w).chains = s.chains ∧ (s.stageW w).acs = s.acs ∧ (s.stageW w).dcs = s.dcs ∧
    (s.stageW w).ints = s.ints ∧ (s.stageW w).intSwaps = s.intSwaps ∧ (s.stageW w).grps = s.grps ∧
    (s.stageW w).store = s.store ∧ (s.stageW w).stageDrain = s.stageDrain ∧ (s.stageW w).fillData = s.fillData ∧
    (s.stageW w).drainData = s.drainData ∧ (s.stageW w).sto = s.sto ∧ (s.stageW w).abaQ = s.abaQ ∧
    (s.stageW w).abaSkip = s.abaSkip ∧ (s.stageW w).abaEnd = s.abaEnd ∧ (s.stageW w).avgs = s.avgs ∧
    (s.stageW w).dbs = s.dbs ∧ (s.stageW w).hitQ = s.hitQ ∧ (s.stageW w).hitEnd = s.hitEnd ∧
    (s.stageW w).tallyPage = s.tallyPage ∧ (s.stageW w).tallyGeom = s.tallyGeom ∧ (s.stageW w).frames = s.frames ∧
    (s.stageW w).framePub = s.framePub ∧ (s.stageW w).ports = s.ports ∧ (s.stageW w).strms = s.strms ∧
    (s.stageW w).hostqs = s.hostqs ∧ (s.stageW w).dmaTurn = s.dmaTurn ∧ (s.stageW w).msix = s.msix ∧
    (s.stageW w).disp = s.disp ∧ (s.stageW w).tap = s.tap ∧ (s.stageW w).cfgReady = s.cfgReady ∧
    (s.stageW w).clk = s.clk ∧ (s.stageW w).epochs = s.epochs ∧ (s.stageW w).timeDue = s.timeDue ∧
    (s.stageW w).pnom = s.pnom ∧ (s.stageW w).servo = s.servo ∧ (s.stageW w).stage = s.stage ∧ (s.stageW w).txq = s.txq ∧
    (s.stageW w).ptp = s.ptp ∧ (s.stageW w).evs = s.evs ∧ (s.stageW w).cal = s.cal ∧ (s.stageW w).svc = s.svc ∧
    (s.stageW w).keeper = s.keeper ∧ (s.stageW w).pwr = s.pwr ∧ (s.stageW w).twin = s.twin ∧ (s.stageW w).log = s.log ∧
    (s.stageW w).smb = s.smb :=
  by and_intros <;> rfl

@[simp] theorem State.takeSpace_frame (s : State) (b : Nat) :
    (s.takeSpace b).pending = s.pending ∧ (s.takeSpace b).out = s.out ∧ (s.takeSpace b).free = s.free ∧
    (s.takeSpace b).lcnt = s.lcnt ∧ (s.takeSpace b).tick = s.tick ∧ (s.takeSpace b).regs = s.regs ∧
    (s.takeSpace b).hist = s.hist ∧ (s.takeSpace b).shadow = s.shadow ∧ (s.takeSpace b).latch = s.latch ∧
    (s.takeSpace b).held = s.held ∧ (s.takeSpace b).commit = s.commit ∧ (s.takeSpace b).loader = s.loader ∧
    (s.takeSpace b).armPlan = s.armPlan ∧ (s.takeSpace b).flash = s.flash ∧ (s.takeSpace b).flashOps = s.flashOps ∧
    (s.takeSpace b).chans = s.chans ∧ (s.takeSpace b).words = s.words ∧ (s.takeSpace b).chains = s.chains ∧
    (s.takeSpace b).acs = s.acs ∧ (s.takeSpace b).dcs = s.dcs ∧ (s.takeSpace b).ints = s.ints ∧
    (s.takeSpace b).intSwaps = s.intSwaps ∧ (s.takeSpace b).grps = s.grps ∧ (s.takeSpace b).store = s.store ∧
    (s.takeSpace b).stageFill = s.stageFill ∧ (s.takeSpace b).stageDrain = s.stageDrain ∧
    (s.takeSpace b).drainData = s.drainData ∧ (s.takeSpace b).sto = s.sto ∧ (s.takeSpace b).abaQ = s.abaQ ∧
    (s.takeSpace b).abaSkip = s.abaSkip ∧ (s.takeSpace b).abaEnd = s.abaEnd ∧ (s.takeSpace b).avgs = s.avgs ∧
    (s.takeSpace b).dbs = s.dbs ∧ (s.takeSpace b).hitQ = s.hitQ ∧ (s.takeSpace b).hitEnd = s.hitEnd ∧
    (s.takeSpace b).tallyPage = s.tallyPage ∧ (s.takeSpace b).tallyGeom = s.tallyGeom ∧
    (s.takeSpace b).frames = s.frames ∧ (s.takeSpace b).framePub = s.framePub ∧ (s.takeSpace b).ports = s.ports ∧
    (s.takeSpace b).strms = s.strms ∧ (s.takeSpace b).hostqs = s.hostqs ∧ (s.takeSpace b).dmaTurn = s.dmaTurn ∧
    (s.takeSpace b).msix = s.msix ∧ (s.takeSpace b).disp = s.disp ∧ (s.takeSpace b).tap = s.tap ∧
    (s.takeSpace b).cfgReady = s.cfgReady ∧ (s.takeSpace b).clk = s.clk ∧ (s.takeSpace b).epochs = s.epochs ∧
    (s.takeSpace b).timeDue = s.timeDue ∧ (s.takeSpace b).pnom = s.pnom ∧ (s.takeSpace b).servo = s.servo ∧
    (s.takeSpace b).stage = s.stage ∧ (s.takeSpace b).txq = s.txq ∧ (s.takeSpace b).ptp = s.ptp ∧
    (s.takeSpace b).evs = s.evs ∧ (s.takeSpace b).cal = s.cal ∧ (s.takeSpace b).svc = s.svc ∧
    (s.takeSpace b).keeper = s.keeper ∧ (s.takeSpace b).pwr = s.pwr ∧ (s.takeSpace b).twin = s.twin ∧
    (s.takeSpace b).log = s.log ∧ (s.takeSpace b).smb = s.smb :=
  by and_intros <;> rfl

@[simp] theorem State.setChan_frame (s : State) (n : Nat) (v : Chan) :
    (s.setChan n v).pending = s.pending ∧ (s.setChan n v).out = s.out ∧ (s.setChan n v).free = s.free ∧
    (s.setChan n v).lcnt = s.lcnt ∧ (s.setChan n v).tick = s.tick ∧ (s.setChan n v).regs = s.regs ∧
    (s.setChan n v).hist = s.hist ∧ (s.setChan n v).shadow = s.shadow ∧ (s.setChan n v).latch = s.latch ∧
    (s.setChan n v).held = s.held ∧ (s.setChan n v).commit = s.commit ∧ (s.setChan n v).loader = s.loader ∧
    (s.setChan n v).armPlan = s.armPlan ∧ (s.setChan n v).flash = s.flash ∧ (s.setChan n v).flashOps = s.flashOps ∧
    (s.setChan n v).words = s.words ∧ (s.setChan n v).chains = s.chains ∧ (s.setChan n v).acs = s.acs ∧
    (s.setChan n v).dcs = s.dcs ∧ (s.setChan n v).ints = s.ints ∧ (s.setChan n v).intSwaps = s.intSwaps ∧
    (s.setChan n v).grps = s.grps ∧ (s.setChan n v).store = s.store ∧ (s.setChan n v).stageFill = s.stageFill ∧
    (s.setChan n v).stageDrain = s.stageDrain ∧ (s.setChan n v).fillData = s.fillData ∧
    (s.setChan n v).drainData = s.drainData ∧ (s.setChan n v).sto = s.sto ∧ (s.setChan n v).abaQ = s.abaQ ∧
    (s.setChan n v).abaSkip = s.abaSkip ∧ (s.setChan n v).abaEnd = s.abaEnd ∧ (s.setChan n v).avgs = s.avgs ∧
    (s.setChan n v).dbs = s.dbs ∧ (s.setChan n v).hitQ = s.hitQ ∧ (s.setChan n v).hitEnd = s.hitEnd ∧
    (s.setChan n v).tallyPage = s.tallyPage ∧ (s.setChan n v).tallyGeom = s.tallyGeom ∧
    (s.setChan n v).frames = s.frames ∧ (s.setChan n v).framePub = s.framePub ∧ (s.setChan n v).ports = s.ports ∧
    (s.setChan n v).strms = s.strms ∧ (s.setChan n v).hostqs = s.hostqs ∧ (s.setChan n v).dmaTurn = s.dmaTurn ∧
    (s.setChan n v).msix = s.msix ∧ (s.setChan n v).disp = s.disp ∧ (s.setChan n v).tap = s.tap ∧
    (s.setChan n v).cfgReady = s.cfgReady ∧ (s.setChan n v).clk = s.clk ∧ (s.setChan n v).epochs = s.epochs ∧
    (s.setChan n v).timeDue = s.timeDue ∧ (s.setChan n v).pnom = s.pnom ∧ (s.setChan n v).servo = s.servo ∧
    (s.setChan n v).stage = s.stage ∧ (s.setChan n v).txq = s.txq ∧ (s.setChan n v).ptp = s.ptp ∧
    (s.setChan n v).evs = s.evs ∧ (s.setChan n v).cal = s.cal ∧ (s.setChan n v).svc = s.svc ∧
    (s.setChan n v).keeper = s.keeper ∧ (s.setChan n v).pwr = s.pwr ∧ (s.setChan n v).twin = s.twin ∧
    (s.setChan n v).log = s.log ∧ (s.setChan n v).smb = s.smb :=
  by and_intros <;> rfl

@[simp] theorem State.setChain_frame (s : State) (n : Nat) (v : Chain) :
    (s.setChain n v).pending = s.pending ∧ (s.setChain n v).out = s.out ∧ (s.setChain n v).free = s.free ∧
    (s.setChain n v).lcnt = s.lcnt ∧ (s.setChain n v).tick = s.tick ∧ (s.setChain n v).regs = s.regs ∧
    (s.setChain n v).hist = s.hist ∧ (s.setChain n v).shadow = s.shadow ∧ (s.setChain n v).latch = s.latch ∧
    (s.setChain n v).held = s.held ∧ (s.setChain n v).commit = s.commit ∧ (s.setChain n v).loader = s.loader ∧
    (s.setChain n v).armPlan = s.armPlan ∧ (s.setChain n v).flash = s.flash ∧ (s.setChain n v).flashOps = s.flashOps ∧
    (s.setChain n v).chans = s.chans ∧ (s.setChain n v).words = s.words ∧ (s.setChain n v).acs = s.acs ∧
    (s.setChain n v).dcs = s.dcs ∧ (s.setChain n v).ints = s.ints ∧ (s.setChain n v).intSwaps = s.intSwaps ∧
    (s.setChain n v).grps = s.grps ∧ (s.setChain n v).store = s.store ∧ (s.setChain n v).stageFill = s.stageFill ∧
    (s.setChain n v).stageDrain = s.stageDrain ∧ (s.setChain n v).fillData = s.fillData ∧
    (s.setChain n v).drainData = s.drainData ∧ (s.setChain n v).sto = s.sto ∧ (s.setChain n v).abaQ = s.abaQ ∧
    (s.setChain n v).abaSkip = s.abaSkip ∧ (s.setChain n v).abaEnd = s.abaEnd ∧ (s.setChain n v).avgs = s.avgs ∧
    (s.setChain n v).dbs = s.dbs ∧ (s.setChain n v).hitQ = s.hitQ ∧ (s.setChain n v).hitEnd = s.hitEnd ∧
    (s.setChain n v).tallyPage = s.tallyPage ∧ (s.setChain n v).tallyGeom = s.tallyGeom ∧
    (s.setChain n v).frames = s.frames ∧ (s.setChain n v).framePub = s.framePub ∧ (s.setChain n v).ports = s.ports ∧
    (s.setChain n v).strms = s.strms ∧ (s.setChain n v).hostqs = s.hostqs ∧ (s.setChain n v).dmaTurn = s.dmaTurn ∧
    (s.setChain n v).msix = s.msix ∧ (s.setChain n v).disp = s.disp ∧ (s.setChain n v).tap = s.tap ∧
    (s.setChain n v).cfgReady = s.cfgReady ∧ (s.setChain n v).clk = s.clk ∧ (s.setChain n v).epochs = s.epochs ∧
    (s.setChain n v).timeDue = s.timeDue ∧ (s.setChain n v).pnom = s.pnom ∧ (s.setChain n v).servo = s.servo ∧
    (s.setChain n v).stage = s.stage ∧ (s.setChain n v).txq = s.txq ∧ (s.setChain n v).ptp = s.ptp ∧
    (s.setChain n v).evs = s.evs ∧ (s.setChain n v).cal = s.cal ∧ (s.setChain n v).svc = s.svc ∧
    (s.setChain n v).keeper = s.keeper ∧ (s.setChain n v).pwr = s.pwr ∧ (s.setChain n v).twin = s.twin ∧
    (s.setChain n v).log = s.log ∧ (s.setChain n v).smb = s.smb :=
  by and_intros <;> rfl

@[simp] theorem State.setAc_frame (s : State) (n : Nat) (v : Ac) :
    (s.setAc n v).pending = s.pending ∧ (s.setAc n v).out = s.out ∧ (s.setAc n v).free = s.free ∧
    (s.setAc n v).lcnt = s.lcnt ∧ (s.setAc n v).tick = s.tick ∧ (s.setAc n v).regs = s.regs ∧
    (s.setAc n v).hist = s.hist ∧ (s.setAc n v).shadow = s.shadow ∧ (s.setAc n v).latch = s.latch ∧
    (s.setAc n v).held = s.held ∧ (s.setAc n v).commit = s.commit ∧ (s.setAc n v).loader = s.loader ∧
    (s.setAc n v).armPlan = s.armPlan ∧ (s.setAc n v).flash = s.flash ∧ (s.setAc n v).flashOps = s.flashOps ∧
    (s.setAc n v).chans = s.chans ∧ (s.setAc n v).words = s.words ∧ (s.setAc n v).chains = s.chains ∧
    (s.setAc n v).dcs = s.dcs ∧ (s.setAc n v).ints = s.ints ∧ (s.setAc n v).intSwaps = s.intSwaps ∧
    (s.setAc n v).grps = s.grps ∧ (s.setAc n v).store = s.store ∧ (s.setAc n v).stageFill = s.stageFill ∧
    (s.setAc n v).stageDrain = s.stageDrain ∧ (s.setAc n v).fillData = s.fillData ∧
    (s.setAc n v).drainData = s.drainData ∧ (s.setAc n v).sto = s.sto ∧ (s.setAc n v).abaQ = s.abaQ ∧
    (s.setAc n v).abaSkip = s.abaSkip ∧ (s.setAc n v).abaEnd = s.abaEnd ∧ (s.setAc n v).avgs = s.avgs ∧
    (s.setAc n v).dbs = s.dbs ∧ (s.setAc n v).hitQ = s.hitQ ∧ (s.setAc n v).hitEnd = s.hitEnd ∧
    (s.setAc n v).tallyPage = s.tallyPage ∧ (s.setAc n v).tallyGeom = s.tallyGeom ∧ (s.setAc n v).frames = s.frames ∧
    (s.setAc n v).framePub = s.framePub ∧ (s.setAc n v).ports = s.ports ∧ (s.setAc n v).strms = s.strms ∧
    (s.setAc n v).hostqs = s.hostqs ∧ (s.setAc n v).dmaTurn = s.dmaTurn ∧ (s.setAc n v).msix = s.msix ∧
    (s.setAc n v).disp = s.disp ∧ (s.setAc n v).tap = s.tap ∧ (s.setAc n v).cfgReady = s.cfgReady ∧
    (s.setAc n v).clk = s.clk ∧ (s.setAc n v).epochs = s.epochs ∧ (s.setAc n v).timeDue = s.timeDue ∧
    (s.setAc n v).pnom = s.pnom ∧ (s.setAc n v).servo = s.servo ∧ (s.setAc n v).stage = s.stage ∧
    (s.setAc n v).txq = s.txq ∧ (s.setAc n v).ptp = s.ptp ∧ (s.setAc n v).evs = s.evs ∧ (s.setAc n v).cal = s.cal ∧
    (s.setAc n v).svc = s.svc ∧ (s.setAc n v).keeper = s.keeper ∧ (s.setAc n v).pwr = s.pwr ∧
    (s.setAc n v).twin = s.twin ∧ (s.setAc n v).log = s.log ∧ (s.setAc n v).smb = s.smb :=
  by and_intros <;> rfl

@[simp] theorem State.setDc_frame (s : State) (n : Nat) (v : Dc) :
    (s.setDc n v).pending = s.pending ∧ (s.setDc n v).out = s.out ∧ (s.setDc n v).free = s.free ∧
    (s.setDc n v).lcnt = s.lcnt ∧ (s.setDc n v).tick = s.tick ∧ (s.setDc n v).regs = s.regs ∧
    (s.setDc n v).hist = s.hist ∧ (s.setDc n v).shadow = s.shadow ∧ (s.setDc n v).latch = s.latch ∧
    (s.setDc n v).held = s.held ∧ (s.setDc n v).commit = s.commit ∧ (s.setDc n v).loader = s.loader ∧
    (s.setDc n v).armPlan = s.armPlan ∧ (s.setDc n v).flash = s.flash ∧ (s.setDc n v).flashOps = s.flashOps ∧
    (s.setDc n v).chans = s.chans ∧ (s.setDc n v).words = s.words ∧ (s.setDc n v).chains = s.chains ∧
    (s.setDc n v).acs = s.acs ∧ (s.setDc n v).ints = s.ints ∧ (s.setDc n v).intSwaps = s.intSwaps ∧
    (s.setDc n v).grps = s.grps ∧ (s.setDc n v).store = s.store ∧ (s.setDc n v).stageFill = s.stageFill ∧
    (s.setDc n v).stageDrain = s.stageDrain ∧ (s.setDc n v).fillData = s.fillData ∧
    (s.setDc n v).drainData = s.drainData ∧ (s.setDc n v).sto = s.sto ∧ (s.setDc n v).abaQ = s.abaQ ∧
    (s.setDc n v).abaSkip = s.abaSkip ∧ (s.setDc n v).abaEnd = s.abaEnd ∧ (s.setDc n v).avgs = s.avgs ∧
    (s.setDc n v).dbs = s.dbs ∧ (s.setDc n v).hitQ = s.hitQ ∧ (s.setDc n v).hitEnd = s.hitEnd ∧
    (s.setDc n v).tallyPage = s.tallyPage ∧ (s.setDc n v).tallyGeom = s.tallyGeom ∧ (s.setDc n v).frames = s.frames ∧
    (s.setDc n v).framePub = s.framePub ∧ (s.setDc n v).ports = s.ports ∧ (s.setDc n v).strms = s.strms ∧
    (s.setDc n v).hostqs = s.hostqs ∧ (s.setDc n v).dmaTurn = s.dmaTurn ∧ (s.setDc n v).msix = s.msix ∧
    (s.setDc n v).disp = s.disp ∧ (s.setDc n v).tap = s.tap ∧ (s.setDc n v).cfgReady = s.cfgReady ∧
    (s.setDc n v).clk = s.clk ∧ (s.setDc n v).epochs = s.epochs ∧ (s.setDc n v).timeDue = s.timeDue ∧
    (s.setDc n v).pnom = s.pnom ∧ (s.setDc n v).servo = s.servo ∧ (s.setDc n v).stage = s.stage ∧
    (s.setDc n v).txq = s.txq ∧ (s.setDc n v).ptp = s.ptp ∧ (s.setDc n v).evs = s.evs ∧ (s.setDc n v).cal = s.cal ∧
    (s.setDc n v).svc = s.svc ∧ (s.setDc n v).keeper = s.keeper ∧ (s.setDc n v).pwr = s.pwr ∧
    (s.setDc n v).twin = s.twin ∧ (s.setDc n v).log = s.log ∧ (s.setDc n v).smb = s.smb :=
  by and_intros <;> rfl

@[simp] theorem State.setIp_frame (s : State) (n : Nat) (v : Ip) :
    (s.setIp n v).pending = s.pending ∧ (s.setIp n v).out = s.out ∧ (s.setIp n v).free = s.free ∧
    (s.setIp n v).lcnt = s.lcnt ∧ (s.setIp n v).tick = s.tick ∧ (s.setIp n v).regs = s.regs ∧
    (s.setIp n v).hist = s.hist ∧ (s.setIp n v).shadow = s.shadow ∧ (s.setIp n v).latch = s.latch ∧
    (s.setIp n v).held = s.held ∧ (s.setIp n v).commit = s.commit ∧ (s.setIp n v).loader = s.loader ∧
    (s.setIp n v).armPlan = s.armPlan ∧ (s.setIp n v).flash = s.flash ∧ (s.setIp n v).flashOps = s.flashOps ∧
    (s.setIp n v).chans = s.chans ∧ (s.setIp n v).words = s.words ∧ (s.setIp n v).chains = s.chains ∧
    (s.setIp n v).acs = s.acs ∧ (s.setIp n v).dcs = s.dcs ∧ (s.setIp n v).intSwaps = s.intSwaps ∧
    (s.setIp n v).grps = s.grps ∧ (s.setIp n v).store = s.store ∧ (s.setIp n v).stageFill = s.stageFill ∧
    (s.setIp n v).stageDrain = s.stageDrain ∧ (s.setIp n v).fillData = s.fillData ∧
    (s.setIp n v).drainData = s.drainData ∧ (s.setIp n v).sto = s.sto ∧ (s.setIp n v).abaQ = s.abaQ ∧
    (s.setIp n v).abaSkip = s.abaSkip ∧ (s.setIp n v).abaEnd = s.abaEnd ∧ (s.setIp n v).avgs = s.avgs ∧
    (s.setIp n v).dbs = s.dbs ∧ (s.setIp n v).hitQ = s.hitQ ∧ (s.setIp n v).hitEnd = s.hitEnd ∧
    (s.setIp n v).tallyPage = s.tallyPage ∧ (s.setIp n v).tallyGeom = s.tallyGeom ∧ (s.setIp n v).frames = s.frames ∧
    (s.setIp n v).framePub = s.framePub ∧ (s.setIp n v).ports = s.ports ∧ (s.setIp n v).strms = s.strms ∧
    (s.setIp n v).hostqs = s.hostqs ∧ (s.setIp n v).dmaTurn = s.dmaTurn ∧ (s.setIp n v).msix = s.msix ∧
    (s.setIp n v).disp = s.disp ∧ (s.setIp n v).tap = s.tap ∧ (s.setIp n v).cfgReady = s.cfgReady ∧
    (s.setIp n v).clk = s.clk ∧ (s.setIp n v).epochs = s.epochs ∧ (s.setIp n v).timeDue = s.timeDue ∧
    (s.setIp n v).pnom = s.pnom ∧ (s.setIp n v).servo = s.servo ∧ (s.setIp n v).stage = s.stage ∧
    (s.setIp n v).txq = s.txq ∧ (s.setIp n v).ptp = s.ptp ∧ (s.setIp n v).evs = s.evs ∧ (s.setIp n v).cal = s.cal ∧
    (s.setIp n v).svc = s.svc ∧ (s.setIp n v).keeper = s.keeper ∧ (s.setIp n v).pwr = s.pwr ∧
    (s.setIp n v).twin = s.twin ∧ (s.setIp n v).log = s.log ∧ (s.setIp n v).smb = s.smb :=
  by and_intros <;> rfl

@[simp] theorem State.setGrp_frame (s : State) (g : Nat) (v : Grp) :
    (s.setGrp g v).pending = s.pending ∧ (s.setGrp g v).out = s.out ∧ (s.setGrp g v).free = s.free ∧
    (s.setGrp g v).lcnt = s.lcnt ∧ (s.setGrp g v).tick = s.tick ∧ (s.setGrp g v).regs = s.regs ∧
    (s.setGrp g v).hist = s.hist ∧ (s.setGrp g v).shadow = s.shadow ∧ (s.setGrp g v).latch = s.latch ∧
    (s.setGrp g v).held = s.held ∧ (s.setGrp g v).commit = s.commit ∧ (s.setGrp g v).loader = s.loader ∧
    (s.setGrp g v).armPlan = s.armPlan ∧ (s.setGrp g v).flash = s.flash ∧ (s.setGrp g v).flashOps = s.flashOps ∧
    (s.setGrp g v).chans = s.chans ∧ (s.setGrp g v).words = s.words ∧ (s.setGrp g v).chains = s.chains ∧
    (s.setGrp g v).acs = s.acs ∧ (s.setGrp g v).dcs = s.dcs ∧ (s.setGrp g v).ints = s.ints ∧
    (s.setGrp g v).intSwaps = s.intSwaps ∧ (s.setGrp g v).store = s.store ∧ (s.setGrp g v).stageFill = s.stageFill ∧
    (s.setGrp g v).stageDrain = s.stageDrain ∧ (s.setGrp g v).fillData = s.fillData ∧
    (s.setGrp g v).drainData = s.drainData ∧ (s.setGrp g v).sto = s.sto ∧ (s.setGrp g v).abaQ = s.abaQ ∧
    (s.setGrp g v).abaSkip = s.abaSkip ∧ (s.setGrp g v).abaEnd = s.abaEnd ∧ (s.setGrp g v).avgs = s.avgs ∧
    (s.setGrp g v).dbs = s.dbs ∧ (s.setGrp g v).hitQ = s.hitQ ∧ (s.setGrp g v).hitEnd = s.hitEnd ∧
    (s.setGrp g v).tallyPage = s.tallyPage ∧ (s.setGrp g v).tallyGeom = s.tallyGeom ∧ (s.setGrp g v).frames = s.frames ∧
    (s.setGrp g v).framePub = s.framePub ∧ (s.setGrp g v).ports = s.ports ∧ (s.setGrp g v).strms = s.strms ∧
    (s.setGrp g v).hostqs = s.hostqs ∧ (s.setGrp g v).dmaTurn = s.dmaTurn ∧ (s.setGrp g v).msix = s.msix ∧
    (s.setGrp g v).disp = s.disp ∧ (s.setGrp g v).tap = s.tap ∧ (s.setGrp g v).cfgReady = s.cfgReady ∧
    (s.setGrp g v).clk = s.clk ∧ (s.setGrp g v).epochs = s.epochs ∧ (s.setGrp g v).timeDue = s.timeDue ∧
    (s.setGrp g v).pnom = s.pnom ∧ (s.setGrp g v).servo = s.servo ∧ (s.setGrp g v).stage = s.stage ∧
    (s.setGrp g v).txq = s.txq ∧ (s.setGrp g v).ptp = s.ptp ∧ (s.setGrp g v).evs = s.evs ∧ (s.setGrp g v).cal = s.cal ∧
    (s.setGrp g v).svc = s.svc ∧ (s.setGrp g v).keeper = s.keeper ∧ (s.setGrp g v).pwr = s.pwr ∧
    (s.setGrp g v).twin = s.twin ∧ (s.setGrp g v).log = s.log ∧ (s.setGrp g v).smb = s.smb :=
  by and_intros <;> rfl

@[simp] theorem State.setAvg_frame (s : State) (g : Nat) (v : Avg) :
    (s.setAvg g v).pending = s.pending ∧ (s.setAvg g v).out = s.out ∧ (s.setAvg g v).free = s.free ∧
    (s.setAvg g v).lcnt = s.lcnt ∧ (s.setAvg g v).tick = s.tick ∧ (s.setAvg g v).regs = s.regs ∧
    (s.setAvg g v).hist = s.hist ∧ (s.setAvg g v).shadow = s.shadow ∧ (s.setAvg g v).latch = s.latch ∧
    (s.setAvg g v).held = s.held ∧ (s.setAvg g v).commit = s.commit ∧ (s.setAvg g v).loader = s.loader ∧
    (s.setAvg g v).armPlan = s.armPlan ∧ (s.setAvg g v).flash = s.flash ∧ (s.setAvg g v).flashOps = s.flashOps ∧
    (s.setAvg g v).chans = s.chans ∧ (s.setAvg g v).words = s.words ∧ (s.setAvg g v).chains = s.chains ∧
    (s.setAvg g v).acs = s.acs ∧ (s.setAvg g v).dcs = s.dcs ∧ (s.setAvg g v).ints = s.ints ∧
    (s.setAvg g v).intSwaps = s.intSwaps ∧ (s.setAvg g v).grps = s.grps ∧ (s.setAvg g v).store = s.store ∧
    (s.setAvg g v).stageFill = s.stageFill ∧ (s.setAvg g v).stageDrain = s.stageDrain ∧
    (s.setAvg g v).fillData = s.fillData ∧ (s.setAvg g v).drainData = s.drainData ∧ (s.setAvg g v).sto = s.sto ∧
    (s.setAvg g v).abaQ = s.abaQ ∧ (s.setAvg g v).abaSkip = s.abaSkip ∧ (s.setAvg g v).abaEnd = s.abaEnd ∧
    (s.setAvg g v).dbs = s.dbs ∧ (s.setAvg g v).hitQ = s.hitQ ∧ (s.setAvg g v).hitEnd = s.hitEnd ∧
    (s.setAvg g v).tallyPage = s.tallyPage ∧ (s.setAvg g v).tallyGeom = s.tallyGeom ∧ (s.setAvg g v).frames = s.frames ∧
    (s.setAvg g v).framePub = s.framePub ∧ (s.setAvg g v).ports = s.ports ∧ (s.setAvg g v).strms = s.strms ∧
    (s.setAvg g v).hostqs = s.hostqs ∧ (s.setAvg g v).dmaTurn = s.dmaTurn ∧ (s.setAvg g v).msix = s.msix ∧
    (s.setAvg g v).disp = s.disp ∧ (s.setAvg g v).tap = s.tap ∧ (s.setAvg g v).cfgReady = s.cfgReady ∧
    (s.setAvg g v).clk = s.clk ∧ (s.setAvg g v).epochs = s.epochs ∧ (s.setAvg g v).timeDue = s.timeDue ∧
    (s.setAvg g v).pnom = s.pnom ∧ (s.setAvg g v).servo = s.servo ∧ (s.setAvg g v).stage = s.stage ∧
    (s.setAvg g v).txq = s.txq ∧ (s.setAvg g v).ptp = s.ptp ∧ (s.setAvg g v).evs = s.evs ∧ (s.setAvg g v).cal = s.cal ∧
    (s.setAvg g v).svc = s.svc ∧ (s.setAvg g v).keeper = s.keeper ∧ (s.setAvg g v).pwr = s.pwr ∧
    (s.setAvg g v).twin = s.twin ∧ (s.setAvg g v).log = s.log ∧ (s.setAvg g v).smb = s.smb :=
  by and_intros <;> rfl

@[simp] theorem State.setDb_frame (s : State) (d : Nat) (v : Db) :
    (s.setDb d v).pending = s.pending ∧ (s.setDb d v).out = s.out ∧ (s.setDb d v).free = s.free ∧
    (s.setDb d v).lcnt = s.lcnt ∧ (s.setDb d v).tick = s.tick ∧ (s.setDb d v).regs = s.regs ∧
    (s.setDb d v).hist = s.hist ∧ (s.setDb d v).shadow = s.shadow ∧ (s.setDb d v).latch = s.latch ∧
    (s.setDb d v).held = s.held ∧ (s.setDb d v).commit = s.commit ∧ (s.setDb d v).loader = s.loader ∧
    (s.setDb d v).armPlan = s.armPlan ∧ (s.setDb d v).flash = s.flash ∧ (s.setDb d v).flashOps = s.flashOps ∧
    (s.setDb d v).chans = s.chans ∧ (s.setDb d v).words = s.words ∧ (s.setDb d v).chains = s.chains ∧
    (s.setDb d v).acs = s.acs ∧ (s.setDb d v).dcs = s.dcs ∧ (s.setDb d v).ints = s.ints ∧
    (s.setDb d v).intSwaps = s.intSwaps ∧ (s.setDb d v).grps = s.grps ∧ (s.setDb d v).store = s.store ∧
    (s.setDb d v).stageFill = s.stageFill ∧ (s.setDb d v).stageDrain = s.stageDrain ∧
    (s.setDb d v).fillData = s.fillData ∧ (s.setDb d v).drainData = s.drainData ∧ (s.setDb d v).sto = s.sto ∧
    (s.setDb d v).abaQ = s.abaQ ∧ (s.setDb d v).abaSkip = s.abaSkip ∧ (s.setDb d v).abaEnd = s.abaEnd ∧
    (s.setDb d v).avgs = s.avgs ∧ (s.setDb d v).hitQ = s.hitQ ∧ (s.setDb d v).hitEnd = s.hitEnd ∧
    (s.setDb d v).tallyPage = s.tallyPage ∧ (s.setDb d v).tallyGeom = s.tallyGeom ∧ (s.setDb d v).frames = s.frames ∧
    (s.setDb d v).framePub = s.framePub ∧ (s.setDb d v).ports = s.ports ∧ (s.setDb d v).strms = s.strms ∧
    (s.setDb d v).hostqs = s.hostqs ∧ (s.setDb d v).dmaTurn = s.dmaTurn ∧ (s.setDb d v).msix = s.msix ∧
    (s.setDb d v).disp = s.disp ∧ (s.setDb d v).tap = s.tap ∧ (s.setDb d v).cfgReady = s.cfgReady ∧
    (s.setDb d v).clk = s.clk ∧ (s.setDb d v).epochs = s.epochs ∧ (s.setDb d v).timeDue = s.timeDue ∧
    (s.setDb d v).pnom = s.pnom ∧ (s.setDb d v).servo = s.servo ∧ (s.setDb d v).stage = s.stage ∧
    (s.setDb d v).txq = s.txq ∧ (s.setDb d v).ptp = s.ptp ∧ (s.setDb d v).evs = s.evs ∧ (s.setDb d v).cal = s.cal ∧
    (s.setDb d v).svc = s.svc ∧ (s.setDb d v).keeper = s.keeper ∧ (s.setDb d v).pwr = s.pwr ∧
    (s.setDb d v).twin = s.twin ∧ (s.setDb d v).log = s.log ∧ (s.setDb d v).smb = s.smb :=
  by and_intros <;> rfl

@[simp] theorem State.setEv_frame (s : State) (k : Nat) (v : Ev) :
    (s.setEv k v).pending = s.pending ∧ (s.setEv k v).out = s.out ∧ (s.setEv k v).free = s.free ∧
    (s.setEv k v).lcnt = s.lcnt ∧ (s.setEv k v).tick = s.tick ∧ (s.setEv k v).regs = s.regs ∧
    (s.setEv k v).hist = s.hist ∧ (s.setEv k v).shadow = s.shadow ∧ (s.setEv k v).latch = s.latch ∧
    (s.setEv k v).held = s.held ∧ (s.setEv k v).commit = s.commit ∧ (s.setEv k v).loader = s.loader ∧
    (s.setEv k v).armPlan = s.armPlan ∧ (s.setEv k v).flash = s.flash ∧ (s.setEv k v).flashOps = s.flashOps ∧
    (s.setEv k v).chans = s.chans ∧ (s.setEv k v).words = s.words ∧ (s.setEv k v).chains = s.chains ∧
    (s.setEv k v).acs = s.acs ∧ (s.setEv k v).dcs = s.dcs ∧ (s.setEv k v).ints = s.ints ∧
    (s.setEv k v).intSwaps = s.intSwaps ∧ (s.setEv k v).grps = s.grps ∧ (s.setEv k v).store = s.store ∧
    (s.setEv k v).stageFill = s.stageFill ∧ (s.setEv k v).stageDrain = s.stageDrain ∧
    (s.setEv k v).fillData = s.fillData ∧ (s.setEv k v).drainData = s.drainData ∧ (s.setEv k v).sto = s.sto ∧
    (s.setEv k v).abaQ = s.abaQ ∧ (s.setEv k v).abaSkip = s.abaSkip ∧ (s.setEv k v).abaEnd = s.abaEnd ∧
    (s.setEv k v).avgs = s.avgs ∧ (s.setEv k v).dbs = s.dbs ∧ (s.setEv k v).hitQ = s.hitQ ∧
    (s.setEv k v).hitEnd = s.hitEnd ∧ (s.setEv k v).tallyPage = s.tallyPage ∧ (s.setEv k v).tallyGeom = s.tallyGeom ∧
    (s.setEv k v).frames = s.frames ∧ (s.setEv k v).framePub = s.framePub ∧ (s.setEv k v).ports = s.ports ∧
    (s.setEv k v).strms = s.strms ∧ (s.setEv k v).hostqs = s.hostqs ∧ (s.setEv k v).dmaTurn = s.dmaTurn ∧
    (s.setEv k v).msix = s.msix ∧ (s.setEv k v).disp = s.disp ∧ (s.setEv k v).tap = s.tap ∧
    (s.setEv k v).cfgReady = s.cfgReady ∧ (s.setEv k v).clk = s.clk ∧ (s.setEv k v).epochs = s.epochs ∧
    (s.setEv k v).timeDue = s.timeDue ∧ (s.setEv k v).pnom = s.pnom ∧ (s.setEv k v).servo = s.servo ∧
    (s.setEv k v).stage = s.stage ∧ (s.setEv k v).txq = s.txq ∧ (s.setEv k v).ptp = s.ptp ∧ (s.setEv k v).cal = s.cal ∧
    (s.setEv k v).svc = s.svc ∧ (s.setEv k v).keeper = s.keeper ∧ (s.setEv k v).pwr = s.pwr ∧
    (s.setEv k v).twin = s.twin ∧ (s.setEv k v).log = s.log ∧ (s.setEv k v).smb = s.smb :=
  by and_intros <;> rfl

@[simp] theorem State.setPort_frame (s : State) (p : Nat) (v : Port) :
    (s.setPort p v).pending = s.pending ∧ (s.setPort p v).out = s.out ∧ (s.setPort p v).free = s.free ∧
    (s.setPort p v).lcnt = s.lcnt ∧ (s.setPort p v).tick = s.tick ∧ (s.setPort p v).regs = s.regs ∧
    (s.setPort p v).hist = s.hist ∧ (s.setPort p v).shadow = s.shadow ∧ (s.setPort p v).latch = s.latch ∧
    (s.setPort p v).held = s.held ∧ (s.setPort p v).commit = s.commit ∧ (s.setPort p v).loader = s.loader ∧
    (s.setPort p v).armPlan = s.armPlan ∧ (s.setPort p v).flash = s.flash ∧ (s.setPort p v).flashOps = s.flashOps ∧
    (s.setPort p v).chans = s.chans ∧ (s.setPort p v).words = s.words ∧ (s.setPort p v).chains = s.chains ∧
    (s.setPort p v).acs = s.acs ∧ (s.setPort p v).dcs = s.dcs ∧ (s.setPort p v).ints = s.ints ∧
    (s.setPort p v).intSwaps = s.intSwaps ∧ (s.setPort p v).grps = s.grps ∧ (s.setPort p v).store = s.store ∧
    (s.setPort p v).stageFill = s.stageFill ∧ (s.setPort p v).stageDrain = s.stageDrain ∧
    (s.setPort p v).fillData = s.fillData ∧ (s.setPort p v).drainData = s.drainData ∧ (s.setPort p v).sto = s.sto ∧
    (s.setPort p v).abaQ = s.abaQ ∧ (s.setPort p v).abaSkip = s.abaSkip ∧ (s.setPort p v).abaEnd = s.abaEnd ∧
    (s.setPort p v).avgs = s.avgs ∧ (s.setPort p v).dbs = s.dbs ∧ (s.setPort p v).hitQ = s.hitQ ∧
    (s.setPort p v).hitEnd = s.hitEnd ∧ (s.setPort p v).tallyPage = s.tallyPage ∧
    (s.setPort p v).tallyGeom = s.tallyGeom ∧ (s.setPort p v).frames = s.frames ∧ (s.setPort p v).framePub = s.framePub ∧
    (s.setPort p v).strms = s.strms ∧ (s.setPort p v).hostqs = s.hostqs ∧ (s.setPort p v).dmaTurn = s.dmaTurn ∧
    (s.setPort p v).msix = s.msix ∧ (s.setPort p v).disp = s.disp ∧ (s.setPort p v).tap = s.tap ∧
    (s.setPort p v).cfgReady = s.cfgReady ∧ (s.setPort p v).clk = s.clk ∧ (s.setPort p v).epochs = s.epochs ∧
    (s.setPort p v).timeDue = s.timeDue ∧ (s.setPort p v).pnom = s.pnom ∧ (s.setPort p v).servo = s.servo ∧
    (s.setPort p v).stage = s.stage ∧ (s.setPort p v).txq = s.txq ∧ (s.setPort p v).ptp = s.ptp ∧
    (s.setPort p v).evs = s.evs ∧ (s.setPort p v).cal = s.cal ∧ (s.setPort p v).svc = s.svc ∧
    (s.setPort p v).keeper = s.keeper ∧ (s.setPort p v).pwr = s.pwr ∧ (s.setPort p v).twin = s.twin ∧
    (s.setPort p v).log = s.log ∧ (s.setPort p v).smb = s.smb :=
  by and_intros <;> rfl

@[simp] theorem State.setStrm_frame (s : State) (q : Nat) (v : Strm) :
    (s.setStrm q v).pending = s.pending ∧ (s.setStrm q v).out = s.out ∧ (s.setStrm q v).free = s.free ∧
    (s.setStrm q v).lcnt = s.lcnt ∧ (s.setStrm q v).tick = s.tick ∧ (s.setStrm q v).regs = s.regs ∧
    (s.setStrm q v).hist = s.hist ∧ (s.setStrm q v).shadow = s.shadow ∧ (s.setStrm q v).latch = s.latch ∧
    (s.setStrm q v).held = s.held ∧ (s.setStrm q v).commit = s.commit ∧ (s.setStrm q v).loader = s.loader ∧
    (s.setStrm q v).armPlan = s.armPlan ∧ (s.setStrm q v).flash = s.flash ∧ (s.setStrm q v).flashOps = s.flashOps ∧
    (s.setStrm q v).chans = s.chans ∧ (s.setStrm q v).words = s.words ∧ (s.setStrm q v).chains = s.chains ∧
    (s.setStrm q v).acs = s.acs ∧ (s.setStrm q v).dcs = s.dcs ∧ (s.setStrm q v).ints = s.ints ∧
    (s.setStrm q v).intSwaps = s.intSwaps ∧ (s.setStrm q v).grps = s.grps ∧ (s.setStrm q v).store = s.store ∧
    (s.setStrm q v).stageFill = s.stageFill ∧ (s.setStrm q v).stageDrain = s.stageDrain ∧
    (s.setStrm q v).fillData = s.fillData ∧ (s.setStrm q v).drainData = s.drainData ∧ (s.setStrm q v).sto = s.sto ∧
    (s.setStrm q v).abaQ = s.abaQ ∧ (s.setStrm q v).abaSkip = s.abaSkip ∧ (s.setStrm q v).abaEnd = s.abaEnd ∧
    (s.setStrm q v).avgs = s.avgs ∧ (s.setStrm q v).dbs = s.dbs ∧ (s.setStrm q v).hitQ = s.hitQ ∧
    (s.setStrm q v).hitEnd = s.hitEnd ∧ (s.setStrm q v).tallyPage = s.tallyPage ∧
    (s.setStrm q v).tallyGeom = s.tallyGeom ∧ (s.setStrm q v).frames = s.frames ∧ (s.setStrm q v).framePub = s.framePub ∧
    (s.setStrm q v).ports = s.ports ∧ (s.setStrm q v).hostqs = s.hostqs ∧ (s.setStrm q v).dmaTurn = s.dmaTurn ∧
    (s.setStrm q v).msix = s.msix ∧ (s.setStrm q v).disp = s.disp ∧ (s.setStrm q v).tap = s.tap ∧
    (s.setStrm q v).cfgReady = s.cfgReady ∧ (s.setStrm q v).clk = s.clk ∧ (s.setStrm q v).epochs = s.epochs ∧
    (s.setStrm q v).timeDue = s.timeDue ∧ (s.setStrm q v).pnom = s.pnom ∧ (s.setStrm q v).servo = s.servo ∧
    (s.setStrm q v).stage = s.stage ∧ (s.setStrm q v).txq = s.txq ∧ (s.setStrm q v).ptp = s.ptp ∧
    (s.setStrm q v).evs = s.evs ∧ (s.setStrm q v).cal = s.cal ∧ (s.setStrm q v).svc = s.svc ∧
    (s.setStrm q v).keeper = s.keeper ∧ (s.setStrm q v).pwr = s.pwr ∧ (s.setStrm q v).twin = s.twin ∧
    (s.setStrm q v).log = s.log ∧ (s.setStrm q v).smb = s.smb :=
  by and_intros <;> rfl

@[simp] theorem State.setHostq_frame (s : State) (q : Nat) (v : HostQ) :
    (s.setHostq q v).pending = s.pending ∧ (s.setHostq q v).out = s.out ∧ (s.setHostq q v).free = s.free ∧
    (s.setHostq q v).lcnt = s.lcnt ∧ (s.setHostq q v).tick = s.tick ∧ (s.setHostq q v).regs = s.regs ∧
    (s.setHostq q v).hist = s.hist ∧ (s.setHostq q v).shadow = s.shadow ∧ (s.setHostq q v).latch = s.latch ∧
    (s.setHostq q v).held = s.held ∧ (s.setHostq q v).commit = s.commit ∧ (s.setHostq q v).loader = s.loader ∧
    (s.setHostq q v).armPlan = s.armPlan ∧ (s.setHostq q v).flash = s.flash ∧ (s.setHostq q v).flashOps = s.flashOps ∧
    (s.setHostq q v).chans = s.chans ∧ (s.setHostq q v).words = s.words ∧ (s.setHostq q v).chains = s.chains ∧
    (s.setHostq q v).acs = s.acs ∧ (s.setHostq q v).dcs = s.dcs ∧ (s.setHostq q v).ints = s.ints ∧
    (s.setHostq q v).intSwaps = s.intSwaps ∧ (s.setHostq q v).grps = s.grps ∧ (s.setHostq q v).store = s.store ∧
    (s.setHostq q v).stageFill = s.stageFill ∧ (s.setHostq q v).stageDrain = s.stageDrain ∧
    (s.setHostq q v).fillData = s.fillData ∧ (s.setHostq q v).drainData = s.drainData ∧ (s.setHostq q v).sto = s.sto ∧
    (s.setHostq q v).abaQ = s.abaQ ∧ (s.setHostq q v).abaSkip = s.abaSkip ∧ (s.setHostq q v).abaEnd = s.abaEnd ∧
    (s.setHostq q v).avgs = s.avgs ∧ (s.setHostq q v).dbs = s.dbs ∧ (s.setHostq q v).hitQ = s.hitQ ∧
    (s.setHostq q v).hitEnd = s.hitEnd ∧ (s.setHostq q v).tallyPage = s.tallyPage ∧
    (s.setHostq q v).tallyGeom = s.tallyGeom ∧ (s.setHostq q v).frames = s.frames ∧
    (s.setHostq q v).framePub = s.framePub ∧ (s.setHostq q v).ports = s.ports ∧ (s.setHostq q v).strms = s.strms ∧
    (s.setHostq q v).dmaTurn = s.dmaTurn ∧ (s.setHostq q v).msix = s.msix ∧ (s.setHostq q v).disp = s.disp ∧
    (s.setHostq q v).tap = s.tap ∧ (s.setHostq q v).cfgReady = s.cfgReady ∧ (s.setHostq q v).clk = s.clk ∧
    (s.setHostq q v).epochs = s.epochs ∧ (s.setHostq q v).timeDue = s.timeDue ∧ (s.setHostq q v).pnom = s.pnom ∧
    (s.setHostq q v).servo = s.servo ∧ (s.setHostq q v).stage = s.stage ∧ (s.setHostq q v).txq = s.txq ∧
    (s.setHostq q v).ptp = s.ptp ∧ (s.setHostq q v).evs = s.evs ∧ (s.setHostq q v).cal = s.cal ∧
    (s.setHostq q v).svc = s.svc ∧ (s.setHostq q v).keeper = s.keeper ∧ (s.setHostq q v).pwr = s.pwr ∧
    (s.setHostq q v).twin = s.twin ∧ (s.setHostq q v).log = s.log ∧ (s.setHostq q v).smb = s.smb :=
  by and_intros <;> rfl

@[simp] theorem State.setPtpPort_frame (s : State) (p : Nat) (v : PtpPort) :
    (s.setPtpPort p v).pending = s.pending ∧ (s.setPtpPort p v).out = s.out ∧ (s.setPtpPort p v).free = s.free ∧
    (s.setPtpPort p v).lcnt = s.lcnt ∧ (s.setPtpPort p v).tick = s.tick ∧ (s.setPtpPort p v).regs = s.regs ∧
    (s.setPtpPort p v).hist = s.hist ∧ (s.setPtpPort p v).shadow = s.shadow ∧ (s.setPtpPort p v).latch = s.latch ∧
    (s.setPtpPort p v).held = s.held ∧ (s.setPtpPort p v).commit = s.commit ∧ (s.setPtpPort p v).loader = s.loader ∧
    (s.setPtpPort p v).armPlan = s.armPlan ∧ (s.setPtpPort p v).flash = s.flash ∧
    (s.setPtpPort p v).flashOps = s.flashOps ∧ (s.setPtpPort p v).chans = s.chans ∧ (s.setPtpPort p v).words = s.words ∧
    (s.setPtpPort p v).chains = s.chains ∧ (s.setPtpPort p v).acs = s.acs ∧ (s.setPtpPort p v).dcs = s.dcs ∧
    (s.setPtpPort p v).ints = s.ints ∧ (s.setPtpPort p v).intSwaps = s.intSwaps ∧ (s.setPtpPort p v).grps = s.grps ∧
    (s.setPtpPort p v).store = s.store ∧ (s.setPtpPort p v).stageFill = s.stageFill ∧
    (s.setPtpPort p v).stageDrain = s.stageDrain ∧ (s.setPtpPort p v).fillData = s.fillData ∧
    (s.setPtpPort p v).drainData = s.drainData ∧ (s.setPtpPort p v).sto = s.sto ∧ (s.setPtpPort p v).abaQ = s.abaQ ∧
    (s.setPtpPort p v).abaSkip = s.abaSkip ∧ (s.setPtpPort p v).abaEnd = s.abaEnd ∧ (s.setPtpPort p v).avgs = s.avgs ∧
    (s.setPtpPort p v).dbs = s.dbs ∧ (s.setPtpPort p v).hitQ = s.hitQ ∧ (s.setPtpPort p v).hitEnd = s.hitEnd ∧
    (s.setPtpPort p v).tallyPage = s.tallyPage ∧ (s.setPtpPort p v).tallyGeom = s.tallyGeom ∧
    (s.setPtpPort p v).frames = s.frames ∧ (s.setPtpPort p v).framePub = s.framePub ∧ (s.setPtpPort p v).ports = s.ports ∧
    (s.setPtpPort p v).strms = s.strms ∧ (s.setPtpPort p v).hostqs = s.hostqs ∧ (s.setPtpPort p v).dmaTurn = s.dmaTurn ∧
    (s.setPtpPort p v).msix = s.msix ∧ (s.setPtpPort p v).disp = s.disp ∧ (s.setPtpPort p v).tap = s.tap ∧
    (s.setPtpPort p v).cfgReady = s.cfgReady ∧ (s.setPtpPort p v).clk = s.clk ∧ (s.setPtpPort p v).epochs = s.epochs ∧
    (s.setPtpPort p v).timeDue = s.timeDue ∧ (s.setPtpPort p v).pnom = s.pnom ∧ (s.setPtpPort p v).servo = s.servo ∧
    (s.setPtpPort p v).stage = s.stage ∧ (s.setPtpPort p v).txq = s.txq ∧ (s.setPtpPort p v).evs = s.evs ∧
    (s.setPtpPort p v).cal = s.cal ∧ (s.setPtpPort p v).svc = s.svc ∧ (s.setPtpPort p v).keeper = s.keeper ∧
    (s.setPtpPort p v).pwr = s.pwr ∧ (s.setPtpPort p v).twin = s.twin ∧ (s.setPtpPort p v).log = s.log ∧
    (s.setPtpPort p v).smb = s.smb :=
  by and_intros <;> rfl

@[simp] theorem State.setChan_chan_same (s : State) (k : Nat) (v : Chan) : (s.setChan k v).chan k = v := by
  simp [State.setChan, State.chan]

theorem State.setChan_chan_other (s : State) (k j : Nat) (v : Chan) (h : j ≠ k) : (s.setChan k v).chan j = s.chan j := by
  simp [State.setChan, State.chan, Tab.get_set_other _ _ _ _ _ h]

@[simp] theorem State.setChain_chain_same (s : State) (k : Nat) (v : Chain) : (s.setChain k v).chain k = v := by
  simp [State.setChain, State.chain]

theorem State.setChain_chain_other (s : State) (k j : Nat) (v : Chain) (h : j ≠ k) : (s.setChain k v).chain j = s.chain j := by
  simp [State.setChain, State.chain, Tab.get_set_other _ _ _ _ _ h]

@[simp] theorem State.setAc_ac_same (s : State) (k : Nat) (v : Ac) : (s.setAc k v).ac k = v := by
  simp [State.setAc, State.ac]

theorem State.setAc_ac_other (s : State) (k j : Nat) (v : Ac) (h : j ≠ k) : (s.setAc k v).ac j = s.ac j := by
  simp [State.setAc, State.ac, Tab.get_set_other _ _ _ _ _ h]

@[simp] theorem State.setDc_dc_same (s : State) (k : Nat) (v : Dc) : (s.setDc k v).dc k = v := by
  simp [State.setDc, State.dc]

theorem State.setDc_dc_other (s : State) (k j : Nat) (v : Dc) (h : j ≠ k) : (s.setDc k v).dc j = s.dc j := by
  simp [State.setDc, State.dc, Tab.get_set_other _ _ _ _ _ h]

@[simp] theorem State.setIp_ip_same (s : State) (k : Nat) (v : Ip) : (s.setIp k v).ip k = v := by
  simp [State.setIp, State.ip]

theorem State.setIp_ip_other (s : State) (k j : Nat) (v : Ip) (h : j ≠ k) : (s.setIp k v).ip j = s.ip j := by
  simp [State.setIp, State.ip, Tab.get_set_other _ _ _ _ _ h]

@[simp] theorem State.setGrp_grp_same (s : State) (k : Nat) (v : Grp) : (s.setGrp k v).grp k = v := by
  simp [State.setGrp, State.grp]

theorem State.setGrp_grp_other (s : State) (k j : Nat) (v : Grp) (h : j ≠ k) : (s.setGrp k v).grp j = s.grp j := by
  simp [State.setGrp, State.grp, Tab.get_set_other _ _ _ _ _ h]

@[simp] theorem State.setAvg_avg_same (s : State) (k : Nat) (v : Avg) : (s.setAvg k v).avg k = v := by
  simp [State.setAvg, State.avg]

theorem State.setAvg_avg_other (s : State) (k j : Nat) (v : Avg) (h : j ≠ k) : (s.setAvg k v).avg j = s.avg j := by
  simp [State.setAvg, State.avg, Tab.get_set_other _ _ _ _ _ h]

@[simp] theorem State.setDb_db_same (s : State) (k : Nat) (v : Db) : (s.setDb k v).db k = v := by
  simp [State.setDb, State.db]

theorem State.setDb_db_other (s : State) (k j : Nat) (v : Db) (h : j ≠ k) : (s.setDb k v).db j = s.db j := by
  simp [State.setDb, State.db, Tab.get_set_other _ _ _ _ _ h]

@[simp] theorem State.setEv_ev_same (s : State) (k : Nat) (v : Ev) : (s.setEv k v).ev k = v := by
  simp [State.setEv, State.ev]

theorem State.setEv_ev_other (s : State) (k j : Nat) (v : Ev) (h : j ≠ k) : (s.setEv k v).ev j = s.ev j := by
  simp [State.setEv, State.ev, Tab.get_set_other _ _ _ _ _ h]

@[simp] theorem State.setPort_port_same (s : State) (k : Nat) (v : Port) : (s.setPort k v).port k = v := by
  simp [State.setPort, State.port]

theorem State.setPort_port_other (s : State) (k j : Nat) (v : Port) (h : j ≠ k) : (s.setPort k v).port j = s.port j := by
  simp [State.setPort, State.port, Tab.get_set_other _ _ _ _ _ h]

@[simp] theorem State.setStrm_strm_same (s : State) (k : Nat) (v : Strm) : (s.setStrm k v).strm k = v := by
  simp [State.setStrm, State.strm]

theorem State.setStrm_strm_other (s : State) (k j : Nat) (v : Strm) (h : j ≠ k) : (s.setStrm k v).strm j = s.strm j := by
  simp [State.setStrm, State.strm, Tab.get_set_other _ _ _ _ _ h]

@[simp] theorem State.setHostq_hostq_same (s : State) (k : Nat) (v : HostQ) : (s.setHostq k v).hostq k = v := by
  simp [State.setHostq, State.hostq]

theorem State.setHostq_hostq_other (s : State) (k j : Nat) (v : HostQ) (h : j ≠ k) : (s.setHostq k v).hostq j = s.hostq j := by
  simp [State.setHostq, State.hostq, Tab.get_set_other _ _ _ _ _ h]

@[simp] theorem State.setPtpPort_ptpPort_same (s : State) (k : Nat) (v : PtpPort) : (s.setPtpPort k v).ptpPort k = v := by
  simp [State.setPtpPort, State.ptpPort]

theorem State.setPtpPort_ptpPort_other (s : State) (k j : Nat) (v : PtpPort) (h : j ≠ k) : (s.setPtpPort k v).ptpPort j = s.ptpPort j := by
  simp [State.setPtpPort, State.ptpPort, Tab.get_set_other _ _ _ _ _ h]

end Sys2Proof.Machine
end

