-- ==== Sys2Proof/Laws/Frame.lean ====
section
/-! SUPPORT. What no operation of the block does. For every operation of the model one lemma says
which of the three fields outside the block's own registers and engines it leaves as it found them:
the queue of waiting commands (every operation), the store's memory and the flash (every operation
that is not one of the store's or the flash's own). The lemmas are rewriting rules, so a later proof
never unfolds an operation to learn that it leaves these alone. -/

set_option maxRecDepth 4000

namespace Sys2Proof.Machine

open Sys2Proof

theorem State.ite_mem (c : Prop) [Decidable c] (a b : State) :
    (if c then a else b : State).pending = (if c then a.pending else b.pending) ∧
    (if c then a else b : State).store = (if c then a.store else b.store) ∧
    (if c then a else b : State).flash = (if c then a.flash else b.flash) := by
  split <;> simp

theorem State.foldl_pending {α : Type} (f : State → α → State) (l : List α) (s : State) (h : ∀ t x, (f t x).pending = t.pending) :
    (l.foldl f s).pending = s.pending := by
  induction l generalizing s with
  | nil => rfl
  | cons x xs ih => rw [List.foldl_cons, ih, h]

theorem State.onIf_pending (s : State) (c : Bool) (f : State → State) (h : ∀ t, (f t).pending = t.pending) : (s.onIf c f).pending = s.pending := by
  unfold State.onIf; split <;> simp [h]

theorem putList_pending (f : State → Nat → Nat → State) (s : State) (i : Nat) (l : List Nat)
    (h : ∀ t i v, (f t i v).pending = t.pending) : (putList f s i l).pending = s.pending := by
  induction l generalizing s i with
  | nil => rfl
  | cons x xs ih => rw [putList, ih, h]

theorem State.foldl_store {α : Type} (f : State → α → State) (l : List α) (s : State) (h : ∀ t x, (f t x).store = t.store) :
    (l.foldl f s).store = s.store := by
  induction l generalizing s with
  | nil => rfl
  | cons x xs ih => rw [List.foldl_cons, ih, h]

theorem State.onIf_store (s : State) (c : Bool) (f : State → State) (h : ∀ t, (f t).store = t.store) : (s.onIf c f).store = s.store := by
  unfold State.onIf; split <;> simp [h]

theorem putList_store (f : State → Nat → Nat → State) (s : State) (i : Nat) (l : List Nat)
    (h : ∀ t i v, (f t i v).store = t.store) : (putList f s i l).store = s.store := by
  induction l generalizing s i with
  | nil => rfl
  | cons x xs ih => rw [putList, ih, h]

theorem State.foldl_flash {α : Type} (f : State → α → State) (l : List α) (s : State) (h : ∀ t x, (f t x).flash = t.flash) :
    (l.foldl f s).flash = s.flash := by
  induction l generalizing s with
  | nil => rfl
  | cons x xs ih => rw [List.foldl_cons, ih, h]

theorem State.onIf_flash (s : State) (c : Bool) (f : State → State) (h : ∀ t, (f t).flash = t.flash) : (s.onIf c f).flash = s.flash := by
  unfold State.onIf; split <;> simp [h]

theorem putList_flash (f : State → Nat → Nat → State) (s : State) (i : Nat) (l : List Nat)
    (h : ∀ t i v, (f t i v).flash = t.flash) : (putList f s i l).flash = s.flash := by
  induction l generalizing s i with
  | nil => rfl
  | cons x xs ih => rw [putList, ih, h]

@[simp] theorem State.put_mem (s : State) (a1 : Fld) (a2 : Nat) :
    (State.put s a1 a2).pending = s.pending ∧ (State.put s a1 a2).store = s.store ∧ (State.put s a1 a2).flash = s.flash := by
  simp [State.put]

@[simp] theorem State.sput_mem (s : State) (a1 : Fld) (a2 : Int) :
    (State.sput s a1 a2).pending = s.pending ∧ (State.sput s a1 a2).store = s.store ∧ (State.sput s a1 a2).flash = s.flash := by
  simp [State.sput]

@[simp] theorem State.setF_mem (s : State) (a1 : Fld) :
    (State.setF s a1).pending = s.pending ∧ (State.setF s a1).store = s.store ∧ (State.setF s a1).flash = s.flash := by
  simp [State.setF]

@[simp] theorem State.clrF_mem (s : State) (a1 : Fld) :
    (State.clrF s a1).pending = s.pending ∧ (State.clrF s a1).store = s.store ∧ (State.clrF s a1).flash = s.flash := by
  simp [State.clrF]

@[simp] theorem State.putB_mem (s : State) (a1 : Fld) (a2 : Bool) :
    (State.putB s a1 a2).pending = s.pending ∧ (State.putB s a1 a2).store = s.store ∧ (State.putB s a1 a2).flash = s.flash := by
  simp [State.putB]

@[simp] theorem State.putN_mem (s : State) (a1 : Nat) (a2 : Nat) (a3 : Nat) :
    (State.putN s a1 a2 a3).pending = s.pending ∧ (State.putN s a1 a2 a3).store = s.store ∧ (State.putN s a1 a2 a3).flash = s.flash := by
  simp [State.putN]

@[simp] theorem State.addSat_mem (s : State) (a1 : Fld) (a2 : Nat) :
    (State.addSat s a1 a2).pending = s.pending ∧ (State.addSat s a1 a2).store = s.store ∧ (State.addSat s a1 a2).flash = s.flash := by
  simp [State.addSat]

@[simp] theorem State.incSat_mem (s : State) (a1 : Fld) :
    (State.incSat s a1).pending = s.pending ∧ (State.incSat s a1).store = s.store ∧ (State.incSat s a1).flash = s.flash := by
  simp [State.incSat]

@[simp] theorem State.incWrap_mem (s : State) (a1 : Fld) :
    (State.incWrap s a1).pending = s.pending ∧ (State.incWrap s a1).store = s.store ∧ (State.incWrap s a1).flash = s.flash := by
  simp [State.incWrap]

@[simp] theorem State.setChan_mem (s : State) (a1 : Nat) (a2 : Chan) :
    (State.setChan s a1 a2).pending = s.pending ∧ (State.setChan s a1 a2).store = s.store ∧ (State.setChan s a1 a2).flash = s.flash := by
  simp [State.setChan]

@[simp] theorem State.setChain_mem (s : State) (a1 : Nat) (a2 : Chain) :
    (State.setChain s a1 a2).pending = s.pending ∧ (State.setChain s a1 a2).store = s.store ∧ (State.setChain s a1 a2).flash = s.flash := by
  simp [State.setChain]

@[simp] theorem State.setAc_mem (s : State) (a1 : Nat) (a2 : Ac) :
    (State.setAc s a1 a2).pending = s.pending ∧ (State.setAc s a1 a2).store = s.store ∧ (State.setAc s a1 a2).flash = s.flash := by
  simp [State.setAc]

@[simp] theorem State.setDc_mem (s : State) (a1 : Nat) (a2 : Dc) :
    (State.setDc s a1 a2).pending = s.pending ∧ (State.setDc s a1 a2).store = s.store ∧ (State.setDc s a1 a2).flash = s.flash := by
  simp [State.setDc]

@[simp] theorem State.setIp_mem (s : State) (a1 : Nat) (a2 : Ip) :
    (State.setIp s a1 a2).pending = s.pending ∧ (State.setIp s a1 a2).store = s.store ∧ (State.setIp s a1 a2).flash = s.flash := by
  simp [State.setIp]

@[simp] theorem State.setGrp_mem (s : State) (a1 : Nat) (a2 : Grp) :
    (State.setGrp s a1 a2).pending = s.pending ∧ (State.setGrp s a1 a2).store = s.store ∧ (State.setGrp s a1 a2).flash = s.flash := by
  simp [State.setGrp]

@[simp] theorem State.setAvg_mem (s : State) (a1 : Nat) (a2 : Avg) :
    (State.setAvg s a1 a2).pending = s.pending ∧ (State.setAvg s a1 a2).store = s.store ∧ (State.setAvg s a1 a2).flash = s.flash := by
  simp [State.setAvg]

@[simp] theorem State.setDb_mem (s : State) (a1 : Nat) (a2 : Db) :
    (State.setDb s a1 a2).pending = s.pending ∧ (State.setDb s a1 a2).store = s.store ∧ (State.setDb s a1 a2).flash = s.flash := by
  simp [State.setDb]

@[simp] theorem State.setEv_mem (s : State) (a1 : Nat) (a2 : Ev) :
    (State.setEv s a1 a2).pending = s.pending ∧ (State.setEv s a1 a2).store = s.store ∧ (State.setEv s a1 a2).flash = s.flash := by
  simp [State.setEv]

@[simp] theorem State.setPort_mem (s : State) (a1 : Nat) (a2 : Port) :
    (State.setPort s a1 a2).pending = s.pending ∧ (State.setPort s a1 a2).store = s.store ∧ (State.setPort s a1 a2).flash = s.flash := by
  simp [State.setPort]

@[simp] theorem State.setStrm_mem (s : State) (a1 : Nat) (a2 : Strm) :
    (State.setStrm s a1 a2).pending = s.pending ∧ (State.setStrm s a1 a2).store = s.store ∧ (State.setStrm s a1 a2).flash = s.flash := by
  simp [State.setStrm]

@[simp] theorem State.setHostq_mem (s : State) (a1 : Nat) (a2 : HostQ) :
    (State.setHostq s a1 a2).pending = s.pending ∧ (State.setHostq s a1 a2).store = s.store ∧ (State.setHostq s a1 a2).flash = s.flash := by
  simp [State.setHostq]

@[simp] theorem State.setPtpPort_mem (s : State) (a1 : Nat) (a2 : PtpPort) :
    (State.setPtpPort s a1 a2).pending = s.pending ∧ (State.setPtpPort s a1 a2).store = s.store ∧ (State.setPtpPort s a1 a2).flash = s.flash := by
  simp [State.setPtpPort]

@[simp] theorem State.atCycle_mem (s : State) (a1 : Nat) :
    (State.at_ s a1).pending = s.pending ∧ (State.at_ s a1).store = s.store ∧ (State.at_ s a1).flash = s.flash := by
  simp [State.at_]

@[simp] theorem State.idle_mem (s : State) :
    (State.idle s).pending = s.pending ∧ (State.idle s).store = s.store ∧ (State.idle s).flash = s.flash := by
  simp [State.idle]

@[simp] theorem State.emit_mem (s : State) (a1 : Out) :
    (State.emit s a1).pending = s.pending ∧ (State.emit s a1).store = s.store ∧ (State.emit s a1).flash = s.flash := by
  simp [State.emit]

@[simp] theorem State.draw_mem (s : State) (a1 : Nat) :
    (State.draw s a1).2.pending = s.pending ∧ (State.draw s a1).2.store = s.store ∧ (State.draw s a1).2.flash = s.flash := by
  simp [State.draw]

@[simp] theorem State.signal_mem (s : State) (a1 : Nat) (a2 : Nat) :
    (State.signal s a1 a2).pending = s.pending ∧ (State.signal s a1 a2).store = s.store ∧ (State.signal s a1 a2).flash = s.flash := by
  simp [State.signal, State.ite_mem]

@[simp] theorem State.sendPending_mem (s : State) :
    (State.sendPending s).pending = s.pending ∧ (State.sendPending s).store = s.store ∧ (State.sendPending s).flash = s.flash := by
  simp [State.sendPending, State.foldl_pending, State.foldl_store, State.foldl_flash]

@[simp] theorem State.msixReset_mem (s : State) (a1 : Nat → Bool) :
    (State.msixReset s a1).pending = s.pending ∧ (State.msixReset s a1).store = s.store ∧ (State.msixReset s a1).flash = s.flash := by
  simp [State.msixReset]

@[simp] theorem State.errN_mem (s : State) :
    (State.errN s).pending = s.pending ∧ (State.errN s).store = s.store ∧ (State.errN s).flash = s.flash := by
  simp [State.errN, State.ite_mem]

@[simp] theorem State.capture_mem (s : State) (a1 : LogEnt) :
    (State.capture s a1).pending = s.pending ∧ (State.capture s a1).store = s.store ∧ (State.capture s a1).flash = s.flash := by
  simp [State.capture, State.ite_mem]

@[simp] theorem State.logAct_mem (s : State) (a1 : Nat) (a2 : LogEnt) :
    (State.logAct s a1 a2).pending = s.pending ∧ (State.logAct s a1 a2).store = s.store ∧ (State.logAct s a1 a2).flash = s.flash := by
  simp [State.logAct, State.ite_mem]

@[simp] theorem State.post_mem (s : State) (a1 : Nat) (a2 : Nat) (a3 : Nat) (a4 : Nat) :
    (State.post s a1 a2 a3 a4).pending = s.pending ∧ (State.post s a1 a2 a3 a4).store = s.store ∧ (State.post s a1 a2 a3 a4).flash = s.flash := by
  simp [State.post, State.ite_mem]

@[simp] theorem State.swrite_mem (s : State) (a1 : Nat) (a2 : Byte) :
    (State.swrite s a1 a2).pending = s.pending ∧ (State.swrite s a1 a2).flash = s.flash := by
  simp [State.swrite, State.ite_mem]

@[simp] theorem State.swrites_mem (s : State) (a1 : Nat) (a2 : List Byte) :
    (State.swrites s a1 a2).pending = s.pending ∧ (State.swrites s a1 a2).flash = s.flash := by
  induction a2 generalizing s a1 with
  | nil => simp [State.swrites]
  | cons x xs ih =>
    simp only [State.swrites]
    simp [ih]

@[simp] theorem State.freeBursts_mem (s : State) (a1 : Nat) (a2 : Nat) :
    (State.freeBursts s a1 a2).pending = s.pending ∧ (State.freeBursts s a1 a2).flash = s.flash := by
  simp [State.freeBursts, State.ite_mem, State.foldl_pending, State.foldl_flash]

@[simp] theorem State.swriteBits_mem (s : State) (a1 : Nat) (a2 : Nat) (a3 : Nat) :
    (State.swriteBits s a1 a2 a3).pending = s.pending ∧ (State.swriteBits s a1 a2 a3).flash = s.flash := by
  simp [State.swriteBits]

@[simp] theorem State.stageW_mem (s : State) (a1 : StW) :
    (State.stageW s a1).pending = s.pending ∧ (State.stageW s a1).store = s.store ∧ (State.stageW s a1).flash = s.flash := by
  simp [State.stageW]

@[simp] theorem State.takeSpace_mem (s : State) (a1 : Nat) :
    (State.takeSpace s a1).pending = s.pending ∧ (State.takeSpace s a1).store = s.store ∧ (State.takeSpace s a1).flash = s.flash := by
  simp [State.takeSpace]

@[simp] theorem State.stageBytes_mem (s : State) (a1 : Nat) (a2 : Nat) (a3 : Nat) (a4 : List Byte) :
    (State.stageBytes s a1 a2 a3 a4).pending = s.pending ∧ (State.stageBytes s a1 a2 a3 a4).store = s.store ∧ (State.stageBytes s a1 a2 a3 a4).flash = s.flash := by
  simp [State.stageBytes]

@[simp] theorem State.served_mem (s : State) (a1 : Nat) (a2 : Nat) :
    (State.served s a1 a2).pending = s.pending ∧ (State.served s a1 a2).store = s.store ∧ (State.served s a1 a2).flash = s.flash := by
  simp [State.served]

@[simp] theorem State.showBacklog_mem (s : State) (a1 : Nat) :
    (State.showBacklog s a1).pending = s.pending ∧ (State.showBacklog s a1).store = s.store ∧ (State.showBacklog s a1).flash = s.flash := by
  simp [State.showBacklog]

@[simp] theorem State.ask_mem (s : State) (a1 : Nat) (a2 : Nat) (a3 : Nat) :
    (State.ask s a1 a2 a3).2.pending = s.pending ∧ (State.ask s a1 a2 a3).2.store = s.store ∧ (State.ask s a1 a2 a3).2.flash = s.flash := by
  simp [State.ask]

@[simp] theorem State.unask_mem (s : State) (a1 : Nat) (a2 : Nat) :
    (State.unask s a1 a2).pending = s.pending ∧ (State.unask s a1 a2).store = s.store ∧ (State.unask s a1 a2).flash = s.flash := by
  simp [State.unask, State.ite_mem]

@[simp] theorem State.drainAll_mem (s : State) (a1 : List StW) :
    (State.drainAll s a1).pending = s.pending ∧ (State.drainAll s a1).flash = s.flash := by
  unfold State.drainAll
  induction a1 generalizing s with
  | nil => simp
  | cons x xs ih => simp [ih]

@[simp] theorem State.settled_mem (s : State) :
    (State.settled s).pending = s.pending ∧ (State.settled s).flash = s.flash := by
  simp [State.settled]

@[simp] theorem State.writeHist_mem (s : State) (a1 : Nat) (a2 : List Epoch) :
    (State.writeHist s a1 a2).pending = s.pending ∧ (State.writeHist s a1 a2).store = s.store ∧ (State.writeHist s a1 a2).flash = s.flash := by
  induction a2 generalizing s a1 with
  | nil => simp [State.writeHist]
  | cons x xs ih =>
    simp only [State.writeHist]
    simp [ih]

@[simp] theorem State.logEpoch_mem (s : State) (a1 : Epoch) :
    (State.logEpoch s a1).pending = s.pending ∧ (State.logEpoch s a1).store = s.store ∧ (State.logEpoch s a1).flash = s.flash := by
  simp [State.logEpoch]

@[simp] theorem State.openEpoch_mem (s : State) (a1 : Epoch) :
    (State.openEpoch s a1).pending = s.pending ∧ (State.openEpoch s a1).store = s.store ∧ (State.openEpoch s a1).flash = s.flash := by
  simp [State.openEpoch]

@[simp] theorem State.holdSnap_mem (s : State) (a1 : Nat) :
    (State.holdSnap s a1).pending = s.pending ∧ (State.holdSnap s a1).store = s.store ∧ (State.holdSnap s a1).flash = s.flash := by
  simp [State.holdSnap]

@[simp] theorem State.snapAgain_mem (s : State) (a1 : Nat) :
    (State.snapAgain s a1).pending = s.pending ∧ (State.snapAgain s a1).store = s.store ∧ (State.snapAgain s a1).flash = s.flash := by
  simp [State.snapAgain, State.ite_mem]

@[simp] theorem State.publishTime_mem (s : State) (a1 : Nat) :
    (State.publishTime s a1).pending = s.pending ∧ (State.publishTime s a1).store = s.store ∧ (State.publishTime s a1).flash = s.flash := by
  simp only [State.publishTime]; (repeat' split) <;> simp

@[simp] theorem State.enterHoldover_mem (s : State) :
    (State.enterHoldover s).pending = s.pending ∧ (State.enterHoldover s).store = s.store ∧ (State.enterHoldover s).flash = s.flash := by
  simp [State.enterHoldover, State.ite_mem]

@[simp] theorem State.refuseJump_mem (s : State) (a1 : Nat) (a2 : Int) :
    (State.refuseJump s a1 a2).pending = s.pending ∧ (State.refuseJump s a1 a2).store = s.store ∧ (State.refuseJump s a1 a2).flash = s.flash := by
  simp [State.refuseJump, State.ite_mem]

@[simp] theorem State.slew_mem (s : State) (a1 : Int) (a2 : Nat) (a3 : Int) :
    (State.slew s a1 a2 a3).pending = s.pending ∧ (State.slew s a1 a2 a3).store = s.store ∧ (State.slew s a1 a2 a3).flash = s.flash := by
  simp [State.slew, State.ite_mem]

@[simp] theorem State.servoUpdate_mem (s : State) (a1 : Nat) :
    (State.servoUpdate s a1).pending = s.pending ∧ (State.servoUpdate s a1).store = s.store ∧ (State.servoUpdate s a1).flash = s.flash := by
  simp [State.servoUpdate, State.ite_mem]

@[simp] theorem State.txCount_mem (s : State) (a1 : Nat) :
    (State.txCount s a1).pending = s.pending ∧ (State.txCount s a1).store = s.store ∧ (State.txCount s a1).flash = s.flash := by
  simp [State.txCount]

@[simp] theorem State.flushCtl_mem (s : State) (a1 : Nat) :
    (State.flushCtl s a1).pending = s.pending ∧ (State.flushCtl s a1).store = s.store ∧ (State.flushCtl s a1).flash = s.flash := by
  simp [State.flushCtl, State.ite_mem, State.foldl_pending, State.foldl_store, State.foldl_flash]

@[simp] theorem State.sendCtl_mem (s : State) (a1 : Nat) (a2 : Out) :
    (State.sendCtl s a1 a2).pending = s.pending ∧ (State.sendCtl s a1 a2).store = s.store ∧ (State.sendCtl s a1 a2).flash = s.flash := by
  simp [State.sendCtl]

@[simp] theorem State.addTheta_mem (s : State) (a1 : Int) :
    (State.addTheta s a1).pending = s.pending ∧ (State.addTheta s a1).store = s.store ∧ (State.addTheta s a1).flash = s.flash := by
  simp [State.addTheta, State.ite_mem]

@[simp] theorem State.servoPorts_mem (s : State) :
    (State.servoPorts s).pending = s.pending ∧ (State.servoPorts s).store = s.store ∧ (State.servoPorts s).flash = s.flash := by
  simp [State.servoPorts, State.ite_mem]

@[simp] theorem State.portStates_mem (s : State) (a1 : List (Nat × Nat)) (a2 : Nat) :
    (State.portStates s a1 a2).pending = s.pending ∧ (State.portStates s a1 a2).store = s.store ∧ (State.portStates s a1 a2).flash = s.flash := by
  simp [State.portStates, State.ite_mem, State.foldl_pending, State.foldl_store, State.foldl_flash]

@[simp] theorem State.pushTx_mem (s : State) (a1 : TxStamp) :
    (State.pushTx s a1).pending = s.pending ∧ (State.pushTx s a1).store = s.store ∧ (State.pushTx s a1).flash = s.flash := by
  simp [State.pushTx, State.ite_mem]

@[simp] theorem State.tcEvent_mem (s : State) (a1 : Nat) (a2 : Nat) (a3 : Nat) (a4 : Nat) (a5 : Int) (a6 : Bool) :
    (State.tcEvent s a1 a2 a3 a4 a5 a6).pending = s.pending ∧ (State.tcEvent s a1 a2 a3 a4 a5 a6).store = s.store ∧ (State.tcEvent s a1 a2 a3 a4 a5 a6).flash = s.flash := by
  simp [State.tcEvent, State.ite_mem]

@[simp] theorem State.tcFollowUp_mem (s : State) (a1 : Nat) (a2 : Nat) (a3 : Int) :
    (State.tcFollowUp s a1 a2 a3).pending = s.pending ∧ (State.tcFollowUp s a1 a2 a3).store = s.store ∧ (State.tcFollowUp s a1 a2 a3).flash = s.flash := by
  simp [State.tcFollowUp]

@[simp] theorem State.tcForward_mem (s : State) (a1 : Nat) (a2 : PtpMsg) :
    (State.tcForward s a1 a2).pending = s.pending ∧ (State.tcForward s a1 a2).store = s.store ∧ (State.tcForward s a1 a2).flash = s.flash := by
  unfold State.tcForward
  split
  · simp
  · cases a2 <;> simp [State.foldl_pending, State.foldl_store, State.foldl_flash]

@[simp] theorem State.answerDelay_mem (s : State) (a1 : Nat) (a2 : Nat) (a3 : Nat) :
    (State.answerDelay s a1 a2 a3).pending = s.pending ∧ (State.answerDelay s a1 a2 a3).store = s.store ∧ (State.answerDelay s a1 a2 a3).flash = s.flash := by
  simp [State.answerDelay, State.ite_mem]

@[simp] theorem State.timeSnap_mem (s : State) (a1 : Nat) :
    (State.timeSnap s a1).pending = s.pending ∧ (State.timeSnap s a1).store = s.store ∧ (State.timeSnap s a1).flash = s.flash := by
  simp [State.timeSnap]

@[simp] theorem State.stageTime_mem (s : State) (a1 : Nat) (a2 : Bool) (a3 : Bool) (a4 : Bool) :
    (State.stageTime s a1 a2 a3 a4).pending = s.pending ∧ (State.stageTime s a1 a2 a3 a4).store = s.store ∧ (State.stageTime s a1 a2 a3 a4).flash = s.flash := by
  simp [State.stageTime, State.ite_mem]

@[simp] theorem State.latchWords_mem (s : State) (a1 : Nat) (a2 : Nat) (a3 : Nat) (a4 : Nat) :
    (State.latchWords s a1 a2 a3 a4).pending = s.pending ∧ (State.latchWords s a1 a2 a3 a4).store = s.store ∧ (State.latchWords s a1 a2 a3 a4).flash = s.flash := by
  induction a3 generalizing s a1 a2 a4 with
  | zero => simp [State.latchWords]
  | succ n ih =>
    simp only [State.latchWords]
    simp [ih]

@[simp] theorem State.histRd_mem (s : State) (a1 : Nat) (a2 : Nat) :
    (State.histRd s a1 a2).pending = s.pending ∧ (State.histRd s a1 a2).store = s.store ∧ (State.histRd s a1 a2).flash = s.flash := by
  simp [State.histRd]

@[simp] theorem State.txqRd_mem (s : State) (a1 : Nat) :
    (State.txqRd s a1).2.pending = s.pending ∧ (State.txqRd s a1).2.store = s.store ∧ (State.txqRd s a1).2.flash = s.flash := by
  simp [State.txqRd]

@[simp] theorem State.acceptStep_mem (s : State) :
    (State.acceptStep s).pending = s.pending ∧ (State.acceptStep s).store = s.store ∧ (State.acceptStep s).flash = s.flash := by
  simp [State.acceptStep, State.ite_mem]

@[simp] theorem State.svcSend_mem (s : State) (a1 : Nat) :
    (State.svcSend s a1).pending = s.pending ∧ (State.svcSend s a1).store = s.store ∧ (State.svcSend s a1).flash = s.flash := by
  simp [State.svcSend]

@[simp] theorem State.excFresh_mem (s : State) (a1 : Nat) :
    (State.excFresh s a1).pending = s.pending ∧ (State.excFresh s a1).store = s.store ∧ (State.excFresh s a1).flash = s.flash := by
  simp [State.excFresh]

@[simp] theorem State.applyOfs1_mem (s : State) (a1 : Nat) (a2 : Nat) :
    (State.applyOfs1 s a1 a2).pending = s.pending ∧ (State.applyOfs1 s a1 a2).store = s.store ∧ (State.applyOfs1 s a1 a2).flash = s.flash := by
  simp [State.applyOfs1, State.ite_mem]

@[simp] theorem State.applyOfs_mem (s : State) (a1 : Nat) (a2 : List Nat) :
    (State.applyOfs s a1 a2).pending = s.pending ∧ (State.applyOfs s a1 a2).store = s.store ∧ (State.applyOfs s a1 a2).flash = s.flash := by
  simp [State.applyOfs, State.foldl_pending, State.foldl_store, State.foldl_flash]

@[simp] theorem State.applyExc_mem (s : State) (a1 : Nat) (a2 : List Nat) :
    (State.applyExc s a1 a2).pending = s.pending ∧ (State.applyExc s a1 a2).store = s.store ∧ (State.applyExc s a1 a2).flash = s.flash := by
  induction a2 generalizing s a1 with
  | nil => simp [State.applyExc]
  | cons x xs ih =>
    simp only [State.applyExc]
    simp [ih]

@[simp] theorem State.svcGood_mem (s : State) (a1 : Nat) (a2 : Nat) :
    (State.svcGood s a1 a2).pending = s.pending ∧ (State.svcGood s a1 a2).store = s.store ∧ (State.svcGood s a1 a2).flash = s.flash := by
  simp [State.svcGood]

@[simp] theorem State.svcNote_mem (s : State) (a1 : Nat) (a2 : Nat) (a3 : Nat) :
    (State.svcNote s a1 a2 a3).pending = s.pending ∧ (State.svcNote s a1 a2 a3).store = s.store ∧ (State.svcNote s a1 a2 a3).flash = s.flash := by
  simp [State.svcNote, State.ite_mem]

@[simp] theorem State.svcApply_mem (s : State) (a1 : SvcFrame) (a2 : Nat) :
    (State.svcApply s a1 a2).pending = s.pending ∧ (State.svcApply s a1 a2).store = s.store ∧ (State.svcApply s a1 a2).flash = s.flash := by
  simp [State.svcApply]

@[simp] theorem State.svcSafe_mem (s : State) :
    (State.svcSafe s).pending = s.pending ∧ (State.svcSafe s).store = s.store ∧ (State.svcSafe s).flash = s.flash := by
  simp [State.svcSafe]

@[simp] theorem State.afterTime_mem (s : State) (a1 : Nat) (a2 : Nat) (a3 : Nat) :
    (State.afterTime s a1 a2 a3).pending = s.pending ∧ (State.afterTime s a1 a2 a3).store = s.store ∧ (State.afterTime s a1 a2 a3).flash = s.flash := by
  simp [State.afterTime, State.ite_mem]

@[simp] theorem State.svcFenced_mem (s : State) :
    (State.svcFenced s).pending = s.pending ∧ (State.svcFenced s).store = s.store ∧ (State.svcFenced s).flash = s.flash := by
  simp [State.svcFenced]

@[simp] theorem State.excLog_mem (s : State) (a1 : Nat) :
    (State.excLog s a1).pending = s.pending ∧ (State.excLog s a1).store = s.store ∧ (State.excLog s a1).flash = s.flash := by
  simp [State.excLog, State.ite_mem]

@[simp] theorem State.fold_mem (s : State) (a1 : Nat) :
    (State.fold s a1).pending = s.pending ∧ (State.fold s a1).store = s.store ∧ (State.fold s a1).flash = s.flash := by
  simp [State.fold, State.ite_mem]

@[simp] theorem State.excRelog_mem (s : State) (a1 : Nat) :
    (State.excRelog s a1).pending = s.pending ∧ (State.excRelog s a1).store = s.store ∧ (State.excRelog s a1).flash = s.flash := by
  simp [State.excRelog]

@[simp] theorem State.excRetry_mem (s : State) (a1 : Nat) :
    (State.excRetry s a1).pending = s.pending ∧ (State.excRetry s a1).store = s.store ∧ (State.excRetry s a1).flash = s.flash := by
  simp [State.excRetry, State.ite_mem]

@[simp] theorem State.excRestore_mem (s : State) :
    (State.excRestore s).pending = s.pending ∧ (State.excRestore s).store = s.store ∧ (State.excRestore s).flash = s.flash := by
  simp [State.excRestore, State.ite_mem, State.foldl_pending, State.foldl_store, State.foldl_flash]

@[simp] theorem State.rlyOcClear_mem (s : State) (a1 : Nat) :
    (State.rlyOcClear s a1).pending = s.pending ∧ (State.rlyOcClear s a1).store = s.store ∧ (State.rlyOcClear s a1).flash = s.flash := by
  simp [State.rlyOcClear]

@[simp] theorem State.monPublish_mem (s : State) (a1 : MonPoint) (a2 : Int) :
    (State.monPublish s a1 a2).pending = s.pending ∧ (State.monPublish s a1 a2).store = s.store ∧ (State.monPublish s a1 a2).flash = s.flash := by
  simp only [State.monPublish]; (repeat' split) <;> simp

@[simp] theorem State.monCheck_mem (s : State) (a1 : MonPoint) (a2 : Int) :
    (State.monCheck s a1 a2).pending = s.pending ∧ (State.monCheck s a1 a2).store = s.store ∧ (State.monCheck s a1 a2).flash = s.flash := by
  simp only [State.monCheck]; (repeat' split) <;> simp

@[simp] theorem State.monTake_mem (s : State) (a1 : MonPoint) (a2 : Int) (a3 : Nat) :
    (State.monTake s a1 a2 a3).pending = s.pending ∧ (State.monTake s a1 a2 a3).store = s.store ∧ (State.monTake s a1 a2 a3).flash = s.flash := by
  simp [State.monTake, State.ite_mem]

@[simp] theorem State.monNext_mem (s : State) (a1 : Nat) (a2 : Nat) (a3 : Nat) :
    (State.monNext s a1 a2 a3).pending = s.pending ∧ (State.monNext s a1 a2 a3).store = s.store ∧ (State.monNext s a1 a2 a3).flash = s.flash := by
  simp [State.monNext, State.ite_mem]

@[simp] theorem State.stageBits_mem (s : State) (a1 : Bool) (a2 : Nat) (a3 : Nat) (a4 : Nat) (a5 : Nat) (a6 : Nat) (a7 : Nat) :
    (State.stageBits s a1 a2 a3 a4 a5 a6 a7).pending = s.pending ∧ (State.stageBits s a1 a2 a3 a4 a5 a6 a7).store = s.store ∧ (State.stageBits s a1 a2 a3 a4 a5 a6 a7).flash = s.flash := by
  simp [State.stageBits, State.ite_mem]

@[simp] theorem State.copyBits_mem (s : State) (a1 : State) (a2 : Nat) (a3 : Nat) (a4 : Nat) (a5 : Nat) (a6 : Nat) (a7 : Nat) :
    (State.copyBits s a1 a2 a3 a4 a5 a6 a7).pending = s.pending ∧ (State.copyBits s a1 a2 a3 a4 a5 a6 a7).store = s.store ∧ (State.copyBits s a1 a2 a3 a4 a5 a6 a7).flash = s.flash := by
  simp [State.copyBits]

@[simp] theorem State.stageElem_mem (s : State) (a1 : Bool) (a2 : Nat) (a3 : Nat) (a4 : Layout) (a5 : Nat) (a6 : Option Nat) (a7 : Nat) (a8 : Nat) (a9 : Nat) (a10 : Nat) (a11 : Nat) :
    (State.stageElem s a1 a2 a3 a4 a5 a6 a7 a8 a9 a10 a11).pending = s.pending ∧ (State.stageElem s a1 a2 a3 a4 a5 a6 a7 a8 a9 a10 a11).store = s.store ∧ (State.stageElem s a1 a2 a3 a4 a5 a6 a7 a8 a9 a10 a11).flash = s.flash := by
  simp [State.stageElem]

@[simp] theorem State.stageLens_mem (s : State) (a1 : Bool) (a2 : Nat) (a3 : Rec) (a4 : Nat) (a5 : Nat) (a6 : Nat) (a7 : Nat) (a8 : Nat) :
    (State.stageLens s a1 a2 a3 a4 a5 a6 a7 a8).pending = s.pending ∧ (State.stageLens s a1 a2 a3 a4 a5 a6 a7 a8).store = s.store ∧ (State.stageLens s a1 a2 a3 a4 a5 a6 a7 a8).flash = s.flash := by
  simp [State.stageLens]

@[simp] theorem State.moveBlocks_mem (s : State) (a1 : Nat) (a2 : Nat) (a3 : Layout) (a4 : Nat) (a5 : Layout) (a6 : Nat) :
    (State.moveBlocks s a1 a2 a3 a4 a5 a6).pending = s.pending ∧ (State.moveBlocks s a1 a2 a3 a4 a5 a6).flash = s.flash := by
  simp [State.moveBlocks, State.ite_mem, State.foldl_pending, State.foldl_flash]

@[simp] theorem State.showGaps_mem (s : State) (a1 : Nat) :
    (State.showGaps s a1).pending = s.pending ∧ (State.showGaps s a1).store = s.store ∧ (State.showGaps s a1).flash = s.flash := by
  simp only [State.showGaps]; (repeat' split) <;> simp

@[simp] theorem State.addItem_mem (s : State) (a1 : Nat) (a2 : Nat) (a3 : Nat) (a4 : Nat) (a5 : Nat) (a6 : Nat) :
    (State.addItem s a1 a2 a3 a4 a5 a6).pending = s.pending ∧ (State.addItem s a1 a2 a3 a4 a5 a6).store = s.store ∧ (State.addItem s a1 a2 a3 a4 a5 a6).flash = s.flash := by
  simp [State.addItem, State.ite_mem]

@[simp] theorem State.gapDesc_mem (s : State) (a1 : Nat) (a2 : Nat) (a3 : Nat) (a4 : Nat) (a5 : Nat) :
    (State.gapDesc s a1 a2 a3 a4 a5).pending = s.pending ∧ (State.gapDesc s a1 a2 a3 a4 a5).store = s.store ∧ (State.gapDesc s a1 a2 a3 a4 a5).flash = s.flash := by
  simp [State.gapDesc, State.ite_mem]

@[simp] theorem State.gapTo_mem (s : State) (a1 : Nat) (a2 : Nat) :
    (State.gapTo s a1 a2).pending = s.pending ∧ (State.gapTo s a1 a2).store = s.store ∧ (State.gapTo s a1 a2).flash = s.flash := by
  simp [State.gapTo, State.ite_mem, State.foldl_pending, State.foldl_store, State.foldl_flash]

@[simp] theorem State.gapSync_mem (s : State) (a1 : Nat) :
    (State.gapSync s a1).pending = s.pending ∧ (State.gapSync s a1).store = s.store ∧ (State.gapSync s a1).flash = s.flash := by
  simp [State.gapSync]

@[simp] theorem State.gapSyncAll_mem (s : State) :
    (State.gapSyncAll s).pending = s.pending ∧ (State.gapSyncAll s).store = s.store ∧ (State.gapSyncAll s).flash = s.flash := by
  simp [State.gapSyncAll, State.ite_mem, State.foldl_pending, State.foldl_store, State.foldl_flash]

@[simp] theorem State.addLoss_mem (s : State) (a1 : Nat) (a2 : Loss) :
    (State.addLoss s a1 a2).pending = s.pending ∧ (State.addLoss s a1 a2).store = s.store ∧ (State.addLoss s a1 a2).flash = s.flash := by
  simp [State.addLoss]

@[simp] theorem State.endLoss_mem (s : State) (a1 : Nat) (a2 : Nat) (a3 : Nat) :
    (State.endLoss s a1 a2 a3).pending = s.pending ∧ (State.endLoss s a1 a2 a3).store = s.store ∧ (State.endLoss s a1 a2 a3).flash = s.flash := by
  simp [State.endLoss]

@[simp] theorem State.setLoss_mem (s : State) (a1 : Nat) (a2 : Nat) (a3 : Nat) (a4 : Nat) :
    (State.setLoss s a1 a2 a3 a4).pending = s.pending ∧ (State.setLoss s a1 a2 a3 a4).store = s.store ∧ (State.setLoss s a1 a2 a3 a4).flash = s.flash := by
  simp [State.setLoss, State.ite_mem]

@[simp] theorem State.setLossAll_mem (s : State) (a1 : Nat) (a2 : Nat) (a3 : Nat) :
    (State.setLossAll s a1 a2 a3).pending = s.pending ∧ (State.setLossAll s a1 a2 a3).store = s.store ∧ (State.setLossAll s a1 a2 a3).flash = s.flash := by
  simp [State.setLossAll, State.foldl_pending, State.foldl_store, State.foldl_flash]

@[simp] theorem State.gapEnd_mem (s : State) (a1 : Nat) (a2 : Nat) (a3 : Option Nat) :
    (State.gapEnd s a1 a2 a3).pending = s.pending ∧ (State.gapEnd s a1 a2 a3).store = s.store ∧ (State.gapEnd s a1 a2 a3).flash = s.flash := by
  simp only [State.gapEnd]; (repeat' split) <;> simp

@[simp] theorem State.offerFit_mem (s : State) (a1 : Nat) (a2 : Nat) (a3 : Nat) (a4 : Nat) (a5 : Nat) :
    (State.offerFit s a1 a2 a3 a4 a5).2.2.pending = s.pending ∧ (State.offerFit s a1 a2 a3 a4 a5).2.2.store = s.store ∧ (State.offerFit s a1 a2 a3 a4 a5).2.2.flash = s.flash := by
  simp only [State.offerFit]; (repeat' split) <;> simp

@[simp] theorem State.countDrop_mem (s : State) :
    (State.countDrop s).pending = s.pending ∧ (State.countDrop s).store = s.store ∧ (State.countDrop s).flash = s.flash := by
  simp [State.countDrop]

@[simp] theorem State.dropAt_mem (s : State) (a1 : Nat) (a2 : Nat) (a3 : Nat) :
    (State.dropAt s a1 a2 a3).pending = s.pending ∧ (State.dropAt s a1 a2 a3).store = s.store ∧ (State.dropAt s a1 a2 a3).flash = s.flash := by
  simp only [State.dropAt]; (repeat' split) <;> simp

@[simp] theorem State.dropEnd_mem (s : State) (a1 : Nat) :
    (State.dropEnd s a1).pending = s.pending ∧ (State.dropEnd s a1).store = s.store ∧ (State.dropEnd s a1).flash = s.flash := by
  simp only [State.dropEnd]; (repeat' split) <;> simp

@[simp] theorem State.dropClip_mem (s : State) (a1 : Nat) (a2 : Nat) :
    (State.dropClip s a1 a2).pending = s.pending ∧ (State.dropClip s a1 a2).store = s.store ∧ (State.dropClip s a1 a2).flash = s.flash := by
  simp only [State.dropClip]; (repeat' split) <;> simp

@[simp] theorem State.element_mem (s : State) (a1 : Nat) (a2 : Nat) (a3 : Nat) (a4 : Nat) (a5 : Nat) (a6 : Nat) (a7 : Nat) :
    (State.element s a1 a2 a3 a4 a5 a6 a7).pending = s.pending ∧ (State.element s a1 a2 a3 a4 a5 a6 a7).store = s.store ∧ (State.element s a1 a2 a3 a4 a5 a6 a7).flash = s.flash := by
  unfold State.element
  dsimp only
  (repeat' split) <;> simp

@[simp] theorem State.lensCycle_mem (s : State) (a1 : Bool) (a2 : Nat) (a3 : Nat) (a4 : Nat) (a5 : List Int) (a6 : Nat) (a7 : List Rec) :
    (State.lensCycle s a1 a2 a3 a4 a5 a6 a7).pending = s.pending ∧ (State.lensCycle s a1 a2 a3 a4 a5 a6 a7).store = s.store ∧ (State.lensCycle s a1 a2 a3 a4 a5 a6 a7).flash = s.flash := by
  induction a7 generalizing s with
  | nil => simp [State.lensCycle]
  | cons x xs ih =>
    simp only [State.lensCycle]
    first
      | (simp [ih]; done)
      | ((repeat' split) <;> simp [ih]; done)
      | (simp only [ih]; (repeat' split) <;> simp [State.ite_mem, State.foldl_pending, State.foldl_store, State.foldl_flash]; done)

@[simp] theorem State.showOldest_mem (s : State) (a1 : Nat) :
    (State.showOldest s a1).pending = s.pending ∧ (State.showOldest s a1).store = s.store ∧ (State.showOldest s a1).flash = s.flash := by
  simp only [State.showOldest]; (repeat' split) <;> simp

@[simp] theorem State.skipHost_mem (s : State) (a1 : Nat) :
    (State.skipHost s a1).pending = s.pending ∧ (State.skipHost s a1).store = s.store ∧ (State.skipHost s a1).flash = s.flash := by
  simp [State.skipHost]

theorem State.exchange_mem (s : State) (a1 : Nat) (a2 : List Nat) (t : State) (h : State.exchange s a1 a2 = some t) :
    t.pending = s.pending ∧ t.store = s.store ∧ t.flash = s.flash := by
  induction a2 generalizing s a1 with
  | nil => simp only [State.exchange, Option.some.injEq] at h; subst h; simp
  | cons x xs ih =>
    simp only [State.exchange] at h
    (repeat' split at h) <;> first | contradiction | (simpa using ih _ _ h)

@[simp] theorem State.discard_mem (s : State) (a1 : Nat) (a2 : Nat) (a3 : List Nat) :
    (State.discard s a1 a2 a3).pending = s.pending ∧ (State.discard s a1 a2 a3).store = s.store ∧ (State.discard s a1 a2 a3).flash = s.flash := by
  induction a3 generalizing s a1 a2 with
  | nil => simp [State.discard]
  | cons x xs ih =>
    simp only [State.discard]
    simp [ih, State.ite_mem]

@[simp] theorem State.showPressure_mem (s : State) (a1 : Nat) :
    (State.showPressure s a1).pending = s.pending ∧ (State.showPressure s a1).store = s.store ∧ (State.showPressure s a1).flash = s.flash := by
  simp [State.showPressure]

@[simp] theorem State.showPending_mem (s : State) (a1 : Nat) :
    (State.showPending s a1).pending = s.pending ∧ (State.showPending s a1).store = s.store ∧ (State.showPending s a1).flash = s.flash := by
  simp only [State.showPending]; (repeat' split) <;> simp

@[simp] theorem State.abaDrop_mem (s : State) (a1 : Nat) (a2 : AbaJob → Bool) :
    (State.abaDrop s a1 a2).pending = s.pending ∧ (State.abaDrop s a1 a2).store = s.store ∧ (State.abaDrop s a1 a2).flash = s.flash := by
  simp only [State.abaDrop]; (repeat' split) <;> simp

@[simp] theorem State.wrap_mem (s : State) (a1 : Nat) (a2 : Nat) (a3 : Nat) (a4 : Nat) :
    (State.wrap s a1 a2 a3 a4).2.pending = s.pending ∧ (State.wrap s a1 a2 a3 a4).2.store = s.store ∧ (State.wrap s a1 a2 a3 a4).2.flash = s.flash := by
  induction a4 generalizing s with
  | zero => simp [State.wrap]
  | succ n ih =>
    simp only [State.wrap]
    (repeat' split) <;> first
      | (simp; done)
      | (have e := State.exchange_mem _ _ _ _ (by assumption : State.exchange s _ _ = some _); simp [ih, e])

@[simp] theorem State.holdWatch_mem (s : State) (a1 : Nat) :
    (State.holdWatch s a1).pending = s.pending ∧ (State.holdWatch s a1).store = s.store ∧ (State.holdWatch s a1).flash = s.flash := by
  simp [State.holdWatch, State.ite_mem]

@[simp] theorem State.holdFrom_mem (s : State) (a1 : Nat) (a2 : Nat) (a3 : Bool) :
    (State.holdFrom s a1 a2 a3).pending = s.pending ∧ (State.holdFrom s a1 a2 a3).store = s.store ∧ (State.holdFrom s a1 a2 a3).flash = s.flash := by
  simp [State.holdFrom]

@[simp] theorem State.takeClaim_mem (s : State) (a1 : Nat) (a2 : Nat) :
    (State.takeClaim s a1 a2).pending = s.pending ∧ (State.takeClaim s a1 a2).store = s.store ∧ (State.takeClaim s a1 a2).flash = s.flash := by
  simp [State.takeClaim]

@[simp] theorem State.claim_mem (s : State) (a1 : Nat) (a2 : Nat) :
    (State.claim s a1 a2).pending = s.pending ∧ (State.claim s a1 a2).store = s.store ∧ (State.claim s a1 a2).flash = s.flash := by
  unfold State.claim
  dsimp only
  (repeat' split) <;> first
    | (simp; done)
    | (rename_i hx; have e := State.wrap_mem _ _ _ _ _ _ hx; simp at e; simp [e])

@[simp] theorem State.freeSlot_mem (s : State) (a1 : Nat) (a2 : Nat) :
    (State.freeSlot s a1 a2).pending = s.pending ∧ (State.freeSlot s a1 a2).store = s.store ∧ (State.freeSlot s a1 a2).flash = s.flash := by
  simp [State.freeSlot]

@[simp] theorem State.releaseSlot_mem (s : State) (a1 : Nat) (a2 : Nat) :
    (State.releaseSlot s a1 a2).pending = s.pending ∧ (State.releaseSlot s a1 a2).store = s.store ∧ (State.releaseSlot s a1 a2).flash = s.flash := by
  simp only [State.releaseSlot]; (repeat' split) <;> simp

@[simp] theorem State.readerDone_mem (s : State) (a1 : Nat) (a2 : Nat) (a3 : Nat) :
    (State.readerDone s a1 a2 a3).pending = s.pending ∧ (State.readerDone s a1 a2 a3).store = s.store ∧ (State.readerDone s a1 a2 a3).flash = s.flash := by
  simp only [State.readerDone]; (repeat' split) <;> simp

@[simp] theorem State.setPins_mem (s : State) (a1 : Nat) (a2 : Nat) (a3 : List Nat) :
    (State.setPins s a1 a2 a3).pending = s.pending ∧ (State.setPins s a1 a2 a3).store = s.store ∧ (State.setPins s a1 a2 a3).flash = s.flash := by
  simp [State.setPins]

@[simp] theorem State.writeHeader_mem (s : State) (a1 : Nat) (a2 : Rec) :
    (State.writeHeader s a1 a2).pending = s.pending ∧ (State.writeHeader s a1 a2).store = s.store ∧ (State.writeHeader s a1 a2).flash = s.flash := by
  simp [State.writeHeader]

@[simp] theorem State.writeAbsent_mem (s : State) (a1 : Nat) (a2 : Rec) (a3 : Nat) :
    (State.writeAbsent s a1 a2 a3).pending = s.pending ∧ (State.writeAbsent s a1 a2 a3).store = s.store ∧ (State.writeAbsent s a1 a2 a3).flash = s.flash := by
  simp only [State.writeAbsent]; (repeat' split) <;> simp [State.foldl_pending, State.foldl_store, State.foldl_flash]

@[simp] theorem State.writeBlock_mem (s : State) (a1 : Nat) (a2 : Nat) (a3 : Nat) (a4 : List (List Byte)) :
    (State.writeBlock s a1 a2 a3 a4).pending = s.pending ∧ (State.writeBlock s a1 a2 a3 a4).flash = s.flash := by
  simp [State.writeBlock, State.ite_mem]

@[simp] theorem State.abaEnter_mem (s : State) (a1 : Nat) (a2 : Rec) (a3 : Nat) :
    (State.abaEnter s a1 a2 a3).pending = s.pending ∧ (State.abaEnter s a1 a2 a3).store = s.store ∧ (State.abaEnter s a1 a2 a3).flash = s.flash := by
  simp [State.abaEnter, State.ite_mem]

@[simp] theorem State.notRun_mem (s : State) (a1 : AbaJob) :
    (State.notRun s a1).pending = s.pending ∧ (State.notRun s a1).flash = s.flash := by
  simp [State.notRun]

@[simp] theorem State.skipsDue_mem (s : State) :
    (State.skipsDue s).pending = s.pending ∧ (State.skipsDue s).flash = s.flash := by
  simp [State.skipsDue, State.foldl_pending, State.foldl_flash]

@[simp] theorem State.pruneMarks_mem (s : State) (a1 : Nat) :
    (State.pruneMarks s a1).pending = s.pending ∧ (State.pruneMarks s a1).store = s.store ∧ (State.pruneMarks s a1).flash = s.flash := by
  simp [State.pruneMarks]

@[simp] theorem State.spanGaps_mem (s : State) (a1 : Nat) (a2 : Rec) :
    (State.spanGaps s a1 a2).pending = s.pending ∧ (State.spanGaps s a1 a2).store = s.store ∧ (State.spanGaps s a1 a2).flash = s.flash := by
  simp [State.spanGaps, State.ite_mem]

@[simp] theorem State.finalHeader_mem (s : State) (a1 : Nat) (a2 : Rec) (a3 : Nat) :
    (State.finalHeader s a1 a2 a3).pending = s.pending ∧ (State.finalHeader s a1 a2 a3).store = s.store ∧ (State.finalHeader s a1 a2 a3).flash = s.flash := by
  simp [State.finalHeader, State.ite_mem, State.foldl_pending, State.foldl_store, State.foldl_flash]

@[simp] theorem State.openRec_mem (s : State) (a1 : Nat) (a2 : Rec) :
    (State.openRec s a1 a2).pending = s.pending ∧ (State.openRec s a1 a2).store = s.store ∧ (State.openRec s a1 a2).flash = s.flash := by
  simp [State.openRec]

@[simp] theorem State.newRec_mem (s : State) (a1 : Nat) (a2 : Nat) (a3 : Nat) (a4 : Nat) (a5 : Nat) (a6 : Nat) (a7 : Nat) (a8 : Nat) (a9 : Nat) :
    (State.newRec s a1 a2 a3 a4 a5 a6 a7 a8 a9).2.pending = s.pending ∧ (State.newRec s a1 a2 a3 a4 a5 a6 a7 a8 a9).2.store = s.store ∧ (State.newRec s a1 a2 a3 a4 a5 a6 a7 a8 a9).2.flash = s.flash := by
  simp [State.newRec]

@[simp] theorem State.lensBacklog_mem (s : State) (a1 : Nat) (a2 : Rec) :
    (State.lensBacklog s a1 a2).pending = s.pending ∧ (State.lensBacklog s a1 a2).store = s.store ∧ (State.lensBacklog s a1 a2).flash = s.flash := by
  simp only [State.lensBacklog]; (repeat' split) <;> simp [State.ite_mem, State.foldl_pending, State.foldl_store, State.foldl_flash]

@[simp] theorem State.spanEnd_mem (s : State) (a1 : Nat) :
    (State.spanEnd s a1).pending = s.pending ∧ (State.spanEnd s a1).store = s.store ∧ (State.spanEnd s a1).flash = s.flash := by
  simp only [State.spanEnd]; (repeat' split) <;> simp

@[simp] theorem State.copyWindow_mem (s : State) (a1 : Nat) (a2 : Nat) (a3 : Nat) :
    (State.copyWindow s a1 a2 a3).pending = s.pending ∧ (State.copyWindow s a1 a2 a3).flash = s.flash := by
  simp only [State.copyWindow]; (repeat' split) <;> simp [State.foldl_pending, State.foldl_flash]

@[simp] theorem State.beginAccept_mem (s : State) (a1 : Nat) (a2 : Nat) :
    (State.beginAccept s a1 a2).pending = s.pending ∧ (State.beginAccept s a1 a2).store = s.store ∧ (State.beginAccept s a1 a2).flash = s.flash := by
  simp only [State.beginAccept]; (repeat' split) <;> simp

@[simp] theorem State.startRegion_mem (s : State) (a1 : Nat) (a2 : Nat) :
    (State.startRegion s a1 a2).pending = s.pending ∧ (State.startRegion s a1 a2).flash = s.flash := by
  simp only [State.startRegion]; (repeat' split) <;> simp

@[simp] theorem State.openCont_mem (s : State) (a1 : Nat) :
    (State.openCont s a1).pending = s.pending ∧ (State.openCont s a1).store = s.store ∧ (State.openCont s a1).flash = s.flash := by
  simp only [State.openCont]; (repeat' split) <;> simp

@[simp] theorem State.release_mem (s : State) (a1 : Nat) :
    (State.release s a1).pending = s.pending ∧ (State.release s a1).store = s.store ∧ (State.release s a1).flash = s.flash := by
  simp only [State.release]; (repeat' split) <;> simp

@[simp] theorem State.moveWindow_mem (s : State) (a1 : RegTab) (a2 : Nat) :
    (State.moveWindow s a1 a2).pending = s.pending ∧ (State.moveWindow s a1 a2).flash = s.flash := by
  simp only [State.moveWindow]; (repeat' split) <;> simp

@[simp] theorem State.pruneGaps_mem (s : State) (a1 : Nat) :
    (State.pruneGaps s a1).pending = s.pending ∧ (State.pruneGaps s a1).store = s.store ∧ (State.pruneGaps s a1).flash = s.flash := by
  simp [State.pruneGaps]

@[simp] theorem State.abaView_mem (s : State) (a1 : AbaJob) :
    (State.abaView s a1).pending = s.pending ∧ (State.abaView s a1).flash = s.flash := by
  simp [State.abaView, State.foldl_pending, State.foldl_flash]

@[simp] theorem State.drawnIn_mem (s : State) (a1 : State) :
    (State.drawnIn s a1).pending = s.pending ∧ (State.drawnIn s a1).store = s.store ∧ (State.drawnIn s a1).flash = s.flash := by
  simp [State.drawnIn]

@[simp] theorem State.measureHead_mem (s : State) (a1 : AbaJob) (a2 : List AbaJob) (a3 : Nat) :
    (State.measureHead s a1 a2 a3).pending = s.pending ∧ (State.measureHead s a1 a2 a3).flash = s.flash := by
  simp [State.measureHead]

@[simp] theorem State.frameLost_mem (s : State) (a1 : Frame) (a2 : List Nat) :
    (State.frameLost s a1 a2).pending = s.pending ∧ (State.frameLost s a1 a2).store = s.store ∧ (State.frameLost s a1 a2).flash = s.flash := by
  induction a2 generalizing s a1 with
  | nil => simp [State.frameLost]
  | cons x xs ih =>
    simp only [State.frameLost]
    simp [ih, State.ite_mem]

@[simp] theorem State.copyLost_mem (s : State) (a1 : Nat) (a2 : Nat) :
    (State.copyLost s a1 a2).pending = s.pending ∧ (State.copyLost s a1 a2).store = s.store ∧ (State.copyLost s a1 a2).flash = s.flash := by
  unfold State.copyLost
  (repeat' apply And.intro) <;> first
    | exact State.foldl_pending _ _ _ (by intro t x; dsimp only; (repeat' split) <;> simp)
    | exact State.foldl_store _ _ _ (by intro t x; dsimp only; (repeat' split) <;> simp)
    | exact State.foldl_flash _ _ _ (by intro t x; dsimp only; (repeat' split) <;> simp)

theorem State.frameAlloc_mem (s : State) (a1 : Nat) (t : Nat × State) (h : State.frameAlloc s a1 = some t) :
    t.2.pending = s.pending ∧ t.2.store = s.store ∧ t.2.flash = s.flash := by
  unfold State.frameAlloc at h
  dsimp only at h
  split at h
  · contradiction
  · simp only [Option.some.injEq] at h
    subst h
    simp [State.foldl_pending, State.foldl_store, State.foldl_flash]

@[simp] theorem State.publishFrame_mem (s : State) (a1 : Nat) (a2 : Nat) (a3 : Nat) (a4 : Nat) (a5 : Nat) (a6 : Nat) (a7 : Nat) :
    (State.publishFrame s a1 a2 a3 a4 a5 a6 a7).pending = s.pending ∧ (State.publishFrame s a1 a2 a3 a4 a5 a6 a7).store = s.store ∧ (State.publishFrame s a1 a2 a3 a4 a5 a6 a7).flash = s.flash := by
  simp [State.publishFrame]

@[simp] theorem State.avgReject_mem (s : State) (a1 : Nat) :
    (State.avgReject s a1).pending = s.pending ∧ (State.avgReject s a1).store = s.store ∧ (State.avgReject s a1).flash = s.flash := by
  simp [State.avgReject]

@[simp] theorem State.avgOffer_mem (s : State) (a1 : Nat) (a2 : Rec) :
    (State.avgOffer s a1 a2).pending = s.pending ∧ (State.avgOffer s a1 a2).store = s.store ∧ (State.avgOffer s a1 a2).flash = s.flash := by
  simp [State.avgOffer, State.ite_mem]

@[simp] theorem State.avgPublish_mem (s : State) (a1 : Nat) (a2 : Bool) :
    (State.avgPublish s a1 a2).pending = s.pending ∧ (State.avgPublish s a1 a2).flash = s.flash := by
  unfold State.avgPublish
  dsimp only
  split
  · simp
  · rename_i hx; have e := State.frameAlloc_mem _ _ _ hx; simp at e; simp [e]

@[simp] theorem State.avgStop_mem (s : State) (a1 : Nat) :
    (State.avgStop s a1).pending = s.pending ∧ (State.avgStop s a1).flash = s.flash := by
  simp only [State.avgStop]; (repeat' split) <;> simp

@[simp] theorem State.avgDone_mem (s : State) (a1 : Nat) (a2 : AvgJob) :
    (State.avgDone s a1 a2).pending = s.pending ∧ (State.avgDone s a1 a2).flash = s.flash := by
  simp [State.avgDone, State.ite_mem]

@[simp] theorem State.avgLand_mem (s : State) (a1 : Nat) (a2 : Nat) :
    (State.avgLand s a1 a2).pending = s.pending ∧ (State.avgLand s a1 a2).flash = s.flash := by
  unfold State.avgLand
  dsimp only
  (repeat' split) <;> first
    | (simp; done)
    | (simp only [State.setAvg_frame, State.served_mem]
       (repeat' apply And.intro) <;> first
         | exact State.foldl_pending _ _ _ (by intro t x; (repeat' split) <;> simp)
         | exact State.foldl_flash _ _ _ (by intro t x; (repeat' split) <;> simp))

@[simp] theorem State.avgAddCh_mem (s : State) (a1 : State) (a2 : Avg) (a3 : AvgJob) (a4 : Nat) :
    (State.avgAddCh s a1 a2 a3 a4).pending = s.pending ∧ (State.avgAddCh s a1 a2 a3 a4).flash = s.flash := by
  simp [State.avgAddCh, State.foldl_pending, State.foldl_flash]

@[simp] theorem State.avgJoin_mem (s : State) (a1 : Nat) (a2 : AvgJob) (a3 : List AvgJob) :
    (State.avgJoin s a1 a2 a3).pending = s.pending ∧ (State.avgJoin s a1 a2 a3).flash = s.flash := by
  simp [State.avgJoin, State.ite_mem, State.foldl_pending, State.foldl_flash]

@[simp] theorem State.avgRestart_mem (s : State) (a1 : Nat) :
    (State.avgRestart s a1).pending = s.pending ∧ (State.avgRestart s a1).store = s.store ∧ (State.avgRestart s a1).flash = s.flash := by
  simp [State.avgRestart]

@[simp] theorem State.avgDiscard_mem (s : State) (a1 : Nat) :
    (State.avgDiscard s a1).pending = s.pending ∧ (State.avgDiscard s a1).store = s.store ∧ (State.avgDiscard s a1).flash = s.flash := by
  simp [State.avgDiscard, State.ite_mem]

@[simp] theorem State.dbSkip_mem (s : State) (a1 : Nat) :
    (State.dbSkip s a1).pending = s.pending ∧ (State.dbSkip s a1).store = s.store ∧ (State.dbSkip s a1).flash = s.flash := by
  simp [State.dbSkip]

@[simp] theorem State.hitOffer_mem (s : State) (a1 : Nat) (a2 : Rec) (a3 : List Nat) :
    (State.hitOffer s a1 a2 a3).pending = s.pending ∧ (State.hitOffer s a1 a2 a3).store = s.store ∧ (State.hitOffer s a1 a2 a3).flash = s.flash := by
  induction a3 generalizing s a1 a2 with
  | nil => simp [State.hitOffer]
  | cons x xs ih =>
    simp only [State.hitOffer]
    simp [ih, State.ite_mem]

@[simp] theorem State.tallyOffer_mem (s : State) (a1 : Nat) (a2 : Rec) :
    (State.tallyOffer s a1 a2).pending = s.pending ∧ (State.tallyOffer s a1 a2).store = s.store ∧ (State.tallyOffer s a1 a2).flash = s.flash := by
  simp [State.tallyOffer]

@[simp] theorem State.hitEnter_mem (s : State) (a1 : Nat) (a2 : List Nat) :
    (State.hitEnter s a1 a2).pending = s.pending ∧ (State.hitEnter s a1 a2).store = s.store ∧ (State.hitEnter s a1 a2).flash = s.flash := by
  induction a2 generalizing s a1 with
  | nil => simp [State.hitEnter]
  | cons x xs ih =>
    simp only [State.hitEnter]
    first
      | (simp [ih]; done)
      | ((repeat' split) <;> simp [ih]; done)
      | (simp only [ih]; (repeat' split) <;> simp [State.ite_mem, State.foldl_pending, State.foldl_store, State.foldl_flash]; done)

@[simp] theorem State.hitDraw_mem (s : State) :
    (State.hitDraw s).pending = s.pending ∧ (State.hitDraw s).store = s.store ∧ (State.hitDraw s).flash = s.flash := by
  simp only [State.hitDraw]; (repeat' split) <;> simp

@[simp] theorem State.sweepEnd_mem (s : State) (a1 : Nat) :
    (State.sweepEnd s a1).pending = s.pending ∧ (State.sweepEnd s a1).store = s.store ∧ (State.sweepEnd s a1).flash = s.flash := by
  simp only [State.sweepEnd]; (repeat' split) <;> simp

@[simp] theorem State.sweepStart_mem (s : State) (a1 : Nat) (a2 : Nat) :
    (State.sweepStart s a1 a2).pending = s.pending ∧ (State.sweepStart s a1 a2).store = s.store ∧ (State.sweepStart s a1 a2).flash = s.flash := by
  simp [State.sweepStart, State.ite_mem]

@[simp] theorem State.sweepDue_mem (s : State) (a1 : Nat) (a2 : Nat) :
    (State.sweepDue s a1 a2).pending = s.pending ∧ (State.sweepDue s a1 a2).store = s.store ∧ (State.sweepDue s a1 a2).flash = s.flash := by
  simp only [State.sweepDue]; (repeat' split) <;> simp

@[simp] theorem State.dbSnap_mem (s : State) (a1 : Nat) :
    (State.dbSnap s a1).pending = s.pending ∧ (State.dbSnap s a1).store = s.store ∧ (State.dbSnap s a1).flash = s.flash := by
  simp [State.dbSnap]

@[simp] theorem State.snapHeader_mem (s : State) (a1 : Nat) (a2 : Nat) (a3 : DbCopy) (a4 : Nat) (a5 : Nat) :
    (State.snapHeader s a1 a2 a3 a4 a5).pending = s.pending ∧ (State.snapHeader s a1 a2 a3 a4 a5).flash = s.flash := by
  simp [State.snapHeader]

@[simp] theorem State.copyBegin_mem (s : State) (a1 : Nat) (a2 : Nat) :
    (State.copyBegin s a1 a2).pending = s.pending ∧ (State.copyBegin s a1 a2).flash = s.flash := by
  unfold State.copyBegin
  dsimp only
  split
  · simp
  · rename_i hx; have e := State.frameAlloc_mem _ _ _ hx; simp at e; simp [e]

@[simp] theorem State.writeCells_mem (s : State) (a1 : Nat) (a2 : Tab Nat) :
    (State.writeCells s a1 a2).pending = s.pending ∧ (State.writeCells s a1 a2).flash = s.flash := by
  simp [State.writeCells, State.foldl_pending, State.foldl_flash]

@[simp] theorem State.dbClear_mem (s : State) (a1 : Nat) :
    (State.dbClear s a1).pending = s.pending ∧ (State.dbClear s a1).store = s.store ∧ (State.dbClear s a1).flash = s.flash := by
  simp [State.dbClear]

@[simp] theorem State.pushWord_mem (s : State) (a1 : Nat) (a2 : Nat) (a3 : Nat) (a4 : List Int) (a5 : List Marks) :
    (State.pushWord s a1 a2 a3 a4 a5).pending = s.pending ∧ (State.pushWord s a1 a2 a3 a4 a5).store = s.store ∧ (State.pushWord s a1 a2 a3 a4 a5).flash = s.flash := by
  induction a5 generalizing s a1 a2 a3 a4 with
  | nil => simp [State.pushWord]
  | cons x xs ih =>
    simp only [State.pushWord]
    simp [ih]

@[simp] theorem State.chainBegin_mem (s : State) (a1 : Nat) (a2 : Nat) :
    (State.chainBegin s a1 a2).pending = s.pending ∧ (State.chainBegin s a1 a2).store = s.store ∧ (State.chainBegin s a1 a2).flash = s.flash := by
  simp only [State.chainBegin]; (repeat' split) <;> simp

@[simp] theorem State.chainWord_mem (s : State) (a1 : Nat) (a2 : Nat) (a3 : List Int) (a4 : List Marks) :
    (State.chainWord s a1 a2 a3 a4).pending = s.pending ∧ (State.chainWord s a1 a2 a3 a4).store = s.store ∧ (State.chainWord s a1 a2 a3 a4).flash = s.flash := by
  simp only [State.chainWord]; (repeat' split) <;> simp

@[simp] theorem State.dcPush_mem (s : State) (a1 : Nat) (a2 : Bool) (a3 : List (Nat × Int)) :
    (State.dcPush s a1 a2 a3).pending = s.pending ∧ (State.dcPush s a1 a2 a3).store = s.store ∧ (State.dcPush s a1 a2 a3).flash = s.flash := by
  simp [State.dcPush, State.ite_mem, State.foldl_pending, State.foldl_store, State.foldl_flash]

@[simp] theorem State.toStore_mem (s : State) (a1 : Nat) (a2 : Nat) (a3 : Nat) (a4 : List Int) (a5 : Marks) :
    (State.toStore s a1 a2 a3 a4 a5).pending = s.pending ∧ (State.toStore s a1 a2 a3 a4 a5).store = s.store ∧ (State.toStore s a1 a2 a3 a4 a5).flash = s.flash := by
  simp only [State.toStore]; (repeat' split) <;> simp

@[simp] theorem State.freezeWrite_mem (s : State) (a1 : Nat) (a2 : Nat) (a3 : Bool) :
    (State.freezeWrite s a1 a2 a3).pending = s.pending ∧ (State.freezeWrite s a1 a2 a3).store = s.store ∧ (State.freezeWrite s a1 a2 a3).flash = s.flash := by
  simp [State.freezeWrite]

@[simp] theorem State.showSrc_mem (s : State) :
    (State.showSrc s).pending = s.pending ∧ (State.showSrc s).store = s.store ∧ (State.showSrc s).flash = s.flash := by
  simp [State.showSrc, State.foldl_pending, State.foldl_store, State.foldl_flash]

@[simp] theorem State.queueEv_mem (s : State) (a1 : Nat) (a2 : TrgEv) :
    (State.queueEv s a1 a2).pending = s.pending ∧ (State.queueEv s a1 a2).store = s.store ∧ (State.queueEv s a1 a2).flash = s.flash := by
  simp [State.queueEv]

@[simp] theorem State.offer_mem (s : State) (a1 : Nat) (a2 : Nat) (a3 : Bool) (a4 : Bool) :
    (State.offer s a1 a2 a3 a4).pending = s.pending ∧ (State.offer s a1 a2 a3 a4).store = s.store ∧ (State.offer s a1 a2 a3 a4).flash = s.flash := by
  simp [State.offer, State.ite_mem, State.foldl_pending, State.foldl_store, State.foldl_flash]

@[simp] theorem State.startMeas_mem (s : State) (a1 : Nat) (a2 : Nat) (a3 : Bool) (a4 : Bool) :
    (State.startMeas s a1 a2 a3 a4).pending = s.pending ∧ (State.startMeas s a1 a2 a3 a4).store = s.store ∧ (State.startMeas s a1 a2 a3 a4).flash = s.flash := by
  simp [State.startMeas]

@[simp] theorem State.coarse_mem (s : State) (a1 : Nat) (a2 : Nat) (a3 : Bool) :
    (State.coarse s a1 a2 a3).pending = s.pending ∧ (State.coarse s a1 a2 a3).store = s.store ∧ (State.coarse s a1 a2 a3).flash = s.flash := by
  simp [State.coarse]

@[simp] theorem State.fineTerm_mem (s : State) (a1 : Nat) (a2 : Nat) (a3 : Nat) :
    (State.fineTerm s a1 a2 a3).2.pending = s.pending ∧ (State.fineTerm s a1 a2 a3).2.store = s.store ∧ (State.fineTerm s a1 a2 a3).2.flash = s.flash := by
  simp only [State.fineTerm]; (repeat' split) <;> simp

@[simp] theorem State.intLost_mem (s : State) (a1 : Nat) (a2 : Nat) :
    (State.intLost s a1 a2).pending = s.pending ∧ (State.intLost s a1 a2).store = s.store ∧ (State.intLost s a1 a2).flash = s.flash := by
  simp only [State.intLost]; (repeat' split) <;> simp

@[simp] theorem State.intFail_mem (s : State) (a1 : Nat) (a2 : Nat) :
    (State.intFail s a1 a2).pending = s.pending ∧ (State.intFail s a1 a2).store = s.store ∧ (State.intFail s a1 a2).flash = s.flash := by
  simp [State.intFail, State.ite_mem]

@[simp] theorem State.startTimers_mem (s : State) (a1 : Nat) (a2 : Nat) :
    (State.startTimers s a1 a2).pending = s.pending ∧ (State.startTimers s a1 a2).store = s.store ∧ (State.startTimers s a1 a2).flash = s.flash := by
  simp [State.startTimers]

@[simp] theorem State.intRefs_mem (s : State) (a1 : Nat) (a2 : Nat) (a3 : Nat) (a4 : Nat) :
    (State.intRefs s a1 a2 a3 a4).pending = s.pending ∧ (State.intRefs s a1 a2 a3 a4).store = s.store ∧ (State.intRefs s a1 a2 a3 a4).flash = s.flash := by
  simp [State.intRefs, State.ite_mem]

@[simp] theorem State.intSwap_mem (s : State) (a1 : Nat) (a2 : Nat) (a3 : Nat) :
    (State.intSwap s a1 a2 a3).pending = s.pending ∧ (State.intSwap s a1 a2 a3).store = s.store ∧ (State.intSwap s a1 a2 a3).flash = s.flash := by
  simp only [State.intSwap]; (repeat' split) <;> simp

@[simp] theorem State.countCand_mem (s : State) (a1 : Nat) (a2 : Nat) :
    (State.countCand s a1 a2).pending = s.pending ∧ (State.countCand s a1 a2).store = s.store ∧ (State.countCand s a1 a2).flash = s.flash := by
  simp only [State.countCand]; (repeat' split) <;> simp

@[simp] theorem State.accept_mem (s : State) (a1 : Nat) (a2 : Nat) (a3 : Nat) (a4 : Bool) :
    (State.accept s a1 a2 a3 a4).pending = s.pending ∧ (State.accept s a1 a2 a3 a4).flash = s.flash := by
  simp only [State.accept]; (repeat' split) <;> simp

@[simp] theorem State.candidate_mem (s : State) (a1 : Nat) (a2 : Nat) (a3 : Bool) :
    (State.candidate s a1 a2 a3).pending = s.pending ∧ (State.candidate s a1 a2 a3).flash = s.flash := by
  simp [State.candidate, State.ite_mem]

@[simp] theorem State.forced_mem (s : State) (a1 : Nat) (a2 : Nat) :
    (State.forced s a1 a2).pending = s.pending ∧ (State.forced s a1 a2).flash = s.flash := by
  simp [State.forced, State.ite_mem]

@[simp] theorem State.freshDef_mem (s : State) (a1 : Nat) (a2 : Nat) :
    (State.freshDef s a1 a2).pending = s.pending ∧ (State.freshDef s a1 a2).store = s.store ∧ (State.freshDef s a1 a2).flash = s.flash := by
  simp only [State.freshDef]; (repeat' split) <;> simp

@[simp] theorem State.dropBypass_mem (s : State) (a1 : Nat) (a2 : Nat) (a3 : Nat) :
    (State.dropBypass s a1 a2 a3).pending = s.pending ∧ (State.dropBypass s a1 a2 a3).store = s.store ∧ (State.dropBypass s a1 a2 a3).flash = s.flash := by
  simp [State.dropBypass, State.ite_mem]

@[simp] theorem State.evalEv_mem (s : State) (a1 : Nat) (a2 : TrgEv) :
    (State.evalEv s a1 a2).pending = s.pending ∧ (State.evalEv s a1 a2).flash = s.flash := by
  simp only [State.evalEv]; (repeat' split) <;> simp

@[simp] theorem State.decideNow_mem (s : State) (a1 : Nat) (a2 : TrgEv) :
    (State.decide_ s a1 a2).pending = s.pending ∧ (State.decide_ s a1 a2).flash = s.flash := by
  simp only [State.decide_]; (repeat' split) <;> simp

@[simp] theorem State.armWrite_mem (s : State) (a1 : Nat) (a2 : Nat) :
    (State.armWrite s a1 a2).pending = s.pending ∧ (State.armWrite s a1 a2).store = s.store ∧ (State.armWrite s a1 a2).flash = s.flash := by
  simp [State.armWrite]

@[simp] theorem State.armAt_mem (s : State) (a1 : Nat) (a2 : Nat) :
    (State.armAt s a1 a2).pending = s.pending ∧ (State.armAt s a1 a2).flash = s.flash := by
  simp [State.armAt, State.ite_mem]

@[simp] theorem State.armApply_mem (s : State) (a1 : Nat) (a2 : Nat) :
    (State.armApply s a1 a2).pending = s.pending ∧ (State.armApply s a1 a2).flash = s.flash := by
  simp only [State.armApply]; (repeat' split) <;> simp

@[simp] theorem State.stopWrite_mem (s : State) (a1 : Nat) (a2 : Nat) :
    (State.stopWrite s a1 a2).pending = s.pending ∧ (State.stopWrite s a1 a2).store = s.store ∧ (State.stopWrite s a1 a2).flash = s.flash := by
  simp [State.stopWrite, State.ite_mem]

@[simp] theorem State.endAcq_mem (s : State) (a1 : Nat) (a2 : Nat) :
    (State.endAcq s a1 a2).pending = s.pending ∧ (State.endAcq s a1 a2).flash = s.flash := by
  simp [State.endAcq, State.ite_mem]

@[simp] theorem State.cutCont_mem (s : State) (a1 : Nat) (a2 : Nat) :
    (State.cutCont s a1 a2).pending = s.pending ∧ (State.cutCont s a1 a2).store = s.store ∧ (State.cutCont s a1 a2).flash = s.flash := by
  simp only [State.cutCont]; (repeat' split) <;> simp

@[simp] theorem State.stopApply_mem (s : State) (a1 : Nat) (a2 : Nat) :
    (State.stopApply s a1 a2).pending = s.pending ∧ (State.stopApply s a1 a2).flash = s.flash := by
  simp only [State.stopApply]; (repeat' split) <;> simp

@[simp] theorem State.forceWrite_mem (s : State) (a1 : Nat) (a2 : Nat) :
    (State.forceWrite s a1 a2).pending = s.pending ∧ (State.forceWrite s a1 a2).store = s.store ∧ (State.forceWrite s a1 a2).flash = s.flash := by
  simp [State.forceWrite, State.ite_mem]

@[simp] theorem State.fenceRecs_mem (s : State) (a1 : Nat) (a2 : Nat) (a3 : Nat) (a4 : List Rec) :
    (State.fenceRecs s a1 a2 a3 a4).pending = s.pending ∧ (State.fenceRecs s a1 a2 a3 a4).flash = s.flash := by
  simp [State.fenceRecs, State.ite_mem, State.foldl_pending, State.foldl_flash]

@[simp] theorem State.fenceGroup_mem (s : State) (a1 : Nat) (a2 : Nat) (a3 : Nat) :
    (State.fenceGroup s a1 a2 a3).pending = s.pending ∧ (State.fenceGroup s a1 a2 a3).flash = s.flash := by
  simp [State.fenceGroup]

@[simp] theorem State.fenceOne_mem (s : State) (a1 : Nat) (a2 : Nat) :
    (State.fenceOne s a1 a2).pending = s.pending ∧ (State.fenceOne s a1 a2).flash = s.flash := by
  simp only [State.fenceOne]; (repeat' split) <;> simp [State.foldl_pending, State.foldl_store, State.foldl_flash]

@[simp] theorem State.fenceChs_mem (s : State) (a1 : Nat) (a2 : List Nat) :
    (State.fenceChs s a1 a2).pending = s.pending ∧ (State.fenceChs s a1 a2).flash = s.flash := by
  simp [State.fenceChs, State.foldl_pending, State.foldl_flash]

@[simp] theorem State.fenceCluster_mem (s : State) (a1 : Nat) (a2 : Nat) :
    (State.fenceCluster s a1 a2).pending = s.pending ∧ (State.fenceCluster s a1 a2).flash = s.flash := by
  simp [State.fenceCluster, State.ite_mem]

@[simp] theorem State.fenceRegion_mem (s : State) (a1 : Nat) (a2 : Nat) :
    (State.fenceRegion s a1 a2).pending = s.pending ∧ (State.fenceRegion s a1 a2).flash = s.flash := by
  simp [State.fenceRegion]

@[simp] theorem State.fenceDie_mem (s : State) (a1 : Nat) (a2 : Nat) :
    (State.fenceDie s a1 a2).pending = s.pending ∧ (State.fenceDie s a1 a2).flash = s.flash := by
  simp [State.fenceDie]

@[simp] theorem State.unitWords_mem (s : State) (a1 : Nat) (a2 : Nat) (a3 : List Nat) (a4 : List RawWord) :
    (State.unitWords s a1 a2 a3 a4).2.pending = s.pending ∧ (State.unitWords s a1 a2 a3 a4).2.store = s.store ∧ (State.unitWords s a1 a2 a3 a4).2.flash = s.flash := by
  simp only [State.unitWords]; (repeat' split) <;> simp

@[simp] theorem State.regionWords_mem (s : State) (a1 : Nat) (a2 : List RawWord) (a3 : List (Nat × List Nat × List Nat)) :
    (State.regionWords s a1 a2 a3).2.pending = s.pending ∧ (State.regionWords s a1 a2 a3).2.store = s.store ∧ (State.regionWords s a1 a2 a3).2.flash = s.flash := by
  induction a3 generalizing s a1 a2 with
  | nil => simp [State.regionWords]
  | cons x xs ih =>
    simp only [State.regionWords]
    simp [ih]

@[simp] theorem State.ovldAt_mem (s : State) (a1 : Nat) (a2 : Nat) :
    (State.ovldAt s a1 a2).pending = s.pending ∧ (State.ovldAt s a1 a2).store = s.store ∧ (State.ovldAt s a1 a2).flash = s.flash := by
  simp [State.ovldAt, State.ite_mem]

@[simp] theorem State.countMarks_mem (s : State) (a1 : Nat) (a2 : List Marks) :
    (State.countMarks s a1 a2).pending = s.pending ∧ (State.countMarks s a1 a2).store = s.store ∧ (State.countMarks s a1 a2).flash = s.flash := by
  simp [State.countMarks, State.ite_mem]

@[simp] theorem State.deliver_mem (s : State) (a1 : Nat) (a2 : Nat) (a3 : List Int) (a4 : List Marks) :
    (State.deliver s a1 a2 a3 a4).pending = s.pending ∧ (State.deliver s a1 a2 a3 a4).store = s.store ∧ (State.deliver s a1 a2 a3 a4).flash = s.flash := by
  simp only [State.deliver]; (repeat' split) <;> simp

@[simp] theorem State.deliverUnit_mem (s : State) (a1 : Nat) (a2 : List Unit_) (a3 : Unit_) :
    (State.deliverUnit s a1 a2 a3).pending = s.pending ∧ (State.deliverUnit s a1 a2 a3).store = s.store ∧ (State.deliverUnit s a1 a2 a3).flash = s.flash := by
  simp [State.deliverUnit, State.ite_mem]

@[simp] theorem State.eccUnit_mem (s : State) (a1 : Nat) (a2 : Unit_) :
    (State.eccUnit s a1 a2).pending = s.pending ∧ (State.eccUnit s a1 a2).flash = s.flash := by
  simp [State.eccUnit, State.ite_mem]

@[simp] theorem State.tallyWord_mem (s : State) (a1 : Nat) (a2 : Nat) :
    (State.tallyWord s a1 a2).pending = s.pending ∧ (State.tallyWord s a1 a2).flash = s.flash := by
  simp [State.tallyWord, State.ite_mem, State.foldl_pending, State.foldl_flash]

@[simp] theorem State.regionWord_mem (s : State) (a1 : Nat) (a2 : Nat) (a3 : List RawWord) :
    (State.regionWord s a1 a2 a3).pending = s.pending ∧ (State.regionWord s a1 a2 a3).flash = s.flash := by
  simp [State.regionWord, State.foldl_pending, State.foldl_flash]

@[simp] theorem State.stepFigures_mem (s : State) (a1 : Nat) :
    (State.stepFigures s a1).pending = s.pending ∧ (State.stepFigures s a1).store = s.store ∧ (State.stepFigures s a1).flash = s.flash := by
  simp [State.stepFigures]

@[simp] theorem State.stepArray_mem (s : State) (a1 : Nat) (a2 : Nat) :
    (State.stepArray s a1 a2).pending = s.pending ∧ (State.stepArray s a1 a2).store = s.store ∧ (State.stepArray s a1 a2).flash = s.flash := by
  simp only [State.stepArray]; (repeat' split) <;> simp

@[simp] theorem State.rotTake_mem (s : State) (a1 : Nat) (a2 : Nat) :
    (State.rotTake s a1 a2).pending = s.pending ∧ (State.rotTake s a1 a2).store = s.store ∧ (State.rotTake s a1 a2).flash = s.flash := by
  simp [State.rotTake, State.foldl_pending, State.foldl_store, State.foldl_flash]

@[simp] theorem State.rotDecide_mem (s : State) (a1 : Nat) (a2 : Nat) :
    (State.rotDecide s a1 a2).pending = s.pending ∧ (State.rotDecide s a1 a2).store = s.store ∧ (State.rotDecide s a1 a2).flash = s.flash := by
  simp [State.rotDecide, State.ite_mem]

@[simp] theorem State.showDue_mem (s : State) (a1 : Nat) (a2 : Nat) :
    (State.showDue s a1 a2).pending = s.pending ∧ (State.showDue s a1 a2).store = s.store ∧ (State.showDue s a1 a2).flash = s.flash := by
  simp only [State.showDue]; (repeat' split) <;> simp

@[simp] theorem State.noSpare_mem (s : State) (a1 : Nat) :
    (State.noSpare s a1).pending = s.pending ∧ (State.noSpare s a1).store = s.store ∧ (State.noSpare s a1).flash = s.flash := by
  simp [State.noSpare, State.ite_mem, State.foldl_pending, State.foldl_store, State.foldl_flash]

@[simp] theorem State.spareFail_mem (s : State) (a1 : Nat) :
    (State.spareFail s a1).pending = s.pending ∧ (State.spareFail s a1).flash = s.flash := by
  simp only [State.spareFail]; (repeat' split) <;> simp

@[simp] theorem State.serveFail_mem (s : State) (a1 : Nat) (a2 : Nat) :
    (State.serveFail s a1 a2).pending = s.pending ∧ (State.serveFail s a1 a2).flash = s.flash := by
  simp [State.serveFail, State.ite_mem]

@[simp] theorem State.posFail_mem (s : State) (a1 : Nat) (a2 : Nat) :
    (State.posFail s a1 a2).pending = s.pending ∧ (State.posFail s a1 a2).flash = s.flash := by
  simp only [State.posFail]; (repeat' split) <;> simp

@[simp] theorem State.takeSlot_mem (s : State) (a1 : Nat) (a2 : Nat) :
    (State.takeSlot s a1 a2).pending = s.pending ∧ (State.takeSlot s a1 a2).store = s.store ∧ (State.takeSlot s a1 a2).flash = s.flash := by
  simp only [State.takeSlot]; (repeat' split) <;> simp

@[simp] theorem State.schedule_mem (s : State) (a1 : Nat) (a2 : Nat) :
    (State.schedule s a1 a2).pending = s.pending ∧ (State.schedule s a1 a2).store = s.store ∧ (State.schedule s a1 a2).flash = s.flash := by
  simp only [State.schedule]; (repeat' split) <;> simp

@[simp] theorem State.rotate_mem (s : State) (a1 : Nat) (a2 : Nat) :
    (State.rotate s a1 a2).pending = s.pending ∧ (State.rotate s a1 a2).store = s.store ∧ (State.rotate s a1 a2).flash = s.flash := by
  simp [State.rotate, State.ite_mem, State.foldl_pending, State.foldl_store, State.foldl_flash]

@[simp] theorem State.rotStart_mem (s : State) (a1 : Nat) :
    (State.rotStart s a1).pending = s.pending ∧ (State.rotStart s a1).store = s.store ∧ (State.rotStart s a1).flash = s.flash := by
  simp [State.rotStart, State.ite_mem, State.foldl_pending, State.foldl_store, State.foldl_flash]

@[simp] theorem State.loadCoef_mem (s : State) (a1 : Nat) (a2 : Nat) (a3 : Nat) (a4 : List Nat) :
    (State.loadCoef s a1 a2 a3 a4).pending = s.pending ∧ (State.loadCoef s a1 a2 a3 a4).store = s.store ∧ (State.loadCoef s a1 a2 a3 a4).flash = s.flash := by
  induction a4 generalizing s a1 a2 a3 with
  | nil => simp [State.loadCoef]
  | cons x xs ih =>
    simp only [State.loadCoef]
    simp [ih]

@[simp] theorem State.monitorCheck_mem (s : State) (a1 : Nat) :
    (State.monitorCheck s a1).pending = s.pending ∧ (State.monitorCheck s a1).flash = s.flash := by
  simp [State.monitorCheck, State.ite_mem, State.foldl_pending, State.foldl_flash]

@[simp] theorem State.failPending_mem (s : State) (a1 : Nat) :
    (State.failPending s a1).pending = s.pending ∧ (State.failPending s a1).store = s.store ∧ (State.failPending s a1).flash = s.flash := by
  simp [State.failPending, State.ite_mem]

@[simp] theorem State.groupPending_mem (s : State) (a1 : Nat) (a2 : Nat) :
    (State.groupPending s a1 a2).pending = s.pending ∧ (State.groupPending s a1 a2).store = s.store ∧ (State.groupPending s a1 a2).flash = s.flash := by
  simp [State.groupPending]

@[simp] theorem State.stackPending_mem (s : State) (a1 : Nat) :
    (State.stackPending s a1).pending = s.pending ∧ (State.stackPending s a1).store = s.store ∧ (State.stackPending s a1).flash = s.flash := by
  simp [State.stackPending]

@[simp] theorem State.rowRepair_mem (s : State) (a1 : Nat) (a2 : Nat) :
    (State.rowRepair s a1 a2).pending = s.pending ∧ (State.rowRepair s a1 a2).store = s.store ∧ (State.rowRepair s a1 a2).flash = s.flash := by
  simp [State.rowRepair, State.ite_mem]

@[simp] theorem State.stackStop_mem (s : State) (a1 : Nat) (a2 : Nat) :
    (State.stackStop s a1 a2).pending = s.pending ∧ (State.stackStop s a1 a2).flash = s.flash := by
  simp [State.stackStop, State.ite_mem]

@[simp] theorem State.stackFail_mem (s : State) (a1 : Nat) (a2 : Nat) :
    (State.stackFail s a1 a2).pending = s.pending ∧ (State.stackFail s a1 a2).flash = s.flash := by
  simp [State.stackFail, State.ite_mem, State.foldl_pending, State.foldl_flash]

@[simp] theorem State.storeUe_mem (s : State) (a1 : Nat) (a2 : Bool) :
    (State.storeUe s a1 a2).pending = s.pending ∧ (State.storeUe s a1 a2).flash = s.flash := by
  simp [State.storeUe, State.ite_mem]

@[simp] theorem State.storeCe_mem (s : State) (a1 : Nat) :
    (State.storeCe s a1).pending = s.pending ∧ (State.storeCe s a1).store = s.store ∧ (State.storeCe s a1).flash = s.flash := by
  simp [State.storeCe, State.ite_mem]

@[simp] theorem State.storeCrc_mem (s : State) (a1 : Nat) (a2 : Nat) :
    (State.storeCrc s a1 a2).pending = s.pending ∧ (State.storeCrc s a1 a2).store = s.store ∧ (State.storeCrc s a1 a2).flash = s.flash := by
  simp [State.storeCrc, State.ite_mem]

@[simp] theorem State.scrubbed_mem (s : State) (a1 : Nat) :
    (State.scrubbed s a1).pending = s.pending ∧ (State.scrubbed s a1).store = s.store ∧ (State.scrubbed s a1).flash = s.flash := by
  simp [State.scrubbed, State.ite_mem]

@[simp] theorem State.burstRead_mem (s : State) (a1 : Nat) (a2 : Nat) (a3 : EccResult) :
    (State.burstRead s a1 a2 a3).pending = s.pending ∧ (State.burstRead s a1 a2 a3).flash = s.flash := by
  simp only [State.burstRead]; (repeat' split) <;> simp

@[simp] theorem State.rowSwitch_mem (s : State) (a1 : Nat) (a2 : Nat) (a3 : Nat) :
    (State.rowSwitch s a1 a2 a3).pending = s.pending ∧ (State.rowSwitch s a1 a2 a3).store = s.store ∧ (State.rowSwitch s a1 a2 a3).flash = s.flash := by
  simp [State.rowSwitch]

@[simp] theorem State.showStrm_mem (s : State) (a1 : Nat) :
    (State.showStrm s a1).pending = s.pending ∧ (State.showStrm s a1).store = s.store ∧ (State.showStrm s a1).flash = s.flash := by
  simp [State.showStrm]

@[simp] theorem State.startFrame_mem (s : State) (a1 : Nat) :
    (State.startFrame s a1).pending = s.pending ∧ (State.startFrame s a1).store = s.store ∧ (State.startFrame s a1).flash = s.flash := by
  simp only [State.startFrame]; (repeat' split) <;> simp

@[simp] theorem State.sendPkt_mem (s : State) (a1 : Pkt) :
    (State.sendPkt s a1).pending = s.pending ∧ (State.sendPkt s a1).store = s.store ∧ (State.sendPkt s a1).flash = s.flash := by
  simp only [State.sendPkt]; (repeat' split) <;> simp

@[simp] theorem State.formPkt_mem (s : State) (a1 : Nat) (a2 : Nat) (a3 : Nat) (a4 : Nat) (a5 : Nat) (a6 : List Byte) (a7 : Bool) (a8 : Bool) (a9 : Bool) (a10 : Release) :
    (State.formPkt s a1 a2 a3 a4 a5 a6 a7 a8 a9 a10).pending = s.pending ∧ (State.formPkt s a1 a2 a3 a4 a5 a6 a7 a8 a9 a10).store = s.store ∧ (State.formPkt s a1 a2 a3 a4 a5 a6 a7 a8 a9 a10).flash = s.flash := by
  simp [State.formPkt]

@[simp] theorem State.nextItem_mem (s : State) (a1 : Nat) (a2 : Nat) (a3 : List StmItem) :
    (State.nextItem s a1 a2 a3).pending = s.pending ∧ (State.nextItem s a1 a2 a3).store = s.store ∧ (State.nextItem s a1 a2 a3).flash = s.flash := by
  induction a3 generalizing s a1 a2 with
  | nil => simp [State.nextItem]
  | cons x xs ih =>
    simp only [State.nextItem]
    first
      | (simp [ih, State.ite_mem]; done)
      | ((repeat' split) <;> simp [ih]; done)
      | (simp only [ih]; (repeat' split) <;> simp [State.ite_mem, State.foldl_pending, State.foldl_store, State.foldl_flash]; done)

@[simp] theorem State.nextFrame_mem (s : State) (a1 : Nat) (a2 : List Frame) :
    (State.nextFrame s a1 a2).pending = s.pending ∧ (State.nextFrame s a1 a2).store = s.store ∧ (State.nextFrame s a1 a2).flash = s.flash := by
  induction a2 generalizing s a1 with
  | nil => simp [State.nextFrame]
  | cons x xs ih =>
    simp only [State.nextFrame]
    simp [ih, State.ite_mem]

@[simp] theorem State.nextLog_mem (s : State) (a1 : Nat) (a2 : Nat) (a3 : Nat) :
    (State.nextLog s a1 a2 a3).pending = s.pending ∧ (State.nextLog s a1 a2 a3).store = s.store ∧ (State.nextLog s a1 a2 a3).flash = s.flash := by
  induction a3 generalizing s a1 a2 with
  | zero => simp [State.nextLog]
  | succ n ih =>
    simp only [State.nextLog]
    simp [ih, State.ite_mem]

@[simp] theorem State.nextFragment_mem (s : State) (a1 : Nat) (a2 : StItem) :
    (State.nextFragment s a1 a2).pending = s.pending ∧ (State.nextFragment s a1 a2).store = s.store ∧ (State.nextFragment s a1 a2).flash = s.flash := by
  simp only [State.nextFragment]; (repeat' split) <;> simp

@[simp] theorem State.beginItem_mem (s : State) (a1 : Nat) :
    (State.beginItem s a1).pending = s.pending ∧ (State.beginItem s a1).store = s.store ∧ (State.beginItem s a1).flash = s.flash := by
  simp only [State.beginItem]; (repeat' split) <;> simp

@[simp] theorem State.startQueued_mem (s : State) (a1 : Nat) :
    (State.startQueued s a1).pending = s.pending ∧ (State.startQueued s a1).store = s.store ∧ (State.startQueued s a1).flash = s.flash := by
  simp only [State.startQueued]; (repeat' split) <;> simp

@[simp] theorem State.formNext_mem (s : State) (a1 : Nat) :
    (State.formNext s a1).pending = s.pending ∧ (State.formNext s a1).store = s.store ∧ (State.formNext s a1).flash = s.flash := by
  simp only [State.formNext]; (repeat' split) <;> simp

@[simp] theorem State.releaseItem_mem (s : State) (a1 : Nat) (a2 : Release) :
    (State.releaseItem s a1 a2).pending = s.pending ∧ (State.releaseItem s a1 a2).store = s.store ∧ (State.releaseItem s a1 a2).flash = s.flash := by
  simp only [State.releaseItem]; (repeat' split) <;> simp

@[simp] theorem State.showSet_mem (s : State) (a1 : Nat) :
    (State.showSet s a1).pending = s.pending ∧ (State.showSet s a1).store = s.store ∧ (State.showSet s a1).flash = s.flash := by
  simp [State.showSet, State.ite_mem, State.foldl_pending, State.foldl_store, State.foldl_flash]

@[simp] theorem State.resend_mem (s : State) (a1 : List Pkt) :
    (State.resend s a1).pending = s.pending ∧ (State.resend s a1).store = s.store ∧ (State.resend s a1).flash = s.flash := by
  induction a1 generalizing s with
  | nil => simp [State.resend]
  | cons x xs ih =>
    simp only [State.resend]
    simp [ih, State.ite_mem]

@[simp] theorem State.linkDown_mem (s : State) (a1 : Nat) :
    (State.linkDown s a1).pending = s.pending ∧ (State.linkDown s a1).store = s.store ∧ (State.linkDown s a1).flash = s.flash := by
  simp [State.linkDown, State.ite_mem]

@[simp] theorem State.rxDrop_mem (s : State) (a1 : Nat) :
    (State.rxDrop s a1).pending = s.pending ∧ (State.rxDrop s a1).store = s.store ∧ (State.rxDrop s a1).flash = s.flash := by
  simp [State.rxDrop, State.ite_mem]

@[simp] theorem State.showPause_mem (s : State) (a1 : Nat) (a2 : Nat) :
    (State.showPause s a1 a2).pending = s.pending ∧ (State.showPause s a1 a2).store = s.store ∧ (State.showPause s a1 a2).flash = s.flash := by
  simp [State.showPause]

@[simp] theorem State.reply_mem (s : State) (a1 : Nat) (a2 : Nat) (a3 : Nat) (a4 : List Byte) :
    (State.reply s a1 a2 a3 a4).pending = s.pending ∧ (State.reply s a1 a2 a3 a4).store = s.store ∧ (State.reply s a1 a2 a3 a4).flash = s.flash := by
  simp [State.reply]

@[simp] theorem State.signalQ_mem (s : State) (a1 : Nat) :
    (State.signalQ s a1).pending = s.pending ∧ (State.signalQ s a1).store = s.store ∧ (State.signalQ s a1).flash = s.flash := by
  simp [State.signalQ]

@[simp] theorem State.drawBytes_mem (s : State) (a1 : Nat) :
    (State.drawBytes s a1).2.pending = s.pending ∧ (State.drawBytes s a1).2.store = s.store ∧ (State.drawBytes s a1).2.flash = s.flash := by
  induction a1 generalizing s with
  | zero => simp [State.drawBytes]
  | succ n ih =>
    simp only [State.drawBytes]
    simp [ih]

@[simp] theorem State.msixSet_mem (s : State) (a1 : Nat) (a2 : CfgReq) :
    (State.msixSet s a1 a2).pending = s.pending ∧ (State.msixSet s a1 a2).store = s.store ∧ (State.msixSet s a1 a2).flash = s.flash := by
  simp only [State.msixSet]; (repeat' split) <;> simp

@[simp] theorem State.reportUr_mem (s : State) (a1 : Nat) :
    (State.reportUr s a1).pending = s.pending ∧ (State.reportUr s a1).store = s.store ∧ (State.reportUr s a1).flash = s.flash := by
  simp [State.reportUr]

@[simp] theorem State.pinQ_mem (s : State) (a1 : Nat) (a2 : Nat) (a3 : List Nat) :
    (State.pinQ s a1 a2 a3).pending = s.pending ∧ (State.pinQ s a1 a2 a3).store = s.store ∧ (State.pinQ s a1 a2 a3).flash = s.flash := by
  simp [State.pinQ]

@[simp] theorem State.dropRec_mem (s : State) (a1 : Nat) :
    (State.dropRec s a1).pending = s.pending ∧ (State.dropRec s a1).store = s.store ∧ (State.dropRec s a1).flash = s.flash := by
  simp only [State.dropRec]; (repeat' split) <;> simp

@[simp] theorem State.issueFetch_mem (s : State) (a1 : Nat) (a2 : Nat) (a3 : Bool) :
    (State.issueFetch s a1 a2 a3).pending = s.pending ∧ (State.issueFetch s a1 a2 a3).store = s.store ∧ (State.issueFetch s a1 a2 a3).flash = s.flash := by
  simp [State.issueFetch]

@[simp] theorem State.restore_mem (s : State) (a1 : Nat) (a2 : QMark) :
    (State.restore s a1 a2).pending = s.pending ∧ (State.restore s a1 a2).store = s.store ∧ (State.restore s a1 a2).flash = s.flash := by
  simp only [State.restore]; (repeat' split) <;> simp

@[simp] theorem State.compWrite_mem (s : State) (a1 : Nat) (a2 : Bool) (a3 : Comp) :
    (State.compWrite s a1 a2 a3).pending = s.pending ∧ (State.compWrite s a1 a2 a3).store = s.store ∧ (State.compWrite s a1 a2 a3).flash = s.flash := by
  simp [State.compWrite, State.ite_mem]

@[simp] theorem State.haltQ_mem (s : State) (a1 : Nat) (a2 : Comp) (a3 : Bool) :
    (State.haltQ s a1 a2 a3).pending = s.pending ∧ (State.haltQ s a1 a2 a3).store = s.store ∧ (State.haltQ s a1 a2 a3).flash = s.flash := by
  simp only [State.haltQ]; (repeat' split) <;> simp

@[simp] theorem State.completeQ_mem (s : State) (a1 : Nat) (a2 : Comp) :
    (State.completeQ s a1 a2).pending = s.pending ∧ (State.completeQ s a1 a2).store = s.store ∧ (State.completeQ s a1 a2).flash = s.flash := by
  simp only [State.completeQ]; (repeat' split) <;> simp

@[simp] theorem State.drainQ_mem (s : State) (a1 : Nat) (a2 : Nat) :
    (State.drainQ s a1 a2).pending = s.pending ∧ (State.drainQ s a1 a2).store = s.store ∧ (State.drainQ s a1 a2).flash = s.flash := by
  induction a2 generalizing s a1 with
  | zero => simp [State.drainQ]
  | succ n ih =>
    simp only [State.drainQ]
    first
      | (simp [ih, State.ite_mem, State.foldl_pending, State.foldl_store, State.foldl_flash]; done)
      | ((repeat' split) <;> simp [ih]; done)
      | (simp only [ih]; (repeat' split) <;> simp [State.ite_mem, State.foldl_pending, State.foldl_store, State.foldl_flash]; done)

@[simp] theorem State.finishQ_mem (s : State) (a1 : Nat) (a2 : Comp) :
    (State.finishQ s a1 a2).pending = s.pending ∧ (State.finishQ s a1 a2).store = s.store ∧ (State.finishQ s a1 a2).flash = s.flash := by
  simp [State.finishQ]

@[simp] theorem State.nextDesc_mem (s : State) (a1 : Nat) (a2 : Nat) :
    (State.nextDesc s a1 a2).pending = s.pending ∧ (State.nextDesc s a1 a2).store = s.store ∧ (State.nextDesc s a1 a2).flash = s.flash := by
  simp [State.nextDesc, State.ite_mem]

@[simp] theorem State.doneQ_mem (s : State) (a1 : Nat) (a2 : Comp) :
    (State.doneQ s a1 a2).pending = s.pending ∧ (State.doneQ s a1 a2).store = s.store ∧ (State.doneQ s a1 a2).flash = s.flash := by
  simp [State.doneQ, State.ite_mem]

@[simp] theorem State.abortQ_mem (s : State) (a1 : Nat) :
    (State.abortQ s a1).pending = s.pending ∧ (State.abortQ s a1).store = s.store ∧ (State.abortQ s a1).flash = s.flash := by
  simp [State.abortQ, State.ite_mem]

@[simp] theorem State.bindQ_mem (s : State) (a1 : Nat) (a2 : Nat) :
    (State.bindQ s a1 a2).pending = s.pending ∧ (State.bindQ s a1 a2).store = s.store ∧ (State.bindQ s a1 a2).flash = s.flash := by
  simp [State.bindQ]

@[simp] theorem State.unbindQ_mem (s : State) (a1 : Nat) (a2 : Nat) :
    (State.unbindQ s a1 a2).pending = s.pending ∧ (State.unbindQ s a1 a2).store = s.store ∧ (State.unbindQ s a1 a2).flash = s.flash := by
  simp [State.unbindQ, State.ite_mem, State.foldl_pending, State.foldl_store, State.foldl_flash]

@[simp] theorem State.doorbell_mem (s : State) (a1 : Nat) (a2 : Nat) :
    (State.doorbell s a1 a2).pending = s.pending ∧ (State.doorbell s a1 a2).store = s.store ∧ (State.doorbell s a1 a2).flash = s.flash := by
  simp only [State.doorbell]; (repeat' split) <;> simp

@[simp] theorem State.startQ_mem (s : State) (a1 : Nat) (a2 : Nat) :
    (State.startQ s a1 a2).pending = s.pending ∧ (State.startQ s a1 a2).store = s.store ∧ (State.startQ s a1 a2).flash = s.flash := by
  simp [State.startQ, State.ite_mem]

@[simp] theorem State.resumeQ_mem (s : State) (a1 : Nat) (a2 : Nat) :
    (State.resumeQ s a1 a2).pending = s.pending ∧ (State.resumeQ s a1 a2).store = s.store ∧ (State.resumeQ s a1 a2).flash = s.flash := by
  simp [State.resumeQ, State.ite_mem]

@[simp] theorem State.abortCmd_mem (s : State) (a1 : Nat) (a2 : Nat) :
    (State.abortCmd s a1 a2).pending = s.pending ∧ (State.abortCmd s a1 a2).store = s.store ∧ (State.abortCmd s a1 a2).flash = s.flash := by
  simp [State.abortCmd, State.ite_mem]

@[simp] theorem State.fetched_mem (s : State) (a1 : Nat) (a2 : List Byte) :
    (State.fetched s a1 a2).pending = s.pending ∧ (State.fetched s a1 a2).store = s.store ∧ (State.fetched s a1 a2).flash = s.flash := by
  simp only [State.fetched]; (repeat' split) <;> simp

@[simp] theorem State.moved_mem (s : State) (a1 : Nat) (a2 : Nat) (a3 : Bool) :
    (State.moved s a1 a2 a3).pending = s.pending ∧ (State.moved s a1 a2 a3).store = s.store ∧ (State.moved s a1 a2 a3).flash = s.flash := by
  simp [State.moved, State.ite_mem]

@[simp] theorem State.toHost_mem (s : State) (a1 : Nat) (a2 : List Byte) :
    (State.toHost s a1 a2).pending = s.pending ∧ (State.toHost s a1 a2).store = s.store ∧ (State.toHost s a1 a2).flash = s.flash := by
  simp [State.toHost, State.ite_mem]

@[simp] theorem State.readBack_mem (s : State) (a1 : Desc) (a2 : Nat) :
    (State.readBack s a1 a2).pending = s.pending ∧ (State.readBack s a1 a2).store = s.store ∧ (State.readBack s a1 a2).flash = s.flash := by
  simp [State.readBack, State.ite_mem]

@[simp] theorem State.burstDone_mem (s : State) (a1 : Nat) (a2 : Nat) (a3 : Bool) (a4 : Bool) (a5 : Comp) :
    (State.burstDone s a1 a2 a3 a4 a5).pending = s.pending ∧ (State.burstDone s a1 a2 a3 a4 a5).store = s.store ∧ (State.burstDone s a1 a2 a3 a4 a5).flash = s.flash := by
  simp [State.burstDone, State.ite_mem]

@[simp] theorem State.moveRead_mem (s : State) (a1 : Nat) (a2 : Desc) (a3 : Option Nat) :
    (State.moveRead s a1 a2 a3).pending = s.pending ∧ (State.moveRead s a1 a2 a3).store = s.store ∧ (State.moveRead s a1 a2 a3).flash = s.flash := by
  simp [State.moveRead, State.ite_mem]

@[simp] theorem State.moveCopy_mem (s : State) (a1 : Nat) (a2 : Desc) (a3 : Option Nat) (a4 : Nat) :
    (State.moveCopy s a1 a2 a3 a4).pending = s.pending ∧ (State.moveCopy s a1 a2 a3 a4).flash = s.flash := by
  simp [State.moveCopy, State.ite_mem]

@[simp] theorem State.moveRec_mem (s : State) (a1 : Nat) (a2 : Desc) (a3 : Option Nat) (a4 : Nat) (a5 : QRec) (a6 : List OutItem × Bool) :
    (State.moveRec s a1 a2 a3 a4 a5 a6).pending = s.pending ∧ (State.moveRec s a1 a2 a3 a4 a5 a6).store = s.store ∧ (State.moveRec s a1 a2 a3 a4 a5 a6).flash = s.flash := by
  simp [State.moveRec, State.ite_mem]

@[simp] theorem State.moveBurst_mem (s : State) (a1 : Nat) :
    (State.moveBurst s a1).pending = s.pending ∧ (State.moveBurst s a1).flash = s.flash := by
  simp only [State.moveBurst]; (repeat' split) <;> simp

@[simp] theorem State.turnTo_mem (s : State) (a1 : Nat) :
    (State.turnTo s a1).pending = s.pending ∧ (State.turnTo s a1).store = s.store ∧ (State.turnTo s a1).flash = s.flash := by
  simp [State.turnTo]

@[simp] theorem State.dmaRun_mem (s : State) (a1 : Nat) (a2 : List Nat) (a3 : Nat) :
    (State.dmaRun s a1 a2 a3).pending = s.pending ∧ (State.dmaRun s a1 a2 a3).flash = s.flash := by
  induction a3 generalizing s a2 with
  | zero => simp [State.dmaRun]
  | succ n ih =>
    simp only [State.dmaRun]
    first
      | (simp [State.ite_mem]; done)
      | ((repeat' split) <;> simp [ih]; done)
      | (simp only [ih]; (repeat' split) <;> simp [State.ite_mem, State.foldl_pending, State.foldl_store, State.foldl_flash]; done)

@[simp] theorem State.runDesc_mem (s : State) (a1 : Nat) (a2 : Nat) :
    (State.runDesc s a1 a2).pending = s.pending ∧ (State.runDesc s a1 a2).flash = s.flash := by
  simp only [State.runDesc]; (repeat' split) <;> simp

@[simp] theorem State.failQ_mem (s : State) (a1 : Nat) (a2 : Nat) (a3 : QReq) :
    (State.failQ s a1 a2 a3).pending = s.pending ∧ (State.failQ s a1 a2 a3).store = s.store ∧ (State.failQ s a1 a2 a3).flash = s.flash := by
  simp only [State.failQ]; (repeat' split) <;> simp

@[simp] theorem State.dropCtx_mem (s : State) (a1 : Nat) :
    (State.dropCtx s a1).pending = s.pending ∧ (State.dropCtx s a1).store = s.store ∧ (State.dropCtx s a1).flash = s.flash := by
  simp [State.dropCtx, State.ite_mem]

@[simp] theorem State.resetCtxs_mem (s : State) (a1 : Nat → Bool) :
    (State.resetCtxs s a1).pending = s.pending ∧ (State.resetCtxs s a1).store = s.store ∧ (State.resetCtxs s a1).flash = s.flash := by
  simp [State.resetCtxs, State.foldl_pending, State.foldl_store, State.foldl_flash]

@[simp] theorem State.pfReset_mem (s : State) :
    (State.pfReset s).pending = s.pending ∧ (State.pfReset s).store = s.store ∧ (State.pfReset s).flash = s.flash := by
  simp [State.pfReset]

@[simp] theorem State.pcieReset_mem (s : State) :
    (State.pcieReset s).pending = s.pending ∧ (State.pcieReset s).store = s.store ∧ (State.pcieReset s).flash = s.flash := by
  simp [State.pcieReset]

@[simp] theorem State.dispEvent_mem (s : State) (a1 : Nat) :
    (State.dispEvent s a1).pending = s.pending ∧ (State.dispEvent s a1).store = s.store ∧ (State.dispEvent s a1).flash = s.flash := by
  simp [State.dispEvent, State.ite_mem]

@[simp] theorem State.unpinLatches_mem (s : State) :
    (State.unpinLatches s).pending = s.pending ∧ (State.unpinLatches s).store = s.store ∧ (State.unpinLatches s).flash = s.flash := by
  simp [State.unpinLatches]

@[simp] theorem State.latchSnaps_mem (s : State) :
    (State.latchSnaps s).pending = s.pending ∧ (State.latchSnaps s).store = s.store ∧ (State.latchSnaps s).flash = s.flash := by
  simp [State.latchSnaps, State.ite_mem]

@[simp] theorem State.applyDisp_mem (s : State) :
    (State.applyDisp s).pending = s.pending ∧ (State.applyDisp s).store = s.store ∧ (State.applyDisp s).flash = s.flash := by
  simp [State.applyDisp]

@[simp] theorem State.psrEnter_mem (s : State) :
    (State.psrEnter s).pending = s.pending ∧ (State.psrEnter s).store = s.store ∧ (State.psrEnter s).flash = s.flash := by
  simp [State.psrEnter, State.ite_mem]

@[simp] theorem State.rasterStop_mem (s : State) :
    (State.rasterStop s).pending = s.pending ∧ (State.rasterStop s).store = s.store ∧ (State.rasterStop s).flash = s.flash := by
  simp [State.rasterStop]

@[simp] theorem State.sendMsa_mem (s : State) :
    (State.sendMsa s).pending = s.pending ∧ (State.sendMsa s).store = s.store ∧ (State.sendMsa s).flash = s.flash := by
  simp [State.sendMsa, State.ite_mem]

@[simp] theorem State.rasterFrame_mem (s : State) :
    (State.rasterFrame s).pending = s.pending ∧ (State.rasterFrame s).store = s.store ∧ (State.rasterFrame s).flash = s.flash := by
  simp [State.rasterFrame, State.ite_mem]

@[simp] theorem State.psrLeave_mem (s : State) (a1 : Bool) :
    (State.psrLeave s a1).pending = s.pending ∧ (State.psrLeave s a1).store = s.store ∧ (State.psrLeave s a1).flash = s.flash := by
  simp [State.psrLeave, State.ite_mem]

@[simp] theorem State.freezeWatch_mem (s : State) (a1 : Nat) :
    (State.freezeWatch s a1).pending = s.pending ∧ (State.freezeWatch s a1).store = s.store ∧ (State.freezeWatch s a1).flash = s.flash := by
  simp [State.freezeWatch, State.ite_mem]

@[simp] theorem State.outLine_mem (s : State) (a1 : Nat) (a2 : List (Nat × Nat × Nat)) :
    (State.outLine s a1 a2).pending = s.pending ∧ (State.outLine s a1 a2).store = s.store ∧ (State.outLine s a1 a2).flash = s.flash := by
  simp [State.outLine, State.ite_mem]

@[simp] theorem State.freeRows_mem (s : State) (a1 : Nat) :
    (State.freeRows s a1).pending = s.pending ∧ (State.freeRows s a1).store = s.store ∧ (State.freeRows s a1).flash = s.flash := by
  simp [State.freeRows]

@[simp] theorem State.setLoop_mem (s : State) (a1 : Nat) :
    (State.setLoop s a1).pending = s.pending ∧ (State.setLoop s a1).store = s.store ∧ (State.setLoop s a1).flash = s.flash := by
  simp [State.setLoop]

@[simp] theorem State.enterBypass_mem (s : State) (a1 : Nat) :
    (State.enterBypass s a1).pending = s.pending ∧ (State.enterBypass s a1).store = s.store ∧ (State.enterBypass s a1).flash = s.flash := by
  simp [State.enterBypass]

@[simp] theorem State.leaveBypass_mem (s : State) (a1 : Nat) :
    (State.leaveBypass s a1).pending = s.pending ∧ (State.leaveBypass s a1).store = s.store ∧ (State.leaveBypass s a1).flash = s.flash := by
  simp [State.leaveBypass]

@[simp] theorem State.openPllGap_mem (s : State) (a1 : Nat) :
    (State.openPllGap s a1).pending = s.pending ∧ (State.openPllGap s a1).store = s.store ∧ (State.openPllGap s a1).flash = s.flash := by
  simp [State.openPllGap]

@[simp] theorem State.startAcq_mem (s : State) :
    (State.startAcq s).pending = s.pending ∧ (State.startAcq s).store = s.store ∧ (State.startAcq s).flash = s.flash := by
  simp only [State.startAcq]; (repeat' split) <;> simp

@[simp] theorem State.leaveWait_mem (s : State) :
    (State.leaveWait s).pending = s.pending ∧ (State.leaveWait s).store = s.store ∧ (State.leaveWait s).flash = s.flash := by
  simp [State.leaveWait, State.ite_mem]

@[simp] theorem State.leaveHold_mem (s : State) :
    (State.leaveHold s).pending = s.pending ∧ (State.leaveHold s).store = s.store ∧ (State.leaveHold s).flash = s.flash := by
  simp [State.leaveHold, State.ite_mem]

@[simp] theorem State.putBoth_mem (s : State) (a1 : Fld) (a2 : Nat) :
    (State.putBoth s a1 a2).pending = s.pending ∧ (State.putBoth s a1 a2).store = s.store ∧ (State.putBoth s a1 a2).flash = s.flash := by
  simp [State.putBoth]

@[simp] theorem State.learn_mem (s : State) :
    (State.learn s).pending = s.pending ∧ (State.learn s).store = s.store ∧ (State.learn s).flash = s.flash := by
  simp [State.learn, State.ite_mem]

@[simp] theorem State.showErr_mem (s : State) (a1 : Int) :
    (State.showErr s a1).pending = s.pending ∧ (State.showErr s a1).store = s.store ∧ (State.showErr s a1).flash = s.flash := by
  simp [State.showErr]

@[simp] theorem State.loopLoss_mem (s : State) (a1 : Nat) (a2 : Nat) (a3 : Nat) :
    (State.loopLoss s a1 a2 a3).pending = s.pending ∧ (State.loopLoss s a1 a2 a3).store = s.store ∧ (State.loopLoss s a1 a2 a3).flash = s.flash := by
  simp [State.loopLoss]

@[simp] theorem State.fabricBack_mem (s : State) (a1 : Nat) :
    (State.fabricBack s a1).pending = s.pending ∧ (State.fabricBack s a1).store = s.store ∧ (State.fabricBack s a1).flash = s.flash := by
  simp [State.fabricBack, State.ite_mem, State.foldl_pending, State.foldl_store, State.foldl_flash]

@[simp] theorem State.showSpurs_mem (s : State) :
    (State.showSpurs s).pending = s.pending ∧ (State.showSpurs s).store = s.store ∧ (State.showSpurs s).flash = s.flash := by
  unfold State.showSpurs
  and_intros
  · exact State.foldl_pending _ _ _ (by intro t x; split <;> simp)
  · exact State.foldl_store _ _ _ (by intro t x; split <;> simp)
  · exact State.foldl_flash _ _ _ (by intro t x; split <;> simp)

@[simp] theorem State.clkCommit_mem (s : State) (a1 : Nat) (a2 : RegTab) :
    (State.clkCommit s a1 a2).pending = s.pending ∧ (State.clkCommit s a1 a2).store = s.store ∧ (State.clkCommit s a1 a2).flash = s.flash := by
  simp [State.clkCommit, State.ite_mem]

@[simp] theorem State.evIntFail_mem (s : State) (a1 : Nat) (a2 : Nat) :
    (State.evIntFail s a1 a2).pending = s.pending ∧ (State.evIntFail s a1 a2).store = s.store ∧ (State.evIntFail s a1 a2).flash = s.flash := by
  simp [State.evIntFail, State.ite_mem]

@[simp] theorem State.evRefs_mem (s : State) (a1 : Nat) (a2 : Nat) (a3 : Nat) (a4 : Nat) :
    (State.evRefs s a1 a2 a3 a4).pending = s.pending ∧ (State.evRefs s a1 a2 a3 a4).store = s.store ∧ (State.evRefs s a1 a2 a3 a4).flash = s.flash := by
  simp [State.evRefs, State.ite_mem]

@[simp] theorem State.lostStop_mem (s : State) (a1 : Nat) (a2 : Nat) :
    (State.lostStop s a1 a2).pending = s.pending ∧ (State.lostStop s a1 a2).store = s.store ∧ (State.lostStop s a1 a2).flash = s.flash := by
  simp [State.lostStop, State.ite_mem, State.foldl_pending, State.foldl_store, State.foldl_flash]

@[simp] theorem State.evLost_mem (s : State) (a1 : Nat) (a2 : Nat) :
    (State.evLost s a1 a2).pending = s.pending ∧ (State.evLost s a1 a2).store = s.store ∧ (State.evLost s a1 a2).flash = s.flash := by
  simp [State.evLost, State.ite_mem]

@[simp] theorem State.evPush_mem (s : State) (a1 : Nat) (a2 : Nat) (a3 : EvStamp) :
    (State.evPush s a1 a2 a3).pending = s.pending ∧ (State.evPush s a1 a2 a3).store = s.store ∧ (State.evPush s a1 a2 a3).flash = s.flash := by
  simp [State.evPush, State.ite_mem]

@[simp] theorem State.evWrite_mem (s : State) (a1 : Nat) (a2 : List (List Byte)) :
    (State.evWrite s a1 a2).pending = s.pending ∧ (State.evWrite s a1 a2).flash = s.flash := by
  induction a2 generalizing s a1 with
  | nil => simp [State.evWrite]
  | cons x xs ih =>
    simp only [State.evWrite]
    simp [ih]

@[simp] theorem State.evTick_mem (s : State) (a1 : Nat) :
    (State.evTick s a1).pending = s.pending ∧ (State.evTick s a1).flash = s.flash := by
  simp [State.evTick, State.ite_mem]

@[simp] theorem State.evBlock_mem (s : State) (a1 : Nat) (a2 : Nat) (a3 : Nat) (a4 : Nat) (a5 : Int) (a6 : Option EvStamp) (a7 : Nat) (a8 : Nat) (a9 : Int) (a10 : Int) :
    (State.evBlock s a1 a2 a3 a4 a5 a6 a7 a8 a9 a10).2.pending = s.pending ∧ (State.evBlock s a1 a2 a3 a4 a5 a6 a7 a8 a9 a10).2.store = s.store ∧ (State.evBlock s a1 a2 a3 a4 a5 a6 a7 a8 a9 a10).2.flash = s.flash := by
  unfold State.evBlock; cases a6 <;> simp

@[simp] theorem State.evPublish_mem (s : State) (a1 : Nat) (a2 : Nat) :
    (State.evPublish s a1 a2).pending = s.pending ∧ (State.evPublish s a1 a2).store = s.store ∧ (State.evPublish s a1 a2).flash = s.flash := by
  simp [State.evPublish, State.ite_mem]

@[simp] theorem State.statBlock_mem (s : State) (a1 : Nat) (a2 : Nat) :
    (State.statBlock s a1 a2).2.pending = s.pending ∧ (State.statBlock s a1 a2).2.store = s.store ∧ (State.statBlock s a1 a2).2.flash = s.flash := by
  simp only [State.statBlock]; (repeat' split) <;> simp

@[simp] theorem State.freqBlock_mem (s : State) (a1 : Nat) (a2 : Nat) (a3 : Nat) (a4 : List EvStamp) :
    (State.freqBlock s a1 a2 a3 a4).2.pending = s.pending ∧ (State.freqBlock s a1 a2 a3 a4).2.store = s.store ∧ (State.freqBlock s a1 a2 a3 a4).2.flash = s.flash := by
  simp only [State.freqBlock]; (repeat' split) <;> simp

@[simp] theorem State.stopInterval_mem (s : State) (a1 : Nat) (a2 : Nat) (a3 : EvStamp) :
    (State.stopInterval s a1 a2 a3).pending = s.pending ∧ (State.stopInterval s a1 a2 a3).store = s.store ∧ (State.stopInterval s a1 a2 a3).flash = s.flash := by
  simp only [State.stopInterval]; (repeat' split) <;> simp

@[simp] theorem State.settleInt_mem (s : State) (a1 : Nat) (a2 : Nat) :
    (State.settleInt s a1 a2).pending = s.pending ∧ (State.settleInt s a1 a2).store = s.store ∧ (State.settleInt s a1 a2).flash = s.flash := by
  induction a2 generalizing s with
  | zero => simp [State.settleInt]
  | succ n ih =>
    simp only [State.settleInt]
    first
      | (simp [ih, State.ite_mem, State.foldl_pending, State.foldl_store, State.foldl_flash]; done)
      | ((repeat' split) <;> simp [ih]; done)
      | (simp only [ih]; (repeat' split) <;> simp [State.ite_mem, State.foldl_pending, State.foldl_store, State.foldl_flash]; done)

@[simp] theorem State.useStamp_mem (s : State) (a1 : Nat) (a2 : Nat) (a3 : EvStamp) :
    (State.useStamp s a1 a2 a3).pending = s.pending ∧ (State.useStamp s a1 a2 a3).store = s.store ∧ (State.useStamp s a1 a2 a3).flash = s.flash := by
  simp [State.useStamp, State.ite_mem, State.foldl_pending, State.foldl_store, State.foldl_flash]

@[simp] theorem State.evStart_mem (s : State) (a1 : Nat) (a2 : Nat) :
    (State.evStart s a1 a2).pending = s.pending ∧ (State.evStart s a1 a2).store = s.store ∧ (State.evStart s a1 a2).flash = s.flash := by
  simp [State.evStart]

@[simp] theorem State.evStop_mem (s : State) (a1 : Nat) :
    (State.evStop s a1).pending = s.pending ∧ (State.evStop s a1).store = s.store ∧ (State.evStop s a1).flash = s.flash := by
  simp only [State.evStop]; (repeat' split) <;> simp

@[simp] theorem State.evResult_mem (s : State) (a1 : Nat) :
    (State.evResult s a1).pending = s.pending ∧ (State.evResult s a1).store = s.store ∧ (State.evResult s a1).flash = s.flash := by
  simp only [State.evResult]; (repeat' split) <;> simp

@[simp] theorem State.evRead_mem (s : State) (a1 : Nat) (a2 : Nat) :
    (State.evRead s a1 a2).pending = s.pending ∧ (State.evRead s a1 a2).store = s.store ∧ (State.evRead s a1 a2).flash = s.flash := by
  simp [State.evRead]

@[simp] theorem State.demand_mem (s : State) (a1 : RegTab) :
    (State.demand s a1).2.pending = s.pending ∧ (State.demand s a1).2.store = s.store ∧ (State.demand s a1).2.flash = s.flash := by
  simp only [State.demand]; (repeat' split) <;> simp

@[simp] theorem State.wShown_mem (s : State) (a1 : Demand) :
    (State.wShown s a1).2.pending = s.pending ∧ (State.wShown s a1).2.store = s.store ∧ (State.wShown s a1).2.flash = s.flash := by
  simp only [State.wShown]; (repeat' split) <;> simp

@[simp] theorem State.loadChan_mem (s : State) (a1 : Nat → Byte) (a2 : Nat) (a3 : Nat) :
    (State.loadChan s a1 a2 a3).pending = s.pending ∧ (State.loadChan s a1 a2 a3).store = s.store ∧ (State.loadChan s a1 a2 a3).flash = s.flash := by
  simp [State.loadChan, State.foldl_pending, State.foldl_store, State.foldl_flash]

@[simp] theorem State.loadBlock_mem (s : State) (a1 : Nat → Byte) (a2 : Nat) (a3 : Nat) :
    (State.loadBlock s a1 a2 a3).pending = s.pending ∧ (State.loadBlock s a1 a2 a3).store = s.store ∧ (State.loadBlock s a1 a2 a3).flash = s.flash := by
  simp [State.loadBlock, State.ite_mem, State.foldl_pending, State.foldl_store, State.foldl_flash]

@[simp] theorem State.setSrc_mem (s : State) (a1 : Nat) (a2 : Nat) :
    (State.setSrc s a1 a2).pending = s.pending ∧ (State.setSrc s a1 a2).store = s.store ∧ (State.setSrc s a1 a2).flash = s.flash := by
  simp [State.setSrc]

@[simp] theorem State.defDie_mem (s : State) (a1 : Nat) (a2 : Bool) :
    (State.defDie s a1 a2).pending = s.pending ∧ (State.defDie s a1 a2).store = s.store ∧ (State.defDie s a1 a2).flash = s.flash := by
  simp [State.defDie]

@[simp] theorem State.loadUser_mem (s : State) (a1 : Nat → Byte) (a2 : Nat) :
    (State.loadUser s a1 a2).pending = s.pending ∧ (State.loadUser s a1 a2).store = s.store ∧ (State.loadUser s a1 a2).flash = s.flash := by
  simp [State.loadUser, State.ite_mem]

@[simp] theorem State.loadDef_mem (s : State) (a1 : Bool) (a2 : Nat) :
    (State.loadDef s a1 a2).pending = s.pending ∧ (State.loadDef s a1 a2).store = s.store ∧ (State.loadDef s a1 a2).flash = s.flash := by
  simp [State.loadDef, State.ite_mem]

@[simp] theorem State.loadDie_mem (s : State) (a1 : List Nat) (a2 : Bool) (a3 : Nat) :
    (State.loadDie s a1 a2 a3).pending = s.pending ∧ (State.loadDie s a1 a2 a3).store = s.store ∧ (State.loadDie s a1 a2 a3).flash = s.flash := by
  simp only [State.loadDie]; (repeat' split) <;> simp

@[simp] theorem State.setCalEpoch_mem (s : State) (a1 : Nat) (a2 : Nat) (a3 : Nat) (a4 : Nat) :
    (State.setCalEpoch s a1 a2 a3 a4).pending = s.pending ∧ (State.setCalEpoch s a1 a2 a3 a4).store = s.store ∧ (State.setCalEpoch s a1 a2 a3 a4).flash = s.flash := by
  simp [State.setCalEpoch]

@[simp] theorem State.loadCal_mem (s : State) (a1 : Bool) :
    (State.loadCal s a1).pending = s.pending ∧ (State.loadCal s a1).store = s.store ∧ (State.loadCal s a1).flash = s.flash := by
  simp [State.loadCal, State.foldl_pending, State.foldl_store, State.foldl_flash]

@[simp] theorem State.startSave_mem (s : State) :
    (State.startSave s).pending = s.pending ∧ (State.startSave s).store = s.store ∧ (State.startSave s).flash = s.flash := by
  simp [State.startSave]

@[simp] theorem State.saveNow_mem (s : State) :
    (State.saveNow s).pending = s.pending ∧ (State.saveNow s).store = s.store ∧ (State.saveNow s).flash = s.flash := by
  simp [State.saveNow, State.ite_mem]

@[simp] theorem State.saveWritten_mem (s : State) (a1 : Nat) (a2 : Nat) (a3 : List Byte) :
    (State.saveWritten s a1 a2 a3).pending = s.pending ∧ (State.saveWritten s a1 a2 a3).store = s.store := by
  simp [State.saveWritten]

@[simp] theorem State.saveFailed_mem (s : State) (a1 : Nat) :
    (State.saveFailed s a1).pending = s.pending ∧ (State.saveFailed s a1).store = s.store := by
  simp [State.saveFailed]

@[simp] theorem State.saveNext_mem (s : State) :
    (State.saveNext s).pending = s.pending ∧ (State.saveNext s).store = s.store ∧ (State.saveNext s).flash = s.flash := by
  simp [State.saveNext, State.ite_mem]

@[simp] theorem State.calShow_mem (s : State) :
    (State.calShow s).pending = s.pending ∧ (State.calShow s).store = s.store ∧ (State.calShow s).flash = s.flash := by
  simp [State.calShow, State.ite_mem, State.foldl_pending, State.foldl_store, State.foldl_flash]

@[simp] theorem State.calGaps_mem (s : State) (a1 : Nat) :
    (State.calGaps s a1).pending = s.pending ∧ (State.calGaps s a1).store = s.store ∧ (State.calGaps s a1).flash = s.flash := by
  simp [State.calGaps]

@[simp] theorem State.calFinish_mem (s : State) :
    (State.calFinish s).pending = s.pending ∧ (State.calFinish s).store = s.store ∧ (State.calFinish s).flash = s.flash := by
  simp [State.calFinish, State.ite_mem]

@[simp] theorem State.calRequest_mem (s : State) (a1 : Nat) (a2 : Nat) (a3 : Nat) :
    (State.calRequest s a1 a2 a3).pending = s.pending ∧ (State.calRequest s a1 a2 a3).store = s.store ∧ (State.calRequest s a1 a2 a3).flash = s.flash := by
  simp [State.calRequest, State.ite_mem, State.foldl_pending, State.foldl_store, State.foldl_flash]

@[simp] theorem State.calStart_mem (s : State) :
    (State.calStart s).pending = s.pending ∧ (State.calStart s).store = s.store ∧ (State.calStart s).flash = s.flash := by
  simp [State.calStart]

@[simp] theorem State.calAbort_mem (s : State) :
    (State.calAbort s).pending = s.pending ∧ (State.calAbort s).store = s.store ∧ (State.calAbort s).flash = s.flash := by
  simp [State.calAbort, State.ite_mem]

@[simp] theorem State.setRun_mem (s : State) (a1 : CalRun) :
    (State.setRun s a1).pending = s.pending ∧ (State.setRun s a1).store = s.store ∧ (State.setRun s a1).flash = s.flash := by
  simp [State.setRun]

@[simp] theorem State.captureChan_mem (s : State) (a1 : Nat) (a2 : Nat) :
    (State.captureChan s a1 a2).pending = s.pending ∧ (State.captureChan s a1 a2).store = s.store ∧ (State.captureChan s a1 a2).flash = s.flash := by
  simp [State.captureChan, State.ite_mem]

@[simp] theorem State.captureDie_mem (s : State) (a1 : Nat) (a2 : CalRun) :
    (State.captureDie s a1 a2).pending = s.pending ∧ (State.captureDie s a1 a2).store = s.store ∧ (State.captureDie s a1 a2).flash = s.flash := by
  simp [State.captureDie, State.ite_mem, State.foldl_pending, State.foldl_store, State.foldl_flash]

@[simp] theorem State.captures_mem (s : State) (a1 : Nat) :
    (State.captures s a1).pending = s.pending ∧ (State.captures s a1).store = s.store ∧ (State.captures s a1).flash = s.flash := by
  unfold State.captures
  (repeat' apply And.intro) <;> first
    | exact State.foldl_pending _ _ _ (by intro t x; (repeat' split) <;> simp)
    | exact State.foldl_store _ _ _ (by intro t x; (repeat' split) <;> simp)
    | exact State.foldl_flash _ _ _ (by intro t x; (repeat' split) <;> simp)

@[simp] theorem State.calStartDie_mem (s : State) (a1 : CalRun) (a2 : Nat) :
    (State.calStartDie s a1 a2).pending = s.pending ∧ (State.calStartDie s a1 a2).store = s.store ∧ (State.calStartDie s a1 a2).flash = s.flash := by
  simp [State.calStartDie, State.ite_mem]

@[simp] theorem State.calLetGo_mem (s : State) (a1 : Nat) (a2 : Nat) :
    (State.calLetGo s a1 a2).pending = s.pending ∧ (State.calLetGo s a1 a2).store = s.store ∧ (State.calLetGo s a1 a2).flash = s.flash := by
  unfold State.calLetGo
  and_intros
  · rw [State.foldl_pending _ _ _ (by intro t x; dsimp only; (repeat' split) <;> simp)]; simp [State.foldl_pending]
  · rw [State.foldl_store _ _ _ (by intro t x; dsimp only; (repeat' split) <;> simp)]; simp [State.foldl_store]
  · rw [State.foldl_flash _ _ _ (by intro t x; dsimp only; (repeat' split) <;> simp)]; simp [State.foldl_flash]

@[simp] theorem State.calRelDies_mem (s : State) (a1 : Nat) (a2 : Nat) (a3 : CalRun → Bool) :
    (State.calRelDies s a1 a2 a3).pending = s.pending ∧ (State.calRelDies s a1 a2 a3).store = s.store ∧ (State.calRelDies s a1 a2 a3).flash = s.flash := by
  simp [State.calRelDies, State.ite_mem]

@[simp] theorem State.calAbortAt_mem (s : State) (a1 : Nat) :
    (State.calAbortAt s a1).pending = s.pending ∧ (State.calAbortAt s a1).store = s.store ∧ (State.calAbortAt s a1).flash = s.flash := by
  simp only [State.calAbortAt]; (repeat' split) <;> simp

@[simp] theorem State.coefWords_mem (s : State) (a1 : Nat) (a2 : Nat) (a3 : Nat) (a4 : Nat) (a5 : List Nat) :
    (State.coefWords s a1 a2 a3 a4 a5).pending = s.pending ∧ (State.coefWords s a1 a2 a3 a4 a5).store = s.store ∧ (State.coefWords s a1 a2 a3 a4 a5).flash = s.flash := by
  induction a5 generalizing s a1 a2 a3 a4 with
  | nil => simp [State.coefWords]
  | cons x xs ih =>
    simp only [State.coefWords]
    simp [ih, State.ite_mem]

@[simp] theorem State.calFigures_mem (s : State) (a1 : Nat) (a2 : ChResult) :
    (State.calFigures s a1 a2).pending = s.pending ∧ (State.calFigures s a1 a2).store = s.store ∧ (State.calFigures s a1 a2).flash = s.flash := by
  simp [State.calFigures, State.ite_mem, State.foldl_pending, State.foldl_store, State.foldl_flash]

@[simp] theorem State.calParts_mem (s : State) (a1 : ChResult) :
    (State.calParts s a1).pending = s.pending ∧ (State.calParts s a1).flash = s.flash := by
  simp [State.calParts, State.foldl_pending, State.foldl_flash]

@[simp] theorem State.calChannel_mem (s : State) (a1 : Nat) (a2 : Nat) (a3 : ChResult) :
    (State.calChannel s a1 a2 a3).pending = s.pending ∧ (State.calChannel s a1 a2 a3).store = s.store ∧ (State.calChannel s a1 a2 a3).flash = s.flash := by
  simp [State.calChannel, State.ite_mem, State.foldl_pending, State.foldl_store, State.foldl_flash, putList_pending, putList_store, putList_flash]

@[simp] theorem State.calHub_mem (s : State) (a1 : Nat) (a2 : DieResult) :
    (State.calHub s a1 a2).pending = s.pending ∧ (State.calHub s a1 a2).store = s.store ∧ (State.calHub s a1 a2).flash = s.flash := by
  simp [State.calHub, State.ite_mem, State.foldl_pending, State.foldl_store, State.foldl_flash, putList_pending, putList_store, putList_flash]

@[simp] theorem State.calSvc_mem (s : State) (a1 : Bool) (a2 : DieResult) :
    (State.calSvc s a1 a2).pending = s.pending ∧ (State.calSvc s a1 a2).store = s.store ∧ (State.calSvc s a1 a2).flash = s.flash := by
  simp [State.calSvc]

@[simp] theorem State.calStep_mem (s : State) (a1 : Nat) :
    (State.calStep s a1).pending = s.pending ∧ (State.calStep s a1).store = s.store ∧ (State.calStep s a1).flash = s.flash := by
  simp [State.calStep, State.ite_mem]

@[simp] theorem State.tempNow_mem (s : State) (a1 : Nat) (a2 : Nat) (a3 : Int) :
    (State.tempNow s a1 a2 a3).pending = s.pending ∧ (State.tempNow s a1 a2 a3).store = s.store ∧ (State.tempNow s a1 a2 a3).flash = s.flash := by
  simp [State.tempNow]

@[simp] theorem State.advClear_mem (s : State) (a1 : Nat) (a2 : Nat) :
    (State.advClear s a1 a2).pending = s.pending ∧ (State.advClear s a1 a2).store = s.store ∧ (State.advClear s a1 a2).flash = s.flash := by
  simp [State.advClear]

@[simp] theorem State.calTaken_mem (s : State) (a1 : CalRun) (a2 : Nat) (a3 : DieResult) :
    (State.calTaken s a1 a2 a3).pending = s.pending ∧ (State.calTaken s a1 a2 a3).store = s.store ∧ (State.calTaken s a1 a2 a3).flash = s.flash := by
  simp [State.calTaken, State.ite_mem]

@[simp] theorem State.calRelease_mem (s : State) (a1 : CalRun) (a2 : Nat) (a3 : DieResult) :
    (State.calRelease s a1 a2 a3).pending = s.pending ∧ (State.calRelease s a1 a2 a3).flash = s.flash := by
  simp [State.calRelease, State.ite_mem, State.foldl_pending, State.foldl_flash]

@[simp] theorem State.calPurge_mem (s : State) (a1 : Nat) :
    (State.calPurge s a1).pending = s.pending ∧ (State.calPurge s a1).store = s.store ∧ (State.calPurge s a1).flash = s.flash := by
  simp [State.calPurge]

@[simp] theorem State.stopNow_mem (s : State) (a1 : Nat) (a2 : Nat) :
    (State.stopNow s a1 a2).pending = s.pending ∧ (State.stopNow s a1 a2).flash = s.flash := by
  simp [State.stopNow, State.ite_mem]

@[simp] theorem State.dropSet_mem (s : State) (a1 : Nat) (a2 : Nat) :
    (State.dropSet s a1 a2).pending = s.pending ∧ (State.dropSet s a1 a2).store = s.store ∧ (State.dropSet s a1 a2).flash = s.flash := by
  simp [State.dropSet, State.ite_mem]

@[simp] theorem State.resetAcq_mem (s : State) (a1 : Nat) (a2 : Nat) :
    (State.resetAcq s a1 a2).pending = s.pending ∧ (State.resetAcq s a1 a2).flash = s.flash := by
  simp [State.resetAcq, State.ite_mem]

@[simp] theorem State.resetStop_mem (s : State) (a1 : Nat) (a2 : Nat) :
    (State.resetStop s a1 a2).pending = s.pending ∧ (State.resetStop s a1 a2).flash = s.flash := by
  simp [State.resetStop, State.ite_mem]

@[simp] theorem State.firstNum_mem (s : State) (a1 : Nat) (a2 : Nat) :
    (State.firstNum s a1 a2).pending = s.pending ∧ (State.firstNum s a1 a2).store = s.store ∧ (State.firstNum s a1 a2).flash = s.flash := by
  simp [State.firstNum, State.ite_mem]

@[simp] theorem State.ringGeom_mem (s : State) (a1 : Nat) :
    (State.ringGeom s a1).pending = s.pending ∧ (State.ringGeom s a1).store = s.store ∧ (State.ringGeom s a1).flash = s.flash := by
  simp [State.ringGeom, State.ite_mem]

@[simp] theorem State.armedCommit_mem (s : State) (a1 : RegTab) (a2 : Nat) (a3 : Nat) :
    (State.armedCommit s a1 a2 a3).pending = s.pending ∧ (State.armedCommit s a1 a2 a3).flash = s.flash := by
  simp [State.armedCommit, State.ite_mem]

@[simp] theorem State.grpCommit_mem (s : State) (a1 : RegTab) (a2 : Nat) (a3 : Nat) :
    (State.grpCommit s a1 a2 a3).pending = s.pending ∧ (State.grpCommit s a1 a2 a3).flash = s.flash := by
  simp [State.grpCommit]

@[simp] theorem State.srcCommit_mem (s : State) (a1 : RegTab) (a2 : Nat) (a3 : Nat) :
    (State.srcCommit s a1 a2 a3).pending = s.pending ∧ (State.srcCommit s a1 a2 a3).store = s.store ∧ (State.srcCommit s a1 a2 a3).flash = s.flash := by
  simp [State.srcCommit, State.foldl_pending, State.foldl_store, State.foldl_flash]

@[simp] theorem State.chainCommit_mem (s : State) (a1 : RegTab) (a2 : Nat) (a3 : Nat) :
    (State.chainCommit s a1 a2 a3).pending = s.pending ∧ (State.chainCommit s a1 a2 a3).store = s.store ∧ (State.chainCommit s a1 a2 a3).flash = s.flash := by
  simp [State.chainCommit, State.ite_mem]

@[simp] theorem State.strmDrop_mem (s : State) (a1 : RegTab) (a2 : Nat) :
    (State.strmDrop s a1 a2).pending = s.pending ∧ (State.strmDrop s a1 a2).store = s.store ∧ (State.strmDrop s a1 a2).flash = s.flash := by
  simp only [State.strmDrop]; (repeat' split) <;> simp

@[simp] theorem State.strmCommit_mem (s : State) (a1 : RegTab) (a2 : Nat) :
    (State.strmCommit s a1 a2).pending = s.pending ∧ (State.strmCommit s a1 a2).store = s.store ∧ (State.strmCommit s a1 a2).flash = s.flash := by
  simp [State.strmCommit, State.ite_mem]

@[simp] theorem State.stmCommit_mem (s : State) (a1 : RegTab) :
    (State.stmCommit s a1).pending = s.pending ∧ (State.stmCommit s a1).store = s.store ∧ (State.stmCommit s a1).flash = s.flash := by
  simp [State.stmCommit, State.ite_mem, State.foldl_pending, State.foldl_store, State.foldl_flash]

@[simp] theorem State.ptpCommit_mem (s : State) (a1 : RegTab) :
    (State.ptpCommit s a1).pending = s.pending ∧ (State.ptpCommit s a1).store = s.store ∧ (State.ptpCommit s a1).flash = s.flash := by
  simp [State.ptpCommit, State.ite_mem, State.foldl_pending, State.foldl_store, State.foldl_flash]

@[simp] theorem State.evtCommit_mem (s : State) :
    (State.evtCommit s).pending = s.pending ∧ (State.evtCommit s).store = s.store ∧ (State.evtCommit s).flash = s.flash := by
  simp [State.evtCommit, State.ite_mem, State.foldl_pending, State.foldl_store, State.foldl_flash]

@[simp] theorem State.tallyCommit_mem (s : State) :
    (State.tallyCommit s).pending = s.pending ∧ (State.tallyCommit s).store = s.store ∧ (State.tallyCommit s).flash = s.flash := by
  simp [State.tallyCommit, State.ite_mem]

@[simp] theorem State.dispCommit_mem (s : State) (a1 : RegTab) (a2 : Bool) (a3 : RegTab) :
    (State.dispCommit s a1 a2 a3).pending = s.pending ∧ (State.dispCommit s a1 a2 a3).store = s.store ∧ (State.dispCommit s a1 a2 a3).flash = s.flash := by
  simp [State.dispCommit, State.ite_mem]

@[simp] theorem State.stoCommit_mem (s : State) (a1 : Demand) (a2 : Nat) :
    (State.stoCommit s a1 a2).pending = s.pending ∧ (State.stoCommit s a1 a2).store = s.store ∧ (State.stoCommit s a1 a2).flash = s.flash := by
  simp [State.stoCommit]

@[simp] theorem State.schedFrom_mem (s : State) (a1 : RegTab) (a2 : Nat) :
    (State.schedFrom s a1 a2).pending = s.pending ∧ (State.schedFrom s a1 a2).store = s.store ∧ (State.schedFrom s a1 a2).flash = s.flash := by
  simp [State.schedFrom, State.ite_mem]

@[simp] theorem State.activate_mem (s : State) (a1 : Nat) (a2 : Nat) (a3 : RegTab) (a4 : Demand) (a5 : Nat) :
    (State.activate s a1 a2 a3 a4 a5).pending = s.pending ∧ (State.activate s a1 a2 a3 a4 a5).flash = s.flash := by
  simp [State.activate, State.foldl_pending, State.foldl_flash]

@[simp] theorem State.request_mem (s : State) (a1 : Nat) (a2 : Nat) (a3 : Nat) (a4 : Nat) (a5 : Nat) (a6 : Origin) :
    (State.request s a1 a2 a3 a4 a5 a6).pending = s.pending ∧ (State.request s a1 a2 a3 a4 a5 a6).store = s.store ∧ (State.request s a1 a2 a3 a4 a5 a6).flash = s.flash := by
  simp [State.request]

@[simp] theorem State.hostRequest_mem (s : State) (a1 : Nat) (a2 : Nat) (a3 : Nat) :
    (State.hostRequest s a1 a2 a3).pending = s.pending ∧ (State.hostRequest s a1 a2 a3).store = s.store ∧ (State.hostRequest s a1 a2 a3).flash = s.flash := by
  simp [State.hostRequest, State.ite_mem]

@[simp] theorem State.result_mem (s : State) (a1 : Nat) (a2 : List Nat) :
    (State.result s a1 a2).pending = s.pending ∧ (State.result s a1 a2).store = s.store ∧ (State.result s a1 a2).flash = s.flash := by
  simp [State.result]

@[simp] theorem State.settleReq_mem (s : State) :
    (State.settleReq s).pending = s.pending ∧ (State.settleReq s).store = s.store ∧ (State.settleReq s).flash = s.flash := by
  simp [State.settleReq, State.ite_mem]

@[simp] theorem State.applied_mem (s : State) (a1 : Nat) (a2 : Nat) (a3 : Nat) (a4 : List Nat) :
    (State.applied s a1 a2 a3 a4).pending = s.pending ∧ (State.applied s a1 a2 a3 a4).store = s.store ∧ (State.applied s a1 a2 a3 a4).flash = s.flash := by
  simp [State.applied, State.foldl_pending, State.foldl_store, State.foldl_flash]

@[simp] theorem State.refused_mem (s : State) (a1 : Nat) (a2 : Nat) (a3 : List Nat) :
    (State.refused s a1 a2 a3).pending = s.pending ∧ (State.refused s a1 a2 a3).store = s.store ∧ (State.refused s a1 a2 a3).flash = s.flash := by
  simp [State.refused]

@[simp] theorem State.commitFlags_mem (s : State) (a1 : Commit) (a2 : Bool) :
    (State.commitFlags s a1 a2).pending = s.pending ∧ (State.commitFlags s a1 a2).store = s.store ∧ (State.commitFlags s a1 a2).flash = s.flash := by
  simp [State.commitFlags, State.ite_mem]

@[simp] theorem State.budgetDiff_mem (s : State) (a1 : Nat) (a2 : Option Image) (a3 : Demand) (a4 : Nat) :
    (State.budgetDiff s a1 a2 a3 a4).pending = s.pending ∧ (State.budgetDiff s a1 a2 a3 a4).store = s.store ∧ (State.budgetDiff s a1 a2 a3 a4).flash = s.flash := by
  simp only [State.budgetDiff]; (repeat' split) <;> simp

@[simp] theorem State.wakeRelease_mem (s : State) :
    (State.wakeRelease s).pending = s.pending ∧ (State.wakeRelease s).store = s.store ∧ (State.wakeRelease s).flash = s.flash := by
  simp [State.wakeRelease, State.ite_mem]

@[simp] theorem State.qcCtrl_mem (s : State) (a1 : Nat) (a2 : Word) :
    (State.qcCtrl s a1 a2).pending = s.pending ∧ (State.qcCtrl s a1 a2).store = s.store ∧ (State.qcCtrl s a1 a2).flash = s.flash := by
  simp [State.qcCtrl, State.ite_mem]

@[simp] theorem State.rwWord_mem (s : State) (a1 : Nat) (a2 : Nat) (a3 : Word) :
    (State.rwWord s a1 a2 a3).pending = s.pending ∧ (State.rwWord s a1 a2 a3).store = s.store ∧ (State.rwWord s a1 a2 a3).flash = s.flash := by
  simp [State.rwWord, State.ite_mem]

@[simp] theorem State.rwsWord_mem (s : State) (a1 : Nat) (a2 : Word) :
    (State.rwsWord s a1 a2).pending = s.pending ∧ (State.rwsWord s a1 a2).store = s.store ∧ (State.rwsWord s a1 a2).flash = s.flash := by
  simp [State.rwsWord, State.ite_mem]

@[simp] theorem State.shadowReset_mem (s : State) :
    (State.shadowReset s).pending = s.pending ∧ (State.shadowReset s).store = s.store ∧ (State.shadowReset s).flash = s.flash := by
  simp [State.shadowReset]

@[simp] theorem State.loadWord_mem (s : State) (a1 : Bool) (a2 : Nat) (a3 : Nat) :
    (State.loadWord s a1 a2 a3).pending = s.pending ∧ (State.loadWord s a1 a2 a3).store = s.store ∧ (State.loadWord s a1 a2 a3).flash = s.flash := by
  simp [State.loadWord, State.ite_mem]

@[simp] theorem State.loadWords_mem (s : State) (a1 : Bool) (a2 : Nat) (a3 : List Nat) :
    (State.loadWords s a1 a2 a3).pending = s.pending ∧ (State.loadWords s a1 a2 a3).store = s.store ∧ (State.loadWords s a1 a2 a3).flash = s.flash := by
  induction a3 generalizing s a1 a2 with
  | nil => simp [State.loadWords]
  | cons x xs ih =>
    simp only [State.loadWords]
    simp [ih]

@[simp] theorem State.loadWrites_mem (s : State) (a1 : Bool) (a2 : Image) :
    (State.loadWrites s a1 a2).pending = s.pending ∧ (State.loadWrites s a1 a2).store = s.store ∧ (State.loadWrites s a1 a2).flash = s.flash := by
  simp [State.loadWrites, State.foldl_pending, State.foldl_store, State.foldl_flash]

@[simp] theorem State.loadSlot_mem (s : State) (a1 : Nat) (a2 : Image) :
    (State.loadSlot s a1 a2).pending = s.pending ∧ (State.loadSlot s a1 a2).store = s.store ∧ (State.loadSlot s a1 a2).flash = s.flash := by
  simp [State.loadSlot, State.ite_mem]

@[simp] theorem State.setPhase_mem (s : State) (a1 : Nat) :
    (State.setPhase s a1).pending = s.pending ∧ (State.setPhase s a1).store = s.store ∧ (State.setPhase s a1).flash = s.flash := by
  simp [State.setPhase, State.ite_mem]

@[simp] theorem State.handClk_mem (s : State) :
    (State.handClk s).pending = s.pending ∧ (State.handClk s).store = s.store ∧ (State.handClk s).flash = s.flash := by
  simp [State.handClk, State.ite_mem]

@[simp] theorem State.armSection_mem (s : State) (a1 : Nat) :
    (State.armSection s a1).pending = s.pending ∧ (State.armSection s a1).flash = s.flash := by
  simp only [State.armSection]; (repeat' split) <;> simp [State.ite_mem, State.foldl_pending, State.foldl_flash]

@[simp] theorem State.planArms_mem (s : State) (a1 : Nat) (a2 : Image) :
    (State.planArms s a1 a2).pending = s.pending ∧ (State.planArms s a1 a2).flash = s.flash := by
  simp only [State.planArms]; (repeat' split) <;> simp

@[simp] theorem State.imageApplied_mem (s : State) (a1 : Nat) (a2 : Nat) (a3 : Image) (a4 : Nat) :
    (State.imageApplied s a1 a2 a3 a4).pending = s.pending ∧ (State.imageApplied s a1 a2 a3 a4).flash = s.flash := by
  simp [State.imageApplied]

@[simp] theorem State.fallback_mem (s : State) :
    (State.fallback s).pending = s.pending ∧ (State.fallback s).store = s.store ∧ (State.fallback s).flash = s.flash := by
  simp only [State.fallback]; (repeat' split) <;> simp

@[simp] theorem State.decideCommit_mem (s : State) (a1 : Nat) (a2 : Nat) (a3 : Commit) (a4 : Bool) :
    (State.decideCommit s a1 a2 a3 a4).pending = s.pending ∧ (State.decideCommit s a1 a2 a3 a4).flash = s.flash := by
  simp only [State.decideCommit]; (repeat' split) <;> simp [State.foldl_pending, State.foldl_flash]

@[simp] theorem State.commitAtB_mem (s : State) (a1 : Nat) (a2 : Nat) :
    (State.commitAtB s a1 a2).pending = s.pending ∧ (State.commitAtB s a1 a2).flash = s.flash := by
  simp only [State.commitAtB]; (repeat' split) <;> simp

@[simp] theorem State.reqTick_mem (s : State) (a1 : Nat) :
    (State.reqTick s a1).pending = s.pending ∧ (State.reqTick s a1).store = s.store ∧ (State.reqTick s a1).flash = s.flash := by
  simp [State.reqTick, State.ite_mem]

@[simp] theorem State.cancel_mem (s : State) (a1 : Nat) :
    (State.cancel s a1).pending = s.pending ∧ (State.cancel s a1).store = s.store ∧ (State.cancel s a1).flash = s.flash := by
  simp only [State.cancel]; (repeat' split) <;> simp

@[simp] theorem State.revert_mem (s : State) :
    (State.revert s).pending = s.pending ∧ (State.revert s).store = s.store ∧ (State.revert s).flash = s.flash := by
  simp [State.revert, State.ite_mem]

@[simp] theorem State.reload_mem (s : State) (a1 : Nat) (a2 : Nat) :
    (State.reload s a1 a2).pending = s.pending ∧ (State.reload s a1 a2).store = s.store ∧ (State.reload s a1 a2).flash = s.flash := by
  simp only [State.reload]; (repeat' split) <;> simp

@[simp] theorem State.flashCmd_mem (s : State) (a1 : Nat) :
    (State.flashCmd s a1).pending = s.pending ∧ (State.flashCmd s a1).store = s.store ∧ (State.flashCmd s a1).flash = s.flash := by
  simp [State.flashCmd, State.ite_mem]

@[simp] theorem State.flashDo_mem (s : State) (a1 : FlashOp) (a2 : Bool) :
    (State.flashDo s a1 a2).pending = s.pending ∧ (State.flashDo s a1 a2).store = s.store := by
  simp [State.flashDo, State.ite_mem, State.foldl_pending, State.foldl_store]

@[simp] theorem State.mirror_mem (s : State) (a1 : Nat) (a2 : List Byte) :
    (State.mirror s a1 a2).pending = s.pending ∧ (State.mirror s a1 a2).store = s.store ∧ (State.mirror s a1 a2).flash = s.flash := by
  simp [State.mirror]

@[simp] theorem State.linkLost_mem (s : State) :
    (State.linkLost s).pending = s.pending ∧ (State.linkLost s).store = s.store ∧ (State.linkLost s).flash = s.flash := by
  simp [State.linkLost]

@[simp] theorem State.showPeer_mem (s : State) (a1 : PeerState) :
    (State.showPeer s a1).pending = s.pending ∧ (State.showPeer s a1).store = s.store ∧ (State.showPeer s a1).flash = s.flash := by
  simp [State.showPeer]

@[simp] theorem State.peerRx_mem (s : State) (a1 : Nat) (a2 : PeerState) :
    (State.peerRx s a1 a2).pending = s.pending ∧ (State.peerRx s a1 a2).store = s.store ∧ (State.peerRx s a1 a2).flash = s.flash := by
  simp [State.peerRx]

@[simp] theorem State.heartbeat_mem (s : State) (a1 : Nat) :
    (State.heartbeat s a1).pending = s.pending ∧ (State.heartbeat s a1).store = s.store ∧ (State.heartbeat s a1).flash = s.flash := by
  simp [State.heartbeat, State.ite_mem]

@[simp] theorem State.toPrimary_mem (s : State) :
    (State.toPrimary s).pending = s.pending ∧ (State.toPrimary s).store = s.store ∧ (State.toPrimary s).flash = s.flash := by
  simp [State.toPrimary, State.ite_mem]

@[simp] theorem State.toStandby_mem (s : State) :
    (State.toStandby s).pending = s.pending ∧ (State.toStandby s).store = s.store ∧ (State.toStandby s).flash = s.flash := by
  simp [State.toStandby]

@[simp] theorem State.stopAll_mem (s : State) (a1 : Nat) :
    (State.stopAll s a1).pending = s.pending ∧ (State.stopAll s a1).store = s.store ∧ (State.stopAll s a1).flash = s.flash := by
  simp [State.stopAll, State.foldl_pending, State.foldl_store, State.foldl_flash]

@[simp] theorem State.cfgDiff_mem (s : State) (a1 : Nat) (a2 : PeerState) :
    (State.cfgDiff s a1 a2).pending = s.pending ∧ (State.cfgDiff s a1 a2).store = s.store ∧ (State.cfgDiff s a1 a2).flash = s.flash := by
  simp [State.cfgDiff, State.ite_mem]

@[simp] theorem State.settle_mem (s : State) (a1 : Nat) (a2 : PeerState) :
    (State.settle s a1 a2).pending = s.pending ∧ (State.settle s a1 a2).store = s.store ∧ (State.settle s a1 a2).flash = s.flash := by
  simp [State.settle, State.ite_mem]

@[simp] theorem State.alone_mem (s : State) :
    (State.alone s).pending = s.pending ∧ (State.alone s).store = s.store ∧ (State.alone s).flash = s.flash := by
  simp [State.alone, State.ite_mem]

@[simp] theorem State.countHb_mem (s : State) :
    (State.countHb s).pending = s.pending ∧ (State.countHb s).store = s.store ∧ (State.countHb s).flash = s.flash := by
  simp [State.countHb, State.ite_mem]

@[simp] theorem State.takeGroup_mem (s : State) (a1 : Nat) (a2 : Nat) (a3 : PeerState) (a4 : PeerGrp) :
    (State.takeGroup s a1 a2 a3 a4).pending = s.pending ∧ (State.takeGroup s a1 a2 a3 a4).flash = s.flash := by
  simp [State.takeGroup, State.ite_mem]

@[simp] theorem State.takeoverAt_mem (s : State) (a1 : Nat) (a2 : Nat) (a3 : PeerState) :
    (State.takeoverAt s a1 a2 a3).pending = s.pending ∧ (State.takeoverAt s a1 a2 a3).flash = s.flash := by
  simp [State.takeoverAt, State.foldl_pending, State.foldl_flash]

@[simp] theorem State.takeoverDue_mem (s : State) (a1 : Nat) :
    (State.takeoverDue s a1).pending = s.pending ∧ (State.takeoverDue s a1).flash = s.flash := by
  simp only [State.takeoverDue]; (repeat' split) <;> simp

@[simp] theorem State.handoverAt_mem (s : State) (a1 : Nat) :
    (State.handoverAt s a1).pending = s.pending ∧ (State.handoverAt s a1).store = s.store ∧ (State.handoverAt s a1).flash = s.flash := by
  simp [State.handoverAt, State.ite_mem]

@[simp] theorem State.twinTick_mem (s : State) (a1 : Nat) :
    (State.twinTick s a1).pending = s.pending ∧ (State.twinTick s a1).flash = s.flash := by
  simp only [State.twinTick]; (repeat' split) <;> simp

@[simp] theorem State.handoverCmd_mem (s : State) :
    (State.handoverCmd s).pending = s.pending ∧ (State.handoverCmd s).store = s.store ∧ (State.handoverCmd s).flash = s.flash := by
  simp [State.handoverCmd, State.ite_mem]

@[simp] theorem State.firstClear_mem (s : State) :
    (State.firstClear s).pending = s.pending ∧ (State.firstClear s).store = s.store ∧ (State.firstClear s).flash = s.flash := by
  simp [State.firstClear]

@[simp] theorem State.fatalClear_mem (s : State) :
    (State.fatalClear s).pending = s.pending ∧ (State.fatalClear s).store = s.store ∧ (State.fatalClear s).flash = s.flash := by
  simp [State.fatalClear, State.ite_mem]

@[simp] theorem State.logRd_mem (s : State) (a1 : Nat) :
    (State.logRd s a1).2.pending = s.pending ∧ (State.logRd s a1).2.store = s.store ∧ (State.logRd s a1).2.flash = s.flash := by
  simp [State.logRd]

@[simp] theorem State.captureRd_mem (s : State) (a1 : Nat) (a2 : Nat) :
    (State.captureRd s a1 a2).2.pending = s.pending ∧ (State.captureRd s a1 a2).2.store = s.store ∧ (State.captureRd s a1 a2).2.flash = s.flash := by
  simp [State.captureRd]

@[simp] theorem State.setCauseReg_mem (s : State) (a1 : Nat) :
    (State.setCauseReg s a1).pending = s.pending ∧ (State.setCauseReg s a1).store = s.store ∧ (State.setCauseReg s a1).flash = s.flash := by
  simp [State.setCauseReg]

@[simp] theorem State.keepSec_mem (s : State) :
    (State.keepSec s).2.pending = s.pending ∧ (State.keepSec s).2.store = s.store ∧ (State.keepSec s).2.flash = s.flash := by
  simp [State.keepSec]

@[simp] theorem State.unpinAll_mem (s : State) (a1 : Nat) :
    (State.unpinAll s a1).pending = s.pending ∧ (State.unpinAll s a1).store = s.store ∧ (State.unpinAll s a1).flash = s.flash := by
  simp [State.unpinAll, State.foldl_pending, State.foldl_store, State.foldl_flash]

@[simp] theorem State.showTick_mem (s : State) :
    (State.showTick s).pending = s.pending ∧ (State.showTick s).store = s.store ∧ (State.showTick s).flash = s.flash := by
  simp only [State.showTick]; (repeat' split) <;> simp

@[simp] theorem State.hubReset_mem (s : State) (a1 : Nat → Bool) :
    (State.hubReset s a1).pending = s.pending ∧ (State.hubReset s a1).store = s.store ∧ (State.hubReset s a1).flash = s.flash := by
  simp [State.hubReset, State.ite_mem, State.foldl_pending, State.foldl_store, State.foldl_flash]

@[simp] theorem State.coldReset_mem (s : State) (a1 : Nat) (a2 : Bool) :
    (State.coldReset s a1 a2).pending = s.pending ∧ (State.coldReset s a1 a2).flash = s.flash := by
  simp [State.coldReset, State.ite_mem, State.foldl_pending, State.foldl_flash]

@[simp] theorem State.finalAll_mem (s : State) (a1 : Nat) (a2 : Nat) :
    (State.finalAll s a1 a2).pending = s.pending ∧ (State.finalAll s a1 a2).store = s.store ∧ (State.finalAll s a1 a2).flash = s.flash := by
  simp [State.finalAll, State.foldl_pending, State.foldl_store, State.foldl_flash]

@[simp] theorem State.freeElems_mem (s : State) (a1 : Nat) (a2 : Nat) (a3 : Rec) (a4 : Nat) :
    (State.freeElems s a1 a2 a3 a4).pending = s.pending ∧ (State.freeElems s a1 a2 a3 a4).store = s.store ∧ (State.freeElems s a1 a2 a3 a4).flash = s.flash := by
  simp only [State.freeElems]; (repeat' split) <;> simp [State.foldl_pending, State.foldl_store, State.foldl_flash]

@[simp] theorem State.freeAll_mem (s : State) (a1 : Nat) (a2 : Nat) :
    (State.freeAll s a1 a2).pending = s.pending ∧ (State.freeAll s a1 a2).store = s.store ∧ (State.freeAll s a1 a2).flash = s.flash := by
  simp [State.freeAll, State.foldl_pending, State.foldl_store, State.foldl_flash]

@[simp] theorem State.drainStage_mem (s : State) :
    (State.drainStage s).pending = s.pending ∧ (State.drainStage s).flash = s.flash := by
  simp [State.drainStage]

@[simp] theorem State.holdClk_mem (s : State) :
    (State.holdClk s).pending = s.pending ∧ (State.holdClk s).store = s.store ∧ (State.holdClk s).flash = s.flash := by
  simp [State.holdClk]

@[simp] theorem State.warmReset_mem (s : State) (a1 : Nat) :
    (State.warmReset s a1).pending = s.pending ∧ (State.warmReset s a1).flash = s.flash := by
  simp [State.warmReset, State.ite_mem, State.foldl_pending, State.foldl_store, State.foldl_flash]

@[simp] theorem State.coreLoss_mem (s : State) :
    (State.coreLoss s).pending = s.pending ∧ (State.coreLoss s).store = s.store ∧ (State.coreLoss s).flash = s.flash := by
  simp [State.coreLoss]

@[simp] theorem State.coreGroup_mem (s : State) (a1 : Nat) (a2 : Nat) :
    (State.coreGroup s a1 a2).pending = s.pending ∧ (State.coreGroup s a1 a2).store = s.store ∧ (State.coreGroup s a1 a2).flash = s.flash := by
  simp [State.coreGroup, State.ite_mem, State.foldl_pending, State.foldl_store, State.foldl_flash]

@[simp] theorem State.rebuildTime_mem (s : State) (a1 : Nat) :
    (State.rebuildTime s a1).pending = s.pending ∧ (State.rebuildTime s a1).store = s.store ∧ (State.rebuildTime s a1).flash = s.flash := by
  simp [State.rebuildTime]

@[simp] theorem State.resetCmd_mem (s : State) (a1 : Nat) (a2 : Bool) (a3 : Bool) :
    (State.resetCmd s a1 a2 a3).pending = s.pending ∧ (State.resetCmd s a1 a2 a3).flash = s.flash := by
  simp [State.resetCmd, State.ite_mem]

@[simp] theorem State.groupResetWrite_mem (s : State) (a1 : Nat) :
    (State.groupResetWrite s a1).pending = s.pending ∧ (State.groupResetWrite s a1).store = s.store ∧ (State.groupResetWrite s a1).flash = s.flash := by
  simp [State.groupResetWrite]

@[simp] theorem State.groupResetAt_mem (s : State) (a1 : Nat) (a2 : Nat) :
    (State.groupResetAt s a1 a2).pending = s.pending ∧ (State.groupResetAt s a1 a2).flash = s.flash := by
  simp [State.groupResetAt, State.ite_mem, State.foldl_pending, State.foldl_flash]

@[simp] theorem State.anaEnd_mem (s : State) (a1 : Nat) :
    (State.anaEnd s a1).pending = s.pending ∧ (State.anaEnd s a1).store = s.store ∧ (State.anaEnd s a1).flash = s.flash := by
  simp [State.anaEnd, State.ite_mem, State.foldl_pending, State.foldl_store, State.foldl_flash]

@[simp] theorem State.supplyGap_mem (s : State) (a1 : Nat) (a2 : Nat) (a3 : Nat) (a4 : Nat) :
    (State.supplyGap s a1 a2 a3 a4).pending = s.pending ∧ (State.supplyGap s a1 a2 a3 a4).store = s.store ∧ (State.supplyGap s a1 a2 a3 a4).flash = s.flash := by
  simp [State.supplyGap, State.ite_mem]

@[simp] theorem State.chanRestart_mem (s : State) (a1 : Nat) (a2 : Nat) (a3 : Nat) :
    (State.chanRestart s a1 a2 a3).pending = s.pending ∧ (State.chanRestart s a1 a2 a3).store = s.store ∧ (State.chanRestart s a1 a2 a3).flash = s.flash := by
  simp [State.chanRestart, State.foldl_pending, State.foldl_store, State.foldl_flash]

@[simp] theorem State.spareUsed_mem (s : State) :
    (State.spareUsed s).pending = s.pending ∧ (State.spareUsed s).store = s.store ∧ (State.spareUsed s).flash = s.flash := by
  simp [State.spareUsed]

@[simp] theorem State.fenceLog_mem (s : State) (a1 : Nat) :
    (State.fenceLog s a1).pending = s.pending ∧ (State.fenceLog s a1).store = s.store ∧ (State.fenceLog s a1).flash = s.flash := by
  simp [State.fenceLog]

@[simp] theorem State.dieFenced_mem (s : State) (a1 : Nat) :
    (State.dieFenced s a1).pending = s.pending ∧ (State.dieFenced s a1).store = s.store ∧ (State.dieFenced s a1).flash = s.flash := by
  simp [State.dieFenced]

@[simp] theorem State.lanesOff_mem (s : State) (a1 : Nat) :
    (State.lanesOff s a1).pending = s.pending ∧ (State.lanesOff s a1).store = s.store ∧ (State.lanesOff s a1).flash = s.flash := by
  simp [State.lanesOff]

@[simp] theorem State.fencePcs_mem (s : State) (a1 : List Nat) :
    (State.fencePcs s a1).pending = s.pending ∧ (State.fencePcs s a1).store = s.store ∧ (State.fencePcs s a1).flash = s.flash := by
  simp [State.fencePcs]

@[simp] theorem State.stackGroupFail_mem (s : State) (a1 : Bool) (a2 : Nat) (a3 : Nat) :
    (State.stackGroupFail s a1 a2 a3).pending = s.pending ∧ (State.stackGroupFail s a1 a2 a3).store = s.store ∧ (State.stackGroupFail s a1 a2 a3).flash = s.flash := by
  simp [State.stackGroupFail, State.ite_mem]

@[simp] theorem State.selfPart_mem (s : State) (a1 : Bool) (a2 : List FailPart) (a3 : FailPart) :
    (State.selfPart s a1 a2 a3).pending = s.pending ∧ (State.selfPart s a1 a2 a3).flash = s.flash := by
  simp only [State.selfPart]; (repeat' split) <;> simp

@[simp] theorem State.fenceMarked_mem (s : State) :
    (State.fenceMarked s).pending = s.pending ∧ (State.fenceMarked s).store = s.store ∧ (State.fenceMarked s).flash = s.flash := by
  simp [State.fenceMarked, State.foldl_pending, State.foldl_store, State.foldl_flash]

@[simp] theorem State.selfCal_mem (s : State) :
    (State.selfCal s).pending = s.pending ∧ (State.selfCal s).store = s.store ∧ (State.selfCal s).flash = s.flash := by
  simp [State.selfCal, State.ite_mem]

@[simp] theorem State.calFallback_mem (s : State) :
    (State.calFallback s).pending = s.pending ∧ (State.calFallback s).store = s.store ∧ (State.calFallback s).flash = s.flash := by
  simp [State.calFallback, State.ite_mem]

@[simp] theorem State.tdo_mem (s : State) (a1 : Bool) :
    (State.tdo s a1).pending = s.pending ∧ (State.tdo s a1).store = s.store ∧ (State.tdo s a1).flash = s.flash := by
  simp [State.tdo]

@[simp] theorem State.tapAct_mem (s : State) (a1 : Bool) :
    (State.tapAct s a1).pending = s.pending ∧ (State.tapAct s a1).store = s.store ∧ (State.tapAct s a1).flash = s.flash := by
  simp only [State.tapAct]; (repeat' split) <;> simp

@[simp] theorem State.readClear_mem (s : State) (a1 : Nat) :
    (State.readClear s a1).pending = s.pending ∧ (State.readClear s a1).store = s.store ∧ (State.readClear s a1).flash = s.flash := by
  simp [State.readClear, State.ite_mem]

@[simp] theorem State.readWord_mem (s : State) (a1 : Nat) (a2 : Nat) :
    (State.readWord s a1 a2).2.pending = s.pending ∧ (State.readWord s a1 a2).2.store = s.store ∧ (State.readWord s a1 a2).2.flash = s.flash := by
  simp only [State.readWord]; (repeat' split) <;> simp

@[simp] theorem State.answer_mem (s : State) (a1 : Nat) (a2 : Nat) :
    (State.answer s a1 a2).pending = s.pending ∧ (State.answer s a1 a2).store = s.store ∧ (State.answer s a1 a2).flash = s.flash := by
  simp [State.answer]

@[simp] theorem State.answer8_mem (s : State) (a1 : Nat) (a2 : Nat) :
    (State.answer8 s a1 a2).pending = s.pending ∧ (State.answer8 s a1 a2).store = s.store ∧ (State.answer8 s a1 a2).flash = s.flash := by
  simp [State.answer8, State.ite_mem]

@[simp] theorem State.grpCommand_mem (s : State) (a1 : Nat) (a2 : Nat) (a3 : Word) :
    (State.grpCommand s a1 a2 a3).pending = s.pending ∧ (State.grpCommand s a1 a2 a3).store = s.store ∧ (State.grpCommand s a1 a2 a3).flash = s.flash := by
  simp [State.grpCommand, State.ite_mem, State.onIf_pending, State.onIf_store, State.onIf_flash]

@[simp] theorem State.cfgCommand_mem (s : State) (a1 : Nat) (a2 : Nat) (a3 : Word) :
    (State.cfgCommand s a1 a2 a3).pending = s.pending ∧ (State.cfgCommand s a1 a2 a3).store = s.store ∧ (State.cfgCommand s a1 a2 a3).flash = s.flash := by
  simp [State.cfgCommand, State.ite_mem, State.onIf_pending, State.onIf_store, State.onIf_flash]

@[simp] theorem State.pkgCommand_mem (s : State) (a1 : Nat) (a2 : Nat) (a3 : Word) :
    (State.pkgCommand s a1 a2 a3).pending = s.pending ∧ (State.pkgCommand s a1 a2 a3).flash = s.flash := by
  simp [State.pkgCommand, State.ite_mem, State.onIf_pending, State.onIf_flash]

@[simp] theorem State.command_mem (s : State) (a1 : Nat) (a2 : Nat) (a3 : Nat) (a4 : Word) :
    (State.command s a1 a2 a3 a4).pending = s.pending ∧ (State.command s a1 a2 a3 a4).flash = s.flash := by
  simp only [State.command]; (repeat' split) <;> simp [State.onIf_pending, State.onIf_flash]

@[simp] theorem State.w1cWord_mem (s : State) (a1 : Nat) (a2 : Word) :
    (State.w1cWord s a1 a2).pending = s.pending ∧ (State.w1cWord s a1 a2).store = s.store ∧ (State.w1cWord s a1 a2).flash = s.flash := by
  simp [State.w1cWord, State.ite_mem]

@[simp] theorem State.wrIgnored_mem (s : State) :
    (State.wrIgnored s).pending = s.pending ∧ (State.wrIgnored s).store = s.store ∧ (State.wrIgnored s).flash = s.flash := by
  simp [State.wrIgnored, State.ite_mem]

@[simp] theorem State.rwsWrite_mem (s : State) (a1 : List (Nat × Word)) :
    (State.rwsWrite s a1).pending = s.pending ∧ (State.rwsWrite s a1).store = s.store ∧ (State.rwsWrite s a1).flash = s.flash := by
  simp [State.rwsWrite, State.ite_mem, State.foldl_pending, State.foldl_store, State.foldl_flash]

@[simp] theorem State.writeWords_mem (s : State) (a1 : Nat) (a2 : Nat) (a3 : List (Nat × Word)) :
    (State.writeWords s a1 a2 a3).pending = s.pending ∧ (State.writeWords s a1 a2 a3).flash = s.flash := by
  simp [State.writeWords, State.ite_mem, State.foldl_pending, State.foldl_flash]

@[simp] theorem State.setHeld_mem (s : State) (a1 : Nat) (a2 : Nat) (a3 : Option Word) :
    (State.setHeld s a1 a2 a3).pending = s.pending ∧ (State.setHeld s a1 a2 a3).store = s.store ∧ (State.setHeld s a1 a2 a3).flash = s.flash := by
  simp [State.setHeld]

@[simp] theorem State.write4_mem (s : State) (a1 : Nat) (a2 : Nat) (a3 : Nat) (a4 : Word) :
    (State.write4 s a1 a2 a3 a4).pending = s.pending ∧ (State.write4 s a1 a2 a3 a4).flash = s.flash := by
  simp only [State.write4]; (repeat' split) <;> simp

@[simp] theorem State.write8_mem (s : State) (a1 : Nat) (a2 : Nat) (a3 : Nat) (a4 : Word) (a5 : Word) :
    (State.write8 s a1 a2 a3 a4 a5).pending = s.pending ∧ (State.write8 s a1 a2 a3 a4 a5).flash = s.flash := by
  simp [State.write8, State.ite_mem]

@[simp] theorem State.smbusWords_mem (s : State) (a1 : Nat) (a2 : Nat) :
    (State.smbusWords s a1 a2).2.pending = s.pending ∧ (State.smbusWords s a1 a2).2.store = s.store ∧ (State.smbusWords s a1 a2).2.flash = s.flash := by
  induction a2 generalizing s a1 with
  | zero => simp [State.smbusWords]
  | succ n ih =>
    simp only [State.smbusWords]
    simp [ih]

@[simp] theorem State.drainSome_mem (s : State) (a1 : Nat) (a2 : List StW) :
    (State.drainSome s a1 a2).1.pending = s.pending ∧ (State.drainSome s a1 a2).1.flash = s.flash := by
  induction a2 generalizing s a1 with
  | nil => simp [State.drainSome]
  | cons x xs ih =>
    simp only [State.drainSome]
    first
      | (simp [ih, State.ite_mem, State.foldl_pending, State.foldl_store, State.foldl_flash]; done)
      | ((repeat' split) <;> simp [ih]; done)
      | (simp only [ih]; (repeat' split) <;> simp [State.ite_mem, State.foldl_pending, State.foldl_store, State.foldl_flash]; done)

@[simp] theorem State.swapHalves_mem (s : State) :
    (State.swapHalves s).pending = s.pending ∧ (State.swapHalves s).flash = s.flash := by
  simp [State.swapHalves]

@[simp] theorem State.markDurable_mem (s : State) (a1 : Nat) :
    (State.markDurable s a1).pending = s.pending ∧ (State.markDurable s a1).store = s.store ∧ (State.markDurable s a1).flash = s.flash := by
  simp [State.markDurable, State.ite_mem, State.foldl_pending, State.foldl_store, State.foldl_flash]

@[simp] theorem State.endTick_mem (s : State) (a1 : Nat) :
    (State.endTick s a1).pending = s.pending ∧ (State.endTick s a1).flash = s.flash := by
  simp [State.endTick]

@[simp] theorem State.budgetReset_mem (s : State) :
    (State.budgetReset s).pending = s.pending ∧ (State.budgetReset s).store = s.store ∧ (State.budgetReset s).flash = s.flash := by
  simp [State.budgetReset, State.foldl_pending, State.foldl_store, State.foldl_flash]

@[simp] theorem State.governor_mem (s : State) (a1 : Nat) :
    (State.governor s a1).pending = s.pending ∧ (State.governor s a1).store = s.store ∧ (State.governor s a1).flash = s.flash := by
  simp [State.governor, State.foldl_pending, State.foldl_store, State.foldl_flash]

@[simp] theorem State.copyEntries_mem (s : State) (a1 : Nat) (a2 : List LogEnt) :
    (State.copyEntries s a1 a2).pending = s.pending ∧ (State.copyEntries s a1 a2).store = s.store ∧ (State.copyEntries s a1 a2).flash = s.flash := by
  induction a2 generalizing s a1 with
  | nil => simp [State.copyEntries]
  | cons x xs ih =>
    simp only [State.copyEntries]
    simp [ih]

@[simp] theorem State.logCopyOut_mem (s : State) (a1 : Nat) :
    (State.logCopyOut s a1).pending = s.pending ∧ (State.logCopyOut s a1).store = s.store ∧ (State.logCopyOut s a1).flash = s.flash := by
  simp only [State.logCopyOut]; (repeat' split) <;> simp

@[simp] theorem State.gapBlocks_mem (s : State) (a1 : Nat) :
    (State.gapBlocks s a1).pending = s.pending ∧ (State.gapBlocks s a1).store = s.store ∧ (State.gapBlocks s a1).flash = s.flash := by
  simp [State.gapBlocks, State.foldl_pending, State.foldl_store, State.foldl_flash]

@[simp] theorem State.stampRings_mem (s : State) :
    (State.stampRings s).pending = s.pending ∧ (State.stampRings s).flash = s.flash := by
  simp [State.stampRings, State.foldl_pending, State.foldl_flash]

@[simp] theorem State.keeperSave_mem (s : State) (a1 : Nat) :
    (State.keeperSave s a1).pending = s.pending ∧ (State.keeperSave s a1).store = s.store ∧ (State.keeperSave s a1).flash = s.flash := by
  simp [State.keeperSave]

@[simp] theorem State.tickOpen_mem (s : State) (a1 : Nat) (a2 : Nat) :
    (State.tickOpen s a1 a2).pending = s.pending ∧ (State.tickOpen s a1 a2).flash = s.flash := by
  simp [State.tickOpen]

@[simp] theorem State.tickClose_mem (s : State) (a1 : Nat) :
    (State.tickClose s a1).pending = s.pending ∧ (State.tickClose s a1).flash = s.flash := by
  simp [State.tickClose, State.foldl_pending, State.foldl_flash]

@[simp] theorem State.boundary_mem (s : State) (a1 : Nat) :
    (State.boundary s a1).pending = s.pending ∧ (State.boundary s a1).flash = s.flash := by
  simp [State.boundary]

end Sys2Proof.Machine
end

