-- ==== Sys2Proof/Laws/Memory.lean ====
section
/-! SUPPORT. Every operation that writes the store or the flash keeps the memory's canonical form
(addresses strictly rising, no entry equal to what an unlisted address reads as). The operations
not named here leave the two memories as they found them (Sys2Proof.Laws.Frame). -/

set_option maxRecDepth 4000

namespace Sys2Proof.Machine
open Sys2Proof

theorem Mem.wfAbove_filter (d : Byte) (p : Host.Cell → Bool) (m : Mem) : ∀ lo, Mem.wfAbove d lo m = true →
    Mem.wfAbove d lo (m.filter p) = true := by
  induction m with
  | nil => intro lo _; rfl
  | cons c rest ih =>
    intro lo w
    simp only [Mem.wfAbove, Bool.and_eq_true, decide_eq_true_eq] at w
    by_cases hp : p c = true
    · rw [List.filter_cons_of_pos hp]
      simp only [Mem.wfAbove, Bool.and_eq_true, decide_eq_true_eq]
      exact ⟨w.1, ih _ w.2⟩
    · rw [List.filter_cons_of_neg hp]
      exact Mem.wfAbove_mono d _ lo (c.1 + 1) (by omega) (ih _ w.2)

/-- Taking entries away keeps the canonical form. -/
theorem Mem.wf_filter (d : Byte) (p : Host.Cell → Bool) (m : Mem) (w : Mem.wf d m = true) : Mem.wf d (m.filter p) = true :=
  Mem.wfAbove_filter d p m 0 w

/-- A fold whose step keeps the canonical form keeps it. -/
theorem State.foldl_store_wf {α : Type} (f : State → α → State) (l : List α) (s : State) (h : Mem.wf 0#8 s.store = true)
    (k : ∀ t x, Mem.wf 0#8 t.store = true → Mem.wf 0#8 (f t x).store = true) : Mem.wf 0#8 (l.foldl f s).store = true := by
  induction l generalizing s with
  | nil => exact h
  | cons x xs ih => exact ih _ (k _ _ h)

theorem State.onIf_store_wf (s : State) (c : Bool) (f : State → State) (h : Mem.wf 0#8 s.store = true)
    (k : ∀ t, Mem.wf 0#8 t.store = true → Mem.wf 0#8 (f t).store = true) : Mem.wf 0#8 (s.onIf c f).store = true := by
  unfold State.onIf; split
  · exact k _ h
  · exact h

/-- A fold whose step keeps the canonical form keeps it. -/
theorem State.foldl_flash_wf {α : Type} (f : State → α → State) (l : List α) (s : State) (h : Mem.wf 255#8 s.flash = true)
    (k : ∀ t x, Mem.wf 255#8 t.flash = true → Mem.wf 255#8 (f t x).flash = true) : Mem.wf 255#8 (l.foldl f s).flash = true := by
  induction l generalizing s with
  | nil => exact h
  | cons x xs ih => exact ih _ (k _ _ h)

theorem State.onIf_flash_wf (s : State) (c : Bool) (f : State → State) (h : Mem.wf 255#8 s.flash = true)
    (k : ∀ t, Mem.wf 255#8 t.flash = true → Mem.wf 255#8 (f t).flash = true) : Mem.wf 255#8 (s.onIf c f).flash = true := by
  unfold State.onIf; split
  · exact k _ h
  · exact h

@[simp] theorem State.swrite_store_wf (s : State) (a1 : Nat) (a2 : Byte) (h : Mem.wf 0#8 s.store = true) :
    Mem.wf 0#8 (State.swrite s a1 a2).store = true := by
  unfold State.swrite
  split
  · exact h
  · exact Mem.wf_write 0 s.store a1 a2 h

@[simp] theorem State.swrites_store_wf (s : State) (a1 : Nat) (a2 : List Byte) (h : Mem.wf 0#8 s.store = true) :
    Mem.wf 0#8 (State.swrites s a1 a2).store = true := by
  induction a2 generalizing s a1 with
  | nil => exact h
  | cons x xs ih => exact ih _ _ (State.swrite_store_wf _ _ _ h)

@[simp] theorem State.freeBursts_store_wf (s : State) (a1 : Nat) (a2 : Nat) (h : Mem.wf 0#8 s.store = true) :
    Mem.wf 0#8 (State.freeBursts s a1 a2).store = true := by
  unfold State.freeBursts
  split
  · exact h
  · refine State.foldl_store_wf _ _ _ h ?_
    intro t b k
    refine State.foldl_store_wf _ _ _ k ?_
    intro u i ku
    exact Mem.wf_write 0 _ _ _ (by simpa using ku)

@[simp] theorem State.swriteBits_store_wf (s : State) (a1 : Nat) (a2 : Nat) (a3 : Nat) (h : Mem.wf 0#8 s.store = true) :
    Mem.wf 0#8 (State.swriteBits s a1 a2 a3).store = true := by
  simp [State.swriteBits, h]

@[simp] theorem State.drainAll_store_wf (s : State) (a1 : List StW) (h : Mem.wf 0#8 s.store = true) :
    Mem.wf 0#8 (State.drainAll s a1).store = true := by
  unfold State.drainAll
  induction a1 generalizing s with
  | nil => simpa using h
  | cons x xs ih => exact State.swriteBits_store_wf _ _ _ _ (ih s h)

@[simp] theorem State.settled_store_wf (s : State) (h : Mem.wf 0#8 s.store = true) :
    Mem.wf 0#8 (State.settled s).store = true := by
  simp [State.settled, h]

@[simp] theorem State.moveBlocks_store_wf (s : State) (a1 : Nat) (a2 : Nat) (a3 : Layout) (a4 : Nat) (a5 : Layout) (a6 : Nat) (h : Mem.wf 0#8 s.store = true) :
    Mem.wf 0#8 (State.moveBlocks s a1 a2 a3 a4 a5 a6).store = true := by
  simp [State.moveBlocks, h, State.ite_mem, State.foldl_store]

@[simp] theorem State.writeBlock_store_wf (s : State) (a1 : Nat) (a2 : Nat) (a3 : Nat) (a4 : List (List Byte)) (h : Mem.wf 0#8 s.store = true) :
    Mem.wf 0#8 (State.writeBlock s a1 a2 a3 a4).store = true := by
  simp [State.writeBlock, h, State.ite_mem]

@[simp] theorem State.notRun_store_wf (s : State) (a1 : AbaJob) (h : Mem.wf 0#8 s.store = true) :
    Mem.wf 0#8 (State.notRun s a1).store = true := by
  simp [State.notRun, h]

@[simp] theorem State.skipsDue_store_wf (s : State) (h : Mem.wf 0#8 s.store = true) :
    Mem.wf 0#8 (State.skipsDue s).store = true := by
  unfold State.skipsDue
  refine State.foldl_store_wf _ _ _ (by exact h) ?_
  intro t x k; simp [k]

@[simp] theorem State.copyWindow_store_wf (s : State) (a1 : Nat) (a2 : Nat) (a3 : Nat) (h : Mem.wf 0#8 s.store = true) :
    Mem.wf 0#8 (State.copyWindow s a1 a2 a3).store = true := by
  simp only [State.copyWindow]; (repeat' split) <;> simp [h, State.foldl_store]

@[simp] theorem State.startRegion_store_wf (s : State) (a1 : Nat) (a2 : Nat) (h : Mem.wf 0#8 s.store = true) :
    Mem.wf 0#8 (State.startRegion s a1 a2).store = true := by
  simp only [State.startRegion]; (repeat' split) <;> simp [h]

@[simp] theorem State.moveWindow_store_wf (s : State) (a1 : RegTab) (a2 : Nat) (h : Mem.wf 0#8 s.store = true) :
    Mem.wf 0#8 (State.moveWindow s a1 a2).store = true := by
  simp only [State.moveWindow]; (repeat' split) <;> simp [h]

@[simp] theorem State.abaView_store_wf (s : State) (a1 : AbaJob) (h : Mem.wf 0#8 s.store = true) :
    Mem.wf 0#8 (State.abaView s a1).store = true := by
  unfold State.abaView
  refine State.foldl_store_wf _ _ _ (by simp [h]) ?_
  intro t x k; simp [k]

@[simp] theorem State.measureHead_store_wf (s : State) (a1 : AbaJob) (a2 : List AbaJob) (a3 : Nat) (h : Mem.wf 0#8 s.store = true) :
    Mem.wf 0#8 (State.measureHead s a1 a2 a3).store = true := by
  simp [State.measureHead, h]

@[simp] theorem State.avgPublish_store_wf (s : State) (a1 : Nat) (a2 : Bool) (h : Mem.wf 0#8 s.store = true) :
    Mem.wf 0#8 (State.avgPublish s a1 a2).store = true := by
  unfold State.avgPublish
  dsimp only
  split
  · simp [h]
  · rename_i hx; have e := State.frameAlloc_mem _ _ _ hx; simp at e
    simp only [State.put_frame, State.setAvg_frame, State.publishFrame_mem]
    refine State.swrites_store_wf _ _ _ (State.swrites_store_wf _ _ _ ?_)
    rw [(State.drawnIn_mem _ _).2.1]
    refine State.swrites_store_wf _ _ _ ?_
    rw [e.2.1]; exact h

@[simp] theorem State.avgStop_store_wf (s : State) (a1 : Nat) (h : Mem.wf 0#8 s.store = true) :
    Mem.wf 0#8 (State.avgStop s a1).store = true := by
  simp only [State.avgStop]; (repeat' split) <;> simp [h]

@[simp] theorem State.avgDone_store_wf (s : State) (a1 : Nat) (a2 : AvgJob) (h : Mem.wf 0#8 s.store = true) :
    Mem.wf 0#8 (State.avgDone s a1 a2).store = true := by
  simp only [State.avgDone]; (repeat' split) <;> simp [h]

@[simp] theorem State.avgLand_store_wf (s : State) (a1 : Nat) (a2 : Nat) (h : Mem.wf 0#8 s.store = true) :
    Mem.wf 0#8 (State.avgLand s a1 a2).store = true := by
  unfold State.avgLand
  dsimp only
  (repeat' split) <;> first
    | (simp [h]; done)
    | (simp only [State.setAvg_frame, State.served_mem]
       refine State.foldl_store_wf _ _ _ h ?_
       intro t x k; (repeat' split) <;> simp [k])

@[simp] theorem State.avgAddCh_store_wf (s : State) (a1 : State) (a2 : Avg) (a3 : AvgJob) (a4 : Nat) (h : Mem.wf 0#8 s.store = true) :
    Mem.wf 0#8 (State.avgAddCh s a1 a2 a3 a4).store = true := by
  unfold State.avgAddCh
  refine State.foldl_store_wf _ _ _ (by exact h) ?_
  intro t x k; simp [k]

@[simp] theorem State.avgJoin_store_wf (s : State) (a1 : Nat) (a2 : AvgJob) (a3 : List AvgJob) (h : Mem.wf 0#8 s.store = true) :
    Mem.wf 0#8 (State.avgJoin s a1 a2 a3).store = true := by
  unfold State.avgJoin
  have h0 : ∀ v : State, Mem.wf 0#8 ((bitsSet 48 a2.mask).foldl (fun (t : State) n => t.avgAddCh v (s.avg a1) a2 n) (s.drawnIn v)).store = true :=
    fun v => State.foldl_store_wf _ _ _ (by simpa using h) (fun t x k => by simp [k])
  dsimp only
  split <;> simp [h0]

@[simp] theorem State.snapHeader_store_wf (s : State) (a1 : Nat) (a2 : Nat) (a3 : DbCopy) (a4 : Nat) (a5 : Nat) (h : Mem.wf 0#8 s.store = true) :
    Mem.wf 0#8 (State.snapHeader s a1 a2 a3 a4 a5).store = true := by
  simp [State.snapHeader, h]

@[simp] theorem State.copyBegin_store_wf (s : State) (a1 : Nat) (a2 : Nat) (h : Mem.wf 0#8 s.store = true) :
    Mem.wf 0#8 (State.copyBegin s a1 a2).store = true := by
  unfold State.copyBegin
  dsimp only
  split
  · simp [h]
  · rename_i hx; have e := State.frameAlloc_mem _ _ _ hx; simp at e; simp [e, h]

@[simp] theorem State.writeCells_store_wf (s : State) (a1 : Nat) (a2 : Tab Nat) (h : Mem.wf 0#8 s.store = true) :
    Mem.wf 0#8 (State.writeCells s a1 a2).store = true := by
  unfold State.writeCells
  refine State.foldl_store_wf _ _ _ ?_ ?_
  · exact Mem.wf_filter _ _ _ h
  · intro t x k; simp [k]

@[simp] theorem State.accept_store_wf (s : State) (a1 : Nat) (a2 : Nat) (a3 : Nat) (a4 : Bool) (h : Mem.wf 0#8 s.store = true) :
    Mem.wf 0#8 (State.accept s a1 a2 a3 a4).store = true := by
  simp only [State.accept]; (repeat' split) <;> simp [h]

@[simp] theorem State.candidate_store_wf (s : State) (a1 : Nat) (a2 : Nat) (a3 : Bool) (h : Mem.wf 0#8 s.store = true) :
    Mem.wf 0#8 (State.candidate s a1 a2 a3).store = true := by
  simp only [State.candidate]; (repeat' split) <;> simp [h]

@[simp] theorem State.forced_store_wf (s : State) (a1 : Nat) (a2 : Nat) (h : Mem.wf 0#8 s.store = true) :
    Mem.wf 0#8 (State.forced s a1 a2).store = true := by
  simp only [State.forced]; (repeat' split) <;> simp [h]

@[simp] theorem State.evalEv_store_wf (s : State) (a1 : Nat) (a2 : TrgEv) (h : Mem.wf 0#8 s.store = true) :
    Mem.wf 0#8 (State.evalEv s a1 a2).store = true := by
  simp only [State.evalEv]; (repeat' split) <;> simp [h]

@[simp] theorem State.decide__store_wf (s : State) (a1 : Nat) (a2 : TrgEv) (h : Mem.wf 0#8 s.store = true) :
    Mem.wf 0#8 (State.decide_ s a1 a2).store = true := by
  simp [State.decide_, h]

@[simp] theorem State.armAt_store_wf (s : State) (a1 : Nat) (a2 : Nat) (h : Mem.wf 0#8 s.store = true) :
    Mem.wf 0#8 (State.armAt s a1 a2).store = true := by
  simp only [State.armAt]; (repeat' split) <;> simp [h]

@[simp] theorem State.armApply_store_wf (s : State) (a1 : Nat) (a2 : Nat) (h : Mem.wf 0#8 s.store = true) :
    Mem.wf 0#8 (State.armApply s a1 a2).store = true := by
  simp only [State.armApply]; (repeat' split) <;> simp [h]

@[simp] theorem State.endAcq_store_wf (s : State) (a1 : Nat) (a2 : Nat) (h : Mem.wf 0#8 s.store = true) :
    Mem.wf 0#8 (State.endAcq s a1 a2).store = true := by
  simp [State.endAcq, h, State.ite_mem]

@[simp] theorem State.stopApply_store_wf (s : State) (a1 : Nat) (a2 : Nat) (h : Mem.wf 0#8 s.store = true) :
    Mem.wf 0#8 (State.stopApply s a1 a2).store = true := by
  simp only [State.stopApply]; (repeat' split) <;> simp [h]

@[simp] theorem State.fenceRecs_store_wf (s : State) (a1 : Nat) (a2 : Nat) (a3 : Nat) (a4 : List Rec) (h : Mem.wf 0#8 s.store = true) :
    Mem.wf 0#8 (State.fenceRecs s a1 a2 a3 a4).store = true := by
  unfold State.fenceRecs
  refine State.foldl_store_wf _ _ _ (by exact h) ?_
  intro t x k; dsimp only; (repeat' split) <;> simp [k]

@[simp] theorem State.fenceGroup_store_wf (s : State) (a1 : Nat) (a2 : Nat) (a3 : Nat) (h : Mem.wf 0#8 s.store = true) :
    Mem.wf 0#8 (State.fenceGroup s a1 a2 a3).store = true := by
  simp [State.fenceGroup, h]

@[simp] theorem State.fenceOne_store_wf (s : State) (a1 : Nat) (a2 : Nat) (h : Mem.wf 0#8 s.store = true) :
    Mem.wf 0#8 (State.fenceOne s a1 a2).store = true := by
  simp only [State.fenceOne]; (repeat' split) <;> simp [h, State.foldl_pending, State.foldl_store, State.foldl_flash]

@[simp] theorem State.fenceChs_store_wf (s : State) (a1 : Nat) (a2 : List Nat) (h : Mem.wf 0#8 s.store = true) :
    Mem.wf 0#8 (State.fenceChs s a1 a2).store = true := by
  unfold State.fenceChs
  refine State.foldl_store_wf _ _ _ ?_ ?_
  · simp [h]
  · intro t x k; simp [k]

@[simp] theorem State.fenceCluster_store_wf (s : State) (a1 : Nat) (a2 : Nat) (h : Mem.wf 0#8 s.store = true) :
    Mem.wf 0#8 (State.fenceCluster s a1 a2).store = true := by
  simp only [State.fenceCluster]; (repeat' split) <;> simp [h]

@[simp] theorem State.fenceRegion_store_wf (s : State) (a1 : Nat) (a2 : Nat) (h : Mem.wf 0#8 s.store = true) :
    Mem.wf 0#8 (State.fenceRegion s a1 a2).store = true := by
  simp [State.fenceRegion, h]

@[simp] theorem State.fenceDie_store_wf (s : State) (a1 : Nat) (a2 : Nat) (h : Mem.wf 0#8 s.store = true) :
    Mem.wf 0#8 (State.fenceDie s a1 a2).store = true := by
  simp [State.fenceDie, h]

@[simp] theorem State.eccUnit_store_wf (s : State) (a1 : Nat) (a2 : Unit_) (h : Mem.wf 0#8 s.store = true) :
    Mem.wf 0#8 (State.eccUnit s a1 a2).store = true := by
  simp only [State.eccUnit]; (repeat' split) <;> simp [h]

@[simp] theorem State.tallyWord_store_wf (s : State) (a1 : Nat) (a2 : Nat) (h : Mem.wf 0#8 s.store = true) :
    Mem.wf 0#8 (State.tallyWord s a1 a2).store = true := by
  unfold State.tallyWord
  dsimp only
  simp only [State.hitEnter_mem]
  refine State.foldl_store_wf _ _ _ h ?_
  intro t x k; split <;> simp [k]

@[simp] theorem State.regionWord_store_wf (s : State) (a1 : Nat) (a2 : Nat) (a3 : List RawWord) (h : Mem.wf 0#8 s.store = true) :
    Mem.wf 0#8 (State.regionWord s a1 a2 a3).store = true := by
  unfold State.regionWord
  dsimp only
  apply State.tallyWord_store_wf
  refine State.foldl_store_wf _ _ _ ?_ ?_
  · simp [State.foldl_store, h]
  · intro t x k; simp [k]

@[simp] theorem State.spareFail_store_wf (s : State) (a1 : Nat) (h : Mem.wf 0#8 s.store = true) :
    Mem.wf 0#8 (State.spareFail s a1).store = true := by
  simp only [State.spareFail]; (repeat' split) <;> simp [h]

@[simp] theorem State.serveFail_store_wf (s : State) (a1 : Nat) (a2 : Nat) (h : Mem.wf 0#8 s.store = true) :
    Mem.wf 0#8 (State.serveFail s a1 a2).store = true := by
  simp only [State.serveFail]; (repeat' split) <;> simp [h]

@[simp] theorem State.posFail_store_wf (s : State) (a1 : Nat) (a2 : Nat) (h : Mem.wf 0#8 s.store = true) :
    Mem.wf 0#8 (State.posFail s a1 a2).store = true := by
  simp only [State.posFail]; (repeat' split) <;> simp [h]

@[simp] theorem State.monitorCheck_store_wf (s : State) (a1 : Nat) (h : Mem.wf 0#8 s.store = true) :
    Mem.wf 0#8 (State.monitorCheck s a1).store = true := by
  unfold State.monitorCheck
  dsimp only
  split
  · exact h
  · refine State.foldl_store_wf _ _ _ ?_ ?_
    · simp [h]
    · intro t x k; simp [k]

@[simp] theorem State.stackStop_store_wf (s : State) (a1 : Nat) (a2 : Nat) (h : Mem.wf 0#8 s.store = true) :
    Mem.wf 0#8 (State.stackStop s a1 a2).store = true := by
  simp only [State.stackStop]; (repeat' split) <;> simp [h]

@[simp] theorem State.stackFail_store_wf (s : State) (a1 : Nat) (a2 : Nat) (h : Mem.wf 0#8 s.store = true) :
    Mem.wf 0#8 (State.stackFail s a1 a2).store = true := by
  unfold State.stackFail
  split
  · exact h
  · simp only [State.post_mem, State.setF_mem, State.put_mem]
    refine State.foldl_store_wf _ _ _ h ?_
    intro t x k; simp [k]

@[simp] theorem State.storeUe_store_wf (s : State) (a1 : Nat) (a2 : Bool) (h : Mem.wf 0#8 s.store = true) :
    Mem.wf 0#8 (State.storeUe s a1 a2).store = true := by
  simp only [State.storeUe]; (repeat' split) <;> simp [h]

@[simp] theorem State.burstRead_store_wf (s : State) (a1 : Nat) (a2 : Nat) (a3 : EccResult) (h : Mem.wf 0#8 s.store = true) :
    Mem.wf 0#8 (State.burstRead s a1 a2 a3).store = true := by
  simp only [State.burstRead]; (repeat' split) <;> simp [h]

@[simp] theorem State.moveCopy_store_wf (s : State) (a1 : Nat) (a2 : Desc) (a3 : Option Nat) (a4 : Nat) (h : Mem.wf 0#8 s.store = true) :
    Mem.wf 0#8 (State.moveCopy s a1 a2 a3 a4).store = true := by
  simp only [State.moveCopy]; (repeat' split) <;> simp [h]

@[simp] theorem State.moveBurst_store_wf (s : State) (a1 : Nat) (h : Mem.wf 0#8 s.store = true) :
    Mem.wf 0#8 (State.moveBurst s a1).store = true := by
  simp only [State.moveBurst]; (repeat' split) <;> simp [h]

@[simp] theorem State.dmaRun_store_wf (s : State) (a1 : Nat) (a2 : List Nat) (a3 : Nat) (h : Mem.wf 0#8 s.store = true) :
    Mem.wf 0#8 (State.dmaRun s a1 a2 a3).store = true := by
  induction a3 generalizing s a2 with
  | zero => simpa [State.dmaRun] using h
  | succ n ih =>
    simp only [State.dmaRun]
    (repeat' split) <;> first
      | exact h
      | exact ih _ _ (by simp [h])

@[simp] theorem State.runDesc_store_wf (s : State) (a1 : Nat) (a2 : Nat) (h : Mem.wf 0#8 s.store = true) :
    Mem.wf 0#8 (State.runDesc s a1 a2).store = true := by
  simp only [State.runDesc]; (repeat' split) <;> simp [h]

@[simp] theorem State.evWrite_store_wf (s : State) (a1 : Nat) (a2 : List (List Byte)) (h : Mem.wf 0#8 s.store = true) :
    Mem.wf 0#8 (State.evWrite s a1 a2).store = true := by
  induction a2 generalizing s a1 with
  | nil => simpa [State.evWrite] using h
  | cons x xs ih => simp only [State.evWrite]; (repeat' split) <;> first | (apply ih; simp [h]; done) | simp [h]

@[simp] theorem State.evTick_store_wf (s : State) (a1 : Nat) (h : Mem.wf 0#8 s.store = true) :
    Mem.wf 0#8 (State.evTick s a1).store = true := by
  simp only [State.evTick]; (repeat' split) <;> simp [h]

@[simp] theorem State.saveWritten_flash_wf (s : State) (a1 : Nat) (a2 : Nat) (a3 : List Byte) (h : Mem.wf 255#8 s.flash = true) :
    Mem.wf 255#8 (State.saveWritten s a1 a2 a3).flash = true := by
  unfold State.saveWritten
  exact Mem.wf_writeBytes _ _ _ _ h

@[simp] theorem State.saveFailed_flash_wf (s : State) (a1 : Nat) (h : Mem.wf 255#8 s.flash = true) :
    Mem.wf 255#8 (State.saveFailed s a1).flash = true := by
  unfold State.saveFailed
  dsimp only
  exact Mem.wf_writeBytes _ _ _ _ h

@[simp] theorem State.calParts_store_wf (s : State) (a1 : ChResult) (h : Mem.wf 0#8 s.store = true) :
    Mem.wf 0#8 (State.calParts s a1).store = true := by
  unfold State.calParts
  refine State.foldl_store_wf _ _ _ (State.foldl_store_wf _ _ _ h ?_) ?_
  · intro t x k; simp [k]
  · intro t x k; simp [k]

@[simp] theorem State.calRelease_store_wf (s : State) (a1 : CalRun) (a2 : Nat) (a3 : DieResult) (h : Mem.wf 0#8 s.store = true) :
    Mem.wf 0#8 (State.calRelease s a1 a2 a3).store = true := by
  unfold State.calRelease
  dsimp only
  simp only [State.calFinish_mem, State.calShow_mem]
  split
  · refine State.foldl_store_wf _ _ _ ?_ (fun t x k => by simp [k])
    simp only [State.setRun_mem, State.putN_mem]
    (repeat' split) <;> simp [State.foldl_store, h]
  · simp only [State.setRun_mem, State.putN_mem]
    (repeat' split) <;> simp [h]

@[simp] theorem State.stopNow_store_wf (s : State) (a1 : Nat) (a2 : Nat) (h : Mem.wf 0#8 s.store = true) :
    Mem.wf 0#8 (State.stopNow s a1 a2).store = true := by
  simp only [State.stopNow]; (repeat' split) <;> simp [h]

@[simp] theorem State.resetAcq_store_wf (s : State) (a1 : Nat) (a2 : Nat) (h : Mem.wf 0#8 s.store = true) :
    Mem.wf 0#8 (State.resetAcq s a1 a2).store = true := by
  simp only [State.resetAcq]; (repeat' split) <;> simp [h]

@[simp] theorem State.resetStop_store_wf (s : State) (a1 : Nat) (a2 : Nat) (h : Mem.wf 0#8 s.store = true) :
    Mem.wf 0#8 (State.resetStop s a1 a2).store = true := by
  simp only [State.resetStop]; (repeat' split) <;> simp [h]

@[simp] theorem State.armedCommit_store_wf (s : State) (a1 : RegTab) (a2 : Nat) (a3 : Nat) (h : Mem.wf 0#8 s.store = true) :
    Mem.wf 0#8 (State.armedCommit s a1 a2 a3).store = true := by
  simp only [State.armedCommit]; (repeat' split) <;> simp [h]

@[simp] theorem State.grpCommit_store_wf (s : State) (a1 : RegTab) (a2 : Nat) (a3 : Nat) (h : Mem.wf 0#8 s.store = true) :
    Mem.wf 0#8 (State.grpCommit s a1 a2 a3).store = true := by
  simp [State.grpCommit, h]

@[simp] theorem State.activate_store_wf (s : State) (a1 : Nat) (a2 : Nat) (a3 : RegTab) (a4 : Demand) (a5 : Nat) (h : Mem.wf 0#8 s.store = true) :
    Mem.wf 0#8 (State.activate s a1 a2 a3 a4 a5).store = true := by
  unfold State.activate
  simp only [State.dispCommit_mem, State.ptpCommit_mem, State.stmCommit_mem, State.evtCommit_mem, State.tallyCommit_mem, State.showSrc_mem]
  refine State.foldl_store_wf _ _ _ ?_ ?_
  · simp [State.foldl_store, h]
  · intro t x k; simp [k]

@[simp] theorem State.armSection_store_wf (s : State) (a1 : Nat) (h : Mem.wf 0#8 s.store = true) :
    Mem.wf 0#8 (State.armSection s a1).store = true := by
  unfold State.armSection
  dsimp only
  (repeat' split) <;> first
    | exact h
    | (refine State.foldl_store_wf _ _ _ (by simp [h]) ?_
       intro t x k; split <;> simp [k])

@[simp] theorem State.planArms_store_wf (s : State) (a1 : Nat) (a2 : Image) (h : Mem.wf 0#8 s.store = true) :
    Mem.wf 0#8 (State.planArms s a1 a2).store = true := by
  simp only [State.planArms]; (repeat' split) <;> simp [h]

@[simp] theorem State.imageApplied_store_wf (s : State) (a1 : Nat) (a2 : Nat) (a3 : Image) (a4 : Nat) (h : Mem.wf 0#8 s.store = true) :
    Mem.wf 0#8 (State.imageApplied s a1 a2 a3 a4).store = true := by
  simp [State.imageApplied, h]

@[simp] theorem State.decideCommit_store_wf (s : State) (a1 : Nat) (a2 : Nat) (a3 : Commit) (a4 : Bool) (h : Mem.wf 0#8 s.store = true) :
    Mem.wf 0#8 (State.decideCommit s a1 a2 a3 a4).store = true := by
  unfold State.decideCommit
  have h0 : Mem.wf 0#8 ((List.range 16).foldl (fun t g => (t.resetStop a1 g).stopNow a1 g) s).store = true :=
    State.foldl_store_wf _ _ _ h (fun t x k => by simp [k])
  have hA : ∀ (l : List Nat) (t : State), Mem.wf 0#8 t.store = true → Mem.wf 0#8 (l.foldl (fun u g => u.armApply g a1) t).store = true :=
    fun l t k => State.foldl_store_wf _ _ _ k (fun u x k => by simp [k])
  dsimp only
  split
  · split <;> first
      | exact hA _ _ (by simp [h0])
      | exact State.imageApplied_store_wf _ _ _ _ _ (hA _ _ (by simp [h0]))
  · split <;> first
      | exact hA _ _ (by simp [h0])
      | (simp only [State.fallback_mem]; exact hA _ _ (by simp [h0]))

@[simp] theorem State.commitAtB_store_wf (s : State) (a1 : Nat) (a2 : Nat) (h : Mem.wf 0#8 s.store = true) :
    Mem.wf 0#8 (State.commitAtB s a1 a2).store = true := by
  simp only [State.commitAtB]; (repeat' split) <;> simp [h]

@[simp] theorem State.flashDo_flash_wf (s : State) (a1 : FlashOp) (a2 : Bool) (h : Mem.wf 255#8 s.flash = true) :
    Mem.wf 255#8 (State.flashDo s a1 a2).flash = true := by
  unfold State.flashDo
  dsimp only
  split
  · simp [State.foldl_flash, h]
  · split
    · exact Mem.wf_writeBytes _ _ _ _ h
    · exact Mem.wf_writeBytes _ _ _ _ (by simpa using h)

@[simp] theorem State.takeGroup_store_wf (s : State) (a1 : Nat) (a2 : Nat) (a3 : PeerState) (a4 : PeerGrp) (h : Mem.wf 0#8 s.store = true) :
    Mem.wf 0#8 (State.takeGroup s a1 a2 a3 a4).store = true := by
  simp only [State.takeGroup]; (repeat' split) <;> simp [h]

@[simp] theorem State.takeoverAt_store_wf (s : State) (a1 : Nat) (a2 : Nat) (a3 : PeerState) (h : Mem.wf 0#8 s.store = true) :
    Mem.wf 0#8 (State.takeoverAt s a1 a2 a3).store = true := by
  unfold State.takeoverAt
  dsimp only
  simp only [State.post_mem]
  refine State.foldl_store_wf _ _ _ (by simp [h]) ?_
  intro t x k; simp [k]

@[simp] theorem State.takeoverDue_store_wf (s : State) (a1 : Nat) (h : Mem.wf 0#8 s.store = true) :
    Mem.wf 0#8 (State.takeoverDue s a1).store = true := by
  simp only [State.takeoverDue]; (repeat' split) <;> simp [h]

@[simp] theorem State.twinTick_store_wf (s : State) (a1 : Nat) (h : Mem.wf 0#8 s.store = true) :
    Mem.wf 0#8 (State.twinTick s a1).store = true := by
  simp only [State.twinTick]; (repeat' split) <;> simp [h]

@[simp] theorem State.coldReset_store_wf (s : State) (a1 : Nat) (a2 : Bool) (h : Mem.wf 0#8 s.store = true) :
    Mem.wf 0#8 (State.coldReset s a1 a2).store = true := by
  unfold State.coldReset
  dsimp only
  (repeat' split) <;> simp [State.foldl_store] <;> rfl

@[simp] theorem State.drainStage_store_wf (s : State) (h : Mem.wf 0#8 s.store = true) :
    Mem.wf 0#8 (State.drainStage s).store = true := by
  simp [State.drainStage, h]

@[simp] theorem State.warmReset_store_wf (s : State) (a1 : Nat) (h : Mem.wf 0#8 s.store = true) :
    Mem.wf 0#8 (State.warmReset s a1).store = true := by
  unfold State.warmReset
  split
  · exact h
  · have h0 : Mem.wf 0#8 ((List.range 16).foldl (fun t g => ((t.resetAcq s.lcnt g).freeAll s.lcnt g).finalAll g s.lcnt) s).store = true :=
      State.foldl_store_wf _ _ _ h (fun t x k => by simp [k])
    simp [State.foldl_store, State.ite_mem, h0]

@[simp] theorem State.resetCmd_store_wf (s : State) (a1 : Nat) (a2 : Bool) (a3 : Bool) (h : Mem.wf 0#8 s.store = true) :
    Mem.wf 0#8 (State.resetCmd s a1 a2 a3).store = true := by
  simp only [State.resetCmd]; (repeat' split) <;> simp [h]

@[simp] theorem State.groupResetAt_store_wf (s : State) (a1 : Nat) (a2 : Nat) (h : Mem.wf 0#8 s.store = true) :
    Mem.wf 0#8 (State.groupResetAt s a1 a2).store = true := by
  unfold State.groupResetAt
  split
  · exact h
  · have h0 : ∀ l : List AbaJob, ∀ t : State, Mem.wf 0#8 t.store = true → Mem.wf 0#8 (l.foldl State.notRun t).store = true :=
      fun l t k => State.foldl_store_wf _ _ _ k (fun u x k => by simp [k])
    simp
    exact h0 _ _ (h0 _ _ (by simp [h]))

@[simp] theorem State.selfPart_store_wf (s : State) (a1 : Bool) (a2 : List FailPart) (a3 : FailPart) (h : Mem.wf 0#8 s.store = true) :
    Mem.wf 0#8 (State.selfPart s a1 a2 a3).store = true := by
  simp only [State.selfPart]; (repeat' split) <;> simp [h]

@[simp] theorem State.pkgCommand_store_wf (s : State) (a1 : Nat) (a2 : Nat) (a3 : Word) (h : Mem.wf 0#8 s.store = true) :
    Mem.wf 0#8 (State.pkgCommand s a1 a2 a3).store = true := by
  simp only [State.pkgCommand]; (repeat' split) <;> simp [h, State.onIf_store]

@[simp] theorem State.command_store_wf (s : State) (a1 : Nat) (a2 : Nat) (a3 : Nat) (a4 : Word) (h : Mem.wf 0#8 s.store = true) :
    Mem.wf 0#8 (State.command s a1 a2 a3 a4).store = true := by
  simp only [State.command]; (repeat' split) <;> simp [h, State.onIf_store]

@[simp] theorem State.writeWords_store_wf (s : State) (a1 : Nat) (a2 : Nat) (a3 : List (Nat × Word)) (h : Mem.wf 0#8 s.store = true) :
    Mem.wf 0#8 (State.writeWords s a1 a2 a3).store = true := by
  unfold State.writeWords
  refine State.foldl_store_wf _ _ _ ?_ ?_
  · simp [State.foldl_store, h]
  · intro t x k; split <;> simp [k]

@[simp] theorem State.write4_store_wf (s : State) (a1 : Nat) (a2 : Nat) (a3 : Nat) (a4 : Word) (h : Mem.wf 0#8 s.store = true) :
    Mem.wf 0#8 (State.write4 s a1 a2 a3 a4).store = true := by
  simp only [State.write4]; (repeat' split) <;> simp [h]

@[simp] theorem State.write8_store_wf (s : State) (a1 : Nat) (a2 : Nat) (a3 : Nat) (a4 : Word) (a5 : Word) (h : Mem.wf 0#8 s.store = true) :
    Mem.wf 0#8 (State.write8 s a1 a2 a3 a4 a5).store = true := by
  simp only [State.write8]; (repeat' split) <;> simp [h]

@[simp] theorem State.drainSome_store_wf (s : State) (a1 : Nat) (a2 : List StW) (h : Mem.wf 0#8 s.store = true) :
    Mem.wf 0#8 (State.drainSome s a1 a2).1.store = true := by
  induction a2 generalizing s a1 with
  | nil => simpa [State.drainSome] using h
  | cons x xs ih => simp only [State.drainSome]; (repeat' split) <;> first | (apply ih; simp [h]; done) | simp [h]

@[simp] theorem State.swapHalves_store_wf (s : State) (h : Mem.wf 0#8 s.store = true) :
    Mem.wf 0#8 (State.swapHalves s).store = true := by
  simp [State.swapHalves, h]

@[simp] theorem State.endTick_store_wf (s : State) (a1 : Nat) (h : Mem.wf 0#8 s.store = true) :
    Mem.wf 0#8 (State.endTick s a1).store = true := by
  simp [State.endTick, h]

@[simp] theorem State.stampRings_store_wf (s : State) (h : Mem.wf 0#8 s.store = true) :
    Mem.wf 0#8 (State.stampRings s).store = true := by
  unfold State.stampRings
  refine State.foldl_store_wf _ _ _ ?_ ?_
  · simp [h]
  · intro t x k; simp [k]

@[simp] theorem State.tickOpen_store_wf (s : State) (a1 : Nat) (a2 : Nat) (h : Mem.wf 0#8 s.store = true) :
    Mem.wf 0#8 (State.tickOpen s a1 a2).store = true := by
  simp [State.tickOpen, h]

@[simp] theorem State.tickClose_store_wf (s : State) (a1 : Nat) (h : Mem.wf 0#8 s.store = true) :
    Mem.wf 0#8 (State.tickClose s a1).store = true := by
  unfold State.tickClose
  have h0 : Mem.wf 0#8 ((List.range 48).foldl (fun t n => t.rotate n a1) s).store = true :=
    State.foldl_store_wf _ _ _ h (fun t x k => by simp [k])
  have h1 : ∀ t : State, Mem.wf 0#8 t.store = true → Mem.wf 0#8 (t.twinTick a1).stampRings.store = true :=
    fun t k => State.stampRings_store_wf _ (State.twinTick_store_wf _ _ k)
  have h2 : ∀ (t : State) (l : List Nat), (l.foldl (fun t q => t.showStrm q) t).store = t.store :=
    fun t l => State.foldl_store _ _ _ (fun t q => by simp)
  simp [h2]
  exact h1 _ (by simp [h0])

@[simp] theorem State.boundary_store_wf (s : State) (a1 : Nat) (h : Mem.wf 0#8 s.store = true) :
    Mem.wf 0#8 (State.boundary s a1).store = true := by
  unfold State.boundary
  exact State.tickClose_store_wf _ _ (State.tickOpen_store_wf _ _ _ (State.skipsDue_store_wf _ (by simp [h])))

end Sys2Proof.Machine
end

