-- ==== Sys2Proof/Laws/Commands.lean ====
section
/-! SUPPORT. What no command does. Whatever a command does, it leaves the queue of waiting commands
as it found it; a command that is not one of the store's or the flash's leaves that memory as it
found it; and one that writes it keeps its canonical form. -/

set_option maxRecDepth 4000

namespace Sys2Proof.Machine

open Sys2Proof

theorem execServoUpdate_mem (s : State) (t : State) (h : execServoUpdate s = .next t) :
    t.pending = s.pending ∧ t.store = s.store ∧ t.flash = s.flash := by
  cases h; simp 

theorem execPtpSyncRx_mem (a1 : Fin 128) (a2 : Nat) (a3 : Nat) (a4 : Int) (a5 : Bool) (s : State) (t : State) (h : execPtpSyncRx a1 a2 a3 a4 a5 s = .next t) :
    t.pending = s.pending ∧ t.store = s.store ∧ t.flash = s.flash := by
  unfold execPtpSyncRx at h; cases h; simp [State.ite_mem, State.foldl_pending, State.foldl_store, State.foldl_flash]

theorem execPtpMessageRx_mem (a1 : Fin 128) (a2 : PtpMsg) (s : State) (t : State) (h : execPtpMessageRx a1 a2 s = .next t) :
    t.pending = s.pending ∧ t.store = s.store ∧ t.flash = s.flash := by
  unfold execPtpMessageRx at h; cases h; (repeat' split) <;> simp 

theorem execPtpEventTx_mem (a1 : Fin 128) (a2 : Nat) (a3 : Nat) (a4 : Nat) (s : State) (t : State) (h : execPtpEventTx a1 a2 a3 a4 s = .next t) :
    t.pending = s.pending ∧ t.store = s.store ∧ t.flash = s.flash := by
  unfold execPtpEventTx at h; cases h; simp [State.ite_mem]

theorem execAnnounceReceiptTimeout_mem (a1 : Fin 128) (s : State) (t : State) (h : execAnnounceReceiptTimeout a1 s = .next t) :
    t.pending = s.pending ∧ t.store = s.store ∧ t.flash = s.flash := by
  unfold execAnnounceReceiptTimeout at h; cases h; simp [State.ite_mem]

theorem execKeeperSecondsLoad_mem (s : State) (t : State) (h : execKeeperSecondsLoad s = .next t) :
    t.pending = s.pending ∧ t.store = s.store ∧ t.flash = s.flash := by
  unfold execKeeperSecondsLoad at h; cases h; simp [State.ite_mem]

theorem execTimeSnap_mem (a1 : Nat) (s : State) (t : State) (h : execTimeSnap a1 s = .next t) :
    t.pending = s.pending ∧ t.store = s.store ∧ t.flash = s.flash := by
  cases h; simp 

theorem execStagePeriod_mem (a1 : Nat) (s : State) (t : State) (h : execStagePeriod a1 s = .next t) :
    t.pending = s.pending ∧ t.store = s.store ∧ t.flash = s.flash := by
  cases h; simp 

theorem execStageOffsetAdd_mem (a1 : Nat) (s : State) (t : State) (h : execStageOffsetAdd a1 s = .next t) :
    t.pending = s.pending ∧ t.store = s.store ∧ t.flash = s.flash := by
  cases h; simp 

theorem execStageOffsetAbs_mem (a1 : Nat) (s : State) (t : State) (h : execStageOffsetAbs a1 s = .next t) :
    t.pending = s.pending ∧ t.store = s.store ∧ t.flash = s.flash := by
  cases h; simp 

theorem execStagedTimeApply_mem (s : State) (t : State) (h : execStagedTimeApply s = .next t) :
    t.pending = s.pending ∧ t.store = s.store ∧ t.flash = s.flash := by
  unfold execStagedTimeApply at h; cases h; (repeat' split) <;> simp 

theorem execAcceptStepWrite_mem (s : State) (t : State) (h : execAcceptStepWrite s = .next t) :
    t.pending = s.pending ∧ t.store = s.store ∧ t.flash = s.flash := by
  cases h; simp 

theorem execPtpAnnounceTx_mem (a1 : Fin 128) (s : State) (t : State) (h : execPtpAnnounceTx a1 s = .next t) :
    t.pending = s.pending ∧ t.store = s.store ∧ t.flash = s.flash := by
  unfold execPtpAnnounceTx at h; cases h; simp [State.ite_mem]

theorem execSvcFrameApply_mem (a1 : Bool) (s : State) (t : State) (h : execSvcFrameApply a1 s = .next t) :
    t.pending = s.pending ∧ t.store = s.store ∧ t.flash = s.flash := by
  unfold execSvcFrameApply at h; cases h; (repeat' split) <;> simp 

theorem execSvcSafeEntry_mem (s : State) (t : State) (h : execSvcSafeEntry s = .next t) :
    t.pending = s.pending ∧ t.store = s.store ∧ t.flash = s.flash := by
  unfold execSvcSafeEntry at h; cases h; simp [State.ite_mem]

theorem execSvcFence_mem (s : State) (t : State) (h : execSvcFence s = .next t) :
    t.pending = s.pending ∧ t.store = s.store ∧ t.flash = s.flash := by
  unfold execSvcFence at h; cases h; simp [State.ite_mem]

theorem execExcCompliance_mem (a1 : Fin 48) (s : State) (t : State) (h : execExcCompliance a1 s = .next t) :
    t.pending = s.pending ∧ t.store = s.store ∧ t.flash = s.flash := by
  unfold execExcCompliance at h; cases h; simp [State.ite_mem]

theorem execExcComplianceClear_mem (a1 : Fin 48) (s : State) (t : State) (h : execExcComplianceClear a1 s = .next t) :
    t.pending = s.pending ∧ t.store = s.store ∧ t.flash = s.flash := by
  cases h; simp 

theorem execExcOpenLoad_mem (a1 : Fin 48) (s : State) (t : State) (h : execExcOpenLoad a1 s = .next t) :
    t.pending = s.pending ∧ t.store = s.store ∧ t.flash = s.flash := by
  unfold execExcOpenLoad at h; cases h; simp [State.ite_mem]

theorem execExcShort_mem (a1 : Fin 48) (s : State) (t : State) (h : execExcShort a1 s = .next t) :
    t.pending = s.pending ∧ t.store = s.store ∧ t.flash = s.flash := by
  unfold execExcShort at h; cases h; simp [State.ite_mem]

theorem execExcRetry_mem (a1 : Fin 48) (s : State) (t : State) (h : execExcRetry a1 s = .next t) :
    t.pending = s.pending ∧ t.store = s.store ∧ t.flash = s.flash := by
  cases h; simp 

theorem execExcTrip_mem (s : State) (t : State) (h : execExcTrip s = .next t) :
    t.pending = s.pending ∧ t.store = s.store ∧ t.flash = s.flash := by
  cases h; simp 

theorem execExcRestore_mem (s : State) (t : State) (h : execExcRestore s = .next t) :
    t.pending = s.pending ∧ t.store = s.store ∧ t.flash = s.flash := by
  cases h; simp 

theorem execRelayOvercurrent_mem (a1 : Fin 32) (s : State) (t : State) (h : execRelayOvercurrent a1 s = .next t) :
    t.pending = s.pending ∧ t.store = s.store ∧ t.flash = s.flash := by
  unfold execRelayOvercurrent at h; cases h; simp [State.ite_mem]

theorem execRelayOpenLoad_mem (a1 : Fin 32) (s : State) (t : State) (h : execRelayOpenLoad a1 s = .next t) :
    t.pending = s.pending ∧ t.store = s.store ∧ t.flash = s.flash := by
  unfold execRelayOpenLoad at h; cases h; simp [State.ite_mem]

theorem execRlyOcClear_mem (a1 : BitVec 32) (s : State) (t : State) (h : execRlyOcClear a1 s = .next t) :
    t.pending = s.pending ∧ t.store = s.store ∧ t.flash = s.flash := by
  cases h; simp 

theorem execMonitorConversion_mem (a1 : Int) (a2 : Nat) (s : State) (t : State) (h : execMonitorConversion a1 a2 s = .next t) :
    t.pending = s.pending ∧ t.store = s.store ∧ t.flash = s.flash := by
  unfold execMonitorConversion at h; cases h; simp [State.ite_mem]

theorem execFinalHeaderWrite_mem (a1 : Fin 16) (s : State) (t : State) (h : execFinalHeaderWrite a1 s = .next t) :
    t.pending = s.pending ∧ t.flash = s.flash := by
  unfold execFinalHeaderWrite at h; cases h; (repeat' split) <;> simp 

theorem execFinalHeaderWrite_store_wf (a1 : Fin 16) (s : State) (t : State) (h : execFinalHeaderWrite a1 s = .next t) (w : Mem.wf 0#8 s.store = true) :
    Mem.wf 0#8 t.store = true := by
  unfold execFinalHeaderWrite at h; cases h; (repeat' split) <;> simp [w]

theorem execRecordSpanEnd_mem (a1 : Fin 16) (s : State) (t : State) (h : execRecordSpanEnd a1 s = .next t) :
    t.pending = s.pending ∧ t.store = s.store ∧ t.flash = s.flash := by
  cases h; simp 

theorem execRearmEnd_mem (a1 : Fin 16) (s : State) (t : State) (h : execRearmEnd a1 s = .next t) :
    t.pending = s.pending ∧ t.flash = s.flash := by
  unfold execRearmEnd at h; cases h; (repeat' split) <;> simp 

theorem execRearmEnd_store_wf (a1 : Fin 16) (s : State) (t : State) (h : execRearmEnd a1 s = .next t) (w : Mem.wf 0#8 s.store = true) :
    Mem.wf 0#8 t.store = true := by
  unfold execRearmEnd at h; cases h; (repeat' split) <;> simp [w]

theorem execFillComplete_mem (a1 : Fin 16) (s : State) (t : State) (h : execFillComplete a1 s = .next t) :
    t.pending = s.pending ∧ t.store = s.store ∧ t.flash = s.flash := by
  unfold execFillComplete at h; cases h; simp [State.ite_mem]

theorem execContinuousRecordOpen_mem (a1 : Fin 16) (s : State) (t : State) (h : execContinuousRecordOpen a1 s = .next t) :
    t.pending = s.pending ∧ t.store = s.store ∧ t.flash = s.flash := by
  unfold execContinuousRecordOpen at h; cases h; simp [State.ite_mem]

theorem execSlotFreed_mem (a1 : Fin 16) (s : State) (t : State) (h : execSlotFreed a1 s = .next t) :
    t.pending = s.pending ∧ t.store = s.store ∧ t.flash = s.flash := by
  unfold execSlotFreed at h; cases h; simp [State.ite_mem]

theorem execRecordRelease_mem (a1 : Fin 16) (s : State) (t : State) (h : execRecordRelease a1 s = .next t) :
    t.pending = s.pending ∧ t.flash = s.flash := by
  cases h; simp 

theorem execRecordRelease_store_wf (a1 : Fin 16) (s : State) (t : State) (h : execRecordRelease a1 s = .next t) (w : Mem.wf 0#8 s.store = true) :
    Mem.wf 0#8 t.store = true := by
  cases h; simp [w]

theorem execAbacusTrailerWrite_mem (s : State) (t : State) (h : execAbacusTrailerWrite s = .next t) :
    t.pending = s.pending ∧ t.flash = s.flash := by
  unfold execAbacusTrailerWrite at h; dsimp only at h; cases h; (repeat' split) <;> simp

theorem execAbacusTrailerWrite_store_wf (s : State) (t : State) (h : execAbacusTrailerWrite s = .next t) (w : Mem.wf 0#8 s.store = true) :
    Mem.wf 0#8 t.store = true := by
  unfold execAbacusTrailerWrite at h; dsimp only at h; cases h; (repeat' split) <;> simp [w]

theorem execAverageAdd_mem (a1 : Fin 16) (s : State) (t : State) (h : execAverageAdd a1 s = .next t) :
    t.pending = s.pending ∧ t.flash = s.flash := by
  unfold execAverageAdd at h; dsimp only at h; cases h; (repeat' split) <;> simp

theorem execAverageAdd_store_wf (a1 : Fin 16) (s : State) (t : State) (h : execAverageAdd a1 s = .next t) (w : Mem.wf 0#8 s.store = true) :
    Mem.wf 0#8 t.store = true := by
  unfold execAverageAdd at h; dsimp only at h; cases h; (repeat' split) <;> simp [w]

theorem execTalAvgRestart_mem (a1 : Fin 16) (s : State) (t : State) (h : execTalAvgRestart a1 s = .next t) :
    t.pending = s.pending ∧ t.store = s.store ∧ t.flash = s.flash := by
  cases h; simp 

theorem execHitWaveformDraw_mem (s : State) (t : State) (h : execHitWaveformDraw s = .next t) :
    t.pending = s.pending ∧ t.store = s.store ∧ t.flash = s.flash := by
  cases h; simp 

theorem execDecayDue_mem (a1 : Fin 8) (s : State) (t : State) (h : execDecayDue a1 s = .next t) :
    t.pending = s.pending ∧ t.store = s.store ∧ t.flash = s.flash := by
  cases h; simp 

theorem execDecaySweepEnd_mem (a1 : Fin 8) (s : State) (t : State) (h : execDecaySweepEnd a1 s = .next t) :
    t.pending = s.pending ∧ t.store = s.store ∧ t.flash = s.flash := by
  unfold execDecaySweepEnd at h; dsimp only at h; cases h; (repeat' split) <;> simp

theorem execSnapshotDue_mem (a1 : Fin 8) (s : State) (t : State) (h : execSnapshotDue a1 s = .next t) :
    t.pending = s.pending ∧ t.store = s.store ∧ t.flash = s.flash := by
  unfold execSnapshotDue at h; cases h; simp [State.ite_mem]

theorem execTalDbSnap_mem (a1 : Fin 8) (s : State) (t : State) (h : execTalDbSnap a1 s = .next t) :
    t.pending = s.pending ∧ t.store = s.store ∧ t.flash = s.flash := by
  cases h; simp 

theorem execSnapshotCopyStart_mem (a1 : Fin 8) (s : State) (t : State) (h : execSnapshotCopyStart a1 s = .next t) :
    t.pending = s.pending ∧ t.flash = s.flash := by
  unfold execSnapshotCopyStart at h; cases h; simp [State.ite_mem]

theorem execSnapshotCopyStart_store_wf (a1 : Fin 8) (s : State) (t : State) (h : execSnapshotCopyStart a1 s = .next t) (w : Mem.wf 0#8 s.store = true) :
    Mem.wf 0#8 t.store = true := by
  unfold execSnapshotCopyStart at h; dsimp only at h; cases h; (repeat' split) <;> simp [w]

theorem execSnapshotCopyEnd_mem (a1 : Fin 8) (s : State) (t : State) (h : execSnapshotCopyEnd a1 s = .next t) :
    t.pending = s.pending ∧ t.flash = s.flash := by
  unfold execSnapshotCopyEnd at h; cases h; dsimp only
  split
  · simp 
  · split <;> split <;> first
      | (simp [State.ite_mem]; done)
      | (rename_i hx; have e := State.frameAlloc_mem _ _ _ hx; simp at e; simp [State.ite_mem, e])

theorem execSnapshotCopyEnd_store_wf (a1 : Fin 8) (s : State) (t : State) (h : execSnapshotCopyEnd a1 s = .next t) (w : Mem.wf 0#8 s.store = true) :
    Mem.wf 0#8 t.store = true := by
  unfold execSnapshotCopyEnd at h; cases h; dsimp only
  split
  · simp [w]
  · split <;> split <;> first
      | (simp [State.ite_mem, w]; done)
      | (rename_i hx; have e := State.frameAlloc_mem _ _ _ hx; simp at e; simp [State.ite_mem, e, w])

theorem execTalDbClear_mem (a1 : Fin 8) (s : State) (t : State) (h : execTalDbClear a1 s = .next t) :
    t.pending = s.pending ∧ t.store = s.store ∧ t.flash = s.flash := by
  cases h; simp 

theorem execDbClearApply_mem (a1 : Fin 8) (s : State) (t : State) (h : execDbClearApply a1 s = .next t) :
    t.pending = s.pending ∧ t.store = s.store ∧ t.flash = s.flash := by
  unfold execDbClearApply at h; dsimp only at h; cases h; (repeat' split) <;> simp

theorem execFilterOutput_mem (a1 : Fin 48) (s : State) (t : State) (h : execFilterOutput a1 s = .next t) :
    t.pending = s.pending ∧ t.store = s.store ∧ t.flash = s.flash := by
  unfold execFilterOutput at h; cases h; (repeat' split) <;> simp 

theorem execFltDcFreezeWrite_mem (a1 : Nat) (a2 : Fin 48) (a3 : Bool) (s : State) (t : State) (h : execFltDcFreezeWrite a1 a2 a3 s = .next t) :
    t.pending = s.pending ∧ t.store = s.store ∧ t.flash = s.flash := by
  cases h; simp 

theorem execAnalogCrossing_mem (a1 : Fin 288) (a2 : Nat) (a3 : Bool) (s : State) (t : State) (h : execAnalogCrossing a1 a2 a3 s = .next t) :
    t.pending = s.pending ∧ t.store = s.store ∧ t.flash = s.flash := by
  unfold execAnalogCrossing at h; cases h; simp [State.ite_mem]

theorem execInterpolatorMeasurement_mem (a1 : Fin 48) (a2 : Fin 16) (a3 : BitVec 12) (a4 : BitVec 12) (a5 : BitVec 12) (s : State) (t : State) (h : execInterpolatorMeasurement a1 a2 a3 a4 a5 s = .next t) :
    t.pending = s.pending ∧ t.store = s.store ∧ t.flash = s.flash := by
  unfold execInterpolatorMeasurement at h; cases h; (repeat' split) <;> simp 

theorem execInterpolatorIdleRefresh_mem (a1 : Nat) (a2 : Fin 48) (a3 : Fin 16) (a4 : BitVec 12) (a5 : BitVec 12) (s : State) (t : State) (h : execInterpolatorIdleRefresh a1 a2 a3 a4 a5 s = .next t) :
    t.pending = s.pending ∧ t.store = s.store ∧ t.flash = s.flash := by
  unfold execInterpolatorIdleRefresh at h; cases h; simp [State.ite_mem]

theorem execInterpolatorSpareSwap_mem (a1 : Fin 48) (a2 : Fin 16) (s : State) (t : State) (h : execInterpolatorSpareSwap a1 a2 s = .next t) :
    t.pending = s.pending ∧ t.store = s.store ∧ t.flash = s.flash := by
  unfold execInterpolatorSpareSwap at h; cases h; simp [State.ite_mem]

theorem execDigitalCrossing_mem (a1 : Fin 192) (s : State) (t : State) (h : execDigitalCrossing a1 s = .next t) :
    t.pending = s.pending ∧ t.store = s.store ∧ t.flash = s.flash := by
  unfold execDigitalCrossing at h; cases h; (repeat' split) <;> simp 

theorem execCandidateDecision_mem (a1 : Fin 16) (s : State) (t : State) (h : execCandidateDecision a1 s = .next t) :
    t.pending = s.pending ∧ t.flash = s.flash := by
  unfold execCandidateDecision at h; cases h; (repeat' split) <;> simp 

theorem execCandidateDecision_store_wf (a1 : Fin 16) (s : State) (t : State) (h : execCandidateDecision a1 s = .next t) (w : Mem.wf 0#8 s.store = true) :
    Mem.wf 0#8 t.store = true := by
  unfold execCandidateDecision at h; cases h; (repeat' split) <;> simp [w]

theorem execTimeoutExpiry_mem (a1 : Fin 16) (s : State) (t : State) (h : execTimeoutExpiry a1 s = .next t) :
    t.pending = s.pending ∧ t.store = s.store ∧ t.flash = s.flash := by
  unfold execTimeoutExpiry at h; dsimp only at h; cases h; (repeat' split) <;> simp

theorem execPatternDurationReached_mem (a1 : Fin 16) (s : State) (t : State) (h : execPatternDurationReached a1 s = .next t) :
    t.pending = s.pending ∧ t.store = s.store ∧ t.flash = s.flash := by
  unfold execPatternDurationReached at h; dsimp only at h; cases h; (repeat' split) <;> simp

theorem execSequenceAExpiry_mem (a1 : Fin 16) (s : State) (t : State) (h : execSequenceAExpiry a1 s = .next t) :
    t.pending = s.pending ∧ t.store = s.store ∧ t.flash = s.flash := by
  unfold execSequenceAExpiry at h; cases h; (repeat' split) <;> simp 

theorem execArm_mem (a1 : Nat) (a2 : Fin 16) (s : State) (t : State) (h : execArm a1 a2 s = .next t) :
    t.pending = s.pending ∧ t.store = s.store ∧ t.flash = s.flash := by
  cases h; simp 

theorem execArmTakesEffect_mem (a1 : Fin 16) (s : State) (t : State) (h : execArmTakesEffect a1 s = .next t) :
    t.pending = s.pending ∧ t.flash = s.flash := by
  unfold execArmTakesEffect at h; cases h; (repeat' split) <;> simp 

theorem execArmTakesEffect_store_wf (a1 : Fin 16) (s : State) (t : State) (h : execArmTakesEffect a1 s = .next t) (w : Mem.wf 0#8 s.store = true) :
    Mem.wf 0#8 t.store = true := by
  unfold execArmTakesEffect at h; cases h; (repeat' split) <;> simp [w]

theorem execStop_mem (a1 : Nat) (a2 : Fin 16) (s : State) (t : State) (h : execStop a1 a2 s = .next t) :
    t.pending = s.pending ∧ t.store = s.store ∧ t.flash = s.flash := by
  cases h; simp 

theorem execStopTakesEffect_mem (a1 : Fin 16) (s : State) (t : State) (h : execStopTakesEffect a1 s = .next t) :
    t.pending = s.pending ∧ t.flash = s.flash := by
  unfold execStopTakesEffect at h; cases h; (repeat' split) <;> simp 

theorem execStopTakesEffect_store_wf (a1 : Fin 16) (s : State) (t : State) (h : execStopTakesEffect a1 s = .next t) (w : Mem.wf 0#8 s.store = true) :
    Mem.wf 0#8 t.store = true := by
  unfold execStopTakesEffect at h; cases h; (repeat' split) <;> simp [w]

theorem execForce_mem (a1 : Nat) (a2 : Fin 16) (s : State) (t : State) (h : execForce a1 a2 s = .next t) :
    t.pending = s.pending ∧ t.store = s.store ∧ t.flash = s.flash := by
  cases h; simp 

theorem execSampleWordDelivery_mem (a1 : Fin 12) (a2 : Nat) (a3 : List RawWord) (s : State) (t : State) (h : execSampleWordDelivery a1 a2 a3 s = .next t) :
    t.pending = s.pending ∧ t.flash = s.flash := by
  unfold execSampleWordDelivery at h
  split at h
  · cases h; simp 
  · contradiction

theorem execSampleWordDelivery_store_wf (a1 : Fin 12) (a2 : Nat) (a3 : List RawWord) (s : State) (t : State) (h : execSampleWordDelivery a1 a2 a3 s = .next t) (w : Mem.wf 0#8 s.store = true) :
    Mem.wf 0#8 t.store = true := by
  unfold execSampleWordDelivery at h
  split at h
  · cases h; simp [w]
  · contradiction

theorem execClampTrip_mem (a1 : Fin 48) (a2 : Nat) (s : State) (t : State) (h : execClampTrip a1 a2 s = .next t) :
    t.pending = s.pending ∧ t.store = s.store ∧ t.flash = s.flash := by
  unfold execClampTrip at h; cases h; simp [State.ite_mem]

theorem execClampRelease_mem (a1 : Fin 48) (a2 : Nat) (s : State) (t : State) (h : execClampRelease a1 a2 s = .next t) :
    t.pending = s.pending ∧ t.store = s.store ∧ t.flash = s.flash := by
  unfold execClampRelease at h; cases h; (repeat' split) <;> simp 

theorem execRotationStepDue_mem (a1 : Fin 48) (s : State) (t : State) (h : execRotationStepDue a1 s = .next t) :
    t.pending = s.pending ∧ t.store = s.store ∧ t.flash = s.flash := by
  cases h; simp 

theorem execSpareTakeover_mem (a1 : Fin 48) (s : State) (t : State) (h : execSpareTakeover a1 s = .next t) :
    t.pending = s.pending ∧ t.store = s.store ∧ t.flash = s.flash := by
  unfold execSpareTakeover at h; cases h; simp [State.ite_mem]

theorem execTrimEstimate_mem (a1 : Fin 48) (a2 : TrimEst) (s : State) (t : State) (h : execTrimEstimate a1 a2 s = .next t) :
    t.pending = s.pending ∧ t.flash = s.flash := by
  unfold execTrimEstimate at h; dsimp only at h; cases h; (repeat' split) <;> simp

theorem execTrimEstimate_store_wf (a1 : Fin 48) (a2 : TrimEst) (s : State) (t : State) (h : execTrimEstimate a1 a2 s = .next t) (w : Mem.wf 0#8 s.store = true) :
    Mem.wf 0#8 t.store = true := by
  unfold execTrimEstimate at h; dsimp only at h; cases h; (repeat' split) <;> simp [w]

theorem execSlotMonitorCheck_mem (a1 : Fin 48) (s : State) (t : State) (h : execSlotMonitorCheck a1 s = .next t) :
    t.pending = s.pending ∧ t.flash = s.flash := by
  cases h; simp 

theorem execSlotMonitorCheck_store_wf (a1 : Fin 48) (s : State) (t : State) (h : execSlotMonitorCheck a1 s = .next t) (w : Mem.wf 0#8 s.store = true) :
    Mem.wf 0#8 t.store = true := by
  cases h; simp [w]

theorem execStoreReadBurst_mem (a1 : Fin 7) (a2 : Nat) (a3 : Nat) (a4 : EccResult) (s : State) (t : State) (h : execStoreReadBurst a1 a2 a3 a4 s = .next t) :
    t.pending = s.pending ∧ t.flash = s.flash := by
  unfold execStoreReadBurst at h; cases h; simp [State.ite_mem]

theorem execStoreReadBurst_store_wf (a1 : Fin 7) (a2 : Nat) (a3 : Nat) (a4 : EccResult) (s : State) (t : State) (h : execStoreReadBurst a1 a2 a3 a4 s = .next t) (w : Mem.wf 0#8 s.store = true) :
    Mem.wf 0#8 t.store = true := by
  unfold execStoreReadBurst at h; dsimp only at h; cases h; (repeat' split) <;> simp [w]

theorem execRowRepairSwitch_mem (a1 : Fin 128) (a2 : Nat) (s : State) (t : State) (h : execRowRepairSwitch a1 a2 s = .next t) :
    t.pending = s.pending ∧ t.store = s.store ∧ t.flash = s.flash := by
  unfold execRowRepairSwitch at h; cases h; simp [State.ite_mem]

theorem execLaneSpareReplace_mem (a1 : Fin 128) (s : State) (t : State) (h : execLaneSpareReplace a1 s = .next t) :
    t.pending = s.pending ∧ t.store = s.store ∧ t.flash = s.flash := by
  unfold execLaneSpareReplace at h; cases h; simp [State.ite_mem]

theorem execStackFailure_mem (a1 : Fin 4) (a2 : Nat) (s : State) (t : State) (h : execStackFailure a1 a2 s = .next t) :
    t.pending = s.pending ∧ t.flash = s.flash := by
  cases h; simp 

theorem execStackFailure_store_wf (a1 : Fin 4) (a2 : Nat) (s : State) (t : State) (h : execStackFailure a1 a2 s = .next t) (w : Mem.wf 0#8 s.store = true) :
    Mem.wf 0#8 t.store = true := by
  cases h; simp [w]

theorem execStreamPacketForm_mem (a1 : Fin 1024) (s : State) (t : State) (h : execStreamPacketForm a1 s = .next t) :
    t.pending = s.pending ∧ t.store = s.store ∧ t.flash = s.flash := by
  unfold execStreamPacketForm at h; cases h; simp [State.ite_mem]

theorem execTimeMarkerDue_mem (a1 : Fin 1024) (s : State) (t : State) (h : execTimeMarkerDue a1 s = .next t) :
    t.pending = s.pending ∧ t.store = s.store ∧ t.flash = s.flash := by
  unfold execTimeMarkerDue at h; cases h; simp [State.ite_mem]

theorem execPacketTransmitDone_mem (a1 : Fin 128) (s : State) (t : State) (h : execPacketTransmitDone a1 s = .next t) :
    t.pending = s.pending ∧ t.store = s.store ∧ t.flash = s.flash := by
  unfold execPacketTransmitDone at h; cases h; (repeat' split) <;> simp 

theorem execPortLinkDown_mem (a1 : Fin 128) (s : State) (t : State) (h : execPortLinkDown a1 s = .next t) :
    t.pending = s.pending ∧ t.store = s.store ∧ t.flash = s.flash := by
  cases h; simp 

theorem execPortLinkUp_mem (a1 : Fin 128) (s : State) (t : State) (h : execPortLinkUp a1 s = .next t) :
    t.pending = s.pending ∧ t.store = s.store ∧ t.flash = s.flash := by
  unfold execPortLinkUp at h; cases h; simp [State.ite_mem, State.foldl_pending, State.foldl_store, State.foldl_flash]

theorem execFecUncorrectableCodeword_mem (a1 : Fin 128) (s : State) (t : State) (h : execFecUncorrectableCodeword a1 s = .next t) :
    t.pending = s.pending ∧ t.store = s.store ∧ t.flash = s.flash := by
  unfold execFecUncorrectableCodeword at h; cases h; simp [State.ite_mem]

theorem execFecPortFailure_mem (a1 : Fin 128) (a2 : Fin 64) (s : State) (t : State) (h : execFecPortFailure a1 a2 s = .next t) :
    t.pending = s.pending ∧ t.store = s.store ∧ t.flash = s.flash := by
  unfold execFecPortFailure at h; cases h; simp [State.ite_mem]

theorem execRxBadFcs_mem (a1 : Fin 128) (s : State) (t : State) (h : execRxBadFcs a1 s = .next t) :
    t.pending = s.pending ∧ t.store = s.store ∧ t.flash = s.flash := by
  cases h; simp 

theorem execRxFrameDropped_mem (a1 : Fin 128) (s : State) (t : State) (h : execRxFrameDropped a1 s = .next t) :
    t.pending = s.pending ∧ t.store = s.store ∧ t.flash = s.flash := by
  cases h; simp 

theorem execRxPauseFrame_mem (a1 : Nat) (a2 : Fin 128) (a3 : BitVec 16) (s : State) (t : State) (h : execRxPauseFrame a1 a2 a3 s = .next t) :
    t.pending = s.pending ∧ t.store = s.store ∧ t.flash = s.flash := by
  unfold execRxPauseFrame at h; cases h; simp [State.ite_mem]

theorem execRxPfcFrame_mem (a1 : Nat) (a2 : Fin 128) (a3 : BitVec 8) (a4 : List Nat) (s : State) (t : State) (h : execRxPfcFrame a1 a2 a3 a4 s = .next t) :
    t.pending = s.pending ∧ t.store = s.store ∧ t.flash = s.flash := by
  unfold execRxPfcFrame at h; dsimp only at h; (repeat' split at h) <;> first | contradiction | (cases h; simp )

theorem execPauseExpiry_mem (a1 : Fin 128) (a2 : Fin 8) (s : State) (t : State) (h : execPauseExpiry a1 a2 s = .next t) :
    t.pending = s.pending ∧ t.store = s.store ∧ t.flash = s.flash := by
  unfold execPauseExpiry at h; cases h; (repeat' split) <;> simp 

theorem execPauseLong_mem (a1 : Fin 128) (s : State) (t : State) (h : execPauseLong a1 s = .next t) :
    t.pending = s.pending ∧ t.store = s.store ∧ t.flash = s.flash := by
  unfold execPauseLong at h; dsimp only at h; cases h; (repeat' split) <;> simp

theorem execRxArpRequest_mem (a1 : Fin 128) (a2 : Nat) (a3 : Nat) (a4 : Nat) (s : State) (t : State) (h : execRxArpRequest a1 a2 a3 a4 s = .next t) :
    t.pending = s.pending ∧ t.store = s.store ∧ t.flash = s.flash := by
  unfold execRxArpRequest at h; cases h; simp [State.ite_mem]

theorem execRxNeighbourSolicitation_mem (a1 : Fin 128) (a2 : Nat) (a3 : Nat) (a4 : Nat) (s : State) (t : State) (h : execRxNeighbourSolicitation a1 a2 a3 a4 s = .next t) :
    t.pending = s.pending ∧ t.store = s.store ∧ t.flash = s.flash := by
  unfold execRxNeighbourSolicitation at h; cases h; simp [State.ite_mem]

theorem execPcieConfigRequest_mem (a1 : CfgAccess) (s : State) (t : State) (h : execPcieConfigRequest a1 s = .next t) :
    t.pending = s.pending ∧ t.store = s.store ∧ t.flash = s.flash := by
  unfold execPcieConfigRequest at h; cases h; simp [State.ite_mem]

theorem execBar2Read_mem (a1 : Fin 64) (a2 : Nat) (a3 : Nat) (s : State) (t : State) (h : execBar2Read a1 a2 a3 s = .next t) :
    t.pending = s.pending ∧ t.store = s.store ∧ t.flash = s.flash := by
  unfold execBar2Read at h; cases h; simp [State.ite_mem]

theorem execBar2Write_mem (a1 : Fin 64) (a2 : Nat) (s : State) (t : State) (h : execBar2Write a1 a2 s = .next t) :
    t.pending = s.pending ∧ t.store = s.store ∧ t.flash = s.flash := by
  cases h; simp 

theorem execDoorbell_mem (a1 : Fin 64) (a2 : BarAccess) (s : State) (t : State) (h : execDoorbell a1 a2 s = .next t) :
    t.pending = s.pending ∧ t.store = s.store ∧ t.flash = s.flash := by
  unfold execDoorbell at h; cases h; simp [State.ite_mem]

theorem execQueueStart_mem (a1 : Fin 64) (a2 : Fin 1024) (s : State) (t : State) (h : execQueueStart a1 a2 s = .next t) :
    t.pending = s.pending ∧ t.store = s.store ∧ t.flash = s.flash := by
  cases h; simp 

theorem execQueueResume_mem (a1 : Fin 64) (a2 : Fin 1024) (s : State) (t : State) (h : execQueueResume a1 a2 s = .next t) :
    t.pending = s.pending ∧ t.store = s.store ∧ t.flash = s.flash := by
  cases h; simp 

theorem execQueueAbort_mem (a1 : Fin 64) (a2 : Fin 1024) (s : State) (t : State) (h : execQueueAbort a1 a2 s = .next t) :
    t.pending = s.pending ∧ t.store = s.store ∧ t.flash = s.flash := by
  cases h; simp 

theorem execDescriptorFetch_mem (a1 : Fin 1024) (a2 : List (BitVec 8)) (s : State) (t : State) (h : execDescriptorFetch a1 a2 s = .next t) :
    t.pending = s.pending ∧ t.store = s.store ∧ t.flash = s.flash := by
  unfold execDescriptorFetch at h
  split at h
  · contradiction
  · cases h; simp

theorem execDescNop_mem (a1 : Fin 1024) (s : State) (t : State) (h : execDescNop a1 s = .next t) :
    t.pending = s.pending ∧ t.flash = s.flash := by
  cases h; simp 

theorem execDescNop_store_wf (a1 : Fin 1024) (s : State) (t : State) (h : execDescNop a1 s = .next t) (w : Mem.wf 0#8 s.store = true) :
    Mem.wf 0#8 t.store = true := by
  cases h; simp [w]

theorem execDescRead_mem (a1 : Fin 1024) (s : State) (t : State) (h : execDescRead a1 s = .next t) :
    t.pending = s.pending ∧ t.flash = s.flash := by
  cases h; simp 

theorem execDescRead_store_wf (a1 : Fin 1024) (s : State) (t : State) (h : execDescRead a1 s = .next t) (w : Mem.wf 0#8 s.store = true) :
    Mem.wf 0#8 t.store = true := by
  cases h; simp [w]

theorem execDescCopy_mem (a1 : Fin 1024) (s : State) (t : State) (h : execDescCopy a1 s = .next t) :
    t.pending = s.pending ∧ t.flash = s.flash := by
  cases h; simp 

theorem execDescCopy_store_wf (a1 : Fin 1024) (s : State) (t : State) (h : execDescCopy a1 s = .next t) (w : Mem.wf 0#8 s.store = true) :
    Mem.wf 0#8 t.store = true := by
  cases h; simp [w]

theorem execDescRecord_mem (a1 : Fin 1024) (s : State) (t : State) (h : execDescRecord a1 s = .next t) :
    t.pending = s.pending ∧ t.flash = s.flash := by
  cases h; simp 

theorem execDescRecord_store_wf (a1 : Fin 1024) (s : State) (t : State) (h : execDescRecord a1 s = .next t) (w : Mem.wf 0#8 s.store = true) :
    Mem.wf 0#8 t.store = true := by
  cases h; simp [w]

theorem execDescRelease_mem (a1 : Fin 1024) (s : State) (t : State) (h : execDescRelease a1 s = .next t) :
    t.pending = s.pending ∧ t.store = s.store ∧ t.flash = s.flash := by
  unfold execDescRelease at h; cases h; (repeat' split) <;> simp 

theorem execReadbackCompletion_mem (a1 : Fin 1024) (s : State) (t : State) (h : execReadbackCompletion a1 s = .next t) :
    t.pending = s.pending ∧ t.store = s.store ∧ t.flash = s.flash := by
  unfold execReadbackCompletion at h; cases h; (repeat' split) <;> simp 

theorem execCompletionTimeout_mem (a1 : QFail) (s : State) (t : State) (h : execCompletionTimeout a1 s = .next t) :
    t.pending = s.pending ∧ t.store = s.store ∧ t.flash = s.flash := by
  unfold execCompletionTimeout at h; cases h; (repeat' split) <;> simp 

theorem execCompletionUr_mem (a1 : QFail) (s : State) (t : State) (h : execCompletionUr a1 s = .next t) :
    t.pending = s.pending ∧ t.store = s.store ∧ t.flash = s.flash := by
  unfold execCompletionUr at h; cases h; (repeat' split) <;> simp 

theorem execFunctionLevelReset_mem (a1 : Fin 64) (s : State) (t : State) (h : execFunctionLevelReset a1 s = .next t) :
    t.pending = s.pending ∧ t.store = s.store ∧ t.flash = s.flash := by
  unfold execFunctionLevelReset at h; cases h; simp [State.ite_mem]

theorem execPcieFunctionReset_mem (s : State) (t : State) (h : execPcieFunctionReset s = .next t) :
    t.pending = s.pending ∧ t.store = s.store ∧ t.flash = s.flash := by
  cases h; simp 

theorem execHotPlug_mem (s : State) (t : State) (h : execHotPlug s = .next t) :
    t.pending = s.pending ∧ t.store = s.store ∧ t.flash = s.flash := by
  cases h; simp 

theorem execLinkTrainingDone_mem (a1 : Bool) (s : State) (t : State) (h : execLinkTrainingDone a1 s = .next t) :
    t.pending = s.pending ∧ t.store = s.store ∧ t.flash = s.flash := by
  unfold execLinkTrainingDone at h; cases h; simp [State.ite_mem]

theorem execDpHpdFall_mem (s : State) (t : State) (h : execDpHpdFall s = .next t) :
    t.pending = s.pending ∧ t.store = s.store ∧ t.flash = s.flash := by
  cases h; simp 

theorem execVblankStart_mem (s : State) (t : State) (h : execVblankStart s = .next t) :
    t.pending = s.pending ∧ t.store = s.store ∧ t.flash = s.flash := by
  unfold execVblankStart at h; cases h; simp [State.ite_mem]

theorem execFrameDone_mem (s : State) (t : State) (h : execFrameDone s = .next t) :
    t.pending = s.pending ∧ t.store = s.store ∧ t.flash = s.flash := by
  unfold execFrameDone at h; cases h; simp [State.ite_mem]

theorem execRasterLineStart_mem (a1 : Nat) (s : State) (t : State) (h : execRasterLineStart a1 s = .next t) :
    t.pending = s.pending ∧ t.store = s.store ∧ t.flash = s.flash := by
  unfold execRasterLineStart at h; cases h; simp [State.ite_mem]

theorem execRasterFetchBurst_mem (a1 : Fin 8) (a2 : Fin 1024) (a3 : BitVec 16) (s : State) (t : State) (h : execRasterFetchBurst a1 a2 a3 s = .next t) :
    t.pending = s.pending ∧ t.store = s.store ∧ t.flash = s.flash := by
  unfold execRasterFetchBurst at h; dsimp only at h; cases h; (repeat' split) <;> simp

theorem execSearchStep_mem (a1 : Bool) (s : State) (t : State) (h : execSearchStep a1 s = .next t) :
    t.pending = s.pending ∧ t.store = s.store ∧ t.flash = s.flash := by
  unfold execSearchStep at h; cases h; simp [State.ite_mem]

theorem execLoopLock_mem (a1 : LockSeen) (s : State) (t : State) (h : execLoopLock a1 s = .next t) :
    t.pending = s.pending ∧ t.store = s.store ∧ t.flash = s.flash := by
  unfold execLoopLock at h; cases h; simp [State.ite_mem]

theorem execRefinLost_mem (a1 : Nat) (a2 : Nat) (s : State) (t : State) (h : execRefinLost a1 a2 s = .next t) :
    t.pending = s.pending ∧ t.store = s.store ∧ t.flash = s.flash := by
  unfold execRefinLost at h; cases h; (repeat' split) <;> simp 

theorem execRefinRestored_mem (a1 : Nat) (s : State) (t : State) (h : execRefinRestored a1 s = .next t) :
    t.pending = s.pending ∧ t.store = s.store ∧ t.flash = s.flash := by
  cases h; simp 

theorem execLoopUnlock_mem (a1 : Nat) (a2 : UnlockSeen) (s : State) (t : State) (h : execLoopUnlock a1 a2 s = .next t) :
    t.pending = s.pending ∧ t.store = s.store ∧ t.flash = s.flash := by
  unfold execLoopUnlock at h; cases h; simp [State.ite_mem]

theorem execFabricToBypass_mem (s : State) (t : State) (h : execFabricToBypass s = .next t) :
    t.pending = s.pending ∧ t.store = s.store ∧ t.flash = s.flash := by
  unfold execFabricToBypass at h; cases h; (repeat' split) <;> simp 

theorem execFabricReturn_mem (s : State) (t : State) (h : execFabricReturn s = .next t) :
    t.pending = s.pending ∧ t.store = s.store ∧ t.flash = s.flash := by
  unfold execFabricReturn at h; cases h; (repeat' split) <;> simp 

theorem execOscillatorStop_mem (a1 : Nat) (a2 : Fin 11) (s : State) (t : State) (h : execOscillatorStop a1 a2 s = .next t) :
    t.pending = s.pending ∧ t.store = s.store ∧ t.flash = s.flash := by
  unfold execOscillatorStop at h
  dsimp only at h
  rw [Host.Outcome.next.injEq] at h
  subst h
  by_cases c : s.flag F.CLK_STATUS_FABRIC_BYP = true <;> simp [c]

theorem execClkbypLost_mem (a1 : Nat) (a2 : Fin 11) (s : State) (t : State) (h : execClkbypLost a1 a2 s = .next t) :
    t.pending = s.pending ∧ t.store = s.store ∧ t.flash = s.flash := by
  unfold execClkbypLost at h; cases h; simp [State.ite_mem]

theorem execClkbypRestored_mem (a1 : Nat) (s : State) (t : State) (h : execClkbypRestored a1 s = .next t) :
    t.pending = s.pending ∧ t.store = s.store ∧ t.flash = s.flash := by
  cases h; simp 

theorem execOcxoRdyFall_mem (s : State) (t : State) (h : execOcxoRdyFall s = .next t) :
    t.pending = s.pending ∧ t.store = s.store ∧ t.flash = s.flash := by
  unfold execOcxoRdyFall at h; cases h; simp [State.ite_mem]

theorem execOcxoRdyRise_mem (s : State) (t : State) (h : execOcxoRdyRise s = .next t) :
    t.pending = s.pending ∧ t.store = s.store ∧ t.flash = s.flash := by
  cases h; simp 

theorem execEventInterpCalRun_mem (a1 : Fin 8) (a2 : Fin 2) (a3 : BitVec 14) (a4 : BitVec 14) (s : State) (t : State) (h : execEventInterpCalRun a1 a2 a3 a4 s = .next t) :
    t.pending = s.pending ∧ t.store = s.store ∧ t.flash = s.flash := by
  cases h; simp 

theorem execEventEdge_mem (a1 : Fin 8) (a2 : Nat) (a3 : Bool) (s : State) (t : State) (h : execEventEdge a1 a2 a3 s = .next t) :
    t.pending = s.pending ∧ t.store = s.store ∧ t.flash = s.flash := by
  unfold execEventEdge at h; dsimp only at h; cases h; (repeat' split) <;> simp

theorem execEventStamp_mem (a1 : Fin 8) (a2 : Fin 2) (a3 : BitVec 14) (s : State) (t : State) (h : execEventStamp a1 a2 a3 s = .next t) :
    t.pending = s.pending ∧ t.store = s.store ∧ t.flash = s.flash := by
  unfold execEventStamp at h; dsimp only at h; cases h; (repeat' split) <;> simp

theorem execEvtStart_mem (a1 : Nat) (a2 : Fin 8) (s : State) (t : State) (h : execEvtStart a1 a2 s = .next t) :
    t.pending = s.pending ∧ t.store = s.store ∧ t.flash = s.flash := by
  cases h; simp 

theorem execEvtMeasurementStart_mem (a1 : Fin 8) (a2 : List Nat) (s : State) (t : State) (h : execEvtMeasurementStart a1 a2 s = .next t) :
    t.pending = s.pending ∧ t.store = s.store ∧ t.flash = s.flash := by
  unfold execEvtMeasurementStart at h; dsimp only at h; (repeat' split at h) <;> first | contradiction | (cases h; simp )

theorem execEvtStop_mem (a1 : Fin 8) (s : State) (t : State) (h : execEvtStop a1 s = .next t) :
    t.pending = s.pending ∧ t.store = s.store ∧ t.flash = s.flash := by
  cases h; simp 

theorem execIntervalResult_mem (a1 : Fin 8) (s : State) (t : State) (h : execIntervalResult a1 s = .next t) :
    t.pending = s.pending ∧ t.store = s.store ∧ t.flash = s.flash := by
  unfold execIntervalResult at h; cases h; simp [State.ite_mem]

theorem execStatsResult_mem (a1 : Fin 8) (s : State) (t : State) (h : execStatsResult a1 s = .next t) :
    t.pending = s.pending ∧ t.store = s.store ∧ t.flash = s.flash := by
  unfold execStatsResult at h; cases h; simp [State.ite_mem]

theorem execFreqGateEnd_mem (a1 : Fin 8) (s : State) (t : State) (h : execFreqGateEnd a1 s = .next t) :
    t.pending = s.pending ∧ t.store = s.store ∧ t.flash = s.flash := by
  unfold execFreqGateEnd at h; cases h; simp [State.ite_mem]

theorem execCalSaveDone_mem (a1 : Bool) (s : State) (t : State) (h : execCalSaveDone a1 s = .next t) :
    t.pending = s.pending ∧ t.store = s.store := by
  unfold execCalSaveDone at h
  rw [Host.Outcome.next.injEq] at h
  subst h
  split
  · simp
  · cases a1 <;> simp

theorem execCalSaveDone_flash_wf (a1 : Bool) (s : State) (t : State) (h : execCalSaveDone a1 s = .next t) (w : Mem.wf 255#8 s.flash = true) :
    Mem.wf 255#8 t.flash = true := by
  unfold execCalSaveDone at h
  rw [Host.Outcome.next.injEq] at h
  subst h
  split
  · exact w
  · cases a1 <;> simp [w]

theorem execCalStart_mem (s : State) (t : State) (h : execCalStart s = .next t) :
    t.pending = s.pending ∧ t.store = s.store ∧ t.flash = s.flash := by
  cases h; simp 

theorem execCalAbort_mem (s : State) (t : State) (h : execCalAbort s = .next t) :
    t.pending = s.pending ∧ t.store = s.store ∧ t.flash = s.flash := by
  cases h; simp 

theorem execCalRunStart_mem (a1 : Fin 10) (s : State) (t : State) (h : execCalRunStart a1 s = .next t) :
    t.pending = s.pending ∧ t.store = s.store ∧ t.flash = s.flash := by
  unfold execCalRunStart at h
  rw [Host.Outcome.next.injEq] at h
  subst h
  split
  · dsimp only; split <;> simp
  · simp

theorem execCalRelease_mem (a1 : Fin 10) (a2 : DieResult) (s : State) (t : State) (h : execCalRelease a1 a2 s = .next t) :
    t.pending = s.pending ∧ t.flash = s.flash := by
  unfold execCalRelease at h; cases h; (repeat' split) <;> simp 

theorem execCalRelease_store_wf (a1 : Fin 10) (a2 : DieResult) (s : State) (t : State) (h : execCalRelease a1 a2 s = .next t) (w : Mem.wf 0#8 s.store = true) :
    Mem.wf 0#8 t.store = true := by
  unfold execCalRelease at h; cases h; (repeat' split) <;> simp [w]

theorem execCalSettleEnd_mem (a1 : Fin 10) (s : State) (t : State) (h : execCalSettleEnd a1 s = .next t) :
    t.pending = s.pending ∧ t.store = s.store ∧ t.flash = s.flash := by
  unfold execCalSettleEnd at h; cases h; (repeat' split) <;> simp 

theorem execDriftAdvisorySet_mem (a1 : Fin 6) (a2 : Int) (s : State) (t : State) (h : execDriftAdvisorySet a1 a2 s = .next t) :
    t.pending = s.pending ∧ t.store = s.store ∧ t.flash = s.flash := by
  unfold execDriftAdvisorySet at h; cases h; simp [State.ite_mem]

theorem execDriftAdvisoryClear_mem (a1 : Fin 6) (a2 : Int) (s : State) (t : State) (h : execDriftAdvisoryClear a1 a2 s = .next t) :
    t.pending = s.pending ∧ t.store = s.store ∧ t.flash = s.flash := by
  unfold execDriftAdvisoryClear at h; cases h; simp [State.ite_mem]

theorem execDriftRunRequest_mem (a1 : Fin 6) (s : State) (t : State) (h : execDriftRunRequest a1 s = .next t) :
    t.pending = s.pending ∧ t.store = s.store ∧ t.flash = s.flash := by
  unfold execDriftRunRequest at h; dsimp only at h; cases h; (repeat' split) <;> simp

theorem execCalSchedPeriod_mem (s : State) (t : State) (h : execCalSchedPeriod s = .next t) :
    t.pending = s.pending ∧ t.store = s.store ∧ t.flash = s.flash := by
  unfold execCalSchedPeriod at h; cases h; simp [State.ite_mem]

theorem execImageLoad_mem (a1 : Bool) (a2 : Bool) (a3 : Bool) (a4 : Bool) (s : State) (t : State) (h : execImageLoad a1 a2 a3 a4 s = .next t) :
    t.pending = s.pending ∧ t.store = s.store ∧ t.flash = s.flash := by
  unfold execImageLoad at h
  rw [Host.Outcome.next.injEq] at h
  subst h
  split
  · simp
  · dsimp only; split <;> simp

theorem execArmSectionArming_mem (s : State) (t : State) (h : execArmSectionArming s = .next t) :
    t.pending = s.pending ∧ t.flash = s.flash := by
  unfold execArmSectionArming at h; cases h; simp [State.ite_mem]

theorem execArmSectionArming_store_wf (s : State) (t : State) (h : execArmSectionArming s = .next t) (w : Mem.wf 0#8 s.store = true) :
    Mem.wf 0#8 t.store = true := by
  unfold execArmSectionArming at h; cases h; (repeat' split) <;> simp [w]

theorem execCommitApply_mem (a1 : Nat) (s : State) (t : State) (h : execCommitApply a1 s = .next t) :
    t.pending = s.pending ∧ t.flash = s.flash := by
  unfold execCommitApply at h; cases h; (repeat' split) <;> simp 

theorem execCommitApply_store_wf (a1 : Nat) (s : State) (t : State) (h : execCommitApply a1 s = .next t) (w : Mem.wf 0#8 s.store = true) :
    Mem.wf 0#8 t.store = true := by
  unfold execCommitApply at h; cases h; (repeat' split) <;> simp [w]

theorem execCommitReqTick_mem (a1 : Nat) (s : State) (t : State) (h : execCommitReqTick a1 s = .next t) :
    t.pending = s.pending ∧ t.store = s.store ∧ t.flash = s.flash := by
  cases h; simp 

theorem execCommitReqRecord_mem (a1 : Nat) (a2 : Fin 16) (s : State) (t : State) (h : execCommitReqRecord a1 a2 s = .next t) :
    t.pending = s.pending ∧ t.store = s.store ∧ t.flash = s.flash := by
  cases h; simp 

theorem execCommitReqAt_mem (a1 : Nat) (s : State) (t : State) (h : execCommitReqAt a1 s = .next t) :
    t.pending = s.pending ∧ t.store = s.store ∧ t.flash = s.flash := by
  cases h; simp 

theorem execCfgCancel_mem (a1 : Nat) (s : State) (t : State) (h : execCfgCancel a1 s = .next t) :
    t.pending = s.pending ∧ t.store = s.store ∧ t.flash = s.flash := by
  cases h; simp 

theorem execCfgRevert_mem (s : State) (t : State) (h : execCfgRevert s = .next t) :
    t.pending = s.pending ∧ t.store = s.store ∧ t.flash = s.flash := by
  cases h; simp 

theorem execCfgReload_mem (a1 : Nat) (a2 : Fin 2) (s : State) (t : State) (h : execCfgReload a1 a2 s = .next t) :
    t.pending = s.pending ∧ t.store = s.store ∧ t.flash = s.flash := by
  cases h; simp 

theorem execFlashRead_mem (s : State) (t : State) (h : execFlashRead s = .next t) :
    t.pending = s.pending ∧ t.store = s.store ∧ t.flash = s.flash := by
  cases h; simp 

theorem execFlashProgram_mem (s : State) (t : State) (h : execFlashProgram s = .next t) :
    t.pending = s.pending ∧ t.store = s.store ∧ t.flash = s.flash := by
  cases h; simp 

theorem execFlashErase4k_mem (s : State) (t : State) (h : execFlashErase4k s = .next t) :
    t.pending = s.pending ∧ t.store = s.store ∧ t.flash = s.flash := by
  cases h; simp 

theorem execFlashErase64k_mem (s : State) (t : State) (h : execFlashErase64k s = .next t) :
    t.pending = s.pending ∧ t.store = s.store ∧ t.flash = s.flash := by
  cases h; simp 

theorem execFlashCommandDone_mem (a1 : Bool) (s : State) (t : State) (h : execFlashCommandDone a1 s = .next t) :
    t.pending = s.pending ∧ t.store = s.store := by
  unfold execFlashCommandDone at h
  rw [Host.Outcome.next.injEq] at h
  subst h
  split
  · dsimp only; (repeat' split) <;> simp
  · simp

theorem execFlashCommandDone_flash_wf (a1 : Bool) (s : State) (t : State) (h : execFlashCommandDone a1 s = .next t) (w : Mem.wf 255#8 s.flash = true) :
    Mem.wf 255#8 t.flash = true := by
  unfold execFlashCommandDone at h
  rw [Host.Outcome.next.injEq] at h
  subst h
  split
  · dsimp only; (repeat' split) <;> simp [w]
  · exact w

theorem execMirrorFrameRx_mem (a1 : List (BitVec 8)) (s : State) (t : State) (h : execMirrorFrameRx a1 s = .next t) :
    t.pending = s.pending ∧ t.store = s.store ∧ t.flash = s.flash := by
  unfold execMirrorFrameRx at h; cases h; simp [State.ite_mem]

theorem execHeartbeatRx_mem (a1 : Nat) (a2 : PeerState) (s : State) (t : State) (h : execHeartbeatRx a1 a2 s = .next t) :
    t.pending = s.pending ∧ t.store = s.store ∧ t.flash = s.flash := by
  unfold execHeartbeatRx at h; cases h; simp [State.ite_mem]

theorem execHandoverRx_mem (a1 : Nat) (a2 : PeerState) (s : State) (t : State) (h : execHandoverRx a1 a2 s = .next t) :
    t.pending = s.pending ∧ t.store = s.store ∧ t.flash = s.flash := by
  unfold execHandoverRx at h; cases h; simp [State.ite_mem]

theorem execEchoDue_mem (s : State) (t : State) (h : execEchoDue s = .next t) :
    t.pending = s.pending ∧ t.store = s.store ∧ t.flash = s.flash := by
  unfold execEchoDue at h; cases h; simp [State.ite_mem]

theorem execEchoRx_mem (a1 : Nat) (a2 : Nat) (s : State) (t : State) (h : execEchoRx a1 a2 s = .next t) :
    t.pending = s.pending ∧ t.store = s.store ∧ t.flash = s.flash := by
  unfold execEchoRx at h; cases h; simp [State.ite_mem]

theorem execEchoReplyRx_mem (a1 : Nat) (a2 : Nat) (a3 : Nat) (s : State) (t : State) (h : execEchoReplyRx a1 a2 a3 s = .next t) :
    t.pending = s.pending ∧ t.store = s.store ∧ t.flash = s.flash := by
  unfold execEchoReplyRx at h; cases h; simp [State.ite_mem]

theorem execTakeover_mem (s : State) (t : State) (h : execTakeover s = .next t) :
    t.pending = s.pending ∧ t.flash = s.flash := by
  cases h; simp 

theorem execTakeover_store_wf (s : State) (t : State) (h : execTakeover s = .next t) (w : Mem.wf 0#8 s.store = true) :
    Mem.wf 0#8 t.store = true := by
  cases h; simp [w]

theorem execHandover_mem (s : State) (t : State) (h : execHandover s = .next t) :
    t.pending = s.pending ∧ t.store = s.store ∧ t.flash = s.flash := by
  cases h; simp 

theorem execHandoverSend_mem (s : State) (t : State) (h : execHandoverSend s = .next t) :
    t.pending = s.pending ∧ t.store = s.store ∧ t.flash = s.flash := by
  cases h; simp 

theorem execFirstClr_mem (s : State) (t : State) (h : execFirstClr s = .next t) :
    t.pending = s.pending ∧ t.store = s.store ∧ t.flash = s.flash := by
  cases h; simp 

theorem execFatalClr_mem (a1 : Bool) (s : State) (t : State) (h : execFatalClr a1 s = .next t) :
    t.pending = s.pending ∧ t.store = s.store ∧ t.flash = s.flash := by
  unfold execFatalClr at h; cases h; simp [State.ite_mem]

theorem execPowerOn_mem (a1 : Bool) (s : State) (t : State) (h : execPowerOn a1 s = .next t) :
    t.pending = s.pending ∧ t.flash = s.flash := by
  unfold execPowerOn at h; cases h; simp [State.ite_mem]

theorem execPowerOn_store_wf (a1 : Bool) (s : State) (t : State) (h : execPowerOn a1 s = .next t) (w : Mem.wf 0#8 s.store = true) :
    Mem.wf 0#8 t.store = true := by
  unfold execPowerOn at h; cases h; (repeat' split) <;> simp [w]

theorem execStoreRailLoss_mem (s : State) (t : State) (h : execStoreRailLoss s = .next t) :
    t.pending = s.pending ∧ t.flash = s.flash := by
  cases h; simp 

theorem execStoreRailLoss_store_wf (s : State) (t : State) (h : execStoreRailLoss s = .next t) (w : Mem.wf 0#8 s.store = true) :
    Mem.wf 0#8 t.store = true := by
  cases h; simp [w]

theorem execCoreLoss_mem (s : State) (t : State) (h : execCoreLoss s = .next t) :
    t.pending = s.pending ∧ t.store = s.store ∧ t.flash = s.flash := by
  cases h; simp 

theorem execCoreLossRestart_mem (s : State) (t : State) (h : execCoreLossRestart s = .next t) :
    t.pending = s.pending ∧ t.store = s.store ∧ t.flash = s.flash := by
  unfold execCoreLossRestart at h
  rw [Host.Outcome.next.injEq] at h
  subst h
  dsimp only
  split
  · simp [State.ite_mem, State.foldl_pending, State.foldl_store, State.foldl_flash]
  · simp

theorem execWarmReset_mem (a1 : BitVec 8) (s : State) (t : State) (h : execWarmReset a1 s = .next t) :
    t.pending = s.pending ∧ t.flash = s.flash := by
  unfold execWarmReset at h; cases h; simp [State.ite_mem]

theorem execWarmReset_store_wf (a1 : BitVec 8) (s : State) (t : State) (h : execWarmReset a1 s = .next t) (w : Mem.wf 0#8 s.store = true) :
    Mem.wf 0#8 t.store = true := by
  unfold execWarmReset at h; cases h; (repeat' split) <;> simp [w]

theorem execResetNAssert_mem (a1 : Nat) (s : State) (t : State) (h : execResetNAssert a1 s = .next t) :
    t.pending = s.pending ∧ t.flash = s.flash := by
  unfold execResetNAssert at h; cases h; simp [State.ite_mem]

theorem execResetNAssert_store_wf (a1 : Nat) (s : State) (t : State) (h : execResetNAssert a1 s = .next t) (w : Mem.wf 0#8 s.store = true) :
    Mem.wf 0#8 t.store = true := by
  unfold execResetNAssert at h; cases h; (repeat' split) <;> simp [w]

theorem execResetColdCmd_mem (a1 : BitVec 8) (s : State) (t : State) (h : execResetColdCmd a1 s = .next t) :
    t.pending = s.pending ∧ t.flash = s.flash := by
  cases h; simp 

theorem execResetColdCmd_store_wf (a1 : BitVec 8) (s : State) (t : State) (h : execResetColdCmd a1 s = .next t) (w : Mem.wf 0#8 s.store = true) :
    Mem.wf 0#8 t.store = true := by
  cases h; simp [w]

theorem execResetWarmCmd_mem (a1 : BitVec 8) (s : State) (t : State) (h : execResetWarmCmd a1 s = .next t) :
    t.pending = s.pending ∧ t.flash = s.flash := by
  cases h; simp 

theorem execResetWarmCmd_store_wf (a1 : BitVec 8) (s : State) (t : State) (h : execResetWarmCmd a1 s = .next t) (w : Mem.wf 0#8 s.store = true) :
    Mem.wf 0#8 t.store = true := by
  cases h; simp [w]

theorem execGroupReset_mem (a1 : BitVec 16) (s : State) (t : State) (h : execGroupReset a1 s = .next t) :
    t.pending = s.pending ∧ t.store = s.store ∧ t.flash = s.flash := by
  cases h; simp 

theorem execGroupResetApply_mem (a1 : Fin 16) (s : State) (t : State) (h : execGroupResetApply a1 s = .next t) :
    t.pending = s.pending ∧ t.flash = s.flash := by
  unfold execGroupResetApply at h; cases h; simp [State.ite_mem]

theorem execGroupResetApply_store_wf (a1 : Fin 16) (s : State) (t : State) (h : execGroupResetApply a1 s = .next t) (w : Mem.wf 0#8 s.store = true) :
    Mem.wf 0#8 t.store = true := by
  unfold execGroupResetApply at h; cases h; (repeat' split) <;> simp [w]

theorem execSupplyWarningStart_mem (a1 : Fin 7) (a2 : Nat) (s : State) (t : State) (h : execSupplyWarningStart a1 a2 s = .next t) :
    t.pending = s.pending ∧ t.store = s.store ∧ t.flash = s.flash := by
  unfold execSupplyWarningStart at h; cases h; simp [State.ite_mem]

theorem execSupplyWarningEnd_mem (a1 : Fin 7) (a2 : Nat) (s : State) (t : State) (h : execSupplyWarningEnd a1 a2 s = .next t) :
    t.pending = s.pending ∧ t.store = s.store ∧ t.flash = s.flash := by
  unfold execSupplyWarningEnd at h
  rw [Host.Outcome.next.injEq] at h
  subst h
  split
  · simp
  · dsimp only; split <;> simp

theorem execSupplyStateCheck_mem (a1 : CheckOutcome) (s : State) (t : State) (h : execSupplyStateCheck a1 s = .next t) :
    t.pending = s.pending ∧ t.flash = s.flash := by
  unfold execSupplyStateCheck at h
  rw [Host.Outcome.next.injEq] at h
  subst h
  (repeat' split) <;> simp

theorem execSupplyStateCheck_store_wf (a1 : CheckOutcome) (s : State) (t : State) (h : execSupplyStateCheck a1 s = .next t) (w : Mem.wf 0#8 s.store = true) :
    Mem.wf 0#8 t.store = true := by
  unfold execSupplyStateCheck at h
  rw [Host.Outcome.next.injEq] at h
  subst h
  (repeat' split) <;> simp [w]

theorem execSupplyFault_mem (a1 : FaultRail) (a2 : Nat) (s : State) (t : State) (h : execSupplyFault a1 a2 s = .next t) :
    t.pending = s.pending ∧ t.flash = s.flash := by
  unfold execSupplyFault at h
  rw [Host.Outcome.next.injEq] at h
  subst h
  cases a1 <;> dsimp only <;> (repeat' split) <;> simp [State.foldl_pending, State.foldl_flash]

theorem execSupplyFault_store_wf (a1 : FaultRail) (a2 : Nat) (s : State) (t : State) (h : execSupplyFault a1 a2 s = .next t) (w : Mem.wf 0#8 s.store = true) :
    Mem.wf 0#8 t.store = true := by
  unfold execSupplyFault at h
  rw [Host.Outcome.next.injEq] at h
  subst h
  cases a1 <;> dsimp only <;> (repeat' split) <;> simp [State.foldl_store, w]

theorem execThermalWarning_mem (a1 : Fin 14) (s : State) (t : State) (h : execThermalWarning a1 s = .next t) :
    t.pending = s.pending ∧ t.store = s.store ∧ t.flash = s.flash := by
  cases h; simp 

theorem execThermalReset_mem (a1 : Fin 14) (s : State) (t : State) (h : execThermalReset a1 s = .next t) :
    t.pending = s.pending ∧ t.flash = s.flash := by
  unfold execThermalReset at h
  rw [Host.Outcome.next.injEq] at h
  subst h
  dsimp only
  split
  · simp
  · by_cases c : s.twin.handoverTx = true <;> simp [State.ite_mem]

theorem execThermalReset_store_wf (a1 : Fin 14) (s : State) (t : State) (h : execThermalReset a1 s = .next t) (w : Mem.wf 0#8 s.store = true) :
    Mem.wf 0#8 t.store = true := by
  unfold execThermalReset at h
  rw [Host.Outcome.next.injEq] at h
  subst h
  dsimp only
  split
  · exact w
  · by_cases c : s.twin.handoverTx = true <;> simp [State.ite_mem, w]

theorem execThermalRelease_mem (s : State) (t : State) (h : execThermalRelease s = .next t) :
    t.pending = s.pending ∧ t.store = s.store ∧ t.flash = s.flash := by
  unfold execThermalRelease at h; cases h; simp [State.ite_mem]

theorem execWakeAlarm_mem (s : State) (t : State) (h : execWakeAlarm s = .next t) :
    t.pending = s.pending ∧ t.store = s.store ∧ t.flash = s.flash := by
  unfold execWakeAlarm at h; cases h; simp [State.ite_mem]

theorem execWakeRelease_mem (s : State) (t : State) (h : execWakeRelease s = .next t) :
    t.pending = s.pending ∧ t.store = s.store ∧ t.flash = s.flash := by
  unfold execWakeRelease at h; cases h; simp [State.ite_mem]

theorem execSelfTest_mem (a1 : List FailPart) (s : State) (t : State) (h : execSelfTest a1 s = .next t) :
    t.pending = s.pending ∧ t.flash = s.flash := by
  unfold execSelfTest at h; cases h; simp [State.ite_mem, State.foldl_pending, State.foldl_flash]

theorem execSelfTest_store_wf (a1 : List FailPart) (s : State) (t : State) (h : execSelfTest a1 s = .next t) (w : Mem.wf 0#8 s.store = true) :
    Mem.wf 0#8 t.store = true := by
  unfold execSelfTest at h
  rw [Host.Outcome.next.injEq] at h
  subst h
  dsimp only
  split
  · exact w
  · split
    · simp [w]
    · split
      · exact w
      · simp only [State.selfCal_mem, State.clrF_mem, State.setF_mem]
        refine State.foldl_store_wf _ _ _ ?_ ?_
        · (repeat' split) <;> simp [w]
        · intro t v k
          exact State.foldl_store_wf _ _ _ k (fun u p k => by simp [k])

theorem execSelfTestDone_mem (s : State) (t : State) (h : execSelfTestDone s = .next t) :
    t.pending = s.pending ∧ t.store = s.store ∧ t.flash = s.flash := by
  unfold execSelfTestDone at h
  rw [Host.Outcome.next.injEq] at h
  subst h
  split
  · dsimp only; split <;> simp
  · simp

theorem execScanAccess_mem (a1 : Bool) (a2 : Bool) (s : State) (t : State) (h : execScanAccess a1 a2 s = .next t) :
    t.pending = s.pending ∧ t.store = s.store ∧ t.flash = s.flash := by
  cases h; simp 

theorem execRcCounterRead_mem (a1 : Fin 64) (a2 : Nat) (s : State) (t : State) (h : execRcCounterRead a1 a2 s = .next t) :
    t.pending = s.pending ∧ t.store = s.store ∧ t.flash = s.flash := by
  cases h; simp 

theorem execLowHalfRead_mem (a1 : Fin 64) (a2 : HalfRead) (s : State) (t : State) (h : execLowHalfRead a1 a2 s = .next t) :
    t.pending = s.pending ∧ t.store = s.store ∧ t.flash = s.flash := by
  unfold execLowHalfRead at h; cases h; simp [State.ite_mem]

theorem execTimeHistRead_mem (a1 : Fin 64) (a2 : Fin 16) (s : State) (t : State) (h : execTimeHistRead a1 a2 s = .next t) :
    t.pending = s.pending ∧ t.store = s.store ∧ t.flash = s.flash := by
  cases h; simp 

theorem execTxqRead_mem (a1 : Fin 64) (s : State) (t : State) (h : execTxqRead a1 s = .next t) :
    t.pending = s.pending ∧ t.store = s.store ∧ t.flash = s.flash := by
  cases h; simp 

theorem execEvtResRead_mem (a1 : Fin 64) (a2 : Fin 8) (s : State) (t : State) (h : execEvtResRead a1 a2 s = .next t) :
    t.pending = s.pending ∧ t.store = s.store ∧ t.flash = s.flash := by
  cases h; simp 

theorem execLogRdRead_mem (a1 : Fin 64) (s : State) (t : State) (h : execLogRdRead a1 s = .next t) :
    t.pending = s.pending ∧ t.store = s.store ∧ t.flash = s.flash := by
  cases h; simp 

theorem execLogFirstRead_mem (a1 : Fin 64) (a2 : Bool) (s : State) (t : State) (h : execLogFirstRead a1 a2 s = .next t) :
    t.pending = s.pending ∧ t.store = s.store ∧ t.flash = s.flash := by
  cases h; simp 

theorem execFltBcastWrite_mem (a1 : Nat) (a2 : BitVec 32) (s : State) (t : State) (h : execFltBcastWrite a1 a2 s = .next t) :
    t.pending = s.pending ∧ t.flash = s.flash := by
  unfold execFltBcastWrite at h; cases h; simp [State.ite_mem]

theorem execFltBcastWrite_store_wf (a1 : Nat) (a2 : BitVec 32) (s : State) (t : State) (h : execFltBcastWrite a1 a2 s = .next t) (w : Mem.wf 0#8 s.store = true) :
    Mem.wf 0#8 t.store = true := by
  unfold execFltBcastWrite at h; cases h; (repeat' split) <;> simp [w]

theorem execRegisterWrite_mem (a1 : Fin 64) (a2 : Nat) (a3 : Nat) (a4 : BitVec 32) (a5 : Option (BitVec 32)) (s : State) (t : State) (h : execRegisterWrite a1 a2 a3 a4 a5 s = .next t) :
    t.pending = s.pending ∧ t.flash = s.flash := by
  unfold execRegisterWrite at h; cases h; (repeat' split) <;> simp 

theorem execRegisterWrite_store_wf (a1 : Fin 64) (a2 : Nat) (a3 : Nat) (a4 : BitVec 32) (a5 : Option (BitVec 32)) (s : State) (t : State) (h : execRegisterWrite a1 a2 a3 a4 a5 s = .next t) (w : Mem.wf 0#8 s.store = true) :
    Mem.wf 0#8 t.store = true := by
  unfold execRegisterWrite at h; cases h; (repeat' split) <;> simp [w]

theorem execHalfWrite_mem (a1 : Fin 64) (a2 : Nat) (a3 : BitVec 32) (s : State) (t : State) (h : execHalfWrite a1 a2 a3 s = .next t) :
    t.pending = s.pending ∧ t.flash = s.flash := by
  unfold execHalfWrite at h; cases h; simp [State.ite_mem]

theorem execHalfWrite_store_wf (a1 : Fin 64) (a2 : Nat) (a3 : BitVec 32) (s : State) (t : State) (h : execHalfWrite a1 a2 a3 s = .next t) (w : Mem.wf 0#8 s.store = true) :
    Mem.wf 0#8 t.store = true := by
  unfold execHalfWrite at h; cases h; (repeat' split) <;> simp [w]

theorem execW1cClear_mem (a1 : Fin 64) (a2 : Nat) (a3 : BitVec 32) (s : State) (t : State) (h : execW1cClear a1 a2 a3 s = .next t) :
    t.pending = s.pending ∧ t.store = s.store ∧ t.flash = s.flash := by
  unfold execW1cClear at h; cases h; simp [State.ite_mem]

theorem execLogClassWrite_mem (a1 : Nat) (a2 : BitVec 32) (s : State) (t : State) (h : execLogClassWrite a1 a2 s = .next t) :
    t.pending = s.pending ∧ t.store = s.store ∧ t.flash = s.flash := by
  unfold execLogClassWrite at h; cases h; simp [State.ite_mem]

theorem execSmbusBlockWrite_mem (a1 : List (BitVec 8)) (s : State) (t : State) (h : execSmbusBlockWrite a1 s = .next t) :
    t.pending = s.pending ∧ t.flash = s.flash := by
  unfold execSmbusBlockWrite at h; cases h; simp [State.ite_mem]

theorem execSmbusBlockWrite_store_wf (a1 : List (BitVec 8)) (s : State) (t : State) (h : execSmbusBlockWrite a1 s = .next t) (w : Mem.wf 0#8 s.store = true) :
    Mem.wf 0#8 t.store = true := by
  unfold execSmbusBlockWrite at h; cases h; (repeat' split) <;> simp [w]

theorem execSmbusBlockRead_mem (a1 : Nat) (s : State) (t : State) (h : execSmbusBlockRead a1 s = .next t) :
    t.pending = s.pending ∧ t.store = s.store ∧ t.flash = s.flash := by
  cases h; simp 

theorem execTickBoundary_mem (a1 : Nat) (s : State) (t : State) (h : execTickBoundary a1 s = .next t) :
    t.pending = s.pending ∧ t.flash = s.flash := by
  unfold execTickBoundary at h; cases h; simp [State.ite_mem]

theorem execTickBoundary_store_wf (a1 : Nat) (s : State) (t : State) (h : execTickBoundary a1 s = .next t) (w : Mem.wf 0#8 s.store = true) :
    Mem.wf 0#8 t.store = true := by
  unfold execTickBoundary at h; cases h; (repeat' split) <;> simp [w]

end Sys2Proof.Machine
end

