-- ==== Sys2Proof/Laws/Regs.lean ====
section
/-! SUPPORT. Laws of register words and fields: a field reads what was written to it, every other field is unchanged. -/

namespace Sys2Proof.Machine

/-- The number that fldSet puts into a word, before it is cut to 32 bits, fits the word. -/
theorem fldSet_toNat (w : Word) (f : Fld) (v : Nat) (h : f.ok) :
    (fldSet w f v).toNat = w.toNat % 2 ^ f.lo + 2 ^ f.lo * (v % 2 ^ f.width + 2 ^ f.width * (w.toNat / 2 ^ (f.hi + 1))) := by
  obtain ⟨h1, h2⟩ := h
  have hw : f.lo + f.width = f.hi + 1 := by unfold Fld.width; omega
  have hp : (2 : Nat) ^ (f.hi + 1) = 2 ^ f.lo * 2 ^ f.width := by rw [← hw, Nat.pow_add]
  have e : w.toNat % 2 ^ f.lo + v % 2 ^ f.width * 2 ^ f.lo + w.toNat / 2 ^ (f.hi + 1) * 2 ^ (f.hi + 1)
      = w.toNat % 2 ^ f.lo + 2 ^ f.lo * (v % 2 ^ f.width + 2 ^ f.width * (w.toNat / 2 ^ (f.hi + 1))) := by
    rw [hp]; ring
  have ha : w.toNat % 2 ^ f.lo < 2 ^ f.lo := Nat.mod_lt _ (Nat.two_pow_pos _)
  have hb : v % 2 ^ f.width < 2 ^ f.width := Nat.mod_lt _ (Nat.two_pow_pos _)
  have hc : w.toNat / 2 ^ (f.hi + 1) < 2 ^ (31 - f.hi) := by
    apply Nat.div_lt_of_lt_mul
    rw [← Nat.pow_add]
    have : f.hi + 1 + (31 - f.hi) = 32 := by omega
    rw [this]; exact w.isLt
  have hlt : w.toNat % 2 ^ f.lo + 2 ^ f.lo * (v % 2 ^ f.width + 2 ^ f.width * (w.toNat / 2 ^ (f.hi + 1))) < 2 ^ 32 := by
    have h3 : v % 2 ^ f.width + 2 ^ f.width * (w.toNat / 2 ^ (f.hi + 1)) < 2 ^ f.width * 2 ^ (31 - f.hi) := by
      calc v % 2 ^ f.width + 2 ^ f.width * (w.toNat / 2 ^ (f.hi + 1))
          < 2 ^ f.width + 2 ^ f.width * (w.toNat / 2 ^ (f.hi + 1)) := by omega
        _ = 2 ^ f.width * (w.toNat / 2 ^ (f.hi + 1) + 1) := by ring
        _ ≤ 2 ^ f.width * 2 ^ (31 - f.hi) := Nat.mul_le_mul_left _ hc
    have h4 : (2 : Nat) ^ 32 = 2 ^ f.lo * (2 ^ f.width * 2 ^ (31 - f.hi)) := by
      rw [← Nat.pow_add, ← Nat.pow_add]; congr 1; omega
    rw [h4]
    calc w.toNat % 2 ^ f.lo + 2 ^ f.lo * (v % 2 ^ f.width + 2 ^ f.width * (w.toNat / 2 ^ (f.hi + 1)))
        < 2 ^ f.lo + 2 ^ f.lo * (v % 2 ^ f.width + 2 ^ f.width * (w.toNat / 2 ^ (f.hi + 1))) := by omega
      _ = 2 ^ f.lo * (v % 2 ^ f.width + 2 ^ f.width * (w.toNat / 2 ^ (f.hi + 1)) + 1) := by ring
      _ ≤ 2 ^ f.lo * (2 ^ f.width * 2 ^ (31 - f.hi)) := Nat.mul_le_mul_left _ h3
  unfold fldSet
  rw [BitVec.toNat_ofNat, e, Nat.mod_eq_of_lt hlt]

/-- A field reads what was written to it, modulo its width. -/
theorem fldGet_fldSet_same (w : Word) (f : Fld) (v : Nat) (h : f.ok) : fldGet (fldSet w f v) f = v % 2 ^ f.width := by
  unfold fldGet
  rw [fldSet_toNat w f v h, Nat.add_mul_div_left _ _ (Nat.two_pow_pos _), Nat.div_eq_of_lt (Nat.mod_lt _ (Nat.two_pow_pos _)),
    Nat.zero_add, Nat.add_mul_mod_self_left, Nat.mod_mod]

/-- A field that shares no bit with the one written is unchanged. -/
theorem fldGet_fldSet_apart (w : Word) (f g : Fld) (v : Nat) (h : f.ok) (hg : g.ok) (a : f.hi < g.lo ∨ g.hi < f.lo) :
    fldGet (fldSet w f v) g = fldGet w g := by
  unfold fldGet
  rw [fldSet_toNat w f v h]
  have hw : f.lo + f.width = f.hi + 1 := by have := h.1; unfold Fld.width; omega
  have hgw : g.lo + g.width = g.hi + 1 := by have := hg.1; unfold Fld.width; omega
  have hp : (2 : Nat) ^ (f.hi + 1) = 2 ^ f.lo * 2 ^ f.width := by rw [← hw, Nat.pow_add]
  rcases a with a | a
  · have e : w.toNat % 2 ^ f.lo + 2 ^ f.lo * (v % 2 ^ f.width + 2 ^ f.width * (w.toNat / 2 ^ (f.hi + 1)))
        = (w.toNat % 2 ^ f.lo + 2 ^ f.lo * (v % 2 ^ f.width)) + 2 ^ (f.hi + 1) * (w.toNat / 2 ^ (f.hi + 1)) := by
      rw [hp]; ring
    have ha : w.toNat % 2 ^ f.lo < 2 ^ f.lo := Nat.mod_lt _ (Nat.two_pow_pos _)
    have hb : v % 2 ^ f.width < 2 ^ f.width := Nat.mod_lt _ (Nat.two_pow_pos _)
    have hlt : w.toNat % 2 ^ f.lo + 2 ^ f.lo * (v % 2 ^ f.width) < 2 ^ (f.hi + 1) := by
      rw [hp]
      calc w.toNat % 2 ^ f.lo + 2 ^ f.lo * (v % 2 ^ f.width) < 2 ^ f.lo + 2 ^ f.lo * (v % 2 ^ f.width) := by omega
        _ = 2 ^ f.lo * (v % 2 ^ f.width + 1) := by ring
        _ ≤ 2 ^ f.lo * 2 ^ f.width := Nat.mul_le_mul_left _ hb
    have hs : g.lo = f.hi + 1 + (g.lo - (f.hi + 1)) := by omega
    have hq : (2 : Nat) ^ g.lo = 2 ^ (f.hi + 1) * 2 ^ (g.lo - (f.hi + 1)) := by rw [← Nat.pow_add, ← hs]
    rw [e, hq, ← Nat.div_div_eq_div_mul, ← Nat.div_div_eq_div_mul, Nat.add_mul_div_left _ _ (Nat.two_pow_pos _),
      Nat.div_eq_of_lt hlt, Nat.zero_add]
  · have hd : (2 : Nat) ^ (g.hi + 1) ∣ 2 ^ f.lo := Nat.pow_dvd_pow 2 (by omega)
    have r : ∀ x : Nat, x / 2 ^ g.lo % 2 ^ g.width = x % 2 ^ f.lo % 2 ^ (g.hi + 1) / 2 ^ g.lo := by
      intro x
      rw [Nat.mod_mod_of_dvd x hd, ← hgw, Nat.pow_add, Nat.mod_mul_right_div_self]
    rw [r, r w.toNat, Nat.add_mul_mod_self_left, Nat.mod_mod]

/-! ### Register sets -/

theorem RegTab.word_setFld_same (r : RegTab) (f : Fld) (v : Nat) : (r.setFld f v).word f.off = fldSet (r.word f.off) f v := by
  simp [RegTab.setFld, RegTab.word]

theorem RegTab.word_setFld_other (r : RegTab) (f : Fld) (v off : Nat) (h : off ≠ f.off) : (r.setFld f v).word off = r.word off := by
  simp [RegTab.setFld, RegTab.word, Tab.get_set_other _ _ _ _ _ h]

theorem RegTab.fld_setFld_same (r : RegTab) (f : Fld) (v : Nat) (h : f.ok) : (r.setFld f v).fld f = v % 2 ^ f.width := by
  rw [RegTab.fld, RegTab.word_setFld_same, fldGet_fldSet_same _ _ _ h]

theorem RegTab.fld_setFld_apart (r : RegTab) (f g : Fld) (v : Nat) (h : f.ok) (hg : g.ok) (a : f.apart g) :
    (r.setFld f v).fld g = r.fld g := by
  unfold RegTab.fld
  by_cases e : g.off = f.off
  · rw [e, RegTab.word_setFld_same, fldGet_fldSet_apart _ _ _ _ h hg]
    rcases a with a | a
    · exact absurd e.symm a
    · exact a
  · rw [RegTab.word_setFld_other _ _ _ _ e]

/-! ### The same through State -/

theorem State.get_put_same (s : State) (f : Fld) (v : Nat) (h : f.ok) : (s.put f v).get f = v % 2 ^ f.width :=
  RegTab.fld_setFld_same s.regs f v h

theorem State.get_put_apart (s : State) (f g : Fld) (v : Nat) (h : f.ok) (hg : g.ok) (a : f.apart g) :
    (s.put f v).get g = s.get g := RegTab.fld_setFld_apart s.regs f g v h hg a

theorem State.word_put_other (s : State) (f : Fld) (v off : Nat) (h : off ≠ f.off) : (s.put f v).word off = s.word off :=
  RegTab.word_setFld_other s.regs f v off h

/-- A register word outside the n words written is unchanged. -/
theorem RegTab.word_setWide_other (n : Nat) : ∀ (r : RegTab) (base v off : Nat), off < base ∨ base + 4 * n ≤ off →
    (r.setWide base n v).word off = r.word off := by
  induction n with
  | zero => intro r base v off _; rfl
  | succ n ih =>
    intro r base v off h
    rw [RegTab.setWide, ih _ _ _ _ (by omega)]
    simp only [RegTab.word]
    exact Tab.get_set_other _ _ _ _ _ (by omega)

/-- n register words read back the number written to them, modulo 2^(32n). -/
theorem RegTab.wide_setWide (n : Nat) : ∀ (r : RegTab) (base v : Nat), (r.setWide base n v).wide base n = v % 2 ^ (32 * n) := by
  induction n with
  | zero => intro r base v; simp [RegTab.wide, Nat.mod_one]
  | succ n ih =>
    intro r base v
    have hw : ∀ (m : Nat) (r : RegTab) (b v w : Nat), w ≤ b →
        (RegTab.setWide (Tab.set r w (BitVec.ofNat 32 v)) (b + 4) m (v / 4294967296)).word w = BitVec.ofNat 32 v := by
      intro m r b v w hb
      rw [RegTab.word_setWide_other _ _ _ _ _ (Or.inl (by omega))]
      simp [RegTab.word]
    rw [RegTab.setWide, RegTab.wide, ih, hw n r base v base (Nat.le_refl _), BitVec.toNat_ofNat]
    have e : (2 : Nat) ^ (32 * (n + 1)) = 4294967296 * 2 ^ (32 * n) := by
      rw [Nat.mul_add, Nat.pow_add]; ring
    rw [e, Nat.mod_mul]

theorem State.getN_putN (s : State) (off n v : Nat) : (s.putN off n v).getN off n = v % 2 ^ (32 * n) :=
  RegTab.wide_setWide n s.regs off v

theorem State.get_putN_other (s : State) (off n v : Nat) (f : Fld) (h : f.off < off ∨ off + 4 * n ≤ f.off) :
    (s.putN off n v).get f = s.get f := by
  show fldGet ((s.regs.setWide off n v).word f.off) f = fldGet (s.regs.word f.off) f
  rw [RegTab.word_setWide_other _ _ _ _ _ h]

end Sys2Proof.Machine
end

