-- ==== Sys2Proof/Laws/Fields.lean ====
section
/-! SUPPORT. What the named operations leave alone among the registers: only the fields they write (Sys2Proof.Safety.onlyFields). -/

namespace Sys2Proof.Machine

open Sys2Proof.Safety

theorem wordFld_ok (off : Nat) : (wordFld off).ok := ⟨Nat.zero_le _, by show 31 < 32; omega⟩

/-- A field apart from a whole word lies in another word. -/
theorem wordFld_apart (off : Nat) (g : Fld) (hg : g.ok) (h : (wordFld off).apart g) : g.off ≠ off := by
  obtain ⟨h1, h2⟩ := hg
  simp only [Fld.apart, wordFld] at h
  omega

theorem onlyFields_refl (fs : List Fld) (s : State) : onlyFields fs s s := fun _ _ _ => rfl

theorem onlyFields_mono (fs gs : List Fld) (s t : State) (h : onlyFields fs s t) (k : ∀ f ∈ fs, f ∈ gs) : onlyFields gs s t :=
  fun g hg a => h g hg (fun f m => a f (k f m))

theorem onlyFields_trans (fs : List Fld) (s t u : State) (h1 : onlyFields fs s t) (h2 : onlyFields fs t u) : onlyFields fs s u :=
  fun g hg h => (h2 g hg h).trans (h1 g hg h)

/-- States with the same registers agree on every field. -/
theorem onlyFields_of_regs (fs : List Fld) (s t u : State) (h : u.regs = t.regs) (k : onlyFields fs s t) : onlyFields fs s u :=
  fun g hg a => by rw [← k g hg a]; simp [State.get, h]

theorem onlyFields_put (fs : List Fld) (s t : State) (f : Fld) (v : Nat) (hf : f.ok) (m : f ∈ fs) (k : onlyFields fs s t) :
    onlyFields fs s (t.put f v) :=
  fun g hg h => (State.get_put_apart t f g v hf hg (h f m)).trans (k g hg h)

/-- A register word that is none of the n words written is unchanged. -/
theorem RegTab.word_setWide_none (n : Nat) : ∀ (r : RegTab) (base v off : Nat), (∀ i < n, off ≠ base + 4 * i) →
    (r.setWide base n v).word off = r.word off := by
  induction n with
  | zero => intro r base v off _; rfl
  | succ n ih =>
    intro r base v off h
    rw [RegTab.setWide, ih _ _ _ _ (fun i hi => by have := h (i + 1) (by omega); omega)]
    simp only [RegTab.word]
    exact Tab.get_set_other _ _ _ _ _ (h 0 (by omega))

theorem onlyFields_putN (fs : List Fld) (s t : State) (off n v : Nat) (m : ∀ f ∈ wideFlds off n, f ∈ fs)
    (k : onlyFields fs s t) : onlyFields fs s (t.putN off n v) := by
  intro g hg h
  rw [← k g hg h]
  show fldGet ((t.regs.setWide off n v).word g.off) g = fldGet (t.regs.word g.off) g
  rw [RegTab.word_setWide_none]
  intro i hi
  exact wordFld_apart _ g hg (h _ (m _ (List.mem_map_of_mem (List.mem_range.mpr hi))))

theorem State.get_put_word (s : State) (f g : Fld) (v : Nat) (h : g.off ≠ f.off) : (s.put f v).get g = s.get g := by
  show fldGet ((s.regs.setFld f v).word g.off) g = fldGet (s.regs.word g.off) g
  rw [RegTab.word_setFld_other _ _ _ _ h]

theorem State.get_putN_none (s : State) (off n v : Nat) (g : Fld) (h : ∀ i < n, g.off ≠ off + 4 * i) :
    (s.putN off n v).get g = s.get g := by
  show fldGet ((s.regs.setWide off n v).word g.off) g = fldGet (s.regs.word g.off) g
  rw [RegTab.word_setWide_none _ _ _ _ _ h]

/-- Word i of n register words written as one number. -/
theorem RegTab.word_setWide_at (n : Nat) : ∀ (r : RegTab) (base v i : Nat), i < n →
    (r.setWide base n v).word (base + 4 * i) = BitVec.ofNat 32 (v / 2 ^ (32 * i)) := by
  induction n with
  | zero => intro r base v i h; omega
  | succ n ih =>
    intro r base v i h
    rw [RegTab.setWide]
    cases i with
    | zero =>
      simp only [Nat.mul_zero, Nat.add_zero, Nat.pow_zero, Nat.div_one]
      rw [RegTab.word_setWide_other n _ (base + 4) _ base (Or.inl (by omega))]
      exact Tab.get_set_same _ _ _ _
    | succ k =>
      have e : base + 4 * (k + 1) = base + 4 + 4 * k := by omega
      rw [e, ih _ _ _ k (by omega), Nat.div_div_eq_div_mul]
      have e2 : (2 : Nat) ^ (32 * (k + 1)) = 4294967296 * 2 ^ (32 * k) := by rw [Nat.mul_add, Nat.pow_add]; ring
      rw [e2]

theorem RegTab.fld_setWide (r : RegTab) (base n v i : Nat) (f : Fld) (h : i < n) (e : f.off = base + 4 * i) :
    (r.setWide base n v).fld f = v / 2 ^ (32 * i) % 2 ^ 32 / 2 ^ f.lo % 2 ^ f.width := by
  unfold RegTab.fld
  rw [e, RegTab.word_setWide_at _ _ _ _ _ h, fldGet, BitVec.toNat_ofNat]

/-- A field is the right width when its word and its bits are given. -/
theorem Fld.ok_of (f : Fld) (h : (Nat.ble f.lo f.hi && Nat.ble f.hi 31) = true) : f.ok := by
  simp only [Bool.and_eq_true] at h
  exact ⟨Nat.le_of_ble_eq_true h.1, Nat.lt_succ_of_le (Nat.le_of_ble_eq_true h.2)⟩

theorem Fld.apart_off (f g : Fld) (h : Nat.beq f.off g.off = false) : f.apart g := Or.inl (Nat.ne_of_beq_eq_false h)

theorem Fld.apart_below (f g : Fld) (h : Nat.ble (f.hi + 1) g.lo = true) : f.apart g := Or.inr (Or.inl (Nat.le_of_ble_eq_true h))

theorem Fld.apart_above (f g : Fld) (h : Nat.ble (g.hi + 1) f.lo = true) : f.apart g := Or.inr (Or.inr (Nat.le_of_ble_eq_true h))

/-! ### The log -/

theorem onlyLog_refl (s : State) : onlyLog s s := ⟨onlyFields_refl _ s, rfl⟩

theorem onlyLog_trans (s t u : State) (h1 : onlyLog s t) (h2 : onlyLog t u) : onlyLog s u := by
  refine ⟨onlyFields_trans _ _ _ _ h1.1 h2.1, ?_⟩
  have e1 := h1.2
  have e2 := h2.2
  rw [e1] at e2
  exact e2

theorem onlyLog_put (s : State) (f : Fld) (v : Nat) (w : Nat) (m : wordFld w ∈ logFlds) (e : f.off = w) :
    onlyLog s (s.put f v) := by
  refine ⟨?_, rfl⟩
  intro g hg h
  refine State.get_put_word s f g v ?_
  rw [e]
  exact wordFld_apart _ g hg (h _ m)

theorem onlyLog_putN (s : State) (off n v : Nat) (m : ∀ f ∈ wideFlds off n, f ∈ logFlds) : onlyLog s (s.putN off n v) :=
  ⟨onlyFields_putN _ _ _ off n v m (onlyFields_refl _ s), rfl⟩

theorem onlyLog_regs (s t : State) (h : t.regs = s.regs) (k : t = { s with log := t.log, out := t.out, twin := t.twin, msix := t.msix }) :
    onlyLog s t :=
  ⟨onlyFields_of_regs _ s s t h (onlyFields_refl _ s), by rw [k]⟩

theorem onlyLog_errN (s : State) : onlyLog s s.errN := by
  unfold State.errN
  dsimp only
  split
  · exact onlyLog_refl s
  · exact onlyLog_trans s _ _ (onlyLog_put s F.LOG_STATUS_ERR_N _ R.LOG_STATUS (by simp [logFlds]) (by decide))
      (onlyLog_regs _ _ rfl rfl)

theorem wide_first (f : Fld) (h : f ∈ wideFlds R.LOG_FIRST 8) : f ∈ logFlds := by simp only [logFlds, List.mem_cons, List.mem_append]; tauto
theorem wide_last (f : Fld) (h : f ∈ wideFlds R.LOG_LAST_ERR 8) : f ∈ logFlds := by simp only [logFlds, List.mem_cons, List.mem_append]; tauto

theorem onlyLog_capture (s : State) (e : LogEnt) : onlyLog s (s.capture e) := by
  unfold State.capture
  split
  · have h := onlyLog_put s F.LOG_NEST_CNT_COUNT (min (s.get F.LOG_NEST_CNT_COUNT + 1) (2 ^ F.LOG_NEST_CNT_COUNT.width - 1))
      R.LOG_NEST_CNT (by simp [logFlds]) (by decide)
    dsimp only
    split
    · exact onlyLog_trans s _ _ h (onlyLog_trans _ _ _ (onlyLog_putN _ _ _ _ wide_first) (onlyLog_putN _ _ _ _ wide_last))
    · exact onlyLog_trans s _ _ h (onlyLog_putN _ _ _ _ wide_last)
  · exact onlyLog_trans s _ _ (onlyLog_putN _ _ _ _ wide_first)
      (onlyLog_put _ F.LOG_STATUS_FIRST_VALID _ R.LOG_STATUS (by simp [logFlds]) (by decide))

theorem onlyLog_status (s : State) (f : Fld) (v : Nat) (e : f.off = R.LOG_STATUS) : onlyLog s (s.put f v) :=
  onlyLog_put s f v R.LOG_STATUS (by simp [logFlds]) e

theorem onlyLog_incSat (s : State) (f : Fld) (w : Nat) (m : wordFld w ∈ logFlds) (e : f.off = w) : onlyLog s (s.incSat f) :=
  onlyLog_put s f _ w m e

theorem onlyLog_incWrap (s : State) (f : Fld) (w : Nat) (m : wordFld w ∈ logFlds) (e : f.off = w) : onlyLog s (s.incWrap f) :=
  onlyLog_put s f _ w m e

theorem onlyLog_setF (s : State) (f : Fld) (e : f.off = R.LOG_STATUS) : onlyLog s (s.setF f) := onlyLog_status s f 1 e

theorem onlyLog_ite (c : Prop) [Decidable c] (s t u : State) (h1 : onlyLog s t) (h2 : onlyLog s u) :
    onlyLog s (if c then t else u) := by
  split
  · exact h1
  · exact h2

/-- The vector that an entry signals leaves the block, or pends while it is masked (R203, R397). -/
theorem onlyLog_signal (s : State) (fn vec : Nat) (l : Log) : onlyLog s { s.signal fn vec with log := l } := by
  unfold State.signal
  split
  · split <;> exact onlyLog_regs _ _ rfl rfl
  · exact onlyLog_regs _ _ rfl rfl

theorem onlyLog_logAct (s : State) (c : Nat) (e : LogEnt) : onlyLog s (s.logAct c e) := by
  unfold State.logAct
  have h1 : onlyLog s (if c = 1 then s.setF F.LOG_STATUS_WARN_SEEN else s) := by
    split
    · exact onlyLog_status s _ 1 (by decide)
    · exact onlyLog_refl s
  have h2 : onlyLog s (if 2 ≤ c then (if c = 1 then s.setF F.LOG_STATUS_WARN_SEEN else s).capture e
      else (if c = 1 then s.setF F.LOG_STATUS_WARN_SEEN else s)) := by
    split
    · exact onlyLog_trans s _ _ h1 (onlyLog_capture _ _)
    · exact h1
  dsimp only
  generalize (if 2 ≤ c then (if c = 1 then s.setF F.LOG_STATUS_WARN_SEEN else s).capture e
      else (if c = 1 then s.setF F.LOG_STATUS_WARN_SEEN else s)) = s2 at h2 ⊢
  have h3 : ∀ u, onlyLog s2 u → onlyLog s (if u.errN.flag F.LOG_CTRL_IRQ_EN = true ∧ u.errN.get F.LOG_CTRL_IRQ_CLASS ≤ c ∧ u.errN.log.signalled = false then
      { (u.errN.signal 0 (u.errN.get F.LOG_CTRL_VEC)) with log := { u.errN.log with signalled := true } } else u.errN) := by
    intro u hu
    have hv := onlyLog_trans s _ _ h2 (onlyLog_trans _ _ _ hu (onlyLog_errN u))
    split
    · exact onlyLog_trans s _ _ hv (onlyLog_signal _ _ _ _)
    · exact hv
  refine h3 _ ?_
  split
  · have h4 := onlyLog_status s2 F.LOG_STATUS_FATAL 1 (by decide)
    split
    · exact onlyLog_trans _ _ _ h4 (onlyLog_regs _ _ rfl rfl)
    · exact onlyLog_trans _ _ _ h4 (onlyLog_regs _ _ rfl rfl)
  · exact onlyLog_refl s2

/-- Everything a log entry may touch (R390-R397). -/
theorem onlyLog_post (s : State) (lc code locus data : Nat) : onlyLog s (s.post lc code locus data) := by
  have k : ∀ (u : State) (l : Log), onlyLog s u → onlyLog s { u with log := l } :=
    fun u l h => onlyLog_trans s u _ h (onlyLog_regs _ _ rfl rfl)
  have h := onlyLog_incWrap s F.LOG_WR_SEQ_SEQ R.LOG_WR_SEQ (by simp [logFlds]) (by decide)
  unfold State.post
  refine onlyLog_ite _ _ _ _ (onlyLog_incSat s _ R.LOG_SUPPR_CNT (by simp [logFlds]) (by decide)) ?_
  refine k _ _ (onlyLog_trans s _ _ (onlyLog_ite _ _ _ _ ?_ h) (onlyLog_logAct _ _ _))
  exact onlyLog_trans s _ _ h (onlyLog_trans _ _ _ (onlyLog_incSat _ _ R.LOG_OVF_CNT (by simp [logFlds]) (by decide))
    (onlyLog_setF _ _ (by decide)))

/-- What a log entry leaves alone outside the registers. -/
@[simp] theorem State.post_frame (s : State) (lc code locus data : Nat) :
    (s.post lc code locus data).pending = s.pending ∧ (s.post lc code locus data).free = s.free ∧
    (s.post lc code locus data).lcnt = s.lcnt ∧ (s.post lc code locus data).tick = s.tick ∧
    (s.post lc code locus data).hist = s.hist ∧ (s.post lc code locus data).abaSkip = s.abaSkip ∧ (s.post lc code locus data).dmaTurn = s.dmaTurn ∧
    (s.post lc code locus data).shadow = s.shadow ∧ (s.post lc code locus data).latch = s.latch ∧
    (s.post lc code locus data).held = s.held ∧ (s.post lc code locus data).commit = s.commit ∧
    (s.post lc code locus data).loader = s.loader ∧ (s.post lc code locus data).armPlan = s.armPlan ∧
    (s.post lc code locus data).flash = s.flash ∧ (s.post lc code locus data).flashOps = s.flashOps ∧
    (s.post lc code locus data).chans = s.chans ∧ (s.post lc code locus data).words = s.words ∧
    (s.post lc code locus data).chains = s.chains ∧ (s.post lc code locus data).acs = s.acs ∧
    (s.post lc code locus data).dcs = s.dcs ∧ (s.post lc code locus data).ints = s.ints ∧
    (s.post lc code locus data).intSwaps = s.intSwaps ∧ (s.post lc code locus data).grps = s.grps ∧
    (s.post lc code locus data).store = s.store ∧ (s.post lc code locus data).stageFill = s.stageFill ∧
    (s.post lc code locus data).stageDrain = s.stageDrain ∧ (s.post lc code locus data).fillData = s.fillData ∧
    (s.post lc code locus data).drainData = s.drainData ∧ (s.post lc code locus data).sto = s.sto ∧
    (s.post lc code locus data).abaQ = s.abaQ ∧ (s.post lc code locus data).abaEnd = s.abaEnd ∧
    (s.post lc code locus data).avgs = s.avgs ∧ (s.post lc code locus data).dbs = s.dbs ∧
    (s.post lc code locus data).hitQ = s.hitQ ∧ (s.post lc code locus data).hitEnd = s.hitEnd ∧
    (s.post lc code locus data).tallyPage = s.tallyPage ∧ (s.post lc code locus data).tallyGeom = s.tallyGeom ∧
    (s.post lc code locus data).frames = s.frames ∧ (s.post lc code locus data).framePub = s.framePub ∧
    (s.post lc code locus data).ports = s.ports ∧ (s.post lc code locus data).strms = s.strms ∧
    (s.post lc code locus data).hostqs = s.hostqs ∧ (s.post lc code locus data).disp = s.disp ∧
    (s.post lc code locus data).tap = s.tap ∧ (s.post lc code locus data).cfgReady = s.cfgReady ∧
    (s.post lc code locus data).clk = s.clk ∧ (s.post lc code locus data).epochs = s.epochs ∧
    (s.post lc code locus data).timeDue = s.timeDue ∧ (s.post lc code locus data).pnom = s.pnom ∧
    (s.post lc code locus data).servo = s.servo ∧ (s.post lc code locus data).stage = s.stage ∧
    (s.post lc code locus data).txq = s.txq ∧ (s.post lc code locus data).ptp = s.ptp ∧
    (s.post lc code locus data).evs = s.evs ∧ (s.post lc code locus data).cal = s.cal ∧
    (s.post lc code locus data).svc = s.svc ∧ (s.post lc code locus data).keeper = s.keeper ∧
    (s.post lc code locus data).pwr = s.pwr ∧ (s.post lc code locus data).smb = s.smb := by
  have h := (onlyLog_post s lc code locus data).2
  and_intros <;> (rw [h])

/-- A register outside the log's block is not touched by an entry. -/
theorem State.get_post (s : State) (lc code locus data : Nat) (g : Fld) (hg : g.ok) (h : Nat.ble 0xF00000 g.off = false) :
    (s.post lc code locus data).get g = s.get g := by
  refine (onlyLog_post s lc code locus data).1 g hg (fun f m => Or.inl ?_)
  have hf : 0xF00000 ≤ f.off := by
    simp only [logFlds, wideFlds, wordFld, List.mem_cons, List.mem_append, List.mem_map, List.mem_range] at m
    rcases m with e | e | e | e | e | ⟨i, _, e⟩ | ⟨i, _, e⟩ <;> (first | rw [e] | rw [← e]) <;>
      simp [R.LOG_STATUS, R.LOG_WR_SEQ, R.LOG_OVF_CNT, R.LOG_NEST_CNT, R.LOG_SUPPR_CNT, R.LOG_FIRST, R.LOG_LAST_ERR] <;> omega
  have hg2 : ¬ 0xF00000 ≤ g.off := fun k => by rw [Nat.ble_eq_true_of_le k] at h; cases h
  omega

/-- An entry written, or suppressed as a repeat, is among those of its tick. -/
theorem State.post_seen (s : State) (lc code locus data : Nat) :
    (code, locus) ∈ (s.post lc code locus data).log.seen := by
  unfold State.post
  split
  · rename_i h; exact h.2.2
  · simp

end Sys2Proof.Machine
end

