-- ==== Sys2Proof/Tests/Slice0.lean ====
section
/-! SUPPORT. Tests of this model: the shape check, and for each statement a state and operands that meet the hypotheses of its
clauses. -/

namespace Sys2Proof.Tests

set_option Elab.async false

open Sys2Proof Sys2Proof.Machine Sys2Proof.Safety

/-- Reset with the words of the listed fields replaced; the other bits of those words are 0. -/
def given (l : List (Fld × Nat)) : State :=
  { State.reset with regs := l.foldl (fun (r : RegTab) (p : Fld × Nat) =>
      Tab.set r p.1.off (BitVec.ofNat 32 ((Tab.get 0 r p.1.off).toNat + p.2 * 2 ^ p.1.lo))) [] }

/-- A tick of the store that gives b bytes. -/
def granting (b : Nat) (l : List (Fld × Nat)) : State := given ((F.STO_CTICK_BYTES, b) :: l)

/-- A state with group g replaced. -/
def withGrp (s : State) (g : Nat) (gr : Grp) : State := s.setGrp g gr

/-- A group that acquires. -/
def armedGrp : Grp := { Grp.init with armed := true }

/-- One channel of 64 samples a core cycle, 10 bits each. -/
def aLay : Layout := ⟨64, 1, 64, 1, 10, 0, 1, 0, 0, 0, 0, 64, 256, 1, 0⟩

/-- A record with number 7 over core cycles 100 to 163, with no measurement block. -/
def aRec : Rec :=
  { num := 7, kind := 1, t := 6553600, s := 100, e := 163, dec := 0, shortfall := 0, since := 0, dead := 0, missed := 0, held := 0,
    mask := 1, lpage := 0, lay := aLay, len := 64, pre := 0, redCode := 0, lens := none, epoch := 0, fences := [], flags := 0,
    warnRails := 0, drift := 0, tempMax := 0, tempHub := 0, gaps := 0, gapSamples := 0 }

/-- A slot that holds record 7. -/
def aSlot : Slot :=
  { num := 7, lpage := 0, pages := 1, readers := [], span := none, ready := true, relReq := false, measured := true, n := 64 }

/-- A pending commit of the host for boundary 4096. -/
def aCommit : Commit := ⟨0, 0, 100, 4096, 0, 0, .host⟩

/-- The smallest image, with sequence 8 and an empty BUDGET section. -/
def anImage : Image := ⟨8, 0, 0, [], none, some (0, 0), 1⟩

/-! ### The shape check -/

/-- A word of 64 conversions with the first four of the next word. -/
def aWord : RawWord := { x := List.replicate 64 0, look := List.replicate 4 0, eccBad := false, lookBad := false }

theorem test_shape_words : wellFormed (.sampleWordDelivery 0 0 [aWord, aWord, aWord]) = false := by decide
theorem test_shape_conversions : wellFormed (.sampleWordDelivery 0 0 [aWord, aWord, aWord, { aWord with x := [0] }]) = false := by decide
theorem test_shape_range : wellFormed (.sampleWordDelivery 0 0 [aWord, aWord, aWord, { aWord with look := [0, 0, 0, 512] }]) = false := by
  decide
theorem test_shape_look : wellFormed (.sampleWordDelivery 0 0 [aWord, aWord, aWord, { aWord with look := [] }]) = false := by decide
theorem test_shape_pfc : wellFormed (.rxPfcFrame 0 0 0 [1, 2, 3, 4, 5, 6, 7]) = false := by decide
theorem test_shape_descriptor : wellFormed (.descriptorFetch 0 (List.replicate 63 0)) = false := by decide +kernel
theorem test_shape_references : wellFormed (.evtMeasurementStart 0 [1, 2, 3]) = false := by decide
theorem test_shape_good : wellFormed (.sampleWordDelivery 0 0 [aWord, aWord, aWord, aWord]) = true := by decide

/-! ### Worked examples of the spec -/

/-- spec/00: an open load of CH21's excitation source at node 3, and sub-converter 40 of the same channel. -/
theorem test_locus :
    let s := given [(F.GLOBAL_STATE_NODE, 3)]
    s.locusOut 21 1 = 0x03951501 ∧ s.locusCh 21 40 = 0x03251528 ∧ s.locusPkg = 0x03FFFFFF := by decide +kernel

/-- spec/12: a trigger instant across a second. -/
theorem test_network_time :
    netTimeIn ⟨0x0123, 6144000000, 1700000000, 999999000, 0x8000, 2199026554087, 0⟩ (65536 * 6144005000 + 0x4000) =
      ⟨1700000001, 9001, 0x03D7⟩ := by decide

/-- spec/15: codes of +1.000 V and −1.000 V corrected with G = 0x8008 and O = −3. -/
theorem test_offset_correction : corrected 3277 (-3, 0x8008) = 3275 ∧ corrected (-3277) (-3, 0x8008) = -3281 := by decide

/-- spec/10: pixel 100 of 3840, lines 2159, 33 and 3 of 2160, and 300 hits in LOG mode. -/
theorem test_raster_geometry :
    (plotCols 3840 100).1 = 53 ∧ (plotRows 2160 2159).1 = 1023 ∧ plotRows 2160 33 = (15, 16) ∧ (plotRows 2160 3).1 = 1 ∧
    countIndex true 0 300 = 130 ∧ lutReset 130 = 161 := by decide

/-- spec/04: the trigger worked example's interpolation, T16 = 65536 + 36172. -/
theorem test_fine_term : ((given []).fineTerm 3101 1996 3998).1 = 36172 := by decide +kernel

/-- spec/03: the 30 S/s chain: D = 2^30, τ and the support S_sup. -/
theorem test_filter_delay :
    let c := chainCfg (given [(F.FLT_CH_DEC_RA_M1 12, 4095), (F.FLT_CH_DEC_RB_M1 12, 4095), (F.FLT_CH_CFG_HB_STAGES 12, 6),
      (F.FLT_CH_CFG_FIR_EN 12, 1), (F.FLT_CH_TAPS_FIR_LEN 12, 127)]).regs 12
    c.d = 2 ^ 30 ∧ c.ctau = 69800316926 ∧ c.tau = 256 * 69800316926 ∧ c.sup = 139600633852 := by decide +kernel

/-- spec/16: of sequences 0xFFFFFFFE and 1 the second is newer (R352). -/
theorem test_newer_image : chooseSlot (some { anImage with seq := 0xFFFFFFFE }) (some { anImage with seq := 1 }) =
    some (1, { anImage with seq := 1 }) := by decide +kernel

/-- The published check value of the CRC-32C that R106 takes, over the digits 1 to 9. -/
theorem test_crc32c : crc32c [0x31, 0x32, 0x33, 0x34, 0x35, 0x36, 0x37, 0x38, 0x39] = 0xE3069283 := by decide +kernel


theorem witness_StepRunsTheFrontCommand :
    (let s : State := { State.reset with pending := [.excTrip, .echoDue] }
     s.pending = .excTrip :: [.echoDue]) ∧ State.reset.pending = [] := by decide +kernel

theorem witness_WellFormedRunsNeverStop :
    wellFormed .excTrip = true ∧ wellFormed (.evtMeasurementStart 0 []) = false ∧
    queueOk { State.reset with pending := [.excTrip, .tickBoundary 0] } = true := by decide +kernel

/-- A state at whose front the erase of a flash block ends. -/
def erasing : State := { State.reset with
  flash := [(3, 0)]
  flashOps := [⟨2, 0, []⟩]
  pending := [.flashCommandDone true] }

theorem witness_StepKeepsTheMemoriesCanonical :
    (Mem.wf 0 erasing.store = true ∧ Mem.wf 0xFF erasing.flash = true ∧ queueOk erasing = true) ∧ ∃ t, step erasing = .next t :=
  ⟨by decide +kernel, _, rfl⟩

/-- A command runs here, so that FewCommandsWriteTheMemories and the clause on the queue speak of something. -/
theorem witness_FewCommandsWriteTheMemories : ∃ t, exec (.flashCommandDone true) erasing = .next t := ⟨_, rfl⟩


/-- Lane group 0 with two lanes to a port, in the active and in the shadow set. -/
def pairPorts : State := { given [(F.CFG_VIEW_ACTIVE, 0), (F.STM_LG_MODE_MODE, 0x2A)] with shadow := [(R.STM_LG_MODE, 0x2A)] }

/-- CFG_VIEW as given; the broadcast mask names channel 47, and channel 0 too under the active view. -/
def viewing (v : Nat) : State := given [(F.CFG_VIEW_ACTIVE, v), (wordFld R.FLT_BCAST_MASK, v), (wordFld (R.FLT_BCAST_MASK + 4), 32768)]

theorem witness_WritesActByAccessCode :
    ((1 : Fin 64) ≠ 0 ∧ (given [(F.DMA_Q_OWNER_VALID 0, 0)]).mayWrite 1 0xA00000 = false ∧ (given []).mayWrite 1 0 = false) ∧
    (let m := masksAt 0x000000
     m.rw = 0 ∧ m.rws = 0 ∧ m.w1c = 0 ∧ m.wo = 0 ∧ isLow 0 = false ∧ isHigh 0 = false ∧ inBcast 0 = false) ∧
    (let m := masksAt 0x300000
     m.rw = 0 ∧ m.rws ≠ 0 ∧ m.w1c = 0 ∧ m.wo = 0 ∧ isLow 0x300000 = false ∧ isHigh 0x300000 = false ∧ inBcast 0x300000 = false ∧
       portHere (viewing 0).stagedModes 0x300000 = true) ∧
    (let m := masksAt (R.STM_PORT_CTRL 1)
     m.rw = 0 ∧ m.rws ≠ 0 ∧ m.w1c = 0 ∧ m.wo = 0 ∧ isLow (R.STM_PORT_CTRL 1) = false ∧ isHigh (R.STM_PORT_CTRL 1) = false ∧
       inBcast (R.STM_PORT_CTRL 1) = false ∧ pairPorts.commit = none ∧ pairPorts.flag F.CFG_VIEW_ACTIVE = false ∧
       portHere pairPorts.stagedModes (R.STM_PORT_CTRL 1) = false) ∧
    ((viewing 0).commit = none ∧ (viewing 0).flag F.CFG_VIEW_ACTIVE = false ∧ (viewing 1).flag F.CFG_VIEW_ACTIVE = true) ∧
    ({ State.reset with commit := some aCommit } : State).commit.isSome = true ∧
    (let m := masksAt R.LOG_CTRL
     m.rw ≠ 0 ∧ m.rws = 0 ∧ m.w1c = 0 ∧ m.wo = 0 ∧ portHere (viewing 0).regs R.LOG_CTRL = true ∧ isLow R.LOG_CTRL = false ∧
       isHigh R.LOG_CTRL = false ∧ inBcast R.LOG_CTRL = false ∧ R.LOG_CTRL ≠ R.TIME_CTRL ∧ R.LOG_CTRL ≠ R.GLOBAL_WAKE_CTRL ∧
       0x330000 ≤ R.LOG_CTRL ∧ 0xC00000 ≤ R.LOG_CTRL ∧ R.TIME_STAGE_CMD ≤ R.LOG_CTRL) := by decide +kernel

theorem witness_WritesActByAccessCode_clear :
    ((masksAt 0).w1c = 0 ∧ (masksAt R.STO_STATUS).w1c ≠ 0 ∧ portHere (viewing 0).regs R.STO_STATUS = true ∧
      R.STO_STATUS < 0xD90000 ∧
      0xD90C00 ≤ R.LOG_STATUS ∧ (0xFFFFFFFD : BitVec 32).toNat / 2 % 2 = 0 ∧
      portHere pairPorts.regs (R.STM_PORT_STATUS 1) = false ∧ R.STO_STATUS ≠ R.SVC_RLY_OC) ∧
    (isLow 0x408000 = true ∧ isHigh 0x408004 = true ∧ isLow 0x408004 = false ∧ inBcast 0x408000 = false ∧ inBcast 0x408004 = false ∧
      ctxQ 0x408000 = none ∧ portHere (viewing 0).stagedModes 0x408000 = true ∧ portHere (viewing 0).stagedModes 0x408004 = true ∧
      ∀ o ∈ [0x408000, 0x408004], (masksAt o).rw = 0 ∧ (masksAt o).rws ≠ 0 ∧ (masksAt o).w1c = 0 ∧ (masksAt o).wo = 0) ∧
    (inBcast 0x331000 = true ∧ (∀ n < 48, (masksAt (0x331000 - 0x31000 + 0x1000 * n)).rw = 0 ∧
      (masksAt (0x331000 - 0x31000 + 0x1000 * n)).rws ≠ 0 ∧
        (masksAt (0x331000 - 0x31000 + 0x1000 * n)).w1c = 0 ∧ (masksAt (0x331000 - 0x31000 + 0x1000 * n)).wo = 0) ∧
      bitOf ((viewing 1).getN R.FLT_BCAST_MASK 2) 47 = true ∧ bitOf ((viewing 1).getN R.FLT_BCAST_MASK 2) 1 = false) ∧
    (given [(wordFld R.FLT_BCAST_MASK, 0), (wordFld (R.FLT_BCAST_MASK + 4), 0)]).getN R.FLT_BCAST_MASK 2 % 2 ^ 48 = 0 := by decide +kernel

theorem witness_ReadsAnswerClearAndHold :
    let s : State := { State.reset with latch := [(latchKey 0 0x408004, 7)] }
    (wordAt 0x00FFFC = none ∧ inBcast 0x00FFFC = false) ∧ (isLow 0x408000 = true ∧ s.sees 0 0x408000 = true) ∧
    ((masksAt 0x408000).rc = 0 ∧ (masksAt 0x408004).rc = 0) ∧
    (isHigh 0x408004 = true ∧ s.sees 0 0x408004 = true ∧ s.latched 0 0x408004 = some 7) ∧
    (s.sees 63 0x408000 = false ∧ isLow 0x408000 = true) ∧ (spotAt R.LOG_CTRL = some (0, 1) ∧ s.sees 0 R.LOG_CTRL = true) ∧
    isLow R.LOG_CTRL = false ∧ (0x408000 ≠ R.TIME_LCNT ∧ 0x408000 ≠ R.TIME_LCNT + 4 ∧ 0x408000 ≠ R.STO_STAGE ∧
      portHere s.regs 0x408000 = true ∧ portHere s.stagedModes 0x408000 = true) ∧
    (portHere pairPorts.regs (R.STM_PORT_CTRL 1) = false ∧ portHere pairPorts.stagedModes (R.STM_PORT_CTRL 1) = false) ∧
    (given [(F.CFG_VIEW_ACTIVE, 1)]).flag F.CFG_VIEW_ACTIVE = true ∧ (masksAt R.LOG_CTRL).rws = 0 := by decide +kernel

theorem witness_ManagementPortsServe :
    let t : Nat → List Bool → State := fun st sh => { State.reset with tap := { Tap.init with
      st := st
      ir := irIdcode
      irSh := sh
      drSh := sh } }
    let lc := leBytes 4 R.LOG_CMD ++ [3, 0, 0, 0]
    ([0, 0, 0, 0].length = 4 ∧ [0].length ≠ 4 ∧ [0].length ≠ 8 ∧ lc.length = 8 ∧ leValue (lc.take 4) = R.LOG_CMD ∧
      leValue (lc.drop 4) % 2 = 1 ∧ leValue (lc.drop 4) / 2 % 2 = 1 ∧ State.reset.log.fatalCond = false ∧
      leValue ((leBytes 4 R.LOG_CMD ++ [2, 0, 0, 0]).drop 4) % 2 = 0 ∧ leValue ((leBytes 8 0).take 4) ≠ R.LOG_CMD) ∧ 4 ≤ 32 ∧
    (t 3 []).tap.st = 3 ∧
    ((t 4 [true, false]).tap.st = 4 ∧ (t 4 [true, false]).tap.drSh = true :: [false]) ∧
    ((t 11 [true]).tap.st = 11 ∧ (t 11 [true]).tap.irSh = true :: []) ∧ (t 15 [true]).tap.st = 15 := by decide +kernel

/-- A state whose instruction register is IDCODE's code, and one whose register holds ones only and is not it. -/
theorem witness_ManagementPortsServe_scan :
    let t : List Bool → State := fun l => { State.reset with tap := { Tap.init with st := 3, ir := l } }
    ((t irIdcode).tap.st = 3 ∧ (t irIdcode).tap.ir = irIdcode) ∧
    (t (List.replicate (irIdcode.length + 1) true)).tap.ir ≠ irIdcode ∧
    (t (List.replicate (irIdcode.length + 1) true)).tap.ir.all (fun b => b) = true := by
  refine ⟨⟨rfl, rfl⟩, fun h => ?_, ?_⟩
  · have := congrArg List.length h
    simp at this
  · simp

theorem witness_BoundariesMoveTheDeviceOn :
    let c : State := { State.reset with commit := some aCommit, tick := 2048 }
    (State.reset.pwr.coreLoss = false ∧ State.reset.pwr.thermalHold = false ∧ State.reset.abaSkip = []) ∧
    ({ Pwr.init with coreLoss := true } : Pwr).coreLoss = true ∧ ({ Pwr.init with thermalHold := true } : Pwr).thermalHold = true ∧
    (c.commit = some aCommit ∧ aCommit.due ≤ c.tick + 2048 ∧ aCommit.kind ≠ 1) ∧
    (({ c with tick := 0 } : State).tick + 2048 < aCommit.due) ∧ State.reset.commit = none := by decide +kernel


/-- The smallest image: sequence 8 and one BUDGET section (Tables 16.2 and 16.3). -/
def imageBytes : List Byte :=
  let body := leBytes 16 0
  let sec := leBytes 2 4 ++ leBytes 2 0 ++ leBytes 4 16 ++ leBytes 4 0 ++ leBytes 4 (crc32c body) ++ body
  let h := leBytes 4 0x53494D47 ++ leBytes 2 1 ++ leBytes 2 1 ++ leBytes 4 8 ++ leBytes 2 0x4832 ++ leBytes 2 0 ++ leBytes 4 96 ++
    leBytes 4 (crc32c sec) ++ leBytes 36 0
  h ++ leBytes 4 (crc32c h) ++ sec

/-- Every word that a write reaches has staged bits only. -/
def staged (l : List Nat) : Bool :=
  l.all (fun o => (masksAt o).rws != 0 && (masksAt o).rw == 0 && (masksAt o).w1c == 0 && (masksAt o).wo == 0)

/-- A record-boundary request of group 15, whose record in progress ends late. -/
def recRequest (waited due : Nat) : State :=
  { (withGrp (given [(F.CFG_REC_MAX_TICKS, 1)]) 15 { armedGrp with cur := some { aRec with e := 9000 } }) with
    commit := some { aCommit with kind := 1, grp := 15, waited := waited, due := due } }

/-- A flash that holds the smallest image in slot 1. -/
def imaged : State := { given [(F.GLOBAL_ID_STEPPING, 0)] with flash := Mem.writeBytes 0xFF [] 0x400000 imageBytes }

theorem witness_CommitsPendAndAreDecided :
    let p : State := { State.reset with commit := some aCommit }
    let l : State := { State.reset with loader := { Loader.init with waiting := true } }
    p.commit.isSome = true ∧
    (staged [0x408004 - 4, 0x408004] = true ∧ isHigh 0x408004 = true ∧ isLow 0x408004 = false ∧ inBcast 0x408004 = false) ∧
    (staged [0x408000, 0x408000 + 4] = true ∧ isHigh 0x408000 = false ∧ isLow 0x408000 = true ∧ inBcast 0x408000 = false) ∧
    (staged [0x300000] = true ∧ isHigh 0x300000 = false ∧ isLow 0x300000 = false ∧ inBcast 0x300000 = false) ∧
    (State.reset.commit = none ∧ State.reset.loader.waiting = false) ∧ (l.commit = none ∧ l.loader.waiting = true) ∧
    (p.commit = some aCommit ∧ 4032 + 64 ≤ aCommit.due ∧ aCommit.due < 4033 + 64) ∧
    (given [(F.GLOBAL_STATE_SHADOW_PENDING, 1)]).flag F.GLOBAL_STATE_SHADOW_PENDING = true ∧
    ((given [(F.GLOBAL_STATE_SHADOW_PENDING, 0)]).flag F.GLOBAL_STATE_SHADOW_PENDING = false ∧ State.reset.disp.pend = []) ∧
    (imaged.commit = none ∧ imaged.slotImage 1 = some anImage ∧ imaged.slotImage 0 = none) ∧
    ((recRequest 0 4096).recBoundary 15 4096 = false ∧ 0 < (recRequest 0 4096).get F.CFG_REC_MAX_TICKS) ∧
    ((recRequest 0 10240).recBoundary 15 10240 = true ∧ (recRequest 1 4096).get F.CFG_REC_MAX_TICKS ≤ 1 ∧ aCommit.kind ≠ 1) ∧
    (aCommit.origin = .host ∧ p.pwr.grpReset = 0) := by decide +kernel

/-- At reset no group acquires, whatever waits. -/
theorem witness_CommitsPendAndAreDecided_groups (g : Nat) : (({ State.reset with commit := some aCommit } : State).grp g).armed = false := rfl

theorem witness_ImagesLoadAndFlashCommandsRun :
    let arm : Nat → Nat → State := fun w servo => { given [(F.TIME_STATUS_SERVO, servo)] with armPlan := some ⟨1, w, 2048⟩ }
    let fl := fun addr un => given [(F.CFG_FLASH_ADDR_ADDR, addr), (F.CFG_FLASH_CTRL_UNLOCK, un), (F.GLOBAL_STATE_IMAGE_SLOT, 0)]
    let ops : FlashOp → List FlashOp → State := fun o r => { State.reset with flashOps := o :: r }
    ({ State.reset with cfgReady := true } : State).cfgReady = true ∧
    (imaged.cfgReady = false ∧ imaged.pwr.coreLoss = false ∧ imaged.pwr.thermalHold = false ∧
      (let u : State := { imaged with loader := { Loader.init with part := true } }
       chooseSlot none (u.slotImage 1) = some (1, anImage)) ∧ chooseSlot none none = none) ∧
    ({ Pwr.init with coreLoss := true } : Pwr).coreLoss = true ∧ ({ Pwr.init with thermalHold := true } : Pwr).thermalHold = true ∧
    State.reset.armPlan = none ∧ ((arm 1 0).get F.TIME_STATUS_SERVO ≠ 2 ∧ boundaryAt (arm 1 0).lcnt < 2048) ∧
    ((arm 2 0).armPlan = some ⟨1, 2, 2048⟩ ∧ (arm 2 0).get F.TIME_STATUS_SERVO ≠ 2) ∧ (arm 1 2).get F.TIME_STATUS_SERVO = 2 ∧
    (let late : State := { arm 1 0 with lcnt := 2048 }
     2048 ≤ boundaryAt late.lcnt) ∧
    ((Instr.flashErase64k, 3) ∈ [(Instr.flashRead, 0), (.flashProgram, 1), (.flashErase4k, 2), (.flashErase64k, 3)] ∧
      0x3F0000 = (fl 0x3FFFFF 0).get F.CFG_FLASH_ADDR_ADDR / flashSize 3 * flashSize 3 ∧
        (fl 0x3FFFFF 0).flashHeld 0x3F0000 (flashSize 3) = true ∧
      (fl 0x3FFFFF 0).flag F.CFG_FLASH_CTRL_UNLOCK = false ∧ (fl 0x3FFFFF 1).flag F.CFG_FLASH_CTRL_UNLOCK = true) ∧
    (0x400000 = (fl 0x400000 0).get F.CFG_FLASH_ADDR_ADDR / flashSize 0 * flashSize 0 ∧
      (fl 0x400000 0).flashHeld 0x400000 (flashSize 0) = false) ∧ State.reset.flashOps = [] ∧
    ((ops ⟨1, 256, [0]⟩ []).flashOps = ⟨1, 256, [0]⟩ :: [] ∧ (ops ⟨1, 256, [0]⟩ []).cal.saving = none ∧
      Mem.wf 0xFF (ops ⟨1, 256, [0]⟩ []).flash = true ∧ (ops ⟨2, 4096, []⟩ [⟨0, 0, []⟩]).flashOps = ⟨2, 4096, []⟩ :: [⟨0, 0, []⟩] ∧
      (ops ⟨0, 256, []⟩ []).flashOps = ⟨0, 256, []⟩ :: []) ∧
    ({ Cal.init with saving := some (0, 0, []) } : Cal).saving ≠ none ∧
      ({ Cal.init with saveDue := true } : Cal).saveDue = true := by
  decide +kernel

theorem witness_AnalogCrossingsAreMeasured :
    let on := given [(F.TRG_AC_CTRL_EN 0, 1), (F.TRG_AC_STATUS_STATE 0, 0), (F.TRG_INT_CAL_FAILED 0 0, 0)]
    let run : State := { on with clk := { Clk.init with gap := (0, some 0) } }
    (given [(F.TRG_AC_CTRL_EN 287, 0)]).acOpen 287 5 true = false ∧
    (run.acOpen 0 11 true = true ∧ run.intReady 0 (run.ac 0).nextB 11 = true) ∧
    (run.acOpen 0 10 true = true ∧ run.intReady 0 (run.ac 0).nextB 10 = false ∧ run.intReady 0 (!(run.ac 0).nextB) 10 = false) ∧
    (let x := run.setAc 0 { Ac.init with lostA := true }
     x.acOpen 0 11 true = true ∧ x.intReady 0 (x.ac 0).nextB 11 = false ∧ x.intReady 0 (!(x.ac 0).nextB) 11 = true) := by
  decide +kernel

theorem witness_InterpolatorsMeasureAndSwap :
    let s := (given [(F.TRG_GRP_CTRL_TYPE 0, 0), (F.TRG_GRP_SRC_SRC_A 0, 7), (F.TRG_AC_DELAY_DELAY 7, 3),
      (F.TRG_INT_CAL_N1 1 1, 2000), (F.TRG_INT_CAL_N2 1 1, 4000)]).setIp 17
      { Ip.init with meas := some (100, 7, true) }
    let f := given [(F.TRG_INT_CAL_IN_USE 0 0, 1), (F.TRG_INT_CAL_FAILED 0 0, 1), (F.TRG_INT_CAL_IN_USE 0 12, 0),
      (F.TRG_AC_STATUS_INT_A 0, 0), (F.TRG_AC_STATUS_INT_B 0, 1)]
    ((s.ip 17).meas = some (100, 7, true) ∧ intBad 2000 4000 = false ∧ s.get (F.TRG_INT_CAL_N1 1 1) = 2000 ∧
      s.get (F.TRG_INT_CAL_N2 1 1) = 4000 ∧ (withGrp s 15 armedGrp).grp 0 = s.grp 0 ∧ (s.grp 0).armed = false ∧
        (withGrp s 0 armedGrp).grp 0 = armedGrp ∧ 7 ∈ srcsOf s.regs 0) ∧
    (State.reset.ip (16 * 47 + 15)).meas = none ∧
    (let u : State := { given [(F.TRG_INT_CAL_IN_USE 47 15, 1)] with clk := { Clk.init with gap := (0, some 0) } }
     u.flag (F.TRG_INT_CAL_IN_USE 47 15) = true ∧ u.refreshDue 0 47 15 = true ∧ u.flag (F.TRG_INT_CAL_FAILED 47 15) = false) ∧
    (given [(F.TRG_INT_CAL_FAILED 47 15, 1)]).flag (F.TRG_INT_CAL_FAILED 47 15) = true ∧
    intBad 2000 4095 = true ∧
    (given [(F.TRG_INT_CAL_IN_USE 0 12, 0)]).flag (F.TRG_INT_CAL_IN_USE 0 12) = false ∧
    ((0, 0) ∈ ({ f with intSwaps := [(0, 0)] } : State).intSwaps ∧ f.flag (F.TRG_INT_CAL_FAILED 0 0) = true ∧
      (f.freeSpares 0).head? = some 12 ∧ f.servedBy 0 0 = some (0, false)) ∧ (0, 0) ∉ State.reset.intSwaps := by
  decide +kernel

/-- A group whose trigger type, source A and first time are given. -/
def trgGrp (typ a lo hi : Nat) : State :=
  given [(F.TRG_GRP_CTRL_TYPE 0, typ), (F.TRG_GRP_CTRL_SLOPE_A 0, 0), (F.TRG_GRP_SRC_SRC_A 0, a), (wordFld (R.TRG_GRP_TLO 0), lo),
    (wordFld (R.TRG_GRP_TLO 0 + 4), 0), (wordFld (R.TRG_GRP_THI 0), hi), (wordFld (R.TRG_GRP_THI 0 + 4), 0)]

theorem witness_CrossingsAndTimersQueue :
    let d := State.reset.setDc 191 { Dc.init with vals := [(65536, 5), (131072, 7)] }
    let x := (given [(F.TRG_DC_LEVEL_LEVEL 0, 6), (F.TRG_DC_HYST_HYST 0, 0)]).setDc 0
      { Dc.init with ready := true, prev := some (65536, 5), vals := [(131072, 7)] }
    let t7 := withGrp (trgGrp 7 0 0 9) 0 { armedGrp with part := { Part.init with toFrom := some 65536 } }
    let t5 := withGrp (given [(F.TRG_GRP_CTRL_TYPE 0, 5), (F.TRG_GRP_CTRL_WQUAL 0, 1), (F.TRG_GRP_CTRL_WCOND 0, 1)]) 0
      { armedGrp with part := { Part.init with patFrom := some 65536 } }
    let t6 := withGrp (trgGrp 6 0 0 9) 0 { Grp.init with part := { Part.init with pend := [65536, 70000] } }
    ((d.dc 191).scan (fun c => dcLevels (d.cfgAt c) 191) (d.dc 191).vals).found = none ∧
    ((x.dc 0).scan (fun c => dcLevels (x.cfgAt c) 0) (x.dc 0).vals).found = some (98304, true) ∧
    (t7.timerFrom 0 = some 65536 ∧ (trgDef t7.regs 0).typ = 7 ∧ srcCh (trgDef t7.regs 0).a = some 0 ∧ bitOf t7.calMask 0 = false ∧
      (t7.grp 0).armed = true ∧ (t7.grp 0).events = []) ∧ (withGrp State.reset 15 armedGrp).timerFrom 15 = none ∧
    ((t5.grp 0).defAt = [] ∧ (t5.grp 0).part.patFrom = some 65536 ∧ (trgDef t5.regs 0).typ = 5 ∧
      (trgDef t5.regs 0).wqual = true ∧ (trgDef t5.regs 0).wcond = 1 ∧ (t5.grp 0).armed = true ∧ (t5.grp 0).events = []) ∧
    ((State.reset.grp 15).defAt = [] ∧ (State.reset.grp 15).part.patFrom = none) ∧
    ((t6.grp 0).part.pend = [65536, 70000] ∧ (trgDef t6.regs 0).typ = 6 ∧ (trgDef t6.regs 0).thi ≠ 0 ∧ (t6.grp 0).events = []) ∧
    (State.reset.grp 15).part.pend = [] := by decide +kernel

theorem witness_CandidatesAreDecided :
    let g := { armedGrp with events := [⟨65536, .cross 3 true false⟩] }
    let s := withGrp (trgGrp 0 3 0 0) 0
    let ready := { g with readyFrom := some 1, claim := some 0 }
    let held := withGrp (given [(F.TRG_GRP_CTRL_TYPE 0, 0), (F.TRG_GRP_CTRL_HOLD_MODE 0, 2), (F.TRG_GRP_HOLD_EVT_HOLD_EVT 0, 1)]) 0
      { g with tp := some 0 }
    let lit : State → State := fun u => { u with clk := { Clk.init with gap := (0, some 0) } }
    (State.reset.grp 15).events = [] ∧
    (((s ready).grp 0).events = ⟨65536, .cross 3 true false⟩ :: [] ∧ ((s ready).grp 0).defAt = [] ∧
      (trgDef ((s ready).cfgAt 1) 0).typ = 0 ∧ (trgDef ((s ready).cfgAt 1) 0).a = 3 ∧ 3 ∈ srcsOf ((s ready).cfgAt 1) 0 ∧
      slopeIs (trgDef ((s ready).cfgAt 1) 0).slopeA true = true ∧ ((s ready).grp 0).inside 65536 = true ∧
      (s ready).eligible 0 65536 = true ∧ (lit (s ready)).accepting 0 65536 = true) ∧
    ((s g).eligible 0 65536 = true ∧ (s g).accepting 0 65536 = false) ∧ held.eligible 0 65536 = false ∧
    (let f := withGrp State.reset 15 { armedGrp with events := [⟨9, .force⟩] }
     (f.grp 15).events = ⟨9, .force⟩ :: [] ∧ (f.grp 15).defAt = [] ∧ f.accepting 15 9 = false) := by decide +kernel

theorem witness_GroupsArmStopAndForce :
    let one := given [(wordFld (R.TRG_GRP_CH 15), 1), (wordFld (R.TRG_GRP_CH 15 + 4), 0), (F.TWIN_STATUS_ROLE, 0),
      (F.REC_GRP_CTRL_MODE 15, 0)]
    let req := withGrp one 15 { Grp.init with armReq := some 2047 }
    ((req.grp 15).armReq = some 2047 ∧ (req.grp 15).armed = false ∧ chMask req.regs 15 ≠ 0 ∧ req.get F.TWIN_STATUS_ROLE ≠ 2) ∧
    ((withGrp one 0 { armedGrp with armReq := some 2048 }).grp 0 = { armedGrp with armReq := some 2048 }) ∧
    ((State.reset.grp 15).armReq = none ∧ (State.reset.grp 15).stopReq = none ∧ (State.reset.grp 15).armed = false) ∧
    (let r := withGrp one 15 { armedGrp with stopReq := some (2049, .command) }
     (r.grp 15).stopReq = some (2049, .command) ∧ (r.grp 15).armed = true ∧ (r.grp 15).cur = none ∧ isCont r.regs 15 = false) ∧
    ((withGrp one 15 armedGrp).grp 15).armed = true ∧ ((withGrp one 15 armedGrp).grp 15).stopReq = none := by decide +kernel

/-- Four words as a region sends them. -/
def fourWords : List RawWord := List.replicate 4 ⟨List.replicate 64 3, [3, 3, 3, 3], false, false⟩

theorem witness_WordsReachTheRouter :
    let s := given [(F.CONV_CH_CTRL_CORR_OFF 47, 1), (F.CONV_MODE_PAIR, 0), (wordFld R.CONV_FENCE_CH, 0),
      (wordFld (R.CONV_FENCE_CH + 4), 0)]
    let x : State := { s with clk := { Clk.init with gap := (1, some 0) } }
    (fourWords.length = 4 ∧ fourWords.all RawWord.wf = true ∧ (fourWords[3]?).isSome = true ∧ paired (x.cfgAt 0) 47 = false ∧
      (x.cfgAt 0).bit (F.CONV_CH_CTRL_CORR_OFF 47) = true ∧ bitOf x.fenceMask 47 = false ∧ (x.chan 47).fencedAt = none ∧
      x.pllGapAt 0 = false ∧ x.calHeldAt 47 0 = false) ∧ ([] : List RawWord).length ≠ 4 := by decide +kernel

theorem witness_ClampsAndTheRotatingSpare :
    let rot := given [(F.CONV_CH_STATUS_NEXT_SLOT 47, 63), (F.CONV_ROT_CTRL_EN, 1), (F.CONV_ROT_CTRL_MAX_DEFER, 1),
      (F.CONV_CH_CTRL_ROT_HOLD 47, 0), (F.CONV_MODE_PAIR, 0), (wordFld R.CONV_FENCE_CH, 0), (wordFld (R.CONV_FENCE_CH + 4), 0),
      (F.CONV_ROT_DUE_DEFERRED 47, 0)]
    let meets := withGrp (given [(wordFld (R.TRG_GRP_CH 0), 0), (wordFld (R.TRG_GRP_CH 0 + 4), 32768)]) 0
      { armedGrp with cur := some { aRec with e := 2047 } }
    let s := rot.setChan 47 { Chan.init with spare := some 64, due := some 2048 }
    ((State.reset.chan 47).clamp = none ∧ paired (rot.cfgAt 0) 47 = false) ∧
    ((State.reset.setChan 0 { Chan.init with clamp := some 9 }).chan 0).clamp = some 9 ∧
    (let t := State.reset.setChan 47 { Chan.init with takeover := some 63, spare := some 64 }
     (t.chan 47).takeover = some 63 ∧ (t.chan 47).spare = some 64) ∧ (State.reset.chan 47).takeover = none ∧
    (let t := State.reset.setChan 0 { Chan.init with takeover := some 0, spare := none }
     (t.chan 0).takeover ≠ none ∧ (t.chan 0).spare = none) ∧
    ((s.chan 47).spare = some 64 ∧ (s.chan 47).due = some 2048 ∧ (s.chan 47).takeover = none ∧
      s.get (F.CONV_CH_STATUS_NEXT_SLOT 47) = 63 ∧ s.nextTick = 2048 ∧ (s.chan 47).rotAt ≠ some 2048 ∧
        bitOf s.fenceMask 47 = false ∧
      paired s.regs 47 = false ∧ s.flag F.CONV_ROT_CTRL_EN = true ∧ s.flag (F.CONV_CH_CTRL_ROT_HOLD 47) = false ∧
      bitOf s.calMask 47 = false ∧ s.windowMeets 47 2048 = false ∧ meets.windowMeets 47 2048 = true ∧
      s.get (F.CONV_ROT_DUE_DEFERRED 47) < s.get F.CONV_ROT_CTRL_MAX_DEFER) := by decide +kernel

theorem witness_EstimatesAndTheSlotMonitor :
    let e : TrimEst := ⟨0, 65536, List.replicate 9 0, 0, false, false⟩
    let s := (given [(F.CONV_ROT_CTRL_EN, 1)]).setChan 47 { Chan.init with spare := some 64 }
    let m := State.reset.setChan 0 { Chan.init with
      spare := some 64, monWords := 1, monSum := [(5, 2000)], monBad := [(5, (1, 0))] }
    ((s.chan 47).spare = some 64 ∧ s.flag F.CONV_ROT_CTRL_EN = true ∧ estBad e = false ∧ e.taps.length = 9) ∧
    (64 < 65 ∧ (s.chan 47).takeover = none ∧ estBad { e with off := 2049 } = true ∧ e.disturbed = false ∧
      { e with disturbed := true }.disturbed = true) ∧
    (State.reset.setChan 47 { Chan.init with spare := none }).chan 47 = { Chan.init with spare := none } ∧
    (State.reset.chan 47).monWords = 0 ∧
    ((m.chan 0).monWords ≠ 0 ∧ (m.chan 0).spare ≠ none ∧ (m.chan 0).takeover = none ∧
      ∀ i : Fin 64, (2 ≤ ((m.chan 0).missesOf i).1 ∨ 2 ≤ ((m.chan 0).missesOf i).2) ↔ i = 5) ∧
    (let q := { Chan.init with monWords := 1 }
     ∀ j : Fin 64, (q.missesOf j).1 < 2 ∧ (q.missesOf j).2 < 2) := by decide +kernel

theorem emptyRing_free (l p : Nat) : armedGrp.slotFree l p = true := rfl

theorem witness_GroupsFillRecordAndRearm :
    let st := fun w v => given [(F.TRG_GRP_CTRL_PRE_WAIT 15, w), (F.TRG_GRP_STATUS_STATE 15, v), (F.REC_GRP_CTRL_MODE 15, 0)]
    let fill := withGrp (st 1 1) 15 { armedGrp with claim := some 0 }
    let rec_ := withGrp (st 0 3) 15 { armedGrp with cur := some aRec }
    let cont := withGrp (given [(F.REC_GRP_CTRL_MODE 15, 2)]) 15 { armedGrp with cur := some aRec }
    let re := withGrp (st 0 4) 15 { armedGrp with ePrev := some 163, region := 90 }
    (fill.flag (F.TRG_GRP_CTRL_PRE_WAIT 15) = true ∧ (fill.grp 15).claim ≠ none ∧ (fill.grp 15).cur = none ∧
      (fill.grp 15).readyFrom = none ∧ isCont fill.regs 15 = false) ∧
    (st 0 2).flag (F.TRG_GRP_CTRL_PRE_WAIT 15) = false ∧
    ((rec_.grp 15).cur = some aRec ∧ isCont rec_.regs 15 = false ∧ (cont.grp 15).cur = some aRec ∧ isCont cont.regs 15 = true) ∧
    (State.reset.grp 15).cur = none ∧
    (re.abaSkip = [] ∧ (re.grp 15).armed = true ∧ (re.grp 15).cur = none ∧ (re.grp 15).claim = none ∧ (re.grp 15).hold = false ∧
      isCont re.regs 15 = false ∧ (re.grp 15).ePrev = some 163 ∧ (re.grp 15).region ≤ 163 ∧ (re.grp 15).stopReq = none ∧
      (re.grp 15).slots = armedGrp.slots ∧ (re.grp 15).winFrom = none) ∧ (State.reset.grp 15).ePrev = none := by decide +kernel

/-- The same record with measurement entries. -/
def meRec : Rec := { aRec with lay := { aLay with meas := 2 } }

theorem witness_RecordsOpenAndClose :
    let c := withGrp (given [(F.REC_GRP_CTRL_MODE 0, 2)]) 0 armedGrp
    let f := withGrp State.reset 15 { Grp.init with closing := [aRec] }
    let m := withGrp State.reset 0 { Grp.init with closing := [meRec] }
    (isCont c.regs 0 = true ∧ (c.grp 0).armed = true ∧ (c.grp 0).cur = none ∧ (c.grp 0).hold = false ∧ (c.grp 0).stopReq = none ∧
      (c.grp 0).slots = armedGrp.slots) ∧ isCont (given [(F.REC_GRP_CTRL_MODE 15, 1)]).regs 15 = false ∧
    ((f.grp 15).closing = aRec :: [] ∧ f.abaSkip = [] ∧ aRec.lay.meas = 0 ∧ (m.grp 0).closing = meRec :: [] ∧ meRec.lay.meas ≠ 0 ∧
      m.abaQ.length < 64) ∧
    (({ m with abaQ := List.replicate 64 ⟨0, aRec, 0, []⟩ } : State).abaQ).length = 64 ∧ (State.reset.grp 15).closing = [] := by
  decide +kernel

theorem witness_SlotsFreeAndRelease :
    let h := withGrp (given [(F.REC_GRP_CTRL_MODE 15, 1)]) 15 { armedGrp with hold := true }
    let r := withGrp State.reset 15 { Grp.init with slots := [aSlot] }
    let w := withGrp State.reset 0 { Grp.init with slots := [{ aSlot with measured := false }] }
    ((h.grp 15).hold = true ∧ (h.grp 15).armed = true ∧ (h.grp 15).stopReq = none ∧ isCont h.regs 15 = false ∧
      (h.grp 15).slots = armedGrp.slots) ∧ (State.reset.grp 15).hold = false ∧
    (r.abaSkip = [] ∧ (r.grp 15).slots.find? (fun y => y.ready) = some aSlot ∧
      (r.grp 15).slots.find? (fun y => y.num == aSlot.num) = some aSlot ∧ aSlot.measured = true) ∧
    (w.grp 0).slots.find? (fun y => y.ready) = some { aSlot with measured := false } ∧
    (w.grp 0).slots.find? (fun y => y.num == aSlot.num) = some { aSlot with measured := false } ∧
    (State.reset.grp 15).slots.find? (fun y => y.ready) = none := by decide +kernel

/-- A record of group 15 to measure; no channel of the group has entries. -/
def aJob : AbaJob := ⟨15, aRec, 170, (given [(wordFld (R.TRG_GRP_CH 15), 0), (wordFld (R.TRG_GRP_CH 15 + 4), 0)]).regs⟩

theorem witness_AbacusMeasuresTheHead :
    let s : State := { granting 4194304 [] with abaQ := [aJob] }
    let w : State := { granting 0 [] with abaQ := [aJob], sto := { Sto.init with reqs := [⟨2, abaKey, 8, 0⟩] } }
    (s.abaQ = aJob :: [] ∧ s.abaSkip = [] ∧ ((s.at_ 202).ask 2 abaKey aJob.work.bytes).1 = true ∧
      s.sto.reqs.any (fun r => r.cls == 2 && r.key == abaKey) = false ∧ Mem.wf 0 s.store = true ∧ s.sto.failed = []) ∧
    (w.abaQ = aJob :: [] ∧ ((w.at_ 202).ask 2 abaKey aJob.work.bytes).1 = false) ∧ State.reset.abaQ = [] := by
  decide +kernel

/-- The settings of sets of two records. -/
def aAvgCfg : AvgCfg := { AvgCfg.init with len := 64, count := 2 }

/-- A landed record. -/
def aLanded (cfg : AvgCfg) : AvgJob := ⟨7, 6553600, 100, 1, 6400, 164, 0, ⟨false, false, false⟩, false, cfg⟩

theorem witness_AveragesTakeLandedRecords :
    let s := (granting 4194304 []).setAvg 15 { Avg.init with landed := [aLanded aAvgCfg] }
    let w := (granting 0 []).setAvg 15 { Avg.init with landed := [aLanded aAvgCfg] }
    let n := (5 * aAvgCfg.len / 4 + 12 * aAvgCfg.len) * (bitsSet 48 (aLanded aAvgCfg).mask).length
    let l := (granting 4194304 []).setAvg 15 { Avg.init with landed := [aLanded { aAvgCfg with count := 1 }] }
    let p := State.reset.setAvg 0 { Avg.init with landed := [aLanded aAvgCfg], paused := true }
    ((s.avg 15).landed = aLanded aAvgCfg :: [] ∧ (s.avg 15).paused = false ∧ (aLanded aAvgCfg).cut = false ∧
      (s.ask 2 15 n).1 = true ∧ (s.avg 15).count + 1 < aAvgCfg.count ∧ Mem.wf 0 s.store = true) ∧
    ((l.avg 15).landed = aLanded { aAvgCfg with count := 1 } :: [] ∧ (l.ask 2 15 n).1 = true ∧ 1 ≤ (l.avg 15).count + 1) ∧
    ((w.avg 15).landed = aLanded aAvgCfg :: [] ∧ (w.ask 2 15 n).1 = false) ∧
    ((p.avg 0).landed = aLanded aAvgCfg :: [] ∧ (p.avg 0).paused = true) ∧ (State.reset.avg 15).landed = [] := by decide +kernel

/-- A copy that runs from core cycle 2048 on, into the ring's first pages or lost. -/
def aCopy (page : Option Nat) : DbCopy := ⟨2048, 1, 0, [(5, 9)], 3, page, 0, 0, 1⟩

theorem witness_HitDatabasesDrawAndDecay :
    let mode := given [(F.TAL_DB_DECAY_MODE 7, 1), (F.TAL_DB_DECAY_PER_TICKS 7, 16)]
    let s := mode.setDb 7 { Db.init with sweep := some (4096, [3]), cells := [(3, 9), (5, 9)] }
    let drawn := fun b : Nat => { given [(wordFld R.CONV_FENCE_CH, b), (wordFld (R.CONV_FENCE_CH + 4), 0)] with hitQ := [⟨7, 0, 6, [1, 2]⟩] }
    ((drawn 0).hitQ = ⟨7, 0, 6, [1, 2]⟩ :: [] ∧ bitOf (drawn 0).fenceMask 0 = false ∧ bitOf (drawn 1).fenceMask 0 = true) ∧
    State.reset.hitQ = [] ∧
    ((mode.db 7).sweep = none ∧ (mode.db 7).copy = none ∧ mode.get (F.TAL_DB_DECAY_MODE 7) ≠ 0 ∧
      ((mode.setDb 7 { Db.init with copy := some (aCopy none) }).db 7).copy ≠ none) ∧
    ((s.db 7).sweep = some (4096, [3]) ∧ (s.db 7).decayReq = false) ∧
    (let w := mode.setDb 7 { Db.init with sweep := some (4096, []), decayReq := true }
     (w.db 7).sweep = some (4096, []) ∧ (w.db 7).decayReq = true ∧ (w.db 7).copy = none) ∧ (State.reset.db 7).sweep = none := by
  decide +kernel

theorem witness_HitDatabasesSnapAndClear :
    let ticks := fun v => given [(F.TAL_DB_SNAP_TICKS 7, v)]
    let q := (granting 4194304 [(F.TAL_RING_SIZE_PAGES, 65)]).setDb 7 { Db.init with snapReq := true, clearReq := true }
    let w := (granting 0 []).setDb 7 { Db.init with snapReq := true }
    let c := fun p => State.reset.setDb 0 { Db.init with copy := some (aCopy p) }
    ((ticks 1).get (F.TAL_DB_SNAP_TICKS 7) ≠ 0 ∧ (ticks 0).get (F.TAL_DB_SNAP_TICKS 7) = 0) ∧
    ((q.db 7).snapReq = true ∧ (∀ k < 8, (q.db k).copy = none) ∧
      ((q.at_ (boundaryAt q.lcnt)).ask 2 (snapKey 7) 2097152).1 = true ∧ (q.db 7).sweep = none ∧ q.frames = [] ∧
      65 ≤ q.get F.TAL_RING_SIZE_PAGES) ∧
    ((w.db 7).snapReq = true ∧ (∀ k < 8, (w.db k).copy = none) ∧
      ((w.at_ (boundaryAt w.lcnt)).ask 2 (snapKey 7) 2097152).1 = false) ∧
    ((c none).db 0).copy = some (aCopy none) ∧ ((c (some 0)).db 0).copy = some (aCopy (some 0)) ∧ (aCopy (some 0)).page = some 0 ∧
    ((q.db 7).clearReq = true ∧ (q.db 7).copy = none ∧ q.hitQ = []) ∧
    (let d : State := { q with hitQ := [⟨7, 0, 6, [1]⟩], lcnt := 7 }
     d.hitQ = ⟨7, 0, 6, [1]⟩ :: [] ∧ d.hitStart ⟨7, 0, 6, [1]⟩ < boundaryAt d.lcnt) ∧ (State.reset.db 7).clearReq = false := by
  decide +kernel

theorem witness_FilterChainsDeliver :
    let o : FltOut := ⟨0, 0, [5], [(0, 5)], ⟨false, false, false⟩, 64⟩
    let s := (given [(wordFld (R.TRG_GRP_CH 0), 0)]).setChain 47 { Chain.init with outs := [o] }
    let g := given [(wordFld (R.TRG_GRP_CH 0), 1), (wordFld (R.TRG_GRP_CH 0 + 4), 0)]
    (s.chain 47).outs = o :: [] ∧ groupOf g.regs 0 = some 0 ∧ groupOf State.reset.regs 47 = none ∧
    (State.reset.chain 47).outs = [] := by decide +kernel

/-- A store of 2^20 pages whose scrubber stands at page p, and a tick of b bytes. -/
def scrubbing (b p : Nat) : State := granting b [(F.STO_CAP_PAGES, 1048576), (F.STO_STATUS_UE_SEEN, 0), (F.STO_SCRUB_POS_PAGE, p)]

theorem witness_StoreReadsCountTheirErrors :
    let s := scrubbing 4194304 0
    let last : State := { scrubbing 4194304 1048575 with sto := { Sto.init with scrubSeen := List.range 255 } }
    let row : State := { s with sto := { Sto.init with
      laneCrc := [(s.pcOf 0, 16)]
      rowCe := [(rowKey (s.pcOf 0) (s.rowOf 0), 1)] } }
    s.capPages * 65536 ≤ 1048576 * 65536 ∧ 1048576 * 65536 - 1 < s.capPages * 65536 ∧
    (s.sto.ueTick = [] ∧ s.flag F.STO_STATUS_UE_SEEN = false ∧ Tab.get 0 s.sto.rowCe (rowKey (s.pcOf 0) (s.rowOf 0)) = 0) ∧
    (given [(F.STO_STATUS_UE_SEEN, 1)]).flag F.STO_STATUS_UE_SEEN = true ∧
    (1 ≤ Tab.get 0 row.sto.rowCe (rowKey (row.pcOf 0) (row.rowOf 0)) ∧ row.sto.copies = [] ∧
      Tab.get 0 row.sto.rowsUsed (row.pcOf 0) < 64 ∧ 16 < Tab.get 0 row.sto.laneCrc (row.pcOf 0) + 1) ∧
    s.scrubs (65536 / 256) = false ∧ (s.scrubs 0 = true ∧ ((scrubbing 0 0).ask 4 0 256).1 = false ∧
      (scrubbing 0 0).scrubs 0 = true) ∧
    (0 / 65536 = s.get F.STO_SCRUB_POS_PAGE ∧ 0 ∉ s.sto.scrubSeen ∧ (s.ask 4 0 256).1 = true ∧ s.sto.scrubSeen.length + 1 < 256) ∧
    (1048575 * 65536 / 65536 = last.get F.STO_SCRUB_POS_PAGE ∧ 1048575 * 256 ∉ last.sto.scrubSeen ∧
      (last.ask 4 (1048575 * 256) 256).1 = true ∧ 256 ≤ last.sto.scrubSeen.length + 1 ∧
      last.capPages ≤ last.get F.STO_SCRUB_POS_PAGE + 1) := by decide +kernel

theorem witness_StoreSparesAndStackFailure :
    let sp : Sto := { Sto.init with
      copies := [(127, 5)]
      laneDue := [127, 0]
      laneUsed := [0]
      failed := [3] }
    let s : State := { granting 4194304 [] with sto := sp }
    let w : State := { granting 0 [] with sto := sp }
    (s.sto.copies.any (fun c => c.1 == 127 && c.2 == 5) = true ∧ (s.ask 6 (rowKey 127 5) 4096).1 = true) ∧
    (w.sto.copies.any (fun c => c.1 == 127 && c.2 == 5) = true ∧ (w.ask 6 (rowKey 127 5) 4096).1 = false) ∧
    State.reset.sto.copies = [] ∧ (127 ∈ s.sto.laneDue ∧ 127 ∉ s.sto.laneUsed) ∧
    (0 ∈ s.sto.laneDue ∧ 0 ∈ s.sto.laneUsed ∧ 0 ∉ s.sto.pendPc) ∧ 1 ∉ s.sto.laneDue ∧ 0 ∉ s.sto.failed ∧ 3 ∈ s.sto.failed ∧
    (withGrp s 15 armedGrp).grp 15 = armedGrp := by decide +kernel

theorem witness_PortsLinkAndCount :
    let s := (given [(F.STM_LG_MODE_MODE, 0), (F.STM_PORT_CTRL_EN 127, 1), (F.STM_PORT_STATUS_LINK 127, 1)]).setPort 127
      { Port.init with fecRun := 1025, fecTick := 4 }
    let t : State := { s with lcnt := 5 * tickLen }
    (isPort s.regs 127 = true ∧ s.flag (F.STM_PORT_CTRL_EN 127) = true ∧ bitOf s.pwr.laneFence (127 / 16) = false) ∧
    isPort (given [(F.STM_LG_MODE_MODE, 1)]).regs 1 = false ∧
    (given [(F.STM_PORT_CTRL_EN 0, 0)]).flag (F.STM_PORT_CTRL_EN 0) = false ∧
      bitOf ({ Pwr.init with laneFence := 1 }).laneFence 0 = true ∧
    s.linkUp 127 = true ∧ (given [(F.STM_PORT_STATUS_LINK 0, 0)]).linkUp 0 = false ∧
    ((t.port 127).fecRun ≠ 0 ∧ t.lcnt / tickLen = (t.port 127).fecTick + 1) ∧ 1024 < (s.port 127).fecRun ∧
    (State.reset.port 0).fecRun ≤ 1024 := by decide +kernel

theorem witness_PausesHoldAndExpire :
    let s := given [(F.STM_LG_MODE_MODE, 0), (F.STM_PORT_CTRL_PAUSE_EN 127, 1), (F.STM_PORT_CTRL_PFC_EN 127, 0)]
    let f := given [(F.STM_LG_MODE_MODE, 0), (F.STM_PORT_CTRL_PFC_EN 0, 1)]
    let l := (given [(F.STM_PORT_CTRL_PFC_EN 0, 0), (F.STM_PORT_STATUS_PAUSE_LONG 0, 0)]).setPort 0
      { Port.init with pauseFrom := some 5, pauseTo := some (10 ^ 12) }
    (isPort s.regs 127 = true ∧ s.flag (F.STM_PORT_CTRL_PAUSE_EN 127) = true ∧ s.flag (F.STM_PORT_CTRL_PFC_EN 127) = false) ∧
    ((List.replicate 8 3).length = 8 ∧ isPort f.regs 0 = true ∧ f.flag (F.STM_PORT_CTRL_PFC_EN 0) = true ∧
      (List.replicate 8 3)[7]? = some 3) ∧ (List.replicate 7 3).length ≠ 8 ∧
    (s.port 127).pauseTo = none ∧ (l.flag (F.STM_PORT_CTRL_PFC_EN 0) = false ∧ (l.port 0).pauseTo = some (10 ^ 12)) ∧
    (isPort (given [(F.STM_LG_MODE_MODE, 2)]).regs 1 = false) ∧ ({ Port.init with longSeen := true }).longSeen = true ∧
    ((l.port 0).pauseFrom = some 5 ∧ (l.at_ (5 + l.cyclesOf 1 10)).heldPrio 0 7 = true ∧
      (l.port 0).longSeen = false) ∧ (State.reset.port 127).pauseFrom = none := by decide +kernel

/-- A packet of stream 1023 with the smallest payload, no record behind it. -/
def aPkt : Pkt := ⟨1023, 0, 9, 0, 0, none, 1, 2, 3, 4, 5, false, List.replicate 64 0, 64, .none⟩

/-- Stream 1023 goes out on port 127, which has its link. -/
def sending (b : Nat) : State := granting b [(F.TWIN_STATUS_ROLE, 0), (F.STM_Q_CTRL_EN 1023, 1), (F.STM_Q_CTRL_TMARK_EN 1023, 1),
  (F.STM_Q_TMARK_TICKS 1023, 0), (F.STM_Q_PORTS_PORTS 1023 0, 0), (F.STM_Q_PORTS_PORTS 1023 1, 0), (F.STM_Q_PORTS_PORTS 1023 2, 0),
  (F.STM_Q_PORTS_PORTS 1023 3, 2 ^ 31), (F.STM_PORT_STATUS_LINK 127, 1), (F.STM_Q_FRAME_FRAME_MAX 1023, 1518),
  (F.STM_PORT_CTRL_PFC_EN 127, 0)]

theorem witness_StreamsFormAndPortsSend :
    let i : StItem := ⟨.frame 0, 1, 0, 0, [], [(0, 64)]⟩
    let s := (sending 4194304).setStrm 1023 { Strm.init with cur := some i }
    let w := (sending 0).setStrm 1023 { Strm.init with cur := some i }
    let m : State := { sending 0 with tick := 3 * tickLen }
    let dark := given [(F.TWIN_STATUS_ROLE, 1), (F.STM_Q_PORTS_PORTS 0 0, 0), (F.STM_Q_PORTS_PORTS 0 1, 0), (F.STM_Q_PORTS_PORTS 0 2, 0),
      (F.STM_Q_PORTS_PORTS 0 3, 0), (F.STM_Q_CTRL_EN 0, 0)]
    (given [(F.TWIN_STATUS_ROLE, 2)]).get F.TWIN_STATUS_ROLE = 2 ∧
    (dark.get F.TWIN_STATUS_ROLE ≠ 2 ∧ dark.flag (F.STM_Q_CTRL_EN 0) = false ∧ (dark.portSet 0).filter dark.linkUp = []) ∧
    (w.get F.TWIN_STATUS_ROLE ≠ 2 ∧ w.flag (F.STM_Q_CTRL_EN 1023) = true ∧ (w.portSet 1023).filter w.linkUp ≠ [] ∧
      (w.ask 0 1023 (w.formBytes 1023)).1 = false) ∧
    (s.get F.TWIN_STATUS_ROLE ≠ 2 ∧ s.flag (F.STM_Q_CTRL_EN 1023) = true ∧ s.pickPort 1023 = some 127 ∧ (s.strm 1023).cur = some i ∧
      i.ranges = (0, 64) :: [] ∧ 64 ≤ s.fragment 1023 ∧ (s.ask 0 1023 (s.formBytes 1023)).1 = true) ∧
    (m.flag (F.STM_Q_CTRL_TMARK_EN 1023) = true ∧ m.tick % (tickLen * max 1 (m.get (F.STM_Q_TMARK_TICKS 1023))) = 0 ∧
      (m.strm 1023).marker ≠ some m.tick ∧ m.pickPort 1023 = some 127) := by decide +kernel

theorem witness_StreamsFormAndPortsSend_ports :
    let snd := (sending 0).setPort 127 { Port.init with queue := [aPkt] }
    let a := given ([(F.STM_LG_MODE_MODE, 0), (F.STM_PORT_CTRL_PFC_EN 127, 0), (F.STM_PORT_IPV4_ADDR 127, 0xC0A80001),
      (F.STM_PORT_IPV6_ADDR 127 0, 0xFE800000), (F.STM_PORT_IPV6_ADDR 127 1, 0), (F.STM_PORT_IPV6_ADDR 127 2, 0), (F.STM_PORT_IPV6_ADDR 127 3, 1)])
    ((State.reset.port 0).started = none ∧ (given [(F.STM_PORT_STATUS_LINK 0, 0)]).linkUp 0 = false ∧
      State.reset.nextPkt 0 = none) ∧
    ((snd.port 127).started = none ∧ snd.linkUp 127 = true ∧ (snd.nextPkt 127).map (fun r => r.1) = some aPkt) ∧
    ({ Port.init with started := some aPkt }).started = some aPkt ∧
    (isPort a.regs 127 = true ∧ a.get (F.STM_PORT_IPV4_ADDR 127) ≠ 0 ∧ 0xC0A80001 = a.get (F.STM_PORT_IPV4_ADDR 127) ∧
      (a.port 127).ctl = [] ∧ a.heldPrio 127 0 = false) ∧
    (let p := a.setPort 127 { Port.init with pauseTo := some 9 }
     (p.port 127).ctl = [] ∧ p.heldPrio 127 0 = true) ∧
    (a.ipv6Of 127 ≠ List.replicate 16 (0 : Byte) ∧ beBytes 16 0xFE800000000000000000000000000001 = a.ipv6Of 127 ∧
      0xFE800000000000000000000000000001 < 2 ^ 128) ∧ beBytes 16 0 ≠ a.ipv6Of 127 := by decide +kernel

theorem witness_FunctionsReadAndReset :
    let s := granting 4194304 [(F.STO_CAP_PAGES, 65536), (F.DMA_BAR2_BASE_GIB 63, 1), (F.DMA_BAR2_BASE_GIB 0, 64)]
    let w := granting 0 [(F.STO_CAP_PAGES, 65536), (F.DMA_BAR2_BASE_GIB 63, 1)]
    let b : State := { s with sto := { Sto.init with bad := [2 ^ 22] } }
    (State.reset.cfgReady = false ∧ ({ State.reset with cfgReady := true } : State).cfgReady = true ∧ 63 ∉ State.reset.msix.fns) ∧
    (State.reset.pwr.coreLoss = false ∧ State.reset.pwr.thermalHold = false) ∧
    (2 ^ 30 = 2 ^ 30 * min 64 (s.get (F.DMA_BAR2_BASE_GIB 63)) + 0 ∧ 2 ^ 30 + 8 ≤ s.capBytes ∧ (s.ask 1 (2048 + 63) 8).1 = true ∧
      (s.readBytes (2 ^ 30) 8).2 = false) ∧
    (2 ^ 30 = 2 ^ 30 * min 64 (b.get (F.DMA_BAR2_BASE_GIB 63)) + 0 ∧ (b.ask 1 (2048 + 63) 8).1 = true ∧
      (b.readBytes (2 ^ 30) 8).2 = true) ∧
    (2 ^ 30 + 8 ≤ w.capBytes ∧ (w.ask 1 (2048 + 63) 8).1 = false) ∧
    s.capBytes < 2 ^ 30 * min 64 (s.get (F.DMA_BAR2_BASE_GIB 0)) + 0 + 8 ∧
    (given [(F.DMA_Q_OWNER_VALID 0, 0)]).flag (F.DMA_Q_OWNER_VALID 0) = false ∧
    (let o := given [(F.DMA_Q_OWNER_VALID 1023, 1), (F.DMA_Q_OWNER_FUNC 1023, 63)]
     o.flag (F.DMA_Q_OWNER_VALID 1023) = true ∧ o.get (F.DMA_Q_OWNER_FUNC 1023) = 63) := by decide +kernel

theorem witness_QueuesStartRingAndAbort :
    let own := fun st => given [(F.DMA_Q_OWNER_VALID 1023, 1), (F.DMA_Q_OWNER_FUNC 1023, 63), (F.STM_Q_CTRL_EN 1023, 0),
      (F.DMA_QC_STATUS_STATE 1023, st), (F.DMA_QC_HOPS_HOPS 1023, 1048575)]
    let re := (own 2).setHostq 1023 { HostQ.init with fetch := some (64, true) }
    (1 % 4096 ≠ 0) ∧ ((own 0).reaches 63 1023 = true ∧ (own 0).reaches 0 1023 = true ∧ (own 0).isHostQ 1023 = true) ∧
      (own 0).reaches 62 1023 = false ∧
    (own 0).get (F.DMA_QC_STATUS_STATE 1023) = 0 ∧
    ((own 3).get (F.DMA_QC_STATUS_STATE 1023) = 3 ∧ (own 3).get (F.DMA_QC_HOPS_HOPS 1023) ≠ 1048576) ∧
    ((own 2).get (F.DMA_QC_STATUS_STATE 1023) = 2 ∧ ((own 2).hostq 1023).fetch = none) ∧
      (re.hostq 1023).fetch = some (64, true) := by
  decide +kernel

/-- A descriptor: operation, control, length, addresses, next. -/
def aDesc (op ctl len src dst next : Nat) : Desc := ⟨0, op, ctl, len, src, dst, next, 0, 0, 0, false⟩

/-- A queue that runs a descriptor, in a tick of the store of b bytes. -/
def running (b q : Nat) (d : Desc) (l : Option Nat) (more : List (Fld × Nat)) : State :=
  (granting b ([(F.DMA_QC_STATUS_STATE q, 1), (F.DMA_QC_HOPS_HOPS q, 1), (F.DMA_QC_CTRL_PRIO q, 0), (F.STO_CAP_PAGES, 16)] ++ more)).setHostq q
    { HostQ.init with cur := some (d, l) }

/-- The 64 bytes of a NOP descriptor of 64 bytes without END. -/
def nopBytes : List Byte := [1, 0, 0, 0, 64, 0, 0, 0] ++ List.replicate 56 0

/-- No group has channels, no averaging and no hit database is on: nothing of the store is protected. -/
def nothingKept : List (Fld × Nat) :=
  (List.range 16).flatMap (fun g => [(wordFld (R.TRG_GRP_CH g), 0), (wordFld (R.TRG_GRP_CH g + 4), 0), (F.TAL_AVG_CTRL_EN g, 0),
    (F.TAL_DB_SRC_EN (g % 8), 0)])

theorem witness_DescriptorsFetchReadAndCopy :
    let f := State.reset.setHostq 1023 { HostQ.init with fetch := some (64, false) }
    let n := running 0 1023 (aDesc 0 4 64 0 0 128) none []
    let r := fun b => running b 0 (aDesc 1 0 64 0 4096 128) none []
    ((List.replicate 63 (0 : Byte)).length ≠ 64 ∧ nopBytes.length = 64 ∧ (State.reset.hostq 0).fetch = none) ∧
    ((f.hostq 1023).fetch = some (64, false) ∧ (parseDesc 64 nopBytes).bad = false ∧
      (parseDesc 64 (List.replicate 64 0)).bad = true ∧ (f.hostq 1023).pend = [] ∧ (f.hostq 1023).recd = none) ∧
    State.reset.work 0 0 = none ∧
    (n.work 1023 0 = some (aDesc 0 4 64 0 0 128, none) ∧ (n.hostq 1023).pend = [] ∧ n.get (F.DMA_QC_HOPS_HOPS 1023) ≠ 1048576) ∧
    ((r 4194304).work 0 1 = some (aDesc 1 0 64 0 4096 128, none) ∧ ((r 4194304).hostq 0).pend = [] ∧ ((r 4194304).hostq 0).pos = 0 ∧
      ((r 4194304).hostq 0).bad = false ∧ 0 + 64 ≤ (r 4194304).capBytes ∧ readBurst (aDesc 1 0 64 0 4096 128) 0 = 64 ∧
      (r 4194304).dmaPick [] = some 0 ∧ ((r 4194304).ask 1 0 64).1 = true) ∧
    ((r 0).work 0 1 ≠ none ∧ (r 0).dmaPick [] = some 0 ∧ ((r 0).ask 1 0 ((r 0).burstCost 0)).1 = false) := by decide +kernel

theorem witness_DescriptorsFetchReadAndCopy_copy :
    let c := fun b => running b 0 (aDesc 2 0 64 0 4096 128) none nothingKept
    ((c 4194304).work 0 2 = some (aDesc 2 0 64 0 4096 128, none) ∧ (c 4194304).hostqs.all (fun x => x.1 == 0) = true ∧
      Mem.wf 0 (c 4194304).store = true ∧ ((c 4194304).hostq 0).pend = [] ∧ ((c 4194304).hostq 0).pos = 0 ∧ 0 / 8 % 4 = 0 ∧
        0 / 32 % 4 = 0 ∧
      0 + 64 ≤ (c 4194304).capBytes ∧ 4096 + 64 ≤ (c 4194304).capBytes ∧ (c 4194304).protected_ 4096 64 = false ∧
      copyBurst (aDesc 2 0 64 0 4096 128) 0 = (0, 64) ∧ ((c 4194304).ask 1 0 (2 * 64)).1 = true ∧ (c 4194304).dead 4096 = false) ∧
    ((c 0).work 0 2 ≠ none ∧ (c 0).dmaPick [] = some 0 ∧ ((c 0).ask 1 0 ((c 0).burstCost 0)).1 = false) := by decide +kernel

/-- A record of group 15 that queue 1023 delivers: one channel, 64 elements of 16 bits. -/
def aQRec : QRec := ⟨15, 7, [100], ⟨1, 256, 256, 0, 64, 1, 16, 64, 0, 0, 0, 64⟩, none⟩

theorem witness_RecordsReleaseAndErrorsHalt :
    let bound := [(F.DMA_QC_CTRL_BIND 1023, 1), (F.DMA_QC_CTRL_GROUP 1023, 0), (F.DMA_QC_CTRL_MEAS 1023, 0), (F.DMA_QC_OFFSET_BYTES 1023, 0)]
    let w := fun b op => (running b 1023 (aDesc op 0 64 0 0 128) none bound).setHostq 1023
      { HostQ.init with cur := some (aDesc op 0 64 0 0 128, none), recd := some aQRec }
    (State.reset.work 0 3 = none ∧ State.reset.work 0 4 = none) ∧
    ((running 0 1023 (aDesc 3 0 64 0 0 128) none bound).flag (F.DMA_QC_CTRL_BIND 1023) = true ∧
      (running 0 1023 (aDesc 3 0 64 0 0 128) none bound).currentRec 1023 = none) ∧
    ((w 4194304 3).work 1023 3 = some (aDesc 3 0 64 0 0 128, none) ∧ (w 4194304 3).currentRec 1023 = some aQRec ∧ aQRec.g < 16 ∧
      ((w 4194304 3).hostq 1023).pend = [] ∧ (w 4194304 3).hostqs.all (fun x => x.1 == 1023) = true ∧
      ((w 4194304 3).recOut 1023 (aDesc 3 0 64 0 0 128) aQRec).isSome = true ∧
      ((w 4194304 3).ask 1 1023 ((w 4194304 3).burstCost 1023)).1 = true) ∧
    ((w 0 3).work 1023 3 ≠ none ∧ (w 0 3).dmaPick [] = some 1023 ∧ ((w 0 3).ask 1 1023 ((w 0 3).burstCost 1023)).1 = false) ∧
    ((w 0 4).work 1023 4 = some (aDesc 4 0 64 0 0 128, none) ∧ (w 0 4).get (F.DMA_QC_HOPS_HOPS 1023) ≠ 1048576) := by decide +kernel

theorem witness_RecordsReleaseAndErrorsHalt_errors :
    let c : Comp := ⟨aDesc 1 4 64 0 0 128, 0, 0, 64, none, true, 5, none, QMark.init, none⟩
    let pend := State.reset.setHostq 1023 { HostQ.init with pend := [c] }
    let done := State.reset.setHostq 1023 { HostQ.init with wrote := some c }
    let f := State.reset.setHostq 1023 { HostQ.init with fetch := some (64, true) }
    (State.reset.hostq 0).pend = [] ∧
    ((pend.hostq 1023).pend = [c] ∧ c.wait = true ∧ c.status = 0 ∧ c.rel = none ∧ c.latch = none ∧ bitOf c.d.ctl 2 = true) ∧
    State.reset.reqSince 0 .fetch = none ∧
    (f.reqSince 1023 .fetch = some 0 ∧ (f.hostq 1023).fetch = some (64, true) ∧ (f.hostq 1023).pend = [] ∧
      (f.hostq 1023).recd = none) ∧
    (pend.reqSince 1023 .readBack = some 5 ∧ c.d.addr = 0 ∧ c.mark.recd = none) ∧ done.reqSince 1023 .completion = some 5 := by
  decide +kernel


theorem witness_DisplayPlugsAndStartsFrames :
    let on := given [(F.DISP_CTRL_EN, 1), (F.DISP_CTRL_EDP, 0), (F.DISP_STATUS_PSR, 0), (F.DISP_EVT_LINE, 480), (F.DISP_V_VACT, 480)]
    let off := given [(F.DISP_CTRL_EN, 0)]
    (let s : State := { on with disp := { Disp.init with hpd := true, sendNext := true } }
     s.disp.hpd = true ∧ s.dispOn = true ∧ s.disp.pend = [] ∧ s.disp.sendNext = true ∧ s.flag F.DISP_CTRL_EDP = false ∧
       s.flag F.DISP_STATUS_PSR = false ∧
       s.get F.DISP_EVT_LINE = s.get F.DISP_V_VACT) ∧
    State.reset.disp.hpd = false ∧ off.dispOn = false ∧
    (let s : State := { off with disp := { Disp.init with stopNext := true } }
     s.flag F.DISP_CTRL_EN = false ∧ s.disp.stopNext = true) ∧ on.flag F.DISP_CTRL_EN = true := by decide +kernel

theorem witness_RasterCountsFramesAndFetches :
    let on := fun b => granting b [(F.DISP_CTRL_EN, 1), (F.DISP_STATUS_PSR, 0), (F.DISP_V_VACT, 480), (F.DISP_EVT_LINE, 479), (F.DISP_SIG_CRC, 0),
      (F.TAL_DB_WFM_CNT_COUNT 0, 4)]
    let l : Latch := ⟨7, 0, some (3, 65536), true⟩
    let d := { Disp.init with
      latches := [l]
      wfm := [4, 0, 0, 0, 0, 0, 0, 0]
      fresh := false }
    let s : State := { on 4194304 with disp := d }
    (s.dispOn = true ∧ s.disp.fresh = false ∧ s.dataMoved = false) ∧
    (let m : State := { s with disp := { s.disp with wfm := [], crc := 4294967295 } }
     m.dataMoved = true ∧ Nat.xor m.disp.crc 4294967295 = m.get F.DISP_SIG_CRC) ∧
    (479 = s.get F.DISP_EVT_LINE ∧ 479 ≠ s.get F.DISP_V_VACT ∧ s.get F.DISP_V_VACT ≤ 480 ∧ 0 < s.get F.DISP_V_VACT ∧
      s.prefilled = false) ∧
    (given [(F.DISP_CTRL_EN, 0)]).dispOn = false ∧
    (s.flag F.DISP_STATUS_PSR = false ∧ (s.disp.rows.filter (fun x => x.1 == 7)).length < 16 ∧
      s.disp.latches.find? (fun y => y.layer == 7 && y.snap.isSome) = some l ∧ l.snap = some (3, 65536) ∧
      1024 = Tab.get 1024 s.disp.left 7 ∧ (s.ask 3 7 4096).1 = true) ∧
    (({ on 0 with disp := d } : State).ask 3 7 4096).1 = false := by decide +kernel

/-- A state whose clock status word holds the loop state and one more field. -/
def clkAt (loop : Nat) (more : List (Fld × Nat)) : State := given ((F.CLK_STATUS_LOOP, loop) :: more)

theorem witness_LoopLossesAndReturns :
    (clkAt 3 []).get F.CLK_STATUS_LOOP = 3 ∧ (clkAt 1 []).get F.CLK_STATUS_LOOP = 1 ∧ (clkAt 2 []).get F.CLK_STATUS_LOOP = 2 ∧
    (clkAt 4 []).get F.CLK_STATUS_LOOP ≠ 3 ∧
    (let s : State := { clkAt 0 [(F.CLK_STATUS_OCXO_RDY, 1)] with cfgReady := true }
     s.get F.CLK_STATUS_LOOP = 0 ∧ s.cfgReady = true ∧ s.flag F.CLK_STATUS_OCXO_RDY = true) ∧
    (let s := clkAt 3 [(F.CLK_LOCK_UNLOCK_N, 4), (F.CLK_LOCK_UNLOCK_WIN, 30)]
     unlockN s.loopRegs ≤ 4 ∧ unlockWin s.loopRegs < 31 ∧ 3 < unlockN s.loopRegs ∧ 30 ≤ unlockWin s.loopRegs) ∧
    ((clkAt 4 []).get F.CLK_STATUS_LOOP = 4 ∧ (clkAt 4 []).clk.toBypass = none) := by decide +kernel

theorem witness_FabricBypassAndReturn :
    let w : State → State := fun s => { s with clk := { Clk.init with toBypass := some 2047 } }
    ((w (clkAt 4 [(F.CLK_STATUS_BYP_OK, 1)])).clk.toBypass = some 2047 ∧
      (w (clkAt 4 [(F.CLK_STATUS_BYP_OK, 1)])).flag F.CLK_STATUS_BYP_OK = true) ∧
    (w (clkAt 4 [])).flag F.CLK_STATUS_BYP_OK = false ∧ State.reset.clk.toBypass = none ∧
    (let s : State := { clkAt 3 [] with clk := { Clk.init with toReturn := some 2047 } }
     s.clk.toReturn = some 2047 ∧ s.get F.CLK_STATUS_LOOP = 3) ∧ State.reset.clk.toReturn = none ∧
    (clkAt 3 [(F.CLK_STATUS_FABRIC_BYP, 1)]).flag F.CLK_STATUS_FABRIC_BYP = true ∧
      (clkAt 3 []).flag F.CLK_STATUS_FABRIC_BYP = false ∧
    ((clkAt 3 [(F.CLK_CTRL_OCXO_WAIT, 1)]).get F.CLK_STATUS_LOOP = 3 ∧
      (clkAt 3 [(F.CLK_CTRL_OCXO_WAIT, 1)]).loopRegs.bit F.CLK_CTRL_OCXO_WAIT = true) ∧
    (clkAt 4 []).get F.CLK_STATUS_LOOP ≠ 3 ∧
    (let s : State := { clkAt 0 [(F.CLK_STATUS_REF_OK, 1)] with cfgReady := true }
     s.get F.CLK_STATUS_LOOP = 0 ∧ s.cfgReady = true ∧ s.flag F.CLK_STATUS_REF_OK = true) := by decide +kernel

theorem witness_LoopSearchesAndLocks :
    let s : State := { clkAt 1 [] with clk := { Clk.init with steps := 8 } }
    let e : State := { clkAt 1 [] with clk := { Clk.init with
      steps := 1
      lo := 254 } }
    let l : State := { clkAt 2 [(F.CLK_CTRL_LEARN, 1), (F.CLK_LOCK_N_LOCK_N, 64), (F.CLK_LOCK_LOCK_WIN, 20)] with clk := { Clk.init with searched := true } }
    (s.get F.CLK_STATUS_LOOP = 1 ∧ 127 = (s.clk.lo + s.clk.hi) / 2 ∧ 128 = min 255 (127 + 1) ∧ 255 = max 128 s.clk.hi ∧
      1 < s.clk.steps) ∧
    (e.get F.CLK_STATUS_LOOP = 1 ∧ 254 = (e.clk.lo + e.clk.hi) / 2 ∧ e.clk.steps = 1) ∧ (clkAt 2 []).get F.CLK_STATUS_LOOP ≠ 1 ∧
    (let u := clkAt 2 [(F.CLK_LOCK_N_LOCK_N, 64), (F.CLK_LOCK_LOCK_WIN, 20)]
     u.get F.CLK_STATUS_LOOP = 2 ∧ u.clk.searched = false ∧ lockN u.loopRegs ≤ 64 ∧ 20 ≤ lockWin u.loopRegs ∧
       (-20 : Int).natAbs ≤ 20 ∧
       63 < lockN u.loopRegs ∧ lockWin u.loopRegs < 21) ∧
    (l.get F.CLK_STATUS_LOOP = 2 ∧ l.clk.searched = true ∧ l.loopRegs.bit F.CLK_CTRL_LEARN = true ∧ lockN l.loopRegs ≤ 64 ∧
      20 ≤ lockWin l.loopRegs) ∧
    (clkAt 3 []).get F.CLK_STATUS_LOOP ≠ 2 := by decide +kernel

theorem witness_EventEdgesGetTheirStamps :
    let on := given [(F.EVT_IN_CTRL_EN 7, 1), (F.EVT_IN_CTRL_SLOPE 7, 0), (F.EVT_IN_CTRL_SEL 7, 0), (F.EVT_IN_CTRL_FUNC 7, 4),
      (F.EVT_IN_STATUS_RUN 7, 1), (F.EVT_INT_CAL_N1 7 1, 6000), (F.EVT_INT_CAL_N2 7 1, 12000), (F.EVT_INT_CAL_N1 7 0, 6000), (F.EVT_INT_CAL_N2 7 0, 12000),
      (F.EVT_INT_CAL_FAILED 7 0, 0), (F.EVT_INT_CAL_FAILED 7 1, 0)]
    let busy := on.setEv 7 { Ev.init with
      ip0 := ⟨10 ^ 9, some (100, true, 3)⟩
      ip1 := ⟨10 ^ 9, some (101, false, 4)⟩ }
    let st := (given [(F.EVT_IN_CTRL_FUNC 0, 1), (F.EVT_IN_STATUS_RUN 0, 1)]).setEv 0 { Ev.init with ip0 := ⟨0, some (100, true, 3)⟩ }
    (given [(F.EVT_IN_CTRL_EN 0, 0)]).flag (F.EVT_IN_CTRL_EN 0) = false ∧
    (on.flag (F.EVT_IN_CTRL_EN 7) = true ∧ slopeOk (on.get (F.EVT_IN_CTRL_SLOPE 7)) true = true ∧ on.get (F.EVT_IN_CTRL_SEL 7) = 0 ∧
      slopeOk (on.get (F.EVT_IN_CTRL_SLOPE 7)) false = false ∧ on.evTaker 7 50 = some 0) ∧ busy.evTaker 7 102 = none ∧
    ((on.ev 7).ip 1).meas = none ∧ ((busy.ev 7).ip 1).meas = some (101, false, 4) ∧
    (busy.evRuns 7 4 = true ∧ busy.get (F.EVT_INT_CAL_N1 7 1) ≠ busy.get (F.EVT_INT_CAL_N2 7 1)) ∧
    (st.evRuns 0 1 = true ∧ (st.ev 0).lost = none ∧ (st.ev 0).fifo.length < 4095 ∧ ((st.ev 0).ip 0).meas = some (100, true, 3)) ∧
    (6000 ≤ 5550 + 450 ∧ 5550 ≤ 6450 ∧ 5550 + 5550 ≤ 11100 ∧ 11100 ≤ 5550 + 6450 ∧ 11100 ≠ 16383) := by decide +kernel

theorem witness_EventMeasurementsStartAndStop :
    let s := fun run fn => (given [(F.EVT_IN_CTRL_EN 7, 1), (F.EVT_IN_CTRL_FUNC 7, fn), (F.EVT_IN_STATUS_RUN 7, run)]).setEv 7
      { Ev.init with startReq := some 2047 }
    [0, 0, 0].length ≠ 4 ∧ ([1, 2, 3, 4].length = 4 ∧ (State.reset.ev 0).startReq = none) ∧
    (((s 0 1).ev 7).startReq = some 2047 ∧ (s 0 1).flag (F.EVT_IN_CTRL_EN 7) = true ∧ (s 0 1).get (F.EVT_IN_CTRL_FUNC 7) ≠ 0) ∧
    (s 0 1).flag (F.EVT_IN_STATUS_RUN 7) = false ∧ (s 1 3).flag (F.EVT_IN_STATUS_RUN 7) = true ∧
    (s 1 3).get (F.EVT_IN_CTRL_FUNC 7) = 3 ∧ (s 1 4).get (F.EVT_IN_CTRL_FUNC 7) = 4 ∧
    ((s 1 2).get (F.EVT_IN_CTRL_FUNC 7) ≠ 3 ∧ (s 1 2).get (F.EVT_IN_CTRL_FUNC 7) ≠ 4) := by decide +kernel

theorem witness_EventResultsArePublishedAndRead :
    let s := fun fn rdy => (given [(F.EVT_IN_CTRL_FUNC 7, fn), (F.EVT_IN_STATUS_RUN 7, 1), (F.EVT_IN_STATUS_READY 7, rdy)]).setEv 7
      { Ev.init with
        results := [(5000, 77)]
        ready := true }
    let f := given [(F.EVT_IN_CTRL_FUNC 0, 4), (F.EVT_IN_STATUS_RUN 0, 1), (wordFld (R.EVT_IN_GATE 0), 20), (wordFld (R.EVT_IN_GATE 0 + 4), 256)]
    ((s 2 1).get (F.EVT_IN_CTRL_FUNC 7) = 2 ∧ ((s 2 1).ev 7).results = (5000, 77) :: [] ∧
      (s 2 1).flag (F.EVT_IN_STATUS_READY 7) = true ∧
      ((s 2 1).ev 7).ready = true) ∧ (s 3 0).get (F.EVT_IN_CTRL_FUNC 7) = 3 ∧ (State.reset.ev 0).results = [] ∧
    (f.evRuns 0 4 = true ∧ 0 + 16 + 0 * 20 + f.getN (R.EVT_IN_GATE 0) 2 % 2 ^ 40 = 36 ∧ (f.ev 0).b = 0 ∧ (f.ev 0).gate = 0) ∧
    (s 3 0).evRuns 7 4 = false := by decide +kernel


/-- A state whose PTP port 127 is in a given state, with a servo state and SERVO_EN. -/
def ptpAt (port servo : Nat) (more : List (Fld × Nat)) : State :=
  given ([(F.TIME_PTP_PORT_STATE 127, port), (F.TIME_STATUS_SERVO, servo), (F.TIME_CTRL_SERVO_EN, 1)] ++ more)

/-- No port of a fresh state is paused. -/
theorem fresh_unpaused (s : State) (h : s.ports = []) (hl : s.lcnt = 0) (q : Nat) : s.heldPrio q 0 = false ∧
  (s.port q).ctl = [] := by
  constructor
  · unfold State.heldPrio State.port
    rw [h, hl]
    split <;> rfl
  · unfold State.port
    rw [h]
    rfl

theorem witness_SyncOffsetsReachTheServo :
    (let s := ptpAt 9 1 [(F.TIME_PTP_CTRL_TYPE, 0)]
     s.isTc 127 = false ∧ s.get (F.TIME_PTP_PORT_STATE 127) = 9 ∧ s.flag F.TIME_CTRL_SERVO_EN = true ∧
       s.get F.TIME_STATUS_SERVO = 1) ∧ (ptpAt 9 2 []).get F.TIME_STATUS_SERVO = 2 ∧
    (ptpAt 6 2 []).get (F.TIME_PTP_PORT_STATE 127) ≠ 9 ∧
    (let s := ptpAt 6 0 [(F.TIME_PTP_CTRL_TYPE, 2), (F.TIME_PTP_PORT_TC 127, 1)]
     s.isTc 127 = true ∧ s.ports = [] ∧ s.lcnt = 0) := by
  decide +kernel

theorem witness_PtpMessagesTakeEffect :
    let s := (ptpAt 9 2 [(F.TIME_PTP_CTRL_TYPE, 0), (F.TIME_PTP_CTRL_PROFILE, 1), (F.TIME_PTP_CTRL_DELAY, 1)]).setPtpPort 127
      { PtpPort.init with syncs := [(65535, 4096)] }
    let m := ptpAt 6 0 [(F.TIME_PTP_CTRL_TYPE, 0), (F.TIME_PTP_CTRL_DELAY, 0), (F.STM_PORT_CTRL_PFC_EN 127, 0)]
    s.isTc 127 = false ∧ (s.ptpPort 127).syncs.find? (fun y => y.1 == 65535) = some (65535, 4096) ∧
    s.flag F.TIME_CTRL_SERVO_EN = true ∧ s.get F.TIME_STATUS_SERVO = 2 ∧ (ptpAt 9 1 []).get F.TIME_STATUS_SERVO = 1 ∧
    (m.isTc 127 = false ∧ m.flag F.TIME_PTP_CTRL_DELAY = false ∧ m.get (F.TIME_PTP_PORT_STATE 127) = 6 ∧ m.heldPrio 127 0 = false ∧
      (m.port 127).ctl = []) ∧ (ptpAt 9 0 [(F.TIME_PTP_CTRL_DELAY, 0)]).get (F.TIME_PTP_PORT_STATE 127) ≠ 6 ∧
    (s.flag F.TIME_PTP_CTRL_DELAY = true ∧ s.get (F.TIME_PTP_PORT_STATE 127) ≠ 0) ∧
    s.get F.TIME_PTP_CTRL_PROFILE = 1 ∧ (given [(F.TIME_PTP_CTRL_PROFILE, 0)]).get F.TIME_PTP_CTRL_PROFILE ≠ 1 := by decide +kernel

/-- Port 127 is a master's port that a pause holds until core cycle e. -/
def masterPort (e : Nat) : State :=
  (ptpAt 6 0 [(F.TIME_PTP_CTRL_ONE_STEP, 0), (F.STM_PORT_CTRL_PFC_EN 127, 0)]).setPort 127 { Port.init with pauseTo := some e }

theorem witness_PtpMessagesLeave :
    let x : TxStamp := ⟨⟨0, 0, 0⟩, 0, 0, 0, 0⟩
    let s := given [(F.TIME_PTP_CTRL_ONE_STEP, 1), (F.TIME_CTRL_TXQ_EN, 1)]
    let r := s.setPtpPort 127 { PtpPort.init with reqs := [(9, 4096)] }
    let only := given ((F.TIME_STATUS_SERVO, 1) :: (F.TIME_CTRL_SERVO_EN, 1) ::
      (List.range 128).map (fun p => (F.TIME_PTP_PORT_STATE p, if p = 127 then 9 else 6)))
    (s.flag F.TIME_PTP_CTRL_ONE_STEP = true ∧ s.flag F.TIME_CTRL_TXQ_EN = true ∧ s.txq.length < 64 ∧
      (given [(F.TIME_CTRL_TXQ_EN, 0)]).flag F.TIME_CTRL_TXQ_EN = false) ∧
    64 ≤ ({ s with txq := List.replicate 64 x } : State).txq.length ∧
    (r.ptpPort 127).reqs.find? (fun x => x.1 == 9) = some (9, ((4096 : Nat) : Int)) ∧
    ((masterPort 0).flag F.TIME_PTP_CTRL_ONE_STEP = false ∧ (masterPort 0).get (F.TIME_PTP_PORT_STATE 127) = 6 ∧
      (masterPort 0).heldPrio 127 0 = false ∧ ((masterPort 0).port 127).ctl = []) ∧
    ((masterPort 9).get (F.TIME_PTP_PORT_STATE 127) = 6 ∧ (masterPort 9).heldPrio 127 0 = true ∧
      ((masterPort 9).port 127).ctl = []) ∧
    ((ptpAt 9 0 []).get (F.TIME_PTP_PORT_STATE 127) ≠ 6 ∧ (ptpAt 6 0 []).get (F.TIME_PTP_PORT_STATE 127) ≠ 9) ∧
    (only.get (F.TIME_PTP_PORT_STATE 127) = 9 ∧ (∀ q : Fin 128, q ≠ 127 → only.get (F.TIME_PTP_PORT_STATE q) ≠ 9) ∧
      only.flag F.TIME_CTRL_SERVO_EN = true ∧ only.get F.TIME_STATUS_SERVO = 1) := by decide +kernel

theorem witness_TimeReadsAndSnapshots :
    let x : TxStamp := ⟨⟨0, 0, 0⟩, 0, 0, 0, 127⟩
    ({ State.reset with txq := [x] } : State).txq = x :: [] ∧ (1 : Fin 64) ≠ 0 ∧ State.reset.txq = [] := by decide +kernel

theorem witness_StagedTimeAppliesInAnEpoch :
    let s : State := { State.reset with stage := some ⟨true, false, false, 4096⟩ }
    (given [(F.TIME_STATUS_STAGE_PENDING, 0)]).flag F.TIME_STATUS_STAGE_PENDING = false ∧
    (given [(F.TIME_STATUS_STAGE_PENDING, 1)]).flag F.TIME_STATUS_STAGE_PENDING = true ∧
    Instr.stageOffsetAbs 0 ∈ [Instr.stagePeriod 0, .stageOffsetAdd 0, .stageOffsetAbs 0] ∧
    (s.stage = some ⟨true, false, false, 4096⟩ ∧ (s.epochAt 4096).lcnt < 4096 ∧ (false && false) = false) ∧
      State.reset.stage = none := by decide +kernel

theorem witness_ServoFollowsItsOffsets :
    let s : State := { ptpAt 9 1 [] with servo := { Servo.init with cnt := 1 } }
    (s.servo.cnt ≠ 0 ∧ s.flag F.TIME_CTRL_SERVO_EN = true ∧ s.get F.TIME_STATUS_SERVO = 1) ∧
    ((ptpAt 9 1 []).get F.TIME_STATUS_SERVO ≠ 2) ∧ (ptpAt 9 3 []).get F.TIME_STATUS_SERVO = 3 ∧
    ((ptpAt 9 2 []).get F.TIME_STATUS_SERVO = 2 ∧ ((ptpAt 9 2 []).netTime (65536 * (ptpAt 9 2 []).lcnt)).sec % 1024 = 0) := by
  decide +kernel


theorem witness_ServiceLinkAndSafeState :
    let f : SvcFrame := ⟨100, 0, 0, 0, true⟩
    let s : State := { given [(F.SVC_STATUS_FENCED, 0)] with svc := { Svc.init with frame := some f } }
    (s.svc.frame = some f ∧ s.flag F.SVC_STATUS_FENCED = false) ∧
    (given [(F.SVC_STATUS_SAFE, 1)]).flag F.SVC_STATUS_SAFE = true ∧
      (given [(F.SVC_STATUS_SAFE, 0)]).flag F.SVC_STATUS_SAFE = false ∧
    (let g : State := { given [(F.SVC_STATUS_FENCED, 0), (F.SVC_STATUS_SAFE, 0)] with svc := { Svc.init with frame := some { f with full := false } } }
     g.svc.frame = some { f with full := false } ∧ g.flag F.SVC_STATUS_FENCED = false ∧ g.flag F.SVC_STATUS_SAFE = false) ∧
    (let u := given [(F.SVC_STATUS_SAFE, 1), (F.SVC_STATUS_FENCED, 0)]
     u.flag F.SVC_STATUS_SAFE = true ∧ u.flag F.SVC_STATUS_FENCED = false) ∧
    (given [(F.SVC_STATUS_FENCED, 1)]).flag F.SVC_STATUS_FENCED = true ∧ State.reset.svc.frame = none := by
  decide +kernel

theorem witness_ExcitationFaultsFoldAndRetry :
    let s : State := { given [(F.SVC_EXC_CTRL_FOLD_EN 47, 1), (F.SVC_EXC_CTRL_SHORT_EN 47, 1), (F.SVC_EXC_CTRL_CODE 47, 2731)] with
      svc := { Svc.init with enabled := 2 ^ 47 } }
    (bitOf s.svc.enabled 47 = true ∧ s.flag (F.SVC_EXC_CTRL_FOLD_EN 47) = true ∧ s.flag (F.SVC_EXC_CTRL_SHORT_EN 47) = true ∧
      2731 ≤ s.get (F.SVC_EXC_CTRL_CODE 47)) ∧ (given [(F.SVC_OUT_STATUS_FOLDED 0, 1)]).flag (F.SVC_OUT_STATUS_FOLDED 0) = true ∧
    bitOf s.svc.enabled 0 = false ∧ (given [(F.SVC_OUT_STATUS_FOLDED 0, 0)]).flag (F.SVC_OUT_STATUS_FOLDED 0) = false := by
  decide +kernel

theorem witness_SupplyTripAndRelays :
    let s : State := { State.reset with svc := { Svc.init with relays := 2 ^ 31 } }
    (given [(F.SVC_STATUS_EXC_TRIP, 1)]).flag F.SVC_STATUS_EXC_TRIP = true ∧ bitOf s.svc.relays 31 = true ∧
    (given [(F.SVC_STATUS_EXC_TRIP, 0)]).flag F.SVC_STATUS_EXC_TRIP = false ∧ bitOf s.svc.relays 0 = false ∧
    bitOf ((given [(wordFld R.SVC_RLY_OPEN, 1)]).getN R.SVC_RLY_OPEN 1) 0 = true ∧
    bitOf ((given [(wordFld R.SVC_RLY_OPEN, 0)]).getN R.SVC_RLY_OPEN 1) 0 = false := by decide +kernel

theorem witness_MonitorPublishesItsPoints :
    let s : State := { given [(F.SVC_STATUS_MON_HELD, 0)] with svc := { Svc.init with point := 47 } }
    (given [(F.SVC_STATUS_MON_HELD, 1)]).flag F.SVC_STATUS_MON_HELD = true ∧
    (s.flag F.SVC_STATUS_MON_HELD = false ∧ s.svc.point = 47 ∧ Tab.get 0 s.svc.strobe 47 < 1) ∧
    (let b : State := { s with svc := { s.svc with strobe := [(47, 5)] } }
     5 ≤ Tab.get 0 b.svc.strobe 47 ∧ 0 < Tab.get 0 b.svc.strobe 47 ∧ Tab.get 0 b.svc.strobe 47 < 5 + b.cyclesOf 1 2000) ∧
    (let e : State := { s with svc := { s.svc with enabled := 0, point := 53 } }
     e.svc.point + 1 = e.monPoints.length) := by decide +kernel


/-- The results of a die whose channel 47 meets the criteria. -/
def goodResult : DieResult :=
  ⟨[⟨47, [], [], [], 0, 0, 0, 0, 0, 0, [], [], [15]⟩], [], [], 0, 0, [], 40, false⟩

theorem witness_CalibrationRunsStartAndRelease :
    let run : CalRun := ⟨9, 0, 7, 0, none, false, false⟩
    let held : CalRun := ⟨5, 2 ^ 47, 1, 0, some (2048, 8192), false, false⟩
    let done : CalRun := ⟨9, 0, 7, 0, some (2048, 8192), false, true⟩
    let w : CalRun → Nat → State := fun r byp => { given [(F.CLK_STATUS_FABRIC_BYP, byp), (wordFld R.CAL_FG_CH, 0),
      (wordFld (R.CAL_FG_CH + 4), 0), (F.CAL_FG_PROC_PROC, 32), (F.CAL_STATUS_ERR, 0)] with cal := { Cal.init with runs := [r] } }
    (∃ r ∈ (w run 0).cal.runs, r.ended = false) ∧ (∀ r ∈ (w done 0).cal.runs, r.ended = true) ∧
    (w done 1).flag F.CLK_STATUS_FABRIC_BYP = true ∧ (w done 0).flag F.CLK_STATUS_FABRIC_BYP = false ∧
    ((w done 0).getN R.CAL_FG_CH 2 % 2 ^ 48 = 0 ∧ (w done 0).get F.CAL_FG_PROC_PROC = 32 ∧
      (given [(F.CAL_FG_PROC_PROC, 31)]).get F.CAL_FG_PROC_PROC < 32) ∧
    (∃ r ∈ (w run 0).cal.runs, r.settling = false ∧ r.ended = false) ∧
      (∀ r ∈ (w done 0).cal.runs, r.settling = true ∨ r.ended = true) ∧
    ((w run 0).cal.runs.find? (fun x => x.die == 9 && x.start.isNone) = some run ∧ (w run 0).canStart run 0 = true ∧
      (w run 1).canStart run 0 = false) ∧ (∀ x ∈ (w held 0).cal.runs, x.die = 5 → x.start.isSome = true) ∧
    ((w held 0).cal.runs.find? (fun x => x.die == 5 && x.holding) = some held ∧ held.start = some (2048, 8192) ∧
      (w held 0).cal.abort = none ∧ held.mask < 2 ^ 48 ∧
      (∀ c ∈ goodResult.chans, ∀ i ∈ c.badInt, i < 16) ∧ (∀ c ∈ goodResult.chans, c.badPos = [] ∧ bitOf held.mask c.n = true ∧
        chRejected c held.proc = false) ∧ goodResult.suspect = false ∧ held.proc ≠ 0 ∧ (w held 0).get F.CAL_STATUS_ERR ≠ 4) ∧
    ({ Cal.init with abort := some (6, none) } : Cal).abort ≠ none ∧
    (∀ x ∈ (w run 0).cal.runs, x.die = 9 → x.holding = false) ∧
    (w { held with settling := true } 0).cal.runs.find? (fun x => x.die == 5 && x.settling) = some { held with settling := true } ∧
    (∀ x ∈ (w held 0).cal.runs, x.die = 5 → x.settling = false) := by decide +kernel

theorem witness_CalibrationSavesAndDrifts :
    let s : State := { State.reset with cal := { Cal.init with saving := some (1, 7, [1, 2]) } }
    let d : Nat → State := fun v => given [(F.CAL_DRIFT_STATUS_DRIFT, v), (F.CAL_DRIFT_DRIFT_DT, 3), (F.CAL_TEMP_REF_REF 5, 40)]
    let a : Nat → Nat → State := fun pol auto => { given [(F.CAL_DRIFT_STATUS_DRIFT, 32), (F.GLOBAL_STATE_HOST_POLICY, pol),
      (F.CAL_SCHED_AUTO_DRIFT, auto), (F.CAL_SCHED_PERIOD, 1), (F.CLK_STATUS_FABRIC_BYP, 1)] with
        cal := { Cal.init with since := [(5, 4096)] } }
    (s.cal.saving = some (1, 7, [1, 2]) ∧ s.cal.saveDue = false ∧ Mem.wf 0xFF s.flash = true) ∧ State.reset.cal.saving = none ∧
    ((d 0).driftDt < (d 0).driftOf 5 44 ∧ bitOf ((d 0).get F.CAL_DRIFT_STATUS_DRIFT) 5 = false) ∧
    (d 0).driftOf 5 43 ≤ (d 0).driftDt ∧ bitOf ((d 32).get F.CAL_DRIFT_STATUS_DRIFT) 5 = true ∧
    (d 0).driftOf 5 41 ≤ (d 0).driftDt - 2 ∧ (d 0).driftDt - 2 < (d 0).driftOf 5 42 ∧
    ((a 1 0).cal.since.find? (fun p => p.1 == 5) = some (5, 4096) ∧ bitOf ((a 1 0).get F.CAL_DRIFT_STATUS_DRIFT) 5 = true ∧
      (a 1 0).flag F.GLOBAL_STATE_HOST_POLICY = true ∧ (a 1 0).flag F.CAL_SCHED_AUTO_DRIFT = false) ∧
    ((a 0 0).flag F.GLOBAL_STATE_HOST_POLICY = false ∧ (∀ r ∈ (a 0 0).cal.runs, r.ended = true) ∧
      (a 0 0).flag F.CLK_STATUS_FABRIC_BYP = true) ∧ (a 1 1).flag F.CAL_SCHED_AUTO_DRIFT = true ∧
    (∀ p ∈ (d 0).cal.since, p.1 ≠ 5) ∧ (a 1 0).get F.CAL_SCHED_PERIOD ≠ 0 ∧
    (given [(F.CAL_SCHED_PERIOD, 0)]).get F.CAL_SCHED_PERIOD = 0 := by decide +kernel


theorem witness_ResetsKeepAndClear :
    let loss : State := { State.reset with pwr := { Pwr.init with coreLoss := true } }
    let g : State := { State.reset with pwr := { Pwr.init with grpReset := 2 ^ 15 } }
    let wake := fun en as ph => given [(F.GLOBAL_WAKE_CTRL_EN, en), (F.GLOBAL_WAKE_CTRL_ASSERTED, as), (F.GLOBAL_STATE_PHASE, ph)]
    10000 ≤ 10000 ∧ (1 ≤ 9999 ∧ 9999 < 10000 ∧ State.reset.pwr.coreLoss = false ∧ loss.pwr.coreLoss = true) ∧
    ((∀ g < 16, (State.reset.grp g).armed = false ∧ (State.reset.grp g).closing = []) ∧ State.reset.stageFill = [] ∧
      State.reset.stageDrain = []) ∧ (0 : BitVec 8) ≠ 0xA5 ∧ ((8 : BitVec 8) ≠ 4 ∧ (8 : BitVec 8) ≠ 6 ∧ (8 : BitVec 8) ≠ 7 ∧
        (8 : BitVec 8) ≠ 9 ∧ (8 : BitVec 8) ≠ 10) ∧
    State.reset.pwr.coreLoss = false ∧ (loss.pwr.coreLoss = true ∧ loss.pwr.pwrOk = true ∧
      ({ loss.pwr with pwrOk := false }).pwrOk = false) ∧
    bitOf g.pwr.grpReset 0 = false ∧ bitOf g.pwr.grpReset 15 = true ∧
    ((wake 1 0 1).flag F.GLOBAL_WAKE_CTRL_EN = true ∧ (wake 1 0 1).flag F.GLOBAL_WAKE_CTRL_ASSERTED = false) ∧
    (wake 0 0 1).flag F.GLOBAL_WAKE_CTRL_EN = false ∧
    ((wake 1 1 2).get F.GLOBAL_STATE_PHASE = 2 ∧ (wake 1 1 2).flag F.GLOBAL_WAKE_CTRL_ASSERTED = true) ∧
    ((wake 1 1 1).get F.GLOBAL_STATE_PHASE ≠ 2 ∧ (wake 1 1 1).flag F.GLOBAL_WAKE_CTRL_EN = true) := by decide +kernel

theorem witness_SuppliesThermalAndSelfTest :
    let ep : State := { State.reset with pwr := { Pwr.init with episodes := [(6, 100), (1, 200)] } }
    let ck : State := { State.reset with pwr := { Pwr.init with check := some (100, 5000), anaFault := some 3, thermalHold := true } }
    let t := fun done fail loop ph => given [(F.GLOBAL_STATE_PHASE, ph), (F.GLOBAL_SELFTEST_DONE, done), (F.GLOBAL_SELFTEST_PKG_FAIL, fail),
      (F.CLK_STATUS_LOOP, loop)]
    ep.pwr.episodes.any (fun p => p.1 == 6) = true ∧ ep.pwr.episodes.any (fun p => p.1 == 0) = false ∧
    (ep.pwr.episodes.find? (fun p => p.1 == 6) = some (6, 100) ∧ ep.pwr.episodes.find? (fun p => p.1 == 1) = some (1, 200) ∧
      ep.longEpisode (10 ^ 9 - 200) = true ∧ ep.pwr.check = none) ∧ (ck.pwr.check = some (100, 5000) ∧ ck.pwr.coreLoss = false) ∧
    (State.reset.pwr.anaFault = none ∧ ck.pwr.anaFault.isSome = true) ∧
    (∀ p < 128, (given ((List.range 128).map (fun p => (F.STM_PORT_STATUS_LINK p, 0)))).linkUp p = false) ∧
    (ck.pwr.thermalHold = true ∧ State.reset.pwr.thermalHold = false ∧ State.reset.pwr.coreLoss = false ∧
      ({ Pwr.init with coreLoss := true }).coreLoss = true) ∧
    ((t 0 0 3 1).get F.GLOBAL_STATE_PHASE = 1 ∧ (t 0 0 3 1).flag F.GLOBAL_SELFTEST_DONE = false ∧
      (t 0 0 3 1).get F.CLK_STATUS_LOOP = 3 ∧
      [FailPart.package].contains .package = true ∧ [FailPart.die 5].contains .package = false ∧
        (t 0 0 2 1).get F.CLK_STATUS_LOOP ≠ 3) ∧
    (t 0 0 3 2).get F.GLOBAL_STATE_PHASE ≠ 1 ∧
    ((t 1 0 3 1).flag F.GLOBAL_SELFTEST_DONE = true ∧ (t 1 0 3 1).flag F.GLOBAL_SELFTEST_PKG_FAIL = false ∧
      (t 1 0 3 1).commit = none ∧
      (∀ r ∈ (t 1 0 3 1).cal.runs, r.ended = true) ∧ (t 1 0 3 1).loader.slot = none ∧
      ({ Loader.init with slot := some 1 } : Loader).slot ≠ none) ∧ (t 1 1 3 1).flag F.GLOBAL_SELFTEST_PKG_FAIL = true ∧
    coldCause 5 = true ∧ coldCause 6 = false ∧ (2 < 4 ∧ 7 < 8 ∧ 9 < 10) := by
  decide +kernel


/-- A mirror frame's sync word (Table 18.1). -/
def syncBytes : List Byte := leBytes 8 0xC3A596E10F78B42D

/-- A mirror frame before its CRC. -/
def frameBody : List Byte := syncBytes ++ List.replicate 1012 0

/-- A mirror frame with sync and CRC as Table 18.1 gives them. -/
def goodFrame : List Byte := frameBody ++ leBytes 4 (crc32c frameBody)

theorem crcBit_lt (c : Nat) (h : c < 2 ^ 32) : crcBit c < 2 ^ 32 := by
  unfold crcBit
  split
  · exact Nat.xor_lt_two_pow (by omega) (by decide)
  · omega

theorem crcRun_lt (bs : List Byte) (c : Nat) (h : c < 2 ^ 32) : crcRun c bs < 2 ^ 32 := by
  induction bs generalizing c with
  | nil => exact h
  | cons b bs ih => exact ih _ (by
      unfold crcByte
      repeat apply crcBit_lt
      exact Nat.xor_lt_two_pow h (by omega))

theorem leValue_leBytes4 (x : Nat) (h : x < 2 ^ 32) : leValue (leBytes 4 x) = x := by
  simp only [leBytes, leValue, BitVec.toNat_ofNat]; omega

theorem crc32c_lt (bs : List Byte) : crc32c bs < 2 ^ 32 := Nat.xor_lt_two_pow (crcRun_lt _ _ (by omega)) (by omega)

theorem leBytes_length (n v : Nat) : (leBytes n v).length = n := by
  induction n generalizing v with
  | zero => rfl
  | succ n ih => rw [leBytes, List.length_cons, ih]

/-- A body of 1020 bytes with its CRC behind it has a CRC that fits. -/
theorem frameCrc_append (b : List Byte) (hb : b.length = 1020) : frameCrc (b ++ leBytes 4 (crc32c b)) = true := by
  have h4 : (leBytes 4 (crc32c b)).length = 4 := leBytes_length 4 _
  have hl : (b ++ leBytes 4 (crc32c b)).length = 1024 := by rw [List.length_append, hb, h4]
  rw [frameCrc, hl, List.drop_left' hb, List.take_left' hb, leValue_leBytes4 _ (crc32c_lt _)]
  simp only [beq_self_eq_true, Bool.and_self]

/-- The frame of that form is good: it has the sync word and its CRC fits. -/
theorem goodFrame_good : (frameSync goodFrame && frameCrc goodFrame) = true := by
  have h8 : syncBytes.length = 8 := leBytes_length 8 _
  have hb : frameBody.length = 1020 := by rw [frameBody, List.length_append, h8, List.length_replicate]
  have hs : leValue (goodFrame.take 8) = 0xC3A596E10F78B42D := by
    rw [goodFrame, frameBody, List.append_assoc, List.take_left' h8]
    decide +kernel
  have hc : frameCrc goodFrame = true := frameCrc_append _ hb
  have hl : goodFrame.length = 1024 := by rw [goodFrame, List.length_append, hb, leBytes_length]
  rw [hc, frameSync, hs]
  simp only [beq_self_eq_true, Bool.and_self, hl]

/-- Zeros with their CRC: no sync word, and a CRC that fits. -/
theorem zeroFrame_unsynced :
    let f := List.replicate 1020 (0 : Byte) ++ leBytes 4 (crc32c (List.replicate 1020 0))
    frameSync f = false ∧ frameCrc f = true := by
  refine ⟨?_, frameCrc_append _ (List.length_replicate ..)⟩
  have hs : (List.replicate 1020 (0 : Byte) ++ leBytes 4 (crc32c (List.replicate 1020 0))).take 8 = List.replicate 8 0 := by
    rw [List.take_append_of_le_length (by rw [List.length_replicate]; omega), List.take_replicate]
    rfl
  rw [frameSync, hs]
  simp only [Bool.and_eq_false_iff]
  decide +kernel

theorem witness_TwinsAlignPairAndTakeOver :
    let p : PeerState := ⟨0, 0, 0, 0, 0, 1, 2, 0, 0, 0, 0, 0, [], false, 0⟩
    let s : Nat → Nat → Twin → State := fun al role tw => { given [(F.TWIN_CTRL_EN, 1), (F.TWIN_STATUS_ALIGNED, al), (F.TWIN_STATUS_ROLE, role),
      (F.TWIN_CTRL_LOSS_TAKEOVER, 1), (F.TWIN_CTRL_HB_MISS, 3)] with twin := tw }
    (given [(F.TWIN_CTRL_EN, 0)]).flag F.TWIN_CTRL_EN = false ∧
    ((s 0 0 Twin.init).flag F.TWIN_CTRL_EN = true ∧ (s 0 0 Twin.init).flag F.TWIN_STATUS_ALIGNED = false) ∧
    (frameCrc [] = false ∧ (frameSync [] && frameCrc []) = false) ∧
    (s 0 0 { Twin.init with good := 2 }).twin.good < 3 ∧ (s 0 0 { Twin.init with good := 3 }).twin.good = 3 ∧
    ((s 1 0 Twin.init).flag F.TWIN_STATUS_ALIGNED = true ∧ (s 1 0 { Twin.init with bad := 2 }).twin.bad < 3 ∧
      3 ≤ (s 1 0 { Twin.init with bad := 3 }).twin.bad) ∧
    ((s 0 0 Twin.init).linkOn = false ∧ (s 1 0 Twin.init).linkOn = true) ∧
    (let h := s 1 2 { Twin.init with peer := some p, handoverRx := true }
     h.twin.peer = some p ∧ h.get F.TWIN_STATUS_ROLE = 2 ∧ h.twin.handoverRx = true ∧ p.armed = 0) ∧
    (let m := s 1 2 { Twin.init with peer := some p, misses := 3 }
     m.hbMiss ≤ m.twin.misses ∧ m.flag F.TWIN_CTRL_LOSS_TAKEOVER = true ∧ m.twin.handoverRx = false) ∧
    (s 1 2 { Twin.init with misses := 2 }).twin.misses < (s 1 2 Twin.init).hbMiss ∧ (s 1 1 Twin.init).get F.TWIN_STATUS_ROLE ≠ 2 ∧
    ((s 1 1 { Twin.init with handoverTx := true }).get F.TWIN_STATUS_ROLE = 1 ∧
      (s 1 1 { Twin.init with handoverTx := true }).twin.handoverTx = true) ∧ Twin.init.handoverTx = false := by decide +kernel

theorem witness_LogEntriesAreWrittenClearedAndRead :
    let s := given [(F.LOG_CTRL_IRQ_EN, 1), (F.LOG_CTRL_IRQ_CLASS, 3), (⟨R.LOG_CLASS 1 0, 17, 16⟩, 3), (⟨R.LOG_CLASS 1 0, 3, 2⟩, 0)]
    let seen : State := { s with log := { Log.init with seen := [(0x0108, 5)], fatalCond := true } }
    ((0x0108, 5) ∈ seen.log.seen ∧ 0x0108 ≠ 0x0C01 ∧ 0x0108 ≠ 0x0C02) ∧ (0x0108, 5) ∉ s.log.seen ∧ s.log.ring.length < 4096 ∧
    (s.flag F.LOG_CTRL_IRQ_EN = true ∧ s.get F.LOG_CTRL_IRQ_CLASS ≤ s.logClass 0x0108 ∧ s.log.signalled = false) ∧
    s.logClass 0x0101 < s.get F.LOG_CTRL_IRQ_CLASS ∧ seen.log.fatalCond = true ∧ 4095 < 4096 ∧
    ((given [(F.CFG_VIEW_ACTIVE, 0)]).commit = none ∧ s.msix.masked 0 7 = false ∧
      ({ Msix.init with fns := [0] }).masked 0 7 = true ∧ s.log.signalled = false ∧
        (given [(F.CFG_VIEW_ACTIVE, 0)]).flag F.CFG_VIEW_ACTIVE = false) ∧
    ({ State.reset with commit := some aCommit } : State).commit.isSome = true ∧ logResetClass 0x0108 = 3 ∧
      logResetClass 0x0101 ≠ 3 := by
  decide +kernel

end Sys2Proof.Tests
end

section
/-! SUPPORT. Where a register stands: the two ways the model finds a BAR0 offset, by its word and by its spot, agree (R8). -/

namespace Sys2Proof.Machine

/-- A place on a card is one of the card's words. -/
theorem Card.place_lt {nwords i : Nat} (dims : List (Nat × Nat)) (rem : Nat) (h : Card.place dims nwords rem = some i) : i < nwords := by
  induction dims generalizing rem with
  | nil =>
    simp only [Card.place, Option.ite_none_right_eq_some, Option.some.injEq] at h
    omega
  | cons d ds ih =>
    simp only [Card.place, Option.ite_none_right_eq_some] at h
    exact ih _ h.2

theorem Card.wordAt_eq_none_iff (c : Card) (off : Nat) : c.wordAt off = none ↔ c.spot off = none := by
  unfold Card.wordAt Card.spot
  by_cases hb : off < c.base
  · simp only [if_pos hb]
  · cases hp : Card.place c.dims c.words.length (off - c.base) with
    | none => simp [hb]
    | some i => simp [hb, Card.place_lt _ _ hp]

theorem wordAtIn_eq_none_iff (cs : List Card) (off : Nat) : wordAtIn cs off = none ↔ ∀ c ∈ cs, c.wordAt off = none := by
  induction cs with
  | nil => simp [wordAtIn]
  | cons c rest ih => cases hc : c.wordAt off <;> simp [wordAtIn, hc, ih]

theorem wordAt_eq_none_iff (off : Nat) : wordAt off = none ↔ spotAt off = none := by
  simp only [wordAt, spotAt, wordAtIn_eq_none_iff, List.findSome?_eq_none_iff, Card.wordAt_eq_none_iff]

theorem isLow_iff (off : Nat) : isLow off = true ↔ spotAt off = some (0, 2) := beq_iff_eq

theorem isHigh_iff (off : Nat) : isHigh off = true ↔ spotAt off = some (1, 2) := beq_iff_eq

theorem isLow_of_no_spot {off : Nat} (h : spotAt off = none) : isLow off = false := by rw [isLow, h]; rfl

theorem isHigh_of_no_spot {off : Nat} (h : spotAt off = none) : isHigh off = false := by rw [isHigh, h]; rfl

/-- Where no register stands no bit has an access code. -/
theorem masksAt_of_no_word {off : Nat} (h : wordAt off = none) : masksAt off = ⟨0, 0, 0, 0, 0, 0, 0⟩ := by rw [masksAt, h]; rfl

/-- How many words the register at an offset has: none where no register stands. -/
def wordsAt (off : Nat) : Nat := ((spotAt off).map Prod.snd).getD 0

theorem wordsAt_of_no_spot {off : Nat} (h : spotAt off = none) : wordsAt off = 0 := by rw [wordsAt, h]; rfl

theorem wordsAt_of_spot {off k n : Nat} (h : spotAt off = some (k, n)) : wordsAt off = n := by rw [wordsAt, h]; rfl

/-- The registers that State.readWord answers by an operation of their own are all wider than 64 bits. -/
theorem two_lt_wordsAt_queues : ∀ o ∈ [R.TIME_TXQ, R.LOG_RD, R.LOG_FIRST, R.LOG_LAST_ERR], 2 < wordsAt o := by decide +kernel

/-- A register of at most 64 bits is none of those with an operation of their own. -/
theorem not_queue_of_wordsAt_le {off : Nat} (h : wordsAt off ≤ 2) :
    off ≠ R.TIME_TXQ ∧ off ≠ R.LOG_RD ∧ off ≠ R.LOG_FIRST ∧ off ≠ R.LOG_LAST_ERR := by
  have hnot : off ∉ [R.TIME_TXQ, R.LOG_RD, R.LOG_FIRST, R.LOG_LAST_ERR] :=
    fun hm => absurd (two_lt_wordsAt_queues off hm) (Nat.not_lt.mpr h)
  simpa using hnot

end Sys2Proof.Machine
end

section
/-! SUPPORT. The parts of a read: what RC bits do, what a latch holds, what a function sees (R5, R6, R174). -/

namespace Sys2Proof.Machine

/-! ### Latches (R5) -/

theorem Tab.find?_set {α : Type} (t : Tab α) (k : Nat) (v : α) : (Tab.set t k v).find? (fun p => p.1 == k) = some (k, v) := by
  induction t with
  | nil => simp [Tab.set]
  | cons p rest ih =>
    by_cases hlt : k < p.1
    · simp [Tab.set, hlt]
    · by_cases heq : p.1 = k
      · simp [Tab.set, heq]
      · simp [Tab.set, hlt, heq, ih]

/-- A word latched for a function is what it finds latched. -/
theorem State.latched_of_set (s t : State) (fn off : Nat) (v : Word) (h : t.latch = Tab.set s.latch (latchKey fn off) v) :
    t.latched fn off = some v := by
  rw [State.latched, h, Tab.find?_set]
  rfl

/-- A latch that is emptied holds nothing for its function. -/
theorem State.latched_of_filter (s t : State) (fn off : Nat) (h : t.latch = s.latch.filter (fun p => p.1 != latchKey fn off)) :
    t.latched fn off = none := by
  rw [State.latched, h, Option.map_eq_none_iff, List.find?_eq_none]
  intro p hp
  simpa using (List.mem_filter.mp hp).2

/-! ### RC bits (R6) -/

/-- A register set after a read of the word at an offset: its RC bits are clear, where the lane's registers stand. -/
def RegTab.afterRead (r : RegTab) (off : Nat) : RegTab :=
  if (masksAt off).rc = 0 ∨ portHere r off = false then r else Tab.set r off (mixWord (masksAt off).rc (r.word off) 0)

/-- The RC bits of a read change the register set and nothing else. -/
theorem State.readClear_eq (s : State) (off : Nat) : s.readClear off = { s with regs := s.regs.afterRead off } := by
  unfold State.readClear RegTab.afterRead
  dsimp only
  split <;> rfl

theorem RegTab.afterRead_of_no_rc {r : RegTab} {off : Nat} (h : (masksAt off).rc = 0) : r.afterRead off = r := if_pos (Or.inl h)

theorem RegTab.word_afterRead_same (r : RegTab) (off : Nat) :
    (r.afterRead off).word off = (if (masksAt off).rc = 0 ∨ portHere r off = false then r.word off
      else mixWord (masksAt off).rc (r.word off) 0) := by
  unfold RegTab.afterRead
  split
  · rfl
  · exact Tab.get_set_same ..

theorem RegTab.word_afterRead_other (r : RegTab) {off j : Nat} (h : j ≠ off) : (r.afterRead off).word j = r.word j := by
  unfold RegTab.afterRead
  split
  · rfl
  · exact Tab.get_set_other _ _ _ _ _ h

/-! ### What a function sees (R174, R355) -/

theorem mixWord_zero (m : Nat) : mixWord m 0 0 = 0 := by simp [mixWord]

section
variable {s : State} {off : Nat} (hlo : off ≠ R.TIME_LCNT) (hhi : off ≠ R.TIME_LCNT + 4) (hst : off ≠ R.STO_STAGE)
include hlo hhi hst

/-- A register that is not live, of no lane or of a port's, is seen with its RWS bits from the shadow set (R355). -/
theorem State.seen_of_portHere (hr : portHere s.regs off = true) (hm : portHere s.stagedModes off = true) :
    s.seen off = (if (masksAt off).rws = 0 ∨ s.flag F.CFG_VIEW_ACTIVE = true then s.word off
      else mixWord (masksAt off).rws (s.word off) (s.shadowWord off)) := by
  simp only [State.seen, if_neg hlo, if_neg hhi, if_neg hst, hr, hm, if_true]

/-- A register of a lane that is no port is seen as zero in both sets (log entry 84). -/
theorem State.seen_of_not_portHere (hr : portHere s.regs off = false) (hm : portHere s.stagedModes off = false) :
    s.seen off = 0 := by
  simp only [State.seen, if_neg hlo, if_neg hhi, if_neg hst, hr, hm, Bool.false_eq_true, if_false, mixWord_zero, ite_self]

end

end Sys2Proof.Machine
end

section
/-! SUPPORT. What a read answers and does, by the spot of its offset; where no register stands, reads and writes do nothing (R8). -/

namespace Sys2Proof.Machine

/-! ### One word read by a function -/

section
variable {s : State} {fn off : Nat}

theorem State.readWord_of_hidden (h : s.sees fn off = false) : s.readWord fn off = (0, s) := if_pos h

theorem State.readWord_of_no_spot (h : spotAt off = none) : s.readWord fn off = (0, s) := by
  have hq := not_queue_of_wordsAt_le (off := off) (by rw [wordsAt_of_no_spot h]; omega)
  simp [State.readWord, hq, h]

/-- The low half of a 64-bit register: its high half is latched for the function. -/
theorem State.readWord_low (hs : s.sees fn off = true) (h : spotAt off = some (0, 2)) :
    s.readWord fn off =
      (s.seen off, { s with
        regs := s.regs.afterRead off
        latch := Tab.set s.latch (latchKey fn (off + 4)) (s.seen (off + 4)) }) := by
  have hq := not_queue_of_wordsAt_le (wordsAt_of_spot h).le
  simp [State.readWord, hs, hq, h, State.readClear_eq]

/-- The high half of a 64-bit register: what is latched for the function is answered and its latch emptied. -/
theorem State.readWord_high_latched {v : Word} (hs : s.sees fn off = true) (h : spotAt off = some (1, 2))
    (hl : s.latched fn off = some v) :
    s.readWord fn off =
      (v, { s with regs := s.regs.afterRead off, latch := s.latch.filter (fun p => p.1 != latchKey fn off) }) := by
  have hq := not_queue_of_wordsAt_le (wordsAt_of_spot h).le
  simp [State.readWord, hs, hq, h, hl, State.readClear_eq]

/-- A register of one word. -/
theorem State.readWord_single {k : Nat} (hs : s.sees fn off = true) (h : spotAt off = some (k, 1)) :
    s.readWord fn off = (s.seen off, { s with regs := s.regs.afterRead off }) := by
  have hq := not_queue_of_wordsAt_le (off := off) (by rw [wordsAt_of_spot h]; omega)
  simp [State.readWord, hs, hq, h, State.readClear_eq]

theorem State.answer_of_readWord {v : Word} {t : State} (h : s.readWord fn off = (v, t)) :
    s.answer fn off = t.emit (.read fn off [v]) := by
  rw [State.answer, h]

end

/-! ### The read commands -/

section
variable {s : State} {fn : Fin 64} {off : Nat}

theorem exec_rcCounterRead_of_no_spot (h : spotAt off = none) :
    exec (.rcCounterRead fn off) s = .next (s.emit (.read fn off [0])) :=
  congrArg Host.Outcome.next (State.answer_of_readWord (State.readWord_of_no_spot h))

theorem exec_rcCounterRead_of_hidden (h : s.sees fn off = false) :
    exec (.rcCounterRead fn off) s = .next (s.emit (.read fn off [0])) :=
  congrArg Host.Outcome.next (State.answer_of_readWord (State.readWord_of_hidden h))

theorem exec_rcCounterRead_single {k : Nat} (hs : s.sees fn off = true) (h : spotAt off = some (k, 1)) :
    exec (.rcCounterRead fn off) s =
      .next { s with out := .read fn off [s.seen off] :: s.out, regs := s.regs.afterRead off } :=
  congrArg Host.Outcome.next (State.answer_of_readWord (State.readWord_single hs h))

theorem exec_rcCounterRead_high {v : Word} (hs : s.sees fn off = true) (h : isHigh off = true) (hl : s.latched fn off = some v) :
    exec (.rcCounterRead fn off) s =
      .next { s with
        out := .read fn off [v] :: s.out
        regs := s.regs.afterRead off
        latch := s.latch.filter (fun p => p.1 != latchKey fn off) } :=
  congrArg Host.Outcome.next
    (State.answer_of_readWord (State.readWord_high_latched hs ((isHigh_iff off).mp h) hl))

/-- A half read of a low half is one read of its word. -/
theorem exec_lowHalfRead_half (h : isLow off = true) : exec (.lowHalfRead fn ⟨off, false⟩) s = .next (s.answer fn off) := by
  show Host.Outcome.next (if isLow off then s.answer fn off else s) = _
  rw [if_pos h]

theorem exec_lowHalfRead_of_not_low (h : isLow off = false) : exec (.lowHalfRead fn ⟨off, false⟩) s = .next s := by
  show Host.Outcome.next (if isLow off then s.answer fn off else s) = _
  rw [h, if_neg Bool.false_ne_true]

theorem exec_lowHalfRead_low (hs : s.sees fn off = true) (h : isLow off = true) :
    exec (.lowHalfRead fn ⟨off, false⟩) s =
      .next { s with
        out := .read fn off [s.seen off] :: s.out
        regs := s.regs.afterRead off
        latch := Tab.set s.latch (latchKey fn (off + 4)) (s.seen (off + 4)) } := by
  rw [exec_lowHalfRead_half h, State.answer_of_readWord (State.readWord_low hs ((isLow_iff off).mp h))]
  rfl

/-- A read of all 8 bytes answers both halves and leaves the latches as they are (R226). -/
theorem exec_lowHalfRead_whole (hs : s.sees fn off = true) (h : isLow off = true) :
    exec (.lowHalfRead fn ⟨off, true⟩) s =
      .next { s with
        out := .read fn off [s.seen off, s.seen (off + 4)] :: s.out
        regs := (s.regs.afterRead off).afterRead (off + 4) } := by
  show Host.Outcome.next (s.answer8 fn off) = _
  rw [State.answer8, if_pos h, if_pos hs, State.readClear_eq, State.readClear_eq]
  rfl

theorem exec_lowHalfRead_whole_of_hidden (hs : s.sees fn off = false) (h : isLow off = true) :
    exec (.lowHalfRead fn ⟨off, true⟩) s = .next (s.emit (.read fn off [0, 0])) := by
  show Host.Outcome.next (s.answer8 fn off) = _
  rw [State.answer8, if_pos h, hs, if_neg Bool.false_ne_true]

end

/-! ### Writes where no register stands (R8) -/

section
variable {s : State} {off : Nat} (h : wordAt off = none)
include h

theorem State.w1cWord_of_no_word (v : Word) : s.w1cWord off v = s := by
  simp [State.w1cWord, masksAt_of_no_word h]

theorem State.rwWord_of_no_word (a : Nat) (v : Word) : s.rwWord a off v = s := by
  simp [State.rwWord, masksAt_of_no_word h]

theorem State.rwsWrite_of_no_word (v : Word) : s.rwsWrite [(off, v)] = s := by
  simp [State.rwsWrite, masksAt_of_no_word h]

/-- Only the core cycle of the write is taken over. -/
theorem State.writeWords_of_no_word (fn a : Nat) (v : Word) : s.writeWords fn a [(off, v)] = s.at_ a := by
  by_cases hm : (s.at_ a).mayWrite fn off = true
  · simp [State.writeWords, hm, masksAt_of_no_word h, State.rwWord_of_no_word h, State.w1cWord_of_no_word h,
      State.rwsWrite_of_no_word h]
  · simp [State.writeWords, hm, State.rwsWrite]

theorem State.write4_of_no_word (hb : inBcast off = false) (fn a : Nat) (v : Word) :
    s.write4 fn a off v = s ∨ s.write4 fn a off v = s.at_ a := by
  have hspot := (wordAt_eq_none_iff off).mp h
  cases hm : s.mayWrite fn off with
  | false => simp [State.write4, hb, hm]
  | true => simp [State.write4, hb, hm, isLow_of_no_spot hspot, isHigh_of_no_spot hspot, State.writeWords_of_no_word h]

theorem exec_registerWrite_of_no_word {fn : Fin 64} (hb : inBcast off = false) (a : Nat) (v : BitVec 32) :
    ∃ t, exec (.registerWrite fn a off v none) s = .next t ∧ (t = s ∨ t = s.at_ a) :=
  ⟨_, rfl, State.write4_of_no_word h hb fn a v⟩

theorem exec_halfWrite_of_no_word {fn : Fin 64} (v : BitVec 32) : exec (.halfWrite fn off v) s = .next s := by
  have hspot := (wordAt_eq_none_iff off).mp h
  show Host.Outcome.next (if isLow off ∨ isHigh off then _ else s) = _
  simp [isLow_of_no_spot hspot, isHigh_of_no_spot hspot]

theorem exec_w1cClear_of_no_word {fn : Fin 64} (v : BitVec 32) : exec (.w1cClear fn off v) s = .next s := by
  show Host.Outcome.next (if s.mayWrite fn off then s.w1cWord off v else s) = _
  rw [State.w1cWord_of_no_word h, ite_self]

end

/-! ### The obligation -/

/-- Settles O7, from one equation for each command of the statement, which gives the state it answers. -/
theorem readsAnswerClearAndHold : Obligations.ReadsAnswerClearAndHold := by
  unfold Obligations.ReadsAnswerClearAndHold
  refine ⟨fun fn a off v s hw hb => ?noRegister, fun fn off s hlow hs => ?lowHalf, fun fn off s hlow hs => ?whole,
    fun fn off v s hhigh hs hl => ?highHalf, fun fn off s hs => ?hidden, fun fn off k s hs hspot => ?oneWord,
    fun fn off s hlow => exec_lowHalfRead_of_not_low hlow, fun off s hlo hhi hst => ?seen⟩
  case noRegister =>
    have hspot := (wordAt_eq_none_iff off).mp hw
    exact ⟨exec_rcCounterRead_of_no_spot hspot, exec_registerWrite_of_no_word hw hb a v, exec_halfWrite_of_no_word hw v,
      exec_w1cClear_of_no_word hw v, exec_lowHalfRead_of_not_low (isLow_of_no_spot hspot)⟩
  case lowHalf =>
    exact ⟨_, exec_lowHalfRead_low hs hlow, rfl, State.latched_of_set s _ fn (off + 4) _ rfl, s.regs.word_afterRead_same off,
      fun _ => s.regs.word_afterRead_other, rfl⟩
  case whole =>
    refine ⟨_, exec_lowHalfRead_whole hs hlow, rfl, fun hrc hrc4 => ?_, rfl⟩
    show (s.regs.afterRead off).afterRead (off + 4) = s.regs
    rw [RegTab.afterRead_of_no_rc hrc4, RegTab.afterRead_of_no_rc hrc]
  case highHalf =>
    exact ⟨_, exec_rcCounterRead_high hs hhigh hl, rfl, State.latched_of_filter s _ fn off rfl, rfl⟩
  case hidden =>
    refine ⟨exec_rcCounterRead_of_hidden hs, fun hlow => ⟨?_, exec_lowHalfRead_whole_of_hidden hs hlow⟩⟩
    rw [exec_lowHalfRead_half hlow]
    exact exec_rcCounterRead_of_hidden hs
  case oneWord =>
    exact ⟨_, exec_rcCounterRead_single hs hspot, rfl, s.regs.word_afterRead_same off, fun _ => s.regs.word_afterRead_other, rfl⟩
  case seen =>
    exact ⟨State.seen_of_portHere hlo hhi hst, State.seen_of_not_portHere hlo hhi hst⟩

end Sys2Proof.Machine
end

section
/-! SUPPORT. The loader's readiness: no operation of IMAGE_LOAD after the loader is ready takes it back (R24, R352). -/

namespace Sys2Proof.Machine

theorem State.foldl_cfgReady {α : Type} (f : State → α → State) (l : List α) (s : State)
    (h : ∀ t x, (f t x).cfgReady = t.cfgReady) : (l.foldl f s).cfgReady = s.cfgReady :=
  List.foldlRecOn (motive := fun t => t.cfgReady = s.cfgReady) l f rfl (fun t ht x _ => (h t x).trans ht)

/-! ### Fields and gaps -/

@[simp] theorem State.setF_cfgReady (s : State) (f : Fld) : (s.setF f).cfgReady = s.cfgReady := rfl

@[simp] theorem State.clrF_cfgReady (s : State) (f : Fld) : (s.clrF f).cfgReady = s.cfgReady := rfl

@[simp] theorem State.putB_cfgReady (s : State) (f : Fld) (b : Bool) : (s.putB f b).cfgReady = s.cfgReady := rfl

@[simp] theorem State.incSat_cfgReady (s : State) (f : Fld) : (s.incSat f).cfgReady = s.cfgReady := rfl

@[simp] theorem State.stageBytes_cfgReady (s : State) (g tag addr : Nat) (bs : List Byte) :
    (s.stageBytes g tag addr bs).cfgReady = s.cfgReady := rfl

@[simp] theorem State.addItem_cfgReady (s : State) (g kind num slot mask start : Nat) :
    (s.addItem g kind num slot mask start).cfgReady = s.cfgReady := by
  unfold State.addItem
  dsimp only
  split <;> rfl

@[simp] theorem State.gapDesc_cfgReady (s : State) (g cause a b mask : Nat) :
    (s.gapDesc g cause a b mask).cfgReady = s.cfgReady := by
  simp [State.gapDesc, apply_ite State.cfgReady]

@[simp] theorem State.gapTo_cfgReady (s : State) (g upto : Nat) : (s.gapTo g upto).cfgReady = s.cfgReady := by
  unfold State.gapTo
  dsimp only
  split
  · rfl
  · exact State.foldl_cfgReady _ _ _ (fun t p => t.gapDesc_cfgReady _ _ _ _ _)

@[simp] theorem State.showGaps_cfgReady (s : State) (g : Nat) : (s.showGaps g).cfgReady = s.cfgReady := by
  unfold State.showGaps
  dsimp only
  split <;> rfl

@[simp] theorem State.gapSync_cfgReady (s : State) (g : Nat) : (s.gapSync g).cfgReady = s.cfgReady := by simp [State.gapSync]

@[simp] theorem State.addLoss_cfgReady (s : State) (g : Nat) (l : Loss) : (s.addLoss g l).cfgReady = s.cfgReady := rfl

@[simp] theorem State.endLoss_cfgReady (s : State) (g cause x : Nat) : (s.endLoss g cause x).cfgReady = s.cfgReady := rfl

@[simp] theorem State.setLoss_cfgReady (s : State) (g x cause mask : Nat) :
    (s.setLoss g x cause mask).cfgReady = s.cfgReady := by
  simp [State.setLoss, apply_ite State.cfgReady]

@[simp] theorem State.setLossAll_cfgReady (s : State) (x cause mask : Nat) :
    (s.setLossAll x cause mask).cfgReady = s.cfgReady :=
  State.foldl_cfgReady _ _ _ (fun t g => t.setLoss_cfgReady g x cause mask)

/-! ### Slots and readers -/

@[simp] theorem State.holdWatch_cfgReady (s : State) (g : Nat) : (s.holdWatch g).cfgReady = s.cfgReady := by
  simp [State.holdWatch, apply_ite State.cfgReady]

@[simp] theorem State.showOldest_cfgReady (s : State) (g : Nat) : (s.showOldest g).cfgReady = s.cfgReady := by
  unfold State.showOldest
  split <;> rfl

@[simp] theorem State.freeSlot_cfgReady (s : State) (g num : Nat) : (s.freeSlot g num).cfgReady = s.cfgReady := by
  simp [State.freeSlot, State.showPressure]

@[simp] theorem State.releaseSlot_cfgReady (s : State) (g num : Nat) : (s.releaseSlot g num).cfgReady = s.cfgReady := by
  unfold State.releaseSlot
  dsimp only
  split
  · simp [apply_ite State.cfgReady]
  · rfl

@[simp] theorem State.readerDone_cfgReady (s : State) (g num reader : Nat) :
    (s.readerDone g num reader).cfgReady = s.cfgReady := by
  unfold State.readerDone
  dsimp only
  split
  · simp [apply_ite State.cfgReady]
  · rfl

@[simp] theorem State.bindQ_cfgReady (s : State) (q g : Nat) : (s.bindQ q g).cfgReady = s.cfgReady := rfl

@[simp] theorem State.unbindQ_cfgReady (s : State) (q g : Nat) : (s.unbindQ q g).cfgReady = s.cfgReady := by
  unfold State.unbindQ
  dsimp only
  split
  · rfl
  · exact State.foldl_cfgReady _ _ _ (fun t x => by simp [apply_ite State.cfgReady])

/-! ### Words of an image's records -/

@[simp] theorem State.qcCtrl_cfgReady (s : State) (q : Nat) (v : Word) : (s.qcCtrl q v).cfgReady = s.cfgReady := by
  simp [State.qcCtrl, apply_ite State.cfgReady]

@[simp] theorem State.freezeWrite_cfgReady (s : State) (a n : Nat) (v : Bool) : (s.freezeWrite a n v).cfgReady = s.cfgReady := rfl

@[simp] theorem State.acceptStep_cfgReady (s : State) : s.acceptStep.cfgReady = s.cfgReady := by
  unfold State.acceptStep
  dsimp only
  split <;> rfl

@[simp] theorem State.wakeRelease_cfgReady (s : State) : s.wakeRelease.cfgReady = s.cfgReady := by
  unfold State.wakeRelease
  split <;> rfl

@[simp] theorem State.rwWord_cfgReady (s : State) (a off : Nat) (v : Word) : (s.rwWord a off v).cfgReady = s.cfgReady := by
  simp [State.rwWord, apply_ite State.cfgReady]

@[simp] theorem State.rwsWord_cfgReady (s : State) (off : Nat) (v : Word) : (s.rwsWord off v).cfgReady = s.cfgReady := by
  simp [State.rwsWord, apply_ite State.cfgReady]

@[simp] theorem State.loadWord_cfgReady (s : State) (rw : Bool) (off v : Nat) :
    (s.loadWord rw off v).cfgReady = s.cfgReady := by
  simp [State.loadWord, apply_ite State.cfgReady]

@[simp] theorem State.loadWords_cfgReady (s : State) (rw : Bool) (off : Nat) (vs : List Nat) :
    (s.loadWords rw off vs).cfgReady = s.cfgReady := by
  induction vs generalizing s off with
  | nil => rfl
  | cons v vs ih => rw [State.loadWords, ih, State.loadWord_cfgReady]

@[simp] theorem State.loadWrites_cfgReady (s : State) (rw : Bool) (img : Image) :
    (s.loadWrites rw img).cfgReady = s.cfgReady :=
  State.foldl_cfgReady _ _ _ (fun t p => t.loadWords_cfgReady rw p.1 p.2)

@[simp] theorem State.loadSlot_cfgReady (s : State) (k : Nat) (img : Image) : (s.loadSlot k img).cfgReady = s.cfgReady := by
  simp [State.loadSlot, apply_ite State.cfgReady]

/-! ### The clock words handed over -/

@[simp] theorem State.setLoop_cfgReady (s : State) (k : Nat) : (s.setLoop k).cfgReady = s.cfgReady := rfl

@[simp] theorem State.startAcq_cfgReady (s : State) : s.startAcq.cfgReady = s.cfgReady := by
  unfold State.startAcq
  dsimp only
  split <;> rfl

@[simp] theorem State.leaveWait_cfgReady (s : State) : s.leaveWait.cfgReady = s.cfgReady := by
  simp [State.leaveWait, apply_ite State.cfgReady]

@[simp] theorem State.openPllGap_cfgReady (s : State) (c : Nat) : (s.openPllGap c).cfgReady = s.cfgReady := by
  simp [State.openPllGap]

@[simp] theorem State.handClk_cfgReady (s : State) : s.handClk.cfgReady = s.cfgReady := by
  simp [State.handClk, apply_ite State.cfgReady]

/-- Where no reset is held, the loader is ready once it has read both slots, whatever they hold (R24, R352). -/
theorem exec_imageLoad_cfgReady {s : State} (hcore : s.pwr.coreLoss = false) (hheld : s.pwr.thermalHold = false)
    (sfdpOk errA errB otpOk : Bool) : ∃ t, exec (.imageLoad sfdpOk errA errB otpOk) s = .next t ∧ t.cfgReady = true := by
  refine ⟨_, rfl, ?_⟩
  by_cases hready : s.cfgReady = true
  · rw [if_pos (Or.inl hready), hready]
  · rw [if_neg (by simp [hready, hcore, hheld])]
    dsimp only
    split <;> simp

end Sys2Proof.Machine
end

section
/-! SUPPORT. Words that a reset removes from a register set read their reset value again; the reset values of queue contexts and of
BAR2 bases (R9, R230, R375). -/

namespace Sys2Proof.Machine

/-! ### Tables with keys removed -/

theorem Tab.get_filter {α : Type} (d : α) (t : Tab α) (keep : Nat → Bool) (k : Nat) :
    Tab.get d (t.filter (fun p => keep p.1)) k = if keep k then Tab.get d t k else d := by
  induction t with
  | nil => simp [Tab.get]
  | cons p rest ih =>
    by_cases hp : keep p.1 = true <;> by_cases hk : p.1 = k
    · subst hk
      simp [Tab.get, hp]
    · simp [Tab.get, hp, hk, ih]
    · subst hk
      simp [hp, ih]
    · simp [Tab.get, hp, hk, ih]

/-- A word whose offset a reset removes reads its reset value, every other word is unchanged. -/
theorem RegTab.word_filter (r : RegTab) (keep : Nat → Bool) (off : Nat) :
    RegTab.word (r.filter (fun p => keep p.1)) off = if keep off then r.word off else resetWord off :=
  Tab.get_filter _ r keep off

theorem RegTab.word_clearRange_inside (r : RegTab) {lo hi off : Nat} (h1 : lo ≤ off) (h2 : off < hi) :
    (r.clearRange lo hi).word off = resetWord off := by
  rw [RegTab.clearRange, RegTab.word_filter r (fun k => k < lo || hi ≤ k), if_neg (by simp [h1, h2])]

theorem RegTab.word_clearRange_outside (r : RegTab) {lo hi off : Nat} (h : off < lo ∨ hi ≤ off) :
    (r.clearRange lo hi).word off = r.word off := by
  rw [RegTab.clearRange, RegTab.word_filter r (fun k => k < lo || hi ≤ k), if_pos (by simpa using h)]

theorem RegTab.fld_of_word_zero {r : RegTab} {f : Fld} (h : r.word f.off = 0) : r.fld f = 0 := by
  simp [RegTab.fld, h, fldGet]

/-! ### Cards that repeat -/

/-- A card has no word from an offset on. -/
def Card.endsBy (c : Card) (a : Nat) : Bool :=
  match c.dims with
  | [] => decide (c.base + 4 * c.words.length ≤ a)
  | d :: _ => decide (0 < d.1) && decide (c.base + d.1 * d.2 ≤ a)

theorem Card.wordAt_of_endsBy {c : Card} {a off : Nat} (h : c.endsBy a = true) (hoff : a ≤ off) : c.wordAt off = none := by
  have hplace : Card.place c.dims c.words.length (off - c.base) = none := by
    unfold Card.endsBy at h
    cases hd : c.dims with
    | nil =>
      rw [hd] at h
      simp only [decide_eq_true_eq] at h
      rw [Card.place, if_neg (by omega)]
    | cons d ds =>
      rw [hd] at h
      simp only [Bool.and_eq_true, decide_eq_true_eq] at h
      obtain ⟨hpos, hend⟩ := h
      have hbeyond : d.2 ≤ (off - c.base) / d.1 := (Nat.le_div_iff_mul_le hpos).mpr (by rw [Nat.mul_comm]; omega)
      rw [Card.place, if_neg (Nat.not_lt.mpr hbeyond)]
  rw [Card.wordAt, hplace]
  split <;> rfl

theorem Card.wordAt_of_lt_base {c : Card} {off : Nat} (h : off < c.base) : c.wordAt off = none := if_pos h

/-- Where a card with one index has its words. -/
theorem Card.wordAt_index {c : Card} {st n off q r : Nat} (hd : c.dims = [(st, n)]) (hr : r < st)
    (hoff : off = c.base + (st * q + r)) : c.wordAt off = if q < n ∧ r % 4 = 0 then c.words[r / 4]? else none := by
  have hdiv : (st * q + r) / st = q := by rw [Nat.mul_add_div (by omega), Nat.div_eq_of_lt hr, Nat.add_zero]
  have hmod : (st * q + r) % st = r := by rw [Nat.mul_add_mod, Nat.mod_eq_of_lt hr]
  subst hoff
  rw [Card.wordAt, if_neg (by omega), Nat.add_sub_cancel_left, hd]
  simp only [Card.place, hdiv, hmod]
  by_cases hq : q < n
  · by_cases hw : r % 4 = 0
    · by_cases hlen : r / 4 < c.words.length <;> simp [hq, hw, hlen]
    · simp [hq, hw]
  · simp [hq]

/-- At n offsets from a on in steps of st a card has the same word, or none at any: it lies beside them all, or it has their steps
and no word of it crosses from one step into the next offset. -/
def Card.repeats (c : Card) (a st n : Nat) : Bool :=
  decide (a + st * n < c.base + st) || c.endsBy a ||
    (c.dims == [(st, n)] && if c.base ≤ a then decide (a < c.base + st) else decide (c.base + 4 * c.words.length ≤ a + st))

theorem Card.wordAt_of_repeats {c : Card} {a st n q : Nat} (h : c.repeats a st n = true) (hq : q < n) :
    c.wordAt (a + st * q) = c.wordAt a := by
  simp only [Card.repeats, Bool.or_eq_true, Bool.and_eq_true, decide_eq_true_eq, beq_iff_eq] at h
  rcases h with (habove | hends) | ⟨hd, hsteps⟩
  · have hlast : st * q + st ≤ st * n := Nat.mul_succ st q ▸ Nat.mul_le_mul_left _ hq
    rw [Card.wordAt_of_lt_base (by omega), Card.wordAt_of_lt_base (by omega)]
  · rw [Card.wordAt_of_endsBy hends (Nat.le_add_right _ _), Card.wordAt_of_endsBy hends (Nat.le_refl _)]
  · split at hsteps
    case isTrue hbase =>
      rw [decide_eq_true_eq] at hsteps
      rw [Card.wordAt_index (q := q) (r := a - c.base) hd (by omega) (by omega),
        Card.wordAt_index (q := 0) (r := a - c.base) hd (by omega) (by omega)]
      simp [hq, Nat.zero_lt_of_lt hq]
    case isFalse hbase =>
      rw [decide_eq_true_eq] at hsteps
      rw [Card.wordAt_of_lt_base (off := a) (by omega)]
      cases q with
      | zero => exact Card.wordAt_of_lt_base (by omega)
      | succ k =>
        rw [Card.wordAt_index (q := k) (r := a + st - c.base) hd (by omega) (by rw [Nat.mul_succ]; omega),
          List.getElem?_eq_none (by omega), ite_self]

theorem wordAtIn_congr {cs : List Card} {a b : Nat} (h : ∀ c ∈ cs, c.wordAt a = c.wordAt b) : wordAtIn cs a = wordAtIn cs b := by
  induction cs with
  | nil => rfl
  | cons c rest ih =>
    rw [wordAtIn, wordAtIn, h c List.mem_cons_self, ih (fun d hd => h d (List.mem_cons_of_mem _ hd))]

/-- Where every card repeats, every step has the register of the first. -/
theorem wordAt_of_repeats {a st n q : Nat} (h : ∀ c ∈ cards, c.repeats a st n = true) (hq : q < n) :
    wordAt (a + st * q) = wordAt a :=
  wordAtIn_congr (fun c hc => Card.wordAt_of_repeats (h c hc) hq)

/-! ### Reset values of the host interface -/

/-- No register of chapter 09 has a reset value that its card states as a rule. -/
theorem specialReset_of_host {off : Nat} (h1 : 0x900000 ≤ off) (h2 : off < 0xC00000) : specialReset off = none := by
  unfold specialReset
  rw [if_neg (by omega), if_neg (by omega), if_neg (by omega), if_neg (by omega), if_neg (by omega), if_neg (by omega),
    if_neg (by omega), if_neg (by omega), if_neg (by omega)]

theorem resetWord_of_host {off : Nat} {w : CardWord} (h1 : 0x900000 ≤ off) (h2 : off < 0xC00000) (hw : wordAt off = some w) :
    resetWord off = BitVec.ofNat 32 w.reset := by
  rw [resetWord, specialReset_of_host h1 h2, hw]

theorem resetWord_queueStatus (q : Fin 1024) : resetWord (R.DMA_QC_STATUS q) = 0 := by
  have hcards : ∀ c ∈ cards, c.repeats 0xA00014 0x800 1024 = true := by decide +kernel
  have hfirst : wordAt 0xA00014 = some ⟨0xF0FF0001, 0, 0, 0xE, 0, 0, 0⟩ := by decide +kernel
  have hq := q.isLt
  exact resetWord_of_host (by omega) (by omega)
    ((wordAt_of_repeats hcards hq).trans hfirst)

theorem resetWord_bar2Base (f : Fin 64) : resetWord (R.DMA_BAR2_BASE f) = 0 := by
  have hcards : ∀ c ∈ cards, c.repeats 0x900100 4 64 = true := by decide +kernel
  have hfirst : wordAt 0x900100 = some ⟨0, 0x7F, 0, 0, 0, 0, 0⟩ := by decide +kernel
  have hf := f.isLt
  exact resetWord_of_host (by omega) (by omega)
    ((wordAt_of_repeats hcards hf).trans hfirst)

end Sys2Proof.Machine
end

section
/-! SUPPORT. What a reset of functions does to the queues' contexts, the vectors' masks and the registers (R230, R375, Table 17.3). -/

namespace Sys2Proof.Machine

open Sys2Proof.Safety

/-! ### What leaving a queue's context touches -/

/-- Of everything but the registers, the groups and the store's scheduler only the queues that ok names may differ. -/
def onlyQueues (ok : Nat → Bool) (s t : State) : Prop :=
  t = { s with regs := t.regs, grps := t.grps, sto := t.sto, hostqs := t.hostqs } ∧ ∀ k, ok k = false → t.hostq k = s.hostq k

section

variable {ok : Nat → Bool} {s t : State}

theorem onlyQueues_refl (ok : Nat → Bool) (s : State) : onlyQueues ok s s := ⟨rfl, fun _ _ => rfl⟩

theorem onlyQueues_trans {u : State} (hst : onlyQueues ok s t) (htu : onlyQueues ok t u) : onlyQueues ok s u := by
  obtain ⟨eqT, queuesT⟩ := hst
  obtain ⟨eqU, queuesU⟩ := htu
  refine ⟨?_, fun k hk => (queuesU k hk).trans (queuesT k hk)⟩
  rw [eqT] at eqU
  exact eqU

theorem onlyQueues_put (h : onlyQueues ok s t) (f : Fld) (v : Nat) : onlyQueues ok s (t.put f v) :=
  onlyQueues_trans h ⟨rfl, fun _ _ => rfl⟩

theorem onlyQueues_setGrp (h : onlyQueues ok s t) (g : Nat) (v : Grp) : onlyQueues ok s (t.setGrp g v) :=
  onlyQueues_trans h ⟨rfl, fun _ _ => rfl⟩

theorem onlyQueues_setHostq (h : onlyQueues ok s t) {q : Nat} (hq : ok q = true) (v : HostQ) : onlyQueues ok s (t.setHostq q v) :=
  onlyQueues_trans h ⟨rfl, fun k hk => State.setHostq_hostq_other _ _ _ _ (by rintro rfl; simp [hq] at hk)⟩

theorem onlyQueues_remove (h : onlyQueues ok s t) (r : RegTab) :
    onlyQueues ok s { t with regs := r, hostqs := t.hostqs.filter (fun p => !ok p.1) } :=
  onlyQueues_trans h ⟨rfl, fun k hk => (Tab.get_filter _ _ (fun j => !ok j) k).trans (if_pos (by simp [hk]))⟩

theorem onlyQueues_unask (h : onlyQueues ok s t) (k key : Nat) : onlyQueues ok s (t.unask k key) := by
  unfold State.unask
  split
  · exact onlyQueues_trans h ⟨rfl, fun _ _ => rfl⟩
  · exact h

theorem onlyQueues_pinQ (h : onlyQueues ok s t) (q g : Nat) (pages : List Nat) : onlyQueues ok s (t.pinQ q g pages) :=
  onlyQueues_put (onlyQueues_put (onlyQueues_setGrp h _ _) _ _) _ _

theorem onlyQueues_dropRec {q : Nat} (hq : ok q = true) (h : onlyQueues ok s t) : onlyQueues ok s (t.dropRec q) := by
  refine onlyQueues_put (onlyQueues_put (onlyQueues_setHostq ?_ hq _) _ _) _ _
  split
  · exact onlyQueues_pinQ h _ _ _
  · exact h

theorem onlyQueues_abortQ {q : Nat} (hq : ok q = true) (h : onlyQueues ok s t) : onlyQueues ok s (t.abortQ q) := by
  unfold State.abortQ
  split
  · exact h
  · exact onlyQueues_put (onlyQueues_setHostq (onlyQueues_unask (onlyQueues_dropRec hq h) 1 q) hq _) _ _

theorem onlyQueues_dropCtx {q : Nat} (hq : ok q = true) (h : onlyQueues ok s t) : onlyQueues ok s (t.dropCtx q) := by
  unfold State.dropCtx
  dsimp only
  split
  · exact onlyQueues_setGrp (onlyQueues_abortQ hq h) _ _
  · exact onlyQueues_abortQ hq h

theorem onlyQueues_dropCtxs {qs : List Nat} (hqs : ∀ q ∈ qs, ok q = true) (s : State) :
    onlyQueues ok s (qs.foldl (fun t q => t.dropCtx q) s) :=
  List.foldlRecOn (motive := onlyQueues ok s) qs _ (onlyQueues_refl ok s) (fun _ h q hq => onlyQueues_dropCtx (hqs q hq) h)

end

/-! ### Contexts reset -/

section

variable (ok : Nat → Bool) (s : State)

theorem State.hostq_resetCtxs_of_reset {q : Nat} (hq : ok q = true) : (s.resetCtxs ok).hostq q = HostQ.init := by
  unfold State.hostq State.resetCtxs
  dsimp only
  rw [Tab.get_filter _ _ (fun k => !ok k), if_neg (by simp [hq])]

theorem State.onlyQueues_resetCtxs : onlyQueues ok s (s.resetCtxs ok) := by
  have hdrop := onlyQueues_dropCtxs (ok := ok) (fun q (hq : q ∈ (List.range 1024).filter ok) => (List.mem_filter.mp hq).2) s
  unfold State.resetCtxs
  generalize List.foldl _ _ _ = t at hdrop ⊢
  exact onlyQueues_remove hdrop _

/-- The registers of a queue whose context is reset read their reset values. -/
theorem State.word_resetCtxs {q r : Nat} (hq : ok q = true) (hq2 : q < 1024) (hr : r < 0x800) :
    (s.resetCtxs ok).word (0xA00000 + 0x800 * q + r) = resetWord (0xA00000 + 0x800 * q + r) := by
  have hdiv : (0xA00000 + 0x800 * q + r - 0xA00000) / 0x800 = q := by omega
  have hlo : ¬ 0xA00000 + 0x800 * q + r < 0xA00000 := by omega
  have hhi : ¬ 0xC00000 ≤ 0xA00000 + 0x800 * q + r := by omega
  unfold State.word State.resetCtxs
  dsimp only
  rw [RegTab.word_filter _ (fun k => k < 0xA00000 || 0xC00000 ≤ k || !ok ((k - 0xA00000) / 0x800)), if_neg]
  rw [hdiv, hq, decide_eq_false hlo, decide_eq_false hhi]
  exact Bool.false_ne_true

theorem State.word_resetCtxs_status {q : Fin 1024} (hq : ok q = true) : (s.resetCtxs ok).word (R.DMA_QC_STATUS q) = 0 := by
  have hoff : R.DMA_QC_STATUS q = 0xA00000 + 0x800 * q + 0x14 := by unfold R.DMA_QC_STATUS; omega
  rw [← resetWord_queueStatus q, hoff]
  exact s.word_resetCtxs ok hq q.isLt (by omega)

/-- The queues that ok names have their contexts at reset, in a state that is otherwise s. -/
structure QueuesReset (u : State) : Prop where
  only : onlyQueues ok s u
  hostq : ∀ q, ok q = true → u.hostq q = HostQ.init
  status : ∀ q : Fin 1024, ok q = true → u.word (R.DMA_QC_STATUS q) = 0

theorem State.queuesReset_resetCtxs : QueuesReset ok s (s.resetCtxs ok) :=
  ⟨s.onlyQueues_resetCtxs ok, fun _ => s.hostq_resetCtxs_of_reset ok, fun _ => s.word_resetCtxs_status ok⟩

end

theorem memSame_of_fields {s t : State} (hstore : t.store = s.store) (hflash : t.flash = s.flash) : memSame s t :=
  ⟨fun a => by rw [State.sread, State.sread, hstore], fun a => by rw [hflash]⟩

/-- A state that differs from one whose queues are reset in registers and vectors alone has the memories of before. -/
theorem QueuesReset.frame {ok : Nat → Bool} {s u t : State} (h : QueuesReset ok s u)
    (ht : t = { u with regs := t.regs, msix := t.msix }) : memSame s t ∧
      t = { s with regs := t.regs, grps := t.grps, sto := t.sto, hostqs := t.hostqs, msix := t.msix } := by
  obtain ⟨heq, -⟩ := h.only
  have hstore : t.store = s.store := by rw [ht, heq]
  have hflash : t.flash = s.flash := by rw [ht, heq]
  exact ⟨memSame_of_fields hstore hflash, by rw [ht, heq]⟩

end Sys2Proof.Machine
end

section
/-! SUPPORT. Configuration requests and the masks of a function's vectors (R24, R199, R203). -/

namespace Sys2Proof.Machine

/-! ### Vectors' masks (R203) -/

theorem State.foldl_emit {α : Type} (o : α → Out) (l : List α) (s : State) :
    l.foldl (fun t x => t.emit (o x)) s = { s with out := (l.map o).reverse ++ s.out } := by
  induction l generalizing s with
  | nil => rfl
  | cons x xs ih => rw [List.foldl_cons, ih]; simp [State.emit]

/-- What pends unmasked is sent; nothing but the messages and the Pending Bits changes. -/
theorem State.sendPending_eq (s : State) : s.sendPending = { s with
    out := s.sendPending.out
    msix := { s.msix with pba := s.msix.pba.filter (fun p => s.msix.masked p.1 p.2) } } := by
  unfold State.sendPending
  dsimp only
  rw [State.foldl_emit]

theorem State.sendPending_msix (s : State) :
    s.sendPending.msix = { s.msix with pba := s.msix.pba.filter (fun p => s.msix.masked p.1 p.2) } := by
  rw [State.sendPending_eq]

theorem State.masked_sendPending (s : State) (fn vec : Nat) : s.sendPending.msix.masked fn vec = s.msix.masked fn vec := by
  rw [State.sendPending_msix]
  rfl

theorem State.not_mem_pba_sendPending {s : State} {fn vec : Nat} (h : s.msix.masked fn vec = false) :
    (fn, vec) ∉ s.sendPending.msix.pba := by
  rw [State.sendPending_msix]
  simp [h]

theorem State.msixSet_eq (s : State) (fn : Nat) (req : CfgReq) :
    s.msixSet fn req = { s with out := (s.msixSet fn req).out, msix := (s.msixSet fn req).msix } := by
  cases req with
  | other => rfl
  | functionMask on => exact (State.sendPending_eq _).trans (by rw [State.msixSet, State.sendPending_msix])
  | vectorMask vec on => exact (State.sendPending_eq _).trans (by rw [State.msixSet, State.sendPending_msix])

theorem State.masked_functionMask (s : State) (fn vec : Nat) : (s.msixSet fn (.functionMask true)).msix.masked fn vec = true := by
  rw [State.msixSet, State.masked_sendPending]
  simp [Msix.masked]

/-- A vector unmasked by itself, of a function that is not masked, is unmasked and pends no more. -/
theorem State.unmasked_vectorMask (s : State) {fn : Nat} (hfn : fn ∉ s.msix.fns) (vec : Fin 2048) :
    (s.msixSet fn (.vectorMask vec false)).msix.masked fn vec = false ∧
      (fn, vec.val) ∉ (s.msixSet fn (.vectorMask vec false)).msix.pba := by
  have hopen : Msix.masked { s.msix with vecs := s.msix.vecs.filter (fun p => p != (fn, vec.val)) } fn vec = false := by
    simp [Msix.masked, hfn]
  exact ⟨(State.masked_sendPending _ _ _).trans hopen, State.not_mem_pba_sendPending hopen⟩

theorem State.unmasked_msixReset (s : State) (ok : Nat → Bool) {fn : Nat} (hfn : ok fn = true) (vec : Nat) :
    (s.msixReset ok).msix.masked fn vec = false ∧ (fn, vec) ∉ (s.msixReset ok).msix.pba := by
  simp [State.msixReset, Msix.masked, hfn]

theorem State.pba_msixReset_all (s : State) : (s.msixReset (fun _ => true)).msix.pba = [] := by simp [State.msixReset]

/-! ### Configuration requests (R24) -/

theorem exec_pcieConfigRequest_of_not_ready {s : State} (h : s.cfgReady = false) (x : CfgAccess) :
    exec (.pcieConfigRequest x) s = .next (s.emit (.completion x.fn 2 false [])) := by
  show Host.Outcome.next (if s.cfgReady then _ else _) = _
  rw [if_neg (by simp [h])]

theorem exec_pcieConfigRequest_of_ready {s : State} (h : s.cfgReady = true) (x : CfgAccess) :
    exec (.pcieConfigRequest x) s = .next ((s.msixSet x.fn x.req).emit (.completion x.fn 0 false [])) := by
  show Host.Outcome.next (if s.cfgReady then _ else _) = _
  rw [if_pos h]

end Sys2Proof.Machine
end

section
/-! SUPPORT. BAR2: Unsupported Requests, and what a read answers when it is granted, waits, or lies beyond the store (R199, R201). -/

namespace Sys2Proof.Machine

open Sys2Proof.Safety

/-! ### Unsupported Requests -/

/-- A saturating counter counts one up to its largest value. -/
theorem State.get_incSat_same (s : State) {f : Fld} (hf : f.ok) :
    (s.incSat f).get f = min (s.get f + 1) (2 ^ f.width - 1) := by
  have hpos := Nat.two_pow_pos f.width
  exact (State.get_put_same s f _ hf).trans (Nat.mod_eq_of_lt (by omega))

theorem State.changesOnly_countUr (s : State) : changesOnly [F.DMA_UR_CNT_COUNT] s (s.incSat F.DMA_UR_CNT_COUNT) :=
  ⟨onlyFields_put _ _ _ _ _ (Fld.ok_of _ rfl) List.mem_cons_self (onlyFields_refl _ s), memSame_of_fields rfl rfl, rfl⟩

/-- An Unsupported Request that the device answers shows in DMA_STATUS and is counted. -/
def State.markUr (s : State) : State := (s.setF F.DMA_STATUS_UR_SEEN).incSat F.DMA_UR_CNT_COUNT

theorem State.changesOnly_markUr (s : State) : changesOnly [F.DMA_STATUS_UR_SEEN, F.DMA_UR_CNT_COUNT] s s.markUr :=
  ⟨onlyFields_put _ _ _ _ _ (Fld.ok_of _ rfl) (List.mem_cons_of_mem _ List.mem_cons_self)
    (onlyFields_put _ _ _ _ _ (Fld.ok_of _ rfl) List.mem_cons_self (onlyFields_refl _ s)), memSame_of_fields rfl rfl, rfl⟩

theorem State.flag_markUr (s : State) : s.markUr.flag F.DMA_STATUS_UR_SEEN = true := by
  have hget : s.markUr.get F.DMA_STATUS_UR_SEEN = 1 :=
    (State.get_put_word _ _ _ _ (by decide)).trans (State.get_put_same s _ 1 (Fld.ok_of _ rfl))
  exact beq_iff_eq.mpr hget

theorem State.get_markUr (s : State) : s.markUr.get F.DMA_UR_CNT_COUNT = min (s.get F.DMA_UR_CNT_COUNT + 1) (2 ^ 32 - 1) := by
  have hother : (s.setF F.DMA_STATUS_UR_SEEN).get F.DMA_UR_CNT_COUNT = s.get F.DMA_UR_CNT_COUNT :=
    State.get_put_word s _ _ 1 (by decide)
  rw [State.markUr, State.get_incSat_same _ (Fld.ok_of _ rfl), hother]
  rfl

/-! ### Reads of BAR2 (R201) -/

theorem State.drawBytes_state (s : State) (n : Nat) : (s.drawBytes n).2 = { s with free := (s.drawBytes n).2.free } := by
  induction n generalizing s with
  | zero => rfl
  | succ n ih => rw [State.drawBytes, ih]; rfl

theorem State.length_drawBytes (s : State) (n : Nat) : (s.drawBytes n).1.length = n := by
  induction n generalizing s with
  | zero => rfl
  | succ n ih => rw [State.drawBytes, List.length_cons, ih]

section

variable {s : State} {fn : Fin 64} {off len a : Nat} (ha : a = 2 ^ 30 * min 64 (s.get (F.DMA_BAR2_BASE_GIB fn)) + off)
include ha

/-- What a read of BAR2 does, with the address that the function's base gives it. -/
theorem exec_bar2Read : exec (.bar2Read fn off len) s = .next (
    if s.capBytes < a + len then (s.markUr.reportUr fn).emit (.completion fn 1 false [])
    else if (s.ask 1 (2048 + fn) len).1 = false then (s.ask 1 (2048 + fn) len).2
    else if (s.readBytes a len).2 then
      ((s.ask 1 (2048 + fn) len).2.drawBytes len).2.emit (.completion fn 0 true ((s.ask 1 (2048 + fn) len).2.drawBytes len).1)
    else (s.ask 1 (2048 + fn) len).2.emit (.completion fn 0 false (s.readBytes a len).1)) := by
  subst ha
  rfl

theorem exec_bar2Read_beyond (hcap : s.capBytes < a + len) : exec (.bar2Read fn off len) s =
    .next ((s.markUr.reportUr fn).emit (.completion fn 1 false [])) := by
  rw [exec_bar2Read ha, if_pos hcap]

theorem exec_bar2Read_waits (hcap : a + len ≤ s.capBytes) (hask : (s.ask 1 (2048 + fn) len).1 = false) :
    exec (.bar2Read fn off len) s = .next (s.ask 1 (2048 + fn) len).2 := by
  rw [exec_bar2Read ha, if_neg (Nat.not_lt.mpr hcap), if_pos hask]

theorem exec_bar2Read_sound (hcap : a + len ≤ s.capBytes) (hask : (s.ask 1 (2048 + fn) len).1 = true)
    (hsound : (s.readBytes a len).2 = false) : exec (.bar2Read fn off len) s =
      .next ((s.ask 1 (2048 + fn) len).2.emit (.completion fn 0 false (s.readBytes a len).1)) := by
  rw [exec_bar2Read ha, if_neg (Nat.not_lt.mpr hcap), if_neg (by simp [hask]), if_neg (by simp [hsound])]

theorem exec_bar2Read_poisoned (hcap : a + len ≤ s.capBytes) (hask : (s.ask 1 (2048 + fn) len).1 = true)
    (hbad : (s.readBytes a len).2 = true) : exec (.bar2Read fn off len) s =
      .next (((s.ask 1 (2048 + fn) len).2.drawBytes len).2.emit
        (.completion fn 0 true ((s.ask 1 (2048 + fn) len).2.drawBytes len).1)) := by
  rw [exec_bar2Read ha, if_neg (Nat.not_lt.mpr hcap), if_neg (by simp [hask]), if_pos hbad]

end

end Sys2Proof.Machine
end

section
/-! SUPPORT. FUNCTION_LEVEL_RESET and PCIE_FUNCTION_RESET: what they do beside the contexts of the queues (R230, R375, Table 17.3). -/

namespace Sys2Proof.Machine

/-! ### Whose queues -/

/-- Queue q belongs to function f. -/
def State.owns (s : State) (f q : Nat) : Bool := s.flag (F.DMA_Q_OWNER_VALID q) && s.get (F.DMA_Q_OWNER_FUNC q) == f

theorem State.owns_iff (s : State) (f q : Nat) :
    s.owns f q = true ↔ s.flag (F.DMA_Q_OWNER_VALID q) = true ∧ s.get (F.DMA_Q_OWNER_FUNC q) = f := by
  simp [State.owns]

theorem State.not_owns_iff (s : State) (f q : Nat) :
    s.owns f q = false ↔ s.flag (F.DMA_Q_OWNER_VALID q) = false ∨ s.get (F.DMA_Q_OWNER_FUNC q) ≠ f := by
  rw [← Bool.not_eq_true, State.owns_iff, Classical.not_and_iff_not_or_not, Bool.not_eq_true]

/-! ### What is cleared beside the contexts -/

/-- The mailbox and CFG_VIEW, which a reset of the physical function clears, stand below every register of chapter 09. -/
theorem State.word_pfReset (s : State) {off : Nat} (h : 0x900000 ≤ off) : s.pfReset.word off = s.word off := by
  have hview : R.CFG_VIEW + 4 ≤ off := Nat.le_trans (by decide) h
  exact (RegTab.word_clearRange_outside _ (Or.inr hview)).trans (RegTab.word_clearRange_outside _ (Or.inr (by omega)))

/-- What a function's reset does beside the contexts of its queues: its base, its vectors, and for function 0 registers below
chapter 09. -/
def State.clearFunction (u : State) (f : Nat) : State :=
  let t := (u.put (F.DMA_BAR2_BASE_GIB f) 0).msixReset (fun x => x == f)
  if f = 0 then t.pfReset else t

/-- What the controller's reset does beside the contexts of the queues: every base, every vector, and registers below chapter 09. -/
def State.clearFunctions (u : State) : State :=
  let t := u.msixReset (fun _ => true)
  ({ t with regs := t.regs.clearRange 0x900100 0x900200 }).pfReset

section

variable (u : State)

theorem State.clearFunction_eq (f : Nat) : u.clearFunction f = { u with
    regs := (u.clearFunction f).regs
    msix := (u.clearFunction f).msix } := by
  unfold State.clearFunction
  dsimp only
  split <;> rfl

theorem State.msix_clearFunction (f : Nat) : (u.clearFunction f).msix = (u.msixReset (fun x => x == f)).msix := by
  unfold State.clearFunction
  dsimp only
  split <;> rfl

theorem State.hostq_clearFunction (f q : Nat) : (u.clearFunction f).hostq q = u.hostq q := by
  rw [State.clearFunction_eq]
  rfl

theorem State.word_clearFunction (f : Nat) {off : Nat} (h : 0x900000 ≤ off) :
    (u.clearFunction f).word off = (u.put (F.DMA_BAR2_BASE_GIB f) 0).word off := by
  unfold State.clearFunction
  dsimp only
  split
  · exact State.word_pfReset _ h
  · rfl

theorem State.clearFunctions_eq : u.clearFunctions = { u with
    regs := u.clearFunctions.regs
    msix := u.clearFunctions.msix } := rfl

theorem State.word_clearFunctions {off : Nat} (h : 0x900000 ≤ off) :
    u.clearFunctions.word off = (u.regs.clearRange 0x900100 0x900200).word off :=
  State.word_pfReset { u with regs := u.regs.clearRange 0x900100 0x900200 } h

end

/-! ### The commands -/

theorem exec_functionLevelReset (f : Fin 64) (s : State) :
    ∃ u, QueuesReset (s.owns f) s u ∧ exec (.functionLevelReset f) s = .next (u.clearFunction f) :=
  ⟨_, s.queuesReset_resetCtxs _, rfl⟩

theorem State.pcieReset_eq (s : State) : s.pcieReset = (s.resetCtxs (fun _ => true)).clearFunctions := rfl

theorem exec_pcieFunctionReset (s : State) :
    ∃ u, QueuesReset (fun _ => true) s u ∧ exec .pcieFunctionReset s = .next u.clearFunctions := by
  refine ⟨_, s.queuesReset_resetCtxs _, ?_⟩
  rw [← State.pcieReset_eq]
  rfl

/-! ### What the registers read afterwards -/

section

variable {s u : State}

theorem State.get_clearFunction_base (u : State) (f : Nat) : (u.clearFunction f).get (F.DMA_BAR2_BASE_GIB f) = 0 := by
  have hword := u.word_clearFunction f (off := R.DMA_BAR2_BASE f) (by unfold R.DMA_BAR2_BASE; omega)
  calc (u.clearFunction f).get (F.DMA_BAR2_BASE_GIB f)
      = (u.put (F.DMA_BAR2_BASE_GIB f) 0).get (F.DMA_BAR2_BASE_GIB f) := congrArg (fldGet · (F.DMA_BAR2_BASE_GIB f)) hword
    _ = 0 % 2 ^ (F.DMA_BAR2_BASE_GIB f).width := State.get_put_same _ _ _ (Fld.ok_of _ rfl)
    _ = 0 := Nat.zero_mod _

theorem QueuesReset.get_clearFunction_state {ok : Nat → Bool} (hu : QueuesReset ok s u) (f : Fin 64) {q : Fin 1024}
    (hq : ok q = true) : (u.clearFunction f).get (F.DMA_QC_STATUS_STATE q) = 0 := by
  have hother : R.DMA_QC_STATUS q ≠ (F.DMA_BAR2_BASE_GIB f).off := by
    unfold R.DMA_QC_STATUS F.DMA_BAR2_BASE_GIB
    dsimp only
    omega
  refine RegTab.fld_of_word_zero ?_
  calc (u.clearFunction f).word (R.DMA_QC_STATUS q)
      = (u.put (F.DMA_BAR2_BASE_GIB f) 0).word (R.DMA_QC_STATUS q) :=
        u.word_clearFunction f (by unfold R.DMA_QC_STATUS; omega)
    _ = u.word (R.DMA_QC_STATUS q) := State.word_put_other _ _ _ _ hother
    _ = 0 := hu.status q hq

theorem State.get_clearFunctions_base (u : State) (f : Fin 64) : u.clearFunctions.get (F.DMA_BAR2_BASE_GIB f) = 0 := by
  have hf := f.isLt
  refine RegTab.fld_of_word_zero ?_
  calc u.clearFunctions.word (R.DMA_BAR2_BASE f)
      = (u.regs.clearRange 0x900100 0x900200).word (R.DMA_BAR2_BASE f) :=
        u.word_clearFunctions (by unfold R.DMA_BAR2_BASE; omega)
    _ = resetWord (R.DMA_BAR2_BASE f) :=
        RegTab.word_clearRange_inside _ (by unfold R.DMA_BAR2_BASE; omega) (by unfold R.DMA_BAR2_BASE; omega)
    _ = 0 := resetWord_bar2Base f

theorem QueuesReset.get_clearFunctions_state (hu : QueuesReset (fun _ => true) s u) (q : Fin 1024) :
    u.clearFunctions.get (F.DMA_QC_STATUS_STATE q) = 0 := by
  refine RegTab.fld_of_word_zero ?_
  calc u.clearFunctions.word (R.DMA_QC_STATUS q)
      = (u.regs.clearRange 0x900100 0x900200).word (R.DMA_QC_STATUS q) :=
        u.word_clearFunctions (by unfold R.DMA_QC_STATUS; omega)
    _ = u.word (R.DMA_QC_STATUS q) := RegTab.word_clearRange_outside _ (Or.inr (by unfold R.DMA_QC_STATUS; omega))
    _ = 0 := hu.status q rfl

end

/-! ### The obligation -/

/-- Settles O33, from one equation for each command of the statement and what a reset of functions leaves alone. -/
theorem functionsReadAndReset : Obligations.FunctionsReadAndReset := by
  unfold Obligations.FunctionsReadAndReset
  refine ⟨fun fn req s => ⟨fun h => exec_pcieConfigRequest_of_not_ready h _, fun h => ?answered⟩,
    fun a b c d s hcore hheld => exec_imageLoad_cfgReady hcore hheld a b c d,
    fun fn off len a s ha => ⟨fun hcap hask => ⟨exec_bar2Read_sound ha hcap hask, fun hbad => ?poisoned⟩,
      exec_bar2Read_waits ha, fun hcap => ?beyond⟩,
    fun fn off s => ?ignored, fun f s => ?function, fun s => ?controller⟩
  case answered =>
    refine ⟨_, exec_pcieConfigRequest_of_ready h _, rfl, ?_, ?_, ?_, ?_⟩
    · rintro rfl
      rfl
    · rintro rfl v
      exact s.masked_functionMask fn v
    · rintro v rfl hfn
      exact s.unmasked_vectorMask hfn v
    · rw [State.msixSet_eq]
      rfl
  case poisoned =>
    refine ⟨_, _, exec_bar2Read_poisoned ha hcap hask hbad, State.length_drawBytes (s.ask 1 (2048 + fn) len).2 len, ?_, ?_⟩ <;>
    · rw [State.drawBytes_state]
      rfl
  case beyond => exact ⟨_, exec_bar2Read_beyond ha hcap, rfl, s.flag_markUr, s.get_markUr, s.changesOnly_markUr, rfl⟩
  case ignored => exact ⟨_, rfl, rfl, s.get_incSat_same (Fld.ok_of _ rfl), s.changesOnly_countUr, rfl⟩
  case function =>
    obtain ⟨u, hu, hexec⟩ := exec_functionLevelReset f s
    obtain ⟨-, hothers⟩ := hu.only
    obtain ⟨hmem, hframe⟩ := hu.frame (u.clearFunction_eq f)
    refine ⟨_, hexec, u.get_clearFunction_base f, fun q hq => ?other, fun q hvalid howner => ?own, fun v => ?vector, hmem, hframe⟩
    case other =>
      rw [State.hostq_clearFunction]
      exact hothers q ((s.not_owns_iff f q).mpr hq)
    case own =>
      have howns := (s.owns_iff f q).mpr ⟨hvalid, howner⟩
      rw [State.hostq_clearFunction]
      exact ⟨hu.hostq q howns, hu.get_clearFunction_state f howns⟩
    case vector =>
      rw [State.msix_clearFunction]
      exact u.unmasked_msixReset (fun x => x == f.val) (beq_self_eq_true f.val) v
  case controller =>
    obtain ⟨u, hu, hexec⟩ := exec_pcieFunctionReset s
    obtain ⟨hmem, hframe⟩ := hu.frame u.clearFunctions_eq
    exact ⟨_, hexec, u.get_clearFunctions_base, fun q => ⟨hu.hostq q rfl, hu.get_clearFunctions_state q⟩,
      u.pba_msixReset_all, hmem, hframe⟩

end Sys2Proof.Machine
end

section
/-! SUPPORT. What a command does to the queue and to the two memories: every command leaves the queue as it found it, answers a
state whenever it is well formed, and writes one memory at most, keeping its canonical form (R347, log entries 2 to 4). -/

namespace Sys2Proof.Machine

open Sys2Proof.Safety

/-- The commands that may write a byte of the store. -/
def writesStore : Instr → Bool
  | .tickBoundary .. | .commitApply .. | .registerWrite .. | .halfWrite .. | .sampleWordDelivery .. | .trimEstimate ..
  | .slotMonitorCheck .. | .fltBcastWrite .. | .candidateDecision .. | .armTakesEffect .. | .stopTakesEffect .. | .rearmEnd ..
  | .recordRelease .. | .finalHeaderWrite .. | .abacusTrailerWrite .. | .averageAdd .. | .snapshotCopyStart .. | .snapshotCopyEnd ..
  | .storeReadBurst .. | .stackFailure .. | .descNop .. | .descRead .. | .descCopy .. | .descRecord ..
  | .calRelease .. | .powerOn .. | .selfTest .. | .armSectionArming .. | .resetNAssert .. | .resetColdCmd ..
  | .resetWarmCmd .. | .warmReset .. | .storeRailLoss .. | .supplyStateCheck .. | .thermalReset .. | .groupResetApply ..
  | .takeover .. | .smbusBlockWrite .. | .supplyFault .. => true
  | _ => false

/-- The commands that may write a byte of the flash (R347). -/
def writesFlash : Instr → Bool
  | .flashCommandDone .. | .calSaveDone .. => true
  | _ => false

/-- What holds of every command but those that may write. -/
def unlessWriter : Bool → Prop → Prop
  | true, _ => True
  | false, p => p

/-- What a command that leads from s to t does to the queue and the memories, by which memory it may write. -/
inductive MemEffect (s t : State) : Bool → Bool → Prop where
  | none (h : t.pending = s.pending ∧ t.store = s.store ∧ t.flash = s.flash) : MemEffect s t false false
  | store (h : t.pending = s.pending ∧ t.flash = s.flash) (wf : Mem.wf 0 s.store = true → Mem.wf 0 t.store = true) :
      MemEffect s t true false
  | flash (h : t.pending = s.pending ∧ t.store = s.store) (wf : Mem.wf 0xFF s.flash = true → Mem.wf 0xFF t.flash = true) :
      MemEffect s t false true

section
variable {s t : State} {ws wf : Bool} (h : MemEffect s t ws wf)
include h

theorem MemEffect.pending_eq : t.pending = s.pending := by
  cases h with
  | none h => exact h.1
  | store h _ => exact h.1
  | flash h _ => exact h.1

theorem MemEffect.storeSame : unlessWriter ws (storeSame s t) := by
  cases h with
  | none h => exact fun a => by rw [State.sread, State.sread, h.2.1]
  | store _ _ => exact trivial
  | flash h _ => exact fun a => by rw [State.sread, State.sread, h.2]

theorem MemEffect.flashSame : unlessWriter wf (flashSame s t) := by
  cases h with
  | none h => exact fun a => by rw [h.2.2]
  | store h _ => exact fun a => by rw [h.2]
  | flash _ _ => exact trivial

/-- The memories' canonical form and the queue's shape stand. -/
theorem MemEffect.inv (hs : Inv s) : Inv t := by
  obtain ⟨hstore, hflash, hqueue⟩ := hs
  have hq : queueOk t = true := by rwa [queueOk, h.pending_eq]
  cases h with
  | none h =>
    obtain ⟨-, store_eq, flash_eq⟩ := h
    exact ⟨by rwa [store_eq], by rwa [flash_eq], hq⟩
  | store h wf => exact ⟨wf hstore, by rwa [h.2], hq⟩
  | flash h wf => exact ⟨by rwa [h.2], wf hflash, hq⟩

end

/-- The memory that a command may write, by its constructor. -/
theorem exec_memEffect {s t : State} : ∀ c : Instr, exec c s = .next t → MemEffect s t (writesStore c) (writesFlash c)
  | .tickBoundary .., h => .store (execTickBoundary_mem _ _ _ h) (execTickBoundary_store_wf _ _ _ h)
  | .commitReqTick .., h => .none (execCommitReqTick_mem _ _ _ h)
  | .commitReqRecord .., h => .none (execCommitReqRecord_mem _ _ _ _ h)
  | .commitReqAt .., h => .none (execCommitReqAt_mem _ _ _ h)
  | .commitApply .., h => .store (execCommitApply_mem _ _ _ h) (execCommitApply_store_wf _ _ _ h)
  | .cfgCancel .., h => .none (execCfgCancel_mem _ _ _ h)
  | .cfgRevert, h => .none (execCfgRevert_mem _ _ h)
  | .cfgReload .., h => .none (execCfgReload_mem _ _ _ _ h)
  | .flashRead, h => .none (execFlashRead_mem _ _ h)
  | .flashProgram, h => .none (execFlashProgram_mem _ _ h)
  | .flashErase4k, h => .none (execFlashErase4k_mem _ _ h)
  | .flashErase64k, h => .none (execFlashErase64k_mem _ _ h)
  | .flashCommandDone .., h => .flash (execFlashCommandDone_mem _ _ _ h) (execFlashCommandDone_flash_wf _ _ _ h)
  | .registerWrite .., h => .store (execRegisterWrite_mem _ _ _ _ _ _ _ h) (execRegisterWrite_store_wf _ _ _ _ _ _ _ h)
  | .w1cClear .., h => .none (execW1cClear_mem _ _ _ _ _ h)
  | .rcCounterRead .., h => .none (execRcCounterRead_mem _ _ _ _ h)
  | .lowHalfRead .., h => .none (execLowHalfRead_mem _ _ _ _ h)
  | .halfWrite .., h => .store (execHalfWrite_mem _ _ _ _ _ h) (execHalfWrite_store_wf _ _ _ _ _ h)
  | .sampleWordDelivery .., h => .store (execSampleWordDelivery_mem _ _ _ _ _ h) (execSampleWordDelivery_store_wf _ _ _ _ _ h)
  | .clampTrip .., h => .none (execClampTrip_mem _ _ _ _ h)
  | .clampRelease .., h => .none (execClampRelease_mem _ _ _ _ h)
  | .rotationStepDue .., h => .none (execRotationStepDue_mem _ _ _ h)
  | .trimEstimate .., h => .store (execTrimEstimate_mem _ _ _ _ h) (execTrimEstimate_store_wf _ _ _ _ h)
  | .slotMonitorCheck .., h => .store (execSlotMonitorCheck_mem _ _ _ h) (execSlotMonitorCheck_store_wf _ _ _ h)
  | .spareTakeover .., h => .none (execSpareTakeover_mem _ _ _ h)
  | .fltDcFreezeWrite .., h => .none (execFltDcFreezeWrite_mem _ _ _ _ _ h)
  | .fltBcastWrite .., h => .store (execFltBcastWrite_mem _ _ _ _ h) (execFltBcastWrite_store_wf _ _ _ _ h)
  | .filterOutput .., h => .none (execFilterOutput_mem _ _ _ h)
  | .analogCrossing .., h => .none (execAnalogCrossing_mem _ _ _ _ _ h)
  | .interpolatorMeasurement .., h => .none (execInterpolatorMeasurement_mem _ _ _ _ _ _ _ h)
  | .interpolatorIdleRefresh .., h => .none (execInterpolatorIdleRefresh_mem _ _ _ _ _ _ _ h)
  | .interpolatorSpareSwap .., h => .none (execInterpolatorSpareSwap_mem _ _ _ _ h)
  | .digitalCrossing .., h => .none (execDigitalCrossing_mem _ _ _ h)
  | .candidateDecision .., h => .store (execCandidateDecision_mem _ _ _ h) (execCandidateDecision_store_wf _ _ _ h)
  | .timeoutExpiry .., h => .none (execTimeoutExpiry_mem _ _ _ h)
  | .patternDurationReached .., h => .none (execPatternDurationReached_mem _ _ _ h)
  | .sequenceAExpiry .., h => .none (execSequenceAExpiry_mem _ _ _ h)
  | .arm .., h => .none (execArm_mem _ _ _ _ h)
  | .armTakesEffect .., h => .store (execArmTakesEffect_mem _ _ _ h) (execArmTakesEffect_store_wf _ _ _ h)
  | .stop .., h => .none (execStop_mem _ _ _ _ h)
  | .stopTakesEffect .., h => .store (execStopTakesEffect_mem _ _ _ h) (execStopTakesEffect_store_wf _ _ _ h)
  | .force .., h => .none (execForce_mem _ _ _ _ h)
  | .fillComplete .., h => .none (execFillComplete_mem _ _ _ h)
  | .recordSpanEnd .., h => .none (execRecordSpanEnd_mem _ _ _ h)
  | .rearmEnd .., h => .store (execRearmEnd_mem _ _ _ h) (execRearmEnd_store_wf _ _ _ h)
  | .continuousRecordOpen .., h => .none (execContinuousRecordOpen_mem _ _ _ h)
  | .slotFreed .., h => .none (execSlotFreed_mem _ _ _ h)
  | .recordRelease .., h => .store (execRecordRelease_mem _ _ _ h) (execRecordRelease_store_wf _ _ _ h)
  | .finalHeaderWrite .., h => .store (execFinalHeaderWrite_mem _ _ _ h) (execFinalHeaderWrite_store_wf _ _ _ h)
  | .abacusTrailerWrite, h => .store (execAbacusTrailerWrite_mem _ _ h) (execAbacusTrailerWrite_store_wf _ _ h)
  | .averageAdd .., h => .store (execAverageAdd_mem _ _ _ h) (execAverageAdd_store_wf _ _ _ h)
  | .talAvgRestart .., h => .none (execTalAvgRestart_mem _ _ _ h)
  | .hitWaveformDraw, h => .none (execHitWaveformDraw_mem _ _ h)
  | .decayDue .., h => .none (execDecayDue_mem _ _ _ h)
  | .decaySweepEnd .., h => .none (execDecaySweepEnd_mem _ _ _ h)
  | .snapshotDue .., h => .none (execSnapshotDue_mem _ _ _ h)
  | .talDbSnap .., h => .none (execTalDbSnap_mem _ _ _ h)
  | .snapshotCopyStart .., h => .store (execSnapshotCopyStart_mem _ _ _ h) (execSnapshotCopyStart_store_wf _ _ _ h)
  | .snapshotCopyEnd .., h => .store (execSnapshotCopyEnd_mem _ _ _ h) (execSnapshotCopyEnd_store_wf _ _ _ h)
  | .talDbClear .., h => .none (execTalDbClear_mem _ _ _ h)
  | .dbClearApply .., h => .none (execDbClearApply_mem _ _ _ h)
  | .storeReadBurst .., h => .store (execStoreReadBurst_mem _ _ _ _ _ _ h) (execStoreReadBurst_store_wf _ _ _ _ _ _ h)
  | .rowRepairSwitch .., h => .none (execRowRepairSwitch_mem _ _ _ _ h)
  | .laneSpareReplace .., h => .none (execLaneSpareReplace_mem _ _ _ h)
  | .stackFailure .., h => .store (execStackFailure_mem _ _ _ _ h) (execStackFailure_store_wf _ _ _ _ h)
  | .portLinkUp .., h => .none (execPortLinkUp_mem _ _ _ h)
  | .portLinkDown .., h => .none (execPortLinkDown_mem _ _ _ h)
  | .fecUncorrectableCodeword .., h => .none (execFecUncorrectableCodeword_mem _ _ _ h)
  | .fecPortFailure .., h => .none (execFecPortFailure_mem _ _ _ _ h)
  | .rxBadFcs .., h => .none (execRxBadFcs_mem _ _ _ h)
  | .rxPauseFrame .., h => .none (execRxPauseFrame_mem _ _ _ _ _ h)
  | .rxPfcFrame .., h => .none (execRxPfcFrame_mem _ _ _ _ _ _ h)
  | .pauseExpiry .., h => .none (execPauseExpiry_mem _ _ _ _ h)
  | .pauseLong .., h => .none (execPauseLong_mem _ _ _ h)
  | .rxArpRequest .., h => .none (execRxArpRequest_mem _ _ _ _ _ _ h)
  | .rxNeighbourSolicitation .., h => .none (execRxNeighbourSolicitation_mem _ _ _ _ _ _ h)
  | .rxFrameDropped .., h => .none (execRxFrameDropped_mem _ _ _ h)
  | .timeMarkerDue .., h => .none (execTimeMarkerDue_mem _ _ _ h)
  | .streamPacketForm .., h => .none (execStreamPacketForm_mem _ _ _ h)
  | .packetTransmitDone .., h => .none (execPacketTransmitDone_mem _ _ _ h)
  | .pcieConfigRequest .., h => .none (execPcieConfigRequest_mem _ _ _ h)
  | .bar2Read .., h => .none (execBar2Read_mem _ _ _ _ _ h)
  | .bar2Write fn off, h => .none (execBar2Write_mem fn off _ _ h)
  | .doorbell .., h => .none (execDoorbell_mem _ _ _ _ h)
  | .queueStart .., h => .none (execQueueStart_mem _ _ _ _ h)
  | .queueResume .., h => .none (execQueueResume_mem _ _ _ _ h)
  | .queueAbort .., h => .none (execQueueAbort_mem _ _ _ _ h)
  | .descriptorFetch .., h => .none (execDescriptorFetch_mem _ _ _ _ h)
  | .descNop .., h => .store (execDescNop_mem _ _ _ h) (execDescNop_store_wf _ _ _ h)
  | .descRead .., h => .store (execDescRead_mem _ _ _ h) (execDescRead_store_wf _ _ _ h)
  | .descCopy .., h => .store (execDescCopy_mem _ _ _ h) (execDescCopy_store_wf _ _ _ h)
  | .descRecord .., h => .store (execDescRecord_mem _ _ _ h) (execDescRecord_store_wf _ _ _ h)
  | .descRelease .., h => .none (execDescRelease_mem _ _ _ h)
  | .readbackCompletion .., h => .none (execReadbackCompletion_mem _ _ _ h)
  | .completionTimeout .., h => .none (execCompletionTimeout_mem _ _ _ h)
  | .completionUr .., h => .none (execCompletionUr_mem _ _ _ h)
  | .functionLevelReset .., h => .none (execFunctionLevelReset_mem _ _ _ h)
  | .pcieFunctionReset, h => .none (execPcieFunctionReset_mem _ _ h)
  | .hotPlug, h => .none (execHotPlug_mem _ _ h)
  | .linkTrainingDone .., h => .none (execLinkTrainingDone_mem _ _ _ h)
  | .vblankStart, h => .none (execVblankStart_mem _ _ h)
  | .frameDone, h => .none (execFrameDone_mem _ _ h)
  | .rasterLineStart .., h => .none (execRasterLineStart_mem _ _ _ h)
  | .rasterFetchBurst .., h => .none (execRasterFetchBurst_mem _ _ _ _ _ h)
  | .refinLost .., h => .none (execRefinLost_mem _ _ _ _ h)
  | .refinRestored .., h => .none (execRefinRestored_mem _ _ _ h)
  | .clkbypLost cyc uncounted, h => .none (execClkbypLost_mem cyc uncounted _ _ h)
  | .ocxoRdyFall, h => .none (execOcxoRdyFall_mem _ _ h)
  | .ocxoRdyRise, h => .none (execOcxoRdyRise_mem _ _ h)
  | .searchStep .., h => .none (execSearchStep_mem _ _ _ h)
  | .loopLock .., h => .none (execLoopLock_mem _ _ _ h)
  | .loopUnlock .., h => .none (execLoopUnlock_mem _ _ _ _ h)
  | .fabricToBypass, h => .none (execFabricToBypass_mem _ _ h)
  | .fabricReturn, h => .none (execFabricReturn_mem _ _ h)
  | .oscillatorStop cyc uncounted, h => .none (execOscillatorStop_mem cyc uncounted _ _ h)
  | .servoUpdate, h => .none (execServoUpdate_mem _ _ h)
  | .ptpSyncRx .., h => .none (execPtpSyncRx_mem _ _ _ _ _ _ _ h)
  | .ptpMessageRx .., h => .none (execPtpMessageRx_mem _ _ _ _ h)
  | .ptpEventTx .., h => .none (execPtpEventTx_mem _ _ _ _ _ _ h)
  | .announceReceiptTimeout .., h => .none (execAnnounceReceiptTimeout_mem _ _ _ h)
  | .keeperSecondsLoad, h => .none (execKeeperSecondsLoad_mem _ _ h)
  | .timeSnap .., h => .none (execTimeSnap_mem _ _ _ h)
  | .stagePeriod .., h => .none (execStagePeriod_mem _ _ _ h)
  | .stageOffsetAdd .., h => .none (execStageOffsetAdd_mem _ _ _ h)
  | .stageOffsetAbs .., h => .none (execStageOffsetAbs_mem _ _ _ h)
  | .stagedTimeApply, h => .none (execStagedTimeApply_mem _ _ h)
  | .timeHistRead .., h => .none (execTimeHistRead_mem _ _ _ _ h)
  | .txqRead .., h => .none (execTxqRead_mem _ _ _ h)
  | .eventEdge .., h => .none (execEventEdge_mem _ _ _ _ _ h)
  | .eventStamp .., h => .none (execEventStamp_mem _ _ _ _ _ h)
  | .eventInterpCalRun .., h => .none (execEventInterpCalRun_mem _ _ _ _ _ _ h)
  | .evtStart .., h => .none (execEvtStart_mem _ _ _ _ h)
  | .evtMeasurementStart .., h => .none (execEvtMeasurementStart_mem _ _ _ _ h)
  | .evtStop .., h => .none (execEvtStop_mem _ _ _ h)
  | .intervalResult .., h => .none (execIntervalResult_mem _ _ _ h)
  | .statsResult .., h => .none (execStatsResult_mem _ _ _ h)
  | .freqGateEnd .., h => .none (execFreqGateEnd_mem _ _ _ h)
  | .evtResRead .., h => .none (execEvtResRead_mem _ _ _ _ h)
  | .calStart, h => .none (execCalStart_mem _ _ h)
  | .calAbort, h => .none (execCalAbort_mem _ _ h)
  | .calRunStart .., h => .none (execCalRunStart_mem _ _ _ h)
  | .calRelease .., h => .store (execCalRelease_mem _ _ _ _ h) (execCalRelease_store_wf _ _ _ _ h)
  | .calSettleEnd .., h => .none (execCalSettleEnd_mem _ _ _ h)
  | .calSaveDone .., h => .flash (execCalSaveDone_mem _ _ _ h) (execCalSaveDone_flash_wf _ _ _ h)
  | .driftAdvisorySet .., h => .none (execDriftAdvisorySet_mem _ _ _ _ h)
  | .driftAdvisoryClear .., h => .none (execDriftAdvisoryClear_mem _ _ _ _ h)
  | .driftRunRequest .., h => .none (execDriftRunRequest_mem _ _ _ h)
  | .calSchedPeriod, h => .none (execCalSchedPeriod_mem _ _ h)
  | .svcFrameApply .., h => .none (execSvcFrameApply_mem _ _ _ h)
  | .svcSafeEntry, h => .none (execSvcSafeEntry_mem _ _ h)
  | .svcFence, h => .none (execSvcFence_mem _ _ h)
  | .excCompliance .., h => .none (execExcCompliance_mem _ _ _ h)
  | .excComplianceClear .., h => .none (execExcComplianceClear_mem _ _ _ h)
  | .excOpenLoad .., h => .none (execExcOpenLoad_mem _ _ _ h)
  | .excShort .., h => .none (execExcShort_mem _ _ _ h)
  | .excRetry .., h => .none (execExcRetry_mem _ _ _ h)
  | .excTrip, h => .none (execExcTrip_mem _ _ h)
  | .excRestore, h => .none (execExcRestore_mem _ _ h)
  | .relayOvercurrent .., h => .none (execRelayOvercurrent_mem _ _ _ h)
  | .relayOpenLoad .., h => .none (execRelayOpenLoad_mem _ _ _ h)
  | .rlyOcClear .., h => .none (execRlyOcClear_mem _ _ _ h)
  | .monitorConversion .., h => .none (execMonitorConversion_mem _ _ _ _ h)
  | .powerOn .., h => .store (execPowerOn_mem _ _ _ h) (execPowerOn_store_wf _ _ _ h)
  | .imageLoad .., h => .none (execImageLoad_mem _ _ _ _ _ _ h)
  | .selfTest .., h => .store (execSelfTest_mem _ _ _ h) (execSelfTest_store_wf _ _ _ h)
  | .selfTestDone, h => .none (execSelfTestDone_mem _ _ h)
  | .armSectionArming, h => .store (execArmSectionArming_mem _ _ h) (execArmSectionArming_store_wf _ _ h)
  | .resetNAssert .., h => .store (execResetNAssert_mem _ _ _ h) (execResetNAssert_store_wf _ _ _ h)
  | .resetColdCmd .., h => .store (execResetColdCmd_mem _ _ _ h) (execResetColdCmd_store_wf _ _ _ h)
  | .resetWarmCmd .., h => .store (execResetWarmCmd_mem _ _ _ h) (execResetWarmCmd_store_wf _ _ _ h)
  | .warmReset .., h => .store (execWarmReset_mem _ _ _ h) (execWarmReset_store_wf _ _ _ h)
  | .coreLoss, h => .none (execCoreLoss_mem _ _ h)
  | .coreLossRestart, h => .none (execCoreLossRestart_mem _ _ h)
  | .storeRailLoss, h => .store (execStoreRailLoss_mem _ _ h) (execStoreRailLoss_store_wf _ _ h)
  | .supplyWarningStart .., h => .none (execSupplyWarningStart_mem _ _ _ _ h)
  | .supplyWarningEnd .., h => .none (execSupplyWarningEnd_mem _ _ _ _ h)
  | .supplyStateCheck .., h => .store (execSupplyStateCheck_mem _ _ _ h) (execSupplyStateCheck_store_wf _ _ _ h)
  | .thermalWarning .., h => .none (execThermalWarning_mem _ _ _ h)
  | .thermalReset .., h => .store (execThermalReset_mem _ _ _ h) (execThermalReset_store_wf _ _ _ h)
  | .thermalRelease, h => .none (execThermalRelease_mem _ _ h)
  | .groupReset .., h => .none (execGroupReset_mem _ _ _ h)
  | .groupResetApply .., h => .store (execGroupResetApply_mem _ _ _ h) (execGroupResetApply_store_wf _ _ _ h)
  | .wakeAlarm, h => .none (execWakeAlarm_mem _ _ h)
  | .wakeRelease, h => .none (execWakeRelease_mem _ _ h)
  | .mirrorFrameRx .., h => .none (execMirrorFrameRx_mem _ _ _ h)
  | .heartbeatRx .., h => .none (execHeartbeatRx_mem _ _ _ _ h)
  | .handoverRx .., h => .none (execHandoverRx_mem _ _ _ _ h)
  | .echoDue, h => .none (execEchoDue_mem _ _ h)
  | .echoRx .., h => .none (execEchoRx_mem _ _ _ _ h)
  | .echoReplyRx .., h => .none (execEchoReplyRx_mem _ _ _ _ _ h)
  | .takeover, h => .store (execTakeover_mem _ _ h) (execTakeover_store_wf _ _ h)
  | .handover, h => .none (execHandover_mem _ _ h)
  | .handoverSend, h => .none (execHandoverSend_mem _ _ h)
  | .firstClr, h => .none (execFirstClr_mem _ _ h)
  | .fatalClr .., h => .none (execFatalClr_mem _ _ _ h)
  | .logClassWrite .., h => .none (execLogClassWrite_mem _ _ _ _ h)
  | .logRdRead .., h => .none (execLogRdRead_mem _ _ _ h)
  | .logFirstRead .., h => .none (execLogFirstRead_mem _ _ _ _ h)
  | .smbusBlockWrite .., h => .store (execSmbusBlockWrite_mem _ _ _ h) (execSmbusBlockWrite_store_wf _ _ _ h)
  | .smbusBlockRead .., h => .none (execSmbusBlockRead_mem _ _ _ h)
  | .scanAccess .., h => .none (execScanAccess_mem _ _ _ _ h)
  | .supplyFault .., h => .store (execSupplyFault_mem _ _ _ _ h) (execSupplyFault_store_wf _ _ _ _ h)
  | .clkbypRestored .., h => .none (execClkbypRestored_mem _ _ _ h)
  | .dpHpdFall, h => .none (execDpHpdFall_mem _ _ h)
  | .acceptStepWrite, h => .none (execAcceptStepWrite_mem _ _ h)
  | .ptpAnnounceTx .., h => .none (execPtpAnnounceTx_mem _ _ _ h)

/-! ### Which commands answer a state -/

/-- A command answers a state when it is well formed, and the one fault when it is not. -/
theorem exec_goes_or_illFormed (c : Instr) (s : State) :
    (wellFormed c = true ∧ goes (exec c s)) ∨ (wellFormed c = false ∧ ∃ what, exec c s = .fault (.illFormed what)) := by
  cases c with
  | sampleWordDelivery q cyc words =>
    by_cases h : words.length = 4 ∧ words.all RawWord.wf = true
    · exact .inl ⟨by simpa [wellFormed] using h, _, if_pos h⟩
    · exact .inr ⟨by simpa [wellFormed] using h, _, if_neg h⟩
  | rxPfcFrame a p enable times =>
    by_cases h : times.length = 8
    · exact .inl ⟨by simpa [wellFormed] using h, _, if_neg (not_not_intro h)⟩
    · exact .inr ⟨by simpa [wellFormed] using h, _, if_pos h⟩
  | descriptorFetch q bytes =>
    by_cases h : bytes.length = 64
    · exact .inl ⟨by simpa [wellFormed] using h, _, if_neg (not_not_intro h)⟩
    · exact .inr ⟨by simpa [wellFormed] using h, _, if_pos h⟩
  | evtMeasurementStart k codes =>
    match codes with
    | [_, _, _, _] => exact .inl ⟨rfl, _, rfl⟩
    | [] | [_] | [_, _] | [_, _, _] => exact .inr ⟨rfl, _, rfl⟩
    | _ :: _ :: _ :: _ :: _ :: _ => exact .inr ⟨by simp [wellFormed], _, rfl⟩
  | _ => exact .inl ⟨rfl, _, rfl⟩

theorem goes_of_wellFormed {c : Instr} (h : wellFormed c = true) (s : State) : goes (exec c s) := by
  rcases exec_goes_or_illFormed c s with ⟨-, hgo⟩ | ⟨hbad, -⟩
  · exact hgo
  · simp [h] at hbad

theorem illFormed_of_not_wellFormed {c : Instr} (h : wellFormed c = false) (s : State) :
    ∃ what, exec c s = .fault (.illFormed what) := by
  rcases exec_goes_or_illFormed c s with ⟨hok, -⟩ | ⟨-, hfault⟩
  · simp [h] at hok
  · exact hfault

/-! ### Steps and runs -/

/-- What a step is: the command in front with the rest waiting, or one core cycle of idling (log entry 1). -/
theorem step_cases {s t : State} (h : step s = .next t) :
    (∃ c rest, s.pending = c :: rest ∧ exec c { s with pending := rest } = .next t) ∨ (s.pending = [] ∧ t = s.idle) := by
  unfold step at h
  cases hp : s.pending with
  | nil =>
    rw [hp] at h
    exact .inr ⟨rfl, (Host.Outcome.next.inj h).symm⟩
  | cons c rest =>
    rw [hp] at h
    exact .inl ⟨c, rest, rfl, h⟩

theorem step_pending {s t : State} (h : step s = .next t) : t.pending = s.pending.drop 1 := by
  rcases step_cases h with ⟨c, rest, hp, hc⟩ | ⟨hp, rfl⟩
  · rw [hp]
    exact (exec_memEffect c hc).pending_eq
  · rw [State.idle, hp]
    rfl

theorem queueOk_step {s t : State} (hs : queueOk s = true) (h : step s = .next t) : queueOk t = true := by
  rw [queueOk, step_pending h, List.all_eq_true]
  exact fun c hc => List.all_eq_true.mp hs c (List.mem_of_mem_drop hc)

theorem stepGoes_of_queueOk {s : State} (hs : queueOk s = true) : stepGoes s := by
  unfold stepGoes step
  cases hp : s.pending with
  | nil => exact ⟨_, rfl⟩
  | cons c rest =>
    rw [queueOk, hp, List.all_cons, Bool.and_eq_true] at hs
    exact goes_of_wellFormed hs.1 _

theorem runGoes_of_queueOk (n : Nat) : ∀ s : State, queueOk s = true → runGoes n s := by
  induction n with
  | zero => exact fun _ _ => trivial
  | succ n ih =>
    intro s hs
    obtain ⟨t, ht⟩ := stepGoes_of_queueOk hs
    exact ⟨t, ht, ih t (queueOk_step hs ht)⟩

/-! ### The obligations -/

/-- Settles O2, from what a command does to the queue and which shapes answer a state, by induction on the length of the run. -/
theorem wellFormedRunsNeverStop : Obligations.WellFormedRunsNeverStop := by
  unfold Obligations.WellFormedRunsNeverStop
  refine ⟨fun c s h => goes_of_wellFormed h s, fun c s h => illFormed_of_not_wellFormed h s, fun c s r h => ?_,
    fun c s t h => (exec_memEffect c h).pending_eq, fun s t hs h => ⟨queueOk_step hs h, step_pending h⟩, runGoes_of_queueOk⟩
  rcases exec_goes_or_illFormed c s with ⟨-, t, ht⟩ | ⟨-, what, hw⟩
  · rw [ht] at h
    cases h
  · rw [hw] at h
    cases h

/-- Settles O5: a step runs one command, which keeps the canonical form of the memory it writes, or idles. -/
theorem stepKeepsTheMemoriesCanonical : Obligations.StepKeepsTheMemoriesCanonical := by
  unfold Obligations.StepKeepsTheMemoriesCanonical
  intro s t hs h
  rcases step_cases h with ⟨c, rest, hp, hc⟩ | ⟨-, rfl⟩
  · obtain ⟨hstore, hflash, hqueue⟩ := hs
    rw [queueOk, hp, List.all_cons, Bool.and_eq_true] at hqueue
    exact (exec_memEffect c hc).inv ⟨hstore, hflash, hqueue.2⟩
  · exact hs

/-- Settles O4: the statement's two lists are those of the commands that may write the store and the flash. -/
theorem fewCommandsWriteTheMemories : Obligations.FewCommandsWriteTheMemories := by
  unfold Obligations.FewCommandsWriteTheMemories
  intro c s t h
  have hsame : unlessWriter (writesStore c) (storeSame s t) ∧ unlessWriter (writesFlash c) (flashSame s t) :=
    ⟨(exec_memEffect c h).storeSame, (exec_memEffect c h).flashSame⟩
  cases c <;> exact hsame

end Sys2Proof.Machine
end

section
/-! SUPPORT. Reading registers after they were written: one rule for each way to write a register word, with side conditions on the
fields' places alone; what a log entry leaves; and how changesOnly is built up along a command. -/

namespace Sys2Proof.Machine

open Sys2Proof.Safety

/-! ### Places of fields -/

/-- A field by its place: unifying a named field with it gives the place. -/
def Fld.at (off hi lo : Nat) : Fld := ⟨off, hi, lo⟩

/-- Two fields inside their words that share no bit. -/
structure Fld.Sep (f g : Fld) : Prop where
  left : f.ok
  right : g.ok
  apart : f.apart g

/-- A field outside the block of the log's registers. -/
structure Fld.Low (f : Fld) : Prop where
  ok : f.ok
  low : f.off < 0xF00000

section
variable {f g : Fld} {a b c d e i : Nat}

theorem Fld.ok.of (h : f = Fld.at a b c) (hb : c ≤ b ∧ b < 32) : f.ok := by
  subst h
  exact hb

theorem Fld.Low.of (h : f = Fld.at a b c) (hb : (c ≤ b ∧ b < 32) ∧ a < 0xF00000) : f.Low := by
  subst h
  exact ⟨hb.1, hb.2⟩

theorem Fld.Sep.of (h : (f, g) = (Fld.at a b c, Fld.at d e i)) (hb : (c ≤ b ∧ b < 32) ∧ (i ≤ e ∧ e < 32) ∧ (a ≠ d ∨ b < i ∨ e < c)) :
    f.Sep g := by
  cases h
  exact ⟨hb.1, hb.2.1, hb.2.2⟩

end

/-! ### Fields and words of a register set -/

section
variable (r : RegTab) {f g : Fld} (v : Nat)

theorem RegTab.fld_lt (f : Fld) : r.fld f < 2 ^ f.width := Nat.mod_lt _ (Nat.two_pow_pos _)

theorem Fld.one_lt_two_pow_width (f : Fld) : 1 < 2 ^ f.width := Nat.one_lt_two_pow (by unfold Fld.width; omega)

theorem RegTab.bit_congr {r r' : RegTab} {f : Fld} (h : r'.fld f = r.fld f) : r'.bit f = r.bit f := by rw [RegTab.bit, RegTab.bit, h]

@[simp] theorem RegTab.fld_setFld_self (h : f.ok) : (r.setFld f v).fld f = v % 2 ^ f.width := r.fld_setFld_same f v h

@[simp] theorem RegTab.fld_setFld_sep (h : f.Sep g) : (r.setFld f v).fld g = r.fld g := r.fld_setFld_apart f g v h.left h.right h.apart

@[simp] theorem RegTab.bit_setFld_sep (h : f.Sep g) : (r.setFld f v).bit g = r.bit g := by rw [RegTab.bit, RegTab.bit, r.fld_setFld_sep v h]

@[simp] theorem RegTab.bit_setFld_one (h : f.ok) : (r.setFld f 1).bit f = true := by
  rw [RegTab.bit, r.fld_setFld_self 1 h, Nat.mod_eq_of_lt f.one_lt_two_pow_width]
  rfl

@[simp] theorem RegTab.bit_setFld_zero (h : f.ok) : (r.setFld f 0).bit f = false := by
  rw [RegTab.bit, r.fld_setFld_self 0 h, Nat.zero_mod]
  rfl

@[simp] theorem RegTab.bit_setFld_ite (h : f.ok) (b : Bool) : (r.setFld f (if b then 1 else 0)).bit f = b := by
  cases b
  · exact r.bit_setFld_zero h
  · exact r.bit_setFld_one h

/-- A counter that saturates holds the saturated value. -/
@[simp] theorem RegTab.fld_setFld_min (h : f.ok) : (r.setFld f (min v (2 ^ f.width - 1))).fld f = min v (2 ^ f.width - 1) := by
  have hpos := Nat.two_pow_pos f.width
  exact (r.fld_setFld_self _ h).trans (Nat.mod_eq_of_lt (by omega))

/-- A word written as a field is where fields lie. -/
structure RegTab.Beside (f : Fld) (off n : Nat) : Prop where
  beside : f.off < off ∨ off + 4 * n ≤ f.off

theorem RegTab.Beside.of {off n a b c : Nat} (h : f = Fld.at a b c) (hb : a < off ∨ off + 4 * n ≤ a) : RegTab.Beside f off n := by
  subst h
  exact ⟨hb⟩

@[simp] theorem RegTab.fld_setWide_beside {off n : Nat} (h : RegTab.Beside f off n) : (r.setWide off n v).fld f = r.fld f := by
  rw [RegTab.fld, RegTab.fld, RegTab.word_setWide_other _ _ _ _ _ h.beside]

@[simp] theorem RegTab.bit_setWide_beside {off n : Nat} (h : RegTab.Beside f off n) : (r.setWide off n v).bit f = r.bit f := by
  rw [RegTab.bit, RegTab.bit, r.fld_setWide_beside v h]

/-- Register words that agree one by one read the same as one number. -/
theorem RegTab.wide_congr {r r' : RegTab} (n : Nat) : ∀ off : Nat, (∀ j, off ≤ j → j < off + 4 * n → r'.word j = r.word j) →
    r'.wide off n = r.wide off n := by
  induction n with
  | zero => exact fun _ _ => rfl
  | succ n ih =>
    intro off h
    rw [RegTab.wide, RegTab.wide, h off (by omega) (by omega), ih (off + 4) (fun j h1 h2 => h j (by omega) (by omega))]

@[simp] theorem RegTab.wide_setFld_beside {off n : Nat} (h : RegTab.Beside f off n) : (r.setFld f v).wide off n = r.wide off n :=
  RegTab.wide_congr n off (fun j h1 h2 => RegTab.word_setFld_other r f v j (by have := h.beside; omega))

@[simp] theorem RegTab.wide_setWide_other {off n k m : Nat} (h : off + 4 * n ≤ k ∨ k + 4 * m ≤ off) :
    (r.setWide k m v).wide off n = r.wide off n :=
  RegTab.wide_congr n off (fun j h1 h2 => RegTab.word_setWide_other m r k v j (by omega))

end

/-- A register word as the field that fills it. -/
theorem fldGet_wordFld (w : Word) (off : Nat) : fldGet w (wordFld off) = w.toNat := by
  have := w.isLt
  simp only [fldGet, wordFld, Fld.width]
  omega

/-- Where every field of a word reads the same, so does the word. -/
theorem RegTab.word_eq_of_fld {r r' : RegTab} {off : Nat} (h : r'.fld (wordFld off) = r.fld (wordFld off)) : r'.word off = r.word off :=
  BitVec.eq_of_toNat_eq (by rw [← fldGet_wordFld, ← fldGet_wordFld (r.word off) off]; exact h)

/-! ### The register set after each operation on a field -/

section
variable (s : State) (f : Fld)

@[simp] theorem State.regs_put (v : Nat) : (s.put f v).regs = s.regs.setFld f v := rfl

@[simp] theorem State.regs_sput (v : Int) : (s.sput f v).regs = s.regs.setFld f (enc f.width v) := rfl

@[simp] theorem State.regs_setF : (s.setF f).regs = s.regs.setFld f 1 := rfl

@[simp] theorem State.regs_clrF : (s.clrF f).regs = s.regs.setFld f 0 := rfl

@[simp] theorem State.regs_putB (b : Bool) : (s.putB f b).regs = s.regs.setFld f (if b then 1 else 0) := rfl

@[simp] theorem State.regs_addSat (k : Nat) : (s.addSat f k).regs = s.regs.setFld f (min (s.regs.fld f + k) (2 ^ f.width - 1)) := rfl

@[simp] theorem State.regs_incSat : (s.incSat f).regs = s.regs.setFld f (min (s.regs.fld f + 1) (2 ^ f.width - 1)) := rfl

@[simp] theorem State.regs_incWrap : (s.incWrap f).regs = s.regs.setFld f (s.regs.fld f + 1) := rfl

@[simp] theorem State.regs_putN (off n v : Nat) : (s.putN off n v).regs = s.regs.setWide off n v := rfl

/-- A saturating counter of w bits counts one up to its largest value. -/
theorem State.get_incSat_width {w : Nat} (h : f.ok) (hw : f.width = w) : (s.incSat f).get f = min (s.get f + 1) (2 ^ w - 1) := by
  rw [State.get_incSat_same s h, hw]

end

/-! ### What a log entry leaves -/

section
variable (s : State) (lc code locus data : Nat)

@[simp] theorem State.fld_post {g : Fld} (h : g.Low) : (s.post lc code locus data).regs.fld g = s.regs.fld g :=
  State.get_post s lc code locus data g h.ok (by
    have := h.low
    rw [Bool.eq_false_iff, ne_eq, Nat.ble_eq]
    omega)

@[simp] theorem State.bit_post {g : Fld} (h : g.Low) : (s.post lc code locus data).regs.bit g = s.regs.bit g := by
  rw [RegTab.bit, RegTab.bit, s.fld_post _ _ _ _ h]

@[simp] theorem State.word_post {off : Nat} (h : off < 0xF00000) : (s.post lc code locus data).regs.word off = s.regs.word off :=
  RegTab.word_eq_of_fld (s.fld_post _ _ _ _ ⟨wordFld_ok off, h⟩)

@[simp] theorem State.wide_post {off n : Nat} (h : off + 4 * n ≤ 0xF00000) : (s.post lc code locus data).regs.wide off n = s.regs.wide off n :=
  RegTab.wide_congr n off (fun j _ h2 => s.word_post _ _ _ _ (by omega))

/-- A log entry changes the log, its registers and what it makes leave the block. -/
theorem State.post_eq : s.post lc code locus data = { s with
    regs := (s.post lc code locus data).regs
    log := (s.post lc code locus data).log
    out := (s.post lc code locus data).out
    twin := (s.post lc code locus data).twin
    msix := (s.post lc code locus data).msix } := (onlyLog_post s lc code locus data).2

end

end Sys2Proof.Machine
end

section
/-! SUPPORT. changesOnly along a command: each operation adds the fields it writes. -/

namespace Sys2Proof.Safety

open Sys2Proof.Machine

section
variable {fs : List Fld} {s t u : State}

theorem changesOnly.refl (fs : List Fld) (s : State) : changesOnly fs s s :=
  ⟨onlyFields_refl fs s, memSame_of_fields rfl rfl, rfl⟩

theorem changesOnly.trans (h : changesOnly fs s t) (k : changesOnly fs t u) : changesOnly fs s u := by
  obtain ⟨hfld, ⟨hstore, hflash⟩, hpending⟩ := h
  obtain ⟨kfld, ⟨kstore, kflash⟩, kpending⟩ := k
  exact ⟨onlyFields_trans _ _ _ _ hfld kfld, ⟨fun a => (kstore a).trans (hstore a), fun a => (kflash a).trans (hflash a)⟩,
    kpending.trans hpending⟩

theorem changesOnly.mono {gs : List Fld} (h : changesOnly fs s t) (k : ∀ f ∈ fs, f ∈ gs) : changesOnly gs s t :=
  ⟨onlyFields_mono _ _ _ _ h.1 k, h.2⟩

/-- A register field is written. -/
theorem changesOnly.put (h : changesOnly fs s t) {f : Fld} {v : Nat} (m : f ∈ fs) (hf : f.ok := by exact .of rfl (by omega)) :
    changesOnly fs s (t.put f v) :=
  ⟨onlyFields_put _ _ _ _ _ hf m h.1, h.2⟩

/-- Register words are written. -/
theorem changesOnly.putN (h : changesOnly fs s t) {off n v : Nat} (m : ∀ f ∈ wideFlds off n, f ∈ fs) :
    changesOnly fs s (t.putN off n v) :=
  ⟨onlyFields_putN _ _ _ _ _ _ m h.1, h.2⟩

/-- A log entry is written. -/
theorem changesOnly.post (h : changesOnly fs s t) {lc code locus data : Nat} (m : ∀ f ∈ logFlds, f ∈ fs := by simp +contextual) :
    changesOnly fs s (t.post lc code locus data) :=
  h.trans ⟨onlyFields_mono _ _ _ _ (onlyLog_post t lc code locus data).1 m, memSame_of_fields (by simp) (by simp), by simp⟩

/-- Parts beside the registers, the memories and the queue change. -/
theorem changesOnly.parts (h : changesOnly fs s t) (hregs : u.regs = t.regs) (hstore : u.store = t.store) (hflash : u.flash = t.flash)
    (hpending : u.pending = t.pending) : changesOnly fs s u :=
  h.trans ⟨onlyFields_of_regs _ _ _ _ hregs (onlyFields_refl _ _), memSame_of_fields hstore hflash, hpending⟩

theorem changesOnly.ite {c : Prop} [Decidable c] (h : changesOnly fs s t) (k : changesOnly fs s u) :
    changesOnly fs s (if c then t else u) := by
  split
  · exact h
  · exact k

end

end Sys2Proof.Safety
end

section
/-! SUPPORT. The front-end service die: what each of its operations does to the fields it shows (R330-R344). -/

namespace Sys2Proof.Machine

open Sys2Proof.Safety

/-! ### Faults of an excitation source (R336-R339) -/

section
variable (s : State) (n : Nat)

@[simp] theorem State.fld_excLog {g : Fld} (h : g.Low) : (s.excLog n).regs.fld g = s.regs.fld g := by
  unfold State.excLog
  split
  · rfl
  · exact s.fld_post _ _ _ _ h

@[simp] theorem State.bit_excLog {g : Fld} (h : g.Low) : (s.excLog n).regs.bit g = s.regs.bit g := by
  rw [RegTab.bit, RegTab.bit, s.fld_excLog n h]

theorem State.outs_excLog : (s.excLog n).svc.outs = s.svc.outs := by
  unfold State.excLog
  split
  · rfl
  · simp

theorem State.changesOnly_excLog {fs : List Fld} {u : State} (h : changesOnly fs u s) (m : ∀ f ∈ logFlds, f ∈ fs) :
    changesOnly fs u (s.excLog n) := by
  unfold State.excLog
  split
  · exact h
  · exact (h.post m).parts rfl rfl rfl rfl

/-- Where FOLD_EN is set the source shows FOLDED and drives at most code 5461. -/
theorem State.fold_of_foldEn (h : s.flag (F.SVC_EXC_CTRL_FOLD_EN n) = true) :
    s.fold n = { (s.setF (F.SVC_OUT_STATUS_FOLDED n)) with svc := { s.svc with
        outs := Tab.set s.svc.outs (48 + n) (min (Tab.get 0 s.svc.outs (48 + n)) 5461) } } := if_pos h

end

theorem State.changesOnly_excFresh (s : State) (n : Fin 48) :
    changesOnly [F.SVC_OUT_STATUS_FOLDED n, F.SVC_OUT_STATUS_SHORT n, F.SVC_OUT_STATUS_OPEN n, F.SVC_OUT_STATUS_COMPLIANCE n] s
      (s.excFresh n) := by
  have hbits := ((((changesOnly.refl [F.SVC_OUT_STATUS_FOLDED n, F.SVC_OUT_STATUS_SHORT n, F.SVC_OUT_STATUS_OPEN n,
    F.SVC_OUT_STATUS_COMPLIANCE n] s).put (f := F.SVC_OUT_STATUS_FOLDED n) (v := 0) (by simp)).put
    (f := F.SVC_OUT_STATUS_SHORT n) (v := 0) (by simp)).put (f := F.SVC_OUT_STATUS_OPEN n) (v := 0) (by simp)).put
    (f := F.SVC_OUT_STATUS_COMPLIANCE n) (v := 0) (by simp)
  exact hbits.parts rfl rfl rfl rfl

theorem State.excRetry_of_folded {s : State} {n : Nat} (h : s.flag (F.SVC_OUT_STATUS_FOLDED n) = true) :
    s.excRetry n = { (s.excFresh n) with svc := { (s.excFresh n).svc with
        outs := Tab.set (s.excFresh n).svc.outs (48 + n) (s.excCode n) } } := if_pos h

/-! ### Frames and the safe state (R330-R332) -/

section
variable (s : State)

/-- Waiting for a time to pass moves the count alone. -/
theorem State.afterTime_eq (t n d : Nat) : s.afterTime t n d = { s with lcnt := (s.afterTime t n d).lcnt } := by
  unfold State.afterTime
  split <;> rfl

theorem State.lcnt_afterTime (t n d : Nat) :
    (s.afterTime t n d).lcnt = if s.pwr.coreLoss then s.lcnt else max s.lcnt (t + s.cyclesOf n d) := by
  unfold State.afterTime
  split <;> rfl

end

/-- A field that is none of an output's status fields, which strobes and faults write. -/
structure Fld.OffStatus (f : Fld) : Prop where
  ok : f.ok
  off : f.off < 0xD90000 ∨ f.off % 64 ≠ 8

theorem Fld.OffStatus.of {f : Fld} {a b c : Nat} (h : f = Fld.at a b c) (hb : (c ≤ b ∧ b < 32) ∧ (a < 0xD90000 ∨ a % 64 ≠ 8)) :
    f.OffStatus := by
  subst h
  exact ⟨hb.1, hb.2⟩

theorem Fld.OffStatus.sep {f : Fld} (h : f.OffStatus) (n hi lo : Nat) (hb : lo ≤ hi ∧ hi < 32) :
    (Fld.mk (0xD90008 + 0x40 * n) hi lo).Sep f :=
  ⟨hb, h.ok, .inl (show 0xD90008 + 0x40 * n ≠ f.off by have := h.off; omega)⟩

/-! ### Strobes -/

section
variable (s : State) (x : Nat)

theorem State.fld_excFresh (n : Nat) {f : Fld} (h : f.OffStatus) : (s.excFresh n).regs.fld f = s.regs.fld f := by
  have hsep := h.sep n
  show ((((s.regs.setFld (F.SVC_OUT_STATUS_FOLDED n) 0).setFld (F.SVC_OUT_STATUS_SHORT n) 0).setFld (F.SVC_OUT_STATUS_OPEN n) 0).setFld
    (F.SVC_OUT_STATUS_COMPLIANCE n) 0).fld f = _
  exact (RegTab.fld_setFld_sep _ _ (hsep 0 0 (by omega))).trans <| (RegTab.fld_setFld_sep _ _ (hsep 2 2 (by omega))).trans <|
    (RegTab.fld_setFld_sep _ _ (hsep 3 3 (by omega))).trans <| RegTab.fld_setFld_sep _ _ (hsep 4 4 (by omega))

theorem State.fld_applyOfs1 (n : Nat) {f : Fld} (h : f.OffStatus) : (s.applyOfs1 x n).regs.fld f = s.regs.fld f := by
  unfold State.applyOfs1
  dsimp only
  split
  · exact RegTab.fld_setFld_sep _ _ (h.sep n 5 5 (by omega))
  · rfl

theorem State.fld_applyOfs {f : Fld} (h : f.OffStatus) (l : List Nat) : (s.applyOfs x l).regs.fld f = s.regs.fld f :=
  List.foldlRecOn (motive := fun t => t.regs.fld f = s.regs.fld f) l _ rfl (fun (t : State) ht n _ => (t.fld_applyOfs1 x n h).trans ht)

theorem State.fld_applyExc {f : Fld} (h : f.OffStatus) (l : List Nat) : (s.applyExc x l).regs.fld f = s.regs.fld f := by
  induction l generalizing s with
  | nil => rfl
  | cons n ns ih => exact (ih _).trans (s.fld_excFresh n h)

/-- Outside the registers and the service die's own part a strobe changes nothing. -/
theorem State.applyOfs1_eq (n : Nat) : s.applyOfs1 x n = { s with regs := (s.applyOfs1 x n).regs, svc := (s.applyOfs1 x n).svc } := by
  unfold State.applyOfs1
  dsimp only
  split <;> rfl

theorem State.svc_applyOfs1 (n : Nat) : (s.applyOfs1 x n).svc =
    { s.svc with outs := Tab.set s.svc.outs n (s.ofsCode n).1, strobe := Tab.set s.svc.strobe n x } := by
  unfold State.applyOfs1
  dsimp only
  split <;> rfl

end

/-- The codes that outputs take follow the written codes and the corrections. -/
theorem State.ofsCode_congr {s t : State} (n : Nat) (hcode : t.regs.fld (F.SVC_OFS_CODE_CODE n) = s.regs.fld (F.SVC_OFS_CODE_CODE n))
    (hcorr : t.svc.corr = s.svc.corr) : t.ofsCode n = s.ofsCode n := by
  have hsigned : t.sget (F.SVC_OFS_CODE_CODE n) = s.sget (F.SVC_OFS_CODE_CODE n) := congrArg (sgn _) hcode
  have hcorrection : t.corr n = s.corr n := congrArg (Tab.get _ · n) hcorr
  rw [State.ofsCode, State.ofsCode, hsigned, hcorrection]

theorem State.excCode_congr {s t : State} (n : Nat) (hcode : t.regs.fld (F.SVC_EXC_CTRL_CODE n) = s.regs.fld (F.SVC_EXC_CTRL_CODE n))
    (hcorr : t.svc.corr = s.svc.corr) : t.excCode n = s.excCode n := by
  simp only [State.excCode, State.get, hcode, State.corr, hcorr]

/-- What a strobe of the listed offset DACs gives the service die. -/
structure OfsStrobed (s t : State) (x : Nat) (l : List Nat) : Prop where
  regs : ∀ f : Fld, f.OffStatus → t.regs.fld f = s.regs.fld f
  corr : t.svc.corr = s.svc.corr
  outs : ∀ k, Tab.get 0 t.svc.outs k = if k ∈ l then (s.ofsCode k).1 else Tab.get 0 s.svc.outs k
  strobe : ∀ k, Tab.get 0 t.svc.strobe k = if k ∈ l then x else Tab.get 0 s.svc.strobe k
  lcnt : t.lcnt = s.lcnt

theorem State.ofsStrobed_applyOfs (s : State) (x : Nat) (l : List Nat) : OfsStrobed s (s.applyOfs x l) x l := by
  induction l generalizing s with
  | nil => exact ⟨fun _ _ => rfl, rfl, fun k => by simp [State.applyOfs], fun k => by simp [State.applyOfs], rfl⟩
  | cons n ns ih =>
    obtain ⟨hregs, hcorr, houts, hstrobe, hlcnt⟩ := ih (s.applyOfs1 x n)
    have hsvc := s.svc_applyOfs1 x n
    have hcode : ∀ k, (s.applyOfs1 x n).ofsCode k = s.ofsCode k :=
      fun k => State.ofsCode_congr k (s.fld_applyOfs1 x n (.of rfl (by omega))) (by rw [hsvc])
    refine ⟨fun f hf => (hregs f hf).trans (s.fld_applyOfs1 x n hf), hcorr.trans (by rw [hsvc]), fun k => ?_, fun k => ?_,
      hlcnt.trans (by rw [s.applyOfs1_eq])⟩
    · have hcons : Tab.get 0 (s.applyOfs x (n :: ns)).svc.outs k = _ := houts k
      rw [hcons, hcode, hsvc, Tab.get_set]
      by_cases hn : k = n <;> by_cases hns : k ∈ ns <;> simp [hn, hns]
    · have hcons : Tab.get 0 (s.applyOfs x (n :: ns)).svc.strobe k = _ := hstrobe k
      rw [hcons, hsvc, Tab.get_set]
      by_cases hn : k = n <;> by_cases hns : k ∈ ns <;> simp [hn, hns]

/-- What a strobe of the listed excitation sources gives the service die. -/
structure ExcStrobed (s t : State) (l : List Nat) : Prop where
  regs : ∀ f : Fld, f.OffStatus → t.regs.fld f = s.regs.fld f
  corr : t.svc.corr = s.svc.corr
  ofs : ∀ k < 48, Tab.get 0 t.svc.outs k = Tab.get 0 s.svc.outs k ∧ Tab.get 0 t.svc.strobe k = Tab.get 0 s.svc.strobe k
  outs : ∀ k, Tab.get 0 t.svc.outs (48 + k) = if k ∈ l then s.excCode k else Tab.get 0 s.svc.outs (48 + k)
  lcnt : t.lcnt = s.lcnt

theorem State.excStrobed_applyExc (s : State) (x : Nat) (l : List Nat) : ExcStrobed s (s.applyExc x l) l := by
  induction l generalizing s with
  | nil => exact ⟨fun _ _ => rfl, rfl, fun _ _ => ⟨rfl, rfl⟩, fun k => by simp [State.applyExc], rfl⟩
  | cons n ns ih =>
    obtain ⟨u, hu, happly⟩ : ∃ u : State, u = { s.excFresh n with svc := { (s.excFresh n).svc with
        outs := Tab.set (s.excFresh n).svc.outs (48 + n) (s.excCode n)
        enabled := if s.flag (F.SVC_EXC_CTRL_EN n) && !s.flag F.SVC_STATUS_EXC_TRIP then setBit (s.excFresh n).svc.enabled n
          else clrBit (s.excFresh n).svc.enabled n
        strobe := Tab.set (s.excFresh n).svc.strobe (48 + n) x } } ∧ s.applyExc x (n :: ns) = u.applyExc x ns := ⟨_, rfl, rfl⟩
    obtain ⟨hregs, hcorr, hofs, houts, hlcnt⟩ := ih u
    have hcode : ∀ k, u.excCode k = s.excCode k := fun k =>
      State.excCode_congr k (by rw [hu]; exact s.fld_excFresh n (.of rfl (by omega))) (by rw [hu]; rfl)
    have huouts : u.svc.outs = Tab.set s.svc.outs (48 + n) (s.excCode n) := by rw [hu]; rfl
    have hustrobe : u.svc.strobe = Tab.set s.svc.strobe (48 + n) x := by rw [hu]; rfl
    rw [happly]
    refine ⟨fun f hf => (hregs f hf).trans (by rw [hu]; exact s.fld_excFresh n hf), hcorr.trans (by rw [hu]; rfl), fun k hk => ?_,
      fun k => ?_, hlcnt.trans (by rw [hu]; rfl)⟩
    · rw [(hofs k hk).1, (hofs k hk).2, huouts, hustrobe, Tab.get_set_other _ _ _ _ _ (by omega), Tab.get_set_other _ _ _ _ _ (by omega)]
      exact ⟨rfl, rfl⟩
    · rw [houts, hcode, huouts, Tab.get_set]
      by_cases hn : k = n <;> by_cases hns : k ∈ ns <;> simp [hn, hns]

/-! ### Frames -/

theorem bitOf_ext_mem {n m k : Nat} : k ∈ bitsSet n m ↔ k < n ∧ bitOf m k = true := by
  rw [bitsSet, List.mem_filter, List.mem_range]

/-- The log entries of a frame. -/
theorem State.post_rel_svcNote (s : State) (x outs rly : Nat) :
    (∀ f : Fld, f.Low → (s.svcNote x outs rly).regs.fld f = s.regs.fld f) ∧
      (s.svcNote x outs rly).svc = s.svc ∧ (s.svcNote x outs rly).lcnt = s.lcnt := by
  unfold State.svcNote
  dsimp only
  split <;> split
  · exact ⟨fun _ _ => rfl, rfl, rfl⟩
  · exact ⟨fun f hf => State.fld_post _ _ _ _ _ hf, by simp, by simp⟩
  · exact ⟨fun f hf => State.fld_post _ _ _ _ _ hf, by simp, by simp⟩
  · exact ⟨fun f hf => (State.fld_post _ _ _ _ _ hf).trans (State.fld_post _ _ _ _ _ hf), by simp, by simp⟩

/-- A state before a frame's outputs apply: the frame's core cycle has come, and a repeat has been counted. -/
def State.frameDue (s : State) (repeated : Bool) (x : Nat) : State :=
  if repeated then (s.at_ x).incSat F.SVC_LINK_ERR_CNT_COUNT else s.at_ x

section
variable (s : State) (repeated : Bool) (x : Nat)

theorem State.frameDue_eq : s.frameDue repeated x = { s with regs := (s.frameDue repeated x).regs, lcnt := max s.lcnt x } := by
  unfold State.frameDue
  split
  · simp only [State.incSat, State.addSat, State.put, State.at_]
  · rfl

theorem State.fld_frameDue {f : Fld} (h : F.SVC_LINK_ERR_CNT_COUNT.Sep f) : (s.frameDue repeated x).regs.fld f = s.regs.fld f := by
  unfold State.frameDue
  split
  · exact RegTab.fld_setFld_sep _ _ h
  · rfl

theorem State.errCnt_frameDue : (s.frameDue repeated x).get F.SVC_LINK_ERR_CNT_COUNT =
    if repeated then min (s.get F.SVC_LINK_ERR_CNT_COUNT + 1) (2 ^ 32 - 1) else s.get F.SVC_LINK_ERR_CNT_COUNT := by
  unfold State.frameDue
  split
  · exact State.get_incSat_width (s.at_ x) _ (.of rfl (by omega)) rfl
  · rfl

theorem exec_svcFrameApply {f : SvcFrame} (hf : s.svc.frame = some f) (hfence : s.flag F.SVC_STATUS_FENCED = false) :
    exec (.svcFrameApply repeated) s =
      .next ((s.frameDue repeated (f.t0 + if repeated then 80 else 40)).svcApply f (f.t0 + if repeated then 80 else 40)) := by
  simp only [exec, execSvcFrameApply, hf, hfence, State.frameDue, Bool.false_eq_true, if_false]

end

/-- What an applied frame leaves: its outputs, the link's status, and everything else of the registers below the log's but the outputs'
status fields. -/
structure FrameApplied (s t : State) (f : SvcFrame) (x : Nat) : Prop where
  svc : t.svc.frame = none ∧ t.svc.goodAt = x ∧ t.svc.powered = true
  linkOk : t.flag F.SVC_STATUS_LINK_OK = true
  safe : t.flag F.SVC_STATUS_SAFE = false
  lcnt : t.lcnt = s.lcnt
  errCnt : t.get F.SVC_LINK_ERR_CNT_COUNT = s.get F.SVC_LINK_ERR_CNT_COUNT
  outs : f.full = false → s.flag F.SVC_STATUS_SAFE = false → ∀ n : Fin 48,
    (Tab.get 0 t.svc.outs n = if bitOf f.ofs n then (s.ofsCode n).1 else Tab.get 0 s.svc.outs n) ∧
    (Tab.get 0 t.svc.outs (48 + n) = if bitOf f.exc n then s.excCode n else Tab.get 0 s.svc.outs (48 + n)) ∧
    (bitOf f.ofs n = true → Tab.get 0 t.svc.strobe n = x)

/-- What a good frame does beside its outputs. -/
theorem State.svcGood_spec (s : State) (x rly : Nat) :
    (s.svcGood x rly).regs = (s.regs.setFld F.SVC_STATUS_LINK_OK 1).setFld F.SVC_STATUS_SAFE 0 ∧
      (s.svcGood x rly).lcnt = s.lcnt ∧ (s.svcGood x rly).svc = { s.svc with
        frame := none
        relays := if rly = 0 then s.svc.relays else s.relayPattern
        safeExc := s.flag F.SVC_CTRL_SAFE_EXC
        safeRly := s.flag F.SVC_CTRL_SAFE_RLY
        rlySafe := s.getN R.SVC_RLY_SAFE 1
        goodAt := x
        powered := true } := ⟨rfl, rfl, rfl⟩

theorem frameApplied_of_strobed {s u w v t : State} {f : SvcFrame} {x rly : Nat} {ofs exc : List Nat} (ho : OfsStrobed s u x ofs)
    (he : ExcStrobed u w exc) (hv : v = w.svcGood x rly) (hregs : ∀ g : Fld, g.Low → t.regs.fld g = v.regs.fld g)
    (hsvc : t.svc = v.svc) (hlcnt : t.lcnt = v.lcnt)
    (hlists : f.full = false → s.flag F.SVC_STATUS_SAFE = false → ofs = bitsSet 48 f.ofs ∧ exc = bitsSet 48 f.exc) :
    FrameApplied s t f x := by
  obtain ⟨gregs, glcnt, gsvc⟩ := w.svcGood_spec x rly
  rw [← hv] at gregs glcnt gsvc
  rw [gsvc] at hsvc
  have hbits : ∀ g : Fld, g.Low → t.regs.bit g = v.regs.bit g := fun g hg => by rw [RegTab.bit, RegTab.bit, hregs g hg]
  refine ⟨?_, ?_, ?_, ?_, ?_, fun hnot hsafe n => ?_⟩
  · rw [hsvc]
    exact ⟨rfl, rfl, rfl⟩
  · simp (disch := first | exact .of rfl (by omega) | omega) [State.flag, hbits, gregs]
  · simp (disch := first | exact .of rfl (by omega) | omega) [State.flag, hbits, gregs]
  · exact hlcnt.trans (glcnt.trans (he.lcnt.trans ho.lcnt))
  · simp (disch := first | exact .of rfl (by omega) | omega) [State.get, hregs, gregs, he.regs, ho.regs]
  · obtain ⟨rfl, rfl⟩ := hlists hnot hsafe
    obtain ⟨houts, hstrobe⟩ := he.ofs n n.isLt
    have hcode : u.excCode n = s.excCode n := State.excCode_congr n (ho.regs _ (.of rfl (by omega))) ho.corr
    rw [hsvc]
    refine ⟨?_, ?_, fun hbit => ?_⟩
    · rw [houts, ho.outs]
      simp [bitsSet]
    · rw [he.outs, ho.outs, hcode]
      simp [bitsSet]
    · rw [hstrobe, ho.strobe]
      simp [bitsSet, hbit]

theorem State.frameApplied_svcApply (s : State) (f : SvcFrame) (x : Nat) : FrameApplied s (s.svcApply f x) f x := by
  obtain ⟨hregs, hsvc, hlcnt⟩ := State.post_rel_svcNote _ x _ _
  exact frameApplied_of_strobed (s.ofsStrobed_applyOfs x _) (State.excStrobed_applyExc _ x _) rfl hregs hsvc hlcnt (fun hnot hsafe => by
      simp [State.frameOfs, State.frameExc, hnot, hsafe])

/-- The safe state holds the offsets, and drives currents and relays as its settings say. -/
theorem State.outs_svcSafe (s : State) : (∀ k < 48, Tab.get 0 s.svcSafe.svc.outs k = Tab.get 0 s.svc.outs k) ∧
    ∀ k, 48 ≤ k → Tab.get 0 s.svcSafe.svc.outs k = if s.svc.safeExc then 0 else Tab.get 0 s.svc.outs k := by
  have houts : s.svcSafe.svc.outs = if s.svc.safeExc then s.svc.outs.filter (fun p => p.1 < 48) else s.svc.outs := rfl
  rw [houts]
  by_cases hexc : s.svc.safeExc = true
  · simp only [if_pos hexc, Tab.get_filter _ _ (fun k => k < 48)]
    exact ⟨fun k hk => by simp [hk], fun k hk => by simp [Nat.not_lt.mpr hk]⟩
  · simp only [if_neg hexc]
    exact ⟨fun _ _ => True.intro, fun _ _ => True.intro⟩

/-- The state that the safe state's entry leaves. -/
theorem exec_svcSafeEntry (s : State) (h : s.flag F.SVC_STATUS_SAFE = false) : exec .svcSafeEntry s =
    .next { (s.afterTime s.svc.goodAt 1 1000).svcSafe with
      regs := ((s.regs.setFld F.SVC_STATUS_SAFE 1).setFld F.SVC_STATUS_LINK_OK 0).setFld F.SVC_LINK_ERR_CNT_COUNT
        (min (s.get F.SVC_LINK_ERR_CNT_COUNT + 1) (2 ^ F.SVC_LINK_ERR_CNT_COUNT.width - 1))
      svc := { (s.afterTime s.svc.goodAt 1 1000).svcSafe.svc with safeAt := (s.afterTime s.svc.goodAt 1 1000).lcnt } } := by
  have hregs : (s.afterTime s.svc.goodAt 1 1000).regs = s.regs := by rw [s.afterTime_eq]
  simp (disch := first | exact .of rfl (by omega) | omega) only [exec, execSvcSafeEntry, h, Bool.false_eq_true, if_false, State.svcSafe,
    State.setF, State.clrF, State.incSat, State.addSat, State.put, State.get, hregs, RegTab.fld_setFld_sep]

/-! ### The monitor converter (R342-R344) -/

/-- A number of w bits is below 2^w. -/
theorem enc_mod (w : Nat) (v : Int) : enc w v % 2 ^ w = enc w v := by
  have hpos : (0 : Int) < 2 ^ w := by positivity
  have hnonneg := Int.emod_nonneg v hpos.ne'
  have hlt := Int.emod_lt_of_pos v hpos
  refine Nat.mod_eq_of_lt ?_
  unfold enc
  zify
  rwa [Int.toNat_of_nonneg hnonneg]

theorem State.cyclesOf_congr {s t : State} (h : t.regs = s.regs) (n d : Nat) : t.cyclesOf n d = s.cyclesOf n d := by
  have hhz : t.coreHz = s.coreHz := by unfold State.coreHz State.flag State.get; rw [h]
  rw [State.cyclesOf, State.cyclesOf, hhz]

section
variable (s : State)

theorem State.length_monPoints : 54 ≤ s.monPoints.length := by
  simp only [State.monPoints, List.length_append, List.length_map, List.length_range]
  omega

theorem State.monPoints_ofs {n : Nat} (h : n < 48) : s.monPoints[n]? = some (.ofs n) := by
  rw [State.monPoints, List.append_assoc, List.getElem?_append_left (by simpa using h)]
  simp [h]

theorem State.monPoints_last {i : Nat} (h : i + 1 = s.monPoints.length) : s.monPoints[i]? = some (.die 5) := by
  have hlen : i = s.monPoints.length - 1 := by omega
  rw [hlen, ← List.getLast?_eq_getElem?, State.monPoints, List.getLast?_append]
  rfl

/-- A check of an offset output's reading touches its mismatch bit and the log. -/
theorem State.fld_monCheck_ofs (n : Nat) (v : Int) (hn : n < 48) {f : Fld} (hlow : f.Low) (h : f.OffStatus) :
    (s.monCheck (.ofs n) v).regs.fld f = s.regs.fld f := by
  have hsep : (F.SVC_OUT_STATUS_OFS_MISMATCH n).Sep f := h.sep n 6 6 (by omega)
  simp only [State.monCheck, MonPoint.output, if_pos hn]
  generalize (if s.monOff (.ofs n) v = true then Tab.get 0 s.svc.bad n + 1 else 0) = k
  split
  · rfl
  · split
    · rw [State.fld_post _ _ _ _ _ hlow]
      exact RegTab.fld_setFld_sep _ _ hsep
    · rfl

theorem State.svc_monCheck_ofs (n : Nat) (v : Int) (hn : n < 48) :
    (s.monCheck (.ofs n) v).svc = { s.svc with bad := (s.monCheck (.ofs n) v).svc.bad } := by
  simp only [State.monCheck, MonPoint.output, if_pos hn]
  generalize (if s.monOff (.ofs n) v = true then Tab.get 0 s.svc.bad n + 1 else 0) = k
  split
  · rfl
  · split <;> simp [State.setF]

/-- A reading of an offset output that no strobe spoils is published. -/
theorem State.monTake_ofs_published (n : Nat) (reading : Int) (start : Nat)
    (h : Tab.get 0 s.svc.strobe n < start ∨ start + s.cyclesOf 1 2000 ≤ Tab.get 0 s.svc.strobe n) :
    s.monTake (.ofs n) reading start =
      (s.sput (F.SVC_MON_OFS_UV n) (roundDiv (reading * s.svc.monGain) 1073741824 + s.svc.monOff)).monCheck (.ofs n)
        (roundDiv (reading * s.svc.monGain) 1073741824 + s.svc.monOff) := by
  refine if_neg ?_
  simp only [MonPoint.output, Bool.and_eq_true, decide_eq_true_eq]
  omega

theorem State.monTake_ofs_spoiled (n : Nat) (reading : Int) (start : Nat) (h1 : start ≤ Tab.get 0 s.svc.strobe n)
    (h2 : 0 < Tab.get 0 s.svc.strobe n) (h3 : Tab.get 0 s.svc.strobe n < start + s.cyclesOf 1 2000) :
    s.monTake (.ofs n) reading start = s := by
  refine if_pos ?_
  simp only [MonPoint.output, Bool.and_eq_true, decide_eq_true_eq]
  exact ⟨⟨h1, h2⟩, h3⟩

theorem State.monTake_ofs_cases (n : Nat) (reading : Int) (start : Nat) : s.monTake (.ofs n) reading start = s ∨
    s.monTake (.ofs n) reading start =
      (s.sput (F.SVC_MON_OFS_UV n) (roundDiv (reading * s.svc.monGain) 1073741824 + s.svc.monOff)).monCheck (.ofs n)
        (roundDiv (reading * s.svc.monGain) 1073741824 + s.svc.monOff) := ite_eq_or_eq _ _ _

theorem State.svc_monTake_ofs (n : Nat) (reading : Int) (start : Nat) (hn : n < 48) : (s.monTake (.ofs n) reading start).svc =
    { s.svc with bad := (s.monTake (.ofs n) reading start).svc.bad } := by
  rcases s.monTake_ofs_cases n reading start with h | h
  · rw [h]
  · rw [h, State.svc_monCheck_ofs _ _ _ hn]
    rfl

theorem State.monTake_die (i : Nat) (reading : Int) (start : Nat) : s.monTake (.die i) reading start =
    s.sput (F.SVC_MON_DIE_VALUE i) (roundDiv (reading * s.svc.monGain) 1073741824 + s.svc.monOff) := rfl

theorem State.monNext_before (i n start : Nat) (h : i + 1 < n) : (s.monNext i n start).regs = s.regs ∧
    (s.monNext i n start).svc.point = i + 1 ∧ (s.monNext i n start).svc.outs = s.svc.outs := by
  unfold State.monNext
  dsimp only
  rw [if_pos h]
  split <;> exact ⟨rfl, rfl, rfl⟩

theorem State.monNext_last (i n start : Nat) (hi : i ≠ 0) (h : i + 1 = n) : s.monNext i n start =
    { ((s.incWrap F.SVC_MON_CYCLE_COUNT).putN R.SVC_MON_LCNT 2 s.svc.cycleStart) with svc := { s.svc with point := 0 } } := by
  unfold State.monNext
  dsimp only
  rw [if_neg hi, if_neg (by omega)]
  rfl

theorem exec_monitorConversion (reading : Int) (start : Nat) {i : Nat} {p : MonPoint} (hheld : s.flag F.SVC_STATUS_MON_HELD = false)
    (hi : s.svc.point = i) (hp : s.monPoints[i]? = some p) : exec (.monitorConversion reading start) s =
      .next (((s.afterTime start 1 2000).monTake p reading start).monNext i s.monPoints.length start) := by
  have hlt : s.svc.point < s.monPoints.length := by
    rw [hi]
    exact (List.getElem?_eq_some_iff.mp hp).1
  have hpoint : (s.monPoints[s.svc.point]?).getD (.die 5) = p := by rw [hi, hp]; rfl
  simp only [exec, execMonitorConversion, hheld, if_pos hlt, hpoint, Bool.false_eq_true, if_false]
  rw [hi]

end

/-! ### The obligations -/

/-- Settles O51: a frame's outputs are those its strobes reach, whatever the order of the strobes, and the safe state and the fence are
chains of field writes. -/
theorem serviceLinkAndSafeState : Obligations.ServiceLinkAndSafeState := by
  unfold Obligations.ServiceLinkAndSafeState
  refine ⟨fun repeated s h => ?noFrame, fun repeated f s hf hfence => ?frame, fun s h => ?alreadySafe, fun s h => ?safeEntry,
    fun s hsafe hfence => ?fence, fun s h => ?noFence⟩
  case noFrame =>
    cases hf : s.svc.frame with
    | none => simp only [exec, execSvcFrameApply, hf]
    | some f =>
      have hfence : s.flag F.SVC_STATUS_FENCED = true := by simpa [hf] using h
      simp only [exec, execSvcFrameApply, hf, hfence, if_true]
  case frame =>
    have hexec := exec_svcFrameApply s repeated hf hfence
    generalize f.t0 + (if repeated then 80 else 40) = x at hexec ⊢
    have heq := s.frameDue_eq repeated x
    have hfld : ∀ g : Fld, F.SVC_LINK_ERR_CNT_COUNT.Sep g → _ := fun g hg => s.fld_frameDue repeated x (f := g) hg
    have herr := s.errCnt_frameDue repeated x
    obtain ⟨⟨hframe, hgood, hpower⟩, hlink, hsafe, hlcnt, hcnt, houts⟩ := (s.frameDue repeated x).frameApplied_svcApply f x
    obtain ⟨-, hstore, hflash⟩ := execSvcFrameApply_mem _ _ _ hexec
    have hsvc : (s.frameDue repeated x).svc = s.svc := by rw [heq]
    refine ⟨_, hexec, hframe, hgood, hpower, hlink, hsafe, memSame_of_fields hstore hflash, ?_, hcnt.trans herr, fun hnot hs n => ?_⟩
    · rw [hlcnt, hgood, heq]
    · have hflag : (s.frameDue repeated x).flag F.SVC_STATUS_SAFE = false := by
        rw [← hs]
        exact RegTab.bit_congr (hfld _ (.of rfl (by omega)))
      have hofs : (s.frameDue repeated x).ofsCode n = s.ofsCode n :=
        State.ofsCode_congr n (hfld _ (.of rfl (by omega))) (by rw [hsvc])
      have hexc : (s.frameDue repeated x).excCode n = s.excCode n :=
        State.excCode_congr n (hfld _ (.of rfl (by omega))) (by rw [hsvc])
      have := houts hnot hflag n
      rw [hofs, hexc, hsvc] at this
      rw [hgood]
      exact this
  case alreadySafe => exact congrArg Host.Outcome.next (if_pos h)
  case safeEntry =>
    have heq := s.afterTime_eq s.svc.goodAt 1 1000
    have hlcnt := s.lcnt_afterTime s.svc.goodAt 1 1000
    have hexec := exec_svcSafeEntry s h
    generalize s.afterTime s.svc.goodAt 1 1000 = u at heq hlcnt hexec
    obtain ⟨hofs, hexc⟩ := u.outs_svcSafe
    have hsvc : u.svc = s.svc := by rw [heq]
    have hregs : u.regs = s.regs := by rw [heq]
    rw [hsvc] at hofs hexc
    obtain ⟨-, hstore, hflash⟩ := execSvcSafeEntry_mem _ _ hexec
    have hcnt := RegTab.fld_setFld_min ((s.regs.setFld F.SVC_STATUS_SAFE 1).setFld F.SVC_STATUS_LINK_OK 0)
      (s.regs.fld F.SVC_LINK_ERR_CNT_COUNT + 1) (f := F.SVC_LINK_ERR_CNT_COUNT) (.of rfl (by omega))
    refine ⟨_, hexec, ?_, ?_, ?_, rfl, hlcnt, ?_, fun n => hofs n n.isLt, fun n => hexc (48 + n) (by omega), ?_⟩
    · simp (disch := first | exact .of rfl (by omega) | omega) [State.flag]
    · simp (disch := first | exact .of rfl (by omega) | omega) [State.flag]
    · exact hcnt
    · show (if u.svc.safeRly then _ else u.svc.relays) = _
      rw [hsvc, State.getN, State.getN, hregs]
    · have hchange := (((changesOnly.refl [F.SVC_STATUS_SAFE, F.SVC_STATUS_LINK_OK, F.SVC_LINK_ERR_CNT_COUNT] s).put
        (f := F.SVC_STATUS_SAFE) (v := 1) (by simp)).put (f := F.SVC_STATUS_LINK_OK) (v := 0) (by simp)).put
        (f := F.SVC_LINK_ERR_CNT_COUNT) (v := min (s.regs.fld F.SVC_LINK_ERR_CNT_COUNT + 1) (2 ^ F.SVC_LINK_ERR_CNT_COUNT.width - 1))
        (by simp)
      exact hchange.parts rfl hstore hflash (by rw [heq]; rfl)
  case fence =>
    have heq := s.afterTime_eq s.svc.safeAt 1000 1000
    have hexec : exec .svcFence s = .next (s.afterTime s.svc.safeAt 1000 1000).svcFenced :=
      congrArg Host.Outcome.next (if_pos ⟨hsafe, hfence⟩)
    generalize s.afterTime s.svc.safeAt 1000 1000 = u at heq hexec
    have hlocus : u.locusSvc = s.locusSvc := by rw [heq]; rfl
    have hchange : changesOnly ([F.SVC_STATUS_FENCED, F.GLOBAL_STATE_DEGRADED] ++ logFlds) s u :=
      (changesOnly.refl _ s).parts (by rw [heq]) (by rw [heq]) (by rw [heq]) (by rw [heq])
    refine ⟨_, hexec, ?_, ?_, ?_, ((hchange.put (by simp)).put (by simp)).post⟩
    · simp (disch := first | exact .of rfl (by omega) | omega) [State.flag, State.svcFenced]
    · simp (disch := first | exact .of rfl (by omega) | omega) [State.flag, State.svcFenced]
    · rw [← hlocus]
      exact State.post_seen _ _ _ _ _
  case noFence => exact congrArg Host.Outcome.next (if_neg (by rcases h with h | h <;> simp [h]))

/-- Settles O54: point n of the cycle is offset output n, the last one the reference of the die. -/
theorem monitorPublishesItsPoints : Obligations.MonitorPublishesItsPoints := by
  unfold Obligations.MonitorPublishesItsPoints
  refine ⟨fun reading start s h => congrArg Host.Outcome.next (if_pos h), fun reading start n s hheld hn => ?output,
    fun reading start s hheld hlast => ?last⟩
  case output =>
    have hexec := exec_monitorConversion s reading start hheld hn (s.monPoints_ofs n.isLt)
    have hlen := s.length_monPoints
    have heq := s.afterTime_eq start 1 2000
    obtain ⟨-, hstore, hflash⟩ := execMonitorConversion_mem _ _ _ _ hexec
    generalize s.afterTime start 1 2000 = u at heq hexec hstore hflash
    have hsvc : u.svc = s.svc := by rw [heq]
    have hregs : u.regs = s.regs := by rw [heq]
    have hcyc := State.cyclesOf_congr hregs 1 2000
    obtain ⟨nregs, npoint, nouts⟩ := (u.monTake (.ofs n) reading start).monNext_before n s.monPoints.length start (by omega)
    refine ⟨_, hexec, fun hfree => ?_, fun h1 h2 h3 => ?_, npoint, ?_, memSame_of_fields hstore hflash⟩
    · rw [State.get, nregs, u.monTake_ofs_published n reading start (by rw [hsvc, hcyc]; exact hfree), hsvc]
      exact (State.fld_monCheck_ofs _ _ _ n.isLt (.of rfl (by omega)) (.of rfl (by omega))).trans
        ((RegTab.fld_setFld_self _ _ (.of rfl (by omega))).trans (enc_mod 32 _))
    · rw [nregs, u.monTake_ofs_spoiled n reading start (by rw [hsvc]; exact h1) (by rw [hsvc]; exact h2) (by rw [hsvc, hcyc]; exact h3), hregs]
    · rw [nouts, State.svc_monTake_ofs _ _ _ _ n.isLt, hsvc]
  case last =>
    have hexec := exec_monitorConversion s reading start hheld rfl (s.monPoints_last hlast)
    have hlen := s.length_monPoints
    have heq := s.afterTime_eq start 1 2000
    obtain ⟨-, hstore, hflash⟩ := execMonitorConversion_mem _ _ _ _ hexec
    rw [State.monTake_die, State.monNext_last _ _ _ _ (by omega) hlast] at hexec hstore hflash
    generalize s.afterTime start 1 2000 = u at heq hexec hstore hflash
    have hsvc : u.svc = s.svc := by rw [heq]
    have hregs : u.regs = s.regs := by rw [heq]
    refine ⟨_, hexec, ?_, ?_, ?_, rfl, memSame_of_fields hstore hflash⟩
    · simp (disch := first | exact .of rfl (by omega) | omega) only [State.get, hsvc, R.SVC_MON_LCNT, State.regs_putN,
        RegTab.fld_setWide_beside, State.regs_incWrap, RegTab.fld_setFld_sep, State.regs_sput, RegTab.fld_setFld_self]
      exact enc_mod 32 _
    · simp (disch := first | exact .of rfl (by omega) | omega) [State.get, hregs, R.SVC_MON_LCNT]
    · rw [← hsvc]
      exact RegTab.wide_setWide 2 _ _ _

/-- Settles O52: each fault is a chain of field writes, one log entry at most and, with FOLD_EN, the fold. -/
theorem excitationFaultsFoldAndRetry : Obligations.ExcitationFaultsFoldAndRetry := by
  unfold Obligations.ExcitationFaultsFoldAndRetry
  refine ⟨fun n s hon => ?compliance, fun n s => ?clear, fun n s hon hfold => ?openLoad, fun n s hon hen hcode hfold => ?short,
    fun n s hfolded => ?retry, fun n s c hc hoff => ?disabled, fun n s hfolded => ?notFolded⟩
  case compliance =>
    refine ⟨_, congrArg Host.Outcome.next (if_pos hon), ?_, ?_,
      State.changesOnly_excLog _ _ (((changesOnly.refl _ s).put (by simp)).put (by simp)) (by simp +contextual)⟩ <;>
    simp (disch := first | exact .of rfl (by omega) | omega) [State.flag]
  case clear =>
    exact ⟨_, rfl, RegTab.bit_setFld_zero _ (.of rfl (by omega)),
      ((changesOnly.refl _ s).put (by simp)).parts rfl rfl rfl rfl, rfl⟩
  case openLoad =>
    refine ⟨_, (congrArg Host.Outcome.next (if_pos hon)).trans (congrArg Host.Outcome.next (State.fold_of_foldEn _ n ?_)), ?_, ?_, ?_, ?_,
      (((State.changesOnly_excLog _ _ ((((changesOnly.refl _ s).put (by simp)).put (by simp)).put (by simp)) (by simp +contextual)).put
        (f := F.SVC_OUT_STATUS_FOLDED n) (v := 1) (by simp)).parts rfl rfl rfl rfl)⟩ <;>
    simp (disch := first | exact .of rfl (by omega) | omega) [State.flag, State.outs_excLog, State.setF]
    exact hfold
  case short =>
    have hshort : bitOf s.svc.enabled n = true ∧ s.flag (F.SVC_EXC_CTRL_SHORT_EN n) = true ∧ 2731 ≤ s.get (F.SVC_EXC_CTRL_CODE n) :=
      ⟨hon, hen, hcode⟩
    refine ⟨_, (congrArg Host.Outcome.next (if_pos hshort)).trans (congrArg Host.Outcome.next (State.fold_of_foldEn _ n ?_)), ?_, ?_, ?_,
      (((State.changesOnly_excLog _ _ ((changesOnly.refl _ s).put (by simp)) (by simp +contextual)).put
        (f := F.SVC_OUT_STATUS_FOLDED n) (v := 1) (by simp)).parts rfl rfl rfl rfl)⟩ <;>
    simp (disch := first | exact .of rfl (by omega) | omega) [State.flag, State.outs_excLog, State.setF]
    exact hfold
  case retry =>
    refine ⟨{ (s.excFresh n) with svc := { (s.excFresh n).svc with
        outs := Tab.set (s.excFresh n).svc.outs (48 + n) (s.excCode n) } }, congrArg Host.Outcome.next (if_pos hfolded), ?_, ?_, ?_, ?_, ?_,
      (s.changesOnly_excFresh n).parts rfl rfl rfl rfl, by simp only [State.excFresh, State.clrF, State.put]⟩ <;>
    simp (disch := first | exact .of rfl (by omega) | omega) [State.flag, State.excFresh]
  case disabled =>
    simp only [List.mem_cons, List.not_mem_nil, or_false] at hc
    rcases hc with rfl | rfl | rfl
    · exact congrArg Host.Outcome.next (if_neg (by simp [hoff]))
    · exact congrArg Host.Outcome.next (if_neg (by simp [hoff]))
    · exact congrArg Host.Outcome.next (if_neg (by simp [hoff]))
  case notFolded => exact congrArg Host.Outcome.next (if_neg (by simp [hfolded]))

/-- The excitation supply has tripped while source 0, which the active set enables, is folded back. -/
def foldedTripped : State :=
  ((State.reset.setF F.SVC_STATUS_EXC_TRIP).setF (F.SVC_EXC_CTRL_EN 0)).setF (F.SVC_OUT_STATUS_FOLDED 0)

/-- Refutes O53: EXC_RESTORE starts the detectors of every enabled source afresh, so a source that was folded back when the supply
tripped shows FOLDED no more, and SVC_STATUS.EXC_TRIP is not the one field that changes. -/
theorem not_supplyTripAndRelays : ¬ Obligations.SupplyTripAndRelays := by
  unfold Obligations.SupplyTripAndRelays
  rintro ⟨-, hrestore, -⟩
  have htrip : foldedTripped.flag F.SVC_STATUS_EXC_TRIP = true := by decide +kernel
  obtain ⟨t, ht, -, -, ⟨hfields, -⟩, -⟩ := hrestore foldedTripped htrip
  have hstate : foldedTripped.excRestore = t := Host.Outcome.next.inj ht
  have hkept : t.get (F.SVC_OUT_STATUS_FOLDED 0) = foldedTripped.get (F.SVC_OUT_STATUS_FOLDED 0) :=
    hfields _ (.of rfl (by omega)) (fun f hf => by
      rw [List.mem_singleton] at hf
      subst hf
      exact (Fld.Sep.of rfl (by omega)).apart)
  have hcleared : foldedTripped.excRestore.get (F.SVC_OUT_STATUS_FOLDED 0) = 0 := by decide +kernel
  have hset : foldedTripped.get (F.SVC_OUT_STATUS_FOLDED 0) = 1 := by decide +kernel
  rw [← hstate, hcleared, hset] at hkept
  exact absurd hkept (by decide)
end Sys2Proof.Machine
end

section
/-! SUPPORT. The block as a whole: one step, and the state at reset (R9, R371). -/

namespace Sys2Proof.Machine

open Sys2Proof.Safety

/-- Settles O1: a step is the command in front of the queue, or one core cycle of idling. -/
theorem stepRunsTheFrontCommand : Obligations.StepRunsTheFrontCommand := by
  unfold Obligations.StepRunsTheFrontCommand
  refine ⟨fun c s => rfl, fun c rest s h => ?_, fun s h => ?_, fun n w s => rfl⟩
  · rw [step, h]
  · unfold step
    split
    next c rest hp =>
      rw [h] at hp
      cases hp
    next => rfl

/-- Settles O3: at reset no register word is listed, so that each reads its reset value, and nothing waits. -/
theorem resetLeavesResetValues : Obligations.ResetLeavesResetValues := by
  unfold Obligations.ResetLeavesResetValues
  have hphase : State.reset.get F.GLOBAL_STATE_PHASE = 0 := by decide +kernel
  have hcause : State.reset.get F.GLOBAL_RESET_CAUSE_CAUSE = 1 := by decide +kernel
  have hcycles : State.reset.get F.GLOBAL_PWR_CYCLES_COUNT = 1 := by decide +kernel
  exact ⟨fun _ => ⟨rfl, rfl⟩, rfl, rfl, rfl, rfl, fun _ => rfl, hphase, hcause, hcycles, fun _ => ⟨rfl, rfl⟩, rfl, rfl, rfl⟩

end Sys2Proof.Machine
end

section
/-! SUPPORT. Parts of the block: which fields of the state and which register words an operation may change, how that composes, and the
two parts that many commands share, the groups' gaps (R117-R120) and network time (R268-R271). -/

namespace Sys2Proof.Machine

open Sys2Proof.Safety

/-! ### Parts -/

/-- A part of the block: `upd s t` is s with the part as it is in t, `regs` its register words. -/
structure Share where
  upd : State → State → State
  regs : Nat → Prop
  self : ∀ s, upd s s = s
  again : ∀ s t u, upd (upd s t) u = upd s u

/-- Of the whole block only the part differs. -/
structure Share.Only (p : Share) (s t : State) : Prop where
  frame : t = p.upd s t
  word : ∀ off, ¬ p.regs off → t.regs.word off = s.regs.word off

section
variable {p : Share} {s t u : State}

theorem Share.Only.refl (p : Share) (s : State) : p.Only s s := ⟨(p.self s).symm, fun _ _ => rfl⟩

theorem Share.Only.trans (h : p.Only s t) (k : p.Only t u) : p.Only s u where
  frame := k.frame.trans ((congrArg (fun v => p.upd v u) h.frame).trans (p.again s t u))
  word off ho := (k.word off ho).trans (h.word off ho)

theorem Share.Only.foldl {α : Type} (f : State → α → State) (l : List α) (h : ∀ t, ∀ x ∈ l, p.Only t (f t x)) (s : State) :
    p.Only s (l.foldl f s) := by
  induction l generalizing s with
  | nil => exact .refl p s
  | cons x xs ih => exact (h s x (by simp)).trans (ih (fun t y hy => h t y (by simp [hy])) (f s x))

theorem Share.Only.ite {c : Prop} [Decidable c] (h : p.Only s t) (k : p.Only s u) : p.Only s (if c then t else u) := by
  split
  · exact h
  · exact k

/-- A frame of fewer fields is one of the share. -/
theorem Share.frame_of (p : Share) (h : t = u) (hu : u = p.upd s u) : t = p.upd s t := by
  rw [h]
  exact hu

/-- State outside the registers changes. -/
theorem Share.Only.parts (hregs : t.regs = s.regs) (h : t = p.upd s t) : p.Only s t := ⟨h, fun _ _ => by rw [hregs]⟩

/-- A register field of the part is written. -/
theorem Share.Only.put {f : Fld} {v : Nat} (hf : p.regs f.off) (h : s.put f v = p.upd s (s.put f v) := by rfl) : p.Only s (s.put f v) :=
  ⟨h, fun _ ho => RegTab.word_setFld_other _ _ _ _ (fun e => ho (e ▸ hf))⟩

/-- Register words of the part are written. -/
theorem Share.Only.putN {off n v : Nat} (hf : ∀ j, off ≤ j → j < off + 4 * n → p.regs j) (h : s.putN off n v = p.upd s (s.putN off n v) := by rfl) :
    p.Only s (s.putN off n v) :=
  ⟨h, fun j ho => RegTab.word_setWide_other _ _ _ _ _ (by
    by_contra hc
    exact ho (hf j (by omega) (by omega)))⟩

/-- A part that holds the log. -/
theorem Share.Only.post {lc code locus data : Nat} (hf : ∀ j, 0xF00000 ≤ j → p.regs j)
    (h : s.post lc code locus data = p.upd s (s.post lc code locus data)) : p.Only s (s.post lc code locus data) :=
  ⟨h, fun j ho => s.word_post lc code locus data (by
    by_contra hc
    exact ho (hf j (by omega)))⟩

theorem Share.Only.fld (h : p.Only s t) {f : Fld} (hf : ¬ p.regs f.off) : t.regs.fld f = s.regs.fld f := by
  rw [RegTab.fld, RegTab.fld, h.word _ hf]

theorem Share.Only.bit (h : p.Only s t) {f : Fld} (hf : ¬ p.regs f.off) : t.regs.bit f = s.regs.bit f := RegTab.bit_congr (h.fld hf)

theorem Share.Only.wide (h : p.Only s t) {off n : Nat} (hf : ∀ j, off ≤ j → j < off + 4 * n → ¬ p.regs j) :
    t.regs.wide off n = s.regs.wide off n :=
  RegTab.wide_congr n off (fun j h1 h2 => h.word j (hf j h1 h2))

end

/-! ### What was logged stays logged -/

theorem State.seen_post_of_seen (s : State) (lc code locus data : Nat) {x : Nat × Nat} (h : x ∈ s.log.seen) :
    x ∈ (s.post lc code locus data).log.seen := by
  unfold State.post
  split
  · exact h
  · exact List.mem_cons_of_mem _ h

/-! ### The groups' gaps -/

/-- The gaps of the groups: the groups, what they stage, and chapter 5's registers. -/
def gapShare : Share where
  upd s t := { s with regs := t.regs, grps := t.grps, stageFill := t.stageFill }
  regs off := 0x500000 ≤ off ∧ off < 0x501000
  self _ := rfl
  again _ _ _ := rfl

section
variable (s : State) {g : Nat}

theorem State.setGrp_gapShare (g : Nat) (gr : Grp) : gapShare.Only s (s.setGrp g gr) := .parts rfl rfl

theorem State.stageBytes_gapShare (g tag addr : Nat) (bs : List Byte) : gapShare.Only s (s.stageBytes g tag addr bs) := .parts rfl rfl

theorem State.addItem_gapShare (g kind num slot mask start : Nat) : gapShare.Only s (s.addItem g kind num slot mask start) := by
  unfold State.addItem
  dsimp only
  split
  · exact s.setGrp_gapShare _ _
  · exact s.setGrp_gapShare _ _

theorem State.gapDesc_gapShare (hg : g < 16) (cause a b mask : Nat) : gapShare.Only s (s.gapDesc g cause a b mask) := by
  have hovf : gapShare.regs (F.REC_GRP_STATUS_GAP_OVF g).off := by
    show 0x500000 ≤ 0x500040 + 0x100 * g ∧ 0x500040 + 0x100 * g < 0x501000
    omega
  have hcnt : gapShare.regs (F.REC_GRP_GAP_OVF_CNT_COUNT g).off := by
    show 0x500000 ≤ 0x500048 + 0x100 * g ∧ 0x500048 + 0x100 * g < 0x501000
    omega
  unfold State.gapDesc
  extract_lets gr cap prev full s1 s2
  have hs1 : gapShare.Only s s1 := s.stageBytes_gapShare _ _ _ _
  have hs2 : gapShare.Only s1 s2 := .ite (.trans (.put hovf) (.put hcnt)) (.refl _ _)
  exact ((hs1.trans hs2).trans (s2.setGrp_gapShare _ _)).trans (State.addItem_gapShare _ _ _ _ _ _ _)

theorem State.gapTo_gapShare (hg : g < 16) (upto : Nat) : gapShare.Only s (s.gapTo g upto) := by
  unfold State.gapTo
  exact .ite (.refl _ _) (.trans (s.setGrp_gapShare _ _) (.foldl _ _ (fun t _ _ => t.gapDesc_gapShare hg _ _ _ _) _))

theorem State.showGaps_gapShare (hg : g < 16) : gapShare.Only s (s.showGaps g) := by
  have hopen : gapShare.regs (F.REC_GRP_STATUS_GAP_OPEN g).off := by
    show 0x500000 ≤ 0x500040 + 0x100 * g ∧ 0x500040 + 0x100 * g < 0x501000
    omega
  have hwords : ∀ j, R.REC_GRP_GAP_OPEN g ≤ j → j < R.REC_GRP_GAP_OPEN g + 4 * 2 → gapShare.regs j := by
    intro j h1 h2
    simp only [R.REC_GRP_GAP_OPEN] at h1 h2
    exact ⟨by omega, by omega⟩
  unfold State.showGaps
  dsimp only
  split
  · exact .trans (.putN hwords) (.put hopen)
  · exact .trans (.putN hwords) (.put hopen)

theorem State.gapSync_gapShare (hg : g < 16) : gapShare.Only s (s.gapSync g) := (s.gapTo_gapShare hg _).trans (State.showGaps_gapShare _ hg)

theorem State.gapSyncAll_gapShare : gapShare.Only s s.gapSyncAll :=
  .foldl _ _ (fun t _ hx => .ite (.refl _ _) (t.gapSync_gapShare (List.mem_range.mp hx))) s

theorem State.endLoss_gapShare (g cause x : Nat) : gapShare.Only s (s.endLoss g cause x) := s.setGrp_gapShare _ _

theorem State.addLoss_gapShare (g : Nat) (l : Loss) : gapShare.Only s (s.addLoss g l) := s.setGrp_gapShare _ _

theorem State.setLoss_gapShare (hg : g < 16) (x cause mask : Nat) : gapShare.Only s (s.setLoss g x cause mask) := by
  unfold State.setLoss
  refine .ite (.refl _ _) (.trans (.trans (s.endLoss_gapShare g cause x) (.ite (.refl _ _) (State.addLoss_gapShare _ _ _))) (State.gapSync_gapShare _ hg))

theorem State.setLossAll_gapShare (x cause mask : Nat) : gapShare.Only s (s.setLossAll x cause mask) :=
  .foldl _ _ (fun t _ hx => t.setLoss_gapShare (List.mem_range.mp hx) x cause mask) s

end

/-! ### Network time -/

/-- Network time: the epochs, what is due to change them, the keeper's save, chapter 12's registers and the log. -/
def timeShare : Share where
  upd s t := { s with
    regs := t.regs
    epochs := t.epochs
    timeDue := t.timeDue
    pnom := t.pnom
    stage := t.stage
    keeper := t.keeper
    log := t.log
    out := t.out
    twin := t.twin
    msix := t.msix }
  regs off := off = 0xC00004 ∨ (0xC00044 ≤ off ∧ off < 0xC0005C) ∨ (0xC01000 ≤ off ∧ off < 0xC01200) ∨ 0xF00000 ≤ off
  self _ := rfl
  again _ _ _ := rfl

section
variable (s : State)

theorem State.post_timeShare (lc code locus data : Nat) : timeShare.Only s (s.post lc code locus data) :=
  .post (fun _ h => .inr (.inr (.inr h)))
    ((s.post_eq lc code locus data).trans (by simp [timeShare]))

/-- Sixteen entries of TIME_HIST at most. -/
theorem State.writeHist_timeShare (i : Nat) (es : List Epoch) (h : i + es.length ≤ 16) : timeShare.Only s (s.writeHist i es) := by
  induction es generalizing s i with
  | nil => exact .refl _ _
  | cons e es ih =>
    rw [List.length_cons] at h
    refine .trans (.putN (fun j h1 h2 => .inr (.inr (.inl ?_)))) (ih _ (i + 1) (by omega))
    simp only [R.TIME_HIST] at h1 h2
    omega

theorem State.logEpoch_timeShare (e : Epoch) : timeShare.Only s (s.logEpoch e) := (s.post_timeShare _ _ _ _).trans (State.post_timeShare _ _ _ _ _)

theorem State.openEpoch_timeShare (e : Epoch) : timeShare.Only s (s.openEpoch e) := by
  unfold State.openEpoch
  refine .trans (.trans (.trans (t := { s with epochs := e :: s.epochs, keeper := { s.keeper with epochSave := some e } }) (.parts rfl rfl)
    (State.writeHist_timeShare _ _ _ ?_)) (.put (.inl rfl))) (State.logEpoch_timeShare _ _)
  rw [Nat.zero_add]
  exact List.length_take_le 16 _

theorem State.snapAgain_timeShare (b : Nat) : timeShare.Only s (s.snapAgain b) := by
  unfold State.snapAgain
  refine .ite (.putN (fun j h1 h2 => .inr (.inl ?_))) (.refl _ _)
  simp only [R.TIME_SNAP] at h1 h2
  omega

/-- An epoch opens on the state in which what was due is taken. -/
theorem State.takenEpoch_timeShare (due : List TimeCause) (pn : Nat × Nat) (st : Option Staged) (c : Prop) [Decidable c] (e : Epoch) (b : Nat) :
    timeShare.Only s (((if c then { s with timeDue := due, pnom := pn, stage := st }
      else ({ s with timeDue := due, pnom := pn, stage := st } : State).clrF F.TIME_STATUS_STAGE_PENDING).openEpoch e).snapAgain b) := by
  have hpend : timeShare.regs F.TIME_STATUS_STAGE_PENDING.off := .inl rfl
  have htake : timeShare.Only s { s with timeDue := due, pnom := pn, stage := st } := .parts rfl rfl
  exact ((Share.Only.ite htake (htake.trans (.put hpend))).trans (State.openEpoch_timeShare _ e)).trans (State.snapAgain_timeShare _ b)

theorem State.publishTime_timeShare (b : Nat) : timeShare.Only s (s.publishTime b) := by
  unfold State.publishTime
  extract_lets cur st n0 n1 n2 n3 t s1 s2 s3
  have hs3 : timeShare.Only s s3 := s.takenEpoch_timeShare _ _ _ _ _ _
  split
  · exact .refl _ _
  · generalize st = o
    split
    · exact .ite (hs3.trans (State.post_timeShare _ _ _ _ _)) hs3
    · exact hs3

end

end Sys2Proof.Machine
end

section
/-! SUPPORT. The sample clock (R248-R266): its loop, the reference, bypass and return. -/

namespace Sys2Proof.Machine

open Sys2Proof.Safety

/-! ### Signed fields -/

/-- A value in the range of w bits is what its encoding reads as. -/
theorem sgn_enc {w : Nat} {v : Int} (hw : 0 < w) (hlo : -(2 ^ (w - 1) : Nat) ≤ v) (hhi : v < (2 ^ (w - 1) : Nat)) : sgn w (enc w v) = v := by
  have hp : (2 : Nat) ^ w = 2 * 2 ^ (w - 1) := by
    obtain ⟨k, rfl⟩ := Nat.exists_eq_add_one_of_ne_zero (Nat.ne_of_gt hw)
    rw [Nat.pow_succ, Nat.add_sub_cancel]
    omega
  have hpi : (2 : Int) ^ w = (2 * 2 ^ (w - 1) : Nat) := by
    rw [← hp]
    push_cast
    rfl
  unfold sgn
  rw [enc_mod]
  unfold enc
  rw [hpi]
  generalize 2 ^ (w - 1) = m at hlo hhi ⊢
  rcases lt_or_ge v 0 with hneg | hpos
  · have hmod : v % (2 * m : Nat) = v + (2 * m : Nat) := by
      rw [← Int.add_emod_right]
      exact Int.emod_eq_of_lt (by omega) (by omega)
    rw [hmod]
    split <;> omega
  · rw [Int.emod_eq_of_lt hpos (by omega)]
    split <;> omega

theorem State.sget_sput (s : State) {f : Fld} {v : Int} (hf : f.ok) (hlo : -(2 ^ (f.width - 1) : Nat) ≤ v)
    (hhi : v < (2 ^ (f.width - 1) : Nat)) : (s.sput f v).sget f = v := by
  have hput : (s.sput f v).regs.fld f = enc f.width v := (RegTab.fld_setFld_self _ _ hf).trans (enc_mod _ _)
  exact (congrArg (sgn f.width) hput).trans (sgn_enc (by unfold Fld.width; omega) hlo hhi)

/-! ### What a list of changed fields leaves -/

/-- No field of the list shares a bit with the field, as a test. -/
def Fld.clear (fs : List Fld) (g : Fld) : Bool := fs.all (fun f => f.off != g.off || decide (f.hi < g.lo) || decide (g.hi < f.lo))

theorem Fld.apart_of_clear {fs : List Fld} {g : Fld} (h : Fld.clear fs g = true) : ∀ f ∈ fs, f.apart g := by
  intro f hf
  have := List.all_eq_true.mp h f hf
  simp only [Bool.or_eq_true, bne_iff_ne, decide_eq_true_eq] at this
  unfold Fld.apart
  omega

theorem changesOnly_fld {fs : List Fld} {s t : State} (h : changesOnly fs s t) (g : Fld) (hg : g.ok := by exact .of rfl (by omega))
    (hc : Fld.clear fs g = true := by decide) : t.regs.fld g = s.regs.fld g := h.1 g hg (Fld.apart_of_clear hc)

theorem changesOnly_bit {fs : List Fld} {s t : State} (h : changesOnly fs s t) (g : Fld) (hg : g.ok := by exact .of rfl (by omega))
    (hc : Fld.clear fs g = true := by decide) : t.regs.bit g = s.regs.bit g := RegTab.bit_congr (changesOnly_fld h g hg hc)

/-! ### The settings the loop works with -/

theorem RegTab.word_foldl_set (l : List (Nat × Word)) {r r' : RegTab} {off : Nat} (h : r'.word off = r.word off) :
    RegTab.word (l.foldl (fun r p => Tab.set r p.1 p.2) r') off = RegTab.word (l.foldl (fun r p => Tab.set r p.1 p.2) r) off := by
  induction l generalizing r r' with
  | nil => exact h
  | cons p l ih =>
    apply ih
    unfold RegTab.word at h ⊢
    rw [Tab.get_set, Tab.get_set, h]

theorem State.loopRegs_word {s t : State} {off : Nat} (hhand : t.clk.hand = s.clk.hand) (h : t.regs.word off = s.regs.word off) :
    t.loopRegs.word off = s.loopRegs.word off := by
  unfold State.loopRegs
  rw [hhand]
  exact RegTab.word_foldl_set _ h

theorem State.loopRegs_fld {s t : State} {f : Fld} (hhand : t.clk.hand = s.clk.hand) (h : t.regs.word f.off = s.regs.word f.off) :
    t.loopRegs.fld f = s.loopRegs.fld f := by
  rw [RegTab.fld, RegTab.fld, State.loopRegs_word hhand h]

theorem State.loopRegs_bit {s t : State} {f : Fld} (hhand : t.clk.hand = s.clk.hand) (h : t.regs.word f.off = s.regs.word f.off) :
    t.loopRegs.bit f = s.loopRegs.bit f := RegTab.bit_congr (State.loopRegs_fld hhand h)

/-- The loop: its state and what it shows, CLK_STATUS, CLK_BAND and CLK_PHERR. -/
def loopShare : Share where
  upd s t := { s with regs := t.regs, clk := t.clk }
  regs off := 0x200018 ≤ off ∧ off < 0x200024
  self _ := rfl
  again _ _ _ := rfl

theorem loopShare_regs {off : Nat} (h : 0x200018 ≤ off ∧ off < 0x200024) : loopShare.regs off := h

/-- The frequency word and the band table do not lie among what the loop shows. -/
theorem State.bandHit_congr {s t : State} (hhand : t.clk.hand = s.clk.hand)
    (h : ∀ off, ¬ loopShare.regs off → t.regs.word off = s.regs.word off) :
    fcwKey t.loopRegs = fcwKey s.loopRegs ∧ bandHit t.loopRegs (fcwKey t.loopRegs) = bandHit s.loopRegs (fcwKey s.loopRegs) := by
  have hkey : fcwKey t.loopRegs = fcwKey s.loopRegs := by
    unfold fcwKey
    rw [State.loopRegs_fld hhand (h _ (by simp [loopShare, F.CLK_FCW_INT_INT])), State.loopRegs_fld hhand (h _ (by simp [loopShare, F.CLK_FCW_FRAC_FRAC])),
      State.loopRegs_fld hhand (h _ (by simp [loopShare, F.CLK_FCW_MOD_MOD]))]
  refine ⟨hkey, ?_⟩
  rw [hkey]
  unfold bandHit
  congr 1
  funext i
  rw [State.loopRegs_bit hhand (h _ (by simp [loopShare, F.CLK_BTAB_FCW_VALID]; omega)),
    State.loopRegs_fld hhand (h _ (by simp [loopShare, F.CLK_BTAB_FCW_INT]; omega)),
    State.loopRegs_fld hhand (h _ (by simp [loopShare, F.CLK_BTAB_FRAC_FRAC]; omega)),
    State.loopRegs_fld hhand (h _ (by simp [loopShare, F.CLK_BTAB_MOD_MOD]; omega))]

/-! ### The loop's state -/

section
variable (s : State)

theorem State.locusHub_congr {s t : State} (h : t.regs.fld F.GLOBAL_STATE_NODE = s.regs.fld F.GLOBAL_STATE_NODE) : t.locusHub = s.locusHub := by
  unfold State.locusHub State.locus State.get
  rw [h]

theorem State.sget_showErr (e : Int) : (s.showErr e).sget F.CLK_PHERR_ERR = max (-32768) (min 32767 e) :=
  State.sget_sput _ (.of rfl (by omega)) (by show -((32768 : Nat) : Int) ≤ _; omega) (by show _ < ((32768 : Nat) : Int); omega)

theorem State.get_setLoop (k : Nat) : (s.setLoop k).get F.CLK_STATUS_LOOP = k % 16 := by
  simp (disch := first | exact .of rfl (by omega) | omega) [State.setLoop, State.get]
  rfl

theorem State.flag_setLoop_holdover (k : Nat) : (s.setLoop k).flag F.CLK_STATUS_HOLDOVER = (k == 4) := by
  simp (disch := first | exact .of rfl (by omega) | omega) only [State.setLoop, State.flag, State.regs_putB, RegTab.bit_setFld_ite]

theorem State.setLoop_changes {fs : List Fld} (h1 : F.CLK_STATUS_LOOP ∈ fs) (h2 : F.CLK_STATUS_HOLDOVER ∈ fs) (k : Nat) :
    changesOnly fs s (s.setLoop k) := ((changesOnly.refl fs s).put h1).put h2

theorem State.setLoop_loopShare (k : Nat) : loopShare.Only s (s.setLoop k) :=
  .trans (.put (f := F.CLK_STATUS_LOOP) (loopShare_regs (by decide))) (.put (f := F.CLK_STATUS_HOLDOVER) (loopShare_regs (by decide)))

/-- An acquisition has started from s (R255). -/
structure Acquires (s t : State) : Prop where
  loop : t.get F.CLK_STATUS_LOOP = if (bandHit s.loopRegs (fcwKey s.loopRegs)).isSome then 2 else 1
  reg : changesOnly [F.CLK_STATUS_LOOP, F.CLK_STATUS_HOLDOVER, F.CLK_STATUS_BAND_HIT, F.CLK_BAND_BAND, F.CLK_BAND_FINE] s t
  frame : t = { s with regs := t.regs, clk := t.clk }
  clk : t.clk = { s.clk with lo := t.clk.lo, hi := t.clk.hi, steps := t.clk.steps, searched := t.clk.searched, band := t.clk.band, used := t.clk.used }

/-- What an acquisition from the band table shows. -/
def State.foundShown (s : State) (i : Nat) : State :=
  (((s.setLoop 2).setF F.CLK_STATUS_BAND_HIT).put F.CLK_BAND_BAND (s.loopRegs.fld (F.CLK_BTAB_BAND_BAND i))).put
    F.CLK_BAND_FINE (s.loopRegs.fld (F.CLK_BTAB_BAND_FINE i))

/-- What SEARCH shows at its start. -/
def State.searchShown (s : State) : State := ((s.setLoop 1).clrF F.CLK_STATUS_BAND_HIT).put F.CLK_BAND_BAND 127

theorem State.startAcq_of_hit {i : Nat} (h : bandHit s.loopRegs (fcwKey s.loopRegs) = some i) :
    s.startAcq = { s.foundShown i with clk := { (s.foundShown i).clk with
      searched := false, band := fcwKey s.loopRegs, used := i :: (s.foundShown i).clk.used.filter (fun x => x != i) } } := by
  simp only [State.startAcq, h, State.foundShown]

theorem State.startAcq_of_no_hit (h : bandHit s.loopRegs (fcwKey s.loopRegs) = none) :
    s.startAcq = { s.searchShown with clk := { s.searchShown.clk with lo := 0, hi := 255, steps := 8, searched := true } } := by
  simp only [State.startAcq, h, State.searchShown]

theorem loopShare_setClk {s t : State} (h : loopShare.Only s t) (k : Clk) : ({ t with clk := k } : State) = { s with regs := t.regs, clk := k } :=
  congrArg (fun u : State => { u with clk := k }) h.frame

theorem State.startAcq_acquires : Acquires s s.startAcq := by
  have hreg : ∀ k b v, changesOnly [F.CLK_STATUS_LOOP, F.CLK_STATUS_HOLDOVER, F.CLK_STATUS_BAND_HIT, F.CLK_BAND_BAND, F.CLK_BAND_FINE] s
      (((s.setLoop k).put F.CLK_STATUS_BAND_HIT b).put F.CLK_BAND_BAND v) := fun k b v =>
    ((s.setLoop_changes (by simp) (by simp) k).put (by simp)).put (by simp)
  have hown : ∀ k b v, loopShare.Only s (((s.setLoop k).put F.CLK_STATUS_BAND_HIT b).put F.CLK_BAND_BAND v) := fun k b v =>
    ((s.setLoop_loopShare k).trans (.put (loopShare_regs (by decide)))).trans (.put (loopShare_regs (by decide)))
  cases hb : bandHit s.loopRegs (fcwKey s.loopRegs) with
  | some i =>
    have hshown : loopShare.Only s (s.foundShown i) := (hown 2 1 _).trans (.put (f := F.CLK_BAND_FINE) (loopShare_regs (by decide)))
    rw [s.startAcq_of_hit hb]
    refine ⟨?_, ((hreg 2 1 _).put (f := F.CLK_BAND_FINE) (by simp)).parts rfl rfl rfl rfl, loopShare_setClk hshown _, rfl⟩
    simp (disch := first | exact .of rfl (by omega) | omega) [State.setLoop, State.get, State.foundShown, hb]
    rfl
  | none =>
    have hshown : loopShare.Only s s.searchShown := hown 1 0 127
    rw [s.startAcq_of_no_hit hb]
    refine ⟨?_, (hreg 1 0 127).parts rfl rfl rfl rfl, loopShare_setClk hshown _, rfl⟩
    simp (disch := first | exact .of rfl (by omega) | omega) [State.setLoop, State.get, State.searchShown, hb]
    decide

theorem frame_with_lcnt {s t : State} (h : t = { s with regs := t.regs, clk := t.clk }) :
    t = { s with lcnt := t.lcnt, regs := t.regs, clk := t.clk } := by
  have hlcnt : t.lcnt = s.lcnt := (congrArg State.lcnt h).trans rfl
  rw [hlcnt]
  exact h

theorem State.leaveWait_of_loop (h : s.get F.CLK_STATUS_LOOP ≠ 0) : s.leaveWait = s := if_neg (fun hc => h hc.2.1)

theorem State.leaveWait_of_ready (h0 : s.get F.CLK_STATUS_LOOP = 0) (hcfg : s.cfgReady = true) (href : s.flag F.CLK_STATUS_REF_OK = true)
    (hocxo : s.flag F.CLK_STATUS_OCXO_RDY = true) : s.leaveWait = s.startAcq := if_pos ⟨hcfg, h0, href, .inl hocxo⟩

/-- WAIT_REF is left, or nothing changes. -/
structure WaitLeft (s t : State) : Prop where
  loop : s.get F.CLK_STATUS_LOOP < 3 → t.get F.CLK_STATUS_LOOP < 3
  reg : changesOnly [F.CLK_STATUS_LOOP, F.CLK_STATUS_HOLDOVER, F.CLK_STATUS_BAND_HIT, F.CLK_BAND_BAND, F.CLK_BAND_FINE] s t
  frame : t = { s with regs := t.regs, clk := t.clk }
  clk : t.clk = { s.clk with lo := t.clk.lo, hi := t.clk.hi, steps := t.clk.steps, searched := t.clk.searched, band := t.clk.band, used := t.clk.used }

theorem State.leaveWait_left : WaitLeft s s.leaveWait := by
  unfold State.leaveWait
  split
  next =>
    obtain ⟨hloop, hreg, hframe, hclk⟩ := s.startAcq_acquires
    refine ⟨fun _ => ?_, hreg, hframe, hclk⟩
    rw [hloop]
    split <;> decide
  next => exact ⟨id, .refl _ _, rfl, rfl⟩

theorem State.leaveHold_of_loop (h : s.get F.CLK_STATUS_LOOP ≠ 4) : s.leaveHold = s := if_neg (fun hc => h hc.1)

theorem State.leaveHold_of_ready (h4 : s.get F.CLK_STATUS_LOOP = 4) (href : s.flag F.CLK_STATUS_REF_OK = true) (hby : s.clk.toBypass = none) :
    s.leaveHold = { ((s.setLoop 2).clrF F.CLK_STATUS_BAND_HIT) with clk := { s.clk with searched := false } } := if_pos ⟨h4, href, hby⟩

/-- HOLDOVER is left, or nothing changes. -/
structure HoldLeft (s t : State) : Prop where
  reg : changesOnly [F.CLK_STATUS_LOOP, F.CLK_STATUS_HOLDOVER, F.CLK_STATUS_BAND_HIT] s t
  frame : t = { s with regs := t.regs, clk := t.clk }
  clk : t.clk = { s.clk with searched := t.clk.searched }

theorem State.leaveHold_left : HoldLeft s s.leaveHold := by
  unfold State.leaveHold
  split
  · exact ⟨((s.setLoop_changes (by simp) (by simp) 2).put (f := F.CLK_STATUS_BAND_HIT) (by simp)).parts rfl rfl rfl rfl, rfl, rfl⟩
  · exact ⟨.refl _ _, rfl, rfl⟩

/-- The PLL_BYPASS gap has opened. -/
theorem State.openPllGap_eq (c : Nat) : ∃ x, gapShare.Only { s with clk := { s.clk with gap := (x, none) } } (s.openPllGap c) :=
  ⟨_, State.setLossAll_gapShare _ _ _ _⟩

theorem clk_of_gapShare {s t : State} (h : gapShare.Only s t) : t.clk = s.clk ∧ t.log = s.log ∧ t.lcnt = s.lcnt ∧ t.cfgReady = s.cfgReady :=
  ⟨(congrArg State.clk h.frame).trans rfl, (congrArg State.log h.frame).trans rfl, (congrArg State.lcnt h.frame).trans rfl, (congrArg State.cfgReady h.frame).trans rfl⟩

/-- No register of the clock belongs to the gaps. -/
theorem clock_beside_gaps {off : Nat} (h : off < 0x500000) : ¬ gapShare.regs off := fun hc => by
  have := hc.1
  omega

/-! ### Loss -/

/-- The loop has lost its lock or its reference in core cycle c (R259). -/
structure LoopLost (c good : Nat) (s t : State) : Prop where
  loop : t.get F.CLK_STATUS_LOOP = 4
  holdover : t.flag F.CLK_STATUS_HOLDOVER = true
  toBypass : t.clk.toBypass = some c
  toReturn : t.clk.toReturn = none
  gap : t.clk.gap.2 = none
  last : t.getN R.CLK_LOSS_LCNT 2 = good % 2 ^ 64
  lcnt : t.lcnt = s.lcnt
  seen : (0x0301, s.locusHub) ∈ t.log.seen
  ref : t.flag F.CLK_STATUS_REF_OK = s.flag F.CLK_STATUS_REF_OK
  err : t.sget F.CLK_PHERR_ERR = s.sget F.CLK_PHERR_ERR

/-- What a loss shows before it is logged. -/
def State.lossShown (s : State) (good cause : Nat) : State :=
  ((((s.draw 24).2.setLoop 4).put F.CLK_BAND_FINE (s.draw 24).1).setF
    (if cause = 0 then F.CLK_STATUS_LOCK_LOST else F.CLK_STATUS_REF_LOST)).putN R.CLK_LOSS_LCNT 2 (good % 2 ^ 64)

/-- A loss as it is logged. -/
def State.lossLogged (s : State) (c good cause data : Nat) : State :=
  ({ s.lossShown good cause with clk := { (s.lossShown good cause).clk with toBypass := some c, toReturn := none } } : State).post c 0x0301
    s.locusHub data

theorem State.loopLoss_eq (c good cause : Nat) : ∃ data, s.loopLoss c good cause = (s.lossLogged c good cause data).openPllGap c := ⟨_, rfl⟩

@[simp] theorem State.regs_draw (w : Nat) : (s.draw w).2.regs = s.regs := rfl

/-- A word of the clock as a loss leaves it. -/
theorem State.fld_lossLogged (c good cause data : Nat) {f : Fld} (hf : f.Low) :
    (s.lossLogged c good cause data).regs.fld f = (s.lossShown good cause).regs.fld f :=
  State.fld_post _ _ _ _ _ hf

theorem State.loopLoss_fld (c good cause : Nat) (f : Fld) (hok : f.ok := by exact .of rfl (by omega)) (hf : f.off < 0x500000 := by decide) :
    (s.loopLoss c good cause).regs.fld f = (s.lossShown good cause).regs.fld f := by
  obtain ⟨data, he⟩ := s.loopLoss_eq c good cause
  obtain ⟨x, hgap⟩ := (s.lossLogged c good cause data).openPllGap_eq c
  rw [he]
  exact (hgap.fld (clock_beside_gaps hf)).trans (s.fld_lossLogged c good cause data ⟨hok, by omega⟩)

theorem State.loopLoss_cause (c good cause : Nat) :
    (s.loopLoss c good cause).flag (if cause = 0 then F.CLK_STATUS_LOCK_LOST else F.CLK_STATUS_REF_LOST) = true := by
  split
  next h =>
    refine (RegTab.bit_congr (s.loopLoss_fld c good cause F.CLK_STATUS_LOCK_LOST)).trans ?_
    simp (disch := first | exact .of rfl (by omega) | omega) [State.lossShown, R.CLK_LOSS_LCNT, h]
  next h =>
    refine (RegTab.bit_congr (s.loopLoss_fld c good cause F.CLK_STATUS_REF_LOST)).trans ?_
    simp (disch := first | exact .of rfl (by omega) | omega) [State.lossShown, R.CLK_LOSS_LCNT, h]

/-- CLK_STATUS as a loss leaves it: the loop in HOLDOVER, the reference as it was. -/
theorem State.lossShown_status (good cause : Nat) :
    (s.lossShown good cause).get F.CLK_STATUS_LOOP = 4 ∧ (s.lossShown good cause).flag F.CLK_STATUS_HOLDOVER = true ∧
    (s.lossShown good cause).flag F.CLK_STATUS_REF_OK = s.flag F.CLK_STATUS_REF_OK ∧
    (s.lossShown good cause).get F.CLK_PHERR_ERR = s.get F.CLK_PHERR_ERR := by
  unfold State.lossShown
  split
  all_goals
    refine ⟨?_, ?_, ?_, ?_⟩
    all_goals
      simp (disch := first | exact .of rfl (by omega) | omega) [State.get, State.flag, State.setLoop, R.CLK_LOSS_LCNT]
    all_goals rfl

theorem State.loopLoss_lost (c good cause : Nat) : LoopLost c good s (s.loopLoss c good cause) := by
  obtain ⟨hloop, hhold, href, herr⟩ := s.lossShown_status good cause
  have hword := fun f hok hf => s.loopLoss_fld c good cause f hok hf
  obtain ⟨data, he⟩ := s.loopLoss_eq c good cause
  obtain ⟨x, hgap⟩ := (s.lossLogged c good cause data).openPllGap_eq c
  obtain ⟨hclk, hlog, hlcnt, -⟩ := clk_of_gapShare hgap
  rw [he] at hword ⊢
  refine ⟨(hword F.CLK_STATUS_LOOP (.of rfl (by omega)) (by decide)).trans hloop, (RegTab.bit_congr (hword F.CLK_STATUS_HOLDOVER (.of rfl (by omega)) (by decide))).trans hhold, ?_, ?_, ?_,
    (hgap.wide (fun j h1 h2 => clock_beside_gaps (by simp only [R.CLK_LOSS_LCNT] at h1 h2; omega))).trans ?_, ?_, ?_,
    (RegTab.bit_congr (hword F.CLK_STATUS_REF_OK (.of rfl (by omega)) (by decide))).trans href, congrArg (sgn _) ((hword F.CLK_PHERR_ERR (.of rfl (by omega)) (by decide)).trans herr)⟩
  · rw [hclk]
    simp [State.lossLogged]
  · rw [hclk]
    simp [State.lossLogged]
  · rw [hclk]
  · refine (State.wide_post _ _ _ _ _ (by decide)).trans ?_
    exact RegTab.wide_setWide 2 _ _ _ |>.trans (Nat.mod_mod _ _)
  · rw [hlcnt]
    simp only [State.lossLogged, State.post_frame]
    rfl
  · rw [hlog]
    exact State.post_seen _ _ _ _ _

end

/-! ### The loop loses and finds its reference (R253, R254, R259, R262, R263) -/

section
variable (c good : Nat) (s : State)

theorem memSame_of_mem {s t : State} (h : t.pending = s.pending ∧ t.store = s.store ∧ t.flash = s.flash) : memSame s t :=
  memSame_of_fields h.2.1 h.2.2

theorem refinLost_of_locked (h : s.get F.CLK_STATUS_LOOP = 3) : ∃ t, exec (.refinLost c good) s = .next t ∧
    t.flag F.CLK_STATUS_REF_OK = false ∧ t.get F.CLK_STATUS_LOOP = 4 ∧
    t.flag F.CLK_STATUS_HOLDOVER = true ∧ t.flag F.CLK_STATUS_REF_LOST = true ∧ t.clk.toBypass = some c ∧
    t.clk.toReturn = none ∧ t.clk.gap.2 = none ∧ t.getN R.CLK_LOSS_LCNT 2 = good % 2 ^ 64 ∧ t.lcnt = max s.lcnt c ∧
    (0x0301, s.locusHub) ∈ t.log.seen ∧ memSame s t := by
  have he : exec (.refinLost c good) s = .next (((s.at_ c).clrF F.CLK_STATUS_REF_OK).loopLoss c good 1) := by
    simp only [exec, execRefinLost, h]
  have hl := State.loopLoss_lost ((s.at_ c).clrF F.CLK_STATUS_REF_OK) c good 1
  have href : ((s.at_ c).clrF F.CLK_STATUS_REF_OK).flag F.CLK_STATUS_REF_OK = false := RegTab.bit_setFld_zero _ (.of rfl (by omega))
  have hlocus : ((s.at_ c).clrF F.CLK_STATUS_REF_OK).locusHub = s.locusHub :=
    State.locusHub_congr (RegTab.fld_setFld_sep _ _ (.of rfl (by omega)))
  exact ⟨_, he, hl.ref.trans href, hl.loop, hl.holdover, State.loopLoss_cause _ c good 1, hl.toBypass, hl.toReturn, hl.gap, hl.last, hl.lcnt,
    hlocus ▸ hl.seen, memSame_of_mem (execRefinLost_mem _ _ _ _ he)⟩

theorem loopUnlock_of_locked (h : s.get F.CLK_STATUS_LOOP = 3) (n least : Nat) (err : Int) (ovf : Bool)
    (hx : ovf = true ∨ (unlockN s.loopRegs ≤ n ∧ unlockWin s.loopRegs < least)) :
    ∃ t, exec (.loopUnlock c ⟨good, n, least, err, ovf⟩) s = .next t ∧ t.get F.CLK_STATUS_LOOP = 4 ∧
      t.flag F.CLK_STATUS_HOLDOVER = true ∧ t.flag F.CLK_STATUS_LOCK_LOST = true ∧ t.clk.toBypass = some c ∧
      t.clk.toReturn = none ∧ t.clk.gap.2 = none ∧ t.getN R.CLK_LOSS_LCNT 2 = good % 2 ^ 64 ∧ t.lcnt = max s.lcnt c ∧
      t.sget F.CLK_PHERR_ERR = max (-32768) (min 32767 err) ∧ (0x0301, s.locusHub) ∈ t.log.seen ∧ memSame s t := by
  have he : exec (.loopUnlock c ⟨good, n, least, err, ovf⟩) s = .next (((s.at_ c).showErr err).loopLoss c good 0) := by
    simp only [exec, execLoopUnlock, h, if_pos hx, if_true]
  have hl := State.loopLoss_lost ((s.at_ c).showErr err) c good 0
  have hlocus : ((s.at_ c).showErr err).locusHub = s.locusHub :=
    State.locusHub_congr (RegTab.fld_setFld_sep _ _ (.of rfl (by omega)))
  exact ⟨_, he, hl.loop, hl.holdover, State.loopLoss_cause _ c good 0, hl.toBypass, hl.toReturn, hl.gap, hl.last, hl.lcnt,
    hl.err.trans ((s.at_ c).sget_showErr err), hlocus ▸ hl.seen, memSame_of_mem (execLoopUnlock_mem _ _ _ _ he)⟩

/-- A lasting phase error below the criterion is shown only. -/
theorem loopUnlock_of_small (h : s.get F.CLK_STATUS_LOOP = 3) (n least : Nat) (err : Int)
    (hx : n < unlockN s.loopRegs ∨ least ≤ unlockWin s.loopRegs) :
    exec (.loopUnlock c ⟨good, n, least, err, false⟩) s = .next ((s.at_ c).showErr err) := by
  have hno : ¬ ((false : Bool) = true ∨ (unlockN s.loopRegs ≤ n ∧ unlockWin s.loopRegs < least)) := by
    rw [or_iff_right Bool.false_ne_true]
    omega
  simp only [exec, execLoopUnlock, h, if_neg hno, if_true]

theorem refinLost_of_acquiring (h : s.get F.CLK_STATUS_LOOP = 1 ∨ s.get F.CLK_STATUS_LOOP = 2) :
    exec (.refinLost c good) s = .next (((s.at_ c).clrF F.CLK_STATUS_REF_OK).setLoop 0) := by
  rcases h with h | h <;> simp only [exec, execRefinLost, h]

theorem refinLost_of_waiting (h : s.get F.CLK_STATUS_LOOP = 0 ∨ s.get F.CLK_STATUS_LOOP = 4) :
    exec (.refinLost c good) s = .next ((s.at_ c).clrF F.CLK_STATUS_REF_OK) := by
  rcases h with h | h <;> simp only [exec, execRefinLost, h]

/-- The reference is back. -/
def State.refBack (s : State) (c : Nat) : State := (s.at_ c).setF F.CLK_STATUS_REF_OK

theorem State.refBack_status : (s.refBack c).get F.CLK_STATUS_LOOP = s.get F.CLK_STATUS_LOOP ∧ (s.refBack c).flag F.CLK_STATUS_REF_OK = true ∧
    (s.refBack c).flag F.CLK_STATUS_OCXO_RDY = s.flag F.CLK_STATUS_OCXO_RDY :=
  ⟨RegTab.fld_setFld_sep _ _ (.of rfl (by omega)), RegTab.bit_setFld_one _ (.of rfl (by omega)), RegTab.bit_setFld_sep _ _ (.of rfl (by omega))⟩

theorem State.refBack_changes {fs : List Fld} (h : F.CLK_STATUS_REF_OK ∈ fs) : changesOnly fs s (s.refBack c) :=
  ((changesOnly.refl fs s).parts (u := s.at_ c) rfl rfl rfl rfl).put h

/-- CLK_STATUS does not enter the choice of the band. -/
theorem State.bandHit_of_status {s t : State} {f : Fld} {v : Nat} (hclk : t.clk = s.clk) (hregs : t.regs = s.regs.setFld f v)
    (hf : f.off = R.CLK_STATUS) : bandHit t.loopRegs (fcwKey t.loopRegs) = bandHit s.loopRegs (fcwKey s.loopRegs) :=
  (State.bandHit_congr (by rw [hclk]) (fun off hoff => by
    rw [hregs]
    refine RegTab.word_setFld_other _ _ _ _ (fun e => hoff ?_)
    rw [e, hf]
    exact loopShare_regs (by decide))).2

theorem refinRestored_of_waiting (h : s.get F.CLK_STATUS_LOOP = 0) (hcfg : s.cfgReady = true) (hocxo : s.flag F.CLK_STATUS_OCXO_RDY = true) :
    ∃ t, exec (.refinRestored c) s = .next t ∧ t.flag F.CLK_STATUS_REF_OK = true ∧
      t.get F.CLK_STATUS_LOOP = (if (bandHit s.loopRegs (fcwKey s.loopRegs)).isSome then 2 else 1) ∧
      changesOnly [F.CLK_STATUS_REF_OK, F.CLK_STATUS_LOOP, F.CLK_STATUS_HOLDOVER, F.CLK_STATUS_BAND_HIT, F.CLK_BAND_BAND,
        F.CLK_BAND_FINE] s t ∧ t = { s with lcnt := t.lcnt, regs := t.regs, clk := t.clk } := by
  obtain ⟨hloop, href, hrdy⟩ := s.refBack_status c
  have hstart : (s.refBack c).leaveWait = (s.refBack c).startAcq :=
    State.leaveWait_of_ready _ (hloop.trans h) hcfg href (hrdy.trans hocxo)
  have hacq := (s.refBack c).startAcq_acquires
  have hto : (s.refBack c).startAcq.get F.CLK_STATUS_LOOP = if (bandHit s.loopRegs (fcwKey s.loopRegs)).isSome then 2 else 1 :=
    hacq.loop.trans (by rw [State.bandHit_of_status (s := s) (t := s.refBack c) (f := F.CLK_STATUS_REF_OK) (v := 1) rfl rfl rfl])
  have hne : (s.refBack c).startAcq.get F.CLK_STATUS_LOOP ≠ 4 := by
    rw [hto]
    split <;> decide
  refine ⟨(s.refBack c).startAcq, congrArg Host.Outcome.next ?_, (changesOnly_bit hacq.reg _).trans href, hto,
    (s.refBack_changes c (by simp)).trans (hacq.reg.mono (by simp +contextual)), frame_with_lcnt (s := s.refBack c) hacq.frame⟩
  show (s.refBack c).leaveWait.leaveHold = _
  rw [hstart, State.leaveHold_of_loop _ hne]

theorem refinRestored_of_holdover (h : s.get F.CLK_STATUS_LOOP = 4) (hby : s.clk.toBypass = none) :
    ∃ t, exec (.refinRestored c) s = .next t ∧
      t.flag F.CLK_STATUS_REF_OK = true ∧ t.get F.CLK_STATUS_LOOP = 2 ∧ t.flag F.CLK_STATUS_HOLDOVER = false ∧
      t.clk.searched = false ∧ t.flag F.CLK_STATUS_BAND_HIT = false ∧
      changesOnly [F.CLK_STATUS_REF_OK, F.CLK_STATUS_LOOP, F.CLK_STATUS_HOLDOVER, F.CLK_STATUS_BAND_HIT] s t := by
  obtain ⟨hloop, href, -⟩ := s.refBack_status c
  have h4 : (s.refBack c).get F.CLK_STATUS_LOOP = 4 := hloop.trans h
  refine ⟨(s.refBack c).leaveHold, congrArg Host.Outcome.next ?_, (changesOnly_bit (s.refBack c).leaveHold_left.reg _).trans href, ?_, ?_, ?_, ?_,
    (s.refBack_changes c (by simp)).trans ((s.refBack c).leaveHold_left.reg.mono (by simp +contextual))⟩
  · show (s.refBack c).leaveWait.leaveHold = _
    rw [State.leaveWait_of_loop _ (by rw [h4]; decide)]
  all_goals
    rw [State.leaveHold_of_ready _ h4 href hby]
  · exact (RegTab.fld_setFld_sep _ _ (.of rfl (by omega))).trans ((s.refBack c).get_setLoop 2)
  · exact (RegTab.bit_setFld_sep _ _ (.of rfl (by omega))).trans ((s.refBack c).flag_setLoop_holdover 2)
  · exact RegTab.bit_setFld_zero _ (.of rfl (by omega))

theorem refinRestored_of_locked (h : s.get F.CLK_STATUS_LOOP = 3) : exec (.refinRestored c) s = .next (s.refBack c) := by
  have h3 : (s.refBack c).get F.CLK_STATUS_LOOP = 3 := (s.refBack_status c).1.trans h
  refine congrArg Host.Outcome.next ?_
  show (s.refBack c).leaveWait.leaveHold = _
  rw [State.leaveWait_of_loop _ (by rw [h3]; decide), State.leaveHold_of_loop _ (by rw [h3]; decide)]

end

/-! ### Bypass -/

section
variable (s : State)

theorem State.regs_enterBypass (b : Nat) :
    (s.enterBypass b).regs = ((s.setF F.CLK_STATUS_FABRIC_BYP).incSat F.CLK_SWITCH_CNT_COUNT).regs := rfl

theorem State.clk_enterBypass (b : Nat) : (s.enterBypass b).clk = { s.clk with bypass := (b, none) :: s.clk.bypass, held := false } := rfl

theorem State.lcnt_enterBypass (b : Nat) : (s.enterBypass b).lcnt = s.lcnt := rfl

theorem State.flag_enterBypass (b : Nat) : (s.enterBypass b).flag F.CLK_STATUS_FABRIC_BYP = true := by
  simp (disch := first | exact .of rfl (by omega) | omega) [State.flag, State.regs_enterBypass]

/-- What an oscillator stop shows before the loop is told. -/
def State.stopShown (s : State) (c : Nat) : State := ((s.at_ c).setF F.CLK_STATUS_NTO_STOP).setF F.CLK_STATUS_LOCK_LOST

/-- The fabric is on CLKBYP after an oscillator stop in core cycle c. -/
def State.stopBypass (s : State) (c : Nat) : State := if s.flag F.CLK_STATUS_FABRIC_BYP then s.stopShown c else (s.stopShown c).enterBypass c

theorem State.stopBypass_status (c : Nat) : (s.stopBypass c).flag F.CLK_STATUS_NTO_STOP = true ∧
    (s.stopBypass c).flag F.CLK_STATUS_LOCK_LOST = true ∧ (s.stopBypass c).flag F.CLK_STATUS_FABRIC_BYP = true ∧
    (s.stopBypass c).lcnt = max s.lcnt c := by
  unfold State.stopBypass
  split
  next h =>
    refine ⟨?_, ?_, ?_, rfl⟩ <;>
    simp (disch := first | exact .of rfl (by omega) | omega) [State.flag, State.stopShown]
    exact h
  next =>
    refine ⟨?_, ?_, State.flag_enterBypass _ _, State.lcnt_enterBypass _ _⟩ <;>
    simp (disch := first | exact .of rfl (by omega) | omega) [State.flag, State.stopShown, State.regs_enterBypass]

/-- The stop is logged, the loop waits for its reference. -/
def State.stopLogged (s : State) (c : Nat) : State :=
  (({ s.stopBypass c with
      timeDue := (s.stopBypass c).timeDue ++ [TimeCause.ntoStop]
      clk := { (s.stopBypass c).clk with toBypass := none, toReturn := none } } : State).setLoop 0).post c 0x0303 s.locusHub uncountedMax

theorem State.stopLogged_status (c : Nat) : (s.stopLogged c).flag F.CLK_STATUS_NTO_STOP = true ∧
    (s.stopLogged c).flag F.CLK_STATUS_LOCK_LOST = true ∧ (s.stopLogged c).flag F.CLK_STATUS_FABRIC_BYP = true ∧
    (s.stopLogged c).get F.CLK_STATUS_LOOP = 0 := by
  obtain ⟨hstop, hlost, hbyp, -⟩ := s.stopBypass_status c
  unfold State.flag at hstop hlost hbyp
  refine ⟨?_, ?_, ?_, ?_⟩ <;>
  simp (disch := first | exact .of rfl (by omega) | omega) [State.flag, State.get, State.stopLogged, State.setLoop, hstop, hlost, hbyp]

theorem oscillatorStop_effect (c : Nat) (k : Fin 11) (s : State) : ∃ t, exec (.oscillatorStop c k) s = .next t ∧ t.flag F.CLK_STATUS_NTO_STOP = true ∧
    t.flag F.CLK_STATUS_LOCK_LOST = true ∧ t.flag F.CLK_STATUS_FABRIC_BYP = true ∧ t.get F.CLK_STATUS_LOOP < 3 ∧
    t.clk.toBypass = none ∧ t.clk.gap.2 = none ∧ (0x0303, s.locusHub) ∈ t.log.seen ∧ t.lcnt = max s.lcnt c ∧ memSame s t := by
  have he : exec (.oscillatorStop c k) s = .next ((s.stopLogged c).openPllGap c).leaveWait := rfl
  obtain ⟨hstop, hlost, hbyp, hloop⟩ := s.stopLogged_status c
  obtain ⟨x, hgap⟩ := (s.stopLogged c).openPllGap_eq c
  obtain ⟨gclk, glog, glcnt, -⟩ := clk_of_gapShare hgap
  obtain ⟨wloop, wreg, wframe, wclk⟩ := ((s.stopLogged c).openPllGap c).leaveWait_left
  have hflag := fun f (hf : f.off < 0x500000) => hgap.bit (f := f) (clock_beside_gaps hf)
  have hwait : ((s.stopLogged c).openPllGap c).get F.CLK_STATUS_LOOP = 0 := (hgap.fld (clock_beside_gaps (by decide))).trans hloop
  refine ⟨_, he, (changesOnly_bit wreg _).trans ((hflag _ (by decide)).trans hstop), (changesOnly_bit wreg _).trans ((hflag _ (by decide)).trans hlost),
    (changesOnly_bit wreg _).trans ((hflag _ (by decide)).trans hbyp), wloop (by rw [hwait]; decide), ?_, ?_, ?_, ?_,
    memSame_of_mem (execOscillatorStop_mem c k _ _ he)⟩
  · rw [wclk, gclk]
    simp [State.stopLogged, State.setLoop, State.putB]
  · rw [wclk, gclk]
  · rw [wframe, glog]
    exact State.post_seen _ _ _ _ _
  · rw [wframe, glcnt]
    simp [State.stopLogged, State.setLoop, State.putB, (s.stopBypass_status c).2.2.2]

end

/-- Settles O39, one lemma for each command and state of the loop. -/
theorem loopLossesAndReturns : Obligations.LoopLossesAndReturns := by
  unfold Obligations.LoopLossesAndReturns
  refine ⟨fun c good s h => ⟨refinLost_of_locked c good s h, fun n least err ovf => ⟨fun hx => loopUnlock_of_locked c good s h n least err ovf hx,
      fun hovf hx => ?_⟩⟩, fun c good s h => ?_, fun c good s h => refinLost_of_waiting c good s h, fun c good n least err ovf s h => ?_,
    fun c s => ⟨fun h hcfg hocxo => refinRestored_of_waiting c s h hcfg hocxo, fun h hby => refinRestored_of_holdover c s h hby,
      fun h => refinRestored_of_locked c s h⟩, oscillatorStop_effect⟩
  · subst hovf
    exact loopUnlock_of_small c good s h n least err hx
  · refine ⟨_, refinLost_of_acquiring c good s h, ?_, State.get_setLoop _ 0, rfl,
      ((((changesOnly.refl _ s).parts (u := s.at_ c) rfl rfl rfl rfl).put (by simp)).put (by simp)).put (by simp), rfl⟩
    simp (disch := first | exact .of rfl (by omega) | omega) [State.flag, State.setLoop]
  · simp only [exec, execLoopUnlock, if_neg h]

end Sys2Proof.Machine
end

section
/-! SUPPORT. The sample clock: the fabric's way to CLKBYP and back, the search for a band, and lock (R255, R258-R263). -/

namespace Sys2Proof.Machine

open Sys2Proof.Safety

/-! ### To CLKBYP and back -/

section
variable (s : State)

theorem clk_of_timeShare {s t : State} (h : timeShare.Only s t) : t.clk = s.clk ∧ t.lcnt = s.lcnt :=
  ⟨(congrArg State.clk h.frame).trans rfl, (congrArg State.lcnt h.frame).trans rfl⟩

/-- No register of the clock belongs to network time. -/
theorem clock_beside_time {off : Nat} (h : off < 0xC00000) : ¬ timeShare.regs off := fun hc => by
  have hoff : off = 0xC00004 ∨ (0xC00044 ≤ off ∧ off < 0xC0005C) ∨ (0xC01000 ≤ off ∧ off < 0xC01200) ∨ 0xF00000 ≤ off := hc
  omega

/-- The fabric at the boundary of its switch, which is no longer asked for. -/
def State.switchDue (s : State) (b : Nat) : State := { s.at_ b with clk := { (s.at_ b).clk with toBypass := none } }

theorem fabricToBypass_of_clkbyp {c : Nat} (h : s.clk.toBypass = some c) (hbyp : s.flag F.CLK_STATUS_BYP_OK = true) :
    ∃ t, exec .fabricToBypass s = .next t ∧ t.flag F.CLK_STATUS_FABRIC_BYP = true ∧
      t.get F.CLK_SWITCH_CNT_COUNT = min (s.get F.CLK_SWITCH_CNT_COUNT + 1) (2 ^ 32 - 1) ∧ t.clk.toBypass = none ∧
      t.clk.held = false ∧ t.clk.bypass = (boundaryAfter c, none) :: s.clk.bypass ∧ memSame s t := by
  have he : exec .fabricToBypass s =
      .next ((((s.switchDue (boundaryAfter c)).enterBypass (boundaryAfter c)).publishTime (boundaryAfter c)).leaveHold) := by
    simp only [exec, execFabricToBypass, h, if_pos hbyp]
    rfl
  have htime := ((s.switchDue (boundaryAfter c)).enterBypass (boundaryAfter c)).publishTime_timeShare (boundaryAfter c)
  obtain ⟨hreg, -, hclk⟩ := (((s.switchDue (boundaryAfter c)).enterBypass (boundaryAfter c)).publishTime (boundaryAfter c)).leaveHold_left
  have hcount : ((s.switchDue (boundaryAfter c)).enterBypass (boundaryAfter c)).get F.CLK_SWITCH_CNT_COUNT =
      min (s.get F.CLK_SWITCH_CNT_COUNT + 1) (2 ^ 32 - 1) :=
    (State.get_incSat_width (w := 32) ((s.switchDue (boundaryAfter c)).setF F.CLK_STATUS_FABRIC_BYP) F.CLK_SWITCH_CNT_COUNT (.of rfl (by omega)) rfl).trans
      (by rw [show ((s.switchDue (boundaryAfter c)).setF F.CLK_STATUS_FABRIC_BYP).get F.CLK_SWITCH_CNT_COUNT = s.get F.CLK_SWITCH_CNT_COUNT from
        RegTab.fld_setFld_sep _ _ (.of rfl (by omega))])
  refine ⟨_, he, (changesOnly_bit hreg _).trans ((htime.bit (clock_beside_time (by decide))).trans (State.flag_enterBypass _ _)),
    (changesOnly_fld hreg _).trans ((htime.fld (clock_beside_time (by decide))).trans hcount), ?_, ?_, ?_,
    memSame_of_mem (execFabricToBypass_mem _ _ he)⟩
  all_goals rw [hclk, (clk_of_timeShare htime).1]
  all_goals rfl

theorem fabricToBypass_of_held {c : Nat} (h : s.clk.toBypass = some c) (hbyp : s.flag F.CLK_STATUS_BYP_OK = false) :
    ∃ t, exec .fabricToBypass s = .next t ∧ t.clk.held = true ∧ t.clk.toBypass = none ∧
      t.lcnt = max s.lcnt (boundaryAfter c) ∧
      changesOnly [F.CLK_STATUS_LOOP, F.CLK_STATUS_HOLDOVER, F.CLK_STATUS_BAND_HIT] s t ∧
      t = { s with lcnt := t.lcnt, regs := t.regs, clk := t.clk } := by
  have he : exec .fabricToBypass s = .next (({ s.switchDue (boundaryAfter c) with
      clk := { (s.switchDue (boundaryAfter c)).clk with held := true } } : State).leaveHold) := by
    simp only [exec, execFabricToBypass, h, hbyp, Bool.false_eq_true, if_false]
    rfl
  obtain ⟨hreg, hframe, hclk⟩ := ({ s.switchDue (boundaryAfter c) with
      clk := { (s.switchDue (boundaryAfter c)).clk with held := true } } : State).leaveHold_left
  refine ⟨_, he, ?_, ?_, ?_, ((changesOnly.refl _ s).parts rfl rfl rfl rfl).trans hreg, frame_with_lcnt (s := { s.switchDue (boundaryAfter c) with
      clk := { (s.switchDue (boundaryAfter c)).clk with held := true } }) hframe⟩
  · rw [hclk]
  · rw [hclk]
    rfl
  · rw [hframe]
    rfl

/-- The comparators' interpolators: their timers alone. -/
def idleShare : Share where
  upd s t := { s with ints := t.ints }
  regs _ := False
  self _ := rfl
  again _ _ _ := rfl

theorem State.startTimers_idleShare (n c : Nat) : idleShare.Only s (s.startTimers n c) := .parts rfl rfl

/-- The fabric leaves CLKBYP or the held oscillator, if it is there. -/
def State.backTimed (s : State) (b : Nat) : State := if s.flag F.CLK_STATUS_FABRIC_BYP ∨ s.clk.held then (s.leaveBypass b).publishTime b else s

/-- The fabric is off CLKBYP, with the gap and the time as they were. -/
structure OffBypass (s t : State) : Prop where
  flag : t.flag F.CLK_STATUS_FABRIC_BYP = false
  gap : t.clk.gap = s.clk.gap
  lcnt : t.lcnt = s.lcnt

theorem State.backTimed_status (b : Nat) : OffBypass s (s.backTimed b) := by
  unfold State.backTimed
  split
  next =>
    have htime := (s.leaveBypass b).publishTime_timeShare b
    obtain ⟨hclk, hlcnt⟩ := clk_of_timeShare htime
    refine ⟨(htime.bit (clock_beside_time (by decide))).trans (RegTab.bit_setFld_zero _ (.of rfl (by omega))), ?_, hlcnt⟩
    rw [hclk]
    rfl
  next h => exact ⟨Bool.eq_false_iff.mpr (fun hc => h (.inl hc)), rfl, rfl⟩

/-- The clock as the fabric finds it when it is back. -/
def State.backClk (s : State) (b : Nat) : State :=
  { s.backTimed b with clk := { (s.backTimed b).clk with toReturn := none, held := false, gap := ((s.backTimed b).clk.gap.1, some (b + 64)) } }

/-- After that the gaps are closed and the idle timers start. -/
theorem State.fabricBack_shares (b : Nat) : ∃ u, gapShare.Only (s.backClk b) u ∧ idleShare.Only u (s.fabricBack b) := by
  unfold State.fabricBack
  extract_lets s1 k s2 s3
  have hs2 : s2 = s.backClk b := rfl
  have hs3 : gapShare.Only (s.backClk b) s3 := hs2 ▸ .foldl _ _ (fun u g _ => u.endLoss_gapShare g 4 (b + 64)) _
  exact ⟨_, hs3.trans s3.gapSyncAll_gapShare, .foldl _ _ (fun u n _ => u.startTimers_idleShare n (b + 64)) _⟩

theorem State.fabricBack_status (b : Nat) : (s.fabricBack b).flag F.CLK_STATUS_FABRIC_BYP = false ∧ (s.fabricBack b).clk = (s.backClk b).clk ∧
    (s.fabricBack b).lcnt = s.lcnt := by
  obtain ⟨hflag, -, hlcnt⟩ := s.backTimed_status b
  obtain ⟨u, hgaps, htimers⟩ := s.fabricBack_shares b
  obtain ⟨gclk, -, glcnt, -⟩ := clk_of_gapShare hgaps
  have hclk : (s.fabricBack b).clk = u.clk := (congrArg State.clk htimers.frame).trans rfl
  have hl : (s.fabricBack b).lcnt = u.lcnt := (congrArg State.lcnt htimers.frame).trans rfl
  exact ⟨(htimers.bit id).trans ((hgaps.bit (clock_beside_gaps (by decide))).trans hflag), hclk.trans gclk, (hl.trans glcnt).trans hlcnt⟩

theorem fabricReturn_of_locked {c : Nat} (h : s.clk.toReturn = some c) (h3 : s.get F.CLK_STATUS_LOOP = 3) : ∃ t, exec .fabricReturn s = .next t ∧
    t.flag F.CLK_STATUS_FABRIC_BYP = false ∧ t.clk.toReturn = none ∧ t.clk.held = false ∧ t.lcnt = max s.lcnt (boundaryAfter c) ∧
    t.clk.gap = (s.clk.gap.1, some (boundaryAfter c + 64)) ∧ memSame s t := by
  have he : exec .fabricReturn s = .next ((s.at_ (boundaryAfter c)).fabricBack (boundaryAfter c)) := by
    simp only [exec, execFabricReturn, h, if_pos h3]
  obtain ⟨hflag, hclk, hlcnt⟩ := (s.at_ (boundaryAfter c)).fabricBack_status (boundaryAfter c)
  refine ⟨_, he, hflag, ?_, ?_, hlcnt, ?_, memSame_of_mem (execFabricReturn_mem _ _ he)⟩
  · rw [hclk]
    rfl
  · rw [hclk]
    rfl
  · rw [hclk, State.backClk, ((s.at_ (boundaryAfter c)).backTimed_status (boundaryAfter c)).gap]
    rfl

theorem fabricReturn_of_none (h : s.clk.toReturn = none ∨ s.get F.CLK_STATUS_LOOP ≠ 3) : exec .fabricReturn s = .next s := by
  cases hr : s.clk.toReturn with
  | none => simp only [exec, execFabricReturn, hr]
  | some c =>
    have h3 : s.get F.CLK_STATUS_LOOP ≠ 3 := h.resolve_left (by rw [hr]; exact Option.some_ne_none c)
    simp only [exec, execFabricReturn, hr, if_neg h3]

/-- The fabric goes back to the held oscillator as CLKBYP is lost. -/
def State.bypassLost (s : State) (c : Nat) : State :=
  { ((s.at_ c).clrF F.CLK_STATUS_BYP_OK).leaveBypass c with
    timeDue := (((s.at_ c).clrF F.CLK_STATUS_BYP_OK).leaveBypass c).timeDue ++ [TimeCause.ntoStop]
    clk := { (((s.at_ c).clrF F.CLK_STATUS_BYP_OK).leaveBypass c).clk with held := true } }

theorem State.regs_bypassLost (c : Nat) : (s.bypassLost c).regs = ((s.clrF F.CLK_STATUS_BYP_OK).clrF F.CLK_STATUS_FABRIC_BYP).regs := rfl

theorem State.bypassLost_changes (c : Nat) : changesOnly ([F.CLK_STATUS_BYP_OK, F.CLK_STATUS_FABRIC_BYP] ++ logFlds) s (s.bypassLost c) :=
  (((changesOnly.refl _ s).put (f := F.CLK_STATUS_BYP_OK) (v := 0) (by simp)).put (f := F.CLK_STATUS_FABRIC_BYP) (v := 0) (by simp)).parts
    (s.regs_bypassLost c) rfl rfl rfl

theorem clkbypLost_of_bypass (c : Nat) (k : Fin 11) (h : s.flag F.CLK_STATUS_FABRIC_BYP = true) : ∃ t, exec (.clkbypLost c k) s = .next t ∧
    t.flag F.CLK_STATUS_BYP_OK = false ∧ t.flag F.CLK_STATUS_FABRIC_BYP = false ∧ t.clk.held = true ∧ (0x0304, s.locusHub) ∈ t.log.seen ∧
    changesOnly ([F.CLK_STATUS_BYP_OK, F.CLK_STATUS_FABRIC_BYP] ++ logFlds) s t := by
  have he : exec (.clkbypLost c k) s = .next ((s.bypassLost c).post c 0x0304 s.locusHub uncountedMax) := congrArg Host.Outcome.next (if_pos h)
  refine ⟨_, he, ?_, ?_, ?_, State.post_seen _ _ _ _ _, (s.bypassLost_changes c).post⟩
  · simp (disch := first | exact .of rfl (by omega) | omega) [State.flag, State.regs_bypassLost]
  · simp (disch := first | exact .of rfl (by omega) | omega) [State.flag, State.regs_bypassLost]
  · simp [State.bypassLost]

theorem ocxoRdyFall_of_waited (h : s.get F.CLK_STATUS_LOOP = 3) (hw : s.loopRegs.bit F.CLK_CTRL_OCXO_WAIT = true) :
    ∃ t, exec .ocxoRdyFall s = .next t ∧
      t.flag F.CLK_STATUS_OCXO_RDY = false ∧ t.flag F.CLK_STATUS_OCXO_COLD = true ∧ (0x0302, s.locusHub) ∈ t.log.seen ∧
      changesOnly ([F.CLK_STATUS_OCXO_RDY, F.CLK_STATUS_OCXO_COLD] ++ logFlds) s t := by
  refine ⟨_, congrArg Host.Outcome.next (if_pos ⟨h, hw⟩), ?_, ?_, State.post_seen _ _ _ _ _,
    (((changesOnly.refl _ s).put (by simp)).put (by simp)).post⟩
  · simp (disch := first | exact .of rfl (by omega) | omega) [State.flag]
  · simp (disch := first | exact .of rfl (by omega) | omega) [State.flag]

theorem ocxoRdyRise_of_waiting (h : s.get F.CLK_STATUS_LOOP = 0) (hcfg : s.cfgReady = true) (href : s.flag F.CLK_STATUS_REF_OK = true) :
    ∃ t, exec .ocxoRdyRise s = .next t ∧ t.flag F.CLK_STATUS_OCXO_RDY = true ∧
      t.get F.CLK_STATUS_LOOP = (if (bandHit s.loopRegs (fcwKey s.loopRegs)).isSome then 2 else 1) := by
  have hrdy : (s.setF F.CLK_STATUS_OCXO_RDY).flag F.CLK_STATUS_OCXO_RDY = true := RegTab.bit_setFld_one _ (.of rfl (by omega))
  have hstart : (s.setF F.CLK_STATUS_OCXO_RDY).leaveWait = (s.setF F.CLK_STATUS_OCXO_RDY).startAcq :=
    State.leaveWait_of_ready _ ((RegTab.fld_setFld_sep _ _ (.of rfl (by omega))).trans h) hcfg
      ((RegTab.bit_setFld_sep _ _ (.of rfl (by omega))).trans href) hrdy
  have hacq := (s.setF F.CLK_STATUS_OCXO_RDY).startAcq_acquires
  exact ⟨_, congrArg Host.Outcome.next hstart, (changesOnly_bit hacq.reg _).trans hrdy,
    hacq.loop.trans (by rw [State.bandHit_of_status (s := s) (t := s.setF F.CLK_STATUS_OCXO_RDY) (f := F.CLK_STATUS_OCXO_RDY) (v := 1) rfl rfl rfl])⟩

end

/-- Settles O40, one lemma for each command. -/
theorem fabricBypassAndReturn : Obligations.FabricBypassAndReturn := by
  unfold Obligations.FabricBypassAndReturn
  refine ⟨fun c s h => ⟨fabricToBypass_of_clkbyp s h, fabricToBypass_of_held s h⟩, fun s h => ?_,
    fun c s h h3 => fabricReturn_of_locked s h h3, fun s h => fabricReturn_of_none s h,
    fun c k s => ⟨clkbypLost_of_bypass s c k, fun h => ?_, rfl⟩,
    fun s => ⟨ocxoRdyFall_of_waited s, fun h => ?_, fun h => ?_, ocxoRdyRise_of_waiting s⟩⟩
  · simp only [exec, execFabricToBypass, h]
  · exact congrArg Host.Outcome.next (if_neg (by rw [h]; exact Bool.false_ne_true))
  · exact congrArg Host.Outcome.next (if_neg (fun hc => h hc.1))
  · exact congrArg Host.Outcome.next (State.leaveWait_of_loop _ (fun hc => h ((RegTab.fld_setFld_sep _ _ (.of rfl (by omega))).symm.trans hc)))

end Sys2Proof.Machine
end

section
/-! SUPPORT. The sample clock: the search for a band and the lock (R253, R255, R258). -/

namespace Sys2Proof.Machine

open Sys2Proof.Safety

/-! ### SEARCH -/

section
variable (s : State) (up : Bool) {lo hi : Nat}

/-- The bands left after a step, from those before it. -/
structure BandsLeft (s : State) (up : Bool) (lo hi : Nat) : Prop where
  low : lo = if up then min 255 ((s.clk.lo + s.clk.hi) / 2 + 1) else s.clk.lo
  high : hi = if up then max lo s.clk.hi else (s.clk.lo + s.clk.hi) / 2

theorem searchStep_of_more (h1 : s.get F.CLK_STATUS_LOOP = 1) (hb : BandsLeft s up lo hi) (hsteps : 1 < s.clk.steps) :
    exec (.searchStep up) s = .next { s.put F.CLK_BAND_BAND ((lo + hi) / 2) with
      clk := { s.clk with lo := lo, hi := hi, steps := s.clk.steps - 1 } } := by
  obtain ⟨hlo, hhi⟩ := hb
  subst hhi hlo
  refine congrArg Host.Outcome.next ((if_pos ⟨h1, by omega⟩).trans ?_)
  exact if_neg (by omega)

theorem searchStep_of_last (h1 : s.get F.CLK_STATUS_LOOP = 1) (hb : BandsLeft s up lo hi) (hsteps : s.clk.steps = 1) :
    exec (.searchStep up) s = .next { (s.setLoop 2).put F.CLK_BAND_BAND lo with
      clk := { s.clk with lo := lo, hi := hi, steps := 0, band := fcwKey s.loopRegs } } := by
  obtain ⟨hlo, hhi⟩ := hb
  subst hhi hlo
  refine congrArg Host.Outcome.next ((if_pos ⟨h1, by omega⟩).trans ?_)
  exact if_pos hsteps

end

/-! ### Learning a band -/

/-- What learning a band changes: the band table and its shadow. -/
def learnShare : Share where
  upd s t := { s with regs := t.regs, shadow := t.shadow, clk := t.clk }
  regs off := 0x200100 ≤ off
  self _ := rfl
  again _ _ _ := rfl

section
variable (s : State)

theorem State.putBoth_learnShare {f : Fld} (hf : 0x200100 ≤ f.off) (v : Nat) : learnShare.Only s (s.putBoth f v) :=
  ⟨rfl, fun _ ho => RegTab.word_setFld_other _ _ _ _ (fun e => ho (e ▸ hf))⟩

@[simp] theorem State.regs_putBoth (f : Fld) (v : Nat) : (s.putBoth f v).regs = s.regs.setFld f v := rfl

/-- Entry i of the band table as a lock fills it. -/
def State.bandWritten (s : State) (i : Nat) (k : Nat × Nat × Nat) : State :=
  (((((s.putBoth (F.CLK_BTAB_FCW_VALID i) 1).putBoth (F.CLK_BTAB_FCW_INT i) k.1).putBoth (F.CLK_BTAB_FRAC_FRAC i) k.2.1).putBoth
    (F.CLK_BTAB_MOD_MOD i) k.2.2).putBoth (F.CLK_BTAB_BAND_BAND i) (s.get F.CLK_BAND_BAND)).putBoth (F.CLK_BTAB_BAND_FINE i) (s.get F.CLK_BAND_FINE)

theorem State.bandWritten_learnShare (i : Nat) (k : Nat × Nat × Nat) : learnShare.Only s (s.bandWritten i k) :=
  (((((s.putBoth_learnShare (by simp [F.CLK_BTAB_FCW_VALID]) _).trans (State.putBoth_learnShare _ (by simp [F.CLK_BTAB_FCW_INT]) _)).trans
    (State.putBoth_learnShare _ (by simp [F.CLK_BTAB_FRAC_FRAC]; omega) _)).trans (State.putBoth_learnShare _ (by simp [F.CLK_BTAB_MOD_MOD]; omega) _)).trans
    (State.putBoth_learnShare _ (by simp [F.CLK_BTAB_BAND_BAND]; omega) _)).trans (State.putBoth_learnShare _ (by simp [F.CLK_BTAB_BAND_FINE]; omega) _)

theorem State.bit_bandWritten (i : Nat) (k : Nat × Nat × Nat) : (s.bandWritten i k).regs.bit (F.CLK_BTAB_FCW_VALID i) = true := by
  simp (disch := first | exact .of rfl (by omega) | omega) [State.bandWritten]

theorem State.fld_bandWritten (i : Nat) (k : Nat × Nat × Nat) :
    (s.bandWritten i k).regs.fld (F.CLK_BTAB_BAND_BAND i) = s.get F.CLK_BAND_BAND := by
  simp (disch := first | exact .of rfl (by omega) | omega) [State.get, State.bandWritten]
  exact Nat.mod_eq_of_lt (s.regs.fld_lt F.CLK_BAND_BAND)

/-- The entry that a lock fills: the first unused one, or the one used longest ago. -/
def State.bandFree (s : State) : Nat := ((List.range 16).find? (fun j => !s.clk.used.contains j)).getD (s.clk.used.getLastD 0)

theorem State.learn_of_search (h : s.clk.searched = true) (hl : s.loopRegs.bit F.CLK_CTRL_LEARN = true) :
    s.learn = { s.bandWritten s.bandFree (fcwKey s.loopRegs) with
      clk := { (s.bandWritten s.bandFree (fcwKey s.loopRegs)).clk with
        used := s.bandFree :: (s.bandWritten s.bandFree (fcwKey s.loopRegs)).clk.used.filter (fun x => x != s.bandFree) } } := by
  have hno : ¬ (s.clk.searched = false ∨ s.loopRegs.bit F.CLK_CTRL_LEARN = false) := by
    rw [h, hl]
    decide
  unfold State.learn
  rw [if_neg hno]
  extract_lets i k s1 s2
  have hs2 : s2 = s.bandWritten s.bandFree (fcwKey s.loopRegs) := rfl
  rw [← hs2]
  rfl

theorem State.learn_of_table (h : s.clk.searched = false) : s.learn = s := if_pos (.inl h)

theorem State.learn_learnShare : learnShare.Only s s.learn := by
  unfold State.learn
  split
  next => exact .refl _ _
  next =>
    extract_lets i k s1 s2
    have hs2 : learnShare.Only s s2 := s.bandWritten_learnShare i k
    clear_value s2
    exact hs2.trans (.parts rfl rfl)

end

/-! ### Lock -/

section
variable (s : State) (fine : Nat) (err : Int)

/-- What a lock shows before it is learnt. -/
def State.lockShown (s : State) (fine : Nat) (err : Int) : State := ((s.showErr err).setLoop 3).put F.CLK_BAND_FINE fine

/-- What a lock changes. -/
def lockShare : Share where
  upd s t := { s with regs := t.regs, shadow := t.shadow, clk := t.clk }
  regs _ := True
  self _ := rfl
  again _ _ _ := rfl

/-- The loop has locked. -/
def State.locked (s : State) (fine : Nat) (err : Int) : State :=
  { (s.lockShown fine err).learn with clk := { (s.lockShown fine err).learn.clk with toReturn := some s.lcnt, searched := false } }

theorem State.lockShown_status : (s.lockShown fine err).get F.CLK_STATUS_LOOP = 3 ∧ (s.lockShown fine err).flag F.CLK_STATUS_HOLDOVER = false ∧
    (s.lockShown fine err).get F.CLK_BAND_FINE = fine % 2 ^ 24 ∧ (s.lockShown fine err).get F.CLK_BAND_BAND = s.get F.CLK_BAND_BAND ∧
    (s.lockShown fine err).get F.CLK_PHERR_ERR = (s.showErr err).get F.CLK_PHERR_ERR := by
  refine ⟨?_, ?_, ?_, ?_, ?_⟩
  all_goals
    simp (disch := first | exact .of rfl (by omega) | omega) [State.get, State.flag, State.lockShown, State.setLoop, State.showErr]
  all_goals rfl

theorem State.lockShown_changes {fs : List Fld} (hf : ∀ f ∈ [F.CLK_PHERR_ERR, F.CLK_STATUS_LOOP, F.CLK_STATUS_HOLDOVER, F.CLK_BAND_FINE], f ∈ fs) :
    changesOnly fs s (s.lockShown fine err) :=
  ((((changesOnly.refl fs s).put (f := F.CLK_PHERR_ERR) (hf _ (by simp))).put (f := F.CLK_STATUS_LOOP) (v := 3) (hf _ (by simp))).put
    (f := F.CLK_STATUS_HOLDOVER) (v := 0) (hf _ (by simp))).put (hf _ (by simp))

theorem State.lockShown_loopShare : loopShare.Only s (s.lockShown fine err) :=
  (Share.Only.trans (.put (f := F.CLK_PHERR_ERR) (loopShare_regs (by decide))) (State.setLoop_loopShare _ 3)).trans
    (.put (f := F.CLK_BAND_FINE) (loopShare_regs (by decide)))

theorem State.clk_lockShown : (s.lockShown fine err).clk = s.clk := rfl

theorem State.bit_learn_lockShown : (s.lockShown fine err).loopRegs.bit F.CLK_CTRL_LEARN = s.loopRegs.bit F.CLK_CTRL_LEARN :=
  State.loopRegs_bit rfl ((s.lockShown_loopShare fine err).word _ (by simp [loopShare, F.CLK_CTRL_LEARN]))

/-- No register the loop shows is in the band table. -/
theorem loop_beside_learn {off : Nat} (h : off < 0x200100) : ¬ learnShare.regs off := fun hc => by
  have : 0x200100 ≤ off := hc
  omega

theorem loopLock_of_met {n worst : Nat} (h2 : s.get F.CLK_STATUS_LOOP = 2) (hn : lockN s.loopRegs ≤ n) (hw : worst ≤ lockWin s.loopRegs)
    (he : err.natAbs ≤ worst) : exec (.loopLock ⟨fine, n, worst, err⟩) s = .next (s.locked fine err) :=
  congrArg Host.Outcome.next ((if_pos h2).trans (if_pos ⟨hn, hw, he⟩))

theorem State.locked_frame : s.locked fine err =
    { s with regs := (s.locked fine err).regs, shadow := (s.locked fine err).shadow, clk := (s.locked fine err).clk } := by
  have hshown : lockShare.Only s (s.lockShown fine err) :=
    (((Share.Only.put (f := F.CLK_PHERR_ERR) trivial).trans (.put (f := F.CLK_STATUS_LOOP) (v := 3) trivial)).trans
      (.put (f := F.CLK_STATUS_HOLDOVER) (v := 0) trivial)).trans (.put (f := F.CLK_BAND_FINE) trivial)
  have hlearn : lockShare.Only (s.lockShown fine err) (s.lockShown fine err).learn :=
    ⟨(s.lockShown fine err).learn_learnShare.frame, fun _ h => absurd trivial h⟩
  have hasked : lockShare.Only (s.lockShown fine err).learn (s.locked fine err) := .parts rfl rfl
  exact ((hshown.trans hlearn).trans hasked).frame

theorem State.locked_status : (s.locked fine err).get F.CLK_STATUS_LOOP = 3 ∧ (s.locked fine err).flag F.CLK_STATUS_HOLDOVER = false ∧
    (s.locked fine err).get F.CLK_BAND_FINE = fine % 2 ^ 24 ∧ (s.locked fine err).sget F.CLK_PHERR_ERR = max (-32768) (min 32767 err) := by
  obtain ⟨hloop, hhold, hfine, -, herr⟩ := s.lockShown_status fine err
  have hlearn := (s.lockShown fine err).learn_learnShare
  exact ⟨(hlearn.fld (loop_beside_learn (by decide))).trans hloop, (hlearn.bit (loop_beside_learn (by decide))).trans hhold,
    (hlearn.fld (loop_beside_learn (by decide))).trans hfine,
    (congrArg (sgn _) ((hlearn.fld (loop_beside_learn (by decide))).trans herr)).trans (s.sget_showErr err)⟩

/-- A lock reached from the band table changes what the loop shows. -/
theorem State.locked_of_table (h : s.clk.searched = false) :
    changesOnly [F.CLK_PHERR_ERR, F.CLK_STATUS_LOOP, F.CLK_STATUS_HOLDOVER, F.CLK_BAND_FINE] s (s.locked fine err) ∧
    (s.locked fine err).shadow = s.shadow ∧ (s.locked fine err).clk.used = s.clk.used := by
  have hl : (s.lockShown fine err).learn = s.lockShown fine err := State.learn_of_table _ h
  unfold State.locked
  rw [hl]
  exact ⟨(s.lockShown_changes fine err (fun _ h => h)).parts rfl rfl rfl rfl, rfl, rfl⟩

/-- A lock reached through SEARCH is learnt where that is asked for. -/
theorem State.locked_of_search (h : s.clk.searched = true) (hl : s.loopRegs.bit F.CLK_CTRL_LEARN = true) :
    ∃ i, (s.locked fine err).clk.used.head? = some i ∧ (s.locked fine err).flag (F.CLK_BTAB_FCW_VALID i) = true ∧
      (s.locked fine err).get (F.CLK_BTAB_BAND_BAND i) = s.get F.CLK_BAND_BAND := by
  have hlearn := State.learn_of_search (s.lockShown fine err) h ((s.bit_learn_lockShown fine err).trans hl)
  have hregs : (s.locked fine err).regs =
      ((s.lockShown fine err).bandWritten (s.lockShown fine err).bandFree (fcwKey (s.lockShown fine err).loopRegs)).regs := 
    (congrArg State.regs hlearn).trans rfl
  have hused : (s.locked fine err).clk.used.head? = some (s.lockShown fine err).bandFree := by
    exact (congrArg (fun u : State => u.clk.used.head?) hlearn).trans rfl
  refine ⟨(s.lockShown fine err).bandFree, hused, ?_, ?_⟩
  · rw [State.flag, hregs]
    exact State.bit_bandWritten _ _ _
  · rw [State.get, hregs]
    exact (State.fld_bandWritten _ _ _).trans (s.lockShown_status fine err).2.2.2.1

end

/-- Settles O41, with one equation for each step of the search and for the lock. -/
theorem loopSearchesAndLocks : Obligations.LoopSearchesAndLocks := by
  unfold Obligations.LoopSearchesAndLocks
  refine ⟨fun up mid lo hi s h1 hmid hlo hhi => ?_, fun up s h => congrArg Host.Outcome.next (if_neg (fun hc => h hc.1)),
    fun fine n worst err s h2 hn hw he => ?_, fun fine n worst err s => ⟨fun h => congrArg Host.Outcome.next (if_neg h), fun h2 hx => ?_⟩⟩
  · subst hmid
    refine ⟨fun hsteps => ⟨_, searchStep_of_more s up h1 ⟨hlo, hhi⟩ hsteps, rfl, RegTab.fld_setFld_self _ _ (.of rfl (by omega)),
        ((changesOnly.refl _ s).put (by simp)).parts rfl rfl rfl rfl, rfl⟩,
      fun hsteps => ⟨_, searchStep_of_last s up h1 ⟨hlo, hhi⟩ hsteps, ?_, rfl, RegTab.fld_setFld_self _ _ (.of rfl (by omega)),
        ((s.setLoop_changes (by simp) (by simp) 2).put (by simp)).parts rfl rfl rfl rfl, rfl⟩⟩
    exact (RegTab.fld_setFld_sep _ _ (.of rfl (by omega))).trans (s.get_setLoop 2)
  · obtain ⟨hloop, hhold, hfine, herr⟩ := s.locked_status fine err
    have hlock := loopLock_of_met s fine err h2 hn hw he
    exact ⟨_, hlock, hloop, hhold, hfine, rfl, rfl, herr, s.locked_of_table fine err, s.locked_of_search fine err,
      memSame_of_mem (execLoopLock_mem _ _ _ hlock), s.locked_frame fine err⟩
  · refine congrArg Host.Outcome.next ((if_pos h2).trans (if_neg (fun hc => ?_)))
    have hn : lockN s.loopRegs ≤ n := hc.1
    have hw : worst ≤ lockWin s.loopRegs := hc.2.1
    omega

end Sys2Proof.Machine
end

section
/-! SUPPORT. Network time: what is latched for a reader, snapshots, TIME_HIST and TIME_TXQ, and staged writes (R271, R283-R285). -/

namespace Sys2Proof.Machine

open Sys2Proof.Safety

/-! ### Words of a wide register -/

/-- Word k of a wide register, from its number. -/
theorem RegTab.ofNat_wide (r : RegTab) (n : Nat) : ∀ off k : Nat, k < n → BitVec.ofNat 32 (r.wide off n / 2 ^ (32 * k)) = r.word (off + 4 * k) := by
  induction n with
  | zero => intro off k h; omega
  | succ n ih =>
    intro off k h
    have hlow : (r.word off).toNat < 4294967296 := (r.word off).isLt
    cases k with
    | zero =>
      refine BitVec.eq_of_toNat_eq ?_
      simp only [BitVec.toNat_ofNat, RegTab.wide, Nat.mul_zero, Nat.pow_zero, Nat.div_one, Nat.add_zero]
      omega
    | succ k =>
      have hdiv : r.wide off (n + 1) / 2 ^ (32 * (k + 1)) = r.wide (off + 4) n / 2 ^ (32 * k) := by
        rw [RegTab.wide, Nat.mul_succ, Nat.pow_add, Nat.mul_comm (2 ^ (32 * k)), ← Nat.div_div_eq_div_mul]
        congr 1
        omega
      rw [hdiv, ih (off + 4) k (by omega)]
      congr 1
      omega

/-! ### Words latched for a reader -/

section
variable (s : State) (fn : Nat)

theorem State.latchWords_frame (n : Nat) : ∀ (s : State) (off v : Nat), s.latchWords fn off n v = { s with latch := (s.latchWords fn off n v).latch } := by
  induction n with
  | zero => exact fun _ _ _ => rfl
  | succ n ih => exact fun s off v => ih _ _ _

/-- The latch of other words stays. -/
theorem State.latchWords_before (n : Nat) : ∀ (s : State) (off v key : Nat), key < latchKey fn off →
    Tab.get 0 (s.latchWords fn off n v).latch key = Tab.get 0 s.latch key := by
  induction n with
  | zero => exact fun _ _ _ _ _ => rfl
  | succ n ih =>
    intro s off v key h
    rw [State.latchWords, ih _ _ _ _ (by unfold latchKey at h ⊢; omega)]
    exact Tab.get_set_other _ _ _ _ _ (by omega)

theorem State.latchWords_at (n : Nat) : ∀ (s : State) (off v k : Nat), k < n →
    Tab.get 0 (s.latchWords fn off n v).latch (latchKey fn (off + 4 * k)) = BitVec.ofNat 32 (v / 2 ^ (32 * k)) := by
  induction n with
  | zero => intro s off v k h; omega
  | succ n ih =>
    intro s off v k h
    rw [State.latchWords]
    cases k with
    | zero =>
      rw [State.latchWords_before fn n _ _ _ _ (by unfold latchKey; omega)]
      simp
    | succ k =>
      have he : off + 4 * (k + 1) = off + 4 + 4 * k := by omega
      rw [he, ih _ _ _ k (by omega), Nat.mul_succ, Nat.pow_add, Nat.mul_comm (2 ^ (32 * k)), Nat.div_div_eq_div_mul]

end

/-! ### Reads of TIME_HIST and TIME_TXQ -/

section
variable (s : State) (fn : Fin 64)

/-- The SMBus target is no function of the host. -/
theorem Fin.ne_smbusFn : (fn : Nat) ≠ smbusFn := Nat.ne_of_lt fn.isLt

/-- A virtual function reads nothing but the identity, the state and its queue contexts. -/
theorem State.sees_of_virtual {off : Nat} (hfn : fn ≠ 0) (hid : off ≠ R.GLOBAL_ID) (hst : off ≠ R.GLOBAL_STATE) (hctx : ctxQ off = none) :
    s.sees fn off = false := by
  have h0 : (fn : Nat) ≠ 0 := fun h => hfn (Fin.ext h)
  simp only [State.sees, if_neg h0, if_neg (Fin.ne_smbusFn fn), hctx, Bool.or_false, Bool.or_eq_false_iff, beq_eq_false_iff_ne]
  exact ⟨hid, hst⟩

theorem ctxQ_of_outside {off : Nat} (h : off < 0xA00000 ∨ 0xC00000 ≤ off) : ctxQ off = none := if_neg (by omega)

theorem State.answer_of_unseen_time {off : Nat} (hfn : fn ≠ 0) (h : 0xC00000 ≤ off) : s.answer fn off = s.emit (.read fn off [0]) :=
  State.answer_of_readWord (State.readWord_of_hidden (s.sees_of_virtual fn hfn (by simp only [R.GLOBAL_ID]; omega)
    (by simp only [R.GLOBAL_STATE]; omega) (ctxQ_of_outside (.inr h))))

theorem spotAt_timeHist : ∀ i : Fin 16, spotAt (R.TIME_HIST i) = some (0, 8) := by decide +kernel

theorem State.answer_timeHist (i : Fin 16) (hfn : fn = 0) :
    s.answer fn (R.TIME_HIST i) = (s.histRd fn i).emit (.read fn (R.TIME_HIST i) [s.word (R.TIME_HIST i)]) := by
  have hsees : s.sees fn (R.TIME_HIST i) = true := if_pos (by rw [hfn]; rfl)
  have hoff : R.TIME_HIST i = 0xC01000 + 0x20 * i := rfl
  have hread : s.readWord fn (R.TIME_HIST i) = (s.word (R.TIME_HIST i), s.histRd fn i) := by
    have hi : (R.TIME_HIST i - R.TIME_HIST 0) / 0x20 = i := by
      simp only [R.TIME_HIST]
      omega
    simp only [State.readWord, hsees, spotAt_timeHist i, hi, Bool.true_eq_false, if_false]
    rw [if_neg (by simp only [R.TIME_HIST, R.TIME_TXQ]; omega), if_neg (by simp only [R.TIME_HIST, R.LOG_RD]; omega),
      if_neg (by simp only [R.TIME_HIST, R.LOG_FIRST, R.LOG_LAST_ERR]; omega)]
  exact State.answer_of_readWord hread

theorem State.answer_timeTxq (hfn : fn = 0) : s.answer fn R.TIME_TXQ = (s.txqRd fn).2.emit (.read fn R.TIME_TXQ [(s.txqRd fn).1]) := by
  have hsees : s.sees fn R.TIME_TXQ = true := if_pos (by rw [hfn]; rfl)
  simp only [State.answer, State.readWord, hsees, Bool.true_eq_false, if_false, if_true]

end

theorem State.histRd_frame (s : State) (fn i : Nat) : s.histRd fn i = { s with latch := (s.histRd fn i).latch } := State.latchWords_frame _ _ _ _ _

theorem State.latch_histRd (s : State) (fn i k : Nat) (h : k < 7) :
    Tab.get 0 (s.histRd fn i).latch (latchKey fn (R.TIME_HIST i + 4 * (k + 1))) = s.word (R.TIME_HIST i + 4 * (k + 1)) := by
  have hk : R.TIME_HIST i + 4 * (k + 1) = R.TIME_HIST i + 4 + 4 * k := by omega
  have hdiv : s.getN (R.TIME_HIST i) 8 / 4294967296 / 2 ^ (32 * k) = s.getN (R.TIME_HIST i) 8 / 2 ^ (32 * (k + 1)) := by
    rw [Nat.div_div_eq_div_mul, Nat.mul_succ, Nat.pow_add, Nat.mul_comm (2 ^ (32 * k))]
  rw [State.histRd, hk, State.latchWords_at fn 7 s _ _ k h, hdiv, ← hk]
  exact s.regs.ofNat_wide 8 (R.TIME_HIST i) (k + 1) (by omega)

theorem State.txqRd_frame (s : State) (fn : Nat) :
    (s.txqRd fn).2 = { ({ s with txq := s.txq.drop 1 } : State) with latch := (s.txqRd fn).2.latch } := State.latchWords_frame _ _ _ _ _

/-- What a read leaves that latches words and answers. -/
theorem emit_latched {s u : State} (h : u = { s with latch := u.latch }) (o : Out) :
    (u.emit o).out = o :: s.out ∧ u.emit o = { s with latch := (u.emit o).latch, out := (u.emit o).out } := by
  have hout : u.out = s.out := (congrArg State.out h).trans rfl
  refine ⟨congrArg (o :: ·) hout, ?_⟩
  exact (congrArg (fun v : State => { v with out := o :: u.out }) h).trans rfl

/-! ### Snapshots -/

/-- Network time keeps its parts in their bounds. -/
theorem State.netTime_bounds (s : State) (t : Nat) : (s.netTime t).ns < 1000000000 ∧ (s.netTime t).sub < 2 ^ 16 := by
  unfold State.netTime netTimeIn
  constructor
  · exact Nat.mod_lt _ (by decide)
  · dsimp only
    omega

/-- TIME_SNAP as one number. -/
def snapVal (num l sec sub ns : Nat) : Nat :=
  num % 2 ^ 16 + 2 ^ 31 + l % 2 ^ 64 * 2 ^ 32 + sec % 2 ^ 48 * 2 ^ 96 + sub * 2 ^ 144 + ns * 2 ^ 160

theorem State.timeSnap_eq (s : State) (a : Nat) : s.timeSnap a = (s.at_ a).putN R.TIME_SNAP 6 (snapVal (s.epochAt (a + 4)).num (a + 4)
    (s.netTime (65536 * (a + 4))).sec (s.netTime (65536 * (a + 4))).sub (s.netTime (65536 * (a + 4))).ns) := rfl

theorem timeSnap_effect (a : Nat) (s : State) : ∃ t, exec (.timeSnap a) s = .next t ∧ t.lcnt = max s.lcnt a ∧ t.flag F.TIME_SNAP_VALID = true ∧
    t.getN (R.TIME_SNAP + 4) 2 = (a + 4) % 2 ^ 64 ∧
    t.get F.TIME_SNAP_EPOCH = (s.epochAt (a + 4)).num % 2 ^ 16 ∧
    t.get F.TIME_SNAP_NS = (s.netTime (65536 * (a + 4))).ns ∧
    changesOnly (wideFlds R.TIME_SNAP 6) s t ∧ t = { s with regs := t.regs, lcnt := t.lcnt } := by
  obtain ⟨hns, hsub⟩ := s.netTime_bounds (65536 * (a + 4))
  have he : exec (.timeSnap a) s = .next (s.timeSnap a) := rfl
  rw [s.timeSnap_eq a] at he
  generalize (s.netTime (65536 * (a + 4))).ns = ns at hns he ⊢
  generalize (s.netTime (65536 * (a + 4))).sub = sub at hsub he
  generalize (s.netTime (65536 * (a + 4))).sec = sec at he
  generalize (s.epochAt (a + 4)).num = num at he ⊢
  refine ⟨_, he, rfl, ?_, ?_, ?_, ?_, ((changesOnly.refl _ s).parts (u := s.at_ a) rfl rfl rfl rfl).putN (fun _ h => h), rfl⟩
  · refine beq_iff_eq.mpr ((RegTab.fld_setWide _ _ _ _ 0 F.TIME_SNAP_VALID (by decide) rfl).trans ?_)
    simp only [F.TIME_SNAP_VALID, Fld.width, snapVal]
    omega
  · show (((s.at_ a).putN R.TIME_SNAP 6 _).word (R.TIME_SNAP + 4 * 1)).toNat + 4294967296 * ((((s.at_ a).putN R.TIME_SNAP 6 _).word (R.TIME_SNAP + 4 * 2)).toNat +
      4294967296 * 0) = _
    simp only [State.word, State.regs_putN, RegTab.word_setWide_at 6 _ _ _ 1 (by decide), RegTab.word_setWide_at 6 _ _ _ 2 (by decide),
      BitVec.toNat_ofNat, snapVal]
    omega
  · refine (RegTab.fld_setWide _ _ _ _ 0 F.TIME_SNAP_EPOCH (by decide) rfl).trans ?_
    simp only [F.TIME_SNAP_EPOCH, Fld.width, snapVal]
    omega
  · refine (RegTab.fld_setWide _ _ _ _ 5 F.TIME_SNAP_NS (by decide) rfl).trans ?_
    simp only [F.TIME_SNAP_NS, Fld.width, snapVal]
    omega

/-- Settles O48. -/
theorem timeReadsAndSnapshots : Obligations.TimeReadsAndSnapshots := by
  unfold Obligations.TimeReadsAndSnapshots
  refine ⟨timeSnap_effect, fun fn i s hfn => ⟨congrArg Host.Outcome.next (s.answer_of_unseen_time fn hfn ?_),
      congrArg Host.Outcome.next (s.answer_of_unseen_time fn hfn (by decide))⟩,
    fun fn i s hfn => ⟨_, congrArg Host.Outcome.next (s.answer_timeHist fn i hfn), ?_, fun k => ?_, ?_⟩,
    fun fn x rest s hfn hq => ⟨_, congrArg Host.Outcome.next (s.answer_timeTxq fn hfn), ?_, ?_, ?_⟩,
    fun fn s hfn hq => ⟨_, congrArg Host.Outcome.next (s.answer_timeTxq fn hfn), ?_, ?_⟩⟩
  · simp only [R.TIME_HIST]
    omega
  · exact (emit_latched (s.histRd_frame fn i) _).1
  · exact s.latch_histRd fn i k k.isLt
  · exact (emit_latched (s.histRd_frame fn i) _).2
  · exact (congrArg State.txq (s.txqRd_frame fn)).trans (by rw [hq]; rfl)
  · refine (emit_latched (s.txqRd_frame fn) _).1.trans ?_
    rw [State.txqRd, hq]
  · exact (emit_latched (s.txqRd_frame fn) _).2
  · refine (emit_latched (s.txqRd_frame fn) _).1.trans ?_
    rw [State.txqRd, hq]
    rfl
  · have hnone : s.txq.drop 1 = s.txq := by rw [hq]; rfl
    have hframe := (emit_latched (s.txqRd_frame fn) (.read fn R.TIME_TXQ [(s.txqRd fn).1])).2
    rw [hnone] at hframe
    exact hframe

end Sys2Proof.Machine
end

section
/-! SUPPORT. Network time: staged writes and the epoch they open (R270, R285), the servo (R278-R281). -/

namespace Sys2Proof.Machine

open Sys2Proof.Safety

/-! ### Staging -/

section
variable (s : State) (a : Nat)

theorem State.stageTime_taken (h : s.flag F.TIME_STATUS_STAGE_PENDING = false) (period add abs : Bool) :
    s.stageTime a period add abs = { (s.at_ a).setF F.TIME_STATUS_STAGE_PENDING with
      stage := some ⟨period, add, abs, boundaryAt (max (a + 16) (if abs then s.getN R.TIME_STAGE 10 / 2 ^ 96 % 2 ^ 64 else 0))⟩ } :=
  if_neg (by rw [h]; exact Bool.false_ne_true)

theorem State.stageTime_ignored (h : s.flag F.TIME_STATUS_STAGE_PENDING = true) (period add abs : Bool) :
    s.stageTime a period add abs = ((s.at_ a).setF F.TIME_STATUS_STAGE_IGN).post a 0x0C04 s.locusHub 1 := if_pos h

/-- A staged write that is taken waits for its boundary. -/
theorem stageTime_effect (h : s.flag F.TIME_STATUS_STAGE_PENDING = false) (period add abs : Bool) {due : Nat}
    (hdue : boundaryAt (max (a + 16) (if abs then s.getN R.TIME_STAGE 10 / 2 ^ 96 % 2 ^ 64 else 0)) = due) :
    ∃ t, Host.Outcome.next (s.stageTime a period add abs) = (.next t : Host.Outcome State Fault Refusal) ∧ t.stage = some ⟨period, add, abs, due⟩ ∧
      t.flag F.TIME_STATUS_STAGE_PENDING = true ∧ changesOnly [F.TIME_STATUS_STAGE_PENDING] s t := by
  refine ⟨_, congrArg _ (s.stageTime_taken a h period add abs), ?_, RegTab.bit_setFld_one _ (.of rfl (by omega)),
    (((changesOnly.refl _ s).parts (u := s.at_ a) rfl rfl rfl rfl).put (by simp)).parts rfl rfl rfl rfl⟩
  rw [hdue]

/-- A staged write while one is pending is ignored and logged. -/
theorem stageTime_second (h : s.flag F.TIME_STATUS_STAGE_PENDING = true) (period add abs : Bool) :
    ∃ t, Host.Outcome.next (s.stageTime a period add abs) = (.next t : Host.Outcome State Fault Refusal) ∧ t.stage = s.stage ∧
      t.flag F.TIME_STATUS_STAGE_IGN = true ∧ (0x0C04, s.locusHub) ∈ t.log.seen ∧ changesOnly (F.TIME_STATUS_STAGE_IGN :: logFlds) s t := by
  refine ⟨_, congrArg _ (s.stageTime_ignored a h period add abs), ?_, ?_, State.post_seen _ _ _ _ _,
    (((changesOnly.refl _ s).parts (u := s.at_ a) rfl rfl rfl rfl).put (by simp)).post⟩
  · simp [State.setF, State.at_]
  · simp (disch := first | exact .of rfl (by omega) | omega) [State.flag]

end

/-! ### The epoch that opens -/

section
variable (s : State)

/-- What an opening epoch leaves to be seen. -/
structure EpochOpens (e : Epoch) (s t : State) : Prop where
  epochs : t.epochs = e :: s.epochs
  epoch : t.get F.TIME_STATUS_EPOCH = e.num % 65536
  other : ∀ f : Fld, F.TIME_STATUS_EPOCH.Sep f → f.off = R.TIME_STATUS → t.regs.fld f = s.regs.fld f
  stage : t.stage = s.stage
  seen : (0x0C01, s.locusHub) ∈ t.log.seen ∧ (0x0C02, s.locusHub) ∈ t.log.seen

theorem State.writeHist_frame (i : Nat) (es : List Epoch) : s.writeHist i es = { s with regs := (s.writeHist i es).regs } := by
  induction es generalizing s i with
  | nil => rfl
  | cons e es ih => exact ih _ _

theorem State.word_writeHist (i : Nat) (es : List Epoch) {off : Nat} (h : off < 0xC01000) : (s.writeHist i es).regs.word off = s.regs.word off := by
  induction es generalizing s i with
  | nil => rfl
  | cons e es ih =>
    refine (ih _ _).trans (RegTab.word_setWide_other _ _ _ _ _ (.inl ?_))
    simp only [R.TIME_HIST]
    omega

/-- The epoch in force, TIME_HIST and TIME_STATUS before the epoch is logged. -/
def State.epochShown (s : State) (e : Epoch) : State :=
  (({ s with epochs := e :: s.epochs, keeper := { s.keeper with epochSave := some e } } : State).writeHist 0 ((e :: s.epochs).take 16)).put
    F.TIME_STATUS_EPOCH e.num

theorem State.openEpoch_eq (e : Epoch) : s.openEpoch e = (s.epochShown e).logEpoch e := rfl

theorem State.epochShown_frame (e : Epoch) : (s.epochShown e).epochs = e :: s.epochs ∧ (s.epochShown e).stage = s.stage ∧
    (s.epochShown e).servo = s.servo ∧ (s.epochShown e).locusHub = s.locusHub := by
  have hframe := State.writeHist_frame ({ s with epochs := e :: s.epochs, keeper := { s.keeper with epochSave := some e } } : State) 0
    ((e :: s.epochs).take 16)
  refine ⟨(congrArg State.epochs hframe).trans rfl, (congrArg State.stage hframe).trans rfl, (congrArg State.servo hframe).trans rfl,
    State.locusHub_congr ((RegTab.fld_setFld_sep _ _ (.of rfl (by omega))).trans ?_)⟩
  exact congrArg (fun w => fldGet w F.GLOBAL_STATE_NODE) (State.word_writeHist _ 0 _ (by decide))

theorem State.logEpoch_frame (e : Epoch) : (s.logEpoch e).epochs = s.epochs ∧ (s.logEpoch e).stage = s.stage ∧ (s.logEpoch e).servo = s.servo ∧
    ∀ off, off < 0xF00000 → (s.logEpoch e).regs.word off = s.regs.word off := by
  refine ⟨?_, ?_, ?_, fun off h => (State.word_post _ _ _ _ _ h).trans (State.word_post _ _ _ _ _ h)⟩ <;> simp [State.logEpoch]

theorem State.seen_logEpoch (e : Epoch) : (0x0C01, s.locusHub) ∈ (s.logEpoch e).log.seen ∧ (0x0C02, s.locusHub) ∈ (s.logEpoch e).log.seen :=
  ⟨State.seen_post_of_seen _ _ _ _ _ (State.post_seen _ _ _ _ _), State.post_seen _ _ _ _ _⟩

theorem State.openEpoch_opens (e : Epoch) : EpochOpens e s (s.openEpoch e) := by
  obtain ⟨hepochs, hstage, -, hlocus⟩ := s.epochShown_frame e
  obtain ⟨lepochs, lstage, -, lword⟩ := (s.epochShown e).logEpoch_frame e
  have hseen := (s.epochShown e).seen_logEpoch e
  have hword := lword R.TIME_STATUS (by decide)
  rw [hlocus] at hseen
  refine ⟨lepochs.trans hepochs, ?_, fun f hsep hoff => ?_, lstage.trans hstage, hseen⟩
  · exact (congrArg (fun w => fldGet w F.TIME_STATUS_EPOCH) hword).trans (RegTab.fld_setFld_self _ _ (.of rfl (by omega)))
  · have hf : (s.openEpoch e).regs.fld f = (s.epochShown e).regs.fld f := by
      rw [RegTab.fld, RegTab.fld, hoff]
      exact congrArg (fun w => fldGet w f) hword
    refine (hf.trans (RegTab.fld_setFld_sep _ _ hsep)).trans ?_
    rw [RegTab.fld, RegTab.fld, hoff]
    exact congrArg (fun w => fldGet w f) (State.word_writeHist _ 0 _ (by decide))

/-- A snapshot of the boundary's last cycles is taken again, or nothing changes. -/
theorem State.snapAgain_cases (b : Nat) : s.snapAgain b = s ∨ ∃ v, s.snapAgain b = s.putN R.TIME_SNAP 6 v := by
  unfold State.snapAgain
  extract_lets l
  split
  · exact .inr ⟨_, rfl⟩
  · exact .inl rfl

theorem EpochOpens.snapAgain {e : Epoch} {s t : State} (h : EpochOpens e s t) (b : Nat) : EpochOpens e s (t.snapAgain b) := by
  rcases t.snapAgain_cases b with he | ⟨v, he⟩
  · rw [he]
    exact h
  · rw [he]
    obtain ⟨hepochs, hepoch, hother, hstage, hseen⟩ := h
    exact ⟨hepochs, (RegTab.fld_setWide_beside _ _ (.of rfl (by simp only [R.TIME_SNAP]; omega))).trans hepoch,
      fun f hsep hoff => (RegTab.fld_setWide_beside _ _ ⟨by rw [hoff]; decide⟩).trans (hother f hsep hoff), hstage, hseen⟩

/-- A staged write applies at the boundary it waits for: an epoch opens there. -/
theorem State.publishTime_of_staged {st : Staged} {b : Nat} (hst : s.stage = some st) (hdue : st.due ≤ b) (hlt : (s.epochAt b).lcnt < b)
    (hno : (st.abs && st.add) = false) : ∃ pn e, e.lcnt = b ∧ e.num = ((s.epochAt b).num + 1) % 65536 ∧
      s.publishTime b = ((({ s with timeDue := [], pnom := pn, stage := none } : State).clrF F.TIME_STATUS_STAGE_PENDING).openEpoch e).snapAgain b := by
  unfold State.publishTime
  extract_lets cur st' n0 n1 n2 n3 t s1 s2 s3
  have hst' : st' = some st := by
    show s.stage.filter _ = _
    rw [hst, Option.filter_some, if_pos (decide_eq_true hdue)]
  have hopen : ¬ ((s.timeDue = [] ∧ st' = none) ∨ b ≤ cur.lcnt) := by
    rw [hst']
    exact fun hc => hc.elim (fun h => Option.some_ne_none _ h.2) (fun h => absurd hlt (Nat.not_lt.mpr h))
  have hnone : ¬ st' = none := by rw [hst']; exact Option.some_ne_none _
  have hs1 : s1 = { s with timeDue := [], pnom := n3.pnom, stage := none } :=
    congrArg (fun x => ({ s with timeDue := [], pnom := n3.pnom, stage := x } : State)) (if_neg hnone)
  have hs2 : s2 = s1.clrF F.TIME_STATUS_STAGE_PENDING := if_neg hnone
  refine ⟨n3.pnom, ⟨(cur.num + 1) % 65536, b, t.sec, t.ns, t.sub, n3.period, n3.cause⟩, rfl, rfl, ?_⟩
  rw [if_neg hopen, ← hs1, ← hs2]
  generalize st' = o at hst'
  subst hst'
  exact if_neg (fun hc => by rw [hc.1, hc.2] at hno; exact absurd hno (by decide))

theorem stagedTimeApply_effect (st : Staged) (hst : s.stage = some st) (hlt : (s.epochAt st.due).lcnt < st.due) (hno : (st.abs && st.add) = false) :
    ∃ t e, exec .stagedTimeApply s = .next t ∧ t.epochs = e :: s.epochs ∧ e.lcnt = st.due ∧
      e.num = ((s.epochAt st.due).num + 1) % 65536 ∧ t.stage = none ∧ t.get F.TIME_STATUS_EPOCH = e.num ∧
      t.flag F.TIME_STATUS_STAGE_PENDING = false ∧
      (0x0C01, s.locusHub) ∈ t.log.seen ∧ (0x0C02, s.locusHub) ∈ t.log.seen ∧ memSame s t := by
  have he : exec .stagedTimeApply s = .next ((s.at_ st.due).publishTime st.due) := by simp only [exec, execStagedTimeApply, hst]
  obtain ⟨pn, e, helcnt, henum, hpub⟩ := (s.at_ st.due).publishTime_of_staged hst (Nat.le_refl _) hlt hno
  obtain ⟨hepochs, hepoch, hother, hstage, hseen⟩ := (State.openEpoch_opens
    (({ s.at_ st.due with timeDue := [], pnom := pn, stage := none } : State).clrF F.TIME_STATUS_STAGE_PENDING) e).snapAgain st.due
  have hlocus : (({ s.at_ st.due with timeDue := [], pnom := pn, stage := none } : State).clrF F.TIME_STATUS_STAGE_PENDING).locusHub = s.locusHub :=
    State.locusHub_congr (RegTab.fld_setFld_sep _ _ (.of rfl (by omega)))
  rw [hlocus] at hseen
  refine ⟨_, e, he, ?_, helcnt, henum, ?_, ?_, ?_, ?_, ?_, memSame_of_mem (execStagedTimeApply_mem _ _ he)⟩
  all_goals rw [hpub]
  · exact hepochs
  · exact hstage
  · rw [hepoch, henum]
    omega
  · exact (RegTab.bit_congr (hother F.TIME_STATUS_STAGE_PENDING (.of rfl (by omega)) rfl)).trans (RegTab.bit_setFld_zero _ (.of rfl (by omega)))
  · exact hseen.1
  · exact hseen.2

end

/-- Settles O49. -/
theorem stagedTimeAppliesInAnEpoch : Obligations.StagedTimeAppliesInAnEpoch := by
  unfold Obligations.StagedTimeAppliesInAnEpoch
  refine ⟨fun a s h => ⟨stageTime_effect s a h true false false (congrArg boundaryAt (Nat.max_zero _)),
      stageTime_effect s a h false true false (congrArg boundaryAt (Nat.max_zero _)), stageTime_effect s a h false false true rfl⟩,
    fun a s c hc h => ?_, fun s h => ?_, fun s st hst hlt hno => stagedTimeApply_effect s st hst hlt ?_⟩
  · simp only [List.mem_cons, List.not_mem_nil, or_false] at hc
    rcases hc with rfl | rfl | rfl
    · exact stageTime_second s a h true false false
    · exact stageTime_second s a h false true false
    · exact stageTime_second s a h false false true
  · simp only [exec, execStagedTimeApply, h]
  · simp only [Bool.and_eq_true, decide_eq_true_eq] at hno
    rw [hno.2, Bool.and_false]

end Sys2Proof.Machine
end

section
/-! SUPPORT. The servo (R278-R281). -/

namespace Sys2Proof.Machine

open Sys2Proof.Safety

/-- The mean of the offsets is published as theta, and the servo has started anew at boundary b. -/
structure Averaged (theta b l : Nat) (t : State) : Prop where
  theta : t.regs.fld F.TIME_THETA_THETA = theta
  sum : t.servo.sum = 0
  cnt : t.servo.cnt = 0
  last : t.servo.last = b
  lcnt : t.lcnt = l

section
variable {theta b l : Nat} {t u : State}

theorem Averaged.put (h : Averaged theta b l t) {f : Fld} {v : Nat} (hf : f.Sep F.TIME_THETA_THETA) : Averaged theta b l (t.put f v) :=
  ⟨(RegTab.fld_setFld_sep _ _ hf).trans h.theta, h.sum, h.cnt, h.last, h.lcnt⟩

theorem Averaged.post (h : Averaged theta b l t) (lc code locus data : Nat) : Averaged theta b l (t.post lc code locus data) := by
  obtain ⟨htheta, hsum, hcnt, hlast, hlcnt⟩ := h
  have hservo : (t.post lc code locus data).servo = t.servo := by simp
  exact ⟨(t.fld_post _ _ _ _ (.of rfl (by omega))).trans htheta, by rw [hservo, hsum], by rw [hservo, hcnt], by rw [hservo, hlast],
    by simp [hlcnt]⟩

/-- Parts beside the registers and the running sum change. -/
theorem Averaged.parts (h : Averaged theta b l t) (hregs : u.regs = t.regs) (hsum : u.servo.sum = t.servo.sum) (hcnt : u.servo.cnt = t.servo.cnt)
    (hlast : u.servo.last = t.servo.last) (hlcnt : u.lcnt = t.lcnt) : Averaged theta b l u :=
  ⟨by rw [hregs, h.theta], hsum.trans h.sum, hcnt.trans h.cnt, hlast.trans h.last, hlcnt.trans h.lcnt⟩

theorem Averaged.ite {c : Prop} [Decidable c] (h : Averaged theta b l t) (k : Averaged theta b l u) : Averaged theta b l (if c then t else u) := by
  split
  · exact h
  · exact k

theorem Averaged.enterHoldover (h : Averaged theta b l t) : Averaged theta b l t.enterHoldover := by
  unfold State.enterHoldover
  exact .ite (h.put (.of rfl (by omega))) ((h.put (f := F.TIME_STATUS_SERVO) (.of rfl (by omega))).parts rfl rfl rfl rfl rfl)

theorem Averaged.refuseJump (h : Averaged theta b l t) (c : Nat) (x : Int) : Averaged theta b l (t.refuseJump c x) := by
  unfold State.refuseJump
  extract_lets k s1 v s2
  have h1 : Averaged theta b l s1 := ((h.put (f := F.TIME_STATUS_JUMP_REFUSED) (v := 1) (.of rfl (by omega))).put
    (f := F.TIME_REFUSED_CNT_COUNT) (.of rfl (by omega))).post _ _ _ _
  clear_value s1
  have h2 : Averaged theta b l s2 := h1.parts rfl rfl rfl rfl rfl
  exact .ite (h2.enterHoldover.put (.of rfl (by omega))) h2

theorem Averaged.slew (h : Averaged theta b l t) (sum : Int) (cnt : Nat) (tEl : Int) : Averaged theta b l (t.slew sum cnt tEl) := by
  unfold State.slew
  extract_lets ki kp den yn yd lim y sd sl sv g s1 s2
  have h1 : Averaged theta b l s1 := .ite (h.put (f := F.TIME_STATUS_RATE_LIMIT) (.of rfl (by omega))) h
  have h2 : Averaged theta b l s2 := h1.put (f := F.TIME_RATE_Y) (.of rfl (by omega))
  clear_value s2
  exact h2.parts rfl rfl rfl rfl rfl

end

section
variable (s : State)

/-- The servo publishes the mean offset at boundary b. -/
def State.meanShown (s : State) (b : Nat) : State :=
  { s.sput F.TIME_THETA_THETA (clampI (-2147483648) 2147483647 (roundDiv s.servo.sum s.servo.cnt)) with
    servo := { s.servo with sum := 0, cnt := 0, last := b } }

theorem State.meanShown_averaged (b : Nat) :
    Averaged (enc 32 (clampI (-2147483648) 2147483647 (roundDiv s.servo.sum s.servo.cnt))) b s.lcnt (s.meanShown b) :=
  ⟨(RegTab.fld_setFld_self _ _ (.of rfl (by omega))).trans (enc_mod 32 _), rfl, rfl, rfl, rfl⟩

theorem State.servoUpdate_averaged {b : Nat} (hb : s.servo.last + s.epochMin ≤ b) (hcnt : s.servo.cnt ≠ 0) (hen : s.flag F.TIME_CTRL_SERVO_EN = true)
    (hst : s.get F.TIME_STATUS_SERVO = 1 ∨ s.get F.TIME_STATUS_SERVO = 2) :
    Averaged (enc 32 (clampI (-2147483648) 2147483647 (roundDiv s.servo.sum s.servo.cnt))) b s.lcnt (s.servoUpdate b) := by
  have hdue : ¬ (b < s.servo.last + s.epochMin ∨ s.flag F.TIME_CTRL_SERVO_EN = false ∨
      (s.get F.TIME_STATUS_SERVO ≠ 1 ∧ s.get F.TIME_STATUS_SERVO ≠ 2)) := by
    rw [hen]
    rintro (h | h | ⟨h1, h2⟩)
    · omega
    · exact absurd h (by decide)
    · exact hst.elim h1 h2
  have hmean := s.meanShown_averaged b
  unfold State.servoUpdate
  extract_lets v st theta s0 s1 s2 v2 good tEl s3 v3 s4
  have h1 : Averaged (enc 32 (clampI (-2147483648) 2147483647 (roundDiv s.servo.sum s.servo.cnt))) b s.lcnt s1 := hmean
  clear_value s1
  rw [if_neg hdue, if_neg hcnt]
  refine .ite (.ite ?_ (h1.refuseJump b theta)) (.ite ?_ ?_)
  · have h2 : Averaged (enc 32 (clampI (-2147483648) 2147483647 (roundDiv s.servo.sum s.servo.cnt))) b s.lcnt s2 :=
      .ite (h1.put (f := F.TIME_CTRL_ACCEPT_STEP) (.of rfl (by omega))) h1
    clear_value s2
    exact h2.parts rfl rfl rfl rfl rfl
  all_goals
    have h3 : Averaged (enc 32 (clampI (-2147483648) 2147483647 (roundDiv s.servo.sum s.servo.cnt))) b s.lcnt s3 := h1.slew _ _ _
    clear_value s3
    have h4 : Averaged (enc 32 (clampI (-2147483648) 2147483647 (roundDiv s.servo.sum s.servo.cnt))) b s.lcnt s4 := h3.parts rfl rfl rfl rfl rfl
  · exact h4.put (f := F.TIME_STATUS_SERVO) (.of rfl (by omega))
  · exact h4

theorem le_boundaryAt (a : Nat) : a ≤ boundaryAt a := by
  unfold boundaryAt roundUp ceilDiv tickLen
  omega

theorem servoUpdate_effect {b : Nat} (hb : b = max (s.tick + tickLen) (boundaryAt (s.servo.last + s.epochMin))) (hcnt : s.servo.cnt ≠ 0)
    (hen : s.flag F.TIME_CTRL_SERVO_EN = true) (hst : s.get F.TIME_STATUS_SERVO = 1 ∨ s.get F.TIME_STATUS_SERVO = 2) :
    ∃ t, exec .servoUpdate s = .next t ∧
      t.get F.TIME_THETA_THETA = enc 32 (clampI (-2147483648) 2147483647 (roundDiv s.servo.sum s.servo.cnt)) ∧
      t.servo.sum = 0 ∧ t.servo.cnt = 0 ∧ t.servo.last = b ∧ t.lcnt = max s.lcnt b ∧ memSame s t := by
  have he : exec .servoUpdate s = .next (((s.at_ b).servoUpdate b).publishTime b) := by rw [hb]; rfl
  have hle : s.servo.last + s.epochMin ≤ b := (le_boundaryAt _).trans (hb ▸ Nat.le_max_right _ _)
  obtain ⟨htheta, hsum, hcnt', hlast, hlcnt⟩ := (s.at_ b).servoUpdate_averaged hle hcnt hen hst
  have htime := ((s.at_ b).servoUpdate b).publishTime_timeShare b
  have hservo : (((s.at_ b).servoUpdate b).publishTime b).servo = ((s.at_ b).servoUpdate b).servo := (congrArg State.servo htime.frame).trans rfl
  refine ⟨_, he, (htime.fld ?_).trans htheta, by rw [hservo, hsum], by rw [hservo, hcnt'], by rw [hservo, hlast],
    (clk_of_timeShare htime).2.trans hlcnt, memSame_of_mem (execServoUpdate_mem _ _ he)⟩
  simp [timeShare, F.TIME_THETA_THETA]

theorem acceptStep_effect (h : s.get F.TIME_STATUS_SERVO = 3) : ∃ t, exec .acceptStepWrite s = .next t ∧ t.flag F.TIME_CTRL_ACCEPT_STEP = true ∧
    t.flag F.TIME_STATUS_JUMP_HOLD = false ∧ t.get F.TIME_STATUS_SERVO = 1 ∧ t.servo.refused = 0 ∧
    changesOnly [F.TIME_CTRL_ACCEPT_STEP, F.TIME_STATUS_JUMP_HOLD, F.TIME_STATUS_SERVO] s t ∧
    t = { s with regs := t.regs, servo := t.servo } := by
  refine ⟨_, congrArg Host.Outcome.next (if_pos h), ?_, ?_, RegTab.fld_setFld_self _ _ (.of rfl (by omega)), rfl,
    (((((changesOnly.refl _ s).put (f := F.TIME_CTRL_ACCEPT_STEP) (v := 1) (by simp)).put (f := F.TIME_STATUS_JUMP_HOLD) (v := 0) (by simp)).put
      (f := F.TIME_STATUS_SERVO) (v := 1) (by simp)).parts rfl rfl rfl rfl), rfl⟩
  · simp (disch := first | exact .of rfl (by omega) | omega) [State.flag, State.setF, State.clrF]
  · simp (disch := first | exact .of rfl (by omega) | omega) [State.flag, State.setF, State.clrF]

end

/-- Settles O50. -/
theorem servoFollowsItsOffsets : Obligations.ServoFollowsItsOffsets := by
  unfold Obligations.ServoFollowsItsOffsets
  refine ⟨fun s b hb hcnt hen hst => servoUpdate_effect s hb hcnt hen hst, fun s h => acceptStep_effect s h,
    fun s h => congrArg Host.Outcome.next (if_neg (fun hc => h.elim (fun h1 => h1 hc.1) (fun h2 => h2 hc.2))),
    fun s h hsec => ⟨_, congrArg Host.Outcome.next (if_pos ⟨h, hsec⟩), ?_, (changesOnly.refl _ s).putN (fun _ h => h), rfl⟩⟩
  exact (State.getN_putN _ _ _ _).trans (by omega)

end Sys2Proof.Machine
end

section
/-! SUPPORT. PTP (R274-R280): messages on a port that no pause holds, the stamps of the transmit queue, and what a message brings. -/

namespace Sys2Proof.Machine

open Sys2Proof.Safety

/-! ### Messages on a port -/

section
variable (s : State) (p : Nat) (o : Out)

/-- Whether a pause holds a port rests on the port, its PFC_EN and the present cycle. -/
theorem State.heldPrio_congr {s t : State} {q prio : Nat} (hport : (t.port q).pfc = (s.port q).pfc ∧ (t.port q).pauseTo = (s.port q).pauseTo)
    (hflag : t.regs.bit (F.STM_PORT_CTRL_PFC_EN q) = s.regs.bit (F.STM_PORT_CTRL_PFC_EN q)) (hlcnt : t.lcnt = s.lcnt) :
    t.heldPrio q prio = s.heldPrio q prio := by
  unfold State.heldPrio State.flag
  dsimp only
  rw [hport.1, hport.2, hflag, hlcnt]

/-- A message that a pause holds waits at its port. -/
theorem State.sendCtl_held (hheld : s.heldPrio p 0 = true) (hctl : (s.port p).ctl = []) :
    s.sendCtl p o = s.setPort p { s.port p with ctl := [o] } := by
  have hsame : (s.setPort p { s.port p with ctl := (s.port p).ctl ++ [o] }).heldPrio p 0 = s.heldPrio p 0 :=
    State.heldPrio_congr (by simp) rfl rfl
  rw [State.sendCtl, State.flushCtl, if_pos (.inr (hsame.trans hheld)), hctl]
  rfl

/-- A message leaves a port that no pause holds, and is counted. -/
theorem State.sendCtl_free (hheld : s.heldPrio p 0 = false) (hctl : (s.port p).ctl = []) :
    s.sendCtl p o = (((s.setPort p { s.port p with ctl := [o] }).setPort p { s.port p with ctl := [] }).emit o).txCount p := by
  have hsame : (s.setPort p { s.port p with ctl := (s.port p).ctl ++ [o] }).heldPrio p 0 = s.heldPrio p 0 :=
    State.heldPrio_congr (by simp) rfl rfl
  have hgo : ¬ (((s.setPort p { s.port p with ctl := (s.port p).ctl ++ [o] }).port p).ctl = [] ∨
      (s.setPort p { s.port p with ctl := (s.port p).ctl ++ [o] }).heldPrio p 0 = true) := by
    rw [hsame, hheld]
    simp
  rw [State.sendCtl, State.flushCtl, if_neg hgo, hctl]
  simp

end

/-- No pause holds a port, and no message waits at one. -/
def State.PortsFree (s : State) : Prop := ∀ q, s.heldPrio q 0 = false ∧ (s.port q).ctl = []

/-- One message has left on port q and was counted. -/
structure SentOn (q : Nat) (o : Out) (s t : State) : Prop where
  out : t.out = o :: s.out
  count : t.getN (R.STM_PORT_TX_FRAMES q) 2 = (s.getN (R.STM_PORT_TX_FRAMES q) 2 + 1) % 2 ^ 64
  reg : changesOnly (wideFlds (R.STM_PORT_TX_FRAMES q) 2) s t
  word : ∀ off, off < R.STM_PORT_TX_FRAMES q ∨ R.STM_PORT_TX_FRAMES q + 8 ≤ off → t.regs.word off = s.regs.word off
  frame : t = { s with out := t.out, regs := t.regs, ports := t.ports }
  port : ∀ r, t.port r = if r = q then { s.port q with ctl := [] } else s.port r

theorem State.sendCtl_sent (s : State) {q : Nat} (o : Out) (hheld : s.heldPrio q 0 = false) (hctl : (s.port q).ctl = []) :
    SentOn q o s (s.sendCtl q o) := by
  rw [s.sendCtl_free q o hheld hctl]
  refine ⟨rfl, (State.getN_putN _ _ _ _).trans (Nat.mod_mod _ _), ((changesOnly.refl _ s).parts rfl rfl rfl rfl).putN (fun _ h => h),
    fun off h => RegTab.word_setWide_other _ _ _ _ _ h, rfl, fun r => ?_⟩
  show Tab.get Port.init (Tab.set (Tab.set s.ports q _) q _) r = _
  rw [Tab.get_set, Tab.get_set]
  split <;> simp_all [State.port]

theorem SentOn.free {q : Nat} {o : Out} {s t : State} (h : SentOn q o s t) (hfree : s.PortsFree) : t.PortsFree := by
  intro r
  obtain ⟨hheld, hctl⟩ := hfree r
  have hport := h.port r
  have hlcnt : t.lcnt = s.lcnt := (congrArg State.lcnt h.frame).trans rfl
  have hword := h.word (F.STM_PORT_CTRL_PFC_EN r).off (by simp only [F.STM_PORT_CTRL_PFC_EN, R.STM_PORT_TX_FRAMES]; omega)
  have hflag : t.regs.bit (F.STM_PORT_CTRL_PFC_EN r) = s.regs.bit (F.STM_PORT_CTRL_PFC_EN r) := by
    rw [RegTab.bit, RegTab.bit, RegTab.fld, RegTab.fld, hword]
  split at hport
  next he =>
    subst he
    exact ⟨(State.heldPrio_congr (by rw [hport]; exact ⟨rfl, rfl⟩) hflag hlcnt).trans hheld, by rw [hport]⟩
  next =>
    exact ⟨(State.heldPrio_congr (by rw [hport]; exact ⟨rfl, rfl⟩) hflag hlcnt).trans hheld, by rw [hport, hctl]⟩

/-! ### The transmit queue -/

section
variable (s : State) (x : TxStamp)

/-- What a transmit stamp may change. -/
def txqFlds : List Fld := [F.TIME_TXQ_DROP_CNT_COUNT, F.TIME_STATUS_TXQ_OVF]

theorem State.pushTx_off (h : s.flag F.TIME_CTRL_TXQ_EN = false) : s.pushTx x = s := if_pos h

theorem State.pushTx_room (h : s.flag F.TIME_CTRL_TXQ_EN = true) (hroom : s.txq.length < 64) : s.pushTx x = { s with txq := s.txq ++ [x] } := by
  rw [State.pushTx, if_neg (by rw [h]; decide), if_pos hroom]

theorem State.pushTx_full (h : s.flag F.TIME_CTRL_TXQ_EN = true) (hfull : 64 ≤ s.txq.length) :
    s.pushTx x = (s.incSat F.TIME_TXQ_DROP_CNT_COUNT).setF F.TIME_STATUS_TXQ_OVF := by
  rw [State.pushTx, if_neg (by rw [h]; decide), if_neg (by omega)]

/-- What a transmit stamp leaves. -/
structure Pushed (s t : State) : Prop where
  reg : changesOnly [F.TIME_TXQ_DROP_CNT_COUNT, F.TIME_STATUS_TXQ_OVF] s t
  frame : t = { s with regs := t.regs, txq := t.txq }
  word : ∀ off, off ≠ R.TIME_TXQ_DROP_CNT → off ≠ R.TIME_STATUS → t.regs.word off = s.regs.word off

theorem State.pushTx_pushed : Pushed s (s.pushTx x) := by
  unfold State.pushTx
  split
  next => exact ⟨.refl _ _, rfl, fun _ _ _ => rfl⟩
  next =>
    split
    next => exact ⟨(changesOnly.refl _ s).parts rfl rfl rfl rfl, rfl, fun _ _ _ => rfl⟩
    next =>
      exact ⟨((changesOnly.refl _ s).put (f := F.TIME_TXQ_DROP_CNT_COUNT) (by simp)).put (f := F.TIME_STATUS_TXQ_OVF) (v := 1) (by simp), rfl,
        fun off h1 h2 => (RegTab.word_setFld_other _ _ _ _ h2).trans (RegTab.word_setFld_other _ _ _ _ h1)⟩

theorem Pushed.heldPrio {s t : State} (h : Pushed s t) (q prio : Nat) : t.heldPrio q prio = s.heldPrio q prio := by
  have hport : t.port q = s.port q := by
    unfold State.port
    rw [(congrArg State.ports h.frame).trans rfl]
  have hword := h.word (F.STM_PORT_CTRL_PFC_EN q).off (by simp only [F.STM_PORT_CTRL_PFC_EN, R.TIME_TXQ_DROP_CNT]; omega)
    (by simp only [F.STM_PORT_CTRL_PFC_EN, R.TIME_STATUS]; omega)
  refine State.heldPrio_congr (by rw [hport]; exact ⟨rfl, rfl⟩) ?_ ((congrArg State.lcnt h.frame).trans rfl)
  rw [RegTab.bit, RegTab.bit, RegTab.fld, RegTab.fld, hword]

end

/-! ### The transparent clock (R276) -/

/-- What the transparent clock changes. -/
def ptpShare : Share where
  upd s t := { s with out := t.out, free := t.free, regs := t.regs, txq := t.txq, ports := t.ports, servo := t.servo, ptp := t.ptp }
  regs _ := True
  self _ := rfl
  again _ _ _ := rfl

/-- One message has left on each of these ports and was counted. -/
structure SentOnEach (l : List Nat) (s t : State) : Prop where
  out : t.out.length = s.out.length + l.length
  count : ∀ q ∈ l, t.getN (R.STM_PORT_TX_FRAMES q) 2 = (s.getN (R.STM_PORT_TX_FRAMES q) 2 + 1) % 2 ^ 64
  other : ∀ q, q ∉ l → t.getN (R.STM_PORT_TX_FRAMES q) 2 = s.getN (R.STM_PORT_TX_FRAMES q) 2
  free : s.PortsFree → t.PortsFree
  frame : ptpShare.Only s t

theorem SentOnEach.nil (s : State) : SentOnEach [] s s := ⟨rfl, fun _ h => absurd h List.not_mem_nil, fun _ _ => rfl, id, .refl _ _⟩

theorem SentOnEach.cons {q : Nat} {l : List Nat} {s t u : State} (h : SentOnEach [q] s t) (k : SentOnEach l t u) (hq : q ∉ l) : SentOnEach (q :: l) s u where
  out := by
    rw [k.out, h.out]
    simp only [List.length_cons, List.length_nil]
    omega
  count r hr := by
    rcases List.mem_cons.mp hr with rfl | hr
    · exact (k.other r hq).trans (h.count r (List.mem_singleton_self r))
    · have hne : r ∉ [q] := fun hm => hq (List.mem_singleton.mp hm ▸ hr)
      rw [k.count r hr, h.other r hne]
  other r hr := (k.other r (fun hm => hr (List.mem_cons_of_mem _ hm))).trans (h.other r (fun hm => hr (List.mem_singleton.mp hm ▸ List.mem_cons_self)))
  free hf := k.free (h.free hf)
  frame := h.frame.trans k.frame

/-- Before a message is sent, only what no port's pause or count rests on changes. -/
structure Unsent (s t : State) : Prop where
  out : t.out = s.out
  ports : t.ports = s.ports
  frame : ptpShare.Only s t
  held : ∀ q, t.heldPrio q 0 = s.heldPrio q 0
  count : ∀ q, t.getN (R.STM_PORT_TX_FRAMES q) 2 = s.getN (R.STM_PORT_TX_FRAMES q) 2

theorem Unsent.sent {q : Nat} {s t : State} (h : Unsent s t) (o : Out) (hfree : s.PortsFree) : SentOnEach [q] s (t.sendCtl q o) := by
  have hport : ∀ r, t.port r = s.port r := fun r => by rw [State.port, State.port, h.ports]
  have htfree : t.PortsFree := fun r => ⟨(h.held r).trans (hfree r).1, (congrArg Port.ctl (hport r)).trans (hfree r).2⟩
  have hsent := t.sendCtl_sent o (htfree q).1 (htfree q).2
  refine ⟨?_, fun r hr => ?_, fun r hr => ?_, fun _ => hsent.free htfree, h.frame.trans ⟨?_, fun _ h => absurd trivial h⟩⟩
  · rw [hsent.out, h.out]
    rfl
  · rw [List.mem_singleton.mp hr, hsent.count, h.count]
  · have hne : r ≠ q := fun he => hr (he ▸ List.mem_singleton_self r)
    refine (RegTab.wide_congr 2 _ (fun j h1 h2 => hsent.word j ?_)).trans (h.count r)
    simp only [R.STM_PORT_TX_FRAMES] at h1 h2 ⊢
    omega
  · exact ptpShare.frame_of hsent.frame rfl

theorem Unsent.pushTx {s t : State} (h : Unsent s t) (x : TxStamp) : Unsent s (t.pushTx x) := by
  have k := t.pushTx_pushed x
  refine ⟨((congrArg State.out k.frame).trans rfl).trans h.out, ((congrArg State.ports k.frame).trans rfl).trans h.ports,
    h.frame.trans ⟨ptpShare.frame_of k.frame rfl, fun _ h => absurd trivial h⟩,
    fun q => (k.heldPrio q 0).trans (h.held q), fun q => (RegTab.wide_congr 2 _ (fun j h1 h2 => k.word j ?_ ?_)).trans (h.count q)⟩
  all_goals
    simp only [R.STM_PORT_TX_FRAMES] at h1 h2
    simp only [R.TIME_TXQ_DROP_CNT, R.TIME_STATUS]
    omega

theorem Unsent.setPtpPort {s t : State} (h : Unsent s t) (q : Nat) (x : PtpPort) : Unsent s (t.setPtpPort q x) :=
  ⟨h.out, h.ports, h.frame.trans (.parts rfl rfl), h.held, h.count⟩

theorem State.tcEvent_sent (s : State) (q typ seq t : Nat) (corr : Int) (two : Bool) (hfree : s.PortsFree) :
    SentOnEach [q] s (s.tcEvent q typ seq t corr two) := by
  have hdraw : Unsent s (s.draw 32).2 := ⟨rfl, rfl, .parts rfl rfl, fun _ => rfl, fun _ => rfl⟩
  unfold State.tcEvent
  extract_lets d tx e res s1
  have hpush : Unsent s s1 := hdraw.pushTx _
  clear_value s1
  cases two with
  | true => exact (hpush.setPtpPort q _).sent _ hfree
  | false => exact hpush.sent _ hfree

theorem State.foldl_tcEvent_sent (typ seq t : Nat) (corr : Int) (two : Bool) (l : List Nat) (hl : l.Nodup) :
    ∀ s : State, s.PortsFree → SentOnEach l s (l.foldl (fun u q => u.tcEvent q typ seq t corr two) s) := by
  induction l with
  | nil => exact fun s _ => .nil s
  | cons q l ih =>
    intro s hfree
    obtain ⟨hq, hl⟩ := List.nodup_cons.mp hl
    have h := s.tcEvent_sent q typ seq t corr two hfree
    exact h.cons (ih hl _ (h.free hfree)) hq

/-! ### Sync and offsets -/

section
variable (s : State)

theorem State.addTheta_of_running (hen : s.flag F.TIME_CTRL_SERVO_EN = true) (hst : s.get F.TIME_STATUS_SERVO = 1 ∨ s.get F.TIME_STATUS_SERVO = 2)
    (theta : Int) : s.addTheta theta = { s with servo := { s.servo with sum := s.servo.sum + theta, cnt := s.servo.cnt + 1 } } :=
  if_pos ⟨hen, hst⟩

theorem frame_of_servo {s t : State} {v : Servo} (h : t = { s with servo := v }) : t = { s with servo := t.servo } := by
  rw [h]

theorem State.addTheta_frame (theta : Int) : s.addTheta theta = { s with servo := (s.addTheta theta).servo } := by
  rcases ite_eq_or_eq (s.flag F.TIME_CTRL_SERVO_EN = true ∧ (s.get F.TIME_STATUS_SERVO = 1 ∨ s.get F.TIME_STATUS_SERVO = 2))
    { s with servo := { s.servo with sum := s.servo.sum + theta, cnt := s.servo.cnt + 1 } } s with h | h
  · exact frame_of_servo h
  · exact frame_of_servo (v := s.servo) h

theorem State.ptpPort_setPtpPort (p q : Nat) (x : PtpPort) : (s.setPtpPort p x).ptpPort q = if q = p then x else s.ptpPort q :=
  Tab.get_set _ _ _ _ _

/-- What a Sync does on its own port after the transparent clock has sent it on. -/
def State.takeSync (s : State) (p seq : Nat) (rx origin : Int) (two : Bool) : State :=
  if two then s.setPtpPort p { s.ptpPort p with syncs := (seq, rx) :: (s.ptpPort p).syncs } else s.addTheta (rx - origin - (s.ptpPort p).mpd)

theorem exec_ptpSyncRx_of_slave {p : Fin 128} {seq t : Nat} {origin : Int} {two : Bool} (htc : s.isTc p = false)
    (h9 : s.get (F.TIME_PTP_PORT_STATE p) = 9) :
    exec (.ptpSyncRx p seq t origin two) s = .next (s.takeSync p seq (s.netTime t).val origin two) := by
  simp only [exec, execPtpSyncRx, htc, h9, Bool.false_eq_true, if_false, ne_eq, not_true, false_and]
  rfl

theorem exec_ptpSyncRx_of_other {p : Fin 128} {seq t : Nat} {origin : Int} {two : Bool} (htc : s.isTc p = false)
    (h9 : s.get (F.TIME_PTP_PORT_STATE p) ≠ 9) : exec (.ptpSyncRx p seq t origin two) s = .next s := by
  simp only [exec, execPtpSyncRx, htc, Bool.false_eq_true, if_false]
  exact congrArg Host.Outcome.next (if_pos ⟨h9, trivial⟩)

theorem exec_ptpSyncRx_of_tc {p : Fin 128} {seq t : Nat} {origin : Int} {two : Bool} (htc : s.isTc p = true) :
    exec (.ptpSyncRx p seq t origin two) s =
      .next (((s.tcPorts p).foldl (fun u q => u.tcEvent q 0 seq t origin two) s).takeSync p seq (s.netTime t).val origin two) := by
  simp only [exec, execPtpSyncRx, htc, if_true]
  exact congrArg Host.Outcome.next (if_neg (fun hc => absurd hc.2 (by decide)))

theorem State.takeSync_frame (p seq : Nat) (rx origin : Int) (two : Bool) :
    (s.takeSync p seq rx origin two).out = s.out ∧ (s.takeSync p seq rx origin two).regs = s.regs ∧ ptpShare.Only s (s.takeSync p seq rx origin two) := by
  unfold State.takeSync
  split
  next => exact ⟨rfl, rfl, .parts rfl rfl⟩
  next =>
    have h := s.addTheta_frame (rx - origin - (s.ptpPort p).mpd)
    have hregs : (s.addTheta (rx - origin - (s.ptpPort p).mpd)).regs = s.regs := (congrArg State.regs h).trans rfl
    exact ⟨(congrArg State.out h).trans rfl, hregs, .parts hregs (ptpShare.frame_of h rfl)⟩

theorem syncRx_of_tc {p : Fin 128} (htc : s.isTc p = true) (hfree : s.PortsFree) (seq t : Nat) (origin : Int) (two : Bool) :
    ∃ u, exec (.ptpSyncRx p seq t origin two) s = .next u ∧ u.out.length = s.out.length + (s.tcPorts p).length ∧
      (∀ q ∈ s.tcPorts p, u.getN (R.STM_PORT_TX_FRAMES q) 2 = (s.getN (R.STM_PORT_TX_FRAMES q) 2 + 1) % 2 ^ 64) ∧
      u = { s with out := u.out, free := u.free, regs := u.regs, txq := u.txq, ports := u.ports, servo := u.servo, ptp := u.ptp } := by
  have hsent := State.foldl_tcEvent_sent 0 seq t origin two (s.tcPorts p) (List.nodup_range.filter _) s hfree
  obtain ⟨hout, hregs, hframe⟩ := State.takeSync_frame ((s.tcPorts p).foldl (fun u q => u.tcEvent q 0 seq t origin two) s) p seq
    (s.netTime t).val origin two
  refine ⟨_, exec_ptpSyncRx_of_tc s htc, ?_, fun q hq => ?_, (hsent.frame.trans hframe).frame⟩
  · rw [hout]
    exact hsent.out
  · rw [State.getN, hregs]
    exact hsent.count q hq

end

/-- Settles O45. -/
theorem syncOffsetsReachTheServo : Obligations.SyncOffsetsReachTheServo := by
  unfold Obligations.SyncOffsetsReachTheServo
  refine fun p seq t origin s => ⟨fun htc h9 hen hst => ?_, fun htc h9 => ⟨_, exec_ptpSyncRx_of_slave s htc h9, ?_, fun q hq => ?_, rfl⟩,
    fun htc h9 two => exec_ptpSyncRx_of_other s htc h9, fun htc hfree two => syncRx_of_tc s htc hfree seq t origin two⟩
  · rw [exec_ptpSyncRx_of_slave s htc h9]
    exact congrArg Host.Outcome.next (s.addTheta_of_running hen hst _)
  · exact (s.ptpPort_setPtpPort _ _ _).trans (if_pos rfl)
  · exact (s.ptpPort_setPtpPort _ _ _).trans (if_neg (fun he => hq (Fin.ext he)))

end Sys2Proof.Machine
end

section
/-! SUPPORT. PTP (R274-R280): what the other messages bring, what leaves, and the loss of the slave port. -/

namespace Sys2Proof.Machine

open Sys2Proof.Safety

/-! ### Messages that arrive -/

section
variable (s : State) (p : Fin 128)

theorem State.tcForward_of_ordinary (msg : PtpMsg) (h : s.isTc p = false) : s.tcForward p msg = s := if_pos h

theorem announce_effect (h : s.isTc p = false) (states : List (Nat × Nat)) (gm : Nat) (uv : Bool) (u : Int) :
    ∃ t, exec (.ptpMessageRx p (.announce states gm uv u)) s = .next t ∧ t.flag F.TIME_UTC_VALID = uv ∧ t.get F.TIME_UTC_OFFSET = enc 16 u ∧
      memSame s t := by
  have he : exec (.ptpMessageRx p (.announce states gm uv u)) s =
      .next (((s.portStates states gm).putB F.TIME_UTC_VALID uv).sput F.TIME_UTC_OFFSET u) := by
    simp only [exec, execPtpMessageRx, s.tcForward_of_ordinary p _ h]
  refine ⟨_, he, ?_, (RegTab.fld_setFld_self _ _ (.of rfl (by omega))).trans (enc_mod 16 u), memSame_of_mem (execPtpMessageRx_mem p (.announce states gm uv u) s _ he)⟩
  simp (disch := first | exact .of rfl (by omega) | omega) [State.flag]

theorem followUp_effect (h : s.isTc p = false) {seq : Nat} {origin : Int} {x : Nat × Int}
    (hx : (s.ptpPort p).syncs.find? (fun y => y.1 == seq) = some x) (hen : s.flag F.TIME_CTRL_SERVO_EN = true)
    (hst : s.get F.TIME_STATUS_SERVO = 1 ∨ s.get F.TIME_STATUS_SERVO = 2) :
    ∃ t, exec (.ptpMessageRx p (.followUp seq origin)) s = .next t ∧
      t.servo = { s.servo with sum := s.servo.sum + (x.2 - origin - (s.ptpPort p).mpd), cnt := s.servo.cnt + 1 } ∧
      t = { s with ptp := t.ptp, servo := t.servo } := by
  have he : exec (.ptpMessageRx p (.followUp seq origin)) s = .next ((s.setPtpPort p { s.ptpPort p with
      syncs := (s.ptpPort p).syncs.filter (fun y => y.1 != seq) }).addTheta (x.2 - origin - (s.ptpPort p).mpd)) := by
    simp only [exec, execPtpMessageRx, s.tcForward_of_ordinary p _ h, hx]
  have hadd := State.addTheta_of_running (s.setPtpPort p { s.ptpPort p with syncs := (s.ptpPort p).syncs.filter (fun y => y.1 != seq) }) hen hst
    (x.2 - origin - (s.ptpPort p).mpd)
  exact ⟨_, he.trans (congrArg Host.Outcome.next hadd), rfl, rfl⟩

theorem delayReq_of_master (h : s.isTc p = false) (hd : s.flag F.TIME_PTP_CTRL_DELAY = false) (seq x : Nat)
    (h6 : s.get (F.TIME_PTP_PORT_STATE p) = 6) :
    exec (.ptpMessageRx p (.delayReq seq x)) s = .next (s.sendCtl p (s.ownMsg p 9 seq [(s.netTime x).val])) := by
  simp only [exec, execPtpMessageRx, s.tcForward_of_ordinary p _ h, State.answerDelay, hd, Bool.false_eq_true, if_false, h6, if_true]

theorem delayReq_of_other (h : s.isTc p = false) (hd : s.flag F.TIME_PTP_CTRL_DELAY = false) (seq x : Nat)
    (h6 : s.get (F.TIME_PTP_PORT_STATE p) ≠ 6) : exec (.ptpMessageRx p (.delayReq seq x)) s = .next s := by
  simp only [exec, execPtpMessageRx, s.tcForward_of_ordinary p _ h, State.answerDelay, hd, Bool.false_eq_true, if_false, if_neg h6]

theorem delayReq_of_peer (h : s.isTc p = false) (hd : s.flag F.TIME_PTP_CTRL_DELAY = true) (seq x : Nat)
    (h0 : s.get (F.TIME_PTP_PORT_STATE p) ≠ 0) : exec (.ptpMessageRx p (.delayReq seq x)) s =
      .next (s.setPtpPort p { s.ptpPort p with reqs := (seq, ((s.netTime x).val : Int)) :: (s.ptpPort p).reqs }) := by
  simp only [exec, execPtpMessageRx, s.tcForward_of_ordinary p _ h, State.answerDelay, hd, if_true, if_neg h0]

/-- A message that sets its port's record. -/
theorem setPtpPort_effect (x : PtpPort) : (s.setPtpPort p x).ptpPort p = x ∧ s.setPtpPort p x = { s with ptp := (s.setPtpPort p x).ptp } :=
  ⟨(s.ptpPort_setPtpPort _ _ _).trans (if_pos rfl), rfl⟩

end

/-- Settles O46, one equation for each message. -/
theorem ptpMessagesTakeEffect : Obligations.PtpMessagesTakeEffect := by
  unfold Obligations.PtpMessagesTakeEffect
  intro p s h
  have hfwd := fun msg => s.tcForward_of_ordinary p msg h
  refine ⟨announce_effect s p h, fun seq origin x hx hen hst => followUp_effect s p h hx hen hst, fun mpd => ?_,
    fun seq x hd => ⟨fun h6 hheld hctl => ?_, delayReq_of_other s p h hd seq x⟩, fun seq x hd h0 => ?_, fun ann sync dly h1 => ?_,
    fun ann sync dly h1 => ?_, ?_⟩
  · refine ⟨_, ?_, setPtpPort_effect s p _⟩
    simp only [exec, execPtpMessageRx, hfwd]
  · obtain ⟨hout, hcount, hreg, -, hframe, -⟩ := s.sendCtl_sent (s.ownMsg p 9 seq [(s.netTime x).val]) hheld hctl
    exact ⟨_, delayReq_of_master s p h hd seq x h6, hout, hcount, hreg, hframe⟩
  · exact ⟨_, delayReq_of_peer s p h hd seq x h0, setPtpPort_effect s p _⟩
  · refine ⟨_, ?_, setPtpPort_effect s p _⟩
    simp only [exec, execPtpMessageRx, hfwd, h1, if_true]
  · simp only [exec, execPtpMessageRx, hfwd, if_neg h1]
  · refine ⟨s.incSat (F.STM_PORT_RX_DROP_CNT_COUNT p), ?_, State.get_incSat_width s _ (.of rfl (by omega)) rfl,
      (changesOnly.refl _ s).put (by simp), rfl⟩
    simp only [exec, execPtpMessageRx, hfwd]

/-! ### Messages that leave -/

section
variable (s : State) (p : Fin 128) (typ seq t : Nat)

/-- An event message has left and is counted. -/
def State.eventSent (s : State) (p : Nat) (o : Out) : State := (s.emit o).txCount p

theorem State.eventSent_heldPrio (o : Out) : (s.eventSent p o).heldPrio p 0 = s.heldPrio p 0 :=
  State.heldPrio_congr ⟨rfl, rfl⟩
    (RegTab.bit_setWide_beside _ _ (.of rfl (by simp only [R.STM_PORT_TX_FRAMES]; omega))) rfl

theorem State.flag_eventSent (o : Out) : (s.eventSent p o).flag F.TIME_CTRL_TXQ_EN = s.flag F.TIME_CTRL_TXQ_EN :=
  RegTab.bit_setWide_beside _ _ (.of rfl (by simp only [R.STM_PORT_TX_FRAMES]; omega))

theorem State.get_eventSent_drop (o : Out) : (s.eventSent p o).get F.TIME_TXQ_DROP_CNT_COUNT = s.get F.TIME_TXQ_DROP_CNT_COUNT :=
  RegTab.fld_setWide_beside _ _ (.of rfl (by simp only [R.STM_PORT_TX_FRAMES]; omega))

theorem State.eventSent_changes (o : Out) :
    changesOnly ([F.TIME_TXQ_DROP_CNT_COUNT, F.TIME_STATUS_TXQ_OVF] ++ wideFlds (R.STM_PORT_TX_FRAMES p) 2) s (s.eventSent p o) :=
  ((changesOnly.refl _ s).parts (u := s.emit o) rfl rfl rfl rfl).putN (fun _ h => List.mem_append_right _ h)

/-- The stamp of an event message that leaves at instant t. -/
def State.txStamp (s : State) (p typ seq t : Nat) : TxStamp := ⟨s.netTime t, (s.epochAt (t / 65536)).num, seq, typ, p⟩

theorem exec_ptpEventTx_of_oneStep (h1 : s.flag F.TIME_PTP_CTRL_ONE_STEP = true) (h3 : typ ≠ 3) :
    exec (.ptpEventTx p typ seq t) s =
      .next ((s.eventSent p (s.ownMsg p typ seq [(s.netTime t).val])).pushTx (s.txStamp p typ seq t)) := by
  simp only [exec, execPtpEventTx, h1, h3, if_false, Bool.true_eq_false, false_and]
  rfl

theorem eventTx_effect (h1 : s.flag F.TIME_PTP_CTRL_ONE_STEP = true) (h3 : typ ≠ 3) :
    ∃ u, exec (.ptpEventTx p typ seq t) s = .next u ∧ u.out = s.ownMsg p typ seq [(s.netTime t).val] :: s.out ∧
      u.getN (R.STM_PORT_TX_FRAMES p) 2 = (s.getN (R.STM_PORT_TX_FRAMES p) 2 + 1) % 2 ^ 64 ∧
      (s.flag F.TIME_CTRL_TXQ_EN = false → u.txq = s.txq) ∧
      (s.flag F.TIME_CTRL_TXQ_EN = true → s.txq.length < 64 →
        u.txq = s.txq ++ [⟨s.netTime t, (s.epochAt (t / 65536)).num, seq, typ, p⟩]) ∧
      (s.flag F.TIME_CTRL_TXQ_EN = true → 64 ≤ s.txq.length → u.txq = s.txq ∧
        u.get F.TIME_TXQ_DROP_CNT_COUNT = min (s.get F.TIME_TXQ_DROP_CNT_COUNT + 1) (2 ^ 32 - 1) ∧
        u.flag F.TIME_STATUS_TXQ_OVF = true) ∧
      changesOnly ([F.TIME_TXQ_DROP_CNT_COUNT, F.TIME_STATUS_TXQ_OVF] ++ wideFlds (R.STM_PORT_TX_FRAMES p) 2) s u ∧
      u = { s with out := u.out, regs := u.regs, txq := u.txq } := by
  have hflag := s.flag_eventSent p (s.ownMsg p typ seq [(s.netTime t).val])
  have hdrop := s.get_eventSent_drop p (s.ownMsg p typ seq [(s.netTime t).val])
  have hreg := s.eventSent_changes p (s.ownMsg p typ seq [(s.netTime t).val])
  have hcount : (s.eventSent p (s.ownMsg p typ seq [(s.netTime t).val])).getN (R.STM_PORT_TX_FRAMES p) 2 =
      (s.getN (R.STM_PORT_TX_FRAMES p) 2 + 1) % 2 ^ 64 := (State.getN_putN _ _ _ _).trans (Nat.mod_mod _ _)
  have hframe : s.eventSent p (s.ownMsg p typ seq [(s.netTime t).val]) =
      { s with out := s.ownMsg p typ seq [(s.netTime t).val] :: s.out,
               regs := (s.eventSent p (s.ownMsg p typ seq [(s.netTime t).val])).regs } := rfl
  rw [exec_ptpEventTx_of_oneStep s p typ seq t h1 h3]
  generalize s.eventSent p (s.ownMsg p typ seq [(s.netTime t).val]) = v at *
  have hpush := v.pushTx_pushed (s.txStamp p typ seq t)
  have hout : (v.pushTx (s.txStamp p typ seq t)).out = v.out := (congrArg State.out hpush.frame).trans rfl
  have hvout : v.out = s.ownMsg p typ seq [(s.netTime t).val] :: s.out := (congrArg State.out hframe).trans rfl
  have hvtxq : v.txq = s.txq := (congrArg State.txq hframe).trans rfl
  refine ⟨_, rfl, hout.trans hvout, (RegTab.wide_congr 2 _ (fun j h1 h2 => hpush.word j ?_ ?_)).trans hcount,
    fun hq => ?_, fun hq hroom => ?_, fun hq hfull => ?_, hreg.trans (hpush.reg.mono (fun _ h => List.mem_append_left _ h)), ?_⟩
  · simp only [R.STM_PORT_TX_FRAMES] at h1 h2
    simp only [R.TIME_TXQ_DROP_CNT]
    omega
  · simp only [R.STM_PORT_TX_FRAMES] at h1 h2
    simp only [R.TIME_STATUS]
    omega
  · rw [v.pushTx_off _ (hflag.trans hq), hvtxq]
  · rw [v.pushTx_room _ (hflag.trans hq) (by rw [hvtxq]; exact hroom), hvtxq]
    rfl
  · rw [v.pushTx_full _ (hflag.trans hq) (by rw [hvtxq]; exact hfull)]
    refine ⟨hvtxq, ?_, RegTab.bit_setFld_one _ (.of rfl (by omega))⟩
    refine (RegTab.fld_setFld_sep _ _ (.of rfl (by omega))).trans ?_
    exact (State.get_incSat_width (w := 32) v F.TIME_TXQ_DROP_CNT_COUNT (.of rfl (by omega)) rfl).trans (by rw [hdrop])
  · refine hpush.frame.trans ((congrArg (fun w : State => { w with
      regs := (v.pushTx (s.txStamp p typ seq t)).regs, txq := (v.pushTx (s.txStamp p typ seq t)).txq }) hframe).trans ?_)
    rw [hout, hvout]

/-- A Pdelay_Resp of a one-step port carries the turnaround, and its request is done with. -/
theorem eventTx_pdelayResp {rx : Nat} (hx : (s.ptpPort p).reqs.find? (fun x => x.1 == seq) = some (seq, (rx : Int)))
    (h1 : s.flag F.TIME_PTP_CTRL_ONE_STEP = true) : ∃ u, exec (.ptpEventTx p 3 seq t) s = .next u ∧
      u.out = s.ownMsg p 3 seq [((s.netTime t).val : Int) - rx] :: s.out ∧ (∀ x ∈ (u.ptpPort p).reqs, x.1 ≠ seq) := by
  have he : exec (.ptpEventTx p 3 seq t) s = .next (((s.setPtpPort p { s.ptpPort p with
      reqs := (s.ptpPort p).reqs.filter (fun x => x.1 != seq) }).eventSent p (s.ownMsg p 3 seq [((s.netTime t).val : Int) - rx])).pushTx
      (s.txStamp p 3 seq t)) := by
    simp only [exec, execPtpEventTx, h1, hx, if_true, Bool.true_eq_false, false_and, if_false, Option.map_some, Option.getD_some]
    rfl
  refine ⟨_, he, ?_, fun x hx => ?_⟩
  · exact (congrArg State.out (State.pushTx_pushed _ _).frame).trans rfl
  · have hptp : (((s.setPtpPort p { s.ptpPort p with reqs := (s.ptpPort p).reqs.filter (fun x => x.1 != seq) }).eventSent p
        (s.ownMsg p 3 seq [((s.netTime t).val : Int) - rx])).pushTx (s.txStamp p 3 seq t)).ptp =
        (s.setPtpPort p { s.ptpPort p with reqs := (s.ptpPort p).reqs.filter (fun x => x.1 != seq) }).ptp :=
      (congrArg State.ptp (State.pushTx_pushed _ _).frame).trans rfl
    rw [State.ptpPort, hptp, State.setPtpPort, Tab.get_set_same] at hx
    have := (List.mem_filter.mp hx).2
    simpa using this

/-- A two-step Sync is followed by its Follow_Up. -/
theorem eventTx_twoStep (h1 : s.flag F.TIME_PTP_CTRL_ONE_STEP = false) (hheld : s.heldPrio p 0 = false) (hctl : (s.port p).ctl = []) :
    ∃ u, exec (.ptpEventTx p 0 seq t) s = .next u ∧ u.out =
      s.ownMsg p 8 seq [(s.netTime t).val] :: s.ownMsg p 0 seq [(s.netTime t).val] :: s.out := by
  have he : exec (.ptpEventTx p 0 seq t) s = .next (((s.eventSent p (s.ownMsg p 0 seq [(s.netTime t).val])).pushTx (s.txStamp p 0 seq t)).sendCtl p
      (s.ownMsg p 8 seq [(s.netTime t).val])) := by
    simp only [exec, execPtpEventTx, h1, Nat.reduceEqDiff, if_false, true_or, and_self, if_true]
    rfl
  have hpush := (s.eventSent p (s.ownMsg p 0 seq [(s.netTime t).val])).pushTx_pushed (s.txStamp p 0 seq t)
  have hports : ((s.eventSent p (s.ownMsg p 0 seq [(s.netTime t).val])).pushTx (s.txStamp p 0 seq t)).ports = s.ports :=
    (congrArg State.ports hpush.frame).trans rfl
  have hsent := State.sendCtl_sent _ (s.ownMsg p 8 seq [(s.netTime t).val]) ((hpush.heldPrio p 0).trans ((s.eventSent_heldPrio p _).trans hheld))
    (by rw [State.port, hports]; exact hctl)
  exact ⟨_, he, hsent.out.trans (congrArg (_ :: ·) ((congrArg State.out hpush.frame).trans rfl))⟩

/-- What an Announce changes. -/
def announceShare : Share where
  upd s t := { s with out := t.out, regs := t.regs, ports := t.ports, ptp := t.ptp }
  regs _ := True
  self _ := rfl
  again _ _ _ := rfl

/-- A port in MASTER announces under its next sequence, after any pause. -/
theorem announceTx_effect (h6 : s.get (F.TIME_PTP_PORT_STATE p) = 6) (hctl : (s.port p).ctl = []) :
    ∃ u m, exec (.ptpAnnounceTx p) s = .next u ∧
      u.ptpPort p = { s.ptpPort p with annSeq := ((s.ptpPort p).annSeq + 1) % 65536 } ∧
      (s.heldPrio p 0 = false → u.out = m :: s.out ∧ (u.port p).ctl = []) ∧
      (s.heldPrio p 0 = true → u.out = s.out ∧ (u.port p).ctl = [m]) ∧
      u = { s with out := u.out, regs := u.regs, ports := u.ports, ptp := u.ptp } := by
  have he : ∃ m, exec (.ptpAnnounceTx p) s = .next ((s.setPtpPort p { s.ptpPort p with
      annSeq := ((s.ptpPort p).annSeq + 1) % 65536 }).sendCtl p m) := ⟨_, congrArg Host.Outcome.next (if_pos h6)⟩
  obtain ⟨m, he⟩ := he
  rw [he]
  have hset := setPtpPort_effect s p { s.ptpPort p with annSeq := ((s.ptpPort p).annSeq + 1) % 65536 }
  have hheld : (s.setPtpPort p { s.ptpPort p with annSeq := ((s.ptpPort p).annSeq + 1) % 65536 }).heldPrio p 0 = s.heldPrio p 0 := rfl
  have hctl' : ((s.setPtpPort p { s.ptpPort p with annSeq := ((s.ptpPort p).annSeq + 1) % 65536 }).port p).ctl = [] := hctl
  have hout : (s.setPtpPort p { s.ptpPort p with annSeq := ((s.ptpPort p).annSeq + 1) % 65536 }).out = s.out := rfl
  cases hp : s.heldPrio p 0 with
  | true =>
    rw [State.sendCtl_held _ p m (hheld.trans hp) hctl']
    refine ⟨_, m, rfl, hset.1, fun h => absurd h (by decide), fun _ => ⟨rfl, ?_⟩, rfl⟩
    exact congrArg Port.ctl (Tab.get_set_same _ _ _ _)
  | false =>
    have hsent := State.sendCtl_sent _ m (hheld.trans hp) hctl'
    refine ⟨_, m, rfl, ?_, fun _ => ⟨hsent.out.trans (by rw [hout]), by rw [hsent.port, if_pos rfl]⟩, fun h => absurd h (by decide), ?_⟩
    · have hptp : ((s.setPtpPort p { s.ptpPort p with annSeq := ((s.ptpPort p).annSeq + 1) % 65536 }).sendCtl p m).ptp = _ :=
        congrArg State.ptp hsent.frame
      rw [State.ptpPort, hptp]
      exact hset.1
    · exact announceShare.frame_of hsent.frame rfl

end

/-! ### The loss of the slave port (R279) -/

section
variable (s : State) (p : Fin 128)

/-- What the way to HOLDOVER changes. -/
def holdoverShare : Share where
  upd s t := { s with regs := t.regs, timeDue := t.timeDue }
  regs _ := True
  self _ := rfl
  again _ _ _ := rfl

theorem State.enterHoldover_share : holdoverShare.Only s s.enterHoldover := by
  unfold State.enterHoldover
  extract_lets y num now s1
  have h1 : holdoverShare.Only s s1 := .put (f := F.TIME_STATUS_SERVO) trivial
  clear_value s1
  exact .ite h1 (h1.trans (.parts rfl rfl))

/-- The servo goes to HOLDOVER. -/
theorem State.enterHoldover_effect : s.enterHoldover.get F.TIME_STATUS_SERVO = 3 ∧
    (∀ fs, F.TIME_STATUS_SERVO ∈ fs → changesOnly fs s s.enterHoldover) ∧
    s.enterHoldover = { s with regs := s.enterHoldover.regs, timeDue := s.enterHoldover.timeDue } ∧
    s.enterHoldover.regs = (s.put F.TIME_STATUS_SERVO 3).regs := by
  have hregs : s.enterHoldover.regs = (s.put F.TIME_STATUS_SERVO 3).regs := by
    unfold State.enterHoldover
    extract_lets y num now s1
    split <;> rfl
  refine ⟨(congrArg (fun r => RegTab.fld r F.TIME_STATUS_SERVO) hregs).trans (RegTab.fld_setFld_self _ _ (.of rfl (by omega))), fun fs hf => ?_,
    s.enterHoldover_share.frame, hregs⟩
  have hframe := s.enterHoldover_share.frame
  exact ((changesOnly.refl fs s).put hf).parts hregs ((congrArg State.store hframe).trans rfl) ((congrArg State.flash hframe).trans rfl)
    ((congrArg State.pending hframe).trans rfl)

theorem announceReceiptTimeout_effect (h9 : s.get (F.TIME_PTP_PORT_STATE p) = 9)
    (hother : ∀ q : Fin 128, q ≠ p → s.get (F.TIME_PTP_PORT_STATE q) ≠ 9) (hen : s.flag F.TIME_CTRL_SERVO_EN = true)
    (hst : s.get F.TIME_STATUS_SERVO = 1 ∨ s.get F.TIME_STATUS_SERVO = 2) :
    ∃ u, exec (.announceReceiptTimeout p) s = .next u ∧ u.get (F.TIME_PTP_PORT_STATE p) = 6 ∧ u.get F.TIME_STATUS_SERVO = 3 ∧
      changesOnly [F.TIME_PTP_PORT_STATE p, F.TIME_STATUS_SERVO] s u ∧ u = { s with regs := u.regs, timeDue := u.timeDue } := by
  have hslave : (List.range 128).any (fun q => (s.put (F.TIME_PTP_PORT_STATE p) 6).get (F.TIME_PTP_PORT_STATE q) == 9) = false := by
    rw [List.any_eq_false]
    intro q hq
    rw [beq_iff_eq]
    by_cases hqp : q = p
    · rw [hqp]
      have h6 : (s.put (F.TIME_PTP_PORT_STATE p) 6).get (F.TIME_PTP_PORT_STATE p) = 6 := RegTab.fld_setFld_self _ _ (.of rfl (by omega))
      exact fun h => absurd (h6.symm.trans h) (by decide)
    · rw [State.get_put_word _ _ _ _ (by simp only [F.TIME_PTP_PORT_STATE]; omega)]
      exact hother ⟨q, List.mem_range.mp hq⟩ (fun h => hqp (congrArg Fin.val h))
  have hen' : (s.put (F.TIME_PTP_PORT_STATE p) 6).flag F.TIME_CTRL_SERVO_EN = true := (RegTab.bit_setFld_sep _ _ (.of rfl (by omega))).trans hen
  have hst' : (s.put (F.TIME_PTP_PORT_STATE p) 6).get F.TIME_STATUS_SERVO = 1 ∨ (s.put (F.TIME_PTP_PORT_STATE p) 6).get F.TIME_STATUS_SERVO = 2 := by
    rw [State.get_put_word _ _ _ _ (by simp only [F.TIME_STATUS_SERVO, F.TIME_PTP_PORT_STATE]; omega)]
    exact hst
  have hports : (s.put (F.TIME_PTP_PORT_STATE p) 6).servoPorts = (s.put (F.TIME_PTP_PORT_STATE p) 6).enterHoldover := by
    unfold State.servoPorts
    extract_lets slave st
    rw [if_neg (by rw [hen']; decide), if_neg (by rw [show slave = false from hslave]; decide), if_pos hst']
  obtain ⟨hservo, hreg, hframe, hregs⟩ := (s.put (F.TIME_PTP_PORT_STATE p) 6).enterHoldover_effect
  refine ⟨_, congrArg Host.Outcome.next ((if_pos h9).trans hports), ?_, hservo, ((changesOnly.refl _ s).put (by simp)).trans (hreg _ (by simp)), hframe⟩
  rw [State.get, hregs]
  exact (RegTab.fld_setFld_sep _ _ (.of rfl (by omega))).trans (RegTab.fld_setFld_self _ _ (.of rfl (by omega)))

end

/-- Settles O47. -/
theorem ptpMessagesLeave : Obligations.PtpMessagesLeave := by
  unfold Obligations.PtpMessagesLeave
  exact ⟨fun p typ seq t s => eventTx_effect s p typ seq t, fun p seq t rx s => eventTx_pdelayResp s p seq t,
    fun p seq t s => eventTx_twoStep s p seq t, fun p s => announceTx_effect s p,
    fun p s => ⟨fun h => congrArg Host.Outcome.next (if_neg h), fun h => congrArg Host.Outcome.next (if_neg h)⟩,
    fun p s => announceReceiptTimeout_effect s p⟩

end Sys2Proof.Machine
end

section
/-! SUPPORT. Event inputs (R287-R308): result blocks, intervals, and edges with their stamps. -/

namespace Sys2Proof.Machine

open Sys2Proof.Safety

/-! ### Result blocks draw free values only -/

/-- Only free values were drawn. -/
def drawShare : Share where
  upd s t := { s with free := t.free }
  regs _ := False
  self _ := rfl
  again _ _ _ := rfl

section
variable (s : State)

theorem State.draw_drawShare (w : Nat) : drawShare.Only s (s.draw w).2 := .parts rfl rfl

theorem State.evBlock_drawShare (k code qual cnt : Nat) (raw : Int) (start : Option EvStamp) (va vb : Nat) (mn mx : Int) :
    drawShare.Only s (s.evBlock k code qual cnt raw start va vb mn mx).2 := by
  cases start with
  | none => exact s.draw_drawShare 64
  | some x => exact .refl _ _

theorem State.draw_two_drawShare : drawShare.Only s ((s.draw 64).2.draw 64).2 := (s.draw_drawShare 64).trans (State.draw_drawShare _ 64)

theorem State.statBlock_drawShare (k code : Nat) : drawShare.Only s (s.statBlock k code).2 := by
  unfold State.statBlock
  extract_lets e
  split
  · exact (s.draw_two_drawShare.trans (State.draw_two_drawShare _)).trans (State.evBlock_drawShare _ _ _ _ _ _ _ _ _ _ _)
  · exact s.evBlock_drawShare _ _ _ _ _ _ _ _ _ _

theorem State.freqBlock_drawShare (k code qual : Nat) (l : List EvStamp) : drawShare.Only s (s.freqBlock k code qual l).2 := by
  unfold State.freqBlock
  extract_lets sl byp st q raw a b r c
  split
  · split
    · exact (s.draw_two_drawShare.trans (State.draw_drawShare _ 64)).trans (State.evBlock_drawShare _ _ _ _ _ _ _ _ _ _ _)
    · exact s.draw_two_drawShare.trans (State.evBlock_drawShare _ _ _ _ _ _ _ _ _ _ _)
  · exact s.evBlock_drawShare _ _ _ _ _ _ _ _ _ _

theorem ev_of_drawShare {s t : State} (h : drawShare.Only s t) (k : Nat) : t.ev k = s.ev k := by
  have hevs : t.evs = s.evs := (congrArg State.evs h.frame).trans rfl
  rw [State.ev, State.ev, hevs]

theorem State.ev_setEv (k j : Nat) (x : Ev) : (s.setEv k x).ev j = if j = k then x else s.ev j := Tab.get_set _ _ _ _ _

end

/-! ### Intervals leave the edges' parts alone -/

/-- The inputs' records and free values. -/
def evShare : Share where
  upd s t := { s with free := t.free, evs := t.evs }
  regs _ := False
  self _ := rfl
  again _ _ _ := rfl

/-- The parts of an input's record that hold its edges, its stream and its gate's stamps. -/
structure Ev.Same (a b : Ev) : Prop where
  ip0 : b.ip0 = a.ip0
  ip1 : b.ip1 = a.ip1
  fifo : b.fifo = a.fifo
  stamps : b.stamps = a.stamps

/-- Of the inputs nothing but intervals and losses changes. -/
structure IntervalsOnly (s t : State) : Prop where
  share : evShare.Only s t
  same : ∀ j, (s.ev j).Same (t.ev j)

section
variable {s t u : State}

theorem Ev.Same.refl (a : Ev) : a.Same a := ⟨rfl, rfl, rfl, rfl⟩

theorem Ev.Same.trans {a b c : Ev} (h : a.Same b) (k : b.Same c) : a.Same c :=
  ⟨k.ip0.trans h.ip0, k.ip1.trans h.ip1, k.fifo.trans h.fifo, k.stamps.trans h.stamps⟩

theorem IntervalsOnly.refl (s : State) : IntervalsOnly s s := ⟨.refl _ _, fun _ => .refl _⟩

theorem IntervalsOnly.trans (h : IntervalsOnly s t) (k : IntervalsOnly t u) : IntervalsOnly s u :=
  ⟨h.share.trans k.share, fun j => (h.same j).trans (k.same j)⟩

theorem IntervalsOnly.draw (h : drawShare.Only s t) : IntervalsOnly s t :=
  ⟨⟨evShare.frame_of h.frame rfl, h.word⟩, fun j => by rw [ev_of_drawShare h j]; exact .refl _⟩

theorem IntervalsOnly.setEv (j : Nat) (x : Ev) (hx : (s.ev j).Same x) : IntervalsOnly s (s.setEv j x) := by
  refine ⟨.parts rfl rfl, fun i => ?_⟩
  rw [s.ev_setEv j i]
  split
  next h => exact h ▸ hx
  next => exact .refl _

theorem IntervalsOnly.foldl {α : Type} (f : State → α → State) (l : List α) (h : ∀ t x, IntervalsOnly t (f t x)) (s : State) :
    IntervalsOnly s (l.foldl f s) := by
  induction l generalizing s with
  | nil => exact .refl s
  | cons x xs ih => exact (h s x).trans (ih (f s x))

theorem State.stopInterval_only (s : State) (j c : Nat) (x : EvStamp) : IntervalsOnly s (s.stopInterval j c x) := by
  unfold State.stopInterval
  extract_lets e cont
  split
  next => exact .refl s
  next st _ =>
    extract_lets dv q b e1 b2
    have hb : drawShare.Only s b.2 := s.evBlock_drawShare _ _ _ _ _ _ _ _ _ _
    have hbe : b.2.ev j = e := ev_of_drawShare hb j
    have he1 : (s.ev j).Same e1 := ⟨rfl, rfl, rfl, rfl⟩
    have hb2 : drawShare.Only (s.setEv j e1) b2.2 := State.statBlock_drawShare _ _ _
    have hb2e : b2.2.ev j = e1 := (ev_of_drawShare hb2 j).trans ((s.ev_setEv j j e1).trans (if_pos rfl))
    clear_value b b2
    split
    next => exact .setEv j _ ⟨rfl, rfl, rfl, rfl⟩
    next =>
      split
      next => exact (IntervalsOnly.draw hb).trans (.setEv j _ (by rw [hbe]; exact ⟨rfl, rfl, rfl, rfl⟩))
      next =>
        split
        next => exact .setEv j _ he1
        next =>
          exact ((IntervalsOnly.setEv j e1 he1).trans (.draw hb2)).trans (.setEv j _ (by rw [hb2e]; exact ⟨rfl, rfl, rfl, rfl⟩))

theorem State.settleInt_only (s : State) (j fuel : Nat) : IntervalsOnly s (s.settleInt j fuel) := by
  induction fuel generalizing s with
  | zero => exact .refl s
  | succ fuel ih =>
    rw [State.settleInt]
    split
    next =>
      split
      next => exact .refl s
      next =>
        split
        next =>
          refine IntervalsOnly.trans ?_ (ih _)
          exact .setEv j _ ⟨rfl, rfl, rfl, rfl⟩
        next => exact .refl s
    next =>
      split
      next => exact (s.stopInterval_only j _ _).trans (ih _)
      next => exact .refl s

end

end Sys2Proof.Machine
end

section
/-! SUPPORT. Event inputs (R287-R297): edges, stamps and reference codes. -/

namespace Sys2Proof.Machine

open Sys2Proof.Safety

/-! ### What is offered to the trigger -/

/-- The groups alone. -/
def grpsShare : Share where
  upd s t := { s with grps := t.grps }
  regs _ := False
  self _ := rfl
  again _ _ _ := rfl

theorem frame_of_grpsShare {s t : State} (h : grpsShare.Only s t) : t.regs = s.regs ∧ t.evs = s.evs ∧ t.lcnt = s.lcnt ∧ t.free = s.free ∧
    t.store = s.store ∧ t.flash = s.flash ∧ t.pending = s.pending :=
  ⟨(congrArg State.regs h.frame).trans rfl, (congrArg State.evs h.frame).trans rfl, (congrArg State.lcnt h.frame).trans rfl,
    (congrArg State.free h.frame).trans rfl, (congrArg State.store h.frame).trans rfl, (congrArg State.flash h.frame).trans rfl,
    (congrArg State.pending h.frame).trans rfl⟩

section
variable (s : State)

theorem State.offer_grpsShare (src t : Nat) (rising coarse : Bool) : grpsShare.Only s (s.offer src t rising coarse) := by
  unfold State.offer
  refine Share.Only.foldl _ _ (fun u g _ => ?_) s
  split
  · exact .parts rfl rfl
  · exact .refl _ _

theorem State.regs_offer (src t : Nat) (rising coarse : Bool) : (s.offer src t rising coarse).regs = s.regs :=
  (frame_of_grpsShare (s.offer_grpsShare src t rising coarse)).1

theorem changesOnly.offer {fs : List Fld} {s t : State} (h : changesOnly fs s t) (src n : Nat) (rising coarse : Bool) :
    changesOnly fs s (t.offer src n rising coarse) := by
  obtain ⟨hregs, -, -, -, hstore, hflash, hpending⟩ := frame_of_grpsShare (t.offer_grpsShare src n rising coarse)
  exact h.parts hregs hstore hflash hpending

/-! ### Edges -/

/-- What an edge may change. -/
def edgeShare : Share where
  upd s t := { s with lcnt := t.lcnt, regs := t.regs, grps := t.grps, evs := t.evs }
  regs _ := True
  self _ := rfl
  again _ _ _ := rfl

theorem edgeShare_of_grpsShare {s t : State} (h : grpsShare.Only s t) : edgeShare.Only s t :=
  ⟨edgeShare.frame_of h.frame rfl, fun _ h => absurd trivial h⟩

/-- The inputs' records alone. -/
def recordShare : Share where
  upd s t := { s with evs := t.evs }
  regs _ := False
  self _ := rfl
  again _ _ _ := rfl

theorem State.lostStop_recordShare (k c : Nat) : recordShare.Only s (s.lostStop k c) := by
  unfold State.lostStop
  refine Share.Only.foldl _ _ (fun u j _ => ?_) s
  dsimp only
  split
  · exact .parts rfl rfl
  · exact .refl _ _

theorem frame_of_recordShare {s t : State} (h : recordShare.Only s t) : t.regs = s.regs ∧ t.lcnt = s.lcnt ∧ t.store = s.store ∧
    t.flash = s.flash ∧ t.pending = s.pending ∧ edgeShare.Only s t :=
  ⟨(congrArg State.regs h.frame).trans rfl, (congrArg State.lcnt h.frame).trans rfl, (congrArg State.store h.frame).trans rfl,
    (congrArg State.flash h.frame).trans rfl, (congrArg State.pending h.frame).trans rfl,
    ⟨edgeShare.frame_of h.frame rfl, fun _ h => absurd trivial h⟩⟩

/-- The words that count a lost edge. -/
def State.lostShown (s : State) (k : Nat) : State := (s.incSat (F.EVT_IN_LOST_CNT_COUNT k)).setF (F.EVT_IN_STATUS_LOST_SEEN k)

/-- Beyond those words a selected edge without a stamp changes the inputs' records. -/
theorem State.evLost_recordShare (k c : Nat) : recordShare.Only (s.lostShown k) (s.evLost k c) := by
  unfold State.evLost
  extract_lets s1 e run s2
  have hs1 : s1 = s.lostShown k := rfl
  clear_value s1
  subst hs1
  have h2 : recordShare.Only (s.lostShown k) s2 := .ite (.parts rfl rfl) (.ite (.parts rfl rfl) (.refl _ _))
  exact h2.trans (s2.lostStop_recordShare k c)

/-- The edge shows on its input. -/
def State.edgeSeen (s : State) (k c : Nat) (rising : Bool) : State := (s.at_ c).putB (F.EVT_IN_STATUS_LEVEL k) rising

/-- The edge is counted, and the input's record written back as it was. -/
def State.edgeCounted (s : State) (k c : Nat) (rising : Bool) : State :=
  (((s.edgeSeen k c rising).putN (R.EVT_IN_EDGE_CNT k) 2 ((s.edgeCnt k + 1) % 2 ^ 48))).setEv k (s.ev k)

/-- The edge as it is offered to the trigger. -/
def State.edgeOffered (t : State) (s : State) (k c : Nat) (rising : Bool) : State :=
  t.offer (0x1E0 + k) (65536 * c + 32768 - s.get (F.EVT_DELAY_DELAY k)) rising true

theorem State.evTaker_congr {s t : State} {k c : Nat} (hev : t.ev k = s.ev k) (hclk : t.clk = s.clk) (hcal : t.cal = s.cal)
    (hfail : ∀ i, t.flag (F.EVT_INT_CAL_FAILED k i) = s.flag (F.EVT_INT_CAL_FAILED k i)) : t.evTaker k c = s.evTaker k c := by
  have hready : ∀ i, t.evReady k i c = s.evReady k i c := fun i => by
    unfold State.evReady State.evHeld
    rw [hfail, hev, hclk, hcal]
  unfold State.evTaker
  rw [hready, hready, hev]

theorem State.edgeCnt_edgeSeen (k c : Nat) (rising : Bool) : (s.edgeSeen k c rising).edgeCnt k = s.edgeCnt k :=
  congrArg (· % 2 ^ 48) (RegTab.wide_setFld_beside _ _ (.of rfl (by simp only [R.EVT_IN_EDGE_CNT]; omega)))

/-- What counting an edge leaves. -/
structure EdgeCounted (k c : Nat) (rising : Bool) (s u : State) : Prop where
  level : u.flag (F.EVT_IN_STATUS_LEVEL k) = rising
  cnt : u.edgeCnt k = (s.edgeCnt k + 1) % 2 ^ 48
  lost : u.get (F.EVT_IN_LOST_CNT_COUNT k) = s.get (F.EVT_IN_LOST_CNT_COUNT k)
  lcnt : u.lcnt = max s.lcnt c
  ev : u.ev k = s.ev k
  grps : u.grps = s.grps
  taker : u.evTaker k c = s.evTaker k c
  reg : changesOnly ([F.EVT_IN_STATUS_LEVEL k, F.EVT_IN_LOST_CNT_COUNT k, F.EVT_IN_STATUS_LOST_SEEN k] ++ wideFlds (R.EVT_IN_EDGE_CNT k) 2) s u
  share : edgeShare.Only s u

theorem State.edgeCounted_spec (k c : Nat) (rising : Bool) : EdgeCounted k c rising s (s.edgeCounted k c rising) := by
  have hev : (s.edgeCounted k c rising).ev k = s.ev k := Tab.get_set_same _ _ _ _
  have hcnt : (s.edgeCounted k c rising).edgeCnt k = (s.edgeCnt k + 1) % 2 ^ 48 :=
    (congrArg (· % 2 ^ 48) (RegTab.wide_setWide 2 _ _ _)).trans (by omega)
  refine ⟨?_, hcnt, ?_, rfl, hev, rfl, State.evTaker_congr hev rfl rfl (fun i => ?_),
    ((((changesOnly.refl _ s).parts (u := s.at_ c) rfl rfl rfl rfl).put (f := F.EVT_IN_STATUS_LEVEL k) (by simp)).putN
      (fun _ h => List.mem_append_right _ h)).parts rfl rfl rfl rfl, ⟨rfl, fun _ h => absurd trivial h⟩⟩
  all_goals
    simp (disch := first | exact .of rfl (by omega) | omega) [State.flag, State.get, State.edgeCounted, State.edgeSeen, State.setEv, State.at_,
      R.EVT_IN_EDGE_CNT]

theorem exec_eventEdge_of_selected {k : Fin 8} {c : Nat} {rising : Bool} (hen : s.flag (F.EVT_IN_CTRL_EN k) = true)
    (hslope : slopeOk (s.get (F.EVT_IN_CTRL_SLOPE k)) rising = true) (hsel : s.get (F.EVT_IN_CTRL_SEL k) = 0) :
    exec (.eventEdge k c rising) s = .next (match (s.edgeCounted k c rising).evTaker k c with
      | some i => (s.edgeCounted k c rising).setEv k (((s.edgeCounted k c rising).ev k).setIp i ⟨c + 5, some (c, rising, (s.edgeCounted k c rising).edgeCnt k)⟩)
      | none => State.edgeOffered ((s.edgeCounted k c rising).evLost k c) s k c rising) := by
  have hs1 : ∀ v, ((s.edgeSeen k c rising).putN (R.EVT_IN_EDGE_CNT k) 2 v).evSelected k c =
      (true, (((s.edgeSeen k c rising).putN (R.EVT_IN_EDGE_CNT k) 2 v).ev k).sample) := fun v => by
    have h0 : ((s.edgeSeen k c rising).putN (R.EVT_IN_EDGE_CNT k) 2 v).get (F.EVT_IN_CTRL_SEL k) = 0 := by
      refine Eq.trans ?_ hsel
      simp (disch := first | exact .of rfl (by omega) | omega) [State.get, State.edgeSeen, State.at_, R.EVT_IN_EDGE_CNT]
    simp only [State.evSelected, h0]
  have he : execEventEdge k c rising s = .next (
      let s1 := (s.edgeSeen k c rising).putN (R.EVT_IN_EDGE_CNT k) 2 (((s.edgeSeen k c rising).edgeCnt k + 1) % 2 ^ 48)
      let sel := s1.evSelected k c
      let s2 := s1.setEv k { s1.ev k with sample := sel.2 }
      if sel.1 = false then State.edgeOffered s2 s k c rising
      else match s2.evTaker k c with
        | some i => s2.setEv k ((s2.ev k).setIp i ⟨c + 5, some (c, rising, s2.edgeCnt k)⟩)
        | none => State.edgeOffered (s2.evLost k c) s k c rising) := by
    have hno : ¬ s.flag (F.EVT_IN_CTRL_EN k) = false := by rw [hen]; decide
    have hok : ¬ slopeOk (s.get (F.EVT_IN_CTRL_SLOPE k)) rising = false := by rw [hslope]; decide
    exact congrArg Host.Outcome.next ((if_neg hno).trans (if_neg hok))
  refine he.trans ?_
  rw [s.edgeCnt_edgeSeen k c rising]
  dsimp only
  rw [hs1]
  rfl

/-- An edge that an interpolator takes. -/
theorem eventEdge_effect (k : Fin 8) (c : Nat) (rising : Bool) (hen : s.flag (F.EVT_IN_CTRL_EN k) = true)
    (hslope : slopeOk (s.get (F.EVT_IN_CTRL_SLOPE k)) rising = true) (hsel : s.get (F.EVT_IN_CTRL_SEL k) = 0) :
    ∃ t, exec (.eventEdge k c rising) s = .next t ∧ t.flag (F.EVT_IN_STATUS_LEVEL k) = rising ∧
        t.edgeCnt k = (s.edgeCnt k + 1) % 2 ^ 48 ∧ t.lcnt = max s.lcnt c ∧
        (∀ i, s.evTaker k c = some i → t.ev k = (s.ev k).setIp i ⟨c + 5, some (c, rising, t.edgeCnt k)⟩ ∧ t.grps = s.grps) ∧
        (s.evTaker k c = none → t.flag (F.EVT_IN_STATUS_LOST_SEEN k) = true ∧
          t.get (F.EVT_IN_LOST_CNT_COUNT k) = min (s.get (F.EVT_IN_LOST_CNT_COUNT k) + 1) (2 ^ 32 - 1)) ∧
        changesOnly ([F.EVT_IN_STATUS_LEVEL k, F.EVT_IN_LOST_CNT_COUNT k, F.EVT_IN_STATUS_LOST_SEEN k] ++
          wideFlds (R.EVT_IN_EDGE_CNT k) 2) s t ∧
        t = { s with lcnt := t.lcnt, regs := t.regs, grps := t.grps, evs := t.evs } := by
  have he := exec_eventEdge_of_selected s (c := c) hen hslope hsel
  obtain ⟨hlevel, hcnt, hlost, hlcnt, hev, hgrps, htaker, hreg, hshare⟩ := s.edgeCounted_spec k c rising
  generalize s.edgeCounted k c rising = u at *
  rw [htaker] at he
  cases hi : s.evTaker k c with
  | some i =>
    rw [hi] at he
    refine ⟨_, he, hlevel, hcnt, hlcnt, fun j hj => ⟨?_, hgrps⟩, fun h => absurd h (by simp), hreg.parts rfl rfl rfl rfl,
      (hshare.trans ⟨rfl, fun _ h => absurd trivial h⟩).frame⟩
    rw [← Option.some.inj hj]
    refine (u.ev_setEv k k _).trans ((if_pos rfl).trans ?_)
    rw [hev]
    rfl
  | none =>
    rw [hi] at he
    have hoff := (u.evLost k c).offer_grpsShare (0x1E0 + k) (65536 * c + 32768 - s.get (F.EVT_DELAY_DELAY k)) rising true
    obtain ⟨oregs, -, olcnt, -, ostore, oflash, opending⟩ := frame_of_grpsShare hoff
    obtain ⟨lregs, llcnt, lstore, lflash, lpending, lshare⟩ := frame_of_recordShare (u.evLost_recordShare k c)
    have hregs := oregs.trans lregs
    have hshown : edgeShare.Only u (u.lostShown k) :=
      (Share.Only.put (f := F.EVT_IN_LOST_CNT_COUNT k) trivial).trans (.put (f := F.EVT_IN_STATUS_LOST_SEEN k) trivial)
    refine ⟨_, he, ?_, ?_, ?_, fun j hj => absurd hj (by simp), fun _ => ⟨?_, ?_⟩, ?_,
      (((hshare.trans hshown).trans lshare).trans (edgeShare_of_grpsShare hoff)).frame⟩
    · refine (congrArg (fun r => RegTab.bit r (F.EVT_IN_STATUS_LEVEL k)) hregs).trans (Eq.trans ?_ hlevel)
      simp (disch := first | exact .of rfl (by omega) | omega) [State.lostShown, State.flag]
    · refine (congrArg (fun r => RegTab.wide r (R.EVT_IN_EDGE_CNT k) 2 % 2 ^ 48) hregs).trans (Eq.trans ?_ hcnt)
      simp (disch := first | exact .of rfl (by omega) | omega) [State.lostShown, State.edgeCnt, State.getN, R.EVT_IN_EDGE_CNT]
    · exact olcnt.trans (llcnt.trans hlcnt)
    · refine (congrArg (fun r => RegTab.bit r (F.EVT_IN_STATUS_LOST_SEEN k)) hregs).trans ?_
      simp (disch := first | exact .of rfl (by omega) | omega) [State.lostShown]
    · refine (congrArg (fun r => RegTab.fld r (F.EVT_IN_LOST_CNT_COUNT k)) hregs).trans (Eq.trans ?_ (congrArg (fun n => min (n + 1) (2 ^ 32 - 1)) hlost))
      exact (RegTab.fld_setFld_sep _ _ (.of rfl (by omega))).trans (State.get_incSat_width (w := 32) u _ (.of rfl (by omega)) rfl)
    · have hc := (hreg.put (f := F.EVT_IN_LOST_CNT_COUNT k) (v := min (u.get (F.EVT_IN_LOST_CNT_COUNT k) + 1) (2 ^ (F.EVT_IN_LOST_CNT_COUNT k).width - 1))
        (by simp)).put (f := F.EVT_IN_STATUS_LOST_SEEN k) (v := 1) (by simp)
      exact (hc.parts lregs lstore lflash lpending).parts oregs ostore oflash opending

end

end Sys2Proof.Machine
end

section
/-! SUPPORT. Event inputs (R289-R297, R304): what a stamp reaches, and reference codes. -/

namespace Sys2Proof.Machine

open Sys2Proof.Safety

/-! ### What a stamp reaches -/

/-- What a stamp x of input k leaves of its input's record. -/
structure StampUsed (k : Nat) (x : EvStamp) (s t : State) : Prop where
  share : evShare.Only s t
  ip0 : (t.ev k).ip0 = (s.ev k).ip0
  ip1 : (t.ev k).ip1 = (s.ev k).ip1
  fifo : s.evRuns k 1 = true → (s.ev k).lost = none → (s.ev k).fifo.length < 4095 → (t.ev k).fifo.length = (s.ev k).fifo.length + 1
  stamps : s.evRuns k 4 = true → (t.ev k).stamps = (s.ev k).stamps ++ [x]

section
variable (s : State)

/-- A stream takes a stamp, with room for it and no loss pending as one entry. -/
theorem State.evPush_eq (k c : Nat) (x : EvStamp) : ∃ e, s.evPush k c x = s.setEv k e ∧ e.ip0 = (s.ev k).ip0 ∧ e.ip1 = (s.ev k).ip1 ∧
    e.stamps = (s.ev k).stamps ∧ ((s.ev k).lost = none → (s.ev k).fifo.length < 4095 → e.fifo.length = (s.ev k).fifo.length + 1) := by
  unfold State.evPush
  extract_lets e mark
  split
  next hroom =>
    refine ⟨_, rfl, rfl, rfl, rfl, fun hlost _ => ?_⟩
    have hmark : mark = [] := by
      show (match e.lost with | some l => _ | none => _) = _
      rw [hlost]
    simp [hmark, e]
  next hfull => exact ⟨_, rfl, rfl, rfl, rfl, fun _ h => absurd h hfull⟩

theorem State.ev_setEv_same (k : Nat) (x : Ev) : (s.setEv k x).ev k = x := Tab.get_set_same _ _ _ _

theorem State.useStamp_used (k c : Nat) (x : EvStamp) : StampUsed k x s (s.useStamp k c x) := by
  unfold State.useStamp
  extract_lets s1 v s2 e s3
  obtain ⟨e1, he1, h1⟩ : ∃ e1, s1.ev k = e1 ∧ evShare.Only s s1 ∧ e1.ip0 = (s.ev k).ip0 ∧ e1.ip1 = (s.ev k).ip1 ∧ e1.stamps = (s.ev k).stamps ∧
      (s.evRuns k 1 = true → (s.ev k).lost = none → (s.ev k).fifo.length < 4095 → e1.fifo.length = (s.ev k).fifo.length + 1) := by
    obtain ⟨e1, hpush, h0, h1, hst, hfifo⟩ := s.evPush_eq k c x
    cases hrun : s.evRuns k 1 with
    | true =>
      have hs1 : s1 = s.setEv k e1 := (if_pos hrun).trans hpush
      exact ⟨e1, by rw [hs1, s.ev_setEv_same], hs1 ▸ .parts rfl rfl, h0, h1, hst, fun _ => hfifo⟩
    | false =>
      have hs1 : s1 = s := if_neg (by rw [hrun]; decide)
      exact ⟨s.ev k, by rw [hs1], hs1 ▸ .refl _ _, rfl, rfl, rfl, fun h => absurd h (by decide)⟩
  clear_value s1
  obtain ⟨hshare1, h10, h11, hst1, hfifo1⟩ := h1
  obtain ⟨e2, he2, hshare2, h20, h21, hst2, hfifo2⟩ : ∃ e2, s2.ev k = e2 ∧ evShare.Only s1 s2 ∧ e2.ip0 = e1.ip0 ∧ e2.ip1 = e1.ip1 ∧
      (s.evRuns k 4 = true → e2.stamps = e1.stamps ++ [x]) ∧ e2.fifo = e1.fifo := by
    cases hrun : s.evRuns k 4 with
    | true =>
      have hs2 : s2 = s1.setEv k { s1.ev k with stamps := (s1.ev k).stamps ++ [x] } := if_pos hrun
      refine ⟨{ e1 with stamps := e1.stamps ++ [x] }, ?_, hs2 ▸ .parts rfl rfl, rfl, rfl, fun _ => rfl, rfl⟩
      rw [hs2, s1.ev_setEv_same, he1]
    | false =>
      have hs2 : s2 = s1 := if_neg (by rw [hrun]; decide)
      exact ⟨e1, by rw [hs2, he1], hs2 ▸ .refl _ _, rfl, rfl, fun h => absurd h (by decide), rfl⟩
  clear_value s2
  have hs3 : evShare.Only s2 s3 := .parts rfl rfl
  have he3 : s3.ev k = { e with recent := (e.recent ++ [(c, x)]).drop (e.recent.length - 15) } := s2.ev_setEv_same k _
  have hlast : IntervalsOnly s3 ((List.range 8).foldl (fun t j =>
      if (t.evRuns j 2 || t.evRuns j 3) ∧ (j = k ∨ t.get (F.EVT_IN_CTRL_STOP_IN j) = k) then t.settleInt j 4 else t) s3) := by
    refine .foldl _ _ (fun t j => ?_) s3
    split
    · exact t.settleInt_only j 4
    · exact .refl t
  obtain ⟨hshare, hsame⟩ := hlast
  obtain ⟨k0, k1, kf, ks⟩ := hsame k
  have hse : e = e2 := he2
  rw [he3, hse] at k0 k1 kf ks
  exact ⟨((hshare1.trans hshare2).trans hs3).trans hshare, (k0.trans h20).trans h10, (k1.trans h21).trans h11,
    fun hr hl hf => by rw [kf, ← hfifo1 hr hl hf, ← hfifo2], fun hr => by rw [ks]; exact (hst2 hr).trans (by rw [hst1])⟩

/-! ### A stamp -/

/-- What a stamp may change. -/
def stampShare : Share where
  upd s t := { s with free := t.free, lcnt := t.lcnt, regs := t.regs, grps := t.grps, evs := t.evs }
  regs _ := True
  self _ := rfl
  again _ _ _ := rfl

theorem stampShare_of_grpsShare {s t : State} (h : grpsShare.Only s t) : stampShare.Only s t :=
  ⟨stampShare.frame_of h.frame rfl, fun _ h => absurd trivial h⟩

theorem State.fineTerm_drawShare (nm n1 n2 : Nat) : drawShare.Only s (s.fineTerm nm n1 n2).2 := by
  unfold State.fineTerm
  split
  · exact s.draw_drawShare 17
  · exact .refl _ _

theorem State.fineTerm_of_ne {n1 n2 : Nat} (nm : Nat) (h : n1 ≠ n2) :
    (s.fineTerm nm n1 n2).1 = roundDivI (65536 * ((nm : Int) - n1)) ((n2 : Int) - n1) := congrArg Prod.fst (if_neg h)

theorem frame_of_drawShare {s t : State} (h : drawShare.Only s t) : t.regs = s.regs ∧ t.evs = s.evs ∧ t.lcnt = s.lcnt ∧
    t.store = s.store ∧ t.flash = s.flash ∧ t.pending = s.pending :=
  ⟨(congrArg State.regs h.frame).trans rfl, (congrArg State.evs h.frame).trans rfl, (congrArg State.lcnt h.frame).trans rfl,
    (congrArg State.store h.frame).trans rfl, (congrArg State.flash h.frame).trans rfl, (congrArg State.pending h.frame).trans rfl⟩

/-- The interpolator's measurement is taken. -/
def State.stampTaken (s : State) (k i c : Nat) : State :=
  (s.at_ (c + 4)).setEv k ((s.ev k).setIp i { (s.ev k).ip i with meas := none })

/-- The round term of the stamp. -/
def State.stampTerm (s : State) (k i c nm : Nat) : Int × State :=
  (s.stampTaken k i c).fineTerm nm (s.get (F.EVT_INT_CAL_N1 k i)) (s.get (F.EVT_INT_CAL_N2 k i))

/-- The stamp of an edge of core cycle c. -/
def State.stampOf (s : State) (k i c nm : Nat) (rising : Bool) (cnt : Nat) : EvStamp :=
  ⟨(65536 * ((c + 2 : Nat) : Int) - (65536 + (s.stampTerm k i c nm).1) - s.get (F.EVT_DELAY_DELAY k)).toNat, rising, cnt, s.bypassIn c c⟩

/-- The stamp is offered to the trigger. -/
def State.stampOffered (s : State) (k i c nm : Nat) (rising : Bool) (cnt : Nat) : State :=
  (if s.bypassIn c c then (s.stampTerm k i c nm).2.setF (F.EVT_IN_STATUS_BYP_SEEN k) else (s.stampTerm k i c nm).2).offer (0x1E0 + k)
    (s.stampOf k i c nm rising cnt).t rising false

theorem exec_eventStamp {k : Fin 8} {i : Fin 2} {nm : BitVec 14} {c cnt : Nat} {rising : Bool}
    (h : ((s.ev k).ip i).meas = some (c, rising, cnt)) :
    exec (.eventStamp k i nm) s = .next ((s.stampOffered k i c nm.toNat rising cnt).useStamp k c (s.stampOf k i c nm.toNat rising cnt)) := by
  simp only [exec, execEventStamp, h]
  rfl

/-- What is left when the stamp is offered. -/
structure StampOffered (k i c : Nat) (s u : State) : Prop where
  ev : u.ev k = (s.ev k).setIp i { (s.ev k).ip i with meas := none }
  runs : ∀ n, u.evRuns k n = s.evRuns k n
  lcnt : u.lcnt = max s.lcnt (c + 4)
  reg : changesOnly [F.EVT_IN_STATUS_BYP_SEEN k] s u
  share : stampShare.Only s u

theorem State.stampOffered_spec (k i c nm : Nat) (rising : Bool) (cnt : Nat) :
    StampOffered k i c s (s.stampOffered k i c nm rising cnt) := by
  have hterm := (s.stampTaken k i c).fineTerm_drawShare nm (s.get (F.EVT_INT_CAL_N1 k i)) (s.get (F.EVT_INT_CAL_N2 k i))
  have htaken : stampShare.Only s (s.stampTaken k i c) := ⟨rfl, fun _ h => absurd trivial h⟩
  have hdrawn : stampShare.Only s (s.stampTerm k i c nm).2 := htaken.trans ⟨stampShare.frame_of hterm.frame rfl, fun _ h => absurd trivial h⟩
  obtain ⟨hregs, hevs, hlcnt, hstore, hflash, hpending⟩ := frame_of_drawShare hterm
  have hreg : changesOnly [F.EVT_IN_STATUS_BYP_SEEN k] s (s.stampTerm k i c nm).2 :=
    ((changesOnly.refl _ s).parts (u := s.stampTaken k i c) rfl rfl rfl rfl).parts hregs hstore hflash hpending
  unfold State.stampOffered
  change (s.stampTerm k i c nm).2.regs = s.regs at hregs
  change (s.stampTerm k i c nm).2.evs = (s.stampTaken k i c).evs at hevs
  change (s.stampTerm k i c nm).2.lcnt = max s.lcnt (c + 4) at hlcnt
  clear hterm hstore hflash hpending
  generalize (s.stampTerm k i c nm).2 = v at *
  have hu := State.offer_grpsShare (if s.bypassIn c c then v.setF (F.EVT_IN_STATUS_BYP_SEEN k) else v) (0x1E0 + k)
    (s.stampOf k i c nm rising cnt).t rising false
  obtain ⟨oregs, oevs, olcnt, -⟩ := frame_of_grpsShare hu
  have hset : stampShare.Only v (if s.bypassIn c c then v.setF (F.EVT_IN_STATUS_BYP_SEEN k) else v) :=
    .ite (.put (f := F.EVT_IN_STATUS_BYP_SEEN k) trivial) (.refl _ _)
  refine ⟨?_, fun n => ?_, ?_, changesOnly.offer (changesOnly.ite (hreg.put (f := F.EVT_IN_STATUS_BYP_SEEN k) (v := 1) (by simp)) hreg) _ _ _ _,
    (hdrawn.trans hset).trans (stampShare_of_grpsShare hu)⟩
  · have hv : (if s.bypassIn c c then v.setF (F.EVT_IN_STATUS_BYP_SEEN k) else v).evs = v.evs := by split <;> rfl
    rw [State.ev, oevs, hv, hevs]
    exact Tab.get_set_same _ _ _ _
  · unfold State.evRuns State.flag State.get
    rw [oregs]
    split
    · simp (disch := first | exact .of rfl (by omega) | omega) [hregs]
    · rw [hregs]
  · have hv : (if s.bypassIn c c then v.setF (F.EVT_IN_STATUS_BYP_SEEN k) else v).lcnt = v.lcnt := by split <;> rfl
    rw [olcnt, hv, hlcnt]

theorem Ev.ip_setIp (e : Ev) (i : Fin 2) (x : EvIp) : (e.setIp i x).ip i = x := by
  fin_cases i <;> rfl

theorem Ev.setIp_other (e : Ev) (i : Nat) (x : EvIp) : (e.setIp i x).lost = e.lost ∧ (e.setIp i x).fifo = e.fifo ∧ (e.setIp i x).stamps = e.stamps := by
  unfold Ev.setIp
  split <;> exact ⟨rfl, rfl, rfl⟩

theorem Ev.ip_congr {a b : Ev} (h0 : b.ip0 = a.ip0) (h1 : b.ip1 = a.ip1) (i : Nat) : b.ip i = a.ip i := by
  unfold Ev.ip
  rw [h0, h1]

theorem eventStamp_effect {k : Fin 8} {i : Fin 2} {nm : BitVec 14} {c cnt : Nat} {rising : Bool}
    (h : ((s.ev k).ip i).meas = some (c, rising, cnt)) : ∃ t, exec (.eventStamp k i nm) s = .next t ∧
      t.lcnt = max s.lcnt (c + 4) ∧ ((t.ev k).ip i).meas = none ∧
      (s.evRuns k 1 = true → (s.ev k).lost = none → (s.ev k).fifo.length < 4095 →
        (t.ev k).fifo.length = (s.ev k).fifo.length + 1) ∧
      (s.evRuns k 4 = true → s.get (F.EVT_INT_CAL_N1 k i) ≠ s.get (F.EVT_INT_CAL_N2 k i) → ∃ x : EvStamp,
        (t.ev k).stamps = (s.ev k).stamps ++ [x] ∧ x.rising = rising ∧ x.cnt = cnt ∧
        x.t = (65536 * ((c + 2 : Nat) : Int) - (65536 + roundDivI (65536 * ((nm.toNat : Int) - s.get (F.EVT_INT_CAL_N1 k i)))
          ((s.get (F.EVT_INT_CAL_N2 k i) : Int) - s.get (F.EVT_INT_CAL_N1 k i))) - s.get (F.EVT_DELAY_DELAY k)).toNat) ∧
      changesOnly [F.EVT_IN_STATUS_BYP_SEEN k] s t ∧
      t = { s with free := t.free, lcnt := t.lcnt, regs := t.regs, grps := t.grps, evs := t.evs } := by
  have he := exec_eventStamp s (nm := nm) h
  obtain ⟨hev, hruns, hlcnt, hreg, hshare⟩ := s.stampOffered_spec k i c nm.toNat rising cnt
  have hused := (s.stampOffered k i c nm.toNat rising cnt).useStamp_used k c (s.stampOf k i c nm.toNat rising cnt)
  generalize (s.stampOffered k i c nm.toNat rising cnt).useStamp k c (s.stampOf k i c nm.toNat rising cnt) = t at he hused
  generalize s.stampOffered k i c nm.toNat rising cnt = u at *
  obtain ⟨ushare, u0, u1, ufifo, ustamps⟩ := hused
  obtain ⟨hl, hf, hs⟩ := (s.ev k).setIp_other i { (s.ev k).ip i with meas := none }
  have hframe := ushare.frame
  have hregs : t.regs = u.regs := (congrArg State.regs hframe).trans rfl
  refine ⟨t, he, ((congrArg State.lcnt hframe).trans rfl).trans hlcnt, ?_, fun hr hlost hroom => ?_,
    fun hr hne => ⟨s.stampOf k i c nm.toNat rising cnt, ?_, rfl, rfl, ?_⟩,
    hreg.parts hregs ((congrArg State.store hframe).trans rfl) ((congrArg State.flash hframe).trans rfl) ((congrArg State.pending hframe).trans rfl),
    (hshare.trans ⟨stampShare.frame_of hframe rfl, fun _ h => absurd trivial h⟩).frame⟩
  · rw [Ev.ip_congr u0 u1, hev, Ev.ip_setIp]
  · rw [ufifo ((hruns 1).trans hr) (by rw [hev, hl, hlost]) (by rw [hev, hf]; exact hroom), hev, hf]
  · rw [ustamps ((hruns 4).trans hr), hev, hs]
  · rw [State.stampOf, State.stampTerm, State.fineTerm_of_ne _ _ hne]

/-! ### Reference codes (R290, R291) -/

/-- The codes are published. -/
def State.refsShown (s : State) (k i n1 n2 : Nat) : State := (s.put (F.EVT_INT_CAL_N1 k i) n1).put (F.EVT_INT_CAL_N2 k i) n2

/-- The codes of R291 that fail an event interpolator. -/
def evBad (n1 n2 : Nat) : Bool :=
  decide (n1 + 450 < 6000) || decide (6450 < n1) || decide (n2 < n1 + 5550) || decide (n1 + 6450 < n2) || n2 == 16383

theorem State.evRefs_eq (k i n1 n2 : Nat) :
    s.evRefs k i n1 n2 = if evBad n1 n2 then (s.refsShown k i n1 n2).evIntFail k i else s.refsShown k i n1 n2 := rfl

/-- An interpolator that fails is marked, and its codes stay. -/
theorem State.evIntFail_effect {k i : Nat} (hk : k < 8) (hi : i < 2) : (s.evIntFail k i).flag (F.EVT_INT_CAL_FAILED k i) = true ∧
    (s.evIntFail k i).get (F.EVT_INT_CAL_N1 k i) = s.get (F.EVT_INT_CAL_N1 k i) ∧
    (s.evIntFail k i).get (F.EVT_INT_CAL_N2 k i) = s.get (F.EVT_INT_CAL_N2 k i) ∧ (s.evIntFail k i).lcnt = s.lcnt := by
  unfold State.evIntFail
  split
  next h => exact ⟨h, rfl, rfl, rfl⟩
  next =>
    extract_lets s2 e s3
    split
    all_goals
      refine ⟨?_, ?_, ?_, ?_⟩
      all_goals
        simp (disch := first | exact .of rfl (by omega) | omega) [State.flag, State.get, s3, s2, State.setEv, State.setF, State.clrF]

end

/-- What an edge that no slope selects changes. -/
def levelShare : Share where
  upd s t := { s with lcnt := t.lcnt, regs := t.regs, grps := t.grps }
  regs _ := True
  self _ := rfl
  again _ _ _ := rfl

theorem levelShare_of_grpsShare {s t : State} (h : grpsShare.Only s t) : levelShare.Only s t :=
  ⟨levelShare.frame_of h.frame rfl, fun _ h => absurd trivial h⟩

/-- The core cycle of a calibration run. -/
def State.evCalCycle (s : State) (i : Nat) : Nat :=
  let ofs := if i = 0 then 0 else 1024
  let grid := if s.lcnt ≤ ofs then ofs else roundUp (s.lcnt - ofs) tickLen + ofs
  match s.clk.gap.2 with
  | some e => if s.lcnt ≤ e ∧ e < grid then e else grid
  | none => grid

/-- The interpolator takes no edge for ten core cycles. -/
def State.evCalHeld (s : State) (k i : Nat) : State :=
  (s.at_ (s.evCalCycle i)).setEv k ((s.ev k).setIp i { (s.ev k).ip i with readyAt := max ((s.ev k).ip i).readyAt (s.evCalCycle i + 10) })

theorem exec_eventInterpCalRun (s : State) (k : Fin 8) (i : Fin 2) (n1 n2 : BitVec 14) :
    exec (.eventInterpCalRun k i n1 n2) s = .next ((s.evCalHeld k i).evRefs k i n1.toNat n2.toNat) := rfl

theorem eventInterpCalRun_effect (k : Fin 8) (i : Fin 2) (n1 n2 : BitVec 14) (s : State) : ∃ t, exec (.eventInterpCalRun k i n1 n2) s = .next t ∧
    t.get (F.EVT_INT_CAL_N1 k i) = n1.toNat ∧ t.get (F.EVT_INT_CAL_N2 k i) = n2.toNat ∧ s.lcnt ≤ t.lcnt ∧
    (6000 ≤ n1.toNat + 450 → n1.toNat ≤ 6450 → n1.toNat + 5550 ≤ n2.toNat → n2.toNat ≤ n1.toNat + 6450 → n2.toNat ≠ 16383 →
      changesOnly [F.EVT_INT_CAL_N1 k i, F.EVT_INT_CAL_N2 k i] s t ∧ t = { s with lcnt := t.lcnt, regs := t.regs, evs := t.evs }) ∧
    (n2.toNat = 16383 → t.flag (F.EVT_INT_CAL_FAILED k i) = true) ∧ memSame s t := by
  have he := exec_eventInterpCalRun s k i n1 n2
  have hmem := memSame_of_mem (execEventInterpCalRun_mem k i n1 n2 s _ he)
  rw [State.evRefs_eq] at he hmem
  have h1 : n1.toNat < 2 ^ 14 := n1.isLt
  have h2 : n2.toNat < 2 ^ 14 := n2.isLt
  generalize n1.toNat = a at *
  generalize n2.toNat = b at *
  have hlcnt : s.lcnt ≤ (s.evCalHeld k i).lcnt := Nat.le_max_left _ _
  have hreg : changesOnly [F.EVT_INT_CAL_N1 k i, F.EVT_INT_CAL_N2 k i] s ((s.evCalHeld k i).refsShown k i a b) :=
    (((changesOnly.refl _ s).parts (u := s.evCalHeld k i) rfl rfl rfl rfl).put (f := F.EVT_INT_CAL_N1 k i) (by simp)).put
      (f := F.EVT_INT_CAL_N2 k i) (by simp)
  have hframe : (s.evCalHeld k i).refsShown k i a b = { s with
      lcnt := ((s.evCalHeld k i).refsShown k i a b).lcnt
      regs := ((s.evCalHeld k i).refsShown k i a b).regs
      evs := ((s.evCalHeld k i).refsShown k i a b).evs } := rfl
  have hn1 : ((s.evCalHeld k i).refsShown k i a b).get (F.EVT_INT_CAL_N1 k i) = a :=
    (RegTab.fld_setFld_sep _ _ (.of rfl (by omega))).trans ((RegTab.fld_setFld_self _ _ (.of rfl (by omega))).trans (Nat.mod_eq_of_lt h1))
  have hn2 : ((s.evCalHeld k i).refsShown k i a b).get (F.EVT_INT_CAL_N2 k i) = b :=
    (RegTab.fld_setFld_self _ _ (.of rfl (by omega))).trans (Nat.mod_eq_of_lt h2)
  have hl : ((s.evCalHeld k i).refsShown k i a b).lcnt = (s.evCalHeld k i).lcnt := rfl
  generalize (s.evCalHeld k i).refsShown k i a b = u at *
  obtain ⟨hfail, f1, f2, fl⟩ := u.evIntFail_effect k.isLt i.isLt
  cases hbad : evBad a b with
  | true =>
    rw [hbad, if_pos rfl] at he hmem
    refine ⟨_, he, f1.trans hn1, f2.trans hn2, by rw [fl, hl]; exact hlcnt, fun g1 g2 g3 g4 g5 => absurd hbad ?_, fun _ => hfail, hmem⟩
    simp only [evBad, Bool.or_eq_true, decide_eq_true_eq, beq_iff_eq]
    omega
  | false =>
    rw [hbad, if_neg Bool.false_ne_true] at he hmem
    refine ⟨_, he, hn1, hn2, by rw [hl]; exact hlcnt, fun _ _ _ _ _ => ⟨hreg, hframe⟩, fun g => absurd hbad ?_, hmem⟩
    simp [evBad, g]

/-- Settles O42. -/
theorem eventEdgesGetTheirStamps : Obligations.EventEdgesGetTheirStamps := by
  unfold Obligations.EventEdgesGetTheirStamps
  refine ⟨fun k c rising s => ⟨fun hen => congrArg Host.Outcome.next (if_pos hen), fun hen hslope hsel => eventEdge_effect s k c rising hen hslope hsel,
      fun hen hslope => ?_⟩,
    fun k i nm s => ⟨fun h => ?_, fun c rising cnt h => eventStamp_effect s h⟩, fun k i n1 n2 s => eventInterpCalRun_effect k i n1 n2 s⟩
  · have he : exec (.eventEdge k c rising) s = .next ((s.edgeSeen k c rising).edgeOffered s k c rising) :=
      congrArg Host.Outcome.next ((if_neg (by rw [hen]; decide)).trans (if_pos hslope))
    have hoff := (s.edgeSeen k c rising).offer_grpsShare (0x1E0 + k) (65536 * c + 32768 - s.get (F.EVT_DELAY_DELAY k)) rising true
    have hshown : levelShare.Only s (s.edgeSeen k c rising) := ⟨rfl, fun _ h => absurd trivial h⟩
    have hseen : changesOnly [F.EVT_IN_STATUS_LEVEL k] s (s.edgeSeen k c rising) :=
      ((changesOnly.refl _ s).parts (u := s.at_ c) rfl rfl rfl rfl).put (by simp)
    exact ⟨_, he, (congrArg (fun r => RegTab.bit r (F.EVT_IN_STATUS_LEVEL k)) (frame_of_grpsShare hoff).1).trans
      (RegTab.bit_setFld_ite _ (.of rfl (by omega)) rising), changesOnly.offer hseen _ _ _ _,
      (hshown.trans (levelShare_of_grpsShare hoff)).frame⟩
  · simp only [exec, execEventStamp, h]

end Sys2Proof.Machine
end

section
/-! SUPPORT. Event inputs (R301-R308): results are published and read. -/

namespace Sys2Proof.Machine

open Sys2Proof.Safety

/-! ### Publication -/

/-- The registers alone. -/
def regsShare : Share where
  upd s t := { s with regs := t.regs }
  regs _ := True
  self _ := rfl
  again _ _ _ := rfl

theorem State.put_regsShare (s : State) (f : Fld) (v : Nat) : regsShare.Only s (s.put f v) := .put trivial

theorem State.putN_regsShare (s : State) (off n v : Nat) : regsShare.Only s (s.putN off n v) := .putN fun _ _ _ => trivial

/-- What the publication of a result may change. -/
def resultFlds (k : Nat) : List Fld :=
  [F.EVT_IN_STATUS_RUN k, F.EVT_IN_STATUS_READY k, F.EVT_IN_OVR_CNT_COUNT k, F.EVT_IN_STATUS_OVERRUN k] ++ wideFlds (R.EVT_RES k) 16

/-- A block is published on input k. -/
structure Published (k v : Nat) (s t : State) : Prop where
  block : t.getN (R.EVT_RES k) 16 = (v + (s.get (F.EVT_RES_SEQ k) + 1) % 2 ^ 32) % 2 ^ 512
  ready : t.flag (F.EVT_IN_STATUS_READY k) = true
  run : t.flag (F.EVT_IN_STATUS_RUN k) = s.flag (F.EVT_IN_STATUS_RUN k)
  overrun : s.flag (F.EVT_IN_STATUS_READY k) = true → t.flag (F.EVT_IN_STATUS_OVERRUN k) = true ∧
    t.get (F.EVT_IN_OVR_CNT_COUNT k) = min (s.get (F.EVT_IN_OVR_CNT_COUNT k) + 1) (2 ^ 32 - 1)
  reg : changesOnly (resultFlds k) s t
  frame : t = { s with regs := t.regs }

section
variable (s : State)

/-- An unread result is counted as overrun. -/
def State.overrunShown (s : State) (k : Nat) : State :=
  if s.flag (F.EVT_IN_STATUS_READY k) then (s.incSat (F.EVT_IN_OVR_CNT_COUNT k)).setF (F.EVT_IN_STATUS_OVERRUN k) else s

theorem State.evPublish_eq (k v : Nat) : s.evPublish k v =
    ((s.overrunShown k).putN (R.EVT_RES k) 16 (v + (s.get (F.EVT_RES_SEQ k) + 1) % 2 ^ 32)).setF (F.EVT_IN_STATUS_READY k) := rfl

theorem State.getN_setF_beside {f : Fld} {off n : Nat} (u : State) (h : RegTab.Beside f off n) : (u.setF f).getN off n = u.getN off n :=
  RegTab.wide_setFld_beside _ _ h

theorem State.getN_putN_mod {n m : Nat} (u : State) (off x : Nat) (h : 32 * n = m) : (u.putN off n x).getN off n = x % 2 ^ m :=
  h ▸ State.getN_putN u off n x

theorem State.evPublish_published (k v : Nat) : Published k v s (s.evPublish k v) := by
  have hreg : changesOnly (resultFlds k) s (s.overrunShown k) :=
    .ite (((changesOnly.refl _ s).put (f := F.EVT_IN_OVR_CNT_COUNT k) (by simp [resultFlds])).put (f := F.EVT_IN_STATUS_OVERRUN k) (v := 1)
      (by simp [resultFlds])) (.refl _ s)
  have hframe : s.overrunShown k = { s with regs := (s.overrunShown k).regs } := by
    unfold State.overrunShown
    split <;> rfl
  have hrun : (s.overrunShown k).flag (F.EVT_IN_STATUS_RUN k) = s.flag (F.EVT_IN_STATUS_RUN k) := by
    unfold State.overrunShown
    split
    · simp (disch := first | exact .of rfl (by omega) | omega) [State.flag]
    · rfl
  have hover : s.flag (F.EVT_IN_STATUS_READY k) = true → (s.overrunShown k).flag (F.EVT_IN_STATUS_OVERRUN k) = true ∧
      (s.overrunShown k).get (F.EVT_IN_OVR_CNT_COUNT k) = min (s.get (F.EVT_IN_OVR_CNT_COUNT k) + 1) (2 ^ 32 - 1) := fun h => by
    rw [State.overrunShown, if_pos h]
    exact ⟨RegTab.bit_setFld_one _ (.of rfl (by omega)), (RegTab.fld_setFld_sep _ _ (.of rfl (by omega))).trans
      (State.get_incSat_width (w := 32) s _ (.of rfl (by omega)) rfl)⟩
  rw [s.evPublish_eq k v]
  generalize s.overrunShown k = u at *
  generalize hx : v + (s.get (F.EVT_RES_SEQ k) + 1) % 2 ^ 32 = x
  refine ⟨?_, RegTab.bit_setFld_one _ (.of rfl (by omega)), ?_, fun h => ⟨?_, ?_⟩,
    (hreg.putN (fun _ h => List.mem_append_right _ h)).put (f := F.EVT_IN_STATUS_READY k) (v := 1) (by simp [resultFlds]), ?_⟩
  · have hget : (u.putN (R.EVT_RES k) 16 x).getN (R.EVT_RES k) 16 = x % 2 ^ 512 := State.getN_putN_mod (n := 16) (m := 512) u (R.EVT_RES k) x rfl
    rw [hx]
    exact (State.getN_setF_beside _ (.of rfl (by simp only [R.EVT_RES]; omega))).trans hget
  · refine Eq.trans ?_ hrun
    simp (disch := first | exact .of rfl (by omega) | omega) [State.flag, R.EVT_RES]
  · refine Eq.trans ?_ (hover h).1
    simp (disch := first | exact .of rfl (by omega) | omega) [State.flag, R.EVT_RES]
  · refine Eq.trans ?_ (hover h).2
    simp (disch := first | exact .of rfl (by omega) | omega) [State.get, R.EVT_RES]
  · have hu : regsShare.Only s u := ⟨hframe, fun _ h => absurd trivial h⟩
    exact ((hu.trans (u.putN_regsShare _ _ _)).trans (State.put_regsShare _ _ _)).frame

theorem frame_of_published {k v : Nat} {s t : State} (h : Published k v s t) : t.evs = s.evs ∧ t.lcnt = s.lcnt :=
  ⟨(congrArg State.evs h.frame).trans rfl, (congrArg State.lcnt h.frame).trans rfl⟩

/-! ### Intervals and statistics (R301, R302) -/

/-- What a result's publication changes. -/
def resultShare : Share where
  upd s t := { s with lcnt := t.lcnt, regs := t.regs, evs := t.evs }
  regs _ := True
  self _ := rfl
  again _ _ _ := rfl

theorem resultShare_of_published {k v : Nat} {s t : State} (h : Published k v s t) : resultShare.Only s t :=
  ⟨resultShare.frame_of h.frame rfl, fun _ h => absurd trivial h⟩

/-- The oldest result leaves the list of those that wait. -/
def State.resultTaken (s : State) (k c : Nat) (rest : List (Nat × Nat)) : State := (s.at_ c).setEv k { s.ev k with results := rest }

theorem State.evResult_eq {k : Nat} {r : Nat × Nat} {rest : List (Nat × Nat)} (h : (s.ev k).results = r :: rest) :
    s.evResult k = if (s.ev k).ready ∧ rest = [] then ((s.resultTaken k r.1 rest).evPublish k r.2).clrF (F.EVT_IN_STATUS_RUN k)
      else (s.resultTaken k r.1 rest).evPublish k r.2 := by
  unfold State.evResult
  dsimp only
  rw [h]
  rfl

theorem evResult_effect (k : Nat) (r : Nat × Nat) (rest : List (Nat × Nat)) (h : (s.ev k).results = r :: rest) :
    ((s.evResult k).ev k).results = rest ∧ (s.evResult k).lcnt = max s.lcnt r.1 ∧
      (s.evResult k).getN (R.EVT_RES k) 16 = (r.2 + (s.get (F.EVT_RES_SEQ k) + 1) % 2 ^ 32) % 2 ^ 512 ∧
      (s.evResult k).flag (F.EVT_IN_STATUS_READY k) = true ∧
      (s.flag (F.EVT_IN_STATUS_READY k) = true → (s.evResult k).flag (F.EVT_IN_STATUS_OVERRUN k) = true ∧
        (s.evResult k).get (F.EVT_IN_OVR_CNT_COUNT k) = min (s.get (F.EVT_IN_OVR_CNT_COUNT k) + 1) (2 ^ 32 - 1)) ∧
      ((s.ev k).ready = true → rest = [] → (s.evResult k).flag (F.EVT_IN_STATUS_RUN k) = false) ∧
      changesOnly (resultFlds k) s (s.evResult k) ∧ resultShare.Only s (s.evResult k) := by
  rw [s.evResult_eq h]
  have hpub := (s.resultTaken k r.1 rest).evPublish_published k r.2
  have htaken : resultShare.Only s (s.resultTaken k r.1 rest) := ⟨rfl, fun _ h => absurd trivial h⟩
  have hreg := (changesOnly.refl (resultFlds k) s).parts (u := s.resultTaken k r.1 rest) rfl rfl rfl rfl
  have hev : ((s.resultTaken k r.1 rest).ev k).results = rest := congrArg Ev.results (State.ev_setEv_same _ _ _)
  have hseq : (s.resultTaken k r.1 rest).get (F.EVT_RES_SEQ k) = s.get (F.EVT_RES_SEQ k) := rfl
  have hready : (s.resultTaken k r.1 rest).flag (F.EVT_IN_STATUS_READY k) = s.flag (F.EVT_IN_STATUS_READY k) := rfl
  have hcnt : (s.resultTaken k r.1 rest).get (F.EVT_IN_OVR_CNT_COUNT k) = s.get (F.EVT_IN_OVR_CNT_COUNT k) := rfl
  have hlcnt : (s.resultTaken k r.1 rest).lcnt = max s.lcnt r.1 := rfl
  generalize (s.resultTaken k r.1 rest).evPublish k r.2 = t at *
  generalize s.resultTaken k r.1 rest = u at *
  obtain ⟨tevs, tlcnt⟩ := frame_of_published hpub
  have hshare := htaken.trans (resultShare_of_published hpub)
  obtain ⟨hblock, hrdy, hrun, hover, hreg', -⟩ := hpub
  rw [hseq] at hblock
  rw [hready, hcnt] at hover
  split
  next hlast =>
    refine ⟨?_, tlcnt.trans hlcnt, ?_, ?_, fun hr => ⟨?_, ?_⟩, fun _ _ => RegTab.bit_setFld_zero _ (.of rfl (by omega)),
      (hreg.trans hreg').put (by simp [resultFlds]), hshare.trans (.put (f := F.EVT_IN_STATUS_RUN k) (v := 0) trivial)⟩
    · exact (congrArg (fun e => (Tab.get Ev.init e k).results) tevs).trans hev
    · exact (RegTab.wide_setFld_beside _ _ (.of rfl (by simp only [R.EVT_RES]; omega))).trans hblock
    · exact (RegTab.bit_setFld_sep _ _ (.of rfl (by omega))).trans hrdy
    · exact (RegTab.bit_setFld_sep _ _ (.of rfl (by omega))).trans (hover hr).1
    · exact (RegTab.fld_setFld_sep _ _ (.of rfl (by omega))).trans (hover hr).2
  next hmore =>
    exact ⟨(congrArg (fun e => (Tab.get Ev.init e k).results) tevs).trans hev, tlcnt.trans hlcnt, hblock, hrdy, hover,
      fun h1 h2 => absurd ⟨h1, h2⟩ hmore, hreg.trans hreg', hshare⟩

theorem State.evResult_of_none {k : Nat} (h : (s.ev k).results = []) : s.evResult k = s := by
  unfold State.evResult
  dsimp only
  rw [h]

/-! ### The gate's end (R304-R306) -/

/-- The end of a gate: the core cycle after it. -/
def State.gateEnd (s : State) (k : Nat) : Nat :=
  (s.ev k).b + 16 + (s.ev k).gate * (s.getN (R.EVT_IN_GATE k) 2 % 2 ^ 40) + s.getN (R.EVT_IN_GATE k) 2 % 2 ^ 40

/-- What a gate's end changes. -/
def gateShare : Share where
  upd s t := { s with free := t.free, lcnt := t.lcnt, regs := t.regs, evs := t.evs }
  regs _ := True
  self _ := rfl
  again _ _ _ := rfl

theorem gateShare_of_drawShare {s t : State} (h : drawShare.Only s t) : gateShare.Only s t :=
  ⟨gateShare.frame_of h.frame rfl, fun _ h => absurd trivial h⟩

theorem gateShare_of_published {k v : Nat} {s t : State} (h : Published k v s t) : gateShare.Only s t :=
  ⟨gateShare.frame_of h.frame rfl, fun _ h => absurd trivial h⟩

theorem exec_freqGateEnd {k : Fin 8} (h : s.evRuns k 4 = true) : ∃ v u e, drawShare.Only (s.at_ (s.gateEnd k - 1 + 64)) u ∧
    e.gate = (s.ev k).gate + 1 ∧ e.stamps = (s.ev k).stamps.filter (fun x => decide (s.gateEnd k ≤ x.t / 65536)) ∧
    exec (.freqGateEnd k) s = .next (if s.flag (F.EVT_IN_CTRL_CONT k) then (u.setEv k e).evPublish k v
      else ((u.setEv k e).evPublish k v).clrF (F.EVT_IN_STATUS_RUN k)) :=
  ⟨_, _, _, State.freqBlock_drawShare _ _ _ _ _, rfl, rfl, congrArg Host.Outcome.next (if_pos h)⟩

theorem ev_of_published {k v : Nat} {s t : State} (h : Published k v s t) (j : Nat) : t.ev j = s.ev j :=
  congrArg (fun e => Tab.get Ev.init e j) (frame_of_published h).1

theorem lcnt_of_published {k v : Nat} {s t : State} (h : Published k v s t) : t.lcnt = s.lcnt := (frame_of_published h).2

theorem freqGateEnd_effect {k : Fin 8} {s : State} (h : s.evRuns k 4 = true) (g1 : Nat) (hg : g1 = s.gateEnd k) :
    ∃ t, exec (.freqGateEnd k) s = .next t ∧ t.lcnt = max s.lcnt (g1 - 1 + 64) ∧ (t.ev k).gate = (s.ev k).gate + 1 ∧
      (t.ev k).stamps = (s.ev k).stamps.filter (fun x => decide (g1 ≤ x.t / 65536)) ∧
      t.flag (F.EVT_IN_STATUS_READY k) = true ∧ t.flag (F.EVT_IN_STATUS_RUN k) = s.flag (F.EVT_IN_CTRL_CONT k) ∧
      (∀ j : Nat, j ≠ k → t.ev j = s.ev j) ∧ changesOnly (resultFlds k) s t ∧ gateShare.Only s t := by
  subst hg
  obtain ⟨v, u, e, hu, hgate, hstamps, hexec⟩ := exec_freqGateEnd s h
  have hrun : s.flag (F.EVT_IN_STATUS_RUN k) = true := (Bool.and_eq_true_iff.mp h).1
  obtain ⟨w, hw⟩ : ∃ w, (u.setEv k e).evPublish k v = w := ⟨_, rfl⟩
  have hpub := (u.setEv k e).evPublish_published k v
  rw [hw] at hexec hpub
  have hat : gateShare.Only s (s.at_ (s.gateEnd k - 1 + 64)) := ⟨rfl, fun _ h => absurd trivial h⟩
  have hset : gateShare.Only u (u.setEv k e) := ⟨rfl, fun _ h => absurd trivial h⟩
  have hshare : gateShare.Only s w := ((hat.trans (gateShare_of_drawShare hu)).trans hset).trans (gateShare_of_published hpub)
  have hregs : u.regs = s.regs := (congrArg State.regs hu.frame).trans rfl
  have hlcnt : w.lcnt = max s.lcnt (s.gateEnd k - 1 + 64) := (lcnt_of_published hpub).trans ((congrArg State.lcnt hu.frame).trans rfl)
  have hself : w.ev k = e := (ev_of_published hpub k).trans (State.ev_setEv_same _ _ _)
  have hother : ∀ j : Nat, j ≠ k → w.ev j = s.ev j := fun j hj =>
    (ev_of_published hpub j).trans ((State.ev_setEv u k j e).trans ((if_neg hj).trans (ev_of_drawShare hu j)))
  have hwrun : w.flag (F.EVT_IN_STATUS_RUN k) = true := hpub.run.trans ((congrArg (fun r => RegTab.bit r _) hregs).trans hrun)
  have hreg : changesOnly (resultFlds k) s w :=
    ((changesOnly.refl _ s).parts (u := u.setEv k e) hregs ((congrArg State.store hu.frame).trans rfl)
      ((congrArg State.flash hu.frame).trans rfl) ((congrArg State.pending hu.frame).trans rfl)).trans hpub.reg
  have hready := hpub.ready
  clear hpub hu hset
  cases hc : s.flag (F.EVT_IN_CTRL_CONT k) with
  | true =>
    exact ⟨w, hexec.trans (congrArg Host.Outcome.next (if_pos hc)), hlcnt, hself ▸ hgate, hself ▸ hstamps, hready, hwrun, hother, hreg, hshare⟩
  | false =>
    refine ⟨w.clrF (F.EVT_IN_STATUS_RUN k), hexec.trans (congrArg Host.Outcome.next (if_neg (by rw [hc]; decide))), hlcnt, ?_, ?_,
      (RegTab.bit_setFld_sep _ _ (.of rfl (by omega))).trans hready, RegTab.bit_setFld_zero _ (.of rfl (by omega)), hother,
      hreg.put (by simp [resultFlds]), hshare.trans (.put (f := F.EVT_IN_STATUS_RUN k) (v := 0) trivial)⟩
    · exact (congrArg Ev.gate hself).trans hgate
    · exact (congrArg Ev.stamps hself).trans hstamps

/-! ### Reads (R308) -/

theorem spotAt_evtRes : ∀ k : Fin 8, spotAt (R.EVT_RES k) = some (0, 16) := by decide +kernel

theorem State.answer_evtRes (s : State) {fn : Fin 64} (k : Fin 8) (hfn : fn = 0) :
    s.answer fn (R.EVT_RES k) = (s.evRead fn k).emit (.read fn (R.EVT_RES k) [s.word (R.EVT_RES k)]) := by
  have hsees : s.sees fn (R.EVT_RES k) = true := if_pos (by rw [hfn]; rfl)
  have hread : s.readWord fn (R.EVT_RES k) = (s.word (R.EVT_RES k), s.evRead fn k) := by
    have hk : (R.EVT_RES k - R.EVT_RES 0) / 0x100 = k := by
      simp only [R.EVT_RES]
      omega
    simp only [State.readWord, hsees, spotAt_evtRes k, hk, Bool.true_eq_false, if_false]
    rw [if_neg (by simp only [R.EVT_RES, R.TIME_TXQ]; omega), if_neg (by simp only [R.EVT_RES, R.LOG_RD]; omega),
      if_neg (by simp only [R.EVT_RES, R.LOG_FIRST, R.LOG_LAST_ERR]; omega)]
  exact State.answer_of_readWord hread

/-- A result's words that a read of its first one latches. -/
def State.resultLatched (s : State) (fn k : Nat) : State :=
  s.latchWords fn (R.EVT_RES k + 4) 15 (s.getN (R.EVT_RES k) 16 / 4294967296)

theorem State.resultLatched_frame (s : State) (fn k : Nat) :
    s.resultLatched fn k = { s with latch := (s.resultLatched fn k).latch } := State.latchWords_frame _ _ _ _ _

theorem State.latch_resultLatched (s : State) (fn k i : Nat) (h : i < 15) :
    Tab.get 0 (s.resultLatched fn k).latch (latchKey fn (R.EVT_RES k + 4 * (i + 1))) = s.word (R.EVT_RES k + 4 * (i + 1)) := by
  have hi : R.EVT_RES k + 4 * (i + 1) = R.EVT_RES k + 4 + 4 * i := by omega
  have hdiv : s.getN (R.EVT_RES k) 16 / 4294967296 / 2 ^ (32 * i) = s.getN (R.EVT_RES k) 16 / 2 ^ (32 * (i + 1)) := by
    rw [Nat.div_div_eq_div_mul, Nat.mul_succ, Nat.pow_add, Nat.mul_comm (2 ^ (32 * i))]
  rw [State.resultLatched, hi, State.latchWords_at fn 15 s _ _ i h, hdiv, ← hi]
  exact s.regs.ofNat_wide 16 (R.EVT_RES k) (i + 1) (by omega)

theorem evtResRead_effect (fn : Fin 64) (k : Fin 8) (s : State) (hfn : fn = 0) : ∃ t, exec (.evtResRead fn k) s = .next t ∧
    t.out = .read fn (R.EVT_RES k) [s.word (R.EVT_RES k)] :: s.out ∧ t.flag (F.EVT_IN_STATUS_READY k) = false ∧
    (∀ i : Fin 15, Tab.get 0 t.latch (latchKey fn (R.EVT_RES k + 4 * (i + 1))) = s.word (R.EVT_RES k + 4 * (i + 1))) ∧
    changesOnly [F.EVT_IN_STATUS_READY k] s t ∧ t = { s with out := t.out, regs := t.regs, latch := t.latch } := by
  refine ⟨_, congrArg Host.Outcome.next (s.answer_evtRes k hfn), ?_⟩
  have hlatch := fun i : Fin 15 => s.latch_resultLatched fn k i i.isLt
  have hread : s.evRead fn k = (s.resultLatched fn k).clrF (F.EVT_IN_STATUS_READY k) := rfl
  have hframe := s.resultLatched_frame fn k
  rw [hread]
  generalize s.resultLatched fn k = u at *
  have hregs : u.regs = s.regs := (congrArg State.regs hframe).trans rfl
  refine ⟨congrArg (_ :: ·) ((congrArg State.out hframe).trans rfl), RegTab.bit_setFld_zero _ (.of rfl (by omega)), hlatch, ?_, ?_⟩
  · exact (((changesOnly.refl _ s).parts hregs ((congrArg State.store hframe).trans rfl) ((congrArg State.flash hframe).trans rfl)
      ((congrArg State.pending hframe).trans rfl)).put (f := F.EVT_IN_STATUS_READY k) (v := 0) (by simp)).parts rfl rfl rfl rfl
  · obtain ⟨l, hl⟩ : ∃ l, u = { s with latch := l } := ⟨_, hframe⟩
    subst hl
    rfl

/-- Settles O44: the oldest waiting result is published as `evResult_effect` says, a gate's end as `freqGateEnd_effect` says, and a
read answers word 0, latches the other fifteen and clears READY. -/
theorem eventResultsArePublishedAndRead : Obligations.EventResultsArePublishedAndRead := by
  refine ⟨?_, ?_, ?_, fun k s h => congrArg Host.Outcome.next (if_neg (by rw [h]; decide)), ?_, evtResRead_effect⟩
  · intro k c r rest s hc hres
    obtain ⟨h1, h2, h3, h4, h5, h6, h7, h8⟩ := evResult_effect s k r rest hres
    refine ⟨s.evResult k, ?_, h1, h2, h3, h4, h5, h6, h7, h8.frame⟩
    obtain ⟨rfl, hfunc⟩ | ⟨rfl, hfunc⟩ := hc
    · exact congrArg Host.Outcome.next (if_pos hfunc)
    · exact congrArg Host.Outcome.next (if_pos hfunc)
  · intro k s h
    have hnone := s.evResult_of_none h
    exact ⟨congrArg Host.Outcome.next ((congrArg (ite _ · s) hnone).trans (ite_self s)), congrArg Host.Outcome.next ((congrArg (ite _ · s) hnone).trans (ite_self s))⟩
  · intro k g1 s h hg
    obtain ⟨t, h1, h2, h3, h4, h5, h6, h7, h8, h9⟩ := freqGateEnd_effect h g1 hg
    exact ⟨t, h1, h2, h3, h4, h5, h6, h7, h8, h9.frame⟩
  · exact fun fn k s hfn => congrArg Host.Outcome.next (s.answer_of_unseen_time fn hfn (by simp only [R.EVT_RES]; omega))
end

end Sys2Proof.Machine
end

section
/-! SUPPORT. Ports (R188, R190, R191): which frame is next leaves the port's packets alone, and what a pause shows. -/

namespace Sys2Proof.Machine

open Sys2Proof.Safety

/-! ### Service of a port's queue -/

/-- A port's service has gone on: its round-robin turn, its deficits and the frame it has started. -/
def Port.Served (x y : Port) : Prop := ∃ t d k, y = { x with turn := t, deficit := d, started := k }

theorem Port.Served.refl (x : Port) : x.Served x := ⟨_, _, _, rfl⟩

theorem Port.Served.trans {x y z : Port} (h : x.Served y) (k : y.Served z) : x.Served z := by
  obtain ⟨_, _, _, rfl⟩ := h
  obtain ⟨_, _, _, rfl⟩ := k
  exact ⟨_, _, _, rfl⟩

theorem Port.Served.start {x y : Port} (h : x.Served y) (k : Option Pkt) : x.Served { y with started := k } := h.trans ⟨_, _, _, rfl⟩

theorem Port.serve_served {x : Port} {c : List Pkt} {r : Pkt × Port} (h : x.serve c = some r) : x.Served r.2 := by
  unfold Port.serve at h
  split at h
  next =>
    dsimp only at h
    split at h
    · cases h
      exact ⟨_, _, _, rfl⟩
    · cases h
  next => cases h

theorem Port.nextTurn_served (x : Port) (quantum : Nat → Nat) (c : List Pkt) : x.Served (x.nextTurn quantum c) := by
  unfold Port.nextTurn
  dsimp only
  split
  · exact ⟨_, _, _, rfl⟩
  · exact .refl x

theorem Port.drr_served {quantum : Nat → Nat} {c : List Pkt} {r : Pkt × Port} (fuel : Nat) (x : Port)
    (h : x.drr quantum c fuel = some r) : x.Served r.2 := by
  induction fuel generalizing x with
  | zero => cases h
  | succ n ih =>
    rw [Port.drr] at h
    split at h
    next hs =>
      cases h
      exact Port.serve_served hs
    next => exact (x.nextTurn_served quantum c).trans (ih _ h)

section
variable (s : State) (p : Nat)

theorem State.nextPkt_served {s : State} {p : Nat} {r : Pkt × Port} (h : s.nextPkt p = some r) : (s.port p).Served r.2 := by
  unfold State.nextPkt at h
  dsimp only at h
  split at h
  · cases h
    exact .refl _
  · exact Port.drr_served _ _ h

theorem State.startFrame_served : s.startFrame p = s ∨ ∃ y, (s.port p).Served y ∧ s.startFrame p = s.setPort p y := by
  unfold State.startFrame
  split
  · exact .inl rfl
  · split
    · exact .inl rfl
    next hn => exact .inr ⟨_, (State.nextPkt_served hn).start _, rfl⟩

theorem State.port_setPort (r : Nat) (x : Port) : (s.setPort p x).port r = if r = p then x else s.port r := Tab.get_set _ _ _ _ _

theorem State.port_setPort_same (x : Port) : (s.setPort p x).port p = x := Tab.get_set_same _ _ _ _

theorem State.port_setPort_other {r : Nat} (h : r ≠ p) (x : Port) : (s.setPort p x).port r = s.port r := Tab.get_set_other _ _ _ _ _ h

/-- The service of port p alone has gone on. -/
structure StartedOn (p : Nat) (s t : State) : Prop where
  served : (s.port p).Served (t.port p)
  other : ∀ r, r ≠ p → t.port r = s.port r
  frame : t = { s with ports := t.ports }

theorem State.startFrame_started : StartedOn p s (s.startFrame p) := by
  obtain h | ⟨y, hy, h⟩ := s.startFrame_served p
  · rw [h]
    exact ⟨.refl _, fun _ _ => rfl, rfl⟩
  · rw [h]
    exact ⟨(s.port_setPort_same p y).symm ▸ hy, fun r hr => s.port_setPort_other p hr y, rfl⟩

/-! ### Messages that leave -/

/-- What messages that leave change on port p. -/
def txShare (p : Nat) : Share where
  upd s t := { s with out := t.out, regs := t.regs, ports := t.ports }
  regs off := R.STM_PORT_TX_FRAMES p ≤ off ∧ off < R.STM_PORT_TX_FRAMES p + 8
  self _ := rfl
  again _ _ _ := rfl

/-- What pauses change on port p. -/
def portShare (p : Nat) : Share where
  upd s t := { s with lcnt := t.lcnt, out := t.out, regs := t.regs, ports := t.ports }
  regs off := R.STM_PORT_STATUS p ≤ off ∧ off < R.STM_PORT_STATUS p + 0x20
  self _ := rfl
  again _ _ _ := rfl

theorem portShare_of_txShare {p : Nat} {s t : State} (h : (txShare p).Only s t) : (portShare p).Only s t :=
  ⟨(portShare p).frame_of h.frame rfl, fun off ho => h.word off (fun hc => ho (by
    simp only [txShare, R.STM_PORT_TX_FRAMES] at hc
    simp only [portShare, R.STM_PORT_STATUS]
    omega))⟩

theorem StartedOn.txShare {p : Nat} {s t : State} (h : StartedOn p s t) : (txShare p).Only s t :=
  .parts ((congrArg State.regs h.frame).trans rfl) ((Machine.txShare p).frame_of h.frame rfl)

theorem StartedOn.reg {p : Nat} {s t : State} (h : StartedOn p s t) : changesOnly [] s t :=
  (changesOnly.refl _ s).parts ((congrArg State.regs h.frame).trans rfl) ((congrArg State.store h.frame).trans rfl)
    ((congrArg State.flash h.frame).trans rfl) ((congrArg State.pending h.frame).trans rfl)

/-- Messages have left port p and were counted. -/
structure Left (p : Nat) (l : List Out) (s t : State) : Prop where
  out : t.out = l.reverse ++ s.out
  ports : t.ports = s.ports
  reg : changesOnly (wideFlds (R.STM_PORT_TX_FRAMES p) 2) s t
  share : (txShare p).Only s t

theorem State.emitAll_left (l : List Out) : Left p l s (l.foldl (fun t o => (t.emit o).txCount p) s) := by
  induction l generalizing s with
  | nil => exact ⟨rfl, rfl, .refl _ _, .refl _ _⟩
  | cons o l ih =>
    obtain ⟨hout, hports, hreg, hshare⟩ := ih ((s.emit o).txCount p)
    have hemit : (txShare p).Only s (s.emit o) := .parts rfl rfl
    have hcount : (txShare p).Only (s.emit o) ((s.emit o).txCount p) := .putN (fun _ h1 h2 => ⟨h1, h2⟩)
    refine ⟨hout.trans ?_, hports, (((changesOnly.refl _ s).parts rfl rfl rfl rfl).putN (fun _ h => h)).trans hreg, (hemit.trans hcount).trans hshare⟩
    rw [List.reverse_cons, List.append_assoc]
    rfl

/-- The messages of port p have left, or a pause holds them. -/
structure Flushed (p : Nat) (s t : State) : Prop where
  port : ∃ l, t.port p = { s.port p with ctl := l } ∧ (s.heldPrio p 0 = false → l = [] ∧ t.out = (s.port p).ctl.reverse ++ s.out)
  other : ∀ r, r ≠ p → t.port r = s.port r
  reg : changesOnly (wideFlds (R.STM_PORT_TX_FRAMES p) 2) s t
  share : (txShare p).Only s t

theorem State.flushCtl_flushed : Flushed p s (s.flushCtl p) := by
  unfold State.flushCtl
  dsimp only
  split
  next h =>
    refine ⟨⟨(s.port p).ctl, rfl, fun hfree => ?_⟩, fun _ _ => rfl, .refl _ _, .refl _ _⟩
    obtain hnil | hheld := h
    · rw [hnil]
      exact ⟨rfl, rfl⟩
    · rw [hfree] at hheld
      cases hheld
  next =>
    have hset : (txShare p).Only s (s.setPort p { s.port p with ctl := [] }) := .parts rfl rfl
    obtain ⟨hout, hports, hreg, hshare⟩ := (s.setPort p { s.port p with ctl := [] }).emitAll_left p (s.port p).ctl
    refine ⟨⟨[], ?_, fun _ => ⟨rfl, hout⟩⟩, fun r hr => ?_, ((changesOnly.refl _ s).parts rfl rfl rfl rfl).trans hreg, hset.trans hshare⟩
    · exact (congrArg (fun x => Tab.get Port.init x p) hports).trans (s.port_setPort_same p _)
    · exact (congrArg (fun x => Tab.get Port.init x r) hports).trans (s.port_setPort_other p hr _)

/-! ### PAUSED follows the pauses -/

/-- Some priority of port p is held. -/
def State.heldAny (s : State) (p : Nat) : Bool := (List.range 8).any (s.heldPrio p)

/-- What the pauses of a port show. -/
structure PauseShown (p a : Nat) (s t : State) : Prop where
  paused : t.flag (F.STM_PORT_STATUS_PAUSED p) = s.heldAny p
  queue : (t.port p).queue = (s.port p).queue
  pauseTo : (t.port p).pauseTo = (s.port p).pauseTo
  pfc : (t.port p).pfc = (s.port p).pfc
  pauseFrom : (t.port p).pauseFrom = if s.heldAny p then some ((s.port p).pauseFrom.getD a) else none
  free : s.heldPrio p 0 = false → (t.port p).ctl = [] ∧ t.out = (s.port p).ctl.reverse ++ s.out
  other : ∀ r, r ≠ p → t.port r = s.port r
  lcnt : t.lcnt = s.lcnt
  reg : changesOnly (F.STM_PORT_STATUS_PAUSED p :: wideFlds (R.STM_PORT_TX_FRAMES p) 2) s t
  share : (portShare p).Only s t

theorem State.showPause_shown (a : Nat) : PauseShown p a s (s.showPause p a) := by
  unfold State.showPause
  extract_lets x on
  generalize hw : (s.setPort p _).putB (F.STM_PORT_STATUS_PAUSED p) on = w
  have hset : (portShare p).Only s w := by
    subst hw
    exact .trans (t := s.setPort p _) (.parts rfl rfl) (.put (f := F.STM_PORT_STATUS_PAUSED p) (v := if on then 1 else 0)
      (by simp only [portShare, R.STM_PORT_STATUS, F.STM_PORT_STATUS_PAUSED]; omega))
  have hwport : w.port p = { x with pauseFrom := if on then some (x.pauseFrom.getD a) else none, longSeen := on && x.longSeen } := by
    subst hw
    exact s.port_setPort_same p _
  have hwother : ∀ r, r ≠ p → w.port r = s.port r := fun r hr => by
    subst hw
    exact s.port_setPort_other p hr _
  have hwflag : w.flag (F.STM_PORT_STATUS_PAUSED p) = on := by
    subst hw
    exact RegTab.bit_setFld_ite (f := F.STM_PORT_STATUS_PAUSED p) _ (.of rfl (by omega)) on
  have hwreg : changesOnly [F.STM_PORT_STATUS_PAUSED p] s w := by
    subst hw
    exact ((changesOnly.refl _ s).parts rfl rfl rfl rfl).put (by simp)
  have hwlcnt : w.lcnt = s.lcnt := by
    subst hw
    rfl
  have hwout : w.out = s.out := by
    subst hw
    rfl
  have hpfc : w.regs.bit (F.STM_PORT_CTRL_PFC_EN p) = s.regs.bit (F.STM_PORT_CTRL_PFC_EN p) :=
    hset.bit (by simp only [portShare, R.STM_PORT_STATUS, F.STM_PORT_CTRL_PFC_EN]; omega)
  have hwheld : w.heldPrio p 0 = s.heldPrio p 0 := State.heldPrio_congr (by rw [hwport]; exact ⟨rfl, rfl⟩) hpfc hwlcnt
  clear hw
  obtain ⟨⟨l, hport, hfree⟩, hother, hreg, hshare⟩ := w.flushCtl_flushed p
  generalize w.flushCtl p = u at *
  have hstarted := u.startFrame_started p
  generalize u.startFrame p = t at *
  obtain ⟨turn, deficit, started, hserved⟩ := hstarted.served
  have hut : (txShare p).Only w t := hshare.trans hstarted.txShare
  have htport : t.port p = { x with
      pauseFrom := if on then some (x.pauseFrom.getD a) else none, longSeen := on && x.longSeen, ctl := l
      turn := turn, deficit := deficit, started := started } := by
    rw [hserved, hport, hwport]
  refine ⟨?_, (congrArg Port.queue htport).trans rfl, (congrArg Port.pauseTo htport).trans rfl, (congrArg Port.pfc htport).trans rfl,
    (congrArg Port.pauseFrom htport).trans rfl, fun h => ?_, fun r hr => (hstarted.other r hr).trans ((hother r hr).trans (hwother r hr)),
    ((congrArg State.lcnt hut.frame).trans rfl).trans hwlcnt, ?_, hset.trans (portShare_of_txShare hut)⟩
  · exact (hut.bit (by simp only [txShare, R.STM_PORT_TX_FRAMES, F.STM_PORT_STATUS_PAUSED]; omega)).trans hwflag
  · obtain ⟨hl, hout⟩ := hfree (hwheld.trans h)
    refine ⟨(congrArg Port.ctl htport).trans hl, ?_⟩
    rw [(congrArg State.out hstarted.frame).trans rfl, hout, hwport, hwout]
  · exact ((hwreg.mono (by simp)).trans (hreg.mono (fun _ h => List.mem_cons_of_mem _ h))).trans (hstarted.reg.mono (by simp))

end

end Sys2Proof.Machine
end

section
/-! SUPPORT. Pause and PFC frames, their expiry and the report of a long pause (R190, R191). -/

namespace Sys2Proof.Machine

open Sys2Proof.Safety

/-! ### A pause is set or ends -/

section
variable (s : State) (p : Nat)

theorem Fld.apart_of_wide {off n : Nat} {g : Fld} (h : g.off < off ∨ off + 4 * n ≤ g.off) : ∀ f ∈ wideFlds off n, f.apart g := by
  intro f hf
  obtain ⟨i, hi, rfl⟩ := List.mem_map.mp hf
  have hlt := List.mem_range.mp hi
  exact .inl (show off + 4 * i ≠ g.off by omega)

/-- What pauses change on port p. -/
def pauseFlds (p : Nat) : List Fld := F.STM_PORT_PAUSE_CNT_COUNT p :: F.STM_PORT_STATUS_PAUSED p :: wideFlds (R.STM_PORT_TX_FRAMES p) 2

theorem State.heldAny_of_port {s : State} {p : Nat} (h : s.flag (F.STM_PORT_CTRL_PFC_EN p) = false) : s.heldAny p = match (s.port p).pauseTo with
    | some e => decide (s.lcnt < e)
    | none => false := by
  have hheld : ∀ i, s.heldPrio p i = s.heldPrio p 0 := fun i => by
    unfold State.heldPrio
    dsimp only
    rw [h]
    rfl
  have hany : s.heldAny p = s.heldPrio p 0 := by
    rw [State.heldAny, show s.heldPrio p = fun _ => s.heldPrio p 0 from funext hheld]
    simp [List.range_succ]
  rw [hany]
  unfold State.heldPrio
  dsimp only
  rw [h]
  rfl

/-- Port p has taken pauses, and shows them. -/
structure Repaused (p a : Nat) (y : Port) (s t : State) : Prop where
  paused : t.flag (F.STM_PORT_STATUS_PAUSED p) = (s.setPort p y).heldAny p
  queue : (t.port p).queue = y.queue
  pauseTo : (t.port p).pauseTo = y.pauseTo
  pfc : (t.port p).pfc = y.pfc
  pauseFrom : (t.port p).pauseFrom = if (s.setPort p y).heldAny p then some (y.pauseFrom.getD a) else none
  free : (s.setPort p y).heldPrio p 0 = false → (t.port p).ctl = [] ∧ t.out = y.ctl.reverse ++ s.out
  other : ∀ r, r ≠ p → t.port r = s.port r
  lcnt : t.lcnt = s.lcnt
  reg : changesOnly (F.STM_PORT_STATUS_PAUSED p :: wideFlds (R.STM_PORT_TX_FRAMES p) 2) s t
  share : (portShare p).Only s t

theorem State.showPause_repaused (y : Port) (a : Nat) : Repaused p a y s ((s.setPort p y).showPause p a) := by
  have hset : (portShare p).Only s (s.setPort p y) := .parts rfl rfl
  have hport : (s.setPort p y).port p = y := s.port_setPort_same p y
  obtain ⟨h1, h2, h3, h4, h5, h6, h7, h8, h9, h10⟩ := (s.setPort p y).showPause_shown p a
  rw [hport] at h2 h3 h4 h5 h6
  exact ⟨h1, h2, h3, h4, h5, h6, fun r hr => (h7 r hr).trans (s.port_setPort_other p hr y), h8,
    ((changesOnly.refl _ s).parts rfl rfl rfl rfl).trans h9, hset.trans h10⟩

/-- A pause frame has been received on port p and counted. -/
structure PauseCounted (p a : Nat) (s t : State) : Prop where
  lcnt : t.lcnt = max s.lcnt a
  count : t.get (F.STM_PORT_PAUSE_CNT_COUNT p) = min (s.get (F.STM_PORT_PAUSE_CNT_COUNT p) + 1) (2 ^ 32 - 1)
  queue : (t.port p).queue = (s.port p).queue
  pauseTo : (t.port p).pauseTo = (s.port p).pauseTo
  pfc : (t.port p).pfc = (s.port p).pfc
  other : ∀ r, r ≠ p → t.port r = s.port r
  reg : changesOnly (pauseFlds p) s t
  share : (portShare p).Only s t

theorem State.pauseCounted (a : Nat) : PauseCounted p a s (((s.at_ a).showPause p a).incSat (F.STM_PORT_PAUSE_CNT_COUNT p)) := by
  have hat : (portShare p).Only s (s.at_ a) := .parts rfl rfl
  obtain ⟨_, h2, h3, h4, _, _, h7, h8, h9, h10⟩ := (s.at_ a).showPause_shown p a
  generalize (s.at_ a).showPause p a = u at *
  have hcnt : u.get (F.STM_PORT_PAUSE_CNT_COUNT p) = (s.at_ a).get (F.STM_PORT_PAUSE_CNT_COUNT p) :=
    h9.1 _ (.of rfl (by omega)) (List.forall_mem_cons.mpr ⟨(Fld.Sep.of rfl (by omega)).apart,
      Fld.apart_of_wide (by simp only [F.STM_PORT_PAUSE_CNT_COUNT, R.STM_PORT_TX_FRAMES]; omega)⟩)
  refine ⟨h8, ?_, h2, h3, h4, h7, ?_, ?_⟩
  · exact (State.get_incSat_width (w := 32) u (F.STM_PORT_PAUSE_CNT_COUNT p) (.of rfl (by omega)) rfl).trans (by rw [hcnt]; rfl)
  · exact ((((changesOnly.refl _ s).parts rfl rfl rfl rfl).trans h9).mono (fun _ h => List.mem_cons_of_mem _ h)).put (by simp [pauseFlds])
  · exact (hat.trans h10).trans (.put (f := F.STM_PORT_PAUSE_CNT_COUNT p) (by
      simp only [portShare, R.STM_PORT_STATUS, F.STM_PORT_PAUSE_CNT_COUNT]
      omega))

/-! ### The commands -/

/-- What a pause command leaves of the block. -/
structure PauseTaken (p a : Nat) (s t : State) : Prop where
  lcnt : t.lcnt = max s.lcnt a
  count : t.get (F.STM_PORT_PAUSE_CNT_COUNT p) = min (s.get (F.STM_PORT_PAUSE_CNT_COUNT p) + 1) (2 ^ 32 - 1)
  queue : (t.port p).queue = (s.port p).queue
  other : ∀ r, r ≠ p → t.port r = s.port r
  reg : changesOnly (pauseFlds p) s t
  share : (portShare p).Only s t

theorem PauseCounted.taken {p a : Nat} {s t : State} (h : PauseCounted p a s t) : PauseTaken p a s t :=
  ⟨h.lcnt, h.count, h.queue, h.other, h.reg, h.share⟩

/-- A counted pause frame that the port heeds. -/
theorem PauseCounted.repaused {p a : Nat} {s u t : State} {y : Port} (h : PauseCounted p a s u) (k : Repaused p a y u t)
    (hy : y.queue = (u.port p).queue) : PauseTaken p a s t where
  lcnt := k.lcnt.trans h.lcnt
  count := (k.reg.1 (F.STM_PORT_PAUSE_CNT_COUNT p) (.of rfl (by omega)) (List.forall_mem_cons.mpr ⟨(Fld.Sep.of rfl (by omega)).apart,
      Fld.apart_of_wide (by simp only [F.STM_PORT_PAUSE_CNT_COUNT, R.STM_PORT_TX_FRAMES]; omega)⟩)).trans h.count
  queue := k.queue.trans (hy.trans h.queue)
  other r hr := (k.other r hr).trans (h.other r hr)
  reg := h.reg.trans (k.reg.mono (fun _ h => List.mem_cons_of_mem _ h))
  share := h.share.trans k.share

theorem rxPauseFrame_effect {p : Fin 128} (a : Nat) (q : BitVec 16) (h : isPort s.regs p = true) :
    ∃ t, exec (.rxPauseFrame a p q) s = .next t ∧ PauseTaken p a s t ∧
      (s.flag (F.STM_PORT_CTRL_PAUSE_EN p) = true → s.flag (F.STM_PORT_CTRL_PFC_EN p) = false →
        (t.port p).pauseTo = (if q = 0 then none else some (a + s.pauseCycles p q.toNat)) ∧
        t.flag (F.STM_PORT_STATUS_PAUSED p) = (q != 0 && decide (max s.lcnt a < a + s.pauseCycles p q.toNat))) ∧
      (s.flag (F.STM_PORT_CTRL_PAUSE_EN p) = false ∨ s.flag (F.STM_PORT_CTRL_PFC_EN p) = true →
        (t.port p).pauseTo = (s.port p).pauseTo ∧ (t.port p).pfc = (s.port p).pfc) := by
  have hport : ¬ isPort s.regs p = false := by rw [h]; decide
  have hu := s.pauseCounted p a
  by_cases hon : s.flag (F.STM_PORT_CTRL_PAUSE_EN p) = true ∧ s.flag (F.STM_PORT_CTRL_PFC_EN p) = false
  · refine ⟨_, congrArg Host.Outcome.next ((if_neg hport).trans (if_pos hon)), ?_⟩
    dsimp only
    generalize ((s.at_ a).showPause p a).incSat (F.STM_PORT_PAUSE_CNT_COUNT p) = u at *
    generalize he : (if q.toNat = 0 then none else some (a + s.pauseCycles p q.toNat)) = e
    have ht := u.showPause_repaused p { u.port p with pauseTo := e } a
    generalize (u.setPort p { u.port p with pauseTo := e }).showPause p a = t at *
    have hpfc : (u.setPort p { u.port p with pauseTo := e }).flag (F.STM_PORT_CTRL_PFC_EN p) = false :=
      (hu.share.bit (by simp only [portShare, R.STM_PORT_STATUS, F.STM_PORT_CTRL_PFC_EN]; omega)).trans hon.2
    have hzero : q.toNat = 0 ↔ q = 0 := by
      rw [← BitVec.toNat_inj]
      rfl
    refine ⟨hu.repaused ht rfl, fun _ _ => ⟨?_, ?_⟩, fun hoff => ?_⟩
    · rw [ht.pauseTo, ← he]
      simp only [hzero]
    · rw [ht.paused, State.heldAny_of_port hpfc, State.port_setPort_same, ← he]
      show (match (if q.toNat = 0 then none else some (a + s.pauseCycles p q.toNat)) with
        | some e => decide (u.lcnt < e)
        | none => false) = _
      rw [hu.lcnt]
      by_cases hq : q = 0
      · simp [hq]
      · simp only [hzero, if_neg hq]
        simp [hq]
        exact fun _ _ => hq
    · obtain ⟨h1, h2⟩ := hon
      rw [h1, h2] at hoff
      simp at hoff
  · refine ⟨_, congrArg Host.Outcome.next ((if_neg hport).trans (if_neg hon)), hu.taken, fun h1 h2 => absurd ⟨h1, h2⟩ hon, fun _ => ⟨hu.pauseTo, hu.pfc⟩⟩

/-- The times of a PFC frame: the table after priorities k and up. -/
theorem pfcTimes_get (s : State) (p a en : Nat) (l : List Nat) (t : Tab Nat) (k : Nat) :
    (∀ i, i < k → Tab.get 0 (pfcTimes s p a en t k l) i = Tab.get 0 t i) ∧
    (∀ j x, l[j]? = some x → Tab.get 0 (pfcTimes s p a en t k l) (k + j) =
      if bitOf en (k + j) then a + s.pauseCycles p x else Tab.get 0 t (k + j)) := by
  induction l generalizing t k with
  | nil => exact ⟨fun _ _ => rfl, fun _ _ h => by simp at h⟩
  | cons q qs ih =>
    rw [pfcTimes]
    have hother : ∀ i, i ≠ k → Tab.get 0 (if bitOf en k then Tab.set t k (a + s.pauseCycles p q) else t) i = Tab.get 0 t i := by
      intro i hi
      split
      · exact Tab.get_set_other _ _ _ _ _ hi
      · rfl
    obtain ⟨hbelow, hat⟩ := ih (if bitOf en k then Tab.set t k (a + s.pauseCycles p q) else t) (k + 1)
    refine ⟨fun i hi => (hbelow i (by omega)).trans (hother i (by omega)), fun j x hx => ?_⟩
    cases j with
    | zero =>
      cases hx
      refine (hbelow k (by omega)).trans ?_
      rw [Nat.add_zero]
      split
      · exact Tab.get_set_same _ _ _ _
      · rfl
    | succ j =>
      have hj := hat j x hx
      rw [hother (k + 1 + j) (by omega), show k + 1 + j = k + (j + 1) by omega] at hj
      exact hj

theorem rxPfcFrame_effect {p : Fin 128} (a : Nat) (en : BitVec 8) (times : List Nat) (hlen : times.length = 8) (h : isPort s.regs p = true) :
    ∃ t, exec (.rxPfcFrame a p en times) s = .next t ∧ PauseTaken p a s t ∧
      (s.flag (F.STM_PORT_CTRL_PFC_EN p) = true → ∀ (i : Fin 8) (x : Nat), times[i.val]? = some x →
        Tab.get 0 (t.port p).pfc i = if bitOf en.toNat i then a + s.pauseCycles p x else Tab.get 0 (s.port p).pfc i) ∧
      (s.flag (F.STM_PORT_CTRL_PFC_EN p) = false → (t.port p).pfc = (s.port p).pfc ∧ (t.port p).pauseTo = (s.port p).pauseTo) := by
  have hport : ¬ isPort s.regs p = false := by rw [h]; decide
  have hu := s.pauseCounted p a
  by_cases hon : s.flag (F.STM_PORT_CTRL_PFC_EN p) = true
  · refine ⟨_, (if_neg (by rw [hlen]; decide)).trans (congrArg Host.Outcome.next ((if_neg hport).trans (if_pos hon))), ?_⟩
    dsimp only
    generalize ((s.at_ a).showPause p a).incSat (F.STM_PORT_PAUSE_CNT_COUNT p) = u at *
    generalize hl : pfcTimes s p a en.toNat (s.port p).pfc 0 times = l
    have ht := u.showPause_repaused p { u.port p with pfc := l } a
    generalize (u.setPort p { u.port p with pfc := l }).showPause p a = t at *
    refine ⟨hu.repaused ht rfl, fun _ i x hx => ?_, fun hoff => ?_⟩
    · rw [ht.pfc, ← hl]
      have hget := (pfcTimes_get s p a en.toNat times (s.port p).pfc 0).2 i x hx
      rw [Nat.zero_add] at hget
      exact hget
    · rw [hoff] at hon
      cases hon
  · exact ⟨_, (if_neg (by rw [hlen]; decide)).trans (congrArg Host.Outcome.next ((if_neg hport).trans (if_neg hon))), hu.taken,
      fun h1 => absurd h1 hon, fun _ => ⟨hu.pfc, hu.pauseTo⟩⟩

/-- The end of the port's pause. -/
theorem pauseExpiry_port {p : Fin 128} (prio : Fin 8) {e : Nat} (hpfc : s.flag (F.STM_PORT_CTRL_PFC_EN p) = false) (he : (s.port p).pauseTo = some e) :
    ∃ t, exec (.pauseExpiry p prio) s = .next t ∧ Repaused p e { s.port p with pauseTo := none } (s.at_ e) t := by
  refine ⟨((s.at_ e).setPort p { s.port p with pauseTo := none }).showPause p e, ?_, (s.at_ e).showPause_repaused p _ e⟩
  simp only [exec, execPauseExpiry, hpfc, he, Bool.false_eq_true, if_false]

/-- The end of a priority's pause. -/
theorem pauseExpiry_prio {p : Fin 128} (prio : Fin 8) (hpfc : s.flag (F.STM_PORT_CTRL_PFC_EN p) = true) :
    ∃ t, exec (.pauseExpiry p prio) s = .next t ∧ Repaused p (Tab.get 0 (s.port p).pfc prio)
      { s.port p with pfc := (s.port p).pfc.filter (fun y => y.1 != prio.val) } (s.at_ (Tab.get 0 (s.port p).pfc prio)) t := by
  refine ⟨_, ?_, (s.at_ (Tab.get 0 (s.port p).pfc prio)).showPause_repaused p _ _⟩
  simp only [exec, execPauseExpiry, hpfc, if_true]

/-- A pause that has lasted 100 ms is reported. -/
def State.longShown (s : State) (p f : Nat) : State :=
  (((s.at_ (f + s.cyclesOf 1 10)).setPort p { (s.at_ (f + s.cyclesOf 1 10)).port p with longSeen := true }).setF (F.STM_PORT_STATUS_PAUSE_LONG p)).post
    (s.at_ (f + s.cyclesOf 1 10)).lcnt 0x0902 (s.locusPort p none) 0

theorem exec_pauseLong {p : Fin 128} {f : Nat} (hf : (s.port p).pauseFrom = some f) : exec (.pauseLong p) s = .next
    (if (s.at_ (f + s.cyclesOf 1 10)).heldAny p = true ∧ (s.port p).longSeen = false then s.longShown p f else s.at_ (f + s.cyclesOf 1 10)) := by
  simp only [exec, execPauseLong, hf]
  rfl

theorem State.post_port (lc code locus data r : Nat) : (s.post lc code locus data).port r = s.port r := by simp [State.port]

theorem State.longShown_effect (p : Fin 128) (f : Nat) : (s.longShown p f).lcnt = max s.lcnt (f + s.cyclesOf 1 10) ∧
    (s.longShown p f).flag (F.STM_PORT_STATUS_PAUSE_LONG p) = true ∧ (0x0902, s.locusPort p none) ∈ (s.longShown p f).log.seen ∧
    (s.longShown p f).port p = { s.port p with longSeen := true } ∧ (∀ r : Nat, r ≠ p → (s.longShown p f).port r = s.port r) ∧
    changesOnly (F.STM_PORT_STATUS_PAUSE_LONG p :: logFlds) s (s.longShown p f) := by
  unfold State.longShown
  generalize s.cyclesOf 1 10 = d
  refine ⟨?_, ?_, State.post_seen _ _ _ _ _, ?_, fun r hr => ?_, ?_⟩
  · simp [State.setF, State.setPort, State.at_]
  · exact (State.bit_post _ _ _ _ _ (.of rfl (by omega))).trans (RegTab.bit_setFld_one _ (.of rfl (by omega)))
  · rw [State.post_port]
    exact State.port_setPort_same _ _ _
  · rw [State.post_port]
    exact State.port_setPort_other _ _ hr _
  · exact ((((changesOnly.refl _ s).parts (u := (s.at_ (f + d)).setPort p _) rfl rfl rfl rfl).put (f := F.STM_PORT_STATUS_PAUSE_LONG p) (v := 1) (by simp))).post
      (fun _ h => List.mem_cons_of_mem _ h)

end

/-- Settles O31: a pause command is counted and shown as `rxPauseFrame_effect` and `rxPfcFrame_effect` say, its end as `Repaused` says. -/
theorem pausesHoldAndExpire : Obligations.PausesHoldAndExpire := by
  refine ⟨?_, ?_, ?_, ?_, ?_, ?_, ?_⟩
  · intro a p q s h
    obtain ⟨t, ht, hk, hon, hoff⟩ := rxPauseFrame_effect s a q h
    exact ⟨t, ht, hk.lcnt, hk.count, hk.queue, hon, hoff, hk.other, hk.reg, hk.share.frame⟩
  · intro a p en times s hlen h
    obtain ⟨t, ht, hk, hon, hoff⟩ := rxPfcFrame_effect s a en times hlen h
    exact ⟨t, ht, hk.lcnt, hon, hoff, hk.count, hk.other, hk.reg, hk.share.frame⟩
  · intro a p en times s
    exact ⟨fun h => if_pos h, fun h hp => (if_neg (by rw [h]; decide)).trans (congrArg Host.Outcome.next (if_pos hp)),
      fun hp q => congrArg Host.Outcome.next (if_pos hp)⟩
  · intro p prio s hpfc
    refine ⟨fun h => ?_, fun e he => ?_⟩
    · simp only [exec, execPauseExpiry, hpfc, h, Bool.false_eq_true, if_false]
    · obtain ⟨t, ht, hk⟩ := pauseExpiry_port s prio hpfc he
      have hnone : ((s.at_ e).setPort p { s.port p with pauseTo := none }).heldAny p = false := by
        refine (State.heldAny_of_port (s := (s.at_ e).setPort p _) hpfc).trans ?_
        rw [State.port_setPort_same]
      have hheld : ((s.at_ e).setPort p { s.port p with pauseTo := none }).heldPrio p 0 = false :=
        Bool.eq_false_iff.mpr (List.any_eq_false.mp hnone 0 (by simp))
      exact ⟨t, ht, hk.lcnt, hk.pauseTo, hk.pauseFrom.trans (by rw [hnone]; rfl), hk.paused.trans hnone, (hk.free hheld).1, (hk.free hheld).2,
        hk.other, ((changesOnly.refl _ s).parts rfl rfl rfl rfl).trans hk.reg, (Share.Only.trans (.parts rfl rfl) hk.share).frame⟩
  · intro p prio s hpfc
    obtain ⟨t, ht, hk⟩ := pauseExpiry_prio s prio hpfc
    exact ⟨t, ht, hk.lcnt, hk.pfc, ((changesOnly.refl _ s).parts rfl rfl rfl rfl).trans hk.reg⟩
  · intro p f i s hf hheld
    have hany : (s.at_ (f + s.cyclesOf 1 10)).heldAny p = true := List.any_eq_true.mpr ⟨i, by simp, hheld⟩
    refine ⟨fun hlong => ?_, fun hlong => ?_⟩
    · obtain ⟨h1, h2, h3, h4, h5, h6⟩ := s.longShown_effect p f
      exact ⟨s.longShown p f, (exec_pauseLong s hf).trans (congrArg Host.Outcome.next (if_pos ⟨hany, hlong⟩)), h1, h2, h3,
        (congrArg Port.longSeen h4).trans rfl, (congrArg Port.pauseFrom h4).trans hf, h5, h6⟩
    · exact (exec_pauseLong s hf).trans (congrArg Host.Outcome.next (if_neg (by rw [hlong]; simp)))
  · intro p s h
    simp only [exec, execPauseLong, h]

end Sys2Proof.Machine
end

section
/-! SUPPORT. Links of ports (R174, R176, R192): the packets of a port that loses its link go to the other ports of their stream. -/

namespace Sys2Proof.Machine

open Sys2Proof.Safety

/-! ### Packets on their way to a port -/

/-- What the streams' packets change. -/
def strmShare : Share where
  upd s t := { s with regs := t.regs, ports := t.ports, strms := t.strms }
  regs off := 0x810000 ≤ off
  self _ := rfl
  again _ _ _ := rfl

/-- The streams have moved packets; a port p without a link has none of them. -/
structure Resent (p : Nat) (s t : State) : Prop where
  share : strmShare.Only s t
  port : s.linkUp p = false → t.port p = s.port p

section
variable {p : Nat} {s t u : State}

theorem linkUp_of_strmShare (h : strmShare.Only s t) (hp : p < 128) : t.linkUp p = s.linkUp p :=
  h.bit (by simp only [strmShare, F.STM_PORT_STATUS_LINK]; omega)

theorem Resent.refl (p : Nat) (s : State) : Resent p s s := ⟨.refl _ _, fun _ => rfl⟩

theorem Resent.trans (hp : p < 128) (h : Resent p s t) (k : Resent p t u) : Resent p s u :=
  ⟨h.share.trans k.share, fun hl => (k.port ((linkUp_of_strmShare h.share hp).trans hl)).trans (h.port hl)⟩

theorem Resent.of_share (h : strmShare.Only s t) (hports : t.ports = s.ports) : Resent p s t :=
  ⟨h, fun _ => congrArg (fun x => Tab.get Port.init x p) hports⟩

theorem Resent.foldl {α : Type} (hp : p < 128) (f : State → α → State) (l : List α) (h : ∀ t, ∀ x ∈ l, Resent p t (f t x)) (s : State) :
    Resent p s (l.foldl f s) := by
  induction l generalizing s with
  | nil => exact .refl p s
  | cons x xs ih => exact (h s x (by simp)).trans hp (ih (fun t y hy => h t y (by simp [hy])) (f s x))

end

section
variable (s : State)

/-- A better port of two. -/
theorem foldl_pick_mem (w : Nat → Nat) (l : List Nat) (b : Option Nat) {p : Nat}
    (h : l.foldl (fun b p => match b with
      | none => some p
      | some x => if w p < w x then some p else some x) b = some p) : p ∈ l ∨ b = some p := by
  induction l generalizing b with
  | nil => exact .inr h
  | cons x xs ih =>
    obtain hm | hb := ih _ h
    · exact .inl (List.mem_cons_of_mem _ hm)
    · cases b with
      | none =>
        cases hb
        exact .inl (by simp)
      | some y =>
        dsimp only at hb
        split at hb
        · cases hb
          exact .inl (by simp)
        · exact .inr hb

theorem State.pickPort_linkUp {s : State} {q p : Nat} (h : s.pickPort q = some p) : p ∈ s.portSet q ∧ s.linkUp p = true := by
  obtain hm | hb := foldl_pick_mem (fun p => (s.port p).waiting) _ none h
  · exact List.mem_filter.mp hm
  · cases hb

theorem strmShare_of_startedOn {p : Nat} {s t : State} (h : StartedOn p s t) : strmShare.Only s t :=
  .parts ((congrArg State.regs h.frame).trans rfl) (strmShare.frame_of h.frame rfl)

theorem State.sendPkt_resent (p : Nat) (x : Pkt) : Resent p s (s.sendPkt x) := by
  unfold State.sendPkt
  split
  next r hr =>
    have hset : strmShare.Only s (s.setPort r { s.port r with queue := (s.port r).queue ++ [x] }) := .parts rfl rfl
    have hstart := (s.setPort r { s.port r with queue := (s.port r).queue ++ [x] }).startFrame_started r
    refine ⟨hset.trans (strmShare_of_startedOn hstart), fun hdown => ?_⟩
    have hne : p ≠ r := by
      rintro rfl
      have := (State.pickPort_linkUp hr).2
      rw [hdown] at this
      cases this
    exact (hstart.other p hne).trans (s.port_setPort_other r hne _)
  next => exact .of_share (.parts rfl rfl) rfl

theorem State.resend_resent {p : Nat} (hp : p < 128) (l : List Pkt) : Resent p s (s.resend l) := by
  induction l generalizing s with
  | nil => exact .refl p s
  | cons x xs ih =>
    rw [State.resend]
    refine Resent.trans hp ?_ (ih _)
    have hsend := s.sendPkt_resent p x
    split
    · exact hsend.trans hp (.of_share (.put (f := F.STM_Q_RESENT_CNT_COUNT x.q) (by simp only [strmShare, F.STM_Q_RESENT_CNT_COUNT]; omega)) rfl)
    · exact hsend

theorem State.showStrm_strmShare (q : Nat) : strmShare.Only s (s.showStrm q) := by
  unfold State.showStrm
  refine .trans (.trans (.put (f := F.STM_Q_STATUS_ACTIVE q) ?_) (.put (f := F.STM_Q_STATUS_NO_PORT q) ?_)) (.put ?_)
  · simp only [strmShare, F.STM_Q_STATUS_ACTIVE]; omega
  · simp only [strmShare, F.STM_Q_STATUS_NO_PORT]; omega
  · simp only [strmShare, F.STM_Q_BACKLOG_BYTES]; omega

theorem State.showStrm_ports (q : Nat) : (s.showStrm q).ports = s.ports := rfl

theorem State.showSet_resent {p : Nat} (hp : p < 128) (r : Nat) : Resent p s (s.showSet r) :=
  .foldl hp _ _ (fun t q _ => by
    split
    · exact .of_share (t.showStrm_strmShare q) (t.showStrm_ports q)
    · exact .refl p t) s

/-! ### The link comes and goes (R192) -/

/-- A port that has its link. -/
def State.linked (s : State) (p : Nat) : State := (((s.setF (F.STM_PORT_STATUS_LINK p)).clrF (F.STM_PORT_STATUS_LOCAL_FAULT p)).flushCtl p).startFrame p

/-- What a link's coming changes. -/
def linkShare : Share where
  upd s t := { s with out := t.out, regs := t.regs, ports := t.ports, strms := t.strms }
  regs _ := True
  self _ := rfl
  again _ _ _ := rfl

theorem linkShare_of_strmShare {s t : State} (h : strmShare.Only s t) : linkShare.Only s t :=
  ⟨linkShare.frame_of h.frame rfl, fun _ h => absurd trivial h⟩

theorem linkShare_of_txShare {p : Nat} {s t : State} (h : (txShare p).Only s t) : linkShare.Only s t :=
  ⟨linkShare.frame_of h.frame rfl, fun _ h => absurd trivial h⟩

theorem memSame_of_linkShare {s t : State} (h : linkShare.Only s t) : memSame s t :=
  memSame_of_fields ((congrArg State.store h.frame).trans rfl) ((congrArg State.flash h.frame).trans rfl)

theorem State.linked_effect (p : Nat) : (s.linked p).flag (F.STM_PORT_STATUS_LINK p) = true ∧
    (s.linked p).flag (F.STM_PORT_STATUS_LOCAL_FAULT p) = false ∧ linkShare.Only s (s.linked p) := by
  unfold State.linked
  generalize hu : (s.setF (F.STM_PORT_STATUS_LINK p)).clrF (F.STM_PORT_STATUS_LOCAL_FAULT p) = u
  have hlink : u.flag (F.STM_PORT_STATUS_LINK p) = true := by
    subst hu
    simp (disch := first | exact .of rfl (by omega) | omega) [State.flag, State.setF, State.clrF]
  have hfault : u.flag (F.STM_PORT_STATUS_LOCAL_FAULT p) = false := by
    subst hu
    simp (disch := first | exact .of rfl (by omega) | omega) [State.flag, State.setF, State.clrF]
  have hshare : linkShare.Only s u := by
    subst hu
    exact .trans (.put (f := F.STM_PORT_STATUS_LINK p) (v := 1) trivial) (.put (f := F.STM_PORT_STATUS_LOCAL_FAULT p) (v := 0) trivial)
  clear hu
  have hflush := (u.flushCtl_flushed p).share
  generalize u.flushCtl p = v at *
  have hut := hflush.trans (v.startFrame_started p).txShare
  generalize v.startFrame p = t at *
  exact ⟨(hut.bit (by simp only [txShare, R.STM_PORT_TX_FRAMES, F.STM_PORT_STATUS_LINK]; omega)).trans hlink,
    (hut.bit (by simp only [txShare, R.STM_PORT_TX_FRAMES, F.STM_PORT_STATUS_LOCAL_FAULT]; omega)).trans hfault,
    hshare.trans (linkShare_of_txShare hut)⟩

/-- The streams of port p's sets send the packets that they hold back. -/
def State.sendBack (s : State) (p : Nat) : State :=
  s.streams.foldl (fun t q =>
    if (t.portSet q).contains p then
      (let x := t.strm q
       (t.setStrm q { x with back := [] }).resend x.back)
    else t) s

theorem State.sendBack_resent {p : Nat} (hp : p < 128) : Resent p s (s.sendBack p) :=
  .foldl hp _ _ (fun t q _ => by
    split
    · exact Resent.trans hp (.of_share (t := t.setStrm q _) (.parts rfl rfl) rfl) (State.resend_resent _ hp _)
    · exact .refl p t) s

theorem exec_portLinkUp {p : Fin 128} (h : isPort s.regs p = true ∧ s.flag (F.STM_PORT_CTRL_EN p) = true ∧ bitOf s.pwr.laneFence (p / 16) = false) :
    exec (.portLinkUp p) s = .next (((s.linked p).sendBack p).showSet p) := congrArg Host.Outcome.next (if_pos h)

theorem portLinkUp_effect {p : Fin 128}
    (h : isPort s.regs p = true ∧ s.flag (F.STM_PORT_CTRL_EN p) = true ∧ bitOf s.pwr.laneFence (p / 16) = false) :
    ∃ t, exec (.portLinkUp p) s = .next t ∧ t.flag (F.STM_PORT_STATUS_LINK p) = true ∧
      t.flag (F.STM_PORT_STATUS_LOCAL_FAULT p) = false ∧ linkShare.Only s t := by
  refine ⟨_, exec_portLinkUp s h, ?_⟩
  obtain ⟨hlink, hfault, hshare⟩ := s.linked_effect p
  generalize s.linked p = u at *
  have hback := (u.sendBack_resent p.isLt).share
  generalize u.sendBack p = v at *
  have hut := hback.trans (v.showSet_resent p.isLt p).share
  generalize v.showSet p = t at *
  exact ⟨(linkUp_of_strmShare hut p.isLt).trans hlink,
    (hut.bit (by simp only [strmShare, F.STM_PORT_STATUS_LOCAL_FAULT]; omega)).trans hfault, hshare.trans (linkShare_of_strmShare hut)⟩

/-- A port that has lost its link, its packets aside. -/
def State.unlinked (s : State) (p : Nat) : State :=
  (((s.clrF (F.STM_PORT_STATUS_LINK p)).setF (F.STM_PORT_STATUS_LOCAL_FAULT p)).clrF (F.STM_PORT_STATUS_PAUSED p)).setPort p
    { Port.init with fecTick := (s.port p).fecTick, fecRun := (s.port p).fecRun }

theorem exec_portLinkDown {p : Fin 128} (h : s.linkUp p = true) :
    exec (.portLinkDown p) s = .next (((s.unlinked p).resend (s.port p).queue).showSet p) := congrArg Host.Outcome.next (if_pos h)

/-- What the loss of a link changes. -/
def unlinkShare : Share where
  upd s t := { s with regs := t.regs, ports := t.ports, strms := t.strms }
  regs _ := True
  self _ := rfl
  again _ _ _ := rfl

theorem unlinkShare_of_strmShare {s t : State} (h : strmShare.Only s t) : unlinkShare.Only s t :=
  ⟨unlinkShare.frame_of h.frame rfl, fun _ h => absurd trivial h⟩

theorem State.unlinked_effect (p : Nat) : (s.unlinked p).flag (F.STM_PORT_STATUS_LINK p) = false ∧
    (s.unlinked p).flag (F.STM_PORT_STATUS_LOCAL_FAULT p) = true ∧ (s.unlinked p).flag (F.STM_PORT_STATUS_PAUSED p) = false ∧
    (s.unlinked p).port p = { Port.init with fecTick := (s.port p).fecTick, fecRun := (s.port p).fecRun } ∧
    unlinkShare.Only s (s.unlinked p) := by
  refine ⟨?_, ?_, ?_, State.port_setPort_same _ p _, ?_⟩
  · simp (disch := first | exact .of rfl (by omega) | omega) [State.unlinked, State.setPort, State.flag, State.setF, State.clrF]
  · simp (disch := first | exact .of rfl (by omega) | omega) [State.unlinked, State.setPort, State.flag, State.setF, State.clrF]
  · simp (disch := first | exact .of rfl (by omega) | omega) [State.unlinked, State.setPort, State.flag, State.setF, State.clrF]
  · exact .trans (.trans (.trans (.put (f := F.STM_PORT_STATUS_LINK p) (v := 0) trivial) (.put (f := F.STM_PORT_STATUS_LOCAL_FAULT p) (v := 1) trivial))
      (.put (f := F.STM_PORT_STATUS_PAUSED p) (v := 0) trivial)) (.parts rfl rfl)

theorem portLinkDown_effect {p : Fin 128} (h : s.linkUp p = true) : ∃ t, exec (.portLinkDown p) s = .next t ∧
    t.flag (F.STM_PORT_STATUS_LINK p) = false ∧ t.flag (F.STM_PORT_STATUS_LOCAL_FAULT p) = true ∧ t.flag (F.STM_PORT_STATUS_PAUSED p) = false ∧
    t.port p = { Port.init with fecTick := (s.port p).fecTick, fecRun := (s.port p).fecRun } ∧ unlinkShare.Only s t := by
  refine ⟨_, exec_portLinkDown s h, ?_⟩
  obtain ⟨hlink, hfault, hpaused, hport, hshare⟩ := s.unlinked_effect p
  generalize s.unlinked p = u at *
  have hback := u.resend_resent p.isLt (s.port p).queue
  generalize u.resend (s.port p).queue = v at *
  have hut := hback.trans p.isLt (v.showSet_resent p.isLt p)
  generalize v.showSet p = t at *
  exact ⟨(linkUp_of_strmShare hut.share p.isLt).trans hlink,
    (hut.share.bit (by simp only [strmShare, F.STM_PORT_STATUS_LOCAL_FAULT]; omega)).trans hfault,
    (hut.share.bit (by simp only [strmShare, F.STM_PORT_STATUS_PAUSED]; omega)).trans hpaused, (hut.port hlink).trans hport,
    hshare.trans (unlinkShare_of_strmShare hut.share)⟩

theorem memSame_of_unlinkShare {s t : State} (h : unlinkShare.Only s t) : memSame s t :=
  memSame_of_fields ((congrArg State.store h.frame).trans rfl) ((congrArg State.flash h.frame).trans rfl)

/-! ### Errors are counted (R176, R190, R197) -/

/-- An uncorrectable codeword on port p. -/
theorem fecUncorrectableCodeword_effect {p : Fin 128} (h : isPort s.regs p = true) : ∃ t, exec (.fecUncorrectableCodeword p) s = .next t ∧
    t.get (F.STM_PORT_FEC_UNCORR_CNT_COUNT p) = min (s.get (F.STM_PORT_FEC_UNCORR_CNT_COUNT p) + 1) (2 ^ 32 - 1) ∧
    t.flag (F.STM_PORT_STATUS_FEC_UNCORR p) = true ∧ (t.port p).fecTick = s.lcnt / tickLen ∧
    ((s.port p).fecRun ≠ 0 → s.lcnt / tickLen = (s.port p).fecTick + 1 → (t.port p).fecRun = (s.port p).fecRun + 1) ∧
    (∀ k : Nat, k ≠ p → t.port k = s.port k) ∧
    changesOnly [F.STM_PORT_FEC_UNCORR_CNT_COUNT p, F.STM_PORT_STATUS_FEC_UNCORR p] s t ∧ t = { s with regs := t.regs, ports := t.ports } := by
  refine ⟨_, congrArg Host.Outcome.next (if_pos h), ?_, RegTab.bit_setFld_one _ (.of rfl (by omega)), ?_, fun hrun htick => ?_,
    fun k hk => State.port_setPort_other _ p hk _, ?_, rfl⟩
  · exact (RegTab.fld_setFld_sep _ _ (.of rfl (by omega))).trans
      (State.get_incSat_width (w := 32) s (F.STM_PORT_FEC_UNCORR_CNT_COUNT p) (.of rfl (by omega)) rfl)
  · exact congrArg Port.fecTick (State.port_setPort_same _ p _)
  · refine (congrArg Port.fecRun (State.port_setPort_same _ p _)).trans ?_
    show (if (s.port p).fecRun = 0 then 1 else _) = _
    rw [if_neg hrun, if_neg (by omega), if_pos htick]
  · exact (((changesOnly.refl _ s).put (f := F.STM_PORT_FEC_UNCORR_CNT_COUNT p) (by simp)).put
      (f := F.STM_PORT_STATUS_FEC_UNCORR p) (v := 1) (by simp)).parts rfl rfl rfl rfl

theorem State.rxDrop_effect {p : Nat} (h : isPort s.regs p = true) :
    (s.rxDrop p).get (F.STM_PORT_RX_DROP_CNT_COUNT p) = min (s.get (F.STM_PORT_RX_DROP_CNT_COUNT p) + 1) (2 ^ 32 - 1) ∧
      changesOnly [F.STM_PORT_RX_DROP_CNT_COUNT p] s (s.rxDrop p) ∧ s.rxDrop p = { s with regs := (s.rxDrop p).regs } := by
  rw [State.rxDrop, if_pos h]
  exact ⟨State.get_incSat_width (w := 32) s (F.STM_PORT_RX_DROP_CNT_COUNT p) (.of rfl (by omega)) rfl, (changesOnly.refl _ s).put (by simp), rfl⟩

end

/-- Settles O30: links as `portLinkUp_effect` and `portLinkDown_effect` say, counted errors, and a logged port failure. -/
theorem portsLinkAndCount : Obligations.PortsLinkAndCount := by
  refine ⟨fun p s => ⟨fun hport hen hfence => ?_, fun h => ?_, fun h => ?_, fun h => ?_, fun h => ?_, fun h => ?_⟩,
    fun p s h => ⟨fecUncorrectableCodeword_effect s h, fun c hc => ?_⟩, fun p s h c hc => ?_, fun p lane s => ⟨fun h => ?_, fun h => ?_⟩⟩
  · obtain ⟨t, ht, hlink, hfault, hshare⟩ := portLinkUp_effect s ⟨hport, hen, hfence⟩
    exact ⟨t, ht, hlink, hfault, memSame_of_linkShare hshare, hshare.frame⟩
  · exact congrArg Host.Outcome.next (if_neg (by rw [h]; simp))
  · exact congrArg Host.Outcome.next (if_neg (by rw [h]; simp))
  · exact congrArg Host.Outcome.next (if_neg (by rw [h]; simp))
  · obtain ⟨t, ht, h1, h2, h3, h4, hshare⟩ := portLinkDown_effect s h
    exact ⟨t, ht, h1, h2, h3, h4, memSame_of_unlinkShare hshare, hshare.frame⟩
  · exact congrArg Host.Outcome.next (if_neg (by rw [h]; decide))
  · obtain ⟨h1, h2, h3⟩ := s.rxDrop_effect h
    simp only [List.mem_cons, List.not_mem_nil, or_false] at hc
    obtain rfl | rfl := hc
    · exact ⟨_, rfl, h1, h2, h3⟩
    · exact ⟨_, rfl, h1, h2, h3⟩
  · have hno : ¬ isPort s.regs p = true := by rw [h]; decide
    simp only [List.mem_cons, List.not_mem_nil, or_false] at hc
    obtain rfl | rfl | rfl := hc
    · exact congrArg Host.Outcome.next (if_neg hno)
    · exact congrArg Host.Outcome.next (if_neg hno)
    · exact congrArg Host.Outcome.next (if_neg hno)
  · exact ⟨_, congrArg Host.Outcome.next (if_pos h), State.post_seen _ _ _ _ _, (changesOnly.refl _ s).post⟩
  · exact congrArg Host.Outcome.next (if_neg (by omega))

end Sys2Proof.Machine
end

section
/-! SUPPORT. Streams form packets (R180-R185), and the release of what a port has sent (R122, R189). -/

namespace Sys2Proof.Machine

open Sys2Proof.Safety

/-! ### Releases -/

/-- What a release changes of the block: the groups, what they stage, the tally frames, and for a group g chapter 5's registers. -/
def releaseShare (g : Nat) : Share where
  upd s t := { s with regs := t.regs, grps := t.grps, stageFill := t.stageFill, frames := t.frames }
  regs off := 16 ≤ g ∨ (0x500000 ≤ off ∧ off < 0x501000)
  self _ := rfl
  again _ _ _ := rfl

section
variable (s : State) (g : Nat)

/-- A register of group g is part of the share. -/
theorem releaseShare_regs {off : Nat} (h : 0x500000 ≤ off ∧ off < 0x500100) : (releaseShare g).regs (off + 0x100 * g) := by
  show 16 ≤ g ∨ _
  omega

theorem State.setGrp_releaseShare (gr : Grp) : (releaseShare g).Only s (s.setGrp g gr) := .parts rfl rfl

theorem State.stageBytes_releaseShare (tag addr : Nat) (bs : List Byte) : (releaseShare g).Only s (s.stageBytes g tag addr bs) := .parts rfl rfl

theorem State.addItem_releaseShare (kind num slot mask start : Nat) : (releaseShare g).Only s (s.addItem g kind num slot mask start) := by
  unfold State.addItem
  dsimp only
  split
  · exact s.setGrp_releaseShare _ _
  · exact s.setGrp_releaseShare _ _

theorem State.gapDesc_releaseShare (cause a b mask : Nat) : (releaseShare g).Only s (s.gapDesc g cause a b mask) := by
  unfold State.gapDesc
  extract_lets gr cap prev full s1 s2
  have hs1 : (releaseShare g).Only s s1 := s.stageBytes_releaseShare g _ _ _
  have hs2 : (releaseShare g).Only s1 s2 := .ite (.trans (.put (releaseShare_regs g (by decide)))
    (.put (releaseShare_regs g (by decide)))) (.refl _ _)
  exact ((hs1.trans hs2).trans (s2.setGrp_releaseShare _ _)).trans (State.addItem_releaseShare _ _ _ _ _ _ _)

theorem State.gapTo_releaseShare (upto : Nat) : (releaseShare g).Only s (s.gapTo g upto) :=
  .ite (.refl _ _) (.trans (s.setGrp_releaseShare g _) (.foldl _ _ (fun t _ _ => t.gapDesc_releaseShare g _ _ _ _) _))

theorem State.showGaps_releaseShare : (releaseShare g).Only s (s.showGaps g) := by
  have hopen : (releaseShare g).regs (F.REC_GRP_STATUS_GAP_OPEN g).off := releaseShare_regs g (by decide)
  have hwords : ∀ j, R.REC_GRP_GAP_OPEN g ≤ j → j < R.REC_GRP_GAP_OPEN g + 4 * 2 → (releaseShare g).regs j := by
    intro j h1 h2
    simp only [R.REC_GRP_GAP_OPEN] at h1 h2
    show 16 ≤ g ∨ _
    omega
  unfold State.showGaps
  dsimp only
  split
  · exact .trans (.putN hwords) (.put hopen)
  · exact .trans (.putN hwords) (.put hopen)

theorem State.gapSync_releaseShare : (releaseShare g).Only s (s.gapSync g) := (s.gapTo_releaseShare g _).trans (State.showGaps_releaseShare _ g)

theorem State.holdWatch_releaseShare : (releaseShare g).Only s (s.holdWatch g) :=
  .ite (.refl _ _) (((s.setGrp_releaseShare g _).trans (State.setGrp_releaseShare _ g _)).trans (State.gapSync_releaseShare _ g))

theorem State.showOldest_releaseShare : (releaseShare g).Only s (s.showOldest g) := by
  have hoff : (releaseShare g).regs (F.REC_GRP_OLDEST_EMPTY g).off := releaseShare_regs g (by decide)
  unfold State.showOldest
  split
  · exact .put hoff
  · exact .trans (.put (f := F.REC_GRP_OLDEST_EMPTY g) hoff) (.put hoff)

theorem State.showPressure_releaseShare : (releaseShare g).Only s (s.showPressure g) :=
  .put (f := F.REC_GRP_STATUS_PRESSURE g) (releaseShare_regs g (by decide))

theorem State.freeSlot_releaseShare (num : Nat) : (releaseShare g).Only s (s.freeSlot g num) :=
  (((s.setGrp_releaseShare g _).trans (State.showOldest_releaseShare _ g)).trans (State.showPressure_releaseShare _ g)).trans (State.holdWatch_releaseShare _ g)

theorem State.releaseSlot_releaseShare (num : Nat) : (releaseShare g).Only s (s.releaseSlot g num) := by
  unfold State.releaseSlot
  dsimp only
  split
  · exact .ite (s.freeSlot_releaseShare g num) (s.setGrp_releaseShare g _)
  · exact .refl _ _

theorem State.readerDone_releaseShare (num reader : Nat) : (releaseShare g).Only s (s.readerDone g num reader) := by
  unfold State.readerDone
  dsimp only
  split
  · exact .ite (.trans (s.setGrp_releaseShare g _) (.ite (State.releaseSlot_releaseShare _ g num) (State.holdWatch_releaseShare _ g))) (.refl _ _)
  · exact .refl _ _

theorem State.setPins_releaseShare (reader : Nat) (pages : List Nat) : (releaseShare g).Only s (s.setPins g reader pages) :=
  (s.setGrp_releaseShare g _).trans (.put (f := F.REC_GRP_STATUS_PINNED g) (releaseShare_regs g (by decide)))

/-- The group that a release speaks of, 0 where it speaks of none. -/
def Release.grp : Release → Nat
  | .record g _ => g
  | _ => 0

theorem State.releaseItem_releaseShare (q : Nat) (r : Release) : (releaseShare r.grp).Only s (s.releaseItem q r) := by
  cases r with
  | none => exact .refl _ _
  | record g num => exact (s.setPins_releaseShare g _ _).trans (State.readerDone_releaseShare _ g _ _)
  | frame pub => exact .parts rfl rfl

end

end Sys2Proof.Machine
end

section
/-! SUPPORT. Streams form packets and ports send them (R178-R190, R197). -/

namespace Sys2Proof.Machine

open Sys2Proof.Safety

/-! ### A packet is formed (R180) -/

section
variable (s : State)

theorem RegTab.fld_congr {r r' : RegTab} {f : Fld} (h : r'.word f.off = r.word f.off) : r'.fld f = r.fld f := by
  rw [RegTab.fld, RegTab.fld, h]

theorem State.get_incWrap_width {w : Nat} (f : Fld) (hf : f.ok) (hw : f.hi - f.lo + 1 = w) : (s.incWrap f).get f = (s.get f + 1) % 2 ^ w := by
  subst hw
  exact RegTab.fld_setFld_self _ _ hf

theorem foldl_pick_congr {w w' : Nat → Nat} (h : ∀ p, w' p = w p) (l : List Nat) (b : Option Nat) :
    l.foldl (fun b p => match b with
      | none => some p
      | some x => if w' p < w' x then some p else some x) b =
    l.foldl (fun b p => match b with
      | none => some p
      | some x => if w p < w x then some p else some x) b := by
  rw [show w' = w from funext h]

/-- The port that a stream's packet goes to rests on the ports, the stream's set and the links. -/
theorem State.pickPort_congr {s t : State} {q : Nat} (hports : t.ports = s.ports) (hset : t.portSet q = s.portSet q)
    (hlink : ∀ p < 128, t.linkUp p = s.linkUp p) : t.pickPort q = s.pickPort q := by
  have hwait : ∀ p, (t.port p).waiting = (s.port p).waiting := fun p => by rw [State.port, State.port, hports]
  have hfilter : (s.portSet q).filter t.linkUp = (s.portSet q).filter s.linkUp := by
    refine List.filter_congr fun p hp => hlink p ?_
    exact List.mem_range.mp (List.mem_filter.mp hp).1
  unfold State.pickPort
  rw [hset, hfilter]
  exact foldl_pick_congr hwait _ none

theorem State.portSet_congr {s t : State} {q : Nat} (h : ∀ i < 4, t.regs.word (R.STM_Q_PORTS q i) = s.regs.word (R.STM_Q_PORTS q i)) :
    t.portSet q = s.portSet q := by
  refine List.filter_congr fun p hp => ?_
  have hi : p / 32 < 4 := by
    have := List.mem_range.mp hp
    omega
  have hget : t.get (F.STM_Q_PORTS_PORTS q (p / 32)) = s.get (F.STM_Q_PORTS_PORTS q (p / 32)) := RegTab.fld_congr (h _ hi)
  rw [hget]

/-- Packet k waits on port p now. -/
structure Queued (p : Nat) (k : Pkt) (s t : State) : Prop where
  queue : (t.port p).queue = (s.port p).queue ++ [k]
  other : ∀ j, j ≠ p → t.port j = s.port j
  frame : t = { s with ports := t.ports }

theorem State.sendPkt_queued {s : State} {k : Pkt} {p : Nat} (h : s.pickPort k.q = some p) : Queued p k s (s.sendPkt k) := by
  have hsend : s.sendPkt k = (s.setPort p { s.port p with queue := (s.port p).queue ++ [k] }).startFrame p := by
    unfold State.sendPkt
    rw [h]
  have hport := s.port_setPort_same p { s.port p with queue := (s.port p).queue ++ [k] }
  have hother := fun (j : Nat) (hj : j ≠ p) => s.port_setPort_other p hj { s.port p with queue := (s.port p).queue ++ [k] }
  have hset : s.setPort p { s.port p with queue := (s.port p).queue ++ [k] } =
      { s with ports := (s.setPort p { s.port p with queue := (s.port p).queue ++ [k] }).ports } := rfl
  rw [hsend]
  generalize s.setPort p { s.port p with queue := (s.port p).queue ++ [k] } = u at *
  obtain ⟨⟨_, _, _, hserved⟩, hstart, hframe⟩ := u.startFrame_started p
  generalize u.startFrame p = t at *
  refine ⟨?_, fun j hj => (hstart j hj).trans (hother j hj), hframe.trans ((congrArg (fun w : State => { w with ports := t.ports }) hset).trans rfl)⟩
  rw [hserved, hport]

/-- Stream q has formed packet k under its next sequence, and port p has it. -/
structure Formed (q p : Nat) (k : Pkt) (s t : State) : Prop where
  seq : t.get (F.STM_Q_SEQ_SEQ q) = (s.get (F.STM_Q_SEQ_SEQ q) + 1) % 2 ^ 32
  queue : (t.port p).queue = (s.port p).queue ++ [k]
  other : ∀ j, j ≠ p → t.port j = s.port j
  cur : (t.strm q).cur = (s.strm q).cur
  marker : (t.strm q).marker = (s.strm q).marker
  share : strmShare.Only s t

/-- A sequence is taken. -/
def State.seqTaken (s : State) (q : Nat) (x : Strm) : State := (s.setStrm q x).incWrap (F.STM_Q_SEQ_SEQ q)

theorem State.pickPort_seqTaken (q : Nat) (x : Strm) : (s.seqTaken q x).pickPort q = s.pickPort q := by
  refine State.pickPort_congr rfl (State.portSet_congr fun i hi => RegTab.word_setFld_other _ _ _ _ ?_) fun p hp => RegTab.bit_setFld_sep _ _ (.of rfl ?_)
  · simp only [R.STM_Q_PORTS, F.STM_Q_SEQ_SEQ]
    omega
  · omega

theorem State.formPkt_formed {s : State} {q p : Nat} (h : s.pickPort q = some p) (typ num off lcnt : Nat) (payload : List Byte)
    (first last poison : Bool) (rel : Release) :
    ∃ k : Pkt, k.q = q ∧ k.typ = typ ∧ k.seq = s.get (F.STM_Q_SEQ_SEQ q) ∧ k.payload = payload.length ∧ k.rel = rel ∧
      Formed q p k s (s.formPkt q typ num off lcnt payload first last poison rel) := by
  obtain ⟨x, k, hform, h1, h2, h3, h4, h5, hcur, hmark⟩ : ∃ (x : Strm) (k : Pkt),
      s.formPkt q typ num off lcnt payload first last poison rel = (s.seqTaken q x).sendPkt k ∧ k.q = q ∧ k.typ = typ ∧
      k.seq = s.get (F.STM_Q_SEQ_SEQ q) ∧ k.payload = payload.length ∧ k.rel = rel ∧ x.cur = (s.strm q).cur ∧
      x.marker = (s.strm q).marker :=
    ⟨_, _, rfl, rfl, rfl, rfl, rfl, rfl, rfl, rfl⟩
  refine ⟨k, h1, h2, h3, h4, h5, ?_⟩
  rw [hform]
  have hpick : (s.seqTaken q x).pickPort k.q = some p := by rw [h1, State.pickPort_seqTaken, h]
  have hsent := State.sendPkt_queued hpick
  have hseq : (s.seqTaken q x).get (F.STM_Q_SEQ_SEQ q) = (s.get (F.STM_Q_SEQ_SEQ q) + 1) % 2 ^ 32 :=
    State.get_incWrap_width (w := 32) _ (F.STM_Q_SEQ_SEQ q) (.of rfl (by omega)) rfl
  have hstrm : (s.seqTaken q x).strm q = x := Tab.get_set_same _ _ _ _
  have hshare : strmShare.Only s (s.seqTaken q x) := .trans (.parts (t := s.setStrm q x) rfl rfl)
    (.put (f := F.STM_Q_SEQ_SEQ q) (by simp only [strmShare, F.STM_Q_SEQ_SEQ]; omega))
  have hports : (s.seqTaken q x).ports = s.ports := rfl
  generalize s.seqTaken q x = u at *
  obtain ⟨hqueue, hother, hframe⟩ := hsent
  have hport : ∀ j, u.port j = s.port j := fun j => congrArg (fun y => Tab.get Port.init y j) hports
  have htstrm : (u.sendPkt k).strm q = x := (congrArg (fun y => Tab.get Strm.init y q) ((congrArg State.strms hframe).trans rfl)).trans hstrm
  have hregs : (u.sendPkt k).regs = u.regs := (congrArg State.regs hframe).trans rfl
  exact ⟨(congrArg (fun r => RegTab.fld r _) hregs).trans hseq, hqueue.trans (by rw [hport]), fun j hj => (hother j hj).trans (hport j),
    (congrArg Strm.cur htstrm).trans hcur, (congrArg Strm.marker htstrm).trans hmark, hshare.trans (.parts hregs (strmShare.frame_of hframe rfl))⟩

/-! ### Packets from the store (R184) -/

/-- What a request for the store's bandwidth changes. -/
def askShare (k : Nat) : Share where
  upd s t := { s with regs := t.regs, sto := t.sto }
  regs off := off = (F.STO_CLASS_BACKLOG_BYTES k).off
  self _ := rfl
  again _ _ _ := rfl

theorem State.ask_askShare (k key n : Nat) : (askShare k).Only s (s.ask k key n).2 := by
  exact ⟨rfl, fun off ho => RegTab.word_setFld_other _ _ _ _ ho⟩

/-- What the forming of a packet changes. -/
def formShare : Share where
  upd s t := { s with regs := t.regs, sto := t.sto, ports := t.ports, strms := t.strms }
  regs _ := True
  self _ := rfl
  again _ _ _ := rfl

theorem formShare_of_askShare {k : Nat} {s t : State} (h : (askShare k).Only s t) : formShare.Only s t :=
  ⟨formShare.frame_of h.frame rfl, fun _ h => absurd trivial h⟩

theorem formShare_of_strmShare {s t : State} (h : strmShare.Only s t) : formShare.Only s t :=
  ⟨formShare.frame_of h.frame rfl, fun _ h => absurd trivial h⟩

theorem memSame_of_formShare {s t : State} (h : formShare.Only s t) : memSame s t :=
  memSame_of_fields ((congrArg State.store h.frame).trans rfl) ((congrArg State.flash h.frame).trans rfl)

theorem memSame_of_strmShare {s t : State} (h : strmShare.Only s t) : memSame s t := memSame_of_formShare (formShare_of_strmShare h)

/-- The state that the next fragment's packet is formed on. -/
structure Fetched (q : Nat) (i : Option StItem) (s t : State) : Prop where
  share : strmShare.Only s t
  ports : t.ports = s.ports
  cur : (t.strm q).cur = i
  pick : t.pickPort q = s.pickPort q
  seq : t.get (F.STM_Q_SEQ_SEQ q) = s.get (F.STM_Q_SEQ_SEQ q)

theorem State.setCur_fetched (q : Nat) (i : Option StItem) : Fetched q i s (s.setStrm q { s.strm q with cur := i }) :=
  ⟨.parts rfl rfl, rfl, congrArg Strm.cur (Tab.get_set_same _ _ _ _), rfl, rfl⟩

theorem Fetched.poison {q n : Nat} {i : Option StItem} {s t : State} (h : Fetched q i s t) :
    Fetched q i s ((t.addSat (F.STM_Q_POISON_CNT_COUNT q) n).setF (F.STM_Q_STATUS_POISON_SEEN q)) := by
  obtain ⟨hshare, hports, hcur, hpick, hseq⟩ := h
  have hput : strmShare.Only t ((t.addSat (F.STM_Q_POISON_CNT_COUNT q) n).setF (F.STM_Q_STATUS_POISON_SEEN q)) :=
    .trans (.put (f := F.STM_Q_POISON_CNT_COUNT q) (by simp only [strmShare, F.STM_Q_POISON_CNT_COUNT]; omega))
      (.put (f := F.STM_Q_STATUS_POISON_SEEN q) (v := 1) (by simp only [strmShare, F.STM_Q_STATUS_POISON_SEEN]; omega))
  have hword : ∀ j < 4, ((t.addSat (F.STM_Q_POISON_CNT_COUNT q) n).setF (F.STM_Q_STATUS_POISON_SEEN q)).regs.word (R.STM_Q_PORTS q j) =
      t.regs.word (R.STM_Q_PORTS q j) := fun j hj =>
    (RegTab.word_setFld_other _ _ _ _ (by simp only [R.STM_Q_PORTS, F.STM_Q_STATUS_POISON_SEEN]; omega)).trans
      (RegTab.word_setFld_other _ _ _ _ (by simp only [R.STM_Q_PORTS, F.STM_Q_POISON_CNT_COUNT]; omega))
  have hseq' : ((t.addSat (F.STM_Q_POISON_CNT_COUNT q) n).setF (F.STM_Q_STATUS_POISON_SEEN q)).get (F.STM_Q_SEQ_SEQ q) =
      t.get (F.STM_Q_SEQ_SEQ q) :=
    (RegTab.fld_setFld_sep _ _ (.of rfl (by omega))).trans (RegTab.fld_setFld_sep _ _ (.of rfl (by omega)))
  have hputPorts : ((t.addSat (F.STM_Q_POISON_CNT_COUNT q) n).setF (F.STM_Q_STATUS_POISON_SEEN q)).ports = t.ports := rfl
  have hputStrm : ((t.addSat (F.STM_Q_POISON_CNT_COUNT q) n).setF (F.STM_Q_STATUS_POISON_SEEN q)).strm q = t.strm q := rfl
  generalize (t.addSat (F.STM_Q_POISON_CNT_COUNT q) n).setF (F.STM_Q_STATUS_POISON_SEEN q) = u at *
  exact ⟨hshare.trans hput, hputPorts.trans hports, (congrArg Strm.cur hputStrm).trans hcur,
    (State.pickPort_congr hputPorts (State.portSet_congr hword) fun p hp => linkUp_of_strmShare hput hp).trans hpick, hseq'.trans hseq⟩

/-- What a stream's next packet leaves. -/
structure PacketFormed (q p : Nat) (i : StItem) (whole : Prop) (s t : State) (k : Pkt) : Prop where
  seq : t.get (F.STM_Q_SEQ_SEQ q) = (s.get (F.STM_Q_SEQ_SEQ q) + 1) % 2 ^ 32
  queue : (t.port p).queue = (s.port p).queue ++ [k]
  strm : k.q = q
  typ : k.typ = i.typ
  num : k.seq = s.get (F.STM_Q_SEQ_SEQ q)
  last : whole → (t.strm q).cur = none ∧ k.rel = i.rel
  other : ∀ j, j ≠ p → t.port j = s.port j
  share : strmShare.Only s t

theorem State.nextFragment_formed {s : State} {q p off len : Nat} {rest : List (Nat × Nat)} {i : StItem} (hpick : s.pickPort q = some p)
    (hranges : i.ranges = (off, len) :: rest) : ∃ k, PacketFormed q p i (rest = [] ∧ len ≤ s.fragment q) s (s.nextFragment q i) k := by
  obtain ⟨u, c, hu, hform⟩ : ∃ (u : State) (c : Option StItem), Fetched q c s u ∧ ∃ num o l bs f poison,
      let n := min len (max 64 (s.fragment q))
      let left := if n < len then (off + n, len - n) :: rest else rest
      s.nextFragment q i = u.formPkt q i.typ num o l bs f (left == []) poison (if (left == []) = true then i.rel else .none) ∧
      ((left == []) = true → c = none) := by
    unfold State.nextFragment
    rw [hranges]
    dsimp only
    generalize hleft : (if min len (max 64 (s.fragment q)) < len then
      (off + min len (max 64 (s.fragment q)), len - min len (max 64 (s.fragment q))) :: rest else rest) = left
    by_cases hb : (s.imageBytes i.pages off (min len (max 64 (s.fragment q)))).2 = []
    · rw [if_pos hb]
      exact ⟨_, _, s.setCur_fetched q _, _, _, _, _, _, _, rfl, fun h => if_pos h⟩
    · rw [if_neg hb]
      exact ⟨_, _, (s.setCur_fetched q _).poison, _, _, _, _, _, _, rfl, fun h => if_pos h⟩
  obtain ⟨num, o, l, bs, f, poison, hform, hc⟩ := hform
  obtain ⟨hshare, hports, hcur, hupick, hseq⟩ := hu
  obtain ⟨k, h1, h2, h3, -, h5, hk⟩ := State.formPkt_formed (hupick.trans hpick) i.typ num o l bs f _ poison _
  rw [← hform] at hk
  have hport : ∀ j, u.port j = s.port j := fun j => congrArg (fun y => Tab.get Port.init y j) hports
  refine ⟨k, hk.seq.trans (by rw [hseq]), hk.queue.trans (by rw [hport]), h1, h2, h3.trans hseq, fun hwhole => ?_,
    fun j hj => (hk.other j hj).trans (hport j), hshare.trans hk.share⟩
  have hlast : ((if min len (max 64 (s.fragment q)) < len then
      (off + min len (max 64 (s.fragment q)), len - min len (max 64 (s.fragment q))) :: rest else rest) == []) = true := by
    rw [if_neg (by omega), hwhole.1]
    rfl
  exact ⟨hk.cur.trans (hcur.trans (hc hlast)), h5.trans (if_pos hlast)⟩

theorem State.showStrm_seq (q : Nat) : (s.showStrm q).get (F.STM_Q_SEQ_SEQ q) = s.get (F.STM_Q_SEQ_SEQ q) := by
  simp (disch := first | exact .of rfl (by omega) | omega) [State.showStrm, State.get, State.putB]

theorem State.showStrm_strm (q j : Nat) : (s.showStrm q).strm j = s.strm j := rfl

theorem State.showStrm_port (q j : Nat) : (s.showStrm q).port j = s.port j := rfl

theorem PacketFormed.shown {q p : Nat} {i : StItem} {whole : Prop} {s t : State} {k : Pkt} (h : PacketFormed q p i whole s t k) :
    PacketFormed q p i whole s (t.showStrm q) k :=
  ⟨(t.showStrm_seq q).trans h.seq, h.queue, h.strm, h.typ, h.num, h.last, h.other, h.share.trans (t.showStrm_strmShare q)⟩

theorem filter_linkUp_of_pick {s : State} {q p : Nat} (h : s.pickPort q = some p) : ((s.portSet q).filter s.linkUp).isEmpty = false := by
  have hm := State.pickPort_linkUp h
  exact List.isEmpty_eq_false_iff.mpr (List.ne_nil_of_mem (List.mem_filter.mpr hm))

theorem streamPacketForm_formed {q : Fin 1024} {p off len : Nat} {rest : List (Nat × Nat)} {i : StItem} (hrole : s.get F.TWIN_STATUS_ROLE ≠ 2)
    (hen : s.flag (F.STM_Q_CTRL_EN q) = true) (hpick : s.pickPort q = some p) (hcur : (s.strm q).cur = some i)
    (hranges : i.ranges = (off, len) :: rest) (hask : (s.ask 0 q (s.formBytes q)).1 = true) :
    ∃ t k, exec (.streamPacketForm q) s = .next t ∧ PacketFormed q p i (rest = [] ∧ len ≤ s.fragment q) (s.ask 0 q (s.formBytes q)).2 t k := by
  have hshare := s.ask_askShare 0 q (s.formBytes q)
  have hgo : ¬ (s.flag (F.STM_Q_CTRL_EN q) = false ∨ ((s.portSet q).filter s.linkUp).isEmpty = true) := by
    rw [hen, filter_linkUp_of_pick hpick]
    simp
  have hform : s.formNext q = ((s.ask 0 q (s.formBytes q)).2).nextFragment q i := by
    have hqueued : (s.ask 0 q (s.formBytes q)).2.startQueued q = (s.ask 0 q (s.formBytes q)).2 := by
      have hc : ((s.ask 0 q (s.formBytes q)).2.strm q).cur = some i := hcur
      unfold State.startQueued
      rw [hc]
    have hc : ((s.ask 0 q (s.formBytes q)).2.strm q).cur = some i := hcur
    unfold State.formNext
    rw [if_neg hgo]
    dsimp only
    rw [if_pos hask, hqueued, hc]
  have hexec : exec (.streamPacketForm q) s = .next ((s.formNext q).showStrm q) := congrArg Host.Outcome.next (if_neg hrole)
  rw [hform] at hexec
  generalize (s.ask 0 q (s.formBytes q)).2 = u at *
  have hports : u.ports = s.ports := (congrArg State.ports hshare.frame).trans rfl
  have hset : u.portSet q = s.portSet q := State.portSet_congr fun j hj => hshare.word _ (by
    simp only [askShare, R.STM_Q_PORTS, F.STO_CLASS_BACKLOG_BYTES]
    omega)
  have hlink : ∀ r < 128, u.linkUp r = s.linkUp r := fun r hr => hshare.bit (by
    simp only [askShare, F.STM_PORT_STATUS_LINK, F.STO_CLASS_BACKLOG_BYTES]
    omega)
  have hfrag : u.fragment q = s.fragment q := by
    have h1 : u.get (F.STM_Q_FRAME_FRAME_MAX q) = s.get (F.STM_Q_FRAME_FRAME_MAX q) := hshare.fld (by
      simp only [askShare, F.STM_Q_FRAME_FRAME_MAX, F.STO_CLASS_BACKLOG_BYTES]
      omega)
    have h2 : u.get (F.STM_Q_CTRL_ENCAP q) = s.get (F.STM_Q_CTRL_ENCAP q) := hshare.fld (by
      simp only [askShare, F.STM_Q_CTRL_ENCAP, F.STO_CLASS_BACKLOG_BYTES]
      omega)
    have h3 : u.flag (F.STM_Q_CTRL_VLAN_EN q) = s.flag (F.STM_Q_CTRL_VLAN_EN q) := hshare.bit (by
      simp only [askShare, F.STM_Q_CTRL_VLAN_EN, F.STO_CLASS_BACKLOG_BYTES]
      omega)
    rw [State.fragment, State.fragment, h1, h2, h3]
  obtain ⟨k, hk⟩ := State.nextFragment_formed ((State.pickPort_congr hports hset hlink).trans hpick) hranges
  rw [hfrag] at hk
  exact ⟨_, k, hexec, hk.shown⟩

end

end Sys2Proof.Machine
end

section
/-! SUPPORT. Time markers, transmission and the answers to requests for a port's address (R183, R188-R190, R197). -/

namespace Sys2Proof.Machine

open Sys2Proof.Safety

section
variable (s : State)

/-! ### Time markers (R183) -/

theorem timeMarkerDue_effect {q : Fin 1024} {p : Nat} (hrole : s.get F.TWIN_STATUS_ROLE ≠ 2) (hen : s.flag (F.STM_Q_CTRL_EN q) = true)
    (hmark : s.flag (F.STM_Q_CTRL_TMARK_EN q) = true) (hdue : s.tick % (tickLen * max 1 (s.get (F.STM_Q_TMARK_TICKS q))) = 0)
    (hnew : (s.strm q).marker ≠ some s.tick) (hpick : s.pickPort q = some p) :
    ∃ t k, exec (.timeMarkerDue q) s = .next t ∧ t.get (F.STM_Q_SEQ_SEQ q) = (s.get (F.STM_Q_SEQ_SEQ q) + 1) % 2 ^ 32 ∧
      (t.port p).queue = (s.port p).queue ++ [k] ∧ k.q = q.val ∧ k.typ = 3 ∧ k.payload = 32 ∧ (t.strm q).marker = some s.tick ∧
      strmShare.Only s t := by
  have hgo : s.get F.TWIN_STATUS_ROLE ≠ 2 ∧ s.flag (F.STM_Q_CTRL_EN q) = true ∧ s.flag (F.STM_Q_CTRL_TMARK_EN q) = true ∧
      (s.tick % (tickLen * max 1 (s.get (F.STM_Q_TMARK_TICKS q))) = 0 ∨ (s.epochAt s.tick).lcnt = s.tick) ∧
      (s.strm q).marker ≠ some s.tick ∧ ((s.portSet q).filter s.linkUp).isEmpty = false :=
    ⟨hrole, hen, hmark, .inl hdue, hnew, filter_linkUp_of_pick hpick⟩
  obtain ⟨lc, bs, hlen, hexec⟩ : ∃ (lc : Nat) (bs : List Byte), bs.length = 32 ∧ exec (.timeMarkerDue q) s =
      .next (((s.setStrm q { s.strm q with marker := some s.tick }).formPkt q 3 0 0 lc bs true true false .none).showStrm q) :=
    ⟨_, _, by simp [packLE, leBytes], congrArg Host.Outcome.next (if_pos hgo)⟩
  have hset : strmShare.Only s (s.setStrm q { s.strm q with marker := some s.tick }) := .parts rfl rfl
  have hsetMark : ((s.setStrm q { s.strm q with marker := some s.tick }).strm q).marker = some s.tick :=
    congrArg Strm.marker (Tab.get_set_same _ _ _ _)
  have hsetPick : (s.setStrm q { s.strm q with marker := some s.tick }).pickPort q = some p := hpick
  have hsetSeq : (s.setStrm q { s.strm q with marker := some s.tick }).get (F.STM_Q_SEQ_SEQ q) = s.get (F.STM_Q_SEQ_SEQ q) := rfl
  have hsetPort : (s.setStrm q { s.strm q with marker := some s.tick }).port p = s.port p := rfl
  generalize s.setStrm q { s.strm q with marker := some s.tick } = u at *
  obtain ⟨k, h1, h2, -, h4, -, hk⟩ := State.formPkt_formed hsetPick 3 0 0 lc bs true true false .none
  generalize u.formPkt q 3 0 0 lc bs true true false .none = v at *
  refine ⟨_, k, hexec, (v.showStrm_seq q).trans (hk.seq.trans (by rw [hsetSeq])), hk.queue.trans (by rw [hsetPort]), h1, h2, h4.trans hlen,
    hk.marker.trans hsetMark, (hset.trans hk.share).trans (v.showStrm_strmShare q)⟩

/-! ### A frame leaves (R188-R190) -/

/-- The packet that port p sends next. -/
def State.sends (s : State) (p : Nat) (k : Pkt) : Prop :=
  (s.port p).started = some k ∨ ((s.port p).started = none ∧ s.linkUp p = true ∧ ∃ y, s.nextPkt p = some (k, y))

theorem State.startFrame_of_sends {s : State} {p : Nat} {k : Pkt} (h : s.sends p k) : ((s.startFrame p).port p).started = some k := by
  unfold State.startFrame
  obtain hk | ⟨hnone, hup, y, hy⟩ := h
  · rw [if_pos (.inr (by rw [hk]; rfl)), hk]
  · rw [if_neg (by rw [hup, hnone]; simp), hy]
    exact congrArg Port.started (s.port_setPort_same p _)

/-- The frame that port p has started has left. -/
def State.frameSent (s : State) (p : Nat) (k : Pkt) : State :=
  ((s.setPort p { s.port p with
    queue := (s.port p).queue.filter (fun j => !(j.q == k.q && j.seq == k.seq))
    started := none }).emit (.packet p (s.frameBytes p k))).txCount p

theorem exec_packetTransmitDone {p : Fin 128} {k : Pkt} (h : s.sends p k) : exec (.packetTransmitDone p) s =
    .next (((((s.startFrame p).frameSent p k).releaseItem k.q k.rel).startFrame p).showStrm k.q) := by
  have hstarted := State.startFrame_of_sends h
  simp only [exec, execPacketTransmitDone, hstarted, State.frameSent]

theorem State.frameBytes_congr {s t : State} (h : t.regs = s.regs) (p : Nat) (k : Pkt) : t.frameBytes p k = s.frameBytes p k := by
  unfold State.frameBytes State.ipv6Of State.getN State.get
  rw [h]

/-- What a transmission changes. -/
def sentShare : Share where
  upd s t := { s with out := t.out, regs := t.regs, grps := t.grps, stageFill := t.stageFill, frames := t.frames, ports := t.ports }
  regs _ := True
  self _ := rfl
  again _ _ _ := rfl

theorem sentShare_of_txShare {p : Nat} {s t : State} (h : (txShare p).Only s t) : sentShare.Only s t :=
  ⟨sentShare.frame_of h.frame rfl, fun _ h => absurd trivial h⟩

theorem sentShare_of_releaseShare {g : Nat} {s t : State} (h : (releaseShare g).Only s t) : sentShare.Only s t :=
  ⟨sentShare.frame_of h.frame rfl, fun _ h => absurd trivial h⟩

theorem memSame_of_sentShare {s t : State} (h : sentShare.Only s t) : memSame s t :=
  memSame_of_fields ((congrArg State.store h.frame).trans rfl) ((congrArg State.flash h.frame).trans rfl)

theorem State.frameSent_txShare (p : Nat) (k : Pkt) : (txShare p).Only s (s.frameSent p k) :=
  .trans (.parts (t := (s.setPort p { s.port p with
    queue := (s.port p).queue.filter (fun j => !(j.q == k.q && j.seq == k.seq))
    started := none }).emit (.packet p (s.frameBytes p k))) rfl rfl) (.putN (fun _ h1 h2 => ⟨h1, h2⟩))

theorem packetTransmitDone_effect {p : Fin 128} {k : Pkt} (h : s.sends p k) : ∃ t, exec (.packetTransmitDone p) s = .next t ∧
    t.out = .packet p (s.frameBytes p k) :: s.out ∧
    (t.port p).queue = (s.port p).queue.filter (fun x => !(x.q == k.q && x.seq == k.seq)) ∧
    (k.rel.grp < 16 → t.getN (R.STM_PORT_TX_FRAMES p) 2 = (s.getN (R.STM_PORT_TX_FRAMES p) 2 + 1) % 2 ^ 64) ∧
    (∀ j : Nat, j ≠ p → t.port j = s.port j) ∧ sentShare.Only s t := by
  refine ⟨_, exec_packetTransmitDone s h, ?_⟩
  have h0 := s.startFrame_started p
  generalize s.startFrame p = u0 at *
  have hbytes : u0.frameBytes p k = s.frameBytes p k := State.frameBytes_congr ((congrArg State.regs h0.frame).trans rfl) p k
  have hqueue0 : (u0.port p).queue = (s.port p).queue := by
    obtain ⟨_, _, _, hserved⟩ := h0.served
    rw [hserved]
  have h1 := u0.frameSent_txShare p k
  have hout1 : (u0.frameSent p k).out = .packet p (u0.frameBytes p k) :: u0.out := rfl
  have hport1 : ((u0.frameSent p k).port p).queue = (u0.port p).queue.filter (fun x => !(x.q == k.q && x.seq == k.seq)) :=
    congrArg Port.queue (u0.port_setPort_same p _)
  have hother1 : ∀ j : Nat, j ≠ p → (u0.frameSent p k).port j = u0.port j := fun j hj => u0.port_setPort_other p hj _
  have hcount1 : (u0.frameSent p k).getN (R.STM_PORT_TX_FRAMES p) 2 = (u0.getN (R.STM_PORT_TX_FRAMES p) 2 + 1) % 2 ^ 64 :=
    (State.getN_putN _ _ _ _).trans (Nat.mod_mod _ _)
  generalize u0.frameSent p k = u1 at *
  have h2 := u1.releaseItem_releaseShare k.q k.rel
  generalize u1.releaseItem k.q k.rel = u2 at *
  have h3 := u2.startFrame_started p
  generalize u2.startFrame p = u3 at *
  have hport2 : ∀ j, u2.port j = u1.port j := fun j => congrArg (fun y => Tab.get Port.init y j) ((congrArg State.ports h2.frame).trans rfl)
  have hout2 : u2.out = u1.out := (congrArg State.out h2.frame).trans rfl
  have hregs3 : u3.regs = u2.regs := (congrArg State.regs h3.frame).trans rfl
  refine ⟨?_, ?_, fun hg => ?_, fun j hj => ?_, ?_⟩
  · show u3.out = _
    rw [(congrArg State.out h3.frame).trans rfl, hout2, hout1, hbytes, (congrArg State.out h0.frame).trans rfl]
  · obtain ⟨_, _, _, hserved⟩ := h3.served
    show (u3.port p).queue = _
    rw [hserved, hport2, hport1, hqueue0]
  · have hstrm : (u3.showStrm k.q).getN (R.STM_PORT_TX_FRAMES p) 2 = u3.getN (R.STM_PORT_TX_FRAMES p) 2 :=
      (u3.showStrm_strmShare k.q).wide fun j _ _ => by
        simp only [strmShare, R.STM_PORT_TX_FRAMES] at *
        omega
    have hrel : u2.getN (R.STM_PORT_TX_FRAMES p) 2 = u1.getN (R.STM_PORT_TX_FRAMES p) 2 := h2.wide fun j _ _ => by
      simp only [releaseShare, R.STM_PORT_TX_FRAMES] at *
      omega
    have hstart : u0.getN (R.STM_PORT_TX_FRAMES p) 2 = s.getN (R.STM_PORT_TX_FRAMES p) 2 :=
      congrArg (fun r => RegTab.wide r _ 2) ((congrArg State.regs h0.frame).trans rfl)
    rw [hstrm, State.getN, hregs3]
    exact hrel.trans (hcount1.trans (by rw [hstart]))
  · exact (h3.other j hj).trans ((hport2 j).trans ((hother1 j hj).trans (h0.other j hj)))
  · exact ((((sentShare_of_txShare h0.txShare).trans (sentShare_of_txShare h1)).trans (sentShare_of_releaseShare h2)).trans
      (sentShare_of_txShare h3.txShare)).trans ⟨rfl, fun _ h => absurd trivial h⟩

theorem packetTransmitDone_of_none {p : Fin 128} (hstart : (s.port p).started = none) (h : s.linkUp p = false ∨ s.nextPkt p = none) :
    exec (.packetTransmitDone p) s = .next s := by
  have hsame : s.startFrame p = s := by
    unfold State.startFrame
    obtain hdown | hnone := h
    · exact if_pos (.inl hdown)
    · rw [hnone]
      exact ite_self s
  simp only [exec, execPacketTransmitDone, hsame, hstart]

/-! ### Answers (R197) -/

/-- An answer's frame (R178), its body given. -/
def State.replyFrame (s : State) (p dmac typ : Nat) (body : List Byte) : List Byte :=
  beBytes 6 dmac ++ beBytes 6 (s.getN (R.STM_PORT_MAC p) 2) ++ beBytes 2 typ ++ body

/-- An answer on port p. -/
structure Answered (p mac : Nat) (s t : State) (bs : List Byte) : Prop where
  dest : bs.take 6 = beBytes 6 mac
  long : 60 ≤ bs.length
  free : s.heldPrio p 0 = false → t.out = .packet p bs :: s.out ∧ (t.port p).ctl = [] ∧
    t.getN (R.STM_PORT_TX_FRAMES p) 2 = (s.getN (R.STM_PORT_TX_FRAMES p) 2 + 1) % 2 ^ 64
  held : s.heldPrio p 0 = true → t.out = s.out ∧ (t.port p).ctl = [.packet p bs]
  other : ∀ j : Nat, j ≠ p → t.port j = s.port j
  reg : changesOnly (wideFlds (R.STM_PORT_TX_FRAMES p) 2) s t
  frame : t = { s with out := t.out, regs := t.regs, ports := t.ports }

theorem beBytes_length (n v : Nat) : (beBytes n v).length = n := (List.length_reverse).trans (Tests.leBytes_length n v)

theorem State.reply_answered {p : Nat} (mac typ : Nat) (body : List Byte) (hctl : (s.port p).ctl = []) :
    ∃ bs, Answered p mac s (s.reply p mac typ body) bs := by
  refine ⟨s.replyFrame p mac typ body ++ List.replicate (60 - (s.replyFrame p mac typ body).length) 0, ?_⟩
  have hreply : s.reply p mac typ body = s.sendCtl p (.packet p (s.replyFrame p mac typ body ++
    List.replicate (60 - (s.replyFrame p mac typ body).length) 0)) := rfl
  have hto : (s.replyFrame p mac typ body ++ List.replicate (60 - (s.replyFrame p mac typ body).length) 0).take 6 = beBytes 6 mac := by
    rw [State.replyFrame, List.append_assoc, List.append_assoc, List.append_assoc, List.take_append_of_le_length (by rw [beBytes_length]),
      List.take_of_length_le (by rw [beBytes_length])]
  have hlong : 60 ≤ (s.replyFrame p mac typ body ++ List.replicate (60 - (s.replyFrame p mac typ body).length) (0 : Byte)).length := by
    rw [List.length_append, List.length_replicate]
    omega
  rw [hreply]
  generalize s.replyFrame p mac typ body ++ List.replicate (60 - (s.replyFrame p mac typ body).length) 0 = bs at *
  cases hheld : s.heldPrio p 0 with
  | true =>
    rw [s.sendCtl_held p _ hheld hctl]
    refine ⟨hto, hlong, fun h => ?_, fun _ => ⟨rfl, congrArg Port.ctl (s.port_setPort_same p _)⟩, fun j hj => s.port_setPort_other p hj _,
      (changesOnly.refl _ s).parts rfl rfl rfl rfl, rfl⟩
    rw [hheld] at h
    cases h
  | false =>
    obtain ⟨hout, hcount, hreg, -, hframe, hport⟩ := s.sendCtl_sent (.packet p bs) hheld hctl
    refine ⟨hto, hlong, fun _ => ⟨hout, ?_, hcount⟩, fun h => ?_, fun j hj => (hport j).trans (if_neg hj), hreg, hframe⟩
    · exact congrArg Port.ctl ((hport p).trans (if_pos rfl))
    · rw [hheld] at h
      cases h

end

/-- Settles O32: a formed packet as `PacketFormed` and `timeMarkerDue_effect` say, a sent one as `packetTransmitDone_effect` says, and
the answers of `Answered`. -/
theorem streamsFormAndPortsSend : Obligations.StreamsFormAndPortsSend := by
  refine ⟨fun q s => ⟨fun h => ⟨?_, ?_⟩, fun hrole h => ⟨?_, ?_⟩, fun hrole h => ⟨?_, ?_⟩, fun hrole hen hup hask => ?_, ?_, ?_⟩,
    fun p s => ⟨fun hn h => packetTransmitDone_of_none s hn h, ?_⟩, fun p target ip mac s hport => ⟨?_, ?_, ?_, ?_⟩⟩
  · exact congrArg Host.Outcome.next (if_pos h)
  · exact congrArg Host.Outcome.next (if_neg fun hc => hc.1 h)
  · exact congrArg Host.Outcome.next ((if_neg hrole).trans (congrArg (State.showStrm · q) (if_pos (.inl h))))
  · exact congrArg Host.Outcome.next (if_neg fun hc => by rw [h] at hc; simp at hc)
  · exact congrArg Host.Outcome.next ((if_neg hrole).trans (congrArg (State.showStrm · q) (if_pos (.inr (by rw [h]; rfl)))))
  · exact congrArg Host.Outcome.next (if_neg fun hc => by rw [h] at hc; simp at hc)
  · refine congrArg Host.Outcome.next ((if_neg hrole).trans (congrArg (State.showStrm · q) ((if_neg ?_).trans ?_)))
    · rw [hen]
      simpa using hup
    · exact if_neg (by rw [hask]; decide)
  · intro p off len rest i hrole hen hpick hcur hranges hask
    obtain ⟨t, k, ht, hk⟩ := streamPacketForm_formed s hrole hen hpick hcur hranges hask
    have hshare := s.ask_askShare 0 q (s.formBytes q)
    generalize (s.ask 0 q (s.formBytes q)).2 = u at *
    have hseq : u.get (F.STM_Q_SEQ_SEQ q) = s.get (F.STM_Q_SEQ_SEQ q) := hshare.fld (by
      simp only [askShare, F.STM_Q_SEQ_SEQ, F.STO_CLASS_BACKLOG_BYTES]
      omega)
    have hports : ∀ j, u.port j = s.port j := fun j => congrArg (fun y => Tab.get Port.init y j) ((congrArg State.ports hshare.frame).trans rfl)
    have hall := (formShare_of_askShare hshare).trans (formShare_of_strmShare hk.share)
    exact ⟨t, k, ht, hk.seq.trans (by rw [hseq]), hk.queue.trans (by rw [hports]), hk.strm, hk.typ, hk.num.trans hseq,
      fun h1 h2 => hk.last ⟨h1, h2⟩, fun j hj => (hk.other j hj).trans (hports j), memSame_of_formShare hall, hall.frame⟩
  · intro p hrole hen hmark hdue hnew hpick
    obtain ⟨t, k, ht, h1, h2, h3, h4, h5, h6, hshare⟩ := timeMarkerDue_effect s hrole hen hmark hdue hnew hpick
    exact ⟨t, k, ht, h1, h2, h3, h4, h5, h6, memSame_of_strmShare hshare, hshare.frame⟩
  · intro k hk
    obtain ⟨t, ht, h1, h2, h3, h4, hshare⟩ := packetTransmitDone_effect s hk
    refine ⟨t, ht, h1, h2, fun hg => h3 ?_, h4, memSame_of_sentShare hshare, hshare.frame⟩
    cases hrel : k.rel with
    | none => exact Nat.succ_pos 15
    | record g num => exact hg g num hrel
    | frame pub => exact Nat.succ_pos 15
  · intro hip htarget hctl
    obtain ⟨bs, h1, h2, h3, h4, h5, h6, h7⟩ := s.reply_answered mac 0x0806 (packBE [(2, 1), (2, 0x0800), (1, 6), (1, 4), (2, 2),
      (6, s.getN (R.STM_PORT_MAC p) 2), (4, s.get (F.STM_PORT_IPV4_ADDR p)), (6, mac), (4, ip)]) hctl
    exact ⟨_, bs, congrArg Host.Outcome.next (if_pos ⟨hport, hip, htarget⟩), h1, h2, h3, h4, h5, h6, h7⟩
  · intro htarget
    obtain ⟨h1, h2, h3⟩ := s.rxDrop_effect hport
    exact ⟨_, congrArg Host.Outcome.next (if_neg fun hc => htarget hc.2.2), h1, (congrArg State.out h3).trans rfl, h2⟩
  · intro hip htarget hlow hctl
    obtain ⟨body, hexec⟩ : ∃ body, exec (.rxNeighbourSolicitation p target ip mac) s = .next (s.reply p mac 0x86DD body) :=
      ⟨_, congrArg Host.Outcome.next (if_pos ⟨hport, hip, htarget, hlow⟩)⟩
    obtain ⟨bs, h1, h2, h3, h4, h5, h6, h7⟩ := s.reply_answered mac 0x86DD body hctl
    exact ⟨_, bs, hexec, h1, h2, h3, h4, h5, h6, h7⟩
  · intro htarget
    obtain ⟨h1, h2, h3⟩ := s.rxDrop_effect hport
    exact ⟨_, congrArg Host.Outcome.next (if_neg fun hc => htarget hc.2.2.1), h1, (congrArg State.out h3).trans rfl, h2⟩

end Sys2Proof.Machine
end

section
/-! SUPPORT. Analogue crossings (R74, R78, R80): the interpolator that measures one, and what the groups are offered. -/

namespace Sys2Proof.Machine

open Sys2Proof.Safety

/-! ### What an offer puts into the queues (R73) -/

section
variable (s : State)

/-- An event joins a group's queue. -/
def Grp.queued (gr : Grp) (e : TrgEv) : Grp := { gr with events := insertEv e gr.events }

theorem State.grp_setGrp (g k : Nat) (x : Grp) : (s.setGrp g x).grp k = if k = g then x else s.grp k := Tab.get_set _ _ _ _ _

theorem State.grp_setGrp_same (g : Nat) (x : Grp) : (s.setGrp g x).grp g = x := Tab.get_set_same _ _ _ _

theorem State.grp_setGrp_other {g k : Nat} (h : k ≠ g) (x : Grp) : (s.setGrp g x).grp k = s.grp k := Tab.get_set_other _ _ _ _ _ h

/-- One group of an offer. -/
def State.offerTo (s : State) (src t : Nat) (rising coarse : Bool) (g : Nat) : State :=
  if (s.grp g).armed ∧ (src ∈ srcsOf (s.cfgAt (t / 65536)) g ∨ src ∈ srcsOf s.regs g) then
    s.queueEv g ⟨t, .cross src rising coarse⟩ else s

theorem State.offerTo_other {g k : Nat} (h : k ≠ g) (src t : Nat) (rising coarse : Bool) : (s.offerTo src t rising coarse g).grp k = s.grp k := by
  unfold State.offerTo
  split
  · exact s.grp_setGrp_other h _
  · rfl

theorem State.offerTo_frame (src t : Nat) (rising coarse : Bool) (g : Nat) :
    s.offerTo src t rising coarse g = { s with grps := (s.offerTo src t rising coarse g).grps } := by
  unfold State.offerTo
  split <;> rfl

/-- A group of an offer takes what is offered to it alone. -/
theorem State.foldl_offerTo (src t : Nat) (rising coarse : Bool) (g : Nat) (l : List Nat) (hl : l.Nodup) (hg : g ∈ l) :
    (l.foldl (fun u k => u.offerTo src t rising coarse k) s).grp g = (s.offerTo src t rising coarse g).grp g := by
  induction l generalizing s with
  | nil => cases hg
  | cons k l ih =>
    obtain ⟨hk, hl⟩ := List.nodup_cons.mp hl
    rw [List.foldl_cons]
    obtain rfl | hne := eq_or_ne g k
    · have hrest : ∀ (m : List Nat) (u : State), g ∉ m → (m.foldl (fun u k => u.offerTo src t rising coarse k) u).grp g = u.grp g := by
        intro m
        induction m with
        | nil => exact fun _ _ => rfl
        | cons x m ihm =>
          intro u hm
          rw [List.mem_cons, not_or] at hm
          exact (ihm _ hm.2).trans (u.offerTo_other hm.1 src t rising coarse)
      exact hrest l _ hk
    · have hmem : g ∈ l := (List.mem_cons.mp hg).resolve_left hne
      have hgrp := s.offerTo_other hne src t rising coarse
      have hframe := s.offerTo_frame src t rising coarse k
      rw [ih _ hl hmem]
      generalize s.offerTo src t rising coarse k = u at *
      have hregs : u.regs = s.regs := (congrArg State.regs hframe).trans rfl
      have hhist : u.hist = s.hist := (congrArg State.hist hframe).trans rfl
      unfold State.offerTo State.queueEv State.cfgAt
      rw [hgrp, hregs, hhist]
      split
      · exact (u.grp_setGrp_same g _).trans (s.grp_setGrp_same g _).symm
      · exact hgrp

theorem State.offer_grp (src t : Nat) (rising coarse : Bool) {g : Nat} (hg : g < 16) :
    (s.offer src t rising coarse).grp g = (s.offerTo src t rising coarse g).grp g :=
  s.foldl_offerTo src t rising coarse g _ List.nodup_range (List.mem_range.mpr hg)

/-- An armed group that names the source queues the crossing. -/
theorem State.offer_armed {src g : Nat} (t : Nat) (rising coarse : Bool) (hg : g < 16) (harm : (s.grp g).armed = true) (hsrc : src ∈ srcsOf s.regs g) :
    ((s.offer src t rising coarse).grp g).events = insertEv ⟨t, .cross src rising coarse⟩ (s.grp g).events := by
  rw [s.offer_grp src t rising coarse hg, State.offerTo, if_pos ⟨harm, .inr hsrc⟩]
  exact congrArg Grp.events (s.grp_setGrp_same g _)

/-- A group that is not armed takes nothing. -/
theorem State.offer_unarmed {g : Nat} (src t : Nat) (rising coarse : Bool) (hg : g < 16) (harm : (s.grp g).armed = false) :
    (s.offer src t rising coarse).grp g = s.grp g := by
  rw [s.offer_grp src t rising coarse hg, State.offerTo, if_neg (by rw [harm]; simp)]

/-! ### A crossing is measured (R78, R80) -/

/-- A crossing shows in the comparator's state and count. -/
def State.crossed (s : State) (n c : Nat) (rising : Bool) : State :=
  ((s.at_ c).putB (F.TRG_AC_STATUS_STATE n) rising).incWrap (F.TRG_AC_CROSS_CNT_COUNT n)

/-- What a crossing changes. -/
def crossShare : Share where
  upd s t := { s with lcnt := t.lcnt, regs := t.regs, acs := t.acs, ints := t.ints, grps := t.grps }
  regs _ := True
  self _ := rfl
  again _ _ _ := rfl

/-- What is true of a comparator's registers after a crossing. -/
structure Crossed (n c : Nat) (rising : Bool) (s t : State) : Prop where
  lcnt : t.lcnt = max s.lcnt c
  state : t.flag (F.TRG_AC_STATUS_STATE n) = rising
  count : t.get (F.TRG_AC_CROSS_CNT_COUNT n) = (s.get (F.TRG_AC_CROSS_CNT_COUNT n) + 1) % 2 ^ 32
  reg : changesOnly [F.TRG_AC_STATUS_STATE n, F.TRG_AC_CROSS_CNT_COUNT n, F.TRG_AC_STATUS_COARSE_SEEN n] s t
  share : crossShare.Only s t

theorem State.crossed_crossed (n c : Nat) (rising : Bool) : Crossed n c rising s (s.crossed n c rising) := by
  refine ⟨rfl, ?_, ?_, ?_, .trans (.trans (.parts (t := s.at_ c) rfl rfl) (.put (f := F.TRG_AC_STATUS_STATE n) (v := if rising then 1 else 0) trivial))
    (.put (f := F.TRG_AC_CROSS_CNT_COUNT n) trivial)⟩
  · exact (RegTab.bit_setFld_sep _ _ (.of rfl (by omega))).trans (RegTab.bit_setFld_ite (f := F.TRG_AC_STATUS_STATE n) _ (.of rfl (by omega)) rising)
  · exact (State.get_incWrap_width (w := 32) _ (F.TRG_AC_CROSS_CNT_COUNT n) (.of rfl (by omega)) rfl).trans
      (congrArg (fun x => (x + 1) % 2 ^ 32) (RegTab.fld_setFld_sep _ _ (.of rfl (by omega))))
  · exact (((changesOnly.refl _ s).parts (u := s.at_ c) rfl rfl rfl rfl).put (f := F.TRG_AC_STATUS_STATE n) (by simp)).put
      (f := F.TRG_AC_CROSS_CNT_COUNT n) (by simp)

theorem Crossed.parts {n c : Nat} {rising : Bool} {s t u : State} (h : Crossed n c rising s t)
    (hu : u = { t with acs := u.acs, ints := u.ints, grps := u.grps }) : Crossed n c rising s u := by
  have hregs : u.regs = t.regs := (congrArg State.regs hu).trans rfl
  exact ⟨((congrArg State.lcnt hu).trans rfl).trans h.lcnt, (congrArg (fun r => RegTab.bit r _) hregs).trans h.state,
    (congrArg (fun r => RegTab.fld r _) hregs).trans h.count,
    h.reg.parts hregs ((congrArg State.store hu).trans rfl) ((congrArg State.flash hu).trans rfl) ((congrArg State.pending hu).trans rfl),
    h.share.trans (.parts hregs (crossShare.frame_of hu rfl))⟩

theorem State.intAt_crossed {n : Nat} (second : Bool) (c : Nat) (rising : Bool) : (s.crossed n c rising).intAt n second = s.intAt n second := by
  unfold State.intAt State.crossed
  simp (disch := first | exact .of rfl (by omega) | omega) [State.get, State.putB]

theorem State.intReady_crossed {n : Nat} (hn : n < 288) (second : Bool) (c : Nat) (rising : Bool) :
    (s.crossed n c rising).intReady n second c = s.intReady n second c := by
  have hfail : ∀ i, (s.crossed n c rising).flag (F.TRG_INT_CAL_FAILED (n / 6) i) = s.flag (F.TRG_INT_CAL_FAILED (n / 6) i) := fun i => by
    unfold State.crossed
    simp (disch := first | exact .of rfl (by omega) | omega) [State.flag, State.putB]
  unfold State.intReady
  dsimp only
  rw [s.intAt_crossed second c rising, hfail]
  rfl

/-- Which interpolator measures, and the crossing's state. -/
theorem exec_analogCrossing {n : Fin 288} {c : Nat} {rising : Bool} (h : s.acOpen n c rising = true) :
    exec (.analogCrossing n c rising) s = .next (
      if s.intReady n (s.ac n).nextB c then (s.crossed n c rising).startMeas n c rising (s.ac n).nextB
      else if s.intReady n (!(s.ac n).nextB) c then (s.crossed n c rising).startMeas n c rising (!(s.ac n).nextB)
      else (s.crossed n c rising).coarse n c rising) := by
  refine congrArg Host.Outcome.next ((if_pos h).trans ?_)
  show (if (s.crossed n c rising).intReady n (s.ac n).nextB c then _ else if (s.crossed n c rising).intReady n (!(s.ac n).nextB) c then _ else _) = _
  rw [s.intReady_crossed n.isLt, s.intReady_crossed n.isLt]
  rfl

theorem State.startMeas_ip (n c : Nat) (rising second : Bool) :
    (s.startMeas n c rising second).ip (16 * (n / 6) + s.intAt n second) =
      { s.ip (16 * (n / 6) + s.intAt n second) with readyAt := c + 16, meas := some (c, n, rising), idleFrom := c } := Tab.get_set_same _ _ _ _

theorem State.startMeas_ac (n c : Nat) (rising second : Bool) : ((s.startMeas n c rising second).ac n).nextB = !second :=
  congrArg Ac.nextB (Tab.get_set_same _ _ _ _)

theorem State.coarse_frame (n c : Nat) (rising : Bool) : Crossed n c rising s (s.crossed n c rising) →
    Crossed n c rising s ((s.crossed n c rising).setF (F.TRG_AC_STATUS_COARSE_SEEN n)) := fun h =>
  ⟨h.lcnt, (RegTab.bit_setFld_sep _ _ (.of rfl (by omega))).trans h.state, (RegTab.fld_setFld_sep _ _ (.of rfl (by omega))).trans h.count,
    h.reg.put (f := F.TRG_AC_STATUS_COARSE_SEEN n) (v := 1) (by simp),
    h.share.trans (.put (f := F.TRG_AC_STATUS_COARSE_SEEN n) (v := 1) trivial)⟩

end

/-- Settles O12: the interpolator in turn measures, else the other, else the crossing is coarse. -/
theorem analogCrossingsAreMeasured : Obligations.AnalogCrossingsAreMeasured := by
  intro n c rising b s hb
  subst hb
  refine ⟨fun h => congrArg Host.Outcome.next (if_neg (by
    rw [show (s.at_ c).acOpen n c rising = s.acOpen n c rising from rfl, h]
    decide)), fun h => ?_⟩
  have hexec := exec_analogCrossing s h
  have hcross := s.crossed_crossed n c rising
  have hint := fun second => s.intAt_crossed (n := n) second c rising
  have hacs : (s.crossed n c rising).acs = s.acs := rfl
  have hints : (s.crossed n c rising).ints = s.ints := rfl
  have hgrps : (s.crossed n c rising).grps = s.grps := rfl
  by_cases hready : s.intReady n (s.ac n).nextB c = true
  · rw [if_pos hready] at hexec
    obtain ⟨hl, hs, hc, hr, hsh⟩ := hcross.parts (u := (s.crossed n c rising).startMeas n c rising (s.ac n).nextB) rfl
    have hip := (s.crossed n c rising).startMeas_ip n c rising (s.ac n).nextB
    have hac := (s.crossed n c rising).startMeas_ac n c rising (s.ac n).nextB
    rw [hint] at hip
    exact ⟨_, hexec, hl, hs, hc, fun _ => ⟨(congrArg Ip.meas hip).trans rfl, (congrArg Ip.readyAt hip).trans rfl, hac, hgrps⟩,
      fun h' => absurd h' (by rw [hready]; decide), fun h' => absurd h' (by rw [hready]; decide), hr, hsh.frame⟩
  · rw [if_neg hready] at hexec
    by_cases hother : s.intReady n (!(s.ac n).nextB) c = true
    · rw [if_pos hother] at hexec
      obtain ⟨hl, hs, hc, hr, hsh⟩ := hcross.parts (u := (s.crossed n c rising).startMeas n c rising (!(s.ac n).nextB)) rfl
      have hip := (s.crossed n c rising).startMeas_ip n c rising (!(s.ac n).nextB)
      have hac := (s.crossed n c rising).startMeas_ac n c rising (!(s.ac n).nextB)
      rw [hint] at hip
      exact ⟨_, hexec, hl, hs, hc, fun h' => absurd h' hready, fun _ _ => ⟨(congrArg Ip.meas hip).trans rfl, hac.trans (Bool.not_not _), hgrps⟩,
        fun _ h' => absurd h' (by rw [hother]; decide), hr, hsh.frame⟩
    · rw [if_neg hother] at hexec
      have hseen : ((s.crossed n c rising).setF (F.TRG_AC_STATUS_COARSE_SEEN n)).flag (F.TRG_AC_STATUS_COARSE_SEEN n) = true :=
        RegTab.bit_setFld_one _ (.of rfl (by omega))
      have hset := s.coarse_frame n c rising hcross
      unfold State.coarse at hexec
      have hoffer := ((s.crossed n c rising).setF (F.TRG_AC_STATUS_COARSE_SEEN n)).offer_grpsShare n
        (65536 * c + 32768 - (s.crossed n c rising).get (F.TRG_AC_DELAY_DELAY n)) rising true
      generalize 65536 * c + 32768 - (s.crossed n c rising).get (F.TRG_AC_DELAY_DELAY n) = x at *
      have hacs' : ((s.crossed n c rising).setF (F.TRG_AC_STATUS_COARSE_SEEN n)).acs = s.acs := rfl
      have hints' : ((s.crossed n c rising).setF (F.TRG_AC_STATUS_COARSE_SEEN n)).ints = s.ints := rfl
      generalize (s.crossed n c rising).setF (F.TRG_AC_STATUS_COARSE_SEEN n) = u at *
      generalize u.offer n x rising true = t at *
      obtain ⟨hl, hs, hc, hr, hsh⟩ := hset.parts (u := t) (by rw [hoffer.frame]; rfl)
      exact ⟨t, hexec, hl, hs, hc, fun h' => absurd h' hready, fun _ h' => absurd h' hother, fun _ _ =>
        ⟨(congrArg (fun r => RegTab.bit r _) ((congrArg State.regs hoffer.frame).trans rfl)).trans hseen,
          ((congrArg State.ints hoffer.frame).trans rfl).trans hints', ((congrArg State.acs hoffer.frame).trans rfl).trans hacs'⟩, hr, hsh.frame⟩

end Sys2Proof.Machine
end

section
/-! SUPPORT. Digital crossings, timers and patterns (R75, R82, R84): what joins a group's queue. -/

namespace Sys2Proof.Machine

open Sys2Proof.Safety

section
variable (s : State)

/-! ### Digital crossings (R75, R82) -/

theorem digitalCrossing_effect {m : Fin 192} {r : DcScan} (hr : r = (s.dc m).scan (fun c => dcLevels (s.cfgAt c) m) (s.dc m).vals)
    {x : Nat} {rising : Bool} (h : r.found = some (x, rising)) : ∃ t, exec (.digitalCrossing m) s = .next t ∧ t.dc m = r.dc ∧
      (∀ g : Fin 16, (s.grp g).armed = true → 0x120 + m.val ∈ srcsOf s.regs g →
        (t.grp g).events = insertEv ⟨x, .cross (0x120 + m) rising false⟩ (s.grp g).events) ∧
      (∀ g : Fin 16, (s.grp g).armed = false → t.grp g = s.grp g) ∧
      (∀ k : Nat, k ≠ m → t.dc k = s.dc k) ∧ t = { s with dcs := t.dcs, grps := t.grps } := by
  have hexec : exec (.digitalCrossing m) s = .next ((s.setDc m r.dc).offer (0x120 + m) x rising false) := by
    subst hr
    simp only [exec, execDigitalCrossing, h]
  have hself : (s.setDc m r.dc).dc m = r.dc := Tab.get_set_same _ _ _ _
  have hother : ∀ k : Nat, k ≠ m → (s.setDc m r.dc).dc k = s.dc k := fun k hk => Tab.get_set_other _ _ _ _ _ hk
  have harm : ∀ g : Fin 16, (s.grp g).armed = true → 0x120 + m.val ∈ srcsOf s.regs g →
      (((s.setDc m r.dc).offer (0x120 + m) x rising false).grp g).events = insertEv ⟨x, .cross (0x120 + m) rising false⟩ (s.grp g).events :=
    fun g h1 h2 => (s.setDc m r.dc).offer_armed x rising false g.isLt h1 h2
  have hun : ∀ g : Fin 16, (s.grp g).armed = false → ((s.setDc m r.dc).offer (0x120 + m) x rising false).grp g = s.grp g :=
    fun g h1 => (s.setDc m r.dc).offer_unarmed (0x120 + m) x rising false g.isLt h1
  have hset : s.setDc m r.dc = { s with dcs := (s.setDc m r.dc).dcs } := rfl
  generalize s.setDc m r.dc = u at *
  have hoffer := u.offer_grpsShare (0x120 + m) x rising false
  generalize u.offer (0x120 + m) x rising false = t at *
  have hdcs : ∀ k, t.dc k = u.dc k := fun k => congrArg (fun y => Tab.get Dc.init y k) ((congrArg State.dcs hoffer.frame).trans rfl)
  refine ⟨t, hexec, (hdcs m).trans hself, harm, hun, fun k hk => (hdcs k).trans (hother k hk), ?_⟩
  have hframe : t = { u with grps := t.grps } := hoffer.frame
  obtain ⟨d, hd⟩ : ∃ d, u = { s with dcs := d } := ⟨_, hset⟩
  subst hd
  rw [hframe]

/-! ### An event of one group -/

theorem State.queueEv_effect {g : Fin 16} (e : TrgEv) {x : Nat} (h : x = e.t / 65536) :
    (((s.at_ x).queueEv g e).grp g).events = insertEv e (s.grp g).events ∧
    ((s.at_ x).queueEv g e).lcnt = max s.lcnt (e.t / 65536) ∧ (∀ k : Nat, k ≠ g → ((s.at_ x).queueEv g e).grp k = s.grp k) ∧
    (s.at_ x).queueEv g e = { s with lcnt := ((s.at_ x).queueEv g e).lcnt, grps := ((s.at_ x).queueEv g e).grps } := by
  subst h
  exact ⟨congrArg Grp.events ((s.at_ _).grp_setGrp_same g _), rfl, fun k hk => (s.at_ _).grp_setGrp_other hk _, rfl⟩

theorem not_contains_of_not_mem {e : TrgEv} {l : List TrgEv} (h : e ∉ l) : l.contains e = false := by
  simpa using h

theorem State.freshDef_of_nil {g : Nat} (t : Nat) (h : (s.grp g).defAt = []) : s.freshDef g t = s := by
  unfold State.freshDef
  dsimp only
  rw [h]
  rfl

end

/-- Settles O14: a found crossing is offered, and a timer, a pattern or an expiry acts on its own group alone. -/
theorem crossingsAndTimersQueue : Obligations.CrossingsAndTimersQueue := by
  refine ⟨fun m r s hr => ⟨fun h => ?_, fun x rising h => digitalCrossing_effect s hr h⟩, ?_, ?_, ?_, ?_, ?_, ?_⟩
  · subst hr
    simp only [exec, execDigitalCrossing, h]
  · intro g x e s hx he htyp hheld harm hnew
    have hgo : (trgDef s.regs g).typ = 7 ∧ (match srcCh (trgDef s.regs g).a with
        | some n => bitOf s.calMask n
        | none => false) = false ∧ (s.grp g).armed = true ∧ (s.grp g).events.contains e = false := by
      refine ⟨htyp, ?_, harm, not_contains_of_not_mem hnew⟩
      split
      next n hn => exact hheld n hn
      next => rfl
    obtain ⟨h1, h2, h3, h4⟩ := s.queueEv_effect (g := g) e rfl
    subst he
    refine ⟨_, ?_, h1, h2, h3, h4⟩
    simp only [exec, execTimeoutExpiry, hx]
    exact congrArg Host.Outcome.next (if_pos hgo)
  · intro g s h
    simp only [exec, execTimeoutExpiry, h]
  · intro g x e s hdef hx he htyp hq hw harm hnew
    obtain ⟨h1, h2, h3, h4⟩ := s.queueEv_effect (g := g) e rfl
    have hgo : (trgDef s.regs g).typ = 5 ∧ (trgDef s.regs g).wqual = true ∧ (trgDef s.regs g).wcond = 1 ∧ (s.grp g).armed = true ∧
        (s.grp g).events.contains e = false := ⟨htyp, hq, hw, harm, not_contains_of_not_mem hnew⟩
    subst he
    refine ⟨_, ?_, h1, h2, h3, h4⟩
    simp only [exec, execPatternDurationReached, s.freshDef_of_nil _ hdef, hx]
    exact congrArg Host.Outcome.next (if_pos hgo)
  · intro g s hdef hx
    simp only [exec, execPatternDurationReached, s.freshDef_of_nil _ hdef, hx]
  · intro g x rest s hpend htyp hthi hall
    have hgo : (trgDef s.regs g).typ = 6 ∧ (trgDef s.regs g).thi ≠ 0 ∧
        (s.grp g).events.all (fun e => x + (trgDef s.regs g).thi < e.t) = true := ⟨htyp, hthi, by simpa using hall⟩
    refine ⟨(s.at_ ((x + (trgDef s.regs g).thi) / 65536 + 1)).setGrp g { s.grp g with part := { (s.grp g).part with pend := rest } }, ?_,
      ?_, ?_, rfl, fun k hk => (s.at_ _).grp_setGrp_other hk _, rfl⟩
    · simp only [exec, execSequenceAExpiry, hpend]
      exact congrArg Host.Outcome.next (if_pos hgo)
    · exact congrArg (fun y : Grp => y.part.pend) ((s.at_ _).grp_setGrp_same g _)
    · exact (congrArg Grp.events ((s.at_ _).grp_setGrp_same g _)).trans rfl
  · intro g s h
    simp only [exec, execSequenceAExpiry, h]

end Sys2Proof.Machine
end

section
/-! SUPPORT. Interpolators (R78, R79, R81): measurements, refreshes, failures and the spare that takes a place. -/

namespace Sys2Proof.Machine

open Sys2Proof.Safety

/-! ### A group's sources rest on its own registers -/

theorem mem_bitsSet {n m i : Nat} (h : i ∈ bitsSet n m) : i < n := List.mem_range.mp (List.mem_filter.mp h).1

theorem srcsOf_congr {r r' : RegTab} {g : Nat} (hg : g < 16) (h : ∀ off, 0x408000 ≤ off → off < 0x409000 → r'.word off = r.word off) :
    srcsOf r' g = srcsOf r g := by
  have hfld : ∀ f : Fld, 0x408000 ≤ f.off → f.off < 0x409000 → r'.fld f = r.fld f := fun f h1 h2 => RegTab.fld_congr (h f.off h1 h2)
  have ha := hfld (F.TRG_GRP_SRC_SRC_A g) (by simp only [F.TRG_GRP_SRC_SRC_A]; omega) (by simp only [F.TRG_GRP_SRC_SRC_A]; omega)
  have hb := hfld (F.TRG_GRP_SRC_SRC_B g) (by simp only [F.TRG_GRP_SRC_SRC_B]; omega) (by simp only [F.TRG_GRP_SRC_SRC_B]; omega)
  have htype := hfld (F.TRG_GRP_CTRL_TYPE g) (by simp only [F.TRG_GRP_CTRL_TYPE]; omega) (by simp only [F.TRG_GRP_CTRL_TYPE]; omega)
  have hslots : patSlots r' g = patSlots r g := by
    have hcare := hfld (F.TRG_GRP_PVAL_CARE g) (by simp only [F.TRG_GRP_PVAL_CARE]; omega) (by simp only [F.TRG_GRP_PVAL_CARE]; omega)
    rw [patSlots, patSlots, hcare]
  have hsrc : (patSlots r g).map (patSrc r' g) = (patSlots r g).map (patSrc r g) := by
    refine List.map_congr_left fun i hi => ?_
    have hlt := mem_bitsSet hi
    have hlo := hfld (F.TRG_GRP_PSRC_SLOT_LO g (i / 2)) (by simp only [F.TRG_GRP_PSRC_SLOT_LO]; omega) (by simp only [F.TRG_GRP_PSRC_SLOT_LO]; omega)
    have hhi := hfld (F.TRG_GRP_PSRC_SLOT_HI g (i / 2)) (by simp only [F.TRG_GRP_PSRC_SLOT_HI]; omega) (by simp only [F.TRG_GRP_PSRC_SLOT_HI]; omega)
    rw [patSrc, patSrc, hlo, hhi]
  unfold srcsOf
  rw [ha, hb, htype, hslots, hsrc]

section
variable (s : State)

/-! ### Reference codes (R79, R81) -/

/-- An interpolator holds these reference codes. -/
def State.refsHeld (s : State) (ch i n1 n2 : Nat) : State := (s.put (F.TRG_INT_CAL_N1 ch i) n1).put (F.TRG_INT_CAL_N2 ch i) n2

/-- What a measurement or a refresh changes while no interpolator fails. -/
def intShare : Share where
  upd s t := { s with lcnt := t.lcnt, regs := t.regs, ints := t.ints }
  regs off := 0x40A000 ≤ off ∧ off < 0x40B000
  self _ := rfl
  again _ _ _ := rfl

theorem State.refsHeld_refs (ch i : Nat) (n1 n2 : BitVec 12) : (s.refsHeld ch i n1.toNat n2.toNat).get (F.TRG_INT_CAL_N1 ch i) = n1.toNat ∧
    (s.refsHeld ch i n1.toNat n2.toNat).get (F.TRG_INT_CAL_N2 ch i) = n2.toNat := by
  refine ⟨(RegTab.fld_setFld_sep _ _ (.of rfl (by omega))).trans ((RegTab.fld_setFld_self _ _ (.of rfl (by omega))).trans ?_),
    (RegTab.fld_setFld_self _ _ (.of rfl (by omega))).trans ?_⟩
  · exact Nat.mod_eq_of_lt n1.isLt
  · exact Nat.mod_eq_of_lt n2.isLt

theorem State.refsHeld_intShare {ch i : Nat} (hch : ch < 48) (hi : i < 16) (n1 n2 : Nat) : intShare.Only s (s.refsHeld ch i n1 n2) := by
  refine .trans (.put (f := F.TRG_INT_CAL_N1 ch i) ?_) (.put (f := F.TRG_INT_CAL_N2 ch i) ?_)
  · simp only [intShare, F.TRG_INT_CAL_N1]
    omega
  · simp only [intShare, F.TRG_INT_CAL_N2]
    omega

theorem State.refsHeld_reg (ch i n1 n2 : Nat) : changesOnly [F.TRG_INT_CAL_N1 ch i, F.TRG_INT_CAL_N2 ch i] s (s.refsHeld ch i n1 n2) :=
  ((changesOnly.refl _ s).put (f := F.TRG_INT_CAL_N1 ch i) (by simp)).put (f := F.TRG_INT_CAL_N2 ch i) (by simp)

theorem State.intRefs_good {ch i n1 n2 : Nat} (h : intBad n1 n2 = false) : s.intRefs ch i n1 n2 = s.refsHeld ch i n1 n2 :=
  if_neg (by rw [h]; decide)

theorem State.intRefs_bad {ch i n1 n2 : Nat} (h : intBad n1 n2 = true) : s.intRefs ch i n1 n2 = (s.refsHeld ch i n1 n2).intFail ch i := if_pos h

theorem State.ip_setIp_same (k : Nat) (x : Ip) : (s.setIp k x).ip k = x := Tab.get_set_same _ _ _ _

/-! ### The end of a measurement -/

/-- The interpolator is free again and holds its new codes. -/
def State.measured (s : State) (ch i c : Nat) (n1 n2 : BitVec 12) : State :=
  ((s.at_ (c + 16)).setIp (16 * ch + i) { s.ip (16 * ch + i) with meas := none }).refsHeld ch i n1.toNat n2.toNat

theorem exec_interpolatorMeasurement {ch : Fin 48} {i : Fin 16} {nm n1 n2 : BitVec 12} {c n x r1 r2 : Nat} {rising : Bool}
    (hmeas : (s.ip (16 * ch + i)).meas = some (c, n, rising)) (hgood : intBad n1.toNat n2.toNat = false)
    (h1 : r1 = s.get (F.TRG_INT_CAL_N1 ch i)) (h2 : r2 = s.get (F.TRG_INT_CAL_N2 ch i)) (hne : r1 ≠ r2)
    (hx : x = (65536 * ((c + 2 : Nat) : Int) - (65536 + roundDivI (65536 * ((nm.toNat : Int) - r1)) ((r2 : Int) - r1)) -
      s.get (F.TRG_AC_DELAY_DELAY n)).toNat) :
    exec (.interpolatorMeasurement ch i nm n1 n2) s = .next ((s.measured ch i c n1 n2).offer n x rising false) := by
  have hterm : (s.at_ (c + 16)).fineTerm nm.toNat r1 r2 = (roundDivI (65536 * ((nm.toNat : Int) - r1)) ((r2 : Int) - r1), s.at_ (c + 16)) :=
    if_neg hne
  simp only [exec, execInterpolatorMeasurement, hmeas]
  rw [← h1, ← h2, hterm, State.intRefs_good _ hgood]
  dsimp only
  rw [← hx]
  rfl

theorem State.measured_intShare {ch i : Nat} (hch : ch < 48) (hi : i < 16) (c : Nat) (n1 n2 : BitVec 12) : intShare.Only s (s.measured ch i c n1 n2) :=
  .trans (.parts (t := (s.at_ (c + 16)).setIp (16 * ch + i) { s.ip (16 * ch + i) with meas := none }) rfl rfl) (State.refsHeld_intShare _ hch hi _ _)

/-- A crossing has been offered to the groups. -/
structure Offered (src x : Nat) (rising coarse : Bool) (s t : State) : Prop where
  armed : ∀ g : Fin 16, (s.grp g).armed = true → src ∈ srcsOf s.regs g →
    (t.grp g).events = insertEv ⟨x, .cross src rising coarse⟩ (s.grp g).events
  unarmed : ∀ g : Fin 16, (s.grp g).armed = false → t.grp g = s.grp g
  frame : t = { s with grps := t.grps }

theorem State.offer_offered (src x : Nat) (rising coarse : Bool) : Offered src x rising coarse s (s.offer src x rising coarse) :=
  ⟨fun g h1 h2 => s.offer_armed x rising coarse g.isLt h1 h2, fun g h => s.offer_unarmed src x rising coarse g.isLt h,
    (s.offer_grpsShare src x rising coarse).frame⟩

/-- What an interpolator's end of measurement leaves before the groups see the crossing. -/
structure Measured (ch i c : Nat) (n1 n2 : BitVec 12) (s t : State) : Prop where
  lcnt : t.lcnt = max s.lcnt (c + 16)
  meas : (t.ip (16 * ch + i)).meas = none
  ref1 : t.get (F.TRG_INT_CAL_N1 ch i) = n1.toNat
  ref2 : t.get (F.TRG_INT_CAL_N2 ch i) = n2.toNat
  reg : changesOnly [F.TRG_INT_CAL_N1 ch i, F.TRG_INT_CAL_N2 ch i] s t
  share : intShare.Only s t

theorem State.measured_measured {ch i : Nat} (hch : ch < 48) (hi : i < 16) (c : Nat) (n1 n2 : BitVec 12) :
    Measured ch i c n1 n2 s (s.measured ch i c n1 n2) := by
  have href := ((s.at_ (c + 16)).setIp (16 * ch + i) { s.ip (16 * ch + i) with meas := none }).refsHeld_refs ch i n1 n2
  exact ⟨rfl, congrArg Ip.meas ((s.at_ (c + 16)).ip_setIp_same _ _), href.1, href.2,
    ((changesOnly.refl _ s).parts rfl rfl rfl rfl).trans (State.refsHeld_reg _ _ _ _ _), s.measured_intShare hch hi c n1 n2⟩

theorem Measured.offered {ch i c n x : Nat} {rising : Bool} {n1 n2 : BitVec 12} {s u t : State} (h : Measured ch i c n1 n2 s u)
    (k : Offered n x rising false u t) : t.lcnt = max s.lcnt (c + 16) ∧ (t.ip (16 * ch + i)).meas = none ∧
      t.get (F.TRG_INT_CAL_N1 ch i) = n1.toNat ∧ t.get (F.TRG_INT_CAL_N2 ch i) = n2.toNat ∧
      (∀ g : Fin 16, (s.grp g).armed = true → n ∈ srcsOf s.regs g →
        (t.grp g).events = insertEv ⟨x, .cross n rising false⟩ (s.grp g).events) ∧
      (∀ g : Fin 16, (s.grp g).armed = false → t.grp g = s.grp g) ∧
      changesOnly [F.TRG_INT_CAL_N1 ch i, F.TRG_INT_CAL_N2 ch i] s t ∧
      t = { s with lcnt := t.lcnt, regs := t.regs, ints := t.ints, grps := t.grps } := by
  obtain ⟨hl, hm, h1, h2, hreg, hshare⟩ := h
  obtain ⟨harm, hun, hframe⟩ := k
  have hgrp : ∀ k, u.grp k = s.grp k := fun k => congrArg (fun y => Tab.get Grp.init y k) ((congrArg State.grps hshare.frame).trans rfl)
  have hsrcs : ∀ g : Fin 16, srcsOf u.regs g = srcsOf s.regs g := fun g => srcsOf_congr g.isLt fun off h1 h2 => hshare.word off (by
    simp only [intShare]
    omega)
  have hregs : t.regs = u.regs := (congrArg State.regs hframe).trans rfl
  have hints : t.ints = u.ints := (congrArg State.ints hframe).trans rfl
  have hlcnt : t.lcnt = u.lcnt := (congrArg State.lcnt hframe).trans rfl
  refine ⟨hlcnt.trans hl, (congrArg (fun y => (Tab.get Ip.init y _).meas) hints).trans hm,
    (congrArg (fun r => RegTab.fld r _) hregs).trans h1, (congrArg (fun r => RegTab.fld r _) hregs).trans h2, fun g a b => ?_,
    fun g a => (hun g (by rw [hgrp]; exact a)).trans (hgrp g), ?_, ?_⟩
  · exact (harm g (by rw [hgrp]; exact a) (by rw [hsrcs]; exact b)).trans (by rw [hgrp])
  · exact hreg.parts hregs ((congrArg State.store hframe).trans rfl) ((congrArg State.flash hframe).trans rfl)
      ((congrArg State.pending hframe).trans rfl)
  · rw [hregs, hints, hlcnt]
    exact hframe.trans ((congrArg (fun w : State => { w with grps := t.grps }) hshare.frame).trans rfl)

end

end Sys2Proof.Machine
end

section
/-! SUPPORT. Interpolators (R78, R81): the idle refresh, a failure and the swap for a spare. -/

namespace Sys2Proof.Machine

open Sys2Proof.Safety

/-! ### What a failure leaves alone (R81) -/

/-- The codes of interpolator i of channel ch, its failure and every interpolator's timing stand, and what was logged stays. -/
structure RefsKept (ch i : Nat) (s t : State) : Prop where
  ref1 : t.regs.fld (F.TRG_INT_CAL_N1 ch i) = s.regs.fld (F.TRG_INT_CAL_N1 ch i)
  ref2 : t.regs.fld (F.TRG_INT_CAL_N2 ch i) = s.regs.fld (F.TRG_INT_CAL_N2 ch i)
  failed : t.regs.bit (F.TRG_INT_CAL_FAILED ch i) = s.regs.bit (F.TRG_INT_CAL_FAILED ch i)
  ints : t.ints = s.ints
  lcnt : t.lcnt = s.lcnt
  store : t.store = s.store
  flash : t.flash = s.flash
  seen : ∀ x ∈ s.log.seen, x ∈ t.log.seen

section
variable {ch i : Nat} {s t u : State}

theorem RefsKept.refl (ch i : Nat) (s : State) : RefsKept ch i s s := ⟨rfl, rfl, rfl, rfl, rfl, rfl, rfl, fun _ h => h⟩

theorem RefsKept.trans (h : RefsKept ch i s t) (k : RefsKept ch i t u) : RefsKept ch i s u :=
  ⟨k.ref1.trans h.ref1, k.ref2.trans h.ref2, k.failed.trans h.failed, k.ints.trans h.ints, k.lcnt.trans h.lcnt, k.store.trans h.store,
    k.flash.trans h.flash, fun x hx => k.seen x (h.seen x hx)⟩

theorem RefsKept.put (s : State) {f : Fld} {v : Nat} (hf : f.ok) (h : f.off < 0x40A000 ∨ (f.off = R.TRG_INT_CAL ch i ∧ f.lo = 30 ∧ f.hi = 30)) (hi : i < 16) :
    RefsKept ch i s (s.put f v) := by
  have hsep : ∀ g : Fld, g.off = R.TRG_INT_CAL ch i → (g.hi < 30 ∨ 30 < g.lo) → f.apart g := fun g hg hb => by
    simp only [R.TRG_INT_CAL] at h hg
    unfold Fld.apart
    omega
  refine ⟨RegTab.fld_setFld_apart _ _ _ _ hf (.of rfl (by omega)) (hsep _ rfl (.inl (show 11 < 30 by decide))),
    RegTab.fld_setFld_apart _ _ _ _ hf (.of rfl (by omega)) (hsep _ rfl (.inl (show 27 < 30 by decide))),
    RegTab.bit_congr (RegTab.fld_setFld_apart _ _ _ _ hf (.of rfl (by omega)) (hsep _ rfl (.inr (show 30 < 31 by decide)))), rfl, rfl, rfl, rfl, fun _ h => h⟩

theorem RefsKept.foldl {α : Type} (f : State → α → State) (l : List α) (h : ∀ t, ∀ x ∈ l, RefsKept ch i t (f t x)) (s : State) :
    RefsKept ch i s (l.foldl f s) := by
  induction l generalizing s with
  | nil => exact .refl ch i s
  | cons x xs ih => exact (h s x (by simp)).trans (ih (fun t y hy => h t y (by simp [hy])) (f s x))

end

section
variable (s : State)

theorem State.showSrc_refsKept {ch i : Nat} (hi : i < 16) : RefsKept ch i s s.showSrc := by
  refine .foldl _ _ (fun t g hg => ?_) s
  have hlt := List.mem_range.mp hg
  refine .trans (.put (f := F.TRG_GRP_STATUS_SRC_FENCED g) t (.of rfl (by omega)) (.inl ?_) hi)
    (.put (f := F.TRG_GRP_STATUS_SRC_HELD g) _ (.of rfl (by omega)) (.inl ?_) hi)
  · simp only [F.TRG_GRP_STATUS_SRC_FENCED]
    omega
  · simp only [F.TRG_GRP_STATUS_SRC_HELD]
    omega

/-- The comparator that an interpolator serves is one of its channel's six. -/
theorem State.servedBy_lt {ch i n : Nat} {second : Bool} (h : s.servedBy ch i = some (n, second)) : 6 * ch ≤ n ∧ n < 6 * ch + 6 := by
  obtain ⟨c, hc, hn⟩ := List.exists_of_findSome?_eq_some h
  have hlt := List.mem_range.mp hc
  dsimp only at hn
  split at hn
  · cases hn
    omega
  · split at hn
    · cases hn
      omega
    · cases hn

theorem State.intLost_refsKept {ch i : Nat} (hch : ch < 48) (hi : i < 16) : RefsKept ch i s (s.intLost ch i) := by
  unfold State.intLost
  split
  next => exact .refl ch i s
  next n second hn =>
    have hlt := s.servedBy_lt hn
    extract_lets x y s1
    have hs1 : RefsKept ch i s s1 := RefsKept.trans (t := s.setAc n y) ⟨rfl, rfl, rfl, rfl, rfl, rfl, rfl, fun _ h => h⟩
      (.put (f := F.TRG_INT_CAL_IN_USE ch i) _ (.of rfl (by omega)) (.inr ⟨rfl, rfl, rfl⟩) hi)
    have hac : ∀ f : Fld, f.off = R.TRG_AC_STATUS n → f.off < 0x40A000 := fun f hf => by
      rw [hf, R.TRG_AC_STATUS]
      omega
    clear_value s1 y
    split
    · exact ((hs1.trans (.put (f := F.TRG_AC_STATUS_FENCED n) (v := 1) _ (.of rfl (by omega)) (.inl (hac _ rfl)) hi)).trans
        (.put (f := F.TRG_AC_STATUS_SINGLE n) (v := 0) _ (.of rfl (by omega)) (.inl (hac _ rfl)) hi)).trans (State.showSrc_refsKept _ hi)
    · exact hs1.trans (.put (f := F.TRG_AC_STATUS_SINGLE n) (v := 1) _ (.of rfl (by omega)) (.inl (hac _ rfl)) hi)

theorem State.locusCh_congr {s t : State} (h : t.regs.fld F.GLOBAL_STATE_NODE = s.regs.fld F.GLOBAL_STATE_NODE) (n unit : Nat) :
    t.locusCh n unit = s.locusCh n unit := by
  unfold State.locusCh State.locus State.get
  rw [h]

/-- A failing interpolator is marked and logged. -/
def State.intFailed (s : State) (ch i : Nat) : State :=
  (s.setF (F.TRG_INT_CAL_FAILED ch i)).post s.lcnt 0x0504 (s.locusCh ch (0x80 + i)) 0

theorem State.intFail_refsKept {ch i : Nat} (hch : ch < 48) (hi : i < 16) (h : s.flag (F.TRG_INT_CAL_FAILED ch i) = false) :
    RefsKept ch i (s.intFailed ch i) (s.intFail ch i) := by
  have hfail : s.intFail ch i = (if (s.intFailed ch i).flag (F.TRG_INT_CAL_IN_USE ch i) = false then s.intFailed ch i
      else if ((s.intFailed ch i).intSwaps.filter (fun p => p.1 == ch)).length < ((s.intFailed ch i).freeSpares ch).length then
        { s.intFailed ch i with intSwaps := (s.intFailed ch i).intSwaps ++ [(ch, i)] }
      else (s.intFailed ch i).intLost ch i) := if_neg (by rw [h]; decide)
  rw [hfail]
  generalize s.intFailed ch i = u
  split
  · exact .refl ch i u
  · split
    · exact ⟨rfl, rfl, rfl, rfl, rfl, rfl, rfl, fun _ h => h⟩
    · exact u.intLost_refsKept hch hi

theorem State.intFailed_effect {ch i : Nat} (hch : ch < 48) (hi : i < 16) :
    (s.intFailed ch i).regs.fld (F.TRG_INT_CAL_N1 ch i) = s.regs.fld (F.TRG_INT_CAL_N1 ch i) ∧
    (s.intFailed ch i).regs.fld (F.TRG_INT_CAL_N2 ch i) = s.regs.fld (F.TRG_INT_CAL_N2 ch i) ∧
    (s.intFailed ch i).regs.bit (F.TRG_INT_CAL_FAILED ch i) = true ∧ (0x0504, s.locusCh ch (0x80 + i)) ∈ (s.intFailed ch i).log.seen := by
  refine ⟨?_, ?_, ?_, State.post_seen _ _ _ _ _⟩
  · simp (disch := first | exact .of rfl (by omega) | omega) [State.intFailed, State.setF]
  · simp (disch := first | exact .of rfl (by omega) | omega) [State.intFailed, State.setF]
  · simp (disch := first | exact .of rfl (by omega) | omega) [State.intFailed, State.setF]

theorem State.intFailed_frame (ch i : Nat) : (s.intFailed ch i).ints = s.ints ∧ (s.intFailed ch i).lcnt = s.lcnt ∧
    (s.intFailed ch i).store = s.store ∧ (s.intFailed ch i).flash = s.flash := by
  simp [State.intFailed, State.setF]

/-! ### The idle refresh (R78) -/

/-- An idle refresh runs. -/
def State.refreshing (s : State) (c ch i : Nat) : State :=
  (s.at_ c).setIp (16 * ch + i) { s.ip (16 * ch + i) with readyAt := c + 11, idleFrom := max c (s.ip (16 * ch + i)).idleFrom }

theorem exec_interpolatorIdleRefresh {c : Nat} {ch : Fin 48} {i : Fin 16} (n1 n2 : BitVec 12) (huse : s.flag (F.TRG_INT_CAL_IN_USE ch i) = true)
    (hdue : s.refreshDue c ch i = true) (hfail : s.flag (F.TRG_INT_CAL_FAILED ch i) = false) :
    exec (.interpolatorIdleRefresh c ch i n1 n2) s = .next ((s.refreshing c ch i).intRefs ch i n1.toNat n2.toNat) :=
  congrArg Host.Outcome.next (if_pos ⟨huse, hfail, hdue⟩)

theorem interpolatorIdleRefresh_effect {c : Nat} {ch : Fin 48} {i : Fin 16} (n1 n2 : BitVec 12) (huse : s.flag (F.TRG_INT_CAL_IN_USE ch i) = true)
    (hdue : s.refreshDue c ch i = true) (hfail : s.flag (F.TRG_INT_CAL_FAILED ch i) = false) :
    ∃ t, exec (.interpolatorIdleRefresh c ch i n1 n2) s = .next t ∧ t.lcnt = max s.lcnt c ∧
      (t.ip (16 * ch + i)).readyAt = c + 11 ∧ t.get (F.TRG_INT_CAL_N1 ch i) = n1.toNat ∧
      t.get (F.TRG_INT_CAL_N2 ch i) = n2.toNat ∧
      (intBad n1.toNat n2.toNat = false → changesOnly [F.TRG_INT_CAL_N1 ch i, F.TRG_INT_CAL_N2 ch i] s t ∧
        t = { s with lcnt := t.lcnt, regs := t.regs, ints := t.ints }) ∧
      (intBad n1.toNat n2.toNat = true → t.flag (F.TRG_INT_CAL_FAILED ch i) = true ∧
        (0x0504, s.locusCh ch (0x80 + i)) ∈ t.log.seen ∧ memSame s t) := by
  refine ⟨_, exec_interpolatorIdleRefresh s n1 n2 huse hdue hfail, ?_⟩
  obtain ⟨h1, h2⟩ := (s.refreshing c ch i).refsHeld_refs ch i n1 n2
  have hshare : intShare.Only s ((s.refreshing c ch i).refsHeld ch i n1.toNat n2.toNat) :=
    .trans (.parts (t := s.refreshing c ch i) rfl rfl) (State.refsHeld_intShare _ ch.isLt i.isLt _ _)
  have hreg : changesOnly [F.TRG_INT_CAL_N1 ch i, F.TRG_INT_CAL_N2 ch i] s ((s.refreshing c ch i).refsHeld ch i n1.toNat n2.toNat) :=
    ((changesOnly.refl _ s).parts rfl rfl rfl rfl).trans (State.refsHeld_reg _ _ _ _ _)
  have hready : (((s.refreshing c ch i).refsHeld ch i n1.toNat n2.toNat).ip (16 * ch + i)).readyAt = c + 11 :=
    congrArg Ip.readyAt ((s.at_ c).ip_setIp_same _ _)
  have hlcnt : ((s.refreshing c ch i).refsHeld ch i n1.toNat n2.toNat).lcnt = max s.lcnt c := rfl
  have hgood := fun h => (s.refreshing c ch i).intRefs_good (ch := ch) (i := i) (n1 := n1.toNat) (n2 := n2.toNat) h
  have hbad := fun h => (s.refreshing c ch i).intRefs_bad (ch := ch) (i := i) (n1 := n1.toNat) (n2 := n2.toNat) h
  have hlocus : ((s.refreshing c ch i).refsHeld ch i n1.toNat n2.toNat).locusCh ch (0x80 + i) = s.locusCh ch (0x80 + i) := by
    exact State.locusCh_congr (hshare.fld (by simp only [intShare, F.GLOBAL_STATE_NODE]; omega)) _ _
  have hnofail : ((s.refreshing c ch i).refsHeld ch i n1.toNat n2.toNat).flag (F.TRG_INT_CAL_FAILED ch i) = false := by
    refine Eq.trans ?_ hfail
    exact (RegTab.bit_setFld_sep _ _ (.of rfl (by omega))).trans (RegTab.bit_setFld_sep _ _ (.of rfl (by omega)))
  generalize (s.refreshing c ch i).refsHeld ch i n1.toNat n2.toNat = u at *
  generalize (s.refreshing c ch i).intRefs ch i n1.toNat n2.toNat = t at *
  cases hb : intBad n1.toNat n2.toNat with
  | false =>
    rw [hgood hb]
    exact ⟨hlcnt, hready, h1, h2, fun _ => ⟨hreg, hshare.frame⟩, fun h => by cases h⟩
  | true =>
    have hkept := u.intFail_refsKept ch.isLt i.isLt hnofail
    obtain ⟨e1, e2, e3, e4⟩ := u.intFailed_effect ch.isLt i.isLt
    obtain ⟨f1, f2, f3, f4⟩ := u.intFailed_frame ch i
    rw [hbad hb]
    generalize u.intFail ch i = v at *
    refine ⟨(hkept.lcnt.trans f2).trans hlcnt, ?_, (hkept.ref1.trans e1).trans h1, (hkept.ref2.trans e2).trans h2, fun h => absurd h (by decide),
      fun _ => ⟨hkept.failed.trans e3, ?_, memSame_of_fields ?_ ?_⟩⟩
    · exact (congrArg (fun y => (Tab.get Ip.init y _).readyAt) (hkept.ints.trans f1)).trans hready
    · rw [← hlocus]
      exact hkept.seen _ e4
    · exact (hkept.store.trans f3).trans ((congrArg State.store hshare.frame).trans rfl)
    · exact (hkept.flash.trans f4).trans ((congrArg State.flash hshare.frame).trans rfl)

/-! ### The swap (R81) -/

/-- A waiting swap takes its turn. -/
def State.swapTaken (s : State) (ch i : Nat) : State :=
  { s.at_ (boundaryAt s.lcnt) with intSwaps := s.intSwaps.filter (fun p => p != (ch, i)) }

/-- The registers after spare k has taken the place of interpolator i. -/
def State.swapShown (s : State) (ch i k n : Nat) (second : Bool) : State :=
  ((s.put (F.TRG_INT_CAL_IN_USE ch i) 0).put (F.TRG_INT_CAL_IN_USE ch k) 1).put (if second then F.TRG_AC_STATUS_INT_B n else F.TRG_AC_STATUS_INT_A n) k

theorem exec_interpolatorSpareSwap {ch : Fin 48} {i : Fin 16} {k n : Nat} {second : Bool} (hmem : (ch.val, i.val) ∈ s.intSwaps)
    (hfree : (s.freeSpares ch).head? = some k) (hserved : s.servedBy ch i = some (n, second)) :
    exec (.interpolatorSpareSwap ch i) s = .next (((s.swapTaken ch i).swapShown ch i k n second).setIp (16 * ch + k)
      { Ip.init with readyAt := boundaryAt s.lcnt, idleFrom := boundaryAt s.lcnt }) := by
  obtain ⟨l, hl⟩ : ∃ l, (s.swapTaken ch i).freeSpares ch = k :: l := by
    have hcongr : (s.swapTaken ch i).freeSpares ch = s.freeSpares ch := rfl
    rw [hcongr]
    cases hs : s.freeSpares ch with
    | nil => rw [hs] at hfree; cases hfree
    | cons a l =>
      rw [hs] at hfree
      cases hfree
      exact ⟨l, rfl⟩
  have hby : (s.swapTaken ch i).servedBy ch i = some (n, second) := hserved
  refine congrArg Host.Outcome.next ((if_pos hmem).trans ?_)
  show (s.swapTaken ch i).intSwap (boundaryAt s.lcnt) ch i = _
  unfold State.intSwap
  rw [hl, hby]
  rfl

theorem State.freeSpares_head {ch k : Nat} (h : (s.freeSpares ch).head? = some k) : k < 16 ∧ s.flag (F.TRG_INT_CAL_FAILED ch k) = false := by
  have hm : k ∈ s.freeSpares ch := List.mem_of_mem_head? h
  obtain ⟨hlt, hp⟩ := List.mem_filter.mp hm
  simp only [Bool.and_eq_true, Bool.not_eq_true'] at hp
  exact ⟨List.mem_range.mp hlt, hp.2⟩

theorem interpolatorSpareSwap_effect {ch : Fin 48} {i : Fin 16} {k n : Nat} {second : Bool} (hmem : (ch.val, i.val) ∈ s.intSwaps)
    (hfail : s.flag (F.TRG_INT_CAL_FAILED ch i) = true) (hfree : (s.freeSpares ch).head? = some k) (hserved : s.servedBy ch i = some (n, second)) :
    ∃ t, exec (.interpolatorSpareSwap ch i) s = .next t ∧ t.lcnt = max s.lcnt (boundaryAt s.lcnt) ∧ t.intAt n second = k ∧
      t.flag (F.TRG_INT_CAL_IN_USE ch i) = false ∧ t.flag (F.TRG_INT_CAL_IN_USE ch k) = true ∧
      (t.ip (16 * ch + k)).readyAt = boundaryAt s.lcnt ∧ t.intSwaps = s.intSwaps.filter (fun p => p != (ch.val, i.val)) ∧
      changesOnly [F.TRG_INT_CAL_IN_USE ch i, F.TRG_INT_CAL_IN_USE ch k,
        if second then F.TRG_AC_STATUS_INT_B n else F.TRG_AC_STATUS_INT_A n] s t ∧
      t = { s with lcnt := t.lcnt, regs := t.regs, ints := t.ints, intSwaps := t.intSwaps } := by
  obtain ⟨hk, hkfail⟩ := s.freeSpares_head hfree
  have hn := s.servedBy_lt hserved
  have hne : (i : Nat) ≠ k := fun h => by
    rw [← h, hfail] at hkfail
    cases hkfail
  have hch := ch.isLt
  have hi := i.isLt
  refine ⟨_, exec_interpolatorSpareSwap s hmem hfree hserved, rfl, ?_, ?_, ?_, congrArg Ip.readyAt (State.ip_setIp_same _ _ _), rfl, ?_, ?_⟩
  · cases second
    · exact (RegTab.fld_setFld_self _ _ (f := F.TRG_AC_STATUS_INT_A n) (.of rfl (by omega))).trans (Nat.mod_eq_of_lt hk)
    · exact (RegTab.fld_setFld_self _ _ (f := F.TRG_AC_STATUS_INT_B n) (.of rfl (by omega))).trans (Nat.mod_eq_of_lt hk)
  · cases second <;> simp (disch := first | exact .of rfl (by omega) | omega) [State.swapShown, State.setIp, State.flag]
  · cases second <;> simp (disch := first | exact .of rfl (by omega) | omega) [State.swapShown, State.setIp, State.flag]
  · exact (((((changesOnly.refl _ s).parts (u := s.swapTaken ch i) rfl rfl rfl rfl).put (f := F.TRG_INT_CAL_IN_USE ch i) (v := 0) (by simp)).put
      (f := F.TRG_INT_CAL_IN_USE ch k) (v := 1) (by simp)).put (f := if second then F.TRG_AC_STATUS_INT_B n else F.TRG_AC_STATUS_INT_A n) (v := k)
      (hf := by split <;> exact .of rfl (by omega)) (by simp)).parts rfl rfl rfl rfl
  · rfl

end

/-- Settles O13: a measurement's end as `Measured.offered` says, a refresh and a swap as their effect lemmas say. -/
theorem interpolatorsMeasureAndSwap : Obligations.InterpolatorsMeasureAndSwap := by
  refine ⟨?_, fun ch i nm n1 n2 s h => ?_, fun c ch i n1 n2 s huse hdue hfail => interpolatorIdleRefresh_effect s n1 n2 huse hdue hfail,
    fun c ch i n1 n2 s h => ?_, fun ch i k n second s hmem hfail hfree hserved => interpolatorSpareSwap_effect s hmem hfail hfree hserved,
    fun ch i s h => congrArg Host.Outcome.next (if_neg h)⟩
  · intro ch i nm n1 n2 c n x r1 r2 rising s hmeas hgood h1 h2 hne hx
    have hmid := s.measured_measured ch.isLt i.isLt c n1 n2
    exact ⟨_, exec_interpolatorMeasurement s hmeas hgood h1 h2 hne hx, hmid.offered (State.offer_offered _ n x rising false)⟩
  · simp only [exec, execInterpolatorMeasurement, h]
  · refine congrArg Host.Outcome.next (if_neg ?_)
    rintro ⟨h1, h2, h3⟩
    obtain h | h | h := h
    · exact absurd (h1.symm.trans h) (by decide)
    · exact absurd (h2.symm.trans h) (by decide)
    · exact absurd (h3.symm.trans h) (by decide)

end Sys2Proof.Machine
end

section
/-! SUPPORT. A group's books: its gaps, marks and staged words (R112-R121, R161, R162), which leave its acquisition alone. -/

namespace Sys2Proof.Machine

open Sys2Proof.Safety

/-! ### The books of a group -/

/-- A group with the books of another: its losses and gaps, its marks, what it offered to the staging half, and its streams' items. -/
def Grp.rebook (x y : Grp) : Grp := { x with
  losses := y.losses
  gapPos := y.gapPos
  gaps := y.gaps
  drop := y.drop
  nextGap := y.nextGap
  gapIdx := y.gapIdx
  gapHeld := y.gapHeld
  gapOvf := y.gapOvf
  recentGaps := y.recentGaps
  flagged := y.flagged
  lensFlags := y.lensFlags
  fit := y.fit
  items := y.items
  itemOrd := y.itemOrd }

/-- What the books change beside the groups. -/
def bookShare : Share where
  upd s t := { s with regs := t.regs, grps := t.grps, stageFill := t.stageFill, fillData := t.fillData }
  regs off := 0x500000 ≤ off
  self _ := rfl
  again _ _ _ := rfl

/-- Of the groups only the books of group g have changed. -/
structure BookedOn (g : Nat) (s t : State) : Prop where
  other : ∀ k, k ≠ g → t.grp k = s.grp k
  book : t.grp g = (s.grp g).rebook (t.grp g)
  share : bookShare.Only s t

section
variable {g : Nat} {s t u : State}

theorem BookedOn.refl (g : Nat) (s : State) : BookedOn g s s := ⟨fun _ _ => rfl, rfl, .refl _ _⟩

theorem BookedOn.trans (h : BookedOn g s t) (k : BookedOn g t u) : BookedOn g s u :=
  ⟨fun j hj => (k.other j hj).trans (h.other j hj), k.book.trans ((congrArg (fun x : Grp => x.rebook (u.grp g)) h.book).trans rfl),
    h.share.trans k.share⟩

theorem grp_of_grps (h : t.grps = s.grps) (k : Nat) : t.grp k = s.grp k := congrArg (fun x => Tab.get Grp.init x k) h

theorem BookedOn.of_share (h : bookShare.Only s t) (hg : t.grps = s.grps) : BookedOn g s t :=
  ⟨fun k _ => grp_of_grps hg k, (grp_of_grps hg g).trans (congrArg (Grp.rebook (s.grp g)) (grp_of_grps hg g).symm), h⟩

theorem BookedOn.set {y : Grp} (h : bookShare.Only s t) (hg : t.grps = s.grps) (hy : y = (s.grp g).rebook y) : BookedOn g s (t.setGrp g y) := by
  refine ⟨fun k hk => (t.grp_setGrp_other hk y).trans (grp_of_grps hg k), ?_, h.trans (.parts rfl rfl)⟩
  rw [t.grp_setGrp_same g y]
  exact hy

theorem BookedOn.setGrp {y : Grp} (hy : y = (s.grp g).rebook y) : BookedOn g s (s.setGrp g y) := .set (.refl _ _) rfl hy

theorem BookedOn.put {f : Fld} {v : Nat} (h : 0x500000 ≤ f.off) : BookedOn g s (s.put f v) := .of_share (.put h) rfl

theorem BookedOn.putN {off n v : Nat} (h : 0x500000 ≤ off) : BookedOn g s (s.putN off n v) :=
  .of_share (.putN fun _ h1 _ => Nat.le_trans h h1) rfl

theorem BookedOn.ite {c : Prop} [Decidable c] (h : BookedOn g s t) (k : BookedOn g s u) : BookedOn g s (if c then t else u) := by
  split
  · exact h
  · exact k

theorem BookedOn.foldl {α : Type} (f : State → α → State) (l : List α) (h : ∀ t, ∀ x ∈ l, BookedOn g t (f t x)) (s : State) :
    BookedOn g s (l.foldl f s) := by
  induction l generalizing s with
  | nil => exact .refl g s
  | cons x xs ih => exact (h s x (by simp)).trans (ih (fun t y hy => h t y (by simp [hy])) (f s x))

theorem Grp.reopen_rebook {x y : Grp} (h : y = x.rebook y) (c : Nat) : y.reopen c = x.rebook (y.reopen c) := by
  unfold Grp.reopen
  split
  · exact h
  · exact (congrArg (fun z : Grp => { z with gapPos := c, gaps := y.gaps.filter (fun o => decide (o.start < c)) }) h).trans rfl

end

section
variable (s : State) (g : Nat)

/-- A register of group g's own block. -/
theorem rec_off {off : Nat} (h : 0x500000 ≤ off) : 0x500000 ≤ off + 0x100 * g := Nat.le_add_right_of_le h

/-! ### Gaps -/

theorem State.addItem_booked (kind num slot mask start : Nat) : BookedOn g s (s.addItem g kind num slot mask start) := by
  unfold State.addItem
  dsimp only
  split
  · exact .setGrp rfl
  · exact .setGrp rfl

theorem State.gapDesc_booked (cause a b mask : Nat) : BookedOn g s (s.gapDesc g cause a b mask) := by
  unfold State.gapDesc
  extract_lets gr cap prev full s1 s2
  have hs1 : bookShare.Only s s1 := .parts rfl rfl
  have hg1 : s1.grps = s.grps := rfl
  have hs2 : bookShare.Only s1 s2 := .ite (.trans (.put (f := F.REC_GRP_STATUS_GAP_OVF g) (v := 1) (rec_off g (by decide)))
    (.put (f := F.REC_GRP_GAP_OVF_CNT_COUNT g) (rec_off g (by decide)))) (.refl _ _)
  have hg2 : s2.grps = s1.grps := by
    show (if full = true then _ else _ : State).grps = _
    split <;> rfl
  clear_value s1 s2
  exact (BookedOn.set (hs1.trans hs2) (hg2.trans hg1) rfl).trans (State.addItem_booked _ _ _ _ _ _ _)

theorem State.gapTo_booked (upto : Nat) : BookedOn g s (s.gapTo g upto) :=
  .ite (.refl _ _) (.trans (.setGrp rfl) (.foldl _ _ (fun t _ _ => t.gapDesc_booked g _ _ _ _) _))

theorem State.showGaps_booked : BookedOn g s (s.showGaps g) := by
  unfold State.showGaps
  dsimp only
  split
  · exact .trans (.putN (rec_off g (by decide))) (.put (f := F.REC_GRP_STATUS_GAP_OPEN g) (v := 0) (rec_off g (by decide)))
  · exact .trans (.putN (rec_off g (by decide))) (.put (f := F.REC_GRP_STATUS_GAP_OPEN g) (v := 1) (rec_off g (by decide)))

theorem State.gapSync_booked : BookedOn g s (s.gapSync g) := (s.gapTo_booked g _).trans (State.showGaps_booked _ g)

theorem State.endLoss_booked (cause x : Nat) : BookedOn g s (s.endLoss g cause x) := .setGrp (Grp.reopen_rebook rfl _)

theorem State.addLoss_booked (l : Loss) : BookedOn g s (s.addLoss g l) := .setGrp (Grp.reopen_rebook rfl _)

theorem State.holdWatch_booked : BookedOn g s (s.holdWatch g) :=
  .ite (.refl _ _) (((s.endLoss_booked g _ _).trans (State.addLoss_booked _ g _)).trans (State.gapSync_booked _ g))

/-- Every loss of a group ends at core cycle x. -/
def State.lossesEnded (s : State) (g x : Nat) (late : Option Nat) : State :=
  s.setGrp g ({ s.grp g with
    losses := ((s.grp g).losses.filter (fun l : Loss => decide (l.first < x))).map (fun l : Loss =>
      { l with stop := some (match l.stop with
        | some y => min x y
        | none => x) })
    drop := late }.reopen x)

theorem State.gapEnd_eq (x : Nat) (late : Option Nat) :
    s.gapEnd g x late = ((s.lossesEnded g x late).gapTo g (late.getD x)).showGaps g := by
  cases late <;> rfl

theorem State.gapEnd_booked (x : Nat) (late : Option Nat) : BookedOn g s (s.gapEnd g x late) := by
  rw [s.gapEnd_eq g x late]
  exact BookedOn.trans (.setGrp (Grp.reopen_rebook rfl _)) ((State.gapTo_booked _ g _).trans (State.showGaps_booked _ g))

/-! ### Words on their way to the store -/

theorem State.stageBits_booked (paid : Bool) (k tag lpage bit n v : Nat) : BookedOn g s (s.stageBits paid k tag lpage bit n v) :=
  .ite (.of_share (.parts rfl rfl) rfl) (.of_share (.parts rfl rfl) rfl)

theorem State.writeHeader_booked (r : Rec) : BookedOn g s (s.writeHeader g r) := .of_share (.parts rfl rfl) rfl

theorem State.stageLens_booked (paid : Bool) (r : Rec) (n f i v nib : Nat) : BookedOn g s (s.stageLens paid g r n f i v nib) :=
  (s.stageBits_booked g _ _ _ _ _ _ _).trans (State.stageBits_booked _ g _ _ _ _ _ _ _)

theorem State.copyBits_booked (t : State) (from_ bf to_ bt n : Nat) : BookedOn g s (s.copyBits t g from_ bf to_ bt n) :=
  s.stageBits_booked g _ _ _ _ _ _ _

theorem State.moveBlocks_booked (lpage : Nat) (l0 : Layout) (m0 : Nat) (l1 : Layout) (m1 : Nat) :
    BookedOn g s (s.moveBlocks g lpage l0 m0 l1 m1) := by
  unfold State.moveBlocks
  exact .foldl _ _ (fun u n _ => .ite (.refl _ _) (.foldl _ _ (fun v i _ => v.copyBits_booked g _ _ _ _ _ _) u)) s

theorem State.offerFit_booked (key need own total : Nat) : BookedOn g s (s.offerFit g key need own total).2.2 := by
  unfold State.offerFit
  dsimp only
  split
  · exact .setGrp rfl
  · dsimp only
    refine BookedOn.trans (t := if total ≤ own then s else _) (.ite (.refl _ _) (.setGrp rfl)) (.ite (.of_share (.parts rfl rfl) rfl) (.refl _ _))

theorem State.countDrop_booked : BookedOn g s s.countDrop :=
  .trans (.put (f := F.STO_DROP_CNT_COUNT) (by decide)) (.put (f := F.STO_STATUS_DROP_SEEN) (v := 1) (by decide))

theorem State.lensCycle_booked (live : Bool) (n c : Nat) (codes : List Int) (nib : Nat) (l : List Rec) :
    BookedOn g s (s.lensCycle live g n c codes nib l) := by
  induction l generalizing s with
  | nil => exact .refl g s
  | cons r rs ih =>
    rw [State.lensCycle]
    refine BookedOn.trans ?_ (ih _)
    split
    · refine .ite ?_ (.refl _ _)
      dsimp only
      refine BookedOn.trans (t := s.setGrp g { s.grp g with lensFlags := nibAdd (s.grp g).lensFlags c n nib }) (.setGrp rfl) (.ite (.refl _ _) ?_)
      generalize s.setGrp g { s.grp g with lensFlags := nibAdd (s.grp g).lensFlags c n nib } = u
      have hbook : BookedOn g u (if live = true ∧ u.together g = true then (true, false, u)
          else u.offerFit g (2 * c + 1) ((bitsSet 48 r.mask).length * (10 * r.lay.n + 4)) 1 (bitsSet 48 r.mask).length).2.2 := by
        split
        · exact .refl _ _
        · exact u.offerFit_booked g _ _ _ _
      generalize (if live = true ∧ u.together g = true then (true, false, u)
        else u.offerFit g (2 * c + 1) ((bitsSet 48 r.mask).length * (10 * r.lay.n + 4)) 1 (bitsSet 48 r.mask).length) = o at *
      refine hbook.trans (.ite (State.stageLens_booked _ g _ _ _ _ _ _ _) (.ite ?_ (.refl _ _)))
      exact ((State.countDrop_booked _ g).trans (State.addLoss_booked _ g _)).trans (State.gapSync_booked _ g)
    · exact .refl g s

end

end Sys2Proof.Machine
end

section
/-! SUPPORT. A group's region begins (R90, R122-R124): a slot is claimed or the pressure policy acts, and the arming stands. -/

namespace Sys2Proof.Machine

open Sys2Proof.Safety

/-! ### What stands of a group when its region begins -/

/-- The arming of group g stands, with the trigger's registers but g's status; other groups are as they were. -/
structure RegionKept (g : Nat) (s t : State) : Prop where
  other : ∀ k, k ≠ g → t.grp k = s.grp k
  armed : (t.grp g).armed = (s.grp g).armed
  armReq : (t.grp g).armReq = (s.grp g).armReq
  armLcnt : (t.grp g).armLcnt = (s.grp g).armLcnt
  segs : (t.grp g).segs = (s.grp g).segs
  word : ∀ off, off < 0x500000 → off ≠ R.TRG_GRP_STATUS g → t.regs.word off = s.regs.word off
  lcnt : t.lcnt = s.lcnt
  seen : ∀ x ∈ s.log.seen, x ∈ t.log.seen

section
variable {g : Nat} {s t u : State}

theorem RegionKept.refl (g : Nat) (s : State) : RegionKept g s s := ⟨fun _ _ => rfl, rfl, rfl, rfl, rfl, fun _ _ _ => rfl, rfl, fun _ h => h⟩

theorem RegionKept.trans (h : RegionKept g s t) (k : RegionKept g t u) : RegionKept g s u :=
  ⟨fun j hj => (k.other j hj).trans (h.other j hj), k.armed.trans h.armed, k.armReq.trans h.armReq, k.armLcnt.trans h.armLcnt,
    k.segs.trans h.segs, fun off h1 h2 => (k.word off h1 h2).trans (h.word off h1 h2), k.lcnt.trans h.lcnt,
    fun x hx => k.seen x (h.seen x hx)⟩

theorem RegionKept.after (k : RegionKept g t u) (h : RegionKept g s t) : RegionKept g s u := h.trans k

theorem RegionKept.ite {c : Prop} [Decidable c] (h : RegionKept g s t) (k : RegionKept g s u) : RegionKept g s (if c then t else u) := by
  split
  · exact h
  · exact k

theorem RegionKept.foldl {α : Type} (f : State → α → State) (l : List α) (h : ∀ t, ∀ x ∈ l, RegionKept g t (f t x)) (s : State) :
    RegionKept g s (l.foldl f s) := by
  induction l generalizing s with
  | nil => exact .refl g s
  | cons x xs ih => exact (h s x (by simp)).trans (ih (fun t y hy => h t y (by simp [hy])) (f s x))

/-- State beside the groups, the registers, the time and the log. -/
theorem RegionKept.parts (hg : t.grps = s.grps) (hr : t.regs = s.regs) (hl : t.lcnt = s.lcnt) (hs : t.log = s.log) : RegionKept g s t :=
  ⟨fun k _ => grp_of_grps hg k, congrArg Grp.armed (grp_of_grps hg g), congrArg Grp.armReq (grp_of_grps hg g),
    congrArg Grp.armLcnt (grp_of_grps hg g), congrArg Grp.segs (grp_of_grps hg g), fun _ _ _ => by rw [hr], hl, fun _ h => by rw [hs]; exact h⟩

theorem RegionKept.setGrp {y : Grp} (h1 : y.armed = (s.grp g).armed) (h2 : y.armReq = (s.grp g).armReq) (h3 : y.armLcnt = (s.grp g).armLcnt)
    (h4 : y.segs = (s.grp g).segs) : RegionKept g s (s.setGrp g y) :=
  ⟨fun _ hk => s.grp_setGrp_other hk y, (congrArg Grp.armed (s.grp_setGrp_same g y)).trans h1, (congrArg Grp.armReq (s.grp_setGrp_same g y)).trans h2,
    (congrArg Grp.armLcnt (s.grp_setGrp_same g y)).trans h3, (congrArg Grp.segs (s.grp_setGrp_same g y)).trans h4, fun _ _ _ => rfl, rfl, fun _ h => h⟩

theorem RegionKept.put {f : Fld} {v : Nat} (h : 0x500000 ≤ f.off ∨ f.off = R.TRG_GRP_STATUS g) : RegionKept g s (s.put f v) :=
  ⟨fun _ _ => rfl, rfl, rfl, rfl, rfl, fun off h1 h2 => RegTab.word_setFld_other _ _ _ _ (by
    obtain h | h := h
    · omega
    · exact fun e => h2 (e.trans h)), rfl, fun _ h => h⟩

theorem RegionKept.post (lc code locus data : Nat) : RegionKept g s (s.post lc code locus data) := by
  have hg : (s.post lc code locus data).grps = s.grps := by simp
  refine ⟨fun k _ => grp_of_grps hg k, congrArg Grp.armed (grp_of_grps hg g), congrArg Grp.armReq (grp_of_grps hg g),
    congrArg Grp.armLcnt (grp_of_grps hg g), congrArg Grp.segs (grp_of_grps hg g), fun off h1 _ => State.word_post _ _ _ _ _ (by omega), by simp,
    fun x hx => State.seen_post_of_seen _ _ _ _ _ hx⟩

theorem BookedOn.regionKept (h : BookedOn g s t) : RegionKept g s t :=
  ⟨h.other, (congrArg Grp.armed h.book).trans rfl, (congrArg Grp.armReq h.book).trans rfl, (congrArg Grp.armLcnt h.book).trans rfl,
    (congrArg Grp.segs h.book).trans rfl, fun off h1 _ => h.share.word off (by simp only [bookShare]; omega),
    (congrArg State.lcnt h.share.frame).trans rfl, fun x hx => by rw [(congrArg State.log h.share.frame).trans rfl]; exact hx⟩

end

section
variable (s : State) (g : Nat)

/-! ### Discards under WRAP (R123, R124) -/

theorem State.showOldest_kept : RegionKept g s (s.showOldest g) := by
  have hoff : 0x500000 ≤ (F.REC_GRP_OLDEST_EMPTY g).off := rec_off g (by decide)
  unfold State.showOldest
  split
  · exact .put (.inl hoff)
  · exact .trans (.put (f := F.REC_GRP_OLDEST_EMPTY g) (.inl hoff)) (.put (.inl hoff))

theorem State.showPressure_kept : RegionKept g s (s.showPressure g) := .put (.inl (rec_off g (by decide)))

theorem State.exchange_kept (l : List Nat) {t : State} (h : s.exchange g l = some t) : RegionKept g s t := by
  induction l generalizing s with
  | nil =>
    cases h
    exact .refl g _
  | cons x xs ih =>
    rw [State.exchange] at h
    split at h
    · split at h
      · exact (ih _ h).after (.setGrp rfl rfl rfl rfl)
      · cases h
    · exact ih _ h

theorem State.skipHost_kept (q : Nat) : RegionKept g s (s.skipHost q) := by
  refine .trans (.trans (.parts (t := s.setHostq q { s.hostq q with skipped := true }) rfl rfl rfl rfl)
    (.put (f := F.DMA_QC_SKIP_CNT_COUNT q) (.inl ?_))) (.put (f := F.DMA_QC_STATUS_SKIPPED q) (v := 1) (.inl ?_))
  · simp only [F.DMA_QC_SKIP_CNT_COUNT]
    omega
  · simp only [F.DMA_QC_STATUS_SKIPPED]
    omega

theorem State.discard_kept (num : Nat) (l : List Nat) : RegionKept g s (s.discard g num l) := by
  induction l generalizing s with
  | nil => exact .refl g s
  | cons r rs ih =>
    rw [State.discard]
    refine RegionKept.trans ?_ (ih _)
    split
    · refine .ite (.refl _ _) (.trans (.trans (.parts (t := s.setStrm (r - 1024) _) rfl rfl rfl rfl)
        (.put (f := F.STM_Q_SKIP_CNT_COUNT (r - 1024)) (.inl ?_))) (.put (f := F.STM_Q_STATUS_SKIP_SEEN (r - 1024)) (v := 1) (.inl ?_)))
      · simp only [F.STM_Q_SKIP_CNT_COUNT]
        omega
      · simp only [F.STM_Q_STATUS_SKIP_SEEN]
        omega
    · exact .ite (.parts rfl rfl rfl rfl) (s.skipHost_kept g r)

theorem State.showPending_kept (k : Nat) : RegionKept g s (s.showPending k) := by
  unfold State.showPending
  dsimp only
  have hset : ∀ (u : State) (j v : Nat), RegionKept g u (u.put (F.ABA_GRP_STATUS_BUSY j) v) := fun u j v => .put (.inl (by
    simp only [F.ABA_GRP_STATUS_BUSY]
    omega))
  refine RegionKept.trans (.trans (t := s.put (F.ABA_GRP_STATUS_PENDING k) ((s.abaQ.filter (fun j => j.grp == k)).length)) (.put (.inl ?_)) (hset _ k 0)) ?_
  · simp only [F.ABA_GRP_STATUS_PENDING]
    omega
  · split
    · exact hset _ _ 1
    · exact .refl _ _

theorem State.unask_kept (k key : Nat) : RegionKept g s (s.unask k key) :=
  .ite (.trans (.parts (t := { s with sto := { s.sto with reqs := s.sto.reqs.filter (fun q => !(q.cls == k && q.key == key)) } }) rfl rfl rfl rfl)
    (.put (.inl (by simp only [F.STO_CLASS_BACKLOG_BYTES]; omega)))) (.refl _ _)

theorem State.abaDrop_kept (k : Nat) (p : AbaJob → Bool) : RegionKept g s (s.abaDrop k p) := by
  unfold State.abaDrop
  extract_lets gone s1
  have hs1 : RegionKept g s s1 := by
    show RegionKept g s (match s.abaQ with
      | j :: _ => if gone j = true then s.unask 2 abaKey else s
      | [] => s)
    split
    · exact .ite (s.unask_kept g 2 abaKey) (.refl _ _)
    · exact .refl _ _
  clear_value s1
  exact (State.showPending_kept _ g k).after (RegionKept.after (.parts (s := s1) rfl rfl rfl rfl) hs1)

theorem State.wrap_kept (l pages fuel : Nat) : RegionKept g s (s.wrap g l pages fuel).2 := by
  induction fuel generalizing s with
  | zero => exact .refl g s
  | succ n ih =>
    rw [State.wrap]
    dsimp only
    split
    · exact .refl g s
    · split
      · exact .refl g s
      next x rest _ =>
        split
        · exact .refl g s
        next s1 hs1 =>
          refine RegionKept.trans ?_ (ih _)
          exact (State.showOldest_kept _ g).after (.after (.put (f := F.REC_GRP_STATUS_WRAPPED g) (v := 1) (.inl (rec_off g (by decide))))
            (.after (.put (f := F.REC_GRP_WRAP_CNT_COUNT g) (.inl (rec_off g (by decide)))) (.after (State.abaDrop_kept _ g _ _)
              (.after (State.discard_kept _ g _ _) (.after (.setGrp rfl rfl rfl rfl) (s.exchange_kept g _ hs1))))))

/-! ### The claim (R122, R123) -/

theorem State.setLoss_booked (x cause mask : Nat) : BookedOn g s (s.setLoss g x cause mask) :=
  .ite (.refl _ _) (((s.endLoss_booked g cause x).trans (.ite (.refl _ _) (State.addLoss_booked _ g _))).trans (State.gapSync_booked _ g))

theorem State.dropEnd_booked : BookedOn g s (s.dropEnd g) := .ite ((BookedOn.setGrp rfl).trans (State.gapSync_booked _ g)) (.refl _ _)

theorem State.holdFrom_kept (x : Nat) (byPin : Bool) : RegionKept g s (s.holdFrom g x byPin) :=
  (State.setLoss_booked _ g _ _ _).regionKept.after (.after (.setGrp rfl rfl rfl rfl) (s.dropEnd_booked g).regionKept)

theorem State.takeClaim_kept (l : Nat) : RegionKept g s (s.takeClaim g l) := (State.showPressure_kept _ g).after (.setGrp rfl rfl rfl rfl)

theorem State.claim_kept (x : Nat) : RegionKept g s (s.claim g x) := by
  unfold State.claim
  dsimp only
  refine .ite (s.takeClaim_kept g _) (RegionKept.trans (t := s.setF (F.REC_GRP_STATUS_PRESSURE g)) (.put (.inl (rec_off g (by decide)))) ?_)
  split
  · exact .ite (.after (State.takeClaim_kept _ g _) (State.wrap_kept _ g _ _ _)) (.after (State.holdFrom_kept _ g _ _) (State.wrap_kept _ g _ _ _))
  · exact State.holdFrom_kept _ g x false
  · exact RegionKept.after (.post _ _ _ _) (.after (.put (f := F.REC_GRP_STATUS_STOPPED_FULL g) (v := 1) (.inl (rec_off g (by decide))))
      (.setGrp rfl rfl rfl rfl))

theorem State.copyWindow_kept (lp x : Nat) : RegionKept g s (s.copyWindow g lp x) := by
  unfold State.copyWindow
  dsimp only
  refine RegionKept.trans (t := s.setGrp g { s.grp g with winFrom := none }) (.setGrp rfl rfl rfl rfl) ?_
  split
  · exact .refl _ _
  · exact BookedOn.regionKept (.foldl _ _ (fun u n _ => .foldl _ _ (fun v k _ => (v.copyBits_booked g _ _ _ _ _ _).trans
      (State.copyBits_booked _ g _ _ _ _ _ _)) u) _)

theorem State.beginAccept_kept (x : Nat) : RegionKept g s (s.beginAccept g x) := by
  have hput : ∀ (u : State) (v : Nat), RegionKept g u (u.put (F.TRG_GRP_STATUS_STATE g) v) := fun u v => .put (.inr rfl)
  unfold State.beginAccept
  dsimp only
  split
  · exact .ite (hput s 1) ((hput _ 2).after (.setGrp rfl rfl rfl rfl))
  · exact (hput _ 5).after (.ite (.setGrp rfl rfl rfl rfl) (.refl _ _))
  · exact hput s 5
  · exact hput s 2

theorem State.startRegion_kept (x : Nat) : RegionKept g s (s.startRegion g x) := by
  unfold State.startRegion
  dsimp only
  refine RegionKept.trans (RegionKept.trans (RegionKept.trans (t := s.setGrp g { s.grp g with region := x }) (.setGrp rfl rfl rfl rfl)
    (State.claim_kept _ g x)) ?_) (State.beginAccept_kept _ g x)
  split
  · exact State.copyWindow_kept _ g _ x
  · exact .refl _ _

end

end Sys2Proof.Machine
end

section
/-! SUPPORT. Groups arm and stop (R89, R92, R119): the tally unit's part of a stop, and gaps that all end with the acquisition. -/

namespace Sys2Proof.Machine

open Sys2Proof.Safety

/-! ### The tally unit at a stop (R142, R149) -/

/-- What the tally unit's frames can change: its own state, the store, and the streams that lose a frame. -/
def tallyShare : Share where
  upd s t := { s with
    free := t.free, regs := t.regs, store := t.store, sto := t.sto, avgs := t.avgs, dbs := t.dbs, strms := t.strms,
    tallyPage := t.tallyPage, frames := t.frames, framePub := t.framePub }
  regs off := 0x500000 ≤ off
  self _ := rfl
  again _ _ _ := rfl

theorem tallyShare_regs {off : Nat} (h : 0x500000 ≤ off) : tallyShare.regs off := h

theorem Share.Only.after {p : Share} {s t u : State} (k : p.Only t u) (h : p.Only s t) : p.Only s u := h.trans k

section
variable (s : State)

theorem State.swrites_tallyShare (a : Nat) (bs : List Byte) : tallyShare.Only s (s.swrites a bs) := by
  induction bs generalizing s a with
  | nil => exact .refl _ _
  | cons b bs ih =>
    have hone : tallyShare.Only s (s.swrite a b) := .ite (.refl _ _) (.parts rfl rfl)
    exact hone.trans (ih _ _)

theorem State.frameLost_tallyShare (f : Frame) (l : List Nat) : tallyShare.Only s (s.frameLost f l) := by
  induction l generalizing s with
  | nil => exact .refl _ _
  | cons q qs ih =>
    rw [State.frameLost]
    refine Share.Only.trans (.ite (.trans (.trans (.parts (t := s.setStrm q _) rfl rfl) (.put (f := F.STM_Q_SKIP_CNT_COUNT q) ?_))
      (.put (f := F.STM_Q_STATUS_SKIP_SEEN q) (v := 1) ?_)) (.refl _ _)) (ih _)
    · simp only [tallyShare, F.STM_Q_SKIP_CNT_COUNT]
      omega
    · simp only [tallyShare, F.STM_Q_STATUS_SKIP_SEEN]
      omega

theorem State.copyLost_tallyShare (page pages : Nat) : tallyShare.Only s (s.copyLost page pages) := by
  refine Share.Only.foldl _ _ (fun t d _ => ?_) s
  split
  · split
    · exact .ite (.trans (.parts (t := t.setDb d _) rfl rfl) (.put (tallyShare_regs (by decide)))) (.refl _ _)
    · exact .refl _ _
  · exact .refl _ _

theorem State.frameAlloc_tallyShare {pages p : Nat} {t : State} (h : s.frameAlloc pages = some (p, t)) : tallyShare.Only s t := by
  unfold State.frameAlloc at h
  dsimp only at h
  split at h
  · cases h
  · cases h
    have hlost : tallyShare.Only s ((s.frames.filter (fun f => f.meets (s.framePage pages) pages)).foldl (fun t f => t.frameLost f t.streams) s) :=
      .foldl _ _ (fun t f _ => t.frameLost_tallyShare f _) s
    generalize (s.frames.filter (fun f => f.meets (s.framePage pages) pages)).foldl (fun t f => t.frameLost f t.streams) s = u at *
    have hcopy := hlost.trans (u.copyLost_tallyShare (s.framePage pages) pages)
    generalize u.copyLost (s.framePage pages) pages = v at *
    exact hcopy.trans (.parts rfl rfl)

theorem State.publishFrame_tallyShare (page pages typ src num lcnt len : Nat) :
    tallyShare.Only s (s.publishFrame page pages typ src num lcnt len) :=
  .trans (.trans (.parts (t := { s with
    frames := s.frames ++ [⟨page, pages, typ, src, num, s.framePub, 0, s.lcnt / tickLen, lcnt, len⟩], framePub := s.framePub + 1 }) rfl rfl)
    (.put (f := F.TAL_RING_LAST_EMPTY) (v := 0) (tallyShare_regs (by decide)))) (.put (f := F.TAL_RING_LAST_LPAGE) (tallyShare_regs (by decide)))

theorem State.avgPublish_tallyShare (g : Nat) (cut : Bool) : tallyShare.Only s (s.avgPublish g cut) := by
  have hcount : tallyShare.regs (F.TAL_AVG_ACC_COUNT g).off := by
    simp only [tallyShare, F.TAL_AVG_ACC_COUNT]
    omega
  unfold State.avgPublish
  extract_lets a c stride mask chs len pages flags src next s1
  have hs1 : tallyShare.Only s s1 := by
    show tallyShare.Only s (match s.frameAlloc pages with
      | none => s.incSat F.TAL_RING_LOST_CNT_COUNT
      | some (p, t) => _)
    split
    · exact .put (tallyShare_regs (by decide))
    next p t hp =>
      have ht := s.frameAlloc_tallyShare hp
      extract_lets f t1 v t2
      have h1 : tallyShare.Only t t1 := t.swrites_tallyShare _ _
      clear_value t1 v
      have h2 : tallyShare.Only t1 t2 := (State.swrites_tallyShare _ _ _).after (.parts (t := t1.drawnIn v) rfl rfl)
      have h3 : tallyShare.Only t2 (f t2 flags a.lastCt) := t2.swrites_tallyShare _ _
      clear_value t2 f
      generalize f t2 flags a.lastCt = w at *
      exact (w.publishFrame_tallyShare _ _ _ _ _ _ _).after (h3.after (h2.after (h1.after ht)))
  clear_value s1
  exact .trans (hs1.trans (.parts (t := s1.setAvg g next) rfl rfl)) (.put hcount)

theorem State.avgStop_tallyShare (g : Nat) : tallyShare.Only s (s.avgStop g) := by
  unfold State.avgStop
  dsimp only
  split
  · exact .parts rfl rfl
  · exact .parts rfl rfl
  · exact .ite (s.avgPublish_tallyShare g true) (.refl _ _)

/-! ### Every gap ends (R119) -/

theorem gapSplitMask_of_zero {f : Nat → Nat} (h : ∀ c, f c = 0) (mask : Nat) (l : List Nat) : gapSplitMask f mask l = [] := by
  induction l generalizing mask with
  | nil => rfl
  | cons c cs ih =>
    rw [gapSplitMask, h c]
    have hz : Nat.land mask 0 = 0 := Nat.and_zero mask
    rw [hz, if_pos rfl]
    exact ih mask

/-- Losses that have all ended before core cycle x take nothing from it. -/
theorem lossIn_of_ended {ls : List Loss} {x : Nat} (h : ∀ l ∈ ls, l.at_ x = false) (cause : Nat) : lossIn ls x cause = 0 := by
  have hfold : ∀ (l : List Loss) (m : Nat), (∀ y ∈ l, y.at_ x = false) →
      l.foldl (fun m y => if y.cause = cause ∧ y.at_ x then Nat.lor m y.mask else m) m = m := by
    intro l
    induction l with
    | nil => exact fun _ _ => rfl
    | cons y ys ih =>
      intro m hy
      rw [List.foldl_cons, if_neg (by rw [hy y (by simp)]; simp)]
      exact ih m fun z hz => hy z (by simp [hz])
  exact hfold ls 0 h

theorem State.grp_lossesEnded (g x : Nat) (late : Option Nat) : ((s.lossesEnded g x late).grp g).losses =
    ((s.grp g).losses.filter (fun l : Loss => decide (l.first < x))).map (fun l : Loss =>
      { l with stop := some (match l.stop with
        | some y => min x y
        | none => x) }) ∧ ((s.lossesEnded g x late).grp g).gapPos ≤ x := by
  rw [State.lossesEnded, s.grp_setGrp_same g]
  unfold Grp.reopen
  split
  next h => exact ⟨rfl, h⟩
  next => exact ⟨rfl, Nat.le_refl x⟩

/-- With every loss ended there are no gaps at core cycle x. -/
theorem State.piecesAt_lossesEnded (g x : Nat) (late : Option Nat) : (s.lossesEnded g x late).piecesAt g x = [] := by
  unfold State.piecesAt
  dsimp only
  refine gapSplitMask_of_zero (lossIn_of_ended ?_) _ _
  rw [(s.grp_lossesEnded g x late).1]
  intro l hl
  obtain ⟨y, -, rfl⟩ := List.mem_map.mp hl
  cases hs : y.stop with
  | none => simp [Loss.at_, hs]
  | some z => simp [Loss.at_, hs]

theorem State.gapDesc_gaps (g cause a b mask : Nat) : ((s.gapDesc g cause a b mask).grp g).gaps = (s.grp g).gaps := by
  have hadd : ∀ (u : State) (n k m y : Nat), ((u.addItem g 2 n k m y).grp g).gaps = (u.grp g).gaps := fun u n k m y => by
    unfold State.addItem
    dsimp only
    split
    · exact (congrArg Grp.gaps (u.grp_setGrp_same g _)).trans rfl
    · exact (congrArg Grp.gaps (u.grp_setGrp_same g _)).trans rfl
  unfold State.gapDesc
  dsimp only
  exact (hadd _ _ _ _ _).trans ((congrArg Grp.gaps (State.grp_setGrp_same _ g _)).trans rfl)

theorem State.foldl_gapDesc_gaps (g : Nat) (l : List (OpenGap × Nat)) :
    ((l.foldl (fun t p => t.gapDesc g p.1.cause p.1.start p.2 p.1.mask) s).grp g).gaps = (s.grp g).gaps := by
  induction l generalizing s with
  | nil => rfl
  | cons p ps ih => exact (ih _).trans (s.gapDesc_gaps g _ _ _ _)

/-- No gap of a group is left where none holds its last core cycle. -/
theorem State.gapTo_gaps {g x : Nat} (hpos : (s.grp g).gapPos ≤ x) (h : s.piecesAt g x = []) : ((s.gapTo g x).grp g).gaps = [] := by
  have hruns : (s.walkGaps g x).runs = [] := by
    unfold State.walkGaps
    dsimp only
    rw [h]
    exact List.filter_eq_nil_iff.mpr fun o _ => by simp [OpenGap.among]
  unfold State.gapTo
  dsimp only
  rw [if_neg (by omega)]
  refine (State.foldl_gapDesc_gaps _ g _).trans ((congrArg Grp.gaps (s.grp_setGrp_same g _)).trans hruns)

theorem State.gapEnd_gaps (g x : Nat) : ((s.gapEnd g x none).grp g).gaps = [] := by
  rw [s.gapEnd_eq g x none]
  have hpos := (s.grp_lossesEnded g x none).2
  have hpieces := s.piecesAt_lossesEnded g x none
  generalize s.lossesEnded g x none = u at *
  have hgaps := u.gapTo_gaps hpos hpieces
  have hx : (none : Option Nat).getD x = x := rfl
  rw [hx]
  generalize u.gapTo g x = v at *
  have hshow : (v.showGaps g).grps = v.grps := by
    unfold State.showGaps
    dsimp only
    split <;> rfl
  exact (congrArg Grp.gaps (grp_of_grps hshow g)).trans hgaps

end

end Sys2Proof.Machine
end

section
/-! SUPPORT. TRG_GRP_CMD and what takes effect at a boundary (R89, R92, R93). -/

namespace Sys2Proof.Machine

open Sys2Proof.Safety

section
variable (s : State)

/-! ### ARM (R89) -/

theorem lt_boundaryAfter (a : Nat) : a < boundaryAfter a := by
  unfold boundaryAfter
  have htick : tickLen = 2048 := rfl
  rw [htick]
  omega

theorem State.locusGrp_congr {s t : State} (h : t.regs.word F.GLOBAL_STATE_NODE.off = s.regs.word F.GLOBAL_STATE_NODE.off) (g : Nat) :
    t.locusGrp g = s.locusGrp g := by
  unfold State.locusGrp State.locus State.get
  rw [RegTab.fld_congr h]

/-- A group that is armed from core cycle b. -/
structure ArmedAt (g b : Nat) (gr : Grp) : Prop where
  armed : gr.armed = true
  armReq : gr.armReq = none
  armLcnt : gr.armLcnt = b
  segs : gr.segs = 0

/-- The arming is set, shown and logged. -/
structure Arming (g b : Nat) (s t : State) : Prop where
  grp : ArmedAt g b (t.grp g)
  other : ∀ k, k ≠ g → t.grp k = s.grp k
  shown : t.getN (R.TRG_GRP_ARM_LCNT g) 2 = b % 2 ^ 64
  lcnt : t.lcnt = s.lcnt
  seen : (0x0501, s.locusGrp g) ∈ t.log.seen

theorem Arming.kept {g b : Nat} {s t u : State} (hg : g < 16) (h : Arming g b s t) (k : RegionKept g t u) : Arming g b s u where
  grp := ⟨k.armed.trans h.grp.armed, k.armReq.trans h.grp.armReq, k.armLcnt.trans h.grp.armLcnt, k.segs.trans h.grp.segs⟩
  other j hj := (k.other j hj).trans (h.other j hj)
  shown := (RegTab.wide_congr 2 _ fun j h1 h2 => k.word j (by
    simp only [R.TRG_GRP_ARM_LCNT] at h1 h2
    omega) (by
    simp only [R.TRG_GRP_ARM_LCNT, R.TRG_GRP_STATUS] at h1 h2 ⊢
    omega)).trans h.shown
  lcnt := k.lcnt.trans h.lcnt
  seen := k.seen _ h.seen

/-- The group arms, with its arming LCNT shown and logged. -/
def State.armShown (s : State) (g b : Nat) (y : Grp) : State :=
  ((s.setGrp g y).putN (R.TRG_GRP_ARM_LCNT g) 2 b).post b 0x0501 (s.locusGrp g) 0

theorem State.armShown_arming {g b : Nat} {y : Grp} (hg : g < 16) (hy : ArmedAt g b y) : Arming g b s (s.armShown g b y) := by
  have hgrps : (s.armShown g b y).grps = (s.setGrp g y).grps := by
    unfold State.armShown
    simp
  refine ⟨?_, fun k hk => ?_, ?_, ?_, State.post_seen _ _ _ _ _⟩
  · have hgr : (s.armShown g b y).grp g = y := (grp_of_grps hgrps g).trans (s.grp_setGrp_same g y)
    rw [hgr]
    exact hy
  · exact (grp_of_grps hgrps k).trans (s.grp_setGrp_other hk y)
  · have hput := State.getN_putN (s.setGrp g y) (R.TRG_GRP_ARM_LCNT g) 2 b
    exact (State.wide_post _ _ _ _ _ (by simp only [R.TRG_GRP_ARM_LCNT]; omega)).trans hput
  · unfold State.armShown
    simp [State.putN]

/-- The arming at boundary b, and the region that begins there. -/
theorem State.armAt_eq (g b : Nat) : ∃ y, ArmedAt g b y ∧ s.armAt g b =
    if isCont s.regs g then ((s.armShown g b y).gapSync g).put (F.TRG_GRP_STATUS_STATE g) 3 else ((s.armShown g b y).gapSync g).startRegion g b :=
  ⟨_, ⟨rfl, rfl, rfl, rfl⟩, rfl⟩

theorem State.armAt_arming {g : Nat} (b : Nat) (hg : g < 16) : Arming g b s (s.armAt g b) ∧
    (isCont s.regs g = true → (s.armAt g b).get (F.TRG_GRP_STATUS_STATE g) = 3) := by
  obtain ⟨y, hy, heq⟩ := s.armAt_eq g b
  have harm := (s.armShown_arming hg hy).kept hg (State.gapSync_booked _ g).regionKept
  rw [heq]
  generalize (s.armShown g b y).gapSync g = u at *
  split
  next hc => exact ⟨harm.kept hg (.put (.inr rfl)), fun _ => RegTab.fld_setFld_self _ _ (.of rfl (by omega))⟩
  next hc => exact ⟨harm.kept hg (u.startRegion_kept g b), fun h => absurd h hc⟩

theorem exec_armTakesEffect {a : Nat} {g : Fin 16} (h : (s.grp g).armReq = some a) : exec (.armTakesEffect g) s =
    .next (if (s.grp g).armed = true ∨ chMask s.regs g = 0 ∨ s.get F.TWIN_STATUS_ROLE = 2 then
      ((s.at_ (boundaryAfter a)).setGrp g { s.grp g with armReq := none }).post (boundaryAfter a) 0x0503 (s.locusGrp g) 0
      else (s.at_ (boundaryAfter a)).armAt g (boundaryAfter a)) := by
  have hreq : ((s.at_ (boundaryAfter a)).grp g).armReq = some a := h
  have happly : (s.at_ (boundaryAfter a)).armApply g (boundaryAfter a) =
      if (s.grp g).armed = true ∨ chMask s.regs g = 0 ∨ s.get F.TWIN_STATUS_ROLE = 2 then
      ((s.at_ (boundaryAfter a)).setGrp g { s.grp g with armReq := none }).post (boundaryAfter a) 0x0503 (s.locusGrp g) 0
      else (s.at_ (boundaryAfter a)).armAt g (boundaryAfter a) := by
    unfold State.armApply
    dsimp only
    rw [hreq]
    exact if_neg (Nat.not_le.mpr (lt_boundaryAfter a))
  rw [← happly]
  simp only [exec, execArmTakesEffect, h]

/-- An ARM that is ignored leaves the group as it is, and is logged. -/
theorem State.armIgnored_effect (g : Nat) (y : Grp) (b locus : Nat) : (((s.at_ b).setGrp g y).post b 0x0503 locus 0).grp g = y ∧
    (0x0503, locus) ∈ (((s.at_ b).setGrp g y).post b 0x0503 locus 0).log.seen ∧
    (∀ k, k ≠ g → (((s.at_ b).setGrp g y).post b 0x0503 locus 0).grp k = s.grp k) ∧
    changesOnly logFlds s (((s.at_ b).setGrp g y).post b 0x0503 locus 0) := by
  have hset : changesOnly logFlds s ((s.at_ b).setGrp g y) := (changesOnly.refl _ s).parts rfl rfl rfl rfl
  have hsame := (s.at_ b).grp_setGrp_same g y
  have hother : ∀ k, k ≠ g → ((s.at_ b).setGrp g y).grp k = s.grp k := fun k hk => (s.at_ b).grp_setGrp_other hk y
  generalize (s.at_ b).setGrp g y = u at *
  have hgrps : (u.post b 0x0503 locus 0).grps = u.grps := by simp
  exact ⟨(grp_of_grps hgrps g).trans hsame, State.post_seen _ _ _ _ _, fun k hk => (grp_of_grps hgrps k).trans (hother k hk), hset.post⟩

/-! ### STOP (R92) -/

theorem stop_effect {a : Nat} {g : Fin 16} (harm : (s.grp g).armed = true) (hreq : (s.grp g).stopReq = none) :
    ∃ t, exec (.stop a g) s = .next t ∧ (t.grp g).stopReq = some (a, .command) ∧
      (isCont s.regs g = false → t.get (F.TRG_GRP_STATUS_STATE g) = 5) ∧ t.lcnt = max s.lcnt a ∧ (∀ k : Nat, k ≠ g → t.grp k = s.grp k) ∧
      changesOnly [F.TRG_GRP_STATUS_STATE g] s t ∧ t = { s with lcnt := t.lcnt, regs := t.regs, grps := t.grps } := by
  have hgrp : ((s.at_ a).setGrp g { s.grp g with stopReq := some (a, .command) }).grp g = { s.grp g with stopReq := some (a, .command) } :=
    State.grp_setGrp_same _ _ _
  have hother : ∀ k : Nat, k ≠ g → ((s.at_ a).setGrp g { s.grp g with stopReq := some (a, .command) }).grp k = s.grp k :=
    fun k hk => State.grp_setGrp_other _ hk _
  have hexec : exec (.stop a g) s = .next (if isCont s.regs g then (s.at_ a).setGrp g { s.grp g with stopReq := some (a, .command) }
      else ((s.at_ a).setGrp g { s.grp g with stopReq := some (a, .command) }).put (F.TRG_GRP_STATUS_STATE g) 5) :=
    congrArg Host.Outcome.next (if_pos ⟨harm, hreq⟩)
  have hparts : changesOnly [F.TRG_GRP_STATUS_STATE g] s ((s.at_ a).setGrp g { s.grp g with stopReq := some (a, .command) }) :=
    (changesOnly.refl _ s).parts rfl rfl rfl rfl
  refine ⟨_, hexec, ?_⟩
  split
  next hc => exact ⟨congrArg Grp.stopReq hgrp, fun h => absurd (h.symm.trans hc) (by decide), rfl, hother, hparts, rfl⟩
  next => exact ⟨congrArg Grp.stopReq hgrp, fun _ => RegTab.fld_setFld_self _ _ (.of rfl (by omega)), rfl, hother, hparts.put (by simp), rfl⟩

/-- What the end of an acquisition leaves. -/
structure Ended (g : Nat) (s t : State) : Prop where
  armed : (t.grp g).armed = false
  stopReq : (t.grp g).stopReq = none
  events : (t.grp g).events = []
  gaps : (s.grp g).drop = none → (t.grp g).gaps = []
  state : t.get (F.TRG_GRP_STATUS_STATE g) = 6
  lcnt : t.lcnt = s.lcnt
  seen : (0x0502, s.locusGrp g) ∈ t.log.seen
  other : ∀ k, k ≠ g → t.grp k = s.grp k

/-- The acquisition's books are closed. -/
def State.booksClosed (s : State) (g b : Nat) : State :=
  (s.gapEnd g b ((s.grp g).drop.filter (fun x => (s.grp g).closing.any (fun r => decide (x ≤ r.e))))).avgStop g

/-- The group has stopped. -/
def State.ended (u : State) (g : Nat) (y : Grp) (lost : Bool) (b locus dead : Nat) : State :=
  ((if lost then (u.setGrp g y).setF (F.TRG_GRP_STATUS_FORCE_LOST g) else u.setGrp g y).put (F.TRG_GRP_STATUS_STATE g) 6).post b 0x0502
    locus dead

theorem State.ended_effect {g : Nat} (hg : g < 16) (y : Grp) (lost : Bool) (b locus dead : Nat) :
    (s.ended g y lost b locus dead).grp g = y ∧ (∀ k, k ≠ g → (s.ended g y lost b locus dead).grp k = s.grp k) ∧
    (s.ended g y lost b locus dead).get (F.TRG_GRP_STATUS_STATE g) = 6 ∧ (s.ended g y lost b locus dead).lcnt = s.lcnt ∧
    (0x0502, locus) ∈ (s.ended g y lost b locus dead).log.seen := by
  have hgrps : (s.ended g y lost b locus dead).grps = (s.setGrp g y).grps := by
    cases lost <;> simp [State.ended, State.setF]
  refine ⟨(grp_of_grps hgrps g).trans (s.grp_setGrp_same g y), fun k hk => (grp_of_grps hgrps k).trans (s.grp_setGrp_other hk y), ?_, ?_, ?_⟩
  · exact (State.fld_post _ _ _ _ _ (.of rfl (by omega))).trans (RegTab.fld_setFld_self _ _ (.of rfl (by omega)))
  · cases lost <;> simp [State.ended, State.setF, State.setGrp]
  · exact State.post_seen _ _ _ _ _

theorem State.endAcq_eq (g b : Nat) : ∃ y lost dead, s.endAcq g b = (s.booksClosed g b).ended g y lost b (s.locusGrp g) dead ∧
    y.armed = false ∧ y.stopReq = none ∧ y.events = [] ∧ y.gaps = ((s.booksClosed g b).grp g).gaps := by
  unfold State.endAcq
  extract_lets late s1 gr from_ m gapsAfter dead s2 s3
  have hs1 : s.booksClosed g b = s1 := rfl
  rw [hs1]
  clear_value s1
  exact ⟨_, _, _, rfl, rfl, rfl, rfl, rfl⟩

/-- The books change nothing of the group but its books, and no group's word. -/
theorem State.booksClosed_kept (g b : Nat) : (∀ k, k ≠ g → (s.booksClosed g b).grp k = s.grp k) ∧ (s.booksClosed g b).lcnt = s.lcnt ∧
    ((s.grp g).drop = none → ((s.booksClosed g b).grp g).gaps = []) := by
  have hgap : BookedOn g s (s.gapEnd g b ((s.grp g).drop.filter (fun x => (s.grp g).closing.any (fun r => decide (x ≤ r.e))))) :=
    s.gapEnd_booked g b _
  have hlate : (s.grp g).drop = none →
      ((s.gapEnd g b ((s.grp g).drop.filter (fun x => (s.grp g).closing.any (fun r => decide (x ≤ r.e))))).grp g).gaps = [] := fun h => by
    rw [h]
    exact s.gapEnd_gaps g b
  unfold State.booksClosed
  generalize s.gapEnd g b _ = u at *
  have htally := u.avgStop_tallyShare g
  have hgrps : (u.avgStop g).grps = u.grps := (congrArg State.grps htally.frame).trans rfl
  exact ⟨fun k hk => (grp_of_grps hgrps k).trans (hgap.other k hk),
    ((congrArg State.lcnt htally.frame).trans rfl).trans ((congrArg State.lcnt hgap.share.frame).trans rfl),
    fun h => (congrArg Grp.gaps (grp_of_grps hgrps g)).trans (hlate h)⟩

theorem State.endAcq_ended {g : Nat} (b : Nat) (hg : g < 16) : Ended g s (s.endAcq g b) := by
  obtain ⟨hother, hlcnt, hgaps⟩ := s.booksClosed_kept g b
  obtain ⟨y, lost, dead, heq, harmed, hstop, hevents, hy⟩ := s.endAcq_eq g b
  rw [heq]
  generalize s.booksClosed g b = u at *
  obtain ⟨hgrp, hrest, hstate, htime, hseen⟩ := u.ended_effect hg y lost b (s.locusGrp g) dead
  exact ⟨(congrArg Grp.armed hgrp).trans harmed, (congrArg Grp.stopReq hgrp).trans hstop, (congrArg Grp.events hgrp).trans hevents,
    fun h => ((congrArg Grp.gaps hgrp).trans hy).trans (hgaps h), hstate, htime.trans hlcnt, hseen,
    fun k hk => (hrest k hk).trans (hother k hk)⟩

theorem exec_stopTakesEffect {a : Nat} {g : Fin 16} (hreq : (s.grp g).stopReq = some (a, .command)) (harm : (s.grp g).armed = true)
    (hcur : (s.grp g).cur = none) (hcont : isCont s.regs g = false) :
    exec (.stopTakesEffect g) s = .next ((s.at_ (s.stopAt g a)).endAcq g (s.stopAt g a)) := by
  have happly : (s.at_ (s.stopAt g a)).stopApply g (s.stopAt g a) = (s.at_ (s.stopAt g a)).endAcq g (s.stopAt g a) := by
    have hreq' : ((s.at_ (s.stopAt g a)).grp g).stopReq = some (a, .command) := hreq
    have hcont' : isCont (s.at_ (s.stopAt g a)).regs g = false := hcont
    unfold State.stopApply
    rw [hreq', hcont']
    exact if_neg (by simp)
  simp only [exec, execStopTakesEffect, hreq, harm, hcur, happly, true_or, and_true, if_true]

/-! ### FORCE (R93) -/

theorem force_effect (a : Nat) (g : Fin 16) :
    ((s.grp g).armed = true → ∃ t, exec (.force a g) s = .next t ∧
      (t.grp g).events = insertEv ⟨65536 * a, .force⟩ (s.grp g).events ∧ (∀ k : Nat, k ≠ g → t.grp k = s.grp k) ∧
      t.lcnt = max s.lcnt a ∧ t = { s with lcnt := t.lcnt, grps := t.grps }) ∧
    ((s.grp g).armed = false → ∃ t, exec (.force a g) s = .next t ∧ t.flag (F.TRG_GRP_STATUS_FORCE_LOST g) = true ∧
      t.lcnt = max s.lcnt a ∧ changesOnly [F.TRG_GRP_STATUS_FORCE_LOST g] s t ∧ t = { s with lcnt := t.lcnt, regs := t.regs }) := by
  refine ⟨fun h => ?_, fun h => ?_⟩
  · have hexec : exec (.force a g) s = .next ((s.at_ a).queueEv g ⟨65536 * a, .force⟩) := congrArg Host.Outcome.next (if_pos h)
    have htime : 65536 * a / 65536 = a := by omega
    obtain ⟨hev, hlcnt, hother, hframe⟩ := s.queueEv_effect (g := g) ⟨65536 * a, .force⟩ htime.symm
    exact ⟨_, hexec, hev, hother, hlcnt.trans (by rw [htime]), hframe⟩
  · have hexec : exec (.force a g) s = .next ((s.at_ a).setF (F.TRG_GRP_STATUS_FORCE_LOST g)) :=
      congrArg Host.Outcome.next (if_neg (by rw [show ((s.at_ a).grp g).armed = false from h]; decide))
    have hat : changesOnly [F.TRG_GRP_STATUS_FORCE_LOST g] s (s.at_ a) := (changesOnly.refl _ s).parts rfl rfl rfl rfl
    have hset : (s.at_ a).setF (F.TRG_GRP_STATUS_FORCE_LOST g) = (s.at_ a).put (F.TRG_GRP_STATUS_FORCE_LOST g) 1 := rfl
    refine ⟨_, hexec, ?_, rfl, hat.trans (hset ▸ (changesOnly.refl _ _).put (by simp)), rfl⟩
    simp (disch := first | exact .of rfl (by omega) | omega) [State.flag, State.get, State.setF]

end

/-- Settles O16: an arming stands through the region that begins with it; a stop closes the books, and with every loss ended no gap
is left. -/
theorem groupsArmStopAndForce : Obligations.GroupsArmStopAndForce := by
  unfold Obligations.GroupsArmStopAndForce
  refine ⟨fun a g s => ?_, fun a g s hreq => ⟨fun harm hmask hrole => ?_, fun harm => ?_⟩, fun g s hreq => ?_,
    fun a g s harm hreq => stop_effect s harm hreq, fun a g s harm => ?_, fun a g s hreq harm hcur hcont => ?_, fun g s hreq => ?_,
    fun a g s => force_effect s a g⟩
  · exact ⟨_, rfl, congrArg Grp.armReq (State.grp_setGrp_same _ g _), rfl, fun k hk => State.grp_setGrp_other _ hk _, rfl⟩
  · have hno : ¬((s.grp g).armed = true ∨ chMask s.regs g = 0 ∨ s.get F.TWIN_STATUS_ROLE = 2) := by simp [harm, hmask, hrole]
    have hexec := (exec_armTakesEffect s hreq).trans (congrArg Host.Outcome.next (if_neg hno))
    obtain ⟨h, hcont⟩ := (s.at_ (boundaryAfter a)).armAt_arming (boundaryAfter a) g.isLt
    exact ⟨_, hexec, h.grp.armed, h.grp.armReq, h.grp.armLcnt, h.grp.segs, h.shown, h.lcnt, hcont, h.seen, h.other,
      (fewCommandsWriteTheMemories _ _ _ hexec).2⟩
  · have hexec := (exec_armTakesEffect s hreq).trans (congrArg Host.Outcome.next (if_pos (.inl harm)))
    exact ⟨_, hexec, s.armIgnored_effect g _ _ _⟩
  · simp only [exec, execArmTakesEffect, hreq]
  · exact congrArg Host.Outcome.next (if_neg (by rw [show ((s.at_ a).grp g).armed = false from harm]; simp))
  · have hexec := exec_stopTakesEffect s hreq harm hcur hcont
    have h := (s.at_ (s.stopAt g a)).endAcq_ended (s.stopAt g a) g.isLt
    exact ⟨_, hexec, h.armed, h.stopReq, h.events, h.gaps, h.state, h.lcnt, h.seen, h.other,
      (fewCommandsWriteTheMemories _ _ _ hexec).2⟩
  · simp only [exec, execStopTakesEffect, hreq]

end Sys2Proof.Machine
end

section
/-! SUPPORT. CANDIDATE_DECISION (R84, R87, R88, R91, R93-R95, R101): the earliest event leaves the queue; what a group accepts opens a
record around it. -/

namespace Sys2Proof.Machine

open Sys2Proof.Safety

/-! ### What a decision leaves alone -/

/-- Other groups, the events that wait and the time are as they were. -/
structure Deciding (g : Nat) (s t : State) : Prop where
  other : ∀ k, k ≠ g → t.grp k = s.grp k
  events : (t.grp g).events = (s.grp g).events
  lcnt : t.lcnt = s.lcnt

/-- A group with another's place among its events. -/
def Grp.restep (x y : Grp) : Grp := { x with
  events := y.events
  part := y.part
  high := y.high
  defAt := y.defAt
  evAt := y.evAt }

/-- Of group g only its place among its events has changed, and the time with it. -/
structure Stepped (g : Nat) (s t : State) : Prop where
  other : ∀ k, k ≠ g → t.grp k = s.grp k
  step : t.grp g = (s.grp g).restep (t.grp g)
  frame : t = { s with lcnt := t.lcnt, grps := t.grps }

section
variable {g : Nat} {s t u : State}

theorem Deciding.refl (g : Nat) (s : State) : Deciding g s s := ⟨fun _ _ => rfl, rfl, rfl⟩

theorem Deciding.trans (h : Deciding g s t) (k : Deciding g t u) : Deciding g s u :=
  ⟨fun j hj => (k.other j hj).trans (h.other j hj), k.events.trans h.events, k.lcnt.trans h.lcnt⟩

theorem Deciding.after (k : Deciding g t u) (h : Deciding g s t) : Deciding g s u := h.trans k

theorem Deciding.ite {c : Prop} [Decidable c] (h : Deciding g s t) (k : Deciding g s u) : Deciding g s (if c then t else u) := by
  split
  · exact h
  · exact k

theorem Deciding.parts (hg : t.grps = s.grps) (hl : t.lcnt = s.lcnt) : Deciding g s t :=
  ⟨fun k _ => grp_of_grps hg k, congrArg Grp.events (grp_of_grps hg g), hl⟩

theorem Deciding.setGrp {y : Grp} (h : y.events = (s.grp g).events) : Deciding g s (s.setGrp g y) :=
  ⟨fun _ hk => s.grp_setGrp_other hk y, (congrArg Grp.events (s.grp_setGrp_same g y)).trans h, rfl⟩

theorem BookedOn.deciding (h : BookedOn g s t) : Deciding g s t :=
  ⟨h.other, (congrArg Grp.events h.book).trans rfl, (congrArg State.lcnt h.share.frame).trans rfl⟩

theorem Stepped.refl (g : Nat) (s : State) : Stepped g s s := ⟨fun _ _ => rfl, rfl, rfl⟩

theorem Stepped.trans (h : Stepped g s t) (k : Stepped g t u) : Stepped g s u where
  other j hj := (k.other j hj).trans (h.other j hj)
  step := k.step.trans ((congrArg (fun x : Grp => x.restep (u.grp g)) h.step).trans rfl)
  frame := k.frame.trans ((congrArg (fun x : State => { x with lcnt := u.lcnt, grps := u.grps }) h.frame).trans rfl)

theorem Stepped.setGrp {y : Grp} (h : y = (s.grp g).restep y) : Stepped g s (s.setGrp g y) := by
  refine ⟨fun k hk => s.grp_setGrp_other hk y, ?_, rfl⟩
  rw [s.grp_setGrp_same g y]
  exact h

/-! ### What decides stands -/

theorem Stepped.cfgAt (h : Stepped g s t) (c : Nat) : t.cfgAt c = s.cfgAt c := (congrArg (fun x : State => x.cfgAt c) h.frame).trans rfl

theorem Stepped.regs (h : Stepped g s t) : t.regs = s.regs := (congrArg State.regs h.frame).trans rfl

theorem Stepped.inside (h : Stepped g s t) (x : Nat) : (t.grp g).inside x = (s.grp g).inside x :=
  (congrArg (fun y : Grp => y.inside x) h.step).trans rfl

theorem Stepped.eligible (h : Stepped g s t) (x : Nat) : t.eligible g x = s.eligible g x := by
  have htp : (t.grp g).tp = (s.grp g).tp := (congrArg Grp.tp h.step).trans rfl
  have hsince : (t.grp g).candSince = (s.grp g).candSince := (congrArg Grp.candSince h.step).trans rfl
  have hat : (t.grp g).candAt = (s.grp g).candAt := (congrArg Grp.candAt h.step).trans rfl
  simp only [State.eligible, htp, hsince, hat, State.get, State.getN, h.regs] <;> rfl

theorem Stepped.accepting (h : Stepped g s t) (x : Nat) : t.accepting g x = s.accepting g x := by
  have hready : (t.grp g).readyFrom = (s.grp g).readyFrom := (congrArg Grp.readyFrom h.step).trans rfl
  have hcur : (t.grp g).cur = (s.grp g).cur := (congrArg Grp.cur h.step).trans rfl
  have hclaim : (t.grp g).claim = (s.grp g).claim := (congrArg Grp.claim h.step).trans rfl
  have hclk : t.clk = s.clk := (congrArg State.clk h.frame).trans rfl
  simp only [State.accepting, hready, hcur, hclaim, State.pllOut, hclk]

end

/-! ### A record opens (R101, R105, R109) -/

/-- What a decision changes beside the log: the group's books, the new record, the tally unit's work. -/
def acceptShare : Share where
  upd s t := { s with
    free := t.free, regs := t.regs, grps := t.grps, store := t.store, stageFill := t.stageFill, fillData := t.fillData, sto := t.sto,
    avgs := t.avgs, dbs := t.dbs }
  regs off := 0x500000 ≤ off
  self _ := rfl
  again _ _ _ := rfl

/-- A record stands open, the events wait. -/
structure Opened (g : Nat) (r : Rec) (s t : State) : Prop where
  deciding : Deciding g s t
  cur : ∃ q, (t.grp g).cur = some q ∧ q.kind = r.kind ∧ q.t = r.t ∧ q.s = r.s ∧ q.e = r.e
  share : acceptShare.Only s t

section
variable {g : Nat} {r : Rec} {s t u : State}

theorem BookedOn.onAcceptShare (h : BookedOn g s t) : acceptShare.Only s t := ⟨acceptShare.frame_of h.share.frame rfl, h.share.word⟩

theorem Opened.booked (h : Opened g r s t) (k : BookedOn g t u) : Opened g r s u where
  deciding := h.deciding.trans k.deciding
  cur := by
    obtain ⟨q, hq, hrest⟩ := h.cur
    exact ⟨q, ((congrArg Grp.cur k.book).trans rfl).trans hq, hrest⟩
  share := h.share.trans k.onAcceptShare

theorem Opened.parts (h : Opened g r s t) (k : acceptShare.Only t u) (hg : u.grps = t.grps) : Opened g r s u where
  deciding := h.deciding.trans (.parts hg ((congrArg State.lcnt k.frame).trans rfl))
  cur := by
    obtain ⟨q, hq, hrest⟩ := h.cur
    exact ⟨q, (congrArg Grp.cur (grp_of_grps hg g)).trans hq, hrest⟩
  share := h.share.trans k

end

section
variable (s : State) (g : Nat)

theorem State.showOldest_booked : BookedOn g s (s.showOldest g) := by
  have hoff : 0x500000 ≤ (F.REC_GRP_OLDEST_EMPTY g).off := rec_off g (by decide)
  unfold State.showOldest
  split
  · exact .put hoff
  · exact .trans (.put (f := F.REC_GRP_OLDEST_EMPTY g) hoff) (.put hoff)

theorem State.showPressure_booked : BookedOn g s (s.showPressure g) := .put (rec_off g (by decide))

/-- A group as a record opens. -/
def Grp.opening (gr : Grp) (r : Rec) : Grp := { gr with
  cur := some r
  claim := none
  readyFrom := none
  opened := true
  head := r.lpage + r.lay.pages
  slots := gr.slots ++ [(⟨r.num, r.lpage, r.lay.pages, [], none, false, false, false, r.lay.n⟩ : Slot)]
  missed := 0
  held := 0 }

theorem State.opening_opened (r : Rec) : Opened g r s (s.setGrp g ((s.grp g).opening r)) :=
  ⟨.setGrp rfl, ⟨r, (congrArg Grp.cur (s.grp_setGrp_same g _)).trans rfl, rfl, rfl, rfl, rfl⟩, .parts rfl rfl⟩

theorem State.openRec_opened (r : Rec) : Opened g r s (s.openRec g r) := by
  unfold State.openRec
  extract_lets gr s1 s2 r1
  have hs1 : Opened g r s s1 := (s.opening_opened g r).booked (.putN (off := R.REC_GRP_NEXT_NUM g) (rec_off g (by decide)))
  have hcur1 : (s1.grp g).cur = some r := (congrArg Grp.cur (s.grp_setGrp_same g ((s.grp g).opening r))).trans rfl
  clear_value s1
  have hbook : BookedOn g s1 s2 := ((s1.showOldest_booked g).trans ((s1.showOldest g).showPressure_booked g)).trans
    (((s1.showOldest g).showPressure g).gapSync_booked g)
  clear_value s2
  have hcur2 : (s2.grp g).cur = some r := ((congrArg Grp.cur hbook.book).trans rfl).trans hcur1
  have hs2 := hs1.booked hbook
  have hupd : ((s2.grp g).updRec r1).cur = some r1 := by
    have hmap : ((s2.grp g).updRec r1).cur = (s2.grp g).cur.map (fun x : Rec => if x.num = r1.num then r1 else x) := rfl
    rw [hmap, hcur2]
    exact congrArg some (if_pos rfl)
  have hset : Opened g r s (s2.setGrp g ((s2.grp g).updRec r1)) :=
    ⟨hs2.deciding.trans (.setGrp rfl), ⟨r1, (congrArg Grp.cur (s2.grp_setGrp_same g _)).trans hupd, rfl, rfl, rfl, rfl⟩,
      hs2.share.trans (.parts rfl rfl)⟩
  exact hset.booked (State.writeHeader_booked _ g _)

theorem State.lensBacklog_booked (r : Rec) : BookedOn g s (s.lensBacklog g r) := by
  unfold State.lensBacklog
  split
  · exact .refl _ _
  · exact .foldl _ _ (fun t n _ => .foldl _ _ (fun u i _ => .ite (u.lensCycle_booked g _ _ _ _ _ _) (.refl _ _)) t) s

/-! ### The tally unit's part (R139, R143) -/

theorem State.avgOffer_acceptShare (r : Rec) : acceptShare.Only s (s.avgOffer g r) ∧ (s.avgOffer g r).grps = s.grps := by
  unfold State.avgOffer
  dsimp only
  split
  · exact ⟨.refl _ _, rfl⟩
  · split
    · refine ⟨.trans (.parts (t := s.setAvg g { s.avg g with rej := (s.avg g).rej + 1 }) rfl rfl) (.put (f := F.TAL_AVG_REJ_CNT_COUNT g) ?_), rfl⟩
      simp only [acceptShare, F.TAL_AVG_REJ_CNT_COUNT]
      omega
    · exact ⟨.parts rfl rfl, rfl⟩

theorem State.hitOffer_acceptShare (r : Rec) (l : List Nat) : acceptShare.Only s (s.hitOffer g r l) ∧ (s.hitOffer g r l).grps = s.grps := by
  induction l generalizing s with
  | nil => exact ⟨.refl _ _, rfl⟩
  | cons d ds ih =>
    rw [State.hitOffer]
    have hone : ∀ u, acceptShare.Only s u ∧ u.grps = s.grps →
        acceptShare.Only s (u.hitOffer g r ds) ∧ (u.hitOffer g r ds).grps = s.grps := fun u hu =>
      ⟨hu.1.trans (ih u).1, (ih u).2.trans hu.2⟩
    refine hone _ ?_
    split
    · exact ⟨.refl _ _, rfl⟩
    · split
      · refine ⟨.trans (.parts (t := s.setDb d { s.db d with skipped := (s.db d).skipped + 1 }) rfl rfl) (.put (f := F.TAL_DB_SKIP_CNT_COUNT d) ?_), rfl⟩
        simp only [acceptShare, F.TAL_DB_SKIP_CNT_COUNT]
        omega
      · exact ⟨.parts rfl rfl, rfl⟩

theorem State.tallyOffer_acceptShare (r : Rec) : acceptShare.Only s (s.tallyOffer g r) ∧ (s.tallyOffer g r).grps = s.grps := by
  obtain ⟨h1, h2⟩ := s.avgOffer_acceptShare g r
  obtain ⟨h3, h4⟩ := (s.avgOffer g r).hitOffer_acceptShare g r (dbsOf s.regs g)
  exact ⟨h1.trans h3, h4.trans h2⟩

/-! ### The record's layout (R101) -/

theorem Rec.fence_span (r : Rec) (n c : Nat) : (r.fence n c).kind = r.kind ∧ (r.fence n c).t = r.t ∧ (r.fence n c).s = r.s ∧ (r.fence n c).e = r.e := by
  unfold Rec.fence
  split
  · exact ⟨rfl, rfl, rfl, rfl⟩
  · split
    · exact ⟨rfl, rfl, rfl, rfl⟩
    · dsimp only
      split
      · exact ⟨rfl, rfl, rfl, rfl⟩
      · split
        · exact ⟨rfl, rfl, rfl, rfl⟩
        · exact ⟨rfl, rfl, rfl, rfl⟩

/-- Fencings leave a record's kind, instant and span. -/
theorem Rec.foldl_fence_span (cut : Nat → Option Nat) (l : List Nat) (r : Rec) :
    (l.foldl (fun x n => match cut n with
      | some c => x.fence n c
      | none => x) r).kind = r.kind ∧
    (l.foldl (fun x n => match cut n with
      | some c => x.fence n c
      | none => x) r).t = r.t ∧
    (l.foldl (fun x n => match cut n with
      | some c => x.fence n c
      | none => x) r).s = r.s ∧
    (l.foldl (fun x n => match cut n with
      | some c => x.fence n c
      | none => x) r).e = r.e := by
  induction l generalizing r with
  | nil => exact ⟨rfl, rfl, rfl, rfl⟩
  | cons n ns ih =>
    rw [List.foldl_cons]
    cases cut n with
    | none => exact ih r
    | some c =>
      obtain ⟨h1, h2, h3, h4⟩ := ih (r.fence n c)
      obtain ⟨k1, k2, k3, k4⟩ := r.fence_span n c
      exact ⟨h1.trans k1, h2.trans k2, h3.trans k3, h4.trans k4⟩

theorem State.newRec_span (kind t s0 e dec short lpage flags : Nat) :
    (s.newRec g kind t s0 e dec short lpage flags).1.kind = kind ∧ (s.newRec g kind t s0 e dec short lpage flags).1.t = t ∧
    (s.newRec g kind t s0 e dec short lpage flags).1.s = s0 ∧ (s.newRec g kind t s0 e dec short lpage flags).1.e = e ∧
    (s.newRec g kind t s0 e dec short lpage flags).2 = { s with free := s.free + 1 } := by
  obtain ⟨h1, h2, h3, h4⟩ := Rec.foldl_fence_span (fun n => match (s.chan n).fencedAt with
    | some c => some c
    | none => if bitOf s.fenceMask n then some 0 else none) (bitsSet 48 (s.grp g).winMask) _
  exact ⟨h1, h2, h3, h4, rfl⟩

end

end Sys2Proof.Machine
end

section
/-! SUPPORT. Candidates (R87, R88, R93): accepted, missed, held or lost. -/

namespace Sys2Proof.Machine

open Sys2Proof.Safety

section
variable (s : State) (g : Nat)

/-! ### Acceptance (R91, R95) -/

/-- The count and the instant of an accepted candidate. -/
def State.acceptCounted (s : State) (g x : Nat) : State :=
  ((s.incWrap (F.TRG_GRP_ACCEPT_CNT_COUNT g)).putN (R.TRG_GRP_LAST_LCNT g) 2 (x / 65536)).put (F.TRG_GRP_LAST_FINE_FINE g) (x % 65536)

/-- The group's status after an accepted candidate. -/
def State.acceptStatus (s : State) (g : Nat) (run : Prop) [Decidable run] (coarse : Bool) : State :=
  let s1 := if run then s.put (F.TRG_GRP_STATUS_STATE g) 3 else s
  if coarse then s1.setF (F.TRG_GRP_STATUS_COARSE_SEEN g) else s1

theorem State.getN_put_beside {f : Fld} {off n v : Nat} (u : State) (h : RegTab.Beside f off n) : (u.put f v).getN off n = u.getN off n :=
  RegTab.wide_setFld_beside _ _ h

theorem State.acceptCounted_effect (x : Nat) :
    (s.acceptCounted g x).get (F.TRG_GRP_ACCEPT_CNT_COUNT g) = (s.get (F.TRG_GRP_ACCEPT_CNT_COUNT g) + 1) % 2 ^ 32 ∧
    (s.acceptCounted g x).getN (R.TRG_GRP_LAST_LCNT g) 2 = x / 65536 % 2 ^ 64 ∧
    (s.acceptCounted g x).get (F.TRG_GRP_LAST_FINE_FINE g) = x % 65536 := by
  have hfine : (F.TRG_GRP_LAST_FINE_FINE g).off = 0x408080 + 0x100 * g := rfl
  have hcnt : (F.TRG_GRP_ACCEPT_CNT_COUNT g).off = 0x408084 + 0x100 * g := rfl
  have hlast : R.TRG_GRP_LAST_LCNT g = 0x408078 + 0x100 * g := rfl
  refine ⟨?_, ?_, ?_⟩
  · have hput : (s.acceptCounted g x).get (F.TRG_GRP_ACCEPT_CNT_COUNT g) =
        ((s.incWrap (F.TRG_GRP_ACCEPT_CNT_COUNT g)).putN (R.TRG_GRP_LAST_LCNT g) 2 (x / 65536)).get (F.TRG_GRP_ACCEPT_CNT_COUNT g) :=
      RegTab.fld_congr (RegTab.word_setFld_other _ _ _ _ (by rw [hfine, hcnt]; omega))
    rw [hput, State.get_putN_other _ _ _ _ _ (by rw [hlast, hcnt]; omega)]
    exact s.get_incWrap_width _ (.of rfl (by omega)) rfl
  · exact (State.getN_put_beside _ (.of rfl (by rw [hlast]; omega))).trans (State.getN_putN_mod _ _ _ rfl)
  · exact (RegTab.fld_setFld_self _ _ (.of rfl (by omega))).trans (Nat.mod_mod _ _)

theorem State.acceptStatus_effect (run : Prop) [Decidable run] (coarse : Bool) :
    (∀ off, off ≠ R.TRG_GRP_STATUS g → (s.acceptStatus g run coarse).regs.word off = s.regs.word off) ∧
    (run → (s.acceptStatus g run coarse).get (F.TRG_GRP_STATUS_STATE g) = 3) ∧
    s.acceptStatus g run coarse = { s with regs := (s.acceptStatus g run coarse).regs } := by
  have hword : ∀ (u : State) (f : Fld) (v off : Nat), f.off = R.TRG_GRP_STATUS g → off ≠ R.TRG_GRP_STATUS g → (u.put f v).regs.word off = u.regs.word off :=
    fun u f v off hf ho => RegTab.word_setFld_other _ _ _ _ (fun e => ho (e.trans hf))
  have hstate : (s.put (F.TRG_GRP_STATUS_STATE g) 3).get (F.TRG_GRP_STATUS_STATE g) = 3 := RegTab.fld_setFld_self _ _ (.of rfl (by omega))
  have hcoarse : ∀ u : State, (u.put (F.TRG_GRP_STATUS_COARSE_SEEN g) 1).get (F.TRG_GRP_STATUS_STATE g) = u.get (F.TRG_GRP_STATUS_STATE g) :=
    fun u => RegTab.fld_setFld_sep _ _ (.of rfl (by omega))
  by_cases hr : run
  · cases coarse with
    | false =>
      rw [State.acceptStatus, if_pos hr]
      exact ⟨fun off ho => hword _ _ _ _ rfl ho, fun _ => hstate, rfl⟩
    | true =>
      rw [State.acceptStatus, if_pos hr]
      exact ⟨fun off ho => (hword _ _ _ _ rfl ho).trans (hword _ _ _ _ rfl ho), fun _ => (hcoarse _).trans hstate, rfl⟩
  · cases coarse with
    | false =>
      rw [State.acceptStatus, if_neg hr]
      exact ⟨fun _ _ => rfl, fun h => absurd h hr, rfl⟩
    | true =>
      rw [State.acceptStatus, if_neg hr]
      exact ⟨fun off ho => hword _ _ _ _ rfl ho, fun h => absurd h hr, rfl⟩

/-- What an accepted candidate leaves. -/
structure Accepted (g x kind : Nat) (s t : State) : Prop where
  deciding : Deciding g s t
  cur : ∃ q, (t.grp g).cur = some q ∧ q.kind = kind ∧ q.t = x ∧
    q.s = (max ((x / 65536 : Nat) - (preCyc s.regs g : Int)) (s.grp g).region).toNat ∧ q.e = x / 65536 + postCyc s.regs g - 1
  tp : (t.grp g).tp = some x
  count : t.get (F.TRG_GRP_ACCEPT_CNT_COUNT g) = (s.get (F.TRG_GRP_ACCEPT_CNT_COUNT g) + 1) % 2 ^ 32
  last : t.getN (R.TRG_GRP_LAST_LCNT g) 2 = x / 65536 % 2 ^ 64
  fine : t.get (F.TRG_GRP_LAST_FINE_FINE g) = x % 65536
  state : (s.grp g).stopReq = none → t.get (F.TRG_GRP_STATUS_STATE g) = 3
  frame : t = acceptShare.upd s t

/-- The record that a candidate at instant x opens, and the state that has drawn it. -/
def State.acceptRec (s : State) (g x kind lp : Nat) (coarse : Bool) : Rec × State :=
  s.newRec g kind x ((max ((x / 65536 : Nat) - (preCyc s.regs g : Int)) (s.grp g).region).toNat) (x / 65536 + postCyc s.regs g - 1)
    (x / 65536 + lDec s.regs g)
    (grpN s.regs g * (((max ((x / 65536 : Nat) - (preCyc s.regs g : Int)) (s.grp g).region).toNat : Int) -
      ((x / 65536 : Nat) - (preCyc s.regs g : Int))).toNat) lp (if coarse then setBit 0 flagCoarse else 0)

/-- The record is open, its lens and the tally unit have what came before it. -/
def State.accepted (s : State) (g : Nat) (lp m : Nat) (r : Rec) : State :=
  (((if r.mask = m then s else s.moveBlocks g lp r.lay m r.lay r.mask).openRec g r).lensBacklog g r).tallyOffer g r

theorem State.accept_eq {lp : Nat} (x kind : Nat) (coarse : Bool) (h : (s.grp g).claim = some lp) : ∃ u,
    u = (s.acceptRec g x kind lp coarse).2.accepted g lp (s.grp g).winMask (s.acceptRec g x kind lp coarse).1 ∧
    s.accept g x kind coarse = (((u.setGrp g { u.grp g with tp := some x, candSince := 0, candAt := (0, 0) })).acceptCounted g x).acceptStatus g
      ((s.grp g).stopReq = none) coarse := by
  refine ⟨_, rfl, ?_⟩
  unfold State.accept
  simp only [h]
  rfl

theorem State.accepted_opened (lp m : Nat) (r : Rec) : Opened g r s (s.accepted g lp m r) := by
  have hmove : BookedOn g s (if r.mask = m then s else s.moveBlocks g lp r.lay m r.lay r.mask) := .ite (.refl _ _) (s.moveBlocks_booked g _ _ _ _ _)
  unfold State.accepted
  generalize (if r.mask = m then s else s.moveBlocks g lp r.lay m r.lay r.mask) = u at *
  have hopen := u.openRec_opened g r
  have hlens := (u.openRec g r).lensBacklog_booked g r
  generalize u.openRec g r = v at *
  generalize v.lensBacklog g r = w at *
  obtain ⟨hshare, hgrps⟩ := w.tallyOffer_acceptShare g r
  generalize w.tallyOffer g r = z at *
  obtain ⟨hdec, hcur, hopenShare⟩ := hopen
  exact Opened.parts (.booked ⟨hmove.deciding.trans hdec, hcur, hmove.onAcceptShare.trans hopenShare⟩ hlens) hshare hgrps

/-- The record a candidate opens, and what drawing it changes. -/
theorem State.acceptRec_span (x kind lp : Nat) (coarse : Bool) : ∃ r, s.acceptRec g x kind lp coarse = (r, { s with free := s.free + 1 }) ∧
    r.kind = kind ∧ r.t = x ∧ r.s = (max ((x / 65536 : Nat) - (preCyc s.regs g : Int)) (s.grp g).region).toNat ∧
    r.e = x / 65536 + postCyc s.regs g - 1 := by
  unfold State.acceptRec
  obtain ⟨hkind, ht, hs, he, hdrawn⟩ := s.newRec_span g kind x _ _ _ _ lp _
  exact ⟨_, Prod.ext rfl hdrawn, hkind, ht, hs, he⟩

theorem State.accept_accepted {g lp : Nat} (hg : g < 16) (x kind : Nat) (coarse : Bool) (h : (s.grp g).claim = some lp) :
    Accepted g x kind s (s.accept g x kind coarse) := by
  obtain ⟨u, hu, heq⟩ := s.accept_eq g x kind coarse h
  obtain ⟨r, hr, hkind, ht, hs, he⟩ := s.acceptRec_span g x kind lp coarse
  rw [hr] at hu
  dsimp only at hu
  obtain ⟨hdec, ⟨q, hq, hqkind, hqt, hqs, hqe⟩, hshare⟩ : Opened g r s u := by
    obtain ⟨hdec, hcur, hshare⟩ := State.accepted_opened { s with free := s.free + 1 } g lp (s.grp g).winMask r
    rw [hu]
    have hdrawn : Deciding g s { s with free := s.free + 1 } := .parts rfl rfl
    have hdrawnShare : acceptShare.Only s { s with free := s.free + 1 } := .parts rfl rfl
    exact ⟨hdrawn.trans hdec, hcur, hdrawnShare.trans hshare⟩
  rw [heq]
  clear hu hr heq
  have hset : (u.setGrp g { u.grp g with tp := some x, candSince := 0, candAt := (0, 0) }).grp g =
      { u.grp g with tp := some x, candSince := 0, candAt := (0, 0) } := u.grp_setGrp_same g _
  have hsetDec : Deciding g u (u.setGrp g { u.grp g with tp := some x, candSince := 0, candAt := (0, 0) }) := .setGrp rfl
  have hsetShare : acceptShare.Only u (u.setGrp g { u.grp g with tp := some x, candSince := 0, candAt := (0, 0) }) := .parts rfl rfl
  generalize u.setGrp g { u.grp g with tp := some x, candSince := 0, candAt := (0, 0) } = v at *
  obtain ⟨hcnt, hlast, hfine⟩ := v.acceptCounted_effect g x
  have hcountedFrame : v.acceptCounted g x = { v with regs := (v.acceptCounted g x).regs } := rfl
  generalize v.acceptCounted g x = w at *
  obtain ⟨hword, hstate, hframe⟩ := w.acceptStatus_effect g ((s.grp g).stopReq = none) coarse
  generalize w.acceptStatus g ((s.grp g).stopReq = none) coarse = z at *
  have hgrps : z.grps = v.grps := ((congrArg State.grps hframe).trans rfl).trans ((congrArg State.grps hcountedFrame).trans rfl)
  have hlcnt : z.lcnt = v.lcnt := ((congrArg State.lcnt hframe).trans rfl).trans ((congrArg State.lcnt hcountedFrame).trans rfl)
  have hgrp : z.grp g = { u.grp g with tp := some x, candSince := 0, candAt := (0, 0) } := (grp_of_grps hgrps g).trans hset
  refine ⟨(hdec.trans hsetDec).trans (.parts hgrps hlcnt), ⟨q, (congrArg Grp.cur hgrp).trans hq, hqkind.trans hkind, hqt.trans ht,
    hqs.trans hs, hqe.trans he⟩, congrArg Grp.tp hgrp, ?_, ?_, ?_, hstate, ?_⟩
  · have hz : z.get (F.TRG_GRP_ACCEPT_CNT_COUNT g) = w.get (F.TRG_GRP_ACCEPT_CNT_COUNT g) := RegTab.fld_congr (hword _ (by
      simp only [F.TRG_GRP_ACCEPT_CNT_COUNT, R.TRG_GRP_STATUS]
      omega))
    have hv : v.get (F.TRG_GRP_ACCEPT_CNT_COUNT g) = s.get (F.TRG_GRP_ACCEPT_CNT_COUNT g) := (hshare.trans hsetShare).fld (by
      simp only [acceptShare, F.TRG_GRP_ACCEPT_CNT_COUNT]
      omega)
    rw [hz, hcnt, hv]
  · have hz : z.getN (R.TRG_GRP_LAST_LCNT g) 2 = w.getN (R.TRG_GRP_LAST_LCNT g) 2 := RegTab.wide_congr 2 _ fun j h1 h2 => hword j (by
      simp only [R.TRG_GRP_LAST_LCNT, R.TRG_GRP_STATUS] at h1 h2 ⊢
      omega)
    exact hz.trans hlast
  · have hz : z.get (F.TRG_GRP_LAST_FINE_FINE g) = w.get (F.TRG_GRP_LAST_FINE_FINE g) := RegTab.fld_congr (hword _ (by
      simp only [F.TRG_GRP_LAST_FINE_FINE, R.TRG_GRP_STATUS]
      omega))
    exact hz.trans hfine
  · have hv := (hshare.trans hsetShare).frame
    have hregs : acceptShare.upd v z = z := by
      rw [hframe, hcountedFrame]
      rfl
    have hz := congrArg (fun y => acceptShare.upd y z) hv
    exact (hregs.symm.trans hz).trans (acceptShare.again s v z)

end

/-! ### Counts (R87, R88, R93) -/

/-- A register has counted the candidate; the group waits for the next one. -/
structure Counted (g : Nat) (f : Fld) (s t : State) : Prop where
  cur : (t.grp g).cur = (s.grp g).cur
  only : changesOnly [f] s t
  frame : t = { s with lcnt := t.lcnt, regs := t.regs, grps := t.grps }

section
variable {g : Nat} {f : Fld} {s t u : State}

theorem Counted.trans (h : Counted g f s t) (k : Counted g f t u) : Counted g f s u :=
  ⟨k.cur.trans h.cur, h.only.trans k.only,
    k.frame.trans ((congrArg (fun x : State => { x with lcnt := u.lcnt, regs := u.regs, grps := u.grps }) h.frame).trans rfl)⟩

theorem Counted.setGrp {y : Grp} (h : y.cur = (s.grp g).cur) : Counted g f s (s.setGrp g y) :=
  ⟨(congrArg Grp.cur (s.grp_setGrp_same g y)).trans h, (changesOnly.refl _ s).parts rfl rfl rfl rfl, rfl⟩

theorem Counted.put {v : Nat} (hf : f.ok) : Counted g f s (s.put f v) := ⟨rfl, (changesOnly.refl _ s).put (hf := hf) (by simp), rfl⟩

theorem State.countCand_counted (s : State) (g x : Nat) (f : Fld) : Counted g f s (s.countCand g x) ∧ (s.countCand g x).regs = s.regs ∧
    ((s.countCand g x).grp g).missed = (s.grp g).missed ∧ ((s.countCand g x).grp g).held = (s.grp g).held := by
  have hrefl : Counted g f s s := ⟨rfl, .refl _ _, rfl⟩
  unfold State.countCand
  dsimp only
  split
  · exact ⟨hrefl, rfl, rfl, rfl⟩
  · split
    · exact ⟨hrefl, rfl, rfl, rfl⟩
    · exact ⟨.setGrp rfl, rfl, (congrArg Grp.missed (s.grp_setGrp_same g _)).trans rfl, (congrArg Grp.held (s.grp_setGrp_same g _)).trans rfl⟩

/-- The candidate's count in one register. -/
def State.candCount (s : State) (g x : Nat) (f : Fld) (y : Grp → Grp) : State :=
  ((s.countCand g x).incSat f).setGrp g (y (((s.countCand g x).incSat f).grp g))

theorem State.candCount_counted (s : State) (g x : Nat) {y : Grp → Grp} (hf : f.ok) (hw : f.hi - f.lo + 1 = 32)
    (h : ∀ z, (y z).cur = z.cur) : Counted g f s (s.candCount g x f y) ∧
    (s.candCount g x f y).get f = min (s.get f + 1) (2 ^ 32 - 1) ∧
    ∃ z, (s.candCount g x f y).grp g = y z ∧ z.missed = (s.grp g).missed ∧ z.held = (s.grp g).held := by
  obtain ⟨hcnt, hregs, hmissed, hheld⟩ := s.countCand_counted g x f
  unfold State.candCount
  generalize s.countCand g x = u at *
  have hinc : Counted g f u (u.incSat f) := .put hf
  have hget : (u.incSat f).get f = min (s.get f + 1) (2 ^ 32 - 1) := by
    rw [State.get_incSat_width (w := 32) u f hf hw, State.get, hregs, State.get]
  have hset : Counted g f (u.incSat f) ((u.incSat f).setGrp g (y ((u.incSat f).grp g))) := .setGrp (h _)
  exact ⟨(hcnt.trans hinc).trans hset, hget, _, State.grp_setGrp_same _ g _, hmissed, hheld⟩

theorem Stepped.counted (h : Stepped g s t) (f : Fld) : Counted g f s t := by
  have hregs := h.regs
  exact ⟨(congrArg Grp.cur h.step).trans rfl, (changesOnly.refl _ s).parts hregs ((congrArg State.store h.frame).trans rfl)
    ((congrArg State.flash h.frame).trans rfl) ((congrArg State.pending h.frame).trans rfl), h.frame.trans (by rw [hregs])⟩

end

section
variable (s : State) (g : Nat)

theorem State.candidate_missed {x : Nat} (coarse : Bool) (hin : (s.grp g).inside x = true) (hel : s.eligible g x = true)
    (hno : s.accepting g x = false) : s.candidate g x coarse =
    s.candCount g x (F.TRG_GRP_MISSED_CNT_COUNT g) (fun z => { z with missed := min (z.missed + 1) 0xFFFFFFFF }) := by
  unfold State.candidate
  rw [if_neg (by simp [hin]), if_pos hel, if_neg (by simp [hno])]
  rfl

theorem State.candidate_held {x : Nat} (coarse : Bool) (hin : (s.grp g).inside x = true) (hel : s.eligible g x = false) :
    s.candidate g x coarse =
    s.candCount g x (F.TRG_GRP_HELD_CNT_COUNT g) (fun z => { z with held := min (z.held + 1) 0xFFFFFFFF }) := by
  unfold State.candidate
  rw [if_neg (by simp [hin]), if_neg (by simp [hel])]
  rfl

theorem State.candidate_accepted {x : Nat} (coarse : Bool) (hin : (s.grp g).inside x = true) (hel : s.eligible g x = true)
    (hyes : s.accepting g x = true) : s.candidate g x coarse = s.accept g x 1 coarse := by
  unfold State.candidate
  rw [if_neg (by simp [hin]), if_pos hel, if_pos hyes]

/-- A group that accepts has a slot. -/
theorem State.claim_of_accepting {x : Nat} (h : s.accepting g x = true) : ∃ lp, (s.grp g).claim = some lp := by
  unfold State.accepting at h
  dsimp only at h
  split at h
  · simp only [Bool.and_eq_true] at h
    exact Option.isSome_iff_exists.mp h.1.2
  · cases h

/-! ### Every event (R94) -/

theorem State.countCand_deciding (x : Nat) : Deciding g s (s.countCand g x) := by
  unfold State.countCand
  dsimp only
  split
  · exact .refl _ _
  · exact .ite (.refl _ _) (.setGrp rfl)

theorem State.accept_deciding {g : Nat} (hg : g < 16) (x kind : Nat) (coarse : Bool) : Deciding g s (s.accept g x kind coarse) := by
  cases h : (s.grp g).claim with
  | none =>
    unfold State.accept
    dsimp only
    rw [h]
    exact .refl _ _
  | some lp => exact (s.accept_accepted hg x kind coarse h).deciding

theorem State.candidate_deciding {g : Nat} (hg : g < 16) (x : Nat) (coarse : Bool) : Deciding g s (s.candidate g x coarse) := by
  have hcount : ∀ f : Fld, Deciding g s ((s.countCand g x).incSat f) := fun f => (s.countCand_deciding g x).trans (.parts rfl rfl)
  refine .ite (.refl _ _) (.ite (.ite (s.accept_deciding hg _ _ _) ?_) ?_)
  · exact (hcount (F.TRG_GRP_MISSED_CNT_COUNT g)).trans (.setGrp rfl)
  · exact (hcount (F.TRG_GRP_HELD_CNT_COUNT g)).trans (.setGrp rfl)

theorem State.forced_deciding {g : Nat} (hg : g < 16) (x : Nat) : Deciding g s (s.forced g x) :=
  .ite (s.accept_deciding hg _ _ _) ((s.countCand_deciding g x).trans (.parts rfl rfl))

theorem State.freshDef_deciding (x : Nat) : Deciding g s (s.freshDef g x) := by
  unfold State.freshDef
  dsimp only
  split
  · exact .setGrp rfl
  · exact .refl _ _

theorem State.dropBypass_stepped (a b : Nat) : Stepped g s (s.dropBypass g a b) ∧ Deciding g s (s.dropBypass g a b) := by
  unfold State.dropBypass
  dsimp only
  split
  · exact ⟨.setGrp rfl, .setGrp rfl⟩
  · exact ⟨.refl _ _, .refl _ _⟩

theorem State.evalEv_deciding {g : Nat} (hg : g < 16) (e : TrgEv) : Deciding g s (s.evalEv g e) := by
  unfold State.evalEv
  extract_lets s0 gr d
  have h0 : Deciding g s s0 := (s.freshDef_deciding g e.t).trans (State.dropBypass_stepped _ g _ _).2
  clear_value d
  have hgr : gr = s0.grp g := rfl
  clear_value gr s0
  subst hgr
  have hset : ∀ y : Grp, y.events = (s0.grp g).events → Deciding g s0 (s0.setGrp g y) := fun y hy => .setGrp hy
  refine h0.trans ?_
  split
  · exact s0.forced_deciding hg _
  · exact .ite ((State.candidate_deciding _ hg _ _).after (hset _ rfl)) (.refl _ _)
  · exact .ite ((State.candidate_deciding _ hg _ _).after (hset _ rfl)) (.refl _ _)
  · exact .ite (hset _ rfl) (.ite ((State.candidate_deciding _ hg _ _).after (hset _ rfl)) (hset _ rfl))

/-! ### A crossing that an edge trigger asks for (R84) -/

/-- The event has left the queue, and the time is its decision's. -/
def State.taken (s : State) (g x : Nat) (rest : List TrgEv) : State := (s.at_ x).setGrp g { s.grp g with events := rest }

theorem State.taken_stepped (x : Nat) (rest : List TrgEv) : Stepped g s (s.taken g x rest) :=
  have hset : Stepped g (s.at_ x) (s.taken g x rest) := .setGrp rfl
  Stepped.trans (t := s.at_ x) ⟨fun _ _ => rfl, rfl, rfl⟩ hset

theorem exec_candidateDecision {g : Fin 16} {e : TrgEv} {rest : List TrgEv} (h : (s.grp g).events = e :: rest) :
    exec (.candidateDecision g) s = .next ((s.taken g (e.t / 65536 + lDec s.regs g) rest).decide_ g e) := by
  simp only [exec, execCandidateDecision, h]
  rfl

theorem State.decide_stepped (e : TrgEv) : Stepped g (s.evalEv g e) (s.decide_ g e) ∧ Deciding g (s.evalEv g e) (s.decide_ g e) := by
  obtain ⟨h, hd⟩ := (s.evalEv g e).dropBypass_stepped g e.t e.t
  exact ⟨h.trans (.setGrp rfl), hd.trans (.setGrp rfl)⟩

theorem State.evalEv_cross {x src : Nat} {rising : Bool} (coarse : Bool) {d : TrgDef} (hdef : (s.grp g).defAt = [])
    (hd : d = trgDef (s.cfgAt (x / 65536)) g) (htyp : d.typ = 0) (hsrc : src = d.a) (hused : src ∈ srcsOf (s.cfgAt (x / 65536)) g)
    (hslope : slopeIs d.slopeA rising = true) (hin : (s.grp g).inside x = true) :
    ∃ v, Stepped g s v ∧ s.evalEv g ⟨x, .cross src rising coarse⟩ = v.candidate g x coarse := by
  unfold State.evalEv
  dsimp only
  rw [s.freshDef_of_nil x hdef]
  have h0 := (s.dropBypass_stepped g (s.grp g).evAt x).1
  generalize s.dropBypass g (s.grp g).evAt x = s0 at *
  have hlate : ¬x < 65536 * (s0.grp g).armLcnt := by
    have hin0 := (h0.inside x).trans hin
    simp only [Grp.inside, Bool.and_eq_true, decide_eq_true_eq] at hin0
    omega
  have hmem : (srcsOf (s0.cfgAt (x / 65536)) g).contains src = true := by
    rw [h0.cfgAt]
    simpa using hused
  have hcross : (trgDef (s0.cfgAt (x / 65536)) g).cross (s0.grp g).part x src rising (s0.grp g).high (highAfter (s0.grp g).high src rising) =
      ((s0.grp g).part, true) := by
    rw [h0.cfgAt, ← hd]
    simp only [TrgDef.cross, htyp, hsrc, hslope, beq_self_eq_true, Bool.and_self]
  rw [if_neg hlate, if_pos hmem, hcross]
  exact ⟨_, h0.trans (.setGrp rfl), rfl⟩

/-- A crossing that an edge trigger asks for is a candidate between two steps of the group. -/
theorem exec_candidateDecision_cross {g : Fin 16} {x src : Nat} {rising coarse : Bool} {rest : List TrgEv} {d : TrgDef}
    (hev : (s.grp g).events = ⟨x, .cross src rising coarse⟩ :: rest) (hdef : (s.grp g).defAt = [])
    (hd : d = trgDef (s.cfgAt (x / 65536)) g) (htyp : d.typ = 0) (hsrc : src = d.a) (hused : src ∈ srcsOf (s.cfgAt (x / 65536)) g)
    (hslope : slopeIs d.slopeA rising = true) (hin : (s.grp g).inside x = true) :
    ∃ v t, exec (.candidateDecision g) s = .next t ∧ Stepped g s v ∧ Stepped g (v.candidate g x coarse) t := by
  have hexec := exec_candidateDecision s hev
  have htaken := s.taken_stepped g (x / 65536 + lDec s.regs g) rest
  have htakenDef : ((s.taken g (x / 65536 + lDec s.regs g) rest).grp g).defAt = [] :=
    (congrArg Grp.defAt (State.grp_setGrp_same _ g.val _)).trans hdef
  have hinTaken := (htaken.inside x).trans hin
  have hcfg := htaken.cfgAt (x / 65536)
  dsimp only at hexec
  generalize s.taken g (x / 65536 + lDec s.regs g) rest = u at *
  rw [← hcfg] at hd hused
  obtain ⟨v, hv, heval⟩ := u.evalEv_cross g coarse htakenDef hd htyp hsrc hused hslope hinTaken
  have hlast := (u.decide_stepped g ⟨x, .cross src rising coarse⟩).1
  rw [heval] at hlast
  exact ⟨v, _, hexec, htaken.trans hv, hlast⟩

end

/-- Settles O15: the queue's head is decided between two steps of the group; only an acceptance opens a record, whose kind, instant and
span stand through what comes before it. -/
theorem candidatesAreDecided : Obligations.CandidatesAreDecided := by
  unfold Obligations.CandidatesAreDecided
  refine ⟨fun g e rest s hev => ?_, fun g s hev => ?_, fun g x src rising coarse rest d s hev hdef hd htyp hsrc hused hslope hin =>
    ⟨fun hel hacc => ?_, fun hel hacc => ?_, fun hel => ?_⟩, fun g x rest s hev hdef hacc => ?_⟩
  · have hexec := exec_candidateDecision s hev
    have htaken : ((s.taken g (e.t / 65536 + lDec s.regs g) rest).grp g).events = rest ∧
        (s.taken g (e.t / 65536 + lDec s.regs g) rest).lcnt = max s.lcnt (e.t / 65536 + lDec s.regs g) :=
      ⟨congrArg Grp.events (State.grp_setGrp_same _ g.val _), rfl⟩
    have hother := (s.taken_stepped g (e.t / 65536 + lDec s.regs g) rest).other
    obtain ⟨hrest, htime⟩ := htaken
    generalize s.taken g (e.t / 65536 + lDec s.regs g) rest = u at *
    have h := (u.evalEv_deciding g.isLt e).trans (u.decide_stepped g e).2
    exact ⟨_, hexec, h.events.trans hrest, h.lcnt.trans htime, fun k hk => (h.other k hk).trans (hother k hk),
      (fewCommandsWriteTheMemories _ _ _ hexec).2⟩
  · simp only [exec, execCandidateDecision, hev]
  · obtain ⟨v, t, hexec, hv, ht⟩ := exec_candidateDecision_cross s hev hdef hd htyp hsrc hused hslope hin
    have hvacc := (hv.accepting x).trans hacc
    obtain ⟨lp, hlp⟩ := v.claim_of_accepting g hvacc
    rw [v.candidate_accepted g coarse ((hv.inside x).trans hin) ((hv.eligible x).trans hel) hvacc] at ht
    obtain ⟨-, ⟨q, hq, hkind, hqt, hqs, hqe⟩, htp, hcnt, hlast, hfine, hstate, hframe⟩ := v.accept_accepted g.isLt x 1 coarse hlp
    generalize v.accept g x 1 coarse = w at *
    have hregion : (v.grp g).region = (s.grp g).region := (congrArg Grp.region hv.step).trans rfl
    have hstop : (v.grp g).stopReq = (s.grp g).stopReq := (congrArg Grp.stopReq hv.step).trans rfl
    rw [hv.regs, hregion] at hqs
    rw [hv.regs] at hqe
    have hvcnt : v.get (F.TRG_GRP_ACCEPT_CNT_COUNT g) = s.get (F.TRG_GRP_ACCEPT_CNT_COUNT g) := by rw [State.get, hv.regs, State.get]
    refine ⟨t, q, hexec, ((congrArg Grp.cur ht.step).trans rfl).trans hq, fun _ => ⟨hkind, hqt, hqs, hqe⟩,
      ((congrArg Grp.tp ht.step).trans rfl).trans htp, ?_, ?_, ?_, fun h => ?_, ?_⟩
    · rw [State.get, ht.regs]
      exact hcnt.trans (by rw [hvcnt])
    · rw [State.getN, ht.regs]
      exact hlast
    · rw [State.get, ht.regs]
      exact hfine
    · rw [State.get, ht.regs]
      exact hstate (hstop.trans h)
    · have hregs := ht.regs
      obtain ⟨l, gs, hl⟩ : ∃ l gs, v = { s with lcnt := l, grps := gs } := ⟨_, _, hv.frame⟩
      have hw : w = acceptShare.upd v w := hframe
      have hwt : t = { acceptShare.upd v w with lcnt := t.lcnt, grps := t.grps } := hw ▸ ht.frame
      subst hl
      rw [hwt]
      rfl
  · obtain ⟨v, t, hexec, hv, ht⟩ := exec_candidateDecision_cross s hev hdef hd htyp hsrc hused hslope hin
    rw [v.candidate_missed g coarse ((hv.inside x).trans hin) ((hv.eligible x).trans hel) ((hv.accepting x).trans hacc)] at ht
    obtain ⟨hcounted, hget, z, hz, hmissed, -⟩ := v.candCount_counted g x (f := F.TRG_GRP_MISSED_CNT_COUNT g)
      (y := fun z => { z with missed := min (z.missed + 1) 0xFFFFFFFF }) (.of rfl (by omega)) rfl (fun _ => rfl)
    generalize v.candCount g x (F.TRG_GRP_MISSED_CNT_COUNT g) _ = w at *
    have h := ((hv.counted _).trans hcounted).trans (ht.counted _)
    have hvm : (v.grp g).missed = (s.grp g).missed := (congrArg Grp.missed hv.step).trans rfl
    refine ⟨t, hexec, ?_, ?_, h.cur, h.only, h.frame⟩
    · rw [State.get, ht.regs]
      exact hget.trans (by rw [State.get, hv.regs, State.get])
    · refine ((congrArg Grp.missed ht.step).trans rfl).trans ((congrArg Grp.missed hz).trans ?_)
      show min (z.missed + 1) _ = _
      rw [hmissed, hvm]
  · obtain ⟨v, t, hexec, hv, ht⟩ := exec_candidateDecision_cross s hev hdef hd htyp hsrc hused hslope hin
    rw [v.candidate_held g coarse ((hv.inside x).trans hin) ((hv.eligible x).trans hel)] at ht
    obtain ⟨hcounted, hget, z, hz, -, hheld⟩ := v.candCount_counted g x (f := F.TRG_GRP_HELD_CNT_COUNT g)
      (y := fun z => { z with held := min (z.held + 1) 0xFFFFFFFF }) (.of rfl (by omega)) rfl (fun _ => rfl)
    generalize v.candCount g x (F.TRG_GRP_HELD_CNT_COUNT g) _ = w at *
    have h := ((hv.counted _).trans hcounted).trans (ht.counted _)
    have hvh : (v.grp g).held = (s.grp g).held := (congrArg Grp.held hv.step).trans rfl
    refine ⟨t, hexec, ?_, ?_, h.cur, h.only, h.frame⟩
    · rw [State.get, ht.regs]
      exact hget.trans (by rw [State.get, hv.regs, State.get])
    · refine ((congrArg Grp.held ht.step).trans rfl).trans ((congrArg Grp.held hz).trans ?_)
      show min (z.held + 1) _ = _
      rw [hheld, hvh]
  · have hexec := exec_candidateDecision s hev
    have htaken := s.taken_stepped g (x / 65536 + lDec s.regs g) rest
    have htakenDef : ((s.taken g (x / 65536 + lDec s.regs g) rest).grp g).defAt = [] :=
      (congrArg Grp.defAt (State.grp_setGrp_same _ g.val _)).trans hdef
    dsimp only at hexec
    generalize s.taken g (x / 65536 + lDec s.regs g) rest = u at *
    have hdrop := (u.dropBypass_stepped g (u.grp g).evAt x).1
    have hlast := (u.decide_stepped g ⟨x, .force⟩).1
    have heval : u.evalEv g ⟨x, .force⟩ = (u.dropBypass g (u.grp g).evAt x).forced g x := by
      unfold State.evalEv
      dsimp only
      rw [u.freshDef_of_nil x htakenDef]
    rw [heval] at hlast
    have hno := ((htaken.trans hdrop).accepting x).trans hacc
    generalize u.dropBypass g (u.grp g).evAt x = v at *
    have hforced : v.forced g x = (v.countCand g x).setF (F.TRG_GRP_STATUS_FORCE_LOST g) := if_neg (by simp [hno])
    rw [hforced] at hlast
    have hcnt := (v.countCand_counted g x (F.TRG_GRP_STATUS_FORCE_LOST g)).1
    generalize v.countCand g x = w at *
    have hset : Counted g (F.TRG_GRP_STATUS_FORCE_LOST g) w (w.setF (F.TRG_GRP_STATUS_FORCE_LOST g)) := .put (.of rfl (by omega))
    have h := ((((htaken.trans hdrop).counted _).trans hcnt).trans hset).trans (hlast.counted _)
    refine ⟨_, hexec, ?_, h.cur, h.only, h.frame⟩
    rw [State.flag, hlast.regs]
    simp (disch := first | exact .of rfl (by omega) | omega) [State.setF]

end Sys2Proof.Machine
end

section
/-! SUPPORT. The clamps and the rotating spare (R41, R44-R47), and what is found of positions (R47, R324). -/

namespace Sys2Proof.Machine

open Sys2Proof.Safety

section
variable (s : State)

/-! ### One channel -/

theorem State.chan_setChan_same (n : Nat) (x : Chan) : (s.setChan n x).chan n = x := Tab.get_set_same _ _ _ _

theorem State.chan_setChan_other {n k : Nat} (h : k ≠ n) (x : Chan) : (s.setChan n x).chan k = s.chan k := Tab.get_set_other _ _ _ _ _ h

theorem chan_of_chans {s t : State} (h : t.chans = s.chans) (k : Nat) : t.chan k = s.chan k := congrArg (fun x => Tab.get Chan.init x k) h

theorem State.arrays_congr {s t : State} (h : t.regs.fld F.CONV_MODE_PAIR = s.regs.fld F.CONV_MODE_PAIR) (n : Nat) : t.arrays n = s.arrays n := by
  unfold State.arrays paired
  rw [h]

theorem State.arrays_of_unpaired {n : Nat} (h : paired s.regs n = false) : s.arrays n = [n] := by
  rw [State.arrays, h]
  rfl

theorem State.mem_arrays (n : Nat) : n ∈ s.arrays n := by
  unfold State.arrays
  split
  · simp only [List.mem_cons, List.not_mem_nil, or_false]
    omega
  · simp

/-! ### An array without a spare (R47) -/

/-- Steps of these arrays that were pending are no longer. -/
def State.unpend (s : State) (l : List Nat) : State := l.foldl (fun t a => t.setChan a { t.chan a with stepPending := false }) s

theorem State.unpend_effect (l : List Nat) (n : Nat) : (∃ b, (s.unpend l).chan n = { s.chan n with stepPending := b }) ∧
    (∀ k ∉ l, (s.unpend l).chan k = s.chan k) ∧ s.unpend l = { s with chans := (s.unpend l).chans } := by
  induction l generalizing s with
  | nil => exact ⟨⟨_, rfl⟩, fun _ _ => rfl, rfl⟩
  | cons a as ih =>
    have hcons : s.unpend (a :: as) = (s.setChan a { s.chan a with stepPending := false }).unpend as := rfl
    rw [hcons]
    obtain ⟨⟨b, hb⟩, hother, hframe⟩ := ih (s.setChan a { s.chan a with stepPending := false })
    refine ⟨?_, fun k hk => ?_, hframe⟩
    · by_cases h : n = a
      · subst h
        exact ⟨b, hb.trans (by rw [s.chan_setChan_same])⟩
      · exact ⟨b, hb.trans (by rw [s.chan_setChan_other h])⟩
    · rw [List.mem_cons, not_or] at hk
      exact (hother k hk.2).trans (s.chan_setChan_other hk.1 _)

/-- What an array without a working spare shows. -/
structure Spareless (n : Nat) (s t : State) : Prop where
  chan : ∃ b, t.chan n = { s.chan n with spare := none, stepPending := b }
  other : ∀ k ∉ s.arrays n, t.chan k = s.chan k
  flag : t.flag (F.CONV_CH_STATUS_NO_SPARE n) = true
  pos : t.get (F.CONV_CH_STATUS_SPARE_POS n) = 0xFF
  only : changesOnly [F.CONV_CH_STATUS_NO_SPARE n, F.CONV_CH_STATUS_SPARE_POS n] s t
  frame : t = { s with regs := t.regs, chans := t.chans }

theorem State.noSpare_spareless (n : Nat) : Spareless n s (s.noSpare n) := by
  unfold State.noSpare
  extract_lets ch s1
  have hs1 : Spareless n s s1 := by
    refine ⟨⟨_, s.chan_setChan_same n _⟩, fun k hk => s.chan_setChan_other (fun h => hk (by rw [h]; exact s.mem_arrays n)) _, ?_, ?_, ?_, rfl⟩
    · simp (disch := first | exact .of rfl (by omega) | omega) [s1, State.flag, State.setF]
    · exact RegTab.fld_setFld_self _ _ (.of rfl (by omega))
    · have h0 : changesOnly [F.CONV_CH_STATUS_NO_SPARE n, F.CONV_CH_STATUS_SPARE_POS n] s (s.setChan n { s.chan n with spare := none }) :=
        (changesOnly.refl _ s).parts rfl rfl rfl rfl
      have h1 := h0.put (f := F.CONV_CH_STATUS_NO_SPARE n) (v := 1) (by simp)
      exact h1.put (f := F.CONV_CH_STATUS_SPARE_POS n) (by simp)
  have harr : s1.arrays n = s.arrays n := State.arrays_congr (by
    simp (disch := first | exact .of rfl (by omega) | omega) [s1, State.setF, F.CONV_MODE_PAIR, State.setChan]) n
  clear_value s1
  split
  · exact hs1
  · show Spareless n s (s1.unpend (s1.arrays n))
    rw [harr]
    obtain ⟨⟨b, hb⟩, hother, hframe⟩ := s1.unpend_effect (s.arrays n) n
    generalize s1.unpend (s.arrays n) = t at *
    obtain ⟨⟨b1, hb1⟩, hother1, hflag, hpos, honly, hframe1⟩ := hs1
    have hregs : t.regs = s1.regs := (congrArg State.regs hframe).trans rfl
    refine ⟨⟨b, hb.trans (by rw [hb1])⟩, fun k hk => (hother k hk).trans (hother1 k hk), ?_, ?_, ?_, ?_⟩
    · rw [State.flag, hregs]
      exact hflag
    · rw [State.get, hregs]
      exact hpos
    · exact honly.parts hregs ((congrArg State.store hframe).trans rfl) ((congrArg State.flash hframe).trans rfl)
        ((congrArg State.pending hframe).trans rfl)
    · exact hframe.trans ((congrArg (fun x : State => { x with chans := t.chans }) hframe1).trans (by rw [hregs]))

/-! ### A takeover (R47) -/

theorem spareTakeover_effect {n : Fin 48} {j p : Nat} (hj : (s.chan n).takeover = some j) (hp : (s.chan n).spare = some p) :
    ∃ t, exec (.spareTakeover n) s = .next t ∧ (t.chan n).slots = Tab.set (s.chan n).slots j p ∧
      (t.chan n).parked = Tab.get j (s.chan n).slots j :: (s.chan n).parked ∧ (t.chan n).takeover = none ∧
      (t.chan n).spare = none ∧ (t.chan n).stepAt = some s.nextTick ∧ t.flag (F.CONV_CH_STATUS_NO_SPARE n) = true ∧
      t.get (F.CONV_CH_STATUS_SPARE_POS n) = 0xFF ∧ (∀ k ∉ s.arrays n, t.chan k = s.chan k) ∧
      changesOnly [F.CONV_CH_STATUS_NO_SPARE n, F.CONV_CH_STATUS_SPARE_POS n] s t ∧
      t = { s with lcnt := t.lcnt, regs := t.regs, chans := t.chans } := by
  have htake : (s.at_ s.nextTick).takeSlot n s.nextTick = ((s.at_ s.nextTick).setChan n { ((s.chan n).swap j p s.nextTick).2 with
      takeover := none, parked := ((s.chan n).swap j p s.nextTick).1 :: (s.chan n).parked }).noSpare n := by
    have hj' : ((s.at_ s.nextTick).chan n).takeover = some j := hj
    have hp' : ((s.at_ s.nextTick).chan n).spare = some p := hp
    unfold State.takeSlot
    dsimp only
    rw [hj', hp']
    rfl
  have hexec : exec (.spareTakeover n) s = .next ((s.at_ s.nextTick).takeSlot n s.nextTick) :=
    congrArg Host.Outcome.next (if_pos (by rw [hj]; rfl))
  rw [htake] at hexec
  have hset := (s.at_ s.nextTick).chan_setChan_same n { ((s.chan n).swap j p s.nextTick).2 with
    takeover := none, parked := ((s.chan n).swap j p s.nextTick).1 :: (s.chan n).parked }
  have hother : ∀ k : Nat, k ≠ n → ((s.at_ s.nextTick).setChan n { ((s.chan n).swap j p s.nextTick).2 with
    takeover := none, parked := ((s.chan n).swap j p s.nextTick).1 :: (s.chan n).parked }).chan k = s.chan k :=
    fun k hk => (s.at_ s.nextTick).chan_setChan_other hk _
  have hframe : (s.at_ s.nextTick).setChan n { ((s.chan n).swap j p s.nextTick).2 with
    takeover := none, parked := ((s.chan n).swap j p s.nextTick).1 :: (s.chan n).parked } =
    { s with lcnt := max s.lcnt s.nextTick, chans := ((s.at_ s.nextTick).setChan n { ((s.chan n).swap j p s.nextTick).2 with
      takeover := none, parked := ((s.chan n).swap j p s.nextTick).1 :: (s.chan n).parked }).chans } := rfl
  generalize (s.at_ s.nextTick).setChan n { ((s.chan n).swap j p s.nextTick).2 with
    takeover := none, parked := ((s.chan n).swap j p s.nextTick).1 :: (s.chan n).parked } = u at *
  obtain ⟨⟨b, hb⟩, hrest, hflag, hpos, honly, hno⟩ := u.noSpare_spareless n
  have harr : u.arrays n = s.arrays n := State.arrays_congr (congrArg (fun x : State => x.regs.fld F.CONV_MODE_PAIR) hframe) n
  rw [hset] at hb
  have hu : changesOnly [F.CONV_CH_STATUS_NO_SPARE n, F.CONV_CH_STATUS_SPARE_POS n] s u := (changesOnly.refl _ s).parts
    ((congrArg State.regs hframe).trans rfl) ((congrArg State.store hframe).trans rfl) ((congrArg State.flash hframe).trans rfl)
    ((congrArg State.pending hframe).trans rfl)
  refine ⟨_, hexec, congrArg Chan.slots hb, congrArg Chan.parked hb, congrArg Chan.takeover hb, congrArg Chan.spare hb,
    congrArg Chan.stepAt hb, hflag, hpos, fun k hk => ?_, hu.trans honly, ?_⟩
  · have hk' : k ∉ u.arrays n := harr ▸ hk
    exact (hrest k hk').trans (hother k (fun h => hk (by rw [h]; exact s.mem_arrays n)))
  · generalize u.noSpare n = t at *
    rw [hno, hframe]

/-! ### A rotation step (R44-R46) -/

theorem State.windowMeets_congr {s t : State} (hr : t.regs = s.regs) (hg : t.grps = s.grps) (n b : Nat) : t.windowMeets n b = s.windowMeets n b := by
  unfold State.windowMeets State.grp
  rw [hr, hg]

/-- The schedule goes on, and the step is pending. -/
theorem State.rotate_decides {n b d p : Nat} (hp : (s.chan n).spare = some p) (hd : (s.chan n).due = some d) (hle : d ≤ b)
    (hrot : (s.chan n).rotAt ≠ some b) (hfence : bitOf s.fenceMask n = false) (hpair : paired s.regs n = false)
    (htake : (s.chan n).takeover = none) : ∃ u : State, s.rotate n b = (u.rotDecide n b).showDue n b ∧
      u.chan n = { s.chan n with rotAt := some b, due := some (d + s.rotPeriod), stepPending := true } ∧
      (∀ k : Nat, k ≠ n → u.chan k = s.chan k) ∧ u = { s with chans := u.chans } := by
  have hset := s.chan_setChan_same n { s.chan n with rotAt := some b }
  have hother : ∀ k : Nat, k ≠ n → (s.setChan n { s.chan n with rotAt := some b }).chan k = s.chan k := fun k hk => s.chan_setChan_other hk _
  have harr : (if n % 2 = 1 then [n] else s.arrays n) = [n] := by
    rw [s.arrays_of_unpaired hpair]
    exact ite_self _
  unfold State.rotate
  rw [if_neg (by simp [hrot, hfence]), harr, if_neg (by simp [hpair])]
  have hframe : s.setChan n { s.chan n with rotAt := some b } = { s with chans := (s.setChan n { s.chan n with rotAt := some b }).chans } := rfl
  dsimp only [List.foldl_cons, List.foldl_nil]
  generalize s.setChan n { s.chan n with rotAt := some b } = v at *
  have hslot : v.takeSlot n b = v := by
    have h : (v.chan n).takeover = none := (congrArg Chan.takeover hset).trans htake
    unfold State.takeSlot
    dsimp only
    rw [h]
  have hper : v.rotPeriod = s.rotPeriod := (congrArg State.rotPeriod hframe).trans rfl
  have hsched : v.schedule n b = v.setChan n { v.chan n with due := some (d + s.rotPeriod), stepPending := true } := by
    have h : (v.chan n).due = some d := (congrArg Chan.due hset).trans hd
    have hspare : (v.chan n).spare = some p := (congrArg Chan.spare hset).trans hp
    unfold State.schedule
    dsimp only
    rw [h]
    dsimp only
    rw [if_pos hle, hper, hspare]
    simp
  simp only [hslot, hsched]
  have hlast := v.chan_setChan_same n { v.chan n with due := some (d + s.rotPeriod), stepPending := true }
  have hlastOther : ∀ k : Nat, k ≠ n → (v.setChan n { v.chan n with due := some (d + s.rotPeriod), stepPending := true }).chan k = v.chan k :=
    fun k hk => v.chan_setChan_other hk _
  have hlastFrame : v.setChan n { v.chan n with due := some (d + s.rotPeriod), stepPending := true } =
    { v with chans := (v.setChan n { v.chan n with due := some (d + s.rotPeriod), stepPending := true }).chans } := rfl
  generalize v.setChan n { v.chan n with due := some (d + s.rotPeriod), stepPending := true } = u at *
  have hchan : u.chan n = { s.chan n with rotAt := some b, due := some (d + s.rotPeriod), stepPending := true } := by rw [hlast, hset]
  refine ⟨u, ?_, hchan, fun k hk => (hlastOther k hk).trans (hother k hk), ?_⟩
  · rw [if_pos]
    refine ⟨?_, ?_⟩
    · simp [hchan]
    · simp [hchan, hp]
  · rw [hlastFrame, hframe]

theorem State.showDue_effect (n b : Nat) : (∀ f : Fld, (F.CONV_ROT_DUE_TICKS n).Sep f → (s.showDue n b).get f = s.get f) ∧
    changesOnly [F.CONV_ROT_DUE_TICKS n] s (s.showDue n b) ∧ s.showDue n b = { s with regs := (s.showDue n b).regs } := by
  unfold State.showDue
  split
  · exact ⟨fun f hf => RegTab.fld_setFld_sep _ _ hf, (changesOnly.refl _ s).put (by simp), rfl⟩
  · exact ⟨fun _ _ => rfl, .refl _ _, rfl⟩

/-- The registers of a step: the next slot, the spare's position, the count, and three figures of the array's quality. -/
def stepRegs (r : RegTab) (n j old x y z : Nat) : RegTab :=
  (((((r.setFld (F.CONV_CH_STATUS_NEXT_SLOT n) ((j + 1) % 64)).setFld (F.CONV_CH_STATUS_SPARE_POS n) old).setFld (F.CONV_ROT_STEPS_COUNT n)
    (r.fld (F.CONV_ROT_STEPS_COUNT n) + 1)).setFld (F.CAL_Q_SPUR_DBC n) x).setFld (F.CAL_Q_SKEW_FS n) y).setFld (F.CAL_Q_ENOB_CBIT n) z

theorem stepRegs_effect (r : RegTab) {n : Nat} (hn : n < 48) (j old x y z : Nat) :
    ((stepRegs r n j old x y z).setFld (F.CONV_ROT_DUE_DEFERRED n) 0).fld (F.CONV_CH_STATUS_NEXT_SLOT n) = (j + 1) % 64 ∧
    ((stepRegs r n j old x y z).setFld (F.CONV_ROT_DUE_DEFERRED n) 0).fld (F.CONV_CH_STATUS_SPARE_POS n) = old % 256 ∧
    ((stepRegs r n j old x y z).setFld (F.CONV_ROT_DUE_DEFERRED n) 0).fld (F.CONV_ROT_STEPS_COUNT n) = (r.fld (F.CONV_ROT_STEPS_COUNT n) + 1) % 2 ^ 32 ∧
    ((stepRegs r n j old x y z).setFld (F.CONV_ROT_DUE_DEFERRED n) 0).fld (F.CONV_ROT_DUE_DEFERRED n) = 0 := by
  have hnext : (F.CONV_CH_STATUS_NEXT_SLOT n).width = 8 := rfl
  have hpos : (F.CONV_CH_STATUS_SPARE_POS n).width = 8 := rfl
  have hsteps : (F.CONV_ROT_STEPS_COUNT n).width = 32 := rfl
  unfold stepRegs
  refine ⟨?_, ?_, ?_, ?_⟩
  · simp (disch := first | exact .of rfl (by omega) | omega) [hnext]
    omega
  · simp (disch := first | exact .of rfl (by omega) | omega) [hpos]
  · simp (disch := first | exact .of rfl (by omega) | omega) [hsteps]
  · simp (disch := first | exact .of rfl (by omega) | omega)

/-- The fields a step writes. -/
def stepFlds (n : Nat) : List Fld := [F.CONV_CH_STATUS_NEXT_SLOT n, F.CONV_CH_STATUS_SPARE_POS n, F.CONV_ROT_STEPS_COUNT n,
  F.CONV_ROT_DUE_DEFERRED n, F.CONV_ROT_DUE_TICKS n, F.CAL_Q_SPUR_DBC n, F.CAL_Q_SKEW_FS n, F.CAL_Q_ENOB_CBIT n]

/-- A step as the registers show it. -/
def State.stepShown (s : State) (n j old : Nat) : State :=
  (((s.put (F.CONV_CH_STATUS_NEXT_SLOT n) ((j + 1) % 64)).put (F.CONV_CH_STATUS_SPARE_POS n) old).incWrap (F.CONV_ROT_STEPS_COUNT n)).stepFigures n

theorem State.stepShown_effect (n j old : Nat) : (∃ x y z, (s.stepShown n j old).regs = stepRegs s.regs n j old x y z) ∧
    changesOnly (stepFlds n) s (s.stepShown n j old) ∧
    s.stepShown n j old = { s with free := (s.stepShown n j old).free, regs := (s.stepShown n j old).regs } := by
  have hcount : ((s.put (F.CONV_CH_STATUS_NEXT_SLOT n) ((j + 1) % 64)).put (F.CONV_CH_STATUS_SPARE_POS n) old).get (F.CONV_ROT_STEPS_COUNT n) =
      s.get (F.CONV_ROT_STEPS_COUNT n) := by
    simp (disch := first | exact .of rfl (by omega) | omega) [State.get]
  have hinc : ((s.put (F.CONV_CH_STATUS_NEXT_SLOT n) ((j + 1) % 64)).put (F.CONV_CH_STATUS_SPARE_POS n) old).incWrap (F.CONV_ROT_STEPS_COUNT n) =
      ((s.put (F.CONV_CH_STATUS_NEXT_SLOT n) ((j + 1) % 64)).put (F.CONV_CH_STATUS_SPARE_POS n) old).put (F.CONV_ROT_STEPS_COUNT n)
        (s.get (F.CONV_ROT_STEPS_COUNT n) + 1) := by rw [State.incWrap, hcount]
  have hfig : ∀ u : State, (∃ x y z, (u.stepFigures n).regs =
      ((u.regs.setFld (F.CAL_Q_SPUR_DBC n) x).setFld (F.CAL_Q_SKEW_FS n) y).setFld (F.CAL_Q_ENOB_CBIT n) z) ∧
      changesOnly (stepFlds n) u (u.stepFigures n) ∧ u.stepFigures n = { u with free := (u.stepFigures n).free, regs := (u.stepFigures n).regs } := by
    intro u
    refine ⟨⟨_, _, _, rfl⟩, ?_, rfl⟩
    have h0 : changesOnly (stepFlds n) u (((u.draw 16).2.draw 16).2.draw 16).2 := (changesOnly.refl _ u).parts rfl rfl rfl rfl
    have h1 := h0.put (f := F.CAL_Q_SPUR_DBC n) (v := (u.draw 16).1) (by simp [stepFlds])
    have h2 := h1.put (f := F.CAL_Q_SKEW_FS n) (v := ((u.draw 16).2.draw 16).1) (by simp [stepFlds])
    exact h2.put (f := F.CAL_Q_ENOB_CBIT n) (by simp [stepFlds])
  have h1 := (changesOnly.refl (stepFlds n) s).put (f := F.CONV_CH_STATUS_NEXT_SLOT n) (v := (j + 1) % 64) (by simp [stepFlds])
  have h2 := h1.put (f := F.CONV_CH_STATUS_SPARE_POS n) (v := old) (by simp [stepFlds])
  have h3 := h2.put (f := F.CONV_ROT_STEPS_COUNT n) (v := s.get (F.CONV_ROT_STEPS_COUNT n) + 1) (by simp [stepFlds])
  unfold State.stepShown
  rw [hinc]
  obtain ⟨hregs, honly, hframe⟩ := hfig (((s.put (F.CONV_CH_STATUS_NEXT_SLOT n) ((j + 1) % 64)).put (F.CONV_CH_STATUS_SPARE_POS n) old).put
    (F.CONV_ROT_STEPS_COUNT n) (s.get (F.CONV_ROT_STEPS_COUNT n) + 1))
  exact ⟨hregs, h3.trans honly, hframe⟩

/-- The position that served the slot, and the array after the step. -/
theorem State.stepArray_eq {b n p : Nat} (h : (s.chan n).spare = some p) : s.stepArray b n =
    (s.setChan n { ((s.chan n).swap (s.get (F.CONV_CH_STATUS_NEXT_SLOT n)) p b).2 with
      spare := some (Tab.get (s.get (F.CONV_CH_STATUS_NEXT_SLOT n)) (s.chan n).slots (s.get (F.CONV_CH_STATUS_NEXT_SLOT n))) }).stepShown n
    (s.get (F.CONV_CH_STATUS_NEXT_SLOT n)) (Tab.get (s.get (F.CONV_CH_STATUS_NEXT_SLOT n)) (s.chan n).slots (s.get (F.CONV_CH_STATUS_NEXT_SLOT n))) := by
  unfold State.stepArray
  dsimp only
  rw [h]
  rfl

/-- What a step of one array leaves. -/
structure SteppedArray (n b p j : Nat) (s t : State) : Prop where
  chan : t.chan n = { ((s.chan n).swap j p b).2 with spare := some (Tab.get j (s.chan n).slots j), stepPending := false }
  other : ∀ k : Nat, k ≠ n → t.chan k = s.chan k
  next : t.get (F.CONV_CH_STATUS_NEXT_SLOT n) = (j + 1) % 64
  pos : t.get (F.CONV_CH_STATUS_SPARE_POS n) = Tab.get j (s.chan n).slots j % 256
  steps : t.get (F.CONV_ROT_STEPS_COUNT n) = (s.get (F.CONV_ROT_STEPS_COUNT n) + 1) % 2 ^ 32
  deferred : t.get (F.CONV_ROT_DUE_DEFERRED n) = 0
  only : changesOnly (stepFlds n) s t
  frame : t = { s with free := t.free, regs := t.regs, chans := t.chans }

theorem State.rotTake_stepped {b n p j : Nat} (hn : n < 48) (h : (s.chan n).spare = some p) (hj : j = s.get (F.CONV_CH_STATUS_NEXT_SLOT n))
    (hpair : paired s.regs n = false) : SteppedArray n b p j s (s.rotTake n b) := by
  have htake : s.rotTake n b = ((s.stepArray b n).setChan n { (s.stepArray b n).chan n with stepPending := false }).put (F.CONV_ROT_DUE_DEFERRED n) 0 := by
    unfold State.rotTake
    rw [s.arrays_of_unpaired hpair]
    rfl
  rw [htake, s.stepArray_eq h, ← hj]
  have hset := s.chan_setChan_same n { ((s.chan n).swap j p b).2 with spare := some (Tab.get j (s.chan n).slots j) }
  have hother : ∀ k : Nat, k ≠ n → (s.setChan n { ((s.chan n).swap j p b).2 with spare := some (Tab.get j (s.chan n).slots j) }).chan k = s.chan k :=
    fun k hk => s.chan_setChan_other hk _
  have hframe : s.setChan n { ((s.chan n).swap j p b).2 with spare := some (Tab.get j (s.chan n).slots j) } =
      { s with chans := (s.setChan n { ((s.chan n).swap j p b).2 with spare := some (Tab.get j (s.chan n).slots j) }).chans } := rfl
  have hu : changesOnly (stepFlds n) s (s.setChan n { ((s.chan n).swap j p b).2 with spare := some (Tab.get j (s.chan n).slots j) }) :=
    (changesOnly.refl _ s).parts rfl rfl rfl rfl
  generalize s.setChan n { ((s.chan n).swap j p b).2 with spare := some (Tab.get j (s.chan n).slots j) } = u at *
  obtain ⟨⟨x, y, z, hregs⟩, honly, hshown⟩ := u.stepShown_effect n j (Tab.get j (s.chan n).slots j)
  have huregs : u.regs = s.regs := (congrArg State.regs hframe).trans rfl
  rw [huregs] at hregs
  generalize u.stepShown n j (Tab.get j (s.chan n).slots j) = v at *
  have hchans : ∀ k, v.chan k = u.chan k := chan_of_chans ((congrArg State.chans hshown).trans rfl)
  have hvset : changesOnly (stepFlds n) v (v.setChan n { v.chan n with stepPending := false }) := (changesOnly.refl _ v).parts rfl rfl rfl rfl
  obtain ⟨hnext, hpos, hsteps, hdef⟩ := stepRegs_effect s.regs hn j (Tab.get j (s.chan n).slots j) x y z
  rw [← hregs] at hnext hpos hsteps hdef
  have hchan : v.chan n = { ((s.chan n).swap j p b).2 with spare := some (Tab.get j (s.chan n).slots j) } := (hchans n).trans hset
  have hsame : (v.setChan n { v.chan n with stepPending := false }).chan n =
      { ((s.chan n).swap j p b).2 with spare := some (Tab.get j (s.chan n).slots j), stepPending := false } := by
    rw [v.chan_setChan_same, hchan]
  have hfinal : (v.setChan n { v.chan n with stepPending := false }).put (F.CONV_ROT_DUE_DEFERRED n) 0 =
      { v with regs := v.regs.setFld (F.CONV_ROT_DUE_DEFERRED n) 0, chans := (v.setChan n { v.chan n with stepPending := false }).chans } := rfl
  have hsetOther : ∀ k : Nat, k ≠ n → (v.setChan n { v.chan n with stepPending := false }).chan k = s.chan k :=
    fun k hk => (v.chan_setChan_other hk { v.chan n with stepPending := false }).trans ((hchans k).trans (hother k hk))
  have hlast := ((hu.trans honly).trans hvset).put (f := F.CONV_ROT_DUE_DEFERRED n) (v := 0) (by simp [stepFlds])
  generalize v.setChan n { v.chan n with stepPending := false } = w at *
  have hregs' : (w.put (F.CONV_ROT_DUE_DEFERRED n) 0).regs = v.regs.setFld (F.CONV_ROT_DUE_DEFERRED n) 0 := by rw [hfinal]
  have hchans' : (w.put (F.CONV_ROT_DUE_DEFERRED n) 0).chans = w.chans := rfl
  generalize w.put (F.CONV_ROT_DUE_DEFERRED n) 0 = t at *
  rw [← hregs'] at hnext hpos hsteps hdef
  exact ⟨(chan_of_chans hchans' n).trans hsame, fun k hk => (chan_of_chans hchans' k).trans (hsetOther k hk),
    hnext, hpos, hsteps, hdef, hlast, by rw [hfinal, hshown, hframe]⟩

/-- The fields beside the due ticks. -/
theorem State.showDue_stepFld (n b : Nat) {f : Fld} (hf : (F.CONV_ROT_DUE_TICKS n).Sep f) : (s.showDue n b).get f = s.get f :=
  (s.showDue_effect n b).1 f hf

/-- A pending step that may be taken is decided by the windows alone (R46). -/
theorem State.rotDecide_eq {n b : Nat} (hen : s.flag F.CONV_ROT_CTRL_EN = true) (hhold : s.flag (F.CONV_CH_CTRL_ROT_HOLD n) = false)
    (hcal : bitOf s.calMask n = false) : (s.windowMeets n b = false → s.rotDecide n b = s.rotTake n b) ∧
    (s.windowMeets n b = true → s.get (F.CONV_ROT_DUE_DEFERRED n) < s.get F.CONV_ROT_CTRL_MAX_DEFER →
      s.rotDecide n b = s.put (F.CONV_ROT_DUE_DEFERRED n) (s.get (F.CONV_ROT_DUE_DEFERRED n) + 1)) := by
  have hgo : ¬(s.flag F.CONV_ROT_CTRL_EN = false ∨ s.flag (F.CONV_CH_CTRL_ROT_HOLD n) = true ∨ bitOf s.calMask n = true) := by
    simp [hen, hhold, hcal]
  unfold State.rotDecide
  dsimp only
  rw [if_neg hgo]
  exact ⟨fun h => if_pos h, fun h hlt => (if_neg (by simp [h])).trans (if_pos hlt)⟩

end

section
variable {s : State} {n : Fin 48} {b j p d : Nat}

/-- A step that falls due: what stands as it is decided. -/
theorem exec_rotationStepDue (hb : b = s.nextTick) (hp : (s.chan n).spare = some p) (hd : (s.chan n).due = some d) (hle : d ≤ b)
    (hrot : (s.chan n).rotAt ≠ some b) (hfence : bitOf s.fenceMask n = false) (hpair : paired s.regs n = false)
    (htake : (s.chan n).takeover = none) : ∃ u : State, exec (.rotationStepDue n) s = .next ((u.rotDecide n b).showDue n b) ∧
      u.chan n = { s.chan n with rotAt := some b, due := some (d + s.rotPeriod), stepPending := true } ∧
      (∀ k : Nat, k ≠ n → u.chan k = s.chan k) ∧ u = { s with lcnt := max s.lcnt b, chans := u.chans } := by
  have hexec : exec (.rotationStepDue n) s = .next ((s.at_ b).rotate n b) := by rw [hb]; rfl
  obtain ⟨u, hu, hchan, hother, hframe⟩ := (s.at_ b).rotate_decides (n := n) hp hd hle hrot hfence hpair htake
  rw [hu] at hexec
  exact ⟨u, hexec, hchan, hother, hframe⟩

theorem rotationStepDue_taken (hb : b = s.nextTick) (hj : j = s.get (F.CONV_CH_STATUS_NEXT_SLOT n)) (hp : (s.chan n).spare = some p)
    (hd : (s.chan n).due = some d) (hle : d ≤ b) (hrot : (s.chan n).rotAt ≠ some b) (hfence : bitOf s.fenceMask n = false)
    (hpair : paired s.regs n = false) (hen : s.flag F.CONV_ROT_CTRL_EN = true) (hhold : s.flag (F.CONV_CH_CTRL_ROT_HOLD n) = false)
    (hcal : bitOf s.calMask n = false) (htake : (s.chan n).takeover = none) (hmeets : s.windowMeets n b = false) :
    ∃ t, exec (.rotationStepDue n) s = .next t ∧ t.lcnt = max s.lcnt b ∧
      (t.chan n).slots = Tab.set (s.chan n).slots j p ∧ (t.chan n).spare = some (Tab.get j (s.chan n).slots j) ∧
      (t.chan n).stepAt = some b ∧ (t.chan n).due = some (d + s.rotPeriod) ∧ (t.chan n).stepPending = false ∧
      t.get (F.CONV_CH_STATUS_NEXT_SLOT n) = (j + 1) % 64 ∧
      t.get (F.CONV_CH_STATUS_SPARE_POS n) = Tab.get j (s.chan n).slots j % 256 ∧
      t.get (F.CONV_ROT_STEPS_COUNT n) = (s.get (F.CONV_ROT_STEPS_COUNT n) + 1) % 2 ^ 32 ∧
      t.get (F.CONV_ROT_DUE_DEFERRED n) = 0 ∧ (∀ k : Nat, k ≠ n → t.chan k = s.chan k) ∧
      changesOnly (stepFlds n) s t ∧ t = { s with free := t.free, lcnt := t.lcnt, regs := t.regs, chans := t.chans } := by
  obtain ⟨u, hexec, hchan, hother, hframe⟩ := exec_rotationStepDue hb hp hd hle hrot hfence hpair htake
  have huregs : u.regs = s.regs := (congrArg State.regs hframe).trans rfl
  have hcalu : u.calMask = s.calMask := (congrArg State.calMask hframe).trans rfl
  have hget : ∀ f, u.get f = s.get f := fun f => by rw [State.get, huregs, State.get]
  have hflag : ∀ f, u.flag f = s.flag f := fun f => by rw [State.flag, huregs, State.flag]
  have hmeets' := (State.windowMeets_congr huregs ((congrArg State.grps hframe).trans rfl) n b).trans hmeets
  rw [(u.rotDecide_eq ((hflag _).trans hen) ((hflag _).trans hhold) (hcalu ▸ hcal)).1 hmeets'] at hexec
  have hstep := u.rotTake_stepped (b := b) (p := p) n.isLt ((congrArg Chan.spare hchan).trans hp) (hj.trans (hget _).symm) (huregs ▸ hpair)
  have hu : changesOnly (stepFlds n) s u := (changesOnly.refl _ s).parts huregs ((congrArg State.store hframe).trans rfl)
    ((congrArg State.flash hframe).trans rfl) ((congrArg State.pending hframe).trans rfl)
  generalize u.rotTake n b = w at *
  obtain ⟨-, honly, hdue⟩ := w.showDue_effect n b
  have hshow : ∀ {f : Fld}, (F.CONV_ROT_DUE_TICKS n).Sep f → (w.showDue n b).get f = w.get f := fun hf => w.showDue_stepFld n b hf
  generalize w.showDue n b = t at *
  have hchans : ∀ k, t.chan k = w.chan k := chan_of_chans ((congrArg State.chans hdue).trans rfl)
  have hslots : (u.chan n).slots = (s.chan n).slots := (congrArg Chan.slots hchan).trans rfl
  have hn : t.chan n = { ((u.chan n).swap j p b).2 with spare := some (Tab.get j (u.chan n).slots j), stepPending := false } :=
    (hchans n).trans hstep.chan
  refine ⟨t, hexec, ?_, (congrArg Chan.slots hn).trans (congrArg (fun x => Tab.set x j p) hslots), (congrArg Chan.spare hn).trans (by rw [hslots]),
    congrArg Chan.stepAt hn, (congrArg Chan.due hn).trans ((congrArg Chan.due hchan).trans rfl), congrArg Chan.stepPending hn,
    (hshow (.of rfl (by omega))).trans hstep.next, (hshow (.of rfl (by omega))).trans (hstep.pos.trans (by rw [hslots])),
    (hshow (.of rfl (by omega))).trans (hstep.steps.trans (by rw [hget])), (hshow (.of rfl (by omega))).trans hstep.deferred,
    fun k hk => (hchans k).trans ((hstep.other k hk).trans (hother k hk)), (hu.trans hstep.only).trans (honly.mono (by simp [stepFlds])), ?_⟩
  · exact ((congrArg State.lcnt hdue).trans rfl).trans (((congrArg State.lcnt hstep.frame).trans rfl).trans ((congrArg State.lcnt hframe).trans rfl))
  · rw [hdue, hstep.frame, hframe]

theorem rotationStepDue_deferred (hb : b = s.nextTick) (hp : (s.chan n).spare = some p)
    (hd : (s.chan n).due = some d) (hle : d ≤ b) (hrot : (s.chan n).rotAt ≠ some b) (hfence : bitOf s.fenceMask n = false)
    (hpair : paired s.regs n = false) (hen : s.flag F.CONV_ROT_CTRL_EN = true) (hhold : s.flag (F.CONV_CH_CTRL_ROT_HOLD n) = false)
    (hcal : bitOf s.calMask n = false) (htake : (s.chan n).takeover = none) (hmeets : s.windowMeets n b = true)
    (hless : s.get (F.CONV_ROT_DUE_DEFERRED n) < s.get F.CONV_ROT_CTRL_MAX_DEFER) :
    ∃ t, exec (.rotationStepDue n) s = .next t ∧ (t.chan n).slots = (s.chan n).slots ∧ (t.chan n).stepPending = true ∧
      t.get (F.CONV_ROT_DUE_DEFERRED n) = s.get (F.CONV_ROT_DUE_DEFERRED n) + 1 ∧
      (∀ k : Nat, k ≠ n → t.chan k = s.chan k) ∧
      changesOnly [F.CONV_ROT_DUE_DEFERRED n, F.CONV_ROT_DUE_TICKS n] s t ∧
      t = { s with lcnt := t.lcnt, regs := t.regs, chans := t.chans } := by
  obtain ⟨u, hexec, hchan, hother, hframe⟩ := exec_rotationStepDue hb hp hd hle hrot hfence hpair htake
  have huregs : u.regs = s.regs := (congrArg State.regs hframe).trans rfl
  have hcalu : u.calMask = s.calMask := (congrArg State.calMask hframe).trans rfl
  have hget : ∀ f, u.get f = s.get f := fun f => by rw [State.get, huregs, State.get]
  have hflag : ∀ f, u.flag f = s.flag f := fun f => by rw [State.flag, huregs, State.flag]
  have hmeets' := (State.windowMeets_congr huregs ((congrArg State.grps hframe).trans rfl) n b).trans hmeets
  rw [(u.rotDecide_eq ((hflag _).trans hen) ((hflag _).trans hhold) (hcalu ▸ hcal)).2 hmeets' (by rw [hget, hget]; exact hless), hget] at hexec
  have hmax : s.get F.CONV_ROT_CTRL_MAX_DEFER < 256 := RegTab.fld_lt _ F.CONV_ROT_CTRL_MAX_DEFER
  have hput : (u.put (F.CONV_ROT_DUE_DEFERRED n) (s.get (F.CONV_ROT_DUE_DEFERRED n) + 1)).get (F.CONV_ROT_DUE_DEFERRED n) =
      s.get (F.CONV_ROT_DUE_DEFERRED n) + 1 :=
    (RegTab.fld_setFld_self (f := F.CONV_ROT_DUE_DEFERRED n) _ _ (.of rfl (by omega))).trans (Nat.mod_eq_of_lt (by
      have hwidth : (F.CONV_ROT_DUE_DEFERRED n).width = 8 := rfl
      rw [hwidth]
      omega))
  have hu : changesOnly [F.CONV_ROT_DUE_DEFERRED n, F.CONV_ROT_DUE_TICKS n] s u := (changesOnly.refl _ s).parts huregs
    ((congrArg State.store hframe).trans rfl) ((congrArg State.flash hframe).trans rfl) ((congrArg State.pending hframe).trans rfl)
  have hw := hu.put (f := F.CONV_ROT_DUE_DEFERRED n) (v := s.get (F.CONV_ROT_DUE_DEFERRED n) + 1) (by simp)
  have hwframe : u.put (F.CONV_ROT_DUE_DEFERRED n) (s.get (F.CONV_ROT_DUE_DEFERRED n) + 1) =
      { u with regs := (u.put (F.CONV_ROT_DUE_DEFERRED n) (s.get (F.CONV_ROT_DUE_DEFERRED n) + 1)).regs } := rfl
  generalize u.put (F.CONV_ROT_DUE_DEFERRED n) (s.get (F.CONV_ROT_DUE_DEFERRED n) + 1) = w at *
  obtain ⟨-, honly, hdue⟩ := w.showDue_effect n b
  have hshow : (w.showDue n b).get (F.CONV_ROT_DUE_DEFERRED n) = w.get (F.CONV_ROT_DUE_DEFERRED n) := w.showDue_stepFld n b (.of rfl (by omega))
  generalize w.showDue n b = t at *
  have hchans : ∀ k, t.chan k = u.chan k := chan_of_chans (((congrArg State.chans hdue).trans rfl).trans ((congrArg State.chans hwframe).trans rfl))
  have hn := (hchans n).trans hchan
  exact ⟨t, hexec, (congrArg Chan.slots hn).trans rfl, (congrArg Chan.stepPending hn).trans rfl, hshow.trans hput, fun k hk => (hchans k).trans (hother k hk),
    hw.trans (honly.mono (by simp)), by rw [hdue, hwframe, hframe]⟩

end

/-- Settles O18: a takeover leaves the array without a spare; a due step is taken or deferred, and counts the next one. -/
theorem clampsAndTheRotatingSpare : Obligations.ClampsAndTheRotatingSpare := by
  unfold Obligations.ClampsAndTheRotatingSpare
  refine ⟨fun n c s => ⟨fun h hpair => ?_, fun h => ?_, fun a h => ?_, fun h => ?_⟩, fun n j p s hj hp => spareTakeover_effect s hj hp,
    fun n s h hp => ?_, fun n s h => ?_, fun n b j p d s hb hj hp hd hle hrot hfence hpair hen hhold hcal htake =>
    ⟨fun hmeets => rotationStepDue_taken hb hj hp hd hle hrot hfence hpair hen hhold hcal htake hmeets,
      fun hmeets hless => rotationStepDue_deferred hb hp hd hle hrot hfence hpair hen hhold hcal htake hmeets hless⟩⟩
  · exact congrArg Host.Outcome.next (if_pos ⟨h, by simp [hpair]⟩)
  · exact congrArg Host.Outcome.next (if_neg (fun hc => h hc.1))
  · simp only [exec, execClampRelease, h]
  · simp only [exec, execClampRelease, h]
  · have htake : (s.at_ s.nextTick).takeSlot n s.nextTick = s.at_ s.nextTick := by
      have hp' : ((s.at_ s.nextTick).chan n).spare = none := hp
      unfold State.takeSlot
      dsimp only
      rw [hp']
      split
      next heq => cases heq
      next => rfl
    exact congrArg Host.Outcome.next ((if_pos (Option.isSome_iff_ne_none.mpr h)).trans htake)
  · exact congrArg Host.Outcome.next (if_neg (by simp [h]))

end Sys2Proof.Machine
end

section
/-! SUPPORT. What is found of positions (R47, R324): estimates of the spare, and the slot monitor. -/

namespace Sys2Proof.Machine

open Sys2Proof.Safety

section
variable (s : State)

/-! ### Coefficients (R38, R324) -/

/-- The coefficient words of a position. -/
def coefFlds (n p : Nat) : List Fld := (List.range 11).map (F.CONV_COEF_VALUE n p)

theorem State.loadCoef_only (n p : Nat) (l : List Nat) (i : Nat) (h : i + l.length ≤ 11) :
    changesOnly (coefFlds n p) s (s.loadCoef n p i l) ∧ s.loadCoef n p i l = { s with regs := (s.loadCoef n p i l).regs } := by
  induction l generalizing s i with
  | nil => exact ⟨.refl _ _, rfl⟩
  | cons v vs ih =>
    rw [List.length_cons] at h
    obtain ⟨honly, hframe⟩ := ih (s.put (F.CONV_COEF_VALUE n p i) v) (i + 1) (by omega)
    have hput : changesOnly (coefFlds n p) s (s.put (F.CONV_COEF_VALUE n p i) v) :=
      (changesOnly.refl _ s).put (List.mem_map.mpr ⟨i, List.mem_range.mpr (by omega), rfl⟩) (.of rfl (by omega))
    exact ⟨hput.trans honly, hframe⟩

theorem State.loadCoef_before (n p : Nat) (l : List Nat) (i j : Nat) (h : j < i) :
    (s.loadCoef n p i l).get (F.CONV_COEF_VALUE n p j) = s.get (F.CONV_COEF_VALUE n p j) := by
  induction l generalizing s i with
  | nil => rfl
  | cons v vs ih => exact (ih _ (i + 1) (by omega)).trans (RegTab.fld_setFld_sep _ _ (.of rfl (by omega)))

/-- Each word loaded holds its coefficient's 18 bits. -/
theorem State.loadCoef_get (n p : Nat) (l : List Nat) (i j v : Nat) (h : l[j]? = some v) :
    (s.loadCoef n p i l).get (F.CONV_COEF_VALUE n p (i + j)) = v % 2 ^ 18 := by
  induction l generalizing s i j with
  | nil => simp at h
  | cons x xs ih =>
    cases j with
    | zero =>
      cases h
      exact (State.loadCoef_before _ n p xs (i + 1) i (by omega)).trans
        (RegTab.fld_setFld_self (f := F.CONV_COEF_VALUE n p i) _ _ (.of rfl (by omega)))
    | succ k =>
      have hk := ih (s.put (F.CONV_COEF_VALUE n p i) x) (i + 1) k h
      rw [show i + 1 + k = i + (k + 1) by omega] at hk
      exact hk

/-! ### Estimates of the spare (R47, R324) -/

theorem trimEstimate_disturbed {n : Fin 48} {p : Nat} {e : TrimEst} (hp : (s.chan n).spare = some p) (hen : s.flag F.CONV_ROT_CTRL_EN = true)
    (hdis : e.disturbed = true) : ∃ t, exec (.trimEstimate n e) s = .next t ∧ p ∈ (t.chan n).stale ∧
      t.flag (F.CAL_CH_STATUS_TRIM_STALE n) = true ∧ (∀ k : Nat, k ≠ n → t.chan k = s.chan k) ∧
      changesOnly [F.CAL_CH_STATUS_TRIM_STALE n] s t ∧ t = { s with regs := t.regs, chans := t.chans } := by
  have hexec : exec (.trimEstimate n e) s = .next ((s.setChan n { s.chan n with
      stale := p :: (s.chan n).stale.filter (fun x => x != p) }).setF (F.CAL_CH_STATUS_TRIM_STALE n)) := by
    simp only [exec, execTrimEstimate, hp, hen, hdis, if_true, Bool.true_eq_false, if_false]
  have hset := s.chan_setChan_same n { s.chan n with stale := p :: (s.chan n).stale.filter (fun x => x != p) }
  have hother : ∀ k : Nat, k ≠ n → (s.setChan n { s.chan n with stale := p :: (s.chan n).stale.filter (fun x => x != p) }).chan k = s.chan k :=
    fun k hk => s.chan_setChan_other hk _
  have hmem : p ∈ ((s.setChan n { s.chan n with stale := p :: (s.chan n).stale.filter (fun x => x != p) }).chan n).stale := by
    rw [hset]
    exact List.mem_cons_self
  have hu : changesOnly [F.CAL_CH_STATUS_TRIM_STALE n] s (s.setChan n { s.chan n with stale := p :: (s.chan n).stale.filter (fun x => x != p) }) :=
    (changesOnly.refl _ s).parts rfl rfl rfl rfl
  refine ⟨_, hexec, hmem, ?_, hother, ?_, rfl⟩
  · simp (disch := first | exact .of rfl (by omega) | omega) [State.flag, State.setF]
  · exact hu.put (f := F.CAL_CH_STATUS_TRIM_STALE n) (v := 1) (by simp)

theorem trimEstimate_bad {n : Fin 48} {p : Nat} {e : TrimEst} (hp : (s.chan n).spare = some p) (hen : s.flag F.CONV_ROT_CTRL_EN = true)
    (htake : (s.chan n).takeover = none) (hdis : e.disturbed = false) (hbad : estBad e = true) :
    ∃ t, exec (.trimEstimate n e) s = .next t ∧ (t.chan n).spare = none ∧
      (t.chan n).parked = p :: (s.chan n).parked ∧ t.flag (F.CONV_CH_STATUS_NO_SPARE n) = true ∧
      t.get (F.CONV_CH_STATUS_SPARE_POS n) = 0xFF ∧ (0x0203, s.locusCh n p) ∈ t.log.seen ∧
      (∀ k ∉ s.arrays n, t.chan k = s.chan k) ∧
      changesOnly ([F.CONV_CH_STATUS_NO_SPARE n, F.CONV_CH_STATUS_SPARE_POS n] ++ logFlds) s t := by
  have hfail : s.spareFail n = ((s.setChan n { s.chan n with parked := p :: (s.chan n).parked, takeover := none }).noSpare n).post s.lcnt 0x0203
      (s.locusCh n p) 0 := by
    unfold State.spareFail
    dsimp only
    rw [hp]
    exact if_neg (by simp [htake])
  have hexec : exec (.trimEstimate n e) s = .next (s.spareFail n) := by
    simp only [exec, execTrimEstimate, hp, hen, hdis, hbad, if_true, Bool.true_eq_false, Bool.false_eq_true, if_false]
  rw [hfail] at hexec
  have hset := s.chan_setChan_same n { s.chan n with parked := p :: (s.chan n).parked, takeover := none }
  have hother : ∀ k : Nat, k ≠ n → (s.setChan n { s.chan n with parked := p :: (s.chan n).parked, takeover := none }).chan k = s.chan k :=
    fun k hk => s.chan_setChan_other hk _
  have hu : changesOnly [F.CONV_CH_STATUS_NO_SPARE n, F.CONV_CH_STATUS_SPARE_POS n] s
      (s.setChan n { s.chan n with parked := p :: (s.chan n).parked, takeover := none }) := (changesOnly.refl _ s).parts rfl rfl rfl rfl
  have harr : (s.setChan n { s.chan n with parked := p :: (s.chan n).parked, takeover := none }).arrays n = s.arrays n := State.arrays_congr rfl n
  generalize s.setChan n { s.chan n with parked := p :: (s.chan n).parked, takeover := none } = u at *
  obtain ⟨⟨b, hb⟩, hrest, hflag, hpos, honly, -⟩ := u.noSpare_spareless n
  rw [harr] at hrest
  have hv := hu.trans honly
  generalize u.noSpare n = v at *
  have hchans : ∀ k, (v.post s.lcnt 0x0203 (s.locusCh n p) 0).chan k = v.chan k := chan_of_chans (by simp)
  have hn := (hchans n).trans hb
  rw [hset] at hn
  refine ⟨_, hexec, congrArg Chan.spare hn, congrArg Chan.parked hn, (State.bit_post _ _ _ _ _ (.of rfl (by omega))).trans hflag,
    (State.fld_post _ _ _ _ _ (.of rfl (by omega))).trans hpos, State.post_seen _ _ _ _ _, fun k hk => ?_, ?_⟩
  · exact (hchans k).trans ((hrest k hk).trans (hother k (fun h => hk (by rw [h]; exact s.mem_arrays n))))
  · exact (hv.mono (by simp)).post

theorem trimEstimate_loaded {n : Fin 48} {p : Nat} {e : TrimEst} (hp : (s.chan n).spare = some p) (hlt : p < 65)
    (hen : s.flag F.CONV_ROT_CTRL_EN = true) (hdis : e.disturbed = false) (hgood : estBad e = false) (hlen : e.taps.length = 9) :
    ∃ t, exec (.trimEstimate n e) s = .next t ∧
      t.get (F.CONV_COEF_VALUE n p 0) = enc 16 e.off ∧ t.get (F.CONV_COEF_VALUE n p 1) = e.gain % 2 ^ 18 ∧
      (∀ (i : Fin 9) (x : Int), e.taps[i.val]? = some x → t.get (F.CONV_COEF_VALUE n p (2 + i)) = enc 18 x) ∧
      p ∉ (t.chan n).stale ∧ (∀ k : Nat, k ≠ n → t.chan k = s.chan k) ∧
      changesOnly (F.CAL_CH_STATUS_TRIM_STALE n :: coefFlds n p) s t ∧
      t = { s with regs := t.regs, chans := t.chans } := by
  have hexec : exec (.trimEstimate n e) s = .next (if (s.chan n).stale.filter (fun x => x != p) = [] then
      ((s.setChan n { s.chan n with stale := (s.chan n).stale.filter (fun x => x != p) }).loadCoef n p 0
        (enc 16 e.off :: e.gain % 2 ^ 18 :: e.taps.map (enc 18))).clrF (F.CAL_CH_STATUS_TRIM_STALE n)
      else (s.setChan n { s.chan n with stale := (s.chan n).stale.filter (fun x => x != p) }).loadCoef n p 0
        (enc 16 e.off :: e.gain % 2 ^ 18 :: e.taps.map (enc 18))) := by
    simp only [exec, execTrimEstimate, hp, hen, hdis, hgood, Bool.true_eq_false, Bool.false_eq_true, if_false]
  have hset := s.chan_setChan_same n { s.chan n with stale := (s.chan n).stale.filter (fun x => x != p) }
  have hother : ∀ k : Nat, k ≠ n → (s.setChan n { s.chan n with stale := (s.chan n).stale.filter (fun x => x != p) }).chan k = s.chan k :=
    fun k hk => s.chan_setChan_other hk _
  have hframe : s.setChan n { s.chan n with stale := (s.chan n).stale.filter (fun x => x != p) } =
    { s with chans := (s.setChan n { s.chan n with stale := (s.chan n).stale.filter (fun x => x != p) }).chans } := rfl
  generalize s.setChan n { s.chan n with stale := (s.chan n).stale.filter (fun x => x != p) } = u at *
  have hu : changesOnly (coefFlds n p) s u := (changesOnly.refl _ s).parts ((congrArg State.regs hframe).trans rfl)
    ((congrArg State.store hframe).trans rfl) ((congrArg State.flash hframe).trans rfl) ((congrArg State.pending hframe).trans rfl)
  have hcoef : ∀ j v, (enc 16 e.off :: e.gain % 2 ^ 18 :: e.taps.map (enc 18))[j]? = some v →
      (u.loadCoef n p 0 (enc 16 e.off :: e.gain % 2 ^ 18 :: e.taps.map (enc 18))).get (F.CONV_COEF_VALUE n p j) = v % 2 ^ 18 := fun j v h => by
    have hget := u.loadCoef_get n p _ 0 j v h
    rw [Nat.zero_add] at hget
    exact hget
  obtain ⟨honly, hload⟩ := u.loadCoef_only n p (enc 16 e.off :: e.gain % 2 ^ 18 :: e.taps.map (enc 18)) 0 (by simp [hlen])
  generalize u.loadCoef n p 0 (enc 16 e.off :: e.gain % 2 ^ 18 :: e.taps.map (enc 18)) = v at *
  have hlow : enc 16 e.off < 2 ^ 16 := by
    rw [← enc_mod]
    exact Nat.mod_lt _ (by omega)
  obtain ⟨t, ht, hfld, hlast, htframe⟩ : ∃ t, (if (s.chan n).stale.filter (fun x => x != p) = [] then
      v.clrF (F.CAL_CH_STATUS_TRIM_STALE n) else v) = t ∧ (∀ j, j < 11 → t.get (F.CONV_COEF_VALUE n p j) = v.get (F.CONV_COEF_VALUE n p j)) ∧
      changesOnly [F.CAL_CH_STATUS_TRIM_STALE n] v t ∧ t = { v with regs := t.regs } := by
    split
    · exact ⟨_, rfl, fun j hj => RegTab.fld_setFld_sep (f := F.CAL_CH_STATUS_TRIM_STALE n) _ _ (.of rfl (by omega)),
        (changesOnly.refl _ v).put (f := F.CAL_CH_STATUS_TRIM_STALE n) (v := 0) (by simp), rfl⟩
    · exact ⟨_, rfl, fun _ _ => rfl, .refl _ _, rfl⟩
  rw [ht] at hexec
  have hchans : ∀ k, t.chan k = u.chan k := chan_of_chans (((congrArg State.chans htframe).trans rfl).trans ((congrArg State.chans hload).trans rfl))
  refine ⟨t, hexec, ?_, ?_, fun i x hx => ?_, ?_, fun k hk => (hchans k).trans (hother k hk), ?_, ?_⟩
  · exact (hfld 0 (by omega)).trans ((hcoef 0 _ rfl).trans (Nat.mod_eq_of_lt (by omega)))
  · exact (hfld 1 (by omega)).trans ((hcoef 1 _ rfl).trans (Nat.mod_mod _ _))
  · have hmem : (enc 16 e.off :: e.gain % 2 ^ 18 :: e.taps.map (enc 18))[2 + i.val]? = some (enc 18 x) := by
      rw [Nat.add_comm]
      simp [hx]
    exact (hfld _ (by omega)).trans ((hcoef _ _ hmem).trans (enc_mod 18 x))
  · rw [hchans, hset]
    simp
  · exact ((hu.trans honly).mono (by simp +contextual)).trans (hlast.mono (by simp))
  · rw [htframe, hload, hframe]

/-! ### The slot monitor (R47, Table 2.5) -/

/-- The array as the check of a tick leaves it. -/
def Chan.monitored (ch : Chan) : Chan :=
  { ch with monSum := [], monSq := [], monWords := 0, monBad := ((List.range 64).map (fun j => (j, ch.missesOf j))).filter (fun p => p.2 != (0, 0)) }

/-- The slots whose positions fail the check. -/
def Chan.missed (ch : Chan) : List Nat :=
  (List.range 64).filter (fun j => ch.takeover != some j && (2 ≤ (ch.missesOf j).1 || 2 ≤ (ch.missesOf j).2))

theorem State.monitorCheck_eq {n : Nat} (h : (s.chan n).monWords ≠ 0) :
    s.monitorCheck n = (s.chan n).missed.foldl (fun t j => t.serveFail n j) (s.setChan n (s.chan n).monitored) := by
  unfold State.monitorCheck
  dsimp only
  rw [if_neg h]
  show (((List.range 64).map (fun j => (j, (s.chan n).missesOf j))).filter _).foldl (fun t p => t.serveFail n p.1)
    (s.setChan n (s.chan n).monitored) = _
  rw [List.filter_map, List.foldl_map]
  rfl

theorem Chan.missed_of_none {ch : Chan} (h : ∀ j : Fin 64, (ch.missesOf j).1 < 2 ∧ (ch.missesOf j).2 < 2) : ch.missed = [] := by
  refine List.filter_eq_nil_iff.mpr fun j hj => ?_
  obtain ⟨h1, h2⟩ := h ⟨j, List.mem_range.mp hj⟩
  simp only [Bool.and_eq_true, Bool.or_eq_true, decide_eq_true_eq]
  dsimp only at h1 h2
  omega

theorem Chan.missed_of_one {ch : Chan} {j : Fin 64} (h : ∀ i : Fin 64, (2 ≤ (ch.missesOf i).1 ∨ 2 ≤ (ch.missesOf i).2) ↔ i = j)
    (htake : ch.takeover = none) : ch.missed = [j.val] := by
  have hone : ch.missed = (List.range 64).filter (fun i => i == j.val) := by
    refine List.filter_congr fun i hi => ?_
    have hi' := h ⟨i, List.mem_range.mp hi⟩
    rw [htake]
    simp only [Fin.ext_iff] at hi'
    by_cases hij : i = j.val
    · have hmiss := hi'.mpr hij
      subst hij
      simpa using hmiss
    · have hnot := mt hi'.mp hij
      have hfalse : (i == j.val) = false := by simpa using hij
      rw [hfalse]
      simpa using hnot
  have hsingle : ∀ k : Fin 64, (List.range 64).filter (fun i => i == k.val) = [k.val] := by decide
  rw [hone, hsingle]

theorem slotMonitorCheck_clean {n : Fin 48} (hw : (s.chan n).monWords ≠ 0)
    (h : ∀ j : Fin 64, ((s.chan n).missesOf j).1 < 2 ∧ ((s.chan n).missesOf j).2 < 2) : ∃ t, exec (.slotMonitorCheck n) s = .next t ∧
      (t.chan n).monSum = [] ∧ (t.chan n).monSq = [] ∧ (t.chan n).monWords = 0 ∧ (t.chan n).slots = (s.chan n).slots ∧
      (∀ k : Nat, k ≠ n → t.chan k = s.chan k) ∧ t = { s with chans := t.chans } := by
  have hexec : exec (.slotMonitorCheck n) s = .next (s.setChan n (s.chan n).monitored) := by
    have heq := s.monitorCheck_eq hw
    rw [Chan.missed_of_none h] at heq
    exact congrArg Host.Outcome.next heq
  have hset := s.chan_setChan_same n (s.chan n).monitored
  exact ⟨_, hexec, congrArg Chan.monSum hset, congrArg Chan.monSq hset, congrArg Chan.monWords hset, (congrArg Chan.slots hset).trans rfl,
    fun k hk => s.chan_setChan_other hk _, rfl⟩

theorem slotMonitorCheck_missed {n : Fin 48} {j : Fin 64} (hw : (s.chan n).monWords ≠ 0)
    (h : ∀ i : Fin 64, (2 ≤ ((s.chan n).missesOf i).1 ∨ 2 ≤ ((s.chan n).missesOf i).2) ↔ i = j)
    (hspare : (s.chan n).spare ≠ none) (htake : (s.chan n).takeover = none) : ∃ t, exec (.slotMonitorCheck n) s = .next t ∧
      (t.chan n).takeover = some j.val ∧ (t.chan n).monWords = 0 ∧
      (0x0203, s.locusCh n (Tab.get j.val (s.chan n).slots j)) ∈ t.log.seen ∧ changesOnly logFlds s t := by
  have heq := s.monitorCheck_eq hw
  rw [Chan.missed_of_one h htake] at heq
  have hset := s.chan_setChan_same n (s.chan n).monitored
  have hlocus := State.locusCh_congr (s := s) (t := s.setChan n (s.chan n).monitored) rfl n (Tab.get j.val (s.chan n).slots j)
  have hu : changesOnly logFlds s (s.setChan n (s.chan n).monitored) := (changesOnly.refl _ s).parts rfl rfl rfl rfl
  have hfold : [j.val].foldl (fun t j => t.serveFail n j) (s.setChan n (s.chan n).monitored) =
    (s.setChan n (s.chan n).monitored).serveFail n j := rfl
  rw [hfold] at heq
  generalize s.setChan n (s.chan n).monitored = u at *
  have hfail : u.serveFail n j = (u.post u.lcnt 0x0203 (s.locusCh n (Tab.get j.val (s.chan n).slots j)) 0).setChan n
      { u.chan n with takeover := some j.val } := by
    have hslots : (u.chan n).slots = (s.chan n).slots := (congrArg Chan.slots hset).trans rfl
    unfold State.serveFail
    dsimp only
    rw [hslots, hlocus]
    refine if_pos ⟨?_, ?_⟩
    · rw [hset]
      exact Option.isSome_iff_ne_none.mpr hspare
    · rw [hset]
      exact htake
  rw [hfail] at heq
  have hexec : exec (.slotMonitorCheck n) s = .next ((u.post u.lcnt 0x0203 (s.locusCh n (Tab.get j.val (s.chan n).slots j)) 0).setChan n
      { u.chan n with takeover := some j.val }) := congrArg Host.Outcome.next heq
  have hpost := hu.post (lc := u.lcnt) (code := 0x0203) (locus := s.locusCh n (Tab.get j.val (s.chan n).slots j)) (data := 0)
  have hseen := u.post_seen u.lcnt 0x0203 (s.locusCh n (Tab.get j.val (s.chan n).slots j)) 0
  generalize u.post u.lcnt 0x0203 (s.locusCh n (Tab.get j.val (s.chan n).slots j)) 0 = v at *
  have hlast := v.chan_setChan_same n { u.chan n with takeover := some j.val }
  exact ⟨_, hexec, congrArg Chan.takeover hlast, (congrArg Chan.monWords hlast).trans (congrArg Chan.monWords hset), hseen,
    hpost.parts rfl rfl rfl rfl⟩

end

/-- Settles O19: an estimate acts on the spare alone; the one slot that misses twice is handed to the spare. -/
theorem estimatesAndTheSlotMonitor : Obligations.EstimatesAndTheSlotMonitor := by
  unfold Obligations.EstimatesAndTheSlotMonitor
  refine ⟨fun n p e s hp hlt htake hen => ⟨fun hdis => trimEstimate_disturbed s hp hen hdis, fun hdis hbad => trimEstimate_bad s hp hen htake hdis hbad,
    fun hdis hgood hlen => trimEstimate_loaded s hp hlt hen hdis hgood hlen⟩, fun n e s h => ?_, fun n s h => congrArg Host.Outcome.next (if_pos h),
    fun n s hw => ⟨fun h => slotMonitorCheck_clean s hw h, fun j h hspare htake => slotMonitorCheck_missed s hw h hspare htake⟩⟩
  have hnone : execTrimEstimate n e s = .next s := by
    unfold execTrimEstimate
    dsimp only
    obtain h | h := h
    · rw [h]
    · split
      · rfl
      · rw [if_pos h]
  exact hnone

end Sys2Proof.Machine
end

section
/-! SUPPORT. Filter chains (R60, R63): an element on its way to the store, with the registers that its gaps may change. -/

namespace Sys2Proof.Safety

open Sys2Proof.Machine

section
variable {fs : List Fld}

theorem changesOnly.foldl {α : Type} (f : State → α → State) (l : List α) (h : ∀ t, ∀ x ∈ l, changesOnly fs t (f t x)) (s : State) :
    changesOnly fs s (l.foldl f s) := by
  induction l generalizing s with
  | nil => exact .refl _ s
  | cons x xs ih => exact (h s x (by simp)).trans (ih (fun t y hy => h t y (by simp [hy])) (f s x))

theorem changesOnly.setGrp (s : State) (g : Nat) (y : Grp) : changesOnly fs s (s.setGrp g y) := (changesOnly.refl _ s).parts rfl rfl rfl rfl

end

end Sys2Proof.Safety

namespace Sys2Proof.Machine

open Sys2Proof.Safety

/-! ### The registers of a group's gaps (R119, R120) -/

section
variable (s : State) (g : Nat)

theorem State.addItem_gapOnly (kind num slot mask start : Nat) : changesOnly (gapFlds g) s (s.addItem g kind num slot mask start) := by
  unfold State.addItem
  dsimp only
  split
  · exact .setGrp _ _ _
  · exact .setGrp _ _ _

theorem State.gapDesc_gapOnly (cause a b mask : Nat) : changesOnly (gapFlds g) s (s.gapDesc g cause a b mask) := by
  unfold State.gapDesc
  extract_lets gr cap prev full s1 s2
  have hs1 : changesOnly (gapFlds g) s s1 := (changesOnly.refl _ s).parts rfl rfl rfl rfl
  have hovf := (changesOnly.refl (gapFlds g) s1).put (f := F.REC_GRP_STATUS_GAP_OVF g) (v := 1) (by simp [gapFlds])
  have hcnt : changesOnly (gapFlds g) s1 ((s1.setF (F.REC_GRP_STATUS_GAP_OVF g)).incSat (F.REC_GRP_GAP_OVF_CNT_COUNT g)) :=
    hovf.put (f := F.REC_GRP_GAP_OVF_CNT_COUNT g) (by simp [gapFlds])
  have hs2 : changesOnly (gapFlds g) s1 s2 := .ite hcnt (.refl _ _)
  clear_value s1 s2
  exact ((hs1.trans hs2).trans (.setGrp _ _ _)).trans (State.addItem_gapOnly _ g _ _ _ _ _)

theorem State.gapTo_gapOnly (upto : Nat) : changesOnly (gapFlds g) s (s.gapTo g upto) :=
  .ite (.refl _ _) (.trans (.setGrp _ _ _) (.foldl _ _ (fun t _ _ => t.gapDesc_gapOnly g _ _ _ _) _))

theorem State.showGaps_gapOnly : changesOnly (gapFlds g) s (s.showGaps g) := by
  have hwords : ∀ v, changesOnly (gapFlds g) s (s.putN (R.REC_GRP_GAP_OPEN g) 2 v) := fun v => .putN (.refl _ _) (by simp +contextual [gapFlds])
  unfold State.showGaps
  dsimp only
  split
  · exact (hwords _).put (f := F.REC_GRP_STATUS_GAP_OPEN g) (v := 0) (by simp [gapFlds])
  · exact (hwords _).put (f := F.REC_GRP_STATUS_GAP_OPEN g) (v := 1) (by simp [gapFlds])

theorem State.gapSync_gapOnly : changesOnly (gapFlds g) s (s.gapSync g) := (s.gapTo_gapOnly g _).trans (State.showGaps_gapOnly _ g)

theorem State.endLoss_gapOnly (cause x : Nat) : changesOnly (gapFlds g) s (s.endLoss g cause x) := .setGrp _ _ _

theorem State.addLoss_gapOnly (l : Loss) : changesOnly (gapFlds g) s (s.addLoss g l) := .setGrp _ _ _

theorem State.holdWatch_gapOnly : changesOnly (gapFlds g) s (s.holdWatch g) :=
  .ite (.refl _ _) (((s.endLoss_gapOnly g _ _).trans (State.addLoss_gapOnly _ g _)).trans (State.gapSync_gapOnly _ g))

theorem State.dropEnd_gapOnly : changesOnly (gapFlds g) s (s.dropEnd g) := .ite (.trans (.setGrp _ _ _) (State.gapSync_gapOnly _ g)) (.refl _ _)

/-! ### An element (R112, R161, R162) -/

/-- The registers of a dropped group-cycle, and those of the group's gaps. -/
def elemFlds (g : Nat) : List Fld := [F.STO_DROP_CNT_COUNT, F.STO_STATUS_DROP_SEEN] ++ gapFlds g

theorem elem_of_gapOnly {s t : State} {g : Nat} (h : changesOnly (gapFlds g) s t) : changesOnly (elemFlds g) s t :=
  h.mono fun f hf => List.mem_append_right _ hf

theorem State.countDrop_elem : changesOnly (elemFlds g) s s.countDrop := by
  have hcnt : changesOnly (elemFlds g) s (s.incSat F.STO_DROP_CNT_COUNT) := (changesOnly.refl _ s).put (by simp [elemFlds])
  exact hcnt.put (f := F.STO_STATUS_DROP_SEEN) (v := 1) (by simp [elemFlds])

theorem State.dropAt_elem (c next : Nat) : changesOnly (elemFlds g) s (s.dropAt g c next) := by
  unfold State.dropAt
  extract_lets s1 gr s2
  have hs1 : changesOnly (elemFlds g) s s1 := s.countDrop_elem g
  have hs2 : changesOnly (elemFlds g) s1 s2 := by
    show changesOnly (elemFlds g) s1 (match gr.drop with
      | some x => s1.setGrp g _
      | none => s1.addLoss g _)
    split
    · exact .setGrp _ _ _
    · exact elem_of_gapOnly (s1.addLoss_gapOnly g _)
  clear_value s1 s2
  exact ((hs1.trans hs2).trans (.setGrp _ _ _)).trans (elem_of_gapOnly (State.gapSync_gapOnly _ g))

theorem State.dropAt_booked (c next : Nat) : BookedOn g s (s.dropAt g c next) := by
  unfold State.dropAt
  extract_lets s1 gr s2
  have hs1 : BookedOn g s s1 := s.countDrop_booked g
  have hs2 : BookedOn g s1 s2 := by
    show BookedOn g s1 (match gr.drop with
      | some x => s1.setGrp g _
      | none => s1.addLoss g _)
    split
    · exact .setGrp (Grp.reopen_rebook rfl _)
    · exact s1.addLoss_booked g _
  clear_value s1 s2
  exact ((hs1.trans hs2).trans (.setGrp rfl)).trans (State.gapSync_booked _ g)

theorem State.stageBits_only {fs : List Fld} (paid : Bool) (k tag lpage bit n v : Nat) : changesOnly fs s (s.stageBits paid k tag lpage bit n v) :=
  .ite ((changesOnly.refl _ s).parts rfl rfl rfl rfl) ((changesOnly.refl _ s).parts rfl rfl rfl rfl)

theorem State.stageElem_only {fs : List Fld} (paid : Bool) (lpage : Nat) (l : Layout) (idx : Nat) (kd : Option Nat) (k sub cnt v nib : Nat) :
    changesOnly fs s (s.stageElem paid g lpage l idx kd k sub cnt v nib) :=
  (s.stageBits_only _ _ _ _ _ _ _).trans (State.stageBits_only _ _ _ _ _ _ _ _)

theorem State.stageElem_booked (paid : Bool) (lpage : Nat) (l : Layout) (idx : Nat) (kd : Option Nat) (k sub cnt v nib : Nat) :
    BookedOn g s (s.stageElem paid g lpage l idx kd k sub cnt v nib) :=
  (s.stageBits_booked g _ _ _ _ _ _ _).trans (State.stageBits_booked _ g _ _ _ _ _ _ _)

theorem State.offerFit_only {fs : List Fld} (key need own total : Nat) : changesOnly fs s (s.offerFit g key need own total).2.2 := by
  unfold State.offerFit
  dsimp only
  split
  · exact .setGrp _ _ _
  · dsimp only
    refine changesOnly.trans (t := if total ≤ own then s else _) (.ite (.refl _ _) (.setGrp _ _ _)) (.ite ?_ (.refl _ _))
    exact (changesOnly.refl _ _).parts rfl rfl rfl rfl

/-- Outputs of an element are offered, staged where they fit, dropped where they do not. -/
structure Placed (g : Nat) (s t : State) : Prop where
  only : changesOnly (elemFlds g) s t
  booked : BookedOn g s t

theorem Placed.refl : Placed g s s := ⟨.refl _ _, .refl _ _⟩

theorem Placed.trans {g : Nat} {s t u : State} (h : Placed g s t) (k : Placed g t u) : Placed g s u := ⟨h.only.trans k.only, h.booked.trans k.booked⟩

theorem Placed.ite {g : Nat} {s t u : State} {c : Prop} [Decidable c] (h : Placed g s t) (k : Placed g s u) : Placed g s (if c then t else u) := by
  split
  · exact h
  · exact k

theorem State.dropEnd_placed : Placed g s (s.dropEnd g) := ⟨elem_of_gapOnly (s.dropEnd_gapOnly g), s.dropEnd_booked g⟩

theorem State.dropAt_placed (c next : Nat) : Placed g s (s.dropAt g c next) := ⟨s.dropAt_elem g c next, s.dropAt_booked g c next⟩

theorem State.element_placed (n k sub cnt v nib : Nat) : Placed g s (s.element g n k sub cnt v nib) := by
  unfold State.element
  extract_lets src s1 gr lay c all put
  have hput : ∀ (lpage : Nat) (l : Layout) (idx : Nat) (kd : Option Nat), Placed g s1 (put lpage l idx kd) := by
    intro lpage l idx kd
    have hfit : ∀ key need own total, Placed g s1 (s1.offerFit g key need own total).2.2 := fun key need own total =>
      ⟨s1.offerFit_only g _ _ _ _, s1.offerFit_booked g _ _ _ _⟩
    show Placed g s1 (if (s1.offerFit g _ _ _ _).1 = true then _ else _)
    refine .ite ?_ (.ite ((hfit _ _ _ _).trans (State.dropAt_placed _ g _ _)) (hfit _ _ _ _))
    refine .trans ?_ ⟨State.stageElem_only _ g _ _ _ _ _ _ _ _ _ _, State.stageElem_booked _ g _ _ _ _ _ _ _ _ _ _⟩
    exact .ite ((hfit _ _ _ _).trans (State.dropEnd_placed _ g)) (hfit _ _ _ _)
  have hs1 : Placed g s s1 := ⟨.setGrp _ _ _, .setGrp rfl⟩
  clear_value put all
  refine hs1.trans (.ite (.refl _ _) ?_)
  split
  · exact hput _ _ _ _
  · split
    · exact .ite (hput _ _ _ _) (s1.dropEnd_placed g)
    · exact s1.dropEnd_placed g

/-! ### What a chain delivers (R63) -/

/-- The digital comparators alone. -/
def dcShare : Share where
  upd s t := { s with dcs := t.dcs }
  regs _ := False
  self _ := rfl
  again _ _ _ := rfl

theorem State.dcPush_dcShare (n : Nat) (src : Bool) (vs : List (Nat × Int)) : dcShare.Only s (s.dcPush n src vs) := by
  unfold State.dcPush
  refine .foldl _ _ (fun t d _ => ?_) s
  dsimp only
  exact .ite (.refl _ _) (.parts rfl rfl)

theorem State.toStore_placed (n k sub : Nat) (vals : List Int) (mk : Marks) {c : Nat}
    (hc : c = if (chainCfg s.regs n).d = 1 then k else k * (chainCfg s.regs n).d / (chainCfg s.regs n).n) :
    (groupOf (s.cfgAt c) n = none → s.toStore n k sub vals mk = s) ∧
    (∀ g, groupOf (s.cfgAt c) n = some g → Placed g s (s.toStore n k sub vals mk)) := by
  unfold State.toStore
  dsimp only
  rw [← hc]
  refine ⟨fun h => by rw [h], fun g h => ?_⟩
  rw [h]
  exact .ite (.refl _ _) (s.element_placed g _ _ _ _ _ _)

theorem State.chain_setChain_same (n : Nat) (x : Chain) : (s.setChain n x).chain n = x := Tab.get_set_same _ _ _ _

theorem State.chain_setChain_other {n k : Nat} (h : k ≠ n) (x : Chain) : (s.setChain n x).chain k = s.chain k := Tab.get_set_other _ _ _ _ _ h

theorem chain_of_chains {s t : State} (h : t.chains = s.chains) (k : Nat) : t.chain k = s.chain k := congrArg (fun x => Tab.get Chain.init x k) h

/-- The values of a chain's next outputs reach the comparators. -/
def State.emitted (s : State) (n : Nat) (o : FltOut) (rest : List FltOut) : State :=
  ((s.at_ o.due).setChain n { s.chain n with outs := rest }).dcPush n true (o.ys.map (fun p => ((chainCfg s.regs n).instant p.1, p.2)))

theorem State.emitted_frame (n : Nat) (o : FltOut) (rest : List FltOut) :
    (s.emitted n o rest).chain n = { s.chain n with outs := rest } ∧ (∀ k : Nat, k ≠ n → (s.emitted n o rest).chain k = s.chain k) ∧
    s.emitted n o rest = { s with lcnt := max s.lcnt o.due, chains := (s.emitted n o rest).chains, dcs := (s.emitted n o rest).dcs } := by
  have hset := (s.at_ o.due).chain_setChain_same n { s.chain n with outs := rest }
  have hother : ∀ k : Nat, k ≠ n → ((s.at_ o.due).setChain n { s.chain n with outs := rest }).chain k = s.chain k :=
    fun k hk => (s.at_ o.due).chain_setChain_other hk _
  have hframe : (s.at_ o.due).setChain n { s.chain n with outs := rest } =
    { s with lcnt := max s.lcnt o.due, chains := ((s.at_ o.due).setChain n { s.chain n with outs := rest }).chains } := rfl
  unfold State.emitted
  generalize (s.at_ o.due).setChain n { s.chain n with outs := rest } = u at *
  have hpush := (u.dcPush_dcShare n true (o.ys.map (fun p => ((chainCfg s.regs n).instant p.1, p.2)))).frame
  generalize u.dcPush n true (o.ys.map (fun p => ((chainCfg s.regs n).instant p.1, p.2))) = t at *
  have hchains : ∀ k, t.chain k = u.chain k := chain_of_chains ((congrArg State.chains hpush).trans rfl)
  refine ⟨(hchains n).trans hset, fun k hk => (hchains k).trans (hother k hk), ?_⟩
  have htu : t.chains = u.chains := (congrArg State.chains hpush).trans rfl
  have ht : t = { u with dcs := t.dcs } := hpush
  rw [htu]
  refine ht.trans ((congrArg (fun x : State => { x with dcs := t.dcs }) hframe).trans rfl)

theorem exec_filterOutput {n : Fin 48} {o : FltOut} {rest : List FltOut} (h : (s.chain n).outs = o :: rest) :
    exec (.filterOutput n) s = .next ((s.emitted n o rest).toStore n o.k o.sub o.vals o.marks) := by
  simp only [exec, execFilterOutput, h]
  rfl

theorem filterOutput_effect {n : Fin 48} {o : FltOut} {rest : List FltOut} {c : Nat} {f : ChainCfg} (h : (s.chain n).outs = o :: rest)
    (hf : f = chainCfg s.regs n) (hc : c = if f.d = 1 then o.k else o.k * f.d / f.n) :
    ∃ t, exec (.filterOutput n) s = .next t ∧ t.chain n = { s.chain n with outs := rest } ∧ t.lcnt = max s.lcnt o.due ∧
      (∀ k : Nat, k ≠ n → t.chain k = s.chain k) ∧ memSame s t ∧
      (groupOf (s.cfgAt c) n = none → t.regs = s.regs) ∧
      (∀ g, groupOf (s.cfgAt c) n = some g → onlyFields (elemFlds g) s t) ∧
      t = { s with
        lcnt := t.lcnt, regs := t.regs, chains := t.chains, dcs := t.dcs, grps := t.grps,
        stageFill := t.stageFill, fillData := t.fillData } := by
  subst hf
  have hexec := exec_filterOutput s h
  obtain ⟨hchain, hother, hframe⟩ := s.emitted_frame n o rest
  generalize s.emitted n o rest = u at *
  have hregs : u.regs = s.regs := (congrArg State.regs hframe).trans rfl
  have hcfg : u.cfgAt c = s.cfgAt c := (congrArg (fun x : State => x.cfgAt c) hframe).trans rfl
  have hu : ∀ fs, changesOnly fs s u := fun fs => (changesOnly.refl _ s).parts hregs ((congrArg State.store hframe).trans rfl)
    ((congrArg State.flash hframe).trans rfl) ((congrArg State.pending hframe).trans rfl)
  obtain ⟨hnone, hsome⟩ := u.toStore_placed n o.k o.sub o.vals o.marks (c := c) (by rw [hregs]; exact hc)
  rw [hcfg] at hnone hsome
  cases hg : groupOf (s.cfgAt c) n with
  | none =>
    rw [hnone hg] at hexec
    refine ⟨u, hexec, hchain, (congrArg State.lcnt hframe).trans rfl, hother, (hu []).2.1, fun _ => hregs, nofun, ?_⟩
    rw [hframe]
  | some g =>
    have hplaced := hsome g hg
    generalize u.toStore n o.k o.sub o.vals o.marks = t at *
    have hbook := hplaced.booked.share.frame
    have hchains : ∀ k, t.chain k = u.chain k := chain_of_chains ((congrArg State.chains hbook).trans rfl)
    have hall := (hu (elemFlds g)).trans hplaced.only
    refine ⟨t, hexec, (hchains n).trans hchain, ((congrArg State.lcnt hbook).trans rfl).trans ((congrArg State.lcnt hframe).trans rfl),
      fun k hk => (hchains k).trans (hother k hk), hall.2.1, nofun, fun k hk => ?_, ?_⟩
    · cases hk
      exact hall.1
    · rw [hbook, hframe]
      rfl

end

/-- Settles O27: an output passes its channel's comparators and the group's books; FREEZE is written with the tag from which it rules. -/
theorem filterChainsDeliver : Obligations.FilterChainsDeliver := by
  unfold Obligations.FilterChainsDeliver
  refine ⟨fun n o rest c f s h hf hc => filterOutput_effect s h hf hc, fun n s h => ?_, fun a n v s => ?_⟩
  · simp only [exec, execFilterOutput, h]
  · have hset := (s.at_ a).chain_setChain_same n { s.chain n with frz := some (a - 39, s.flag (F.FLT_CH_DC_FREEZE n)) }
    have hother : ∀ k : Nat, k ≠ n → ((s.at_ a).setChain n { s.chain n with frz := some (a - 39, s.flag (F.FLT_CH_DC_FREEZE n)) }).chain k = s.chain k :=
      fun k hk => (s.at_ a).chain_setChain_other hk _
    have hu : changesOnly [F.FLT_CH_DC_FREEZE n] s ((s.at_ a).setChain n { s.chain n with frz := some (a - 39, s.flag (F.FLT_CH_DC_FREEZE n)) }) :=
      (changesOnly.refl _ s).parts rfl rfl rfl rfl
    refine ⟨_, rfl, ?_, hset, rfl, hother, ?_, rfl⟩
    · simp (disch := first | exact .of rfl (by omega) | omega) [State.freezeWrite, State.flag, State.putB]
    · exact hu.put (f := F.FLT_CH_DC_FREEZE n) (by simp)

end Sys2Proof.Machine
end

section
/-! SUPPORT. Words on their way through the router (R10, R35, R38): which parts of the block a delivery may change. -/

namespace Sys2Proof.Machine

open Sys2Proof.Safety

/-! ### What a delivery changes -/

/-- What the words of a core cycle may change beside the channels' histories and the time; the mode register stays. -/
def wordShare : Share where
  upd s t := { s with
    out := t.out, free := t.free, regs := t.regs, chans := t.chans, chains := t.chains,
    dcs := t.dcs, grps := t.grps, store := t.store, stageFill := t.stageFill, fillData := t.fillData, sto := t.sto,
    avgs := t.avgs, dbs := t.dbs, hitQ := t.hitQ, tallyPage := t.tallyPage, frames := t.frames, framePub := t.framePub,
    strms := t.strms, msix := t.msix, cal := t.cal, twin := t.twin, log := t.log }
  regs off := off ≠ F.CONV_MODE_PAIR.off
  self _ := rfl
  again _ _ _ := rfl

theorem wordShare_regs {off : Nat} (h : off ≠ 0x100000) : wordShare.regs off := h

section
variable {g : Nat} {s t : State}

theorem BookedOn.onWordShare (h : BookedOn g s t) : wordShare.Only s t :=
  ⟨wordShare.frame_of h.share.frame rfl, fun off ho => h.share.word off (by
    have hoff : off = 0x100000 := not_not.mp ho
    simp only [bookShare]
    omega)⟩

theorem tallyShare_onWordShare (h : tallyShare.Only s t) : wordShare.Only s t :=
  ⟨wordShare.frame_of h.frame rfl, fun off ho => h.word off (by
    have hoff : off = 0x100000 := not_not.mp ho
    simp only [tallyShare]
    omega)⟩

theorem cfgIn_word {r r' : RegTab} {off : Nat} (h : r'.word off = r.word off) (c : Nat) (l : List (Nat × RegTab)) :
    (cfgIn r' c l).word off = (cfgIn r c l).word off := by
  induction l generalizing r r' with
  | nil => exact h
  | cons p ps ih =>
    unfold cfgIn
    split
    · rfl
    · exact h

/-- Which channels are paired stands through a delivery. -/
theorem paired_of_wordShare (h : wordShare.Only s t) (c n : Nat) : paired (t.cfgAt c) n = paired (s.cfgAt c) n := by
  have hhist : t.hist = s.hist := (congrArg State.hist h.frame).trans rfl
  unfold paired State.cfgAt
  rw [hhist, RegTab.fld_congr (cfgIn_word (h.word _ (fun hne => hne rfl)) c s.hist)]

end

section
variable (s : State)

theorem State.post_wordShare (lc code locus data : Nat) : wordShare.Only s (s.post lc code locus data) :=
  .post (fun j hj => wordShare_regs (by omega)) (wordShare.frame_of (State.post_eq s lc code locus data) rfl)

theorem State.gapSyncAll_wordShare : wordShare.Only s s.gapSyncAll :=
  .foldl _ _ (fun t g _ => .ite (.refl _ _) (t.gapSync_booked g).onWordShare) s

/-! ### Correction (R38) -/

theorem State.unitWords_wordShare (c n : Nat) (arrs : List Nat) (raw : List RawWord) : wordShare.Only s (s.unitWords c n arrs raw).2 := by
  have hset : ∀ (u : State) (k : Nat) (x : Chan), wordShare.Only u (u.setChan k x) := fun _ _ _ => .parts rfl rfl
  unfold State.unitWords
  dsimp only
  refine .ite (hset _ _ _) ?_
  split
  · exact (hset _ _ _).after (hset _ _ _)
  · exact (hset _ _ _).after ((hset _ _ _).after (hset _ _ _))
  · exact hset _ _ _

theorem State.regionWords_wordShare (c : Nat) (raw : List RawWord) (l : List (Nat × List Nat × List Nat)) :
    wordShare.Only s (s.regionWords c raw l).2 := by
  induction l generalizing s with
  | nil => exact .refl _ _
  | cons u us ih => exact (s.unitWords_wordShare c _ _ _).trans (ih _)

/-! ### Delivery (R10, R41, R43) -/

theorem State.setF_wordShare {f : Fld} (h : wordShare.regs f.off) : wordShare.Only s (s.setF f) := .put h

theorem State.addSat_wordShare {f : Fld} (k : Nat) (h : wordShare.regs f.off) : wordShare.Only s (s.addSat f k) := .put h

theorem State.ovldAt_wordShare (n c : Nat) : wordShare.Only s (s.ovldAt n c) := by
  refine .ite (.trans (.put (f := F.CONV_CH_STATUS_OVLD n) (v := 1) (wordShare_regs ?_)) (State.post_wordShare _ _ _ _ _)) (.refl _ _)
  simp only [F.CONV_CH_STATUS_OVLD]
  omega

theorem State.countMarks_wordShare (n : Nat) (mks : List Marks) : wordShare.Only s (s.countMarks n mks) := by
  have hovr : wordShare.regs (F.CONV_OVR_CNT_COUNT n).off := wordShare_regs (by simp only [F.CONV_OVR_CNT_COUNT]; omega)
  have hnbr : wordShare.regs (F.CONV_NBR_CNT_COUNT n).off := wordShare_regs (by simp only [F.CONV_NBR_CNT_COUNT]; omega)
  have hstat : wordShare.regs (F.CONV_CH_STATUS_OVR_SEEN n).off := wordShare_regs (by simp only [F.CONV_CH_STATUS_OVR_SEEN]; omega)
  unfold State.countMarks
  extract_lets o b s1 s2
  have hs1 : wordShare.Only s s1 := (s.addSat_wordShare o hovr).trans (State.addSat_wordShare _ b hnbr)
  clear_value s1 o b
  have hs2 : wordShare.Only s1 s2 := .ite (.refl _ _) (s1.setF_wordShare (f := F.CONV_CH_STATUS_OVR_SEEN n) hstat)
  clear_value s2
  exact (hs1.trans hs2).trans (.ite (.refl _ _) (s2.setF_wordShare (f := F.CONV_CH_STATUS_NBR_SEEN n) hstat))

theorem State.chainBegin_wordShare (n c : Nat) : wordShare.Only s (s.chainBegin n c) := by
  unfold State.chainBegin
  dsimp only
  split
  · refine .ite (.trans (.parts (t := s.setChain n _) rfl rfl) (.put (f := F.FLT_CH_DC_EST_VALUE n) (wordShare_regs ?_))) (.refl _ _)
    simp only [F.FLT_CH_DC_EST_VALUE]
    omega
  · exact .refl _ _

theorem State.chainWord_wordShare (n c : Nat) (codes : List Int) (mks : List Marks) : wordShare.Only s (s.chainWord n c codes mks) := by
  have hsat : wordShare.regs (F.FLT_SAT_CNT_COUNT n).off := wordShare_regs (by simp only [F.FLT_SAT_CNT_COUNT]; omega)
  have hstat : wordShare.regs (F.FLT_CH_STATUS_SAT_SEEN n).off := wordShare_regs (by simp only [F.FLT_CH_STATUS_SAT_SEEN]; omega)
  have hest : wordShare.regs (F.FLT_CH_DC_EST_VALUE n).off := wordShare_regs (by simp only [F.FLT_CH_DC_EST_VALUE]; omega)
  have h0 := s.chainBegin_wordShare n c
  unfold State.chainWord
  dsimp only
  generalize s.chainBegin n c = u at *
  refine h0.trans (.ite (.refl _ _) ?_)
  generalize Flow.word _ _ _ _ _ _ _ = fl
  have h1 : wordShare.Only u ((u.setChain n fl.ch).addSat (F.FLT_SAT_CNT_COUNT n) fl.sats) :=
    .trans (.parts (t := u.setChain n fl.ch) rfl rfl) (.put hsat)
  generalize (u.setChain n fl.ch).addSat (F.FLT_SAT_CNT_COUNT n) fl.sats = v at *
  have h2 : wordShare.Only v (if fl.sats = 0 then v else v.setF (F.FLT_CH_STATUS_SAT_SEEN n)) :=
    .ite (.refl _ _) (.put (f := F.FLT_CH_STATUS_SAT_SEEN n) (v := 1) hstat)
  generalize (if fl.sats = 0 then v else v.setF (F.FLT_CH_STATUS_SAT_SEEN n)) = w at *
  split
  · exact (h1.trans h2).trans (.trans (.put (f := F.FLT_CH_STATUS_DC_FROZEN n) hstat) (.put hest))
  · exact h1.trans h2

theorem State.toStore_wordShare (n k sub : Nat) (vals : List Int) (mk : Marks) : wordShare.Only s (s.toStore n k sub vals mk) := by
  obtain ⟨hnone, hsome⟩ := s.toStore_placed n k sub vals mk rfl
  cases h : groupOf (s.cfgAt (if (chainCfg s.regs n).d = 1 then k else k * (chainCfg s.regs n).d / (chainCfg s.regs n).n)) n with
  | none =>
    rw [hnone h]
    exact .refl _ _
  | some g => exact (hsome g h).booked.onWordShare

theorem State.dcPush_wordShare (n : Nat) (src : Bool) (vs : List (Nat × Int)) : wordShare.Only s (s.dcPush n src vs) := by
  have h := s.dcPush_dcShare n src vs
  exact ⟨wordShare.frame_of h.frame rfl, fun off _ => h.word off (fun hf => hf)⟩

/-- What a word does before it joins the history. -/
def State.consumed (s : State) (n c : Nat) (codes : List Int) (mks : List Marks) : State :=
  let r := s.cfgAt c
  let f := chainCfg r n
  let mk := mks.foldl Marks.or Marks.none_
  let s1 := s.chainWord n c codes mks
  let s2 := if f.direct then s1.toStore n c 0 (codes.map (codeWidth f.b)) mk else s1
  let s3 := s2.dcPush n false (rawValues f.n c codes)
  match groupOf r n with
  | some g => s3.lensCycle true g n c codes mk.nib (s3.grp g).spans
  | none => s3

theorem State.deliver_eq (n c : Nat) (codes : List Int) (mks : List Marks) :
    s.deliver n c codes mks = (s.consumed n c codes mks).pushWord n c (nOf (s.cfgAt c) n / 64 * c) codes mks := rfl

theorem State.consumed_wordShare (n c : Nat) (codes : List Int) (mks : List Marks) : wordShare.Only s (s.consumed n c codes mks) := by
  unfold State.consumed
  extract_lets r f mk s1 s2 s3
  have hs1 : wordShare.Only s s1 := s.chainWord_wordShare _ _ _ _
  have hs2 : wordShare.Only s1 s2 := .ite (s1.toStore_wordShare _ _ _ _ _) (.refl _ _)
  have hs3 : wordShare.Only s2 s3 := s2.dcPush_wordShare _ _ _
  clear_value s1 s2 s3
  have h := (hs1.trans hs2).trans hs3
  split
  next g _ => exact h.trans (s3.lensCycle_booked g _ _ _ _ _ _).onWordShare
  next => exact h

/-! ### Fencings (R49, R50) -/

theorem State.fenceRecs_wordShare (g n c : Nat) (l : List Rec) : wordShare.Only s (s.fenceRecs g n c l) := by
  unfold State.fenceRecs
  refine .foldl _ _ (fun t r _ => ?_) s
  have hset : wordShare.Only t (t.setGrp g ((t.grp g).updRec (r.fence n c))) := .parts rfl rfl
  dsimp only
  generalize t.setGrp g ((t.grp g).updRec (r.fence n c)) = u at *
  exact .ite hset (hset.trans (u.moveBlocks_booked g _ _ _ _ _).onWordShare)

theorem State.fenceGroup_wordShare (n c g : Nat) : wordShare.Only s (s.fenceGroup n c g) := by
  have h := s.fenceRecs_wordShare g n c (s.grp g).spans
  unfold State.fenceGroup
  dsimp only
  generalize s.fenceRecs g n c (s.grp g).spans = u at *
  exact (h.trans (.parts (t := u.setGrp g ((u.grp g).reopen c)) rfl rfl)).trans (State.gapSync_booked _ g).onWordShare

theorem State.showSrc_wordShare : wordShare.Only s s.showSrc := by
  unfold State.showSrc
  refine .foldl _ _ (fun t g _ => ?_) s
  have hstat : wordShare.regs (F.TRG_GRP_STATUS_SRC_FENCED g).off := wordShare_regs (by simp only [F.TRG_GRP_STATUS_SRC_FENCED]; omega)
  exact .trans (.put (f := F.TRG_GRP_STATUS_SRC_FENCED g) hstat) (.put (f := F.TRG_GRP_STATUS_SRC_HELD g) hstat)

theorem State.fenceOne_wordShare (n c : Nat) : wordShare.Only s (s.fenceOne n c) := by
  unfold State.fenceOne
  split
  · exact .refl _ _
  · extract_lets g x s1 s2 s3 y s4 s5
    have hstat : wordShare.regs (F.CONV_CH_STATUS_FENCED n).off := wordShare_regs (by simp only [F.CONV_CH_STATUS_FENCED]; omega)
    have hac : ∀ k, wordShare.regs (F.TRG_AC_STATUS_FENCED (6 * n + k)).off := fun k => wordShare_regs (by simp only [F.TRG_AC_STATUS_FENCED]; omega)
    have hs1 : wordShare.Only s s1 := .trans (.putN (off := R.CONV_FENCE_CH) (n := 2) (v := setBit s.fenceMask n) (fun j h1 _ => wordShare_regs (by
      simp only [R.CONV_FENCE_CH] at h1
      omega))) (.parts rfl rfl)
    clear_value s1
    have hs2 : wordShare.Only s1 s2 := .trans (.trans (s1.setF_wordShare hstat) (.put (f := F.CONV_CH_STATUS_PRESENT n) (v := 0) hstat))
      (State.setF_wordShare _ (f := F.GLOBAL_STATE_DEGRADED) (wordShare_regs (by decide)))
    clear_value s2
    have hs3 : wordShare.Only s2 s3 := .foldl _ _ (fun t k _ => t.setF_wordShare (hac k)) s2
    clear_value s3 y g
    have hs4 : wordShare.Only s3 s4 := .parts rfl rfl
    have hs5 : wordShare.Only s4 s5 := by
      show wordShare.Only s4 (match g with
        | some k => s4.fenceGroup n c k
        | none => s4)
      cases g with
      | some k => exact s4.fenceGroup_wordShare n c k
      | none => exact .refl _ _
    clear_value s4 s5
    exact ((((hs1.trans hs2).trans hs3).trans hs4).trans hs5).trans s5.showSrc_wordShare

theorem State.fenceChs_wordShare (c : Nat) (l : List Nat) : wordShare.Only s (s.fenceChs c l) :=
  .foldl _ _ (fun t n _ => t.fenceOne_wordShare n c) s

theorem State.fenceCluster_wordShare (n c : Nat) : wordShare.Only s (s.fenceCluster n c) :=
  .ite (.refl _ _) ((s.fenceChs_wordShare c [n]).trans (State.post_wordShare _ _ _ _ _))

theorem State.eccUnit_wordShare (c : Nat) (u : Unit_) : wordShare.Only s (s.eccUnit c u) := by
  unfold State.eccUnit
  dsimp only
  refine .ite (.refl _ _) ?_
  generalize (if (s.chan u.n).ecc.1 = c / tickLen then (s.chan u.n).ecc.2 else 0) + (u.bad.filter id).length = k
  have hset : wordShare.Only s (s.setChan u.n { s.chan u.n with ecc := (c / tickLen, k) }) := .parts rfl rfl
  generalize s.setChan u.n { s.chan u.n with ecc := (c / tickLen, k) } = v at *
  have hpost := hset.trans (v.post_wordShare c 0x0204 (s.locusCh u.n 0xFF) 0)
  generalize v.post c 0x0204 (s.locusCh u.n 0xFF) 0 = w at *
  exact .ite (hpost.trans (w.fenceCluster_wordShare _ _)) hpost

/-! ### The tally unit's part (R140, R144) -/

theorem State.avgDone_tallyShare (g : Nat) (j : AvgJob) : tallyShare.Only s (s.avgDone g j) := .ite (s.avgStop_tallyShare g) (.refl _ _)

theorem State.avgLand_tallyShare (g c : Nat) : tallyShare.Only s (s.avgLand g c) := by
  unfold State.avgLand
  dsimp only
  split
  · exact .refl _ _
  next j rest _ =>
    refine .ite (.refl _ _) ?_
    generalize (bitsSet 48 (j.mask - Nat.land j.mask s.fenceMask)).map (fun n => (n, s.codesFrom n j.j0 j.cfg.len)) = got
    refine .ite ?_ ?_
    · have hset : tallyShare.Only s (s.setAvg g { s.avg g with offered := rest }) := .parts rfl rfl
      generalize s.setAvg g { s.avg g with offered := rest } = v at *
      have hrej : tallyShare.Only v (v.avgReject g) :=
        .trans (.parts (t := v.setAvg g { v.avg g with rej := (v.avg g).rej + 1 }) rfl rfl) (.put (f := F.TAL_AVG_REJ_CNT_COUNT g) (tallyShare_regs (by
          simp only [F.TAL_AVG_REJ_CNT_COUNT]
          omega)))
      exact (hset.trans hrej).trans (State.avgDone_tallyShare _ g j)
    · refine .trans (.trans (.foldl _ got (fun t q _ => ?_) s) (.parts rfl rfl)) (.parts rfl rfl)
      split
      · exact t.swrites_tallyShare _ _
      · exact .refl _ _

theorem State.hitEnter_wordShare (c : Nat) (l : List Nat) : wordShare.Only s (s.hitEnter c l) := by
  have hskip : ∀ (u : State) (d : Nat), wordShare.Only u (u.dbSkip d) := fun u d =>
    .trans (.parts (t := u.setDb d { u.db d with skipped := (u.db d).skipped + 1 }) rfl rfl) (.put (f := F.TAL_DB_SKIP_CNT_COUNT d) (wordShare_regs (by
      simp only [F.TAL_DB_SKIP_CNT_COUNT]
      omega)))
  induction l generalizing s with
  | nil => exact .refl _ _
  | cons d ds ih =>
    rw [State.hitEnter]
    refine Share.Only.trans ?_ (ih _)
    split
    · exact .refl _ _
    next w rest _ =>
      have hset : wordShare.Only s (s.setDb d { s.db d with waiting := rest }) := .parts rfl rfl
      generalize s.setDb d { s.db d with waiting := rest } = v at *
      exact .ite (hset.trans (hskip _ _)) (.ite (.refl _ _) (.ite (hset.trans (.parts rfl rfl)) (hset.trans (hskip _ _))))

theorem State.tallyWord_wordShare (q c : Nat) : wordShare.Only s (s.tallyWord q c) := by
  unfold State.tallyWord
  dsimp only
  refine .trans (.foldl _ _ (fun t g _ => ?_) s) (State.hitEnter_wordShare _ _ _)
  exact .ite (tallyShare_onWordShare (t.avgLand_tallyShare g c)) (.refl _ _)

end

end Sys2Proof.Machine
end

section
/-! SUPPORT. SAMPLE_WORD_DELIVERY (R10, R35, R38): what joins a channel's history. -/

namespace Sys2Proof.Machine

open Sys2Proof.Safety

/-! ### Histories (R10) -/

/-- A delivery with the histories of the channels. -/
def routerShare : Share where
  upd s t := { wordShare.upd s t with words := t.words }
  regs _ := True
  self _ := rfl
  again _ _ _ := rfl

theorem Share.Only.onRouter {s t : State} (h : wordShare.Only s t) : routerShare.Only s t :=
  ⟨routerShare.frame_of h.frame rfl, fun _ ho => absurd trivial ho⟩

section
variable (s : State)

theorem State.pushWord_frame (n c w : Nat) (codes : List Int) (ms : List Marks) :
    (∀ k, k ≠ n → Tab.get [] (s.pushWord n c w codes ms).words k = Tab.get [] s.words k) ∧
    s.pushWord n c w codes ms = { s with words := (s.pushWord n c w codes ms).words } := by
  induction ms generalizing s w codes with
  | nil => exact ⟨fun _ _ => rfl, rfl⟩
  | cons m ms ih =>
    rw [State.pushWord]
    obtain ⟨hother, hframe⟩ := ih { s with words := Tab.set s.words n ((w, codes.take 64, m) ::
      (Tab.get [] s.words n).filter (fun x => nOf s.regs n / 64 * s.keepWords n c ≤ x.1)) } (w + 1) (codes.drop 64)
    exact ⟨fun k hk => (hother k hk).trans (Tab.get_set_other _ _ _ _ _ hk), hframe⟩

theorem State.pushWord_head (n c w : Nat) (codes : List Int) (m : Marks) :
    (Tab.get [] (s.pushWord n c w codes [m]).words n).head? = some (w, codes.take 64, m) := by
  have hpush : (s.pushWord n c w codes [m]).words = Tab.set s.words n ((w, codes.take 64, m) ::
      (Tab.get [] s.words n).filter (fun x => nOf s.regs n / 64 * s.keepWords n c ≤ x.1)) := rfl
  rw [hpush, Tab.get_set_same]
  rfl

/-! ### A unit's delivery -/

/-- A unit's words join its channel's history alone. -/
structure Routed (n : Nat) (s t : State) : Prop where
  share : routerShare.Only s t
  mode : ∀ c k, paired (t.cfgAt c) k = paired (s.cfgAt c) k
  words : ∀ k, k ≠ n → Tab.get [] t.words k = Tab.get [] s.words k

theorem Routed.of_wordShare {n : Nat} {s t : State} (h : wordShare.Only s t) : Routed n s t :=
  ⟨h.onRouter, fun c k => paired_of_wordShare h c k, fun k _ => congrArg (fun x => Tab.get [] x k) ((congrArg State.words h.frame).trans rfl)⟩

theorem State.deliver_routed (n c : Nat) (codes : List Int) (mks : List Marks) : Routed n s (s.deliver n c codes mks) := by
  have hcons := s.consumed_wordShare n c codes mks
  rw [s.deliver_eq n c codes mks]
  generalize s.consumed n c codes mks = u at *
  obtain ⟨hother, hframe⟩ := u.pushWord_frame n c (nOf (s.cfgAt c) n / 64 * c) codes mks
  generalize u.pushWord n c (nOf (s.cfgAt c) n / 64 * c) codes mks = t at *
  have hwords : ∀ k, Tab.get [] u.words k = Tab.get [] s.words k := fun k => congrArg (fun x => Tab.get [] x k) ((congrArg State.words hcons.frame).trans rfl)
  refine ⟨hcons.onRouter.trans ⟨routerShare.frame_of hframe rfl, fun _ ho => absurd trivial ho⟩, fun c' k => ?_, fun k hk => (hother k hk).trans (hwords k)⟩
  have hcfg : t.cfgAt c' = u.cfgAt c' := (congrArg (fun x : State => x.cfgAt c') hframe).trans rfl
  rw [hcfg, paired_of_wordShare hcons]

theorem State.deliver_head {n c : Nat} {codes : List Int} (m : Marks) (hlen : codes.length = 64) (hpair : paired (s.cfgAt c) n = false) :
    (Tab.get [] (s.deliver n c codes [m]).words n).head? = some (c, codes, m) := by
  have hn : nOf (s.cfgAt c) n / 64 * c = c := by
    have hbit : bitOf ((s.cfgAt c).fld F.CONV_MODE_PAIR) (n / 2) = false := hpair
    rw [nOf, hbit]
    simp
  rw [s.deliver_eq, hn, State.pushWord_head, List.take_of_length_le (by omega)]

/-- The counters and marks of a unit before its words are delivered. -/
theorem State.deliverUnit_routed (c : Nat) (all : List Unit_) (u : Unit_) : Routed u.n s (s.deliverUnit c all u) := by
  have hovld := s.ovldAt_wordShare u.n c
  unfold State.deliverUnit
  dsimp only
  split
  · exact .of_wordShare (.refl _ _)
  · split
    · exact .of_wordShare hovld
    · generalize s.ovldAt u.n c = v at *
      generalize u.ovr.map (fun o => (⟨o, v.nbrAt c u all, v.rotAt c u⟩ : Marks)) = mks
      have hcnt := hovld.trans (v.countMarks_wordShare u.n mks)
      generalize v.countMarks u.n mks = w at *
      obtain ⟨hshare, hmode, hwords⟩ := w.deliver_routed u.n c u.words.flatten mks
      exact ⟨hcnt.onRouter.trans hshare, fun c' k => (hmode c' k).trans (paired_of_wordShare hcnt c' k),
        fun k hk => (hwords k hk).trans ((Routed.of_wordShare hcnt).words k hk)⟩

theorem State.deliverUnit_head {c n : Nat} {arrs : List Nat} {x : List Int} {o : Bool} {bad : List Bool} (all : List Unit_) (hlen : x.length = 64)
    (hpair : paired (s.cfgAt c) n = false) :
    ∃ m, (Tab.get [] (s.deliverUnit c all ⟨n, arrs, [x], [o], bad, false⟩).words n).head? = some (c, x, m) := by
  have hovld := s.ovldAt_wordShare n c
  unfold State.deliverUnit
  dsimp only
  rw [if_neg (by simp), if_neg (by simp)]
  generalize s.ovldAt n c = v at *
  simp only [List.map_cons, List.map_nil, List.flatten_cons, List.flatten_nil, List.append_nil]
  generalize (⟨o, v.nbrAt c ⟨n, arrs, [x], [o], bad, false⟩ all, v.rotAt c ⟨n, arrs, [x], [o], bad, false⟩⟩ : Marks) = m
  have hcnt := hovld.trans (v.countMarks_wordShare n [m])
  generalize v.countMarks n [m] = w at *
  exact ⟨m, w.deliver_head m hlen ((paired_of_wordShare hcnt c n).trans hpair)⟩

/-! ### A region's units -/

theorem State.deliverUnits_shared (c : Nat) (all l : List Unit_) : routerShare.Only s (l.foldl (fun t u => t.deliverUnit c all u) s) :=
  .foldl _ _ (fun t u _ => (t.deliverUnit_routed c all u).share) s

theorem State.deliverUnits_kept {n : Nat} (c : Nat) (all l : List Unit_) (h : ∀ u ∈ l, u.n ≠ n) :
    Tab.get [] (l.foldl (fun t u => t.deliverUnit c all u) s).words n = Tab.get [] s.words n := by
  induction l generalizing s with
  | nil => rfl
  | cons u us ih =>
    rw [List.foldl_cons]
    exact (ih _ (fun v hv => h v (by simp [hv]))).trans ((s.deliverUnit_routed c all u).words n (fun e => h u (by simp) e.symm))

theorem State.deliverUnits_head {c n : Nat} {arrs : List Nat} {x : List Int} {o : Bool} {bad : List Bool} (all l : List Unit_) (hlen : x.length = 64)
    (hpair : paired (s.cfgAt c) n = false) (hmem : (⟨n, arrs, [x], [o], bad, false⟩ : Unit_) ∈ l) (hnodup : (l.map Unit_.n).Nodup) :
    ∃ m, (Tab.get [] (l.foldl (fun t u => t.deliverUnit c all u) s).words n).head? = some (c, x, m) := by
  induction l generalizing s with
  | nil => cases hmem
  | cons u us ih =>
    rw [List.map_cons, List.nodup_cons] at hnodup
    obtain ⟨hnot, hrest⟩ := hnodup
    rw [List.foldl_cons]
    obtain hu | hu := List.mem_cons.mp hmem
    · subst hu
      obtain ⟨m, hm⟩ := s.deliverUnit_head (arrs := arrs) (o := o) (bad := bad) all hlen hpair
      refine ⟨m, ?_⟩
      rw [State.deliverUnits_kept _ c all us (fun v hv e => hnot (List.mem_map.mpr ⟨v, hv, e⟩))]
      exact hm
    · exact ih _ (((s.deliverUnit_routed c all u).mode c n).trans hpair) hu hrest

/-! ### The correction that is off (R38) -/

theorem Chan.convs_codes (ch : Chan) (a c j : Nat) (l : List Int) : (ch.convs a c j l).map Conv.x = l := by
  induction l generalizing j with
  | nil => rfl
  | cons x xs ih => exact congrArg (x :: ·) (ih (j + 1))

theorem correct_off (r : RegTab) (l : List Conv) (ext : List Int) : correct r true l ext = l.map Conv.x := by
  induction l generalizing ext with
  | nil => rfl
  | cons v vs ih =>
    rw [correct, ih, List.map_cons, Bool.or_true]
    rfl

/-- The correction changes arrays, and fences none. -/
structure Corrected (s t : State) : Prop where
  fenced : ∀ k, (t.chan k).fencedAt = (s.chan k).fencedAt
  frame : t = { s with chans := t.chans }

theorem Corrected.refl : Corrected s s := ⟨fun _ => rfl, rfl⟩

theorem Corrected.trans {s t u : State} (h : Corrected s t) (k : Corrected t u) : Corrected s u :=
  ⟨fun n => (k.fenced n).trans (h.fenced n), k.frame.trans (congrArg (fun x : State => { x with chans := u.chans }) h.frame)⟩

theorem Corrected.after {s t u : State} (k : Corrected t u) (h : Corrected s t) : Corrected s u := h.trans k

theorem Corrected.setChan {n : Nat} {x : Chan} (h : x.fencedAt = (s.chan n).fencedAt) : Corrected s (s.setChan n x) := by
  refine ⟨fun k => ?_, rfl⟩
  by_cases hk : k = n
  · subst hk
    rw [s.chan_setChan_same]
    exact h
  · rw [s.chan_setChan_other hk]

/-- Both arrays of a pair take their sums. -/
theorem Corrected.two {s u : State} {a b : Nat} {x y : List Int} (h : Corrected s u) :
    Corrected s ((u.setChan a ((u.chan a).monitor x)).setChan b ((u.chan b).monitor y)) := by
  have ha : Corrected u (u.setChan a ((u.chan a).monitor x)) := .setChan _ rfl
  exact (h.trans ha).trans (.setChan _ (ha.fenced b).symm)

theorem State.unitWords_corrected (c n : Nat) (arrs : List Nat) (raw : List RawWord) :
    Corrected s (s.unitWords c n arrs raw).2 ∧ (s.unitWords c n arrs raw).1.n = n := by
  refine ⟨?_, rfl⟩
  unfold State.unitWords
  dsimp only
  split
  · exact .setChan _ rfl
  · split
    · exact .after (.setChan _ rfl) (.setChan _ rfl)
    · exact .two (.setChan _ rfl)
    · exact .setChan _ rfl

theorem State.unitWords_off {c n : Nat} {w : RawWord} (hlen : w.x.length = 64) (hecc : w.eccBad = false)
    (hoff : (s.cfgAt c).bit (F.CONV_CH_CTRL_CORR_OFF n) = true) (hdrop : (s.pllGapAt c || s.calHeldAt n c || s.fencedBy n c) = false) :
    ∃ o, (s.unitWords c n [n] [w]).1 = ⟨n, [n], [w.x], [o], [false], false⟩ := by
  unfold State.unitWords
  dsimp only
  rw [hoff, correct_off, Chan.convs_codes, hdrop]
  simp only [List.length_singleton, words64, List.map_cons, List.map_nil, hecc, List.zip_cons_cons, List.zip_nil_right,
    List.take_of_length_le (Nat.le_of_eq hlen), Bool.false_eq_true, if_false, ovrOf]
  exact ⟨_, rfl⟩

theorem State.regionWords_corrected (c : Nat) (raw : List RawWord) (l : List (Nat × List Nat × List Nat)) :
    (s.regionWords c raw l).1.map Unit_.n = l.map Prod.fst := by
  induction l generalizing s with
  | nil => rfl
  | cons u us ih =>
    rw [State.regionWords, List.map_cons, List.map_cons]
    exact congrArg₂ List.cons (s.unitWords_corrected c u.1 u.2.1 _).2 (ih _)

theorem State.fencedBy_congr {s t : State} (hr : t.regs = s.regs) {n : Nat} (h : (t.chan n).fencedAt = (s.chan n).fencedAt) (c : Nat) :
    t.fencedBy n c = s.fencedBy n c := by
  unfold State.fencedBy State.fenceMask State.getN
  rw [h, hr]

/-- A channel on its own with its correction off gives its word as the die sent it. -/
theorem State.regionWords_off {c n i : Nat} {w : RawWord} {raw : List RawWord} {l : List (Nat × List Nat × List Nat)} (hi : raw[i]? = some w)
    (hlen : w.x.length = 64) (hecc : w.eccBad = false) (hoff : (s.cfgAt c).bit (F.CONV_CH_CTRL_CORR_OFF n) = true)
    (hdrop : (s.pllGapAt c || s.calHeldAt n c || s.fencedBy n c) = false) (hmem : (n, [n], [i]) ∈ l) :
    ∃ o, (⟨n, [n], [w.x], [o], [false], false⟩ : Unit_) ∈ (s.regionWords c raw l).1 := by
  induction l generalizing s with
  | nil => cases hmem
  | cons u us ih =>
    rw [State.regionWords]
    obtain hu | hu := List.mem_cons.mp hmem
    · subst hu
      have hraw : [i].filterMap (fun i => raw[i]?) = [w] := by simp [hi]
      obtain ⟨o, ho⟩ := s.unitWords_off hlen hecc hoff hdrop
      dsimp only
      rw [hraw, ho]
      exact ⟨o, List.mem_cons_self⟩
    · have hcor := (s.unitWords_corrected c u.1 u.2.1 (u.2.2.filterMap (fun i => raw[i]?))).1
      generalize s.unitWords c u.1 u.2.1 (u.2.2.filterMap (fun i => raw[i]?)) = a at *
      have hcfg : a.2.cfgAt c = s.cfgAt c := (congrArg (fun x : State => x.cfgAt c) hcor.frame).trans rfl
      have hpll : a.2.pllGapAt c = s.pllGapAt c := (congrArg (fun x : State => x.pllGapAt c) hcor.frame).trans rfl
      have hcal : a.2.calHeldAt n c = s.calHeldAt n c := (congrArg (fun x : State => x.calHeldAt n c) hcor.frame).trans rfl
      have hregs : a.2.regs = s.regs := (congrArg State.regs hcor.frame).trans rfl
      have hfence := State.fencedBy_congr hregs (hcor.fenced n) c
      obtain ⟨o, ho⟩ := ih a.2 (by rw [hcfg]; exact hoff) (by rw [hpll, hcal, hfence]; exact hdrop) hu
      exact ⟨o, List.mem_cons_of_mem _ ho⟩

theorem unitsOf_nodup (r : RegTab) (q : Nat) : ((unitsOf r q).map Prod.fst).Nodup := by
  unfold unitsOf
  simp only [List.flatMap_cons, List.flatMap_nil, List.append_nil]
  split <;> split <;> simp <;> omega

theorem mem_unitsOf {r : RegTab} {q n : Nat} {i : Fin 4} (hn : n = 4 * q + i) (hpair : paired r n = false) : (n, [n], [i.val]) ∈ unitsOf r q := by
  have hpair0 : ∀ e, e / 2 = n / 2 → paired r e = false := fun e he => by
    unfold paired at hpair ⊢
    rw [he]
    exact hpair
  subst hn
  unfold unitsOf
  simp only [List.flatMap_cons, List.flatMap_nil, List.append_nil]
  have hlow : i.val / 2 = 0 → paired r (4 * q) = false := fun h => hpair0 _ (by omega)
  have hhigh : i.val / 2 = 1 → paired r (4 * q + 2) = false := fun h => hpair0 _ (by omega)
  match i with
  | ⟨0, _⟩ => simp [hlow (by simp)]
  | ⟨1, _⟩ => simp [hlow (by simp)]
  | ⟨2, _⟩ => simp [hhigh (by simp)]
  | ⟨3, _⟩ => simp [hhigh (by simp)]

/-! ### The region's words (R10, R35) -/

/-- A region's words after the arrays' correction. -/
def State.routed (s : State) (q c : Nat) (raw : List RawWord) : State :=
  (s.regionWords c raw (unitsOf (s.cfgAt c) q)).1.foldl (fun t u => t.deliverUnit c (s.regionWords c raw (unitsOf (s.cfgAt c) q)).1 u)
    (s.regionWords c raw (unitsOf (s.cfgAt c) q)).2

/-- What follows the words: die-link errors, and the tally unit's records that are complete. -/
def State.routedAfter (s : State) (q c : Nat) (us : List Unit_) : State := (us.foldl (fun t u => t.eccUnit c u) s).tallyWord q c

theorem State.regionWord_eq (q c : Nat) (raw : List RawWord) : s.regionWord q c raw =
    (((s.at_ (c + 40)).gapSyncAll).routed q c raw).routedAfter q c
      ((s.at_ (c + 40)).gapSyncAll.regionWords c raw (unitsOf ((s.at_ (c + 40)).gapSyncAll.cfgAt c) q)).1 := rfl

theorem State.routedAfter_wordShare (q c : Nat) (us : List Unit_) : wordShare.Only s (s.routedAfter q c us) :=
  (Share.Only.foldl (fun t u => State.eccUnit t c u) us (fun t u _ => t.eccUnit_wordShare c u) s).trans (State.tallyWord_wordShare _ q c)

theorem State.routed_routerShare (q c : Nat) (raw : List RawWord) : routerShare.Only s (s.routed q c raw) :=
  (s.regionWords_wordShare c raw _).onRouter.trans (State.deliverUnits_shared _ c _ _)

theorem State.routed_head {q c n : Nat} {i : Fin 4} {w : RawWord} {raw : List RawWord} (hn : n = 4 * q + i) (hi : raw[i.val]? = some w)
    (hlen : w.x.length = 64) (hecc : w.eccBad = false) (hpair : paired (s.cfgAt c) n = false)
    (hoff : (s.cfgAt c).bit (F.CONV_CH_CTRL_CORR_OFF n) = true)
    (hdrop : (s.pllGapAt c || s.calHeldAt n c || s.fencedBy n c) = false) :
    ∃ m, (Tab.get [] (s.routed q c raw).words n).head? = some (c, w.x, m) := by
  have hmem := mem_unitsOf (q := q) hn hpair
  obtain ⟨o, ho⟩ := s.regionWords_off (raw := raw) hi hlen hecc hoff hdrop hmem
  have hnodup := unitsOf_nodup (s.cfgAt c) q
  rw [← s.regionWords_corrected c raw] at hnodup
  have hshare := s.regionWords_wordShare c raw (unitsOf (s.cfgAt c) q)
  unfold State.routed
  generalize s.regionWords c raw (unitsOf (s.cfgAt c) q) = r at *
  exact State.deliverUnits_head _ r.1 r.1 hlen ((paired_of_wordShare hshare c n).trans hpair) ho hnodup

/-- What the words of a region find: the gaps are up to date, and nothing that decides a word has changed. -/
theorem State.gapSyncAll_decides {c n : Nat} : (∀ f : Fld, f.off < 0x500000 → (s.gapSyncAll.cfgAt c).fld f = (s.cfgAt c).fld f) ∧
    s.gapSyncAll.pllGapAt c = s.pllGapAt c ∧ s.gapSyncAll.calHeldAt n c = s.calHeldAt n c ∧ s.gapSyncAll.fencedBy n c = s.fencedBy n c := by
  have h : bookShare.Only s s.gapSyncAll := .foldl _ _ (fun t g _ => .ite (.refl _ _) (t.gapSync_booked g).share) s
  generalize s.gapSyncAll = t at *
  have hhist : t.hist = s.hist := (congrArg State.hist h.frame).trans rfl
  have hlow : ∀ off, off < 0x500000 → t.regs.word off = s.regs.word off := fun off ho => h.word off (by
    simp only [bookShare]
    omega)
  refine ⟨fun f hf => ?_, (congrArg (fun x : State => x.pllGapAt c) h.frame).trans rfl, (congrArg (fun x : State => x.calHeldAt n c) h.frame).trans rfl, ?_⟩
  · unfold State.cfgAt
    rw [hhist]
    exact RegTab.fld_congr (cfgIn_word (hlow _ hf) c s.hist)
  · have hchan : t.chan n = s.chan n := chan_of_chans ((congrArg State.chans h.frame).trans rfl) n
    have hmask : t.fenceMask = s.fenceMask := by
      unfold State.fenceMask State.getN
      rw [RegTab.wide_congr 2 R.CONV_FENCE_CH fun j h1 h2 => hlow j (by
        simp only [R.CONV_FENCE_CH] at h2
        omega)]
    unfold State.fencedBy
    rw [hchan, hmask]

end

/-- Settles O17: the arrays' correction, the consumers and what follows them leave a history alone; a word joins its channel's own. -/
theorem wordsReachTheRouter : Obligations.WordsReachTheRouter := by
  unfold Obligations.WordsReachTheRouter
  have hgo : ∀ (q : Fin 12) (c : Nat) (words : List RawWord) (s : State), words.length = 4 → words.all RawWord.wf = true →
      exec (.sampleWordDelivery q c words) s = .next (s.regionWord q c words) := fun q c words s h1 h2 => if_pos ⟨h1, h2⟩
  refine ⟨fun q c words s h1 h2 => ?_, fun q c words i n w s h1 h2 hn hw hecc hpair hoff hmask hfence hpll hcal => ?_, fun q c words s h1 => ?_⟩
  · have hexec := hgo q c words s h1 h2
    have hat : (s.at_ (c + 40)).lcnt = max s.lcnt (c + 40) := rfl
    have hall : routerShare.Only (s.at_ (c + 40)) (s.regionWord q c words) := by
      rw [s.regionWord_eq]
      exact ((State.gapSyncAll_wordShare _).onRouter.trans (State.routed_routerShare _ _ _ _)).trans (State.routedAfter_wordShare _ _ _ _).onRouter
    generalize s.regionWord q c words = t at *
    have hlcnt : t.lcnt = max s.lcnt (c + 40) := (congrArg State.lcnt hall.frame).trans rfl
    refine ⟨t, hexec, hlcnt, (fewCommandsWriteTheMemories _ _ _ hexec).2, ?_⟩
    rw [hlcnt]
    exact hall.frame
  · refine ⟨_, hgo q c words s h1 h2, ?_⟩
    obtain ⟨hcfg, hpll', hcal', hfence'⟩ := (s.at_ (c + 40)).gapSyncAll_decides (c := c) (n := n)
    have hwf : w.x.length = 64 := by
      have h := List.all_eq_true.mp h2 w (List.mem_of_getElem? hw)
      simp only [RawWord.wf, Bool.and_eq_true, beq_iff_eq] at h
      exact h.1.1.1
    have hdrop : ((s.at_ (c + 40)).pllGapAt c || (s.at_ (c + 40)).calHeldAt n c || (s.at_ (c + 40)).fencedBy n c) = false := by
      have h : (s.at_ (c + 40)).fencedBy n c = false := by
        have hc : ((s.at_ (c + 40)).chan n).fencedAt = none := hfence
        unfold State.fencedBy
        rw [hc]
        exact hmask
      rw [h, Bool.or_false, Bool.or_eq_false_iff]
      exact ⟨hpll, hcal⟩
    have hlow : (F.CONV_CH_CTRL_CORR_OFF n).off < 0x500000 := by
      simp only [F.CONV_CH_CTRL_CORR_OFF]
      omega
    rw [s.regionWord_eq]
    generalize (s.at_ (c + 40)).gapSyncAll = u at *
    have hpair' : paired (u.cfgAt c) n = false := by
      unfold paired
      rw [hcfg _ (by decide)]
      exact hpair
    have hoff' : (u.cfgAt c).bit (F.CONV_CH_CTRL_CORR_OFF n) = true := by
      rw [RegTab.bit_congr (hcfg _ hlow)]
      exact hoff
    obtain ⟨m, hm⟩ := u.routed_head (q := q) hn hw hwf hecc hpair' hoff' (by rw [hpll', hcal', hfence']; exact hdrop)
    have hafter := (u.routed q c words).routedAfter_wordShare q c (u.regionWords c words (unitsOf (u.cfgAt c) q)).1
    have hwords := (congrArg State.words hafter.frame).trans rfl
    exact ⟨m, by rw [hwords]; exact hm⟩
  · exact if_neg (fun h => h1 h.1)

end Sys2Proof.Machine
end

section
/-! SUPPORT. Slots that free and records that are released (R122, R123, R137). -/

namespace Sys2Proof.Machine

open Sys2Proof.Safety

section
variable (s : State) (g : Nat)

/-! ### The registers of a group's slots (R122) -/

theorem State.showOldest_ringOnly : changesOnly (ringFlds g) s (s.showOldest g) := by
  unfold State.showOldest
  split
  · exact (changesOnly.refl _ s).put (f := F.REC_GRP_OLDEST_EMPTY g) (by simp [ringFlds])
  · have h0 := (changesOnly.refl (ringFlds g) s).put (f := F.REC_GRP_OLDEST_EMPTY g) (v := 0) (by simp [ringFlds])
    exact h0.put (f := F.REC_GRP_OLDEST_LPAGE g) (by simp [ringFlds])

theorem State.showPressure_only : changesOnly [F.REC_GRP_STATUS_PRESSURE g] s (s.showPressure g) :=
  (changesOnly.refl _ s).put (f := F.REC_GRP_STATUS_PRESSURE g) (by simp)

theorem State.freeSlot_only (num : Nat) : changesOnly (ringFlds g ++ gapFlds g) s (s.freeSlot g num) := by
  have hring : ∀ {u v : State}, changesOnly (ringFlds g) u v → changesOnly (ringFlds g ++ gapFlds g) u v := fun h =>
    h.mono fun f hf => List.mem_append_left _ hf
  unfold State.freeSlot
  dsimp only
  generalize hu : s.setGrp g { s.grp g with slots := (s.grp g).slots.filter (fun x => x.num != num) } = u
  have hset : changesOnly (ringFlds g ++ gapFlds g) s u := hu ▸ .setGrp _ _ _
  have h1 := hring (u.showOldest_ringOnly g)
  generalize u.showOldest g = v at *
  have h2 : changesOnly (ringFlds g ++ gapFlds g) v (v.showPressure g) := (v.showPressure_only g).mono (by simp [ringFlds])
  generalize v.showPressure g = w at *
  exact ((hset.trans h1).trans h2).trans ((w.holdWatch_gapOnly g).mono fun f hf => List.mem_append_right _ hf)

/-- Of the slots one is gone. -/
theorem State.freeSlot_slots (num : Nat) : ((s.freeSlot g num).grp g).slots = (s.grp g).slots.filter (fun y => y.num != num) ∧
    (∀ k, k ≠ g → (s.freeSlot g num).grp k = s.grp k) := by
  unfold State.freeSlot
  dsimp only
  have hset := s.grp_setGrp_same g { s.grp g with slots := (s.grp g).slots.filter (fun x => x.num != num) }
  have hother : ∀ k, k ≠ g → (s.setGrp g { s.grp g with slots := (s.grp g).slots.filter (fun x => x.num != num) }).grp k = s.grp k :=
    fun k hk => s.grp_setGrp_other hk _
  generalize s.setGrp g { s.grp g with slots := (s.grp g).slots.filter (fun x => x.num != num) } = u at *
  have hbook := ((u.showOldest_booked g).trans ((u.showOldest g).showPressure_booked g)).trans (((u.showOldest g).showPressure g).holdWatch_booked g)
  generalize ((u.showOldest g).showPressure g).holdWatch g = t at *
  exact ⟨((congrArg Grp.slots hbook.book).trans rfl).trans ((congrArg Grp.slots hset).trans rfl), fun k hk => (hbook.other k hk).trans (hother k hk)⟩

theorem State.skipsDue_of_none (h : s.abaSkip = []) : s.skipsDue = s := by
  unfold State.skipsDue
  rw [h]
  show { s with abaSkip := [] } = s
  rw [← h]

theorem State.release_of_ready {x : Slot} (hr : (s.grp g).slots.find? (fun y => y.ready) = some x)
    (hn : (s.grp g).slots.find? (fun y => y.num == x.num) = some x) : s.release g = if x.measured = true then s.freeSlot g x.num
      else s.setGrp g { s.grp g with slots := (s.grp g).slots.map (fun y => if y.num = x.num then { y with relReq := true } else y) } := by
  unfold State.release
  rw [hr]
  unfold State.releaseSlot
  dsimp only
  rw [hn]

/-! ### A slot frees under HOLD (R123) -/

/-- What a slot finds that frees under HOLD: the gap has ended. -/
def State.freed (s : State) (g : Nat) : State :=
  ((s.endLoss g 2 s.lcnt).endLoss g 3 s.lcnt).setGrp g { ((s.endLoss g 2 s.lcnt).endLoss g 3 s.lcnt).grp g with hold := false, wrapHold := false }

theorem exec_slotFreed {g : Fin 16} (hh : (s.grp g).hold = true) (ha : (s.grp g).armed = true) (hs : (s.grp g).stopReq = none)
    (hc : isCont s.regs g = false) (hf : (s.grp g).slotFree (s.nextLpage g (layoutOf s.regs g).pages) (layoutOf s.regs g).pages = true) :
    exec (.slotFreed g) s = .next ((((s.freed g).claim g s.lcnt).beginAccept g s.lcnt).gapSync g) := by
  have hopen : s.contOpens g s.lcnt = true := by
    unfold State.contOpens
    rw [hs]
  have hnow : s.slotNow g = true := by
    unfold State.slotNow
    simp [hf]
  have hgo : (s.grp g).hold = true ∧ (s.grp g).armed = true ∧ s.contOpens g s.lcnt = true ∧ s.slotNow g = true := ⟨hh, ha, hopen, hnow⟩
  refine congrArg Host.Outcome.next ((if_pos hgo).trans (if_neg ?_))
  rw [hc]
  decide

theorem State.freed_booked : (s.freed g).regs = s.regs ∧ (s.freed g).lcnt = s.lcnt ∧ (∀ k, k ≠ g → (s.freed g).grp k = s.grp k) ∧
    ((s.freed g).grp g).hold = false ∧ ((s.freed g).grp g).region = (s.grp g).region ∧ ((s.freed g).grp g).slots = (s.grp g).slots ∧
    ((s.freed g).grp g).head = (s.grp g).head ∧ ((s.freed g).grp g).stopReq = (s.grp g).stopReq ∧
    s.freed g = { s with grps := (s.freed g).grps } := by
  have hbook := (s.endLoss_booked g 2 s.lcnt).trans (State.endLoss_booked _ g 3 s.lcnt)
  have hframe : (s.endLoss g 2 s.lcnt).endLoss g 3 s.lcnt = { s with grps := ((s.endLoss g 2 s.lcnt).endLoss g 3 s.lcnt).grps } := rfl
  unfold State.freed
  generalize (s.endLoss g 2 s.lcnt).endLoss g 3 s.lcnt = u at *
  have hset := u.grp_setGrp_same g { u.grp g with hold := false, wrapHold := false }
  have hother : ∀ k, k ≠ g → (u.setGrp g { u.grp g with hold := false, wrapHold := false }).grp k = s.grp k :=
    fun k hk => (u.grp_setGrp_other hk _).trans (hbook.other k hk)
  have hsetFrame : u.setGrp g { u.grp g with hold := false, wrapHold := false } =
    { u with grps := (u.setGrp g { u.grp g with hold := false, wrapHold := false }).grps } := rfl
  generalize u.setGrp g { u.grp g with hold := false, wrapHold := false } = v at *
  have hv : v = { s with grps := v.grps } := by rw [hsetFrame, hframe]
  refine ⟨(congrArg State.regs hv).trans rfl, (congrArg State.lcnt hv).trans rfl, hother, (congrArg Grp.hold hset).trans rfl,
    ((congrArg Grp.region hset).trans rfl).trans ((congrArg Grp.region hbook.book).trans rfl),
    ((congrArg Grp.slots hset).trans rfl).trans ((congrArg Grp.slots hbook.book).trans rfl),
    ((congrArg Grp.head hset).trans rfl).trans ((congrArg Grp.head hbook.book).trans rfl),
    ((congrArg Grp.stopReq hset).trans rfl).trans ((congrArg Grp.stopReq hbook.book).trans rfl), hv⟩

/-! ### The next slot is claimed and the group accepts (R90, R122) -/

/-- The slot from logical page l of a group is claimed, where it is free. -/
structure Claimed (g l : Nat) (s t : State) : Prop where
  only : changesOnly [F.REC_GRP_STATUS_PRESSURE g] s t
  grp : t.grp g = { s.grp g with claim := some l, winMask := s.grpMask g }
  other : ∀ k, k ≠ g → t.grp k = s.grp k
  pressure : t.flag (F.REC_GRP_STATUS_PRESSURE g) = false
  frame : t = { s with regs := t.regs, grps := t.grps }
  word : ∀ off, off ≠ R.REC_GRP_STATUS g → t.regs.word off = s.regs.word off

theorem State.takeClaim_claimed (l : Nat)
    (hf : (s.grp g).slotFree (s.nextLpage g (layoutOf s.regs g).pages) (layoutOf s.regs g).pages = true) : Claimed g l s (s.takeClaim g l) := by
  unfold State.takeClaim
  have hset := s.grp_setGrp_same g { s.grp g with claim := some l, winMask := s.grpMask g }
  have hother : ∀ k, k ≠ g → (s.setGrp g { s.grp g with claim := some l, winMask := s.grpMask g }).grp k = s.grp k :=
    fun k hk => s.grp_setGrp_other hk _
  have honly : changesOnly [F.REC_GRP_STATUS_PRESSURE g] s (s.setGrp g { s.grp g with claim := some l, winMask := s.grpMask g }) := .setGrp _ _ _
  have hregs : (s.setGrp g { s.grp g with claim := some l, winMask := s.grpMask g }).regs = s.regs := rfl
  have hframe : s.setGrp g { s.grp g with claim := some l, winMask := s.grpMask g } =
    { s with grps := (s.setGrp g { s.grp g with claim := some l, winMask := s.grpMask g }).grps } := rfl
  generalize s.setGrp g { s.grp g with claim := some l, winMask := s.grpMask g } = v at *
  have hfree : (v.grp g).slotFree (v.nextLpage g (layoutOf v.regs g).pages) (layoutOf v.regs g).pages = true := by
    have hslots : (v.grp g).slots = (s.grp g).slots := (congrArg Grp.slots hset).trans rfl
    have hhead : (v.grp g).head = (s.grp g).head := (congrArg Grp.head hset).trans rfl
    simp only [State.nextLpage, Grp.slotFree, hslots, hhead, hregs] at hf ⊢
    exact hf
  have hshow : v.showPressure g = v.putB (F.REC_GRP_STATUS_PRESSURE g) false := by
    unfold State.showPressure
    dsimp only
    rw [hfree]
    rfl
  rw [hshow]
  refine ⟨honly.put (by simp), hset, hother, ?_, (congrArg (fun x : State => { x with regs := (v.putB (F.REC_GRP_STATUS_PRESSURE g) false).regs }) hframe).trans rfl, fun off ho => ?_⟩
  · simp (disch := first | exact .of rfl (by omega) | omega) [State.flag, State.putB]
  · exact (RegTab.word_setFld_other _ _ _ _ ho).trans (congrArg (fun r : RegTab => r.word off) hregs)

theorem State.claim_of_free (x : Nat)
    (hf : (s.grp g).slotFree (s.nextLpage g (layoutOf s.regs g).pages) (layoutOf s.regs g).pages = true) :
    s.claim g x = s.takeClaim g (s.nextLpage g (layoutOf s.regs g).pages) := if_pos hf

/-- A group with a claimed slot fills or accepts. -/
structure Accepting (g x : Nat) (s t : State) : Prop where
  only : changesOnly [F.TRG_GRP_STATUS_STATE g] s t
  grp : t.grp g = { s.grp g with readyFrom := (t.grp g).readyFrom }
  other : ∀ k, k ≠ g → t.grp k = s.grp k
  state : t.get (F.TRG_GRP_STATUS_STATE g) =
    (if s.flag (F.TRG_GRP_CTRL_PRE_WAIT g) = true ∧ x < (s.grp g).region + preCyc s.regs g then 1 else 2)
  frame : t = { s with regs := t.regs, grps := t.grps }

theorem State.beginAccept_accepting {l x : Nat} (hc : (s.grp g).claim = some l) (hs : (s.grp g).stopReq = none) :
    Accepting g x s (s.beginAccept g x) := by
  have hstate : ∀ (u : State) (v : Nat), v < 16 → (u.put (F.TRG_GRP_STATUS_STATE g) v).get (F.TRG_GRP_STATUS_STATE g) = v := fun u v hv => by
    have hw : (F.TRG_GRP_STATUS_STATE g).width = 4 := rfl
    simp (disch := first | exact .of rfl (by omega) | omega) [State.get, hw, Nat.mod_eq_of_lt hv]
  have hacc : s.beginAccept g x = if (s.flag (F.TRG_GRP_CTRL_PRE_WAIT g) && decide (x < (s.grp g).region + preCyc s.regs g)) = true then
      s.put (F.TRG_GRP_STATUS_STATE g) 1 else (s.setGrp g { s.grp g with readyFrom := some x }).put (F.TRG_GRP_STATUS_STATE g) 2 := by
    unfold State.beginAccept
    dsimp only
    split
    · rfl
    · next h =>
      rw [hs] at h
      cases h
    · next h _ =>
      rw [hc] at h
      cases h
    · next h _ =>
      rw [hc] at h
      cases h
  rw [hacc]
  by_cases hfill : s.flag (F.TRG_GRP_CTRL_PRE_WAIT g) = true ∧ x < (s.grp g).region + preCyc s.regs g
  · have hb : (s.flag (F.TRG_GRP_CTRL_PRE_WAIT g) && decide (x < (s.grp g).region + preCyc s.regs g)) = true := by simpa using hfill
    rw [if_pos hb]
    exact ⟨(changesOnly.refl _ s).put (by simp), rfl, fun _ _ => rfl, (hstate _ 1 (by omega)).trans (if_pos hfill).symm, rfl⟩
  · have hb : (s.flag (F.TRG_GRP_CTRL_PRE_WAIT g) && decide (x < (s.grp g).region + preCyc s.regs g)) = false := by
      simpa using hfill
    rw [if_neg (by rw [hb]; decide)]
    have hset := s.grp_setGrp_same g { s.grp g with readyFrom := some x }
    have hother : ∀ k, k ≠ g → (s.setGrp g { s.grp g with readyFrom := some x }).grp k = s.grp k := fun k hk => s.grp_setGrp_other hk _
    have honly : changesOnly [F.TRG_GRP_STATUS_STATE g] s (s.setGrp g { s.grp g with readyFrom := some x }) := .setGrp _ _ _
    have hframe : s.setGrp g { s.grp g with readyFrom := some x } = { s with grps := (s.setGrp g { s.grp g with readyFrom := some x }).grps } := rfl
    generalize s.setGrp g { s.grp g with readyFrom := some x } = v at *
    refine ⟨honly.put (by simp), hset.trans ?_, hother, (hstate v 2 (by omega)).trans (if_neg hfill).symm,
      (congrArg (fun y : State => { y with regs := (v.put (F.TRG_GRP_STATUS_STATE g) 2).regs }) hframe).trans rfl⟩
    have hr : ((v.put (F.TRG_GRP_STATUS_STATE g) 2).grp g).readyFrom = some x := (congrArg Grp.readyFrom hset).trans rfl
    rw [hr]

/-- A register field apart from those of the group's gaps reads as it did. -/
theorem State.gapSync_get {f : Fld} (hok : f.ok) (hf : ∀ x ∈ gapFlds g, x.apart f) : (s.gapSync g).get f = s.get f :=
  (s.gapSync_gapOnly g).1 f hok hf

theorem state_apart_gapFlds : ∀ x ∈ gapFlds g, x.apart (F.TRG_GRP_STATUS_STATE g) := by
  have hoff : ∀ x ∈ gapFlds g, 0x500000 + 0x100 * g ≤ x.off := by
    simp [gapFlds, wideFlds, wordFld, List.range_succ, R.REC_GRP_GAP_OPEN, F.REC_GRP_STATUS_GAP_OVF, F.REC_GRP_GAP_OVF_CNT_COUNT, F.REC_GRP_STATUS_GAP_OPEN]
    omega
  intro x hx
  have := hoff x hx
  exact .inl (by
    show x.off ≠ 0x408064 + 0x100 * g
    omega)

theorem pressure_apart_gapFlds : ∀ x ∈ gapFlds g, x.apart (F.REC_GRP_STATUS_PRESSURE g) := by
  simp [gapFlds, wideFlds, wordFld, List.range_succ, Fld.apart, R.REC_GRP_GAP_OPEN, F.REC_GRP_STATUS_GAP_OVF, F.REC_GRP_GAP_OVF_CNT_COUNT,
    F.REC_GRP_STATUS_GAP_OPEN, F.REC_GRP_STATUS_PRESSURE]
  omega

/-! ### A slot leaves the ring (R122, R137) -/

theorem State.freeSlot_gapShare (hg : g < 16) (num : Nat) : gapShare.Only s (s.freeSlot g num) := by
  have hput : ∀ (u : State) (f : Fld) (v : Nat), 0x500000 + 0x100 * g ≤ f.off → f.off < 0x500100 + 0x100 * g → gapShare.Only u (u.put f v) :=
    fun u f v h1 h2 => .put (by
      show 0x500000 ≤ f.off ∧ f.off < 0x501000
      omega)
  unfold State.freeSlot
  dsimp only
  have hset := s.setGrp_gapShare g { s.grp g with slots := (s.grp g).slots.filter (fun x => x.num != num) }
  generalize s.setGrp g { s.grp g with slots := (s.grp g).slots.filter (fun x => x.num != num) } = u at *
  have hold : gapShare.Only u (u.showOldest g) := by
    unfold State.showOldest
    split
    · exact hput _ (F.REC_GRP_OLDEST_EMPTY g) 1 (by simp only [F.REC_GRP_OLDEST_EMPTY]; omega) (by simp only [F.REC_GRP_OLDEST_EMPTY]; omega)
    · exact (hput _ (F.REC_GRP_OLDEST_EMPTY g) 0 (by simp only [F.REC_GRP_OLDEST_EMPTY]; omega) (by simp only [F.REC_GRP_OLDEST_EMPTY]; omega)).trans
        (hput _ (F.REC_GRP_OLDEST_LPAGE g) _ (by simp only [F.REC_GRP_OLDEST_LPAGE]; omega) (by simp only [F.REC_GRP_OLDEST_LPAGE]; omega))
  generalize u.showOldest g = v at *
  have hpress : gapShare.Only v (v.showPressure g) :=
    hput _ (F.REC_GRP_STATUS_PRESSURE g) _ (by simp only [F.REC_GRP_STATUS_PRESSURE]; omega) (by simp only [F.REC_GRP_STATUS_PRESSURE]; omega)
  generalize v.showPressure g = w at *
  refine ((hset.trans hold).trans hpress).trans (.ite (.refl _ _) ?_)
  exact ((w.endLoss_gapShare g _ _).trans (State.addLoss_gapShare _ g _)).trans (State.gapSync_gapShare _ hg)

end

/-! ### O22 -/

theorem preCyc_congr {g : Nat} {r q : RegTab} (h : ∀ off, off ≠ R.REC_GRP_STATUS g → r.word off = q.word off) : preCyc r g = preCyc q g := by
  have hfar : ∀ off, off < 0x500000 → r.word off = q.word off := fun off ho => h off (by
    simp only [R.REC_GRP_STATUS]
    omega)
  have hmask : chMask r g = chMask q g := congrArg (· % 2 ^ 48) (RegTab.wide_congr 2 _ fun j h1 h2 => h j (by
    simp only [R.TRG_GRP_CH] at h1 h2
    simp only [R.REC_GRP_STATUS]
    omega))
  have hpair : ∀ n, paired r n = paired q n := fun n => congrArg (bitOf · (n / 2)) (RegTab.fld_congr (hfar _ (by decide)))
  have hpre : r.fld (F.REC_GRP_PRE_PRE g) = q.fld (F.REC_GRP_PRE_PRE g) := RegTab.fld_congr (h _ (by
    simp only [F.REC_GRP_PRE_PRE, R.REC_GRP_STATUS]
    omega))
  unfold preCyc grpN
  rw [hpre, hmask]
  simp only [hpair]

theorem exec_slotFreed_accepts {g : Fin 16} {l : Nat} {s : State} (hh : (s.grp g).hold = true) (ha : (s.grp g).armed = true)
    (hs : (s.grp g).stopReq = none) (hc : isCont s.regs g = false) (hl : l = s.nextLpage g (layoutOf s.regs g).pages)
    (hf : (s.grp g).slotFree l (layoutOf s.regs g).pages = true) : ∃ t, exec (.slotFreed g) s = .next t ∧
      (t.grp g).hold = false ∧ (t.grp g).region = (s.grp g).region ∧ (t.grp g).claim = some l ∧
      t.get (F.TRG_GRP_STATUS_STATE g) =
        (if s.flag (F.TRG_GRP_CTRL_PRE_WAIT g) = true ∧ s.lcnt < (s.grp g).region + preCyc s.regs g then 1 else 2) ∧
      t.flag (F.REC_GRP_STATUS_PRESSURE g) = false ∧ (∀ k : Nat, k ≠ g → t.grp k = s.grp k) ∧
      changesOnly ([F.TRG_GRP_STATUS_STATE g, F.REC_GRP_STATUS_PRESSURE g] ++ gapFlds g) s t ∧
      t = { s with regs := t.regs, grps := t.grps, stageFill := t.stageFill } := by
  subst hl
  refine ⟨_, exec_slotFreed s hh ha hs hc hf, ?_⟩
  obtain ⟨hregs, hlcnt, hother, hhold, hregion, hslots, hhead, hstop, hframe⟩ := s.freed_booked g
  have hfree : ((s.freed g).grp g).slotFree ((s.freed g).nextLpage g (layoutOf (s.freed g).regs g).pages) (layoutOf (s.freed g).regs g).pages = true := by
    simp only [State.nextLpage, Grp.slotFree, hslots, hhead, hregs] at hf ⊢
    exact hf
  have hlpage : (s.freed g).nextLpage g (layoutOf (s.freed g).regs g).pages = s.nextLpage g (layoutOf s.regs g).pages := by
    simp only [State.nextLpage, hhead, hregs]
  have hnone : changesOnly [F.REC_GRP_STATUS_PRESSURE g] s (s.freed g) := by
    rw [hframe]
    exact (changesOnly.refl _ s).parts rfl rfl rfl rfl
  generalize s.freed g = u at *
  rw [u.claim_of_free g s.lcnt hfree, hlpage]
  obtain ⟨conly, cgrp, cother, cpressure, cframe, cword⟩ := u.takeClaim_claimed g (s.nextLpage g (layoutOf s.regs g).pages) hfree
  generalize u.takeClaim g (s.nextLpage g (layoutOf s.regs g).pages) = v at *
  have hclaim : (v.grp g).claim = some (s.nextLpage g (layoutOf s.regs g).pages) := (congrArg Grp.claim cgrp).trans rfl
  have hvstop : (v.grp g).stopReq = none := ((congrArg Grp.stopReq cgrp).trans rfl).trans (hstop.trans hs)
  have hvregion : (v.grp g).region = (s.grp g).region := ((congrArg Grp.region cgrp).trans rfl).trans hregion
  obtain ⟨aonly, agrp, aother, astate, aframe⟩ := State.beginAccept_accepting (x := s.lcnt) v g hclaim hvstop
  have hword : ∀ off, off ≠ R.REC_GRP_STATUS g → v.regs.word off = s.regs.word off := fun off ho =>
    (cword off ho).trans (congrArg (fun r : RegTab => r.word off) hregs)
  have hprewait : v.flag (F.TRG_GRP_CTRL_PRE_WAIT g) = s.flag (F.TRG_GRP_CTRL_PRE_WAIT g) := by
    refine RegTab.bit_congr (RegTab.fld_congr (hword _ ?_))
    simp only [F.TRG_GRP_CTRL_PRE_WAIT, R.REC_GRP_STATUS]
    omega
  have hpre : preCyc v.regs g = preCyc s.regs g := preCyc_congr hword
  rw [hvregion, hprewait, hpre] at astate
  have apressure : (v.beginAccept g s.lcnt).flag (F.REC_GRP_STATUS_PRESSURE g) = false := by
    refine (RegTab.bit_congr (aonly.1 (F.REC_GRP_STATUS_PRESSURE g) (.of rfl (by omega)) ?_)).trans cpressure
    intro x hx
    rw [List.mem_singleton.mp hx]
    exact .inl (by simp only [F.TRG_GRP_STATUS_STATE, F.REC_GRP_STATUS_PRESSURE]; omega)
  generalize v.beginAccept g s.lcnt = w at *
  have hbook := w.gapSync_booked g
  have hshare := w.gapSync_gapShare g.isLt
  have hstate := w.gapSync_get g (f := F.TRG_GRP_STATUS_STATE g) (.of rfl (by omega)) (state_apart_gapFlds g)
  have hpress := w.gapSync_get g (f := F.REC_GRP_STATUS_PRESSURE g) (.of rfl (by omega)) (pressure_apart_gapFlds g)
  have honly := w.gapSync_gapOnly g
  generalize w.gapSync g = t at *
  refine ⟨?_, ?_, ?_, hstate.trans astate, ?_, ?_, ?_, ?_⟩
  · exact ((congrArg Grp.hold hbook.book).trans rfl).trans (((congrArg Grp.hold agrp).trans rfl).trans (((congrArg Grp.hold cgrp).trans rfl).trans hhold))
  · exact ((congrArg Grp.region hbook.book).trans rfl).trans (((congrArg Grp.region agrp).trans rfl).trans hvregion)
  · exact ((congrArg Grp.claim hbook.book).trans rfl).trans (((congrArg Grp.claim agrp).trans rfl).trans hclaim)
  · exact (RegTab.bit_congr hpress).trans apressure
  · exact fun k hk => (hbook.other k hk).trans ((aother k hk).trans ((cother k hk).trans (hother k hk)))
  · have h1 := (hnone.trans conly).mono (gs := [F.TRG_GRP_STATUS_STATE g, F.REC_GRP_STATUS_PRESSURE g] ++ gapFlds g) (by simp)
    exact (h1.trans (aonly.mono (by simp))).trans (honly.mono fun f hf => List.mem_append_right _ hf)
  · rw [hshare.frame, aframe, cframe, hframe]
    rfl

theorem exec_recordRelease {s : State} (h : s.abaSkip = []) (g : Fin 16) : exec (.recordRelease g) s = .next (s.release g) := by
  show Host.Outcome.next (s.skipsDue.release g) = _
  rw [s.skipsDue_of_none h]

theorem exec_recordRelease_measured {g : Fin 16} {x : Slot} {s : State} (h : s.abaSkip = [])
    (hr : (s.grp g).slots.find? (fun y => y.ready) = some x) (hn : (s.grp g).slots.find? (fun y => y.num == x.num) = some x)
    (hm : x.measured = true) : ∃ t, exec (.recordRelease g) s = .next t ∧
      (t.grp g).slots = (s.grp g).slots.filter (fun y => y.num != x.num) ∧ (∀ k : Nat, k ≠ g → t.grp k = s.grp k) ∧
      changesOnly (ringFlds g ++ gapFlds g) s t ∧ t = { s with regs := t.regs, grps := t.grps, stageFill := t.stageFill } := by
  refine ⟨s.freeSlot g x.num, ?_, (s.freeSlot_slots g x.num).1, (s.freeSlot_slots g x.num).2, s.freeSlot_only g x.num, (s.freeSlot_gapShare g g.isLt x.num).frame⟩
  rw [exec_recordRelease h, s.release_of_ready g hr hn, if_pos hm]

theorem exec_recordRelease_waits {g : Fin 16} {x : Slot} {s : State} (h : s.abaSkip = [])
    (hr : (s.grp g).slots.find? (fun y => y.ready) = some x) (hn : (s.grp g).slots.find? (fun y => y.num == x.num) = some x)
    (hm : x.measured = false) : ∃ t, exec (.recordRelease g) s = .next t ∧
      (t.grp g).slots = (s.grp g).slots.map (fun y => if y.num = x.num then { y with relReq := true } else y) ∧
      (∀ k : Nat, k ≠ g → t.grp k = s.grp k) ∧ t = { s with grps := t.grps } := by
  refine ⟨_, (exec_recordRelease h g).trans (congrArg Host.Outcome.next ((s.release_of_ready g hr hn).trans (if_neg ?_))), ?_⟩
  · rw [hm]
    decide
  · exact ⟨(congrArg Grp.slots (s.grp_setGrp_same g _)).trans rfl, fun k hk => s.grp_setGrp_other hk _, rfl⟩

/-- Settles O22: a slot that frees under HOLD is claimed and the group accepts; a release frees the oldest ready record's slot or waits. -/
theorem slotsFreeAndRelease : Obligations.SlotsFreeAndRelease := by
  refine ⟨fun g l s hh ha hs hc hl hf => exec_slotFreed_accepts hh ha hs hc hl hf, fun g s h => congrArg Host.Outcome.next (if_neg ?_),
    fun g x s h hr hn => ⟨fun hm => exec_recordRelease_measured h hr hn hm, fun hm => exec_recordRelease_waits h hr hn hm⟩, fun g s h hr => ?_⟩
  · rintro ⟨hh, ha, -⟩
    rcases h with h | h
    · rw [h] at hh
      cases hh
    · rw [h] at ha
      cases ha
  · rw [exec_recordRelease h]
    unfold State.release
    rw [hr]

end Sys2Proof.Machine
end

section
/-! SUPPORT. Hit databases draw and decay (R143-R146, R150). -/

namespace Sys2Proof.Machine

open Sys2Proof.Safety

/-! ### A waveform is drawn (R144) -/

theorem Db.drawAll_drawn (x : Db) (mode step t k : Nat) (l : List Nat) : (x.drawAll mode step t k l).1.drawn = x.drawn := by
  induction l generalizing x k with
  | nil => rfl
  | cons i is ih => exact (ih (x.update mode step (t + k / 32) i).1 (k + 1)).trans rfl

section
variable {s : State} {j : HitJob} {rest : List HitJob}

theorem exec_hitWaveformDraw_fenced (hq : s.hitQ = j :: rest) (hf : bitOf s.fenceMask j.ch = true) :
    ∃ t, exec .hitWaveformDraw s = .next t ∧ t.hitQ = rest ∧
      (t.db j.d).cells = (s.db j.d).cells ∧ (t.db j.d).skipped = (s.db j.d).skipped + 1 ∧
      t.get (F.TAL_DB_SKIP_CNT_COUNT j.d) = min (s.get (F.TAL_DB_SKIP_CNT_COUNT j.d) + 1) (2 ^ 32 - 1) ∧
      changesOnly [F.TAL_DB_SKIP_CNT_COUNT j.d] s t ∧ t = { s with regs := t.regs, dbs := t.dbs, hitQ := t.hitQ } := by
  have hdraw : s.hitDraw = ({ s with hitQ := rest } : State).dbSkip j.d := by
    unfold State.hitDraw
    rw [hq]
    exact if_pos hf
  refine ⟨_, congrArg Host.Outcome.next hdraw, rfl, ?_, ?_, ?_, ?_, rfl⟩
  · exact (congrArg Db.cells (({ s with hitQ := rest } : State).setDb_db_same j.d _)).trans rfl
  · exact (congrArg Db.skipped (({ s with hitQ := rest } : State).setDb_db_same j.d _)).trans rfl
  · exact State.get_incSat_width (w := 32) _ (F.TAL_DB_SKIP_CNT_COUNT j.d) (.of rfl (by omega)) rfl
  · exact ((changesOnly.refl _ s).parts (t := ({ s with hitQ := rest } : State).setDb j.d _) rfl rfl rfl rfl).put (by simp)

/-- When the engine has finished the waveform at the head of its queue. -/
def State.drawnAt (s : State) (j : HitJob) : Nat := s.hitStart j + max 125 (ceilDiv j.cells.length 32)

/-- The database with the waveform drawn, and whether a cell saturated. -/
def State.drawnDb (s : State) (j : HitJob) : Db × Bool :=
  (s.db j.d).drawAll (s.get (F.TAL_DB_DECAY_MODE j.d)) (s.get (F.TAL_DB_DECAY_STEP j.d)) (s.hitStart j) 0 j.cells

/-- The head of the queue drawn, its count not yet shown. -/
def State.drawHead (s : State) (j : HitJob) (rest : List HitJob) : State :=
  ({ s.at_ (s.drawnAt j) with hitQ := rest, hitEnd := s.drawnAt j } : State).setDb j.d
    { (s.drawnDb j).1 with drawn := (s.drawnDb j).1.drawn + 1 }

theorem State.hitDraw_drawn (hq : s.hitQ = j :: rest) (hf : bitOf s.fenceMask j.ch = false) : s.hitDraw =
    if (s.drawnDb j).2 = true then ((s.drawHead j rest).incWrap (F.TAL_DB_WFM_CNT_COUNT j.d)).setF (F.TAL_DB_STATUS_SAT j.d)
    else (s.drawHead j rest).incWrap (F.TAL_DB_WFM_CNT_COUNT j.d) := by
  unfold State.hitDraw
  rw [hq]
  refine (if_neg ?_).trans rfl
  rw [hf]
  decide

/-- The count and the saturation bit of a database. -/
theorem State.drawnRegs (u : State) (d : Nat) (sat : Bool) (t : State)
    (ht : t = if sat = true then (u.incWrap (F.TAL_DB_WFM_CNT_COUNT d)).setF (F.TAL_DB_STATUS_SAT d) else u.incWrap (F.TAL_DB_WFM_CNT_COUNT d)) :
    t.flag (F.TAL_DB_STATUS_SAT d) = (u.flag (F.TAL_DB_STATUS_SAT d) || sat) ∧
    t.get (F.TAL_DB_WFM_CNT_COUNT d) = (u.get (F.TAL_DB_WFM_CNT_COUNT d) + 1) % 2 ^ 32 ∧
    changesOnly [F.TAL_DB_WFM_CNT_COUNT d, F.TAL_DB_STATUS_SAT d] u t ∧ t = { u with regs := t.regs } := by
  have hcnt : (u.incWrap (F.TAL_DB_WFM_CNT_COUNT d)).get (F.TAL_DB_WFM_CNT_COUNT d) = (u.get (F.TAL_DB_WFM_CNT_COUNT d) + 1) % 2 ^ 32 :=
    State.get_incWrap_width (w := 32) _ _ (.of rfl (by omega)) rfl
  have hsat : (u.incWrap (F.TAL_DB_WFM_CNT_COUNT d)).flag (F.TAL_DB_STATUS_SAT d) = u.flag (F.TAL_DB_STATUS_SAT d) :=
    RegTab.bit_setFld_sep _ _ (.of rfl (by omega))
  have honly : changesOnly [F.TAL_DB_WFM_CNT_COUNT d, F.TAL_DB_STATUS_SAT d] u (u.incWrap (F.TAL_DB_WFM_CNT_COUNT d)) :=
    (changesOnly.refl _ u).put (by simp)
  cases sat with
  | false =>
    subst ht
    exact ⟨hsat.trans (Bool.or_false _).symm, hcnt, honly, rfl⟩
  | true =>
    subst ht
    refine ⟨(RegTab.bit_setFld_one _ (.of rfl (by omega))).trans (Bool.or_true _).symm, ?_, honly.put (by simp), rfl⟩
    exact (RegTab.fld_setFld_sep _ _ (.of rfl (by omega))).trans hcnt

end

/-! ### Sweeps (R145) -/

/-- Of the block only database d has changed, and whether it decays. -/
structure SweptOn (d : Nat) (s t : State) : Prop where
  other : ∀ i, i ≠ d → t.db i = s.db i
  only : changesOnly [F.TAL_DB_STATUS_DECAYING d] s t
  frame : t = { s with lcnt := t.lcnt, regs := t.regs, dbs := t.dbs }

section
variable {d : Nat} {s t u : State}

theorem SweptOn.refl (d : Nat) (s : State) : SweptOn d s s := ⟨fun _ _ => rfl, .refl _ s, rfl⟩

theorem SweptOn.trans (h : SweptOn d s t) (k : SweptOn d t u) : SweptOn d s u where
  other i hi := (k.other i hi).trans (h.other i hi)
  only := h.only.trans k.only
  frame := k.frame.trans ((congrArg (fun x : State => { x with lcnt := u.lcnt, regs := u.regs, dbs := u.dbs }) h.frame).trans rfl)

theorem SweptOn.at_setDb (x : Nat) (v : Db) : SweptOn d s ((s.at_ x).setDb d v) where
  other i hi := State.setDb_db_other _ d i v hi
  only := (changesOnly.refl _ s).parts rfl rfl rfl rfl
  frame := rfl

theorem SweptOn.setDb (v : Db) : SweptOn d s (s.setDb d v) where
  other i hi := State.setDb_db_other _ d i v hi
  only := (changesOnly.refl _ s).parts rfl rfl rfl rfl
  frame := rfl

theorem SweptOn.decaying (v : Nat) : SweptOn d s (s.put (F.TAL_DB_STATUS_DECAYING d) v) :=
  ⟨fun _ _ => rfl, (changesOnly.refl _ s).put (by simp), rfl⟩

end

section
variable (s : State) (d : Nat)

/-- The cells after a sweep. -/
def State.decayed (s : State) (d : Nat) (done : List Nat) : Tab Nat :=
  ((s.db d).cells.map (fun p => (p.1, if done.contains p.1 then p.2
    else decayOf (s.get (F.TAL_DB_DECAY_MODE d)) (s.get (F.TAL_DB_DECAY_STEP d)) p.2))).filter (fun p => p.2 != 0)

/-- The first count of a cell, decayed unless an update reached it, is the count a sweep leaves when it is not zero. -/
theorem Tab.get_decayed (f : Nat → Nat → Nat) (t : Tab Nat) {i v : Nat} (h0 : f i 0 = 0) (hv : v = f i (Tab.get 0 t i)) (hne : v ≠ 0) :
    Tab.get 0 ((t.map (fun p => (p.1, f p.1 p.2))).filter (fun p => p.2 != 0)) i = v := by
  induction t with
  | nil => exact absurd (hv.trans h0) hne
  | cons p rest ih =>
    by_cases hp : p.1 = i
    · have hget : Tab.get 0 (p :: rest) i = p.2 := if_pos hp
      rw [hget, ← hp] at hv
      have hkeep : (f p.1 p.2 != 0) = true := by simpa [← hv] using hne
      rw [List.map_cons, List.filter_cons_of_pos (by exact hkeep)]
      exact (if_pos hp).trans hv.symm
    · have hget : Tab.get 0 (p :: rest) i = Tab.get 0 rest i := if_neg hp
      rw [hget] at hv
      rw [List.map_cons, List.filter_cons]
      split
      · exact (if_neg hp).trans (ih hv)
      · exact ih hv

theorem decayOf_zero (mode step : Nat) : decayOf mode step 0 = 0 := by
  unfold decayOf
  split <;> simp

theorem State.get_decayed (done : List Nat) {i v : Nat} (hv : v = (if i ∈ done then Tab.get 0 (s.db d).cells i
    else decayOf (s.get (F.TAL_DB_DECAY_MODE d)) (s.get (F.TAL_DB_DECAY_STEP d)) (Tab.get 0 (s.db d).cells i))) (hne : v ≠ 0) :
    Tab.get 0 (s.decayed d done) i = v := by
  refine Tab.get_decayed (fun i c => if done.contains i then c
    else decayOf (s.get (F.TAL_DB_DECAY_MODE d)) (s.get (F.TAL_DB_DECAY_STEP d)) c) _ ?_ (hv.trans ?_) hne
  · split
    · rfl
    · exact decayOf_zero _ _
  · simp only [List.contains_iff_mem]

theorem State.sweepEnd_none (h : (s.db d).sweep = none) : s.sweepEnd d = s := by
  unfold State.sweepEnd
  dsimp only
  rw [h]

theorem State.sweepEnd_some {st : Nat} {done : List Nat} (h : (s.db d).sweep = some (st, done)) : s.sweepEnd d =
    ((s.at_ (st + 32768)).setDb d { s.db d with cells := s.decayed d done, sweep := none }).clrF (F.TAL_DB_STATUS_DECAYING d) := by
  unfold State.sweepEnd
  dsimp only
  rw [h]
  rfl

theorem State.sweepEnd_swept : SweptOn d s (s.sweepEnd d) := by
  cases h : (s.db d).sweep with
  | none =>
    rw [s.sweepEnd_none d h]
    exact .refl d s
  | some p =>
    rw [s.sweepEnd_some d h]
    exact (SweptOn.at_setDb _ _).trans (.decaying 0)

theorem State.sweepStart_swept (b : Nat) : SweptOn d s (s.sweepStart d b) := by
  unfold State.sweepStart
  split
  · exact .setDb _
  · exact (SweptOn.setDb _).trans (.decaying 1)

/-- A sweep that starts keeps the counts. -/
theorem State.sweepStart_kept (b : Nat) : (s.sweepStart d b).lcnt = s.lcnt ∧ ((s.sweepStart d b).db d).cells = (s.db d).cells ∧
    ((s.sweepStart d b).db d).lastDecay = (s.db d).lastDecay := by
  have hstop := s.setDb_db_same d { s.db d with decayReq := false }
  have hgo := s.setDb_db_same d { s.db d with sweep := some (b, []), decayReq := false }
  unfold State.sweepStart
  split
  · exact ⟨rfl, (congrArg Db.cells hstop).trans rfl, (congrArg Db.lastDecay hstop).trans rfl⟩
  · exact ⟨rfl, (congrArg Db.cells hgo).trans rfl, (congrArg Db.lastDecay hgo).trans rfl⟩

theorem State.sweepStart_starts (b : Nat) (hm : s.get (F.TAL_DB_DECAY_MODE d) ≠ 0) :
    ((s.sweepStart d b).db d).sweep = some (b, []) ∧ (s.sweepStart d b).flag (F.TAL_DB_STATUS_DECAYING d) = true := by
  have hgo := s.setDb_db_same d { s.db d with sweep := some (b, []), decayReq := false }
  have hstart : s.sweepStart d b = (s.setDb d { s.db d with sweep := some (b, []), decayReq := false }).setF (F.TAL_DB_STATUS_DECAYING d) :=
    if_neg hm
  rw [hstart]
  exact ⟨(congrArg Db.sweep hgo).trans rfl, RegTab.bit_setFld_one _ (.of rfl (by omega))⟩

theorem State.sweepDue_swept (b : Nat) : SweptOn d s (s.sweepDue d b) := by
  unfold State.sweepDue
  extract_lets s1 src
  have hs1 : SweptOn d s s1 := by
    show SweptOn d s (match (s.db d).sweep with
      | some (st, _) => if st + 32768 ≤ b then s.sweepEnd d else s
      | none => s)
    split
    · split
      · exact s.sweepEnd_swept d
      · exact .refl d s
    · exact .refl d s
  split
  · exact hs1.trans (.setDb _)
  · exact hs1.trans (s1.sweepStart_swept d b)

theorem State.sweepDue_of_none (b : Nat) (h : (s.db d).sweep = none) : s.sweepDue d b =
    if (s.db d).copy.isSome = true then s.setDb d { s.db d with decayReq := true } else s.sweepStart d b := by
  unfold State.sweepDue
  rw [h]
  dsimp only
  simp only [h, Option.isSome_none, Bool.false_eq_true, or_false]

theorem State.sweepEnd_kept : ((s.sweepEnd d).db d).lastDecay = (s.db d).lastDecay := by
  cases h : (s.db d).sweep with
  | none => rw [s.sweepEnd_none d h]
  | some p =>
    rw [s.sweepEnd_some d h]
    exact (congrArg Db.lastDecay ((s.at_ (p.1 + 32768)).setDb_db_same d _)).trans rfl

/-- A sweep that falls due now takes no time, and the period runs from the tick it fell due in. -/
theorem State.sweepDue_kept {b : Nat} (hb : b ≤ s.lcnt) : (s.sweepDue d b).lcnt = s.lcnt ∧ ((s.sweepDue d b).db d).lastDecay = (s.db d).lastDecay := by
  unfold State.sweepDue
  extract_lets s1 src
  have hs1 : s1.lcnt = s.lcnt ∧ (s1.db d).lastDecay = (s.db d).lastDecay := by
    show State.lcnt (match (s.db d).sweep with
      | some (st, _) => if st + 32768 ≤ b then s.sweepEnd d else s
      | none => s) = _ ∧ Db.lastDecay (State.db (match (s.db d).sweep with
      | some (st, _) => if st + 32768 ≤ b then s.sweepEnd d else s
      | none => s) d) = _
    split
    next st done h =>
      split
      next hle =>
        refine ⟨?_, s.sweepEnd_kept d⟩
        rw [s.sweepEnd_some d h]
        exact Nat.max_eq_left (by omega)
      next => exact ⟨rfl, rfl⟩
    next => exact ⟨rfl, rfl⟩
  obtain ⟨hl, hd⟩ := hs1
  split
  · exact ⟨hl, ((congrArg Db.lastDecay (s1.setDb_db_same d _)).trans rfl).trans hd⟩
  · obtain ⟨kl, -, kd⟩ := s1.sweepStart_kept d b
    exact ⟨kl.trans hl, kd.trans hd⟩

end

/-! ### O25 -/

theorem exec_decayDue {d : Fin 8} {k : Nat} {s : State}
    (hk : k = dueTick (s.db d).lastDecay (max 16 (s.get (F.TAL_DB_DECAY_PER_TICKS d))) (s.lcnt / 2048)) :
    ∃ t, exec (.decayDue d) s = .next t ∧ t.lcnt = max s.lcnt (2048 * k) ∧ (t.db d).lastDecay = k ∧
      ((s.db d).sweep = none → (t.db d).cells = (s.db d).cells) ∧
      ((s.db d).sweep = none → (s.db d).copy = none → s.get (F.TAL_DB_DECAY_MODE d) ≠ 0 →
        (t.db d).sweep = some (2048 * k, []) ∧ t.flag (F.TAL_DB_STATUS_DECAYING d) = true) ∧
      ((s.db d).sweep = none → (s.db d).copy ≠ none → (t.db d).decayReq = true ∧ (t.db d).sweep = none ∧ t.regs = s.regs) ∧
      (∀ i : Nat, i ≠ d → t.db i = s.db i) ∧
      changesOnly [F.TAL_DB_STATUS_DECAYING d] s t ∧ t = { s with lcnt := t.lcnt, regs := t.regs, dbs := t.dbs } := by
  have hexec : exec (.decayDue d) s = .next (((s.at_ (2048 * k)).setDb d { s.db d with lastDecay := k }).sweepDue d (2048 * k)) := by
    subst hk
    rfl
  refine ⟨_, hexec, ?_⟩
  have hswept : SweptOn d s ((s.at_ (2048 * k)).setDb d { s.db d with lastDecay := k }) := .at_setDb _ _
  have hset := (s.at_ (2048 * k)).setDb_db_same d { s.db d with lastDecay := k }
  have hl : ((s.at_ (2048 * k)).setDb d { s.db d with lastDecay := k }).lcnt = max s.lcnt (2048 * k) := rfl
  have hr : ((s.at_ (2048 * k)).setDb d { s.db d with lastDecay := k }).regs = s.regs := rfl
  clear hexec hk
  generalize (s.at_ (2048 * k)).setDb d { s.db d with lastDecay := k } = u at *
  have hsweep : (u.db d).sweep = (s.db d).sweep := (congrArg Db.sweep hset).trans rfl
  have hcopy : (u.db d).copy = (s.db d).copy := (congrArg Db.copy hset).trans rfl
  have hcells : (u.db d).cells = (s.db d).cells := (congrArg Db.cells hset).trans rfl
  have hmode : u.get (F.TAL_DB_DECAY_MODE d) = s.get (F.TAL_DB_DECAY_MODE d) := congrArg (fun r : RegTab => r.fld (F.TAL_DB_DECAY_MODE d)) hr
  obtain ⟨kl, kd⟩ := u.sweepDue_kept d (b := 2048 * k) (by omega)
  have hdue : SweptOn d s (u.sweepDue d (2048 * k)) := hswept.trans (u.sweepDue_swept d _)
  have hwait := u.setDb_db_same d { u.db d with decayReq := true }
  refine ⟨kl.trans hl, kd.trans ((congrArg Db.lastDecay hset).trans rfl), fun h => ?_, fun h hc hm => ?_, fun h hc => ?_, hdue.other, hdue.only, hdue.frame⟩
  · rw [u.sweepDue_of_none d _ (hsweep.trans h)]
    split
    · exact ((congrArg Db.cells hwait).trans rfl).trans hcells
    · exact (u.sweepStart_kept d _).2.1.trans hcells
  · rw [u.sweepDue_of_none d _ (hsweep.trans h), hcopy, hc, if_neg (by decide)]
    exact u.sweepStart_starts d _ (by rw [hmode]; exact hm)
  · rw [u.sweepDue_of_none d _ (hsweep.trans h), hcopy, if_pos (Option.isSome_iff_ne_none.mpr hc)]
    exact ⟨(congrArg Db.decayReq hwait).trans rfl, ((congrArg Db.sweep hwait).trans rfl).trans (hsweep.trans h), hr⟩

theorem exec_decaySweepEnd_none {d : Fin 8} {s : State} (h : (s.db d).sweep = none) : exec (.decaySweepEnd d) s = .next s := by
  simp only [exec, execDecaySweepEnd, h]

theorem exec_decaySweepEnd_some {d : Fin 8} {st : Nat} {done : List Nat} {s : State} (h : (s.db d).sweep = some (st, done)) :
    exec (.decaySweepEnd d) s = .next (if ((s.sweepEnd d).db d).decayReq = true ∧ ((s.sweepEnd d).db d).copy = none
      then (s.sweepEnd d).sweepStart d (st + 32768) else s.sweepEnd d) := by
  simp only [exec, execDecaySweepEnd, h]

theorem exec_decaySweepEnd {d : Fin 8} {st : Nat} {done : List Nat} {s : State} (h : (s.db d).sweep = some (st, done)) :
    ∃ t, exec (.decaySweepEnd d) s = .next t ∧ t.lcnt = max s.lcnt (st + 32768) ∧
      ((s.db d).decayReq = false ∨ (s.db d).copy ≠ none →
        (t.db d).sweep = none ∧ t.flag (F.TAL_DB_STATUS_DECAYING d) = false) ∧
      ((s.db d).decayReq = true → (s.db d).copy = none → s.get (F.TAL_DB_DECAY_MODE d) ≠ 0 →
        (t.db d).sweep = some (st + 32768, []) ∧ t.flag (F.TAL_DB_STATUS_DECAYING d) = true) ∧
      (∀ i v, v = (if i ∈ done then Tab.get 0 (s.db d).cells i
        else decayOf (s.get (F.TAL_DB_DECAY_MODE d)) (s.get (F.TAL_DB_DECAY_STEP d)) (Tab.get 0 (s.db d).cells i)) → v ≠ 0 →
        Tab.get 0 (t.db d).cells i = v) ∧
      (∀ i : Nat, i ≠ d → t.db i = s.db i) ∧
      changesOnly [F.TAL_DB_STATUS_DECAYING d] s t ∧ t = { s with lcnt := t.lcnt, regs := t.regs, dbs := t.dbs } := by
  refine ⟨_, exec_decaySweepEnd_some h, ?_⟩
  have hswept := s.sweepEnd_swept d
  have hset := (s.at_ (st + 32768)).setDb_db_same d { s.db d with cells := s.decayed d done, sweep := none }
  have hflag : (s.sweepEnd d).flag (F.TAL_DB_STATUS_DECAYING d) = false := by
    rw [s.sweepEnd_some d h]
    exact RegTab.bit_setFld_zero _ (.of rfl (by omega))
  have hmode : (s.sweepEnd d).get (F.TAL_DB_DECAY_MODE d) = s.get (F.TAL_DB_DECAY_MODE d) := by
    refine hswept.only.1 _ (.of rfl (by omega)) fun x hx => ?_
    rw [List.mem_singleton.mp hx]
    exact .inl (by simp only [F.TAL_DB_STATUS_DECAYING, F.TAL_DB_DECAY_MODE]; omega)
  have hdb : (s.sweepEnd d).db d = { s.db d with cells := s.decayed d done, sweep := none } ∧ (s.sweepEnd d).lcnt = max s.lcnt (st + 32768) := by
    rw [s.sweepEnd_some d h]
    exact ⟨hset, rfl⟩
  obtain ⟨hdb, hl⟩ := hdb
  have hcells : ∀ i v, v = (if i ∈ done then Tab.get 0 (s.db d).cells i
      else decayOf (s.get (F.TAL_DB_DECAY_MODE d)) (s.get (F.TAL_DB_DECAY_STEP d)) (Tab.get 0 (s.db d).cells i)) → v ≠ 0 →
      Tab.get 0 (s.decayed d done) i = v := fun i v hv hne => s.get_decayed d done hv hne
  generalize s.sweepEnd d = u at *
  have ucells : (u.db d).cells = s.decayed d done := (congrArg Db.cells hdb).trans rfl
  have ureq : (u.db d).decayReq = (s.db d).decayReq := (congrArg Db.decayReq hdb).trans rfl
  have ucopy : (u.db d).copy = (s.db d).copy := (congrArg Db.copy hdb).trans rfl
  simp only [ureq, ucopy]
  by_cases hgo : (s.db d).decayReq = true ∧ (s.db d).copy = none
  · rw [if_pos hgo]
    obtain ⟨kl, kc, -⟩ := u.sweepStart_kept d (st + 32768)
    have hstart := hswept.trans (u.sweepStart_swept d (st + 32768))
    refine ⟨kl.trans hl, fun hno => ?_, fun _ _ hm => u.sweepStart_starts d _ (by rw [hmode]; exact hm), fun i v hv hne => ?_, hstart.other, hstart.only, hstart.frame⟩
    · rcases hno with hno | hno
      · rw [hno] at hgo
        cases hgo.1
      · exact absurd hgo.2 hno
    · rw [kc, ucells]
      exact hcells i v hv hne
  · rw [if_neg hgo]
    refine ⟨hl, fun _ => ⟨(congrArg Db.sweep hdb).trans rfl, hflag⟩, fun h1 h2 _ => absurd ⟨h1, h2⟩ hgo, fun i v hv hne => ?_, hswept.other, hswept.only, hswept.frame⟩
    rw [ucells]
    exact hcells i v hv hne

theorem exec_hitWaveformDraw_drawn {j : HitJob} {rest : List HitJob} {st : Nat} {s : State} (hq : s.hitQ = j :: rest)
    (hst : st = max j.at_ s.hitEnd) (hf : bitOf s.fenceMask j.ch = false) : ∃ t, exec .hitWaveformDraw s = .next t ∧ t.hitQ = rest ∧
      t.hitEnd = st + max 125 (ceilDiv j.cells.length 32) ∧
      t.lcnt = max s.lcnt (st + max 125 (ceilDiv j.cells.length 32)) ∧
      (t.db j.d).cells = ((s.db j.d).drawAll (s.get (F.TAL_DB_DECAY_MODE j.d)) (s.get (F.TAL_DB_DECAY_STEP j.d)) st 0 j.cells).1.cells ∧
      t.flag (F.TAL_DB_STATUS_SAT j.d) = (s.flag (F.TAL_DB_STATUS_SAT j.d) ||
        ((s.db j.d).drawAll (s.get (F.TAL_DB_DECAY_MODE j.d)) (s.get (F.TAL_DB_DECAY_STEP j.d)) st 0 j.cells).2) ∧
      (t.db j.d).drawn = (s.db j.d).drawn + 1 ∧
      t.get (F.TAL_DB_WFM_CNT_COUNT j.d) = (s.get (F.TAL_DB_WFM_CNT_COUNT j.d) + 1) % 2 ^ 32 ∧
      (∀ k : Nat, k ≠ j.d → t.db k = s.db k) ∧
      changesOnly [F.TAL_DB_WFM_CNT_COUNT j.d, F.TAL_DB_STATUS_SAT j.d] s t ∧
      t = { s with lcnt := t.lcnt, regs := t.regs, dbs := t.dbs, hitQ := t.hitQ, hitEnd := t.hitEnd } := by
  subst hst
  refine ⟨_, congrArg Host.Outcome.next (s.hitDraw_drawn hq hf), ?_⟩
  show _ ∧ _ = s.drawnAt j ∧ _ = max s.lcnt (s.drawnAt j) ∧ _ = (s.drawnDb j).1.cells ∧ _ = (s.flag (F.TAL_DB_STATUS_SAT j.d) || (s.drawnDb j).2) ∧ _
  have hdb : (s.drawHead j rest).db j.d = { (s.drawnDb j).1 with drawn := (s.drawnDb j).1.drawn + 1 } := State.setDb_db_same _ _ _
  have hdrawn : (s.drawnDb j).1.drawn = (s.db j.d).drawn := Db.drawAll_drawn _ _ _ _ _ _
  have hother : ∀ k, k ≠ j.d → (s.drawHead j rest).db k = s.db k := fun k hk => State.setDb_db_other _ _ _ _ hk
  have honly : changesOnly [F.TAL_DB_WFM_CNT_COUNT j.d, F.TAL_DB_STATUS_SAT j.d] s (s.drawHead j rest) := (changesOnly.refl _ s).parts rfl rfl rfl rfl
  have hframe : s.drawHead j rest = { s with
    lcnt := max s.lcnt (s.drawnAt j), dbs := (s.drawHead j rest).dbs, hitQ := rest, hitEnd := s.drawnAt j } := rfl
  have hregs : (s.drawHead j rest).regs = s.regs := rfl
  generalize s.drawHead j rest = u at *
  obtain ⟨hsat, hcnt, hput, hput_frame⟩ := u.drawnRegs j.d (s.drawnDb j).2 _ rfl
  generalize (if (s.drawnDb j).2 = true then (u.incWrap (F.TAL_DB_WFM_CNT_COUNT j.d)).setF (F.TAL_DB_STATUS_SAT j.d)
    else u.incWrap (F.TAL_DB_WFM_CNT_COUNT j.d)) = t at *
  have htdb : ∀ k, t.db k = u.db k := fun k => congrArg (fun x => Tab.get Db.init x k) ((congrArg State.dbs hput_frame).trans rfl)
  have hq' : t.hitQ = rest := ((congrArg State.hitQ hput_frame).trans rfl).trans ((congrArg State.hitQ hframe).trans rfl)
  have he : t.hitEnd = s.drawnAt j := ((congrArg State.hitEnd hput_frame).trans rfl).trans ((congrArg State.hitEnd hframe).trans rfl)
  have hl : t.lcnt = max s.lcnt (s.drawnAt j) := ((congrArg State.lcnt hput_frame).trans rfl).trans ((congrArg State.lcnt hframe).trans rfl)
  have hsat0 : u.flag (F.TAL_DB_STATUS_SAT j.d) = s.flag (F.TAL_DB_STATUS_SAT j.d) := congrArg (fun r : RegTab => r.bit (F.TAL_DB_STATUS_SAT j.d)) hregs
  have hcnt0 : u.get (F.TAL_DB_WFM_CNT_COUNT j.d) = s.get (F.TAL_DB_WFM_CNT_COUNT j.d) := congrArg (fun r : RegTab => r.fld (F.TAL_DB_WFM_CNT_COUNT j.d)) hregs
  rw [hsat0] at hsat
  rw [hcnt0] at hcnt
  refine ⟨hq', he, hl, ?_, hsat, ?_, hcnt, fun k hk => (htdb k).trans (hother k hk), honly.trans hput, ?_⟩
  · exact (congrArg Db.cells (htdb j.d)).trans ((congrArg Db.cells hdb).trans rfl)
  · exact (congrArg Db.drawn (htdb j.d)).trans (((congrArg Db.drawn hdb).trans rfl).trans (congrArg (· + 1) hdrawn))
  · rw [hput_frame, hframe]

/-- Settles O25: the head of the hit queue is drawn or left out, and sweeps fall due, wait and end. -/
theorem hitDatabasesDrawAndDecay : Obligations.HitDatabasesDrawAndDecay := by
  refine ⟨fun j rest st s hq hst => ⟨exec_hitWaveformDraw_fenced hq, exec_hitWaveformDraw_drawn hq hst⟩, fun s hq => ?_,
    fun d k s hk => exec_decayDue hk, fun d st done s h => exec_decaySweepEnd h, fun d s h => exec_decaySweepEnd_none h⟩
  refine congrArg Host.Outcome.next ?_
  unfold State.hitDraw
  rw [hq]

end Sys2Proof.Machine
end

section
/-! SUPPORT. Bytes written to the store (R111, R173), and the header of a tally frame (R148). -/

namespace Sys2Proof.Machine

open Sys2Proof.Safety

section
variable (s : State)

theorem State.sread_swrite (hw : Mem.wf 0 s.store = true) (a b : Nat) (v : Byte) :
    (s.swrite a v).sread b = if b = a ∧ s.dead a = false then v else s.sread b := by
  unfold State.swrite
  cases hd : s.dead a with
  | true => simp
  | false =>
    simp only [Bool.false_eq_true, if_false, and_true]
    exact Mem.read_write 0 s.store a b v hw

theorem State.sread_swrites_other {a b : Nat} {bs : List Byte} (hw : Mem.wf 0 s.store = true) (hb : b < a ∨ a + bs.length ≤ b) :
    (s.swrites a bs).sread b = s.sread b := by
  induction bs generalizing s a with
  | nil => rfl
  | cons v vs ih =>
    rw [List.length_cons] at hb
    refine (ih (s.swrite a v) (s.swrite_store_wf a v hw) (by omega)).trans ?_
    rw [s.sread_swrite hw, if_neg (by omega)]

theorem State.dead_of_failed (h : s.sto.failed = []) (a : Nat) : s.dead a = false := by
  unfold State.dead
  rw [h]
  rfl

theorem State.swrite_failed (a : Nat) (v : Byte) : (s.swrite a v).sto.failed = s.sto.failed := by
  unfold State.swrite
  split
  · rfl
  · dsimp only
    split
    · rfl
    · rfl

/-- With no failed stack the bytes written are the bytes read. -/
theorem State.sread_swrites {a : Nat} {bs : List Byte} (hw : Mem.wf 0 s.store = true) (hd : s.sto.failed = []) (i : Nat) (hi : i < bs.length) :
    (s.swrites a bs).sread (a + i) = bs[i] := by
  induction bs generalizing s a i with
  | nil => exact absurd hi (Nat.not_lt_zero i)
  | cons v vs ih =>
    have hw1 := s.swrite_store_wf a v hw
    cases i with
    | zero =>
      refine ((s.swrite a v).sread_swrites_other hw1 (.inl (Nat.lt_succ_self a))).trans ?_
      rw [s.sread_swrite hw, if_pos ⟨rfl, s.dead_of_failed hd a⟩]
      rfl
    | succ k =>
      have := ih (s.swrite a v) (a := a + 1) hw1 ((s.swrite_failed a v).trans hd) k (Nat.lt_of_succ_lt_succ hi)
      rw [show a + (k + 1) = a + 1 + k by omega]
      exact this

theorem packLE_length (l : List (Nat × Nat)) : (packLE l).length = (l.map (fun p => p.1)).sum := by
  induction l with
  | nil => rfl
  | cons p ps ih =>
    have hcons : packLE (p :: ps) = leBytes p.1 p.2 ++ packLE ps := rfl
    rw [hcons, List.length_append, ih, Tests.leBytes_length]
    rfl

theorem State.frameHeader_length (typ src flags num lcnt f2c f30 f38 f3c mask f46 f54 stride : Nat) :
    (s.frameHeader typ src flags num lcnt f2c f30 f38 f3c mask f46 f54 stride).length = 256 := by
  unfold State.frameHeader
  dsimp only
  rw [List.length_append, List.length_append, Tests.leBytes_length, Tests.leBytes_length, packLE_length]
  simp only [List.map_append, List.map_cons, List.map_nil, List.map_replicate, List.sum_append, List.sum_cons, List.sum_nil, List.sum_replicate_nat]
  rfl

end

/-! ### O26 -/

/-- Database d's copy is over, its frame not yet written. -/
def State.copyOver (s : State) (d : Nat) (c : DbCopy) : State :=
  ((s.at_ (c.start + 4096)).setDb d { s.db d with copy := none }).clrF (F.TAL_DB_STATUS_COPYING d)

/-- The frame of database d's copy is written from page p of the ring on. -/
def State.copyFramed (s : State) (d : Nat) (c : DbCopy) (p : Nat) : State :=
  (((s.copyOver d c).writeCells ((s.copyOver d c).frameAddr p + 256) c.cells).snapHeader d p c
    (if c.cells.any (fun q => q.2 == 0xFFFF) then setBit 0 flagOvr else 0) (c.start + 4096))

theorem exec_snapshotCopyEnd {d : Fin 8} {c : DbCopy} {p : Nat} {s : State} (hc : (s.db d).copy = some c) (hp : c.page = some p) :
    ∃ w : State, w = (s.copyFramed d c p).publishFrame p 65 0x11 d c.num c.start 4194560 ∧
      exec (.snapshotCopyEnd d) s = .next (if (w.db d).decayReq = true then w.sweepDue d (c.start + 4096) else w) := by
  refine ⟨_, rfl, ?_⟩
  simp only [exec, execSnapshotCopyEnd, hc, hp]
  rfl

/-- A copy with a page ends: the store holds its counts and its final header. -/
theorem State.store_copyEnd {d : Fin 8} {c : DbCopy} {p : Nat} {s t : State} (hc : (s.db d).copy = some c) (hp : c.page = some p)
    (ht : exec (.snapshotCopyEnd d) s = .next t) : t.store = (s.copyFramed d c p).store := by
  obtain ⟨w, hw, hexec⟩ := exec_snapshotCopyEnd hc hp
  have hstate := Host.Outcome.next.inj (hexec.symm.trans ht)
  have hstore : w.store = (s.copyFramed d c p).store := by
    rw [hw]
    exact (State.publishFrame_mem _ _ _ _ _ _ _ _).2.1
  rw [← hstate, ← hstore]
  split
  · exact (State.sweepDue_mem _ _ _).2.1
  · rfl

/-- A copy with a count at key 3000000, beyond the 1024 rows of 2048 columns, whose frame starts at page 0 of the ring. -/
def strayCopy : DbCopy := ⟨0, 0, 0, [(3000000, 1)], 0, some 0, 0, 0, 0⟩

/-- Database 0 is running the copy. -/
def strayCell : State := State.reset.setDb 0 { Db.init with copy := some strayCopy }

/-- The copy's frame with the counts, before its final header. -/
def strayRows : State := (strayCell.copyOver 0 strayCopy).writeCells ((strayCell.copyOver 0 strayCopy).frameAddr 0 + 256) strayCopy.cells

/-- Refutes O26: the copy's end writes every count it carries at its key, so a key beyond the database lands outside the frame's pages. -/
theorem not_hitDatabasesSnapAndClear : ¬ Obligations.HitDatabasesSnapAndClear := by
  unfold Obligations.HitDatabasesSnapAndClear
  rintro ⟨-, -, -, hend, -⟩
  obtain ⟨t, ht, -, -, -, -, -, hpage, -⟩ := hend 0 strayCopy strayCell rfl
  obtain ⟨-, -, -, hframe⟩ := hpage 0 rfl
  have haddr : strayCell.frameAddr 0 + 65 * 65536 ≤ 6000256 := by decide +kernel
  have hkept : t.sread 6000256 = strayCell.sread 6000256 := hframe rfl 6000256 (.inr haddr)
  have hbefore : strayCell.sread 6000256 = 0 := rfl
  have hrows : strayRows.sread 6000256 = 1 := by decide +kernel
  have hwf : Mem.wf 0 strayRows.store = true := by decide +kernel
  have hhead : strayRows.frameAddr 0 + 256 ≤ 6000256 := by decide +kernel
  have hstore := State.store_copyEnd (c := strayCopy) rfl rfl ht
  have hafter : t.sread 6000256 = 1 := by
    refine (congrArg (fun m => Mem.read 0 m 6000256) hstore).trans ((strayRows.sread_swrites_other hwf (.inr ?_)).trans hrows)
    rw [State.frameHeader_length]
    exact hhead
  rw [hkept, hbefore] at hafter
  exact absurd hafter (by decide)

end Sys2Proof.Machine
end

section
/-! SUPPORT. The abacus measures the record at the head of its queue (R128, R136, R137, R164). -/

namespace Sys2Proof.Machine

open Sys2Proof.Safety

/-! ### A block is written (R128, R137) -/

/-- What bytes written to the store change. -/
def writeShare : Share where
  upd s t := { s with store := t.store, sto := t.sto }
  regs _ := False
  self _ := rfl
  again _ _ _ := rfl

section
variable (s : State) (g : Nat)

theorem State.swrites_writeShare (a : Nat) (bs : List Byte) : writeShare.Only s (s.swrites a bs) := by
  induction bs generalizing s a with
  | nil => exact .refl _ _
  | cons b bs ih =>
    have hone : writeShare.Only s (s.swrite a b) := .ite (.refl _ _) (.parts rfl rfl)
    exact hone.trans (ih _ _)

/-- A slot that leaves the ring changes its group, the registers and what is staged. -/
theorem State.freeSlot_frame (num : Nat) : s.freeSlot g num =
    { s with regs := (s.freeSlot g num).regs, grps := (s.freeSlot g num).grps, stageFill := (s.freeSlot g num).stageFill } := by
  have hrelease := (s.freeSlot_releaseShare g num).frame
  have hbook : bookShare.Only s (s.freeSlot g num) :=
    (State.holdWatch_booked _ g).share.after ((State.showPressure_booked _ g).share.after ((State.showOldest_booked _ g).share.after (.parts rfl rfl)))
  have hframes : (s.freeSlot g num).frames = s.frames := (congrArg State.frames hbook.frame).trans rfl
  generalize s.freeSlot g num = t at *
  refine hrelease.trans ?_
  show ({ s with regs := t.regs, grps := t.grps, stageFill := t.stageFill, frames := t.frames } : State) = _
  rw [hframes]

/-- What the writing of a block for record num of group g leaves. -/
structure Blocked (g : Nat) (s t : State) : Prop where
  other : ∀ k, k ≠ g → t.grp k = s.grp k
  only : onlyFields (ringFlds g ++ gapFlds g) s t
  frame : t = { s with regs := t.regs, grps := t.grps, store := t.store, stageFill := t.stageFill, sto := t.sto }

/-- A measured record: its slot knows it, and its block is staged for its readers. -/
def State.blockDone (s : State) (g num : Nat) : State :=
  (s.setGrp g { s.grp g with slots := (s.grp g).slots.map (fun x => if x.num = num then { x with measured := true } else x) }).addItem g 1 num 0 0 0

theorem State.blockDone_effect (num : Nat) : (∀ k, k ≠ g → (s.blockDone g num).grp k = s.grp k) ∧
    s.blockDone g num = { s with grps := (s.blockDone g num).grps } := by
  unfold State.blockDone
  have hother : ∀ k, k ≠ g → (s.setGrp g { s.grp g with
      slots := (s.grp g).slots.map (fun x => if x.num = num then { x with measured := true } else x) }).grp k = s.grp k :=
    fun k hk => s.grp_setGrp_other hk _
  have hframe : s.setGrp g { s.grp g with slots := (s.grp g).slots.map (fun x => if x.num = num then { x with measured := true } else x) } =
    { s with grps := (s.setGrp g { s.grp g with
      slots := (s.grp g).slots.map (fun x => if x.num = num then { x with measured := true } else x) }).grps } := rfl
  generalize s.setGrp g { s.grp g with slots := (s.grp g).slots.map (fun x => if x.num = num then { x with measured := true } else x) } = u at *
  have hbook := u.addItem_booked g 1 num 0 0 0
  have hadd : u.addItem g 1 num 0 0 0 = { u with grps := (u.addItem g 1 num 0 0 0).grps } := by
    unfold State.addItem
    dsimp only
    split
    · rfl
    · rfl
  generalize u.addItem g 1 num 0 0 0 = t at *
  refine ⟨fun k hk => (hbook.other k hk).trans (hother k hk), ?_⟩
  rw [hadd, hframe]

theorem State.writeBlock_cases (lpage num : Nat) (es : List (List Byte)) (w : State)
    (hw : w = ((s.swrites (s.lpAddr g lpage 0x100) (blockBytes num es)).served 2 (blockBytes num es).length)) :
    s.writeBlock g lpage num es = if (w.grp g).slots.any (fun x => x.num == num && x.relReq) = true then (w.blockDone g num).freeSlot g num
      else w.blockDone g num := by
  subst hw
  rfl

theorem State.writeBlock_blocked (lpage num : Nat) (es : List (List Byte)) : Blocked g s (s.writeBlock g lpage num es) ∧
    (s.writeBlock g lpage num es).store = (s.swrites (s.lpAddr g lpage 0x100) (blockBytes num es)).store := by
  rw [s.writeBlock_cases g lpage num es _ rfl]
  have hwrite := s.swrites_writeShare (s.lpAddr g lpage 0x100) (blockBytes num es)
  generalize s.swrites (s.lpAddr g lpage 0x100) (blockBytes num es) = v at *
  have hv : v.regs = s.regs ∧ v.grps = s.grps := ⟨(congrArg State.regs hwrite.frame).trans rfl, (congrArg State.grps hwrite.frame).trans rfl⟩
  have hserved : v.served 2 (blockBytes num es).length = { v with sto := (v.served 2 (blockBytes num es).length).sto } := rfl
  generalize v.served 2 (blockBytes num es).length = w at *
  obtain ⟨hother, hdone⟩ := w.blockDone_effect g num
  have hwgrps : w.grps = s.grps := ((congrArg State.grps hserved).trans rfl).trans hv.2
  have hwregs : w.regs = s.regs := ((congrArg State.regs hserved).trans rfl).trans hv.1
  have hwstore : w.store = v.store := (congrArg State.store hserved).trans rfl
  have hwframe : w = { s with store := w.store, sto := w.sto } := by
    rw [hserved]
    exact (congrArg (fun x : State => { x with sto := w.sto }) hwrite.frame).trans rfl
  generalize w.blockDone g num = d at *
  have hdregs : d.regs = s.regs := ((congrArg State.regs hdone).trans rfl).trans hwregs
  have hdstore : d.store = v.store := ((congrArg State.store hdone).trans rfl).trans hwstore
  have hdframe : d = { s with grps := d.grps, store := d.store, sto := d.sto } := by
    have h := (congrArg (fun x : State => { x with grps := d.grps }) hwframe).trans rfl
    exact (hdone.trans h).trans (by rw [hdone])
  have hblocked : Blocked g s d := ⟨fun k hk => (hother k hk).trans (grp_of_grps hwgrps k),
    onlyFields_of_regs _ _ _ _ hdregs (onlyFields_refl _ s), hdframe.trans (by rw [hdframe])⟩
  split
  · refine ⟨⟨fun k hk => ((d.freeSlot_slots g num).2 k hk).trans (hblocked.other k hk),
      onlyFields_trans _ _ _ _ hblocked.only (d.freeSlot_only g num).1, ?_⟩, ?_⟩
    · refine (d.freeSlot_frame g num).trans ?_
      have hkeep : (d.freeSlot g num).store = d.store ∧ (d.freeSlot g num).sto = d.sto :=
        ⟨(congrArg State.store (d.freeSlot_frame g num)).trans rfl, (congrArg State.sto (d.freeSlot_frame g num)).trans rfl⟩
      rw [hkeep.1, hkeep.2]
      generalize d.freeSlot g num = t
      exact (congrArg (fun x : State => { x with regs := t.regs, grps := t.grps, stageFill := t.stageFill }) hdframe).trans rfl
    · exact ((congrArg State.store (d.freeSlot_frame g num)).trans rfl).trans hdstore
  · exact ⟨hblocked, hdstore⟩

/-! ### What ABA_GRP_STATUS shows (R136) -/

/-- PENDING and BUSY follow the queue. -/
theorem State.showPending_shown : (s.showPending g).get (F.ABA_GRP_STATUS_PENDING g) = (s.abaQ.filter (fun x => x.grp == g)).length % 128 ∧
    (∀ k, (s.showPending g).getN (R.ABA_GRP_DONE k) 2 = s.getN (R.ABA_GRP_DONE k) 2) ∧
    onlyFields (F.ABA_GRP_STATUS_PENDING g :: F.ABA_GRP_STATUS_BUSY g :: s.abaQ.map (fun x => F.ABA_GRP_STATUS_BUSY x.grp)) s (s.showPending g) ∧
    s.showPending g = { s with regs := (s.showPending g).regs } := by
  unfold State.showPending
  extract_lets s1
  have h1 : s1.get (F.ABA_GRP_STATUS_PENDING g) = (s.abaQ.filter (fun x => x.grp == g)).length % 128 ∧
      (∀ k, s1.getN (R.ABA_GRP_DONE k) 2 = s.getN (R.ABA_GRP_DONE k) 2) ∧ s1.abaQ = s.abaQ ∧
      onlyFields (F.ABA_GRP_STATUS_PENDING g :: F.ABA_GRP_STATUS_BUSY g :: s.abaQ.map (fun x => F.ABA_GRP_STATUS_BUSY x.grp)) s s1 ∧
      s1 = { s with regs := s1.regs } := by
    have hw : (F.ABA_GRP_STATUS_PENDING g).width = 7 := rfl
    refine ⟨?_, fun k => ?_, rfl, ?_, rfl⟩
    · show State.get ((s.put (F.ABA_GRP_STATUS_PENDING g) _).clrF (F.ABA_GRP_STATUS_BUSY g)) _ = _
      simp (disch := first | exact .of rfl (by omega) | omega) [State.get, hw]
    · show State.getN ((s.put (F.ABA_GRP_STATUS_PENDING g) _).clrF (F.ABA_GRP_STATUS_BUSY g)) _ 2 = _
      exact (State.getN_put_beside _ (.of rfl (by simp only [R.ABA_GRP_DONE]; omega))).trans
        (s.getN_put_beside (.of rfl (by simp only [R.ABA_GRP_DONE]; omega)))
    · exact (((changesOnly.refl _ s).put (f := F.ABA_GRP_STATUS_PENDING g) (by simp)).put (f := F.ABA_GRP_STATUS_BUSY g) (v := 0) (by simp)).1
  obtain ⟨hp, hd, hq, ho, hf⟩ := h1
  clear_value s1
  split
  next j rest hj =>
    refine ⟨?_, fun k => ?_, ?_, ?_⟩
    · rw [← hp]
      exact RegTab.fld_setFld_sep _ _ (.of rfl (by omega))
    · rw [← hd k]
      exact State.getN_setF_beside _ (.of rfl (by simp only [R.ABA_GRP_DONE]; omega))
    · refine onlyFields_put _ _ _ _ _ (.of rfl (by omega)) ?_ ho
      rw [← hq, hj]
      simp
    · exact (congrArg (fun x : State => { x with regs := (s1.setF (F.ABA_GRP_STATUS_BUSY j.grp)).regs }) hf).trans rfl
  next => exact ⟨hp, hd, ho, hf⟩

end

/-! ### O23 -/

theorem State.ask_only (s : State) (k key n : Nat) : changesOnly [F.STO_CLASS_BACKLOG_BYTES k] s (s.ask k key n).2 := by
  unfold State.ask State.showBacklog
  exact ((changesOnly.refl _ s).parts rfl rfl rfl rfl).put (by simp)

theorem exec_abacusTrailerWrite {j : AbaJob} {rest : List AbaJob} {fin : Nat} {s : State} (hq : s.abaQ = j :: rest) (hskip : s.abaSkip = [])
    (hfin : fin = max j.fin s.abaEnd + 32 + j.work.passes * ceilDiv j.work.points 512) : exec .abacusTrailerWrite s =
      .next (if ((s.at_ fin).ask 2 abaKey j.work.bytes).1 = true then ((s.at_ fin).ask 2 abaKey j.work.bytes).2.measureHead j rest
        (if s.sto.reqs.any (fun r => r.cls == 2 && r.key == abaKey) = true then ((s.at_ fin).ask 2 abaKey j.work.bytes).2.lcnt else fin)
      else ((s.at_ fin).ask 2 abaKey j.work.bytes).2) := by
  subst hfin
  simp only [exec, execAbacusTrailerWrite, s.skipsDue_of_none hskip, hq]

theorem exec_abacusTrailerWrite_nil {s : State} (hq : s.abaQ = []) (hskip : s.abaSkip = []) : exec .abacusTrailerWrite s = .next s := by
  simp only [exec, execAbacusTrailerWrite, s.skipsDue_of_none hskip, hq]

/-- What a measured record leaves. -/
structure HeadMeasured (j : AbaJob) (rest : List AbaJob) (e : Nat) (bs : List Byte) (s t : State) : Prop where
  queue : t.abaQ = rest
  ended : t.abaEnd = e
  store : t.store = ((s.drawnIn (s.abaView j)).swrites (s.lpAddr j.grp j.rcd.lpage 0x100) bs).store
  done : t.getN (R.ABA_GRP_DONE j.grp) 2 = j.rcd.num % 2 ^ 64
  pending : t.get (F.ABA_GRP_STATUS_PENDING j.grp) = (rest.filter (fun x => x.grp == j.grp)).length % 128
  other : ∀ k, k ≠ j.grp → t.grp k = s.grp k
  only : onlyFields (F.ABA_GRP_STATUS_PENDING j.grp :: (ringFlds j.grp ++ gapFlds j.grp ++ (j :: rest).map (fun x => F.ABA_GRP_STATUS_BUSY x.grp) ++
    wideFlds (R.ABA_GRP_DONE j.grp) 2)) s t
  frame : t = { s with
    free := t.free, regs := t.regs, grps := t.grps, store := t.store, stageFill := t.stageFill, sto := t.sto, abaQ := t.abaQ, abaEnd := t.abaEnd }

/-- The number of the record is published and the queue is shown without it. -/
def State.headGone (s : State) (j : AbaJob) (rest : List AbaJob) (e : Nat) : State :=
  (({ s with abaQ := rest, abaEnd := e } : State).putN (R.ABA_GRP_DONE j.grp) 2 j.rcd.num).showPending j.grp

theorem State.headGone_effect (s : State) (j : AbaJob) (rest : List AbaJob) (e : Nat) :
    (s.headGone j rest e).getN (R.ABA_GRP_DONE j.grp) 2 = j.rcd.num % 2 ^ 64 ∧
    (s.headGone j rest e).get (F.ABA_GRP_STATUS_PENDING j.grp) = (rest.filter (fun x => x.grp == j.grp)).length % 128 ∧
    onlyFields (F.ABA_GRP_STATUS_PENDING j.grp :: (ringFlds j.grp ++ gapFlds j.grp ++ (j :: rest).map (fun x => F.ABA_GRP_STATUS_BUSY x.grp) ++
      wideFlds (R.ABA_GRP_DONE j.grp) 2)) s (s.headGone j rest e) ∧
    s.headGone j rest e = { s with regs := (s.headGone j rest e).regs, abaQ := rest, abaEnd := e } := by
  unfold State.headGone
  have hdone : (({ s with abaQ := rest, abaEnd := e } : State).putN (R.ABA_GRP_DONE j.grp) 2 j.rcd.num).getN (R.ABA_GRP_DONE j.grp) 2 = j.rcd.num % 2 ^ 64 :=
    State.getN_putN_mod _ _ _ rfl
  have honly := (((changesOnly.refl (wideFlds (R.ABA_GRP_DONE j.grp) 2) s).parts (u := { s with abaQ := rest, abaEnd := e }) rfl rfl rfl rfl).putN
    (off := R.ABA_GRP_DONE j.grp) (n := 2) (v := j.rcd.num) fun _ h => h).1
  have hq : (({ s with abaQ := rest, abaEnd := e } : State).putN (R.ABA_GRP_DONE j.grp) 2 j.rcd.num).abaQ = rest := rfl
  have hframe : ({ s with abaQ := rest, abaEnd := e } : State).putN (R.ABA_GRP_DONE j.grp) 2 j.rcd.num = { s with
    regs := (({ s with abaQ := rest, abaEnd := e } : State).putN (R.ABA_GRP_DONE j.grp) 2 j.rcd.num).regs, abaQ := rest, abaEnd := e } := rfl
  generalize ({ s with abaQ := rest, abaEnd := e } : State).putN (R.ABA_GRP_DONE j.grp) 2 j.rcd.num = u at *
  obtain ⟨hpend, hkeep, hshown, hshow⟩ := u.showPending_shown j.grp
  rw [hq] at hpend hshown
  generalize u.showPending j.grp = t at *
  refine ⟨(hkeep _).trans hdone, hpend, ?_, ?_⟩
  · refine onlyFields_trans _ _ _ _ (onlyFields_mono _ _ _ _ honly fun f hf => ?_) (onlyFields_mono _ _ _ _ hshown fun f hf => ?_)
    · simp [hf]
    · simp only [List.mem_cons, List.mem_append, List.map_cons] at hf ⊢
      tauto
  · exact hshow.trans ((congrArg (fun x : State => { x with regs := t.regs }) hframe).trans rfl)

theorem State.measureHead_measured (s : State) (j : AbaJob) (rest : List AbaJob) (e : Nat) {bs : List Byte}
    (hbs : bs = blockBytes j.rcd.num ((abaEntries j.cfg j.grp).map (fun p => (s.abaView j).slotEntry j p.1 p.2))) :
    HeadMeasured j rest e bs s (s.measureHead j rest e) := by
  have hhead : s.measureHead j rest e = ((s.drawnIn (s.abaView j)).writeBlock j.grp j.rcd.lpage j.rcd.num
    ((abaEntries j.cfg j.grp).map (fun p => (s.abaView j).slotEntry j p.1 p.2))).headGone j rest e := rfl
  rw [hhead]
  obtain ⟨hblock, hstore⟩ := (s.drawnIn (s.abaView j)).writeBlock_blocked j.grp j.rcd.lpage j.rcd.num
    ((abaEntries j.cfg j.grp).map (fun p => (s.abaView j).slotEntry j p.1 p.2))
  rw [← hbs] at hstore
  generalize (s.drawnIn (s.abaView j)).writeBlock j.grp j.rcd.lpage j.rcd.num
    ((abaEntries j.cfg j.grp).map (fun p => (s.abaView j).slotEntry j p.1 p.2)) = w at *
  obtain ⟨hother, honly, hframe⟩ := hblock
  obtain ⟨hdone, hpend, hfld, hgone⟩ := w.headGone_effect j rest e
  generalize w.headGone j rest e = t at *
  have hgrps : t.grps = w.grps := (congrArg State.grps hgone).trans rfl
  have hdrawn : onlyFields (ringFlds j.grp ++ gapFlds j.grp) s w := fun f hok hf => (honly f hok hf).trans rfl
  refine ⟨(congrArg State.abaQ hgone).trans rfl, (congrArg State.abaEnd hgone).trans rfl, ((congrArg State.store hgone).trans rfl).trans hstore, hdone, hpend,
    fun k hk => (grp_of_grps hgrps k).trans ((hother k hk).trans rfl), ?_, ?_⟩
  · exact onlyFields_trans _ _ _ _ (onlyFields_mono _ _ _ _ hdrawn fun f hf =>
      List.mem_cons_of_mem _ (List.mem_append_left _ (List.mem_append_left _ hf))) hfld
  · rw [hgone, hframe]
    rfl

theorem exec_abacusTrailerWrite_measured {j : AbaJob} {rest : List AbaJob} {fin A : Nat} {q : Bool × State} {bs : List Byte} {s : State}
    (hq : s.abaQ = j :: rest) (hskip : s.abaSkip = []) (hfin : fin = max j.fin s.abaEnd + 32 + j.work.passes * ceilDiv j.work.points 512)
    (hask : q = (s.at_ fin).ask 2 abaKey j.work.bytes) (hA : A = s.lpAddr j.grp j.rcd.lpage 0x100)
    (hbs : bs = blockBytes j.rcd.num ((abaEntries j.cfg j.grp).map (fun p => (q.2.abaView j).slotEntry j p.1 p.2))) (hgo : q.1 = true) :
    ∃ t, exec .abacusTrailerWrite s = .next t ∧ t.abaQ = rest ∧ t.lcnt = max s.lcnt fin ∧
      (s.sto.reqs.any (fun r => r.cls == 2 && r.key == abaKey) = false → t.abaEnd = fin) ∧
      (Mem.wf 0 s.store = true → s.sto.failed = [] →
        (∀ i (h : i < bs.length), t.sread (A + i) = bs[i]) ∧ ∀ a, a < A ∨ A + bs.length ≤ a → t.sread a = s.sread a) ∧
      t.getN (R.ABA_GRP_DONE j.grp) 2 = j.rcd.num % 2 ^ 64 ∧
      t.get (F.ABA_GRP_STATUS_PENDING j.grp) = (rest.filter (fun x => x.grp == j.grp)).length % 128 ∧
      (∀ k : Nat, k ≠ j.grp → t.grp k = s.grp k) ∧
      onlyFields (F.ABA_GRP_STATUS_PENDING j.grp :: F.STO_CLASS_BACKLOG_BYTES 2 :: (ringFlds j.grp ++ gapFlds j.grp ++
        s.abaQ.map (fun x => F.ABA_GRP_STATUS_BUSY x.grp) ++ wideFlds (R.ABA_GRP_DONE j.grp) 2)) s t ∧
      t = { s with
        free := t.free, lcnt := t.lcnt, regs := t.regs, grps := t.grps, store := t.store, stageFill := t.stageFill,
        sto := t.sto, abaQ := t.abaQ, abaEnd := t.abaEnd } := by
  have hexec := exec_abacusTrailerWrite hq hskip hfin
  rw [← hask, if_pos hgo] at hexec
  refine ⟨_, hexec, ?_⟩
  have hmeas := q.2.measureHead_measured j rest
    (if s.sto.reqs.any (fun r => r.cls == 2 && r.key == abaKey) = true then q.2.lcnt else fin) hbs
  have hshare : (askShare 2).Only (s.at_ fin) q.2 := hask ▸ State.ask_askShare _ 2 abaKey j.work.bytes
  have hbacklog : onlyFields [F.STO_CLASS_BACKLOG_BYTES 2] s q.2 := fun f hok hf =>
    hask ▸ (State.ask_only (s.at_ fin) 2 abaKey j.work.bytes).1 f hok hf
  have hfailed : q.2.sto.failed = s.sto.failed := by
    rw [hask]
    rfl
  clear hexec
  generalize q.2.measureHead j rest (if s.sto.reqs.any (fun r => r.cls == 2 && r.key == abaKey) = true then q.2.lcnt else fin) = t at *
  obtain ⟨hqueue, hend, hstore, hdone, hpend, hother, honly, hframe⟩ := hmeas
  have hqframe := hshare.frame
  have hqstore : q.2.store = s.store := (congrArg State.store hqframe).trans rfl
  have haddr : q.2.lpAddr j.grp j.rcd.lpage 0x100 = A := by
    have hbase : q.2.get (F.REC_GRP_RING_BASE_PAGE j.grp) = s.get (F.REC_GRP_RING_BASE_PAGE j.grp) := hshare.fld (by
      simp only [askShare, F.REC_GRP_RING_BASE_PAGE, F.STO_CLASS_BACKLOG_BYTES]
      omega)
    rw [hA, State.lpAddr, State.lpAddr, State.physPage, State.physPage, hbase, grp_of_grps ((congrArg State.grps hqframe).trans rfl : q.2.grps = s.grps) j.grp]
  rw [haddr] at hstore
  refine ⟨hqueue, ?_, fun h => ?_, fun hw hf => ⟨fun i hi => ?_, fun a ha => ?_⟩, hdone, hpend, fun k hk => ?_, ?_, ?_⟩
  · exact ((congrArg State.lcnt hframe).trans rfl).trans ((congrArg State.lcnt hqframe).trans rfl)
  · rw [hend, h]
    rfl
  · exact (congrArg (fun m => Mem.read 0 m (A + i)) hstore).trans
      ((q.2.drawnIn (q.2.abaView j)).sread_swrites ((congrArg (Mem.wf 0) hqstore).trans hw) (hfailed.trans hf) i hi)
  · exact ((congrArg (fun m => Mem.read 0 m a) hstore).trans
      ((q.2.drawnIn (q.2.abaView j)).sread_swrites_other ((congrArg (Mem.wf 0) hqstore).trans hw) ha)).trans (congrArg (fun m => Mem.read 0 m a) hqstore)
  · exact (hother k hk).trans (grp_of_grps ((congrArg State.grps hqframe).trans rfl) k)
  · rw [hq]
    refine onlyFields_trans _ _ _ _ (onlyFields_mono _ _ _ _ hbacklog fun f hf => ?_) (onlyFields_mono _ _ _ _ honly fun f hf => ?_)
    · rw [List.mem_singleton.mp hf]
      simp
    · simp only [List.mem_cons, List.mem_append] at hf ⊢
      tauto
  · generalize q.2 = u at *
    rw [hframe, hqframe]
    rfl

/-- Settles O23: the head of the abacus queue is measured when its reads are granted, and its block alone is written. -/
theorem abacusMeasuresTheHead : Obligations.AbacusMeasuresTheHead := by
  refine ⟨fun j rest fin A q bs s hq hskip hfin hask hA hbs => ⟨fun hno => ?_,
    fun hgo => exec_abacusTrailerWrite_measured hq hskip hfin hask hA hbs hgo⟩, fun s hq hskip => exec_abacusTrailerWrite_nil hq hskip⟩
  have hexec := exec_abacusTrailerWrite hq hskip hfin
  rw [← hask, hno] at hexec
  exact hexec

end Sys2Proof.Machine
end

section
/-! SUPPORT. Reads of the central store and their errors (R153, R157-R160, R164, R165). -/

namespace Sys2Proof.Machine

open Sys2Proof.Safety

/-! ### A row is to be replaced (R160) -/

theorem memSame_trans {s t u : State} (h : memSame s t) (k : memSame t u) : memSame s u :=
  ⟨fun a => (k.1 a).trans (h.1 a), fun a => (k.2 a).trans (h.2 a)⟩

/-- What the repair of a row changes: the store's own state and registers, and the log. -/
def repairShare : Share where
  upd s t := { s with regs := t.regs, sto := t.sto, log := t.log, out := t.out, twin := t.twin, msix := t.msix }
  regs off := off = R.STO_STATUS ∨ 0x700060 ≤ off
  self _ := rfl
  again _ _ _ := rfl

/-- What stands when a row is to be replaced. -/
structure RowAsked (s t : State) : Prop where
  share : repairShare.Only s t
  ce : t.flag F.STO_STATUS_CE_SEEN = s.flag F.STO_STATUS_CE_SEEN
  ue : t.flag F.STO_STATUS_UE_SEEN = s.flag F.STO_STATUS_UE_SEEN
  sto : t.sto = { s.sto with copies := t.sto.copies, pendPc := t.sto.pendPc }
  seen : ∀ x ∈ s.log.seen, x ∈ t.log.seen

theorem repairShare.memSame {s t : State} (h : repairShare.Only s t) : memSame s t :=
  memSame_of_fields ((congrArg State.store h.frame).trans rfl) ((congrArg State.flash h.frame).trans rfl)

section
variable (s : State)

/-- FAIL_PENDING of a channel group is shown. -/
def State.pendingShown (s : State) (pc : Nat) : State :=
  { (s.put (F.STO_REPAIR_FAIL_PENDING (pc / 32)) (setBit (s.get (F.STO_REPAIR_FAIL_PENDING (pc / 32))) (pc / 4 % 8))).setF F.STO_STATUS_FAIL_PENDING with
    sto := { s.sto with pendPc := pc :: s.sto.pendPc } }

theorem State.failPending_eq (pc : Nat) : s.failPending pc = if s.sto.pendPc.contains pc then s
    else (s.pendingShown pc).post s.lcnt 0x0803 (s.locusPc pc) 0 := rfl

theorem State.pendingShown_asked (pc : Nat) : RowAsked s (s.pendingShown pc) where
  share := by
    have hput : repairShare.Only s (s.put (F.STO_REPAIR_FAIL_PENDING (pc / 32)) (setBit (s.get (F.STO_REPAIR_FAIL_PENDING (pc / 32))) (pc / 4 % 8))) :=
      .put (.inr (by simp only [F.STO_REPAIR_FAIL_PENDING]; omega))
    exact (hput.trans (.put (f := F.STO_STATUS_FAIL_PENDING) (v := 1) (.inl rfl))).trans (.parts rfl rfl)
  ce := by simp (disch := first | exact .of rfl (by omega) | omega) [State.flag, State.pendingShown]
  ue := by simp (disch := first | exact .of rfl (by omega) | omega) [State.flag, State.pendingShown]
  sto := rfl
  seen _ h := h

theorem RowAsked.refl (s : State) : RowAsked s s := ⟨.refl _ s, rfl, rfl, rfl, fun _ h => h⟩

theorem State.failPending_asked (pc : Nat) : RowAsked s (s.failPending pc) := by
  rw [s.failPending_eq pc]
  split
  · exact .refl s
  · have h := s.pendingShown_asked pc
    generalize s.pendingShown pc = u at *
    exact ⟨h.share.trans (.post (fun j hj => Or.inr (show 0x700060 ≤ j by omega)) (repairShare.frame_of (u.post_eq _ _ _ _) rfl)), (u.bit_post _ _ _ _ (.of rfl (by omega))).trans h.ce,
      (u.bit_post _ _ _ _ (.of rfl (by omega))).trans h.ue, ((congrArg State.sto (u.post_eq _ _ _ _)).trans h.sto).trans (by rw [congrArg State.sto (u.post_eq _ _ _ _)]),
      fun x hx => u.seen_post_of_seen _ _ _ _ (h.seen x hx)⟩

theorem State.rowRepair_asked (pc row : Nat) : RowAsked s (s.rowRepair pc row) := by
  unfold State.rowRepair
  dsimp only
  split
  · exact .refl s
  · split
    · refine ⟨.trans (.put (f := F.STO_STATUS_REPAIR_ACTIVE) (v := 1) (.inl rfl)) (.parts rfl rfl), ?_, ?_, rfl, fun _ h => h⟩
      · simp (disch := first | exact .of rfl (by omega) | omega) [State.flag]
      · simp (disch := first | exact .of rfl (by omega) | omega) [State.flag]
    · exact s.failPending_asked pc

/-- With no copy running and a spare row left the copy starts. -/
theorem State.rowRepair_starts {pc : Nat} (row : Nat) (hc : s.sto.copies = []) (hu : Tab.get 0 s.sto.rowsUsed pc < 64) :
    (s.rowRepair pc row).sto.copies = [(pc, row)] ∧ (s.rowRepair pc row).flag F.STO_STATUS_REPAIR_ACTIVE = true := by
  unfold State.rowRepair
  rw [hc]
  simp only [List.any_nil, List.filter_nil, List.length_nil, Bool.false_eq_true, if_false, Nat.add_zero, hu, if_true, List.nil_append]
  exact ⟨trivial, RegTab.bit_setFld_one _ (.of rfl (by omega))⟩

/-! ### Corrected errors (R158, R160) -/

/-- A corrected error is counted, and its burst waits for the write-back. -/
def State.ceCounted (s : State) (addr : Nat) : State :=
  { (s.setF F.STO_STATUS_CE_SEEN).incSat F.STO_ECC_CE_CNT_COUNT with
    sto := { s.sto with
      rowCe := Tab.set s.sto.rowCe (rowKey (s.pcOf addr) (s.rowOf addr)) (Tab.get 0 s.sto.rowCe (rowKey (s.pcOf addr) (s.rowOf addr)) + 1)
      scrubQ := s.sto.scrubQ ++ [addr / 256] } }

theorem State.storeCe_eq (addr : Nat) : s.storeCe addr = if 2 ≤ Tab.get 0 s.sto.rowCe (rowKey (s.pcOf addr) (s.rowOf addr)) + 1
    then (s.ceCounted addr).rowRepair (s.pcOf addr) (s.rowOf addr) else s.ceCounted addr := rfl

theorem State.ceCounted_effect (addr : Nat) : (s.ceCounted addr).flag F.STO_STATUS_CE_SEEN = true ∧
    (s.ceCounted addr).get F.STO_ECC_CE_CNT_COUNT = min (s.get F.STO_ECC_CE_CNT_COUNT + 1) (2 ^ 32 - 1) ∧
    changesOnly [F.STO_STATUS_CE_SEEN, F.STO_ECC_CE_CNT_COUNT] s (s.ceCounted addr) := by
  refine ⟨?_, ?_, ?_⟩
  · simp (disch := first | exact .of rfl (by omega) | omega) [State.flag, State.ceCounted, State.incSat, State.addSat]
  · show ((s.setF F.STO_STATUS_CE_SEEN).incSat F.STO_ECC_CE_CNT_COUNT).get F.STO_ECC_CE_CNT_COUNT = _
    rw [State.get_incSat_width (w := 32) _ F.STO_ECC_CE_CNT_COUNT (.of rfl (by omega)) rfl]
    simp (disch := first | exact .of rfl (by omega) | omega) [State.get]
  · have h := (changesOnly.refl [F.STO_STATUS_CE_SEEN, F.STO_ECC_CE_CNT_COUNT] s).put (f := F.STO_STATUS_CE_SEEN) (v := 1) (by simp)
    exact (h.put (f := F.STO_ECC_CE_CNT_COUNT) (by simp)).parts rfl rfl rfl rfl

/-- A corrected error. -/
theorem State.storeCe_effect (addr : Nat) : (s.storeCe addr).flag F.STO_STATUS_CE_SEEN = true ∧
    (s.storeCe addr).get F.STO_ECC_CE_CNT_COUNT = min (s.get F.STO_ECC_CE_CNT_COUNT + 1) (2 ^ 32 - 1) ∧
    addr / 256 ∈ (s.storeCe addr).sto.scrubQ ∧ memSame s (s.storeCe addr) := by
  obtain ⟨hflag, hcnt, -, hmem, -⟩ := s.ceCounted_effect addr
  have hq : addr / 256 ∈ (s.ceCounted addr).sto.scrubQ := List.mem_append_right _ (List.mem_singleton_self _)
  rw [s.storeCe_eq addr]
  generalize s.ceCounted addr = u at *
  split
  · have h := u.rowRepair_asked (s.pcOf addr) (s.rowOf addr)
    generalize u.rowRepair (s.pcOf addr) (s.rowOf addr) = t at *
    have hmem2 := repairShare.memSame h.share
    refine ⟨h.ce.trans hflag, (h.share.fld (by simp only [repairShare, R.STO_STATUS, F.STO_ECC_CE_CNT_COUNT]; omega)).trans hcnt, ?_,
      memSame_trans hmem hmem2⟩
    rw [h.sto]
    exact hq
  · exact ⟨hflag, hcnt, hq, hmem⟩

/-! ### Uncorrectable errors (R158) -/

/-- The address of the first uncorrectable error is recorded. -/
def State.ueAddr (s : State) (addr : Nat) : State :=
  if s.flag F.STO_STATUS_UE_SEEN then s else s.putN R.STO_ECC_ADDR 2 (256 * (addr / 256))

/-- An uncorrectable error is counted and logged. -/
def State.ueCounted (s : State) (addr : Nat) : State :=
  (((s.ueAddr addr).setF F.STO_STATUS_UE_SEEN).incSat F.STO_ECC_UE_CNT_COUNT).post s.lcnt 0x0801 (s.locusPc (s.pcOf addr)) 0

/-- The burst is poisoned, for good or on the link. -/
def State.uePoisoned (s : State) (addr : Nat) (link : Bool) : State :=
  { s.ueCounted addr with sto := { (s.ueCounted addr).sto with
    ueTick := [(s.lcnt / tickLen, s.pcOf addr / 4)]
    bad := if link then (s.ueCounted addr).sto.bad else (addr / 256) :: (s.ueCounted addr).sto.bad
    badLink := if link then (addr / 256) :: (s.ueCounted addr).sto.badLink else (s.ueCounted addr).sto.badLink } }

theorem State.storeUe_eq (addr : Nat) (link : Bool) (h : s.sto.ueTick = []) :
    s.storeUe addr link = (s.uePoisoned addr link).rowRepair (s.pcOf addr) (s.rowOf addr) := by
  unfold State.storeUe
  rw [h]
  rfl

theorem State.ueCounted_effect (addr : Nat) : (s.ueCounted addr).flag F.STO_STATUS_UE_SEEN = true ∧
    (s.ueCounted addr).get F.STO_ECC_UE_CNT_COUNT = min (s.get F.STO_ECC_UE_CNT_COUNT + 1) (2 ^ 32 - 1) ∧
    (s.ueCounted addr).get F.STO_CRC_RETRY_CNT_COUNT = s.get F.STO_CRC_RETRY_CNT_COUNT ∧
    (s.ueCounted addr).getN R.STO_ECC_ADDR 2 = (s.ueAddr addr).getN R.STO_ECC_ADDR 2 ∧
    (0x0801, s.locusPc (s.pcOf addr)) ∈ (s.ueCounted addr).log.seen ∧ memSame s (s.ueCounted addr) := by
  have haddr : (s.ueAddr addr).get F.STO_ECC_UE_CNT_COUNT = s.get F.STO_ECC_UE_CNT_COUNT ∧
      (s.ueAddr addr).get F.STO_CRC_RETRY_CNT_COUNT = s.get F.STO_CRC_RETRY_CNT_COUNT ∧ memSame s (s.ueAddr addr) := by
    unfold State.ueAddr
    split
    · exact ⟨rfl, rfl, memSame_of_fields rfl rfl⟩
    · exact ⟨RegTab.fld_setWide_beside _ _ (.of rfl (by simp only [R.STO_ECC_ADDR]; omega)), RegTab.fld_setWide_beside _ _ (.of rfl (by simp only [R.STO_ECC_ADDR]; omega)), memSame_of_fields rfl rfl⟩
  unfold State.ueCounted
  generalize s.ueAddr addr = u at *
  obtain ⟨hcnt, hcrc, hmem⟩ := haddr
  have hinc : ((u.setF F.STO_STATUS_UE_SEEN).incSat F.STO_ECC_UE_CNT_COUNT).get F.STO_ECC_UE_CNT_COUNT = min (s.get F.STO_ECC_UE_CNT_COUNT + 1) (2 ^ 32 - 1) := by
    rw [State.get_incSat_width (w := 32) _ F.STO_ECC_UE_CNT_COUNT (.of rfl (by omega)) rfl, ← hcnt]
    simp (disch := first | exact .of rfl (by omega) | omega) [State.get]
  have hseen : ((u.setF F.STO_STATUS_UE_SEEN).incSat F.STO_ECC_UE_CNT_COUNT).flag F.STO_STATUS_UE_SEEN = true := by
    simp (disch := first | exact .of rfl (by omega) | omega) [State.flag, State.incSat, State.addSat]
  have hretry : ((u.setF F.STO_STATUS_UE_SEEN).incSat F.STO_ECC_UE_CNT_COUNT).get F.STO_CRC_RETRY_CNT_COUNT = s.get F.STO_CRC_RETRY_CNT_COUNT := by
    rw [← hcrc]
    simp (disch := first | exact .of rfl (by omega) | omega) [State.get, State.incSat, State.addSat]
  have hwide : ((u.setF F.STO_STATUS_UE_SEEN).incSat F.STO_ECC_UE_CNT_COUNT).getN R.STO_ECC_ADDR 2 = u.getN R.STO_ECC_ADDR 2 :=
    (State.getN_put_beside _ (.of rfl (by simp only [R.STO_ECC_ADDR]; omega))).trans (u.getN_setF_beside (.of rfl (by simp only [R.STO_ECC_ADDR]; omega)))
  have hmem1 : memSame s ((u.setF F.STO_STATUS_UE_SEEN).incSat F.STO_ECC_UE_CNT_COUNT) := hmem
  generalize (u.setF F.STO_STATUS_UE_SEEN).incSat F.STO_ECC_UE_CNT_COUNT = v at *
  exact ⟨(v.bit_post _ _ _ _ (.of rfl (by omega))).trans hseen, (v.fld_post _ _ _ _ (.of rfl (by omega))).trans hinc,
    (v.fld_post _ _ _ _ (.of rfl (by omega))).trans hretry, (v.wide_post _ _ _ _ (by simp only [R.STO_ECC_ADDR]; omega)).trans hwide,
    v.post_seen _ _ _ _, memSame_trans hmem1 ((changesOnly.refl logFlds v).post (m := fun _ h => h)).2.1⟩

/-- An uncorrectable error in a tick without another. -/
theorem State.storeUe_effect (addr : Nat) (link : Bool) (h : s.sto.ueTick = []) : (s.storeUe addr link).flag F.STO_STATUS_UE_SEEN = true ∧
    (s.storeUe addr link).get F.STO_ECC_UE_CNT_COUNT = min (s.get F.STO_ECC_UE_CNT_COUNT + 1) (2 ^ 32 - 1) ∧
    (s.storeUe addr link).get F.STO_CRC_RETRY_CNT_COUNT = s.get F.STO_CRC_RETRY_CNT_COUNT ∧
    (s.storeUe addr link).getN R.STO_ECC_ADDR 2 = (s.ueAddr addr).getN R.STO_ECC_ADDR 2 ∧
    (s.storeUe addr link).poisoned addr = true ∧ (0x0801, s.locusPc (s.pcOf addr)) ∈ (s.storeUe addr link).log.seen ∧ memSame s (s.storeUe addr link) := by
  obtain ⟨hflag, hcnt, hcrc, haddr, hseen, hmem⟩ := s.ueCounted_effect addr
  rw [s.storeUe_eq addr link h]
  have hpois : (s.uePoisoned addr link).sto.bad.contains (addr / 256) = true ∨ (s.uePoisoned addr link).sto.badLink.contains (addr / 256) = true := by
    cases link with
    | false => exact .inl (by simp [State.uePoisoned])
    | true => exact .inr (by simp [State.uePoisoned])
  have hflag' : (s.uePoisoned addr link).flag F.STO_STATUS_UE_SEEN = true := hflag
  have hcnt' : (s.uePoisoned addr link).get F.STO_ECC_UE_CNT_COUNT = min (s.get F.STO_ECC_UE_CNT_COUNT + 1) (2 ^ 32 - 1) := hcnt
  have hcrc' : (s.uePoisoned addr link).get F.STO_CRC_RETRY_CNT_COUNT = s.get F.STO_CRC_RETRY_CNT_COUNT := hcrc
  have haddr' : (s.uePoisoned addr link).getN R.STO_ECC_ADDR 2 = (s.ueAddr addr).getN R.STO_ECC_ADDR 2 := haddr
  have hseen' : (0x0801, s.locusPc (s.pcOf addr)) ∈ (s.uePoisoned addr link).log.seen := hseen
  have hmem' : memSame s (s.uePoisoned addr link) := hmem
  generalize s.uePoisoned addr link = u at *
  have hrow := u.rowRepair_asked (s.pcOf addr) (s.rowOf addr)
  generalize u.rowRepair (s.pcOf addr) (s.rowOf addr) = t at *
  have hbad : t.sto.bad = u.sto.bad ∧ t.sto.badLink = u.sto.badLink := by
    rw [hrow.sto]
    exact ⟨rfl, rfl⟩
  refine ⟨hrow.ue.trans hflag', (hrow.share.fld (by simp only [repairShare, R.STO_STATUS, F.STO_ECC_UE_CNT_COUNT]; omega)).trans hcnt',
    (hrow.share.fld (by simp only [repairShare, R.STO_STATUS, F.STO_CRC_RETRY_CNT_COUNT]; omega)).trans hcrc',
    (hrow.share.wide (fun j h1 h2 => by simp only [repairShare, R.STO_STATUS, R.STO_ECC_ADDR] at *; omega)).trans haddr', ?_,
    hrow.seen _ hseen', memSame_trans hmem' (repairShare.memSame hrow.share)⟩
  unfold State.poisoned
  rw [hbad.1, hbad.2]
  rcases hpois with hp | hp
  · rw [hp, Bool.or_true, Bool.true_or]
  · rw [hp, Bool.or_true]

/-! ### Retries (R157, R160) -/

/-- Link retries are counted, for the block and for the lane. -/
theorem State.storeCrc_effect (addr : Nat) {n : Nat} (hn : 0 < n) :
    (s.storeCrc addr n).get F.STO_CRC_RETRY_CNT_COUNT = min (s.get F.STO_CRC_RETRY_CNT_COUNT + min n 4) (2 ^ 32 - 1) ∧
    Tab.get 0 (s.storeCrc addr n).sto.laneCrc (s.pcOf addr) = Tab.get 0 s.sto.laneCrc (s.pcOf addr) + n ∧
    (16 < Tab.get 0 s.sto.laneCrc (s.pcOf addr) + n → s.pcOf addr ∈ (s.storeCrc addr n).sto.laneDue) ∧
    Tab.get 0 (s.storeCrc addr n).sto.served 6 = Tab.get 0 s.sto.served 6 + 256 * min n 4 ∧
    changesOnly [F.STO_CRC_RETRY_CNT_COUNT] s (s.storeCrc addr n) ∧
    s.storeCrc addr n = { s with regs := (s.storeCrc addr n).regs, sto := (s.storeCrc addr n).sto } ∧
    (s.storeCrc addr n).sto.ueTick = s.sto.ueTick := by
  unfold State.storeCrc
  rw [if_neg (by omega)]
  refine ⟨?_, ?_, fun h => ?_, ?_, ?_, rfl, rfl⟩
  · have hw : F.STO_CRC_RETRY_CNT_COUNT.width = 32 := rfl
    show (s.addSat F.STO_CRC_RETRY_CNT_COUNT (min n 4)).get _ = _
    simp (disch := first | exact .of rfl (by omega) | omega) [State.get, State.addSat, hw]
  · exact Tab.get_set_same _ _ _ _
  · show s.pcOf addr ∈ (if 16 < Tab.get 0 s.sto.laneCrc (s.pcOf addr) + n ∧ (!s.sto.laneDue.contains (s.pcOf addr)) = true then
      s.sto.laneDue ++ [s.pcOf addr] else s.sto.laneDue)
    split
    next => exact List.mem_append_right _ (List.mem_singleton_self _)
    next hno =>
      by_contra hc
      exact hno ⟨h, by simpa using hc⟩
  · exact Tab.get_set_same _ _ _ _
  · exact ((changesOnly.refl _ s).put (f := F.STO_CRC_RETRY_CNT_COUNT) (by simp)).parts rfl rfl rfl rfl

end

/-! ### The scrubber (R159) -/

section
variable {s : State}

/-- A burst of the page at the scrub position that the scrubber has not read in it. -/
theorem State.scrubbed_effect {b : Nat} (hb : b / 256 = s.get F.STO_SCRUB_POS_PAGE) (hseen : b ∉ s.sto.scrubSeen) :
    (s.sto.scrubSeen.length + 1 < 256 → b ∈ (s.scrubbed b).sto.scrubSeen ∧ (s.scrubbed b).get F.STO_SCRUB_POS_PAGE = s.get F.STO_SCRUB_POS_PAGE) ∧
    (256 ≤ s.sto.scrubSeen.length + 1 → (s.scrubbed b).sto.scrubSeen = [] ∧ (s.scrubbed b).get F.STO_SCRUB_POS_PAGE =
      (if s.get F.STO_SCRUB_POS_PAGE + 1 < s.capPages then s.get F.STO_SCRUB_POS_PAGE + 1 else 0) % 2 ^ 21) ∧
    (256 ≤ s.sto.scrubSeen.length + 1 → s.capPages ≤ s.get F.STO_SCRUB_POS_PAGE + 1 → (s.scrubbed b).sto.rowCe = [] ∧
      (s.scrubbed b).get F.STO_SCRUB_PASS_CNT_COUNT = (s.get F.STO_SCRUB_PASS_CNT_COUNT + 1) % 2 ^ 32) ∧
    changesOnly [F.STO_SCRUB_POS_PAGE, F.STO_SCRUB_PASS_CNT_COUNT] s (s.scrubbed b) ∧
    s.scrubbed b = { s with regs := (s.scrubbed b).regs, sto := (s.scrubbed b).sto } := by
  have hw : F.STO_SCRUB_POS_PAGE.width = 21 := rfl
  have hno : ¬(b / 256 ≠ s.get F.STO_SCRUB_POS_PAGE ∨ s.sto.scrubSeen.contains b = true) := by
    simp [hb, hseen]
  unfold State.scrubbed
  dsimp only
  rw [if_neg hno]
  by_cases hlen : s.sto.scrubSeen.length + 1 < 256
  · rw [if_pos hlen]
    exact ⟨fun _ => ⟨List.mem_cons_self, rfl⟩, fun h => absurd hlen (by omega), fun h => absurd hlen (by omega),
      (changesOnly.refl _ s).parts rfl rfl rfl rfl, rfl⟩
  · rw [if_neg hlen]
    have hclear : changesOnly [F.STO_SCRUB_POS_PAGE, F.STO_SCRUB_PASS_CNT_COUNT] s { s with sto := { s.sto with scrubSeen := [] } } :=
      (changesOnly.refl _ s).parts rfl rfl rfl rfl
    by_cases hcap : s.get F.STO_SCRUB_POS_PAGE + 1 < s.capPages
    · rw [if_pos hcap]
      refine ⟨fun h => absurd h hlen, fun _ => ⟨rfl, ?_⟩, fun _ h => absurd hcap (by omega), hclear.put (by simp), rfl⟩
      rw [if_pos hcap]
      simp (disch := first | exact .of rfl (by omega) | omega) [State.get, hw]
    · rw [if_neg hcap]
      have hpass := (hclear.put (f := F.STO_SCRUB_POS_PAGE) (v := 0) (by simp)).put (f := F.STO_SCRUB_PASS_CNT_COUNT)
        (v := (State.put { s with sto := { s.sto with scrubSeen := [] } } F.STO_SCRUB_POS_PAGE 0).get F.STO_SCRUB_PASS_CNT_COUNT + 1) (by simp)
      refine ⟨fun h => absurd h hlen, fun _ => ⟨rfl, ?_⟩, fun _ _ => ⟨rfl, ?_⟩, hpass.parts rfl rfl rfl rfl, rfl⟩
      · rw [if_neg hcap]
        simp (disch := first | exact .of rfl (by omega) | omega) [State.get, State.incWrap]
      · refine (State.get_incWrap_width (w := 32) _ F.STO_SCRUB_PASS_CNT_COUNT (.of rfl (by omega)) rfl).trans ?_
        simp (disch := first | exact .of rfl (by omega) | omega) [State.get]

end

/-! ### O28 -/

section
variable {cls : Fin 7} {addr : Nat} {s : State}

theorem exec_storeReadBurst_outside (h : s.capPages * 65536 ≤ addr) (fails : Nat) (ecc : EccResult) :
    exec (.storeReadBurst cls addr fails ecc) s = .next s := congrArg Host.Outcome.next (if_pos h)

theorem exec_storeReadBurst (h : addr < s.capPages * 65536) (hc : cls ≠ 4) (fails : Nat) (ecc : EccResult) :
    exec (.storeReadBurst cls addr fails ecc) s = .next (s.burstRead addr fails ecc) :=
  congrArg Host.Outcome.next ((if_neg (by omega)).trans (if_neg hc))

theorem exec_storeReadBurst_scrub (h : addr < s.capPages * 65536) (fails : Nat) (ecc : EccResult) :
    exec (.storeReadBurst 4 addr fails ecc) s = .next (if s.scrubs (addr / 256) = false then s
      else if (s.ask 4 (addr / 256) 256).1 = true then ((s.ask 4 (addr / 256) 256).2.burstRead addr fails ecc).scrubbed (addr / 256)
      else (s.ask 4 (addr / 256) 256).2) :=
  congrArg Host.Outcome.next ((if_neg (by omega)).trans (if_pos rfl))

theorem State.burstRead_good (fails : Nat) (h : fails < 5) : s.burstRead addr fails .good = s.storeCrc addr fails := if_neg (by omega)

theorem State.burstRead_corrected : s.burstRead addr 0 .corrected = s.storeCe addr := rfl

theorem State.burstRead_uncorrectable : s.burstRead addr 0 .uncorrectable = s.storeUe addr false := rfl

theorem State.burstRead_failed (fails : Nat) (h : 5 ≤ fails) : s.burstRead addr fails .good = (s.storeCrc addr fails).storeUe addr true := if_pos h

theorem exec_storeReadBurst_corrected (h : addr < s.capPages * 65536) (hc : cls ≠ 4) :
    ∃ t, exec (.storeReadBurst cls addr 0 .corrected) s = .next t ∧ t.flag F.STO_STATUS_CE_SEEN = true ∧
      t.get F.STO_ECC_CE_CNT_COUNT = min (s.get F.STO_ECC_CE_CNT_COUNT + 1) (2 ^ 32 - 1) ∧
      addr / 256 ∈ t.sto.scrubQ ∧ memSame s t ∧
      (Tab.get 0 s.sto.rowCe (rowKey (s.pcOf addr) (s.rowOf addr)) = 0 →
        changesOnly [F.STO_STATUS_CE_SEEN, F.STO_ECC_CE_CNT_COUNT] s t ∧ t = { s with regs := t.regs, sto := t.sto }) ∧
      (1 ≤ Tab.get 0 s.sto.rowCe (rowKey (s.pcOf addr) (s.rowOf addr)) → s.sto.copies = [] →
        Tab.get 0 s.sto.rowsUsed (s.pcOf addr) < 64 →
        t.sto.copies = [(s.pcOf addr, s.rowOf addr)] ∧ t.flag F.STO_STATUS_REPAIR_ACTIVE = true) := by
  obtain ⟨hflag, hcnt, hq, hmem⟩ := s.storeCe_effect addr
  refine ⟨_, (exec_storeReadBurst h hc 0 .corrected).trans (congrArg Host.Outcome.next State.burstRead_corrected), hflag, hcnt, hq, hmem, fun h0 => ?_, fun h1 hcop hused => ?_⟩
  · rw [s.storeCe_eq addr, h0, if_neg (by decide)]
    exact ⟨(s.ceCounted_effect addr).2.2, rfl⟩
  · rw [s.storeCe_eq addr, if_pos (by omega)]
    exact State.rowRepair_starts _ _ hcop hused

theorem exec_storeReadBurst_uncorrectable (h : addr < s.capPages * 65536) (hc : cls ≠ 4) (hue : s.sto.ueTick = []) :
    ∃ t, exec (.storeReadBurst cls addr 0 .uncorrectable) s = .next t ∧ t.flag F.STO_STATUS_UE_SEEN = true ∧
      t.get F.STO_ECC_UE_CNT_COUNT = min (s.get F.STO_ECC_UE_CNT_COUNT + 1) (2 ^ 32 - 1) ∧
      (s.flag F.STO_STATUS_UE_SEEN = false → t.getN R.STO_ECC_ADDR 2 = 256 * (addr / 256) % 2 ^ 64) ∧
      (s.flag F.STO_STATUS_UE_SEEN = true → t.getN R.STO_ECC_ADDR 2 = s.getN R.STO_ECC_ADDR 2) ∧
      t.poisoned addr = true ∧ (0x0801, s.locusPc (s.pcOf addr)) ∈ t.log.seen ∧ memSame s t := by
  obtain ⟨hflag, hcnt, -, haddr, hpois, hseen, hmem⟩ := s.storeUe_effect addr false hue
  refine ⟨_, (exec_storeReadBurst h hc 0 .uncorrectable).trans (congrArg Host.Outcome.next State.burstRead_uncorrectable), hflag, hcnt,
    fun h0 => haddr.trans ?_, fun h1 => haddr.trans ?_, hpois, hseen, hmem⟩
  · rw [State.ueAddr, h0, if_neg (by decide)]
    exact State.getN_putN_mod _ _ _ rfl
  · rw [State.ueAddr, h1, if_pos rfl]

theorem exec_storeReadBurst_failed (h : addr < s.capPages * 65536) (hc : cls ≠ 4) {fails : Nat} (hf : 5 ≤ fails) (hue : s.sto.ueTick = []) :
    ∃ t, exec (.storeReadBurst cls addr fails .good) s = .next t ∧
      t.poisoned addr = true ∧ t.get F.STO_ECC_UE_CNT_COUNT = min (s.get F.STO_ECC_UE_CNT_COUNT + 1) (2 ^ 32 - 1) ∧
      t.get F.STO_CRC_RETRY_CNT_COUNT = min (s.get F.STO_CRC_RETRY_CNT_COUNT + 4) (2 ^ 32 - 1) ∧ memSame s t := by
  refine ⟨_, (exec_storeReadBurst h hc fails .good).trans (congrArg Host.Outcome.next (State.burstRead_failed fails hf)), ?_⟩
  obtain ⟨hcrc, -, -, -, honly, -, htick⟩ := s.storeCrc_effect addr (n := fails) (by omega)
  have hkeep : (s.storeCrc addr fails).get F.STO_ECC_UE_CNT_COUNT = s.get F.STO_ECC_UE_CNT_COUNT :=
    honly.1 _ (.of rfl (by omega)) fun f hf => by
      rw [List.mem_singleton.mp hf]
      exact .inl (by decide)
  generalize s.storeCrc addr fails = u at *
  obtain ⟨-, hcnt, hretry, -, hpois, -, hmem⟩ := u.storeUe_effect addr true (htick.trans hue)
  rw [hkeep] at hcnt
  refine ⟨hpois, hcnt, hretry.trans ?_, memSame_trans honly.2.1 hmem⟩
  rw [hcrc, Nat.min_eq_right (by omega : 4 ≤ fails)]

theorem exec_storeReadBurst_scrubbed (h : addr < s.capPages * 65536) (hp : addr / 65536 = s.get F.STO_SCRUB_POS_PAGE)
    (hseen : addr / 256 ∉ s.sto.scrubSeen) (hgo : (s.ask 4 (addr / 256) 256).1 = true) :
    ∃ t, exec (.storeReadBurst 4 addr 0 .good) s = .next t ∧
      (s.sto.scrubSeen.length + 1 < 256 → addr / 256 ∈ t.sto.scrubSeen ∧
        t.get F.STO_SCRUB_POS_PAGE = s.get F.STO_SCRUB_POS_PAGE) ∧
      (256 ≤ s.sto.scrubSeen.length + 1 → t.sto.scrubSeen = [] ∧ t.get F.STO_SCRUB_POS_PAGE =
        (if s.get F.STO_SCRUB_POS_PAGE + 1 < s.capPages then s.get F.STO_SCRUB_POS_PAGE + 1 else 0) % 2 ^ 21) ∧
      (256 ≤ s.sto.scrubSeen.length + 1 → s.capPages ≤ s.get F.STO_SCRUB_POS_PAGE + 1 → t.sto.rowCe = [] ∧
        t.get F.STO_SCRUB_PASS_CNT_COUNT = (s.get F.STO_SCRUB_PASS_CNT_COUNT + 1) % 2 ^ 32) ∧
      changesOnly [F.STO_SCRUB_POS_PAGE, F.STO_SCRUB_PASS_CNT_COUNT, F.STO_CLASS_BACKLOG_BYTES 4] s t ∧
      t = { s with regs := t.regs, sto := t.sto } := by
  have hpage : addr / 256 / 256 = s.get F.STO_SCRUB_POS_PAGE := by omega
  have hscrubs : s.scrubs (addr / 256) = true := by
    unfold State.scrubs
    simp [hpage, hseen]
  have hexec := exec_storeReadBurst_scrub h 0 .good
  rw [hscrubs, if_neg (by decide), if_pos hgo] at hexec
  have honly := s.ask_only 4 (addr / 256) 256
  have hshare := s.ask_askShare 4 (addr / 256) 256
  have hfar : ∀ f : Fld, f.off < 0x700144 → (s.ask 4 (addr / 256) 256).2.get f = s.get f := fun f hf => hshare.fld (by
    simp only [askShare, F.STO_CLASS_BACKLOG_BYTES]
    omega)
  have hsto : (s.ask 4 (addr / 256) 256).2.sto.scrubSeen = s.sto.scrubSeen := rfl
  have hread : exec (.storeReadBurst 4 addr 0 .good) s = .next ((s.ask 4 (addr / 256) 256).2.scrubbed (addr / 256)) := hexec
  refine ⟨_, hread, ?_⟩
  clear hexec hread hgo
  generalize (s.ask 4 (addr / 256) 256).2 = u at *
  have hpos : u.get F.STO_SCRUB_POS_PAGE = s.get F.STO_SCRUB_POS_PAGE := hfar _ (by decide)
  have hcap : u.capPages = s.capPages := hfar _ (by decide)
  have hpass : u.get F.STO_SCRUB_PASS_CNT_COUNT = s.get F.STO_SCRUB_PASS_CNT_COUNT := hfar _ (by decide)
  obtain ⟨hmore, hend, hwrap, hput, hframe⟩ := State.scrubbed_effect (s := u) (b := addr / 256) (hpage.trans hpos.symm) (by rw [hsto]; exact hseen)
  rw [hsto, hpos] at hmore hend hwrap
  rw [hcap] at hend hwrap
  rw [hpass] at hwrap
  generalize u.scrubbed (addr / 256) = t at *
  refine ⟨hmore, hend, hwrap, (honly.mono (by simp)).trans (hput.mono (by simp)), ?_⟩
  rw [hframe, hshare.frame]
  rfl

end

/-- Settles O28: a burst's retries and errors are counted, poisoned bursts are marked, and the scrubber reads in its own order and class. -/
theorem storeReadsCountTheirErrors : Obligations.StoreReadsCountTheirErrors := by
  refine fun cls addr s => ⟨fun h fails ecc => exec_storeReadBurst_outside h fails ecc, fun h hc => ⟨?_, fun fails h0 h5 => ?_,
    exec_storeReadBurst_corrected h hc, fun hue => exec_storeReadBurst_uncorrectable h hc hue,
    fun fails hf hue => exec_storeReadBurst_failed h hc hf hue⟩, fun h => ⟨fun hno fails ecc => ?_, fun hyes hask fails ecc => ?_,
    fun hp hseen hgo => exec_storeReadBurst_scrubbed h hp hseen hgo⟩⟩
  · exact exec_storeReadBurst h hc 0 .good
  · obtain ⟨hcrc, hlane, hdue, hserved, honly, hframe, -⟩ := s.storeCrc_effect addr h0
    rw [Nat.min_eq_left (by omega : fails ≤ 4)] at hcrc hserved
    exact ⟨_, (exec_storeReadBurst h hc fails .good).trans (congrArg Host.Outcome.next (State.burstRead_good fails h5)), hcrc, hlane, hdue,
      hserved, honly, hframe⟩
  · rw [exec_storeReadBurst_scrub h, if_pos hno]
  · rw [exec_storeReadBurst_scrub h, hyes, if_neg (by decide), hask, if_neg (by decide)]

end Sys2Proof.Machine
end

section
/-! SUPPORT. Spare rows and lanes, and the failure of a stack (R156, R160, R164, R173). -/

namespace Sys2Proof.Machine

open Sys2Proof.Safety

/-! ### Masks -/

theorem bitOf_setBit (m k : Nat) : bitOf (setBit m k) k = true := by
  unfold setBit
  split
  next h => exact h
  next h =>
    have hpos : 0 < 2 ^ k := Nat.two_pow_pos k
    unfold bitOf at h ⊢
    rw [Nat.add_div_right m hpos]
    simp only [beq_iff_eq] at h ⊢
    omega

theorem bitOf_mod {m k w : Nat} (h : k < w) : bitOf (m % 2 ^ w) k = bitOf m k := by
  unfold bitOf
  obtain ⟨d, rfl⟩ := Nat.exists_eq_add_of_lt h
  have h1 : m % 2 ^ (k + d + 1) / 2 ^ k % 2 = m / 2 ^ k % 2 := by
    rw [show k + d + 1 = k + (d + 1) by omega, Nat.pow_add, Nat.mod_mul_right_div_self, Nat.pow_succ, Nat.mul_comm, Nat.mod_mul_right_mod]
  rw [h1]

section
variable (s : State)

/-! ### A row's copy is done (R160) -/

theorem State.rowSwitch_effect {pc row b : Nat} (hpc : pc < 128) : (s.rowSwitch pc row b).lcnt = max s.lcnt b ∧
    (s.rowSwitch pc row b).sto.copies = s.sto.copies.filter (fun c => !(c.1 == pc && c.2 == row)) ∧
    Tab.get 0 (s.rowSwitch pc row b).sto.rowsUsed pc = Tab.get 0 s.sto.rowsUsed pc + 1 ∧
    Tab.get 0 (s.rowSwitch pc row b).sto.rowCe (rowKey pc row) = 0 ∧
    (s.rowSwitch pc row b).get (F.STO_REPAIR_SPARE_ROWS (pc / 32)) = s.get (F.STO_REPAIR_SPARE_ROWS (pc / 32)) - 1 ∧
    (s.rowSwitch pc row b).flag F.STO_STATUS_REPAIR_ACTIVE = ((s.rowSwitch pc row b).sto.copies != []) ∧
    changesOnly [F.STO_REPAIR_SPARE_ROWS (pc / 32), F.STO_STATUS_REPAIR_ACTIVE] s (s.rowSwitch pc row b) ∧
    s.rowSwitch pc row b = { s with lcnt := (s.rowSwitch pc row b).lcnt, regs := (s.rowSwitch pc row b).regs, sto := (s.rowSwitch pc row b).sto } := by
  have hlt := RegTab.fld_lt s.regs (F.STO_REPAIR_SPARE_ROWS (pc / 32))
  have hw : (F.STO_REPAIR_SPARE_ROWS (pc / 32)).width = 12 := rfl
  refine ⟨rfl, rfl, Tab.get_set_same _ _ _ _, Tab.get_set_same _ _ _ _, ?_, ?_, ?_, rfl⟩
  · rw [hw] at hlt
    have hmod : (s.get (F.STO_REPAIR_SPARE_ROWS (pc / 32)) - 1) % 2 ^ 12 = s.get (F.STO_REPAIR_SPARE_ROWS (pc / 32)) - 1 :=
      Nat.mod_eq_of_lt (Nat.lt_of_le_of_lt (Nat.sub_le _ _) hlt)
    rw [← hmod]
    simp (disch := first | exact .of rfl (by omega) | omega) [State.get, State.rowSwitch, State.putB, hw]
  · exact RegTab.bit_setFld_ite _ (.of rfl (by omega)) _
  · have h := (changesOnly.refl [F.STO_REPAIR_SPARE_ROWS (pc / 32), F.STO_STATUS_REPAIR_ACTIVE] s).parts (u := s.at_ b) rfl rfl rfl rfl
    have h1 := h.put (f := F.STO_REPAIR_SPARE_ROWS (pc / 32)) (v := s.get (F.STO_REPAIR_SPARE_ROWS (pc / 32)) - 1) (by simp)
    have h2 : changesOnly [F.STO_REPAIR_SPARE_ROWS (pc / 32), F.STO_STATUS_REPAIR_ACTIVE] s _ := h1.parts (u := { (s.at_ b).put (F.STO_REPAIR_SPARE_ROWS (pc / 32)) (s.get (F.STO_REPAIR_SPARE_ROWS (pc / 32)) - 1) with
      sto := { s.sto with
        copies := s.sto.copies.filter (fun c => !(c.1 == pc && c.2 == row))
        rowCe := Tab.set s.sto.rowCe (rowKey pc row) 0
        rowsUsed := Tab.set s.sto.rowsUsed pc (Tab.get 0 s.sto.rowsUsed pc + 1) } }) rfl rfl rfl rfl
    exact h2.put (f := F.STO_STATUS_REPAIR_ACTIVE) (by simp)

end

theorem exec_rowRepairSwitch {pc : Fin 128} {row : Nat} {s : State} (h : s.sto.copies.any (fun c => c.1 == pc.val && c.2 == row) = true) :
    exec (.rowRepairSwitch pc row) s = .next (if (s.ask 6 (rowKey pc row) 4096).1 = true then
      (s.ask 6 (rowKey pc row) 4096).2.rowSwitch pc row (boundaryAt s.lcnt) else (s.ask 6 (rowKey pc row) 4096).2) :=
  congrArg Host.Outcome.next (if_pos h)

theorem exec_rowRepairSwitch_done {pc : Fin 128} {row : Nat} {s : State} (h : s.sto.copies.any (fun c => c.1 == pc.val && c.2 == row) = true)
    (hgo : (s.ask 6 (rowKey pc row) 4096).1 = true) : ∃ t, exec (.rowRepairSwitch pc row) s = .next t ∧
      t.lcnt = max s.lcnt (boundaryAt s.lcnt) ∧
      t.sto.copies = s.sto.copies.filter (fun c => !(c.1 == pc.val && c.2 == row)) ∧
      Tab.get 0 t.sto.rowsUsed pc = Tab.get 0 s.sto.rowsUsed pc + 1 ∧ Tab.get 0 t.sto.rowCe (rowKey pc row) = 0 ∧
      t.get (F.STO_REPAIR_SPARE_ROWS (pc / 32)) = s.get (F.STO_REPAIR_SPARE_ROWS (pc / 32)) - 1 ∧
      t.flag F.STO_STATUS_REPAIR_ACTIVE = (t.sto.copies != []) ∧
      changesOnly [F.STO_REPAIR_SPARE_ROWS (pc / 32), F.STO_STATUS_REPAIR_ACTIVE, F.STO_CLASS_BACKLOG_BYTES 6] s t ∧
      t = { s with lcnt := t.lcnt, regs := t.regs, sto := t.sto } := by
  have hexec := exec_rowRepairSwitch h
  rw [if_pos hgo] at hexec
  refine ⟨_, hexec, ?_⟩
  have honly := s.ask_only 6 (rowKey pc row) 4096
  have hshare := s.ask_askShare 6 (rowKey pc row) 4096
  have hsto : (s.ask 6 (rowKey pc row) 4096).2.sto.copies = s.sto.copies ∧ (s.ask 6 (rowKey pc row) 4096).2.sto.rowsUsed = s.sto.rowsUsed := ⟨rfl, rfl⟩
  clear hexec hgo
  generalize (s.ask 6 (rowKey pc row) 4096).2 = u at *
  have hrows : u.get (F.STO_REPAIR_SPARE_ROWS (pc / 32)) = s.get (F.STO_REPAIR_SPARE_ROWS (pc / 32)) := hshare.fld (by
    simp only [askShare, F.STO_CLASS_BACKLOG_BYTES, F.STO_REPAIR_SPARE_ROWS]
    omega)
  have hl : u.lcnt = s.lcnt := (congrArg State.lcnt hshare.frame).trans rfl
  obtain ⟨hlcnt, hcop, hused, hce, hspare, hactive, hput, hframe⟩ := u.rowSwitch_effect (row := row) (b := boundaryAt s.lcnt) pc.isLt
  rw [hl] at hlcnt
  rw [hsto.1] at hcop
  rw [hsto.2] at hused
  rw [hrows] at hspare
  generalize u.rowSwitch pc row (boundaryAt s.lcnt) = t at *
  refine ⟨hlcnt, hcop, hused, hce, hspare, hactive, (honly.mono (by simp)).trans (hput.mono (by simp)), ?_⟩
  rw [hframe, hshare.frame]
  rfl

/-! ### A lane's spare takes over (R156, R160) -/

section
variable {pc : Fin 128} {s : State}

/-- At the boundary the lane is no longer due. -/
def State.laneTaken (s : State) (pc : Nat) : State :=
  { s.at_ (boundaryAt s.lcnt) with sto := { s.sto with laneDue := s.sto.laneDue.filter (fun x => x != pc) } }

/-- The spare lane is used. -/
def State.laneReplaced (u : State) (pc : Nat) : State :=
  { u.put (F.STO_REPAIR_SPARE_LANES (pc / 32)) (u.get (F.STO_REPAIR_SPARE_LANES (pc / 32)) - 1) with
    sto := { u.sto with laneUsed := pc :: u.sto.laneUsed } }

theorem exec_laneSpareReplace (h : pc.val ∈ s.sto.laneDue) : exec (.laneSpareReplace pc) s =
    .next (if s.sto.laneUsed.contains pc.val = true then (s.laneTaken pc).failPending pc else (s.laneTaken pc).laneReplaced pc) :=
  congrArg Host.Outcome.next (if_pos (List.contains_iff_mem.mpr h))

theorem exec_laneSpareReplace_spare (h : pc.val ∈ s.sto.laneDue) (hu : pc.val ∉ s.sto.laneUsed) :
    ∃ t, exec (.laneSpareReplace pc) s = .next t ∧ pc.val ∈ t.sto.laneUsed ∧ pc.val ∉ t.sto.laneDue ∧
      t.get (F.STO_REPAIR_SPARE_LANES (pc / 32)) = s.get (F.STO_REPAIR_SPARE_LANES (pc / 32)) - 1 ∧
      changesOnly [F.STO_REPAIR_SPARE_LANES (pc / 32)] s t ∧ t = { s with lcnt := t.lcnt, regs := t.regs, sto := t.sto } := by
  have hlt := RegTab.fld_lt s.regs (F.STO_REPAIR_SPARE_LANES (pc / 32))
  have hw : (F.STO_REPAIR_SPARE_LANES (pc / 32)).width = 8 := rfl
  rw [hw] at hlt
  refine ⟨_, (exec_laneSpareReplace h).trans (congrArg Host.Outcome.next (if_neg (by simpa using hu))), List.mem_cons_self, ?_, ?_, ?_, rfl⟩
  · show pc.val ∉ s.sto.laneDue.filter (fun x => x != pc.val)
    simp
  · have hmod : (s.get (F.STO_REPAIR_SPARE_LANES (pc / 32)) - 1) % 2 ^ 8 = s.get (F.STO_REPAIR_SPARE_LANES (pc / 32)) - 1 :=
      Nat.mod_eq_of_lt (Nat.lt_of_le_of_lt (Nat.sub_le _ _) hlt)
    rw [← hmod]
    show ((s.laneTaken pc).put (F.STO_REPAIR_SPARE_LANES (pc / 32)) (s.get (F.STO_REPAIR_SPARE_LANES (pc / 32)) - 1)).get _ = _
    simp (disch := first | exact .of rfl (by omega) | omega) [State.get, hw]
  · have h1 := ((changesOnly.refl [F.STO_REPAIR_SPARE_LANES (pc / 32)] s).parts (u := s.laneTaken pc) rfl rfl rfl rfl).put
      (f := F.STO_REPAIR_SPARE_LANES (pc / 32)) (v := s.get (F.STO_REPAIR_SPARE_LANES (pc / 32)) - 1) (by simp)
    exact h1.parts rfl rfl rfl rfl

/-- The channel group of a pseudo-channel is shown as awaiting its fence. -/
theorem State.failPending_shown (u : State) {pc : Nat} (hpc : pc < 128) (hp : pc ∉ u.sto.pendPc) :
    bitOf ((u.failPending pc).get (F.STO_REPAIR_FAIL_PENDING (pc / 32))) (pc / 4 % 8) = true ∧ (u.failPending pc).flag F.STO_STATUS_FAIL_PENDING = true ∧
    (0x0803, u.locusPc pc) ∈ (u.failPending pc).log.seen ∧
    changesOnly ([F.STO_REPAIR_FAIL_PENDING (pc / 32), F.STO_STATUS_FAIL_PENDING] ++ logFlds) u (u.failPending pc) := by
  rw [u.failPending_eq pc, if_neg (by simpa using hp)]
  have hw : (F.STO_REPAIR_FAIL_PENDING (pc / 32)).width = 8 := rfl
  have hbit : bitOf ((u.pendingShown pc).get (F.STO_REPAIR_FAIL_PENDING (pc / 32))) (pc / 4 % 8) = true := by
    have hget : (u.pendingShown pc).get (F.STO_REPAIR_FAIL_PENDING (pc / 32)) = setBit (u.get (F.STO_REPAIR_FAIL_PENDING (pc / 32))) (pc / 4 % 8) % 2 ^ 8 := by
      simp (disch := first | exact .of rfl (by omega) | omega) [State.get, State.pendingShown, hw]
    rw [hget, bitOf_mod (Nat.mod_lt _ (by omega))]
    exact bitOf_setBit _ _
  have hflag : (u.pendingShown pc).flag F.STO_STATUS_FAIL_PENDING = true := RegTab.bit_setFld_one _ (.of rfl (by omega))
  have honly : changesOnly ([F.STO_REPAIR_FAIL_PENDING (pc / 32), F.STO_STATUS_FAIL_PENDING] ++ logFlds) u (u.pendingShown pc) := by
    have h := (changesOnly.refl ([F.STO_REPAIR_FAIL_PENDING (pc / 32), F.STO_STATUS_FAIL_PENDING] ++ logFlds) u).put
      (f := F.STO_REPAIR_FAIL_PENDING (pc / 32)) (v := setBit (u.get (F.STO_REPAIR_FAIL_PENDING (pc / 32))) (pc / 4 % 8)) (by simp)
    exact (h.put (f := F.STO_STATUS_FAIL_PENDING) (v := 1) (by simp)).parts rfl rfl rfl rfl
  generalize u.pendingShown pc = v at *
  refine ⟨?_, (v.bit_post _ _ _ _ (.of rfl (by omega))).trans hflag, v.post_seen _ _ _ _, honly.post⟩
  have hpost : (v.post u.lcnt 0x0803 (u.locusPc pc) 0).get (F.STO_REPAIR_FAIL_PENDING (pc / 32)) = v.get (F.STO_REPAIR_FAIL_PENDING (pc / 32)) :=
    v.fld_post _ _ _ _ (.of rfl (by omega))
  rw [hpost]
  exact hbit

theorem exec_laneSpareReplace_pending (h : pc.val ∈ s.sto.laneDue) (hu : pc.val ∈ s.sto.laneUsed) (hp : pc.val ∉ s.sto.pendPc) :
    ∃ t, exec (.laneSpareReplace pc) s = .next t ∧ pc.val ∉ t.sto.laneDue ∧
      bitOf (t.get (F.STO_REPAIR_FAIL_PENDING (pc / 32))) (pc / 4 % 8) = true ∧ t.flag F.STO_STATUS_FAIL_PENDING = true ∧
      (0x0803, s.locusPc pc) ∈ t.log.seen ∧
      changesOnly ([F.STO_REPAIR_FAIL_PENDING (pc / 32), F.STO_STATUS_FAIL_PENDING] ++ logFlds) s t := by
  refine ⟨_, (exec_laneSpareReplace h).trans (congrArg Host.Outcome.next (if_pos (List.contains_iff_mem.mpr hu))), ?_⟩
  have honly : changesOnly ([F.STO_REPAIR_FAIL_PENDING (pc / 32), F.STO_STATUS_FAIL_PENDING] ++ logFlds) s (s.laneTaken pc) :=
    (changesOnly.refl _ s).parts rfl rfl rfl rfl
  have hlocus : (s.laneTaken pc).locusPc pc = s.locusPc pc := rfl
  have hdue : pc.val ∉ (s.laneTaken pc).sto.laneDue := by
    show pc.val ∉ s.sto.laneDue.filter (fun x => x != pc.val)
    simp
  have hpend : pc.val ∉ (s.laneTaken pc).sto.pendPc := hp
  generalize s.laneTaken pc = u at *
  have hasked := u.failPending_asked pc
  obtain ⟨hbit, hflag, hseen, hshown⟩ := u.failPending_shown pc.isLt hpend
  rw [hlocus] at hseen
  generalize u.failPending pc = t at *
  refine ⟨?_, hbit, hflag, hseen, honly.trans hshown⟩
  rw [hasked.sto]
  exact hdue

end

/-! ### A stack fails (R173) -/

/-- What the failure of a stack leaves of group g. -/
structure StackStopped (g : Nat) (s t : State) : Prop where
  disarmed : (t.grp g).armed = false
  stopped : (s.grp g).armed = true → t.get (F.TRG_GRP_STATUS_STATE g) = 6
  kept : (s.grp g).armed = false → t = s
  other : ∀ k, k ≠ g → k < 16 → t.grp k = s.grp k ∧ t.get (F.TRG_GRP_STATUS_STATE k) = s.get (F.TRG_GRP_STATUS_STATE k)
  lcnt : t.lcnt = s.lcnt

section
variable (s : State)

/-- The end of an acquisition leaves the states of other groups. -/
theorem State.endAcq_states {g k : Nat} (b : Nat) (hk : k ≠ g) (hk16 : k < 16) (hg : g < 16) :
    (s.endAcq g b).get (F.TRG_GRP_STATUS_STATE k) = s.get (F.TRG_GRP_STATUS_STATE k) := by
  obtain ⟨y, lost, dead, heq, -⟩ := s.endAcq_eq g b
  have hbooks : (s.booksClosed g b).get (F.TRG_GRP_STATUS_STATE k) = s.get (F.TRG_GRP_STATUS_STATE k) := by
    have hoff : ¬0x500000 ≤ (F.TRG_GRP_STATUS_STATE k).off := by
      simp only [F.TRG_GRP_STATUS_STATE]
      omega
    unfold State.booksClosed
    have hgap := (s.gapEnd_booked g b ((s.grp g).drop.filter (fun x => (s.grp g).closing.any (fun r => decide (x ≤ r.e))))).share
    generalize s.gapEnd g b _ = u at *
    exact ((u.avgStop_tallyShare g).fld hoff).trans (hgap.fld hoff)
  rw [heq, ← hbooks]
  generalize s.booksClosed g b = u
  have hlost : ∀ v : State, (v.setF (F.TRG_GRP_STATUS_FORCE_LOST g)).get (F.TRG_GRP_STATUS_STATE k) = v.get (F.TRG_GRP_STATUS_STATE k) := fun v =>
    RegTab.fld_setFld_sep _ _ (.of rfl (by omega))
  refine (State.fld_post _ _ _ _ _ (.of rfl (by omega))).trans ((RegTab.fld_setFld_sep _ _ (.of rfl (by omega))).trans ?_)
  cases lost with
  | true => exact (hlost (u.setGrp g y)).trans rfl
  | false => rfl

/-- The torn record and the loss of an armed group when a stack fails. -/
theorem State.stackStop_armed (g c : Nat) (h : (s.grp g).armed = true) :
    ∃ v : State, s.stackStop g c = v.endAcq g c ∧ (∀ k, k ≠ g → v.grp k = s.grp k) ∧ v.regs = s.regs ∧ v.lcnt = s.lcnt := by
  unfold State.stackStop
  dsimp only
  rw [if_neg (by rw [h]; decide)]
  split
  · exact ⟨_, rfl, fun k hk => (State.grp_setGrp_other _ hk _).trans (s.grp_setGrp_other hk _), rfl, rfl⟩
  · exact ⟨_, rfl, fun k hk => s.grp_setGrp_other hk _, rfl, rfl⟩

theorem State.stackStop_stopped {g c : Nat} (hg : g < 16) : StackStopped g s (s.stackStop g c) := by
  cases ha : (s.grp g).armed with
  | false =>
    have hsame : s.stackStop g c = s := if_pos ha
    rw [hsame]
    exact ⟨ha, fun h => absurd (ha.symm.trans h) (by decide), fun _ => rfl, fun _ _ _ => ⟨rfl, rfl⟩, rfl⟩
  | true =>
    obtain ⟨v, hv, hother, hregs, hl⟩ := s.stackStop_armed g c ha
    rw [hv]
    have hend := v.endAcq_ended c hg
    exact ⟨hend.armed, fun _ => hend.state, fun h => absurd (ha.symm.trans h) (by decide), fun k hk h16 => ⟨(hend.other k hk).trans (hother k hk),
      (v.endAcq_states c hk h16 hg).trans (congrArg (fun r : RegTab => r.fld (F.TRG_GRP_STATUS_STATE k)) hregs)⟩, hend.lcnt.trans hl⟩

theorem State.stackStops (c : Nat) (l : List Nat) (hl : l.Nodup) (h16 : ∀ g ∈ l, g < 16) :
    (∀ g < 16, (g ∈ l → ((l.foldl (fun t g => t.stackStop g c) s).grp g).armed = false ∧
        ((s.grp g).armed = true → (l.foldl (fun t g => t.stackStop g c) s).get (F.TRG_GRP_STATUS_STATE g) = 6)) ∧
      (g ∉ l → (l.foldl (fun t g => t.stackStop g c) s).grp g = s.grp g ∧
        (l.foldl (fun t g => t.stackStop g c) s).get (F.TRG_GRP_STATUS_STATE g) = s.get (F.TRG_GRP_STATUS_STATE g))) ∧
    (l.foldl (fun t g => t.stackStop g c) s).lcnt = s.lcnt := by
  induction l generalizing s with
  | nil => exact ⟨fun g _ => ⟨fun h => absurd h (by simp), fun _ => ⟨rfl, rfl⟩⟩, rfl⟩
  | cons x xs ih =>
    rw [List.foldl_cons]
    have hstop := s.stackStop_stopped (g := x) (c := c) (h16 x (by simp))
    generalize s.stackStop x c = u at *
    obtain ⟨hgrps, hl'⟩ := ih u (List.nodup_cons.mp hl).2 (fun g hg => h16 g (by simp [hg]))
    refine ⟨fun g hg => ?_, hl'.trans hstop.lcnt⟩
    obtain ⟨hin, hout⟩ := hgrps g hg
    by_cases hx : g = x
    · subst hx
      obtain ⟨hgrp, hstate⟩ := hout (List.nodup_cons.mp hl).1
      exact ⟨fun _ => ⟨(congrArg Grp.armed hgrp).trans hstop.disarmed, fun ha => hstate.trans (hstop.stopped ha)⟩, fun h => absurd List.mem_cons_self h⟩
    · obtain ⟨hgrp, hstate⟩ := hstop.other g hx hg
      refine ⟨fun h => ?_, fun h => ?_⟩
      · have hmem : g ∈ xs := (List.mem_cons.mp h).resolve_left hx
        exact ⟨(hin hmem).1, fun ha => (hin hmem).2 (by rw [hgrp]; exact ha)⟩
      · have hno : g ∉ xs := fun hm => h (List.mem_cons_of_mem _ hm)
        exact ⟨(hout hno).1.trans hgrp, (hout hno).2.trans hstate⟩

end

/-- The failed stack is shown as awaiting its fence. -/
def State.stackShown (u : State) (k : Nat) : State :=
  (State.put { u with sto := { u.sto with failed := k :: u.sto.failed } } (F.STO_REPAIR_FAIL_PENDING k) 255).setF F.STO_STATUS_FAIL_PENDING

theorem State.stackFail_eq (s : State) {k c : Nat} (h : k ∉ s.sto.failed) : s.stackFail k c =
    (((List.range 16).foldl (fun t g => t.stackStop g c) s).stackShown k).post c 0x0802 (s.locus (10 + k) 15 0xFF 0xFF) 0 :=
  if_neg (by simpa using h)

theorem exec_stackFailure {k : Fin 4} {c : Nat} {s : State} (h : k.val ∉ s.sto.failed) : ∃ t, exec (.stackFailure k c) s = .next t ∧ k.val ∈ t.sto.failed ∧
    t.get (F.STO_REPAIR_FAIL_PENDING k) = 255 ∧ t.flag F.STO_STATUS_FAIL_PENDING = true ∧
    (∀ g : Fin 16, (t.grp g).armed = false ∧ ((s.grp g).armed = true → t.get (F.TRG_GRP_STATUS_STATE g) = 6)) ∧
    (0x0802, s.locus (10 + k) 15 0xFF 0xFF) ∈ t.log.seen ∧ t.lcnt = max s.lcnt c ∧ flashSame s t := by
  have hexec : exec (.stackFailure k c) s = .next _ := congrArg Host.Outcome.next ((s.at_ c).stackFail_eq (k := k) (c := c) h)
  refine ⟨_, hexec, ?_⟩
  have hflash := (fewCommandsWriteTheMemories _ _ _ hexec).2
  obtain ⟨hgrps, hl⟩ := (s.at_ c).stackStops c (List.range 16) List.nodup_range (fun g hg => List.mem_range.mp hg)
  have hlocus : (s.at_ c).locus (10 + k) 15 0xFF 0xFF = s.locus (10 + k) 15 0xFF 0xFF := rfl
  rw [hlocus] at hflash hexec ⊢
  clear hexec
  generalize (List.range 16).foldl (fun t g => t.stackStop g c) (s.at_ c) = u at *
  have hw : (F.STO_REPAIR_FAIL_PENDING k).width = 8 := rfl
  have hk : k.val < 4 := k.isLt
  have hfailed : k.val ∈ (u.stackShown k).sto.failed := List.mem_cons_self
  have hpend : (u.stackShown k).get (F.STO_REPAIR_FAIL_PENDING k) = 255 := by
    simp (disch := first | exact .of rfl (by omega) | omega) [State.get, State.stackShown, hw]
  have hflag : (u.stackShown k).flag F.STO_STATUS_FAIL_PENDING = true := RegTab.bit_setFld_one _ (.of rfl (by omega))
  have hstate : ∀ g : Fin 16, (u.stackShown k).get (F.TRG_GRP_STATUS_STATE g) = u.get (F.TRG_GRP_STATUS_STATE g) := fun g => by
    simp (disch := first | exact .of rfl (by omega) | omega) [State.get, State.stackShown]
  have hshown : (u.stackShown k).grps = u.grps ∧ (u.stackShown k).lcnt = u.lcnt := ⟨rfl, rfl⟩
  generalize u.stackShown k = v at *
  have hpost : ∀ f : Fld, f.Low → (v.post c 0x0802 (s.locus (10 + k) 15 0xFF 0xFF) 0).get f = v.get f := fun f hf => v.fld_post _ _ _ _ hf
  have heq := v.post_eq c 0x0802 (s.locus (10 + k) 15 0xFF 0xFF) 0
  refine ⟨?_, (hpost _ (.of rfl (by omega))).trans hpend, (v.bit_post _ _ _ _ (.of rfl (by omega))).trans hflag, fun g => ?_, v.post_seen _ _ _ _, ?_, hflash⟩
  · rw [heq]
    exact hfailed
  · have hgrp : (v.post c 0x0802 (s.locus (10 + k) 15 0xFF 0xFF) 0).grp g = u.grp g := grp_of_grps (((congrArg State.grps heq).trans rfl).trans hshown.1) g
    obtain ⟨hin, -⟩ := hgrps g g.isLt
    obtain ⟨harm, hstop⟩ := hin (List.mem_range.mpr g.isLt)
    exact ⟨(congrArg Grp.armed hgrp).trans harm, fun ha => ((hpost _ (.of rfl (by omega))).trans (hstate g)).trans (hstop ha)⟩
  · exact (((congrArg State.lcnt heq).trans rfl).trans hshown.2).trans hl

/-- Settles O29: a row's copy, a lane's spare and a stack's failure. -/
theorem storeSparesAndStackFailure : Obligations.StoreSparesAndStackFailure := by
  refine ⟨fun pc row s h => ⟨fun hgo => exec_rowRepairSwitch_done h hgo, fun hno => ?_⟩, fun pc row s h => ?_,
    fun pc s h => ⟨fun hu => exec_laneSpareReplace_spare h hu, fun hu hp => exec_laneSpareReplace_pending h hu hp⟩,
    fun pc s h => congrArg Host.Outcome.next (if_neg (by simpa using h)), fun k c s h => exec_stackFailure h, fun k c s h => ?_⟩
  · rw [exec_rowRepairSwitch h, hno, if_neg (by decide)]
  · refine congrArg Host.Outcome.next (if_neg ?_)
    rw [h]
    simp
  · exact congrArg Host.Outcome.next (if_pos (List.contains_iff_mem.mpr h))

end Sys2Proof.Machine
end

section
/-! SUPPORT. Readout queues start, ring and abort (R202, R204, R205, R219, R220, R222). -/

namespace Sys2Proof.Machine

open Sys2Proof.Safety

/-! ### A descriptor is asked for (R219) -/

theorem RegTab.wide_lt (r : RegTab) (off n : Nat) : r.wide off n < 2 ^ (32 * n) := by
  induction n generalizing off with
  | zero => exact Nat.one_pos
  | succ n ih =>
    have h := ih (off + 4)
    have hw := (r.word off).isLt
    rw [RegTab.wide, Nat.mul_succ, Nat.pow_add]
    omega

/-- Queue q has asked host memory for the descriptor at an address. -/
structure Fetching (q addr : Nat) (again : Bool) (s t : State) : Prop where
  hops : t.get (F.DMA_QC_HOPS_HOPS q) = (s.get (F.DMA_QC_HOPS_HOPS q) + 1) % 2 ^ 21
  cur : t.getN (R.DMA_QC_CUR q) 2 = addr % 2 ^ 64
  out : t.out = .hostRead addr 64 :: s.out
  hostq : t.hostq q = { s.hostq q with fetch := some (addr, again), fetchAt := s.lcnt }
  other : ∀ k, k ≠ q → t.hostq k = s.hostq k
  state : t.get (F.DMA_QC_STATUS_STATE q) = s.get (F.DMA_QC_STATUS_STATE q)
  rung : t.get (F.DMA_QC_DB_CNT_COUNT q) = s.get (F.DMA_QC_DB_CNT_COUNT q)
  done : t.get (F.DMA_QC_DONE_CNT_COUNT q) = s.get (F.DMA_QC_DONE_CNT_COUNT q)
  only : changesOnly ([F.DMA_QC_HOPS_HOPS q] ++ wideFlds (R.DMA_QC_CUR q) 2) s t
  frame : t = { s with out := t.out, regs := t.regs, hostqs := t.hostqs }

section
variable (s : State) (q : Nat)

theorem State.issueFetch_fetching (addr : Nat) (again : Bool) : Fetching q addr again s (s.issueFetch q addr again) := by
  unfold State.issueFetch
  dsimp only
  have hops : (s.incWrap (F.DMA_QC_HOPS_HOPS q)).get (F.DMA_QC_HOPS_HOPS q) = (s.get (F.DMA_QC_HOPS_HOPS q) + 1) % 2 ^ 21 :=
    State.get_incWrap_width (w := 21) _ (F.DMA_QC_HOPS_HOPS q) (.of rfl (by omega)) rfl
  have hstate : (s.incWrap (F.DMA_QC_HOPS_HOPS q)).get (F.DMA_QC_STATUS_STATE q) = s.get (F.DMA_QC_STATUS_STATE q) :=
    RegTab.fld_setFld_sep _ _ (.of rfl (by omega))
  have hrung : (s.incWrap (F.DMA_QC_HOPS_HOPS q)).get (F.DMA_QC_DB_CNT_COUNT q) = s.get (F.DMA_QC_DB_CNT_COUNT q) :=
    RegTab.fld_setFld_sep _ _ (.of rfl (by omega))
  have hdone : (s.incWrap (F.DMA_QC_HOPS_HOPS q)).get (F.DMA_QC_DONE_CNT_COUNT q) = s.get (F.DMA_QC_DONE_CNT_COUNT q) :=
    RegTab.fld_setFld_sep _ _ (.of rfl (by omega))
  have honly : changesOnly ([F.DMA_QC_HOPS_HOPS q] ++ wideFlds (R.DMA_QC_CUR q) 2) s (s.incWrap (F.DMA_QC_HOPS_HOPS q)) :=
    (changesOnly.refl _ s).put (by simp)
  have hframe : s.incWrap (F.DMA_QC_HOPS_HOPS q) = { s with regs := (s.incWrap (F.DMA_QC_HOPS_HOPS q)).regs } := rfl
  generalize s.incWrap (F.DMA_QC_HOPS_HOPS q) = u at *
  have hwide : ∀ (v : State) (f : Fld), RegTab.Beside f (R.DMA_QC_CUR q) 2 → (v.putN (R.DMA_QC_CUR q) 2 addr).get f = v.get f := fun v f hf =>
    RegTab.fld_setWide_beside _ _ hf
  have hset := u.setHostq_hostq_same q { s.hostq q with fetch := some (addr, again), fetchAt := s.lcnt }
  have hother : ∀ k, k ≠ q → (u.setHostq q { s.hostq q with fetch := some (addr, again), fetchAt := s.lcnt }).hostq k = u.hostq k :=
    fun k hk => u.setHostq_hostq_other _ _ _ hk
  have hregs : (u.setHostq q { s.hostq q with fetch := some (addr, again), fetchAt := s.lcnt }).regs = u.regs := rfl
  have hsetframe : u.setHostq q { s.hostq q with fetch := some (addr, again), fetchAt := s.lcnt } =
    { u with hostqs := (u.setHostq q { s.hostq q with fetch := some (addr, again), fetchAt := s.lcnt }).hostqs } := rfl
  have honly2 := honly.parts (u := u.setHostq q { s.hostq q with fetch := some (addr, again), fetchAt := s.lcnt }) rfl rfl rfl rfl
  generalize u.setHostq q { s.hostq q with fetch := some (addr, again), fetchAt := s.lcnt } = v at *
  have hget : ∀ f : Fld, v.get f = u.get f := fun f => congrArg (fun r : RegTab => r.fld f) hregs
  have hhost : ∀ k, u.hostq k = s.hostq k := fun k => congrArg (fun x => Tab.get HostQ.init x k) ((congrArg State.hostqs hframe).trans rfl)
  refine ⟨(hwide v _ (.of rfl (by simp only [R.DMA_QC_CUR]; omega))).trans ((hget _).trans hops), State.getN_putN_mod _ _ _ rfl, ?_, hset,
    fun k hk => (hother k hk).trans (hhost k), (hwide v _ (.of rfl (by simp only [R.DMA_QC_CUR]; omega))).trans ((hget _).trans hstate),
    (hwide v _ (.of rfl (by simp only [R.DMA_QC_CUR]; omega))).trans ((hget _).trans hrung),
    (hwide v _ (.of rfl (by simp only [R.DMA_QC_CUR]; omega))).trans ((hget _).trans hdone),
    (honly2.putN (v := addr) fun f hf => List.mem_append_right _ hf).parts rfl rfl rfl rfl, ?_⟩
  · exact congrArg (List.cons (Out.hostRead addr 64)) (((congrArg State.out hsetframe).trans rfl).trans ((congrArg State.out hframe).trans rfl))
  · exact (congrArg (fun x : State => { x with out := Out.hostRead addr 64 :: v.out, regs := (v.putN (R.DMA_QC_CUR q) 2 addr).regs }) hsetframe).trans
      ((congrArg (fun x : State => { x with out := Out.hostRead addr 64 :: v.out, regs := (v.putN (R.DMA_QC_CUR q) 2 addr).regs, hostqs := v.hostqs }) hframe).trans rfl)

theorem State.nextDesc_of_hops {addr : Nat} (h : s.get (F.DMA_QC_HOPS_HOPS q) ≠ 1048576) : s.nextDesc q addr = s.issueFetch q addr false := if_neg h

end

/-! ### The doorbell (R202) -/

section
variable {fn : Fin 64} {q : Fin 1024} {s : State}

theorem exec_doorbell (fn : Fin 64) (q : Fin 1024) (s : State) : exec (.doorbell fn ⟨4096 * q, true⟩) s = .next (s.doorbell fn q) := by
  have hq : q.val < 1024 := q.isLt
  have hin : 4096 * q.val % 4096 = 0 ∧ 4096 * q.val < 4194304 := ⟨Nat.mul_mod_right _ _, by omega⟩
  have hdiv : 4096 * q.val / 4096 = q.val := Nat.mul_div_cancel_left _ (by omega)
  refine congrArg Host.Outcome.next ((if_neg (by simp)).trans ((if_pos hin).trans ?_))
  rw [hdiv]

/-- The doorbell is counted, and no fetch has been made for it. -/
def State.rung (s : State) (q : Nat) : State := (s.incWrap (F.DMA_QC_DB_CNT_COUNT q)).put (F.DMA_QC_HOPS_HOPS q) 0

theorem State.doorbell_eq (hr : s.reaches fn q = true) : s.doorbell fn q = match (s.hostq q).fetch with
    | some (_, true) => (s.rung q).setHostq q { s.hostq q with owed := (s.hostq q).owed + 1 }
    | _ => if s.get (F.DMA_QC_STATUS_STATE q) = 2 then (s.rung q).issueFetch q (s.hostq q).tail true else s.rung q := by
  unfold State.doorbell
  rw [if_neg (by rw [hr]; decide)]
  rfl

theorem State.rung_effect (s : State) (q : Nat) : (s.rung q).get (F.DMA_QC_DB_CNT_COUNT q) = (s.get (F.DMA_QC_DB_CNT_COUNT q) + 1) % 2 ^ 32 ∧
    (s.rung q).get (F.DMA_QC_HOPS_HOPS q) = 0 ∧ changesOnly [F.DMA_QC_DB_CNT_COUNT q, F.DMA_QC_HOPS_HOPS q] s (s.rung q) ∧
    s.rung q = { s with regs := (s.rung q).regs } := by
  have hcnt : (s.incWrap (F.DMA_QC_DB_CNT_COUNT q)).get (F.DMA_QC_DB_CNT_COUNT q) = (s.get (F.DMA_QC_DB_CNT_COUNT q) + 1) % 2 ^ 32 :=
    State.get_incWrap_width (w := 32) _ (F.DMA_QC_DB_CNT_COUNT q) (.of rfl (by omega)) rfl
  have honly : changesOnly [F.DMA_QC_DB_CNT_COUNT q, F.DMA_QC_HOPS_HOPS q] s (s.incWrap (F.DMA_QC_DB_CNT_COUNT q)) :=
    (changesOnly.refl _ s).put (by simp)
  refine ⟨(RegTab.fld_setFld_sep _ _ (.of rfl (by omega))).trans hcnt, ?_, honly.put (by simp), rfl⟩
  exact (RegTab.fld_setFld_self _ _ (.of rfl (by omega))).trans (Nat.zero_mod _)

theorem exec_doorbell_parked (hr : s.reaches fn q = true) (hs : s.get (F.DMA_QC_STATUS_STATE q) = 2) (hf : (s.hostq q).fetch = none) :
    ∃ t, exec (.doorbell fn ⟨4096 * q, true⟩) s = .next t ∧
      t.get (F.DMA_QC_DB_CNT_COUNT q) = (s.get (F.DMA_QC_DB_CNT_COUNT q) + 1) % 2 ^ 32 ∧ t.get (F.DMA_QC_HOPS_HOPS q) = 1 ∧
      t.out = .hostRead (s.hostq q).tail 64 :: s.out ∧ (t.hostq q).fetch = some ((s.hostq q).tail, true) ∧
      changesOnly ([F.DMA_QC_DB_CNT_COUNT q, F.DMA_QC_HOPS_HOPS q] ++ wideFlds (R.DMA_QC_CUR q) 2) s t ∧
      t = { s with out := t.out, regs := t.regs, hostqs := t.hostqs } := by
  have hring : s.doorbell fn q = (s.rung q).issueFetch q (s.hostq q).tail true := by
    rw [State.doorbell_eq hr, hf]
    exact if_pos hs
  refine ⟨_, (exec_doorbell fn q s).trans (congrArg Host.Outcome.next hring), ?_⟩
  obtain ⟨hcnt, hzero, honly, hframe⟩ := s.rung_effect q
  generalize s.rung q = u at *
  have hfetch := u.issueFetch_fetching q (s.hostq q).tail true
  generalize u.issueFetch q (s.hostq q).tail true = t at *
  refine ⟨hfetch.rung.trans hcnt, ?_, hfetch.out.trans (congrArg (List.cons _) ((congrArg State.out hframe).trans rfl)),
    (congrArg HostQ.fetch hfetch.hostq).trans rfl, ?_, ?_⟩
  · rw [hfetch.hops, hzero]
    rfl
  · exact (honly.mono fun f hf => List.mem_append_left _ hf).trans (hfetch.only.mono fun f hf => by
      rcases List.mem_append.mp hf with hf | hf
      · exact List.mem_append_left _ (List.mem_cons_of_mem _ hf)
      · exact List.mem_append_right _ hf)
  · rw [hfetch.frame, hframe]

theorem exec_doorbell_running (hr : s.reaches fn q = true) (hs : s.get (F.DMA_QC_STATUS_STATE q) ≠ 2) (hf : (s.hostq q).fetch = none) :
    ∃ t, exec (.doorbell fn ⟨4096 * q, true⟩) s = .next t ∧
      t.get (F.DMA_QC_DB_CNT_COUNT q) = (s.get (F.DMA_QC_DB_CNT_COUNT q) + 1) % 2 ^ 32 ∧ t.get (F.DMA_QC_HOPS_HOPS q) = 0 ∧
      changesOnly [F.DMA_QC_DB_CNT_COUNT q, F.DMA_QC_HOPS_HOPS q] s t ∧ t = { s with regs := t.regs } := by
  have hring : s.doorbell fn q = s.rung q := by
    rw [State.doorbell_eq hr, hf]
    exact if_neg hs
  exact ⟨_, (exec_doorbell fn q s).trans (congrArg Host.Outcome.next hring), s.rung_effect q⟩

theorem exec_doorbell_owed (hr : s.reaches fn q = true) {a : Nat} (hf : (s.hostq q).fetch = some (a, true)) :
    ∃ t, exec (.doorbell fn ⟨4096 * q, true⟩) s = .next t ∧
      t.hostq q = { s.hostq q with owed := (s.hostq q).owed + 1 } ∧ t.out = s.out ∧
      changesOnly [F.DMA_QC_DB_CNT_COUNT q, F.DMA_QC_HOPS_HOPS q] s t := by
  have hring : s.doorbell fn q = (s.rung q).setHostq q { s.hostq q with owed := (s.hostq q).owed + 1 } := by
    rw [State.doorbell_eq hr, hf]
  exact ⟨_, (exec_doorbell fn q s).trans (congrArg Host.Outcome.next hring), State.setHostq_hostq_same _ _ _, rfl,
    (s.rung_effect q).2.2.1.parts rfl rfl rfl rfl⟩

/-! ### START and RESUME (R205, R222) -/

theorem exec_queueStart (hr : s.reaches fn q = true) (ho : s.isHostQ q = true) {h : Nat} (hs : s.get (F.DMA_QC_STATUS_STATE q) = 0)
    (hh : h = s.getN (R.DMA_QC_HEAD q) 2 / 64 * 64) : ∃ t, exec (.queueStart fn q) s = .next t ∧ t.get (F.DMA_QC_STATUS_STATE q) = 1 ∧
      t.get (F.DMA_QC_HOPS_HOPS q) = 1 ∧ t.getN (R.DMA_QC_CUR q) 2 = h ∧ t.out = .hostRead h 64 :: s.out ∧
      t.hostq q = { s.hostq q with fetch := some (h, false), fetchAt := s.lcnt } ∧ (∀ k : Nat, k ≠ q → t.hostq k = s.hostq k) ∧
      changesOnly ([F.DMA_QC_STATUS_STATE q, F.DMA_QC_HOPS_HOPS q] ++ wideFlds (R.DMA_QC_CUR q) 2) s t ∧
      t = { s with out := t.out, regs := t.regs, hostqs := t.hostqs } := by
  have hstart : s.startQ fn q = ((s.put (F.DMA_QC_STATUS_STATE q) 1).put (F.DMA_QC_HOPS_HOPS q) 0).nextDesc q h := by
    unfold State.startQ
    rw [hh]
    exact if_pos ⟨hr, ho, hs⟩
  have hw4 : (F.DMA_QC_STATUS_STATE q).width = 4 := rfl
  have hstate : ((s.put (F.DMA_QC_STATUS_STATE q) 1).put (F.DMA_QC_HOPS_HOPS q) 0).get (F.DMA_QC_STATUS_STATE q) = 1 := by
    simp (disch := first | exact .of rfl (by omega) | omega) [State.get, hw4]
  have hhops : ((s.put (F.DMA_QC_STATUS_STATE q) 1).put (F.DMA_QC_HOPS_HOPS q) 0).get (F.DMA_QC_HOPS_HOPS q) = 0 :=
    (RegTab.fld_setFld_self _ _ (.of rfl (by omega))).trans (Nat.zero_mod _)
  have honly : changesOnly ([F.DMA_QC_STATUS_STATE q, F.DMA_QC_HOPS_HOPS q] ++ wideFlds (R.DMA_QC_CUR q) 2) s
      ((s.put (F.DMA_QC_STATUS_STATE q) 1).put (F.DMA_QC_HOPS_HOPS q) 0) := by
    have h1 := (changesOnly.refl ([F.DMA_QC_STATUS_STATE q, F.DMA_QC_HOPS_HOPS q] ++ wideFlds (R.DMA_QC_CUR q) 2) s).put
      (f := F.DMA_QC_STATUS_STATE q) (v := 1) (by simp)
    exact h1.put (f := F.DMA_QC_HOPS_HOPS q) (v := 0) (by simp)
  have hframe : (s.put (F.DMA_QC_STATUS_STATE q) 1).put (F.DMA_QC_HOPS_HOPS q) 0 =
    { s with regs := ((s.put (F.DMA_QC_STATUS_STATE q) 1).put (F.DMA_QC_HOPS_HOPS q) 0).regs } := rfl
  refine ⟨_, congrArg Host.Outcome.next hstart, ?_⟩
  have hlt : h < 2 ^ 64 := by
    have := RegTab.wide_lt s.regs (R.DMA_QC_HEAD q) 2
    have hle : h ≤ s.getN (R.DMA_QC_HEAD q) 2 := hh ▸ Nat.div_mul_le_self _ _
    exact Nat.lt_of_le_of_lt hle this
  clear hstart hh
  generalize (s.put (F.DMA_QC_STATUS_STATE q) 1).put (F.DMA_QC_HOPS_HOPS q) 0 = u at *
  rw [u.nextDesc_of_hops q (by rw [hhops]; decide)]
  have hfetch := u.issueFetch_fetching q h false
  generalize u.issueFetch q h false = t at *
  have hlcnt : u.lcnt = s.lcnt := (congrArg State.lcnt hframe).trans rfl
  have hhost : ∀ k, u.hostq k = s.hostq k := fun k => congrArg (fun x => Tab.get HostQ.init x k) ((congrArg State.hostqs hframe).trans rfl)
  refine ⟨hfetch.state.trans hstate, ?_, hfetch.cur.trans (Nat.mod_eq_of_lt hlt), hfetch.out.trans (congrArg (List.cons _) ((congrArg State.out hframe).trans rfl)),
    ?_, fun k hk => (hfetch.other k hk).trans (hhost k), ?_, ?_⟩
  · rw [hfetch.hops, hhops]
    rfl
  · rw [hfetch.hostq, hhost q, hlcnt]
  · refine honly.trans (hfetch.only.mono fun f hf => ?_)
    rcases List.mem_append.mp hf with hf | hf
    · exact List.mem_append_left _ (List.mem_cons_of_mem _ hf)
    · exact List.mem_append_right _ hf
  · rw [hfetch.frame, hframe]

theorem exec_queueResume (hr : s.reaches fn q = true) (ho : s.isHostQ q = true) (hs : s.get (F.DMA_QC_STATUS_STATE q) = 3)
    (hh : s.get (F.DMA_QC_HOPS_HOPS q) ≠ 1048576) : ∃ t, exec (.queueResume fn q) s = .next t ∧ t.get (F.DMA_QC_STATUS_STATE q) = 1 ∧
      t.getN (R.DMA_QC_CUR q) 2 = s.getN (R.DMA_QC_CUR q) 2 ∧ t.out = .hostRead (s.getN (R.DMA_QC_CUR q) 2) 64 :: s.out ∧
      t.hostq q = { s.hostq q with fetch := some (s.getN (R.DMA_QC_CUR q) 2, false), fetchAt := s.lcnt } ∧
      changesOnly ([F.DMA_QC_STATUS_STATE q, F.DMA_QC_HOPS_HOPS q] ++ wideFlds (R.DMA_QC_CUR q) 2) s t ∧
      t = { s with out := t.out, regs := t.regs, hostqs := t.hostqs } := by
  have hresume : s.resumeQ fn q = (s.put (F.DMA_QC_STATUS_STATE q) 1).nextDesc q (s.getN (R.DMA_QC_CUR q) 2) := if_pos ⟨hr, ho, hs⟩
  have hw4 : (F.DMA_QC_STATUS_STATE q).width = 4 := rfl
  have hstate : (s.put (F.DMA_QC_STATUS_STATE q) 1).get (F.DMA_QC_STATUS_STATE q) = 1 := by
    simp (disch := first | exact .of rfl (by omega) | omega) [State.get, hw4]
  have hhops : (s.put (F.DMA_QC_STATUS_STATE q) 1).get (F.DMA_QC_HOPS_HOPS q) = s.get (F.DMA_QC_HOPS_HOPS q) :=
    RegTab.fld_setFld_sep _ _ (.of rfl (by omega))
  have honly : changesOnly ([F.DMA_QC_STATUS_STATE q, F.DMA_QC_HOPS_HOPS q] ++ wideFlds (R.DMA_QC_CUR q) 2) s (s.put (F.DMA_QC_STATUS_STATE q) 1) :=
    (changesOnly.refl _ s).put (by simp)
  have hframe : s.put (F.DMA_QC_STATUS_STATE q) 1 = { s with regs := (s.put (F.DMA_QC_STATUS_STATE q) 1).regs } := rfl
  have hlt : s.getN (R.DMA_QC_CUR q) 2 < 2 ^ 64 := RegTab.wide_lt s.regs (R.DMA_QC_CUR q) 2
  refine ⟨_, congrArg Host.Outcome.next hresume, ?_⟩
  clear hresume
  generalize s.put (F.DMA_QC_STATUS_STATE q) 1 = u at *
  rw [u.nextDesc_of_hops q (by rw [hhops]; exact hh)]
  have hfetch := u.issueFetch_fetching q (s.getN (R.DMA_QC_CUR q) 2) false
  generalize u.issueFetch q (s.getN (R.DMA_QC_CUR q) 2) false = t at *
  have hlcnt : u.lcnt = s.lcnt := (congrArg State.lcnt hframe).trans rfl
  have hhost : u.hostq q = s.hostq q := congrArg (fun x => Tab.get HostQ.init x q) ((congrArg State.hostqs hframe).trans rfl)
  refine ⟨hfetch.state.trans hstate, hfetch.cur.trans (Nat.mod_eq_of_lt hlt), hfetch.out.trans (congrArg (List.cons _) ((congrArg State.out hframe).trans rfl)), ?_, ?_, ?_⟩
  · rw [hfetch.hostq, hhost, hlcnt]
  · refine honly.trans (hfetch.only.mono fun f hf => ?_)
    rcases List.mem_append.mp hf with hf | hf
    · exact List.mem_append_left _ (List.mem_cons_of_mem _ hf)
    · exact List.mem_append_right _ hf
  · rw [hfetch.frame, hframe]

end

/-! ### ABORT (R222) -/

/-- What the end of a queue's record in progress changes: its group's pins, and the queue. -/
def pinShare : Share where
  upd s t := { s with regs := t.regs, grps := t.grps, hostqs := t.hostqs }
  regs _ := True
  self _ := rfl
  again _ _ _ := rfl

section
variable (s : State) (q : Nat)

theorem State.pinQ_pinShare (g : Nat) (pages : List Nat) : pinShare.Only s (s.pinQ q g pages) :=
  ⟨rfl, fun _ h => absurd trivial h⟩

theorem State.pinQ_hostqs (g : Nat) (pages : List Nat) : (s.pinQ q g pages).hostqs = s.hostqs := rfl

/-- The pages of a queue's record are released. -/
def State.unpinned (s : State) (q : Nat) : State :=
  match (s.hostq q).recd with
  | some r => s.pinQ q r.g []
  | none => s

theorem State.unpinned_effect : pinShare.Only s (s.unpinned q) ∧ (s.unpinned q).hostqs = s.hostqs := by
  unfold State.unpinned
  split
  · exact ⟨s.pinQ_pinShare q _ _, rfl⟩
  · exact ⟨.refl _ _, rfl⟩

/-- The queue's record is over: nothing is held, and the offset is 0. -/
structure RecDropped (q : Nat) (s t : State) : Prop where
  share : pinShare.Only s t
  hostq : t.hostq q = { s.hostq q with recd := none, held := 0, heldBad := false }
  other : ∀ k, k ≠ q → t.hostq k = s.hostq k
  offset : t.get (F.DMA_QC_OFFSET_BYTES q) = 0

theorem hostq_of_hostqs {s t : State} (h : t.hostqs = s.hostqs) (k : Nat) : t.hostq k = s.hostq k := congrArg (fun x => Tab.get HostQ.init x k) h

theorem State.dropRec_dropped : RecDropped q s (s.dropRec q) := by
  have hdrop : s.dropRec q = ((((s.unpinned q).setHostq q { (s.unpinned q).hostq q with recd := none, held := 0, heldBad := false }).put
    (F.DMA_QC_OFFSET_BYTES q) 0).put (F.DMA_QC_HOLD_BITS q) 0) := rfl
  rw [hdrop]
  obtain ⟨hshare, hhost⟩ := s.unpinned_effect q
  generalize s.unpinned q = u at *
  have hset := u.setHostq_hostq_same q { u.hostq q with recd := none, held := 0, heldBad := false }
  have hother : ∀ k, k ≠ q → (u.setHostq q { u.hostq q with recd := none, held := 0, heldBad := false }).hostq k = u.hostq k :=
    fun k hk => u.setHostq_hostq_other _ _ _ hk
  have hu : pinShare.Only u (u.setHostq q { u.hostq q with recd := none, held := 0, heldBad := false }) := .parts rfl rfl
  generalize u.setHostq q { u.hostq q with recd := none, held := 0, heldBad := false } = v at *
  refine ⟨(hshare.trans hu).trans (.trans (.put (f := F.DMA_QC_OFFSET_BYTES q) (v := 0) trivial) (.put (f := F.DMA_QC_HOLD_BITS q) (v := 0) trivial)), ?_,
    fun k hk => (hother k hk).trans (hostq_of_hostqs hhost k), ?_⟩
  · refine hset.trans ?_
    rw [hostq_of_hostqs hhost q]
  · simp (disch := first | exact .of rfl (by omega) | omega) [State.get]

theorem State.unask_askShare (k key : Nat) : (askShare k).Only s (s.unask k key) := by
  unfold State.unask
  split
  · exact ⟨rfl, fun off ho => RegTab.word_setFld_other _ _ _ _ ho⟩
  · exact .refl _ _

theorem State.abortQ_eq (h : s.get (F.DMA_QC_STATUS_STATE q) ≠ 0) : s.abortQ q = (((s.dropRec q).unask 1 q).setHostq q
    { HostQ.init with skipped := (((s.dropRec q).unask 1 q).hostq q).skipped }).put (F.DMA_QC_STATUS_STATE q) 0 := if_neg h

end

theorem exec_queueAbort {fn : Fin 64} {q : Fin 1024} {s : State} (hr : s.reaches fn q = true) (hs : s.get (F.DMA_QC_STATUS_STATE q) ≠ 0) :
    ∃ t, exec (.queueAbort fn q) s = .next t ∧ t.get (F.DMA_QC_STATUS_STATE q) = 0 ∧
      t.get (F.DMA_QC_OFFSET_BYTES q) = 0 ∧ t.hostq q = { HostQ.init with skipped := (s.hostq q).skipped } ∧
      (∀ k : Nat, k ≠ q → t.hostq k = s.hostq k) ∧ memSame s t ∧
      t = { s with regs := t.regs, grps := t.grps, sto := t.sto, hostqs := t.hostqs } := by
  have habort : s.abortCmd fn q = (((s.dropRec q).unask 1 q).setHostq q
      { HostQ.init with skipped := (((s.dropRec q).unask 1 q).hostq q).skipped }).put (F.DMA_QC_STATUS_STATE q) 0 :=
    (if_pos hr).trans (s.abortQ_eq q hs)
  refine ⟨_, congrArg Host.Outcome.next habort, ?_⟩
  clear habort
  obtain ⟨hshare, hhost, hother, hoff⟩ := s.dropRec_dropped q
  generalize s.dropRec q = u at *
  have hunask := u.unask_askShare 1 q
  generalize u.unask 1 q = v at *
  have hv : v.hostqs = u.hostqs := (congrArg State.hostqs hunask.frame).trans rfl
  have hvoff : v.get (F.DMA_QC_OFFSET_BYTES q) = 0 := (hunask.fld (by
    simp only [askShare, F.DMA_QC_OFFSET_BYTES, F.STO_CLASS_BACKLOG_BYTES]
    omega)).trans hoff
  have hskip : (v.hostq q).skipped = (s.hostq q).skipped := (congrArg HostQ.skipped (hostq_of_hostqs hv q)).trans ((congrArg HostQ.skipped hhost).trans rfl)
  rw [hskip]
  have hframe : v = { s with regs := v.regs, grps := v.grps, sto := v.sto, hostqs := v.hostqs } := by
    rw [hunask.frame, hshare.frame]
    rfl
  have hmem : memSame s v := memSame_of_fields ((congrArg State.store hframe).trans rfl) ((congrArg State.flash hframe).trans rfl)
  refine ⟨?_, ?_, State.setHostq_hostq_same _ _ _, fun k hk => (v.setHostq_hostq_other _ _ _ hk).trans ((hostq_of_hostqs hv k).trans (hother k hk)), hmem, ?_⟩
  · exact (RegTab.fld_setFld_self _ _ (.of rfl (by omega))).trans (Nat.zero_mod _)
  · exact (RegTab.fld_setFld_sep _ _ (.of rfl (by omega))).trans hvoff
  · generalize hx : ({ HostQ.init with skipped := (s.hostq q).skipped } : HostQ) = x
    exact (congrArg (fun y : State => (y.setHostq q x).put (F.DMA_QC_STATUS_STATE q) 0) hframe).trans rfl

/-- Settles O34: the doorbell, START, RESUME and ABORT, for function 0 and the queue's owner. -/
theorem queuesStartRingAndAbort : Obligations.QueuesStartRingAndAbort := by
  refine ⟨fun fn off s => ⟨rfl, fun h => congrArg Host.Outcome.next ((if_neg (by simp)).trans (if_neg ?_))⟩, fun fn q s => ⟨fun hno => ?_,
    fun hr ho => ⟨fun h hs hh => exec_queueStart hr ho hs hh, fun hs => congrArg Host.Outcome.next (if_neg fun h => hs h.2.2),
      fun hs hh => exec_queueResume hr ho hs hh, fun hs => congrArg Host.Outcome.next (if_neg fun h => hs h.2.2)⟩,
    fun hr => ⟨fun hs => exec_queueAbort hr hs, fun hs => congrArg Host.Outcome.next ((if_pos hr).trans (if_pos hs)),
      fun hs hf => exec_doorbell_parked hr hs hf, fun hs hf => exec_doorbell_running hr hs hf, fun a hf => exec_doorbell_owed hr hf⟩⟩⟩
  · rintro ⟨h1, h2⟩
    change off % 4096 = 0 at h1
    change off < 4194304 at h2
    omega
  · intro c hc
    have hfalse : ¬s.reaches fn q = true := by
      rw [hno]
      decide
    simp only [List.mem_cons, List.not_mem_nil, or_false] at hc
    rcases hc with rfl | rfl | rfl | rfl
    · exact (exec_doorbell fn q s).trans (congrArg Host.Outcome.next (if_pos hno))
    · exact congrArg Host.Outcome.next (if_neg fun h => hfalse h.1)
    · exact congrArg Host.Outcome.next (if_neg fun h => hfalse h.1)
    · exact congrArg Host.Outcome.next (if_neg hfalse)

end Sys2Proof.Machine
end

section
/-! SUPPORT. What the operations of a readout queue leave (R216, R219, R221, R222). -/

namespace Sys2Proof.Machine

open Sys2Proof.Safety

/-! ### The part of the block that a queue works on -/

/-- What a queue's bookkeeping changes. `any`: also the registers that a group with a number beyond the block's would have. -/
def queueShare (q : Nat) (any : Prop) : Share where
  upd s t := { s with
    out := t.out, regs := t.regs, grps := t.grps, stageFill := t.stageFill, sto := t.sto, hostqs := t.hostqs, msix := t.msix, twin := t.twin, log := t.log }
  regs off := any ∨ off % 256 = 0x40 ∨ (0x500000 ≤ off ∧ off < 0x501000) ∨ off = 0x700114 ∨ 0xF00000 ≤ off ∨ off = 0xA00014 + 0x800 * q ∨
    (0xA00020 + 0x800 * q ≤ off ∧ off < 0xA00030 + 0x800 * q) ∨ (0xA00038 + 0x800 * q ≤ off ∧ off < 0xA00040 + 0x800 * q)
  self _ := rfl
  again _ _ _ := rfl

/-- The group that a completion releases a record of is one of the block's, unless it does not matter. -/
def Comp.relOk (c : Comp) (any : Prop) : Prop := ∀ r, c.rel = some r → any ∨ r.1 < 16

/-- Of the queues only queue q has changed, and one without a descriptor at work has none. -/
structure QueueOnly (q : Nat) (any : Prop) (s t : State) : Prop where
  share : (queueShare q any).Only s t
  other : ∀ k, k ≠ q → t.hostq k = s.hostq k
  idle : (s.hostq q).cur = none → (t.hostq q).cur = none
  pend : (∀ c ∈ (s.hostq q).pend, c.relOk any) → ∀ c ∈ (t.hostq q).pend, c.relOk any

section
variable {q : Nat} {any : Prop} {s t u : State}

theorem QueueOnly.refl (q : Nat) (any : Prop) (s : State) : QueueOnly q any s s := ⟨.refl _ s, fun _ _ => rfl, id, id⟩

theorem QueueOnly.trans (h : QueueOnly q any s t) (k : QueueOnly q any t u) : QueueOnly q any s u :=
  ⟨h.share.trans k.share, fun j hj => (k.other j hj).trans (h.other j hj), fun hi => k.idle (h.idle hi),
    fun hp => k.pend (h.pend hp)⟩

/-- Registers of the share, with the queues as they were. -/
theorem QueueOnly.of_hostqs (h : (queueShare q any).Only s t) (hh : t.hostqs = s.hostqs) : QueueOnly q any s t :=
  ⟨h, fun k _ => hostq_of_hostqs hh k, fun hi => (congrArg HostQ.cur (hostq_of_hostqs hh q)).trans hi,
    fun hp c hc => hp c (by rw [← hostq_of_hostqs hh q]; exact hc)⟩

theorem QueueOnly.setHostq {x : HostQ} (h : (s.hostq q).cur = none → x.cur = none)
    (hp : (∀ c ∈ (s.hostq q).pend, c.relOk any) → ∀ c ∈ x.pend, c.relOk any) : QueueOnly q any s (s.setHostq q x) :=
  ⟨.parts rfl rfl, fun _ hk => s.setHostq_hostq_other _ _ _ hk, fun hi => (congrArg HostQ.cur (s.setHostq_hostq_same q x)).trans (h hi),
    fun hc c hm => hp hc c (by rw [← s.setHostq_hostq_same q x]; exact hm)⟩

/-- A field of the queue's own block. -/
theorem QueueOnly.put {off : Nat} {hi lo v : Nat} (h : off = 0x14 ∨ (0x20 ≤ off ∧ off < 0x30) ∨ (0x38 ≤ off ∧ off < 0x41)) :
    QueueOnly q any s (s.put ⟨0xA00000 + off + 0x800 * q, hi, lo⟩ v) :=
  .of_hostqs (.put (by
    show any ∨ _
    dsimp only
    omega)) rfl

theorem QueueOnly.putN {v : Nat} : QueueOnly q any s (s.putN (R.DMA_QC_CUR q) 2 v) :=
  .of_hostqs (.putN (fun j h1 h2 => by
    show any ∨ _
    simp only [R.DMA_QC_CUR] at h1 h2
    omega)) rfl

theorem QueueOnly.emit (o : Out) : QueueOnly q any s (s.emit o) := .of_hostqs (.parts rfl rfl) rfl

theorem QueueOnly.after (k : QueueOnly q any t u) (h : QueueOnly q any s t) : QueueOnly q any s u := h.trans k

end

section
variable (s : State) (q : Nat) (any : Prop)

theorem State.pinQ_queueOnly (g : Nat) (pages : List Nat) : QueueOnly q any s (s.pinQ q g pages) := by
  have hgrp : (queueShare q any).regs (F.REC_GRP_STATUS_PINNED g).off := by
    show any ∨ _
    simp only [F.REC_GRP_STATUS_PINNED]
    omega
  have hq : (queueShare q any).regs (F.DMA_QC_STATUS_PINNED q).off := by
    show any ∨ _
    dsimp only [F.DMA_QC_STATUS_PINNED]
    omega
  have hset : (queueShare q any).Only s (s.setPins g q pages) := by
    unfold State.setPins
    extract_lets gr old rest pins base inRing back
    exact .trans (.parts (t := s.setGrp g { gr with pins := pins, reserve := gr.reserve ++ back }) rfl rfl) (.put hgrp)
  refine .of_hostqs ?_ rfl
  unfold State.pinQ State.putB
  generalize s.setPins g q pages = u at *
  exact hset.trans (.put hq)

theorem State.unask_queueOnly (key : Nat) : QueueOnly q any s (s.unask 1 key) := by
  unfold State.unask State.showBacklog
  split
  · refine .of_hostqs (Share.Only.trans (.parts (t := { s with sto := { s.sto with reqs := s.sto.reqs.filter (fun q => !(q.cls == 1 && q.key == key)) } }) rfl rfl)
      (.put (f := F.STO_CLASS_BACKLOG_BYTES 1) ?_)) rfl
    show any ∨ _
    dsimp only [F.STO_CLASS_BACKLOG_BYTES]
    omega
  · exact .refl _ _ _

theorem State.signalQ_effect : (s.signalQ q) = { s with out := (s.signalQ q).out, msix := (s.signalQ q).msix } ∧ (∀ o ∈ s.out, o ∈ (s.signalQ q).out) := by
  unfold State.signalQ State.signal
  split
  · split
    · exact ⟨rfl, fun _ h => h⟩
    · exact ⟨rfl, fun _ h => h⟩
  · exact ⟨rfl, fun _ h => List.mem_cons_of_mem _ h⟩

theorem State.signalQ_queueOnly : QueueOnly q any s (s.signalQ q) := by
  have hframe := (s.signalQ_effect q).1
  refine .of_hostqs (.parts ((congrArg State.regs hframe).trans rfl) ((queueShare q any).frame_of hframe rfl)) ((congrArg State.hostqs hframe).trans rfl)

theorem State.post_queueOnly (lc code locus data : Nat) : QueueOnly q any s (s.post lc code locus data) :=
  .of_hostqs (.post (fun j hj => by
    show any ∨ _
    omega) ((queueShare q any).frame_of (s.post_eq _ _ _ _) rfl)) ((congrArg State.hostqs (s.post_eq _ _ _ _)).trans rfl)

/-! ### Completion records (R216) -/

/-- What the writing of a completion record leaves. -/
structure RecordWritten (q : Nat) (c : Comp) (s t : State) : Prop where
  hostq : t.hostq q = { s.hostq q with wrote := (t.hostq q).wrote }
  other : ∀ k, k ≠ q → t.hostq k = s.hostq k
  record : bitOf c.d.ctl 2 = true → ∃ rec : List Byte, rec.length = 32 ∧ Out.hostWrite false c.d.status rec ∈ t.out
  out : ∀ o ∈ s.out, o ∈ t.out
  frame : t = { s with out := t.out, hostqs := t.hostqs }

theorem compBytes_length (lcnt epoch status flags bytes num tag : Nat) : (compBytes lcnt epoch status flags bytes num tag).length = 32 := by
  unfold compBytes
  dsimp only
  rw [List.length_append, Tests.leBytes_length, packLE_length]
  rfl

theorem State.compWrite_written (skipped : Bool) (c : Comp) : RecordWritten q c s (s.compWrite q skipped c) := by
  unfold State.compWrite
  split
  next h =>
    have hset := s.setHostq_hostq_same q { s.hostq q with wrote := some { c with since := s.lcnt } }
    have hother : ∀ k, k ≠ q → (s.setHostq q { s.hostq q with wrote := some { c with since := s.lcnt } }).hostq k = s.hostq k :=
      fun k hk => s.setHostq_hostq_other _ _ _ hk
    refine ⟨?_, hother, fun _ => ⟨_, compBytes_length _ _ _ _ _ _ _, List.mem_cons_self⟩, fun _ ho => List.mem_cons_of_mem _ ho, rfl⟩
    exact hset.trans (congrArg (fun w => { s.hostq q with wrote := w }) (congrArg HostQ.wrote hset).symm)
  next h => exact ⟨rfl, fun _ _ => rfl, fun hb => absurd hb h, fun _ ho => ho, rfl⟩

theorem RecordWritten.queueOnly {s t : State} {c : Comp} (h : RecordWritten q c s t) : QueueOnly q any s t :=
  ⟨.parts ((congrArg State.regs h.frame).trans rfl) ((queueShare q any).frame_of h.frame rfl), h.other, fun hi => (congrArg HostQ.cur h.hostq).trans hi,
    fun hp x hx => hp x (by rw [h.hostq] at hx; exact hx)⟩

/-! ### Releases (R122, R210) -/

theorem State.holdWatch_frame (g : Nat) : s.holdWatch g =
    { s with regs := (s.holdWatch g).regs, grps := (s.holdWatch g).grps, stageFill := (s.holdWatch g).stageFill } := by
  have hrelease := (s.holdWatch_releaseShare g).frame
  have hframes : (s.holdWatch g).frames = s.frames := (congrArg State.frames (s.holdWatch_booked g).share.frame).trans rfl
  generalize s.holdWatch g = t at *
  refine hrelease.trans ?_
  show ({ s with regs := t.regs, grps := t.grps, stageFill := t.stageFill, frames := t.frames } : State) = _
  rw [hframes]

theorem State.readerDone_frame (g num reader : Nat) : s.readerDone g num reader =
    { s with regs := (s.readerDone g num reader).regs, grps := (s.readerDone g num reader).grps, stageFill := (s.readerDone g num reader).stageFill } := by
  unfold State.readerDone
  dsimp only
  split
  next x hx =>
    split
    · generalize hy : ({ s.grp g with slots := (s.grp g).slots.map (fun y => if y.num = num then { y with readers := x.readers.filter (fun r => r != reader) } else y) } : Grp) = y
      split
      · unfold State.releaseSlot
        dsimp only
        split
        · split
          · exact (State.freeSlot_frame _ g num).trans rfl
          · rfl
        · rfl
      · exact (State.holdWatch_frame _ g).trans rfl
    · rfl
  next => rfl

theorem State.readerDone_queueOnly {g : Nat} (num reader : Nat) (hg : any ∨ g < 16) : QueueOnly q any s (s.readerDone g num reader) := by
  have hframe := s.readerDone_frame g num reader
  refine .of_hostqs ⟨(queueShare q any).frame_of hframe rfl, fun off ho => (s.readerDone_releaseShare g num reader).word off fun hr => ho ?_⟩
    ((congrArg State.hostqs hframe).trans rfl)
  have hr' : 16 ≤ g ∨ (0x500000 ≤ off ∧ off < 0x501000) := hr
  show any ∨ _
  rcases hg with h | h
  · exact .inl h
  · exact .inr (.inr (.inl (by omega)))

/-! ### A halt (R217, R222) -/

/-- The pages that a queue pins become those of a mark. -/
def State.repinned (s : State) (q : Nat) (m : QMark) : State :=
  match (s.hostq q).recd, m.recd with
  | some r, some r0 => if r.g = r0.g then s.pinQ q r.g m.pins else (s.pinQ q r.g []).pinQ q r0.g m.pins
  | some r, none => s.pinQ q r.g []
  | none, some r0 => s.pinQ q r0.g m.pins
  | none, none => s

theorem State.repinned_queueOnly (m : QMark) : QueueOnly q any s (s.repinned q m) := by
  unfold State.repinned
  split
  · split
    · exact s.pinQ_queueOnly q any _ _
    · exact (s.pinQ_queueOnly q any _ _).trans (State.pinQ_queueOnly _ q any _ _)
  · exact s.pinQ_queueOnly q any _ _
  · exact s.pinQ_queueOnly q any _ _
  · exact .refl _ _ _

theorem State.restore_eq (m : QMark) : s.restore q m = (((s.repinned q m).setHostq q { (s.repinned q m).hostq q with
    recd := m.recd, held := m.held, heldBad := m.heldBad }).put (F.DMA_QC_OFFSET_BYTES q) m.off).put (F.DMA_QC_HOLD_BITS q) m.bits := rfl

theorem State.restore_queueOnly (m : QMark) : QueueOnly q any s (s.restore q m) := by
  rw [s.restore_eq q m]
  have h := s.repinned_queueOnly q any m
  generalize s.repinned q m = u at *
  have hset : QueueOnly q any u (u.setHostq q { u.hostq q with recd := m.recd, held := m.held, heldBad := m.heldBad }) := .setHostq id id
  generalize u.setHostq q { u.hostq q with recd := m.recd, held := m.held, heldBad := m.heldBad } = v at *
  exact (h.trans hset).trans (.trans (.put (off := 0x38) (by omega)) (.put (off := 0x2C) (by omega)))

/-- A queue's work is forgotten, and CUR shows the descriptor. -/
def State.workDropped (s : State) (q addr : Nat) : State :=
  (s.setHostq q { s.hostq q with fetch := none, cur := none, pos := 0, bad := false, deficit := 0, wrote := none, pend := [] }).putN (R.DMA_QC_CUR q) 2 addr

/-- STATE is HALTED, and ERR its cause. -/
def State.haltShown (s : State) (q status : Nat) : State := (s.put (F.DMA_QC_STATUS_STATE q) 3).put (F.DMA_QC_STATUS_ERR q) status

theorem State.haltQ_eq (c : Comp) (record : Bool) : s.haltQ q c record = ((if record then
      ((((s.restore q (s.markNow q c.mark)).unask 1 q).workDropped q c.d.addr).haltShown q c.status).compWrite q (s.hostq q).skipped c
    else ((((s.restore q (s.markNow q c.mark)).unask 1 q).workDropped q c.d.addr).haltShown q c.status)).signalQ q).post s.lcnt 0x0A01 (s.locusQ q) 0 := rfl

/-- Queue q has halted at the descriptor of a completion. -/
structure Halted (q : Nat) (c : Comp) (locus : Nat) (s t : State) : Prop where
  state : t.get (F.DMA_QC_STATUS_STATE q) = 3
  err : t.get (F.DMA_QC_STATUS_ERR q) = c.status % 256
  cur : t.getN (R.DMA_QC_CUR q) 2 = c.d.addr % 2 ^ 64
  seen : (0x0A01, locus) ∈ t.log.seen
  fetch : (t.hostq q).fetch = none
  only : ∀ any, QueueOnly q any s t

theorem State.haltShown_effect {q : Nat} (hq : q < 1024) (status : Nat) : (s.haltShown q status).get (F.DMA_QC_STATUS_STATE q) = 3 ∧
    (s.haltShown q status).get (F.DMA_QC_STATUS_ERR q) = status % 256 ∧ (s.haltShown q status).getN (R.DMA_QC_CUR q) 2 = s.getN (R.DMA_QC_CUR q) 2 ∧
    (s.haltShown q status).hostqs = s.hostqs ∧ ∀ any, QueueOnly q any s (s.haltShown q status) := by
  have hw : (F.DMA_QC_STATUS_STATE q).width = 4 := rfl
  have hw8 : (F.DMA_QC_STATUS_ERR q).width = 8 := rfl
  refine ⟨?_, ?_, ?_, rfl, fun any => (QueueOnly.put (off := 0x14) (by omega)).trans (.put (off := 0x14) (by omega))⟩
  · simp (disch := first | exact .of rfl (by omega) | omega) [State.get, State.haltShown, hw]
  · simp (disch := first | exact .of rfl (by omega) | omega) [State.get, State.haltShown, hw8]
  · exact (State.getN_put_beside _ (.of rfl (by simp only [R.DMA_QC_CUR]; omega))).trans (s.getN_put_beside (.of rfl (by simp only [R.DMA_QC_CUR]; omega)))

theorem State.workDropped_effect (addr : Nat) : (s.workDropped q addr).getN (R.DMA_QC_CUR q) 2 = addr % 2 ^ 64 ∧
    (s.workDropped q addr).hostq q = { s.hostq q with fetch := none, cur := none, pos := 0, bad := false, deficit := 0, wrote := none, pend := [] } ∧
    ∀ any, QueueOnly q any s (s.workDropped q addr) :=
  ⟨State.getN_putN_mod _ _ _ rfl, s.setHostq_hostq_same q _, fun _ => (QueueOnly.setHostq (fun _ => rfl) fun _ _ hc => absurd hc (List.not_mem_nil)).trans .putN⟩

theorem State.haltQ_halted {q : Nat} (hq : q < 1024) (c : Comp) (record : Bool) : Halted q c (s.locusQ q) s (s.haltQ q c record) := by
  rw [s.haltQ_eq q c record]
  have h1 : ∀ any, QueueOnly q any s ((s.restore q (s.markNow q c.mark)).unask 1 q) := fun any =>
    (s.restore_queueOnly q any _).trans (State.unask_queueOnly _ q any q)
  generalize (s.restore q (s.markNow q c.mark)).unask 1 q = u at *
  obtain ⟨hcur, hwork, h2⟩ := u.workDropped_effect q c.d.addr
  generalize u.workDropped q c.d.addr = v at *
  obtain ⟨hstate, herr, hcur', hqs, h3⟩ := v.haltShown_effect hq c.status
  have hfetch : ((v.haltShown q c.status).hostq q).fetch = none := (congrArg HostQ.fetch (hostq_of_hostqs hqs q)).trans ((congrArg HostQ.fetch hwork).trans rfl)
  have hlast := hcur'.trans hcur
  have h4 : ∀ any, QueueOnly q any s (v.haltShown q c.status) := fun any => ((h1 any).trans (h2 any)).trans (h3 any)
  generalize v.haltShown q c.status = w at *
  have hwritten : ∀ any, QueueOnly q any w (if record then w.compWrite q (s.hostq q).skipped c else w) ∧
      (if record then w.compWrite q (s.hostq q).skipped c else w).regs = w.regs ∧
      ((if record then w.compWrite q (s.hostq q).skipped c else w).hostq q).fetch = (w.hostq q).fetch := fun any => by
    cases record with
    | false => exact ⟨.refl _ _ _, rfl, rfl⟩
    | true =>
      have h := w.compWrite_written q (s.hostq q).skipped c
      exact ⟨h.queueOnly q any, (congrArg State.regs h.frame).trans rfl, (congrArg HostQ.fetch h.hostq).trans rfl⟩
  generalize (if record then w.compWrite q (s.hostq q).skipped c else w) = x at *
  have hsig := (x.signalQ_effect q).1
  have h6 : ∀ any, QueueOnly q any x (x.signalQ q) := fun any => x.signalQ_queueOnly q any
  have hsregs : (x.signalQ q).regs = w.regs := ((congrArg State.regs hsig).trans rfl).trans (hwritten True).2.1
  have hsfetch : ((x.signalQ q).hostq q).fetch = none :=
    (congrArg HostQ.fetch (hostq_of_hostqs ((congrArg State.hostqs hsig).trans rfl) q)).trans ((hwritten True).2.2.trans hfetch)
  generalize x.signalQ q = y at *
  have hget : ∀ f : Fld, f.Low → (y.post s.lcnt 0x0A01 (s.locusQ q) 0).get f = w.get f := fun f hf =>
    (y.fld_post _ _ _ _ hf).trans (congrArg (fun r : RegTab => r.fld f) hsregs)
  refine ⟨(hget _ (.of rfl (by omega))).trans hstate, (hget _ (.of rfl (by omega))).trans herr, ?_, y.post_seen _ _ _ _, ?_, fun any => ?_⟩
  · exact ((y.wide_post _ _ _ _ (by simp only [R.DMA_QC_CUR]; omega)).trans (congrArg (fun r : RegTab => r.wide (R.DMA_QC_CUR q) 2) hsregs)).trans hlast
  · exact (congrArg HostQ.fetch (hostq_of_hostqs ((congrArg State.hostqs (y.post_eq _ _ _ _)).trans rfl) q)).trans hsfetch
  · exact (((h4 any).trans (hwritten any).1).trans (h6 any)).trans (y.post_queueOnly q any _ _ _ _)

/-! ### A completion (R216, R219) -/

theorem State.issueFetch_queueOnly (addr : Nat) (again : Bool) : QueueOnly q any s (s.issueFetch q addr again) := by
  unfold State.issueFetch
  dsimp only
  have h1 : QueueOnly q any s (s.incWrap (F.DMA_QC_HOPS_HOPS q)) := .put (off := 0x3C) (by omega)
  have hh : (s.incWrap (F.DMA_QC_HOPS_HOPS q)).hostq q = s.hostq q := rfl
  generalize s.incWrap (F.DMA_QC_HOPS_HOPS q) = u at *
  have h2 : QueueOnly q any u (u.setHostq q { s.hostq q with fetch := some (addr, again), fetchAt := s.lcnt }) :=
    .setHostq (fun h => (congrArg HostQ.cur hh).symm.trans h) fun hp c hc => hp c (by rw [hh]; exact hc)
  generalize u.setHostq q { s.hostq q with fetch := some (addr, again), fetchAt := s.lcnt } = v at *
  exact ((h1.trans h2).trans .putN).trans (.emit _)

/-- The record that a completion releases is let go. -/
def State.relDone (s : State) (q : Nat) (c : Comp) : State :=
  match c.rel with
  | some r => s.readerDone r.1 r.2 q
  | none => s

/-- Steps 3 and 4 of a completion: counted, its record let go and its completion written. -/
def State.compCounted (s : State) (q : Nat) (c : Comp) : State :=
  (((s.setHostq q { s.hostq q with skipped := false }).incWrap (F.DMA_QC_DONE_CNT_COUNT q)).relDone q c).compWrite q (s.hostq q).skipped c

/-- Step 5: the interrupt. -/
def State.compSignalled (s : State) (q : Nat) (c : Comp) : State := if bitOf c.d.ctl 1 then s.signalQ q else s

theorem State.completeQ_eq (c : Comp) : s.completeQ q c = match c.latch with
    | none => (s.compCounted q c).compSignalled q c
    | some n =>
      if ((s.compCounted q c).compSignalled q c).get (F.DMA_QC_DB_CNT_COUNT q) = n then
        ((((s.compCounted q c).compSignalled q c).setHostq q { ((s.compCounted q c).compSignalled q c).hostq q with tail := c.d.addr }).put
          (F.DMA_QC_STATUS_STATE q) 2).putN (R.DMA_QC_CUR q) 2 c.d.addr
      else if ((s.compCounted q c).compSignalled q c).get (F.DMA_QC_HOPS_HOPS q) = 1048576 then
        ((s.compCounted q c).compSignalled q c).haltQ q { c with status := 2, mark := s.markOf q } true
      else (((s.compCounted q c).compSignalled q c).setHostq q { ((s.compCounted q c).compSignalled q c).hostq q with tail := c.d.addr }).issueFetch
        q c.d.addr true := rfl

/-- What a completion without END leaves. -/
structure Completed (q : Nat) (c : Comp) (s t : State) : Prop where
  done : t.get (F.DMA_QC_DONE_CNT_COUNT q) = (s.get (F.DMA_QC_DONE_CNT_COUNT q) + 1) % 2 ^ 32
  hostq : t.hostq q = { s.hostq q with skipped := false, wrote := (t.hostq q).wrote }
  other : ∀ k, k ≠ q → t.hostq k = s.hostq k
  record : bitOf c.d.ctl 2 = true → ∃ rec : List Byte, rec.length = 32 ∧ Out.hostWrite false c.d.status rec ∈ t.out
  out : ∀ o ∈ s.out, o ∈ t.out
  word : ∀ off, 0x501000 ≤ off → off ≠ R.DMA_QC_DONE_CNT q → t.regs.word off = s.regs.word off
  frame : t = { s with out := t.out, regs := t.regs, grps := t.grps, stageFill := t.stageFill, hostqs := t.hostqs, msix := t.msix }
  only : c.rel = none → changesOnly [F.DMA_QC_DONE_CNT_COUNT q] s t ∧ t = { s with out := t.out, regs := t.regs, hostqs := t.hostqs, msix := t.msix }

theorem State.compSignalled_completed {c : Comp} {t : State} (h : Completed q c s t) : Completed q c s (t.compSignalled q c) := by
  unfold State.compSignalled
  split
  · obtain ⟨hdone, hhost, hother, hrec, hout, hword, hframe, honly⟩ := h
    obtain ⟨hsig, hmono⟩ := t.signalQ_effect q
    have hregs : (t.signalQ q).regs = t.regs := (congrArg State.regs hsig).trans rfl
    have hqs : (t.signalQ q).hostqs = t.hostqs := (congrArg State.hostqs hsig).trans rfl
    have hmem := (t.signalQ_mem q)
    generalize t.signalQ q = u at *
    have hcur : u.hostq q = t.hostq q := hostq_of_hostqs hqs q
    refine ⟨(congrArg (fun r : RegTab => r.fld (F.DMA_QC_DONE_CNT_COUNT q)) hregs).trans hdone, ?_, fun k hk => (hostq_of_hostqs hqs k).trans (hother k hk),
      fun hb => ?_, fun o ho => hmono o (hout o ho), fun off h1 h2 => (congrArg (fun r : RegTab => r.word off) hregs).trans (hword off h1 h2), ?_, fun hn => ⟨?_, ?_⟩⟩
    · rw [hcur]
      exact hhost
    · obtain ⟨rec, hl, hm⟩ := hrec hb
      exact ⟨rec, hl, hmono _ hm⟩
    · rw [hsig, hframe]
    · exact (honly hn).1.parts hregs hmem.2.1 hmem.2.2 hmem.1
    · rw [hsig, (honly hn).2]
  · exact h

theorem State.relDone_completed {c : Comp} (hc : ∀ r, c.rel = some r → r.1 < 16) : (∀ off, 0x501000 ≤ off → (s.relDone q c).regs.word off = s.regs.word off) ∧
    (s.relDone q c).hostqs = s.hostqs ∧ (s.relDone q c).out = s.out ∧
    s.relDone q c = { s with regs := (s.relDone q c).regs, grps := (s.relDone q c).grps, stageFill := (s.relDone q c).stageFill } ∧
    (c.rel = none → s.relDone q c = s) := by
  unfold State.relDone
  split
  next r hr =>
    have hframe := s.readerDone_frame r.1 r.2 q
    refine ⟨fun off ho => (s.readerDone_releaseShare r.1 r.2 q).word off fun h => ?_, (congrArg State.hostqs hframe).trans rfl,
      (congrArg State.out hframe).trans rfl, hframe, fun hn => ?_⟩
    · have h' : 16 ≤ r.1 ∨ (0x500000 ≤ off ∧ off < 0x501000) := h
      have := hc r hr
      omega
    · rw [hn] at hr
      cases hr
  next => exact ⟨fun _ _ => rfl, rfl, rfl, rfl, fun _ => rfl⟩

theorem State.compCounted_completed {c : Comp} (hc : ∀ r, c.rel = some r → r.1 < 16) : Completed q c s (s.compCounted q c) := by
  unfold State.compCounted
  have hset := s.setHostq_hostq_same q { s.hostq q with skipped := false }
  have hother : ∀ k, k ≠ q → (s.setHostq q { s.hostq q with skipped := false }).hostq k = s.hostq k := fun k hk => s.setHostq_hostq_other _ _ _ hk
  have hsetframe : s.setHostq q { s.hostq q with skipped := false } = { s with hostqs := (s.setHostq q { s.hostq q with skipped := false }).hostqs } := rfl
  have hsetonly : changesOnly [F.DMA_QC_DONE_CNT_COUNT q] s (s.setHostq q { s.hostq q with skipped := false }) := (changesOnly.refl _ s).parts rfl rfl rfl rfl
  generalize s.setHostq q { s.hostq q with skipped := false } = u at *
  have hdone : (u.incWrap (F.DMA_QC_DONE_CNT_COUNT q)).get (F.DMA_QC_DONE_CNT_COUNT q) = (u.get (F.DMA_QC_DONE_CNT_COUNT q) + 1) % 2 ^ 32 :=
    State.get_incWrap_width (w := 32) _ (F.DMA_QC_DONE_CNT_COUNT q) (.of rfl (by omega)) rfl
  have hinc : u.incWrap (F.DMA_QC_DONE_CNT_COUNT q) = { u with regs := (u.incWrap (F.DMA_QC_DONE_CNT_COUNT q)).regs } := rfl
  have hword : ∀ off, off ≠ R.DMA_QC_DONE_CNT q → (u.incWrap (F.DMA_QC_DONE_CNT_COUNT q)).regs.word off = u.regs.word off := fun off ho =>
    RegTab.word_setFld_other _ _ _ _ ho
  have hinconly := hsetonly.put (f := F.DMA_QC_DONE_CNT_COUNT q) (v := u.get (F.DMA_QC_DONE_CNT_COUNT q) + 1) (by simp)
  change changesOnly _ s (u.incWrap (F.DMA_QC_DONE_CNT_COUNT q)) at hinconly
  have huregs : u.regs = s.regs := (congrArg State.regs hsetframe).trans rfl
  generalize u.incWrap (F.DMA_QC_DONE_CNT_COUNT q) = v at *
  obtain ⟨hrelword, hrelq, hrelout, hrelframe, hrelnone⟩ := v.relDone_completed q hc
  generalize v.relDone q c = w at *
  have hwrite := w.compWrite_written q (s.hostq q).skipped c
  have hmem := w.compWrite_mem q (s.hostq q).skipped c
  generalize w.compWrite q (s.hostq q).skipped c = t at *
  have htregs : t.regs = w.regs := (congrArg State.regs hwrite.frame).trans rfl
  have hvq : v.hostqs = u.hostqs := (congrArg State.hostqs hinc).trans rfl
  have hwq : ∀ k, w.hostq k = u.hostq k := fun k => (hostq_of_hostqs hrelq k).trans (hostq_of_hostqs hvq k)
  have hwout : w.out = s.out := hrelout.trans (((congrArg State.out hinc).trans rfl).trans ((congrArg State.out hsetframe).trans rfl))
  refine ⟨?_, ?_, fun k hk => (hwrite.other k hk).trans ((hwq k).trans (hother k hk)), hwrite.record, fun o ho => hwrite.out o (hwout ▸ ho), fun off h1 h2 => ?_, ?_, fun hn => ?_⟩
  · have hw : t.get (F.DMA_QC_DONE_CNT_COUNT q) = v.get (F.DMA_QC_DONE_CNT_COUNT q) := RegTab.fld_congr ((congrArg (fun r : RegTab => r.word _) htregs).trans
      (hrelword _ (by simp only [F.DMA_QC_DONE_CNT_COUNT]; omega)))
    rw [hw, hdone]
    exact congrArg (fun r : RegTab => (r.fld (F.DMA_QC_DONE_CNT_COUNT q) + 1) % 2 ^ 32) huregs
  · have hmid : w.hostq q = { s.hostq q with skipped := false } := (hwq q).trans hset
    exact hwrite.hostq.trans (congrArg (fun x : HostQ => { x with wrote := (t.hostq q).wrote }) hmid)
  · exact (congrArg (fun r : RegTab => r.word off) htregs).trans ((hrelword off h1).trans ((hword off h2).trans (congrArg (fun r : RegTab => r.word off) huregs)))
  · rw [hwrite.frame, hrelframe, hinc, hsetframe]
  · rw [hrelnone hn] at hwrite hmem htregs
    refine ⟨hinconly.parts htregs hmem.2.1 hmem.2.2 hmem.1, ?_⟩
    rw [hwrite.frame, hinc, hsetframe]

theorem State.completeQ_completed {c : Comp} (hl : c.latch = none) (hc : ∀ r, c.rel = some r → r.1 < 16) : Completed q c s (s.completeQ q c) := by
  have heq : s.completeQ q c = (s.compCounted q c).compSignalled q c := by
    rw [s.completeQ_eq q c, hl]
  rw [heq]
  exact s.compSignalled_completed q (s.compCounted_completed q hc)

theorem State.compCounted_queueOnly {c : Comp} (hc : c.relOk any) : QueueOnly q any s ((s.compCounted q c).compSignalled q c) := by
  have h1 : QueueOnly q any s (s.setHostq q { s.hostq q with skipped := false }) := .setHostq id id
  unfold State.compCounted
  generalize s.setHostq q { s.hostq q with skipped := false } = u at *
  have h2 : QueueOnly q any u (u.incWrap (F.DMA_QC_DONE_CNT_COUNT q)) := .put (off := 0x28) (by omega)
  generalize u.incWrap (F.DMA_QC_DONE_CNT_COUNT q) = v at *
  have h3 : QueueOnly q any v (v.relDone q c) := by
    unfold State.relDone
    split
    next r hr => exact v.readerDone_queueOnly q any _ _ (hc r hr)
    next => exact .refl _ _ _
  generalize v.relDone q c = w at *
  have h4 : QueueOnly q any w (w.compWrite q (s.hostq q).skipped c) := (w.compWrite_written q _ c).queueOnly q any
  generalize w.compWrite q (s.hostq q).skipped c = x at *
  have h5 : QueueOnly q any x (x.compSignalled q c) := by
    unfold State.compSignalled
    split
    · exact x.signalQ_queueOnly q any
    · exact .refl _ _ _
  exact (((h1.trans h2).trans h3).trans h4).trans h5

theorem State.completeQ_queueOnly {q : Nat} (hq : q < 1024) {c : Comp} (hc : c.relOk any) : QueueOnly q any s (s.completeQ q c) := by
  rw [s.completeQ_eq q c]
  have h := s.compCounted_queueOnly q any hc
  generalize (s.compCounted q c).compSignalled q c = u at *
  split
  · exact h
  · split
    · have hset : QueueOnly q any u (u.setHostq q { u.hostq q with tail := c.d.addr }) := .setHostq id id
      generalize u.setHostq q { u.hostq q with tail := c.d.addr } = v at *
      exact (h.trans hset).trans (.trans (.put (off := 0x14) (by omega)) .putN)
    · split
      · exact h.trans ((u.haltQ_halted hq _ true).only any)
      · have hset : QueueOnly q any u (u.setHostq q { u.hostq q with tail := c.d.addr }) := .setHostq id id
        generalize u.setHostq q { u.hostq q with tail := c.d.addr } = v at *
        exact (h.trans hset).trans (v.issueFetch_queueOnly q any _ _)

end

end Sys2Proof.Machine
end

section
/-! SUPPORT. Queues drain their completions and go on to the next descriptor (R216, R219, R220). -/

namespace Sys2Proof.Machine

open Sys2Proof.Safety

section
variable (s : State) {q : Nat} {any : Prop}

/-! ### Only the queue's own part changes -/

theorem State.drainQ_queueOnly (hq : q < 1024) (n : Nat) (hp : ∀ c ∈ (s.hostq q).pend, c.relOk any) : QueueOnly q any s (s.drainQ q n) := by
  induction n generalizing s with
  | zero => exact .refl _ _ _
  | succ n ih =>
    unfold State.drainQ
    dsimp only
    split
    next c rest hpend =>
      have hc : c.relOk any := hp c (by rw [hpend]; exact List.mem_cons_self)
      have hrest : ∀ x ∈ rest, x.relOk any := fun x hx => hp x (by rw [hpend]; exact List.mem_cons_of_mem _ hx)
      split
      · exact .refl _ _ _
      · split
        · exact (s.haltQ_halted hq c true).only any
        · have hset : QueueOnly q any s (s.setHostq q { s.hostq q with pend := rest }) := .setHostq id fun _ => hrest
          generalize s.setHostq q { s.hostq q with pend := rest } = u at *
          have hu := hset.pend hp
          have hcomp := u.completeQ_queueOnly any hq hc
          exact (hset.trans hcomp).trans (ih _ (hcomp.pend hu))
    next => exact .refl _ _ _

/-- A completion has joined the queue's, and nothing is at work. -/
def State.joined (s : State) (q : Nat) (c : Comp) : State :=
  (s.setHostq q { s.hostq q with cur := none, pos := 0, bad := false, deficit := 0, pend := (s.hostq q).pend ++ [c] }).unask 1 q

theorem State.finishQ_eq (q : Nat) (c : Comp) : s.finishQ q c = (s.joined q c).drainQ q ((s.hostq q).pend.length + 1) := rfl

/-- What a completion's joining leaves. -/
structure Joined (q : Nat) (c : Comp) (s t : State) : Prop where
  hostq : t.hostq q = { s.hostq q with cur := none, pos := 0, bad := false, deficit := 0, pend := (s.hostq q).pend ++ [c] }
  other : ∀ k, k ≠ q → t.hostq k = s.hostq k
  only : changesOnly [F.STO_CLASS_BACKLOG_BYTES 1] s t
  word : ∀ off, off ≠ 0x700114 → t.regs.word off = s.regs.word off
  frame : t = { s with regs := t.regs, sto := t.sto, hostqs := t.hostqs }

theorem State.unask_only (k key : Nat) : changesOnly [F.STO_CLASS_BACKLOG_BYTES k] s (s.unask k key) := by
  unfold State.unask State.showBacklog
  split
  · exact ((changesOnly.refl _ s).parts rfl rfl rfl rfl).put (by simp)
  · exact .refl _ _

theorem State.joined_joined (q : Nat) (c : Comp) : Joined q c s (s.joined q c) := by
  unfold State.joined
  have hset := s.setHostq_hostq_same q { s.hostq q with cur := none, pos := 0, bad := false, deficit := 0, pend := (s.hostq q).pend ++ [c] }
  have hother : ∀ k, k ≠ q → (s.setHostq q { s.hostq q with cur := none, pos := 0, bad := false, deficit := 0, pend := (s.hostq q).pend ++ [c] }).hostq k = s.hostq k :=
    fun k hk => s.setHostq_hostq_other _ _ _ hk
  have hframe : s.setHostq q { s.hostq q with cur := none, pos := 0, bad := false, deficit := 0, pend := (s.hostq q).pend ++ [c] } =
    { s with hostqs := (s.setHostq q { s.hostq q with cur := none, pos := 0, bad := false, deficit := 0, pend := (s.hostq q).pend ++ [c] }).hostqs } := rfl
  have honly : changesOnly [F.STO_CLASS_BACKLOG_BYTES 1] s
    (s.setHostq q { s.hostq q with cur := none, pos := 0, bad := false, deficit := 0, pend := (s.hostq q).pend ++ [c] }) := (changesOnly.refl _ s).parts rfl rfl rfl rfl
  generalize s.setHostq q { s.hostq q with cur := none, pos := 0, bad := false, deficit := 0, pend := (s.hostq q).pend ++ [c] } = u at *
  have hshare := u.unask_askShare 1 q
  have hun := u.unask_only 1 q
  generalize u.unask 1 q = t at *
  have hqs : t.hostqs = u.hostqs := (congrArg State.hostqs hshare.frame).trans rfl
  refine ⟨(hostq_of_hostqs hqs q).trans hset, fun k hk => (hostq_of_hostqs hqs k).trans (hother k hk), honly.trans hun, fun off ho => ?_, ?_⟩
  · exact (hshare.word off ho).trans (congrArg (fun r : RegTab => r.word off) ((congrArg State.regs hframe).trans rfl))
  · rw [hshare.frame, hframe]
    rfl

theorem Joined.queueOnly {s t : State} {c : Comp} (h : Joined q c s t) (hc : c.relOk any) : QueueOnly q any s t where
  share := ⟨(queueShare q any).frame_of h.frame rfl, fun off ho => h.word off fun he => ho (by
    show any ∨ _
    omega)⟩
  other := h.other
  idle _ := (congrArg HostQ.cur h.hostq).trans rfl
  pend hp x hx := by
    rw [h.hostq] at hx
    rcases List.mem_append.mp hx with hx | hx
    · exact hp x hx
    · rw [List.mem_singleton.mp hx]
      exact hc

theorem State.finishQ_queueOnly (hq : q < 1024) {c : Comp} (hc : c.relOk any) (hp : ∀ x ∈ (s.hostq q).pend, x.relOk any) :
    QueueOnly q any s (s.finishQ q c) := by
  rw [s.finishQ_eq q c]
  have hjoin := (s.joined_joined q c).queueOnly hc
  exact hjoin.trans (State.drainQ_queueOnly _ hq _ (hjoin.pend hp))

theorem Comp.relOk_of_none {c : Comp} (h : c.rel = none) : c.relOk any := fun r hr => by
  rw [h] at hr
  cases hr

theorem State.nextDesc_queueOnly (hq : q < 1024) (addr : Nat) (hp : ∀ x ∈ (s.hostq q).pend, x.relOk any) : QueueOnly q any s (s.nextDesc q addr) := by
  unfold State.nextDesc
  split
  · exact s.finishQ_queueOnly hq (Comp.relOk_of_none rfl) hp
  · exact s.issueFetch_queueOnly q any _ _

theorem State.doneQ_queueOnly (hq : q < 1024) {c : Comp} (hc : c.relOk any) (hp : ∀ x ∈ (s.hostq q).pend, x.relOk any) :
    QueueOnly q any s (s.doneQ q c) := by
  have hfin := s.finishQ_queueOnly hq hc hp
  have hu := hfin.pend hp
  unfold State.doneQ
  dsimp only
  generalize s.finishQ q c = u at *
  split
  · exact hfin.trans (u.nextDesc_queueOnly hq _ hu)
  · exact hfin

/-- After a descriptor is done none is at work. -/
theorem State.doneQ_idle (hq : q < 1024) (c : Comp) : ((s.doneQ q c).hostq q).cur = none := by
  have hany : ∀ x : Comp, x.relOk True := fun _ _ _ => .inl trivial
  have hjoin : ((s.joined q c).hostq q).cur = none := (congrArg HostQ.cur (s.joined_joined q c).hostq).trans rfl
  have hfin : ((s.finishQ q c).hostq q).cur = none := by
    rw [s.finishQ_eq q c]
    exact ((s.joined q c).drainQ_queueOnly (any := True) hq _ fun x _ => hany x).idle hjoin
  unfold State.doneQ
  dsimp only
  generalize s.finishQ q c = u at *
  split
  · exact (u.nextDesc_queueOnly (any := True) hq _ fun x _ => hany x).idle hfin
  · exact hfin

/-! ### One completion that waits for nothing -/

theorem State.drainQ_wait {c : Comp} {rest : List Comp} (n : Nat) (hp : (s.hostq q).pend = c :: rest) (hw : c.wait = true) : s.drainQ q n = s := by
  cases n with
  | zero => rfl
  | succ n =>
    unfold State.drainQ
    dsimp only
    rw [hp]
    exact if_pos hw

theorem State.drainQ_none (n : Nat) (hp : (s.hostq q).pend = []) : s.drainQ q n = s := by
  cases n with
  | zero => rfl
  | succ n =>
    unfold State.drainQ
    dsimp only
    rw [hp]

theorem State.drainQ_halts {c : Comp} {rest : List Comp} (n : Nat) (hp : (s.hostq q).pend = c :: rest) (hw : c.wait = false)
    (hs : 1 ≤ c.status ∧ c.status ≤ 4) : s.drainQ q (n + 1) = s.haltQ q c true := by
  unfold State.drainQ
  dsimp only
  rw [hp]
  exact (if_neg (by rw [hw]; decide)).trans (if_pos hs)

theorem State.drainQ_completes {c : Comp} {rest : List Comp} (n : Nat) (hp : (s.hostq q).pend = c :: rest) (hw : c.wait = false)
    (hs : ¬(1 ≤ c.status ∧ c.status ≤ 4)) : s.drainQ q (n + 1) = ((s.setHostq q { s.hostq q with pend := rest }).completeQ q c).drainQ q n := by
  rw [State.drainQ]
  dsimp only
  rw [hp]
  exact (if_neg (by rw [hw]; decide)).trans (if_neg hs)

/-- The only completion completes. -/
theorem State.drainQ_single {c : Comp} (n : Nat) (hp : (s.hostq q).pend = [c]) (hw : c.wait = false) (hs : c.status = 0) (hl : c.latch = none)
    (hc : ∀ r, c.rel = some r → r.1 < 16) : ∃ u : State, u = s.setHostq q { s.hostq q with pend := [] } ∧ s.drainQ q (n + 1) = u.completeQ q c ∧
      Completed q c u (u.completeQ q c) := by
  refine ⟨_, rfl, ?_, State.completeQ_completed _ q hl hc⟩
  rw [s.drainQ_completes n hp hw (by omega)]
  refine State.drainQ_none _ n ?_
  rw [(State.completeQ_completed _ q hl hc).hostq]
  exact (congrArg HostQ.pend (s.setHostq_hostq_same q { s.hostq q with pend := [] })).trans rfl

/-! ### A descriptor without END is done, and the next one is fetched (R216, R219) -/

/-- What the end of a descriptor leaves whose completion waits for nothing. -/
structure WentOn (q : Nat) (c : Comp) (s t : State) : Prop where
  done : t.get (F.DMA_QC_DONE_CNT_COUNT q) = (s.get (F.DMA_QC_DONE_CNT_COUNT q) + 1) % 2 ^ 32
  cur : (t.hostq q).cur = none
  pend : (t.hostq q).pend = []
  recd : (t.hostq q).recd = (s.hostq q).recd
  fetch : (t.hostq q).fetch = some (c.d.next, false)
  other : ∀ k, k ≠ q → t.hostq k = s.hostq k
  next : t.getN (R.DMA_QC_CUR q) 2 = c.d.next % 2 ^ 64
  asked : Out.hostRead c.d.next 64 ∈ t.out
  record : bitOf c.d.ctl 2 = true → ∃ rec : List Byte, rec.length = 32 ∧ Out.hostWrite false c.d.status rec ∈ t.out
  word : ∀ off, 0x501000 ≤ off → off ≠ 0x700114 → off ≠ R.DMA_QC_DONE_CNT q → off ≠ R.DMA_QC_HOPS q →
    (off < R.DMA_QC_CUR q ∨ R.DMA_QC_CUR q + 8 ≤ off) → t.regs.word off = s.regs.word off
  only : c.rel = none → changesOnly ([F.DMA_QC_DONE_CNT_COUNT q, F.DMA_QC_HOPS_HOPS q, F.STO_CLASS_BACKLOG_BYTES 1] ++ wideFlds (R.DMA_QC_CUR q) 2) s t ∧
    t = { s with out := t.out, regs := t.regs, sto := t.sto, hostqs := t.hostqs, msix := t.msix }

theorem State.doneQ_wentOn {c : Comp} (hp : (s.hostq q).pend = []) (hw : c.wait = false) (hst : c.status = 0) (hl : c.latch = none)
    (hc : ∀ r, c.rel = some r → r.1 < 16) (hs : s.get (F.DMA_QC_STATUS_STATE q) = 1) (hh : s.get (F.DMA_QC_HOPS_HOPS q) ≠ 1048576) :
    WentOn q c s (s.doneQ q c) := by
  have hjoin := s.joined_joined q c
  have hpend : ((s.joined q c).hostq q).pend = [c] := by
    rw [hjoin.hostq]
    exact congrArg (· ++ [c]) hp
  have hfin : s.finishQ q c = (s.joined q c).drainQ q 1 := by
    rw [s.finishQ_eq q c, hp]
    rfl
  generalize s.joined q c = j at *
  obtain ⟨u, hu, hdrain, hcomp⟩ := j.drainQ_single 0 hpend hw hst hl hc
  have huq : u.hostq q = { j.hostq q with pend := [] } := (congrArg (fun x : State => x.hostq q) hu).trans (j.setHostq_hostq_same q _)
  have huother : ∀ k, k ≠ q → u.hostq k = s.hostq k := fun k hk => by
    rw [hu]
    exact (j.setHostq_hostq_other _ _ _ hk).trans (hjoin.other k hk)
  have huregs : u.regs = j.regs := (congrArg State.regs hu).trans rfl
  have huonly : changesOnly [F.STO_CLASS_BACKLOG_BYTES 1] s u := hjoin.only.parts huregs ((congrArg State.store hu).trans rfl)
    ((congrArg State.flash hu).trans rfl) ((congrArg State.pending hu).trans rfl)
  have huframe : u = { s with regs := u.regs, sto := u.sto, hostqs := u.hostqs } := by
    rw [hu, hjoin.frame]
    rfl
  clear hu
  rw [hdrain] at hfin
  have hdone : s.doneQ q c = (u.completeQ q c).issueFetch q c.d.next false := by
    have hstate : (u.completeQ q c).get (F.DMA_QC_STATUS_STATE q) = 1 := by
      refine (RegTab.fld_congr ((hcomp.word _ ?_ ?_).trans ((congrArg (fun r : RegTab => r.word _) huregs).trans (hjoin.word _ ?_)))).trans hs
      · simp only [F.DMA_QC_STATUS_STATE]
        omega
      · simp only [F.DMA_QC_STATUS_STATE, R.DMA_QC_DONE_CNT]
        omega
      · simp only [F.DMA_QC_STATUS_STATE]
        omega
    have hhops : (u.completeQ q c).get (F.DMA_QC_HOPS_HOPS q) ≠ 1048576 := by
      have heq : (u.completeQ q c).get (F.DMA_QC_HOPS_HOPS q) = s.get (F.DMA_QC_HOPS_HOPS q) := by
        refine RegTab.fld_congr ((hcomp.word _ ?_ ?_).trans ((congrArg (fun r : RegTab => r.word _) huregs).trans (hjoin.word _ ?_)))
        · simp only [F.DMA_QC_HOPS_HOPS]
          omega
        · simp only [F.DMA_QC_HOPS_HOPS, R.DMA_QC_DONE_CNT]
          omega
        · simp only [F.DMA_QC_HOPS_HOPS]
          omega
      rw [heq]
      exact hh
    unfold State.doneQ
    dsimp only
    rw [hfin]
    exact (if_pos ⟨hl, hstate⟩).trans ((u.completeQ q c).nextDesc_of_hops q hhops)
  rw [hdone]
  generalize u.completeQ q c = v at *
  have hfetch := v.issueFetch_fetching q c.d.next false
  have hfword : ∀ off, off ≠ R.DMA_QC_HOPS q → (off < R.DMA_QC_CUR q ∨ R.DMA_QC_CUR q + 8 ≤ off) →
      (v.issueFetch q c.d.next false).regs.word off = v.regs.word off := fun off h1 h2 =>
    (RegTab.word_setWide_other _ _ _ _ _ (by omega)).trans (RegTab.word_setFld_other _ _ _ _ h1)
  generalize v.issueFetch q c.d.next false = t at *
  have hvq : v.hostq q = { u.hostq q with skipped := false, wrote := (v.hostq q).wrote } := hcomp.hostq
  have hjq := hjoin.hostq
  refine ⟨?_, ?_, ?_, ?_, ?_, fun k hk => (hfetch.other k hk).trans ((hcomp.other k hk).trans (huother k hk)), hfetch.cur, ?_, fun hb => ?_, fun off h1 h2 h3 h4 h5 => ?_, fun hn => ⟨?_, ?_⟩⟩
  · rw [hfetch.done, hcomp.done]
    have hkeep : u.get (F.DMA_QC_DONE_CNT_COUNT q) = s.get (F.DMA_QC_DONE_CNT_COUNT q) :=
      RegTab.fld_congr ((congrArg (fun r : RegTab => r.word _) huregs).trans (hjoin.word _ (by simp only [F.DMA_QC_DONE_CNT_COUNT]; omega)))
    rw [hkeep]
  · rw [hfetch.hostq, hvq, huq, hjq]
  · rw [hfetch.hostq, hvq, huq]
  · rw [hfetch.hostq, hvq, huq, hjq]
  · rw [hfetch.hostq]
  · rw [hfetch.out]
    exact List.mem_cons_self
  · obtain ⟨rec, hlen, hm⟩ := hcomp.record hb
    exact ⟨rec, hlen, by rw [hfetch.out]; exact List.mem_cons_of_mem _ hm⟩
  · exact (hfword off h4 h5).trans ((hcomp.word off h1 h3).trans ((congrArg (fun r : RegTab => r.word off) huregs).trans (hjoin.word off h2)))
  · exact ((huonly.mono (by simp)).trans ((hcomp.only hn).1.mono (by simp))).trans (hfetch.only.mono fun f hf => by
      rcases List.mem_append.mp hf with hf | hf
      · rw [List.mem_singleton.mp hf]
        simp
      · exact List.mem_append_right _ hf)
  · rw [hfetch.frame, (hcomp.only hn).2, huframe]

end

end Sys2Proof.Machine
end

section
/-! SUPPORT. The display: what an event of it, its waiting fields, its latch and its frames change (R232-R247). -/

namespace Sys2Proof.Safety

open Sys2Proof.Machine

theorem changesOnly.word {fs : List Fld} {s t : State} (h : changesOnly fs s t) {off : Nat} (ho : ∀ f ∈ fs, f.off ≠ off) :
    t.regs.word off = s.regs.word off :=
  RegTab.word_eq_of_fld (h.1 _ (wordFld_ok off) (fun f hf => .inl (ho f hf)))

theorem changesOnly.getN {fs : List Fld} {s t : State} (h : changesOnly fs s t) {off n : Nat}
    (ho : ∀ f ∈ fs, f.off < off ∨ off + 4 * n ≤ f.off) : t.getN off n = s.getN off n :=
  RegTab.wide_congr n off (fun j h1 h2 => h.word (fun f hf => by have := ho f hf; omega))

end Sys2Proof.Safety

namespace Sys2Proof.Machine

open Sys2Proof.Safety

/-! ### The display's part of the block -/

/-- The display: its fields, its pins, what leaves the block and the MSI-X table; the registers may differ throughout, as fields
waiting for a frame may stand in any of them. -/
def dispShare : Share where
  upd s t := { s with out := t.out, regs := t.regs, frames := t.frames, disp := t.disp, msix := t.msix }
  regs _ := True
  self _ := rfl
  again _ _ _ := rfl

/-- What a status bit of the display is called by its number. -/
def dispBit (k : Nat) : Fld := ⟨R.DISP_STATUS, k, k⟩

section
variable (s : State)

theorem State.disp_post (lc code locus data : Nat) : (s.post lc code locus data).disp = s.disp := by
  rw [s.post_eq lc code locus data]

theorem State.regs_signal (fn vec : Nat) : (s.signal fn vec).regs = s.regs := by
  unfold State.signal
  split_ifs <;> rfl

theorem State.signal_frame (fn vec : Nat) : s.signal fn vec = { s with out := (s.signal fn vec).out, msix := (s.signal fn vec).msix } := by
  unfold State.signal
  split_ifs <;> rfl

theorem State.dispEvent_frame (k : Nat) : s.dispEvent k =
    { s with regs := s.regs.setFld (dispBit k) 1, out := (s.dispEvent k).out, msix := (s.dispEvent k).msix } := by
  unfold State.dispEvent
  dsimp only
  split
  · exact (State.signal_frame _ _ _).trans rfl
  · rfl

@[simp] theorem State.regs_dispEvent (k : Nat) : (s.dispEvent k).regs = s.regs.setFld (dispBit k) 1 :=
  (congrArg State.regs (s.dispEvent_frame k)).trans rfl

@[simp] theorem State.disp_dispEvent (k : Nat) : (s.dispEvent k).disp = s.disp := (congrArg State.disp (s.dispEvent_frame k)).trans rfl

theorem State.dispEvent_dispShare (k : Nat) : dispShare.Only s (s.dispEvent k) := 
  ⟨dispShare.frame_of (s.dispEvent_frame k) rfl, fun _ h => absurd trivial h⟩

theorem State.unpinLatches_dispShare : dispShare.Only s s.unpinLatches := .parts rfl rfl

theorem State.applyDisp_dispShare : dispShare.Only s s.applyDisp := ⟨rfl, fun _ h => absurd trivial h⟩

theorem State.latchSnaps_dispShare : dispShare.Only s s.latchSnaps := by
  unfold State.latchSnaps
  dsimp only
  split
  · exact ⟨rfl, fun _ h => absurd trivial h⟩
  · exact ⟨rfl, fun _ h => absurd trivial h⟩

theorem State.psrEnter_dispShare : dispShare.Only s s.psrEnter := .ite ⟨rfl, fun _ h => absurd trivial h⟩ (.refl _ _)

theorem State.sendMsa_dispShare : dispShare.Only s s.sendMsa := .ite ⟨rfl, fun _ h => absurd trivial h⟩ (.refl _ _)

theorem State.clrF_dispShare (f : Fld) : dispShare.Only s (s.clrF f) := ⟨rfl, fun _ h => absurd trivial h⟩

theorem State.setF_dispShare (f : Fld) : dispShare.Only s (s.setF f) := ⟨rfl, fun _ h => absurd trivial h⟩

theorem State.putN_dispShare (off n v : Nat) : dispShare.Only s (s.putN off n v) := ⟨rfl, fun _ h => absurd trivial h⟩

theorem State.rasterStop_dispShare : dispShare.Only s s.rasterStop :=
  ((((s.unpinLatches_dispShare.trans (State.applyDisp_dispShare _)).trans (State.applyDisp_dispShare _)).trans
    (State.clrF_dispShare _ _)).trans (State.clrF_dispShare _ _)).trans (.parts rfl rfl)

/-- What stops the timing generator leaves of it. -/
theorem State.rasterStop_effect : s.rasterStop.flag F.DISP_STATUS_LINK = false ∧ s.rasterStop.flag F.DISP_STATUS_PSR = false ∧
    s.rasterStop.disp.stopNext = false ∧ s.rasterStop.disp.trained = false ∧ s.rasterStop.disp.latches = [] ∧
    s.rasterStop.disp.rows = [] := by
  refine ⟨?_, ?_, rfl, rfl, rfl, rfl⟩
  all_goals simp (disch := first | exact .of rfl (by omega) | omega) [State.rasterStop, State.flag]

end

/-! ### A frame begins (R232, R233, R243, R246) -/

section
variable (s : State)

/-- A frame's own counts start and the pins of the frame before are released. -/
def State.frameOpened (s : State) : State := { s.unpinLatches with disp := { s.unpinLatches.disp with
  fresh := false, line := s.get F.DISP_V_VACT, crc := 4294967295, even := [] } }

/-- Sending starts where it was asked for. -/
def State.sendStarted (s : State) : State :=
  if s.disp.sendNext ∧ s.disp.hpd ∧ s.flag F.DISP_STATUS_PSR = false then
    { (s.setF F.DISP_STATUS_LINK) with disp := { s.disp with sendNext := false } } else s

/-- The waveform counts at the frame's latch. -/
def State.wfmNoted (s : State) : State := { s with disp := { s.disp with wfm := s.wfmCounts } }

theorem State.rasterFrame_eq : s.rasterFrame = s.frameOpened.applyDisp.latchSnaps.sendStarted.wfmNoted.psrEnter.sendMsa := rfl

/-- The parts of the display that a frame starts with. -/
structure FrameFresh (line : Nat) (t : State) : Prop where
  line : t.disp.line = line
  rows : t.disp.rows = []
  left : t.disp.left = []
  even : t.disp.even = []
  crc : t.disp.crc = 4294967295

theorem State.latchSnaps_fresh {n : Nat} (hline : s.disp.line = n) (heven : s.disp.even = []) (hcrc : s.disp.crc = 4294967295) :
    FrameFresh n s.latchSnaps := by
  unfold State.latchSnaps
  dsimp only
  split
  · exact ⟨hline, rfl, rfl, heven, hcrc⟩
  · exact ⟨hline, rfl, rfl, heven, hcrc⟩

theorem FrameFresh.sendStarted {n : Nat} {s : State} (h : FrameFresh n s) : FrameFresh n s.sendStarted := by
  unfold State.sendStarted
  split
  · exact ⟨h.line, h.rows, h.left, h.even, h.crc⟩
  · exact h

theorem FrameFresh.of_disp {n : Nat} {s t : State} (h : FrameFresh n s) (hd : t.disp = { s.disp with wfm := t.disp.wfm }) : FrameFresh n t := by
  obtain ⟨hline, hrows, hleft, heven, hcrc⟩ := h
  exact ⟨by rw [hd, hline], by rw [hd, hrows], by rw [hd, hleft], by rw [hd, heven], by rw [hd, hcrc]⟩

@[simp] theorem State.disp_psrEnter : s.psrEnter.disp = s.disp := by
  unfold State.psrEnter
  split <;> rfl

@[simp] theorem State.disp_sendMsa : s.sendMsa.disp = s.disp := by
  unfold State.sendMsa
  split <;> rfl

@[simp] theorem State.regs_sendMsa : s.sendMsa.regs = s.regs := by
  unfold State.sendMsa
  split <;> rfl

theorem State.rasterFrame_fresh : FrameFresh (s.get F.DISP_V_VACT) s.rasterFrame := by
  have h : FrameFresh (s.get F.DISP_V_VACT) s.frameOpened.applyDisp.latchSnaps := State.latchSnaps_fresh _ rfl rfl rfl
  refine h.sendStarted.of_disp ?_
  rw [State.rasterFrame_eq, State.disp_sendMsa, State.disp_psrEnter]
  rfl

theorem State.sendStarted_dispShare : dispShare.Only s s.sendStarted := .ite ⟨rfl, fun _ h => absurd trivial h⟩ (.refl _ _)

theorem State.rasterFrame_dispShare : dispShare.Only s s.rasterFrame := by
  have hopen : dispShare.Only s s.frameOpened := .parts rfl rfl
  have hwfm : ∀ t : State, dispShare.Only t t.wfmNoted := fun _ => .parts rfl rfl
  exact (((((hopen.trans (State.applyDisp_dispShare _)).trans (State.latchSnaps_dispShare _)).trans
    (State.sendStarted_dispShare _)).trans (hwfm _)).trans (State.psrEnter_dispShare _)).trans (State.sendMsa_dispShare _)

/-- The registers a frame's start changes when no field waits for it. -/
def frameFlds : List Fld := [F.DISP_STATUS_LINK, F.DISP_STATUS_PSR, F.DISP_STATUS_NO_SNAP, F.DISP_STATUS_DISP_PENDING, F.DISP_BFRAME_BYTES]

theorem State.regs_applyDisp (h : s.disp.pend = []) :
    s.applyDisp.regs = (s.regs.setFld F.DISP_STATUS_DISP_PENDING 0).setFld F.DISP_BFRAME_BYTES (bFrame s.regs) := by
  simp [State.applyDisp, h]

@[simp] theorem State.regs_latchSnaps (f : Fld) (hf : F.DISP_STATUS_NO_SNAP.Sep f) : s.latchSnaps.regs.fld f = s.regs.fld f := by
  unfold State.latchSnaps
  dsimp only
  split
  · exact RegTab.fld_setFld_sep _ _ hf
  · rfl

theorem State.applyDisp_only (h : s.disp.pend = []) : changesOnly frameFlds s s.applyDisp := by
  have hput : changesOnly frameFlds s ((s.putB F.DISP_STATUS_DISP_PENDING false).put F.DISP_BFRAME_BYTES (bFrame s.regs)) :=
    .put (.put (.refl _ _) (by simp [frameFlds])) (by simp [frameFlds])
  exact hput.parts (s.regs_applyDisp h) rfl rfl rfl

theorem State.latchSnaps_only : changesOnly frameFlds s s.latchSnaps := by
  unfold State.latchSnaps
  dsimp only
  split
  · exact .put (.parts (.refl _ _) rfl rfl rfl rfl) (by simp [frameFlds])
  · exact .parts (.refl _ _) rfl rfl rfl rfl

theorem State.sendStarted_only : changesOnly frameFlds s s.sendStarted := by
  refine .ite ?_ (.refl _ _)
  exact .parts (.put (f := F.DISP_STATUS_LINK) (v := 1) (.refl _ _) (by simp [frameFlds])) rfl rfl rfl rfl

theorem State.psrEnter_only : changesOnly frameFlds s s.psrEnter := by
  refine .ite (.parts (.put (f := F.DISP_STATUS_LINK) (v := 0) (.put (f := F.DISP_STATUS_PSR) (v := 1) (.refl _ _) ?_) ?_)
    rfl rfl rfl rfl) (.refl _ _)
  · simp [frameFlds]
  · simp [frameFlds]

theorem State.sendMsa_only : changesOnly frameFlds s s.sendMsa := .ite (.parts (.refl _ _) rfl rfl rfl rfl) (.refl _ _)

theorem State.rasterFrame_only (h : s.disp.pend = []) : changesOnly frameFlds s s.rasterFrame := by
  have hopen : changesOnly frameFlds s s.frameOpened := (changesOnly.refl _ _).parts rfl rfl rfl rfl
  have hwfm : ∀ t : State, changesOnly frameFlds t t.wfmNoted := fun t => (changesOnly.refl _ t).parts rfl rfl rfl rfl
  exact (((((hopen.trans (State.applyDisp_only _ h)).trans (State.latchSnaps_only _)).trans
    (State.sendStarted_only _)).trans (hwfm _)).trans (State.psrEnter_only _)).trans (State.sendMsa_only _)

/-- Pixels are sent on a link that is wanted, plugged in and no panel's of its own. -/
theorem State.rasterFrame_sends (h : s.disp.pend = []) (hsend : s.disp.sendNext = true) (hhpd : s.disp.hpd = true)
    (hedp : s.flag F.DISP_CTRL_EDP = false) (hpsr : s.flag F.DISP_STATUS_PSR = false) : s.rasterFrame.flag F.DISP_STATUS_LINK = true := by
  generalize hu : s.frameOpened.applyDisp.latchSnaps = u
  have hdisp : u.disp.sendNext = true ∧ u.disp.hpd = true := by
    subst hu
    unfold State.latchSnaps
    dsimp only
    split
    · exact ⟨hsend, hhpd⟩
    · exact ⟨hsend, hhpd⟩
  have hregs : ∀ f : Fld, F.DISP_STATUS_NO_SNAP.Sep f → F.DISP_STATUS_DISP_PENDING.Sep f → F.DISP_BFRAME_BYTES.Sep f →
      u.flag f = s.flag f := by
    intro f h1 h2 h3
    subst hu
    rw [State.flag, State.flag]
    refine RegTab.bit_congr ((State.regs_latchSnaps _ f h1).trans ?_)
    rw [State.regs_applyDisp s.frameOpened h, RegTab.fld_setFld_sep _ _ h3, RegTab.fld_setFld_sep _ _ h2]
    rfl
  have hpsr' : u.flag F.DISP_STATUS_PSR = false :=
    (hregs _ (.of rfl (by omega)) (.of rfl (by omega)) (.of rfl (by omega))).trans hpsr
  have hedp' : u.sendStarted.wfmNoted.flag F.DISP_CTRL_EDP = false := by
    have h1 : u.flag F.DISP_CTRL_EDP = false :=
      (hregs _ (.of rfl (by omega)) (.of rfl (by omega)) (.of rfl (by omega))).trans hedp
    unfold State.sendStarted
    split
    · exact (RegTab.bit_setFld_sep _ _ (.of rfl (by omega))).trans h1
    · exact h1
  have hlink : u.sendStarted.wfmNoted.flag F.DISP_STATUS_LINK = true := by
    unfold State.sendStarted
    rw [if_pos ⟨hdisp.1, hdisp.2, hpsr'⟩]
    exact RegTab.bit_setFld_one _ (.of rfl (by omega))
  rw [State.rasterFrame_eq, hu, State.flag, State.regs_sendMsa]
  generalize u.sendStarted.wfmNoted = v at hedp' hlink
  rw [State.psrEnter, if_neg (by simp [hedp'])]
  exact hlink

end

/-! ### VBLANK_START -/

section
variable (s : State)

/-- The state in which a vertical blanking has been reported. -/
def State.vblankShown (s : State) : State :=
  let s0 := (s.putN R.DISP_VBLANK_LCNT 2 (s.lcnt % 2 ^ 64)).dispEvent 1
  if s0.get F.DISP_EVT_LINE = s0.get F.DISP_V_VACT then s0.dispEvent 2 else s0

theorem exec_vblankStart (h : s.dispOn = true) : exec .vblankStart s = .next
    (if s.vblankShown.disp.stopNext ∧ s.vblankShown.flag F.DISP_CTRL_EN = false then s.vblankShown.rasterStop
      else s.vblankShown.rasterFrame) := by
  simp only [exec, execVblankStart, h]
  rfl

/-- The registers a vertical blanking changes. -/
def vblankFlds : List Fld := [⟨R.DISP_STATUS, 1, 1⟩, ⟨R.DISP_STATUS, 2, 2⟩] ++ wideFlds R.DISP_VBLANK_LCNT 2

theorem State.vblankShown_dispShare : dispShare.Only s s.vblankShown :=
  .ite (((s.putN_dispShare _ _ _).trans (State.dispEvent_dispShare _ _)).trans (State.dispEvent_dispShare _ _))
    ((s.putN_dispShare _ _ _).trans (State.dispEvent_dispShare _ _))

@[simp] theorem State.vblankShown_disp : s.vblankShown.disp = s.disp := by
  unfold State.vblankShown
  dsimp only
  split
  · simp
  · simp

theorem State.vblankShown_get {f : Fld} (h1 : (dispBit 1).Sep f) (h2 : (dispBit 2).Sep f) (h3 : RegTab.Beside f R.DISP_VBLANK_LCNT 2) :
    s.vblankShown.get f = s.get f := by
  unfold State.vblankShown
  dsimp only
  split
  · simp [State.get, h1, h2, h3]
  · simp [State.get, h1, h3]

/-- Reporting a vertical blanking changes its registers alone. -/
theorem State.vblankShown_only : changesOnly vblankFlds s s.vblankShown := by
  have hfirst : changesOnly vblankFlds s ((s.putN R.DISP_VBLANK_LCNT 2 (s.lcnt % 2 ^ 64)).dispEvent 1) := by
    have hput : changesOnly vblankFlds s ((s.putN R.DISP_VBLANK_LCNT 2 (s.lcnt % 2 ^ 64)).put (dispBit 1) 1) :=
      .put (.putN (.refl _ _) (fun f hf => List.mem_append_right _ hf)) (by simp [vblankFlds, dispBit])
    exact hput.parts (State.regs_dispEvent _ _) (by simp) (by simp) (by simp)
  refine .ite ?_ hfirst
  have hput : changesOnly vblankFlds s (((s.putN R.DISP_VBLANK_LCNT 2 (s.lcnt % 2 ^ 64)).dispEvent 1).put (dispBit 2) 1) :=
    .put hfirst (by simp [vblankFlds, dispBit])
  exact hput.parts (State.regs_dispEvent _ _) (by simp) (by simp) (by simp)

theorem State.vblankShown_lcnt : s.vblankShown.getN R.DISP_VBLANK_LCNT 2 = s.lcnt % 2 ^ 64 := by
  have hput : (s.regs.setWide R.DISP_VBLANK_LCNT 2 (s.lcnt % 2 ^ 64)).wide R.DISP_VBLANK_LCNT 2 = s.lcnt % 2 ^ 64 :=
    (RegTab.wide_setWide 2 _ _ _).trans (Nat.mod_mod _ _)
  have hbit : ∀ k, RegTab.Beside (dispBit k) R.DISP_VBLANK_LCNT 2 := fun k => .of rfl (by simp only [R.DISP_VBLANK_LCNT, R.DISP_STATUS]; omega)
  unfold State.vblankShown
  dsimp only
  split
  · rw [State.getN, State.regs_dispEvent, State.regs_dispEvent, RegTab.wide_setFld_beside _ _ (hbit 2),
      RegTab.wide_setFld_beside _ _ (hbit 1)]
    exact hput
  · rw [State.getN, State.regs_dispEvent, RegTab.wide_setFld_beside _ _ (hbit 1)]
    exact hput

/-- The start of the line that the driver waits for is signalled with it. -/
theorem State.vblankShown_match (h : s.get F.DISP_EVT_LINE = s.get F.DISP_V_VACT) : s.vblankShown.flag ⟨R.DISP_STATUS, 2, 2⟩ = true := by
  have hkeep : ∀ f : Fld, (dispBit 1).Sep f → RegTab.Beside f R.DISP_VBLANK_LCNT 2 →
      ((s.putN R.DISP_VBLANK_LCNT 2 (s.lcnt % 2 ^ 64)).dispEvent 1).get f = s.get f := by
    intro f h1 h2
    simp [State.get, h1, h2]
  have hline : ((s.putN R.DISP_VBLANK_LCNT 2 (s.lcnt % 2 ^ 64)).dispEvent 1).get F.DISP_EVT_LINE =
      ((s.putN R.DISP_VBLANK_LCNT 2 (s.lcnt % 2 ^ 64)).dispEvent 1).get F.DISP_V_VACT := by
    rw [hkeep F.DISP_EVT_LINE (.of rfl (by omega)) (.of rfl (by simp only [R.DISP_VBLANK_LCNT]; omega)),
      hkeep F.DISP_V_VACT (.of rfl (by simp only [R.DISP_STATUS]; omega)) (.of rfl (by simp only [R.DISP_VBLANK_LCNT]; omega)), h]
  have hset : s.vblankShown = ((s.putN R.DISP_VBLANK_LCNT 2 (s.lcnt % 2 ^ 64)).dispEvent 1).dispEvent 2 := if_pos hline
  rw [hset, State.flag, State.regs_dispEvent]
  exact RegTab.bit_setFld_one _ (.of rfl (by omega))

theorem State.vblankShown_flag {f : Fld} (b : Nat) (hf : f = Fld.at R.DISP_STATUS b b := by rfl) (hb : 2 < b ∧ b < 32 := by omega) :
    s.vblankShown.flag f = s.flag f := by
  subst hf
  exact RegTab.bit_congr (s.vblankShown_get (.of rfl (by omega)) (.of rfl (by omega))
    (.of rfl (by simp only [R.DISP_VBLANK_LCNT, R.DISP_STATUS]; omega)))

theorem State.vblankShown_ctrl {f : Fld} (b : Nat) (hf : f = Fld.at R.DISP_CTRL b b := by rfl) (hb : b < 32 := by omega) :
    s.vblankShown.flag f = s.flag f := by
  subst hf
  exact RegTab.bit_congr (s.vblankShown_get (.of rfl (by simp only [R.DISP_STATUS, R.DISP_CTRL]; omega)) (.of rfl (by simp only [R.DISP_STATUS, R.DISP_CTRL]; omega))
    (.of rfl (by simp only [R.DISP_VBLANK_LCNT, R.DISP_CTRL]; omega)))

/-- A stopping generator's last frame is over. -/
theorem exec_vblankStart_stops (hen : s.flag F.DISP_CTRL_EN = false) (hstop : s.disp.stopNext = true) :
    exec .vblankStart s = .next s.vblankShown.rasterStop :=
  (exec_vblankStart s (by simp [State.dispOn, hstop])).trans (congrArg Host.Outcome.next (if_pos
    ⟨by simpa using hstop, (s.vblankShown_ctrl 0).trans hen⟩))

/-- An enabled generator begins a frame. -/
theorem exec_vblankStart_begins (hen : s.flag F.DISP_CTRL_EN = true) : exec .vblankStart s = .next s.vblankShown.rasterFrame :=
  (exec_vblankStart s (by simp [State.dispOn, hen])).trans (congrArg Host.Outcome.next (if_neg
    (fun h => by simp [(s.vblankShown_ctrl (f := F.DISP_CTRL_EN) 0).trans hen] at h)))

theorem memSame_of_dispShare {s t : State} (h : dispShare.Only s t) : memSame s t :=
  memSame_of_fields ((congrArg State.store h.frame).trans rfl) ((congrArg State.flash h.frame).trans rfl)

end

/-- Settles O37: an unplugged, unwanted or stopping display sends nothing; a frame begins on the state in which the vertical blanking
has been reported, and what it changes there is its own. -/
theorem displayPlugsAndStartsFrames : Obligations.DisplayPlugsAndStartsFrames := by
  unfold Obligations.DisplayPlugsAndStartsFrames
  refine ⟨fun s => ?_, fun s => ?_, fun s hhpd => ⟨?_, ?_⟩, fun ok s hhpd => ?_, fun s hoff c hc => ?_, fun s hen hstop => ?_, fun s hen => ?_⟩
  · refine ⟨_, rfl, ?_, State.post_seen _ _ _ _ _, ?_⟩
    · exact State.disp_post _ _ _ _ _
    · refine changesOnly.post ?_ (fun _ h => h)
      exact (changesOnly.refl logFlds s).parts rfl rfl rfl rfl
  · refine ⟨_, rfl, ?_, ?_, State.post_seen _ _ _ _ _, ?_⟩
    · exact State.disp_post _ _ _ _ _
    · simp (disch := first | exact .of rfl (by omega) | omega) [State.flag]
    · refine changesOnly.post (.put ?_ (by simp)) (fun _ h => List.mem_cons_of_mem _ h)
      exact (changesOnly.refl _ s).parts rfl rfl rfl rfl
  · simp only [exec, execLinkTrainingDone, hhpd]
    rfl
  · refine ⟨_, congrArg Host.Outcome.next ((if_neg (by simp [hhpd])).trans (if_neg (by decide))), ?_, ?_, State.post_seen _ _ _ _ _, ?_⟩
    · exact State.disp_post _ _ _ _ _
    · simp (disch := first | exact .of rfl (by omega) | omega) [State.flag]
    · refine changesOnly.post (.put ?_ (by simp)) (fun _ h => List.mem_cons_of_mem _ h)
      exact (changesOnly.refl _ s).parts rfl rfl rfl rfl
  · simp only [exec, execLinkTrainingDone, hhpd]
    rfl
  · simp only [List.mem_cons, List.not_mem_nil, or_false] at hc
    obtain rfl | rfl := hc
    · exact congrArg Host.Outcome.next (if_pos hoff)
    · exact congrArg Host.Outcome.next (if_pos hoff)
  · have honly := s.vblankShown_dispShare.trans (State.rasterStop_dispShare _)
    obtain ⟨hlink, hpsr, hnext, htrained, hlatches, hrows⟩ := s.vblankShown.rasterStop_effect
    exact ⟨_, exec_vblankStart_stops s hen hstop, hlink, hpsr, hnext, htrained, hlatches, hrows, memSame_of_dispShare honly, honly.frame⟩
  · have honly := s.vblankShown_dispShare.trans (State.rasterFrame_dispShare _)
    obtain ⟨hline, hrows, hleft, heven, hcrc⟩ := s.vblankShown.rasterFrame_fresh
    refine ⟨_, exec_vblankStart_begins s hen, hline.trans ?_, hrows, hleft, heven, hcrc, fun hpend => ?_, memSame_of_dispShare honly,
      honly.frame⟩
    · exact s.vblankShown_get (.of rfl (by simp only [R.DISP_STATUS]; omega)) (.of rfl (by simp only [R.DISP_STATUS]; omega))
        (.of rfl (by simp only [R.DISP_VBLANK_LCNT]; omega))
    · have hpend' : s.vblankShown.disp.pend = [] := by rw [s.vblankShown_disp, hpend]
      have hframe := s.vblankShown.rasterFrame_only hpend'
      refine ⟨?_, fun hmatch => ?_, fun hsend hhpd hedp hpsr => ?_, ?_⟩
      · refine Eq.trans ?_ s.vblankShown_lcnt
        exact hframe.getN (by simp [frameFlds, R.DISP_VBLANK_LCNT, F.DISP_STATUS_LINK, F.DISP_STATUS_PSR, F.DISP_STATUS_NO_SNAP,
          F.DISP_STATUS_DISP_PENDING, F.DISP_BFRAME_BYTES])
      · refine (RegTab.bit_congr (hframe.1 ⟨R.DISP_STATUS, 2, 2⟩ (.of rfl (by omega)) ?_)).trans (s.vblankShown_match hmatch)
        simp [frameFlds, Fld.apart, R.DISP_STATUS, F.DISP_STATUS_LINK, F.DISP_STATUS_PSR, F.DISP_STATUS_NO_SNAP,
          F.DISP_STATUS_DISP_PENDING, F.DISP_BFRAME_BYTES]
      · exact State.rasterFrame_sends _ hpend' (by simpa using hsend) (by simpa using hhpd) ((s.vblankShown_ctrl 1).trans hedp)
          ((s.vblankShown_flag 12).trans hpsr)
      · refine (s.vblankShown_only.mono ?_).trans (hframe.mono ?_) <;> simp +contextual [vblankFlds, frameFlds]

end Sys2Proof.Machine
end

section
/-! SUPPORT. What a frame's end, a line and a row of a database change (R238-R241, R246, R247). -/

namespace Sys2Proof.Machine

open Sys2Proof.Safety

section
variable (s : State)

theorem State.dispEvent_only {fs : List Fld} {k : Nat} (hk : k < 32) (h : dispBit k ∈ fs) : changesOnly fs s (s.dispEvent k) := by
  have hput : changesOnly fs s (s.put (dispBit k) 1) := .put (.refl _ _) h (.of rfl (by omega))
  exact hput.parts (State.regs_dispEvent _ _) (by simp) (by simp) (by simp)

theorem logFlds_high : ∀ f ∈ logFlds, 0xF00000 ≤ f.off := by decide

/-! ### FRAME_DONE -/

/-- The signature of the frame that ends. -/
def State.frameSig (s : State) : Nat := Nat.xor s.disp.crc 4294967295

/-- Frames in a row that showed the same picture under moving data. -/
def State.sameFrames (s : State) : Nat := if s.frameSig = s.get F.DISP_SIG_CRC ∧ s.dataMoved = true then s.disp.same + 1 else 0

/-- The frame that ends moved no data. -/
def State.frameStill (s : State) : Bool := !s.disp.fresh && !s.dataMoved

/-- The frame is counted and its signature published. -/
def State.frameCounted (s : State) : State :=
  let s1 := (s.unpinLatches.incWrap F.DISP_FRAME_CNT_COUNT).put F.DISP_SIG_CRC s.frameSig
  { s1 with disp := { s1.disp with same := s.sameFrames, free := if s.frameStill then s.disp.free + 1 else 0 } }

theorem exec_frameDone (h : s.dispOn = true) : exec .frameDone s =
    .next (((s.frameCounted.psrLeave s.frameStill).freezeWatch s.sameFrames).dispEvent 0) :=
  congrArg Host.Outcome.next (if_neg (by simp [h]))

theorem State.psrLeave_only (still : Bool) : changesOnly [F.DISP_STATUS_PSR] s (s.psrLeave still) := by
  unfold State.psrLeave
  dsimp only
  refine .ite ?_ (.refl _ _)
  have hclr : changesOnly [F.DISP_STATUS_PSR] s (s.clrF F.DISP_STATUS_PSR) := .put (.refl _ _) (by simp)
  split
  · exact hclr.parts rfl rfl rfl rfl
  · exact hclr.parts rfl rfl rfl rfl

theorem State.psrLeave_disp (still : Bool) : (s.psrLeave still).disp = { s.disp with sendNext := (s.psrLeave still).disp.sendNext } := by
  unfold State.psrLeave
  split <;> rfl

theorem State.psrLeave_moving : (s.psrLeave false).flag F.DISP_STATUS_PSR = false := by
  unfold State.psrLeave
  dsimp only
  split
  · split
    · exact RegTab.bit_setFld_zero _ (.of rfl (by omega))
    · exact RegTab.bit_setFld_zero _ (.of rfl (by omega))
  · next h => simpa using h

theorem State.freezeWatch_only (n : Nat) : changesOnly (F.DISP_STATUS_FREEZE :: logFlds) s (s.freezeWatch n) := by
  unfold State.freezeWatch
  exact .ite (.refl _ _) (.ite (changesOnly.post (.put (.refl _ _) (by simp)) (fun _ h => List.mem_cons_of_mem _ h)) (.refl _ _))

theorem State.freezeWatch_disp (n : Nat) : (s.freezeWatch n).disp = s.disp := by
  unfold State.freezeWatch
  dsimp only
  split_ifs
  · rfl
  · exact State.disp_post _ _ _ _ _
  · rfl

/-- The registers that change after a frame is counted. -/
def frameEndFlds : List Fld := [F.DISP_STATUS_PSR, F.DISP_STATUS_FREEZE, dispBit 0] ++ logFlds

theorem State.frameEnd_only (still : Bool) (n : Nat) : changesOnly frameEndFlds s (((s.psrLeave still).freezeWatch n).dispEvent 0) := by
  refine (((s.psrLeave_only still).mono ?_).trans ((State.freezeWatch_only _ n).mono ?_)).trans (State.dispEvent_only _ (by omega) ?_)
  all_goals simp +contextual [frameEndFlds]

theorem State.frameEnd_get {f : Fld} (still : Bool) (n : Nat) (h : f.Low) (hoff : f.off ≠ R.DISP_STATUS) :
    (((s.psrLeave still).freezeWatch n).dispEvent 0).get f = s.get f := by
  have hlow := h.low
  refine RegTab.fld_congr ((s.frameEnd_only still n).word (fun g hg => ?_))
  simp only [frameEndFlds, List.cons_append, List.nil_append, List.mem_cons] at hg
  obtain rfl | rfl | rfl | hg := hg
  · exact hoff.symm
  · exact hoff.symm
  · exact hoff.symm
  · have := logFlds_high g hg
    omega

theorem State.frameEnd_disp (still : Bool) (n : Nat) : (((s.psrLeave still).freezeWatch n).dispEvent 0).disp =
    { s.disp with sendNext := (((s.psrLeave still).freezeWatch n).dispEvent 0).disp.sendNext } := by
  rw [State.disp_dispEvent, State.freezeWatch_disp]
  exact s.psrLeave_disp still

theorem State.frameEnd_moving (n : Nat) : (((s.psrLeave false).freezeWatch n).dispEvent 0).flag F.DISP_STATUS_PSR = false := by
  have hfreeze : (State.freezeWatch (s.psrLeave false) n).regs.fld F.DISP_STATUS_PSR = (s.psrLeave false).regs.fld F.DISP_STATUS_PSR := by
    refine (State.freezeWatch_only (s.psrLeave false) n).1 F.DISP_STATUS_PSR (.of rfl (by omega)) (fun f hf => ?_)
    obtain rfl | hf := List.mem_cons.mp hf
    · exact .inr (.inl (by decide))
    · exact .inl (fun h => absurd (logFlds_high f hf) (by rw [h]; decide))
  rw [State.flag, State.regs_dispEvent, RegTab.bit_setFld_sep (f := dispBit 0) (g := F.DISP_STATUS_PSR) _ _ (.of rfl (by omega))]
  exact (RegTab.bit_congr hfreeze).trans s.psrLeave_moving

theorem State.frameCounted_only : changesOnly [F.DISP_FRAME_CNT_COUNT, F.DISP_SIG_CRC] s s.frameCounted := by
  have hput : changesOnly [F.DISP_FRAME_CNT_COUNT, F.DISP_SIG_CRC] s
      ((s.unpinLatches.incWrap F.DISP_FRAME_CNT_COUNT).put F.DISP_SIG_CRC s.frameSig) :=
    .put (.put (.parts (.refl _ _) rfl rfl rfl rfl) (by simp)) (by simp)
  exact hput.parts rfl rfl rfl rfl

theorem State.frameCounted_count : s.frameCounted.get F.DISP_FRAME_CNT_COUNT = (s.get F.DISP_FRAME_CNT_COUNT + 1) % 2 ^ 32 := by
  refine Eq.trans ?_ (State.get_incWrap_width (w := 32) s F.DISP_FRAME_CNT_COUNT (.of rfl (by omega)) rfl)
  exact RegTab.fld_setFld_sep _ _ (.of rfl (by omega))

theorem State.frameCounted_sig : s.frameCounted.get F.DISP_SIG_CRC = s.frameSig % 2 ^ 32 :=
  RegTab.fld_setFld_self _ _ (.of rfl (by omega))

end

/-! ### RASTER_LINE_START -/

/-- What a line changes: the display, registers, what leaves the block and the MSI-X table. -/
def lineShare : Share where
  upd s t := { s with out := t.out, regs := t.regs, disp := t.disp, msix := t.msix }
  regs _ := True
  self _ := rfl
  again _ _ _ := rfl

/-- The registers a line changes. -/
def lineFlds : List Fld := [dispBit 2, dispBit 3, F.DISP_STATUS_PREFILL_SHORT, F.DISP_UNDERRUN_CNT_COUNT]

/-- A line goes on: of the block its part alone changes, in the registers its fields, and the line's number stays. -/
structure LineOn (s t : State) : Prop where
  only : lineShare.Only s t
  flds : changesOnly lineFlds s t
  line : t.disp.line = s.disp.line

theorem LineOn.refl (s : State) : LineOn s s := ⟨.refl _ s, .refl _ s, rfl⟩

theorem LineOn.trans {s t u : State} (h : LineOn s t) (k : LineOn t u) : LineOn s u :=
  ⟨h.only.trans k.only, h.flds.trans k.flds, k.line.trans h.line⟩

theorem LineOn.ite {s t u : State} {c : Prop} [Decidable c] (h : LineOn s t) (k : LineOn s u) : LineOn s (if c then t else u) := by
  split
  · exact h
  · exact k

theorem LineOn.put {s : State} {f : Fld} {v : Nat} (hf : f ∈ lineFlds) (hok : f.ok := by exact .of rfl (by omega)) : LineOn s (s.put f v) :=
  ⟨⟨rfl, fun _ h => absurd trivial h⟩, .put (.refl _ _) hf hok, rfl⟩

section
variable (s : State)

theorem State.dispEvent_line {k : Nat} (hk : k < 32) (h : dispBit k ∈ lineFlds) : LineOn s (s.dispEvent k) where
  only := ⟨lineShare.frame_of (s.dispEvent_frame k) rfl, fun _ h => absurd trivial h⟩
  flds := s.dispEvent_only hk h
  line := by rw [State.disp_dispEvent]

theorem State.outLine_frame (y : Nat) (ps : List (Nat × Nat × Nat)) : s.outLine y ps =
    { s with out := (s.outLine y ps).out, disp := { s.disp with
      crc := (s.outLine y ps).disp.crc, even := (s.outLine y ps).disp.even } } := by
  unfold State.outLine
  dsimp only
  split_ifs <;> rfl

theorem State.outLine_line (y : Nat) (ps : List (Nat × Nat × Nat)) : LineOn s (s.outLine y ps) := by
  have hf := s.outLine_frame y ps
  exact ⟨.parts ((congrArg State.regs hf).trans rfl) (lineShare.frame_of hf rfl),
    (changesOnly.refl _ _).parts ((congrArg State.regs hf).trans rfl) ((congrArg State.store hf).trans rfl)
      ((congrArg State.flash hf).trans rfl) ((congrArg State.pending hf).trans rfl), by rw [hf]⟩

/-- A line that the driver waits for is signalled, but for the one that VBLANK_START signals. -/
def State.lineShown (s : State) (line : Nat) : State :=
  let s0 := { s with disp := { s.disp with line := line } }
  if line = s.get F.DISP_EVT_LINE ∧ line ≠ s.get F.DISP_V_VACT then s0.dispEvent 2 else s0

/-- The first line finds the buffer filled, or says that it is not. -/
def State.fillShown (s : State) (line : Nat) : State := if line = 0 ∧ s.prefilled = false then s.setF F.DISP_STATUS_PREFILL_SHORT else s

/-- An active line leaves. -/
def State.lineSent (s : State) (line : Nat) : State :=
  let rows := s.needRows line
  let under := s.disp.latches.any (fun l => l.snap.isSome && rows.any (fun r => !s.rowHere l.layer r))
  let ps := s.linePix line rows under (s.get F.DISP_H_HACT) 0 s.disp.last
  let s3 := if under && decide (s.get F.DISP_PLOT_POS_PLOT_X < s.get F.DISP_H_HACT) then
    (s.incSat F.DISP_UNDERRUN_CNT_COUNT).dispEvent 3 else s
  ({ s3 with disp := { s3.disp with last := ps.getLastD s3.disp.last } }.outLine line ps).freeRows line

theorem exec_rasterLineStart (line : Nat) (h : s.dispOn = true) : exec (.rasterLineStart line) s =
    .next (if s.get F.DISP_V_VACT ≤ line then s.lineShown line else ((s.lineShown line).fillShown line).lineSent line) :=
  congrArg Host.Outcome.next (if_neg (by simp [h]))

theorem State.fillShown_line (line : Nat) : LineOn s (s.fillShown line) := .ite (.put (by simp [lineFlds])) (.refl _)

theorem State.lineSent_line (line : Nat) : LineOn s (s.lineSent line) := by
  unfold State.lineSent
  extract_lets rows under ps s3
  have hs3 : LineOn s s3 := by
    refine .ite ?_ (.refl _)
    exact (LineOn.put (by simp [lineFlds])).trans (State.dispEvent_line _ (by omega) (by simp [lineFlds]))
  clear_value s3
  have hlast : LineOn s3 { s3 with disp := { s3.disp with last := ps.getLastD s3.disp.last } } :=
    ⟨.parts rfl rfl, (changesOnly.refl _ _).parts rfl rfl rfl rfl, rfl⟩
  have hfree : ∀ t : State, LineOn t (t.freeRows line) := fun _ => ⟨.parts rfl rfl, (changesOnly.refl _ _).parts rfl rfl rfl rfl, rfl⟩
  exact ((hs3.trans hlast).trans (State.outLine_line _ _ _)).trans (hfree _)

end

section
variable (s : State) (line : Nat)

/-- The state after a line of a running generator. -/
def State.lineStart (s : State) (line : Nat) : State :=
  if s.get F.DISP_V_VACT ≤ line then s.lineShown line else ((s.lineShown line).fillShown line).lineSent line

theorem State.lineShown_line : LineOn { s with disp := { s.disp with line := line } } (s.lineShown line) :=
  .ite (State.dispEvent_line _ (by omega) (by simp [lineFlds])) (.refl _)

theorem State.lineStart_shown : LineOn (s.lineShown line) (s.lineStart line) :=
  .ite (.refl _) ((State.fillShown_line _ _).trans (State.lineSent_line _ _))

theorem State.lineStart_line : lineShare.Only s (s.lineStart line) ∧ changesOnly lineFlds s (s.lineStart line) ∧
    (s.lineStart line).disp.line = line := by
  obtain ⟨honly, hflds, hline⟩ := (s.lineShown_line line).trans (s.lineStart_shown line)
  have hfirst : lineShare.Only s { s with disp := { s.disp with line := line } } := .parts rfl rfl
  exact ⟨hfirst.trans honly, ((changesOnly.refl _ s).parts rfl rfl rfl rfl).trans hflds, hline⟩

theorem State.lineStart_blank (h : s.get F.DISP_V_VACT ≤ line) : (s.lineStart line).disp = { s.disp with line := line } := by
  rw [State.lineStart, if_pos h, State.lineShown]
  dsimp only
  split
  · rw [State.disp_dispEvent]
  · rfl

@[simp] theorem State.regs_outLine (y : Nat) (ps : List (Nat × Nat × Nat)) : (s.outLine y ps).regs = s.regs :=
  (congrArg State.regs (s.outLine_frame y ps)).trans rfl

/-- An active line changes no status bit but UNDERRUN. -/
theorem State.lineSent_flag {f : Fld} (h1 : (dispBit 3).Sep f) (h2 : F.DISP_UNDERRUN_CNT_COUNT.Sep f) : (s.lineSent line).flag f = s.flag f := by
  unfold State.lineSent
  extract_lets rows under ps s3
  have hs3 : s3.flag f = s.flag f := by
    unfold s3
    split
    · rw [State.flag, State.regs_dispEvent, RegTab.bit_setFld_sep _ _ h1, State.regs_incSat, RegTab.bit_setFld_sep _ _ h2]
      rfl
    · rfl
  clear_value s3
  exact (congrArg (fun r : RegTab => r.bit f) (State.regs_outLine _ _ _)).trans hs3

theorem State.fillShown_flag {f : Fld} (h : F.DISP_STATUS_PREFILL_SHORT.Sep f) : (s.fillShown line).flag f = s.flag f := by
  unfold State.fillShown
  split
  · exact RegTab.bit_setFld_sep _ _ h
  · rfl

theorem State.lineStart_match (h : line = s.get F.DISP_EVT_LINE) (hv : line ≠ s.get F.DISP_V_VACT) :
    (s.lineStart line).flag ⟨R.DISP_STATUS, 2, 2⟩ = true := by
  have hshown : (s.lineShown line).flag ⟨R.DISP_STATUS, 2, 2⟩ = true := by
    have he : s.lineShown line = State.dispEvent { s with disp := { s.disp with line := line } } 2 := if_pos ⟨h, hv⟩
    rw [he, State.flag, State.regs_dispEvent]
    exact RegTab.bit_setFld_one _ (.of rfl (by omega))
  unfold State.lineStart
  split
  · exact hshown
  · exact ((State.lineSent_flag _ _ (.of rfl (by omega)) (.of rfl (by decide))).trans
      (State.fillShown_flag _ _ (.of rfl (by decide)))).trans hshown

/-- A line's number and its signal leave the buffer as it is. -/
theorem State.lineShown_prefilled : (s.lineShown line).prefilled = s.prefilled := by
  have hparts : (s.lineShown line).disp.latches = s.disp.latches ∧ (s.lineShown line).disp.rows = s.disp.rows ∧
      (s.lineShown line).flag F.DISP_STATUS_PSR = s.flag F.DISP_STATUS_PSR := by
    unfold State.lineShown
    dsimp only
    split
    · rw [State.disp_dispEvent, State.flag, State.regs_dispEvent,
        RegTab.bit_setFld_sep (f := dispBit 2) (g := F.DISP_STATUS_PSR) _ _ (.of rfl (by omega))]
      exact ⟨rfl, rfl, rfl⟩
    · exact ⟨rfl, rfl, rfl⟩
  obtain ⟨hlatches, hrows, hpsr⟩ := hparts
  rw [State.prefilled, State.prefilled, hlatches, hrows, hpsr]

theorem State.lineStart_short (h : line = 0) (hv : line < s.get F.DISP_V_VACT) (hfill : s.prefilled = false) :
    (s.lineStart line).flag F.DISP_STATUS_PREFILL_SHORT = true := by
  have hset : (s.lineShown line).fillShown line = (s.lineShown line).setF F.DISP_STATUS_PREFILL_SHORT :=
    if_pos ⟨h, (s.lineShown_prefilled line).trans hfill⟩
  rw [State.lineStart, if_neg (by omega), State.lineSent_flag (f := F.DISP_STATUS_PREFILL_SHORT) _ _ (.of rfl (by omega)) (.of rfl (by decide)), hset]
  exact RegTab.bit_setFld_one _ (.of rfl (by omega))

end

/-! ### RASTER_FETCH_BURST -/

section
variable {s : State} {layer : Fin 8} {row : Fin 1024} {spoiled : BitVec 16} {l : Latch} {pub a : Nat}

/-- The bursts of a row that arrive poisoned. -/
def State.rowBad (s : State) (a : Nat) (spoiled : BitVec 16) : List Nat :=
  (List.range 16).filter (fun i => s.poisoned (a + 256 * i) || spoiled.getLsbD i)

theorem State.mem_rowBad (s : State) (a : Nat) (spoiled : BitVec 16) (i : Nat) :
    i ∈ s.rowBad a spoiled ↔ i < 16 ∧ (s.poisoned (a + 256 * i) = true ∨ spoiled.getLsbD i = true) := by
  simp [State.rowBad]

/-- A row joins the line buffer. -/
def State.rowJoined (s : State) (layer row : Nat) (bad : List Nat) : State :=
  let s1 : State := { s with disp := { s.disp with rows := s.disp.rows ++ [(layer, row, bad)], left := Tab.set s.disp.left layer row } }
  if bad = [] then s1 else s1.setF F.DISP_STATUS_POISON_SEEN

theorem exec_rasterFetchBurst (hl : s.disp.latches.find? (fun y => y.layer == layer.val && y.snap.isSome) = some l) (hsnap : l.snap = some (pub, a))
    (hon : s.dispOn = true) (hpsr : s.flag F.DISP_STATUS_PSR = false)
    (hroom : (s.disp.rows.filter (fun x => x.1 == layer.val)).length < 16) (hnext : Tab.get 1024 s.disp.left layer = row.val + 1) :
    exec (.rasterFetchBurst layer row spoiled) s = .next (if (s.ask 3 layer 4096).1 = false then (s.ask 3 layer 4096).2
      else (s.ask 3 layer 4096).2.rowJoined layer row (s.rowBad (a + 4096 * row.val) spoiled)) := by
  have hgo : ¬ (s.dispOn = false ∨ s.flag F.DISP_STATUS_PSR = true ∨
      decide (16 ≤ (s.disp.rows.filter (fun x => x.1 == layer.val)).length) = true ∨ Tab.get 1024 s.disp.left layer ≠ row.val + 1) := by
    simp [hon, hpsr, hroom, hnext]
  simp only [exec, execRasterFetchBurst, hl, hsnap]
  exact congrArg Host.Outcome.next (if_neg hgo)

theorem exec_rasterFetchBurst_idle (h : s.dispOn = false ∨ s.flag F.DISP_STATUS_PSR = true ∨ Tab.get 1024 s.disp.left layer ≠ row.val + 1 ∨
    16 ≤ (s.disp.rows.filter (fun x => x.1 == layer.val)).length ∨ s.disp.latches = []) :
    exec (.rasterFetchBurst layer row spoiled) s = .next s := by
  simp only [exec, execRasterFetchBurst]
  split
  · next l hl =>
    refine congrArg Host.Outcome.next (if_pos ?_)
    obtain h | h | h | h | h := h
    · exact .inl h
    · exact .inr (.inl h)
    · exact .inr (.inr (.inr h))
    · exact .inr (.inr (.inl (decide_eq_true h)))
    · simp [h] at hl
  · rfl

end

/-- A row that joins the buffer changes the display and, poisoned, one status bit. -/
theorem State.rowJoined_effect (s : State) (layer row : Nat) (bad : List Nat) :
    (s.rowJoined layer row bad).disp = { s.disp with
      rows := s.disp.rows ++ [(layer, row, bad)], left := Tab.set s.disp.left layer row } ∧
    (bad ≠ [] → (s.rowJoined layer row bad).flag F.DISP_STATUS_POISON_SEEN = true) ∧
    changesOnly [F.DISP_STATUS_POISON_SEEN] s (s.rowJoined layer row bad) ∧
    s.rowJoined layer row bad = { s with regs := (s.rowJoined layer row bad).regs, disp := (s.rowJoined layer row bad).disp } := by
  unfold State.rowJoined
  dsimp only
  split
  · next h => exact ⟨rfl, fun hb => absurd h hb, (changesOnly.refl _ s).parts rfl rfl rfl rfl, rfl⟩
  · refine ⟨rfl, fun _ => RegTab.bit_setFld_one _ (.of rfl (by omega)), .put ?_ (by simp), rfl⟩
    exact (changesOnly.refl _ s).parts rfl rfl rfl rfl

/-- Settles O38: a frame is counted and what follows keeps its count; a line's steps change its own fields; a fetch that nothing stops
asks for its grant, whose refusal ends it. -/
theorem rasterCountsFramesAndFetches : Obligations.RasterCountsFramesAndFetches := by
  unfold Obligations.RasterCountsFramesAndFetches
  refine ⟨fun s hon => ?_, fun line s hon => ?_, fun line s hoff => ?_, fun layer row spoiled l pub a s hon hpsr hroom hl hsnap hnext => ?_,
    fun layer row spoiled s h => exec_rasterFetchBurst_idle h⟩
  · have hdisp := s.frameCounted.frameEnd_disp s.frameStill s.sameFrames
    refine ⟨_, exec_frameDone s hon, ?_, ?_, ?_, ?_, fun h => ⟨?_, ?_⟩, fun hfresh hmoved => ?_, ?_⟩
    · exact (State.frameEnd_get _ _ _ (.of rfl (by omega)) (by decide)).trans s.frameCounted_count
    · exact (State.frameEnd_get _ _ _ (.of rfl (by omega)) (by decide)).trans s.frameCounted_sig
    · rw [State.flag, State.regs_dispEvent]
      exact RegTab.bit_setFld_one _ (.of rfl (by omega))
    · rw [hdisp]
      rfl
    · have hmoving : s.frameStill = false := by
        obtain h | h := h
        · simp [State.frameStill, h]
        · simp [State.frameStill, h]
      rw [hmoving]
      exact State.frameEnd_moving _ _
    · rw [hdisp]
      obtain h | h := h
      · simp [State.frameCounted, State.frameStill, h]
      · simp [State.frameCounted, State.frameStill, h]
    · rw [hdisp]
      simp [State.frameCounted, State.frameStill, hfresh, hmoved]
    · refine (s.frameCounted_only.mono ?_).trans ((State.frameEnd_only _ _ _).mono ?_)
      · simp +contextual
      · simp +contextual [frameEndFlds, dispBit]
  · obtain ⟨honly, hflds, hline⟩ := s.lineStart_line line
    exact ⟨_, exec_rasterLineStart s line hon, hline, s.lineStart_match line, s.lineStart_blank line, s.lineStart_short line, hflds, honly.frame⟩
  · exact congrArg Host.Outcome.next (if_pos hoff)
  · have hexec := exec_rasterFetchBurst (spoiled := spoiled) hl hsnap hon hpsr hroom hnext
    refine ⟨fun hgrant => ?_, fun hgrant => hexec.trans (congrArg Host.Outcome.next (if_pos hgrant))⟩
    have hjoin := State.rowJoined_effect (s.ask 3 layer 4096).2 layer row (s.rowBad (a + 4096 * row.val) spoiled)
    have hask := s.ask_askShare 3 layer 4096
    have hflds := s.ask_only 3 layer 4096
    replace hexec := hexec.trans (congrArg Host.Outcome.next (if_neg (by simp [hgrant])))
    generalize (s.ask 3 layer 4096).2 = u at hexec hjoin hask hflds
    obtain ⟨hdisp, hpoison, hchange, hframe⟩ := hjoin
    refine ⟨_, s.rowBad (a + 4096 * row.val) spoiled, hexec, s.mem_rowBad _ _, ?_, hpoison, ?_, ?_⟩
    · rw [hdisp, hask.frame]
      rfl
    · exact (hflds.mono (by simp)).trans (hchange.mono (by simp))
    · rw [hframe, hask.frame]
      rfl

end Sys2Proof.Machine
end

section
/-! SUPPORT. What a queue's engine reads of the store, which queue it picks, and how long it runs (R206, R223). -/

namespace Sys2Proof.Machine

open Sys2Proof.Safety

/-! ### Readers of the store -/

theorem findSome?_congr_mem {α β : Type} {f g : α → Option β} {l : List α} (h : ∀ x ∈ l, f x = g x) : l.findSome? f = l.findSome? g := by
  induction l with
  | nil => rfl
  | cons x xs ih => rw [List.findSome?_cons, List.findSome?_cons, h x (by simp), ih fun y hy => h y (by simp [hy])]

theorem any_congr_mem {α : Type} {f g : α → Bool} {l : List α} (h : ∀ x ∈ l, f x = g x) : l.any f = l.any g := by
  induction l with
  | nil => rfl
  | cons x xs ih => rw [List.any_cons, List.any_cons, h x (by simp), ih fun y hy => h y (by simp [hy])]

theorem used_lt {r : RegTab} {g : Nat} (hg : g ∈ usedGrps r) : g < 16 := List.mem_range.mp (List.mem_filter.mp hg).1

/-- Readers of the store find the same: only what the store has been asked for and has served may differ, and what the queues do. -/
structure ReadsAs (s t : State) : Prop where
  store : t.store = s.store
  grps : t.grps = s.grps
  fill : t.stageFill = s.stageFill
  drain : t.stageDrain = s.stageDrain
  fenced : t.sto.fenced = s.sto.fenced
  failed : t.sto.failed = s.sto.failed
  bad : t.sto.bad = s.sto.bad
  badLink : t.sto.badLink = s.sto.badLink
  word : ∀ off, off ≠ 0x700114 → t.regs.word off = s.regs.word off

section
variable {s t u : State} (h : ReadsAs s t)
include h

theorem ReadsAs.trans (k : ReadsAs t u) : ReadsAs s u where
  store := k.store.trans h.store
  grps := k.grps.trans h.grps
  fill := k.fill.trans h.fill
  drain := k.drain.trans h.drain
  fenced := k.fenced.trans h.fenced
  failed := k.failed.trans h.failed
  bad := k.bad.trans h.bad
  badLink := k.badLink.trans h.badLink
  word off ho := (k.word off ho).trans (h.word off ho)

theorem ReadsAs.fld {f : Fld} (hf : f.off ≠ 0x700114) : t.regs.fld f = s.regs.fld f := RegTab.fld_congr (h.word _ hf)

theorem ReadsAs.bit {f : Fld} (hf : f.off ≠ 0x700114) : t.regs.bit f = s.regs.bit f := RegTab.bit_congr (h.fld hf)

theorem ReadsAs.dead (a : Nat) : t.dead a = s.dead a := by
  unfold State.dead State.pcOf State.activePcs
  rw [h.fenced, h.failed]

theorem ReadsAs.poisoned (a : Nat) : t.poisoned a = s.poisoned a := by
  rw [State.poisoned, State.poisoned, h.dead, h.bad, h.badLink]

theorem ReadsAs.sread (a : Nat) : t.sread a = s.sread a := by rw [State.sread, State.sread, h.store]

theorem ReadsAs.grp (g : Nat) : t.grp g = s.grp g := grp_of_grps h.grps g

theorem ReadsAs.physPage (g l : Nat) : t.physPage g l = s.physPage g l := by
  rw [State.physPage, State.physPage, h.grp]
  exact congrArg (fun b => Tab.get (b + l) (s.grp g).pmap l) (h.fld (by simp only [F.REC_GRP_RING_BASE_PAGE]; omega))

theorem ReadsAs.chMask (g : Nat) (hg : g < 16) : chMask t.regs g = chMask s.regs g := by
  rw [Machine.chMask, Machine.chMask, RegTab.wide_congr 2 _ (fun j h1 h2 => h.word j (by simp only [R.TRG_GRP_CH] at h1 h2; omega))]

theorem ReadsAs.usedGrps : usedGrps t.regs = usedGrps s.regs :=
  List.filter_congr (fun g hg => by rw [h.chMask g (List.mem_range.mp hg)])

theorem ReadsAs.ringPages (g : Nat) (hg : g < 16) : ringPages t.regs g = ringPages s.regs g :=
  h.fld (by simp only [F.REC_GRP_RING_SIZE_PAGES]; omega)

theorem ReadsAs.mapByte (a g : Nat) (hg : g < 16) : t.mapByte a g = s.mapByte a g := by
  have haddr : t.get (F.REC_GRP_PMAP_ADDR g) = s.get (F.REC_GRP_PMAP_ADDR g) := h.fld (by simp only [F.REC_GRP_PMAP_ADDR]; omega)
  simp only [State.mapByte, haddr, h.ringPages g hg, h.physPage]

theorem ReadsAs.readByte (a : Nat) : t.readByte a = s.readByte a := by
  have hmap : (Machine.usedGrps t.regs).findSome? (t.mapByte a) = (Machine.usedGrps s.regs).findSome? (s.mapByte a) := by
    rw [h.usedGrps]
    exact findSome?_congr_mem fun g hg => h.mapByte a g (used_lt hg)
  rw [State.readByte, State.readByte, hmap, h.sread]

theorem ReadsAs.readBytes (a n : Nat) : t.readBytes a n = s.readBytes a n := by
  simp only [State.readBytes, h.poisoned, h.readByte]

theorem ReadsAs.capPages : t.capPages = s.capPages := h.fld (by decide)

theorem ReadsAs.capBytes : t.capBytes = s.capBytes := by rw [State.capBytes, State.capBytes, h.capPages]

theorem ReadsAs.allocGrps : allocGrps t.regs = allocGrps s.regs := by
  rw [Machine.allocGrps, Machine.allocGrps, h.usedGrps]
  refine List.flatMap_congr fun g hg => ?_
  have hlt := used_lt hg
  rw [h.fld (f := F.REC_GRP_RING_BASE_PAGE g) (by simp only [F.REC_GRP_RING_BASE_PAGE]; omega), h.ringPages g hlt, pinMax,
    h.fld (f := F.REC_GRP_RING_SIZE_PIN_MAX g) (by simp only [F.REC_GRP_RING_SIZE_PIN_MAX]; omega),
    h.fld (f := F.REC_GRP_GAP_RING_PAGE g) (by simp only [F.REC_GRP_GAP_RING_PAGE]; omega), gapPages,
    h.fld (f := F.REC_GRP_GAP_RING_PAGES g) (by simp only [F.REC_GRP_GAP_RING_PAGES]; omega)]
  rfl

theorem ReadsAs.averaging (g : Nat) : t.regs.bit (F.TAL_AVG_CTRL_EN g) = s.regs.bit (F.TAL_AVG_CTRL_EN g) :=
  h.bit (by simp only [F.TAL_AVG_CTRL_EN]; omega)

theorem ReadsAs.allocAvg : allocAvg t.regs = allocAvg s.regs := by
  rw [Machine.allocAvg, Machine.allocAvg, List.filter_congr fun g _ => h.averaging g]
  refine List.map_congr_left fun g hg => ?_
  rw [h.fld (f := F.TAL_AVG_BASE_PAGE g) (by simp only [F.TAL_AVG_BASE_PAGE]; omega), avgPages, avgPages,
    h.fld (f := F.TAL_AVG_LEN_LEN g) (by simp only [F.TAL_AVG_LEN_LEN]; omega),
    h.chMask g (List.mem_range.mp (List.mem_filter.mp hg).1)]

theorem ReadsAs.allocTally : allocTally t.regs = allocTally s.regs := by
  have hused : tallyUsed t.regs = tallyUsed s.regs := by
    have hdb : ∀ d, t.regs.bit (F.TAL_DB_SRC_EN d) = s.regs.bit (F.TAL_DB_SRC_EN d) := fun d =>
      h.bit (by simp only [F.TAL_DB_SRC_EN]; omega)
    simp only [tallyUsed, hdb, h.averaging]
  rw [Machine.allocTally, Machine.allocTally, hused, h.fld (f := F.TAL_RING_BASE_PAGE) (by decide),
    h.fld (f := F.TAL_RING_SIZE_PAGES) (by decide)]

theorem ReadsAs.protected_ (dst len : Nat) : t.protected_ dst len = s.protected_ dst len := by
  have hmaps : ∀ g ∈ Machine.usedGrps s.regs, ((256 * t.get (F.REC_GRP_PMAP_ADDR g) != 0 &&
      decide (dst < 256 * t.get (F.REC_GRP_PMAP_ADDR g) + 4 * Machine.ringPages t.regs g) &&
      decide (256 * t.get (F.REC_GRP_PMAP_ADDR g) < dst + len)) : Bool) = (256 * s.get (F.REC_GRP_PMAP_ADDR g) != 0 &&
      decide (dst < 256 * s.get (F.REC_GRP_PMAP_ADDR g) + 4 * Machine.ringPages s.regs g) &&
      decide (256 * s.get (F.REC_GRP_PMAP_ADDR g) < dst + len)) := by
    intro g hg
    have haddr : t.get (F.REC_GRP_PMAP_ADDR g) = s.get (F.REC_GRP_PMAP_ADDR g) := h.fld (by simp only [F.REC_GRP_PMAP_ADDR]; omega)
    rw [haddr, h.ringPages g (used_lt hg)]
  simp only [State.protected_, h.allocGrps, h.allocAvg, h.allocTally, h.usedGrps]
  rw [any_congr_mem hmaps]

theorem ReadsAs.hdrField (pages : List Nat) (off n : Nat) : t.hdrField pages off n = s.hdrField pages off n := by
  rw [State.hdrField, State.hdrField, State.sreads, State.sreads, h.store]

theorem ReadsAs.imgFmt (pages : List Nat) (span : Option (Nat × Nat)) (n : Nat) : t.imgFmt pages span n = s.imgFmt pages span n := by
  simp only [State.imgFmt, h.hdrField]

theorem ReadsAs.pagesStaged (pages : List Nat) : t.pagesStaged pages = s.pagesStaged pages := by
  rw [State.pagesStaged, State.pagesStaged, h.fill, h.drain]

/-- A queue's current record is the same while it holds the same. -/
theorem ReadsAs.currentRec {q : Nat} (hrecd : (t.hostq q).recd = (s.hostq q).recd) (hpend : (t.hostq q).pend = (s.hostq q).pend) :
    t.currentRec q = s.currentRec q := by
  have hgroup : t.get (F.DMA_QC_CTRL_GROUP q) = s.get (F.DMA_QC_CTRL_GROUP q) := h.fld (by simp only [F.DMA_QC_CTRL_GROUP]; omega)
  have hmeas : t.flag (F.DMA_QC_CTRL_MEAS q) = s.flag (F.DMA_QC_CTRL_MEAS q) := h.bit (by simp only [F.DMA_QC_CTRL_MEAS]; omega)
  simp only [State.currentRec, hrecd, hpend, hgroup, hmeas, h.grp, h.physPage, h.pagesStaged, h.imgFmt]

end

/-! ### The queue whose burst moves (R206) -/

theorem Tab.mem_of_get {α : Type} {d v : α} {t : Tab α} {k : Nat} (h : Tab.get d t k = v) (hv : v ≠ d) : (k, v) ∈ t := by
  induction t with
  | nil => exact absurd h.symm hv
  | cons p rest ih =>
    rw [Tab.get] at h
    split at h
    · next hp => exact List.mem_cons.mpr (.inl (by rw [← hp, ← h]))
    · exact List.mem_cons_of_mem _ (ih h)

section
variable {s : State} {q : Nat}

theorem State.work_eq {op : Nat} {w : Desc × Option Nat} (h : s.work q op = some w) : (s.hostq q).cur = some w ∧
    s.get (F.DMA_QC_STATUS_STATE q) = 1 ∧ w.1.op = op ∧ w.1.bad = false := by
  unfold State.work at h
  split at h
  · next c hc =>
    split at h
    · next hw => exact ⟨hc.trans h, by cases h; exact hw⟩
    · cases h
  · cases h

theorem State.mem_hostqs {c : Desc × Option Nat} (h : (s.hostq q).cur = some c) : (q, s.hostq q) ∈ s.hostqs :=
  Tab.mem_of_get rfl (fun he => by rw [he] at h; cases h)

theorem State.dmaFuel_pos {c : Desc × Option Nat} (h : (s.hostq q).cur = some c) : s.dmaFuel ≠ 0 := by
  have hle := List.le_sum_of_mem (List.mem_map_of_mem (f := fun p : Nat × HostQ => match p.2.cur with
    | some c => c.1.len / 64 + 2
    | none => 0) (State.mem_hostqs h))
  dsimp only at hle
  rw [h] at hle
  exact Nat.ne_of_gt (Nat.lt_of_lt_of_le (Nat.succ_pos _) hle)

theorem State.plan_idle (h : (s.hostq q).cur = none) : s.plan q = .wait := by rw [State.plan, h]

theorem State.hasBurst_iff : s.hasBurst q = true ↔ ∃ n, s.plan q = .burst n := by
  unfold State.hasBurst
  split
  · next n h => exact iff_of_true rfl ⟨n, h⟩
  · next h => exact iff_of_false Bool.false_ne_true (fun ⟨n, hn⟩ => h n hn)

theorem State.hasBurst_idle (h : (s.hostq q).cur = none) : s.hasBurst q = false := by rw [State.hasBurst, s.plan_idle h]

/-- The queue that the engine picks has a burst to move, and is not one of those without a grant. -/
theorem State.dmaPick_some {no : List Nat} {p : Nat} (h : s.dmaPick no = some p) : s.hasBurst p = true ∧ no.contains p = false := by
  have hc : p ∈ (s.hostqs.map (fun p => p.1)).filter (fun q => !no.contains q && s.hasBurst q) := by
    unfold State.dmaPick at h
    dsimp only at h
    split at h
    · next hturn =>
      cases h
      exact (List.mem_filter.mp (List.contains_iff_mem.mp hturn.1)).1
    · generalize hfind : List.find? _ _ = found at h
      cases found with
      | none => exact (List.mem_filter.mp (List.mem_of_head? h)).1
      | some x =>
        cases h
        exact (List.mem_filter.mp (List.mem_of_find?_eq_some hfind)).1
  have := (List.mem_filter.mp hc).2
  simp only [Bool.and_eq_true, Bool.not_eq_true'] at this
  exact ⟨this.2, this.1⟩

/-- Only a queue with a descriptor at work is picked. -/
theorem State.dmaPick_only {no : List Nat} {p : Nat} (hidle : ∀ k, k ≠ q → (s.hostq k).cur = none) (h : s.dmaPick no = some p) : p = q := by
  by_contra hp
  have := (s.dmaPick_some h).1
  rw [State.hasBurst_idle (hidle p hp)] at this
  cases this

theorem foldl_min_const {f : Nat → Nat} {v a : Nat} {l : List Nat} (hl : l ≠ []) (h : ∀ x ∈ l, f x = v) :
    l.foldl (fun m x => min m (f x)) a = min a v := by
  induction l generalizing a with
  | nil => exact absurd rfl hl
  | cons x xs ih =>
    rw [List.foldl_cons, h x (by simp)]
    cases xs with
    | nil => rfl
    | cons y ys =>
      rw [ih (List.cons_ne_nil y ys) (fun z hz => h z (List.mem_cons_of_mem x hz))]
      omega

/-- The one queue with a descriptor at work is picked when it has a burst. -/
theorem State.dmaPick_sole (hidle : ∀ k, k ≠ q → (s.hostq k).cur = none) (hb : s.hasBurst q = true) : s.dmaPick [] = some q := by
  have hkey : q ∈ s.hostqs.map (fun p => p.1) := by
    cases hc : (s.hostq q).cur with
    | none => rw [State.hasBurst_idle hc] at hb; cases hb
    | some c => exact List.mem_map_of_mem (f := fun p : Nat × HostQ => p.1) (State.mem_hostqs hc)
  have hsome : (s.dmaPick []).isSome = true := by
    have hc : ∀ x ∈ (s.hostqs.map (fun p => p.1)).filter (fun q => !([] : List Nat).contains q && s.hasBurst q), x = q := by
      intro x hx
      by_contra hne
      have := (List.mem_filter.mp hx).2
      rw [State.hasBurst_idle (hidle x hne)] at this
      simp at this
    have hq : q ∈ (s.hostqs.map (fun p => p.1)).filter (fun q => !([] : List Nat).contains q && s.hasBurst q) :=
      List.mem_filter.mpr ⟨hkey, by simp [hb]⟩
    have hprio : s.get (F.DMA_QC_CTRL_PRIO q) < 2 ^ 3 := s.regs.fld_lt (F.DMA_QC_CTRL_PRIO q)
    unfold State.dmaPick
    dsimp only
    generalize (s.hostqs.map (fun p => p.1)).filter (fun q => !([] : List Nat).contains q && s.hasBurst q) = c at *
    rw [foldl_min_const (v := s.get (F.DMA_QC_CTRL_PRIO q)) (List.ne_nil_of_mem hq) (fun x hx => by rw [hc x hx]), min_eq_right (by omega)]
    have hcl : q ∈ c.filter (fun k => s.get (F.DMA_QC_CTRL_PRIO k) == s.get (F.DMA_QC_CTRL_PRIO q)) := List.mem_filter.mpr ⟨hq, by simp⟩
    generalize c.filter (fun k => s.get (F.DMA_QC_CTRL_PRIO k) == s.get (F.DMA_QC_CTRL_PRIO q)) = cl at *
    split
    · rfl
    · generalize List.find? _ cl = found
      cases found with
      | none => exact List.isSome_head?.mpr (List.ne_nil_of_mem hcl)
      | some x => rfl
  obtain ⟨p, hp⟩ := Option.isSome_iff_exists.mp hsome
  rw [hp, State.dmaPick_only hidle hp]

/-! ### A burst and what follows (R206) -/

/-- The queue has its grant and its turn. -/
def State.turned (s : State) (q : Nat) : State := (s.ask 1 q (s.burstCost q)).2.turnTo q

theorem State.dmaRun_over (no : List Nat) (n : Nat) (h : s.hasBurst q = false) : s.dmaRun q no n = s := by
  cases n with
  | zero => rfl
  | succ n => exact if_pos (.inl h)

theorem State.dmaRun_refused {n : Nat} (h : s.dmaPick [] = some q) (hask : (s.ask 1 q (s.burstCost q)).1 = false) (hn : n ≠ 0) :
    s.dmaRun q [] n = (s.ask 1 q (s.burstCost q)).2 := by
  obtain ⟨m, rfl⟩ := Nat.exists_eq_succ_of_ne_zero hn
  rw [State.dmaRun, if_neg (by simp [(s.dmaPick_some h).1])]
  simp only [h, hask]
  cases m with
  | zero => rfl
  | succ m =>
    unfold State.dmaRun
    exact if_pos (Or.inr (by simp))

theorem State.dmaRun_granted {n : Nat} (h : s.dmaPick [] = some q) (hask : (s.ask 1 q (s.burstCost q)).1 = true) (hn : n ≠ 0) :
    ∃ m, s.dmaRun q [] n = ((s.turned q).moveBurst q).dmaRun q [] m := by
  obtain ⟨m, rfl⟩ := Nat.exists_eq_succ_of_ne_zero hn
  refine ⟨m, ?_⟩
  rw [State.dmaRun, if_neg (by simp [(s.dmaPick_some h).1])]
  simp only [h, hask]
  rfl

/-- What holds before each burst of the only queue with a descriptor at work holds after them. -/
theorem State.dmaRun_keeps (P : State → Prop) (hidle : ∀ t, P t → ∀ k, k ≠ q → (t.hostq k).cur = none)
    (hask : ∀ t, P t → P (t.ask 1 q (t.burstCost q)).2) (hmove : ∀ t, P t → P ((t.turned q).moveBurst q)) {t : State} (h : P t)
    (no : List Nat) (n : Nat) : P (t.dmaRun q no n) := by
  induction n generalizing t no with
  | zero => exact h
  | succ n ih =>
    unfold State.dmaRun
    split
    · exact h
    · split
      · exact h
      · next p hp =>
        rw [State.dmaPick_only (hidle t h) hp]
        dsimp only
        split
        · exact ih (hmove t h) no
        · exact ih (hask t h) (q :: no)

/-- What a grant leaves, and the turn of the queue that has it. -/
structure Turned (q : Nat) (s t : State) : Prop where
  reads : ReadsAs s t
  hostq : t.hostq q = { s.hostq q with deficit := (t.hostq q).deficit }
  other : ∀ k, k ≠ q → t.hostq k = s.hostq k
  frame : t = { s with regs := t.regs, sto := t.sto, hostqs := t.hostqs, dmaTurn := t.dmaTurn }

theorem State.ask_turned (s : State) (q n : Nat) : Turned q s (s.ask 1 q n).2 where
  reads := ⟨rfl, rfl, rfl, rfl, rfl, rfl, rfl, rfl, fun off ho => (s.ask_askShare 1 q n).word off ho⟩
  hostq := rfl
  other _ _ := rfl
  frame := rfl

theorem State.turnTo_turned (s : State) (q : Nat) : Turned q s (s.turnTo q) where
  reads := ⟨rfl, rfl, rfl, rfl, rfl, rfl, rfl, rfl, fun _ _ => rfl⟩
  hostq := by
    rw [State.turnTo]
    exact (State.setHostq_hostq_same _ _ _).trans (by rw [State.setHostq_hostq_same])
  other k hk := (State.setHostq_hostq_other _ _ _ _ hk).trans rfl
  frame := rfl

theorem Turned.trans {t u : State} (h : Turned q s t) (k : Turned q t u) : Turned q s u where
  reads := h.reads.trans k.reads
  hostq := by
    rw [k.hostq, h.hostq]
  other j hj := (k.other j hj).trans (h.other j hj)
  frame := by
    rw [k.frame, h.frame]

theorem State.turned_turned (s : State) (q : Nat) : Turned q s (s.turned q) := (s.ask_turned q _).trans (State.turnTo_turned _ q)

end

end Sys2Proof.Machine
end

section
/-! SUPPORT. Descriptors that a queue fetches, and its NOP, READ and COPY (R206, R208, R209, R215-R217). -/

namespace Sys2Proof.Machine

open Sys2Proof.Safety

section
variable {s : State} {q : Nat}

/-! ### The end of a burst -/

theorem Comp.relOk_true (c : Comp) : c.relOk True := fun _ _ => .inl trivial

/-- A burst's end changes no other queue, no byte of the store, and keeps its descriptor at work or puts it away. -/
theorem State.burstDone_kept (hq : q < 1024) (s : State) (n : Nat) (bad last : Bool) (c : Comp) :
    (∀ k, k ≠ q → ((s.burstDone q n bad last c).hostq k) = s.hostq k) ∧
    (((s.burstDone q n bad last c).hostq q).cur = none ∨ ((s.burstDone q n bad last c).hostq q).cur = (s.hostq q).cur) := by
  unfold State.burstDone
  dsimp only
  split
  · refine ⟨fun k hk => (State.doneQ_queueOnly (any := True) s hq (Comp.relOk_true _) fun x _ => x.relOk_true).other k hk, .inl ?_⟩
    exact State.doneQ_idle s hq _
  · refine ⟨fun k hk => State.setHostq_hostq_other _ _ _ _ hk, .inr ?_⟩
    rw [State.setHostq_hostq_same]

theorem State.moved_frame (s : State) (q n : Nat) (bad : Bool) : s.moved q n bad = { s with regs := (s.moved q n bad).regs } := by
  unfold State.moved
  dsimp only
  split <;> rfl

theorem State.hostq_moved (s : State) (q n : Nat) (bad : Bool) (k : Nat) : (s.moved q n bad).hostq k = s.hostq k :=
  hostq_of_hostqs ((congrArg State.hostqs (s.moved_frame q n bad)).trans rfl) k

theorem State.hostq_swrites (s : State) (a : Nat) (bs : List Byte) (k : Nat) : (s.swrites a bs).hostq k = s.hostq k :=
  hostq_of_hostqs ((congrArg State.hostqs (s.swrites_writeShare a bs).frame).trans rfl) k

/-! ### A COPY (R215) -/

/-- A COPY goes on: its queue alone has a descriptor at work, and no byte beside its destination has changed. -/
structure CopyGoing (q : Nat) (d : Desc) (l : Option Nat) (s t : State) : Prop where
  wf : Mem.wf 0 t.store = true
  idle : ∀ k, k ≠ q → (t.hostq k).cur = none
  cur : (t.hostq q).cur = none ∨ (t.hostq q).cur = some (d, l)
  kept : ∀ a, a < d.dst ∨ d.dst + d.len ≤ a → t.sread a = s.sread a

/-- A burst of a COPY stays within its destination. -/
theorem State.copyPlan_within {d : Desc} {p n : Nat} (h : s.copyPlan d p = .burst n) :
    if d.ctl / 8 % 4 = 0 then n = (copyBurst d p).2 ∧ ((copyBurst d p).1 + n ≤ d.len ∨ n = 0) else p + n ≤ d.len ∨ n = 0 := by
  simp only [State.copyPlan] at h
  by_cases hf : d.ctl / 8 % 4 = 0
  · rw [if_pos hf]
    simp only [hf, if_true] at h
    split_ifs at h
    injection h with h
    refine ⟨h.symm, ?_⟩
    rw [← h]
    unfold copyBurst
    dsimp only
    split
    · left; omega
    · dsimp only
      omega
  · rw [if_neg hf]
    simp only [hf, if_false] at h
    split_ifs at h
    injection h with h
    omega

theorem State.plan_copy {d : Desc} {l : Option Nat} {n : Nat} (hc : (s.hostq q).cur = some (d, l)) (hop : d.op = 2) (h : s.plan q = .burst n) :
    s.copyPlan d (s.hostq q).pos = .burst n := by
  simp only [State.plan, hc, hop] at h
  split at h
  · cases h
  · exact h

/-- The bytes of a burst are put where the COPY's destination is. -/
theorem State.moveCopy_eq (s : State) (q : Nat) (d : Desc) (l : Option Nat) {n : Nat}
    (h : if d.ctl / 8 % 4 = 0 then n = (copyBurst d (s.hostq q).pos).2 ∧ ((copyBurst d (s.hostq q).pos).1 + n ≤ d.len ∨ n = 0)
      else (s.hostq q).pos + n ≤ d.len ∨ n = 0) :
    ∃ a bs bad last c, s.moveCopy q d l n = ((s.swrites a bs).moved q n bad).burstDone q n bad last c ∧
      (∀ b, b < d.dst ∨ d.dst + d.len ≤ b → b < a ∨ a + bs.length ≤ b) := by
  unfold State.moveCopy
  dsimp only
  split at h
  · next hf =>
    refine ⟨_, _, _, _, _, if_pos hf, fun b hb => ?_⟩
    have hlen : (s.readBytes (d.src + (copyBurst d (s.hostq q).pos).1) n).1.length = n := by simp [State.readBytes]
    rw [hlen]
    omega
  · next hf =>
    refine ⟨_, _, _, _, _, if_neg hf, fun b hb => ?_⟩
    rw [Tests.leBytes_length]
    omega

theorem CopyGoing.moved {d : Desc} {l : Option Nat} {t : State} (hq : q < 1024) (hop : d.op = 2) (h : CopyGoing q d l s t) :
    CopyGoing q d l s (t.moveBurst q) := by
  unfold State.moveBurst
  split
  · next n d' l' hplan hc =>
    have hd : (d', l') = (d, l) := by
      obtain hn | hs := h.cur
      · rw [hn] at hc; cases hc
      · exact Option.some.inj (hc.symm.trans hs)
    cases hd
    rw [if_neg (by omega), if_pos hop]
    obtain ⟨a, bs, bad, last, c, hmove, hin⟩ := t.moveCopy_eq q d l (State.copyPlan_within (State.plan_copy hc hop hplan))
    rw [hmove]
    have hwf := t.swrites_store_wf a bs h.wf
    have hother := fun b => t.sread_swrites_other (a := a) (b := b) (bs := bs) h.wf
    have hhost := fun k => (State.hostq_moved (t.swrites a bs) q n bad k).trans (t.hostq_swrites a bs k)
    have hstore := ((t.swrites a bs).moved_mem q n bad).2.1
    obtain ⟨hk, hcur⟩ := State.burstDone_kept hq ((t.swrites a bs).moved q n bad) n bad last c
    have hmem := (State.burstDone_mem ((t.swrites a bs).moved q n bad) q n bad last c).2.1.trans hstore
    generalize ((t.swrites a bs).moved q n bad).burstDone q n bad last c = u at *
    refine ⟨hmem ▸ hwf, fun k hne => ?_, ?_, fun b hb => ?_⟩
    · rw [hk k hne, hhost k]
      exact h.idle k hne
    · rw [hhost q, hc] at hcur
      exact hcur
    · refine Eq.trans ?_ ((hother b (hin b hb)).trans (h.kept b hb))
      rw [State.sread, State.sread, hmem]
  · exact h

theorem CopyGoing.turned {d : Desc} {l : Option Nat} {t u : State} (h : CopyGoing q d l s t) (k : Turned q t u) : CopyGoing q d l s u := by
  refine ⟨k.reads.store ▸ h.wf, fun j hj => ?_, ?_, fun a ha => (k.reads.sread a).trans (h.kept a ha)⟩
  · rw [k.other j hj]
    exact h.idle j hj
  · rw [k.hostq]
    exact h.cur

/-- A COPY changes no byte beside its destination. -/
theorem State.runDesc_copy (hq : q < 1024) {d : Desc} {l : Option Nat} (hw : s.work q 2 = some (d, l))
    (hidle : ∀ k, k ≠ q → (s.hostq k).cur = none) (hwf : Mem.wf 0 s.store = true) (a : Nat) (ha : a < d.dst ∨ d.dst + d.len ≤ a) :
    (s.runDesc q 2).sread a = s.sread a := by
  obtain ⟨hcur, -, hop, -⟩ := State.work_eq hw
  unfold State.runDesc
  simp only [hw]
  split
  · rfl
  · rw [State.sread, (State.doneQ_mem _ _ _).2.1]
    rfl
  · refine (State.dmaRun_keeps (CopyGoing q d l s) (fun t h => h.idle) (fun t h => h.turned (t.ask_turned q _))
      (fun t h => (h.turned (t.turned_turned q)).moved hq hop) ⟨hwf, hidle, .inr hcur, fun _ _ => rfl⟩ [] _).kept a ha

/-! ### A descriptor that one burst serves -/

theorem State.runDesc_bursts {op n : Nat} {w : Desc × Option Nat} (hw : s.work q op = some w) (hplan : s.plan q = .burst n) :
    s.runDesc q op = s.dmaRun q [] s.dmaFuel := by
  simp only [State.runDesc, hw, hplan]

theorem State.runDesc_one {op n : Nat} {w : Desc × Option Nat} (hw : s.work q op = some w) (hplan : s.plan q = .burst n)
    (hpick : s.dmaPick [] = some q) (hask : (s.ask 1 q (s.burstCost q)).1 = true) (hend : (((s.turned q).moveBurst q).hostq q).cur = none) :
    s.runDesc q op = (s.turned q).moveBurst q := by
  obtain ⟨m, hm⟩ := State.dmaRun_granted hpick hask (State.dmaFuel_pos (State.work_eq hw).1)
  rw [State.runDesc_bursts hw hplan, hm, State.dmaRun_over _ _ (State.hasBurst_idle hend)]

/-- Without a grant the burst waits. -/
theorem State.runDesc_refused {op : Nat} (hw : s.work q op ≠ none) (hpick : s.dmaPick [] = some q) (hask : (s.ask 1 q (s.burstCost q)).1 = false) :
    s.runDesc q op = (s.ask 1 q (s.burstCost q)).2 := by
  obtain ⟨w, hw⟩ := Option.ne_none_iff_exists'.mp hw
  obtain ⟨n, hplan⟩ := State.hasBurst_iff.mp (State.dmaPick_some hpick).1
  rw [State.runDesc_bursts hw hplan, State.dmaRun_refused hpick hask (State.dmaFuel_pos (State.work_eq hw).1)]

theorem State.burstCost_eq {n : Nat} {d : Desc} {l : Option Nat} (hplan : s.plan q = .burst n) (hcur : (s.hostq q).cur = some (d, l)) :
    s.burstCost q = if d.op = 2 then 2 * n else n := by
  simp only [State.burstCost, hplan, hcur]

theorem State.plan_eq {d : Desc} {l : Option Nat} (hcur : (s.hostq q).cur = some (d, l)) (hst : s.get (F.DMA_QC_STATUS_STATE q) = 1)
    (hbad : d.bad = false) : s.plan q = match d.op with
      | 0 => .done 0 none
      | 1 => if s.capBytes < d.src + d.len then .done 6 none else .burst (readBurst d (s.hostq q).pos)
      | 2 => s.copyPlan d (s.hostq q).pos
      | 3 => s.recPlan q d (s.hostq q).pos
      | _ => .wait := by
  simp only [State.plan, hcur]
  exact if_neg (by simp [hst, hbad])

/-- A grant and its turn leave the descriptor at work as it is. -/
theorem Turned.at_work {d : Desc} {l : Option Nat} {u : State} (h : Turned q s u) (hcur : (s.hostq q).cur = some (d, l))
    (hst : s.get (F.DMA_QC_STATUS_STATE q) = 1) :
    (u.hostq q).cur = some (d, l) ∧ (u.hostq q).pos = (s.hostq q).pos ∧ u.get (F.DMA_QC_STATUS_STATE q) = 1 ∧
      (u.hostq q).pend = (s.hostq q).pend ∧ (u.hostq q).bad = (s.hostq q).bad ∧ (u.hostq q).recd = (s.hostq q).recd := by
  refine ⟨?_, ?_, (h.reads.fld (by simp only [F.DMA_QC_STATUS_STATE]; omega)).trans hst, ?_, ?_, ?_⟩
  · rw [h.hostq]
    exact hcur
  all_goals rw [h.hostq]

/-! ### A plain COPY in one burst -/

theorem State.dead_swrite (s : State) (a : Nat) (v : Byte) (b : Nat) : (s.swrite a v).dead b = s.dead b := by
  have hfenced : (s.swrite a v).sto.fenced = s.sto.fenced := by
    unfold State.swrite
    split
    · rfl
    · dsimp only
      split <;> rfl
  unfold State.dead State.pcOf State.activePcs
  rw [s.swrite_failed, hfenced]

/-- The bytes written are the bytes read, where the stack works. -/
theorem State.sread_swrites_live {s : State} {a : Nat} {bs : List Byte} (hw : Mem.wf 0 s.store = true) {i : Nat} {x : Byte}
    (hx : bs[i]? = some x) (hd : s.dead (a + i) = false) : (s.swrites a bs).sread (a + i) = x := by
  induction bs generalizing s a i with
  | nil => cases hx
  | cons v vs ih =>
    have hw1 := s.swrite_store_wf a v hw
    cases i with
    | zero =>
      obtain rfl : v = x := Option.some.inj hx
      refine ((s.swrite a v).sread_swrites_other hw1 (.inl (Nat.lt_succ_self a))).trans ?_
      rw [s.sread_swrite hw, if_pos ⟨rfl, hd⟩]
    | succ k =>
      have hk : a + (k + 1) = a + 1 + k := by omega
      rw [hk] at hd ⊢
      exact ih hw1 hx ((s.dead_swrite a v _).trans hd)

/-- A plain COPY within the store and clear of what is protected moves. -/
theorem State.copyPlan_plain {d : Desc} (hfmt : d.ctl / 8 % 4 = 0) (how : d.ctl / 32 % 4 = 0) (hsrc : d.src + d.len ≤ s.capBytes)
    (hdst : d.dst + d.len ≤ s.capBytes) (hprot : s.protected_ d.dst d.len = false) (p : Nat) :
    s.copyPlan d p = .burst (copyBurst d p).2 := by
  have hwidth : ∀ b, outWidth 0 0 b = some b := fun b => by simp [outWidth]
  simp only [State.copyPlan, hfmt, how, hwidth, hprot]
  simp only [reduceCtorEq, ne_eq, not_true_eq_false, false_and, if_false, if_true, Bool.false_eq_true, or_false]
  exact if_neg (by omega)

/-- The count of the bytes that a queue has moved. -/
theorem State.moved_bytes (s : State) (n : Nat) (bad : Bool) :
    (s.moved q n bad).getN (R.DMA_QC_BYTES q) 2 = (s.getN (R.DMA_QC_BYTES q) 2 + n) % 2 ^ 64 := by
  have hput : (s.putN (R.DMA_QC_BYTES q) 2 ((s.getN (R.DMA_QC_BYTES q) 2 + n) % 2 ^ 64)).getN (R.DMA_QC_BYTES q) 2 =
      (s.getN (R.DMA_QC_BYTES q) 2 + n) % 2 ^ 64 := (State.getN_putN_mod _ _ _ rfl).trans (Nat.mod_mod _ _)
  unfold State.moved
  dsimp only
  generalize s.putN (R.DMA_QC_BYTES q) 2 ((s.getN (R.DMA_QC_BYTES q) 2 + n) % 2 ^ 64) = u at *
  split
  · refine Eq.trans ?_ hput
    refine (State.getN_put_beside _ (.of rfl ?_)).trans (State.getN_put_beside _ (.of rfl ?_))
    · simp only [R.DMA_QC_BYTES]
      omega
    · simp only [R.DMA_QC_BYTES]
      omega
  · exact hput

theorem QueueOnly.bytes {t : State} (hq : q < 1024) (h : QueueOnly q False s t) : t.getN (R.DMA_QC_BYTES q) 2 = s.getN (R.DMA_QC_BYTES q) 2 :=
  h.share.wide (fun j h1 h2 hr => by
    simp only [queueShare, false_or] at hr
    simp only [R.DMA_QC_BYTES] at h1 h2
    omega)

/-- What a plain COPY in one burst leaves. -/
theorem State.runDesc_plainCopy (hq : q < 1024) {d : Desc} {l : Option Nat} (hw : s.work q 2 = some (d, l))
    (hidle : ∀ k, k ≠ q → (s.hostq k).cur = none) (hwf : Mem.wf 0 s.store = true) (hfmt : d.ctl / 8 % 4 = 0) (how : d.ctl / 32 % 4 = 0)
    (hsrc : d.src + d.len ≤ s.capBytes) (hdst : d.dst + d.len ≤ s.capBytes) (hprot : s.protected_ d.dst d.len = false)
    (hpend : (s.hostq q).pend = []) (hpos : (s.hostq q).pos = 0) (hone : copyBurst d 0 = (0, d.len))
    (hask : (s.ask 1 q (2 * d.len)).1 = true) :
    (∀ i x, (s.readBytes d.src d.len).1[i]? = some x → s.dead (d.dst + i) = false → (s.runDesc q 2).sread (d.dst + i) = x) ∧
    (s.runDesc q 2).getN (R.DMA_QC_BYTES q) 2 = (s.getN (R.DMA_QC_BYTES q) 2 + d.len) % 2 ^ 64 := by
  obtain ⟨hcur, hst, hop, hbad⟩ := State.work_eq hw
  replace hop : d.op = 2 := hop
  have hplan : s.plan q = .burst d.len := by
    rw [State.plan_eq hcur hst hbad, hop, hpos]
    exact (State.copyPlan_plain hfmt how hsrc hdst hprot 0).trans (congrArg (fun x : Nat × Nat => Plan.burst x.2) hone)
  have hturn := s.turned_turned q
  have hone' : (s.turned q).moveBurst q = (((s.turned q).swrites d.dst (s.readBytes d.src d.len).1).moved q d.len
      (s.readBytes d.src d.len).2).burstDone q d.len (s.readBytes d.src d.len).2 true ((s.turned q).compOf q d l 0) := by
    obtain ⟨hcur', hpos', hst', -, -, -⟩ := hturn.at_work hcur hst
    have hreads := hturn.reads
    generalize s.turned q = u at *
    have hplan' : u.plan q = .burst d.len := by
      rw [State.plan_eq hcur' hst' hbad, hop, hpos', hpos]
      refine (State.copyPlan_plain hfmt how ?_ ?_ ?_ 0).trans (congrArg (fun x : Nat × Nat => Plan.burst x.2) hone)
      · rw [hreads.capBytes]
        exact hsrc
      · rw [hreads.capBytes]
        exact hdst
      · rw [hreads.protected_]
        exact hprot
    simp only [State.moveBurst, hplan', hcur']
    rw [if_neg (by omega), if_pos hop, State.moveCopy]
    dsimp only
    rw [if_pos hfmt, hpos', hpos, hone, hreads.readBytes]
    simp only [Nat.add_zero, Nat.zero_add, Nat.le_refl, decide_true]
  have hend : (((s.turned q).moveBurst q).hostq q).cur = none := by
    rw [hone']
    exact State.doneQ_idle _ hq _
  have hpick : s.dmaPick [] = some q := State.dmaPick_sole hidle (State.hasBurst_iff.mpr ⟨_, hplan⟩)
  have hask' : (s.ask 1 q (s.burstCost q)).1 = true := by
    rw [State.burstCost_eq hplan hcur, if_pos hop]
    exact hask
  rw [State.runDesc_one hw hplan hpick hask' hend, hone']
  have hwf' : Mem.wf 0 (s.turned q).store = true := hturn.reads.store ▸ hwf
  have hpend' := (hturn.at_work hcur hst).2.2.2.1
  have hbytes : (s.turned q).getN (R.DMA_QC_BYTES q) 2 = s.getN (R.DMA_QC_BYTES q) 2 :=
    RegTab.wide_congr 2 _ (fun j h1 h2 => hturn.reads.word j (by simp only [R.DMA_QC_BYTES] at h1 h2; omega))
  have hdead := hturn.reads.dead
  generalize s.turned q = u at *
  generalize s.readBytes d.src d.len = r at *
  have hlive := fun i x hx hd => State.sread_swrites_live (s := u) (a := d.dst) (bs := r.1) (i := i) (x := x) hwf' hx hd
  have hwrite := (u.swrites_writeShare d.dst r.1).frame
  have hwhost := u.hostq_swrites d.dst r.1 q
  generalize u.swrites d.dst r.1 = v at *
  have hvbytes : v.getN (R.DMA_QC_BYTES q) 2 = u.getN (R.DMA_QC_BYTES q) 2 :=
    congrArg (fun x : RegTab => x.wide (R.DMA_QC_BYTES q) 2) ((congrArg State.regs hwrite).trans rfl)
  have hmoved := v.moved_bytes (q := q) d.len r.2
  have hmem := (v.moved_mem q d.len r.2).2.1
  have hmhost := v.hostq_moved q d.len r.2 q
  generalize v.moved q d.len r.2 = w at *
  have hnone : ∀ c ∈ (w.hostq q).pend, c.relOk False := by
    rw [hmhost, hwhost, hpend', hpend]
    exact fun c hc => absurd hc List.not_mem_nil
  refine ⟨fun i x hx hd => ?_, ?_⟩
  · refine Eq.trans ?_ (hlive i x hx ((hdead _).trans hd))
    rw [State.sread, State.sread, (State.burstDone_mem _ _ _ _ _ _).2.1, hmem]
  · have hdone := QueueOnly.bytes hq (State.doneQ_queueOnly (any := False) w hq (c := { u.compOf q d l 0 with
      flags := (u.compOf q d l 0).flags + (if (w.hostq q).bad || r.2 then 4 else 0), bytes := (w.hostq q).pos + d.len })
      (Comp.relOk_of_none rfl) hnone)
    rw [← hbytes, ← hvbytes, ← hmoved]
    exact hdone

/-! ### A completion that waits for its read-back (R216) -/

theorem State.locusQ_congr {t : State} (h : t.regs.word 0x0000004 = s.regs.word 0x0000004) : t.locusQ q = s.locusQ q := by
  rw [State.locusQ, State.locusQ, State.locus, State.locus, State.get, State.get, RegTab.fld_congr (f := F.GLOBAL_STATE_NODE) h]

/-- What the end of a descriptor leaves whose completion waits. -/
theorem State.doneQ_waits {c : Comp} (hpend : (s.hostq q).pend = []) (hw : c.wait = true) :
    ((s.doneQ q c).hostq q).pend.head? = some c ∧ ∀ o ∈ s.out, o ∈ (s.doneQ q c).out := by
  have hjoin := s.joined_joined q c
  have hjpend : ((s.joined q c).hostq q).pend = [c] := by
    rw [hjoin.hostq]
    exact congrArg (· ++ [c]) hpend
  have hfin : s.finishQ q c = s.joined q c := by
    rw [s.finishQ_eq q c]
    exact State.drainQ_wait _ _ hjpend hw
  have hout : (s.joined q c).out = s.out := (congrArg State.out hjoin.frame).trans rfl
  unfold State.doneQ
  dsimp only
  rw [hfin]
  generalize s.joined q c = j at *
  split
  · unfold State.nextDesc
    split
    · generalize j.compAt q c.d.next 2 = e
      have hlast := j.joined_joined q e
      have hlpend : ((j.joined q e).hostq q).pend = [c, e] := by
        rw [hlast.hostq]
        exact congrArg (· ++ [e]) hjpend
      rw [j.finishQ_eq q e, State.drainQ_wait _ _ hlpend hw, hlpend]
      refine ⟨rfl, fun o ho => ?_⟩
      rw [(congrArg State.out hlast.frame).trans rfl, hout]
      exact ho
    · have hfetch := j.issueFetch_fetching q c.d.next false
      rw [hfetch.hostq, hjpend, hfetch.out, hout]
      exact ⟨rfl, fun o ho => List.mem_cons_of_mem _ ho⟩
  · rw [hjpend, hout]
    exact ⟨rfl, fun o ho => ho⟩

/-! ### A READ in one burst (R208, R216) -/

/-- The bytes of a READ's only burst leave, and the last of them are read back. -/
def State.readSent (s : State) (q : Nat) (d : Desc) (r : List Byte × Bool) : State :=
  ((s.moved q d.len r.2).toHost d.dst r.1).readBack d d.len

/-- The completion of a READ's only burst. -/
def State.readComp (s : State) (q : Nat) (d : Desc) (l : Option Nat) (poison : Bool) : Comp :=
  { s.compOf q d l 0 with wait := true, flags := if poison then 4 else 0, bytes := d.len }

theorem State.readSent_effect {b : Bool} {d : Desc} {r : List Byte × Bool} (hlen : 0 < d.len) (hr : r.1 ≠ []) (hro : s.flag F.DMA_CTRL_RO_EN = b) :
    .hostWrite b d.dst r.1 ∈ (s.readSent q d r).out ∧ .hostRead (d.dst + d.len - 4) 4 ∈ (s.readSent q d r).out ∧
    (s.readSent q d r).getN (R.DMA_QC_BYTES q) 2 = (s.getN (R.DMA_QC_BYTES q) 2 + d.len) % 2 ^ 64 ∧
    (s.readSent q d r).hostqs = s.hostqs ∧ (s.readSent q d r).store = s.store ∧ (s.readSent q d r).flash = s.flash := by
  have hro' : (s.moved q d.len r.2).flag F.DMA_CTRL_RO_EN = b := by
    refine Eq.trans ?_ hro
    have hbeside : RegTab.Beside F.DMA_CTRL_RO_EN (R.DMA_QC_BYTES q) 2 := .of rfl (by simp only [R.DMA_QC_BYTES]; omega)
    have hq : (F.DMA_QC_STATUS_POISON q).Sep F.DMA_CTRL_RO_EN := .of rfl (by omega)
    have hall : F.DMA_STATUS_POISON_SEEN.Sep F.DMA_CTRL_RO_EN := .of rfl (by omega)
    unfold State.moved
    dsimp only
    split
    · simp [State.flag, hbeside, hq, hall]
    · simp [State.flag, hbeside]
  have hbytes := s.moved_bytes (q := q) d.len r.2
  have hframe := s.moved_frame q d.len r.2
  have heq : s.readSent q d r = ((s.moved q d.len r.2).emit (.hostWrite b d.dst r.1)).emit (.hostRead (d.dst + d.len - 4) 4) := by
    rw [State.readSent, State.toHost, if_neg hr, State.readBack, if_neg (by omega), hro']
  rw [heq]
  generalize s.moved q d.len r.2 = u at *
  refine ⟨List.mem_cons_of_mem _ List.mem_cons_self, List.mem_cons_self, hbytes, ?_, ?_, ?_⟩
  · exact (congrArg State.hostqs hframe).trans rfl
  · exact (congrArg State.store hframe).trans rfl
  · exact (congrArg State.flash hframe).trans rfl

theorem State.compOf_congr {t : State} {d : Desc} {l : Option Nat} {n : Nat} (hl : s.lcnt = t.lcnt) (hm : (s.hostq q).mark = (t.hostq q).mark) :
    s.compOf q d l n = t.compOf q d l n := by
  rw [State.compOf, State.compOf, hl, hm]

theorem State.burstDone_last (s : State) (q n : Nat) (bad : Bool) (c : Comp) : s.burstDone q n bad true c = s.doneQ q { c with
    flags := c.flags + (if (s.hostq q).bad || bad then 4 else 0), bytes := (s.hostq q).pos + n } := rfl

theorem State.runDesc_read (hq : q < 1024) {d : Desc} {l : Option Nat} (hw : s.work q 1 = some (d, l)) (hpend : (s.hostq q).pend = [])
    (hpos : (s.hostq q).pos = 0) (hnobad : (s.hostq q).bad = false) (hcap : d.src + d.len ≤ s.capBytes) (hlen : 0 < d.len)
    (hone : readBurst d 0 = d.len) (hpick : s.dmaPick [] = some q) (hask : (s.ask 1 q d.len).1 = true) :
    ∃ v, Turned q s v ∧ s.runDesc q 1 = (v.readSent q d (s.readBytes d.src d.len)).doneQ q
      ((v.readSent q d (s.readBytes d.src d.len)).readComp q d l (s.readBytes d.src d.len).2) := by
  obtain ⟨hcur, hst, hop, hbad⟩ := State.work_eq hw
  replace hop : d.op = 1 := hop
  have hplan : s.plan q = .burst d.len := by
    rw [State.plan_eq hcur hst hbad, hop, hpos]
    exact (if_neg (by omega)).trans (congrArg Plan.burst hone)
  have hturn := s.turned_turned q
  refine ⟨_, hturn, ?_⟩
  have hmove : (s.turned q).moveBurst q = ((s.turned q).readSent q d (s.readBytes d.src d.len)).doneQ q
      (((s.turned q).readSent q d (s.readBytes d.src d.len)).readComp q d l (s.readBytes d.src d.len).2) := by
    obtain ⟨hcur', hpos', hst', -, hbad', -⟩ := hturn.at_work hcur hst
    have hreads := hturn.reads
    generalize s.turned q = u at *
    have hplan' : u.plan q = .burst d.len := by
      rw [State.plan_eq hcur' hst' hbad, hop, hpos', hpos]
      exact (if_neg (by rw [hreads.capBytes]; omega)).trans (congrArg Plan.burst hone)
    simp only [State.moveBurst, hplan', hcur']
    rw [if_pos hop, State.moveRead]
    dsimp only
    rw [hpos', hpos, hone, Nat.add_zero, Nat.add_zero, Nat.zero_add, hreads.readBytes, if_pos (decide_eq_true (Nat.le_refl _))]
    have hbytes : (s.readBytes d.src d.len).1 ≠ [] := fun he => by
      have hlen' : (s.readBytes d.src d.len).1.length = d.len := by simp [State.readBytes]
      rw [he] at hlen'
      exact absurd hlen'.symm (Nat.ne_of_gt hlen)
    have hhost := hostq_of_hostqs (State.readSent_effect (s := u) (q := q) (d := d) (r := s.readBytes d.src d.len) hlen hbytes rfl).2.2.2.1 q
    have hdec : decide (d.len ≤ d.len) = true := decide_eq_true (Nat.le_refl _)
    generalize s.readBytes d.src d.len = r at *
    have hcomp : ((u.moved q d.len r.2).toHost d.dst r.1).compOf q d l 0 = (u.readSent q d r).compOf q d l 0 := by
      refine State.compOf_congr ?_ ?_
      · rw [State.readSent, State.readBack, if_neg (by omega)]
        rfl
      · rw [State.readSent, State.readBack, if_neg (by omega)]
        rfl
    rw [hdec, hcomp]
    change State.burstDone (u.readSent q d r) q d.len r.2 true _ = _
    rw [State.burstDone_last]
    have hpos2 : ((u.readSent q d r).hostq q).pos = 0 := (congrArg HostQ.pos hhost).trans (hpos'.trans hpos)
    have hbad2 : ((u.readSent q d r).hostq q).bad = false := (congrArg HostQ.bad hhost).trans (hbad'.trans hnobad)
    refine congrArg (State.doneQ (u.readSent q d r) q) ?_
    rw [hpos2, hbad2, State.readComp, Nat.zero_add, Bool.false_or]
    exact congrArg (fun n => ({ (u.readSent q d r).compOf q d l 0 with wait := true, flags := n, bytes := d.len } : Comp)) (Nat.zero_add _)
  have hend : (((s.turned q).moveBurst q).hostq q).cur = none := by
    rw [hmove]
    exact State.doneQ_idle _ hq _
  have hask' : (s.ask 1 q (s.burstCost q)).1 = true := by
    rw [State.burstCost_eq hplan hcur, if_neg (by omega)]
    exact hask
  rw [State.runDesc_one hw hplan hpick hask' hend, hmove]

/-! ### A descriptor arrives (R209) -/

/-- The descriptor goes to work. -/
def State.toWork (s : State) (q a : Nat) (bs : List Byte) : State :=
  (s.setHostq q { s.hostq q with fetch := none }).setHostq q { (s.setHostq q { s.hostq q with fetch := none }).hostq q with
    cur := some (parseDesc a bs, if (parseDesc a bs).ctl % 2 = 1 then some (s.get (F.DMA_QC_DB_CNT_COUNT q)) else none)
    pos := 0
    bad := false
    mark := s.markOf q }

theorem State.fetched_eq {a : Nat} (bs : List Byte) (hf : (s.hostq q).fetch = some (a, false)) : s.fetched q bs =
    if (parseDesc a bs).bad = true then (s.toWork q a bs).finishQ q ((s.toWork q a bs).compOf q (parseDesc a bs)
      (if (parseDesc a bs).ctl % 2 = 1 then some (s.get (F.DMA_QC_DB_CNT_COUNT q)) else none) 1) else s.toWork q a bs := by
  simp only [State.fetched, hf]
  rfl

theorem State.toWork_effect (a : Nat) (bs : List Byte) : (s.toWork q a bs).hostq q = { s.hostq q with
      fetch := none
      cur := some (parseDesc a bs, if (parseDesc a bs).ctl % 2 = 1 then some (s.get (F.DMA_QC_DB_CNT_COUNT q)) else none)
      pos := 0
      bad := false
      mark := s.markOf q } ∧ (∀ k, k ≠ q → (s.toWork q a bs).hostq k = s.hostq k) ∧
    s.toWork q a bs = { s with hostqs := (s.toWork q a bs).hostqs } := by
  refine ⟨?_, fun k hk => (State.setHostq_hostq_other _ _ _ _ hk).trans (State.setHostq_hostq_other _ _ _ _ hk), rfl⟩
  refine (State.setHostq_hostq_same _ _ _).trans ?_
  rw [State.setHostq_hostq_same]

/-- A completion that gives an error halts its queue when nothing waits before it. -/
theorem State.finishQ_halts (hq : q < 1024) {c : Comp} (hpend : (s.hostq q).pend = []) (hw : c.wait = false) (hst : 1 ≤ c.status ∧ c.status ≤ 4) :
    ∃ u, Joined q c s u ∧ s.finishQ q c = u.haltQ q c true ∧ Halted q c (s.locusQ q) u (s.finishQ q c) := by
  have hjoin := s.joined_joined q c
  have hjpend : ((s.joined q c).hostq q).pend = [c] := by
    rw [hjoin.hostq]
    exact congrArg (· ++ [c]) hpend
  have hfin : s.finishQ q c = (s.joined q c).haltQ q c true := by
    rw [s.finishQ_eq q c, hpend]
    exact State.drainQ_halts _ 0 hjpend hw hst
  refine ⟨_, hjoin, hfin, ?_⟩
  rw [hfin, ← State.locusQ_congr (s := s) (t := s.joined q c) (hjoin.word _ (by decide))]
  exact State.haltQ_halted _ hq c true

end

/-- Settles O35: a refused descriptor's completion halts its queue; NOP and the one burst of a READ or of a plain COPY end their
descriptor; that a COPY stays within its destination is kept by every burst of the engine. -/
theorem descriptorsFetchReadAndCopy : Obligations.DescriptorsFetchReadAndCopy := by
  unfold Obligations.DescriptorsFetchReadAndCopy
  refine ⟨fun q bs s => ⟨fun h => if_pos h, fun h hf => ?_, fun a h hf hok => ?_, fun a h hf hbad hpend hrecd => ?_⟩,
    fun q s => ⟨fun h => ?_, fun h => ?_, fun h => ?_, fun d hw hpend hhops => ?_, fun hpick hask => ⟨fun hw => ?_, fun hw => ?_⟩,
    fun d l hw hpend hpos hbad hcap hlen hone hpick hask => ?_, fun d l hw hidle hwf => ⟨?_, fun hfmt how hsrc hdst hlen hprot hpend hpos hone hask => ?_⟩⟩⟩
  · refine (if_neg (by simp [h])).trans (congrArg Host.Outcome.next ?_)
    simp only [State.fetched, hf]
  · obtain ⟨hhost, hother, hframe⟩ := s.toWork_effect (q := q) a bs
    refine ⟨_, (if_neg (by simp [h])).trans (congrArg Host.Outcome.next ((s.fetched_eq bs hf).trans (if_neg (by simp [hok])))), hhost,
      hother, hframe⟩
  · obtain ⟨hhost, -, hframe⟩ := s.toWork_effect (q := q) a bs
    refine ⟨_, (if_neg (by simp [h])).trans (congrArg Host.Outcome.next ((s.fetched_eq bs hf).trans (if_pos hbad))), ?_⟩
    have hpend' : ((s.toWork q a bs).hostq q).pend = [] := (congrArg HostQ.pend hhost).trans hpend
    have hlocus : (s.toWork q a bs).locusQ q = s.locusQ q := State.locusQ_congr rfl
    have hmem : memSame s (s.toWork q a bs) := memSame_of_fields ((congrArg State.store hframe).trans rfl) ((congrArg State.flash hframe).trans rfl)
    generalize s.toWork q a bs = u at *
    generalize hc : u.compOf q (parseDesc a bs) (if (parseDesc a bs).ctl % 2 = 1 then some (s.get (F.DMA_QC_DB_CNT_COUNT q)) else none) 1 = c
    have hst : c.status = 1 := by rw [← hc]; rfl
    have hd : c.d = parseDesc a bs := by rw [← hc]; rfl
    obtain ⟨v, -, -, hhalt⟩ := State.finishQ_halts q.isLt hpend' (c := c) (by rw [← hc]; rfl) (by omega)
    have hkept := State.finishQ_mem u q c
    refine ⟨hhalt.state, hhalt.err.trans (by rw [hst]), hhalt.cur.trans (by rw [hd]; rfl), hlocus ▸ hhalt.seen, ?_⟩
    exact memSame_trans hmem (memSame_of_fields hkept.2.1 hkept.2.2)
  · exact congrArg Host.Outcome.next (by simp only [State.runDesc, h])
  · exact congrArg Host.Outcome.next (by simp only [State.runDesc, h])
  · exact congrArg Host.Outcome.next (by simp only [State.runDesc, h])
  · obtain ⟨hcur, hst, hop, hbad⟩ := State.work_eq hw
    have hplan : s.plan q = .done 0 none := by
      rw [State.plan_eq hcur hst hbad, show d.op = 0 from hop]
      rfl
    have hrun : s.runDesc q 0 = s.doneQ q { s.compOf q d none 0 with num := none } := by simp only [State.runDesc, hw, hplan]
    have hwent := s.doneQ_wentOn (c := { s.compOf q d none 0 with num := none }) hpend rfl rfl rfl (fun r hr => by cases hr) hst hhops
    obtain ⟨honly, hframe⟩ := hwent.only rfl
    exact ⟨_, congrArg Host.Outcome.next hrun, hwent.done, hwent.cur, hwent.pend, hwent.fetch, hwent.next, hwent.asked, hwent.record, honly, hframe⟩
  · exact congrArg Host.Outcome.next (State.runDesc_refused hw hpick hask)
  · exact congrArg Host.Outcome.next (State.runDesc_refused hw hpick hask)
  · obtain ⟨v, hturn, hrun⟩ := State.runDesc_read q.isLt hw hpend hpos hbad hcap hlen hone hpick hask
    have hbytes : (s.readBytes d.src d.len).1 ≠ [] := fun he => by
      have hlen' : (s.readBytes d.src d.len).1.length = d.len := by simp [State.readBytes]
      rw [he] at hlen'
      exact absurd hlen'.symm (Nat.ne_of_gt hlen)
    generalize s.readBytes d.src d.len = r at *
    have hro : v.flag F.DMA_CTRL_RO_EN = s.flag F.DMA_CTRL_RO_EN := hturn.reads.bit (by decide)
    obtain ⟨hsent, hback, hcount, hqs, hstore, hflash⟩ := State.readSent_effect (q := q) hlen hbytes hro
    have hpend' : ((v.readSent q d r).hostq q).pend = [] := by
      rw [hostq_of_hostqs hqs, hturn.hostq]
      exact hpend
    obtain ⟨hhead, hout⟩ := State.doneQ_waits (c := (v.readSent q d r).readComp q d l r.2) hpend' rfl
    have honly := QueueOnly.bytes q.isLt (State.doneQ_queueOnly (any := False) (v.readSent q d r) q.isLt
      (c := (v.readSent q d r).readComp q d l r.2) (Comp.relOk_of_none rfl) (by rw [hpend']; exact fun c hc => absurd hc List.not_mem_nil))
    have hkept := State.doneQ_mem (v.readSent q d r) q ((v.readSent q d r).readComp q d l r.2)
    have hvbytes : v.getN (R.DMA_QC_BYTES q) 2 = s.getN (R.DMA_QC_BYTES q) 2 :=
      RegTab.wide_congr 2 _ (fun j h1 h2 => hturn.reads.word j (by simp only [R.DMA_QC_BYTES] at h1 h2; omega))
    have hvmem : v.flash = s.flash := (congrArg State.flash hturn.frame).trans rfl
    refine ⟨_, _, congrArg Host.Outcome.next hrun, hout _ hsent, hout _ hback, hhead, rfl, rfl, rfl, rfl, ?_, ?_⟩
    · rw [honly, hcount, hvbytes]
    · exact memSame_of_fields (hkept.2.1.trans (hstore.trans hturn.reads.store)) (hkept.2.2.trans (hflash.trans hvmem))
  · exact ⟨_, rfl, fun a ha => State.runDesc_copy q.isLt hw hidle hwf a ha, fun a => by rw [(s.runDesc_mem q 2).2]⟩
  · exact ⟨_, rfl, State.runDesc_plainCopy q.isLt hw hidle hwf hfmt how hsrc hdst hprot hpend hpos hone hask⟩

end Sys2Proof.Machine
end

section
/-! SUPPORT. Records that a queue delivers or gives up, read-backs, and requests that fail (R210, R216, R217, R221). -/

namespace Sys2Proof.Machine

open Sys2Proof.Safety

section
variable {s : State} {q : Nat}

/-! ### A RECORD (R210, R211) -/

theorem State.plan_record {d : Desc} {l : Option Nat} {r : QRec} (hw : s.work q 3 = some (d, l)) (hbind : s.flag (F.DMA_QC_CTRL_BIND q) = true)
    (hrec : s.currentRec q = some r) {o : List OutItem × Bool} (ho : s.recOut q d r = some o) :
    s.plan q = .burst (s.recBurst q d (s.hostq q).pos o.1) := by
  obtain ⟨hcur, hst, hop, hbad⟩ := State.work_eq hw
  rw [State.plan_eq hcur hst hbad, show d.op = 3 from hop]
  simp only [State.recPlan, hbind, hrec, ho]
  rfl

/-- Whether a record can be delivered in a format does not depend on what the store holds. -/
theorem State.recOut_some {t : State} {d : Desc} {r : QRec} (h : s.recOut q d r ≠ none) : ∃ o, t.recOut q d r = some o := by
  simp only [State.recOut] at h ⊢
  cases hw : outWidth (d.ctl / 8 % 4) (d.ctl / 32 % 4) r.fmt.b with
  | none => rw [hw] at h; exact absurd rfl h
  | some w => exact ⟨_, rfl⟩

/-- What a queue's engine changes. -/
def engineShare : Share where
  upd s t := { s with
    out := t.out, regs := t.regs, grps := t.grps, stageFill := t.stageFill, sto := t.sto, hostqs := t.hostqs, dmaTurn := t.dmaTurn,
    msix := t.msix, twin := t.twin, log := t.log }
  regs _ := True
  self _ := rfl
  again _ _ _ := rfl

/-- A RECORD goes on: its queue alone works, and REC names the record whose bytes have left. -/
structure RecordGoing (q : Nat) (d : Desc) (l : Option Nat) (r : QRec) (s t : State) : Prop where
  only : engineShare.Only s t
  other : ∀ k, k ≠ q → t.hostq k = s.hostq k
  pend : ∀ c ∈ (t.hostq q).pend, c.relOk False
  cur : (t.hostq q).cur = none ∨ ((t.hostq q).cur = some (d, l) ∧ t.currentRec q = some r)

/-- A RECORD whose first bytes have left. -/
structure RecordSent (q : Nat) (d : Desc) (l : Option Nat) (r : QRec) (s t : State) : Prop extends RecordGoing q d l r s t where
  num : t.getN (R.DMA_QC_REC q) 2 = r.num % 2 ^ 64

theorem QueueOnly.engine {any : Prop} {t : State} (h : QueueOnly q any s t) : engineShare.Only s t :=
  ⟨engineShare.frame_of h.share.frame rfl, fun _ ho => absurd trivial ho⟩

theorem QueueOnly.num {t : State} (hq : q < 1024) (h : QueueOnly q False s t) : t.getN (R.DMA_QC_REC q) 2 = s.getN (R.DMA_QC_REC q) 2 :=
  h.share.wide (fun j h1 h2 hr => by
    simp only [queueShare, false_or] at hr
    simp only [R.DMA_QC_REC] at h1 h2
    omega)

theorem QueueOnly.ite {any : Prop} {t u : State} {c : Prop} [Decidable c] (h : QueueOnly q any s t) (k : QueueOnly q any s u) :
    QueueOnly q any s (if c then t else u) := by
  split
  · exact h
  · exact k

theorem State.dropRec_queueOnly (s : State) (q : Nat) (any : Prop) : QueueOnly q any s (s.dropRec q) := by
  have hdrop : s.dropRec q = ((((s.unpinned q).setHostq q { (s.unpinned q).hostq q with recd := none, held := 0, heldBad := false }).put
    (F.DMA_QC_OFFSET_BYTES q) 0).put (F.DMA_QC_HOLD_BITS q) 0) := rfl
  rw [hdrop]
  have hunpin : QueueOnly q any s (s.unpinned q) := by
    unfold State.unpinned
    split
    · exact s.pinQ_queueOnly q any _ _
    · exact .refl _ _ _
  generalize s.unpinned q = u at *
  have hset : QueueOnly q any u (u.setHostq q { u.hostq q with recd := none, held := 0, heldBad := false }) := .setHostq id id
  generalize u.setHostq q { u.hostq q with recd := none, held := 0, heldBad := false } = v at *
  exact (hunpin.trans hset).trans (.trans (.put (off := 0x38) (by omega)) (.put (off := 0x2C) (by omega)))

/-- A queue keeps the record that it has not read to its end. -/
def State.recHeld (s : State) (q off bits held : Nat) (heldBad : Bool) (r : QRec) (pages : List Nat) : State :=
  (((s.setHostq q { s.hostq q with recd := some r, held := held, heldBad := heldBad }).put (F.DMA_QC_OFFSET_BYTES q) off).put
    (F.DMA_QC_HOLD_BITS q) bits).pinQ q r.g pages

theorem State.recHeld_effect (s : State) (q off bits held : Nat) (heldBad : Bool) (r : QRec) (pages : List Nat) (any : Prop) :
    QueueOnly q any s (s.recHeld q off bits held heldBad r pages) ∧
    (s.recHeld q off bits held heldBad r pages).hostq q = { s.hostq q with recd := some r, held := held, heldBad := heldBad } := by
  unfold State.recHeld
  have hset : QueueOnly q any s (s.setHostq q { s.hostq q with recd := some r, held := held, heldBad := heldBad }) := .setHostq id id
  have hhost := s.setHostq_hostq_same q { s.hostq q with recd := some r, held := held, heldBad := heldBad }
  generalize s.setHostq q { s.hostq q with recd := some r, held := held, heldBad := heldBad } = v at *
  have hput : QueueOnly q any v ((v.put (F.DMA_QC_OFFSET_BYTES q) off).put (F.DMA_QC_HOLD_BITS q) bits) :=
    .trans (.put (off := 0x38) (by omega)) (.put (off := 0x2C) (by omega))
  exact ⟨(hset.trans hput).trans (State.pinQ_queueOnly _ q any _ _), (hostq_of_hostqs (State.pinQ_hostqs _ q _ _) q).trans hhost⟩

theorem State.burstDone_queueOnly {any : Prop} (hq : q < 1024) (s : State) (n : Nat) (bad last : Bool) {c : Comp} (hc : c.relOk any)
    (hp : ∀ x ∈ (s.hostq q).pend, x.relOk any) : QueueOnly q any s (s.burstDone q n bad last c) :=
  .ite (s.doneQ_queueOnly hq hc hp) (.setHostq id id)

theorem State.toHost_queueOnly (s : State) (q : Nat) (any : Prop) (dst : Nat) (bs : List Byte) : QueueOnly q any s (s.toHost dst bs) :=
  .ite (.refl _ _ _) (.emit _)

theorem State.readBack_queueOnly (s : State) (q : Nat) (any : Prop) (d : Desc) (n : Nat) : QueueOnly q any s (s.readBack d n) :=
  .ite (.refl _ _ _) (.emit _)

theorem State.currentRec_of_recd {r : QRec} (h : (s.hostq q).recd = some r) : s.currentRec q = some r := by
  simp only [State.currentRec, h]

/-- A burst of a RECORD: REC names the record, and of the block only the engine's part changes. -/
theorem State.moveRec_sent (hq : q < 1024) {d : Desc} {l : Option Nat} {n : Nat} {r : QRec} {o : List OutItem × Bool} (hg : r.g < 16)
    (hp : ∀ x ∈ (s.hostq q).pend, x.relOk False) (hcur : (s.hostq q).cur = some (d, l)) :
    RecordSent q d l r s (s.moveRec q d l n r o) := by
  unfold State.moveRec
  extract_lets p off rest k bad ends s1 s2 next held unread src s3 last
  have hsent : engineShare.Only s s1 ∧ s1.hostqs = s.hostqs ∧ s1.getN (R.DMA_QC_REC q) 2 = r.num % 2 ^ 64 := by
    have hout := (s.toHost_queueOnly q False (d.dst + p) (leBytes n k.1)).engine
    have hhost : (s.toHost (d.dst + p) (leBytes n k.1)).hostqs = s.hostqs := by
      unfold State.toHost
      split <;> rfl
    unfold s1
    generalize s.toHost (d.dst + p) (leBytes n k.1) = u at *
    have hframe := u.moved_frame q n bad
    generalize u.moved q n bad = v at *
    refine ⟨hout.trans (.after ?_ ⟨engineShare.frame_of hframe rfl, fun _ ho => absurd trivial ho⟩), ?_, State.getN_putN_mod _ _ _ rfl⟩
    · exact .putN (fun _ _ _ => trivial)
    · exact ((congrArg State.hostqs hframe).trans rfl).trans hhost
  clear_value s1
  obtain ⟨honly, hqs, hnum⟩ := hsent
  have hcut : QueueOnly q False s1 s2 ∧ s2.hostqs = s.hostqs := by
    unfold s2
    split
    · exact ⟨.put (off := 0x14) (by omega), hqs⟩
    · exact ⟨.refl _ _ _, hqs⟩
  clear_value s2
  obtain ⟨hcut, hqs2⟩ := hcut
  have hkept : QueueOnly q False s2 s3 ∧ (ends = false → (s3.hostq q).recd = some r ∧ (s3.hostq q).cur = some (d, l)) := by
    unfold s3
    cases ends with
    | true => exact ⟨State.dropRec_queueOnly _ _ _, fun h => by cases h⟩
    | false =>
      obtain ⟨hqo, hhost⟩ := s2.recHeld_effect q (off + n) (heldBits next) ((held.map (fun x : OutItem => x.v)).getD 0)
        ((held.map (fun x : OutItem => x.bad)).getD false) r (aheadPages (d.ctl / 8 % 4) (bitsSet 48 (Nat.land r.fmt.mask d.sel)) unread) False
      refine ⟨hqo, fun _ => ?_⟩
      have hboth : ∀ x, x = s2.recHeld q (off + n) (heldBits next) ((held.map (fun x : OutItem => x.v)).getD 0)
          ((held.map (fun x : OutItem => x.bad)).getD false) r (aheadPages (d.ctl / 8 % 4) (bitsSet 48 (Nat.land r.fmt.mask d.sel)) unread) →
          (x.hostq q).recd = some r ∧ (x.hostq q).cur = some (d, l) := by
        rintro x rfl
        rw [hhost]
        exact ⟨rfl, (congrArg HostQ.cur (hostq_of_hostqs hqs2 q)).trans hcur⟩
      exact hboth _ rfl
  clear_value s3
  obtain ⟨hkept, hstay⟩ := hkept
  have hall : QueueOnly q False s1 s3 := hcut.trans hkept
  have hp3 : ∀ x ∈ (s3.hostq q).pend, x.relOk False := hall.pend (by rw [hostq_of_hostqs hqs q]; exact hp)
  have hback : QueueOnly q False s3 (if last = true then s3.readBack d (p + n) else s3) := .ite (s3.readBack_queueOnly q _ d _) (.refl _ _ _)
  have hback' : last = false → (if last = true then s3.readBack d (p + n) else s3) = s3 := fun h => if_neg (by simp [h])
  generalize (if last = true then s3.readBack d (p + n) else s3) = v at *
  have hp4 := hback.pend hp3
  have hlast : last = false → ends = false := fun h => by
    simp only [last, Bool.or_eq_false_iff] at h
    exact h.1
  have hrel : ∀ c : Comp, (c.rel = if ends = true then some (r.g, r.num) else none) → c.relOk False := by
    intro c hc x hx
    rw [hc] at hx
    split at hx
    · cases hx
      exact .inr hg
    · cases hx
  generalize hcomp : ({ s3.compOf q d l 0 with
    flags := (if ends then 1 else 2) + (if o.2 && ends then 8 else 0)
    num := some r.num
    wait := decide (0 < p + n)
    rel := if ends then some (r.g, r.num) else none } : Comp) = c
  have hc : c.relOk False := hrel c (by rw [← hcomp])
  clear hcomp
  have hdone := v.burstDone_queueOnly hq n bad last hc hp4
  have hfinal := (hall.trans hback).trans hdone
  have hcurrent : last = false → ((v.burstDone q n bad last c).hostq q).cur = some (d, l) ∧ ((v.burstDone q n bad last c).hostq q).recd = some r := by
    intro h
    obtain ⟨hrecd, hcur3⟩ := hstay (hlast h)
    rw [hback' h]
    have hhost : (s3.burstDone q n bad last c).hostq q = { s3.hostq q with pos := (s3.hostq q).pos + n, bad := (s3.hostq q).bad || bad } := by
      rw [h]
      exact State.setHostq_hostq_same _ _ _
    rw [hhost]
    exact ⟨hcur3, hrecd⟩
  have hidle : last = true → ((v.burstDone q n bad last c).hostq q).cur = none := by
    intro h
    rw [h]
    exact State.doneQ_idle _ hq _
  have hpend := hdone.pend hp4
  generalize v.burstDone q n bad last c = t at *
  refine ⟨⟨honly.trans hfinal.engine, fun k hk => (hfinal.other k hk).trans (hostq_of_hostqs hqs k), hpend, ?_⟩, (hfinal.num hq).trans hnum⟩
  cases hl : last with
  | true => exact .inl (hidle hl)
  | false => exact .inr ⟨(hcurrent hl).1, State.currentRec_of_recd (hcurrent hl).2⟩

/-! ### The bursts of a RECORD -/

section
variable {d : Desc} {l : Option Nat} {r : QRec} {t u : State}

theorem RecordGoing.trans (h : RecordGoing q d l r s t) (k : RecordGoing q d l r t u) : RecordGoing q d l r s u :=
  ⟨h.only.trans k.only, fun j hj => (k.other j hj).trans (h.other j hj), k.pend, k.cur⟩

theorem RecordGoing.turned (h : RecordGoing q d l r s t) (k : Turned q t u) : RecordGoing q d l r s u := by
  refine ⟨h.only.trans ⟨engineShare.frame_of k.frame rfl, fun _ ho => absurd trivial ho⟩, fun j hj => (k.other j hj).trans (h.other j hj), ?_, ?_⟩
  · rw [k.hostq]
    exact h.pend
  · have hrecd : (u.hostq q).recd = (t.hostq q).recd := by rw [k.hostq]
    have hpend : (u.hostq q).pend = (t.hostq q).pend := by rw [k.hostq]
    rw [k.hostq, k.reads.currentRec hrecd hpend]
    exact h.cur

theorem Turned.num (k : Turned q t u) : u.getN (R.DMA_QC_REC q) 2 = t.getN (R.DMA_QC_REC q) 2 :=
  RegTab.wide_congr 2 _ (fun j h1 h2 => k.reads.word j (by simp only [R.DMA_QC_REC] at h1 h2; omega))

theorem RecordSent.turned (h : RecordSent q d l r s t) (k : Turned q t u) : RecordSent q d l r s u :=
  ⟨h.toRecordGoing.turned k, k.num.trans h.num⟩

/-- What the engine moves of a queue's RECORD. -/
theorem RecordGoing.moveBurst (hq : q < 1024) (hg : r.g < 16) (hop : d.op = 3) (h : RecordGoing q d l r s t) :
    t.moveBurst q = t ∨ ∃ n o, t.moveBurst q = t.moveRec q d l n r o ∧ RecordSent q d l r s (t.moveRec q d l n r o) := by
  unfold State.moveBurst
  split
  · next n d' l' hplan hc =>
    obtain hn | ⟨hcur, hrec⟩ := h.cur
    · rw [hn] at hc; cases hc
    · have hd : (d', l') = (d, l) := Option.some.inj (hc.symm.trans hcur)
      cases hd
      rw [if_neg (by omega), if_neg (by omega)]
      simp only [hrec]
      split
      · next o ho =>
        have hsent := State.moveRec_sent hq (n := n) (o := o) hg h.pend hcur
        exact .inr ⟨n, o, rfl, h.trans hsent.toRecordGoing, hsent.num⟩
      · exact .inl rfl
  · exact .inl rfl

theorem RecordSent.moved (hq : q < 1024) (hg : r.g < 16) (hop : d.op = 3) (h : RecordSent q d l r s t) : RecordSent q d l r s (t.moveBurst q) := by
  obtain he | ⟨n, o, he, hsent⟩ := h.toRecordGoing.moveBurst hq hg hop
  · rw [he]
    exact h
  · rw [he]
    exact hsent

/-- A RECORD that has its first grant. -/
theorem State.runDesc_record (hq : q < 1024) (hw : s.work q 3 = some (d, l)) (hbind : s.flag (F.DMA_QC_CTRL_BIND q) = true)
    (hrec : s.currentRec q = some r) (hg : r.g < 16) (hpend : (s.hostq q).pend = []) (hidle : ∀ k, k ≠ q → (s.hostq k).cur = none)
    (hout : s.recOut q d r ≠ none) (hask : (s.ask 1 q (s.burstCost q)).1 = true) : RecordSent q d l r s (s.runDesc q 3) := by
  obtain ⟨hcur, hst, hop, hbad⟩ := State.work_eq hw
  replace hop : d.op = 3 := hop
  obtain ⟨o, ho⟩ := State.recOut_some (t := s) hout
  have hplan := State.plan_record hw hbind hrec ho
  have hpick : s.dmaPick [] = some q := State.dmaPick_sole hidle (State.hasBurst_iff.mpr ⟨_, hplan⟩)
  have hfirst : RecordGoing q d l r s s := ⟨.refl _ _, fun _ _ => rfl, by rw [hpend]; exact fun c hc => absurd hc List.not_mem_nil, .inr ⟨hcur, hrec⟩⟩
  have hsent : RecordSent q d l r s ((s.turned q).moveBurst q) := by
    have hturn := s.turned_turned q
    have hgo := hfirst.turned hturn
    obtain ⟨hcur', -, hst', hpend', -, hrecd'⟩ := hturn.at_work hcur hst
    have hrec' : (s.turned q).currentRec q = some r := (hturn.reads.currentRec hrecd' hpend').trans hrec
    have hbind' : (s.turned q).flag (F.DMA_QC_CTRL_BIND q) = true := (hturn.reads.bit (by simp only [F.DMA_QC_CTRL_BIND]; omega)).trans hbind
    generalize s.turned q = u at *
    obtain ⟨o', ho'⟩ := State.recOut_some (t := u) hout
    have hw' : u.work q 3 = some (d, l) := by
      simp [State.work, hcur', hst', hop, show d.bad = false from hbad]
    have hplan' := State.plan_record hw' hbind' hrec' ho'
    have hmove : u.moveBurst q = u.moveRec q d l (u.recBurst q d (u.hostq q).pos o'.1) r o' := by
      simp only [State.moveBurst, hplan', hcur', hrec', ho']
      rw [if_neg (by omega), if_neg (by omega)]
    have hone := State.moveRec_sent (s := u) hq (n := u.recBurst q d (u.hostq q).pos o'.1) (o := o') hg hgo.pend hcur'
    rw [hmove]
    exact ⟨hgo.trans hone.toRecordGoing, hone.num⟩
  obtain ⟨m, hm⟩ := State.dmaRun_granted hpick hask (State.dmaFuel_pos hcur)
  rw [State.runDesc_bursts hw hplan, hm]
  exact State.dmaRun_keeps (RecordSent q d l r s) (fun t h k hk => by rw [h.other k hk]; exact hidle k hk) (fun t h => h.turned (t.ask_turned q _))
    (fun t h => (h.turned (t.turned_turned q)).moved hq hg hop) hsent [] m

end

end

/-! ### What the end of a record leaves of the registers -/

/-- A field that is written with what it holds. -/
theorem fldSet_fldGet (w : Word) (f : Fld) (h : f.ok) : fldSet w f (fldGet w f) = w := by
  have hwidth : f.lo + f.width = f.hi + 1 := by
    obtain ⟨h1, -⟩ := h
    unfold Fld.width
    omega
  refine BitVec.eq_of_toNat_eq ((fldSet_toNat w f _ h).trans ?_)
  rw [fldGet, Nat.mod_mod, ← hwidth, Nat.pow_add, ← Nat.div_div_eq_div_mul, Nat.mod_add_div, Nat.mod_add_div]

theorem RegTab.word_setFld_get (r : RegTab) {f : Fld} (h : f.ok) (off : Nat) : (r.setFld f (r.fld f)).word off = r.word off := by
  by_cases ho : off = f.off
  · subst ho
    rw [RegTab.word_setFld_same, RegTab.fld, fldSet_fldGet _ _ h]
  · exact RegTab.word_setFld_other _ _ _ _ ho

section
variable (s : State) {q : Nat} {f : Fld}

theorem State.pinQ_get {g : Nat} (pages : List Nat) (h : f.ok) (hoff : f.off % 256 ≠ 0x40) (hpin : (F.DMA_QC_STATUS_PINNED q).Sep f) :
    (s.pinQ q g pages).get f = s.get f := by
  have hgrp : (F.REC_GRP_STATUS_PINNED g).Sep f := ⟨.of rfl (by omega), h, .inl (by simp only [F.REC_GRP_STATUS_PINNED]; omega)⟩
  unfold State.pinQ
  refine (RegTab.fld_setFld_sep _ _ hpin).trans ?_
  exact RegTab.fld_setFld_sep _ _ hgrp

theorem State.dropRec_get (h : f.ok) (hoff : f.off % 256 ≠ 0x40) (hpin : (F.DMA_QC_STATUS_PINNED q).Sep f)
    (hbytes : (F.DMA_QC_OFFSET_BYTES q).Sep f) (hbits : (F.DMA_QC_HOLD_BITS q).Sep f) : (s.dropRec q).get f = s.get f := by
  have hunpin : (s.unpinned q).get f = s.get f := by
    unfold State.unpinned
    split
    · exact s.pinQ_get _ h hoff hpin
    · rfl
  have hdrop : s.dropRec q = ((((s.unpinned q).setHostq q { (s.unpinned q).hostq q with recd := none, held := 0, heldBad := false }).put
    (F.DMA_QC_OFFSET_BYTES q) 0).put (F.DMA_QC_HOLD_BITS q) 0) := rfl
  rw [hdrop]
  refine (RegTab.fld_setFld_sep _ _ hbits).trans ((RegTab.fld_setFld_sep _ _ hbytes).trans ?_)
  exact hunpin

/-! ### A RELEASE (R210) -/

section
variable {s : State} {q : Nat}

/-- A queue gives up its current record undelivered. -/
def State.recReleased (s : State) (q num : Nat) : State := (s.dropRec q).putN (R.DMA_QC_REC q) 2 num

theorem exec_descRelease {p : Fin 1024} {d : Desc} {r : QRec} (hw : s.work p 4 = some (d, none)) (hbind : s.flag (F.DMA_QC_CTRL_BIND p) = true)
    (hrec : s.currentRec p = some r) : exec (.descRelease p) s = .next ((s.recReleased p r.num).doneQ p
      { s.compOf p d none 0 with num := some r.num, rel := some (r.g, r.num) }) := by
  simp only [exec, execDescRelease, hw, hbind, hrec]
  rfl

theorem State.recReleased_get {f : Fld} (num : Nat) (h : f.ok) (hoff : f.off % 256 ≠ 0x40) (hpin : (F.DMA_QC_STATUS_PINNED q).Sep f)
    (hbytes : (F.DMA_QC_OFFSET_BYTES q).Sep f) (hbits : (F.DMA_QC_HOLD_BITS q).Sep f) (hrec : RegTab.Beside f (R.DMA_QC_REC q) 2) :
    (s.recReleased q num).get f = s.get f :=
  (RegTab.fld_setWide_beside _ _ hrec).trans (s.dropRec_get h hoff hpin hbytes hbits)

/-- What a RELEASE leaves. -/
theorem State.release_wentOn (hq : q < 1024) {d : Desc} {r : QRec} {c : Comp} (hc : c = { s.compOf q d none 0 with num := some r.num, rel := some (r.g, r.num) })
    (hst : s.get (F.DMA_QC_STATUS_STATE q) = 1) (hg : r.g < 16) (hpend : (s.hostq q).pend = []) (hhops : s.get (F.DMA_QC_HOPS_HOPS q) ≠ 1048576) :
    WentOn q c (s.recReleased q r.num) ((s.recReleased q r.num).doneQ q c) := by
  have hdrop := s.dropRec_dropped q
  refine State.doneQ_wentOn _ ?_ (by rw [hc]; rfl) (by rw [hc]; rfl) (by rw [hc]; rfl) (fun x hx => ?_) ?_ ?_
  · exact (congrArg HostQ.pend hdrop.hostq).trans hpend
  · rw [hc] at hx
    cases hx
    exact hg
  · refine (s.recReleased_get (q := q) (f := F.DMA_QC_STATUS_STATE q) _ (.of rfl (by omega)) (by simp only [F.DMA_QC_STATUS_STATE]; omega) (.of rfl (by omega)) (.of rfl (by omega))
      (.of rfl (by omega)) (.of rfl (by simp only [R.DMA_QC_REC]; omega))).trans hst
  · rw [s.recReleased_get (q := q) (f := F.DMA_QC_HOPS_HOPS q) _ (.of rfl (by omega)) (by simp only [F.DMA_QC_HOPS_HOPS]; omega) (.of rfl (by omega)) (.of rfl (by omega))
      (.of rfl (by omega)) (.of rfl (by simp only [R.DMA_QC_REC]; omega))]
    exact hhops

/-! ### A request that fails (R221) -/

/-- The timeout is noted, DMA_CTO after the request. -/
def State.timedOut (s : State) (a : Nat) : State := (s.at_ a).setF F.DMA_STATUS_TIMEOUT_SEEN

/-- A queue's halt leaves what the whole interface has noted. -/
theorem QueueOnly.status {t : State} {f : Fld} (h : QueueOnly q False s t) (hf : f.off = 0x900008) : t.flag f = s.flag f :=
  h.share.bit (fun hr => by
    simp only [queueShare, false_or] at hr
    omega)

/-- What a queue leaves that halts with an error of a request. -/
structure ReqFailed (q a status : Nat) (s t : State) : Prop where
  state : t.get (F.DMA_QC_STATUS_STATE q) = 3
  err : t.get (F.DMA_QC_STATUS_ERR q) = status
  cur : t.getN (R.DMA_QC_CUR q) 2 = a % 2 ^ 64
  seen : (0x0A01, s.locusQ q) ∈ t.log.seen
  fetch : (t.hostq q).fetch = none
  only : QueueOnly q False s t

theorem Halted.reqFailed {c : Comp} {u t : State} {locus a status : Nat} (h : Halted q c locus u t) (hlocus : locus = s.locusQ q) (hst : c.status = status)
    (hlt : status < 256) (ha : c.d.addr = a) (honly : QueueOnly q False s u) : ReqFailed q a status s t :=
  ⟨h.state, h.err.trans (by rw [hst, Nat.mod_eq_of_lt hlt]), h.cur.trans (by rw [ha]), hlocus ▸ h.seen, h.fetch, honly.trans (h.only False)⟩

theorem State.failQ_failed (hq : q < 1024) {req : QReq} {a b status : Nat} {again : Bool} (hsince : s.reqSince q req = some b)
    (hst : 1 ≤ status ∧ status ≤ 4) (hfetch : req = .fetch → (s.hostq q).fetch = some (a, again) ∧ (s.hostq q).pend = [])
    (hback : ∀ c rest, req = .readBack → (s.hostq q).pend = c :: rest → c.d.addr = a)
    (hwrote : ∀ c, req = .completion → (s.hostq q).wrote = some c → c.d.addr = a) : ReqFailed q a status s (s.failQ q status req) := by
  cases req with
  | fetch =>
    obtain ⟨hf, hpend⟩ := hfetch rfl
    have heq : s.failQ q status .fetch = (s.setHostq q { s.hostq q with fetch := none }).finishQ q (s.compAt q a status) := by
      simp only [State.failQ, hf]
    rw [heq]
    have hset : QueueOnly q False s (s.setHostq q { s.hostq q with fetch := none }) := .setHostq id id
    have hhost : ((s.setHostq q { s.hostq q with fetch := none }).hostq q).pend = [] := by
      rw [State.setHostq_hostq_same]
      exact hpend
    have hlocus : (s.setHostq q { s.hostq q with fetch := none }).locusQ q = s.locusQ q := State.locusQ_congr rfl
    generalize s.setHostq q { s.hostq q with fetch := none } = u at *
    obtain ⟨v, hjoin, -, hhalt⟩ := State.finishQ_halts hq hhost (c := s.compAt q a status) rfl hst
    exact hhalt.reqFailed hlocus rfl (by omega) rfl (hset.trans (hjoin.queueOnly (Comp.relOk_of_none rfl)))
  | readBack =>
    cases hp : (s.hostq q).pend with
    | nil => simp [State.reqSince, hp] at hsince
    | cons c rest =>
      have heq : s.failQ q status .readBack = s.haltQ q { c with status := status } true := by simp only [State.failQ, hp]
      rw [heq]
      exact (State.haltQ_halted s hq _ true).reqFailed rfl rfl (by omega) (hback c rest rfl hp) (.refl _ _ _)
  | completion =>
    cases hw : (s.hostq q).wrote with
    | none => simp [State.reqSince, hw] at hsince
    | some c =>
      have heq : s.failQ q status .completion = s.haltQ q { c with status := status, mark := if c.rel.isSome then QMark.init else c.mark } false := by
        simp only [State.failQ, hw]
      rw [heq]
      exact (State.haltQ_halted s hq _ false).reqFailed rfl rfl (by omega) (hwrote c rfl hw) (.refl _ _ _)

/-- A failed request that has been noted in DMA_STATUS, and reported through AER. -/
theorem State.failQ_reported (hq : q < 1024) {req : QReq} {a b status : Nat} {again : Bool} (hsince : s.reqSince q req = some b)
    (hst : 1 ≤ status ∧ status ≤ 4) (hfetch : req = .fetch → (s.hostq q).fetch = some (a, again) ∧ (s.hostq q).pend = [])
    (hback : ∀ c rest, req = .readBack → (s.hostq q).pend = c :: rest → c.d.addr = a)
    (hwrote : ∀ c, req = .completion → (s.hostq q).wrote = some c → c.d.addr = a) {f : Fld} (hoff : f.off = 0x900008) (hf : s.flag f = true) (o : Out) :
    ((s.failQ q status req).emit o).get (F.DMA_QC_STATUS_STATE q) = 3 ∧ ((s.failQ q status req).emit o).get (F.DMA_QC_STATUS_ERR q) = status ∧
    ((s.failQ q status req).emit o).flag f = true ∧ ((s.failQ q status req).emit o).lcnt = s.lcnt ∧
    ((s.failQ q status req).emit o).getN (R.DMA_QC_CUR q) 2 = a % 2 ^ 64 ∧ (0x0A01, s.locusQ q) ∈ ((s.failQ q status req).emit o).log.seen ∧
    (((s.failQ q status req).emit o).hostq q).fetch = none ∧ ((s.failQ q status req).emit o).out.head? = some o ∧
    memSame s ((s.failQ q status req).emit o) := by
  have hfail := State.failQ_failed (status := status) hq hsince hst hfetch hback hwrote
  have hmem := State.failQ_mem s q status req
  generalize s.failQ q status req = t at *
  obtain ⟨hstate, herr, hcur, hseen, hnone, honly⟩ := hfail
  exact ⟨hstate, herr, (honly.status hoff).trans hf, (congrArg State.lcnt honly.share.frame).trans rfl, hcur, hseen, hnone, rfl,
    memSame_of_fields hmem.2.1 hmem.2.2⟩

/-- The registers that a failed fetch changes when its queue has no record in progress. -/
def fetchFailFlds (q : Nat) : List Fld :=
  [F.DMA_QC_STATUS_STATE q, F.DMA_QC_STATUS_ERR q, F.STO_CLASS_BACKLOG_BYTES 1] ++ wideFlds (R.DMA_QC_CUR q) 2 ++ logFlds

theorem changesOnly_put_same {fs : List Fld} {t : State} {f : Fld} {v : Nat} (hf : f.ok) (hv : t.get f = v) : changesOnly fs t (t.put f v) := by
  subst hv
  exact ⟨fun g _ _ => RegTab.fld_congr (RegTab.word_setFld_get _ hf _), memSame_of_fields rfl rfl, rfl⟩

/-- Restoring the record state that a queue without a record has changes no register. -/
theorem State.restore_same {fs : List Fld} {m : QMark} (hrecd : (s.hostq q).recd = none) (hm : m.recd = none)
    (hoff : s.get (F.DMA_QC_OFFSET_BYTES q) = m.off) (hbits : s.get (F.DMA_QC_HOLD_BITS q) = m.bits) : changesOnly fs s (s.restore q (s.markNow q m)) := by
  have hmark : s.markNow q m = { m with pins := [] } := by simp only [State.markNow, hm]
  have hpin : s.repinned q { m with pins := [] } = s := by simp only [State.repinned, hrecd, hm]
  rw [hmark, s.restore_eq, hpin]
  have hset : changesOnly fs s (s.setHostq q { s.hostq q with recd := m.recd, held := m.held, heldBad := m.heldBad }) :=
    (changesOnly.refl _ s).parts rfl rfl rfl rfl
  refine (hset.trans (changesOnly_put_same (.of rfl (by omega)) hoff)).trans (changesOnly_put_same (.of rfl (by omega)) ?_)
  exact (RegTab.fld_setFld_sep _ _ (.of rfl (by omega))).trans hbits

theorem State.haltQ_only {c : Comp} (hrecd : (s.hostq q).recd = none) (hm : c.mark.recd = none) (hoff : s.get (F.DMA_QC_OFFSET_BYTES q) = c.mark.off)
    (hbits : s.get (F.DMA_QC_HOLD_BITS q) = c.mark.bits) (hctl : bitOf c.d.ctl 2 = false) : changesOnly (fetchFailFlds q) s (s.haltQ q c true) := by
  rw [s.haltQ_eq q c true]
  have h1 : changesOnly (fetchFailFlds q) s (s.restore q (s.markNow q c.mark)) := State.restore_same hrecd hm hoff hbits
  generalize s.restore q (s.markNow q c.mark) = u at *
  have h2 := h1.trans ((u.unask_only 1 q).mono (by simp [fetchFailFlds]))
  generalize u.unask 1 q = v at *
  have h3 : changesOnly (fetchFailFlds q) v (v.workDropped q c.d.addr) := by
    have hset : changesOnly (fetchFailFlds q) v (v.setHostq q { v.hostq q with
      fetch := none, cur := none, pos := 0, bad := false, deficit := 0, wrote := none, pend := [] }) := (changesOnly.refl _ v).parts rfl rfl rfl rfl
    exact hset.putN (fun f hf => by simp [fetchFailFlds, hf])
  generalize v.workDropped q c.d.addr = w at *
  have h4 : changesOnly (fetchFailFlds q) w (w.haltShown q c.status) := .put (.put (.refl _ _) (by simp [fetchFailFlds])) (by simp [fetchFailFlds])
  generalize w.haltShown q c.status = x at *
  have hno : x.compWrite q (s.hostq q).skipped c = x := if_neg (by simp [hctl])
  rw [if_pos rfl, hno]
  have hsig := x.signalQ_mem q
  have h5 : changesOnly (fetchFailFlds q) s (x.signalQ q) := ((h2.trans h3).trans h4).parts ((congrArg State.regs (x.signalQ_effect q).1).trans rfl)
    hsig.2.1 hsig.2.2 hsig.1
  generalize x.signalQ q = y at *
  exact h5.post (fun f hf => List.mem_append_right _ hf)

theorem State.failFetch_only {a status : Nat} {again : Bool} (hf : (s.hostq q).fetch = some (a, again)) (hpend : (s.hostq q).pend = [])
    (hrecd : (s.hostq q).recd = none) (hst : 1 ≤ status ∧ status ≤ 4) : changesOnly (fetchFailFlds q) s (s.failQ q status .fetch) := by
  have heq : s.failQ q status .fetch = (s.setHostq q { s.hostq q with fetch := none }).finishQ q (s.compAt q a status) := by
    simp only [State.failQ, hf]
  rw [heq]
  have hset : changesOnly (fetchFailFlds q) s (s.setHostq q { s.hostq q with fetch := none }) := (changesOnly.refl _ s).parts rfl rfl rfl rfl
  have hhost := s.setHostq_hostq_same q { s.hostq q with fetch := none }
  have hregs : (s.setHostq q { s.hostq q with fetch := none }).regs = s.regs := rfl
  have hmark : (s.compAt q a status).mark = s.markOf q := rfl
  have hctl : bitOf (s.compAt q a status).d.ctl 2 = false := by
    show bitOf 0 2 = false
    decide
  have hstat : (s.compAt q a status).status = status := rfl
  have hwait : (s.compAt q a status).wait = false := rfl
  generalize s.compAt q a status = c at *
  generalize s.setHostq q { s.hostq q with fetch := none } = u at *
  have hjoin := u.joined_joined q c
  have hjpend : ((u.joined q c).hostq q).pend = [c] := by
    rw [hjoin.hostq, hhost]
    exact congrArg (· ++ [c]) hpend
  have hfin : u.finishQ q c = (u.joined q c).haltQ q c true := by
    rw [u.finishQ_eq q c, hhost, hpend]
    exact State.drainQ_halts _ 0 hjpend hwait (by omega)
  rw [hfin]
  have hword : ∀ off, off ≠ 0x700114 → (u.joined q c).regs.word off = s.regs.word off := fun off ho =>
    (hjoin.word off ho).trans (congrArg (fun r : RegTab => r.word off) hregs)
  refine (hset.trans (hjoin.only.mono (by simp [fetchFailFlds]))).trans (State.haltQ_only ?_ ?_ ?_ ?_ hctl)
  · rw [hjoin.hostq, hhost]
    exact hrecd
  · rw [hmark]
    exact hrecd
  · rw [hmark]
    exact RegTab.fld_congr (hword _ (by simp only [F.DMA_QC_OFFSET_BYTES]; omega))
  · rw [hmark]
    exact RegTab.fld_congr (hword _ (by simp only [F.DMA_QC_HOLD_BITS]; omega))

end

end

/-- The only completion that waits comes with its read-back. -/
theorem readbackCompletion_completes {q : Fin 1024} {c : Comp} {s : State} (hpend : (s.hostq q).pend = [c]) (hwait : c.wait = true)
    (hst : c.status = 0) (hrel : c.rel = none) (hlatch : c.latch = none) :
    ∃ t, exec (.readbackCompletion q) s = .next t ∧ (t.hostq q).pend = [] ∧
      t.get (F.DMA_QC_DONE_CNT_COUNT q) = (s.get (F.DMA_QC_DONE_CNT_COUNT q) + 1) % 2 ^ 32 ∧
      (bitOf c.d.ctl 2 = true → ∃ rec : List Byte, rec.length = 32 ∧ .hostWrite false c.d.status rec ∈ t.out) ∧
      changesOnly [F.DMA_QC_DONE_CNT_COUNT q] s t ∧ t = { s with out := t.out, regs := t.regs, hostqs := t.hostqs, msix := t.msix } := by
  have hexec : exec (.readbackCompletion q) s = .next ((s.setHostq q { s.hostq q with pend := [{ c with wait := false }] }).drainQ q 1) := by
    simp only [exec, execReadbackCompletion, hpend, hwait]
    rfl
  refine ⟨_, hexec, ?_⟩
  have hhost := s.setHostq_hostq_same q { s.hostq q with pend := [{ c with wait := false }] }
  have honly : changesOnly [F.DMA_QC_DONE_CNT_COUNT q] s (s.setHostq q { s.hostq q with pend := [{ c with wait := false }] }) :=
    (changesOnly.refl _ s).parts rfl rfl rfl rfl
  have hframe : s.setHostq q { s.hostq q with pend := [{ c with wait := false }] } =
    { s with hostqs := (s.setHostq q { s.hostq q with pend := [{ c with wait := false }] }).hostqs } := rfl
  generalize s.setHostq q { s.hostq q with pend := [{ c with wait := false }] } = u at *
  obtain ⟨v, hv, hdrain, hcomp⟩ := u.drainQ_single 0 ((congrArg HostQ.pend hhost).trans rfl) (rfl : ({ c with wait := false } : Comp).wait = false) hst hlatch
    (fun r hr => by rw [show ({ c with wait := false } : Comp).rel = c.rel from rfl, hrel] at hr; cases hr)
  have hvq : v.hostq q = { u.hostq q with pend := [] } := (congrArg (fun x : State => x.hostq q) hv).trans (u.setHostq_hostq_same q _)
  have hvonly : changesOnly [F.DMA_QC_DONE_CNT_COUNT q] s v := by
    rw [hv]
    exact honly.parts rfl rfl rfl rfl
  have hvframe : v = { s with hostqs := v.hostqs } := by
    rw [hv, hframe]
    rfl
  have hvdone : v.get (F.DMA_QC_DONE_CNT_COUNT q) = s.get (F.DMA_QC_DONE_CNT_COUNT q) :=
    congrArg (fun r : RegTab => r.fld (F.DMA_QC_DONE_CNT_COUNT q)) ((congrArg State.regs hvframe).trans rfl)
  clear hv
  rw [hdrain]
  obtain ⟨hlast, hlframe⟩ := hcomp.only hrel
  refine ⟨?_, ?_, hcomp.record, hvonly.trans hlast, ?_⟩
  · rw [hcomp.hostq, hvq]
  · rw [hcomp.done, hvdone]
  · rw [hlframe, hvframe]

/-- Settles O36: the bursts of a RECORD keep REC at the record's number; RELEASE drops the record and goes on; a read-back that has
returned completes the only waiting descriptor; a failed request halts its queue, and what it halts at tells the error. -/
theorem recordsReleaseAndErrorsHalt : Obligations.RecordsReleaseAndErrorsHalt := by
  unfold Obligations.RecordsReleaseAndErrorsHalt
  refine ⟨fun q s => ⟨fun h => ?_, fun h => ?_, fun hbind hrec => ⟨?_, ?_⟩, fun hw hpick hask => ?_,
    fun d l r hw hbind hrec hg hpend hidle hout hask => ?_, fun d r hw hbind hrec hg hpend hhops => ?_⟩,
    fun q c s => ⟨fun h => ?_, fun hpend hwait hst hrel hlatch => ?_⟩,
    fun q req s => ⟨fun h => ⟨?_, ?_⟩, fun b a again hsince hfetch hrecd hback hwrote => ⟨?_, ?_⟩, fun a again b hsince hf hpend hrecd => ?_⟩⟩
  · exact congrArg Host.Outcome.next (by simp only [State.runDesc, h])
  · exact congrArg Host.Outcome.next (by simp only [h])
  · refine congrArg Host.Outcome.next ?_
    unfold State.runDesc
    split
    · rfl
    · next d l hw =>
      obtain ⟨hcur, hst, hop, hbad⟩ := State.work_eq hw
      have hplan : s.plan q = .wait := by
        rw [State.plan_eq hcur hst hbad, show d.op = 3 from hop]
        simp only [State.recPlan, hbind, hrec]
        rfl
      rw [hplan]
  · refine congrArg Host.Outcome.next ?_
    split
    · rw [if_neg (by simp [hbind]), hrec]
    · rfl
  · exact congrArg Host.Outcome.next (State.runDesc_refused hw hpick hask)
  · have hsent := State.runDesc_record q.isLt hw hbind hrec hg hpend hidle hout hask
    exact ⟨_, rfl, hsent.num, hsent.other, memSame_of_fields ((congrArg State.store hsent.only.frame).trans rfl)
      ((congrArg State.flash hsent.only.frame).trans rfl), hsent.only.frame⟩
  · obtain ⟨-, hst, -, -⟩ := State.work_eq hw
    generalize hc : ({ s.compOf q d none 0 with num := some r.num, rel := some (r.g, r.num) } : Comp) = c
    have hwent := s.release_wentOn q.isLt hc.symm hst hg hpend hhops
    have hdrop := s.dropRec_dropped q
    have hmem := State.doneQ_mem (s.recReleased q r.num) q c
    have hnext : c.d.next = d.next := by rw [← hc]; rfl
    refine ⟨_, (exec_descRelease hw hbind hrec).trans (by rw [hc]), ?_, ?_, ?_, ?_, hnext ▸ hwent.fetch, fun k hk => ?_, ?_⟩
    · refine (RegTab.wide_congr 2 _ (fun j h1 h2 => hwent.word j ?_ ?_ ?_ ?_ ?_)).trans (State.getN_putN_mod _ _ _ rfl)
      all_goals simp only [R.DMA_QC_REC, R.DMA_QC_DONE_CNT, R.DMA_QC_HOPS, R.DMA_QC_CUR] at h1 h2 ⊢
      all_goals omega
    · refine Eq.trans (RegTab.fld_congr (hwent.word _ ?_ ?_ ?_ ?_ ?_)) ((RegTab.fld_setWide_beside _ _ (.of rfl ?_)).trans hdrop.offset)
      all_goals simp only [F.DMA_QC_OFFSET_BYTES, R.DMA_QC_REC, R.DMA_QC_DONE_CNT, R.DMA_QC_HOPS, R.DMA_QC_CUR]
      all_goals omega
    · exact hwent.recd.trans ((congrArg HostQ.recd hdrop.hostq).trans rfl)
    · rw [hwent.done, s.recReleased_get (q := q) (f := F.DMA_QC_DONE_CNT_COUNT q) _ (.of rfl (by omega)) (by simp only [F.DMA_QC_DONE_CNT_COUNT]; omega)
        (.of rfl (by omega)) (.of rfl (by omega)) (.of rfl (by omega)) (.of rfl (by simp only [R.DMA_QC_REC]; omega))]
    · exact (hwent.other k hk).trans (hdrop.other k hk)
    · exact memSame_of_fields (hmem.2.1.trans ((congrArg State.store hdrop.share.frame).trans rfl))
        (hmem.2.2.trans ((congrArg State.flash hdrop.share.frame).trans rfl))
  · exact congrArg Host.Outcome.next (by simp only [h])
  · exact readbackCompletion_completes hpend hwait hst hrel hlatch
  · exact congrArg Host.Outcome.next (by simp only [h])
  · exact congrArg Host.Outcome.next (by simp only [h])
  · have hexec : exec (.completionTimeout ⟨q, req⟩) s = .next (((s.timedOut (b + s.ctoCycles)).failQ q 3 req).emit
        (.aer (s.get (F.DMA_Q_OWNER_FUNC q)) 1)) := congrArg Host.Outcome.next (by simp only [hsince]; rfl)
    have hlocus : (s.timedOut (b + s.ctoCycles)).locusQ q = s.locusQ q := State.locusQ_congr (RegTab.word_setFld_other _ _ _ _ (by decide))
    obtain ⟨hstate, herr, hflag, hlcnt, hcur, hseen, hnone, hout, hmem⟩ := State.failQ_reported (s := s.timedOut (b + s.ctoCycles)) q.isLt (b := b)
      hsince (status := 3) (by omega) hfetch (fun c rest h1 h2 => (hback c rest h1 h2).1) (fun c h1 h2 => (hwrote c h1 h2).1)
      (f := F.DMA_STATUS_TIMEOUT_SEEN) rfl (RegTab.bit_setFld_one _ (.of rfl (by omega))) (.aer (s.get (F.DMA_Q_OWNER_FUNC q)) 1)
    exact ⟨_, hexec, hstate, herr, hflag, hlcnt, hcur, hlocus ▸ hseen, hnone, hout, memSame_trans (memSame_of_fields rfl rfl) hmem⟩
  · have hexec : exec (.completionUr ⟨q, req⟩) s = .next (((s.setF F.DMA_STATUS_UR_SEEN).failQ q 4 req).emit
        (.aer (s.get (F.DMA_Q_OWNER_FUNC q)) 0)) := congrArg Host.Outcome.next (by simp only [hsince]; rfl)
    have hlocus : (s.setF F.DMA_STATUS_UR_SEEN).locusQ q = s.locusQ q := State.locusQ_congr (RegTab.word_setFld_other _ _ _ _ (by decide))
    obtain ⟨hstate, herr, hflag, hlcnt, hcur, hseen, hnone, hout, hmem⟩ := State.failQ_reported (s := s.setF F.DMA_STATUS_UR_SEEN) q.isLt (b := b)
      hsince (status := 4) (by omega) hfetch (fun c rest h1 h2 => (hback c rest h1 h2).1) (fun c h1 h2 => (hwrote c h1 h2).1)
      (f := F.DMA_STATUS_UR_SEEN) rfl (RegTab.bit_setFld_one _ (.of rfl (by omega))) (.aer (s.get (F.DMA_Q_OWNER_FUNC q)) 0)
    exact ⟨_, hexec, hstate, herr, hflag, hlcnt, hcur, hlocus ▸ hseen, hnone, hout, memSame_trans (memSame_of_fields rfl rfl) hmem⟩
  · have hexec : exec (.completionTimeout ⟨q, .fetch⟩) s = .next (((s.timedOut (b + s.ctoCycles)).failQ q 3 .fetch).emit
        (.aer (s.get (F.DMA_Q_OWNER_FUNC q)) 1)) := congrArg Host.Outcome.next (by simp only [hsince]; rfl)
    have hfail := State.failFetch_only (s := s.timedOut (b + s.ctoCycles)) (status := 3) hf hpend hrecd (by omega)
    have hput : changesOnly [F.DMA_STATUS_TIMEOUT_SEEN] s (s.timedOut (b + s.ctoCycles)) := by
      have hat : changesOnly [F.DMA_STATUS_TIMEOUT_SEEN] s (s.at_ (b + s.ctoCycles)) := (changesOnly.refl _ s).parts rfl rfl rfl rfl
      exact hat.put (by simp)
    refine ⟨_, hexec, ?_⟩
    generalize s.timedOut (b + s.ctoCycles) = u at *
    generalize u.failQ q 3 .fetch = v at *
    refine changesOnly.parts ((hput.mono (by simp)).trans (hfail.mono ?_)) rfl rfl rfl rfl
    intro f hf
    exact List.mem_cons_of_mem _ hf

end Sys2Proof.Machine
end

section
/-! SUPPORT. The log: an entry in the ring, its interrupt, the captures, and the class words (R390-R397). -/

namespace Sys2Proof.Machine

open Sys2Proof.Safety

/-! ### The ring (R391) -/

/-- A new entry stands in the ring, if under another sequence. -/
theorem mem_logInsert (n : Nat) (e : LogEnt) (l : List LogEnt) : ∃ x ∈ logInsert n e l, x.lcnt = e.lcnt ∧ x.code = e.code ∧
    x.locus = e.locus ∧ x.data = e.data := by
  induction n generalizing e l with
  | zero => exact ⟨e, by simp [logInsert], rfl, rfl, rfl, rfl⟩
  | succ n ih =>
    cases l with
    | nil => exact ⟨e, by simp [logInsert], rfl, rfl, rfl, rfl⟩
    | cons h rest =>
      rw [logInsert]
      split
      · obtain ⟨x, hx, hl⟩ := ih { e with seq := h.seq } rest
        exact ⟨x, List.mem_cons_of_mem _ hx, hl⟩
      · exact ⟨e, List.mem_cons_self, rfl, rfl, rfl, rfl⟩

theorem length_logInsert (n : Nat) (e : LogEnt) (l : List LogEnt) : (logInsert n e l).length = l.length + 1 := by
  induction n generalizing e l with
  | zero => rfl
  | succ n ih =>
    cases l with
    | nil => rfl
    | cons h rest =>
      rw [logInsert]
      split
      · rw [List.length_cons, ih, List.length_cons]
      · rfl

/-- An entry is kept where the ring has room, and where it is the newest. -/
theorem mem_take_logInsert {n : Nat} {e : LogEnt} {l : List LogEnt} (h : l.length < 4096 ∨ n = 0) : ∃ x ∈ (logInsert n e l).take 4096,
    x.lcnt = e.lcnt ∧ x.code = e.code ∧ x.locus = e.locus ∧ x.data = e.data := by
  obtain h | rfl := h
  · rw [List.take_of_length_le (by rw [length_logInsert]; omega)]
    exact mem_logInsert n e l
  · exact ⟨e, by simp [logInsert], rfl, rfl, rfl, rfl⟩

/-! ### What an entry does beside the ring (R393, R395-R397) -/

/-- An entry's acts but its interrupt: no vector is signalled, and only LOG_STATUS, the nest counter and the captures change. -/
structure LogQuiet (s t : State) : Prop where
  word : ∀ off < 0xF00080, off ≠ 0xF00004 → off ≠ 0xF00018 → t.regs.word off = s.regs.word off
  msix : t.msix = s.msix
  signalled : t.log.signalled = s.log.signalled
  count : ∀ fn vec, t.out.count (.msix fn vec) = s.out.count (.msix fn vec)

theorem LogQuiet.refl (s : State) : LogQuiet s s := ⟨fun _ _ _ _ => rfl, rfl, rfl, fun _ _ => rfl⟩

theorem LogQuiet.trans {s t u : State} (h : LogQuiet s t) (k : LogQuiet t u) : LogQuiet s u :=
  ⟨fun off h1 h2 h3 => (k.word off h1 h2 h3).trans (h.word off h1 h2 h3), k.msix.trans h.msix, k.signalled.trans h.signalled,
    fun fn vec => (k.count fn vec).trans (h.count fn vec)⟩

theorem LogQuiet.ite {s t u : State} {c : Prop} [Decidable c] (h : LogQuiet s t) (k : LogQuiet s u) : LogQuiet s (if c then t else u) := by
  split
  · exact h
  · exact k

section
variable (s : State)

theorem State.put_quiet {f : Fld} {v : Nat} (hf : f.off = 0xF00004 ∨ f.off = 0xF00018) : LogQuiet s (s.put f v) :=
  ⟨fun off _ h2 h3 => RegTab.word_setFld_other _ _ _ _ (by omega), rfl, rfl, fun _ _ => rfl⟩

theorem State.putN_quiet {off n v : Nat} (ho : 0xF00080 ≤ off) : LogQuiet s (s.putN off n v) :=
  ⟨fun j h1 _ _ => RegTab.word_setWide_other _ _ _ _ _ (by omega), rfl, rfl, fun _ _ => rfl⟩

theorem State.errN_quiet : LogQuiet s s.errN := by
  unfold State.errN
  dsimp only
  refine .ite (.refl s) ((s.put_quiet (.inl rfl)).trans ⟨fun _ _ _ _ => rfl, rfl, rfl, fun fn vec => ?_⟩)
  exact List.count_cons_of_ne (by simp)

theorem State.capture_quiet (e : LogEnt) : LogQuiet s (s.capture e) := by
  unfold State.capture
  dsimp only
  refine .ite ?_ ((s.putN_quiet (by decide)).trans (State.put_quiet _ (.inl rfl)))
  have hnest : LogQuiet s (s.incSat F.LOG_NEST_CNT_COUNT) := s.put_quiet (.inr rfl)
  exact .ite ((hnest.trans (State.putN_quiet _ (by decide))).trans (State.putN_quiet _ (by decide)))
    (hnest.trans (State.putN_quiet _ (by decide)))

/-- FATAL is noted, and the twin's handover asked for. -/
def State.fatalNoted (s : State) : State :=
  let t := s.setF F.LOG_STATUS_FATAL
  let t := { t with log := { t.log with fatalCond := true } }
  if t.get F.TWIN_STATUS_ROLE = 1 ∧ t.flag F.GLOBAL_STATE_TWIN_PAIRED then { t with twin := { t.twin with handoverTx := true } } else t

/-- An entry's acts but its interrupt. -/
def State.logNoted (s : State) (cls : Nat) (e : LogEnt) : State :=
  let s1 := if cls = 1 then s.setF F.LOG_STATUS_WARN_SEEN else s
  let s2 := if 2 ≤ cls then s1.capture e else s1
  (if cls = 3 then s2.fatalNoted else s2).errN

theorem State.logAct_eq (cls : Nat) (e : LogEnt) : s.logAct cls e =
    if (s.logNoted cls e).flag F.LOG_CTRL_IRQ_EN ∧ (s.logNoted cls e).get F.LOG_CTRL_IRQ_CLASS ≤ cls ∧ (s.logNoted cls e).log.signalled = false then
      { ((s.logNoted cls e).signal 0 ((s.logNoted cls e).get F.LOG_CTRL_VEC)) with log := { (s.logNoted cls e).log with signalled := true } }
    else s.logNoted cls e := rfl

theorem State.logNoted_quiet (cls : Nat) (e : LogEnt) : LogQuiet s (s.logNoted cls e) := by
  unfold State.logNoted
  extract_lets s1 s2
  have h1 : LogQuiet s s1 := .ite (s.put_quiet (.inl rfl)) (.refl s)
  have h2 : LogQuiet s1 s2 := .ite (s1.capture_quiet e) (.refl s1)
  have hfatal : LogQuiet s2 s2.fatalNoted := by
    have hset : LogQuiet s2 (s2.setF F.LOG_STATUS_FATAL) := s2.put_quiet (.inl rfl)
    unfold State.fatalNoted
    dsimp only
    exact .ite (hset.trans ⟨fun _ _ _ _ => rfl, rfl, rfl, fun _ _ => rfl⟩) (hset.trans ⟨fun _ _ _ _ => rfl, rfl, rfl, fun _ _ => rfl⟩)
  have h3 : LogQuiet s2 (if cls = 3 then s2.fatalNoted else s2) := .ite hfatal (.refl s2)
  exact ((h1.trans h2).trans h3).trans (State.errN_quiet _)

/-- A vector that is signalled leaves, or waits while it is masked. -/
theorem State.signal_effect (fn vec : Nat) : (s.msix.masked fn vec = false → (s.signal fn vec).out.head? = some (.msix fn vec)) ∧
    (s.msix.masked fn vec = true → (fn, vec) ∈ (s.signal fn vec).msix.pba) := by
  unfold State.signal
  refine ⟨fun h => by rw [if_neg (by simp [h])]; rfl, fun h => ?_⟩
  rw [if_pos h]
  split
  · next hc => exact List.contains_iff_mem.mp hc
  · exact List.mem_append_right _ (List.mem_singleton.mpr rfl)

end

/-! ### An entry is written (R390, R391, R394, R397) -/

section
variable (s : State) (lc code locus data : Nat)

/-- A sequence is taken, and the ring's overflow counted. -/
def State.logNumbered (s : State) (full : Prop) [Decidable full] : State :=
  if full then ((s.incWrap F.LOG_WR_SEQ_SEQ).incSat F.LOG_OVF_CNT_COUNT).setF F.LOG_STATUS_OVF else s.incWrap F.LOG_WR_SEQ_SEQ

theorem State.logNumbered_effect (full : Prop) [Decidable full] :
    (s.logNumbered full).get F.LOG_WR_SEQ_SEQ = (s.get F.LOG_WR_SEQ_SEQ + 1) % 2 ^ 32 ∧
    (s.logNumbered full).get F.LOG_SUPPR_CNT_COUNT = s.get F.LOG_SUPPR_CNT_COUNT ∧
    (s.logNumbered full).regs.word 0xF00000 = s.regs.word 0xF00000 ∧ s.logNumbered full = { s with regs := (s.logNumbered full).regs } := by
  have hseq : (s.incWrap F.LOG_WR_SEQ_SEQ).get F.LOG_WR_SEQ_SEQ = (s.get F.LOG_WR_SEQ_SEQ + 1) % 2 ^ 32 :=
    State.get_incWrap_width (w := 32) _ F.LOG_WR_SEQ_SEQ (.of rfl (by omega)) rfl
  have hword : ∀ off, off ≠ 0xF0000C → (s.incWrap F.LOG_WR_SEQ_SEQ).regs.word off = s.regs.word off := fun off ho => RegTab.word_setFld_other _ _ _ _ ho
  have hframe : s.incWrap F.LOG_WR_SEQ_SEQ = { s with regs := (s.incWrap F.LOG_WR_SEQ_SEQ).regs } := rfl
  unfold State.logNumbered
  generalize s.incWrap F.LOG_WR_SEQ_SEQ = u at *
  have hover : ∀ off, off ≠ 0xF00010 → off ≠ 0xF00004 →
      ((u.incSat F.LOG_OVF_CNT_COUNT).setF F.LOG_STATUS_OVF).regs.word off = u.regs.word off := fun off h1 h2 =>
    (RegTab.word_setFld_other _ _ _ _ h2).trans (RegTab.word_setFld_other _ _ _ _ h1)
  have hoframe : (u.incSat F.LOG_OVF_CNT_COUNT).setF F.LOG_STATUS_OVF = { u with regs := ((u.incSat F.LOG_OVF_CNT_COUNT).setF F.LOG_STATUS_OVF).regs } := rfl
  generalize (u.incSat F.LOG_OVF_CNT_COUNT).setF F.LOG_STATUS_OVF = v at *
  split
  · refine ⟨(RegTab.fld_congr (hover _ (by decide) (by decide))).trans hseq, RegTab.fld_congr ((hover _ (by decide) (by decide)).trans (hword _ (by decide))),
      (hover _ (by decide) (by decide)).trans (hword _ (by decide)), ?_⟩
    rw [hoframe, hframe]
  · exact ⟨hseq, RegTab.fld_congr (hword _ (by decide)), hword _ (by decide), hframe⟩

/-- The entry of an event. -/
def State.logEntry (s : State) (lc code locus data : Nat) : LogEnt :=
  ⟨lc, (s.epochAt lc).num, code, locus, data % 2 ^ 96, s.get F.LOG_WR_SEQ_SEQ⟩

/-- Entries written in this core cycle. -/
def State.cycEntries (s : State) : Nat := if s.log.cyc = s.lcnt then s.log.cycN else 0

/-- What an entry leaves of the log's own state. -/
def State.logKept (s u : State) (ring : List LogEnt) (uncopied code locus : Nat) : State :=
  { u with log := { u.log with ring := ring.take 4096, uncopied := uncopied, seen := (code, locus) :: s.log.seen, cyc := s.lcnt, cycN := s.cycEntries + 1 } }

theorem State.post_fresh (h : (code, locus) ∉ s.log.seen ∨ code = 0x0C01 ∨ code = 0x0C02) : ∃ placed uncopied, s.post lc code locus data =
    s.logKept ((s.logNumbered (4096 < (logInsert s.cycEntries (s.logEntry lc code locus data) s.log.ring).length)).logAct (s.logClass code) placed)
      (logInsert s.cycEntries (s.logEntry lc code locus data) s.log.ring) uncopied code locus := by
  refine ⟨_, _, (if_neg fun hs => ?_).trans rfl⟩
  obtain ⟨h1, h2, h3⟩ := hs
  obtain h | h | h := h
  · exact h h3
  · exact h1 h
  · exact h2 h

/-- An entry that interrupts, and one that does not. -/
theorem State.logAct_interrupts {u : State} (cls : Nat) (e : LogEnt) (hctrl : u.regs.word 0xF00000 = s.regs.word 0xF00000) (hlog : u.log = s.log)
    (hmsix : u.msix = s.msix) (hout : u.out = s.out) :
    (s.flag F.LOG_CTRL_IRQ_EN = true → s.get F.LOG_CTRL_IRQ_CLASS ≤ cls → s.log.signalled = false →
      (u.logAct cls e).log.signalled = true ∧
      (s.msix.masked 0 (s.get F.LOG_CTRL_VEC) = false → (u.logAct cls e).out.head? = some (.msix 0 (s.get F.LOG_CTRL_VEC))) ∧
      (s.msix.masked 0 (s.get F.LOG_CTRL_VEC) = true → (0, s.get F.LOG_CTRL_VEC) ∈ (u.logAct cls e).msix.pba)) ∧
    (s.flag F.LOG_CTRL_IRQ_EN = false ∨ cls < s.get F.LOG_CTRL_IRQ_CLASS ∨ s.log.signalled = true →
      (∀ fn vec, (u.logAct cls e).out.count (.msix fn vec) = s.out.count (.msix fn vec)) ∧ (u.logAct cls e).log.signalled = s.log.signalled) := by
  rw [State.logAct_eq]
  obtain ⟨hword, hmsix', hsig, hcount⟩ := u.logNoted_quiet cls e
  have hfld : ∀ f : Fld, f.off = 0xF00000 → (u.logNoted cls e).regs.fld f = s.regs.fld f := fun f hf =>
    RegTab.fld_congr (by rw [hf]; exact (hword _ (by decide) (by decide) (by decide)).trans hctrl)
  generalize u.logNoted cls e = v at *
  have hen : v.flag F.LOG_CTRL_IRQ_EN = s.flag F.LOG_CTRL_IRQ_EN := RegTab.bit_congr (hfld _ rfl)
  have hclass : v.get F.LOG_CTRL_IRQ_CLASS = s.get F.LOG_CTRL_IRQ_CLASS := hfld _ rfl
  have hvec : v.get F.LOG_CTRL_VEC = s.get F.LOG_CTRL_VEC := hfld _ rfl
  have hvsig : v.log.signalled = s.log.signalled := by rw [hsig, hlog]
  have hvmsix : v.msix = s.msix := hmsix'.trans hmsix
  rw [hen, hclass, hvec, hvsig]
  refine ⟨fun h1 h2 h3 => ?_, fun h => ?_⟩
  · rw [if_pos ⟨h1, h2, h3⟩]
    obtain ⟨hopen, hmask⟩ := v.signal_effect 0 (s.get F.LOG_CTRL_VEC)
    rw [hvmsix] at hopen hmask
    exact ⟨rfl, hopen, hmask⟩
  · rw [if_neg (fun hall => by
      obtain ⟨h1, h2, h3⟩ := hall
      obtain h | h | h := h
      · rw [h] at h1; cases h1
      · omega
      · rw [h] at h3; cases h3)]
    exact ⟨fun fn vec => by rw [hcount, hout], hvsig⟩

/-- Numbers that an entry's acts leave alone. -/
theorem State.logAct_get (cls : Nat) (e : LogEnt) {f : Fld} (h1 : f.off < 0xF00080) (h2 : f.off ≠ 0xF00004) (h3 : f.off ≠ 0xF00018) :
    (s.logAct cls e).get f = s.get f := by
  have hquiet := (s.logNoted_quiet cls e).word f.off h1 h2 h3
  rw [State.logAct_eq]
  split
  · exact (RegTab.fld_congr (congrArg (fun r : RegTab => r.word f.off) (State.regs_signal _ _ _))).trans (RegTab.fld_congr hquiet)
  · exact RegTab.fld_congr hquiet

theorem State.post_suppressed (h : (code, locus) ∈ s.log.seen) (h1 : code ≠ 0x0C01) (h2 : code ≠ 0x0C02) :
    s.post lc code locus data = s.incSat F.LOG_SUPPR_CNT_COUNT := if_pos ⟨h1, h2, h⟩

theorem State.post_written (h : (code, locus) ∉ s.log.seen ∨ code = 0x0C01 ∨ code = 0x0C02) : ∃ t e, s.post lc code locus data = t ∧
    t.get F.LOG_WR_SEQ_SEQ = (s.get F.LOG_WR_SEQ_SEQ + 1) % 2 ^ 32 ∧ t.log.seen = (code, locus) :: s.log.seen ∧
    (s.log.ring.length < 4096 ∨ s.log.cyc ≠ s.lcnt → e ∈ t.log.ring ∧ e.lcnt = lc ∧ e.code = code ∧ e.locus = locus ∧
      e.data = data % 2 ^ 96) ∧
    t.get F.LOG_SUPPR_CNT_COUNT = s.get F.LOG_SUPPR_CNT_COUNT ∧ changesOnly logFlds s t ∧
    (s.flag F.LOG_CTRL_IRQ_EN = true → s.get F.LOG_CTRL_IRQ_CLASS ≤ s.logClass code → s.log.signalled = false →
      t.log.signalled = true ∧
      (s.msix.masked 0 (s.get F.LOG_CTRL_VEC) = false → t.out.head? = some (.msix 0 (s.get F.LOG_CTRL_VEC))) ∧
      (s.msix.masked 0 (s.get F.LOG_CTRL_VEC) = true → (0, s.get F.LOG_CTRL_VEC) ∈ t.msix.pba)) ∧
    (s.flag F.LOG_CTRL_IRQ_EN = false ∨ s.logClass code < s.get F.LOG_CTRL_IRQ_CLASS ∨ s.log.signalled = true →
      (∀ fn vec, t.out.count (.msix fn vec) = s.out.count (.msix fn vec)) ∧ t.log.signalled = s.log.signalled) := by
  have honly : changesOnly logFlds s (s.post lc code locus data) := (changesOnly.refl logFlds s).post (fun _ h => h)
  obtain ⟨placed, uncopied, hpost⟩ := s.post_fresh lc code locus data h
  obtain ⟨hseq, hsuppr, hctrl, hframe⟩ := s.logNumbered_effect (4096 < (logInsert s.cycEntries (s.logEntry lc code locus data) s.log.ring).length)
  have hroom : s.log.ring.length < 4096 ∨ s.log.cyc ≠ s.lcnt →
      ∃ x ∈ (logInsert s.cycEntries (s.logEntry lc code locus data) s.log.ring).take 4096, x.lcnt = lc ∧ x.code = code ∧ x.locus = locus ∧ x.data = data % 2 ^ 96 :=
    fun hr => mem_take_logInsert (hr.imp id fun hc => if_neg hc)
  generalize logInsert s.cycEntries (s.logEntry lc code locus data) s.log.ring = ring at *
  generalize s.logNumbered (4096 < ring.length) = u at *
  obtain ⟨hirq, hquiet⟩ := s.logAct_interrupts (s.logClass code) placed hctrl ((congrArg State.log hframe).trans rfl)
    ((congrArg State.msix hframe).trans rfl) ((congrArg State.out hframe).trans rfl)
  have hseq' : (u.logAct (s.logClass code) placed).get F.LOG_WR_SEQ_SEQ = (s.get F.LOG_WR_SEQ_SEQ + 1) % 2 ^ 32 :=
    (u.logAct_get _ _ (by decide) (by decide) (by decide)).trans hseq
  have hsuppr' : (u.logAct (s.logClass code) placed).get F.LOG_SUPPR_CNT_COUNT = s.get F.LOG_SUPPR_CNT_COUNT :=
    (u.logAct_get _ _ (by decide) (by decide) (by decide)).trans hsuppr
  generalize u.logAct (s.logClass code) placed = v at *
  rw [hpost] at honly
  by_cases hr : s.log.ring.length < 4096 ∨ s.log.cyc ≠ s.lcnt
  · obtain ⟨x, hx, hxs⟩ := hroom hr
    exact ⟨_, x, hpost, hseq', rfl, fun _ => ⟨hx, hxs⟩, hsuppr', honly, hirq, hquiet⟩
  · exact ⟨_, placed, hpost, hseq', rfl, fun hc => absurd hc hr, hsuppr', honly, hirq, hquiet⟩

end

end Sys2Proof.Machine
end

section
/-! SUPPORT. Finding a register's card by its range of offsets; the log's class words, its clears and its reads (R8, R27, R391-R396). -/

namespace Sys2Proof.Machine

open Sys2Proof.Safety

/-! ### Cards of a range of offsets (R27) -/

/-- A card may have a register at an offset from lo up to hi. -/
def Card.meets (lo hi : Nat) (c : Card) : Bool := match c.dims with
  | [] => decide (lo < c.base + 4 * c.words.length) && decide (c.base < hi)
  | d :: _ => d.1 == 0 || (decide (lo < c.base + d.1 * d.2) && decide (c.base < hi))

theorem Card.wordAt_of_apart {c : Card} {lo hi off : Nat} (h : c.meets lo hi = false) (h1 : lo ≤ off) (h2 : off < hi) : c.wordAt off = none := by
  unfold Card.wordAt
  split
  · rfl
  · next hb =>
    have hplace : Card.place c.dims c.words.length (off - c.base) = none := by
      unfold Card.meets at h
      split at h
      · next hd =>
        rw [hd, Card.place]
        simp only [Bool.and_eq_false_iff, decide_eq_false_iff_not] at h
        exact if_neg (by omega)
      · next d ds hd =>
        rw [hd, Card.place]
        simp only [Bool.or_eq_false_iff, Bool.and_eq_false_iff, decide_eq_false_iff_not, beq_eq_false_iff_ne] at h
        obtain ⟨h0, h⟩ := h
        refine if_neg (fun hlt => ?_)
        have := (Nat.div_lt_iff_lt_mul (Nat.pos_of_ne_zero h0)).mp hlt
        rw [Nat.mul_comm] at this
        omega
    rw [hplace]

/-- Only the cards that meet a range matter for its registers. -/
theorem wordAtIn_filter {lo hi off : Nat} (h1 : lo ≤ off) (h2 : off < hi) (cs : List Card) :
    wordAtIn cs off = wordAtIn (cs.filter (Card.meets lo hi)) off := by
  induction cs with
  | nil => rfl
  | cons c rest ih =>
    cases h : c.meets lo hi with
    | true =>
      rw [List.filter_cons_of_pos h, wordAtIn, wordAtIn, ih]
    | false =>
      rw [List.filter_cons_of_neg (by simp [h]), wordAtIn, Card.wordAt_of_apart h h1 h2]
      exact ih

/-- The card of the log's classes. -/
def logClassCard : Card := ⟨0xF01000, [(0x40, 256), (0x4, 16)], [⟨0, 0, 0xFFFFFFFF, 0, 0, 0, 0x0⟩]⟩

theorem cards_logClass : cards.filter (Card.meets 0xF01000 0xF05000) = [logClassCard] := by decide +kernel

theorem masksAt_logClass {i : Nat} (hi : i < 4096) : masksAt (0xF01000 + 4 * i) = ⟨0, 0, 0xFFFFFFFF, 0, 0, 0, 0x0⟩ := by
  have hword : logClassCard.wordAt (0xF01000 + 4 * i) = some ⟨0, 0, 0xFFFFFFFF, 0, 0, 0, 0x0⟩ := by
    have hrem : 0xF01000 + 4 * i - logClassCard.base = 4 * i := by
      show 0xF01000 + 4 * i - 0xF01000 = 4 * i
      omega
    have hplace : Card.place logClassCard.dims logClassCard.words.length (4 * i) = some 0 := by
      show Card.place [(0x40, 256), (0x4, 16)] 1 (4 * i) = some 0
      have hlast : 4 * i % 0x40 % 0x4 = 0 := by omega
      simp only [Card.place]
      rw [if_pos (by omega), if_pos (by omega), if_pos (by omega), hlast]
    rw [Card.wordAt, if_neg (by show ¬(0xF01000 + 4 * i < 0xF01000); omega), hrem, hplace]
    rfl
  rw [masksAt, wordAt, wordAtIn_filter (lo := 0xF01000) (hi := 0xF05000) (by omega) (by omega), cards_logClass, wordAtIn, hword]
  rfl

/-! ### LOG_CLASS (R393) -/

/-- A class as a write leaves it: FATAL stays where it stands, and is taken nowhere else. -/
def classOf (code old x : Nat) : Nat := if logResetClass code = 3 then 3 else if x = 3 then old else x

theorem classMix_digit (n : Nat) : ∀ (code old v j : Nat), j < n →
    classMix code old v n / 4 ^ j % 4 = classOf (code + j) (old / 4 ^ j % 4) (v / 4 ^ j % 4) := by
  induction n with
  | zero => intro _ _ _ j h; omega
  | succ n ih =>
    intro code old v j h
    have hfirst : classOf code (old % 4) (v % 4) < 4 := by
      unfold classOf
      split
      · omega
      · split <;> omega
    have hmix : classMix code old v (n + 1) = classOf code (old % 4) (v % 4) + 4 * classMix (code + 1) (old / 4) (v / 4) n := rfl
    rw [hmix]
    cases j with
    | zero =>
      simp only [Nat.pow_zero, Nat.div_one, Nat.add_zero]
      omega
    | succ j =>
      rw [Nat.pow_succ, Nat.mul_comm (4 ^ j) 4, ← Nat.div_div_eq_div_mul, ← Nat.div_div_eq_div_mul, ← Nat.div_div_eq_div_mul,
        Nat.add_mul_div_left _ _ (by omega), Nat.div_eq_of_lt hfirst, Nat.zero_add, ih _ _ _ j (by omega),
        show code + 1 + j = code + (j + 1) by omega]

theorem classMix_lt (n : Nat) : ∀ code old v : Nat, classMix code old v n < 4 ^ n := by
  induction n with
  | zero => intro _ _ _; exact Nat.one_pos
  | succ n ih =>
    intro code old v
    have h := ih (code + 1) (old / 4) (v / 4)
    have hmix : classMix code old v (n + 1) = classOf code (old % 4) (v % 4) + 4 * classMix (code + 1) (old / 4) (v / 4) n := rfl
    have hfirst : classOf code (old % 4) (v % 4) < 4 := by
      unfold classOf
      split
      · omega
      · split <;> omega
    rw [hmix, Nat.pow_succ]
    omega

theorem mixWord_all (w v : Word) : mixWord 0xFFFFFFFF w v = v := by
  have hm : BitVec.ofNat 32 0xFFFFFFFF = BitVec.allOnes 32 := by decide
  unfold mixWord
  dsimp only
  rw [hm, BitVec.not_allOnes, BitVec.and_zero, BitVec.zero_or, BitVec.and_allOnes]

section
variable {s : State} {i : Nat}

/-- A class word as a write leaves it. -/
def State.classWritten (s : State) (i : Nat) (v : Word) : Word :=
  BitVec.ofNat 32 (classMix (16 * i) (s.shadowWord (0xF01000 + 4 * i)).toNat v.toNat 16)

/-- A class word has taken its classes in the shadow set. -/
def State.classStaged (s : State) (i : Nat) (v : Word) : State := { s with shadow := Tab.set s.shadow (0xF01000 + 4 * i) (s.classWritten i v) }

theorem State.shadowWord_classStaged (v : Word) : (s.classStaged i v).shadowWord (0xF01000 + 4 * i) = s.classWritten i v := Tab.get_set_same _ _ _ _

theorem State.toNat_classWritten (v : Word) {j : Nat} (hj : j < 16) : (s.classWritten i v).toNat / 4 ^ j % 4 =
    classOf (16 * i + j) ((s.shadowWord (0xF01000 + 4 * i)).toNat / 4 ^ j % 4) (v.toNat / 4 ^ j % 4) := by
  have hword : (s.classWritten i v).toNat = classMix (16 * i) (s.shadowWord (0xF01000 + 4 * i)).toNat v.toNat 16 := by
    have := classMix_lt 16 (16 * i) (s.shadowWord (0xF01000 + 4 * i)).toNat v.toNat
    exact Nat.mod_eq_of_lt (by omega)
  rw [hword, classMix_digit 16 _ _ _ j hj]

theorem State.rwsWrite_class (hi : i < 4096) (v : Word) (hopen : s.shadowOpen = true) :
    s.rwsWrite [(0xF01000 + 4 * i, v)] = s.classStaged i v := by
  have hport : portHere s.stagedModes (0xF01000 + 4 * i) = true := by
    rw [portHere, portOff, if_neg (by omega), if_neg (by omega)]
  have hcode : 0x100 * ((0xF01000 + 4 * i - 0xF01000) / 0x40) + 16 * ((0xF01000 + 4 * i - 0xF01000) % 0x40 / 4) = 16 * i := by omega
  have hvalue : rwsValue (0xF01000 + 4 * i) (s.shadowWord (0xF01000 + 4 * i)) v = s.classWritten i v := by
    rw [rwsValue, if_pos (by omega), hcode]
    rfl
  rw [State.rwsWrite, if_neg (by simp [masksAt_logClass hi]), if_pos hopen, List.foldl_cons, List.foldl_nil, State.rwsWord]
  dsimp only
  rw [masksAt_logClass hi, if_neg (by simp [hport]), hvalue, mixWord_all]
  rfl

theorem State.rwsWrite_ignored (hi : i < 4096) (v : Word) (hopen : s.shadowOpen = false) : s.rwsWrite [(0xF01000 + 4 * i, v)] = s.wrIgnored := by
  rw [State.rwsWrite, if_neg (by simp [masksAt_logClass hi]), if_neg (by simp [hopen])]

theorem exec_logClassWrite (hi : i < 4096) (v : Word) : exec (.logClassWrite (0xF01000 + 4 * i) v) s = .next (s.rwsWrite [(0xF01000 + 4 * i, v)]) :=
  congrArg Host.Outcome.next (if_pos (by omega))

theorem logClassWrite_staged (hi : i < 4096) (v : Word) (hcommit : s.commit = none) (hview : s.flag F.CFG_VIEW_ACTIVE = false) : ∃ t,
    exec (.logClassWrite (0xF01000 + 4 * i) v) s = .next t ∧
    (∀ j x old new, j < 16 → x = v.toNat / 4 ^ j % 4 → old = (s.shadowWord (0xF01000 + 4 * i)).toNat / 4 ^ j % 4 →
      new = (t.shadowWord (0xF01000 + 4 * i)).toNat / 4 ^ j % 4 →
      new = (if logResetClass (16 * i + j) = 3 then 3 else if x = 3 then old else x)) ∧
    (∀ j, j ≠ 0xF01000 + 4 * i → t.shadowWord j = s.shadowWord j) ∧ t = { s with shadow := t.shadow } := by
  refine ⟨_, (exec_logClassWrite hi v).trans (congrArg Host.Outcome.next (State.rwsWrite_class hi v (by simp [State.shadowOpen, hcommit, hview]))),
    fun j x old new hj hx ho hn => ?_, fun j hj => Tab.get_set_other _ _ _ _ _ hj, rfl⟩
  rw [hn, State.shadowWord_classStaged, State.toNat_classWritten v hj, ← hx, ← ho]
  rfl

theorem logClassWrite_ignored (hi : i < 4096) (v : Word) (hcommit : s.commit.isSome = true) : ∃ t,
    exec (.logClassWrite (0xF01000 + 4 * i) v) s = .next t ∧ t.flag F.CFG_STATUS_WR_IGNORED = true ∧
    t.get F.CFG_WR_IGN_CNT_COUNT = min (s.get F.CFG_WR_IGN_CNT_COUNT + 1) (2 ^ 32 - 1) ∧
    changesOnly [F.CFG_STATUS_WR_IGNORED, F.CFG_WR_IGN_CNT_COUNT] s t ∧ t = { s with regs := t.regs } := by
  have hnone : s.commit.isNone = false := by simp [Option.isNone_eq_false_iff, hcommit]
  have heq : s.wrIgnored = (s.incSat F.CFG_WR_IGN_CNT_COUNT).setF F.CFG_STATUS_WR_IGNORED := if_pos hcommit
  have hcount := State.get_incSat_width (w := 32) s (f := F.CFG_WR_IGN_CNT_COUNT) (.of rfl (by omega)) rfl
  refine ⟨_, (exec_logClassWrite hi v).trans (congrArg Host.Outcome.next ((State.rwsWrite_ignored hi v (by simp [State.shadowOpen, hnone])).trans heq)),
    RegTab.bit_setFld_one _ (.of rfl (by omega)), ?_, .put (.put (.refl _ _) (by simp)) (by simp), rfl⟩
  exact (RegTab.fld_setFld_sep _ _ (.of rfl (by omega))).trans hcount

end

/-! ### Clears (R395, R396) -/

section
variable (s : State)

theorem State.errN_effect : s.errN.flag F.LOG_STATUS_ERR_N =
      (s.flag F.LOG_STATUS_FIRST_VALID || s.flag F.LOG_STATUS_FATAL || s.flag F.GLOBAL_SELFTEST_PKG_FAIL) ∧
    (∀ f : Fld, F.LOG_STATUS_ERR_N.Sep f → s.errN.get f = s.get f) ∧ changesOnly [F.LOG_STATUS_ERR_N] s s.errN ∧
    s.errN = { s with out := s.errN.out, regs := s.errN.regs } := by
  unfold State.errN
  dsimp only
  split
  · next h => exact ⟨h.symm, fun _ _ => rfl, .refl _ _, rfl⟩
  · refine ⟨RegTab.bit_setFld_ite _ (.of rfl (by omega)) _, fun f hf => RegTab.fld_setFld_sep _ _ hf, ?_, rfl⟩
    exact changesOnly.parts (.put (.refl _ s) (by simp)) rfl rfl rfl rfl

theorem State.firstClear_effect : s.firstClear.flag F.LOG_STATUS_FIRST_VALID = false ∧ s.firstClear.get F.LOG_NEST_CNT_COUNT = 0 ∧
    s.firstClear.flag F.LOG_STATUS_ERR_N = (s.flag F.LOG_STATUS_FATAL || s.flag F.GLOBAL_SELFTEST_PKG_FAIL) ∧
    changesOnly [F.LOG_STATUS_FIRST_VALID, F.LOG_NEST_CNT_COUNT, F.LOG_STATUS_ERR_N] s s.firstClear ∧
    s.firstClear = { s with out := s.firstClear.out, regs := s.firstClear.regs } := by
  have hu : ((s.clrF F.LOG_STATUS_FIRST_VALID).put F.LOG_NEST_CNT_COUNT 0).flag F.LOG_STATUS_FIRST_VALID = false ∧
      ((s.clrF F.LOG_STATUS_FIRST_VALID).put F.LOG_NEST_CNT_COUNT 0).get F.LOG_NEST_CNT_COUNT = 0 ∧
      ((s.clrF F.LOG_STATUS_FIRST_VALID).put F.LOG_NEST_CNT_COUNT 0).flag F.LOG_STATUS_FATAL = s.flag F.LOG_STATUS_FATAL ∧
      ((s.clrF F.LOG_STATUS_FIRST_VALID).put F.LOG_NEST_CNT_COUNT 0).flag F.GLOBAL_SELFTEST_PKG_FAIL = s.flag F.GLOBAL_SELFTEST_PKG_FAIL := by
    refine ⟨?_, ?_, ?_, ?_⟩
    all_goals simp (disch := first | exact .of rfl (by omega) | omega) [State.flag, State.get]
  have honly : changesOnly [F.LOG_STATUS_FIRST_VALID, F.LOG_NEST_CNT_COUNT, F.LOG_STATUS_ERR_N] s
      ((s.clrF F.LOG_STATUS_FIRST_VALID).put F.LOG_NEST_CNT_COUNT 0) := .put (.put (.refl _ _) (by simp)) (by simp)
  have hframe : (s.clrF F.LOG_STATUS_FIRST_VALID).put F.LOG_NEST_CNT_COUNT 0 =
    { s with regs := ((s.clrF F.LOG_STATUS_FIRST_VALID).put F.LOG_NEST_CNT_COUNT 0).regs } := rfl
  unfold State.firstClear
  generalize (s.clrF F.LOG_STATUS_FIRST_VALID).put F.LOG_NEST_CNT_COUNT 0 = u at *
  obtain ⟨hvalid, hnest, hfatal, hpkg⟩ := hu
  obtain ⟨herr, hget, herronly, herrframe⟩ := u.errN_effect
  refine ⟨(RegTab.bit_congr (hget _ (.of rfl (by omega)))).trans hvalid, (hget _ (.of rfl (by omega))).trans hnest, ?_,
    honly.trans (herronly.mono (by simp)), ?_⟩
  · rw [herr, hvalid, hfatal, hpkg, Bool.false_or]
  · rw [herrframe, hframe]

theorem exec_firstClr : exec .firstClr s = .next s.firstClear := rfl

/-- FATAL clears where its condition has ended. -/
theorem exec_fatalClr_ended : ∃ t, exec (.fatalClr true) s = .next t ∧ t.flag F.LOG_STATUS_FATAL = false ∧ t.log = { s.log with fatalCond := false } ∧
    t.flag F.LOG_STATUS_ERR_N = (s.flag F.LOG_STATUS_FIRST_VALID || s.flag F.GLOBAL_SELFTEST_PKG_FAIL) ∧
    changesOnly [F.LOG_STATUS_FATAL, F.LOG_STATUS_ERR_N] s t ∧ t = { s with out := t.out, regs := t.regs, log := t.log } := by
  refine ⟨(({ s with log := { s.log with fatalCond := false } } : State).clrF F.LOG_STATUS_FATAL).errN, rfl, ?_⟩
  have hu : (({ s with log := { s.log with fatalCond := false } } : State).clrF F.LOG_STATUS_FATAL).flag F.LOG_STATUS_FATAL = false ∧
      (({ s with log := { s.log with fatalCond := false } } : State).clrF F.LOG_STATUS_FATAL).flag F.LOG_STATUS_FIRST_VALID = s.flag F.LOG_STATUS_FIRST_VALID ∧
      (({ s with log := { s.log with fatalCond := false } } : State).clrF F.LOG_STATUS_FATAL).flag F.GLOBAL_SELFTEST_PKG_FAIL =
        s.flag F.GLOBAL_SELFTEST_PKG_FAIL := by
    refine ⟨?_, ?_, ?_⟩
    all_goals simp (disch := first | exact .of rfl (by omega) | omega) [State.flag]
  have honly : changesOnly [F.LOG_STATUS_FATAL, F.LOG_STATUS_ERR_N] s (({ s with log := { s.log with fatalCond := false } } : State).clrF F.LOG_STATUS_FATAL) := by
    have hparts : changesOnly [F.LOG_STATUS_FATAL, F.LOG_STATUS_ERR_N] s { s with log := { s.log with fatalCond := false } } :=
      (changesOnly.refl _ s).parts rfl rfl rfl rfl
    exact hparts.put (by simp)
  have hframe : (({ s with log := { s.log with fatalCond := false } } : State).clrF F.LOG_STATUS_FATAL) = { s with
    regs := (({ s with log := { s.log with fatalCond := false } } : State).clrF F.LOG_STATUS_FATAL).regs
    log := { s.log with fatalCond := false } } := rfl
  generalize (({ s with log := { s.log with fatalCond := false } } : State).clrF F.LOG_STATUS_FATAL) = u at *
  obtain ⟨hfatal, hvalid, hpkg⟩ := hu
  obtain ⟨herr, hget, herronly, herrframe⟩ := u.errN_effect
  refine ⟨(RegTab.bit_congr (hget _ (.of rfl (by omega)))).trans hfatal, ?_, ?_, honly.trans (herronly.mono (by simp)), ?_⟩
  · exact ((congrArg State.log herrframe).trans rfl).trans ((congrArg State.log hframe).trans rfl)
  · rw [herr, hvalid, hfatal, hpkg, Bool.or_false]
  · rw [herrframe, hframe]

end

/-! ### Reads of the log (R391, R395) -/

theorem Tab.find?_set_other {α : Type} (t : Tab α) {k j : Nat} (v : α) (h : j ≠ k) :
    (Tab.set t k v).find? (fun p => p.1 == j) = t.find? (fun p => p.1 == j) := by
  have hk : (k == j) = false := by simpa using h.symm
  induction t with
  | nil => simp [Tab.set, hk]
  | cons p rest ih =>
    by_cases hlt : k < p.1
    · simp [Tab.set, hlt, hk]
    · by_cases heq : p.1 = k
      · simp [Tab.set, heq, hk]
      · simp [Tab.set, hlt, heq, List.find?_cons, ih]

section
variable (fn : Nat)

theorem State.latched_of_other {s t : State} {off j : Nat} {v : Word} (h : t.latch = Tab.set s.latch (latchKey fn off) v) (hj : j ≠ off) :
    t.latched fn j = s.latched fn j := by
  rw [State.latched, State.latched, h, Tab.find?_set_other _ _ (by unfold latchKey; omega)]

theorem State.latched_latchWords_before (n : Nat) : ∀ (s : State) (off v j : Nat), j < off → (s.latchWords fn off n v).latched fn j = s.latched fn j := by
  induction n with
  | zero => exact fun _ _ _ _ _ => rfl
  | succ n ih =>
    intro s off v j h
    rw [State.latchWords, ih _ _ _ _ (by omega)]
    exact State.latched_of_other fn rfl (by omega)

/-- Each word latched is what its reader finds. -/
theorem State.latched_latchWords (n : Nat) : ∀ (s : State) (off v k : Nat), k < n →
    (s.latchWords fn off n v).latched fn (off + 4 * k) = some (BitVec.ofNat 32 (v / 2 ^ (32 * k))) := by
  induction n with
  | zero => intro s off v k h; omega
  | succ n ih =>
    intro s off v k h
    rw [State.latchWords]
    cases k with
    | zero =>
      rw [State.latched_latchWords_before fn n _ _ _ _ (by omega)]
      refine (State.latched_of_set s _ fn off (BitVec.ofNat 32 v) rfl).trans ?_
      simp
    | succ k =>
      have he : off + 4 * (k + 1) = off + 4 + 4 * k := by omega
      rw [he, ih _ _ _ k (by omega), Nat.mul_succ, Nat.pow_add, Nat.mul_comm (2 ^ (32 * k)), Nat.div_div_eq_div_mul]

/-- Words 1 to 7 of a value of eight words, latched. -/
theorem State.latched_rest (s : State) (off v i : Nat) (h : i < 7) :
    (s.latchWords fn (off + 4) 7 (v / 4294967296)).latched fn (off + 4 + 4 * i) = some (BitVec.ofNat 32 (v / 2 ^ (32 * (i + 1)))) := by
  rw [State.latched_latchWords fn 7 s _ _ i h, Nat.div_div_eq_div_mul, Nat.mul_succ, Nat.pow_add, Nat.mul_comm (2 ^ (32 * i))]

end

section
variable (s : State) (fn : Fin 64)

theorem State.readWord_logRd (hfn : fn = 0) : s.readWord fn R.LOG_RD = s.logRd fn := by
  have hsees : s.sees fn R.LOG_RD = true := if_pos (by rw [hfn]; rfl)
  simp only [State.readWord, hsees, Bool.true_eq_false, if_false, if_true]
  exact if_neg (by decide)

theorem State.readWord_capture (last : Bool) (hfn : fn = 0) : s.readWord fn (if last then R.LOG_LAST_ERR else R.LOG_FIRST) =
    s.captureRd fn (if last then R.LOG_LAST_ERR else R.LOG_FIRST) := by
  have hsees : s.sees fn (if last then R.LOG_LAST_ERR else R.LOG_FIRST) = true := if_pos (by rw [hfn]; rfl)
  simp only [State.readWord, hsees, Bool.true_eq_false, if_false]
  cases last with
  | false => exact (if_neg (by decide)).trans ((if_neg (by decide)).trans (if_pos (.inl rfl)))
  | true => exact (if_neg (by decide)).trans ((if_neg (by decide)).trans (if_pos (.inr rfl)))

/-- A read of LOG_RD takes the entry that LOG_RD_SEQ names, and moves on. -/
theorem logRdRead_effect (hfn : fn = 0) : ∃ t, exec (.logRdRead fn) s = .next t ∧
    t.out = .read fn R.LOG_RD [BitVec.ofNat 32 (s.logAt (s.get F.LOG_RD_SEQ_SEQ))] :: s.out ∧
    t.get F.LOG_RD_SEQ_SEQ = (s.get F.LOG_RD_SEQ_SEQ + 1) % 2 ^ 32 ∧
    (∀ i < 7, t.latched fn (R.LOG_RD + 4 + 4 * i) = some (BitVec.ofNat 32 (s.logAt (s.get F.LOG_RD_SEQ_SEQ) / 2 ^ (32 * (i + 1))))) ∧
    changesOnly [F.LOG_RD_SEQ_SEQ] s t ∧ t = { s with out := t.out, regs := t.regs, latch := t.latch } := by
  refine ⟨_, congrArg Host.Outcome.next (State.answer_of_readWord (s.readWord_logRd fn hfn)), ?_⟩
  generalize s.logAt (s.get F.LOG_RD_SEQ_SEQ) = v
  have hlatched := State.latched_rest fn s R.LOG_RD v
  have hframe := State.latchWords_frame fn 7 s (R.LOG_RD + 4) (v / 4294967296)
  generalize s.latchWords fn (R.LOG_RD + 4) 7 (v / 4294967296) = u at *
  have hregs : u.regs = s.regs := (congrArg State.regs hframe).trans rfl
  have honly : changesOnly [F.LOG_RD_SEQ_SEQ] s (u.incWrap F.LOG_RD_SEQ_SEQ) := by
    have hu : changesOnly [F.LOG_RD_SEQ_SEQ] s u := by
      rw [hframe]
      exact (changesOnly.refl _ s).parts rfl rfl rfl rfl
    exact hu.put (by simp)
  refine ⟨congrArg (_ :: ·) ((congrArg State.out hframe).trans rfl), ?_, hlatched, honly.parts rfl rfl rfl rfl, ?_⟩
  · refine (State.get_incWrap_width (w := 32) u F.LOG_RD_SEQ_SEQ (.of rfl (by omega)) rfl).trans ?_
    rw [State.get, hregs]
    rfl
  · exact (congrArg (fun w : State => { w with out := .read fn R.LOG_RD [BitVec.ofNat 32 v] :: u.out, regs := (u.incWrap F.LOG_RD_SEQ_SEQ).regs }) hframe).trans rfl

/-- A read of a capture takes word 0, with the others latched. -/
theorem logFirstRead_effect (last : Bool) (off : Nat) (hfn : fn = 0) (hoff : off = if last then R.LOG_LAST_ERR else R.LOG_FIRST) : ∃ t,
    exec (.logFirstRead fn last) s = .next t ∧ t.out = .read fn off [s.word off] :: s.out ∧
    (∀ i < 7, t.latched fn (off + 4 + 4 * i) = some (s.word (off + 4 + 4 * i))) ∧
    t = { s with out := t.out, latch := t.latch } := by
  have hread : s.readWord fn off = s.captureRd fn off := by
    rw [hoff]
    exact s.readWord_capture fn last hfn
  have hexec : exec (.logFirstRead fn last) s = .next (s.answer fn off) := by
    rw [hoff]
    rfl
  have hword : ∀ k < 8, BitVec.ofNat 32 (s.getN off 8 / 2 ^ (32 * k)) = s.word (off + 4 * k) := s.regs.ofNat_wide 8 off
  refine ⟨_, hexec.trans (congrArg Host.Outcome.next (State.answer_of_readWord hread)), ?_⟩
  generalize s.getN off 8 = v at *
  have hfirst : BitVec.ofNat 32 v = s.word off := by simpa using hword 0 (by omega)
  have hlatched : ∀ i < 7, (s.latchWords fn (off + 4) 7 (v / 4294967296)).latched fn (off + 4 + 4 * i) = some (s.word (off + 4 + 4 * i)) := by
    intro i hi
    rw [State.latched_rest fn s off _ i hi, hword (i + 1) (by omega), show off + 4 * (i + 1) = off + 4 + 4 * i by omega]
  have hframe := State.latchWords_frame fn 7 s (off + 4) (v / 4294967296)
  generalize s.latchWords fn (off + 4) 7 (v / 4294967296) = u at *
  obtain ⟨hout, hkept⟩ := emit_latched hframe (.read fn off [BitVec.ofNat 32 v])
  refine ⟨?_, hlatched, hkept.trans rfl⟩
  rw [hout, hfirst]

end

/-- Settles O60. -/
theorem logEntriesAreWrittenClearedAndRead : Obligations.LogEntriesAreWrittenClearedAndRead := by
  unfold Obligations.LogEntriesAreWrittenClearedAndRead
  refine ⟨fun s lc code locus data => ⟨fun h h1 h2 => ⟨_, s.post_suppressed lc code locus data h h1 h2, ?_, .put (.refl _ _) (by simp), rfl⟩,
      s.post_written lc code locus data⟩,
    fun s => ⟨⟨_, exec_firstClr s, s.firstClear_effect⟩, exec_fatalClr_ended s, fun h => congrArg Host.Outcome.next ?_⟩,
    fun off v s h => congrArg Host.Outcome.next (if_neg (by omega)),
    fun i v s hi => ⟨logClassWrite_staged hi v, logClassWrite_ignored hi v⟩,
    fun fn last s hfn => ⟨?_, ?_⟩, fun fn s v hfn hv => ?_, fun fn last s off hfn hoff => logFirstRead_effect s fn last off hfn hoff⟩
  · exact State.get_incSat_width (w := 32) s (f := F.LOG_SUPPR_CNT_COUNT) (.of rfl (by omega)) rfl
  · exact if_pos h
  · exact congrArg Host.Outcome.next (s.answer_of_unseen_time fn hfn (by decide))
  · exact congrArg Host.Outcome.next (s.answer_of_unseen_time fn hfn (by cases last <;> decide))
  · rw [hv]
    exact logRdRead_effect s fn hfn

end Sys2Proof.Machine
end

section
/-! SUPPORT. Calibration runs: what is shown of them, what ends with them, and how they are asked for (R315-R323). -/

namespace Sys2Proof.Machine

open Sys2Proof.Safety

/-! ### What is shown of the runs (R96, R317, R343) -/

/-- The held and skipped channels, and what the trigger shows of its sources. -/
def showShare : Share where
  upd s t := { s with regs := t.regs }
  regs off := (0xD10000 ≤ off ∧ off < 0xD20000) ∨ (0x408000 ≤ off ∧ off < 0x410000)
  self _ := rfl
  again _ _ _ := rfl

section
variable (s : State)

/-- BUSY, WAITING and MON_HELD follow the runs. -/
def State.calMarked (s : State) : State :=
  ((s.putB F.CAL_STATUS_BUSY (s.cal.runs.any (fun r => r.start.isSome && !r.ended))).putB F.CAL_STATUS_WAITING
    (s.cal.runs.any (fun r => r.start.isNone && !r.ended))).putB F.SVC_STATUS_MON_HELD (s.cal.runs.any (fun r => r.die == 9 && r.holding))

theorem State.showSrc_showShare : showShare.Only s s.showSrc := by
  unfold State.showSrc
  refine .foldl _ _ (fun t g hg => ?_) s
  have hg := List.mem_range.mp hg
  have hstat : showShare.regs (F.TRG_GRP_STATUS_SRC_FENCED g).off := by
    simp only [showShare, F.TRG_GRP_STATUS_SRC_FENCED]
    omega
  exact .trans (.put (f := F.TRG_GRP_STATUS_SRC_FENCED g) hstat) (.put (f := F.TRG_GRP_STATUS_SRC_HELD g) hstat)

theorem State.calShow_showShare : showShare.Only s.calMarked s.calShow := by
  refine Share.Only.trans (t := (List.range 48).foldl (fun t n => if t.flag (F.CAL_CH_STATUS_HELD n) = bitOf s.calMarked.calMask n then t
    else t.putB (F.CAL_CH_STATUS_HELD n) (bitOf s.calMarked.calMask n)) s.calMarked) (.foldl _ _ (fun t n hn => ?_) _) (State.showSrc_showShare _)
  have hn := List.mem_range.mp hn
  have hheld : showShare.regs (F.CAL_CH_STATUS_HELD n).off := by
    simp only [showShare, F.CAL_CH_STATUS_HELD]
    omega
  exact .ite (.refl _ _) (.put hheld)

theorem State.calShow_frame : s.calShow = { s with regs := s.calShow.regs } := s.calShow_showShare.frame.trans rfl

theorem State.calShow_get {f : Fld} (hoff : ¬ showShare.regs f.off) (hbusy : F.CAL_STATUS_BUSY.Sep f) (hwait : F.CAL_STATUS_WAITING.Sep f)
    (hheld : F.SVC_STATUS_MON_HELD.Sep f) : s.calShow.get f = s.get f :=
  (s.calShow_showShare.fld hoff).trans ((RegTab.fld_setFld_sep _ _ hheld).trans ((RegTab.fld_setFld_sep _ _ hwait).trans (RegTab.fld_setFld_sep _ _ hbusy)))

theorem State.calShow_busy : s.calShow.flag F.CAL_STATUS_BUSY = s.cal.runs.any (fun r => r.start.isSome && !r.ended) := by
  refine (s.calShow_showShare.bit (by simp only [showShare, F.CAL_STATUS_BUSY]; omega)).trans ?_
  refine (RegTab.bit_setFld_sep (f := F.SVC_STATUS_MON_HELD) (g := F.CAL_STATUS_BUSY) _ _ (.of rfl (by omega))).trans ?_
  exact (RegTab.bit_setFld_sep (f := F.CAL_STATUS_WAITING) (g := F.CAL_STATUS_BUSY) _ _ (.of rfl (by omega))).trans
    (RegTab.bit_setFld_ite _ (.of rfl (by omega)) _)

theorem State.calShow_waiting : s.calShow.flag F.CAL_STATUS_WAITING = s.cal.runs.any (fun r => r.start.isNone && !r.ended) := by
  refine (s.calShow_showShare.bit (by simp only [showShare, F.CAL_STATUS_WAITING]; omega)).trans ?_
  exact (RegTab.bit_setFld_sep (f := F.SVC_STATUS_MON_HELD) (g := F.CAL_STATUS_WAITING) _ _ (.of rfl (by omega))).trans
    (RegTab.bit_setFld_ite _ (.of rfl (by omega)) _)

theorem State.calShow_monHeld : s.calShow.flag F.SVC_STATUS_MON_HELD = s.cal.runs.any (fun r => r.die == 9 && r.holding) :=
  (s.calShow_showShare.bit (by simp only [showShare, F.SVC_STATUS_MON_HELD]; omega)).trans (RegTab.bit_setFld_ite _ (.of rfl (by omega)) _)

/-! ### The end of the runs (R323) -/

theorem State.startSave_effect : s.startSave.cal.runs = s.cal.runs ∧ (∀ f : Fld, F.CAL_STATUS_SAVING.Sep f → s.startSave.get f = s.get f) ∧
    s.startSave = { s with regs := s.startSave.regs, cal := s.startSave.cal } :=
  ⟨rfl, fun _ hf => RegTab.fld_setFld_sep _ _ hf, rfl⟩

theorem State.saveNow_effect : s.saveNow.cal.runs = s.cal.runs ∧ (∀ f : Fld, F.CAL_STATUS_SAVING.Sep f → s.saveNow.get f = s.get f) ∧
    s.saveNow = { s with regs := s.saveNow.regs, cal := s.saveNow.cal } := by
  unfold State.saveNow
  split
  · exact ⟨rfl, fun _ _ => rfl, rfl⟩
  · exact s.startSave_effect

theorem State.calFinish_effect : s.calFinish.cal.runs = s.cal.runs ∧ (∀ f : Fld, F.CAL_STATUS_SAVING.Sep f → s.calFinish.get f = s.get f) ∧
    s.calFinish = { s with regs := s.calFinish.regs, cal := s.calFinish.cal } := by
  unfold State.calFinish
  dsimp only
  split
  · split
    · obtain ⟨hruns, hget, hframe⟩ := State.saveNow_effect { s with cal := { s.cal with results := false } }
      generalize State.saveNow _ = u at *
      exact ⟨hruns, hget, hframe.trans rfl⟩
    · exact ⟨rfl, fun _ _ => rfl, rfl⟩
  · exact ⟨rfl, fun _ _ => rfl, rfl⟩

end

/-! ### A request (R315, R317, R319, Table 14.5) -/

section
variable (s : State) (a mask proc : Nat)

/-- The channels that a request names and that are there. -/
def State.calNamed (s : State) (mask : Nat) : Nat := pairMask s.regs mask - Nat.land (pairMask s.regs mask) s.fenceMask

/-- Of them, those left out because their group is armed. -/
def State.calSkipped (s : State) (mask : Nat) : Nat :=
  if s.flag F.CAL_CTRL_ARMED then Nat.land (s.calNamed mask) (pairMask s.regs s.armedChans) else 0

/-- The procedures of a request that can run: without a reference value neither gain nor the service die. -/
def State.calProcs (s : State) (proc : Nat) : Nat := if decide (s.get F.CAL_CALV_UV = 0) then clrBit (clrBit proc 1) 6 else proc

/-- The dies other than the converters' that a request names. -/
def State.calOthers (s : State) (proc : Nat) : List Nat := [6, 9].filter (fun d => dieProcs d (s.calProcs proc) != 0)

/-- The entries of a request, one a die. -/
def State.calEntries (s : State) (a mask proc : Nat) : List CalRun :=
  ((List.range 6).filter (fun k => Nat.land (s.calNamed mask - s.calSkipped mask) (dieMask k) != 0 && dieProcs k (s.calProcs proc) != 0)).map
      (fun k => (⟨k, Nat.land (s.calNamed mask - s.calSkipped mask) (dieMask k), dieProcs k (s.calProcs proc), a, none, false, false⟩ : CalRun))
    ++ (s.calOthers proc).map (fun d => (⟨d, if d = 6 then 255 else 0, dieProcs d (s.calProcs proc), a, none, false, false⟩ : CalRun))

/-- The ERR code of a request that is taken. -/
def State.calErr (s : State) (mask proc : Nat) : Nat :=
  if s.calNamed mask - s.calSkipped mask = 0 ∧ s.calOthers proc = [] then 7
  else if decide (s.get F.CAL_CALV_UV = 0) && (bitOf proc 1 || bitOf proc 6) then 3 else 0

/-- The registers of a request that is taken. -/
def State.calNoted (s : State) (mask proc : Nat) : State :=
  (bitsSet 48 (s.calSkipped mask)).foldl (fun t n => t.setF (F.CAL_CH_STATUS_SKIPPED n)) (s.put F.CAL_STATUS_ERR (s.calErr mask proc))

/-- A request's entries wait. -/
def State.calListed (s : State) (a mask proc : Nat) : State :=
  { (s.calNoted mask proc) with
    cal := { (s.calNoted mask proc).cal with runs := (s.calNoted mask proc).cal.runs ++ s.calEntries a mask proc, results := false, abort := none } }

theorem State.calRequest_eq : s.calRequest a mask proc = if s.cal.runs.any (fun r => !r.ended) then s.put F.CAL_STATUS_ERR 1
    else if s.flag F.CLK_STATUS_FABRIC_BYP then s.put F.CAL_STATUS_ERR 2 else (s.calListed a mask proc).calShow := rfl

theorem bitsSet_lt {n m x : Nat} (h : x ∈ bitsSet n m) : x < n := List.mem_range.mp (List.mem_filter.mp h).1

theorem State.calNoted_showShare : showShare.Only (s.put F.CAL_STATUS_ERR (s.calErr mask proc)) (s.calNoted mask proc) := by
  refine .foldl _ _ (fun t n hn => ?_) _
  have hn := bitsSet_lt hn
  have hskip : showShare.regs (F.CAL_CH_STATUS_SKIPPED n).off := by
    simp only [showShare, F.CAL_CH_STATUS_SKIPPED]
    omega
  exact .put hskip

theorem State.calErr_lt : s.calErr mask proc < 8 := by
  unfold State.calErr
  split
  · omega
  · split <;> omega

/-- What a request that is taken leaves. -/
theorem State.calTakenUp_effect : (s.calListed a mask proc).calShow.cal =
      { s.cal with runs := s.cal.runs ++ s.calEntries a mask proc, results := false, abort := none } ∧
    (s.calListed a mask proc).calShow.get F.CAL_STATUS_ERR = s.calErr mask proc ∧
    (s.calListed a mask proc).calShow = { s with
      regs := (s.calListed a mask proc).calShow.regs
      cal := (s.calListed a mask proc).calShow.cal } := by
  have hnoted := s.calNoted_showShare mask proc
  have herr := s.calErr_lt mask proc
  unfold State.calListed
  generalize s.calErr mask proc = e at *
  have hcal : (s.calNoted mask proc).cal = s.cal := (congrArg State.cal hnoted.frame).trans rfl
  have hget : (s.calNoted mask proc).get F.CAL_STATUS_ERR = e := by
    refine (hnoted.fld (f := F.CAL_STATUS_ERR) (by simp only [showShare, F.CAL_STATUS_ERR]; omega)).trans ?_
    refine (RegTab.fld_setFld_self _ e (.of rfl (by omega))).trans (Nat.mod_eq_of_lt ?_)
    show e < 2 ^ 4
    omega
  have hframe : s.calNoted mask proc = { s with regs := (s.calNoted mask proc).regs } := hnoted.frame.trans rfl
  generalize s.calNoted mask proc = u at *
  have hshown := State.calShow_frame { u with cal := { u.cal with runs := u.cal.runs ++ s.calEntries a mask proc, results := false, abort := none } }
  have hgot := State.calShow_get { u with cal := { u.cal with runs := u.cal.runs ++ s.calEntries a mask proc, results := false, abort := none } }
    (f := F.CAL_STATUS_ERR) (by simp only [showShare, F.CAL_STATUS_ERR]; omega) (.of rfl (by omega)) (.of rfl (by omega)) (.of rfl (by omega))
  generalize State.calShow _ = v at *
  refine ⟨((congrArg State.cal hshown).trans rfl).trans (by rw [hcal]), hgot.trans hget, ?_⟩
  rw [hshown, hframe]

theorem State.mem_calEntries {a mask proc : Nat} {r : CalRun} (h : r ∈ s.calEntries a mask proc) :
    r.reqAt = a ∧ r.start = none ∧ r.settling = false ∧ r.ended = false ∧ (r.die < 6 ∨ r.die ∈ s.calOthers proc) := by
  rcases List.mem_append.mp h with h | h
  · obtain ⟨k, hk, rfl⟩ := List.mem_map.mp h
    exact ⟨rfl, rfl, rfl, rfl, .inl (List.mem_range.mp (List.mem_filter.mp hk).1)⟩
  · obtain ⟨d, hd, rfl⟩ := List.mem_map.mp h
    exact ⟨rfl, rfl, rfl, rfl, .inr hd⟩

theorem clrBit_le (m k : Nat) : clrBit m k ≤ m := by
  unfold clrBit
  split
  · exact Nat.sub_le _ _
  · exact Nat.le_refl _

/-- The procedures 0 to 4 run on converter dies alone. -/
theorem State.calOthers_of_lt {proc : Nat} (h : proc < 32) : s.calOthers proc = [] := by
  have hlt : s.calProcs proc < 32 := by
    unfold State.calProcs
    have h1 := clrBit_le proc 1
    have h2 := clrBit_le (clrBit proc 1) 6
    split <;> omega
  unfold State.calOthers
  generalize s.calProcs proc = p at hlt
  have hland : ∀ p : Fin 32, dieProcs 6 p = 0 ∧ dieProcs 9 p = 0 := by decide
  obtain ⟨h6, h9⟩ := hland ⟨p, hlt⟩
  simp [show dieProcs 6 p = 0 from h6, show dieProcs 9 p = 0 from h9]

theorem pairMask_zero (r : RegTab) : pairMask r 0 = 0 := by
  have hbit : ∀ k, bitOf 0 k = false := fun k => by simp [bitOf]
  simp [pairMask, hbit, maskOf]

theorem State.calChannels_zero : s.calNamed 0 - s.calSkipped 0 = 0 := by
  have h : s.calNamed 0 = 0 := by rw [State.calNamed, pairMask_zero, Nat.zero_sub]
  rw [h, Nat.zero_sub]

theorem State.calEntries_zero : s.calEntries a 0 proc = (s.calOthers proc).map
    (fun d => (⟨d, if d = 6 then 255 else 0, dieProcs d (s.calProcs proc), a, none, false, false⟩ : CalRun)) := by
  have hland : ∀ k, Nat.land 0 (dieMask k) = 0 := fun k => Nat.zero_and _
  unfold State.calEntries
  simp [s.calChannels_zero, hland]

theorem State.calProcs_evt : s.calProcs 32 = 32 := by
  unfold State.calProcs
  split <;> rfl

theorem State.calOthers_evt : s.calOthers 32 = [6] := by
  rw [State.calOthers, s.calProcs_evt]
  decide

theorem State.calRequest_refused (h : ∃ r ∈ s.cal.runs, r.ended = false) : s.calRequest a mask proc = s.put F.CAL_STATUS_ERR 1 := by
  obtain ⟨r, hr, he⟩ := h
  exact if_pos (List.any_eq_true.mpr ⟨r, hr, by rw [he]; rfl⟩)

theorem State.calRequest_bypassed (h : ∀ r ∈ s.cal.runs, r.ended = true) (hbyp : s.flag F.CLK_STATUS_FABRIC_BYP = true) :
    s.calRequest a mask proc = s.put F.CAL_STATUS_ERR 2 :=
  (if_neg (by simpa using h)).trans (if_pos hbyp)

theorem State.calRequest_taken (h : ∀ r ∈ s.cal.runs, r.ended = true) (hbyp : s.flag F.CLK_STATUS_FABRIC_BYP = false) :
    s.calRequest a mask proc = (s.calListed a mask proc).calShow :=
  (if_neg (by simpa using h)).trans (if_neg (by simp [hbyp]))

end

end Sys2Proof.Machine
end

section
/-! SUPPORT. Calibration runs: their captures, the parts that fail with a result, and what a die's results leave (R314-R322). -/

namespace Sys2Proof.Machine

open Sys2Proof.Safety

/-! ### Captures (R161, R162, R318) -/

section
variable (s : State)

/-- The captures of the runs: what they stage and which of them did not fit. -/
def captureShare : Share where
  upd s t := { s with free := t.free, stageFill := t.stageFill, fillData := t.fillData, cal := { t.cal with runs := s.cal.runs } }
  regs _ := False
  self _ := rfl
  again _ _ _ := rfl

theorem State.captureChan_captureShare (b n : Nat) : captureShare.Only s (s.captureChan b n) := .ite (.refl _ _) (.parts rfl rfl)

theorem State.captureDie_captureShare (b : Nat) (r : CalRun) : captureShare.Only s (s.captureDie b r) := by
  unfold State.captureDie
  dsimp only
  exact .ite (.trans (.foldl _ _ (fun t n _ => t.captureChan_captureShare b n) s) (.parts rfl rfl)) (.parts rfl rfl)

end

/-! ### Parts that fail (R47, R49, R50, R81, R322) -/

/-- A run without its channels. -/
def CalRun.bare (r : CalRun) : CalRun := { r with mask := 0 }

/-- Failing parts, and the channels fenced for them. -/
def partsShare : Share where
  upd s t := { s with
    out := t.out, regs := t.regs, chans := t.chans, acs := t.acs, intSwaps := t.intSwaps, grps := t.grps, stageFill := t.stageFill
    msix := t.msix, twin := t.twin, log := t.log, cal := { s.cal with runs := t.cal.runs } }
  regs off := off < 0xD00000 ∨ 0xF00000 ≤ off
  self _ := rfl
  again _ _ _ := rfl

/-- Parts fail; a run keeps everything but channels that are fenced. -/
structure PartsFail (s t : State) : Prop where
  share : partsShare.Only s t
  runs : t.cal.runs.map CalRun.bare = s.cal.runs.map CalRun.bare

section
variable {s t u : State}

theorem PartsFail.refl (s : State) : PartsFail s s := ⟨.refl _ _, rfl⟩

theorem PartsFail.trans (h : PartsFail s t) (k : PartsFail t u) : PartsFail s u := ⟨h.share.trans k.share, k.runs.trans h.runs⟩

theorem PartsFail.foldl {α : Type} (f : State → α → State) (l : List α) (h : ∀ t, ∀ x ∈ l, PartsFail t (f t x)) (s : State) :
    PartsFail s (l.foldl f s) := by
  induction l generalizing s with
  | nil => exact .refl s
  | cons x xs ih => exact (h s x (by simp)).trans (ih (fun t y hy => h t y (by simp [hy])) (f s x))

theorem PartsFail.ite {c : Prop} [Decidable c] (h : PartsFail s t) (k : PartsFail s u) : PartsFail s (if c then t else u) := by
  split
  · exact h
  · exact k

theorem PartsFail.of_share (h : partsShare.Only s t) (hcal : t.cal = s.cal) : PartsFail s t := ⟨h, by rw [hcal]⟩

theorem PartsFail.parts (hregs : t.regs = s.regs) (h : t = partsShare.upd s t) (hcal : t.cal = s.cal) : PartsFail s t := .of_share (.parts hregs h) hcal

theorem PartsFail.put (s : State) {f : Fld} {v : Nat} (hf : f.off < 0xD00000) : PartsFail s (s.put f v) := .of_share (.put (.inl hf)) rfl

theorem PartsFail.post (s : State) (lc code locus data : Nat) : PartsFail s (s.post lc code locus data) :=
  have hframe : s.post lc code locus data = { s with
      out := (s.post lc code locus data).out, regs := (s.post lc code locus data).regs, msix := (s.post lc code locus data).msix
      twin := (s.post lc code locus data).twin, log := (s.post lc code locus data).log } := s.post_eq lc code locus data
  .of_share (.post (fun _ h => .inr h) (partsShare.frame_of hframe rfl)) ((congrArg State.cal hframe).trans rfl)

theorem PartsFail.gaps (h : gapShare.Only s t) : PartsFail s t :=
  .of_share ⟨partsShare.frame_of h.frame rfl, fun off ho => h.word off (fun hr => ho (.inl (by
    simp only [gapShare] at hr
    omega)))⟩ ((congrArg State.cal h.frame).trans rfl)

end

section
variable (s : State)

theorem State.showSrc_partsFail : PartsFail s s.showSrc := by
  unfold State.showSrc
  refine .foldl _ _ (fun t g hg => ?_) s
  have hg := List.mem_range.mp hg
  have hstat : (F.TRG_GRP_STATUS_SRC_FENCED g).off < 0xD00000 := by
    simp only [F.TRG_GRP_STATUS_SRC_FENCED]
    omega
  exact .trans (.put t (f := F.TRG_GRP_STATUS_SRC_FENCED g) hstat) (.put _ (f := F.TRG_GRP_STATUS_SRC_HELD g) hstat)

theorem State.copyBits_gapShare (t : State) (g from_ bf to_ bt n : Nat) : gapShare.Only s (s.copyBits t g from_ bf to_ bt n) :=
  .ite (.parts rfl rfl) (.parts rfl rfl)

theorem State.moveBlocks_gapShare (g lpage : Nat) (l0 : Layout) (m0 : Nat) (l1 : Layout) (m1 : Nat) :
    gapShare.Only s (s.moveBlocks g lpage l0 m0 l1 m1) := by
  unfold State.moveBlocks
  exact .foldl _ _ (fun u n _ => .ite (.refl _ _) (.foldl _ _ (fun v i _ => v.copyBits_gapShare _ _ _ _ _ _ _) u)) s

theorem State.fenceRecs_gapShare (g n c : Nat) (l : List Rec) : gapShare.Only s (s.fenceRecs g n c l) := by
  unfold State.fenceRecs
  refine .foldl _ _ (fun t r _ => ?_) s
  dsimp only
  have hset := t.setGrp_gapShare g ((t.grp g).updRec (r.fence n c))
  generalize t.setGrp g ((t.grp g).updRec (r.fence n c)) = u at *
  exact .ite hset (hset.trans (u.moveBlocks_gapShare _ _ _ _ _ _))

theorem State.fenceGroup_gapShare {g : Nat} (hg : g < 16) (n c : Nat) : gapShare.Only s (s.fenceGroup n c g) := by
  have h := s.fenceRecs_gapShare g n c (s.grp g).spans
  unfold State.fenceGroup
  dsimp only
  generalize s.fenceRecs g n c (s.grp g).spans = u at *
  exact (h.trans (u.setGrp_gapShare g _)).trans (State.gapSync_gapShare _ hg)

theorem groupOf_lt {r : RegTab} {n g : Nat} (h : groupOf r n = some g) : g < 16 := List.mem_range.mp (List.mem_of_find?_eq_some h)

/-- A channel leaves the runs of the converter dies. -/
def State.runsWithout (s : State) (n : Nat) : State :=
  { s with cal := { s.cal with runs := s.cal.runs.map (fun r : CalRun => if r.die < 6 then { r with mask := clrBit r.mask n } else r) } }

theorem State.runsWithout_partsFail (n : Nat) : PartsFail s (s.runsWithout n) := by
  refine ⟨.parts rfl rfl, ?_⟩
  show List.map CalRun.bare (List.map _ s.cal.runs) = _
  rw [List.map_map]
  refine List.map_congr_left fun r _ => ?_
  show CalRun.bare (if r.die < 6 then _ else r) = _
  split <;> rfl

/-- A channel is shown fenced. -/
def State.fenceShown (s : State) (n c : Nat) : State :=
  let s1 := (s.putN R.CONV_FENCE_CH 2 (setBit s.fenceMask n)).setChan n { s.chan n with fencedAt := some c, stepPending := false }
  let s2 := ((s1.setF (F.CONV_CH_STATUS_FENCED n)).clrF (F.CONV_CH_STATUS_PRESENT n)).setF F.GLOBAL_STATE_DEGRADED
  (List.range 6).foldl (fun t k => t.setF (F.TRG_AC_STATUS_FENCED (6 * n + k))) s2

theorem State.fenceOne_eq (n c : Nat) : s.fenceOne n c = if bitOf s.fenceMask n then s
    else (match groupOf s.regs n with
      | some k => ((s.fenceShown n c).runsWithout n).fenceGroup n c k
      | none => (s.fenceShown n c).runsWithout n).showSrc := rfl

theorem State.fenceShown_partsFail {n : Nat} (hn : n < 48) (c : Nat) : PartsFail s (s.fenceShown n c) := by
  unfold State.fenceShown
  extract_lets src s1 s2
  have hstat : (F.CONV_CH_STATUS_FENCED n).off < 0xD00000 := by
    simp only [F.CONV_CH_STATUS_FENCED]
    omega
  have hmask : PartsFail s (s.putN R.CONV_FENCE_CH 2 (setBit s.fenceMask n)) := .of_share (.putN (fun j _ h2 => .inl (by
    simp only [R.CONV_FENCE_CH] at h2
    omega))) rfl
  have hs1 : PartsFail s s1 := hmask.trans (.parts rfl rfl rfl)
  clear_value s1
  have hs2 : PartsFail s1 s2 := .trans (.trans (.put s1 (f := F.CONV_CH_STATUS_FENCED n) (v := 1) hstat) (.put _ (f := F.CONV_CH_STATUS_PRESENT n) (v := 0) hstat))
    (.put _ (f := F.GLOBAL_STATE_DEGRADED) (v := 1) (by decide))
  clear_value s2
  refine (hs1.trans hs2).trans (.foldl _ _ (fun t k hk => ?_) s2)
  have hk := List.mem_range.mp hk
  exact .put t (f := F.TRG_AC_STATUS_FENCED (6 * n + k)) (v := 1) (by
    simp only [F.TRG_AC_STATUS_FENCED]
    omega)

theorem State.fenceOne_partsFail {n : Nat} (hn : n < 48) (c : Nat) : PartsFail s (s.fenceOne n c) := by
  rw [s.fenceOne_eq n c]
  have hleft := (s.fenceShown_partsFail hn c).trans ((s.fenceShown n c).runsWithout_partsFail n)
  generalize (s.fenceShown n c).runsWithout n = u at *
  refine .ite (.refl s) (.trans ?_ (State.showSrc_partsFail _))
  split
  · next k hk => exact hleft.trans (.gaps (u.fenceGroup_gapShare (groupOf_lt hk) n c))
  · exact hleft

theorem mem_insertNat {x y : Nat} {l : List Nat} (h : y ∈ insertNat x l) : y = x ∨ y ∈ l := by
  induction l with
  | nil => exact .inl (by simpa [insertNat] using h)
  | cons z zs ih =>
    rw [insertNat] at h
    split at h
    · simpa using h
    · split at h
      · exact .inr h
      · rcases List.mem_cons.mp h with rfl | h
        · simp
        · exact (ih h).imp id (List.mem_cons_of_mem _)

theorem mem_sortNat {x : Nat} {l : List Nat} (h : x ∈ sortNat l) : x ∈ l := by
  have hfold : ∀ (l acc : List Nat), x ∈ l.foldl (fun a y => insertNat y a) acc → x ∈ l ∨ x ∈ acc := by
    intro l
    induction l with
    | nil => exact fun _ h => .inr h
    | cons y ys ih =>
      intro acc h
      rcases ih _ h with h | h
      · exact .inl (List.mem_cons_of_mem _ h)
      · exact (mem_insertNat h).imp (fun e => by simp [e]) id
  exact (hfold l [] h).resolve_right (by simp)

theorem State.arrays_lt {n x : Nat} (hn : n < 48) (h : x ∈ s.arrays n) : x < 48 := by
  unfold State.arrays at h
  split at h
  · have : x = n / 2 * 2 ∨ x = n / 2 * 2 + 1 := by simpa using h
    omega
  · have : x = n := by simpa using h
    omega

theorem State.fenceCluster_partsFail {n : Nat} (hn : n < 48) (c : Nat) : PartsFail s (s.fenceCluster n c) := by
  have hchs : PartsFail s (s.fenceChs c [n]) := by
    refine .foldl _ _ (fun t x hx => t.fenceOne_partsFail ?_ c) s
    have hmem : x ∈ [n].flatMap s.arrays := mem_sortNat hx
    obtain ⟨k, hk, hxk⟩ := List.mem_flatMap.mp hmem
    obtain rfl := List.mem_singleton.mp hk
    exact s.arrays_lt hn hxk
  exact .ite (.refl s) (hchs.trans (.post _ _ _ _ _))

theorem State.noSpare_partsFail {a : Nat} (ha : a < 48) : PartsFail s (s.noSpare a) := by
  have hstat : (F.CONV_CH_STATUS_NO_SPARE a).off < 0xD00000 := by
    simp only [F.CONV_CH_STATUS_NO_SPARE]
    omega
  unfold State.noSpare
  extract_lets src s1
  have hset : PartsFail s (s.setChan a { s.chan a with spare := none }) := .parts rfl rfl rfl
  have hs1 : PartsFail s s1 := (hset.trans (.put _ (f := F.CONV_CH_STATUS_NO_SPARE a) (v := 1) hstat)).trans
    (.put _ (f := F.CONV_CH_STATUS_SPARE_POS a) hstat)
  clear_value s1
  exact .ite hs1 (hs1.trans (.foldl _ _ (fun t b _ => .parts (t := t.setChan b { t.chan b with stepPending := false }) rfl rfl rfl) s1))

theorem State.posFail_partsFail {a : Nat} (ha : a < 48) (p : Nat) : PartsFail s (s.posFail a p) := by
  have hserve : ∀ j, PartsFail s (s.serveFail a j) := fun j => by
    unfold State.serveFail
    extract_lets ch q s1
    have hs1 : PartsFail s s1 := .post _ _ _ _ _
    clear_value s1
    exact .ite (hs1.trans (.parts rfl rfl rfl)) (hs1.trans (s1.fenceCluster_partsFail ha _))
  have hspare : PartsFail s (s.spareFail a) := by
    unfold State.spareFail
    dsimp only
    split
    · exact .refl s
    · next q _ =>
      have hset : PartsFail s (s.setChan a { s.chan a with parked := q :: (s.chan a).parked, takeover := none }) := .parts rfl rfl rfl
      have hnone := (hset.trans (State.noSpare_partsFail _ ha)).trans (.post _ s.lcnt 0x0203 (s.locusCh a q) 0)
      exact .ite (hnone.trans (State.fenceCluster_partsFail _ ha _)) hnone
  unfold State.posFail
  dsimp only
  refine .ite hspare ?_
  split
  · exact hserve _
  · exact .refl s

theorem State.intLost_partsFail {ch i : Nat} (hch : ch < 48) (hi : i < 16) : PartsFail s (s.intLost ch i) := by
  unfold State.intLost
  split
  · exact .refl s
  · next n second hserved =>
    obtain ⟨c, hc, hc2⟩ := List.exists_of_findSome?_eq_some hserved
    have hc := List.mem_range.mp hc
    have hn : n = 6 * ch + c := by
      dsimp only at hc2
      split at hc2
      · simpa using (congrArg Prod.fst (Option.some.inj hc2)).symm
      · split at hc2
        · simpa using (congrArg Prod.fst (Option.some.inj hc2)).symm
        · exact absurd hc2 (by simp)
    extract_lets x y s1
    have hstat : (F.TRG_AC_STATUS_FENCED n).off < 0xD00000 := by
      simp only [F.TRG_AC_STATUS_FENCED]
      omega
    have huse : (F.TRG_INT_CAL_IN_USE ch i).off < 0xD00000 := by
      simp only [F.TRG_INT_CAL_IN_USE]
      omega
    have hset : PartsFail s (s.setAc n y) := .parts rfl rfl rfl
    have hs1 : PartsFail s s1 := hset.trans (.put _ (f := F.TRG_INT_CAL_IN_USE ch i) huse)
    clear_value s1
    refine hs1.trans (.ite (.trans (.trans (.put s1 (f := F.TRG_AC_STATUS_FENCED n) (v := 1) hstat) (.put _ (f := F.TRG_AC_STATUS_SINGLE n) (v := 0) hstat))
      (State.showSrc_partsFail _)) (.put _ (f := F.TRG_AC_STATUS_SINGLE n) (v := 1) hstat))

theorem State.intFail_partsFail {ch i : Nat} (hch : ch < 48) (hi : i < 16) : PartsFail s (s.intFail ch i) := by
  have hfailed : (F.TRG_INT_CAL_FAILED ch i).off < 0xD00000 := by
    simp only [F.TRG_INT_CAL_FAILED]
    omega
  unfold State.intFail
  extract_lets s1
  have hs1 : PartsFail s s1 := (PartsFail.put s (f := F.TRG_INT_CAL_FAILED ch i) (v := 1) hfailed).trans (.post _ _ _ _ _)
  clear_value s1
  exact .ite (.refl s) (.ite hs1 (.ite (hs1.trans (.parts rfl rfl rfl)) (hs1.trans (s1.intLost_partsFail hch hi))))

theorem State.calParts_partsFail {c : ChResult} (hc : c.n < 48) (hint : ∀ i ∈ c.badInt, i < 16) : PartsFail s (s.calParts c) :=
  .trans (.foldl _ _ (fun t p _ => t.posFail_partsFail hc p) s) (.foldl _ _ (fun t i hi => t.intFail_partsFail hc (hint i hi)) _)

end

end Sys2Proof.Machine
end

section
/-! SUPPORT. Calibration runs: a die starts, its results take effect, it settles (R314-R322, Table 14.5). -/

namespace Sys2Proof.Machine

open Sys2Proof.Safety

/-! ### What follows every change of the runs -/

/-- What is shown of the runs, and the end of a run. -/
def closeShare : Share where
  upd s t := { s with regs := t.regs, cal := { t.cal with runs := s.cal.runs } }
  regs off := off = 0xD00030 ∨ off = 0xD80004 ∨ showShare.regs off
  self _ := rfl
  again _ _ _ := rfl

section
variable (s : State)

theorem State.calShow_closeShare : closeShare.Only s s.calShow := by
  have hmarked : closeShare.Only s s.calMarked := .trans (.trans (.put (.inl rfl)) (.put (.inl rfl))) (.put (.inr (.inl rfl)))
  have hshown := s.calShow_showShare
  generalize s.calShow = t at *
  generalize s.calMarked = u at *
  exact hmarked.trans ⟨closeShare.frame_of hshown.frame rfl, fun off ho => hshown.word off (fun h => ho (.inr (.inr h)))⟩

theorem State.saveNow_closeShare : closeShare.Only s s.saveNow := by
  have hput : closeShare.Only s (s.setF F.CAL_STATUS_SAVING) := .put (.inl rfl)
  unfold State.saveNow
  exact .ite (.parts rfl rfl) (hput.trans (.parts rfl rfl))

theorem State.calFinish_closeShare : closeShare.Only s s.calFinish := by
  have hdone : closeShare.Only s { s with cal := { s.cal with results := false } } := .parts rfl rfl
  unfold State.calFinish
  dsimp only
  exact .ite (.ite (hdone.trans (State.saveNow_closeShare _)) hdone) (.refl _ s)

/-- A change of the runs is closed. -/
def State.calClosed (s : State) : State := s.calShow.calFinish

theorem State.calClosed_closeShare : closeShare.Only s s.calClosed := s.calShow_closeShare.trans (State.calFinish_closeShare _)

theorem State.calClosed_busy : s.calClosed.flag F.CAL_STATUS_BUSY = s.cal.runs.any (fun r => r.start.isSome && !r.ended) := by
  obtain ⟨-, hget, -⟩ := s.calShow.calFinish_effect
  exact (RegTab.bit_congr (hget _ (.of rfl (by omega)))).trans s.calShow_busy

theorem State.calClosed_monHeld : s.calClosed.flag F.SVC_STATUS_MON_HELD = s.cal.runs.any (fun r => r.die == 9 && r.holding) := by
  obtain ⟨-, hget, -⟩ := s.calShow.calFinish_effect
  exact (RegTab.bit_congr (hget _ (.of rfl (by omega)))).trans s.calShow_monHeld

theorem State.calClosed_runs : s.calClosed.cal.runs = s.cal.runs := by
  have h := congrArg State.cal s.calClosed_closeShare.frame
  exact (congrArg Cal.runs h).trans rfl

/-- A die's own entry stands in the list once it has been replaced. -/
theorem mem_setRun {s : State} {r x : CalRun} (hr : r ∈ s.cal.runs) (hdie : r.die = x.die) (hreq : r.reqAt = x.reqAt) : x ∈ (s.setRun x).cal.runs :=
  List.mem_map.mpr ⟨r, hr, if_pos ⟨hdie, hreq⟩⟩

end

/-! ### A die starts (R317 step 1, R318, R319) -/

/-- What a start changes. -/
def startShare : Share where
  upd s t := { s with
    out := t.out, free := t.free, regs := t.regs, grps := t.grps, stageFill := t.stageFill, fillData := t.fillData
    msix := t.msix, cal := t.cal, twin := t.twin, log := t.log }
  regs _ := True
  self _ := rfl
  again _ _ _ := rfl

/-- Registers and the log. -/
def noteShare : Share where
  upd s t := { s with out := t.out, regs := t.regs, msix := t.msix, twin := t.twin, log := t.log }
  regs _ := True
  self _ := rfl
  again _ _ _ := rfl

theorem State.put_noteShare (s : State) (f : Fld) (v : Nat) : noteShare.Only s (s.put f v) := .put trivial

theorem State.post_noteShare (s : State) (lc code locus data : Nat) : noteShare.Only s (s.post lc code locus data) :=
  .post (fun _ _ => trivial) (s.post_eq lc code locus data)

section
variable (s : State) (r : CalRun) (b : Nat)

/-- Inputs whose procedure is skipped. -/
def State.startBusy (s : State) (r : CalRun) : List Nat := if r.die = 6 then (bitsSet 8 r.mask).filter s.evtBusy else []

/-- A die's entry from its start on. -/
def State.startedRun (s : State) (r : CalRun) (b : Nat) : CalRun :=
  { r with
    mask := r.mask - maskOf (s.startBusy r)
    start := some (b, b + tickLen * r.ticks)
    ended := decide (r.die ≤ 6) && r.mask - maskOf (s.startBusy r) == 0 }

/-- A start that a deferral forced is logged, and skipped inputs are shown. -/
def State.startNoted (s : State) (r : CalRun) (b : Nat) : State :=
  let s1 := if !s.begun r && s.inPost r then (s.setF F.CAL_STATUS_FG_FORCED).post b 0x0D02 s.locusHub 0 else s
  if s.startBusy r = [] then s1 else s1.setF F.CAL_STATUS_EVT_SKIPPED

theorem State.calStartDie_eq : s.calStartDie r b =
    if s.tick = b ∧ r.die < 6 ∧ (decide (r.die ≤ 6) && r.mask - maskOf (s.startBusy r) == 0) = false then
      ((((s.startNoted r b).setRun (s.startedRun r b)).calGaps b).calClosed).captureDie b { r with mask := r.mask - maskOf (s.startBusy r) }
    else (((s.startNoted r b).setRun (s.startedRun r b)).calGaps b).calClosed := rfl

theorem State.startNoted_noteShare : noteShare.Only s (s.startNoted r b) := by
  have hlog : noteShare.Only s ((s.setF F.CAL_STATUS_FG_FORCED).post b 0x0D02 s.locusHub 0) :=
    (s.put_noteShare F.CAL_STATUS_FG_FORCED 1).trans (State.post_noteShare _ _ _ _ _)
  unfold State.startNoted
  extract_lets s1
  have hs1 : noteShare.Only s s1 := .ite hlog (.refl _ s)
  clear_value s1
  exact .ite hs1 (hs1.trans (s1.put_noteShare _ _))

/-- What a start leaves. -/
theorem State.calStartDie_effect (hr : r ∈ s.cal.runs) : startShare.Only s (s.calStartDie r b) ∧
    (s.startedRun r b ∈ (s.calStartDie r b).cal.runs) ∧
    ((s.startedRun r b).ended = false → (s.calStartDie r b).flag F.CAL_STATUS_BUSY = true) ∧
    (r.die = 9 → (s.startedRun r b).holding = true → (s.calStartDie r b).flag F.SVC_STATUS_MON_HELD = true) := by
  have hnoted := s.startNoted_noteShare r b
  rw [s.calStartDie_eq r b]
  generalize s.startNoted r b = n at *
  have hcal : n.cal = s.cal := (congrArg State.cal hnoted.frame).trans rfl
  have hmem : s.startedRun r b ∈ (n.setRun (s.startedRun r b)).cal.runs := mem_setRun (r := r) (by rwa [hcal]) rfl rfl
  have hset : startShare.Only s (n.setRun (s.startedRun r b)) :=
    .trans (t := n) ⟨startShare.frame_of hnoted.frame rfl, fun _ ho => absurd trivial ho⟩ (.parts rfl rfl)
  generalize n.setRun (s.startedRun r b) = u at *
  have hgaps : gapShare.Only u (u.calGaps b) := u.setLossAll_gapShare b 5 _
  generalize u.calGaps b = v at *
  have hgapsCal : v.cal.runs = u.cal.runs := (congrArg (fun x : State => x.cal.runs) hgaps.frame).trans rfl
  have hmem2 : s.startedRun r b ∈ v.cal.runs := by rwa [hgapsCal]
  have hset2 : startShare.Only s v := hset.trans ⟨startShare.frame_of hgaps.frame rfl, fun _ ho => absurd trivial ho⟩
  have hclosed := v.calClosed_closeShare
  have hbusy := v.calClosed_busy
  have hmon := v.calClosed_monHeld
  have hruns := v.calClosed_runs
  generalize v.calClosed = w at *
  have hmem3 : s.startedRun r b ∈ w.cal.runs := by rwa [hruns]
  have hset3 : startShare.Only s w := hset2.trans ⟨startShare.frame_of hclosed.frame rfl, fun _ ho => absurd trivial ho⟩
  have hcapt := w.captureDie_captureShare b { r with mask := r.mask - maskOf (s.startBusy r) }
  generalize w.captureDie b { r with mask := r.mask - maskOf (s.startBusy r) } = x at *
  have hend : ∀ y, captureShare.Only w y → startShare.Only s y ∧ s.startedRun r b ∈ y.cal.runs ∧
      ((s.startedRun r b).ended = false → y.flag F.CAL_STATUS_BUSY = true) ∧
      (r.die = 9 → (s.startedRun r b).holding = true → y.flag F.SVC_STATUS_MON_HELD = true) := by
    intro y hy
    refine ⟨hset3.trans ⟨startShare.frame_of hy.frame rfl, fun _ ho => absurd trivial ho⟩, ?_, fun he => ?_, fun hd hh => ?_⟩
    · have hyCal : y.cal.runs = w.cal.runs := (congrArg (fun x : State => x.cal.runs) hy.frame).trans rfl
      rwa [hyCal]
    · refine (hy.bit (fun h => h)).trans (hbusy.trans (List.any_eq_true.mpr ⟨_, hmem2, ?_⟩))
      rw [he]
      rfl
    · refine (hy.bit (fun h => h)).trans (hmon.trans (List.any_eq_true.mpr ⟨_, hmem2, ?_⟩))
      rw [hh, Bool.and_true]
      exact beq_iff_eq.mpr hd
  exact hend _ (.ite hcapt (.refl _ w))

end

/-! ### A die's results (R310, R314, R315, R322, R325, R327) -/

/-- What results change beside the service die's own values. -/
def resultsShare : Share where
  upd s t := { s with
    out := t.out, regs := t.regs, msix := t.msix, twin := t.twin, log := t.log, cal := { t.cal with runs := s.cal.runs } }
  regs _ := True
  self _ := rfl
  again _ _ _ := rfl

/-- The same, the sources of the dies' sets left alone. -/
def takenShare : Share where
  upd s t := { s with
    out := t.out, regs := t.regs, msix := t.msix, twin := t.twin, log := t.log, cal := { t.cal with runs := s.cal.runs } }
  regs off := off ≠ 0xD0003C
  self _ := rfl
  again _ _ _ := rfl

theorem putList_share {p : Share} {f : State → Nat → Nat → State} (h : ∀ t i v, p.Only t (f t i v)) (l : List Nat) :
    ∀ (s : State) (i : Nat), p.Only s (putList f s i l) := by
  induction l with
  | nil => exact fun s _ => .refl p s
  | cons v vs ih => exact fun s i => (h s i v).trans (ih _ _)

section
variable (s : State)

theorem State.post_resultsShare (lc code locus data : Nat) : resultsShare.Only s (s.post lc code locus data) :=
  .post (fun _ _ => trivial) (resultsShare.frame_of (s.post_eq lc code locus data) rfl)

theorem State.put_resultsShare (f : Fld) (v : Nat) : resultsShare.Only s (s.put f v) := .put trivial

theorem State.coefWords_resultsShare (proc n p : Nat) (l : List Nat) : ∀ (s : State) (i : Nat), resultsShare.Only s (s.coefWords proc n p i l) := by
  induction l with
  | nil => exact fun s _ => .refl _ s
  | cons v vs ih =>
    intro s i
    rw [State.coefWords]
    exact .trans (.ite (s.put_resultsShare _ _) (.refl _ s)) (ih _ _)

theorem State.calFigures_resultsShare (proc : Nat) (c : ChResult) : resultsShare.Only s (s.calFigures proc c) := by
  unfold State.calFigures
  extract_lets n s1 s2 s3 s4
  have hs1 : resultsShare.Only s s1 := .ite (.trans (s.put_resultsShare _ _) (State.put_resultsShare _ _ _)) (.refl _ s)
  clear_value s1
  have hs2 : resultsShare.Only s1 s2 := .ite (s1.put_resultsShare _ _) (.refl _ s1)
  clear_value s2
  have hs3 : resultsShare.Only s2 s3 := .ite (s2.put_resultsShare _ _) (.refl _ s2)
  clear_value s3
  have hs4 : resultsShare.Only s3 s4 := .ite (.refl _ s3) (s3.put_resultsShare _ _)
  clear_value s4
  refine Share.Only.trans (((hs1.trans hs2).trans hs3).trans hs4) ?_
  refine Share.Only.ite ?_ (.refl _ s4)
  exact .foldl _ _ (fun t p _ => (t.put_resultsShare _ _).trans (State.put_resultsShare _ _ _)) s4

theorem State.calChannel_resultsShare (proc br : Nat) (c : ChResult) : resultsShare.Only s (s.calChannel proc br c) := by
  unfold State.calChannel
  split
  · exact (s.put_resultsShare _ _).trans (State.post_resultsShare _ _ _ _ _)
  · extract_lets s1 t src s2 src' s3
    have hs1 : resultsShare.Only s s1 := .foldl _ _ (fun t p _ => t.coefWords_resultsShare _ _ _ _ _) s
    clear_value s1
    have hs2 : resultsShare.Only s1 s2 := by
      have ht : resultsShare.Only s1 t := putList_share (fun t i v => t.put_resultsShare (F.TRG_AC_DELAY_DELAY (6 * c.n + i)) v) (c.acDelay.take 6) s1 0
      clear_value t
      exact .ite (ht.trans (.parts rfl rfl)) (.refl _ s1)
    clear_value s2
    have hs3 : resultsShare.Only s2 s3 := .ite (.parts rfl rfl) (.refl _ s2)
    clear_value s3
    exact ((hs1.trans hs2).trans hs3).trans (s3.calFigures_resultsShare proc c)

theorem State.calHub_resultsShare (mask : Nat) (res : DieResult) : resultsShare.Only s (s.calHub mask res) := by
  unfold State.calHub
  extract_lets s1
  have hs1 : resultsShare.Only s s1 :=
    putList_share (fun t k v => Share.Only.ite (t.put_resultsShare (F.EVT_DELAY_DELAY k) v) (.refl _ t)) (res.evtDelay.take 8) s 0
  clear_value s1
  exact hs1.trans (.foldl _ _ (fun t p _ => .ite ((t.put_resultsShare _ _).trans (State.put_resultsShare _ _ _)) (.refl _ t)) s1)

theorem State.calStep_resultsShare (br : Nat) : resultsShare.Only s (s.calStep br) := by
  unfold State.calStep State.setCalEpoch
  dsimp only
  exact .ite (.refl _ s) (((s.put_resultsShare _ _).trans (State.put_resultsShare _ _ _)).trans (State.post_resultsShare _ _ _ _ _))

/-- What a die's taken set leaves once its source is noted. -/
def State.calNewSet (s : State) (r : CalRun) (br : Nat) (res : DieResult) : State :=
  let i := calIdx r.die
  let s2 := s.defDie i false
  let s3 := if s2.get F.CAL_STATUS_DEF_DIES = 0 then s2.clrF F.GLOBAL_STATE_CAL_DEFAULTED else s2
  let s4 := { s3 with cal := { s3.cal with
    results := true
    dieEpoch := Tab.set s3.cal.dieEpoch i (s3.get F.CAL_EPOCH_EPOCH, br) } }
  if r.die < 6 then
    ((s4.sput (F.CAL_TEMP_REF_REF r.die) (tempCode res.temp)).tempNow r.die br res.temp).advClear r.die br
  else s4

theorem State.calTaken_eq (r : CalRun) (br : Nat) (res : DieResult) :
    s.calTaken r br res = ((s.calStep br).setSrc (calIdx r.die) 2).calNewSet r br res := rfl

theorem State.calNewSet_takenShare (r : CalRun) (br : Nat) (res : DieResult) : takenShare.Only s (s.calNewSet r br res) := by
  have hput : ∀ (t : State) (f : Fld) (v : Nat), f.off ≠ 0xD0003C → takenShare.Only t (t.put f v) := fun t f v h => .put h
  unfold State.calNewSet
  extract_lets i s2 s3 src s4
  have hs2 : takenShare.Only s s2 := hput s ⟨R.CAL_STATUS, 24 + i, 24 + i⟩ _ (by simp only [R.CAL_STATUS]; decide)
  clear_value s2
  have hs3 : takenShare.Only s2 s3 := .ite (hput s2 F.GLOBAL_STATE_CAL_DEFAULTED 0 (by decide)) (.refl _ s2)
  clear_value s3
  have hs4 : takenShare.Only s3 s4 := .parts rfl rfl
  clear_value s4
  refine ((hs2.trans hs3).trans hs4).trans ?_
  split
  · next hd =>
    have hoff : (F.CAL_TEMP_REF_REF r.die).off ≠ 0xD0003C := by
      simp only [F.CAL_TEMP_REF_REF]
      omega
    have h1 := hput s4 (F.CAL_TEMP_REF_REF r.die) (enc (F.CAL_TEMP_REF_REF r.die).width (tempCode res.temp)) hoff
    have h2 : takenShare.Only (s4.sput (F.CAL_TEMP_REF_REF r.die) (tempCode res.temp)) ((s4.sput (F.CAL_TEMP_REF_REF r.die) (tempCode res.temp)).tempNow r.die br res.temp) :=
      .trans (hput _ (F.CAL_TEMP_REF_NOW r.die) _ hoff) (.parts rfl rfl)
    refine Share.Only.trans h1 (h2.trans ?_)
    generalize State.tempNow _ _ _ _ = u
    exact .trans (hput u F.CAL_DRIFT_STATUS_DRIFT _ (by decide)) (.parts rfl rfl)
  · exact .refl _ s4

theorem calIdx_le (die : Nat) : calIdx die ≤ 7 := by
  unfold calIdx
  split <;> omega

/-- A set that has been taken comes from a foreground run. -/
theorem State.calTaken_effect (r : CalRun) (br : Nat) (res : DieResult) : resultsShare.Only s (s.calTaken r br res) ∧
    (s.calTaken r br res).srcOf (calIdx r.die) = 2 := by
  rw [s.calTaken_eq r br res]
  have hstep := s.calStep_resultsShare br
  generalize s.calStep br = u at *
  have hi := calIdx_le r.die
  generalize hidx : calIdx r.die = i at *
  have hok : (⟨R.CAL_DIE_SRC, 2 * i + 1, 2 * i⟩ : Fld).ok := .of rfl (by omega)
  have hput : resultsShare.Only u (u.setSrc i 2) := .put trivial
  have hsrc : (u.setSrc i 2).srcOf i = 2 := by
    refine (RegTab.fld_setFld_self u.regs 2 hok).trans (Nat.mod_eq_of_lt ?_)
    have hwidth : (⟨R.CAL_DIE_SRC, 2 * i + 1, 2 * i⟩ : Fld).width = 2 := by
      show 2 * i + 1 - 2 * i + 1 = 2
      omega
    rw [hwidth]
    decide
  generalize u.setSrc i 2 = v at *
  have hset := v.calNewSet_takenShare r br res
  generalize v.calNewSet r br res = w at *
  exact ⟨(hstep.trans hput).trans ⟨resultsShare.frame_of hset.frame rfl, fun _ ho => absurd trivial ho⟩,
    (hset.fld (f := ⟨R.CAL_DIE_SRC, 2 * i + 1, 2 * i⟩) (fun h => h rfl)).trans hsrc⟩

end

end Sys2Proof.Machine
end

section
/-! SUPPORT. Calibration runs: the release, the end of the settling, and what the runs do (R315-R322, Table 14.5). -/

namespace Sys2Proof.Machine

open Sys2Proof.Safety

/-! ### The release (R317, R322) -/

/-- What results change. -/
def measuredShare : Share where
  upd s t := { resultsShare.upd s t with svc := t.svc }
  regs _ := True
  self _ := rfl
  again _ _ _ := rfl

/-- What a release changes. -/
def releasedShare : Share where
  upd s t := { s with
    out := t.out, regs := t.regs, chans := t.chans, acs := t.acs, intSwaps := t.intSwaps, grps := t.grps, stageFill := t.stageFill
    msix := t.msix, cal := t.cal, svc := t.svc, twin := t.twin, log := t.log }
  regs _ := True
  self _ := rfl
  again _ _ _ := rfl

section
variable (s : State) (r : CalRun) (br : Nat) (res : DieResult)

/-- A reference is suspect: no gain is taken. -/
def State.calSuspect (s : State) (r : CalRun) (res : DieResult) : Bool :=
  s.get F.CAL_STATUS_ERR == 4 || (res.suspect && bitOf r.proc 1 && !s.flag F.CAL_STATUS_OTP_BAD)

/-- The results of the channels that the die holds. -/
def CalRun.mine (r : CalRun) (res : DieResult) : List ChResult := res.chans.filter (fun c => bitOf r.mask c.n)

/-- The procedures whose results are taken. -/
def State.calTakes (s : State) (r : CalRun) (res : DieResult) : Nat := if s.calSuspect r res then clrBit r.proc 1 else r.proc

/-- A suspect reference is shown. -/
def State.suspectShown (s : State) (r : CalRun) (res : DieResult) : State := if s.calSuspect r res then s.put F.CAL_STATUS_ERR 4 else s

/-- A die's values as measured. -/
def State.calMeasured (s : State) (r : CalRun) (br : Nat) (res : DieResult) : State :=
  if r.die < 6 then (r.mine res).foldl (fun t c => t.calChannel (s.calTakes r res) br c) (s.suspectShown r res)
  else if r.die = 6 then (s.suspectShown r res).calHub r.mask res else (s.suspectShown r res).calSvc (!s.calSuspect r res) res

/-- Whether a die's set now comes from the run. -/
def State.calTaking (s : State) (r : CalRun) (res : DieResult) : Bool :=
  if r.die < 6 then s.calTakes r res != 0 && (r.mine res).any (fun c => !chRejected c (s.calTakes r res)) else true

/-- A die's results stand. -/
def State.calResulted (s : State) (r : CalRun) (br : Nat) (res : DieResult) : State :=
  (if s.calTaking r res then (s.calMeasured r br res).calTaken r br res else s.calMeasured r br res).putN R.CAL_RUN_LCNT 2 br

/-- A die's entry once its results have been given. -/
def CalRun.released (r : CalRun) : CalRun := { r with settling := decide (r.die < 6), ended := decide (6 ≤ r.die) }

/-- The parts that failed with a die's results. -/
def State.calFailed (s : State) (r : CalRun) (res : DieResult) : State := if r.die < 6 then (r.mine res).foldl (fun t c => t.calParts c) s else s

theorem State.calRelease_eq : s.calRelease r br res = (((s.calResulted r br res).setRun r.released).calFailed r res).calClosed := rfl

theorem State.calMeasured_effect : measuredShare.Only s (s.calMeasured r br res) ∧ (s.calMeasured r br res).cal.runs = s.cal.runs ∧
    (r.die ≠ 9 ∨ (s.calMeasured r br res).svc.monOff = res.monOff) := by
  have hshown : resultsShare.Only s (s.suspectShown r res) := .ite (s.put_resultsShare _ _) (.refl _ s)
  have hof : ∀ t, resultsShare.Only s t → measuredShare.Only s t ∧ t.cal.runs = s.cal.runs := fun t ht =>
    ⟨⟨measuredShare.frame_of ht.frame rfl, fun _ ho => absurd trivial ho⟩, (congrArg (fun x : State => x.cal.runs) ht.frame).trans rfl⟩
  unfold State.calMeasured
  generalize s.suspectShown r res = u at *
  split
  · next hd =>
    obtain ⟨h1, h2⟩ := hof _ (hshown.trans (.foldl _ _ (fun t c _ => t.calChannel_resultsShare (s.calTakes r res) br c) u))
    exact ⟨h1, h2, .inl (by omega)⟩
  · split
    · next hd =>
      obtain ⟨h1, h2⟩ := hof _ (hshown.trans (u.calHub_resultsShare r.mask res))
      exact ⟨h1, h2, .inl (by omega)⟩
    · obtain ⟨h1, h2⟩ := hof _ hshown
      exact ⟨h1.trans (.parts rfl rfl), h2, .inr rfl⟩

/-- What a die's results leave. -/
theorem State.calResulted_effect : measuredShare.Only s (s.calResulted r br res) ∧ (s.calResulted r br res).cal.runs = s.cal.runs ∧
    (s.calResulted r br res).getN R.CAL_RUN_LCNT 2 = br % 2 ^ 64 ∧
    (s.calTaking r res = true → (s.calResulted r br res).srcOf (calIdx r.die) = 2) ∧
    (r.die ≠ 9 ∨ (s.calResulted r br res).svc.monOff = res.monOff) := by
  obtain ⟨hshare, hruns, hsvc⟩ := s.calMeasured_effect r br res
  unfold State.calResulted
  generalize s.calMeasured r br res = u at *
  obtain ⟨htaken, hsrc⟩ := u.calTaken_effect r br res
  generalize u.calTaken r br res = v at *
  have hkept : ∀ w : State, (w.putN R.CAL_RUN_LCNT 2 br).srcOf (calIdx r.die) = w.srcOf (calIdx r.die) := fun w =>
    State.get_putN_other w _ _ _ _ (.inl (by show 0xD0003C < 0xD00040; decide))
  have hput : ∀ w : State, measuredShare.Only w (w.putN R.CAL_RUN_LCNT 2 br) := fun w => .putN (fun _ _ _ => trivial)
  cases s.calTaking r res with
  | true =>
    have hv : measuredShare.Only u v := ⟨measuredShare.frame_of htaken.frame rfl, fun _ ho => absurd trivial ho⟩
    have hvruns : v.cal.runs = u.cal.runs := (congrArg (fun x : State => x.cal.runs) htaken.frame).trans rfl
    have hvsvc : v.svc = u.svc := (congrArg State.svc htaken.frame).trans rfl
    refine ⟨(hshare.trans hv).trans (hput v), hvruns.trans hruns, State.getN_putN v _ _ _, fun _ => (hkept v).trans hsrc, hsvc.imp id fun h => ?_⟩
    exact (congrArg Svc.monOff hvsvc).trans h
  | false => exact ⟨hshare.trans (hput u), hruns, State.getN_putN u _ _ _, fun h => absurd h (by decide), hsvc⟩

theorem lt_of_bitOf {m k n : Nat} (hm : m < 2 ^ n) (h : bitOf m k = true) : k < n := by
  by_contra hc
  have hpow : 2 ^ n ≤ 2 ^ k := Nat.pow_le_pow_right (by decide) (by omega)
  have hzero : m / 2 ^ k = 0 := Nat.div_eq_of_lt (by omega)
  simp [bitOf, hzero] at h

theorem State.calFailed_partsFail (hmask : r.mask < 2 ^ 48) (hint : ∀ c ∈ res.chans, ∀ i ∈ c.badInt, i < 16) : PartsFail s (s.calFailed r res) := by
  refine .ite (.foldl _ _ (fun t c hc => ?_) s) (.refl s)
  obtain ⟨hc, hbit⟩ := List.mem_filter.mp hc
  exact t.calParts_partsFail (lt_of_bitOf hmask hbit) (hint c hc)

/-- What a release leaves. -/
theorem State.calRelease_effect (hr : r ∈ s.cal.runs) (hmask : r.mask < 2 ^ 48) (hint : ∀ c ∈ res.chans, ∀ i ∈ c.badInt, i < 16) :
    releasedShare.Only s (s.calRelease r br res) ∧ (s.calRelease r br res).getN R.CAL_RUN_LCNT 2 = br % 2 ^ 64 ∧
    (∃ x ∈ (s.calRelease r br res).cal.runs, x.die = r.die ∧ x.start = r.start ∧ x.settling = decide (r.die < 6) ∧ x.ended = decide (6 ≤ r.die)) ∧
    (s.calTaking r res = true → (s.calRelease r br res).srcOf (calIdx r.die) = 2) ∧
    (r.die = 9 → (s.calRelease r br res).svc.monOff = res.monOff) := by
  rw [s.calRelease_eq r br res]
  obtain ⟨hshare, hruns, hlcnt, hsrc, hsvc⟩ := s.calResulted_effect r br res
  generalize s.calResulted r br res = u at *
  have hmem : r.released ∈ (u.setRun r.released).cal.runs := mem_setRun (r := r) (by rwa [hruns]) rfl rfl
  have hset : releasedShare.Only s (u.setRun r.released) :=
    .trans (t := u) ⟨releasedShare.frame_of hshare.frame rfl, fun _ ho => absurd trivial ho⟩ (.parts rfl rfl)
  have hregs : (u.setRun r.released).regs = u.regs := rfl
  have hsvc1 : (u.setRun r.released).svc = u.svc := rfl
  generalize u.setRun r.released = v at *
  have hfail := v.calFailed_partsFail r res hmask hint
  generalize v.calFailed r res = w at *
  have hfailed : releasedShare.Only s w := hset.trans ⟨releasedShare.frame_of hfail.share.frame rfl, fun _ ho => absurd trivial ho⟩
  have hsvc2 : w.svc = v.svc := (congrArg State.svc hfail.share.frame).trans rfl
  have hclose := w.calClosed_closeShare
  have hcruns := w.calClosed_runs
  generalize w.calClosed = x at *
  have hsvc3 : x.svc = w.svc := (congrArg State.svc hclose.frame).trans rfl
  have hword : ∀ off, 0xD0003C ≤ off → off < 0xD00048 → x.regs.word off = u.regs.word off := fun off h1 h2 => by
    rw [hclose.word off (by simp only [closeShare, showShare]; omega), hfail.share.word off (by simp only [partsShare]; omega), hregs]
  refine ⟨hfailed.trans ⟨releasedShare.frame_of hclose.frame rfl, fun _ ho => absurd trivial ho⟩, ?_, ?_, fun ht => ?_, fun hd => ?_⟩
  · refine Eq.trans (RegTab.wide_congr 2 R.CAL_RUN_LCNT fun j h1 h2 => ?_) hlcnt
    simp only [R.CAL_RUN_LCNT] at h1 h2
    exact hword j (by omega) (by omega)
  · have hbare : r.released.bare ∈ w.cal.runs.map CalRun.bare := by
      rw [hfail.runs]
      exact List.mem_map_of_mem hmem
    obtain ⟨y, hy, hyb⟩ := List.mem_map.mp hbare
    have hof : ∀ {α : Type} (f : CalRun → α), f y.bare = f r.released.bare := fun f => congrArg f hyb
    exact ⟨y, by rwa [hcruns], hof CalRun.die, hof CalRun.start, hof CalRun.settling, hof CalRun.ended⟩
  · refine Eq.trans ?_ (hsrc ht)
    show x.regs.fld _ = u.regs.fld _
    exact congrArg (fun w => fldGet w _) (hword 0xD0003C (by decide) (by decide))
  · rw [hsvc3, hsvc2, hsvc1]
    exact hsvc.resolve_left (fun h => h hd)

end

/-! ### The end of the settling (R317) -/

/-- What the end of the settling changes. -/
def settledShare : Share where
  upd s t := { s with regs := t.regs, dcs := t.dcs, grps := t.grps, stageFill := t.stageFill, cal := t.cal }
  regs _ := True
  self _ := rfl
  again _ _ _ := rfl

section
variable (s : State)

/-- What channels let go change. -/
def letGoShare : Share where
  upd s t := { s with dcs := t.dcs, grps := t.grps }
  regs _ := False
  self _ := rfl
  again _ _ _ := rfl

theorem State.calLetGo_letGoShare (mask b : Nat) : letGoShare.Only s (s.calLetGo mask b) := by
  unfold State.calLetGo
  refine .trans (.foldl _ _ (fun t n _ => .foldl _ _ (fun u d _ => ?_) t) s) (.foldl _ _ (fun t g _ => ?_) _)
  · exact .parts (t := u.setDc (4 * n + d) { u.dc (4 * n + d) with breaks := (u.dc (4 * n + d)).breaks ++ [(b, none)] }) rfl rfl
  · dsimp only
    split
    · exact .ite (.parts rfl rfl) (.refl _ t)
    · exact .refl _ t

/-- A die that has settled lets its channels go at core cycle c. -/
def State.calLeave (s : State) (mask c : Nat) : State := ((s.calLetGo mask c).calGaps c).calClosed

theorem State.calLeave_effect (mask c : Nat) : settledShare.Only s (s.calLeave mask c) ∧ (s.calLeave mask c).cal.runs = s.cal.runs := by
  unfold State.calLeave
  have hgo := s.calLetGo_letGoShare mask c
  generalize s.calLetGo mask c = u at *
  have hgaps : gapShare.Only u (u.calGaps c) := u.setLossAll_gapShare c 5 _
  generalize u.calGaps c = v at *
  have hclose := v.calClosed_closeShare
  generalize v.calClosed = w at *
  have hu : settledShare.Only s u := ⟨settledShare.frame_of hgo.frame rfl, fun _ ho => absurd trivial ho⟩
  have hv : settledShare.Only u v := ⟨settledShare.frame_of hgaps.frame rfl, fun _ ho => absurd trivial ho⟩
  have hw : settledShare.Only v w := ⟨settledShare.frame_of hclose.frame rfl, fun _ ho => absurd trivial ho⟩
  refine ⟨(hu.trans hv).trans hw, ?_⟩
  exact ((congrArg (fun x : State => x.cal.runs) hclose.frame).trans rfl).trans
    (((congrArg (fun x : State => x.cal.runs) hgaps.frame).trans rfl).trans ((congrArg (fun x : State => x.cal.runs) hgo.frame).trans rfl))

end

/-! ### The statement -/

/-- CAL_START with every run ended and the fabric on its loop. -/
theorem calStart_taken {s : State} (hended : ∀ r ∈ s.cal.runs, r.ended = true) (hbyp : s.flag F.CLK_STATUS_FABRIC_BYP = false) : ∃ t,
    exec .calStart s = .next t ∧ t.cal.abort = none ∧ t.cal.results = false ∧
    t.cal.runs.take s.cal.runs.length = s.cal.runs ∧
    (∀ r ∈ t.cal.runs.drop s.cal.runs.length, r.reqAt = s.lcnt ∧ r.start = none ∧ r.settling = false ∧ r.ended = false) ∧
    (t.cal.runs ≠ s.cal.runs → t.flag F.CAL_STATUS_WAITING = true) ∧
    (s.getN R.CAL_FG_CH 2 % 2 ^ 48 = 0 → s.get F.CAL_FG_PROC_PROC < 32 → t.cal.runs = s.cal.runs ∧ t.get F.CAL_STATUS_ERR = 7) ∧
    (s.getN R.CAL_FG_CH 2 % 2 ^ 48 = 0 → s.get F.CAL_FG_PROC_PROC = 32 →
      t.cal.runs = s.cal.runs ++ [⟨6, 255, 32, s.lcnt, none, false, false⟩] ∧ t.get F.CAL_STATUS_ERR = 0) ∧
    memSame s t ∧ t = { s with regs := t.regs, cal := t.cal } := by
  have hexec : exec .calStart s = .next (s.calRequest s.lcnt (s.getN R.CAL_FG_CH 2 % 2 ^ 48) (s.get F.CAL_FG_PROC_PROC)) := rfl
  rw [s.calRequest_taken _ _ _ hended hbyp] at hexec
  refine ⟨_, hexec, ?_⟩
  generalize s.getN R.CAL_FG_CH 2 % 2 ^ 48 = mask
  generalize s.get F.CAL_FG_PROC_PROC = proc
  obtain ⟨hcal, herr, hframe⟩ := s.calTakenUp_effect s.lcnt mask proc
  have hwait := (s.calListed s.lcnt mask proc).calShow_waiting
  have hlisted : (s.calListed s.lcnt mask proc).cal.runs = (s.calListed s.lcnt mask proc).calShow.cal.runs :=
    ((congrArg (fun x : State => x.cal.runs) (s.calListed s.lcnt mask proc).calShow_frame).trans rfl).symm
  rw [hlisted] at hwait
  generalize (s.calListed s.lcnt mask proc).calShow = t at *
  have hruns : t.cal.runs = s.cal.runs ++ s.calEntries s.lcnt mask proc := congrArg Cal.runs hcal
  refine ⟨congrArg Cal.abort hcal, congrArg Cal.results hcal, ?_, fun r hr => ?_, fun hne => ?_, fun hm hp => ?_, fun hm hp => ?_,
    memSame_of_fields ((congrArg State.store hframe).trans rfl) ((congrArg State.flash hframe).trans rfl), hframe⟩
  · rw [hruns, List.take_left]
  · rw [hruns, List.drop_left] at hr
    obtain ⟨h1, h2, h3, h4, -⟩ := s.mem_calEntries hr
    exact ⟨h1, h2, h3, h4⟩
  · cases hentries : s.calEntries s.lcnt mask proc with
    | nil => exact absurd (by rw [hruns, hentries, List.append_nil]) hne
    | cons r rest =>
      obtain ⟨-, hstart, -, hrended, -⟩ := s.mem_calEntries (r := r) (hentries ▸ List.mem_cons_self)
      refine hwait.trans (List.any_eq_true.mpr ⟨r, ?_, by rw [hstart, hrended]; rfl⟩)
      rw [hruns, hentries]
      simp
  · rw [hruns, herr, hm, s.calEntries_zero, s.calOthers_of_lt hp, State.calErr, if_pos ⟨s.calChannels_zero, s.calOthers_of_lt hp⟩]
    exact ⟨List.append_nil _, rfl⟩
  · rw [hruns, herr, hm, hp, s.calEntries_zero, s.calOthers_evt, State.calErr, if_neg (by simp [s.calOthers_evt])]
    refine ⟨?_, ?_⟩
    · rw [List.map_singleton, s.calProcs_evt]
      rfl
    · have hbits : (bitOf 32 1 || bitOf 32 6) = false := by decide
      simp [hbits]

section
variable {die : Fin 10} {s : State} {r : CalRun}

theorem calRunStart_starts {b : Nat} (hfind : s.cal.runs.find? (fun x => x.die == die.val && x.start.isNone) = some r)
    (hb : b = boundaryAt (max s.lcnt r.reqAt)) :
    (s.canStart r b = false → exec (.calRunStart die) s = .next s) ∧
    (s.canStart r b = true → ∃ t, exec (.calRunStart die) s = .next t ∧ t.lcnt = max s.lcnt b ∧
      (∃ x ∈ t.cal.runs, x.die = r.die ∧ x.reqAt = r.reqAt ∧ x.start = some (b, b + 2048 * r.ticks)) ∧
      (r.die < 6 → r.mask ≠ 0 → t.flag F.CAL_STATUS_BUSY = true) ∧
      (r.die = 9 → r.settling = false → r.ended = false → t.flag F.CAL_STATUS_BUSY = true ∧ t.flag F.SVC_STATUS_MON_HELD = true) ∧
      memSame s t ∧ t = { s with
        out := t.out, free := t.free, lcnt := t.lcnt, regs := t.regs, grps := t.grps, stageFill := t.stageFill,
        fillData := t.fillData, msix := t.msix, cal := t.cal, twin := t.twin, log := t.log }) := by
  have hexec : exec (.calRunStart die) s = .next (if s.canStart r b then (s.at_ b).calStartDie r b else s) := by
    rw [hb]
    show Host.Outcome.next (match s.cal.runs.find? (fun x => x.die == die.val && x.start.isNone) with
      | some r => _
      | none => _) = _
    rw [hfind]
  refine ⟨fun h => hexec.trans (congrArg Host.Outcome.next (if_neg (by simp [h]))), fun h =>
    ⟨_, hexec.trans (congrArg Host.Outcome.next (if_pos h)), ?_⟩⟩
  obtain ⟨hshare, hmem, hbusy, hmon⟩ := (s.at_ b).calStartDie_effect r b (List.mem_of_find?_eq_some hfind)
  have hsix : r.die < 6 → r.mask ≠ 0 → ((s.at_ b).startedRun r b).ended = false := fun h1 h2 => by
    have hnone : (s.at_ b).startBusy r = [] := if_neg (by omega)
    simp only [State.startedRun, hnone]
    simpa [maskOf] using fun _ => h2
  have hnine : r.die = 9 → ((s.at_ b).startedRun r b).ended = false := fun h => by simp [State.startedRun, h]
  generalize (s.at_ b).calStartDie r b = t at *
  have hframe : t = { s with
      out := t.out, free := t.free, lcnt := max s.lcnt b, regs := t.regs, grps := t.grps, stageFill := t.stageFill,
      fillData := t.fillData, msix := t.msix, cal := t.cal, twin := t.twin, log := t.log } := hshare.frame.trans rfl
  have hlcnt : t.lcnt = max s.lcnt b := (congrArg State.lcnt hframe).trans rfl
  refine ⟨hlcnt, ⟨_, hmem, rfl, rfl, rfl⟩, fun h1 h2 => hbusy (hsix h1 h2), fun hd hsettle _ => ⟨hbusy (hnine hd), hmon hd ?_⟩,
    memSame_of_fields ((congrArg State.store hframe).trans rfl) ((congrArg State.flash hframe).trans rfl), by rwa [hlcnt]⟩
  rw [CalRun.holding, hnine hd]
  show (true && !r.settling && !false) = true
  rw [hsettle]
  rfl

theorem calRelease_releases {res : DieResult} {b0 br : Nat} (hfind : s.cal.runs.find? (fun x => x.die == die.val && x.holding) = some r)
    (hstart : r.start = some (b0, br)) :
    (s.cal.abort ≠ none → exec (.calRelease die res) s = .next s) ∧
    (s.cal.abort = none → r.mask < 2 ^ 48 → (∀ c ∈ res.chans, ∀ i ∈ c.badInt, i < 16) → ∃ t, exec (.calRelease die res) s = .next t ∧ t.lcnt = max s.lcnt br ∧
      t.getN R.CAL_RUN_LCNT 2 = br % 2 ^ 64 ∧
      (∃ x ∈ t.cal.runs, x.die = r.die ∧ x.start = r.start ∧ x.settling = decide (r.die < 6) ∧ x.ended = decide (6 ≤ r.die)) ∧
      (r.die = 9 → t.srcOf 7 = 2 ∧ t.svc.monOff = res.monOff) ∧
      (r.die < 6 → (∃ c ∈ res.chans, bitOf r.mask c.n = true ∧ chRejected c r.proc = false) → r.proc ≠ 0 → res.suspect = false →
        s.get F.CAL_STATUS_ERR ≠ 4 → t.srcOf r.die = 2) ∧
      ((∀ c ∈ res.chans, c.badPos = []) → storeSame s t) ∧
      flashSame s t ∧ t = { s with
        out := t.out, lcnt := t.lcnt, regs := t.regs, chans := t.chans, acs := t.acs, intSwaps := t.intSwaps, grps := t.grps,
        store := t.store, stageFill := t.stageFill, sto := t.sto, msix := t.msix, cal := t.cal, svc := t.svc, twin := t.twin,
        log := t.log }) := by
  have hexec : exec (.calRelease die res) s = .next (if s.cal.abort.isNone then (s.at_ br).calRelease r br res else s) := by
    show Host.Outcome.next (match s.cal.runs.find? (fun x => x.die == die.val && x.holding) with
      | some r => _
      | none => _) = _
    rw [hfind]
    dsimp only
    rw [hstart]
  refine ⟨fun h => hexec.trans (congrArg Host.Outcome.next (if_neg (by simpa using h))), fun h hmask hint =>
    ⟨_, hexec.trans (congrArg Host.Outcome.next (if_pos (by rw [h]; rfl))), ?_⟩⟩
  obtain ⟨hshare, hlcnt, hmem, hsrc, hsvc⟩ := (s.at_ br).calRelease_effect r br res (List.mem_of_find?_eq_some hfind) hmask hint
  have htaking : (∃ c ∈ res.chans, bitOf r.mask c.n = true ∧ chRejected c r.proc = false) → r.proc ≠ 0 → res.suspect = false →
      s.get F.CAL_STATUS_ERR ≠ 4 → (s.at_ br).calTaking r res = true := fun ⟨c, hc, hbit, hrej⟩ hproc hsus herr => by
    have hsusp : (s.at_ br).calSuspect r res = false := by
      have herr' : ((s.at_ br).get F.CAL_STATUS_ERR == 4) = false := beq_eq_false_iff_ne.mpr herr
      rw [State.calSuspect, herr', hsus]
      rfl
    have htakes : (s.at_ br).calTakes r res = r.proc := if_neg (by simp [hsusp])
    have hany : (r.mine res).any (fun c => !chRejected c r.proc) = true :=
      List.any_eq_true.mpr ⟨c, List.mem_filter.mpr ⟨hc, hbit⟩, by rw [hrej]; rfl⟩
    rw [State.calTaking, htakes, hany]
    simp [hproc]
  have hnine : r.die = 9 → (s.at_ br).calTaking r res = true := fun hd => if_neg (by omega)
  generalize (s.at_ br).calRelease r br res = t at *
  have hframe : t = { s with
      out := t.out, lcnt := max s.lcnt br, regs := t.regs, chans := t.chans, acs := t.acs, intSwaps := t.intSwaps, grps := t.grps,
      stageFill := t.stageFill, msix := t.msix, cal := t.cal, svc := t.svc, twin := t.twin, log := t.log } := hshare.frame.trans rfl
  have hmem2 : memSame s t := memSame_of_fields ((congrArg State.store hframe).trans rfl) ((congrArg State.flash hframe).trans rfl)
  have hnow : t.lcnt = max s.lcnt br := (congrArg State.lcnt hframe).trans rfl
  have hstore : t.store = s.store := (congrArg State.store hframe).trans rfl
  have hsto : t.sto = s.sto := (congrArg State.sto hframe).trans rfl
  refine ⟨hnow, hlcnt, hmem, fun hd => ⟨?_, hsvc hd⟩, fun hd hex hproc hsus herr => ?_, fun _ => hmem2.1, hmem2.2, ?_⟩
  · have := hsrc (hnine hd)
    rwa [hd] at this
  · have := hsrc (htaking hex hproc hsus herr)
    have hidx : calIdx r.die = r.die := (if_neg (by omega)).trans (by omega)
    rwa [hidx] at this
  · rw [hnow, hstore, hsto]
    exact hframe

theorem calSettleEnd_settles {b0 br : Nat} (hfind : s.cal.runs.find? (fun x => x.die == die.val && x.settling) = some r)
    (hstart : r.start = some (b0, br)) : ∃ t, exec (.calSettleEnd die) s = .next t ∧ t.lcnt = max s.lcnt (br + 64) ∧
      (∃ x ∈ t.cal.runs, x.die = r.die ∧ x.start = r.start ∧ x.settling = false ∧ x.ended = true) ∧ memSame s t ∧
      t = { s with lcnt := t.lcnt, regs := t.regs, dcs := t.dcs, grps := t.grps, stageFill := t.stageFill, cal := t.cal } := by
  have hexec : exec (.calSettleEnd die) s =
      .next ((((s.at_ (br + 64)).setRun { r with settling := false, ended := true })).calLeave r.mask (br + 64)) := by
    show Host.Outcome.next (match s.cal.runs.find? (fun x => x.die == die.val && x.settling) with
      | some r => _
      | none => _) = _
    rw [hfind]
    dsimp only
    rw [hstart]
    rfl
  refine ⟨_, hexec, ?_⟩
  have hmem : ({ r with settling := false, ended := true } : CalRun) ∈ ((s.at_ (br + 64)).setRun { r with settling := false, ended := true }).cal.runs :=
    mem_setRun (r := r) (List.mem_of_find?_eq_some hfind) rfl rfl
  have hset : (s.at_ (br + 64)).setRun { r with settling := false, ended := true } = { s with
      lcnt := max s.lcnt (br + 64), cal := ((s.at_ (br + 64)).setRun { r with settling := false, ended := true }).cal } := rfl
  generalize (s.at_ (br + 64)).setRun { r with settling := false, ended := true } = u at *
  obtain ⟨hshare, hruns⟩ := u.calLeave_effect r.mask (br + 64)
  generalize u.calLeave r.mask (br + 64) = t at *
  have hframe : t = { s with
      lcnt := max s.lcnt (br + 64), regs := t.regs, dcs := t.dcs, grps := t.grps, stageFill := t.stageFill, cal := t.cal } :=
    hshare.frame.trans ((congrArg (fun x => settledShare.upd x t) hset).trans rfl)
  have hnow : t.lcnt = max s.lcnt (br + 64) := (congrArg State.lcnt hframe).trans rfl
  exact ⟨hnow, ⟨{ r with settling := false, ended := true }, by rwa [hruns], rfl, rfl, rfl, rfl⟩, memSame_of_fields ((congrArg State.store hframe).trans rfl) ((congrArg State.flash hframe).trans rfl),
    by rwa [hnow]⟩

end

theorem find?_eq_none_of {l : List CalRun} {p : CalRun → Bool} {die : Nat} (h : ∀ x ∈ l, x.die = die → p x = false) :
    l.find? (fun x => x.die == die && p x) = none := by
  refine List.find?_eq_none.mpr fun x hx => ?_
  by_cases hd : x.die = die
  · simp [h x hx hd]
  · simp [hd]

theorem exec_calRunStart_none {die : Fin 10} {s : State} (h : s.cal.runs.find? (fun x => x.die == die.val && x.start.isNone) = none) :
    exec (.calRunStart die) s = .next s := by
  show Host.Outcome.next (match s.cal.runs.find? (fun x => x.die == die.val && x.start.isNone) with
    | some r => _
    | none => _) = _
  rw [h]

theorem exec_calRelease_none {die : Fin 10} {res : DieResult} {s : State} (h : s.cal.runs.find? (fun x => x.die == die.val && x.holding) = none) :
    exec (.calRelease die res) s = .next s := by
  show Host.Outcome.next (match s.cal.runs.find? (fun x => x.die == die.val && x.holding) with
    | some r => _
    | none => _) = _
  rw [h]

theorem exec_calSettleEnd_none {die : Fin 10} {s : State} (h : s.cal.runs.find? (fun x => x.die == die.val && x.settling) = none) :
    exec (.calSettleEnd die) s = .next s := by
  show Host.Outcome.next (match s.cal.runs.find? (fun x => x.die == die.val && x.settling) with
    | some r => _
    | none => _) = _
  rw [h]

/-- Settles O55. -/
theorem calibrationRunsStartAndRelease : Obligations.CalibrationRunsStartAndRelease := by
  unfold Obligations.CalibrationRunsStartAndRelease
  refine ⟨fun s h => congrArg Host.Outcome.next (s.calRequest_refused _ _ _ h),
    fun s h => ⟨fun hb => congrArg Host.Outcome.next (s.calRequest_bypassed _ _ _ h hb), calStart_taken h⟩,
    fun s => ⟨fun ⟨r, hr, h1, h2⟩ => congrArg Host.Outcome.next (if_pos (List.any_eq_true.mpr ⟨r, hr, by rw [CalRun.unfinished, h1, h2]; rfl⟩)),
      fun h => congrArg Host.Outcome.next (if_neg ?_)⟩,
    fun die s r b hfind hb => calRunStart_starts hfind hb,
    fun die s h => exec_calRunStart_none (find?_eq_none_of fun x hx hd => ?_),
    fun die res s r b0 br hfind hstart => calRelease_releases hfind hstart,
    fun die res s h => exec_calRelease_none (find?_eq_none_of h),
    fun die s r b0 br hfind hstart => calSettleEnd_settles hfind hstart,
    fun die s h => exec_calSettleEnd_none (find?_eq_none_of h)⟩
  · simp only [List.any_eq_true, not_exists, not_and]
    intro r hr
    rcases h r hr with h | h <;> simp [CalRun.unfinished, h]
  · have := h x hx hd
    simpa [Option.isSome_iff_ne_none, Option.isNone_eq_false_iff] using this

end Sys2Proof.Machine
end

section
/-! SUPPORT. Calibration saves, the temperature advisories and the runs that start by themselves (R323, R325, R326). -/

namespace Sys2Proof.Machine

open Sys2Proof.Safety

/-! ### Writes of several bytes -/

/-- Bytes outside a write stay. -/
theorem Mem.read_writeBytes_outside (d : Byte) (bs : List Byte) : ∀ (m : Mem) (a b : Nat), Mem.wf d m = true → b < a ∨ a + bs.length ≤ b →
    Mem.read d (Mem.writeBytes d m a bs) b = Mem.read d m b := by
  induction bs with
  | nil => intro m a b _ _; rfl
  | cons x xs ih =>
    intro m a b hm h
    rw [List.length_cons] at h
    rw [Mem.writeBytes, ih _ _ _ (Mem.wf_write d m a x hm) (by omega), Mem.read_write d m a b x hm, if_neg (by omega)]

section
variable (s : State)

theorem State.drawBytes_length (n : Nat) : ∀ s : State, (s.drawBytes n).1.length = n := by
  induction n with
  | zero => exact fun _ => rfl
  | succ n ih => exact fun s => congrArg (· + 1) (ih _)

theorem State.drawBytes_frame (n : Nat) : ∀ s : State, (s.drawBytes n).2 = { s with free := (s.drawBytes n).2.free } := by
  induction n with
  | zero => exact fun _ => rfl
  | succ n ih => exact fun s => (ih _).trans rfl

/-! ### Saves (R323) -/

/-- The save in progress has ended. -/
def State.saveEnded (s : State) : State := { (s.clrF F.CAL_STATUS_SAVING) with cal := { s.cal with saving := none } }

theorem exec_calSaveDone {ok : Bool} {slot seq : Nat} {bytes : List (BitVec 8)} {s : State} (h : s.cal.saving = some (slot, seq, bytes)) :
    exec (.calSaveDone ok) s = .next (if ok then s.saveEnded.saveWritten slot seq bytes else s.saveEnded.saveFailed slot).saveNext := by
  show Host.Outcome.next (match s.cal.saving with
    | none => _
    | some (slot, seq, bytes) => _) = _
  rw [h]
  rfl

theorem calSaveDone_written {slot seq : Nat} {bytes : List (BitVec 8)} (h : s.cal.saving = some (slot, seq, bytes)) (hdue : s.cal.saveDue = false)
    (hwf : Mem.wf 0xFF s.flash = true) : ∃ t, exec (.calSaveDone true) s = .next t ∧ t.flag F.CAL_STATUS_SAVING = false ∧
      t.get F.CAL_SEQ_SEQ = seq % 2 ^ 32 ∧ t.cal.saving = none ∧ t.flash = Mem.writeBytes 0xFF s.flash (copyBase slot) bytes ∧
      (∀ a, (a < copyBase slot ∨ copyBase slot + bytes.length ≤ a) → Mem.read 0xFF t.flash a = Mem.read 0xFF s.flash a) ∧
      onlyFields [F.CAL_STATUS_SAVING, F.CAL_SEQ_SEQ] s t ∧ storeSame s t ∧ t = { s with regs := t.regs, flash := t.flash, cal := t.cal } := by
  have hnext : (s.saveEnded.saveWritten slot seq bytes).saveNext = s.saveEnded.saveWritten slot seq bytes :=
    if_neg (fun hc => absurd (hc.1 : s.cal.saveDue = true) (by simp [hdue]))
  have honly : changesOnly [F.CAL_STATUS_SAVING, F.CAL_SEQ_SEQ] s ((s.clrF F.CAL_STATUS_SAVING).put F.CAL_SEQ_SEQ seq) :=
    .put (.put (.refl _ s) (by simp)) (by simp)
  refine ⟨_, (exec_calSaveDone h).trans (congrArg Host.Outcome.next hnext), ?_, ?_, rfl, rfl, fun a ha => ?_, fun f hok hf => honly.1 f hok hf, fun _ => rfl, rfl⟩
  · exact (RegTab.bit_setFld_sep (f := F.CAL_SEQ_SEQ) (g := F.CAL_STATUS_SAVING) _ _ (.of rfl (by omega))).trans (RegTab.bit_setFld_zero _ (.of rfl (by omega)))
  · exact RegTab.fld_setFld_self _ seq (.of rfl (by omega))
  · exact Mem.read_writeBytes_outside _ _ _ _ _ hwf ha

theorem calSaveDone_failed {slot seq : Nat} {bytes : List (BitVec 8)} (h : s.cal.saving = some (slot, seq, bytes)) (hdue : s.cal.saveDue = false)
    (hwf : Mem.wf 0xFF s.flash = true) : ∃ t, exec (.calSaveDone false) s = .next t ∧ t.flag F.CAL_STATUS_SAVING = false ∧
      t.flag F.CAL_STATUS_SAVE_FAIL = true ∧ t.cal.saving = none ∧
      (∀ a, (a < copyBase slot ∨ copyBase slot + 148480 ≤ a) → Mem.read 0xFF t.flash a = Mem.read 0xFF s.flash a) ∧
      onlyFields [F.CAL_STATUS_SAVING, F.CAL_STATUS_SAVE_FAIL] s t ∧ storeSame s t ∧
      t = { s with free := t.free, regs := t.regs, flash := t.flash, cal := t.cal } := by
  refine ⟨_, exec_calSaveDone h, ?_⟩
  rw [if_neg (by decide)]
  have hlen := State.drawBytes_length copyLen s.saveEnded
  have hframe := State.drawBytes_frame copyLen s.saveEnded
  unfold State.saveFailed
  dsimp only
  generalize hd : s.saveEnded.drawBytes copyLen = d at *
  obtain ⟨bs, u⟩ := d
  dsimp only at hlen hframe ⊢
  have hbase : copyBase slot + bs.length = copyBase slot + 148480 := congrArg _ hlen
  rw [State.saveNext, if_neg (fun hc => absurd (hc.1 : s.cal.saveDue = true) (by simp [hdue]))]
  have hregs : u.regs = (s.clrF F.CAL_STATUS_SAVING).regs := (congrArg State.regs hframe).trans rfl
  have honly : changesOnly [F.CAL_STATUS_SAVING, F.CAL_STATUS_SAVE_FAIL] s ((s.clrF F.CAL_STATUS_SAVING).setF F.CAL_STATUS_SAVE_FAIL) :=
    .put (.put (.refl _ s) (by simp)) (by simp)
  refine ⟨?_, RegTab.bit_setFld_one _ (.of rfl (by omega)), rfl, fun a ha => ?_, fun f hok hf => ?_, fun a => ?_, ?_⟩
  · refine (RegTab.bit_setFld_sep (f := F.CAL_STATUS_SAVE_FAIL) (g := F.CAL_STATUS_SAVING) _ _ (.of rfl (by omega))).trans ?_
    rw [hregs]
    exact RegTab.bit_setFld_zero _ (.of rfl (by omega))
  · exact Mem.read_writeBytes_outside _ _ _ _ _ hwf (by rwa [hbase])
  · refine Eq.trans ?_ (honly.1 f hok hf)
    show (u.regs.setFld _ _).fld f = _
    rw [hregs]
    rfl
  · exact congrArg (fun m => Mem.read 0 m a) ((congrArg State.store hframe).trans rfl)
  · rw [hframe]
    rfl

/-! ### Advisories (R325) -/

theorem bitOf_clrBit (m k : Nat) : bitOf (clrBit m k) k = false := by
  unfold clrBit
  split
  · next h =>
    have hodd : m / 2 ^ k % 2 = 1 := beq_iff_eq.mp h
    have hdiv : (m - 2 ^ k) / 2 ^ k = m / 2 ^ k - 1 := by
      simpa using Nat.sub_mul_div m (2 ^ k) 1
    rw [bitOf, hdiv]
    exact beq_eq_false_iff_ne.mpr (by omega)
  · next h => exact Bool.not_eq_true _ ▸ h

theorem State.get_tempNow (k : Nat) (a : Nat) (temp : Int) : (s.tempNow k a temp).get (F.CAL_TEMP_REF_NOW k) = enc 8 (tempCode temp) := by
  refine (RegTab.fld_setFld_self _ _ (.of rfl (by omega))).trans ?_
  exact enc_mod 8 _

section
variable (k : Fin 6) (temp : Int)

/-- A die's advisory is set in core cycle a, the advisories being m from then on. -/
def State.advSet (s : State) (k a m : Nat) : State :=
  let s2 := s.put F.CAL_DRIFT_STATUS_DRIFT m
  { s2 with cal := { s2.cal with since := Tab.set s2.cal.since k a, advs := (k, a, none) :: s2.cal.advs } }

theorem State.tempNow_only {fs : List Fld} (k a : Nat) (temp : Int) (h : F.CAL_TEMP_REF_NOW k ∈ fs) : changesOnly fs s (s.tempNow k a temp) := by
  have hput : changesOnly fs s (s.sput (F.CAL_TEMP_REF_NOW k) (tempCode temp)) := .put (.refl _ s) h
  exact hput.parts rfl rfl rfl rfl

theorem State.get_drift_mod {v k : Nat} (hk : k < 6) {t u : State} (h : t = u.put F.CAL_DRIFT_STATUS_DRIFT v) : bitOf (t.get F.CAL_DRIFT_STATUS_DRIFT) k = bitOf v k := by
  rw [h]
  exact (congrArg (fun m => bitOf m k) (RegTab.fld_setFld_self u.regs v (f := F.CAL_DRIFT_STATUS_DRIFT) (.of rfl (by omega)))).trans (bitOf_mod (w := 6) hk)

theorem driftAdvisorySet_set (hdt : s.driftDt < s.driftOf k temp) (hclear : bitOf (s.get F.CAL_DRIFT_STATUS_DRIFT) k = false) : ∃ t,
    exec (.driftAdvisorySet k temp) s = .next t ∧ bitOf (t.get F.CAL_DRIFT_STATUS_DRIFT) k = true ∧
    t.get (F.CAL_TEMP_REF_NOW k) = enc 8 (tempCode temp) ∧ t.cal.since = Tab.set s.cal.since k.val s.lcnt ∧
    (0x0D04, s.locus k 15 255 255) ∈ t.log.seen ∧
    changesOnly (F.CAL_DRIFT_STATUS_DRIFT :: F.CAL_TEMP_REF_NOW k :: logFlds) s t ∧
    t = { s with out := t.out, regs := t.regs, cal := t.cal, msix := t.msix, twin := t.twin, log := t.log } := by
  have hexec : exec (.driftAdvisorySet k temp) s = .next (((s.tempNow k s.lcnt temp).advSet k s.lcnt (setBit (s.get F.CAL_DRIFT_STATUS_DRIFT) k)).post s.lcnt
      0x0D04 (s.locus k 15 255 255) 0) := congrArg Host.Outcome.next (if_pos ⟨hdt, hclear⟩)
  refine ⟨_, hexec, ?_⟩
  have hbit : bitOf (setBit (s.get F.CAL_DRIFT_STATUS_DRIFT) k) k = true := bitOf_setBit _ _
  generalize setBit (s.get F.CAL_DRIFT_STATUS_DRIFT) k = m at *
  have hnow := s.get_tempNow k s.lcnt temp
  have honly := s.tempNow_only (fs := F.CAL_DRIFT_STATUS_DRIFT :: F.CAL_TEMP_REF_NOW k :: logFlds) k s.lcnt temp (by simp)
  have hframe : s.tempNow k s.lcnt temp = { s with regs := (s.tempNow k s.lcnt temp).regs, cal := (s.tempNow k s.lcnt temp).cal } := rfl
  have hsince : (s.tempNow k s.lcnt temp).cal.since = s.cal.since := rfl
  generalize s.tempNow k s.lcnt temp = u at *
  have hput : changesOnly (F.CAL_DRIFT_STATUS_DRIFT :: F.CAL_TEMP_REF_NOW k :: logFlds) u (u.put F.CAL_DRIFT_STATUS_DRIFT m) := .put (.refl _ u) (by simp)
  have hset : changesOnly (F.CAL_DRIFT_STATUS_DRIFT :: F.CAL_TEMP_REF_NOW k :: logFlds) s (u.advSet k s.lcnt m) := honly.trans (hput.parts rfl rfl rfl rfl)
  have hdrift : bitOf ((u.advSet k s.lcnt m).get F.CAL_DRIFT_STATUS_DRIFT) k = true := (State.get_drift_mod (u := u) k.isLt rfl).trans hbit
  have htemp : (u.advSet k s.lcnt m).get (F.CAL_TEMP_REF_NOW k) = enc 8 (tempCode temp) :=
    (RegTab.fld_setFld_sep (f := F.CAL_DRIFT_STATUS_DRIFT) (g := F.CAL_TEMP_REF_NOW k) _ _ (.of rfl (by omega))).trans hnow
  have hsetSince : (u.advSet k s.lcnt m).cal.since = Tab.set s.cal.since k s.lcnt := congrArg (fun x => Tab.set x k.val s.lcnt) hsince
  have hsetFrame : u.advSet k s.lcnt m = { s with regs := (u.advSet k s.lcnt m).regs, cal := (u.advSet k s.lcnt m).cal } :=
    (congrArg (fun v : State => { v with regs := (u.advSet k s.lcnt m).regs, cal := (u.advSet k s.lcnt m).cal }) hframe).trans rfl
  generalize u.advSet k s.lcnt m = w at *
  have hpost := w.post_eq s.lcnt 0x0D04 (s.locus k 15 255 255) 0
  have hcal : (w.post s.lcnt 0x0D04 (s.locus k 15 255 255) 0).cal = w.cal := (congrArg State.cal hpost).trans rfl
  refine ⟨?_, ?_, ?_, w.post_seen _ _ _ _, hset.post (fun f hf => List.mem_cons_of_mem _ (List.mem_cons_of_mem _ hf)), ?_⟩
  · exact (congrArg (fun x => bitOf x k) (w.get_post s.lcnt 0x0D04 (s.locus k 15 255 255) 0 F.CAL_DRIFT_STATUS_DRIFT (.of rfl (by omega)) rfl)).trans hdrift
  · refine (w.get_post s.lcnt 0x0D04 (s.locus k 15 255 255) 0 (F.CAL_TEMP_REF_NOW k) (.of rfl (by omega)) ?_).trans htemp
    simp only [F.CAL_TEMP_REF_NOW, Bool.eq_false_iff, ne_eq, Nat.ble_eq]
    omega
  · rw [hcal]
    exact hsetSince
  · generalize w.post s.lcnt 0x0D04 (s.locus k 15 255 255) 0 = x at *
    rw [hpost, hsetFrame]

theorem exec_driftAdvisorySet_else (h : s.driftOf k temp ≤ s.driftDt ∨ bitOf (s.get F.CAL_DRIFT_STATUS_DRIFT) k = true) :
    exec (.driftAdvisorySet k temp) s = .next (s.tempNow k s.lcnt temp) := by
  refine congrArg Host.Outcome.next (if_neg fun ⟨h1, h2⟩ => ?_)
  rcases h with h | h
  · omega
  · exact absurd (h.symm.trans h2) (by decide)

theorem driftAdvisoryClear_clears (h : s.driftOf k temp ≤ s.driftDt - 2) : ∃ t, exec (.driftAdvisoryClear k temp) s = .next t ∧
    bitOf (t.get F.CAL_DRIFT_STATUS_DRIFT) k = false ∧ t.get (F.CAL_TEMP_REF_NOW k) = enc 8 (tempCode temp) ∧
    (∀ p ∈ t.cal.since, p.1 ≠ k.val) ∧
    changesOnly [F.CAL_DRIFT_STATUS_DRIFT, F.CAL_TEMP_REF_NOW k] s t ∧ t = { s with regs := t.regs, cal := t.cal } := by
  refine ⟨_, congrArg Host.Outcome.next (if_pos h), ?_⟩
  have hnow := s.get_tempNow k s.lcnt temp
  have honly := s.tempNow_only (fs := [F.CAL_DRIFT_STATUS_DRIFT, F.CAL_TEMP_REF_NOW k]) k s.lcnt temp (by simp)
  have hframe : s.tempNow k s.lcnt temp = { s with regs := (s.tempNow k s.lcnt temp).regs, cal := (s.tempNow k s.lcnt temp).cal } := rfl
  generalize s.tempNow k s.lcnt temp = u at *
  have hput : changesOnly [F.CAL_DRIFT_STATUS_DRIFT, F.CAL_TEMP_REF_NOW k] u
      (u.put F.CAL_DRIFT_STATUS_DRIFT (clrBit (u.get F.CAL_DRIFT_STATUS_DRIFT) k)) := .put (.refl _ u) (by simp)
  refine ⟨?_, ?_, fun p hp => by simpa using (List.mem_filter.mp hp).2, honly.trans (hput.parts rfl rfl rfl rfl), ?_⟩
  · exact (State.get_drift_mod (u := u) k.isLt rfl).trans (bitOf_clrBit _ _)
  · exact (RegTab.fld_setFld_sep (f := F.CAL_DRIFT_STATUS_DRIFT) (g := F.CAL_TEMP_REF_NOW k) _ _ (.of rfl (by omega))).trans hnow
  · exact (congrArg (fun v : State => { v with
      regs := (u.advClear k s.lcnt).regs, cal := (u.advClear k s.lcnt).cal }) hframe).trans rfl

theorem exec_driftAdvisoryClear_else (h : s.driftDt - 2 < s.driftOf k temp) :
    exec (.driftAdvisoryClear k temp) s = .next (s.tempNow k s.lcnt temp) := congrArg Host.Outcome.next (if_neg (by omega))

end

end

/-! ### Runs that start by themselves (R326) -/

section
variable (s : State)

/-- What a run of every converter procedure that is asked for leaves, taken or turned away. -/
theorem State.calRequest_self (a mask : Nat) : ((∃ r ∈ s.cal.runs, r.ended = false) →
      (s.calRequest a mask 31).cal = s.cal ∧ (s.calRequest a mask 31).get F.CAL_STATUS_ERR = 1) ∧
    ((∀ r ∈ s.cal.runs, r.ended = true) → s.flag F.CLK_STATUS_FABRIC_BYP = true →
      (s.calRequest a mask 31).cal = s.cal ∧ (s.calRequest a mask 31).get F.CAL_STATUS_ERR = 2) ∧
    (∀ r ∈ (s.calRequest a mask 31).cal.runs.drop s.cal.runs.length, r.die < 6 ∧ r.start = none ∧ r.reqAt = a) ∧
    s.calRequest a mask 31 = { s with regs := (s.calRequest a mask 31).regs, cal := (s.calRequest a mask 31).cal } := by
  have herr : ∀ v < 16, (s.put F.CAL_STATUS_ERR v).get F.CAL_STATUS_ERR = v := fun v hv =>
    (RegTab.fld_setFld_self _ v (.of rfl (by omega))).trans (Nat.mod_eq_of_lt hv)
  have hdrop : ∀ r ∈ s.cal.runs.drop s.cal.runs.length, r.die < 6 ∧ r.start = none ∧ r.reqAt = a := fun r hr => by simp at hr
  by_cases hrun : ∃ r ∈ s.cal.runs, r.ended = false
  · rw [s.calRequest_refused a mask 31 hrun]
    refine ⟨fun _ => ⟨rfl, herr 1 (by decide)⟩, fun hend _ => ?_, hdrop, rfl⟩
    obtain ⟨r, hr, he⟩ := hrun
    exact absurd ((hend r hr).symm.trans he) (by decide)
  · have hend : ∀ r ∈ s.cal.runs, r.ended = true := fun r hr => by
      by_contra hc
      exact hrun ⟨r, hr, Bool.not_eq_true _ ▸ hc⟩
    cases hbyp : s.flag F.CLK_STATUS_FABRIC_BYP with
    | true =>
      rw [s.calRequest_bypassed a mask 31 hend hbyp]
      exact ⟨fun h => absurd h hrun, fun _ _ => ⟨rfl, herr 2 (by decide)⟩, hdrop, rfl⟩
    | false =>
      rw [s.calRequest_taken a mask 31 hend hbyp]
      obtain ⟨hcal, -, hframe⟩ := s.calTakenUp_effect a mask 31
      generalize (s.calListed a mask 31).calShow = t at *
      refine ⟨fun h => absurd h hrun, fun _ h => absurd h (by decide), fun r hr => ?_, hframe⟩
      rw [congrArg Cal.runs hcal, List.drop_left] at hr
      obtain ⟨hreq, hstart, -, -, hdie⟩ := s.mem_calEntries hr
      rw [s.calOthers_of_lt (by decide)] at hdie
      exact ⟨hdie.resolve_right (by simp), hstart, hreq⟩

section
variable (k : Fin 6)

theorem driftRunRequest_asks {a : Nat} (hfind : s.cal.since.find? (fun p => p.1 == k.val) = some (k.val, a))
    (hbit : bitOf (s.get F.CAL_DRIFT_STATUS_DRIFT) k = true) :
    (s.flag F.GLOBAL_STATE_HOST_POLICY = true → s.flag F.CAL_SCHED_AUTO_DRIFT = false → exec (.driftRunRequest k) s = .next s) ∧
    (s.flag F.GLOBAL_STATE_HOST_POLICY = false ∨ s.flag F.CAL_SCHED_AUTO_DRIFT = true → ∃ t,
      exec (.driftRunRequest k) s = .next t ∧ t.lcnt = max s.lcnt (boundaryAt (a + 2 ^ 24 * 2048)) ∧
      ((∃ r ∈ s.cal.runs, r.ended = false) → t.cal = s.cal ∧ t.get F.CAL_STATUS_ERR = 1) ∧
      ((∀ r ∈ s.cal.runs, r.ended = true) → s.flag F.CLK_STATUS_FABRIC_BYP = true → t.cal = s.cal ∧ t.get F.CAL_STATUS_ERR = 2) ∧
      (t.cal.runs ≠ s.cal.runs → ∀ p ∈ t.cal.since, p.1 ≠ k.val) ∧
      (∀ r ∈ t.cal.runs.drop s.cal.runs.length, r.die < 6 ∧ r.start = none ∧
        r.reqAt = max s.lcnt (boundaryAt (a + 2 ^ 24 * 2048))) ∧
      memSame s t ∧ t = { s with lcnt := t.lcnt, regs := t.regs, cal := t.cal }) := by
  have hexec : ∀ b, b = boundaryAt (a + 2 ^ 24 * 2048) → exec (.driftRunRequest k) s = .next
      (if bitOf (s.get F.CAL_DRIFT_STATUS_DRIFT) k ∧ (s.flag F.GLOBAL_STATE_HOST_POLICY = false ∨ s.flag F.CAL_SCHED_AUTO_DRIFT) then
        (if ((s.at_ b).calRequest (max s.lcnt b) (dieMask k) 31).cal.runs = s.cal.runs then (s.at_ b).calRequest (max s.lcnt b) (dieMask k) 31
         else { ((s.at_ b).calRequest (max s.lcnt b) (dieMask k) 31) with
           cal := { ((s.at_ b).calRequest (max s.lcnt b) (dieMask k) 31).cal with
             since := ((s.at_ b).calRequest (max s.lcnt b) (dieMask k) 31).cal.since.filter (fun p => p.1 != k.val) } })
      else s) := fun b hb => by
    subst hb
    show Host.Outcome.next (match s.cal.since.find? (fun p => p.1 == k.val) with
      | some (_, a) => _
      | none => _) = _
    rw [hfind]
    rfl
  specialize hexec _ rfl
  generalize boundaryAt (a + 2 ^ 24 * 2048) = b at *
  refine ⟨fun h1 h2 => hexec.trans (congrArg Host.Outcome.next (if_neg (by simp [h1, h2]))), fun h =>
    ⟨_, hexec.trans (congrArg Host.Outcome.next (if_pos ⟨hbit, h⟩)), ?_⟩⟩
  obtain ⟨hone, htwo, hdrop, hframe⟩ := (s.at_ b).calRequest_self (max s.lcnt b) (dieMask k)
  generalize (s.at_ b).calRequest (max s.lcnt b) (dieMask k) 31 = t at *
  have hfr : t = { s with lcnt := max s.lcnt b, regs := t.regs, cal := t.cal } := hframe.trans rfl
  have hlcnt : t.lcnt = max s.lcnt b := (congrArg State.lcnt hfr).trans rfl
  have hmem : memSame s t := memSame_of_fields ((congrArg State.store hfr).trans rfl) ((congrArg State.flash hfr).trans rfl)
  split
  · next heq => exact ⟨hlcnt, hone, htwo, fun h => absurd heq h, hdrop, hmem, by rwa [hlcnt]⟩
  · next hne =>
    refine ⟨hlcnt, fun h => absurd (congrArg Cal.runs (hone h).1) hne, fun h1 h2 => absurd (congrArg Cal.runs (htwo h1 h2).1) hne, fun _ p hp => ?_, hdrop, hmem, ?_⟩
    · simpa using (List.mem_filter.mp hp).2
    · rw [hfr]

end

theorem exec_calSchedPeriod_off (h : s.flag F.GLOBAL_STATE_HOST_POLICY = false ∨ s.get F.CAL_SCHED_PERIOD = 0) : exec .calSchedPeriod s = .next s := by
  refine congrArg Host.Outcome.next (if_neg fun ⟨h1, h2⟩ => ?_)
  rcases h with h | h
  · exact absurd (h.symm.trans h1) (by decide)
  · exact h2 h

theorem calSchedPeriod_asks {b : Nat} (hpol : s.flag F.GLOBAL_STATE_HOST_POLICY = true) (hper : s.get F.CAL_SCHED_PERIOD ≠ 0)
    (hb : b = boundaryAt (max s.lcnt (s.cal.schedAt + 2048 * s.get F.CAL_SCHED_PERIOD))) : ∃ t,
    exec .calSchedPeriod s = .next t ∧ t.lcnt = max s.lcnt b ∧ t.cal.schedAt = b ∧
    ((∃ r ∈ s.cal.runs, r.ended = false) → t.cal = { s.cal with schedAt := b } ∧ t.get F.CAL_STATUS_ERR = 1) ∧
    (∀ r ∈ t.cal.runs.drop s.cal.runs.length, r.die < 6 ∧ r.start = none ∧ r.reqAt = b) ∧
    memSame s t ∧ t = { s with lcnt := t.lcnt, regs := t.regs, cal := t.cal } := by
  have hexec : exec .calSchedPeriod s = .next { ((s.at_ b).calRequest b (2 ^ 48 - 1) 31) with
      cal := { ((s.at_ b).calRequest b (2 ^ 48 - 1) 31).cal with schedAt := b } } := by
    subst hb
    exact congrArg Host.Outcome.next (if_pos ⟨hpol, hper⟩)
  refine ⟨_, hexec, ?_⟩
  obtain ⟨hone, -, hdrop, hframe⟩ := (s.at_ b).calRequest_self b (2 ^ 48 - 1)
  generalize (s.at_ b).calRequest b (2 ^ 48 - 1) 31 = t at *
  have hfr : t = { s with lcnt := max s.lcnt b, regs := t.regs, cal := t.cal } := hframe.trans rfl
  have hlcnt : t.lcnt = max s.lcnt b := (congrArg State.lcnt hfr).trans rfl
  have hmem : memSame s t := memSame_of_fields ((congrArg State.store hfr).trans rfl) ((congrArg State.flash hfr).trans rfl)
  refine ⟨hlcnt, rfl, fun h => ⟨congrArg (fun c : Cal => { c with schedAt := b }) (hone h).1, (hone h).2⟩, hdrop, hmem, ?_⟩
  rw [hfr]

theorem find?_since_none {l : List (Nat × Nat)} {k : Nat} (h : ∀ p ∈ l, p.1 ≠ k) : l.find? (fun p => p.1 == k) = none :=
  List.find?_eq_none.mpr fun p hp => by simpa using h p hp

theorem exec_driftRunRequest_idle (k : Fin 6) (h : (∀ p ∈ s.cal.since, p.1 ≠ k.val) ∨ bitOf (s.get F.CAL_DRIFT_STATUS_DRIFT) k = false) :
    exec (.driftRunRequest k) s = .next s := by
  show Host.Outcome.next (match s.cal.since.find? (fun p => p.1 == k.val) with
    | some (_, a) => _
    | none => _) = _
  rcases h with h | h
  · rw [find?_since_none h]
  · split
    · exact congrArg Host.Outcome.next (if_neg (by simp [h]))
    · rfl

theorem exec_calSaveDone_none {ok : Bool} (h : s.cal.saving = none) : exec (.calSaveDone ok) s = .next s := by
  show Host.Outcome.next (match s.cal.saving with
    | none => _
    | some (slot, seq, bytes) => _) = _
  rw [h]

end

/-- Settles O56. -/
theorem calibrationSavesAndDrifts : Obligations.CalibrationSavesAndDrifts := by
  unfold Obligations.CalibrationSavesAndDrifts
  exact ⟨fun s slot seq bytes h hdue hwf => ⟨calSaveDone_written s h hdue hwf, calSaveDone_failed s h hdue hwf⟩,
    fun ok s h => exec_calSaveDone_none s h,
    fun k temp s => ⟨driftAdvisorySet_set s k temp, exec_driftAdvisorySet_else s k temp, driftAdvisoryClear_clears s k temp,
      exec_driftAdvisoryClear_else s k temp⟩,
    fun k s a hfind hbit => driftRunRequest_asks s k hfind hbit,
    fun k s h => exec_driftRunRequest_idle s k h,
    fun s => ⟨exec_calSchedPeriod_off s, fun b hpol hper hb => calSchedPeriod_asks s hpol hper hb⟩⟩

end Sys2Proof.Machine
end

section
/-! SUPPORT. What a log entry leaves of the twin's state and of what has left the block; what the begin of a region leaves (R90, R386, R396). -/

namespace Sys2Proof.Machine

open Sys2Proof.Safety

/-! ### Log entries, the twin and what has left the block -/

/-- Of the twin's state at most the handover asked for has changed, and nothing that left the block is forgotten. -/
structure TwinLeft (s t : State) : Prop where
  twin : t.twin = { s.twin with handoverTx := t.twin.handoverTx }
  out : ∀ o ∈ s.out, o ∈ t.out

section
variable {s t u : State}

theorem TwinLeft.refl (s : State) : TwinLeft s s := ⟨rfl, fun _ h => h⟩

theorem TwinLeft.trans (h : TwinLeft s t) (k : TwinLeft t u) : TwinLeft s u :=
  ⟨k.twin.trans ((congrArg (fun x : Twin => { x with handoverTx := u.twin.handoverTx }) h.twin).trans rfl), fun o ho => k.out o (h.out o ho)⟩

theorem TwinLeft.ite {c : Prop} [Decidable c] (h : TwinLeft s t) (k : TwinLeft s u) : TwinLeft s (if c then t else u) := by
  split
  · exact h
  · exact k

theorem TwinLeft.parts (ht : t.twin = s.twin) (ho : t.out = s.out) : TwinLeft s t := ⟨by rw [ht], fun o h => by rwa [ho]⟩

end

section
variable (s : State)

theorem State.errN_twinLeft : TwinLeft s s.errN := by
  unfold State.errN
  dsimp only
  exact .ite (.refl s) ⟨rfl, fun _ h => List.mem_cons_of_mem _ h⟩

theorem State.capture_twinLeft (e : LogEnt) : TwinLeft s (s.capture e) := by
  have hput : ∀ (u : State) (off n v : Nat), TwinLeft u (u.putN off n v) := fun _ _ _ _ => .parts rfl rfl
  have hnest : TwinLeft s (s.incSat F.LOG_NEST_CNT_COUNT) := .parts rfl rfl
  have hset : ∀ u : State, TwinLeft u (u.setF F.LOG_STATUS_FIRST_VALID) := fun _ => .parts rfl rfl
  unfold State.capture
  dsimp only
  exact .ite (.ite ((hnest.trans (hput _ _ _ _)).trans (hput _ _ _ _)) (hnest.trans (hput _ _ _ _))) ((hput _ _ _ _).trans (hset _))

theorem State.logNoted_twinLeft (cls : Nat) (e : LogEnt) : TwinLeft s (s.logNoted cls e) := by
  unfold State.logNoted
  extract_lets s1 s2
  have h1 : TwinLeft s s1 := .ite (.parts rfl rfl) (.refl s)
  have h2 : TwinLeft s1 s2 := .ite (s1.capture_twinLeft e) (.refl s1)
  have hfatal : TwinLeft s2 s2.fatalNoted := by
    unfold State.fatalNoted
    dsimp only
    exact .ite ⟨rfl, fun _ h => h⟩ (.parts rfl rfl)
  have h3 : TwinLeft s2 (if cls = 3 then s2.fatalNoted else s2) := .ite hfatal (.refl s2)
  exact ((h1.trans h2).trans h3).trans (State.errN_twinLeft _)

theorem State.signal_twinLeft (fn vec : Nat) : TwinLeft s (s.signal fn vec) := by
  unfold State.signal
  exact .ite (.ite (.refl s) (.parts rfl rfl)) ⟨rfl, fun _ h => List.mem_cons_of_mem _ h⟩

theorem State.post_twinLeft (lc code locus data : Nat) : TwinLeft s (s.post lc code locus data) := by
  by_cases hseen : code ≠ 0x0C01 ∧ code ≠ 0x0C02 ∧ (code, locus) ∈ s.log.seen
  · obtain ⟨h1, h2, h3⟩ := hseen
    rw [s.post_suppressed lc code locus data h3 h1 h2]
    exact .parts rfl rfl
  · have hfresh : (code, locus) ∉ s.log.seen ∨ code = 0x0C01 ∨ code = 0x0C02 := by
      by_contra hc
      rw [not_or, not_or, not_not] at hc
      exact hseen ⟨hc.2.1, hc.2.2, hc.1⟩
    obtain ⟨placed, uncopied, hpost⟩ := s.post_fresh lc code locus data hfresh
    rw [hpost]
    generalize logInsert s.cycEntries (s.logEntry lc code locus data) s.log.ring = ring
    obtain ⟨-, -, -, hnum⟩ := s.logNumbered_effect (4096 < ring.length)
    generalize s.logNumbered (4096 < ring.length) = u at *
    have hu : TwinLeft s u := .parts ((congrArg State.twin hnum).trans rfl) ((congrArg State.out hnum).trans rfl)
    have hact : TwinLeft u (u.logAct (s.logClass code) placed) := by
      rw [State.logAct_eq]
      have hnoted := u.logNoted_twinLeft (s.logClass code) placed
      generalize u.logNoted (s.logClass code) placed = v at *
      refine .ite (hnoted.trans ?_) hnoted
      exact (v.signal_twinLeft _ _).trans (.parts rfl rfl)
    generalize u.logAct (s.logClass code) placed = v at *
    exact (hu.trans hact).trans (.parts rfl rfl)

end

/-! ### What the begin of a region leaves -/

/-- Everything but time, flash, the waiting commands and the twin's own state. -/
def regionShare : Share where
  upd s t := { t with
    lcnt := s.lcnt, flash := s.flash, pending := s.pending, twin := { s.twin with handoverTx := t.twin.handoverTx } }
  regs _ := True
  self _ := rfl
  again _ _ _ := rfl

section
variable {s t : State}

theorem regionShare_of (h : t = regionShare.upd s t := by rfl) : regionShare.Only s t := ⟨h, fun _ ho => absurd trivial ho⟩

theorem regionShare_booked {g : Nat} (h : BookedOn g s t) : regionShare.Only s t := regionShare_of (by
  have hf := h.share.frame
  rw [hf]
  rfl)

end

section
variable (s : State) (g : Nat)

theorem State.post_regionShare (lc code locus data : Nat) : regionShare.Only s (s.post lc code locus data) := by
  have hframe := s.post_eq lc code locus data
  have htwin := (s.post_twinLeft lc code locus data).twin
  generalize s.post lc code locus data = t at *
  refine regionShare_of ?_
  show t = { t with lcnt := s.lcnt, flash := s.flash, pending := s.pending, twin := { s.twin with handoverTx := t.twin.handoverTx } }
  rw [← htwin]
  have h1 : t.lcnt = s.lcnt := (congrArg State.lcnt hframe).trans rfl
  have h2 : t.flash = s.flash := (congrArg State.flash hframe).trans rfl
  have h3 : t.pending = s.pending := (congrArg State.pending hframe).trans rfl
  rw [← h1, ← h2, ← h3]

theorem State.exchange_regionShare (l : List Nat) {t : State} (h : s.exchange g l = some t) : regionShare.Only s t := by
  induction l generalizing s with
  | nil =>
    cases h
    exact .refl _ _
  | cons x xs ih =>
    rw [State.exchange] at h
    split at h
    · split at h
      · exact (ih _ h).after regionShare_of
      · cases h
    · exact ih _ h

theorem State.discard_regionShare (num : Nat) (l : List Nat) : regionShare.Only s (s.discard g num l) := by
  induction l generalizing s with
  | nil => exact .refl _ s
  | cons r rs ih =>
    rw [State.discard]
    refine Share.Only.trans ?_ (ih _)
    split
    · exact .ite (.refl _ _) regionShare_of
    · exact .ite regionShare_of regionShare_of

theorem State.abaDrop_regionShare (k : Nat) (p : AbaJob → Bool) : regionShare.Only s (s.abaDrop k p) := by
  unfold State.abaDrop
  extract_lets gone s1
  have hs1 : regionShare.Only s s1 := by
    show regionShare.Only s (match s.abaQ with
      | j :: _ => if gone j = true then s.unask 2 abaKey else s
      | [] => s)
    split
    · exact .ite (.ite regionShare_of (.refl _ _)) (.refl _ _)
    · exact .refl _ _
  clear_value s1
  have hq : regionShare.Only s1 { s1 with
    abaQ := s1.abaQ.filter (fun j => !gone j), abaSkip := s1.abaSkip.filter (fun j => !gone j) } := regionShare_of
  refine (hs1.trans hq).trans ?_
  generalize ({ s1 with abaQ := s1.abaQ.filter (fun j => !gone j), abaSkip := s1.abaSkip.filter (fun j => !gone j) } : State) = u
  have hput : regionShare.Only u ((u.put (F.ABA_GRP_STATUS_PENDING k) ((u.abaQ.filter (fun j => j.grp == k)).length)).clrF (F.ABA_GRP_STATUS_BUSY k)) := regionShare_of
  unfold State.showPending
  dsimp only
  split
  · exact hput.trans regionShare_of
  · exact hput

theorem State.showOldest_regionShare : regionShare.Only s (s.showOldest g) := by
  unfold State.showOldest
  split
  · exact regionShare_of
  · exact regionShare_of

theorem State.wrap_regionShare (l pages fuel : Nat) : regionShare.Only s (s.wrap g l pages fuel).2 := by
  induction fuel generalizing s with
  | zero => exact .refl _ s
  | succ n ih =>
    rw [State.wrap]
    dsimp only
    split
    · exact .refl _ s
    · split
      · exact .refl _ s
      next x rest _ =>
        split
        · exact .refl _ s
        next s1 hs1 =>
          refine Share.Only.trans ?_ (ih _)
          refine (State.showOldest_regionShare _ g).after ?_
          have hset : ∀ y, regionShare.Only s1 (s1.setGrp g y) := fun y => regionShare_of
          have hcount : ∀ u : State, regionShare.Only u ((u.incSat (F.REC_GRP_WRAP_CNT_COUNT g)).setF (F.REC_GRP_STATUS_WRAPPED g)) := fun u => regionShare_of
          exact (hcount _).after ((State.abaDrop_regionShare _ _ _).after ((State.discard_regionShare _ g _ _).after ((hset _).after
            (s.exchange_regionShare g _ hs1))))

theorem State.holdFrom_regionShare (x : Nat) (byPin : Bool) : regionShare.Only s (s.holdFrom g x byPin) := by
  have hset : ∀ (u : State) (y : Grp), regionShare.Only u (u.setGrp g y) := fun u y => regionShare_of
  exact (regionShare_booked (State.setLoss_booked _ g _ _ _)).after ((hset _ _).after (regionShare_booked (s.dropEnd_booked g)))

theorem State.takeClaim_regionShare (l : Nat) : regionShare.Only s (s.takeClaim g l) := by
  have hset : ∀ y : Grp, regionShare.Only s (s.setGrp g y) := fun y => regionShare_of
  have hput : ∀ (u : State), regionShare.Only u (u.showPressure g) := fun u => regionShare_of
  exact (hput _).after (hset _)

theorem State.claim_regionShare (x : Nat) : regionShare.Only s (s.claim g x) := by
  have hset : ∀ (u : State) (y : Grp), regionShare.Only u (u.setGrp g y) := fun u y => regionShare_of
  have hput : ∀ (u : State) (f : Fld) (v : Nat), regionShare.Only u (u.put f v) := fun u f v => regionShare_of
  unfold State.claim
  dsimp only
  refine .ite (s.takeClaim_regionShare g _) (Share.Only.trans (t := s.setF (F.REC_GRP_STATUS_PRESSURE g)) (hput s _ _) ?_)
  split
  · exact .ite (.after (State.takeClaim_regionShare _ g _) (State.wrap_regionShare _ g _ _ _))
      (.after (State.holdFrom_regionShare _ g _ _) (State.wrap_regionShare _ g _ _ _))
  · exact State.holdFrom_regionShare _ g x false
  · exact (State.post_regionShare _ _ _ _ _).after ((hput _ (F.REC_GRP_STATUS_STOPPED_FULL g) 1).after (hset _ _))

theorem State.copyWindow_regionShare (lp x : Nat) : regionShare.Only s (s.copyWindow g lp x) := by
  have hset : ∀ y : Grp, regionShare.Only s (s.setGrp g y) := fun y => regionShare_of
  unfold State.copyWindow
  dsimp only
  refine (hset { s.grp g with winFrom := none }).trans ?_
  split
  · exact .refl _ _
  · exact regionShare_booked (g := g) (.foldl _ _ (fun u n _ => .foldl _ _ (fun v k _ => (v.copyBits_booked g _ _ _ _ _ _).trans
      (State.copyBits_booked _ g _ _ _ _ _ _)) u) _)

theorem State.beginAccept_regionShare (x : Nat) : regionShare.Only s (s.beginAccept g x) := by
  have hset : ∀ (u : State) (y : Grp), regionShare.Only u (u.setGrp g y) := fun u y => regionShare_of
  have hput : ∀ (u : State) (f : Fld) (v : Nat), regionShare.Only u (u.put f v) := fun u f v => regionShare_of
  unfold State.beginAccept
  dsimp only
  split
  · exact .ite (hput s _ _) ((hput _ _ _).after (hset _ _))
  · exact (hput _ _ _).after (.ite (hset _ _) (.refl _ _))
  · exact hput s _ _
  · exact hput s _ _

theorem State.startRegion_regionShare (x : Nat) : regionShare.Only s (s.startRegion g x) := by
  have hset : ∀ y : Grp, regionShare.Only s (s.setGrp g y) := fun y => regionShare_of
  unfold State.startRegion
  dsimp only
  refine Share.Only.trans (((hset { s.grp g with region := x }).trans (State.claim_regionShare _ g x)).trans ?_) (State.beginAccept_regionShare _ g x)
  split
  · exact State.copyWindow_regionShare _ g _ x
  · exact .refl _ _

/-- What an arming leaves. -/
theorem State.armAt_regionShare (b : Nat) : regionShare.Only s (s.armAt g b) := by
  obtain ⟨y, -, heq⟩ := s.armAt_eq g b
  rw [heq]
  have hshown : regionShare.Only s (s.armShown g b y) := by
    have hset : regionShare.Only s ((s.setGrp g y).putN (R.TRG_GRP_ARM_LCNT g) 2 b) := regionShare_of
    exact hset.trans (State.post_regionShare _ _ _ _ _)
  have hput : ∀ (u : State) (f : Fld) (v : Nat), regionShare.Only u (u.put f v) := fun u f v => regionShare_of
  have harm := hshown.trans (regionShare_booked (State.gapSync_booked _ g))
  exact .ite (harm.trans (hput _ _ _)) (harm.trans (State.startRegion_regionShare _ g b))

end

end Sys2Proof.Machine
end

section
/-! SUPPORT. Twin pairing: mirror frames, alignment, heartbeats, takeover and handover (R382-R388). -/

namespace Sys2Proof.Machine

open Sys2Proof.Safety

/-! ### Registers behind the log's -/

theorem logFlds_below {f : Fld} (h : f ∈ logFlds) : f.off < 0xF80000 := by
  simp only [logFlds, wideFlds, wordFld, List.mem_cons, List.mem_append, List.mem_map, List.mem_range] at h
  rcases h with rfl | rfl | rfl | rfl | rfl | ⟨i, hi, rfl⟩ | ⟨i, hi, rfl⟩
  · decide
  · decide
  · decide
  · decide
  · decide
  · simp only [R.LOG_FIRST]
    omega
  · simp only [R.LOG_LAST_ERR]
    omega

section
variable (s : State) (lc code locus data : Nat)

/-- A log entry leaves the twin's registers. -/
theorem State.word_post_twin {off : Nat} (h : 0xF80000 ≤ off) : (s.post lc code locus data).regs.word off = s.regs.word off :=
  ((changesOnly.refl logFlds s).post (lc := lc) (code := code) (locus := locus) (data := data) (fun _ hf => hf)).word
    (fun f hf => by have := logFlds_below hf; omega)

theorem State.fld_post_twin {f : Fld} (h : 0xF80000 ≤ f.off) : (s.post lc code locus data).regs.fld f = s.regs.fld f :=
  RegTab.fld_congr (s.word_post_twin lc code locus data h)

end

/-! ### Mirror frames (Table 18.1) -/

/-- A frame of a type with its payload. -/
structure FrameOf (typ : Nat) (payload f : List Byte) : Prop where
  sync : frameSync f = true
  crc : frameCrc f = true
  typ : f[8]? = some (BitVec.ofNat 8 typ)
  payload : (f.drop 16).take payload.length = payload

/-- The bytes of a frame before its CRC. -/
def frameHead (typ cnt : Nat) (payload : List Byte) : List Byte :=
  packLE [(8, 0xC3A596E10F78B42D), (1, typ), (1, cnt), (2, payload.length), (4, 0)] ++ payload ++ List.replicate (1004 - payload.length) 0

theorem frameOf_head {typ cnt : Nat} {payload : List Byte} (h : payload.length ≤ 1004) :
    FrameOf typ payload (frameHead typ cnt payload ++ leBytes 4 (crc32c (frameHead typ cnt payload))) := by
  have hlen : (frameHead typ cnt payload).length = 1020 := by
    rw [frameHead, List.length_append, List.length_append, packLE_length, List.length_replicate]
    simp only [List.map_cons, List.map_nil, List.sum_cons, List.sum_nil]
    omega
  have hsplit : ∃ rest, frameHead typ cnt payload = leBytes 8 0xC3A596E10F78B42D ++ (BitVec.ofNat 8 typ :: rest) :=
    ⟨BitVec.ofNat 8 cnt :: (packLE [(2, payload.length), (4, 0)] ++ payload ++ List.replicate (1004 - payload.length) 0), rfl⟩
  have hpay : ∃ pre rest, frameHead typ cnt payload = pre ++ (payload ++ rest) ∧ pre.length = 16 :=
    ⟨_, _, List.append_assoc _ _ _, by rw [packLE_length]; rfl⟩
  have hcrc := Tests.frameCrc_append _ hlen
  have h8 : (leBytes 8 0xC3A596E10F78B42D).length = 8 := Tests.leBytes_length 8 _
  generalize frameHead typ cnt payload = body at *
  have hfull : (body ++ leBytes 4 (crc32c body)).length = 1024 := by rw [List.length_append, hlen, Tests.leBytes_length]
  obtain ⟨rest, hrest⟩ := hsplit
  obtain ⟨pre, post, hpost, hpre⟩ := hpay
  refine ⟨?_, hcrc, ?_, ?_⟩
  · have htake : (body ++ leBytes 4 (crc32c body)).take 8 = leBytes 8 0xC3A596E10F78B42D := by
      conv_lhs => rw [hrest]
      rw [List.append_assoc, List.take_left' h8]
    have hvalue : leValue (leBytes 8 0xC3A596E10F78B42D) = 0xC3A596E10F78B42D := by decide +kernel
    rw [frameSync, hfull, htake, hvalue]
    rfl
  · rw [List.getElem?_append_left (by omega), hrest, List.getElem?_append_right (by omega), h8]
    rfl
  · rw [hpost, List.append_assoc, List.drop_left' hpre, List.append_assoc, List.take_left' rfl]

theorem State.mirror_effect (s : State) (typ : Nat) {payload : List Byte} (h : payload.length ≤ 1004) : ∃ f, FrameOf typ payload f ∧
    (s.mirror typ payload).out = .mirror f :: s.out ∧ s.mirror typ payload = { s with out := (s.mirror typ payload).out, free := (s.mirror typ payload).free } :=
  ⟨_, frameOf_head (cnt := (s.draw 8).1) h, rfl, rfl⟩

/-! ### Alignment (R382) -/

section
variable (s : State) (f : List (BitVec 8))

theorem execMirrorFrameRx_eq : exec (.mirrorFrameRx f) s = .next (if s.flag F.TWIN_CTRL_EN = false then s
    else if s.flag F.TWIN_STATUS_ALIGNED then
      (if (frameSync f && frameCrc f) = true then { s with twin := { s.twin with bad := 0 } }
       else if s.twin.bad + 1 < 4 then { (if frameCrc f then s else s.incSat F.TWIN_CRC_ERR_CNT_COUNT) with
           twin := { (if frameCrc f then s else s.incSat F.TWIN_CRC_ERR_CNT_COUNT).twin with bad := s.twin.bad + 1 } }
       else (if frameCrc f then s else s.incSat F.TWIN_CRC_ERR_CNT_COUNT).linkLost)
    else if (frameSync f && frameCrc f) = false then { s with twin := { s.twin with good := 0 } }
    else if s.twin.good + 1 < 4 then { s with twin := { s.twin with good := s.twin.good + 1 } }
    else { s.setF F.TWIN_STATUS_ALIGNED with twin := { s.twin with good := 0, bad := 0, fresh := true, hbSince := false, echoAt := s.lcnt } }) := rfl

theorem mirrorFrameRx_gains (hen : s.flag F.TWIN_CTRL_EN = true) (hal : s.flag F.TWIN_STATUS_ALIGNED = false) :
    ((frameSync f && frameCrc f) = false → exec (.mirrorFrameRx f) s = .next { s with twin := { s.twin with good := 0 } }) ∧
    ((frameSync f && frameCrc f) = true → s.twin.good < 3 →
      exec (.mirrorFrameRx f) s = .next { s with twin := { s.twin with good := s.twin.good + 1 } }) ∧
    ((frameSync f && frameCrc f) = true → s.twin.good = 3 → ∃ t, exec (.mirrorFrameRx f) s = .next t ∧
      t.flag F.TWIN_STATUS_ALIGNED = true ∧ t.twin = { s.twin with good := 0, bad := 0, fresh := true, hbSince := false, echoAt := s.lcnt } ∧
      changesOnly [F.TWIN_STATUS_ALIGNED] s t ∧ t = { s with regs := t.regs, twin := t.twin }) := by
  rw [execMirrorFrameRx_eq, if_neg (by simp [hen]), if_neg (by simp [hal])]
  refine ⟨fun h => by rw [if_pos h], fun h hg => by rw [if_neg (by simp [h]), if_pos (by omega)], fun h hg => ?_⟩
  rw [if_neg (by simp [h]), if_neg (by omega)]
  have honly : changesOnly [F.TWIN_STATUS_ALIGNED] s (s.setF F.TWIN_STATUS_ALIGNED) := .put (.refl _ s) (by simp)
  exact ⟨_, rfl, RegTab.bit_setFld_one _ (.of rfl (by omega)), rfl, honly.parts rfl rfl rfl rfl, rfl⟩

/-- The link is shown lost. -/
def State.unaligned (s : State) : State :=
  let s1 : State := { s.clrF F.TWIN_STATUS_ALIGNED with twin := { s.twin with good := 0, bad := 0, fresh := false, differ := false } }
  s1.clrF F.GLOBAL_STATE_TWIN_PAIRED

theorem State.unaligned_frame : s.unaligned = { s with regs := s.unaligned.regs, twin := { s.twin with good := 0, bad := 0, fresh := false, differ := false } } := rfl

/-- What the loss of the link leaves. -/
theorem State.linkLost_effect : s.linkLost.flag F.TWIN_STATUS_ALIGNED = false ∧ s.linkLost.flag F.GLOBAL_STATE_TWIN_PAIRED = false ∧
    s.linkLost.twin.good = 0 ∧ s.linkLost.twin.bad = 0 ∧ (0x1102, s.locusPkg) ∈ s.linkLost.log.seen ∧
    changesOnly (F.TWIN_CRC_ERR_CNT_COUNT :: F.TWIN_STATUS_ALIGNED :: F.GLOBAL_STATE_TWIN_PAIRED :: logFlds) s s.linkLost ∧
    s.linkLost = { s with out := s.linkLost.out, regs := s.linkLost.regs, msix := s.linkLost.msix, twin := s.linkLost.twin, log := s.linkLost.log } := by
  have hdef : s.linkLost = s.unaligned.post s.lcnt 0x1102 s.locusPkg 0 := rfl
  have hput : changesOnly (F.TWIN_CRC_ERR_CNT_COUNT :: F.TWIN_STATUS_ALIGNED :: F.GLOBAL_STATE_TWIN_PAIRED :: logFlds) s
      ((s.clrF F.TWIN_STATUS_ALIGNED).clrF F.GLOBAL_STATE_TWIN_PAIRED) := .put (.put (.refl _ s) (by simp)) (by simp)
  have honly : changesOnly (F.TWIN_CRC_ERR_CNT_COUNT :: F.TWIN_STATUS_ALIGNED :: F.GLOBAL_STATE_TWIN_PAIRED :: logFlds) s s.unaligned :=
    hput.parts rfl rfl rfl rfl
  have hal : s.unaligned.flag F.TWIN_STATUS_ALIGNED = false :=
    (RegTab.bit_setFld_sep (f := F.GLOBAL_STATE_TWIN_PAIRED) (g := F.TWIN_STATUS_ALIGNED) _ _ (.of rfl (by omega))).trans
      (RegTab.bit_setFld_zero _ (.of rfl (by omega)))
  have hpaired : s.unaligned.flag F.GLOBAL_STATE_TWIN_PAIRED = false := RegTab.bit_setFld_zero _ (.of rfl (by omega))
  have hframe := s.unaligned_frame
  rw [hdef]
  generalize s.unaligned = u at *
  have htwin := (u.post_twinLeft s.lcnt 0x1102 s.locusPkg 0).twin
  have hpost := u.post_eq s.lcnt 0x1102 s.locusPkg 0
  have hu : u.twin = { s.twin with good := 0, bad := 0, fresh := false, differ := false } := (congrArg State.twin hframe).trans rfl
  refine ⟨(RegTab.bit_congr (u.fld_post_twin _ _ _ _ (by decide))).trans hal,
    (RegTab.bit_congr (u.get_post s.lcnt 0x1102 s.locusPkg 0 F.GLOBAL_STATE_TWIN_PAIRED (.of rfl (by omega)) rfl)).trans hpaired, ?_, ?_,
    u.post_seen _ _ _ _, honly.post (fun g hg => by simp [hg]), ?_⟩
  · rw [htwin, hu]
  · rw [htwin, hu]
  · generalize u.post s.lcnt 0x1102 s.locusPkg 0 = v at *
    rw [hpost, hframe]

theorem State.locusPkg_congr {s t : State} (h : t.regs.fld F.GLOBAL_STATE_NODE = s.regs.fld F.GLOBAL_STATE_NODE) : t.locusPkg = s.locusPkg := by
  unfold State.locusPkg State.locus State.get
  rw [h]

theorem mirrorFrameRx_keeps (hen : s.flag F.TWIN_CTRL_EN = true) (hal : s.flag F.TWIN_STATUS_ALIGNED = true) :
    ((frameSync f && frameCrc f) = true → exec (.mirrorFrameRx f) s = .next { s with twin := { s.twin with bad := 0 } }) ∧
    (frameCrc f = false → s.twin.bad < 3 → ∃ t, exec (.mirrorFrameRx f) s = .next t ∧
      t.get F.TWIN_CRC_ERR_CNT_COUNT = min (s.get F.TWIN_CRC_ERR_CNT_COUNT + 1) (2 ^ 32 - 1) ∧
      t.twin = { s.twin with bad := s.twin.bad + 1 } ∧ changesOnly [F.TWIN_CRC_ERR_CNT_COUNT] s t ∧
      t = { s with regs := t.regs, twin := t.twin }) ∧
    (frameSync f = false → frameCrc f = true → s.twin.bad < 3 →
      exec (.mirrorFrameRx f) s = .next { s with twin := { s.twin with bad := s.twin.bad + 1 } }) ∧
    ((frameSync f && frameCrc f) = false → 3 ≤ s.twin.bad → ∃ t, exec (.mirrorFrameRx f) s = .next t ∧
      t.flag F.TWIN_STATUS_ALIGNED = false ∧ t.flag F.GLOBAL_STATE_TWIN_PAIRED = false ∧ t.twin.good = 0 ∧ t.twin.bad = 0 ∧
      (0x1102, s.locusPkg) ∈ t.log.seen ∧
      changesOnly (F.TWIN_CRC_ERR_CNT_COUNT :: F.TWIN_STATUS_ALIGNED :: F.GLOBAL_STATE_TWIN_PAIRED :: logFlds) s t ∧
      t = { s with out := t.out, regs := t.regs, msix := t.msix, twin := t.twin, log := t.log }) := by
  rw [execMirrorFrameRx_eq, if_neg (by simp [hen]), if_pos hal]
  have hcount : changesOnly [F.TWIN_CRC_ERR_CNT_COUNT] s (s.incSat F.TWIN_CRC_ERR_CNT_COUNT) := .put (.refl _ s) (by simp)
  refine ⟨fun h => by rw [if_pos h], fun h hb => ?_, fun h1 h2 hb => ?_, fun h hb => ?_⟩
  · rw [if_neg (by simp [h]), if_pos (by omega), if_neg (by simp [h])]
    exact ⟨_, rfl, State.get_incSat_width (w := 32) s (f := F.TWIN_CRC_ERR_CNT_COUNT) (.of rfl (by omega)) rfl, rfl, hcount.parts rfl rfl rfl rfl, rfl⟩
  · rw [if_neg (by simp [h1]), if_pos (by omega), if_pos h2]
  · rw [if_neg (by simp [h]), if_neg (by omega)]
    refine ⟨_, rfl, ?_⟩
    cases frameCrc f with
    | true => exact s.linkLost_effect
    | false =>
      have hframe : s.incSat F.TWIN_CRC_ERR_CNT_COUNT = { s with regs := (s.incSat F.TWIN_CRC_ERR_CNT_COUNT).regs } := rfl
      have hlocus : (s.incSat F.TWIN_CRC_ERR_CNT_COUNT).locusPkg = s.locusPkg := State.locusPkg_congr (RegTab.fld_setFld_sep _ _ (.of rfl (by omega)))
      rw [if_neg (by decide)]
      generalize s.incSat F.TWIN_CRC_ERR_CNT_COUNT = u at *
      obtain ⟨h1, h2, h3, h4, h5, h6, h7⟩ := u.linkLost_effect
      refine ⟨h1, h2, h3, h4, hlocus ▸ h5, (hcount.mono (by simp)).trans h6, ?_⟩
      generalize u.linkLost = v at *
      rw [h7, hframe]

end

/-! ### Heartbeats and echoes (R383, R384) -/

section
variable (s : State) (a : Nat) (p : PeerState)

theorem State.peerRx_effect : (s.peerRx a p).get F.TWIN_PEER_ROLE = p.role % 2 ^ F.TWIN_PEER_ROLE.width ∧
    (s.peerRx a p).get F.TWIN_PEER_NODE = p.node % 2 ^ F.TWIN_PEER_NODE.width ∧ (s.peerRx a p).get F.TWIN_STATUS_ROLE = s.get F.TWIN_STATUS_ROLE ∧
    changesOnly [F.TWIN_PEER_NODE, F.TWIN_PEER_ROLE, F.TWIN_PEER_PHASE, F.TWIN_PEER_FLAGS] s (s.peerRx a p) ∧
    s.peerRx a p = { s with lcnt := max s.lcnt a, regs := (s.peerRx a p).regs, twin := { s.twin with peer := some p, peerAt := a } } := by
  have hnow : changesOnly [F.TWIN_PEER_NODE, F.TWIN_PEER_ROLE, F.TWIN_PEER_PHASE, F.TWIN_PEER_FLAGS] s (s.at_ a) := (changesOnly.refl _ s).parts rfl rfl rfl rfl
  have hput : changesOnly [F.TWIN_PEER_NODE, F.TWIN_PEER_ROLE, F.TWIN_PEER_PHASE, F.TWIN_PEER_FLAGS] s ((s.at_ a).showPeer p) :=
    .put (.put (.put (.put hnow (by simp)) (by simp)) (by simp)) (by simp)
  refine ⟨?_, ?_, ?_, hput.parts rfl rfl rfl rfl, rfl⟩
  · refine (RegTab.fld_setFld_sep (f := F.TWIN_PEER_FLAGS) (g := F.TWIN_PEER_ROLE) _ _ (.of rfl (by omega))).trans ?_
    refine (RegTab.fld_setFld_sep (f := F.TWIN_PEER_PHASE) (g := F.TWIN_PEER_ROLE) _ _ (.of rfl (by omega))).trans ?_
    exact RegTab.fld_setFld_self _ _ (.of rfl (by omega))
  · refine (RegTab.fld_setFld_sep (f := F.TWIN_PEER_FLAGS) (g := F.TWIN_PEER_NODE) _ _ (.of rfl (by omega))).trans ?_
    refine (RegTab.fld_setFld_sep (f := F.TWIN_PEER_PHASE) (g := F.TWIN_PEER_NODE) _ _ (.of rfl (by omega))).trans ?_
    refine (RegTab.fld_setFld_sep (f := F.TWIN_PEER_ROLE) (g := F.TWIN_PEER_NODE) _ _ (.of rfl (by omega))).trans ?_
    exact RegTab.fld_setFld_self _ _ (.of rfl (by omega))
  · exact hput.1 F.TWIN_STATUS_ROLE (.of rfl (by omega)) (fun f hf => .inl (by
      simp only [List.mem_cons, List.not_mem_nil, or_false] at hf
      rcases hf with rfl | rfl | rfl | rfl <;> decide))

theorem heartbeatRx_pairs (hon : s.linkOn = true) : ∃ t, exec (.heartbeatRx a p) s = .next t ∧ t.flag F.GLOBAL_STATE_TWIN_PAIRED = true ∧
    t.twin = { s.twin with peer := some p, peerAt := a, hbSince := true } ∧ t.lcnt = max s.lcnt a ∧
    t.get F.TWIN_PEER_ROLE = p.role % 2 ^ F.TWIN_PEER_ROLE.width ∧ t.get F.TWIN_PEER_NODE = p.node % 2 ^ F.TWIN_PEER_NODE.width ∧
    changesOnly [F.GLOBAL_STATE_TWIN_PAIRED, F.TWIN_PEER_NODE, F.TWIN_PEER_ROLE, F.TWIN_PEER_PHASE, F.TWIN_PEER_FLAGS] s t ∧
    t = { s with lcnt := t.lcnt, regs := t.regs, twin := t.twin } := by
  refine ⟨_, congrArg Host.Outcome.next (if_pos hon), ?_⟩
  obtain ⟨hrole, hnode, -, honly, hframe⟩ := s.peerRx_effect a p
  generalize s.peerRx a p = u at *
  have hput : changesOnly [F.GLOBAL_STATE_TWIN_PAIRED, F.TWIN_PEER_NODE, F.TWIN_PEER_ROLE, F.TWIN_PEER_PHASE, F.TWIN_PEER_FLAGS] s
      (u.setF F.GLOBAL_STATE_TWIN_PAIRED) := (honly.mono (by simp +contextual)).put (by simp)
  have htwin : u.twin = { s.twin with peer := some p, peerAt := a } := (congrArg State.twin hframe).trans rfl
  refine ⟨RegTab.bit_setFld_one _ (.of rfl (by omega)), congrArg (fun x : Twin => { x with hbSince := true }) htwin, (congrArg State.lcnt hframe).trans rfl,
    (RegTab.fld_setFld_sep _ _ (.of rfl (by omega))).trans hrole, (RegTab.fld_setFld_sep _ _ (.of rfl (by omega))).trans hnode,
    hput.parts rfl rfl rfl rfl, ?_⟩
  rw [hframe]
  rfl

theorem handoverRx_noted (hon : s.linkOn = true) : ∃ t, exec (.handoverRx a p) s = .next t ∧ t.twin =
      { s.twin with peer := some p, peerAt := a, handoverRx := s.get F.TWIN_STATUS_ROLE == 2 } ∧
    changesOnly [F.TWIN_PEER_NODE, F.TWIN_PEER_ROLE, F.TWIN_PEER_PHASE, F.TWIN_PEER_FLAGS] s t ∧
    t = { s with lcnt := max s.lcnt a, regs := t.regs, twin := t.twin } := by
  refine ⟨_, congrArg Host.Outcome.next (if_pos hon), ?_⟩
  obtain ⟨-, -, hrole, honly, hframe⟩ := s.peerRx_effect a p
  generalize s.peerRx a p = u at *
  have htwin : u.twin = { s.twin with peer := some p, peerAt := a } := (congrArg State.twin hframe).trans rfl
  refine ⟨?_, honly.parts rfl rfl rfl rfl, ?_⟩
  · show ({ u.twin with handoverRx := u.get F.TWIN_STATUS_ROLE == 2 } : Twin) = _
    rw [htwin, hrole]
  · rw [hframe]

theorem echoDue_sends (hon : s.linkOn = true) : ∃ t f, exec .echoDue s = .next t ∧ t.out = .mirror f :: s.out ∧ frameSync f = true ∧ frameCrc f = true ∧
    f[8]? = some 4 ∧ (f.drop 16).take 8 = leBytes 8 t.lcnt ∧ t.lcnt = max s.lcnt s.twin.echoAt ∧
    t.twin = { s.twin with echoAt := s.twin.echoAt + 2 ^ 20 * 2048 } ∧
    t = { s with out := t.out, free := t.free, lcnt := t.lcnt, twin := t.twin } := by
  have hlen : (leBytes 8 (s.at_ s.twin.echoAt).lcnt).length = 8 := Tests.leBytes_length 8 _
  obtain ⟨f, hf, hout, hframe⟩ := State.mirror_effect ({ s.at_ s.twin.echoAt with twin := { s.twin with echoAt := s.twin.echoAt + 2 ^ 20 * tickLen } } : State) 4
    (payload := leBytes 8 (s.at_ s.twin.echoAt).lcnt) (by omega)
  have hexec : exec .echoDue s = .next (({ s.at_ s.twin.echoAt with twin := { s.twin with echoAt := s.twin.echoAt + 2 ^ 20 * tickLen } } : State).mirror 4
    (leBytes 8 (s.at_ s.twin.echoAt).lcnt)) := congrArg Host.Outcome.next (if_pos hon)
  refine ⟨_, f, hexec, ?_⟩
  generalize State.mirror _ 4 _ = t at *
  have hlcnt : t.lcnt = max s.lcnt s.twin.echoAt := (congrArg State.lcnt hframe).trans rfl
  have htwin : t.twin = { s.twin with echoAt := s.twin.echoAt + 2 ^ 20 * 2048 } := (congrArg State.twin hframe).trans rfl
  have hpay := hf.payload
  rw [hlen] at hpay
  refine ⟨hout, hf.sync, hf.crc, hf.typ, by rw [hpay, hlcnt]; rfl, hlcnt, htwin, ?_⟩
  rw [hlcnt, htwin]
  exact hframe

theorem echoRx_answers (sent : Nat) (hon : s.linkOn = true) : ∃ t f, exec (.echoRx a sent) s = .next t ∧ t.out = .mirror f :: s.out ∧ frameSync f = true ∧
    frameCrc f = true ∧ f[8]? = some 5 ∧ (f.drop 16).take 8 = leBytes 8 sent ∧ t = { s with out := t.out, free := t.free, lcnt := max s.lcnt a } := by
  have h8 : (leBytes 8 sent).length = 8 := Tests.leBytes_length 8 _
  have hlen : (leBytes 8 sent ++ leBytes 8 ((s.at_ a).draw 64).1).length = 16 := by
    rw [List.length_append, h8, Tests.leBytes_length]
  obtain ⟨f, hf, hout, hframe⟩ := State.mirror_effect ((s.at_ a).draw 64).2 5 (payload := leBytes 8 sent ++ leBytes 8 ((s.at_ a).draw 64).1) (by omega)
  have hexec : exec (.echoRx a sent) s = .next (((s.at_ a).draw 64).2.mirror 5 (leBytes 8 sent ++ leBytes 8 ((s.at_ a).draw 64).1)) :=
    congrArg Host.Outcome.next (if_pos hon)
  refine ⟨_, f, hexec, ?_⟩
  generalize State.mirror _ 5 _ = t at *
  refine ⟨hout, hf.sync, hf.crc, hf.typ, ?_, hframe.trans rfl⟩
  have hpay := congrArg (List.take 8) hf.payload
  rwa [hlen, List.take_take, List.take_left' h8] at hpay

theorem echoReplyRx_measures (sent turn : Nat) (hon : s.linkOn = true) : ∃ t, exec (.echoReplyRx a sent turn) s = .next t ∧
    t.get F.TWIN_LINK_DELAY_CYCLES = min ((a - sent - turn) / 2) (2 ^ 32 - 1) ∧ changesOnly [F.TWIN_LINK_DELAY_CYCLES] s t ∧
    t = { s with lcnt := max s.lcnt a, regs := t.regs } := by
  have hnow : changesOnly [F.TWIN_LINK_DELAY_CYCLES] s (s.at_ a) := (changesOnly.refl _ s).parts rfl rfl rfl rfl
  refine ⟨_, congrArg Host.Outcome.next (if_pos hon), ?_, hnow.put (by simp), rfl⟩
  refine (RegTab.fld_setFld_self _ _ (.of rfl (by omega))).trans (Nat.mod_eq_of_lt ?_)
  show min ((a - sent - turn) / 2) 0xFFFFFFFF < 2 ^ 32
  omega

end

end Sys2Proof.Machine
end

section
/-! SUPPORT. Twin pairing: takeover and handover (R386-R388). -/

namespace Sys2Proof.Machine

open Sys2Proof.Safety

/-! ### Roles (R385, R386) -/

section
variable (s : State)

theorem State.wakeRelease_effect : (∀ off, off ≠ 0x120 → s.wakeRelease.regs.word off = s.regs.word off) ∧
    s.wakeRelease = { s with out := s.wakeRelease.out, regs := s.wakeRelease.regs } := by
  unfold State.wakeRelease
  split
  · exact ⟨fun off ho => RegTab.word_setFld_other _ _ _ _ ho, rfl⟩
  · exact ⟨fun _ _ => rfl, rfl⟩

theorem State.setPhase_effect (p : Nat) : (s.setPhase p).get F.GLOBAL_STATE_PHASE = p % 2 ^ 4 ∧
    (∀ off, off ≠ 0x4 → off ≠ 0x120 → (s.setPhase p).regs.word off = s.regs.word off) ∧
    s.setPhase p = { s with out := (s.setPhase p).out, regs := (s.setPhase p).regs } := by
  have hput : (s.put F.GLOBAL_STATE_PHASE p).get F.GLOBAL_STATE_PHASE = p % 2 ^ 4 := RegTab.fld_setFld_self _ p (.of rfl (by omega))
  have hword : ∀ off, off ≠ 0x4 → (s.put F.GLOBAL_STATE_PHASE p).regs.word off = s.regs.word off := fun off ho => RegTab.word_setFld_other _ _ _ _ ho
  have hframe : s.put F.GLOBAL_STATE_PHASE p = { s with regs := (s.put F.GLOBAL_STATE_PHASE p).regs } := rfl
  unfold State.setPhase
  generalize s.put F.GLOBAL_STATE_PHASE p = u at *
  dsimp only
  split
  · obtain ⟨hw, hf⟩ := u.wakeRelease_effect
    refine ⟨(RegTab.fld_congr (hw _ (by decide))).trans hput, fun off h1 h2 => (hw off h2).trans (hword off h1), ?_⟩
    generalize u.wakeRelease = v at *
    rw [hf, hframe]
  · refine ⟨hput, fun off h1 _ => hword off h1, ?_⟩
    rw [hframe]

/-- A package that becomes primary. -/
theorem State.toPrimary_effect : s.toPrimary.get F.TWIN_STATUS_ROLE = 1 ∧
    (s.get F.GLOBAL_STATE_PHASE = 3 → s.toPrimary.get F.GLOBAL_STATE_PHASE = 2) ∧
    s.toPrimary = { s with out := s.toPrimary.out, regs := s.toPrimary.regs } := by
  have hrole : (s.put F.TWIN_STATUS_ROLE 1).get F.TWIN_STATUS_ROLE = 1 := RegTab.fld_setFld_self _ _ (.of rfl (by omega))
  have hphase : (s.put F.TWIN_STATUS_ROLE 1).get F.GLOBAL_STATE_PHASE = s.get F.GLOBAL_STATE_PHASE := RegTab.fld_setFld_sep _ _ (.of rfl (by omega))
  have hframe : s.put F.TWIN_STATUS_ROLE 1 = { s with regs := (s.put F.TWIN_STATUS_ROLE 1).regs } := rfl
  unfold State.toPrimary
  generalize s.put F.TWIN_STATUS_ROLE 1 = u at *
  dsimp only
  obtain ⟨hset, hword, hf⟩ := u.setPhase_effect 2
  generalize u.setPhase 2 = v at *
  split
  · refine ⟨(RegTab.fld_congr (hword _ (by decide) (by decide))).trans hrole, fun _ => hset, ?_⟩
    rw [hf, hframe]
  · next h =>
    refine ⟨hrole, fun h3 => absurd (hphase.trans h3) h, ?_⟩
    rw [hframe]

/-- A package that becomes standby. -/
theorem State.toStandby_effect : s.toStandby.get F.TWIN_STATUS_ROLE = 2 ∧ s.toStandby.flag F.TWIN_STATUS_BY_TAKEOVER = false ∧
    s.toStandby.get F.GLOBAL_STATE_PHASE = 3 ∧
    s.toStandby = { s with regs := s.toStandby.regs, twin := { s.twin with source := false, misses := 0, handoverRx := false } } := by
  refine ⟨?_, ?_, RegTab.fld_setFld_self _ _ (.of rfl (by omega)), rfl⟩
  · refine (RegTab.fld_setFld_sep (f := F.GLOBAL_STATE_PHASE) (g := F.TWIN_STATUS_ROLE) _ _ (.of rfl (by omega))).trans ?_
    refine (RegTab.fld_setFld_sep (f := F.TWIN_STATUS_BY_TAKEOVER) (g := F.TWIN_STATUS_ROLE) _ _ (.of rfl (by omega))).trans ?_
    exact RegTab.fld_setFld_self _ _ (.of rfl (by omega))
  · exact (RegTab.bit_setFld_sep (f := F.GLOBAL_STATE_PHASE) (g := F.TWIN_STATUS_BY_TAKEOVER) _ _ (.of rfl (by omega))).trans
      (RegTab.bit_setFld_zero _ (.of rfl (by omega)))

end

/-! ### Takeover (R387, R388) -/

section
variable (s : State) (b reason : Nat) (p : PeerState)

theorem State.takeGroup_regionShare (g : Nat) (q : PeerGrp) : regionShare.Only s (s.takeGroup b g p q) := by
  have hset : ∀ (u : State) (y : Grp), regionShare.Only u (u.setGrp g y) := fun u y => regionShare_of
  have hput : ∀ (u : State) (off n v : Nat), regionShare.Only u (u.putN off n v) := fun u off n v => regionShare_of
  have hadd : ∀ (u : State) (l : Loss), regionShare.Only u (u.addLoss g l) := fun u l => regionShare_booked (u.addLoss_booked g l)
  unfold State.takeGroup
  refine .ite (.refl _ s) ?_
  extract_lets a src s1 s2
  have hs1 : regionShare.Only s s1 := (hset s _).trans (hput _ _ _ _)
  clear_value s1
  have hs2 : regionShare.Only s1 s2 := (s1.armAt_regionShare g b).trans (hput _ _ _ _)
  clear_value s2
  exact (hs1.trans hs2).trans (((hset s2 _).trans (hadd _ _)).trans (regionShare_booked (State.gapSync_booked _ g)))

/-- The groups that a takeover arms. -/
def takenGrps (p : PeerState) : List (Nat × PeerGrp) := (bitsSet 16 p.armed).filterMap (fun g => (p.grps[g]?).map (fun q => (g, q)))

/-- Those groups arm. -/
def State.takeGroups (s : State) (b : Nat) (p : PeerState) : State := (takenGrps p).foldl (fun t x => t.takeGroup b x.1 p x.2) s

theorem State.takeGroups_regionShare : regionShare.Only s (s.takeGroups b p) := by
  unfold State.takeGroups
  generalize takenGrps p = l
  exact Share.Only.foldl (p := regionShare) _ l (fun t x _ => t.takeGroup_regionShare b p x.1 x.2) s

theorem State.takeGroups_none (h : p.armed = 0) : s.takeGroups b p = s := by
  have hbits : bitsSet 16 0 = [] := by decide
  rw [State.takeGroups, takenGrps, h, hbits]
  rfl

/-- The roles of a takeover are shown. -/
def State.takeoverShown (s : State) (b : Nat) : State :=
  ((s.toPrimary.setF F.TWIN_STATUS_BY_TAKEOVER).setF F.TWIN_STATUS_TAKEOVER_SEEN).putN R.TWIN_TAKEOVER_LCNT 2 b

/-- The package is primary by takeover. -/
def State.takenOver (s : State) (b : Nat) : State :=
  { s.takeoverShown b with twin := { (s.takeoverShown b).twin with source := true, handoverRx := false, misses := 0, yielded := false } }

theorem State.takeoverAt_eq : ∃ data, s.takeoverAt b reason p =
    ((s.takenOver b).takeGroups b p).post b 0x1103 s.locusPkg data := ⟨_, rfl⟩

theorem State.takenOver_effect : (s.takenOver b).get F.TWIN_STATUS_ROLE = 1 ∧ (s.takenOver b).flag F.TWIN_STATUS_BY_TAKEOVER = true ∧
    (s.takenOver b).flag F.TWIN_STATUS_TAKEOVER_SEEN = true ∧ (s.takenOver b).getN R.TWIN_TAKEOVER_LCNT 2 = b % 2 ^ 64 ∧
    (s.get F.GLOBAL_STATE_PHASE = 3 → (s.takenOver b).get F.GLOBAL_STATE_PHASE = 2) ∧
    s.takenOver b = { s with
      out := (s.takenOver b).out, regs := (s.takenOver b).regs
      twin := { s.twin with source := true, handoverRx := false, misses := 0, yielded := false } } := by
  obtain ⟨hrole, hphase, hframe⟩ := s.toPrimary_effect
  unfold State.takenOver State.takeoverShown
  generalize s.toPrimary = u at *
  have hother : ∀ (v : State) (f : Fld), f.off < 0xF80010 → (v.putN R.TWIN_TAKEOVER_LCNT 2 b).get f = v.get f := fun v f hf =>
    State.get_putN_other v _ _ _ f (.inl hf)
  refine ⟨?_, ?_, ?_, State.getN_putN _ _ _ _, fun h => ?_, ?_⟩
  · refine (hother _ F.TWIN_STATUS_ROLE (by decide)).trans ?_
    exact ((RegTab.fld_setFld_sep (f := F.TWIN_STATUS_TAKEOVER_SEEN) (g := F.TWIN_STATUS_ROLE) _ _ (.of rfl (by omega))).trans
      (RegTab.fld_setFld_sep (f := F.TWIN_STATUS_BY_TAKEOVER) (g := F.TWIN_STATUS_ROLE) _ _ (.of rfl (by omega)))).trans hrole
  · refine (RegTab.bit_congr (hother _ F.TWIN_STATUS_BY_TAKEOVER (by decide))).trans ?_
    exact (RegTab.bit_setFld_sep (f := F.TWIN_STATUS_TAKEOVER_SEEN) (g := F.TWIN_STATUS_BY_TAKEOVER) _ _ (.of rfl (by omega))).trans
      (RegTab.bit_setFld_one _ (.of rfl (by omega)))
  · exact (RegTab.bit_congr (hother _ F.TWIN_STATUS_TAKEOVER_SEEN (by decide))).trans (RegTab.bit_setFld_one _ (.of rfl (by omega)))
  · refine (hother _ F.GLOBAL_STATE_PHASE (by decide)).trans ?_
    exact ((RegTab.fld_setFld_sep (f := F.TWIN_STATUS_TAKEOVER_SEEN) (g := F.GLOBAL_STATE_PHASE) _ _ (.of rfl (by omega))).trans
      (RegTab.fld_setFld_sep (f := F.TWIN_STATUS_BY_TAKEOVER) (g := F.GLOBAL_STATE_PHASE) _ _ (.of rfl (by omega)))).trans (hphase h)
  · rw [hframe]
    rfl

/-- What a takeover leaves. -/
theorem State.takeoverAt_effect : (s.takeoverAt b reason p).twin.source = true ∧ (s.takeoverAt b reason p).twin.handoverRx = false ∧
    (s.takeoverAt b reason p).twin.misses = 0 ∧ (0x1103, s.locusPkg) ∈ (s.takeoverAt b reason p).log.seen ∧
    (s.takeoverAt b reason p).lcnt = s.lcnt ∧ flashSame s (s.takeoverAt b reason p) ∧ (s.takeoverAt b reason p).pending = s.pending ∧
    (p.armed = 0 → memSame s (s.takeoverAt b reason p) ∧ (s.takeoverAt b reason p).get F.TWIN_STATUS_ROLE = 1 ∧
      (s.takeoverAt b reason p).flag F.TWIN_STATUS_BY_TAKEOVER = true ∧ (s.takeoverAt b reason p).flag F.TWIN_STATUS_TAKEOVER_SEEN = true ∧
      (s.takeoverAt b reason p).getN R.TWIN_TAKEOVER_LCNT 2 = b % 2 ^ 64 ∧
      (s.get F.GLOBAL_STATE_PHASE = 3 → (s.takeoverAt b reason p).get F.GLOBAL_STATE_PHASE = 2)) := by
  obtain ⟨data, heq⟩ := s.takeoverAt_eq b reason p
  rw [heq]
  obtain ⟨hrole, hby, hseen, hlcnt, hphase, hframe⟩ := s.takenOver_effect b
  generalize s.takenOver b = u at *
  have hnone := u.takeGroups_none b p
  have hgrps := u.takeGroups_regionShare b p
  generalize u.takeGroups b p = v at *
  have hpost := hgrps.trans (v.post_regionShare b 0x1103 s.locusPkg data)
  have hpseen := v.post_seen b 0x1103 s.locusPkg data
  have hword : ∀ off, 0xF80000 ≤ off → (v.post b 0x1103 s.locusPkg data).regs.word off = v.regs.word off := fun off h => v.word_post_twin _ _ _ _ h
  have hlow := v.get_post b 0x1103 s.locusPkg data F.GLOBAL_STATE_PHASE (.of rfl (by omega)) rfl
  have hstore : (v.post b 0x1103 s.locusPkg data).store = v.store := (congrArg State.store (v.post_eq b 0x1103 s.locusPkg data)).trans rfl
  generalize v.post b 0x1103 s.locusPkg data = t at *
  have htwin : t.twin = { u.twin with handoverTx := t.twin.handoverTx } := (congrArg State.twin hpost.frame).trans rfl
  have hutwin : u.twin = { s.twin with source := true, handoverRx := false, misses := 0, yielded := false } := (congrArg State.twin hframe).trans rfl
  have hflash : t.flash = s.flash := ((congrArg State.flash hpost.frame).trans rfl).trans ((congrArg State.flash hframe).trans rfl)
  refine ⟨by rw [htwin, hutwin], by rw [htwin, hutwin], by rw [htwin, hutwin], hpseen,
    ((congrArg State.lcnt hpost.frame).trans rfl).trans ((congrArg State.lcnt hframe).trans rfl), fun a => by rw [hflash],
    ((congrArg State.pending hpost.frame).trans rfl).trans ((congrArg State.pending hframe).trans rfl), fun h => ?_⟩
  obtain rfl := hnone h
  have hfld : ∀ f : Fld, 0xF80000 ≤ f.off → t.regs.fld f = v.regs.fld f := fun f hf => RegTab.fld_congr (hword _ hf)
  refine ⟨memSame_of_fields (hstore.trans ((congrArg State.store hframe).trans rfl)) hflash, (hfld _ (by decide)).trans hrole,
    (RegTab.bit_congr (hfld _ (by decide))).trans hby, (RegTab.bit_congr (hfld _ (by decide))).trans hseen, ?_, fun h3 => hlow.trans (hphase h3)⟩
  refine (RegTab.wide_congr 2 R.TWIN_TAKEOVER_LCNT fun j h1 _ => hword j ?_).trans hlcnt
  simp only [R.TWIN_TAKEOVER_LCNT] at h1
  omega

theorem execTakeover_eq (hb : b = boundaryAt s.lcnt) (hpeer : s.twin.peer = some p) (hrole : s.get F.TWIN_STATUS_ROLE = 2) :
    exec .takeover s = .next (if s.twin.handoverRx then (s.at_ b).takeoverAt b 2 p
      else if s.hbMiss ≤ s.twin.misses ∧ s.flag F.TWIN_CTRL_LOSS_TAKEOVER then (s.at_ b).takeoverAt b 1 p else s.at_ b) := by
  subst hb
  show Host.Outcome.next ((s.at_ (boundaryAt s.lcnt)).takeoverDue (boundaryAt s.lcnt)) = _
  have hpeer' : (s.at_ (boundaryAt s.lcnt)).twin.peer = some p := hpeer
  have hrole' : (s.at_ (boundaryAt s.lcnt)).get F.TWIN_STATUS_ROLE = 2 := hrole
  rw [State.takeoverDue, hpeer']
  dsimp only
  rw [if_neg (not_not.mpr hrole')]
  rfl

theorem takeover_due (hb : b = boundaryAt s.lcnt) (hpeer : s.twin.peer = some p) (hrole : s.get F.TWIN_STATUS_ROLE = 2) :
    (s.twin.handoverRx = true ∨ (s.hbMiss ≤ s.twin.misses ∧ s.flag F.TWIN_CTRL_LOSS_TAKEOVER = true) → ∃ t,
      exec .takeover s = .next t ∧ t.twin.source = true ∧ t.twin.handoverRx = false ∧ t.twin.misses = 0 ∧
      (0x1103, s.locusPkg) ∈ t.log.seen ∧ t.lcnt = max s.lcnt b ∧ flashSame s t ∧ t.pending = s.pending ∧
      (p.armed = 0 → memSame s t ∧ t.get F.TWIN_STATUS_ROLE = 1 ∧ t.flag F.TWIN_STATUS_BY_TAKEOVER = true ∧
        t.flag F.TWIN_STATUS_TAKEOVER_SEEN = true ∧ t.getN R.TWIN_TAKEOVER_LCNT 2 = b % 2 ^ 64 ∧
        (s.get F.GLOBAL_STATE_PHASE = 3 → t.get F.GLOBAL_STATE_PHASE = 2))) ∧
    (s.twin.handoverRx = false → s.twin.misses < s.hbMiss ∨ s.flag F.TWIN_CTRL_LOSS_TAKEOVER = false →
      exec .takeover s = .next (s.at_ b)) := by
  rw [execTakeover_eq s b p hb hpeer hrole]
  refine ⟨fun h => ?_, fun h1 h2 => ?_⟩
  · by_cases hrx : s.twin.handoverRx = true
    · exact ⟨_, congrArg Host.Outcome.next (if_pos hrx), (s.at_ b).takeoverAt_effect b 2 p⟩
    · exact ⟨_, congrArg Host.Outcome.next ((if_neg hrx).trans (if_pos (h.resolve_left hrx))), (s.at_ b).takeoverAt_effect b 1 p⟩
  · refine congrArg Host.Outcome.next ((if_neg (by simp [h1])).trans (if_neg fun ⟨h3, h4⟩ => ?_))
    rcases h2 with h2 | h2
    · omega
    · exact absurd (h2.symm.trans h4) (by decide)

theorem exec_takeover_idle (h : s.twin.peer = none ∨ s.get F.TWIN_STATUS_ROLE ≠ 2) : exec .takeover s = .next (s.at_ (boundaryAt s.lcnt)) := by
  show Host.Outcome.next (match s.twin.peer with
    | none => _
    | some p => _) = _
  split
  · rfl
  · next hp =>
    rcases h with h | h
    · exact absurd (h.symm.trans hp) (by simp)
    · exact congrArg Host.Outcome.next (if_pos h)

end

/-! ### Handover (R387) -/

/-- What stopping the groups changes. -/
def stopShare : Share where
  upd s t := { s with lcnt := t.lcnt, regs := t.regs, grps := t.grps }
  regs off := 0x408000 ≤ off ∧ off < 0x410000
  self _ := rfl
  again _ _ _ := rfl

section
variable (s : State) (b : Nat)

theorem State.stopAll_stopShare : stopShare.Only s (s.stopAll b) := by
  unfold State.stopAll
  refine .foldl _ _ (fun t g hg => ?_) s
  have hg := List.mem_range.mp hg
  have hstat : stopShare.regs (F.TRG_GRP_STATUS_STATE g).off := by
    simp only [stopShare, F.TRG_GRP_STATUS_STATE]
    omega
  have hset : ∀ y, stopShare.Only t ((t.at_ b).setGrp g y) := fun y => .parts rfl rfl
  unfold State.stopWrite
  dsimp only
  exact .ite (.ite (hset _) ((hset _).trans (.put hstat))) (.parts rfl rfl)

theorem State.hbBytes_length : (s.hbBytes b).length = 552 := by
  have hgrps : ∀ l : List Nat, (l.flatMap (fun g => packLE [(8, s.getN (R.REC_GRP_NEXT_NUM g) 2), (8, (s.grp g).nextGap),
      (8, (s.grp g).durable), (2, rMax s.regs g), (6, 0)])).length = 32 * l.length := fun l => by
    induction l with
    | nil => rfl
    | cons g gs ih =>
      rw [List.flatMap_cons, List.length_append, ih, packLE_length, List.length_cons]
      simp only [List.map_cons, List.map_nil, List.sum_cons, List.sum_nil]
      omega
  unfold State.hbBytes
  dsimp only
  rw [List.length_append, packLE_length, hgrps, List.length_range]
  rfl

/-- A handover's frame has left. -/
def State.handedOver (s : State) (b : Nat) : State :=
  { s.mirror 3 (s.hbBytes b) with twin := { s.twin with handoverTx := false, yielded := true } }

theorem State.handoverAt_eq : s.handoverAt b = if s.twin.handoverTx ∧ s.get F.TWIN_STATUS_ROLE = 1 then
    (((s.handedOver b).stopAll b).toStandby).post b 0x1106 (s.handedOver b).locusPkg 0 else s := rfl

/-- What a handover leaves. -/
theorem State.handoverAt_effect (h : s.twin.handoverTx = true) (hrole : s.get F.TWIN_STATUS_ROLE = 1) :
    (s.handoverAt b).get F.TWIN_STATUS_ROLE = 2 ∧ (s.handoverAt b).flag F.TWIN_STATUS_BY_TAKEOVER = false ∧
    (s.handoverAt b).get F.GLOBAL_STATE_PHASE = 3 ∧ (s.handoverAt b).twin.source = false ∧ (s.handoverAt b).twin.yielded = true ∧
    (s.handoverAt b).twin.misses = 0 ∧ (0x1106, s.locusPkg) ∈ (s.handoverAt b).log.seen ∧
    (∃ f : List Byte, Out.mirror f ∈ (s.handoverAt b).out ∧ f[8]? = some 3 ∧ (f.drop 16).take 552 = s.hbBytes b) ∧
    s.handoverAt b = { s with
      out := (s.handoverAt b).out, free := (s.handoverAt b).free, lcnt := (s.handoverAt b).lcnt
      regs := (s.handoverAt b).regs, grps := (s.handoverAt b).grps, msix := (s.handoverAt b).msix, twin := (s.handoverAt b).twin,
      log := (s.handoverAt b).log } := by
  rw [s.handoverAt_eq b, if_pos ⟨h, hrole⟩]
  have hlen := s.hbBytes_length b
  obtain ⟨f, hf, hout, hmframe⟩ := s.mirror_effect 3 (payload := s.hbBytes b) (by omega)
  have hpay := hf.payload
  rw [hlen] at hpay
  have hframe : s.handedOver b = { s with
      out := .mirror f :: s.out, free := (s.mirror 3 (s.hbBytes b)).free
      twin := { s.twin with handoverTx := false, yielded := true } } := by
    rw [← hout]
    rfl
  have hlocus : (s.handedOver b).locusPkg = s.locusPkg := State.locusPkg_congr rfl
  rw [hlocus]
  generalize s.handedOver b = u at *
  have hmem : Out.mirror f ∈ u.out := by
    rw [(congrArg State.out hframe).trans rfl]
    exact List.mem_cons_self
  have hstop := u.stopAll_stopShare b
  generalize u.stopAll b = v at *
  obtain ⟨hsrole, hsby, hsphase, hsframe⟩ := v.toStandby_effect
  generalize v.toStandby = w at *
  have hleft := w.post_twinLeft b 0x1106 s.locusPkg 0
  have hpost := w.post_eq b 0x1106 s.locusPkg 0
  have hfld : ∀ g : Fld, 0xF80000 ≤ g.off → (w.post b 0x1106 s.locusPkg 0).regs.fld g = w.regs.fld g := fun g hg => w.fld_post_twin _ _ _ _ hg
  have hlow := w.get_post b 0x1106 s.locusPkg 0 F.GLOBAL_STATE_PHASE (.of rfl (by omega)) rfl
  have hseen := w.post_seen b 0x1106 s.locusPkg 0
  generalize w.post b 0x1106 s.locusPkg 0 = t at *
  have hvtwin : v.twin = { s.twin with handoverTx := false, yielded := true } :=
    ((congrArg State.twin hstop.frame).trans rfl).trans ((congrArg State.twin hframe).trans rfl)
  have hwtwin : w.twin = { v.twin with source := false, misses := 0, handoverRx := false } := (congrArg State.twin hsframe).trans rfl
  have htwin := hleft.twin
  have hwout : w.out = u.out := ((congrArg State.out hsframe).trans rfl).trans ((congrArg State.out hstop.frame).trans rfl)
  refine ⟨(hfld _ (by decide)).trans hsrole, (RegTab.bit_congr (hfld _ (by decide))).trans hsby, hlow.trans hsphase, by rw [htwin, hwtwin],
    by rw [htwin, hwtwin, hvtwin], by rw [htwin, hwtwin], hseen, ⟨f, hleft.out _ (by rwa [hwout]), hf.typ, hpay⟩, ?_⟩
  have hv := hstop.frame
  rw [hframe] at hv
  rw [hv] at hsframe
  rw [hsframe] at hpost
  exact hpost.trans (by rw [hpost]; rfl)

theorem handover_commands : (s.get F.TWIN_STATUS_ROLE = 1 → s.flag F.TWIN_STATUS_ALIGNED = true →
      exec .handover s = .next { s with twin := { s.twin with handoverTx := true } }) ∧
    (s.get F.TWIN_STATUS_ROLE ≠ 1 ∨ s.flag F.TWIN_STATUS_ALIGNED = false → exec .handover s = .next s) := by
  refine ⟨fun h1 h2 => congrArg Host.Outcome.next (if_pos ⟨h1, h2⟩), fun h => congrArg Host.Outcome.next (if_neg fun ⟨h1, h2⟩ => ?_)⟩
  rcases h with h | h
  · exact h h1
  · exact absurd (h.symm.trans h2) (by decide)

theorem handoverSend_sends (h : s.twin.handoverTx = true) (hrole : s.get F.TWIN_STATUS_ROLE = 1) : ∃ t, exec .handoverSend s = .next t ∧
    t.get F.TWIN_STATUS_ROLE = 2 ∧ t.flag F.TWIN_STATUS_BY_TAKEOVER = false ∧ t.get F.GLOBAL_STATE_PHASE = 3 ∧
    t.twin.source = false ∧ t.twin.yielded = true ∧ t.twin.misses = 0 ∧ (0x1106, s.locusPkg) ∈ t.log.seen ∧
    (∃ f : List Byte, Out.mirror f ∈ t.out ∧ f[8]? = some 3 ∧
      (f.drop 16).take 552 = (s.at_ (boundaryAt s.lcnt)).hbBytes (boundaryAt s.lcnt)) ∧ memSame s t ∧
    t = { s with
      out := t.out, free := t.free, lcnt := t.lcnt, regs := t.regs, grps := t.grps, msix := t.msix, twin := t.twin, log := t.log } := by
  have hexec : exec .handoverSend s = .next ((s.at_ (boundaryAt s.lcnt)).handoverAt (boundaryAt s.lcnt)) := rfl
  obtain ⟨h1, h2, h3, h4, h5, h6, h7, h8, h9⟩ := (s.at_ (boundaryAt s.lcnt)).handoverAt_effect (boundaryAt s.lcnt) h hrole
  refine ⟨_, hexec, ?_⟩
  generalize (s.at_ (boundaryAt s.lcnt)).handoverAt (boundaryAt s.lcnt) = t at *
  have hframe : t = { s with
      out := t.out, free := t.free, lcnt := t.lcnt, regs := t.regs, grps := t.grps, msix := t.msix, twin := t.twin, log := t.log } := h9.trans rfl
  exact ⟨h1, h2, h3, h4, h5, h6, h7, h8, memSame_of_fields ((congrArg State.store hframe).trans rfl) ((congrArg State.flash hframe).trans rfl), hframe⟩

theorem exec_handoverSend_idle (h : s.twin.handoverTx = false ∨ s.get F.TWIN_STATUS_ROLE ≠ 1) :
    exec .handoverSend s = .next (s.at_ (boundaryAt s.lcnt)) := by
  refine congrArg Host.Outcome.next (if_neg fun ⟨h1, h2⟩ => ?_)
  rcases h with h | h
  · exact absurd (h.symm.trans h1) (by decide)
  · exact h h2

end

/-- Settles O59. -/
theorem twinsAlignPairAndTakeOver : Obligations.TwinsAlignPairAndTakeOver := by
  unfold Obligations.TwinsAlignPairAndTakeOver
  refine ⟨fun f s => ⟨fun h => congrArg Host.Outcome.next (if_pos h), mirrorFrameRx_gains s f, mirrorFrameRx_keeps s f⟩,
    fun a p s => ⟨fun h c hc => ?_, fun h => ⟨heartbeatRx_pairs s a p h, handoverRx_noted s a p h, echoDue_sends s h⟩⟩,
    fun a sent turn s => ⟨fun h => ⟨congrArg Host.Outcome.next (if_neg (by simp [h])), congrArg Host.Outcome.next (if_neg (by simp [h]))⟩,
      fun h => ⟨echoRx_answers s a sent h, echoReplyRx_measures s a sent turn h⟩⟩,
    fun s p b hb hpeer hrole => takeover_due s b p hb hpeer hrole, exec_takeover_idle,
    fun s => ⟨(handover_commands s).1, (handover_commands s).2, handoverSend_sends s, exec_handoverSend_idle s⟩⟩
  simp only [List.mem_cons, List.not_mem_nil, or_false] at hc
  rcases hc with rfl | rfl | rfl
  · exact congrArg Host.Outcome.next (if_neg (by simp [h]))
  · exact congrArg Host.Outcome.next (if_neg (by simp [h]))
  · exact congrArg Host.Outcome.next (if_neg (by simp [h]))

end Sys2Proof.Machine
end

section
/-! SUPPORT. Cold resets: the keeper and the flash are kept, everything else starts anew (R367-R371). -/

namespace Sys2Proof.Machine

open Sys2Proof.Safety

/-! ### Registers that a reset keeps -/

section
variable (r : RegTab) {keep : Nat → Bool}

theorem RegTab.word_filter_kept {off : Nat} (h : keep off = true) : RegTab.word (r.filter (fun p => keep p.1)) off = r.word off :=
  (Tab.get_filter _ r keep off).trans (if_pos h)

theorem RegTab.word_filter_dropped {off : Nat} (h : keep off = false) : RegTab.word (r.filter (fun p => keep p.1)) off = resetWord off :=
  (Tab.get_filter _ r keep off).trans (if_neg (by simp [h]))

end

/-! ### The cause of a reset -/

section
variable (s : State) (cause : Nat)

/-- The keeper records the cause and the seconds. -/
def State.keeperNoted : State := (s.setCauseReg cause).keepSec.2

theorem State.setCauseReg_effect : (s.setCauseReg cause).get F.GLOBAL_RESET_CAUSE_CAUSE = cause % 2 ^ 8 ∧
    (s.setCauseReg cause).get F.GLOBAL_RESET_CAUSE_PREV = s.get F.GLOBAL_RESET_CAUSE_CAUSE ∧
    (∀ off, off ≠ 0x108 → (s.setCauseReg cause).regs.word off = s.regs.word off) := by
  have hmin : s.get F.GLOBAL_RESET_CAUSE_CAUSE % 2 ^ 8 = s.get F.GLOBAL_RESET_CAUSE_CAUSE := Nat.mod_mod _ _
  refine ⟨RegTab.fld_setFld_self _ _ (.of rfl (by omega)), ?_, fun off h => ?_⟩
  · refine (RegTab.fld_setFld_sep (f := F.GLOBAL_RESET_CAUSE_CAUSE) (g := F.GLOBAL_RESET_CAUSE_PREV) _ _ (.of rfl (by omega))).trans ?_
    exact (RegTab.fld_setFld_self _ _ (.of rfl (by omega))).trans hmin
  · exact (RegTab.word_setFld_other _ _ _ _ h).trans (RegTab.word_setFld_other _ _ _ _ h)

theorem State.keepSec_word {off : Nat} (h : off < 0x110 ∨ 0x118 ≤ off) : s.keepSec.2.regs.word off = s.regs.word off :=
  RegTab.word_setWide_other _ _ _ _ _ (by simp only [R.GLOBAL_KEEP_SEC]; omega)

end

/-! ### Cold resets -/

/-- Where the keeper stands when a cold reset begins. -/
def State.keeperAt (s : State) (cause : Nat) (good : Bool) : State := if good then s.keeperNoted cause else s

/-- What a cold reset leaves before it shows and logs anything. -/
def State.coldStart (s0 : State) (cause : Nat) (good : Bool) : State :=
  let s := s0.keeperAt cause good
  { State.reset with
    pending := s.pending
    out := s.out
    free := s.free
    regs := if good then s.regs.filter (fun p => keeperWord p.1) else []
    flash := s.flash
    tap := if cause = 1 ∨ cause = 2 then Tap.init else s.tap
    disp := { Disp.init with hpd := s.disp.hpd }
    epochs := []
    keeper := ⟨true, 0, 0, none⟩
    pwr := { Pwr.init with episodes := s.pwr.episodes.map (fun p => (p.1, 0)), thermalHold := s.pwr.thermalHold } }

/-- What a cold reset shows: supplies, the oscillator, marked store parts, ERR_N. -/
def State.coldShown (t s : State) (cause : Nat) (low : Bool) : State :=
  let t1 := (t.put F.GLOBAL_SUPPLY_NOW (maskOf (s.pwr.episodes.map (fun p => p.1)))).putB F.CLK_STATUS_OCXO_RDY
    (s.flag F.CLK_STATUS_OCXO_RDY)
  let t2 := if cause = 1 ∨ cause = 2 then t1 else (List.range 4).foldl (fun u k =>
    u.put (F.STO_REPAIR_FAIL_PENDING k) (s.get (F.STO_REPAIR_FAIL_PENDING k))) t1
  if low then t2.emit (.pin 0 true) else t2

/-- What a cold reset logs. -/
def State.coldLogged (t : State) (e : Epoch) (data : Nat) (good : Bool) : State :=
  let t4 := t.openEpoch e
  let t5 := (t4.post 0 0x0101 t4.locusPkg data).post 0 0x0701 t4.locusHub 0
  if good then t5 else t5.post 0 0x0109 t5.locusPkg 0

/-- What a cold reset does after it has begun. -/
def coldShare : Share where
  upd s t := { t with
    pending := s.pending, lcnt := s.lcnt, shadow := s.shadow, commit := s.commit, grps := s.grps, flash := s.flash }
  regs off := off = 0x130 ∨ off = 0x200018 ∨ (0x700060 ≤ off ∧ off < 0x700070) ∨ 0xC00000 ≤ off
  self _ := rfl
  again _ _ _ := rfl

theorem coldShare_low {off : Nat} (h : off < 0x130) : ¬ coldShare.regs off := fun hc => by
  simp only [coldShare] at hc
  omega

section
variable (s t : State)

theorem State.coldReset_eq (cause : Nat) (good : Bool) : ∃ e data, s.coldReset cause good =
    ((s.coldStart cause good).coldShown (s.keeperAt cause good) cause (s.flag F.LOG_STATUS_ERR_N)).coldLogged
      e data good := by
  exact ⟨_, _, rfl⟩

theorem State.coldShown_coldShare (cause : Nat) (low : Bool) : coldShare.Only t (t.coldShown s cause low) := by
  have hput : ∀ (u : State) (f : Fld) (v : Nat), coldShare.regs f.off → coldShare.Only u (u.put f v) := fun _ _ _ hf => .put hf
  unfold State.coldShown
  extract_lets t1 t2
  have h1 : coldShare.Only t t1 := (hput t F.GLOBAL_SUPPLY_NOW _ (.inl rfl)).trans (hput _ F.CLK_STATUS_OCXO_RDY _ (.inr (.inl rfl)))
  have h2 : coldShare.Only t1 t2 := .ite (.refl _ _) (.foldl _ _ (fun u k hk => hput u (F.STO_REPAIR_FAIL_PENDING k) _ (.inr (.inr (.inl (by
    have := List.mem_range.mp hk
    simp only [F.STO_REPAIR_FAIL_PENDING]
    omega))))) t1)
  exact (h1.trans h2).trans (.ite (.parts rfl rfl) (.refl _ _))

theorem State.post_coldShare (lc code locus data : Nat) : coldShare.Only t (t.post lc code locus data) := by
  refine .post (fun _ h => .inr (.inr (.inr (by omega)))) ?_
  have h := t.post_eq lc code locus data
  generalize t.post lc code locus data = u at *
  rw [h]
  rfl

theorem State.openEpoch_coldShare (e : Epoch) : coldShare.Only t (t.openEpoch e) := by
  have h := t.openEpoch_timeShare e
  generalize t.openEpoch e = u at *
  refine ⟨?_, fun off ho => h.word off fun hc => ho ?_⟩
  · have hf := h.frame
    rw [hf]
    rfl
  · simp only [timeShare, coldShare] at hc ⊢
    omega

/-- A cold reset has shown and logged itself, and a keeper that was lost. -/
structure ColdLogged (good : Bool) (t u : State) : Prop where
  share : coldShare.Only t u
  seen : (0x0101, u.locusPkg) ∈ u.log.seen
  lost : good = false → (0x0109, u.locusPkg) ∈ u.log.seen

theorem State.coldLogged_effect (e : Epoch) (data : Nat) (good : Bool) : ColdLogged good t (t.coldLogged e data good) := by
  have hlocus : ∀ (u : State) (lc code locus d : Nat), (u.post lc code locus d).locusPkg = u.locusPkg := fun u lc code locus d =>
    State.locusPkg_congr (State.fld_post _ _ _ _ _ (.of rfl (by omega)))
  unfold State.coldLogged
  have h4 := t.openEpoch_coldShare e
  generalize t.openEpoch e = t4 at *
  dsimp only
  have h5 := (h4.trans (t4.post_coldShare 0 0x0101 t4.locusPkg data)).trans (State.post_coldShare _ 0 0x0701 t4.locusHub 0)
  have hseen := State.seen_post_of_seen _ 0 0x0701 t4.locusHub 0 (t4.post_seen 0 0x0101 t4.locusPkg data)
  have hl : ((t4.post 0 0x0101 t4.locusPkg data).post 0 0x0701 t4.locusHub 0).locusPkg = t4.locusPkg := (hlocus _ _ _ _ _).trans (hlocus _ _ _ _ _)
  generalize (t4.post 0 0x0101 t4.locusPkg data).post 0 0x0701 t4.locusHub 0 = t5 at *
  rw [← hl] at hseen
  cases good
  · rw [if_neg (by decide)]
    refine ⟨h5.trans (State.post_coldShare _ _ _ _ _), ?_, fun _ => ?_⟩
    · rw [hlocus]
      exact State.seen_post_of_seen _ _ _ _ _ hseen
    · rw [hlocus]
      exact State.post_seen _ _ _ _ _
  · exact ⟨h5, hseen, fun h => absurd h (by decide)⟩

/-- What a cold reset leaves after it has begun. -/
theorem State.coldReset_effect (cause : Nat) (good : Bool) : ColdLogged good (s.coldStart cause good) (s.coldReset cause good) := by
  obtain ⟨e, data, heq⟩ := s.coldReset_eq cause good
  rw [heq]
  have hshown := (s.keeperAt cause good).coldShown_coldShare (s.coldStart cause good) cause (s.flag F.LOG_STATUS_ERR_N)
  generalize (s.coldStart cause good).coldShown (s.keeperAt cause good) cause (s.flag F.LOG_STATUS_ERR_N) = t at *
  obtain ⟨h1, h2, h3⟩ := t.coldLogged_effect e data good
  exact ⟨hshown.trans h1, h2, h3⟩

/-- A cold reset with a good keeper. -/
theorem State.coldReset_good (cause : Nat) :
    (s.coldReset cause true).get F.GLOBAL_RESET_CAUSE_CAUSE = cause % 2 ^ 8 ∧
    (s.coldReset cause true).get F.GLOBAL_RESET_CAUSE_PREV = s.get F.GLOBAL_RESET_CAUSE_CAUSE ∧ (s.coldReset cause true).lcnt = 0 ∧
    (s.coldReset cause true).get F.GLOBAL_STATE_PHASE = 0 ∧ (s.coldReset cause true).shadow = [] ∧
    (s.coldReset cause true).commit = none ∧ (s.coldReset cause true).grps = [] ∧ (s.coldReset cause true).flash = s.flash ∧
    (0x0101, (s.coldReset cause true).locusPkg) ∈ (s.coldReset cause true).log.seen ∧
    (s.coldReset cause true).pending = s.pending ∧
    (s.coldReset cause true).regs.word 0x10C = s.regs.word 0x10C := by
  obtain ⟨hshare, hseen, -⟩ := s.coldReset_effect cause true
  have hflash := s.coldReset_mem cause true
  generalize s.coldReset cause true = t at *
  obtain ⟨hcause, hprev, hother⟩ := s.setCauseReg_effect cause
  have hword : ∀ off, keeperWord off = true → off < 0x110 → (s.coldStart cause true).regs.word off = (s.setCauseReg cause).regs.word off :=
    fun off hk ho => (RegTab.word_filter_kept _ hk).trans (State.keepSec_word _ (.inl ho))
  have hreset : (s.coldStart cause true).regs.word 0x4 = resetWord 0x4 := RegTab.word_filter_dropped _ (by decide)
  refine ⟨?_, ?_, (congrArg State.lcnt hshare.frame).trans rfl, ?_, (congrArg State.shadow hshare.frame).trans rfl,
    (congrArg State.commit hshare.frame).trans rfl, (congrArg State.grps hshare.frame).trans rfl, hflash.2, hseen, hflash.1, ?_⟩
  · exact (hshare.fld (coldShare_low (by decide))).trans ((congrArg (fun w => fldGet w F.GLOBAL_RESET_CAUSE_CAUSE) (hword 0x108 (by decide) (by decide))).trans hcause)
  · exact (hshare.fld (coldShare_low (by decide))).trans ((congrArg (fun w => fldGet w F.GLOBAL_RESET_CAUSE_PREV) (hword 0x108 (by decide) (by decide))).trans hprev)
  · exact (hshare.fld (coldShare_low (by decide))).trans ((congrArg (fun w => fldGet w F.GLOBAL_STATE_PHASE) hreset).trans (by decide))
  · exact (hshare.word _ (coldShare_low (by decide))).trans ((hword _ (by decide) (by decide)).trans (hother _ (by decide)))

/-- A cold reset that finds no good keeper. -/
theorem State.coldReset_lost : (s.coldReset 1 false).get F.GLOBAL_RESET_CAUSE_CAUSE = 1 ∧
    (s.coldReset 1 false).get F.GLOBAL_RESET_CAUSE_PREV = 0 ∧ (s.coldReset 1 false).flag F.GLOBAL_RESET_CAUSE_KEEP_LOST = true ∧
    (s.coldReset 1 false).get F.GLOBAL_PWR_CYCLES_COUNT = 1 ∧ (s.coldReset 1 false).lcnt = 0 ∧ (s.coldReset 1 false).flash = s.flash ∧
    (0x0101, (s.coldReset 1 false).locusPkg) ∈ (s.coldReset 1 false).log.seen ∧
    (0x0109, (s.coldReset 1 false).locusPkg) ∈ (s.coldReset 1 false).log.seen ∧ (s.coldReset 1 false).pending = s.pending := by
  obtain ⟨hshare, hseen, hlost⟩ := s.coldReset_effect 1 false
  have hflash := s.coldReset_mem 1 false
  generalize s.coldReset 1 false = t at *
  have hword : ∀ off, (s.coldStart 1 false).regs.word off = resetWord off := fun _ => rfl
  refine ⟨?_, ?_, ?_, ?_, (congrArg State.lcnt hshare.frame).trans rfl, hflash.2, hseen, hlost rfl, hflash.1⟩
  · exact (hshare.fld (coldShare_low (by decide))).trans ((congrArg (fun w => fldGet w F.GLOBAL_RESET_CAUSE_CAUSE) (hword 0x108)).trans (by decide))
  · exact (hshare.fld (coldShare_low (by decide))).trans ((congrArg (fun w => fldGet w F.GLOBAL_RESET_CAUSE_PREV) (hword 0x108)).trans (by decide))
  · exact (hshare.bit (coldShare_low (by decide))).trans ((congrArg (fun w => fldGet w F.GLOBAL_RESET_CAUSE_KEEP_LOST == 1) (hword 0x108)).trans (by decide))
  · exact (hshare.fld (coldShare_low (by decide))).trans ((congrArg (fun w => fldGet w F.GLOBAL_PWR_CYCLES_COUNT) (hword 0x10C)).trans (by decide))

/-! ### Commands that reset cold -/

theorem exec_cold (us : Nat) (h : 10000 ≤ us) :
    ∀ p ∈ [(Instr.storeRailLoss, 8), (.resetNAssert us, 3), (.resetColdCmd 0xA5, 5), (.powerOn true, 2)], ∃ t,
      exec p.1 s = .next t ∧ t.get F.GLOBAL_RESET_CAUSE_CAUSE = p.2 ∧
      t.get F.GLOBAL_RESET_CAUSE_PREV = s.get F.GLOBAL_RESET_CAUSE_CAUSE ∧ t.lcnt = 0 ∧ t.get F.GLOBAL_STATE_PHASE = 0 ∧
      t.shadow = [] ∧ t.commit = none ∧ t.grps = [] ∧ t.flash = s.flash ∧ (0x0101, t.locusPkg) ∈ t.log.seen ∧
      t.pending = s.pending := by
  intro p hp
  have key : ∀ (u : State) (c : Instr) (n : Nat), exec c s = .next (u.coldReset n true) → n % 2 ^ 8 = n →
      u.get F.GLOBAL_RESET_CAUSE_CAUSE = s.get F.GLOBAL_RESET_CAUSE_CAUSE → u.flash = s.flash → u.pending = s.pending → ∃ t,
      exec c s = .next t ∧ t.get F.GLOBAL_RESET_CAUSE_CAUSE = n ∧
      t.get F.GLOBAL_RESET_CAUSE_PREV = s.get F.GLOBAL_RESET_CAUSE_CAUSE ∧ t.lcnt = 0 ∧ t.get F.GLOBAL_STATE_PHASE = 0 ∧
      t.shadow = [] ∧ t.commit = none ∧ t.grps = [] ∧ t.flash = s.flash ∧ (0x0101, t.locusPkg) ∈ t.log.seen ∧
      t.pending = s.pending := by
    intro u c n hexec hn hu hf hpend
    obtain ⟨h1, h2, h3, h4, h5, h6, h7, h8, h9, h10, -⟩ := u.coldReset_good n
    exact ⟨_, hexec, h1.trans hn, h2.trans hu, h3, h4, h5, h6, h7, h8.trans hf, h9, h10.trans hpend⟩
  simp only [List.mem_cons, List.not_mem_nil, or_false] at hp
  rcases hp with rfl | rfl | rfl | rfl
  · exact key s _ 8 rfl rfl rfl rfl rfl
  · exact key s _ 3 (congrArg Host.Outcome.next (if_pos h)) rfl rfl rfl rfl
  · exact key s _ 5 rfl rfl rfl rfl rfl
  · exact key _ _ 2 rfl rfl (RegTab.fld_setFld_sep _ _ (.of rfl (by omega))) rfl rfl

theorem powerOn_counts : ∃ t, exec (.powerOn true) s = .next t ∧
    t.get F.GLOBAL_PWR_CYCLES_COUNT = min (s.get F.GLOBAL_PWR_CYCLES_COUNT + 1) (2 ^ 32 - 1) := by
  obtain ⟨-, -, -, -, -, -, -, -, -, -, h⟩ := (s.incSat F.GLOBAL_PWR_CYCLES_COUNT).coldReset_good 2
  exact ⟨_, rfl, (RegTab.fld_congr h).trans (State.get_incSat_width (w := 32) s (f := F.GLOBAL_PWR_CYCLES_COUNT) (.of rfl (by omega)) rfl)⟩

theorem powerOn_lost : ∃ t, exec (.powerOn false) s = .next t ∧ t.get F.GLOBAL_RESET_CAUSE_CAUSE = 1 ∧ t.get F.GLOBAL_RESET_CAUSE_PREV = 0 ∧
    t.flag F.GLOBAL_RESET_CAUSE_KEEP_LOST = true ∧ t.get F.GLOBAL_PWR_CYCLES_COUNT = 1 ∧ t.lcnt = 0 ∧ t.flash = s.flash ∧
    (0x0101, t.locusPkg) ∈ t.log.seen ∧ (0x0109, t.locusPkg) ∈ t.log.seen ∧ t.pending = s.pending := by
  by_cases hw : s.flag F.GLOBAL_WAKE_CTRL_ASSERTED = true
  · have hframe := s.wakeRelease_effect.2
    obtain ⟨h1, h2, h3, h4, h5, h6, h7, h8, h9⟩ := s.wakeRelease.coldReset_lost
    exact ⟨_, congrArg Host.Outcome.next (if_pos hw), h1, h2, h3, h4, h5, h6.trans ((congrArg State.flash hframe).trans rfl), h7, h8,
      h9.trans ((congrArg State.pending hframe).trans rfl)⟩
  · exact ⟨_, congrArg Host.Outcome.next (if_neg hw), s.coldReset_lost⟩

end

end Sys2Proof.Machine
end

section
/-! SUPPORT. Core loss, group reset and the wake alarm (R125, R369-R374). -/

namespace Sys2Proof.Machine

open Sys2Proof.Safety

/-! ### Tables with every value changed -/

/-- What holds of the default and of every value written holds of every value read. -/
theorem Tab.get_map_of {α : Type} {P : α → Prop} {d : α} {f : α → α} (hd : P d) (hf : ∀ x, P (f x)) (t : Tab α) (k : Nat) :
    P (Tab.get d (t.map (fun p : Nat × α => (p.1, f p.2))) k) := by
  induction t with
  | nil => exact hd
  | cons p rest ih =>
    rw [List.map_cons, Tab.get]
    split
    · exact hf _
    · exact ih

/-! ### Core loss (R125, R370) -/

section
variable (s : State)

/-- What a core loss leaves of a group. -/
def Grp.lost (x : Grp) : Grp := { x with
  closing := x.spans
  pastRecs := x.cur.toList.map (fun r => (r.num, r.s, r.e)) ++ x.pastRecs
  cur := none
  winFrom := none
  armed := false
  claim := none
  stopReq := none
  armReq := none
  readyFrom := none
  events := [] }

/-- What a core loss leaves before its phase is shown. -/
def State.coreStopped : State :=
  { s.setCauseReg 7 with
    stageFill := []
    stageDrain := []
    fillData := 0
    drainData := 0
    grps := s.grps.map (fun p : Nat × Grp => (p.1, p.2.lost))
    commit := none
    armPlan := none
    cfgReady := false
    pwr := { s.pwr with coreLoss := true } }

theorem State.coreLoss_eq : s.coreLoss = s.coreStopped.put F.GLOBAL_STATE_PHASE 0 := rfl

theorem State.coreLoss_effect : s.coreLoss.get F.GLOBAL_RESET_CAUSE_CAUSE = 7 ∧
    s.coreLoss.get F.GLOBAL_RESET_CAUSE_PREV = s.get F.GLOBAL_RESET_CAUSE_CAUSE ∧ s.coreLoss.get F.GLOBAL_STATE_PHASE = 0 ∧
    s.coreLoss.pwr = { s.pwr with coreLoss := true } ∧ s.coreLoss.stageFill = [] ∧ s.coreLoss.stageDrain = [] ∧
    s.coreLoss.commit = none ∧ s.coreLoss.armPlan = none ∧ s.coreLoss.cfgReady = false ∧ (∀ g, (s.coreLoss.grp g).armed = false) ∧
    s.coreLoss.keeper = s.keeper ∧
    changesOnly [F.GLOBAL_RESET_CAUSE_CAUSE, F.GLOBAL_RESET_CAUSE_PREV, F.GLOBAL_STATE_PHASE] s s.coreLoss := by
  obtain ⟨hcause, hprev, -⟩ := s.setCauseReg_effect 7
  have hphase : ∀ f : Fld, F.GLOBAL_STATE_PHASE.Sep f → s.coreLoss.get f = (s.setCauseReg 7).get f := fun f hf =>
    RegTab.fld_setFld_sep s.coreStopped.regs 0 hf
  have hset : changesOnly [F.GLOBAL_RESET_CAUSE_CAUSE, F.GLOBAL_RESET_CAUSE_PREV, F.GLOBAL_STATE_PHASE] s (s.setCauseReg 7) :=
    ((changesOnly.refl _ s).put (by simp)).put (by simp)
  have hstop : changesOnly [F.GLOBAL_RESET_CAUSE_CAUSE, F.GLOBAL_RESET_CAUSE_PREV, F.GLOBAL_STATE_PHASE] s s.coreStopped :=
    hset.parts rfl rfl rfl rfl
  exact ⟨(hphase _ (.of rfl (by omega))).trans hcause, (hphase _ (.of rfl (by omega))).trans hprev, RegTab.fld_setFld_self _ _ (.of rfl (by omega)),
    rfl, rfl, rfl, rfl, rfl, rfl, Tab.get_map_of (P := fun x : Grp => x.armed = false) (f := Grp.lost) rfl (fun _ => rfl) s.grps, rfl,
    hstop.put (by simp)⟩

/-! ### Wake (R369) -/

theorem wakeAlarm_wakes (hen : s.flag F.GLOBAL_WAKE_CTRL_EN = true) (hoff : s.flag F.GLOBAL_WAKE_CTRL_ASSERTED = false) : ∃ t,
    exec .wakeAlarm s = .next t ∧ t.flag F.GLOBAL_WAKE_CTRL_ASSERTED = true ∧ t.out = .pin 1 false :: s.out ∧
    t.getN R.GLOBAL_KEEP_SEC 2 = s.getN R.GLOBAL_WAKE_SEC 2 ∧
    changesOnly (F.GLOBAL_WAKE_CTRL_ASSERTED :: wideFlds R.GLOBAL_KEEP_SEC 2) s t ∧ t = { s with out := t.out, regs := t.regs } := by
  have hexec : exec .wakeAlarm s = .next (((s.putN R.GLOBAL_KEEP_SEC 2 (s.getN R.GLOBAL_WAKE_SEC 2)).setF F.GLOBAL_WAKE_CTRL_ASSERTED).emit
      (.pin 1 false)) := congrArg Host.Outcome.next (if_pos ⟨hen, hoff⟩)
  have hlt : s.getN R.GLOBAL_WAKE_SEC 2 < 2 ^ 64 := RegTab.wide_lt s.regs R.GLOBAL_WAKE_SEC 2
  refine ⟨_, hexec, RegTab.bit_setFld_one _ (.of rfl (by omega)), rfl, ?_, ?_, rfl⟩
  · refine (RegTab.wide_setFld_beside (f := F.GLOBAL_WAKE_CTRL_ASSERTED) (off := R.GLOBAL_KEEP_SEC) (n := 2) _ 1
      (.of rfl (by simp only [R.GLOBAL_KEEP_SEC]; omega))).trans ?_
    exact (State.getN_putN s R.GLOBAL_KEEP_SEC 2 _).trans (Nat.mod_eq_of_lt hlt)
  · have h : changesOnly (F.GLOBAL_WAKE_CTRL_ASSERTED :: wideFlds R.GLOBAL_KEEP_SEC 2) s
        ((s.putN R.GLOBAL_KEEP_SEC 2 (s.getN R.GLOBAL_WAKE_SEC 2)).put F.GLOBAL_WAKE_CTRL_ASSERTED 1) :=
      ((changesOnly.refl _ s).putN (fun _ h => List.mem_cons_of_mem _ h)).put (by simp)
    exact h.parts rfl rfl rfl rfl

theorem wakeRelease_sleeps (h : s.get F.GLOBAL_STATE_PHASE = 2 ∨ s.flag F.GLOBAL_WAKE_CTRL_EN = false)
    (hon : s.flag F.GLOBAL_WAKE_CTRL_ASSERTED = true) : ∃ t,
    exec .wakeRelease s = .next t ∧ t.flag F.GLOBAL_WAKE_CTRL_ASSERTED = false ∧ t.out = .pin 1 true :: s.out ∧
    changesOnly [F.GLOBAL_WAKE_CTRL_ASSERTED] s t ∧ t = { s with out := t.out, regs := t.regs } := by
  have hexec : exec .wakeRelease s = .next ((s.clrF F.GLOBAL_WAKE_CTRL_ASSERTED).emit (.pin 1 true)) :=
    congrArg Host.Outcome.next ((if_pos h).trans (if_pos hon))
  have hput : changesOnly [F.GLOBAL_WAKE_CTRL_ASSERTED] s (s.put F.GLOBAL_WAKE_CTRL_ASSERTED 0) := (changesOnly.refl _ s).put (by simp)
  exact ⟨_, hexec, RegTab.bit_setFld_zero _ (.of rfl (by omega)), rfl, hput.parts rfl rfl rfl rfl, rfl⟩

theorem exec_wakeRelease_idle (h : (s.get F.GLOBAL_STATE_PHASE ≠ 2 ∧ s.flag F.GLOBAL_WAKE_CTRL_EN = true) ∨
    s.flag F.GLOBAL_WAKE_CTRL_ASSERTED = false) : exec .wakeRelease s = .next s := by
  refine congrArg Host.Outcome.next ?_
  rcases h with ⟨h1, h2⟩ | h
  · exact if_neg (by simp [h1, h2])
  · split
    · exact if_neg (by simp [h])
    · rfl

end

/-! ### Group reset (R374) -/

section
variable (s : State) (g : Nat)

theorem State.showSrc_get {f : Fld} (h : ∀ k < 16, (F.TRG_GRP_STATUS_SRC_FENCED k).Sep f ∧ (F.TRG_GRP_STATUS_SRC_HELD k).Sep f) :
    s.showSrc.get f = s.get f := by
  have key : ∀ (l : List Nat) (u : State), (∀ k ∈ l, k < 16) → (l.foldl (fun t k =>
      (t.putB (F.TRG_GRP_STATUS_SRC_FENCED k) ((srcsOf s.regs k).any s.srcFenced)).putB (F.TRG_GRP_STATUS_SRC_HELD k)
        ((srcsOf s.regs k).any (fun c => match srcCh c with
          | some n => bitOf s.calMask n
          | none => false))) u).get f = u.get f := by
    intro l
    induction l with
    | nil => exact fun _ _ => rfl
    | cons k ks ih =>
      intro u hl
      obtain ⟨h1, h2⟩ := h k (hl k (by simp))
      exact (ih _ fun j hj => hl j (by simp [hj])).trans ((RegTab.fld_setFld_sep _ _ h2).trans (RegTab.fld_setFld_sep _ _ h1))
  exact key _ _ fun k hk => List.mem_range.mp hk

theorem State.showSrc_word {off : Nat} (h : ∀ k < 16, off ≠ R.TRG_GRP_STATUS k) : s.showSrc.regs.word off = s.regs.word off := by
  refine RegTab.word_eq_of_fld (s.showSrc_get (f := wordFld off) fun k hk => ?_)
  have hoff := h k hk
  simp only [R.TRG_GRP_STATUS] at hoff
  exact ⟨⟨.of rfl (by omega), wordFld_ok off, .inl (Ne.symm hoff)⟩, ⟨.of rfl (by omega), wordFld_ok off, .inl (Ne.symm hoff)⟩⟩

theorem State.freeSlot_regionKept (num : Nat) : RegionKept g s (s.freeSlot g num) :=
  (State.holdWatch_booked _ g).regionKept.after ((State.showPressure_kept _ g).after ((State.showOldest_kept _ g).after (.setGrp rfl rfl rfl rfl)))

theorem State.writeBlock_regionKept (lpage num : Nat) (es : List (List Byte)) : RegionKept g s (s.writeBlock g lpage num es) := by
  rw [s.writeBlock_cases g lpage num es _ rfl]
  have hwrite := s.swrites_writeShare (s.lpAddr g lpage 0x100) (blockBytes num es)
  generalize s.swrites (s.lpAddr g lpage 0x100) (blockBytes num es) = v at *
  have hv : RegionKept g s v := .parts ((congrArg State.grps hwrite.frame).trans rfl) ((congrArg State.regs hwrite.frame).trans rfl)
    ((congrArg State.lcnt hwrite.frame).trans rfl) ((congrArg State.log hwrite.frame).trans rfl)
  have hserved : RegionKept g v (v.served 2 (blockBytes num es).length) := .parts rfl rfl rfl rfl
  generalize v.served 2 (blockBytes num es).length = w at *
  have hset : RegionKept g w (w.setGrp g { w.grp g with
    slots := (w.grp g).slots.map (fun x => if x.num = num then { x with measured := true } else x) }) := .setGrp rfl rfl rfl rfl
  have hdone : RegionKept g s (w.blockDone g num) := (State.addItem_booked _ g _ _ _ _ _).regionKept.after (hset.after (hserved.after hv))
  exact .ite ((State.freeSlot_regionKept _ g num).after hdone) hdone

/-- What a block that is never measured leaves of the abacus queue and the group. -/
theorem State.notRun_kept (j : AbaJob) (hj : j.grp = g) : RegionKept g s (s.notRun j) ∧ (s.notRun j).abaQ = s.abaQ := by
  subst hj
  unfold State.notRun
  dsimp only
  generalize (abaEntries j.cfg j.grp).map _ = es
  have hkept := s.writeBlock_regionKept j.grp j.rcd.lpage j.rcd.num es
  have hq : (s.writeBlock j.grp j.rcd.lpage j.rcd.num es).abaQ = s.abaQ :=
    (congrArg State.abaQ (s.writeBlock_blocked j.grp j.rcd.lpage j.rcd.num es).1.frame).trans rfl
  generalize s.writeBlock j.grp j.rcd.lpage j.rcd.num es = u at *
  have hput : BookedOn j.grp u (u.putN (R.ABA_GRP_DONE j.grp) 2 j.rcd.num) := .putN (by simp only [R.ABA_GRP_DONE]; omega)
  exact ⟨hput.regionKept.after hkept, hq⟩

theorem State.foldl_notRun_kept (l : List AbaJob) (h : ∀ j ∈ l, j.grp = g) :
    RegionKept g s (l.foldl State.notRun s) ∧ (l.foldl State.notRun s).abaQ = s.abaQ := by
  induction l generalizing s with
  | nil => exact ⟨.refl g s, rfl⟩
  | cons j js ih =>
    obtain ⟨h1, h2⟩ := s.notRun_kept g j (h j (by simp))
    obtain ⟨h3, h4⟩ := ih (s.notRun j) fun k hk => h k (by simp [hk])
    exact ⟨h1.trans h3, h4.trans h2⟩

theorem State.abaDrop_clears : ∀ j ∈ (s.abaDrop g (fun _ => true)).abaQ, j.grp ≠ g := by
  unfold State.abaDrop
  extract_lets gone s1
  have hframe : ∀ u : State, (u.showPending g).abaQ = u.abaQ := fun u => by
    unfold State.showPending
    dsimp only
    split <;> rfl
  rw [hframe]
  intro j hj
  have h := (List.mem_filter.mp hj).2
  simpa [gone] using h

theorem State.dropSet_grps (b : Nat) : (s.dropSet b g).grps = s.grps := by
  unfold State.dropSet
  have h1 : (if (s.avg g).count = 0 then s else s.post b 0x0701 (s.locusGrp g) 0).grps = s.grps := by
    split
    · rfl
    · simp
  generalize (if (s.avg g).count = 0 then s else s.post b 0x0701 (s.locusGrp g) 0) = u at *
  have hunask : (u.unask 2 g).grps = u.grps := by
    unfold State.unask
    split <;> rfl
  unfold State.avgDiscard
  dsimp only
  split
  · exact h1
  · exact hunask.trans h1

theorem State.resetAcq_armed (b : Nat) (hg : g < 16) : ((s.resetAcq b g).grp g).armed = false := by
  unfold State.resetAcq
  split
  · exact (State.endAcq_ended _ b hg).armed
  · next h => exact eq_false_of_ne_true h

/-- A group reset before its words and its state start anew. -/
def State.groupCut (s : State) (b g : Nat) : State :=
  (((s.resetStop b g).abaQ ++ (s.resetStop b g).abaSkip).filter (fun j => j.grp == g)).foldl State.notRun
    ((s.resetStop b g).abaDrop g (fun _ => true))

theorem State.groupCut_effect (b : Nat) (hg : g < 16) (hbit : bitOf s.pwr.grpReset g = true) :
    ((s.groupCut b g).grp g).armed = false ∧ ∀ j ∈ (s.groupCut b g).abaQ, j.grp ≠ g := by
  have hstop : s.resetStop b g = (s.resetAcq b g).dropSet b g := if_pos hbit
  have harm : ((s.resetStop b g).grp g).armed = false := by
    rw [hstop]
    exact (congrArg Grp.armed (grp_of_grps (State.dropSet_grps _ g b) g)).trans (s.resetAcq_armed g b hg)
  unfold State.groupCut
  generalize s.resetStop b g = u at *
  have hdrop := u.abaDrop_kept g g (fun _ => true)
  have hclear := u.abaDrop_clears g
  generalize u.abaDrop g (fun _ => true) = v at *
  obtain ⟨hkept, hq⟩ := v.foldl_notRun_kept g ((u.abaQ ++ u.abaSkip).filter (fun j => j.grp == g))
    fun j hj => by simpa using (List.mem_filter.mp hj).2
  exact ⟨(hkept.armed.trans hdrop.armed).trans harm, fun j hj => hclear j (hq ▸ hj)⟩

/-- A group's words and its state start anew. -/
def State.groupAnew (s : State) (g : Nat) : State :=
  ({ s with
    regs := s.regs.filter (fun p => !grpWord g p.1)
    shadow := s.shadow.filter (fun p => !grpWord g p.1)
    avgs := Tab.set s.avgs g { Avg.init with frame := (s.avg g).frame }
    pwr := { s.pwr with grpReset := clrBit s.pwr.grpReset g } } : State).setGrp g
    { s.grp g with armReq := none, stopReq := none, part := Part.init, high := [] }

theorem State.groupResetAt_eq (b : Nat) (hbit : bitOf s.pwr.grpReset g = true) : s.groupResetAt b g =
    (((s.groupCut b g).groupAnew g).put (F.REC_GRP_STATUS_PINNED g) (((s.groupCut b g).grp g).pins.map (fun p => p.1)).dedup.length).showSrc :=
  if_neg (by simp [hbit])

theorem resetWord_trgStatus : ∀ g : Fin 16, fldGet (resetWord (R.TRG_GRP_STATUS g)) (F.TRG_GRP_STATUS_STATE g) = 0 ∧
    fldGet (resetWord (R.TRG_GRP_STATUS g)) (F.TRG_GRP_STATUS_FORCE_LOST g) = 0 ∧
    fldGet (resetWord (R.TRG_GRP_STATUS g)) (F.TRG_GRP_STATUS_COARSE_SEEN g) = 0 := by decide

theorem grpWord_trg {off : Nat} (h1 : R.TRG_GRP_CH g ≤ off) (h2 : off < R.TRG_GRP_CH g + 0x100) : grpWord g off = true := by
  simp [grpWord, h1, h2]

/-- The trigger's words of a group that starts anew. -/
theorem State.groupAnew_word {off : Nat} (h1 : R.TRG_GRP_CH g ≤ off) (h2 : off < R.TRG_GRP_CH g + 0x100) :
    (s.groupAnew g).regs.word off = resetWord off :=
  RegTab.word_filter_dropped (keep := fun off => !grpWord g off) s.regs (by simp [grpWord_trg g h1 h2])

theorem groupResetApply_resets (g : Fin 16) (hbit : bitOf s.pwr.grpReset g = true) : ∃ t, exec (.groupResetApply g) s = .next t ∧
    bitOf t.pwr.grpReset g = false ∧ (t.grp g).armed = false ∧ (t.grp g).armReq = none ∧ (t.grp g).stopReq = none ∧
    (∀ off, R.TRG_GRP_CH g ≤ off → off < R.TRG_GRP_CH g + 0x100 → off ≠ R.TRG_GRP_STATUS g → t.word off = resetWord off) ∧
    t.get (F.TRG_GRP_STATUS_STATE g) = 0 ∧ t.flag (F.TRG_GRP_STATUS_FORCE_LOST g) = false ∧
    t.flag (F.TRG_GRP_STATUS_COARSE_SEEN g) = false ∧ (∀ j ∈ t.abaQ, j.grp ≠ g.val) ∧ flashSame s t ∧ t.pending = s.pending := by
  have hexec : exec (.groupResetApply g) s = .next ((s.at_ (boundaryAt s.lcnt)).groupResetAt (boundaryAt s.lcnt) g) :=
    congrArg Host.Outcome.next (if_pos hbit)
  have hmem := (s.at_ (boundaryAt s.lcnt)).groupResetAt_mem (boundaryAt s.lcnt) g
  have heq := (s.at_ (boundaryAt s.lcnt)).groupResetAt_eq g (boundaryAt s.lcnt) hbit
  obtain ⟨harm, hq⟩ := (s.at_ (boundaryAt s.lcnt)).groupCut_effect g (boundaryAt s.lcnt) g.isLt hbit
  refine ⟨_, hexec, ?_⟩
  generalize (s.at_ (boundaryAt s.lcnt)).groupCut (boundaryAt s.lcnt) g = u at *
  have hsame : (u.groupAnew g).grp g = { u.grp g with armReq := none, stopReq := none, part := Part.init, high := [] } :=
    State.grp_setGrp_same _ _ _
  have hanew : ∀ off, R.TRG_GRP_CH g ≤ off → off < R.TRG_GRP_CH g + 0x100 → (u.groupAnew g).regs.word off = resetWord off :=
    fun off h1 h2 => u.groupAnew_word g h1 h2
  have hpwr : (u.groupAnew g).pwr.grpReset = clrBit u.pwr.grpReset g := rfl
  have habaQ : (u.groupAnew g).abaQ = u.abaQ := rfl
  generalize u.groupAnew g = v at *
  generalize hn : ((u.grp g).pins.map (fun p => p.1)).dedup.length = n at *
  have hput : ∀ off, off < 0x500000 → (v.put (F.REC_GRP_STATUS_PINNED g) n).regs.word off = v.regs.word off := fun off h =>
    RegTab.word_setFld_other _ _ _ _ (by simp only [F.REC_GRP_STATUS_PINNED]; omega)
  have hvframe : v.put (F.REC_GRP_STATUS_PINNED g) n = { v with regs := (v.put (F.REC_GRP_STATUS_PINNED g) n).regs } := rfl
  generalize v.put (F.REC_GRP_STATUS_PINNED g) n = w at *
  have hshow := w.showSrc_showShare.frame
  have hword : ∀ off, (∀ k < 16, off ≠ R.TRG_GRP_STATUS k) → w.showSrc.regs.word off = w.regs.word off := fun off h => w.showSrc_word h
  have hfld : ∀ f : Fld, (∀ k < 16, (F.TRG_GRP_STATUS_SRC_FENCED k).Sep f ∧ (F.TRG_GRP_STATUS_SRC_HELD k).Sep f) →
    w.showSrc.get f = w.get f := fun f h => w.showSrc_get h
  rw [← heq] at hshow hword hfld
  generalize (s.at_ (boundaryAt s.lcnt)).groupResetAt (boundaryAt s.lcnt) g = t at *
  have hframe : t = { v with regs := t.regs } := by
    rw [hvframe] at hshow
    exact hshow.trans rfl
  have hgrp : t.grp g = _ := (grp_of_grps ((congrArg State.grps hframe).trans rfl) g).trans hsame
  have hstat : w.regs.word (R.TRG_GRP_STATUS g) = resetWord (R.TRG_GRP_STATUS g) := by
    refine (hput _ ?_).trans (hanew _ ?_ ?_) <;> simp only [R.TRG_GRP_STATUS, R.TRG_GRP_CH] <;> omega
  obtain ⟨hstate, hforce, hcoarse⟩ := resetWord_trgStatus g
  refine ⟨?_, (congrArg Grp.armed hgrp).trans harm, (congrArg Grp.armReq hgrp).trans rfl, (congrArg Grp.stopReq hgrp).trans rfl, fun off h1 h2 h3 => ?_,
    ?_, ?_, ?_, fun j hj => hq j ?_, fun a => by rw [hmem.2]; rfl, hmem.1⟩
  · rw [(congrArg State.pwr hframe).trans rfl, hpwr]
    exact bitOf_clrBit _ _
  · simp only [R.TRG_GRP_CH, R.TRG_GRP_STATUS] at h1 h2 h3
    refine (hword off fun k hk => ?_).trans ((hput off (by omega)).trans (hanew off h1 h2))
    simp only [R.TRG_GRP_STATUS]
    omega
  · refine (hfld _ fun k _ => ⟨.of rfl (by omega), .of rfl (by omega)⟩).trans ?_
    exact (congrArg (fun x => fldGet x (F.TRG_GRP_STATUS_STATE g)) hstat).trans hstate
  · refine (RegTab.bit_congr (hfld (F.TRG_GRP_STATUS_FORCE_LOST g) fun k _ => ⟨.of rfl (by omega), .of rfl (by omega)⟩)).trans ?_
    exact (congrArg (fun x => fldGet x (F.TRG_GRP_STATUS_FORCE_LOST g) == 1) hstat).trans (by rw [hforce]; rfl)
  · refine (RegTab.bit_congr (hfld (F.TRG_GRP_STATUS_COARSE_SEEN g) fun k _ => ⟨.of rfl (by omega), .of rfl (by omega)⟩)).trans ?_
    exact (congrArg (fun x => fldGet x (F.TRG_GRP_STATUS_COARSE_SEEN g) == 1) hstat).trans (by rw [hcoarse]; rfl)
  · rw [← habaQ, ← (congrArg State.abaQ hframe).trans rfl]
    exact hj

end

end Sys2Proof.Machine
end

section
/-! SUPPORT. The hub after a warm reset: what is kept, what starts anew (Table 17.3). -/

namespace Sys2Proof.Machine

open Sys2Proof.Safety

/-! ### Averages and pins are dropped -/

/-- What dropping averages and pins changes. -/
def quietShare : Share where
  upd s t := { s with
    out := t.out, regs := t.regs, grps := t.grps, sto := t.sto, avgs := t.avgs, msix := t.msix, twin := t.twin, log := t.log }
  regs off := 0x500000 ≤ off
  self _ := rfl
  again _ _ _ := rfl

section
variable (s : State)

theorem State.post_quietShare (lc code locus data : Nat) : quietShare.Only s (s.post lc code locus data) := by
  refine .post (fun _ h => by simp only [quietShare]; omega) ?_
  have h := s.post_eq lc code locus data
  generalize s.post lc code locus data = u at *
  rw [h]
  rfl

theorem State.unask_quietShare (k key : Nat) : quietShare.Only s (s.unask k key) :=
  .ite (.trans (.parts (t := { s with sto := { s.sto with reqs := s.sto.reqs.filter (fun q => !(q.cls == k && q.key == key)) } }) rfl rfl)
    (.put (by simp only [quietShare, F.STO_CLASS_BACKLOG_BYTES]; omega))) (.refl _ _)

theorem State.avgDiscard_quietShare (g : Nat) : quietShare.Only s (s.avgDiscard g) := by
  have hcount : quietShare.regs (F.TAL_AVG_ACC_COUNT g).off := by
    simp only [quietShare, F.TAL_AVG_ACC_COUNT]
    omega
  have hset : ∀ (u : State) (a : Avg), quietShare.Only u (u.setAvg g a) := fun _ _ => .parts rfl rfl
  unfold State.avgDiscard
  dsimp only
  exact .ite (.refl _ _) (((s.unask_quietShare 2 g).trans (hset _ _)).trans (.put hcount))

theorem State.dropSet_quietShare (b g : Nat) : quietShare.Only s (s.dropSet b g) :=
  (State.avgDiscard_quietShare _ g).after (.ite (.refl _ _) (s.post_quietShare _ _ _ _))

theorem State.unpinAll_quietShare (g : Nat) : quietShare.Only s (s.unpinAll g) := by
  have hpin : ∀ (u : State) (n : Nat), quietShare.Only u (u.put (F.REC_GRP_STATUS_PINNED g) n) := fun u n => .put (rec_off g (by decide))
  have hset : ∀ (u : State) (y : Grp), quietShare.Only u (u.setGrp g y) := fun _ _ => .parts rfl rfl
  exact .foldl _ _ (fun t r _ => (hpin _ _).after (hset t _)) s

/-- The hub before it restarts: no average is running, no page is pinned. -/
def State.hubQuiet : State := (List.range 16).foldl State.unpinAll ((List.range 16).foldl (fun t g => t.dropSet t.lcnt g) s)

theorem State.hubQuiet_quietShare : quietShare.Only s s.hubQuiet :=
  (Share.Only.foldl _ _ (fun t g _ => t.dropSet_quietShare t.lcnt g) s).trans (.foldl _ _ (fun t g _ => t.unpinAll_quietShare g) _)

/-! ### The hub restarts -/

/-- The hub as it restarts, before it shows anything. -/
def State.hubStart (keep : Nat → Bool) : State :=
  { State.reset with
    pending := s.pending
    out := s.out
    free := s.free
    lcnt := s.lcnt
    tick := s.tick
    regs := s.regs.filter (fun p => keep p.1)
    flash := s.flash
    grps := s.grps.map (fun p : Nat × Grp => (p.1, p.2.kept))
    store := s.store
    stageFill := s.stageFill
    stageDrain := s.stageDrain
    sto := s.sto.kept
    avgs := keptAvgs s.avgs
    dbs := keptDbs (s.lcnt / tickLen) s.dbs
    tallyPage := s.tallyPage
    tallyGeom := s.tallyGeom
    frames := s.frames.map (fun f => { f with pins := 0 })
    framePub := s.framePub
    disp := { Disp.init with hpd := s.disp.hpd }
    tap := s.tap
    clk := s.clk
    epochs := s.epochs
    timeDue := s.timeDue
    pnom := s.pnom
    servo := s.servo
    stage := s.stage
    txq := s.txq
    svc := s.svc.kept
    keeper := s.keeper
    pwr := { s.pwr with check := none, grpReset := 0, laneFence := 0 }
    evs := s.evs.map (fun p : Nat × Ev => (p.1, p.2.kept))
    twin := { Twin.init with source := s.twin.source }
    log := s.log }

/-- What the hub shows when it restarts. -/
def State.hubShown (t s : State) : State :=
  let t1 := (t.put F.GLOBAL_STATE_NODE (s.get F.GLOBAL_STATE_NODE)).put F.GLOBAL_SUPPLY_NOW
    (maskOf (s.pwr.episodes.map (fun p => p.1)))
  (t1.putB F.CLK_STATUS_OCXO_RDY (s.flag F.CLK_STATUS_OCXO_RDY)).putB F.STO_STATUS_FAIL_PENDING (s.flag F.STO_STATUS_FAIL_PENDING)

/-- What the store shows when the hub restarts, and what is logged. -/
def State.storeShown (t s : State) : State :=
  ((if s.sto.fenced = [] then t else t.showTick).setF F.STO_STATUS_SELF_REFRESH).post t.lcnt 0x0701 t.locusHub 0

theorem State.hubReset_eq (keep : Nat → Bool) :
    s.hubReset keep = ((s.hubQuiet.hubStart keep).hubShown s.hubQuiet).storeShown s.hubQuiet := by
  unfold State.hubReset State.hubQuiet
  extract_lets u r init disp pwr twin t t1 t2
  show _ = ((u.hubStart keep).hubShown u).storeShown u
  clear_value u
  have ht : t = u.hubStart keep := rfl
  rw [← ht]
  clear_value t
  rfl

/-- What the hub changes as it restarts beside what starts anew. -/
def hubShare : Share where
  upd s t := { s with out := t.out, regs := t.regs, msix := t.msix, twin := t.twin, log := t.log }
  regs off := off = 0x4 ∨ off = 0x130 ∨ off = 0x200018 ∨ (0x700000 ≤ off ∧ off < 0x70000C) ∨ 0xF00000 ≤ off
  self _ := rfl
  again _ _ _ := rfl

theorem State.post_hubShare (lc code locus data : Nat) : hubShare.Only s (s.post lc code locus data) := by
  refine .post (fun _ h => .inr (.inr (.inr (.inr h)))) ?_
  have h := s.post_eq lc code locus data
  generalize s.post lc code locus data = u at *
  rw [h]
  rfl

/-- What a hub that restarts from u keeps of s, and what it shows. -/
structure HubRestarted (keep : Nat → Bool) (s u t : State) : Prop where
  share : hubShare.Only u t
  word : ∀ off, keep off = true → ¬ hubShare.regs off → off < 0x500000 → t.regs.word off = s.regs.word off
  node : t.get F.GLOBAL_STATE_NODE = s.get F.GLOBAL_STATE_NODE
  phase : t.get F.GLOBAL_STATE_PHASE = 0
  refresh : t.flag F.STO_STATUS_SELF_REFRESH = true
  armed : ∀ g, (t.grp g).armed = false

theorem State.hubShown_effect (t : State) : hubShare.Only t (t.hubShown s) ∧
    (t.hubShown s).get F.GLOBAL_STATE_NODE = s.get F.GLOBAL_STATE_NODE ∧
    (∀ f : Fld, F.GLOBAL_STATE_NODE.Sep f → f.off = 0x4 → (t.hubShown s).get f = t.get f) := by
  have hput : ∀ (u : State) (f : Fld) (v : Nat), hubShare.regs f.off → hubShare.Only u (u.put f v) := fun _ _ _ hf => .put hf
  have hnode : s.get F.GLOBAL_STATE_NODE % 2 ^ 8 = s.get F.GLOBAL_STATE_NODE := Nat.mod_mod _ _
  have hword : (t.hubShown s).regs.word 0x4 = (t.put F.GLOBAL_STATE_NODE (s.get F.GLOBAL_STATE_NODE)).regs.word 0x4 :=
    (RegTab.word_setFld_other _ _ _ _ (by decide)).trans
      ((RegTab.word_setFld_other _ _ _ _ (by decide)).trans (RegTab.word_setFld_other _ _ _ _ (by decide)))
  refine ⟨?_, (RegTab.fld_congr hword).trans ((RegTab.fld_setFld_self _ _ (.of rfl (by omega))).trans hnode), fun f hf hoff => ?_⟩
  · exact ((((hput t F.GLOBAL_STATE_NODE _ (.inl rfl)).trans (hput _ F.GLOBAL_SUPPLY_NOW _ (.inr (.inl rfl)))).trans
      (hput _ F.CLK_STATUS_OCXO_RDY _ (.inr (.inr (.inl rfl))))).trans
      (hput _ F.STO_STATUS_FAIL_PENDING _ (.inr (.inr (.inr (.inl ⟨by decide, by decide⟩))))))
  · refine (RegTab.fld_congr ?_).trans (RegTab.fld_setFld_sep t.regs (s.get F.GLOBAL_STATE_NODE) hf)
    rw [hoff]
    exact hword

theorem State.storeShown_effect (t : State) : hubShare.Only t (t.storeShown s) ∧
    (∀ f : Fld, f.off = 0x4 → f.ok → (t.storeShown s).get f = t.get f) ∧
    (t.storeShown s).flag F.STO_STATUS_SELF_REFRESH = true := by
  have hput : ∀ (u : State) (f : Fld) (v : Nat), hubShare.regs f.off → hubShare.Only u (u.put f v) := fun _ _ _ hf => .put hf
  have hsto : ∀ off, 0x700000 ≤ off → off < 0x70000C → hubShare.regs off := fun _ h1 h2 => .inr (.inr (.inr (.inl ⟨h1, h2⟩)))
  have htick : hubShare.Only t t.showTick ∧ t.showTick.regs.word 0x4 = t.regs.word 0x4 := by
    unfold State.showTick
    split
    · exact ⟨(hput t F.STO_CTICK_BYTES _ (hsto _ (by decide) (by decide))).trans (hput _ F.STO_BUDGET_BYTES _ (hsto _ (by decide) (by decide))),
        (RegTab.word_setFld_other _ _ _ _ (by decide)).trans (RegTab.word_setFld_other _ _ _ _ (by decide))⟩
    · exact ⟨.refl _ _, rfl⟩
  have hif : hubShare.Only t (if s.sto.fenced = [] then t else t.showTick) ∧
      (if s.sto.fenced = [] then t else t.showTick).regs.word 0x4 = t.regs.word 0x4 := by
    split
    · exact ⟨.refl _ _, rfl⟩
    · exact htick
  unfold State.storeShown
  generalize (if s.sto.fenced = [] then t else t.showTick) = u at *
  obtain ⟨h1, h3⟩ := hif
  have hset := h1.trans (hput u F.STO_STATUS_SELF_REFRESH 1 (hsto _ (by decide) (by decide)))
  refine ⟨hset.trans (State.post_hubShare _ _ _ _ _), fun f hf hok => ?_, ?_⟩
  · have hlow : f.Low := ⟨hok, by omega⟩
    refine (State.fld_post _ _ _ _ _ hlow).trans (RegTab.fld_congr ?_)
    rw [hf]
    exact (RegTab.word_setFld_other _ _ _ _ (by decide)).trans h3
  · exact (State.bit_post _ _ _ _ _ (.of rfl (by omega))).trans (RegTab.bit_setFld_one _ (.of rfl (by omega)))

theorem State.hubReset_effect (keep : Nat → Bool) (h4 : keep 0x4 = false) : HubRestarted keep s (s.hubQuiet.hubStart keep) (s.hubReset keep) := by
  rw [s.hubReset_eq keep]
  have hquiet := s.hubQuiet_quietShare
  generalize s.hubQuiet = u at *
  have hstart : ∀ off, keep off = true → (u.hubStart keep).regs.word off = u.regs.word off := fun off h => RegTab.word_filter_kept _ h
  have hphase : (u.hubStart keep).get F.GLOBAL_STATE_PHASE = 0 :=
    (congrArg (fun w => fldGet w F.GLOBAL_STATE_PHASE) (RegTab.word_filter_dropped u.regs h4)).trans (by decide)
  have harm : ∀ g, ((u.hubStart keep).grp g).armed = false :=
    Tab.get_map_of (P := fun x : Grp => x.armed = false) (f := Grp.kept) rfl (fun _ => rfl) u.grps
  generalize u.hubStart keep = v at *
  obtain ⟨hs1, hnode, hsep⟩ := u.hubShown_effect v
  generalize v.hubShown u = w at *
  obtain ⟨hs2, hget, hself⟩ := u.storeShown_effect w
  have hall := hs1.trans hs2
  have hnodes : u.get F.GLOBAL_STATE_NODE = s.get F.GLOBAL_STATE_NODE := hquiet.fld (by simp only [quietShare, F.GLOBAL_STATE_NODE]; omega)
  refine ⟨hall, fun off h1 h2 h3 => ?_, (hget _ rfl (.of rfl (by omega))).trans (hnode.trans hnodes),
    (hget _ rfl (.of rfl (by omega))).trans ((hsep _ (.of rfl (by omega)) rfl).trans hphase), hself, fun g => ?_⟩
  · exact (hall.word off h2).trans ((hstart off h1).trans (hquiet.word off (by simp only [quietShare]; omega)))
  · exact (congrArg Grp.armed (grp_of_grps ((congrArg State.grps hall.frame).trans rfl) g)).trans (harm g)

end

end Sys2Proof.Machine
end

section
/-! SUPPORT. Warm resets: the groups stop, staging drains, the hub restarts (R125, R371). -/

namespace Sys2Proof.Machine

open Sys2Proof.Safety

/-! ### The groups stop -/

/-- Everything but the epochs. -/
def workShare : Share where
  upd s t := { t with epochs := s.epochs }
  regs _ := True
  self _ := rfl
  again _ _ _ := rfl

section
variable {s t : State}

theorem workShare_of (h : t = workShare.upd s t := by rfl) : workShare.Only s t := ⟨h, fun _ ho => absurd trivial ho⟩

theorem workShare_booked {g : Nat} (h : BookedOn g s t) : workShare.Only s t := workShare_of (by
  have hf := h.share.frame
  rw [hf]
  rfl)

end

section
variable (s : State) (g : Nat)

theorem State.post_workShare (lc code locus data : Nat) : workShare.Only s (s.post lc code locus data) := workShare_of (by
  have hframe := s.post_eq lc code locus data
  generalize s.post lc code locus data = t at *
  rw [hframe]
  rfl)

theorem State.dropSet_workShare (b : Nat) : workShare.Only s (s.dropSet b g) := workShare_of (by
  have hframe := (s.dropSet_quietShare b g).frame
  generalize s.dropSet b g = t at *
  rw [hframe]
  rfl)

theorem State.spanEnd_workShare : workShare.Only s (s.spanEnd g) := by
  unfold State.spanEnd
  dsimp only
  split
  · exact .refl _ _
  · exact .ite workShare_of workShare_of

theorem State.cutCont_workShare (b : Nat) : workShare.Only s (s.cutCont g b) := by
  have hset : ∀ y : Grp, workShare.Only s (s.setGrp g y) := fun _ => workShare_of
  unfold State.cutCont
  dsimp only
  split
  · exact .ite (s.spanEnd_workShare g) ((hset _).trans (State.spanEnd_workShare _ g))
  · exact .refl _ _

theorem State.endAcq_workShare (b : Nat) : workShare.Only s (s.endAcq g b) := by
  obtain ⟨y, lost, dead, heq, -⟩ := s.endAcq_eq g b
  rw [heq]
  have hbooks : workShare.Only s (s.booksClosed g b) := by
    have hgap := workShare_booked (s.gapEnd_booked g b ((s.grp g).drop.filter (fun x => (s.grp g).closing.any (fun r => decide (x ≤ r.e)))))
    unfold State.booksClosed
    generalize s.gapEnd g b ((s.grp g).drop.filter (fun x => (s.grp g).closing.any (fun r => decide (x ≤ r.e)))) = u at *
    have hframe := (u.avgStop_tallyShare g).frame
    refine hgap.trans (workShare_of ?_)
    generalize u.avgStop g = t at *
    rw [hframe]
    rfl
  generalize s.booksClosed g b = u at *
  have hset : workShare.Only u (u.setGrp g y) := workShare_of
  have hput : ∀ (v : State) (f : Fld) (n : Nat), workShare.Only v (v.put f n) := fun _ _ _ => workShare_of
  exact ((hbooks.trans (.ite (hset.trans (hput _ (F.TRG_GRP_STATUS_FORCE_LOST g) 1)) hset)).trans (hput _ _ _)).trans (State.post_workShare _ _ _ _ _)

theorem State.resetAcq_workShare (b : Nat) : workShare.Only s (s.resetAcq b g) :=
  .ite (((s.cutCont_workShare g b).trans (State.dropSet_workShare _ g b)).trans (State.endAcq_workShare _ g b)) (.refl _ _)

/-! ### What is free of a record -/

theorem State.freeElems_workShare (c : Nat) (r : Rec) (n : Nat) : workShare.Only s (s.freeElems c g r n) := by
  have hdraw : ∀ (t : State) (w m : Nat) (y : Grp), workShare.Only t (((t.draw w).2.draw m).2.setGrp g y) := fun _ _ _ _ => workShare_of
  unfold State.freeElems
  extract_lets idx ks s1
  have h1 : workShare.Only s s1 := .foldl _ _ (fun t k _ => (hdraw t _ _ _).trans (workShare_booked (State.stageElem_booked _ g _ _ _ _ _ _ _ _ _ _))) s
  clear_value s1
  refine h1.trans ?_
  split
  · exact .foldl _ _ (fun t i _ => (hdraw t _ _ _).trans (workShare_booked (State.stageLens_booked _ g _ _ _ _ _ _ _))) s1
  · exact .refl _ _

theorem State.freeAll_workShare (c : Nat) : workShare.Only s (s.freeAll c g) :=
  .foldl _ _ (fun t r _ => .foldl _ _ (fun u n _ => u.freeElems_workShare g c r n) t) s

/-! ### Final headers -/

theorem State.spanGaps_workShare (r : Rec) : workShare.Only s (s.spanGaps g r) := by
  have hclip : workShare.Only s (s.dropClip g (r.e + 1)) := by
    unfold State.dropClip
    dsimp only
    split
    · exact workShare_of
    · exact .refl _ _
  exact ((Share.Only.ite (.refl _ _) hclip).trans (workShare_booked (State.gapTo_booked _ g _))).trans (workShare_booked (State.gapSync_booked _ g))

theorem State.writeAbsent_workShare (r : Rec) (n : Nat) : workShare.Only s (s.writeAbsent g r n) := by
  unfold State.writeAbsent
  extract_lets gr ks s1
  have h1 : workShare.Only s s1 := .foldl _ _ (fun t k _ => workShare_booked (t.stageElem_booked g _ _ _ _ _ _ _ _ _ _)) s
  clear_value s1
  refine h1.trans ?_
  split
  · exact .foldl _ _ (fun t i _ => workShare_booked (t.stageLens_booked g _ _ _ _ _ _ _)) s1
  · exact .refl _ _

theorem State.abaEnter_workShare (r : Rec) (fin : Nat) : workShare.Only s (s.abaEnter g r fin) := by
  have hshow : ∀ u : State, workShare.Only u (u.showPending g) := fun u => by
    unfold State.showPending
    dsimp only
    split
    · exact workShare_of
    · exact workShare_of
  have hq : ∀ l, workShare.Only s { s with abaQ := l } := fun _ => workShare_of
  unfold State.abaEnter
  exact .ite (.refl _ _) (.ite ((hq _).trans (hshow _)) workShare_of)

theorem State.finalHeader_workShare (r : Rec) (fin : Nat) : workShare.Only s (s.finalHeader g r fin) := by
  have hset : ∀ (u : State) (y : Grp), workShare.Only u (u.setGrp g y) := fun _ _ => workShare_of
  have hitem : ∀ (u : State) (k a b c d : Nat), workShare.Only u (u.addItem g k a b c d) := fun u k a b c d => workShare_booked (u.addItem_booked g k a b c d)
  unfold State.finalHeader
  extract_lets s0 s1 r1 warn inside f1 f2 f3 f4 f5 r2 s2 gr rd s3 s4 s5
  have h0 : workShare.Only s s0 := s.spanGaps_workShare g r
  clear_value s0
  have h1 : workShare.Only s0 s1 := .foldl _ _ (fun t n _ => t.writeAbsent_workShare g r n) s0
  clear_value s1 r2
  have h2 : workShare.Only s1 s2 := workShare_booked (s1.writeHeader_booked g r2)
  clear_value s2
  have h3 : workShare.Only s2 s3 := (hset s2 _).trans (hset _ _)
  clear_value s3
  have h4 : workShare.Only s3 s4 := hitem s3 _ _ _ _ _
  clear_value s4
  have h5 : workShare.Only s4 s5 := .ite (hitem s4 _ _ _ _ _) (.refl _ _)
  clear_value s5
  exact (s5.abaEnter_workShare g r2 fin).after (h5.after (h4.after (h3.after (h2.after (h1.after h0)))))

theorem State.finalAll_workShare (fin : Nat) : workShare.Only s (s.finalAll g fin) := .foldl _ _ (fun t r _ => t.finalHeader_workShare g r fin) s

/-- Every group stops, and its records are finished. -/
def State.groupsCut (s : State) : State := (List.range 16).foldl (fun t g => ((t.resetAcq s.lcnt g).freeAll s.lcnt g).finalAll g s.lcnt) s

theorem State.groupsCut_workShare : workShare.Only s s.groupsCut :=
  .foldl _ _ (fun t g _ => ((t.resetAcq_workShare g _).trans (State.freeAll_workShare _ g _)).trans (State.finalAll_workShare _ g _)) s

/-- Where no group is armed and no record open, nothing stops. -/
theorem State.groupsCut_quiet (h : ∀ g < 16, (s.grp g).armed = false ∧ (s.grp g).closing = []) : s.groupsCut = s := by
  have key : ∀ l : List Nat, (∀ g ∈ l, g < 16) →
      l.foldl (fun t g => ((t.resetAcq s.lcnt g).freeAll s.lcnt g).finalAll g s.lcnt) s = s := by
    intro l
    induction l with
    | nil => exact fun _ => rfl
    | cons g gs ih =>
      intro hl
      obtain ⟨harm, hcl⟩ := h g (hl g (by simp))
      have hreset : s.resetAcq s.lcnt g = s := if_neg (by simp [harm])
      have hone : ((s.resetAcq s.lcnt g).freeAll s.lcnt g).finalAll g s.lcnt = s := by
        simp only [hreset, State.freeAll, State.finalAll, hcl, List.foldl_nil]
      rw [List.foldl_cons, hone]
      exact ih fun j hj => hl j (by simp [hj])
  exact key _ fun g hg => List.mem_range.mp hg

/-! ### Staging drains -/

/-- What draining the staging changes. -/
theorem State.drainStage_frame : s.drainStage = { s with
    store := s.drainStage.store, sto := s.drainStage.sto, stageFill := [], stageDrain := [], fillData := 0, drainData := 0 } := by
  have hone : ∀ (u : State) (w : StW), writeShare.Only u (u.swriteBits w.addr w.n w.v) := fun u w => State.swrites_writeShare u _ _
  have hall : ∀ (ws : List StW) (u : State), writeShare.Only u (u.drainAll ws) := fun ws u => by
    unfold State.drainAll
    induction ws with
    | nil => exact .refl _ _
    | cons w ws ih => exact ih.trans (hone _ w)
  have hframe := ((hall s.stageDrain s).trans (hall s.stageFill _)).frame
  unfold State.drainStage State.settled
  generalize (s.drainAll s.stageDrain).drainAll s.stageFill = t at *
  exact (congrArg (fun x : State => { x with
    store := t.store, sto := t.sto, stageFill := ([] : List StW), stageDrain := ([] : List StW), fillData := 0, drainData := 0 }) hframe).trans rfl

theorem State.drainStage_store (h1 : s.stageFill = []) (h2 : s.stageDrain = []) : s.drainStage.store = s.store := by
  show ((s.drainAll s.stageDrain).drainAll s.stageFill).store = s.store
  rw [h1, h2]
  rfl

/-- The hub as it is when it restarts. -/
def State.warmCut (s : State) (cause : Nat) : State := (s.groupsCut.drainStage.setCauseReg cause).holdClk

/-- What a warm reset shows and logs once the hub has restarted. -/
def State.warmShown (t : State) (c data : Nat) : State :=
  let s3 := (List.range 128).foldl (fun t p =>
    if t.get (F.TIME_PTP_PORT_STATE p) = 0 then t else t.put (F.TIME_PTP_PORT_STATE p) 1) t
  let s4 := ((((s3.put F.TIME_STATUS_SERVO 3).clrF F.CLK_STATUS_OCXO_COLD).clrF F.CLK_STATUS_LOCK_LOST).clrF
    F.CLK_STATUS_REF_LOST).clrF F.CLK_STATUS_NTO_STOP
  let s5 : State := { s4 with servo := { s4.servo with sum := 0, cnt := 0, good := 0 } }
  (s5.errN).post c 0x0101 s5.locusPkg data

theorem State.warmReset_eq (cause : Nat) (h : s.pwr.coreLoss = false) : ∃ data,
    s.warmReset cause = ((s.warmCut cause).hubReset keptWarm).warmShown s.lcnt data :=
  ⟨_, if_neg (by simp [h])⟩

/-- What a warm reset changes once the hub has restarted. -/
def warmShare : Share where
  upd s t := { s with out := t.out, regs := t.regs, servo := t.servo, msix := t.msix, twin := t.twin, log := t.log }
  regs off := off = 0x200018 ∨ 0xC00000 ≤ off
  self _ := rfl
  again _ _ _ := rfl

/-- A warm reset has shown and logged itself. -/
structure WarmShown (s t : State) : Prop where
  share : warmShare.Only s t
  servo : t.get F.TIME_STATUS_SERVO = 3
  seen : (0x0101, s.locusPkg) ∈ t.log.seen

theorem State.warmShown_effect (c data : Nat) : WarmShown s (s.warmShown c data) := by
  have hput : ∀ (u : State) (f : Fld) (v : Nat), warmShare.regs f.off → warmShare.Only u (u.put f v) := fun _ _ _ hf => .put hf
  unfold State.warmShown
  extract_lets s3 s4 servo s5
  have h3 : warmShare.Only s s3 := .foldl _ _ (fun t p _ => .ite (.refl _ _) (hput t _ _ (.inr (by
    simp only [F.TIME_PTP_PORT_STATE]
    omega)))) s
  clear_value s3
  have h4 : warmShare.Only s3 s4 := ((((hput s3 F.TIME_STATUS_SERVO 3 (.inr (by decide))).trans (hput _ F.CLK_STATUS_OCXO_COLD 0 (.inl rfl))).trans
    (hput _ F.CLK_STATUS_LOCK_LOST 0 (.inl rfl))).trans (hput _ F.CLK_STATUS_REF_LOST 0 (.inl rfl))).trans (hput _ F.CLK_STATUS_NTO_STOP 0 (.inl rfl))
  have hservo : s4.regs.word 0xC00004 = (s3.put F.TIME_STATUS_SERVO 3).regs.word 0xC00004 :=
    (RegTab.word_setFld_other _ _ _ _ (by decide)).trans ((RegTab.word_setFld_other _ _ _ _ (by decide)).trans
      ((RegTab.word_setFld_other _ _ _ _ (by decide)).trans (RegTab.word_setFld_other _ _ _ _ (by decide))))
  have hthree : s4.get F.TIME_STATUS_SERVO = 3 := (RegTab.fld_congr hservo).trans (RegTab.fld_setFld_self _ _ (.of rfl (by omega)))
  have h5 : warmShare.Only s4 s5 := .parts rfl rfl
  have hlocus : s5.locusPkg = s.locusPkg := State.locusPkg_congr ((h3.trans (h4.trans h5)).fld (by
    simp only [warmShare, F.GLOBAL_STATE_NODE]
    omega))
  have hthree5 : s5.get F.TIME_STATUS_SERVO = 3 := hthree
  rw [hlocus]
  clear_value s5
  obtain ⟨-, hget, herr, hframe⟩ := s5.errN_effect
  have h6 : warmShare.Only s5 s5.errN := ⟨hframe.trans (by rw [hframe]; rfl), fun off ho => RegTab.word_eq_of_fld (herr.1 (wordFld off) (wordFld_ok off) fun f hf => by
    simp only [List.mem_cons, List.not_mem_nil, or_false] at hf
    subst hf
    exact .inl fun e => ho (.inr (by
      have h : off = 0xF00004 := e.symm
      omega)))⟩
  have hthree6 := (hget F.TIME_STATUS_SERVO (.of rfl (by omega))).trans hthree5
  generalize s5.errN = u at *
  have hpost : warmShare.Only u (u.post c 0x0101 s.locusPkg data) := by
    refine .post (fun _ h => .inr (by omega)) ?_
    have h := u.post_eq c 0x0101 s.locusPkg data
    generalize u.post c 0x0101 s.locusPkg data = v at *
    rw [h]
    rfl
  exact ⟨(((h3.trans h4).trans h5).trans h6).trans hpost, (State.fld_post _ _ _ _ _ (.of rfl (by omega))).trans hthree6, State.post_seen _ _ _ _ _⟩

end

end Sys2Proof.Machine
end

section
/-! SUPPORT. What a warm reset leaves (R125, R371, R373), and the commands that ask for one. -/

namespace Sys2Proof.Machine

open Sys2Proof.Safety

/-- What every warm reset with this cause leaves. -/
structure WarmLeft (cause : Nat) (s t : State) : Prop where
  cause : t.get F.GLOBAL_RESET_CAUSE_CAUSE = cause
  phase : t.get F.GLOBAL_STATE_PHASE = 0
  shadow : t.shadow = []
  commit : t.commit = none
  cfgReady : t.cfgReady = false
  armed : ∀ g, (t.grp g).armed = false
  stageFill : t.stageFill = []
  stageDrain : t.stageDrain = []
  flash : t.flash = s.flash
  epochs : t.epochs = s.epochs
  selfRefresh : t.flag F.STO_STATUS_SELF_REFRESH = true
  servo : t.get F.TIME_STATUS_SERVO = 3
  pending : t.pending = s.pending
  check : t.pwr.check = none

/-- What a warm reset leaves besides where no group is armed and no record open. -/
structure QuietLeft (s t : State) : Prop where
  lcnt : t.lcnt = s.lcnt
  prev : t.get F.GLOBAL_RESET_CAUSE_PREV = s.get F.GLOBAL_RESET_CAUSE_CAUSE
  seen : (0x0101, s.locusPkg) ∈ t.log.seen
  store : s.stageFill = [] → s.stageDrain = [] → t.store = s.store

section
variable (s : State) (cause : Nat)

theorem State.groupsCut_epochs : s.groupsCut.epochs = s.epochs := by
  have h := s.groupsCut_workShare.frame
  generalize s.groupsCut = t at *
  exact (congrArg State.epochs h).trans rfl

/-- The state in which the hub restarts. -/
theorem State.warmCut_effect : (s.warmCut cause).get F.GLOBAL_RESET_CAUSE_CAUSE = cause % 2 ^ 8 ∧
    (s.warmCut cause).get F.GLOBAL_RESET_CAUSE_PREV = s.groupsCut.get F.GLOBAL_RESET_CAUSE_CAUSE ∧
    (∀ off, off ≠ 0x108 → (s.warmCut cause).regs.word off = s.groupsCut.regs.word off) ∧
    (s.warmCut cause).lcnt = s.groupsCut.lcnt ∧ (s.warmCut cause).epochs = s.groupsCut.epochs ∧
    (s.warmCut cause).store = s.groupsCut.drainStage.store ∧ (s.warmCut cause).stageFill = [] ∧ (s.warmCut cause).stageDrain = [] := by
  have hdrain := s.groupsCut.drainStage_frame
  unfold State.warmCut
  generalize s.groupsCut = u at *
  have hregs : u.drainStage.regs = u.regs := (congrArg State.regs hdrain).trans rfl
  have hlcnt : u.drainStage.lcnt = u.lcnt := (congrArg State.lcnt hdrain).trans rfl
  have hepochs : u.drainStage.epochs = u.epochs := (congrArg State.epochs hdrain).trans rfl
  have hfill : u.drainStage.stageFill = [] := (congrArg State.stageFill hdrain).trans rfl
  have hdr : u.drainStage.stageDrain = [] := (congrArg State.stageDrain hdrain).trans rfl
  generalize u.drainStage = v at *
  obtain ⟨hcause, hprev, hword⟩ := v.setCauseReg_effect cause
  exact ⟨hcause, hprev.trans (congrArg (fun r : RegTab => r.fld F.GLOBAL_RESET_CAUSE_CAUSE) hregs), fun off h => (hword off h).trans (by rw [hregs]),
    hlcnt, hepochs, rfl, hfill, hdr⟩

theorem hubShare_beside {off : Nat} (h1 : 0x4 < off) (h2 : off < 0x130) : ¬ hubShare.regs off := fun hc => by
  simp only [hubShare] at hc
  omega

theorem warmShare_low {off : Nat} (h : off < 0x200018) : ¬ warmShare.regs off := fun hc => by
  simp only [warmShare] at hc
  omega

/-- A warm reset while VDD_CORE holds. -/
theorem State.warmReset_effect (h : s.pwr.coreLoss = false) : WarmLeft (cause % 2 ^ 8) s (s.warmReset cause) ∧
    ((∀ g < 16, (s.grp g).armed = false ∧ (s.grp g).closing = []) → QuietLeft s (s.warmReset cause)) := by
  have hmem := s.warmReset_mem cause
  obtain ⟨data, heq⟩ := s.warmReset_eq cause h
  rw [heq] at hmem ⊢
  obtain ⟨hcause, hprev, hword, hlcnt, hepochs, hstore, hfill, hdrain⟩ := s.warmCut_effect cause
  have hcut := s.groupsCut_epochs
  have hsame := s.groupsCut_quiet
  have hkeep := s.drainStage_store
  generalize s.warmCut cause = u at *
  obtain ⟨hreset, hkept, hnode, hphase, hself, harmed⟩ := u.hubReset_effect keptWarm (by decide)
  have hquiet := u.hubQuiet_quietShare
  generalize u.hubQuiet = q at *
  have hqfill : q.stageFill = [] := ((congrArg State.stageFill hquiet.frame).trans rfl).trans hfill
  have hqdrain : q.stageDrain = [] := ((congrArg State.stageDrain hquiet.frame).trans rfl).trans hdrain
  have hqepochs : q.epochs = s.epochs := (((congrArg State.epochs hquiet.frame).trans rfl).trans hepochs).trans hcut
  have hqlcnt : q.lcnt = s.groupsCut.lcnt := ((congrArg State.lcnt hquiet.frame).trans rfl).trans hlcnt
  have hqstore : q.store = s.groupsCut.drainStage.store := ((congrArg State.store hquiet.frame).trans rfl).trans hstore
  generalize u.hubReset keptWarm = v at *
  have h108 : v.regs.word 0x108 = u.regs.word 0x108 := hkept 0x108 (by decide) (hubShare_beside (by decide) (by decide)) (by decide)
  obtain ⟨hshown, hservo, hseen⟩ := v.warmShown_effect s.lcnt data
  generalize v.warmShown s.lcnt data = t at *
  have hfield : ∀ {β : Type} (f : State → β), (∀ x y : State, f (warmShare.upd x y) = f x) → (∀ x y : State, f (hubShare.upd x y) = f x) →
      f t = f (q.hubStart keptWarm) := fun f h1 h2 =>
    ((congrArg f hshown.frame).trans (h1 _ _)).trans ((congrArg f hreset.frame).trans (h2 _ _))
  have hlow : ∀ f : Fld, f.off < 0x200018 → t.get f = v.get f := fun f hf => hshown.fld (warmShare_low hf)
  refine ⟨⟨?_, ?_, hfield State.shadow (fun _ _ => rfl) (fun _ _ => rfl), hfield State.commit (fun _ _ => rfl) (fun _ _ => rfl),
      hfield State.cfgReady (fun _ _ => rfl) (fun _ _ => rfl), fun g => ?_, (hfield State.stageFill (fun _ _ => rfl) (fun _ _ => rfl)).trans hqfill,
      (hfield State.stageDrain (fun _ _ => rfl) (fun _ _ => rfl)).trans hqdrain, hmem.2,
      (hfield State.epochs (fun _ _ => rfl) (fun _ _ => rfl)).trans hqepochs, ?_, hservo, hmem.1,
      congrArg Pwr.check (hfield State.pwr (fun _ _ => rfl) (fun _ _ => rfl))⟩, fun hq => ⟨?_, ?_, ?_, fun h1 h2 => ?_⟩⟩
  · exact (hlow _ (by decide)).trans ((RegTab.fld_congr h108).trans hcause)
  · exact (hlow _ (by decide)).trans hphase
  · exact (congrArg Grp.armed (grp_of_grps ((congrArg State.grps hshown.frame).trans rfl) g)).trans (harmed g)
  · exact (hshown.bit (by simp only [warmShare, F.STO_STATUS_SELF_REFRESH]; omega)).trans hself
  · exact (hfield State.lcnt (fun _ _ => rfl) (fun _ _ => rfl)).trans (hqlcnt.trans (congrArg State.lcnt (hsame hq)))
  · rw [hsame hq] at hprev
    exact (hlow _ (by decide)).trans ((RegTab.fld_congr h108).trans hprev)
  · have hlocus : v.locusPkg = s.locusPkg := by
      refine State.locusPkg_congr (hnode.trans (RegTab.fld_congr ?_))
      rw [hword _ (by decide), hsame hq]
    rw [← hlocus]
    exact hseen
  · refine (hfield State.store (fun _ _ => rfl) (fun _ _ => rfl)).trans (hqstore.trans ?_)
    rw [hsame hq]
    exact hkeep h1 h2

theorem State.warmReset_absent (h : s.pwr.coreLoss = true) : s.warmReset cause = s := if_pos h

/-! ### Commands that reset warm -/

/-- The commands that reset warm, with their causes. -/
theorem exec_warm (us : Nat) (h1 : 1 ≤ us) (h2 : us < 10000) :
    ∀ p ∈ [(Instr.resetNAssert us, 4), (.resetWarmCmd 0xA5, 6), (.warmReset 4, 4), (.warmReset 6, 6), (.warmReset 9, 9), (.warmReset 10, 10)],
      exec p.1 s = .next (s.warmReset p.2) ∧ p.2 % 2 ^ 8 = p.2 := by
  intro p hp
  simp only [List.mem_cons, List.not_mem_nil, or_false] at hp
  rcases hp with rfl | rfl | rfl | rfl | rfl | rfl
  · exact ⟨congrArg Host.Outcome.next ((if_neg (by omega)).trans (if_pos h1)), rfl⟩
  · exact ⟨rfl, rfl⟩
  · exact ⟨rfl, rfl⟩
  · exact ⟨rfl, rfl⟩
  · exact ⟨rfl, rfl⟩
  · exact ⟨rfl, rfl⟩

theorem exec_warm_absent (us : Nat) (h1 : 1 ≤ us) (h2 : us < 10000) (h : s.pwr.coreLoss = true) :
    ∀ c ∈ [Instr.resetNAssert us, .resetWarmCmd 0xA5, .warmReset 4, .warmReset 6, .warmReset 9, .warmReset 10], exec c s = .next s := by
  intro c hc
  obtain ⟨p, hp, rfl⟩ := List.mem_map.mp (show c ∈ [(Instr.resetNAssert us, 4), (.resetWarmCmd 0xA5, 6), (.warmReset 4, 4), (.warmReset 6, 6),
    (.warmReset 9, 9), (.warmReset 10, 10)].map Prod.fst from hc)
  rw [(exec_warm s us h1 h2 p hp).1, s.warmReset_absent _ h]

theorem exec_reset_idle (key cause : BitVec 8) :
    (key ≠ 0xA5 → exec (.resetColdCmd key) s = .next s ∧ exec (.resetWarmCmd key) s = .next s) ∧ exec (.resetNAssert 0) s = .next s ∧
    (cause ≠ 4 → cause ≠ 6 → cause ≠ 7 → cause ≠ 9 → cause ≠ 10 → exec (.warmReset cause) s = .next s) := by
  refine ⟨fun h => ?_, rfl, fun h4 h6 h7 h9 h10 => congrArg Host.Outcome.next ((if_neg ?_).trans (if_neg h7))⟩
  · have hkey : key.toNat ≠ 0xA5 := fun e => h (BitVec.eq_of_toNat_eq e)
    exact ⟨congrArg Host.Outcome.next (if_pos hkey), congrArg Host.Outcome.next (if_pos hkey)⟩
  · have hno : ∀ n : BitVec 8, cause ≠ n → cause.toNat ≠ n.toNat := fun n hn e => hn (BitVec.eq_of_toNat_eq e)
    have := hno 4 h4
    have := hno 6 h6
    have := hno 9 h9
    have := hno 10 h10
    simp_all

end

end Sys2Proof.Machine
end

section
/-! SUPPORT. The rebuild after a core loss (R371, R372). -/

namespace Sys2Proof.Machine

open Sys2Proof.Safety

/-! ### The groups and the time are rebuilt -/

/-- Everything but time, the supplies, the store and what waits. -/
def rebuildShare : Share where
  upd s t := { t with pending := s.pending, lcnt := s.lcnt, flash := s.flash, store := s.store, pwr := s.pwr }
  regs off := (0x110 ≤ off ∧ off < 0x118) ∨ 0x500000 ≤ off
  self _ := rfl
  again _ _ _ := rfl

section
variable (s : State)

theorem State.post_rebuildShare (lc code locus data : Nat) : rebuildShare.Only s (s.post lc code locus data) := by
  refine .post (fun _ h => .inr (by omega)) ?_
  have h := s.post_eq lc code locus data
  generalize s.post lc code locus data = u at *
  rw [h]
  rfl

theorem rebuildShare_time {s t : State} (h : timeShare.Only s t) : rebuildShare.Only s t := by
  refine ⟨?_, fun off ho => h.word off fun hc => ho ?_⟩
  · have hf := h.frame
    rw [hf]
    rfl
  · simp only [timeShare, rebuildShare] at hc ⊢
    omega

theorem State.gapDesc_rebuildShare (g cause a b mask : Nat) : rebuildShare.Only s (s.gapDesc g cause a b mask) := by
  have h := (s.gapDesc_booked g cause a b mask).share
  generalize s.gapDesc g cause a b mask = t at *
  refine ⟨?_, fun off ho => h.word off fun hc => ho (.inr hc)⟩
  have hf := h.frame
  rw [hf]
  rfl

theorem State.showOldest_rebuildShare (g : Nat) : rebuildShare.Only s (s.showOldest g) := by
  have h := (s.showOldest_booked g).share
  generalize s.showOldest g = t at *
  refine ⟨?_, fun off ho => h.word off fun hc => ho (.inr hc)⟩
  have hf := h.frame
  rw [hf]
  rfl

theorem State.coreGroup_rebuildShare (S g : Nat) : rebuildShare.Only s (s.coreGroup S g) := by
  have hset : ∀ y : Grp, rebuildShare.Only s (s.setGrp g y) := fun _ => .parts rfl rfl
  have hnum : ∀ (u : State) (n : Nat), rebuildShare.Only u (u.putN (R.REC_GRP_NEXT_NUM g) 2 n) := fun u n =>
    .putN fun j h1 _ => .inr (by
      simp only [R.REC_GRP_NEXT_NUM] at h1
      omega)
  unfold State.coreGroup
  extract_lets gr a block rd found cap s1 ex edges s2
  refine .ite (.refl _ _) ?_
  have h1 : rebuildShare.Only s s1 := hset _
  clear_value s1
  have h2 : rebuildShare.Only s1 s2 := .ite ((State.post_rebuildShare _ _ _ _ _).after
    (.foldl _ _ (fun t p _ => t.gapDesc_rebuildShare g _ _ _ _) s1)) (.refl _ _)
  clear_value s2
  exact (State.showOldest_rebuildShare _ g).after ((hnum s2 _).after (h2.after h1))

theorem State.rebuildTime_rebuildShare (lc : Nat) : rebuildShare.Only s (s.rebuildTime lc) := by
  unfold State.rebuildTime
  extract_lets k zero e0 pn awake t
  have hk : rebuildShare.Only s k.2 := by
    have hdraw : rebuildShare.Only s (s.draw 48).2 := .parts rfl rfl
    refine hdraw.trans (.putN fun j h1 h2 => .inl ?_)
    simp only [R.GLOBAL_KEEP_SEC] at h1 h2
    omega
  have ht : rebuildShare.Only k.2 t := .parts rfl rfl
  clear_value t e0
  exact (rebuildShare_time (State.openEpoch_timeShare _ _)).after ((rebuildShare_time (t.logEpoch_timeShare e0)).after (hk.trans ht))

theorem State.rebuildTime_grps (lc : Nat) : (s.rebuildTime lc).grps = s.grps := by
  have hopen : ∀ (u : State) (e : Epoch), (u.openEpoch e).grps = u.grps := fun u e => by
    have h := (u.openEpoch_timeShare e).frame
    generalize u.openEpoch e = t at *
    exact (congrArg State.grps h).trans rfl
  have hlog : ∀ (u : State) (e : Epoch), (u.logEpoch e).grps = u.grps := fun u e => by
    have h := (u.logEpoch_timeShare e).frame
    generalize u.logEpoch e = t at *
    exact (congrArg State.grps h).trans rfl
  exact (hopen _ _).trans ((hlog _ _).trans rfl)

/-! ### The restart -/

/-- LCNT, the log and the tally as a restart finds them. -/
def State.coreAwake (s : State) : State :=
  { s with
    lcnt := s.keeper.lcntSave + 2 ^ 32
    tick := s.keeper.lcntSave + 2 ^ 32
    regs := s.regs.filter (fun p => !(decide (0xF00000 ≤ p.1) && decide (p.1 < 0xF80000)))
    log := { Log.init with ring := s.logCopy (s.get F.LOG_STORE_PAGE) s.keeper.seqSave 4096 }
    avgs := (List.range 16).map (fun g => (g, { Avg.init with frame := s.frameNum 0x10 g }))
    dbs := (List.range 8).map (fun d => (d, { Db.init with frame := s.frameNum 0x11 d }))
    clk := { Clk.init with bypass := (s.keeper.lcntSave + 2 ^ 32, none) :: s.clk.bypass }
    keeper := { s.keeper with lcntSave := s.keeper.lcntSave + 2 ^ 32 }
    pwr := { s.pwr with coreLoss := false } }

/-- The groups found in the store. -/
def State.groupsFound (s : State) (seq S : Nat) (low : Bool) : State :=
  let s1 := s.put F.LOG_WR_SEQ_SEQ ((seq + 65536) % 2 ^ 32)
  (List.range 16).foldl (fun t g => t.coreGroup S g) (if low then s1.emit (.pin 0 true) else s1)

/-- What a rebuild keeps of the registers. -/
def keptRebuild (off : Nat) : Bool := keptCore off || (decide (0xF00000 ≤ off) && decide (off < 0xF80000))

/-- The restart is shown and logged. -/
def State.restartShown (s : State) (lc data data' : Nat) : State :=
  let s6 := (s.putN R.GLOBAL_RESUME_LCNT 2 lc).post lc 0x010A s.locusPkg data
  s6.post lc 0x0101 s6.locusPkg data'

theorem execCoreLossRestart_eq (h1 : s.pwr.coreLoss = true) (h2 : s.pwr.pwrOk = true) : ∃ data data', exec .coreLossRestart s = .next
    ((((s.coreAwake.groupsFound s.keeper.seqSave s.keeper.lcntSave (s.flag F.LOG_STATUS_ERR_N)).hubReset keptRebuild).rebuildTime
      (s.keeper.lcntSave + 2 ^ 32)).restartShown (s.keeper.lcntSave + 2 ^ 32) data data') :=
  ⟨_, _, congrArg Host.Outcome.next (if_pos ⟨h1, h2⟩)⟩

theorem State.groupsFound_effect (seq S : Nat) (low : Bool) : (s.groupsFound seq S low).lcnt = s.lcnt ∧ (s.groupsFound seq S low).pwr = s.pwr := by
  have hput : ∀ (u : State) (f : Fld) (v : Nat), rebuildShare.regs f.off → rebuildShare.Only u (u.put f v) := fun _ _ _ hf => .put hf
  have hseq := hput s F.LOG_WR_SEQ_SEQ ((seq + 65536) % 2 ^ 32) (.inr (by decide))
  have hall : rebuildShare.Only s (s.groupsFound seq S low) := by
    unfold State.groupsFound
    dsimp only
    generalize s.put F.LOG_WR_SEQ_SEQ ((seq + 65536) % 2 ^ 32) = u at *
    have hpin : rebuildShare.Only u (if low = true then u.emit (.pin 0 true) else u) := .ite (.parts rfl rfl) (.refl _ _)
    exact (hseq.trans hpin).trans (.foldl _ _ (fun t g _ => t.coreGroup_rebuildShare S g) _)
  generalize s.groupsFound seq S low = t at *
  exact ⟨(congrArg State.lcnt hall.frame).trans rfl, (congrArg State.pwr hall.frame).trans rfl⟩

theorem State.restartShown_effect (lc data data' : Nat) :
    (s.restartShown lc data data').getN R.GLOBAL_RESUME_LCNT 2 = lc % 2 ^ 64 ∧
    (0x010A, (s.restartShown lc data data').locusPkg) ∈ (s.restartShown lc data data').log.seen ∧
    (0x0101, (s.restartShown lc data data').locusPkg) ∈ (s.restartShown lc data data').log.seen ∧
    (s.restartShown lc data data').get F.GLOBAL_STATE_PHASE = s.get F.GLOBAL_STATE_PHASE ∧
    (s.restartShown lc data data').lcnt = s.lcnt ∧ (s.restartShown lc data data').grps = s.grps ∧ (s.restartShown lc data data').pwr = s.pwr := by
  have hnum : (s.putN R.GLOBAL_RESUME_LCNT 2 lc).getN R.GLOBAL_RESUME_LCNT 2 = lc % 2 ^ 64 :=
    State.getN_putN_mod (n := 2) (m := 64) s R.GLOBAL_RESUME_LCNT lc rfl
  have hget : ∀ f : Fld, f.off = 0x4 → (s.putN R.GLOBAL_RESUME_LCNT 2 lc).get f = s.get f := fun f hf =>
    State.get_putN_other s _ _ _ f (.inl (by simp only [R.GLOBAL_RESUME_LCNT]; omega))
  have hlocus : (s.putN R.GLOBAL_RESUME_LCNT 2 lc).locusPkg = s.locusPkg := State.locusPkg_congr (hget _ rfl)
  have hframe : s.putN R.GLOBAL_RESUME_LCNT 2 lc = { s with regs := (s.putN R.GLOBAL_RESUME_LCNT 2 lc).regs } := rfl
  unfold State.restartShown
  dsimp only
  rw [← hlocus]
  generalize s.putN R.GLOBAL_RESUME_LCNT 2 lc = u at *
  have hpost : ∀ (v : State) (code locus d : Nat), (v.post lc code locus d).locusPkg = v.locusPkg := fun v code locus d =>
    State.locusPkg_congr (State.fld_post _ _ _ _ _ (.of rfl (by omega)))
  have hwide : ∀ (v : State) (code locus d : Nat), (v.post lc code locus d).getN R.GLOBAL_RESUME_LCNT 2 = v.getN R.GLOBAL_RESUME_LCNT 2 :=
    fun v code locus d => v.wide_post lc code locus d (off := 0x148) (n := 2) (by omega)
  have hphase : ∀ (v : State) (code locus d : Nat), (v.post lc code locus d).get F.GLOBAL_STATE_PHASE = v.get F.GLOBAL_STATE_PHASE :=
    fun v code locus d => State.fld_post _ _ _ _ _ (.of rfl (by omega))
  have h1 := u.post_seen lc 0x010A u.locusPkg data
  have h2 := hwide u 0x010A u.locusPkg data
  have h3 := hphase u 0x010A u.locusPkg data
  have h4 := u.post_eq lc 0x010A u.locusPkg data
  have hl := hpost u 0x010A u.locusPkg data
  generalize u.post lc 0x010A u.locusPkg data = v at *
  have hframe' := v.post_eq lc 0x0101 v.locusPkg data'
  have hseen := v.seen_post_of_seen lc 0x0101 v.locusPkg data' h1
  have hlast := v.post_seen lc 0x0101 v.locusPkg data'
  refine ⟨(hwide v _ _ _).trans (h2.trans hnum), ?_, ?_, (hphase v _ _ _).trans (h3.trans (hget _ rfl)), ?_, ?_, ?_⟩
  · rw [← hl] at hseen
    rw [hpost]
    exact hseen
  · rw [hpost]
    exact hlast
  · rw [hframe', h4, hframe]
  · rw [hframe', h4, hframe]
  · rw [hframe', h4, hframe]

theorem coreLossRestart_rebuilds (h1 : s.pwr.coreLoss = true) (h2 : s.pwr.pwrOk = true) : ∃ t, exec .coreLossRestart s = .next t ∧
    t.lcnt = s.keeper.lcntSave + 2 ^ 32 ∧ t.getN R.GLOBAL_RESUME_LCNT 2 = (s.keeper.lcntSave + 2 ^ 32) % 2 ^ 64 ∧ t.pwr.coreLoss = false ∧
    (∀ g, (t.grp g).armed = false) ∧ (0x010A, t.locusPkg) ∈ t.log.seen ∧ (0x0101, t.locusPkg) ∈ t.log.seen ∧
    t.get F.GLOBAL_STATE_PHASE = 0 ∧ memSame s t ∧ t.pending = s.pending := by
  obtain ⟨data, data', hexec⟩ := execCoreLossRestart_eq s h1 h2
  have hmem := fewCommandsWriteTheMemories _ _ _ hexec
  have hpending := (exec_memEffect _ hexec).pending_eq
  refine ⟨_, hexec, ?_⟩
  have hfound := s.coreAwake.groupsFound_effect s.keeper.seqSave s.keeper.lcntSave (s.flag F.LOG_STATUS_ERR_N)
  have hlcnt : s.coreAwake.lcnt = s.keeper.lcntSave + 2 ^ 32 := rfl
  have hpwr : s.coreAwake.pwr.coreLoss = false := rfl
  generalize s.coreAwake.groupsFound s.keeper.seqSave s.keeper.lcntSave (s.flag F.LOG_STATUS_ERR_N) = u at *
  generalize s.keeper.lcntSave + 2 ^ 32 = lc at *
  obtain ⟨hreset, -, -, hphase, -, harmed⟩ := u.hubReset_effect keptRebuild (by decide)
  have hquiet := u.hubQuiet_quietShare
  generalize u.hubQuiet = q at *
  generalize u.hubReset keptRebuild = v at *
  have htime := v.rebuildTime_rebuildShare lc
  have hgrps := v.rebuildTime_grps lc
  generalize v.rebuildTime lc = w at *
  obtain ⟨hnum, hresume, hreset', hkeep, htlcnt, htgrps, htpwr⟩ := w.restartShown_effect lc data data'
  generalize w.restartShown lc data data' = t at *
  have hwlcnt : w.lcnt = lc :=
    ((congrArg State.lcnt htime.frame).trans rfl).trans (((congrArg State.lcnt hreset.frame).trans rfl).trans
      (((congrArg State.lcnt hquiet.frame).trans rfl).trans (hfound.1.trans hlcnt)))
  have hwpwr : w.pwr.coreLoss = false :=
    ((congrArg (fun x : State => x.pwr.coreLoss) htime.frame).trans rfl).trans
      (((congrArg (fun x : State => x.pwr.coreLoss) hreset.frame).trans rfl).trans
        (((congrArg (fun x : State => x.pwr.coreLoss) hquiet.frame).trans rfl).trans ((congrArg Pwr.coreLoss hfound.2).trans hpwr)))
  have harm : ∀ g, (t.grp g).armed = false := fun g =>
    (congrArg Grp.armed (grp_of_grps (htgrps.trans hgrps) g)).trans (harmed g)
  exact ⟨htlcnt.trans hwlcnt, hnum, (congrArg Pwr.coreLoss htpwr).trans hwpwr, harm, hresume, hreset',
    hkeep.trans ((htime.fld (by simp only [rebuildShare, F.GLOBAL_STATE_PHASE]; omega)).trans hphase), ⟨hmem.1, hmem.2⟩, hpending⟩

end

/-- Settles O57. -/
theorem resetsKeepAndClear : Obligations.ResetsKeepAndClear := by
  unfold Obligations.ResetsKeepAndClear
  refine ⟨fun us s h => exec_cold s us h, fun s => ⟨powerOn_counts s, powerOn_lost s⟩, fun us s h1 h2 h => exec_warm_absent s us h1 h2 h,
    fun us s h1 h2 h p hp => ?_, fun key cause s => exec_reset_idle s key cause, fun s c hc => ?_,
    fun s => ⟨fun h => congrArg Host.Outcome.next (if_neg fun ⟨h1, h2⟩ => ?_), coreLossRestart_rebuilds s⟩, fun _ _ => rfl,
    fun g s => ⟨fun h => congrArg Host.Outcome.next (if_neg (by simp [h])), groupResetApply_resets s g⟩,
    fun s => ⟨wakeAlarm_wakes s, fun h => congrArg Host.Outcome.next (if_neg fun ⟨h1, h2⟩ => ?_), wakeRelease_sleeps s, exec_wakeRelease_idle s⟩⟩
  · obtain ⟨hexec, hmod⟩ := exec_warm s us h1 h2 p hp
    obtain ⟨hleft, hquiet⟩ := s.warmReset_effect p.2 h
    rw [hmod] at hleft
    exact ⟨_, hexec, hleft.cause, hleft.phase, hleft.shadow, hleft.commit, hleft.cfgReady, hleft.armed, hleft.stageFill, hleft.stageDrain,
      hleft.flash, hleft.epochs, hleft.selfRefresh, hleft.servo, hleft.pending,
      fun hq => ⟨(hquiet hq).lcnt, (hquiet hq).prev, (hquiet hq).seen, (hquiet hq).store⟩⟩
  · simp only [List.mem_cons, List.not_mem_nil, or_false] at hc
    rcases hc with rfl | rfl
    · exact ⟨_, rfl, s.coreLoss_effect⟩
    · exact ⟨_, rfl, s.coreLoss_effect⟩
  · rcases h with h | h
    · exact absurd (h.symm.trans h1) (by decide)
    · exact absurd (h.symm.trans h2) (by decide)
  · rcases h with h | h
    · exact absurd (h.symm.trans h1) (by decide)
    · exact absurd (h.symm.trans h2) (by decide)

end Sys2Proof.Machine
end

section
/-! SUPPORT. Supply episodes, checks and faults, and thermal resets (R378, R379). -/

namespace Sys2Proof.Machine

open Sys2Proof.Safety

/-! ### Episodes (R378) -/

theorem bitOf_setBit_mod {m k w : Nat} (hk : k < w) : bitOf (setBit m k % 2 ^ w) k = true := by
  rw [bitOf_mod hk, bitOf_setBit]

theorem bitOf_clrBit_mod {m k w : Nat} (hk : k < w) : bitOf (clrBit m k % 2 ^ w) k = false := by
  rw [bitOf_mod hk, bitOf_clrBit]

section
variable (s : State)

theorem supplyWarningStart_counts (rail : Fin 7) (c : Nat) (h : s.pwr.episodes.any (fun p => p.1 == rail.val) = false) : ∃ t,
    exec (.supplyWarningStart rail c) s = .next t ∧
    t.get F.GLOBAL_SUPPLY_WARN_CNT_COUNT =
      min (s.get F.GLOBAL_SUPPLY_WARN_CNT_COUNT + 1) (2 ^ F.GLOBAL_SUPPLY_WARN_CNT_COUNT.width - 1) ∧
    bitOf (t.get F.GLOBAL_SUPPLY_NOW) rail = true ∧ bitOf (t.get F.GLOBAL_SUPPLY_SEEN) rail = true ∧
    t.pwr = { s.pwr with episodes := s.pwr.episodes ++ [(rail.val, c)] } ∧
    changesOnly [F.GLOBAL_SUPPLY_WARN_CNT_COUNT, F.GLOBAL_SUPPLY_NOW, F.GLOBAL_SUPPLY_SEEN] s t ∧
    t = { s with lcnt := max s.lcnt c, regs := t.regs, pwr := t.pwr } := by
  have hrail : rail.val < 8 := by omega
  refine ⟨_, congrArg Host.Outcome.next (if_neg (by rw [h]; decide)), ?_, ?_, ?_, rfl, ?_, rfl⟩
  · have hcnt : ((s.at_ c).incSat F.GLOBAL_SUPPLY_WARN_CNT_COUNT).get F.GLOBAL_SUPPLY_WARN_CNT_COUNT =
        min (s.get F.GLOBAL_SUPPLY_WARN_CNT_COUNT + 1) (2 ^ F.GLOBAL_SUPPLY_WARN_CNT_COUNT.width - 1) :=
      State.get_incSat_width (w := 32) (s.at_ c) F.GLOBAL_SUPPLY_WARN_CNT_COUNT (.of rfl (by omega)) rfl
    exact (RegTab.fld_setFld_sep (f := F.GLOBAL_SUPPLY_SEEN) (g := F.GLOBAL_SUPPLY_WARN_CNT_COUNT) _ _ (.of rfl (by omega))).trans
      ((RegTab.fld_setFld_sep (f := F.GLOBAL_SUPPLY_NOW) (g := F.GLOBAL_SUPPLY_WARN_CNT_COUNT) _ _ (.of rfl (by omega))).trans hcnt)
  · refine (congrArg (fun n => bitOf n rail) ((RegTab.fld_setFld_sep (f := F.GLOBAL_SUPPLY_SEEN) (g := F.GLOBAL_SUPPLY_NOW) _ _
      (.of rfl (by omega))).trans (RegTab.fld_setFld_self _ _ (.of rfl (by omega))))).trans ?_
    exact bitOf_setBit_mod (w := 8) hrail
  · refine (congrArg (fun n => bitOf n rail) (RegTab.fld_setFld_self (f := F.GLOBAL_SUPPLY_SEEN) _ _ (.of rfl (by omega)))).trans ?_
    exact bitOf_setBit_mod (w := 8) hrail
  · have hat : changesOnly [F.GLOBAL_SUPPLY_WARN_CNT_COUNT, F.GLOBAL_SUPPLY_NOW, F.GLOBAL_SUPPLY_SEEN] s (s.at_ c) :=
      (changesOnly.refl _ s).parts rfl rfl rfl rfl
    have hputs : ∀ (u : State) (v1 v2 v3 : Nat), changesOnly [F.GLOBAL_SUPPLY_WARN_CNT_COUNT, F.GLOBAL_SUPPLY_NOW, F.GLOBAL_SUPPLY_SEEN] u
        (((u.put F.GLOBAL_SUPPLY_WARN_CNT_COUNT v1).put F.GLOBAL_SUPPLY_NOW v2).put F.GLOBAL_SUPPLY_SEEN v3) := fun u _ _ _ =>
      (((changesOnly.refl _ u).put (by simp)).put (by simp)).put (by simp)
    exact (hat.trans (hputs _ _ _ _)).parts rfl rfl rfl rfl

/-- What the end of an analogue loss changes. -/
def anaShare : Share where
  upd s t := { s with regs := t.regs, grps := t.grps, stageFill := t.stageFill, pwr := { s.pwr with anaFault := t.pwr.anaFault } }
  regs off := 0x500000 ≤ off ∧ off < 0x501000
  self _ := rfl
  again _ _ _ := rfl

theorem anaShare_gaps {s t : State} (h : gapShare.Only s t) : anaShare.Only s t := by
  refine ⟨?_, h.word⟩
  have hf := h.frame
  rw [hf]
  rfl

theorem State.anaEnd_anaShare (x : Nat) : anaShare.Only s (s.anaEnd x) := by
  have hclear : anaShare.Only s ({ s with pwr := { s.pwr with anaFault := none } } : State) := .parts rfl rfl
  exact .ite ((anaShare_gaps (State.gapSyncAll_gapShare _)).after ((anaShare_gaps (.foldl _ _ (fun t g _ => t.endLoss_gapShare g 7 x) _)).after hclear))
    (.refl _ _)

theorem anaShare_low {off : Nat} (h : off < 0x500000) : ¬ anaShare.regs off := fun hc => by
  simp only [anaShare] at hc
  omega

/-- The check that an episode asks for. -/
def Pwr.checkAsked (x : Pwr) (long : Bool) (st c : Nat) : Option (Nat × Nat) :=
  if long then some (match x.check with
    | some k => (min k.1 st, c)
    | none => (st, c)) else x.check

/-- An episode that has ended. -/
def State.episodeEnded (s : State) (rail st c : Nat) (long : Bool) : State :=
  let s1 := (s.at_ c).put F.GLOBAL_SUPPLY_NOW (clrBit (s.get F.GLOBAL_SUPPLY_NOW) rail)
  { s1 with pwr := { s1.pwr with
    episodes := s1.pwr.episodes.filter (fun p => p.1 != rail)
    past := (rail, st, c) :: s1.pwr.past
    check := s1.pwr.checkAsked long st c } }

theorem State.episodeEnded_effect {rail : Nat} (st c : Nat) (long : Bool) (hrail : rail < 8) :
    bitOf ((s.episodeEnded rail st c long).get F.GLOBAL_SUPPLY_NOW) rail = false ∧
    (s.episodeEnded rail st c long).locusPkg = s.locusPkg ∧ changesOnly [F.GLOBAL_SUPPLY_NOW] s (s.episodeEnded rail st c long) ∧
    s.episodeEnded rail st c long = { s with
      lcnt := max s.lcnt c, regs := (s.episodeEnded rail st c long).regs
      pwr := { s.pwr with
        episodes := s.pwr.episodes.filter (fun p => p.1 != rail), past := (rail, st, c) :: s.pwr.past, check := s.pwr.checkAsked long st c } } := by
  have hat : changesOnly [F.GLOBAL_SUPPLY_NOW] s (s.at_ c) := (changesOnly.refl _ s).parts rfl rfl rfl rfl
  have hput : changesOnly [F.GLOBAL_SUPPLY_NOW] s ((s.at_ c).put F.GLOBAL_SUPPLY_NOW (clrBit (s.get F.GLOBAL_SUPPLY_NOW) rail)) := hat.put (by simp)
  refine ⟨?_, State.locusPkg_congr (RegTab.fld_setFld_sep _ _ (.of rfl (by omega))), hput.parts rfl rfl rfl rfl, rfl⟩
  refine (congrArg (fun n => bitOf n rail) (RegTab.fld_setFld_self (f := F.GLOBAL_SUPPLY_NOW) _ _ (.of rfl (by omega)))).trans ?_
  exact bitOf_clrBit_mod (w := 8) hrail

theorem execSupplyWarningEnd_eq (rail : Fin 7) (c st : Nat) (h : s.pwr.episodes.find? (fun p => p.1 == rail.val) = some (rail.val, st)) :
    ∃ data, exec (.supplyWarningEnd rail c) s = .next
      (if rail.val = 1 ∧ (decide (rail.val ≤ 1) && s.longEpisode (c - st)) = false then
        ((s.episodeEnded rail st c (decide (rail.val ≤ 1) && s.longEpisode (c - st))).post c 0x0102
          (s.episodeEnded rail st c (decide (rail.val ≤ 1) && s.longEpisode (c - st))).locusPkg data).anaEnd c
      else (s.episodeEnded rail st c (decide (rail.val ≤ 1) && s.longEpisode (c - st))).post c 0x0102
          (s.episodeEnded rail st c (decide (rail.val ≤ 1) && s.longEpisode (c - st))).locusPkg data) := by
  refine ⟨rail.val + st % 2 ^ 64 * 2 ^ 8 + (c - st) % 2 ^ 24 * 2 ^ 72, ?_⟩
  show Host.Outcome.next (match s.pwr.episodes.find? (fun p => p.1 == rail.val) with
    | none => _
    | some (_, st) => _) = _
  rw [h]
  rfl

theorem supplyWarningEnd_ends (rail : Fin 7) (c st : Nat) (h : s.pwr.episodes.find? (fun p => p.1 == rail.val) = some (rail.val, st)) : ∃ t,
    exec (.supplyWarningEnd rail c) s = .next t ∧ bitOf (t.get F.GLOBAL_SUPPLY_NOW) rail = false ∧
    t.pwr.episodes = s.pwr.episodes.filter (fun p => p.1 != rail.val) ∧ t.pwr.past = (rail.val, st, c) :: s.pwr.past ∧
    (0x0102, s.locusPkg) ∈ t.log.seen ∧
    (rail.val ≤ 1 → s.longEpisode (c - st) = true → s.pwr.check = none → t.pwr.check = some (st, c)) ∧
    (1 < rail.val → t.pwr.check = s.pwr.check ∧ changesOnly (F.GLOBAL_SUPPLY_NOW :: logFlds) s t) ∧ memSame s t ∧
    t = { s with
      out := t.out, lcnt := max s.lcnt c, regs := t.regs, grps := t.grps, stageFill := t.stageFill, msix := t.msix,
      pwr := t.pwr, twin := t.twin, log := t.log } := by
  obtain ⟨data, hexec⟩ := execSupplyWarningEnd_eq s rail c st h
  refine ⟨_, hexec, ?_⟩
  generalize hlong : (decide (rail.val ≤ 1) && s.longEpisode (c - st)) = long at *
  obtain ⟨hnow, hlocus, honly, hframe⟩ := s.episodeEnded_effect st c long (show rail.val < 8 by omega)
  generalize s.episodeEnded rail st c long = u at *
  have hpost := u.post_eq c 0x0102 u.locusPkg data
  have hseen := u.post_seen c 0x0102 u.locusPkg data
  have hget : (u.post c 0x0102 u.locusPkg data).get F.GLOBAL_SUPPLY_NOW = u.get F.GLOBAL_SUPPLY_NOW := State.fld_post _ _ _ _ _ (.of rfl (by omega))
  have hlog : changesOnly (F.GLOBAL_SUPPLY_NOW :: logFlds) s (u.post c 0x0102 u.locusPkg data) := (honly.mono (by simp)).post
  rw [hlocus] at hpost hseen hget hlog ⊢
  generalize u.post c 0x0102 s.locusPkg data = v at *
  have hv : v = { s with
      out := v.out, lcnt := max s.lcnt c, regs := v.regs, msix := v.msix, twin := v.twin, log := v.log
      pwr := { s.pwr with
        episodes := s.pwr.episodes.filter (fun p => p.1 != rail.val), past := (rail.val, st, c) :: s.pwr.past
        check := s.pwr.checkAsked long st c } } := hpost.trans (by rw [hframe])
  have hend : ∀ t : State, anaShare.Only v t → bitOf (t.get F.GLOBAL_SUPPLY_NOW) rail = false ∧
      t.pwr.episodes = s.pwr.episodes.filter (fun p => p.1 != rail.val) ∧ t.pwr.past = (rail.val, st, c) :: s.pwr.past ∧
      (0x0102, s.locusPkg) ∈ t.log.seen ∧ t.pwr.check = s.pwr.checkAsked long st c ∧ memSame s t ∧
      t = { s with
        out := t.out, lcnt := max s.lcnt c, regs := t.regs, grps := t.grps, stageFill := t.stageFill, msix := t.msix,
        pwr := t.pwr, twin := t.twin, log := t.log } := by
    intro t ht
    have hall : t = { s with
        out := v.out, lcnt := max s.lcnt c, regs := t.regs, grps := t.grps, stageFill := t.stageFill, msix := v.msix, twin := v.twin, log := v.log
        pwr := { s.pwr with
          episodes := s.pwr.episodes.filter (fun p => p.1 != rail.val), past := (rail.val, st, c) :: s.pwr.past
          check := s.pwr.checkAsked long st c, anaFault := t.pwr.anaFault } } := by
      have hf := ht.frame
      rw [hv] at hf
      exact hf.trans rfl
    have hnow' : t.get F.GLOBAL_SUPPLY_NOW = u.get F.GLOBAL_SUPPLY_NOW := (ht.fld (anaShare_low (by decide))).trans hget
    refine ⟨by rw [hnow']; exact hnow, ?_, ?_, ?_, ?_, memSame_of_fields ((congrArg State.store hall).trans rfl) ((congrArg State.flash hall).trans rfl), ?_⟩
    · exact (congrArg (fun x : State => x.pwr.episodes) hall).trans rfl
    · exact (congrArg (fun x : State => x.pwr.past) hall).trans rfl
    · rw [(congrArg State.log hall).trans rfl]
      exact hseen
    · exact (congrArg (fun x : State => x.pwr.check) hall).trans rfl
    · rw [hall]
  have hasked : rail.val ≤ 1 → s.longEpisode (c - st) = true → s.pwr.check = none → s.pwr.checkAsked long st c = some (st, c) := by
    intro h1 h2 h3
    have h : long = true := by rw [← hlong, h2, decide_eq_true h1, Bool.and_true]
    simp [Pwr.checkAsked, h, h3]
  have hno : 1 < rail.val → s.pwr.checkAsked long st c = s.pwr.check := by
    intro h1
    have h : long = false := by rw [← hlong, decide_eq_false (by omega), Bool.false_and]
    simp [Pwr.checkAsked, h]
  split
  · next hc =>
    obtain ⟨h1, h2, h3, h4, h5, h6, h7⟩ := hend _ (v.anaEnd_anaShare c)
    exact ⟨h1, h2, h3, h4, fun a b d => h5.trans (hasked a b d), fun a => by omega, h6, h7⟩
  · obtain ⟨h1, h2, h3, h4, h5, h6, h7⟩ := hend v (.refl _ _)
    exact ⟨h1, h2, h3, h4, fun a b d => h5.trans (hasked a b d), fun a => ⟨h5.trans (hno a), hlog⟩, h6, h7⟩

end

end Sys2Proof.Machine
end

section
/-! SUPPORT. Checks of the state after a long episode, supply faults, and thermal resets (R378, R379, Table 17.6). -/

namespace Sys2Proof.Machine

open Sys2Proof.Safety

section
variable (s : State)

/-! ### The check (R378) -/

/-- The state in which the outcome of a check is known. -/
def State.checked (s : State) (b : Nat) : State :=
  let s1 := ((s.at_ b).incSat F.GLOBAL_SUPPLY_CHECK_CNT_RUN).anaEnd b
  { s1 with pwr := { s1.pwr with check := none } }

theorem State.checked_effect (b : Nat) : (s.checked b).get F.GLOBAL_SUPPLY_CHECK_CNT_RUN =
      min (s.get F.GLOBAL_SUPPLY_CHECK_CNT_RUN + 1) (2 ^ F.GLOBAL_SUPPLY_CHECK_CNT_RUN.width - 1) ∧
    (s.checked b).get F.GLOBAL_SUPPLY_CHECK_CNT_BAD = s.get F.GLOBAL_SUPPLY_CHECK_CNT_BAD ∧
    (s.checked b).get F.GLOBAL_STATE_NODE = s.get F.GLOBAL_STATE_NODE ∧ (s.checked b).pwr.check = none ∧
    (s.checked b).pwr.coreLoss = s.pwr.coreLoss ∧ (s.checked b).lcnt = max s.lcnt b ∧ (s.checked b).store = s.store ∧
    (s.checked b).flash = s.flash ∧ (s.checked b).pending = s.pending := by
  have hrun : ((s.at_ b).incSat F.GLOBAL_SUPPLY_CHECK_CNT_RUN).get F.GLOBAL_SUPPLY_CHECK_CNT_RUN =
      min (s.get F.GLOBAL_SUPPLY_CHECK_CNT_RUN + 1) (2 ^ F.GLOBAL_SUPPLY_CHECK_CNT_RUN.width - 1) :=
    State.get_incSat_width (w := 16) (s.at_ b) F.GLOBAL_SUPPLY_CHECK_CNT_RUN (.of rfl (by omega)) rfl
  have hget : ∀ f : Fld, F.GLOBAL_SUPPLY_CHECK_CNT_RUN.Sep f → ((s.at_ b).incSat F.GLOBAL_SUPPLY_CHECK_CNT_RUN).get f = s.get f :=
    fun f hf => RegTab.fld_setFld_sep _ _ hf
  have hframe : (s.at_ b).incSat F.GLOBAL_SUPPLY_CHECK_CNT_RUN =
    { s with lcnt := max s.lcnt b, regs := ((s.at_ b).incSat F.GLOBAL_SUPPLY_CHECK_CNT_RUN).regs } := rfl
  unfold State.checked
  dsimp only
  generalize (s.at_ b).incSat F.GLOBAL_SUPPLY_CHECK_CNT_RUN = u at *
  have hana := u.anaEnd_anaShare b
  generalize u.anaEnd b = v at *
  have hv := hana.frame
  rw [hframe] at hv
  refine ⟨(hana.fld (anaShare_low (by decide))).trans hrun, (hana.fld (anaShare_low (by decide))).trans (hget _ (.of rfl (by omega))),
    (hana.fld (anaShare_low (by decide))).trans (hget _ (.of rfl (by omega))), rfl, ?_, ?_, ?_, ?_, ?_⟩
  · exact (congrArg (fun x : State => x.pwr.coreLoss) hv).trans rfl
  · exact (congrArg State.lcnt hv).trans rfl
  · exact (congrArg State.store hv).trans rfl
  · exact (congrArg State.flash hv).trans rfl
  · exact (congrArg State.pending hv).trans rfl

theorem exec_supplyStateCheck {st en : Nat} (o : CheckOutcome) (h : s.pwr.check = some (st, en)) : exec (.supplyStateCheck o) s = .next
    (match o with
      | .good => (s.checked ((en / 2048 + 2) * 2048)).post ((en / 2048 + 2) * 2048) 0x0103 (s.checked ((en / 2048 + 2) * 2048)).locusPkg 0
      | .chanBad n => (((s.checked ((en / 2048 + 2) * 2048)).incSat F.GLOBAL_SUPPLY_CHECK_CNT_BAD).post ((en / 2048 + 2) * 2048) 0x0105
          ((s.checked ((en / 2048 + 2) * 2048)).locusCh n 0xFF) 0).chanRestart n st ((en / 2048 + 2) * 2048)
      | .hubBad => (((s.checked ((en / 2048 + 2) * 2048)).incSat F.GLOBAL_SUPPLY_CHECK_CNT_BAD).post ((en / 2048 + 2) * 2048) 0x0105
          (s.checked ((en / 2048 + 2) * 2048)).locusPkg 0).warmReset 9) := by
  show Host.Outcome.next (match s.pwr.check with
    | none => _
    | some (st, en) => _) = _
  rw [h]
  cases o <;> rfl

theorem supplyStateCheck_good {st en b : Nat} (h : s.pwr.check = some (st, en)) (hb : b = (en / 2048 + 2) * 2048) : ∃ t,
    exec (.supplyStateCheck .good) s = .next t ∧ t.pwr.check = none ∧ t.lcnt = max s.lcnt b ∧
    t.get F.GLOBAL_SUPPLY_CHECK_CNT_RUN =
      min (s.get F.GLOBAL_SUPPLY_CHECK_CNT_RUN + 1) (2 ^ F.GLOBAL_SUPPLY_CHECK_CNT_RUN.width - 1) ∧
    t.get F.GLOBAL_SUPPLY_CHECK_CNT_BAD = s.get F.GLOBAL_SUPPLY_CHECK_CNT_BAD ∧ (0x0103, s.locusPkg) ∈ t.log.seen ∧
    memSame s t ∧ t.pending = s.pending := by
  refine ⟨_, exec_supplyStateCheck s .good h, ?_⟩
  dsimp only
  rw [← hb]
  obtain ⟨hrun, hbad, hnode, hcheck, -, hlcnt, hstore, hflash, hpend⟩ := s.checked_effect b
  generalize s.checked b = u at *
  have hlocus : u.locusPkg = s.locusPkg := State.locusPkg_congr hnode
  rw [hlocus]
  refine ⟨by simpa using hcheck, by simpa using hlcnt, (State.fld_post _ _ _ _ _ (.of rfl (by omega))).trans hrun,
    (State.fld_post _ _ _ _ _ (.of rfl (by omega))).trans hbad, State.post_seen _ _ _ _ _,
    memSame_of_fields (by simpa using hstore) (by simpa using hflash), by simpa using hpend⟩

/-- A bad outcome is counted and logged. -/
theorem State.badCounted_effect (b locus : Nat) :
    ((s.incSat F.GLOBAL_SUPPLY_CHECK_CNT_BAD).post b 0x0105 locus 0).get F.GLOBAL_SUPPLY_CHECK_CNT_BAD =
      min (s.get F.GLOBAL_SUPPLY_CHECK_CNT_BAD + 1) (2 ^ F.GLOBAL_SUPPLY_CHECK_CNT_BAD.width - 1) ∧
    (0x0105, locus) ∈ ((s.incSat F.GLOBAL_SUPPLY_CHECK_CNT_BAD).post b 0x0105 locus 0).log.seen ∧
    ((s.incSat F.GLOBAL_SUPPLY_CHECK_CNT_BAD).post b 0x0105 locus 0).pwr = s.pwr ∧
    ((s.incSat F.GLOBAL_SUPPLY_CHECK_CNT_BAD).post b 0x0105 locus 0).lcnt = s.lcnt ∧
    ((s.incSat F.GLOBAL_SUPPLY_CHECK_CNT_BAD).post b 0x0105 locus 0).store = s.store ∧
    ((s.incSat F.GLOBAL_SUPPLY_CHECK_CNT_BAD).post b 0x0105 locus 0).flash = s.flash ∧
    ((s.incSat F.GLOBAL_SUPPLY_CHECK_CNT_BAD).post b 0x0105 locus 0).pending = s.pending := by
  have hcnt : (s.incSat F.GLOBAL_SUPPLY_CHECK_CNT_BAD).get F.GLOBAL_SUPPLY_CHECK_CNT_BAD =
      min (s.get F.GLOBAL_SUPPLY_CHECK_CNT_BAD + 1) (2 ^ F.GLOBAL_SUPPLY_CHECK_CNT_BAD.width - 1) :=
    State.get_incSat_width (w := 16) s F.GLOBAL_SUPPLY_CHECK_CNT_BAD (.of rfl (by omega)) rfl
  have hframe : s.incSat F.GLOBAL_SUPPLY_CHECK_CNT_BAD = { s with regs := (s.incSat F.GLOBAL_SUPPLY_CHECK_CNT_BAD).regs } := rfl
  generalize s.incSat F.GLOBAL_SUPPLY_CHECK_CNT_BAD = u at *
  have hpost := u.post_eq b 0x0105 locus 0
  have hseen := u.post_seen b 0x0105 locus 0
  have hget := (u.fld_post b 0x0105 locus 0 (g := F.GLOBAL_SUPPLY_CHECK_CNT_BAD) (.of rfl (by omega))).trans hcnt
  generalize u.post b 0x0105 locus 0 = v at *
  rw [hframe] at hpost
  exact ⟨hget, hseen, (congrArg State.pwr hpost).trans rfl, (congrArg State.lcnt hpost).trans rfl, (congrArg State.store hpost).trans rfl,
    (congrArg State.flash hpost).trans rfl, (congrArg State.pending hpost).trans rfl⟩

/-- What a channel's restart changes. -/
def restartShare : Share where
  upd s t := { s with
    regs := t.regs, chains := t.chains, grps := t.grps, stageFill := t.stageFill, pwr := { s.pwr with supply := t.pwr.supply } }
  regs off := 0x300000 ≤ off
  self _ := rfl
  again _ _ _ := rfl

theorem restartShare_gaps {s t : State} (h : gapShare.Only s t) : restartShare.Only s t := by
  refine ⟨?_, fun off ho => h.word off fun hc => ho ?_⟩
  · have hf := h.frame
    rw [hf]
    rfl
  · simp only [gapShare, restartShare] at hc ⊢
    omega

/-- A channel's chain starts again, before its gaps. -/
def State.chainRestarted (s : State) (n b : Nat) : State :=
  let s1 := (s.setChain n { s.chain n with restartAt := some b }).setF (F.FLT_CH_STATUS_RESTARTED n)
  { s1 with pwr := { s1.pwr with supply := (2 ^ n, b + 64) :: s1.pwr.supply.filter (fun p => decide (b < p.2)) } }

theorem State.chanRestart_effect {n : Nat} (st b : Nat) (hn : n < 48) : ((s.chanRestart n st b).chain n).restartAt = some b ∧
    (s.chanRestart n st b).flag (F.FLT_CH_STATUS_RESTARTED n) = true ∧ restartShare.Only s (s.chanRestart n st b) := by
  have heq : s.chanRestart n st b = (List.range 16).foldl (fun t g => t.supplyGap n st (b + 64) g) (s.chainRestarted n b) := rfl
  rw [heq]
  have hchain : ((s.chainRestarted n b).chain n).restartAt = some b :=
    congrArg Chain.restartAt (s.chain_setChain_same n { s.chain n with restartAt := some b })
  have hflag : (s.chainRestarted n b).flag (F.FLT_CH_STATUS_RESTARTED n) = true := RegTab.bit_setFld_one _ (.of rfl (by omega))
  have hshare : restartShare.Only s (s.chainRestarted n b) := by
    have hset : restartShare.Only s (s.setChain n { s.chain n with restartAt := some b }) := .parts rfl rfl
    refine (hset.trans (.put (f := F.FLT_CH_STATUS_RESTARTED n) (v := 1) ?_)).trans (.parts rfl rfl)
    simp only [restartShare, F.FLT_CH_STATUS_RESTARTED]
    omega
  generalize s.chainRestarted n b = u at *
  have hgap : gapShare.Only u ((List.range 16).foldl (fun t g => t.supplyGap n st (b + 64) g) u) :=
    .foldl _ _ (fun t g hg => .ite (.refl _ _) ((t.addLoss_gapShare g _).trans (State.gapSync_gapShare _ (List.mem_range.mp hg)))) u
  generalize (List.range 16).foldl (fun t g => t.supplyGap n st (b + 64) g) u = t at *
  refine ⟨?_, (hgap.bit ?_).trans hflag, hshare.trans (restartShare_gaps hgap)⟩
  · have hc : t.chains = u.chains := (congrArg State.chains hgap.frame).trans rfl
    exact (congrArg (fun x : Tab Chain => (Tab.get Chain.init x n).restartAt) hc).trans hchain
  · simp only [gapShare, F.FLT_CH_STATUS_RESTARTED]
    omega

theorem supplyStateCheck_chanBad {st en b n : Nat} (h : s.pwr.check = some (st, en)) (hb : b = (en / 2048 + 2) * 2048) (hn : n < 48) : ∃ t,
    exec (.supplyStateCheck (.chanBad n)) s = .next t ∧ t.pwr.check = none ∧ t.lcnt = max s.lcnt b ∧
    t.get F.GLOBAL_SUPPLY_CHECK_CNT_BAD =
      min (s.get F.GLOBAL_SUPPLY_CHECK_CNT_BAD + 1) (2 ^ F.GLOBAL_SUPPLY_CHECK_CNT_BAD.width - 1) ∧
    (t.chain n).restartAt = some b ∧ t.flag (F.FLT_CH_STATUS_RESTARTED n) = true ∧ (0x0105, s.locusCh n 0xFF) ∈ t.log.seen ∧
    memSame s t ∧ t.pending = s.pending := by
  refine ⟨_, exec_supplyStateCheck s (.chanBad n) h, ?_⟩
  dsimp only
  rw [← hb]
  obtain ⟨-, hbad, hnode, hcheck, -, hlcnt, hstore, hflash, hpend⟩ := s.checked_effect b
  generalize s.checked b = u at *
  rw [State.locusCh_congr hnode]
  obtain ⟨hcnt, hseen, hpwr, hlc, hst, hfl, hpe⟩ := u.badCounted_effect b (s.locusCh n 0xFF)
  generalize (u.incSat F.GLOBAL_SUPPLY_CHECK_CNT_BAD).post b 0x0105 (s.locusCh n 0xFF) 0 = v at *
  obtain ⟨hchain, hflag, hshare⟩ := v.chanRestart_effect st b hn
  generalize v.chanRestart n st b = t at *
  have hf := hshare.frame
  refine ⟨?_, ((congrArg State.lcnt hf).trans rfl).trans (hlc.trans hlcnt), ?_, hchain, hflag, ?_,
    memSame_of_fields (((congrArg State.store hf).trans rfl).trans (hst.trans hstore)) (((congrArg State.flash hf).trans rfl).trans (hfl.trans hflash)),
    ((congrArg State.pending hf).trans rfl).trans (hpe.trans hpend)⟩
  · exact ((congrArg (fun x : State => x.pwr.check) hf).trans rfl).trans ((congrArg Pwr.check hpwr).trans hcheck)
  · refine (hshare.fld ?_).trans (hcnt.trans (by rw [hbad]))
    simp only [restartShare, F.GLOBAL_SUPPLY_CHECK_CNT_BAD]
    omega
  · rw [(congrArg State.log hf).trans rfl]
    exact hseen

theorem supplyStateCheck_hubBad {st en : Nat} (h : s.pwr.check = some (st, en)) (hcore : s.pwr.coreLoss = false) : ∃ t,
    exec (.supplyStateCheck .hubBad) s = .next t ∧ t.get F.GLOBAL_RESET_CAUSE_CAUSE = 9 ∧ t.pwr.check = none ∧
    (∀ g, (t.grp g).armed = false) ∧ t.flash = s.flash ∧ t.pending = s.pending := by
  refine ⟨_, exec_supplyStateCheck s .hubBad h, ?_⟩
  dsimp only
  generalize (en / 2048 + 2) * 2048 = b
  obtain ⟨-, -, -, -, hkeep, -, -, hflash, hpend⟩ := s.checked_effect b
  generalize s.checked b = u at *
  obtain ⟨-, -, hpwr, -, -, hfl, hpe⟩ := u.badCounted_effect b u.locusPkg
  generalize (u.incSat F.GLOBAL_SUPPLY_CHECK_CNT_BAD).post b 0x0105 u.locusPkg 0 = v at *
  have hleft := (v.warmReset_effect 9 ((congrArg Pwr.coreLoss hpwr).trans (hkeep.trans hcore))).1
  exact ⟨hleft.cause, hleft.check, hleft.armed, hleft.flash.trans (hfl.trans hflash), hleft.pending.trans (hpe.trans hpend)⟩

/-! ### Faults (Table 17.6) -/

theorem supplyFault_ana (c : Nat) (h : s.pwr.anaFault = none) : ∃ t, exec (.supplyFault .vddAna c) s = .next t ∧
    t.pwr = { s.pwr with anaFault := some c } ∧ memSame s t ∧
    t = { s with lcnt := max s.lcnt c, regs := t.regs, grps := t.grps, stageFill := t.stageFill, pwr := t.pwr } := by
  have hexec : exec (.supplyFault .vddAna c) s = .next
      (({ s.at_ c with pwr := { (s.at_ c).pwr with anaFault := some c } } : State).setLossAll c 7 allChans) :=
    congrArg Host.Outcome.next (if_neg (by
      show ¬ (s.pwr.anaFault.isSome = true)
      rw [h]
      decide))
  refine ⟨_, hexec, ?_⟩
  have hf := (State.setLossAll_gapShare { s.at_ c with pwr := { (s.at_ c).pwr with anaFault := some c } } c 7 allChans).frame
  generalize State.setLossAll { s.at_ c with pwr := { (s.at_ c).pwr with anaFault := some c } } c 7 allChans = t at *
  exact ⟨(congrArg State.pwr hf).trans rfl, memSame_of_fields ((congrArg State.store hf).trans rfl) ((congrArg State.flash hf).trans rfl),
    hf.trans (by rw [hf]; rfl)⟩

theorem State.linkDown_unlinkShare {p : Nat} (hp : p < 128) : unlinkShare.Only s (s.linkDown p) := by
  by_cases h : s.linkUp p = true
  · have heq : s.linkDown p = ((s.unlinked p).resend (s.port p).queue).showSet p := if_pos h
    rw [heq]
    have hdown := (s.unlinked_effect p).2.2.2.2
    generalize s.unlinked p = u at *
    have hback := (u.resend_resent hp (s.port p).queue).share
    generalize u.resend (s.port p).queue = v at *
    exact hdown.trans (unlinkShare_of_strmShare (hback.trans (v.showSet_resent hp p).share))
  · have heq : s.linkDown p = s := if_neg h
    rw [heq]
    exact .refl _ _

theorem supplyFault_ser (c : Nat) : ∃ t, exec (.supplyFault .vddSer c) s = .next t ∧ memSame s t ∧
    ((∀ p < 128, s.linkUp p = false) → t = s.at_ c) ∧
    t = { s with lcnt := max s.lcnt c, regs := t.regs, ports := t.ports, strms := t.strms } := by
  have hexec : exec (.supplyFault .vddSer c) s = .next ((List.range 128).foldl State.linkDown (s.at_ c)) := rfl
  have hall : unlinkShare.Only (s.at_ c) ((List.range 128).foldl State.linkDown (s.at_ c)) :=
    .foldl _ _ (fun t p hp => t.linkDown_unlinkShare (List.mem_range.mp hp)) _
  have hnone : (∀ p < 128, s.linkUp p = false) → (List.range 128).foldl State.linkDown (s.at_ c) = s.at_ c := by
    intro h
    have key : ∀ l : List Nat, (∀ p ∈ l, p < 128) → l.foldl State.linkDown (s.at_ c) = s.at_ c := by
      intro l
      induction l with
      | nil => exact fun _ => rfl
      | cons p ps ih =>
        intro hl
        have hone : (s.at_ c).linkDown p = s.at_ c := if_neg (by
          rw [show (s.at_ c).linkUp p = false from h p (hl p (by simp))]
          decide)
        rw [List.foldl_cons, hone]
        exact ih fun j hj => hl j (by simp [hj])
    exact key _ fun p hp => List.mem_range.mp hp
  refine ⟨_, hexec, ?_⟩
  generalize (List.range 128).foldl State.linkDown (s.at_ c) = t at *
  have hf := hall.frame
  exact ⟨memSame_of_fields ((congrArg State.store hf).trans rfl) ((congrArg State.flash hf).trans rfl), hnone, hf⟩

theorem supplyFault_vhv (c : Nat) : ∃ t, exec (.supplyFault .vhv c) s = .next t ∧ t.svc = s.svcSafe.svc ∧ (0x0E07, s.locusSvc) ∈ t.log.seen ∧
    changesOnly logFlds s t ∧
    t = { s with
      out := t.out, lcnt := max s.lcnt c, regs := t.regs, svc := t.svc, msix := t.msix, twin := t.twin, log := t.log } := by
  have hexec : exec (.supplyFault .vhv c) s = .next ((s.at_ c).svcSafe.post c 0x0E07 s.locusSvc 0) := rfl
  have hsafe : (s.at_ c).svcSafe = { s with lcnt := max s.lcnt c, svc := s.svcSafe.svc } := rfl
  have honly : changesOnly logFlds s (s.at_ c).svcSafe := (changesOnly.refl _ s).parts rfl rfl rfl rfl
  refine ⟨_, hexec, ?_⟩
  generalize (s.at_ c).svcSafe = u at *
  have hpost := u.post_eq c 0x0E07 s.locusSvc 0
  have hlog : changesOnly logFlds s (u.post c 0x0E07 s.locusSvc 0) := honly.post
  have hseen := u.post_seen c 0x0E07 s.locusSvc 0
  generalize u.post c 0x0E07 s.locusSvc 0 = t at *
  rw [hsafe] at hpost
  exact ⟨(congrArg State.svc hpost).trans rfl, hseen, hlog, hpost.trans (by rw [hpost])⟩

theorem supplyFault_io (c : Nat) (h : s.pwr.coreLoss = false) : ∃ t, exec (.supplyFault .vddIo c) s = .next t ∧
    t.get F.GLOBAL_RESET_CAUSE_CAUSE = 4 ∧ t.get F.GLOBAL_STATE_PHASE = 0 ∧ (∀ g, (t.grp g).armed = false) ∧ t.flash = s.flash ∧
    t.pending = s.pending := by
  have hexec : exec (.supplyFault .vddIo c) s = .next ((s.at_ c).warmReset 4) := rfl
  have hleft := ((s.at_ c).warmReset_effect 4 h).1
  exact ⟨_, hexec, hleft.cause, hleft.phase, hleft.armed, hleft.flash, hleft.pending⟩

/-! ### Thermal (R379) -/

/-- What a thermal reset restarts: a primary has handed over first. -/
def State.thermalCut (s : State) (b : Nat) : State := if s.twin.handoverTx then (s.at_ b).handoverAt b else s

theorem State.thermalCut_effect (b : Nat) : (s.thermalCut b).pwr = s.pwr ∧ (s.thermalCut b).flash = s.flash ∧
    (s.thermalCut b).pending = s.pending := by
  unfold State.thermalCut
  split
  next h =>
    by_cases hrole : s.get F.TWIN_STATUS_ROLE = 1
    · have hf := ((s.at_ b).handoverAt_effect b h hrole).2.2.2.2.2.2.2.2
      generalize (s.at_ b).handoverAt b = t at *
      exact ⟨(congrArg State.pwr hf).trans rfl, (congrArg State.flash hf).trans rfl, (congrArg State.pending hf).trans rfl⟩
    · have hidle : (s.at_ b).handoverAt b = s.at_ b := if_neg fun hc => hrole hc.2
      rw [hidle]
      exact ⟨rfl, rfl, rfl⟩
  next => exact ⟨rfl, rfl, rfl⟩

theorem thermalReset_resets (die : Fin 14) (hhold : s.pwr.thermalHold = false) (hcore : s.pwr.coreLoss = false) : ∃ t,
    exec (.thermalReset die) s = .next t ∧ t.pwr.thermalHold = true ∧ t.get F.GLOBAL_RESET_CAUSE_CAUSE = 10 ∧ t.get F.GLOBAL_STATE_PHASE = 0 ∧
    (∀ g, (t.grp g).armed = false) ∧ t.flash = s.flash ∧ t.pending = s.pending := by
  have hexec : exec (.thermalReset die) s = .next (let u := ((s.post s.lcnt 0x0108 (s.locusDie die) 0).thermalCut
      (boundaryAfter (s.post s.lcnt 0x0108 (s.locusDie die) 0).lcnt)).warmReset 10
      { u with pwr := { u.pwr with thermalHold := true } }) := congrArg Host.Outcome.next (if_neg (by rw [hhold]; decide))
  refine ⟨_, hexec, ?_⟩
  have hpost := s.post_eq s.lcnt 0x0108 (s.locusDie die) 0
  generalize s.post s.lcnt 0x0108 (s.locusDie die) 0 = u at *
  obtain ⟨hpwr, hflash, hpend⟩ := u.thermalCut_effect (boundaryAfter u.lcnt)
  generalize u.thermalCut (boundaryAfter u.lcnt) = v at *
  have hcut : v.pwr.coreLoss = false := (congrArg Pwr.coreLoss hpwr).trans (((congrArg (fun x : State => x.pwr.coreLoss) hpost).trans rfl).trans hcore)
  have hleft := (v.warmReset_effect 10 hcut).1
  exact ⟨rfl, hleft.cause, hleft.phase, hleft.armed, (hleft.flash.trans hflash).trans ((congrArg State.flash hpost).trans rfl),
    (hleft.pending.trans hpend).trans ((congrArg State.pending hpost).trans rfl)⟩

theorem thermalWarning_logs (die : Fin 14) : ∃ t, exec (.thermalWarning die) s = .next t ∧ (0x0107, s.locus die 15 255 255) ∈ t.log.seen ∧
    changesOnly logFlds s t ∧ onlyLog s t :=
  ⟨_, rfl, State.post_seen _ _ _ _ _, (changesOnly.refl _ s).post, onlyLog_post _ _ _ _ _⟩

end

end Sys2Proof.Machine
end

section
/-! SUPPORT. Self-test: the parts that fail, what is shown of them, and the loader's first request (R352, R376, R377, Table 17.4). -/

namespace Sys2Proof.Machine

open Sys2Proof.Safety

/-! ### What self-test leaves at its end (R313) -/

section
variable (s : State)

/-- The runs that follow a self-test. -/
def State.withRuns (s : State) (runs : List CalRun) : State := { s with cal := { s.cal with runs := runs, results := false, abort := none } }

theorem State.selfCal_cases : s.selfCal = s ∨ ∃ runs, s.selfCal = (s.withRuns runs).calShow := by
  unfold State.selfCal
  dsimp only
  split
  · exact .inl rfl
  · exact .inr ⟨_, rfl⟩

theorem State.selfCal_effect : (∀ f : Fld, f.ok → f.off < 0x408000 ∨ (0x410000 ≤ f.off ∧ f.off < 0xD00000) → s.selfCal.get f = s.get f) ∧
    s.selfCal = { s with regs := s.selfCal.regs, cal := s.selfCal.cal } := by
  obtain h | ⟨runs, h⟩ := s.selfCal_cases
  · rw [h]
    exact ⟨fun _ _ _ => rfl, rfl⟩
  · rw [h]
    have hframe := (s.withRuns runs).calShow_frame
    have hget : ∀ f : Fld, f.ok → f.off < 0x408000 ∨ (0x410000 ≤ f.off ∧ f.off < 0xD00000) → (s.withRuns runs).calShow.get f = s.get f :=
      fun f hok hoff => (s.withRuns runs).calShow_get (fun hc => by
        simp only [showShare] at hc
        omega) ⟨.of rfl (by omega), hok, .inl (by simp only [F.CAL_STATUS_BUSY]; omega)⟩
        ⟨.of rfl (by omega), hok, .inl (by simp only [F.CAL_STATUS_WAITING]; omega)⟩
        ⟨.of rfl (by omega), hok, .inl (by simp only [F.SVC_STATUS_MON_HELD]; omega)⟩
    have hruns : s.withRuns runs = { s with cal := (s.withRuns runs).cal } := rfl
    generalize s.withRuns runs = u at *
    generalize u.calShow = t at *
    rw [hruns] at hframe
    exact ⟨hget, hframe.trans (by rw [hframe])⟩

/-- What the device shows when self-test has ended. -/
def State.testEnded (s : State) : State := ((s.setF F.STO_STATUS_READY).clrF F.STO_STATUS_SELF_REFRESH).selfCal

theorem State.testEnded_effect : s.testEnded.flag F.STO_STATUS_READY = true ∧ s.testEnded.flag F.STO_STATUS_SELF_REFRESH = false ∧
    (∀ f : Fld, f.ok → f.off ≠ 0x700000 → f.off < 0x408000 ∨ (0x410000 ≤ f.off ∧ f.off < 0xD00000) → s.testEnded.get f = s.get f) ∧
    s.testEnded.sto = s.sto ∧ s.testEnded.store = s.store := by
  obtain ⟨hget, hframe⟩ := ((s.setF F.STO_STATUS_READY).clrF F.STO_STATUS_SELF_REFRESH).selfCal_effect
  have hother : ∀ f : Fld, f.ok → f.off ≠ 0x700000 → ((s.setF F.STO_STATUS_READY).clrF F.STO_STATUS_SELF_REFRESH).get f = s.get f := fun f hok hoff =>
    (RegTab.fld_setFld_sep _ _ ⟨.of rfl (by omega), hok, .inl (Ne.symm hoff)⟩).trans (RegTab.fld_setFld_sep _ _ ⟨.of rfl (by omega), hok, .inl (Ne.symm hoff)⟩)
  unfold State.testEnded
  refine ⟨(RegTab.bit_congr (hget _ (.of rfl (by omega)) (.inr ⟨by decide, by decide⟩))).trans ?_,
    (RegTab.bit_congr (hget _ (.of rfl (by omega)) (.inr ⟨by decide, by decide⟩))).trans (RegTab.bit_setFld_zero _ (.of rfl (by omega))),
    fun f hok hoff h => (hget f hok h).trans (hother f hok hoff), ?_, ?_⟩
  · exact (RegTab.bit_setFld_sep (f := F.STO_STATUS_SELF_REFRESH) (g := F.STO_STATUS_READY) _ _ (.of rfl (by omega))).trans
      (RegTab.bit_setFld_one _ (.of rfl (by omega)))
  · exact (congrArg State.sto hframe).trans rfl
  · exact (congrArg State.store hframe).trans rfl

/-! ### Parts that fail (R156, R376) -/

/-- What fencing parts of the store changes. -/
def storePartsShare : Share where
  upd s t := { s with out := t.out, regs := t.regs, sto := t.sto, msix := t.msix, twin := t.twin, log := t.log }
  regs off := off = 0x4 ∨ (0x700000 ≤ off ∧ off < 0x700070) ∨ 0xF00000 ≤ off
  self _ := rfl
  again _ _ _ := rfl

theorem State.post_storePartsShare (lc code locus data : Nat) : storePartsShare.Only s (s.post lc code locus data) := by
  refine .post (fun _ h => .inr (.inr h)) ?_
  have h := s.post_eq lc code locus data
  generalize s.post lc code locus data = u at *
  rw [h]
  rfl

theorem storePartsShare_put {f : Fld} (v : Nat) (h : storePartsShare.regs f.off) : storePartsShare.Only s (s.put f v) := .put h

theorem State.fenceLog_storePartsShare (locus : Nat) : storePartsShare.Only s (s.fenceLog locus) :=
  (State.post_storePartsShare _ _ _ _ _).after (storePartsShare_put s (f := F.GLOBAL_STATE_DEGRADED) 1 (.inl rfl))

theorem State.showTick_storePartsShare : storePartsShare.Only s s.showTick := by
  unfold State.showTick
  split
  · exact (storePartsShare_put s (f := F.STO_CTICK_BYTES) _ (.inr (.inl ⟨by decide, by decide⟩))).trans
      (storePartsShare_put _ (f := F.STO_BUDGET_BYTES) _ (.inr (.inl ⟨by decide, by decide⟩)))
  · exact .refl _ _

/-- The fenced pseudo-channels after more are fenced. -/
def Sto.fencedWith (x : Sto) (l : List Nat) : List Nat := sortNat (x.fenced ++ l).dedup

theorem State.fencePcs_effect (l : List Nat) : storePartsShare.Only s (s.fencePcs l) ∧ (s.fencePcs l).sto.fenced = s.sto.fencedWith l ∧
    (s.fencePcs l).get F.STO_CAP_P_ACT = 128 - (s.sto.fencedWith l).length := by
  have hset : storePartsShare.Only s ({ s with sto := { s.sto with fenced := s.sto.fencedWith l } } : State) := .parts rfl rfl
  have heq : s.fencePcs l = (((({ s with sto := { s.sto with fenced := s.sto.fencedWith l } } : State).put F.STO_CAP_P_ACT
      (128 - (s.sto.fencedWith l).length)).put F.STO_CAP_PAGES ((128 - (s.sto.fencedWith l).length) * 2097152 / 128)).showTick) := rfl
  have hfenced : ({ s with sto := { s.sto with fenced := s.sto.fencedWith l } } : State).sto.fenced = s.sto.fencedWith l := rfl
  rw [heq]
  generalize ({ s with sto := { s.sto with fenced := s.sto.fencedWith l } } : State) = u at *
  generalize (s.sto.fencedWith l).length = n at *
  have hact : ((u.put F.STO_CAP_P_ACT (128 - n)).put F.STO_CAP_PAGES ((128 - n) * 2097152 / 128)).get F.STO_CAP_P_ACT = 128 - n :=
    (RegTab.fld_setFld_sep (f := F.STO_CAP_PAGES) (g := F.STO_CAP_P_ACT) _ _ (.of rfl (by omega))).trans
      ((RegTab.fld_setFld_self _ _ (.of rfl (by omega))).trans (Nat.mod_eq_of_lt (show 128 - n < 2 ^ 8 by omega)))
  have hcap : ∀ off, 0x700000 ≤ off → off < 0x700070 → storePartsShare.regs off := fun _ h1 h2 => .inr (.inl ⟨h1, h2⟩)
  have hput := (hset.trans (storePartsShare_put u (f := F.STO_CAP_P_ACT) (128 - n) (hcap _ (by decide) (by decide)))).trans
    (storePartsShare_put _ (f := F.STO_CAP_PAGES) ((128 - n) * 2097152 / 128) (hcap _ (by decide) (by decide)))
  have hsto : ((u.put F.STO_CAP_P_ACT (128 - n)).put F.STO_CAP_PAGES ((128 - n) * 2097152 / 128)).sto = u.sto := rfl
  generalize (u.put F.STO_CAP_P_ACT (128 - n)).put F.STO_CAP_PAGES ((128 - n) * 2097152 / 128) = v at *
  have htick : v.showTick.sto = v.sto ∧ v.showTick.regs.word 0x700018 = v.regs.word 0x700018 := by
    unfold State.showTick
    split
    · exact ⟨rfl, (RegTab.word_setFld_other _ _ _ _ (by decide)).trans (RegTab.word_setFld_other _ _ _ _ (by decide))⟩
    · exact ⟨rfl, rfl⟩
  exact ⟨hput.trans v.showTick_storePartsShare, (congrArg Sto.fenced (htick.1.trans hsto)).trans hfenced, (RegTab.fld_congr htick.2).trans hact⟩

theorem State.stackGroupFail_storePartsShare {k : Nat} (cold : Bool) (hk : k < 4) (j : Nat) : storePartsShare.Only s (s.stackGroupFail cold k j) := by
  have hpend : storePartsShare.regs (F.STO_REPAIR_FAIL_PENDING k).off := .inr (.inl (by
    simp only [F.STO_REPAIR_FAIL_PENDING]
    omega))
  exact .ite ((State.fenceLog_storePartsShare _ _).after (s.fencePcs_effect _).1)
    ((State.post_storePartsShare _ _ _ _ _).after ((storePartsShare_put _ (f := F.STO_STATUS_FAIL_PENDING) 1 (.inr (.inl ⟨by decide, by decide⟩))).after
      (storePartsShare_put s _ hpend)))

theorem State.fenceMarked_storePartsShare : storePartsShare.Only s s.fenceMarked := by
  refine (storePartsShare_put _ (f := F.STO_STATUS_FAIL_PENDING) 0 (.inr (.inl ⟨by decide, by decide⟩))).after (.foldl _ _ (fun t k hk => ?_) s)
  have hk := List.mem_range.mp hk
  refine (storePartsShare_put _ (f := F.STO_REPAIR_FAIL_PENDING k) 0 (.inr (.inl ?_))).after
    (.foldl _ _ (fun u j _ => u.stackGroupFail_storePartsShare true hk j) t)
  simp only [F.STO_REPAIR_FAIL_PENDING]
  omega

/-- One part that fails alone. -/
theorem State.selfParts_single (cold : Bool) (p : FailPart) (h : failLevel p < 4) :
    (List.range 4).foldl (fun t v => ([p].filter (fun q => failLevel q == v)).foldl (fun u q => u.selfPart cold [p] q) t) s = s.selfPart cold [p] p := by
  have hone : ∀ v, [p].filter (fun q => failLevel q == v) = if failLevel p = v then [p] else [] := fun v => by
    by_cases hv : failLevel p = v
    · simp [hv]
    · simp [hv]
  simp only [hone, List.range, List.range.loop, List.foldl_cons, List.foldl_nil]
  obtain h | h | h | h : failLevel p = 0 ∨ failLevel p = 1 ∨ failLevel p = 2 ∨ failLevel p = 3 := by omega
  all_goals simp [h]

end

end Sys2Proof.Machine
end

section
/-! SUPPORT. The self-test's commands (R376, R377). -/

namespace Sys2Proof.Machine

open Sys2Proof.Safety

theorem mem_insertNat_of {x y : Nat} {l : List Nat} (h : y = x ∨ y ∈ l) : y ∈ insertNat x l := by
  induction l with
  | nil => simpa [insertNat] using h
  | cons z zs ih =>
    rw [insertNat]
    split
    · simpa using h
    · split
      next heq =>
        rcases h with rfl | h
        · simp [heq]
        · exact h
      next =>
        rcases h with h | h
        · exact List.mem_cons_of_mem _ (ih (.inl h))
        · rcases List.mem_cons.mp h with rfl | h
          · simp
          · exact List.mem_cons_of_mem _ (ih (.inr h))

theorem mem_sortNat_of {x : Nat} {l : List Nat} (h : x ∈ l) : x ∈ sortNat l := by
  have hfold : ∀ (l acc : List Nat), x ∈ l ∨ x ∈ acc → x ∈ l.foldl (fun a y => insertNat y a) acc := by
    intro l
    induction l with
    | nil => exact fun _ h => h.resolve_left (by simp)
    | cons y ys ih =>
      intro acc h
      refine ih _ ?_
      rcases h with h | h
      · rcases List.mem_cons.mp h with rfl | h
        · exact .inr (mem_insertNat_of (.inl rfl))
        · exact .inl h
      · exact .inr (mem_insertNat_of (.inr h))
  exact hfold l [] (.inl h)

section
variable (s : State)

/-! ### One failing part -/

theorem State.fenceLog_get {f : Fld} (locus : Nat) (hf : f.Low) (h : F.GLOBAL_STATE_DEGRADED.Sep f) : (s.fenceLog locus).get f = s.get f :=
  (State.fld_post _ _ _ _ _ hf).trans (RegTab.fld_setFld_sep _ _ h)

theorem State.fenceLog_degraded (locus : Nat) : (s.fenceLog locus).flag F.GLOBAL_STATE_DEGRADED = true :=
  (State.bit_post _ _ _ _ _ (.of rfl (by omega))).trans (RegTab.bit_setFld_one _ (.of rfl (by omega)))

theorem State.dieFenced_shows {k : Nat} (hk : k < 14) : bitOf ((s.dieFenced k).get F.GLOBAL_SELFTEST_DIES) k = true :=
  (congrArg (fun n => bitOf n k) (RegTab.fld_setFld_self (f := F.GLOBAL_SELFTEST_DIES) _ _ (.of rfl (by omega)))).trans (bitOf_setBit_mod (w := 14) hk)

/-- A die that fails alone is shown. -/
theorem State.selfPart_die (cold : Bool) {k : Nat} (hk : k < 10) :
    bitOf ((s.selfPart cold [.die k] (.die k)).get F.GLOBAL_SELFTEST_DIES) k = true := by
  have hlog : ∀ (u : State) (locus : Nat), bitOf (((u.dieFenced k).fenceLog locus).get F.GLOBAL_SELFTEST_DIES) k = true := fun u locus =>
    (congrArg (fun n => bitOf n k) ((u.dieFenced k).fenceLog_get locus (.of rfl (by omega)) (.of rfl (by omega)))).trans (u.dieFenced_shows (by omega))
  unfold State.selfPart
  dsimp only
  split
  · exact State.dieFenced_shows _ (by omega)
  · split
    · exact hlog _ _
    · split
      next h =>
        subst h
        exact State.dieFenced_shows _ (by omega)
      next =>
        rw [if_neg (by omega)]
        exact hlog _ _

/-- A channel group of a stack that fails alone. -/
theorem State.selfPart_stackGroup (cold : Bool) (k j : Nat) :
    s.selfPart cold [.stackGroup k j] (.stackGroup k j) = s.stackGroupFail cold k j := by
  unfold State.selfPart
  exact if_neg (by simp [failDie])

theorem State.selfPart_lane (cold : Bool) (x : Nat) : s.selfPart cold [.lane x] (.lane x) = s.spareUsed := by
  unfold State.selfPart
  exact if_neg (by simp [failDie])

theorem State.stackGroupFail_cold (k j : Nat) : (∀ i < 4, 32 * k + 4 * j + i ∈ (s.stackGroupFail true k j).sto.fenced) ∧
    (s.stackGroupFail true k j).get F.STO_CAP_P_ACT = 128 - (s.stackGroupFail true k j).sto.fenced.length ∧
    (s.stackGroupFail true k j).flag F.GLOBAL_STATE_DEGRADED = true := by
  have heq : s.stackGroupFail true k j = (s.fencePcs (groupPcs k j)).fenceLog (s.locus (10 + k) 15 j 255) := rfl
  obtain ⟨-, hfenced, hact⟩ := s.fencePcs_effect (groupPcs k j)
  rw [heq]
  generalize s.fencePcs (groupPcs k j) = u at *
  have hsto : (u.fenceLog (s.locus (10 + k) 15 j 255)).sto = u.sto := by simp [State.fenceLog, State.setF]
  rw [hsto]
  refine ⟨fun i hi => ?_, ?_, u.fenceLog_degraded _⟩
  · rw [hfenced]
    refine mem_sortNat_of (List.mem_dedup.mpr (List.mem_append_right _ (List.mem_map.mpr ⟨i, List.mem_range.mpr hi, rfl⟩)))
  · rw [hfenced]
    exact (u.fenceLog_get _ (.of rfl (by omega)) (.of rfl (by omega))).trans hact

theorem State.stackGroupFail_warm {k j : Nat} (hk : k < 4) (hj : j < 8) :
    bitOf ((s.stackGroupFail false k j).get (F.STO_REPAIR_FAIL_PENDING k)) j = true ∧ (s.stackGroupFail false k j).sto.fenced = s.sto.fenced := by
  have heq : s.stackGroupFail false k j = s.groupPending k j := rfl
  rw [heq]
  refine ⟨(congrArg (fun n => bitOf n j) ?_).trans (bitOf_setBit_mod (w := 8) (m := s.get (F.STO_REPAIR_FAIL_PENDING k)) hj), ?_⟩
  · refine (State.fld_post _ _ _ _ _ (.of rfl (by omega))).trans ?_
    exact (RegTab.fld_setFld_sep (f := F.STO_STATUS_FAIL_PENDING) (g := F.STO_REPAIR_FAIL_PENDING k) _ _ (.of rfl (by omega))).trans
      (RegTab.fld_setFld_self _ _ (.of rfl (by omega)))
  · simp [State.groupPending, State.setF]

/-! ### SELF_TEST (R376) -/

/-- The state in which self-test fences what failed. -/
def State.testBegun (s : State) : State := (if coldCause (s.get F.GLOBAL_RESET_CAUSE_CAUSE) then s.fenceMarked else s).setF F.GLOBAL_SELFTEST_DONE

theorem State.testBegun_effect : s.testBegun.flag F.GLOBAL_SELFTEST_DONE = true ∧
    s.testBegun.get F.GLOBAL_SELFTEST_SPARES = s.get F.GLOBAL_SELFTEST_SPARES ∧ s.testBegun.store = s.store ∧
    (coldCause (s.get F.GLOBAL_RESET_CAUSE_CAUSE) = false → s.testBegun.sto = s.sto) := by
  have hshare : storePartsShare.Only s (if coldCause (s.get F.GLOBAL_RESET_CAUSE_CAUSE) = true then s.fenceMarked else s) :=
    .ite s.fenceMarked_storePartsShare (.refl _ _)
  have hwarm : coldCause (s.get F.GLOBAL_RESET_CAUSE_CAUSE) = false →
      (if coldCause (s.get F.GLOBAL_RESET_CAUSE_CAUSE) = true then s.fenceMarked else s).sto = s.sto := fun h => by rw [if_neg (by simp [h])]
  unfold State.testBegun
  generalize (if coldCause (s.get F.GLOBAL_RESET_CAUSE_CAUSE) = true then s.fenceMarked else s) = u at *
  refine ⟨RegTab.bit_setFld_one _ (.of rfl (by omega)), ?_, (congrArg State.store hshare.frame).trans rfl, hwarm⟩
  refine (RegTab.fld_setFld_sep (f := F.GLOBAL_SELFTEST_DONE) (g := F.GLOBAL_SELFTEST_SPARES) _ _ (.of rfl (by omega))).trans (hshare.fld ?_)
  simp only [storePartsShare, F.GLOBAL_SELFTEST_SPARES]
  omega

/-- The parts that failed are fenced, marked or replaced. -/
def State.partsTested (s : State) (cold : Bool) (fails : List FailPart) : State :=
  (List.range 4).foldl (fun t v => (fails.filter (fun p => failLevel p == v)).foldl (fun u p => u.selfPart cold fails p) t) s

theorem exec_selfTest {fails : List FailPart} (h1 : s.get F.GLOBAL_STATE_PHASE = 1) (h2 : s.flag F.GLOBAL_SELFTEST_DONE = false)
    (h3 : fails.contains .package = false) (h4 : s.get F.CLK_STATUS_LOOP = 3) :
    exec (.selfTest fails) s = .next (s.testBegun.partsTested (coldCause (s.get F.GLOBAL_RESET_CAUSE_CAUSE)) fails).testEnded :=
  congrArg Host.Outcome.next (((if_neg (by simp [h1, h2])).trans (if_neg (by rw [h3]; decide))).trans (if_neg (not_not.mpr h4)))

theorem selfTest_ends {fails : List FailPart} (h1 : s.get F.GLOBAL_STATE_PHASE = 1) (h2 : s.flag F.GLOBAL_SELFTEST_DONE = false)
    (h3 : fails.contains .package = false) (h4 : s.get F.CLK_STATUS_LOOP = 3) : ∃ t, exec (.selfTest fails) s = .next t ∧
    t.flag F.STO_STATUS_READY = true ∧ t.flag F.STO_STATUS_SELF_REFRESH = false ∧ flashSame s t ∧ t.pending = s.pending ∧
    (fails = [] → t.flag F.GLOBAL_SELFTEST_DONE = true ∧ storeSame s t) ∧
    (∀ k < 10, fails = [.die k] → bitOf (t.get F.GLOBAL_SELFTEST_DIES) k = true) ∧
    (∀ k < 4, ∀ j < 8, fails = [.stackGroup k j] →
      (coldCause (s.get F.GLOBAL_RESET_CAUSE_CAUSE) = true →
        (∀ i < 4, 32 * k + 4 * j + i ∈ t.sto.fenced) ∧ t.get F.STO_CAP_P_ACT = 128 - t.sto.fenced.length ∧
          t.flag F.GLOBAL_STATE_DEGRADED = true) ∧
      (coldCause (s.get F.GLOBAL_RESET_CAUSE_CAUSE) = false →
        bitOf (t.get (F.STO_REPAIR_FAIL_PENDING k)) j = true ∧ t.sto.fenced = s.sto.fenced)) ∧
    (∀ x : Nat, fails = [.lane x] → t.get F.GLOBAL_SELFTEST_SPARES =
      min (s.get F.GLOBAL_SELFTEST_SPARES + 1) (2 ^ F.GLOBAL_SELFTEST_SPARES.width - 1)) := by
  have hexec := exec_selfTest s h1 h2 h3 h4
  have hflash := (fewCommandsWriteTheMemories _ _ _ hexec).2
  have hpend := (exec_memEffect _ hexec).pending_eq
  refine ⟨_, hexec, ?_⟩
  obtain ⟨hdone, hspares, hstore, hwarm⟩ := s.testBegun_effect
  generalize s.testBegun = u at *
  generalize hcold : coldCause (s.get F.GLOBAL_RESET_CAUSE_CAUSE) = cold at *
  have hnone : fails = [] → u.partsTested cold fails = u := by
    rintro rfl
    rfl
  have hone : ∀ p, failLevel p < 4 → fails = [p] → u.partsTested cold fails = u.selfPart cold [p] p := by
    rintro p hp rfl
    unfold State.partsTested
    exact u.selfParts_single cold p hp
  generalize u.partsTested cold fails = v at *
  obtain ⟨hready, hrefresh, hget, hsto, hkeep⟩ := v.testEnded_effect
  generalize v.testEnded = t at *
  have hlow : ∀ f : Fld, f.ok → f.off < 0x408000 → t.get f = v.get f := fun f hok hf => hget f hok (by omega) (.inl hf)
  refine ⟨hready, hrefresh, hflash, hpend, fun h => ?_, fun k hk h => ?_, fun k hk j hj h => ⟨fun hc => ?_, fun hc => ?_⟩, fun x h => ?_⟩
  · obtain rfl := hnone h
    refine ⟨(RegTab.bit_congr (hlow F.GLOBAL_SELFTEST_DONE (.of rfl (by omega)) (by decide))).trans hdone, fun a => ?_⟩
    rw [State.sread, State.sread, hkeep, hstore]
  · obtain rfl := hone _ (by simp only [failLevel]; omega) h
    exact (congrArg (fun n => bitOf n k) (hlow F.GLOBAL_SELFTEST_DIES (.of rfl (by omega)) (by decide))).trans (u.selfPart_die cold hk)
  · have hv := hone _ (by simp only [failLevel]; omega) h
    rw [u.selfPart_stackGroup cold, hc] at hv
    subst hv
    obtain ⟨hfenced, hact, hdeg⟩ := u.stackGroupFail_cold k j
    rw [hsto]
    exact ⟨hfenced, (hget _ (.of rfl (by omega)) (by decide) (.inr ⟨by decide, by decide⟩)).trans hact,
      (RegTab.bit_congr (hlow F.GLOBAL_STATE_DEGRADED (.of rfl (by omega)) (by decide))).trans hdeg⟩
  · have hv := hone _ (by simp only [failLevel]; omega) h
    rw [u.selfPart_stackGroup cold, hc] at hv
    subst hv
    obtain ⟨hpending, hfenced⟩ := u.stackGroupFail_warm hk hj
    have hoff : t.get (F.STO_REPAIR_FAIL_PENDING k) = (u.stackGroupFail false k j).get (F.STO_REPAIR_FAIL_PENDING k) :=
      hget _ (.of rfl (by omega)) (by simp only [F.STO_REPAIR_FAIL_PENDING]; omega) (.inr (by simp only [F.STO_REPAIR_FAIL_PENDING]; omega))
    exact ⟨by rw [hoff]; exact hpending, ((congrArg Sto.fenced hsto).trans hfenced).trans (congrArg Sto.fenced (hwarm hc))⟩
  · have hv := hone _ (by simp only [failLevel]; omega) h
    rw [u.selfPart_lane cold] at hv
    subst hv
    refine (hlow F.GLOBAL_SELFTEST_SPARES (.of rfl (by omega)) (by decide)).trans ?_
    refine (State.get_incSat_width (w := 16) u F.GLOBAL_SELFTEST_SPARES (.of rfl (by omega)) rfl).trans ?_
    rw [hspares]
    rfl

theorem selfTest_package {fails : List FailPart} (h1 : s.get F.GLOBAL_STATE_PHASE = 1) (h2 : s.flag F.GLOBAL_SELFTEST_DONE = false)
    (h3 : fails.contains .package = true) : ∃ t, exec (.selfTest fails) s = .next t ∧ t.flag F.GLOBAL_SELFTEST_PKG_FAIL = true ∧
    t.flag F.GLOBAL_SELFTEST_DONE = true ∧ (0x0106, s.locusPkg) ∈ t.log.seen ∧ t.flag F.LOG_STATUS_ERR_N = true ∧
    changesOnly (F.GLOBAL_SELFTEST_PKG_FAIL :: F.GLOBAL_SELFTEST_DONE :: logFlds) s t := by
  have hexec : exec (.selfTest fails) s = .next
      ((((s.setF F.GLOBAL_SELFTEST_DONE).setF F.GLOBAL_SELFTEST_PKG_FAIL).post s.lcnt 0x0106 s.locusPkg 0).errN) :=
    congrArg Host.Outcome.next ((if_neg (by simp [h1, h2])).trans (if_pos h3))
  refine ⟨_, hexec, ?_⟩
  have hput : ∀ u : State, changesOnly (F.GLOBAL_SELFTEST_PKG_FAIL :: F.GLOBAL_SELFTEST_DONE :: logFlds) u
      ((u.put F.GLOBAL_SELFTEST_DONE 1).put F.GLOBAL_SELFTEST_PKG_FAIL 1) := fun u => ((changesOnly.refl _ u).put (by simp)).put (by simp)
  have honly : changesOnly (F.GLOBAL_SELFTEST_PKG_FAIL :: F.GLOBAL_SELFTEST_DONE :: logFlds) s
      ((s.setF F.GLOBAL_SELFTEST_DONE).setF F.GLOBAL_SELFTEST_PKG_FAIL) := hput s
  have hpkg : ((s.setF F.GLOBAL_SELFTEST_DONE).setF F.GLOBAL_SELFTEST_PKG_FAIL).flag F.GLOBAL_SELFTEST_PKG_FAIL = true :=
    RegTab.bit_setFld_one _ (.of rfl (by omega))
  have hdone : ((s.setF F.GLOBAL_SELFTEST_DONE).setF F.GLOBAL_SELFTEST_PKG_FAIL).flag F.GLOBAL_SELFTEST_DONE = true :=
    (RegTab.bit_setFld_sep (f := F.GLOBAL_SELFTEST_PKG_FAIL) (g := F.GLOBAL_SELFTEST_DONE) _ _ (.of rfl (by omega))).trans
      (RegTab.bit_setFld_one _ (.of rfl (by omega)))
  generalize (s.setF F.GLOBAL_SELFTEST_DONE).setF F.GLOBAL_SELFTEST_PKG_FAIL = u at *
  have hpost := honly.trans ((changesOnly.refl (F.GLOBAL_SELFTEST_PKG_FAIL :: F.GLOBAL_SELFTEST_DONE :: logFlds) u).post
    (lc := s.lcnt) (code := 0x0106) (locus := s.locusPkg) (data := 0))
  have hseen := u.post_seen s.lcnt 0x0106 s.locusPkg 0
  have hpkg' : (u.post s.lcnt 0x0106 s.locusPkg 0).flag F.GLOBAL_SELFTEST_PKG_FAIL = true := (State.bit_post _ _ _ _ _ (.of rfl (by omega))).trans hpkg
  have hdone' : (u.post s.lcnt 0x0106 s.locusPkg 0).flag F.GLOBAL_SELFTEST_DONE = true := (State.bit_post _ _ _ _ _ (.of rfl (by omega))).trans hdone
  generalize u.post s.lcnt 0x0106 s.locusPkg 0 = v at *
  obtain ⟨herr, hget, hechg, hframe⟩ := v.errN_effect
  refine ⟨(RegTab.bit_congr (hget _ (.of rfl (by omega)))).trans hpkg', (RegTab.bit_congr (hget _ (.of rfl (by omega)))).trans hdone', ?_,
    herr.trans (by rw [hpkg', Bool.or_true]), hpost.trans ?_⟩
  · rw [(congrArg State.log hframe).trans rfl]
    exact hseen
  · refine ⟨fun f hok hf => ?_, hechg.2⟩
    refine hget f ⟨.of rfl (by omega), hok, ?_⟩
    have hstat := hf (wordFld R.LOG_STATUS) (by simp [logFlds])
    rcases hstat with h | h | h
    · exact .inl h
    · have hlo := hok.1
      have hhi := hok.2
      simp only [wordFld] at h
      omega
    · simp only [wordFld] at h
      omega

/-! ### SELF_TEST_DONE (R352, R377) -/

/-- What a die without values shows. -/
theorem State.calFallback_effect : changesOnly (F.GLOBAL_STATE_CAL_DEFAULTED :: logFlds) s s.calFallback ∧
    s.calFallback.loader = s.loader ∧ s.calFallback.commit = s.commit ∧ s.calFallback.lcnt = s.lcnt := by
  unfold State.calFallback
  dsimp only
  split
  · exact ⟨.refl _ _, rfl, rfl, rfl⟩
  · have hput : changesOnly (F.GLOBAL_STATE_CAL_DEFAULTED :: logFlds) s (s.put F.GLOBAL_STATE_CAL_DEFAULTED 1) := (changesOnly.refl _ s).put (by simp)
    refine ⟨hput.post, ?_, ?_, ?_⟩ <;> simp [State.setF]

theorem exec_selfTestDone_idle (h : s.get F.GLOBAL_STATE_PHASE ≠ 1 ∨ s.flag F.GLOBAL_SELFTEST_DONE = false ∨
    s.flag F.GLOBAL_SELFTEST_PKG_FAIL = true ∨ s.get F.CLK_STATUS_LOOP ≠ 3 ∨ s.commit.isSome = true ∨ (∃ r ∈ s.cal.runs, r.ended = false)) :
    exec .selfTestDone s = .next s := by
  refine congrArg Host.Outcome.next (if_neg fun ⟨h1, h2, h3, h4, h5, h6⟩ => ?_)
  rcases h with h | h | h | h | h | ⟨r, hr, h⟩
  · exact h h1
  · exact absurd (h.symm.trans h2) (by decide)
  · exact absurd (h.symm.trans h3) (by decide)
  · exact h h4
  · rw [h5] at h
    exact absurd h (by decide)
  · exact absurd (h.symm.trans (List.all_eq_true.mp h6 r hr)) (by decide)

theorem selfTestDone_requests (h1 : s.get F.GLOBAL_STATE_PHASE = 1) (h2 : s.flag F.GLOBAL_SELFTEST_DONE = true)
    (h3 : s.flag F.GLOBAL_SELFTEST_PKG_FAIL = false) (h4 : s.get F.CLK_STATUS_LOOP = 3) (h5 : s.commit = none)
    (h6 : ∀ r ∈ s.cal.runs, r.ended = true) : ∃ t, exec .selfTestDone s = .next t ∧
    (s.loader.slot = none → t.get F.GLOBAL_STATE_PHASE = 4 ∧ t.commit = none) ∧
    (s.loader.slot ≠ none → t.commit = some ⟨0, 0, s.lcnt, tickDue s.lcnt, 0, 0, .loader⟩ ∧ t.loader.waiting = false ∧
      t.flag F.GLOBAL_STATE_SHADOW_PENDING = true) ∧
    changesOnly (F.GLOBAL_STATE_PHASE :: F.GLOBAL_STATE_SHADOW_PENDING :: F.GLOBAL_STATE_CAL_DEFAULTED ::
      F.GLOBAL_WAKE_CTRL_ASSERTED :: logFlds) s t := by
  have hexec : exec .selfTestDone s = .next (match s.calFallback.loader.slot with
      | some _ => ({ s.calFallback with loader := { s.calFallback.loader with waiting := false } } : State).request 0 0 s.calFallback.lcnt
          (tickDue s.calFallback.lcnt) 0 .loader
      | none => s.calFallback.put F.GLOBAL_STATE_PHASE 4) :=
    congrArg Host.Outcome.next ((if_pos ⟨h1, h2, h3, h4, h5, List.all_eq_true.mpr h6⟩).trans rfl)
  refine ⟨_, hexec, ?_⟩
  obtain ⟨honly, hloader, hcommit, hlcnt⟩ := s.calFallback_effect
  generalize s.calFallback = u at *
  have hall : changesOnly (F.GLOBAL_STATE_PHASE :: F.GLOBAL_STATE_SHADOW_PENDING :: F.GLOBAL_STATE_CAL_DEFAULTED ::
      F.GLOBAL_WAKE_CTRL_ASSERTED :: logFlds) s u := honly.mono (by simp +contextual)
  rw [← hloader]
  split
  next k hk =>
    have hput : ∀ v : State, changesOnly (F.GLOBAL_STATE_PHASE :: F.GLOBAL_STATE_SHADOW_PENDING ::
        F.GLOBAL_STATE_CAL_DEFAULTED :: F.GLOBAL_WAKE_CTRL_ASSERTED :: logFlds) v (v.put F.GLOBAL_STATE_SHADOW_PENDING 1) := fun v =>
      (changesOnly.refl _ v).put (by simp)
    refine ⟨fun h => absurd (h.symm.trans hk) (by simp), fun _ => ⟨?_, rfl, RegTab.bit_setFld_one _ (.of rfl (by omega))⟩,
      (hall.trans (hput u)).parts rfl rfl rfl rfl⟩
    rw [← hlcnt]
    rfl
  next hk =>
    exact ⟨fun _ => ⟨RegTab.fld_setFld_self _ _ (.of rfl (by omega)), hcommit.trans h5⟩, fun h => absurd hk h, hall.put (by simp)⟩

end

/-- Settles O58. -/
theorem suppliesThermalAndSelfTest : Obligations.SuppliesThermalAndSelfTest := by
  unfold Obligations.SuppliesThermalAndSelfTest
  refine ⟨fun rail c s => ⟨fun h => congrArg Host.Outcome.next (if_pos h), supplyWarningStart_counts s rail c, fun h => ?_,
      fun st h => supplyWarningEnd_ends s rail c st h⟩, fun o s h => ?_,
    fun s st en b h hb => ⟨supplyStateCheck_good s h hb, fun n hn => supplyStateCheck_chanBad s h hb hn, supplyStateCheck_hubBad s h⟩,
    fun c s => ⟨supplyFault_ana s c, fun h => congrArg Host.Outcome.next (if_pos h), supplyFault_ser s c, supplyFault_vhv s c,
      fun h => congrArg Host.Outcome.next ((s.at_ c).warmReset_absent 4 h), supplyFault_io s c, rfl⟩,
    fun die s => ⟨thermalWarning_logs s die, fun h => ⟨congrArg Host.Outcome.next (if_pos h), congrArg Host.Outcome.next (if_pos h)⟩,
      fun h => congrArg Host.Outcome.next (if_neg (by simp [h])), thermalReset_resets s die⟩,
    fun fails s => ⟨fun h => congrArg Host.Outcome.next (if_pos h), fun h1 h2 => ⟨selfTest_package s h1 h2, fun h3 h4 => ?_, selfTest_ends s h1 h2⟩⟩,
    fun s => ⟨exec_selfTestDone_idle s, selfTestDone_requests s⟩⟩
  · have hnone : s.pwr.episodes.find? (fun p => p.1 == rail.val) = none := by
      rw [List.find?_eq_none]
      intro p hp hc
      exact absurd (h.symm.trans (List.any_eq_true.mpr ⟨p, hp, hc⟩)) (by decide)
    show Host.Outcome.next (match s.pwr.episodes.find? (fun p => p.1 == rail.val) with
      | none => _
      | some (_, st) => _) = _
    rw [hnone]
  · show Host.Outcome.next (match s.pwr.check with
      | none => _
      | some (st, en) => _) = _
    rw [h]
  · exact congrArg Host.Outcome.next (((if_neg (by simp [h1, h2])).trans (if_neg (by rw [h3]; decide))).trans (if_pos h4))

end Sys2Proof.Machine
end

section
/-! SUPPORT. The SMBus target and the scan port (R398, R407). -/

namespace Sys2Proof.Machine

open Sys2Proof.Safety

/-! ### LOG_CMD by the SMBus target -/

section
variable (s : State)

/-- The fields that LOG_CMD changes. -/
def logCmdFlds : List Fld := [F.LOG_STATUS_FIRST_VALID, F.LOG_NEST_CNT_COUNT, F.LOG_STATUS_FATAL, F.LOG_STATUS_ERR_N]

theorem State.fatalClear_effect : (s.log.fatalCond = false → s.fatalClear.flag F.LOG_STATUS_FATAL = false) ∧
    s.fatalClear.flag F.LOG_STATUS_FIRST_VALID = s.flag F.LOG_STATUS_FIRST_VALID ∧
    s.fatalClear.get F.LOG_NEST_CNT_COUNT = s.get F.LOG_NEST_CNT_COUNT ∧ changesOnly logCmdFlds s s.fatalClear ∧
    s.fatalClear = { s with out := s.fatalClear.out, regs := s.fatalClear.regs } := by
  unfold State.fatalClear
  split
  · next h => exact ⟨fun hc => absurd (h.symm.trans hc) (by decide), rfl, rfl, .refl _ _, rfl⟩
  · have hu : (s.clrF F.LOG_STATUS_FATAL).flag F.LOG_STATUS_FATAL = false ∧
        (s.clrF F.LOG_STATUS_FATAL).flag F.LOG_STATUS_FIRST_VALID = s.flag F.LOG_STATUS_FIRST_VALID ∧
        (s.clrF F.LOG_STATUS_FATAL).get F.LOG_NEST_CNT_COUNT = s.get F.LOG_NEST_CNT_COUNT := by
      refine ⟨?_, ?_, ?_⟩
      all_goals simp (disch := first | exact .of rfl (by omega) | omega) [State.flag, State.get]
    have honly : changesOnly logCmdFlds s (s.clrF F.LOG_STATUS_FATAL) := .put (.refl _ _) (by simp [logCmdFlds])
    have hframe : s.clrF F.LOG_STATUS_FATAL = { s with regs := (s.clrF F.LOG_STATUS_FATAL).regs } := rfl
    generalize s.clrF F.LOG_STATUS_FATAL = u at hu honly hframe ⊢
    obtain ⟨hfatal, hvalid, hnest⟩ := hu
    obtain ⟨_, hget, herronly, herrframe⟩ := u.errN_effect
    refine ⟨fun _ => (RegTab.bit_congr (hget _ (.of rfl (by omega)))).trans hfatal,
      (RegTab.bit_congr (hget _ (.of rfl (by omega)))).trans hvalid, (hget _ (.of rfl (by omega))).trans hnest,
      honly.trans (herronly.mono (by simp [logCmdFlds])), ?_⟩
    rw [herrframe, hframe]

/-- What LOG_CMD leaves: bit 0 clears the first capture, bit 1 a FATAL whose condition has ended. -/
theorem State.logCmd_effect (c d : Bool) (t : State) (ht : t = (s.onIf c State.firstClear).onIf d State.fatalClear) :
    (c = true → t.flag F.LOG_STATUS_FIRST_VALID = false ∧ t.get F.LOG_NEST_CNT_COUNT = 0) ∧
    (c = false → t.flag F.LOG_STATUS_FIRST_VALID = s.flag F.LOG_STATUS_FIRST_VALID) ∧
    (d = true → s.log.fatalCond = false → t.flag F.LOG_STATUS_FATAL = false) ∧
    changesOnly logCmdFlds s t ∧ t = { s with out := t.out, regs := t.regs } := by
  have hfirst : (c = true → (s.onIf c State.firstClear).flag F.LOG_STATUS_FIRST_VALID = false ∧
        (s.onIf c State.firstClear).get F.LOG_NEST_CNT_COUNT = 0) ∧
      (c = false → (s.onIf c State.firstClear).flag F.LOG_STATUS_FIRST_VALID = s.flag F.LOG_STATUS_FIRST_VALID) ∧
      changesOnly logCmdFlds s (s.onIf c State.firstClear) ∧
      s.onIf c State.firstClear = { s with out := (s.onIf c State.firstClear).out, regs := (s.onIf c State.firstClear).regs } := by
    cases c with
    | false => exact ⟨fun h => absurd h (by decide), fun _ => rfl, .refl _ _, rfl⟩
    | true =>
      obtain ⟨hvalid, hnest, _, honly, hframe⟩ := s.firstClear_effect
      exact ⟨fun _ => ⟨hvalid, hnest⟩, fun h => absurd h (by decide), honly.mono (by simp [logCmdFlds]), hframe⟩
  subst ht
  generalize s.onIf c State.firstClear = u at hfirst ⊢
  obtain ⟨hclear, hkeep, honly, hframe⟩ := hfirst
  cases d with
  | false => exact ⟨hclear, hkeep, fun h => absurd h (by decide), honly, hframe⟩
  | true =>
    obtain ⟨hfatal, hvalid, hnest, hfonly, hfframe⟩ := u.fatalClear_effect
    have hcond : u.log.fatalCond = s.log.fatalCond := (congrArg (fun x : State => x.log.fatalCond) hframe).trans rfl
    refine ⟨fun h => ⟨hvalid.trans (hclear h).1, hnest.trans (hclear h).2⟩, fun h => hvalid.trans (hkeep h),
      fun _ h => hfatal (hcond.trans h), honly.trans hfonly, ?_⟩
    exact hfframe.trans ((congrArg (fun x : State => { x with out := u.fatalClear.out, regs := u.fatalClear.regs }) hframe).trans rfl)

theorem State.pkgCommand_logCmd (a : Nat) (v : Word) :
    s.pkgCommand a R.LOG_CMD v = (s.onIf (wbit v 0) State.firstClear).onIf (wbit v 1) State.fatalClear := rfl

end

theorem leValue_lt (bs : List Byte) : leValue bs < 2 ^ (8 * bs.length) := by
  induction bs with
  | nil => decide
  | cons b bs ih =>
    have hb : b.toNat < 256 := b.isLt
    have hpow : 2 ^ (8 * (b :: bs).length) = 256 * 2 ^ (8 * bs.length) := by
      rw [List.length_cons, Nat.mul_succ, Nat.pow_add, Nat.mul_comm]
    rw [leValue, hpow]
    omega

/-- The bits of the word that four bytes spell. -/
theorem wbit_leValue {bs : List Byte} (h : bs.length = 4) (i : Nat) : wbit (BitVec.ofNat 32 (leValue bs)) i = bitOf (leValue bs) i := by
  have hlt : leValue bs < 2 ^ 32 := by simpa [h] using leValue_lt bs
  rw [wbit, BitVec.toNat_ofNat, Nat.mod_eq_of_lt hlt]

theorem smbusBlockWrite_logCmd (bytes : List (BitVec 8)) (s : State) (hlen : bytes.length = 8) (hoff : leValue (bytes.take 4) = R.LOG_CMD) :
    ∃ t, exec (.smbusBlockWrite bytes) s = .next t ∧ t.smb = R.LOG_CMD ∧
      (leValue (bytes.drop 4) % 2 = 1 → t.flag F.LOG_STATUS_FIRST_VALID = false ∧ t.get F.LOG_NEST_CNT_COUNT = 0) ∧
      (leValue (bytes.drop 4) % 2 = 0 → t.flag F.LOG_STATUS_FIRST_VALID = s.flag F.LOG_STATUS_FIRST_VALID) ∧
      (leValue (bytes.drop 4) / 2 % 2 = 1 → s.log.fatalCond = false → t.flag F.LOG_STATUS_FATAL = false) ∧
      changesOnly logCmdFlds s t ∧ t = { s with out := t.out, regs := t.regs, smb := t.smb } := by
  have hexec : exec (.smbusBlockWrite bytes) s = .next
      (({ s with smb := leValue (bytes.take 4) } : State).pkgCommand s.lcnt (leValue (bytes.take 4)) (BitVec.ofNat 32 (leValue (bytes.drop 4)))) :=
    congrArg Host.Outcome.next ((if_neg (by omega)).trans ((if_pos hlen).trans (if_pos hoff)))
  have hdrop : (bytes.drop 4).length = 4 := by rw [List.length_drop, hlen]
  rw [hoff, State.pkgCommand_logCmd, wbit_leValue hdrop, wbit_leValue hdrop] at hexec
  refine ⟨_, hexec, ?_⟩
  obtain ⟨hclear, hkeep, hfatal, honly, hframe⟩ := State.logCmd_effect { s with smb := R.LOG_CMD } (bitOf (leValue (bytes.drop 4)) 0)
    (bitOf (leValue (bytes.drop 4)) 1) _ rfl
  generalize ((({ s with smb := R.LOG_CMD } : State).onIf _ _).onIf _ _) = t at hclear hkeep hfatal honly hframe ⊢
  have hsmb : t.smb = R.LOG_CMD := (congrArg State.smb hframe).trans rfl
  refine ⟨hsmb, fun h => hclear (by simpa [bitOf] using h), fun h => hkeep (by simpa [bitOf] using h),
    fun h hc => hfatal (by simpa [bitOf] using h) hc, honly, ?_⟩
  rw [hsmb]
  exact hframe

/-! ### Reads by the SMBus target -/

/-- A read changes registers, latches and the transmit queue. -/
theorem State.readWord_frame (s : State) (fn off : Nat) : (s.readWord fn off).2 =
    { s with regs := (s.readWord fn off).2.regs, latch := (s.readWord fn off).2.latch, txq := (s.readWord fn off).2.txq } := by
  unfold State.readWord
  split
  · rfl
  split
  · rw [State.txqRd_frame]
  split
  · unfold State.logRd
    dsimp only
    rw [State.latchWords_frame]
    rfl
  split
  · unfold State.captureRd
    dsimp only
    rw [State.latchWords_frame]
  split
  · rw [State.histRd_frame]
  · unfold State.evRead
    dsimp only
    rw [State.latchWords_frame]
    rfl
  · rw [State.readClear_eq]
  · split
    · rw [State.readClear_eq]
    · rw [State.readClear_eq]
  · rw [State.readClear_eq]
  · rfl
  · rfl

theorem State.smbusWords_frame (n : Nat) : ∀ (s : State) (off : Nat), (s.smbusWords off n).2 =
    { s with regs := (s.smbusWords off n).2.regs, latch := (s.smbusWords off n).2.latch, txq := (s.smbusWords off n).2.txq } := by
  induction n with
  | zero => exact fun _ _ => rfl
  | succ n ih =>
    intro s off
    have hr := s.readWord_frame smbusFn off
    rw [State.smbusWords]
    generalize s.readWord smbusFn off = r at hr ⊢
    dsimp only
    rw [ih r.2 (off + 4), hr]

theorem State.smbusWords_length (n : Nat) : ∀ (s : State) (off : Nat), (s.smbusWords off n).1.length = 4 * n := by
  induction n with
  | zero => exact fun _ _ => rfl
  | succ n ih =>
    intro s off
    rw [State.smbusWords, List.length_append, Tests.leBytes_length, ih]
    omega

/-- A block read starts with the word at the selected offset. -/
theorem State.smbusWords_first (s : State) (off n : Nat) :
    (s.smbusWords off (n + 1)).1.take 4 = leBytes 4 (s.readWord smbusFn off).1.toNat := by
  rw [State.smbusWords]
  exact List.take_left' (Tests.leBytes_length 4 _)

theorem smbusBlockRead_effect (len : Nat) (s : State) : ∃ t bytes, exec (.smbusBlockRead len) s = .next t ∧ t.out = .smbus bytes :: s.out ∧
    bytes.length = min len 32 ∧ t.smb = s.smb ∧ memSame s t ∧ t.pending = s.pending ∧
    (4 ≤ len → bytes.take 4 = leBytes 4 (s.readWord smbusFn s.smb).1.toNat) := by
  have hframe := State.smbusWords_frame ((min len 32 + 3) / 4) s s.smb
  have hlen := State.smbusWords_length ((min len 32 + 3) / 4) s s.smb
  have hfirst : 4 ≤ len → (s.smbusWords s.smb ((min len 32 + 3) / 4)).1.take 4 = leBytes 4 (s.readWord smbusFn s.smb).1.toNat := by
    intro h
    rw [show (min len 32 + 3) / 4 = (min len 32 + 3) / 4 - 1 + 1 by omega]
    exact s.smbusWords_first _ _
  have hexec : exec (.smbusBlockRead len) s = .next ((s.smbusWords s.smb ((min len 32 + 3) / 4)).2.emit
    (.smbus ((s.smbusWords s.smb ((min len 32 + 3) / 4)).1.take (min len 32)))) := rfl
  refine ⟨_, (s.smbusWords s.smb ((min len 32 + 3) / 4)).1.take (min len 32), hexec, ?_⟩
  clear hexec
  generalize s.smbusWords s.smb ((min len 32 + 3) / 4) = r at hframe hlen hfirst ⊢
  refine ⟨congrArg (_ :: ·) ((congrArg State.out hframe).trans rfl), ?_, (congrArg State.smb hframe).trans rfl,
    memSame_of_fields ((congrArg State.store hframe).trans rfl) ((congrArg State.flash hframe).trans rfl),
    (congrArg State.pending hframe).trans rfl, ?_⟩
  · rw [List.length_take, hlen]
    omega
  · intro h
    rw [List.take_take, show min 4 (min len 32) = 4 by omega, hfirst h]

/-! ### The scan port -/

/-- The state that a cycle of TCK leaves. -/
def State.tck (s : State) (tms tdi : Bool) : State :=
  { s.tapAct tdi with tap := { (s.tapAct tdi).tap with st := tapNext s.tap.st tms } }

theorem exec_scanAccess (tms tdi : Bool) (s : State) : exec (.scanAccess tms tdi) s = .next (s.tck tms tdi) := rfl

theorem State.tck_st (s : State) (tms tdi : Bool) : (s.tck tms tdi).tap.st = tapNext s.tap.st tms := rfl

theorem State.tapAct_frame (s : State) (tdi : Bool) : s.tapAct tdi =
    { s with out := (s.tapAct tdi).out, free := (s.tapAct tdi).free, tap := (s.tapAct tdi).tap } := by
  unfold State.tapAct
  dsimp only
  split
  · rfl
  · rfl
  · split <;> rfl
  · rfl
  · split <;> rfl
  · rfl
  · rfl

theorem State.tck_frame (s : State) (tms tdi : Bool) : s.tck tms tdi =
    { s with out := (s.tck tms tdi).out, free := (s.tck tms tdi).free, tap := (s.tck tms tdi).tap } := by
  have h := s.tapAct_frame tdi
  unfold State.tck
  generalize s.tapAct tdi = u at h ⊢
  rw [h]

/-- TMS high leads to Test-Logic-Reset in five cycles from every state, and leaves it there. -/
theorem tapNext_resets (st : Nat) : tapNext (tapNext (tapNext (tapNext (tapNext st true) true) true) true) true = 0 := by
  by_cases h : st < 16
  · interval_cases st <;> rfl
  · have hst : tapNext st true = 2 := by
      unfold tapNext
      split <;> simp_all
    rw [hst]
    rfl

theorem State.tapAct_reset {s : State} (h : s.tap.st = 0) (tdi : Bool) : (s.tapAct tdi).tap.ir = irIdcode := by
  simp only [State.tapAct, h]

theorem State.tapAct_capture {s : State} (h : s.tap.st = 3) (tdi : Bool) : (s.tapAct tdi).tap.drSh = (dataReg s.tap.ir).getD [] := by
  simp only [State.tapAct, h]

theorem State.tapAct_shiftData {s : State} {b : Bool} {rest : List Bool} (h : s.tap.st = 4) (hl : s.tap.drSh = b :: rest) (tdi : Bool) :
    s.tapAct tdi = ({ s with tap := { s.tap with drSh := rest ++ [tdi] } } : State).tdo b := by
  simp only [State.tapAct, h, hl, shiftBit]

theorem State.tapAct_shiftInstr {s : State} {b : Bool} {rest : List Bool} (h : s.tap.st = 11) (hl : s.tap.irSh = b :: rest) (tdi : Bool) :
    s.tapAct tdi = ({ s with tap := { s.tap with irSh := rest ++ [tdi] } } : State).tdo b := by
  simp only [State.tapAct, h, hl, shiftBit]

theorem State.tapAct_update {s : State} (h : s.tap.st = 15) (tdi : Bool) : (s.tapAct tdi).tap.ir = s.tap.irSh := by
  simp only [State.tapAct, h]

/-- Settles O8: LOG_CMD is the only word that the SMBus target writes, a read keeps its offset, and the controller's states are counted
out along the diagram of IEEE 1149.1. -/
theorem managementPortsServe : Obligations.ManagementPortsServe := by
  unfold Obligations.ManagementPortsServe
  refine ⟨fun bytes s => ⟨fun h => ?_, fun h h' => congrArg Host.Outcome.next ((if_neg h).trans (if_neg h')),
    fun h h' => congrArg Host.Outcome.next ((if_neg (by omega)).trans ((if_pos h).trans (if_neg h'))), smbusBlockWrite_logCmd bytes s⟩,
    smbusBlockRead_effect, fun tms tdi s => ⟨_, rfl, rfl, s.tck_frame tms tdi⟩, fun d s => ?_,
    fun tms d s h => ⟨fun hi => ⟨_, exec_scanAccess tms d s, (State.tapAct_capture h d).trans ?_⟩,
      fun hi hall => ⟨_, exec_scanAccess tms d s, (State.tapAct_capture h d).trans ?_⟩⟩,
    fun tms d b rest s => ⟨fun h hl => ⟨_, exec_scanAccess tms d s, ?_⟩, fun h hl => ⟨_, exec_scanAccess tms d s, ?_⟩,
      fun h => ⟨_, exec_scanAccess tms d s, State.tapAct_update h d⟩⟩⟩
  · have htake : bytes.take 4 = bytes := List.take_of_length_le (by omega)
    have hexec : exec (.smbusBlockWrite bytes) s = .next { s with smb := leValue (bytes.take 4) } := congrArg Host.Outcome.next (if_pos h)
    rw [hexec, htake]
  · have hfive := tapNext_resets s.tap.st
    refine ⟨_, _, _, _, _, _, exec_scanAccess true d s, exec_scanAccess true d _, exec_scanAccess true d _, exec_scanAccess true d _,
      exec_scanAccess true d _, exec_scanAccess true d _, hfive, ?_, State.tapAct_reset hfive d⟩
    exact congrArg (tapNext · true) hfive
  · rw [dataReg, if_pos hi]
    rfl
  · rw [dataReg, if_neg hi, if_pos hall]
    rfl
  · rw [State.tck, State.tapAct_shiftData h hl]
    exact ⟨rfl, rfl, rfl⟩
  · rw [State.tck, State.tapAct_shiftInstr h hl]
    exact ⟨rfl, rfl, rfl⟩

end Sys2Proof.Machine
end

section
/-! SUPPORT. What a boundary's operations leave as it is: a pending abort of the calibration runs (Table 14.5), the pending commit (R356),
LCNT and the arming that an image plans (R354). The lemmas are rewriting rules; the operations that end a request say nothing of the commit,
those that take up a core cycle nothing of LCNT, and the one that arms by the plan nothing of the plan. -/

namespace Sys2Proof.Machine

open Sys2Proof.Safety

theorem State.ite_stays (c : Prop) [Decidable c] (a b : State) :
    (if c then a else b : State).cal.abort = (if c then a.cal.abort else b.cal.abort) ∧
    (if c then a else b : State).commit = (if c then a.commit else b.commit) ∧
    (if c then a else b : State).lcnt = (if c then a.lcnt else b.lcnt) ∧
    (if c then a else b : State).armPlan = (if c then a.armPlan else b.armPlan) := by
  split <;> exact ⟨rfl, rfl, rfl, rfl⟩

/-- A loop keeps what each of its steps keeps. -/
theorem State.foldl_same {α β : Type} (p : State → β) (f : State → α → State) (l : List α) (s : State) (h : ∀ t x, p (f t x) = p t) :
    p (l.foldl f s) = p s := by
  induction l generalizing s with
  | nil => rfl
  | cons x xs ih => rw [List.foldl_cons, ih, h]

theorem State.foldl_abort {α : Type} (f : State → α → State) (l : List α) (s : State) (h : ∀ t x, (f t x).cal.abort = t.cal.abort) :
    (l.foldl f s).cal.abort = s.cal.abort := State.foldl_same (fun t => t.cal.abort) f l s h

theorem State.foldl_commit {α : Type} (f : State → α → State) (l : List α) (s : State) (h : ∀ t x, (f t x).commit = t.commit) :
    (l.foldl f s).commit = s.commit := State.foldl_same State.commit f l s h

theorem State.foldl_lcnt {α : Type} (f : State → α → State) (l : List α) (s : State) (h : ∀ t x, (f t x).lcnt = t.lcnt) :
    (l.foldl f s).lcnt = s.lcnt := State.foldl_same State.lcnt f l s h

theorem State.foldl_armPlan {α : Type} (f : State → α → State) (l : List α) (s : State) (h : ∀ t x, (f t x).armPlan = t.armPlan) :
    (l.foldl f s).armPlan = s.armPlan := State.foldl_same State.armPlan f l s h

@[simp] theorem State.at_stays (s : State) (c : Nat) : (s.at_ c).cal.abort = s.cal.abort ∧ (s.at_ c).commit = s.commit ∧
    (s.at_ c).armPlan = s.armPlan := ⟨rfl, rfl, rfl⟩

@[simp] theorem State.put_stays (s : State) (f : Fld) (v : Nat) :
    (s.put f v).cal.abort = s.cal.abort ∧ (s.put f v).commit = s.commit ∧
    (s.put f v).lcnt = s.lcnt ∧ (s.put f v).armPlan = s.armPlan := ⟨rfl, rfl, rfl, rfl⟩

@[simp] theorem State.sput_stays (s : State) (f : Fld) (v : Int) :
    (s.sput f v).cal.abort = s.cal.abort ∧ (s.sput f v).commit = s.commit ∧
    (s.sput f v).lcnt = s.lcnt ∧ (s.sput f v).armPlan = s.armPlan := ⟨rfl, rfl, rfl, rfl⟩

@[simp] theorem State.setF_stays (s : State) (f : Fld) :
    (s.setF f).cal.abort = s.cal.abort ∧ (s.setF f).commit = s.commit ∧ (s.setF f).lcnt = s.lcnt ∧ (s.setF f).armPlan = s.armPlan := ⟨rfl, rfl, rfl, rfl⟩

@[simp] theorem State.clrF_stays (s : State) (f : Fld) :
    (s.clrF f).cal.abort = s.cal.abort ∧ (s.clrF f).commit = s.commit ∧ (s.clrF f).lcnt = s.lcnt ∧ (s.clrF f).armPlan = s.armPlan := ⟨rfl, rfl, rfl, rfl⟩

@[simp] theorem State.putB_stays (s : State) (f : Fld) (b : Bool) :
    (s.putB f b).cal.abort = s.cal.abort ∧ (s.putB f b).commit = s.commit ∧
    (s.putB f b).lcnt = s.lcnt ∧ (s.putB f b).armPlan = s.armPlan := ⟨rfl, rfl, rfl, rfl⟩

@[simp] theorem State.putN_stays (s : State) (off n v : Nat) :
    (s.putN off n v).cal.abort = s.cal.abort ∧ (s.putN off n v).commit = s.commit ∧
    (s.putN off n v).lcnt = s.lcnt ∧ (s.putN off n v).armPlan = s.armPlan := ⟨rfl, rfl, rfl, rfl⟩

@[simp] theorem State.addSat_stays (s : State) (f : Fld) (k : Nat) :
    (s.addSat f k).cal.abort = s.cal.abort ∧ (s.addSat f k).commit = s.commit ∧
    (s.addSat f k).lcnt = s.lcnt ∧ (s.addSat f k).armPlan = s.armPlan := ⟨rfl, rfl, rfl, rfl⟩

@[simp] theorem State.incSat_stays (s : State) (f : Fld) :
    (s.incSat f).cal.abort = s.cal.abort ∧ (s.incSat f).commit = s.commit ∧
    (s.incSat f).lcnt = s.lcnt ∧ (s.incSat f).armPlan = s.armPlan := ⟨rfl, rfl, rfl, rfl⟩

@[simp] theorem State.incWrap_stays (s : State) (f : Fld) :
    (s.incWrap f).cal.abort = s.cal.abort ∧ (s.incWrap f).commit = s.commit ∧
    (s.incWrap f).lcnt = s.lcnt ∧ (s.incWrap f).armPlan = s.armPlan := ⟨rfl, rfl, rfl, rfl⟩

@[simp] theorem State.setChan_stays (s : State) (n : Nat) (v : Chan) :
    (s.setChan n v).cal.abort = s.cal.abort ∧ (s.setChan n v).commit = s.commit ∧
    (s.setChan n v).lcnt = s.lcnt ∧ (s.setChan n v).armPlan = s.armPlan := ⟨rfl, rfl, rfl, rfl⟩

@[simp] theorem State.setChain_stays (s : State) (n : Nat) (v : Chain) :
    (s.setChain n v).cal.abort = s.cal.abort ∧ (s.setChain n v).commit = s.commit ∧
    (s.setChain n v).lcnt = s.lcnt ∧ (s.setChain n v).armPlan = s.armPlan := ⟨rfl, rfl, rfl, rfl⟩

@[simp] theorem State.setDc_stays (s : State) (m : Nat) (v : Dc) :
    (s.setDc m v).cal.abort = s.cal.abort ∧ (s.setDc m v).commit = s.commit ∧
    (s.setDc m v).lcnt = s.lcnt ∧ (s.setDc m v).armPlan = s.armPlan := ⟨rfl, rfl, rfl, rfl⟩

@[simp] theorem State.setIp_stays (s : State) (k : Nat) (v : Ip) :
    (s.setIp k v).cal.abort = s.cal.abort ∧ (s.setIp k v).commit = s.commit ∧
    (s.setIp k v).lcnt = s.lcnt ∧ (s.setIp k v).armPlan = s.armPlan := ⟨rfl, rfl, rfl, rfl⟩

@[simp] theorem State.setGrp_stays (s : State) (g : Nat) (v : Grp) :
    (s.setGrp g v).cal.abort = s.cal.abort ∧ (s.setGrp g v).commit = s.commit ∧
    (s.setGrp g v).lcnt = s.lcnt ∧ (s.setGrp g v).armPlan = s.armPlan := ⟨rfl, rfl, rfl, rfl⟩

@[simp] theorem State.setEv_stays (s : State) (k : Nat) (v : Ev) :
    (s.setEv k v).cal.abort = s.cal.abort ∧ (s.setEv k v).commit = s.commit ∧
    (s.setEv k v).lcnt = s.lcnt ∧ (s.setEv k v).armPlan = s.armPlan := ⟨rfl, rfl, rfl, rfl⟩

@[simp] theorem State.setPort_stays (s : State) (p : Nat) (v : Port) :
    (s.setPort p v).cal.abort = s.cal.abort ∧ (s.setPort p v).commit = s.commit ∧
    (s.setPort p v).lcnt = s.lcnt ∧ (s.setPort p v).armPlan = s.armPlan := ⟨rfl, rfl, rfl, rfl⟩

@[simp] theorem State.setStrm_stays (s : State) (q : Nat) (v : Strm) :
    (s.setStrm q v).cal.abort = s.cal.abort ∧ (s.setStrm q v).commit = s.commit ∧
    (s.setStrm q v).lcnt = s.lcnt ∧ (s.setStrm q v).armPlan = s.armPlan := ⟨rfl, rfl, rfl, rfl⟩

@[simp] theorem State.setHostq_stays (s : State) (q : Nat) (v : HostQ) :
    (s.setHostq q v).cal.abort = s.cal.abort ∧ (s.setHostq q v).commit = s.commit ∧
    (s.setHostq q v).lcnt = s.lcnt ∧ (s.setHostq q v).armPlan = s.armPlan := ⟨rfl, rfl, rfl, rfl⟩

@[simp] theorem State.setPtpPort_stays (s : State) (p : Nat) (v : PtpPort) :
    (s.setPtpPort p v).cal.abort = s.cal.abort ∧ (s.setPtpPort p v).commit = s.commit ∧
    (s.setPtpPort p v).lcnt = s.lcnt ∧ (s.setPtpPort p v).armPlan = s.armPlan := ⟨rfl, rfl, rfl, rfl⟩

@[simp] theorem State.emit_stays (s : State) (o : Out) :
    (s.emit o).cal.abort = s.cal.abort ∧ (s.emit o).commit = s.commit ∧ (s.emit o).lcnt = s.lcnt ∧ (s.emit o).armPlan = s.armPlan := ⟨rfl, rfl, rfl, rfl⟩

@[simp] theorem State.draw_stays (s : State) (w : Nat) :
    (s.draw w).2.cal.abort = s.cal.abort ∧ (s.draw w).2.commit = s.commit ∧
    (s.draw w).2.lcnt = s.lcnt ∧ (s.draw w).2.armPlan = s.armPlan := ⟨rfl, rfl, rfl, rfl⟩

@[simp] theorem State.signal_stays (s : State) (fn vec : Nat) :
    (s.signal fn vec).cal.abort = s.cal.abort ∧ (s.signal fn vec).commit = s.commit ∧
    (s.signal fn vec).lcnt = s.lcnt ∧ (s.signal fn vec).armPlan = s.armPlan := by
  simp [State.signal, State.ite_stays]

@[simp] theorem State.post_stays (s : State) (lc code locus data : Nat) : (s.post lc code locus data).cal.abort = s.cal.abort ∧ (s.post lc code locus data).commit = s.commit ∧ (s.post lc code locus data).lcnt = s.lcnt ∧ (s.post lc code locus data).armPlan = s.armPlan := by
  have h := s.post_eq lc code locus data
  exact ⟨(congrArg (fun t : State => t.cal.abort) h).trans rfl, (congrArg State.commit h).trans rfl, (congrArg State.lcnt h).trans rfl,
    (congrArg State.armPlan h).trans rfl⟩

@[simp] theorem State.stageW_stays (s : State) (w : StW) :
    (s.stageW w).cal.abort = s.cal.abort ∧ (s.stageW w).commit = s.commit ∧
    (s.stageW w).lcnt = s.lcnt ∧ (s.stageW w).armPlan = s.armPlan := ⟨rfl, rfl, rfl, rfl⟩

@[simp] theorem State.takeSpace_stays (s : State) (bits : Nat) :
    (s.takeSpace bits).cal.abort = s.cal.abort ∧ (s.takeSpace bits).commit = s.commit ∧
    (s.takeSpace bits).lcnt = s.lcnt ∧ (s.takeSpace bits).armPlan = s.armPlan := ⟨rfl, rfl, rfl, rfl⟩

@[simp] theorem State.stageBytes_stays (s : State) (g tag addr : Nat) (bs : List Byte) :
    (s.stageBytes g tag addr bs).cal.abort = s.cal.abort ∧ (s.stageBytes g tag addr bs).commit = s.commit ∧
    (s.stageBytes g tag addr bs).lcnt = s.lcnt ∧ (s.stageBytes g tag addr bs).armPlan = s.armPlan := ⟨rfl, rfl, rfl, rfl⟩

@[simp] theorem State.served_stays (s : State) (k n : Nat) :
    (s.served k n).cal.abort = s.cal.abort ∧ (s.served k n).commit = s.commit ∧
    (s.served k n).lcnt = s.lcnt ∧ (s.served k n).armPlan = s.armPlan := ⟨rfl, rfl, rfl, rfl⟩

@[simp] theorem State.showBacklog_stays (s : State) (k : Nat) :
    (s.showBacklog k).cal.abort = s.cal.abort ∧ (s.showBacklog k).commit = s.commit ∧
    (s.showBacklog k).lcnt = s.lcnt ∧ (s.showBacklog k).armPlan = s.armPlan := by
  simp [State.showBacklog]

@[simp] theorem State.unask_stays (s : State) (k key : Nat) :
    (s.unask k key).cal.abort = s.cal.abort ∧ (s.unask k key).commit = s.commit ∧
    (s.unask k key).lcnt = s.lcnt ∧ (s.unask k key).armPlan = s.armPlan := by
  simp [State.unask, State.ite_stays]

@[simp] theorem State.swrite_stays (s : State) (a : Nat) (v : Byte) :
    (s.swrite a v).cal.abort = s.cal.abort ∧ (s.swrite a v).commit = s.commit ∧ (s.swrite a v).lcnt = s.lcnt ∧
    (s.swrite a v).armPlan = s.armPlan := by
  unfold State.swrite
  split <;> exact ⟨rfl, rfl, rfl, rfl⟩

@[simp] theorem State.swrites_stays (s : State) (a : Nat) (bs : List Byte) :
    (s.swrites a bs).cal.abort = s.cal.abort ∧ (s.swrites a bs).commit = s.commit ∧
    (s.swrites a bs).lcnt = s.lcnt ∧ (s.swrites a bs).armPlan = s.armPlan := by
  induction bs generalizing s a with
  | nil => simp [State.swrites]
  | cons x xs ih =>
    simp only [State.swrites]
    simp [ih]

@[simp] theorem State.swriteBits_stays (s : State) (addr n v : Nat) :
    (s.swriteBits addr n v).cal.abort = s.cal.abort ∧ (s.swriteBits addr n v).commit = s.commit ∧
    (s.swriteBits addr n v).lcnt = s.lcnt ∧ (s.swriteBits addr n v).armPlan = s.armPlan := by
  simp [State.swriteBits]

@[simp] theorem State.writeHist_stays (s : State) (i : Nat) (es : List Epoch) :
    (s.writeHist i es).cal.abort = s.cal.abort ∧ (s.writeHist i es).commit = s.commit ∧
    (s.writeHist i es).lcnt = s.lcnt ∧ (s.writeHist i es).armPlan = s.armPlan := by
  induction es generalizing s i with
  | nil => simp [State.writeHist]
  | cons x xs ih =>
    simp only [State.writeHist]
    simp [ih]

@[simp] theorem State.logEpoch_stays (s : State) (e : Epoch) :
    (s.logEpoch e).cal.abort = s.cal.abort ∧ (s.logEpoch e).commit = s.commit ∧
    (s.logEpoch e).lcnt = s.lcnt ∧ (s.logEpoch e).armPlan = s.armPlan := by
  simp [State.logEpoch]

@[simp] theorem State.openEpoch_stays (s : State) (e : Epoch) :
    (s.openEpoch e).cal.abort = s.cal.abort ∧ (s.openEpoch e).commit = s.commit ∧
    (s.openEpoch e).lcnt = s.lcnt ∧ (s.openEpoch e).armPlan = s.armPlan := by
  simp [State.openEpoch]

@[simp] theorem State.holdSnap_stays (s : State) (l : Nat) :
    (s.holdSnap l).cal.abort = s.cal.abort ∧ (s.holdSnap l).commit = s.commit ∧
    (s.holdSnap l).lcnt = s.lcnt ∧ (s.holdSnap l).armPlan = s.armPlan := by
  simp [State.holdSnap]

@[simp] theorem State.snapAgain_stays (s : State) (b : Nat) :
    (s.snapAgain b).cal.abort = s.cal.abort ∧ (s.snapAgain b).commit = s.commit ∧
    (s.snapAgain b).lcnt = s.lcnt ∧ (s.snapAgain b).armPlan = s.armPlan := by
  simp [State.snapAgain, State.ite_stays]

@[simp] theorem State.publishTime_stays (s : State) (b : Nat) :
    (s.publishTime b).cal.abort = s.cal.abort ∧ (s.publishTime b).commit = s.commit ∧
    (s.publishTime b).lcnt = s.lcnt ∧ (s.publishTime b).armPlan = s.armPlan := by
  simp only [State.publishTime]; (repeat' split) <;> simp

@[simp] theorem State.enterHoldover_stays (s : State) :
    s.enterHoldover.cal.abort = s.cal.abort ∧ s.enterHoldover.commit = s.commit ∧
    s.enterHoldover.lcnt = s.lcnt ∧ s.enterHoldover.armPlan = s.armPlan := by
  simp [State.enterHoldover, State.ite_stays]

@[simp] theorem State.refuseJump_stays (s : State) (b : Nat) (theta : Int) :
    (s.refuseJump b theta).cal.abort = s.cal.abort ∧ (s.refuseJump b theta).commit = s.commit ∧
    (s.refuseJump b theta).lcnt = s.lcnt ∧ (s.refuseJump b theta).armPlan = s.armPlan := by
  simp [State.refuseJump, State.ite_stays]

@[simp] theorem State.slew_stays (s : State) (sum : Int) (cnt : Nat) (tEl : Int) :
    (s.slew sum cnt tEl).cal.abort = s.cal.abort ∧ (s.slew sum cnt tEl).commit = s.commit ∧
    (s.slew sum cnt tEl).lcnt = s.lcnt ∧ (s.slew sum cnt tEl).armPlan = s.armPlan := by
  simp [State.slew, State.ite_stays]

@[simp] theorem State.servoUpdate_stays (s : State) (b : Nat) :
    (s.servoUpdate b).cal.abort = s.cal.abort ∧ (s.servoUpdate b).commit = s.commit ∧
    (s.servoUpdate b).lcnt = s.lcnt ∧ (s.servoUpdate b).armPlan = s.armPlan := by
  simp [State.servoUpdate, State.ite_stays]

@[simp] theorem State.servoPorts_stays (s : State) :
    s.servoPorts.cal.abort = s.cal.abort ∧ s.servoPorts.commit = s.commit ∧
    s.servoPorts.lcnt = s.lcnt ∧ s.servoPorts.armPlan = s.armPlan := by
  simp [State.servoPorts, State.ite_stays]

@[simp] theorem State.svcSend_stays (s : State) (b : Nat) :
    (s.svcSend b).cal.abort = s.cal.abort ∧ (s.svcSend b).commit = s.commit ∧
    (s.svcSend b).lcnt = s.lcnt ∧ (s.svcSend b).armPlan = s.armPlan := ⟨rfl, rfl, rfl, rfl⟩

@[simp] theorem State.stageBits_stays (s : State) (paid : Bool) (g tag lpage bit n v : Nat) :
    (s.stageBits paid g tag lpage bit n v).cal.abort = s.cal.abort ∧ (s.stageBits paid g tag lpage bit n v).commit = s.commit ∧
    (s.stageBits paid g tag lpage bit n v).lcnt = s.lcnt ∧ (s.stageBits paid g tag lpage bit n v).armPlan = s.armPlan := by
  simp [State.stageBits, State.ite_stays]

@[simp] theorem State.copyBits_stays (s t : State) (g from_ bitFrom to_ bitTo n : Nat) :
    (s.copyBits t g from_ bitFrom to_ bitTo n).cal.abort = s.cal.abort ∧ (s.copyBits t g from_ bitFrom to_ bitTo n).commit = s.commit ∧
    (s.copyBits t g from_ bitFrom to_ bitTo n).lcnt = s.lcnt ∧ (s.copyBits t g from_ bitFrom to_ bitTo n).armPlan = s.armPlan := by
  simp [State.copyBits]

@[simp] theorem State.addItem_stays (s : State) (g kind num slot mask start : Nat) :
    (s.addItem g kind num slot mask start).cal.abort = s.cal.abort ∧ (s.addItem g kind num slot mask start).commit = s.commit ∧
    (s.addItem g kind num slot mask start).lcnt = s.lcnt ∧ (s.addItem g kind num slot mask start).armPlan = s.armPlan := by
  simp [State.addItem, State.ite_stays]

@[simp] theorem State.showGaps_stays (s : State) (g : Nat) :
    (s.showGaps g).cal.abort = s.cal.abort ∧ (s.showGaps g).commit = s.commit ∧
    (s.showGaps g).lcnt = s.lcnt ∧ (s.showGaps g).armPlan = s.armPlan := by
  simp only [State.showGaps]; (repeat' split) <;> simp

@[simp] theorem State.gapDesc_stays (s : State) (g cause a b mask : Nat) :
    (s.gapDesc g cause a b mask).cal.abort = s.cal.abort ∧ (s.gapDesc g cause a b mask).commit = s.commit ∧
    (s.gapDesc g cause a b mask).lcnt = s.lcnt ∧ (s.gapDesc g cause a b mask).armPlan = s.armPlan := by
  simp [State.gapDesc, State.ite_stays]

@[simp] theorem State.gapTo_stays (s : State) (g upto : Nat) :
    (s.gapTo g upto).cal.abort = s.cal.abort ∧ (s.gapTo g upto).commit = s.commit ∧
    (s.gapTo g upto).lcnt = s.lcnt ∧ (s.gapTo g upto).armPlan = s.armPlan := by
  simp [State.gapTo, State.ite_stays, State.foldl_abort, State.foldl_commit, State.foldl_lcnt, State.foldl_armPlan]

@[simp] theorem State.gapSync_stays (s : State) (g : Nat) :
    (s.gapSync g).cal.abort = s.cal.abort ∧ (s.gapSync g).commit = s.commit ∧
    (s.gapSync g).lcnt = s.lcnt ∧ (s.gapSync g).armPlan = s.armPlan := by
  simp [State.gapSync]

@[simp] theorem State.addLoss_stays (s : State) (g : Nat) (l : Loss) :
    (s.addLoss g l).cal.abort = s.cal.abort ∧ (s.addLoss g l).commit = s.commit ∧
    (s.addLoss g l).lcnt = s.lcnt ∧ (s.addLoss g l).armPlan = s.armPlan := ⟨rfl, rfl, rfl, rfl⟩

@[simp] theorem State.endLoss_stays (s : State) (g cause x : Nat) :
    (s.endLoss g cause x).cal.abort = s.cal.abort ∧ (s.endLoss g cause x).commit = s.commit ∧
    (s.endLoss g cause x).lcnt = s.lcnt ∧ (s.endLoss g cause x).armPlan = s.armPlan := ⟨rfl, rfl, rfl, rfl⟩

@[simp] theorem State.setLoss_stays (s : State) (g x cause mask : Nat) :
    (s.setLoss g x cause mask).cal.abort = s.cal.abort ∧ (s.setLoss g x cause mask).commit = s.commit ∧
    (s.setLoss g x cause mask).lcnt = s.lcnt ∧ (s.setLoss g x cause mask).armPlan = s.armPlan := by
  simp [State.setLoss, State.ite_stays]

@[simp] theorem State.setLossAll_stays (s : State) (x cause mask : Nat) :
    (s.setLossAll x cause mask).cal.abort = s.cal.abort ∧ (s.setLossAll x cause mask).commit = s.commit ∧
    (s.setLossAll x cause mask).lcnt = s.lcnt ∧ (s.setLossAll x cause mask).armPlan = s.armPlan := by
  simp [State.setLossAll, State.foldl_abort, State.foldl_commit, State.foldl_lcnt, State.foldl_armPlan]

@[simp] theorem State.dropEnd_stays (s : State) (g : Nat) :
    (s.dropEnd g).cal.abort = s.cal.abort ∧ (s.dropEnd g).commit = s.commit ∧
    (s.dropEnd g).lcnt = s.lcnt ∧ (s.dropEnd g).armPlan = s.armPlan := by
  simp only [State.dropEnd]; (repeat' split) <;> simp

@[simp] theorem State.showOldest_stays (s : State) (g : Nat) :
    (s.showOldest g).cal.abort = s.cal.abort ∧ (s.showOldest g).commit = s.commit ∧
    (s.showOldest g).lcnt = s.lcnt ∧ (s.showOldest g).armPlan = s.armPlan := by
  simp only [State.showOldest]; (repeat' split) <;> simp

@[simp] theorem State.skipHost_stays (s : State) (q : Nat) :
    (s.skipHost q).cal.abort = s.cal.abort ∧ (s.skipHost q).commit = s.commit ∧
    (s.skipHost q).lcnt = s.lcnt ∧ (s.skipHost q).armPlan = s.armPlan := ⟨rfl, rfl, rfl, rfl⟩

theorem State.exchange_stays (s : State) (g : Nat) (l : List Nat) (t : State) (h : s.exchange g l = some t) : t.cal.abort = s.cal.abort ∧
    t.commit = s.commit ∧ t.lcnt = s.lcnt ∧ t.armPlan = s.armPlan := by
  induction l generalizing s with
  | nil =>
    cases h
    exact ⟨rfl, rfl, rfl, rfl⟩
  | cons x xs ih =>
    rw [State.exchange] at h
    split at h
    · split at h
      · obtain ⟨habort, hcommit, hlcnt, harm⟩ := ih _ h
        exact ⟨habort, hcommit, hlcnt, harm⟩
      · cases h
    · exact ih _ h

@[simp] theorem State.discard_stays (s : State) (g num : Nat) (l : List Nat) :
    (s.discard g num l).cal.abort = s.cal.abort ∧ (s.discard g num l).commit = s.commit ∧
    (s.discard g num l).lcnt = s.lcnt ∧ (s.discard g num l).armPlan = s.armPlan := by
  induction l generalizing s g num with
  | nil => simp [State.discard]
  | cons x xs ih =>
    simp only [State.discard]
    simp [ih, State.ite_stays]

@[simp] theorem State.showPressure_stays (s : State) (g : Nat) :
    (s.showPressure g).cal.abort = s.cal.abort ∧ (s.showPressure g).commit = s.commit ∧
    (s.showPressure g).lcnt = s.lcnt ∧ (s.showPressure g).armPlan = s.armPlan := ⟨rfl, rfl, rfl, rfl⟩

@[simp] theorem State.showPending_stays (s : State) (g : Nat) :
    (s.showPending g).cal.abort = s.cal.abort ∧ (s.showPending g).commit = s.commit ∧
    (s.showPending g).lcnt = s.lcnt ∧ (s.showPending g).armPlan = s.armPlan := by
  simp only [State.showPending]; (repeat' split) <;> simp

@[simp] theorem State.abaDrop_stays (s : State) (g : Nat) (p : AbaJob → Bool) :
    (s.abaDrop g p).cal.abort = s.cal.abort ∧ (s.abaDrop g p).commit = s.commit ∧
    (s.abaDrop g p).lcnt = s.lcnt ∧ (s.abaDrop g p).armPlan = s.armPlan := by
  simp only [State.abaDrop]; (repeat' split) <;> simp

@[simp] theorem State.wrap_stays (s : State) (g l pages fuel : Nat) : (s.wrap g l pages fuel).2.cal.abort = s.cal.abort ∧ (s.wrap g l pages fuel).2.commit = s.commit ∧ (s.wrap g l pages fuel).2.lcnt = s.lcnt ∧ (s.wrap g l pages fuel).2.armPlan = s.armPlan := by
  induction fuel generalizing s with
  | zero => exact ⟨rfl, rfl, rfl, rfl⟩
  | succ n ih =>
    rw [State.wrap]
    dsimp only
    split
    · exact ⟨rfl, rfl, rfl, rfl⟩
    split
    · exact ⟨rfl, rfl, rfl, rfl⟩
    split
    · exact ⟨rfl, rfl, rfl, rfl⟩
    · next s1 hs1 => simp [ih, s.exchange_stays g _ s1 hs1]

@[simp] theorem State.holdFrom_stays (s : State) (g x : Nat) (byPin : Bool) :
    (s.holdFrom g x byPin).cal.abort = s.cal.abort ∧ (s.holdFrom g x byPin).commit = s.commit ∧
    (s.holdFrom g x byPin).lcnt = s.lcnt ∧ (s.holdFrom g x byPin).armPlan = s.armPlan := by
  simp [State.holdFrom]

@[simp] theorem State.holdWatch_stays (s : State) (g : Nat) :
    (s.holdWatch g).cal.abort = s.cal.abort ∧ (s.holdWatch g).commit = s.commit ∧
    (s.holdWatch g).lcnt = s.lcnt ∧ (s.holdWatch g).armPlan = s.armPlan := by
  simp [State.holdWatch, State.ite_stays]

@[simp] theorem State.takeClaim_stays (s : State) (g l : Nat) :
    (s.takeClaim g l).cal.abort = s.cal.abort ∧ (s.takeClaim g l).commit = s.commit ∧
    (s.takeClaim g l).lcnt = s.lcnt ∧ (s.takeClaim g l).armPlan = s.armPlan := by
  simp [State.takeClaim]

@[simp] theorem State.claim_stays (s : State) (g x : Nat) : (s.claim g x).cal.abort = s.cal.abort ∧ (s.claim g x).commit = s.commit ∧ (s.claim g x).lcnt = s.lcnt ∧ (s.claim g x).armPlan = s.armPlan := by
  unfold State.claim
  dsimp only
  (repeat' split) <;> simp

@[simp] theorem State.freeSlot_stays (s : State) (g num : Nat) :
    (s.freeSlot g num).cal.abort = s.cal.abort ∧ (s.freeSlot g num).commit = s.commit ∧
    (s.freeSlot g num).lcnt = s.lcnt ∧ (s.freeSlot g num).armPlan = s.armPlan := by
  simp [State.freeSlot]

@[simp] theorem State.releaseSlot_stays (s : State) (g num : Nat) :
    (s.releaseSlot g num).cal.abort = s.cal.abort ∧ (s.releaseSlot g num).commit = s.commit ∧
    (s.releaseSlot g num).lcnt = s.lcnt ∧ (s.releaseSlot g num).armPlan = s.armPlan := by
  simp only [State.releaseSlot]; (repeat' split) <;> simp

@[simp] theorem State.readerDone_stays (s : State) (g num reader : Nat) :
    (s.readerDone g num reader).cal.abort = s.cal.abort ∧ (s.readerDone g num reader).commit = s.commit ∧
    (s.readerDone g num reader).lcnt = s.lcnt ∧ (s.readerDone g num reader).armPlan = s.armPlan := by
  simp only [State.readerDone]; (repeat' split) <;> simp

@[simp] theorem State.setPins_stays (s : State) (g reader : Nat) (pages : List Nat) :
    (s.setPins g reader pages).cal.abort = s.cal.abort ∧ (s.setPins g reader pages).commit = s.commit ∧
    (s.setPins g reader pages).lcnt = s.lcnt ∧ (s.setPins g reader pages).armPlan = s.armPlan := by
  simp [State.setPins]

@[simp] theorem State.copyWindow_stays (s : State) (g lp x : Nat) :
    (s.copyWindow g lp x).cal.abort = s.cal.abort ∧ (s.copyWindow g lp x).commit = s.commit ∧
    (s.copyWindow g lp x).lcnt = s.lcnt ∧ (s.copyWindow g lp x).armPlan = s.armPlan := by
  simp only [State.copyWindow]; (repeat' split) <;> simp [State.foldl_abort, State.foldl_commit, State.foldl_lcnt, State.foldl_armPlan]

@[simp] theorem State.beginAccept_stays (s : State) (g x : Nat) :
    (s.beginAccept g x).cal.abort = s.cal.abort ∧ (s.beginAccept g x).commit = s.commit ∧
    (s.beginAccept g x).lcnt = s.lcnt ∧ (s.beginAccept g x).armPlan = s.armPlan := by
  simp only [State.beginAccept]; (repeat' split) <;> simp

@[simp] theorem State.startRegion_stays (s : State) (g x : Nat) :
    (s.startRegion g x).cal.abort = s.cal.abort ∧ (s.startRegion g x).commit = s.commit ∧
    (s.startRegion g x).lcnt = s.lcnt ∧ (s.startRegion g x).armPlan = s.armPlan := by
  simp only [State.startRegion]; (repeat' split) <;> simp

@[simp] theorem State.moveBlocks_stays (s : State) (g lpage : Nat) (l0 : Layout) (m0 : Nat) (l1 : Layout) (m1 : Nat) :
    (s.moveBlocks g lpage l0 m0 l1 m1).cal.abort = s.cal.abort ∧ (s.moveBlocks g lpage l0 m0 l1 m1).commit = s.commit ∧
    (s.moveBlocks g lpage l0 m0 l1 m1).lcnt = s.lcnt ∧ (s.moveBlocks g lpage l0 m0 l1 m1).armPlan = s.armPlan := by
  simp [State.moveBlocks, State.ite_stays, State.foldl_abort, State.foldl_commit, State.foldl_lcnt, State.foldl_armPlan]

@[simp] theorem State.moveWindow_stays (s : State) (old : RegTab) (g : Nat) :
    (s.moveWindow old g).cal.abort = s.cal.abort ∧ (s.moveWindow old g).commit = s.commit ∧
    (s.moveWindow old g).lcnt = s.lcnt ∧ (s.moveWindow old g).armPlan = s.armPlan := by
  simp only [State.moveWindow]; (repeat' split) <;> simp

@[simp] theorem State.showSrc_stays (s : State) :
    s.showSrc.cal.abort = s.cal.abort ∧ s.showSrc.commit = s.commit ∧ s.showSrc.lcnt = s.lcnt ∧ s.showSrc.armPlan = s.armPlan := by
  simp [State.showSrc, State.foldl_abort, State.foldl_commit, State.foldl_lcnt, State.foldl_armPlan]

@[simp] theorem State.startTimers_stays (s : State) (n c : Nat) :
    (s.startTimers n c).cal.abort = s.cal.abort ∧ (s.startTimers n c).commit = s.commit ∧
    (s.startTimers n c).lcnt = s.lcnt ∧ (s.startTimers n c).armPlan = s.armPlan := ⟨rfl, rfl, rfl, rfl⟩

@[simp] theorem State.armAt_stays (s : State) (g b : Nat) :
    (s.armAt g b).cal.abort = s.cal.abort ∧ (s.armAt g b).commit = s.commit ∧
    (s.armAt g b).lcnt = s.lcnt ∧ (s.armAt g b).armPlan = s.armPlan := by
  simp [State.armAt, State.ite_stays]

@[simp] theorem State.armApply_stays (s : State) (g b : Nat) :
    (s.armApply g b).cal.abort = s.cal.abort ∧ (s.armApply g b).commit = s.commit ∧
    (s.armApply g b).lcnt = s.lcnt ∧ (s.armApply g b).armPlan = s.armPlan := by
  simp only [State.armApply]; (repeat' split) <;> simp

@[simp] theorem State.stopWrite_stays (s : State) (a g : Nat) :
    (s.stopWrite a g).cal.abort = s.cal.abort ∧ (s.stopWrite a g).commit = s.commit ∧ (s.stopWrite a g).armPlan = s.armPlan := by
  simp [State.stopWrite, State.ite_stays]

@[simp] theorem State.stepFigures_stays (s : State) (n : Nat) :
    (s.stepFigures n).cal.abort = s.cal.abort ∧ (s.stepFigures n).commit = s.commit ∧
    (s.stepFigures n).lcnt = s.lcnt ∧ (s.stepFigures n).armPlan = s.armPlan := ⟨rfl, rfl, rfl, rfl⟩

@[simp] theorem State.stepArray_stays (s : State) (b a : Nat) :
    (s.stepArray b a).cal.abort = s.cal.abort ∧ (s.stepArray b a).commit = s.commit ∧
    (s.stepArray b a).lcnt = s.lcnt ∧ (s.stepArray b a).armPlan = s.armPlan := by
  simp only [State.stepArray]; (repeat' split) <;> simp

@[simp] theorem State.rotTake_stays (s : State) (n b : Nat) :
    (s.rotTake n b).cal.abort = s.cal.abort ∧ (s.rotTake n b).commit = s.commit ∧
    (s.rotTake n b).lcnt = s.lcnt ∧ (s.rotTake n b).armPlan = s.armPlan := by
  simp [State.rotTake, State.foldl_abort, State.foldl_commit, State.foldl_lcnt, State.foldl_armPlan]

@[simp] theorem State.noSpare_stays (s : State) (a : Nat) :
    (s.noSpare a).cal.abort = s.cal.abort ∧ (s.noSpare a).commit = s.commit ∧
    (s.noSpare a).lcnt = s.lcnt ∧ (s.noSpare a).armPlan = s.armPlan := by
  simp [State.noSpare, State.ite_stays, State.foldl_abort, State.foldl_commit, State.foldl_lcnt, State.foldl_armPlan]

@[simp] theorem State.takeSlot_stays (s : State) (a b : Nat) :
    (s.takeSlot a b).cal.abort = s.cal.abort ∧ (s.takeSlot a b).commit = s.commit ∧
    (s.takeSlot a b).lcnt = s.lcnt ∧ (s.takeSlot a b).armPlan = s.armPlan := by
  simp only [State.takeSlot]; (repeat' split) <;> simp

@[simp] theorem State.schedule_stays (s : State) (n b : Nat) :
    (s.schedule n b).cal.abort = s.cal.abort ∧ (s.schedule n b).commit = s.commit ∧
    (s.schedule n b).lcnt = s.lcnt ∧ (s.schedule n b).armPlan = s.armPlan := by
  simp only [State.schedule]; (repeat' split) <;> simp

@[simp] theorem State.rotDecide_stays (s : State) (n b : Nat) :
    (s.rotDecide n b).cal.abort = s.cal.abort ∧ (s.rotDecide n b).commit = s.commit ∧
    (s.rotDecide n b).lcnt = s.lcnt ∧ (s.rotDecide n b).armPlan = s.armPlan := by
  simp [State.rotDecide, State.ite_stays]

@[simp] theorem State.showDue_stays (s : State) (n b : Nat) :
    (s.showDue n b).cal.abort = s.cal.abort ∧ (s.showDue n b).commit = s.commit ∧
    (s.showDue n b).lcnt = s.lcnt ∧ (s.showDue n b).armPlan = s.armPlan := by
  simp only [State.showDue]; (repeat' split) <;> simp

@[simp] theorem State.rotate_stays (s : State) (n b : Nat) :
    (s.rotate n b).cal.abort = s.cal.abort ∧ (s.rotate n b).commit = s.commit ∧
    (s.rotate n b).lcnt = s.lcnt ∧ (s.rotate n b).armPlan = s.armPlan := by
  simp [State.rotate, State.ite_stays, State.foldl_abort, State.foldl_commit, State.foldl_lcnt, State.foldl_armPlan]

@[simp] theorem State.rotStart_stays (s : State) (b : Nat) :
    (s.rotStart b).cal.abort = s.cal.abort ∧ (s.rotStart b).commit = s.commit ∧
    (s.rotStart b).lcnt = s.lcnt ∧ (s.rotStart b).armPlan = s.armPlan := by
  simp [State.rotStart, State.ite_stays, State.foldl_abort, State.foldl_commit, State.foldl_lcnt, State.foldl_armPlan]

@[simp] theorem State.showStrm_stays (s : State) (q : Nat) :
    (s.showStrm q).cal.abort = s.cal.abort ∧ (s.showStrm q).commit = s.commit ∧
    (s.showStrm q).lcnt = s.lcnt ∧ (s.showStrm q).armPlan = s.armPlan := ⟨rfl, rfl, rfl, rfl⟩

@[simp] theorem State.releaseItem_stays (s : State) (q : Nat) (l : Release) :
    (s.releaseItem q l).cal.abort = s.cal.abort ∧ (s.releaseItem q l).commit = s.commit ∧
    (s.releaseItem q l).lcnt = s.lcnt ∧ (s.releaseItem q l).armPlan = s.armPlan := by
  simp only [State.releaseItem]; (repeat' split) <;> simp

@[simp] theorem State.startFrame_stays (s : State) (p : Nat) :
    (s.startFrame p).cal.abort = s.cal.abort ∧ (s.startFrame p).commit = s.commit ∧
    (s.startFrame p).lcnt = s.lcnt ∧ (s.startFrame p).armPlan = s.armPlan := by
  simp only [State.startFrame]; (repeat' split) <;> simp

@[simp] theorem State.sendPkt_stays (s : State) (x : Pkt) :
    (s.sendPkt x).cal.abort = s.cal.abort ∧ (s.sendPkt x).commit = s.commit ∧
    (s.sendPkt x).lcnt = s.lcnt ∧ (s.sendPkt x).armPlan = s.armPlan := by
  simp only [State.sendPkt]; (repeat' split) <;> simp

@[simp] theorem State.resend_stays (s : State) (l : List Pkt) :
    (s.resend l).cal.abort = s.cal.abort ∧ (s.resend l).commit = s.commit ∧
    (s.resend l).lcnt = s.lcnt ∧ (s.resend l).armPlan = s.armPlan := by
  induction l generalizing s with
  | nil => simp [State.resend]
  | cons x xs ih =>
    simp only [State.resend]
    simp [ih, State.ite_stays]

@[simp] theorem State.showSet_stays (s : State) (p : Nat) :
    (s.showSet p).cal.abort = s.cal.abort ∧ (s.showSet p).commit = s.commit ∧
    (s.showSet p).lcnt = s.lcnt ∧ (s.showSet p).armPlan = s.armPlan := by
  simp [State.showSet, State.ite_stays, State.foldl_abort, State.foldl_commit, State.foldl_lcnt, State.foldl_armPlan]

@[simp] theorem State.linkDown_stays (s : State) (p : Nat) :
    (s.linkDown p).cal.abort = s.cal.abort ∧ (s.linkDown p).commit = s.commit ∧
    (s.linkDown p).lcnt = s.lcnt ∧ (s.linkDown p).armPlan = s.armPlan := by
  simp [State.linkDown, State.ite_stays]

@[simp] theorem State.applyDisp_stays (s : State) :
    s.applyDisp.cal.abort = s.cal.abort ∧ s.applyDisp.commit = s.commit ∧
    s.applyDisp.lcnt = s.lcnt ∧ s.applyDisp.armPlan = s.armPlan := ⟨rfl, rfl, rfl, rfl⟩

@[simp] theorem State.unpinLatches_stays (s : State) :
    s.unpinLatches.cal.abort = s.cal.abort ∧ s.unpinLatches.commit = s.commit ∧
    s.unpinLatches.lcnt = s.lcnt ∧ s.unpinLatches.armPlan = s.armPlan := ⟨rfl, rfl, rfl, rfl⟩

@[simp] theorem State.rasterStop_stays (s : State) :
    s.rasterStop.cal.abort = s.cal.abort ∧ s.rasterStop.commit = s.commit ∧
    s.rasterStop.lcnt = s.lcnt ∧ s.rasterStop.armPlan = s.armPlan := by
  simp [State.rasterStop]

@[simp] theorem State.setLoop_stays (s : State) (k : Nat) :
    (s.setLoop k).cal.abort = s.cal.abort ∧ (s.setLoop k).commit = s.commit ∧
    (s.setLoop k).lcnt = s.lcnt ∧ (s.setLoop k).armPlan = s.armPlan := ⟨rfl, rfl, rfl, rfl⟩

@[simp] theorem State.openPllGap_stays (s : State) (c : Nat) :
    (s.openPllGap c).cal.abort = s.cal.abort ∧ (s.openPllGap c).commit = s.commit ∧
    (s.openPllGap c).lcnt = s.lcnt ∧ (s.openPllGap c).armPlan = s.armPlan := by
  simp [State.openPllGap]

@[simp] theorem State.startAcq_stays (s : State) :
    s.startAcq.cal.abort = s.cal.abort ∧ s.startAcq.commit = s.commit ∧ s.startAcq.lcnt = s.lcnt ∧ s.startAcq.armPlan = s.armPlan := by
  simp only [State.startAcq]; (repeat' split) <;> simp

@[simp] theorem State.leaveWait_stays (s : State) :
    s.leaveWait.cal.abort = s.cal.abort ∧ s.leaveWait.commit = s.commit ∧
    s.leaveWait.lcnt = s.lcnt ∧ s.leaveWait.armPlan = s.armPlan := by
  simp [State.leaveWait, State.ite_stays]

@[simp] theorem State.evWrite_stays (s : State) (k : Nat) (l : List (List Byte)) :
    (s.evWrite k l).cal.abort = s.cal.abort ∧ (s.evWrite k l).commit = s.commit ∧
    (s.evWrite k l).lcnt = s.lcnt ∧ (s.evWrite k l).armPlan = s.armPlan := by
  induction l generalizing s k with
  | nil => simp [State.evWrite]
  | cons x xs ih =>
    simp only [State.evWrite]
    simp [ih]

@[simp] theorem State.evTick_stays (s : State) (k : Nat) :
    (s.evTick k).cal.abort = s.cal.abort ∧ (s.evTick k).commit = s.commit ∧
    (s.evTick k).lcnt = s.lcnt ∧ (s.evTick k).armPlan = s.armPlan := by
  simp [State.evTick, State.ite_stays]

@[simp] theorem State.unbindQ_stays (s : State) (q g : Nat) :
    (s.unbindQ q g).cal.abort = s.cal.abort ∧ (s.unbindQ q g).commit = s.commit ∧
    (s.unbindQ q g).lcnt = s.lcnt ∧ (s.unbindQ q g).armPlan = s.armPlan := by
  simp [State.unbindQ, State.ite_stays, State.foldl_abort, State.foldl_commit, State.foldl_lcnt, State.foldl_armPlan]

@[simp] theorem State.captureChan_stays (s : State) (b n : Nat) :
    (s.captureChan b n).cal.abort = s.cal.abort ∧ (s.captureChan b n).commit = s.commit ∧
    (s.captureChan b n).lcnt = s.lcnt ∧ (s.captureChan b n).armPlan = s.armPlan := by
  simp [State.captureChan, State.ite_stays]

@[simp] theorem State.captureDie_stays (s : State) (b : Nat) (r : CalRun) :
    (s.captureDie b r).cal.abort = s.cal.abort ∧ (s.captureDie b r).commit = s.commit ∧
    (s.captureDie b r).lcnt = s.lcnt ∧ (s.captureDie b r).armPlan = s.armPlan := by
  simp [State.captureDie, State.ite_stays, State.foldl_abort, State.foldl_commit, State.foldl_lcnt, State.foldl_armPlan]

@[simp] theorem State.captures_stays (s : State) (b : Nat) : (s.captures b).cal.abort = s.cal.abort ∧ (s.captures b).commit = s.commit ∧ (s.captures b).lcnt = s.lcnt ∧ (s.captures b).armPlan = s.armPlan := by
  refine ⟨State.foldl_abort _ _ s ?_, State.foldl_commit _ _ s ?_, State.foldl_lcnt _ _ s ?_, State.foldl_armPlan _ _ s ?_⟩
  all_goals
    intro t k
    split <;> simp

@[simp] theorem State.calPurge_stays (s : State) (b : Nat) :
    (s.calPurge b).cal.abort = s.cal.abort ∧ (s.calPurge b).commit = s.commit ∧
    (s.calPurge b).lcnt = s.lcnt ∧ (s.calPurge b).armPlan = s.armPlan := ⟨rfl, rfl, rfl, rfl⟩

@[simp] theorem State.firstNum_stays (s : State) (b g : Nat) :
    (s.firstNum b g).cal.abort = s.cal.abort ∧ (s.firstNum b g).commit = s.commit ∧
    (s.firstNum b g).lcnt = s.lcnt ∧ (s.firstNum b g).armPlan = s.armPlan := by
  simp [State.firstNum, State.ite_stays]

@[simp] theorem State.ringGeom_stays (s : State) (g : Nat) :
    (s.ringGeom g).cal.abort = s.cal.abort ∧ (s.ringGeom g).commit = s.commit ∧
    (s.ringGeom g).lcnt = s.lcnt ∧ (s.ringGeom g).armPlan = s.armPlan := by
  simp [State.ringGeom, State.ite_stays]

@[simp] theorem State.armedCommit_stays (s : State) (old : RegTab) (b g : Nat) :
    (s.armedCommit old b g).cal.abort = s.cal.abort ∧ (s.armedCommit old b g).commit = s.commit ∧
    (s.armedCommit old b g).lcnt = s.lcnt ∧ (s.armedCommit old b g).armPlan = s.armPlan := by
  simp [State.armedCommit, State.ite_stays]

@[simp] theorem State.grpCommit_stays (s : State) (old : RegTab) (b g : Nat) :
    (s.grpCommit old b g).cal.abort = s.cal.abort ∧ (s.grpCommit old b g).commit = s.commit ∧
    (s.grpCommit old b g).lcnt = s.lcnt ∧ (s.grpCommit old b g).armPlan = s.armPlan := by
  simp [State.grpCommit]

@[simp] theorem State.srcCommit_stays (s : State) (old : RegTab) (b inHigh : Nat) :
    (s.srcCommit old b inHigh).cal.abort = s.cal.abort ∧ (s.srcCommit old b inHigh).commit = s.commit ∧
    (s.srcCommit old b inHigh).lcnt = s.lcnt ∧ (s.srcCommit old b inHigh).armPlan = s.armPlan := by
  simp [State.srcCommit, State.foldl_abort, State.foldl_commit, State.foldl_lcnt, State.foldl_armPlan]

@[simp] theorem State.chainCommit_stays (s : State) (old : RegTab) (b n : Nat) :
    (s.chainCommit old b n).cal.abort = s.cal.abort ∧ (s.chainCommit old b n).commit = s.commit ∧
    (s.chainCommit old b n).lcnt = s.lcnt ∧ (s.chainCommit old b n).armPlan = s.armPlan := by
  simp [State.chainCommit, State.ite_stays]

@[simp] theorem State.strmDrop_stays (s : State) (old : RegTab) (q : Nat) :
    (s.strmDrop old q).cal.abort = s.cal.abort ∧ (s.strmDrop old q).commit = s.commit ∧
    (s.strmDrop old q).lcnt = s.lcnt ∧ (s.strmDrop old q).armPlan = s.armPlan := by
  simp only [State.strmDrop]; (repeat' split) <;> simp

@[simp] theorem State.strmCommit_stays (s : State) (old : RegTab) (q : Nat) :
    (s.strmCommit old q).cal.abort = s.cal.abort ∧ (s.strmCommit old q).commit = s.commit ∧
    (s.strmCommit old q).lcnt = s.lcnt ∧ (s.strmCommit old q).armPlan = s.armPlan := by
  simp [State.strmCommit, State.ite_stays]

@[simp] theorem State.stmCommit_stays (s : State) (old : RegTab) :
    (s.stmCommit old).cal.abort = s.cal.abort ∧ (s.stmCommit old).commit = s.commit ∧
    (s.stmCommit old).lcnt = s.lcnt ∧ (s.stmCommit old).armPlan = s.armPlan := by
  simp [State.stmCommit, State.ite_stays, State.foldl_abort, State.foldl_commit, State.foldl_lcnt, State.foldl_armPlan]

@[simp] theorem State.ptpCommit_stays (s : State) (old : RegTab) :
    (s.ptpCommit old).cal.abort = s.cal.abort ∧ (s.ptpCommit old).commit = s.commit ∧
    (s.ptpCommit old).lcnt = s.lcnt ∧ (s.ptpCommit old).armPlan = s.armPlan := by
  simp [State.ptpCommit, State.ite_stays, State.foldl_abort, State.foldl_commit, State.foldl_lcnt, State.foldl_armPlan]

@[simp] theorem State.evtCommit_stays (s : State) :
    s.evtCommit.cal.abort = s.cal.abort ∧ s.evtCommit.commit = s.commit ∧
    s.evtCommit.lcnt = s.lcnt ∧ s.evtCommit.armPlan = s.armPlan := by
  simp [State.evtCommit, State.ite_stays, State.foldl_abort, State.foldl_commit, State.foldl_lcnt, State.foldl_armPlan]

@[simp] theorem State.tallyCommit_stays (s : State) :
    s.tallyCommit.cal.abort = s.cal.abort ∧ s.tallyCommit.commit = s.commit ∧
    s.tallyCommit.lcnt = s.lcnt ∧ s.tallyCommit.armPlan = s.armPlan := by
  simp [State.tallyCommit, State.ite_stays]

@[simp] theorem State.dispCommit_stays (s : State) (old : RegTab) (runs : Bool) (words : RegTab) :
    (s.dispCommit old runs words).cal.abort = s.cal.abort ∧ (s.dispCommit old runs words).commit = s.commit ∧
    (s.dispCommit old runs words).lcnt = s.lcnt ∧ (s.dispCommit old runs words).armPlan = s.armPlan := by
  simp [State.dispCommit, State.ite_stays]

@[simp] theorem State.schedFrom_stays (s : State) (old : RegTab) (b : Nat) :
    (s.schedFrom old b).cal.abort = s.cal.abort ∧ (s.schedFrom old b).commit = s.commit ∧
    (s.schedFrom old b).lcnt = s.lcnt ∧ (s.schedFrom old b).armPlan = s.armPlan := by
  simp [State.schedFrom, State.ite_stays]

@[simp] theorem State.result_stays (s : State) (outcome : Nat) (codes : List Nat) :
    (s.result outcome codes).cal.abort = s.cal.abort ∧ (s.result outcome codes).commit = s.commit ∧
    (s.result outcome codes).lcnt = s.lcnt ∧ (s.result outcome codes).armPlan = s.armPlan := ⟨rfl, rfl, rfl, rfl⟩

@[simp] theorem State.settleReq_stays (s : State) :
    s.settleReq.cal.abort = s.cal.abort ∧ s.settleReq.lcnt = s.lcnt ∧ s.settleReq.armPlan = s.armPlan := by
  simp [State.settleReq, State.ite_stays]

@[simp] theorem State.applied_stays (s : State) (b kind w : Nat) (left : List Nat) :
    (s.applied b kind w left).cal.abort = s.cal.abort ∧ (s.applied b kind w left).lcnt = s.lcnt ∧
    (s.applied b kind w left).armPlan = s.armPlan := by
  simp [State.applied, State.foldl_abort, State.foldl_lcnt, State.foldl_armPlan]

@[simp] theorem State.commitFlags_stays (s : State) (c : Commit) (forced : Bool) :
    (s.commitFlags c forced).cal.abort = s.cal.abort ∧ (s.commitFlags c forced).commit = s.commit ∧
    (s.commitFlags c forced).lcnt = s.lcnt ∧ (s.commitFlags c forced).armPlan = s.armPlan := by
  simp [State.commitFlags, State.ite_stays]

@[simp] theorem State.budgetDiff_stays (s : State) (b : Nat) (img : Option Image) (d : Demand) (w : Nat) :
    (s.budgetDiff b img d w).cal.abort = s.cal.abort ∧ (s.budgetDiff b img d w).commit = s.commit ∧
    (s.budgetDiff b img d w).lcnt = s.lcnt ∧ (s.budgetDiff b img d w).armPlan = s.armPlan := by
  simp only [State.budgetDiff]; (repeat' split) <;> simp

@[simp] theorem State.wakeRelease_stays (s : State) :
    s.wakeRelease.cal.abort = s.cal.abort ∧ s.wakeRelease.commit = s.commit ∧
    s.wakeRelease.lcnt = s.lcnt ∧ s.wakeRelease.armPlan = s.armPlan := by
  simp [State.wakeRelease, State.ite_stays]

@[simp] theorem State.setPhase_stays (s : State) (p : Nat) :
    (s.setPhase p).cal.abort = s.cal.abort ∧ (s.setPhase p).commit = s.commit ∧
    (s.setPhase p).lcnt = s.lcnt ∧ (s.setPhase p).armPlan = s.armPlan := by
  simp [State.setPhase, State.ite_stays]

@[simp] theorem State.armSection_stays (s : State) (b : Nat) :
    (s.armSection b).cal.abort = s.cal.abort ∧ (s.armSection b).commit = s.commit ∧ (s.armSection b).lcnt = s.lcnt := by
  simp only [State.armSection]; (repeat' split) <;> simp [State.ite_stays, State.foldl_abort, State.foldl_commit, State.foldl_lcnt]

@[simp] theorem State.mirror_stays (s : State) (typ : Nat) (payload : List Byte) :
    (s.mirror typ payload).cal.abort = s.cal.abort ∧ (s.mirror typ payload).commit = s.commit ∧
    (s.mirror typ payload).lcnt = s.lcnt ∧ (s.mirror typ payload).armPlan = s.armPlan := ⟨rfl, rfl, rfl, rfl⟩

@[simp] theorem State.heartbeat_stays (s : State) (b : Nat) :
    (s.heartbeat b).cal.abort = s.cal.abort ∧ (s.heartbeat b).commit = s.commit ∧
    (s.heartbeat b).lcnt = s.lcnt ∧ (s.heartbeat b).armPlan = s.armPlan := by
  simp [State.heartbeat, State.ite_stays]

@[simp] theorem State.toPrimary_stays (s : State) :
    s.toPrimary.cal.abort = s.cal.abort ∧ s.toPrimary.commit = s.commit ∧
    s.toPrimary.lcnt = s.lcnt ∧ s.toPrimary.armPlan = s.armPlan := by
  simp [State.toPrimary, State.ite_stays]

@[simp] theorem State.toStandby_stays (s : State) :
    s.toStandby.cal.abort = s.cal.abort ∧ s.toStandby.commit = s.commit ∧
    s.toStandby.lcnt = s.lcnt ∧ s.toStandby.armPlan = s.armPlan := by
  simp [State.toStandby]

@[simp] theorem State.stopAll_stays (s : State) (b : Nat) :
    (s.stopAll b).cal.abort = s.cal.abort ∧ (s.stopAll b).commit = s.commit ∧ (s.stopAll b).armPlan = s.armPlan := by
  simp [State.stopAll, State.foldl_abort, State.foldl_commit, State.foldl_armPlan]

@[simp] theorem State.settle_stays (s : State) (b : Nat) (p : PeerState) :
    (s.settle b p).cal.abort = s.cal.abort ∧ (s.settle b p).commit = s.commit ∧ (s.settle b p).armPlan = s.armPlan := by
  simp [State.settle, State.ite_stays]

@[simp] theorem State.cfgDiff_stays (s : State) (b : Nat) (p : PeerState) :
    (s.cfgDiff b p).cal.abort = s.cal.abort ∧ (s.cfgDiff b p).commit = s.commit ∧
    (s.cfgDiff b p).lcnt = s.lcnt ∧ (s.cfgDiff b p).armPlan = s.armPlan := by
  simp [State.cfgDiff, State.ite_stays]

@[simp] theorem State.alone_stays (s : State) :
    s.alone.cal.abort = s.cal.abort ∧ s.alone.commit = s.commit ∧ s.alone.lcnt = s.lcnt ∧ s.alone.armPlan = s.armPlan := by
  simp [State.alone, State.ite_stays]

@[simp] theorem State.countHb_stays (s : State) :
    s.countHb.cal.abort = s.cal.abort ∧ s.countHb.commit = s.commit ∧ s.countHb.lcnt = s.lcnt ∧ s.countHb.armPlan = s.armPlan := by
  simp [State.countHb, State.ite_stays]

@[simp] theorem State.takeGroup_stays (s : State) (b g : Nat) (p : PeerState) (q : PeerGrp) :
    (s.takeGroup b g p q).cal.abort = s.cal.abort ∧ (s.takeGroup b g p q).commit = s.commit ∧
    (s.takeGroup b g p q).lcnt = s.lcnt ∧ (s.takeGroup b g p q).armPlan = s.armPlan := by
  simp [State.takeGroup, State.ite_stays]

@[simp] theorem State.takeoverAt_stays (s : State) (b reason : Nat) (p : PeerState) :
    (s.takeoverAt b reason p).cal.abort = s.cal.abort ∧ (s.takeoverAt b reason p).commit = s.commit ∧
    (s.takeoverAt b reason p).lcnt = s.lcnt ∧ (s.takeoverAt b reason p).armPlan = s.armPlan := by
  simp [State.takeoverAt, State.foldl_abort, State.foldl_commit, State.foldl_lcnt, State.foldl_armPlan]

@[simp] theorem State.takeoverDue_stays (s : State) (b : Nat) :
    (s.takeoverDue b).cal.abort = s.cal.abort ∧ (s.takeoverDue b).commit = s.commit ∧
    (s.takeoverDue b).lcnt = s.lcnt ∧ (s.takeoverDue b).armPlan = s.armPlan := by
  simp only [State.takeoverDue]; (repeat' split) <;> simp

@[simp] theorem State.handoverAt_stays (s : State) (b : Nat) :
    (s.handoverAt b).cal.abort = s.cal.abort ∧ (s.handoverAt b).commit = s.commit ∧ (s.handoverAt b).armPlan = s.armPlan := by
  simp [State.handoverAt, State.ite_stays]

@[simp] theorem State.twinTick_stays (s : State) (b : Nat) :
    (s.twinTick b).cal.abort = s.cal.abort ∧ (s.twinTick b).commit = s.commit ∧ (s.twinTick b).armPlan = s.armPlan := by
  simp only [State.twinTick]; (repeat' split) <;> simp

@[simp] theorem State.budgetReset_stays (s : State) :
    s.budgetReset.cal.abort = s.cal.abort ∧ s.budgetReset.commit = s.commit ∧
    s.budgetReset.lcnt = s.lcnt ∧ s.budgetReset.armPlan = s.armPlan := by
  simp [State.budgetReset, State.foldl_abort, State.foldl_commit, State.foldl_lcnt, State.foldl_armPlan]

@[simp] theorem State.governor_stays (s : State) (b : Nat) :
    (s.governor b).cal.abort = s.cal.abort ∧ (s.governor b).commit = s.commit ∧
    (s.governor b).lcnt = s.lcnt ∧ (s.governor b).armPlan = s.armPlan := by
  simp [State.governor, State.foldl_abort, State.foldl_commit, State.foldl_lcnt, State.foldl_armPlan]

@[simp] theorem State.copyEntries_stays (s : State) (b : Nat) (es : List LogEnt) :
    (s.copyEntries b es).cal.abort = s.cal.abort ∧ (s.copyEntries b es).commit = s.commit ∧
    (s.copyEntries b es).lcnt = s.lcnt ∧ (s.copyEntries b es).armPlan = s.armPlan := by
  induction es generalizing s b with
  | nil => simp [State.copyEntries]
  | cons x xs ih =>
    simp only [State.copyEntries]
    simp [ih]

@[simp] theorem State.logCopyOut_stays (s : State) (b : Nat) :
    (s.logCopyOut b).cal.abort = s.cal.abort ∧ (s.logCopyOut b).commit = s.commit ∧
    (s.logCopyOut b).lcnt = s.lcnt ∧ (s.logCopyOut b).armPlan = s.armPlan := by
  simp only [State.logCopyOut]; (repeat' split) <;> simp

@[simp] theorem State.gapBlocks_stays (s : State) (b : Nat) :
    (s.gapBlocks b).cal.abort = s.cal.abort ∧ (s.gapBlocks b).commit = s.commit ∧
    (s.gapBlocks b).lcnt = s.lcnt ∧ (s.gapBlocks b).armPlan = s.armPlan := by
  simp [State.gapBlocks, State.foldl_abort, State.foldl_commit, State.foldl_lcnt, State.foldl_armPlan]

@[simp] theorem State.stampRings_stays (s : State) :
    s.stampRings.cal.abort = s.cal.abort ∧ s.stampRings.commit = s.commit ∧
    s.stampRings.lcnt = s.lcnt ∧ s.stampRings.armPlan = s.armPlan := by
  simp [State.stampRings, State.foldl_abort, State.foldl_commit, State.foldl_lcnt, State.foldl_armPlan]

@[simp] theorem State.keeperSave_stays (s : State) (b : Nat) :
    (s.keeperSave b).cal.abort = s.cal.abort ∧ (s.keeperSave b).commit = s.commit ∧
    (s.keeperSave b).lcnt = s.lcnt ∧ (s.keeperSave b).armPlan = s.armPlan := ⟨rfl, rfl, rfl, rfl⟩

@[simp] theorem State.tickClose_stays (s : State) (b : Nat) :
    (s.tickClose b).cal.abort = s.cal.abort ∧ (s.tickClose b).commit = s.commit := by
  simp [State.tickClose, State.foldl_abort, State.foldl_commit]

end Sys2Proof.Machine
end

section
/-! SUPPORT. Register writes by access code (R6, R8, R72, R226, R355, R357). -/

namespace Sys2Proof.Machine

open Sys2Proof.Safety

/-! ### One write (Table 0.5) -/

/-- The word has no field that acts at once: nothing but RWS bits can be written. -/
def noneActs (off : Nat) : Prop := (masksAt off).rw = 0 ∧ (masksAt off).w1c = 0 ∧ (masksAt off).wo = 0

theorem State.foldl_eq_self {α : Type} {f : State → α → State} {l : List α} (h : ∀ t, ∀ x ∈ l, f t x = t) (s : State) : l.foldl f s = s := by
  induction l with
  | nil => rfl
  | cons x xs ih => rw [List.foldl_cons, h s x (by simp), ih fun t y hy => h t y (by simp [hy])]

section
variable (s : State)

theorem State.mayWrite_zero (off : Nat) : s.mayWrite 0 off = true := rfl

theorem State.at_self : s.at_ s.lcnt = s := by
  unfold State.at_
  rw [Nat.max_self]

theorem State.rwWord_of_none {off : Nat} (h : (masksAt off).rw = 0) (a : Nat) (v : Word) : s.rwWord a off v = s := if_pos (Or.inl h)

theorem State.w1cWord_of_none {off : Nat} (h : (masksAt off).w1c = 0) (v : Word) : s.w1cWord off v = s := if_pos (Or.inl h)

theorem State.rwsWrite_of_none {l : List (Nat × Word)} (h : ∀ p ∈ l, (masksAt p.1).rws = 0) : s.rwsWrite l = s :=
  if_pos (List.all_eq_true.mpr fun p hp => beq_iff_eq.mpr (h p hp))

theorem State.rwsWrite_of_open {l : List (Nat × Word)} {p : Nat × Word} (hp : p ∈ l) (h : (masksAt p.1).rws ≠ 0) (hopen : s.shadowOpen = true) :
    s.rwsWrite l = l.foldl (fun t p => t.rwsWord p.1 p.2) s := by
  refine (if_neg fun hall => h ?_).trans (if_pos hopen)
  exact beq_iff_eq.mp (List.all_eq_true.mp hall p hp)

theorem State.rwsWrite_of_closed {l : List (Nat × Word)} {p : Nat × Word} (hp : p ∈ l) (h : (masksAt p.1).rws ≠ 0) (hclosed : s.shadowOpen = false) :
    s.rwsWrite l = s.wrIgnored := by
  refine (if_neg fun hall => h ?_).trans (if_neg (by simp [hclosed]))
  exact beq_iff_eq.mp (List.all_eq_true.mp hall p hp)

/-- Words of which only RWS bits can be written reach the shadow set alone. -/
theorem State.writeWords_of_noneActs {l : List (Nat × Word)} (h : ∀ p ∈ l, noneActs p.1) (a : Nat) :
    s.writeWords 0 a l = (s.at_ a).rwsWrite l := by
  have hfilter : l.filter (fun p => (s.at_ a).mayWrite 0 p.1) = l := List.filter_eq_self.mpr fun p _ => State.mayWrite_zero _ p.1
  have hacts : l.foldl (fun t p => (t.rwWord a p.1 p.2).w1cWord p.1 p.2) (s.at_ a) = s.at_ a :=
    State.foldl_eq_self (fun t p hp => by
      obtain ⟨hrw, hw1c, -⟩ := h p hp
      rw [State.rwWord_of_none t hrw, State.w1cWord_of_none t hw1c]) _
  unfold State.writeWords
  dsimp only
  rw [hfilter, hacts]
  exact State.foldl_eq_self (fun t p hp => if_pos (h p hp).2.2) _

theorem State.write4_single {off : Nat} (hb : inBcast off = false) (hlow : isLow off = false) (hhigh : isHigh off = false) (a : Nat) (v : Word) :
    s.write4 0 a off v = s.writeWords 0 a [(off, v)] := by
  unfold State.write4
  simp [hb, hlow, hhigh, State.mayWrite_zero]

theorem exec_write_single {off : Nat} (hb : inBcast off = false) (hlow : isLow off = false) (hhigh : isHigh off = false) (a : Nat) (v : Word) :
    exec (.registerWrite 0 a off v none) s = .next (s.writeWords 0 a [(off, v)]) :=
  congrArg Host.Outcome.next (s.write4_single hb hlow hhigh a v)

/-! ### The shadow set -/

theorem State.shadowOpen_of (hc : s.commit = none) (hv : s.flag F.CFG_VIEW_ACTIVE = false) : s.shadowOpen = true := by
  rw [State.shadowOpen, hc, hv]
  rfl

/-- A word's RWS bits as a write leaves them. -/
def State.staged (s : State) (off : Nat) (v : Word) : Word := mixWord (masksAt off).rws (s.shadowWord off) (rwsValue off (s.shadowWord off) v)

theorem State.rwsWord_staged {off : Nat} (hm : (masksAt off).rws ≠ 0) (hp : portHere s.stagedModes off = true) (v : Word) :
    s.rwsWord off v = { s with shadow := Tab.set s.shadow off (s.staged off v) } := if_neg (by simp [hm, hp])

theorem State.rwsWord_of_absent {off : Nat} (hp : portHere s.stagedModes off = false) (v : Word) : s.rwsWord off v = s := if_pos (Or.inr hp)

theorem State.shadowWord_set (off : Nat) (w : Word) : ({ s with shadow := Tab.set s.shadow off w } : State).shadowWord off = w ∧
    ∀ j, j ≠ off → ({ s with shadow := Tab.set s.shadow off w } : State).shadowWord j = s.shadowWord j :=
  ⟨Tab.get_set_same _ _ _ _, fun _ hj => Tab.get_set_other _ _ _ _ _ hj⟩

/-- A write that is ignored is counted, and flagged while a commit is pending. -/
structure WriteIgnored (s t : State) : Prop where
  count : t.get F.CFG_WR_IGN_CNT_COUNT = min (s.get F.CFG_WR_IGN_CNT_COUNT + 1) (2 ^ 32 - 1)
  pending : s.commit.isSome = true → t.flag F.CFG_STATUS_WR_IGNORED = true ∧ changesOnly [F.CFG_STATUS_WR_IGNORED, F.CFG_WR_IGN_CNT_COUNT] s t
  viewed : s.commit = none → changesOnly [F.CFG_WR_IGN_CNT_COUNT] s t
  frame : t = { s with regs := t.regs }

theorem State.wrIgnored_effect : WriteIgnored s s.wrIgnored := by
  have hcount : (s.incSat F.CFG_WR_IGN_CNT_COUNT).get F.CFG_WR_IGN_CNT_COUNT = min (s.get F.CFG_WR_IGN_CNT_COUNT + 1) (2 ^ 32 - 1) :=
    State.get_incSat_width (w := 32) s (f := F.CFG_WR_IGN_CNT_COUNT) (.of rfl (by omega)) rfl
  by_cases hc : s.commit.isSome = true
  · have heq : s.wrIgnored = (s.incSat F.CFG_WR_IGN_CNT_COUNT).setF F.CFG_STATUS_WR_IGNORED := if_pos hc
    rw [heq]
    exact ⟨(RegTab.fld_setFld_sep _ _ (.of rfl (by omega))).trans hcount,
      fun _ => ⟨RegTab.bit_setFld_one _ (.of rfl (by omega)), .put (.put (.refl _ _) (by simp)) (by simp)⟩,
      fun h => absurd (h ▸ hc) (by simp), rfl⟩
  · have heq : s.wrIgnored = s.incSat F.CFG_WR_IGN_CNT_COUNT := if_neg hc
    rw [heq]
    exact ⟨hcount, fun h => absurd h hc, fun _ => .put (.refl _ _) (by simp), rfl⟩

end

/-! ### Whole registers -/

section
variable {s : State} {off : Nat} (a : Nat) (v : Word)

/-- A register of RWS bits takes a write into the shadow set. -/
theorem write_staged (hacts : noneActs off) (hrws : (masksAt off).rws ≠ 0) (hport : portHere s.stagedModes off = true)
    (hopen : s.shadowOpen = true) : ∃ t, s.writeWords 0 a [(off, v)] = t ∧ t.shadowWord off = s.staged off v ∧ t.regs = s.regs ∧
    (∀ j, j ≠ off → t.shadowWord j = s.shadowWord j) ∧ t = { s with lcnt := max s.lcnt a, shadow := t.shadow } := by
  have heq : s.writeWords 0 a [(off, v)] = { s.at_ a with shadow := Tab.set s.shadow off (s.staged off v) } := by
    rw [s.writeWords_of_noneActs (by simpa using hacts), (s.at_ a).rwsWrite_of_open List.mem_cons_self hrws hopen]
    exact (s.at_ a).rwsWord_staged hrws hport v
  obtain ⟨hsame, hother⟩ := (s.at_ a).shadowWord_set off (s.staged off v)
  exact ⟨_, heq, hsame, rfl, hother, rfl⟩

/-- The registers of a lane that is no port take none. -/
theorem write_absent (hacts : noneActs off) (hrws : (masksAt off).rws ≠ 0) (hport : portHere s.stagedModes off = false)
    (hopen : s.shadowOpen = true) : s.writeWords 0 a [(off, v)] = s.at_ a := by
  rw [s.writeWords_of_noneActs (by simpa using hacts), (s.at_ a).rwsWrite_of_open List.mem_cons_self hrws hopen]
  exact (s.at_ a).rwsWord_of_absent hport v

/-- A frozen shadow set ignores the write. -/
theorem write_frozen {l : List (Nat × Word)} {p : Nat × Word} (hacts : ∀ p ∈ l, noneActs p.1) (hp : p ∈ l) (hrws : (masksAt p.1).rws ≠ 0)
    (hopen : s.shadowOpen = false) : s.writeWords 0 a l = (s.at_ a).wrIgnored := by
  rw [s.writeWords_of_noneActs hacts, (s.at_ a).rwsWrite_of_closed hp hrws hopen]

/-- The word is one whose RW bits act with no more effect than their own. -/
def plainRw (off : Nat) : Prop := off ≠ R.TIME_CTRL ∧ off ≠ R.GLOBAL_WAKE_CTRL ∧ (off < 0x300000 ∨ 0x330000 ≤ off) ∧
  (off < 0xA00000 ∨ 0xC00000 ≤ off) ∧ (off < R.TIME_STAGE ∨ R.TIME_STAGE_CMD ≤ off)

theorem State.rwWord_plain (s : State) (hrw : (masksAt off).rw ≠ 0) (hport : portHere s.regs off = true) (hplain : plainRw off) :
    s.rwWord a off v = { s with regs := Tab.set s.regs off (mixWord (masksAt off).rw (s.word off) v) } := by
  obtain ⟨htime, hwake, hflt, hdma, hstage⟩ := hplain
  unfold State.rwWord
  dsimp only
  rw [if_neg (by simp [hrw, hport]), if_neg (by omega), if_neg (by omega), if_neg (by omega), if_neg htime, if_neg hwake]

/-- A register of RW bits takes a write at once. -/
theorem write_plain (hrw : (masksAt off).rw ≠ 0) (hrws : (masksAt off).rws = 0) (hw1c : (masksAt off).w1c = 0) (hwo : (masksAt off).wo = 0)
    (hport : portHere s.regs off = true) (hplain : plainRw off) :
    s.writeWords 0 a [(off, v)] = { s.at_ a with regs := Tab.set s.regs off (mixWord (masksAt off).rw (s.word off) v) } := by
  have hfilter : [(off, v)].filter (fun p => (s.at_ a).mayWrite 0 p.1) = [(off, v)] := rfl
  unfold State.writeWords
  dsimp only
  rw [hfilter, List.foldl_cons, List.foldl_nil, List.foldl_cons, List.foldl_nil]
  dsimp only
  rw [if_pos hwo, (s.at_ a).rwWord_plain a v hrw hport hplain, State.w1cWord_of_none _ hw1c]
  exact State.rwsWrite_of_none _ (by simpa using hrws)

end

/-! ### W1C bits -/

/-- A register of W1C bits, beside the relay drivers and the excitation's retained faults. -/
theorem State.w1cWord_clears (s : State) {off : Nat} {v : Word} (hrly : off ≠ R.SVC_RLY_OC)
    (hexc : off < 0xD90000 ∨ 0xD90C00 ≤ off ∨ v.toNat / 2 % 2 = 0) (hw1c : (masksAt off).w1c ≠ 0) (hport : portHere s.regs off = true) :
    s.w1cWord off v = { s with regs := Tab.set s.regs off (s.word off &&& ~~~(v &&& BitVec.ofNat 32 (masksAt off).w1c)) } := by
  have hlog : ¬(0xD90000 ≤ off ∧ off < 0xD90C00 ∧ off % 0x40 = 8 ∧ bitOf v.toNat 1 = true) := by
    rintro ⟨h1, h2, -, hbit⟩
    simp only [bitOf, beq_iff_eq] at hbit
    omega
  unfold State.w1cWord
  dsimp only
  rw [if_neg (by simp [hw1c, hport]), if_neg hrly, if_neg hlog]

/-- A word of the active set is written. -/
theorem State.word_setRegs (s : State) (off : Nat) (w : Word) : ({ s with regs := Tab.set s.regs off w } : State).word off = w ∧
    ∀ j, j ≠ off → ({ s with regs := Tab.set s.regs off w } : State).word j = s.word j :=
  ⟨Tab.get_set_same _ _ _ _, fun _ hj => Tab.get_set_other _ _ _ _ _ hj⟩

/-! ### Halves of a 64-bit register (R226) -/

/-- The lane modes' word is no neighbour of a register of ports. -/
theorem portHere_next {s : State} {off : Nat} {w : Word} (hport : portHere s.stagedModes (off + 4) = true) :
    portHere ({ s with shadow := Tab.set s.shadow off w } : State).stagedModes (off + 4) = true := by
  by_cases hoff : off = R.STM_LG_MODE
  · rw [portHere, portOff, if_neg (by rw [hoff]; decide), if_neg (by rw [hoff]; decide)]
  · have hmodes : ({ s with shadow := Tab.set s.shadow off w } : State).stagedModes = s.stagedModes := by
      rw [State.stagedModes, State.stagedModes, (s.shadowWord_set off w).2 _ (Ne.symm hoff)]
    rw [hmodes]
    exact hport

section
variable (s : State) {off : Nat}

/-- The low half of a register of RW or RWS bits is held for the writer. -/
theorem halfWrite_low (hb : inBcast off = false) (hlow : isLow off = true) (hrw : hasRw off = true) (v : Word) :
    exec (.halfWrite 0 off v) s = .next (s.setHeld 0 off (some v)) := by
  refine (congrArg Host.Outcome.next (if_pos (Or.inl hlow))).trans (congrArg Host.Outcome.next ?_)
  show s.write4 0 s.lcnt off v = _
  unfold State.write4
  simp [hb, hlow, hrw, State.mayWrite_zero]

theorem State.heldLow_setHeld (v : Option Word) : (s.setHeld 0 off v).heldLow 0 off = v := Tab.get_set_same _ _ _ _

/-- The high half writes both. -/
theorem halfWrite_high {l : Word} (hb : inBcast (off + 4) = false) (hlow : isLow (off + 4) = false) (hhigh : isHigh (off + 4) = true)
    (hrw : hasRw (off + 4) = true) (hheld : s.heldLow 0 off = some l) (v : Word) : exec (.halfWrite 0 (off + 4) v) s =
    .next ((s.setHeld 0 off none).writeWords 0 s.lcnt [(off, l), (off + 4, v)]) := by
  refine (congrArg Host.Outcome.next (if_pos (Or.inr hhigh))).trans (congrArg Host.Outcome.next ?_)
  show s.write4 0 s.lcnt (off + 4) v = _
  unfold State.write4
  simp [hb, hlow, hhigh, hrw, hheld, State.mayWrite_zero, Nat.add_sub_cancel]

/-- Two words of RWS bits enter the shadow set in one write. -/
theorem write_staged_pair {v w : Word} (hl : noneActs off) (hh : noneActs (off + 4)) (hlrws : (masksAt off).rws ≠ 0)
    (hhrws : (masksAt (off + 4)).rws ≠ 0) (hlport : portHere s.stagedModes off = true) (hhport : portHere s.stagedModes (off + 4) = true)
    (hopen : s.shadowOpen = true) : s.writeWords 0 s.lcnt [(off, v), (off + 4, w)] =
    { s with shadow := Tab.set (Tab.set s.shadow off (s.staged off v)) (off + 4) (s.staged (off + 4) w) } := by
  have hsame : ({ s with shadow := Tab.set s.shadow off (s.staged off v) } : State).staged (off + 4) w = s.staged (off + 4) w := by
    rw [State.staged, (s.shadowWord_set off _).2 _ (by omega)]
    rfl
  rw [s.writeWords_of_noneActs (by simp [hl, hh]), s.at_self, s.rwsWrite_of_open List.mem_cons_self hlrws hopen, List.foldl_cons,
    List.foldl_cons, List.foldl_nil, s.rwsWord_staged hlrws hlport, State.rwsWord_staged _ hhrws (portHere_next hhport), hsame]

end

/-! ### The broadcast window (R72) -/

section
variable (s : State) (off : Nat)

/-- The word of channel n's block that the window's word stands for. -/
def bcastOff (off n : Nat) : Nat := off - 0x31000 + 0x1000 * n

theorem State.bcast_eq (hb : inBcast off = true) : s.bcast off = (bitsSet 48 (s.getN R.FLT_BCAST_MASK 2)).map (bcastOff off) := by
  simp only [inBcast, Bool.and_eq_true, decide_eq_true_eq] at hb
  refine List.map_congr_left fun n _ => ?_
  unfold bcastOff
  omega

/-- A register of the filters is no register of ports, and no class word of the log. -/
theorem bcast_plain (hb : inBcast off = true) {n : Nat} (hn : n < 48) (t : State) (v : Word) :
    portHere t.stagedModes (bcastOff off n) = true ∧ t.staged (bcastOff off n) v =
      mixWord (masksAt (bcastOff off n)).rws (t.shadowWord (bcastOff off n)) v := by
  simp only [inBcast, Bool.and_eq_true, decide_eq_true_eq] at hb
  have hrange : 0x300000 ≤ bcastOff off n ∧ bcastOff off n < 0x331000 := by
    unfold bcastOff
    omega
  constructor
  · rw [portHere, portOff, if_neg (by omega), if_neg (by omega)]
  · rw [State.staged, rwsValue, if_neg (by omega)]

/-- The masked channels' words enter the shadow set; the others stay. -/
theorem State.rwsWords_bcast (hb : inBcast off = true) (v : Word) (l : List Nat) (hl : ∀ n ∈ l, n < 48) (hnodup : l.Nodup)
    (hrws : ∀ n ∈ l, (masksAt (bcastOff off n)).rws ≠ 0) (t : State)
    (ht : t = (l.map fun n => (bcastOff off n, v)).foldl (fun u p => u.rwsWord p.1 p.2) s) :
    (∀ n ∈ l, t.shadowWord (bcastOff off n) = mixWord (masksAt (bcastOff off n)).rws (s.shadowWord (bcastOff off n)) v) ∧
    (∀ j, (∀ n ∈ l, j ≠ bcastOff off n) → t.shadowWord j = s.shadowWord j) ∧ t = { s with shadow := t.shadow } := by
  induction l generalizing s with
  | nil =>
    subst ht
    exact ⟨fun _ h => absurd h List.not_mem_nil, fun _ _ => rfl, rfl⟩
  | cons x xs ih =>
    obtain ⟨hport, hvalue⟩ := bcast_plain off hb (hl x (by simp)) s v
    rw [List.map_cons, List.foldl_cons, s.rwsWord_staged (hrws x (by simp)) hport, hvalue] at ht
    obtain ⟨hsame, hother⟩ := s.shadowWord_set (bcastOff off x) (mixWord (masksAt (bcastOff off x)).rws (s.shadowWord (bcastOff off x)) v)
    obtain ⟨hin, hout, hframe⟩ := ih _ (fun n h => hl n (by simp [h])) (List.nodup_cons.mp hnodup).2 (fun n h => hrws n (by simp [h])) ht
    have hne : ∀ n ∈ xs, bcastOff off x ≠ bcastOff off n := by
      intro n hn heq
      have : x = n := by
        unfold bcastOff at heq
        omega
      exact (List.nodup_cons.mp hnodup).1 (this ▸ hn)
    refine ⟨fun n hn => ?_, fun j hj => ?_, hframe⟩
    · rcases List.mem_cons.mp hn with rfl | hn
      · rw [hout _ hne, hsame]
      · rw [hin n hn, hother _ (Ne.symm (hne n hn))]
    · rw [hout j fun n hn => hj n (by simp [hn]), hother j (hj x (by simp))]

end

/-! ### O6 -/

/-- A write of a whole register of RWS bits. -/
theorem registerWrite_rws (a off : Nat) (v : BitVec 32) (s : State) (hlow : isLow off = false) (hhigh : isHigh off = false)
    (hb : inBcast off = false) (hacts : noneActs off) (hrws : (masksAt off).rws ≠ 0) :
    (s.commit = none → s.flag F.CFG_VIEW_ACTIVE = false → portHere s.stagedModes off = true → ∃ t,
      exec (.registerWrite 0 a off v none) s = .next t ∧
      t.shadowWord off = mixWord (masksAt off).rws (s.shadowWord off) (rwsValue off (s.shadowWord off) v) ∧ t.regs = s.regs ∧
      (∀ j, j ≠ off → t.shadowWord j = s.shadowWord j) ∧ t = { s with lcnt := max s.lcnt a, shadow := t.shadow }) ∧
    (s.commit = none → s.flag F.CFG_VIEW_ACTIVE = false → portHere s.stagedModes off = false →
      exec (.registerWrite 0 a off v none) s = .next (s.at_ a)) ∧
    (s.commit.isSome = true → ∃ t, exec (.registerWrite 0 a off v none) s = .next t ∧ t.flag F.CFG_STATUS_WR_IGNORED = true ∧
      t.get F.CFG_WR_IGN_CNT_COUNT = min (s.get F.CFG_WR_IGN_CNT_COUNT + 1) (2 ^ 32 - 1) ∧
      changesOnly [F.CFG_STATUS_WR_IGNORED, F.CFG_WR_IGN_CNT_COUNT] s t ∧ t = { s with lcnt := max s.lcnt a, regs := t.regs }) ∧
    (s.commit = none → s.flag F.CFG_VIEW_ACTIVE = true → ∃ t, exec (.registerWrite 0 a off v none) s = .next t ∧
      t.get F.CFG_WR_IGN_CNT_COUNT = min (s.get F.CFG_WR_IGN_CNT_COUNT + 1) (2 ^ 32 - 1) ∧
      changesOnly [F.CFG_WR_IGN_CNT_COUNT] s t ∧ t = { s with lcnt := max s.lcnt a, regs := t.regs }) := by
  have hexec := exec_write_single s hb hlow hhigh a v
  have hfrozen : s.shadowOpen = false → exec (.registerWrite 0 a off v none) s = .next (s.at_ a).wrIgnored := fun hopen =>
    hexec.trans (congrArg Host.Outcome.next (write_frozen a (by simpa using hacts) List.mem_cons_self hrws hopen))
  obtain ⟨hcount, hpending, hviewed, hframe⟩ := (s.at_ a).wrIgnored_effect
  refine ⟨fun hc hv hp => ?_, fun hc hv hp => hexec.trans (congrArg Host.Outcome.next (write_absent a v hacts hrws hp (s.shadowOpen_of hc hv))),
    fun hc => ?_, fun hc hv => ?_⟩
  · obtain ⟨t, ht, hword⟩ := write_staged a v hacts hrws hp (s.shadowOpen_of hc hv)
    exact ⟨t, hexec.trans (congrArg Host.Outcome.next ht), hword⟩
  · have hclosed : s.shadowOpen = false := by
      rw [State.shadowOpen, Option.isNone_eq_false_iff.mpr hc, Bool.false_and]
    exact ⟨_, hfrozen hclosed, (hpending hc).1, hcount, (hpending hc).2, hframe⟩
  · have hclosed : s.shadowOpen = false := by
      rw [State.shadowOpen, hv, Bool.not_true, Bool.and_false]
    exact ⟨_, hfrozen hclosed, hcount, hviewed hc, hframe⟩

/-- A W1C bit clears by a 1. -/
theorem w1cClear_effect (off : Nat) (v : BitVec 32) (s : State) (hrly : off ≠ R.SVC_RLY_OC)
    (hexc : off < 0xD90000 ∨ 0xD90C00 ≤ off ∨ v.toNat / 2 % 2 = 0) :
    ((masksAt off).w1c = 0 ∨ portHere s.regs off = false → exec (.w1cClear 0 off v) s = .next s) ∧
    ((masksAt off).w1c ≠ 0 → portHere s.regs off = true → ∃ t, exec (.w1cClear 0 off v) s = .next t ∧
      t.word off = s.word off &&& ~~~(v &&& BitVec.ofNat 32 (masksAt off).w1c) ∧ (∀ j, j ≠ off → t.word j = s.word j) ∧
      t = { s with regs := t.regs }) := by
  have hexec : exec (.w1cClear 0 off v) s = .next (s.w1cWord off v) := congrArg Host.Outcome.next (if_pos (s.mayWrite_zero off))
  refine ⟨fun h => hexec.trans (congrArg Host.Outcome.next (if_pos h)), fun hw1c hport => ?_⟩
  rw [s.w1cWord_clears hrly hexc hw1c hport] at hexec
  obtain ⟨hsame, hother⟩ := s.word_setRegs off (s.word off &&& ~~~(v &&& BitVec.ofNat 32 (masksAt off).w1c))
  exact ⟨_, hexec, hsame, hother, rfl⟩

/-- Two half writes put a register of RWS bits into the shadow set as one. -/
theorem halfWrites_staged (off : Nat) (v w : BitVec 32) (s : State) (hlow : isLow off = true) (hhigh : isHigh (off + 4) = true)
    (hlow4 : isLow (off + 4) = false) (hb : inBcast off = false) (hb4 : inBcast (off + 4) = false)
    (hmask : ∀ o ∈ [off, off + 4], (masksAt o).rw = 0 ∧ (masksAt o).rws ≠ 0 ∧ (masksAt o).w1c = 0 ∧ (masksAt o).wo = 0)
    (hport : portHere s.stagedModes off = true) (hport4 : portHere s.stagedModes (off + 4) = true) (hc : s.commit = none)
    (hv : s.flag F.CFG_VIEW_ACTIVE = false) : ∃ t u, exec (.halfWrite 0 off v) s = .next t ∧
      t = { s with held := t.held } ∧ exec (.halfWrite 0 (off + 4) w) t = .next u ∧
      u.shadowWord off = mixWord (masksAt off).rws (s.shadowWord off) (rwsValue off (s.shadowWord off) v) ∧
      u.shadowWord (off + 4) =
        mixWord (masksAt (off + 4)).rws (s.shadowWord (off + 4)) (rwsValue (off + 4) (s.shadowWord (off + 4)) w) ∧
      u = { s with held := u.held, shadow := u.shadow } := by
  obtain ⟨⟨hrw, hrws, hw1c, hwo⟩, hrw4, hrws4, hw1c4, hwo4⟩ : _ ∧ _ := ⟨hmask off (by simp), hmask (off + 4) (by simp)⟩
  have hhas : ∀ o, (masksAt o).rws ≠ 0 → hasRw o = true := fun o h => by simp [hasRw, h]
  have hsecond := halfWrite_high (s.setHeld 0 off (some v)) hb4 hlow4 hhigh (hhas _ hrws4) (s.heldLow_setHeld (some v)) w
  have hpair := write_staged_pair (v := v) (w := w) ((s.setHeld 0 off (some v)).setHeld 0 off none) ⟨hrw, hw1c, hwo⟩ ⟨hrw4, hw1c4, hwo4⟩
    hrws hrws4 hport hport4 (s.shadowOpen_of hc hv)
  replace hsecond := hsecond.trans (congrArg Host.Outcome.next hpair)
  refine ⟨_, _, halfWrite_low s hb hlow (hhas _ hrws) v, rfl, hsecond, ?_, ?_, rfl⟩
  · exact (Tab.get_set_other _ _ _ _ _ (by omega)).trans (Tab.get_set_same _ _ _ _)
  · exact Tab.get_set_same _ _ _ _

/-- A broadcast write reaches the shadow words of the masked channels. -/
theorem bcastWrite_staged (off : Nat) (v : BitVec 32) (s : State) (hb : inBcast off = true) (hc : s.commit = none)
    (hv : s.flag F.CFG_VIEW_ACTIVE = false)
    (hmask : ∀ n < 48, ∀ m, m = masksAt (off - 0x31000 + 0x1000 * n) → m.rw = 0 ∧ m.rws ≠ 0 ∧ m.w1c = 0 ∧ m.wo = 0) : ∃ t,
      exec (.fltBcastWrite off v) s = .next t ∧
      (∀ n < 48, bitOf (s.getN R.FLT_BCAST_MASK 2) n = true → t.shadowWord (off - 0x31000 + 0x1000 * n) =
        mixWord (masksAt (off - 0x31000 + 0x1000 * n)).rws (s.shadowWord (off - 0x31000 + 0x1000 * n)) v) ∧
      (∀ j, (∀ n < 48, bitOf (s.getN R.FLT_BCAST_MASK 2) n = true → j ≠ off - 0x31000 + 0x1000 * n) →
        t.shadowWord j = s.shadowWord j) ∧ t = { s with shadow := t.shadow } := by
  have hlt : ∀ n ∈ bitsSet 48 (s.getN R.FLT_BCAST_MASK 2), n < 48 := fun n h => bitsSet_lt h
  have hmem : ∀ n < 48, bitOf (s.getN R.FLT_BCAST_MASK 2) n = true → n ∈ bitsSet 48 (s.getN R.FLT_BCAST_MASK 2) := fun n hn h =>
    List.mem_filter.mpr ⟨List.mem_range.mpr hn, h⟩
  have hbit : ∀ n ∈ bitsSet 48 (s.getN R.FLT_BCAST_MASK 2), bitOf (s.getN R.FLT_BCAST_MASK 2) n = true := fun n h => (List.mem_filter.mp h).2
  have hnodup : (bitsSet 48 (s.getN R.FLT_BCAST_MASK 2)).Nodup := List.nodup_range.filter _
  have hexec : exec (.fltBcastWrite off v) s = .next (s.writeWords 0 s.lcnt ((s.bcast off).map (fun o => (o, v)))) :=
    congrArg Host.Outcome.next (if_pos hb)
  rw [s.bcast_eq off hb, List.map_map] at hexec
  generalize bitsSet 48 (s.getN R.FLT_BCAST_MASK 2) = l at *
  have hrws : ∀ n ∈ l, (masksAt (bcastOff off n)).rws ≠ 0 := fun n h => (hmask n (hlt n h) _ rfl).2.1
  have hacts : ∀ p ∈ l.map ((fun o => (o, v)) ∘ bcastOff off), noneActs p.1 := by
    intro p hp
    obtain ⟨n, hn, rfl⟩ := List.mem_map.mp hp
    obtain ⟨hrw, -, hw1c, hwo⟩ := hmask n (hlt n hn) _ rfl
    exact ⟨hrw, hw1c, hwo⟩
  have hwrite : s.writeWords 0 s.lcnt (l.map ((fun o => (o, v)) ∘ bcastOff off)) =
      (l.map fun n => (bcastOff off n, v)).foldl (fun u p => u.rwsWord p.1 p.2) s := by
    rw [s.writeWords_of_noneActs hacts, s.at_self]
    cases l with
    | nil => rfl
    | cons x xs => exact s.rwsWrite_of_open (p := (bcastOff off x, v)) (by simp) (hrws x (by simp)) (s.shadowOpen_of hc hv)
  rw [hwrite] at hexec
  obtain ⟨hin, hout, hframe⟩ := s.rwsWords_bcast off hb v l hlt hnodup hrws _ rfl
  exact ⟨_, hexec, fun n hn h => hin n (hmem n hn h), fun j hj => hout j fun n hn => hj n (hlt n hn) (hbit n hn), hframe⟩

/-- An empty mask selects no channel. -/
theorem bitsSet_of_mod_zero {n m : Nat} (h : m % 2 ^ n = 0) : bitsSet n m = [] := by
  refine List.filter_eq_nil_iff.mpr fun k hk => ?_
  have hbit := bitOf_mod (m := m) (List.mem_range.mp hk)
  rw [h] at hbit
  rw [← hbit]
  simp [bitOf]

theorem bcastWrite_unmasked (off : Nat) (v : BitVec 32) (s : State) (hb : inBcast off = true)
    (hmask : s.getN R.FLT_BCAST_MASK 2 % 2 ^ 48 = 0) : exec (.fltBcastWrite off v) s = .next s := by
  have hexec : exec (.fltBcastWrite off v) s = .next (s.writeWords 0 s.lcnt ((s.bcast off).map (fun o => (o, v)))) :=
    congrArg Host.Outcome.next (if_pos hb)
  rw [s.bcast_eq off hb, bitsSet_of_mod_zero hmask] at hexec
  rw [hexec]
  refine congrArg Host.Outcome.next ((s.writeWords_of_noneActs (by simp) _).trans ?_)
  rw [s.at_self]
  rfl

/-- Settles O6: by the access code of the written words, through what a write of words does to the set in force and to the shadow set. -/
theorem writesActByAccessCode : Obligations.WritesActByAccessCode := by
  unfold Obligations.WritesActByAccessCode
  refine ⟨fun fn a off v s hfn hmay => ⟨?_, congrArg Host.Outcome.next (if_neg (by simp [hmay])), ?_⟩,
    fun a off v s m hm hlow hhigh hb => ?_, w1cClear_effect, fun off v s hlow hhigh => congrArg Host.Outcome.next (if_neg (by simp [hlow, hhigh])),
    fun off v w s hlow hhigh hlow4 hb hb4 _ hmask hport hport4 hc hv => halfWrites_staged off v w s hlow hhigh hlow4 hb hb4 hmask hport hport4 hc hv,
    fun off v s => ⟨fun hb => congrArg Host.Outcome.next (if_neg (by simp [hb])), bcastWrite_unmasked off v s,
      fun hb hc hv hmask => bcastWrite_staged off v s hb hc hv hmask⟩⟩
  · have hwrite : s.write4 fn a off v = s := (if_neg (by simp [Fin.val_eq_zero_iff, hfn])).trans (if_pos hmay)
    exact congrArg Host.Outcome.next hwrite
  · have hwrite : s.write4 fn s.lcnt off v = s := (if_neg (by simp [Fin.val_eq_zero_iff, hfn])).trans (if_pos hmay)
    exact congrArg Host.Outcome.next ((congrArg (fun x => if isLow off ∨ isHigh off then x else s) hwrite).trans (ite_self s))
  · subst hm
    refine ⟨fun hrw hrws hw1c hwo => ?_, fun hrw hrws hw1c hwo => registerWrite_rws a off v s hlow hhigh hb ⟨hrw, hw1c, hwo⟩ hrws,
      fun hrw hrws hw1c hwo hport htime hwake hflt hdma hstage => ?_⟩
    · refine (exec_write_single s hb hlow hhigh a v).trans (congrArg Host.Outcome.next ?_)
      rw [s.writeWords_of_noneActs (l := [(off, v)]) (by simpa using ⟨hrw, hw1c, hwo⟩)]
      exact (s.at_ a).rwsWrite_of_none (by simpa using hrws)
    · have hexec := exec_write_single s hb hlow hhigh a v
      rw [write_plain a v hrw hrws hw1c hwo hport ⟨htime, hwake, hflt, hdma, hstage⟩] at hexec
      obtain ⟨hsame, hother⟩ := (s.at_ a).word_setRegs off (mixWord (masksAt off).rw (s.word off) v)
      exact ⟨_, hexec, hsame, hother, rfl⟩

end Sys2Proof.Machine
end

section
/-! SUPPORT. The flash and its commands, the loader, arming by an image (R312, R347, R352, R354, R362, R377). -/

namespace Sys2Proof.Machine

open Sys2Proof.Safety

/-! ### Bytes of a memory -/

/-- A write leaves the other bytes, whatever form the memory has. -/
theorem Mem.read_write_other (d : Byte) {a b : Nat} (v : Byte) (h : b ≠ a) (m : Mem) : Mem.read d (Mem.write d m a v) b = Mem.read d m b := by
  have hab : ¬a = b := fun e => h e.symm
  induction m with
  | nil =>
    rw [Mem.write]
    split
    · rfl
    · exact if_neg hab
  | cons p rest ih =>
    rw [Mem.write]
    split
    · split
      · rfl
      · exact if_neg hab
    · split
      · next heq =>
        have hp : ¬p.1 = b := by rwa [heq]
        have hskip : Mem.read d (p :: rest) b = Mem.read d rest b := if_neg hp
        rw [hskip]
        split
        · rfl
        · exact if_neg hab
      · exact congrArg (fun x => if p.1 = b then p.2 else x) ih

/-- Bytes written in a row leave the others. -/
theorem Mem.read_writeBytes_beside (d : Byte) (bs : List Byte) : ∀ (m : Mem) (a b : Nat), b < a ∨ a + bs.length ≤ b →
    Mem.read d (Mem.writeBytes d m a bs) b = Mem.read d m b := by
  induction bs with
  | nil => exact fun _ _ _ _ => rfl
  | cons x xs ih =>
    intro m a b h
    rw [List.length_cons] at h
    rw [Mem.writeBytes, ih _ _ _ (by omega), Mem.read_write_other d x (by omega)]

/-- Bytes written in a row read back. -/
theorem Mem.read_writeBytes_at (d : Byte) (bs : List Byte) : ∀ (m : Mem) (a i : Nat), Mem.wf d m = true → i < bs.length →
    Mem.read d (Mem.writeBytes d m a bs) (a + i) = bs.getD i d := by
  induction bs with
  | nil => exact fun _ _ _ _ h => absurd h (by simp)
  | cons x xs ih =>
    intro m a i hwf hi
    rw [Mem.writeBytes]
    cases i with
    | zero =>
      rw [Mem.read_writeBytes_beside d xs _ _ _ (.inl (by omega)), Nat.add_zero, Mem.read_write d m a a x hwf, if_pos rfl]
      rfl
    | succ i =>
      rw [show a + (i + 1) = a + 1 + i by omega, ih _ _ _ (Mem.wf_write d m a x hwf) (by simpa using hi)]
      rfl

theorem Mem.readBytes_length (d : Byte) (m : Mem) (n : Nat) : ∀ a : Nat, (Mem.readBytes d m a n).length = n := by
  induction n with
  | zero => exact fun _ => rfl
  | succ n ih => exact fun a => congrArg (· + 1) (ih (a + 1))

theorem Mem.getElem_readBytes (d : Byte) (m : Mem) (n : Nat) : ∀ (a i : Nat) (h : i < (Mem.readBytes d m a n).length),
    (Mem.readBytes d m a n)[i] = Mem.read d m (a + i) := by
  induction n with
  | zero => exact fun _ _ h => absurd h (Nat.not_lt_zero _)
  | succ n ih =>
    intro a i h
    cases i with
    | zero => rfl
    | succ i => exact (ih (a + 1) i _).trans (congrArg (Mem.read d m) (by omega))

/-! ### A flash command is written (R362) -/

section
variable (s : State)

/-- The buffer as a command takes it. -/
def State.flashBuf (s : State) : List Byte := (List.range 64).flatMap (fun i => leBytes 4 (s.get (F.CFG_FLASH_BUF_DATA i)))

theorem State.flashBuf_length : s.flashBuf.length = 256 := by
  unfold State.flashBuf
  rw [List.length_flatMap]
  simp only [Tests.leBytes_length, List.map_const', List.length_range, List.sum_replicate_nat]

/-- The block that a command of kind op names. -/
def State.flashAddr (s : State) (op : Nat) : Nat := s.get F.CFG_FLASH_ADDR_ADDR / flashSize op * flashSize op

theorem flashCmd_denied {op : Nat} (hheld : s.flashHeld (s.flashAddr op) (flashSize op) = true) (hlock : s.flag F.CFG_FLASH_CTRL_UNLOCK = false) :
    s.flashCmd op = (s.clrF F.CFG_FLASH_CTRL_UNLOCK).setF F.CFG_FLASH_STATUS_DENIED := if_pos ⟨hheld, hlock⟩

theorem flashCmd_queued {op : Nat} (h : s.flashHeld (s.flashAddr op) (flashSize op) = false ∨ s.flag F.CFG_FLASH_CTRL_UNLOCK = true) :
    s.flashCmd op = { (s.clrF F.CFG_FLASH_CTRL_UNLOCK).setF F.CFG_FLASH_STATUS_BUSY with
      flashOps := s.flashOps ++ [⟨op, s.flashAddr op, s.flashBuf⟩] } := by
  refine if_neg fun ⟨hheld, hlock⟩ => ?_
  rcases h with h | h
  · exact absurd (hheld.symm.trans h) (by decide)
  · exact absurd (hlock.symm.trans h) (by decide)

/-- A flash command as it is written: denied, or queued. -/
theorem flashCmd_effect {c : Instr} {op : Nat} (hexec : exec c s = .next (s.flashCmd op)) :
    (s.flashHeld (s.flashAddr op) (flashSize op) = true → s.flag F.CFG_FLASH_CTRL_UNLOCK = false → ∃ t, exec c s = .next t ∧
      t.flag F.CFG_FLASH_STATUS_DENIED = true ∧ changesOnly [F.CFG_FLASH_STATUS_DENIED, F.CFG_FLASH_CTRL_UNLOCK] s t ∧
      t = { s with regs := t.regs }) ∧
    (s.flashHeld (s.flashAddr op) (flashSize op) = false ∨ s.flag F.CFG_FLASH_CTRL_UNLOCK = true → ∃ t o, exec c s = .next t ∧
      t.flag F.CFG_FLASH_STATUS_BUSY = true ∧ t.flag F.CFG_FLASH_CTRL_UNLOCK = false ∧ o.op = op ∧ o.addr = s.flashAddr op ∧
      o.buf.length = 256 ∧ t.flashOps = s.flashOps ++ [o] ∧
      changesOnly [F.CFG_FLASH_STATUS_BUSY, F.CFG_FLASH_CTRL_UNLOCK] s t ∧ t = { s with regs := t.regs, flashOps := t.flashOps }) := by
  refine ⟨fun hheld hlock => ?_, fun h => ?_⟩
  · rw [flashCmd_denied s hheld hlock] at hexec
    exact ⟨_, hexec, RegTab.bit_setFld_one _ (.of rfl (by omega)), .put (.put (.refl _ _) (by simp)) (by simp), rfl⟩
  · rw [flashCmd_queued s h] at hexec
    refine ⟨_, ⟨op, s.flashAddr op, s.flashBuf⟩, hexec, RegTab.bit_setFld_one _ (.of rfl (by omega)), ?_, rfl, rfl, s.flashBuf_length, rfl,
      .parts (.put (.put (.refl _ _) (by simp)) (by simp)) rfl rfl rfl rfl, rfl⟩
    exact (RegTab.bit_setFld_sep (f := F.CFG_FLASH_STATUS_BUSY) (g := F.CFG_FLASH_CTRL_UNLOCK) _ _ (.of rfl (by omega))).trans
      (RegTab.bit_setFld_zero _ (.of rfl (by omega)))

end

/-! ### A flash command completes (R347, R362) -/

section
variable (s : State)

/-- Values written into fields apart read back, and leave the fields beside them. -/
theorem State.get_putRange (f : Nat → Fld) (v : Nat → Nat) (hok : ∀ i, (f i).ok) (hsep : ∀ i j, i ≠ j → (f i).Sep (f j)) (n : Nat) :
    (∀ i < n, ((List.range n).foldl (fun t i => t.put (f i) (v i)) s).get (f i) = v i % 2 ^ (f i).width) ∧
    (List.range n).foldl (fun t i => t.put (f i) (v i)) s = { s with regs := ((List.range n).foldl (fun t i => t.put (f i) (v i)) s).regs } := by
  induction n with
  | zero => exact ⟨fun _ h => absurd h (Nat.not_lt_zero _), rfl⟩
  | succ n ih =>
    rw [List.range_succ, List.foldl_append, List.foldl_cons, List.foldl_nil]
    generalize (List.range n).foldl (fun t i => t.put (f i) (v i)) s = u at ih ⊢
    obtain ⟨hin, hframe⟩ := ih
    refine ⟨fun i hi => ?_, ?_⟩
    · by_cases h : i = n
      · subst h
        exact RegTab.fld_setFld_same u.regs _ _ (hok i)
      · exact (RegTab.fld_setFld_sep _ _ (hsep n i (Ne.symm h))).trans (hin i (by omega))
    · exact (congrArg (fun x : State => x.put (f n) (v n)) hframe).trans (by rw [hframe]; rfl)

/-- What a completed command puts into its block. -/
def State.flashBytes (s : State) (o : FlashOp) : List Byte :=
  if o.op = 1 then (o.buf.zip (Mem.readBytes 0xFF s.flash o.addr (flashSize o.op))).map (fun p => p.1 &&& p.2)
  else List.replicate (flashSize o.op) 0xFF#8

theorem State.flashBytes_length (o : FlashOp) : (s.flashBytes o).length ≤ flashSize o.op := by
  unfold State.flashBytes
  split
  · rw [List.length_map, List.length_zip, Mem.readBytes_length]
    exact Nat.min_le_right _ _
  · rw [List.length_replicate]

theorem State.flashDo_read {o : FlashOp} (h : o.op = 0) (ok : Bool) : (s.flashDo o ok).flash = s.flash ∧ (∀ i < 64,
    (s.flashDo o ok).get (F.CFG_FLASH_BUF_DATA i) = leValue (Mem.readBytes 0xFF s.flash (o.addr + 4 * i) 4) % 2 ^ 32) ∧
    s.flashDo o ok = { s with regs := (s.flashDo o ok).regs } := by
  have heq : s.flashDo o ok = (List.range 64).foldl (fun t i =>
    t.put (F.CFG_FLASH_BUF_DATA i) (leValue (Mem.readBytes 0xFF s.flash (o.addr + 4 * i) 4))) s := if_pos h
  obtain ⟨hin, hframe⟩ := s.get_putRange F.CFG_FLASH_BUF_DATA (fun i => leValue (Mem.readBytes 0xFF s.flash (o.addr + 4 * i) 4))
    (fun i => .of rfl (by omega)) (fun i j hij => .of rfl (by omega)) 64
  rw [heq]
  generalize (List.range 64).foldl _ s = u at hin hframe ⊢
  exact ⟨(congrArg State.flash hframe).trans rfl, hin, hframe⟩

theorem State.flashDo_done {o : FlashOp} (h : o.op ≠ 0) :
    s.flashDo o true = { s with flash := Mem.writeBytes 0xFF s.flash o.addr (s.flashBytes o) } := (if_neg h).trans (if_pos rfl)

/-- A failed program or erase flags the error and leaves open bytes in its block. -/
theorem State.flashDo_failed {o : FlashOp} (h : o.op ≠ 0) : (s.flashDo o false).flag F.CFG_FLASH_STATUS_ERR = true ∧
    (∃ bs : List Byte, bs.length = flashSize o.op ∧ (s.flashDo o false).flash = Mem.writeBytes 0xFF s.flash o.addr bs) ∧
    s.flashDo o false = { s with free := (s.flashDo o false).free, regs := (s.flashDo o false).regs, flash := (s.flashDo o false).flash } := by
  have heq : s.flashDo o false = { (s.drawBytes (flashSize o.op)).2.setF F.CFG_FLASH_STATUS_ERR with
      flash := Mem.writeBytes 0xFF (s.drawBytes (flashSize o.op)).2.flash o.addr (s.drawBytes (flashSize o.op)).1 } :=
    (if_neg h).trans (if_neg Bool.false_ne_true)
  have hlen := State.drawBytes_length (flashSize o.op) s
  have hframe := State.drawBytes_frame (flashSize o.op) s
  rw [heq]
  generalize s.drawBytes (flashSize o.op) = d at hlen hframe ⊢
  refine ⟨RegTab.bit_setFld_one _ (.of rfl (by omega)), ⟨d.1, hlen, ?_⟩, ?_⟩
  · rw [show d.2.flash = s.flash from (congrArg State.flash hframe).trans rfl]
  · exact (congrArg (fun x : State => ({ x.setF F.CFG_FLASH_STATUS_ERR with
      flash := Mem.writeBytes 0xFF d.2.flash o.addr d.1 } : State)) hframe).trans (by rw [hframe]; rfl)

/-- The command has left the queue; the last one ends BUSY and starts a save that fell due. -/
def State.flashNext (s : State) (rest : List FlashOp) : State :=
  let s2 : State := { s with flashOps := rest }
  if rest = [] then
    (let s3 := s2.clrF F.CFG_FLASH_STATUS_BUSY
     if s3.cal.saveDue then s3.startSave else s3)
  else s2

theorem exec_flashCommandDone {o : FlashOp} {rest : List FlashOp} (ok : Bool) (hops : s.flashOps = o :: rest) (hsave : s.cal.saving = none) :
    exec (.flashCommandDone ok) s = .next ((s.flashDo o ok).flashNext rest) := by
  show Host.Outcome.next (match s.flashOps, s.cal.saving with
    | o :: rest, none => _
    | _, _ => _) = _
  rw [hops, hsave]
  rfl

theorem State.flashNext_effect (rest : List FlashOp) : (s.flashNext rest).flashOps = rest ∧ (s.flashNext rest).store = s.store ∧
    (s.flashNext rest).flash = s.flash ∧ (s.flashNext rest).pending = s.pending ∧
    (∀ f : Fld, F.CFG_FLASH_STATUS_BUSY.Sep f → F.CAL_STATUS_SAVING.Sep f → (s.flashNext rest).get f = s.get f) ∧
    (rest ≠ [] → (s.flashNext rest).regs = s.regs) ∧
    (rest = [] → (s.flashNext rest).flag F.CFG_FLASH_STATUS_BUSY = false ∧ (s.cal.saveDue = true → (s.flashNext rest).cal.saving ≠ none)) := by
  unfold State.flashNext
  dsimp only
  split
  next hrest =>
    split
    next hdue =>
      refine ⟨rfl, rfl, rfl, rfl, fun f hbusy hsaving => ?_, fun h => absurd hrest h, fun _ => ⟨?_, fun _ => Option.some_ne_none _⟩⟩
      · exact (RegTab.fld_setFld_sep _ _ hsaving).trans (RegTab.fld_setFld_sep _ _ hbusy)
      · exact (RegTab.bit_setFld_sep (f := F.CAL_STATUS_SAVING) (g := F.CFG_FLASH_STATUS_BUSY) _ _ (.of rfl (by omega))).trans
          (RegTab.bit_setFld_zero _ (.of rfl (by omega)))
    next hdue =>
      exact ⟨rfl, rfl, rfl, rfl, fun f hbusy _ => RegTab.fld_setFld_sep _ _ hbusy, fun h => absurd hrest h,
        fun _ => ⟨RegTab.bit_setFld_zero _ (.of rfl (by omega)), fun h => absurd h hdue⟩⟩
  next hrest => exact ⟨rfl, rfl, rfl, rfl, fun _ _ _ => rfl, fun _ => rfl, fun h => absurd h hrest⟩

end


/-! ### What the loader holds and what is requested -/

/-- The loader's part and the request that waits. -/
def State.asked (s : State) : Loader × Option Commit := (s.loader, s.commit)

section
variable (s : State)

theorem State.ite_asked (c : Prop) [Decidable c] (a b : State) : (if c then a else b : State).asked = if c then a.asked else b.asked :=
  apply_ite State.asked c a b

theorem State.post_asked (lc code locus data : Nat) : (s.post lc code locus data).asked = s.asked :=
  (congrArg State.asked (s.post_eq lc code locus data)).trans rfl

theorem State.foldl_asked {α : Type} (f : State → α → State) (l : List α) (h : ∀ t x, (f t x).asked = t.asked) : (l.foldl f s).asked = s.asked :=
  State.foldl_same State.asked f l s h

theorem State.put_asked (f : Fld) (v : Nat) : (s.put f v).asked = s.asked := rfl

theorem State.setCal_asked (c : Cal) : ({ s with cal := c } : State).asked = s.asked := rfl

/-! ### Both calibration copies are read (R312-R314) -/

theorem State.loadChan_asked (rd : Nat → Byte) (o n : Nat) : (s.loadChan rd o n).asked = s.asked := by
  unfold State.loadChan
  extract_lets s1 s2 s3
  have h1 : s1.asked = s.asked := s.foldl_asked _ _ fun _ _ => rfl
  have h2 : s2.asked = s1.asked := s1.foldl_asked _ _ fun _ _ => rfl
  have h3 : s3.asked = s2.asked := s2.foldl_asked _ _ fun _ _ => rfl
  clear_value s3 s2 s1
  exact (s3.setCal_asked _).trans (h3.trans (h2.trans h1))

theorem State.loadBlock_asked (rd : Nat → Byte) (o i : Nat) : (s.loadBlock rd o i).asked = s.asked := by
  unfold State.loadBlock
  split
  · exact s.foldl_asked _ _ fun t _ => t.loadChan_asked _ _ _
  · split
    · exact s.foldl_asked _ _ fun _ _ => rfl
    · rfl

theorem State.loadUser_asked (rd : Nat → Byte) (i : Nat) : (s.loadUser rd i).asked = s.asked := by
  unfold State.loadUser
  dsimp only
  split
  · exact s.loadBlock_asked _ _ _
  · exact s.loadBlock_asked _ _ _

theorem State.loadDef_asked (otpOk : Bool) (i : Nat) : (s.loadDef otpOk i).asked = s.asked := by
  unfold State.loadDef
  dsimp only
  split
  · split
    · exact State.loadBlock_asked _ _ _ _
    · exact State.loadBlock_asked _ _ _ _
  · rfl

theorem State.loadDie_asked (order : List Nat) (otpOk : Bool) (i : Nat) : (s.loadDie order otpOk i).asked = s.asked := by
  unfold State.loadDie
  split
  · dsimp only
    split
    · exact s.loadUser_asked _ _
    · exact s.loadUser_asked _ _
  · exact s.loadDef_asked _ _

theorem State.setCalEpoch_effect (a e src mask : Nat) : (s.setCalEpoch a e src mask).asked = s.asked ∧
    (s.setCalEpoch a e src mask).flag F.CAL_STATUS_LOADED = s.flag F.CAL_STATUS_LOADED := by
  refine ⟨State.post_asked _ _ _ _ _, ?_⟩
  exact (State.bit_post _ _ _ _ _ (g := F.CAL_STATUS_LOADED) (.of rfl (by omega))).trans (RegTab.bit_congr
    ((RegTab.fld_setFld_sep (f := F.CAL_EPOCH_SOURCE) (g := F.CAL_STATUS_LOADED) _ _ (.of rfl (by omega))).trans
      (RegTab.fld_setFld_sep (f := F.CAL_EPOCH_EPOCH) (g := F.CAL_STATUS_LOADED) _ _ (.of rfl (by omega)))))

theorem State.loadCal_effect (otpOk : Bool) : (s.loadCal otpOk).asked = s.asked ∧ (s.loadCal otpOk).flag F.CAL_STATUS_LOADED = true := by
  unfold State.loadCal
  extract_lets a b okA okB order s1 s2 s3 k s4 src
  have hdies : s2.asked = s1.asked := s1.foldl_asked _ _ fun t i => t.loadDie_asked order otpOk i
  have hcal : s4.asked = s3.asked := s3.setCal_asked _
  have hkept : s3.asked = s2.asked := (State.put_asked _ _ _).trans (State.put_asked _ _ _)
  have hset : s4.flag F.CAL_STATUS_LOADED = true :=
    (RegTab.bit_setFld_sep (f := F.CAL_SEQ_SEQ) (g := F.CAL_STATUS_LOADED) _ _ (.of rfl (by omega))).trans (RegTab.bit_setFld_one _ (.of rfl (by omega)))
  have hfirst : s1.asked = s.asked := rfl
  clear_value src s4 s3 s2 s1
  obtain ⟨hasked, hflag⟩ := s4.setCalEpoch_effect s4.lcnt s4.newestEpoch src
    (maskOf (((List.range 8).filter (fun i => s4.srcOf i == src)).map (fun i => (calDies[i]?).getD 0)))
  exact ⟨hasked.trans (hcal.trans (hkept.trans (hdies.trans hfirst))), hflag.trans hset⟩

/-! ### An image's words are written (R350) -/

@[simp] theorem State.wakeRelease_asked : s.wakeRelease.asked = s.asked := by
  unfold State.wakeRelease
  split <;> rfl

@[simp] theorem State.acceptStep_asked : s.acceptStep.asked = s.asked := by
  unfold State.acceptStep
  dsimp only
  split <;> rfl

@[simp] theorem State.unbindQ_asked (q g : Nat) : (s.unbindQ q g).asked = s.asked := by
  unfold State.unbindQ
  dsimp only
  split
  · rfl
  · refine s.foldl_asked _ _ fun t x => ?_
    split
    · exact (congrArg State.asked (t.readerDone_frame g x.num q)).trans rfl
    · rfl

@[simp] theorem State.bindQ_asked (q g : Nat) : (s.bindQ q g).asked = s.asked := rfl

@[simp] theorem State.freezeWrite_asked (a n : Nat) (v : Bool) : (s.freezeWrite a n v).asked = s.asked := rfl

/-- Words written into the registers or the shadow set. -/
@[simp] theorem State.setTabs_asked (r h : RegTab) : ({ s with regs := r, shadow := h } : State).asked = s.asked := rfl

@[simp] theorem State.qcCtrl_asked (q : Nat) (v : Word) : (s.qcCtrl q v).asked = s.asked := by
  simp [State.qcCtrl, State.ite_asked]

@[simp] theorem State.rwWord_asked (a off : Nat) (v : Word) : (s.rwWord a off v).asked = s.asked := by
  simp [State.rwWord, State.ite_asked]

@[simp] theorem State.rwsWord_asked (off : Nat) (v : Word) : (s.rwsWord off v).asked = s.asked := by
  simp [State.rwsWord, State.ite_asked]

@[simp] theorem State.loadWord_asked (rw : Bool) (off v : Nat) : (s.loadWord rw off v).asked = s.asked := by
  simp [State.loadWord, State.ite_asked]

theorem State.loadWords_asked (rw : Bool) (off : Nat) (vs : List Nat) : (s.loadWords rw off vs).asked = s.asked := by
  induction vs generalizing s off with
  | nil => rfl
  | cons v vs ih => rw [State.loadWords, ih, State.loadWord_asked]

theorem State.loadWrites_asked (rw : Bool) (img : Image) : (s.loadWrites rw img).asked = s.asked :=
  s.shadowReset.foldl_asked _ _ fun t p => t.loadWords_asked rw p.1 p.2

theorem State.loadSlot_effect (k : Nat) (img : Image) : (s.loadSlot k img).commit = s.commit ∧
    (s.loadSlot k img).loader = { s.loader with slot := some k, img := some img, tried := k :: s.loader.tried } := by
  have h : ∀ u : State, u.asked = s.asked → (u.loadWrites true img).asked = s.asked := fun u hu => (u.loadWrites_asked true img).trans hu
  have hw : ((if coldCause (s.get F.GLOBAL_RESET_CAUSE_CAUSE) then s.put F.GLOBAL_STATE_NODE img.node else s).loadWrites true img).asked = s.asked := by
    refine h _ ?_
    split <;> rfl
  have hloader := congrArg Prod.fst hw
  have hcommit := congrArg Prod.snd hw
  unfold State.loadSlot
  generalize (if coldCause (s.get F.GLOBAL_RESET_CAUSE_CAUSE) then s.put F.GLOBAL_STATE_NODE img.node else s).loadWrites true img = u at *
  exact ⟨hcommit, congrArg (fun l : Loader => { l with slot := some k, img := some img, tried := k :: l.tried }) hloader⟩

end

/-! ### The clock words are handed over (R377) -/

/-- The loader, the log, and the fields beside the clock and the gaps. -/
structure HandKept (s t : State) : Prop where
  loader : t.loader = s.loader
  log : t.log = s.log
  fld : ∀ f : Fld, f.ok → f.off < 0x200000 ∨ 0x501000 ≤ f.off → t.regs.fld f = s.regs.fld f

theorem HandKept.trans {s t u : State} (h : HandKept s t) (k : HandKept t u) : HandKept s u :=
  ⟨k.loader.trans h.loader, k.log.trans h.log, fun f hok hf => (k.fld f hok hf).trans (h.fld f hok hf)⟩

section
variable (s : State)

theorem State.setLoop_handKept (k : Nat) : HandKept s (s.setLoop k) := by
  refine ⟨rfl, rfl, fun f _ hf => (s.setLoop_loopShare k).fld fun hr => ?_⟩
  have hr' : 0x200018 ≤ f.off ∧ f.off < 0x200024 := hr
  omega

theorem State.openPllGap_handKept (c : Nat) : HandKept s (s.openPllGap c) := by
  obtain ⟨x, hgap⟩ := s.openPllGap_eq c
  generalize s.openPllGap c = u at *
  refine ⟨(congrArg State.loader hgap.frame).trans rfl, (congrArg State.log hgap.frame).trans rfl, fun f _ hf => hgap.fld fun hr => ?_⟩
  have hr' : 0x500000 ≤ f.off ∧ f.off < 0x501000 := hr
  omega

theorem State.leaveWait_handKept : HandKept s s.leaveWait := by
  obtain ⟨-, hreg, hframe, -⟩ := s.leaveWait_left
  refine ⟨(congrArg State.loader hframe).trans rfl, (congrArg State.log hframe).trans rfl, fun f hok hf => hreg.1 f hok fun g hg => .inl ?_⟩
  have hclk : g.off = 0x200018 ∨ g.off = 0x20001C := by
    simp only [List.mem_cons, List.not_mem_nil, or_false] at hg
    rcases hg with rfl | rfl | rfl | rfl | rfl <;> decide
  omega

theorem State.handClk_handKept : HandKept s s.handClk := by
  unfold State.handClk
  extract_lets old n k s1
  have h1 : HandKept s s1 := ⟨rfl, rfl, fun _ _ _ => rfl⟩
  refine h1.trans ?_
  split
  · exact (s1.setLoop_handKept 0).trans ((State.openPllGap_handKept _ _).trans (State.leaveWait_handKept _))
  · exact s1.leaveWait_handKept

/-! ### IMAGE_LOAD (R352) -/

/-- The state in which the loader has read both slots and both calibration copies. -/
def State.bothRead (s : State) (sfdpOk otpOk : Bool) (a b : Option Image) : State :=
  { ((({ s with loader := { Loader.init with part := sfdpOk, imgA := a, imgB := b } } : State).loadCal otpOk).clrF F.CFG_STATUS_LOADING).setPhase 1
    with cfgReady := true }

theorem State.bothRead_effect (sfdpOk otpOk : Bool) (a b : Option Image) :
    (s.bothRead sfdpOk otpOk a b).loader = { Loader.init with part := sfdpOk, imgA := a, imgB := b } ∧
    (s.bothRead sfdpOk otpOk a b).get F.GLOBAL_STATE_PHASE = 1 ∧ (s.bothRead sfdpOk otpOk a b).flag F.CFG_STATUS_LOADING = false ∧
    (s.bothRead sfdpOk otpOk a b).flag F.CAL_STATUS_LOADED = true := by
  unfold State.bothRead
  obtain ⟨hasked, hloaded⟩ := ({ s with loader := { Loader.init with part := sfdpOk, imgA := a, imgB := b } } : State).loadCal_effect otpOk
  have hloader := congrArg Prod.fst hasked
  generalize ({ s with loader := { Loader.init with part := sfdpOk, imgA := a, imgB := b } } : State).loadCal otpOk = u at *
  obtain ⟨hphase, hword, hframe⟩ := (u.clrF F.CFG_STATUS_LOADING).setPhase_effect 1
  have hloading : (u.clrF F.CFG_STATUS_LOADING).flag F.CFG_STATUS_LOADING = false := RegTab.bit_setFld_zero _ (.of rfl (by omega))
  have hloaded' : (u.clrF F.CFG_STATUS_LOADING).flag F.CAL_STATUS_LOADED = true :=
    (RegTab.bit_setFld_sep (f := F.CFG_STATUS_LOADING) (g := F.CAL_STATUS_LOADED) _ _ (.of rfl (by omega))).trans hloaded
  refine ⟨(congrArg State.loader hframe).trans hloader, hphase, ?_, ?_⟩
  · exact (RegTab.bit_congr (RegTab.fld_congr (hword _ (by decide) (by decide)))).trans hloading
  · exact (RegTab.bit_congr (RegTab.fld_congr (hword _ (by decide) (by decide)))).trans hloaded'

/-- IMAGE_LOAD once no reset is held. -/
theorem exec_imageLoad_eq {sfdpOk errA errB otpOk : Bool} {u : State} (hu : u = { s with loader := { Loader.init with part := sfdpOk } })
    (hready : s.cfgReady = false) (hcore : s.pwr.coreLoss = false) (hheld : s.pwr.thermalHold = false) {a b : Option Image}
    (ha : a = if errA then none else u.slotImage 0) (hb : b = if errB then none else u.slotImage 1) :
    exec (.imageLoad sfdpOk errA errB otpOk) s = .next (match chooseSlot a b with
      | some (k, img) => (((s.bothRead sfdpOk otpOk a b).loadSlot k img).post s.lcnt 0x0F03 s.locusHub (k + img.seq * 2 ^ 8 + img.secs * 2 ^ 40)).handClk
      | none => (s.bothRead sfdpOk otpOk a b).handClk) := by
  subst hu ha hb
  exact congrArg Host.Outcome.next (if_neg (by simp [hready, hcore, hheld]))

theorem State.imageChosen_effect (k : Nat) (img : Image) (lc locus data : Nat) {l : Loader} (h : s.loader = l) :
    (((s.loadSlot k img).post lc 0x0F03 locus data).handClk).loader = { l with slot := some k, img := some img, tried := k :: l.tried } ∧
    (0x0F03, locus) ∈ (((s.loadSlot k img).post lc 0x0F03 locus data).handClk).log.seen := by
  have hslot := (s.loadSlot_effect k img).2
  rw [h] at hslot
  have hpost := congrArg Prod.fst ((s.loadSlot k img).post_asked lc 0x0F03 locus data)
  have hseen := (s.loadSlot k img).post_seen lc 0x0F03 locus data
  have hkept := ((s.loadSlot k img).post lc 0x0F03 locus data).handClk_handKept
  exact ⟨hkept.loader.trans (hpost.trans hslot), by rw [hkept.log]; exact hseen⟩

/-! ### Groups arm by an image's plan (R354) -/

theorem State.armAt_seen (g b : Nat) {x : Nat × Nat} (h : x ∈ s.log.seen) : x ∈ (s.armAt g b).log.seen := by
  obtain ⟨y, -, heq⟩ := s.armAt_eq g b
  have hshown : x ∈ (s.armShown g b y).log.seen := State.seen_post_of_seen _ _ _ _ _ h
  have hgap := (State.gapSync_booked (s.armShown g b y) g).regionKept.seen x hshown
  rw [heq]
  generalize (s.armShown g b y).gapSync g = u at *
  split
  · exact hgap
  · exact (u.startRegion_kept g b).seen x hgap

theorem State.armApply_seen (g b : Nat) {x : Nat × Nat} (h : x ∈ s.log.seen) : x ∈ (s.armApply g b).log.seen := by
  unfold State.armApply
  dsimp only
  split
  · exact h
  · split
    · exact h
    · split
      · exact State.seen_post_of_seen _ _ _ _ _ h
      · exact s.armAt_seen g b h

/-- A group of the plan arms, unless it is armed. -/
def State.armPlanned (s : State) (b g : Nat) : State :=
  if (s.grp g).armed then s else (s.setGrp g { s.grp g with armReq := some (b - 1) }).armApply g b

theorem State.armPlanned_effect (b g : Nat) : (s.armPlanned b g).armPlan = s.armPlan ∧ (s.armPlanned b g).lcnt = s.lcnt ∧
    ∀ x ∈ s.log.seen, x ∈ (s.armPlanned b g).log.seen := by
  unfold State.armPlanned
  split
  · exact ⟨rfl, rfl, fun _ h => h⟩
  · exact ⟨by simp, by simp, fun x h => State.armApply_seen _ g b h⟩

/-- The condition of a plan is met at boundary b. -/
def State.planMet (s : State) (b : Nat) (p : ArmPlan) : Prop :=
  p.wait = 0 ∨ (s.get F.TIME_STATUS_SERVO == 2) = true ∨ (p.wait = 1 ∧ p.deadline ≤ b)

theorem State.armSection_waits {p : ArmPlan} {b : Nat} (hp : s.armPlan = some p) (h : ¬ s.planMet b p) : s.armSection b = s := by
  unfold State.armSection
  rw [hp]
  exact if_neg h

theorem State.armSection_acts {p : ArmPlan} {b : Nat} (hp : s.armPlan = some p) (h : s.planMet b p) : (s.armSection b).armPlan = none ∧
    (s.armSection b).lcnt = s.lcnt ∧ (p.wait = 1 → s.get F.TIME_STATUS_SERVO ≠ 2 → (0x0F05, s.locusHub) ∈ (s.armSection b).log.seen) := by
  have heq : s.armSection b = (bitsSet 16 p.mask).foldl (fun t g => t.armPlanned b g)
      { (if p.wait = 1 ∧ (s.get F.TIME_STATUS_SERVO == 2) = false then s.post b 0x0F05 s.locusHub 0 else s) with armPlan := none } := by
    unfold State.armSection
    rw [hp]
    exact if_pos h
  rw [heq]
  refine ⟨State.foldl_armPlan _ _ _ fun t g => (t.armPlanned_effect b g).1, ?_, fun hwait hservo => ?_⟩
  · refine (State.foldl_lcnt _ _ _ fun t g => (t.armPlanned_effect b g).2.1).trans ?_
    split
    · exact (s.post_stays b 0x0F05 s.locusHub 0).2.2.1
    · rfl
  · refine List.foldlRecOn (motive := fun t : State => (0x0F05, s.locusHub) ∈ t.log.seen) _ _ ?_ fun t ht g _ => (t.armPlanned_effect b g).2.2 _ ht
    rw [if_pos ⟨hwait, beq_eq_false_iff_ne.mpr hservo⟩]
    exact s.post_seen b 0x0F05 s.locusHub 0

theorem exec_armSectionArming {p : ArmPlan} (hp : s.armPlan = some p) :
    exec .armSectionArming s = .next ((s.at_ (boundaryAt s.lcnt)).armSection (boundaryAt s.lcnt)) :=
  congrArg Host.Outcome.next (if_pos (by rw [hp]; rfl))

end

/-! ### The obligation -/

section
variable (s : State)

/-- What a completed command leaves of the block beside it and puts into it. -/
theorem State.flashDo_bytes (o : FlashOp) (ok : Bool) :
    (∀ a, (a < o.addr ∨ o.addr + flashSize o.op ≤ a) → Mem.read 0xFF (s.flashDo o ok).flash a = Mem.read 0xFF s.flash a) ∧
    (Mem.wf 0xFF s.flash = true → ok = true → 2 ≤ o.op → ∀ i < flashSize o.op, Mem.read 0xFF (s.flashDo o ok).flash (o.addr + i) = 0xFF) ∧
    (Mem.wf 0xFF s.flash = true → ok = true → o.op = 1 → ∀ i < o.buf.length, o.buf.length ≤ 256 →
      Mem.read 0xFF (s.flashDo o ok).flash (o.addr + i) = o.buf.getD i 0 &&& Mem.read 0xFF s.flash (o.addr + i)) := by
  by_cases hop : o.op = 0
  · have hflash := (s.flashDo_read hop ok).1
    exact ⟨fun a _ => by rw [hflash], fun _ _ h => absurd hop (by omega), fun _ _ h => absurd hop (by omega)⟩
  cases ok with
  | false =>
    obtain ⟨-, ⟨bs, hlen, hflash⟩, -⟩ := s.flashDo_failed hop
    refine ⟨fun a ha => ?_, fun _ h => absurd h (by decide), fun _ h => absurd h (by decide)⟩
    rw [hflash]
    exact Mem.read_writeBytes_beside 0xFF bs _ _ _ (by omega)
  | true =>
    have hlen := s.flashBytes_length o
    have hflash : (s.flashDo o true).flash = Mem.writeBytes 0xFF s.flash o.addr (s.flashBytes o) := congrArg State.flash (s.flashDo_done hop)
    rw [hflash]
    refine ⟨fun a ha => Mem.read_writeBytes_beside 0xFF _ _ _ _ (by omega), fun hwf _ h2 i hi => ?_, fun hwf _ h1 i hi hbuf => ?_⟩
    · have herase : s.flashBytes o = List.replicate (flashSize o.op) 0xFF#8 := if_neg (by omega)
      rw [Mem.read_writeBytes_at 0xFF _ _ _ _ hwf (by rw [herase, List.length_replicate]; exact hi), herase]
      simp [List.getD_eq_getElem?_getD, hi]
    · have hprog : s.flashBytes o = (o.buf.zip (Mem.readBytes 0xFF s.flash o.addr (flashSize o.op))).map (fun p => p.1 &&& p.2) := if_pos h1
      have hsize : flashSize o.op = 256 := by rw [h1]; rfl
      have hi' : i < (s.flashBytes o).length := by
        rw [hprog, List.length_map, List.length_zip, Mem.readBytes_length, hsize]
        omega
      rw [Mem.read_writeBytes_at 0xFF _ _ _ _ hwf hi', List.getD_eq_getElem _ _ hi', List.getD_eq_getElem _ _ hi]
      simp only [hprog, List.getElem_map, List.getElem_zip, Mem.getElem_readBytes]

theorem flashCommandDone_effect (ok : Bool) {o : FlashOp} {rest : List FlashOp} (hops : s.flashOps = o :: rest) (hsave : s.cal.saving = none) : ∃ t,
    exec (.flashCommandDone ok) s = .next t ∧ t.flashOps = rest ∧ storeSame s t ∧ t.pending = s.pending ∧
    (∀ a, (a < o.addr ∨ o.addr + flashSize o.op ≤ a) → Mem.read 0xFF t.flash a = Mem.read 0xFF s.flash a) ∧
    (o.op = 0 → t.flash = s.flash ∧ ∀ i < 64, t.get (F.CFG_FLASH_BUF_DATA i) =
      leValue (Mem.readBytes 0xFF s.flash (o.addr + 4 * i) 4) % 2 ^ 32) ∧
    (o.op ≠ 0 → ok = false → t.flag F.CFG_FLASH_STATUS_ERR = true) ∧
    (o.op ≠ 0 → ok = true → rest ≠ [] → t.regs = s.regs) ∧
    (Mem.wf 0xFF s.flash = true → ok = true → 2 ≤ o.op → ∀ i < flashSize o.op, Mem.read 0xFF t.flash (o.addr + i) = 0xFF) ∧
    (Mem.wf 0xFF s.flash = true → ok = true → o.op = 1 → ∀ i < o.buf.length, o.buf.length ≤ 256 →
      Mem.read 0xFF t.flash (o.addr + i) = o.buf.getD i 0 &&& Mem.read 0xFF s.flash (o.addr + i)) ∧
    (rest = [] → t.flag F.CFG_FLASH_STATUS_BUSY = false ∧ (s.cal.saveDue = true → t.cal.saving ≠ none)) := by
  have hexec := exec_flashCommandDone s ok hops hsave
  obtain ⟨hrest, -, hflash, -, hget, hregs, hlast⟩ := (s.flashDo o ok).flashNext_effect rest
  obtain ⟨hbeside, herase, hprog⟩ := s.flashDo_bytes o ok
  have hread := fun h : o.op = 0 => s.flashDo_read h ok
  have hfailed := fun h : o.op ≠ 0 => s.flashDo_failed h
  have hdone := fun h : o.op ≠ 0 => s.flashDo_done h
  have hdue : (s.flashDo o ok).cal.saveDue = s.cal.saveDue := by
    by_cases h : o.op = 0
    · exact (congrArg (fun t : State => t.cal.saveDue) (hread h).2.2).trans rfl
    · cases ok with
      | false => exact (congrArg (fun t : State => t.cal.saveDue) (hfailed h).2.2).trans rfl
      | true => exact (congrArg (fun t : State => t.cal.saveDue) (hdone h)).trans rfl
  refine ⟨_, hexec, hrest, (fewCommandsWriteTheMemories _ _ _ hexec).1, (exec_memEffect _ hexec).pending_eq, ?_, ?_, ?_, ?_, ?_, ?_, ?_⟩
  · exact fun a ha => (congrArg (fun m => Mem.read 0xFF m a) hflash).trans (hbeside a ha)
  · intro h
    obtain ⟨hsame, hbuf, -⟩ := hread h
    exact ⟨hflash.trans hsame, fun i hi => (hget _ (.of rfl (by omega)) (.of rfl (by omega))).trans (hbuf i hi)⟩
  · intro h hok
    subst hok
    exact (RegTab.bit_congr (hget F.CFG_FLASH_STATUS_ERR (.of rfl (by omega)) (.of rfl (by omega)))).trans (hfailed h).1
  · intro h hok hne
    subst hok
    exact (hregs hne).trans ((congrArg State.regs (hdone h)).trans rfl)
  · exact fun hwf hok h2 i hi => (congrArg (fun m => Mem.read 0xFF m (o.addr + i)) hflash).trans (herase hwf hok h2 i hi)
  · exact fun hwf hok h1 i hi hb => (congrArg (fun m => Mem.read 0xFF m (o.addr + i)) hflash).trans (hprog hwf hok h1 i hi hb)
  · exact fun h => ⟨(hlast h).1, fun hd => (hlast h).2 (hdue.trans hd)⟩

theorem imageLoad_effect {q errA errB otp : Bool} {u : State} (hu : u = { s with loader := { Loader.init with part := q } })
    (hready : s.cfgReady = false) (hcore : s.pwr.coreLoss = false) (hheld : s.pwr.thermalHold = false) : ∃ t,
      exec (.imageLoad q errA errB otp) s = .next t ∧ t.cfgReady = true ∧ memSame s t ∧ t.pending = s.pending ∧
      (∀ k img, chooseSlot (if errA then none else u.slotImage 0) (if errB then none else u.slotImage 1) = some (k, img) →
        t.loader.slot = some k ∧ t.loader.img = some img ∧ t.loader.tried = [k] ∧ (0x0F03, s.locusHub) ∈ t.log.seen) ∧
      (chooseSlot (if errA then none else u.slotImage 0) (if errB then none else u.slotImage 1) = none →
        t.loader.slot = none ∧ t.loader.img = none ∧ t.get F.GLOBAL_STATE_PHASE = 1 ∧ t.flag F.CFG_STATUS_LOADING = false ∧
        t.flag F.CAL_STATUS_LOADED = true) := by
  obtain ⟨t, hexec, hcfg⟩ := exec_imageLoad_cfgReady hcore hheld q errA errB otp
  refine ⟨t, hexec, hcfg, fewCommandsWriteTheMemories _ _ _ hexec, (exec_memEffect _ hexec).pending_eq, fun k img hchoose => ?_, fun hchoose => ?_⟩
  · have heq := exec_imageLoad_eq s (errA := errA) (errB := errB) (otpOk := otp) hu hready hcore hheld rfl rfl
    rw [hchoose] at heq
    obtain ⟨hloader, -⟩ := s.bothRead_effect q otp (if errA then none else u.slotImage 0) (if errB then none else u.slotImage 1)
    obtain ⟨hslot, hseen⟩ := State.imageChosen_effect _ k img s.lcnt s.locusHub (k + img.seq * 2 ^ 8 + img.secs * 2 ^ 40) hloader
    have ht := Host.Outcome.next.inj (hexec.symm.trans heq)
    rw [ht]
    exact ⟨congrArg Loader.slot hslot, congrArg Loader.img hslot, congrArg Loader.tried hslot, hseen⟩
  · have heq := exec_imageLoad_eq s (errA := errA) (errB := errB) (otpOk := otp) hu hready hcore hheld rfl rfl
    rw [hchoose] at heq
    obtain ⟨hloader, hphase, hloading, hloaded⟩ := s.bothRead_effect q otp (if errA then none else u.slotImage 0) (if errB then none else u.slotImage 1)
    have hkept := (s.bothRead q otp (if errA then none else u.slotImage 0) (if errB then none else u.slotImage 1)).handClk_handKept
    have ht := Host.Outcome.next.inj (hexec.symm.trans heq)
    rw [ht]
    refine ⟨?_, ?_, ?_, ?_, ?_⟩
    · rw [hkept.loader, hloader]
      rfl
    · rw [hkept.loader, hloader]
      rfl
    · exact (hkept.fld _ (.of rfl (by omega)) (.inl (by decide))).trans hphase
    · exact (RegTab.bit_congr (hkept.fld F.CFG_STATUS_LOADING (.of rfl (by omega)) (.inl (by decide)))).trans hloading
    · exact (RegTab.bit_congr (hkept.fld F.CAL_STATUS_LOADED (.of rfl (by omega)) (.inr (by decide)))).trans hloaded

end

/-- Settles O11: each flash command and each boot step by its equation; what the loader read outlives the clock's hand-over. -/
theorem imagesLoadAndFlashCommandsRun : Obligations.ImagesLoadAndFlashCommandsRun := by
  unfold Obligations.ImagesLoadAndFlashCommandsRun
  refine ⟨fun q errA errB otp s u hu => ⟨fun h => congrArg Host.Outcome.next (if_pos h), fun hready hcore hheld => ?_⟩,
    fun s h => congrArg Host.Outcome.next (if_neg (by rw [h]; exact Bool.false_ne_true)),
    fun s p hp => ⟨fun h0 hservo h1 hdue => ?_, fun h0 h1 hservo => ?_, fun hmet => ?_⟩,
    fun s c op addr size hc hsize haddr => ?_, fun ok s h => ?_, fun ok s o rest hops hsave => flashCommandDone_effect s ok hops hsave⟩
  · exact imageLoad_effect s hu hready hcore hheld
  · refine (exec_armSectionArming s hp).trans (congrArg Host.Outcome.next (State.armSection_waits _ hp ?_))
    rintro (h | h | h)
    · exact h0 h
    · exact hservo (beq_iff_eq.mp h)
    · exact absurd h.2 (by omega)
  · refine (exec_armSectionArming s hp).trans (congrArg Host.Outcome.next (State.armSection_waits _ hp ?_))
    rintro (h | h | h)
    · exact h0 h
    · exact hservo (beq_iff_eq.mp h)
    · exact h1 h.1
  · have hexec := exec_armSectionArming s hp
    obtain ⟨hplan, hlcnt, hseen⟩ := (s.at_ (boundaryAt s.lcnt)).armSection_acts (b := boundaryAt s.lcnt) hp
      (hmet.imp_right fun h => h.imp_left fun h => beq_iff_eq.mpr h)
    exact ⟨_, hexec, hplan, hlcnt, hseen, (fewCommandsWriteTheMemories _ _ _ hexec).2, (exec_memEffect _ hexec).pending_eq⟩
  · subst haddr hsize
    simp only [List.mem_cons, Prod.mk.injEq, List.not_mem_nil, or_false] at hc
    rcases hc with ⟨rfl, rfl⟩ | ⟨rfl, rfl⟩ | ⟨rfl, rfl⟩ | ⟨rfl, rfl⟩
    · exact flashCmd_effect s rfl
    · exact flashCmd_effect s rfl
    · exact flashCmd_effect s rfl
    · exact flashCmd_effect s rfl
  · show Host.Outcome.next (match s.flashOps, s.cal.saving with
      | o :: rest, none => _
      | _, _ => _) = _
    rcases h with h | h
    · rw [h]
    · cases hsave : s.cal.saving with
      | none => exact absurd hsave h
      | some x => cases s.flashOps <;> rfl

end Sys2Proof.Machine
end

section
/-! SUPPORT. Commits: requests, the boundary that decides one, what it shows (R352, R355-R360, R363). -/

namespace Sys2Proof.Machine

open Sys2Proof.Safety

/-! ### What a result shows (R359, R360) -/

/-- The fields of a result. -/
def outcomeFlds : List Fld := [F.CFG_RESULT_OUTCOME, F.CFG_RESULT_NFAIL, F.CFG_RESULT_REASON] ++ wideFlds R.CFG_REASONS 2

/-- A result is shown, and nothing beside it changes. -/
structure ResultShown (outcome : Nat) (codes : List Nat) (s t : State) : Prop where
  outcome : t.get F.CFG_RESULT_OUTCOME = outcome % 16
  nfail : t.get F.CFG_RESULT_NFAIL = codes.length % 64
  reasons : t.getN R.CFG_REASONS 2 = maskOf codes % 2 ^ 64
  reg : changesOnly outcomeFlds s t
  word : ∀ off, (off < 0x1000C ∨ 0x10018 ≤ off) → t.regs.word off = s.regs.word off
  frame : t = { s with regs := t.regs }

section
variable (s : State)

theorem State.result_effect (outcome : Nat) (codes : List Nat) : ResultShown outcome codes s (s.result outcome codes) := by
  refine ⟨?_, ?_, State.getN_putN_mod _ _ _ rfl, .putN (.put (.put (.put (.refl _ _) (by simp [outcomeFlds])) (by simp [outcomeFlds]))
    (by simp [outcomeFlds])) (fun f h => by simp [outcomeFlds, h]), fun off ho => ?_, rfl⟩
  · refine (State.get_putN_other _ _ _ _ _ (.inl (by decide))).trans ?_
    exact (RegTab.fld_setFld_sep _ _ (.of rfl (by omega))).trans ((RegTab.fld_setFld_sep _ _ (.of rfl (by omega))).trans
      (RegTab.fld_setFld_self _ _ (.of rfl (by omega))))
  · refine (State.get_putN_other _ _ _ _ _ (.inl (by decide))).trans ?_
    exact (RegTab.fld_setFld_sep _ _ (.of rfl (by omega))).trans (RegTab.fld_setFld_self _ _ (.of rfl (by omega)))
  · have h : off ≠ 0x1000C := by omega
    refine (RegTab.word_setWide_other _ _ _ _ _ (by simp only [R.CFG_REASONS]; omega)).trans ?_
    exact (RegTab.word_setFld_other _ _ _ _ h).trans ((RegTab.word_setFld_other _ _ _ _ h).trans (RegTab.word_setFld_other _ _ _ _ h))

/-- The mask of some codes is no zero, nor too large for its register. -/
theorem maskOf_bounds {l : List Nat} (hne : l ≠ []) (hl : ∀ k ∈ l, k < 64) : 0 < maskOf l ∧ maskOf l < 2 ^ 64 := by
  have hset : ∀ m k : Nat, m < 2 ^ 64 → k < 64 → 0 < (if bitOf m k then m else m + 2 ^ k) ∧ (if bitOf m k then m else m + 2 ^ k) < 2 ^ 64 := by
    intro m k hm hk
    have hpow : (2 : Nat) ^ 64 = 2 ^ (63 - k) * 2 * 2 ^ k := by
      rw [← Nat.pow_succ, ← Nat.pow_add]
      congr 1
      omega
    have hpos := Nat.two_pow_pos k
    split
    next hbit =>
      refine ⟨Nat.pos_of_ne_zero fun h => ?_, hm⟩
      rw [h] at hbit
      simp [bitOf] at hbit
    next hbit =>
      refine ⟨by omega, ?_⟩
      have heven : m / 2 ^ k % 2 = 0 := by
        simp only [bitOf, beq_iff_eq] at hbit
        omega
      have hlt : m / 2 ^ k < 2 ^ (63 - k) * 2 := (Nat.div_lt_iff_lt_mul hpos).mpr (hpow ▸ hm)
      rw [hpow]
      refine (Nat.div_lt_iff_lt_mul hpos).mp ?_
      rw [Nat.add_div_right _ hpos]
      omega
  have hfold : ∀ (l : List Nat) (m : Nat), m < 2 ^ 64 → 0 < m ∨ l ≠ [] → (∀ k ∈ l, k < 64) →
      0 < l.foldl (fun m k => if bitOf m k then m else m + 2 ^ k) m ∧ l.foldl (fun m k => if bitOf m k then m else m + 2 ^ k) m < 2 ^ 64 := by
    intro l
    induction l with
    | nil => exact fun m hm h _ => ⟨h.resolve_right (by simp), hm⟩
    | cons x xs ih =>
      intro m hm _ hk
      obtain ⟨h1, h2⟩ := hset m x hm (hk x (by simp))
      exact ih _ h2 (.inl h1) fun k h => hk k (by simp [h])
  exact hfold l 0 (Nat.two_pow_pos 64) (.inr hne) hl

theorem State.failing_lt (b : Nat) (r n : RegTab) (d : Demand) : ∀ k ∈ s.failing b r n d, k < 64 := by
  unfold State.failing
  intro k hk
  have hlist := (List.filter_sublist.map Prod.fst).subset hk
  simp only [List.map_append, List.map_cons, List.map_nil] at hlist
  clear hk
  revert k
  decide

/-- A request that ends is pending no more. -/
theorem State.settleReq_effect : s.settleReq.commit = none ∧ s.settleReq.flag F.GLOBAL_STATE_SHADOW_PENDING = false ∧
    s.settleReq.regs = s.regs.setFld F.GLOBAL_STATE_SHADOW_PENDING 0 ∧ s.settleReq.shadow = s.shadow ∧ s.settleReq.lcnt = s.lcnt ∧
    changesOnly [F.GLOBAL_STATE_SHADOW_PENDING] s s.settleReq := by
  have hclr : ({ s.clrF F.GLOBAL_STATE_SHADOW_PENDING with commit := none } : State).regs = s.regs.setFld F.GLOBAL_STATE_SHADOW_PENDING 0 := rfl
  have hpend : (s.regs.setFld F.GLOBAL_STATE_SHADOW_PENDING 0).bit F.GLOBAL_STATE_SHADOW_PENDING = false := RegTab.bit_setFld_zero _ (.of rfl (by omega))
  have hkept : changesOnly [F.GLOBAL_STATE_SHADOW_PENDING] s ({ s.clrF F.GLOBAL_STATE_SHADOW_PENDING with commit := none } : State) :=
    .parts (.put (.refl _ _) (by simp)) rfl rfl rfl rfl
  have hnone : ({ s.clrF F.GLOBAL_STATE_SHADOW_PENDING with commit := none } : State).commit = none := rfl
  have hshadow : ({ s.clrF F.GLOBAL_STATE_SHADOW_PENDING with commit := none } : State).shadow = s.shadow := rfl
  have hlcnt : ({ s.clrF F.GLOBAL_STATE_SHADOW_PENDING with commit := none } : State).lcnt = s.lcnt := rfl
  unfold State.settleReq
  dsimp only
  generalize ({ s.clrF F.GLOBAL_STATE_SHADOW_PENDING with commit := none } : State) = u at *
  split
  · have hframe := u.signal_frame 0 (u.get F.CFG_VEC_VEC)
    have hregs := (congrArg State.regs hframe).trans hclr
    refine ⟨(congrArg State.commit hframe).trans hnone, (congrArg (fun r => r.bit F.GLOBAL_STATE_SHADOW_PENDING) hregs).trans hpend, hregs,
      (congrArg State.shadow hframe).trans hshadow, (congrArg State.lcnt hframe).trans hlcnt, ?_⟩
    rw [hframe]
    exact .parts hkept rfl rfl rfl rfl
  · exact ⟨hnone, (congrArg (fun r => r.bit F.GLOBAL_STATE_SHADOW_PENDING) hclr).trans hpend, hclr, hshadow, hlcnt, hkept⟩

end

/-! ### Requests (R356, R357) -/

section
variable (s : State)

theorem State.hostRequest_ignored {kind grp a : Nat} (h : s.commit.isSome = true) :
    s.hostRequest kind grp a = (s.at_ a).setF F.CFG_STATUS_REQ_IGNORED := if_pos (Or.inl h)

theorem State.hostRequest_pends {kind grp a : Nat} (h : s.commit = none) (hk : kind < 3) : s.hostRequest kind grp a = (s.at_ a).request kind grp a
    (if kind = 2 then max (tickDue a) (boundaryAt (s.getN R.CFG_AT_LCNT 2)) else tickDue a) (s.getN R.CFG_AT_LCNT 2) .host := by
  refine if_neg ?_
  rintro (hc | hc)
  · rw [show (s.at_ a).commit = none from h] at hc
    exact absurd hc (by decide)
  · omega

theorem State.reqTick_host (a : Nat) (h : s.commit.isSome = true ∨ s.loader.waiting = false) : s.reqTick a = s.hostRequest 0 0 a := by
  refine if_neg fun hc => ?_
  rcases h with h | h
  · exact absurd (hc.2 ▸ h) (by decide)
  · exact absurd (h.symm.trans hc.1) (by decide)

theorem State.request_effect (kind grp a due target : Nat) (origin : Origin) :
    (s.request kind grp a due target origin).flag F.GLOBAL_STATE_SHADOW_PENDING = true ∧
    (s.request kind grp a due target origin).commit = some ⟨kind, grp, a, due, target, 0, origin⟩ ∧
    changesOnly [F.GLOBAL_STATE_SHADOW_PENDING] s (s.request kind grp a due target origin) :=
  ⟨RegTab.bit_setFld_one _ (.of rfl (by omega)), rfl, .parts (.put (.refl _ _) (by simp)) rfl rfl rfl rfl⟩

theorem hostRequest_effect {c : Instr} {kind grp a due : Nat} (hexec : exec c s = .next (s.hostRequest kind grp a)) (hc : s.commit = none) (hk : kind < 3)
    (hdue : due = if kind = 2 then max (tickDue a) (boundaryAt (s.getN R.CFG_AT_LCNT 2)) else tickDue a) :
    ∃ t, exec c s = .next t ∧ t.flag F.GLOBAL_STATE_SHADOW_PENDING = true ∧
      t.commit = some ⟨kind, grp, a, due, s.getN R.CFG_AT_LCNT 2, 0, .host⟩ ∧ changesOnly [F.GLOBAL_STATE_SHADOW_PENDING] s t ∧
      t = { s with lcnt := max s.lcnt a, regs := t.regs, commit := t.commit } := by
  rw [s.hostRequest_pends hc hk] at hexec
  subst hdue
  obtain ⟨hpend, hcommit, hkept⟩ := (s.at_ a).request_effect kind grp a
    (if kind = 2 then max (tickDue a) (boundaryAt (s.getN R.CFG_AT_LCNT 2)) else tickDue a) (s.getN R.CFG_AT_LCNT 2) .host
  exact ⟨_, hexec, hpend, hcommit, ((changesOnly.refl _ s).parts rfl rfl rfl rfl).trans hkept, rfl⟩

/-! ### The frozen shadow set (R357) -/

/-- A write of words of RWS bits alone while a commit is pending. -/
theorem State.writeWords_frozen {u : State} {l : List (Nat × Word)} {p : Nat × Word} (a : Nat) (hc : u.commit.isSome = true) (hp : p ∈ l)
    (hl : ∀ p ∈ l, (masksAt p.1).rws ≠ 0 ∧ (masksAt p.1).rw = 0 ∧ (masksAt p.1).w1c = 0 ∧ (masksAt p.1).wo = 0) :
    (u.writeWords 0 a l).shadow = u.shadow ∧ (u.writeWords 0 a l).commit = u.commit ∧
    (u.writeWords 0 a l).flag F.CFG_STATUS_WR_IGNORED = true ∧
    (u.writeWords 0 a l).get F.CFG_WR_IGN_CNT_COUNT = min (u.get F.CFG_WR_IGN_CNT_COUNT + 1) (2 ^ 32 - 1) := by
  have hacts : ∀ p ∈ l, noneActs p.1 := fun p hp => (hl p hp).2
  have hclosed : u.shadowOpen = false := by
    rw [State.shadowOpen, Option.isNone_eq_false_iff.mpr hc, Bool.false_and]
  rw [write_frozen a hacts hp (hl p hp).1 hclosed]
  obtain ⟨hcount, hpending, -, hframe⟩ := (u.at_ a).wrIgnored_effect
  exact ⟨(congrArg State.shadow hframe).trans rfl, (congrArg State.commit hframe).trans rfl, (hpending hc).1, hcount⟩

theorem registerWrite_frozen {a off : Nat} {v : BitVec 32} {hi : Option (BitVec 32)} (hc : s.commit.isSome = true) (hb : inBcast off = false)
    (hmask : ∀ o ∈ (if isHigh off then [off - 4, off] else if hi.isSome then [off, off + 4] else [off]),
      (masksAt o).rws ≠ 0 ∧ (masksAt o).rw = 0 ∧ (masksAt o).w1c = 0 ∧ (masksAt o).wo = 0)
    (hlow : isLow off = hi.isSome) (hhigh : isHigh off = true → hi = none) : ∃ t,
      exec (.registerWrite 0 a off v hi) s = .next t ∧ t.shadow = s.shadow ∧ t.commit = s.commit ∧
      t.flag F.CFG_STATUS_WR_IGNORED = true ∧
      t.get F.CFG_WR_IGN_CNT_COUNT = min (s.get F.CFG_WR_IGN_CNT_COUNT + 1) (2 ^ 32 - 1) := by
  cases hi with
  | some w =>
    have hnot : isHigh off = false := Bool.eq_false_iff.mpr fun h => absurd (hhigh h) (by simp)
    rw [hnot] at hmask
    have hexec : exec (.registerWrite 0 a off v (some w)) s = .next ((s.setHeld 0 off none).writeWords 0 a [(off, v), (off + 4, w)]) :=
      congrArg Host.Outcome.next (if_pos hlow)
    exact ⟨_, hexec, State.writeWords_frozen (u := s.setHeld 0 off none) a hc List.mem_cons_self (by simpa using hmask)⟩
  | none =>
    have hexec : exec (.registerWrite 0 a off v none) s = .next (s.write4 0 a off v) := rfl
    unfold State.write4 at hexec
    rw [if_neg (by simp [hb]), if_neg (by simp [State.mayWrite_zero]), if_neg (by simp [hlow])] at hexec
    by_cases hh : isHigh off = true
    · rw [if_pos hh] at hmask
      obtain ⟨hpair, hself⟩ : _ ∧ _ := ⟨hmask (off - 4) (by simp), hmask off (by simp)⟩
      rw [if_pos ⟨hh, .inr (by simp [hasRw, hself.1])⟩] at hexec
      cases hheld : s.heldLow 0 (off - 4) with
      | some l =>
        rw [hheld] at hexec
        exact ⟨_, hexec, State.writeWords_frozen (u := s.setHeld 0 (off - 4) none) a hc List.mem_cons_self (by simpa using ⟨hpair, hself⟩)⟩
      | none =>
        rw [hheld] at hexec
        exact ⟨_, hexec, State.writeWords_frozen a hc List.mem_cons_self (by simpa using hself)⟩
    · rw [if_neg hh] at hmask
      rw [if_neg fun h => hh h.1] at hexec
      exact ⟨_, hexec, State.writeWords_frozen a hc List.mem_cons_self (by simpa using hmask)⟩

end

/-! ### CANCEL and RELOAD (R357, R363) -/

section
variable (s : State)

theorem cancel_effect {a : Nat} {c : Commit} (hc : s.commit = some c) (hdue : a + 64 ≤ c.due) : ∃ t, exec (.cfgCancel a) s = .next t ∧ t.commit = none ∧
      t.get F.CFG_RESULT_OUTCOME = 3 ∧ t.flag F.GLOBAL_STATE_SHADOW_PENDING = false ∧
      changesOnly ([F.CFG_RESULT_OUTCOME, F.CFG_RESULT_NFAIL, F.CFG_RESULT_REASON, F.GLOBAL_STATE_SHADOW_PENDING] ++
        wideFlds R.CFG_REASONS 2) s t ∧ t = { s with lcnt := t.lcnt, regs := t.regs, commit := t.commit } := by
  have hexec : exec (.cfgCancel a) s = .next { (((s.at_ a).result 3 []).clrF F.GLOBAL_STATE_SHADOW_PENDING) with commit := none } := by
    show Host.Outcome.next (match s.commit with | none => _ | some c => _) = _
    rw [hc]
    exact congrArg Host.Outcome.next (if_pos hdue)
  obtain ⟨houtcome, -, -, hkept, -, hframe⟩ := (s.at_ a).result_effect 3 []
  generalize (s.at_ a).result 3 [] = u at *
  refine ⟨_, hexec, rfl, ?_, RegTab.bit_setFld_zero _ (.of rfl (by omega)), ?_, ?_⟩
  · exact (RegTab.fld_setFld_sep _ _ (.of rfl (by omega))).trans houtcome
  · refine changesOnly.parts (.put (((changesOnly.refl _ s).parts (t := s.at_ a) rfl rfl rfl rfl).trans (hkept.mono ?_)) (by simp)) rfl rfl rfl rfl
    simp only [outcomeFlds, List.mem_append, List.mem_cons, List.not_mem_nil, or_false]
    tauto
  · exact (congrArg (fun x : State => ({ x.clrF F.GLOBAL_STATE_SHADOW_PENDING with commit := none } : State)) hframe).trans (by rw [hframe]; rfl)

/-- Without its RW bits an image changes the shadow set alone. -/
theorem State.loadWords_shadow (off : Nat) (vs : List Nat) : s.loadWords false off vs = { s with shadow := (s.loadWords false off vs).shadow } := by
  induction vs generalizing s off with
  | nil => rfl
  | cons v vs ih =>
    have hword : s.loadWord false off v = { s with shadow := (s.loadWord false off v).shadow } := by
      unfold State.loadWord State.rwsWord
      dsimp only
      rw [if_neg Bool.false_ne_true]
      split <;> rfl
    rw [State.loadWords]
    have hrest := ih (s.loadWord false off v) (off + 4)
    generalize (s.loadWord false off v).loadWords false (off + 4) vs = u at *
    rw [hrest, hword]

theorem State.loadWrites_shadow (img : Image) : s.loadWrites false img = { s with shadow := (s.loadWrites false img).shadow } := by
  unfold State.loadWrites
  refine List.foldlRecOn (motive := fun t : State => t = { s with shadow := t.shadow }) _ _ rfl fun t ht p _ => ?_
  have hwords := t.loadWords_shadow p.1 p.2
  generalize t.loadWords false p.1 p.2 = u at *
  rw [hwords, ht]

theorem reload_effect (a : Nat) (slot : Fin 2) :
    (s.commit.isSome = true → exec (.cfgReload a slot) s = .next ((s.at_ a).setF F.CFG_STATUS_REQ_IGNORED)) ∧
    (s.commit = none → s.slotImage slot = none → ∃ t, exec (.cfgReload a slot) s = .next t ∧ t.get F.CFG_RESULT_OUTCOME = 4 ∧
      changesOnly ([F.CFG_RESULT_OUTCOME, F.CFG_RESULT_NFAIL, F.CFG_RESULT_REASON] ++ wideFlds R.CFG_REASONS 2) s t ∧
      t = { s with lcnt := t.lcnt, regs := t.regs }) ∧
    (∀ img, s.commit = none → s.slotImage slot = some img → ∃ t, exec (.cfgReload a slot) s = .next t ∧
      t.commit = some ⟨0, 0, a, tickDue a, 0, 0, .reload slot img⟩ ∧ t.flag F.GLOBAL_STATE_SHADOW_PENDING = true ∧
      changesOnly [F.CFG_WR_IGN_CNT_COUNT, F.GLOBAL_STATE_SHADOW_PENDING] s t ∧
      t = { s with lcnt := t.lcnt, regs := t.regs, shadow := t.shadow, commit := t.commit }) := by
  have hopen : s.commit = none → exec (.cfgReload a slot) s = .next (match s.slotImage slot with
      | none => (s.at_ a).result 4 []
      | some img => (((s.at_ a).loadWrites false img).addSat F.CFG_WR_IGN_CNT_COUNT (img.writes.filter rwRecord).length).request 0 0 a (tickDue a) 0
        (.reload slot img)) := fun hc => congrArg Host.Outcome.next (if_neg (by rw [show (s.at_ a).commit = none from hc]; decide))
  refine ⟨fun hc => congrArg Host.Outcome.next (if_pos hc), fun hc himg => ?_, fun img hc himg => ?_⟩
  · have hexec := hopen hc
    rw [himg] at hexec
    obtain ⟨houtcome, -, -, hkept, -, hframe⟩ := (s.at_ a).result_effect 4 []
    exact ⟨_, hexec, houtcome, ((changesOnly.refl _ s).parts rfl rfl rfl rfl).trans hkept, by rw [hframe]; rfl⟩
  · have hexec : exec (.cfgReload a slot) s = .next ((((s.at_ a).loadWrites false img).addSat F.CFG_WR_IGN_CNT_COUNT
        (img.writes.filter rwRecord).length).request 0 0 a (tickDue a) 0 (.reload slot img)) := (hopen hc).trans (by rw [himg])
    have hshadow := (s.at_ a).loadWrites_shadow img
    generalize (s.at_ a).loadWrites false img = u at *
    have hkept : changesOnly [F.CFG_WR_IGN_CNT_COUNT, F.GLOBAL_STATE_SHADOW_PENDING] s u := by
      rw [hshadow]
      exact .parts (.refl _ s) rfl rfl rfl rfl
    obtain ⟨hpend, hcommit, hown⟩ := (u.addSat F.CFG_WR_IGN_CNT_COUNT (img.writes.filter rwRecord).length).request_effect 0 0 a (tickDue a) 0
      (.reload slot img)
    refine ⟨_, hexec, hcommit, hpend, (hkept.put (f := F.CFG_WR_IGN_CNT_COUNT) (by simp)).trans (hown.mono (by simp)), ?_⟩
    rw [hshadow]
    rfl

end

/-! ### COMMIT_APPLY (R356) -/

section
variable (s : State)

theorem exec_commitApply {h : Nat} {c : Commit} (hc : s.commit = some c) :
    exec (.commitApply h) s = .next (if (c.kind != 1 || s.recBoundary c.grp c.due) = true ∨ s.get F.CFG_REC_MAX_TICKS ≤ c.waited then
      (s.at_ c.due).decideCommit c.due h c (!(c.kind != 1 || s.recBoundary c.grp c.due))
      else { s.at_ c.due with commit := some { c with waited := c.waited + 1, due := c.due + 2048 } }) := by
  have hexec : exec (.commitApply h) s = .next ((s.at_ c.due).commitAtB c.due h) := by
    show Host.Outcome.next (match s.commit with | none => _ | some c => _) = _
    rw [hc]
  have hcommit : (s.at_ c.due).commitAtB c.due h = if c.due < c.due then s.at_ c.due else
      if (c.kind != 1 || s.recBoundary c.grp c.due) = true ∨ s.get F.CFG_REC_MAX_TICKS ≤ c.waited then
      (s.at_ c.due).decideCommit c.due h c (!(c.kind != 1 || s.recBoundary c.grp c.due))
      else { s.at_ c.due with commit := some { c with waited := c.waited + 1, due := c.due + 2048 } } := by
    unfold State.commitAtB
    rw [show (s.at_ c.due).commit = some c from hc]
    rfl
  rw [hexec, hcommit, if_neg (Nat.lt_irrefl _)]

theorem exec_commitApply_decides {h : Nat} {c : Commit} (hc : s.commit = some c)
    (hgo : c.kind ≠ 1 ∨ s.recBoundary c.grp c.due = true ∨ s.get F.CFG_REC_MAX_TICKS ≤ c.waited) :
    exec (.commitApply h) s = .next ((s.at_ c.due).decideCommit c.due h c (!(c.kind != 1 || s.recBoundary c.grp c.due))) := by
  refine (exec_commitApply s hc).trans (congrArg Host.Outcome.next (if_pos ?_))
  simp only [Bool.or_eq_true, bne_iff_ne]
  tauto

theorem exec_commitApply_waits {h : Nat} {c : Commit} (hc : s.commit = some c) (hkind : c.kind = 1) (hrec : s.recBoundary c.grp c.due = false)
    (hwait : c.waited < s.get F.CFG_REC_MAX_TICKS) :
    exec (.commitApply h) s = .next { s.at_ c.due with commit := some { c with waited := c.waited + 1, due := c.due + 2048 } } := by
  refine (exec_commitApply s hc).trans (congrArg Host.Outcome.next (if_neg ?_))
  rw [hrec, hkind]
  simp
  exact hwait

end

/-! ### The decision (R356, R358) -/

section
variable (s : State)

/-- An applied commit is pending no more, and what it shows. -/
theorem State.applied_effect (b kind w : Nat) (left : List Nat) : (s.applied b kind w left).commit = none ∧
    (s.applied b kind w left).flag F.GLOBAL_STATE_SHADOW_PENDING = false ∧ (s.applied b kind w left).get F.CFG_RESULT_OUTCOME = 1 ∧
    (s.applied b kind w left).get F.CFG_RESULT_NFAIL = 0 ∧ (s.applied b kind w left).getN R.CFG_APPLY_LCNT 2 = b % 2 ^ 64 := by
  unfold State.applied
  extract_lets s1 s2
  have hput : s1.getN R.CFG_APPLY_LCNT 2 = b % 2 ^ 64 := (State.getN_putN_mod _ _ _ rfl).trans (Nat.mod_mod _ _)
  have hposts : s2.getN R.CFG_APPLY_LCNT 2 = s1.getN R.CFG_APPLY_LCNT 2 :=
    State.foldl_same (fun t : State => t.getN R.CFG_APPLY_LCNT 2) _ _ s1 fun t n => State.wide_post _ _ _ _ _ (by decide)
  clear_value s1
  have hlogged : (s2.post b 0x0F01 s2.locusHub (s1.get F.CFG_SEQ_COUNT + kind * 2 ^ 32 + w * 2 ^ 40)).getN R.CFG_APPLY_LCNT 2 = b % 2 ^ 64 :=
    (State.wide_post _ _ _ _ _ (by decide)).trans (hposts.trans hput)
  generalize s2.post b 0x0F01 s2.locusHub (s1.get F.CFG_SEQ_COUNT + kind * 2 ^ 32 + w * 2 ^ 40) = u at *
  obtain ⟨houtcome, hnfail, -, -, hword, -⟩ := u.result_effect 1 []
  generalize u.result 1 [] = v at *
  obtain ⟨hcommit, hpend, hregs, -⟩ := v.settleReq_effect
  have hother : ∀ off, off ≠ 4 → v.settleReq.regs.word off = v.regs.word off := fun off ho => by
    rw [hregs]
    exact RegTab.word_setFld_other _ _ _ _ ho
  refine ⟨hcommit, hpend, (RegTab.fld_congr (hother _ (by decide))).trans houtcome, (RegTab.fld_congr (hother _ (by decide))).trans hnfail, ?_⟩
  refine (RegTab.wide_congr 2 _ fun j h1 h2 => ?_).trans hlogged
  simp only [R.CFG_APPLY_LCNT] at h1 h2
  exact (hother j (by omega)).trans (hword j (.inr (by omega)))

/-- A refused commit is pending no more, and what it shows. -/
theorem State.refused_effect (b w : Nat) {codes : List Nat} (hne : codes ≠ []) (hcodes : ∀ k ∈ codes, k < 64) : (s.refused b w codes).commit = none ∧
    (s.refused b w codes).flag F.GLOBAL_STATE_SHADOW_PENDING = false ∧ (s.refused b w codes).get F.CFG_RESULT_OUTCOME = 2 ∧
    (s.refused b w codes).getN R.CFG_REASONS 2 ≠ 0 ∧ (s.refused b w codes).shadow = s.shadow ∧ (s.refused b w codes).lcnt = s.lcnt ∧
    changesOnly (outcomeFlds ++ [F.GLOBAL_STATE_SHADOW_PENDING] ++ logFlds) s (s.refused b w codes) := by
  have hlogged : changesOnly (outcomeFlds ++ [F.GLOBAL_STATE_SHADOW_PENDING] ++ logFlds) s (s.post b 0x0F02 s.locusHub (maskOf codes + w * 2 ^ 64)) :=
    .post (.refl _ _)
  have hpost := s.post_eq b 0x0F02 s.locusHub (maskOf codes + w * 2 ^ 64)
  unfold State.refused
  generalize s.post b 0x0F02 s.locusHub (maskOf codes + w * 2 ^ 64) = u at *
  have hshadow : u.shadow = s.shadow := (congrArg State.shadow hpost).trans rfl
  have hlcnt : u.lcnt = s.lcnt := (congrArg State.lcnt hpost).trans rfl
  obtain ⟨houtcome, -, hreasons, hshown, -, hframe⟩ := u.result_effect 2 codes
  generalize u.result 2 codes = v at *
  obtain ⟨hcommit, hpend, hregs, hsame, htime, hended⟩ := v.settleReq_effect
  have hother : ∀ off, off ≠ 4 → v.settleReq.regs.word off = v.regs.word off := fun off ho => by
    rw [hregs]
    exact RegTab.word_setFld_other _ _ _ _ ho
  obtain ⟨hpos, hlt⟩ := maskOf_bounds hne hcodes
  refine ⟨hcommit, hpend, (RegTab.fld_congr (hother _ (by decide))).trans houtcome, ?_, ?_, ?_, ?_⟩
  · have hwide : v.settleReq.getN R.CFG_REASONS 2 = v.getN R.CFG_REASONS 2 := RegTab.wide_congr 2 _ fun j h1 h2 => by
      simp only [R.CFG_REASONS] at h1 h2
      exact hother j (by omega)
    rw [hwide, hreasons, Nat.mod_eq_of_lt hlt]
    omega
  · exact hsame.trans (((congrArg State.shadow hframe).trans rfl).trans hshadow)
  · exact htime.trans (((congrArg State.lcnt hframe).trans rfl).trans hlcnt)
  · exact (hlogged.trans (hshown.mono fun f h => by simp [h])).trans (hended.mono fun f h => by simp [List.mem_singleton.mp h])

theorem State.imageApplied_commit (b slot : Nat) (img : Image) (phase : Nat) : (s.imageApplied b slot img phase).commit = s.commit := by
  unfold State.imageApplied State.planArms
  dsimp only
  split
  · simp
  · simp

theorem State.fallback_commit : s.fallback.commit = s.commit := by
  unfold State.fallback
  dsimp only
  split
  next k img _ =>
    exact ((s.post s.lcnt 0x0F04 s.locusHub 0).loadSlot_effect k img).1.trans (s.post_stays _ _ _ _).2.1
  next => exact (s.setPhase_stays 4).2.1

/-- A commit that is decided is pending no more. -/
theorem State.decideCommit_ends (b inHigh : Nat) (c : Commit) (forced : Bool) : (s.decideCommit b inHigh c forced).commit = none := by
  unfold State.decideCommit
  extract_lets s0 back named n dm w codes img done arm t u
  have harm : ∀ u : State, (arm u).commit = u.commit := fun u => State.foldl_commit _ _ u fun t g => (t.armApply_stays g b).2.1
  have hcodes : ∀ k ∈ codes, k < 64 := s0.failing_lt b named n dm.1
  split
  next hpass =>
    have ht : t.commit = none := (harm _).trans (State.applied_effect _ _ _ _ _).1
    clear_value t
    split
    · exact (t.imageApplied_commit _ _ _ _).trans ht
    · exact (t.imageApplied_commit _ _ _ _).trans ht
    · exact ht
  next hfail =>
    have hu : u.commit = none := (harm _).trans (State.refused_effect _ _ _ hfail hcodes).1
    clear_value u
    split
    · exact u.fallback_commit.trans hu
    · exact hu

/-! ### A host's request while no group is armed or resetting -/

/-- What a decision shows of the set asked for and of its own time. -/
def State.decisionShown (s : State) (w : Nat) (c : Commit) (forced : Bool) : State := (s.put F.STO_SHADOW_DEMAND_BYTES w).commitFlags c forced

/-- The fields of that. -/
def decisionFlds : List Fld := [F.STO_SHADOW_DEMAND_BYTES, F.CFG_STATUS_CFG_LATE, F.CFG_STATUS_REC_FORCED, F.CFG_STATUS_AT_MISSED]

theorem State.setF_shadow (f : Fld) : (s.setF f).shadow = s.shadow := rfl

theorem State.decisionShown_effect (w : Nat) (c : Commit) (forced : Bool) : changesOnly decisionFlds s (s.decisionShown w c forced) ∧
    (s.decisionShown w c forced).shadow = s.shadow ∧ (s.decisionShown w c forced).lcnt = s.lcnt := by
  have hput : changesOnly decisionFlds s (s.put F.STO_SHADOW_DEMAND_BYTES w) := .put (.refl _ _) (by simp [decisionFlds])
  refine ⟨?_, ?_, ?_⟩
  · unfold State.decisionShown State.commitFlags
    dsimp only
    generalize s.put F.STO_SHADOW_DEMAND_BYTES w = u at *
    have h1 : changesOnly decisionFlds s (if tickDue c.a = boundaryAfter c.a then u else u.setF F.CFG_STATUS_CFG_LATE) :=
      .ite hput (hput.put (by simp [decisionFlds]))
    have h2 := changesOnly.ite (c := forced = true) (h1.put (f := F.CFG_STATUS_REC_FORCED) (v := 1) (by simp [decisionFlds])) h1
    exact .ite (h2.put (by simp [decisionFlds])) h2
  · simp [State.decisionShown, State.commitFlags, apply_ite State.shadow, State.setF_shadow]
  · simp [State.decisionShown]

theorem State.demand_frame (r : RegTab) : (s.demand r).2 = { s with free := (s.demand r).2.free } := by
  unfold State.demand
  split <;> rfl

theorem State.wShown_frame (d : Demand) : (s.wShown d).2 = { s with free := (s.wShown d).2.free } := by
  unfold State.wShown
  split <;> rfl

theorem State.decideCommit_host {b inHigh : Nat} {c : Commit} {forced : Bool} (hhost : c.origin = .host) (hreset : s.pwr.grpReset = 0)
    (harmed : ∀ g, (s.grp g).armed = false) : ∃ (u : State) (w : Nat) (codes : List Nat) (n : RegTab) (d : Demand), u = { s with free := u.free } ∧ (∀ k ∈ codes, k < 64) ∧
    s.decideCommit b inHigh c forced = if codes = [] then
      ((u.activate b inHigh n d w).decisionShown w c forced).applied b c.kind w (omitted s.named s.fenceMask)
      else (u.decisionShown w c forced).refused b w codes := by
  have hstop : ∀ g, s.stopDue g b = false := fun g => by
    unfold State.stopDue
    dsimp only
    split
    · rw [harmed g, Bool.false_and, Bool.false_and]
    · rfl
  have hs0 : (List.range 16).foldl (fun t g => (t.resetStop b g).stopNow b g) s = s := by
    refine List.foldlRecOn (motive := fun t => t = s) _ _ rfl fun t ht g _ => ?_
    subst ht
    have hkeep : t.resetStop b g = t := if_neg (by rw [hreset]; simp [bitOf])
    rw [hkeep]
    exact if_neg (by rw [hstop g]; exact Bool.false_ne_true)
  have hback : ∀ x : State, (List.range 16).filter (fun g => s.stopDue g b && ((x.grp g).armReq == some (b - 1))) = [] := fun x =>
    List.filter_eq_nil_iff.mpr fun g _ => by rw [hstop g, Bool.false_and]; exact Bool.false_ne_true
  obtain ⟨dm, hdm⟩ : ∃ dm, s.demand (leaveOut s.named s.fenceMask) = dm := ⟨_, rfl⟩
  obtain ⟨w, hw⟩ : ∃ w, dm.2.wShown dm.1 = w := ⟨_, rfl⟩
  have hframe : w.2 = { s with free := w.2.free } := by
    have h1 := s.demand_frame (leaveOut s.named s.fenceMask)
    have h2 := dm.2.wShown_frame dm.1
    rw [hdm] at h1
    rw [hw] at h2
    rw [h2, h1]
  refine ⟨w.2, w.1, s.failing b s.named (leaveOut s.named s.fenceMask) dm.1, leaveOut s.named s.fenceMask, dm.1, hframe, s.failing_lt b _ _ _, ?_⟩
  unfold State.decideCommit State.commitImage
  dsimp only
  rw [hs0, hback, hdm, hw, hhost]
  rfl

theorem State.showSpurs_lcnt : s.showSpurs.lcnt = s.lcnt :=
  State.foldl_lcnt _ _ s fun t i => by
    split
    · rfl
    · rfl

theorem State.clkCommit_lcnt (b : Nat) (old : RegTab) : (s.clkCommit b old).lcnt = s.lcnt := by
  simp [State.clkCommit, State.ite_stays, State.enterBypass, State.showSpurs_lcnt]

theorem State.activate_lcnt (b inHigh : Nat) (n : RegTab) (d : Demand) (w : Nat) : (s.activate b inHigh n d w).lcnt = s.lcnt := by
  simp [State.activate, State.foldl_lcnt, State.clkCommit_lcnt, State.stoCommit]

theorem decideHost_effect {h : Nat} {c : Commit} (hc : s.commit = some c) (hhost : c.origin = .host) (hreset : s.pwr.grpReset = 0)
    (harmed : ∀ g, (s.grp g).armed = false) : ∃ t, exec (.commitApply h) s = .next t ∧ t.commit = none ∧
      t.flag F.GLOBAL_STATE_SHADOW_PENDING = false ∧ t.lcnt = max s.lcnt c.due ∧
      ((t.get F.CFG_RESULT_OUTCOME = 1 ∧ t.get F.CFG_RESULT_NFAIL = 0 ∧ t.getN R.CFG_APPLY_LCNT 2 = c.due % 2 ^ 64) ∨
       (t.get F.CFG_RESULT_OUTCOME = 2 ∧ t.shadow = s.shadow ∧ t.getN R.CFG_REASONS 2 ≠ 0 ∧
        changesOnly ([F.STO_SHADOW_DEMAND_BYTES, F.CFG_STATUS_CFG_LATE, F.CFG_STATUS_REC_FORCED, F.CFG_STATUS_AT_MISSED,
          F.CFG_RESULT_OUTCOME, F.CFG_RESULT_NFAIL, F.CFG_RESULT_REASON, F.GLOBAL_STATE_SHADOW_PENDING] ++
          wideFlds R.CFG_REASONS 2 ++ logFlds) s t)) := by
  have hfree : s.recBoundary c.grp c.due = true := by
    rw [State.recBoundary, harmed c.grp]
    rfl
  have hexec := exec_commitApply_decides s (h := h) hc (.inr (.inl hfree))
  obtain ⟨u, w, codes, n, d, hu, hcodes, heq⟩ := (s.at_ c.due).decideCommit_host (b := c.due) (inHigh := h)
    (forced := !(c.kind != 1 || s.recBoundary c.grp c.due)) hhost hreset harmed
  rw [heq] at hexec
  have hsame : changesOnly [] s u := by
    rw [hu]
    exact .parts (.refl _ s) rfl rfl rfl rfl
  have hlcnt : u.lcnt = max s.lcnt c.due := (congrArg State.lcnt hu).trans rfl
  have hshadow : u.shadow = s.shadow := (congrArg State.shadow hu).trans rfl
  refine ⟨_, hexec, ?_⟩
  split
  next hpass =>
    obtain ⟨hcommit, hpend, houtcome, hnfail, hat⟩ := State.applied_effect ((u.activate c.due h n d w).decisionShown w c
      (!(c.kind != 1 || s.recBoundary c.grp c.due))) c.due c.kind w (omitted (s.at_ c.due).named (s.at_ c.due).fenceMask)
    refine ⟨hcommit, hpend, ?_, .inl ⟨houtcome, hnfail, hat⟩⟩
    rw [(State.applied_stays _ _ _ _ _).2.1, (State.decisionShown_effect _ _ _ _).2.2, State.activate_lcnt, hlcnt]
  next hfail =>
    obtain ⟨hshown, hstaged, htime⟩ := u.decisionShown_effect w c (!(c.kind != 1 || s.recBoundary c.grp c.due))
    generalize u.decisionShown w c (!(c.kind != 1 || s.recBoundary c.grp c.due)) = v at *
    obtain ⟨hcommit, hpend, houtcome, hreasons, hkept, hnow, hfields⟩ := v.refused_effect c.due w hfail hcodes
    refine ⟨hcommit, hpend, hnow.trans (htime.trans hlcnt), .inr ⟨houtcome, hkept.trans (hstaged.trans hshadow), hreasons, ?_⟩⟩
    refine ((hsame.mono (by simp)).trans (hshown.mono ?_)).trans (hfields.mono ?_)
    · simp only [decisionFlds, List.mem_append, List.mem_cons, List.not_mem_nil, or_false]
      tauto
    · simp only [outcomeFlds, List.mem_append, List.mem_cons, List.not_mem_nil, or_false]
      tauto

end

/-- Settles O10: a request pends by one equation of its command; the decision ends it by the last step of either outcome, whatever the
engines did before, and with no group armed or resetting nothing else is decided at that boundary. -/
theorem commitsPendAndAreDecided : Obligations.CommitsPendAndAreDecided := by
  unfold Obligations.CommitsPendAndAreDecided
  refine ⟨fun a g s hc c hmem => ?_, fun a off v hi s hc hb hmask hlow hhigh => registerWrite_frozen s hc hb hmask hlow hhigh,
    fun a g s hc hwait p hp => ?_, fun a s hc hwait => ?_, fun a s => ⟨fun hc => ?_, fun c hc hdue => cancel_effect s hc hdue, fun c hc hdue => ?_⟩,
    fun s => ⟨fun hp => congrArg Host.Outcome.next (if_pos hp), fun hp hd => ?_⟩, fun a slot s => reload_effect s a slot, fun h s hc => ?_,
    fun h s c hc => ⟨fun hkind hrec hwait => exec_commitApply_waits s hc hkind hrec hwait, fun hgo => ?_,
      fun hhost hreset harmed => decideHost_effect s hc hhost hreset harmed⟩⟩
  · simp only [List.mem_cons, List.not_mem_nil, or_false] at hmem
    rcases hmem with rfl | rfl | rfl
    · exact congrArg Host.Outcome.next ((s.reqTick_host a (.inl hc)).trans (s.hostRequest_ignored hc))
    · exact congrArg Host.Outcome.next (s.hostRequest_ignored hc)
    · exact congrArg Host.Outcome.next (s.hostRequest_ignored hc)
  · simp only [List.mem_cons, List.not_mem_nil, or_false] at hp
    rcases hp with rfl | rfl | rfl
    · exact hostRequest_effect s (congrArg Host.Outcome.next (s.reqTick_host a (.inr hwait))) hc (by simp) rfl
    · exact hostRequest_effect s rfl hc (by simp) rfl
    · exact hostRequest_effect s rfl hc (by simp) rfl
  · have hexec : exec (.commitReqTick a) s =
        .next (({ s.at_ a with loader := { s.loader with waiting := false } } : State).request 0 0 a (tickDue a) 0 .loader) :=
      congrArg Host.Outcome.next (if_pos ⟨hwait, hc⟩)
    obtain ⟨-, hcommit, hkept⟩ := ({ s.at_ a with loader := { s.loader with waiting := false } } : State).request_effect 0 0 a (tickDue a) 0 .loader
    exact ⟨_, hexec, hcommit, rfl, ((changesOnly.refl _ s).parts rfl rfl rfl rfl).trans hkept⟩
  · show Host.Outcome.next (match s.commit with | none => _ | some c => _) = _
    rw [hc]
  · show Host.Outcome.next (match s.commit with | none => _ | some c => _) = _
    rw [hc]
    exact congrArg Host.Outcome.next (if_neg (by omega))
  · refine congrArg Host.Outcome.next ((if_neg (by rw [hp]; exact Bool.false_ne_true)).trans ?_)
    rw [hd]
    rfl
  · show Host.Outcome.next (match s.commit with | none => _ | some c => _) = _
    rw [hc]
  · have hexec := exec_commitApply_decides s (h := h) hc hgo
    exact ⟨_, hexec, State.decideCommit_ends _ _ _ _ _, (exec_memEffect _ hexec).pending_eq, (fewCommandsWriteTheMemories _ _ _ hexec).2⟩

end Sys2Proof.Machine
end

section
/-! SUPPORT. A commit that relocks the sample clock while a calibration run waits (R259, Table 14.5). -/

namespace Sys2Proof.Machine

open Sys2Proof.Safety

section
variable (s : State)

/-! ### The switch to CLKBYP asks for an abort -/

theorem State.enterBypass_aborts (b : Nat) (h : s.cal.runs ≠ []) : (s.enterBypass b).cal.abort.isSome = true := by
  have hruns : ((s.setF F.CLK_STATUS_FABRIC_BYP).incSat F.CLK_SWITCH_CNT_COUNT).cal.runs = s.cal.runs := rfl
  simp only [State.enterBypass, hruns, if_neg h, Option.isSome_some]

/-- The clock's figures of a new set, before its loop follows it. -/
def State.clkShown (s : State) : State := (s.put F.CLK_BYP_RATIO_RATIO (bypRatio s.regs)).showSpurs

theorem State.clkCommit_aborts {old : RegTab} (b : Nat) (hchange : clkChange old s.clkShown.regs = true) (hsmall : s.clkSmall old s.clkShown.regs = false)
    (hbyp : s.clkShown.flag F.CLK_STATUS_FABRIC_BYP = false) (hok : s.clkShown.flag F.CLK_STATUS_BYP_OK = true) (hruns : s.clkShown.cal.runs ≠ []) :
    (s.clkCommit b old).cal.abort.isSome = true := by
  have hbypass := s.clkShown.enterBypass_aborts b hruns
  unfold State.clkCommit
  unfold State.clkShown at *
  generalize (s.put F.CLK_BYP_RATIO_RATIO (bypRatio s.regs)).showSpurs = u at *
  simp [hchange, hsmall, hbyp, hok, hbypass, State.ite_stays]

/-- The new set in force, before the engines follow it. -/
def State.setActive (s : State) (b : Nat) (n : RegTab) : State :=
  let wait := if s.dispRuns s.regs n then frameWords s.regs n s.disp.pend else []
  { s with
    regs := holdFrame s.regs n wait
    hist := histPush b (s.histKeep s.regs n b) s.regs s.hist
    shadow := wait
    clk := { s.clk with hand := [] } }

/-- What follows the clock in an applied commit leaves its abort. -/
theorem State.activate_abort (b inHigh : Nat) (n : RegTab) (d : Demand) (w : Nat) :
    (s.activate b inHigh n d w).cal.abort = (((s.setActive b n).stoCommit d w).clkCommit b s.loopRegs).cal.abort := by
  unfold State.activate State.setActive
  simp [State.foldl_abort]

/-- What follows the engines in a commit that passes leaves their abort. -/
theorem State.decideCommit_abort {c : Commit} {forced : Bool} (b inHigh : Nat) {s0 : State} {n : RegTab} {dm : Demand × State} {w : Nat × State}
    (hs0 : s0 = (List.range 16).foldl (fun t g => (t.resetStop b g).stopNow b g) s) (hn : n = leaveOut s0.named s0.fenceMask)
    (hdm : dm = s0.demand n) (hw : w = dm.2.wShown dm.1) (hhost : c.origin = .host) (hpass : s0.failing b s0.named n dm.1 = []) :
    (s.decideCommit b inHigh c forced).cal.abort = (w.2.activate b inHigh n dm.1 w.1).cal.abort := by
  subst hw hdm hn hs0
  unfold State.decideCommit
  dsimp only
  rw [if_pos hpass, hhost]
  simp [State.foldl_abort]

/-- A commit that is due and waits for no record boundary is decided. -/
theorem State.commitAtB_decides {b : Nat} (inHigh : Nat) {c : Commit} (hc : s.commit = some c) (hdue : c.due ≤ b) (hkind : c.kind ≠ 1) :
    s.commitAtB b inHigh = s.decideCommit b inHigh c false := by
  have hk : (c.kind != 1) = true := by simpa using hkind
  unfold State.commitAtB
  rw [hc]
  dsimp only
  rw [if_neg (by omega), hk, Bool.true_or, if_pos (Or.inl rfl)]
  rfl

end

/-! ### The concrete commit -/

/-- The reset device with its fabric on the PLL, a calibration run waiting, and a commit due that asks for another frequency. -/
def relockState : State := { State.reset with
  regs := [(R.CLK_STATUS, 8)]
  shadow := [(R.CLK_FCW_INT, 159)]
  commit := some ⟨0, 0, 0, 0, 0, 0, .host⟩
  cal := { State.reset.cal with runs := [⟨6, 1, 2, 0, none, false, false⟩] } }

/-- The same device once the tick has ended. -/
def relockEnded : State := { relockState with
  lcnt := 2048
  tick := 2048
  sto := { relockState.sto with served := [(5, 0)] } }

/-- The tick's end leads there, and no group's reset or stop is due. -/
theorem relockState_ends : ((({ relockState.at_ 2048 with tick := 2048 } : State).skipsDue).endTick 2048).calAbortAt 2048 = relockEnded ∧
    (List.range 16).foldl (fun t g => (t.resetStop 2048 g).stopNow 2048 g) relockEnded = relockEnded :=
  ⟨by decide +kernel, by decide +kernel⟩

/-- The set that the commit asks for. -/
def relockSet : RegTab := [(R.CLK_FCW_INT, 159), (R.CLK_STATUS, 8)]

/-- What the tally, the streams and the rest cost the store under that set (R168). -/
def relockDemand : Demand := { w := 1376733, acq := 1310720, staged := 1310720, res := 65536, ct := 16899220 }

/-- The set that is asked for, none of it left out, with its demand. -/
theorem relock_demand : relockEnded.named = relockSet ∧ leaveOut relockSet relockEnded.fenceMask = relockSet ∧
    relockEnded.demand relockSet = (relockDemand, relockEnded) ∧ relockEnded.wShown relockDemand = (1376733, relockEnded) :=
  ⟨by decide +kernel, by decide +kernel, by decide +kernel, by decide +kernel⟩

/-- The set passes every check; the tests that read most registers come one after the other, and the measurements of twelve channels
at a time, since each is a long evaluation in the kernel. -/
theorem relock_passes : relockEnded.failing 2048 relockSet relockSet relockDemand = [] := by
  have haba : badAba relockSet = false := by
    have hrange : List.range 48 = List.range' 0 12 ++ List.range' 12 12 ++ List.range' 24 12 ++ List.range' 36 12 := by decide
    unfold badAba
    rw [hrange]
    simp only [List.any_append, Bool.or_eq_false_iff]
    refine ⟨⟨⟨?_, ?_⟩, ?_⟩, ?_⟩
    · decide +kernel
    · decide +kernel
    · decide +kernel
    · decide +kernel
  have hspace : badSpace relockSet = false := by decide +kernel
  have hevent : badEvent relockSet = false := by decide +kernel
  have hexc : decide (1310720 < excTotal relockSet) = false := by decide +kernel
  unfold State.failing
  rw [haba, hspace, hevent, hexc]
  decide +kernel

/-- The new set in force on that device. -/
def relockActive : State := (relockEnded.setActive 2048 relockSet).stoCommit relockDemand 1376733

/-- That set moves the loop's frequency too far to follow, with CLKBYP good and a calibration run waiting. -/
theorem relockActive_clock : clkChange relockEnded.loopRegs relockActive.clkShown.regs = true ∧
    relockActive.clkSmall relockEnded.loopRegs relockActive.clkShown.regs = false ∧ relockActive.clkShown.flag F.CLK_STATUS_FABRIC_BYP = false ∧
    relockActive.clkShown.flag F.CLK_STATUS_BYP_OK = true ∧ relockActive.clkShown.cal.runs ≠ [] :=
  ⟨by decide +kernel, by decide +kernel, by decide +kernel, by decide +kernel, by decide +kernel⟩

theorem relock_commit : relockEnded.commitAtB 2048 0 = relockEnded.decideCommit 2048 0 ⟨0, 0, 0, 0, 0, 0, .host⟩ false :=
  relockEnded.commitAtB_decides 0 rfl (by decide) (by decide)

/-- The commit asks for an abort. -/
theorem relock_aborts : (relockEnded.commitAtB 2048 0).cal.abort.isSome = true := by
  obtain ⟨hnamed, hkept, hdemand, hshown⟩ := relock_demand
  rw [relock_commit, relockEnded.decideCommit_abort 2048 0 relockState_ends.2.symm (hkept.symm.trans (by rw [hnamed])) hdemand.symm
    hshown.symm rfl (by rw [hnamed]; exact relock_passes), State.activate_abort]
  obtain ⟨hchanges, hsmall, hbyp, hok, hruns⟩ := relockActive_clock
  exact relockActive.clkCommit_aborts 2048 hchanges hsmall hbyp hok hruns

/-- What the boundary does after the commit leaves the abort. -/
theorem State.boundary_abort (s : State) (inHigh b : Nat) (hb : b = s.nextTick) : (s.boundary inHigh).cal.abort =
    ((((({ s.at_ b with tick := b } : State).skipsDue).endTick b).calAbortAt b).commitAtB b inHigh).cal.abort := by
  subst hb
  unfold State.boundary State.tickOpen
  simp

/-- Refutes O9: a commit that changes the sample clock's frequency at the boundary moves the fabric to CLKBYP, which asks for the abort of
the calibration runs (Table 14.5) after this boundary's abort has acted, so one is pending when the boundary is over. -/
theorem not_boundariesMoveTheDeviceOn : ¬ Obligations.BoundariesMoveTheDeviceOn := by
  unfold Obligations.BoundariesMoveTheDeviceOn
  rintro ⟨-, hmoves⟩
  obtain ⟨t, ht, -, -, -, -, habort, -⟩ := hmoves 0 relockState rfl rfl
  have hexec : exec (.tickBoundary 0) relockState = .next (relockState.boundary 0) := congrArg Host.Outcome.next (if_pos rfl)
  have hstate : relockState.boundary 0 = t := Host.Outcome.next.inj (hexec.symm.trans ht)
  have hpending : (relockState.boundary 0).cal.abort.isSome = true := by
    rw [State.boundary_abort relockState 0 2048 rfl, relockState_ends.1]
    exact relock_aborts
  rw [hstate, habort] at hpending
  exact absurd hpending (by decide)

end Sys2Proof.Machine
end
